-- ==== Sys2Proof/Word.lean ====
section
/-! DEFINITION. The word and byte of the host register space (spec/00_scope.md R4) and the shape of a sparse table.
Only the types stand here; every operation on them stands in a file under Machine/. -/

namespace Sys2Proof

/-- A word is 16 bits, bit 0 least significant (R4). -/
abbrev Word := BitVec 16

/-- A byte of DRAM, flash, keep store or a message. -/
abbrev Byte := BitVec 8

/-- A host register address: a 24-bit word address (R4). -/
abbrev Addr := BitVec 24

/-- A sparse table: the entries that differ from the table's default, keys strictly rising.
Memory is the table of `Host.Cell`s (address, byte). -/
abbrev Tab (α : Type) := List (Nat × α)

end Sys2Proof
end

