-- ==== Sys2Proof/Syntax.lean ====
section
/-! DEFINITION. The commands of the block: one constructor of `Instr` per row of spec/opcode_table.json, first those with operands, then
those without, each in the table's order.
The table gives its rows no bits. A row that stands for an act of the firmware on a mailbox command takes no operand:
it executes the command that FIRMWARE_PICK copied into SRAM (R81). A row that stands for an event takes what the
outside world contributes to it (a reading, an edge, a reply). -/

namespace Sys2Proof

abbrev Bed := Fin 16
abbrev Pin := Fin 512
/-- L000 to L543 (R230): pin paths, then heavy loops. -/
abbrev LoopId := Fin 544
abbrev Heavy := Fin 32
abbrev Seq := Fin 64
abbrev Mbox := Fin 8
abbrev Stage := Fin 16
abbrev Zone := Fin 5
/-- Fault block 0x00 to 0x1B (R3, R508). -/
abbrev Block := Fin 28
abbrev Ring := BitVec 16
abbrev SegId := Fin 16384
abbrev TimeUnit := Fin 32
abbrev Monitor := Fin 64

/-- The two masters of the register bus (R53). -/
inductive Master | host | shed
deriving DecidableEq, Repr

/-- The two trellis ports (R396): LINK0 faces the root, LINK1 the tip. -/
inductive Port | link0 | link1
deriving DecidableEq, Repr

/-- What woke the part from DEEP (R42). -/
inductive Wake | tin0 (rising : Bool) | lane | resetN
deriving DecidableEq, Repr

/-- Read formats of the boot flash, in the order of choice of R434. -/
inductive FlashFmt | f888 | f118 | f444 | f144 | f114 | f111
deriving DecidableEq, Repr

/-- The flash's discoverable-parameter table, as far as R434 uses it: the formats it declares with a mode-entry
sequence and its highest SCK in MHz. -/
structure Sfdp where
  formats : List FlashFmt
  maxMHz  : Nat
deriving DecidableEq, Repr

/-- What the outside world answers at boot step 4 to 7 (R32, R204, R434). -/
structure BootEnv where
  /-- REFCLK is judged present at step 4 (R28, R33). -/
  refclk  : Bool := true
  /-- DRAM found at memory training, in MiB. -/
  dramMib : Nat
  /-- The parameter table, none if absent or its signature fails. -/
  sfdp    : Option Sfdp
  /-- For each read of slot A's header at format and SCK (MHz), the SAMPLE_DELAY values 0 to 7 that match (bit k). -/
  reads   : List (FlashFmt × Nat × BitVec 8)
deriving DecidableEq, Repr

/-- The header fields of a message that its row needs (R412). -/
structure MsgHdr where
  dest  : BitVec 7
  src   : BitVec 7
  norsp : Bool
  mtag  : Word
deriving DecidableEq, Repr

/-- An URGENT message's own fields (R413). -/
structure UrgentMsg where
  origin : BitVec 7
  block  : Byte
  source : Byte
  urgId  : Word
  time   : Nat
deriving DecidableEq, Repr

/-- How a link-control flit arrived: the stamp of its first block in fine steps, and all sync headers valid or not (R398, R421). -/
structure CtrlArrival where
  time   : Nat
  syncOk : Bool
deriving DecidableEq, Repr

/-- A comparator state (R113). -/
inductive Cmp | low | mid | high
deriving DecidableEq, Repr

/-- What a lane's compare slice returns for one vector: the state at STRB, and whether a change lasting at least the
comparator's response came between STRB and WCLOSE (R118 CW). -/
structure LaneCmp where
  state   : Cmp
  changed : Bool
deriving DecidableEq, Repr

/-- One raw conversion of a loop converter: the voltage and the current channel, two's complement (R318, R320). -/
structure Conv where
  v : BitVec 16
  i : BitVec 16
deriving DecidableEq, Repr

/-- How a DRAM fetch ended (R203). -/
inductive FetchResult | ok | corrected (channel : Fin 2) | uncorrectable
deriving DecidableEq, Repr

/-- The memory controller's answer to a burst (R374). -/
inductive BurstResponse | ack | refused | corrected
deriving DecidableEq, Repr

/-- An averager: a loop's, or a bed's monitor averager (R325). -/
inductive AvgId | loop (l : LoopId) | monitor (b : Bed)
deriving DecidableEq, Repr

/-- One on-die sensor conversion (R452, R462): a reading in 0.0625 °C, or a conversion fault. -/
inductive SensorRead | reading (code : Int) | fault
deriving DecidableEq, Repr

/-- What can enter or leave a thermal level (R454, R457, R466). -/
inductive LevelId
  | warn (z : Zone)
  | throttle (z : Zone) (n : Fin 3)   -- T1, T2, T3
  | clocheGroup (b : Bed)
  | clocheZ0
  | clocheTh (n : Bed)
  | shutdown
deriving DecidableEq, Repr

/-- A temperature input: on-die sensor or thermistor (R462). -/
inductive TempInput | sensor (s : Fin 48) | thermistor (n : Bed)
deriving DecidableEq, Repr

/-- A fault that hardware detects and that no other row reports: source, D0, D1 (R514). -/
structure DirectFault where
  source : Nat
  d0     : Word
  d1     : Word
deriving DecidableEq, Repr

/-- What a calibration measured (R483 to R487, R491), as far as its judgement and its record need. -/
structure CalMeas where
  /-- Per code-density population the 16 counts of stamp tick mod 16 (R484). -/
  density    : List (List Nat)
  /-- A fine position without a stamp exists (R484). -/
  finePosStuck : Bool
  /-- Per channel the 512-bin histogram (R485). -/
  histograms : List (List Nat)
  /-- Per channel: largest single-code count, occupied span and expected span in codes, OVR samples (R485). -/
  codeStats  : List (Nat × Nat × Nat × Nat)
  /-- Largest disagreement of the two passes: 0.001 ps or 0.001 LSB (R486). -/
  repeatMilli : Nat
  /-- Largest temperature change of a sensor that R486 watches, in 0.0625 °C. -/
  tempChange : Nat
  /-- Quality figures per scope (index, first, second) in 0.001 of their unit (R487). -/
  quality    : List (Nat × Nat × Nat)
  /-- REFV_CHECK: per bed the deviation in 10⁻¹² V (R491). -/
  refvDev    : List Nat
  /-- New body bytes of the calibration image: (body offset, byte) (R488, R495). -/
  patch      : List (Nat × Byte)
deriving DecidableEq, Repr

/-- The commands. Each constructor's docstring names its row and rule. -/
inductive Instr
  /-- POWER_ON_RESET (R32); the strap SP0_WSEL is sampled (R433). -/
  | powerOnReset (wsel : BitVec 2)
  /-- PIN_RESET (R35): RESET_N low for the given time in ns (R564). -/
  | pinReset (lowNs : Nat)
  /-- PLL_LOCK (R32). -/
  | pllLock (env : BootEnv)
  /-- REF_LOST (R29): the REFCLK edges counted in the window (R28). -/
  | refLost (edges : Nat)
  /-- REFCLK_RETURN (R31): the edge counts of the last 64 periods of the always-on oscillator (R28). -/
  | refclkReturn (counts : List Nat)
  /-- BLOCK_RESET_END (R99). -/
  | blockResetEnd (k : Block)
  /-- DEEP_WAKE (R47). -/
  | deepWake (cause : Wake) (wsel : BitVec 2)
  /-- STANDBY_EXIT_COMPLETE (R46). -/
  | standbyExitComplete (b : Bed)
  /-- REGISTER_WRITE_PLAIN (R71): one bus write. -/
  | registerWritePlain (m : Master) (a : Addr) (w : Word)
  /-- ALIAS_WRITE (R57): one bus write to a bit alias. -/
  | aliasWrite (m : Master) (a : Addr) (w : Word)
  /-- GUARD_VALUE_WRITE (R59): a write to a guarded address. -/
  | guardValueWrite (m : Master) (a : Addr) (w : Word)
  /-- GUARD_WINDOW_EXPIRY (R60). -/
  | guardWindowExpiry (m : Master)
  /-- CHIP_RESET (R63): the complement write to 0x00_0111. -/
  | chipReset (m : Master) (w : Word)
  /-- CLOCHE_OVERRIDE (R73): the complement write to 0x00_0113. -/
  | clocheOverride (m : Master) (w : Word)
  /-- CLOCHE_RELEASE (R73): the complement write to 0x00_0115. -/
  | clocheRelease (m : Master) (w : Word)
  /-- KEEP_WE (R74): the complement write to 0x00_0117. -/
  | keepWe (m : Master) (w : Word)
  /-- SHUTDOWN_CLEAR (R473): the complement write to 0x00_0119. -/
  | shutdownClear (m : Master) (w : Word)
  /-- FW_COMMIT (R74): the complement write to 0x00_011B. -/
  | fwCommit (m : Master) (w : Word)
  /-- FAULT_FORCE_REGISTER (R528): the complement write to block base + 0x3F. -/
  | faultForceRegister (m : Master) (k : Block) (w : Word)
  /-- PERTURB_ARM (R529): the complement write to 0x01_0001. -/
  | perturbArm (m : Master) (w : Word)
  /-- DOORBELL_WRITE (R80): a write to a mailbox's DOORBELL word. -/
  | doorbellWrite (m : Master) (n : Mbox) (w : Word)
  /-- MAILBOX_ACK (R78): a write to a mailbox's ACK word. -/
  | mailboxAck (m : Master) (n : Mbox) (w : Word)
  /-- FAULT_ACK (R516): a write to a block's ACK word. -/
  | faultAck (m : Master) (k : Block) (w : Word)
  /-- RELEASE_POST (R383): the write of 0x00_4013. -/
  | releasePost (m : Master) (w : Word)
  /-- RING_SNAPSHOT_READ (R382): a read of 0x00_4002. -/
  | ringSnapshotRead (m : Master)
  /-- TRIG_FORCE (R211): the write to 0x00_0208. -/
  | trigForce (m : Master) (w : Word)
  /-- REG_READ (R413). -/
  | regRead (h : MsgHdr) (a : Addr)
  /-- REG_WRITE (R70). -/
  | regWrite (h : MsgHdr) (a : Addr) (ws : List Word)
  /-- REG_BURST_READ (R68). -/
  | regBurstRead (h : MsgHdr) (a : Addr) (count : Word)
  /-- MAILBOX_POST (R416). -/
  | mailboxPost (h : MsgHdr) (n : Byte) (ws : List Word)
  /-- DOORBELL (R80). -/
  | doorbell (h : MsgHdr) (n : Byte)
  /-- BULK_READ (R413). -/
  | bulkRead (h : MsgHdr) (a : BitVec 40) (count : Word)
  /-- BULK_WRITE (R415). -/
  | bulkWrite (h : MsgHdr) (a : BitVec 40) (data : List Byte)
  /-- RELEASE (R383). -/
  | release (h : MsgHdr) (ring : Ring) (flags : Byte) (relPos : BitVec 32)
  /-- URGENT (R417): received at a port. -/
  | urgent (p : Port) (u : UrgentMsg)
  /-- SYNC_MARK (R422): arrival stamp and residence in fine steps. -/
  | syncMark (dest : BitVec 7) (dTotal dAcc : BitVec 32) (epoch : BitVec 64) (arrival : Nat) (residence : Nat)
  /-- DATA_FLIT_RECEIVE (R407): 32 bytes; all sync headers valid or not (R398). -/
  | dataFlitReceive (p : Port) (bytes : List Byte) (syncOk : Bool)
  /-- LINK_CTRL_RECEIVE (R406): 32 bytes and how they arrived. -/
  | linkCtrlReceive (p : Port) (bytes : List Byte) (arrival : CtrlArrival)
  /-- REPLAY_TIMEOUT (R407). -/
  | replayTimeout (p : Port) (cls : Fin 4)
  /-- CREDIT_TIMEOUT (R405). -/
  | creditTimeout (p : Port) (cls : Fin 4)
  /-- LINK_CTRL_DUE (R404). -/
  | linkCtrlDue (p : Port)
  /-- DELAY_EXCHANGE_TIMER (R421): the departure stamp in fine steps. -/
  | delayExchangeTimer (departure : Nat)
  /-- TIME_CHECK_TIMER (R425): the departure stamp in fine steps. -/
  | timeCheckTimer (departure : Nat)
  /-- BLOCK_LOCK_LOSS (R402). -/
  | blockLockLoss (p : Port)
  /-- LANE_SIGNAL_DETECT (R400): lanes with signal. -/
  | laneSignalDetect (p : Port) (lanes : BitVec 4)
  /-- LANE_EQUALISE_DONE (R400): per lane the eye (mUI, mV) here, and the lanes that qualify at the partner. -/
  | laneEqualiseDone (p : Port) (eyes : List (Nat × Nat)) (partner : BitVec 4)
  /-- DELAY_MEASURE_DONE (R400): the mean one-way delay and the partner's OWN_ADDR. -/
  | delayMeasureDone (p : Port) (delay : Nat) (ownAddr : BitVec 7)
  /-- TRAINING_RETRY (R400). -/
  | trainingRetry (p : Port)
  /-- GROUP_STROBE_DUE (R131). -/
  | groupStrobeDue (g : Fin 8)
  /-- EPOCH_LOAD_DUE (R131): the chip time that falls due. -/
  | epochLoadDue (t : Nat)
  /-- DRV_OC (R140). -/
  | drvOc (p : Pin)
  /-- MONITOR_SLOT (R134): the code the bed's monitor converter read in its present slot. -/
  | monitorSlot (b : Bed) (code : BitVec 16)
  /-- DAC_READBACK (R135). -/
  | dacReadback (b : Bed) (slot : Fin 165)
  /-- CLOCK_CHANGE_DUE (R174). -/
  | clockChangeDue (b : Bed) (ck : Fin 4)
  /-- TDLL_UNLOCK (R154). -/
  | tdllUnlock (b : Bed)
  /-- TDLL_RELOCK (R154). -/
  | tdllRelock (b : Bed)
  /-- SEG_LOAD_DONE (R186): the vector index of an uncorrectable DRAM error, if any. -/
  | segLoadDone (ue : Option Nat)
  /-- SEGMENT_FETCH_DONE (R196). -/
  | segmentFetchDone (g : SegId) (r : FetchResult)
  /-- BURST_START (R227): the chip time Ts. -/
  | burstStart (ts : Nat)
  /-- VECTOR_CYCLE (R187). -/
  | vectorCycle (q : Seq)
  /-- VECTOR_JUDGEMENT (R189): what the lanes' compare slices return for the oldest vector not yet judged. -/
  | vectorJudgement (q : Seq) (lanes : List LaneCmp)
  /-- TIN_EDGE (R212). -/
  | tinEdge (n : Fin 4) (rising : Bool)
  /-- TRIG_PULSE_END (R211). -/
  | trigPulseEnd (n : Fin 8)
  /-- LOOP_FORCE_DUE (R270). -/
  | loopForceDue (l : LoopId)
  /-- LOOP_START_MEASURED (R270): the terminal voltage as a code, from 4 samples. -/
  | loopStartMeasured (l : LoopId) (v : Int)
  /-- LOOP_SAMPLE (R252): the conversion completed at this boundary. -/
  | loopSample (l : LoopId) (c : Conv)
  /-- LAW_RETURN (R246). -/
  | lawReturn (l : LoopId)
  /-- COMPLY_TRIP (R249). -/
  | complyTrip (l : LoopId)
  /-- AUTO_RANGE_DECISION (R256). -/
  | autoRangeDecision (l : LoopId)
  /-- RANGE_SETTLE_DONE (R254). -/
  | rangeSettleDone (l : LoopId)
  /-- COEF_SWAP_DUE (R289). -/
  | coefSwapDue (l : LoopId)
  /-- STAGE_DISS (R237). -/
  | stageDiss (h : Heavy)
  /-- SWEEP_STEP (R265). -/
  | sweepStep (l : LoopId)
  /-- PROFILE_MOVE_END (R299). -/
  | profileMoveEnd (l : LoopId)
  /-- WAVE_LOAD_DONE (R315): both reads of a block met an uncorrectable error. -/
  | waveLoadDone (ue : Bool)
  /-- WAVE_RUN_END (R302). -/
  | waveRunEnd (l : LoopId)
  /-- SINE_CHANGE_DUE (R306). -/
  | sineChangeDue (l : LoopId)
  /-- SINE_CYCLES_END (R306). -/
  | sineCyclesEnd (l : LoopId)
  /-- SINE_RAMP_END (R308). -/
  | sineRampEnd (l : LoopId)
  /-- MEAS_WINDOW_END (R326). -/
  | measWindowEnd (a : AvgId)
  /-- RAW_RECORD_CLOSE (R332): the channel, 0 V and 1 I. -/
  | rawRecordClose (a : AvgId) (ch : Fin 2)
  /-- LOCKIN_WINDOW_END (R330). -/
  | lockinWindowEnd (l : LoopId)
  /-- WM_DECISION_CHANGE (R336): the side of the band the input has reached, high or low. -/
  | wmDecisionChange (u : Monitor) (high : Bool)
  /-- WM_SETTLING_END (R339): the decision if the input lies outside the band, none inside it. -/
  | wmSettlingEnd (u : Monitor) (resolved : Option Bool)
  /-- WM_PERIOD_END (R338). -/
  | wmPeriodEnd (u : Monitor)
  /-- TIU_EDGE (R351): a transition of the channel's source, START or STOP, its time in fine steps. -/
  | tiuEdge (u : TimeUnit) (stop : Bool) (stamp : Nat) (fall : Bool)
  /-- TIU_GATE_END (R356). -/
  | tiuGateEnd (u : TimeUnit)
  /-- TIU_TIMEOUT (R355). -/
  | tiuTimeout (u : TimeUnit)
  /-- TIM_STAMPS_CLOSE (R360). -/
  | timStampsClose (u : TimeUnit)
  /-- BANK_HANDOFF_TIMEOUT (R370). -/
  | bankHandoffTimeout (st : Fin 17)
  /-- DRAM_BURST_RESPONSE (R374): the answer to the stager's burst in flight; words of the burst that failed parity (R372). -/
  | dramBurstResponse (st : Fin 17) (r : BurstResponse) (parity : Option (Fin 128))
  /-- NOTIFY_TIMEOUT (R384). -/
  | notifyTimeout (ring : Ring)
  /-- CYCLIC_EXCHANGE_DUE (R444): the frame started within one frame time of its due time, or not. -/
  | cyclicExchangeDue (st : Stage) (late : Bool)
  /-- STAGE_REPLY (R440): the in words of the frame that ended. -/
  | stageReply (st : Stage) (ws : List Word)
  /-- STAGE_LOST (R440). -/
  | stageLost (st : Stage)
  /-- XIP_FETCH (R435): a shed address of the execute-in-place window. -/
  | xipFetch (a : BitVec 32)
  /-- SENSOR_SAMPLE (R452): 48 sensors, 14 rails (mV), 5 process monitors. -/
  | sensorSample (t : List SensorRead) (rails : List Int) (pm : List Word)
  /-- THERMAL_LEVEL_ENTER (R456). -/
  | thermalLevelEnter (v : LevelId)
  /-- THERMAL_LEVEL_EXIT (R456). -/
  | thermalLevelExit (v : LevelId)
  /-- THROTTLE_GRACE_END (R461). -/
  | throttleGraceEnd (z : Zone) (n : Fin 3)
  /-- THROTTLE_REPEAT (R460). -/
  | throttleRepeat (z : Zone)
  /-- SENSOR_BROKEN (R462). -/
  | sensorBroken (x : TempInput)
  /-- SENSOR_RECOVER (R462). -/
  | sensorRecover (x : TempInput)
  /-- CHARGE_WINDOW_LEAVE (R468). -/
  | chargeWindowLeave (h : Heavy)
  /-- CHARGE_WINDOW_RETURN (R468). -/
  | chargeWindowReturn (h : Heavy)
  /-- RAIL_CROSSING (R469): rail index, die for indices 14 and 15, over or under. -/
  | railCrossing (rail : Fin 16) (die : Fin 4) (high : Bool)
  /-- CAL_RUN_END (R488). -/
  | calRunEnd (m : CalMeas)
  /-- CAL_COMMIT_DONE (R496): the read-back of body, header and marker matched; a sector past its wear limit was met. -/
  | calCommitDone (readOk : Bool)
  /-- PERTURB_WINDOW_START (R530). -/
  | perturbWindowStart (e : Fin 16)
  /-- PERTURB_WINDOW_END (R530). -/
  | perturbWindowEnd (e : Fin 16)
  /-- FAULT_REGISTER (R515): the block registers what waits for it, with what hardware detects in the same cycle. -/
  | faultRegister (k : Block) (direct : List DirectFault)
  /-- CLOCHE_SETTLED (R526). -/
  | clocheSettled (b : Bed)
  /-- BLOCK_LOCK_ACQUIRED (R400). -/
  | blockLockAcquired (p : Port)
  /-- DRV_OC_CLEARED (R140). -/
  | drvOcCleared (p : Pin)
  /-- RAIL_THRESHOLD_EXIT (R469). -/
  | railThresholdExit (rail : Fin 16) (die : Fin 4) (high : Bool)
  /-- MB_DELAY_END (R530). -/
  | mbDelayEnd (n : Mbox)
  /-- POWER_LOSS (R550). -/
  | powerLoss
  /-- RESET_END (R37). -/
  | resetEnd
  /-- FIRMWARE_READY (R101). -/
  | firmwareReady
  /-- PLL_RELOCK (R31). -/
  | pllRelock
  /-- WATCHDOG_EXPIRY (R40). -/
  | watchdogExpiry
  /-- ACTIVATION_RESTART (R111). -/
  | activationRestart
  /-- TRAP_TIMEOUT (R518). -/
  | trapTimeout
  /-- DEEP_ENTRY (R43). -/
  | deepEntry
  /-- DRAM_WAKE_COMPLETE (R45). -/
  | dramWakeComplete
  /-- DRAM_SELF_REFRESH_TIMEOUT (R45). -/
  | dramSelfRefreshTimeout
  /-- LOCAL_SYNC (R423). -/
  | localSync
  /-- PHASE_SLEW_END (R423). -/
  | phaseSlewEnd
  /-- FIRMWARE_PICK (R81). -/
  | firmwarePick
  /-- HELLO (R90). -/
  | hello
  /-- GET_INFO (R96). -/
  | getInfo
  /-- GET_STATUS (R97). -/
  | getStatus
  /-- QUERY_PROGRESS (R93). -/
  | queryProgress
  /-- ABORT (R94). -/
  | abort
  /-- CLOCHE (R98). -/
  | cloche
  /-- RELEASE_CLOCHE (R98). -/
  | releaseCloche
  /-- SET_POWER_ACTIVE (R42). -/
  | setPowerActive
  /-- SET_POWER_IDLE (R44). -/
  | setPowerIdle
  /-- SET_POWER_STANDBY (R42). -/
  | setPowerStandby
  /-- SET_POWER_DEEP (R43). -/
  | setPowerDeep
  /-- RESET_BLOCK (R99). -/
  | resetBlock
  /-- FW_UPDATE_BEGIN (R109). -/
  | fwUpdateBegin
  /-- FW_ERASE_DONE (R109). -/
  | fwEraseDone
  /-- FW_UPDATE_DATA (R110). -/
  | fwUpdateData
  /-- FW_UPDATE_COMMIT (R111). -/
  | fwUpdateCommit
  /-- FW_UPDATE_CONFIRM (R111). -/
  | fwUpdateConfirm
  /-- LOG_READ (R100). -/
  | logRead
  /-- PIN_MAP (R143). -/
  | pinMap
  /-- SET_LEVELS (R145). -/
  | setLevels
  /-- LOAD_GROUP_DEFINE (R147). -/
  | loadGroupDefine
  /-- LOAD_GROUP_STROBE_NOW (R148). -/
  | loadGroupStrobeNow
  /-- LOAD_GROUP_STROBE_AT (R148). -/
  | loadGroupStrobeAt
  /-- LOAD_GROUP_CANCEL (R148). -/
  | loadGroupCancel
  /-- SET_PIN_MODE (R149). -/
  | setPinMode
  /-- CONNECT (R150). -/
  | connect
  /-- CONNECT_SWITCH_CLOSE (R126). -/
  | connectSwitchClose
  /-- CONNECT_SETTLED (R126). -/
  | connectSettled
  /-- TS_WRITE (R179). -/
  | tsWrite
  /-- TS_READ (R180). -/
  | tsRead
  /-- CLOCK_OUT_SET (R182). -/
  | clockOutSet
  /-- CLOCK_OUT_STOP (R182). -/
  | clockOutStop
  /-- CLOCK_OUT_ASSIGN (R182). -/
  | clockOutAssign
  /-- SEG_LOAD (R220). -/
  | segLoad
  /-- SEG_PIN_PIN (R221). -/
  | segPinPin
  /-- SEG_PIN_UNPIN (R221). -/
  | segPinUnpin
  /-- SEG_PIN_UNPIN_ALL (R221). -/
  | segPinUnpinAll
  /-- SEG_PIN_FETCH (R221). -/
  | segPinFetch
  /-- STREAM_OPEN_OPEN (R223). -/
  | streamOpenOpen
  /-- STREAM_OPEN_APPEND (R223). -/
  | streamOpenAppend
  /-- STREAM_OPEN_CLOSE (R223). -/
  | streamOpenClose
  /-- STREAM_OPEN_MAP (R223). -/
  | streamOpenMap
  /-- BURST_RUN (R225). -/
  | burstRun
  /-- BURST_STOP (R228). -/
  | burstStop
  /-- JUMP_REQUEST (R229). -/
  | jumpRequest
  /-- LOOP_CONFIG (R269). -/
  | loopConfig
  /-- LOOP_CONFIG_READ (R269). -/
  | loopConfigRead
  /-- LOOP_FORCE (R270). -/
  | loopForce
  /-- LOOP_RANGE (R271). -/
  | loopRange
  /-- LOOP_COMPLY (R272). -/
  | loopComply
  /-- SWEEP_LOAD (R273). -/
  | sweepLoad
  /-- SWEEP_RUN (R274). -/
  | sweepRun
  /-- CHIP_DISS_UPDATE (R238). -/
  | chipDissUpdate
  /-- GAIN_TABLE_LOAD (R311). -/
  | gainTableLoad
  /-- GAIN_TABLE_READ (R311). -/
  | gainTableRead
  /-- REGION_SET_DEFINE (R313). -/
  | regionSetDefine
  /-- REGION_SET_WRITE (R313). -/
  | regionSetWrite
  /-- REGION_SET_READ (R313). -/
  | regionSetRead
  /-- COEF_SWAP_STAGE (R312). -/
  | coefSwapStage
  /-- COEF_SWAP_SWAP (R312). -/
  | coefSwapSwap
  /-- COEF_SWAP_STAGE_SWAP (R312). -/
  | coefSwapStageSwap
  /-- COEF_SWAP_READ (R312). -/
  | coefSwapRead
  /-- PROFILE_MOVE (R314). -/
  | profileMove
  /-- WAVE_LOAD (R315). -/
  | waveLoad
  /-- WAVE_RUN_START (R316). -/
  | waveRunStart
  /-- WAVE_RUN_JUMP (R303). -/
  | waveRunJump
  /-- WAVE_RUN_STOP (R316). -/
  | waveRunStop
  /-- SINE_RUN_START (R317). -/
  | sineRunStart
  /-- SINE_RUN_CHANGE (R306). -/
  | sineRunChange
  /-- SINE_RUN_STOP (R317). -/
  | sineRunStop
  /-- MEAS_CONFIG (R344). -/
  | measConfig
  /-- MEAS_CONFIG_READ (R344). -/
  | measConfigRead
  /-- MEAS_RUN_START (R345). -/
  | measRunStart
  /-- MEAS_RUN_STOP (R345). -/
  | measRunStop
  /-- LOCKIN_RUN_START (R346). -/
  | lockinRunStart
  /-- LOCKIN_RUN_STOP (R346). -/
  | lockinRunStop
  /-- WM_CONFIGURE (R347). -/
  | wmConfigure
  /-- WM_ENABLE (R348). -/
  | wmEnable
  /-- WM_DISABLE (R348). -/
  | wmDisable
  /-- WM_CLEAR (R348). -/
  | wmClear
  /-- WM_READ (R348). -/
  | wmRead
  /-- TIM_CONFIG (R366). -/
  | timConfig
  /-- TIM_CONFIG_READ (R366). -/
  | timConfigRead
  /-- TIM_RUN_START (R367). -/
  | timRunStart
  /-- TIM_RUN_STOP (R367). -/
  | timRunStop
  /-- RING_CREATE (R392). -/
  | ringCreate
  /-- RING_DESTROY (R393). -/
  | ringDestroy
  /-- RING_POLICY (R394). -/
  | ringPolicy
  /-- RING_POLICY_READ (R394). -/
  | ringPolicyRead
  /-- STAGE_ATTACH_ATTACH (R449). -/
  | stageAttachAttach
  /-- STAGE_ATTACH_DETACH (R449). -/
  | stageAttachDetach
  /-- STAGE_ATTACH_WRITE (R449). -/
  | stageAttachWrite
  /-- STAGE_READ_READ (R450). -/
  | stageReadRead
  /-- STAGE_READ_STATUS (R450). -/
  | stageReadStatus
  /-- FLASH_OP_DONE (R436). -/
  | flashOpDone
  /-- FLASH_TIMEOUT (R436). -/
  | flashTimeout
  /-- KEEP_WINDOW_CLOSE (R470). -/
  | keepWindowClose
  /-- KEEP_WINDOW_OPEN (R470). -/
  | keepWindowOpen
  /-- SHUTDOWN_POWER_DOWN (R471). -/
  | shutdownPowerDown
  /-- TRIP_LOG_WRITTEN (R471). -/
  | tripLogWritten
  /-- SHUTDOWN_EXIT_CONDITION (R473). -/
  | shutdownExitCondition
  /-- THERM_CONFIG_LEVELS (R478). -/
  | thermConfigLevels
  /-- THERM_CONFIG_THERMISTOR (R478). -/
  | thermConfigThermistor
  /-- THERM_CONFIG_RAIL (R478). -/
  | thermConfigRail
  /-- THERM_CONFIG_READ (R478). -/
  | thermConfigRead
  /-- CHARGE_WINDOW (R479). -/
  | chargeWindow
  /-- CHARGE_WINDOW_READ (R479). -/
  | chargeWindowRead
  /-- THROTTLE_ACK (R480). -/
  | throttleAck
  /-- CAL_RUN (R503). -/
  | calRun
  /-- CAL_COMMIT (R504). -/
  | calCommit
  /-- CAL_SELECT_LOAD (R505). -/
  | calSelectLoad
  /-- CAL_SELECT_STATUS (R505). -/
  | calSelectStatus
  /-- CAL_SELECT_QUALITY (R505). -/
  | calSelectQuality
  /-- KEEP_WRITE_DATA (R506). -/
  | keepWriteData
  /-- KEEP_WRITE_COMMIT (R500). -/
  | keepWriteCommit
  /-- KEEP_WRITE_CAPTURE (R506). -/
  | keepWriteCapture
  /-- KEEP_WRITE_DISCARD (R506). -/
  | keepWriteDiscard
  /-- KEEP_READ (R507). -/
  | keepRead
  /-- FAULT_CONFIG (R532). -/
  | faultConfig
  /-- FAULT_CONFIG_READ (R532). -/
  | faultConfigRead
  /-- FAULT_FORCE (R533). -/
  | faultForce
  /-- PERTURB_SET (R534). -/
  | perturbSet
  /-- PERTURB_SET_READ (R534). -/
  | perturbSetRead
  /-- ERRN_PULSE_END (R520). -/
  | errnPulseEnd
  /-- SEG_PIN_RESIDENCY_TIMEOUT (R221). -/
  | segPinResidencyTimeout
  /-- BURST_RUN_ENTRY_TIMEOUT (R225). -/
  | burstRunEntryTimeout
  /-- KEEP_OPERATION_DONE (R493). -/
  | keepOperationDone
deriving DecidableEq, Repr

end Sys2Proof
end

