-- ==== Sys2Proof/Config.lean ====
section
/-! DEFINITION. What the spec leaves to the part or leaves open: free values and constants without a body. No proof can
see what they are, so a statement holds for every choice of them. -/

namespace Sys2Proof.Config

/-- The free values (DESIGN CHOICE 1): the n-th value the model takes where the spec states none. -/
opaque freeValue : Nat → Nat

/-- kT and kP of R166 as numerator and denominator, in fine steps per °C and per process-monitor code: factory
coefficients whose values the spec does not give. -/
opaque driftT : Int × Nat
opaque driftP : Int × Nat

/-- The taps h[phase][t] of R301 as Q1.15 integers, by phase 1 to 255 and t + 3: a fixed filter bank whose numbers the
spec does not give. -/
opaque waveTap : Nat → Nat → Int

/-- The linearity correction of a converter's raw code by the 64 signed points of its entry (R320, R495): how the points
are used is the part's. A numerator and a denominator, in codes. -/
opaque linearity : List Int → Int → Int × Nat

/-- The vendor key hash in one-time-programmable memory (R106), 32 bytes: a number of the part. -/
opaque vendorKeyHash : List Byte

end Sys2Proof.Config
end

