-- ==== Sys2Proof/Machine/Tab.lean ====
section
/-! DEFINITION. Operations on the sparse tables (`Tab`): a table lists, keys rising, only the entries that differ from
its default `d`. -/

namespace Sys2Proof.Machine

/-- The entry of key `k`: the listed one, else the default. -/
def tget {α : Type} (d : Nat → α) (m : Tab α) (k : Nat) : α :=
  match m.lookup k with
  | some v => v
  | none => d k

/-- The table without key `k`. -/
def tdel {α : Type} (m : Tab α) (k : Nat) : Tab α :=
  m.filter (fun e => e.1 != k)

/-- Insert an entry before the first greater key. -/
def tins {α : Type} (m : Tab α) (k : Nat) (v : α) : Tab α :=
  match m with
  | [] => [(k, v)]
  | e :: r => if k < e.1 then (k, v) :: e :: r else e :: tins r k v

/-- Set key `k` to `v`; the default value is not listed. -/
def tset {α : Type} [DecidableEq α] (d : Nat → α) (m : Tab α) (k : Nat) (v : α) : Tab α :=
  if v = d k then tdel m k else tins (tdel m k) k v

/-- Apply `f` to the entry of key `k`. -/
def tmod {α : Type} [DecidableEq α] (d : Nat → α) (m : Tab α) (k : Nat) (f : α → α) : Tab α :=
  tset d m k (f (tget d m k))

/-- Keys rise strictly from above `lo`, and no entry is the default. -/
def twfFrom {α : Type} [DecidableEq α] (d : Nat → α) : Option Nat → Tab α → Bool
  | _, [] => true
  | lo, e :: r =>
    (match lo with | none => true | some l => decide (l < e.1)) && decide (e.2 ≠ d e.1) && twfFrom d (some e.1) r

/-- The canonical form of a table. -/
def twf {α : Type} [DecidableEq α] (d : Nat → α) (m : Tab α) : Bool :=
  twfFrom d none m

/-- Memory's canonical form (Host.Cell: address, byte), for a memory whose unlisted addresses read `b`. -/
abbrev Memory.wf (b : Byte) (m : Tab Byte) : Bool := twf (fun _ => b) m

/-- The listed entries, one of each key. -/
def tents {α : Type} : Tab α → List (Nat × α)
  | [] => []
  | e :: r => e :: (tents r).filter (fun x => x.1 != e.1)

/-- Apply `f` to the entry of every listed key. -/
def tmapAll {α : Type} [DecidableEq α] (d : Nat → α) (m : Tab α) (f : Nat → α → α) : Tab α :=
  (tents m).foldl (fun t e => tset d t e.1 (f e.1 e.2)) m

/-- Read `n` consecutive entries from key `k`. -/
def tread {α : Type} (d : Nat → α) (m : Tab α) (k n : Nat) : List α :=
  (List.range n).map (fun i => tget d m (k + i))

/-- Write consecutive entries from key `k`. -/
def twrite {α : Type} [DecidableEq α] (d : Nat → α) (m : Tab α) (k : Nat) : List α → Tab α
  | [] => m
  | v :: r => twrite d (tset d m k v) (k + 1) r

/-- Entries for consecutive keys from `k`, without those at their default. -/
def tlist {α : Type} [DecidableEq α] (d : Nat → α) (k : Nat) : List α → Tab α
  | [] => []
  | v :: r => if v = d k then tlist d (k + 1) r else (k, v) :: tlist d (k + 1) r

/-- A long run of consecutive entries from key `k`, written at once. -/
def tput {α : Type} [DecidableEq α] (d : Nat → α) (m : Tab α) (k : Nat) (l : List α) : Tab α :=
  m.filter (fun e => decide (e.1 < k)) ++ tlist d k l ++ m.filter (fun e => decide (k + l.length ≤ e.1))

/-- The table with every key in `[lo, lo + n)` at its default. -/
def terase {α : Type} (m : Tab α) (lo n : Nat) : Tab α :=
  m.filter (fun e => decide (e.1 < lo) || decide (lo + n ≤ e.1))

end Sys2Proof.Machine
end

