-- ==== Sys2Proof/Machine/Bits.lean ====
section
/-! DEFINITION. Bit fields, words and bytes: values wider than a word take the least significant word first (R4), bytes
are little-endian. -/

namespace Sys2Proof.Machine

/-- A word from a number, low 16 bits. -/
def w16 (n : Nat) : Word := BitVec.ofNat 16 n

/-- A byte from a number, low 8 bits. -/
def b8 (n : Nat) : Byte := BitVec.ofNat 8 n

/-- Bit `k` of a number. -/
def bit (n k : Nat) : Bool := n.testBit k

/-- Bits `lo + len − 1 … lo` of a number. -/
def bits (n lo len : Nat) : Nat := (n >>> lo) % 2 ^ len

/-- 1 or 0. -/
def b2n (b : Bool) : Nat := if b then 1 else 0

/-- A word whose bit `k` is `b`, the others zero. -/
def flag (k : Nat) (b : Bool) : Nat := if b then 2 ^ k else 0

/-- `n` words of a number, least significant first. -/
def toWords (n v : Nat) : List Word :=
  (List.range n).map (fun i => w16 (v >>> (16 * i)))

/-- The number of words, least significant first. -/
def ofWords : List Word → Nat
  | [] => 0
  | w :: r => w.toNat + 65536 * ofWords r

/-- `n` bytes of a number, least significant first. -/
def toBytes (n v : Nat) : List Byte :=
  (List.range n).map (fun i => b8 (v >>> (8 * i)))

/-- The number of bytes, least significant first. -/
def ofBytes : List Byte → Nat
  | [] => 0
  | b :: r => b.toNat + 256 * ofBytes r

/-- Two's complement of an integer in `w` bits, as a number. -/
def toTwos (w : Nat) (z : Int) : Nat := (z % (2 ^ w : Int)).toNat

/-- The integer whose two's complement in `w` bits is `n`. -/
def ofTwos (w n : Nat) : Int :=
  let m := n % 2 ^ w
  if 2 * m < 2 ^ w then (m : Int) else (m : Int) - (2 ^ w : Int)

/-- A signed 16-bit value as a word. -/
def wInt (z : Int) : Word := w16 (toTwos 16 z)

/-- The signed value of a word. -/
def intW (w : Word) : Int := ofTwos 16 w.toNat

/-- Words as bytes, low byte of each word first (R110). -/
def wordsToBytes : List Word → List Byte
  | [] => []
  | w :: r => b8 w.toNat :: b8 (w.toNat / 256) :: wordsToBytes r

/-- Bytes as words, low byte first; an odd last byte is padded with zero. -/
def bytesToWords : List Byte → List Word
  | [] => []
  | [a] => [w16 a.toNat]
  | a :: b :: r => w16 (a.toNat + 256 * b.toNat) :: bytesToWords r

/-- Element `i` of a list of words, 0 beyond its end. -/
def wAt (l : List Word) (i : Nat) : Nat := (l.getD i 0).toNat

/-- Words `i` and `i + 1` as a 32-bit number. -/
def wAt32 (l : List Word) (i : Nat) : Nat := wAt l i + 65536 * wAt l (i + 1)

/-- `n` words from `i` as a number. -/
def wAtN (l : List Word) (i n : Nat) : Nat := ofWords ((List.range n).map (fun k => w16 (wAt l (i + k))))

/-- Set bits of a 16-bit mask, in rising order. -/
def maskList (n m : Nat) : List Nat := (List.range n).filter (fun k => bit m k)

/-- The mask of a list of indices. -/
def maskOf (l : List Nat) : Nat := l.foldl (fun m k => m ||| 2 ^ k) 0

/-- Saturating sum. -/
def satAdd (top a b : Nat) : Nat := min top (a + b)

/-- 2^16 − 1, 2^32 − 1, 2^48 and 2^64. -/
def max16 : Nat := 65535
def max32 : Nat := 4294967295
def two32 : Nat := 4294967296
def two64 : Nat := 18446744073709551616

/-- Round up to a multiple of `m`. -/
def roundUp (n m : Nat) : Nat := (n + (m - 1)) / m * m

/-- `l` with element `i` replaced by `f` of it. -/
def listMod {α : Type} (l : List α) (i : Nat) (f : α → α) : List α := l.modify i f

/-- Fold a list into the state. -/
def forAll {α σ : Type} (l : List α) (f : σ → α → σ) (s : σ) : σ := l.foldl f s

/-- Index of the first element that meets `p`. -/
def firstIdx {α : Type} (l : List α) (p : α → Bool) : Option Nat := l.findIdx? p

/-- The consecutive numbers from `a`, `n` of them. -/
def rangeFrom (a n : Nat) : List Nat := (List.range n).map (fun i => a + i)

/-- Pad bytes with zeros to `n`. -/
def padTo (n : Nat) (l : List Byte) : List Byte := l ++ List.replicate (n - l.length) 0

/-- Overwrite a byte list from `off` (a list shorter than `off` is padded with zero bytes). -/
def putAt (off : Nat) (v l : List Byte) : List Byte :=
  (padTo off l).take off ++ v ++ (l.drop (off + v.length))

end Sys2Proof.Machine
end

