-- ==== Sys2Proof/Machine/Arith.lean ====
section
/-! DEFINITION. Fixed-point primitives (R277), roundings, square root and cyclic redundancy checks (R398, R438). -/

namespace Sys2Proof.Machine

/-- Arithmetic shift with round half up (R277); a negative shift multiplies. -/
def rsh (y : Int) (n : Int) : Int :=
  if n ≤ 0 then y * (2 ^ (-n).toNat : Int)
  else (y + (2 ^ (n.toNat - 1) : Int)) / (2 ^ n.toNat : Int)

/-- Clamp to the `w`-bit two's-complement range (R277). -/
def sat (y : Int) (w : Nat) : Int :=
  max (-(2 ^ (w - 1) : Int)) (min ((2 ^ (w - 1) : Int) - 1) y)

/-- Clamp to an interval. -/
def clampI (lo hi y : Int) : Int := max lo (min hi y)

/-- Q9.31 to Q1.15 (R277). -/
def q15 (y : Int) : Int := sat (rsh y 16) 16

/-- `a / b` rounded to nearest, ties away from zero; 0 for b = 0. -/
def roundAway (a : Int) (b : Nat) : Int :=
  if b = 0 then 0
  else if a ≥ 0 then (2 * a + b) / (2 * b)
  else -((2 * (-a) + b) / (2 * b))

/-- `a / b` rounded to nearest, ties toward +∞. -/
def roundUpHalf (a : Int) (b : Nat) : Int :=
  if b = 0 then 0 else (2 * a + b) / (2 * b)

/-- `⌈log2 n⌉` for n ≥ 1. -/
def clog2 (n : Nat) : Nat := if n ≤ 1 then 0 else Nat.log2 (n - 1) + 1

/-- One step of the digit-by-digit square root: bits from 2^k down. -/
def isqrtGo : Nat → Nat → Nat → Nat
  | 0, _, r => r
  | k + 1, n, r =>
    let c := r + 2 ^ k
    if c * c ≤ n then isqrtGo k n c else isqrtGo k n r

/-- The integer square root. -/
def isqrt (n : Nat) : Nat := isqrtGo (Nat.log2 n / 2 + 1) n 0

/-- The square root rounded to the nearest integer (ties cannot arise below the exact half, and go up). -/
def rsqrt (n : Nat) : Nat :=
  let r := isqrt n
  if n > r * r + r then r + 1 else r

/-- Integer cube root, digit by digit. -/
def icbrtGo : Nat → Nat → Nat → Nat
  | 0, _, r => r
  | k + 1, n, r =>
    let c := r + 2 ^ k
    if c * c * c ≤ n then icbrtGo k n c else icbrtGo k n r

def icbrt (n : Nat) : Nat := icbrtGo (Nat.log2 n / 3 + 1) n 0

/-- One bit of the reflected CRC-32C. -/
def crc32cBit (c : Nat) : Nat :=
  if c % 2 = 1 then (c / 2) ^^^ 0x82F63B78 else c / 2

/-- One byte of the reflected CRC-32C. -/
def crc32cByte (c : Nat) (b : Byte) : Nat :=
  crc32cBit (crc32cBit (crc32cBit (crc32cBit (crc32cBit (crc32cBit (crc32cBit (crc32cBit (c ^^^ b.toNat))))))))

/-- CRC-32C (Castagnoli, reflected, initial value and final XOR all ones) of R398. -/
def crc32c (l : List Byte) : Nat := (l.foldl crc32cByte 0xFFFFFFFF) ^^^ 0xFFFFFFFF

/-- One bit of CRC-16 with polynomial 0x1021, most significant bit first. -/
def crc16Bit (c : Nat) : Nat :=
  if c ≥ 32768 then ((c * 2) % 65536) ^^^ 0x1021 else c * 2

/-- One byte of CRC-16. -/
def crc16Byte (c : Nat) (b : Byte) : Nat :=
  crc16Bit (crc16Bit (crc16Bit (crc16Bit (crc16Bit (crc16Bit (crc16Bit (crc16Bit (c ^^^ (b.toNat * 256)))))))))

/-- CRC-16 of R438: initial value 0xFFFF, no reflection, no final XOR. -/
def crc16 (l : List Byte) : Nat := l.foldl crc16Byte 0xFFFF

/-- Words in transmission order, most significant byte first (R438, R474). -/
def wordsMsb : List Word → List Byte
  | [] => []
  | w :: r => b8 (w.toNat / 256) :: b8 w.toNat :: wordsMsb r

end Sys2Proof.Machine
end

