-- ==== Sys2Proof/Machine/Float.lean ====
section
/-! DEFINITION. IEEE 754 binary32 and binary64 as far as the spec uses them (R5, R115, R236, R298, R324): a pattern's
exact value as a fraction, rounding of a fraction to a pattern, and the operations on fractions that a computation in
binary64 rounds after each step. A fraction is an integer over a positive natural. -/

namespace Sys2Proof.Machine

/-- An exact value: numerator and denominator (denominator 0 never arises from the operations below). -/
structure Frac where
  num : Int
  den : Nat
deriving DecidableEq, Repr

namespace Frac
def ofInt (z : Int) : Frac := ⟨z, 1⟩
def add (a b : Frac) : Frac := ⟨a.num * b.den + b.num * a.den, a.den * b.den⟩
def sub (a b : Frac) : Frac := ⟨a.num * b.den - b.num * a.den, a.den * b.den⟩
def mul (a b : Frac) : Frac := ⟨a.num * b.num, a.den * b.den⟩
/-- Quotient; by 0 it answers 0, which no caller asks. -/
def div (a b : Frac) : Frac :=
  if b.num = 0 then ⟨0, 1⟩
  else if b.num > 0 then ⟨a.num * b.den, a.den * b.num.toNat⟩
  else ⟨-(a.num * b.den), a.den * (-b.num).toNat⟩
def le (a b : Frac) : Bool := decide (a.num * b.den ≤ b.num * a.den)
def lt (a b : Frac) : Bool := decide (a.num * b.den < b.num * a.den)
def neg (a : Frac) : Frac := ⟨-a.num, a.den⟩
def abs (a : Frac) : Frac := ⟨a.num.natAbs, a.den⟩
/-- Nearest integer, ties away from zero. -/
def round (a : Frac) : Int := roundAway a.num a.den
/-- Nearest integer, ties toward +∞ (R277). -/
def halfUp (a : Frac) : Int := if a.den = 0 then 0 else (2 * a.num + a.den) / (2 * (a.den : Int))
/-- Least integer not below. -/
def ceil (a : Frac) : Int := if a.den = 0 then 0 else -((-a.num) / a.den)
def isZero (a : Frac) : Bool := decide (a.num = 0)
end Frac

/-- A binary32 pattern is a number (not infinite, not NaN). -/
def f32Finite (p : BitVec 32) : Bool := decide (bits p.toNat 23 8 ≠ 255)

/-- The exact value of a binary32 pattern (0 for a pattern that is no number). -/
def f32 (p : BitVec 32) : Frac :=
  let n := p.toNat
  let e : Nat := bits n 23 8
  let m : Nat := n % 2 ^ 23
  let mag : Frac :=
    if e = 255 then { num := 0, den := 1 }
    else if e = 0 then { num := (m : Int), den := 2 ^ 149 }
    else if e ≥ 150 then { num := (((2 ^ 23 + m) * 2 ^ (e - 150) : Nat) : Int), den := 1 }
    else { num := ((2 ^ 23 + m : Nat) : Int), den := 2 ^ (150 - e) }
  if bit n 31 then mag.neg else mag

/-- `a / b` rounded to nearest even. -/
def roundEven (a b : Nat) : Nat :=
  if b = 0 then 0 else
    let q := a / b
    let r := a % b
    if 2 * r > b then q + 1 else if 2 * r < b then q else if q % 2 = 1 then q + 1 else q

/-- The exponent of a positive fraction: the `e` with 2^e ≤ a/b < 2^(e+1). -/
def fexp (a b : Nat) : Int :=
  let g : Int := (Nat.log2 a : Int) - (Nat.log2 b : Int)
  -- 2^(g-1) < a/b < 2^(g+1)
  let ge : Bool := if g ≥ 0 then decide (b * 2 ^ g.toNat ≤ a) else decide (b ≤ a * 2 ^ (-g).toNat)
  if ge then g else g - 1

/-- A positive fraction rounded to `p` significant bits with least exponent `emin` of the last place, to nearest even:
the mantissa and the exponent of its last place. -/
def roundTo (p : Nat) (emin : Int) (a b : Nat) : Nat × Int :=
  if a = 0 ∨ b = 0 then (0, emin)
  else
    let ulp := max emin (fexp a b - (p : Int) + 1)
    let m := if ulp ≥ 0 then roundEven a (b * 2 ^ ulp.toNat) else roundEven (a * 2 ^ (-ulp).toNat) b
    (m, ulp)

/-- The binary32 pattern nearest a fraction, ties to even; a magnitude beyond the format is infinite. -/
def toF32 (x : Frac) : BitVec 32 :=
  let a := x.num.natAbs
  let s := if x.num < 0 then 2 ^ 31 else 0
  let (m, u) := roundTo 24 (-149) a x.den
  if m = 0 then BitVec.ofNat 32 s
  else
    let (m, u) := if m ≥ 2 ^ 24 then (m / 2, u + 1) else (m, u)
    if m < 2 ^ 23 then BitVec.ofNat 32 (s + m)
    else
      let e := u + 150
      if e ≥ 255 then BitVec.ofNat 32 (s + 255 * 2 ^ 23)
      else BitVec.ofNat 32 (s + e.toNat * 2 ^ 23 + (m - 2 ^ 23))

/-- A fraction rounded to binary64 (53 bits, ties to even), as a fraction: the value a binary64 register holds. -/
def f64 (x : Frac) : Frac :=
  let (m, u) := roundTo 53 (-1074) x.num.natAbs x.den
  let v : Frac := if u ≥ 0 then ⟨((m * 2 ^ u.toNat : Nat) : Int), 1⟩ else ⟨(m : Int), 2 ^ (-u).toNat⟩
  if x.num < 0 then v.neg else v

/-- Operations of binary64: exact, then rounded once. -/
def f64add (a b : Frac) : Frac := f64 (a.add b)
def f64sub (a b : Frac) : Frac := f64 (a.sub b)
def f64mul (a b : Frac) : Frac := f64 (a.mul b)
def f64div (a b : Frac) : Frac := f64 (a.div b)

/-- Square root in binary64 of a fraction that is not negative, correctly rounded: a root of 120 extra bits, made odd
below when inexact so that it never lies on a tie. -/
def f64sqrt (x : Frac) : Frac :=
  let a := x.num.toNat
  if a = 0 then ⟨0, 1⟩ else
    -- scale by 4^k so that the root has more than 60 bits
    let k := 64 + Nat.log2 x.den
    let y := a * 4 ^ k / x.den
    let r := isqrt y
    let exact := decide (r * r = y ∧ a * 4 ^ k % x.den = 0)
    f64 ⟨((2 * r + (if exact then 0 else 1) : Nat) : Int), 2 ^ (k + 1)⟩

/-- Cube root in binary64, likewise. -/
def f64cbrt (x : Frac) : Frac :=
  let a := x.num.toNat
  if a = 0 then ⟨0, 1⟩ else
    let k := 64 + Nat.log2 x.den
    let y := a * 8 ^ k / x.den
    let r := icbrt y
    let exact := decide (r * r * r = y ∧ a * 8 ^ k % x.den = 0)
    f64 ⟨((2 * r + (if exact then 0 else 1) : Nat) : Int), 2 ^ (k + 1)⟩

/-- Operations of binary32 on patterns: exact, then rounded once. -/
def f32add (a b : BitVec 32) : BitVec 32 := toF32 ((f32 a).add (f32 b))
def f32sub (a b : BitVec 32) : BitVec 32 := toF32 ((f32 a).sub (f32 b))
def f32mul (a b : BitVec 32) : BitVec 32 := toF32 ((f32 a).mul (f32 b))
def f32div (a b : BitVec 32) : BitVec 32 := toF32 ((f32 a).div (f32 b))

/-- 2 × (y + y³/3 + y⁵/5 + …) in fixed point with 128 fraction bits, `n` more terms from power `p` on. -/
def atanhSum (y2 : Nat) : Nat → Nat → Nat → Nat
  | 0, _, _ => 0
  | n + 1, p, k => 2 * p / k + atanhSum y2 n (p * y2 / 2 ^ 128) (k + 2)

/-- The natural logarithm of a positive fraction in fixed point with 128 fraction bits: k ln 2 + ln m with m in [1, 2). -/
def lnFix (x : Frac) : Int :=
  let a := x.num.toNat
  let k := fexp a x.den
  let m := if k ≥ 0 then a * 2 ^ 128 / (x.den * 2 ^ k.toNat) else a * 2 ^ 128 * 2 ^ (-k).toNat / x.den
  let y := (m - 2 ^ 128) * 2 ^ 128 / (m + 2 ^ 128)
  let t := 2 ^ 128 / 3
  k * (atanhSum (t * t / 2 ^ 128) 64 t 1 : Int) + (atanhSum (y * y / 2 ^ 128) 64 y 1 : Int)

/-- The natural logarithm in binary32 (R324). -/
def f32ln (p : BitVec 32) : BitVec 32 := toF32 ⟨lnFix (f32 p), 2 ^ 128⟩

/-- Words `i` and `i + 1` of a parameter list as a binary32 pattern, low word first. -/
def wF32 (l : List Word) (i : Nat) : BitVec 32 := BitVec.ofNat 32 (wAt32 l i)

/-- The decimal fraction a / 10^k. -/
def dec (a : Int) (k : Nat) : Frac := ⟨a, 10 ^ k⟩

end Sys2Proof.Machine
end

