-- ==== Sys2Proof/Machine/State/Chip.lean ====
section
/-! DEFINITION. State of the clocks, resets and power states (spec/02), the register bus (spec/03), the mailboxes and
the firmware (spec/04) and the fault blocks and perturbation (spec/17).
Each field's comment reads: name; width; file and rule; reset value and class. -/

namespace Sys2Proof.Machine

/-- The six kinds of reset (R35) in rising rank (R36), `linkPort` lowest. -/
inductive ResetKind | linkPort | block | watchdog | chip | pin | powerOn
deriving DecidableEq, Repr

/-- Where the boot of R32, or the reset or power state above it, stands. -/
inductive Phase
  /-- VDD_AON is down (R550): nothing is alive. -/
  | off
  /-- Power-on reset has released: boot step 1 (R32). -/
  | released
  /-- Step 3 is done: outputs in seed state; held at step 4 (R33). -/
  | seeded
  /-- Steps 4 to 8 are done: the image runs, READY is awaited. -/
  | started
  /-- READY (step 9). -/
  | ready
  /-- The recovery state of R34. -/
  | recovery
  /-- The power state DEEP (R42). -/
  | deep
deriving DecidableEq, Repr

/-- Power state of a bed (R42). -/
inductive BedPower | active | idle | standby
deriving DecidableEq, Repr

/-- Clocks, boot, resets and power states (02_clocks_resets_power.md). -/
structure Clock where
  /-- phase; 7 values; 02 R32; released at power-on reset. -/
  phase : Phase := .released
  /-- chip time (CHIP_TIME); 64 bits; 00 R7, 03 R66; 0 P. -/
  time : Nat := 0
  /-- chip time as the last pin or chip reset, or the boot, began to count the boot steps; 64 bits; 02 R32; 0. -/
  bootTime : Nat := 0
  /-- REF_PRESENT; 1; 02 R47 CLOCK_STATUS; 0 P. -/
  refPresent : Bool := false
  /-- PLL_LOCKED; 1; 02 R47; 0 P. -/
  pllLocked : Bool := false
  /-- HOLDOVER; 1; 02 R47; 0 P. -/
  holdover : Bool := false
  /-- REF_LOST sticky; 1; 02 R47; 0 P. -/
  refLostSticky : Bool := false
  /-- STEM of the IDLE state (CHIP_STATE 1); 1; 02 R42; 0 C. -/
  stemIdle : Bool := false
  /-- DRAM in self-refresh; 1; 02 R45; 0. -/
  dramSleep : Bool := false
  /-- AON_OK; 1; 02 R47; 1 A. -/
  aonOk : Bool := true
  /-- Power state per bed; 2 bits each; 02 R42; ACTIVE. -/
  bedPower : Tab BedPower := []
  /-- Beds in STANDBY exit; 16 bits; 02 R46; 0. -/
  standbyExit : Tab Bool := []
  /-- WAKE_TIN0; 1; 02 R43; 0 A. -/
  wakeTin0 : Bool := false
  /-- WAKE_LANE; 1; 02 R43; 0 A. -/
  wakeLane : Bool := false
  /-- TIN0_EDGE, true falling; 1; 02 R43; 0 A. -/
  tin0Falling : Bool := false
  /-- Chip time at which a requested DEEP is entered; 64 bits or none; 02 R43; none. -/
  deepDue : Option Nat := none
  /-- RESET_CAUSE bits 6:0; 7; 02 R38; 0x01 A. -/
  resetCause : BitVec 7 := 1
  /-- RESET_CAUSE.IMAGE_SLOT, true B; 1; 02 R38; 0 A. -/
  imageSlot : Bool := false
  /-- Chip times of the watchdog restarts counted by WDOG_COUNT; list; 02 R38; none A. -/
  wdogTimes : List Nat := []
  /-- The pin or chip reset in progress; 02 R35; none. -/
  resetting : Option ResetKind := none
  /-- Chip time at which the reset in progress ends at the earliest; 64 bits; 02 R35; 0. -/
  resetEnd : Nat := 0
  /-- The reset in progress is a fault reaction (R518); 1; 17 R518; 0. -/
  resetByFault : Bool := false
  /-- End of the last fault-reaction chip reset; 64 bits or none; 17 R518; none. -/
  faultResetEnd : Option Nat := none
  /-- A watchdog restart is in progress; 1; 02 R40; 0. -/
  restarting : Bool := false
  /-- That restart is an activation restart, which selects and verifies (R108) before it runs; 1; 02 R40, 04 R111; 0. -/
  activating : Bool := false
  /-- Chip time at which an activation restart is due; 64 bits or none; 04 R111; none. -/
  activationDue : Option Nat := none
  /-- Fault blocks whose block reset is in progress; 28 bits; 02 R41; 0. -/
  blockResetting : Tab Bool := []
  /-- WDOG_PERIOD in ms; 16 bits; 03 R72; 250 W. -/
  wdogPeriod : Nat := 250
  /-- The period the interval in progress runs with; 16 bits; 03 R72; 250. -/
  wdogRunning : Nat := 250
  /-- Chip time at which the interval in progress began: the last watchdog service; 64 bits; 02 R38, 03 R72; 0. -/
  wdogServed : Nat := 0
  /-- SP0_WSEL as sampled at power-on; 2 bits; 14 R433; 0 (DESIGN CHOICE 3: before the strap is sampled). -/
  wsel : BitVec 2 := 0
deriving DecidableEq, Repr

/-- A pending half of a guarded pair (R59). -/
structure Half where
  addr  : Nat
  value : Word
  time  : Nat
deriving DecidableEq, Repr

/-- A fault detected and not yet registered by its block (R509, R515). -/
structure Detect where
  block  : Nat
  source : Nat
  d0     : Word
  d1     : Word
  forced : Bool
  /-- F3 cycle of detection, as a stamp (a multiple of 16 ticks). -/
  stamp  : Nat
deriving DecidableEq, Repr

/-- What reached the registers in one F3 cycle (R53, R67, R71): the field kinds of R71 resolve a write against it. -/
structure Recent where
  /-- F3 cycle, as a stamp (a multiple of 16 ticks). -/
  cycle : Nat := 0
  /-- Sticky bits that hardware set: address, bits. -/
  sets : List (Nat × Word) := []
  /-- Counters that hardware counted: address, value before the cycle's events, number of events. -/
  adds : List (Nat × Nat × Nat) := []
  /-- Words the host wrote: address, word, mask, whether through an alias. -/
  writes : List (Nat × Word × Word × Bool) := []
  /-- Faults registered, in order, and whether the REACT action was taken (R516). -/
  faults : List (Detect × Bool) := []
deriving DecidableEq, Repr

/-- The register bus, the guard checker and the chip control registers (03_register_interface.md). -/
structure Bus where
  /-- Pending guarded half of the host; address, value, chip time; 03 R59; none B. -/
  halfHost : Option Half := none
  /-- Pending guarded half of the shed; address, value, chip time; 03 R59; none B. -/
  halfShed : Option Half := none
  /-- GUARD_STATUS and GUARD_INFO.ADDR_HI; 24 bits; 03 R64; 0 C. -/
  guardAddr : Nat := 0
  /-- GUARD_INFO.REASON; 3 bits; 03 R64; 0 C. -/
  guardReason : Nat := 0
  /-- GUARD_INFO.MASTER, true shed; 1; 03 R64; 0 C. -/
  guardShed : Bool := false
  /-- GUARD_COUNT; 16 bits, saturating; 03 R64; 0 C. -/
  guardCount : Nat := 0
  /-- CHIP_CONTROL.ERRN_HOLD; 1; 03 R71; 0 C. -/
  errnHold : Bool := false
  /-- CHIP_CONTROL.INT_N_EN; 1; 03 R71; 1 C. -/
  intNEn : Bool := true
  /-- CHIP_CONTROL.ERRN_TEST; 1; 03 R71; 0 C. -/
  errnTest : Bool := false
  /-- End of the 2 µs ERR_N pulse that runs; 64 bits or none; 17 R520; none. -/
  errnPulse : Option Nat := none
  /-- KEEP_WE bits 2:0 (SEED, CAL, USER); 3; 03 R74; 0 W. -/
  keepWe : BitVec 3 := 0
  /-- FW_COMMIT bits 1:0 (SLOT, ARM); 2; 03 R74; 0 W. -/
  fwCommit : BitVec 2 := 0
  /-- UNIQUE_ID; 64 bits; 03 R54; per part A (DESIGN CHOICE 4: 0 stands for the part's own number). -/
  uniqueId : BitVec 64 := 0
  /-- DRAM_MIB; 16 bits; 03 R54; 0 C. -/
  dramMib : Nat := 0
  /-- FW_RELEASE; 16 bits; 03 R54; 0 W. -/
  fwRelease : Word := 0
  /-- CMDSET_MAX; 16 bits; 03 R54; 0 W. -/
  cmdsetMax : Word := 0
  /-- The word the last register read returned to its master; 16 bits; 03 R53; 0. -/
  lastRead : Word := 0
  /-- F3 cycle of the host's last access; 64 bits or none; 03 R53; none. -/
  lastHost : Option Nat := none
  /-- F3 cycle of the shed's last access; 64 bits or none; 03 R53; none. -/
  lastShed : Option Nat := none
  /-- What reached the registers in the last F3 cycle in which anything did; 03 R53, R67, R71; nothing. -/
  recent : Recent := {}
deriving DecidableEq, Repr

/-- Mailbox state (R78). -/
inductive MbState | idle | posted | executing | done | offline
deriving DecidableEq, Repr

/-- One mailbox (04_mailboxes_firmware.md R76 to R78). -/
structure Mailbox where
  /-- OPCODE; 16 bits; 04 R76; 0 W. -/
  opcode : Word := 0
  /-- TAG; 16 bits; 04 R76; 0 W. -/
  tag : Word := 0
  /-- LENGTH; 16 bits; 04 R76; 0 W. -/
  length : Word := 0
  /-- FLAGS; 16 bits; 04 R76; 0 W. -/
  flags : Word := 0
  /-- RING; 16 bits; 04 R76; 0 W. -/
  ring : Word := 0
  /-- Word 5; 16 bits; 04 R76; 0 W. -/
  word5 : Word := 0
  /-- PARAM; 120 words; 04 R76; 0 W. -/
  param : Tab Word := []
  /-- STATE; 3 bits; 04 R77; OFFLINE W. -/
  state : MbState := .offline
  /-- REFUSED; 1; 04 R77; 0 W. -/
  refused : Bool := false
  /-- WRITE_LOCKED; 1; 04 R77; 0 W. -/
  writeLocked : Bool := false
  /-- ASYNC; 1; 04 R77; 0 W. -/
  async : Bool := false
  /-- R_OPCODE; 16 bits; 04 R77; 0 W. -/
  rOpcode : Word := 0
  /-- R_TAG; 16 bits; 04 R77; 0 W. -/
  rTag : Word := 0
  /-- STATUS; 16 bits; 04 R77; 0 W. -/
  status : Word := 0
  /-- DETAIL; 16 bits; 04 R77; 0 W. -/
  detail : Word := 0
  /-- R_LENGTH; 16 bits; 04 R77; 0 W. -/
  rLength : Nat := 0
  /-- R_PARAM; 120 words; 04 R77; 0 W. -/
  rParam : Tab Word := []
  /-- REFUSED_COUNT; 16 bits; 04 R77; 0 W. -/
  refusedCount : Nat := 0
  /-- Times the posted mailbox has been passed over; 4 bits; 04 R81; 0. -/
  passed : Nat := 0
  /-- End of the MB_DELAY that holds the written response (R530); 64 bits or none; 17 R530; none. -/
  delayEnd : Option Nat := none
deriving DecidableEq, Repr

/-- What the command in EXECUTING waits for before its response is posted (R82). -/
inductive Wait
  | nothing
  /-- The end of a block reset (R99). -/
  | blockReset (k : Block)
  /-- Step 3 of a connection change (R126). -/
  | connect
  /-- Residency of the segments named, for the pins taken (R221). -/
  | segPin
  /-- Residency of the entry segments (R225). -/
  | entry
  /-- The settling of a range change (R271). -/
  | rangeSettle
  /-- A coefficient swap at its sample (R312). -/
  | coefSwap
  /-- The drain and hand-over of a ring's open banks (R393). -/
  | ringDrain (ring : Nat)
  /-- Bus frames of STAGE_ATTACH (R449). -/
  | stageBus
  /-- A keep-store operation (R493). -/
  | keepOp
  /-- A flash program or erase operation (R436). -/
  | flashOp
  /-- The exit from STANDBY of the beds of a SET_POWER_STATE (R43). -/
  | standbyExit
  /-- The samples of a start at the measured voltage (R270). -/
  | loopMeasure
  /-- The stop of the engines that work for this tag (R94). -/
  | abort (tag : Nat)
deriving DecidableEq, Repr

/-- The copy of the command in EXECUTING (R81). -/
structure Current where
  mb     : Mbox
  opcode : Word
  tag    : Word
  flags  : Word
  ring   : Word
  params : List Word
  /-- Chip time of the pick. -/
  pick   : Nat
  /-- The row of this command has run its checks and waits for this. -/
  wait   : Wait
  /-- The response words already decided while it waits. -/
  reply  : List Word
deriving DecidableEq, Repr

/-- STATE of a progress entry (R92). -/
inductive ProgState | none | running | done | part
deriving DecidableEq, Repr

/-- A progress entry (R92). -/
structure Progress where
  opcode    : Word := 0
  state     : ProgState := .none
  stopCause : Nat := 0
  vectors   : Nat := 0
  steps     : Nat := 0
  lastSeq   : Nat := 0
  ring      : Word := 0
  output    : Nat := 0
  stopTime  : Nat := 0
deriving DecidableEq, Repr

/-- An entry of the firmware event log or boot log (R100). -/
structure LogEntry where
  time : Nat
  code : Word
  a0   : Word
  a1   : Word
  a2   : Word
deriving DecidableEq, Repr

/-- A firmware update session (R109, R110). -/
structure Session where
  slotB      : Bool
  imageBytes : Nat
  received   : Nat
  /-- The erase of FW_UPDATE_BEGIN has ended. -/
  erased     : Bool
  /-- Tag and ring of the FW_UPDATE_BEGIN that erases, none in recovery. -/
  tag        : Nat
deriving DecidableEq, Repr

/-- The firmware (04_mailboxes_firmware.md). -/
structure Firmware where
  /-- Negotiated revision, 0 before HELLO; 16 bits; 04 R91; 0 W. -/
  rev : Nat := 0
  /-- The command in EXECUTING; SRAM copy; 04 R81; none W. -/
  current : Option Current := none
  /-- Progress table; 4095 entries; 04 R92; none C. -/
  progress : Tab Progress := []
  /-- Firmware event log, newest last, at most 4096; 04 R100; empty C. -/
  log : List LogEntry := []
  /-- Entries ever written to the firmware event log; 32 bits; 04 R100; 0 C. -/
  logNext : Nat := 0
  /-- Boot log of the last boot, at most 64; 04 R100; empty. -/
  bootLog : List LogEntry := []
  /-- The firmware update session; 04 R109; none W. -/
  session : Option Session := none
  /-- Rollback counter in one-time-programmable memory; 0 to 64; 04 R106; non-volatile, 0 (DESIGN CHOICE 4). -/
  rollback : Nat := 0
  /-- Traps not yet acknowledged by the firmware: block, source, chip time; list; 17 R518; none. -/
  traps : List (Nat × Nat × Nat) := []
deriving DecidableEq, Repr

/-- The registers of a fault block (R508). -/
structure FaultBlock where
  /-- BLOCK_STATUS.FF_VALID; 1; 17 R508; 0 P. -/
  ffValid : Bool := false
  /-- CONTROL.INT_EN; 1; 17 R508; 1 C. -/
  intEn : Bool := true
  /-- LIVE; 64 bits; 17 R508; 0 C. -/
  live : BitVec 64 := 0
  /-- STICKY; 64 bits; 17 R508; 0 P. -/
  sticky : BitVec 64 := 0
  /-- EVENTS; 32 bits, saturating; 17 R508; 0 P. -/
  events : Nat := 0
  /-- MERGED; 32 bits, saturating; 17 R508; 0 P. -/
  merged : Nat := 0
  /-- FF_SOURCE.SOURCE; 6 bits; 17 R508; 0 P. -/
  ffSource : Nat := 0
  /-- FF_SOURCE.SEV; 2 bits; 17 R508; 0 P. -/
  ffSev : Nat := 0
  /-- FF_SOURCE.FORCED; 1; 17 R508; 0 P. -/
  ffForced : Bool := false
  /-- FF_REACT; 16 bits, layout of R511; 17 R508; 0 P. -/
  ffReact : Word := 0
  /-- FF_DETAIL D0; 16 bits; 17 R508; 0 P. -/
  ffD0 : Word := 0
  /-- FF_DETAIL D1; 16 bits; 17 R508; 0 P. -/
  ffD1 : Word := 0
  /-- FF_TIME; 64 bits; 17 R508; 0 P. -/
  ffTime : Nat := 0
  /-- LAST_SOURCE bits 5:0; 6 bits; 17 R508; 0 P. -/
  lastSource : Nat := 0
  /-- LAST_SOURCE bit 15 valid; 1; 17 R508; 0 P. -/
  lastValid : Bool := false
  /-- LAST_TIME; 64 bits; 17 R508; 0 P. -/
  lastTime : Nat := 0
deriving DecidableEq, Repr

/-- A latched cloche cause, by what makes it live (R522). -/
inductive Cause
  /-- A fault source's CLOCHE field: live while its LIVE bit is set. -/
  | fault (block source : Nat)
  /-- A thermal level that cloches: live while held. -/
  | level (v : LevelId)
  /-- A rate-of-rise trip: live while the rate is at or above its limit. -/
  | rate (x : TempInput)
  /-- T3 enforced in a zone (R461). -/
  | t3 (z : Zone)
  /-- A broken sensor or thermistor (R463). -/
  | broken (x : TempInput)
  /-- A lost stage (R242). -/
  | stageLost (st : Stage)
  /-- The shutdown latch. -/
  | shutdown
  /-- CLOCHE, CLOCHE_OVERRIDE, a received URGENT, a forced fault or a block reset: never live. -/
  | dead
deriving DecidableEq, Repr

/-- A bed's cloche registers (R508, R521). -/
structure BedCloche where
  /-- Bed-scope causes; list; 17 R521; none C. -/
  causes : List Cause := []
  /-- CLOCHE_STATE.ACTIVE; 1; 17 R521; 0 C. -/
  active : Bool := false
  /-- CLOCHE_STATE.SETTLED; 1; 17 R521; 0 C. -/
  settled : Bool := false
  /-- CLOCHE_CAUSE block; 8 bits; 17 R508; 0 C. -/
  causeBlock : Nat := 0
  /-- CLOCHE_CAUSE source; 6 bits; 17 R508; 0 C. -/
  causeSource : Nat := 0
  /-- CLOCHE_CAUSE scope; 2 bits; 17 R508; 0 C. -/
  causeScope : Nat := 0
  /-- CLOCHE_ORIGIN; 8 bits; 17 R508; 0 C. -/
  origin : Nat := 0
  /-- CLOCHE_TIME; 64 bits; 17 R508; 0 C. -/
  time : Nat := 0
  /-- Chip time at which a cause that covers the bed, or holds a loop of it, last latched; 64 bits or none; 03 R64; none. -/
  tripAt : Option Nat := none
deriving DecidableEq, Repr

/-- A perturbation entry (R529). -/
structure Perturb where
  kind    : Nat := 0
  target  : Nat := 0
  /-- AMOUNT, words 2 and 3 as 32 bits. -/
  amount  : BitVec 32 := 0
  start   : Nat := 0
  window  : Nat := 0
  period  : Nat := 0
  repeats : Nat := 0
  fired   : Nat := 0
  /-- A window of the entry is active (PERTURB_ACTIVE). -/
  active  : Bool := false
  /-- Windows of the entry whose time has passed since START, started or skipped. -/
  next    : Nat := 0
deriving DecidableEq, Repr

/-- Faults, cloche and perturbation (17_faults_perturbation.md). -/
structure Faults where
  /-- Fault blocks 0x00 to 0x1B; registers of R508; 17 R508; each field's own. -/
  block : Tab FaultBlock := []
  /-- Reaction words, key 64 x block + source; 16 bits each; 17 R511; factory words K. -/
  react : Tab Word := []
  /-- Faults detected and not yet registered; list; 17 R509; none. -/
  waiting : List Detect := []
  /-- Cloche registers and bed-scope causes per bed; 17 R521; each field's own. -/
  bed : Tab BedCloche := []
  /-- Chip-scope causes; list; 17 R521; none C. -/
  chip : List Cause := []
  /-- Chain-scope causes; list; 17 R521; none C. -/
  chain : List Cause := []
  /-- Loop-scope causes per heavy loop; lists; 17 R521; none C. -/
  loop : Tab (List Cause) := []
  /-- Chip time of the last URGENT origination; 64 bits or none; 17 R525; none. -/
  lastUrgent : Option Nat := none
  /-- Next URG_ID; 16 bits; 13 R417; 0 (DESIGN CHOICE 5). -/
  urgId : Word := 0
  /-- PERTURB_ARM.ARM; 1; 17 R529; 0 B. -/
  armed : Bool := false
  /-- Chip time of the last arming; 64 bits; 17 R530; 0. -/
  armTime : Nat := 0
  /-- Perturbation entries 0 to 15; 14 words each; 17 R529; 0 B. -/
  entry : Tab Perturb := []
  /-- Faults to force at a later chip time (R533): chip time, block, source; list; 17 R533; none. -/
  forceAt : List (Nat × Nat × Nat) := []
deriving DecidableEq, Repr

end Sys2Proof.Machine
end

