-- ==== Sys2Proof/Machine/State/Pins.lean ====
section
/-! DEFINITION. State of the beds and pin channels (spec/05) and of the edge timing (spec/06).
Each field's comment reads: name; width; file and rule; reset value and class. -/

namespace Sys2Proof.Machine

/-- A pin driver's state (R118, R121): off (DZ), at VIL, at VIH, or at VTT. -/
inductive Drive | off | low | high | vtt
deriving DecidableEq, Repr

/-- When a pending shadow is loaded (R128, R132): at the strobe of a group, at a chip time, or, already due, at the exit of
its bed from IDLE. -/
inductive LoadAt | group (g : Nat) | epoch (t : Nat) | held
deriving DecidableEq, Repr

/-- A level or bed DAC (R117). The output code is the working code outside cloche and the cloche code inside it. -/
structure Dac where
  /-- Working code; 16 bits; 05 R117; power-up code K. -/
  work : Nat := 16384
  /-- Pending shadow code with its load; 16 bits or none; 05 R130; none C. -/
  shadow : Option (Nat × LoadAt) := none
  /-- Voltage that SET_LEVELS asked for with the working code, none for a code of the seed record; binary32; 05 R115, R116; none C. -/
  level : Option (BitVec 32) := none
  /-- Voltage asked for with the pending shadow; binary32; 05 R115, R146; none C. -/
  shadowLevel : Option (BitVec 32) := none
  /-- Cloche code; 16 bits; 05 R137; seed K. -/
  cloche : Nat := 16384
  /-- Chip time at which the output code last changed; 64 bits; 05 R135; 0. -/
  changed : Nat := 0
  /-- Consecutive rounds in which it was found suspect; count; 05 R135; 0. -/
  misses : Nat := 0
  /-- DAC_READBACK has been raised for the present run of suspect rounds; 1; 05 R135; 0. -/
  faulty : Bool := false
deriving DecidableEq, Repr

/-- A pin channel (R112, R121, R122, R124). -/
structure PinState where
  /-- MODE; 0 OFF, 1 IO, 2 IO_TERM, 3 CLOCK, 4 MEASURE; 05 R122; 0 C. -/
  mode : Nat := 0
  /-- TGROUP; 3 bits; 05 R122; 0 C. -/
  tgroup : Nat := 0
  /-- SLEW; 2 bits; 05 R122; 0 C. -/
  slew : Nat := 0
  /-- CLAMP; 1; 05 R122; 0 C. -/
  clamp : Bool := false
  /-- Working connection code; 3 bits; 05 R124; seed K, NONE. -/
  conn : Nat := 0
  /-- The switches of the connection are closed (R126 step 2 has passed); 1; 05 R126; 1. -/
  closed : Bool := true
  /-- The connection is settled (R126 step 3 has passed); 1; 05 R126; 1. -/
  connSettled : Bool := true
  /-- Held drive state between vectors; 2 bits; 05 R121; seed drive state K, off. -/
  held : Drive := .off
  /-- Last effective code executed, for KEEP (16 = the held state at the first vector of a burst); 5 bits; 05 R119; 16. -/
  lastCode : Nat := 16
  /-- Last data driven since the last pin-mode change, for DINV; 1; 05 R119; 0. -/
  lastData : Bool := false
  /-- Cloche drive state; 2 bits; 05 R137; seed K, off. -/
  clocheDrive : Drive := .off
  /-- Cloche connection code; 3 bits; 05 R137; seed K, NONE. -/
  clocheConn : Nat := 0
  /-- The driver is over its short-circuit limit (R140); 1; 05 R140; 0. -/
  overCurrent : Bool := false
deriving DecidableEq, Repr

/-- A load group (R129). -/
structure LoadGroup where
  /-- Bed mask; 16 bits; 05 R129; 0 C. -/
  mask : BitVec 16 := 0
  /-- Scheduled strobe; chip time or none; 05 R148; none C. -/
  strobe : Option Nat := none
deriving DecidableEq, Repr

/-- A bed's monitor converter as a sequence of slots (R134, R136). -/
structure Monitors where
  /-- Present slot of the round; 0 to 169; 05 R134; 0. -/
  slot : Nat := 0
  /-- Complete rounds since the last restart of the round; 32 bits; 05 R136; 0. -/
  rounds : Nat := 0
deriving DecidableEq, Repr

/-- Beds and pin channels (05_pin_channels.md). -/
structure Pins where
  /-- Pin channels P000 to P511; 05 R112; each field's own. -/
  pin : Tab PinState := []
  /-- Level and bed DACs, key 4 x pin + (VIH 0, VIL 1, VOH 2, VOL 3), or 2048 + 3 x bed + (VTT 0, VCH 1, VCL 2), or 4096 + loop for the read-back marks of a force DAC, whose code is the loop's demand; 05 R112; each field's own. -/
  dac : Tab Dac := []
  /-- Load groups G0 to G7; 05 R129; each field's own. -/
  group : Tab LoadGroup := []
  /-- Monitor converters per bed; 05 R134; each field's own. -/
  monitor : Tab Monitors := []
deriving DecidableEq, Repr

/-- One timing group of a timing set (R155): format and six edges in fine steps. -/
structure TGroup where
  /-- FORMAT; 0 NR, 1 RL, 2 RH, 3 RC; 06 R155; NR C. -/
  format : Nat := 0
  /-- DON; 48 bits; 06 R155; 0 C. -/
  don : Nat := 0
  /-- DDAT; 48 bits; 06 R155; 0 C. -/
  ddat : Nat := 0
  /-- DRET; 48 bits; 06 R155; 4096 C. -/
  dret : Nat := 4096
  /-- DOFF; 48 bits; 06 R155; 4096 C. -/
  doff : Nat := 4096
  /-- STRB; 48 bits; 06 R155; 6144 C. -/
  strb : Nat := 6144
  /-- WCLOSE; 48 bits; 06 R155; 7168 C. -/
  wclose : Nat := 7168
deriving DecidableEq, Repr

/-- A timing set of a bed (R155). -/
structure TSet where
  /-- PERIOD in fine steps; 32 bits; 06 R155; 8192 C. -/
  period : Nat := 8192
  /-- Groups 0 to 7; 06 R155; each field's own. -/
  group : Tab TGroup := []
deriving DecidableEq, Repr

/-- Settings of a DUT clock (R171). -/
structure ClockSet where
  /-- PERIOD in 1/65536 fine step; 48 bits; 06 R171; 0 C (DESIGN CHOICE 6: no default is given; a stopped clock uses none). -/
  period : Nat := 0
  /-- HIGH in fine steps; 32 bits; 06 R171; 0 C (DESIGN CHOICE 6). -/
  high : Nat := 0
  /-- PHASE in fine steps; 32 bits; 06 R171; 0 C (DESIGN CHOICE 6). -/
  phase : Nat := 0
deriving DecidableEq, Repr

/-- A pending change of a clock generator (R182): due chip time, and the new settings, none for a stop. -/
structure ClockChange where
  tc  : Nat
  set : Option ClockSet
deriving DecidableEq, Repr

/-- One run of a generator on one grid (R172, R174): its settings, how far steps of chip time have moved it (R170), the
fine step from which its rising edges count, and the one from which they no longer do, none while it runs. -/
structure ClockRun where
  set   : ClockSet
  shift : Int := 0
  start : Int
  stop  : Option Int := none
deriving DecidableEq, Repr

/-- A DUT clock generator (R171, R174). -/
structure ClockGen where
  /-- RUNNING; 1; 06 R171; STOPPED C. -/
  running : Bool := false
  /-- Settings in force; 06 R171; each field's own. -/
  set : ClockSet := {}
  /-- Runs of the generator, newest first, those that no output still follows left out; list; 06 R174; none C. -/
  runs : List ClockRun := []
  /-- Pending change; 06 R182; none C. -/
  change : Option ClockChange := none
deriving DecidableEq, Repr

/-- A window in which the rising edges of a generator's grid reach a pin (R173, R182): from a fine step on, up to another,
none while it is open. A high phase that has begun always ends at its own falling edge. -/
structure ClockWindow where
  gen   : Nat := 0
  start : Int := 0
  stop  : Option Int := none
deriving DecidableEq, Repr

/-- The level at which a clock output stands while the bed's delay-locked loop is unlocked (R154), and from the relock,
whose fine step is given, to its next edge. -/
structure ClockHold where
  high  : Bool
  since : Option Int := none
deriving DecidableEq, Repr

/-- A pin's use of its bed's clocks (R173 to R175). -/
structure PinClock where
  /-- Generator assigned; 2 bits; 06 R171; CK0 C. -/
  gen : Nat := 0
  /-- Windows of the pin on its generators, newest first; list; 06 R173, R175, R182; one, open. -/
  windows : List ClockWindow := [{}]
  /-- Level held while no edge is placed; 06 R154; none. -/
  hold : Option ClockHold := none
deriving DecidableEq, Repr

/-- What a placed event does (R157). -/
inductive EdgeAct | drive (d : Drive) | strb | wclose
deriving DecidableEq, Repr

/-- An edge event of a vector (R163): vector count, cycle of its burst, time after the move of R163, time placed after
compensation (R165), and the tap of the delay line that its fine position selects. -/
structure EdgeEv where
  vector : Nat
  cycle  : Nat
  time   : Int
  placed : Int
  tap    : Nat
  act    : EdgeAct
deriving DecidableEq, Repr

/-- The DOFF of a pin's last vector, which waits for the next vector's code (R162): vector count, cycle, time after the
move of R163, placed time, whether it was moved, and the state it leaves. -/
structure OffEdge where
  vector : Nat
  cycle  : Nat
  time   : Int
  placed : Int
  moved  : Bool
  leaves : Drive
deriving DecidableEq, Repr

/-- The slices of a pin (R153, R162 to R164). -/
structure PinEdges where
  /-- Drive events of the last eight vectors not yet placed; list; 06 R164; none. -/
  drive : List EdgeEv := []
  /-- Compare events of the last eight vectors not yet placed; list; 06 R164; none. -/
  comp : List EdgeEv := []
  /-- Time of the last drive event placed or queued; fine steps or none; 06 R163; none. -/
  lastDrive : Option Int := none
  /-- Time of the last compare event placed or queued; fine steps or none; 06 R163; none. -/
  lastComp : Option Int := none
  /-- The driver as the placed events have left it; 2 bits; 06 R157; off. -/
  driver : Drive := .off
  /-- DOFF of the last vector, waiting for the next vector's code; 06 R162; none. -/
  off : Option OffEdge := none
deriving DecidableEq, Repr

/-- Edge timing (06_edge_timing.md). -/
structure Edges where
  /-- Timing sets, key 64 x bed + set; 06 R155; each field's own. -/
  tset : Tab TSet := []
  /-- Delay-locked loop locked, per bed; 1; 06 R154; unlocked until it locks. -/
  tdll : Tab Bool := []
  /-- Drift compensation M_bed in fine steps, per bed; signed; 06 R166; 0. -/
  drift : Tab Int := []
  /-- Bed time base, as its difference from chip time in fine steps, per bed; 64 bits of ticks; 06 R153, R169; 0. -/
  base : Tab Int := []
  /-- The bed's last sample lay beyond the band of R167; 1; 06 R167; 0. -/
  stale : Tab Bool := []
  /-- DUT clock generators, key 4 x bed + generator; 06 R171; each field's own. -/
  clock : Tab ClockGen := []
  /-- A pin's clock assignment and gate; 06 R171; each field's own. -/
  pinClock : Tab PinClock := []
  /-- Drive and compare slices per pin; 06 R153; each field's own. -/
  slice : Tab PinEdges := []
deriving DecidableEq, Repr

end Sys2Proof.Machine
end

