-- ==== Sys2Proof/Machine/State/Seq.lean ====
section
/-! DEFINITION. State of the site sequencers, segments, streams, triggers and DRAM (spec/07).
Each field's comment reads: name; width; file and rule; reset value and class. -/

namespace Sys2Proof.Machine

/-- Sequencer states (R216). -/
inductive SeqMode | idle | armed | exec | branchWait | matching | trigWait | starveHold | ending
deriving DecidableEq, Repr

/-- When an armed burst starts (R226). -/
inductive BurstStart | at (ts : Nat) | tin (n : Nat) (falling : Bool)
deriving DecidableEq, Repr

/-- A loop-stack entry (R188): list entry and vector of the LOOP, iterations left, first iteration still running (R199),
segments it pinned. -/
structure LoopFrame where
  entry  : Nat
  vector : Nat
  left   : Nat
  first  : Bool
  pins   : List Nat
deriving DecidableEq, Repr

/-- A jump request held by a sequencer (R208). -/
structure Jump where
  target     : Nat
  /-- Cycle number on which it was registered. -/
  registered : Option Nat
  /-- A boundary has passed unused. -/
  deferred   : Bool
deriving DecidableEq, Repr

/-- A stop latched by a sequencer (R217): its cause, whether it waits for a segment boundary, and whether it ends a wait of
WAIT_TRIG, as a BURST_STOP does (R192). -/
structure Stop where
  cause      : Nat
  atBoundary : Bool
  endsWait   : Bool := false
deriving DecidableEq, Repr

/-- What a judgement is for (R189 to R191). -/
inductive JudgeKind
  | normal
  /-- A repetition of MATCH; true on the N-th. -/
  | matchRep (last : Bool)
deriving DecidableEq, Repr

/-- A vector whose judgement is not yet complete (R189). -/
structure Judgement where
  kind    : JudgeKind
  /-- VECTORS at the vector. -/
  vectors : Nat
  entry   : Nat
  segment : Nat
  index   : Nat
  /-- Cycle start in fine steps. -/
  start   : Nat
  /-- Completion of the judgement in fine steps (R189). -/
  due     : Nat
  clrfail : Bool
  log     : Bool
  /-- Per lane the code that judges or captures (16: the lane judges nothing). -/
  codes   : List Nat
  /-- Lanes whose strobe or window event was lost or not placed: their judgement is a fail (R154, R164). -/
  lost    : List Nat
deriving DecidableEq, Repr

/-- A site sequencer (R183, R216). -/
structure SeqState where
  /-- Site map: pin per lane; list; 05 R143, 07 R183; empty C. -/
  lanes : List Nat := []
  /-- State; 3 bits; 07 R216; IDLE. -/
  mode : SeqMode := .idle
  /-- Stream of the burst; 2 bits; 07 R224; 0. -/
  stream : Nat := 0
  /-- Tag of the site's progress entry; 12 bits; 07 R225; 0. -/
  tag : Nat := 0
  /-- Header ring; 16 bits; 07 R213; 0. -/
  ring : Nat := 0
  /-- Result ring; 16 bits; 07 R224; 0. -/
  resultRing : Nat := 0
  /-- END_LOOP has just jumped back to this LOOP vector, which does not push (R188); 1; 07 R188; 0. -/
  back : Bool := false
  /-- STARVE_ABORT; 1; 07 R224; 0. -/
  starveAbort : Bool := false
  /-- SEG_EVENTS; 1; 07 R224; 0. -/
  segEvents : Bool := false
  /-- LOG_MODE; 2 bits; 07 R224; 0. -/
  logMode : Nat := 0
  /-- FAIL_LIMIT; 16 bits; 07 R224; 0. -/
  failLimit : Nat := 0
  /-- Start of the armed burst; 07 R226; chip time 0. -/
  start : BurstStart := .at 0
  /-- Current list entry; 12 bits; 07 R194; 0. -/
  entry : Nat := 0
  /-- Segment of the current instance; 14 bits; 07 R194; 0. -/
  segment : Nat := 0
  /-- Vector index within the segment; 16 bits; 07 R185; 0. -/
  index : Nat := 0
  /-- Cycles started in the burst (the next cycle's number); 64 bits; 07 R187; 0. -/
  cycle : Nat := 0
  /-- Next cycle start in fine steps; 72 bits; 06 R160; 0. -/
  next : Nat := 0
  /-- Repetitions of the present vector already executed; 16 bits; 07 R185; 0. -/
  reps : Nat := 0
  /-- Cycle start of the first execution of the present WAIT_TRIG, BRANCH_FAIL or MATCH; 72 bits; 07 R192; 0. -/
  waitFrom : Nat := 0
  /-- The wait is over: the fine step at which MATCH or WAIT_TRIG may move on; 72 bits or none; 07 R191, R192; none. -/
  waitDone : Option Nat := none
  /-- Loop stack, innermost first, at most eight; 07 R188; empty. -/
  loops : List LoopFrame := []
  /-- Call stack, innermost first, at most eight list indices; 07 R188; empty. -/
  calls : List Nat := []
  /-- Site fail flag; 1; 07 R189; 0. -/
  failFlag : Bool := false
  /-- VECTORS; 48 bits; 07 R218; 0. -/
  vectors : Nat := 0
  /-- STEPS: segment instances started; 32 bits; 07 R218; 0. -/
  steps : Nat := 0
  /-- Hold cycles; 48 bits; 07 R200; 0. -/
  holds : Nat := 0
  /-- The burst has entered starve-hold; 1; 07 R200; 0. -/
  starved : Bool := false
  /-- In starve-hold, the list entry waited for; 12 bits; 07 R195; 0. -/
  awaited : Nat := 0
  /-- In starve-hold, the awaited entry has been reported as unusable; 1; 07 R195; 0. -/
  unusable : Bool := false
  /-- In starve-hold, the chip time from which the awaited entry counts as resident; 64 bits; 07 R200; 0. -/
  residentAt : Nat := 0
  /-- The next instance starts by a taken jump: none, or its DEFERRED flag; 07 R208; none. -/
  jumped : Option Bool := none
  /-- Pending jump request; 07 R209; none. -/
  jump : Option Jump := none
  /-- Latched stop; 07 R217; none. -/
  stop : Option Stop := none
  /-- Judgements not yet complete, oldest first; list; 07 R189; empty. -/
  judge : List Judgement := []
  /-- Failing vectors; 48 bits; 07 R213; 0. -/
  fails : Nat := 0
  /-- VECTORS of the first fail; 48 bits or none; 07 R213; none. -/
  firstFail : Option Nat := none
  /-- Per-lane fail counts; 32 bits each, saturating; 07 R213; 0. -/
  laneFails : Tab Nat := []
  /-- MATCH timeouts; 32 bits; 07 R213; 0. -/
  matchTimeouts : Nat := 0
  /-- Records not emitted for lack of credit; 32 bits; 07 R213; 0. -/
  unemitted : Nat := 0
  /-- FAIL_VECTOR records emitted against FAIL_LIMIT; 16 bits; 07 R213; 0. -/
  emitted : Nat := 0
  /-- Credit of FAIL_SUMMARY is held; 1; 07 R214; 0. -/
  endCredit : Bool := false
  /-- While ENDING: 0 FAIL_SUMMARY is still to come, 1 COMPLETION; 07 R214; 0. -/
  endPhase : Nat := 0
  /-- Cause of the end while ENDING; 4 bits; 07 R217; 0. -/
  endCause : Nat := 0
  /-- End of the last cycle in fine steps while ENDING; 72 bits; 07 R217; 0. -/
  endAt : Nat := 0
  /-- A bed of the site was in cloche at the last cycle's end; 1; 07 R217; 0. -/
  endCloche : Bool := false
  /-- The site has left its first instance; 1; 07 R225; 0. -/
  leftFirst : Bool := false
  /-- Entry segment pinned for the burst; 14 bits or none; 07 R225; none. -/
  entryPin : Option Nat := none
deriving DecidableEq, Repr

/-- What the cache holds of a segment (R196, R220): its width, vectors and hold vector, and its words. -/
structure Cached where
  width   : Nat := 0
  vectors : Nat := 0
  hold    : Option Nat := none
  words   : List Word := []
deriving DecidableEq, Repr

/-- A segment identifier (R184, R186, R196). -/
structure Segment where
  /-- Registered; 1; 07 R220; 0 C. -/
  registered : Bool := false
  /-- DRAM data address in bytes; 40 bits; 07 R220; 0 C. -/
  addr : Nat := 0
  /-- Vectors; 17 bits; 07 R220; 0 C. -/
  vectors : Nat := 0
  /-- Width W; 10 bits; 07 R220; 0 C. -/
  width : Nat := 0
  /-- Hold vector index, none for the last vector; 16 bits; 07 R200, R220; none C. -/
  hold : Option Nat := none
  /-- Resident in the cache; 1; 07 R196; 0 C. -/
  resident : Bool := false
  /-- The copy in the cache, which an instance runs from; 07 R196, R220; none C. -/
  copy : Cached := {}
  /-- Left unusable by a failed fetch or failed content; 1; 07 R195; 0 C. -/
  unusable : Bool := false
  /-- A first fetch met an uncorrectable error; 1; 07 R203; 0 C. -/
  retried : Bool := false
  /-- Fetch queued or in progress; 1; 07 R198; 0 C. -/
  queued : Bool := false
  /-- Host pin; 1; 07 R221; 0 C. -/
  hostPin : Bool := false
  /-- Loop pins held; count; 07 R199; 0 C. -/
  loopPins : Nat := 0
  /-- Entry pins held; count; 07 R225; 0 C. -/
  entryPins : Nat := 0
  /-- Chip time of last use, for eviction; 64 bits; 07 R197; 0. -/
  used : Nat := 0
deriving DecidableEq, Repr

/-- A broadcast stream (R194, R222). -/
structure Stream where
  /-- Open; 1; 07 R223; 0 C. -/
  isOpen : Bool := false
  /-- Segment identifiers, at most 4096; list; 07 R194; empty C. -/
  list : List Nat := []
  /-- Stream width, set by the first entry of the list; 10 bits; 07 R194; 0 C. -/
  width : Nat := 0
  /-- Sealed; 1; 07 R223; 0 C. -/
  sealed : Bool := false
  /-- PREFETCH; 7 bits; 07 R222; 8 C. -/
  prefetch : Nat := 8
deriving DecidableEq, Repr

/-- A trigger output (R211). -/
structure Trig where
  /-- TRIG_CFG.SEQ; 6 bits; 07 R211; 0 C. -/
  seq : Nat := 0
  /-- TRIG_CFG.EVENT; 3 bits; 07 R211; 0 C. -/
  event : Nat := 0
  /-- TRIG_CFG.POL; 1; 07 R211; 0 C. -/
  pol : Bool := false
  /-- TRIG_CFG.WIDTH; 6 bits; 07 R211; 1 C. -/
  width : Nat := 1
  /-- Pulses active or to come, earliest first: chip times of their beginning and end; list; 07 R211; none. -/
  pulses : List (Nat × Nat) := []
deriving DecidableEq, Repr

/-- A trigger input (R211, R212). -/
structure Tin where
  /-- TIN_CFG.ENABLE; 1; 07 R211; 0 C. -/
  enable : Bool := false
  /-- TIN_CFG.EDGE, true falling; 1; 07 R211; 0 C. -/
  falling : Bool := false
  /-- TIN_CFG bits 3:2 (no field of the table; kept as written: DESIGN CHOICE 7); 2; 07 R211; 0 C. -/
  spare : BitVec 2 := 0
  /-- TIN_CFG.FILTER; 4 bits; 07 R211; 0 C. -/
  filter : Nat := 0
  /-- TIN_STATUS.LEVEL; 1; 07 R211; 0 C. -/
  level : Bool := false
  /-- TIN_STATUS.SEEN; 1; 07 R211; 0 C. -/
  seen : Bool := false
  /-- TIN_COUNT; 16 bits; 07 R211; 0 C. -/
  count : Nat := 0
  /-- TIN_STAMP; 64 bits; 07 R211; 0 C. -/
  stamp : Nat := 0
  /-- Last rising and last falling edge of any direction; chip time or none; 07 R212; none. -/
  lastRise : Option Nat := none
  lastFall : Option Nat := none
deriving DecidableEq, Repr

/-- A SEG_LOAD in progress (R220). -/
structure SegLoad where
  tag     : Nat
  segment : Nat
  addr    : Nat
  vectors : Nat
  width   : Nat
  hold    : Option Nat
deriving DecidableEq, Repr

/-- Pattern sequencing (07_pattern_sequencing.md). -/
structure Pattern where
  /-- Sequencers S00 to S63; 07 R183; each field's own. -/
  seq : Tab SeqState := []
  /-- Segments 0 to 16383; 07 R184; each field's own. -/
  segment : Tab Segment := []
  /-- Streams 0 to 3; 07 R194; each field's own. -/
  stream : Tab Stream := []
  /-- Trigger outputs TRIG0 to TRIG7; 07 R211; each field's own. -/
  trig : Tab Trig := []
  /-- Trigger inputs TIN0 to TIN3; 07 R211; each field's own. -/
  tin : Tab Tin := []
  /-- PATTERN_MIB, none for half the data space; 16 bits; 07 R205; none C. -/
  patternMib : Option Nat := none
  /-- SEG_LOADs accepted, oldest first; list; 07 R220; empty. -/
  loads : List SegLoad := []
  /-- The segment that the streamer is fetching; 14 bits or none; 07 R198; none. -/
  fetch : Option Nat := none
  /-- Chip time before which DRAM_LATENCY lets the fetch in progress bring nothing; 64 bits; 17 R530; 0. -/
  fetchReady : Nat := 0
  /-- The stream whose turn is next; 2 bits; 07 R198; 0. -/
  turn : Nat := 0
  /-- Attached DRAM, byte addressed; 07 R205; bytes not written read 0 (DESIGN CHOICE 8). -/
  dram : Tab Byte := []
deriving DecidableEq, Repr

end Sys2Proof.Machine
end

