-- ==== Sys2Proof/Machine/State/Loops.lean ====
section
/-! DEFINITION. State of the force-measure loops and sweeps (spec/08) and of the loop engines and set-point generators
(spec/09). Each field's comment reads: name; width; file and rule; reset value and class. -/

namespace Sys2Proof.Machine

/-- A coefficient: mantissa, 16-bit signed, and exponent −24 to +15 (R276). -/
structure Coef where
  m : Int := 0
  e : Int := 0
deriving DecidableEq, Repr

/-- A coefficient set (R286). -/
structure CoefSet where
  /-- KP; M and E; 09 R286; factory set C. -/
  kp : Coef := {}
  /-- KI; M and E; 09 R286; factory set C. -/
  ki : Coef := {}
  /-- KD; M and E; 09 R286; 0 C. -/
  kd : Coef := {}
  /-- KFV; M and E; 09 R286; 0 C. -/
  kfv : Coef := {}
  /-- KFA; M and E; 09 R286; 0 C. -/
  kfa : Coef := {}
  /-- KIN; M and E; 09 R286; 0 C. -/
  kin : Coef := {}
  /-- U_MIN; Q1.15; 09 R286; −32768 C. -/
  uMin : Int := -32768
  /-- U_MAX; Q1.15; 09 R286; 32767 C. -/
  uMax : Int := 32767
  /-- DF_SHIFT; 4 bits; 09 R286; 0 C. -/
  dfShift : Nat := 0
  /-- GT; 5 bits; 09 R286; 0 C. -/
  gt : Nat := 0
  /-- GT_P; 1; 09 R286; 0 C. -/
  gtP : Bool := false
  /-- GT_I; 1; 09 R286; 0 C. -/
  gtI : Bool := false
  /-- VIN_NOM; Q1.15; 09 R286; 0 C. -/
  vinNom : Int := 0
deriving DecidableEq, Repr

/-- The moving state of one law of a loop (R276, R279). -/
structure Law where
  /-- Integrator I; Q9.31, 40 bits; 09 R280; 0 (DESIGN CHOICE 9: preset at every start). -/
  integ : Int := 0
  /-- Derivative state d; Q9.31; 09 R279; 0 (DESIGN CHOICE 9). -/
  d : Int := 0
  /-- sat_hi of the previous sample; 1; 09 R280; 0 (DESIGN CHOICE 9). -/
  satHi : Bool := false
  /-- sat_lo of the previous sample; 1; 09 R280; 0 (DESIGN CHOICE 9). -/
  satLo : Bool := false
  /-- x_n_prev; Q9.31; 09 R279; 0 (DESIGN CHOICE 9). -/
  xPrev : Int := 0
  /-- The next sample is the first after a start, whose x_n presets x_n_prev (R281); 1; 09 R281; 0. -/
  fresh : Bool := false
deriving DecidableEq, Repr

/-- Loop states (R262). -/
inductive LoopMode | stopped | regulating | settling | frozen | cloche | ganged
deriving DecidableEq, Repr

/-- Declared law (R246). -/
inductive Declared | primary | limitHi | limitLo
deriving DecidableEq, Repr

/-- A range change in progress (R254): new ranges, and the samples gone since step 1. -/
structure RangeChange where
  irange : Nat
  vrange : Nat
  /-- The ranges left. -/
  oldI   : Nat
  oldV   : Nat
  count  : Nat
deriving DecidableEq, Repr

/-- A pending swap (R289): chip time from which it is due, laws named, cause and region (0xFF: the host buffers). -/
structure Swap where
  due    : Nat
  volt   : Bool
  curr   : Bool
  cause  : Nat
  region : Nat
deriving DecidableEq, Repr

/-- A LOOP_FORCE waiting for its sample (R270): chip time, MODE, and the set-point's binary32 pattern. -/
structure ForcePending where
  due   : Nat
  mode  : Nat
  value : BitVec 32
deriving DecidableEq, Repr

/-- The region table of a loop and its hysteresis state (R292 to R295). -/
structure Regions where
  /-- ENABLE; 1; 09 R292; 0 C. -/
  enable : Bool := false
  /-- VAR; 2 bits; 09 R292; 0 C. -/
  var : Nat := 0
  /-- COUNT; 4 bits; 09 R292; 1 C. -/
  count : Nat := 1
  /-- B[1] to B[7] as codes; list; 09 R293; 0 C. -/
  bounds : List Int := []
  /-- H as a code; 16 bits; 09 R293; 0 C. -/
  hyst : Int := 0
  /-- The region in force; 3 bits; 09 R295; 0 V. -/
  cur : Nat := 0
  /-- known; 1; 09 R295; 0 V. -/
  known : Bool := false
  /-- The next regulating sample is the first of a start from STOPPED; 1; 09 R295; 0. -/
  starting : Bool := false
  /-- Voltage-law sets of regions 0 to 7; 16 words each; 09 R292; factory C. -/
  volt : List (Nat × CoefSet) := []
  /-- Current-law sets of regions 0 to 7; 16 words each; 09 R292; factory C. -/
  curr : List (Nat × CoefSet) := []
deriving DecidableEq, Repr

/-- A sweep running on a loop (R265, R266). -/
structure SweepRun where
  tag       : Nat
  ring      : Nat
  measRing  : Nat
  /-- First loop and count of the run, which steps and waits together. -/
  first     : Nat
  count     : Nat
  start     : BurstStart
  stepFirst : Nat
  steps     : Nat
  passes    : Nat
  /-- Steps begun over all passes, and steps completed. -/
  begun     : Nat
  done      : Nat
  /-- Samples of the present step's dwell still to run, 0 before the first. -/
  left      : Nat
  /-- Sample boundary at which the sweep last advanced. -/
  last      : Nat
  /-- Sample boundary at which the present step began. -/
  began     : Nat
  /-- Ring credit of the present MEAS step is held. -/
  credit    : Bool
  /-- Ring credit of the next MEAS step is held. -/
  granted   : Bool
  /-- Set-point before the sweep, for END_RESTORE. -/
  restore   : Option Frac
deriving DecidableEq, Repr

/-- A jerk-limited profile (R298, R299). p, v, a, j and the target are 64 bits with 48 fraction bits, in codes and samples
(R276). -/
structure ProfileRun where
  tag    : Nat
  ring   : Nat
  start  : BurstStart
  nj     : Nat
  na     : Nat
  nv     : Nat
  target : Int
  /-- The start sample has come, and samples run since. -/
  begun  : Bool
  k      : Nat
  j      : Int
  p      : Int
  v      : Int
  a      : Int
deriving DecidableEq, Repr

/-- An entry of a waveform list (R301). -/
structure WaveEntry where
  seg    : Nat
  step   : Nat
  count  : Nat
deriving DecidableEq, Repr

/-- A waveform run (R301 to R303). -/
structure WaveRun where
  tag       : Nat
  ring      : Nat
  start     : BurstStart
  entries   : List WaveEntry
  passes    : Nat
  scale     : Frac
  offset    : Frac
  segEvents : Bool
  restore   : Option Frac
  entry     : Nat
  rep       : Nat
  pass      : Nat
  /-- Pointer n and its 31-bit fraction f. -/
  n         : Nat
  f         : Nat
  /-- Native samples of the instances completed, and instances completed. -/
  native    : Nat
  instances : Nat
  /-- Set-points of the last two samples, for the differences of R282, newest first; empty before the start sample. -/
  prev      : List Frac
  /-- The instance to play next starts by a taken jump: its DEFERRED flag. -/
  jumped    : Option Bool
  /-- Pending jump: target, native sample on which it was registered, DEFERRED. -/
  jump      : Option (Nat × Option Nat × Bool)
  /-- A STOP ends the run at the next sample (R316). -/
  stopping  : Bool
  /-- All passes are done, or a STOP has come: WAVE_RUN_END is due. -/
  ended     : Bool
deriving DecidableEq, Repr

/-- A linear motion from one exact value to another over so many samples (R306). -/
structure Ramp where
  base : Frac
  goal : Frac
  len  : Nat
  gone : Nat
deriving DecidableEq, Repr

/-- A SINE_RUN CHANGE that waits for Tc (R306). -/
structure SineChange where
  tc       : Nat
  fw       : Nat
  absolute : Bool
  phi0     : Nat
  amp      : Frac
  offset   : Frac
  rampN    : Nat
deriving DecidableEq, Repr

/-- What a CHANGE replaced (R306, R329): the sample boundary at which it took effect, FW and PHI0 before it, and whether the
phase jumped. -/
structure SinePast where
  time : Nat
  fw   : Nat
  phi0 : Nat
  jump : Bool
deriving DecidableEq, Repr

/-- A coherent sine (R304 to R307). -/
structure SineRun where
  tag      : Nat
  ring     : Nat
  start    : BurstStart
  fw       : Nat
  phi0     : Nat
  epoch    : Nat
  amp      : Ramp
  offset   : Ramp
  cycles   : Nat
  rampN    : Nat
  /-- Whole turns since the start sample, and the phase of the last sample. -/
  turns    : Nat
  phase    : Nat
  /-- Phase at the start sample, none before it. -/
  begun    : Option Nat
  /-- Set-points of the last two samples, for the differences of R282. -/
  prev     : List Frac
  change   : Option SineChange
  /-- The latest changes taken, newest first, for samples whose aperture lies before them. -/
  past     : List SinePast
  /-- Chip time of a pending STOP, and whether the ramp-down has begun. -/
  stopAt   : Option Nat
  stopping : Bool
  /-- A sample has been played at the end of the ramp-down: SINE_RAMP_END is due. -/
  quiet    : Bool
deriving DecidableEq, Repr

/-- The set-point generator's source (R297). -/
inductive Source
  | dc
  | sweep (r : SweepRun)
  | profile (r : ProfileRun)
  | wave (r : WaveRun)
  | sine (r : SineRun)
deriving DecidableEq, Repr

/-- A force-measure loop (R230, R262, R276). -/
structure LoopState where
  /-- CHARGE; 1; 08 R269; 0 C. -/
  charge : Bool := false
  /-- STOP_HOLD; 1; 08 R269; 0 C. -/
  stopHold : Bool := false
  /-- STAGE; 0 ON_CHIP, 1 EXT_ANALOGUE, 2 EXT_DIGITAL; 08 R269; ON_CHIP C. -/
  stage : Nat := 0
  /-- STAGE_ID; 4 bits; 08 R269; 0 C. -/
  stageId : Nat := 0
  /-- GANG size on a leader; 1 to 4; 08 R269; 1 C. -/
  gang : Nat := 1
  /-- EVENT_RING; 16 bits; 08 R269; 0xFFFF C. -/
  eventRing : Nat := 0xFFFF
  /-- TRACK_SHIFT; 3 bits; 08 R269; 0 C. -/
  trackShift : Nat := 0
  /-- STATE; 6 states; 08 R262; STOPPED C. -/
  state : LoopMode := .stopped
  /-- The state a FROZEN loop resumes (R260); 6 states; 08 R260; STOPPED. -/
  resume : LoopMode := .stopped
  /-- MODE; 0 FV, 1 FI, 2 MV; 08 R235; FV (DESIGN CHOICE 10). -/
  mode : Nat := 0
  /-- Output open (disconnected); 1; 08 R263; 1 C. -/
  isOpen : Bool := true
  /-- IRANGE in force; 3 bits; 08 R269; 0 C (DESIGN CHOICE 10). -/
  irange : Nat := 0
  /-- VRANGE in force; 1; 08 R269; 0 C (DESIGN CHOICE 10). -/
  vrange : Nat := 0
  /-- AUTO; 1; 08 R271; 0 C. -/
  auto : Bool := false
  /-- AUTO_MIN; 3 bits; 08 R271; 0 C (DESIGN CHOICE 10). -/
  autoMin : Nat := 0
  /-- AUTO_MAX; 3 bits; 08 R271; 4 C (DESIGN CHOICE 10). -/
  autoMax : Nat := 4
  /-- UP_N; 8 bits; 08 R256; 2 C. -/
  upN : Nat := 2
  /-- DOWN_N; 16 bits; 08 R256; 256 C. -/
  downN : Nat := 256
  /-- Up-range and down-range counts; 16 bits; 08 R256; 0. -/
  upCount : Nat := 0
  downCount : Nat := 0
  /-- Primary set-point as a code of the range in force; Q1.15; 08 R234; 0 C. -/
  setPoint : Int := 0
  /-- User current limits as codes, none for the RANGE bounds; 08 R272; none C. -/
  iHi : Option Int := none
  iLo : Option Int := none
  /-- User voltage limits as codes, none for the RANGE bounds; 08 R272; none C. -/
  vHi : Option Int := none
  vLo : Option Int := none
  /-- RETURN_N; 16 bits; 08 R246; 32 C. -/
  returnN : Nat := 32
  /-- TRIP_N; 16 bits; 08 R249; 0 C. -/
  tripN : Nat := 0
  /-- Return count; 16 bits; 08 R246; 0. -/
  returnCount : Nat := 0
  /-- Trip count; 16 bits; 08 R249; 0. -/
  tripCount : Nat := 0
  /-- Declared law; 3 values; 08 R246; PRIMARY. -/
  declared : Declared := .primary
  /-- A STOP or a change of mode took a LIMIT back to PRIMARY (R270): the law and the mode left, until the sample's record; 08 R270; none. -/
  handoff : Option (Declared × Nat) := none
  /-- Cause of the set-point clip that binds, 0 none; 4 bits; 08 R247; 0. -/
  clip : Nat := 0
  /-- Binding cause of the declared limit or clip, 0 none; 4 bits; 08 R269; 0. -/
  cause : Nat := 0
  /-- Demand u written to the force DAC or drive output; Q1.15; 09 R276; power-up code K. -/
  demand : Int := 0
  /-- Last voltage code; 16 bits; 08 R269; 0. -/
  lastV : Int := 0
  /-- Voltage code of the sample before the last; 16 bits; 08 R252; 0. -/
  priorV : Int := 0
  /-- Last current code; 16 bits; 08 R269; 0. -/
  lastI : Int := 0
  /-- Chip time of the last sample boundary processed; 64 bits; 08 R231; 0. -/
  lastSample : Nat := 0
  /-- Rate and acceleration feed-forward inputs v_n and a_n before RS; Q1.15; 09 R282; 0. -/
  rate : Int := 0
  accel : Int := 0
  /-- Voltage law; 09 R279; each field's own. -/
  volt : Law := {}
  /-- Current law; 09 R279; each field's own. -/
  curr : Law := {}
  /-- Host buffers: voltage ACTIVE and STAGED, current ACTIVE and STAGED, none for the factory set; 16 words each; 09 R288; factory C. -/
  vActive : Option CoefSet := none
  vStaged : Option CoefSet := none
  iActive : Option CoefSet := none
  iStaged : Option CoefSet := none
  /-- The region whose sets are in use, none for the host buffers; 3 bits; 09 R292; none C. -/
  inUse : Option Nat := none
  /-- Region table; 09 R292; each field's own. -/
  regions : Regions := {}
  /-- Pending swap of a COEF_SWAP; 09 R289; none C. -/
  swap : Option Swap := none
  /-- Pending swap of region scheduling (CAUSE 2, 3 and 4); 09 R294, R296; none C. -/
  regionSwap : Option Swap := none
  /-- Range change in progress; 08 R254; none. -/
  change : Option RangeChange := none
  /-- The last range request waiting for step 4: current and voltage range; 08 R254; none. -/
  changeNext : Option (Nat × Nat) := none
  /-- An auto-range decision due at the next sample (R256): the new range; 08 R256; none. -/
  autoGoal : Option Nat := none
  /-- LOOP_FORCE waiting for its sample; 08 R270; none. -/
  force : Option ForcePending := none
  /-- A start that measures the terminal first (R270): samples still to take, then MODE and set-point; 08 R270; none. -/
  measure : Option ForcePending := none
  /-- Set-point source; 09 R297; DC. -/
  source : Source := .dc
  /-- CLOCHE_MODE; 0 DISCONNECT, 1 ZERO_CURRENT, 2 VOLTAGE; 08 R258; seed K, DISCONNECT. -/
  clocheMode : Nat := 0
  /-- CLOCHE_V as a binary32 pattern; 32 bits; 08 R258; seed K, 0. -/
  clocheV : BitVec 32 := 0
  /-- CLOCHE_I as a binary32 pattern; 32 bits; 08 R258; seed K, 0. -/
  clocheI : BitVec 32 := 0
  /-- Force DAC power-up code as loaded (R263); 16 bits; 05 R138; seed K, 0. -/
  powerUp : Int := 0
  /-- Cloche code of the force DAC or external drive output; 16 bits; 08 R258; seed K, 0. -/
  clocheCode : Int := 0
  /-- P_max of the on-chip stage in nW (R237); 30 bits; 08 R237; 1 W. -/
  pMax : Nat := 1000000000
  /-- Dissipation estimate of the last sample in nW; 32 bits; 08 R237; 0. -/
  diss : Nat := 0
  /-- Sum and count of the estimates of the present 16 µs; 08 R238; 0. -/
  dissSum : Nat := 0
  dissCount : Nat := 0
  /-- Consecutive samples above 1.1 W; 8 bits; 08 R237; 0. -/
  dissOver : Nat := 0
  /-- Zero current held after a charge inhibit, until the host sends a LOOP_FORCE; 1; 08 R250; 0. -/
  chargeHold : Bool := false
  /-- Cause 7 was active in the last sample, the charge window being left; 1; 08 R250; 0. -/
  chargeOut : Bool := false
  /-- The on-chip stage's direct clamp on its output current while the laws do not run, sourcing and sinking, as codes; none
  otherwise; 16 bits each; 08 R237; none. -/
  dissClamp : Option (Int × Int) := none
  /-- Set-point of the sample before, for set-point differences; Q1.15; 09 R282; 0. -/
  lastSet : Int := 0
  /-- EXT_DIGITAL: the law in force the stage reported; 2 bits; 08 R241; 0. -/
  stageLaw : Nat := 0
deriving DecidableEq, Repr

/-- A step of the sweep store (R264). -/
structure SweepStep where
  /-- VALUE; binary32; 08 R264; 0 C (DESIGN CHOICE 11). -/
  value : BitVec 32 := 0
  /-- DWELL; 32 bits; 08 R264; 0 C (DESIGN CHOICE 11). -/
  dwell : Nat := 0
  /-- MEAS; 1; 08 R264; 0 C (DESIGN CHOICE 11). -/
  meas : Bool := false
  /-- IRANGE; 3 bits; 08 R264; 0 C (DESIGN CHOICE 11). -/
  irange : Nat := 0
deriving DecidableEq, Repr

/-- A WAVE_LOAD in progress (R315). -/
structure WaveLoad where
  tag     : Nat
  ring    : Nat
  seg     : Nat
  addr    : Nat
  samples : Nat
  /-- The segment was unregistered, or loaded anew, since: this load registers nothing. -/
  void    : Bool
deriving DecidableEq, Repr

/-- Loops and loop engines (08_force_measure_loops.md, 09_control_engine.md). -/
structure Loops where
  /-- Loops L000 to L543; 08 R230; each field's own. -/
  loop : Tab LoopState := []
  /-- Gain tables, key 1024 x bed + 32 x table + point; Q2.14; 09 R283; 16384 C. -/
  gain : Tab Nat := []
  /-- Sweep store, 65536 steps; 08 R264; each field's own. -/
  sweep : Tab SweepStep := []
  /-- Waveform segments 0 to 1023, Q1.15 samples, empty when unregistered; 09 R300; empty C. -/
  wave : Tab (List Int) := []
  /-- WAVE_LOADs accepted, oldest first; list; 09 R315; empty. -/
  waveLoads : List WaveLoad := []
  /-- Chip time of the last update of P_max; 64 bits; 08 R238; 0. -/
  dissTime : Nat := 0
deriving DecidableEq, Repr

end Sys2Proof.Machine
end

