-- ==== Sys2Proof/Machine/State/Meas.lean ====
section
/-! DEFINITION. State of the averagers, lock-ins and window monitors (spec/10) and of the time-interval units (spec/11).
Each field's comment reads: name; width; file and rule; reset value and class. -/

namespace Sys2Proof.Machine

/-- A corrected sample of a converter (R320, R321). A monitor reading has its code in `v`. -/
structure Sample where
  /-- Chip time of the aperture instant. -/
  time     : Nat
  v        : Int
  i        : Int
  vOvr     : Bool
  iOvr     : Bool
  irange   : Nat
  vrange   : Nat
  settling : Bool
  held     : Bool
  /-- Taken in holdover (R319). -/
  unref    : Bool
deriving DecidableEq, Repr

/-- Accumulators of one channel of a window (R325, R327, R329). -/
structure Accum where
  /-- acc, or accS of a lock-in; Q9.31. -/
  acc  : Int := 0
  /-- accC of a lock-in; Q9.31. -/
  accC : Int := 0
  cmin : Int := 32767
  cmax : Int := -32768
  /-- An OVR sample entered, or one that saturated (R327). -/
  ovr  : Bool := false
deriving DecidableEq, Repr

/-- A measurement window in progress (R325 to R330). -/
structure Window where
  /-- N, channels and MINMAX as they stood at the window's start (R344). -/
  size    : Nat := 1
  chV     : Bool := true
  chI     : Bool := true
  minmax  : Bool := false
  n       : Nat := 0
  skipped : Nat := 0
  v       : Accum := {}
  i       : Accum := {}
  /-- First and last used samples. -/
  first   : Option Sample := none
  last    : Option Sample := none
  mixed   : Bool := false
  truncated : Bool := false
  fwChanged : Bool := false
  /-- A used sample was taken in holdover. -/
  unref   : Bool := false
  /-- Lock-in: wraps since the window began. -/
  turns   : Nat := 0
  /-- Lock-in: FW at the last sample (R332). -/
  fw      : Nat := 0
deriving DecidableEq, Repr

/-- A RAW_SAMPLES record in the making (R332, R333). -/
structure RawBuf where
  codes   : List Int := []
  first   : Option Sample := none
  skipped : Nat := 0
  /-- SETTLING and HELD samples that came while the record was open: the next record's. -/
  skipNext : Nat := 0
  ovr     : Bool := false
  gap     : Bool := false
  /-- A sample was taken in holdover. -/
  unref   : Bool := false
  /-- Credit for the record is held. -/
  credit  : Bool := false
  /-- A range change asks for an early close. -/
  full    : Bool := false
deriving DecidableEq, Repr

/-- A MEAS_RUN on an averager (R345, R333, R334). -/
structure MeasRun where
  tag     : Nat
  /-- Header ring and record ring. -/
  hdrRing : Nat
  ring    : Nat
  start   : BurstStart
  /-- Raw stream, otherwise averages. -/
  raw     : Bool
  /-- Averager keys of the command's loops, which wait together (R333). -/
  group   : List Nat
  blocks  : Nat
  gap     : Nat
  decim   : Nat
  /-- N of a monitor source's windows; 0 for loops. -/
  n       : Nat
  /-- Monitor slot, none for a loop. -/
  slot    : Option Nat
  /-- Windows or records done. -/
  done    : Nat
  /-- Samples of the present gap, or of the decimation, still to skip. -/
  skip    : Nat
  win     : Option Window
  /-- Units of credit held for the present window's record, or for the next one's. -/
  units   : Nat
  rawV    : RawBuf
  rawI    : RawBuf
  /-- STOP has been taken: the run ends with the present window. -/
  stopping : Bool
deriving DecidableEq, Repr

/-- A LOCKIN_RUN on an averager (R346, R330). -/
structure LockRun where
  tag      : Nat
  hdrRing  : Nat
  ring     : Nat
  start    : BurstStart
  /-- Averager keys of the command's loops, which wait together (R333). -/
  group    : List Nat
  ref      : Nat
  harmonic : Nat
  v        : Bool
  i        : Bool
  cycles   : Nat
  blocks   : Nat
  /-- Prescale P. -/
  p        : Nat
  done     : Nat
  /-- h × φ of the sample before, none before the first. -/
  phase    : Option Nat
  win      : Option Window
  credit   : Bool
  /-- A window that has met its end, with its credit held or not: LOCKIN_WINDOW_END is due. -/
  ended    : Option (Window × Bool)
  stopping : Bool
deriving DecidableEq, Repr

/-- A MEAS step of a sweep whose dwell has ended: the sample that its last boundary completes closes it (R265, R318,
R326). -/
structure SweepEnd where
  step    : Nat
  samples : List Sample
  skipped : Nat
  /-- The closing sample has come. -/
  filled  : Bool
  credit  : Bool
deriving DecidableEq, Repr

/-- An averager: a loop's or a bed's monitor averager (R325, R344). -/
structure Averager where
  /-- MEAS_CONFIG V; 1; 10 R344; 1 C. -/
  v : Bool := true
  /-- MEAS_CONFIG I; 1; 10 R344; 1 C. -/
  i : Bool := true
  /-- MEAS_CONFIG MINMAX; 1; 10 R344; 0 C. -/
  minmax : Bool := false
  /-- MEAS_CONFIG N; 25 bits; 10 R344; 1 C. -/
  n : Nat := 1
  /-- Measurement run in progress; 10 R345; none. -/
  run : Option MeasRun := none
  /-- Lock-in run in progress; 10 R346; none. -/
  lock : Option LockRun := none
  /-- Usable samples of the present sweep step's dwell, newest first, at most N (R326); list; 10 R326; empty. -/
  recent : List Sample := []
  /-- Samples of the present sweep step's dwell skipped; 16 bits; 10 R326; 0. -/
  recentSkipped : Nat := 0
  /-- MEAS step whose dwell has ended and whose record is not written yet; 10 R326; none. -/
  ended : Option SweepEnd := none
deriving DecidableEq, Repr

/-- A window monitor (R335 to R340, R347). -/
structure Monitoring where
  /-- ENABLE; 1; 10 R347; 0 C. -/
  enable : Bool := false
  /-- SRC_A; 6 bits; 10 R347; 0 C. -/
  srcA : Nat := 0
  /-- SRC_B; 6 bits; 10 R347; 40 C. -/
  srcB : Nat := 40
  /-- OFFSET as the binary32 pattern given; 32 bits; 10 R347; 0 C. -/
  offset : BitVec 32 := 0
  /-- MODEWORD (HYST, SPEED, TRIP_ON, FAIL_SAFE, EVENT, FAULT); 8 bits; 10 R347; SLOW only, 0x0008 C. -/
  modeword : Nat := 8
  /-- PERIOD in µs; 16 bits; 10 R347; 0 C. -/
  period : Nat := 0
  /-- EVENT_RING; 16 bits; 10 R347; 0xFFFF C. -/
  eventRing : Nat := 0xFFFF
  /-- DECISION, true HIGH; 1; 10 R336; LOW. -/
  decision : Bool := false
  /-- TRIPPED latch; 1; 10 R338; 0. -/
  tripped : Bool := false
  /-- UNRESOLVED; 1; 10 R339; 0 (DESIGN CHOICE 12: a disabled unit evaluates nothing). -/
  unresolved : Bool := false
  /-- The settling interval runs; 1; 10 R339; 0. -/
  settling : Bool := false
  /-- Trip count; 16 bits, saturating; 10 R340; 0. -/
  count : Nat := 0
  /-- Stamp of the last trip; 64 bits; 10 R338; 0. -/
  stamp : Nat := 0
  /-- The next evaluation period that ends; chip time; 10 R338; 0. -/
  periodEnd : Nat := 0
deriving DecidableEq, Repr

/-- A statistics window of a time-interval unit (R358, R360). -/
structure TimWindow where
  n         : Nat := 0
  /-- Chip time of the first edge of the first sample. -/
  time      : Nat := 0
  x0        : Nat := 0
  sd        : Int := 0
  sq        : Nat := 0
  xmin      : Nat := 0
  xmax      : Nat := 0
  timeouts  : Nat := 0
  discarded : Nat := 0
  emptyGates : Nat := 0
  missStart : Nat := 0
  missStop  : Nat := 0
  aliased   : Bool := false
  syncStep  : Bool := false
  unref     : Bool := false
  /-- Credit of the window's record is held, or the window runs under DROP without it. -/
  credit    : Bool := false
  running   : Bool := false
deriving DecidableEq, Repr

/-- A stamp in the FIFO (R357, R360): 72-bit stamp, STOP channel, falling edge, GAP with the OVERFLOW that it follows;
taken in holdover (R362); the first after a chip-time step. -/
structure Stamp where
  time  : Nat
  stop  : Bool
  fall  : Bool
  gap   : Bool := false
  lost  : Nat := 0
  unref : Bool := false
  fresh : Bool := false
deriving DecidableEq, Repr

/-- A TIM_STAMPS record in the making (R360). -/
structure StampRec where
  entries  : List Stamp
  unref    : Bool
deriving DecidableEq, Repr

/-- A run of a time-interval unit (R359, R361, R363, R367). -/
structure TimRun where
  tag      : Nat
  hdrRing  : Nat
  ring     : Nat
  start    : BurstStart
  blocks   : Nat
  done     : Nat
  win      : TimWindow
  /-- Stamp of the arming START edge (R355), or of the last START edge in PERIOD. -/
  armed    : Option Nat
  /-- MISSED of the START channel when that edge was taken. -/
  armMiss  : Nat
  /-- That edge, or an edge of the present gate, was stamped in holdover (R362). -/
  armUnref : Bool
  /-- FREQUENCY gate: edges, first and last stamps, MISSED advanced. -/
  gateK    : Nat
  gateFirst : Nat
  gateLast : Nat
  gateMiss : Bool
  /-- Chip time at which the last gate ended. -/
  gateEnd  : Nat
  record   : Option StampRec
  /-- A chip-time step came since the arming edge (R362). -/
  stepped  : Bool
  stopping : Bool
  /-- An overflow of this run has raised TIM_OVF (R357). -/
  overflowed : Bool
deriving DecidableEq, Repr

/-- A time-interval unit (R349, R366). -/
structure TimeInterval where
  /-- MODE; 3 bits; 11 R366; INTERVAL C. -/
  mode : Nat := 0
  /-- START_SEL; 16 bits; 11 R366; source 63 C. -/
  startSel : Nat := 63
  /-- STOP_SEL; 16 bits; 11 R366; source 63 C. -/
  stopSel : Nat := 63
  /-- N; 25 bits; 11 R366; 1 C. -/
  n : Nat := 1
  /-- GATE; 16 bits; 11 R366; 100 C. -/
  gate : Nat := 100
  /-- TIMEOUT; 16 bits; 11 R366; 0 C. -/
  timeout : Nat := 0
  /-- Last accepted edge of the START and of the STOP channel; 72 bits or none; 11 R352; none. -/
  lastStart : Option Nat := none
  lastStop : Option Nat := none
  /-- MISSED of the START and of the STOP channel; 32 bits, saturating; 11 R352; 0. -/
  missStart : Nat := 0
  missStop : Nat := 0
  /-- Stamp FIFO, oldest first, at most 1024; 11 R357; empty. -/
  fifo : List Stamp := []
  /-- OVERFLOW since a stamp last entered; 32 bits, saturating; 11 R357; 0. -/
  overflow : Nat := 0
  /-- The next stamp that enters carries GAP; 1; 11 R357; 0. -/
  gapNext : Bool := false
  /-- The next stamp that enters is the first after a chip-time step; 1; 11 R362; 0. -/
  freshNext : Bool := false
  /-- Run in progress; 11 R367; none. -/
  run : Option TimRun := none
deriving DecidableEq, Repr

/-- Measurement and time-interval units (10_measurement.md, 11_time_interval.md). -/
structure Measure where
  /-- Averagers, key loop number, or 2048 + bed for a monitor averager; 10 R325; each field's own. -/
  avg : Tab Averager := []
  /-- Window monitors WM00 to WM63; 10 R335; each field's own. -/
  monitor : Tab Monitoring := []
  /-- Time-interval units TU00 to TU31; 11 R349; each field's own. -/
  unit : Tab TimeInterval := []
deriving DecidableEq, Repr

end Sys2Proof.Machine
end

