-- ==== Sys2Proof/Machine/State/Harvest.lean ====
section
/-! DEFINITION. State of harvest: stagers, banks and rings (spec/12).
Each field's comment reads: name; width; file and rule; reset value and class. -/

namespace Sys2Proof.Machine

/-- A record placed and held in a bank (R371 to R374): its ring, position, length in units, sequence number, the tag it
belongs to (0 none), its bytes, the chip time it entered, whether that was in holdover, and the bytes of it that DRAM has
acknowledged: the writer's mark. -/
structure Staged where
  ring    : Nat
  pos     : Nat
  len     : Nat
  seq     : Nat
  tag     : Nat
  bytes   : List Byte
  entered : Nat
  unref   : Bool
  acked   : Nat
deriving DecidableEq, Repr

/-- A stager (R368 to R370). -/
structure Stager where
  /-- Bank B is the filling bank; 1; 12 R370; bank A fills. -/
  fillB : Bool := false
  /-- Records of bank A, oldest first; 2048 words; 12 R369; empty. -/
  bankA : List Staged := []
  /-- Records of bank B, oldest first; 2048 words; 12 R369; empty. -/
  bankB : List Staged := []
  /-- The other bank has been handed to the ring writer; 1; 12 R370; 0. -/
  handed : Bool := false
  /-- Consecutive failures of the burst in flight; 2 bits; 12 R374; 0. -/
  fails : Nat := 0
  /-- LOSS fills of abandoned records still to be written, oldest first; list; 12 R381; empty. -/
  fills : List Staged := []
deriving DecidableEq, Repr

/-- State of a ring (R376). -/
inductive RingState | free | live | lossOpen | failed
deriving DecidableEq, Repr

/-- A record placed in a ring and not yet passed by WR_POS (R375): position, units, sequence number; written or
abandoned and filled; or an open LOSS record. -/
structure Placed where
  pos  : Nat
  len  : Nat
  seq  : Nat
  done : Bool
  hold : Bool
deriving DecidableEq, Repr

/-- The open loss of a ring (R380); `flags` are the header flags of its drops (R385). -/
structure Loss where
  pos    : Nat
  seq    : Nat
  count  : Nat
  first  : Nat
  last   : Nat
  causes : Nat
  flags  : Nat
deriving DecidableEq, Repr

/-- The last record of a run that has ended, with its credit, while staging is busy (R371): the stager it waits for, its
ring, reserved and used units, tag, type, header flags, time and body. -/
structure LateRecord where
  stager : Nat
  ring   : Nat
  cap    : Nat
  units  : Nat
  tag    : Nat
  typ    : Nat
  flags  : Nat
  time   : Nat
  body   : List Byte
deriving DecidableEq, Repr

/-- A producer that waits for credit (R378, R379): the end records of a burst, a sweep step, a window of an averager, a
time-interval window, or the COMPLETION of other work. -/
inductive Waiter
  | burstEnd (q : Nat)
  | sweepStep (first count : Nat)
  | measWindow (key : Nat)
  | lockWindow (key : Nat)
  | timWindow (u : Nat)
  | completion (tag : Nat)
deriving DecidableEq, Repr

/-- A ring's context (R376, R377). -/
structure RingCtx where
  /-- STATE; 2 bits; 12 R376; FREE C. -/
  state : RingState := .free
  /-- BASE, a byte address in the DRAM data space; 40 bits; 12 R376; 0 C. -/
  base : Nat := 0
  /-- SIZE_CODE; 5 bits; 12 R376; 0 C. -/
  sizeCode : Nat := 0
  /-- POLICY, true DROP; 1; 12 R376; STALL C. -/
  drop : Bool := false
  /-- NOTIFY_UNITS; 32 bits; 12 R384; 0 C. -/
  notifyUnits : Nat := 0
  /-- NOTIFY_US; 16 bits; 12 R384; 0 C. -/
  notifyUs : Nat := 0
  /-- NOTIFY_ARMED; 1; 12 R384; 0 C. -/
  armed : Bool := false
  /-- Chip time at which WR_POS first advanced while armed; 64 bits or none; 12 R384; none. -/
  advanced : Option Nat := none
  /-- SEQ; 32 bits; 12 R377; 0 C. -/
  seq : Nat := 0
  /-- PLACE_POS; 32 bits; 12 R377; 0 C. -/
  place : Nat := 0
  /-- WR_POS; 32 bits; 12 R377; 0 C. -/
  wr : Nat := 0
  /-- REL_POS; 32 bits; 12 R377; 0 C. -/
  rel : Nat := 0
  /-- RESERVED; 32 bits; 12 R378; 0 C. -/
  reserved : Nat := 0
  /-- Records placed and not yet passed by WR_POS, oldest first; list; 12 R375; empty. -/
  placed : List Placed := []
  /-- The open loss; 12 R380; none. -/
  loss : Option Loss := none
  /-- Producers that wait for credit, in the order they asked, with their units; list; 12 R378; empty. -/
  waiters : List (Waiter × Nat) := []
  /-- RING_DESTROY is draining the ring: no new reservation; 1; 12 R393; 0. -/
  closing : Bool := false
deriving DecidableEq, Repr

/-- A master's view of the release region (R382, R383). -/
structure RingPort where
  /-- RING_SEL; 16 bits; 12 R382; 0 C. -/
  sel : Nat := 0
  /-- Snapshot words 0x00_4002 to 0x00_400F; 14 words; 12 R382; 0 C. -/
  snap : List Word := []
  /-- Last words written to 0x00_4010 to 0x00_4012, with their chip times; 12 R383; none. -/
  post0 : Option (Word × Nat) := none
  post1 : Option (Word × Nat) := none
  post2 : Option (Word × Nat) := none
deriving DecidableEq, Repr

/-- A completion whose record waits for credit: its tag, status, DETAIL, SRC_KIND, SOURCE, hold cycles, header flags,
and the progress fields as they stood at the stop (R379). -/
structure PendingEnd where
  tag    : Nat
  ring   : Nat
  status : Nat
  detail : Nat
  kind   : Nat
  source : Nat
  flags  : Nat
  holds  : Nat
  state  : Nat
  cause  : Nat
  output : Nat
  steps  : Nat
  time   : Nat
deriving DecidableEq, Repr

/-- Harvest (12_harvest.md). -/
structure Harvest where
  /-- Stagers 0 to 16; 12 R368; each field's own. -/
  stager : Tab Stager := []
  /-- Rings 0 to 65535; 12 R376; each field's own. -/
  ring : Tab RingCtx := []
  /-- The host's release region; 12 R382; each field's own. -/
  hostPort : RingPort := {}
  /-- The shed's release region; 12 R382; each field's own. -/
  shedPort : RingPort := {}
  /-- Tags whose COMPLETION credit is reserved ahead (R379), with the ring; list; 12 R379; empty. -/
  credit : List (Nat × Nat) := []
  /-- Ended work whose COMPLETION record waits for credit; list; 12 R379; empty. -/
  ends : List PendingEnd := []
  /-- Last records of ended runs that wait for staging, oldest first; list; 12 R371; empty. -/
  late : List LateRecord := []
deriving DecidableEq, Repr

end Sys2Proof.Machine
end

