-- ==== Sys2Proof/Machine/State/Link.lean ====
section
/-! DEFINITION. State of the trellis ports and of chain synchronisation (spec/13).
Each field's comment reads: name; width; file and rule; reset value and class. -/

namespace Sys2Proof.Machine

/-- Where a port stands (R400): OFF, the steps of training, ACTIVE. -/
inductive PortStep | off | detect | lock | equalise | measure | active
deriving DecidableEq, Repr

/-- One class of a port (R403 to R408). -/
structure ClassState where
  /-- Messages queued to be sent, oldest first, as bytes, true those forwarded from the other port; list; 13 R405; empty. -/
  queue : List (Bool × List Byte) := []
  /-- Flits of the message in progress still to be sent: payloads of 26 bytes; list; 13 R404; empty. -/
  sending : List (List Byte) := []
  /-- The message in progress came in at the other port, to whose partner each flit sent returns a credit; 1; 13 R405; 0. -/
  sendingFwd : Bool := false
  /-- The next flit to send starts a message (SOM); 1; 13 R398; 1. -/
  atStart : Bool := true
  /-- FSEQ of the next DATA flit; 10 bits; 13 R407; 0. -/
  txSeq : Nat := 0
  /-- Flits sent since training, mod 2^16; 13 R405; 0. -/
  txSent : Nat := 0
  /-- CRD: flits the partner has freed since training, mod 2^16; 13 R406; 0. -/
  txFreed : Nat := 0
  /-- Replay buffer, oldest first: FSEQ and the 32 bytes; at most 512; 13 R407; empty. -/
  replay : List (Nat × List Byte) := []
  /-- Consecutive replays of the oldest unacknowledged flit; 5 bits; 13 R408; 0. -/
  replays : Nat := 0
  /-- Flits still to be resent of the replay in progress; list; 13 R407; empty. -/
  resend : List (List Byte) := []
  /-- Next FSEQ expected; 10 bits; 13 R407; 0. -/
  rxSeq : Nat := 0
  /-- A NAK is to be sent; 1; 13 R407; 0. -/
  nak : Bool := false
  /-- A NAK has been sent for the present loss; 1; 13 R407; 0. -/
  naked : Bool := false
  /-- Flits freed for the partner since training, mod 2^16; 13 R405; 0. -/
  rxFreed : Nat := 0
  /-- Credits withheld by perturbation; count; 17 R530; 0. -/
  withheld : Nat := 0
  /-- Bytes of the message partly received; list; 13 R404; empty. -/
  partMsg : List Byte := []
  /-- A message is partly received; 1; 13 R404; 0. -/
  inMsg : Bool := false
  /-- Deficit of the round-robin, in flits; 13 R404; 0. -/
  deficit : Nat := 0
  /-- The class has raised CREDIT_TIMEOUT and is still without credit; 1; 13 R405; 0. -/
  starved : Bool := false
deriving DecidableEq, Repr

/-- A trellis port (R396, R400). -/
structure LinkPort where
  /-- Training step; 13 R400; OFF C. -/
  step : PortStep := .off
  /-- PORT_STATUS.WIDTH; 3 bits; 13 R425; 0 C. -/
  width : Nat := 0
  /-- PORT_STATUS.LANES; 4 bits; 13 R425; 0 C. -/
  lanes : BitVec 4 := 0
  /-- PORT_STATUS.RETRAINS; 6 bits, saturating; 13 R425; 0 C. -/
  retrains : Nat := 0
  /-- Lanes with signal; 4 bits; 13 R400; 0. -/
  signal : BitVec 4 := 0
  /-- A training step has failed: chip time at which DETECT starts again; 64 bits or none; 13 R400; none. -/
  retry : Option Nat := none
  /-- The port has been ACTIVE since the last reset; 1; 13 R402; 0. -/
  wasActive : Bool := false
  /-- Classes 0 to 3; 13 R403; each field's own. -/
  cls : Tab ClassState := []
  /-- RESET_REQ is to be sent; 1; 13 R402; 0. -/
  resetReq : Bool := false
  /-- A link-port reset of the port is in progress, up to its next ACTIVE; 1; 02 R36, 13 R402; 0. -/
  retrain : Bool := false
  /-- Acknowledgements or credits wait for a LINK_CTRL; 1; 13 R404; 0. -/
  ctrlWaits : Bool := false
  /-- They have waited 64 slots or 200 ns: a LINK_CTRL is due; 1; 13 R404; 0. -/
  ctrlDue : Bool := false
  /-- A DELAY_RSP is to be sent; 1; 13 R421; 0. -/
  delayRsp : Bool := false
  /-- The flit last put on the lanes; 32 bytes; 13 R398; none. -/
  wire : List Byte := []
  /-- Start of the next flit slot in quarter ticks; 66 bits; 13 R399; 0. -/
  slot : Nat := 0
  /-- Eye per lane at the last training (mUI, mV); list; 13 R401; empty. -/
  eyes : List (Nat × Nat) := []
deriving DecidableEq, Repr

/-- A SYNC_MARK whose local sync has not fired (R422): F in fine steps and EPOCH. -/
structure PendingSync where
  f     : Nat
  epoch : Nat
deriving DecidableEq, Repr

/-- The trellis and chain synchronisation (13_trellis_link.md). -/
structure Trellis where
  /-- LINK0 (0) and LINK1 (1); 13 R396; each field's own. -/
  port : Tab LinkPort := []
  /-- CHAIN_ADDR.ADDR; 7 bits; 13 R425; 0x7D C. -/
  addr : Nat := 0x7D
  /-- CHAIN_ADDR.VALID; 1; 13 R425; 0 C. -/
  addrValid : Bool := false
  /-- CHAIN_ADDR.NEIGHBOUR; 7 bits; 13 R425; 0x7D C. -/
  neighbour : Nat := 0x7D
  /-- MCAST_MEMBER; 8 bits; 13 R425; 0 C. -/
  mcast : BitVec 8 := 0
  /-- SYNC_VALID; 1; 13 R424; 0 C. -/
  syncValid : Bool := false
  /-- SLEWING: φ still to be slewed; 1; 13 R423; 0 C. -/
  slewing : Bool := false
  /-- The pending local sync; 13 R422; none C. -/
  pendingSync : Option PendingSync := none
  /-- Chip time of the last local sync, by the new time; 64 bits or none; 13 R424; none. -/
  lastSync : Option Nat := none
  /-- LATE; 1; 13 R425; 0 C. -/
  late : Bool := false
  /-- SLIP; 1; 13 R425; 0 C. -/
  slip : Bool := false
  /-- IGNORED; 1; 13 R425; 0 C. -/
  ignored : Bool := false
  /-- LAST_PHASE; 8 bits signed; 13 R425; 0 C. -/
  lastPhase : Int := 0
  /-- SYNC_COUNT; 16 bits, saturating; 13 R425; 0 C. -/
  syncCount : Nat := 0
  /-- LAST_STEP; 32 bits signed; 13 R425; 0 C. -/
  lastStep : Int := 0
  /-- SYNC_EPOCH; 64 bits; 03 R66; 0 P. -/
  syncEpoch : Nat := 0
  /-- Mean one-way delay found at training; 32 bits; 13 R421; 0 C. -/
  trainDelay : Nat := 0
  /-- One-way delays of the exchanges since training, newest first, at most 4096; list; 13 R421; empty C. -/
  delays : List Int := []
  /-- Departure of the DELAY_REQ not yet answered; fine steps or none; 13 R421; none. -/
  delayReq : Option Nat := none
  /-- SYNC_OFFSET; 32 bits signed; 13 R425; 0 C. -/
  syncOffset : Int := 0
  /-- Messages consumed whose effect is due, oldest first, as bytes; list; 13 R411; empty. -/
  inbox : List (List Byte) := []
  /-- MTAG counter of part-originated messages; 16 bits; 13 R412; 0 (DESIGN CHOICE 13). -/
  mtag : Word := 0
deriving DecidableEq, Repr

end Sys2Proof.Machine
end

