-- ==== Sys2Proof/Machine/State/Serial.lean ====
section
/-! DEFINITION. State of the serial ports (spec/14), of supervision (spec/15) and of calibration and the keep store
(spec/16). Each field's comment reads: name; width; file and rule; reset value and class. -/

namespace Sys2Proof.Machine

/-- A frame to a stage (R437): command, address, out payload words. -/
structure StageFrame where
  cmd     : Nat
  addr    : Nat
  payload : List Word
deriving DecidableEq, Repr

/-- What the firmware does on the stage bus for a command in EXECUTING (R449, R450). -/
inductive StageJob
  /-- ATTACH: its request words 2 to 5, the frames done, and the bad replies met. -/
  | attach (mode period telemDiv ring : Nat) (sent : Nat)
  /-- DETACH: a DISABLE frame is on its way. -/
  | detach
  /-- WRITE: the register address and data, and tries made; the reply to its frame is awaited. -/
  | write (addr : Nat) (data : List Word) (tries : Nat) (sent : Nat)
  /-- READ: address, count, bad replies met, frames sent. -/
  | read (addr count : Nat) (bad : Nat) (sent : Nat)
deriving DecidableEq, Repr

/-- Credit of the stage's next STAGE_TELEMETRY record (R379, R445). -/
inductive TelemCredit
  /-- Not asked for yet. -/
  | unasked
  /-- Reserved at the exchange. -/
  | held
  /-- Refused under STALL: the record will not be generated and counts in TELEM_LOST. -/
  | missed
  /-- Refused under DROP: the drop has been counted. -/
  | dropped
deriving DecidableEq, Repr

/-- A stage on SP1 (R437 to R445). -/
structure StageState where
  /-- Attached; 1; 14 R450; 0 C. -/
  attached : Bool := false
  /-- Lost; 1; 14 R441; 0 C. -/
  lost : Bool := false
  /-- MODEWORD of the ATTACH; 16 bits; 14 R449; 0 C. -/
  modeword : Nat := 0
  /-- PERIOD in 50 µs units; 8 bits; 14 R444; 0 C. -/
  period : Nat := 0
  /-- Slot offset in ticks; 14 R444; 0 C. -/
  offset : Nat := 0
  /-- TELEM_DIV; 16 bits; 14 R449; 0 C. -/
  telemDiv : Nat := 0
  /-- Telemetry ring; 16 bits; 14 R449; 0 C. -/
  ring : Nat := 0
  /-- Identity block, registers 0x0000 to 0x000F as read; 16 words; 14 R443; 0 C. -/
  ident : List Word := []
  /-- Kreif's ALIVE count for the stage; 4 bits; 14 R437; 0. -/
  alive : Nat := 0
  /-- The stage's last good ALIVE, none before its first reply; 4 bits; 14 R440; none. -/
  stageAlive : Option Nat := none
  /-- ENABLED, STAGE_FAULT, OVERTEMP and LAW of the last good reply; 5 bits; 14 R437; 0. -/
  enabled : Bool := false
  stageFault : Bool := false
  overtemp : Bool := false
  law : Nat := 0
  /-- Consecutive bad replies; 2 bits; 14 R440; 0. -/
  bad : Nat := 0
  /-- Bad replies since ATTACH; 32 bits; 14 R450; 0. -/
  badTotal : Nat := 0
  /-- BAD_PREV replies since ATTACH; 32 bits; 14 R450; 0. -/
  badPrev : Nat := 0
  /-- TELEM_LOST; 32 bits; 14 R445; 0. -/
  telemLost : Nat := 0
  /-- Frames aborted for this stage; 32 bits; 14 R450; 0. -/
  aborted : Nat := 0
  /-- The next BAD_PREV is the echo of an aborted frame and is not counted (R446); 1; 14 R446; 0. -/
  forgive : Bool := false
  /-- Good replies since the last telemetry record; 16 bits; 14 R445; 0. -/
  telemCount : Nat := 0
  /-- Frame in flight, none between frames; 14 R437; none. -/
  frame : Option StageFrame := none
  /-- The frame before it, whose reply the frame in flight carries; 14 R437; none. -/
  prev : Option StageFrame := none
  /-- A WRITE or DISABLE to send once more (R440); 14 R440; none. -/
  resend : Option StageFrame := none
  /-- Chip time at which its last cyclic exchange was due; 64 bits or none; 14 R444; none. -/
  lastDue : Option Nat := none
  /-- DISABLE is the stage's next exchange (R446); 1; 14 R446; 0. -/
  disable : Bool := false
  /-- Telemetry words of the last good reply; list; 14 R445; empty. -/
  telem : List Word := []
  /-- Credit of the next telemetry record; 4 states; 12 R379, 14 R445; unasked. -/
  telemCredit : TelemCredit := .unasked
  /-- Out words of the last frame sent, trailer included; N words; 14 R437; empty. -/
  out : List Word := []
  /-- Perturbed replies whose values wait (R530), oldest first; list; 17 R530; empty. -/
  delayed : List (List Word) := []
deriving DecidableEq, Repr

/-- A flash operation of the firmware (R436). -/
inductive FlashOp
  /-- Erase a 4 KiB sector at this byte address. -/
  | erase (addr : Nat)
  /-- Program these bytes from this byte address, within a 256-byte page. -/
  | program (addr : Nat) (bytes : List Byte)
deriving DecidableEq, Repr

/-- The serial ports (14_serial_ports.md). -/
structure Serial where
  /-- Stages 0 to 15; 14 R437; each field's own. -/
  stage : Tab StageState := []
  /-- Stages whose cyclic exchange is due and waits for the bus, oldest first; list; 14 R444; empty. -/
  cyclicWaits : List Nat := []
  /-- The firmware's work on the bus, and its stage; 14 R449; none. -/
  job : Option (Nat × StageJob) := none
  /-- SP0 read format; 6 formats; 14 R434; 1-1-1. -/
  format : FlashFmt := .f111
  /-- SP0 SCK in MHz (12 stands for 12.5); 14 R434; 12. -/
  sck : Nat := 12
  /-- SP0 SAMPLE_DELAY; 3 bits; 14 R429; 0. -/
  sampleDelay : Nat := 0
  /-- Flash erase and program operations queued, the first in progress; list; 14 R436; empty. -/
  flashOps : List FlashOp := []
  /-- SP0 recovers from a block reset or runs a frame: fetches wait; 1; 14 R435; 0. -/
  sp0Busy : Bool := false
  /-- Frames abandoned on SP0; 32 bits; 14 R431; 0. -/
  sp0Aborts : Nat := 0
  /-- Lines of the 64 KiB line cache, by window offset / 64, oldest first; list; 14 R435; empty. -/
  xipLines : List Nat := []
  /-- The line the last execute-in-place fetch returned; 64 bytes; 14 R435; empty. -/
  xipData : List Byte := []
  /-- An execute-in-place fetch waits, at this window offset; 14 R435; none. -/
  xipWait : Option Nat := none
  /-- Boot flash, byte addressed; 04 R104; unwritten bytes read 0xFF (erased NOR, R107); non-volatile. -/
  flash : Tab Byte := []
deriving DecidableEq, Repr

/-- An on-die temperature sensor (R451, R462). -/
structure Sensor where
  /-- Last valid reading in 0.0625 °C; 16 bits signed; 15 R452; 0. -/
  value : Int := 0
  /-- Sampled since reset; 1; 15 R476; 0 C. -/
  sampled : Bool := false
  /-- Suspect; 1; 15 R462; 0 C. -/
  suspect : Bool := false
  /-- Broken; 1; 15 R462; 0 C. -/
  broken : Bool := false
  /-- Consecutive failing samples; 15 R462; 0. -/
  fails : Nat := 0
  /-- Consecutive passing samples while suspect or broken; 15 R462; 0. -/
  passes : Nat := 0
  /-- Readings of the rate window, newest first, at most 64; list; 15 R459; empty. -/
  window : List Int := []
  /-- The rate is at or above its limit; 1; 15 R459; 0. -/
  rising : Bool := false
deriving DecidableEq, Repr

/-- A thermistor input (R465). Thresholds and coefficients are binary32 patterns. -/
structure Therm where
  /-- ENABLE; 1; 15 R465; 0 K. -/
  enable : Bool := false
  /-- BIAS, true 100 kΩ; 1; 15 R465; 0 K. -/
  bias : Bool := false
  /-- A; binary32; 15 R465; 0 K (DESIGN CHOICE 14). -/
  a : BitVec 32 := 0
  /-- B; binary32; 15 R465; 0 K (DESIGN CHOICE 14). -/
  b : BitVec 32 := 0
  /-- C; binary32; 15 R465; 0 K (DESIGN CHOICE 14). -/
  c : BitVec 32 := 0
  /-- CLOCHE threshold; binary32; 15 R465; 85 °C K. -/
  cloche : BitVec 32 := 0x42AA0000
  /-- TH_ROR limit; binary32; 15 R459; 1 °C/s K. -/
  ror : BitVec 32 := 0x3F800000
  /-- Last valid reading; binary32; 15 R452; 0. -/
  value : BitVec 32 := 0
  /-- Sampled since reset; 1; 15 R476; 0 C. -/
  sampled : Bool := false
  /-- Suspect; 1; 15 R462; 0 C. -/
  suspect : Bool := false
  /-- TH_BROKEN; 1; 15 R462; 0 C. -/
  broken : Bool := false
  /-- STALE; 1; 15 R453; 0 C. -/
  stale : Bool := false
  /-- Consecutive failing readings; 15 R462; 0. -/
  fails : Nat := 0
  /-- Consecutive passing readings; 15 R462; 0. -/
  passes : Nat := 0
  /-- Readings of the rate window, newest first, at most 12; binary32 patterns; 15 R459; empty. -/
  window : List (BitVec 32) := []
  /-- The rate is at or above its limit; 1; 15 R459; 0. -/
  rising : Bool := false
deriving DecidableEq, Repr

/-- Dwell of a level (R456). -/
structure Level where
  /-- Held; 1; 15 R456; 0 C. -/
  held : Bool := false
  /-- Consecutive samples at or above the threshold; 15 R456; 0 C. -/
  up : Nat := 0
  /-- Consecutive samples below the exit; 15 R456; 0 C. -/
  down : Nat := 0
deriving DecidableEq, Repr

/-- A thermal zone (R455, R460, R461). Thresholds are binary32 patterns. -/
structure ZoneState where
  /-- WARN; binary32; 15 R455; 130 °C K. -/
  warn : BitVec 32 := 0x43020000
  /-- THROTTLE; binary32; 15 R455; 140 °C K. -/
  throttle : BitVec 32 := 0x430C0000
  /-- CLOCHE; binary32; 15 R455; 150 °C K. -/
  cloche : BitVec 32 := 0x43160000
  /-- SHUTDOWN; binary32; 15 R455; 160 °C K. -/
  shutdown : BitVec 32 := 0x43200000
  /-- HYST; binary32; 15 R455; 5 °C K. -/
  hyst : BitVec 32 := 0x40A00000
  /-- STEP; binary32; 15 R455; 3 °C K. -/
  step : BitVec 32 := 0x40400000
  /-- DIE_ROR; binary32; 15 R459; 25 °C/s K. -/
  ror : BitVec 32 := 0x41C80000
  /-- GRACE_MS; 16 bits; 15 R461; 100 K. -/
  graceMs : Nat := 100
  /-- End of the grace of T1, T2, T3, by chip time; running while none has ended; 15 R461; none C. -/
  grace1 : Option Nat := none
  grace2 : Option Nat := none
  grace3 : Option Nat := none
  /-- Grace of T1, T2, T3 ended; 3 bits; 15 R461; 0 C. -/
  ended1 : Bool := false
  ended2 : Bool := false
  ended3 : Bool := false
  /-- Chip time of the last change of the throttle level; 64 bits; 15 R460; 0 C. -/
  changed : Nat := 0
  /-- THROTTLE_ACK has acknowledged the present level; 1; 15 R460; 1 C (no message before a change). -/
  acked : Bool := true
  /-- WARN_STATUS; 1; 15 R476; 0 C. -/
  warnSticky : Bool := false
deriving DecidableEq, Repr

/-- A rail index (R469), thresholds in binary32 volts; none stands for 92 % or 108 % of nominal. -/
structure Rail where
  /-- UV; binary32; 15 R469; 92 % of nominal K. -/
  uv : Option (BitVec 32) := none
  /-- OV; binary32; 15 R469; 108 % of nominal K. -/
  ov : Option (BitVec 32) := none
deriving DecidableEq, Repr

/-- Reading and dwell of a rail, per die for indices 14 and 15 (R469). -/
structure RailRead where
  /-- Reading in mV; 16 bits signed; 15 R476; 0 C. -/
  mv : Int := 0
  /-- UV level; 15 R469; each field's own. -/
  low : Level := {}
  /-- OV level; 15 R469; each field's own. -/
  high : Level := {}
deriving DecidableEq, Repr

/-- A heavy loop's charge window (R467, R468), limits in binary32 °C. -/
structure ChargeWin where
  /-- SOURCE: 0 to 15, 0xFE, 0xFF; 16 bits; 15 R467; 0xFF K. -/
  source : Nat := 0xFF
  /-- LOW; binary32; 15 R468; 0 °C K. -/
  low : BitVec 32 := 0
  /-- HIGH; binary32; 15 R468; 45 °C K. -/
  high : BitVec 32 := 0x42340000
  /-- WIN_HYST; binary32; 15 R468; 1.0 °C K. -/
  hyst : BitVec 32 := 0x3F800000
  /-- CHARGE_OUT; 1; 15 R476; 0 C. -/
  out : Bool := false
  /-- Consecutive readings outside; 15 R468; 0. -/
  outCount : Nat := 0
  /-- Consecutive valid readings inside; 15 R468; 0. -/
  inCount : Nat := 0
deriving DecidableEq, Repr

/-- Supervision (15_thermal_supervision.md). -/
structure Supervision where
  /-- On-die sensors 0 to 47; 15 R451; each field's own. -/
  sensor : Tab Sensor := []
  /-- Thermistor inputs 0 to 15; 15 R465; each field's own. -/
  therm : Tab Therm := []
  /-- Zones Z0 to Z4; 15 R455; each field's own. -/
  zone : Tab ZoneState := []
  /-- Levels: WARN z 8 + z; T1 to T3 16 + 4z + n; CLOCHE of a bed group 64 + b, of Z0 80, of TH(n) 96 + n; SHUTDOWN 112; 15 R456; each field's own. -/
  level : Tab Level := []
  /-- Rail thresholds, index 0 to 15; 15 R469; each field's own. -/
  rail : Tab Rail := []
  /-- Rail readings, key 4 x index + die; 15 R469; each field's own. -/
  railRead : Tab RailRead := []
  /-- Process monitors PM0 to PM4; 16 bits; 15 R476; 0 C. -/
  pm : Tab Word := []
  /-- Charge windows of H00 to H31; 15 R467; each field's own. -/
  charge : Tab ChargeWin := []
  /-- Keep-store write window open; 1; 15 R470, R476; 0 C: it opens after 64 samples inside (DESIGN CHOICE 15). -/
  keepOpen : Bool := false
  /-- Consecutive samples outside and inside the keep-store limits; 15 R470; 0. -/
  keepOut : Nat := 0
  keepIn : Nat := 0
  /-- Shutdown latch; 1; 15 R471; 0 A. -/
  shutdown : Bool := false
  /-- CAUSE of the shutdown (R474 word 5); 16 bits; 15 R474; 0. -/
  shutCause : Nat := 0
  /-- Chip time of step 1 of R471; 64 bits; 15 R471; 0. -/
  shutTime : Nat := 0
  /-- Reading that caused it; 16 bits signed; 15 R474; 0. -/
  shutTemp : Int := 0
  /-- The trip-log slot claimed and not yet completed; 15 R471; none. -/
  tripOpen : Option Nat := none
  /-- Row-die analogue powered down; 1; 15 R471; 0. -/
  analogueOff : Bool := false
  /-- Shed clock reduced to 50 MHz; 1; 15 R471; 0. -/
  shedSlow : Bool := false
  /-- Consecutive samples for the shutdown exit condition; 16 bits; 15 R473; 0 C. -/
  exitCount : Nat := 0
  /-- Shutdown exit condition met (SUPV_STATUS bit 1); 1; 15 R473; 0 C. -/
  exitOk : Bool := false
  /-- After a clear, pads connect only after a full read-back round (R473); 1; 15 R473; 0. -/
  reconnect : Bool := false
  /-- Trip log, key 16 x slot + word, one-time-programmable; 15 R474; 0x0000 non-volatile. -/
  tripLog : Tab Word := []
deriving DecidableEq, Repr

/-- A calibration run in progress (R481 to R489). -/
structure CalRun where
  tag     : Nat
  ring    : Nat
  kind    : Nat
  /-- Scopes of the mask: beds, units or heavy loops. -/
  scopes  : List Nat
  dry     : Bool
  refv    : BitVec 32
  tolPpm  : Nat
  /-- It has been told to end at the end of the current pass (ABORT). -/
  aborting : Bool
deriving DecidableEq, Repr

/-- A commit in progress (R496). -/
structure CalCommit where
  tag  : Nat
  ring : Nat
  slotB : Bool
  gen  : Nat
  /-- A sector past its wear limit was met (R493). -/
  wear : Bool
deriving DecidableEq, Repr

/-- One step of a keep-store write (R493, R500, R506). -/
inductive KeepStep
  | erase (sector : Nat)
  | program (addr : Nat) (bytes : List Byte)
deriving DecidableEq, Repr

/-- A keep-store write in progress: area (0 user, 2 seed), steps still to do, new generation of a seed commit. -/
structure KeepOp where
  area  : Nat
  steps : List KeepStep
  gen   : Nat
deriving DecidableEq, Repr

/-- Figures of a scope (R487): first, second and repeat figure in 0.001 of their unit. -/
structure Quality where
  first  : Nat := 0
  second : Nat := 0
  rep    : Nat := 0
deriving DecidableEq, Repr

/-- Calibration and the keep store (16_calibration_keep_store.md). -/
structure Calibration where
  /-- Keep store, byte addressed, 2 MiB; 16 R492; erased bytes read 0xFF (R493); non-volatile. -/
  keep : Tab Byte := []
  /-- Erases per 4 KiB sector; 16 R493; 0 non-volatile. -/
  wear : Tab Nat := []
  /-- Body bytes of the calibration image in use; 16 R495; slot, or the factory image (DESIGN CHOICE 16: gain 1, offset 0) C. -/
  body : Tab Byte := []
  /-- Source of the image in use: 1 slot A, 2 slot B, 3 factory; 16 R505; slot C. -/
  source : Nat := 3
  /-- Generation of the image in use; 32 bits; 16 R495; slot C. -/
  sourceGen : Nat := 0
  /-- MODIFIED; 1; 16 R505; 0 C. -/
  modified : Bool := false
  /-- Calibration run in progress; 16 R482; none. -/
  run : Option CalRun := none
  /-- Commit in progress; 16 R496; none. -/
  commit : Option CalCommit := none
  /-- Keep-store write in progress; 16 R494; none. -/
  op : Option KeepOp := none
  /-- Figures of the last run per kind and index, key 1024 x kind + index; 16 R487; none C. -/
  quality : Tab Quality := []
  /-- Kinds and indices whose figures come from a run, key as above; 16 R505; none C. -/
  measured : Tab Bool := []
  /-- Seed staging image, 32 KiB, none when not open; 16 R500; none W. -/
  staging : Option (Tab Byte) := none
  /-- Seed copy used at the last boot: 0 factory values, 1 copy A, 2 copy B; 16 R505; 0 C. -/
  seedUsed : Nat := 0
  /-- SEED_FALLBACK; 1; 03 R71 CHIP_STATUS; 0 C. -/
  seedFallback : Bool := false
deriving DecidableEq, Repr

end Sys2Proof.Machine
end

