-- ==== Sys2Proof/Machine/State.lean ====
section
/-! DEFINITION. The state of the block: what every chapter gives it, the queue of commands that wait, and the counter
that the free values are taken from. `State.reset` is the part in the moment the power-on reset releases (R32 time 0),
every register at the value its table gives. Stops: `Fault` and `Refusal`. -/

namespace Sys2Proof.Machine

/-- Reasons a step can fault. No command of the block faults: the spec gives every access of the register space, every
message and every command an effect (a reserved address reads 0x0000, R52), so the one constructor is raised by nobody;
it stands because the host's interface asks for the type. Safe. -/
inductive Fault
  /-- Raised by nobody. Safe. -/
  | none
deriving DecidableEq, Repr

/-- Reasons a step can be refused. -/
inductive Refusal
  /-- A row without a meaning: raised by an arm of `exec` only. Safe. -/
  | notModelled (mnemonic : String)
  /-- FIRMWARE_PICK under command-set revision 2: the spec gives the revision no meaning ("Behaviour under any other
  release or revision is outside this manual", R1). Safe: the hardware goes on. -/
  | revisionOutsideManual (rev : Nat)
deriving DecidableEq, Repr

/-- The state of the block. -/
structure State where
  /-- Commands waiting, first in, first out; the host's interface; empty at reset. -/
  pending : List Instr := []
  /-- The model's own counter from which free values are taken (DESIGN CHOICE 1); not the spec's; 0 at reset. -/
  free : Nat := 0
  /-- Clocks, resets and power states (spec/02). -/
  clk : Clock := {}
  /-- Register bus and chip control (spec/03). -/
  bus : Bus := {}
  /-- Mailboxes MB0 to MB7 (spec/04). -/
  mb : Tab Mailbox := []
  /-- Firmware (spec/04). -/
  fw : Firmware := {}
  /-- Beds and pin channels (spec/05). -/
  pins : Pins := {}
  /-- Edge timing (spec/06). -/
  edge : Edges := {}
  /-- Pattern sequencing (spec/07). -/
  pat : Pattern := {}
  /-- Loops and loop engines (spec/08, spec/09). -/
  lp : Loops := {}
  /-- Measurement and time-interval units (spec/10, spec/11). -/
  meas : Measure := {}
  /-- Harvest (spec/12). -/
  harv : Harvest := {}
  /-- Trellis (spec/13). -/
  link : Trellis := {}
  /-- Serial ports (spec/14). -/
  ser : Serial := {}
  /-- Supervision (spec/15). -/
  sup : Supervision := {}
  /-- Calibration and keep store (spec/16). -/
  cal : Calibration := {}
  /-- Faults, cloche, perturbation (spec/17). -/
  flt : Faults := {}
deriving DecidableEq, Repr

/-- The part as the power-on reset releases (R32, time 0): every register at the value of its Reset column, the queue
empty, every non-volatile store as delivered (erased, unprogrammed: DESIGN CHOICE 4). -/
def State.reset : State := {}

end Sys2Proof.Machine
end

