-- ==== Sys2Proof/Machine/Ops.lean ====
section
/-! DEFINITION. The named operations over the state: for every table of the state its read and its update, the fault
detection that every engine calls (R509), free values, and the perturbation windows. -/

namespace Sys2Proof.Machine

/-- The power-up codes of R138: 0 V on every DAC, the nearest code of the DAC's range (R115): VIH, VIL and VTT −2.0 V
to +7.0 V, VOH, VOL, VCH and VCL −2.5 V to +7.5 V. -/
def dacZero (k : Nat) : Nat :=
  if k < 2048 then (if k % 4 < 2 then 14563 else 16384)
  else if (k - 2048) % 3 = 0 then 14563 else 16384

/-- A DAC at its power-up code. -/
def dacDefault (k : Nat) : Dac := { work := dacZero k, cloche := dacZero k }

/-- Mailbox MBn (R76). -/
def State.mbx (s : State) (k : Nat) : Mailbox := tget (fun _ => {}) s.mb k
def State.modMbx (s : State) (k : Nat) (f : Mailbox → Mailbox) : State :=
  { s with mb := tmod (fun _ => {}) s.mb k f }

/-- Progress entry of a tag (R92). -/
def State.prog (s : State) (k : Nat) : Progress := tget (fun _ => {}) s.fw.progress k
def State.modProg (s : State) (k : Nat) (f : Progress → Progress) : State :=
  { s with fw := { s.fw with progress := tmod (fun _ => {}) s.fw.progress k f } }

/-- Fault block k (R508). -/
def State.fblk (s : State) (k : Nat) : FaultBlock := tget (fun _ => {}) s.flt.block k
def State.modFblk (s : State) (k : Nat) (f : FaultBlock → FaultBlock) : State :=
  { s with flt := { s.flt with block := tmod (fun _ => {}) s.flt.block k f } }

/-- Cloche registers of bed b (R521). -/
def State.bedc (s : State) (k : Nat) : BedCloche := tget (fun _ => {}) s.flt.bed k
def State.modBedc (s : State) (k : Nat) (f : BedCloche → BedCloche) : State :=
  { s with flt := { s.flt with bed := tmod (fun _ => {}) s.flt.bed k f } }

/-- Loop-scope causes of heavy loop h (R521). -/
def State.loopc (s : State) (k : Nat) : (List Cause) := tget (fun _ => []) s.flt.loop k
def State.modLoopc (s : State) (k : Nat) (f : (List Cause) → (List Cause)) : State :=
  { s with flt := { s.flt with loop := tmod (fun _ => []) s.flt.loop k f } }

/-- Perturbation entry e (R529). -/
def State.pert (s : State) (k : Nat) : Perturb := tget (fun _ => {}) s.flt.entry k
def State.modPert (s : State) (k : Nat) (f : Perturb → Perturb) : State :=
  { s with flt := { s.flt with entry := tmod (fun _ => {}) s.flt.entry k f } }

/-- Power state of bed b (R42). -/
def State.bedPow (s : State) (k : Nat) : BedPower := tget (fun _ => .active) s.clk.bedPower k
def State.modBedPow (s : State) (k : Nat) (f : BedPower → BedPower) : State :=
  { s with clk := { s.clk with bedPower := tmod (fun _ => .active) s.clk.bedPower k f } }

/-- Bed b is in its STANDBY exit (R46). -/
def State.stbyExit (s : State) (k : Nat) : Bool := tget (fun _ => false) s.clk.standbyExit k
def State.modStbyExit (s : State) (k : Nat) (f : Bool → Bool) : State :=
  { s with clk := { s.clk with standbyExit := tmod (fun _ => false) s.clk.standbyExit k f } }

/-- The block reset of block k is in progress (R41). -/
def State.blkReset (s : State) (k : Nat) : Bool := tget (fun _ => false) s.clk.blockResetting k
def State.modBlkReset (s : State) (k : Nat) (f : Bool → Bool) : State :=
  { s with clk := { s.clk with blockResetting := tmod (fun _ => false) s.clk.blockResetting k f } }

/-- Pin channel p (R112). -/
def State.pinst (s : State) (k : Nat) : PinState := tget (fun _ => {}) s.pins.pin k
def State.modPinst (s : State) (k : Nat) (f : PinState → PinState) : State :=
  { s with pins := { s.pins with pin := tmod (fun _ => {}) s.pins.pin k f } }

/-- Level DAC 4p + k or bed DAC 2048 + 3b + k (R112). -/
def State.dacst (s : State) (k : Nat) : Dac := tget (dacDefault) s.pins.dac k
def State.modDacst (s : State) (k : Nat) (f : Dac → Dac) : State :=
  { s with pins := { s.pins with dac := tmod (dacDefault) s.pins.dac k f } }

/-- Load group g (R129). -/
def State.grp (s : State) (k : Nat) : LoadGroup := tget (fun _ => {}) s.pins.group k
def State.modGrp (s : State) (k : Nat) (f : LoadGroup → LoadGroup) : State :=
  { s with pins := { s.pins with group := tmod (fun _ => {}) s.pins.group k f } }

/-- Monitor converter of bed b (R134). -/
def State.mon (s : State) (k : Nat) : Monitors := tget (fun _ => {}) s.pins.monitor k
def State.modMon (s : State) (k : Nat) (f : Monitors → Monitors) : State :=
  { s with pins := { s.pins with monitor := tmod (fun _ => {}) s.pins.monitor k f } }

/-- Timing set 64b + n (R155). -/
def State.tsetAt (s : State) (k : Nat) : TSet := tget (fun _ => {}) s.edge.tset k
def State.modTsetAt (s : State) (k : Nat) (f : TSet → TSet) : State :=
  { s with edge := { s.edge with tset := tmod (fun _ => {}) s.edge.tset k f } }

/-- The delay-locked loop of bed b is locked (R154). -/
def State.tdll (s : State) (k : Nat) : Bool := tget (fun _ => false) s.edge.tdll k
def State.modTdll (s : State) (k : Nat) (f : Bool → Bool) : State :=
  { s with edge := { s.edge with tdll := tmod (fun _ => false) s.edge.tdll k f } }

/-- M_bed of bed b (R166). -/
def State.drift (s : State) (k : Nat) : Int := tget (fun _ => 0) s.edge.drift k
def State.modDrift (s : State) (k : Nat) (f : Int → Int) : State :=
  { s with edge := { s.edge with drift := tmod (fun _ => 0) s.edge.drift k f } }

/-- Bed time base of bed b less chip time, fine steps (R153, R169). -/
def State.base (s : State) (k : Nat) : Int := tget (fun _ => 0) s.edge.base k
def State.modBase (s : State) (k : Nat) (f : Int → Int) : State :=
  { s with edge := { s.edge with base := tmod (fun _ => 0) s.edge.base k f } }

/-- The last sample of bed b lay beyond the band (R167). -/
def State.stale (s : State) (k : Nat) : Bool := tget (fun _ => false) s.edge.stale k
def State.modStale (s : State) (k : Nat) (f : Bool → Bool) : State :=
  { s with edge := { s.edge with stale := tmod (fun _ => false) s.edge.stale k f } }

/-- DUT clock generator 4b + n (R171). -/
def State.ckgen (s : State) (k : Nat) : ClockGen := tget (fun _ => {}) s.edge.clock k
def State.modCkgen (s : State) (k : Nat) (f : ClockGen → ClockGen) : State :=
  { s with edge := { s.edge with clock := tmod (fun _ => {}) s.edge.clock k f } }

/-- A pin on the clocks of its bed (R173). -/
def State.pinck (s : State) (k : Nat) : PinClock := tget (fun _ => {}) s.edge.pinClock k
def State.modPinck (s : State) (k : Nat) (f : PinClock → PinClock) : State :=
  { s with edge := { s.edge with pinClock := tmod (fun _ => {}) s.edge.pinClock k f } }

/-- The slices of pin p (R153). -/
def State.slices (s : State) (k : Nat) : PinEdges := tget (fun _ => {}) s.edge.slice k
def State.modSlices (s : State) (k : Nat) (f : PinEdges → PinEdges) : State :=
  { s with edge := { s.edge with slice := tmod (fun _ => {}) s.edge.slice k f } }

/-- Sequencer q (R183). -/
def State.seq (s : State) (k : Nat) : SeqState := tget (fun _ => {}) s.pat.seq k
def State.modSeq (s : State) (k : Nat) (f : SeqState → SeqState) : State :=
  { s with pat := { s.pat with seq := tmod (fun _ => {}) s.pat.seq k f } }

/-- Segment g (R184). -/
def State.segm (s : State) (k : Nat) : Segment := tget (fun _ => {}) s.pat.segment k
def State.modSegm (s : State) (k : Nat) (f : Segment → Segment) : State :=
  { s with pat := { s.pat with segment := tmod (fun _ => {}) s.pat.segment k f } }

/-- Stream n (R194). -/
def State.strm (s : State) (k : Nat) : Stream := tget (fun _ => {}) s.pat.stream k
def State.modStrm (s : State) (k : Nat) (f : Stream → Stream) : State :=
  { s with pat := { s.pat with stream := tmod (fun _ => {}) s.pat.stream k f } }

/-- Trigger output n (R211). -/
def State.trig (s : State) (k : Nat) : Trig := tget (fun _ => {}) s.pat.trig k
def State.modTrig (s : State) (k : Nat) (f : Trig → Trig) : State :=
  { s with pat := { s.pat with trig := tmod (fun _ => {}) s.pat.trig k f } }

/-- Trigger input n (R211). -/
def State.tin (s : State) (k : Nat) : Tin := tget (fun _ => {}) s.pat.tin k
def State.modTin (s : State) (k : Nat) (f : Tin → Tin) : State :=
  { s with pat := { s.pat with tin := tmod (fun _ => {}) s.pat.tin k f } }

/-- DRAM byte (R205). -/
def State.dramByte (s : State) (k : Nat) : Byte := tget (fun _ => 0) s.pat.dram k
def State.modDramByte (s : State) (k : Nat) (f : Byte → Byte) : State :=
  { s with pat := { s.pat with dram := tmod (fun _ => 0) s.pat.dram k f } }

/-- Loop l (R230). -/
def State.loop (s : State) (k : Nat) : LoopState := tget (fun _ => {}) s.lp.loop k
def State.modLoop (s : State) (k : Nat) (f : LoopState → LoopState) : State :=
  { s with lp := { s.lp with loop := tmod (fun _ => {}) s.lp.loop k f } }

/-- Gain point 1024b + 32t + i (R283). -/
def State.gainPt (s : State) (k : Nat) : Nat := tget (fun _ => 16384) s.lp.gain k
def State.modGainPt (s : State) (k : Nat) (f : Nat → Nat) : State :=
  { s with lp := { s.lp with gain := tmod (fun _ => 16384) s.lp.gain k f } }

/-- Step i of the sweep store (R264). -/
def State.swp (s : State) (k : Nat) : SweepStep := tget (fun _ => {}) s.lp.sweep k
def State.modSwp (s : State) (k : Nat) (f : SweepStep → SweepStep) : State :=
  { s with lp := { s.lp with sweep := tmod (fun _ => {}) s.lp.sweep k f } }

/-- Waveform segment w (R300). -/
def State.waveSeg (s : State) (k : Nat) : (List Int) := tget (fun _ => []) s.lp.wave k
def State.modWaveSeg (s : State) (k : Nat) (f : (List Int) → (List Int)) : State :=
  { s with lp := { s.lp with wave := tmod (fun _ => []) s.lp.wave k f } }

/-- Averager of loop l, or 2048 + bed (R325). -/
def State.avg (s : State) (k : Nat) : Averager := tget (fun _ => {}) s.meas.avg k
def State.modAvg (s : State) (k : Nat) (f : Averager → Averager) : State :=
  { s with meas := { s.meas with avg := tmod (fun _ => {}) s.meas.avg k f } }

/-- Window monitor u (R335). -/
def State.wmon (s : State) (k : Nat) : Monitoring := tget (fun _ => {}) s.meas.monitor k
def State.modWmon (s : State) (k : Nat) (f : Monitoring → Monitoring) : State :=
  { s with meas := { s.meas with monitor := tmod (fun _ => {}) s.meas.monitor k f } }

/-- Time-interval unit u (R349). -/
def State.tiu (s : State) (k : Nat) : TimeInterval := tget (fun _ => {}) s.meas.unit k
def State.modTiu (s : State) (k : Nat) (f : TimeInterval → TimeInterval) : State :=
  { s with meas := { s.meas with unit := tmod (fun _ => {}) s.meas.unit k f } }

/-- Stager i (R368). -/
def State.stager (s : State) (k : Nat) : Stager := tget (fun _ => {}) s.harv.stager k
def State.modStager (s : State) (k : Nat) (f : Stager → Stager) : State :=
  { s with harv := { s.harv with stager := tmod (fun _ => {}) s.harv.stager k f } }

/-- Ring r (R376). -/
def State.ring (s : State) (k : Nat) : RingCtx := tget (fun _ => {}) s.harv.ring k
def State.modRing (s : State) (k : Nat) (f : RingCtx → RingCtx) : State :=
  { s with harv := { s.harv with ring := tmod (fun _ => {}) s.harv.ring k f } }

/-- Port 0 LINK0, 1 LINK1 (R396). -/
def State.port (s : State) (k : Nat) : LinkPort := tget (fun _ => {}) s.link.port k
def State.modPort (s : State) (k : Nat) (f : LinkPort → LinkPort) : State :=
  { s with link := { s.link with port := tmod (fun _ => {}) s.link.port k f } }

/-- Stage i on SP1 (R437). -/
def State.stage (s : State) (k : Nat) : StageState := tget (fun _ => {}) s.ser.stage k
def State.modStage (s : State) (k : Nat) (f : StageState → StageState) : State :=
  { s with ser := { s.ser with stage := tmod (fun _ => {}) s.ser.stage k f } }

/-- Boot-flash byte (R104). -/
def State.flashByte (s : State) (k : Nat) : Byte := tget (fun _ => 0xFF) s.ser.flash k
def State.modFlashByte (s : State) (k : Nat) (f : Byte → Byte) : State :=
  { s with ser := { s.ser with flash := tmod (fun _ => 0xFF) s.ser.flash k f } }

/-- On-die sensor i (R451). -/
def State.sensor (s : State) (k : Nat) : Sensor := tget (fun _ => {}) s.sup.sensor k
def State.modSensor (s : State) (k : Nat) (f : Sensor → Sensor) : State :=
  { s with sup := { s.sup with sensor := tmod (fun _ => {}) s.sup.sensor k f } }

/-- Thermistor input n (R465). -/
def State.therm (s : State) (k : Nat) : Therm := tget (fun _ => {}) s.sup.therm k
def State.modTherm (s : State) (k : Nat) (f : Therm → Therm) : State :=
  { s with sup := { s.sup with therm := tmod (fun _ => {}) s.sup.therm k f } }

/-- Zone z (R455). -/
def State.zone (s : State) (k : Nat) : ZoneState := tget (fun _ => {}) s.sup.zone k
def State.modZone (s : State) (k : Nat) (f : ZoneState → ZoneState) : State :=
  { s with sup := { s.sup with zone := tmod (fun _ => {}) s.sup.zone k f } }

/-- Dwell of a level (R456). -/
def State.level (s : State) (k : Nat) : Level := tget (fun _ => {}) s.sup.level k
def State.modLevel (s : State) (k : Nat) (f : Level → Level) : State :=
  { s with sup := { s.sup with level := tmod (fun _ => {}) s.sup.level k f } }

/-- Rail thresholds of an index (R469). -/
def State.rail (s : State) (k : Nat) : Rail := tget (fun _ => {}) s.sup.rail k
def State.modRail (s : State) (k : Nat) (f : Rail → Rail) : State :=
  { s with sup := { s.sup with rail := tmod (fun _ => {}) s.sup.rail k f } }

/-- Rail reading 4 x index + die (R469). -/
def State.railRd (s : State) (k : Nat) : RailRead := tget (fun _ => {}) s.sup.railRead k
def State.modRailRd (s : State) (k : Nat) (f : RailRead → RailRead) : State :=
  { s with sup := { s.sup with railRead := tmod (fun _ => {}) s.sup.railRead k f } }

/-- Process monitor i (R476). -/
def State.pmon (s : State) (k : Nat) : Word := tget (fun _ => 0) s.sup.pm k
def State.modPmon (s : State) (k : Nat) (f : Word → Word) : State :=
  { s with sup := { s.sup with pm := tmod (fun _ => 0) s.sup.pm k f } }

/-- Charge window of heavy loop h (R467). -/
def State.charge (s : State) (k : Nat) : ChargeWin := tget (fun _ => {}) s.sup.charge k
def State.modCharge (s : State) (k : Nat) (f : ChargeWin → ChargeWin) : State :=
  { s with sup := { s.sup with charge := tmod (fun _ => {}) s.sup.charge k f } }

/-- Trip-log word 16 x slot + i (R474). -/
def State.tripWord (s : State) (k : Nat) : Word := tget (fun _ => 0) s.sup.tripLog k
def State.modTripWord (s : State) (k : Nat) (f : Word → Word) : State :=
  { s with sup := { s.sup with tripLog := tmod (fun _ => 0) s.sup.tripLog k f } }

/-- Keep-store byte (R492). -/
def State.keepByte (s : State) (k : Nat) : Byte := tget (fun _ => 0xFF) s.cal.keep k
def State.modKeepByte (s : State) (k : Nat) (f : Byte → Byte) : State :=
  { s with cal := { s.cal with keep := tmod (fun _ => 0xFF) s.cal.keep k f } }

/-- Erases of a keep-store sector (R493). -/
def State.wearOf (s : State) (k : Nat) : Nat := tget (fun _ => 0) s.cal.wear k
def State.modWearOf (s : State) (k : Nat) (f : Nat → Nat) : State :=
  { s with cal := { s.cal with wear := tmod (fun _ => 0) s.cal.wear k f } }

/-- Quality figures 1024 x kind + index (R487). -/
def State.quality (s : State) (k : Nat) : Quality := tget (fun _ => {}) s.cal.quality k
def State.modQuality (s : State) (k : Nat) (f : Quality → Quality) : State :=
  { s with cal := { s.cal with quality := tmod (fun _ => {}) s.cal.quality k f } }

/-- Those figures come from a run (R505). -/
def State.measured (s : State) (k : Nat) : Bool := tget (fun _ => false) s.cal.measured k
def State.modMeasured (s : State) (k : Nat) (f : Bool → Bool) : State :=
  { s with cal := { s.cal with measured := tmod (fun _ => false) s.cal.measured k f } }

/-- Chip time (R7). -/
def State.now (s : State) : Nat := s.clk.time

/-- Apply `f` if `b`. -/
def onlyIf (b : Bool) (f : State → State) (s : State) : State := if b then f s else s

/-- An event that falls due at `t` brings chip time there (R7); it never runs back. -/
def State.reach (s : State) (t : Nat) : State := { s with clk := { s.clk with time := max s.clk.time t } }

/-- The next free value of the model (DESIGN CHOICE 1): a number nothing constrains. -/
def State.freeNat (s : State) : Nat := Config.freeValue s.free

/-- Advance the free counter, so that the next free value is another one. -/
def State.takeFree (s : State) : State := { s with free := s.free + 1 }

/-- Class of a fault block: 0 bed, else its ID (R514). -/
def bedBlock (k : Nat) : Bool := decide (k < 16)

/-- The sources of a fault block with severity, factory reaction word (R511 layout), and whether LIVE is an event
(R514), in source order. -/
def sourceTable (k : Nat) : List (Nat × Nat × Bool) :=
  if k < 16 then
    List.replicate 6 (2, 0x11, false) ++ [(2, 0x01, true), (1, 0, true), (0, 0, false), (0, 0, true), (0, 0, true)]
  else if k = 0x10 then [(3, 0x29, false), (2, 0x01, false)]
  else if k = 0x11 then [(1, 0x01, true), (0, 0, true)]
  else if k = 0x12 then [(2, 0x09, true), (3, 0x09, false)]
  else if k = 0x13 then [(1, 0x01, true)]
  else if k = 0x14 then [(1, 0x01, false), (0, 0, true), (0, 0, true), (2, 0x01, true)]
  else if k = 0x15 then [(0, 0, true), (1, 0x01, true), (0, 0, true), (2, 0x09, true), (1, 0x01, true)]
  else if k = 0x16 ∨ k = 0x17 then
    [(2, 0x09, false), (1, 0x01, false), (0, 0, true), (2, 0x01, true), (1, 0x01, false), (2, 0x09, true),
     (0, 0, true), (1, 0x01, true), (1, 0x01, false), (0, 0, true)]
  else if k = 0x18 then [(0, 0, true), (2, 0x02, true), (2, 0x01, true)]
  else if k = 0x19 then [(0, 0, true), (0, 0, true), (0, 0, true), (2, 0x09, false), (1, 0x01, true), (0, 0, true)]
  else if k = 0x1A then
    [(1, 0x01, false), (1, 0x01, false), (3, 0x09, false), (3, 0x09, false), (2, 0x11, false), (2, 0x01, false),
     (3, 0x09, false), (1, 0x01, false), (1, 0x01, false), (2, 0x19, false), (2, 0x19, false), (0, 0, true),
     (1, 0x01, true)]
  else if k = 0x1B then [(2, 0x01, true), (2, 0x01, true), (0, 0, true), (0, 0, true), (2, 0x01, true), (1, 0x01, true)]
  else []

/-- SRC_COUNT (R508, R514). -/
def srcCount (k : Nat) : Nat := (sourceTable k).length

/-- Severity of a source (R514). -/
def srcSev (k src : Nat) : Nat := ((sourceTable k).getD src (0, 0, true)).1

/-- Factory reaction word of a source (R514), by the key 64 × block + source. -/
def factoryReact (key : Nat) : Word := w16 ((sourceTable (key / 64)).getD (key % 64) (0, 0, true)).2.1

/-- The LIVE bit of the source is an event's (R510). -/
def srcEvent (k src : Nat) : Bool := ((sourceTable k).getD src (0, 0, true)).2.2

/-- Reaction word of a source (R511). -/
def State.react (s : State) (k src : Nat) : Word := tget factoryReact s.flt.react (64 * k + src)

def State.setReact (s : State) (k src : Nat) (w : Word) : State :=
  { s with flt := { s.flt with react := tset factoryReact s.flt.react (64 * k + src) w } }

/-- The F3 cycle of a chip time, as a stamp (R509). -/
def f3 (t : Nat) : Nat := t / 16 * 16

/-- What has reached the registers in the present F3 cycle (R71). -/
def State.recent (s : State) : Recent :=
  if s.bus.recent.cycle = f3 s.now then s.bus.recent else { cycle := f3 s.now }

/-- Hardware sets sticky bits of the register at `a` in this cycle (R71). -/
def State.noteSet (s : State) (a : Nat) (bits : Word) : State :=
  { s with bus := { s.bus with recent := { s.recent with sets := s.recent.sets ++ [(a, bits)] } } }

/-- The sticky bits at `a` that hardware has set in this cycle: no clear of the cycle reaches them (R71). -/
def State.setNow (s : State) (a : Nat) : Word :=
  (s.recent.sets.filter (fun e => decide (e.1 = a))).foldl (fun w e => w ||| e.2) 0

/-- Hardware counts an event of the counter at `a`, whose value was `old`, in this cycle (R71). -/
def State.noteAdd (s : State) (a old : Nat) : State :=
  let l := s.recent.adds
  let e := match l.find? (fun e => decide (e.1 = a)) with
    | some e => (a, e.2.1, e.2.2 + 1)
    | none => (a, old, 1)
  { s with bus := { s.bus with recent := { s.recent with adds := l.filter (fun e => decide (e.1 ≠ a)) ++ [e] } } }

/-- A counter at `a` that holds `now`: its value before this cycle's events, and their number (R71). -/
def State.beforeEvents (s : State) (a now : Nat) : Nat × Nat :=
  match s.recent.adds.find? (fun e => decide (e.1 = a)) with
  | some e => e.2
  | none => (now, 0)

/-- The value written to the counter at `a` stands for its value before this cycle's events (R71). -/
def State.noteBase (s : State) (a base : Nat) : State :=
  { s with bus := { s.bus with recent := { s.recent with
      adds := s.recent.adds.map (fun e => if e.1 = a then (a, base, e.2.2) else e) } } }

/-- LIVE of a source on or off (R510). -/
def State.live (s : State) (k src : Nat) (on : Bool) : State :=
  s.modFblk k (fun b => { b with live := if on then b.live ||| BitVec.ofNat 64 (2 ^ src)
                                         else b.live &&& ~~~(BitVec.ofNat 64 (2 ^ src)) })

/-- LIVE as it reads now (R510): the conditions that hold, and the events of the present F3 cycle, whose faults still wait for
their block; a forced fault sets none (R528). -/
def State.liveNow (s : State) (k : Nat) : BitVec 64 :=
  (s.flt.waiting.filter (fun d => decide (d.block = k) && !d.forced && srcEvent k d.source && decide (d.stamp = f3 s.now))).foldl
    (fun w d => w ||| BitVec.ofNat 64 (2 ^ d.source)) (s.fblk k).live

/-- A fault is detected in the present F3 cycle and waits for its block (R509); a condition source's LIVE bit rises. -/
def State.raise (s : State) (k src : Nat) (d0 d1 : Nat := 0) : State :=
  let s := if srcEvent k src then s else s.live k src true
  { s with flt := { s.flt with waiting := s.flt.waiting ++
      [{ block := k, source := src, d0 := w16 d0, d1 := w16 d1, forced := false, stamp := f3 s.now }] } }

/-- A forced fault (R528): as a real one, with FORCED, and LIVE untouched. The spec gives it no D0 and D1: free values. -/
def State.raiseForced (s : State) (k src : Nat) : State :=
  let d0 := s.freeNat
  let s := s.takeFree
  let d1 := s.freeNat
  let s := s.takeFree
  { s with flt := { s.flt with waiting := s.flt.waiting ++
      [{ block := k, source := src, d0 := w16 d0, d1 := w16 d1, forced := true, stamp := f3 s.now }] } }

/-- A condition source whose condition is `on`: it raises when the condition begins (R517), and LIVE follows it. -/
def State.condition (s : State) (k src : Nat) (on : Bool) (d0 d1 : Nat := 0) : State :=
  if on then
    if (s.fblk k).live.getLsbD src then s else s.raise k src d0 d1
  else s.live k src false

/-- A perturbation window of the kind is active on the target (R530). -/
def State.perturbed (s : State) (kind target : Nat) : Bool :=
  s.flt.armed && (List.range 16).any (fun e =>
    let p := s.pert e
    p.active && decide (p.kind = kind) && decide (p.target = target))

/-- Sum over the active windows of the kind on the target of AMOUNT, signed 32 bits (R530). -/
def State.perturbAmount (s : State) (kind target : Nat) : Int :=
  if s.flt.armed then
    (List.range 16).foldl (fun acc e =>
      let p := s.pert e
      if p.active && decide (p.kind = kind) && decide (p.target = target) then acc + p.amount.toInt else acc) 0
  else 0

end Sys2Proof.Machine
end

