-- ==== Sys2Proof/Machine/LinkOps.lean ====
section
/-! DEFINITION. Messages of the trellis: their layout (R412), the queues they wait in (R403, R405, R417), and the
messages a part originates (R411, R413). -/

namespace Sys2Proof.Machine

/-- A message (R412): header, ARG, payload. -/
def msgBytes (mtype dest src mflags mtag : Nat) (arg payload : List Byte) : List Byte :=
  [b8 mtype, b8 dest, b8 src, b8 mflags] ++ toBytes 2 mtag ++ toBytes 2 payload.length ++
    (padTo 8 arg).take 8 ++ payload

/-- Class of a message type (R403); an unknown type answers in CONTROL. -/
def msgClass (mtype : Nat) : Nat :=
  if mtype = 0x0A ∨ mtype = 0x0B then 0 else if mtype = 0x07 then 2 else if mtype = 0x06 then 3 else 1

/-- Class `c` of port `p`. -/
def State.cls (s : State) (p c : Nat) : ClassState := tget (fun _ => {}) (s.port p).cls c

def State.modCls (s : State) (p c : Nat) (f : ClassState → ClassState) : State :=
  s.modPort p (fun q => { q with cls := tmod (fun _ => {}) q.cls c f })

/-- The classes of a port at fresh sequence numbers and credits, their queued messages kept (R402, R405). -/
def freshClasses (t : Tab ClassState) : Tab ClassState := tmapAll (fun _ => {}) t (fun _ x => { queue := x.queue })

/-- HOP_DELAY (R421): the mean of the last 4 096 exchanges, those of training among them until they have passed. -/
def hopDelay (s : State) : Nat :=
  let n := s.link.delays.length
  (roundAway (s.link.delays.foldl (· + ·) 0 + ((4096 - n) * s.link.trainDelay : Nat)) 4096).toNat

/-- Fault block of a port (R396). -/
def portBlock (p : Nat) : Nat := 0x16 + p

/-- Class 0 of a port holds its eight messages (R417). -/
def queueFull (s : State) (p c : Nat) : Bool := decide (c = 0) && decide (8 ≤ (s.cls p 0).queue.length)

/-- A message waits to be sent (R405); `fwd` marks one forwarded from the other port. Class 0 holds at most eight; a
further one is lost (R417), which the port's URGENT_LOST names by its URG_ID (bytes 12 and 13). -/
def enqueueFrom (fwd : Bool) (s : State) (p c : Nat) (bytes : List Byte) : State :=
  if queueFull s p c then s.raise (portBlock p) 5 (ofBytes ((bytes.drop 12).take 2))
  else s.modCls p c (fun q => { q with queue := q.queue ++ [(fwd, bytes)] })

/-- A message of the part itself waits to be sent. -/
def enqueue (s : State) (p c : Nat) (bytes : List Byte) : State := enqueueFrom false s p c bytes

/-- A tip-side port that has not trained since the last reset takes no URGENT message: a port without a partner raises
no fault (R400). -/
def takesUrgent (s : State) (p : Nat) : Bool := decide (p = 0) || (s.port p).wasActive

/-- Credits of a class freed for the partner (R405), withheld while a perturbation holds them (R530). -/
def freeCredit (s : State) (p c n : Nat) : State :=
  let s := s.modPort p (fun q => { q with ctrlWaits := true })
  if s.perturbed 5 (c + 4 * p) then s.modCls p c (fun q => { q with withheld := q.withheld + n })
  else s.modCls p c (fun q => { q with rxFreed := (q.rxFreed + n) % 65536 })

/-- A part-originated message to the root (R411, R412): MTAG counts per part. -/
def sendRoot (s : State) (mtype : Nat) (arg payload : List Byte) : State :=
  let s := enqueue s 0 (msgClass mtype) (msgBytes mtype 0x7E s.link.addr 0 s.link.mtag.toNat arg payload)
  { s with link := { s.link with mtag := s.link.mtag + 1 } }

/-- An EVENT message (R413): kind 1 MB_DONE, 2 READY, 3 PORT_CHANGE. -/
def sendEvent (s : State) (kind arg : Nat) : State :=
  sendRoot s 0x0D (toBytes 2 kind ++ toBytes 2 arg) (toBytes 8 s.now)

/-- A response (R413): MTYPE of the request, RSP, SRC this part, MSTATUS at bytes 8 and 9, then the rest of ARG. It goes
rootward in the class of its request (R403); NORSP asks for none (R414). -/
def respond (s : State) (h : MsgHdr) (mtype status : Nat) (arg : List Byte) (overrun : Bool) (payload : List Byte) : State :=
  if h.norsp then s
  else enqueue s 0 (msgClass mtype)
    (msgBytes mtype 0x7E s.link.addr (1 + flag 2 overrun) h.mtag.toNat (toBytes 2 status ++ arg) payload)

end Sys2Proof.Machine
end

