-- ==== Sys2Proof/Machine/HarvestOps.lean ====
section
/-! DEFINITION. Harvest as every producer uses it (spec/12): staging banks, placement, credit, loss, writing, release,
notification, and the COMPLETION of tracked work (R92, R93, R379). -/

namespace Sys2Proof.Machine

/-- Bed of a loop (R3, R230): pin path p in bed p / 32, heavy loop 512 + h in bed h / 2. -/
def loopBed (l : Nat) : Nat := if l < 512 then l / 32 else (l - 512) / 2

/-- The 16-byte header and the body of a record, padded to whole units (R385). -/
def recordBytes (typ flags units seq time : Nat) (body : List Byte) : List Byte :=
  padTo (16 * units) ([b8 typ, b8 flags] ++ toBytes 2 units ++ toBytes 4 seq ++ toBytes 8 time ++ body)

/-- Header flags (R385): what the producer gives, UNREF among them, and PERTURBED while perturbation is armed. -/
def recordFlags (s : State) (flags : Nat) : Nat := flags ||| flag 4 s.flt.armed

/-- Header flags of a record whose times are of now: UNREF in holdover (R385). -/
def flagsNow (s : State) (flags : Nat) : Nat := recordFlags s (flags ||| flag 3 s.clk.holdover)

/-- Difference of two free-running 32-bit positions (R377). -/
def posDiff (a b : Nat) : Nat := (a + two32 - b % two32) % two32

/-- Ring size in bytes and in units (R376). -/
def ringBytes (c : RingCtx) : Nat := 4096 * 2 ^ c.sizeCode
def ringUnits (c : RingCtx) : Nat := 256 * 2 ^ c.sizeCode

/-- FREE (R378). -/
def ringFree (c : RingCtx) : Int := (ringUnits c : Int) - posDiff c.place c.rel - c.reserved

/-- Units in a bank. -/
def bankUnits (l : List Staged) : Nat := (l.map (fun x => x.len)).sum

/-- The filling bank, and the other one (R370). -/
def fillBank (g : Stager) : List Staged := if g.fillB then g.bankB else g.bankA
def drainBank (g : Stager) : List Staged := if g.fillB then g.bankA else g.bankB
def setFill (g : Stager) (l : List Staged) : Stager := if g.fillB then { g with bankB := l } else { g with bankA := l }
def setDrain (g : Stager) (l : List Staged) : Stager := if g.fillB then { g with bankA := l } else { g with bankB := l }

/-- Hand the filling bank to the ring writer (R370). -/
def handOver (s : State) (st : Nat) : State :=
  s.modStager st (fun g => { g with fillB := !g.fillB, handed := true })

/-- Room for a record of `units` in a stager, with the hand-over it needs; none: staging is busy (R370, R371), or reads
as full under perturbation (R530). A bank holds 2048 words, 256 units (R369). -/
def stageRoom (s : State) (st units : Nat) : Option State :=
  let g := s.stager st
  if s.perturbed 3 st then none
  else if bankUnits (fillBank g) + units ≤ 256 then some s
  else if g.handed then none
  else some (handOver s st)

/-- Place a record in its ring and its stager (R373); a FAILED ring takes none (R381). -/
def placeIn (s : State) (st r units tag : Nat) (bytes : Nat → List Byte) : State :=
  if (s.ring r).state = .failed then s
  else
  let c := s.ring r
  let x : Staged := { ring := r, pos := c.place, len := units, seq := c.seq, tag := tag, bytes := bytes c.seq,
                      entered := s.now, unref := s.clk.holdover, acked := 0 }
  let s := s.modStager st (fun g => setFill g (fillBank g ++ [x]))
  s.modRing r (fun c => { c with
    place := (c.place + units) % two32, seq := (c.seq + 1) % two32,
    placed := c.placed ++ [{ pos := c.place, len := units, seq := c.seq, done := false, hold := false }] })

/-- WR_POS passes the records at the front that are written (R375). -/
def passDone : List Placed → Nat → List Placed × Nat
  | [], w => ([], w)
  | x :: r, w => if x.done && !x.hold then passDone r ((w + x.len) % two32) else (x :: r, w)

/-- RING_NOTIFY (R384): the ring, WR_POS, and the sequence number of the first record not yet written. -/
def sendNotify (s : State) (r : Nat) : State :=
  let c := s.ring r
  let next := match c.placed with | x :: _ => x.seq | [] => c.seq
  let s := sendRoot s 0x08 (toBytes 2 r) (toBytes 4 c.wr ++ toBytes 4 next)
  s.modRing r (fun c => { c with armed := false, advanced := none })

/-- Notify if the ring is armed and NOTIFY_UNITS is reached (R384). -/
def notifyUnitsCheck (s : State) (r : Nat) : State :=
  let c := s.ring r
  if c.armed && decide (c.notifyUnits ≠ 0) && decide (c.notifyUnits ≤ posDiff c.wr c.rel) then sendNotify s r else s

/-- Advance WR_POS (R375), note the first advance while armed (R384), and notify. -/
def advanceRing (s : State) (r : Nat) : State :=
  let c := s.ring r
  let (rest, w) := passDone c.placed c.wr
  if w = c.wr ∧ rest.length = c.placed.length then s
  else
    let s := s.modRing r (fun c => { c with
      placed := rest, wr := w,
      advanced := if c.armed && c.advanced.isNone then some s.now else c.advanced })
    notifyUnitsCheck s r

/-- Write bytes to DRAM from a ring position on, wrapping at the ring's end (R374, R377). -/
def ringWrite (s : State) (c : RingCtx) (off : Nat) (bytes : List Byte) : State :=
  let size := ringBytes c
  let o := off % size
  let head := bytes.take (size - o)
  let tail := bytes.drop (size - o)
  let d := twrite (fun _ => 0) s.pat.dram (c.base + o) head
  { s with pat := { s.pat with dram := twrite (fun _ => 0) d c.base tail } }

/-- The record of sequence number `seq` is written or filled: WR_POS may pass it. -/
def markWritten (s : State) (r seq : Nat) : State :=
  let s := s.modRing r (fun c => { c with
    placed := c.placed.map (fun x =>
    if x.seq = seq then { x with done := true, hold := false } else x) })
  advanceRing s r

/-- A LOSS record (R390): DROPPED, CAUSES, LAST_TIME. -/
def lossBytes (flags units seq time dropped causes last : Nat) : List Byte :=
  recordBytes 0x0A flags units seq time (toBytes 4 dropped ++ toBytes 2 causes ++ [0, 0] ++ toBytes 8 last)

/-- A drop under DROP (R380): it opens a loss in the LOSS reserve, or adds to the one that is open. -/
def dropRecord (s : State) (r causes : Nat) : State :=
  let c := s.ring r
  match c.state with
  | .live =>
    s.modRing r (fun c => { c with
      state := .lossOpen
      loss := some { pos := c.place, seq := c.seq, count := 1, first := s.now, last := s.now, causes := causes, flags := flagsNow s 0 }
      placed := c.placed ++ [{ pos := c.place, len := 2, seq := c.seq, done := false, hold := true }]
      place := (c.place + 2) % two32
      seq := (c.seq + 1) % two32 })
  | .lossOpen =>
    s.modRing r (fun c => { c with
      loss := c.loss.map (fun l =>
      { l with count := satAdd max32 l.count 1, last := s.now, causes := l.causes ||| causes, flags := l.flags ||| flagsNow s 0 }) })
  | _ => s

/-- Close the open loss once FREE ≥ 2 (R380): its final content is written and the ring is OPEN again. -/
def closeLoss (s : State) (r : Nat) : State :=
  let c := s.ring r
  match c.loss with
  | none => s
  | some l =>
    if c.state = .lossOpen ∧ 2 ≤ ringFree c then
      let s := ringWrite s c (16 * l.pos) (lossBytes l.flags 2 l.seq l.first l.count l.causes l.last)
      let s := s.modRing r (fun c => { c with state := .live, loss := none })
      markWritten s r l.seq
    else s

/-- The ring accepts a reservation of `n` units (R378); RING_FULL makes every reservation fail (R530). -/
def canReserve (s : State) (r n : Nat) : Bool :=
  let c := s.ring r
  decide (c.state = .live) && !c.closing && !s.perturbed 4 r && decide (2 ≤ ringFree c - n)

/-- Take the credit, without asking. -/
def takeCredit (s : State) (r n : Nat) : State := s.modRing r (fun c => { c with reserved := c.reserved + n })

/-- A record without credit is dropped (R380): the ring's policy is DROP, or the ring is gone (R393). -/
def ringDrops (s : State) (r : Nat) : Bool := (s.ring r).drop || decide ((s.ring r).state = .free)

/-- A new request (R378): producers that wait under STALL are served before it. -/
def reserve (s : State) (r n : Nat) : Option State :=
  if canReserve s r n && ((s.ring r).drop || (s.ring r).waiters.isEmpty) then some (takeCredit s r n) else none

/-- A producer joins the queue of those that wait, once. -/
def joinWaiters (s : State) (r : Nat) (w : Waiter) (n : Nat) : State :=
  if (s.ring r).waiters.any (fun x => decide (x.1 = w)) then s
  else s.modRing r (fun c => { c with waiters := c.waiters ++ [(w, n)] })

/-- A producer leaves the queue of those that wait. -/
def leaveWaiters (s : State) (r : Nat) (w : Waiter) : State :=
  s.modRing r (fun c => { c with waiters := c.waiters.filter (fun x => decide (x.1 ≠ w)) })

/-- Change the run of an averager. -/
def modMeasRun (s : State) (key : Nat) (f : MeasRun → MeasRun) : State :=
  s.modAvg key (fun a => { a with run := a.run.map f })
def modLockRun (s : State) (key : Nat) (f : LockRun → LockRun) : State :=
  s.modAvg key (fun a => { a with lock := a.lock.map f })
def modTimRun (s : State) (u : Nat) (f : TimRun → TimRun) : State :=
  s.modTiu u (fun a => { a with run := a.run.map f })
def modSweep (s : State) (l : Nat) (f : SweepRun → SweepRun) : State :=
  s.modLoop l (fun x => match x.source with | .sweep r => { x with source := .sweep (f r) } | _ => x)

/-- A waiting producer gets its credit of `n` units (R378): it goes on at its next safe point. -/
def grantCredit (s : State) (r : Nat) (w : Waiter) (n : Nat) : State :=
  match w with
  | .burstEnd q => s.modSeq q (fun x => { x with endCredit := true })
  | .sweepStep first count => (rangeFrom first count).foldl (fun s l => modSweep s l (fun x => { x with granted := true })) s
  | .measWindow key => modMeasRun s key (fun x => { x with units := n })
  | .lockWindow key => modLockRun s key (fun x => { x with credit := true })
  | .timWindow u => modTimRun s u (fun x => { x with win := { x.win with credit := true } })
  | .completion tag => { s with harv := { s.harv with credit := s.harv.credit ++ [(tag, r)] } }

/-- Serve the producers that wait, in the order in which they asked, until one cannot be served (R378). -/
def serveWaiters (s : State) (r : Nat) : List (Waiter × Nat) → State
  | [] => s
  | (w, n) :: rest =>
    if canReserve s r n then serveWaiters (grantCredit (leaveWaiters (takeCredit s r n) r w) r w n) r rest else s

/-- COMPLETION bytes (R387) of an ended work, from its progress entry and its end. -/
def completionBody (p : Progress) (e : PendingEnd) : List Byte :=
  toBytes 2 e.tag ++ toBytes 2 p.opcode.toNat ++ toBytes 2 e.status ++ toBytes 2 e.detail ++
  [b8 e.state, b8 e.cause, b8 e.output, b8 e.kind] ++ toBytes 2 e.source ++ [0, 0] ++
  toBytes 8 p.vectors ++ toBytes 4 e.steps ++ toBytes 4 p.lastSeq ++ toBytes 2 p.ring.toNat ++
  List.replicate 6 0 ++ toBytes 8 e.holds

/-- The stager of a producer by SRC_KIND and SOURCE (R368, R387). -/
def kindStager (kind source : Nat) : Nat :=
  if kind = 2 ∨ kind = 3 then loopBed source
  else if kind = 4 then source
  else if kind = 5 then source / 2
  else 16

/-- The progress entry takes its final fields (R92). -/
def finalProgress (s : State) (e : PendingEnd) : State :=
  s.modProg e.tag (fun p => { p with
    state := if e.state = 2 then .part else .done, stopCause := e.cause,
    steps := e.steps, output := e.output, stopTime := e.time })

/-- Place the COMPLETION of a work whose credit is held; none: staging is busy and it waits (R371), behind the records that
wait there. -/
def placeCompletion (s : State) (e : PendingEnd) : Option State :=
  if s.harv.late.any (fun x => decide (x.stager = kindStager e.kind e.source)) then none
  else
  match stageRoom s (kindStager e.kind e.source) 4 with
  | none => none
  | some s =>
    let fl := recordFlags s (e.flags ||| flag 2 (decide (e.status = 2)))
    let body := completionBody (s.prog e.tag) e
    let s := s.modRing e.ring (fun c => { c with reserved := c.reserved - 4 })
    let s := placeIn s (kindStager e.kind e.source) e.ring 4 e.tag (fun q => recordBytes 0x01 fl 4 q e.time body)
    let s := { s with harv := { s.harv with credit := s.harv.credit.filter (fun x => decide (x.1 ≠ e.tag)) } }
    some (finalProgress s e)

/-- Tracked work has ended (R93, R379): its COMPLETION is generated if its credit is held; under STALL it waits and
the entry stays RUNNING; under DROP it is dropped, and the entry takes its final fields all the same. -/
def endWork (s : State) (e : PendingEnd) : State :=
  let wait := { s with harv := { s.harv with ends := s.harv.ends ++ [e] } }
  if s.harv.credit.any (fun x => decide (x.1 = e.tag)) then
    match placeCompletion s e with
    | some s => s
    | none => wait.raise 0x15 0 (kindStager e.kind e.source)
  else if ringDrops s e.ring then
    finalProgress (dropRecord (leaveWaiters s e.ring (.completion e.tag)) e.ring 1) e
  else wait

/-- Try again every ended work that waits for credit or staging (R379). -/
def retryEnds (s : State) : List PendingEnd → State
  | [] => s
  | e :: r =>
    if s.harv.credit.any (fun x => decide (x.1 = e.tag)) then
      match placeCompletion s e with
      | some s => retryEnds { s with harv := { s.harv with ends := s.harv.ends.filter (fun x => decide (x ≠ e)) } } r
      | none => retryEnds s r
    else if ringDrops s e.ring then
      let s := finalProgress (dropRecord (leaveWaiters s e.ring (.completion e.tag)) e.ring 1) e
      retryEnds { s with harv := { s.harv with ends := s.harv.ends.filter (fun x => decide (x ≠ e)) } } r
    else retryEnds s r

/-- After credit returned to a ring: close its loss, serve those that wait, and the completions that wait (R380). -/
def serviceRing (s : State) (r : Nat) : State :=
  let s := closeLoss s r
  let s := serveWaiters s r (s.ring r).waiters
  retryEnds s s.harv.ends

/-- Credit returns unused (R378, R380). -/
def returnCredit (s : State) (r n : Nat) : State :=
  serviceRing (s.modRing r (fun c => { c with reserved := c.reserved - n })) r

/-- A non-holding producer generates a record (R379): true if it was placed, or counted as a drop by the ring; false:
the producer counts it itself (STALL). `cap` is what is reserved, `units` what the record takes. -/
def emitRecord (s : State) (st r cap units tag typ flags time : Nat) (body : List Byte) : State × Bool :=
  if (s.ring r).state = .free then (s, true)
  else
    match reserve s r cap with
    | none => if ringDrops s r then (dropRecord s r 1, true) else (s, false)
    | some t =>
      match stageRoom t st units with
      | none =>
        let s := s.raise 0x15 0 st
        if ringDrops s r then (dropRecord s r 2, true) else (s, false)
      | some t =>
        let fl := flagsNow t flags
        let t := t.modRing r (fun c => { c with reserved := c.reserved - cap })
        (placeIn t st r units tag (fun q => recordBytes typ fl units q time body), true)

/-- A non-holding producer places a record whose credit `cap` it holds (R376, R379): with staging busy its credit returns and
the loss counts as a failed reservation; false: the producer counts it itself (STALL). -/
def placeReserved (s : State) (st r cap units tag typ flags time : Nat) (body : List Byte) : State × Bool :=
  if (s.ring r).state = .free then (s, true)
  else match stageRoom s st units with
  | none =>
    let s := returnCredit (s.raise 0x15 0 st) r cap
    if ringDrops s r then (dropRecord s r 2, true) else (s, false)
  | some t =>
    let fl := flagsNow t flags
    let t := t.modRing r (fun c => { c with reserved := c.reserved - cap })
    let t := placeIn t st r units tag (fun q => recordBytes typ fl units q time body)
    (if units < cap then serviceRing t r else t, true)

/-- A holding producer places a record whose credit `cap` it holds; none: staging is busy, and STAGE_BUSY was raised. -/
def placeHeld (s : State) (st r cap units tag typ flags time : Nat) (body : List Byte) : State × Bool :=
  if (s.ring r).state = .free then (s, true)
  else match stageRoom s st units with
  | none => (s.raise 0x15 0 st, false)
  | some t =>
    let fl := recordFlags t flags
    let t := t.modRing r (fun c => { c with reserved := c.reserved - cap })
    let t := placeIn t st r units tag (fun q => recordBytes typ fl units q time body)
    (if units < cap then serviceRing t r else t, true)

/-- The last record of a run that ends at once is placed, or waits for staging with its credit (R334, R363, R371). -/
def placeLast (s : State) (st r cap units tag typ flags time : Nat) (body : List Byte) : State :=
  let (s, ok) := placeHeld s st r cap units tag typ flags time body
  if ok then s
  else { s with harv := { s.harv with late := s.harv.late ++
    [{ stager := st, ring := r, cap := cap, units := units, tag := tag, typ := typ, flags := flags, time := time, body := body }] } }

/-- The records that wait for staging enter it, the oldest of a stager first. -/
def placeLate (s : State) : List LateRecord → State
  | [] => s
  | x :: l =>
    if (stageRoom s x.stager x.units).isNone ∨ (s.harv.late.find? (fun y => decide (y.stager = x.stager))).any (fun y => decide (y ≠ x)) then
      placeLate s l
    else
      let s := { s with harv := { s.harv with late := s.harv.late.filter (fun y => decide (y ≠ x)) } }
      placeLate (placeHeld s x.stager x.ring x.cap x.units x.tag x.typ x.flags x.time x.body).1 l

/-- A bank has become free: what waits for staging goes on (R371). -/
def bankFreed (s : State) : State :=
  let s := placeLate s s.harv.late
  retryEnds s s.harv.ends

/-- The records of a stager that wait go without being written: their credit returns (R395). -/
def dropLate (s : State) (st : Nat) : State :=
  let l := s.harv.late.filter (fun x => decide (x.stager = st))
  let s := { s with harv := { s.harv with late := s.harv.late.filter (fun x => decide (x.stager ≠ st)) } }
  l.foldl (fun s x => returnCredit s x.ring x.cap) s

/-- What a holding producer's request meets (R379): credit, a wait under STALL, or a drop under DROP. -/
inductive Ask | held | waits | dropped
deriving DecidableEq, Repr

/-- A holding producer asks for `n` units for its next record. -/
def askCredit (s : State) (r n : Nat) (w : Waiter) : State × Ask :=
  if (s.ring r).waiters.any (fun x => decide (x.1 = w)) then (s, .waits)
  else
    match reserve s r n with
    | some t => (t, .held)
    | none => if ringDrops s r then (dropRecord s r 1, .dropped) else (joinWaiters s r w n, .waits)

/-- The records of a tag's earlier command that DRAM has not acknowledged belong to no entry once the tag is reused (R84,
R92). -/
def forgetTag (s : State) (tag : Nat) : State :=
  let off := fun (l : List Staged) => l.map (fun x => if x.tag = tag then { x with tag := 0 } else x)
  { s with harv := { s.harv with
      stager := tmapAll (fun _ => {}) s.harv.stager (fun _ x =>
        { x with bankA := off x.bankA, bankB := off x.bankB, fills := off x.fills }) } }

/-- Tracked work begins (R92, R379): its progress entry RUNNING, and the credit of its COMPLETION reserved or asked for.
A burst reserves its own end records (R214). RING is the header ring until DRAM acknowledges a first record (DESIGN
CHOICE 167). -/
def beginWork (s : State) (tag opcode r output : Nat) (ownCredit : Bool) : State :=
  let s := (forgetTag s tag).modProg tag (fun _ => { opcode := w16 opcode, state := .running, ring := w16 r, output := output })
  if ownCredit then s
  else
    match reserve s r 4 with
    | some t => { t with harv := { t.harv with credit := t.harv.credit ++ [(tag, r)] } }
    | none => joinWaiters s r (.completion tag) 4

/-- The tag is in use (R84). -/
def tagInUse (s : State) (tag : Nat) : Bool := decide ((s.prog tag).state = .running)

/-- An EVENT record (R388): KIND at byte 16, SOURCE at 18, then bytes 20 to 47; 3 units. -/
def eventBody (kind source : Nat) (rest : List Byte) : List Byte := [b8 kind, 0] ++ toBytes 2 source ++ rest

/-- An abandoned record's LOSS fill (R381): same ring, position, length and sequence number. -/
def fillOf (s : State) (causes : Nat) (x : Staged) : Staged :=
  { x with tag := 0, acked := 0, bytes := lossBytes (recordFlags s (flag 3 x.unref)) x.len x.seq x.entered 1 causes x.entered }

/-- What the stager's writer works on: its fills, else the handed bank. -/
def writing (g : Stager) : List Staged :=
  match g.fills with
  | [] => if g.handed then drainBank g else []
  | l => l

/-- What is left for the writer. A bank whose last record is gone is free (R370). -/
def setWriting (g : Stager) (l : List Staged) : Stager :=
  match g.fills with
  | [] => { setDrain g l with handed := !l.isEmpty }
  | _ => { g with fills := l }

/-- What a burst at ring offset `off` with room for `room` bytes carries (R374): of records that lie one after another in
ring `r`, each with its bytes in the burst. -/
def burstParts (c : RingCtx) (r off room : Nat) : List Staged → List (Staged × Nat)
  | [] => []
  | x :: l =>
    if room = 0 ∨ x.ring ≠ r ∨ (16 * x.pos + x.acked) % ringBytes c ≠ off then []
    else
      let n := 16 * x.len - x.acked
      if room < n then [(x, room)] else (x, n) :: burstParts c r (off + n) (room - n) l

/-- The stager's next burst (R374): up to 256 bytes, of one ring, in one 256-byte block, not past the ring's end. -/
def nextBurst (s : State) (st : Nat) : List (Staged × Nat) :=
  match writing (s.stager st) with
  | [] => []
  | x :: l =>
    let c := s.ring x.ring
    let off := (16 * x.pos + x.acked) % ringBytes c
    burstParts c x.ring off (min (256 - off % 256) (ringBytes c - off)) (x :: l)

/-- The record that holds byte `k` of a burst. -/
def burstHolder : Nat → List (Staged × Nat) → Option Staged
  | _, [] => none
  | k, (x, n) :: l => if k < n then some x else burstHolder (k - n) l

/-- The progress entry's LAST_SEQ and RING follow the record (R92). -/
def noteWritten (s : State) (x : Staged) : State :=
  if x.tag = 0 then s else s.modProg x.tag (fun p => { p with lastSeq := x.seq, ring := w16 x.ring })

/-- DRAM has acknowledged a burst (R374, R375): the mark advances over its parts, and records written whole are passed. -/
def burstAcked (s : State) (st : Nat) (parts : List (Staged × Nat)) : State :=
  let s := parts.foldl (fun s p =>
    ringWrite s (s.ring p.1.ring) (16 * p.1.pos + p.1.acked) ((p.1.bytes.drop p.1.acked).take p.2)) s
  let rest := (parts.filter (fun p => decide (p.1.acked + p.2 < 16 * p.1.len))).map (fun p => { p.1 with acked := p.1.acked + p.2 })
  let s := s.modStager st (fun g => { setWriting g (rest ++ (writing g).drop parts.length) with fails := 0 })
  let whole := parts.filter (fun p => decide (16 * p.1.len ≤ p.1.acked + p.2))
  bankFreed (whole.foldl (fun s p => markWritten (noteWritten s p.1) p.1.ring p.1.seq) s)

/-- A ring becomes FAILED (R381): WR_POS stays, and the records placed in it are discarded. -/
def failRing (s : State) (r : Nat) : State :=
  let gone := fun (l : List Staged) => l.filter (fun y => decide (y.ring ≠ r))
  let s := s.modRing r (fun c => { c with state := .failed, loss := none, placed := [] })
  { s with harv := { s.harv with
      stager := tmapAll (fun _ => {}) s.harv.stager (fun _ x =>
        let g := { x with bankA := gone x.bankA, bankB := gone x.bankB, fills := gone x.fills }
        { g with handed := g.handed && !(drainBank g).isEmpty }) } }

/-- A burst for ring `r` failed (R374, R381): WRITE_RETRY; after four failures WRITE_FAIL, and every record that the burst
touches is abandoned; a LOSS fill that fails four times makes its ring FAILED. -/
def burstFailed (s : State) (st r : Nat) (parts : List (Staged × Nat)) : State :=
  let s := s.raise 0x15 2 r
  let n := (s.stager st).fails + 1
  if n < 4 then s.modStager st (fun g => { g with fails := n })
  else
    let s := s.raise 0x15 3 r
    let isFill := !(s.stager st).fills.isEmpty
    let s := s.modStager st (fun g => { setWriting g ((writing g).drop parts.length) with fails := 0 })
    bankFreed (if isFill then failRing s r
      else s.modStager st (fun g => { g with fills := g.fills ++ parts.map (fun p => fillOf s 0x14 p.1) }))

/-- Every record in the stager's banks is abandoned at a HARV block reset (R41, R381): the banks are free. -/
def discardBanks (s : State) (st : Nat) : State :=
  s.modStager st (fun g => { g with
    bankA := [], bankB := [], handed := false, fails := 0,
    fills := g.fills ++ ((drainBank g ++ fillBank g).map (fillOf s 0x18)) })

/-- A release (R383): the new REL_POS, checked; answers the RELEASE_BAD reason, 0 if none. -/
def releaseRing (s : State) (r pos : Nat) (arm : Bool) : State × Nat :=
  let c := s.ring r
  if c.state = .free then (s.raise 0x15 4 r 4, 4)
  else
    let ahead := posDiff pos c.rel
    let span := posDiff c.wr c.rel
    if ahead ≥ 2 ^ 31 then (s.raise 0x15 4 r 3, 3)
    else
      let bad := decide (span < ahead)
      let s := if bad then s.raise 0x15 4 r 2 else s
      let s := s.modRing r (fun c => { c with rel := if bad then c.wr else pos % two32 })
      let s := if arm then s.modRing r (fun c => { c with armed := true, advanced := none }) else s
      (notifyUnitsCheck (serviceRing s r) r, if bad then 2 else 0)

end Sys2Proof.Machine
end

