-- ==== Sys2Proof/Machine/FwOps.lean ====
section
/-! DEFINITION. The firmware's common acts on the command in EXECUTING (spec/04): its checks in the order of R88, its
response (R77, R82, R530), and its waiting for a hardware event (R82). -/

namespace Sys2Proof.Machine

/-- A check's failure: STATUS and DETAIL (R86). -/
abbrev Bad := Nat × Nat

/-- The first check that fails decides (R88). -/
def firstBad : List (Option Bad) → Option Bad
  | [] => none
  | some b :: _ => some b
  | none :: r => firstBad r

/-- Checks by the statuses of R86. -/
def needParam (ok : Bool) (word : Nat) : Option Bad := if ok then none else some (0x12, word)
def needState (ok : Bool) (reason : Nat) : Option Bad := if ok then none else some (0x13, reason)
def needBusy (ok : Bool) (resource : Nat) : Option Bad := if ok then none else some (0x10, resource)
def needGuard (ok : Bool) (offset : Nat) : Option Bad := if ok then none else some (0x15, offset)
def needRef (s : State) : Option Bad := if s.clk.refPresent && !s.clk.holdover then none else some (0x40, 0)

/-- The first index of a list that fails, as a BAD_PARAM naming word `base` + index. -/
def needEach {α : Type} (l : List α) (base : Nat) (ok : α → Bool) : Option Bad :=
  match firstIdx l (fun x => !ok x) with
  | some i => some (0x12, base + i)
  | none => none

/-- The first element for which `f` answers a failure. -/
def firstOf {α : Type} (l : List α) (f : α → Option Bad) : Option Bad := l.findSome? f

/-- A ring named in a parameter must not be FREE (R376); 0xFFFF is exempt where it means none or the header ring. -/
def needRing (s : State) (r word : Nat) : Option Bad :=
  needParam (decide (r = 0xFFFF) || decide ((s.ring r).state ≠ .free)) word

/-- The ring a parameter selects: 0xFFFF is the header ring (R376). -/
def ringOf (c : Current) (r : Nat) : Nat := if r = 0xFFFF then c.ring.toNat else r

/-- Check 5: the tag is not in use (R84). -/
def needTag (s : State) (tag : Nat) : Option Bad := needState (!tagInUse s tag) tag

/-- The bed's outputs are in cloche (R521). -/
def bedHeld (s : State) (b : Nat) : Bool := (s.bedc b).active

/-- Check 8 for a target in bed `b` (R16, R88, R472). -/
def needFree (s : State) (b : Nat) : Option Bad :=
  if bedHeld s b then (if s.sup.shutdown then some (0x14, 0xFF) else some (0x20, b)) else none

/-- The loop is in CLOCHE (R262, R268): by its bed, a loop-scope cause, or a bed of its gang (R239, R521). -/
def loopHeld (s : State) (l : Nat) : Bool := decide ((s.loop l).state = .cloche)

/-- Check 8 for a loop. -/
def needLoopFree (s : State) (l : Nat) : Option Bad :=
  if loopHeld s l then (if s.sup.shutdown then some (0x14, 0xFF) else some (0x20, loopBed l)) else none

/-- The mailbox's response is in force: DONE, and the MB_DONE event if NOTIFY = 1 (R78, R82). -/
def enterDone (s : State) (n : Nat) (notify : Bool) : State :=
  let s := s.modMbx n (fun m => { m with state := .done, delayEnd := none })
  if notify then sendEvent s 1 n else s

/-- The response words of command `c` in its mailbox (R77); DETAIL is 0 for OK and ACCEPTED. -/
def writeResponse (c : Current) (status detail : Nat) (words : List Word) (m : Mailbox) : Mailbox :=
  { m with
    rOpcode := c.opcode
    rTag := c.tag
    status := w16 status
    detail := if status ≤ 1 then 0 else w16 detail
    rLength := words.length
    rParam := twrite (fun _ => 0) m.rParam 0 words
    async := decide (status = 1) }

/-- MB_DELAY holds a written response (R530): the mailbox stays EXECUTING. -/
def holdResponse (s : State) (n : Nat) : State :=
  s.modMbx n (fun m => { m with delayEnd := some (s.now + (s.perturbAmount 7 n).toNat * 3200) })

/-- The firmware writes the response of the command in EXECUTING, then the state (R77, R82, R530). -/
def postResponse (s : State) (status detail : Nat) (words : List Word) : State :=
  match s.fw.current with
  | none => s
  | some c =>
    let n := c.mb.val
    let s := { s with fw := { s.fw with current := none } }
    let s := s.modMbx n (writeResponse c status detail words)
    if s.perturbed 7 n then holdResponse s n else enterDone s n (c.flags.toNat.testBit 0)

def postOk (s : State) (words : List Word := []) : State := postResponse s 0 0 words

/-- The response of a command that failed a check (R88). -/
def postBad (s : State) (b : Bad) : State := postResponse s b.1 b.2 []

/-- Run `k` if every check passes, else answer the first failure (R88). -/
def checked (s : State) (checks : List (Option Bad)) (k : State → State) : State :=
  match firstBad checks with
  | some b => postBad s b
  | none => k s

/-- The row of a command executes only the command in EXECUTING, of its opcode and action, that does not wait. -/
def onCommand (s : State) (op : Nat) (action : List Word → Bool) (k : Current → State) : State :=
  match s.fw.current with
  | some c => if c.opcode.toNat = op ∧ c.wait = .nothing ∧ action c.params = true then k c else s
  | none => s

/-- The command waits for a hardware event; its response words so far are kept (R82). -/
def waitFor (s : State) (w : Wait) (reply : List Word := []) : State :=
  { s with fw := { s.fw with current := s.fw.current.map (fun c => { c with wait := w, reply := reply }) } }

/-- The command waits for `w`. -/
def waitsFor (s : State) (w : Wait) : Bool := s.fw.current.any (fun c => decide (c.wait = w))

/-- The engines that worked for an aborted tag have stopped (R94). -/
def answerAbort (s : State) (tag : Nat) : State := if waitsFor s (.abort tag) then postOk s else s

/-- ACCEPTED (R83): the progress entry begins, the response is posted. -/
def accept (s : State) (c : Current) (output : Nat) (words : List Word := []) : State :=
  postResponse (beginWork s c.tag.toNat c.opcode.toNat c.ring.toNat output false) 1 0 words

/-- An ended work of the firmware or an engine, as its COMPLETION tells it (R93, R387), UNREF in holdover (R385). -/
def workEnd (s : State) (tag ring status detail kind source state cause output steps : Nat) : PendingEnd :=
  { tag := tag, ring := ring, status := status, detail := detail, kind := kind, source := source, flags := flag 3 s.clk.holdover,
    holds := 0, state := state, cause := cause, output := output, steps := steps, time := s.now }

/-- A log entry of the firmware event log (R100): 4096 entries in a circle. -/
def fwLog (s : State) (code a0 a1 a2 : Word) : State :=
  { s with fw := { s.fw with
      log := (s.fw.log ++ [({ time := s.now, code := code, a0 := a0, a1 := a1, a2 := a2 } : LogEntry)]).drop (s.fw.log.length + 1 - 4096)
      logNext := (s.fw.logNext + 1) % two32 } }

end Sys2Proof.Machine
end

