-- ==== Sys2Proof/Machine/CalTables.lean ====
section
/-! DEFINITION. The calibration image in use as the engines read it (R48, R495): the layout of its body, the ideal
factory image (DESIGN CHOICE 16), the DAC coefficients (R115), the deskews of R165, and the seed record's layout and
factory values (R137, R499). -/

namespace Sys2Proof.Machine

/-- Sections of the body: ID, COUNT, STRIDE, offset of the section header (R495). -/
def calSections : List (Nat × Nat × Nat × Nat) :=
  [(1, 16, 656, 0), (2, 1, 48, 10512), (3, 32, 528, 10576), (4, 512, 320, 27488), (5, 32, 336, 191344), (6, 16, 1008, 202112)]

/-- A full body (R495). -/
def calBodyLen : Nat := 218256

/-- The byte `i` of a gain of 1.0 (binary32) and an offset of 0 (DESIGN CHOICE 17). -/
def unityByte (i : Nat) : Byte := if i = 2 then 0x80 else if i = 3 then 0x3F else 0

/-- Byte `o` of an entry of section `id` in the ideal image: identity tables, gains 1.0, offsets 0, Tcal 25 °C. -/
def idealEntry (id o : Nat) : Byte :=
  if id = 1 then
    if o < 512 then (if o % 2 = 0 then b8 (o / 2) else 0)
    else if o = 642 then 0xC8 else if o = 643 then 0x41 else 0
  else if id = 3 then (if o < 512 ∧ o % 2 = 0 then b8 (o / 2) else 0)
  else if id = 4 ∨ id = 5 then
    if o < 268 then (if o % 134 < 6 then unityByte (o % 134) else 0)
    else if o < (if id = 4 then 298 else 316) then unityByte ((o - 268) % 6)
    else 0
  else if id = 6 then (if o < 996 then unityByte (o % 6) else 0)
  else 0

/-- Byte `k` of the body of the factory calibration image (DESIGN CHOICE 16). -/
def calDefault (k : Nat) : Byte :=
  match calSections.find? (fun x => decide (x.2.2.2 ≤ k) && decide (k < x.2.2.2 + 16 + x.2.1 * x.2.2.1)) with
  | none => 0
  | some (id, count, stride, off) =>
    if k < off + 16 then (toBytes 2 id ++ toBytes 2 count ++ toBytes 4 stride ++ toBytes 4 (count * stride) ++ toBytes 4 0).getD (k - off) 0
    else idealEntry id ((k - off - 16) % stride)

/-- Body byte of the image in use. -/
def calByte (s : State) (k : Nat) : Byte := tget calDefault s.cal.body k

/-- `n` body bytes from `k`, little-endian. -/
def calNum (s : State) (k n : Nat) : Nat := ofBytes ((List.range n).map (fun i => calByte s (k + i)))

/-- A gain, binary32, and an offset, signed LSB, from body byte `k` (DESIGN CHOICE 17). -/
def calGain (s : State) (k : Nat) : Frac := f32 (BitVec.ofNat 32 (calNum s k 4))
def calOffset (s : State) (k : Nat) : Int := ofTwos 16 (calNum s (k + 4) 2)

/-- Body offset of the converter entry of a loop (R495): its voltage channel, and 134 bytes on its current channel. -/
def convEntry (l : Nat) : Nat := if l < 512 then 27488 + 16 + 320 * l else 191344 + 16 + 336 * (l - 512)

/-- Body offset of the gain and offset of a loop's range: current codes from 0, then a heavy loop's VRANGE 0 and 1 (DESIGN
CHOICE 181); a pin's voltage has none. -/
def rangeEntry (l : Nat) (volt : Bool) (irange vrange : Nat) : Option Nat :=
  if volt then (if l < 512 then none else some (convEntry l + 268 + 6 * (6 + vrange))) else some (convEntry l + 268 + 6 * irange)

/-- The 64 points of a channel's linearity correction. -/
def linPoints (s : State) (k : Nat) : List Int := (List.range 64).map (fun i => ofTwos 16 (calNum s (k + 6 + 2 * i) 2))

/-- The linearity correction of a raw code: nothing where every point is 0, else the part's (DESIGN CHOICE 182). -/
def linearityOf (s : State) (k : Nat) (raw : Int) : Frac :=
  let p := linPoints s k
  if p.all (fun y => decide (y = 0)) then Frac.ofInt 0
  else
    let q := Config.linearity p raw
    ⟨q.1, max 1 q.2⟩

/-- A raw code at an end of the converter (R320). -/
def rawEnd (raw : BitVec 16) : Bool := decide (raw = 0x7FFF) || decide (raw = 0x8000)

/-- A raw conversion corrected by the coefficients at body byte `k`, with its over-range mark (R320): rounded to the nearest
code, ties away from zero, and saturated. -/
def correctCode (s : State) (k : Nat) (linear : Bool) (raw : BitVec 16) : Int × Bool :=
  let y := ((calGain s k).mul (Frac.ofInt raw.toInt)).add (Frac.ofInt (calOffset s k))
  let z := (if linear then y.add (linearityOf s k raw.toInt) else y).round
  (sat z 16, rawEnd raw || decide (sat z 16 ≠ z))

/-- Body offset of the monitor converter's coefficients of bed `b` (R495). -/
def monitorCal (b : Nat) : Nat := 202112 + 16 + 1008 * b

/-- Body offset of DAC `i` of bed `b` in R134 order; the monitor's own coefficients stand before DAC 0. -/
def dacCal (b i : Nat) : Nat := 202112 + 16 + 1008 * b + 6 + 6 * i

/-- Bed and R134 index of a level or bed DAC. -/
def dacBed (k : Nat) : Nat := if k < 2048 then k / 128 else (k - 2048) / 3
def dacIndex (k : Nat) : Nat := if k < 2048 then k % 128 else 160 + (k - 2048) % 3

/-- Lower end and span of a DAC's range in volts (R114). -/
def dacRange (k : Nat) : Int × Int :=
  if k < 2048 then (if k % 4 < 2 then (-20, 90) else (-25, 100))
  else if (k - 2048) % 3 = 0 then (-20, 90) else (-25, 100)

/-- The voltage lies in the DAC's range and is a number (R115). -/
def dacInRange (k : Nat) (v : BitVec 32) : Bool :=
  let r := dacRange k
  f32Finite v && (dec r.1 1).le (f32 v) && (f32 v).le (dec (r.1 + r.2) 1)

/-- The code of a requested voltage under the calibration in use (R114, R115). -/
def dacCode (s : State) (k : Nat) (v : BitVec 32) : Nat :=
  let r := dacRange k
  let ideal := (((f32 v).sub (dec r.1 1)).mul (Frac.ofInt 65535)).div (dec r.2 1)
  let c := dacCal (dacBed k) (dacIndex k)
  (clampI 0 65535 (((calGain s c).mul ideal).add (Frac.ofInt (calOffset s c))).round).toNat

/-- Voltage of a level or bed DAC's code under the calibration in use (R114, R115). -/
def dacVolts (s : State) (k code : Nat) : Frac :=
  let r := dacRange k
  let c := dacCal (dacBed k) (dacIndex k)
  let ideal := ((Frac.ofInt (code : Int)).sub (Frac.ofInt (calOffset s c))).div (calGain s c)
  (dec r.1 1).add ((ideal.mul (dec r.2 1)).div (Frac.ofInt 65535))

/-- D_path of a pin (R165): the drive path or the compare path, signed. -/
def dPath (s : State) (p : Nat) (comp : Bool) : Int :=
  ofTwos 16 (calNum s (16 + 656 * (p / 32) + 512 + 4 * (p % 32) + (if comp then 2 else 0)) 2)

/-- The tap of the delay line of bed `b` for a placed time: its fine position through the linearity table (R165, R495). -/
def tapOf (s : State) (b : Nat) (placed : Int) : Nat := calNum s (16 + 656 * b + 2 * (placed % 256).toNat) 2

/-- K_bed (R165). -/
def kBed (s : State) (b : Nat) : Int := ofTwos 16 (calNum s (10528 + 2 * b) 2)

/-- Tcal (binary32 °C) and PMcal of a bed (R166). -/
def tCal (s : State) (b : Nat) : BitVec 32 := BitVec.ofNat 32 (calNum s (16 + 656 * b + 640) 4)
def pmCal (s : State) (b : Nat) : Nat := calNum s (16 + 656 * b + 644) 2

/-- Path delay of a channel of a time-interval unit, signed fine steps (R351, R495). -/
def tiuDelay (s : State) (u : Nat) (stop : Bool) : Int :=
  ofTwos 16 (calNum s (10592 + 528 * u + 512 + (if stop then 2 else 0)) 2)

/-- Nominal of a rail index in mV (R469, R549). -/
def railNominal (i : Nat) : Int :=
  if i = 0 then 750 else if i = 1 then 800 else if i = 2 then 1800 else if i = 3 then 500 else if i = 4 then 900
  else if i = 5 then 1800 else if i = 14 then 3300 else if i = 15 then 1200
  else if i % 2 = 0 then 22000 else -7000

/-- Factory UV and OV of a rail index, 92 % and 108 % of nominal (R469), as binary32 volts. -/
def railLimits (i : Nat) : BitVec 32 × BitVec 32 :=
  (toF32 (dec (railNominal i * 92) 5), toF32 (dec (railNominal i * 108) 5))

/-- Byte `k` of a seed record of factory values (R34, R137, R499): every code nearest 0 V, drive states DZ, connections
NONE, an empty connect mask, the factory reaction words, and the factory supervision settings of R455, R465 and R469. -/
def seedFactory (k : Nat) : Byte :=
  let le (n v : Nat) : Byte := b8 (v >>> (8 * n))
  if k < 0x40 then 0
  else if k < 0x2840 then
    let o := (k - 0x40) % 20
    if o < 16 then le (o % 2) (dacZero ((o % 8) / 2)) else 0
  else if k < 0x2940 then
    let o := (k - 0x2840) % 16
    if o < 12 then le (o % 2) (dacZero (2048 + (o % 6) / 2)) else 0
  else if k < 0x4B40 then 0
  else if k < 0x5940 then le ((k - 0x4B40) % 2) (factoryReact ((k - 0x4B40) / 2)).toNat
  else if k < 0x59E0 then
    let o := (k - 0x5940) % 32
    let z : ZoneState := {}
    let w : List Nat := [z.warn.toNat, z.throttle.toNat, z.cloche.toNat, z.shutdown.toNat, z.hyst.toNat, z.step.toNat, z.ror.toNat, z.graceMs]
    le (o % 4) (w.getD (o / 4) 0)
  else if k < 0x5B60 then
    let o := (k - 0x59E0) % 24
    let t : Therm := {}
    let w : List Nat := [0, t.a.toNat, t.b.toNat, t.c.toNat, t.cloche.toNat, t.ror.toNat]
    le (o % 4) (w.getD (o / 4) 0)
  else if k < 0x5BE0 then
    let i := (k - 0x5B60) / 8
    let r := railLimits i
    le ((k - 0x5B60) % 4) (if (k - 0x5B60) % 8 < 4 then r.1 else r.2).toNat
  else if k < 0x5DE0 then
    let o := (k - 0x5BE0) % 16
    let c : ChargeWin := {}
    let w : List Nat := [c.source, c.low.toNat, c.high.toNat, c.hyst.toNat]
    le (o % 4) (w.getD (o / 4) 0)
  else 0

end Sys2Proof.Machine
end

