-- ==== Sys2Proof/Machine/Operands.lean ====
section
/-! DEFINITION. The operand forms of the mailbox commands: ranges of pins and loops (R142, R230), masks, chip times and
the 10 µs rule (R131, R182), and the START field of runs (R226, R274). -/

namespace Sys2Proof.Machine

/-- Parameter word `i` of the command (R76). -/
def par (c : Current) (i : Nat) : Nat := wAt c.params i
def par32 (c : Current) (i : Nat) : Nat := wAt32 c.params i
def par64 (c : Current) (i : Nat) : Nat := wAtN c.params i 4
def parF (c : Current) (i : Nat) : BitVec 32 := wF32 c.params i

/-- The words from `i`, `n` of them, must be 0: the first that is not is named. -/
def needZero (c : Current) (i n : Nat) : Option Bad :=
  match (rangeFrom i n).find? (fun k => decide (par c k ≠ 0)) with
  | some k => some (0x12, k)
  | none => none

/-- Only the bits below `n` of word `i` may be set. -/
def needBits (c : Current) (i n : Nat) : Option Bad := needParam (decide (par c i < 2 ^ n)) i

/-- A pin range in words 0 and 1 (R142). -/
def needPins (c : Current) : List (Option Bad) :=
  [needParam (decide (1 ≤ par c 1) && decide (par c 0 + par c 1 ≤ 512)) 1]

/-- The pins of the range. -/
def pinRange (c : Current) : List Nat := rangeFrom (par c 0) (par c 1)

/-- The beds that hold at least one of the pins. -/
def bedsOfPins (l : List Nat) : List Nat := (List.range 16).filter (fun b => l.any (fun p => decide (p / 32 = b)))

/-- A loop range whose first word is `i` (R230). -/
def needLoops (c : Current) (i : Nat) : List (Option Bad) :=
  let f := par c i
  let n := par c (i + 1)
  [needParam (decide (1 ≤ n) && decide (f + n ≤ 544) && (decide (512 ≤ f) || decide (f + n ≤ 512))) (i + 1)]

/-- The loops of the range. -/
def loopRange (c : Current) (i : Nat) : List Nat := rangeFrom (par c i) (par c (i + 1))

/-- A chip time rounded up to an F3 cycle (R131). -/
def epochOf (t : Nat) : Nat := roundUp t 16

/-- T must lie at least 10 µs after the pick (R131, R182, R226). -/
def needLead (c : Current) (t reason : Nat) : Option Bad :=
  if c.pick + 32000 ≤ t then none else some (0x12, 0x8000 + reason)

/-- WHEN in word `i` (0 NOW, 1 AT) with T in the four words after it, 0 unless AT. -/
def needWhen (c : Current) (i : Nat) : List (Option Bad) :=
  [needParam (decide (par c i ≤ 1)) i, if par c i = 1 then none else needZero c (i + 1) 4]

/-- START in word `i` (0 NOW, 1 AT, 2 TIN) with T in the four words after it, 0 unless AT. -/
def needStart (c : Current) (i : Nat) : List (Option Bad) :=
  [needParam (decide (par c i ≤ 2)) i, if par c i = 1 then none else needZero c (i + 1) 4]

/-- The start of a run: NOW 2 µs after the response, AT at T rounded up, or at a TIN edge (R226, R274). -/
def startOf (s : State) (c : Current) (i tin : Nat) (falling : Bool) : BurstStart :=
  if par c i = 2 then .tin tin falling
  else if par c i = 1 then .at (epochOf (par64 c (i + 1)))
  else .at (epochOf (s.now + 6400))

/-- Ts of a start as the response carries it, 0 for TIN (R226). -/
def startTicks : BurstStart → Nat
  | .at t => t
  | .tin _ _ => 0

/-- A start time has come at chip time `t`. -/
def started (b : BurstStart) (t : Nat) : Bool :=
  match b with
  | .at ts => decide (ts ≤ t)
  | .tin _ _ => false

/-- Beds of a 16-bit mask. -/
def bedMask (m : Nat) : List Nat := maskList 16 m

/-- Bed `b` is ACTIVE (R42). -/
def bedActive (s : State) (b : Nat) : Bool := decide (s.bedPow b = .active) && !s.stbyExit b

/-- A bed of the command is in IDLE or STANDBY (R44): BAD_STATE, DETAIL 6. -/
def needActive (s : State) (beds : List Nat) : Option Bad :=
  firstOf beds (fun b => needState (bedActive s b) 6)

/-- The sequencer has a running burst: every state from ARMED to ENDING (R216). -/
def seqBusy (s : State) (q : Nat) : Bool := decide ((s.seq q).mode ≠ .idle)

/-- The sequencer whose site holds the pin, with its lane (R143, R183). -/
def pinSite (s : State) (p : Nat) : Option (Nat × Nat) :=
  s.pat.seq.findSome? (fun e => (firstIdx e.2.lanes (fun x => decide (x = p))).map (fun j => (e.1, j)))

/-- The pin belongs to a sequencer with a running burst. -/
def pinBusy (s : State) (p : Nat) : Bool :=
  match pinSite s p with
  | some (q, _) => seqBusy s q
  | none => false

/-- The bed holds a pin of a sequencer with a running burst (R177). -/
def bedBusy (s : State) (b : Nat) : Bool :=
  (tents s.pat.seq).any (fun e => decide (e.2.mode ≠ .idle) && e.2.lanes.any (fun p => decide (p / 32 = b)))

/-- Beds that hold a pin of the site. -/
def seqBeds (s : State) (q : Nat) : List Nat := bedsOfPins (s.seq q).lanes

/-- Loops that a calibration run in progress holds FROZEN (R260, R481). -/
def gangMembers (s : State) (l : Nat) : List Nat :=
  if 512 ≤ l then rangeFrom l (max 1 (s.loop l).gang) else [l]

/-- The leader of the gang a heavy loop is a member of, the loop itself otherwise (R239). -/
def gangLeader (s : State) (l : Nat) : Nat :=
  if (s.loop l).state = .ganged then
    match [l - 1, l - 2, l - 3].find? (fun k => decide (512 ≤ k) && decide (k < l) && decide (l < k + (s.loop k).gang)) with
    | some k => k
    | none => l
  else l

/-- A calibration run holds the timing generator of the bed (EDGE of the bed, or BED_SYNC) (R168, R481). -/
def calHoldsTiming (s : State) (b : Nat) : Bool :=
  match s.cal.run with
  | some r => (decide (r.kind = 0) && r.scopes.contains b) || decide (r.kind = 1)
  | none => false

/-- A calibration run whose scope is the bed, or the chip, holds the bed: EDGE, BED_SYNC, PIN_CONV, DAC_SCALE (R15, R481). -/
def calHolds (s : State) (b : Nat) : Bool :=
  match s.cal.run with
  | some r => (bedKind r.kind && r.scopes.contains b) || decide (r.kind = 1)
  | none => false
where
  /-- Kinds whose scope is a bed (R481). -/
  bedKind (k : Nat) : Bool := decide (k = 0) || decide (k = 3) || decide (k = 5)

/-- A calibration run holds the loop's converter (R260, R481). -/
def calHoldsLoop (s : State) (l : Nat) : Bool :=
  match s.cal.run with
  | some r =>
    (decide (r.kind = 3) && decide (l < 512) && r.scopes.contains (l / 32)) ||
    (decide (r.kind = 4) && decide (512 ≤ l) && r.scopes.any (fun h => (gangMembers s (gangLeader s (512 + h))).contains l))
  | none => false

/-- A calibration run holds the bed's monitor: slots 0 to 164, 168 and 169 under DAC_SCALE, slot 169 under REFV_CHECK. -/
def calHoldsSlot (s : State) (b slot : Nat) : Bool :=
  match s.cal.run with
  | some r =>
    (decide (r.kind = 5) && r.scopes.contains b && (decide (slot < 165) || decide (168 ≤ slot))) ||
    (decide (r.kind = 6) && decide (slot = 169))
  | none => false

/-- A calibration run holds the time-interval unit (R363, R481). -/
def calHoldsUnit (s : State) (u : Nat) : Bool :=
  match s.cal.run with
  | some r => decide (r.kind = 2) && r.scopes.contains u
  | none => false

/-- The connection of a pad in force: none while its bed's outputs are off or disconnected (R42, R46, R471, R473), the
cloche connection in cloche (R117, R139), else the working one once its switches are closed (R126). -/
def padConn (s : State) (p : Nat) : Nat :=
  let b := p / 32
  if s.sup.analogueOff || s.sup.reconnect || decide (s.bedPow b = .standby) || s.stbyExit b then 0
  else if bedHeld s b then (s.pinst p).clocheConn
  else if (s.pinst p).closed then (s.pinst p).conn else 0

/-- The comparator of a pad is detached: connection NONE or MON (R113, R124). -/
def padDetached (s : State) (p : Nat) : Bool := decide (padConn s p = 0) || decide (padConn s p = 6)

/-- The driver of a pad is off and its clamp on: CLAMP is set and the mode is not MEASURE (R112, R123). -/
def clampOn (s : State) (p : Nat) : Bool :=
  (s.pinst p).clamp && decide ((s.pinst p).mode ≠ 4) && decide ((s.slices p).driver = .off)

/-- The level that a level or bed DAC is meant to carry (R115, R116): as SET_LEVELS asked for it, or what its working code
gives under the calibration in use. -/
def dacLevel (s : State) (k : Nat) : Frac :=
  match (s.dacst k).level with
  | some v => f32 v
  | none => dacVolts s k (s.dacst k).work

/-- The level that the DAC's output carries: its cloche code's in cloche (R117). -/
def levelOut (s : State) (k : Nat) : Frac :=
  if bedHeld s (dacBed k) then dacVolts s k (s.dacst k).cloche else dacLevel s k

/-- The thresholds of a pin's comparator are equal: it never reads M (R113, R119). -/
def sharpPin (s : State) (p : Nat) : Bool :=
  let h := levelOut s (4 * p + 2)
  let l := levelOut s (4 * p + 3)
  h.le l && l.le h

/-- A run is in progress that holds something of the bed (R44). -/
def calHoldsBed (s : State) (b : Nat) : Bool :=
  calHoldsTiming s b ||
  match s.cal.run with
  | some r =>
    ((decide (r.kind = 3) || decide (r.kind = 5)) && r.scopes.contains b) ||
    (decide (r.kind = 2) && r.scopes.any (fun u => decide (u / 2 = b))) ||
    (decide (r.kind = 4) && r.scopes.any (fun h => decide (h / 2 = b))) || decide (r.kind = 6)
  | none => false

end Sys2Proof.Machine
end

