-- ==== Sys2Proof/Machine/Timing.lean ====
section
/-! DEFINITION. Edge timing (spec/06): timing sets, DUT clocks, the delay-locked loop, and the placing of a vector's
edges at a pin. -/

namespace Sys2Proof.Machine

/-- Timing set `n` of bed `b`, and its group `g` (R155). -/
def tsetOf (s : State) (b n : Nat) : TSet := s.tsetAt (64 * b + n)
def groupOf (x : TSet) (g : Nat) : TGroup := tget (fun _ => {}) x.group g

/-- The six edges in the order of the table (R155). -/
def groupEdges (g : TGroup) : List Nat := [g.don, g.ddat, g.dret, g.doff, g.strb, g.wclose]

/-- The rules of R158 for one group against period `p`, in the order of the table; true is a breach. -/
def groupBreaches (p : Nat) (g : TGroup) : List (Bool × Nat) :=
  [(!(decide (g.don ≤ g.ddat) && decide (g.ddat ≤ g.dret) && decide (g.dret ≤ g.doff)), 1),
   (!decide (g.strb + 328 ≤ g.wclose), 1),
   ((groupEdges g).any (fun e => decide (4 * p - 1 < e)), 2),
   (decide (g.format ≠ 0) && !(decide (g.ddat + 328 ≤ g.dret) && (decide (g.don + 328 ≤ g.ddat) || decide (g.ddat = g.don))), 3),
   (!decide (g.doff + 328 ≤ p + g.don), 4),
   (!decide (g.wclose + 328 ≤ p + g.strb), 4)]

/-- The reason of the first rule that a timing set breaks: the period, then rule by rule (R158). -/
def tsetReason (x : TSet) : Option Nat :=
  if x.period < 1024 ∨ 4259840000 < x.period then some 5
  else (List.range 6).findSome? (fun r =>
    (List.range 8).findSome? (fun g =>
      match (groupBreaches x.period (groupOf x g))[r]? with
      | some (true, n) => some n
      | _ => none))

/-- GROUP_MASK of a TS_WRITE and its groups in rising order (R178). -/
def tsGroups (c : Current) : List Nat := maskList 8 (par c 2 / 256)

/-- The group that a 19-word block at word `i` carries. -/
def tsBlock (c : Current) (i : Nat) : TGroup :=
  { format := par c i % 4
    don := wAtN c.params (i + 1) 3
    ddat := wAtN c.params (i + 4) 3
    dret := wAtN c.params (i + 7) 3
    doff := wAtN c.params (i + 10) 3
    strb := wAtN c.params (i + 13) 3
    wclose := wAtN c.params (i + 16) 3 }

/-- A timing set with the command's fields written (R179). -/
def tsWritten (c : Current) (x : TSet) : TSet :=
  let x := if bit (par c 2) 0 then { x with period := par32 c 3 } else x
  (List.range (tsGroups c).length).foldl (fun x j =>
    { x with group := tset (fun _ => {}) x.group ((tsGroups c).getD j 0) (tsBlock c (5 + 19 * j)) }) x

/-- BAD_STATE 5 where a calibration holds the timing of a bed of the list (R168). -/
def needTimingFree (s : State) (beds : List Nat) : Option Bad :=
  firstOf beds (fun b => needState (!calHoldsTiming s b) 5)

/-- TS_WRITE (R178, R179). -/
def execTsWrite (s : State) : Host.Outcome State Fault Refusal :=
  .next (onCommand s 0x0200 (fun p => !bit (wAt p 2) 1) (fun c =>
    let beds := bedMask (par c 0)
    let n := par c 1
    let blocks := (rangeFrom 0 (tsGroups c).length).flatMap (fun j =>
      needZeroHigh c (5 + 19 * j) 2 :: (List.range 6).map (fun e => needZeroHigh c (8 + 19 * j + 3 * e) 3))
    checked s
      ([needParam (decide (par c 0 ≠ 0)) 0, needParam (decide (n < 64)) 1, needParam (decide (par c 2 &&& 0xFC = 0)) 2,
        if bit (par c 2) 0 then none else needZero c 3 2] ++ blocks ++
       [firstOf beds (fun b => match tsetReason (tsWritten c (tsetOf s b n)) with
          | some r => some (0x12, 0x8000 + r)
          | none => none),
        needRef s,
        firstOf beds (fun b => needState (!bedBusy s b) 1),
        needTimingFree s beds,
        needActive s beds])
      (fun s => postOk (beds.foldl (fun s b => s.modTsetAt (64 * b + n) (tsWritten c)) s) [w16 beds.length])))
where
  /-- A word of which only the low bits may be set: 2 in a FORMAT word, 3 in the high word of an edge. -/
  needZeroHigh (c : Current) (i n : Nat) : Option Bad := needBits c i n

/-- TS_READ (R180). -/
def execTsRead (s : State) : Host.Outcome State Fault Refusal :=
  .next (onCommand s 0x0200 (fun p => bit (wAt p 2) 1) (fun c =>
    let beds := bedMask (par c 0)
    let b := beds.headD 0
    let x := tsetOf s b (par c 1)
    let block := fun (g : Nat) =>
      w16 (groupOf x g).format :: (groupEdges (groupOf x g)).flatMap (fun e => toWords 3 e)
    checked s
      [needParam (decide (beds.length = 1)) 0, needParam (decide (par c 1 < 64)) 1,
       needParam (decide (par c 2 &&& 0xFD = 0) && decide ((tsGroups c).length ≤ 6)) 2,
       needRef s, needTimingFree s beds, needActive s beds]
      (fun s => postOk s
        ([w16 (par c 0), w16 (par c 1), w16 (1 + (par c 2 / 256) * 256)] ++ toWords 2 x.period ++ (tsGroups c).flatMap block))))

/-- Rising edge `k` of a grid (R172): rounded to the nearest fine step, ties upward. -/
def gridRise (x : ClockSet) (k : Nat) : Nat := (x.phase * 65536 + k * x.period + 32768) / 65536

/-- A grid index near the fine step `t`, from below. -/
def gridIndex (x : ClockSet) (t : Nat) : Nat := if x.period = 0 then 0 else ((t - x.phase) * 65536) / x.period - 1

/-- The first rising edge of the grid at or after `t`. -/
def nextRise (x : ClockSet) (t : Nat) : Nat :=
  ((rangeFrom (gridIndex x t) 4).map (gridRise x)).find? (fun r => decide (t ≤ r)) |>.getD t

/-- The last rising edge of the grid before `t` and not before `start`. -/
def lastRise (x : ClockSet) (start t : Nat) : Option Nat :=
  (((rangeFrom (gridIndex x t) 4).map (gridRise x)).filter (fun r => decide (r < t) && decide (start ≤ r))).getLast?

/-- The last rising edge of a run before `t`, from `lo` on and before `hi`. -/
def runRise (r : ClockRun) (lo : Int) (hi : Option Int) (t : Int) : Option Int :=
  let before := [r.stop, hi].foldl (fun m e => match e with | some e => min m e | none => m) t
  (lastRise r.set (max r.start lo - r.shift).toNat (before - r.shift).toNat).map (fun e => (e : Int) + r.shift)

/-- The first falling edge of a run at or after `t`, of a high phase begun from `lo` on; none if the run ends first. -/
def runFall (r : ClockRun) (lo t : Int) : Option Int :=
  let e := (nextRise r.set (max (max r.start lo) (t - r.set.high) - r.shift).toNat : Int) + r.shift
  match r.stop with
  | some u => if e < u then some (e + r.set.high) else none
  | none => some (e + r.set.high)

/-- The greatest of a list, if there is one; and the least. -/
def latest (l : List Int) : Option Int := l.foldl (fun m e => match m with | some a => some (max a e) | none => some e) none
def earliest (l : List Int) : Option Int := l.foldl (fun m e => match m with | some a => some (min a e) | none => some e) none

/-- The end of the last high phase that a generator began before fine step `t`: F of R174. -/
def clockTail (g : ClockGen) (t : Int) : Option Int :=
  latest (g.runs.filterMap (fun r => (runRise r 0 none t).map (fun e => e + r.set.high)))

/-- The first moment at which a new high phase may begin after a handover at `t` (R174). -/
def afterTail (t : Int) (f : Option Int) : Int := match f with | some f => max t (f + 328) | none => t

/-- A change, a start or a stop takes effect at fine step `t` (R174): the run in progress ends, high phases begun before
`t` keep their own falling edge, and a new run begins. -/
def handOverClock (g : ClockGen) (t : Int) (x : Option ClockSet) : List ClockRun :=
  let ended := (g.runs.map (fun r => if r.stop.isNone then { r with stop := some t } else r)).filter
    (fun r => decide (t < r.stop.getD t + r.set.high + 328))
  match x with
  | none => ended
  | some x => { set := x, start := afterTail t (clockTail g t) } :: ended

/-- A change, a start or a stop takes effect at Tc ticks (R174, R182). -/
def changeClock (g : ClockGen) (tc : Nat) (x : Option ClockSet) : ClockGen :=
  { running := x.isSome, set := x.getD g.set, runs := handOverClock g (256 * tc) x, change := none }

/-- What reaches a pin: each of its windows with each run of the window's generator (R173, R182). -/
def pinRuns (s : State) (p : Nat) : List (ClockWindow × ClockRun) :=
  (s.pinck p).windows.flatMap (fun w => (s.ckgen (4 * (p / 32) + w.gen)).runs.map (fun r => (w, r)))

/-- The end of the last high phase that reached a pin before `t`. -/
def pinTail (s : State) (p : Nat) (t : Int) : Option Int :=
  latest ((pinRuns s p).filterMap (fun e => (runRise e.2 e.1.start e.1.stop t).map (fun k => k + e.2.set.high)))

/-- The first falling edge at or after `t` of the clock that a pin follows (R168, R173, R175): `t` itself where its
generator makes none, being stopped (DESIGN CHOICE 169). -/
def pinFall (s : State) (p : Nat) (t : Int) : Int :=
  let open' := (pinRuns s p).filter (fun e => e.1.stop.isNone)
  max t ((earliest (open'.filterMap (fun e => runFall e.2 e.1.start t))).getD t)

/-- The pin follows its generator. -/
def follows (s : State) (p : Nat) : Bool := (s.pinck p).windows.any (fun w => w.stop.isNone)

/-- A window that ended more than 100 ms ago: no cycle that is still placed can ask for it. -/
def windowPast (s : State) (w : ClockWindow) : Bool :=
  w.stop.any (fun e => decide (e + 4259840000 ≤ 256 * (s.now : Int)))

/-- The open windows of a pin close at `t`; windows long past go. -/
def shutWindows (s : State) (p : Nat) (t : Int) : State :=
  s.modPinck p (fun x => { x with
    windows := (x.windows.filter (fun w => !windowPast s w)).map
                 (fun w => if w.stop.isNone then { w with stop := some t } else w) })

/-- The clock leaves a pin at its first falling edge at or after `t` (R168, R173, R175). -/
def leaveClock (s : State) (p : Nat) (t : Int) : State := if follows s p then shutWindows s p (pinFall s p t) else s

/-- The clock reaches a pin from the first rising edge at or after `t` (R173). -/
def joinClock (s : State) (p : Nat) (t : Int) : State :=
  if follows s p then s
  else s.modPinck p (fun x => { x with windows := { gen := x.gen, start := t } :: x.windows })

/-- The clock outputs of the bed are held at VIL by something other than a cloche: a calibration (R168), IDLE or STANDBY
(R175). -/
def clocksHeld (s : State) (b : Nat) : Bool := calHoldsTiming s b || !bedActive s b

/-- The clock outputs of bed `b` hold VIL from their next falling edge (R168, R175). -/
def holdClocks (s : State) (b : Nat) : State :=
  (rangeFrom (32 * b) 32).foldl (fun s p => leaveClock s p (256 * s.now)) s

/-- The pins of bed `b` that belong to no site follow their clocks again after a hold, IDLE or STANDBY (R168, R175), unless
something still holds them: from the first rising edge at least 328 fine steps on. -/
def resumeClocks (s : State) (b : Nat) : State :=
  if clocksHeld s b then s
  else (rangeFrom (32 * b) 32).foldl (fun s p =>
    if (pinSite s p).isNone then joinClock s p (256 * s.now + 328) else s) s

/-- At the release of a cloche every clock pin of bed `b` holds VIL (R175), and resumes if nothing else holds it. -/
def releaseClocks (s : State) (b : Nat) : State :=
  resumeClocks ((rangeFrom (32 * b) 32).foldl (fun s p => s.modPinck p (fun x => { x with windows := [], hold := none })) s) b

/-- The firing of a bed sync pulse moved by SYNC_JITTER (R530): a pseudo-random number of fine steps within ±AMOUNT, whose
generator the spec does not give: a free value. -/
def jitteredPulse (s : State) : State × Int :=
  if s.perturbed 2 2 || s.perturbed 2 3 then
    let a := (s.perturbAmount 2 2 + s.perturbAmount 2 3).toNat
    (s.takeFree, (s.freeNat % (2 * a + 1) : Nat) - (a : Int))
  else (s, 0)

/-- The sync pulse reaches the beds given: each loads its time base with chip time (R169); a pulse that fires late leaves
the base behind by as much. -/
def syncBeds (s : State) (beds : List Nat) : State :=
  let r := jitteredPulse s
  beds.foldl (fun s b => s.modBase b (fun _ => -r.2)) r.1

/-- The checks of a SET or STOP: bed, clock, WHEN and T (R181, R182). -/
def clockChecks (s : State) (c : Current) (params : List (Option Bad)) : List (Option Bad) :=
  [needParam (decide (par c 0 < 16)) 0, needParam (decide (par c 1 < 4)) 1] ++ params ++ needWhen c 10 ++
  [if par c 10 = 1 then needLead c (par64 c 11) 6 else none, needRef s, needTimingFree s [par c 0], needActive s [par c 0]]

/-- SET or STOP: NOW acts and cancels the pending change; AT replaces it (R182). -/
def clockCommand (s : State) (c : Current) (x : Option ClockSet) : State :=
  let k := 4 * par c 0 + par c 1
  let tc := if par c 10 = 1 then epochOf (par64 c 11) else epochOf s.now
  let replaced := decide (par c 10 = 1) && (s.ckgen k).change.isSome
  let s := if par c 10 = 1 then s.modCkgen k (fun g => { g with change := some { tc := tc, set := x } })
           else s.modCkgen k (fun g => changeClock g tc x)
  postOk s (w16 (b2n replaced) :: toWords 4 tc)

/-- CLOCK_OUT SET (R182). -/
def execClockOutSet (s : State) : Host.Outcome State Fault Refusal :=
  .next (onCommand s 0x0201 (fun p => decide (wAt p 2 = 0)) (fun c =>
    let per := wAtN c.params 3 3
    let whole := per / 65536
    checked s (clockChecks s c
      [needParam (decide (1024 ≤ whole) && decide (whole ≤ 4259840000)) 3,
       needParam (decide (328 ≤ par32 c 6) && decide (par32 c 6 + 328 ≤ whole)) 6,
       needParam (decide (par32 c 8 < whole)) 8])
      (fun s => clockCommand s c (some { period := per, high := par32 c 6, phase := par32 c 8 }))))

/-- CLOCK_OUT STOP (R182). Words 6 to 9, which the table gives as "SET only", must be 0 (DESIGN CHOICE 170). -/
def execClockOutStop (s : State) : Host.Outcome State Fault Refusal :=
  .next (onCommand s 0x0201 (fun p => decide (wAt p 2 = 1)) (fun c =>
    checked s (clockChecks s c [needZero c 3 7]) (fun s => clockCommand s c none)))

/-- A pin leaves its generator for another at fine step `t` (R182): a stop of the old output and a start of the new one by
R174. A pin that follows none is assigned alone. -/
def assignClock (s : State) (p ck : Nat) (t : Int) : State :=
  if (s.pinck p).gen = ck then s
  else if follows s p then
    let from' := afterTail t (pinTail s p t)
    (shutWindows s p t).modPinck p (fun x => { x with gen := ck, windows := { gen := ck, start := from' } :: x.windows })
  else s.modPinck p (fun x => { x with gen := ck })

/-- CLOCK_OUT ASSIGN (R182). PIN_COUNT = 0, for which the spec gives no bound, is refused as a range that word 3 names, and
words 6 to 9 must be 0 (DESIGN CHOICE 170). -/
def execClockOutAssign (s : State) : Host.Outcome State Fault Refusal :=
  .next (onCommand s 0x0201 (fun p => decide (wAt p 2 = 2)) (fun c =>
    let b := par c 0
    let pins := rangeFrom (par c 3) (par c 4)
    checked s
      [needParam (decide (b < 16)) 0, needParam (decide (par c 1 < 4)) 1,
       needParam (decide (1 ≤ par c 4) && decide (32 * b ≤ par c 3) && decide (par c 3 + par c 4 ≤ 32 * b + 32)) 3,
       needZero c 5 10, needRef s,
       firstOf pins (fun p => needState (!pinBusy s p) 1),
       needTimingFree s [b], needActive s [b]]
      (fun s => postOk (pins.foldl (fun s p => assignClock s p (par c 1) (256 * s.now)) s))))

/-- CLOCK_CHANGE_DUE (R174). -/
def execClockChangeDue (b : Bed) (ck : Fin 4) (s : State) : Host.Outcome State Fault Refusal :=
  .next (match (s.ckgen (4 * b.val + ck.val)).change with
    | some c => (s.reach c.tc).modCkgen (4 * b.val + ck.val) (fun g => changeClock g c.tc c.set)
    | none => s)

/-- What Kreif adds to the programmed time of an edge of pin `p` (R165): D_path of the drive or the compare path, K_bed and
M_bed. An edge falls due by the bed's own time base (R153, R169). -/
def edgeShift (s : State) (p : Nat) (comp : Bool) : Int :=
  dPath s p comp + kBed s (p / 32) + s.drift (p / 32) - s.base (p / 32)

/-- The last edge of a pin's clock at or before fine step `t` of the grid: its time, and whether it rises. -/
def lastClockEdge (s : State) (p : Nat) (t : Int) : Option (Int × Bool) :=
  ((pinRuns s p).filterMap (fun e => (runRise e.2 e.1.start e.1.stop (t + 1)).map (fun k =>
    if k + e.2.set.high ≤ t then (k + e.2.set.high, false) else (k, true)))).foldl
    (fun m e => match m with | some a => some (if a.1 ≤ e.1 then e else a) | none => some e) none

/-- Level of pin `p`'s clock at fine step `t` of chip time (R171 to R175): high from a placed rising edge to its falling
edge (R165, R530). While the bed's delay-locked loop is unlocked no edge is placed, and the level stands (R154). -/
def clockHigh (s : State) (p : Nat) (t : Int) : Bool :=
  let sh := edgeShift s p false + s.perturbAmount 1 (p / 32)
  let e := lastClockEdge s p (t - sh)
  let now := match e with | some e => e.2 | none => false
  match (s.pinck p).hold with
  | none => now
  | some h =>
    match h.since, e with
    | some u, some e => if u < e.1 + sh then now else h.high
    | _, _ => h.high

/-- The last edge that reached pin `p`'s pad by `t`: its placed time and the tap that its fine position selects (R165). -/
def clockEdge (s : State) (p : Nat) (t : Int) : Option (Int × Nat) :=
  let sh := edgeShift s p false + s.perturbAmount 1 (p / 32)
  (lastClockEdge s p (t - sh)).map (fun e => (e.1 + sh, tapOf s (p / 32) (e.1 + sh)))

/-- The driver after drive events were placed. -/
def driverAfter (d : Drive) (l : List EdgeEv) : Drive :=
  l.foldl (fun d e => match e.act with | .drive x => x | _ => d) d

/-- A strobe of the pin's vector `n` is still to come at fine step `t`. -/
def strobePending (s : State) (p n : Nat) (t : Int) : Bool :=
  (s.slices p).comp.any (fun e => decide (e.vector = n) && decide (t < e.placed))

/-- TDLL_UNLOCK (R154): drivers hold, events not yet placed are dropped, pending strobes judge fail. -/
def execTdllUnlock (b : Bed) (s : State) : Host.Outcome State Fault Refusal :=
  .next (
    let t : Int := 256 * s.now
    let s := (List.range 64).foldl (fun s q =>
      s.modSeq q (fun x => { x with
        judge := x.judge.map (fun j => { j with
          lost := j.lost ++ (List.range x.lanes.length).filter (fun i =>
            decide (x.lanes.getD i 0 / 32 = b.val) && strobePending s (x.lanes.getD i 0) j.vectors t) }) })) s
    let s := (rangeFrom (32 * b.val) 32).foldl (fun s p =>
      s.modSlices p (fun x => { x with
        driver := if bedHeld s b.val then x.driver else driverAfter x.driver (x.drive.filter (fun e => decide (e.placed ≤ t)))
        drive := []
        comp := []
        off := none })) s
    let s := (rangeFrom (32 * b.val) 32).foldl (fun s p =>
      let high := clockHigh s p t
      s.modPinck p (fun x => { x with hold := some { high := high } })) s
    (s.modTdll b.val (fun _ => false)).condition b.val 5 true)

/-- TDLL_RELOCK (R154): DUT clocks go on from their next edge. -/
def execTdllRelock (b : Bed) (s : State) : Host.Outcome State Fault Refusal :=
  .next (
    let s := (rangeFrom (32 * b.val) 32).foldl (fun s p =>
      s.modPinck p (fun x => { x with hold := x.hold.map (fun h => { h with since := some (256 * s.now) }) })) s
    (s.modTdll b.val (fun _ => true)).live b.val 5 false)

/-- Enforced throttle level of a zone (R461): the highest level held whose grace has ended. -/
def enforcedLevel (s : State) (z : Nat) : Nat :=
  let h := fun (n : Nat) => (s.level (16 + 4 * z + n)).held
  let e := s.zone z
  if h 2 && e.ended3 then 3 else if h 1 && e.ended2 then 2 else if h 0 && e.ended1 then 1 else 0

/-- The zone of a bed: its row die's (R451). -/
def bedZone (b : Nat) : Nat := b / 4 + 1

/-- Enforced level on a sequencer, over Z0 and the zones of its pins (R17). -/
def seqLevel (s : State) (q : Nat) : Nat :=
  ((0 :: (seqBeds s q).map bedZone).map (enforcedLevel s)).foldl max 0

/-- Period of a vector of sequencer `q` under timing set `n`: the lead bed's, not below the throttle floor
(R159, R161). -/
def vectorPeriod (s : State) (q n : Nat) : Nat :=
  let lead := ((s.seq q).lanes.headD 0) / 32
  let floor := match seqLevel s q with | 0 => 0 | 1 => 2048 | _ => 4096
  max floor (tsetOf s lead n).period

/-- Events of one stream moved by R163: each with its programmed time; events of a vector that share it stay together.
`last` is the previous event's time after its move, `same` the programmed and moved time of the vector's event before. -/
def moveEvents : Option Int → Option (Int × Int) → List (Int × EdgeAct) → List (Int × Int × Bool × EdgeAct)
  | _, _, [] => []
  | last, same, (t, a) :: r =>
    match same with
    | some (p, m) =>
      if p = t then (t, m, decide (m ≠ t), a) :: moveEvents last same r
      else
        let m' := if t < m + 328 then m + 328 else t
        (t, m', decide (m' ≠ t), a) :: moveEvents (some m') (some (t, m')) r
    | none =>
      let m' := match last with | some l => if t < l + 328 then l + 328 else t | none => t
      (t, m', decide (m' ≠ t), a) :: moveEvents (some m') (some (t, m')) r

/-- A driving code (R162). -/
def drives (code : Nat) : Bool := code = 0 || code = 1 || code = 10 || code = 11 || code = 13 || code = 14

/-- A code that compares or captures (R118). -/
def compares (code : Nat) : Bool := (4 ≤ code && code ≤ 7) || code = 10 || code = 11 || code = 12

/-- The code of a wait or hold cycle (R190, R200): compares masked; CAPT too in a hold cycle. -/
def maskedCode (hold : Bool) (code : Nat) : Nat :=
  if 4 ≤ code ∧ code ≤ 7 then 8 else if code = 10 then 0 else if code = 11 then 1
  else if code = 12 ∧ hold then 8 else code

/-- The code for KEEP (R119): the last executed one; before it, at a burst's first vector, 16, which keeps the held state
whatever the group's format. -/
def keptCode (x : PinState) : Nat := x.lastCode

/-- The code as the pin's mode reads it (R120). -/
def modeCode (mode code : Nat) : Nat :=
  if mode = 3 then (if drives code then 2 else code) else (if code = 9 then 2 else code)

/-- The data a driving code drives, true VIH (R118, R119). -/
def codeData (x : PinState) (code : Nat) : Bool :=
  if code = 1 ∨ code = 11 then true else if code = 13 then !x.lastData else false

def levelOf (b : Bool) : Drive := if b then .high else .low

/-- Level from DON to DDAT, and from DRET to DOFF (R156). `prev` is the level before. -/
def startLevel (format : Nat) (d : Bool) (prev : Drive) : Drive :=
  if format = 1 then .low else if format = 2 then .high else if format = 3 then levelOf (!d)
  else if prev = .off then .low else prev

def returnLevel (format : Nat) (d : Bool) : Drive :=
  if format = 1 then .low else if format = 2 then .high else if format = 3 then levelOf (!d) else levelOf d

/-- The drive edges of a vector before its DOFF (R156, R157, R162), at offsets from the cycle start; `prev` is the level
the driver is left at. Where a driving code came before (`on`), switching on is suppressed; a level change at DON stays. -/
def driveEdges (g : TGroup) (code : Nat) (d : Bool) (on : Bool) (prev : Drive) : List (Nat × EdgeAct) :=
  if code = 14 then (if on && decide (prev = .vtt) then [] else [(g.don, .drive .vtt)])
  else
    let st := startLevel g.format d prev
    (if on && decide (prev = st) then [] else [(g.don, .drive st)]) ++ [(g.ddat, .drive (levelOf d))] ++
    (if g.format = 0 then [] else [(g.dret, .drive (returnLevel g.format d))])

/-- Level the vector leaves on the driver until its DOFF (R121). -/
def leftLevel (g : TGroup) (code : Nat) (d : Bool) : Drive :=
  if drives code then (if code = 14 then .vtt else returnLevel g.format d) else .off

/-- Events of a slice whose time has come are placed; those of vectors eight and more before cycle `k` are lost (R164). -/
def serveSlice (l : List EdgeEv) (t : Int) (k : Nat) : List EdgeEv × List EdgeEv × List EdgeEv :=
  let done := l.filter (fun e => decide (e.placed ≤ t))
  let rest := l.filter (fun e => decide (t < e.placed))
  (done, rest.filter (fun e => decide (k < e.cycle + 8)), rest.filter (fun e => decide (e.cycle + 8 ≤ k)))

/-- What a lane's vector hands to the judgement: the code it judges by (16: none), the time of its last compare event,
and whether its strobe was not placed. -/
structure LaneShot where
  code : Nat
  last : Option Int
  lost : Bool
deriving DecidableEq, Repr

/-- Time passes on the pin's slices up to the site's cycle start `c` (R164): EDGE_LOST for each loss; the judgement of a
vector that lost a compare event fails. -/
def advancePin (s : State) (q lane p : Nat) (c : Int) : State :=
  let x := s.slices p
  let k := (s.seq q).cycle
  let (done, keep, lostD) := serveSlice x.drive c k
  let (_, keepC, lostC) := serveSlice x.comp c k
  let s := s.modSlices p (fun x => { x with
    drive := keep
    comp := keepC
    driver := if bedHeld s (p / 32) then x.driver else driverAfter x.driver done })
  let s := (lostD ++ lostC).foldl (fun s _ => s.raise (p / 32) 6 p) s
  if lostC.isEmpty then s
  else s.modSeq q (fun x => { x with
    judge := x.judge.map (fun j =>
      if lostC.any (fun e => decide (e.vector = j.vectors)) then { j with lost := j.lost ++ [lane] } else j) })

/-- The waiting DOFF of the vector before (R162): a vector that drives drops it, another one queues it. Answers the time
of the last drive event and what is queued. -/
def waitingOff (s : State) (p code : Nat) : State × Option Int × List EdgeEv :=
  let x := s.slices p
  match x.off with
  | some o =>
    if drives code then (s, x.lastDrive, [])
    else (if o.moved then s.raise (p / 32) 7 p o.vector else s, some o.time,
          [{ vector := o.vector, cycle := o.cycle, time := o.time, placed := o.placed, tap := tapOf s (p / 32) o.placed
             act := .drive o.leaves : EdgeEv }])
  | none => (s, x.lastDrive, [])

/-- The DOFF that a driving vector leaves waiting (R162), after its edges `moved` (R163), not yet compensated. -/
def leavesOff (moved : List (Int × Int × Bool × EdgeAct)) (lastDrive : Option Int) (n k : Nat) (time comp : Int) : Option OffEdge :=
  match moveEvents (match moved.getLast? with | some e => some e.2.1 | none => lastDrive)
      (moved.getLast?.map (fun e => (e.1, e.2.1))) [(time, .drive .off)] with
  | (_, t, mv, _) :: _ => some { vector := n, cycle := k, time := t, placed := t + comp, moved := mv, leaves := .off : OffEdge }
  | [] => none

/-- The drive edges of a code at offsets from the cycle start, its DOFF apart where a driving code waits for the next
vector (R118, R156, R162): CLKEN and the held state use none of the six. -/
def codeEdges (g : TGroup) (code mode : Nat) (d on : Bool) (prev : Drive) : List (Nat × EdgeAct) :=
  if drives code then driveEdges g code d on prev
  else if code = 9 ∨ code = 16 then []
  else [(g.doff, .drive (if code = 2 ∧ mode = 2 then .vtt else .off))]

/-- The drive and compare events of vector `n` at a pin, whose cycle `k` starts at `c`: moved by R163, compensated by R165,
and queued on the slices; a perturbation is there when R163 looks for collisions (R530). `on`: the code before was a driving
code. In cloche running codes do not drive (R139). -/
def placeEvents (s : State) (p n k c : Nat) (g : TGroup) (code : Nat) (d on : Bool) (lastDrive : Option Int)
    (queued : List EdgeEv) : State × LaneShot :=
  let b := p / 32
  let x := s.slices p
  let mute := bedHeld s b
  let at' := fun (e : Nat) => (c : Int) + e + s.perturbAmount 1 b
  let edges := if mute then [] else codeEdges g code (s.pinst p).mode d on (driverAfter x.driver x.drive)
  let moved := moveEvents lastDrive none (edges.map (fun e => (at' e.1, e.2)))
  let off := if drives code && !mute then leavesOff moved lastDrive n k (at' g.doff) (edgeShift s p false) else none
  let comps := if compares code then
      [(at' g.strb, EdgeAct.strb)] ++ (if code = 7 then [(at' g.wclose, .wclose)] else []) else []
  let movedC := moveEvents x.lastComp none comps
  let s := (moved ++ movedC).foldl (fun s e => if e.2.2.1 then s.raise b 7 p n else s) s
  let ev := fun (comp : Bool) (e : Int × Int × Bool × EdgeAct) =>
    ({ vector := n, cycle := k, time := e.2.1, placed := e.2.1 + edgeShift s p comp
       tap := tapOf s b (e.2.1 + edgeShift s p comp), act := e.2.2.2 } : EdgeEv)
  let s := s.modSlices p (fun x => { x with
    drive := if mute then [] else x.drive ++ queued ++ moved.map (ev false)
    comp := x.comp ++ movedC.map (ev true)
    lastDrive := match moved.getLast? with | some e => some e.2.1 | none => lastDrive
    lastComp := match movedC.getLast? with | some e => some e.2.1 | none => x.lastComp
    off := off })
  (s, { code := if compares code then code else 16
        last := movedC.getLast?.map (fun e => e.2.1)
        lost := false })

/-- Place the edges of one vector at a pin (R156 to R165) and answer its part of the judgement. `raw` is the lane's code,
`masked` none or whether the cycle is a hold cycle, `n` VECTORS at the vector, `c` the cycle start. -/
def placePin (s : State) (q lane p ts raw : Nat) (masked : Option Bool) (n c : Nat) : State × LaneShot :=
  let pin := s.pinst p
  let b := p / 32
  if pin.mode = 0 ∨ pin.mode = 4 then (s, { code := 16, last := none, lost := false })
  else
    let s := advancePin s q lane p c
    let base := if raw = 3 then keptCode pin else raw
    let eff := match masked with | some h => maskedCode h base | none => base
    let code := modeCode pin.mode eff
    let g := groupOf (tsetOf s b ts) pin.tgroup
    let d := codeData pin code
    -- the clock gate (R173)
    let s := if code = 9 then joinClock s p c else leaveClock s p c
    let s := if bedHeld s b then s else s.modPinst p (fun x => { x with
      lastCode := base
      lastData := if drives code && decide (code ≠ 14) then d else x.lastData
      held := if code = 16 then x.held else leftLevel g code d })
    if !s.tdll b then (s, { code := if compares code then code else 16, last := none, lost := compares code })
    else
      let w := waitingOff s p code
      placeEvents w.1 p n (s.seq q).cycle c g code d (decide (pin.held ≠ .off)) w.2.1 w.2.2

/-- At a burst's end the pin takes its held state (R121): the waiting DOFF is dropped, its clock leaves (R173). A driver
in cloche, or of a bed whose loop is unlocked, stays as it is (R139, R154). -/
def settlePin (s : State) (p c : Nat) : State :=
  let s := leaveClock s p c
  let pin := s.pinst p
  if pin.mode = 0 ∨ pin.mode = 4 then s
  else if bedHeld s (p / 32) || !s.tdll (p / 32) then s.modSlices p (fun x => { x with off := none })
  else s.modSlices p (fun x => { x with off := none, driver := pin.held })

/-- A pin's driver stands at a state, with no event of its slice to come. -/
def setDriver (s : State) (p : Nat) (d : Drive) : State :=
  s.modSlices p (fun x => { x with drive := [], off := none, driver := d })

/-- The drivers of bed `b` take their cloche drive states (R139). -/
def clocheDrivers (s : State) (b : Nat) : State :=
  (rangeFrom (32 * b) 32).foldl (fun s p => setDriver s p (s.pinst p).clocheDrive) s

/-- The drivers of bed `b` take their held states at the release of its cloche (R523). -/
def heldDrivers (s : State) (b : Nat) : State :=
  (rangeFrom (32 * b) 32).foldl (fun s p => setDriver s p (s.pinst p).held) s

/-- The first vector of a burst (R119): KEEP reads the held state, and the slices are empty. -/
def armPin (s : State) (p : Nat) : State :=
  (setDriver (s.modPinst p (fun x => { x with lastCode := 16 })) p (s.pinst p).held).modSlices p (fun x => { x with comp := [] })

end Sys2Proof.Machine
end

