-- ==== Sys2Proof/Machine/Segments.lean ====
section
/-! DEFINITION. Segments, the segment cache and the broadcast streams (spec/07): SEG_LOAD and its checks, the cache's
slots and pins, what the streamer fetches, STREAM_OPEN, and the arming of a BURST_RUN, whose entry segment the cache
must hold first. -/

namespace Sys2Proof.Machine

/-- Bytes of a vector of width `w` (R184). -/
def vectorBytes (w : Nat) : Nat := 2 * (2 + (w + 3) / 4)

/-- Bytes of a segment, and its slots of 8 KiB (R184, R196). -/
def segBytes (g : Segment) : Nat := vectorBytes g.width * g.vectors
def segSlots (g : Segment) : Nat := (segBytes g + 8191) / 8192

/-- A DRAM word. -/
def dramWord (s : State) (a : Nat) : Nat := (s.dramByte a).toNat + 256 * (s.dramByte (a + 1)).toNat

/-- A vector as the sequencer reads it (R184). -/
structure Vec where
  op      : Nat
  tset    : Nat
  spare   : Bool
  clrfail : Bool
  trig    : Bool
  log     : Bool
  operand : Nat
  codes   : List Nat
deriving DecidableEq, Repr

/-- The vector of width `w` that begins at word `b` of a segment whose words `rd` gives (R184). -/
def vecOf (rd : Nat → Nat) (w b : Nat) : Vec :=
  let c := rd b
  { op := bits c 10 6, tset := bits c 4 6, spare := bit c 3, clrfail := bit c 2, trig := bit c 1, log := bit c 0
    operand := rd (b + 1)
    codes := (List.range w).map (fun j => bits (rd (b + 2 + j / 4)) (4 * (j % 4)) 4) }

/-- Vector `i` of a segment at DRAM byte `a` of width `w` (R184). -/
def vecAt (s : State) (a w i : Nat) : Vec := vecOf (fun k => dramWord s (a + 2 * k)) w (i * (vectorBytes w / 2))

/-- What a fetch of a segment puts into the cache (R196): its words as DRAM holds them. -/
def readSegment (s : State) (g : Segment) : Cached :=
  { width := g.width, vectors := g.vectors, hold := g.hold
    words := (List.range (segBytes g / 2)).map (fun k => w16 (dramWord s (g.addr + 2 * k))) }

/-- Vector `i` of a segment's copy in the cache: what a site executes (R196). -/
def cachedVec (c : Cached) (i : Nat) : Vec := vecOf (fun k => wAt c.words k) c.width (i * (vectorBytes c.width / 2))

/-- The reason a vector alone breaks R186, the nesting of reason 4 apart. -/
def vecReason (v : Vec) (last : Bool) : Option Nat :=
  if 0x0C ≤ v.op then some 1
  else if v.codes.contains 15 then some 2
  else if (v.op = 4 ∨ v.op = 5 ∨ v.op = 6 ∨ v.op = 7 ∨ v.op = 11) ∧ !last then some 3
  else if (v.op = 1 ∨ v.op = 2 ∨ v.op = 9) ∧ v.operand = 0 then some 5
  else if (v.op = 0 ∨ v.op = 3 ∨ v.op = 5 ∨ v.op = 11) ∧ v.operand ≠ 0 then some 5
  else if v.op = 8 ∧ 8 ≤ v.operand then some 5
  else if (v.op = 4 ∨ v.op = 6 ∨ v.op = 7) ∧ 4095 < v.operand then some 6
  else if v.spare then some 7
  else none

/-- Vectors at which LOOP and END_LOOP are not nested (R186): unmatched END_LOOPs and LOOPs, the two exceptions apart.
The list gives the vectors' opcodes; the stack holds open LOOPs. -/
def nestBad (n : Nat) : List Nat → Nat → List Nat → List Nat
  | [], _, open' => open'.filter (fun i => decide (i ≠ 0))
  | op :: r, i, open' =>
    if op = 2 then nestBad n r (i + 1) (i :: open')
    else if op = 3 then
      match open' with
      | _ :: t => nestBad n r (i + 1) t
      | [] => if i + 1 = n then nestBad n r (i + 1) [] else i :: nestBad n r (i + 1) []
    else nestBad n r (i + 1) open'

/-- The first offending vector of a segment and its reason (R186); `ue` is the vector of an uncorrectable error. -/
def segReason (s : State) (a w n : Nat) (ue : Option Nat) : Option (Nat × Nat) :=
  let vs := (List.range n).map (vecAt s a w)
  let nest := nestBad n (vs.map (fun v => v.op)) 0 []
  (List.range n).findSome? (fun i =>
    if ue = some i then some (i, 8)
    else match vecReason (vs.getD i (vecAt s a w i)) (decide (i + 1 = n)), nest.contains i with
      | some r, true => some (i, min r 4)
      | some r, false => some (i, r)
      | none, true => some (i, 4)
      | none, false => none)

/-- The DRAM data space in MiB, the pattern area in bytes (R205). -/
def dataMib (s : State) : Nat := 7 * s.bus.dramMib / 8
def patternBytes (s : State) : Nat := (s.pat.patternMib.getD (dataMib s / 2)) * 2 ^ 20

/-- Segments named in the list of an open stream. -/
def listed (s : State) (g : Nat) (p : Nat → Bool) : Bool :=
  (List.range 4).any (fun n => (s.strm n).isOpen && p n && (s.strm n).list.contains g)

/-- A burst runs on stream `n` (R223). -/
def streamBusy (s : State) (n : Nat) : Bool := (tents s.pat.seq).any (fun e => decide (e.2.mode ≠ .idle) && decide (e.2.stream = n))

/-- A site runs segment `g` now. -/
def executing (s : State) (g : Nat) : Bool :=
  (tents s.pat.seq).any (fun e => decide (e.2.mode ≠ .idle) && decide (e.2.mode ≠ .armed) && decide (e.2.segment = g))

/-- A segment is active (R207). -/
def segActive (s : State) (g : Nat) : Bool :=
  listed s g (streamBusy s) || executing s g || decide (0 < (s.segm g).loopPins)

/-- Stream width: the width of the list's segments (R194). -/
def streamWidth (s : State) (n : Nat) : Option Nat := if (s.strm n).list.isEmpty then none else some (s.strm n).width

/-- `w` is the width of every open stream whose list names segment `g` (R207). -/
def keepsWidth (s : State) (g w : Nat) : Bool :=
  (List.range 4).all (fun n => !((s.strm n).isOpen && (s.strm n).list.contains g) || decide ((s.strm n).width = w))

/-- The segment is pinned (R196), and the slots that pins hold. -/
def pinned (g : Segment) : Bool := g.hostPin || decide (0 < g.loopPins) || decide (0 < g.entryPins)
def pinSlots (s : State) : Nat := (((tents s.pat.segment).filter (fun e => pinned e.2)).map (fun e => segSlots e.2)).sum

/-- A pin of segment `g` stays within the budget of 3 584 slots (R196). -/
def pinFits (s : State) (g : Nat) : Bool :=
  pinned (s.segm g) || decide (pinSlots s + segSlots (s.segm g) ≤ 3584)

/-- Segments in the prefetch window of a running site (R198): its current entry and PREFETCH entries beyond. -/
def windowOf (s : State) (x : SeqState) : List Nat :=
  let t := s.strm x.stream
  (t.list.drop x.entry).take (t.prefetch + 1)

/-- A running site. -/
def siteRuns (x : SeqState) : Bool := decide (x.mode ≠ .idle) && decide (x.mode ≠ .ending)

/-- A slot of the segment may be evicted (R197). -/
def evictable (s : State) (g : Nat) : Bool :=
  (s.segm g).resident && !pinned (s.segm g) && !executing s g &&
  !((tents s.pat.seq).any (fun e => siteRuns e.2 && (windowOf s e.2).contains g))

/-- Entry of a list, if there is one. -/
def entrySeg (s : State) (n e : Nat) : Option Nat := (s.strm n).list[e]?

/-- The target that the last vector of a running instance names, when it is CALL, JUMP or BRANCH_FAIL, and the target of
a pending jump request (R198, R210). -/
def namedTargets (s : State) (x : SeqState) : List Nat :=
  let g := (s.segm x.segment).copy
  let v := cachedVec g (g.vectors - 1)
  let l := (if x.mode ≠ .armed ∧ (v.op = 4 ∨ v.op = 6 ∨ v.op = 7) then [v.operand] else []) ++
    (match x.jump with | some j => [j.target] | none => [])
  l.filterMap (entrySeg s x.stream)

/-- The entry segment that a BURST_RUN under check waits for. -/
def entryWanted (s : State) : Option Nat :=
  match s.fw.current with
  | some c => if c.wait = .entry then entrySeg s (par c 4) (par c 5) else none
  | none => none

/-- Segment `g` can be fetched: it is registered, not resident, and not left unusable (R195, R196). SEG_PIN FETCH, the only
way to retry one left unusable, takes that mark away (R221). -/
def fetchable (s : State) (g : Nat) : Bool := let x := s.segm g; x.registered && !x.resident && !x.unusable

/-- The running sites of stream `n`. -/
def sitesOf (s : State) (n : Nat) : List SeqState :=
  ((tents s.pat.seq).filter (fun e => siteRuns e.2 && decide (e.2.stream = n))).map (fun e => e.2)

/-- Segments that the streamer wants of open stream `n` at one of the priorities of R198, the first first: 0 what a site in
starve-hold or a BURST_RUN under check waits for, 1 the named targets of running instances and jumps, 2 the list entries
ahead of each running site, nearest first, and 3, which R198 does not order, the first entries of a stream on which no burst
runs (R223; DESIGN CHOICE 171). -/
def wantedOf (s : State) (n prio : Nat) : List Nat :=
  let x := s.strm n
  let l := sitesOf s n
  if !x.isOpen then []
  else if prio = 0 then
    l.filterMap (fun e => if e.mode = .starveHold then entrySeg s n e.awaited else none) ++
      (if s.fw.current.any (fun c => decide (par c 4 = n)) then (entryWanted s).toList else [])
  else if prio = 1 then l.flatMap (namedTargets s)
  else if prio = 2 then (List.range 65).flatMap (fun d => l.filterMap (fun e => (windowOf s e)[d]?))
  else if streamBusy s n then [] else x.list.take x.prefetch

/-- Segments that SEG_PIN has queued (R221). -/
def queuedSegs (s : State) : List Nat := ((tents s.pat.segment).filter (fun e => e.2.queued)).map (fun e => e.1)

/-- The next segment to fetch, with the stream whose turn follows (R198): by priority, the streams taking turns within one;
then what SEG_PIN has queued. -/
def nextFetch (s : State) : Option (Nat × Nat) :=
  ((List.range 4).findSome? (fun prio => (rangeFrom s.pat.turn 4).findSome? (fun k =>
    ((wantedOf s (k % 4) prio).find? (fetchable s)).map (fun g => (g, (k + 1) % 4))))).or
  (((queuedSegs s).find? (fetchable s)).map (fun g => (g, s.pat.turn)))

/-- A streamer with no fetch in progress begins the next (R198), with what DRAM_LATENCY adds to its read (R530). In IDLE with STEM = 1, and during its block reset,
it does nothing (R41, R42). -/
def startFetch (s : State) : State :=
  if s.pat.fetch.isSome || s.clk.stemIdle || s.blkReset 0x14 then s
  else match nextFetch s with
    | some (g, t) => { s with pat := { s.pat with
        fetch := some g, turn := t, fetchReady := s.now + ((s.perturbAmount 6 0).toNat * 16 + 4) / 5 } }
    | none => s

/-- A fetch of `g` is in progress. -/
def fetching (s : State) (g : Nat) : Bool := decide (s.pat.fetch = some g)

/-- Slots in use. -/
def usedSlots (s : State) : Nat := (((tents s.pat.segment).filter (fun e => e.2.resident)).map (fun e => segSlots e.2)).sum

/-- Evict least recently used segments until `need` slots are free, at most `n` of them (R197); none: no room. -/
def makeRoom (s : State) (need : Nat) : Nat → Option State
  | 0 => if usedSlots s + need ≤ 4096 then some s else none
  | n + 1 =>
    if usedSlots s + need ≤ 4096 then some s
    else
      let l := (tents s.pat.segment).filter (fun e => evictable s e.1)
      match l.find? (fun e => l.all (fun f => decide (e.2.used ≤ f.2.used))) with
      | some e => makeRoom (s.modSegm e.1 (fun x => { x with resident := false, copy := {} })) need n
      | none => none

/-- SEG_LOAD (R220): start the read, or unregister. SEG_ACTIVE holds too while a site waits for the segment in starve-hold
(R195 names the registration as its recovery, R207 refuses it: DESIGN CHOICE 172). -/
def execSegLoad (s : State) : Host.Outcome State Fault Refusal :=
  .next (onCommand s 0x0300 (fun _ => true) (fun c =>
    let g := par c 0
    let unreg := bit (par c 7) 1
    let a := 64 * par32 c 1
    let n := par32 c 3
    let w := par c 5
    let params := if unreg then [needParam (decide (g < 16384)) 0, needParam (decide (par c 7 < 4)) 7]
      else [needParam (decide (g < 16384)) 0,
        needParam (decide (a + vectorBytes w * n ≤ patternBytes s)) 1,
        needParam (decide (16 ≤ n) && decide (n ≤ 65536)) 3,
        needParam (decide (1 ≤ w) && decide (w ≤ 512) &&
          keepsWidth s g w) 5,
        needParam (!bit (par c 7) 0 || decide (par c 6 < n)) 6,
        needParam (decide (par c 7 < 4)) 7]
    checked s (params ++ [needTag s c.tag.toNat, if segActive s g then some (0x16, g) else none])
      (fun s =>
        let s := accept s c 0
        if unreg then
          endWork (s.modSegm g (fun _ => {})) (workEnd s c.tag.toNat c.ring.toNat 0 0 0 0 1 0 0 0)
        else { s with pat := { s.pat with
          loads := s.pat.loads ++ [{ tag := c.tag.toNat, segment := g, addr := a, vectors := n, width := w
                                     hold := if bit (par c 7) 0 then some (par c 6) else none }] } })))

/-- SEG_LOAD_DONE (R186, R220): the oldest read ends. A segment that has become listed or active since the command was
accepted is registered all the same, and its copy is no longer resident; an instance under way keeps running from what the
cache held (DESIGN CHOICE 173). A host pin that the new extent takes beyond the budget of R196 is released (DESIGN CHOICE
174). -/
def execSegLoadDone (ue : Option Nat) (s : State) : Host.Outcome State Fault Refusal :=
  .next (match s.pat.loads with
    | [] => s
    | l :: r =>
      let ring := (s.prog l.tag).ring.toNat
      let s := { s with pat := { s.pat with loads := r } }
      match segReason s l.addr l.width l.vectors ue with
      | some (i, reason) => endWork s (workEnd s l.tag ring 0x12 (0x8000 + reason) 0 0 1 0 0 i)
      | none =>
        let s := s.modSegm l.segment (fun x => { x with
          registered := true
          addr := l.addr
          vectors := l.vectors
          width := l.width
          hold := l.hold
          resident := false
          copy := if executing s l.segment then x.copy else {}
          unusable := false
          retried := false })
        let s := if pinSlots s ≤ 3584 then s else s.modSegm l.segment (fun x => { x with hostPin := false })
        startFetch (endWork s (workEnd s l.tag ring 0 0 0 0 1 0 0 0)))

/-- The SEG of a SEG_PIN and its ACTION. -/
def segPinChecks (s : State) (c : Current) : List (Option Bad) :=
  [needParam (decide (par c 0 < 16384) && (s.segm (par c 0)).registered) 0]

/-- PIN and FETCH answer once the segment is resident (R221). -/
def segPinAnswer (s : State) (c : Current) : State :=
  if (s.segm (par c 0)).resident then postOk s [w16 (segSlots (s.segm (par c 0)))] else waitFor (startFetch s) .segPin

/-- SEG_PIN PIN (R221). -/
def execSegPinPin (s : State) : Host.Outcome State Fault Refusal :=
  .next (onCommand s 0x0301 (fun p => decide (wAt p 1 = 0)) (fun c =>
    checked s (segPinChecks s c ++ [needBusy (pinFits s (par c 0)) 0])
      (fun s => segPinAnswer (s.modSegm (par c 0) (fun x => { x with hostPin := true, queued := !x.resident })) c)))

/-- SEG_PIN UNPIN (R221). -/
def execSegPinUnpin (s : State) : Host.Outcome State Fault Refusal :=
  .next (onCommand s 0x0301 (fun p => decide (wAt p 1 = 1)) (fun c =>
    checked s (segPinChecks s c)
      (fun s => postOk (s.modSegm (par c 0) (fun x => { x with hostPin := false })) [w16 (segSlots (s.segm (par c 0)))])))

/-- SEG_PIN UNPIN_ALL (R221): the host pin and every loop pin; entry pins stay. -/
def execSegPinUnpinAll (s : State) : Host.Outcome State Fault Refusal :=
  .next (onCommand s 0x0301 (fun p => decide (wAt p 1 = 2)) (fun c =>
    checked s (segPinChecks s c)
      (fun s =>
        let g := par c 0
        let s := s.modSegm g (fun x => { x with hostPin := false, loopPins := 0 })
        let s := (List.range 64).foldl (fun s q => s.modSeq q (fun x => { x with
          loops := x.loops.map (fun f => { f with pins := f.pins.filter (fun i => decide (i ≠ g)) }) })) s
        postOk s [w16 (segSlots (s.segm g))])))

/-- SEG_PIN FETCH (R221). -/
def execSegPinFetch (s : State) : Host.Outcome State Fault Refusal :=
  .next (onCommand s 0x0301 (fun p => decide (wAt p 1 = 3)) (fun c =>
    checked s (segPinChecks s c)
      (fun s => segPinAnswer (s.modSegm (par c 0) (fun x => { x with queued := !x.resident, unusable := x.unusable && x.resident })) c)))

/-- SEG_PIN_RESIDENCY_TIMEOUT (R221): 5 ms have passed; the fetch stays queued, a host pin stays in place. -/
def execSegPinResidencyTimeout (s : State) : Host.Outcome State Fault Refusal :=
  .next (if waitsFor s .segPin then postBad s (0x10, 1) else s)

/-- The width of a stream once identifiers are appended: the list's, or the first one's (R194). -/
def widthWith (s : State) (n : Nat) (old l : List Nat) : Nat :=
  if old.isEmpty then (s.segm (l.headD 0)).width else (s.strm n).width

/-- With no DRAM every STREAM_OPEN is BAD_STATE, DETAIL 7 (R204): what its words say of DRAM's content is not asked. -/
def needDram (s : State) : Option Bad := needState (decide (s.bus.dramMib ≠ 0)) 7

/-- Identifiers of an OPEN or APPEND, checked in order against the list they extend (R223). -/
def streamEntries (s : State) (c : Current) (old : List Nat) : List (Option Bad) :=
  let l := (rangeFrom 5 (par c 4)).map (par c)
  let width := widthWith s (par c 0) old l
  [needDram s, needEach (List.range l.length) 5 (fun i =>
    let g := l.getD i 0
    decide (g < 16384) && (s.segm g).registered && decide ((s.segm g).width = width) && decide (old.length + i < 4096))]

def streamParams (c : Current) : List (Option Bad) :=
  [needParam (decide (par c 0 < 4)) 0, needParam (decide (par c 2 < 2)) 2, needParam (decide (par c 3 ≤ 64)) 3,
   needParam (decide (par c 4 ≤ 114)) 4]

/-- PREFETCH as given, 0 meaning 8 (R222). -/
def prefetchOf (c : Current) : Nat := if par c 3 = 0 then 8 else par c 3

/-- STREAM_OPEN OPEN (R223). -/
def execStreamOpenOpen (s : State) : Host.Outcome State Fault Refusal :=
  .next (onCommand s 0x0302 (fun p => decide (wAt p 1 = 0)) (fun c =>
    checked s (streamParams c ++ streamEntries s c [] ++
        [needState (!(s.strm (par c 0)).isOpen) 1])
      (fun s =>
        let l := (rangeFrom 5 (par c 4)).map (par c)
        let w := widthWith s (par c 0) [] l
        postOk (startFetch (s.modStrm (par c 0) (fun _ =>
          { isOpen := true, list := l, width := w, sealed := bit (par c 2) 0, prefetch := prefetchOf c }))) [w16 l.length])))

/-- STREAM_OPEN APPEND (R223): the sites starved past the list's end count the entry as supplied now (R200). -/
def execStreamOpenAppend (s : State) : Host.Outcome State Fault Refusal :=
  .next (onCommand s 0x0302 (fun p => decide (wAt p 1 = 1)) (fun c =>
    let n := par c 0
    let old := (s.strm n).list
    checked s (streamParams c ++ streamEntries s c old ++
        [needState (s.strm n).isOpen 4, needState (!(s.strm n).sealed) 2])
      (fun s =>
        let l := old ++ (rangeFrom 5 (par c 4)).map (par c)
        let w := widthWith s n old ((rangeFrom 5 (par c 4)).map (par c))
        let s := s.modStrm n (fun x => { x with list := l, width := w, sealed := bit (par c 2) 0, prefetch := prefetchOf c })
        let s := (List.range 64).foldl (fun s q => s.modSeq q (fun x =>
          if x.mode = .starveHold ∧ x.stream = n ∧ old.length ≤ x.awaited ∧ x.awaited < l.length then { x with residentAt := s.now } else x)) s
        postOk (startFetch s) [w16 l.length])))

/-- STREAM_OPEN CLOSE (R223); SEAL, PREFETCH and COUNT have no meaning here. -/
def execStreamOpenClose (s : State) : Host.Outcome State Fault Refusal :=
  .next (onCommand s 0x0302 (fun p => decide (wAt p 1 = 2)) (fun c =>
    checked s [needParam (decide (par c 0 < 4)) 0, needBits c 2 1, needDram s, needState (s.strm (par c 0)).isOpen 4,
        needState (!streamBusy s (par c 0)) 1]
      (fun s => postOk (s.modStrm (par c 0) (fun _ => {})) [0])))

/-- STREAM_OPEN MAP (R223); SEAL and PREFETCH have no meaning here. -/
def execStreamOpenMap (s : State) : Host.Outcome State Fault Refusal :=
  .next (onCommand s 0x0302 (fun p => decide (wAt p 1 = 3)) (fun c =>
    checked s [needParam (decide (par c 0 < 4)) 0, needBits c 2 1,
        needDram s,
        needParam (decide (1 ≤ par c 4) && decide (par c 4 ≤ dataMib s)) 4,
        needState ((List.range 4).all (fun n => !(s.strm n).isOpen) && (tents s.harv.ring).all (fun e => decide (e.2.state = .free))) 3]
      (fun s => postOk { s with pat := { s.pat with patternMib := some (par c 4) } } [0])))

/-- Sequencers of a SEQ_MASK in words 0 to 3, rising. -/
def seqMask (c : Current) : List Nat := maskList 64 (par64 c 0)

/-- Units of a FAIL_SUMMARY of `n` lanes (R386). -/
def summaryUnits (n : Nat) : Nat := (48 + 4 * n + 15) / 16

/-- Arm one site (R225, R227): its progress entry, its end credit (R214), its settings. -/
def armSite (s : State) (c : Current) (tag q : Nat) (start : BurstStart) : State :=
  let fl := par c 11
  let hdr := c.ring.toNat
  let result := ringOf c (par c 13)
  let s := beginWork s tag 0x0303 hdr 1 false
  let lanes := (s.seq q).lanes
  let (s, held) := match reserve s result (summaryUnits lanes.length) with
    | some t => (t, true)
    | none => (joinWaiters s result (.burstEnd q) (summaryUnits lanes.length), false)
  let s := lanes.foldl armPin s
  s.modSeq q (fun _ => {
    lanes := lanes
    mode := .armed
    stream := par c 4
    tag := tag
    ring := hdr
    resultRing := result
    starveAbort := bit fl 0
    segEvents := bit fl 1
    logMode := bits fl 2 2
    failLimit := par c 12
    start := start
    entry := par c 5
    endCredit := held
    entryPin := entrySeg s (par c 4) (par c 5) })

/-- The last part of BURST_RUN once the entry segment is resident (R225, R226): every site ARMED, the response posted. -/
def armBurst (s : State) (c : Current) : State :=
  let l := seqMask c
  let g := (entrySeg s (par c 4) (par c 5)).getD 0
  let start := startOf s c 6 (bits (par c 11) 4 2) (bit (par c 11) 6)
  if par c 6 = 1 ∧ startTicks start < s.now + 6400 then
    postBad (s.modSegm g (fun x => { x with entryPins := x.entryPins - l.length })) (0x12, 0x8004)
  else
    let tag := c.tag.toNat
    let s := startFetch ((List.range l.length).foldl (fun s i => armSite s c (tag + i) (l.getD i 0) start) s)
    let short := (List.range l.length).filter (fun i =>
      !(s.seq (l.getD i 0)).endCredit || !s.harv.credit.any (fun x => decide (x.1 = tag + i)))
    postResponse s 1 0 ([w16 l.length] ++ toWords 4 (startTicks start) ++ [c.tag, w16 short.length])

/-- BURST_RUN (R224 to R226). With the stem pattern blocks in IDLE (R42) it is refused like a bed in IDLE (DEDUCED 175). -/
def execBurstRun (s : State) : Host.Outcome State Fault Refusal :=
  .next (onCommand s 0x0303 (fun _ => true) (fun c =>
    let l := seqMask c
    let n := par c 4
    let tag := c.tag.toNat
    let beds := bedsOfPins (l.flatMap (fun q => (s.seq q).lanes))
    let isOpen := decide (n < 4) && (s.strm n).isOpen
    let g := (entrySeg s n (par c 5)).getD 0
    checked s
      ([needParam (decide (par64 c 0 ≠ 0) && (!isOpen || l.all (fun q =>
          match streamWidth s n with | some w => decide ((s.seq q).lanes.length = w) | none => true))) 0,
        needParam isOpen 4,
        needParam (decide (par c 5 < (s.strm n).list.length)) 5] ++ needStart c 6 ++
       [needParam (decide (par c 11 < 128)) 11,
        needRing s (par c 13) 13,
        if par c 6 = 1 then needLead c (par64 c 7) 4 else none,
        if tag + l.length - 1 ≤ 0xFFF then none else some (0x12, 0xFF01),
        firstOf (rangeFrom tag l.length) (fun t => needState (!tagInUse s t) t),
        needRef s,
        firstOf beds (needFree s),
        firstOf l (fun q => if seqLevel s q = 3 then some (0x14, t3Zone s q) else none),
        firstOf l (fun q => needState (!seqBusy s q) 1),
        firstOf beds (fun b => needState (!calHolds s b) 5),
        needActive s beds,
        needState (!s.clk.stemIdle) 6,
        needBusy (pinFits s g) n])
      (fun s =>
        let s := s.modSegm g (fun x => { x with entryPins := x.entryPins + l.length })
        if (s.segm g).resident then armBurst s c else startFetch (waitFor s .entry))))
where
  /-- The lowest zone of the sequencer that enforces T3. -/
  t3Zone (s : State) (q : Nat) : Nat :=
    ((0 :: (seqBeds s q).map bedZone).find? (fun z => decide (enforcedLevel s z = 3))).getD 0

/-- A BURST_RUN that waits for its entry segment gives up: its entry pins go (R225). -/
def dropEntryPins (s : State) : State :=
  match s.fw.current with
  | some c =>
    if c.wait = .entry then
      s.modSegm ((entrySeg s (par c 4) (par c 5)).getD 0) (fun x => { x with entryPins := x.entryPins - (seqMask c).length })
    else s
  | none => s

/-- BURST_RUN_ENTRY_TIMEOUT (R225): the entry segment did not become resident within 1 ms. -/
def execBurstRunEntryTimeout (s : State) : Host.Outcome State Fault Refusal :=
  .next (match s.fw.current with
    | some c => if c.wait = .entry then postBad (dropEntryPins s) (0x10, par c 4) else s
    | none => s)

/-- A site waits on an entry whose segment cannot be used (R195). -/
def entryUnusable (s : State) (x : SeqState) (e : Nat) : Bool :=
  match entrySeg s x.stream e with
  | some g => !(s.segm g).registered || (s.segm g).unusable
  | none => false

/-- Some site waits on an entry whose segment cannot be used: LIVE of SEG_UNUSABLE (R195). -/
def unusableWait (s : State) : Bool :=
  (tents s.pat.seq).any (fun e => decide (e.2.mode = .starveHold) && entryUnusable s e.2 e.2.awaited)

/-- Site `q`, in starve-hold, raises SEG_UNUSABLE once for an awaited entry that cannot be used (R195, R514). -/
def tellUnusable (s : State) (q : Nat) : State :=
  let x := s.seq q
  let u := decide (x.mode = .starveHold) && entryUnusable s x x.awaited
  let s := s.modSeq q (fun x => { x with unusable := u })
  if u && !x.unusable then s.raise 0x14 0 x.stream x.awaited else s

/-- Every site looks at the entry it waits for, and LIVE of SEG_UNUSABLE follows (R195). -/
def tellSites (s : State) : State :=
  let s := (List.range 64).foldl tellUnusable s
  s.live 0x14 0 (unusableWait s)

/-- A segment has become resident: the firmware's wait, and the sites that starve on it, see it (R200, R221, R225). -/
def nowResident (s : State) (g : Nat) : State :=
  let s := (List.range 64).foldl (fun s q => s.modSeq q (fun x =>
    if x.mode = .starveHold ∧ entrySeg s x.stream x.awaited = some g then { x with residentAt := max x.residentAt s.now } else x)) s
  match s.fw.current with
  | some c =>
    if c.wait = .entry ∧ entrySeg s (par c 4) (par c 5) = some g then armBurst s c
    else if c.wait = .segPin ∧ par c 0 = g then postOk s [w16 (segSlots (s.segm g))]
    else s
  | none => s

/-- The fetch in progress is over: the streamer turns to the next (R198). -/
def endFetch (s : State) : State := startFetch { s with pat := { s.pat with fetch := none } }

/-- A fetched segment that cannot be used (R195, R203). -/
def spoilSegment (s : State) (g : Nat) : State :=
  tellSites (s.modSegm g (fun x => { x with queued := false, unusable := true, retried := false }))

/-- The bytes of segment `g` have come from DRAM (R196, R207): they fill its slots, once there is room, unless they break
R186. -/
def landSegment (s : State) (g : Nat) : State :=
  let x := s.segm g
  match segReason s x.addr x.width x.vectors none with
  | some _ => endFetch (spoilSegment s g)
  | none =>
    match makeRoom s (segSlots x) 4096 with
    | none => s
    | some t =>
      let copy := readSegment s x
      endFetch (nowResident (t.modSegm g (fun x => { x with
        resident := true, copy := copy, queued := false, unusable := false, retried := false, used := t.now })) g)

/-- SEGMENT_FETCH_DONE (R195, R196, R203): the fetch in progress ends. With no evictable room it waits (R197); a segment
that is no longer registered, or is resident already, is dropped. -/
def execSegmentFetchDone (g : SegId) (r : FetchResult) (s : State) : Host.Outcome State Fault Refusal :=
  .next (
    if !fetching s g.val || s.clk.stemIdle then s
    else
    let s := s.reach s.pat.fetchReady
    if !fetchable s g.val then endFetch s
    else match r with
      | .ok => landSegment s g.val
      | .corrected ch => landSegment (s.raise 0x14 2 ch.val) g.val
      | .uncorrectable =>
        if (s.segm g.val).retried then endFetch ((spoilSegment s g.val).raise 0x14 3 g.val)
        else s.modSegm g.val (fun x => { x with retried := true }))

end Sys2Proof.Machine
end

