-- ==== Sys2Proof/Machine/Interval.lean ====
section
/-! DEFINITION. Time-interval units (spec/11): edges, samples, gates, statistics windows, stamp records and the commands
TIM_CONFIG and TIM_RUN. -/

namespace Sys2Proof.Machine

/-- Source and edge selection of a channel word (R366). -/
def selSource (w : Nat) : Nat := bits w 0 6
def selEdge (w : Nat) : Nat := bits w 6 2

/-- A channel word is legal for its source (R350, R366). -/
def selOk (w : Nat) : Bool :=
  (decide (selSource w ≤ 49) || decide (selSource w = 63)) && decide (selEdge w ≤ 2) && !bit w 15 &&
  (decide (selEdge w = 0) || !((decide (36 ≤ selSource w) && decide (selSource w ≤ 39)) || decide (selSource w = 48) || decide (selSource w = 49)))

/-- The first bad word of a configuration (R366), with words counted as TIM_CONFIG's. -/
def timBad (mode start stop n gate : Nat) : Option Bad :=
  firstBad [needParam (decide (mode ≤ 4)) 3,
    needParam (selOk start && decide (selSource start ≠ 63) && !(decide (mode = 2) && decide (selEdge start = 2))) 4,
    needParam (decide (mode = 2) || (selOk stop && !(decide (mode = 0) && decide (selSource stop = 63)))) 5,
    needParam (decide (1 ≤ n) && decide (n ≤ 16777216)) 6, needParam (decide (1 ≤ gate)) 8]

/-- The units of a command whose first unit stands in word `i` (R365). -/
def timUnits (c : Current) (i : Nat) : List Nat := rangeFrom (par c i) (par c (i + 1))
def timParams (c : Current) (i : Nat) : List (Option Bad) :=
  [needParam (decide (par c i < 32)) i, needParam (decide (1 ≤ par c (i + 1)) && decide (par c i + par c (i + 1) ≤ 32)) (i + 1)]

def needNoUnitCal (s : State) (us : List Nat) : Option Bad := firstOf us (fun u => needState (!calHoldsUnit s u) 5)
def needUnitBeds (s : State) (us : List Nat) : Option Bad := needActive s (us.map (fun u => u / 2))

/-- TIM_CONFIG (R366). -/
def execTimConfig (s : State) : Host.Outcome State Fault Refusal :=
  .next (onCommand s 0x0600 (fun p => !bit (wAt p 2) 0) (fun c =>
    let us := timUnits c 0
    checked s
      (timParams c 0 ++
       [needParam (decide (par c 2 = 0)) 2, timBad (par c 3) (par c 4) (par c 5) (par32 c 6) (par c 8),
        needNoUnitCal s us, needUnitBeds s us, firstOf us (fun u => needState (s.tiu u).run.isNone 16)])
      (fun s => postOk (us.foldl (fun s u => s.modTiu u (fun x => { x with
        mode := par c 3, startSel := par c 4, stopSel := par c 5, n := par32 c 6, gate := par c 8, timeout := par c 9 })) s))))

/-- TIM_CONFIG_READ (R366). -/
def execTimConfigRead (s : State) : Host.Outcome State Fault Refusal :=
  .next (onCommand s 0x0600 (fun p => bit (wAt p 2) 0) (fun c =>
    checked s (timParams c 0 ++ [needParam (decide (par c 1 = 1)) 1, needParam (decide (par c 2 = 1)) 2, needZero c 3 7,
        needNoUnitCal s (timUnits c 0), needUnitBeds s (timUnits c 0)])
      (fun s =>
        let x := s.tiu (par c 0)
        postOk s ([w16 x.mode, w16 x.startSel, w16 x.stopSel] ++ toWords 2 x.n ++ [w16 x.gate, w16 x.timeout]))))

/-! Records. -/

/-- MEAN and STDDEV of a window (R358). -/
def timMean (w : TimWindow) : Nat :=
  if w.n = 0 then 0 else toTwos 64 ((w.x0 : Int) * 65536 + roundAway (w.sd * 65536) w.n)
def timStddev (w : TimWindow) : Nat :=
  if w.n ≤ 1 then 0
  else rsqrt (((w.n : Int) * w.sq - w.sd * w.sd).toNat * 2 ^ 32 / (w.n * (w.n - 1)))

/-- Body of a TIM_STATS record (R390). -/
def timStats (u mode tag index : Nat) (w : TimWindow) (short : Bool) : List Byte :=
  [b8 u, b8 mode] ++ toBytes 2 (flag 0 short + flag 1 (decide (w.n = 0)) + flag 2 w.aliased + flag 3 w.syncStep) ++ toBytes 2 tag ++
  [b8 (b2n (decide (mode = 3))), 0] ++ toBytes 4 index ++ toBytes 4 w.n ++ toBytes 8 (timMean w) ++ toBytes 8 (timStddev w) ++
  toBytes 8 (if w.n = 0 then 0 else w.xmin) ++ toBytes 8 (if w.n = 0 then 0 else w.xmax) ++ toBytes 4 w.timeouts ++ toBytes 4 w.discarded ++
  toBytes 4 w.emptyGates ++ toBytes 4 w.missStart ++ toBytes 4 w.missStop

/-- Body of a TIM_STAMPS record (R390). -/
def timStamps (u tag : Nat) (r : StampRec) : List Byte :=
  let base := match r.entries with | e :: _ => e.time | [] => 0
  [b8 u, b8 r.entries.length, 0, 0] ++ toBytes 2 tag ++ [0, 0] ++ toBytes 8 base ++ [b8 (base / 2 ^ 64), 0, 0, 0] ++
  toBytes 4 ((r.entries.map (fun e => e.lost)).foldl (satAdd max32) 0) ++
  r.entries.flatMap (fun e => toBytes 4 (toTwos 32 ((e.time : Int) - base)) ++ [b8 (flag 0 e.stop + flag 1 e.fall + flag 2 e.gap), 0, 0, 0])

/-- Units of a TIM_STAMPS record of `n` entries (R386). -/
def stampUnits (n : Nat) : Nat := (40 + 8 * n + 15) / 16

/-- The end of a run (R363); `credit` is what it still holds for a window or record. -/
def endTimRun (s : State) (u : Nat) (part : Bool) (cause : Nat) : State :=
  match (s.tiu u).run with
  | none => s
  | some r =>
    let s := s.modTiu u (fun x => { x with run := none })
    let s := leaveWaiters s r.ring (.timWindow u)
    let s := if r.win.credit then returnCredit s r.ring (if (s.tiu u).mode = 4 then stampUnits 64 else 6) else s
    endWork s { workEnd s r.tag r.hdrRing (if part then 2 else 0) (if part then r.done % 65536 else 0) 5 u (if part then 2 else 1)
        cause 0 r.done with
      flags := flag 3 s.clk.holdover }

/-- A window or record of the run is done: STEPS, and the run's end if it is the last (R363). -/
def timDone (s : State) (u : Nat) (r : TimRun) : State :=
  let s := modTimRun s u (fun r => { r with done := r.done + 1 })
  let s := s.modProg r.tag (fun p => { p with steps := r.done + 1 })
  if r.stopping ∨ r.done + 1 = r.blocks then endTimRun s u false 0 else s

/-- Count in the window in progress, or in the next (R361). -/
def modWin (s : State) (u : Nat) (f : TimWindow → TimWindow) : State := modTimRun s u (fun r => { r with win := f r.win })

/-- A statistics window is in progress: with its credit, or under DROP without. -/
def windowOpen (s : State) (u : Nat) : Bool := ((s.tiu u).run).any (fun r => r.win.running || r.win.credit)

/-- The run's next window starts, if credit allows (R359, R361). -/
def openWindow (s : State) (u : Nat) : State :=
  match (s.tiu u).run with
  | none => s
  | some r =>
    if windowOpen s u ∨ (s.tiu u).mode = 4 then s
    else
      let (s, a) := askCredit s r.ring 6 (.timWindow u)
      if a = .held then modWin s u (fun w => { w with credit := true })
      else if a = .dropped then modWin s u (fun w => { w with running := true })
      else s

/-- Write the window in progress and begin the next (R358 to R361); staging busy: it waits, false. -/
def writeWindow (s : State) (u : Nat) : State × Bool :=
  match (s.tiu u).run with
  | none => (s, true)
  | some r =>
    let w := r.win
    let (s, ok) :=
      if w.credit then
        placeHeld s (u / 2) r.ring 6 6 r.tag 7 (flag 3 w.unref) w.time (timStats u (s.tiu u).mode r.tag r.done w false)
      else (s, true)
    if !ok then (s, false)
    else (openWindow (timDone (modTimRun s u (fun r => { r with win := {} })) u r) u, true)

/-- The window in progress is cut short (R359, R363): its record has SHORT. -/
def cutWindow (s : State) (u : Nat) : State :=
  match (s.tiu u).run with
  | none => s
  | some r =>
    let w := r.win
    let time := if w.n = 0 then s.now else w.time
    let s := if w.credit then
        placeLast s (u / 2) r.ring 6 6 r.tag 7 (4 + flag 3 w.unref) time (timStats u (s.tiu u).mode r.tag r.done w true)
      else s
    modTimRun s u (fun r => { r with win := {} })

/-- A sample is not used (R355, R361, R362). -/
def discard (s : State) (u : Nat) : State := modWin s u (fun w => { w with discarded := satAdd max32 w.discarded 1 })

/-- A sample whose first edge had the given stamp joins the window (R358, R359, R361); `unref`: a stamp of it was taken in
holdover (R362). -/
def addSample (s : State) (u x first : Nat) (unref : Bool) : State :=
  let full := fun (s : State) => match (s.tiu u).run with | some r => r.win.running && decide ((s.tiu u).n ≤ r.win.n) | none => false
  let s := if full s then (writeWindow s u).1 else s
  match (s.tiu u).run with
  | none => s
  | some _ =>
    if full s then discard s u
    else
      let s := openWindow s u
      if !windowOpen s u then discard s u
      else
        let s := modWin s u (fun w =>
          let x0 := if w.n = 0 then x else w.x0
          let d : Int := (x : Int) - x0
          { w with
            running := true
            time := if w.n = 0 then first / 256 else w.time
            x0 := x0
            sd := w.sd + d
            sq := w.sq + (d * d).toNat
            n := w.n + 1
            xmin := if w.n = 0 then x else min w.xmin x
            xmax := if w.n = 0 then x else max w.xmax x
            unref := w.unref || unref })
        if full s then (writeWindow s u).1 else s

/-- A sample that spans a chip-time step is discarded (R362). -/
def takeSample (s : State) (u x first : Nat) (stepped unref : Bool) : State :=
  if stepped then modWin (discard s u) u (fun w => { w with syncStep := true })
  else addSample s u x first unref

/-! Stamp records. -/

/-- Chip time of a stamp record's base (R386). -/
def stampTime (s : State) (b : StampRec) : Nat := match b.entries with | e :: _ => e.time / 256 | [] => s.now

/-- Close the open TIM_STAMPS record (R360, R361); staging busy under STALL: it waits. -/
def closeStamps (s : State) (u : Nat) : State :=
  match (s.tiu u).run with
  | none => s
  | some r =>
    match r.record with
    | none => s
    | some b =>
      let (s, ok) := if r.win.credit then
          placeHeld s (u / 2) r.ring 35 (stampUnits b.entries.length) r.tag 8 (flag 3 b.unref) (stampTime s b) (timStamps u r.tag b)
        else (s, true)
      if ok then timDone (modTimRun s u (fun r => { r with record := none, win := { r.win with credit := false } })) u r
      else if ringDrops s r.ring then
        modTimRun (dropRecord (returnCredit s r.ring 35) r.ring 2) u (fun r => { r with record := none, win := { r.win with credit := false } })
      else s

/-- The stamp starts a new record (R360): the open one holds 64 entries, or UNREF changes, or chip time has stepped. -/
def startsRecord (b : StampRec) (e : Stamp) : Bool := decide (64 ≤ b.entries.length) || decide (b.unref ≠ e.unref) || e.fresh

/-- Move one stamp of the FIFO into the open record, opening one if credit allows (R357, R361). -/
def drainStamp (s : State) (u : Nat) : State :=
  match (s.tiu u).run, (s.tiu u).fifo with
  | some r, e :: rest =>
    let s := match r.record with
      | some b => if startsRecord b e then closeStamps s u else s
      | none => s
    match (s.tiu u).run with
    | none => s
    | some r =>
      match r.record with
      | some b =>
        if startsRecord b e then s
        else
          (modTimRun s u (fun r => { r with record := some { b with entries := b.entries ++ [e] } })).modTiu u (fun x => { x with fifo := rest })
      | none =>
        let (s, a) := if r.win.credit then (s, Ask.held) else askCredit s r.ring 35 (.timWindow u)
        if a = .waits then s
        else
          let s := modTimRun s u (fun r => { r with
            win := { r.win with credit := r.win.credit || decide (a = .held) }
            record := some { entries := [e], unref := e.unref } })
          s.modTiu u (fun x => { x with fifo := rest })
  | _, _ => s

/-- Harvest drains what it can (R357). -/
def drainStamps (s : State) (u : Nat) : Nat → State
  | 0 => s
  | k + 1 => drainStamps (drainStamp s u) u k

/-- A stamp enters the FIFO, with the OVERFLOW that it follows, or overflows (R357). -/
def pushStamp (s : State) (u : Nat) (e : Stamp) : State :=
  let x := s.tiu u
  if x.fifo.length < 1024 then
    let s := s.modTiu u (fun x => { x with
      fifo := x.fifo ++ [{ e with gap := x.gapNext, lost := x.overflow, unref := s.clk.holdover, fresh := x.freshNext }]
      gapNext := false, overflow := 0, freshNext := false })
    drainStamps s u ((s.tiu u).fifo.length)
  else
    let s := s.modTiu u (fun x => { x with overflow := satAdd max32 x.overflow 1, gapNext := true })
    match x.run with
    | some r => if r.overflowed then s else (modTimRun s u (fun r => { r with overflowed := true })).raise (u / 2) 10 u
    | none => s

/-! Edges. -/

/-- The stamp a channel gives a transition of its source at fine step `t` (R350, R351). -/
def timStamp (s : State) (u : Nat) (stop : Bool) (src t : Nat) : Nat :=
  if src ≤ 35 then ((t : Int) - tiuDelay s u stop).toNat
  else if src ≤ 39 then t / 4096 * 4096
  else if src ≤ 43 then t / 256 * 256
  else t

/-- The channel word in force: PULSE_WIDTH's STOP is the START source with the opposite edge (R354). -/
def channelSel (x : TimeInterval) (stop : Bool) : Nat × Nat :=
  if !stop then (selSource x.startSel, selEdge x.startSel)
  else if x.mode = 2 then (selSource x.startSel, if selEdge x.startSel = 0 then 1 else 0)
  else (selSource x.stopSel, selEdge x.stopSel)

/-- The word whose source a channel follows: PULSE_WIDTH's STOP follows the START source (R354, R366). -/
def channelWord (x : TimeInterval) (stop : Bool) : Nat := if stop ∧ x.mode ≠ 2 then x.stopSel else x.startSel

/-- The grid of a running clock generator has this edge at fine step `t` (R172, R350). -/
def gridEdge (s : State) (k t : Nat) (fall : Bool) : Bool :=
  (s.ckgen k).running && (s.ckgen k).runs.any (fun r =>
    let e : Int := if fall then (t : Int) - r.set.high else t
    decide (runRise r 0 none (e + 1) = some e))

/-- The source has this transition (R350): a pad's, while its comparator is attached (R113); a window monitor's, while it
evaluates (R340, R341); a grid's, at an edge of the grid. -/
def sourceLive (s : State) (u src t : Nat) (fall : Bool) : Bool :=
  if src < 32 then !padDetached s (32 * (u / 2) + src)
  else if src < 36 then (s.wmon (4 * (u / 2) + (src - 32))).enable && !(s.wmon (4 * (u / 2) + (src - 32))).settling
  else if src < 40 then true
  else if src < 44 then (s.tin (src - 40)).enable
  else if src < 48 then gridEdge s (4 * (u / 2) + (src - 44)) t fall
  else decide (src < 50)

/-- The attempt armed at `a` has timed out by the stamp `t` (R355). -/
def timedOut (x : TimeInterval) (a t : Nat) : Bool :=
  (decide (x.timeout ≠ 0) && decide (a + x.timeout * 819200 ≤ t)) || decide (a + 2 ^ 48 - 1 ≤ t)

/-- The attempt is discarded as a timeout (R355). -/
def dropAttempt (s : State) (u : Nat) : State :=
  modWin (modTimRun s u (fun r => { r with armed := none, stepped := false })) u (fun w => { w with timeouts := satAdd max32 w.timeouts 1 })

/-- The time up to which a run's gates have ended: not before its start. -/
def gatesTo (r : TimRun) : Nat := max r.gateEnd (startTicks r.start)

/-- The gates up to chip time `t` end (R356): those without two edges are empty. -/
def gateEnds (s : State) (u t : Nat) : State :=
  match (s.tiu u).run with
  | none => s
  | some r =>
    let len := 3200 * (s.tiu u).gate
    let gates := t / len - gatesTo r / len
    let s := modTimRun s u (fun r => { r with gateK := 0, gateMiss := false, gateEnd := t, stepped := false, armUnref := false })
    if r.gateK < 2 then modWin s u (fun w => { w with emptyGates := satAdd max32 w.emptyGates gates })
    else
      let s := modWin s u (fun w => { w with aliased := w.aliased || r.gateMiss })
      let s := takeSample s u (roundUpHalf (((r.gateLast - r.gateFirst) * 256 : Nat) : Int) (r.gateK - 1)).toNat r.gateFirst r.stepped r.armUnref
      modWin s u (fun w => { w with emptyGates := satAdd max32 w.emptyGates (gates - 1) })

/-- An accepted edge reaches the run (R354 to R357). -/
def edgeToRun (s : State) (u : Nat) (stop fall : Bool) (t : Nat) : State :=
  let x := s.tiu u
  match x.run with
  | none => s
  | some r =>
    let unref := s.clk.holdover
    let s := if started r.start (t / 256) then openWindow s u else s
    if !started r.start (t / 256) then s
    else if x.mode = 4 then pushStamp s u { time := t, stop := stop, fall := fall }
    else if x.mode = 3 then
      if stop then s
      else
        let last := t / 256 / (3200 * x.gate) * (3200 * x.gate)
        let s := if gatesTo r < last then gateEnds s u last else s
        modTimRun s u (fun r => { r with
          gateK := satAdd max32 r.gateK 1, gateFirst := if r.gateK = 0 then t else r.gateFirst, gateLast := t
          armUnref := r.armUnref || unref })
    else if x.mode = 1 then
      if stop then s
      else
        let s' := modTimRun s u (fun r => { r with armed := some t, armMiss := x.missStart, stepped := false, armUnref := unref })
        match r.armed with
        | none => s'
        | some a =>
          if r.armMiss ≠ x.missStart then modWin (discard s' u) u (fun w => { w with syncStep := w.syncStep || r.stepped })
          else takeSample s' u (t - a) a r.stepped (r.armUnref || unref)
    else
      let s := match r.armed with
        | some a => if timedOut x a t then dropAttempt s u else s
        | none => s
      match ((s.tiu u).run).bind (fun r => r.armed) with
      | none => if stop then s else modTimRun s u (fun r => { r with armed := some t, stepped := false, armUnref := unref })
      | some a =>
        if !stop ∨ t ≤ a then s
        else takeSample (modTimRun s u (fun r => { r with armed := none, stepped := false })) u (t - a) a r.stepped (r.armUnref || unref)

/-- A transition that a channel of unit `n` counts, whose source has it at fine step `stamp` (R351, R352): accepted, or
MISSED in the dead time. -/
def acceptEdge (s : State) (n : Nat) (stop : Bool) (src stamp : Nat) (fall : Bool) : State :=
  let x := s.tiu n
  let t := timStamp s n stop src stamp
  let last := if stop then x.lastStop else x.lastStart
  if last.any (fun a => decide (t < a + 2048)) then
    let s := s.modTiu n (fun x => if stop then { x with missStop := satAdd max32 x.missStop 1 }
                                  else { x with missStart := satAdd max32 x.missStart 1 })
    let s := modTimRun s n (fun r => { r with gateMiss := r.gateMiss || !stop })
    modWin s n (fun w => if stop then { w with missStop := satAdd max32 w.missStop 1 }
                         else { w with missStart := satAdd max32 w.missStart 1 })
  else
    let s := s.modTiu n (fun x => if stop then { x with lastStop := some t } else { x with lastStart := some t })
    edgeToRun s n stop fall t

/-- A transition of the source that a channel of unit `n` selects (R350 to R352): of the direction it selects, in an ACTIVE
bed. -/
def channelEdge (s : State) (n : Nat) (stop : Bool) (stamp : Nat) (fall : Bool) : State :=
  let (src, edge) := channelSel (s.tiu n) stop
  if !sourceLive s n src stamp fall ∨ !bedActive s (n / 2) ∨ (edge = 0 ∧ fall) ∨ (edge = 1 ∧ !fall) then s
  else acceptEdge s n stop src stamp fall

/-- A transition of a source at fine step `t` reaches the channels of every unit that select it: `p` of the unit and the
channel's word. -/
def unitEdges (s : State) (p : Nat → Nat → Bool) (t : Nat) (fall : Bool) : State :=
  ((tents s.meas.unit).map (fun e => e.1)).foldl (fun s u =>
    [false, true].foldl (fun s stop => if p u (channelWord (s.tiu u) stop) then channelEdge s u stop t fall else s) s) s

/-- A source whose transitions the chip makes in rows of their own: the latches of window monitors (R338), the trigger inputs
(R212) and the pulses of the sequencers (R215). -/
def ownSource (src : Nat) : Bool := (decide (36 ≤ src) && decide (src ≤ 43)) || decide (src = 48) || decide (src = 49)

/-- TIU_EDGE (R351, R352): a transition of the channel's source at its chip time; what the chip itself drives comes with the
row that drives it. -/
def execTiuEdge (u : TimeUnit) (stop : Bool) (stamp : Nat) (fall : Bool) (s : State) : Host.Outcome State Fault Refusal :=
  .next (
    let (src, edge) := channelSel (s.tiu u.val) stop
    if ownSource src || !sourceLive s u.val src stamp fall || !bedActive s (u.val / 2) || (decide (edge = 0) && fall) ||
        (decide (edge = 1) && !fall) then s
    else acceptEdge (s.reach (stamp / 256)) u.val stop src stamp fall)

/-- TIU_GATE_END (R356): the gate ends at its chip time. -/
def execTiuGateEnd (u : TimeUnit) (s : State) : Host.Outcome State Fault Refusal :=
  .next (
    let x := s.tiu u.val
    match x.run with
    | some r =>
      if x.mode = 3 then
        let t := roundUp (max s.now (gatesTo r + 1)) (3200 * x.gate)
        if started r.start t then gateEnds (openWindow (s.reach t) u.val) u.val t else s
      else s
    | none => s)

/-- TIU_TIMEOUT (R355): the attempt in progress reaches its limit. -/
def execTiuTimeout (u : TimeUnit) (s : State) : Host.Outcome State Fault Refusal :=
  .next (
    let x := s.tiu u.val
    match x.run with
    | some r =>
      match r.armed with
      | some a =>
        if x.mode = 0 ∨ x.mode = 2 then
          dropAttempt (s.reach ((a + (if x.timeout = 0 then 2 ^ 48 - 1 else x.timeout * 819200)) / 256)) u.val
        else s
      | none => s
    | none => s)

/-- TIM_STAMPS_CLOSE (R360): the open record holds 64 entries, or 100 µs have passed since its first. -/
def execTimStampsClose (u : TimeUnit) (s : State) : Host.Outcome State Fault Refusal :=
  .next (match ((s.tiu u.val).run).bind (fun r => r.record) with
    | some b =>
      let due := match b.entries with | e :: _ => e.time / 256 + 320000 | [] => s.now
      let s := if 64 ≤ b.entries.length then s else s.reach due
      let s := closeStamps s u.val
      drainStamps s u.val (s.tiu u.val).fifo.length
    | none => s)

/-- The open stamp record of a run that ends at once (R363). -/
def cutStamps (s : State) (u : Nat) : State :=
  match (s.tiu u).run with
  | none => s
  | some r =>
    match r.record with
    | none => s
    | some b =>
      let s := if r.win.credit then
          placeLast s (u / 2) r.ring 35 (stampUnits b.entries.length) r.tag 8 (flag 3 b.unref) (stampTime s b) (timStamps u r.tag b)
        else s
      let s := modTimRun s u (fun r => { r with record := none, win := { r.win with credit := false }, done := r.done + 1 })
      s.modProg r.tag (fun p => { p with steps := r.done + 1 })

/-- The run's start time has come, and its window with it (R359). -/
def openDue (s : State) (u : Nat) : State :=
  match (s.tiu u).run with
  | some r => if started r.start s.now then openWindow s u else s
  | none => s

/-- A run ends at once (R363): a window in progress writes its record with SHORT; a stamp record closes. -/
def cutTim (s : State) (u : Nat) (part : Bool) (cause : Nat) : State :=
  endTimRun (if (s.tiu u).mode = 4 then cutStamps s u else cutWindow (openDue s u) u) u part cause

/-- A stamp as the stepped chip time has it. -/
def stampMoved (st : Int) (t : Nat) : Nat := ((t : Int) + 256 * st).toNat

/-- Chip time steps by `st` ticks (R362): what spans the step is marked, stamp records close and the next stamp starts a new
one; dead times and attempts keep their length. -/
def timStepped (s : State) (st : Int) : State :=
  (tents s.meas.unit).foldl (fun s e =>
    let s := s.modTiu e.1 (fun x => { x with
      lastStart := x.lastStart.map (stampMoved st), lastStop := x.lastStop.map (stampMoved st), freshNext := x.run.isSome })
    let s := modTimRun s e.1 (fun r => { r with
      stepped := r.stepped || r.armed.isSome || decide (0 < r.gateK)
      armed := r.armed.map (stampMoved st)
      gateEnd := ((s.now : Int) + st).toNat })
    if e.2.mode = 4 then closeStamps s e.1 else s) s

/-- TIM_RUN_START (R359, R367). -/
def execTimRunStart (s : State) : Host.Outcome State Fault Refusal :=
  .next (onCommand s 0x0601 (fun p => decide (wAt p 0 = 0)) (fun c =>
    let us := timUnits c 1
    let f := par c 10
    let start := startOf s c 5 (f % 4) (bit f 2)
    checked s
      (timParams c 1 ++ needStart c 5 ++
       [needParam (decide (f < 8)) 10, needRing s (par c 11) 11, if par c 5 = 1 then needLead c (par64 c 6) 4 else none,
        if c.tag.toNat + us.length - 1 ≤ 0xFFF then none else some (0x12, 0xFF01),
        firstOf (rangeFrom c.tag.toNat us.length) (fun t => needState (!tagInUse s t) t),
        needRef s, needNoUnitCal s us, needUnitBeds s us,
        firstOf us (fun u => let x := s.tiu u
          needState (decide (timBad x.mode x.startSel x.stopSel x.n x.gate = none)) 17),
        firstOf us (fun u => needBusy (s.tiu u).run.isNone u)])
      (fun s =>
        let s := us.zipIdx.foldl (fun s (u, i) =>
          let tag := c.tag.toNat + i
          let s := s.modTiu u (fun x => { x with
            fifo := [], overflow := 0, gapNext := false, freshNext := false
            run := some
              { tag := tag, hdrRing := c.ring.toNat, ring := ringOf c (par c 11), start := start, blocks := par32 c 3, done := 0
                win := {}, armed := none, armMiss := 0, armUnref := false, gateK := 0, gateFirst := 0, gateLast := 0, gateMiss := false
                gateEnd := startTicks start, record := none, stepped := false, stopping := false, overflowed := false } })
          if i = 0 then s else beginWork s tag c.opcode.toNat c.ring.toNat 0 false) s
        accept s c 0 (w16 us.length :: toWords 4 (startTicks start) ++ [c.tag]))))

/-- A run told to stop (R363): with the window in progress, at once if none is. -/
def stopTim (s : State) (u : Nat) : State :=
  let s := modTimRun (openDue s u) u (fun r => { r with stopping := true })
  if (s.tiu u).mode = 4 then cutTim s u false 0
  else if windowOpen s u then s
  else endTimRun s u false 0

/-- TIM_RUN_STOP (R363, R367). -/
def execTimRunStop (s : State) : Host.Outcome State Fault Refusal :=
  .next (onCommand s 0x0601 (fun p => decide (wAt p 0 = 1)) (fun c =>
    let us := timUnits c 1
    checked s (timParams c 1 ++ [needNoUnitCal s us, needUnitBeds s us, firstOf us (fun u => needState (s.tiu u).run.isSome 12)])
      (fun s => postOk (us.foldl stopTim s))))

end Sys2Proof.Machine
end

