-- ==== Sys2Proof/Machine/Burst.lean ====
section
/-! DEFINITION. Site sequencers (spec/07): cycles, flow, boundaries, starve-hold, jumps, stops, judgement, trigger
outputs and inputs. -/

namespace Sys2Proof.Machine

/-- A pulse that begins at `start` and would end at `stop` joins the pulses of an output: one that is active then is
extended (R211). -/
def addPulse (start stop : Nat) : List (Nat × Nat) → List (Nat × Nat)
  | [] => [(start, stop)]
  | (a, b) :: r =>
    if start < a then (start, stop) :: (a, b) :: r
    else if start < b then (a, max b stop) :: r
    else (a, b) :: addPulse start stop r

/-- A pulse of trigger output `n` for an event at `tick` (R211): it begins 30 ns (96 ticks) on. -/
def trigPulse (s : State) (n tick : Nat) : State :=
  s.modTrig n (fun x => { x with pulses := addPulse (tick + 96) (tick + 96 + 16 * x.width) x.pulses })

/-- The output carries a pulse at chip time `t` (R211). -/
def trigActive (s : State) (n t : Nat) : Bool := (s.trig n).pulses.any (fun p => decide (p.1 ≤ t) && decide (t < p.2))

/-- An event of sequencer `q` reaches the outputs that follow it (R211). -/
def trigEvent (s : State) (q event tick : Nat) : State :=
  (List.range 8).foldl (fun s n =>
    if (s.trig n).seq = q ∧ (s.trig n).event = event then trigPulse s n tick else s) s

/-- A fail pulse (source 48) or mark pulse (source 49) of sequencer `q` at fine step `t` reaches the channels of every
time-interval unit that select it (R215, R350). -/
def seqPulse (s : State) (q src t : Nat) : State :=
  unitEdges s (fun _ w => decide (selSource w = src) && decide (bits w 9 6 = q)) t false

/-- SEQ source STACK (R188). -/
def stackFault (s : State) (q code : Nat) : State := s.raise 0x13 0 q code

/-- Release the loop pins of a frame (R199). -/
def dropFrame (s : State) (f : LoopFrame) : State :=
  f.pins.foldl (fun s g => s.modSegm g (fun x => { x with loopPins := x.loopPins - 1 })) s

/-- Clear both stacks with their pins (R199, R209). -/
def clearStacks (s : State) (q : Nat) : State :=
  ((s.seq q).loops.foldl dropFrame s).modSeq q (fun x => { x with loops := [], calls := [] })

/-- Pin segment `g` for every loop of the site in its first iteration, where the budget allows (R199). -/
def pinLoops (s : State) (q g : Nat) : State :=
  let step := fun (acc : State × List LoopFrame) (f : LoopFrame) =>
    if f.first && !f.pins.contains g && pinFits acc.1 g then
      (acc.1.modSegm g (fun x => { x with loopPins := x.loopPins + 1 }), acc.2 ++ [{ f with pins := f.pins ++ [g] }])
    else (acc.1, acc.2 ++ [f])
  let (s, l) := (s.seq q).loops.foldl step (s, [])
  s.modSeq q (fun x => { x with loops := l })

/-- The site has left its first instance: its share of the entry pin goes (R225). -/
def leaveFirst (s : State) (q : Nat) : State :=
  let x := s.seq q
  if x.leftFirst then s
  else
    let s := s.modSeq q (fun x => { x with leftFirst := true, entryPin := none })
    match x.entryPin with
    | some g => s.modSegm g (fun x => { x with entryPins := x.entryPins - 1 })
    | none => s

/-- An EVENT or FAIL_VECTOR record of the burst (R214): without credit under STALL it counts as unemitted. The answer says
whether a record was generated: one that DROP discards was not. -/
def burstRecord (s : State) (q units typ flags time : Nat) (body : List Byte) : State × Bool :=
  let x := s.seq q
  let placed := (s.ring x.resultRing).place
  let (s, ok) := emitRecord s 16 x.resultRing units units x.tag typ flags time body
  (if ok then s else s.modSeq q (fun x => { x with unemitted := satAdd max32 x.unemitted 1 }),
   ok && decide ((s.ring x.resultRing).place = (placed + units) % two32) && decide ((s.ring x.resultRing).state = .live))

/-- The words of the vector that the site's index names, as the cache holds them (R196, R220). -/
def seqVec (s : State) (q : Nat) : Vec := cachedVec (s.segm (s.seq q).segment).copy (s.seq q).index

/-- Start one cycle at `next` (R187): edges at the pins, the judgement to come, VECTORS, the TRIG flag, and the next cycle
start. `masked` marks wait and hold cycles, `counts` those in VECTORS, `kind` the judgement, none where the flags of the
vector are not executed. A CLRFAIL acts before its own judgement and after every earlier one (R189): where its own would be
complete first, its whole judgement waits for the latest that is pending (DESIGN CHOICE 176). -/
def runCycle (s : State) (q : Nat) (v : Vec) (masked : Option Bool) (counts : Bool) (kind : Option JudgeKind) : State :=
  let x := s.seq q
  let c := x.next
  let n := if counts then x.vectors + 1 else x.vectors
  let step := fun (acc : State × List LaneShot) (j : Nat) =>
    let (s, shot) := placePin acc.1 q j (x.lanes.getD j 0) v.tset (v.codes.getD j 8) masked n c
    (s, acc.2 ++ [shot])
  let (s, shots) := (List.range x.lanes.length).foldl step (s, [])
  let codes := shots.map (fun h => h.code)
  let lost := (List.range shots.length).filter (fun j => (shots.getD j { code := 16, last := none, lost := false }).lost)
  let last := shots.foldl (fun (m : Option Int) h => match h.last, m with
    | some t, some u => some (max t u)
    | some t, none => some t
    | none, m => m) none
  let own := match last with | some t => t.toNat + 32768 | none => c
  let due := if v.clrfail then ((s.seq q).judge.map (fun j => j.due)).foldl max own else own
  let entry : Option Judgement := match kind with
    | some k =>
      if codes.any (fun k => decide (k < 16)) || v.clrfail || v.log || decide (k ≠ .normal) then
        some { kind := k, vectors := n, entry := x.entry, segment := x.segment, index := x.index, start := c, due := due
               clrfail := v.clrfail, log := v.log, codes := codes, lost := lost }
      else none
    | none => none
  let s := if kind.isSome && v.trig then trigEvent s q 2 (c / 256) else s
  let p := vectorPeriod s q v.tset
  let s := s.modSeq q (fun x => { x with
    vectors := n
    cycle := x.cycle + 1
    next := c + p
    judge := x.judge ++ entry.toList
    jump := x.jump.map (fun j => if j.registered.isNone then { j with registered := some x.cycle } else j) })
  s.modProg x.tag (fun e => { e with vectors := n, steps := x.steps })

/-- Execute the vector at the site's index for the first time (R185): the opcode decides what its later cycles are. MARK
carries VECTORS with the vector itself (R193; DESIGN CHOICE 177), and its mark pulse goes to the time-interval units
(R215). -/
def runVector (s : State) (q : Nat) : State :=
  let v := seqVec s q
  let x := s.seq q
  let s := s.modSeq q (fun x => { x with
    mode := if v.op = 9 then .matching else .exec
    reps := 1
    waitFrom := x.next
    waitDone := none })
  let s := runCycle s q v none true (some (if v.op = 9 then .matchRep (decide (v.operand = 1)) else .normal))
  if v.op = 10 then
    let s := seqPulse s q 49 x.next
    (burstRecord s q 3 9 0 (x.next / 256)
      (eventBody 2 q (padTo 20 (toBytes 2 v.operand ++ [0, 0] ++ toBytes 8 (x.vectors + 1)) ++ [b8 (x.next % 256)]))).1
  else s

/-- Start an instance of segment `g` at vector `i` of list entry `e` (R194, R211, R218). SEG_START carries VECTORS before its
first vector (DESIGN CHOICE 177). -/
def startInstance (s : State) (q e g i : Nat) (jumped : Option Bool) : State :=
  let tick := (s.seq q).next / 256
  let s := s.modSegm g (fun x => { x with used := s.now })
  let s := s.modSeq q (fun x => { x with entry := e, segment := g, index := i, steps := x.steps + 1, mode := .exec, unusable := false })
  let s := s.live 0x14 0 (unusableWait s)
  let s := pinLoops s q g
  let s := trigEvent s q 1 tick
  let s := if jumped.isSome then trigEvent s q 7 tick else s
  let x := s.seq q
  let s := if x.segEvents || jumped.isSome then
      (burstRecord s q 3 9 (flag 1 x.starved + flag 5 (jumped = some true) + flag 6 jumped.isSome) tick
        (eventBody 1 q (toBytes 2 e ++ toBytes 2 g ++ toBytes 8 x.vectors ++ toBytes 8 x.holds ++ [b8 (x.next % 256)]))).1
    else s
  runVector s q

/-- The pins' and stacks' part of a burst's end (R217), then ENDING. `cause` 0 is HALT or a sealed list's end. -/
def endBurst (s : State) (q cause : Nat) : State :=
  let x := s.seq q
  let ran := decide (x.mode ≠ .armed)
  let at' := if ran then x.next else 256 * s.now
  let cloche := decide (cause = 2) || (seqBeds s q).any (bedHeld s)
  let s := if ran then x.lanes.foldl (fun s p => settlePin s p at') s else s
  let s := leaveFirst (clearStacks s q) q
  let s := s.modSeq q (fun x => { x with
    mode := .ending
    stop := none
    jump := none
    endCause := cause
    endAt := at'
    endCloche := cloche
    endPhase := 0 })
  let s := answerAbort (s.live 0x14 0 (unusableWait s)) x.tag
  if ran then trigEvent s q 4 (at' / 256) else s

/-- FAIL_SUMMARY (R387). -/
def summaryBody (x : SeqState) (q : Nat) : List Byte :=
  [b8 q, 0] ++ toBytes 2 x.lanes.length ++ toBytes 2 x.tag ++ [0, 0] ++ toBytes 8 x.fails ++
  toBytes 8 (x.firstFail.getD 0) ++ toBytes 4 x.matchTimeouts ++ toBytes 4 x.unemitted ++
  (List.range x.lanes.length).flatMap (fun j => toBytes 4 (tget (fun _ => 0) x.laneFails j))

/-- COMPLETION of a burst (R217, R387). -/
def burstEndOf (x : SeqState) (q : Nat) : PendingEnd :=
  { tag := x.tag, ring := x.ring, status := if x.endCause = 0 then 0 else 2
    detail := if x.endCause = 0 then 0 else x.vectors % 65536
    kind := 1, source := q, flags := flag 1 x.starved + flag 3 (x.endCause = 3), holds := x.holds
    state := if x.endCause = 0 then 1 else 2, cause := x.endCause, output := if x.endCloche then 3 else 2
    steps := x.steps, time := x.endAt / 256 }

/-- The end records of a burst in ENDING whose judgements are complete (R214, R216): FAIL_SUMMARY, then COMPLETION, then
IDLE. Under STALL it holds until credit and staging allow; under DROP what has no credit is dropped. -/
def settleBurst (s : State) (q : Nat) : State :=
  let x := s.seq q
  if x.mode ≠ .ending ∨ x.judge ≠ [] then s
  else
    let s := if x.endPhase = 0 then
        if x.endCredit then
          let u := summaryUnits x.lanes.length
          let (t, ok) := placeHeld s 16 x.resultRing u u x.tag 2 (flag 3 (x.endCause = 3)) (x.endAt / 256) (summaryBody x q)
          if ok then t.modSeq q (fun x => { x with endPhase := 1, endCredit := false }) else t
        else if ringDrops s x.resultRing then
          (dropRecord (leaveWaiters s x.resultRing (.burstEnd q)) x.resultRing 1).modSeq q (fun x => { x with endPhase := 1 })
        else s
      else s
    let s := if (s.seq q).endPhase = 1 then
        (endWork (s.modProg x.tag (fun e => { e with vectors := x.vectors })) (burstEndOf x q)).modSeq q (fun x => { x with endPhase := 2 })
      else s
    if (s.seq q).endPhase = 2 && !tagInUse s x.tag then s.modSeq q (fun x => { lanes := x.lanes }) else s

/-- Latch a stop (R217, R228): a vector-boundary stop replaces one that waits for a segment boundary, and a BURST_STOP ends a
wait of WAIT_TRIG whatever is latched already (R192). An ARMED sequencer
ends at once, and so does one in STARVE_HOLD on a stop that would wait for a boundary. -/
def latchStop (s : State) (q cause : Nat) (atBoundary : Bool) : State :=
  let x := s.seq q
  match x.mode with
  | .idle | .ending => s
  | .armed => settleBurst (endBurst s q cause) q
  | _ =>
    match x.stop with
    | none =>
      if atBoundary && decide (x.mode = .starveHold) then
        settleBurst (endBurst (s.modSeq q (fun x => { x with next := 256 * s.now })) q cause) q
      else s.modSeq q (fun x => { x with stop := some { cause := cause, atBoundary := atBoundary, endsWait := decide (cause = 8) } })
    | some t =>
      if t.atBoundary && !atBoundary then s.modSeq q (fun x => { x with stop := some { cause := cause, atBoundary := false } })
      else if decide (cause = 8) then s.modSeq q (fun x => { x with stop := some { t with endsWait := true } })
      else s

/-- End with its records (R217). -/
def finishBurst (s : State) (q cause : Nat) : State := settleBurst (endBurst s q cause) q

/-- A starve-hold cycle of the segment just left (R200). -/
def holdCycle (s : State) (q : Nat) : State :=
  let x := s.seq q
  let g := (s.segm x.segment).copy
  let v := cachedVec g (g.hold.getD (g.vectors - 1))
  runCycle (s.modSeq q (fun x => { x with holds := x.holds + 1 })) q v (some true) false none

/-- Enter, or stay in, starve-hold on list entry `e` (R195, R200, R201). -/
def starveOn (s : State) (q e : Nat) (jumped : Option Bool) : State :=
  let x := s.seq q
  let entered := decide (x.mode ≠ .starveHold)
  if entered && x.starveAbort then finishBurst (s.modSeq q (fun x => { x with starved := true })) q 4
  else
    let s := if entered && !x.starved then s.raise 0x14 1 q else s
    let s := if entered then trigEvent s q 6 (x.next / 256) else s
    let resident := match entrySeg s x.stream e with | some g => (s.segm g).resident | none => false
    let s := s.modSeq q (fun x => { x with
      mode := .starveHold
      starved := true
      awaited := e
      jumped := jumped
      residentAt := if entered || decide (x.awaited ≠ e) then (if resident then s.now else 0) else x.residentAt })
    let s := if entered || decide (x.awaited ≠ e) then s.modSeq q (fun x => { x with unusable := false }) else s
    let s := tellUnusable s q
    holdCycle (s.live 0x14 0 (unusableWait s)) q

/-- The segment boundary reached with `e` as the next entry and `i` as the vector it starts at (R194, R208, R209). -/
def boundary (s : State) (q e i : Nat) : State :=
  let s := leaveFirst s q
  let x := s.seq q
  match x.stop with
  | some t => finishBurst s q t.cause
  | none =>
    let taken := match x.jump with
      | some j => (match j.registered with | some k => decide (k + 3 ≤ x.cycle) | none => false)
      | none => false
    let deferred := x.jump.any (fun j => j.deferred)
    let target := (x.jump.map (fun j => j.target)).getD 0
    let s := if taken then (clearStacks s q).modSeq q (fun x => { x with jump := none, back := false, jumped := some deferred })
      else s.modSeq q (fun x => { x with
        jump := x.jump.map (fun j => { j with deferred := j.deferred || j.registered.isSome })
        jumped := if x.mode = .starveHold then x.jumped else none })
    let e := if taken then target else e
    let i := if taken then 0 else i
    let jumped := (s.seq q).jumped
    let l := (s.strm x.stream).list
    let fresh := taken || decide (x.mode ≠ .starveHold)
    match l[e]? with
    | none => if (s.strm x.stream).sealed then finishBurst s q 0 else starveOn s q e jumped
    | some g =>
      let y := s.segm g
      if y.registered && y.resident && !y.unusable && (fresh || decide (256 * (x.residentAt + 32) ≤ x.next)) then
        startInstance s q e g i jumped
      else starveOn s q e jumped

/-- The next vector of the instance, or the boundary after its last one (R194). -/
def nextVector (s : State) (q : Nat) : State :=
  let x := s.seq q
  if x.index + 1 < (s.segm x.segment).copy.vectors then runVector (s.modSeq q (fun x => { x with index := x.index + 1 })) q
  else boundary s q (x.entry + 1) 0

/-- LOOP reached in sequence pushes (R188, R199). -/
def pushLoop (s : State) (q n : Nat) : State :=
  let x := s.seq q
  let s := if x.loops.length < 8 then s
    else (match x.loops.getLast? with
      | some f => stackFault ((dropFrame s f).modSeq q (fun x => { x with loops := x.loops.dropLast })) q 0
      | none => s)
  let s := s.modSeq q (fun y => { y with
    loops := { entry := x.entry, vector := x.index, left := n, first := true, pins := [] } :: y.loops })
  pinLoops s q x.segment

/-- END_LOOP (R187, R188). -/
def endLoop (s : State) (q : Nat) : State :=
  let x := s.seq q
  match x.loops with
  | [] => nextVector (stackFault s q 2) q
  | f :: r =>
    if 1 < f.left then
      let s := s.modSeq q (fun x => { x with loops := { f with left := f.left - 1, first := false } :: r, back := true })
      let last := decide (x.index + 1 = (s.segm x.segment).copy.vectors)
      if f.entry = x.entry && !(decide (f.vector = 0) && last) then runVector (s.modSeq q (fun x => { x with index := f.vector })) q
      else boundary s q f.entry f.vector
    else nextVector ((dropFrame s f).modSeq q (fun x => { x with loops := r })) q

/-- A repetition of WAIT_TRIG (R192, R218): the vector again with its compares masked, its flags as in the vector. -/
def trigCycle (s : State) (q : Nat) : State :=
  runCycle (s.modSeq q (fun x => { x with mode := .trigWait })) q (seqVec s q) (some false) true (some .normal)

/-- A branch-wait or match-wait cycle of the present vector (R190, R191): it is no execution of the vector, so that its flags
do nothing (DESIGN CHOICE 178). -/
def waitCycle (s : State) (q : Nat) (mode : SeqMode) (counts : Bool) : State :=
  runCycle (s.modSeq q (fun x => { x with mode := mode })) q (seqVec s q) (some false) counts none

/-- A wait of WAIT_TRIG is over at the cycle start: the edge is 20 ns old, or a jump request or BURST_STOP ends it (R192). -/
def trigOver (x : SeqState) : Bool :=
  x.jump.any (fun j => j.registered.isSome) || x.stop.any (fun t => t.endsWait) ||
  (match x.waitDone with | some t => decide (t ≤ x.next) | none => false)

/-- What follows the cycle that ends (R185, R187, R190 to R192). -/
def afterCycle (s : State) (q : Nat) : State :=
  let x := s.seq q
  let v := seqVec s q
  match x.mode with
  | .starveHold => boundary s q x.awaited 0
  | .matching =>
    if (match x.waitDone with | some t => decide (t ≤ x.next) | none => false) then nextVector s q
    else if x.reps < v.operand ∧ x.waitDone.isNone then
      runCycle (s.modSeq q (fun x => { x with reps := x.reps + 1 })) q v none true
        (some (.matchRep (decide (x.reps + 1 = v.operand))))
    else waitCycle s q .matching false
  | _ =>
    if v.op = 1 ∧ x.reps < v.operand then
      runCycle (s.modSeq q (fun x => { x with reps := x.reps + 1 })) q v none true (some .normal)
    else if v.op = 2 then
      nextVector (if x.back then s.modSeq q (fun x => { x with back := false }) else pushLoop s q v.operand) q
    else if v.op = 3 then endLoop s q
    else if v.op = 4 then
      let s := if x.calls.length < 8 then s
        else stackFault (s.modSeq q (fun x => { x with calls := x.calls.dropLast })) q 1
      boundary (s.modSeq q (fun y => { y with calls := (x.entry + 1) :: y.calls })) q v.operand 0
    else if v.op = 5 then
      match x.calls with
      | e :: r => boundary (s.modSeq q (fun x => { x with calls := r })) q e 0
      | [] => boundary (stackFault s q 3) q (x.entry + 1) 0
    else if v.op = 6 then boundary s q v.operand 0
    else if v.op = 7 then
      if x.judge.isEmpty then boundary s q (if x.failFlag then v.operand else x.entry + 1) 0
      else waitCycle s q .branchWait false
    else if v.op = 8 then
      if trigOver x then nextVector s q else trigCycle s q
    else if v.op = 11 then (match x.stop with | some t => finishBurst s q t.cause | none => finishBurst (leaveFirst s q) q 0)
    else nextVector s q

/-- VECTOR_CYCLE (R187): the site's next cycle start. A judgement due by then comes first; in ENDING the end records are
tried again. With the stem pattern blocks in IDLE nothing runs (R42). -/
def execVectorCycle (q : Seq) (s : State) : Host.Outcome State Fault Refusal :=
  .next (
    let q := q.val
    let x := s.seq q
    if s.clk.stemIdle then s
    else match x.mode with
    | .idle | .armed => s
    | .ending => settleBurst s q
    | _ =>
      if x.judge.any (fun j => decide (j.due ≤ x.next)) then s
      else
        let s := s.reach (x.next / 256)
        let s := if x.stop.isNone && decide (seqLevel s q = 3) then latchStop s q 6 true else s
        startFetch (match (s.seq q).stop with
        | some t => if !t.atBoundary then finishBurst s q t.cause else afterCycle s q
        | none => if siteRuns (s.seq q) && decide ((s.seq q).mode ≠ .ending) then afterCycle s q else s))

/-- BURST_START (R227): the armed sites whose start time is `ts`. -/
def execBurstStart (ts : Nat) (s : State) : Host.Outcome State Fault Refusal :=
  .next (
    let l := (List.range 64).filter (fun q => decide ((s.seq q).mode = .armed) && decide ((s.seq q).start = .at ts))
    if l.isEmpty then s
    else startFetch (l.foldl (fun s q =>
      let x := s.seq q
      let s := s.modSeq q (fun x => { x with next := 256 * ts, failFlag := false })
      match entrySeg s x.stream x.entry with
      | some g => startInstance (trigEvent s q 3 ts) q x.entry g 0 none
      | none => s) (s.reach ts)))

/-- Whether a lane's judgement passes (R118); a detached comparator fails every compare (R113), and CZ always fails where the
thresholds are equal (R119: `sharp`). -/
def lanePasses (code : Nat) (detached lost sharp : Bool) (c : LaneCmp) : Bool :=
  if lost || detached || (sharp && decide (code = 6)) then false
  else if code = 4 ∨ code = 10 then decide (c.state = .low)
  else if code = 5 ∨ code = 11 then decide (c.state = .high)
  else if code = 6 then decide (c.state = .mid)
  else !c.changed

/-- CAPT codes of R387: 0 not CAPT, 1 L, 2 M, 3 H. -/
def captCode (code : Nat) (detached : Bool) (c : LaneCmp) : Nat :=
  if code ≠ 12 then 0 else if detached then 2 else match c.state with | .low => 1 | .mid => 2 | .high => 3

/-- Fields of one or two bits per lane packed into 4-byte words, least significant lane first (R387). -/
def packLanes (width : Nat) (l : List Nat) : List Byte :=
  let per := 32 / width
  let n := (l.length + per - 1) / per
  toBytes (4 * n) ((List.range l.length).foldl (fun acc j => acc + l.getD j 0 * 2 ^ (width * j)) 0)

/-- A failing vector (R189, R211, R213, R215), whose judgement is complete at fine step `due`: flag, counts, trigger, fail
pulse. -/
def failingVector (s : State) (q due vectors : Nat) (lanes : List Nat) : State :=
  let s := s.modSeq q (fun x => { x with
    failFlag := true
    fails := x.fails + 1
    firstFail := match x.firstFail with | some v => some v | none => some vectors
    laneFails := lanes.foldl (fun t j => tmod (fun _ => 0) t j (fun n => satAdd max32 n 1)) x.laneFails })
  seqPulse (trigEvent s q 5 (due / 256)) q 48 due

/-- The judgement that completes first; of equals the oldest. -/
def firstDue (l : List Judgement) : Option Judgement := l.find? (fun j => l.all (fun k => decide (j.due ≤ k.due)))

/-- VECTOR_JUDGEMENT (R189, R191, R213). Only the records of failing vectors count against FAIL_LIMIT, not those that the LOG
flag alone asks for (DESIGN CHOICE 179). -/
def execVectorJudgement (q : Seq) (lanes : List LaneCmp) (s : State) : Host.Outcome State Fault Refusal :=
  .next (
    let q := q.val
    let x := s.seq q
    match firstDue x.judge with
    | none => s
    | some j =>
      let s := s.reach (j.due / 256)
      let s := s.modSeq q (fun x => { x with judge := x.judge.erase j })
      let off := fun (i : Nat) => padDetached s (x.lanes.getD i 0)
      let cmp := fun (i : Nat) => lanes.getD i { state := .mid, changed := false }
      let all := List.range x.lanes.length
      let bad := all.filter (fun i => decide (j.codes.getD i 16 < 16) && decide (j.codes.getD i 16 ≠ 12) &&
        !lanePasses (j.codes.getD i 16) (off i) (j.lost.contains i) (sharpPin s (x.lanes.getD i 0)) (cmp i))
      let s := if j.clrfail then s.modSeq q (fun x => { x with failFlag := false }) else s
      -- repetitions of MATCH (R191): those of a MATCH that the site has left have no effect
      let open' := decide (x.waitFrom ≤ j.start) && x.waitDone.isNone
      let timeout := decide (j.kind = .matchRep true) && open' && !bad.isEmpty
      let s := match j.kind with
        | .normal => s
        | .matchRep last => if !open' then s else s.modSeq q (fun x => { x with
            waitDone := if bad.isEmpty || last then some j.due else none
            matchTimeouts := if timeout then satAdd max32 x.matchTimeouts 1 else x.matchTimeouts })
      let fails := !bad.isEmpty && (decide (j.kind = .normal) || timeout)
      let s := if fails then failingVector s q j.due j.vectors bad else s
      let byFail := fails && bit x.logMode 0 && decide (x.emitted < x.failLimit)
      let byLog := j.log && bit x.logMode 1 && decide (j.kind = .normal)
      let s := if byFail || byLog then
          let n := x.lanes.length
          let units := (40 + 4 * ((n + 31) / 32) + 4 * ((n + 15) / 16) + 15) / 16
          let body := [b8 q, b8 (flag 0 fails + flag 1 byLog)] ++ toBytes 2 n ++ toBytes 2 x.tag ++ toBytes 2 j.entry ++
            toBytes 8 j.vectors ++ toBytes 2 j.segment ++ [b8 (j.start % 256), 0] ++ toBytes 4 j.index ++
            packLanes 1 (all.map (fun i => b2n (bad.contains i))) ++
            packLanes 2 (all.map (fun i => captCode (j.codes.getD i 16) (off i) (cmp i)))
          let (s, ok) := burstRecord s q units 3 0 (j.start / 256) body
          if ok && fails then s.modSeq q (fun x => { x with emitted := x.emitted + 1 }) else s
        else s
      settleBurst s q)

/-- BURST_STOP (R228). -/
def execBurstStop (s : State) : Host.Outcome State Fault Refusal :=
  .next (onCommand s 0x0304 (fun _ => true) (fun c =>
    let l := (seqMask c).filter (fun q => siteRuns (s.seq q))
    checked s [needParam (decide (par c 4 ≤ 1)) 4, needState (!l.isEmpty) 1]
      (fun s => postOk (l.foldl (fun s q => latchStop s q 8 (decide (par c 4 = 1))) s) [w16 l.length])))

/-- JUMP_REQUEST (R208, R229). -/
def execJumpRequest (s : State) : Host.Outcome State Fault Refusal :=
  .next (onCommand s 0x0305 (fun _ => true) (fun c =>
    let named := seqMask c
    let l := named.filter (fun q => siteRuns (s.seq q))
    checked s
      [needParam (l.all (fun q => decide (par c 4 < (s.strm (s.seq q).stream).list.length))) 4,
       needState (!l.isEmpty) 1]
      (fun s =>
        let s := l.foldl (fun s q => s.modSeq q (fun x => { x with
          jump := some { target := par c 4, registered := none, deferred := false } })) s
        let s := startFetch s
        if l.length = named.length then postOk s [w16 l.length] else postResponse s 2 l.length [w16 l.length])))

/-- A rising or falling edge of TINn reaches what waits for it (R192, R226, R274): WAIT_TRIG 20 ns on, and the starts of
bursts 100 ns on. -/
def tinReleases (s : State) (n : Nat) (falling : Bool) (stamp : Nat) : State :=
  (List.range 64).foldl (fun s q =>
    let x := s.seq q
    if x.mode = .armed then
      if x.start = .tin n falling then s.modSeq q (fun x => { x with start := .at (roundUp (stamp + 320) 16) }) else s
    else if x.mode = .exec ∨ x.mode = .trigWait then
      let v := seqVec s q
      if v.op = 8 ∧ v.operand = n + (if falling then 4 else 0) ∧ x.waitDone.isNone ∧ x.waitFrom < 256 * stamp then
        s.modSeq q (fun x => { x with waitDone := some (256 * (stamp + 64)) })
      else s
    else s) s

/-- TRIG_PULSE_END (R211). -/
def execTrigPulseEnd (n : Fin 8) (s : State) : Host.Outcome State Fault Refusal :=
  .next (match (s.trig n.val).pulses with
    | (_, b) :: r => (s.reach b).modTrig n.val (fun x => { x with pulses := r })
    | [] => s)

end Sys2Proof.Machine
end

