-- ==== Sys2Proof/Machine/MeasOps.lean ====
section
/-! DEFINITION. The full scales of the loops (R233, R234, R236), and what a delivered sample does to the averagers: windows,
raw streams, lock-ins and their records (spec/10). -/

namespace Sys2Proof.Machine

/-- Stage bound to a loop in an external mode, and its identity block (R240, R443). -/
def stageWord (s : State) (l i : Nat) : BitVec 32 := wF32 (s.stage (s.loop l).stageId).ident i

/-- Full scale of a loop's current in amperes (R234): 1.25 × the range of R6, 0.1 V / shunt in code 5. -/
def fsCurr (s : State) (l irange : Nat) : Frac :=
  let n := (s.loop l).gang
  let base :=
    if irange = 5 then (dec 1 1).div (f32 (stageWord s l 2))
    else if l < 512 then
      if irange = 0 then dec 25 7 else if irange = 1 then dec 25 6 else if irange = 2 then dec 25 5
      else if irange = 3 then dec 25 4 else dec 4 2
    else
      if irange = 0 then dec 25 6 else if irange = 1 then dec 25 5 else if irange = 2 then dec 25 4
      else if irange = 3 then dec 25 3 else dec 32 2
  base.mul (Frac.ofInt n)

/-- Full scale of a loop's voltage in volts (R234, R240). -/
def fsVolt (s : State) (l vrange : Nat) : Frac :=
  if l < 512 then dec 875 2
  else
    let base := if vrange = 0 then dec 625 2 else dec 25 0
    if (s.loop l).stage = 0 then base else base.mul (f32 (stageWord s l 4))

/-- A code of a full scale: nearest, ties away from zero, saturated to ±32 767. -/
def codeOf (x fs : Frac) : Int := clampI (-32767) 32767 ((x.mul (Frac.ofInt 32768)).div fs).round

/-- Full scale of a loop's voltage (true) or current in the ranges given. -/
def fsOf (s : State) (l : Nat) (volt : Bool) (irange vrange : Nat) : Frac :=
  if volt then fsVolt s l vrange else fsCurr s l irange

/-- Gain and offset that the calibration in use gives a loop's range (R236, DESIGN CHOICE 181): none for a pin's voltage, nor
for a stage that regulates itself. -/
def rangeCal (s : State) (l : Nat) (volt : Bool) (irange vrange : Nat) : Frac × Int :=
  if (s.loop l).stage = 2 then (Frac.ofInt 1, 0)
  else match rangeEntry l volt irange vrange with
    | some k => (calGain s k, calOffset s k)
    | none => (Frac.ofInt 1, 0)

/-- A difference of a loop's quantity in codes, not yet rounded: an amplitude, a hysteresis, a rate. -/
def spanOf (s : State) (l : Nat) (volt : Bool) (irange vrange : Nat) (v : Frac) : Frac :=
  (rangeCal s l volt irange vrange).1.mul ((v.mul (Frac.ofInt 32768)).div (fsOf s l volt irange vrange))

/-- The code of a difference. -/
def spanCode (s : State) (l : Nat) (volt : Bool) (irange vrange : Nat) (v : Frac) : Int :=
  clampI (-32767) 32767 (spanOf s l volt irange vrange v).round

/-- The code of a set-point or limit in volts or amperes (R236): the calibration in use, nearest, ties away from zero,
saturated to ±32 767. -/
def setCode (s : State) (l : Nat) (volt : Bool) (irange vrange : Nat) (v : Frac) : Int :=
  clampI (-32767) 32767
    ((spanOf s l volt irange vrange v).add (Frac.ofInt (rangeCal s l volt irange vrange).2)).round

/-- A code rescaled from one full scale to another (R254, R327): nearest, ties away from zero. -/
def rescale (c : Int) (a b : Frac) : Int := (((Frac.ofInt c).mul a).div b).round

/-- Sample period of a loop in ticks and the aperture's lead on its boundary (R231, R318). -/
def loopPeriod (l : Nat) : Nat := if l < 512 then 3200 else 800
def aperture (l : Nat) : Nat := if l < 512 then 512 else 384

/-- QUANTITY of a channel (R321): V or I of a loop, or a monitor reading. -/
def quantityOf (key : Nat) (volt : Bool) : Nat :=
  if 2048 ≤ key then 4 else (if key < 512 then 0 else 2) + (if volt then 0 else 1)

/-- RANGE of a channel (R321). -/
def rangeField (key : Nat) (volt : Bool) (x : Sample) : Nat :=
  if 2048 ≤ key then 0 else if volt then (if key < 512 then 0 else x.vrange) else x.irange

/-- Bits 31:16 of a measurement word, the DESC of R386. -/
def descOf (key : Nat) (volt : Bool) (x : Sample) : Nat :=
  rangeField key volt x + 8 * quantityOf key volt + flag 7 (if volt then x.vOvr else x.iOvr) + flag 8 x.settling +
  flag 9 x.held + flag 10 (decide (512 ≤ key) && decide (key < 2048) && decide (x.vrange = 1))

/-- A measurement word (R321). -/
def measWord (key : Nat) (volt : Bool) (x : Sample) : List Byte :=
  toBytes 2 (toTwos 16 (if volt then x.v else x.i)) ++ toBytes 2 (descOf key volt x)

/-- SRC_KIND and SOURCE of an averager's records (R389). -/
def srcKind (key : Nat) : Nat := if key < 2048 then 0 else 1
def srcOf (key : Nat) (slot : Option Nat) : Nat := if key < 2048 then key else 256 * (key - 2048) + slot.getD 0

/-- Stager of an averager: its bed's (R368). -/
def keyBed (key : Nat) : Nat := if key < 2048 then loopBed key else key - 2048

/-- Prescale of a window of at most `n` samples (R325). -/
def prescale (n : Nat) : Nat := clog2 n - 8

/-- A configured channel of a window changed its range since the window's first sample (R327). -/
def rangeMoved (key : Nat) (w : Window) (x : Sample) : Bool :=
  match w.first with
  | some f => decide (key < 2048) &&
      ((w.chV && decide (512 ≤ key) && decide (x.vrange ≠ f.vrange)) || (w.chI && decide (x.irange ≠ f.irange)))
  | none => false

/-- The code of a sample in the range of the window's first sample, and whether it saturated (R327). -/
def windowCode (s : State) (key : Nat) (volt : Bool) (w : Window) (x : Sample) : Int × Bool :=
  let c := if volt then x.v else x.i
  match w.first with
  | none => (c, false)
  | some f =>
    if key < 2048 ∧ (if volt then x.vrange ≠ f.vrange else x.irange ≠ f.irange) then
      let y := rescale c (fsOf s key volt x.irange x.vrange) (fsOf s key volt f.irange f.vrange)
      (sat y 16, decide (sat y 16 ≠ y))
    else (c, false)

/-- One used sample enters one channel of a window (R325, R327). -/
def accumulate (a : Accum) (c : Int) (p : Nat) (ovr : Bool) : Accum :=
  { a with acc := a.acc + rsh (c * 65536) p, cmin := min a.cmin c, cmax := max a.cmax c, ovr := a.ovr || ovr }

/-- A window with an OVR sample of a configured channel (R327). -/
def windowOvr (w : Window) : Bool := (w.chV && w.v.ovr) || (w.chI && w.i.ovr)

/-- One sample enters an averager window (R325 to R327). -/
def windowAdd (s : State) (key : Nat) (w : Window) (x : Sample) : Window :=
  if x.settling || x.held then { w with skipped := satAdd max16 w.skipped 1 }
  else
    let p := prescale w.size
    let (cv, ov) := windowCode s key true w x
    let (ci, oi) := windowCode s key false w x
    { w with
      n := w.n + 1
      v := accumulate w.v cv p (x.vOvr || ov)
      i := accumulate w.i ci p (x.iOvr || oi)
      first := if w.first.isNone then some x else w.first
      last := some x
      mixed := w.mixed || rangeMoved key w x
      unref := w.unref || x.unref }

/-- Units of a window's record (R328, R386). -/
def windowUnits (size : Nat) (both : Bool) : Nat := if size = 1 then 3 else if both then 5 else 4

/-- Mean of a channel (R325), 0 for an empty window. -/
def meanOf (a : Int) (p n : Nat) : Int := if n = 0 then 0 else sat (roundAway (a * 2 ^ p) n) 32

/-- The record of a window (R328, R389): its type, TIME and body. `short` is a sweep's SHORT. -/
def windowRecord (key : Nat) (slot : Option Nat) (tag index : Nat) (w : Window) (short : Bool) (now : Nat) : Nat × Nat × List Byte :=
  let ch := flag 0 w.chV + flag 1 w.chI
  let time := match w.first with | some x => x.time | none => now
  if w.size = 1 then
    let x := w.first.getD { time := now, v := 0, i := 0, vOvr := false, iOvr := false, irange := 0, vrange := 0, settling := false, held := false, unref := false }
    (4, time, [b8 (srcKind key), b8 ch] ++ toBytes 2 (srcOf key slot) ++ toBytes 2 tag ++ [0, 0] ++ toBytes 4 index ++
      (if w.chV then measWord key true x else []) ++ (if w.chI then measWord key false x else []))
  else
    let p := prescale w.size
    let fl := flag 0 (windowOvr w) + flag 1 w.mixed + flag 2 short + flag 3 (w.n = 0) + flag 4 w.minmax
    let block := fun (volt : Bool) =>
      let a := if volt then w.v else w.i
      let d := match w.first with | some x => descOf key volt { x with vOvr := a.ovr, iOvr := a.ovr } | none => 0
      toBytes 4 (toTwos 32 (meanOf a.acc p w.n)) ++ toBytes 2 d ++
      (if w.minmax then toBytes 2 (toTwos 16 a.cmin) ++ toBytes 2 (toTwos 16 a.cmax) else [0, 0, 0, 0]) ++ List.replicate 6 0
    (5, time, [b8 (srcKind key), b8 ch] ++ toBytes 2 (srcOf key slot) ++ toBytes 2 tag ++ toBytes 2 fl ++ toBytes 4 index ++
      toBytes 4 w.n ++ toBytes 8 (match w.last with | some x => x.time | none => now) ++ toBytes 2 w.skipped ++ List.replicate 6 0 ++
      (if w.chV then block true else []) ++ (if w.chI then block false else []))

/-- The end of a measurement run (R334): its COMPLETION; the averager is free. -/
def endMeasRun (s : State) (key cause : Nat) : State :=
  match (s.avg key).run with
  | none => s
  | some r =>
    let s := s.modAvg key (fun a => { a with run := none })
    let s := leaveWaiters s r.ring (.measWindow key)
    let s := if r.units = 0 then s else returnCredit s r.ring r.units
    let s := if r.rawV.credit then returnCredit s r.ring 10 else s
    let s := if r.rawI.credit then returnCredit s r.ring 10 else s
    endWork s { workEnd s r.tag r.hdrRing (if cause = 0 then 0 else 2) (if cause = 0 then 0 else r.done % 65536)
        (if key < 2048 then 3 else 4) (if key < 2048 then key else key - 2048) (if cause = 0 then 1 else 2) cause 0 r.done with
      flags := flag 3 s.clk.holdover }

/-- A window ends: its record with its credit (R328, R333), then the run's next step (R334). Staging busy: it waits. A window cut
short writes its record with PARTIAL. -/
def endMeasWindow (s : State) (key : Nat) (part : Bool) : State :=
  match (s.avg key).run with
  | none => s
  | some r =>
    match r.win with
    | none => s
    | some w =>
      let u := windowUnits w.size (w.chV && w.chI)
      let (typ, time, body) := windowRecord key r.slot r.tag r.done w false s.now
      let fl := flag 2 part + flag 3 w.unref
      if part then
        modMeasRun (if r.units = 0 then s else placeLast s (keyBed key) r.ring r.units u r.tag typ fl time body) key
          (fun r => { r with win := none, units := 0 })
      else
      let (s, ok) := if r.units = 0 then (s, true) else placeHeld s (keyBed key) r.ring r.units u r.tag typ fl time body
      if !ok then s
      else
        let s := modMeasRun s key (fun r => { r with win := none, units := 0, done := r.done + 1, skip := r.gap })
        let s := s.modProg r.tag (fun e => { e with steps := r.done + 1 })
        if r.stopping ∨ r.done + 1 = r.blocks then endMeasRun s key 0 else s

/-- The window that the run's next sample starts (R344, R345). -/
def newWindow (s : State) (key : Nat) (r : MeasRun) : Window :=
  let a := s.avg key
  let mon := r.slot.isSome
  { size := if mon then r.n else a.n, chV := mon || a.v, chI := !mon && a.i, minmax := a.minmax }

/-- Units of the record of the run's next window. -/
def nextUnits (s : State) (key : Nat) (r : MeasRun) : Nat :=
  let w := newWindow s key r
  windowUnits w.size (w.chV && w.chI)

/-- The run waits for a window, and does not hold the units of its record. -/
def lacksUnits (s : State) (key : Nat) : Bool :=
  match (s.avg key).run with
  | some r => r.win.isNone && decide (r.units ≠ nextUnits s key r)
  | none => false

/-- Ask for the units of the run's next record; units held for a record of another size go back first. -/
def askUnits (s : State) (key : Nat) : State :=
  match (s.avg key).run with
  | some r =>
    let u := nextUnits s key r
    let s := if r.units = 0 then s else modMeasRun (returnCredit s r.ring r.units) key (fun r => { r with units := 0 })
    let (s, a) := askCredit s r.ring u (.measWindow key)
    if a = .held then modMeasRun s key (fun r => { r with units := u }) else s
  | none => s

/-- A window of the run may start (R333): its credit is held, or the ring drops; under STALL all loops of the command wait
together. -/
def askWindow (s : State) (key : Nat) (r : MeasRun) : State × Bool :=
  let keys := if ringDrops s r.ring then [key] else r.group
  let s := keys.foldl (fun s k => if lacksUnits s k then askUnits s k else s) s
  (s, ringDrops s r.ring || !r.group.any (lacksUnits s))

/-- A sample reaches an AVERAGE run. A window that has met its end and whose row has not come ends first. -/
def feedAverage (s : State) (key : Nat) (x : Sample) : State :=
  let s := match (s.avg key).run with
    | some r => (match r.win with | some w => if w.size ≤ w.n then endMeasWindow s key false else s | none => s)
    | none => s
  match (s.avg key).run with
  | none => s
  | some r =>
    match r.win with
    | some w => if w.size ≤ w.n then s else modMeasRun s key (fun r => { r with win := some (windowAdd s key w x) })
    | none =>
      if r.stopping then endMeasRun s key 0
      else if 0 < r.skip then modMeasRun s key (fun r => { r with skip := r.skip - 1 })
      else
        let w := newWindow s key r
        let (s, ok) := askWindow s key r
        if ok then modMeasRun s key (fun r => { r with win := some (windowAdd s key w x) }) else s

/-- Close a raw record (R332, R333): written with its length, the difference returned; without credit it is lost. -/
def closeRaw (s : State) (key : Nat) (volt : Bool) : State :=
  match (s.avg key).run with
  | none => s
  | some r =>
    let b := if volt then r.rawV else r.rawI
    let put := fun (s : State) (b : RawBuf) => modMeasRun s key (fun r => if volt then { r with rawV := b } else { r with rawI := b })
    match b.first with
    | none => put s { b with full := false }
    | some f =>
      let n := b.codes.length
      let u := (32 + 2 * n + 15) / 16
      let desc := descOf key volt { f with vOvr := b.ovr, iOvr := b.ovr }
      let body := [b8 (srcKind key), b8 n] ++ toBytes 2 (srcOf key r.slot) ++ toBytes 2 r.tag ++
        toBytes 2 (flag 0 b.ovr + flag 1 b.gap) ++ toBytes 2 r.decim ++ toBytes 2 desc ++ toBytes 4 b.skipped ++
        b.codes.flatMap (fun c => toBytes 2 (toTwos 16 c))
      let (s, ok) := if b.credit then placeHeld s (keyBed key) r.ring 10 u r.tag 0x0B (flag 3 b.unref) f.time body else (s, false)
      if ok then
        let s := put s { skipped := b.skipNext }
        let s := modMeasRun s key (fun r => { r with done := r.done + 1 })
        let s := s.modProg r.tag (fun e => { e with steps := r.done + 1 })
        let other := if volt then r.rawI else r.rawV
        if (r.stopping ∧ other.first.isNone) ∨ r.done + 1 = r.blocks then endMeasRun s key 0 else s
      else
        let s := if b.credit then returnCredit s r.ring 10 else s
        if ringDrops s r.ring then put (if b.credit then dropRecord s r.ring 2 else s) { skipped := b.skipNext }
        else put s { gap := true, skipped := satAdd max32 (satAdd max32 b.skipped n) b.skipNext }

/-- One channel of a RAW run takes a sample (R332, R333). -/
def feedRawChannel (s : State) (key : Nat) (volt : Bool) (x : Sample) : State :=
  let buf := fun (s : State) => match (s.avg key).run with
    | some r => if volt then r.rawV else r.rawI
    | none => {}
  let b := buf s
  let other := match b.first with
    | some f => decide ((if volt then f.vrange else f.irange) ≠ (if volt then x.vrange else x.irange))
    | none => false
  let s := if b.full || (other && !x.settling && !x.held) then closeRaw s key volt else s
  match (s.avg key).run with
  | none => s
  | some r =>
    let b := buf s
    let put := fun (s : State) (b : RawBuf) => modMeasRun s key (fun r => if volt then { r with rawV := b } else { r with rawI := b })
    if r.stopping && b.first.isNone then s
    else if x.settling || x.held then
      -- left out, and counted in the SKIPPED of the record that starts next
      if b.first.isNone then put s { b with skipped := satAdd max32 b.skipped 1 }
      else put s { b with skipNext := satAdd max32 b.skipNext 1 }
    else
      let start := b.first.isNone
      let (s, a) := if start then
          (match reserve s r.ring 10 with
           | some t => (t, Ask.held)
           | none => if ringDrops s r.ring then (dropRecord s r.ring 1, Ask.dropped) else (s, Ask.waits))
        else (s, Ask.held)
      if start && decide (a = .waits) then put s { b with gap := true, skipped := satAdd max32 b.skipped 1 }
      else
        let codes := b.codes ++ [if volt then x.v else x.i]
        put s { b with
          codes := codes
          first := if start then some x else b.first
          ovr := b.ovr || (if volt then x.vOvr else x.iOvr)
          unref := b.unref || x.unref
          credit := if start then decide (a = .held) else b.credit
          full := decide (64 ≤ codes.length) }

/-- A sample reaches a RAW run: every D-th is taken (R345). -/
def feedRaw (s : State) (key : Nat) (r : MeasRun) (x : Sample) : State :=
  if 0 < r.skip then modMeasRun s key (fun r => { r with skip := r.skip - 1 })
  else
    let a := s.avg key
    let s := modMeasRun s key (fun r => { r with skip := r.decim - 1 })
    let s := if r.slot.isSome || a.v then feedRawChannel s key true x else s
    if r.slot.isNone && a.i then feedRawChannel s key false x else s

/-- Chip time of the sample boundary before the one that completes a sample: a run that starts at a boundary takes the
samples after it (R318, R345). A monitor reading has only its aperture. -/
def sampleFrom (key : Nat) (x : Sample) : Nat := if key < 2048 then x.time + aperture key - loopPeriod key else x.time

/-- A sample reaches an averager's measurement run, once its start time has come: windows start at the sample boundary at or
after it (R345). -/
def feedMeas (s : State) (key : Nat) (x : Sample) : State :=
  match (s.avg key).run with
  | none => s
  | some r =>
    if !started r.start (sampleFrom key x) then s
    else if r.raw then feedRaw s key r x
    else feedAverage s key x

/-- The quarter-wave table of R305 by its Taylor series in fixed point with 64 fraction bits: round(32 767 × sin(π/2 × i /
4 096)). -/
def sineTable (i : Nat) : Int :=
  if i ≥ 4096 then 32767
  else
    -- π/2 × 2^64, and the angle
    let x : Int := 28976077338029890953 * i / 4096
    let x2 := x * x / 2 ^ 64
    let step := fun (acc : Int × Int) (k : Nat) =>
      let t := -(acc.2 * x2 / 2 ^ 64) / ((2 * k) * (2 * k + 1))
      (acc.1 + t, t)
    let y := ((rangeFrom 1 12).foldl step (x, x)).1
    (y * 32767 + 2 ^ 63) / 2 ^ 64

/-- The sine of a phase in 32-bit turns (R305). -/
def sineOf (phase : Nat) : Int :=
  let q := phase / 2 ^ 30 % 4
  let r0 := phase % 2 ^ 30
  let r := if q % 2 = 1 then 2 ^ 30 - r0 else r0
  let i : Nat := r / 2 ^ 18
  let fr : Nat := r % 2 ^ 18
  let y := sineTable i + rsh ((sineTable (i + 1) - sineTable i) * (fr : Int)) 18
  if 2 ≤ q then -y else y

/-- The phase of a sine at chip time `t` (R304). -/
def sinePhase (fw phi0 epoch t : Nat) : Nat :=
  ((((fw : Int) * ((t : Int) - (epoch : Int))) / (2 ^ 14 : Int) + (phi0 : Int)) % (2 ^ 32 : Int)).toNat

/-- The sine run of a loop, if one runs. -/
def sineOn (s : State) (l : Nat) : Option SineRun :=
  match (s.loop l).source with | .sine r => some r | _ => none

/-- FW and PHI0 of a sine in force at a chip time: those before the latest changes that took effect after it (R306, R329). -/
def sineAt (r : SineRun) (time : Nat) : Nat × Nat :=
  r.past.foldl (fun a p => if time < p.time then (p.fw, p.phi0) else a) (r.fw, r.phi0)

/-- A change of the sine took effect after the aperture of the sample before, and not after this one's. -/
def changeCame (l : Nat) (x : Sample) (p : SinePast) : Bool := decide (p.time ≤ x.time) && decide (x.time < p.time + loopPeriod l)

/-- One used sample enters a lock-in window (R329); `fw` is the reference's FW at it. -/
def lockAdd (s : State) (l : Nat) (p ph fw : Nat) (w : Window) (x : Sample) : Window :=
  if x.settling || x.held then { w with skipped := satAdd max16 w.skipped 1, fw := fw }
  else
    let (cv, ov) := windowCode s l true w x
    let (ci, oi) := windowCode s l false w x
    let add := fun (a : Accum) (c : Int) (o : Bool) => { a with
      ovr := a.ovr || o
      acc := a.acc + sat (rsh (c * sineOf ph) ((p : Int) - 1)) 40
      accC := a.accC + sat (rsh (c * sineOf ((ph + 2 ^ 30) % 2 ^ 32)) ((p : Int) - 1)) 40 }
    { w with
      n := w.n + 1
      v := add w.v cv (x.vOvr || ov)
      i := add w.i ci (x.iOvr || oi)
      first := if w.first.isNone then some x else w.first
      last := some x
      mixed := w.mixed || rangeMoved l w x
      unref := w.unref || x.unref
      fw := fw }

/-- The end of a lock-in run (R331, R334): PARTIAL with its cause, or OK. -/
def endLockRun (s : State) (l : Nat) (part : Bool) (cause : Nat) : State :=
  match (s.avg l).lock with
  | none => s
  | some r =>
    let s := s.modAvg l (fun a => { a with lock := none })
    let s := leaveWaiters s r.ring (.lockWindow l)
    let s := if r.credit then returnCredit s r.ring (if r.v && r.i then 5 else 4) else s
    endWork s { workEnd s r.tag r.hdrRing (if part then 2 else 0) (if part then r.done % 65536 else 0) 3 l
        (if part then 2 else 1) cause 0 r.done with
      flags := flag 3 s.clk.holdover }

/-- Units, time and body of the LOCKIN record of a window (R329, R386, R389). -/
def lockRecord (s : State) (l : Nat) (r : LockRun) (w : Window) : Nat × Nat × List Byte :=
  let fl := flag 0 (windowOvr w) + flag 1 w.mixed + flag 2 w.truncated + flag 3 w.fwChanged
  let block := fun (volt : Bool) =>
    let a := if volt then w.v else w.i
    let d := match w.first with | some x => descOf l volt { x with vOvr := a.ovr, iOvr := a.ovr } | none => 0
    toBytes 4 (toTwos 32 (meanOf a.acc r.p w.n)) ++ toBytes 4 (toTwos 32 (meanOf a.accC r.p w.n)) ++ toBytes 2 d ++ List.replicate 6 0
  let body := toBytes 2 l ++ toBytes 2 r.ref ++ toBytes 2 r.tag ++ toBytes 2 fl ++ toBytes 4 r.done ++ toBytes 4 w.n ++
    toBytes 4 w.fw ++ toBytes 4 w.turns ++ [b8 r.harmonic, b8 (flag 0 r.v + flag 1 r.i)] ++ toBytes 2 w.skipped ++ [0, 0, 0, 0] ++
    (if r.v then block true else []) ++ (if r.i then block false else [])
  (if r.v && r.i then 5 else 4, match w.first with | some x => x.time | none => s.now, body)

/-- The record of a lock-in window of a run that ends at once, with PARTIAL if it was cut short (R331, R334). -/
def putLast (s : State) (l : Nat) (r : LockRun) (w : Window) (credit part : Bool) : State :=
  let (u, time, body) := lockRecord s l r w
  if credit then placeLast s (keyBed l) r.ring u u r.tag 6 (flag 2 part + flag 3 w.unref) time body else s

/-- A lock-in window that has met its end is written (R330); staging busy: it waits. -/
def endLockWindow (s : State) (l : Nat) : State :=
  match (s.avg l).lock with
  | none => s
  | some r =>
    match r.ended with
    | none => s
    | some (w, credit) =>
      let (u, time, body) := lockRecord s l r w
      let (s, ok) := if credit then placeHeld s (keyBed l) r.ring u u r.tag 6 (flag 3 w.unref) time body else (s, true)
      if !ok then s
      else
        let s := modLockRun s l (fun r => { r with ended := none, done := r.done + 1 })
        let s := s.modProg r.tag (fun e => { e with steps := r.done + 1 })
        if r.stopping ∨ r.done + 1 = r.blocks then endLockRun s l false 0 else s

/-- A lock-in window starts at this sample if its credit allows (R330, R333). -/
def startLockWindow (s : State) (l ph fw : Nat) (x : Sample) : State :=
  match (s.avg l).lock with
  | none => s
  | some r =>
    if r.stopping ∨ (r.blocks ≠ 0 ∧ r.blocks ≤ r.done + (if r.ended.isSome then 1 else 0)) ∨ x.settling ∨ x.held then s
    else
      let u := if r.v && r.i then 5 else 4
      let need := fun (s : State) (k : Nat) => match (s.avg k).lock with | some y => y.win.isNone && !y.credit | none => false
      let keys := if ringDrops s r.ring then [l] else r.group
      let s := keys.foldl (fun s k =>
        if need s k then
          let (s, a) := askCredit s r.ring u (.lockWindow k)
          if a = .held then modLockRun s k (fun r => { r with credit := true }) else s
        else s) s
      if !ringDrops s r.ring && r.group.any (need s) then s
      else modLockRun s l (fun r => { r with win := some (lockAdd s l r.p ph fw { chV := r.v, chI := r.i } x) })

/-- Close the window in progress of a lock-in run: it waits for its row. -/
def closeLock (s : State) (l : Nat) (f : Window → Window) : State :=
  modLockRun s l (fun r => match r.win with
    | some w => { r with win := none, ended := some (f w, r.credit), credit := false }
    | none => r)

/-- A lock-in run ends at once (R331, R334): what has ended is written, a window in progress with PARTIAL. -/
def cutLock (s : State) (l cause : Nat) : State :=
  let s := endLockWindow s l
  match (s.avg l).lock with
  | none => s
  | some r =>
    let s := match r.ended with
      | some (w, credit) => modLockRun (putLast s l r w credit false) l (fun r => { r with ended := none, done := r.done + 1 })
      | none => s
    let s := match r.win with
      | some w => modLockRun (putLast s l r w r.credit true) l (fun r => { r with win := none, credit := false })
      | none => s
    endLockRun s l true cause

/-- The sine of loop `l` ends or breaks off: the lock-ins that follow it end with it (R331). -/
def endRefs (s : State) (l cause : Nat) : State :=
  ((tents s.meas.avg).filter (fun e => e.2.lock.any (fun r => decide (r.ref = l)))).foldl (fun s e => cutLock s e.1 cause) s

/-- A measurement run ends at once (R334): a window or record in progress is written, with PARTIAL. -/
def cutMeas (s : State) (key cause : Nat) : State :=
  let s := match (s.avg key).run with
    | some r => if r.raw then closeRaw (closeRaw s key true) key false else endMeasWindow s key true
    | none => s
  endMeasRun s key cause

/-- A sample reaches a lock-in run (R329, R330): the phase is the reference's at its aperture. A jump of the phase is no
wrap, and closes the window; a window during which FW changed is marked (R331). -/
def feedLock (s : State) (l : Nat) (x : Sample) : State :=
  let s := endLockWindow s l
  match (s.avg l).lock with
  | none => s
  | some r =>
    match sineOn s r.ref with
    | none => s
    | some y =>
      let (fw, phi0) := sineAt y x.time
      let ph : Nat := r.harmonic * sinePhase fw phi0 y.epoch x.time % 2 ^ 32
      let news := y.past.filter (changeCame l x)
      let jump := news.any (fun p => p.jump)
      let wrapped : Bool := !jump && (match r.phase with | some o => decide (ph < o) | none => false)
      let s := modLockRun s l (fun r => { r with phase := some ph })
      if !started r.start x.time then s
      else
        match r.win with
        | none => if wrapped then startLockWindow s l ph fw x else s
        | some w =>
          let w := { w with fwChanged := w.fwChanged || jump || news.any (fun p => decide (p.fw ≠ fw)) }
          let turns := if wrapped then w.turns + 1 else w.turns
          if jump then endLockWindow (closeLock s l (fun _ => w)) l
          else if wrapped ∧ turns = r.cycles then
            startLockWindow (closeLock s l (fun _ => { w with turns := turns })) l ph fw x
          else
            let w' := lockAdd s l r.p ph fw { w with turns := turns } x
            let s := modLockRun s l (fun r => { r with win := some w' })
            if w'.n = 2 ^ (8 + r.p) then closeLock s l (fun w => { w with truncated := true }) else s

/-- A loop's sample reaches everything that takes it: the run, the lock-in, and a sweep's dwell, whose samples are
those completed after its first boundary, up to the boundary that ends it (R318, R326). -/
def feedLoop (s : State) (l : Nat) (x : Sample) : State :=
  let s := feedLock (feedMeas s l x) l x
  match (s.loop l).source with
  | .sweep r => s.modAvg l (fun a =>
      let unused := x.settling || x.held
      let closing := match a.ended with | some e => if e.filled then none else some e | none => none
      match closing with
      | some e => { a with ended := some { e with
          samples := if unused then e.samples else (x :: e.samples).take a.n
          skipped := if unused then satAdd max16 e.skipped 1 else e.skipped
          filled := true } }
      | none =>
        if r.left = 0 ∨ x.time + aperture l ≤ r.began then a
        else if unused then { a with recentSkipped := satAdd max16 a.recentSkipped 1 }
        else { a with recent := (x :: a.recent).take a.n })
  | _ => s

end Sys2Proof.Machine
end

