-- ==== Sys2Proof/Machine/Pins.lean ====
section
/-! DEFINITION. Beds and pin channels (spec/05): level codes and their loads, pin modes, connections, read-back. -/

namespace Sys2Proof.Machine

/-- The code a DAC's output carries (R117). -/
def dacOutput (s : State) (k : Nat) : Nat :=
  if bedHeld s (dacBed k) then (s.dacst k).cloche else (s.dacst k).work

/-- Load a code into the working register, with the voltage it stands for (R117, R128); the pending shadow is used up. -/
def loadDac (s : State) (k code : Nat) (level : Option (BitVec 32)) : State :=
  let moved := !bedHeld s (dacBed k) && decide ((s.dacst k).work ≠ code)
  s.modDacst k (fun d => { d with
    work := code
    level := level
    shadow := none
    shadowLevel := none
    changed := if moved then s.now else d.changed })

/-- The pending shadows that `p` covers, as DAC and code. -/
def shadowsOf (s : State) (p : Nat → LoadAt → Bool) : List (Nat × Nat) :=
  (tents s.pins.dac).filterMap (fun e => match e.2.shadow with
    | some (c, t) => if p e.1 t then some (e.1, c) else none
    | none => none)

/-- Shadows that fall due load now; in a bed in IDLE they are held until after its exit (R132). -/
def loadDue (s : State) (l : List (Nat × Nat)) : State :=
  l.foldl (fun s e =>
    if s.bedPow (dacBed e.1) = .idle then s.modDacst e.1 (fun d => { d with shadow := some (e.2, .held) })
    else loadDac s e.1 e.2 (s.dacst e.1).shadowLevel) s

/-- Strobe a group: the shadows tagged with it in the beds of its mask (R129). -/
def strobeGroup (s : State) (g : Nat) : State :=
  loadDue s (shadowsOf s (fun k t => decide (t = .group g) && (s.grp g).mask.getLsbD (dacBed k)))

/-- Pending times of EPOCH loads and scheduled strobes, each once (R131), the shadows of the DACs given apart, which a
command replaces (R130). -/
def pendingTimes (s : State) (replaced : List Nat) : List Nat :=
  (((tents s.pins.dac).filterMap (fun e => match e.2.shadow with
      | some (_, .epoch t) => if replaced.contains e.1 then none else some t
      | _ => none)) ++ (tents s.pins.group).filterMap (fun e => e.2.strobe)).dedup

/-- A seventeenth distinct pending time is refused (R131). -/
def needTimeSlot (s : State) (replaced : List Nat) (t : Nat) : Option Bad :=
  needBusy ((pendingTimes s replaced).contains t || decide ((pendingTimes s replaced).length < 16)) 0

/-- PIN_MAP (R143, R144). A pin of a site follows its clock only while gated on (R173). -/
def execPinMap (s : State) : Host.Outcome State Fault Refusal :=
  .next (onCommand s 0x0100 (fun _ => true) (fun c =>
    let q := par c 0
    let fl := par c 1
    let n := par c 2
    let old := if fl = 0 then [] else (s.seq q).lanes
    let pins := (rangeFrom 3 n).map (par c)
    let okPin := fun (i : Nat) =>
      let p := pins.getD i 0
      decide (p < 512) && !((pins.take i).contains p) && !(old.contains p) &&
      (match pinSite s p with | some (q', _) => decide (q' = q) | none => true)
    checked s
      [needParam (decide (q < 64)) 0,
       needParam (decide (fl = 0) || decide (fl = (s.seq q).lanes.length)) 1,
       needParam (decide (n ≤ 117)) 2,
       needEach (List.range n) 3 okPin,
       needState (!seqBusy s q) 1]
      (fun s =>
        let gone := (s.seq q).lanes.filter (fun p => !old.contains p && !pins.contains p)
        let s := gone.foldl (fun s p => if clocksHeld s (p / 32) then s else joinClock s p (256 * s.now)) s
        let s := (old ++ pins).foldl (fun s p => leaveClock s p (256 * s.now)) s
        postOk (s.modSeq q (fun x => { x with lanes := old ++ pins })) [w16 (old ++ pins).length])))

/-- The DACs a SET_LEVELS writes, each with its voltage word (R146). -/
def levelTargets (pins : List Nat) (select : Nat) : List (Nat × Nat) :=
  ((List.range 4).filter (bit select)).flatMap (fun j => pins.map (fun p => (4 * p + j, 9 + 2 * j))) ++
  ((List.range 3).filter (fun j => bit select (4 + j))).flatMap
    (fun j => (bedsOfPins pins).map (fun b => (2048 + 3 * b + j, 17 + 2 * j)))

/-- R116 holds for the levels given: VOL of the pins, if the SELECT writes pin DACs, and VCL of their beds, if it writes bed
DACs (DESIGN CHOICE 87). -/
def levelsLegal (select : Nat) (pins : List Nat) (level : Nat → Frac) : Bool :=
  (decide (select % 16 = 0) || pins.all (fun p => (level (4 * p + 3)).le (level (4 * p + 2)))) &&
  (decide (select / 16 = 0) || (bedsOfPins pins).all (fun b => (level (2048 + 3 * b + 2)).lt (level (2048 + 3 * b + 1))))

/-- A shadow pending for `t` counts as loaded once a load of `l` is done, none for a load at once: only one known to come
later does not (DESIGN CHOICE 87). -/
def loadedBy (l : Option LoadAt) (t : LoadAt) : Bool :=
  match l, t with
  | none, _ => false
  | some (.epoch a), .epoch b => decide (b ≤ a)
  | _, _ => true

/-- The level of a DAC with the pending shadows that `p` takes as loaded (R146). -/
def levelWith (s : State) (k : Nat) (p : LoadAt → Bool) : Frac :=
  match (s.dacst k).shadow, (s.dacst k).shadowLevel with
  | some (_, t), some v => if p t then f32 v else dacLevel s k
  | _, _ => dacLevel s k

/-- When SET_LEVELS loads a DAC (R128, R132): none at once. -/
def loadOf (s : State) (c : Current) (k : Nat) : Option LoadAt :=
  if par c 3 = 1 then some (.group (par c 4))
  else if par c 3 = 2 then some (.epoch (epochOf (par64 c 5)))
  else if s.bedPow (dacBed k) = .idle then some .held else none

/-- The level of a DAC with the voltages of SET_LEVELS and the pending shadows that `p` takes as loaded (R116, R146). -/
def levelAfter (s : State) (c : Current) (p : LoadAt → Bool) (k : Nat) : Frac :=
  match (levelTargets (pinRange c) (par c 2)).lookup k with
  | some w => f32 (parF c w)
  | none => levelWith s k p

/-- SET_LEVELS (R128, R145, R146): R116 holds after the load, and once every shadow still pending is loaded. -/
def execSetLevels (s : State) : Host.Outcome State Fault Refusal :=
  .next (onCommand s 0x0101 (fun _ => true) (fun c =>
    let sel := par c 2
    let mode := par c 3
    let g := par c 4
    let t := epochOf (par64 c 5)
    let pins := pinRange c
    let targets := levelTargets pins sel
    let codes := targets.map (fun e => (e.1, dacCode s e.1 (parF c e.2)))
    let volts := ((List.range 7).filter (bit sel)).map (fun j =>
      needParam (dacInRange (if j < 4 then j else 2048 + (j - 4)) (parF c (9 + 2 * j))) (9 + 2 * j))
    checked s
      (needPins c ++
       [needParam (decide (0 < sel) && decide (sel < 128)) 2,
        needParam (decide (mode ≤ 2)) 3,
        needParam (if mode = 1 then decide (g < 8) else decide (g = 0)) 4,
        if mode = 2 then none else needZero c 5 4] ++ volts ++
       [if levelsLegal sel pins (fun k => levelAfter s c (loadedBy (loadOf s c k)) k) && levelsLegal sel pins (levelAfter s c (fun _ => true)) then none
          else some (0x12, 0x8001),
        if mode = 1 ∧ ((s.grp g).mask = 0 ∨ (targets.any (fun e => !(s.grp g).mask.getLsbD (dacBed e.1)) = true)) then some (0x12, 0x8003) else none,
        if mode = 2 then needLead c (par64 c 5) 4 else none,
        if mode = 2 then needTimeSlot s (targets.map (fun e => e.1)) t else none])
      (fun s =>
        let s := targets.foldl (fun s e =>
          let v := parF c e.2
          let code := dacCode s e.1 v
          match loadOf s c e.1 with
          | none => loadDac s e.1 code (some v)
          | some l => s.modDacst e.1 (fun d => { d with shadow := some (code, l), shadowLevel := some v })) s
        postOk s [w16 codes.length, w16 ((codes.head?.map (fun e => e.2)).getD 0)])))

/-- LOAD_GROUP DEFINE (R129, R130, R147). -/
def execLoadGroupDefine (s : State) : Host.Outcome State Fault Refusal :=
  .next (onCommand s 0x0102 (fun p => decide (wAt p 0 = 0)) (fun c =>
    let g := par c 1
    let m : BitVec 16 := w16 (par c 2)
    checked s
      [needParam (decide (g < 8)) 1, needZero c 3 4,
       needState ((shadowsOf s (fun k t => decide (t = .group g) && !m.getLsbD (dacBed k))).isEmpty) 4]
      (fun s => postOk (s.modGrp g (fun x => { x with mask := m })))))

/-- LOAD_GROUP STROBE_NOW (R148). -/
def execLoadGroupStrobeNow (s : State) : Host.Outcome State Fault Refusal :=
  .next (onCommand s 0x0102 (fun p => decide (wAt p 0 = 1)) (fun c =>
    checked s [needParam (decide (par c 1 < 8)) 1, needZero c 2 5]
      (fun s => postOk (strobeGroup s (par c 1)))))

/-- LOAD_GROUP STROBE_AT (R131, R148). -/
def execLoadGroupStrobeAt (s : State) : Host.Outcome State Fault Refusal :=
  .next (onCommand s 0x0102 (fun p => decide (wAt p 0 = 2)) (fun c =>
    let g := par c 1
    let t := epochOf (par64 c 3)
    let without := s.modGrp g (fun x => { x with strobe := none })
    checked s
      [needParam (decide (g < 8)) 1, needZero c 2 1, needLead c (par64 c 3) 4, needTimeSlot without [] t]
      (fun s => postOk (s.modGrp g (fun x => { x with strobe := some t })))))

/-- LOAD_GROUP CANCEL (R148). -/
def execLoadGroupCancel (s : State) : Host.Outcome State Fault Refusal :=
  .next (onCommand s 0x0102 (fun p => decide (wAt p 0 = 3)) (fun c =>
    let g := par c 1
    checked s [needParam (decide (g < 8)) 1, needZero c 2 5]
      (fun s =>
        let l := shadowsOf s (fun _ t => decide (t = .group g))
        let s := l.foldl (fun s e => s.modDacst e.1 (fun d => { d with shadow := none, shadowLevel := none })) s
        postOk (s.modGrp g (fun x => { x with strobe := none })) [w16 l.length])))

/-- GROUP_STROBE_DUE (R131): a scheduled strobe falls due. -/
def execGroupStrobeDue (g : Fin 8) (s : State) : Host.Outcome State Fault Refusal :=
  .next (match (s.grp g.val).strobe with
    | some t => (strobeGroup (s.reach t) g.val).modGrp g.val (fun x => { x with strobe := none })
    | none => s)

/-- EPOCH_LOAD_DUE (R131): the loads of chip time `t` fall due in one F3 cycle. -/
def execEpochLoadDue (t : Nat) (s : State) : Host.Outcome State Fault Refusal :=
  .next (
    let l := shadowsOf s (fun _ a => decide (a = .epoch t))
    if l.isEmpty then s else loadDue (s.reach t) l)

/-- The driver of a pin turns off at once (R126, R149); in cloche it stays at its cloche drive state. -/
def driverOff (s : State) (p : Nat) : State := if bedHeld s (p / 32) then s else setDriver s p .off

/-- SET_PIN_MODE (R122, R123, R149). -/
def execSetPinMode (s : State) : Host.Outcome State Fault Refusal :=
  .next (onCommand s 0x0103 (fun _ => true) (fun c =>
    let w := par c 2
    let mode := w % 8
    let pins := pinRange c
    checked s
      (needPins c ++
       [needParam (decide (mode ≤ 4) && decide (w &&& 0xEC88 = 0)) 2,
        firstOf pins (fun p => needState (!pinBusy s p) 1),
        firstOf pins (fun p =>
          let x := s.pinst p
          needState (decide ((x.mode = 4) = (mode = 4)) || decide (x.conn = 0 ∨ x.conn = 2 ∨ x.conn = 6)) 3)])
      (fun s => postOk (pins.foldl (fun s p =>
        (if mode = 0 ∨ mode = 4 then driverOff s p else s).modPinst p (fun x => { x with
          mode := mode
          tgroup := bits w 4 3
          slew := bits w 8 2
          clamp := bit w 12
          held := if mode = 0 ∨ mode = 4 then .off else x.held
          lastData := if mode = x.mode then x.lastData else false })) s))))

/-- The loop a pad joins by a connection code (R124). -/
def padLoop (p conn : Nat) : Option Nat :=
  if conn = 2 ∨ conn = 3 then some p
  else if conn = 4 ∨ conn = 5 then some (512 + 2 * (p / 32) + (conn - 4))
  else none

/-- Pads of bed `b` whose connection code is `conn`, with `f` giving each pin's code. -/
def padsWith (f : Nat → Nat) (b conn : Nat) : Nat := ((rangeFrom (32 * b) 32).filter (fun p => decide (f p = conn))).length

/-- Pads connected to heavy loop `h`, by the connection in force (R125). -/
def loopPads (s : State) (l : Nat) : Nat :=
  if l < 512 then 0 else padsWith (padConn s) ((l - 512) / 2) (4 + (l - 512) % 2)

/-- Step 1 of a connection change (R126): the old switches open, the driver turns off, and a pad leaving PAT or
PAT_SENSE holds DZ. -/
def openPad (s : State) (p conn : Nat) : State :=
  (driverOff s p).modPinst p (fun x => { x with
    conn := conn
    closed := false
    connSettled := false
    held := if x.conn = 1 ∨ x.conn = 3 then .off else x.held })

/-- CONNECT (R125 to R127, R150). -/
def execConnect (s : State) : Host.Outcome State Fault Refusal :=
  .next (onCommand s 0x0104 (fun _ => true) (fun c =>
    let conn := par c 2
    let pins := pinRange c
    let after := fun (p : Nat) => if pins.contains p then conn else (s.pinst p).conn
    let beds := bedsOfPins pins
    let moving := pins.filter (fun p => decide ((s.pinst p).conn ≠ conn))
    checked s
      (needPins c ++
       [needParam (decide (conn ≤ 6) && !((decide (conn = 4) || decide (conn = 5)) &&
          beds.any (fun b => decide ((s.loop (512 + 2 * b + (conn - 4))).stage ≠ 0)))) 2,
        if (conn = 4 ∨ conn = 5) ∧ (beds.any (fun b => decide (4 < padsWith after b conn)) = true) then some (0x12, 0x8002) else none,
        if conn = 0 then none else firstOf pins (fun p => needFree s (p / 32)),
        firstOf pins (fun p => needState (!pinBusy s p) 1),
        firstOf moving (fun p =>
          if bedHeld s (p / 32) then none
          else firstOf ((padLoop p (s.pinst p).conn).toList ++ (padLoop p conn).toList)
            (fun l => needState (decide ((s.loop l).state = .stopped)) 2)),
        if conn = 6 then firstOf beds (fun b => needBusy (decide (padsWith after b 6 ≤ 2)) b) else none])
      (fun s =>
        let (held, free) := moving.partition (fun p => bedHeld s (p / 32))
        let s := held.foldl (fun s p => s.modPinst p (fun x => { x with conn := 0, held := if x.conn = 1 ∨ x.conn = 3 then .off else x.held })) s
        let s := free.foldl (fun s p => openPad s p conn) s
        if free.isEmpty then postOk s else waitFor s .connect)))

/-- CONNECT_SWITCH_CLOSE (R126): the new switches close; a pad that joins the driver has it at its held state (R121). -/
def execConnectSwitchClose (s : State) : Host.Outcome State Fault Refusal :=
  .next (((tents s.pins.pin).filter (fun e => !e.2.closed)).foldl (fun s e =>
    let s := s.modPinst e.1 (fun x => { x with closed := true })
    if (e.2.conn = 1 ∨ e.2.conn = 3) ∧ bedHeld s (e.1 / 32) = false then setDriver s e.1 e.2.held else s) s)

/-- The pads of the CONNECT that waits. -/
def connecting (s : State) : List Nat :=
  match s.fw.current with
  | some c => if c.wait = .connect then pinRange c else []
  | none => []

/-- CONNECT_SETTLED (R126): the closed switches settle, and the CONNECT that waits is answered once every pad of its range
is settled (R150). -/
def execConnectSettled (s : State) : Host.Outcome State Fault Refusal :=
  .next (
    let s := ((tents s.pins.pin).filter (fun e => e.2.closed && !e.2.connSettled)).foldl (fun s e =>
      s.modPinst e.1 (fun x => { x with connSettled := true })) s
    if waitsFor s .connect && (connecting s).all (fun p => (s.pinst p).connSettled) then postOk s else s)

/-- DRV_OC (R140): the driver is over its limit. -/
def execDrvOc (p : Pin) (s : State) : Host.Outcome State Fault Refusal :=
  .next ((s.modPinst p.val (fun x => { x with overCurrent := true })).condition (p.val / 32) 2 true p.val)

/-- DRV_OC_CLEARED (R140): the driver is back under its limit; the source is live while another pin of the bed is over. -/
def execDrvOcCleared (p : Pin) (s : State) : Host.Outcome State Fault Refusal :=
  .next (
    let s := s.modPinst p.val (fun x => { x with overCurrent := false })
    s.live (p.val / 32) 2 ((tents s.pins.pin).any (fun e => decide (e.1 / 32 = p.val / 32) && e.2.overCurrent)))

end Sys2Proof.Machine
end

