-- ==== Sys2Proof/Machine/LoopOps.lean ====
section
/-! DEFINITION. The shared operations of the loops (spec/08) and of their engines (spec/09): records, ranges and
rescaling, bounds, the control law, swaps and regions, runs of the set-point generators and their ends. -/

namespace Sys2Proof.Machine

/-- Ticks between samples of a loop's set-point generator: its sample period, or in EXT_DIGITAL its stage's PERIOD in
50 µs units (R231, R241). -/
def sampleTicks (s : State) (l : Nat) : Nat :=
  if (s.loop l).stage = 2 then 160000 * (s.stage (s.loop l).stageId).period else loopPeriod l

/-- The first sample boundary of a loop at or after chip time `t` (R231): on its converter's grid, or in EXT_DIGITAL at its
stage's cyclic exchanges (R241, R444). -/
def boundaryFrom (s : State) (l t : Nat) : Nat :=
  if (s.loop l).stage = 2 then
    let y := s.stage (s.loop l).stageId
    if y.period = 0 then t else y.offset + roundUp (t - y.offset) (160000 * y.period)
  else roundUp t (loopPeriod l)

/-- The next sample boundary of a loop: the first not yet processed. -/
def nextBoundary (s : State) (l : Nat) : Nat := boundaryFrom s l (max s.now ((s.loop l).lastSample + 1))

/-- The next sample boundary at or after a due time. -/
def dueBoundary (s : State) (l due : Nat) : Nat := boundaryFrom s l (max due (nextBoundary s l))

/-- Numbers of the declared laws (R269). -/
def declaredCode : Declared → Nat
  | .primary => 0
  | .limitHi => 1
  | .limitLo => 2

/-- Numbers of the loop states (R262). -/
def loopModeCode : LoopMode → Nat
  | .stopped => 0
  | .regulating => 1
  | .settling => 2
  | .frozen => 3
  | .cloche => 4
  | .ganged => 5

/-- An EVENT record of a loop into its EVENT_RING (R248, R291, R388): without credit it counts in LOOP_EVT_LOST. -/
def loopEvent (s : State) (l kind time : Nat) (rest : List Byte) : State :=
  let x := s.loop l
  if x.eventRing = 0xFFFF then s
  else
    let (s, ok) := emitRecord s (loopBed l) x.eventRing 3 3 0 0x09 0 time (eventBody kind l rest)
    if ok then s else s.raise (loopBed l) 9 l

/-- The fields of HANDOVER, RANGE_CHANGE, CLIP and CHARGE_INHIBIT (R388). -/
def loopFields (x : LoopState) (src dst cause : Nat) (meas bound : Int) : List Byte :=
  [b8 src, b8 dst, b8 cause, b8 x.mode, b8 x.irange, b8 x.vrange] ++ toBytes 2 (toTwos 16 meas) ++ toBytes 2 (toTwos 16 bound)

/-- A clip record begins or ends (R247): CHARGE_INHIBIT for cause 7, with the loop's thermistor. -/
def clipEvent (s : State) (l time : Nat) (on : Bool) (cause : Nat) (meas bound : Int) : State :=
  let f := loopFields (s.loop l) (b2n on) (b2n (!on)) cause meas bound
  if cause = 7 then loopEvent s l 6 time (f ++ [b8 (s.charge (l - 512)).source]) else loopEvent s l 5 time f

/-- Nominal code of every range (R234). -/
def nominalCode : Int := 26214

/-- Force span of a loop as codes (R233), low and high. -/
def spanCodes (l vrange : Nat) : Int × Int :=
  if l < 512 then (-7490, 26214) else if vrange = 0 then (-26214, 26214) else (-6554, 26214)

/-- Force span in volts (R233, R240). -/
def spanVolts (s : State) (l vrange : Nat) : Frac × Frac :=
  if l < 512 then (dec (-2) 0, dec 7 0)
  else
    let fs := fsVolt s l vrange
    let hi := fs.mul (dec 8 1)
    ((if vrange = 0 then hi.neg else (hi.mul (dec 25 2)).neg), hi)

/-- A value lies in the nominal range of its quantity (R236). -/
def inNominal (s : State) (l : Nat) (volt : Bool) (irange vrange : Nat) (v : Frac) : Bool :=
  if volt then (spanVolts s l vrange).1.le v && v.le (spanVolts s l vrange).2
  else v.abs.le ((fsCurr s l irange).mul (dec 8 1))

/-- The primary quantity of a mode is voltage (R235, R288). -/
def primaryVolt (mode : Nat) : Bool := decide (mode ≠ 1)

/-- A code of quantity `volt` rescaled from the loop's ranges to new ones (R254). -/
def recode (s : State) (l : Nat) (volt : Bool) (oi ov ni nv : Nat) (c : Int) : Int :=
  clampI (-32767) 32767 (rescale c (fsOf s l volt oi ov) (fsOf s l volt ni nv))

/-- A generator's amount rescaled exactly (R297). -/
def rescaled (a b z : Frac) : Frac := (z.mul a).div b

/-- An amount held with 48 fraction bits rescaled at that precision (R276, R297). -/
def reamount (a b : Frac) (z : Int) : Int := (rescaled a b (Frac.ofInt z)).round

/-- A ramp rescaled (R297). -/
def reramp (a b : Frac) (r : Ramp) : Ramp := { r with base := rescaled a b r.base, goal := rescaled a b r.goal }

/-- The generator's state and parameters rescaled from full scale `a` to `b` (R297). -/
def resource (a b : Frac) : Source → Source
  | .dc => .dc
  | .sweep r => .sweep { r with restore := r.restore.map (rescaled a b) }
  | .profile r => .profile { r with
      target := reamount a b r.target
      j := reamount a b r.j, p := reamount a b r.p, v := reamount a b r.v, a := reamount a b r.a }
  | .wave r => .wave { r with
      scale := rescaled a b r.scale, offset := rescaled a b r.offset, restore := r.restore.map (rescaled a b)
      prev := r.prev.map (rescaled a b) }
  | .sine r => .sine { r with
      amp := reramp a b r.amp, offset := reramp a b r.offset, prev := r.prev.map (rescaled a b)
      change := r.change.map (fun c => { c with amp := rescaled a b c.amp, offset := rescaled a b c.offset }) }

/-- The free share correction of a gang member on a demand (R239): bounded to ±5 % of it, otherwise the part's. -/
def shareOf (s : State) (u : Int) : Int :=
  clampI (-((u.natAbs : Int) / 20)) ((u.natAbs : Int) / 20) (ofTwos 16 (s.freeNat % 65536))

/-- The members of a gang follow their leader (R239): its demand, each with its own share correction, its output and its
ranges. -/
def followLeader (s : State) (l : Nat) : State :=
  let x := s.loop l
  (rangeFrom (l + 1) (x.gang - 1)).foldl (fun s k =>
    s.takeFree.modLoop k (fun y => { y with
      demand := clampI (-32768) 32767 (x.demand + shareOf s x.demand)
      isOpen := x.isOpen, irange := x.irange, vrange := x.vrange })) s

/-- Every code of the loop rescaled to new ranges, which come into force (R254 step 2, R293, R297). -/
def switchRange (s : State) (l ni nv : Nat) : State :=
  let x := s.loop l
  let oi := x.irange
  let ov := x.vrange
  let cur := recode s l false oi ov ni nv
  let vol := recode s l true oi ov ni nv
  let pv := primaryVolt x.mode
  let pri := recode s l pv oi ov ni nv
  let reg := if x.regions.var = 0 then vol else if x.regions.var = 1 then cur else pri
  followLeader (s.modLoop l (fun x => { x with
    irange := ni
    vrange := nv
    setPoint := pri x.setPoint
    lastSet := pri x.lastSet
    iHi := x.iHi.map cur
    iLo := x.iLo.map cur
    vHi := x.vHi.map vol
    vLo := x.vLo.map vol
    regions := { x.regions with bounds := x.regions.bounds.map reg, hyst := reg x.regions.hyst }
    source := resource (fsOf s l pv oi ov) (fsOf s l pv ni nv) x.source })) l

/-- S of a range change (R255). -/
def settleSamples (l oi ov ni nv : Nat) : Nat :=
  let c := if oi = ni then 0 else if l < 512 then (if min oi ni ≤ 1 then 50 else 5) else (if min oi ni ≤ 1 then 80 else 8)
  if ov = nv then c else max c 8

/-! Rail readings and dissipation (R237, R238). -/

/-- Latest VPOS or VNEG of the loop's row die in volts. -/
def railVolts (s : State) (l : Nat) (neg : Bool) : Frac :=
  dec (s.railRd (4 * (6 + 2 * (loopBed l / 4) + b2n neg))).mv 3

/-- A voltage code of the loop in volts. -/
def codeVolts (s : State) (l : Nat) (c : Int) : Frac :=
  ((Frac.ofInt c).mul (fsVolt s l (s.loop l).vrange)).div (Frac.ofInt 32768)

/-- Headroom when sourcing or sinking at an output voltage, floored at 0.5 V (R237). -/
def headroom (s : State) (l : Nat) (v : Frac) (sinking : Bool) : Frac :=
  let h := if sinking then v.sub (railVolts s l true) else (railVolts s l false).sub v
  if h.lt (dec 5 1) then dec 5 1 else h

/-- I_diss as a code of the range in force (R237), over a gang of n stages n-fold, at an output voltage's code. -/
def dissAt (s : State) (l : Nat) (volts : Int) (sinking : Bool) : Int :=
  let x := s.loop l
  let i := ((dec x.pMax 9).div (headroom s l (codeVolts s l volts) sinking)).mul (Frac.ofInt x.gang)
  codeOf i (fsCurr s l x.irange)

/-- I_diss as a bound of the selector, at the output voltage of the sample before: the bounds are taken before the conversion
of this boundary (R252 step 5). -/
def dissCode (s : State) (l : Nat) (sinking : Bool) : Int := dissAt s l (s.loop l).priorV sinking

/-- Dissipation estimate of each stage of the loop in nW, from the codes of its last sample (R237). -/
def dissEstimate (s : State) (l : Nat) : Nat :=
  let x := s.loop l
  let i := (((Frac.ofInt x.lastI).mul (fsCurr s l x.irange)).div (Frac.ofInt (32768 * x.gang))).abs
  ((i.mul (headroom s l (codeVolts s l x.lastV) (decide (x.lastI < 0)))).mul (dec 1000000000 0)).round.toNat

/-! Bounds (R243). -/

/-- A bound of a side, with its cause. -/
abbrev Bound := Nat × Int

/-- Lowest high bound; the first, of the lowest cause, wins a tie. -/
def lowest : List Bound → Bound
  | [] => (0, 32767)
  | b :: r => r.foldl (fun a c => if c.2 < a.2 then c else a) b

/-- Highest low bound. -/
def highest : List Bound → Bound
  | [] => (0, -32768)
  | b :: r => r.foldl (fun a c => if a.2 < c.2 then c else a) b

/-- T2 is enforced on the heavy loop (R17, R461). -/
def loopThrottled (s : State) (l : Nat) : Bool :=
  decide (512 ≤ l) && (decide (2 ≤ enforcedLevel s (bedZone (loopBed l))) || decide (2 ≤ enforcedLevel s 0))

/-- The source of a heavy loop's charge window gives no valid reading (R465, R467, R468): a thermistor disabled, broken or
STALE; the telemetry of a stage lost, detached or not the loop's. -/
def chargeSourceBad (s : State) (l : Nat) : Bool :=
  let k := (s.charge (l - 512)).source
  if k < 16 then !(s.therm k).enable || (s.therm k).broken || (s.therm k).stale
  else
    let x := s.loop l
    decide (k = 0xFF) || decide (x.stage = 0) || !(s.stage x.stageId).attached || (s.stage x.stageId).lost

/-- A CHARGE loop is outside its charge window (R250, R468); one with no source always is. -/
def chargeOutside (s : State) (l : Nat) : Bool :=
  (s.loop l).charge && ((s.charge (l - 512)).out || chargeSourceBad s l)

/-- The window is back, and the loop in FV still holds zero current (R250): a bound of no cause. -/
def chargeHeld (s : State) (l : Nat) : Bool :=
  !chargeOutside s l && (s.loop l).chargeHold && decide ((s.loop l).mode = 0)

/-- The effective bounds of the current: `user` are the user limits that apply, if any. -/
def currentBounds (s : State) (l : Nat) (user : Option (Int × Int)) : Bound × Bound :=
  let x := s.loop l
  let pads := loopPads s l
  let pad := codeOf (dec (64 * pads) 3) (fsCurr s l x.irange)
  let onChip := decide (512 ≤ l) && decide (x.stage = 0)
  let cause := if x.pMax < 1000000000 then 5 else 4
  let u := user.toList
  let hi := lowest (u.map (fun b => (1, b.1)) ++ [(2, nominalCode)] ++ (if pads = 0 then [] else [(3, pad)]) ++
    (if onChip then [(cause, dissCode s l false)] else []) ++ (if loopThrottled s l then [(6, 13107)] else []) ++
    (if chargeOutside s l then [(7, 0)] else []) ++ (if chargeHeld s l then [(0, 0)] else []))
  let lo := highest (u.map (fun b => (1, b.2)) ++ [(2, -nominalCode)] ++ (if pads = 0 then [] else [(3, -pad)]) ++
    (if onChip then [(cause, -dissCode s l true)] else []) ++ (if loopThrottled s l then [(6, -13107)] else []))
  (hi, (lo.1, min lo.2 hi.2))

/-- The effective bounds of the voltage. -/
def voltageBounds (s : State) (l : Nat) (user : Option (Int × Int)) : Bound × Bound :=
  let sp := spanCodes l (s.loop l).vrange
  let u := user.toList
  let hi := lowest (u.map (fun b => (1, b.1)) ++ [(2, sp.2)])
  let lo := highest (u.map (fun b => (1, b.2)) ++ [(2, sp.1)])
  (hi, (lo.1, min lo.2 hi.2))

def quantityBounds (s : State) (l : Nat) (volt : Bool) (user : Option (Int × Int)) : Bound × Bound :=
  if volt then voltageBounds s l user else currentBounds s l user

/-- The user limits of a quantity, by default the RANGE bounds (R272). -/
def userLimits (s : State) (l : Nat) (volt : Bool) : Int × Int :=
  let x := s.loop l
  let sp := spanCodes l x.vrange
  if volt then (x.vHi.getD sp.2, x.vLo.getD sp.1) else (x.iHi.getD nominalCode, x.iLo.getD (-nominalCode))

/-! Coefficients (R277, R278, R284, R287). -/

def mulk (k : Coef) (y : Int) : Int := sat (rsh (k.m * y) (15 - k.e)) 40
def mulg (y : Int) (g : Nat) : Int := sat (rsh (y * g) 14) 40

/-- RS_M and RS_SH (R278). -/
def rangeScale (l : Nat) (volt : Bool) (irange vrange : Nat) : Int × Int :=
  if volt then (32768, if l < 512 ∨ vrange = 1 then 0 else 2)
  else if l < 512 then
    if irange = 4 then (32768, 0) else if irange = 3 then (32768, 4) else if irange = 2 then (26214, 7)
    else if irange = 1 then (20972, 10) else (16777, 13)
  else
    if 4 ≤ irange then (32768, 0) else if irange = 3 then (20480, 3) else if irange = 2 then (32768, 7)
    else if irange = 1 then (26214, 10) else (20972, 13)

/-- A code normalised to Q9.31 (R278, R279). -/
def normalise (rs : Int × Int) (c : Int) : Int := rsh (c * rs.1 * 2) rs.2

/-- A point of a bed's gain table; GT00 is fixed (R283). -/
def gainPoint (s : State) (b t k : Nat) : Nat := if t = 0 then 16384 else s.gainPt (1024 * b + 32 * t + k)

/-- The gain of table `t` at a normalised error (R284). -/
def gainAt (s : State) (b t : Nat) (y : Nat) : Nat :=
  if t = 0 then 16384
  else
    let a := min y (2 ^ 31 - 1)
    if a < 2 ^ 15 then gainPoint s b t 0
    else
      let m := Nat.log2 a
      let k := m - 15
      let f := (a >>> (m - 8)) % 256
      ((gainPoint s b t k : Int) + rsh (((gainPoint s b t (k + 1) : Int) - gainPoint s b t k) * (f : Int)) 8).toNat

/-- The factory set of a law (R287). -/
def factorySet (l : Nat) (volt : Bool) : CoefSet :=
  if l < 512 then
    if volt then { kp := { m := 16384, e := 0 }, ki := { m := 16384, e := -5 } }
    else { kp := { m := 8192, e := 0 }, ki := { m := 16384, e := -6 } }
  else
    if volt then { kp := { m := 12288, e := 0 }, ki := { m := 16384, e := -7 } }
    else { kp := { m := 8192, e := 0 }, ki := { m := 16384, e := -8 } }

/-- A region's set of a law (R292). -/
def regionSet (s : State) (l r : Nat) (volt : Bool) : CoefSet :=
  let g := (s.loop l).regions
  ((if volt then g.volt else g.curr).lookup r).getD (factorySet l volt)

/-- The set in use by a law: the region's, or the host's ACTIVE buffer (R288, R292). -/
def activeSet (s : State) (l : Nat) (volt : Bool) : CoefSet :=
  let x := s.loop l
  match x.inUse with
  | some r => regionSet s l r volt
  | none => ((if volt then x.vActive else x.iActive).getD (factorySet l volt))

/-! The control law (R279 to R282). -/

/-- v_in of a law in Q9.31 (R282). -/
def inputDeviation (s : State) (l : Nat) (k : CoefSet) : Int :=
  let x := s.loop l
  let code :=
    if l < 512 then k.vinNom
    else if x.stage = 0 then
      roundAway ((s.railRd (4 * (6 + 2 * (loopBed l / 4) + b2n (decide (x.demand < 0))))).mv * 32768) 25000
    else intW (w16 (wAt (s.stage x.stageId).telem 2))
  (sat (code - k.vinNom) 16) * 65536

/-- One evaluation of a law: its own demand, and its moving state (R279). -/
def evalLaw (s : State) (l : Nat) (volt primary : Bool) (r x : Int) : Int × Law :=
  let lp := s.loop l
  let k := activeSet s l volt
  let w := if volt then lp.volt else lp.curr
  let rs := rangeScale l volt lp.irange lp.vrange
  let e := clampI (-32767) 32767 (sat (r - x) 16)
  let en := normalise rs e
  let xn := normalise rs x
  let g := gainAt s (loopBed l) k.gt en.natAbs
  let p0 := mulk k.kp en
  let p := if k.gtP then mulg p0 g else p0
  let d0 := mulk k.ki en
  let d1 := if k.gtI then mulg d0 g else d0
  let di := if (w.satHi && decide (0 < d1)) || (w.satLo && decide (d1 < 0)) then 0 else d1
  let i := clampI (k.uMin * 65536) (k.uMax * 65536) (w.integ + di)
  let xp := if w.fresh then xn else w.xPrev
  let d := sat (w.d + rsh (mulk k.kd (xp - xn) - w.d) k.dfShift) 40
  let ff0 := mulk k.kin (inputDeviation s l k)
  let ff := if primary then ff0 + mulk k.kfv (normalise rs lp.rate) + mulk k.kfa (normalise rs lp.accel) else ff0
  let sum := sat (i + p + d + ff) 40
  (clampI k.uMin k.uMax (q15 sum),
   { integ := i, d := d, satHi := decide (k.uMax * 65536 < sum), satLo := decide (sum < k.uMin * 65536), xPrev := xn, fresh := false })

/-- Tracking of the law not applied (R245, R281). -/
def trackLaw (k : CoefSet) (shift : Nat) (u own : Int) (w : Law) : Law :=
  { w with integ := clampI (k.uMin * 65536) (k.uMax * 65536) (w.integ + rsh ((u - own) * 65536) shift) }

/-- What the selector did in a sample (R244): the set-point's clip and its bound, the target and the law applied. -/
structure Selected where
  clip    : Bound
  limited : Bool
  high    : Bool
  hi      : Bound
  lo      : Bound
  x       : Int
deriving DecidableEq, Repr

/-- Steps 5, 7, 8 and 9 of R252 with mode, set-point and user limits given. -/
def regulate (s : State) (l mode : Nat) (sp : Int) (user : Option (Int × Int)) : State × Selected :=
  let x := s.loop l
  let pv := primaryVolt mode
  let (ph, pl) := quantityBounds s l pv none
  let r := clampI pl.2 ph.2 sp
  let clip : Bound := if ph.2 < sp then ph else if sp < pl.2 then pl else (0, sp)
  let (hi, lo) := quantityBounds s l (!pv) user
  let xp := if pv then x.lastV else x.lastI
  let xl := if pv then x.lastI else x.lastV
  let high := decide ((hi.2 + lo.2) / 2 ≤ xl)
  let (up, wp) := evalLaw s l pv true r xp
  let (ul, wl) := evalLaw s l (!pv) false (if high then hi.2 else lo.2) xl
  let u := if high then min up ul else max up ul
  let limited := decide (u ≠ up)
  let wp := if limited then trackLaw (activeSet s l pv) x.trackShift u up wp else wp
  let wl := if limited then wl else trackLaw (activeSet s l (!pv)) x.trackShift u ul wl
  (s.modLoop l (fun x => { x with
     demand := u
     lastSet := r
     volt := if pv then wp else wl
     curr := if pv then wl else wp }),
   { clip := clip, limited := limited, high := high, hi := hi, lo := lo, x := xl })

/-- Both laws preset to a demand at a start from STOPPED (R281). -/
def presetLaws (u : Int) (x : LoopState) : LoopState :=
  { x with
    demand := u
    volt := { integ := u * 65536, d := 0, satHi := false, satLo := false, xPrev := 0, fresh := true }
    curr := { integ := u * 65536, d := 0, satHi := false, satLo := false, xPrev := 0, fresh := true } }

/-! Region scheduling and swaps (R289 to R296). -/

/-- The scheduling variable (R292). -/
def regionVar (x : LoopState) : Int :=
  if x.regions.var = 0 then x.lastV else if x.regions.var = 1 then x.lastI else x.lastSet

/-- B[i], i from 1 (R292). -/
def boundAt (g : Regions) (i : Nat) : Int := g.bounds.getD (i - 1) 0

/-- The largest i with v ≥ B[i] (R294). -/
def rawRegion (g : Regions) (v : Int) : Nat :=
  (rangeFrom 1 (g.count - 1)).foldl (fun a i => if boundAt g i ≤ v then i else a) 0

/-- The region that v chooses from the one in force, with hysteresis (R294). -/
def nextRegion (g : Regions) (v : Int) : Nat :=
  let up := (rangeFrom 1 (g.count - 1)).foldl (fun a i => if a + 1 = i ∧ boundAt g i + g.hyst ≤ v then i else a) g.cur
  (rangeFrom 1 (g.count - 1)).reverse.foldl (fun a i => if a = i ∧ v < boundAt g i - g.hyst then i - 1 else a) up

/-- Clip one law's integrator into its new set (R290), with the COEF_CLIP record. -/
def clipLaw (s : State) (l time : Nat) (volt : Bool) : State :=
  let x := s.loop l
  let k := activeSet s l volt
  let w := if volt then x.volt else x.curr
  let lo := k.uMin * 65536
  let hi := k.uMax * 65536
  if x.state = .stopped ∨ (lo ≤ w.integ ∧ w.integ ≤ hi) then s
  else
    let lim := if hi < w.integ then k.uMax else k.uMin
    let s := s.modLoop l (fun x =>
      let w := { w with integ := lim * 65536 }
      if volt then { x with volt := w } else { x with curr := w })
    loopEvent s l 8 time ([b8 (b2n (!volt)), 0] ++ toBytes 2 (toTwos 16 (q15 w.integ)) ++ toBytes 2 (toTwos 16 lim))

/-- The region that scheduling puts in force when it is enabled (R295, R296): the one that the hysteresis state holds, else
that of the raw boundaries. -/
def enabledRegion (x : LoopState) : Nat :=
  if x.regions.known then min x.regions.cur (x.regions.count - 1) else rawRegion x.regions (regionVar x)

/-- A swap takes effect at a sample (R288 to R291). Region 0xFE stands for the region that enabling puts in force. -/
def doSwap (s : State) (l time : Nat) (w : Swap) : State :=
  let x := s.loop l
  let old := x.inUse.getD 0xFF
  let region := if w.region = 0xFE then enabledRegion x else w.region
  let s := s.modLoop l (fun x =>
    let x := if w.cause = 1 then { x with swap := none } else { x with regionSwap := none }
    if w.cause = 1 then { x with
      vActive := if w.volt then x.vStaged else x.vActive
      vStaged := if w.volt then x.vActive else x.vStaged
      iActive := if w.curr then x.iStaged else x.iActive
      iStaged := if w.curr then x.iActive else x.iStaged }
    else if region = 0xFF then { x with inUse := none }
    else { x with inUse := some region, regions := { x.regions with cur := region, known := true } })
  let x := s.loop l
  let s := loopEvent s l 7 time
    [b8 w.cause, b8 old, b8 (x.inUse.getD 0xFF), b8 (flag 0 w.volt + flag 1 w.curr),
     b8 (flag 0 x.volt.satHi + flag 1 x.volt.satLo + flag 2 x.curr.satHi + flag 3 x.curr.satLo)]
  let s := if w.volt then clipLaw s l time true else s
  if w.curr then clipLaw s l time false else s

/-- The COEF_SWAP that waits is answered after the swap on every named loop (R309, R312). -/
def answerSwap (s : State) : State :=
  if waitsFor s .coefSwap then
    match s.fw.current with
    | some c =>
      if (loopRange c 0).any (fun l => (s.loop l).swap.isSome) then s else postOk s c.reply
    | none => s
  else s

/-- A pending swap that is due at the boundary `t` takes effect; a FROZEN loop's waits (R289). -/
def takeSwap (s : State) (l t : Nat) (w : Option Swap) : State :=
  match w with
  | some w => if w.due ≤ t ∧ (s.loop l).state ≠ .frozen then doSwap s l t w else s
  | none => s

/-- The swaps due at the boundary `t` (R252 step 3): region scheduling's, then the host's. -/
def swapDue (s : State) (l t : Nat) : State :=
  let s := takeSwap s l t (s.loop l).regionSwap
  let w := (s.loop l).swap
  if w.isSome then answerSwap (takeSwap s l t w) else s

/-- The region decision of step 10 (R294). -/
def decideRegion (s : State) (l t : Nat) : State :=
  let x := s.loop l
  if !x.regions.enable then s
  else
    let v := regionVar x
    let new := if x.regions.known then nextRegion x.regions v else rawRegion x.regions v
    let s := s.modLoop l (fun x => { x with regions := { x.regions with known := true, cur := new } })
    if new = x.regions.cur then s
    else s.modLoop l (fun x => { x with regionSwap := some { due := t + 1, volt := true, curr := true, cause := 2, region := new } })

/-! The ends of runs (R266, R308). -/

/-- Tag, ring and STEPS of the run on a loop. -/
def runOf : Source → Option (Nat × Nat × Nat)
  | .dc => none
  | .sweep r => some (r.tag, r.ring, r.done)
  | .profile r => some (r.tag, r.ring, r.k)
  | .wave r => some (r.tag, r.ring, r.instances)
  | .sine r => some (r.tag, r.ring, r.turns)

/-- Units that a loop's sweep record takes (R328). -/
def sweepUnits (s : State) (l : Nat) : Nat := windowUnits (s.avg l).n ((s.avg l).v && (s.avg l).i)

/-- The set-point before the run, for END_RESTORE, as a code. -/
def restoreCode (r : Option Frac) : Option Int := r.map (fun v => clampI (-32767) 32767 v.round)

def restoreOf : Source → Option Int
  | .sweep r => restoreCode r.restore
  | .wave r => restoreCode r.restore
  | _ => none

/-- The run of a loop ends at chip time `time`, with cause (0: normally) and OUTPUT_STATE: the loop keeps its set-point as
DC, feed-forward falls to 0, and the COMPLETION record follows (R266, R297, R308). -/
def endLoopRun (s : State) (l cause output time : Nat) : State :=
  let x := s.loop l
  match runOf x.source with
  | none => s
  | some (tag, ring, steps) =>
    let restore := if cause = 0 then restoreOf x.source else none
    let s := match x.source with
      | .sweep r =>
        let give := fun (s : State) (b : Bool) => if b then returnCredit s r.measRing (sweepUnits s l) else s
        let s := give (give (give s r.credit) r.granted) (match (s.avg l).ended with | some e => e.credit | none => false)
        s.modAvg l (fun a => { a with recent := [], recentSkipped := 0, ended := none })
      | .sine _ => endRefs s l cause
      | _ => s
    let s := s.modLoop l (fun x => { x with
      source := .dc, rate := 0, accel := 0, setPoint := restore.getD x.setPoint })
    endWork s { workEnd s tag ring (if cause = 0 then 0 else 2) (if cause = 0 then 0 else steps % 65536) 2 l
        (if cause = 0 then 1 else 2) cause (if cause = 0 ∧ restore.isSome then 1 else output) steps with
      time := time, flags := flag 3 s.clk.holdover }

/-! Range changes (R253 to R257). -/

/-- The LOOP_RANGE that waits is answered once every named loop's change is done (R267). -/
def answerRange (s : State) : State :=
  if waitsFor s .rangeSettle then
    match s.fw.current with
    | some c =>
      if (loopRange c 0).any (fun l => (s.loop l).change.isSome || (s.loop l).changeNext.isSome) then s else postOk s
    | none => s
  else s

/-- A range change ends early (R257): the range in force stays, and a LOOP_RANGE that waits for the loop fails. -/
def dropRange (s : State) (l : Nat) (b : Bad) : State :=
  let x := s.loop l
  if x.change.isNone ∧ x.changeNext.isNone ∧ x.autoGoal.isNone then s
  else
    let s := s.modLoop l (fun x => { x with
      change := none, changeNext := none, autoGoal := none
      state := if x.state = .settling then .regulating else x.state })
    match s.fw.current with
    | some c => if waitsFor s .rangeSettle ∧ (loopRange c 0).contains l = true then postBad s b else s
    | none => s

/-- A loop takes new ranges: at once when it does not regulate, or regulates in its own stage (R241), else by the sequence
of R254 from its next boundary; the last request waiting wins. -/
def requestRange (s : State) (l ni nv : Nat) : State :=
  let x := s.loop l
  if (x.state = .regulating ∨ x.state = .settling) ∧ x.stage ≠ 2 then
    if ni = x.irange ∧ nv = x.vrange ∧ x.change.isNone then s.modLoop l (fun x => { x with changeNext := none })
    else s.modLoop l (fun x => { x with changeNext := some (ni, nv) })
  else switchRange s l ni nv

/-- Declared law, counts and clip as at every start (R246). -/
def clearCounts (x : LoopState) : LoopState :=
  { x with declared := .primary, returnCount := 0, tripCount := 0, upCount := 0, downCount := 0, clip := 0, cause := 0,
           handoff := none }

/-- COMPLY_TRIP is live while a loop of the bed has tripped and still declares a LIMIT (R249, R510). -/
def tripped (x : LoopState) : Bool := decide (x.declared ≠ .primary) && decide (x.tripN ≠ 0) && decide (x.tripN < x.tripCount)

def bedLoops (b : Nat) : List Nat := rangeFrom (32 * b) 32 ++ [512 + 2 * b, 513 + 2 * b]

def tripLive (s : State) (l : Nat) : State :=
  if (bedLoops (loopBed l)).any (fun k => tripped (s.loop k)) then s else s.live (loopBed l) 1 false

/-- The code of the loop's force DAC may have moved (R135, R261). -/
def moveForceDac (s : State) (l : Nat) : State := s.modDacst (4096 + l) (fun d => { d with changed := s.now })

/-- A clip of the set-point, or a charge inhibit in FV, that binds stops binding at a STOP, a change of mode or a cloche
(R247, R250): its record. -/
def endClip (s : State) (l t : Nat) : State :=
  let x := s.loop l
  if x.mode = 1 ∧ x.clip ≠ 0 then
    let (hi, lo) := currentBounds s l none
    clipEvent s l t false x.clip x.setPoint (if 0 ≤ x.setPoint then hi.2 else lo.2)
  else if x.mode = 0 ∧ x.chargeOut then clipEvent s l t false 7 x.lastI 0
  else s

/-- The law and mode that a STOP or a change of mode leaves in a LIMIT, for the record of the hand-over (R248, R270). -/
def leftLimit (x : LoopState) : Option (Declared × Nat) :=
  if x.declared = Declared.primary then x.handoff else some (x.declared, x.mode)

/-- A loop stops at the boundary `t` (R262, R269, R270): its output opens, or holds the demand with STOP_HOLD; a declared LIMIT
ends. -/
def haltLoop (s : State) (l t : Nat) : State :=
  let s := endClip (dropRange s l (0x13, 5)) l t
  let s := s.modLoop l (fun x =>
    let h := leftLimit x
    let x := clearCounts x
    { x with
      handoff := h
      state := .stopped
      isOpen := if x.stopHold then x.isOpen else true
      demand := if x.stopHold then x.demand else x.powerUp
      measure := none
      rate := 0
      accel := 0
      chargeHold := false
      chargeOut := false })
  followLeader (tripLive (moveForceDac s l) l) l

/-- A STAGE_TELEMETRY record's greatest length in units (R378): 64 words. -/
def telemUnits : Nat := 10

/-- The credit that an exchange reserved for a telemetry record returns: its reply yields none (R379, R445). -/
def freeTelem (s : State) (st : Nat) : State :=
  let x := s.stage st
  let s := if x.telemCredit = .held then returnCredit s x.ring telemUnits else s
  s.modStage st (fun x => { x with telemCredit := .unasked })

/-- The SP1 frame in progress is abandoned (R431): it counts, and its data is never used. Under a cloche the stage's
BAD_PREV that follows is not counted (R446). -/
def abortFrame (s : State) (st : Nat) (forgive : Bool) : State :=
  match (s.stage st).frame with
  | none => s
  | some f =>
    ((freeTelem s st).modStage st (fun x => { x with
      frame := none
      prev := some f
      aborted := satAdd max32 x.aborted 1
      forgive := x.forgive || forgive })).raise 0x19 0 st

/-- A cloche sends DISABLE to an attached stage (R258, R446): the frame in progress on SP1 is aborted, and DISABLE is the
stage's next exchange. -/
def disableStage (s : State) (st : Nat) : State :=
  if (s.stage st).attached then
    ((List.range 16).foldl (fun s k => abortFrame s k true) s).modStage st (fun x => { x with disable := true })
  else s

/-- Cloche action of a loop (R258): whatever it runs ends PARTIAL with the cause given; it takes its cloche mode. -/
def clocheLoop (s : State) (l cause : Nat) : State :=
  let x := s.loop l
  if x.state = .cloche ∨ x.state = .ganged then s
  else
    let s := endLoopRun s l cause 3 s.now
    let s := endClip (dropRange s l (0x20, loopBed l)) l s.now
    let s := s.modLoop l (fun x =>
      let held := !x.isOpen
      let x := clearCounts { x with force := none, measure := none, chargeHold := false, chargeOut := false }
      let x := if x.clocheMode = 0 then { x with isOpen := true, demand := x.clocheCode }
        else
          let x := { x with isOpen := false }
          if held ∧ (x.state = .regulating ∨ x.state = .settling ∨ x.state = .frozen) then x else presetLaws x.demand x
      { x with state := .cloche })
    let s := if x.stage ≠ 0 ∧ x.clocheMode = 0 then disableStage s x.stageId else s
    followLeader (tripLive (moveForceDac s l) l) l

/-- The release of a cloche leaves the loop STOPPED (R259). -/
def releaseLoop (s : State) (l : Nat) : State :=
  s.modLoop l (fun x => if x.state = .cloche then { x with state := .stopped } else x)

/-- Every loop of a bed whose cloche acts; a gang acts as a whole through its leader (R239). -/
def clocheBedLoops (s : State) (b cause : Nat) : State :=
  (bedLoops b).foldl (fun s l => clocheLoop s (gangLeader s l) cause) s

/-! The generators (R264 to R266, R297 to R307). -/

/-- The set-point code of a sweep step in the ranges in force. -/
def stepCode (s : State) (l i : Nat) : Int :=
  let x := s.loop l
  let pv := primaryVolt x.mode
  setCode s l pv x.irange x.vrange (f32 (s.swp i).value)

/-- The step a sweep is in. -/
def sweepIndex (r : SweepRun) : Nat := r.stepFirst + (r.begun - 1) % r.steps

/-- Record a MEAS step whose dwell has ended (R265, R326); false: staging is busy and the record waits. -/
def sweepRecord (s : State) (l : Nat) (r : SweepRun) (e : SweepEnd) : State × Bool :=
  let a := s.avg l
  let w := e.samples.reverse.foldl (fun w x => windowAdd s l w x)
    ({ size := a.n, chV := a.v, chI := a.i, minmax := a.minmax, skipped := e.skipped } : Window)
  let (typ, time, body) := windowRecord l none r.tag e.step w (decide (w.n < a.n)) s.now
  let u := sweepUnits s l
  if e.credit then placeHeld s (loopBed l) r.measRing u u r.tag typ (flag 3 w.unref) time body else (s, true)

/-- The dwell of the present step ends: a MEAS step awaits the sample of this boundary (R265, R318). -/
def sweepLeave (s : State) (l : Nat) (r : SweepRun) : State :=
  let s := (modSweep s l (fun r => { r with left := 0, done := r.done + 1 })).modProg r.tag (fun p => { p with steps := r.done + 1 })
  if !(s.swp (sweepIndex r)).meas then s
  else
    (modSweep s l (fun r => { r with credit := false })).modAvg l (fun a => { a with
      ended := some { step := sweepIndex r, samples := a.recent, skipped := a.recentSkipped, filled := false, credit := r.credit }
      recent := []
      recentSkipped := 0 })

/-- Credit for the next MEAS step (R266): under STALL all loops of the run ask, and wait, together. -/
def sweepCredit (s : State) (l : Nat) (r : SweepRun) : State × Bool :=
  if r.granted then (s, true)
  else if ringDrops s r.measRing then
    match reserve s r.measRing (sweepUnits s l) with
    | some s => (modSweep s l (fun r => { r with granted := true }), true)
    | none => (dropRecord s r.measRing 1, true)
  else
    let mine := (rangeFrom r.first r.count).filter (fun k => match (s.loop k).source with
      | .sweep y => decide (y.start = r.start) && decide (y.first = r.first) && !y.granted | _ => false)
    let u := (mine.map (sweepUnits s)).sum
    let (s, a) := askCredit s r.measRing u (.sweepStep r.first r.count)
    if a = .held then (mine.foldl (fun s k => modSweep s k (fun r => { r with granted := true })) s, true) else (s, false)

/-- The next step of a sweep starts at `t`, its MEAS record's credit first (R265, R266). -/
def sweepNext (s : State) (l t : Nat) (r : SweepRun) : State :=
  let i := r.stepFirst + r.begun % r.steps
  let st := s.swp i
  let (s, ok) := if st.meas then
      (match (s.loop l).source with | .sweep r => sweepCredit s l r | _ => (s, true))
    else (s, true)
  if !ok then s
  else
    let s := modSweep s l (fun r => { r with
      begun := r.begun + 1, left := max 1 st.dwell, last := t, began := t, credit := r.granted, granted := false })
    let s := s.modAvg l (fun a => { a with recent := [], recentSkipped := 0 })
    let x := s.loop l
    if st.irange ≠ 7 ∧ st.irange ≠ x.irange then requestRange s l st.irange x.vrange
    else s.modLoop l (fun x => { x with setPoint := stepCode s l i })

/-- The last step of the last pass has run. -/
def sweepOver (r : SweepRun) : Bool := decide (r.passes ≠ 0) && decide (r.begun = r.steps * r.passes)

/-- A sweep at the boundary `t` (R265, R266): it counts its dwell, ends a step, starts the next, or ends. A step whose
record still waits for staging does not end. -/
def sweepAdvance (s : State) (l t : Nat) : State :=
  match (s.loop l).source with
  | .sweep r =>
    if !started r.start t ∨ (r.last = t ∧ 0 < r.begun) then s
    else if 1 < r.left then modSweep s l (fun r => { r with left := r.left - 1, last := t })
    else if (s.avg l).ended.isSome then s
    else
      let s := if r.left = 1 then sweepLeave s l r else s
      if !sweepOver r then sweepNext s l t r
      else if (s.avg l).ended.isSome then s.modLoop l (fun x => { x with setPoint := (restoreCode r.restore).getD x.setPoint })
      else endLoopRun s l 0 2 t
  | _ => s

/-- The record of a step whose closing sample has come (R326), and the end of the run if it was the last step. -/
def sweepClose (s : State) (l t : Nat) : State :=
  match (s.loop l).source, (s.avg l).ended with
  | .sweep r, some e =>
    if !e.filled then s
    else
      let (s, ok) := sweepRecord s l r e
      if !ok then s
      else
        let s := s.modAvg l (fun a => { a with ended := none })
        if r.left = 0 ∧ sweepOver r then endLoopRun s l 0 2 t else s
  | _, _ => s

/-- Jerk of a profile at its sample `k` (R299). -/
def profileJerk (r : ProfileRun) (k : Nat) : Int :=
  if k < r.nj then r.j
  else if k < r.nj + r.na then 0
  else if k < 2 * r.nj + r.na then -r.j
  else if k < 2 * r.nj + r.na + r.nv then 0
  else if k < 3 * r.nj + r.na + r.nv then -r.j
  else if k < 3 * r.nj + 2 * r.na + r.nv then 0
  else r.j

/-- Samples of a move (R298). -/
def profileLen (r : ProfileRun) : Nat := 4 * r.nj + 2 * r.na + r.nv

/-- A profile state as a code (R299): rsh by its 48 fraction bits, saturated. -/
def profileCode (p : Int) : Int := clampI (-32767) 32767 (rsh p 48)

/-- A profile's state one sample on, in the format of R276: each exact result rounded half up to 48 fraction bits once. -/
def profileStep (r : ProfileRun) (j : Int) : ProfileRun :=
  { r with
    k := r.k + 1
    p := sat (r.p + r.v + (3 * r.a + j + 3) / 6) 64
    v := sat (r.v + r.a + rsh j 1) 64
    a := sat (r.a + j) 64 }

/-- One sample of a profile (R299). -/
def profileAdvance (s : State) (l t : Nat) : State :=
  match (s.loop l).source with
  | .profile r =>
    if !started r.start t ∨ (r.begun ∧ r.k = profileLen r) then s
    else
      let r' : ProfileRun :=
        if !r.begun then { r with begun := true }
        else
          let j := profileJerk r r.k
          if r.k + 1 = profileLen r then { r with k := r.k + 1, p := r.target, v := 0, a := 0 }
          else profileStep r j
      s.modLoop l (fun x => { x with
        source := .profile r'
        setPoint := profileCode r'.p
        rate := profileCode r'.v
        accel := profileCode r'.a })
  | _ => s

/-- The tap h[phase][t] (R301), t + 3 from 0 to 7: phase 0 is the unit impulse at t = 0. -/
def waveTapOf (phase i : Nat) : Int := if phase = 0 then (if i = 3 then 32768 else 0) else Config.waveTap phase i

/-- The resampled value of a segment at pointer n + f (R301). -/
def waveValue (seg : List Int) (n f : Nat) : Int :=
  let phase := f / 2 ^ 23
  let at' := fun (i : Int) => seg.getD (clampI 0 ((seg.length : Int) - 1) i).toNat 0
  sat (rsh (((List.range 8).map (fun i => waveTapOf phase i * at' ((n : Int) + (i : Int) - 3))).sum) 15) 16

/-- A difference of set-points as a Q1.15 value (R282). -/
def asQ15 (d : Frac) : Int := sat d.halfUp 16

/-- Rate and acceleration as differences of the last set-points (R282): both 0 at the run's first sample. -/
def differences (r : Int) : List Frac → Int × Int
  | [] => (0, 0)
  | [a] => let d := (Frac.ofInt r).sub a; (asQ15 d, asQ15 d)
  | a :: b :: _ => let d := (Frac.ofInt r).sub a; (asQ15 d, asQ15 (d.sub (a.sub b)))

/-- The list entry after an instance (R302), none at the run's end. -/
def waveNext (r : WaveRun) : Option (Nat × Nat × Nat) :=
  let e := r.entries.getD r.entry { seg := 0, step := 0, count := 1 }
  if r.rep + 1 < e.count then some (r.entry, r.rep + 1, r.pass)
  else if r.entry + 1 < r.entries.length then some (r.entry + 1, 0, r.pass)
  else if r.passes = 0 ∨ r.pass + 1 < r.passes then some (0, 0, r.pass + 1)
  else none

/-- A jump request is registered at the first sample after it reached the generator (R303). -/
def waveRegister (r : WaveRun) : WaveRun :=
  match r.jump with
  | some (target, none, d) => { r with jump := some (target, some (r.native + r.n), d) }
  | _ => r

/-- The instance in progress has closed: the next one, by the list or a jump, or the end (R302, R303). -/
def waveBoundary (size : Nat) (r : WaveRun) : WaveRun :=
  let last := r.native + size - 1
  let r := { r with n := r.n - size, native := r.native + size, instances := r.instances + 1, jumped := none }
  match waveNext r with
  | none => { r with ended := true }
  | some (e, k, p) =>
    match r.jump with
    | some (target, some nr, d) =>
      if nr + 2 ≤ last then { r with entry := target, rep := 0, n := 0, jump := none, jumped := some d }
      else { r with entry := e, rep := k, pass := p, jump := some (target, some nr, true) }
    | _ => { r with entry := e, rep := k, pass := p }

/-- One sample of a waveform (R301 to R303). -/
def waveAdvance (s : State) (l t : Nat) : State :=
  match (s.loop l).source with
  | .wave r =>
    if r.ended then s
    else if r.stopping then s.modLoop l (fun x => { x with
        source := .wave { r with ended := true }, rate := 0, accel := 0, setPoint := (restoreCode r.restore).getD x.setPoint })
    else if !started r.start t then s
    else
      let seg := fun (r : WaveRun) => s.waveSeg (r.entries.getD r.entry { seg := 0, step := 0, count := 1 }).seg
      let first := r.prev.isEmpty
      let size := (seg r).length
      let turn := !first && decide (size ≤ r.n)
      -- the boundary's sample plays the next instance: a request that reaches it is registered there (R301, R303)
      let r := waveRegister (if turn then waveBoundary size r else r)
      if r.ended then s.modLoop l (fun x => { x with
          source := .wave r, rate := 0, accel := 0, setPoint := (restoreCode r.restore).getD x.setPoint })
      else
        let e := r.entries.getD r.entry { seg := 0, step := 0, count := 1 }
        let s := if (first || turn) && (r.segEvents || r.jumped.isSome) then
            let x := s.loop l
            if x.eventRing = 0xFFFF then s
            else
              let fl := flag 6 r.jumped.isSome + flag 5 (r.jumped.getD false)
              let (s, ok) := emitRecord s (loopBed l) x.eventRing 3 3 r.tag 0x09 fl t
                (eventBody 9 l ([b8 r.entry, 0] ++ toBytes 2 e.seg ++ toBytes 4 r.pass))
              if ok then s else s.raise (loopBed l) 9 l
          else s
        let w := Frac.ofInt (waveValue (s.waveSeg e.seg) r.n r.f)
        let v := sat (r.offset.add ((r.scale.mul w).div (Frac.ofInt 32768))).halfUp 16
        let (d1, d2) := differences v r.prev
        let q := r.f + e.step
        let r' := { r with n := r.n + q / 2 ^ 31, f := q % 2 ^ 31, prev := (Frac.ofInt v :: r.prev).take 2, jumped := none }
        let s := s.modLoop l (fun x => { x with source := .wave r', setPoint := v, rate := d1, accel := d2 })
        s.modProg r'.tag (fun p => { p with steps := r'.instances })
  | _ => s

/-- The exact value of a ramp (R306). -/
def rampValue (r : Ramp) : Frac :=
  if r.len = 0 ∨ r.len ≤ r.gone then r.goal
  else r.base.add ((r.goal.sub r.base).mul ⟨r.gone, r.len⟩)

/-- A ramp toward a new goal from where it stands. -/
def rampTo (r : Ramp) (goal : Frac) (len : Nat) : Ramp := { base := rampValue r, goal := goal, len := len, gone := 0 }

def rampStep (r : Ramp) : Ramp := { r with gone := min r.len (r.gone + 1) }

/-- A pending CHANGE takes effect at the boundary `t` (R306). A ramp-down in progress goes on: AMP falls to 0. A phase that
jumps is no wrap. -/
def sineChange (s : State) (l t : Nat) : State :=
  match (s.loop l).source with
  | .sine r =>
    match r.change with
    | some c =>
      if c.tc ≤ t then
        let phi := if c.absolute then c.phi0
          else (sinePhase r.fw r.phi0 r.epoch c.tc + 2 ^ 32 - sinePhase c.fw 0 r.epoch c.tc) % 2 ^ 32
        s.modLoop l (fun x => { x with
          source := .sine { r with
          fw := c.fw, phi0 := phi, change := none, rampN := c.rampN
          past := ({ time := t, fw := r.fw, phi0 := r.phi0, jump := c.absolute } :: r.past).take 4
          phase := if c.absolute then sinePhase c.fw phi r.epoch t else r.phase
          amp := if r.stopping then r.amp else rampTo r.amp c.amp c.rampN
          offset := rampTo r.offset c.offset c.rampN } })
      else s
    | none => s
  | _ => s

/-- The ramp-down of a sine begins (R306). -/
def sineStop (r : SineRun) : SineRun := { r with stopping := true, stopAt := none, amp := rampTo r.amp (Frac.ofInt 0) r.rampN }

/-- CYCLES whole turns have passed (R306). -/
def cyclesDone (r : SineRun) : Bool := decide (r.cycles ≠ 0) && decide (r.cycles ≤ r.turns) && !r.stopping

/-- The ramp-down has reached its end: the set-point of this sample is OFFSET. -/
def rampedDown (r : SineRun) : Bool := r.stopping && decide (r.amp.len ≤ r.amp.gone)

/-- The ramp-down is done (R308): its last sample has been played. -/
def sineDone (r : SineRun) : Bool := r.quiet

/-- One sample of a sine (R304 to R307). -/
def sineAdvance (s : State) (l t : Nat) : State :=
  let s := sineChange s l t
  match (s.loop l).source with
  | .sine r =>
    if !started r.start t then
      -- a STOP that comes before the start sample leaves nothing to ramp down
      if r.stopAt.any (fun c => decide (c ≤ t)) then s.modLoop l (fun x => { x with
        source := .sine { r with stopping := true, quiet := true } })
      else s
    else
      let ph := sinePhase r.fw r.phi0 r.epoch t
      let first := r.begun.isNone
      let r := if first then { r with begun := some ph, phase := ph }
        else { r with turns := if ph < r.phase then r.turns + 1 else r.turns, phase := ph, amp := rampStep r.amp, offset := rampStep r.offset }
      let r := match r.stopAt with
        | some c => if c ≤ t ∧ !r.stopping then sineStop r else r
        | none => r
      let a := ((rampValue r.amp).mul (Frac.ofInt (sineOf ph))).div (Frac.ofInt 32768)
      let o := rampValue r.offset
      let z := o.add a
      let v := sat z.halfUp 16
      let (d1, d2) := differences v r.prev
      let r' := { r with prev := (Frac.ofInt v :: r.prev).take 2, quiet := rampedDown r }
      (s.modLoop l (fun x => { x with source := .sine r', setPoint := v, rate := d1, accel := d2 })).modProg r'.tag
        (fun p => { p with steps := r'.turns })
  | _ => s

/-- Ends of runs that an earlier sample reached and whose rows have not come: they act first. -/
def catchRunEnd (s : State) (l : Nat) : State :=
  let x := s.loop l
  match x.source with
  | .profile r => if r.begun ∧ r.k = profileLen r then endLoopRun s l 0 2 x.lastSample else s
  | .wave r => if r.ended then endLoopRun s l 0 2 x.lastSample else s
  | .sine r =>
    if sineDone r then endLoopRun s l 0 2 x.lastSample
    else if cyclesDone r then s.modLoop l (fun x => { x with source := .sine (sineStop r) })
    else s
  | _ => s

/-- The set-point due at the boundary (R252 step 4). -/
def advanceSource (s : State) (l t : Nat) : State :=
  match (s.loop l).source with
  | .dc => s
  | .sweep _ => sweepAdvance s l t
  | .profile _ => profileAdvance s l t
  | .wave _ => waveAdvance s l t
  | .sine _ => sineAdvance s l t

end Sys2Proof.Machine
end

