-- ==== Sys2Proof/Machine/Loops.lean ====
section
/-! DEFINITION. Force-measure loops (spec/08): the sample, the rows that its counts make due, and the commands
LOOP_CONFIG, LOOP_FORCE, LOOP_RANGE, LOOP_COMPLY, SWEEP_LOAD and SWEEP_RUN. -/

namespace Sys2Proof.Machine

/-! Rows that a sample's counts make due. A sample that comes first performs them. -/

/-- The declared law returns to PRIMARY (R246). -/
def lawReturnNow (s : State) (l : Nat) : State :=
  let x := s.loop l
  if x.declared ≠ Declared.primary ∧ x.returnN ≤ x.returnCount then
    let volt := !primaryVolt x.mode
    let (hi, lo) := quantityBounds s l volt (some (userLimits s l volt))
    let s := loopEvent s l 3 x.lastSample
      (loopFields x (declaredCode x.declared) 0 0 (if volt then x.lastV else x.lastI) (if x.declared = Declared.limitHi then hi.2 else lo.2))
    tripLive (s.modLoop l (fun x => { x with declared := Declared.primary, returnCount := 0, tripCount := 0, cause := x.clip })) l
  else s

/-- LAW_RETURN (R246). -/
def execLawReturn (l : LoopId) (s : State) : Host.Outcome State Fault Refusal := .next (lawReturnNow s l.val)

/-- COMPLY_TRIP is raised once for every stay in LIMIT (R249). -/
def complyTripNow (s : State) (l : Nat) : State :=
  let x := s.loop l
  if x.declared ≠ Declared.primary ∧ x.tripN ≠ 0 ∧ x.tripCount = x.tripN then
    (s.modLoop l (fun x => { x with tripCount := x.tripN + 1 })).raise (loopBed l) 1 l
  else s

/-- COMPLY_TRIP (R249). -/
def execComplyTrip (l : LoopId) (s : State) : Host.Outcome State Fault Refusal := .next (complyTripNow s l.val)

/-- An auto-range decision becomes a range request (R256). -/
def autoRangeNow (s : State) (l : Nat) : State :=
  match (s.loop l).autoGoal with
  | some g => requestRange (s.modLoop l (fun x => { x with autoGoal := none, upCount := 0, downCount := 0 })) l g (s.loop l).vrange
  | none => s

/-- AUTO_RANGE_DECISION (R256). -/
def execAutoRangeDecision (l : LoopId) (s : State) : Host.Outcome State Fault Refusal := .next (autoRangeNow s l.val)

/-- Step 4 of a range change (R254): regulation resumes, the counts restart, RANGE_CHANGE is recorded, and a sweep step's
set-point applies (R265). -/
def settleDone (s : State) (l t : Nat) (c : RangeChange) : State :=
  let x := s.loop l
  let s := s.modLoop l (fun x => { x with
    change := none
    state := if x.state = .settling then .regulating else x.state
    upCount := 0
    downCount := 0 })
  let s := match x.source with
    | .sweep r => if 0 < r.begun then s.modLoop l (fun x => { x with setPoint := stepCode s l (sweepIndex r) }) else s
    | _ => s
  let both := if c.irange = c.oldI then (c.oldV, c.vrange) else (c.oldI, c.irange)
  let s := loopEvent s l 4 t (loopFields (s.loop l) both.1 both.2 0 (if primaryVolt x.mode then x.lastI else x.lastV) 0)
  answerRange s

/-- The range change whose samples are over at the next boundary (R254). -/
def settleReady (s : State) (l : Nat) : Option RangeChange :=
  match (s.loop l).change with
  | some c => if c.count = settleSamples l c.oldI c.oldV c.irange c.vrange then some c else none
  | none => none

/-- RANGE_SETTLE_DONE (R254): step 4, at sample k + S + 1. -/
def execRangeSettleDone (l : LoopId) (s : State) : Host.Outcome State Fault Refusal :=
  .next (match settleReady s l.val with
    | some c => if (s.loop l.val).state = .frozen then s else
        let t := nextBoundary s l.val
        settleDone (s.reach t) l.val t c
    | none => s)

/-- COEF_SWAP_DUE (R289, R294, R296): a pending swap, of region scheduling or of the host, takes effect at its boundary. -/
def execCoefSwapDue (l : LoopId) (s : State) : Host.Outcome State Fault Refusal :=
  .next (
    let x := s.loop l.val
    match x.regionSwap <|> x.swap with
    | some w =>
      let t := dueBoundary s l.val w.due
      if x.state = .frozen then s else swapDue (s.reach t) l.val t
    | none => s)

/-- STAGE_DISS is live while a stage of the bed stays over its limit (R237). -/
def dissLive (s : State) (b : Nat) : State :=
  if decide (64 ≤ (s.loop (512 + 2 * b)).dissOver) || decide (64 ≤ (s.loop (513 + 2 * b)).dissOver) then s else s.live b 4 false

/-- STAGE_DISS (R237): 64 consecutive samples above 1.1 W. -/
def execStageDiss (h : Heavy) (s : State) : Host.Outcome State Fault Refusal :=
  .next (if (s.loop (512 + h.val)).dissOver = 64 then
      (s.modLoop (512 + h.val) (fun x => { x with dissOver := 65 })).raise (h.val / 2) 4 (512 + h.val)
    else s)

/-- CHIP_DISS_UPDATE (R238): every 16 µs, over all on-chip stages. -/
def execChipDissUpdate (s : State) : Host.Outcome State Fault Refusal :=
  .next (
    let t := roundUp (max s.now (s.lp.dissTime + 1)) 51200
    let s := s.reach t
    let stages := (rangeFrom 512 32).filter (fun l => decide ((s.loop l).stage = 0))
    let mean := fun (l : Nat) => let x := s.loop l; if x.dissCount = 0 then 0 else x.dissSum / x.dissCount
    let total := (stages.map mean).sum
    let next := fun (p : Nat) =>
      if 8000000000 < total then p * 8000000000 / total
      else if total < 7500000000 then min 1000000000 (p + 62500000) else p
    let s := stages.foldl (fun s l => s.modLoop l (fun x => { x with pMax := next x.pMax, dissSum := 0, dissCount := 0 })) s
    { s with lp := { s.lp with dissTime := t } })

/-- SWEEP_STEP (R265): the step due at the next boundary begins, or the sweep ends. -/
def execSweepStep (l : LoopId) (s : State) : Host.Outcome State Fault Refusal :=
  .next (
    let x := s.loop l.val
    match x.source with
    | .sweep r =>
      let t := nextBoundary s l.val
      let t := match r.start with | .at ts => if r.begun = 0 then dueBoundary s l.val ts else t | _ => t
      if 1 < r.left ∨ !started r.start t ∨ (x.state ≠ .regulating ∧ x.state ≠ .settling) then s
      else sweepAdvance (s.reach t) l.val t
    | _ => s)

/-! The sample (R252). -/

/-- The codes of one sample as they are used, with their over-range marks (R320). -/
structure Reading where
  v    : Int
  i    : Int
  vOvr : Bool
  iOvr : Bool
deriving DecidableEq, Repr

/-- A conversion corrected by the calibration in use (R320, R495). -/
def corrected (s : State) (l : Nat) (c : Conv) : Reading :=
  let v := correctCode s (convEntry l) true c.v
  let i := correctCode s (convEntry l + 134) true c.i
  { v := v.1, i := i.1, vOvr := v.2, iOvr := i.2 }

/-- The codes of a sample, delivered to the averagers, lock-in and sweep of the loop (R319, R320). -/
def deliver (s : State) (l t : Nat) (c : Reading) : State :=
  let s := s.modLoop l (fun x => { x with priorV := x.lastV, lastV := c.v, lastI := c.i })
  let x := s.loop l
  sweepClose (feedLoop s l
    { time := t - aperture l, v := c.v, i := c.i, vOvr := c.vOvr, iOvr := c.iOvr, irange := x.irange, vrange := x.vrange
      settling := x.change.isSome, held := calHoldsLoop s l, unref := s.clk.holdover }) l t

/-- The dissipation estimate of an on-chip heavy stage in this sample (R237). -/
def dissipate (s : State) (l : Nat) : State :=
  let x := s.loop l
  if l < 512 ∨ x.stage ≠ 0 then s
  else
    let e := if x.isOpen then 0 else dissEstimate s l
    let s := s.modLoop l (fun x => { x with
      diss := e
      dissSum := x.dissSum + e
      dissCount := x.dissCount + 1
      dissOver := if e ≤ 1100000000 then 0 else if x.dissOver = 64 then 65 else min 65 (x.dissOver + 1) })
    if x.dissOver = 64 then s.raise (loopBed l) 4 l
    else if 64 ≤ x.dissOver ∧ e ≤ 1100000000 then dissLive s (loopBed l) else s

/-- Step 2 of R252: the range change advances; a request waiting begins. -/
def rangeStep (s : State) (l t : Nat) : State :=
  let x := s.loop l
  match x.change with
  | some c =>
    if c.count = settleSamples l c.oldI c.oldV c.irange c.vrange then settleDone s l t c
    else
      let s := s.modLoop l (fun x => { x with change := some { c with count := c.count + 1 } })
      if c.count = 0 then switchRange s l c.irange c.vrange else s
  | none =>
    match x.changeNext with
    | some (i, v) =>
      if x.state ≠ .regulating then s
      else if i = x.irange ∧ v = x.vrange then answerRange (s.modLoop l (fun x => { x with changeNext := none }))
      else s.modLoop l (fun x => { x with
        state := .settling, changeNext := none
        change := some { irange := i, vrange := v, oldI := x.irange, oldV := x.vrange, count := 0 } })
    | none => s

/-- The output at the boundary `t` of a start, or of a change from or to MV (R235, R270): MV turns the force stage off; a stage
that regulates itself is enabled (R241); an open output is measured first; a held demand is preset into the laws (R281). -/
def startOutput (t : Nat) (f : ForcePending) (x : LoopState) : LoopState :=
  if f.mode = 2 then { x with isOpen := true, measure := none }
  else if x.stage = 2 then { x with isOpen := false, measure := none }
  else if x.isOpen then { x with measure := some { f with due := t } }
  else { presetLaws x.demand x with measure := none }

/-- A LOOP_FORCE due at the boundary takes effect (R270). A start declares PRIMARY (R246); a change of mode does too, with the
record of the hand-over at the boundary's sample. -/
def applyForce (s : State) (l t : Nat) : State :=
  let x := s.loop l
  match x.force with
  | none => s
  | some f =>
    if t < f.due ∨ x.state = .frozen then s
    else
      let s := s.modLoop l (fun x => { x with force := none })
      if x.state = .cloche ∨ x.state = .ganged then s
      else if f.mode = 3 then haltLoop s l t
      else
        let pv := primaryVolt f.mode
        let sp := if f.mode = 2 then 0 else setCode s l pv x.irange x.vrange (f32 f.value)
        let s := s.modLoop l (fun x => { x with chargeHold := false })
        if x.state = .stopped then followLeader (s.modLoop l (fun x => startOutput t f { x with
            mode := f.mode, setPoint := sp, lastSet := sp, state := .regulating
            regions := { x.regions with starting := true } })) l
        else if f.mode = x.mode then s.modLoop l (fun x => { x with setPoint := sp })
        else
          let s := endClip s l t
          let s := s.modLoop l (fun x => { clearCounts x with
            mode := f.mode, setPoint := sp, handoff := leftLimit x, chargeOut := false })
          let s := if x.mode = 2 ∨ f.mode = 2 then s.modLoop l (fun x => startOutput t f { x with lastSet := sp }) else s
          followLeader (tripLive s l) l

/-- LOOP_FORCE_DUE (R270): the change takes effect at its boundary. -/
def execLoopForceDue (l : LoopId) (s : State) : Host.Outcome State Fault Refusal :=
  .next (match (s.loop l.val).force with
    | some f =>
      let t := dueBoundary s l.val f.due
      if (s.loop l.val).state = .frozen then s else applyForce (s.reach t) l.val t
    | none => s)

/-- LOOP_START_MEASURED (R270): after 4 samples the demand is preset to the terminal voltage and the output connects. -/
def execLoopStartMeasured (l : LoopId) (v : Int) (s : State) : Host.Outcome State Fault Refusal :=
  .next (match (s.loop l.val).measure with
    | some f =>
      let s := s.reach (f.due + 3 * loopPeriod l.val)
      followLeader (s.modLoop l.val (fun x =>
        { presetLaws (q15 (normalise (rangeScale l.val true x.irange x.vrange) (clampI (-32768) 32767 v))) x with
          measure := none, isOpen := false })) l.val
    | none => s)

/-- The HANDOVER record of a LIMIT that a STOP or a change of mode ended, with cause 0, at the sample `t` (R248, R270). -/
def recordHandoff (s : State) (l t : Nat) : State :=
  let x := s.loop l
  match x.handoff with
  | some (d, m) =>
    let volt := !primaryVolt m
    let (hi, lo) := quantityBounds s l volt (some (userLimits s l volt))
    (loopEvent s l 3 t (loopFields x (declaredCode d) 0 0 (if volt then x.lastV else x.lastI) (if d = Declared.limitHi then hi.2 else lo.2))).modLoop l
      (fun x => { x with handoff := none })
  | none => s

/-- Step 10 of R252: declared law, counts, events (R246 to R249). A limit of cause RANGE that auto-ranging can lift changes no
declared law, and asks for the next range unless a LIMIT is declared (R247, R256). -/
def declareLaw (s : State) (l t : Nat) (r : Selected) : State :=
  let x := s.loop l
  let s :=
    if r.limited then
      let tgt : Declared := if r.high then .limitHi else .limitLo
      let b := if r.high then r.hi else r.lo
      let s := s.modLoop l (fun x => { x with cause := b.1, returnCount := 0 })
      if x.declared = tgt then s
      else if x.mode = 0 ∧ x.auto ∧ b.1 = 2 ∧ x.irange < x.autoMax then
        if x.changeNext.isSome ∨ x.declared ≠ Declared.primary then s else s.modLoop l (fun x => { x with autoGoal := some (x.irange + 1) })
      else
        (loopEvent s l 3 t (loopFields x (declaredCode x.declared) (declaredCode tgt) b.1 r.x b.2)).modLoop l
          (fun x => { x with declared := tgt, tripCount := 0 })
    else
      let b := if x.declared = Declared.limitHi then r.hi.2 else r.lo.2
      let m := max ((b.natAbs : Int) / 20) (nominalCode / 200)
      let inside := if x.declared = Declared.limitHi then decide (r.x ≤ b - m) else decide (b + m ≤ r.x)
      s.modLoop l (fun x => { x with
        cause := r.clip.1
        returnCount := if x.declared = Declared.primary then 0 else if inside then x.returnCount + 1 else 0 })
  let s := s.modLoop l (fun x => { x with
    tripCount :=
      if x.declared = Declared.primary ∨ x.tripN = 0 then 0
      else if x.returnN ≤ x.returnCount then x.tripCount
      else if x.tripCount < x.tripN then x.tripCount + 1 else x.tripCount })
  let s := if x.mode = 1 ∧ r.clip.1 ≠ x.clip then
      (if r.clip.1 ≠ 0 then clipEvent s l t true r.clip.1 x.setPoint r.clip.2
       else
         let (hi, lo) := currentBounds s l none
         clipEvent s l t false x.clip x.setPoint (if 0 ≤ x.setPoint then hi.2 else lo.2))
    else s
  s.modLoop l (fun x => { x with clip := r.clip.1 })

/-- |I| below 0.8 × the nominal of the next lower range (R256), exactly. -/
def belowLower (s : State) (l : Nat) (x : LoopState) : Bool :=
  ((Frac.ofInt x.lastI).abs.mul (fsCurr s l x.irange)).lt
    ((dec (8 * nominalCode) 1).mul (fsCurr s l (x.irange - 1)))

/-- The auto-range counts and decision (R256). -/
def autoCount (s : State) (l : Nat) (iOvr : Bool) : State :=
  let x := s.loop l
  if !x.auto ∨ x.change.isSome ∨ x.changeNext.isSome ∨ x.autoGoal.isSome ∨
      !(decide (x.mode = 2) || (decide (x.mode = 0) && decide (x.declared = Declared.primary))) then s
  else
    let up := if (nominalCode : Int) ≤ x.lastI.natAbs then x.upCount + 1 else 0
    if x.irange < x.autoMax ∧ (x.upN ≤ up ∨ iOvr) then
      s.modLoop l (fun x => { x with upCount := up, autoGoal := some (x.irange + 1) })
    else if x.autoMin < x.irange then
      let down := if belowLower s l x then x.downCount + 1 else 0
      s.modLoop l (fun x => { x with
        upCount := up, downCount := down
        autoGoal := if x.downN ≤ down then some (x.irange - 1) else none })
    else s.modLoop l (fun x => { x with upCount := up })

/-- The charge window is left, or is back (R250). Left: the run ends PARTIAL, and the loop goes to zero current. Back: cause
7 ends, and the loop holds zero current until a LOOP_FORCE: in FI its set-point stays at 0 A or below, in FV its current. -/
def chargeLeave (s : State) (l t : Nat) : State :=
  let x := s.loop l
  if x.mode = 2 ∨ chargeOutside s l = x.chargeOut then s
  else if !x.chargeOut then
    let s := endLoopRun s l 9 5 t
    let s := if x.mode = 0 then clipEvent s l t true 7 x.lastI 0 else s
    s.modLoop l (fun x => { x with chargeOut := true, chargeHold := true })
  else
    let s := if x.mode = 0 then clipEvent s l t false 7 x.lastI 0 else s
    s.modLoop l (fun x => { x with
      chargeOut := false
      setPoint := if x.mode = 1 ∧ x.chargeHold then min 0 x.setPoint else x.setPoint })

/-- Set-point and user limits of a loop in its cloche mode (R258). -/
def clocheTarget (s : State) (l : Nat) : Nat × Int × Option (Int × Int) :=
  let x := s.loop l
  if x.clocheMode = 1 then (1, 0, none)
  else
    let i := min nominalCode (setCode s l false x.irange x.vrange (f32 x.clocheI)).natAbs
    (0, clampI (spanCodes l x.vrange).1 (spanCodes l x.vrange).2 (setCode s l true x.irange x.vrange (f32 x.clocheV)), some (i, -i))

/-- The first region of a start from STOPPED comes from the raw boundaries with the start sample's variable, the set-point
after its clip, without a SWAP record (R295). -/
def firstRegion (s : State) (l : Nat) : State :=
  let x := s.loop l
  if !x.regions.starting then s
  else
    let (ph, pl) := quantityBounds s l (primaryVolt x.mode) none
    let v := if x.regions.var = 2 ∧ x.mode ≠ 2 then clampI pl.2 ph.2 x.setPoint else regionVar x
    let r := rawRegion x.regions v
    s.modLoop l (fun x =>
      let x := { x with regions := { x.regions with starting := false } }
      if x.regions.enable then { x with inUse := some r, regionSwap := none, regions := { x.regions with cur := r, known := true } } else x)

/-- What an earlier sample made due and no row has done. -/
def catchUp (s : State) (l : Nat) : State :=
  catchRunEnd (autoRangeNow (complyTripNow (lawReturnNow s l) l) l) l

/-- Apply `f` if the loop regulates or settles: its sources run (R252). -/
def whileRunning (s : State) (l : Nat) (f : State → State) : State :=
  let x := s.loop l
  if (decide (x.state = .regulating) && x.measure.isNone) || decide (x.state = .settling) then f s else s

/-- Steps 5 to 10 of R252: the law of a loop that regulates, its declaration, the auto-range counts and the regions. -/
def lawSteps (s : State) (l t : Nat) (c : Reading) : State :=
  let x := s.loop l
  let s := firstRegion s l
  if x.mode = 2 then decideRegion (autoCount s l c.iOvr) l t
  else
    let r := regulate s l x.mode x.setPoint (some (userLimits s l (!primaryVolt x.mode)))
    decideRegion (autoCount (declareLaw r.1 l t r.2) l c.iOvr) l t

/-- Steps 2 to 10 of R252 of a loop that is neither FROZEN, nor in CLOCHE, nor GANGED. -/
def sampleSteps (s : State) (l t : Nat) (c : Reading) : State :=
  let s := applyForce (swapDue (rangeStep s l t) l t) l t
  let s := deliver (whileRunning (whileRunning s l (fun s => advanceSource s l t)) l (fun s => chargeLeave s l t)) l t c
  let s := recordHandoff s l t
  if (s.loop l).state = .regulating ∧ (s.loop l).measure.isNone then lawSteps s l t c else s

/-- The laws of the loop, or of its gang's leader, run in this sample: it regulates in FV or FI, or takes a cloche mode that
regulates (R252, R258). -/
def lawsRun (s : State) (l : Nat) : Bool :=
  let x := s.loop (gangLeader s l)
  (decide (x.state = .regulating) && x.measure.isNone && decide (x.mode ≠ 2)) ||
  (decide (x.state = .cloche) && decide (x.clocheMode ≠ 0) && !x.isOpen)

/-- An on-chip stage whose laws do not run clamps its output current to I_diss itself, in the same sample (R237, R260). -/
def clampOutput (s : State) (l : Nat) : State :=
  s.modLoop l (fun x => { x with
    dissClamp := if 512 ≤ l ∧ x.stage = 0 ∧ !x.isOpen ∧ !lawsRun s l then
        some (dissAt s l x.lastV false, -dissAt s l x.lastV true) else none })

/-- LOOP_SAMPLE (R252): the conversion that completed at the loop's next boundary. A loop in EXT_DIGITAL samples at its
exchanges instead (R241); converters stop unless the bed is ACTIVE (R319). -/
def execLoopSample (l : LoopId) (c : Conv) (s : State) : Host.Outcome State Fault Refusal :=
  .next (
    let n := l.val
    if !bedActive s (loopBed n) ∨ (s.loop n).stage = 2 then s
    else
      let s := catchUp s n
      let t := nextBoundary s n
      let c := corrected s n c
      let s := (s.reach t).modLoop n (fun x => { x with lastSample := t })
      let s := match (s.loop n).state with
        | .ganged => deliver s n t c
        | .frozen => deliver s n t c
        | .cloche =>
          let s := deliver (swapDue s n t) n t c
          if (s.loop n).clocheMode = 0 ∨ (s.loop n).isOpen then s
          else
            let (m, sp, u) := clocheTarget s n
            (regulate s n m sp u).1
        | _ => sampleSteps s n t c
      dissipate (clampOutput (followLeader s n) n) n)

/-! Commands. -/

/-- A gang member named (R239): BAD_STATE, DETAIL 9. -/
def needNoMember (s : State) (ls : List Nat) : Option Bad := firstOf ls (fun l => needState (decide ((s.loop l).state ≠ .ganged)) 9)

/-- A run on the loop: DETAIL 4. -/
def needNoRun (s : State) (ls : List Nat) : Option Bad := firstOf ls (fun l => needState (decide ((s.loop l).source = .dc)) 4)

/-- Scope held by calibration: DETAIL 5. -/
def needNoCal (s : State) (ls : List Nat) : Option Bad := firstOf ls (fun l => needState (!calHoldsLoop s l) 5)

/-- Bed in IDLE or STANDBY: DETAIL 6. -/
def needLoopBeds (s : State) (ls : List Nat) : Option Bad := needActive s (ls.map loopBed)

/-- External mode without an attached, live stage: DETAIL 7. -/
def needStage (s : State) (ls : List Nat) : Option Bad :=
  firstOf ls (fun l => let x := s.loop l
    needState (decide (x.stage = 0) || ((s.stage x.stageId).attached && !(s.stage x.stageId).lost)) 7)

/-- The checks of R268 that every command of the groups of R267 and R309 shares on the loops it names: calibration, bed,
stage. -/
def needLoopsReady (s : State) (ls : List Nat) : List (Option Bad) := [needNoCal s ls, needLoopBeds s ls, needStage s ls]

/-- Check 8 of the group (R268). -/
def needLoopsFree (s : State) (ls : List Nat) : Option Bad := firstOf ls (needLoopFree s)

/-- The layout of a gang (R239). -/
def gangLegal (s : State) (l n stage : Nat) : Bool :=
  n = 1 ||
  (decide (512 ≤ l) && decide ((l - 512) / 4 = (l - 512 + n - 1) / 4) && decide (stage = 0) &&
   (rangeFrom l n).all (fun k => decide (loopPads s k = 0)) &&
   (rangeFrom (l + 1) (n - 1)).all (fun k => decide ((s.loop k).stage = 0) &&
     (decide ((s.loop k).state = .stopped) || (decide ((s.loop k).state = .ganged) && decide (k < l + (s.loop l).gang)))))

/-- Ranges after a change of stage mode (R253): code 5 outside ON_CHIP, code 0 back in it (DESIGN CHOICE 10). -/
def stageRange (old new irange : Nat) : Nat :=
  if new ≠ 0 then 5 else if old ≠ 0 then 0 else irange

/-- LOOP_CONFIG (R269), with READ = 0 on one loop. -/
def configLoop (s : State) (c : Current) (l : Nat) : State :=
  let f := par c 2
  let gang := par c 5
  let old := (s.loop l).gang
  let s := (rangeFrom (l + 1) (old - 1)).foldl (fun s k =>
    s.modLoop k (fun x => { x with state := .stopped, isOpen := true })) s
  let s := (rangeFrom (l + 1) (gang - 1)).foldl (fun s k => s.modLoop k (fun x => { x with state := .ganged })) s
  followLeader (s.modLoop l (fun x => { x with
    charge := bit f 1, stopHold := bit f 2
    irange := stageRange x.stage (par c 3) x.irange
    stage := par c 3, stageId := par c 4, gang := gang, eventRing := par c 6, trackShift := par c 7 })) l

/-- LOOP_CONFIG (R269). -/
def execLoopConfig (s : State) : Host.Outcome State Fault Refusal :=
  .next (onCommand s 0x0400 (fun p => !bit (wAt p 2) 0) (fun c =>
    let ls := loopRange c 0
    let heavy := decide (512 ≤ par c 0)
    checked s
      (needLoops c 0 ++
       [needParam (decide (par c 2 < 8) && (heavy || !bit (par c 2) 1)) 2,
        needParam (decide (par c 3 ≤ 2) && (heavy || decide (par c 3 = 0))) 3,
        needParam (decide (par c 4 < 16) && (decide (par c 3 ≠ 0) || decide (par c 4 = 0))) 4,
        needParam (decide (1 ≤ par c 5) && decide (par c 5 ≤ 4) && (decide (par c 5 = 1) || decide (par c 1 = 1))) 5,
        needRing s (par c 6) 6, needParam (decide (par c 7 ≤ 7)) 7,
        if gangLegal s (par c 0) (par c 5) (par c 3) then none else some (0x12, 0x8003),
        needLoopsFree s ls, needNoMember s ls,
        firstOf ls (fun l => needState (decide ((s.loop l).state = .stopped)) 1), needNoCal s ls, needLoopBeds s ls])
      (fun s => postOk (ls.foldl (fun s l => configLoop s c l) s))))

/-- LOOP_CONFIG_READ (R269). -/
def execLoopConfigRead (s : State) : Host.Outcome State Fault Refusal :=
  .next (onCommand s 0x0400 (fun p => bit (wAt p 2) 0) (fun c =>
    let l := par c 0
    checked s
      (needLoops c 0 ++ [needParam (decide (par c 1 = 1)) 1, needParam (decide (par c 2 = 1)) 2, needZero c 3 5])
      (fun s =>
        let x := s.loop l
        postOk s ([loopModeCode x.state, declaredCode x.declared, x.mode, x.irange, x.vrange,
          flag 0 x.auto + flag 1 x.charge + flag 2 (decide (x.clip ≠ 0)) + flag 3 (chargeOutside s l),
          x.cause, toTwos 16 x.lastV, toTwos 16 x.lastI, x.stage, x.gang].map w16))))

/-- The value of a LOOP_FORCE on a loop (R236). -/
def needValue (s : State) (l mode : Nat) (v : BitVec 32) : Option Bad :=
  let x := s.loop l
  if 2 ≤ mode ∨ inNominal s l (primaryVolt mode) x.irange x.vrange (f32 v) = true then none else some (0x12, 0x8002)

/-- The pad connection a mode needs (R268 DETAIL 3). -/
def needPfm (s : State) (l mode : Nat) : Option Bad :=
  if 512 ≤ l ∨ mode = 3 then none
  else
    let conn := (s.pinst l).conn
    needState (decide (conn = 2) || (decide (mode = 2) && decide (conn = 3))) 3

/-- INHIBITED outside the charge window (R250), naming the thermistor; a STOP is not refused. -/
def needWindow (s : State) (l mode : Nat) : Option Bad :=
  if mode ≠ 3 ∧ chargeOutside s l = true ∧ !(s.loop l).iHi.any (fun h => decide (h ≤ 0)) then
    some (0x14, (s.charge (l - 512)).source)
  else none

/-- LOOP_FORCE (R270). -/
def execLoopForce (s : State) : Host.Outcome State Fault Refusal :=
  .next (onCommand s 0x0401 (fun _ => true) (fun c =>
    let ls := loopRange c 0
    let mode := par c 2
    checked s
      (needLoops c 0 ++
       [needParam (decide (mode ≤ 3)) 2,
        if 2 ≤ mode then needZero c 3 2 else needParam (f32Finite (parF c 3)) 3] ++
       needWhen c 5 ++
       [firstOf ls (fun l => needValue s l mode (parF c 3)),
        if par c 5 = 1 then needLead c (par64 c 6) 4 else none,
        if mode = 3 then none else needLoopsFree s ls,
        firstOf ls (fun l => needWindow s l mode),
        needNoMember s ls, firstOf ls (fun l => needPfm s l mode), needNoRun s ls, needNoCal s ls, needLoopBeds s ls,
        if mode = 3 then none else needStage s ls])
      (fun s =>
        let due := if par c 5 = 1 then par64 c 6 else s.now
        let s := ls.foldl (fun s l => s.modLoop l (fun x => { x with force := some { due := due, mode := mode, value := parF c 3 } })) s
        let b := dueBoundary s (par c 0) due
        postOk s (w16 ls.length :: toWords 4 b))))

/-- The ranges a LOOP_RANGE asks of a loop, with AUTO's placement (R256, R271). -/
def rangeGoal (s : State) (c : Current) (l : Nat) : Nat × Nat :=
  let x := s.loop l
  let i := if par c 2 = 0xFF then x.irange else par c 2
  let i := if par c 4 = 1 then max (par c 5) (min (par c 6) i) else i
  (i, if par c 3 = 0xFF then x.vrange else par c 3)

/-- The value checks of a range change on a regulating loop (R253). -/
def needRangeValues (s : State) (l ni nv : Nat) : Option Bad :=
  let x := s.loop l
  let inFive := fun (c : Int) =>
    decide (setCode s l true x.irange x.vrange (dec (-5) 0) ≤ c) && decide (c ≤ setCode s l true x.irange x.vrange (dec 5 0))
  let volt := nv = x.vrange ||
    ((x.mode ≠ 0 || inFive x.setPoint) && x.vHi.all inFive && x.vLo.all inFive)
  let curr := x.mode ≠ 1 || ni = x.irange ||
    decide (((recode s l false x.irange x.vrange ni nv x.setPoint).natAbs : Int) ≤ nominalCode)
  if x.state = .stopped ∨ (volt && curr) then none else some (0x12, 0x8002)

/-- A current range code that the loop's path allows (R253, R271): code 5 alone on an external stage. -/
def autoCode (s : State) (l i : Nat) : Bool := if (s.loop l).stage = 0 then decide (i ≤ 4) else decide (i = 5)

/-- LOOP_RANGE (R253 to R257, R271). -/
def execLoopRange (s : State) : Host.Outcome State Fault Refusal :=
  .next (onCommand s 0x0402 (fun _ => true) (fun c =>
    let ls := loopRange c 0
    let heavy := decide (512 ≤ par c 0)
    let i := par c 2
    checked s
      (needLoops c 0 ++
       [needParam (decide (i ≤ 4) || decide (i = 0xFF) || (heavy && decide (i = 5))) 2,
        firstOf ls (fun l => let x := s.loop l
          if i = 0xFF ∨ (x.stage = 0 ∧ i ≤ 4) ∨ (x.stage ≠ 0 ∧ i = 5) then none else some (0x12, 0x8007)),
        needParam (decide (par c 3 = 0xFF) || (heavy && decide (par c 3 ≤ 1))) 3,
        needParam (decide (par c 4 ≤ 1) && !(decide (par c 4 = 1) && ls.any (fun l =>
          decide ((s.loop l).stage ≠ 0) || (decide ((s.loop l).state ≠ .stopped) && decide ((s.loop l).mode = 1))))) 4,
        needParam (ls.all (fun l => autoCode s l (par c 5)) && decide (par c 5 ≤ par c 6)) 5,
        needParam (ls.all (fun l => autoCode s l (par c 6))) 6, needParam (decide (par c 7 ≤ 255)) 7,
        firstOf ls (fun l => needRangeValues s l (rangeGoal s c l).1 (rangeGoal s c l).2),
        needLoopsFree s ls, needNoMember s ls, needNoRun s ls, needNoCal s ls, needLoopBeds s ls])
      (fun s =>
        let s := ls.foldl (fun s l =>
          let g := rangeGoal s c l
          let s := s.modLoop l (fun x => { x with
            auto := decide (par c 4 = 1), autoMin := par c 5, autoMax := par c 6
            upN := if par c 7 = 0 then 2 else par c 7, downN := if par c 8 = 0 then 256 else par c 8
            upCount := 0, downCount := 0, autoGoal := none })
          requestRange s l g.1 g.2) s
        if ls.any (fun l => (s.loop l).change.isSome || (s.loop l).changeNext.isSome) then waitFor s .rangeSettle
        else postOk s)))

/-- LOOP_COMPLY (R272). -/
def execLoopComply (s : State) : Host.Outcome State Fault Refusal :=
  .next (onCommand s 0x0403 (fun _ => true) (fun c =>
    let ls := loopRange c 0
    let volt := decide (par c 2 = 1)
    let hi := f32 (parF c 3)
    let lo := f32 (parF c 5)
    checked s
      (needLoops c 0 ++
       [needParam (decide (par c 2 ≤ 1)) 2, needParam (f32Finite (parF c 3)) 3, needParam (f32Finite (parF c 5)) 5,
        if lo.lt hi then none else some (0x12, 0x8001),
        if volt && ls.any (fun l => let v := (s.loop l).vrange
            !(inNominal s l true 0 v hi && inNominal s l true 0 v lo)) then some (0x12, 0x8002) else none,
        needNoMember s ls] ++ needLoopsReady s ls)
      (fun s => postOk (ls.foldl (fun s l =>
        let x := s.loop l
        let h := some (setCode s l volt x.irange x.vrange hi)
        let w := some (setCode s l volt x.irange x.vrange lo)
        s.modLoop l (fun x => { x with
          vHi := if volt then h else x.vHi, vLo := if volt then w else x.vLo
          iHi := if volt then x.iHi else h, iLo := if volt then x.iLo else w
          returnN := if par c 7 = 0 then 32 else par c 7
          tripN := par c 8
          tripCount := if tripped x then par c 8 + 1 else min x.tripCount (par c 8) })) s))))

/-- Steps of the store used by running sweeps (R268 DETAIL 8). -/
def sweepUses (s : State) (first count : Nat) : Bool :=
  (tents s.lp.loop).any (fun e => match e.2.source with
    | .sweep r => decide (r.stepFirst < first + count) && decide (first < r.stepFirst + r.steps)
    | _ => false)

/-- SWEEP_LOAD (R273). -/
def execSweepLoad (s : State) : Host.Outcome State Fault Refusal :=
  .next (onCommand s 0x0404 (fun _ => true) (fun c =>
    let n := par c 1
    checked s
      [needParam (decide (1 ≤ n) && decide (n ≤ 23) && decide (par c 0 + n ≤ 65536)) 1,
       (List.range n).findSome? (fun i => needParam (decide (par c (6 + 5 * i) &&& 0xFF8E = 0)) (6 + 5 * i)),
       needState (!sweepUses s (par c 0) n) 8]
      (fun s => postOk ((List.range n).foldl (fun s i =>
        let o := 2 + 5 * i
        s.modSwp (par c 0 + i) (fun _ =>
          { value := parF c o, dwell := par32 c (o + 2), meas := bit (par c (o + 4)) 0, irange := bits (par c (o + 4)) 4 3 })) s))))

/-- The reason a step fails on a loop whose range before it is `old` (R274). -/
def stepReason (s : State) (l old i : Nat) : Option Nat :=
  let x := s.loop l
  let st := s.swp i
  let new := if st.irange = 7 then old else st.irange
  let pv := primaryVolt x.mode
  if st.irange ≠ 7 ∧ new ≠ old ∧ (x.stage ≠ 0 ∨ 5 ≤ new) then some 0x8007
  else if !f32Finite st.value || !inNominal s l pv new x.vrange (f32 st.value) then some 0x8002
  else if st.dwell ≤ settleSamples l old x.vrange new x.vrange then some 0x8005
  else if st.irange ≠ 7 ∧ x.auto then some 0x8006
  else none

/-- The first failing step of one loop from its range on, with its place in the run and its reason, and the range after
the steps. -/
def stepScan (s : State) (l : Nat) : Nat → Nat → List Nat → Option (Nat × Nat × Nat) × Nat
  | _, old, [] => (none, old)
  | k, old, i :: r =>
    match stepReason s l old i with
    | some d => (some (k, i, d), old)
    | none => stepScan s l (k + 1) (if (s.swp i).irange = 7 then old else (s.swp i).irange) r

/-- The first failing step of a loop over two passes: the second begins in the range the first ends in. -/
def stepFails (s : State) (first steps passes l : Nat) : Option (Nat × Nat × Nat) :=
  let run := rangeFrom first steps
  match stepScan s l 0 (s.loop l).irange run with
  | (some f, _) => some f
  | (none, old) => if passes = 1 then none else (stepScan s l steps old run).1

/-- The first failing step of a run over all its loops (R274), the lowest loop's of one step; its number and reason. -/
def firstFailing (s : State) (first steps passes : Nat) (ls : List Nat) : Option (Nat × Nat) :=
  ((ls.filterMap (stepFails s first steps passes)).foldl (fun a f =>
    match a with
    | some b => if f.1 < b.1 then some f else some b
    | none => some f) (none : Option (Nat × Nat × Nat))).map (fun f => f.2)

/-- The tags a run of `n` loops takes from TAG on (R225, R274). -/
def needTags (s : State) (c : Current) (n : Nat) : List (Option Bad) :=
  [if c.tag.toNat + n - 1 ≤ 0xFFF then none else some (0x12, 0xFF01),
   firstOf (rangeFrom c.tag.toNat n) (fun t => needState (!tagInUse s t) t)]

/-- The checks that a start of a source shares (R268, R310). -/
def needSource (s : State) (ls : List Nat) : List (Option Bad) :=
  [needLoopsFree s ls, firstOf ls (fun l => needWindow s l 0), needNoMember s ls,
   firstOf ls (fun l => needState (decide ((s.loop l).state = .regulating) && decide ((s.loop l).mode ≠ 2)) 2),
   needNoRun s ls, needNoCal s ls, needLoopBeds s ls, needStage s ls]

/-- Start a source on each loop under the tags from TAG on (R274), each with its progress entry, then ACCEPTED. -/
def startSources (s : State) (c : Current) (ls : List Nat) (mk : Nat → Nat → Source) (words : List Word) : State :=
  let s := ls.zipIdx.foldl (fun s (l, i) =>
    let tag := c.tag.toNat + i
    let s := s.modLoop l (fun x => { x with source := mk l tag })
    if i = 0 then s else beginWork s tag c.opcode.toNat c.ring.toNat 2 false) s
  accept s c 2 words

/-- SWEEP_RUN (R265, R274). -/
def execSweepRun (s : State) : Host.Outcome State Fault Refusal :=
  .next (onCommand s 0x0405 (fun _ => true) (fun c =>
    let ls := loopRange c 0
    let steps := par32 c 3
    let f := par c 11
    let start := startOf s c 6 (f % 4) (bit f 2)
    match firstBad (needLoops c 0 ++
       [needParam (decide (1 ≤ steps) && decide (steps ≤ 65536) && decide (par c 2 + steps ≤ 65536)) 3] ++
       needStart c 6 ++
       [needParam (decide (f < 16)) 11, needRing s (par c 12) 12,
        if par c 6 = 1 then needLead c (par64 c 7) 4 else none]) with
    | some b => postBad s b
    | none =>
      match firstFailing s (par c 2) steps (par c 5) ls with
      | some (i, d) => postResponse s 0x12 d (toWords 2 i)
      | none =>
        let meas := (rangeFrom (par c 2) steps).any (fun i => (s.swp i).meas)
        checked s (needTags s c ls.length ++ needSource s ls ++
            [firstOf ls (fun l => needBusy (!(meas && ((s.avg l).run.isSome || (s.avg l).lock.isSome))) l)])
          (fun s =>
            startSources s c ls (fun l tag => .sweep
              { tag := tag, ring := c.ring.toNat, measRing := ringOf c (par c 12), first := par c 0, count := par c 1
                start := start, stepFirst := par c 2, steps := steps, passes := par c 5, begun := 0, done := 0, left := 0
                last := 0, began := 0, credit := false, granted := false, restore := if bit f 3 then some (Frac.ofInt (s.loop l).setPoint) else none })
              (w16 ls.length :: toWords 4 (startTicks start) ++ [c.tag]))))

end Sys2Proof.Machine
end

