-- ==== Sys2Proof/Machine/CalOps.lean ====
section
/-! DEFINITION. What other chapters need of a calibration run (spec/16): what it holds, the freeze of its loops (R260,
R481), and its end (R488, R489). -/

namespace Sys2Proof.Machine

/-- Beds of which a run holds something (R481, R502): empty for BED_SYNC and REFV_CHECK, which hold every bed. -/
def calBeds (kind : Nat) (scopes : List Nat) : List Nat :=
  if kind = 0 ∨ kind = 3 ∨ kind = 5 then scopes
  else if kind = 2 then (scopes.map (fun u => u / 2)).dedup
  else if kind = 4 then (scopes.map (fun h => h / 2)).dedup
  else List.range 16

/-- Loops that a run freezes (R481): the pin paths of its beds, or its heavy loops with their gangs (R239). -/
def calLoops (s : State) (kind : Nat) (scopes : List Nat) : List Nat :=
  if kind = 3 then scopes.flatMap (fun b => rangeFrom (32 * b) 32)
  else if kind = 4 then (scopes.flatMap (fun h => gangMembers s (gangLeader s (512 + h)))).dedup
  else []

/-- A loop freezes (R257, R260): a range change ends; the demand is held. A loop in cloche, or a member of a gang, keeps
its state. -/
def freezeLoop (s : State) (l : Nat) : State :=
  let x := s.loop l
  if x.state = .cloche ∨ x.state = .ganged ∨ x.state = .frozen then s
  else
    let s := dropRange s l (0x13, 5)
    s.modLoop l (fun y => { y with state := .frozen, resume := if x.state = .settling then .regulating else x.state })

/-- At the end of the freeze the loop resumes the state it left (R260). -/
def thawLoop (s : State) (l : Nat) : State :=
  s.modLoop l (fun x => if x.state = .frozen then { x with state := x.resume } else x)

/-- Every held scope returns to service (R168, R489); the end of an edge calibration brings its beds a sync pulse (R169). -/
def releaseScopes (s : State) (r : CalRun) : State :=
  let s := { s with cal := { s.cal with run := none } }
  let s := (calLoops s r.kind r.scopes).foldl thawLoop s
  let s := if r.kind = 0 then syncBeds s r.scopes else s
  if r.kind = 0 ∨ r.kind = 1 then (calBeds r.kind r.scopes).foldl resumeClocks s else s

/-- A run ends (R488, R489): its scopes return to service and its COMPLETION is generated. -/
def endCal (s : State) (r : CalRun) (status detail state cause steps : Nat) : State :=
  let s := answerAbort (releaseScopes s r) r.tag
  endWork s { workEnd s r.tag r.ring status detail 0 0 state cause 0 steps with flags := flag 3 s.clk.holdover }

/-- Scopes of a run, a gang counting once (R239, R503); BED_SYNC and REFV_CHECK have one. -/
def calCount (s : State) (r : CalRun) : Nat :=
  if r.kind = 1 ∨ r.kind = 6 then 1
  else if r.kind = 4 then ((r.scopes.map (fun h => gangLeader s (512 + h))).dedup).length
  else r.scopes.length

/-- An event of R489 ends the run that is in progress, if `p` holds of it: CAL_REJECTED with a reason. How many scopes
were complete by then is the measurement's: a free value up to all of them. -/
def interruptCal (s : State) (p : CalRun → Bool) (reason cause : Nat) : State :=
  match s.cal.run with
  | some r => if p r then endCal s.takeFree r 0x30 reason 2 cause (s.freeNat % (calCount s r + 1)) else s
  | none => s

end Sys2Proof.Machine
end

