-- ==== Sys2Proof/Machine/ClocheOps.lean ====
section
/-! DEFINITION. The cloche (spec/17 R521 to R527): its causes at four scopes and whether they are live, its action on
beds, heavy loops and the part, its release, and the URGENT message of a chain cloche (R417, R525). -/

namespace Sys2Proof.Machine

/-- Key of a level in the supervision's table. -/
def levelKey : LevelId → Nat
  | .warn z => 8 + z.val
  | .throttle z n => 16 + 4 * z.val + n.val
  | .clocheGroup b => 64 + b.val
  | .clocheZ0 => 80
  | .clocheTh n => 96 + n.val
  | .shutdown => 112

/-- A latched cause is live (R522). -/
def causeLive (s : State) : Cause → Bool
  | .fault k src => (s.liveNow k).getLsbD src
  | .level v => (s.level (levelKey v)).held
  | .rate (.sensor i) => (s.sensor i.val).rising
  | .rate (.thermistor n) => (s.therm n.val).rising
  | .t3 z => decide (enforcedLevel s z.val = 3)
  | .broken (.sensor i) => (s.sensor i.val).broken
  | .broken (.thermistor n) => (s.therm n.val).broken
  | .stageLost st => (s.stage st.val).lost
  | .shutdown => s.sup.shutdown
  | .dead => false

/-- Latch a cause once. -/
def latchCause (l : List Cause) (c : Cause) : List Cause := if l.contains c then l else l ++ [c]

/-- What started a cloche, as the bed's registers tell it (R508): block, source, ORIGIN with its valid bit, scope. -/
structure Origin where
  block  : Nat := 0xFF
  source : Nat := 0x3F
  origin : Nat := 0
  scope  : Nat := 1
deriving DecidableEq, Repr

/-- DACs of bed `b` whose working and cloche codes differ: their outputs move when the cloche starts or ends (R135). -/
def moveDacs (s : State) (b : Nat) : State :=
  ((tents s.pins.dac).filter (fun e => decide (dacBed e.1 = b) && decide (e.2.work ≠ e.2.cloche))).foldl (fun s e =>
    s.modDacst e.1 (fun d => { d with changed := s.now })) s

/-- The cloche action of bed `b` starts (R139, R258, R524), unless its outputs are in cloche: bursts with a pin in it and
the runs of its loops stop with the cause given (R217). -/
def startBed (s : State) (b : Nat) (o : Origin) (run : Nat) : State :=
  let s := s.modBedc b (fun x => { x with tripAt := some s.now })
  if (s.bedc b).active then s
  else
    let s := s.modBedc b (fun x => { x with
      active := true
      settled := false
      causeBlock := o.block % 256
      causeSource := o.source % 64
      causeScope := o.scope
      origin := o.origin
      time := s.now })
    let s := clocheDrivers (moveDacs s b) b
    let s := (List.range 64).foldl (fun s q => if (seqBeds s q).contains b then latchStop s q run false else s) s
    clocheBedLoops s b run

/-- A bed-scope cause (R521). -/
def clocheBed (s : State) (b : Nat) (c : Cause) (o : Origin) (run : Nat := 2) : State :=
  startBed (s.modBedc b (fun x => { x with causes := latchCause x.causes c })) b { o with scope := 1 } run

/-- A chip-scope cause (R521): every bed. -/
def clocheChip (s : State) (c : Cause) (o : Origin) : State :=
  let s := { s with flt := { s.flt with chip := latchCause s.flt.chip c } }
  (List.range 16).foldl (fun s b => startBed s b { o with scope := 2 } 2) s

/-- A chain-scope cause latches the chip scope too (R521). -/
def clocheChain (s : State) (c : Cause) (o : Origin) : State :=
  let s := { s with flt := { s.flt with chip := latchCause s.flt.chip c, chain := latchCause s.flt.chain c } }
  (List.range 16).foldl (fun s b => startBed s b { o with scope := 3 } 2) s

/-- The part originates a CHAIN_CLOCHE message out of both ports (R417, R525); one within 1 µs of the last covers the
cause. -/
def originate (s : State) (block source : Nat) : State :=
  if s.flt.lastUrgent.any (fun t => decide (s.now < t + 3200)) then s
  else
    let m := msgBytes 0x0A 0x7F s.link.addr 0 s.link.mtag.toNat
      ([0, b8 s.link.addr, b8 block, b8 source] ++ toBytes 2 s.flt.urgId.toNat) (toBytes 8 s.now)
    let s := enqueue s 0 0 m
    let s := if takesUrgent s 1 then enqueue s 1 0 m else s
    { s with
      link := { s.link with mtag := s.link.mtag + 1 }
      flt := { s.flt with urgId := s.flt.urgId + 1, lastUrgent := some s.now } }

/-- A loop-scope cause holds heavy loop `h`, and the whole gang it belongs to (R239, R521). -/
def clocheHeavy (s : State) (h : Nat) (c : Cause) (run : Nat := 2) : State :=
  let lead := gangLeader s (512 + h)
  let s := (gangMembers s lead).foldl (fun s l =>
    (s.modLoopc (l - 512) (fun x => latchCause x c)).modBedc (loopBed l) (fun x => { x with tripAt := some s.now })) s
  clocheLoop s lead run

/-- A cause of some scope covers bed `b` (R521). -/
def bedCovered (s : State) (b : Nat) : Bool :=
  !(s.bedc b).causes.isEmpty || !s.flt.chip.isEmpty || !s.flt.chain.isEmpty

/-- At least one latched cause of the bed is live (CLOCHE_STATE.LIVE). -/
def bedCauseLive (s : State) (b : Nat) : Bool :=
  ((s.bedc b).causes ++ s.loopc (2 * b) ++ s.loopc (2 * b + 1) ++ s.flt.chip ++ s.flt.chain).any (causeLive s)

/-- CHIP_STATUS.CLOCHE_CHIP (R521). -/
def clocheChipBit (s : State) : Bool := !s.flt.chip.isEmpty || !s.flt.chain.isEmpty

/-- A cause of some scope covers the loop, or a loop of its gang (R239, R521). -/
def gangCovered (s : State) (l : Nat) : Bool :=
  (gangMembers s l).any (fun k => bedCovered s (loopBed k) || (decide (512 ≤ k) && !(s.loopc (k - 512)).isEmpty))

/-- The bed leaves cloche if no cause covers it, and its loops, a gang as a whole, if none holds them (R239, R523): working
codes and connections, held driver states, loops STOPPED (R259). -/
def leaveBed (s : State) (b : Nat) : State :=
  if bedCovered s b then s
  else
    let s := if (s.bedc b).active then
        let s := s.modBedc b (fun x => { x with active := false, settled := false })
        let s := heldDrivers (moveDacs s b) b
        let s := ((tents s.pins.pin).filter (fun e => decide (e.1 / 32 = b) && decide (e.2.conn ≠ e.2.clocheConn))).foldl (fun s e =>
          s.modPinst e.1 (fun x => { x with closed := false, connSettled := false })) s
        releaseClocks s b
      else s
    (bedLoops b).foldl (fun s l =>
      let m := gangLeader s l
      if gangCovered s m then s else releaseLoop s m) s

/-- Clear what is no longer live of the bed- and loop-scope causes of bed `b` (R523). -/
def clearBedCauses (s : State) (b : Nat) : State :=
  let s := s.modBedc b (fun x => { x with causes := x.causes.filter (causeLive s) })
  [2 * b, 2 * b + 1].foldl (fun s h => s.modLoopc h (fun l => l.filter (causeLive s))) s

/-- A release (R523) of the beds named, or of the chip, with the chain if asked. -/
def releaseCauses (s : State) (beds : List Nat) (chip chain : Bool) : State :=
  let beds := if chip then List.range 16 else beds
  let s := beds.foldl clearBedCauses s
  let s := if chip then { s with flt := { s.flt with chip := s.flt.chip.filter (causeLive s) } } else s
  let s := if chain then { s with flt := { s.flt with chain := s.flt.chain.filter (causeLive s) } } else s
  (if chip then List.range 16 else beds).foldl leaveBed s

/-- A command's cloche (R73, R98): never live. -/
def commandCloche (s : State) (beds : List Nat) (chip chain : Bool) : State :=
  if chain then originate (clocheChain s .dead {}) 0xFF 0xFF
  else if chip then clocheChip s .dead {}
  else beds.foldl (fun s b => clocheBed s b .dead {}) s

/-- Beds of an on-die sensor's groups (R451), none for a stem sensor. -/
def sensorBeds (i : Nat) : List Nat :=
  if i < 8 ∨ 48 ≤ i then []
  else
    let d := (i - 8) / 10
    let k := (i - 8) % 10
    if k < 8 then [4 * d + k / 2] else if k = 8 then [4 * d, 4 * d + 1] else [4 * d + 2, 4 * d + 3]

/-- Zone of an on-die sensor (R451). -/
def sensorZone (i : Nat) : Nat := if i < 8 then 0 else (i - 8) / 10 + 1

/-- The four beds of row die `d`. -/
def dieBeds (d : Nat) : List Nat := rangeFrom (4 * d) 4

/-- Row die of a rail reading (R469), none for a stem rail. -/
def railDie (rail die : Nat) : Option Nat :=
  if rail < 6 then none else if rail < 14 then some ((rail - 6) / 2) else some die

/-- Loops bound to a stage in an external mode (R240, R241). -/
def stageLoops (s : State) (st : Nat) : List Nat :=
  (rangeFrom 512 32).filter (fun l => decide ((s.loop l).stage ≠ 0) && decide ((s.loop l).stageId = st))

/-- Beds that CLOCHE = BED of a source names (R512); an empty list stands for the chip. -/
def faultBeds (s : State) (k src d0 d1 : Nat) : List Nat :=
  if k < 16 then [k]
  else if k = 0x1A then
    if src = 0 ∨ src = 1 then (if d0 = 0 ∨ 5 ≤ d0 then [] else dieBeds (d0 - 1))
    else if src = 2 ∨ src = 5 ∨ src = 6 ∨ src = 8 then (if d0 < 16 then [d0] else [])
    else if src = 4 ∨ src = 7 then sensorBeds d0
    else if src = 9 ∨ src = 10 then (match railDie d0 d1 with | some d => if d < 4 then dieBeds d else [] | none => [])
    else []
  else if k = 0x19 then ((stageLoops s d0).map loopBed).dedup
  else []

/-- CLOCHE_SETTLED (R526): the cloche values of the bed are settled. -/
def execClocheSettled (b : Bed) (s : State) : Host.Outcome State Fault Refusal :=
  .next (if (s.bedc b.val).active then s.modBedc b.val (fun x => { x with settled := true }) else s)

end Sys2Proof.Machine
end

