-- ==== Sys2Proof/Machine/ThermalOps.lean ====
section
/-! DEFINITION. Supervision (spec/15): readings of zones and groups, dwell, the levels' actions, throttle enforcement,
broken sensors, rails, the keep-store window, shutdown. Temperatures are codes of 0.0625 °C. -/

namespace Sys2Proof.Machine

/-- A temperature code in °C. -/
def degC (c : Int) : Frac := ⟨c, 16⟩

/-- The greatest of a list, none if it is empty. -/
def maxOf : List Int → Option Int
  | [] => none
  | x :: r => match maxOf r with | some y => some (max x y) | none => some x

/-- Sensors of a zone (R451). -/
def zoneSensors (z : Nat) : List Nat := if z = 0 then List.range 8 else rangeFrom (8 + 10 * (z - 1)) 10

/-- Broken stem sensors. -/
def stemBroken (s : State) : List Nat := (List.range 8).filter (fun i => (s.sensor i).broken)

/-- Reading of one stem sensor, with its substitute (R463). -/
def stemReading (s : State) (i : Nat) : Option Int :=
  if (s.sensor i).broken then some (max (s.sensor ((i + 7) % 8)).value (s.sensor ((i + 1) % 8)).value + 48)
  else if (s.sensor i).sampled then some (s.sensor i).value else none

/-- Reading of a zone (R454, R463), none before its first sample. -/
def zoneReading (s : State) (z : Nat) : Option Int :=
  if z = 0 then
    if 2 ≤ (stemBroken s).length then some (((f32 (s.zone 0).shutdown).mul (Frac.ofInt 16)).ceil)
    else maxOf ((List.range 8).filterMap (stemReading s))
  else maxOf ((zoneSensors z).filterMap (fun i =>
    if (s.sensor i).sampled && !(s.sensor i).broken then some (s.sensor i).value else none))

/-- Sensors of a bed's group (R451). -/
def groupSensors (b : Nat) : List Nat := (rangeFrom 8 40).filter (fun i => (sensorBeds i).contains b)

/-- A value lies at or above a threshold (R454). -/
def atOrAbove (c : Option Int) (th : Frac) : Bool := c.any (fun c => th.le (degC c))
def below (c : Option Int) (th : Frac) : Bool := c.any (fun c => (degC c).lt th)

/-- Threshold and exit of a zone's level (R455): WARN, T1 to T3, CLOCHE. -/
def levelLimits (s : State) : LevelId → Frac × Frac
  | .warn z => (f32 (s.zone z.val).warn, (f32 (s.zone z.val).warn).sub (f32 (s.zone z.val).hyst))
  | .throttle z n =>
    let t := (f32 (s.zone z.val).throttle).add ((f32 (s.zone z.val).step).mul (Frac.ofInt n.val))
    (t, t.sub (f32 (s.zone z.val).hyst))
  | .clocheGroup b => (f32 (s.zone (bedZone b.val)).cloche, (f32 (s.zone (bedZone b.val)).cloche).sub (f32 (s.zone (bedZone b.val)).hyst))
  | .clocheZ0 => (f32 (s.zone 0).cloche, (f32 (s.zone 0).cloche).sub (f32 (s.zone 0).hyst))
  | .clocheTh n => (f32 (s.therm n.val).cloche, (f32 (s.therm n.val).cloche).sub (f32 (s.zone (bedZone n.val)).hyst))
  | .shutdown => (f32 (s.zone 0).shutdown, f32 (s.zone 0).shutdown)

/-- The present sample counts toward entering (first) and leaving (second) a level (R456, R463). -/
def levelTest (s : State) (v : LevelId) : Bool × Bool :=
  let (th, ex) := levelLimits s v
  match v with
  | .warn z | .throttle z _ => (atOrAbove (zoneReading s z.val) th, below (zoneReading s z.val) ex)
  | .clocheZ0 => (atOrAbove (zoneReading s 0) th, below (zoneReading s 0) ex)
  | .clocheGroup b =>
    let l := groupSensors b.val
    if l.any (fun i => (s.sensor i).broken) then (true, false)
    else
      let r := maxOf (l.filterMap (fun i => if (s.sensor i).sampled then some (s.sensor i).value else none))
      (atOrAbove r th, below r ex)
  | .clocheTh n =>
    let x := s.therm n.val
    if !x.enable then (false, true)
    else if x.broken then (true, false)
    else (x.sampled && th.le (f32 x.value), x.sampled && (f32 x.value).lt ex)
  | .shutdown => ((List.range 5).any (fun z => atOrAbove (zoneReading s z) (f32 (s.zone z).shutdown)), false)

/-- Inputs whose suspicion keeps a level from falling (R464). -/
def levelSuspect (s : State) : LevelId → Bool
  | .warn z | .throttle z _ => (zoneSensors z.val).any (fun i => (s.sensor i).suspect)
  | .clocheZ0 => (zoneSensors 0).any (fun i => (s.sensor i).suspect)
  | .clocheGroup b => (groupSensors b.val).any (fun i => (s.sensor i).suspect)
  | .clocheTh n => (s.therm n.val).suspect
  | .shutdown => false

/-- One sample of a level's dwell (R456). -/
def countLevel (s : State) (v : LevelId) : State :=
  let (up, down) := levelTest s v
  s.modLevel (levelKey v) (fun x => { x with
    up := if up then x.up + 1 else 0
    down := if down && !levelSuspect s v then x.down + 1 else 0 })

/-- Levels of a zone's throttle and WARN, the highest first. -/
def zoneLevels (z : Zone) : List LevelId := [.throttle z 2, .throttle z 1, .throttle z 0, .warn z]

/-- Levels that the on-die sensors drive. -/
def sensorLevels : List LevelId :=
  (List.finRange 5).flatMap zoneLevels ++ (List.finRange 16).map .clocheGroup ++ [.clocheZ0, .shutdown]

/-- A level is held. -/
def levelHeld (s : State) (v : LevelId) : Bool := (s.level (levelKey v)).held

def setHeld (s : State) (v : LevelId) (on : Bool) : State := s.modLevel (levelKey v) (fun x => { x with held := on })

/-- Throttle level of a zone: T0 to T3. -/
def throttleLevel (s : State) (z : Nat) : Nat :=
  let h := fun (n : Nat) => (s.level (16 + 4 * z + n)).held
  if h 2 then 3 else if h 1 then 2 else if h 0 then 1 else 0

/-- The THROTTLE message (R413, R460). -/
def throttleMessage (s : State) (z : Nat) : State :=
  sendRoot s 0x0C ([b8 z, b8 (throttleLevel s z)] ++ toBytes 2 (s.zone z).graceMs) (toBytes 8 (s.zone z).changed)

/-- The zone's throttle level has changed (R457, R460): it is not acknowledged; THERM's THROTTLE is live above T0. -/
def throttleChanged (s : State) (z : Nat) : State :=
  let s := s.modZone z (fun x => { x with changed := s.now, acked := false })
  let s := throttleMessage s z
  s.live 0x1A 1 ((List.range 5).any (fun z => decide (0 < throttleLevel s z)))

/-- A grace begins (R461). -/
def startGrace (s : State) (z n : Nat) : State :=
  let t := some (s.now + (s.zone z).graceMs * 3200000)
  s.modZone z (fun x =>
    if n = 0 then { x with grace1 := t, ended1 := false }
    else if n = 1 then { x with grace2 := t, ended2 := false } else { x with grace3 := t, ended3 := false })

/-- A level's grace is discarded and its enforcement lifts (R461). -/
def dropGrace (s : State) (z n : Nat) : State :=
  s.modZone z (fun x =>
    if n = 0 then { x with grace1 := none, ended1 := false }
    else if n = 1 then { x with grace2 := none, ended2 := false } else { x with grace3 := none, ended3 := false })

/-- Grace of a level that runs. -/
def graceOf (x : ZoneState) (n : Nat) : Option Nat := if n = 0 then x.grace1 else if n = 1 then x.grace2 else x.grace3

/-- Heavy loops of a zone (R17). -/
def zoneHeavies (z : Nat) : List Nat := if z = 0 then List.range 32 else rangeFrom (8 * (z - 1)) 8

/-- T3 is enforced in a zone (R217, R258, R461): its sequencers hold at burst end, its heavy loops take their cloche. -/
def enforceT3 (s : State) (z : Zone) : State :=
  if enforcedLevel s z.val = 3 then
    let s := (List.range 64).foldl (fun s q =>
      if z.val = 0 ∨ ((seqBeds s q).map bedZone).contains z.val then latchStop s q 6 true else s) s
    (zoneHeavies z.val).foldl (fun s h => clocheHeavy s h (.t3 z) 6) s
  else s

/-- A grace ends (R461). -/
def endGrace (s : State) (z : Zone) (n : Nat) : State :=
  match graceOf (s.zone z.val) n with
  | none => s
  | some _ =>
    let s := s.modZone z.val (fun x =>
      if n = 0 then { x with grace1 := none, ended1 := true }
      else if n = 1 then { x with grace2 := none, ended2 := true } else { x with grace3 := none, ended3 := true })
    enforceT3 s z

/-- WARN is entered (R457). -/
def enterWarn (s : State) (z : Zone) : State :=
  if levelHeld s (.warn z) then s
  else (((setHeld s (.warn z) true).modZone z.val (fun x => { x with warnSticky := true })).noteSet 0x208A (w16 (2 ^ z.val))).raise 0x1A 0 z.val

/-- A throttle level is entered, and every lower level with it (R456, R457). -/
def enterThrottle (s : State) (z : Zone) (n : Fin 3) : State :=
  let s := enterWarn s z
  let s := ((List.finRange 3).filter (fun k => decide (k ≤ n) && !levelHeld s (.throttle z k))).foldl (fun s k =>
    startGrace (setHeld s (.throttle z k) true) z.val k.val) s
  throttleChanged (s.raise 0x1A 1 z.val (n.val + 1)) z.val

/-- CLOCHE_LEVEL and TH_CLOCHE are live while a level that raises them is held (R514). -/
def clocheLive (s : State) : State :=
  let s := s.live 0x1A 2 (levelHeld s .clocheZ0 || (List.finRange 16).any (fun b => levelHeld s (.clocheGroup b)))
  s.live 0x1A 6 ((List.finRange 16).any (fun n => levelHeld s (.clocheTh n)))

/-- Heavy loops assigned to a thermistor (R467). -/
def assignedLoops (s : State) (n : Nat) : List Nat := (List.range 32).filter (fun h => decide ((s.charge h).source = n))

/-- CAUSE of a shutdown (R474): the level or the stem sensors, the zone, the hottest sensor; and its reading. -/
def shutdownCause (s : State) : Nat × Int :=
  if 2 ≤ (stemBroken s).length then (2 + 256 * 0xFF, (zoneReading s 0).getD 0)
  else
    let z := ((List.range 5).find? (fun z => atOrAbove (zoneReading s z) (f32 (s.zone z).shutdown))).getD 0
    let r := (zoneReading s z).getD 0
    let i := ((zoneSensors z).find? (fun i => !(s.sensor i).broken && decide ((s.sensor i).value = r))).getD 0xFF
    (1 + 16 * z + 256 * i, r)

/-- The lowest unclaimed trip-log slot (R475). -/
def tripNext (s : State) : Nat :=
  match (List.range 256).find? (fun i => !(s.tripWord (16 * i)).getLsbD 0) with | some i => i | none => 256

/-- Shutdown steps 1 and 2 (R471): the latch, the chip cloche, the end of a calibration run (R489), the slot's claim. -/
def enterShutdown (s : State) : State :=
  if s.sup.shutdown then s
  else
    let (cause, temp) := shutdownCause s
    let s := { s with sup := { s.sup with
        shutdown := true, shutCause := cause, shutTime := s.now, shutTemp := temp, exitCount := 0, exitOk := false } }
    let s := (setHeld s .shutdown true).raise 0x1A 3 cause
    let s := clocheChip s .shutdown { block := 0x1A, source := 3 }
    let s := interruptCal s (fun _ => true) 7 2
    let i := tripNext s
    if i = 256 then s.raise 0x1A 12
    else
      let s := s.modTripWord (16 * i) (fun w => w ||| 1)
      { s with sup := { s.sup with tripOpen := some i } }

/-- A level is entered and acts (R457). -/
def enterLevel (s : State) (v : LevelId) : State :=
  match v with
  | .warn z => enterWarn s z
  | .throttle z n => if levelHeld s v then s else enterThrottle s z n
  | .clocheGroup b =>
    if levelHeld s v then s
    else clocheBed ((setHeld s v true).raise 0x1A 2 b.val) b.val (.level v) { block := 0x1A, source := 2 }
  | .clocheZ0 =>
    if levelHeld s v then s
    else clocheChip ((setHeld s v true).raise 0x1A 2 0x10) (.level v) { block := 0x1A, source := 2 }
  | .clocheTh n =>
    if levelHeld s v then s
    else
      let s := clocheBed ((setHeld s v true).raise 0x1A 6 n.val) n.val (.level v) { block := 0x1A, source := 6 }
      (assignedLoops s n.val).foldl (fun s h => clocheHeavy s h (.level v)) s
  | .shutdown => if s.sup.exitOk then s else enterShutdown s

/-- The entry, or the exit, of a level has its samples (R456). -/
def enterReady (s : State) (v : LevelId) : Bool := !levelHeld s v && decide (4 ≤ (s.level (levelKey v)).up)
def exitReady (s : State) (v : LevelId) : Bool :=
  levelHeld s v && decide (v ≠ .shutdown) && decide (64 ≤ (s.level (levelKey v)).down)

/-- A level is left (R457): what it caused is no longer live. A throttle level takes with it the higher ones whose exit is
due in the same sample: one change of the zone's level. -/
def exitLevel (s : State) (v : LevelId) : State :=
  match v with
  | .warn z =>
    let s := setHeld s (.warn z) false
    s.live 0x1A 0 ((List.finRange 5).any (fun z => levelHeld s (.warn z)))
  | .throttle z n =>
    let ks := (List.finRange 3).filter (fun k => decide (k = n) || (decide (n < k) && exitReady s (.throttle z k)))
    let was := throttleLevel s z.val
    let s := ks.foldl (fun s k => dropGrace (setHeld s (.throttle z k) false) z.val k.val) s
    if throttleLevel s z.val = was then s else throttleChanged s z.val
  | .clocheGroup _ | .clocheZ0 | .clocheTh _ => clocheLive (setHeld s v false)
  | .shutdown => s

/-- Zones whose lower levels a CLOCHE or SHUTDOWN level takes with it (R456). -/
def zonesBelow : LevelId → List Zone
  | .clocheGroup b => (List.finRange 5).filter (fun z => decide (z.val = bedZone b.val))
  | .clocheZ0 => [0]
  | .shutdown => List.finRange 5
  | _ => []

/-- The entry, or the exit, is due (R456). A level is entered with every lower level that has its samples. -/
def enterDue (s : State) (v : LevelId) : State :=
  if enterReady s v then
    enterLevel (((zonesBelow v).flatMap zoneLevels).foldl (fun s u => if enterReady s u then enterLevel s u else s) s) v
  else s
def exitDue (s : State) (v : LevelId) : State := if exitReady s v then exitLevel s v else s

/-- SENSOR_BROKEN and TH_BROKEN are live while an input is broken. -/
def brokenLive (s : State) : State :=
  let s := s.live 0x1A 7 ((List.range 48).any (fun i => (s.sensor i).broken))
  s.live 0x1A 8 ((List.range 16).any (fun n => (s.therm n).broken))

/-- Every level that an on-die sensor drives counts afresh toward its exit (R464). -/
def restartExits (s : State) (i : Nat) : State :=
  let vs := (sensorLevels.filter (fun v => match v with
    | .warn z | .throttle z _ => decide (z.val = sensorZone i)
    | .clocheGroup b => (sensorBeds i).contains b.val
    | .clocheZ0 => decide (sensorZone i = 0)
    | _ => false))
  vs.foldl (fun s v => s.modLevel (levelKey v) (fun x => { x with down := 0 })) s

/-- A charge window's source is invalid (R467, R468): the loop leaves its window. -/
def chargeInvalid (s : State) (h : Nat) : State := s.modCharge h (fun x => { x with outCount := 4, inCount := 0 })

/-- A declaration is due (R462, R463). -/
def brokenDue (s : State) (x : TempInput) : State :=
  match x with
  | .sensor i =>
    if 4 ≤ (s.sensor i.val).fails ∧ (s.sensor i.val).broken = false then
      let s := (s.modSensor i.val (fun y => { y with broken := true, suspect := false, window := [], rising := false })).raise 0x1A 7 i.val
      let s := restartExits s i.val
      ((List.finRange 16).filter (fun b => (sensorBeds i.val).contains b.val)).foldl (fun s b =>
        clocheBed (enterLevel s (.clocheGroup b)) b.val (.broken x) { block := 0x1A, source := 7 }) s
    else s
  | .thermistor n =>
    if 4 ≤ (s.therm n.val).fails ∧ (s.therm n.val).broken = false then
      let s := (s.modTherm n.val (fun y => { y with broken := true, suspect := false, window := [], rising := false })).raise 0x1A 8 n.val
      let s := enterLevel s (.clocheTh n)
      let s := clocheBed s n.val (.broken x) { block := 0x1A, source := 8 }
      (assignedLoops s n.val).foldl (fun s h => chargeInvalid (clocheHeavy s h (.broken x)) h) s
    else s

/-- A recovery is due (R462). -/
def recoverDue (s : State) (x : TempInput) : State :=
  match x with
  | .sensor i =>
    if 64 ≤ (s.sensor i.val).passes then
      brokenLive (s.modSensor i.val (fun y => { y with broken := false, suspect := false, passes := 0 }))
    else s
  | .thermistor n =>
    if 64 ≤ (s.therm n.val).passes then
      brokenLive (s.modTherm n.val (fun y => { y with broken := false, suspect := false, passes := 0 }))
    else s

/-- Leaving, or returning to, a charge window is due (R468). -/
def chargeLeaveDue (s : State) (h : Nat) : State :=
  if !(s.charge h).out && decide (4 ≤ (s.charge h).outCount) then s.modCharge h (fun x => { x with out := true }) else s
def chargeReturnDue (s : State) (h : Nat) : State :=
  if (s.charge h).out && decide (64 ≤ (s.charge h).inCount) then s.modCharge h (fun x => { x with out := false }) else s

/-- One reading of a heavy loop's source (R468), none if it is invalid. -/
def chargeReading (s : State) (h : Nat) (t : Option Frac) : State :=
  let s := chargeReturnDue (chargeLeaveDue s h) h
  match t with
  | none => chargeInvalid s h
  | some t =>
    let x := s.charge h
    let lo := f32 x.low
    let hi := f32 x.high
    let w := f32 x.hyst
    if t.lt lo || hi.lt t then s.modCharge h (fun x => { x with outCount := x.outCount + 1, inCount := 0 })
    else if (lo.add w).le t && t.le (hi.sub w) then s.modCharge h (fun x => { x with outCount := 0, inCount := x.inCount + 1 })
    else s.modCharge h (fun x => { x with outCount := 0, inCount := 0 })

/-- A rail reading in mV enters its dwell (R469): magnitudes against magnitudes, for VNEG. -/
def railSample (s : State) (i d : Nat) (mv : Int) : State :=
  let nom : Frac := dec (railNominal i) 3
  let v := (dec mv 3).abs
  let lim := railLimits i
  let uv := (f32 ((s.rail i).uv.getD lim.1)).abs
  let ov := (f32 ((s.rail i).ov.getD lim.2)).abs
  let step := nom.abs.mul (dec 1 2)
  -- UV reads at or below its threshold, OV at or above (R454); DEDUCED 110
  let count := fun (x : Level) (up down : Bool) =>
    { x with up := if up then x.up + 1 else 0, down := if down then x.down + 1 else 0 }
  s.modRailRd (4 * i + d) (fun x => { x with
    mv := mv
    low := count x.low (v.le uv) ((uv.add step).lt v)
    high := count x.high (ov.le v) (v.lt (ov.sub step)) })

/-- RAIL_UV and RAIL_OV are live while a rail is beyond its threshold. -/
def railLive (s : State) : State :=
  let s := s.live 0x1A 9 ((tents s.sup.railRead).any (fun e => e.2.low.held))
  s.live 0x1A 10 ((tents s.sup.railRead).any (fun e => e.2.high.held))

/-- A crossing is due (R469). -/
def railCrossDue (s : State) (i d : Nat) (high : Bool) : State :=
  let x := s.railRd (4 * i + d)
  let l := if high then x.high else x.low
  if !l.held && decide (4 ≤ l.up) then
    (s.modRailRd (4 * i + d) (fun x => if high then { x with high := { x.high with held := true } }
      else { x with low := { x.low with held := true } })).raise 0x1A (if high then 10 else 9) i (if i < 14 then 0 else d)
  else s

/-- A return inside the threshold is due (R469). -/
def railExitDue (s : State) (i d : Nat) (high : Bool) : State :=
  let x := s.railRd (4 * i + d)
  let l := if high then x.high else x.low
  if l.held && decide (64 ≤ l.down) then
    railLive (s.modRailRd (4 * i + d) (fun x => if high then { x with high := { x.high with held := false } }
      else { x with low := { x.low with held := false } }))
  else s

/-- The keep-store window closes or opens (R470). -/
def keepCloseDue (s : State) : State :=
  if s.sup.keepOpen && decide (4 ≤ s.sup.keepOut) then { s with sup := { s.sup with keepOpen := false } } else s
def keepOpenDue (s : State) : State :=
  if !s.sup.keepOpen && decide (64 ≤ s.sup.keepIn) then { s with sup := { s.sup with keepOpen := true } } else s

/-- What earlier samples made due and no row has brought yet: it acts before a new sample. -/
def superviseDue (s : State) : State :=
  let s := (List.finRange 48).foldl (fun s i => recoverDue (brokenDue s (.sensor i)) (.sensor i)) s
  let s := sensorLevels.foldl (fun s v => exitDue (enterDue s v) v) s
  (List.range 14).foldl (fun s i => [false, true].foldl (fun s h => railExitDue (railCrossDue s i 0 h) i 0 h) s) s

/-- A thermistor's monitor has stopped (R453): STALE, and its window is empty. -/
def staleTherm (s : State) (b : Nat) : State :=
  let s := s.modTherm b (fun x => { x with stale := true, window := [], rising := false })
  (assignedLoops s b).foldl chargeInvalid s

end Sys2Proof.Machine
end

