-- ==== Sys2Proof/Machine/Thermal.lean ====
section
/-! DEFINITION. Thermal supervision, throttling and the trip log (spec/15), the bed monitor's round (spec/05 R134 to
R136, spec/10 R322 to R324), and drift compensation (spec/06 R166, R167). -/

namespace Sys2Proof.Machine

/-- Chip time counts: the PLL is locked or in holdover (R29). -/
def clocksRun (s : State) : Bool := s.clk.pllLocked || s.clk.holdover

/-- Chip time moves on to the next multiple of `grid` plus `off` that lies after it, while it counts. -/
def reachGrid (s : State) (grid off : Nat) : State :=
  if clocksRun s then
    let t := s.now / grid * grid + off
    s.reach (if s.now < t then t else t + grid)
  else s

/-- What an on-die sensor converted, if it converted. -/
def rawOf (t : List SensorRead) (i : Nat) : Option Int := match t[i]? with | some (.reading c) => some c | _ => none

/-- A reading lies in −60 °C to +200 °C (R462). -/
def inLimits (c : Int) : Bool := decide (-960 ≤ c) && decide (c ≤ 3200)

/-- What sensor `i` gives the checks of another (R462): its conversion, or its last valid reading where that fails; none
while it is broken (DEDUCED 185). -/
def peerReading (s : State) (t : List SensorRead) (i : Nat) : Option Int :=
  if (s.sensor i).broken then none
  else match rawOf t i with
    | some c => if inLimits c then some c else if (s.sensor i).sampled then some (s.sensor i).value else none
    | none => if (s.sensor i).sampled then some (s.sensor i).value else none

/-- The sample of sensor `i` fails a check of R462. -/
def sensorFails (s : State) (t : List SensorRead) (i : Nat) : Bool :=
  match rawOf t i with
  | none => true
  | some c =>
    !inLimits c ||
    (if i < 8 then
      match peerReading s t ((i + 7) % 8), peerReading s t ((i + 1) % 8) with
      | some a, some b => decide (240 < (c - a).natAbs) && decide (240 < (c - b).natAbs) && decide ((a - b).natAbs ≤ 240)
      | _, _ => false
    else
      decide ((i - 8) % 10 < 8) &&
        (match peerReading s t (if (i - 8) % 2 = 0 then i + 1 else i - 1) with
         | some p => decide (c + 320 < p)
         | none => false))

/-- The rate of rise of a full window of on-die readings, newest first (R459). -/
def dieRate (l : List Int) : Frac :=
  ⟨((List.range 64).map (fun (i : Nat) => (2 * (i : Int) - 63) * l.reverse.getD i 0)).sum * 1000000, 2 * 16 * 21840 * 16⟩

/-- One sample of an on-die sensor (R459, R462). -/
def sampleSensor (s : State) (t : List SensorRead) (i : Nat) : State :=
  if sensorFails s t i then
    s.modSensor i (fun x => { x with
      fails := x.fails + 1, passes := 0, suspect := !x.broken, window := [], rising := false })
  else
    let c := (rawOf t i).getD 0
    let was := (s.sensor i).rising
    let lim := f32 (s.zone (sensorZone i)).ror
    let s := s.modSensor i (fun x =>
      let out := x.suspect || x.broken
      let w := if out then [] else (c :: x.window).take 64
      { x with
        sampled := true
        value := c
        fails := 0
        passes := if out then x.passes + 1 else 0
        window := w
        rising := decide (w.length = 64) && lim.le (dieRate w) })
    if (s.sensor i).rising && !was then s.raise 0x1A 4 i else s

/-- Mean of the two driver-side sensors of a bed, in codes of 1/32 °C (R166). -/
def driverSum (s : State) (b : Nat) : Int :=
  (s.sensor (8 + 10 * (b / 4) + 2 * (b % 4))).value + (s.sensor (9 + 10 * (b / 4) + 2 * (b % 4))).value

/-- Drift compensation of a bed (R166, R167): at most one fine step per update; it holds while a driver sensor is broken. -/
def driftStep (s : State) (b : Nat) : State :=
  let i := 8 + 10 * (b / 4) + 2 * (b % 4)
  if (s.sensor i).broken ∨ (s.sensor (i + 1)).broken ∨ (s.sensor i).sampled = false ∨ (s.sensor (i + 1)).sampled = false then s
  else
    let dt := (⟨driverSum s b, 32⟩ : Frac).sub (f32 (tCal s b))
    let dp : Int := ((s.pmon (1 + b / 4)).toNat : Int) - pmCal s b
    let kt : Frac := ⟨Config.driftT.1, Config.driftT.2 + 1⟩
    let kp : Frac := ⟨Config.driftP.1, Config.driftP.2 + 1⟩
    let target := ((kt.mul dt).add (kp.mul (Frac.ofInt dp))).round
    let s := s.modDrift b (fun m => if m < target then m + 1 else if target < m then m - 1 else m)
    let far := (Frac.ofInt 25).lt dt.abs
    (s.modStale b (fun _ => far)).condition b 8 far

/-- Window counts of the keep store (R470). -/
def keepSample (s : State) : State :=
  let l := (List.range 8).filterMap (fun i =>
    if (s.sensor i).sampled && !(s.sensor i).broken then some (s.sensor i).value else none)
  let h := f32 (s.zone 0).hyst
  let out := l.any (fun c => decide (c < 0) || decide (1680 < c))
  let ins := !l.isEmpty && l.all (fun c => h.le (degC c) && (degC c).le ((Frac.ofInt 105).sub h))
  { s with sup := { s.sup with
      keepOut := if out then s.sup.keepOut + 1 else 0
      keepIn := if ins then s.sup.keepIn + 1 else 0 } }

/-- Samples toward the shutdown exit condition (R473). -/
def exitSample (s : State) : State :=
  let ok := decide ((stemBroken s).length < 2) && (List.range 5).all (fun z =>
    below (zoneReading s z) ((f32 (s.zone z).shutdown).sub (Frac.ofInt 25)))
  { s with sup := { s.sup with exitCount := if ok then s.sup.exitCount + 1 else 0, exitOk := s.sup.exitOk && ok } }

/-- Supervision samples from boot step 3 on (R453): not while the chip is off, in DEEP, or held in a reset. -/
def samplingOn (s : State) : Bool :=
  decide (s.clk.phase = .seeded) || decide (s.clk.phase = .started) || decide (s.clk.phase = .ready) ||
    decide (s.clk.phase = .recovery)

/-- SENSOR_SAMPLE (R452): sensors, rails and process monitors, at a multiple of 16 µs of chip time. -/
def execSensorSample (t : List SensorRead) (rails : List Int) (pm : List Word) (s : State) : Host.Outcome State Fault Refusal :=
  .next (if !samplingOn s then s else
    let s := reachGrid s 51200 0
    let s := keepOpenDue (keepCloseDue (superviseDue s))
    let s := (List.range 48).foldl (fun s i => sampleSensor s t i) s
    let s := s.live 0x1A 4 ((List.range 48).any (fun i => (s.sensor i).rising))
    let s := (List.range 5).foldl (fun s i => s.modPmon i (fun w => pm.getD i w)) s
    let s := (List.range 14).foldl (fun s i => match rails[i]? with | some mv => railSample s i 0 mv | none => s) s
    let s := sensorLevels.foldl countLevel s
    let s := (List.range 16).foldl driftStep s
    exitSample (keepSample s))

/-- THERMAL_LEVEL_ENTER (R456). -/
def execThermalLevelEnter (v : LevelId) (s : State) : Host.Outcome State Fault Refusal := .next (enterDue s v)

/-- THERMAL_LEVEL_EXIT (R456). -/
def execThermalLevelExit (v : LevelId) (s : State) : Host.Outcome State Fault Refusal := .next (exitDue s v)

/-- THROTTLE_GRACE_END (R461): the grace ends at its chip time. -/
def execThrottleGraceEnd (z : Zone) (n : Fin 3) (s : State) : Host.Outcome State Fault Refusal :=
  .next (match graceOf (s.zone z.val) n.val with
    | some t => endGrace (s.reach t) z n.val
    | none => s)

/-- THROTTLE_REPEAT (R460): the message again, until the level is acknowledged. -/
def execThrottleRepeat (z : Zone) (s : State) : Host.Outcome State Fault Refusal :=
  .next (if (s.zone z.val).acked then s else throttleMessage s z.val)

/-- SENSOR_BROKEN (R462). -/
def execSensorBroken (x : TempInput) (s : State) : Host.Outcome State Fault Refusal := .next (brokenDue s x)

/-- SENSOR_RECOVER (R462). -/
def execSensorRecover (x : TempInput) (s : State) : Host.Outcome State Fault Refusal := .next (recoverDue s x)

/-- CHARGE_WINDOW_LEAVE (R468). -/
def execChargeWindowLeave (h : Heavy) (s : State) : Host.Outcome State Fault Refusal := .next (chargeLeaveDue s h.val)

/-- CHARGE_WINDOW_RETURN (R468). -/
def execChargeWindowReturn (h : Heavy) (s : State) : Host.Outcome State Fault Refusal := .next (chargeReturnDue s h.val)

/-- RAIL_CROSSING (R469). -/
def execRailCrossing (rail : Fin 16) (die : Fin 4) (high : Bool) (s : State) : Host.Outcome State Fault Refusal :=
  .next (railCrossDue s rail.val die.val high)

/-- RAIL_THRESHOLD_EXIT (R469). -/
def execRailThresholdExit (rail : Fin 16) (die : Fin 4) (high : Bool) (s : State) : Host.Outcome State Fault Refusal :=
  .next (railExitDue s rail.val die.val high)

/-- KEEP_WINDOW_CLOSE (R470). -/
def execKeepWindowClose (s : State) : Host.Outcome State Fault Refusal := .next (keepCloseDue s)

/-- KEEP_WINDOW_OPEN (R470). -/
def execKeepWindowOpen (s : State) : Host.Outcome State Fault Refusal := .next (keepOpenDue s)

/-- SHUTDOWN_POWER_DOWN (R471 steps 3 and 4): 100 µs into the shutdown. -/
def execShutdownPowerDown (s : State) : Host.Outcome State Fault Refusal :=
  .next (if s.sup.shutdown && !s.sup.analogueOff then
      let s := s.reach (s.sup.shutTime + 320000)
      let s := (List.range 16).foldl disableStage s
      let s := { s with sup := { s.sup with analogueOff := true, shedSlow := true } }
      (List.range 16).foldl staleTherm s
    else s)

/-- Words 0 to 14 of a trip-log slot (R474). -/
def tripWords (s : State) : List Word :=
  let lv := ((List.range 5).map (fun z => throttleLevel s z * 4 ^ z)).sum
  let en := ((List.range 5).map (fun z => if 0 < enforcedLevel s z then 2 ^ z else 0)).sum
  [1] ++ toWords 4 s.sup.shutTime ++ [w16 s.sup.shutCause, wInt s.sup.shutTemp] ++
    (List.range 5).map (fun z => match zoneReading s z with | some c => wInt c | none => 0x8000) ++
    [w16 (lv + 1024 * en), w16 (maskOf (stemBroken s)), w16 (s.link.addr % 128 + flag 7 s.link.addrValid)]

/-- TRIP_LOG_WRITTEN (R471 step 5): the slot's words and its check word. -/
def execTripLogWritten (s : State) : Host.Outcome State Fault Refusal :=
  .next (match s.sup.tripOpen with
    | none => s
    | some i =>
      let w := tripWords s
      let w := w ++ [w16 (crc16 (wordsMsb w))]
      let s := (List.range 16).foldl (fun s k => s.modTripWord (16 * i + k) (fun x => x ||| w.getD k 0)) s
      { s with sup := { s.sup with tripOpen := none } })

/-- SHUTDOWN_EXIT_CONDITION (R473). -/
def execShutdownExitCondition (s : State) : Host.Outcome State Fault Refusal :=
  .next (if 62500 ≤ s.sup.exitCount then { s with sup := { s.sup with exitOk := true } } else s)

/-! The bed monitor (R134 to R136, R322 to R324). -/

/-- Key of the DAC read in a slot (R134): level and bed DACs, and 4096 + loop for a force DAC. -/
def slotDac (b slot : Nat) : Nat :=
  if slot < 128 then 128 * b + slot
  else if slot < 160 then 4096 + 32 * b + (slot - 128)
  else if slot < 163 then 2048 + 3 * b + (slot - 160)
  else 4096 + 512 + 2 * b + (slot - 163)

/-- Bed of a read-back key. -/
def slotBed (k : Nat) : Nat := if k < 4096 then dacBed k else loopBed (k - 4096)

/-- Voltage of a loop's force DAC or drive output for its demand under the calibration in use (R135, R240, R495). A demand is
a fraction of the path's largest full scale, in output units that no range changes (R254, R278; DEDUCED 184). -/
def forceVolts (s : State) (l : Nat) : Frac :=
  let x := s.loop l
  let fs := if x.stage ≠ 0 then dec 25 1 else fsVolt s l 1
  let c := dacCal (loopBed l) (if l < 512 then 128 + l % 32 else 163 + l % 2)
  ((((Frac.ofInt x.demand).sub (Frac.ofInt (calOffset s c))).div (calGain s c)).mul fs).div (Frac.ofInt 32768)

/-- The voltage expected in a slot, and the limit of the comparison in mV (R135, R261). -/
def slotExpects (s : State) (b slot : Nat) : Frac × Int :=
  let k := slotDac b slot
  if k < 4096 then (dacVolts s k (dacOutput s k), 6)
  else (forceVolts s (k - 4096), if k < 4608 then 10 else if (s.loop (k - 4096)).stage ≠ 0 then 5 else 20)

/-- The comparison of a slot is skipped (R135, R261). -/
def slotSkipped (s : State) (b slot : Nat) : Bool :=
  let k := slotDac b slot
  decide (s.now < (s.dacst k).changed + 64000 ∧ (s.dacst k).changed ≠ 0) || calHolds s b || calHoldsSlot s b slot ||
  (if slot < 160 then
    let p := if slot < 128 then 32 * b + slot / 4 else 32 * b + (slot - 128)
    decide ((s.pinst p).mode = 4) && decide (padConn s p ≠ 2) && decide (padConn s p ≠ 3)
   else false) ||
  (if 4096 ≤ k then
    let x := s.loop (k - 4096)
    !(decide (x.state = .stopped) || decide (x.state = .frozen) || (decide (x.state = .cloche) && decide (x.clocheMode = 0)))
   else false)

/-- LIVE of DAC_READBACK: a DAC of the bed is suspect (R514). -/
def suspectLive (s : State) (b : Nat) : State :=
  s.live b 3 ((tents s.pins.dac).any (fun e => decide (slotBed e.1 = b) && decide (0 < e.2.misses)))

/-- DAC_READBACK is due for a slot (R135). -/
def readbackDue (s : State) (b slot : Nat) : State :=
  let k := slotDac b slot
  let d := s.dacst k
  if decide (2 ≤ d.misses) && !d.faulty then
    let pin := if slot < 128 then 32 * b + slot / 4 else if slot < 160 then 32 * b + (slot - 128) else 0xFFFF
    (s.modDacst k (fun d => { d with faulty := true })).raise b 3 pin slot
  else s

/-- A slot's reading is compared (R135). -/
def compareSlot (s : State) (b slot : Nat) (v : Frac) : State :=
  let s := readbackDue s b slot
  if slotSkipped s b slot then s
  else
    let (e, mv) := slotExpects s b slot
    let bad := (dec mv 3).lt (v.sub e).abs
    suspectLive (s.modDacst (slotDac b slot) (fun d => { d with
      misses := if bad then d.misses + 1 else 0, faulty := bad && d.faulty })) b

/-- The temperature of a thermistor's code (R323, R324) in binary32, none if it is open, short or out of range. -/
def thermTemp (x : Therm) (c : Int) : Option (BitVec 32) :=
  if c ≤ 164 ∨ 32440 ≤ c then none
  else
    let f := fun (n : Int) => toF32 (Frac.ofInt n)
    let rt := f32div (f32mul (f (if x.bias then 100000 else 10000)) (f c)) (f (32768 - c))
    let l := f32ln rt
    let l3 := f32mul (f32mul l l) l
    let inv := f32add (f32add x.a (f32mul x.b l)) (f32mul x.c l3)
    let t := f32sub (f32div (f 1) inv) (toF32 (dec 27315 2))
    if (f32 inv).num = 0 then none
    else if (Frac.ofInt (-55)).le (f32 t) && (f32 t).le (Frac.ofInt 200) then some t else none

/-- The rate of rise of a full window of thermistor readings, newest first (R459). -/
def thermRate (l : List (BitVec 32)) : Frac :=
  let sum := (List.range 12).foldl (fun (a : Frac) (i : Nat) =>
    a.add ((Frac.ofInt (2 * (i : Int) - 11)).mul (f32 (l.reverse.getD i 0)))) (Frac.ofInt 0)
  (sum.mul (Frac.ofInt 1000000)).div (Frac.ofInt (2 * 143 * 85))

/-- One reading of an enabled thermistor (R452, R459, R462, R466, R468). -/
def sampleTherm (s : State) (n : Bed) (c : Int) : State :=
  let s := recoverDue (brokenDue s (.thermistor n)) (.thermistor n)
  let s := exitDue (enterDue s (.clocheTh n)) (.clocheTh n)
  let x := s.therm n.val
  if !x.enable then s.modTherm n.val (fun x => { x with stale := false })
  else
    let s := match thermTemp x c with
      | none => s.modTherm n.val (fun x => { x with
          fails := x.fails + 1, passes := 0, suspect := !x.broken, window := [], rising := false, stale := false })
      | some t =>
        let s := s.modTherm n.val (fun x =>
          let out := x.suspect || x.broken
          let w := if out then [] else (t :: x.window).take 12
          { x with
            sampled := true
            value := t
            stale := false
            fails := 0
            passes := if out then x.passes + 1 else 0
            window := w
            rising := decide (w.length = 12) && (f32 x.ror).le (thermRate w) })
        if (s.therm n.val).rising && !x.rising then
          (assignedLoops s n.val).foldl (fun s h => clocheHeavy s h (.rate (.thermistor n))) (s.raise 0x1A 5 n.val)
        else s
    let s := s.live 0x1A 5 ((List.range 16).any (fun n => (s.therm n).rising))
    let s := countLevel s (.clocheTh n)
    let y := s.therm n.val
    let r := if y.broken || !y.sampled then none else some (f32 y.value)
    (assignedLoops s n.val).foldl (fun s h => chargeReading s h r) s

/-- The MON pads of a bed in pin order (R134). -/
def monPad (s : State) (b i : Nat) : Option Nat := ((rangeFrom (32 * b) 32).filter (fun p => decide (padConn s p = 6)))[i]?

/-- A slot's reading reaches the bed's averager (R325). -/
def feedMonitor (s : State) (b slot : Nat) (code : Int) (ovr : Bool) : State :=
  let key := 2048 + b
  if (s.avg key).run.any (fun r => decide (r.slot = some slot)) then
    let absent := decide (168 ≤ slot) && (monPad s b (slot - 168)).isNone
    feedMeas s key { time := s.now, v := if absent then 0 else code, i := 0, vOvr := ovr && !absent, iOvr := false
                     irange := 0, vrange := 0, settling := false, held := absent || calHoldsSlot s b slot
                     unref := s.clk.holdover }
  else s

/-- After a SHUTDOWN_CLEAR the outputs connect once every bed has had a full read-back round (R473). -/
def roundDone (s : State) : State :=
  if s.sup.reconnect && (List.range 16).all (fun b => decide (1 ≤ (s.mon b).rounds)) then
    { s with sup := { s.sup with reconnect := false } }
  else s

/-- MONITOR_SLOT (R134, R135, R320, R322): the raw conversion of one slot of the bed's round; it pauses in IDLE, STANDBY and shutdown (R136, R453). -/
def execMonitorSlot (b : Bed) (raw : BitVec 16) (s : State) : Host.Outcome State Fault Refusal :=
  .next (if decide (s.bedPow b.val = .active) && !s.sup.analogueOff then
      let slot := (s.mon b.val).slot
      let s := reachGrid s 272000 (1600 * slot)
      let (code, ovr) := correctCode s (monitorCal b.val) false raw
      let s := feedMonitor s b.val slot code ovr
      let s :=
        if slot < 165 then
          compareSlot s b.val slot ⟨code * (if slot < 163 then 10 else 25), 32768⟩
        else if slot < 167 then
          let i := if slot = 165 then 14 else 15
          let s := [false, true].foldl (fun s h => railExitDue (railCrossDue s i (b.val / 4) h) i (b.val / 4) h) s
          railSample s i (b.val / 4) (roundAway (code * 5000) 32768)
        else if slot = 167 then sampleTherm s b code
        else s
      roundDone (s.modMon b.val (fun m =>
        if slot = 169 then { m with slot := 0, rounds := m.rounds + 1 } else { m with slot := slot + 1 }))
    else s)

/-- DAC_READBACK (R135): the DAC of the slot has been suspect in two consecutive rounds. -/
def execDacReadback (b : Bed) (slot : Fin 165) (s : State) : Host.Outcome State Fault Refusal :=
  .next (readbackDue s b.val slot.val)

/-! Commands (R477 to R480). -/

/-- A binary32 value in a parameter lies between two fractions. -/
def within (p : BitVec 32) (lo hi : Frac) : Bool := f32Finite p && lo.le (f32 p) && (f32 p).le hi

/-- WARN, THROTTLE, CLOCHE, SHUTDOWN, HYST, STEP, GRACE_MS and DIE_ROR are legal (R478): a reason. -/
def zoneReason (w t c d h st : BitVec 32) (grace : Nat) (ror : BitVec 32) : Option Nat :=
  let top := (f32 t).add ((f32 st).mul (Frac.ofInt 2))
  if [w, t, c, d].all f32Finite && f32Finite st && (!(f32 w).le (f32 t) || !top.lt (f32 c) || !(f32 c).lt (f32 d)) then some 0x8001
  else if [w, t, c, d].all f32Finite && (f32 d).le (Frac.ofInt 165) && within h (Frac.ofInt 1) (Frac.ofInt 20) &&
      within st (Frac.ofInt 1) (Frac.ofInt 10) && decide (10 ≤ grace) && decide (grace ≤ 2000) &&
      within ror (Frac.ofInt 1) (Frac.ofInt 1000) then none
  else some 0x8002

/-- A thermistor's settings are legal (R478). -/
def thermOk (a b c cl ror : BitVec 32) : Bool :=
  f32Finite a && f32Finite b && f32Finite c && within cl (Frac.ofInt (-40)) (Frac.ofInt 150) &&
    within ror (dec 1 1) (Frac.ofInt 100)

/-- A rail's thresholds are legal (R478): a reason. -/
def railReason (i : Nat) (uv ov : BitVec 32) : Option Nat :=
  let n : Frac := dec (railNominal i) 3
  let q := n.abs.mul (dec 25 2)
  let ok := fun (p : BitVec 32) => f32Finite p && ((f32 p).sub n).abs.le q
  let lt := if railNominal i < 0 then (f32 ov).lt (f32 uv) else (f32 uv).lt (f32 ov)
  if f32Finite uv && f32Finite ov && !lt then some 0x8001 else if ok uv && ok ov then none else some 0x8002

/-- Words of a binary32 pattern. -/
def fWords (p : BitVec 32) : List Word := toWords 2 p.toNat

/-- THERM_CONFIG LEVELS (R478). -/
def execThermConfigLevels (s : State) : Host.Outcome State Fault Refusal :=
  .next (onCommand s 0x0A00 (fun p => decide (wAt p 0 = 0)) (fun c =>
    checked s
      [needBits c 1 5,
       (zoneReason (parF c 2) (parF c 4) (parF c 6) (parF c 8) (parF c 10) (parF c 12) (par c 14) (parF c 15)).map (fun r => (0x12, r))]
      (fun s => postOk ((maskList 5 (par c 1)).foldl (fun s z => s.modZone z (fun x => { x with
        warn := parF c 2
        throttle := parF c 4
        cloche := parF c 6
        shutdown := parF c 8
        hyst := parF c 10
        step := parF c 12
        graceMs := par c 14
        ror := parF c 15 })) s))))

/-- THERM_CONFIG THERMISTOR (R478). A disabled input yields no reading and is never broken (R465); its CLOCHE level is left
(DESIGN CHOICE 186). -/
def execThermConfigThermistor (s : State) : Host.Outcome State Fault Refusal :=
  .next (onCommand s 0x0A00 (fun p => decide (wAt p 0 = 1)) (fun c =>
    let n := par c 1
    checked s
      [needParam (decide (n < 16)) 1, needBits c 2 2,
       if thermOk (parF c 3) (parF c 5) (parF c 7) (parF c 9) (parF c 11) then none else some (0x12, 0x8002)]
      (fun s =>
        let on := bit (par c 2) 0
        let s := s.modTherm n (fun x =>
          let x := if on then x else { x with sampled := false, suspect := false, broken := false, fails := 0, passes := 0,
                                              window := [], rising := false }
          { x with
            enable := on
            bias := bit (par c 2) 1
            a := parF c 3
            b := parF c 5
            c := parF c 7
            cloche := parF c 9
            ror := parF c 11 })
        let s := if on then s
          else
            let s := brokenLive ((assignedLoops s n).foldl chargeInvalid s)
            clocheLive (s.modLevel (96 + n) (fun _ => {}))
        postOk (s.live 0x1A 5 ((List.range 16).any (fun n => (s.therm n).rising))))))

/-- THERM_CONFIG RAIL (R478). -/
def execThermConfigRail (s : State) : Host.Outcome State Fault Refusal :=
  .next (onCommand s 0x0A00 (fun p => decide (wAt p 0 = 2)) (fun c =>
    let i := par c 1
    checked s
      [needParam (decide (i < 16)) 1, (railReason i (parF c 2) (parF c 4)).map (fun r => (0x12, r))]
      (fun s => postOk (s.modRail i (fun _ =>
        let d := railLimits i
        { uv := if parF c 2 = d.1 then none else some (parF c 2), ov := if parF c 4 = d.2 then none else some (parF c 4) })))))

/-- THERM_CONFIG READ (R478): the words of the named action in its layout. -/
def execThermConfigRead (s : State) : Host.Outcome State Fault Refusal :=
  .next (onCommand s 0x0A00 (fun p => decide (wAt p 0 = 3)) (fun c =>
    let w := par c 1
    let i := par c 2
    checked s
      [needParam (decide (w ≤ 2)) 1, needParam (decide (i < if w = 0 then 5 else 16)) 2]
      (fun s =>
        postOk s (
          if w = 0 then
            let x := s.zone i
            [0, w16 (2 ^ i)] ++ fWords x.warn ++ fWords x.throttle ++ fWords x.cloche ++ fWords x.shutdown ++ fWords x.hyst ++
              fWords x.step ++ [w16 x.graceMs] ++ fWords x.ror
          else if w = 1 then
            let x := s.therm i
            [1, w16 i, w16 (flag 0 x.enable + flag 1 x.bias)] ++ fWords x.a ++ fWords x.b ++ fWords x.c ++ fWords x.cloche ++ fWords x.ror
          else
            let x := s.rail i
            [2, w16 i] ++ fWords (x.uv.getD (railLimits i).1) ++ fWords (x.ov.getD (railLimits i).2)))))

/-- Loops of a CHARGE_WINDOW (R479): heavy loops only. -/
def chargeParams (c : Current) : List (Option Bad) :=
  let f := par c 0
  let n := par c 1
  [needParam (decide (512 ≤ f) && decide (1 ≤ n) && decide (f + n ≤ 544)) 1]

/-- CHARGE_OUT of a heavy loop (R476). -/
def chargeOut (s : State) (h : Nat) : Bool := chargeOutside s (512 + h)

/-- CHARGE_WINDOW (R467, R468, R479). A new source starts its counts afresh. -/
def execChargeWindow (s : State) : Host.Outcome State Fault Refusal :=
  .next (onCommand s 0x0A01 (fun p => !bit (wAt p 9) 0) (fun c =>
    let hs := rangeFrom (par c 0 - 512) (par c 1)
    let src := par c 2
    checked s
      (chargeParams c ++
       [needParam (decide (src < 16) || decide (src = 0xFE) || decide (src = 0xFF)) 2,
        needParam (f32Finite (parF c 3)) 3, needParam (f32Finite (parF c 5)) 5,
        needParam (within (parF c 7) (dec 1 1) (Frac.ofInt 10)) 7, needBits c 9 1,
        if ((f32 (parF c 3)).add ((f32 (parF c 7)).mul (Frac.ofInt 2))).lt (f32 (parF c 5)) then none else some (0x12, 0x8001),
        if src = 0xFE then firstOf hs (fun h => needState (
            decide ((s.loop (512 + h)).stage ≠ 0) && (s.stage (s.loop (512 + h)).stageId).attached &&
            decide (4 ≤ wAt (s.stage (s.loop (512 + h)).stageId).ident 12)) 24)
        else none])
      (fun s => postOk (hs.foldl (fun s h =>
        let s := s.modCharge h (fun x =>
          let moved := decide (x.source ≠ src)
          { x with
            source := src
            low := parF c 3
            high := parF c 5
            hyst := parF c 7
            outCount := if moved then 0 else x.outCount
            inCount := if moved then 0 else x.inCount })
        if src ≠ 0xFF ∧ chargeSourceBad s (512 + h) then chargeInvalid s h else s) s))))

/-- CHARGE_WINDOW READ (R479). -/
def execChargeWindowRead (s : State) : Host.Outcome State Fault Refusal :=
  .next (onCommand s 0x0A01 (fun p => bit (wAt p 9) 0) (fun c =>
    let h := par c 0 - 512
    checked s (chargeParams c ++ [needParam (decide (par c 1 = 1)) 1, needBits c 9 1])
      (fun s =>
        let x := s.charge h
        postOk s ([w16 x.source] ++ fWords x.low ++ fWords x.high ++ fWords x.hyst ++ [w16 (b2n (chargeOut s h))]))))

/-- ZONE_LEVELS and ZONE_ENFORCED (R476). -/
def zoneLevelsWord (s : State) : Word :=
  w16 (((List.range 5).map (fun z => throttleLevel s z * 4 ^ z)).sum +
       ((List.range 5).map (fun z => if 0 < enforcedLevel s z then 2 ^ (10 + z) else 0)).sum)
def zoneEnforcedWord (s : State) : Word := w16 ((List.range 5).map (fun z => enforcedLevel s z * 4 ^ z)).sum

/-- THROTTLE_ACK (R480). -/
def execThrottleAck (s : State) : Host.Outcome State Fault Refusal :=
  .next (onCommand s 0x0A02 (fun _ => true) (fun c =>
    checked s [needBits c 0 5, needBits c 1 1]
      (fun s =>
        let zs := (List.finRange 5).filter (fun z => bit (par c 0) z.val)
        let s := zs.foldl (fun s z =>
          let s := s.modZone z.val (fun x => { x with acked := true })
          if bit (par c 1) 0 then [0, 1, 2].foldl (fun s n => endGrace s z n) s else s) s
        postOk s [zoneLevelsWord s, zoneEnforcedWord s])))

end Sys2Proof.Machine
end

