-- ==== Sys2Proof/Machine/KeepOps.lean ====
section
/-! DEFINITION. The keep store (spec/16): calibration slots and their choice (R495, R497), the seed copies, their choice
and what they load (R499, R34), the staging image (R500), and the wear of sectors (R493). -/

namespace Sys2Proof.Machine

/-- `n` bytes of the keep store from address `a`, and their number. -/
def keepBytes (s : State) (a n : Nat) : List Byte := (List.range n).map (fun i => s.keepByte (a + i))
def keepNum (s : State) (a n : Nat) : Nat := ofBytes (keepBytes s a n)

/-- The ARCH identity register (R54). -/
def archId : Nat := 1

/-- Base of a calibration slot, B if `b` (R492). -/
def slotBase (b : Bool) : Nat := if b then 0x0F0000 else 0x070000
def slotGen (s : State) (b : Bool) : Nat := keepNum s (slotBase b + 8) 4

/-- valid(s) of R497. -/
def slotValid (s : State) (b : Bool) : Bool :=
  let o := slotBase b
  decide (keepNum s o 4 = 0x4B524341) && decide (keepNum s (o + 4) 2 = 1) && decide (keepNum s (o + 6) 2 = archId) &&
  decide (keepNum s (o + 16) 8 = s.bus.uniqueId.toNat) &&
  decide (keepNum s (o + 60) 4 = crc32c (keepBytes s o 60)) &&
  decide (keepNum s (o + 0x7FFF0) 4 = 0xCA1C0417) && decide (keepNum s (o + 0x7FFF4) 4 = slotGen s b) &&
  decide (keepNum s (o + 0x7FFF8) 4 = keepNum s (o + 60) 4) &&
  decide (keepNum s (o + 28) 4 = crc32c (keepBytes s (o + 0x1000) (keepNum s (o + 12) 4)))

/-- The newest of two candidates, A on a tie: false is A. -/
def newestOf (a b : Bool) (ga gb : Nat) : Option Bool :=
  match a, b with
  | true, true => some (decide (ga < gb))
  | true, false => some false
  | false, true => some true
  | false, false => none

/-- The newest valid slot (R497). -/
def newestSlot (s : State) : Option Bool := newestOf (slotValid s false) (slotValid s true) (slotGen s false) (slotGen s true)

/-- The image of a slot, or the factory image, is in use (R497, R505): 1 slot A, 2 slot B, 3 factory. -/
def useImage (s : State) (src : Nat) : State :=
  if src = 3 then { s with cal := { s.cal with body := [], source := 3, sourceGen := 0, modified := false } }
  else
    let b := decide (src = 2)
    let l := keepBytes s (slotBase b + 0x1000) (min calBodyLen (keepNum s (slotBase b + 12) 4))
    { s with cal := { s.cal with body := tput calDefault [] 0 l, source := src, sourceGen := slotGen s b, modified := false } }

/-- The choice of R497, with its faults; slots are named as R505 does, 1 and 2. -/
def selectImage (s : State) : State :=
  let va := slotValid s false
  let vb := slotValid s true
  let s := match newestSlot s with
    | some b => useImage s (if b then 2 else 1)
    | none => (useImage s 3).raise 0x1B 1
  let s := if va then s else s.raise 0x1B 2 1
  if vb then s else s.raise 0x1B 2 2

/-- Base of a seed copy, B if `b` (R492). -/
def seedBase (b : Bool) : Nat := if b then 0x028000 else 0x020000
def seedGen (s : State) (b : Bool) : Nat := keepNum s (seedBase b + 8) 4

/-- A seed copy is valid (R499). -/
def seedValid (s : State) (b : Bool) : Bool :=
  let o := seedBase b
  decide (keepNum s o 4 = 0x4B525344) && decide (keepNum s (o + 4) 2 = 1) && decide (keepNum s (o + 6) 2 = archId) &&
  decide (keepNum s (o + 12) 4 = 24032) && decide (keepNum s (o + 16) 8 = s.bus.uniqueId.toNat) &&
  (keepBytes s (o + 24) 40).all (fun x => decide (x = 0)) &&
  decide (keepNum s (o + 0x7FF0) 4 = 0x5EED0417) && decide (keepNum s (o + 0x7FF4) 4 = seedGen s b) &&
  decide (keepNum s (o + 0x5DE0) 4 = crc32c (keepBytes s o 0x5DE0))

/-- The newest valid seed copy. -/
def newestSeed (s : State) : Option Bool := newestOf (seedValid s false) (seedValid s true) (seedGen s false) (seedGen s true)

/-- A number of a seed image whose bytes `g` gives. -/
def seedNum (g : Nat → Byte) (a n : Nat) : Nat := ofBytes ((List.range n).map (fun i => g (a + i)))
def seedF (g : Nat → Byte) (a : Nat) : BitVec 32 := BitVec.ofNat 32 (seedNum g a 4)

/-- Drive states of the seed record: 0 DZ, 1 D0, 2 D1, 3 DT (R499). -/
def seedDrive (n : Nat) : Drive := if n = 0 then .off else if n = 1 then .low else if n = 2 then .high else .vtt

/-- STATE of a pin's entry. -/
def seedState (g : Nat → Byte) (p : Nat) : Nat := seedNum g (0x40 + 20 * p + 16) 2

/-- The class K settings of a seed image (R32 step 3, R48, R499), over a state whose class K is at its defaults. A pin whose
bit of the connect mask is 0 is NONE with its driver off (R138). -/
def loadPins (g : Nat → Byte) (s : State) : State :=
  let s := (List.range 2048).foldl (fun s k =>
    let o := 0x40 + 20 * (k / 4) + 2 * (k % 4)
    s.modDacst k (fun d => { d with work := seedNum g o 2, cloche := seedNum g (o + 8) 2, changed := s.now })) s
  let s := (List.range 48).foldl (fun s k =>
    let o := 0x2840 + 16 * (k / 3) + 2 * (k % 3)
    s.modDacst (2048 + k) (fun d => { d with work := seedNum g o 2, cloche := seedNum g (o + 6) 2, changed := s.now })) s
  (List.range 512).foldl (fun s p =>
    let w := seedState g p
    let s := s.modPinst p (fun x => { x with
      held := seedDrive (bits w 0 2)
      clocheDrive := seedDrive (bits w 2 2)
      conn := if bit w 10 then bits w 4 3 else 0
      clocheConn := bits w 7 3 })
    setDriver s p (if bit w 10 then seedDrive (bits w 0 2) else .off)) s

def loadLoops (g : Nat → Byte) (s : State) : State :=
  (List.range 544).foldl (fun s l =>
    let o := 0x2940 + 16 * l
    s.modLoop l (fun x => { x with
      powerUp := ofTwos 16 (seedNum g o 2)
      demand := ofTwos 16 (seedNum g o 2)
      clocheCode := ofTwos 16 (seedNum g (o + 2) 2)
      clocheMode := seedNum g (o + 4) 1
      clocheV := seedF g (o + 8)
      clocheI := seedF g (o + 12) })) s

def loadReactions (g : Nat → Byte) (s : State) : State :=
  (List.range 1792).foldl (fun s i => s.setReact (i / 64) (i % 64) (w16 (seedNum g (0x4B40 + 2 * i) 2))) s

def loadSupervision (g : Nat → Byte) (s : State) : State :=
  let s := (List.range 5).foldl (fun s z =>
    let f := fun k => seedF g (0x5940 + 32 * z + 4 * k)
    s.modZone z (fun x => { x with
      warn := f 0, throttle := f 1, cloche := f 2, shutdown := f 3, hyst := f 4, step := f 5, ror := f 6
      graceMs := seedNum g (0x5940 + 32 * z + 28) 2 })) s
  let s := (List.range 16).foldl (fun s n =>
    let o := 0x59E0 + 24 * n
    s.modTherm n (fun x => { x with
      enable := bit (seedNum g o 2) 0, bias := bit (seedNum g o 2) 1
      a := seedF g (o + 4), b := seedF g (o + 8), c := seedF g (o + 12)
      cloche := seedF g (o + 16), ror := seedF g (o + 20) })) s
  let s := (List.range 16).foldl (fun s i =>
    let u := seedF g (0x5B60 + 8 * i)
    let v := seedF g (0x5B60 + 8 * i + 4)
    s.modRail i (fun _ =>
      { uv := if u = (railLimits i).1 then none else some u, ov := if v = (railLimits i).2 then none else some v })) s
  (List.range 32).foldl (fun s h =>
    let o := 0x5BE0 + 16 * h
    s.modCharge h (fun x => { x with
      source := seedNum g o 2, low := seedF g (o + 4), high := seedF g (o + 8), hyst := seedF g (o + 12) })) s

/-- Boot step 3 (R32, R34): the newest valid copy, or the factory values, which the class K defaults are. -/
def loadSeed (s : State) : State :=
  match newestSeed s with
  | some b =>
    let g := fun k => s.keepByte (seedBase b + k)
    let s := loadSupervision g (loadReactions g (loadLoops g (loadPins g s)))
    { s with cal := { s.cal with seedUsed := if b then 2 else 1, seedFallback := false } }
  | none => { s with cal := { s.cal with seedUsed := 0, seedFallback := true } }.raise 0x1B 0

/-- The staging image, created from the newest valid copy or the factory values (R500). -/
def stagingOf (s : State) : Tab Byte :=
  match s.cal.staging with
  | some t => t
  | none =>
    match newestSeed s with
    | some b => tput seedFactory [] 0 (keepBytes s (seedBase b) 0x8000)
    | none => []

/-- The first pin at or before `p` of its bed that breaks R124 or R125 under the connections `f`. -/
def padsBad (f : Nat → Nat) (p : Nat) : Bool :=
  let same := ((rangeFrom (32 * (p / 32)) (p % 32 + 1)).filter (fun q => decide (f q = f p))).length
  decide (f p = 7) || ((decide (f p = 4) || decide (f p = 5)) && decide (4 < same)) || (decide (f p = 6) && decide (2 < same))

/-- First bad byte of a staging image (R500): the first byte of the field that is bad, of the record for thresholds. -/
def seedBad (g : Nat → Byte) : Option Nat :=
  let seedConn := fun p => if bit (seedState g p) 10 then bits (seedState g p) 4 3 else 0
  let anyConn := fun p => bits (seedState g p) 4 3
  let clocheConn := fun p => bits (seedState g p) 7 3
  let pins := (List.range 512).find? (fun p => decide (anyConn p = 7) || padsBad seedConn p || padsBad clocheConn p)
  let loops := (List.range 544).find? (fun l => decide (2 < seedNum g (0x2940 + 16 * l + 4) 1))
  let zones := (List.range 5).find? (fun z =>
    let f := fun k => seedF g (0x5940 + 32 * z + 4 * k)
    (zoneReason (f 0) (f 1) (f 2) (f 3) (f 4) (f 5) (seedNum g (0x5940 + 32 * z + 28) 2) (f 6)).isSome)
  let therms := (List.range 16).find? (fun n =>
    let o := 0x59E0 + 24 * n
    decide (4 ≤ seedNum g o 2) || !thermOk (seedF g (o + 4)) (seedF g (o + 8)) (seedF g (o + 12)) (seedF g (o + 16)) (seedF g (o + 20)))
  let rails := (List.range 16).find? (fun i => (railReason i (seedF g (0x5B60 + 8 * i)) (seedF g (0x5B60 + 8 * i + 4))).isSome)
  let wins := (List.range 32).find? (fun h =>
    let o := 0x5BE0 + 16 * h
    let src := seedNum g o 2
    let lo := seedF g (o + 4)
    let hi := seedF g (o + 8)
    let hy := seedF g (o + 12)
    !(decide (src < 16) || decide (src = 0xFE) || decide (src = 0xFF)) || !f32Finite lo || !f32Finite hi ||
      !within hy (dec 1 1) (Frac.ofInt 10) || !((f32 lo).add ((f32 hy).mul (Frac.ofInt 2))).lt (f32 hi))
  match pins, loops, zones, therms, rails, wins with
  | some p, _, _, _, _, _ => some (0x40 + 20 * p + 16)
  | _, some l, _, _, _, _ => some (0x2940 + 16 * l + 4)
  | _, _, some z, _, _, _ => some (0x5940 + 32 * z)
  | _, _, _, some n, _, _ => some (0x59E0 + 24 * n)
  | _, _, _, _, some i, _ => some (0x5B60 + 8 * i)
  | _, _, _, _, _, some h => some (0x5BE0 + 16 * h)
  | _, _, _, _, _, _ => none

/-- Live class K settings as bytes of a seed image (R506 CAPTURE). -/
def captureBytes (s : State) : List Byte :=
  let f := fun (p : BitVec 32) => toBytes 4 p.toNat
  (List.range 1792).flatMap (fun i => toBytes 2 (s.react (i / 64) (i % 64)).toNat) ++
  (List.range 5).flatMap (fun z =>
    let x := s.zone z
    f x.warn ++ f x.throttle ++ f x.cloche ++ f x.shutdown ++ f x.hyst ++ f x.step ++ f x.ror ++ toBytes 2 x.graceMs ++ [0, 0]) ++
  (List.range 16).flatMap (fun n =>
    let x := s.therm n
    toBytes 2 (flag 0 x.enable + flag 1 x.bias) ++ [0, 0] ++ f x.a ++ f x.b ++ f x.c ++ f x.cloche ++ f x.ror) ++
  (List.range 16).flatMap (fun i => f ((s.rail i).uv.getD (railLimits i).1) ++ f ((s.rail i).ov.getD (railLimits i).2)) ++
  (List.range 32).flatMap (fun h =>
    let x := s.charge h
    toBytes 2 x.source ++ [0, 0] ++ f x.low ++ f x.high ++ f x.hyst)

/-- A sector past 100 000 erases refuses to erase (R493). -/
def wornOut (s : State) (sector : Nat) : Bool := decide (100000 < s.wearOf sector)

/-- An erase completes (R493): 0xFF throughout; WEAR as the sector passes 90 000 erases. -/
def eraseSector (s : State) (sector : Nat) : State :=
  let s := { s with cal := { s.cal with keep := terase s.cal.keep (4096 * sector) 4096 } }
  let s := s.modWearOf sector (fun n => n + 1)
  if s.wearOf sector = 90001 then s.raise 0x1B 5 sector else s

/-- Bytes are programmed into erased lines (R493). -/
def programKeep (s : State) (a : Nat) (l : List Byte) : State :=
  { s with cal := { s.cal with keep := tput (fun _ => 0xFF) s.cal.keep a l } }

/-- KEEP_WE enables the area, 0 user, 1 calibration, 2 seed, and the window is open (R494). -/
def keepAllowed (s : State) (area : Nat) : Bool := bit s.bus.keepWe.toNat area && s.sup.keepOpen
def needKeep (s : State) (area : Nat) : Option Bad := if keepAllowed s area then none else some (0x31, area)

/-- One keep-store operation at a time (R494). -/
def keepBusy (s : State) : Bool := s.cal.op.isSome || s.cal.commit.isSome
def needKeepIdle (s : State) : Option Bad := needBusy (!keepBusy s) 0x1B

/-- Programming of `l` from address `a`, line by line (R493). -/
def programSteps (a : Nat) (l : List Byte) : List KeepStep :=
  (List.range ((l.length + 15) / 16)).map (fun i => .program (a + 16 * i) ((l.drop (16 * i)).take 16))

/-- The command's keep-store write has done what it could: end it. -/
def endKeep (s : State) (f : State → State) : State :=
  let s := { s with cal := { s.cal with op := none } }
  if waitsFor s .keepOp then f s else s

/-- The next step of the write may start, or the write ends (R493, R494): a closed window and a worn sector stop it. -/
def keepProceed (s : State) : State :=
  match s.cal.op with
  | none => s
  | some o =>
    match o.steps with
    | [] => endKeep s (fun s => postOk s (if o.area = 2 then toWords 2 o.gen else []))
    | x :: _ =>
      if !s.sup.keepOpen then endKeep s (fun s => postBad s (0x31, o.area))
      else
        match x with
        | .erase k => if wornOut s k then endKeep s (fun s => postBad s (0x12, 0x8001)) else s
        | .program _ _ => s

/-- A keep-store write begins, and its command waits for it. -/
def startKeep (s : State) (o : KeepOp) : State :=
  keepProceed (waitFor { s with cal := { s.cal with op := some o } } .keepOp)

end Sys2Proof.Machine
end

