-- ==== Sys2Proof/Machine/Calib.lean ====
section
/-! DEFINITION. Calibration and keep store (spec/16): the commands of R501 and the ends of what they start. -/

namespace Sys2Proof.Machine

/-- Scopes that a mask of CAL_RUN may name (R503). -/
def calScopes (kind : Nat) : Nat := if kind = 0 ∨ kind = 3 ∨ kind = 5 then 16 else if kind = 2 ∨ kind = 4 then 32 else 0

/-- Scopes of a run: heavy loops with their gangs (R239, R503). -/
def scopesOf (s : State) (kind mask : Nat) : List Nat :=
  let l := maskList (calScopes kind) mask
  if kind = 4 then (calLoops s 4 l).map (fun k => k - 512) else l

/-- CAL_RUN (R481, R482, R501 to R503): the scopes of the mask go offline and the measurement starts. -/
def execCalRun (s : State) : Host.Outcome State Fault Refusal :=
  .next (onCommand s 0x0B00 (fun _ => true) (fun c =>
    let k := par c 0
    let mask := par32 c 1
    let sc := scopesOf s k mask
    let beds := calBeds k sc
    checked s
      [needParam (decide (k ≤ 6)) 0,
       needParam (decide (mask < 2 ^ calScopes k) && (decide (mask ≠ 0) || decide (calScopes k = 0))) 1,
       needBits c 3 1,
       needParam (if k = 6 then within (parF c 4) (Frac.ofInt 2) (Frac.ofInt 5) else decide (par32 c 4 = 0)) 4,
       needParam (if k = 6 then decide (par c 6 = 0) || (decide (50 ≤ par c 6) && decide (par c 6 ≤ 10000)) else decide (par c 6 = 0)) 6,
       needTag s c.tag.toNat,
       if k ≤ 2 then needRef s else none,
       if s.sup.shutdown then some (0x14, 0xFF) else none,
       if k ≤ 3 then firstOf beds (fun b => needState (!bedBusy s b) 1) else none,
       needActive s beds,
       if k = 2 then firstOf sc (fun u => needState ((s.tiu u).run.isNone) 25) else none,
       needBusy s.cal.run.isNone 0xFE]
      (fun s =>
        let r : CalRun :=
          { tag := c.tag.toNat, ring := c.ring.toNat, kind := k, scopes := sc, dry := bit (par c 3) 0, refv := parF c 4,
            tolPpm := if par c 6 = 0 then 500 else par c 6, aborting := false }
        let s := { s with cal := { s.cal with run := some r } }
        let s := (calLoops s k sc).foldl freezeLoop s
        let s := if k ≤ 1 then beds.foldl holdClocks s else s
        accept s c 0)))

/-- X2 of R484 is above 37.70 for the 16 counts. -/
def chiFails (l : List Nat) : Bool :=
  let n := l.sum
  decide (377 * n < 10 * (16 * (l.map (fun c => c * c)).sum - n * n))

/-- Every p-th bin from `o`: their sum and number. -/
def combBins (l : List Nat) (p o : Nat) : Nat × Nat :=
  (List.range l.length).foldl (fun a i => if i % p = o then (a.1 + l.getD i 0, a.2 + 1) else a) (0, 0)

/-- The comb test of R485 on a 512-bin histogram, 8 bins left out at each end. -/
def combFails (h : List Nat) : Bool :=
  let l := (h.drop 8).take 496
  let t := l.sum
  decide (8 < (l.filter (fun c => decide (c = 0))).length) ||
  (rangeFrom 2 15).any (fun p => (List.range p).any (fun o =>
    let x := combBins l p o
    decide (x.2 * t < 5 * (496 * x.1 - x.2 * t)) || decide (x.2 * t < 5 * (x.2 * t - 496 * x.1))))

/-- The stuck test of R485 on a channel: samples, largest count of one code, occupied and expected span, OVR samples. -/
def stuckFails (n largest span expected ovr : Nat) : Bool :=
  decide (n < 100 * largest) || decide (10 * span < 9 * expected) || decide (n < 50 * ovr)

/-- REFV_CHECK: a bed's deviation, 10⁻¹² V, within TOL_PPM × REFV + 2 LSB of the monitor's 10 V span (R491). -/
def refvOk (r : CalRun) (dev : Nat) : Bool :=
  (⟨dev, 10 ^ 12⟩ : Frac).le (((f32 r.refv).mul (dec r.tolPpm 6)).add ⟨20, 32768⟩)

/-- Limits of the two quality figures in thousandths (R487). -/
def qualityLimits (kind : Nat) : Nat × Nat :=
  if kind ≤ 1 then (4000, 0) else if kind = 2 then (1500, 0) else if kind = 5 then (1000, 0) else (1000, 500)

/-- The figures of a run exist: it passed R484 to R486. -/
def measuredFigures (r : CalRun) (m : CalMeas) : Option Nat :=
  let density := decide (r.kind = 0) || decide (r.kind = 2)
  let codes := decide (r.kind = 3) || decide (r.kind = 4)
  if density && m.density.any chiFails then some 1
  else if density && m.finePosStuck then some 3
  else if codes && (List.range m.codeStats.length).any (fun i =>
      let x := m.codeStats.getD i (0, 0, 0, 0)
      stuckFails (m.histograms.getD i []).sum x.1 x.2.1 x.2.2.1 x.2.2.2) then some 3
  else if codes && m.histograms.any combFails then some 2
  else if r.kind ≠ 6 ∧ (if r.kind ≤ 2 then 1500 else 300) < m.repeatMilli then some 4
  else if r.kind ≠ 6 ∧ 32 < m.tempChange then some 8
  else none

/-- The reason for which a run is rejected, none if every scope passes (R484 to R488, R491). -/
def rejectReason (r : CalRun) (m : CalMeas) : Option Nat :=
  match measuredFigures r m with
  | some n => some n
  | none =>
    if r.kind = 6 then (if decide (16 ≤ m.refvDev.length) && m.refvDev.all (refvOk r) then none else some 6)
    else
      let lim := qualityLimits r.kind
      if m.quality.any (fun x => decide (lim.1 < x.2.1) || (decide (0 < lim.2) && decide (lim.2 < x.2.2))) then some 5 else none

/-- Parts of the body that a run may change (R488, R495): offset and length per scope. -/
def calParts (kind : Nat) (scopes : List Nat) : List (Nat × Nat) :=
  if kind = 0 then scopes.map (fun b => (16 + 656 * b, 656))
  else if kind = 1 then [(10528, 48)]
  else if kind = 2 then scopes.map (fun u => (10592 + 528 * u, 528))
  else if kind = 3 then scopes.map (fun b => (27504 + 10240 * b, 10240))
  else if kind = 4 then scopes.map (fun h => (191360 + 336 * h, 336))
  else if kind = 5 then scopes.map (fun b => (202128 + 1008 * b, 1008))
  else []

/-- Body bytes of the image in use are replaced. -/
def patchBody (s : State) (l : List (Nat × Byte)) : State :=
  { s with cal := { s.cal with body := l.foldl (fun t e => tset calDefault t e.1 e.2) s.cal.body } }

/-- Tcal and PMcal of a bed are recorded, as the bed's sensors and its die's process monitor read now (R166, R488). -/
def recordEdge (s : State) (b : Nat) : State :=
  let o := 16 + 656 * b + 640
  let t := toBytes 4 (toF32 ⟨driverSum s b, 32⟩).toNat ++ toBytes 2 (s.pmon (1 + b / 4)).toNat
  (patchBody s ((List.range 6).map (fun i => (o + i, t.getD i 0)))).modDrift b (fun _ => 0)

/-- The new coefficients come into use (R488). -/
def applyCal (s : State) (r : CalRun) (m : CalMeas) : State :=
  let parts := calParts r.kind r.scopes
  let s := patchBody s (m.patch.filter (fun e => parts.any (fun p => decide (p.1 ≤ e.1) && decide (e.1 < p.1 + p.2))))
  let s := if r.kind = 0 then r.scopes.foldl recordEdge s else s
  if r.kind = 6 then s else { s with cal := { s.cal with modified := true } }

/-- The figures that CAL_SELECT QUALITY reports (R487, R491). -/
def keepFigures (s : State) (r : CalRun) (m : CalMeas) : State :=
  let put := fun (s : State) (i : Nat) (q : Quality) =>
    (s.modQuality (1024 * r.kind + i) (fun _ => q)).modMeasured (1024 * r.kind + i) (fun _ => true)
  if r.kind = 6 then
    (List.range m.refvDev.length).foldl (fun s i =>
      let ppm := (((⟨m.refvDev.getD i 0, 1000⟩ : Frac)).div (f32 r.refv)).round.toNat
      put s i { first := 0, second := ppm, rep := 0 }) s
  else m.quality.foldl (fun s x => put s x.1 { first := x.2.1, second := x.2.2, rep := m.repeatMilli }) s

/-- CAL_RUN_END (R484 to R489): the run is judged; accepted coefficients replace those in use as the hold ends. -/
def execCalRunEnd (m : CalMeas) (s : State) : Host.Outcome State Fault Refusal :=
  .next (match s.cal.run with
    | none => s
    | some r =>
      if r.aborting then
        let n := s.freeNat % (calCount s r + 1)
        endCal s.takeFree r 2 n 2 1 n
      else
        let s := if (measuredFigures r m).isNone then keepFigures s r m else s
        match rejectReason r m with
        | some n => endCal s r 0x30 n 1 0 (calCount s r)
        | none => endCal (if r.dry then s else applyCal s r m) r 0 0 1 0 (calCount s r))

/-- Sectors of a slot that a commit erases (R496): header, body, marker. -/
def commitSectors (b : Bool) : List Nat :=
  let k := slotBase b / 4096
  [k] ++ rangeFrom (k + 1) ((calBodyLen + 4095) / 4096) ++ [k + 127]

/-- Erase sectors in order until one is worn out; false if one was. -/
def eraseAll (s : State) : List Nat → State × Bool
  | [] => (s, true)
  | k :: r => if wornOut s k then (s, false) else eraseAll (eraseSector s k) r

/-- CAL_COMMIT (R496, R504). -/
def execCalCommit (s : State) : Host.Outcome State Fault Refusal :=
  .next (onCommand s 0x0B01 (fun _ => true) (fun c =>
    checked s [needTag s c.tag.toNat, needKeep s 1, needState s.cal.run.isNone 26, needKeepIdle s]
      (fun s =>
        let newest := newestSlot s
        let target := decide (newest = some false)
        let gen := match newest with | some b => slotGen s b + 1 | none => 1
        let e := eraseAll s (commitSectors target)
        let k : CalCommit := { tag := c.tag.toNat, ring := c.ring.toNat, slotB := target, gen := gen, wear := !e.2 }
        let s := { e.1 with cal := { e.1.cal with commit := some k } }
        accept s c 0)))

/-- The header of a calibration image (R495). -/
def calHeader (s : State) (gen : Nat) (body : List Byte) : List Byte :=
  let h := toBytes 4 0x4B524341 ++ toBytes 2 1 ++ toBytes 2 archId ++ toBytes 4 gen ++ toBytes 4 body.length ++
    toBytes 8 s.bus.uniqueId.toNat ++ toBytes 4 s.cal.sourceGen ++ toBytes 4 (crc32c body) ++ List.replicate 28 0
  h ++ toBytes 4 (crc32c h)

/-- CAL_COMMIT_DONE (R496, R498, R504): body, header, read-back, marker. -/
def execCalCommitDone (readOk : Bool) (s : State) : Host.Outcome State Fault Refusal :=
  .next (match s.cal.commit with
    | none => s
    | some k =>
      let s := { s with cal := { s.cal with commit := none } }
      let fin := fun (s : State) (st d : Nat) => endWork s (workEnd s k.tag k.ring st d 0 0 1 0 0 0)
      if k.wear then fin s 0x12 0x8002
      else if !s.sup.keepOpen then fin s 0x31 1
      else
        let body := (List.range calBodyLen).map (calByte s)
        let head := calHeader s k.gen body
        let o := slotBase k.slotB
        let s := programKeep (programKeep s (o + 0x1000) body) o head
        if !readOk then fin s 0x12 0x8001
        else
          let mark := toBytes 4 0xCA1C0417 ++ toBytes 4 k.gen ++ head.drop 60 ++ toBytes 4 0
          fin (programKeep s (o + 0x7FFF0) mark) 0 0)

/-- CAL_SELECT LOAD (R497, R502, R505). -/
def execCalSelectLoad (s : State) : Host.Outcome State Fault Refusal :=
  .next (onCommand s 0x0B02 (fun p => decide (wAt p 0 = 0)) (fun c =>
    let src := par c 1
    checked s
      [needParam (decide (src ≤ 3)) 1,
       firstOf (List.range 64) (fun q => needState (!seqBusy s q) 1),
       firstOf (List.range 32) (fun u => needState ((s.tiu u).run.isNone) 25),
       needState s.cal.run.isNone 26,
       needState (decide (src = 0) || decide (src = 3) || slotValid s (decide (src = 2))) 27]
      (fun s =>
        let s := if src = 0 then selectImage s else useImage s src
        postOk { s with edge := { s.edge with drift := [] } })))

/-- CAL_SELECT STATUS (R505). -/
def execCalSelectStatus (s : State) : Host.Outcome State Fault Refusal :=
  .next (onCommand s 0x0B02 (fun p => decide (wAt p 0 = 1)) (fun _ =>
    postOk s ([w16 s.cal.source, w16 (b2n s.cal.modified)] ++
      [false, true].flatMap (fun b => toWords 2 (slotGen s b) ++ [w16 (b2n (slotValid s b))]) ++
      [false, true].flatMap (fun b => toWords 2 (seedGen s b) ++ [w16 (b2n (seedValid s b))]) ++
      [w16 s.cal.seedUsed])))

/-- Indices that QUALITY accepts for a kind (R505). -/
def qualityCount (kind : Nat) : Nat := if kind = 1 then 1 else if kind = 2 ∨ kind = 4 then 32 else if kind = 7 then 8 else 16

/-- The greatest of binary32 figures of a pin bed, as patterns of non-negative numbers compare. -/
def worst (l : List Nat) : Nat := l.foldl max 0

/-- Figures in the image in use (R495), as binary32 patterns; none where the section keeps no such figure. -/
def imageFigures (s : State) (kind i : Nat) : Option Nat × Option Nat × Option Nat :=
  let n := fun a => calNum s a 4
  if kind = 0 then (some (n (16 + 656 * i + 646)), none, some (n (16 + 656 * i + 650)))
  else if kind = 1 then (some (n (10528 + 32)), none, some (n (10528 + 36)))
  else if kind = 2 then (some (n (10592 + 528 * i + 516)), none, some (n (10592 + 528 * i + 520)))
  else if kind = 3 then
    let f := fun k => worst ((List.range 32).map (fun p => n (27504 + 320 * (32 * i + p) + 298 + 4 * k)))
    (some (f 0), some (f 1), some (f 2))
  else if kind = 4 then
    let f := fun k => n (191360 + 336 * i + 316 + 4 * k)
    (some (f 0), some (f 1), some (f 2))
  else if kind = 5 then (some (n (202128 + 1008 * i + 996)), none, none)
  else (none, none, none)

/-- Figures of the last run (R487), as binary32 patterns; none where the kind has no such figure. -/
def runFigures (s : State) (kind i : Nat) : Option Nat × Option Nat × Option Nat :=
  let q := s.quality (1024 * kind + i)
  let f := fun (n : Nat) => some (toF32 ⟨n, 1000⟩).toNat
  if kind = 6 then (none, f q.second, none)
  else (f q.first, if kind = 3 ∨ kind = 4 then f q.second else none, f q.rep)

/-- The words of figures; one that the spec does not define is a free value. -/
def figureWords (s : State) : List (Option Nat) → State × List Word
  | [] => (s, [])
  | some n :: r => let x := figureWords s r; (x.1, toWords 2 n ++ x.2)
  | none :: r => let x := figureWords s.takeFree r; (x.1, toWords 2 s.freeNat ++ x.2)

/-- CAL_SELECT QUALITY (R505). -/
def execCalSelectQuality (s : State) : Host.Outcome State Fault Refusal :=
  .next (onCommand s 0x0B02 (fun p => decide (wAt p 0 = 2)) (fun c =>
    let k := par c 1
    let i := par c 2
    checked s [needParam (decide (k ≤ 7)) 1, needParam (decide (i < qualityCount k)) 2]
      (fun s =>
        if k = 7 then
          let e := (s.port (i / 4)).eyes.getD (i % 4) (0, 0)
          postOk s [w16 e.1, w16 e.2]
        else
          let run := s.measured (1024 * k + i)
          let f := if run then runFigures s k i else imageFigures s k i
          let x := figureWords s [f.1, f.2.1, f.2.2]
          postOk x.1 (x.2 ++ [w16 (b2n (!run))]))))

/-! KEEP_WRITE and KEEP_READ (R506, R507). -/

/-- Parameters of a KEEP_WRITE: the area, and for DATA the extent. -/
def keepParams (c : Current) : List (Option Bad) :=
  let a := par c 0
  let act := par c 1
  let n := par c 4
  [needParam (decide (a = 0) || decide (a = 2)) 0, needParam (decide (act ≤ 3) && (decide (a = 2) || decide (act = 0))) 1,
   if act = 0 then needParam (decide (par32 c 2 + n ≤ if a = 0 then 0x40000 else 0x8000)) 2 else none,
   if act = 0 then needParam (decide (2 ≤ n) && decide (n ≤ 224) && decide (n % 2 = 0)) 4 else none]

/-- The data of a DATA action. -/
def keepData (c : Current) : List Byte := (wordsToBytes (c.params.drop 5)).take (par c 4)

/-- Steps that put bytes into the user area (R506): every sector touched is erased and programmed again. -/
def userSteps (s : State) (a : Nat) (l : List Byte) : List KeepStep :=
  let first := a / 4096
  (rangeFrom first ((a + l.length - 1) / 4096 + 1 - first)).flatMap (fun k =>
    let base := 4096 * k
    let old := keepBytes s base 4096
    let new := (List.range 4096).map (fun i =>
      if a ≤ base + i ∧ base + i < a + l.length then l.getD (base + i - a) 0 else old.getD i 0)
    .erase k :: programSteps base new)

/-- KEEP_WRITE DATA (R500, R506). -/
def execKeepWriteData (s : State) : Host.Outcome State Fault Refusal :=
  .next (onCommand s 0x0B03 (fun p => decide (wAt p 1 = 0)) (fun c =>
    checked s
      (keepParams c ++ [if par c 0 = 0 then needKeep s 0 else none, if par c 0 = 0 then needKeepIdle s else none])
      (fun s =>
        if par c 0 = 0 then
          startKeep s { area := 0, steps := userSteps s (0x30000 + par32 c 2) (keepData c), gen := 0 }
        else
          let t := twrite seedFactory (stagingOf s) (par32 c 2) (keepData c)
          postOk { s with cal := { s.cal with staging := some t } })))

/-- Steps of a seed commit (R496, R500): erase, body, header, check word, marker. -/
def seedSteps (s : State) (b : Bool) (t : Tab Byte) (gen : Nat) : List KeepStep :=
  let o := seedBase b
  let body := (List.range 0x5DA0).map (fun i => tget seedFactory t (0x40 + i))
  let head := toBytes 4 0x4B525344 ++ toBytes 2 1 ++ toBytes 2 archId ++ toBytes 4 gen ++ toBytes 4 24032 ++
    toBytes 8 s.bus.uniqueId.toNat ++ List.replicate 40 0
  (rangeFrom (o / 4096) 8).map .erase ++ programSteps (o + 0x40) body ++ programSteps o head ++
    [.program (o + 0x5DE0) (toBytes 4 (crc32c (head ++ body))), .program (o + 0x7FF0) (toBytes 4 0x5EED0417 ++ toBytes 4 gen)]

/-- KEEP_WRITE COMMIT (R500, R502). A bad image answers the first bad byte offset. -/
def execKeepWriteCommit (s : State) : Host.Outcome State Fault Refusal :=
  .next (onCommand s 0x0B03 (fun p => decide (wAt p 1 = 1)) (fun c =>
    match firstBad (keepParams c), s.cal.staging with
    | some b, _ => postBad s b
    | none, none => checked s [needKeep s 2, some (0x13, 28)] id
    | none, some t =>
      match seedBad (tget seedFactory t) with
      | some k => postResponse s 0x12 0x8009 (toWords 2 k)
      | none => checked s [needKeep s 2, needKeepIdle s] (fun s =>
          let newest := newestSeed s
          let target := decide (newest = some false)
          let gen := match newest with | some b => seedGen s b + 1 | none => 1
          startKeep s { area := 2, steps := seedSteps s target t gen, gen := gen })))

/-- KEEP_WRITE CAPTURE (R506). -/
def execKeepWriteCapture (s : State) : Host.Outcome State Fault Refusal :=
  .next (onCommand s 0x0B03 (fun p => decide (wAt p 1 = 2)) (fun c =>
    checked s (keepParams c)
      (fun s => postOk { s with cal := { s.cal with staging := some (tput seedFactory (stagingOf s) 0x4B40 (captureBytes s)) } })))

/-- KEEP_WRITE DISCARD (R502, R506). -/
def execKeepWriteDiscard (s : State) : Host.Outcome State Fault Refusal :=
  .next (onCommand s 0x0B03 (fun p => decide (wAt p 1 = 3)) (fun c =>
    checked s (keepParams c ++ [needState s.cal.staging.isSome 28])
      (fun s => postOk { s with cal := { s.cal with staging := none } })))

/-- Base and size of an area that KEEP_READ names (R492, R507); the staging image has base 0. -/
def keepArea (a : Nat) : Nat × Nat :=
  if a = 0 then (0x30000, 0x40000) else if a = 1 then (slotBase false, 0x80000) else if a = 2 then (slotBase true, 0x80000)
  else if a = 3 then (seedBase false, 0x8000) else if a = 4 then (seedBase true, 0x8000) else if a = 5 then (0, 0x20000)
  else (0, 0x8000)

/-- KEEP_READ (R507). -/
def execKeepRead (s : State) : Host.Outcome State Fault Refusal :=
  .next (onCommand s 0x0B04 (fun _ => true) (fun c =>
    let a := par c 0
    let o := par32 c 1
    let n := par c 3
    checked s
      [needParam (decide (a ≤ 6)) 0, needParam (decide (o + n ≤ (keepArea a).2)) 1,
       needParam (decide (2 ≤ n) && decide (n ≤ 224) && decide (n % 2 = 0)) 3,
       if a = 6 then needState s.cal.staging.isSome 28 else none, needKeepIdle s]
      (fun s => postOk s (bytesToWords (
        if a = 6 then (List.range n).map (fun i => tget seedFactory (s.cal.staging.getD []) (o + i))
        else keepBytes s ((keepArea a).1 + o) n)))))

/-- KEEP_OPERATION_DONE (R493, R494): the erase or program in progress completes, and the write goes on or ends. -/
def execKeepOperationDone (s : State) : Host.Outcome State Fault Refusal :=
  .next (match s.cal.op with
    | none => s
    | some o =>
      match o.steps with
      | [] => keepProceed s
      | x :: r =>
        let s := match x with
          | .erase k => eraseSector s k
          | .program a l => programKeep s a l
        keepProceed { s with cal := { s.cal with op := some { o with steps := r } } })

end Sys2Proof.Machine
end

