-- ==== Sys2Proof/Machine/Meas.lean ====
section
/-! DEFINITION. Measurement runs, lock-in runs and window monitors (spec/10). -/

namespace Sys2Proof.Machine

/-- The bed is held by a converter calibration (R343 DETAIL 5). -/
def calHoldsConv (s : State) (b : Nat) : Bool :=
  match s.cal.run with
  | some r =>
    ((decide (r.kind = 3) || decide (r.kind = 5)) && r.scopes.contains b) ||
    (decide (r.kind = 4) && r.scopes.any (fun h => decide (h / 2 = b))) || decide (r.kind = 6)
  | none => false

def needNoConv (s : State) (beds : List Nat) : Option Bad := firstOf beds (fun b => needState (!calHoldsConv s b) 5)

/-- The averager is in use (R343): a run, a lock-in, or a sweep with MEAS steps. -/
def avgBusy (s : State) (key : Nat) : Bool :=
  (s.avg key).run.isSome || (s.avg key).lock.isSome ||
  (decide (key < 2048) && match (s.loop key).source with
    | .sweep r => (rangeFrom r.stepFirst r.steps).any (fun i => (s.swp i).meas)
    | _ => false)

/-- BUSY names the loop, or 0x0800 + bed (R343): the averager's key. -/
def needAvg (s : State) (keys : List Nat) : Option Bad := firstOf keys (fun k => needBusy (!avgBusy s k) k)

/-- MEAS_CONFIG (R344). -/
def execMeasConfig (s : State) : Host.Outcome State Fault Refusal :=
  .next (onCommand s 0x0500 (fun p => !bit (wAt p 2) 0) (fun c =>
    let ls := loopRange c 0
    let n := par32 c 3
    checked s
      (needLoops c 0 ++
       [needParam (decide (par c 2 < 16) && (bit (par c 2) 1 || bit (par c 2) 2)) 2,
        needParam (decide (1 ≤ n) && decide (n ≤ 16777216)) 3,
        needNoConv s (ls.map loopBed), needLoopBeds s ls])
      (fun s => postOk (ls.foldl (fun s l => s.modAvg l (fun a => { a with
        v := bit (par c 2) 1, i := bit (par c 2) 2, minmax := bit (par c 2) 3, n := n })) s))))

/-- MEAS_CONFIG_READ (R344). -/
def execMeasConfigRead (s : State) : Host.Outcome State Fault Refusal :=
  .next (onCommand s 0x0500 (fun p => bit (wAt p 2) 0) (fun c =>
    checked s (needLoops c 0 ++ [needParam (decide (par c 1 = 1)) 1, needParam (decide (par c 2 < 16)) 2,
        needNoConv s [loopBed (par c 0)], needLoopBeds s [par c 0]])
      (fun s =>
        let a := s.avg (par c 0)
        postOk s (w16 (flag 1 a.v + flag 2 a.i + flag 3 a.minmax) :: toWords 2 a.n))))

/-- Averager keys of a MEAS_RUN (R345): loops, or the bed's monitor averager. -/
def measKeys (c : Current) : List Nat := if par c 1 = 1 then [2048 + par c 2] else loopRange c 2

/-- Words 0 to 3 of a MEAS_RUN (R345). -/
def measParams (c : Current) : List (Option Bad) :=
  needParam (decide (par c 1 ≤ 1)) 1 ::
  (if par c 1 = 1 then [needParam (decide (par c 2 < 16)) 2, needParam (decide (par c 3 < 170)) 3] else needLoops c 2)

/-- MEAS_RUN_START (R345). -/
def execMeasRunStart (s : State) : Host.Outcome State Fault Refusal :=
  .next (onCommand s 0x0501 (fun p => decide (wAt p 0 = 0)) (fun c =>
    let keys := measKeys c
    let mon := decide (par c 1 = 1)
    let raw := decide (par c 4 = 1)
    let f := par c 15
    let start := startOf s c 10 (f % 4) (bit f 2)
    checked s
      (measParams c ++
       [needParam (decide (par c 4 ≤ 1)) 4, needParam (!raw || decide (par32 c 7 = 0)) 7,
        needParam (if raw then decide (1 ≤ par c 9) else decide (par c 9 = 0)) 9] ++ needStart c 10 ++
       [needParam (decide (f < 8)) 15,
        needParam (if mon then decide (1 ≤ par32 c 16) && decide (par32 c 16 ≤ 16777216) else decide (par32 c 16 = 0)) 16,
        needRing s (par c 18) 18, if par c 10 = 1 then needLead c (par64 c 11) 4 else none] ++
       needTags s c keys.length ++
       [needNoConv s (keys.map keyBed), needActive s (keys.map keyBed), needAvg s keys])
      (fun s =>
        let s := keys.zipIdx.foldl (fun s (k, i) =>
          let tag := c.tag.toNat + i
          let s := s.modAvg k (fun a => { a with
            run := some
              { tag := tag, hdrRing := c.ring.toNat, ring := ringOf c (par c 18), start := start, raw := raw, group := keys
                blocks := par32 c 5, gap := par32 c 7, decim := par c 9, n := par32 c 16, slot := if mon then some (par c 3) else none
                done := 0, skip := 0, win := none, units := 0, rawV := {}, rawI := {}, stopping := false } })
          if i = 0 then s else beginWork s tag c.opcode.toNat c.ring.toNat 0 false) s
        accept s c 0 (w16 keys.length :: toWords 4 (startTicks start) ++ [c.tag]))))

/-- Whether such a run runs on the averager (R343 DETAIL 12). -/
def measRuns (s : State) (c : Current) (k : Nat) : Bool :=
  (s.avg k).run.any (fun r => decide (r.slot = if par c 1 = 1 then some (par c 3) else none))

/-- A run told to stop (R334): it ends with the window in progress, at once with none. -/
def stopMeas (s : State) (k : Nat) : State :=
  let s := modMeasRun s k (fun r => { r with stopping := true })
  match (s.avg k).run with
  | some r => if r.win.isNone ∧ r.rawV.first.isNone ∧ r.rawI.first.isNone then endMeasRun s k 0 else s
  | none => s

/-- MEAS_RUN_STOP (R334, R345). -/
def execMeasRunStop (s : State) : Host.Outcome State Fault Refusal :=
  .next (onCommand s 0x0501 (fun p => decide (wAt p 0 = 1)) (fun c =>
    let beds := (measKeys c).map keyBed
    checked s (measParams c ++ [needNoConv s beds, needActive s beds, firstOf (measKeys c) (fun k => needState (measRuns s c k) 12)])
      (fun s => postOk ((measKeys c).foldl stopMeas s))))

/-- Key of an averager (R325). -/
def avgKey : AvgId → Nat
  | .loop l => l.val
  | .monitor b => 2048 + b.val

/-- MEAS_WINDOW_END (R326): a window that holds its N samples ends. -/
def execMeasWindowEnd (a : AvgId) (s : State) : Host.Outcome State Fault Refusal :=
  .next (match (s.avg (avgKey a)).run with
    | some r => if r.win.any (fun w => decide (w.size ≤ w.n)) then endMeasWindow s (avgKey a) false else s
    | none => s)

/-- RAW_RECORD_CLOSE (R332): a record that holds its 64 codes is written. -/
def execRawRecordClose (a : AvgId) (ch : Fin 2) (s : State) : Host.Outcome State Fault Refusal :=
  .next (match (s.avg (avgKey a)).run with
    | some r => if (if ch.val = 0 then r.rawV else r.rawI).full then closeRaw s (avgKey a) (decide (ch.val = 0)) else s
    | none => s)

/-- Reference loop of a lock-in (R346). -/
def lockRef (c : Current) (l : Nat) : Nat := if par c 3 = 0xFFFF then l else par c 3

/-- Twice the expected samples of a lock-in window, rounded up (R330): CYCLES turns of h × φ at the present FW. -/
def lockTwice (s : State) (c : Current) (l : Nat) : Option Nat :=
  match sineOn s (lockRef c l) with
  | some y => if y.fw = 0 then none else some ((2 * (par32 c 6 * 2 ^ 46) + y.fw * par c 4 * loopPeriod l - 1) / (y.fw * par c 4 * loopPeriod l))
  | none => some 0

/-- LOCKIN_RUN_START (R330, R346). -/
def execLockinRunStart (s : State) : Host.Outcome State Fault Refusal :=
  .next (onCommand s 0x0502 (fun p => decide (wAt p 0 = 0)) (fun c =>
    let ls := loopRange c 1
    let f := par c 15
    let start := startOf s c 10 (f % 4) (bit f 2)
    checked s
      (needLoops c 1 ++
       [needParam (decide (par c 3 = 0xFFFF) || (decide (par c 3 < 544) && ls.all (fun l => decide (loopBed l = loopBed (par c 3))))) 3,
        needParam (decide (1 ≤ par c 4) && decide (par c 4 ≤ 15)) 4, needParam (decide (1 ≤ par c 5) && decide (par c 5 ≤ 3)) 5,
        needParam (decide (1 ≤ par32 c 6)) 6] ++ needStart c 10 ++
       [needParam (decide (f < 8)) 15, needRing s (par c 16) 16, if par c 10 = 1 then needLead c (par64 c 11) 4 else none,
        firstOf ls (fun l => if (lockTwice s c l).any (fun n => decide (n ≤ 2 ^ 24)) then none else some (0x12, 0x8008))] ++
       needTags s c ls.length ++
       [needNoConv s (ls.map loopBed), needLoopBeds s ls,
        firstOf ls (fun l => needState (sineOn s (lockRef c l)).isSome 14), needAvg s ls])
      (fun s =>
        let s := ls.zipIdx.foldl (fun s (l, i) =>
          let tag := c.tag.toNat + i
          let s := s.modAvg l (fun a => { a with
            lock := some
              { tag := tag, hdrRing := c.ring.toNat, ring := ringOf c (par c 16), start := start, group := ls, ref := lockRef c l
                harmonic := par c 4, v := bit (par c 5) 0, i := bit (par c 5) 1, cycles := par32 c 6, blocks := par32 c 8
                p := clog2 ((lockTwice s c l).getD 0) - 8, done := 0, phase := none, win := none, credit := false
                ended := none, stopping := false } })
          if i = 0 then s else beginWork s tag c.opcode.toNat c.ring.toNat 0 false) s
        accept s c 0 (w16 ls.length :: toWords 4 (startTicks start) ++ [c.tag]))))

/-- A lock-in run told to stop (R334). -/
def stopLock (s : State) (l : Nat) : State :=
  let s := modLockRun s l (fun r => { r with stopping := true })
  match (s.avg l).lock with
  | some r => if r.win.isNone ∧ r.ended.isNone then endLockRun s l false 0 else s
  | none => s

/-- LOCKIN_RUN_STOP (R334, R346). -/
def execLockinRunStop (s : State) : Host.Outcome State Fault Refusal :=
  .next (onCommand s 0x0502 (fun p => decide (wAt p 0 = 1)) (fun c =>
    let ls := loopRange c 1
    checked s (needLoops c 1 ++ [needNoConv s (ls.map loopBed), needLoopBeds s ls,
        firstOf ls (fun l => needState (s.avg l).lock.isSome 12)])
      (fun s => postOk (ls.foldl stopLock s))))

/-- LOCKIN_WINDOW_END (R330). -/
def execLockinWindowEnd (l : LoopId) (s : State) : Host.Outcome State Fault Refusal := .next (endLockWindow s l.val)

/-! Window monitors. -/

/-- The decision is the unit's trip level (R336). -/
def wmTripLevel (x : Monitoring) : Bool := decide (x.decision = !bit x.modeword 4)

/-- The unit counts as tripping (R339). -/
def wmTripping (x : Monitoring) : Bool :=
  if x.settling then false else if x.unresolved then bit x.modeword 5 else wmTripLevel x

/-- WM_TRIP is live while a unit of the bed with FAULT has TRIPPED set (R514). -/
def wmLive (s : State) (b : Nat) : State :=
  if (rangeFrom (4 * b) 4).any (fun u => (s.wmon u).tripped && bit (s.wmon u).modeword 7) then s else s.live b 0 false

/-- The latch sets (R338, R340): stamp, count, and the reactions, once on the set edge. -/
def wmSet (s : State) (u : Nat) : State :=
  let x := s.wmon u
  if x.tripped then s
  else
    let t := f3 s.now
    let s := s.modWmon u (fun x => { x with tripped := true, stamp := t, count := satAdd max16 x.count 1 })
    let s := unitEdges s (fun y sel => decide (y / 2 = u / 4) && decide (selSource sel = 36 + u % 4)) (256 * t) false
    let n := (s.wmon u).count
    let s := if bit x.modeword 6 ∧ x.eventRing ≠ 0xFFFF then
        (emitRecord s (u / 4) x.eventRing 3 3 0 0x09 0 t
          (eventBody 0x0A u ([b8 (b2n (bit x.modeword 4)), b8 (b2n x.decision), b8 (b2n x.unresolved), 0] ++ toBytes 2 n))).1
      else s
    if bit x.modeword 7 then s.raise (u / 4) 0 u else s

/-- The latch sets if the unit trips. -/
def wmCheck (s : State) (u : Nat) : State := if wmTripping (s.wmon u) then wmSet s u else s

/-- The latch is reloaded from the decision (R338); a trip of the same F3 cycle leaves it set (R71). -/
def wmReload (s : State) (u : Nat) : State :=
  wmLive (s.modWmon u (fun x => { x with tripped := x.tripped && (wmTripping x || decide (x.stamp = f3 s.now)) })) (u / 4)

/-- A unit is initialised (R339). -/
def wmInit (s : State) (u : Nat) : State :=
  wmLive (s.modWmon u (fun x => { x with
    enable := true, decision := false, tripped := false, unresolved := true, settling := true, count := 0 })) (u / 4)

/-- Every enabled unit of a bed is initialised (R339). -/
def wmInitBed (s : State) (b : Nat) : State :=
  (rangeFrom (4 * b) 4).foldl (fun s u => if (s.wmon u).enable then wmInit s u else s) s

/-- The unit evaluates: enabled, its bed not in STANDBY (R340, R341). -/
def wmRuns (s : State) (u : Nat) : Bool := (s.wmon u).enable && decide (s.bedPow (u / 4) ≠ .standby)

/-- WM_DECISION_CHANGE (R336, R339). -/
def execWmDecisionChange (u : Monitor) (high : Bool) (s : State) : Host.Outcome State Fault Refusal :=
  .next (if wmRuns s u.val && !(s.wmon u.val).settling then
      wmCheck (s.modWmon u.val (fun x => { x with decision := high, unresolved := false })) u.val
    else s)

/-- WM_SETTLING_END (R339). -/
def execWmSettlingEnd (u : Monitor) (resolved : Option Bool) (s : State) : Host.Outcome State Fault Refusal :=
  .next (if wmRuns s u.val && (s.wmon u.val).settling then
      wmCheck (s.modWmon u.val (fun x => { x with
        settling := false
        decision := resolved.getD x.decision
        unresolved := resolved.isNone && decide (x.modeword % 4 ≠ 0) })) u.val
    else s)

/-- WM_PERIOD_END (R338): at the next multiple of 3 200 × PERIOD at which none has ended yet. -/
def execWmPeriodEnd (u : Monitor) (s : State) : Host.Outcome State Fault Refusal :=
  .next (
    let x := s.wmon u.val
    if wmRuns s u.val && decide (x.period ≠ 0) then
      let t := roundUp (if x.periodEnd = s.now then s.now + 1 else s.now) (3200 * x.period)
      wmReload ((s.reach t).modWmon u.val (fun x => { x with periodEnd := t })) u.val
    else s)

/-- The units of a WM_CONFIG (R347). -/
def wmUnits (c : Current) : List Nat := rangeFrom (par c 1) (par c 2)
def wmParams (c : Current) : List (Option Bad) :=
  [needParam (decide (par c 1 < 64)) 1, needParam (decide (1 ≤ par c 2) && decide (par c 1 + par c 2 ≤ 64)) 2]
def wmBeds (c : Current) : List Nat := (wmUnits c).map (fun u => u / 4)

/-- WM_CONFIGURE (R347). -/
def execWmConfigure (s : State) : Host.Outcome State Fault Refusal :=
  .next (onCommand s 0x0700 (fun p => decide (wAt p 0 = 0)) (fun c =>
    let us := wmUnits c
    let o := f32 (parF c 5)
    checked s
      (wmParams c ++
       [needParam (decide (par c 3 ≤ 39)) 3, needParam (decide (par c 4 ≤ 40) && decide (par c 4 ≠ par c 3)) 4,
        needParam (f32Finite (parF c 5) && (dec (-32768) 3).le o && o.le (dec 32767 3)) 5,
        needParam (decide (par c 7 < 256)) 7, needRing s (par c 9) 9,
        needNoConv s (wmBeds c), firstOf us (fun u => needState (!(s.wmon u).enable) 15)])
      (fun s => postOk (us.foldl (fun s u => s.modWmon u (fun x => { x with
        srcA := par c 3, srcB := par c 4, offset := parF c 5, modeword := par c 7, period := par c 8, eventRing := par c 9 })) s))))

/-- WM_ENABLE (R339, R348). -/
def execWmEnable (s : State) : Host.Outcome State Fault Refusal :=
  .next (onCommand s 0x0700 (fun p => decide (wAt p 0 = 1)) (fun c =>
    checked s (wmParams c ++ [needNoConv s (wmBeds c)]) (fun s => postOk ((wmUnits c).foldl wmInit s))))

/-- WM_DISABLE (R348). -/
def execWmDisable (s : State) : Host.Outcome State Fault Refusal :=
  .next (onCommand s 0x0700 (fun p => decide (wAt p 0 = 2)) (fun c =>
    checked s (wmParams c ++ [needNoConv s (wmBeds c)]) (fun s => postOk ((wmUnits c).foldl (fun s u =>
      wmLive (s.modWmon u (fun x => { x with
        enable := false, tripped := false, unresolved := false, settling := false })) (u / 4)) s))))

/-- WM_CLEAR (R338, R348): the mask counts named units from UNIT_FIRST. -/
def execWmClear (s : State) : Host.Outcome State Fault Refusal :=
  .next (onCommand s 0x0700 (fun p => decide (wAt p 0 = 3)) (fun c =>
    checked s (wmParams c ++ [needNoConv s (wmBeds c)]) (fun s =>
      let s := (wmUnits c).foldl wmReload s
      postOk s [w16 (maskOf (((List.range (par c 2)).filter (fun i => (s.wmon (par c 1 + i)).tripped))))])))

/-- WM_READ (R348). -/
def execWmRead (s : State) : Host.Outcome State Fault Refusal :=
  .next (onCommand s 0x0700 (fun p => decide (wAt p 0 = 4)) (fun c =>
    checked s (wmParams c ++ [needParam (decide (par c 2 = 1)) 2, needNoConv s (wmBeds c)]) (fun s =>
      let x := s.wmon (par c 1)
      postOk s ([w16 (flag 0 x.enable + flag 1 x.decision + flag 2 x.tripped + flag 3 x.unresolved), w16 x.count] ++
        toWords 4 x.stamp ++ [w16 x.srcA, w16 x.srcB] ++ toWords 2 x.offset.toNat ++ [w16 x.modeword, w16 x.period, w16 x.eventRing]))))

end Sys2Proof.Machine
end

