-- ==== Sys2Proof/Machine/SerialOps.lean ====
section
/-! DEFINITION. The stage bus (spec/14 R437 to R447): frames to a stage, the judgement of a reply, what its values do, and
the loss of a stage. -/

namespace Sys2Proof.Machine

/-- N of a stage (R443). -/
def stageWords (x : StageState) : Nat := wAt x.ident 7

/-- Payload words of an out frame, padded with zeros. -/
def padWords (n : Nat) (l : List Word) : List Word := (l ++ List.replicate (n - l.length) 0).take n

/-- The CYCLIC payload for the loop bound to a power stage (R241, R439, R444). -/
def cyclicWords (s : State) (l : Nat) : List Word :=
  let x := s.loop l
  let on := !x.isOpen && decide (x.state ≠ .stopped)
  if x.stage = 1 then [w16 (flag 0 on + 2 * (x.mode % 2) + 8), 0, 0, 0]
  else
    let held := decide (x.state = .cloche)
    let mode := if held then (if x.clocheMode = 1 then 1 else 0) else x.mode % 2
    let pv := primaryVolt mode
    let (ph, pl) := quantityBounds s l pv none
    let user := if held then (if x.clocheMode = 2 then
        (let i := (setCode s l false x.irange x.vrange (f32 x.clocheI)).natAbs; some ((i : Int), -(i : Int))) else none)
      else some (userLimits s l (!pv))
    let (hi, lo) := quantityBounds s l (!pv) user
    let sp := if held then (if x.clocheMode = 2 then setCode s l true x.irange x.vrange (f32 x.clocheV) else 0) else x.setPoint
    [w16 (flag 0 on + 2 * mode), wInt (clampI pl.2 ph.2 sp), wInt hi.2, wInt lo.2]

/-- The frame of a cyclic exchange (R439, R441, R444): NOP to a lost stage, DISABLE in its place after a cloche (R446). -/
def cyclicFrame (s : State) (st : Nat) : StageFrame :=
  let x := s.stage st
  let n := stageWords x - 2
  if x.disable then { cmd := 4, addr := 0, payload := padWords n [] }
  else if x.lost then { cmd := 0, addr := 0, payload := padWords n [] }
  else
    let w := if wAt x.ident 0 = 1 then (match (stageLoops s st).head? with | some l => cyclicWords s l | none => []) else []
    { cmd := 1, addr := 0, payload := padWords n w }

/-- The out words of a frame (R437, R438): its payload, ALIVE, and the CRC over command, address and the words before it. -/
def outWords (f : StageFrame) (alive : Nat) : List Word :=
  let w := f.payload ++ [w16 (4096 * alive)]
  w ++ [w16 (crc16 ([b8 f.cmd, b8 (f.addr / 256), b8 f.addr] ++ wordsMsb w))]

/-- The next frame of the firmware's job on the stage (R449, R450). -/
def jobFrame (s : State) (st : Nat) : Option StageFrame :=
  match s.ser.job with
  | some (k, j) =>
    if k ≠ st then none
    else
      let n := stageWords (s.stage st) - 2
      match j with
      | .attach _ _ _ _ sent => some { cmd := if sent = 1 then 2 else 0, addr := 0, payload := padWords n [] }
      | .detach => none
      | .write a d _ sent => some (if sent = 0 then { cmd := 3, addr := a, payload := padWords n d } else { cmd := 0, addr := 0, payload := padWords n [] })
      | .read a _ _ sent => some (if sent = 0 then { cmd := 2, addr := a, payload := padWords n [] } else { cmd := 0, addr := 0, payload := padWords n [] })
  | none => none

/-- The frame that ends with the reply: the one in flight, else the one that the stage's gap carries next: DISABLE, a
frame sent once more, a frame of the firmware's job. -/
def endedFrame (s : State) (st : Nat) : Option StageFrame :=
  let x := s.stage st
  match x.frame with
  | some f => some f
  | none =>
    if x.disable then some { cmd := 4, addr := 0, payload := padWords (stageWords x - 2) [] }
    else match x.resend with
      | some f => some f
      | none => jobFrame s st

/-- The trailer of a reply: its word N − 2. -/
def replyTrailer (ws : List Word) : Nat := wAt ws (ws.length - 2)

/-- A bad reply (R440). -/
def replyBad (x : StageState) (ws : List Word) : Bool :=
  decide (ws.length < 2) || ws.all (fun w => decide (w = 0)) || ws.all (fun w => decide (w = 0xFFFF)) ||
  decide (crc16 (wordsMsb ws.dropLast) ≠ wAt ws (ws.length - 1)) ||
  (match x.stageAlive with
   | some a => decide (bits (replyTrailer ws) 12 4 ≠ (a + 1) % 16)
   | none => false)

/-- LIVE of STAGE_LOST: a stage is lost (R441). -/
def lostLive (s : State) : State := s.live 0x19 3 ((List.range 16).any (fun k => (s.stage k).lost))

/-- Heavy loops whose charge window takes the stage's temperature (R467). -/
def stageCharged (s : State) (st : Nat) : List Nat :=
  ((stageLoops s st).map (fun l => l - 512)).filter (fun h => decide ((s.charge h).source = 0xFE))

/-- The stage is marked lost (R242, R440): the loops that use it start their cloche with their drive outputs at the cloche
code, and DISABLE is sent. -/
def loseStage (s : State) (st : Nat) : State :=
  let s := ((freeTelem s st).modStage st (fun x => { x with lost := true, disable := true })).raise 0x19 3 st
  let s := (stageLoops s st).foldl (fun s l =>
    (clocheHeavy s (l - 512) (.stageLost (Fin.ofNat 16 st)) 10).modLoop l (fun x =>
      { x with isOpen := true, demand := x.clocheCode })) s
  (stageCharged s st).foldl chargeInvalid s

/-- Three consecutive bad replies and no loss declared yet. -/
def lossDue (s : State) (st : Nat) : State :=
  let x := s.stage st
  if x.attached ∧ !x.lost ∧ 3 ≤ x.bad then loseStage s st else s

/-- The exchange at `t` is a sample of its loop in EXT_DIGITAL (R241): what is due at the boundary takes effect, and the
exchange sends it. -/
def digitalBoundary (s : State) (l t : Nat) : State :=
  if !bedActive s (loopBed l) ∨ (s.loop l).stage ≠ 2 then s
  else
    let s := (catchRunEnd (complyTripNow s l) l).modLoop l (fun x => { x with lastSample := t })
    let x := s.loop l
    if x.state = .frozen ∨ x.state = .cloche then s
    else
      let s := applyForce s l t
      if (s.loop l).state = .regulating then chargeLeave (advanceSource s l t) l t else s

/-- The reply ends the sample of a loop in EXT_DIGITAL (R241): the stage's measurement, and its law, which changes the declared
law with cause STAGE. -/
def digitalSample (s : State) (l : Nat) (law : Nat) (c : Reading) : State :=
  if !bedActive s (loopBed l) ∨ (s.loop l).stage ≠ 2 then s
  else
    let t := (s.loop l).lastSample
    let s := deliver s l t c
    if (s.loop l).state = .frozen ∨ (s.loop l).state = .cloche then s
    else
      let s := recordHandoff s l t
      let x := s.loop l
      if x.state ≠ .regulating then s
      else
        let d : Declared := if law = 1 then .limitHi else if law = 2 then .limitLo else .primary
        let volt := !primaryVolt x.mode
        let (hi, lo) := quantityBounds s l volt (some (userLimits s l volt))
        let low := decide ((if d = Declared.primary then x.declared else d) = Declared.limitLo)
        let s := if d = x.declared then s
          else tripLive ((loopEvent s l 3 t (loopFields x (declaredCode x.declared) (declaredCode d) 8
              (if volt then x.lastV else x.lastI) (if low then lo.2 else hi.2))).modLoop l
            (fun x => { x with declared := d, tripCount := 0, cause := if d = Declared.primary then 0 else 8 })) l
        s.modLoop l (fun x => { x with
          stageLaw := law
          tripCount := if x.declared = Declared.primary ∨ x.tripN = 0 then 0
                       else if x.tripCount < x.tripN then x.tripCount + 1 else x.tripCount })

/-- A cyclic exchange reserves the credit of the telemetry record that its reply may yield (R379, R445). -/
def askTelem (s : State) (st : Nat) : State :=
  let x := s.stage st
  if wAt x.ident 0 ≠ 1 ∨ x.lost ∨ x.telemDiv = 0 ∨ x.telemCount + 1 < x.telemDiv ∨ x.telemCredit ≠ .unasked ∨
    (s.ring x.ring).state = .free then s
  else match reserve s x.ring telemUnits with
    | some t => t.modStage st (fun x => { x with telemCredit := .held })
    | none =>
      if ringDrops s x.ring then (dropRecord s x.ring 1).modStage st (fun x => { x with telemCredit := .dropped })
      else s.modStage st (fun x => { x with telemCredit := .missed })

/-- A STAGE_TELEMETRY record (R390, R445), in the credit reserved at the exchange; a reply outside the cyclic schedule
reserves now. -/
def sendTelemetry (s : State) (st : Nat) : State :=
  let x := s.stage st
  let n := wAt x.ident 12
  let units := (24 + 2 * n + 15) / 16
  let loop := ((stageLoops s st).head?).getD 0xFFFF
  let status := flag 1 x.enabled + flag 2 x.stageFault + 8 * x.law + flag 5 x.overtemp
  let body := [b8 st, b8 n] ++ toBytes 2 loop ++ [b8 (x.stageAlive.getD 0), b8 status, 0, 0] ++
    (padWords n x.telem).flatMap (fun w => toBytes 2 w.toNat)
  let s := s.modStage st (fun x => { x with telemCredit := .unasked })
  let r := match x.telemCredit with
    | .unasked => emitRecord s 16 x.ring telemUnits units 0 0x0C 0 s.now body
    | .held => placeReserved s 16 x.ring telemUnits units 0 0x0C 0 s.now body
    | .missed => (s, false)
    | .dropped => (s, true)
  if r.2 then r.1
  else (r.1.modStage st (fun x => { x with telemLost := satAdd max32 x.telemLost 1 })).raise 0x19 5 st

/-- The values of a good reply are used (R439, R445): telemetry, the loop's sample at a cyclic exchange, the temperature
of a charge window. -/
def useReply (s : State) (st : Nat) (cyclic regs : Bool) (ws : List Word) : State :=
  let t := replyTrailer ws
  let s := s.modStage st (fun x => { x with
    enabled := bit t 1, stageFault := bit t 2, law := bits t 3 2, overtemp := bit t 5 })
  let x := s.stage st
  if regs ∨ wAt x.ident 0 ≠ 1 then s
  else
    let tel := padWords (wAt x.ident 12) ws.dropLast.dropLast
    let s := s.modStage st (fun x => { x with
      telem := tel
      telemCount := if x.telemDiv = 0 then 0 else if x.telemDiv ≤ x.telemCount + 1 then 0 else x.telemCount + 1 })
    let s := if x.telemDiv ≠ 0 ∧ x.telemDiv ≤ x.telemCount + 1 then sendTelemetry s st else s
    let s := if cyclic then
        (stageLoops s st).foldl (fun s l =>
          digitalSample s l (bits t 3 2) { v := intW (w16 (wAt tel 0)), i := intW (w16 (wAt tel 1)), vOvr := false, iOvr := false }) s
      else s
    if 4 ≤ wAt x.ident 12 then (stageCharged s st).foldl (fun s h => chargeReading s h (some (degC (intW (w16 (wAt tel 3)))))) s else s

/-- A reply whose values wait is coded with its two marks in front (R530). -/
def useDelayed (s : State) (st : Nat) (w : List Word) : State :=
  match w with
  | m :: r => useReply s st (bit m.toNat 0) (bit m.toNat 1) r
  | [] => s

/-- Every delayed reply of the stage takes effect (R529). -/
def flushReplies (s : State) (st : Nat) : State :=
  let l := (s.stage st).delayed
  l.foldl (fun s w => useDelayed s st w) (s.modStage st (fun x => { x with delayed := [] }))

/-- A good reply: its values are used now, or AMOUNT exchanges later under STAGE_DELAY (R530). -/
def goodReply (s : State) (st : Nat) (cyclic regs : Bool) (ws : List Word) : State :=
  if s.perturbed 8 st then
    let q := (s.stage st).delayed ++ [w16 (flag 0 cyclic + flag 1 regs) :: ws]
    let n := (s.perturbAmount 8 st).toNat
    let s := s.modStage st (fun x => { x with delayed := q.drop (q.length - n) })
    (q.take (q.length - n)).foldl (fun s w => useDelayed s st w) s
  else useReply s st cyclic regs ws

end Sys2Proof.Machine
end

