-- ==== Sys2Proof/Machine/Serial.lean ====
section
/-! DEFINITION. The serial ports (spec/14): the stage-bus commands, exchanges and replies, and execute-in-place. -/

namespace Sys2Proof.Machine

/-- Bound loops are STOPPED (R448): BAD_STATE, DETAIL 23. -/
def needBoundStopped (s : State) (st : Nat) : Option Bad :=
  firstOf (stageLoops s st) (fun l => needState (decide ((s.loop l).state = .stopped)) 23)

/-- The stage is attached (R448): BAD_STATE, DETAIL 22. -/
def needAttached (s : State) (st : Nat) : Option Bad := needState (s.stage st).attached 22

/-- The firmware starts work on the bus and waits for its frames (R82). -/
def startJob (s : State) (st : Nat) (j : StageJob) : State :=
  waitFor { s with ser := { s.ser with job := some (st, j) } } .stageBus

/-- STAGE_ATTACH ATTACH (R449): the identity block is read first. -/
def execStageAttachAttach (s : State) : Host.Outcome State Fault Refusal :=
  .next (onCommand s 0x0900 (fun p => decide (wAt p 0 = 0)) (fun c =>
    let st := par c 1
    let m := par c 2
    checked s
      [needParam (decide (st < 16)) 1, needParam (decide (bits m 6 2 = 0) && decide (8 ≤ m / 256)) 2,
       needParam (decide (1 ≤ par c 3) && decide (par c 3 ≤ 200)) 3, needRing s (par c 5) 5, needZero c 6 2,
       if (s.stage st).attached && decide ((s.stage st).period ≠ par c 3) then needBoundStopped s st else none]
      (fun s => startJob (s.modStage st (fun x => { x with stageAlive := none })) st
        (.attach m (par c 3) (par c 4) (ringOf c (par c 5)) 0))))

/-- STAGE_ATTACH DETACH (R449): DISABLE, then the slot is free. -/
def execStageAttachDetach (s : State) : Host.Outcome State Fault Refusal :=
  .next (onCommand s 0x0900 (fun p => decide (wAt p 0 = 1)) (fun c =>
    let st := par c 1
    checked s [needParam (decide (st < 16)) 1, needAttached s st, needBoundStopped s st]
      (fun s => startJob (s.modStage st (fun x => { x with disable := true })) st .detach)))

/-- STAGE_ATTACH WRITE (R449). -/
def execStageAttachWrite (s : State) : Host.Outcome State Fault Refusal :=
  .next (onCommand s 0x0900 (fun p => decide (wAt p 0 = 2)) (fun c =>
    let st := par c 1
    let n := par c 3
    checked s
      [needParam (decide (st < 16)) 1,
       needParam (decide (1 ≤ n) && decide (n ≤ 64) && (!(s.stage st).attached || decide (n + 2 ≤ stageWords (s.stage st)))) 3,
       needZero c 4 1, needAttached s st]
      (fun s => startJob s st (.write (par c 2) ((c.params.drop 5).take n) 0 0))))

/-- STAGE_READ READ (R450). -/
def execStageReadRead (s : State) : Host.Outcome State Fault Refusal :=
  .next (onCommand s 0x0901 (fun p => decide (wAt p 1 = 0)) (fun c =>
    let st := par c 0
    let n := par c 3
    checked s
      [needParam (decide (st < 16)) 0,
       needParam (decide (1 ≤ n) && (!(s.stage st).attached || decide (n + 2 ≤ stageWords (s.stage st)))) 3,
       needAttached s st]
      (fun s => startJob s st (.read (par c 2) n 0 0))))

/-- STAGE_READ STATUS (R450). -/
def execStageReadStatus (s : State) : Host.Outcome State Fault Refusal :=
  .next (onCommand s 0x0901 (fun p => decide (wAt p 1 = 1)) (fun c =>
    let st := par c 0
    checked s [needParam (decide (st < 16)) 0, needParam (decide (par c 3 = 0)) 3, needAttached s st]
      (fun s =>
        let x := s.stage st
        postOk s ([w16 (flag 0 x.attached + flag 1 x.lost + flag 2 x.enabled + flag 3 x.stageFault + flag 4 x.overtemp + 32 * x.law),
          w16 x.bad] ++ toWords 2 x.badTotal ++ toWords 2 x.badPrev ++ toWords 2 x.telemLost ++ toWords 2 x.aborted))))

/-- Ticks of a frame and its gap at the stage's SCK (R428, R437, R444). -/
def frameTicks (modeword : Nat) (ident : List Word) : Nat :=
  let lanes := if bit modeword 2 then 2 else 1
  (8 + 16 / lanes + wAt ident 8 + 16 * wAt ident 7 / lanes + 4) * (8 * (modeword / 256))

/-- The check of an identity block against the request (R449): a reason, 0 if it passes. -/
def identReason (m period : Nat) (w : List Word) : Nat :=
  if wAt w 1 ≠ 1 then 2
  else if !bit (wAt w 9) (m % 4) || (bit m 2 && !bit (wAt w 9) 4) then 3
  else if wAt w 10 * (m / 256) < 400 then 4
  else if 50 * period < wAt w 11 then 5
  else if wAt w 6 < 200 * period then 6
  else 0

/-- The loads of all other attached stages and of this one exceed 0.9 (R444). -/
def overLoaded (s : State) (st m period : Nat) (w : List Word) : Bool :=
  let f := fun (m p : Nat) (w : List Word) => (⟨frameTicks m w, 160000 * p⟩ : Frac)
  let others := ((List.range 16).filter (fun k => decide (k ≠ st) && (s.stage k).attached)).foldl (fun (a : Frac) k =>
    a.add (f (s.stage k).modeword (s.stage k).period (s.stage k).ident)) (f m period w)
  (dec 9 1).lt others

/-- The job is over. -/
def endJob (s : State) : State := { s with ser := { s.ser with job := none } }

/-- The answer of a job's command, if it still waits for the bus. -/
def answerJob (s : State) (f : State → State) : State := if waitsFor s .stageBus then f (endJob s) else endJob s

/-- The identity block of an ATTACH has been read (R449). -/
def finishAttach (s : State) (st m period div ring : Nat) (bad : Bool) (ws : List Word) : State :=
  let w := padWords 16 ws.dropLast.dropLast
  let reason := if bad then 1 else identReason m period w
  if reason ≠ 0 then answerJob s (fun s => postBad s (0x12, 0x8000 + reason))
  else if overLoaded s st m period w then answerJob s (fun s => postBad s (0x10, st))
  else
    let offset := s.freeNat % (160000 * period)
    let s := (freeTelem s.takeFree st).modStage st (fun x =>
      { alive := x.alive, stageAlive := x.stageAlive, prev := x.prev, frame := x.frame, out := x.out, attached := true, modeword := m,
        period := period, offset := offset, telemDiv := div, ring := ring, ident := w })
    answerJob (lostLive s) (fun s => postOk s ([w16 (wAt w 0), w16 (wAt w 7), w16 (wAt w 6)] ++ [w16 (wAt w 2), w16 (wAt w 3)]))

/-- The job on the stage goes on after a frame has ended: the frame, whether it was the job's own, and the frame that the
reply answers. -/
def jobReply (s : State) (st : Nat) (f : StageFrame) (own : Bool) (answered : Nat) (bad badPrev : Bool) (ws : List Word) : State :=
  let set := fun (j : StageJob) => { s with ser := { s.ser with job := some (st, j) } }
  match s.ser.job with
  | none => s
  | some (k, j) =>
    if k ≠ st then s
    else match j with
      | .attach m p d r sent =>
        if answered = 2 ∧ 2 ≤ sent then finishAttach s st m p d r (bad || badPrev) ws
        else if own then set (.attach m p d r (sent + 1)) else s
      | .detach =>
        if f.cmd = 4 then
          let hs := stageCharged s st
          let s := lostLive ((freeTelem s st).modStage st (fun _ => {}))
          answerJob (hs.foldl chargeInvalid s) (fun s => postOk s)
        else s
      | .write a d tries sent =>
        if sent = 1 ∧ answered = 3 then
          if !bad && !badPrev then answerJob s (fun s => postOk s)
          else if tries = 1 then answerJob s (fun s => postResponse s 2 0 [])
          else set (.write a d 1 0)
        else if own ∧ sent = 0 then set (.write a d tries 1) else s
      | .read a n miss sent =>
        if sent = 1 ∧ answered = 2 then
          if !bad && !badPrev then answerJob s (fun s => postOk s (ws.take n))
          else if miss = 1 then answerJob s (fun s => postResponse s 2 0 [])
          else set (.read a n 1 0)
        else if own ∧ sent = 0 then set (.read a n miss 1) else s

/-- A frame is in flight on the bus. -/
def sp1Busy (s : State) : Bool := (List.range 16).any (fun k => (s.stage k).frame.isSome)

/-- The cyclic exchange of a stage starts (R444): a sample of a loop in EXT_DIGITAL, the credit of its telemetry, its frame. -/
def startExchange (s : State) (st : Nat) : State :=
  let s := lossDue s st
  let x := s.stage st
  let s := if x.lost then s else (stageLoops s st).foldl (fun s l => digitalBoundary s l s.now) s
  let f := cyclicFrame s st
  let s := if f.cmd = 1 then askTelem s st else s
  s.modStage st (fun x => { x with frame := some f, out := outWords f x.alive, disable := false })

/-- A cyclic exchange that waited starts when the bus is free (R444): Kreif never skips one. -/
def nextExchange (s : State) : State :=
  match s.ser.cyclicWaits with
  | [] => s
  | k :: r =>
    if sp1Busy s then s
    else
      let s := { s with ser := { s.ser with cyclicWaits := r } }
      if (s.stage k).attached then startExchange s k else s

/-- STAGE_REPLY (R437 to R446): a frame to the stage has ended, with these in words. An exchange that waited for the bus
starts. -/
def execStageReply (st : Stage) (ws : List Word) (s : State) : Host.Outcome State Fault Refusal :=
  .next (nextExchange (
    let st := st.val
    let s := lossDue s st
    match endedFrame s st with
    | none => s
    | some f =>
      let x := s.stage st
      let inFlight := x.frame.isSome
      let own := !inFlight && !x.disable && x.resend.isNone
      let attaching := s.ser.job.any (fun j => decide (j.1 = st) && (match j.2 with | .attach .. => true | _ => false))
      let answered := match x.prev with | some p => p.cmd | none => 0
      let bad := replyBad x ws
      let t := replyTrailer ws
      let s := s.modStage st (fun x => { x with
        frame := none
        prev := some f
        out := if inFlight then x.out else outWords f x.alive
        alive := (x.alive + 1) % 16
        disable := if inFlight then x.disable else false
        resend := if inFlight ∨ x.disable then x.resend else none })
      let s :=
        if x.lost ∧ !attaching then s
        else if bad then
          ((if f.cmd = 1 then freeTelem s st else s).modStage st (fun x => { x with bad := x.bad + 1, badTotal := satAdd max32 x.badTotal 1 })).raise 0x19 1 st
        else
          let s := s.modStage st (fun x => { x with stageAlive := some (bits t 12 4), bad := 0 })
          let s := if !bit t 0 then s
            else
              let s := if x.forgive then s.modStage st (fun x => { x with forgive := false })
                       else (s.modStage st (fun x => { x with badPrev := satAdd max32 x.badPrev 1 })).raise 0x19 2 st
              if answered = 4 ∨ (answered = 3 ∧ s.ser.job.isNone) then s.modStage st (fun y => { y with resend := x.prev }) else s
          if x.attached ∧ !x.lost then goodReply s st (decide (f.cmd = 1)) (decide (answered = 2)) ws else s
      jobReply s st f own answered bad (bit t 0) ws))

/-- STAGE_LOST (R440): three consecutive bad replies. -/
def execStageLost (st : Stage) (s : State) : Host.Outcome State Fault Refusal := .next (lossDue s st.val)

/-- CYCLIC_EXCHANGE_DUE (R444): the exchange's frame starts, at the next multiple of PERIOD plus the slot offset, or waits for
the frame in flight. -/
def execCyclicExchangeDue (st : Stage) (late : Bool) (s : State) : Host.Outcome State Fault Refusal :=
  .next (
    let st := st.val
    let x := s.stage st
    if !x.attached ∨ x.period = 0 then s
    else
      let p := 160000 * x.period
      let t0 := x.offset + roundUp (s.now - x.offset) p
      let t := if x.lastDue = some t0 then t0 + p else t0
      let s := (lossDue (s.reach t) st).modStage st (fun x => { x with lastDue := some t })
      let s := nextExchange { s with ser := { s.ser with cyclicWaits := s.ser.cyclicWaits ++ [st] } }
      if late then s.raise 0x19 4 st else s)

/-- Flash base of the running slot (R104, R435). -/
def imageBase (s : State) : Nat := if s.clk.imageSlot then 0x800000 else 0

/-- `n` bytes of the boot flash, and their number. -/
def flashBytes (s : State) (a n : Nat) : List Byte := (List.range n).map (fun i => s.flashByte (a + i))
def flashNum (s : State) (a n : Nat) : Nat := ofBytes (flashBytes s a n)

/-- SP0 runs a program or erase frame, or recovers from a block reset: fetches wait (R435). -/
def sp0Held (s : State) : Bool := s.ser.sp0Busy || !s.ser.flashOps.isEmpty

/-- A fetch at window offset `o` (R435): zeros and XIP_RANGE beyond the body, else the line, kept in the line cache. -/
def xipServe (s : State) (o : Nat) : State :=
  let base := imageBase s
  if flashNum s (base + 16) 4 ≤ o then
    { s with ser := { s.ser with xipData := List.replicate 64 0, xipWait := none } }.raise 0x18 1 (o % 65536)
  else
    let k := o / 64
    let l := if s.ser.xipLines.contains k then s.ser.xipLines else (s.ser.xipLines ++ [k]).drop (s.ser.xipLines.length + 1 - 1024)
    { s with ser := { s.ser with xipLines := l, xipData := flashBytes s (base + 0x1000 + 64 * k) 64, xipWait := none } }

/-- XIP_FETCH (R435): a shed fetch in the execute-in-place window. -/
def execXipFetch (a : BitVec 32) (s : State) : Host.Outcome State Fault Refusal :=
  .next (
    let n := a.toNat
    if n < 0x20000000 ∨ 0x207FE000 ≤ n then s
    else if sp0Held s then { s with ser := { s.ser with xipWait := some (n - 0x20000000) } }
    else xipServe s (n - 0x20000000))

end Sys2Proof.Machine
end

