-- ==== Sys2Proof/Machine/ResetOps.lean ====
section
/-! DEFINITION. Resets (spec/02 R35 to R41, R48 to R50): what each kind clears, the state a block reset leaves its block
in, the watchdog restart, the chip and pin resets, and the link-port reset (R402). -/

namespace Sys2Proof.Machine

/-! Perturbation's end (R49, R529, R530). -/

/-- Fault block that a perturbation entry belongs to (R530); none for an unused entry. -/
def entryBlock (p : Perturb) : Option Nat :=
  if p.kind = 1 then some (p.target % 16)
  else if p.kind = 2 then some 0x10
  else if p.kind = 3 ∨ p.kind = 4 then some 0x15
  else if p.kind = 5 then some (portBlock (bits p.target 2 1))
  else if p.kind = 6 then some 0x14
  else if p.kind = 7 then some 0x12
  else if p.kind = 8 then some 0x19
  else none

/-- A window of entry `e` ends: what it withheld is given back. -/
def endWindow (s : State) (e : Nat) : State :=
  let p := s.pert e
  if !p.active then s
  else
    let s := s.modPert e (fun x => { x with active := false })
    if s.perturbed p.kind p.target then s
    else if p.kind = 4 then serviceRing s p.target
    else if p.kind = 5 then
      let port := bits p.target 2 1
      let c := bits p.target 0 2
      let n := (s.cls port c).withheld
      if n = 0 then s
      else (s.modCls port c (fun q => { q with rxFreed := (q.rxFreed + n) % 65536, withheld := 0 })).modPort port
        (fun q => { q with ctrlWaits := true })
    else if p.kind = 8 then flushReplies s p.target
    else s

/-- A mailbox response that MB_DELAY holds takes effect (R529, R530). -/
def releaseDelay (s : State) (n : Nat) : State :=
  if (s.mbx n).delayEnd.isSome then enterDone s n ((s.mbx n).flags.toNat.testBit 0) else s

/-- Disarming ends every active window in its F3 cycle (R529). -/
def disarm (s : State) : State :=
  let s := (List.range 16).foldl endWindow s
  let s := (List.range 8).foldl releaseDelay s
  { s with flt := { s.flt with armed := false } }

/-- What every reset of any kind does (R49): pending halves are discarded, perturbation is disarmed. -/
def anyReset (s : State) : State :=
  disarm { s with bus := { s.bus with halfHost := none, halfShed := none } }

/-- The entries of a block return to 0 (R48, R530). -/
def clearEntries (s : State) (k : Nat) : State :=
  (List.range 16).foldl (fun s e => if entryBlock (s.pert e) = some k then s.modPert e (fun _ => {}) else s) s

/-! Link-port reset (R402). -/

/-- URGENT messages in the payloads are lost, and count (R402, R426). -/
def lostUrgents (s : State) (p : Nat) (payloads : List (List Byte)) : State :=
  payloads.foldl (fun s b =>
    if b.head? = some 0x0A then s.raise (portBlock p) 5 (ofBytes ((b.drop 12).take 2)) else s) s

/-- PORT_CHANGE (R413): the port and its new width. -/
def portChanged (s : State) (p : Nat) : State := sendEvent s 3 (p + 2 * (s.port p).width)

/-- The port sends RESET_REQ, discards every flit it holds and trains again (R402); queued messages wait. -/
def linkReset (s : State) (p : Nat) : State :=
  let q := s.port p
  let was := decide (q.step = .active)
  let s := [0, 1, 2, 3].foldl (fun s c =>
    let n := (s.cls p c).sending.length
    let s := if (s.cls p c).sendingFwd && decide (0 < n) then freeCredit s (1 - p) c n else s
    s.modCls (1 - p) c (fun q => { q with queue := q.queue.map (fun m => (false, m.2)), sendingFwd := false })) s
  let s := lostUrgents s p ((s.cls p 0).sending ++ (s.cls p 0).replay.map (fun e => (e.2.drop 2).take 26))
  let s := s.modPort p (fun q => { q with
    step := if q.step = .off then .off else .detect
    width := 0
    lanes := 0
    retrains := satAdd 63 q.retrains 1
    signal := 0
    cls := freshClasses q.cls
    resetReq := true
    retrain := true
    ctrlWaits := false
    ctrlDue := false
    retry := none
    delayRsp := false
    wire := [] })
  let s := if p = 0 then { s with link := { s.link with delays := [], delayReq := none } } else s
  let s := (s.live (portBlock p) 4 false).live (portBlock p) 1 false
  if was then portChanged (s.raise (portBlock p) 0) p else s

/-- The port's own link-port reset is in progress: it is not ACTIVE again (R36, R402). -/
def retraining (s : State) (p : Nat) : Bool := (s.port p).retrain && decide ((s.port p).step ≠ .active)

/-- A link-port reset of any cause (R35, R49, R402); absorbed by a stronger reset and by an equal one of the port (R36). -/
def linkPortReset (s : State) (p : Nat) : State :=
  if s.clk.resetting.isSome || s.clk.restarting || retraining s p then s
  else linkReset (clearEntries (anyReset s) (portBlock p)) p

/-! The block reset (R41). -/

/-- No record for the raw or averaged window in progress: its credit returns and the run ends (R334). -/
def resetMeas (s : State) (key : Nat) : State := endMeasRun s key 5

/-- The lock-in's window in progress goes without a record (R334). -/
def resetLock (s : State) (l : Nat) : State :=
  match (s.avg l).lock with
  | none => s
  | some r =>
    let s := match r.ended with
      | some (_, true) => returnCredit s r.ring (if r.v && r.i then 5 else 4)
      | _ => s
    endLockRun s l true 5

/-- A time-interval run ends without a record, and the FIFO clears (R363). -/
def resetTim (s : State) (u : Nat) : State :=
  (endTimRun s u true 5).modTiu u (fun x => { x with fifo := [], overflow := 0, gapNext := false, freshNext := false })

/-- Bed block reset (R41): the cloche, with every run of the bed ended by cause 5; the delay-locked loop locks anew (R154). -/
def resetBed (s : State) (b : Nat) (o : Origin) : State :=
  let s := interruptCal s (fun r => (calBeds r.kind r.scopes).contains b) 7 5
  let s := (clocheBed s b .dead o 5).modTdll b (fun _ => false)
  let s := ((bedLoops b) ++ [2048 + b]).foldl resetMeas s
  let s := (bedLoops b).foldl resetLock s
  let s := dropLate ([2 * b, 2 * b + 1].foldl resetTim s) b
  let s := (bedLoops b).foldl (fun s l => s.modLoop l (fun x => { x with regions := { x.regions with known := false } })) s
  { s with pins := { s.pins with
      dac := tmapAll dacDefault s.pins.dac (fun k x => if k < 4096 ∧ dacBed k = b then { x with shadow := none } else x) } }

/-- THERM (R41): sampling restarts, so the counts of consecutive samples and the rate windows start again. -/
def resetTherm (s : State) : State :=
  let s := (List.range 48).foldl (fun s i => s.modSensor i (fun x => { x with fails := 0, passes := 0, window := [] })) s
  let s := (List.range 16).foldl (fun s i => s.modTherm i (fun x => { x with fails := 0, passes := 0, window := [] })) s
  let s := ((tents s.sup.level).map (fun e => e.1)).foldl (fun s k => s.modLevel k (fun x => { x with up := 0, down := 0 })) s
  let s := ((tents s.sup.railRead).map (fun e => e.1)).foldl (fun s k => s.modRailRd k (fun x => { x with
    low := { x.low with up := 0, down := 0 }
    high := { x.high with up := 0, down := 0 } })) s
  { s with sup := { s.sup with keepOut := 0, keepIn := 0, exitCount := 0 } }

/-- KEEP (R41, R498): a write in progress is abandoned; its command fails with its block, its work ends PARTIAL. -/
def resetKeep (s : State) : State :=
  let s := if s.cal.op.isSome then endKeep s (fun s => postBad s (0x20, 0x1B)) else s
  match s.cal.commit with
  | none => s
  | some k =>
    let s := { s with cal := { s.cal with commit := none } }
    endWork s (workEnd s k.tag k.ring 2 0 0 0 2 5 0 0)

/-- STREAM (R41): open streams close and the fetch in progress is dropped; a running burst keeps the list it follows. -/
def closeStreams (s : State) : State :=
  let s := (List.range 4).foldl (fun s n => s.modStrm n (fun x => if streamBusy s n then { x with isOpen := false } else {})) s
  { s with pat := { s.pat with fetch := none } }

/-- The effect of a block reset on its block's engines (R41), link ports and SHED apart. -/
def blockEffect (s : State) (k : Nat) (o : Origin) : State :=
  if k < 16 then resetBed s k o
  else if k = 0x13 then (List.range 64).foldl (fun s q => latchStop s q 5 false) s
  else if k = 0x14 then closeStreams s
  else if k = 0x15 then (List.range 17).foldl discardBanks s
  else if k = 0x18 then
    let s := if s.ser.flashOps.isEmpty ∧ s.ser.xipWait.isNone then s
      else { s with ser := { s.ser with sp0Aborts := satAdd max32 s.ser.sp0Aborts 1 } }.raise 0x18 0
    { s with ser := { s.ser with sp0Busy := true } }
  else if k = 0x19 then
    let s := (List.range 16).foldl (fun s st => abortFrame s st false) s
    { s with ser := { s.ser with cyclicWaits := [] } }
  else if k = 0x1A then resetTherm s
  else if k = 0x1B then resetKeep s
  else s

/-! The watchdog restart (R40, R101) and its escalation (R38). -/

/-- A stronger reset is in progress. -/
def deeper (s : State) : Bool := s.clk.resetting.isSome || decide (s.clk.phase = .off) || decide (s.clk.phase = .deep)

/-- WDOG_COUNT (R38): restarts within 10 s of chip time, at most 7 in its field. -/
def wdogCount (s : State) : Nat := min 7 (s.clk.wdogTimes.filter (fun t => decide (s.now < t + 32000000000))).length

/-- Set a bit of RESET_CAUSE (R39). -/
def setCause (s : State) (k : Nat) : State :=
  { s with clk := { s.clk with resetCause := s.clk.resetCause ||| BitVec.ofNat 7 (2 ^ k) } }.noteSet 0x108 (w16 (2 ^ k))

/-- Class V of every bed: the regions are no longer known (R48, R49). -/
def forgetRegions (s : State) : State :=
  ((tents s.lp.loop).map (fun e => e.1)).foldl (fun s l => s.modLoop l (fun x => { x with regions := { x.regions with known := false } })) s

/-- Steps 1 and 2 of R40: the shed halts, mailboxes are flushed, classes W, B and V return to default; work that the
firmware sequences ends, its COMPLETION comes at READY (R102). An entry into DEEP that waits for its 1 ms is the
firmware's and is dropped (DESIGN CHOICE 168). A STREAM block reset abandoned here lets the streamer go on. -/
def haltShed (s : State) (activating : Bool) : State :=
  let s := dropEntryPins (forgetRegions (anyReset s))
  let s := match s.cal.run with | some r => releaseScopes s r | none => s
  let s := (List.range 32).foldl (fun s h => s.modLoop (512 + h) (fun x => { x with pMax := 1000000000 })) s
  startFetch { s with
    mb := []
    clk := { s.clk with
      restarting := true
      activating := activating
      activationDue := none
      deepDue := none
      blockResetting := []
      wdogPeriod := 250
      wdogRunning := 250
      wdogServed := s.now }
    bus := { s.bus with keepWe := 0, fwCommit := 0, fwRelease := 0, cmdsetMax := 0 }
    fw := { s.fw with rev := 0, current := none, session := none, traps := [] }
    pat := { s.pat with loads := [] }
    lp := { s.lp with waveLoads := [] }
    ser := { s.ser with job := none, flashOps := [], sp0Busy := false, xipLines := [], xipWait := none }
    cal := { s.cal with op := none, commit := none, staging := none }
    flt := { s.flt with entry := [], forceAt := [] } }

/-! The pin and chip resets (R37, R48). -/

/-- Rank of a reset kind (R36). -/
def resetRank : ResetKind → Nat
  | .linkPort => 0
  | .block => 1
  | .watchdog => 2
  | .chip => 3
  | .pin => 4
  | .powerOn => 5

/-- What stays of the clocks at a pin or chip reset: classes A and P (R48). -/
def keptClock (c : Clock) (kind : ResetKind) (until' : Nat) : Clock :=
  { time := c.time
    bootTime := c.time
    refPresent := c.refPresent
    pllLocked := c.pllLocked
    holdover := c.holdover
    refLostSticky := c.refLostSticky
    aonOk := c.aonOk
    wakeTin0 := c.wakeTin0
    wakeLane := c.wakeLane
    tin0Falling := c.tin0Falling
    resetCause := c.resetCause
    imageSlot := c.imageSlot
    wdogTimes := c.wdogTimes
    faultResetEnd := c.faultResetEnd
    wsel := c.wsel
    resetting := some kind
    resetEnd := until' }

/-- Engines stop at the start of a pin or chip reset, and every output takes its cloche action (R37, R50). -/
def haltBeds (s : State) : State :=
  let s := (List.range 16).foldl (fun s b => clocheDrivers (moveDacs (s.modBedc b (fun x => { x with
    active := true
    settled := false
    causeBlock := 0xFF
    causeSource := 0x3F
    causeScope := 2
    origin := 0
    time := if x.active then x.time else s.now })) b) b) s
  (List.range 544).foldl (fun s l => s.modLoop l (fun x =>
    { state := .cloche, isOpen := decide (x.clocheMode = 0), demand := if x.clocheMode = 0 then x.clocheCode else x.demand
      clocheMode := x.clocheMode, clocheV := x.clocheV, clocheI := x.clocheI, clocheCode := x.clocheCode
      powerUp := x.powerUp })) s

/-- The start of a pin or chip reset (R35 to R37, R39): every output in cloche, no engine left, both ports down. -/
def startReset (s : State) (kind : ResetKind) (cause until' : Nat) : State :=
  let s := anyReset (setCause s cause)
  let s := [0, 1].foldl (fun s p => if (s.port p).step = .active then s.raise (portBlock p) 0 else s) s
  let s := (List.range 16).foldl (fun s st => abortFrame s st false) s
  let s := if s.ser.flashOps.isEmpty ∧ s.ser.xipWait.isNone then s else s.raise 0x18 0
  let s := haltBeds s
  { s with
    clk := keptClock s.clk kind until'
    mb := []
    fw := { ({} : Firmware) with rollback := s.fw.rollback }
    pat := { ({} : Pattern) with dram := s.pat.dram, tin := s.pat.tin, trig := s.pat.trig }
    lp := { ({} : Loops) with loop := s.lp.loop }
    meas := {}
    harv := {}
    link := { ({} : Trellis) with
      syncEpoch := s.link.syncEpoch }
    ser := { ({} : Serial) with flash := s.ser.flash }
    cal := { s.cal with run := none, commit := none, op := none, staging := none }
    flt := { s.flt with entry := [], forceAt := [] } }

/-- The pins' own levels at the trigger inputs outlast the reset (TIN_STATUS.LEVEL follows the pin). -/
def tinLevels (t : Tab Tin) : Tab Tin :=
  tmapAll (fun _ => {}) t (fun _ x => { level := x.level })

/-- What a fault block keeps at a pin or chip reset: class P (R48, R516). -/
def keptBlock (b : FaultBlock) : FaultBlock := { b with intEn := true, live := 0 }

/-- Classes C, W, B and V at their defaults, K at the factory values it is reloaded over (R35, R48). -/
def clearClasses (s : State) : State :=
  { s with
    clk := { s.clk with resetting := none, resetByFault := false, phase := .released }
    bus := { ({} : Bus) with uniqueId := s.bus.uniqueId, errnPulse := s.bus.errnPulse, lastRead := s.bus.lastRead }
    mb := []
    fw := { ({} : Firmware) with rollback := s.fw.rollback }
    pins := {}
    edge := {}
    pat := { ({} : Pattern) with dram := s.pat.dram, tin := tinLevels s.pat.tin }
    lp := {}
    meas := {}
    harv := {}
    link := { ({} : Trellis) with syncEpoch := s.link.syncEpoch }
    ser := { ({} : Serial) with flash := s.ser.flash }
    sup := { ({} : Supervision) with
      shutdown := s.sup.shutdown
      shutCause := s.sup.shutCause
      shutTime := s.sup.shutTime
      shutTemp := s.sup.shutTemp
      tripOpen := s.sup.tripOpen
      analogueOff := s.sup.shutdown
      shedSlow := s.sup.shutdown
      tripLog := s.sup.tripLog }
    cal := { ({} : Calibration) with keep := s.cal.keep, wear := s.cal.wear }
    flt := { ({} : Faults) with
      block := tmapAll (fun _ => {}) s.flt.block (fun _ x => keptBlock x)
      waiting := s.flt.waiting
      lastUrgent := s.flt.lastUrgent } }

/-- Boot step 3 after a reset that clears class C (R32, R34, R37, R472, R497): seed record, calibration image, and the
chip cause of a shutdown latch that is still set. -/
def bootStep3 (s : State) : State :=
  let s := selectImage (loadSeed s)
  let s := { s with clk := { s.clk with phase := .seeded } }
  let s := if s.clk.holdover then s.live 0x10 0 true else s
  if s.sup.shutdown then clocheChip (s.live 0x1A 3 true) .shutdown { block := 0x1A, source := 3 } else s

/-- A pin or chip reset arrives (R36): absorbed by an equal or stronger one in progress. -/
def chipReset (s : State) (kind : ResetKind) (cause until' : Nat) (byFault : Bool) : State :=
  let busy := match s.clk.resetting with | some k => decide (resetRank kind ≤ resetRank k) | none => false
  if busy || decide (s.clk.phase = .off) || decide (s.clk.phase = .deep) then s
  else
    let s := startReset s kind cause until'
    { s with clk := { s.clk with resetByFault := byFault } }

/-- A watchdog restart (R35, R38, R40): absorbed by one in progress or by a stronger reset; the third within 10 s becomes
a chip reset. -/
def watchdogRestart (s : State) (activating : Bool) : State :=
  if s.clk.restarting ∨ deeper s = true then s
  else
    let s := setCause s 4
    let times := s.clk.wdogTimes.filter (fun t => decide (s.now < t + 32000000000)) ++ [s.now]
    let s := { s with clk := { s.clk with wdogTimes := times } }
    if 3 ≤ times.length then chipReset s .chip 5 (s.now + 32000) false
    else haltShed s activating

/-- A block reset (R36, R41): absorbed by one of the same block in progress or by a stronger reset. -/
def blockReset (s : State) (k : Nat) (o : Origin) : State :=
  if deeper s ∨ s.clk.restarting ∨ s.blkReset k = true then s
  else if k = 0x12 then watchdogRestart s false
  else if k = 0x16 ∨ k = 0x17 then linkPortReset s (k - 0x16)
  else blockEffect ((clearEntries (anyReset s) k).modBlkReset k (fun _ => true)) k o

end Sys2Proof.Machine
end

