-- ==== Sys2Proof/Machine/FaultOps.lean ====
section
/-! DEFINITION. How a fault block registers faults (spec/17 R509, R515, R516): record, merging, and the reactions
(R518 to R520). -/

namespace Sys2Proof.Machine

/-- Registration delay of a block in ticks (R509). -/
def regDelay (k : Nat) : Nat := if bedBlock k then 32 else 16

/-- REACT, ERRN and CLOCHE of a reaction word (R511). -/
def reactOf (w : Word) : Nat := bits w.toNat 0 3
def errnOf (w : Word) : Bool := bit w.toNat 3
def clocheOf (w : Word) : Nat := bits w.toNat 4 2
def reactWord (react : Nat) (errn : Bool) (cloche : Nat) : Word := w16 (react + flag 3 errn + 16 * cloche)

/-- The word as it is taken: CHIP_RESET within 1 s of the end of a fault-reaction chip reset is taken as BLOCK_RESET
(R518). -/
def takenWord (s : State) (w : Word) : Word :=
  if reactOf w = 4 ∧ (s.clk.faultResetEnd.any (fun t => decide (s.now < t + 3200000000))) then
    reactWord 3 (errnOf w) (clocheOf w)
  else w

/-- STICKY, LAST words and EVENTS (R515). -/
def registerFault (d : Detect) (b : FaultBlock) : FaultBlock :=
  { b with
    sticky := b.sticky ||| BitVec.ofNat 64 (2 ^ d.source)
    lastSource := d.source
    lastValid := true
    lastTime := d.stamp
    events := satAdd max32 b.events 1 }

/-- Address of the low word of EVENTS of fault block `k` (R508). -/
def eventsAt (k : Nat) : Nat := 0x1000 + 0x40 * k + 12

/-- What hardware does to STICKY and EVENTS in this cycle, for a write that meets it (R71). -/
def noteFault (s : State) (d : Detect) : State :=
  (s.noteSet (0x1000 + 0x40 * d.block + 8 + d.source / 16) (w16 (2 ^ (d.source % 16)))).noteAdd (eventsAt d.block) (s.fblk d.block).events

/-- A capture (R515). -/
def captureFault (d : Detect) (taken : Word) (b : FaultBlock) : FaultBlock :=
  { b with
    ffValid := true
    merged := 0
    ffSource := d.source
    ffSev := srcSev d.block d.source
    ffForced := d.forced
    ffReact := taken
    ffD0 := d.d0
    ffD1 := d.d1
    ffTime := d.stamp }

/-- A merge (R515): MERGED counts, FF_REACT records the stronger REACT, the widest cloche and any ERRN. -/
def mergeFault (taken : Word) (b : FaultBlock) : FaultBlock :=
  { b with
    merged := satAdd max32 b.merged 1
    ffReact := reactWord (max (reactOf b.ffReact) (reactOf taken)) (errnOf b.ffReact || errnOf taken)
      (max (clocheOf b.ffReact) (clocheOf taken)) }

/-- ERRN (R520): ERRN_HOLD is set and the 2 µs pulse timer starts. -/
def fireErrn (s : State) : State :=
  { s with bus := { s.bus with errnHold := true, errnPulse := some (s.now + 6400) } }.noteSet 0x101 1

/-- CLOCHE of a fault (R511, R512, R521, R525). A forced fault's cloche is never live (R528). -/
def fireCloche (s : State) (d : Detect) (scope : Nat) : State :=
  let c : Cause := if d.forced then .dead else .fault d.block d.source
  let o : Origin := { block := d.block, source := d.source }
  if scope = 1 then
    match faultBeds s d.block d.source d.d0.toNat d.d1.toNat with
    | [] => clocheChip s c o
    | beds => beds.foldl (fun s b => clocheBed s b c o) s
  else if scope = 2 then clocheChip s c o
  else if scope = 3 then originate (clocheChain s c o) d.block d.source
  else s

/-- The shed takes traps: it runs and is not restarting (R518). -/
def shedTraps (s : State) : Bool :=
  !s.clk.restarting && s.clk.resetting.isNone &&
    (decide (s.clk.phase = .started) || decide (s.clk.phase = .ready) || decide (s.clk.phase = .recovery))

/-- The REACT action (R518), INT apart, which the STICKY bits give. -/
def fireReact (s : State) (d : Detect) (react : Nat) : State :=
  if react = 2 then
    (if shedTraps s then { s with fw := { s.fw with traps := s.fw.traps ++ [(d.block, d.source, s.now)] } } else s)
  else if react = 3 then blockReset s d.block { block := d.block, source := d.source }
  else if react = 4 then chipReset s .chip 3 (s.now + 32000) true
  else s

/-- The fault, and whether its REACT action is taken, for an ACK that meets it in this cycle (R516). -/
def noteRegistered (s : State) (d : Detect) (fired : Bool) : State :=
  { s with bus := { s.bus with recent := { s.recent with faults := s.recent.faults ++ [(d, fired)] } } }

/-- One fault registers (R515). -/
def registerOne (s : State) (d : Detect) : State :=
  let w := s.react d.block d.source
  let taken := takenWord s w
  let held := (s.fblk d.block).ffValid
  let stronger := !held || decide (reactOf (s.fblk d.block).ffReact < reactOf taken)
  let s := (noteFault s d).modFblk d.block (fun b =>
    let b := registerFault d b
    if held then mergeFault taken b else captureFault d taken b)
  let s := if errnOf w then fireErrn s else s
  let s := fireCloche (noteRegistered s d stronger) d (clocheOf w)
  if stronger then fireReact s d (reactOf taken) else s

/-- ACK (R516): it acts before the faults that the block registers in its F3 cycle, the first of which is captured anew. -/
def ackFault (s : State) (k : Nat) : State :=
  let l := s.recent.faults.filter (fun e => decide (e.1.block = k))
  let s := s.modFblk k (fun b => { b with ffValid := false })
  let s := { s with bus := { s.bus with recent := { s.recent with
    faults := s.recent.faults.map (fun e => (e.1, e.2 || decide (e.1.block = k))) } } }
  l.foldl (fun s e =>
    let taken := takenWord s (s.react k e.1.source)
    let b := s.fblk k
    let due := !e.2 && (!b.ffValid || decide (reactOf b.ffReact < reactOf taken))
    let s := s.modFblk k (fun b => if b.ffValid then mergeFault taken b else captureFault e.1 taken b)
    if due then fireReact s e.1 (reactOf taken) else s) s

/-- The order in which the faults of one F3 cycle register: highest severity first, on a tie the lowest source (R515). -/
def faultFirst (k : Nat) (l : List Detect) : Option Detect :=
  l.find? (fun d => l.all (fun e =>
    decide (srcSev k e.source < srcSev k d.source) ||
    (decide (srcSev k e.source = srcSev k d.source) && decide (d.source ≤ e.source))))

/-- The winner of the cycle, then the rest by rising source. -/
def faultOrder (k : Nat) (l : List Detect) : List Detect :=
  match faultFirst k l with
  | none => l
  | some d => d :: ((List.range 64).flatMap (fun n => (l.erase d).filter (fun e => decide (e.source = n))))

/-- A forced fault whose time has come is detected (R533): the block's earliest one. -/
def forceFirst (s : State) (k : Nat) : Option (Nat × Nat × Nat) :=
  let l := s.flt.forceAt.filter (fun e => decide (e.2.1 = k))
  l.find? (fun e => l.all (fun x => decide (e.1 ≤ x.1)))

/-- The forced fault is raised by the shed's guarded pair at its time (R528, R533). -/
def fireForced (s : State) (e : Nat × Nat × Nat) : State :=
  let s := s.reach e.1
  let s := { s with
    flt := { s.flt with forceAt := s.flt.forceAt.erase e }
    bus := { s.bus with halfShed := none } }
  s.raiseForced e.2.1 e.2.2

/-- Faults that hardware detects itself in this F3 cycle; a condition source whose condition already holds raises
nothing (R517). -/
def directFaults (s : State) (k : Nat) : List DirectFault → State
  | [] => s
  | f :: r =>
    let s := if f.source < srcCount k then
        (if srcEvent k f.source then s.raise k f.source f.d0.toNat f.d1.toNat
         else s.condition k f.source true f.d0.toNat f.d1.toNat)
      else s
    directFaults s k r

/-- The detections that register together: those of the block's oldest stamp. -/
def registering (s : State) (k : Nat) : List Detect :=
  let l := s.flt.waiting.filter (fun d => decide (d.block = k))
  match l.find? (fun d => l.all (fun e => decide (d.stamp ≤ e.stamp))) with
  | none => []
  | some d => l.filter (fun e => decide (e.stamp = d.stamp))

/-- The block registers one F3 cycle's faults, its registration delay after their stamp (R509, R515). -/
def registerCycle (s : State) (k : Nat) : State :=
  let l := registering s k
  match l with
  | [] => s
  | d :: _ =>
    let s := s.reach (d.stamp + regDelay k)
    let s := { s with flt := { s.flt with waiting := s.flt.waiting.filter (fun e => !l.contains e) } }
    (faultOrder k l).foldl registerOne s

/-! Interrupt and pins (R508, R516, R519, R520). -/

/-- The block's INT bit (R519). -/
def blockInt (s : State) (k : Nat) : Bool :=
  (s.fblk k).intEn && (List.range (srcCount k)).any (fun n => (s.fblk k).sticky.getLsbD n && decide (1 ≤ reactOf (s.react k n)))

/-- BLOCK_STATUS.MAX_SEV. -/
def maxSev (s : State) (k : Nat) : Nat :=
  ((List.range (srcCount k)).filter (fun n => (s.fblk k).sticky.getLsbD n)).foldl (fun m n => max m (srcSev k n)) 0

/-- INT_N, true low (R519). -/
def intNLow (s : State) : Bool := s.bus.intNEn && (List.range 28).any (blockInt s)

/-- ERR_N, true low (R520). -/
def errNLow (s : State) : Bool := s.bus.errnPulse.isSome || s.bus.errnHold || s.bus.errnTest

/-! Perturbation windows (R529, R530). -/

/-- The next window of an entry: its number and its start, none when all have passed (R530). -/
def nextWindow (p : Perturb) (armTime : Nat) : Option (Nat × Nat) :=
  let w := 3200 * p.window
  let first := roundUp p.start 16
  let skipped := if armTime < first + w then 0
    else if p.period = 0 then 1 else (armTime - first - w) / (3200 * p.period) + 1
  let k := max p.next skipped
  if p.kind = 0 ∨ (p.period = 0 ∧ 0 < k) ∨ (p.period ≠ 0 ∧ p.repeats ≠ 0 ∧ p.repeats ≤ k) then none
  else some (k, max (first + 3200 * p.period * k) (roundUp armTime 16))

/-- End of the window in progress, the one before `next` (R530). -/
def windowEnd (p : Perturb) : Nat := roundUp p.start 16 + 3200 * p.period * (p.next - 1) + 3200 * p.window

/-- PERTURB_ARM (R529): arming notes its time, a new arming begins every entry's windows anew. -/
def armPerturb (s : State) (on : Bool) : State :=
  if on then
    if s.flt.armed then s
    else { s with flt := { s.flt with
      armed := true
      armTime := s.now
      entry := tmapAll (fun _ => {}) s.flt.entry (fun _ x => { x with next := 0, active := false }) } }
  else disarm s

/-- The 14 words of an entry (R529). -/
def entryWords (p : Perturb) : List Word :=
  [w16 p.kind, w16 p.target] ++ toWords 2 p.amount.toNat ++ toWords 4 p.start ++ toWords 2 p.window ++
  toWords 2 p.period ++ [w16 p.repeats, w16 p.fired]

/-- TARGET is one the kind gives (R530). -/
def targetOk (kind target : Nat) : Bool :=
  if kind = 1 ∨ kind = 8 then decide (target < 16)
  else if kind = 2 then decide (target < 4)
  else if kind = 3 then decide (target < 17)
  else if kind = 5 ∨ kind = 7 then decide (target < 8)
  else if kind = 6 then decide (target = 0)
  else true

/-- AMOUNT is one the kind gives (R530). -/
def amountOk (kind : Nat) (amount : BitVec 32) : Bool :=
  let a := amount.toNat
  if kind = 1 then decide (-4096 ≤ amount.toInt) && decide (amount.toInt ≤ 4095)
  else if kind = 2 then decide (1 ≤ a) && decide (a ≤ 1024)
  else if kind = 6 then decide (1 ≤ a) && decide (a ≤ 100000)
  else if kind = 7 then decide (1 ≤ a) && decide (a ≤ 1000000)
  else if kind = 8 then decide (1 ≤ a) && decide (a ≤ 16)
  else decide (a = 0)

end Sys2Proof.Machine
end

