-- ==== Sys2Proof/Machine/BootOps.lean ====
section
/-! DEFINITION. Boot (spec/02 R32 to R34, R47): firmware images (spec/04 R104 to R108), the choice of the flash read
format (spec/14 R434), and the state a power-on reset begins from. -/

namespace Sys2Proof.Machine

/-! Firmware images. -/

/-- Flash base of a slot (R104). -/
def flashSlot (b : Bool) : Nat := if b then 0x800000 else 0

/-- Offset of a slot's commit record (R104). -/
def commitAt (b : Bool) : Nat := flashSlot b + 0x7FF000

/-- Header and commit-record fields (R105, R107). -/
def bodyLen (s : State) (b : Bool) : Nat := flashNum s (flashSlot b + 16) 4
def secVersion (s : State) (b : Bool) : Nat := flashNum s (flashSlot b + 12) 2
def slotGeneration (s : State) (b : Bool) : Nat := flashNum s (commitAt b) 4
def slotTry (s : State) (b : Bool) : Nat := flashNum s (commitAt b + 4) 2
def slotState (s : State) (b : Bool) : Nat := flashNum s (commitAt b + 6) 2
def slotTrial (s : State) (b : Bool) : Bool := decide (slotState s b = 0xAAAA)
def slotConfirmed (s : State) (b : Bool) : Bool := decide (slotState s b = 0)

/-- HDR_CRC, MAGIC, HDR_VERSION and ARCH check (R106). -/
def headerOk (s : State) (b : Bool) : Bool :=
  let a := flashSlot b
  decide (flashNum s (a + 252) 4 = crc32c (flashBytes s a 252)) && decide (flashNum s a 4 = 0x4B520F1E) &&
    decide (flashNum s (a + 4) 2 = 1) && decide (flashNum s (a + 14) 2 = archId)

/-- The three checks of R106 that need cryptography. -/
def keyHashOk (s : State) (b : Bool) : Bool := decide (sha256 (flashBytes s (flashSlot b + 64) 64) = Config.vendorKeyHash)
def signatureOk (s : State) (b : Bool) : Bool :=
  let a := flashSlot b
  ecdsaVerify (flashBytes s (a + 64) 64) (flashBytes s (a + 128) 64) (flashBytes s a 128)
def digestOk (s : State) (b : Bool) : Bool :=
  decide (sha256 (flashBytes s (flashSlot b + 0x1000) (bodyLen s b)) = flashBytes s (flashSlot b + 32) 32)
def rollbackOk (s : State) (b : Bool) : Bool := decide (s.fw.rollback ≤ secVersion s b)

/-- An authentic image (R106). -/
def authentic (s : State) (b : Bool) : Bool :=
  headerOk s b && keyHashOk s b && signatureOk s b && digestOk s b && rollbackOk s b

/-- NOR programming only clears bits (R107). -/
def programFlash (s : State) (a : Nat) : List Byte → State
  | [] => s
  | x :: r => programFlash (s.modFlashByte a (fun o => o &&& x)) (a + 1) r

/-- Candidates (R108), highest generation first; slot A first where they are equal. -/
def imageCands (s : State) : List Bool :=
  let l := [false, true].filter (fun b => headerOk s b && (slotTrial s b || slotConfirmed s b) && rollbackOk s b)
  if l = [false, true] ∧ slotGeneration s false < slotGeneration s true then [true, false] else l

/-- The choice of R108 over the candidates: TRY bits are cleared as it goes. -/
def bootSelect : List Bool → State → State × Option Bool
  | [], s => (s, none)
  | b :: r, s =>
    if slotTrial s b && decide (slotTry s b = 0xFFF8) then bootSelect r (programFlash s (commitAt b + 6) (toBytes 2 0x0A0A))
    else if authentic s b then
      let t := slotTry s b
      (if slotTrial s b then programFlash s (commitAt b + 4) (toBytes 2 (t &&& (t - 1))) else s, some b)
    else bootSelect r s

/-! The read format of the flash (R434). -/

/-- Order of choice. -/
def flashOrder : List FlashFmt := [.f888, .f118, .f444, .f144, .f114, .f111]

/-- The strap allows the format (R432, R433): lanes wired. -/
def strapAllows (wsel : BitVec 2) : FlashFmt → Bool
  | .f888 | .f118 => decide (wsel = 2)
  | .f444 | .f144 | .f114 => decide (wsel = 1) || decide (wsel = 2)
  | .f111 => true

/-- The SAMPLE_DELAY values that match at a format and speed, as the flash answers. -/
def delayMask (env : BootEnv) (f : FlashFmt) (mhz : Nat) : Nat :=
  match env.reads.find? (fun e => decide (e.1 = f) && decide (e.2.1 = mhz)) with
  | some e => e.2.2.toNat
  | none => 0

/-- Length of the run of matches from delay `k`. -/
def runFrom (m : Nat) : Nat → Nat → Nat
  | 0, _ => 0
  | n + 1, k => if bit m k then runFrom m n (k + 1) + 1 else 0

/-- The middle of the longest run of matches: the first of equal runs, the lower of two middles. -/
def middleDelay (m : Nat) : Nat :=
  let len := fun k => runFrom m (8 - k) k
  let k := (List.range 8).foldl (fun best k => if len best < len k then k else best) 0
  k + (len k - 1) / 2

/-- At 1-1-1, SCK is halved until a read matches or it falls below 12.5 MHz; `top` MHz divided by 2^k. -/
def halveSck (env : BootEnv) (top : Nat) : Nat → Nat → Option (FlashFmt × Nat × Nat)
  | 0, _ => none
  | n + 1, k =>
    if 2 * top < 25 * 2 ^ k then none
    else
      let m := delayMask env .f111 (top / 2 ^ k)
      if m = 0 then halveSck env top n (k + 1) else some (.f111, top / 2 ^ k, middleDelay m)

/-- Formats in order, stepping back while no SAMPLE_DELAY matches. -/
def formatFrom (env : BootEnv) (top : Nat) : List FlashFmt → Option (FlashFmt × Nat × Nat)
  | [] => none
  | f :: r =>
    if f = .f111 then halveSck env top 4 0
    else
      let m := delayMask env f top
      if m = 0 then formatFrom env top r else some (f, top, middleDelay m)

/-- Format, SCK and SAMPLE_DELAY of boot steps 5 and 6; none: the boot enters recovery (R434). -/
def chooseFormat (wsel : BitVec 2) (env : BootEnv) : Option (FlashFmt × Nat × Nat) :=
  match env.sfdp with
  | none => halveSck env 50 4 0
  | some t =>
    formatFrom env (min 100 t.maxMHz)
      (flashOrder.filter (fun f => decide (f = .f111) || (t.formats.contains f && strapAllows wsel f)))

/-! Boot steps. -/

/-- Entry `i` of the 64 entries of the boot log (R100): the spec gives none of their contents, so all are free. -/
def bootEntry (n i : Nat) : LogEntry :=
  let f := fun k => Config.freeValue (n + 5 * i + k)
  { time := f 0 % two64, code := w16 (f 1), a0 := w16 (f 2), a1 := w16 (f 3), a2 := w16 (f 4) }

/-- The boot log of this boot. -/
def writeBootLog (s : State) : State :=
  { s with
    free := s.free + 320
    fw := { s.fw with bootLog := (List.range 64).map (bootEntry s.free) } }

/-- Recovery (R34, R103): MB0 alone is served; BOOT_IMAGE. -/
def enterRecovery (s : State) : State :=
  let s := { s with clk := { s.clk with phase := .recovery, restarting := false, activating := false } }
  let s := s.modMbx 0 (fun m => { m with state := .idle })
  s.condition 0x12 1 true

/-- Select and verify the image (R108); none leads to recovery. -/
def selectBoot (s : State) : State × Bool :=
  let (s, b) := bootSelect (imageCands s) s
  match b with
  | some b => ({ s with clk := { s.clk with imageSlot := b } }, true)
  | none => (enterRecovery s, false)

/-- A port that is off begins to train (R400). -/
def trainPort (s : State) (p : Nat) : State :=
  s.modPort p (fun q => if q.step = .off then { q with step := .detect } else q)

/-- Torn slots of the trip log (R475), the slot being written apart. -/
def tornSlots (s : State) : List Nat :=
  (List.range (tripNext s)).filter (fun i =>
    let w := (List.range 16).map (fun k => s.tripWord (16 * i + k))
    decide (s.sup.tripOpen ≠ some i) && decide (w.getD 15 0 ≠ w16 (crc16 (wordsMsb (w.take 15)))))

/-- What outlasts the loss of every supply: the non-volatile stores (R48), and the model's own queue and counter. -/
def coldState (s : State) : State :=
  { pending := s.pending
    free := s.free
    bus := { ({} : Bus) with uniqueId := s.bus.uniqueId }
    fw := { ({} : Firmware) with rollback := s.fw.rollback }
    ser := { ({} : Serial) with flash := s.ser.flash }
    sup := { ({} : Supervision) with tripLog := s.sup.tripLog }
    cal := { ({} : Calibration) with keep := s.cal.keep, wear := s.cal.wear } }

/-- Class A (R9, R48) is added to a cold state: RESET_CAUSE, the wake configuration, the shutdown latch. The watchdog
restarts counted so far count on from the new chip time 0. -/
def keepClassA (s t : State) : State :=
  { t with
    clk := { t.clk with
      resetCause := s.clk.resetCause
      imageSlot := s.clk.imageSlot
      wdogTimes := (s.clk.wdogTimes.filter (fun x => decide (s.now < x + 32000000000))).map (fun _ => 0)
      wakeTin0 := s.clk.wakeTin0
      wakeLane := s.clk.wakeLane
      tin0Falling := s.clk.tin0Falling
      aonOk := s.clk.aonOk }
    sup := { t.sup with
      shutdown := s.sup.shutdown
      shutCause := s.sup.shutCause
      shutTime := s.sup.shutTime
      shutTemp := s.sup.shutTemp
      analogueOff := s.sup.shutdown
      shedSlow := s.sup.shutdown } }

/-- Boot from step 3 (R32, R35, R475): the seed record, the calibration image, the scan of the trip log. -/
def bootFrom3 (s : State) : State :=
  (tornSlots s).foldl (fun s i => s.raise 0x1A 11 i) (bootStep3 s)

end Sys2Proof.Machine
end

