-- ==== Sys2Proof/Machine/Chip.lean ====
section
/-! DEFINITION. The rows of spec/02 that are events: resets, boot, reference, watchdog, power states. The commands of
spec/02 are in Firmware. -/

namespace Sys2Proof.Machine

/-! Power-on and resets. -/

/-- POWER_ON_RESET (R32, R35, R433): boot steps 1 to 3. VDD_AON can only rise from off, or from the moment of
`State.reset`. -/
def execPowerOnReset (wsel : BitVec 2) (s : State) : Host.Outcome State Fault Refusal :=
  .next (
    if s.clk.phase = .off ∨ s.clk.phase = .released then
      let s := setCause (coldState s) 0
      bootFrom3 { s with clk := { s.clk with wsel := wsel } }
    else s)

/-- POWER_LOSS (R9, R550): nothing volatile outlasts it, class A included; every pad is high impedance. -/
def execPowerLoss (s : State) : Host.Outcome State Fault Refusal :=
  .next (
    let s := coldState s
    { s with clk := { s.clk with phase := .off } })

/-- PIN_RESET (R35, R564): RESET_N low for at least 1 µs, held while it is low. -/
def execPinReset (lowNs : Nat) (s : State) : Host.Outcome State Fault Refusal :=
  .next (if lowNs < 1000 then s else chipReset s .pin 1 (s.now + (lowNs * 16 + 4) / 5) false)

/-- RESET_END (R37): classes C, W, B and V are at their defaults, the beds get their sync pulse (R169), and the boot goes on
from step 3. -/
def execResetEnd (s : State) : Host.Outcome State Fault Refusal :=
  .next (
    if s.clk.resetting.isNone then s
    else
      let s := s.reach s.clk.resetEnd
      let s := if s.clk.resetByFault then { s with clk := { s.clk with faultResetEnd := some s.now } } else s
      bootFrom3 (syncBeds (clearClasses s) (List.range 16)))

/-- BLOCK_RESET_END (R41, R99): the block returns to service; window monitors of a bed re-initialise (R339), and the bed gets
a sync pulse (R169). -/
def execBlockResetEnd (k : Block) (s : State) : Host.Outcome State Fault Refusal :=
  .next (
    if s.blkReset k.val then
      let s := s.modBlkReset k.val (fun _ => false)
      let s := if k.val < 16 then syncBeds (wmInitBed s k.val) [k.val] else s
      let s := if k.val = 0x14 then startFetch s else s
      let s := if k.val = 0x18 then
          let s := { s with ser := { s.ser with sp0Busy := false } }
          (match s.ser.xipWait with
           | some o => if sp0Held s then s else xipServe s o
           | none => s)
        else s
      if waitsFor s (.blockReset k) then postOk s else s
    else s)

/-! Boot. -/

/-- DRAM_MIB (R54, R204): a configuration of 4 to 32 GiB, else 0. -/
def foundDram (mib : Nat) : Nat := if 4096 ≤ mib ∧ mib ≤ 32768 then mib else 0

/-- PLL_LOCK (R32, R33, R434, R108): boot steps 4 to 8. Without REFCLK the boot holds at step 4, and CLK raises
REF_ABSENT_BOOT. Chip time starts at 0 unless it has been counting. The root-side port trains first (R401). -/
def execPllLock (env : BootEnv) (s : State) : Host.Outcome State Fault Refusal :=
  .next (
    if s.clk.phase ≠ .seeded ∨ s.clk.resetting.isSome then s
    else if !(s.clk.refPresent || env.refclk) then s.condition 0x10 1 true
    else
      let time := if s.clk.pllLocked || s.clk.holdover then s.now else 0
      let s := { s with
        clk := { s.clk with time := time, wdogServed := time, refPresent := true, pllLocked := true, holdover := false }
        bus := { s.bus with dramMib := foundDram env.dramMib } }
      let s := syncBeds (writeBootLog (trainPort ((s.live 0x10 0 false).live 0x10 1 false) 0)) (List.range 16)
      match chooseFormat s.clk.wsel env with
      | none => enterRecovery s
      | some (f, sck, delay) =>
        let s := { s with ser := { s.ser with format := f, sck := sck, sampleDelay := delay } }
        let (s, ok) := selectBoot s
        if ok then { s with clk := { s.clk with phase := .started } } else s)

/-- Opcodes whose completion the firmware sequences (R102): SEG_LOAD, WAVE_LOAD, CAL_RUN, CAL_COMMIT, FW_UPDATE_BEGIN. -/
def sequencedOpcodes : List Nat := [0x0300, 0x040A, 0x0B00, 0x0B01, 0x0009]

/-- The COMPLETION of each entry of the firmware's own work that a restart left RUNNING (R102), an entry among them whose
record was still to come: the firmware that would have generated it is gone. -/
def faultedWork (s : State) : State :=
  let l := (tents s.fw.progress).filter (fun e => decide (e.2.state = .running) && sequencedOpcodes.contains e.2.opcode.toNat)
  let s := { s with harv := { s.harv with ends := s.harv.ends.filter (fun x => !l.any (fun e => decide (e.1 = x.tag))) } }
  l.foldl (fun s e => endWork s (workEnd s e.1 e.2.ring.toNat 0x20 0x12 0 0 2 7 e.2.output e.2.steps)) s

/-- READY (R32 step 9, R40 step 4, R72, R101): every mailbox IDLE, the identity of the firmware readable. -/
def reportReady (s : State) : State :=
  let s := { s with
    clk := { s.clk with phase := .ready, restarting := false, activating := false, wdogRunning := s.clk.wdogPeriod, wdogServed := s.now }
    bus := { s.bus with
      fwRelease := w16 (flashNum s (imageBase s + 8) 2)
      cmdsetMax := w16 (flashNum s (imageBase s + 10) 2) } }
  let s := (List.range 8).foldl (fun s n => s.modMbx n (fun m => { m with state := .idle })) s
  faultedWork s

/-- FIRMWARE_READY (R32, R40, R101, R102): an activation restart first selects and verifies the image (R108, R111). -/
def execFirmwareReady (s : State) : Host.Outcome State Fault Refusal :=
  .next (
    if s.clk.resetting.isSome then s
    else if s.clk.restarting then
      if s.clk.activating then
        let (s, ok) := selectBoot s
        if ok then reportReady s else s
      else reportReady s
    else if s.clk.phase = .started then reportReady s
    else s)

/-! REFCLK (R28 to R31). -/

/-- REF_LOST (R28 to R30): a window outside 88 to 104 edges, while the PLL is locked. -/
def execRefLost (edges : Nat) (s : State) : Host.Outcome State Fault Refusal :=
  .next (
    if s.clk.pllLocked ∧ (edges < 88 ∨ 104 < edges) then
      let s := { s with
        clk := { s.clk with refPresent := false, pllLocked := false, holdover := true, refLostSticky := true }
        link := { s.link with syncValid := false } }
      let s := (s.noteSet 0x1C08 8).condition 0x10 0 true
      let s := (List.range 64).foldl (fun s q => latchStop s q 3 false) s
      interruptCal s (fun r => decide (r.kind < 3)) 9 3
    else s)

/-- REFCLK_RETURN (R28, R31, R33): 64 consecutive periods with 2 900 to 3 200 edges each, while the PLL is unlocked. -/
def execRefclkReturn (counts : List Nat) (s : State) : Host.Outcome State Fault Refusal :=
  .next (
    let last := counts.drop (counts.length - 64)
    if !s.clk.pllLocked ∧ last.length = 64 ∧ last.all (fun n => decide (2900 ≤ n) && decide (n ≤ 3200)) then
      ({ s with clk := { s.clk with refPresent := true } }.live 0x10 0 false).live 0x10 1 false
    else s)

/-- PLL_RELOCK (R31): after holdover, without a step of chip time. -/
def execPllRelock (s : State) : Host.Outcome State Fault Refusal :=
  .next (if s.clk.holdover && s.clk.refPresent then { s with clk := { s.clk with pllLocked := true, holdover := false } } else s)

/-! The watchdog (R38, R40). -/

/-- The shed runs firmware that services the watchdog. -/
def shedRuns (s : State) : Bool :=
  !s.clk.restarting && !deeper s && (decide (s.clk.phase = .started) || decide (s.clk.phase = .ready))

/-- The watchdog has not been serviced for the period that runs (R38, R72). -/
def wdogDue (s : State) : Nat := s.clk.wdogServed + 3200000 * s.clk.wdogRunning

/-- WATCHDOG_EXPIRY (R38, R40 step 1): the period that runs has passed since the last service; WDOG, its D0 the restarts
of the window with this one. -/
def execWatchdogExpiry (s : State) : Host.Outcome State Fault Refusal :=
  .next (
    if shedRuns s then
      let s := s.reach (wdogDue s)
      watchdogRestart (s.raise 0x12 0 (min 7 (wdogCount s + 1))) false
    else s)

/-- ACTIVATION_RESTART (R103, R111): 1 ms after the response; in recovery a chip reset, which no RESET_CAUSE bit names. -/
def execActivationRestart (s : State) : Host.Outcome State Fault Refusal :=
  .next (match s.clk.activationDue with
    | none => s
    | some t =>
      let s := s.reach t
      let s := { s with clk := { s.clk with activationDue := none } }
      if s.clk.phase = .recovery then chipReset s .chip 7 (s.now + 32000) false else watchdogRestart s true)

/-- TRAP_TIMEOUT (R35, R518): a trap not acknowledged within the watchdog period. -/
def execTrapTimeout (s : State) : Host.Outcome State Fault Refusal :=
  .next (match s.fw.traps with
    | [] => s
    | (_, _, t) :: _ => watchdogRestart (s.reach (t + 3200000 * s.clk.wdogRunning)) false)

/-! Power states (R42 to R47). -/

/-- DEEP_ENTRY (R42, R43): everything but the always-on domain is off. DRAM sleeps with its contents. -/
def execDeepEntry (s : State) : Host.Outcome State Fault Refusal :=
  .next (match s.clk.deepDue with
    | none => s
    | some t =>
      let s := s.reach t
      let c := keepClassA s (coldState s)
      { c with clk := { c.clk with phase := .deep }, pat := { c.pat with dram := s.pat.dram } })

/-- The wake source is enabled (R42, R43). -/
def wakes (s : State) : Wake → Bool
  | .tin0 rising => s.clk.wakeTin0 && decide (s.clk.tin0Falling = !rising)
  | .lane => s.clk.wakeLane
  | .resetN => true

/-- DEEP_WAKE (R35, R42, R47): a power-on reset that keeps class A, from boot step 3. -/
def execDeepWake (cause : Wake) (wsel : BitVec 2) (s : State) : Host.Outcome State Fault Refusal :=
  .next (
    if s.clk.phase = .deep ∧ wakes s cause = true then
      let s := setCause (setCause s 0) 6
      bootFrom3 { s with clk := { s.clk with wsel := wsel } }
    else s)

/-- STANDBY_EXIT_COMPLETE (R46, R50): once the first complete read-back round has passed, outputs connect, in cloche if
one is latched; window monitors re-initialise, FIFOs
and the regions' class V state clear. -/
def execStandbyExitComplete (b : Bed) (s : State) : Host.Outcome State Fault Refusal :=
  .next (
    let b := b.val
    if s.stbyExit b ∧ s.bedPow b = .active ∧ 1 ≤ (s.mon b).rounds then
      let s := syncBeds (s.modStbyExit b (fun _ => false)) [b]
      let s := (bedLoops b).foldl (fun s l => s.modLoop l (fun x => { x with regions := { x.regions with known := false } })) s
      let s := [2 * b, 2 * b + 1].foldl (fun s u => s.modTiu u (fun x => { x with fifo := [], overflow := 0, gapNext := false })) s
      let s := resumeClocks (wmInitBed s b) b
      if waitsFor s .standbyExit ∧ (List.range 16).all (fun b => !s.stbyExit b || decide (s.bedPow b ≠ .active)) then postOk s else s
    else s)

/-- A staging bank waits for the ring writer (R45, R370): the demand that wakes the memory controllers. -/
def dramDemand (s : State) : Bool := (tents s.harv.stager).any (fun e => e.2.handed || !e.2.fills.isEmpty)

/-- DRAM_WAKE_COMPLETE (R45): within 20 µs of the demand; a BULK message wakes as it is consumed. -/
def execDramWakeComplete (s : State) : Host.Outcome State Fault Refusal :=
  .next (if dramDemand s then { s with clk := { s.clk with dramSleep := false } } else s)

/-- DRAM_SELF_REFRESH_TIMEOUT (R45): 100 µs without demand, in IDLE with STEM = 1. -/
def execDramSelfRefreshTimeout (s : State) : Host.Outcome State Fault Refusal :=
  .next (if s.clk.stemIdle && !dramDemand s then { s with clk := { s.clk with dramSleep := true } } else s)

end Sys2Proof.Machine
end

