-- ==== Sys2Proof/Machine/Firmware.lean ====
section
/-! DEFINITION. The firmware's pick and header checks (spec/04 R81 to R89) and the system commands (spec/04 R90 to R100,
spec/02 R42 to R47). -/

namespace Sys2Proof.Machine

/-! LENGTH and completion of every command (R83, R89 and the home chapters). -/

/-- What the header checks need of a command: not defined in the revision; or its LENGTH (none where an unknown ACTION
leaves none), whether it answers ACCEPTED, and the checks that name an unknown ACTION. -/
inductive Shape
  | undefined
  | command (len : Option Nat) (accepted : Bool) (action : List (Option Bad))
deriving DecidableEq, Repr

/-- A command of one form. -/
def plainShape (n : Nat) (accepted : Bool := false) : Shape := .command (some n) accepted []

/-- A command whose ACTION in word `w` selects LENGTH and completion; `pre` are the words before it. -/
def actionShape (c : Current) (pre : List (Option Bad)) (w : Nat) (l : List (Nat × Bool)) : Shape :=
  match l[par c w]? with
  | some (n, acc) => .command (some n) acc []
  | none => .command none false (pre ++ [some (0x12, w)])

/-- A command of one LENGTH whose ACTION in word `w` must be below `n`. -/
def boundedShape (c : Current) (len w n : Nat) (accepted : Bool) (pre : List (Option Bad)) : Shape :=
  .command (some len) accepted (if par c w < n then [] else pre ++ [some (0x12, w)])

/-- LENGTH of TS_WRITE (R178, R180); 121 is never met. -/
def tsLength (c : Current) : Nat :=
  let g := (maskList 8 (par c 2 / 256)).length
  if bit (par c 2) 1 then 3 else if g ≤ 6 then 5 + 19 * g else 121

/-- The system group (R89, R95). -/
def systemShape (c : Current) (recovery : Bool) (op : Nat) : Shape :=
  if recovery && [3, 4, 5, 6, 7, 8].contains op then .undefined
  else match op with
    | 0 => plainShape 2
    | 1 | 2 => plainShape 0
    | 3 | 4 | 8 => plainShape 1
    | 5 | 6 => plainShape 2
    | 7 => boundedShape c 3 0 4 false []
    | 9 => plainShape 3 (!recovery)
    | 10 => plainShape (3 + par c 2 / 2)
    | 11 => boundedShape c 2 0 2 false []
    | 12 => plainShape 4
    | _ => .undefined

/-- Pins and timing (R89, R145, R178, R182). -/
def pinShape (c : Current) (op : Nat) : Shape :=
  match op with
  | 0x0100 => plainShape (3 + par c 2)
  | 0x0101 => plainShape 23
  | 0x0102 => boundedShape c 7 0 4 false []
  | 0x0103 | 0x0104 => plainShape 3
  | 0x0200 => plainShape (tsLength c)
  | 0x0201 => boundedShape c 15 2 3 false
      [needParam (decide (par c 0 < 16)) 0, needParam (decide (par c 1 < 4)) 1]
  | _ => .undefined

/-- Pattern sequencing (R89, R220 to R229). -/
def patternShape (s : State) (c : Current) (op : Nat) : Shape :=
  match op with
  | 0x0300 => plainShape 8 true
  | 0x0301 => boundedShape c 2 1 4 false [needParam (decide (par c 0 < 16384) && (s.segm (par c 0)).registered) 0]
  | 0x0302 => actionShape c [needParam (decide (par c 0 < 4)) 0] 1
      [(5 + par c 4, false), (5 + par c 4, false), (5, false), (5, false)]
  | 0x0303 => plainShape 14 true
  | 0x0304 | 0x0305 => plainShape 5
  | _ => .undefined

/-- Loops and loop engines (R269 to R274, R311 to R317). -/
def loopShape (c : Current) (op : Nat) : Shape :=
  match op with
  | 0x0400 => plainShape 8
  | 0x0401 => plainShape 10
  | 0x0402 | 0x0403 => plainShape 9
  | 0x0404 => plainShape (2 + 5 * par c 1)
  | 0x0405 => plainShape 13 true
  | 0x0406 => plainShape (if bit (par c 2) 0 then 3 else 20)
  | 0x0407 => actionShape c (needLoops c 0) 2 [(22, false), (37, false), (3, false)]
  | 0x0408 => actionShape c (needLoops c 0) 2 [(41, false), (9, false), (41, false), (9, false)]
  | 0x0409 => plainShape 16 true
  | 0x040A => plainShape 6 true
  | 0x040B => actionShape c (needLoops c 0) 2 [(15 + 4 * par c 14, true), (4, false), (4, false)]
  | 0x040C => boundedShape c 24 2 3 (decide (par c 2 = 0)) (needLoops c 0)
  | _ => .undefined

/-- Measurement, time intervals, window monitors (R344 to R347, R366, R367). -/
def measShape (c : Current) (op : Nat) : Shape :=
  match op with
  | 0x0500 => plainShape 5
  | 0x0501 => actionShape c [] 0 [(19, true), (4, false)]
  | 0x0502 => actionShape c [] 0 [(17, true), (3, false)]
  | 0x0600 => plainShape 10
  | 0x0601 => actionShape c [] 0 [(12, true), (3, false)]
  | 0x0700 => actionShape c [] 0 [(10, false), (3, false), (3, false), (3, false), (3, false)]
  | _ => .undefined

/-- Rings, stages, supervision, calibration, faults (R89, R392, R394, R449, R450, R478 to R480, R503 to R507, R532 to
R534). -/
def otherShape (c : Current) (op : Nat) : Shape :=
  match op with
  | 0x0800 => plainShape 6
  | 0x0801 => plainShape 1
  | 0x0802 => plainShape 7
  | 0x0900 => actionShape c [] 0 [(8, false), (8, false), (5 + par c 3, false)]
  | 0x0901 => boundedShape c 4 1 2 false [needParam (decide (par c 0 < 16)) 0]
  | 0x0A00 => actionShape c [] 0 [(17, false), (13, false), (6, false), (3, false)]
  | 0x0A01 => plainShape 10
  | 0x0A02 => plainShape 2
  | 0x0B00 => plainShape 7 true
  | 0x0B01 => plainShape 0 true
  | 0x0B02 => boundedShape c 3 0 3 false []
  | 0x0B03 => actionShape c [needParam (decide (par c 0 = 0) || decide (par c 0 = 2)) 0] 1
      [(5 + par c 4 / 2, false), (5, false), (5, false), (5, false)]
  | 0x0B04 => plainShape 4
  | 0x0C00 => plainShape (if bit (par c 3) 0 then 4 else 4 + par c 2)
  | 0x0C01 => plainShape 7
  | 0x0C02 => plainShape (if bit (par c 1) 0 then 2 else 15)
  | _ => .undefined

/-- The form of a command; the parameter words are all 120 of the mailbox (R89). In recovery only the subset of R95. -/
def shapeOf (s : State) (c : Current) (recovery : Bool) : Shape :=
  let op := c.opcode.toNat
  if op < 0x100 then systemShape c recovery op
  else if recovery then .undefined
  else if op < 0x300 then pinShape c op
  else if op < 0x400 then patternShape s c op
  else if op < 0x500 then loopShape c op
  else if op < 0x800 then measShape c op
  else otherShape c op

/-- A header word: BAD_PARAM, DETAIL 0xFF00 + its offset (R87). -/
def needHeader (ok : Bool) (off : Nat) : Option Bad := if ok then none else some (0x12, 0xFF00 + off)

/-- Check 3 (R83, R88, R89): TAG, LENGTH, FLAGS, RING, word 5. -/
def headerChecks (s : State) (c : Current) (length word5 : Nat) (len : Option Nat) (accepted : Bool) : List (Option Bad) :=
  let fl := c.flags.toNat
  [needHeader (!accepted || (decide (1 ≤ c.tag.toNat) && decide (c.tag.toNat ≤ 0xFFF))) 1,
   needHeader (len.all (fun n => decide (length = n) && decide (n ≤ 120))) 2,
   needHeader (decide (fl < 4) && (!accepted || bit fl 1)) 3,
   needHeader (!accepted || decide ((s.ring c.ring.toNat).state ≠ .free)) 4,
   needHeader (decide (word5 = 0)) 5]

/-- Checks 1 to 3 of R88, and an unknown ACTION. -/
def pickChecks (s : State) (full : Current) (m : Mailbox) : List (Option Bad) :=
  let op := full.opcode.toNat
  match shapeOf s full (decide (s.clk.phase = .recovery)) with
  | .undefined => [some (0x11, 0)]
  | .command len acc action =>
    [needState (decide (op ≤ 1) || decide (s.fw.rev ≠ 0)) 0] ++
    headerChecks s full m.length.toNat m.word5.toNat len acc ++ action

/-! The pick (R81). -/

/-- The firmware executes no command and is in service (R81, R103). -/
def firmwareFree (s : State) : Bool :=
  s.fw.current.isNone && s.clk.resetting.isNone && !s.clk.restarting &&
    (decide (s.clk.phase = .ready) || decide (s.clk.phase = .recovery))

/-- POSTED mailboxes that the firmware, or the boot logic, serves. -/
def postedBoxes (s : State) : List Nat :=
  (if s.clk.phase = .recovery then [0] else List.range 8).filter (fun n => decide ((s.mbx n).state = .posted))

/-- The mailbox picked next: the lowest that has been passed over eight times, else the lowest. -/
def nextBox (s : State) : Option Nat :=
  let l := postedBoxes s
  match l.find? (fun n => decide (8 ≤ (s.mbx n).passed)) with
  | some n => some n
  | none => l.head?

/-- The firmware acknowledges the traps taken since it last ran (R518), each with an entry of the event log; the codes
are the firmware's own: free values. -/
def ackTraps (s : State) : State :=
  let l := s.fw.traps
  l.foldl (fun s e =>
    let code := s.freeNat
    let s := s.takeFree
    let a2 := s.freeNat
    fwLog s.takeFree (w16 code) (w16 e.1) (w16 e.2.1) (w16 a2)) { s with fw := { s.fw with traps := [] } }

/-- The command half of mailbox `n` as it is copied, with all 120 parameter words. -/
def copyBox (s : State) (n : Mbox) : Current :=
  let m := s.mbx n.val
  { mb := n, opcode := m.opcode, tag := m.tag, flags := m.flags, ring := m.ring,
    params := tread (fun _ => 0) m.param 0 120, pick := s.now, wait := .nothing, reply := [] }

/-- FW_COMMIT.ARM is cleared when the command completes or fails (R74, R111). -/
def disarmCommit (s : State) : State := { s with bus := { s.bus with fwCommit := s.bus.fwCommit &&& 2 } }

/-- The answer of a command that fails a check of the pick (R88); FW_UPDATE_COMMIT disarms FW_COMMIT (R111). -/
def failPick (s : State) (opcode : Word) (b : Bad) : State :=
  postBad (if opcode = 0x000B then disarmCommit s else s) b

/-- The firmware services the watchdog (R38, R75): the interval begins anew, with the period as it now stands (R72). -/
def serviceWatchdog (s : State) : State :=
  { s with clk := { s.clk with wdogRunning := s.clk.wdogPeriod, wdogServed := s.now } }

/-- Mailbox `n` enters EXECUTING, and its command is copied and checked (R81, R88). -/
def pickBox (s : State) (n : Nat) : State :=
  let full := copyBox s (Fin.ofNat 8 n)
  let m := s.mbx n
  let s := (postedBoxes s).foldl (fun s k => s.modMbx k (fun m => { m with passed := if k = n then 0 else min 8 (m.passed + 1) })) s
  let s := s.modMbx n (fun m => { m with state := .executing })
  let c := { full with params := full.params.take (min 120 m.length.toNat) }
  let s := { s with fw := { s.fw with current := some c } }
  match firstBad (pickChecks s full m) with
  | some b => failPick s full.opcode b
  | none => s

/-- FIRMWARE_PICK (R81, R88, R1): the firmware runs, and so it services the watchdog (DEDUCED 166). A command other than HELLO and GET_INFO under revision 2 is outside the manual. -/
def execFirmwarePick (s : State) : Host.Outcome State Fault Refusal :=
  if firmwareFree s then
    let s := ackTraps (serviceWatchdog s)
    match nextBox s with
    | none => .next s
    | some n =>
      if s.fw.rev = 2 ∧ 2 ≤ (s.mbx n).opcode.toNat then .refused (.revisionOutsideManual 2)
      else .next (pickBox s n)
  else .next s

/-! HELLO to LOG_READ (R90 to R100). -/

/-- Revisions offered (R90, R103). -/
def offered (s : State) : List Nat := if s.clk.phase = .recovery then [3] else [3, 2]

/-- HELLO (R90, R91). -/
def execHello (s : State) : Host.Outcome State Fault Refusal :=
  .next (onCommand s 0x0000 (fun _ => true) (fun c =>
    match (offered s).find? (fun r => decide (par c 0 ≤ r) && decide (r ≤ par c 1)) with
    | none => checked s [needParam (decide (par c 0 ≤ par c 1)) 1, some (0x12, 0x8001)] id
    | some r =>
      checked s [needParam (decide (par c 0 ≤ par c 1)) 1]
        (fun s => postOk { s with fw := { s.fw with rev := r } }
          [w16 r, s.bus.fwRelease, 3, 8, 120, 0x0FFF])))

/-- GET_INFO (R96, R103). -/
def execGetInfo (s : State) : Host.Outcome State Fault Refusal :=
  .next (onCommand s 0x0001 (fun _ => true) (fun _ =>
    let b := s.clk.imageSlot
    let slot : List Word := if s.clk.phase = .recovery then [0xFFFF, 0, w16 s.fw.rollback, 0, 0, 0, 1]
      else [w16 (b2n b), w16 (secVersion s b), w16 s.fw.rollback] ++ toWords 2 (slotGeneration s b) ++ [w16 (b2n (slotTrial s b)), 0]
    postOk s ([s.bus.fwRelease, w16 s.fw.rev, 3] ++ slot ++ toWords 4 s.bus.uniqueId.toNat)))

/-- Beds in STANDBY, a bed that is leaving it included (R42, R46). -/
def bedStandby (s : State) (b : Nat) : Bool := decide (s.bedPow b = .standby) || s.stbyExit b

/-- GET_STATUS (R97). -/
def execGetStatus (s : State) : Host.Outcome State Fault Refusal :=
  .next (onCommand s 0x0002 (fun _ => true) (fun _ =>
    let beds := fun (p : Nat → Bool) => w16 (maskOf ((List.range 16).filter p))
    postOk s (
      [w16 (flag 0 s.sup.shutdown + flag 1 (clocheChipBit s) + flag 2 s.link.syncValid + flag 3 s.clk.holdover +
          flag 4 s.flt.armed + flag 5 s.cal.seedFallback),
       beds (bedHeld s), beds (fun b => decide (s.bedPow b = .idle)), beds (bedStandby s), beds (calHoldsBed s),
       w16 ((List.range 5).foldl (fun a z => a + throttleLevel s z * 4 ^ z) 0)] ++
      toWords 4 (maskOf ((List.range 64).filter (seqBusy s))) ++
      toWords 2 (maskOf ((List.range 32).filter (fun h => decide ((s.loop (512 + h)).state = .regulating ∨ (s.loop (512 + h)).state = .settling)))) ++
      [w16 ((tents s.fw.progress).filter (fun e => decide (e.2.state = .running))).length] ++
      toWords 2 (maskOf ((List.range 28).filter (fun k => (s.fblk k).ffValid))))))

/-- The runs of the loops that carry the tag. -/
def taggedLoops (s : State) (tag : Nat) : List Nat :=
  ((tents s.lp.loop).filter (fun e => match runOf e.2.source with | some (t, _, _) => decide (t = tag) | none => false)).map (fun e => e.1)
def taggedSeqs (s : State) (tag : Nat) : List Nat :=
  ((tents s.pat.seq).filter (fun e => decide (e.2.mode ≠ .idle) && decide (e.2.tag = tag))).map (fun e => e.1)
def taggedMeas (s : State) (tag : Nat) : List Nat :=
  ((tents s.meas.avg).filter (fun e => e.2.run.any (fun r => decide (r.tag = tag)))).map (fun e => e.1)
def taggedLocks (s : State) (tag : Nat) : List Nat :=
  ((tents s.meas.avg).filter (fun e => e.2.lock.any (fun r => decide (r.tag = tag)))).map (fun e => e.1)
def taggedUnits (s : State) (tag : Nat) : List Nat :=
  ((tents s.meas.unit).filter (fun e => e.2.run.any (fun r => decide (r.tag = tag)))).map (fun e => e.1)

/-- VECTORS and STEPS that the engine of a RUNNING entry counts (R92). -/
def liveCounts (s : State) (tag : Nat) : Nat × Nat :=
  let p := s.prog tag
  match taggedSeqs s tag, taggedLoops s tag, taggedMeas s tag, taggedLocks s tag, taggedUnits s tag with
  | q :: _, _, _, _, _ => ((s.seq q).vectors, (s.seq q).steps)
  | _, l :: _, _, _, _ => (p.vectors, match runOf (s.loop l).source with | some (_, _, n) => n | none => p.steps)
  | _, _, k :: _, _, _ => (p.vectors, match (s.avg k).run with | some r => r.done | none => p.steps)
  | _, _, _, k :: _, _ => (p.vectors, match (s.avg k).lock with | some r => r.done | none => p.steps)
  | _, _, _, _, u :: _ => (p.vectors, match (s.tiu u).run with | some r => r.done | none => p.steps)
  | _, _, _, _, _ => (p.vectors, p.steps)

/-- The 18 words of a progress entry (R92). -/
def progressWords (s : State) (tag : Nat) : List Word :=
  let p := s.prog tag
  let counts := if p.state = .running then liveCounts s tag else (p.vectors, p.steps)
  let st := match p.state with | .part => 2 | .done => 1 | _ => 0
  [w16 tag, p.opcode, w16 st, w16 p.stopCause] ++ toWords 3 counts.1 ++ [0] ++ toWords 2 counts.2 ++
    toWords 2 p.lastSeq ++ [p.ring, w16 p.output] ++ toWords 4 p.stopTime

/-- QUERY_PROGRESS (R93). -/
def execQueryProgress (s : State) : Host.Outcome State Fault Refusal :=
  .next (onCommand s 0x0003 (fun _ => true) (fun c =>
    checked s [needParam (decide ((s.prog (par c 0)).state ≠ .none)) 0]
      (fun s => postOk s (progressWords s (par c 0)))))

/-- A work of the firmware's own is given up (R94, R220): its COMPLETION carries PARTIAL, STOP_CAUSE 1. -/
def dropOwn (s : State) (tag : Nat) : State :=
  endWork s (workEnd s tag (s.prog tag).ring.toNat 2 0 0 0 2 1 0 0)

/-- The loads, commit and flash erase that the firmware does for the tag. -/
def stopOwn (s : State) (tag : Nat) : State :=
  let s := if s.pat.loads.any (fun x => decide (x.tag = tag)) then
      dropOwn { s with pat := { s.pat with loads := s.pat.loads.filter (fun x => decide (x.tag ≠ tag)) } } tag else s
  let s := if s.lp.waveLoads.any (fun x => decide (x.tag = tag)) then
      dropOwn { s with lp := { s.lp with waveLoads := s.lp.waveLoads.filter (fun x => decide (x.tag ≠ tag)) } } tag else s
  let s := if s.cal.commit.any (fun x => decide (x.tag = tag)) then
      dropOwn { s with cal := { s.cal with commit := none } } tag else s
  if s.fw.session.any (fun x => decide (x.tag = tag) && !x.erased) then
    dropOwn { s with fw := { s.fw with session := none }, ser := { s.ser with flashOps := [] } } tag else s

/-- The engines stop the tagged work, each at the stop point of its chapter (R94, R217, R266, R308, R334, R363, R489). -/
def stopTagged (s : State) (tag : Nat) : State :=
  let s := (taggedSeqs s tag).foldl (fun s q => latchStop s q 1 false) s
  let s := (taggedLoops s tag).foldl (fun s l => endLoopRun s l 1 2 (nextBoundary s l)) s
  let s := (taggedMeas s tag).foldl (fun s k => cutMeas s k 1) s
  let s := (taggedLocks s tag).foldl (fun s k => cutLock s k 1) s
  let s := (taggedUnits s tag).foldl (fun s u => cutTim s u true 1) s
  let s := { s with cal := { s.cal with run := s.cal.run.map (fun r => if r.tag = tag then { r with aborting := true } else r) } }
  stopOwn s tag

/-- An engine still works for the tag. -/
def tagWorks (s : State) (tag : Nat) : Bool :=
  (taggedSeqs s tag).any (fun q => decide ((s.seq q).mode ≠ .ending)) || s.cal.run.any (fun r => decide (r.tag = tag))

/-- ABORT (R94). -/
def execAbort (s : State) : Host.Outcome State Fault Refusal :=
  .next (onCommand s 0x0004 (fun _ => true) (fun c =>
    let tag := par c 0
    checked s [needParam (decide ((s.prog tag).state ≠ .none)) 0, needState (decide ((s.prog tag).state = .running)) 1]
      (fun s =>
        let s := waitFor (stopTagged s tag) (.abort tag)
        if tagWorks s tag then s else answerAbort s tag)))

/-- BED_MASK and FLAGS of CLOCHE and RELEASE_CLOCHE (R98). -/
def scopeParams (c : Current) : List (Option Bad) :=
  [needParam (!bit (par c 1) 0 || decide (par c 0 = 0)) 0,
   needParam (decide (par c 1 < 4) && (!bit (par c 1) 1 || bit (par c 1) 0)) 1]

/-- CLOCHE (R98). -/
def execCloche (s : State) : Host.Outcome State Fault Refusal :=
  .next (onCommand s 0x0005 (fun _ => true) (fun c =>
    checked s (scopeParams c)
      (fun s => postOk (commandCloche s (bedMask (par c 0)) (bit (par c 1) 0) (bit (par c 1) 1)))))

/-- RELEASE_CLOCHE (R98, R523): HELD names the beds of the scope still in cloche because their cause is live; a bed that
a dead cause of another scope holds is neither in HELD nor among those released. -/
def execReleaseCloche (s : State) : Host.Outcome State Fault Refusal :=
  .next (onCommand s 0x0006 (fun _ => true) (fun c =>
    checked s (scopeParams c)
      (fun s =>
        let chip := bit (par c 1) 0
        let beds := if chip then List.range 16 else bedMask (par c 0)
        let before := beds.filter (bedHeld s)
        let s := releaseCauses s beds chip (bit (par c 1) 1)
        let held := beds.filter (fun b => bedHeld s b && bedCauseLive s b)
        let words := [w16 (maskOf held)]
        if held = [] then postOk s words
        else postResponse s 2 (before.filter (fun b => !bedHeld s b)).length words)))

/-- RESET_BLOCK (R99): SHED and the root-side port, which carries the commands, answer before the reset; the tip-side
port answers when it is back in DETECT; any other block when its reset ends. -/
def execResetBlock (s : State) : Host.Outcome State Fault Refusal :=
  .next (onCommand s 0x0008 (fun _ => true) (fun c =>
    let k := par c 0
    checked s [needParam (decide (k < 28)) 0]
      (fun s =>
        if k = 0x12 ∨ k = 0x16 then blockReset (postOk s) k {}
        else if k = 0x17 then postOk (blockReset s k {})
        else blockReset (waitFor s (.blockReset (Fin.ofNat 28 k))) k {})))

/-- Entries of a log from number FIRST: NEXT, RETURNED, LOST, and the words (R100). `oldest` is the number of the first
entry still held, `entries` those held. -/
def logPart (first count oldest per : Nat) (entries : List (List Word)) : List Word :=
  let start := max first oldest
  let l := (entries.drop (start - oldest)).take (min count (116 / per))
  toWords 2 (start + l.length) ++ [w16 l.length, w16 (min max16 (min first oldest))] ++ l.flatten

/-- An entry's eight words. -/
def logWords (e : LogEntry) : List Word := toWords 4 e.time ++ [e.code, e.a0, e.a1, e.a2]

/-- LOG_READ (R100, R475). -/
def execLogRead (s : State) : Host.Outcome State Fault Refusal :=
  .next (onCommand s 0x000C (fun _ => true) (fun c =>
    let first := par32 c 1
    checked s [needParam (decide (par c 0 < 3)) 0]
      (fun s => postOk s (
        if par c 0 = 0 then logPart first (par c 3) (s.fw.logNext - s.fw.log.length) 8 (s.fw.log.map logWords)
        else if par c 0 = 1 then logPart first (par c 3) 0 8 (s.fw.bootLog.map logWords)
        else logPart first (par c 3) 0 16
          ((List.range 256).map (fun i => (List.range 16).map (fun k => s.tripWord (16 * i + k))))))))

/-! SET_POWER_STATE (R42 to R46). -/

/-- The first of a list of checks whose BAD_STATE carries a DETAIL that the spec does not give: a free value. -/
def checkedOpen (s : State) (params : List (Option Bad)) (ok : Bool) (k : State → State) : State :=
  let d := s.freeNat % 65536
  checked s.takeFree (params ++ [needState ok d]) k

/-- Something of the bed runs (R44); a loop is stopped only in STOPPED, so a gang's member is not (R262). -/
def bedWorks (s : State) (b : Nat) : Bool :=
  bedBusy s b || calHoldsBed s b ||
  (bedLoops b).any (fun l => decide ((s.loop l).state ≠ .stopped) || decide ((s.loop l).source ≠ .dc)) ||
  ((bedLoops b) ++ [2048 + b]).any (fun k => (s.avg k).run.isSome || (s.avg k).lock.isSome) ||
  [2 * b, 2 * b + 1].any (fun u => (s.tiu u).run.isSome)

/-- A sequencer or a stream is active (R44): a burst runs, or a segment is being fetched. -/
def stemWorks (s : State) : Bool :=
  (tents s.pat.seq).any (fun e => decide (e.2.mode ≠ .idle)) || s.pat.fetch.isSome || (nextFetch s).isSome

/-- FLAGS of the request (R43): the bits the state allows. The table says "IDLE only" of STEM and "DEEP only" of WAKE_LANE;
WAKE_TIN0 and TIN0_EDGE, which configure the same wake, are taken with DEEP alone as well (DESIGN CHOICE 165). -/
def needPowerFlags (c : Current) (mask : Nat) : Option Bad := needParam (decide (par c 2 &&& mask = par c 2)) 2

/-- Held loads of the bed take place after IDLE (R132). -/
def heldLoads (s : State) (b : Nat) : State :=
  (shadowsOf s (fun k t => decide (dacBed k = b) && decide (t = .held))).foldl
    (fun s e => loadDac s e.1 e.2 (s.dacst e.1).shadowLevel) s

/-- The read-back round of the bed starts again (R46, R136). -/
def restartRound (s : State) (b : Nat) : State := s.modMon b (fun m => { m with slot := 0, rounds := 0 })

/-- A bed leaves IDLE. -/
def leaveIdle (s : State) (b : Nat) : State :=
  if s.bedPow b = .idle then restartRound (resumeClocks (heldLoads (s.modBedPow b (fun _ => .active)) b) b) b else s

/-- A bed leaves STANDBY: its exit begins. -/
def leaveStandby (s : State) (b : Nat) : State :=
  if s.bedPow b = .standby then restartRound ((s.modBedPow b (fun _ => .active)).modStbyExit b (fun _ => true)) b else s

/-- SET_POWER_ACTIVE (R42, R43): answered once every named bed is ACTIVE. -/
def execSetPowerActive (s : State) : Host.Outcome State Fault Refusal :=
  .next (onCommand s 0x0007 (fun p => decide (wAt p 0 = 0)) (fun c =>
    let beds := bedMask (par c 1)
    checkedOpen s [needPowerFlags c 0] (!beds.any (bedWorks s))
      (fun s =>
        let s := startFetch { s with clk := { s.clk with stemIdle := false, dramSleep := false } }
        let s := beds.foldl (fun s b => leaveStandby (leaveIdle s b) b) s
        if beds.any s.stbyExit then waitFor s .standbyExit else postOk s)))

/-- A bed enters IDLE: its clocks are gated, its outputs hold, its monitor stops (R453). From STANDBY, its exit from STANDBY
stays to be done. -/
def enterIdle (s : State) (b : Nat) : State :=
  ((staleTherm (holdClocks s b) b).modStbyExit b (fun e => e || decide (s.bedPow b = .standby))).modBedPow b (fun _ => .idle)

/-- SET_POWER_IDLE (R42 to R45). STEM = 0 lets the streamer go on with a fetch that waits. -/
def execSetPowerIdle (s : State) : Host.Outcome State Fault Refusal :=
  .next (onCommand s 0x0007 (fun p => decide (wAt p 0 = 1)) (fun c =>
    let beds := bedMask (par c 1)
    let stem := bit (par c 2) 0
    checkedOpen s [needPowerFlags c 1] (!beds.any (bedWorks s) && (!stem || !stemWorks s))
      (fun s =>
        let s := beds.foldl enterIdle s
        postOk (startFetch { s with clk := { s.clk with stemIdle := stem, dramSleep := stem } }))))

/-- A bed enters STANDBY: its analogue is off, its pads disconnected (`padConn`), its codes retained; its monitor stops
(R453). -/
def enterStandby (s : State) (b : Nat) : State :=
  ((staleTherm (holdClocks (heldLoads s b) b) b).modStbyExit b (fun _ => false)).modBedPow b (fun _ => .standby)

/-- SET_POWER_STANDBY (R42, R44). -/
def execSetPowerStandby (s : State) : Host.Outcome State Fault Refusal :=
  .next (onCommand s 0x0007 (fun p => decide (wAt p 0 = 2)) (fun c =>
    let beds := bedMask (par c 1)
    checkedOpen s [needPowerFlags c 0] (!beds.any (bedWorks s)) (fun s => postOk (beds.foldl enterStandby s))))

/-- SET_POWER_DEEP (R42, R43): the response, and the entry 1 ms later. -/
def execSetPowerDeep (s : State) : Host.Outcome State Fault Refusal :=
  .next (onCommand s 0x0007 (fun p => decide (wAt p 0 = 3)) (fun c =>
    let fl := par c 2
    checked s [needPowerFlags c 14]
      (fun s => postOk { s with clk := { s.clk with
        wakeTin0 := bit fl 1
        wakeLane := bit fl 2
        tin0Falling := bit fl 3
        deepDue := some (s.now + 3200000) } })))

/-- MB_DELAY_END (R530): AMOUNT has passed since the response was written. -/
def execMbDelayEnd (n : Mbox) (s : State) : Host.Outcome State Fault Refusal :=
  .next (match (s.mbx n.val).delayEnd with
    | some t => releaseDelay (s.reach t) n.val
    | none => s)

end Sys2Proof.Machine
end

