-- ==== Sys2Proof/Machine/Update.lean ====
section
/-! DEFINITION. Firmware update: the session, the flash operations and the commit (spec/04 R103 to R111, spec/14 R436). -/

namespace Sys2Proof.Machine

/-- SP0 is free again: a fetch that waits is served (R435). -/
def resumeXip (s : State) : State :=
  match s.ser.xipWait with
  | some o => if sp0Held s then s else xipServe s o
  | none => s

/-- Flash operations start, and the command waits for them (R82, R436). -/
def startFlash (s : State) (l : List FlashOp) : State :=
  waitFor { s with ser := { s.ser with flashOps := s.ser.flashOps ++ l } } .flashOp

/-- A program operation within each 256-byte page (R436). -/
def flashPages (a : Nat) (l : List Byte) : List FlashOp :=
  let n := 256 - a % 256
  if l.length ≤ n then [.program a l] else [.program a (l.take n), .program (a + n) (l.drop n)]

/-- Every sector of a slot: header, body, commit record (R104, R109). -/
def slotSectors (b : Bool) : List FlashOp := (List.range 2048).map (fun i => .erase (flashSlot b + 4096 * i))

/-- The effect of a flash operation (R107). -/
def flashEffect (s : State) : FlashOp → State
  | .erase a => { s with ser := { s.ser with flash := terase s.ser.flash a 4096 } }
  | .program a l => programFlash s a l

/-- FW_UPDATE_BEGIN (R103, R109). -/
def execFwUpdateBegin (s : State) : Host.Outcome State Fault Refusal :=
  .next (onCommand s 0x0009 (fun _ => true) (fun c =>
    let recovery := decide (s.clk.phase = .recovery)
    let slot := decide (par c 0 = 1)
    let n := par32 c 1
    checkedOpen s
      [needParam (decide (par c 0 < 2)) 0,
       needParam (decide (n % 256 = 0) && decide (0x1100 ≤ n) && decide (n ≤ 0x7FF000)) 1,
       if recovery then none else needTag s c.tag.toNat]
      (s.fw.session.isNone && (recovery || (decide (slot ≠ s.clk.imageSlot) && !slotTrial s s.clk.imageSlot)))
      (fun s =>
        let x : Session :=
          { slotB := slot, imageBytes := n, received := 0, erased := false, tag := if recovery then 0 else c.tag.toNat }
        let s := { s with fw := { s.fw with session := some x } }
        let s := if recovery then waitFor s .flashOp else accept s c 0
        { s with ser := { s.ser with flashOps := s.ser.flashOps ++ slotSectors slot } })))

/-- FW_ERASE_DONE (R103, R109): every sector of the slot is erased; in recovery the response, else the COMPLETION. -/
def execFwEraseDone (s : State) : Host.Outcome State Fault Refusal :=
  .next (match s.fw.session with
    | none => s
    | some x =>
      if x.erased then s
      else
        let s := s.ser.flashOps.foldl flashEffect s
        let y : Session := { x with erased := true }
        let s := resumeXip { s with ser := { s.ser with flashOps := [] }, fw := { s.fw with session := some y } }
        if x.tag = 0 then (if waitsFor s .flashOp then postOk s else s)
        else endWork s (workEnd s x.tag (s.prog x.tag).ring.toNat 0 0 0 0 1 0 0 0))

/-- FW_UPDATE_DATA (R110). -/
def execFwUpdateData (s : State) : Host.Outcome State Fault Refusal :=
  .next (onCommand s 0x000A (fun _ => true) (fun c =>
    let n := par c 2
    let form := needParam (decide (2 ≤ n) && decide (n ≤ 224) && decide (n % 2 = 0)) 2
    match s.fw.session with
    | none => checkedOpen s [form] false id
    | some x =>
      if par32 c 0 ≠ x.received then postResponse s 0x12 0 (toWords 2 x.received)
      else checkedOpen s [form, needParam (decide (x.received + n ≤ x.imageBytes)) 2] x.erased
        (fun s => startFlash s (flashPages (flashSlot x.slotB + x.received) ((wordsToBytes (c.params.drop 3)).take n)))))

/-- FW_COMMIT is armed for the slot (R111): GUARD, DETAIL its address offset. -/
def needArmed (s : State) (slot : Bool) : Option Bad :=
  needGuard (bit s.bus.fwCommit.toNat 0 && decide (bit s.bus.fwCommit.toNat 1 = slot)) 0x011A

/-- The reasons for which COMMIT fails before anything is written (R106, R111). -/
def commitReason (s : State) : Option Bad :=
  match s.fw.session with
  | none => some (0x12, 0x8001)
  | some x =>
    let b := x.slotB
    if !x.erased || decide (x.received ≠ x.imageBytes) then some (0x12, 0x8001)
    else if !headerOk s b then some (0x12, 0x8002)
    else if !keyHashOk s b then some (0x12, 0x8003)
    else if !signatureOk s b then some (0x12, 0x8004)
    else if !digestOk s b then some (0x12, 0x8005)
    else if !rollbackOk s b then some (0x12, 0x8006)
    else none

/-- GENERATION of a commit (R107): 1 + the other slot's, 0 if that slot has none. -/
def commitGeneration (s : State) (b : Bool) : Nat :=
  if slotState s (!b) = 0xFFFF then 1 else (slotGeneration s (!b) + 1) % two32

/-- The written slot of the session. -/
def writtenSlot (s : State) : Bool := s.fw.session.any (fun x => x.slotB)

/-- FW_UPDATE_COMMIT, MODE 0 (R103, R111). A complete session ends with it, whether the image passes or fails. -/
def execFwUpdateCommit (s : State) : Host.Outcome State Fault Refusal :=
  .next (onCommand s 0x000B (fun p => decide (wAt p 0 = 0)) (fun c =>
    let b := writtenSlot s
    let reason := commitReason s
    match firstBad [needParam (decide (par c 1 < 2)) 1, reason, needArmed s b] with
    | some e =>
      let s := if e.1 = 0x12 ∧ 0x8002 ≤ e.2 then { s with fw := { s.fw with session := none } } else s
      postBad (disarmCommit s) e
    | none => startFlash s [.program (commitAt b) (toBytes 4 (commitGeneration s b)), .program (commitAt b + 6) (toBytes 2 0xAAAA)]))

/-- FW_UPDATE_CONFIRM, MODE 1 (R103, R111). Only a slot in TRIAL is written. -/
def execFwUpdateConfirm (s : State) : Host.Outcome State Fault Refusal :=
  .next (onCommand s 0x000B (fun p => decide (wAt p 0 = 1)) (fun c =>
    let b := s.clk.imageSlot
    match firstBad [needParam (decide (par c 1 = 0)) 1,
        if s.clk.phase = .recovery then none else needArmed s b, needState (decide (s.clk.phase ≠ .recovery)) 2] with
    | some e => postBad (disarmCommit s) e
    | none =>
      if slotTrial s b then startFlash s [.program (commitAt b + 6) (toBytes 2 0)]
      else postOk (disarmCommit s)))

/-- COMMIT's record is written (R107, R111): verified, then OK; ACTIVATE starts the activation restart 1 ms later. -/
def finishCommit (s : State) (c : Current) : State :=
  let b := writtenSlot s
  let ok := decide (slotGeneration s b = commitGeneration s b) && slotTrial s b
  let s := disarmCommit { s with fw := { s.fw with session := none } }
  if ok then
    let s := postOk s
    if par c 1 = 1 then { s with clk := { s.clk with activationDue := some (s.now + 3200000) } } else s
  else postBad s (0x12, 0x8007)

/-- CONFIRM's state is written: the rollback counter rises to the slot's SEC_VERSION (R106, R111). -/
def finishConfirm (s : State) : State :=
  let v := secVersion s s.clk.imageSlot
  postOk (disarmCommit { s with fw := { s.fw with rollback := min 64 (max s.fw.rollback v) } })

/-- The command that waits for the flash goes on once its last operation is done. -/
def finishFlash (s : State) : State :=
  match s.fw.current with
  | none => s
  | some c =>
    if c.wait ≠ .flashOp then s
    else if c.opcode = 0x000A then
      postOk { s with fw := { s.fw with session := s.fw.session.map (fun x => { x with received := x.received + par c 2 }) } }
    else if c.opcode = 0x000B then (if par c 0 = 0 then finishCommit s c else finishConfirm s)
    else s

/-- FLASH_OP_DONE (R436): the operation in progress is complete. -/
def execFlashOpDone (s : State) : Host.Outcome State Fault Refusal :=
  .next (match s.ser.flashOps with
    | [] => s
    | op :: r =>
      let s := flashEffect { s with ser := { s.ser with flashOps := r } } op
      if r = [] then finishFlash (resumeXip s) else s)

/-- Bytes of the flash that an operation that never ended leaves unknown: free values. -/
def flashUnknown (s : State) : FlashOp → State
  | .erase a => { s with
      free := s.free + 4096
      ser := { s.ser with flash := tput (fun _ => 0xFF) s.ser.flash a ((List.range 4096).map (fun i => b8 (Config.freeValue (s.free + i)))) } }
  | .program a l => { s with
      free := s.free + l.length
      ser := { s.ser with flash := tput (fun _ => 0xFF) s.ser.flash a ((List.range l.length).map (fun i => b8 (Config.freeValue (s.free + i)))) } }

/-- FLASH_TIMEOUT (R436): the command that caused the operation fails with the reason read-back. -/
def execFlashTimeout (s : State) : Host.Outcome State Fault Refusal :=
  .next (match s.ser.flashOps with
    | [] => s
    | op :: _ =>
      let s := flashUnknown (s.raise 0x18 2) op
      let s := resumeXip { s with ser := { s.ser with flashOps := [] } }
      let erasing := s.fw.session.any (fun x => !x.erased)
      let tag := match s.fw.session with | some x => x.tag | none => 0
      let s := if erasing then { s with fw := { s.fw with session := none } } else s
      let s := if erasing ∧ tag ≠ 0 then endWork s (workEnd s tag (s.prog tag).ring.toNat 0x12 0x8007 0 0 1 0 0 0) else s
      if waitsFor s .flashOp then
        let commit := s.fw.current.any (fun c => decide (c.opcode = 0x000B))
        postBad (if commit then disarmCommit s else s) (0x12, 0x8007)
      else s)

end Sys2Proof.Machine
end

