-- ==== Sys2Proof/Machine/BusOps.lean ====
section
/-! DEFINITION. The register space (spec/03): the map, every readable word, the guard checker, and what a write does by
its field kinds. The words are those of spec/03 R54 to R74, spec/04 R76 and R77, spec/07 R211, spec/12 R382, spec/13 R425,
spec/15 R476 and spec/17 R508 and R529. -/

namespace Sys2Proof.Machine

/-! The map (R51). -/

/-- The burst region that holds an address below the aliases; none in a reserved range. -/
def plainRegion (a : Nat) : Option (Nat × Nat) :=
  if a < 0x100 then some (0, 0xFF)
  else if a < 0x800 then some (0x100, 0x7FF)
  else if a < 0x1000 then some (a / 0x80 * 0x80, a / 0x80 * 0x80 + 0x7F)
  else if a < 0x1700 then some (a / 0x40 * 0x40, a / 0x40 * 0x40 + 0x3F)
  else if 0x1C00 ≤ a ∧ a < 0x2000 then some (0x1C00, 0x1FFF)
  else if 0x2000 ≤ a ∧ a < 0x4000 then some (0x2000, 0x3FFF)
  else if 0x4000 ≤ a ∧ a < 0x10000 then some (0x4000, 0xFFFF)
  else if 0x10000 ≤ a ∧ a < 0x20000 then some (0x10000, 0x1FFFF)
  else none

/-- The bit aliases (R56). -/
def isAlias (a : Nat) : Bool := decide (0x800000 ≤ a) && decide (a < 0xA00000)

/-- The burst region of any address; an alias burst takes the boundary of the words it stands for (R70). -/
def busRegion (a : Nat) : Option (Nat × Nat) :=
  if isAlias a then (plainRegion ((a - 0x800000) / 16)).map (fun r => (0x800000 + 16 * r.1, 0x800000 + 16 * r.2 + 15))
  else plainRegion a

/-- The value address A of a guarded pair (R63). -/
def guardedValue (a : Nat) : Bool :=
  [0x110, 0x112, 0x114, 0x116, 0x118, 0x11A, 0x10000].contains a ||
  (decide (0x1000 ≤ a) && decide (a < 0x1700) && decide (a % 0x40 = 0x3E))

/-- A guarded address or its complement address. -/
def guarded (a : Nat) : Bool := guardedValue (a / 2 * 2)

/-- The bus serves its masters: no reset holds it, and the boot has come to step 8 or to recovery (R55). -/
def busAlive (s : State) : Bool :=
  s.clk.resetting.isNone &&
    (decide (s.clk.phase = .started) || decide (s.clk.phase = .ready) || decide (s.clk.phase = .recovery))

/-- F3 cycle of a master's last access (R53). -/
def State.lastAt (s : State) : Master → Option Nat
  | .host => s.bus.lastHost
  | .shed => s.bus.lastShed

/-- A master has one access in an F3 cycle (R53): its next one waits for the next cycle. The other master's access of the
same cycle does not. -/
def busTurn (s : State) (m : Master) : State :=
  if clocksRun s && decide (s.lastAt m = some (f3 s.now)) then { s with clk := { s.clk with time := f3 s.now + 16 } } else s

/-- The master has had its access of this F3 cycle. -/
def busDone (s : State) (m : Master) : State :=
  match m with
  | .host => { s with bus := { s.bus with lastHost := some (f3 s.now) } }
  | .shed => { s with bus := { s.bus with lastShed := some (f3 s.now) } }

/-! Reading. -/

/-- The identity region (R54). -/
def identityWord (s : State) (a : Nat) : Nat :=
  if h : a < 23 then
    ([0x0CE7, 0x0512, 0x0101, 1, 16, 512, 32, 64, 0xFFFF, 32768, 4096, 16384, 4, 4, 64, 32, 64, 28, 8, 0xFFFF, 4096, 2048,
      0x1030] : List Nat)[a]
  else if a = 0x17 then s.bus.dramMib
  else if a = 0x18 then s.bus.fwRelease.toNat
  else if a = 0x19 then s.bus.cmdsetMax.toNat
  else if 0x1C ≤ a ∧ a < 0x20 then bits s.bus.uniqueId.toNat (16 * (a - 0x1C)) 16
  else 0

/-- Highest throttle level of any zone. -/
def maxThrottle (s : State) : Nat := ((List.range 5).map (throttleLevel s)).foldl max 0

/-- CHIP_STATUS (R71). -/
def chipStatus (s : State) : Nat :=
  flag 0 (s.clk.phase = .ready && !s.clk.restarting) + flag 1 (s.clk.phase = .recovery) + flag 2 s.cal.seedFallback +
  flag 3 s.link.addrValid + flag 4 s.link.syncValid + flag 5 (clocheChipBit s) + flag 6 s.sup.shutdown +
  flag 7 s.flt.armed + flag 8 (decide (s.bus.keepWe ≠ 0) && s.sup.keepOpen) + 512 * maxThrottle s

/-- Chip control and trigger registers. -/
def controlWord (s : State) (a : Nat) : Nat :=
  if a = 0x100 then chipStatus s
  else if a = 0x101 then flag 0 s.bus.errnHold + flag 1 s.bus.intNEn + flag 2 s.bus.errnTest
  else if a = 0x102 then s.clk.wdogPeriod
  else if a = 0x108 then s.clk.resetCause.toNat + flag 7 s.clk.imageSlot + 256 * wdogCount s
  else if a = 0x116 then s.bus.keepWe.toNat
  else if a = 0x11A then s.bus.fwCommit.toNat
  else if a = 0x11C then s.bus.guardAddr % 65536
  else if a = 0x11D then s.bus.guardAddr / 65536 + 256 * s.bus.guardReason + flag 11 s.bus.guardShed
  else if a = 0x11E then s.bus.guardCount
  else if 0x200 ≤ a ∧ a < 0x208 then
    let x := s.trig (a - 0x200)
    x.seq + 64 * x.event + flag 9 x.pol + 1024 * x.width
  else if 0x210 ≤ a ∧ a < 0x214 then
    let x := s.tin (a - 0x210)
    flag 0 x.enable + flag 1 x.falling + 4 * x.spare.toNat + 16 * x.filter
  else if a = 0x214 then
    ((List.range 4).map (fun n => flag n (s.tin n).level + flag (4 + n) (s.tin n).seen)).sum
  else if 0x218 ≤ a ∧ a < 0x21C then (s.tin (a - 0x218)).count
  else if 0x220 ≤ a ∧ a < 0x230 then bits (s.tin ((a - 0x220) / 4)).stamp (16 * (a % 4)) 16
  else 0

def mbStateCode : MbState → Nat
  | .idle => 0
  | .posted => 1
  | .executing => 2
  | .done => 3
  | .offline => 4

/-- Mailbox words (R76, R77). -/
def mailboxWord (m : Mailbox) (o : Nat) : Nat :=
  if o = 0 then m.opcode.toNat
  else if o = 1 then m.tag.toNat
  else if o = 2 then m.length.toNat
  else if o = 3 then m.flags.toNat
  else if o = 4 then m.ring.toNat
  else if o = 5 then m.word5.toNat
  else if o < 0x7E then (tget (fun _ => 0) m.param (o - 6)).toNat
  else if o = 0x80 then mbStateCode m.state + flag 3 m.refused + flag 4 m.writeLocked + flag 5 m.async
  else if o = 0x81 then m.rOpcode.toNat
  else if o = 0x82 then m.rTag.toNat
  else if o = 0x83 then m.status.toNat
  else if o = 0x84 then m.detail.toNat
  else if o = 0x85 then m.rLength
  else if 0x86 ≤ o ∧ o < 0xFE then (tget (fun _ => 0) m.rParam (o - 0x86)).toNat
  else if o = 0xFE then m.refusedCount
  else 0

/-- CLOCHE_STATE of bed `b` (R521). -/
def clocheState (s : State) (b : Nat) : Nat :=
  flag 0 (s.bedc b).active + flag 1 (!(s.bedc b).causes.isEmpty) + flag 2 (clocheChipBit s) +
  flag 3 (!s.flt.chain.isEmpty) + flag 4 (bedCauseLive s b) + flag 5 (s.bedc b).settled +
  flag 6 (!(s.loopc (2 * b)).isEmpty) + flag 7 (!(s.loopc (2 * b + 1)).isEmpty)

/-- Words 0x20 to 0x27 of a bed block. -/
def bedWord (s : State) (b o : Nat) : Nat :=
  let x := s.bedc b
  if o = 0x20 then clocheState s b
  else if o = 0x21 then x.causeBlock + 256 * x.causeSource + 16384 * x.causeScope
  else if o = 0x22 then x.origin
  else if 0x24 ≤ o ∧ o < 0x28 then bits x.time (16 * (o - 0x24)) 16
  else 0

/-- Fault-block words (R508). -/
def faultWord (s : State) (k o : Nat) : Nat :=
  let b := s.fblk k
  if o = 0 then flag 0 b.ffValid + flag 1 (blockInt s k) + 4 * maxSev s k
  else if o = 1 then srcCount k
  else if o = 2 then b2n b.intEn
  else if 4 ≤ o ∧ o < 8 then bits (s.liveNow k).toNat (16 * (o - 4)) 16
  else if 8 ≤ o ∧ o < 12 then bits b.sticky.toNat (16 * (o - 8)) 16
  else if o = 12 ∨ o = 13 then bits b.events (16 * (o - 12)) 16
  else if o = 14 ∨ o = 15 then bits b.merged (16 * (o - 14)) 16
  else if o = 16 then b.ffSource + 64 * b.ffSev + flag 8 b.ffForced
  else if o = 17 then b.ffReact.toNat
  else if o = 18 then b.ffD0.toNat
  else if o = 19 then b.ffD1.toNat
  else if 20 ≤ o ∧ o < 24 then bits b.ffTime (16 * (o - 20)) 16
  else if o = 24 then b.lastSource + flag 15 b.lastValid
  else if 28 ≤ o ∧ o < 32 then bits b.lastTime (16 * (o - 28)) 16
  else if k < 16 then bedWord s k o
  else 0

/-- Fields of CLOCK_STATUS (R47). -/
def clockStatus (s : State) : Nat :=
  let state := if s.clk.stemIdle then 1 else if (List.range 16).all (bedStandby s) then 2 else 0
  flag 0 s.clk.refPresent + flag 1 s.clk.pllLocked + flag 2 s.clk.holdover + flag 3 s.clk.refLostSticky + 16 * state +
  flag 6 s.clk.aonOk

/-- STATE and the rest of PORT_STATUS (R425). -/
def portStatus (s : State) (p : Nat) : Nat :=
  let q := s.port p
  let st := match q.step with | .off => 0 | .detect => 1 | .active => 3 | _ => 2
  st + 8 * q.width + 64 * q.lanes.toNat + 1024 * q.retrains

/-- Chip time and synchronisation (R47, R66, R425). Part 0 holds SYNC_OFFSET at 0. -/
def timeWord (s : State) (a : Nat) : Nat :=
  let t := s.link
  if a < 0x1C04 then bits s.now (16 * (a - 0x1C00)) 16
  else if a < 0x1C08 then bits t.syncEpoch (16 * (a - 0x1C04)) 16
  else if a = 0x1C08 then clockStatus s
  else if a = 0x1C10 then
    flag 0 t.syncValid + flag 1 t.slewing + flag 2 t.pendingSync.isSome + flag 3 t.late + flag 4 t.slip + flag 5 t.ignored +
    256 * toTwos 8 t.lastPhase
  else if a = 0x1C11 then t.syncCount
  else if a = 0x1C12 ∨ a = 0x1C13 then bits (hopDelay s) (16 * (a - 0x1C12)) 16
  else if a = 0x1C14 ∨ a = 0x1C15 then bits (toTwos 32 t.syncOffset) (16 * (a - 0x1C14)) 16
  else if a = 0x1C16 ∨ a = 0x1C17 then bits (toTwos 32 t.lastStep) (16 * (a - 0x1C16)) 16
  else if a = 0x1C18 then t.addr + flag 7 t.addrValid + 256 * t.neighbour
  else if a = 0x1C19 then t.mcast.toNat
  else if a = 0x1C1A then portStatus s 0
  else if a = 0x1C1B then portStatus s 1
  else 0

/-- A temperature word, 0x8000 where there is none (R476). -/
def tempWord (t : Option Int) : Nat := match t with | some c => toTwos 16 (clampI (-32768) 32767 c) | none => 0x8000

/-- Supervision readouts (R476). -/
def superviseWord (s : State) (a : Nat) : Nat :=
  let o := a - 0x2000
  if o < 0x30 then
    let x := s.sensor o
    tempWord (if x.sampled && !x.broken then some x.value else none)
  else if 0x40 ≤ o ∧ o < 0x50 then
    let x := s.therm (o - 0x40)
    tempWord (if x.enable && x.sampled && !x.broken then some (((f32 x.value).mul (Frac.ofInt 16)).round) else none)
  else if 0x60 ≤ o ∧ o < 0x6E then toTwos 16 (clampI (-32768) 32767 (s.railRd (4 * (o - 0x60))).mv)
  else if 0x70 ≤ o ∧ o < 0x75 then (s.pmon (o - 0x70)).toNat
  else if 0x80 ≤ o ∧ o < 0x85 then tempWord (zoneReading s (o - 0x80))
  else if o = 0x88 then (zoneLevelsWord s).toNat
  else if o = 0x89 then (zoneEnforcedWord s).toNat
  else if o = 0x8A then maskOf ((List.range 5).filter (fun z => (s.zone z).warnSticky))
  else if 0x90 ≤ o ∧ o < 0x93 then maskOf ((List.range 16).filter (fun i => (s.sensor (16 * (o - 0x90) + i)).broken))
  else if o = 0x94 then maskOf ((List.range 16).filter (fun n => (s.therm n).broken))
  else if o = 0x95 then maskOf ((List.range 16).filter (fun n => (s.therm n).stale))
  else if o = 0x96 ∨ o = 0x97 then maskOf ((List.range 16).filter (fun i => chargeOut s (16 * (o - 0x96) + i)))
  else if o = 0x98 then flag 0 s.sup.keepOpen + flag 1 s.sup.exitOk
  else if o = 0x99 then tripNext s
  else if 0xA0 ≤ o ∧ o < 0xA8 then
    toTwos 16 (clampI (-32768) 32767 (s.railRd (4 * (14 + o % 2) + (o - 0xA0) / 2)).mv)
  else 0

/-- A master's release region. -/
def State.ringPort (s : State) : Master → RingPort
  | .host => s.harv.hostPort
  | .shed => s.harv.shedPort
def State.modRingPort (s : State) (m : Master) (f : RingPort → RingPort) : State :=
  match m with
  | .host => { s with harv := { s.harv with hostPort := f s.harv.hostPort } }
  | .shed => { s with harv := { s.harv with shedPort := f s.harv.shedPort } }

/-- STATE of a ring's context (R376). -/
def ringStateCode : RingState → Nat
  | .free => 0
  | .live => 1
  | .lossOpen => 2
  | .failed => 3

/-- The 14 snapshot words of a ring (R382). -/
def snapWords (s : State) (r : Nat) : List Word :=
  let c := s.ring r
  toWords 2 (c.sizeCode + flag 5 c.drop + 64 * ringStateCode c.state + flag 8 c.armed + 512 * (c.base / 4096)) ++
  toWords 2 c.seq ++ toWords 2 c.place ++ toWords 2 c.wr ++ toWords 2 c.rel ++ toWords 2 c.reserved ++
  toWords 2 (match c.loss with | some l => l.count | none => 0)

/-- The release region: only RING_SEL and the latched snapshot read (R382). -/
def releaseWord (s : State) (m : Master) (a : Nat) : Nat :=
  let p := s.ringPort m
  if a = 0x4000 then p.sel
  else if 0x4002 ≤ a ∧ a < 0x4010 then wAt p.snap (a - 0x4002)
  else 0

/-- Perturbation (R529). -/
def perturbWord (s : State) (a : Nat) : Nat :=
  if a = 0x10000 ∨ a = 0x10002 then b2n s.flt.armed
  else if a = 0x10003 then maskOf ((List.range 16).filter (fun e => (s.pert e).active))
  else if 0x10010 ≤ a ∧ a < 0x10110 then wAt (entryWords (s.pert ((a - 0x10010) / 16))) (a % 16)
  else 0

/-- A word of the space below the aliases, without any side effect. A complement address reads the complement of its
register (R62). -/
def plainWord (s : State) (m : Master) (a : Nat) : Nat :=
  if guarded a && decide (a % 2 = 1) then
    65535 - (if a = 0x10001 then perturbWord s 0x10000 else if a < 0x1000 then controlWord s (a - 1) else 0)
  else if a < 0x100 then identityWord s a
  else if a < 0x800 then controlWord s a
  else if a < 0x1000 then mailboxWord (s.mbx ((a - 0x800) / 0x100)) (a % 0x100)
  else if a < 0x1700 then faultWord s ((a - 0x1000) / 0x40) (a % 0x40)
  else if a < 0x1C00 then 0
  else if a < 0x2000 then timeWord s a
  else if a < 0x4000 then superviseWord s a
  else if a < 0x10000 then releaseWord s m a
  else perturbWord s a

/-- The word a read returns: an alias returns its bit (R56, R58), a reserved address 0 (R52). -/
def readWord (s : State) (m : Master) (a : Nat) : Nat :=
  if isAlias a then
    (if (busRegion a).isSome then b2n (bit (plainWord s m ((a - 0x800000) / 16)) (a % 16)) else 0)
  else if (plainRegion a).isSome then plainWord s m a
  else 0

/-- REG source UNMAPPED (R52). -/
def unmapped (s : State) (a : Nat) : State := s.raise 0x11 1 (a % 65536)

/-- The side effects of a read: the snapshot at 0x00_4002 (R69, R382), and UNMAPPED. -/
def readEffect (s : State) (m : Master) (a : Nat) : State :=
  if (busRegion a).isNone then unmapped s a
  else if a = 0x4002 then s.modRingPort m (fun p => { p with snap := snapWords s p.sel })
  else s

/-! The guard checker (R59 to R64). -/

def halfOf (s : State) : Master → Option Half
  | .host => s.bus.halfHost
  | .shed => s.bus.halfShed
def setHalf (s : State) (m : Master) (h : Option Half) : State :=
  match m with
  | .host => { s with bus := { s.bus with halfHost := h } }
  | .shed => { s with bus := { s.bus with halfShed := h } }

/-- Rejected guarded writes (R60): `n` of them, at once. -/
def reject (s : State) (m : Master) (a reason : Nat) : Nat → State
  | 0 => s
  | n + 1 =>
    let s := s.noteAdd 0x11E s.bus.guardCount
    let s := { s with bus := { s.bus with
      guardAddr := a
      guardReason := reason
      guardShed := decide (m = Master.shed)
      guardCount := satAdd max16 s.bus.guardCount 1 } }
    reject (s.raise 0x11 0 reason (a % 65536)) m a reason n

/-- A half whose window has passed is rejected (R60, reason 1). -/
def expireHalf (s : State) (m : Master) : State :=
  match halfOf s m with
  | some h => if h.time + 1024 < f3 s.now then reject (setHalf s m none) m h.addr 1 1 else s
  | none => s

/-- The pair's value is legal (R60 reason 5, R73, R528). -/
def guardLegal (a v : Nat) : Bool :=
  if a = 0x110 ∨ a = 0x118 ∨ a = 0x10000 then decide (v < 2)
  else if a = 0x112 ∨ a = 0x114 then
    decide (v < 64) && (!bit v 5 || bit v 4) && (!bit v 4 || decide (v % 16 = 0))
  else if a = 0x116 then decide (v < 8)
  else if a = 0x11A then decide (v < 4)
  else decide (v < srcCount ((a - 0x1000) / 0x40))

/-- Beds of a CLOCHE_OVERRIDE or CLOCHE_RELEASE value (R73). -/
def scopeBeds (v : Nat) : List Nat := if bit v 4 then List.range 16 else [v % 16]

/-- SHUTDOWN_CLEAR (R64, R473): only while the exit condition holds, and not in the cycle of the shutdown itself. -/
def clearShutdown (s : State) : State :=
  if s.sup.shutdown && s.sup.exitOk && decide (f3 s.sup.shutTime ≠ f3 s.now) then
    let s := { s with sup := { s.sup with
      shutdown := false, analogueOff := false, shedSlow := false, reconnect := true } }
    (List.range 16).foldl restartRound (s.live 0x1A 3 false)
  else s

/-- The effect of a complete, legal pair, in the F3 cycle of the complement (R59, R63). -/
def guardEffect (s : State) (a v : Nat) : State :=
  if a = 0x110 then (if v = 1 then chipReset s .chip 2 (s.now + 32000) false else s)
  else if a = 0x112 then commandCloche s (scopeBeds v) (bit v 4) (bit v 5)
  else if a = 0x114 then
    if (scopeBeds v).any (fun b => (s.bedc b).tripAt.any (fun t => decide (f3 t = f3 s.now))) then s
    else releaseCauses s (scopeBeds v) (bit v 4) (bit v 5)
  else if a = 0x116 then { s with bus := { s.bus with keepWe := BitVec.ofNat 3 v } }
  else if a = 0x118 then (if v = 1 then clearShutdown s else s)
  else if a = 0x11A then { s with bus := { s.bus with fwCommit := BitVec.ofNat 2 v } }
  else if a = 0x10000 then armPerturb s (decide (v = 1))
  else s.raiseForced ((a - 0x1000) / 0x40) v

/-- A value register of the guarded pairs: the last value to land stays (R53, R63). -/
def guardValueRegister (a : Nat) : Bool := [0x116, 0x11A, 0x10000].contains a

/-- The host has written the word at `a` in this cycle. -/
def noteHost (s : State) (m : Master) (a : Nat) (w mask : Word) (al : Bool) : State :=
  if m = .host then
    { s with bus := { s.bus with recent := { s.recent with writes := s.recent.writes ++ [(a, w, mask, al)] } } }
  else s

/-- A complete, legal pair takes effect; of two masters' pairs in one cycle the host's value remains (R53). -/
def guardLand (s : State) (m : Master) (a v : Nat) : State :=
  let s := guardEffect s a v
  if guardValueRegister a then
    if m = .shed then
      (s.recent.writes.filter (fun e => decide (e.1 = a))).foldl (fun s e => guardEffect s a e.2.1.toNat) s
    else noteHost s m a (w16 v) 0xFFFF false
  else s

/-- A write to a guarded or complement address (R59, R60). -/
def guardWrite (s : State) (m : Master) (a : Nat) (w : Word) : State :=
  let s := expireHalf s m
  match halfOf s m with
  | none => if a % 2 = 0 then setHalf s m (some { addr := a, value := w, time := f3 s.now }) else reject s m a 3 1
  | some h =>
    let s := setHalf s m none
    if a % 2 = 0 then reject s m a 4 2
    else if h.addr + 1 ≠ a then reject s m a 3 2
    else if w ≠ ~~~h.value then reject s m h.addr 2 1
    else if guardLegal h.addr h.value.toNat then guardLand s m h.addr h.value.toNat
    else reject s m h.addr 5 1

/-! Writing. -/

/-- The bits of `w` in `mask` over `o`. -/
def mergeW (o w mask : Word) : Word := (o &&& ~~~mask) ||| (w &&& mask)

/-- PERIOD_MS as stored (R72). -/
def clampPeriod (n : Nat) : Nat := max 10 (min 2000 n)

/-- The bits of the word that a write clears of the sticky bits at `a`: hardware's own set in this cycle wins (R71). -/
def clearBits (s : State) (a : Nat) (w mask : Word) : Word := w &&& mask &&& ~~~(s.setNow a)

/-- A counter of 16 bits at `a` as a write of `w` leaves it: the events of this cycle are added on top (R71). -/
def counterAfter (s : State) (a : Nat) (w : Word) : Nat := satAdd max16 w.toNat (s.beforeEvents a 0).2

/-- A write to a register of the chip-control region. `al` marks an alias write, which no counter takes (R57). A merged
PERIOD_MS that leaves its range is clamped whole, though the alias names one bit of it (R72; DESIGN CHOICE 163). -/
def writeControl (s : State) (a : Nat) (w mask : Word) (al : Bool) : State :=
  let v := (w &&& mask).toNat
  let set := fun (k : Nat) (o : Bool) => if mask.getLsbD k then w.getLsbD k else o
  if a = 0x101 then { s with bus := { s.bus with
      errnHold := s.bus.errnHold && !(clearBits s a w mask).getLsbD 0, intNEn := set 1 s.bus.intNEn, errnTest := set 2 s.bus.errnTest } }
  else if a = 0x102 then { s with clk := { s.clk with
      wdogPeriod := clampPeriod (mergeW (w16 s.clk.wdogPeriod) w mask).toNat } }
  else if a = 0x108 then { s with clk := { s.clk with resetCause := s.clk.resetCause &&& ~~~(BitVec.ofNat 7 (clearBits s a w mask).toNat) } }
  else if a = 0x11E then 
    if al then s
    else
      let n := counterAfter s a w
      let s := s.noteBase a w.toNat
      { s with bus := { s.bus with guardCount := n } }
  else if 0x200 ≤ a ∧ a < 0x208 then
    let n := (mergeW (w16 (controlWord s a)) w mask).toNat
    s.modTrig (a - 0x200) (fun x => { x with
      seq := bits n 0 6, event := bits n 6 3, pol := bit n 9, width := max 1 (bits n 10 6) })
  else if a = 0x208 then (maskList 8 v).foldl (fun s n => trigPulse s n (f3 s.now)) s
  else if 0x210 ≤ a ∧ a < 0x214 then
    let n := (mergeW (w16 (controlWord s a)) w mask).toNat
    s.modTin (a - 0x210) (fun x => { x with
      enable := bit n 0, falling := bit n 1, spare := BitVec.ofNat 2 (bits n 2 2), filter := bits n 4 4 })
  else if a = 0x214 then
    let c := clearBits s a w mask
    (List.range 4).foldl (fun s n => if c.getLsbD (4 + n) then s.modTin n (fun x => { x with seen := false }) else s) s
  else if 0x218 ≤ a ∧ a < 0x21C then
    (if al then s else (s.noteBase a w.toNat).modTin (a - 0x218) (fun x => { x with count := counterAfter s a w }))
  else s

/-- Address of a word of mailbox `n`. -/
def mbAddr (n o : Nat) : Nat := 0x800 + 0x100 * n + o

/-- A doorbell (R78, R79): true if it was accepted. -/
def ringDoorbell (s : State) (n : Nat) : State × Bool :=
  let m := s.mbx n
  if m.state = .idle ∨ m.state = .done then
    (s.modMbx n (fun m => { m with
      state := .posted, passed := 0, async := false, rOpcode := 0, rTag := 0, status := 0, detail := 0, rLength := 0 }), true)
  else
    let s := (s.noteSet (mbAddr n 0x80) 8).noteAdd (mbAddr n 0xFE) m.refusedCount
    (s.modMbx n (fun m => { m with refused := true, refusedCount := satAdd max16 m.refusedCount 1 }), false)

/-- One word of a command half, whatever the state (R76). -/
def putCommand (m : Mailbox) (o : Nat) (w mask : Word) : Mailbox :=
  if o = 0 then { m with opcode := mergeW m.opcode w mask }
  else if o = 1 then { m with tag := mergeW m.tag w mask }
  else if o = 2 then { m with length := mergeW m.length w mask }
  else if o = 3 then { m with flags := mergeW m.flags w mask }
  else if o = 4 then { m with ring := mergeW m.ring w mask }
  else if o = 5 then { m with word5 := mergeW m.word5 w mask }
  else { m with param := tmod (fun _ => 0) m.param (o - 6) (fun x => mergeW x w mask) }

/-- A write to a mailbox (R76 to R79). -/
def writeMailbox (s : State) (master : Master) (n o : Nat) (w mask : Word) (al : Bool) : State :=
  let v := (w &&& mask).toNat
  let m := s.mbx n
  if o < 0x7E then
    if m.state = .idle ∨ m.state = .done then s.modMbx n (fun m => putCommand m o w mask)
    else if master = .host then (s.noteSet (mbAddr n 0x80) 16).modMbx n (fun m => { m with writeLocked := true })
    else s
  else if o = 0x7F then (if bit v 0 then (ringDoorbell s n).1 else s)
  else if o = 0x80 then
    let c := clearBits s (mbAddr n o) w mask
    s.modMbx n (fun m => { m with refused := m.refused && !c.getLsbD 3, writeLocked := m.writeLocked && !c.getLsbD 4 })
  else if o = 0xFE then
    if al then s
    else (s.noteBase (mbAddr n o) w.toNat).modMbx n (fun m => { m with refusedCount := counterAfter s (mbAddr n o) w })
  else if o = 0xFF then (if bit v 0 && decide (m.state = .done) then s.modMbx n (fun m => { m with state := .idle }) else s)
  else s

/-- A word of a 32-bit counter is written (R67, R71): it replaces that word of the value before this cycle's events, which
are added on top and carry into the other word. -/
def writeEvents (s : State) (k : Nat) (high : Bool) (w : Word) : State :=
  let e := s.beforeEvents (eventsAt k) (s.fblk k).events
  let n := if high then 65536 * w.toNat + e.1 % 65536 else e.1 / 65536 * 65536 + w.toNat
  (s.noteBase (eventsAt k) n).modFblk k (fun b => { b with events := satAdd max32 n e.2 })

/-- A write to a fault block (R508, R516). -/
def writeFault (s : State) (k o : Nat) (w mask : Word) (al : Bool) : State :=
  let v := (w &&& mask).toNat
  if o = 2 then s.modFblk k (fun b => { b with intEn := if mask.getLsbD 0 then w.getLsbD 0 else b.intEn })
  else if o = 3 then (if bit v 0 then ackFault s k else s)
  else if 8 ≤ o ∧ o < 12 then
    let c := (clearBits s (0x1000 + 0x40 * k + o) w mask).toNat
    s.modFblk k (fun b => { b with sticky := b.sticky &&& ~~~(BitVec.ofNat 64 (c <<< (16 * (o - 8)))) })
  else if o = 12 ∨ o = 13 then (if al then s else writeEvents s k (decide (o = 13)) w)
  else s

/-- A write to the chip-time region (R47, R425). -/
def writeTime (s : State) (a : Nat) (w mask : Word) (al : Bool) : State :=
  let c := clearBits s a w mask
  if a = 0x1C08 then { s with clk := { s.clk with refLostSticky := s.clk.refLostSticky && !c.getLsbD 3 } }
  else if a = 0x1C10 then { s with link := { s.link with
      late := s.link.late && !c.getLsbD 3, slip := s.link.slip && !c.getLsbD 4, ignored := s.link.ignored && !c.getLsbD 5 } }
  else if a = 0x1C11 then 
    if al then s
    else
      let n := counterAfter s a w
      let s := s.noteBase a w.toNat
      { s with link := { s.link with syncCount := n } }
  else if a = 0x1C19 then { s with link := { s.link with
      mcast := BitVec.ofNat 8 (mergeW (w16 s.link.mcast.toNat) w mask).toNat } }
  else s

/-- RELEASE_POST's last word (R383): the three before it must lie within the three preceding F3 cycles. -/
def postRelease (s : State) (m : Master) (hi : Word) : State :=
  let p := s.ringPort m
  match p.post0, p.post1, p.post2 with
  | some (r, t0), some (fl, t1), some (lo, t2) =>
    if [t0, t1, t2].all (fun t => decide (f3 s.now ≤ f3 t + 48)) then
      (releaseRing s r.toNat (lo.toNat + 65536 * hi.toNat) (bit fl.toNat 0)).1
    else s.raise 0x15 4 r.toNat 1
  | some (r, _), _, _ => s.raise 0x15 4 r.toNat 1
  | none, _, _ => s.raise 0x15 4 0 1

/-- A write to the release region (R382, R383). -/
def writeRelease (s : State) (m : Master) (a : Nat) (w mask : Word) : State :=
  let x := w &&& mask
  if a = 0x4000 then s.modRingPort m (fun p => { p with sel := (mergeW (w16 p.sel) w mask).toNat })
  else if a = 0x4010 then s.modRingPort m (fun p => { p with post0 := some (x, s.now) })
  else if a = 0x4011 then s.modRingPort m (fun p => { p with post1 := some (x, s.now) })
  else if a = 0x4012 then s.modRingPort m (fun p => { p with post2 := some (x, s.now) })
  else if a = 0x4013 then postRelease s m x
  else s

/-- A write that lands in the space below the aliases, by the field kinds of its register (R71). -/
def writePlain (s : State) (m : Master) (a : Nat) (w mask : Word) (al : Bool) : State :=
  if a < 0x100 then s
  else if a < 0x800 then writeControl s a w mask al
  else if a < 0x1000 then writeMailbox s m ((a - 0x800) / 0x100) (a % 0x100) w mask al
  else if a < 0x1700 then writeFault s ((a - 0x1000) / 0x40) (a % 0x40) w mask al
  else if a < 0x2000 then writeTime s a w mask al
  else if a < 0x4000 then
    if a = 0x208A then (maskList 5 (clearBits s a w mask).toNat).foldl (fun s z => s.modZone z (fun x => { x with warnSticky := false })) s
    else s
  else if a < 0x10000 then writeRelease s m a w mask
  else s

/-- Write-only words, whose alias acts only by a 1 (R57). -/
def writeOnly (a : Nat) : Bool :=
  decide (a = 0x208) || (decide (0x4010 ≤ a) && decide (a ≤ 0x4013)) ||
  (decide (0x800 ≤ a) && decide (a < 0x1000) && (decide (a % 0x100 = 0x7F) || decide (a % 0x100 = 0xFF))) ||
  (decide (0x1000 ≤ a) && decide (a < 0x1700) && decide (a % 0x40 = 3))

/-- A word that keeps what is written to it: of two masters' writes of one cycle the host's remains (R53). A write-only
word acts for both, and the release region is each master's own. -/
def keepsWrite (a : Nat) : Bool := !writeOnly a && !(decide (0x4000 ≤ a) && decide (a < 0x10000))

/-- A plain write lands (R53): the shed's first, the host's on top of it if it has written the word in this cycle. -/
def landWrite (s : State) (m : Master) (a : Nat) (w mask : Word) (al : Bool) : State :=
  let s := writePlain s m a w mask al
  if keepsWrite a then
    if m = .shed then
      (s.recent.writes.filter (fun e => decide (e.1 = a))).foldl (fun s e => writePlain s .host a e.2.1 e.2.2.1 e.2.2.2) s
    else noteHost s m a w mask al
  else s

/-- One write on the register bus, in the present F3 cycle. -/
def writeWord (s : State) (m : Master) (a : Nat) (w : Word) : State :=
  let s := expireHalf s m
  if (busRegion a).isNone then unmapped s a
  else if isAlias a then
    let p := (a - 0x800000) / 16
    let b : Word := BitVec.ofNat 16 (2 ^ (a % 16))
    let on := w.getLsbD 0
    if guarded p then reject s m a 6 1
    else if writeOnly p && !on then s
    else landWrite s m p (if on then b else 0) b true
  else if guarded a then guardWrite s m a w
  else landWrite s m a w 0xFFFF false

/-- A write, in the master's next F3 cycle (R53). -/
def busWrite (s : State) (m : Master) (a : Nat) (w : Word) : State :=
  if busAlive s then busDone (writeWord (busTurn s m) m a w) m else s

/-- A read, with its side effect, in the master's next F3 cycle; the word stays as the master's last read (R53). -/
def busRead (s : State) (m : Master) (a : Nat) : State :=
  if busAlive s then
    let s := readEffect (busTurn s m) m a
    busDone { s with bus := { s.bus with lastRead := w16 (readWord s m a) } } m
  else s

end Sys2Proof.Machine
end

