-- ==== Sys2Proof/Machine/Bus.lean ====
section
/-! DEFINITION. The rows of the register bus (spec/03): one access each. -/

namespace Sys2Proof.Machine

/-- REGISTER_WRITE_PLAIN (R71). -/
def execRegisterWritePlain (m : Master) (a : Addr) (w : Word) (s : State) : Host.Outcome State Fault Refusal :=
  .next (busWrite s m a.toNat w)

/-- ALIAS_WRITE (R57): an address of the alias space. -/
def execAliasWrite (m : Master) (a : Addr) (w : Word) (s : State) : Host.Outcome State Fault Refusal :=
  .next (if isAlias a.toNat then busWrite s m a.toNat w else s)

/-- GUARD_VALUE_WRITE (R59, R60): a guarded address. -/
def execGuardValueWrite (m : Master) (a : Addr) (w : Word) (s : State) : Host.Outcome State Fault Refusal :=
  .next (if guarded a.toNat then busWrite s m a.toNat w else s)

/-- GUARD_WINDOW_EXPIRY (R60): 64 F3 cycles after the value write. -/
def execGuardWindowExpiry (m : Master) (s : State) : Host.Outcome State Fault Refusal :=
  .next (match halfOf s m with
    | some h => expireHalf (s.reach (h.time + 1040)) m
    | none => s)

/-- CHIP_RESET (R63). -/
def execChipReset (m : Master) (w : Word) (s : State) : Host.Outcome State Fault Refusal := .next (busWrite s m 0x111 w)

/-- CLOCHE_OVERRIDE (R73). -/
def execClocheOverride (m : Master) (w : Word) (s : State) : Host.Outcome State Fault Refusal := .next (busWrite s m 0x113 w)

/-- CLOCHE_RELEASE (R64, R73). -/
def execClocheRelease (m : Master) (w : Word) (s : State) : Host.Outcome State Fault Refusal := .next (busWrite s m 0x115 w)

/-- KEEP_WE (R74). -/
def execKeepWe (m : Master) (w : Word) (s : State) : Host.Outcome State Fault Refusal := .next (busWrite s m 0x117 w)

/-- SHUTDOWN_CLEAR (R64, R473). -/
def execShutdownClear (m : Master) (w : Word) (s : State) : Host.Outcome State Fault Refusal := .next (busWrite s m 0x119 w)

/-- FW_COMMIT (R74). -/
def execFwCommit (m : Master) (w : Word) (s : State) : Host.Outcome State Fault Refusal := .next (busWrite s m 0x11B w)

/-- FAULT_FORCE_REGISTER (R528). -/
def execFaultForceRegister (m : Master) (k : Block) (w : Word) (s : State) : Host.Outcome State Fault Refusal :=
  .next (busWrite s m (0x1000 + 0x40 * k.val + 0x3F) w)

/-- PERTURB_ARM (R529). -/
def execPerturbArm (m : Master) (w : Word) (s : State) : Host.Outcome State Fault Refusal := .next (busWrite s m 0x10001 w)

/-- DOORBELL_WRITE (R78 to R80). -/
def execDoorbellWrite (m : Master) (n : Mbox) (w : Word) (s : State) : Host.Outcome State Fault Refusal :=
  .next (busWrite s m (0x800 + 0x100 * n.val + 0x7F) w)

/-- MAILBOX_ACK (R78). -/
def execMailboxAck (m : Master) (n : Mbox) (w : Word) (s : State) : Host.Outcome State Fault Refusal :=
  .next (busWrite s m (0x800 + 0x100 * n.val + 0xFF) w)

/-- FAULT_ACK (R516). -/
def execFaultAck (m : Master) (k : Block) (w : Word) (s : State) : Host.Outcome State Fault Refusal :=
  .next (busWrite s m (0x1000 + 0x40 * k.val + 3) w)

/-- RELEASE_POST (R383). -/
def execReleasePost (m : Master) (w : Word) (s : State) : Host.Outcome State Fault Refusal := .next (busWrite s m 0x4013 w)

/-- RING_SNAPSHOT_READ (R382). -/
def execRingSnapshotRead (m : Master) (s : State) : Host.Outcome State Fault Refusal := .next (busRead s m 0x4002)

/-- TRIG_FORCE (R211). -/
def execTrigForce (m : Master) (w : Word) (s : State) : Host.Outcome State Fault Refusal := .next (busWrite s m 0x208 w)

end Sys2Proof.Machine
end

