-- ==== Sys2Proof/Machine/Engine.lean ====
section
/-! DEFINITION. Loop engines and set-point generators (spec/09): gain tables, coefficient swaps, region scheduling,
profiles, waveforms and sines, as commands and as the rows that their samples make due. -/

namespace Sys2Proof.Machine

/-- GAIN_TABLE_LOAD (R285, R311): all 17 points of a table in every bed named. -/
def execGainTableLoad (s : State) : Host.Outcome State Fault Refusal :=
  .next (onCommand s 0x0406 (fun p => !bit (wAt p 2) 0) (fun c =>
    checked s
      [needParam (decide (par c 0 ≠ 0)) 0, needParam (decide (1 ≤ par c 1) && decide (par c 1 ≤ 31)) 1,
       needParam (decide (par c 2 < 2)) 2]
      (fun s => postOk ((bedMask (par c 0)).foldl (fun s b =>
        (List.range 17).foldl (fun s i => s.modGainPt (1024 * b + 32 * par c 1 + i) (fun _ => par c (3 + i))) s) s))))

/-- GAIN_TABLE_READ (R311). -/
def execGainTableRead (s : State) : Host.Outcome State Fault Refusal :=
  .next (onCommand s 0x0406 (fun p => bit (wAt p 2) 0) (fun c =>
    let b := (bedMask (par c 0)).headD 0
    checked s
      [needParam (decide ((bedMask (par c 0)).length = 1)) 0, needParam (decide (par c 1 ≤ 31)) 1, needParam (decide (par c 2 = 1)) 2]
      (fun s => postOk s ((List.range 17).map (fun i => w16 (gainPoint s b (par c 1) i))))))

/-- A coefficient from two words (R286). -/
def coefOf (c : Current) (i : Nat) : Coef := { m := intW (w16 (par c i)), e := ofTwos 6 (par c (i + 1)) }

/-- A coefficient set from 16 words (R286). -/
def setOf (c : Current) (i : Nat) : CoefSet :=
  { kp := coefOf c i, ki := coefOf c (i + 2), kd := coefOf c (i + 4), kfv := coefOf c (i + 6), kfa := coefOf c (i + 8)
    kin := coefOf c (i + 10), uMin := intW (w16 (par c (i + 12))), uMax := intW (w16 (par c (i + 13)))
    dfShift := bits (par c (i + 14)) 0 4, gt := bits (par c (i + 14)) 4 5
    gtP := bit (par c (i + 14)) 9, gtI := bit (par c (i + 14)) 10, vinNom := intW (w16 (par c (i + 15))) }

/-- The first invalid word of a set (R286), which must be all zero where the mask leaves its law out. -/
def needSet (c : Current) (i : Nat) (used : Bool) : List (Option Bad) :=
  if used then
    [[1, 3, 5, 7, 9, 11].findSome? (fun k =>
       let e := ofTwos 6 (par c (i + k))
       needParam (decide (par c (i + k) < 64) && decide (-24 ≤ e) && decide (e ≤ 15)) (i + k)),
     needParam (decide (intW (w16 (par c (i + 12))) < intW (w16 (par c (i + 13))))) (i + 13),
     needParam (decide (par c (i + 14) < 2048)) (i + 14)]
  else [needZero c i 16]

/-- The 16 words of a set (R286). -/
def setWords (k : CoefSet) : List Word :=
  [k.kp, k.ki, k.kd, k.kfv, k.kfa, k.kin].flatMap (fun x => [wInt x.m, w16 (toTwos 6 x.e)]) ++
  [wInt k.uMin, wInt k.uMax, w16 (k.dfShift + 16 * k.gt + flag 9 k.gtP + flag 10 k.gtI), wInt k.vinNom]

/-- The parameters that every COEF_SWAP shares (R312); `sets` when it carries sets, `timed` when it swaps. -/
def swapParams (c : Current) (sets timed : Bool) : List (Option Bad) :=
  needLoops c 0 ++ [needParam (decide (1 ≤ par c 3) && decide (par c 3 ≤ 3)) 3] ++
  (if timed then needWhen c 4 else [needZero c 4 5]) ++
  (if sets then needSet c 9 (bit (par c 3) 0) ++ needSet c 25 (bit (par c 3) 1) else []) ++
  [if timed && decide (par c 4 = 1) then needLead c (par64 c 5) 4 else none]

/-- Put the sets into the STAGED buffers of the laws named (R288). -/
def stageSets (s : State) (c : Current) : State :=
  (loopRange c 0).foldl (fun s l => s.modLoop l (fun x => { x with
    vStaged := if bit (par c 3) 0 then some (setOf c 9) else x.vStaged
    iStaged := if bit (par c 3) 1 then some (setOf c 25) else x.iStaged })) s

/-- Schedule the swap of the named loops (R289) and answer: at once with WHEN = AT, else after the swaps. -/
def scheduleSwaps (s : State) (c : Current) : State :=
  let ls := loopRange c 0
  let due := if par c 4 = 1 then par64 c 5 else s.now
  let replaced := ls.any (fun l => (s.loop l).swap.isSome)
  let s := ls.foldl (fun s l => s.modLoop l (fun x => { x with
    swap := some { due := due, volt := bit (par c 3) 0, curr := bit (par c 3) 1, cause := 1, region := 0xFF } })) s
  let t := dueBoundary s (par c 0) due
  let words := w16 ls.length :: w16 (b2n replaced) :: toWords 4 t
  if par c 4 = 1 then postOk s words else answerSwap (waitFor s .coefSwap words)

/-- DETAIL 10 (R310). -/
def needNoRegions (s : State) (ls : List Nat) : Option Bad := firstOf ls (fun l => needState (!(s.loop l).regions.enable) 10)

/-- COEF_SWAP_STAGE (R288, R312). -/
def execCoefSwapStage (s : State) : Host.Outcome State Fault Refusal :=
  .next (onCommand s 0x0408 (fun p => decide (wAt p 2 = 0)) (fun c =>
    checked s (swapParams c true false ++ [needNoMember s (loopRange c 0)] ++ needLoopsReady s (loopRange c 0))
      (fun s => postOk (stageSets s c) (w16 (par c 1) :: 0 :: toWords 4 0))))

/-- COEF_SWAP_SWAP (R289, R312). -/
def execCoefSwapSwap (s : State) : Host.Outcome State Fault Refusal :=
  .next (onCommand s 0x0408 (fun p => decide (wAt p 2 = 1)) (fun c =>
    checked s (swapParams c false true ++ [needNoMember s (loopRange c 0)] ++ needLoopsReady s (loopRange c 0) ++
        [needNoRegions s (loopRange c 0)])
      (fun s => scheduleSwaps s c)))

/-- COEF_SWAP_STAGE_SWAP (R288, R289, R312). -/
def execCoefSwapStageSwap (s : State) : Host.Outcome State Fault Refusal :=
  .next (onCommand s 0x0408 (fun p => decide (wAt p 2 = 2)) (fun c =>
    checked s (swapParams c true true ++ [needNoMember s (loopRange c 0)] ++ needLoopsReady s (loopRange c 0) ++
        [needNoRegions s (loopRange c 0)])
      (fun s => scheduleSwaps (stageSets s c) c)))

/-- COEF_SWAP_READ (R312). -/
def execCoefSwapRead (s : State) : Host.Outcome State Fault Refusal :=
  .next (onCommand s 0x0408 (fun p => decide (wAt p 2 = 3)) (fun c =>
    let l := par c 0
    checked s (needLoops c 0 ++ [needParam (decide (par c 1 = 1)) 1] ++ swapParams c false false ++ [needNoMember s [l]] ++
        needLoopsReady s [l])
      (fun s =>
        let x := s.loop l
        let v := fun (k : Option CoefSet) => setWords (k.getD (factorySet l true))
        let i := fun (k : Option CoefSet) => setWords (k.getD (factorySet l false))
        postOk s (v x.vActive ++ v x.vStaged ++ i x.iActive ++ i x.iStaged ++ [w16 (b2n x.swap.isSome)]))))

/-- The quantity of VAR on a loop (R292): 2 is the primary one. -/
def varVolt (x : LoopState) (var : Nat) : Bool := if var = 0 then true else if var = 1 then false else primaryVolt x.mode

/-- REGION_SET_DEFINE (R292, R293, R296, R313). -/
def execRegionSetDefine (s : State) : Host.Outcome State Fault Refusal :=
  .next (onCommand s 0x0407 (fun p => decide (wAt p 2 = 0)) (fun c =>
    let ls := loopRange c 0
    let n := par c 5
    let b := fun (i : Nat) => parF c (6 + 2 * i)
    checked s
      (needLoops c 0 ++
       [needParam (decide (par c 3 ≤ 1)) 3, needParam (decide (par c 4 ≤ 2)) 4, needParam (decide (1 ≤ n) && decide (n ≤ 8)) 5,
        needParam (f32Finite (parF c 6) && (dec 0 0).le (f32 (parF c 6))) 6,
        (rangeFrom 1 7).findSome? (fun i =>
          if i < n then needParam (f32Finite (b i) && (decide (i = 1) || (f32 (b (i - 1))).lt (f32 (b i)))) (6 + 2 * i)
          else needZero c (6 + 2 * i) 2),
        needNoMember s ls] ++ needLoopsReady s ls)
      (fun s =>
        let on := decide (par c 3 = 1)
        let cancelled := on && ls.any (fun l => (s.loop l).swap.isSome)
        let s := ls.foldl (fun s l =>
          let x := s.loop l
          let swap : Option Swap :=
            if on && !x.regions.enable then some { due := s.now, volt := true, curr := true, cause := 4, region := 0xFE }
            else if !on && x.regions.enable then some { due := s.now, volt := true, curr := true, cause := 4, region := 0xFF }
            else if on && decide (n ≤ x.regions.cur) then some { due := s.now, volt := true, curr := true, cause := 2, region := n - 1 }
            else x.regionSwap
          let volt := varVolt x (par c 4)
          s.modLoop l (fun x => { x with
            swap := if on then none else x.swap
            regionSwap := swap
            regions := { x.regions with
            enable := on, var := par c 4, count := n
            bounds := (rangeFrom 1 (n - 1)).map (fun i => setCode s l volt x.irange x.vrange (f32 (b i)))
            hyst := spanCode s l volt x.irange x.vrange (f32 (parF c 6)) } })) s
        postOk s [w16 ls.length, w16 (b2n cancelled)])))

/-- The swap that a write to the region in force schedules (R296): with CAUSE 3, beside another write's; a swap to another
region that is due stays. -/
def writtenSwap (s : State) (r : Nat) (volt curr : Bool) : Option Swap → Option Swap
  | none => some { due := s.now, volt := volt, curr := curr, cause := 3, region := r }
  | some w => if w.cause = 3 then some { w with volt := w.volt || volt, curr := w.curr || curr } else some w

/-- REGION_SET_WRITE (R296, R313). -/
def execRegionSetWrite (s : State) : Host.Outcome State Fault Refusal :=
  .next (onCommand s 0x0407 (fun p => decide (wAt p 2 = 1)) (fun c =>
    let ls := loopRange c 0
    let r := par c 3
    let v := bit (par c 4) 0
    let i := bit (par c 4) 1
    checked s
      (needLoops c 0 ++
       [needParam (decide (r ≤ 7)) 3, needParam (decide (1 ≤ par c 4) && decide (par c 4 ≤ 3)) 4] ++
       needSet c 5 v ++ needSet c 21 i ++ [needNoMember s ls] ++ needLoopsReady s ls)
      (fun s => postOk (ls.foldl (fun s l => s.modLoop l (fun x => { x with
        regions := { x.regions with
          volt := if v then tins (tdel x.regions.volt r) r (setOf c 5) else x.regions.volt
          curr := if i then tins (tdel x.regions.curr r) r (setOf c 21) else x.regions.curr }
        regionSwap := if x.regions.enable ∧ x.inUse = some r then writtenSwap s r v i x.regionSwap else x.regionSwap })) s) [w16 ls.length])))

/-- REGION_SET_READ (R313). -/
def execRegionSetRead (s : State) : Host.Outcome State Fault Refusal :=
  .next (onCommand s 0x0407 (fun p => decide (wAt p 2 = 2)) (fun c =>
    checked s (needLoops c 0 ++ [needParam (decide (par c 1 = 1)) 1, needNoMember s [par c 0]] ++ needLoopsReady s [par c 0])
      (fun s =>
        let g := (s.loop (par c 0)).regions
        postOk s ([w16 (b2n g.enable), w16 g.var, w16 g.count, w16 g.cur, w16 (b2n g.known)] ++
          (rangeFrom 1 7).map (fun i => wInt (boundAt g i)) ++ [wInt g.hyst]))))

/-! Profiles. -/

/-- A planned move: nj, na, nv (R298). -/
structure Plan where
  nj : Nat
  na : Nat
  nv : Nat
deriving DecidableEq, Repr

/-- The plan of a move of `d` codes under limits in codes per sample, sample² and sample³, in binary64 (R298). -/
def planMove (d v a j : Frac) : Plan :=
  if d.isZero then ⟨0, 0, 0⟩
  else
    let two := Frac.ofInt 2
    let tri := (f64mul v j).lt (f64mul a a)
    let tj := if tri then f64sqrt (f64div v j) else f64div a j
    let ta := if tri then Frac.ofInt 0 else f64sub (f64div v a) tj
    let full := f64add (f64mul two tj) ta
    let rate := f64mul (f64mul j tj) (f64add tj ta)
    let n := fun (x : Frac) => x.ceil.toNat
    if (f64mul rate full).le d then ⟨n tj, n ta, n (f64sub (f64div d rate) full)⟩
    else if (f64mul (f64mul two j) (f64mul (f64mul tj tj) tj)).le d then
      let root := f64sqrt (f64add (f64mul tj tj) (f64div (f64mul (Frac.ofInt 4) d) (f64mul j tj)))
      ⟨n tj, n (f64div (f64sub root (f64mul (Frac.ofInt 3) tj)) two), 0⟩
    else ⟨n (f64cbrt (f64div d (f64mul two j))), 0, 0⟩

def planLen (p : Plan) : Nat := 4 * p.nj + 2 * p.na + p.nv

/-- A limit per secondⁿ in codes per sampleⁿ (R298). -/
def perSample (s : State) (l n : Nat) (v : BitVec 32) : Frac :=
  let x := s.loop l
  let dt : Frac := ⟨sampleTicks s l, 3200000000⟩
  f64 ((List.range n).foldl (fun a _ => a.mul dt) (spanOf s l (primaryVolt x.mode) x.irange x.vrange (f32 v)))

/-- The target code of a PROFILE_MOVE on a loop (R236). -/
def profileTarget (s : State) (c : Current) (l : Nat) : Int :=
  let x := s.loop l
  setCode s l (primaryVolt x.mode) x.irange x.vrange (f32 (parF c 2))

/-- The plan of a loop's move. -/
def profilePlan (s : State) (c : Current) (l : Nat) : Plan :=
  planMove (Frac.ofInt ((profileTarget s c l) - (s.loop l).setPoint).natAbs)
    (perSample s l 1 (parF c 4)) (perSample s l 2 (parF c 6)) (perSample s l 3 (parF c 8))

/-- The plans of all named loops; with SYNC_END that of the longest move (R298). -/
def profilePlans (s : State) (c : Current) (ls : List Nat) : List (Nat × Plan) :=
  let ps := ls.map (fun l => (l, profilePlan s c l))
  if bit (par c 15) 3 then
    let best := ps.foldl (fun (a : Plan) p => if planLen a < planLen p.2 then p.2 else a) ⟨0, 0, 0⟩
    ps.map (fun p => (p.1, best))
  else ps

/-- The run of a move (R298, R299), with 48 fraction bits (R276). -/
def profileRun (s : State) (c : Current) (l tag : Nat) (p : Plan) (start : BurstStart) : ProfileRun :=
  let target := profileTarget s c l
  let d := target - (s.loop l).setPoint
  let den := p.nj * (p.nj + p.na) * (2 * p.nj + p.na + p.nv)
  let j := f64div (Frac.ofInt d) (Frac.ofInt den)
  { tag := tag, ring := c.ring.toNat, start := start, nj := p.nj, na := p.na, nv := p.nv, target := target * 2 ^ 48
    begun := false, k := 0, j := (j.mul (Frac.ofInt (2 ^ 48))).round, p := (s.loop l).setPoint * 2 ^ 48, v := 0, a := 0 }

/-- A limit that must be a positive number. -/
def needPositive (c : Current) (i : Nat) : Option Bad :=
  needParam (f32Finite (parF c i) && (dec 0 0).lt (f32 (parF c i))) i

/-- PROFILE_MOVE (R298, R314). -/
def execProfileMove (s : State) : Host.Outcome State Fault Refusal :=
  .next (onCommand s 0x0409 (fun _ => true) (fun c =>
    let ls := loopRange c 0
    let f := par c 15
    let start := startOf s c 10 (f % 4) (bit f 2)
    let plans := profilePlans s c ls
    let big := fun (p : Plan) => decide (max p.nj (max p.na p.nv) ≤ max32)
    let plan := fun (l : Nat) => ((plans.find? (fun p => decide (p.1 = l))).map (fun p => p.2)).getD ⟨0, 0, 0⟩
    checked s
      (needLoops c 0 ++
       [needParam (f32Finite (parF c 2)) 2, needPositive c 4, needPositive c 6, needPositive c 8] ++ needStart c 10 ++
       [needParam (decide (f < 16)) 15,
        firstOf ls (fun l => let x := s.loop l
          if inNominal s l (primaryVolt x.mode) x.irange x.vrange (f32 (parF c 2)) then none else some (0x12, 0x8002)),
        if par c 10 = 1 then needLead c (par64 c 11) 4 else none,
        if plans.all (fun p => big p.2) then none else some (0x12, 0x8008)] ++
       needTags s c ls.length ++ needSource s ls)
      (fun s => startSources s c ls (fun l tag => .profile (profileRun s c l tag (plan l) start))
        (w16 ls.length :: toWords 4 (startTicks start) ++ [c.tag] ++ toWords 2 (planLen (plan (par c 0)))))))

/-- PROFILE_MOVE_END (R299, R308): sample N has come. -/
def execProfileMoveEnd (l : LoopId) (s : State) : Host.Outcome State Fault Refusal :=
  .next (match (s.loop l.val).source with
    | .profile r => if r.begun ∧ r.k = profileLen r then endLoopRun s l.val 0 2 (s.loop l.val).lastSample else s
    | _ => s)

/-! Waveforms. -/

/-- Blocks of 64 samples (R300). -/
def waveBlocks (n : Nat) : Nat := (n + 63) / 64

/-- Blocks in use but for a segment's own, with those of the loads in progress. -/
def blocksUsed (s : State) (g : Nat) : Nat :=
  (((tents s.lp.wave).filter (fun e => decide (e.1 ≠ g))).map (fun e => waveBlocks e.2.length)).sum +
  ((s.lp.waveLoads.filter (fun l => !l.void && decide (l.seg ≠ g))).map (fun l => waveBlocks l.samples)).sum

/-- The loads of a segment in progress register nothing any more (DESIGN CHOICE 183). -/
def voidLoads (s : State) (g : Nat) : State :=
  { s with lp := { s.lp with waveLoads := s.lp.waveLoads.map (fun l => if l.seg = g then { l with void := true } else l) } }

/-- The segment is in the list of a running WAVE_RUN (R310 DETAIL 11). -/
def waveListed (s : State) (g : Nat) : Bool :=
  (tents s.lp.loop).any (fun e => match e.2.source with | .wave r => r.entries.any (fun x => decide (x.seg = g)) | _ => false)

/-- WAVE_LOAD (R300, R315): the blocks are freed, and the read begins. -/
def execWaveLoad (s : State) : Host.Outcome State Fault Refusal :=
  .next (onCommand s 0x040A (fun _ => true) (fun c =>
    let g := par c 0
    let unreg := bit (par c 5) 0
    let a := 64 * par32 c 1
    let n := par32 c 3
    checked s
      ((if unreg then [needParam (decide (g < 1024)) 0]
        else [needParam (decide (g < 1024)) 0, needParam (decide (a + 2 * n ≤ patternBytes s)) 1,
              needParam (decide (16 ≤ n) && decide (n ≤ 1048576)) 3, needParam (decide (par c 5 < 2)) 5]) ++
       [needTag s c.tag.toNat, needState (!waveListed s g) 11,
        if unreg then none else needBusy (decide (blocksUsed s g + waveBlocks n ≤ 32768)) 0])
      (fun s =>
        let s := (voidLoads (accept s c 0) g).modWaveSeg g (fun _ => [])
        if unreg then endWork s (workEnd s c.tag.toNat c.ring.toNat 0 0 0 0 1 0 0 0)
        else { s with lp := { s.lp with
          waveLoads := s.lp.waveLoads ++ [{ tag := c.tag.toNat, ring := c.ring.toNat, seg := g, addr := a, samples := n, void := false }] } })))

/-- WAVE_LOAD_DONE (R315): the oldest load ends; after uncorrectable errors the segment is left unregistered. -/
def execWaveLoadDone (ue : Bool) (s : State) : Host.Outcome State Fault Refusal :=
  .next (match s.lp.waveLoads with
    | [] => s
    | l :: r =>
      let s := { s with lp := { s.lp with waveLoads := r } }
      if ue then endWork s (workEnd s l.tag l.ring 0x12 0x8008 0 0 1 0 0 0)
      else
        let s := if l.void then s else s.modWaveSeg l.seg (fun _ => (List.range l.samples).map (fun i => intW (w16 (dramWord s (l.addr + 2 * i)))))
        endWork s (workEnd s l.tag l.ring 0 0 0 0 1 0 0 0))

/-- The list of a WAVE_RUN START (R316). -/
def waveEntries (c : Current) : List WaveEntry :=
  (List.range (par c 14)).map (fun i => { seg := par c (15 + 4 * i), step := par32 c (16 + 4 * i), count := par c (18 + 4 * i) })

/-- The code of OFFSET on a loop (R236, R316), as the generator holds it. -/
def offsetCode (s : State) (l : Nat) (v : BitVec 32) : Frac :=
  let x := s.loop l
  Frac.ofInt (setCode s l (primaryVolt x.mode) x.irange x.vrange (f32 v))

/-- The code of AMP on a loop (R306): an amplitude. -/
def ampCode (s : State) (l : Nat) (v : BitVec 32) : Frac :=
  let x := s.loop l
  Frac.ofInt (spanCode s l (primaryVolt x.mode) x.irange x.vrange (f32 v))

/-- WAVE_RUN_START (R301, R316). -/
def execWaveRunStart (s : State) : Host.Outcome State Fault Refusal :=
  .next (onCommand s 0x040B (fun p => decide (wAt p 2 = 0)) (fun c =>
    let ls := loopRange c 0
    let f := par c 9
    let start := startOf s c 4 (f % 4) (bit f 2)
    let n := par c 14
    checked s
      (needLoops c 0 ++ [needParam (decide (par c 3 = 0)) 3] ++ needStart c 4 ++
       [needParam (decide (f < 32)) 9, needParam (f32Finite (parF c 12)) 12, needParam (decide (1 ≤ n) && decide (n ≤ 26)) 14,
        (List.range n).findSome? (fun i => firstBad
          [needParam (decide (par c (15 + 4 * i) < 1024) && !(s.waveSeg (par c (15 + 4 * i))).isEmpty) (15 + 4 * i),
           needParam (decide (1 ≤ par32 c (16 + 4 * i)) && decide (par32 c (16 + 4 * i) ≤ 2 ^ 31)) (16 + 4 * i),
           needParam (decide (par c (18 + 4 * i) ≠ 0)) (18 + 4 * i)]),
        firstOf ls (fun l => let x := s.loop l
          if inNominal s l (primaryVolt x.mode) x.irange x.vrange (f32 (parF c 12)) then none else some (0x12, 0x8002)),
        if par c 4 = 1 then needLead c (par64 c 5) 4 else none] ++
       needTags s c ls.length ++ needSource s ls)
      (fun s => startSources s c ls (fun l tag => .wave
          { tag := tag, ring := c.ring.toNat, start := start, entries := waveEntries c, passes := par c 10
            scale := Frac.ofInt (intW (w16 (par c 11))), offset := offsetCode s l (parF c 12), segEvents := bit f 4
            restore := if bit f 3 then some (Frac.ofInt (s.loop l).setPoint) else none
            entry := 0, rep := 0, pass := 0, n := 0, f := 0, native := 0, instances := 0, prev := [], jumped := none
            jump := none, stopping := false, ended := false })
        (w16 ls.length :: toWords 4 (startTicks start) ++ [c.tag]))))

/-- The waveform run of a loop. -/
def waveOn (s : State) (l : Nat) : Option WaveRun := match (s.loop l).source with | .wave r => some r | _ => none

/-- DETAIL 12 (R310). -/
def needWave (s : State) (ls : List Nat) : Option Bad := firstOf ls (fun l => needState (waveOn s l).isSome 12)
def needSine (s : State) (ls : List Nat) : Option Bad := firstOf ls (fun l => needState (sineOn s l).isSome 12)

/-- WAVE_RUN_JUMP (R303, R316): the request waits in each loop's generator. -/
def execWaveRunJump (s : State) : Host.Outcome State Fault Refusal :=
  .next (onCommand s 0x040B (fun p => decide (wAt p 2 = 1)) (fun c =>
    let ls := loopRange c 0
    checked s
      (needLoops c 0 ++
       [needParam (ls.all (fun l => (waveOn s l).all (fun r => decide (par c 3 < r.entries.length)))) 3,
        needLoopsFree s ls, needNoMember s ls] ++ needLoopsReady s ls ++ [needWave s ls])
      (fun s => postOk (ls.foldl (fun s l => s.modLoop l (fun x => match x.source with
        | .wave r => { x with source := .wave { r with jump := some (par c 3, none, false) } }
        | _ => x)) s) [w16 ls.length])))

/-- WAVE_RUN_STOP (R316): a normal end at the next sample boundary, where the run's sample takes it. -/
def execWaveRunStop (s : State) : Host.Outcome State Fault Refusal :=
  .next (onCommand s 0x040B (fun p => decide (wAt p 2 = 2)) (fun c =>
    let ls := loopRange c 0
    checked s
      (needLoops c 0 ++ [needParam (decide (par c 3 = 0)) 3, needLoopsFree s ls, needNoMember s ls] ++ needLoopsReady s ls ++
       [needWave s ls])
      (fun s => postOk (ls.foldl (fun s l => s.modLoop l (fun x => match x.source with
        | .wave r => { x with source := .wave { r with stopping := true } }
        | _ => x)) s) [w16 ls.length])))

/-- WAVE_RUN_END (R302, R308). -/
def execWaveRunEnd (l : LoopId) (s : State) : Host.Outcome State Fault Refusal :=
  .next (match waveOn s l.val with
    | some r => if r.ended then endLoopRun s l.val 0 2 (s.loop l.val).lastSample else s
    | none => s)

/-! Sines. -/

/-- AMP and OFFSET of a SINE_RUN on the loops named: AMP ≥ 0, and both ends within the nominal range (R317). -/
def needSwing (s : State) (c : Current) (ls : List Nat) : List (Option Bad) :=
  let a := f32 (parF c 7)
  let o := f32 (parF c 9)
  [needParam (f32Finite (parF c 7) && (dec 0 0).le a) 7, needParam (f32Finite (parF c 9)) 9,
   firstOf ls (fun l => let x := s.loop l
     let ok := inNominal s l (primaryVolt x.mode) x.irange x.vrange
     if ok (o.add a) && ok (o.sub a) then none else some (0x12, 0x8002))]

/-- FW within the limit of the path (R304). -/
def needFw (c : Current) : Option Bad := needParam (decide (512 ≤ par c 0) || decide (par32 c 3 ≤ 2748779069)) 3

/-- EPOCH_SYNC needs a valid synchronisation (R310 DETAIL 13). -/
def needEpoch (s : State) (c : Current) : Option Bad := needState (!bit (par c 20) 1 || s.link.syncValid) 13

/-- SINE_RUN_START (R304 to R306, R317). -/
def execSineRunStart (s : State) : Host.Outcome State Fault Refusal :=
  .next (onCommand s 0x040C (fun p => decide (wAt p 2 = 0)) (fun c =>
    let ls := loopRange c 0
    let f := par c 20
    let start := startOf s c 15 (bits f 2 2) (bit f 4)
    let ramp := par c 21
    checked s
      (needLoops c 0 ++ [needFw c] ++ needSwing s c ls ++ needStart c 15 ++
       [needParam (decide (f < 32)) 20, if par c 15 = 1 then needLead c (par64 c 16) 4 else none] ++
       needTags s c ls.length ++ needSource s ls ++
       [needEpoch s c])
      (fun s => startSources s c ls (fun l tag => .sine
          { tag := tag, ring := c.ring.toNat, start := start, fw := par32 c 3, phi0 := par32 c 5
            epoch := if bit f 1 then s.link.syncEpoch else par64 c 11
            amp := { base := Frac.ofInt 0, goal := ampCode s l (parF c 7), len := ramp, gone := 0 }
            offset := { base := offsetCode s l (parF c 9), goal := offsetCode s l (parF c 9), len := 0, gone := 0 }
            cycles := par32 c 22, rampN := ramp, turns := 0, phase := 0, begun := none, prev := [], change := none
            past := [], stopAt := none, stopping := false, quiet := false })
        (w16 ls.length :: toWords 4 (startTicks start) ++ [c.tag]))))

/-- Tc of a SINE_RUN CHANGE or STOP: T, or the next sample boundary (R306, R317). -/
def sineTc (s : State) (c : Current) : Nat := if par c 15 = 1 then par64 c 16 else nextBoundary s (par c 0)

/-- SINE_RUN_CHANGE (R306, R317). -/
def execSineRunChange (s : State) : Host.Outcome State Fault Refusal :=
  .next (onCommand s 0x040C (fun p => decide (wAt p 2 = 1)) (fun c =>
    let ls := loopRange c 0
    checked s
      (needLoops c 0 ++ [needFw c] ++ needSwing s c ls ++ needWhen c 15 ++
       [needParam (decide (par c 20 < 32)) 20, if par c 15 = 1 then needLead c (par64 c 16) 4 else none,
        needLoopsFree s ls, needNoMember s ls] ++ needLoopsReady s ls ++ [needSine s ls, needEpoch s c])
      (fun s =>
        let tc := sineTc s c
        let s := ls.foldl (fun s l =>
          let a := ampCode s l (parF c 7)
          let o := offsetCode s l (parF c 9)
          let k : SineChange := { tc := tc, fw := par32 c 3, absolute := bit (par c 20) 0, phi0 := par32 c 5, amp := a, offset := o, rampN := par c 21 }
          s.modLoop l (fun x => match x.source with
            | .sine r => { x with source := .sine { r with change := some k } }
            | _ => x)) s
        postOk s (w16 ls.length :: toWords 4 tc))))

/-- SINE_RUN_STOP (R306, R317): the ramp-down begins at the first boundary at or after Tc. -/
def execSineRunStop (s : State) : Host.Outcome State Fault Refusal :=
  .next (onCommand s 0x040C (fun p => decide (wAt p 2 = 2)) (fun c =>
    let ls := loopRange c 0
    checked s
      (needLoops c 0 ++ needWhen c 15 ++
       [needParam (decide (par c 20 < 32)) 20, if par c 15 = 1 then needLead c (par64 c 16) 4 else none,
        needLoopsFree s ls, needNoMember s ls] ++ needLoopsReady s ls ++ [needSine s ls, needEpoch s c])
      (fun s =>
        let tc := sineTc s c
        let s := ls.foldl (fun s l => s.modLoop l (fun x => match x.source with
          | .sine r => { x with source := .sine { r with stopAt := some tc } }
          | _ => x)) s
        postOk s (w16 ls.length :: toWords 4 tc))))

/-- SINE_CHANGE_DUE (R306). -/
def execSineChangeDue (l : LoopId) (s : State) : Host.Outcome State Fault Refusal :=
  .next (match (sineOn s l.val).bind (fun r => r.change) with
    | some c =>
      let t := dueBoundary s l.val c.tc
      sineChange (s.reach t) l.val t
    | none => s)

/-- SINE_CYCLES_END (R306): CYCLES whole turns have passed, and the ramp-down begins. -/
def execSineCyclesEnd (l : LoopId) (s : State) : Host.Outcome State Fault Refusal :=
  .next (match sineOn s l.val with
    | some r => if cyclesDone r then s.modLoop l.val (fun x => { x with source := .sine (sineStop r) }) else s
    | none => s)

/-- SINE_RAMP_END (R308): the run ends and holds OFFSET. -/
def execSineRampEnd (l : LoopId) (s : State) : Host.Outcome State Fault Refusal :=
  .next (match sineOn s l.val with
    | some r => if sineDone r then endLoopRun s l.val 0 2 (s.loop l.val).lastSample else s
    | none => s)

end Sys2Proof.Machine
end

