-- ==== Sys2Proof/Machine/Faults.lean ====
section
/-! DEFINITION. The rows of spec/17, with the trigger inputs and the forced trigger pulses (R211, R212). -/

namespace Sys2Proof.Machine

/-! Commands (R531 to R534). -/

/-- Blocks of FAULT_CONFIG's word 0 (R532). -/
def configBlocks (n : Nat) : List Nat := if n = 0x1F then List.range 16 else [n]

/-- Parameter checks of FAULT_CONFIG (R532). -/
def configChecks (c : Current) (read : Bool) : List (Option Bad) :=
  let k := par c 0
  let n := srcCount (if k = 0x1F then 0 else k)
  let count := decide (1 ≤ par c 2) && decide (par c 2 ≤ 64)
  [needParam (decide (k < 28) || (decide (k = 0x1F) && !read)) 0,
   needParam (decide (par c 1 < n) && (decide (par c 1 + par c 2 ≤ n) || !count)) 1,
   needParam count 2,
   needBits c 3 1]

/-- A reaction word keeps the layout of R511. -/
def reactLegal (w : Word) : Bool := decide (w.toNat < 64) && decide (reactOf w ≤ 4)

/-- FAULT_CONFIG (R532). -/
def execFaultConfig (s : State) : Host.Outcome State Fault Refusal :=
  .next (onCommand s 0x0C00 (fun p => !bit (wAt p 3) 0) (fun c =>
    let words := (List.range (par c 2)).map (fun i => w16 (par c (4 + i)))
    checked s (configChecks c false ++ [needEach words 4 reactLegal]) (fun s =>
      let s := (configBlocks (par c 0)).foldl (fun s k =>
        (List.range (par c 2)).foldl (fun s i => s.setReact k (par c 1 + i) (words.getD i 0)) s) s
      postOk s)))

/-- FAULT_CONFIG with READ (R532). -/
def execFaultConfigRead (s : State) : Host.Outcome State Fault Refusal :=
  .next (onCommand s 0x0C00 (fun p => bit (wAt p 3) 0) (fun c =>
    checked s (configChecks c true) (fun s =>
      postOk s ((List.range (par c 2)).map (fun i => s.react (par c 0) (par c 1 + i))))))

/-- FAULT_FORCE (R533). -/
def execFaultForce (s : State) : Host.Outcome State Fault Refusal :=
  .next (onCommand s 0x0C01 (fun _ => true) (fun c =>
    let atT := decide (par c 2 = 1)
    checked s ([needParam (decide (par c 0 < 28)) 0, needParam (decide (par c 1 < srcCount (par c 0))) 1] ++ needWhen c 2 ++
        [if atT then needLead c (par64 c 3) 4 else none]) (fun s =>
      let tc := epochOf (if atT then par64 c 3 else s.now)
      let e := (tc, par c 0, par c 1)
      let s := { s with flt := { s.flt with forceAt := s.flt.forceAt ++ [e] } }
      let s := if atT then s else fireForced s e
      postOk s (toWords 4 tc))))

/-- Parameter checks of a PERTURB_SET that writes (R529, R530, R534): KIND 0 clears the entry, whatever follows. -/
def perturbChecks (c : Current) : List (Option Bad) :=
  let kind := par c 2
  if kind = 0 then []
  else
    [needParam (decide (kind ≤ 8)) 2, needParam (targetOk kind (par c 3)) 3,
     needParam (amountOk kind (BitVec.ofNat 32 (par32 c 4))) 4, needParam (decide (1 ≤ par32 c 10)) 10,
     needParam (decide (par32 c 12 = 0) || decide (par32 c 10 ≤ par32 c 12)) 12]

/-- PERTURB_SET (R534). -/
def execPerturbSet (s : State) : Host.Outcome State Fault Refusal :=
  .next (onCommand s 0x0C02 (fun p => !bit (wAt p 1) 0) (fun c =>
    checked s ([needParam (decide (par c 0 < 16)) 0, needBits c 1 1] ++ perturbChecks c ++ [needState (!s.flt.armed) 29]) (fun s =>
      let p : Perturb := if par c 2 = 0 then {} else
        { kind := par c 2, target := par c 3, amount := BitVec.ofNat 32 (par32 c 4), start := par64 c 6,
          window := par32 c 10, period := par32 c 12, repeats := par c 14 }
      postOk (s.modPert (par c 0) (fun _ => p)))))

/-- PERTURB_SET with READ (R534). -/
def execPerturbSetRead (s : State) : Host.Outcome State Fault Refusal :=
  .next (onCommand s 0x0C02 (fun p => bit (wAt p 1) 0) (fun c =>
    checked s [needParam (decide (par c 0 < 16)) 0, needBits c 1 1] (fun s =>
      postOk s (entryWords (s.pert (par c 0))))))

/-! Windows of the perturbation entries (R530). -/

/-- PERTURB_WINDOW_START (R530): FIRED counts; a window still active ends first. -/
def execPerturbWindowStart (e : Fin 16) (s : State) : Host.Outcome State Fault Refusal :=
  .next (
    if s.flt.armed then
      match nextWindow (s.pert e.val) s.flt.armTime with
      | none => s
      | some (k, t) =>
        let s := endWindow (s.reach t) e.val
        s.modPert e.val (fun p => { p with active := true, fired := satAdd max16 p.fired 1, next := k + 1 })
    else s)

/-- PERTURB_WINDOW_END (R530). -/
def execPerturbWindowEnd (e : Fin 16) (s : State) : Host.Outcome State Fault Refusal :=
  .next (if (s.pert e.val).active then endWindow (s.reach (windowEnd (s.pert e.val))) e.val else s)

/-! The fault blocks (R515, R520). -/

/-- FAULT_REGISTER (R515): what waits for the block and what it detects in the same cycle; with neither, the next forced
fault of the block whose time comes (R533). -/
def execFaultRegister (k : Block) (direct : List DirectFault) (s : State) : Host.Outcome State Fault Refusal :=
  .next (
    let s := directFaults s k.val direct
    let s := if (registering s k.val).isEmpty then
        (match forceFirst s k.val with
         | some e => fireForced s e
         | none => s)
      else s
    registerCycle s k.val)

/-- ERRN_PULSE_END (R520). -/
def execErrnPulseEnd (s : State) : Host.Outcome State Fault Refusal :=
  .next (match s.bus.errnPulse with
    | none => s
    | some t =>
      let s := s.reach t
      { s with bus := { s.bus with errnPulse := none } })

/-! Trigger inputs and the forced pulse (R211, R212). -/

/-- A run that waits for this edge starts at the first F3 cycle at least 100 ns after its stamp (R226, R274). -/
def startAtEdge (n : Nat) (falling : Bool) (stamp : Nat) (b : BurstStart) : BurstStart :=
  if b = .tin n falling then .at (roundUp (stamp + 320) 16) else b

/-- The set-point generators' runs that wait for the edge. -/
def sourceAtEdge (f : BurstStart → BurstStart) : Source → Source
  | .dc => .dc
  | .sweep r => .sweep { r with start := f r.start }
  | .profile r => .profile { r with start := f r.start }
  | .wave r => .wave { r with start := f r.start }
  | .sine r => .sine { r with start := f r.start }

/-- Every run that waits for the edge (R274, R314, R345, R346, R367). -/
def runsAtEdge (s : State) (f : BurstStart → BurstStart) : State :=
  let s := ((tents s.lp.loop).map (fun e => e.1)).foldl (fun s l => s.modLoop l (fun x => { x with source := sourceAtEdge f x.source })) s
  let s := ((tents s.meas.avg).map (fun e => e.1)).foldl (fun s k => s.modAvg k (fun a => { a with
    run := a.run.map (fun r => { r with start := f r.start })
    lock := a.lock.map (fun r => { r with start := f r.start }) })) s
  ((tents s.meas.unit).map (fun e => e.1)).foldl (fun s u => modTimRun s u (fun r => { r with start := f r.start })) s

/-- TIN_EDGE (R212): the filter has passed an edge; its stamp is corrected for the filter. -/
def execTinEdge (n : Fin 4) (rising : Bool) (s : State) : Host.Outcome State Fault Refusal :=
  .next (
    let x := s.tin n.val
    let s := s.modTin n.val (fun x => { x with level := rising })
    if x.enable then
      let stamp := s.now - 16 * x.filter
      let s := s.modTin n.val (fun x =>
        if rising then { x with lastRise := some stamp } else { x with lastFall := some stamp })
      let s := if x.falling = !rising then
          ((s.noteSet 0x214 (w16 (2 ^ (4 + n.val)))).noteAdd (0x218 + n.val) x.count).modTin n.val (fun x => { x with stamp := stamp, count := satAdd max16 x.count 1, seen := true })
        else s
      let s := unitEdges s (fun _ w => decide (selSource w = 40 + n.val)) (256 * stamp) (!rising)
      runsAtEdge (tinReleases s n.val (!rising) stamp) (startAtEdge n.val (!rising) stamp)
    else s)

end Sys2Proof.Machine
end

