-- ==== Sys2Proof/Machine/Harvest.lean ====
section
/-! DEFINITION. The rows of harvest (spec/12): rings created, destroyed and governed (R391 to R394), the bank hand-over
(R370), the memory controller's answers (R372, R374), and the notification timer (R384). -/

namespace Sys2Proof.Machine

/-- A ring that must exist (R391): BAD_STATE, DETAIL 21. -/
def needLive (s : State) (r : Nat) : Option Bad := needState (decide ((s.ring r).state ≠ .free)) 21

/-- The space of rings that exist: base and bytes. -/
def ringSpaces (s : State) : List (Nat × Nat) :=
  ((tents s.harv.ring).filter (fun e => decide (e.2.state ≠ .free))).map (fun e => (e.2.base, ringBytes e.2))

/-- The lowest free base of the ring area aligned to `size` (R205, R392): the start of the area, or the end of a ring. -/
def freeBase (s : State) (size : Nat) : Option Nat :=
  let used := ringSpaces s
  let starts := (roundUp (patternBytes s) size) :: used.map (fun u => roundUp (u.1 + u.2) size)
  let fits := starts.filter (fun b => decide (patternBytes s ≤ b) && decide (b + size ≤ dataMib s * 2 ^ 20) &&
    used.all (fun u => decide (b + size ≤ u.1) || decide (u.1 + u.2 ≤ b)))
  fits.find? (fun b => fits.all (fun x => decide (b ≤ x)))

/-- RING_CREATE (R377, R384, R392). -/
def execRingCreate (s : State) : Host.Outcome State Fault Refusal :=
  .next (onCommand s 0x0800 (fun _ => true) (fun c =>
    let r := par c 0
    let base := freeBase s (4096 * 2 ^ par c 1)
    checked s
      [needParam (decide (par c 1 ≤ 18)) 1, needParam (decide (par c 2 ≤ 1)) 2, needDram s,
       needState (decide ((s.ring r).state = .free)) 20, needBusy base.isSome 0]
      (fun s =>
        let b := base.getD 0
        let s := s.modRing r (fun _ => {
          state := .live
          base := b
          sizeCode := par c 1
          drop := decide (par c 2 = 1)
          notifyUnits := par32 c 3
          notifyUs := par c 5
          armed := decide (par32 c 3 ≠ 0) || decide (par c 5 ≠ 0) })
        postOk s (toWords 4 b))))

/-- Every record already placed in the ring is acknowledged or abandoned (R393); an open LOSS record holds nothing back. -/
def ringDrained (s : State) (r : Nat) : Bool := (s.ring r).placed.all (fun x => x.done || x.hold)

/-- Loops and window monitors whose EVENT_RING names the ring (R393). -/
def eventLoops (s : State) (r : Nat) : List Nat := (List.range 544).filter (fun l => decide ((s.loop l).eventRing = r))
def eventMonitors (s : State) (r : Nat) : List Nat := (List.range 64).filter (fun u => decide ((s.wmon u).eventRing = r))

/-- Steps 3 and 4 of RING_DESTROY, and its response (R393). -/
def destroyRing (s : State) (r : Nat) : State :=
  let ls := if r = 0xFFFF then [] else eventLoops s r
  let us := if r = 0xFFFF then [] else eventMonitors s r
  let s := s.modRing r (fun _ => {})
  let s := ls.foldl (fun s l => s.modLoop l (fun x => { x with eventRing := 0xFFFF })) s
  let s := us.foldl (fun s u => s.modWmon u (fun x => { x with eventRing := 0xFFFF })) s
  let s := (List.range 16).foldl (fun s st => s.modStage st (fun x =>
    { x with telemCredit := if x.ring = r then .unasked else x.telemCredit })) s
  postOk s [w16 (ls.length + us.length)]

/-- A RING_DESTROY that waits goes on once its ring is drained (R82, R393). -/
def drainCheck (s : State) : State :=
  match s.fw.current with
  | some c => (match c.wait with
    | .ringDrain r => if ringDrained s r then destroyRing s r else s
    | _ => s)
  | none => s

/-- RING_DESTROY (R85, R393). -/
def execRingDestroy (s : State) : Host.Outcome State Fault Refusal :=
  .next (onCommand s 0x0801 (fun _ => true) (fun c =>
    let r := par c 0
    let named := (tents s.fw.progress).find? (fun e => decide (e.2.state = .running) && decide (e.2.ring.toNat = r))
    checked s [needDram s, needLive s r, named.bind (fun e => some (0x13, e.1))]
      (fun s => drainCheck (waitFor (s.modRing r (fun x => { x with closing := true })) (.ringDrain r)))))

/-- A producer that waits under STALL drops its record at once when its ring turns to DROP (R394): a window then runs
without a record. A step of a sweep, a lock-in window and a stamp record ask again, under DROP, at their next safe point;
the end records of work go on retrying (R214, R380). -/
def dropWaiter (s : State) (r : Nat) (w : Waiter) : State :=
  match w with
  | .measWindow key =>
    (match (s.avg key).run with
    | some y =>
      let x := newWindow s key y
      modMeasRun (dropRecord s r 1) key (fun y => { y with win := some x })
    | none => s)
  | .timWindow u =>
    if (s.tiu u).mode = 4 then drainStamps s u (s.tiu u).fifo.length
    else modWin (dropRecord s r 1) u (fun x => { x with running := true })
  | _ => s

/-- A ring takes POLICY (R394). -/
def setPolicy (s : State) (drop : Bool) (r : Nat) : State :=
  let s := s.modRing r (fun c => { c with drop := drop })
  if drop then
    let ahead := fun (x : Waiter × Nat) => match x.1 with | .burstEnd _ => true | .completion _ => true | _ => false
    let l := (s.ring r).waiters.filter (fun x => !ahead x)
    let s := s.modRing r (fun c => { c with waiters := c.waiters.filter ahead })
    let s := l.foldl (fun s x => dropWaiter s r x.1) s
    retryEnds s s.harv.ends
  else s

/-- A ring takes NOTIFY, which arms it (R384, R394). -/
def setNotify (s : State) (units us r : Nat) : State :=
  notifyUnitsCheck (s.modRing r (fun c => { c with notifyUnits := units, notifyUs := us, armed := true, advanced := none })) r

/-- The checks and the settings of RING_POLICY (R394); with READ the snapshot is taken after them. -/
def ringPolicyOn (s : State) (c : Current) : State :=
  let f := par c 2
  let l := rangeFrom (par c 0) (par c 1)
  checked s
    [needParam (decide (1 ≤ par c 1) && decide (par c 0 + par c 1 ≤ 65536) && (!bit f 2 || decide (par c 1 = 1))) 1,
     needBits c 2 3, needParam (!bit f 0 || decide (par c 3 ≤ 1)) 3, needDram s, firstOf l (needLive s)]
    (fun s =>
      let s := if bit f 0 then l.foldl (fun s r => setPolicy s (decide (par c 3 = 1)) r) s else s
      let s := if bit f 1 then l.foldl (fun s r => setNotify s (par32 c 4) (par c 6) r) s else s
      if bit f 2 then
        postOk s (snapWords s (par c 0) ++ toWords 2 (s.ring (par c 0)).notifyUnits ++ [w16 (s.ring (par c 0)).notifyUs])
      else postOk s)

/-- RING_POLICY without READ (R394). -/
def execRingPolicy (s : State) : Host.Outcome State Fault Refusal :=
  .next (onCommand s 0x0802 (fun p => !bit (wAt p 2) 2) (ringPolicyOn s))

/-- RING_POLICY with READ (R394). -/
def execRingPolicyRead (s : State) : Host.Outcome State Fault Refusal :=
  .next (onCommand s 0x0802 (fun p => bit (wAt p 2) 2) (ringPolicyOn s))

/-- BANK_HANDOFF_TIMEOUT (R370): the filling bank's oldest word has waited 8 µs, and the other bank is free. -/
def execBankHandoffTimeout (st : Fin 17) (s : State) : Host.Outcome State Fault Refusal :=
  .next (match fillBank (s.stager st.val) with
    | x :: _ => if (s.stager st.val).handed then s else handOver (s.reach (x.entered + 25600)) st.val
    | [] => s)

/-- POISON in the header of a record that the writer reads (R372); a header already in DRAM is written again. -/
def poisonRecord (s : State) (st : Nat) (x : Staged) : State :=
  let fl : Byte := (x.bytes.getD 1 0) ||| 1
  let s := if 0 < x.acked then ringWrite s (s.ring x.ring) (16 * x.pos + 1) [fl] else s
  s.modStager st (fun g => setWriting g ((writing g).map (fun y => if y = x then { y with bytes := putAt 1 [fl] y.bytes } else y)))

/-- A word of the burst that the writer reads from its bank fails its parity (R372): STAGE_PARITY, and POISON. -/
def badParity (s : State) (st word : Nat) : State :=
  match burstHolder (2 * word) (nextBurst s st) with
  | none => s
  | some x => poisonRecord (s.raise 0x15 1 st (if (s.stager st).fillB then 0 else 1)) st x

/-- DRAM_BURST_RESPONSE (R372, R374): the writer reads the burst's words from its bank, one of which may fail its parity, and
the memory controller answers. While the DRAM is in self-refresh no burst is sent (R45). -/
def execDramBurstResponse (st : Fin 17) (r : BurstResponse) (parity : Option (Fin 128)) (s : State) : Host.Outcome State Fault Refusal :=
  .next (if s.clk.dramSleep then s
    else
      let s := match parity with
        | some w => if (s.stager st.val).fills.isEmpty then badParity s st.val w.val else s
        | none => s
      match nextBurst s st.val with
      | [] => s
      | (x, n) :: l =>
        drainCheck (if r = .ack then burstAcked s st.val ((x, n) :: l) else burstFailed s st.val x.ring ((x, n) :: l)))

/-- NOTIFY_TIMEOUT (R384): NOTIFY_US after WR_POS first advanced while the ring was armed. -/
def execNotifyTimeout (ring : Ring) (s : State) : Host.Outcome State Fault Refusal :=
  .next (
    let c := s.ring ring.toNat
    match c.advanced with
    | some t => if c.armed && decide (c.notifyUs ≠ 0) then sendNotify (s.reach (t + 3200 * c.notifyUs)) ring.toNat else s
    | none => s)

end Sys2Proof.Machine
end

