-- ==== Sys2Proof/Machine/MsgOps.lean ====
section
/-! DEFINITION. The requests of the trellis (spec/13 R412 to R419): their reading from message bytes, and their effects. -/

namespace Sys2Proof.Machine

/-- Header of a message (R412). -/
def hdrOf (m : List Byte) : MsgHdr :=
  { dest := BitVec.ofNat 7 (m.getD 1 0).toNat, src := BitVec.ofNat 7 (m.getD 2 0).toNat,
    norsp := (m.getD 3 0).getLsbD 1, mtag := w16 (ofBytes ((m.drop 4).take 2)) }

/-- `n` bytes of a message from `off`, as a number. -/
def msgNum (m : List Byte) (off n : Nat) : Nat := ofBytes ((m.drop off).take n)
def msgPayload (m : List Byte) : List Byte := m.drop 16

/-- The row that a request asks for, or the MSTATUS of one that no row takes (R413, R414): an unknown type, a length
that does not fit its type, or an address beyond 24 bits. -/
def requestOf (m : List Byte) : Except Nat Instr :=
  let t := msgNum m 0 1
  let h := hdrOf m
  let pay := msgPayload m
  let n := pay.length
  let addr := msgNum m 8 4
  let a : Addr := BitVec.ofNat 24 addr
  let box : Byte := m.getD 8 0
  let need := fun (ok : Bool) (i : Instr) => if ok then Except.ok i else Except.error 0x12
  let inSpace := decide (addr < 2 ^ 24)
  if t = 1 then need (inSpace && decide (n = 0)) (.regRead h a)
  else if t = 2 then need (inSpace && decide (n = 2 * msgNum m 12 2)) (.regWrite h a (bytesToWords pay))
  else if t = 3 then need (inSpace && decide (n = 0)) (.regBurstRead h a (w16 (msgNum m 12 2)))
  else if t = 4 then need (decide (n % 2 = 0)) (.mailboxPost h box (bytesToWords pay))
  else if t = 5 then need (decide (n = 0)) (.doorbell h box)
  else if t = 6 then need (decide (n = 0)) (.bulkRead h (BitVec.ofNat 40 (msgNum m 8 5)) (w16 (msgNum m 14 2)))
  else if t = 7 then .ok (.bulkWrite h (BitVec.ofNat 40 (msgNum m 8 5)) pay)
  else if t = 9 then
    need (decide (n = 0)) (.release h (BitVec.ofNat 16 (msgNum m 8 2)) (m.getD 10 0) (BitVec.ofNat 32 (msgNum m 12 4)))
  else .error 0x11

/-- The request leaves the messages consumed whose effect is due. -/
def takeRequest (s : State) (i : Instr) : State :=
  match firstIdx s.link.inbox (fun m => match requestOf m with | .ok x => decide (x = i) | .error _ => false) with
  | some k => { s with link := { s.link with inbox := s.link.inbox.eraseIdx k } }
  | none => s

/-! Sending what waits (R398, R404). -/

/-- A flit (R398): header, 26 payload bytes, CRC-32C. -/
def flitBytes (cls seq ftype : Nat) (som eom : Bool) (payload : List Byte) : List Byte :=
  let l := toBytes 2 (cls + 4 * seq + 4096 * ftype + flag 14 som + flag 15 eom) ++ (padTo 26 payload).take 26
  l ++ toBytes 4 (crc32c l)

/-- Flits of a message (R412). -/
def flitCount (m : List Byte) : Nat := (m.length + 25) / 26
def flitChunks (m : List Byte) : List (List Byte) := (List.range (flitCount m)).map (fun i => padTo 26 ((m.drop (26 * i)).take 26))

/-- The next message of a class begins, if none is in progress (R405). -/
def startMessage (s : State) (p c : Nat) : State :=
  let q := s.cls p c
  match q.sending, q.queue with
  | [], (fwd, m) :: r => s.modCls p c (fun q => { q with queue := r, sending := flitChunks m, sendingFwd := fwd, atStart := true })
  | _, _ => s

/-- The next flit of a class goes on the lanes (R398, R407): one to be resent, else the next of its message, which takes
the next FSEQ and stays in the replay buffer. -/
def sendFlit (s : State) (p c : Nat) : State :=
  match (s.cls p c).resend with
  | f :: r => (s.modCls p c (fun q => { q with resend := r })).modPort p (fun q => { q with wire := f })
  | [] =>
    let s := startMessage s p c
    let q := s.cls p c
    match q.sending with
    | [] => s
    | x :: r =>
      let f := flitBytes c q.txSeq 0 q.atStart r.isEmpty x
      let s := s.modCls p c (fun q => { q with
        sending := r
        atStart := r.isEmpty
        txSeq := (q.txSeq + 1) % 1024
        txSent := (q.txSent + 1) % 65536
        replay := q.replay ++ [(q.txSeq, f)] })
      let s := if q.sendingFwd then freeCredit s (1 - p) c 1 else s
      s.modPort p (fun q => { q with wire := f })

/-- Everything a class holds goes out, one flit after the other. -/
def flushClass (s : State) (p c : Nat) : State :=
  let q := s.cls p c
  let n := q.resend.length + q.sending.length + (q.queue.map (fun m => flitCount m.2)).sum
  (List.range n).foldl (fun s _ => sendFlit s p c) s

/-! Register messages (R68 to R70, R413, R419). -/

/-- REG_READ (R413). -/
def readMessage (s : State) (h : MsgHdr) (a : Nat) : State :=
  if busAlive s then
    let s := busRead s .host a
    respond s h 1 0 (toBytes 2 s.bus.lastRead.toNat) false []
  else s

/-- The words of a burst read from `a`, with each word's side effect (R65, R69): one sample. -/
def burstWords (s : State) (a : Nat) : Nat → State × List Word
  | 0 => (s, [])
  | n + 1 =>
    let (s, l) := burstWords s a n
    let s := readEffect s .host (a + n)
    (s, l ++ [w16 (readWord s .host (a + n))])

/-- REG_BURST_READ (R68, R69). -/
def burstMessage (s : State) (h : MsgHdr) (a count : Nat) : State :=
  if !busAlive s then s
  else if count = 0 ∨ 256 < count then respond s h 3 0x12 [0, 0] false []
  else
    let zeros := fun (n : Nat) => List.replicate (2 * n) (0 : Byte)
    match busRegion a with
    | none => respond (busDone (unmapped (busTurn s .host) a) .host) h 3 0 (toBytes 2 0) true (zeros count)
    | some (_, last) =>
      let n := min count (last + 1 - a)
      let (s, l) := burstWords (busTurn s .host) a n
      let s := if clocksRun s then s.reach (f3 s.now + 16 * (n - 1)) else s
      let s := busDone s .host
      respond s h 3 0 (toBytes 2 n) (decide (n < count)) (wordsToBytes l ++ zeros (count - n))

/-- The words of a REG_WRITE (R53, R61, R67): one F3 cycle each, an aligned half that is no guarded pair in one. The rule
speaks of an aligned 32-bit half; two one-word registers that share one are joined as well (DESIGN CHOICE 164). -/
def writeWords (s : State) (a : Nat) : List Word → State
  | [] => s
  | w :: r =>
    let s := writeWord (busTurn s .host) .host a w
    if !busAlive s then s
    else
      let joined := decide (a % 2 = 0) && !r.isEmpty && !guarded a && !isAlias a
      writeWords (if joined then s else busDone s .host) (a + 1) r

/-- A write that reaches an unaddressed part through DEST 0x7D sets its address (R21, R419); the status. -/
def takeAddress (s : State) (h : MsgHdr) (a : Nat) (ws : List Word) : State × Nat :=
  if h.dest.toNat = 0x7D ∧ s.link.addrValid = false ∧ a ≤ 0x1C18 ∧ 0x1C18 < a + ws.length then
    let want := if s.link.neighbour = 0x7E then 0 else s.link.neighbour + 1
    if wAt ws (0x1C18 - a) = want ∧ want < 64 then
      ({ s with link := { s.link with addr := want, addrValid := true } }, 0)
    else (s, 0x12)
  else (s, 0)

/-- REG_WRITE (R70, R71, R413): words past the region's end are discarded. The response to a write that resets the chip
is on the lanes before the reset begins. -/
def writeMessage (s : State) (h : MsgHdr) (a : Nat) (ws : List Word) : State :=
  if !busAlive s then s
  else if ws.isEmpty ∨ 256 < ws.length then respond s h 2 0x12 [0, 0] false []
  else
    match busRegion a with
    | none => respond (busDone (unmapped (busTurn s .host) a) .host) h 2 0 (toBytes 2 0) true []
    | some (_, last) =>
      let n := min ws.length (last + 1 - a)
      let (s, status) := takeAddress s h a (ws.take n)
      let answer := fun (s : State) => respond s h 2 status (toBytes 2 n) (decide (n < ws.length)) []
      let t := writeWords s a (ws.take n)
      if t.clk.resetting.isSome && s.clk.resetting.isNone then
        t.modPort 0 (fun q => { q with wire := ((flushClass (answer s) 0 1).port 0).wire })
      else answer t

/-! Mailbox messages (R79, R80, R413, R416). -/

/-- The answer of a doorbell: OK or BUSY, and MB_STATE. -/
def answerBell (s : State) (h : MsgHdr) (mtype n : Nat) (ok : Bool) : State :=
  respond s h mtype (if ok then 0 else 0x10) (toBytes 2 (mailboxWord (s.mbx n) 0x80)) false []

/-- MAILBOX_POST (R416): the words and the doorbell in one F3 cycle. -/
def postMessage (s : State) (h : MsgHdr) (n : Nat) (ws : List Word) : State :=
  if !busAlive s then s
  else if 8 ≤ n ∨ ws.length < 6 ∨ 126 < ws.length ∨ ws.length < 6 + wAt ws 2 then respond s h 4 0x12 [0, 0] false []
  else
    let s := busTurn s .host
    let free := decide ((s.mbx n).state = .idle) || decide ((s.mbx n).state = .done)
    let s := if free then
        s.modMbx n (fun m => (List.range ws.length).foldl (fun m i => putCommand m i (ws.getD i 0) 0xFFFF) m)
      else s
    let (s, ok) := ringDoorbell s n
    answerBell (busDone s .host) h 4 n ok

/-- DOORBELL (R79, R80). -/
def bellMessage (s : State) (h : MsgHdr) (n : Nat) : State :=
  if !busAlive s then s
  else if 8 ≤ n then respond s h 5 0x12 [0, 0] false []
  else
    let (s, ok) := ringDoorbell (busTurn s .host) n
    answerBell (busDone s .host) h 5 n ok

/-! DRAM messages (R45, R204, R205, R207, R413, R415). -/

/-- What is wrong with the extent of a BULK message (R414): its form, no DRAM, beyond the data space. -/
def bulkBad (s : State) (a n : Nat) : Option Nat :=
  if a % 2 = 1 ∨ n % 2 = 1 ∨ n < 2 ∨ 512 < n then some 0x12
  else if dataMib s = 0 then some 0x13
  else if dataMib s * 2 ^ 20 < a + n then some 0x12
  else none

/-- A BULK message wakes the memory controllers (R45). -/
def wakeDram (s : State) : State := { s with clk := { s.clk with dramSleep := false } }

/-- BULK_READ (R413). -/
def bulkReadMessage (s : State) (h : MsgHdr) (a n : Nat) : State :=
  if !busAlive s then s
  else match bulkBad s a n with
    | some e => respond s h 6 e [] false []
    | none => respond (wakeDram s) h 6 0 [] false (tread (fun _ => 0) s.pat.dram a n)

/-- Registered segments whose extent the bytes overlap (R207). -/
def overlapped (s : State) (a n : Nat) : List Nat :=
  ((tents s.pat.segment).filter (fun e => e.2.registered && decide (a < e.2.addr + segBytes e.2) && decide (e.2.addr < a + n))).map (fun e => e.1)

/-- Bytes are stored in DRAM from byte address `a` on. -/
def dramStore (s : State) (a : Nat) (data : List Byte) : State :=
  { s with pat := { s.pat with dram := twrite (fun _ => 0) s.pat.dram a data } }

/-- BULK_WRITE (R205, R207, R415): an active segment refuses it whole; any other cached copy is invalidated. -/
def bulkWriteMessage (s : State) (h : MsgHdr) (a : Nat) (data : List Byte) : State :=
  let n := data.length
  if !busAlive s then s
  else match bulkBad s a n with
    | some e => respond s h 7 e [0, 0] false []
    | none =>
      if patternBytes s < a + n then respond s h 7 0x12 [0, 0] false []
      else
        let l := overlapped s a n
        match l.find? (segActive s) with
        | some g => respond s h 7 0x16 (toBytes 2 g) false []
        | none =>
          let s := l.foldl (fun s g => s.modSegm g (fun x => { x with resident := false, copy := {} })) s
          let s := startFetch (wakeDram (dramStore s a data))
          respond s h 7 0 [0, 0] false []

/-- RELEASE (R383, R413). -/
def releaseMessage (s : State) (h : MsgHdr) (ring flags pos : Nat) : State :=
  if !busAlive s then s
  else if 2 ≤ flags then respond s h 9 0x12 [0] false []
  else
    let (s, reason) := releaseRing s ring pos (bit flags 0)
    respond s h 9 0 [b8 reason] false []

/-- The effect of a consumed request. -/
def doRequest (s : State) (i : Instr) : State :=
  match i with
  | .regRead h a => readMessage s h a.toNat
  | .regWrite h a ws => writeMessage s h a.toNat ws
  | .regBurstRead h a n => burstMessage s h a.toNat n.toNat
  | .mailboxPost h n ws => postMessage s h n.toNat ws
  | .doorbell h n => bellMessage s h n.toNat
  | .bulkRead h a n => bulkReadMessage s h a.toNat n.toNat
  | .bulkWrite h a d => bulkWriteMessage s h a.toNat d
  | .release h r f pos => releaseMessage s h r.toNat f.toNat pos.toNat
  | _ => s

end Sys2Proof.Machine
end

