-- ==== Sys2Proof/Machine/FlitOps.lean ====
section
/-! DEFINITION. The trellis ports (spec/13 R396 to R411, R417): flits received and sent, acknowledgement, credit and
replay, the arbitration of a slot, routing, and URGENT messages. -/

namespace Sys2Proof.Machine

/-- MISROUTE (R411, R426), naming MTYPE and DEST. -/
def misroute (s : State) (p mtype dest : Nat) : State := s.raise (portBlock p) 6 mtype dest

/-! URGENT (R417, R521, R525). -/

/-- An URGENT message acts at every part, addressed or not: a chain cloche with the message's block, source and origin;
it goes on out of the other port unchanged. -/
def urgentArrives (s : State) (p : Nat) (m : List Byte) : State :=
  let s := clocheChain s .dead
    { block := msgNum m 10 1, source := msgNum m 11 1, origin := msgNum m 9 1 % 128 + 128 }
  if takesUrgent s (1 - p) then enqueueFrom true s (1 - p) 0 m else s

/-- The URGENT message of the row, as bytes (R412, R413). -/
def urgentBytes (u : UrgentMsg) : List Byte :=
  msgBytes 0x0A 0x7F u.origin.toNat 0 u.urgId.toNat
    ([0, b8 u.origin.toNat, u.block, u.source] ++ toBytes 2 u.urgId.toNat) (toBytes 8 u.time)

/-! Routing (R410, R411). -/

/-- The part consumes a request (R414): a request no row takes is answered at once; any other waits for its row. -/
def consumeRequest (s : State) (m : List Byte) : State :=
  match requestOf m with
  | .error e => respond s (hdrOf m) (msgNum m 0 1) e [] false []
  | .ok _ => { s with link := { s.link with inbox := s.link.inbox ++ [m] } }

/-- Consume and forward decisions of R411 for a tipward request; none drops it as MISROUTE. -/
def routeOf (s : State) (dest : Nat) : Option (Bool × Bool) :=
  let t := s.link
  if !t.addrValid then some (decide (dest = 0x7D), decide (dest ≠ 0x7D))
  else if dest = 0x7F then some (true, true)
  else if 0x40 ≤ dest ∧ dest < 0x48 then some (t.mcast.getLsbD (dest - 0x40), true)
  else if dest = 0x7D then some (false, true)
  else if dest < 0x40 ∧ t.addr ≤ dest then some (decide (dest = t.addr), decide (t.addr < dest))
  else none

/-- The destination is a group or everybody, which no part answers NO_ROUTE (R411). -/
def manyDest (dest : Nat) : Bool := (decide (0x40 ≤ dest) && decide (dest < 0x48)) || decide (dest = 0x7F)

/-- A whole message has arrived at port `p` in class `c`, in `n` flits (R411); answers whether its flits' credits go back
now, or when it is forwarded (R405). -/
def routeMessage (s : State) (p c : Nat) (m : List Byte) : State × Bool :=
  let t := msgNum m 0 1
  let dest := msgNum m 1 1
  if 128 ≤ dest ∨ 8 ≤ msgNum m 3 1 then (misroute s p t dest, true)
  else if t = 0x0A then (urgentArrives s p m, !takesUrgent s (1 - p) || queueFull s (1 - p) 0)
  else if p = 1 then (enqueueFrom true s 0 c m, queueFull s 0 c)
  else if t = 0x0B then
    if dest = 0x7F then ({ s with link := { s.link with inbox := s.link.inbox ++ [m] } }, true)
    else (misroute s p t dest, true)
  else match routeOf s dest with
    | none => (misroute s p t dest, true)
    | some (consume, forward) =>
      let active := decide ((s.port 1).step = .active)
      let s := if forward && active then enqueueFrom true s 1 c m
        else if forward && !manyDest dest then respond s (hdrOf m) t 0x50 [] false []
        else s
      let s := if consume then consumeRequest s m else s
      (s, !(forward && active))

/-! Receiving (R398, R404, R407). -/

/-- The flit's fields. -/
def flitClass (f : List Byte) : Nat := bits (msgNum f 0 2) 0 2
def flitSeq (f : List Byte) : Nat := bits (msgNum f 0 2) 2 10
def flitType (f : List Byte) : Nat := bits (msgNum f 0 2) 12 2

/-- The flit is whole: 32 bytes, its CRC holds (R398). -/
def flitGood (f : List Byte) : Bool := decide (f.length = 32) && decide (crc32c (f.take 28) = msgNum f 28 4)

/-- A message is complete (R412): its length fits its flits; it is routed. -/
def messageDone (s : State) (p c : Nat) (l : List Byte) : State :=
  let n := 16 + msgNum l 6 2
  let k := l.length / 26
  if n ≤ l.length ∧ l.length < n + 26 ∧ n ≤ 528 then
    let (s, now) := routeMessage s p c (l.take n)
    if now then freeCredit s p c k else s
  else freeCredit (misroute s p (msgNum l 0 1) (msgNum l 1 1)) p c k

/-- The expected flit of a class: its payload joins the class's message (R404). -/
def acceptFlit (s : State) (p c : Nat) (f : List Byte) : State :=
  let som := bit (msgNum f 0 2) 14
  let eom := bit (msgNum f 0 2) 15
  let pay := (f.drop 2).take 26
  let s := s.modCls p c (fun q => { q with rxSeq := (q.rxSeq + 1) % 1024, naked := false })
  let s := s.modPort p (fun q => { q with ctrlWaits := true })
  let q := s.cls p c
  let s := if som && q.inMsg then freeCredit s p c (q.partMsg.length / 26) else s
  if !som && !q.inMsg then freeCredit s p c 1
  else
    let l := if som then pay else q.partMsg ++ pay
    if eom then messageDone (s.modCls p c (fun q => { q with inMsg := false, partMsg := [] })) p c l
    else s.modCls p c (fun q => { q with inMsg := true, partMsg := l })

/-- A DATA flit at port `p` (R407): only the expected FSEQ is accepted; one ahead of it shows a loss, and a NAK is due once per
loss; one behind it, of which at most 512 are unacknowledged, is a replay already accepted and shows none (DEDUCED 190). -/
def receiveData (s : State) (p : Nat) (f : List Byte) (syncOk : Bool) : State :=
  if (s.port p).step ≠ .active ∨ !syncOk ∨ !flitGood f ∨ flitType f ≠ 0 then s
  else
    let c := flitClass f
    let q := s.cls p c
    if flitSeq f = q.rxSeq then acceptFlit s p c f
    else if (q.rxSeq + 1024 - flitSeq f) % 1024 ≤ 512 then s.modPort p (fun q => { q with ctrlWaits := true })
    else if q.naked then s
    else s.modCls p c (fun q => { q with nak := true, naked := true })

/-! Acknowledgement, credit and replay (R405 to R408). -/

/-- A replay from the oldest unacknowledged flit; the sixteenth of one flit resets the port (R408). -/
def replayClass (s : State) (p c : Nat) : State :=
  let q := s.cls p c
  if q.replay.isEmpty then s
  else
    let s := (s.modCls p c (fun q => { q with resend := q.replay.map (fun e => e.2), replays := q.replays + 1 })).raise (portBlock p) 2 c
    if 16 ≤ q.replays + 1 then linkPortReset (s.raise (portBlock p) 3 c) p else s

/-- Credit that the sender holds in a class: the partner's buffer less the flits not yet freed (R403, R405). -/
def creditOf (q : ClassState) (c : Nat) : Nat :=
  ([64, 256, 512, 512] : List Nat).getD c 0 - (q.txSent + 65536 - q.txFreed % 65536) % 65536

/-- The class is without credit no more (R405): its mark, and LIVE once no class is. -/
def creditBack (s : State) (p c : Nat) : State :=
  if (s.cls p c).starved && decide (0 < creditOf (s.cls p c) c) then
    let s := s.modCls p c (fun q => { q with starved := false })
    if [0, 1, 2, 3].any (fun k => (s.cls p k).starved) then s else s.live (portBlock p) 4 false
  else s

/-- ACK and CRD of one class (R406). -/
def takeAck (s : State) (p : Nat) (f : List Byte) (c : Nat) : State :=
  let ack := msgNum f (2 + 2 * c) 2
  let s := s.modCls p c (fun q =>
    match q.replay with
    | [] => q
    | (n, _) :: _ =>
      let d := (ack % 1024 + 1024 - n) % 1024
      if d = 0 ∨ q.replay.length < d then q
      else
        let left := q.replay.length - d
        { q with replay := q.replay.drop d, replays := 0, resend := q.resend.drop (q.resend.length - left) })
  let s := creditBack (s.modCls p c (fun q => { q with txFreed := msgNum f (10 + 2 * c) 2 })) p c
  if bit ack 15 then replayClass s p c else s

/-- SYNC_OFFSET from a TIME_CHECK (R425); part 0 holds it at 0. -/
def timeCheck (s : State) (stamp arrival : Nat) : State :=
  let d := if s.link.neighbour = 0x7E then 0
    else clampI (-2147483648) 2147483647 (ofTwos 64 (toTwos 64 ((arrival : Int) - hopDelay s - stamp)))
  let far := s.link.syncValid && decide (16 < d.natAbs)
  let s := if far then s.noteSet 0x1C10 16 else s
  let s := { s with link := { s.link with syncOffset := d, slip := s.link.slip || far } }
  s.condition 0x16 8 far

/-- A DELAY_RSP at the root-side port (R421). -/
def delayAnswer (s : State) (turn arrival : Nat) : State :=
  match s.link.delayReq with
  | some t1 =>
    let d := roundAway ((arrival : Int) - t1 - turn) 2
    { s with link := { s.link with delays := (d :: s.link.delays).take 4096, delayReq := none } }
  | none => s

/-- A LINK_CTRL flit (R402, R406, R421, R425), from training step 5 on. -/
def receiveCtrl (s : State) (p : Nat) (f : List Byte) (arrival : Nat) (syncOk : Bool) : State :=
  let up := (s.port p).step
  if (up ≠ .active ∧ up ≠ .measure) ∨ !syncOk ∨ !flitGood f ∨ flitType f ≠ 1 then s
  else
    let t := msgNum f 18 1
    let own := msgNum f 19 1 % 128
    let stamp := msgNum f 20 8
    let s := if p = 0 then { s with link := { s.link with neighbour := own } } else s
    let s := if up = .active then [0, 1, 2, 3].foldl (fun s c => if (s.port p).step = .active then takeAck s p f c else s) s else s
    if t = 1 then s.modPort p (fun q => { q with delayRsp := true })
    else if t = 2 ∧ p = 0 ∧ up = .active then delayAnswer s stamp arrival
    else if t = 3 then linkPortReset s p
    else if t = 4 ∧ p = 0 then timeCheck s stamp arrival
    else s

/-! Sending (R399, R404 to R406). -/

/-- A LINK_CTRL flit goes on the lanes (R406). -/
def sendCtrl (s : State) (p t stamp : Nat) : State :=
  let acks := [0, 1, 2, 3].flatMap (fun c => toBytes 2 ((s.cls p c).rxSeq + flag 15 (s.cls p c).nak))
  let crds := [0, 1, 2, 3].flatMap (fun c => toBytes 2 (s.cls p c).rxFreed)
  let f := flitBytes 0 0 1 false false (acks ++ crds ++ [b8 t, b8 s.link.addr] ++ toBytes 8 stamp)
  let s := [0, 1, 2, 3].foldl (fun s c => s.modCls p c (fun q => { q with nak := false })) s
  s.modPort p (fun q => { q with wire := f, ctrlWaits := false, ctrlDue := false })

/-- A DELAY_RSP with its turnaround, which the spec measures and does not state: a free value (R406, R421). -/
def sendDelayRsp (s : State) (p : Nat) : State :=
  sendCtrl (s.takeFree.modPort p (fun q => { q with delayRsp := false })) p 2 (s.freeNat % two64)

/-- A class has a flit ready (R405, R407): one to resend, or the next of a message that holds its credit. -/
def flitReady (s : State) (p c : Nat) : Bool :=
  let q := s.cls p c
  !q.resend.isEmpty || (decide (q.replay.length < 512) &&
    (!q.sending.isEmpty || match q.queue with | (_, m) :: _ => decide (flitCount m ≤ creditOf q c) | [] => false))

/-- Flits per round of a class (R404). -/
def weightOf (c : Nat) : Nat := if c = 1 then 1 else 2

/-- Classes 1 to 3 share by deficit round-robin (R404): the lowest class that is ready and has its share left; with none,
a new round begins. -/
def pickClass (s : State) (p : Nat) : Option (State × Nat) :=
  let l := [1, 2, 3].filter (flitReady s p)
  let take := fun (s : State) (c : Nat) => (s.modCls p c (fun q => { q with deficit := q.deficit - 1 }), c)
  match l.find? (fun c => decide (0 < (s.cls p c).deficit)) with
  | some c => some (take s c)
  | none =>
    match l with
    | c :: _ => some (take ([1, 2, 3].foldl (fun s c => s.modCls p c (fun q => { q with deficit := weightOf c })) s) c)
    | [] => none

/-- One flit slot of an ACTIVE port (R404). -/
def fillSlot (s : State) (p : Nat) : State :=
  let q := s.port p
  if flitReady s p 0 then sendFlit s p 0
  else if q.delayRsp then sendDelayRsp s p
  else if q.ctrlDue || [0, 1, 2, 3].any (fun c => (s.cls p c).nak) then sendCtrl s p 0 0
  else match pickClass s p with
    | some (s, c) => sendFlit s p c
    | none => s.modPort p (fun q => { q with wire := flitBytes 0 0 2 false false [] })

/-- Flit time in quarter ticks (R399): 33 at four lanes, 66 at two, 132 at one. -/
def flitTime (width : Nat) : Nat := if width = 4 then 33 else if width = 2 then 66 else 132

/-- A flit has taken the port's slot: the next begins one flit time later, and not in the past. -/
def slotTaken (s : State) (p : Nat) : State :=
  s.modPort p (fun q => { q with slot := max (q.slot + flitTime q.width) (4 * s.now) })

/-- The slots of a port up to the present tick: RESET_REQ of a reset port (R402), or one flit when its slot has come; in
training step 5 the answers to delay exchanges (R400). -/
def tickPort (s : State) (p : Nat) : State :=
  let q := s.port p
  if q.resetReq then (sendCtrl s p 3 0).modPort p (fun q => { q with resetReq := false })
  else if 4 * s.now < q.slot then s
  else if q.step = .active then slotTaken (fillSlot s p) p
  else if q.step = .measure ∧ q.delayRsp then slotTaken (sendDelayRsp s p) p
  else s

end Sys2Proof.Machine
end

