-- ==== Sys2Proof/Machine/Link.lean ====
section
/-! DEFINITION. The rows of the trellis ports (spec/13): training, flits, timers, URGENT, and chain synchronisation. -/

namespace Sys2Proof.Machine

def portNum : Port → Nat
  | .link0 => 0
  | .link1 => 1

/-! Flits (R404 to R408). -/

/-- DATA_FLIT_RECEIVE (R407). -/
def execDataFlitReceive (p : Port) (bytes : List Byte) (syncOk : Bool) (s : State) : Host.Outcome State Fault Refusal :=
  .next (receiveData s (portNum p) bytes syncOk)

/-- LINK_CTRL_RECEIVE (R406). -/
def execLinkCtrlReceive (p : Port) (bytes : List Byte) (arrival : CtrlArrival) (s : State) : Host.Outcome State Fault Refusal :=
  .next (receiveCtrl s (portNum p) bytes arrival.time arrival.syncOk)

/-- REPLAY_TIMEOUT (R407, R408): the oldest unacknowledged flit of the class has waited 2 µs. -/
def execReplayTimeout (p : Port) (cls : Fin 4) (s : State) : Host.Outcome State Fault Refusal :=
  .next (if (s.port (portNum p)).step = .active then replayClass s (portNum p) cls.val else s)

/-- CREDIT_TIMEOUT (R405): the class has had flits waiting and no credit for 10 ms. -/
def execCreditTimeout (p : Port) (cls : Fin 4) (s : State) : Host.Outcome State Fault Refusal :=
  .next (
    let n := portNum p
    let q := s.cls n cls.val
    let waits := !q.sending.isEmpty || !q.queue.isEmpty
    if (s.port n).step = .active ∧ waits ∧ creditOf q cls.val = 0 ∧ q.starved = false then
      (s.modCls n cls.val (fun q => { q with starved := true })).raise (portBlock n) 4 cls.val
    else s)

/-- LINK_CTRL_DUE (R404): acknowledgements or credits have waited 64 slots or 200 ns, and LINK_CTRL takes the next slot that
class 0 leaves. -/
def execLinkCtrlDue (p : Port) (s : State) : Host.Outcome State Fault Refusal :=
  .next (
    let n := portNum p
    if (s.port n).step = .active ∧ (s.port n).ctrlWaits then
      if flitReady s n 0 then s.modPort n (fun q => { q with ctrlDue := true })
      else
        let s := s.reach (((s.port n).slot + 3) / 4)
        slotTaken (sendCtrl s n 0 0) n
    else s)

/-- DELAY_EXCHANGE_TIMER (R421): the root-side port sends a DELAY_REQ every 1 µs. -/
def execDelayExchangeTimer (departure : Nat) (s : State) : Host.Outcome State Fault Refusal :=
  .next (if (s.port 0).step = .active then
      let s := sendCtrl (s.reach (departure / 256)) 0 1 0
      { s with link := { s.link with delayReq := some departure } }
    else s)

/-- TIME_CHECK_TIMER (R425): the tip-side port sends a TIME_CHECK every 1 ms. -/
def execTimeCheckTimer (departure : Nat) (s : State) : Host.Outcome State Fault Refusal :=
  .next (if (s.port 1).step = .active then sendCtrl (s.reach (departure / 256)) 1 4 (departure % two64) else s)

/-! Training (R400 to R402). -/

/-- BLOCK_LOCK_LOSS (R402): no active lane has had block lock for 1 µs. -/
def execBlockLockLoss (p : Port) (s : State) : Host.Outcome State Fault Refusal :=
  .next (if (s.port (portNum p)).step = .active then linkPortReset s (portNum p) else s)

/-- LANE_SIGNAL_DETECT (R400 step 1): at least one lane has signal, and the port has started DETECT. -/
def execLaneSignalDetect (p : Port) (lanes : BitVec 4) (s : State) : Host.Outcome State Fault Refusal :=
  .next (
    let q := s.port (portNum p)
    if q.step = .detect ∧ lanes ≠ 0 ∧ q.retry.all (fun t => decide (t ≤ s.now)) then
      s.modPort (portNum p) (fun q => { q with step := .lock, signal := lanes, retry := none })
    else s)

/-- A training step has failed (R400): the port is in DETECT and starts again 20 ms later. -/
def failStep (s : State) (n : Nat) : State :=
  s.modPort n (fun q => { q with step := .detect, signal := 0, width := 0, lanes := 0, retry := some (s.now + 64000000) })

/-- BLOCK_LOCK_ACQUIRED (R400 step 2). -/
def execBlockLockAcquired (p : Port) (s : State) : Host.Outcome State Fault Refusal :=
  .next (if (s.port (portNum p)).step = .lock then s.modPort (portNum p) (fun q => { q with step := .equalise }) else s)

/-- A lane's eye is wide and high enough (R401). -/
def eyeGood (e : Nat × Nat) : Bool := decide (350 ≤ e.1) && decide (30 ≤ e.2)

/-- The lanes a port uses, by the order of R401: all four, a pair, the lowest single lane; 0 for none. -/
def chooseLanes (n : Nat) : Nat :=
  match ([15, 3, 12, 1, 2, 4, 8] : List Nat).find? (fun m => decide (m &&& n = m)) with
  | some m => m
  | none => 0

/-- Lanes in a mask. -/
def laneCount (m : Nat) : Nat := (maskList 4 m).length

/-- LANE_EQUALISE_DONE (R400 steps 3 and 4, R401): eyes measured, masks exchanged, width chosen. A port with no usable
lane fails the step. -/
def execLaneEqualiseDone (p : Port) (eyes : List (Nat × Nat)) (partner : BitVec 4) (s : State) : Host.Outcome State Fault Refusal :=
  .next (
    let n := portNum p
    if (s.port n).step = .equalise then
      let s := s.modPort n (fun q => { q with eyes := eyes })
      let good := maskOf ((List.range 4).filter (fun i => eyeGood (eyes.getD i (0, 0)) && partner.getLsbD i))
      let m := chooseLanes good
      if m = 0 then failStep s n
      else s.modPort n (fun q => { q with step := .measure, lanes := BitVec.ofNat 4 m, width := laneCount m })
    else s)

/-- DELAY_MEASURE_DONE (R400 steps 5 and 6, R401, R421): the port is ACTIVE, its credits and sequence numbers initial. At
boot the tip-side port trains after the root-side port (R32 step 8, R401). -/
def execDelayMeasureDone (p : Port) (delay : Nat) (ownAddr : BitVec 7) (s : State) : Host.Outcome State Fault Refusal :=
  .next (
    let n := portNum p
    if (s.port n).step = .measure then
      let w := (s.port n).width
      let s := s.modPort n (fun q => { q with
        step := .active
        wasActive := true
        resetReq := false
        retrain := false
        slot := 4 * s.now
        cls := freshClasses q.cls })
      let s := if n = 0 then trainPort { s with link := { s.link with
          trainDelay := delay, delays := [], delayReq := none, neighbour := ownAddr.toNat } } 1 else s
      let s := s.live (portBlock n) 0 false
      let s := s.condition (portBlock n) 1 (decide (w < 4)) w
      portChanged s n
    else s)

/-- TRAINING_RETRY (R400): 20 ms after a step has failed the port starts again from DETECT. Of a step that has no row for its
failure, the row brings both the failure and the 20 ms. -/
def execTrainingRetry (p : Port) (s : State) : Host.Outcome State Fault Refusal :=
  .next (
    let n := portNum p
    let st := (s.port n).step
    let s := if st = .lock ∨ st = .equalise ∨ st = .measure then failStep s n else s
    match (s.port n).retry with
    | some t => (s.reach t).modPort n (fun q => { q with retry := none })
    | none => s)

/-! URGENT (R417). -/

/-- URGENT (R417, R525): received at a port. -/
def execUrgent (p : Port) (u : UrgentMsg) (s : State) : Host.Outcome State Fault Refusal :=
  .next (if (s.port (portNum p)).step = .active then urgentArrives s (portNum p) (urgentBytes u) else s)

/-! Chain synchronisation (R422 to R424). -/

/-- The SYNC_MARK of the row among the messages consumed: it leaves them, and its other header fields are kept. -/
def takeMark (s : State) (dTotal dAcc epoch : Nat) : State × Option (List Byte) :=
  match firstIdx s.link.inbox (fun m => decide (msgNum m 0 1 = 0x0B) && decide (msgNum m 8 4 = dTotal) &&
      decide (msgNum m 12 4 = dAcc) && decide (msgNum m 16 8 = epoch)) with
  | some k => ({ s with link := { s.link with inbox := s.link.inbox.eraseIdx k } }, s.link.inbox[k]?)
  | none => (s, none)

/-- The mark goes on tipward with its new D_ACC (R422). The MTAG of a mark that the row alone carries is a free value. -/
def forwardMark (s : State) (m : Option (List Byte)) (dTotal dAcc epoch : Nat) : State :=
  if (s.port 1).step ≠ .active then s
  else match m with
    | some l => enqueue s 1 0 (putAt 12 (toBytes 4 dAcc) l)
    | none =>
      enqueue s.takeFree 1 0 (msgBytes 0x0B 0x7F 0x7E 0 (s.freeNat % 65536) (toBytes 4 dTotal ++ toBytes 4 dAcc) (toBytes 8 epoch))

/-- What an addressed part does with a mark (R422, R424). -/
def actOnMark (s : State) (dTotal dArr epoch arrival : Nat) : State :=
  let recent := s.link.lastSync.any (fun t => decide (arrival / 256 < t + 640000))
  if s.link.pendingSync.isSome || recent then
    ({ s with link := { s.link with ignored := true } }.noteSet 0x1C10 32).raise 0x16 9
  else if dTotal < dArr + 1638400 then
    ({ s with link := { s.link with late := true, syncValid := false } }.noteSet 0x1C10 8).raise 0x16 7
  else { s with link := { s.link with pendingSync := some { f := arrival + dTotal - dArr, epoch := epoch } } }

/-- SYNC_MARK (R422, R424). -/
def execSyncMark (dest : BitVec 7) (dTotal dAcc : BitVec 32) (epoch : BitVec 64) (arrival : Nat) (residence : Nat) (s : State) :
    Host.Outcome State Fault Refusal :=
  .next (
    let s := s.reach (arrival / 256)
    if dest ≠ 0x7F then misroute s 0 0x0B dest.toNat
    else
      let (s, m) := takeMark s dTotal.toNat dAcc.toNat epoch.toNat
      let dArr := dAcc.toNat + hopDelay s
      let s := if s.link.addrValid then actOnMark s dTotal.toNat dArr epoch.toNat arrival else s
      forwardMark s m dTotal.toNat ((dArr + residence) % two32) epoch.toNat)

/-- The firing of the local sync moved by SYNC_JITTER (R530): a pseudo-random number of fine steps within ±AMOUNT, whose
generator the spec does not give: a free value. -/
def jitteredSync (s : State) (f : Nat) : State × Nat :=
  if s.perturbed 2 1 || s.perturbed 2 3 then
    let a := (s.perturbAmount 2 1 + s.perturbAmount 2 3).toNat
    (s.takeFree, f + s.freeNat % (2 * a + 1) - a)
  else (s, f)

/-- A run of a generator as the stepped chip time has it: the edges it has made stay where they were (R170). -/
def shiftRun (d : Int) (r : ClockRun) : ClockRun :=
  { r with shift := r.shift + d, start := r.start + d, stop := r.stop.map (fun e => e + d) }

/-- Running DUT clocks are handed over to their grid as the stepped chip time has it (R170, R174), and the windows of the pins
on them move with the step. -/
def stepClocks (s : State) (st : Int) : State :=
  let d := 256 * st
  let s := ((tents s.edge.clock).map (fun e => e.1)).foldl (fun s k =>
    s.modCkgen k (fun g =>
      let g := { g with runs := g.runs.map (shiftRun d) }
      if g.running then { g with runs := handOverClock g (256 * s.now) (some g.set) } else g)) s
  (List.range 512).foldl (fun s p => s.modPinck p (fun x => { x with
    windows := x.windows.map (fun w => { w with start := if w.start = 0 then 0 else w.start + d, stop := w.stop.map (fun e => e + d) })
    hold := x.hold.map (fun h => { h with since := h.since.map (fun e => e + d) }) })) s

/-- A grace keeps its duration over a step of chip time. -/
def stepGrace (st : Int) (t : Option Nat) : Option Nat := t.map (fun n => ((n : Int) + st).toNat)

/-- What a step of chip time by `st` ticks does besides (R170, R231, R338, R362, R461). -/
def stepTime (s : State) (st : Int) : State :=
  if st = 0 then s
  else
    let s := timStepped s st
    let s := { s with clk := { s.clk with time := toTwos 64 ((s.now : Int) + st) } }
    let s := stepClocks s st
    let s := (List.range 544).foldl (fun s l => s.modLoop l (fun x => { x with lastSample := min x.lastSample s.now })) s
    (List.range 5).foldl (fun s z => s.modZone z (fun x => { x with
      grace1 := stepGrace st x.grace1
      grace2 := stepGrace st x.grace2
      grace3 := stepGrace st x.grace3 })) s

/-- The local sync (R423) of a pending mark. -/
def fireSync (s : State) (x : PendingSync) : State :=
  let (s, f) := jitteredSync s x.f
  let s := s.reach (f / 256)
  let d : Int := 256 * (x.epoch : Int) - f
  let st := (d + 128) / 256
  let phi := d - 256 * st
  let s := syncBeds (stepTime s st) (List.range 16)
  let s := s.noteAdd 0x1C11 s.link.syncCount
  { s with link := { s.link with
      pendingSync := none
      syncEpoch := x.epoch
      syncCount := satAdd max16 s.link.syncCount 1
      lastStep := clampI (-2147483647) 2147483647 st
      lastPhase := phi
      lastSync := some s.now
      slewing := decide (phi ≠ 0)
      syncValid := s.link.syncValid || decide (phi = 0) } }

/-- LOCAL_SYNC (R423). -/
def execLocalSync (s : State) : Host.Outcome State Fault Refusal :=
  .next (match s.link.pendingSync with | some x => fireSync s x | none => s)

/-- PHASE_SLEW_END (R423): one fine step per µs after the sync. -/
def execPhaseSlewEnd (s : State) : Host.Outcome State Fault Refusal :=
  .next (if s.link.slewing then
      let due := match s.link.lastSync with | some t => t + 3200 * s.link.lastPhase.natAbs | none => s.now
      let s := s.reach due
      { s with link := { s.link with slewing := false, syncValid := true } }
    else s)

end Sys2Proof.Machine
end

