-- ==== Sys2Proof/Machine/Messages.lean ====
section
/-! DEFINITION. The rows of the requests that the part consumes (spec/13 R413 to R416, R419; spec/03 R68 to R70). -/

namespace Sys2Proof.Machine

/-- REG_READ (R413). -/
def execRegRead (h : MsgHdr) (a : Addr) (s : State) : Host.Outcome State Fault Refusal :=
  .next (readMessage (takeRequest s (.regRead h a)) h a.toNat)

/-- REG_WRITE (R70, R419). -/
def execRegWrite (h : MsgHdr) (a : Addr) (ws : List Word) (s : State) : Host.Outcome State Fault Refusal :=
  .next (writeMessage (takeRequest s (.regWrite h a ws)) h a.toNat ws)

/-- REG_BURST_READ (R68). -/
def execRegBurstRead (h : MsgHdr) (a : Addr) (count : Word) (s : State) : Host.Outcome State Fault Refusal :=
  .next (burstMessage (takeRequest s (.regBurstRead h a count)) h a.toNat count.toNat)

/-- MAILBOX_POST (R416). -/
def execMailboxPost (h : MsgHdr) (n : Byte) (ws : List Word) (s : State) : Host.Outcome State Fault Refusal :=
  .next (postMessage (takeRequest s (.mailboxPost h n ws)) h n.toNat ws)

/-- DOORBELL (R80). -/
def execDoorbell (h : MsgHdr) (n : Byte) (s : State) : Host.Outcome State Fault Refusal :=
  .next (bellMessage (takeRequest s (.doorbell h n)) h n.toNat)

/-- BULK_READ (R413). -/
def execBulkRead (h : MsgHdr) (a : BitVec 40) (count : Word) (s : State) : Host.Outcome State Fault Refusal :=
  .next (bulkReadMessage (takeRequest s (.bulkRead h a count)) h a.toNat count.toNat)

/-- BULK_WRITE (R415). -/
def execBulkWrite (h : MsgHdr) (a : BitVec 40) (data : List Byte) (s : State) : Host.Outcome State Fault Refusal :=
  .next (bulkWriteMessage (takeRequest s (.bulkWrite h a data)) h a.toNat data)

/-- RELEASE (R383). -/
def execRelease (h : MsgHdr) (ring : Ring) (flags : Byte) (relPos : BitVec 32) (s : State) : Host.Outcome State Fault Refusal :=
  .next (releaseMessage (takeRequest s (.release h ring flags relPos)) h ring.toNat flags.toNat relPos.toNat)

end Sys2Proof.Machine
end

