-- ==== Sys2Proof/Machine/Dispatch.lean ====
section
/-! DEFINITION. The dispatch of a command to its meaning: one arm per row of spec/opcode_table.json. -/

namespace Sys2Proof.Machine

def exec (i : Instr) (s : State) : Host.Outcome State Fault Refusal :=
  match i with
  | .powerOnReset wsel => Sys2Proof.Machine.execPowerOnReset wsel s
  | .pinReset lowNs => Sys2Proof.Machine.execPinReset lowNs s
  | .pllLock env => Sys2Proof.Machine.execPllLock env s
  | .refLost edges => Sys2Proof.Machine.execRefLost edges s
  | .refclkReturn counts => Sys2Proof.Machine.execRefclkReturn counts s
  | .blockResetEnd k => Sys2Proof.Machine.execBlockResetEnd k s
  | .deepWake cause wsel => Sys2Proof.Machine.execDeepWake cause wsel s
  | .standbyExitComplete b => Sys2Proof.Machine.execStandbyExitComplete b s
  | .registerWritePlain m a w => Sys2Proof.Machine.execRegisterWritePlain m a w s
  | .aliasWrite m a w => Sys2Proof.Machine.execAliasWrite m a w s
  | .guardValueWrite m a w => Sys2Proof.Machine.execGuardValueWrite m a w s
  | .guardWindowExpiry m => Sys2Proof.Machine.execGuardWindowExpiry m s
  | .chipReset m w => Sys2Proof.Machine.execChipReset m w s
  | .clocheOverride m w => Sys2Proof.Machine.execClocheOverride m w s
  | .clocheRelease m w => Sys2Proof.Machine.execClocheRelease m w s
  | .keepWe m w => Sys2Proof.Machine.execKeepWe m w s
  | .shutdownClear m w => Sys2Proof.Machine.execShutdownClear m w s
  | .fwCommit m w => Sys2Proof.Machine.execFwCommit m w s
  | .faultForceRegister m k w => Sys2Proof.Machine.execFaultForceRegister m k w s
  | .perturbArm m w => Sys2Proof.Machine.execPerturbArm m w s
  | .doorbellWrite m n w => Sys2Proof.Machine.execDoorbellWrite m n w s
  | .mailboxAck m n w => Sys2Proof.Machine.execMailboxAck m n w s
  | .faultAck m k w => Sys2Proof.Machine.execFaultAck m k w s
  | .releasePost m w => Sys2Proof.Machine.execReleasePost m w s
  | .ringSnapshotRead m => Sys2Proof.Machine.execRingSnapshotRead m s
  | .trigForce m w => Sys2Proof.Machine.execTrigForce m w s
  | .regRead h a => Sys2Proof.Machine.execRegRead h a s
  | .regWrite h a ws => Sys2Proof.Machine.execRegWrite h a ws s
  | .regBurstRead h a count => Sys2Proof.Machine.execRegBurstRead h a count s
  | .mailboxPost h n ws => Sys2Proof.Machine.execMailboxPost h n ws s
  | .doorbell h n => Sys2Proof.Machine.execDoorbell h n s
  | .bulkRead h a count => Sys2Proof.Machine.execBulkRead h a count s
  | .bulkWrite h a data => Sys2Proof.Machine.execBulkWrite h a data s
  | .release h ring flags relPos => Sys2Proof.Machine.execRelease h ring flags relPos s
  | .urgent p u => Sys2Proof.Machine.execUrgent p u s
  | .syncMark dest dTotal dAcc epoch arrival residence => Sys2Proof.Machine.execSyncMark dest dTotal dAcc epoch arrival residence s
  | .dataFlitReceive p bytes syncOk => Sys2Proof.Machine.execDataFlitReceive p bytes syncOk s
  | .linkCtrlReceive p bytes arrival => Sys2Proof.Machine.execLinkCtrlReceive p bytes arrival s
  | .replayTimeout p cls => Sys2Proof.Machine.execReplayTimeout p cls s
  | .creditTimeout p cls => Sys2Proof.Machine.execCreditTimeout p cls s
  | .linkCtrlDue p => Sys2Proof.Machine.execLinkCtrlDue p s
  | .delayExchangeTimer departure => Sys2Proof.Machine.execDelayExchangeTimer departure s
  | .timeCheckTimer departure => Sys2Proof.Machine.execTimeCheckTimer departure s
  | .blockLockLoss p => Sys2Proof.Machine.execBlockLockLoss p s
  | .laneSignalDetect p lanes => Sys2Proof.Machine.execLaneSignalDetect p lanes s
  | .laneEqualiseDone p eyes partner => Sys2Proof.Machine.execLaneEqualiseDone p eyes partner s
  | .delayMeasureDone p delay ownAddr => Sys2Proof.Machine.execDelayMeasureDone p delay ownAddr s
  | .trainingRetry p => Sys2Proof.Machine.execTrainingRetry p s
  | .groupStrobeDue g => Sys2Proof.Machine.execGroupStrobeDue g s
  | .epochLoadDue t => Sys2Proof.Machine.execEpochLoadDue t s
  | .drvOc p => Sys2Proof.Machine.execDrvOc p s
  | .monitorSlot b code => Sys2Proof.Machine.execMonitorSlot b code s
  | .dacReadback b slot => Sys2Proof.Machine.execDacReadback b slot s
  | .clockChangeDue b ck => Sys2Proof.Machine.execClockChangeDue b ck s
  | .tdllUnlock b => Sys2Proof.Machine.execTdllUnlock b s
  | .tdllRelock b => Sys2Proof.Machine.execTdllRelock b s
  | .segLoadDone ue => Sys2Proof.Machine.execSegLoadDone ue s
  | .segmentFetchDone g r => Sys2Proof.Machine.execSegmentFetchDone g r s
  | .burstStart ts => Sys2Proof.Machine.execBurstStart ts s
  | .vectorCycle q => Sys2Proof.Machine.execVectorCycle q s
  | .vectorJudgement q lanes => Sys2Proof.Machine.execVectorJudgement q lanes s
  | .tinEdge n rising => Sys2Proof.Machine.execTinEdge n rising s
  | .trigPulseEnd n => Sys2Proof.Machine.execTrigPulseEnd n s
  | .loopForceDue l => Sys2Proof.Machine.execLoopForceDue l s
  | .loopStartMeasured l v => Sys2Proof.Machine.execLoopStartMeasured l v s
  | .loopSample l c => Sys2Proof.Machine.execLoopSample l c s
  | .lawReturn l => Sys2Proof.Machine.execLawReturn l s
  | .complyTrip l => Sys2Proof.Machine.execComplyTrip l s
  | .autoRangeDecision l => Sys2Proof.Machine.execAutoRangeDecision l s
  | .rangeSettleDone l => Sys2Proof.Machine.execRangeSettleDone l s
  | .coefSwapDue l => Sys2Proof.Machine.execCoefSwapDue l s
  | .stageDiss h => Sys2Proof.Machine.execStageDiss h s
  | .sweepStep l => Sys2Proof.Machine.execSweepStep l s
  | .profileMoveEnd l => Sys2Proof.Machine.execProfileMoveEnd l s
  | .waveLoadDone ue => Sys2Proof.Machine.execWaveLoadDone ue s
  | .waveRunEnd l => Sys2Proof.Machine.execWaveRunEnd l s
  | .sineChangeDue l => Sys2Proof.Machine.execSineChangeDue l s
  | .sineCyclesEnd l => Sys2Proof.Machine.execSineCyclesEnd l s
  | .sineRampEnd l => Sys2Proof.Machine.execSineRampEnd l s
  | .measWindowEnd a => Sys2Proof.Machine.execMeasWindowEnd a s
  | .rawRecordClose a ch => Sys2Proof.Machine.execRawRecordClose a ch s
  | .lockinWindowEnd l => Sys2Proof.Machine.execLockinWindowEnd l s
  | .wmDecisionChange u high => Sys2Proof.Machine.execWmDecisionChange u high s
  | .wmSettlingEnd u resolved => Sys2Proof.Machine.execWmSettlingEnd u resolved s
  | .wmPeriodEnd u => Sys2Proof.Machine.execWmPeriodEnd u s
  | .tiuEdge u stop stamp fall => Sys2Proof.Machine.execTiuEdge u stop stamp fall s
  | .tiuGateEnd u => Sys2Proof.Machine.execTiuGateEnd u s
  | .tiuTimeout u => Sys2Proof.Machine.execTiuTimeout u s
  | .timStampsClose u => Sys2Proof.Machine.execTimStampsClose u s
  | .bankHandoffTimeout st => Sys2Proof.Machine.execBankHandoffTimeout st s
  | .dramBurstResponse st r parity => Sys2Proof.Machine.execDramBurstResponse st r parity s
  | .notifyTimeout ring => Sys2Proof.Machine.execNotifyTimeout ring s
  | .cyclicExchangeDue st late => Sys2Proof.Machine.execCyclicExchangeDue st late s
  | .stageReply st ws => Sys2Proof.Machine.execStageReply st ws s
  | .stageLost st => Sys2Proof.Machine.execStageLost st s
  | .xipFetch a => Sys2Proof.Machine.execXipFetch a s
  | .sensorSample t rails pm => Sys2Proof.Machine.execSensorSample t rails pm s
  | .thermalLevelEnter v => Sys2Proof.Machine.execThermalLevelEnter v s
  | .thermalLevelExit v => Sys2Proof.Machine.execThermalLevelExit v s
  | .throttleGraceEnd z n => Sys2Proof.Machine.execThrottleGraceEnd z n s
  | .throttleRepeat z => Sys2Proof.Machine.execThrottleRepeat z s
  | .sensorBroken x => Sys2Proof.Machine.execSensorBroken x s
  | .sensorRecover x => Sys2Proof.Machine.execSensorRecover x s
  | .chargeWindowLeave h => Sys2Proof.Machine.execChargeWindowLeave h s
  | .chargeWindowReturn h => Sys2Proof.Machine.execChargeWindowReturn h s
  | .railCrossing rail die high => Sys2Proof.Machine.execRailCrossing rail die high s
  | .calRunEnd m => Sys2Proof.Machine.execCalRunEnd m s
  | .calCommitDone readOk => Sys2Proof.Machine.execCalCommitDone readOk s
  | .perturbWindowStart e => Sys2Proof.Machine.execPerturbWindowStart e s
  | .perturbWindowEnd e => Sys2Proof.Machine.execPerturbWindowEnd e s
  | .faultRegister k direct => Sys2Proof.Machine.execFaultRegister k direct s
  | .clocheSettled b => Sys2Proof.Machine.execClocheSettled b s
  | .blockLockAcquired p => Sys2Proof.Machine.execBlockLockAcquired p s
  | .drvOcCleared p => Sys2Proof.Machine.execDrvOcCleared p s
  | .railThresholdExit rail die high => Sys2Proof.Machine.execRailThresholdExit rail die high s
  | .mbDelayEnd n => Sys2Proof.Machine.execMbDelayEnd n s
  | .powerLoss => Sys2Proof.Machine.execPowerLoss s
  | .resetEnd => Sys2Proof.Machine.execResetEnd s
  | .firmwareReady => Sys2Proof.Machine.execFirmwareReady s
  | .pllRelock => Sys2Proof.Machine.execPllRelock s
  | .watchdogExpiry => Sys2Proof.Machine.execWatchdogExpiry s
  | .activationRestart => Sys2Proof.Machine.execActivationRestart s
  | .trapTimeout => Sys2Proof.Machine.execTrapTimeout s
  | .deepEntry => Sys2Proof.Machine.execDeepEntry s
  | .dramWakeComplete => Sys2Proof.Machine.execDramWakeComplete s
  | .dramSelfRefreshTimeout => Sys2Proof.Machine.execDramSelfRefreshTimeout s
  | .localSync => Sys2Proof.Machine.execLocalSync s
  | .phaseSlewEnd => Sys2Proof.Machine.execPhaseSlewEnd s
  | .firmwarePick => Sys2Proof.Machine.execFirmwarePick s
  | .hello => Sys2Proof.Machine.execHello s
  | .getInfo => Sys2Proof.Machine.execGetInfo s
  | .getStatus => Sys2Proof.Machine.execGetStatus s
  | .queryProgress => Sys2Proof.Machine.execQueryProgress s
  | .abort => Sys2Proof.Machine.execAbort s
  | .cloche => Sys2Proof.Machine.execCloche s
  | .releaseCloche => Sys2Proof.Machine.execReleaseCloche s
  | .setPowerActive => Sys2Proof.Machine.execSetPowerActive s
  | .setPowerIdle => Sys2Proof.Machine.execSetPowerIdle s
  | .setPowerStandby => Sys2Proof.Machine.execSetPowerStandby s
  | .setPowerDeep => Sys2Proof.Machine.execSetPowerDeep s
  | .resetBlock => Sys2Proof.Machine.execResetBlock s
  | .fwUpdateBegin => Sys2Proof.Machine.execFwUpdateBegin s
  | .fwEraseDone => Sys2Proof.Machine.execFwEraseDone s
  | .fwUpdateData => Sys2Proof.Machine.execFwUpdateData s
  | .fwUpdateCommit => Sys2Proof.Machine.execFwUpdateCommit s
  | .fwUpdateConfirm => Sys2Proof.Machine.execFwUpdateConfirm s
  | .logRead => Sys2Proof.Machine.execLogRead s
  | .pinMap => Sys2Proof.Machine.execPinMap s
  | .setLevels => Sys2Proof.Machine.execSetLevels s
  | .loadGroupDefine => Sys2Proof.Machine.execLoadGroupDefine s
  | .loadGroupStrobeNow => Sys2Proof.Machine.execLoadGroupStrobeNow s
  | .loadGroupStrobeAt => Sys2Proof.Machine.execLoadGroupStrobeAt s
  | .loadGroupCancel => Sys2Proof.Machine.execLoadGroupCancel s
  | .setPinMode => Sys2Proof.Machine.execSetPinMode s
  | .connect => Sys2Proof.Machine.execConnect s
  | .connectSwitchClose => Sys2Proof.Machine.execConnectSwitchClose s
  | .connectSettled => Sys2Proof.Machine.execConnectSettled s
  | .tsWrite => Sys2Proof.Machine.execTsWrite s
  | .tsRead => Sys2Proof.Machine.execTsRead s
  | .clockOutSet => Sys2Proof.Machine.execClockOutSet s
  | .clockOutStop => Sys2Proof.Machine.execClockOutStop s
  | .clockOutAssign => Sys2Proof.Machine.execClockOutAssign s
  | .segLoad => Sys2Proof.Machine.execSegLoad s
  | .segPinPin => Sys2Proof.Machine.execSegPinPin s
  | .segPinUnpin => Sys2Proof.Machine.execSegPinUnpin s
  | .segPinUnpinAll => Sys2Proof.Machine.execSegPinUnpinAll s
  | .segPinFetch => Sys2Proof.Machine.execSegPinFetch s
  | .streamOpenOpen => Sys2Proof.Machine.execStreamOpenOpen s
  | .streamOpenAppend => Sys2Proof.Machine.execStreamOpenAppend s
  | .streamOpenClose => Sys2Proof.Machine.execStreamOpenClose s
  | .streamOpenMap => Sys2Proof.Machine.execStreamOpenMap s
  | .burstRun => Sys2Proof.Machine.execBurstRun s
  | .burstStop => Sys2Proof.Machine.execBurstStop s
  | .jumpRequest => Sys2Proof.Machine.execJumpRequest s
  | .loopConfig => Sys2Proof.Machine.execLoopConfig s
  | .loopConfigRead => Sys2Proof.Machine.execLoopConfigRead s
  | .loopForce => Sys2Proof.Machine.execLoopForce s
  | .loopRange => Sys2Proof.Machine.execLoopRange s
  | .loopComply => Sys2Proof.Machine.execLoopComply s
  | .sweepLoad => Sys2Proof.Machine.execSweepLoad s
  | .sweepRun => Sys2Proof.Machine.execSweepRun s
  | .chipDissUpdate => Sys2Proof.Machine.execChipDissUpdate s
  | .gainTableLoad => Sys2Proof.Machine.execGainTableLoad s
  | .gainTableRead => Sys2Proof.Machine.execGainTableRead s
  | .regionSetDefine => Sys2Proof.Machine.execRegionSetDefine s
  | .regionSetWrite => Sys2Proof.Machine.execRegionSetWrite s
  | .regionSetRead => Sys2Proof.Machine.execRegionSetRead s
  | .coefSwapStage => Sys2Proof.Machine.execCoefSwapStage s
  | .coefSwapSwap => Sys2Proof.Machine.execCoefSwapSwap s
  | .coefSwapStageSwap => Sys2Proof.Machine.execCoefSwapStageSwap s
  | .coefSwapRead => Sys2Proof.Machine.execCoefSwapRead s
  | .profileMove => Sys2Proof.Machine.execProfileMove s
  | .waveLoad => Sys2Proof.Machine.execWaveLoad s
  | .waveRunStart => Sys2Proof.Machine.execWaveRunStart s
  | .waveRunJump => Sys2Proof.Machine.execWaveRunJump s
  | .waveRunStop => Sys2Proof.Machine.execWaveRunStop s
  | .sineRunStart => Sys2Proof.Machine.execSineRunStart s
  | .sineRunChange => Sys2Proof.Machine.execSineRunChange s
  | .sineRunStop => Sys2Proof.Machine.execSineRunStop s
  | .measConfig => Sys2Proof.Machine.execMeasConfig s
  | .measConfigRead => Sys2Proof.Machine.execMeasConfigRead s
  | .measRunStart => Sys2Proof.Machine.execMeasRunStart s
  | .measRunStop => Sys2Proof.Machine.execMeasRunStop s
  | .lockinRunStart => Sys2Proof.Machine.execLockinRunStart s
  | .lockinRunStop => Sys2Proof.Machine.execLockinRunStop s
  | .wmConfigure => Sys2Proof.Machine.execWmConfigure s
  | .wmEnable => Sys2Proof.Machine.execWmEnable s
  | .wmDisable => Sys2Proof.Machine.execWmDisable s
  | .wmClear => Sys2Proof.Machine.execWmClear s
  | .wmRead => Sys2Proof.Machine.execWmRead s
  | .timConfig => Sys2Proof.Machine.execTimConfig s
  | .timConfigRead => Sys2Proof.Machine.execTimConfigRead s
  | .timRunStart => Sys2Proof.Machine.execTimRunStart s
  | .timRunStop => Sys2Proof.Machine.execTimRunStop s
  | .ringCreate => Sys2Proof.Machine.execRingCreate s
  | .ringDestroy => Sys2Proof.Machine.execRingDestroy s
  | .ringPolicy => Sys2Proof.Machine.execRingPolicy s
  | .ringPolicyRead => Sys2Proof.Machine.execRingPolicyRead s
  | .stageAttachAttach => Sys2Proof.Machine.execStageAttachAttach s
  | .stageAttachDetach => Sys2Proof.Machine.execStageAttachDetach s
  | .stageAttachWrite => Sys2Proof.Machine.execStageAttachWrite s
  | .stageReadRead => Sys2Proof.Machine.execStageReadRead s
  | .stageReadStatus => Sys2Proof.Machine.execStageReadStatus s
  | .flashOpDone => Sys2Proof.Machine.execFlashOpDone s
  | .flashTimeout => Sys2Proof.Machine.execFlashTimeout s
  | .keepWindowClose => Sys2Proof.Machine.execKeepWindowClose s
  | .keepWindowOpen => Sys2Proof.Machine.execKeepWindowOpen s
  | .shutdownPowerDown => Sys2Proof.Machine.execShutdownPowerDown s
  | .tripLogWritten => Sys2Proof.Machine.execTripLogWritten s
  | .shutdownExitCondition => Sys2Proof.Machine.execShutdownExitCondition s
  | .thermConfigLevels => Sys2Proof.Machine.execThermConfigLevels s
  | .thermConfigThermistor => Sys2Proof.Machine.execThermConfigThermistor s
  | .thermConfigRail => Sys2Proof.Machine.execThermConfigRail s
  | .thermConfigRead => Sys2Proof.Machine.execThermConfigRead s
  | .chargeWindow => Sys2Proof.Machine.execChargeWindow s
  | .chargeWindowRead => Sys2Proof.Machine.execChargeWindowRead s
  | .throttleAck => Sys2Proof.Machine.execThrottleAck s
  | .calRun => Sys2Proof.Machine.execCalRun s
  | .calCommit => Sys2Proof.Machine.execCalCommit s
  | .calSelectLoad => Sys2Proof.Machine.execCalSelectLoad s
  | .calSelectStatus => Sys2Proof.Machine.execCalSelectStatus s
  | .calSelectQuality => Sys2Proof.Machine.execCalSelectQuality s
  | .keepWriteData => Sys2Proof.Machine.execKeepWriteData s
  | .keepWriteCommit => Sys2Proof.Machine.execKeepWriteCommit s
  | .keepWriteCapture => Sys2Proof.Machine.execKeepWriteCapture s
  | .keepWriteDiscard => Sys2Proof.Machine.execKeepWriteDiscard s
  | .keepRead => Sys2Proof.Machine.execKeepRead s
  | .faultConfig => Sys2Proof.Machine.execFaultConfig s
  | .faultConfigRead => Sys2Proof.Machine.execFaultConfigRead s
  | .faultForce => Sys2Proof.Machine.execFaultForce s
  | .perturbSet => Sys2Proof.Machine.execPerturbSet s
  | .perturbSetRead => Sys2Proof.Machine.execPerturbSetRead s
  | .errnPulseEnd => Sys2Proof.Machine.execErrnPulseEnd s
  | .segPinResidencyTimeout => Sys2Proof.Machine.execSegPinResidencyTimeout s
  | .burstRunEntryTimeout => Sys2Proof.Machine.execBurstRunEntryTimeout s
  | .keepOperationDone => Sys2Proof.Machine.execKeepOperationDone s

end Sys2Proof.Machine
end

