-- ==== Sys2Proof/Machine/Tick.lean ====
section
/-! DEFINITION. What the passing of one tick of F0 does on an empty queue (DESIGN CHOICE: the command table has no row
for a tick): chip time counts, the ports fill their flit slots, a consumed request takes effect, and what falls due
inside the part without a row of its own happens. -/

namespace Sys2Proof.Machine

/-- Chip time counts ticks while the PLL runs or holds over (R7, R29). -/
def countTick (s : State) : State :=
  if clocksRun s then { s with clk := { s.clk with time := (s.now + 1) % two64 } } else s

/-- The oldest consumed request whose row has not come takes its effect (R415); a SYNC_MARK waits for its row. -/
def tickRequest (s : State) : State :=
  match s.link.inbox.findSome? (fun m => match requestOf m with | .ok i => some i | .error _ => none) with
  | some i => doRequest (takeRequest s i) i
  | none => s

/-- A forced fault whose time has come is raised (R533). -/
def tickForced (s : State) : State :=
  match s.flt.forceAt.find? (fun e => decide (e.1 ≤ s.now)) with
  | some e => fireForced s e
  | none => s

/-- Bursts that wait in ENDING for staging or credit go on (R214). -/
def tickBursts (s : State) : State :=
  ((tents s.pat.seq).filter (fun e => decide (e.2.mode = .ending))).foldl (fun s e => settleBurst s e.1) s

/-- One tick. -/
def tick (s : State) : State := tickBursts (tickForced (tickRequest (tickPort (tickPort (countTick s) 0) 1)))

end Sys2Proof.Machine
end

