-- ==== Sys2Proof/Safety.lean ====
section
/-! DEFINITION. The terms that statements use: a step that completes, a command picked for execution, its response, and
its wait. -/

namespace Sys2Proof.Machine

/-- The step answers a next state. -/
def Completes (o : Host.Outcome State Fault Refusal) : Prop := ∃ t, o = .next t

/-- Command `c` of opcode `op` is in EXECUTING, and its row has not run yet (R81, R88). -/
abbrev Picked (s : State) (op : Nat) (c : Current) : Prop :=
  s.fw.current = some c ∧ c.opcode.toNat = op ∧ c.wait = .nothing

/-- `t` is `s` with the response of command `c` written (R77, R82): its mailbox shows it and is DONE, or held by MB_DELAY
(R530); no command is in EXECUTING; no other mailbox and, unless an MB_DONE event is asked for, no port has changed. -/
def Answered (c : Current) (status detail : Nat) (words : List Word) (s t : State) : Prop :=
  t = { s with mb := t.mb, link := t.link, fw := { s.fw with current := none } } ∧
  (∀ k, k ≠ c.mb.val → t.mbx k = s.mbx k) ∧
  (c.flags.toNat.testBit 0 = false → t.link = s.link) ∧
  (t.mbx c.mb.val).rOpcode = c.opcode ∧
  (t.mbx c.mb.val).rTag = c.tag ∧
  (t.mbx c.mb.val).status = w16 status ∧
  (t.mbx c.mb.val).detail = (if status ≤ 1 then 0 else w16 detail) ∧
  (t.mbx c.mb.val).rLength = words.length ∧
  (t.mbx c.mb.val).async = decide (status = 1) ∧
  (∀ i, i < words.length → tget (fun _ => 0) (t.mbx c.mb.val).rParam i = words.getD i 0) ∧
  ((t.mbx c.mb.val).state = .done ∨ (t.mbx c.mb.val).delayEnd.isSome = true)

/-- `t` is `s` with command `c` waiting for `w`, the response words `reply` decided (R82). -/
def Waits (c : Current) (w : Wait) (reply : List Word) (s t : State) : Prop :=
  t = { s with fw := { s.fw with current := some { c with wait := w, reply := reply } } }

/-- `t` is `s` with the response to a request of header `h` waiting in LINK0 (R413, R414), or `s` itself where NORSP asks for
none. -/
def Responds (h : MsgHdr) (mtype status : Nat) (arg : List Byte) (overrun : Bool) (payload : List Byte) (s t : State) : Prop :=
  (h.norsp = true → t = s) ∧
  (h.norsp = false → t = s.modCls 0 (msgClass mtype) (fun q => { q with queue := q.queue ++ [(false,
    msgBytes mtype 0x7E s.link.addr (if overrun then 5 else 1) h.mtag.toNat (toBytes 2 status ++ arg) payload)] }))

/-- Tracked work of tag `tag` begins (R83, R92, R379): its progress entry is fresh and RUNNING; credit for its COMPLETION is
taken, or asked for, in its ring alone; records of the tag's earlier command that wait for DRAM belong to no entry. -/
def Begun (tag opcode ring output : Nat) (s t : State) : Prop :=
  t.prog tag = { opcode := w16 opcode, state := .running, ring := w16 ring, output := output } ∧
  (∀ k, k ≠ tag → t.prog k = s.prog k) ∧ (∀ r, r ≠ ring → t.ring r = s.ring r) ∧
  t.harv.stager = (forgetTag s tag).harv.stager

/-- Work with end `e` has ended (R92, R93, R379): its progress entry has its final fields, or, while its COMPLETION record
waits for credit or staging, the end waits and the entry is as it was. -/
def Ended (e : PendingEnd) (t : State) : Prop :=
  ((t.prog e.tag).state = (if e.state = 2 then .part else .done) ∧ (t.prog e.tag).stopCause = e.cause ∧
    (t.prog e.tag).steps = e.steps ∧ (t.prog e.tag).output = e.output ∧ (t.prog e.tag).stopTime = e.time) ∨
  e ∈ t.harv.ends

/-- `t` is `u` but for what the register bus notes of its accesses (R53, R71): each master's last F3 cycle, and what reached
the registers in the present one. -/
def BusNoted (u t : State) : Prop :=
  t = { u with bus := { u.bus with recent := t.bus.recent, lastHost := t.bus.lastHost, lastShed := t.bus.lastShed } }

/-- Master `m` completes, in time, the pair whose half `h` it holds (R60). -/
abbrev InTime (s : State) (m : Master) (h : Half) : Prop :=
  busAlive s = true ∧ halfOf s m = some h ∧ f3 (busTurn s m).clk.time ≤ h.time + 1024

/-- The state in which a pair's effect begins: the access's cycle, with the half consumed. -/
abbrev paired (s : State) (m : Master) : State := setHalf (busTurn s m) m none

/-- No host write of the same F3 cycle to the word at `a` overrides the access (R53). -/
abbrev Prevails (s : State) (m : Master) (a : Nat) : Prop :=
  m = .host ∨ ∀ e ∈ (busTurn s m).recent.writes, e.1 ≠ a

/-- BURST_RUN `c`, read in `s`, has armed every site of its mask in `u` with start `st` (R225, R227): each is fresh but for its
lanes, with the settings of the command and its own tag, whose progress entry is RUNNING. -/
def Armed (c : Current) (st : BurstStart) (s u : State) : Prop :=
  ∀ i, i < (seqMask c).length →
    u.seq ((seqMask c).getD i 0) = {
      lanes := (s.seq ((seqMask c).getD i 0)).lanes, mode := .armed, stream := par c 4, tag := c.tag.toNat + i, ring := c.ring.toNat
      resultRing := if par c 13 = 0xFFFF then c.ring.toNat else par c 13
      starveAbort := (par c 11).testBit 0, segEvents := (par c 11).testBit 1, logMode := par c 11 / 4 % 4, failLimit := par c 12
      start := st, entry := par c 5, endCredit := (u.seq ((seqMask c).getD i 0)).endCredit
      entryPin := (s.strm (par c 4)).list[par c 5]? } ∧
    u.prog (c.tag.toNat + i) = { opcode := 0x0303, state := .running, ring := w16 c.ring.toNat, output := 1 }

/-- START in word `i` of command `c`, or its WHEN, is one that a run accepts (R131, R226, R274): T is 0 unless START is AT, and
lies at least 10 µs after the pick. -/
abbrev StartFits (c : Current) (i : Nat) : Prop :=
  par c i ≤ 2 ∧ (par c i ≠ 1 → ∀ k, i < k → k ≤ i + 4 → par c k = 0) ∧ (par c i = 1 → c.pick + 32000 ≤ par64 c (i + 1))

/-- WHEN in word `i` of command `c`, NOW or AT, as `StartFits` (R131, R270). -/
abbrev WhenFits (c : Current) (i : Nat) : Prop := StartFits c i ∧ par c i ≤ 1

/-- The start that command `c` asks for in word `i`, accepted in `s` (R226, R274): 2 µs on, at T, both up to an F3 cycle, or at
an edge of the TIN named. -/
def StartAsked (c : Current) (s : State) (i tin : Nat) (falling : Bool) (st : BurstStart) : Prop :=
  (par c i = 0 → ∃ ts, st = .at ts ∧ s.clk.time + 6400 ≤ ts ∧ ts < s.clk.time + 6416 ∧ ts % 16 = 0) ∧
  (par c i = 1 → ∃ ts, st = .at ts ∧ par64 c (i + 1) ≤ ts ∧ ts < par64 c (i + 1) + 16 ∧ ts % 16 = 0) ∧
  (par c i = 2 → st = .tin tin falling)

/-- The start that BURST_RUN `c` asks for (R226). -/
abbrev StartsAsAsked (c : Current) (s : State) (st : BurstStart) : Prop :=
  StartAsked c s 6 (par c 11 / 16 % 4) ((par c 11).testBit 6) st

/-- Words 0 and 1 name a range of loops of one path (R230). -/
abbrev LoopsNamed (c : Current) : Prop := 1 ≤ par c 1 ∧ par c 0 + par c 1 ≤ 544 ∧ (512 ≤ par c 0 ∨ par c 0 + par c 1 ≤ 512)

/-- No run of calibration holds the loop, its bed is ACTIVE, and an external stage of it is attached and not lost (R268). -/
abbrev LoopReady (s : State) (l : Nat) : Prop :=
  calHoldsLoop s l = false ∧ bedActive s (loopBed l) = true ∧
  ((s.loop l).stage = 0 ∨ ((s.stage (s.loop l).stageId).attached = true ∧ (s.stage (s.loop l).stageId).lost = false))

/-- A set-point generator may start on the loop (R250, R268, R310). -/
abbrev SourceReady (s : State) (l : Nat) : Prop :=
  (s.loop l).state = .regulating ∧ (s.loop l).mode ≠ 2 ∧ (s.loop l).source = .dc ∧ LoopReady s l ∧
  (chargeOutside s l = false ∨ ∃ h, (s.loop l).iHi = some h ∧ h ≤ 0)

/-- MEAS_RUN names a range of loops of one path, or a slot of a bed's monitor (R345). -/
abbrev MeasNamed (c : Current) : Prop :=
  (par c 1 = 0 ∧ 1 ≤ par c 3 ∧ par c 2 + par c 3 ≤ 544 ∧ (512 ≤ par c 2 ∨ par c 2 + par c 3 ≤ 512)) ∨
  (par c 1 = 1 ∧ par c 2 < 16 ∧ par c 3 < 170)

/-- The `n` tags from the command's on exist, and none is in use (R84, R225). -/
abbrev TagsFree (s : State) (c : Current) (n : Nat) : Prop :=
  c.tag.toNat + n ≤ 0x1000 ∧ ∀ i, i < n → tagInUse s (c.tag.toNat + i) = false

/-- In `u` the loops that command `c` names have source `src` of the loop and its tag, nothing else of any loop has changed, and
exactly the run's tags have fresh progress entries of opcode `op` (R92, R274). -/
def SourcesStarted (c : Current) (op : Nat) (src : Nat → Nat → Source) (s u : State) : Prop :=
  (∀ i, i < par c 1 → u.loop (par c 0 + i) = { s.loop (par c 0 + i) with source := src (par c 0 + i) (c.tag.toNat + i) } ∧
    u.prog (c.tag.toNat + i) = { opcode := w16 op, state := .running, ring := c.ring, output := 2 }) ∧
  (∀ l, l ∉ loopRange c 0 → u.loop l = s.loop l) ∧
  (∀ k, (k < c.tag.toNat ∨ c.tag.toNat + par c 1 ≤ k) → u.prog k = s.prog k) ∧
  u = { s with fw := { s.fw with progress := u.fw.progress }, lp := { s.lp with loop := u.lp.loop }, harv := u.harv }

/-- The channel of unit `u` takes this transition of its source at fine step `e`, which the chip does not make in a row of its
own, and stamps it `x` (R350 to R352). -/
def EdgeTaken (s : State) (u : Nat) (stop : Bool) (e : Nat) (fall : Bool) (x : Nat) : Prop :=
  ∃ src ed, channelSel (s.tiu u) stop = (src, ed) ∧ ownSource src = false ∧ sourceLive s u src e fall = true ∧
    bedActive s (u / 2) = true ∧ (ed = 0 → fall = false) ∧ (ed = 1 → fall = true) ∧ x = timStamp s u stop src e

/-- CAL_RUN's parameters are in their ranges (R481, R491, R503). -/
abbrev CalAsked (c : Current) : Prop :=
  par c 0 ≤ 6 ∧ par32 c 1 < 2 ^ calScopes (par c 0) ∧ (calScopes (par c 0) = 0 ∨ par32 c 1 ≠ 0) ∧ par c 3 < 2 ∧
  (par c 0 ≠ 6 → par32 c 4 = 0 ∧ par c 6 = 0) ∧
  (par c 0 = 6 → within (parF c 4) (Frac.ofInt 2) (Frac.ofInt 5) = true ∧ (par c 6 = 0 ∨ (50 ≤ par c 6 ∧ par c 6 ≤ 10000)))

/-- Nothing of the scopes that CAL_RUN `c` names is in use (R501, R502): no burst or time-interval run on them, their beds
ACTIVE, and REFCLK there for the kinds that need it. -/
abbrev CalScopesFree (s : State) (c : Current) : Prop :=
  (par c 0 ≤ 2 → s.clk.refPresent = true ∧ s.clk.holdover = false) ∧
  (∀ b ∈ calBeds (par c 0) (scopesOf s (par c 0) (par32 c 1)), bedActive s b = true ∧ (par c 0 ≤ 3 → bedBusy s b = false)) ∧
  (par c 0 = 2 → ∀ u ∈ scopesOf s 2 (par32 c 1), (s.tiu u).run = none)

/-- No run is under way on a time-interval unit, which a pulse of a sequencer might then end. -/
abbrev UnitsRest (s : State) : Prop := ∀ e ∈ s.meas.unit, e.2.run = none

/-- Both ports rest: neither sends anything of its own in the coming tick. -/
abbrev PortsRest (s : State) : Prop :=
  ∀ p, p < 2 → (s.port p).step ≠ .active ∧ (s.port p).resetReq = false ∧ (s.port p).delayRsp = false

end Sys2Proof.Machine
end

