-- ==== Sys2Proof/Certificates/Slice0/Obligations.lean ====
section
/-! DEFINITION. The statements for the provers, chapter by chapter of the spec. Each says what its commands leave as it is,
and, under hypotheses on the state and the operands alone, that they complete. -/

open Sys2Proof Sys2Proof.Machine

/-- A step with command `c` at the front of the queue is `exec` of `c` on the state with the queue's rest, and no command
changes the queue that it leaves. -/
def Obligations.CommandsRunInOrder : Prop :=
  (∀ (c : Instr) (r : List Instr) (s : State), step { s with pending := c :: r } = exec c { s with pending := r }) ∧
  (∀ (c : Instr) (r : List Instr) (s t : State), s.pending = c :: r → step s = .next t → t.pending = r)

/-- The model's choice (log entry 2): with no command waiting, a step lets one tick of F0 pass. With both ports at rest and
nothing due, chip time counts while the clocks run and nothing else changes; a forced fault whose time has come is raised. -/
def Obligations.EmptyQueueLetsTimePass : Prop :=
  (∀ (s : State), s.pending = [] → ∃ t, step s = .next t) ∧
  (∀ (s : State), s.pending = [] → PortsRest s → s.link.inbox = [] → s.flt.forceAt = [] →
    (∀ e ∈ s.pat.seq, e.2.mode ≠ .ending) →
    step s = .next (if s.clk.pllLocked = true ∨ s.clk.holdover = true then { s with clk := { s.clk with time := (s.clk.time + 1) % 2 ^ 64 } } else s)) ∧
  (∀ (s : State) (a k src : Nat), s.pending = [] → PortsRest s → s.link.inbox = [] →
    s.flt.forceAt = [(a, k, src)] → a ≤ s.clk.time → s.clk.time + 1 < 2 ^ 64 → (∀ e ∈ s.pat.seq, e.2.mode ≠ .ending) →
    ∃ t d, step s = .next t ∧ t.flt.forceAt = [] ∧ t.flt.waiting = s.flt.waiting ++ [d] ∧ d.block = k ∧ d.source = src ∧ d.forced = true)

/-- What power-on leaves (R38, R48, R54, R62, R63, R66, R72, R76, R79, and the register tables of spec/03, spec/04 and spec/17). The queue is
empty and every memory unlisted; registers read the reset values of their tables; no fault is recorded; every mailbox is
OFFLINE; the three memories are canonical. -/
def Obligations.ResetLeaves : Prop :=
  State.reset.pending = [] ∧ State.reset.pat.dram = [] ∧ State.reset.ser.flash = [] ∧ State.reset.cal.keep = [] ∧
  Memory.wf 0 State.reset.pat.dram = true ∧ Memory.wf 0xFF State.reset.ser.flash = true ∧ Memory.wf 0xFF State.reset.cal.keep = true ∧
  State.reset.fw.rollback ≤ 64 ∧ State.reset.clk.phase = .released ∧ State.reset.clk.time = 0 ∧ State.reset.clk.pllLocked = false ∧
  (∀ n, n < 8 → (State.reset.mbx n).state = .offline) ∧ (∀ k, (State.reset.fblk k).sticky = 0 ∧ (State.reset.fblk k).ffValid = false ∧ (State.reset.fblk k).events = 0 ∧
    (State.reset.fblk k).merged = 0 ∧ (State.reset.fblk k).intEn = true) ∧
  (∀ k n, k < 28 → n < 64 → State.reset.react k n = factoryReact (64 * k + n)) ∧
  State.reset.flt.waiting = [] ∧ State.reset.flt.chip = [] ∧ State.reset.flt.chain = [] ∧ State.reset.flt.armed = false ∧ State.reset.sup.shutdown = false ∧
  (∀ m : Master, readWord State.reset m 0x100 = 0 ∧ readWord State.reset m 0x101 = 2 ∧ readWord State.reset m 0x102 = 250 ∧ readWord State.reset m 0x108 = 1 ∧
    readWord State.reset m 0x116 = 0 ∧ readWord State.reset m 0x11A = 0 ∧ readWord State.reset m 0x11C = 0 ∧ readWord State.reset m 0x11D = 0 ∧
    readWord State.reset m 0x11E = 0 ∧ readWord State.reset m 0x10000 = 0)

/-- R54. The identity region: fixed words, the DRAM size, release and command set that the part found, and UNIQUE_ID, least
significant word first; a write is discarded without a fault. -/
def Obligations.IdentityRegion : Prop :=
  (∀ (s : State) (m : Master), readWord s m 0x00 = 0x0CE7 ∧ readWord s m 0x01 = 0x0512 ∧ readWord s m 0x02 = 0x0101 ∧ readWord s m 0x03 = 0x0001 ∧
    readWord s m 0x04 = 16 ∧ readWord s m 0x05 = 512 ∧ readWord s m 0x06 = 32 ∧ readWord s m 0x07 = 64 ∧ readWord s m 0x08 = 0xFFFF ∧ readWord s m 0x09 = 32768 ∧
    readWord s m 0x0A = 4096 ∧ readWord s m 0x0B = 16384 ∧ readWord s m 0x0C = 4 ∧ readWord s m 0x0D = 4 ∧ readWord s m 0x0E = 64 ∧ readWord s m 0x0F = 32 ∧
    readWord s m 0x10 = 64 ∧ readWord s m 0x11 = 28 ∧ readWord s m 0x12 = 8 ∧ readWord s m 0x13 = 0xFFFF ∧ readWord s m 0x14 = 4096 ∧ readWord s m 0x15 = 2048 ∧
    readWord s m 0x16 = 0x1030 ∧ readWord s m 0x17 = s.bus.dramMib ∧ readWord s m 0x18 = s.bus.fwRelease.toNat ∧ readWord s m 0x19 = s.bus.cmdsetMax.toNat ∧
    readWord s m 0x1C = s.bus.uniqueId.toNat % 65536 ∧ readWord s m 0x1D = s.bus.uniqueId.toNat / 65536 % 65536 ∧
    readWord s m 0x1E = s.bus.uniqueId.toNat / 2 ^ 32 % 65536 ∧ readWord s m 0x1F = s.bus.uniqueId.toNat / 2 ^ 48) ∧
  (∀ (m : Master), readWord State.reset m 0x17 = 0 ∧ readWord State.reset m 0x18 = 0 ∧ readWord State.reset m 0x19 = 0) ∧
  (∀ (m : Master) (a : Addr) (w : Word) (s : State), busAlive s = true → halfOf s m = none → a.toNat < 0x20 →
    ∃ t, exec (.registerWritePlain m a w) s = .next t ∧ BusNoted (busTurn s m) t)

/-- Every step keeps the memories canonical: DRAM, flash and keep store list strictly rising addresses, and no entry that
reads as an unlisted address does; the rollback counter keeps at most its 64 bits (R106). -/
def Obligations.MemoriesStayCanonical : Prop :=
  ∀ s t : State, Memory.wf 0 s.pat.dram = true → Memory.wf 0xFF s.ser.flash = true → Memory.wf 0xFF s.cal.keep = true → s.fw.rollback ≤ 64 →
    step s = .next t →
    Memory.wf 0 t.pat.dram = true ∧ Memory.wf 0xFF t.ser.flash = true ∧ Memory.wf 0xFF t.cal.keep = true ∧ t.fw.rollback ≤ 64

/-- What is in one-time-programmable memory stays (R54, R106, R111): no step changes UNIQUE_ID, and no step lowers the rollback counter. -/
def Obligations.ProgrammedOnceStays : Prop :=
  ∀ s t : State, Memory.wf 0 s.pat.dram = true → Memory.wf 0xFF s.ser.flash = true → Memory.wf 0xFF s.cal.keep = true → s.fw.rollback ≤ 64 →
    step s = .next t → t.bus.uniqueId = s.bus.uniqueId ∧ s.fw.rollback ≤ t.fw.rollback

/-- Power, pin and reset events (R32, R35, R36, R37, R39, R41, R48). POWER_ON_RESET boots to step 3 with RESET_CAUSE.POR
and keeps the non-volatile stores alone. POWER_LOSS ends everything volatile. PIN_RESET of at least 1 µs is absorbed by an
equal or stronger reset in progress; otherwise it starts: RESET_CAUSE.PIN, every bed in cloche, no mailbox, no record in
flight, chip time counting on. RESET_END boots from step 3. BLOCK_RESET_END returns the block to service, answers the
command that waits for it, and gives a bed a sync pulse (R169). Chip time during RESET_END's catching up is the model's reading (log entry 1). -/
def Obligations.PowerAndResetEvents : Prop :=
  (∀ (wsel : BitVec 2) (s : State), s.clk.phase = .off ∨ s.clk.phase = .released →
    ∃ t, exec (.powerOnReset wsel) s = .next t ∧ t.clk = { ({} : Clock) with phase := .seeded, wsel := wsel } ∧
      t.mb = [] ∧ t.pat = {} ∧ t.meas = {} ∧ t.harv = {} ∧ t.link = {} ∧ t.ser = { ({} : Serial) with flash := s.ser.flash } ∧
      t.fw = { ({} : Firmware) with rollback := s.fw.rollback } ∧ t.bus.uniqueId = s.bus.uniqueId ∧
      t.sup.shutdown = false ∧ t.pending = s.pending) ∧
  (∀ s : State, ∃ t, exec .powerLoss s = .next t ∧ t.clk = { ({} : Clock) with phase := .off } ∧ t.mb = [] ∧ t.pins = {} ∧
    t.edge = {} ∧ t.pat = {} ∧ t.lp = {} ∧ t.meas = {} ∧ t.harv = {} ∧ t.link = {} ∧ t.flt = {} ∧
    t.ser = { ({} : Serial) with flash := s.ser.flash } ∧ t.fw = { ({} : Firmware) with rollback := s.fw.rollback } ∧
    t.sup = { ({} : Supervision) with tripLog := s.sup.tripLog } ∧ t.cal.keep = s.cal.keep ∧ t.cal.wear = s.cal.wear ∧
    t.bus = { ({} : Bus) with uniqueId := s.bus.uniqueId }) ∧
  (∀ (lowNs : Nat) (s : State), lowNs < 1000 → exec (.pinReset lowNs) s = .next s) ∧
  (∀ (lowNs : Nat) (s : State), s.clk.resetting = some .pin ∨ s.clk.resetting = some .powerOn →
    exec (.pinReset lowNs) s = .next s) ∧
  (∀ (lowNs : Nat) (s : State), 1000 ≤ lowNs → s.clk.phase ≠ .off → s.clk.phase ≠ .deep → s.clk.resetting ≠ some .pin →
    s.clk.resetting ≠ some .powerOn →
    ∃ t, exec (.pinReset lowNs) s = .next t ∧ t.clk.resetting = some .pin ∧ t.clk.resetCause = s.clk.resetCause ||| 2 ∧
      t.clk.time = s.clk.time ∧ s.clk.time + lowNs * 16 / 5 ≤ t.clk.resetEnd ∧ t.clk.resetEnd ≤ s.clk.time + lowNs * 16 / 5 + 1 ∧
      t.clk.wdogTimes = s.clk.wdogTimes ∧ t.clk.restarting = false ∧
      (∀ b, b < 16 → (t.bedc b).active = true) ∧ (∀ l, l < 544 → (t.loop l).state = .cloche) ∧
      t.mb = [] ∧ t.meas = {} ∧ t.harv = {} ∧ t.pat.seq = [] ∧ t.link.port = [] ∧ t.fw.rollback = s.fw.rollback ∧
      t.cal.keep = s.cal.keep ∧ t.flt.armed = false ∧ t.bus.halfHost = none ∧ t.bus.halfShed = none) ∧
  (∀ s : State, s.clk.resetting ≠ none →
    ∃ t, exec .resetEnd s = .next t ∧ t.clk.phase = .seeded ∧ t.clk.resetting = none ∧
      t.clk.time = max s.clk.time s.clk.resetEnd ∧ t.clk.resetCause = s.clk.resetCause ∧ t.bus.uniqueId = s.bus.uniqueId ∧
      t.sup.shutdown = s.sup.shutdown ∧
      (s.sup.shutdown = false → t.mb = [] ∧ t.meas = {} ∧ t.harv = {} ∧ t.link.port = [] ∧ t.flt.chip = [] ∧
        t.flt.chain = [] ∧ ∀ b, (t.bedc b).active = false) ∧
      (s.sup.shutdown = true → Cause.shutdown ∈ t.flt.chip ∧ ∀ b, b < 16 → (t.bedc b).active = true)) ∧
  (∀ (k : Block) (s : State), s.blkReset k.val = true →
    ∃ t, exec (.blockResetEnd k) s = .next t ∧ t.blkReset k.val = false ∧ (∀ j, j ≠ k.val → t.blkReset j = s.blkReset j) ∧
      (∀ c, s.fw.current = some c → c.wait = .blockReset k → t.fw.current = none) ∧
      (k.val < 16 → s.flt.armed = false → t.base k.val = 0) ∧
      t = { s with free := t.free, clk := t.clk, mb := t.mb, fw := t.fw, edge := { s.edge with base := t.edge.base },
                   pat := { s.pat with fetch := t.pat.fetch, turn := t.pat.turn, fetchReady := t.pat.fetchReady },
                   meas := t.meas, link := t.link, ser := t.ser, flt := t.flt }) ∧
  (∀ (k : Block) (s : State), s.blkReset k.val = false → exec (.blockResetEnd k) s = .next s)

/-- The boot's second half and the reference (R28, R29, R31, R32, R33, R34, R40, R103, R434). PLL_LOCK leaves step 4, or holds
there and raises REF_ABSENT_BOOT while REFCLK is absent: chip time starts at 0 unless the PLL has been locked or held over,
the root-side port alone begins to train (R401), and with no readable flash, or no candidate image, the boot ends in recovery
with MB0 IDLE; a single candidate that is no trial runs exactly if it is authentic. FIRMWARE_READY makes every mailbox IDLE and HELLO necessary. A window of edges outside
88 to 104 starts holdover and clears SYNC validity, any other changes nothing; 64 periods of 2 900 to 3 200 edges while the
PLL is unlocked judge REFCLK present; relock ends holdover without a step of chip time. -/
def Obligations.BootAndReferenceEvents : Prop :=
  (∀ (env : BootEnv) (s : State), s.clk.phase = .seeded → s.clk.resetting = none → s.clk.refPresent = false → env.refclk = false →
    ∃ t, exec (.pllLock env) s = .next t ∧ (t.fblk 0x10).live.getLsbD 1 = true ∧ t = { s with flt := t.flt } ∧
      ((s.fblk 0x10).live.getLsbD 1 = false → t.flt.waiting.length = s.flt.waiting.length + 1)) ∧
  (∀ (env : BootEnv) (s : State), s.clk.phase = .seeded → s.clk.resetting = none → s.clk.refPresent = true ∨ env.refclk = true →
    ∃ t, exec (.pllLock env) s = .next t ∧ (t.clk.phase = .started ∨ t.clk.phase = .recovery) ∧
      t.clk.refPresent = true ∧ t.clk.pllLocked = true ∧ t.clk.holdover = false ∧ t.bus.dramMib = (if 4096 ≤ env.dramMib ∧ env.dramMib ≤ 32768 then env.dramMib else 0) ∧
      ((s.port 0).step = .off → (t.port 0).step = .detect) ∧ t.port 1 = s.port 1 ∧
      t.clk.time = (if s.clk.pllLocked = true ∨ s.clk.holdover = true then s.clk.time else 0) ∧
      (chooseFormat s.clk.wsel env = none ∨ imageCands s = [] → t.clk.phase = .recovery ∧ (t.mbx 0).state = .idle) ∧
      (∀ b, imageCands s = [b] → slotTrial s b = false → chooseFormat s.clk.wsel env ≠ none →
        (t.clk.phase = .started ↔ authentic s b = true) ∧ (authentic s b = true → t.clk.imageSlot = b)) ∧
      t = { s with free := t.free, clk := t.clk, bus := { s.bus with dramMib := t.bus.dramMib }, mb := t.mb,
                   fw := { s.fw with bootLog := t.fw.bootLog }, edge := { s.edge with base := t.edge.base },
                   link := { s.link with port := t.link.port }, ser := t.ser, flt := t.flt }) ∧
  (∀ s : State, s.clk.resetting = none → s.clk.phase = .started → s.clk.restarting = false →
    ∃ t, exec .firmwareReady s = .next t ∧ t.clk = { s.clk with phase := .ready, restarting := false, activating := false, wdogRunning := s.clk.wdogPeriod, wdogServed := s.clk.time } ∧
      (∀ n, n < 8 → t.mbx n = { s.mbx n with state := .idle }) ∧
      t.bus = { s.bus with fwRelease := t.bus.fwRelease, cmdsetMax := t.bus.cmdsetMax } ∧
      t.bus.fwRelease = w16 (flashNum s (imageBase s + 8) 2) ∧ t.bus.cmdsetMax = w16 (flashNum s (imageBase s + 10) 2) ∧
      t = { s with clk := t.clk, bus := t.bus, mb := t.mb, fw := t.fw, harv := t.harv, flt := t.flt }) ∧
  (∀ (edges : Nat) (s : State), 88 ≤ edges → edges ≤ 104 → exec (.refLost edges) s = .next s) ∧
  (∀ (edges : Nat) (s : State), s.clk.pllLocked = true → edges < 88 ∨ 104 < edges →
    ∃ t, exec (.refLost edges) s = .next t ∧
      t.clk = { s.clk with refPresent := false, pllLocked := false, holdover := true, refLostSticky := true } ∧
      t.link.syncValid = false ∧ t.bus = { s.bus with recent := t.bus.recent } ∧ t.pat.dram = s.pat.dram ∧ t.pins = s.pins ∧ t.ser = s.ser ∧ t.sup = s.sup ∧ t.pending = s.pending) ∧
  (∀ (counts : List Nat) (s : State), s.clk.pllLocked = false → 64 ≤ counts.length →
    (∀ n ∈ counts.drop (counts.length - 64), 2900 ≤ n ∧ n ≤ 3200) →
    ∃ t, exec (.refclkReturn counts) s = .next t ∧ (t.fblk 0x10).live.getLsbD 0 = false ∧ (t.fblk 0x10).live.getLsbD 1 = false ∧
      t = { s with clk := { s.clk with refPresent := true }, flt := { s.flt with block := t.flt.block } } ∧
      (∀ k, k ≠ 0x10 → t.fblk k = s.fblk k)) ∧
  (∀ (counts : List Nat) (s : State), counts.length < 64 ∨ s.clk.pllLocked = true → exec (.refclkReturn counts) s = .next s) ∧
  (∀ s : State, s.clk.holdover = true → s.clk.refPresent = true →
    exec .pllRelock s = .next { s with clk := { s.clk with pllLocked := true, holdover := false } })

/-- The watchdog and the power states (R35, R38, R40, R42, R43, R45 to R47, R111, R518). A watchdog restart halts the shed:
mailboxes flushed, revision 0, class W at its defaults, RESET_CAUSE.WDOG; the third within 10 s of chip time becomes a
chip reset with WDOG_ESC. ACTIVATION_RESTART and TRAP_TIMEOUT start the same restart. DEEP_ENTRY leaves the always-on
state, DEEP_WAKE by an enabled source boots from step 3 with DEEP_EXIT. STANDBY_EXIT_COMPLETE ends the bed's exit once a full read-back
round has passed; the two DRAM rows end and start self-refresh, the first on demand and the second without. -/
def Obligations.WatchdogAndPowerEvents : Prop :=
  (∀ (s : State) (n : Nat), n = max s.clk.time (s.clk.wdogServed + 3200000 * s.clk.wdogRunning) →
    s.clk.restarting = false → s.clk.resetting = none → s.clk.phase = .started ∨ s.clk.phase = .ready →
    (s.clk.wdogTimes.filter (fun x => decide (n < x + 32000000000))).length < 2 →
    ∃ t, exec .watchdogExpiry s = .next t ∧ t.clk.restarting = true ∧ t.clk.activating = false ∧
      t.clk.resetCause = s.clk.resetCause ||| 16 ∧ t.clk.time = n ∧ t.clk.wdogPeriod = 250 ∧ t.mb = [] ∧
      t.fw.rev = 0 ∧ t.fw.current = none ∧ t.fw.session = none ∧ t.bus.keepWe = 0 ∧ t.bus.fwCommit = 0 ∧
      n ∈ t.clk.wdogTimes ∧ t.pat.dram = s.pat.dram ∧ t.ser.flash = s.ser.flash ∧ t.cal.keep = s.cal.keep ∧ t.pins = s.pins) ∧
  (∀ (s : State) (n : Nat), n = max s.clk.time (s.clk.wdogServed + 3200000 * s.clk.wdogRunning) →
    s.clk.restarting = false → s.clk.resetting = none → s.clk.phase = .started ∨ s.clk.phase = .ready →
    2 ≤ (s.clk.wdogTimes.filter (fun x => decide (n < x + 32000000000))).length →
    ∃ t, exec .watchdogExpiry s = .next t ∧ t.clk.resetting = some .chip ∧
      t.clk.resetCause = s.clk.resetCause ||| 16 ||| 32 ∧ t.clk.time = n ∧ t.clk.resetEnd = n + 32000) ∧
  (∀ (s : State) (d : Nat), s.clk.activationDue = some d → s.clk.restarting = false → s.clk.resetting = none →
    s.clk.phase = .started ∨ s.clk.phase = .ready →
    (s.clk.wdogTimes.filter (fun x => decide (max s.clk.time d < x + 32000000000))).length < 2 →
    ∃ t, exec .activationRestart s = .next t ∧ t.clk.restarting = true ∧ t.clk.activating = true ∧
      t.clk.activationDue = none ∧ t.clk.time = max s.clk.time d ∧ t.mb = [] ∧ t.fw.rev = 0) ∧
  (∀ (s : State) (d : Nat), s.clk.activationDue = some d → s.clk.resetting = none → s.clk.phase = .recovery →
    ∃ t, exec .activationRestart s = .next t ∧ t.clk.resetting = some .chip ∧ t.clk.resetCause = s.clk.resetCause ∧
      t.clk.resetEnd = max s.clk.time d + 32000) ∧
  (∀ s : State, s.clk.activationDue = none → exec .activationRestart s = .next s) ∧
  (∀ s : State, s.fw.traps = [] → exec .trapTimeout s = .next s) ∧
  (∀ s : State, s.clk.deepDue = none → exec .deepEntry s = .next s) ∧
  (∀ (s : State) (k src at' : Nat) (r : List (Nat × Nat × Nat)), s.fw.traps = (k, src, at') :: r → s.clk.restarting = false →
    s.clk.resetting = none → s.clk.phase = .started ∨ s.clk.phase = .ready →
    (s.clk.wdogTimes.filter (fun x => decide (max s.clk.time (at' + 3200000 * s.clk.wdogRunning) < x + 32000000000))).length < 2 →
    ∃ t, exec .trapTimeout s = .next t ∧ t.clk.restarting = true ∧ t.clk.activating = false ∧ t.fw.traps = [] ∧
      t.clk.time = max s.clk.time (at' + 3200000 * s.clk.wdogRunning) ∧ t.clk.resetCause = s.clk.resetCause ||| 16) ∧
  (∀ (s : State) (d : Nat), s.clk.deepDue = some d →
    ∃ t, exec .deepEntry s = .next t ∧ t.clk.phase = .deep ∧ t.clk.resetCause = s.clk.resetCause ∧
      t.clk.wakeTin0 = s.clk.wakeTin0 ∧ t.clk.wakeLane = s.clk.wakeLane ∧ t.clk.tin0Falling = s.clk.tin0Falling ∧
      t.sup.shutdown = s.sup.shutdown ∧ t.sup.tripLog = s.sup.tripLog ∧ t.pat = { ({} : Pattern) with dram := s.pat.dram } ∧
      t.mb = [] ∧ t.pins = {} ∧ t.lp = {} ∧ t.harv = {} ∧ t.link = {} ∧ t.flt = {} ∧ t.ser.flash = s.ser.flash ∧
      t.cal.keep = s.cal.keep ∧ t.fw.rollback = s.fw.rollback) ∧
  (∀ (cause : Wake) (wsel : BitVec 2) (s : State), s.clk.phase = .deep →
    (cause = .resetN ∨ (cause = .lane ∧ s.clk.wakeLane = true) ∨
      (∃ r, cause = .tin0 r ∧ s.clk.wakeTin0 = true ∧ s.clk.tin0Falling = !r)) →
    ∃ t, exec (.deepWake cause wsel) s = .next t ∧
      t.clk = { s.clk with phase := .seeded, wsel := wsel, resetCause := s.clk.resetCause ||| 1 ||| 64 } ∧
      t.bus = { s.bus with recent := t.bus.recent } ∧ t.pat.dram = s.pat.dram ∧ t.ser.flash = s.ser.flash ∧
      t.cal.keep = s.cal.keep) ∧
  (∀ (cause : Wake) (wsel : BitVec 2) (s : State), s.clk.phase ≠ .deep → exec (.deepWake cause wsel) s = .next s) ∧
  (∀ (b : Bed) (s : State), s.stbyExit b.val = true → s.bedPow b.val = .active → 1 ≤ (s.mon b.val).rounds →
    ∃ t, exec (.standbyExitComplete b) s = .next t ∧ t.stbyExit b.val = false ∧ (t.tiu (2 * b.val)).fifo = [] ∧
      (t.tiu (2 * b.val + 1)).fifo = [] ∧ t.bus = s.bus ∧ t.pat = s.pat ∧ t.harv = s.harv ∧ t.ser = s.ser ∧ t.sup = s.sup ∧
      t.cal = s.cal ∧ t.pins = s.pins ∧ (s.flt.armed = false → t.base b.val = 0) ∧ (∀ j, j ≠ b.val → t.stbyExit j = s.stbyExit j)) ∧
  (∀ (b : Bed) (s : State), s.stbyExit b.val = false ∨ s.bedPow b.val ≠ .active ∨ (s.mon b.val).rounds = 0 →
    exec (.standbyExitComplete b) s = .next s) ∧
  (∀ s : State, dramDemand s = true →
    exec .dramWakeComplete s = .next { s with clk := { s.clk with dramSleep := false } }) ∧
  (∀ s : State, dramDemand s = false → exec .dramWakeComplete s = .next s) ∧
  (∀ s : State, s.clk.stemIdle = false ∨ dramDemand s = true → exec .dramSelfRefreshTimeout s = .next s) ∧
  (∀ s : State, s.clk.stemIdle = true → dramDemand s = false →
    exec .dramSelfRefreshTimeout s = .next { s with clk := { s.clk with dramSleep := true } })

/-- R62. A read of a value register's address returns its value, a read of the complement address its one's complement,
an action register reads 0x0000 and 0xFFFF, and a read leaves every pending half. -/
def Obligations.GuardedRegistersRead : Prop :=
  ∀ (s : State) (m : Master),
    readWord s m 0x116 = s.bus.keepWe.toNat ∧ readWord s m 0x11A = s.bus.fwCommit.toNat ∧
    readWord s m 0x10000 = (if s.flt.armed then 1 else 0) ∧
    (∀ a, guardedValue a = true → readWord s m a + readWord s m (a + 1) = 0xFFFF) ∧
    (∀ a, guardedValue a = true → a ≠ 0x116 → a ≠ 0x11A → a ≠ 0x10000 →
      readWord s m a = 0 ∧ readWord s m (a + 1) = 0xFFFF) ∧
    (∀ a, (busRead s m a).bus.halfHost = s.bus.halfHost ∧ (busRead s m a).bus.halfShed = s.bus.halfShed)

/-- R56 and R58. The alias of bit k of the word at A reads that bit alone; a write to an alias uses bit 0 of the written
word alone; an alias read has no side effect on the word's register, and an alias of a reserved address reads 0 and ignores
writes (R52 counts it). -/
def Obligations.BitAliases : Prop :=
  (∀ (s : State) (m : Master) (a k : Nat), a < 0x20000 → k < 16 →
    readWord s m (0x800000 + 16 * a + k) = (if (readWord s m a).testBit k then 1 else 0)) ∧
  (∀ (s : State) (m : Master) (a : Addr) (w w' : Word), w.getLsbD 0 = w'.getLsbD 0 →
    exec (.aliasWrite m a w) s = exec (.aliasWrite m a w') s) ∧
  (∀ (s : State) (m : Master) (a : Nat), 0x800000 ≤ a → a < 0xA00000 → busAlive s = true →
    (busRead s m a).harv = s.harv ∧ (busRead s m a).mb = s.mb ∧ (busRead s m a).pat = s.pat ∧
    (busRead s m a).flt.block = s.flt.block ∧ (busRead s m a).sup = s.sup ∧ (busRead s m a).link = s.link) ∧
  (∀ (s : State) (m : Master) (a : Addr) (w : Word), isAlias a.toNat = true → busRegion a.toNat = none → busAlive s = true →
    halfOf s m = none →
    readWord s m a.toNat = 0 ∧ exec (.aliasWrite m a w) s = .next (busDone ((busTurn s m).raise 0x11 1 (a.toNat % 65536)) m))

/-- R59, R60, R63, R73, R74 (spec/03). A value write with no half pending leaves its half pending and changes no register;
the complement in time, from the same master, completes the pair and has its effect in that cycle; the window's end (reason
1), a complement that differs (2), one that matches no half (3), a second value write (4), a value outside the register's
range (5) and an alias (6) reject with their reason, GUARD and one count a half, and no effect. -/
def Obligations.GuardedPairs : Prop :=
  (∀ (m : Master) (a : Addr) (w : Word) (s : State), busAlive s = true → guardedValue a.toNat = true → halfOf s m = none →
    exec (.guardValueWrite m a w) s = .next (busDone (setHalf (busTurn s m) m
      (some { addr := a.toNat, value := w, time := f3 (busTurn s m).clk.time })) m)) ∧
  (∀ (m : Master) (h : Half) (s : State), InTime s m h → h.addr = 0x116 → h.value.toNat < 8 → Prevails s m 0x116 →
    ∃ t, exec (.keepWe m (~~~h.value)) s = .next t ∧ t.bus.keepWe = BitVec.ofNat 3 h.value.toNat ∧ halfOf t m = none ∧
      BusNoted { paired s m with bus := { (paired s m).bus with keepWe := t.bus.keepWe } } t) ∧
  (∀ (m : Master) (h : Half) (s : State), InTime s m h → h.addr = 0x11A → h.value.toNat < 4 → Prevails s m 0x11A →
    ∃ t, exec (.fwCommit m (~~~h.value)) s = .next t ∧ t.bus.fwCommit = BitVec.ofNat 2 h.value.toNat ∧ halfOf t m = none ∧
      BusNoted { paired s m with bus := { (paired s m).bus with fwCommit := t.bus.fwCommit } } t) ∧
  (∀ (m : Master) (h : Half) (s : State), InTime s m h → h.addr = 0x110 → h.value = 1 →
    ∃ t, exec (.chipReset m (~~~h.value)) s = .next t ∧ t.clk.resetting = some .chip ∧ t.clk.time = (busTurn s m).clk.time ∧
      t.clk.resetCause = s.clk.resetCause ||| 4 ∧ t.clk.resetEnd = (busTurn s m).clk.time + 32000 ∧ t.mb = [] ∧
      halfOf t m = none ∧ (∀ b, b < 16 → (t.bedc b).active = true) ∧ t.pat.dram = s.pat.dram ∧ t.ser.flash = s.ser.flash ∧
      t.cal.keep = s.cal.keep ∧ t.fw.rollback = s.fw.rollback) ∧
  (∀ (m : Master) (h : Half) (s : State), InTime s m h → h.addr = 0x110 → h.value = 0 →
    exec (.chipReset m (~~~h.value)) s = .next (busDone (paired s m) m)) ∧
  (∀ (m : Master) (h : Half) (s : State) (b : Nat), InTime s m h → h.addr = 0x112 → h.value.toNat = b → b < 16 →
    ∃ t, exec (.clocheOverride m (~~~h.value)) s = .next t ∧ (t.bedc b).active = true ∧ Cause.dead ∈ (t.bedc b).causes ∧
      t.flt.chip = s.flt.chip ∧ t.flt.chain = s.flt.chain ∧ halfOf t m = none ∧ t.clk = (busTurn s m).clk ∧
      t.pat.dram = s.pat.dram ∧ t.sup = s.sup ∧ t.cal = s.cal ∧ t.ser.flash = s.ser.flash ∧
      (∀ j, j ≠ b → (t.bedc j).active = (s.bedc j).active ∧ (t.bedc j).causes = (s.bedc j).causes)) ∧
  (∀ (m : Master) (h : Half) (s : State), InTime s m h → h.addr = 0x112 → h.value = 0x10 ∨ h.value = 0x30 →
    ∃ t, exec (.clocheOverride m (~~~h.value)) s = .next t ∧ (∀ b, b < 16 → (t.bedc b).active = true) ∧
      Cause.dead ∈ t.flt.chip ∧ (h.value = 0x30 → Cause.dead ∈ t.flt.chain) ∧
      (h.value = 0x10 → t.flt.chain = s.flt.chain) ∧ halfOf t m = none ∧ t.clk = (busTurn s m).clk ∧
      t.pat.dram = s.pat.dram ∧ t.sup = s.sup ∧ t.cal = s.cal ∧ t.ser.flash = s.ser.flash) ∧
  (∀ (m : Master) (h : Half) (s : State) (b : Nat), InTime s m h → h.addr = 0x114 → h.value.toNat = b → b < 16 →
    (s.bedc b).active = true → (∀ x, (s.bedc b).tripAt = some x → f3 x ≠ f3 (busTurn s m).clk.time) →
    s.flt.chip = [] → s.flt.chain = [] → (∀ c ∈ (s.bedc b).causes, causeLive (paired s m) c = false) →
    ∃ t, exec (.clocheRelease m (~~~h.value)) s = .next t ∧ (t.bedc b).active = false ∧ (t.bedc b).causes = [] ∧
      (∀ j, j ≠ b → t.bedc j = s.bedc j) ∧ halfOf t m = none ∧
      t = { paired s m with bus := t.bus, pins := t.pins, edge := t.edge, lp := t.lp, flt := t.flt }) ∧
  (∀ (m : Master) (h : Half) (s : State) (b x : Nat), InTime s m h → h.addr = 0x114 → h.value.toNat = b → b < 16 →
    (s.bedc b).tripAt = some x → f3 x = f3 (busTurn s m).clk.time →
    exec (.clocheRelease m (~~~h.value)) s = .next (busDone (paired s m) m)) ∧
  (∀ (m : Master) (h : Half) (s : State), InTime s m h → h.addr = 0x118 → h.value = 1 → s.sup.shutdown = true →
    s.sup.exitOk = true → f3 s.sup.shutTime ≠ f3 (busTurn s m).clk.time →
    ∃ t, exec (.shutdownClear m (~~~h.value)) s = .next t ∧ (t.fblk 0x1A).live.getLsbD 3 = false ∧
      t.sup = { s.sup with shutdown := false, analogueOff := false, shedSlow := false, reconnect := true } ∧ halfOf t m = none ∧
      t = { paired s m with bus := t.bus, pins := t.pins, sup := t.sup, flt := t.flt }) ∧
  (∀ (m : Master) (h : Half) (s : State), InTime s m h → h.addr = 0x118 → h.value.toNat < 2 → h.value = 0 ∨ s.sup.shutdown = false ∨
    s.sup.exitOk = false ∨ f3 s.sup.shutTime = f3 (busTurn s m).clk.time →
    exec (.shutdownClear m (~~~h.value)) s = .next (busDone (paired s m) m)) ∧
  (∀ (m : Master) (k : Block) (h : Half) (s : State), InTime s m h → h.addr = 0x1000 + 0x40 * k.val + 0x3E →
    h.value.toNat < srcCount k.val →
    exec (.faultForceRegister m k (~~~h.value)) s = .next (busDone ((paired s m).raiseForced k.val h.value.toNat) m)) ∧
  (∀ (m : Master) (h : Half) (s : State), InTime s m h → h.addr = 0x10000 → h.value = 1 → s.flt.armed = false → Prevails s m 0x10000 →
    ∃ t, exec (.perturbArm m (~~~h.value)) s = .next t ∧ t.flt.armed = true ∧ t.flt.armTime = (busTurn s m).clk.time ∧
      halfOf t m = none ∧ (∀ e, (t.pert e).active = false ∧ (t.pert e).next = 0 ∧ (t.pert e).kind = (s.pert e).kind) ∧
      BusNoted { paired s m with flt := { s.flt with armed := true, armTime := t.flt.armTime, entry := t.flt.entry } } t) ∧
  (∀ (m : Master) (h : Half) (s : State), InTime s m h → h.addr = 0x10000 → h.value = 0 → Prevails s m 0x10000 →
    ∃ t, exec (.perturbArm m (~~~h.value)) s = .next t ∧ t.flt.armed = false ∧ halfOf t m = none ∧
      (∀ e, e < 16 → (t.pert e).active = false)) ∧
  (∀ (m : Master) (a : Addr) (w : Word) (h : Half) (s : State), InTime s m h → guardedValue a.toNat = true →
    exec (.guardValueWrite m a w) s = .next (busDone (reject (paired s m) m a.toNat 4 2) m)) ∧
  (∀ (m : Master) (w : Word) (h : Half) (s : State), InTime s m h → h.addr = 0x116 → w ≠ ~~~h.value →
    exec (.keepWe m w) s = .next (busDone (reject (paired s m) m 0x116 2 1) m)) ∧
  (∀ (m : Master) (w : Word) (s : State), busAlive s = true → halfOf s m = none →
    exec (.keepWe m w) s = .next (busDone (reject (busTurn s m) m 0x117 3 1) m)) ∧
  (∀ (m : Master) (w : Word) (h : Half) (s : State), InTime s m h → h.addr ≠ 0x116 →
    exec (.keepWe m w) s = .next (busDone (reject (paired s m) m 0x117 3 2) m)) ∧
  (∀ (m : Master) (h : Half) (s : State), InTime s m h → h.addr = 0x116 → 8 ≤ h.value.toNat →
    exec (.keepWe m (~~~h.value)) s = .next (busDone (reject (paired s m) m 0x116 5 1) m)) ∧
  (∀ (m : Master) (h : Half) (s : State), halfOf s m = some h → h.time % 16 = 0 →
    exec (.guardWindowExpiry m) s = .next (reject (setHalf (s.reach (h.time + 1040)) m none) m h.addr 1 1)) ∧
  (∀ (m : Master) (s : State), halfOf s m = none → exec (.guardWindowExpiry m) s = .next s) ∧
  (∀ (m : Master) (a : Addr) (w : Word) (s : State), busAlive s = true → isAlias a.toNat = true →
    guarded ((a.toNat - 0x800000) / 16) = true → halfOf s m = none →
    exec (.aliasWrite m a w) s = .next (busDone (reject (busTurn s m) m a.toNat 6 1) m)) ∧
  (∀ (m : Master) (a reason : Nat) (s : State), ∃ t, reject s m a reason 1 = t ∧ t.bus.guardAddr = a ∧
    t.bus.guardReason = reason ∧ t.bus.guardShed = decide (m = Master.shed) ∧
    t.bus.guardCount = min 65535 (s.bus.guardCount + 1) ∧ t.bus.keepWe = s.bus.keepWe ∧ t.bus.fwCommit = s.bus.fwCommit ∧
    t = { s with bus := t.bus, flt := { s.flt with waiting := t.flt.waiting } } ∧
    t.flt.waiting.length = s.flt.waiting.length + 1)

/-- Plain register writes (R54, R57, R71, R72, R78, R79, R211, R382, R383, R508, R516): what each of the rows that write one
plain register does, and that identity registers take no write. -/
def Obligations.PlainRegisterWrites : Prop :=
  (∀ (m : Master) (w : Word) (s : State), busAlive s = true → halfOf s m = none → Prevails s m 0x101 →
    ∃ t, exec (.registerWritePlain m 0x101 w) s = .next t ∧
      t.bus.errnHold = (s.bus.errnHold && !(w &&& ~~~((busTurn s m).setNow 0x101)).getLsbD 0) ∧ t.bus.intNEn = w.getLsbD 1 ∧
      t.bus.errnTest = w.getLsbD 2 ∧
      BusNoted { busTurn s m with bus := { s.bus with errnHold := t.bus.errnHold, intNEn := t.bus.intNEn, errnTest := t.bus.errnTest } } t) ∧
  (∀ (m : Master) (w : Word) (s : State), busAlive s = true → halfOf s m = none → Prevails s m 0x102 →
    ∃ t, exec (.registerWritePlain m 0x102 w) s = .next t ∧
      t.clk.wdogPeriod = (if w.toNat < 10 then 10 else if 2000 < w.toNat then 2000 else w.toNat) ∧
      BusNoted { busTurn s m with clk := { (busTurn s m).clk with wdogPeriod := t.clk.wdogPeriod } } t) ∧
  (∀ (m : Master) (w : Word) (s : State), busAlive s = true → halfOf s m = none → Prevails s m 0x11E →
    ∃ t, exec (.registerWritePlain m 0x11E w) s = .next t ∧
      t.bus.guardCount = min 65535 (w.toNat + ((busTurn s m).beforeEvents 0x11E 0).2) ∧
      BusNoted { busTurn s m with bus := { s.bus with guardCount := t.bus.guardCount } } t) ∧
  (∀ (m : Master) (a : Addr) (w : Word) (s : State), busAlive s = true → halfOf s m = none → a.toNat < 0x100 →
    ∃ t, exec (.registerWritePlain m a w) s = .next t ∧ BusNoted (busTurn s m) t) ∧
  (∀ (m : Master) (w : Word) (s : State), busAlive s = true → halfOf s m = none → Prevails s m 0x101 →
    ∃ t, exec (.aliasWrite m 0x801012 w) s = .next t ∧ t.bus.errnTest = w.getLsbD 0 ∧
      BusNoted { busTurn s m with bus := { s.bus with errnTest := t.bus.errnTest } } t) ∧
  (∀ (m : Master) (n : Mbox) (w : Word) (s : State), busAlive s = true → halfOf s m = none → w.getLsbD 0 = true →
    (s.mbx n.val).state = .idle ∨ (s.mbx n.val).state = .done →
    exec (.doorbellWrite m n w) s = .next (busDone ((busTurn s m).modMbx n.val (fun x => { x with
      state := .posted, passed := 0, async := false, rOpcode := 0, rTag := 0, status := 0, detail := 0, rLength := 0 })) m)) ∧
  (∀ (m : Master) (n : Mbox) (w : Word) (s : State), busAlive s = true → halfOf s m = none → w.getLsbD 0 = true →
    (s.mbx n.val).state = .posted ∨ (s.mbx n.val).state = .executing ∨ (s.mbx n.val).state = .offline →
    ∃ t, exec (.doorbellWrite m n w) s = .next t ∧
      t.mbx n.val = { s.mbx n.val with refused := true, refusedCount := min 65535 ((s.mbx n.val).refusedCount + 1) } ∧
      (∀ k, k ≠ n.val → t.mbx k = s.mbx k) ∧ BusNoted { busTurn s m with mb := t.mb } t) ∧
  (∀ (m : Master) (n : Mbox) (w : Word) (s : State), busAlive s = true → halfOf s m = none → w.getLsbD 0 = false →
    exec (.doorbellWrite m n w) s = .next (busDone (busTurn s m) m)) ∧
  (∀ (m : Master) (n : Mbox) (w : Word) (s : State), busAlive s = true → halfOf s m = none → w.getLsbD 0 = true →
    (s.mbx n.val).state = .done →
    exec (.mailboxAck m n w) s = .next (busDone ((busTurn s m).modMbx n.val (fun x => { x with state := .idle })) m)) ∧
  (∀ (m : Master) (n : Mbox) (w : Word) (s : State), busAlive s = true → halfOf s m = none → w.getLsbD 0 = false ∨ (s.mbx n.val).state ≠ .done →
    exec (.mailboxAck m n w) s = .next (busDone (busTurn s m) m)) ∧
  (∀ (m : Master) (k : Block) (w : Word) (s : State), busAlive s = true → halfOf s m = none → w.getLsbD 0 = true →
    (∀ e ∈ (busTurn s m).recent.faults, e.1.block ≠ k.val) →
    ∃ t, exec (.faultAck m k w) s = .next t ∧ t.fblk k.val = { s.fblk k.val with ffValid := false } ∧
      (∀ j, j ≠ k.val → t.fblk j = s.fblk j) ∧ BusNoted { busTurn s m with flt := { s.flt with block := t.flt.block } } t) ∧
  (∀ (m : Master) (k : Block) (w : Word) (s : State), busAlive s = true → halfOf s m = none → w.getLsbD 0 = false →
    exec (.faultAck m k w) s = .next (busDone (busTurn s m) m)) ∧
  (∀ (m : Master) (w : Word) (s : State) (r fl lo : Word) (t0 t1 t2 : Nat), busAlive s = true → halfOf s m = none →
    (s.ringPort m).post0 = some (r, t0) → (s.ringPort m).post1 = some (fl, t1) → (s.ringPort m).post2 = some (lo, t2) →
    f3 (busTurn s m).clk.time ≤ f3 t0 + 48 → f3 (busTurn s m).clk.time ≤ f3 t1 + 48 → f3 (busTurn s m).clk.time ≤ f3 t2 + 48 →
    exec (.releasePost m w) s =
      .next (busDone (releaseRing (busTurn s m) r.toNat (lo.toNat + 65536 * w.toNat) (fl.getLsbD 0)).1 m)) ∧
  (∀ (m : Master) (w : Word) (s : State), busAlive s = true → halfOf s m = none → (s.ringPort m).post0 = none →
    exec (.releasePost m w) s = .next (busDone ((busTurn s m).raise 0x15 4 0 1) m)) ∧
  (∀ (m : Master) (s : State), busAlive s = true →
    ∃ t, exec (.ringSnapshotRead m) s = .next t ∧ (t.ringPort m).snap = snapWords s (s.ringPort m).sel ∧
      t.bus.lastRead = w16 (wAt (snapWords s (s.ringPort m).sel) 0) ∧ t.harv.ring = s.harv.ring ∧
      t = { busTurn s m with bus := { s.bus with lastRead := t.bus.lastRead, lastHost := t.bus.lastHost, lastShed := t.bus.lastShed }
                             harv := t.harv }) ∧
  (∀ (m : Master) (n : Nat) (w : Word) (s : State), busAlive s = true → halfOf s m = none → n < 8 → w.toNat = 2 ^ n →
    ∃ t, exec (.trigForce m w) s = .next t ∧
      (t.trig n).pulses = addPulse (f3 (busTurn s m).clk.time + 96) (f3 (busTurn s m).clk.time + 96 + 16 * (s.trig n).width) (s.trig n).pulses ∧
      (∀ k, k ≠ n → t.trig k = s.trig k) ∧ BusNoted { busTurn s m with pat := { s.pat with trig := t.pat.trig } } t)

/-- R81 and R88 (spec/04). FIRMWARE_PICK takes the lowest posted mailbox, or one passed over eight times; the command half
is copied and the mailbox EXECUTING, or, where a check fails, the response already there; every other posted mailbox is
passed over once more. With no posted mailbox the firmware acknowledges its
traps, each with an entry of the event log, and services the watchdog (log entry 166); while a command is in EXECUTING nothing
happens. -/
def Obligations.PickOrder : Prop :=
  (∀ (s : State) (n : Nat), nextBox s = some n →
    n ∈ postedBoxes s ∧ (s.mbx n).state = .posted ∧
    ((∀ k ∈ postedBoxes s, (s.mbx k).passed < 8) → ∀ k ∈ postedBoxes s, n ≤ k) ∧
    ((∃ k ∈ postedBoxes s, 8 ≤ (s.mbx k).passed) → 8 ≤ (s.mbx n).passed)) ∧
  (∀ (s : State) (n : Nat), firmwareFree s = true → s.fw.traps = [] → nextBox s = some n → s.fw.rev ≠ 2 →
    firstBad (pickChecks s (copyBox s (Fin.ofNat 8 n)) (s.mbx n)) = none →
    ∃ t, exec .firmwarePick s = .next t ∧ (t.mbx n).state = .executing ∧
      (∀ k, k < 8 → k ≠ n → (s.mbx k).state = .posted → s.clk.phase = .ready →
        t.mbx k = { s.mbx k with passed := min 8 ((s.mbx k).passed + 1) }) ∧
      (∃ c, t.fw.current = some c ∧ c.mb.val = n % 8 ∧ c.opcode = (s.mbx n).opcode ∧ c.tag = (s.mbx n).tag ∧
        c.flags = (s.mbx n).flags ∧ c.ring = (s.mbx n).ring ∧ c.wait = .nothing ∧ c.pick = s.clk.time) ∧
      t.clk = { s.clk with wdogRunning := s.clk.wdogPeriod, wdogServed := s.clk.time } ∧
      t = { s with clk := t.clk, mb := t.mb, fw := { s.fw with current := t.fw.current } }) ∧
  (∀ (s : State) (n : Nat), firmwareFree s = true → s.fw.traps = [] → nextBox s = some n → n < 8 → s.fw.rev = 0 →
    s.clk.phase = .ready → (s.mbx n).opcode.toNat = 2 →
    ∃ t, exec .firmwarePick s = .next t ∧ t.fw.current = none ∧ (t.mbx n).status = 0x0013 ∧ (t.mbx n).detail = 0 ∧
      t = { s with clk := t.clk, mb := t.mb, fw := { s.fw with current := none }, link := t.link }) ∧
  (∀ s : State, s.fw.current ≠ none → exec .firmwarePick s = .next s) ∧
  (∀ s : State, firmwareFree s = false → exec .firmwarePick s = .next s) ∧
  (∀ s : State, firmwareFree s = true → postedBoxes s = [] → s.fw.logNext < 2 ^ 32 →
    ∃ t, exec .firmwarePick s = .next t ∧ t.fw.traps = [] ∧ t.fw.logNext = (s.fw.logNext + s.fw.traps.length) % 2 ^ 32 ∧
      t.clk = { s.clk with wdogRunning := s.clk.wdogPeriod, wdogServed := s.clk.time } ∧
      t = { s with free := t.free, clk := t.clk, fw := { s.fw with traps := [], log := t.fw.log, logNext := t.fw.logNext } })

/-- R1: a command under command-set revision 2 (other than HELLO and GET_INFO) is outside the manual; FIRMWARE_PICK of one is
refused by name, and that is the one refusal of the model. -/
def Obligations.RevisionTwoRefused : Prop :=
  (∀ (s : State) (n : Nat), firmwareFree s = true → s.fw.traps = [] → nextBox s = some n → s.fw.rev = 2 →
    2 ≤ (s.mbx n).opcode.toNat → exec .firmwarePick s = .refused (.revisionOutsideManual 2)) ∧
  (∀ (i : Instr) (s : State) (r : Refusal), exec i s = .refused r → i = .firmwarePick ∧ s.fw.rev = 2 ∧ r = .revisionOutsideManual 2) ∧
  (∀ (i : Instr) (s : State) (f : Fault), exec i s ≠ .fault f)

/-- HELLO, GET_INFO, GET_STATUS, QUERY_PROGRESS and LOG_READ (R90 to R93, R96, R97, R100, R103): the response, and nothing
else changed but the revision that HELLO puts in force. -/
def Obligations.SystemQueries : Prop :=
  (∀ (s : State) (c : Current), Picked s 0x0000 c → par c 0 ≤ 3 → 3 ≤ par c 1 →
    ∃ t, exec .hello s = .next t ∧
      Answered c 0 0 [3, s.bus.fwRelease, 3, 8, 120, 0x0FFF] { s with fw := { s.fw with rev := 3 } } t) ∧
  (∀ (s : State) (c : Current), Picked s 0x0000 c → par c 0 ≤ 2 → par c 1 = 2 → s.clk.phase ≠ .recovery →
    ∃ t, exec .hello s = .next t ∧
      Answered c 0 0 [2, s.bus.fwRelease, 3, 8, 120, 0x0FFF] { s with fw := { s.fw with rev := 2 } } t) ∧
  (∀ (s : State) (c : Current), Picked s 0x0000 c → par c 0 ≤ par c 1 → (3 < par c 0 ∨ par c 1 < 2) →
    ∃ t, exec .hello s = .next t ∧ Answered c 0x12 0x8001 [] s t) ∧
  (∀ (s : State) (c : Current), Picked s 0x0000 c → par c 1 < par c 0 →
    ∃ t, exec .hello s = .next t ∧ Answered c 0x12 1 [] s t) ∧
  (∀ (s : State) (c : Current), Picked s 0x0001 c → s.clk.phase ≠ .recovery →
    ∃ t, exec .getInfo s = .next t ∧
      Answered c 0 0 ([s.bus.fwRelease, w16 s.fw.rev, 3, w16 (b2n s.clk.imageSlot), w16 (secVersion s s.clk.imageSlot),
        w16 s.fw.rollback] ++ toWords 2 (slotGeneration s s.clk.imageSlot) ++ [w16 (b2n (slotTrial s s.clk.imageSlot)), 0] ++
        toWords 4 s.bus.uniqueId.toNat) s t) ∧
  (∀ (s : State) (c : Current), Picked s 0x0001 c → s.clk.phase = .recovery →
    ∃ t, exec .getInfo s = .next t ∧
      Answered c 0 0 ([s.bus.fwRelease, w16 s.fw.rev, 3, 0xFFFF, 0, w16 s.fw.rollback, 0, 0, 0, 1] ++
        toWords 4 s.bus.uniqueId.toNat) s t) ∧
  (∀ (s : State) (c : Current), Picked s 0x0002 c →
    ∃ t words, exec .getStatus s = .next t ∧ Answered c 0 0 words s t ∧ words.length = 15 ∧
      (wAt words 0).testBit 0 = s.sup.shutdown ∧ (wAt words 0).testBit 2 = s.link.syncValid ∧
      (wAt words 0).testBit 3 = s.clk.holdover ∧ (wAt words 0).testBit 4 = s.flt.armed ∧
      (wAt words 0).testBit 5 = s.cal.seedFallback ∧
      wAt words 1 = maskOf ((List.range 16).filter (bedHeld s)) % 65536 ∧
      wAt words 12 = ((tents s.fw.progress).filter (fun e => decide (e.2.state = .running))).length % 65536) ∧
  (∀ (s : State) (c : Current), Picked s 0x0003 c → (s.prog (par c 0)).state ≠ .none →
    ∃ t, exec .queryProgress s = .next t ∧ Answered c 0 0 (progressWords s (par c 0)) s t) ∧
  (∀ (s : State) (c : Current), Picked s 0x0003 c → (s.prog (par c 0)).state = .none →
    ∃ t, exec .queryProgress s = .next t ∧ Answered c 0x12 0 [] s t) ∧
  (∀ (s : State) (c : Current), Picked s 0x000C c → par c 0 = 0 →
    ∃ t, exec .logRead s = .next t ∧
      Answered c 0 0 (logPart (par32 c 1) (par c 3) (s.fw.logNext - s.fw.log.length) 8 (s.fw.log.map logWords)) s t) ∧
  (∀ (s : State) (c : Current), Picked s 0x000C c → 3 ≤ par c 0 →
    ∃ t, exec .logRead s = .next t ∧ Answered c 0x12 0 [] s t) ∧
  (∀ (first count oldest per : Nat) (l : List (List Word)), 0 < per → (∀ e ∈ l, e.length = per) →
    (logPart first count oldest per l).length ≤ 120)

/-- ABORT, CLOCHE, RELEASE_CLOCHE and RESET_BLOCK (R94, R98, R99): their checks, their waits and their answers. ABORT stops
what works for the tag, a burst by a stop latched with cause 1, and answers once nothing does. CLOCHE puts the beds named, or
all with the chip and the chain, in cloche, never live. RELEASE_CLOCHE clears what is no longer live in its scope and names
the beds that a live cause still holds. RESET_BLOCK resets its block, and answers before (SHED, the root-side port), at once
(the tip-side port) or at the reset's end. -/
def Obligations.SystemActions : Prop :=
  (∀ (s : State) (c : Current), Picked s 0x0004 c → (s.prog (par c 0)).state = .none →
    ∃ t, exec .abort s = .next t ∧ Answered c 0x12 0 [] s t) ∧
  (∀ (s : State) (c : Current), Picked s 0x0004 c → ((s.prog (par c 0)).state = .done ∨ (s.prog (par c 0)).state = .part) →
    ∃ t, exec .abort s = .next t ∧ Answered c 0x13 1 [] s t) ∧
  (∀ (s : State) (c : Current), Picked s 0x0004 c → (s.prog (par c 0)).state = .running →
    tagWorks (waitFor (stopTagged s (par c 0)) (.abort (par c 0))) (par c 0) = true →
    exec .abort s = .next (waitFor (stopTagged s (par c 0)) (.abort (par c 0)))) ∧
  (∀ (s : State) (c : Current), Picked s 0x0004 c → (s.prog (par c 0)).state = .running →
    tagWorks (waitFor (stopTagged s (par c 0)) (.abort (par c 0))) (par c 0) = false →
    exec .abort s = .next (answerAbort (waitFor (stopTagged s (par c 0)) (.abort (par c 0))) (par c 0))) ∧
  (∀ (s : State) (c : Current) (q : Nat), Picked s 0x0004 c → (s.prog (par c 0)).state = .running → taggedSeqs s (par c 0) = [q] →
    taggedLoops s (par c 0) = [] → taggedMeas s (par c 0) = [] → taggedLocks s (par c 0) = [] → taggedUnits s (par c 0) = [] →
    s.cal.run = none → s.cal.commit = none → s.pat.loads = [] → s.lp.waveLoads = [] → s.fw.session = none →
    (s.seq q).mode = .exec → (s.seq q).tag = par c 0 → (s.seq q).stop = none →
    ∃ t, exec .abort s = .next t ∧ (t.seq q).stop = some { cause := 1, atBoundary := false } ∧
      t.fw.current = some { c with wait := .abort (par c 0), reply := [] } ∧ (∀ k, k ≠ q → t.seq k = s.seq k) ∧
      t = { s with fw := { s.fw with current := t.fw.current }, pat := { s.pat with seq := t.pat.seq } }) ∧
  (∀ (s : State) (c : Current), Picked s 0x0004 c → (s.prog (par c 0)).state = .running → taggedSeqs s (par c 0) = [] →
    taggedLoops s (par c 0) = [] → taggedMeas s (par c 0) = [] → taggedLocks s (par c 0) = [] → taggedUnits s (par c 0) = [] →
    s.cal.run = none → s.cal.commit = none → s.pat.loads = [] → s.lp.waveLoads = [] → s.fw.session = none →
    ∃ t, exec .abort s = .next t ∧ Answered c 0 0 [] s t) ∧
  (∀ (s : State) (c : Current), Picked s 0x0005 c → par c 1 = 0 →
    ∃ t, exec .cloche s = .next t ∧ t.fw.current = none ∧
      (∀ b, b < 16 → (par c 0).testBit b = true → (t.bedc b).active = true ∧ Cause.dead ∈ (t.bedc b).causes) ∧
      (∀ b, (par c 0).testBit b = false → (t.bedc b).active = (s.bedc b).active ∧ (t.bedc b).causes = (s.bedc b).causes) ∧
      t.flt.chip = s.flt.chip ∧ t.flt.chain = s.flt.chain ∧ t.clk = s.clk ∧ t.bus = s.bus ∧ t.sup = s.sup ∧ t.cal = s.cal ∧
      t.pat.dram = s.pat.dram ∧ t.ser.flash = s.ser.flash) ∧
  (∀ (s : State) (c : Current), Picked s 0x0005 c → par c 0 = 0 → par c 1 = 1 ∨ par c 1 = 3 →
    ∃ t, exec .cloche s = .next t ∧ (∀ b, b < 16 → (t.bedc b).active = true) ∧ Cause.dead ∈ t.flt.chip ∧
      (par c 1 = 1 → t.flt.chain = s.flt.chain) ∧ (par c 1 = 3 → Cause.dead ∈ t.flt.chain) ∧ t.fw.current = none ∧
      t.clk = s.clk ∧ t.bus = s.bus ∧ t.sup = s.sup ∧ t.cal = s.cal ∧ t.pat.dram = s.pat.dram ∧ t.ser.flash = s.ser.flash) ∧
  (∀ (s : State) (c : Current), Picked s 0x0005 c → (par c 1).testBit 0 = true → par c 0 ≠ 0 →
    ∃ t, exec .cloche s = .next t ∧ Answered c 0x12 0 [] s t) ∧
  (∀ (s : State) (c : Current), Picked s 0x0005 c → par c 1 = 2 ∨ 4 ≤ par c 1 → par c 0 = 0 →
    ∃ t, exec .cloche s = .next t ∧ Answered c 0x12 1 [] s t) ∧
  (∀ (s : State) (c : Current) (beds : List Nat), Picked s 0x0006 c →
    (par c 1 = 0 ∧ beds = bedMask (par c 0)) ∨ ((par c 1 = 1 ∨ par c 1 = 3) ∧ par c 0 = 0 ∧ beds = List.range 16) →
    ∃ u t, u = releaseCauses s beds (decide (par c 1 ≠ 0)) (decide (par c 1 = 3)) ∧ exec .releaseCloche s = .next t ∧
      ((beds.filter (fun b => bedHeld u b && bedCauseLive u b) = [] → Answered c 0 0 [0] u t) ∧
       (beds.filter (fun b => bedHeld u b && bedCauseLive u b) ≠ [] →
        Answered c 2 ((beds.filter (bedHeld s)).filter (fun b => !bedHeld u b)).length
          [w16 (maskOf (beds.filter (fun b => bedHeld u b && bedCauseLive u b)))] u t)) ∧
      u = { s with pins := u.pins, edge := u.edge, lp := u.lp, flt := u.flt }) ∧
  (∀ (s : State) (c : Current) (b : Nat), Picked s 0x0006 c → par c 1 = 0 → b < 16 → (par c 0).testBit b = true →
    s.flt.chip = [] → s.flt.chain = [] → (∀ x ∈ (s.bedc b).causes, causeLive s x = false) →
    ∃ t, exec .releaseCloche s = .next t ∧ (t.bedc b).active = false ∧ (t.bedc b).causes = []) ∧
  (∀ (s : State) (c : Current) (b : Nat) (x : Cause), Picked s 0x0006 c → par c 1 = 0 → b < 16 → (par c 0).testBit b = true →
    x ∈ (s.bedc b).causes → causeLive s x = true →
    ∃ t, exec .releaseCloche s = .next t ∧ (t.bedc b).active = (s.bedc b).active ∧ x ∈ (t.bedc b).causes) ∧
  (∀ (s : State) (c : Current), Picked s 0x0008 c → 28 ≤ par c 0 →
    ∃ t, exec .resetBlock s = .next t ∧ Answered c 0x12 0 [] s t) ∧
  (∀ (s : State) (c : Current), Picked s 0x0008 c → par c 0 = 0x12 ∨ par c 0 = 0x16 →
    exec .resetBlock s = .next (blockReset (postOk s) (par c 0) {})) ∧
  (∀ (s : State) (c : Current), Picked s 0x0008 c → par c 0 = 0x17 →
    exec .resetBlock s = .next (postOk (blockReset s 0x17 {}))) ∧
  (∀ (s : State) (c : Current), Picked s 0x0008 c → par c 0 < 28 → par c 0 ≠ 0x12 → par c 0 ≠ 0x16 → par c 0 ≠ 0x17 →
    s.clk.restarting = false → deeper s = false → s.blkReset (par c 0) = false →
    ∃ t, exec .resetBlock s = .next t ∧ t.blkReset (par c 0) = true ∧ t.flt.armed = false ∧
      t.bus.halfHost = none ∧ t.bus.halfShed = none ∧ (par c 0 < 16 → (t.bedc (par c 0)).active = true) ∧
      t.fw.current = some { c with wait := .blockReset (Fin.ofNat 28 (par c 0)), reply := [] } ∧ t.pat.dram = s.pat.dram ∧
      t.ser.flash = s.ser.flash ∧ t.cal.keep = s.cal.keep)

/-- SET_POWER_STATE and MB_DELAY_END (R42 to R45, R530). Named beds reach the state asked for; a bed that leaves STANDBY
keeps the command waiting for its exit; DEEP is answered first and due 1 ms later; a bed that works is BAD_STATE, with a
DETAIL that the spec does not give (a free value of the model, log entry 1), and flags that the state does not allow are
BAD_PARAM. -/
def Obligations.PowerStateCommands : Prop :=
  (∀ (s : State) (c : Current), Picked s 0x0007 c → par c 0 = 0 → par c 2 = 0 →
    (∀ b, b < 16 → (par c 1).testBit b = true → bedWorks s b = false) →
    ∃ t, exec .setPowerActive s = .next t ∧ t.clk.stemIdle = false ∧ t.clk.dramSleep = false ∧
      (∀ b, b < 16 → (par c 1).testBit b = true → t.bedPow b = .active) ∧
      (∀ b, (16 ≤ b ∨ (par c 1).testBit b = false) → t.bedPow b = s.bedPow b ∧ t.stbyExit b = s.stbyExit b) ∧
      ((∃ b, b < 16 ∧ (par c 1).testBit b = true ∧ (s.bedPow b = .standby ∨ s.stbyExit b = true)) →
        t.fw.current = some { c with wait := .standbyExit, reply := [] }) ∧
      ((∀ b, b < 16 → (par c 1).testBit b = true → s.bedPow b ≠ .standby ∧ s.stbyExit b = false) → t.fw.current = none) ∧
      t = { s with free := s.free + 1, clk := t.clk, mb := t.mb, fw := { s.fw with current := t.fw.current }, pins := t.pins, edge := t.edge,
                   pat := { s.pat with fetch := t.pat.fetch, turn := t.pat.turn, fetchReady := t.pat.fetchReady }, link := t.link }) ∧
  (∀ (s : State) (c : Current), Picked s 0x0007 c → par c 0 = 0 → par c 2 ≠ 0 →
    ∃ t, exec .setPowerActive s = .next t ∧ Answered c 0x12 2 [] s.takeFree t) ∧
  (∀ (s : State) (c : Current) (b : Nat), Picked s 0x0007 c → par c 0 = 0 → par c 2 = 0 → b < 16 →
    (par c 1).testBit b = true → bedWorks s b = true →
    ∃ t, exec .setPowerActive s = .next t ∧ Answered c 0x13 (s.freeNat % 65536) [] s.takeFree t) ∧
  (∀ (s : State) (c : Current), Picked s 0x0007 c → par c 0 = 1 → par c 2 < 2 →
    (∀ b, b < 16 → (par c 1).testBit b = true → bedWorks s b = false) → (par c 2 = 1 → stemWorks s = false) →
    ∃ t, exec .setPowerIdle s = .next t ∧ t.clk.stemIdle = decide (par c 2 = 1) ∧ t.clk.dramSleep = decide (par c 2 = 1) ∧
      (∀ b, b < 16 → (par c 1).testBit b = true → t.bedPow b = .idle) ∧
      (∀ b, (16 ≤ b ∨ (par c 1).testBit b = false) → t.bedPow b = s.bedPow b) ∧ t.fw.current = none ∧
      t = { s with free := s.free + 1, clk := t.clk, mb := t.mb, fw := { s.fw with current := none }, edge := t.edge, link := t.link, sup := t.sup }) ∧
  (∀ (s : State) (c : Current), Picked s 0x0007 c → par c 0 = 2 → par c 2 = 0 →
    (∀ b, b < 16 → (par c 1).testBit b = true → bedWorks s b = false) →
    ∃ t, exec .setPowerStandby s = .next t ∧ (∀ b, b < 16 → (par c 1).testBit b = true → t.bedPow b = .standby) ∧
      (∀ b, (16 ≤ b ∨ (par c 1).testBit b = false) → t.bedPow b = s.bedPow b) ∧
      (∀ b, b < 16 → (par c 1).testBit b = true → t.stbyExit b = false) ∧ t.fw.current = none ∧
      t = { s with free := s.free + 1, clk := t.clk, mb := t.mb, fw := { s.fw with current := none }, pins := t.pins, edge := t.edge,
                   link := t.link, sup := t.sup }) ∧
  (∀ (s : State) (c : Current), Picked s 0x0007 c → par c 0 = 3 → par c 2 &&& 14 = par c 2 →
    ∃ t, exec .setPowerDeep s = .next t ∧
      Answered c 0 0 [] { s with clk := { s.clk with wakeTin0 := (par c 2).testBit 1, wakeLane := (par c 2).testBit 2, tin0Falling := (par c 2).testBit 3, deepDue := some (s.clk.time + 3200000) } } t) ∧
  (∀ (n : Mbox) (s : State) (d : Nat), (s.mbx n.val).delayEnd = some d →
    ∃ t, exec (.mbDelayEnd n) s = .next t ∧ (t.mbx n.val).state = .done ∧ (t.mbx n.val).delayEnd = none ∧
      t.clk.time = max s.clk.time d ∧ (∀ k, k ≠ n.val → t.mbx k = s.mbx k) ∧
      t = { s with clk := t.clk, mb := t.mb, link := t.link }) ∧
  (∀ (n : Mbox) (s : State), (s.mbx n.val).delayEnd = none → exec (.mbDelayEnd n) s = .next s)

/-- Firmware update (R103, R107, R109 to R111, R436). BEGIN starts a session and the erasure of its slot; DATA programs the
next bytes of an erased slot, and answers the bytes received to any other offset; COMMIT of an image that passes its checks
writes its record while armed for the slot, and is GUARD otherwise; CONFIRM confirms a slot in TRIAL; a flash operation
changes its bytes alone and only clears bits. -/
def Obligations.FirmwareUpdate : Prop :=
  (∀ (s : State) (c : Current), Picked s 0x0009 c → s.clk.phase ≠ .recovery → par c 0 < 2 → par32 c 1 % 256 = 0 →
    0x1100 ≤ par32 c 1 → par32 c 1 ≤ 0x7FF000 → (s.prog c.tag.toNat).state ≠ .running → s.fw.session = none →
    s.clk.imageSlot = decide (par c 0 ≠ 1) → slotTrial s s.clk.imageSlot = false →
    ∃ u t x, exec .fwUpdateBegin s = .next t ∧ x = ({ slotB := decide (par c 0 = 1), imageBytes := par32 c 1, received := 0, erased := false, tag := c.tag.toNat } : Session) ∧
      Answered c 1 0 [] (beginWork { s.takeFree with fw := { s.fw with session := some x } } c.tag.toNat c.opcode.toNat
        c.ring.toNat 0 false) u ∧
      t = { u with ser := { u.ser with flashOps := s.ser.flashOps ++ slotSectors x.slotB } }) ∧
  (∀ (s : State) (c : Current), Picked s 0x0009 c → par c 0 < 2 → (par32 c 1 % 256 ≠ 0 ∨ par32 c 1 < 0x1100 ∨ 0x7FF000 < par32 c 1) →
    ∃ t, exec .fwUpdateBegin s = .next t ∧ Answered c 0x12 1 [] s.takeFree t) ∧
  (∀ (s : State) (x : Session), s.fw.session = some x → x.erased = false →
    ∃ t, exec .fwEraseDone s = .next t ∧ t.fw.session = some { x with erased := true } ∧ t.ser.flashOps = [] ∧
      (s.ser.flashOps = slotSectors x.slotB →
        (∀ k, k < 0x800000 → t.flashByte (flashSlot x.slotB + k) = 0xFF) ∧
        (∀ k, k < flashSlot x.slotB ∨ flashSlot x.slotB + 0x800000 ≤ k → t.flashByte k = s.flashByte k)) ∧
      t = { s with mb := t.mb, fw := t.fw, harv := t.harv, link := t.link, ser := t.ser, flt := t.flt }) ∧
  (∀ s : State, s.fw.session = none ∨ (∃ x, s.fw.session = some x ∧ x.erased = true) → exec .fwEraseDone s = .next s) ∧
  (∀ (s : State) (c : Current) (x : Session), Picked s 0x000A c → s.fw.session = some x → par32 c 0 ≠ x.received →
    ∃ t, exec .fwUpdateData s = .next t ∧ Answered c 0x12 0 (toWords 2 x.received) s t) ∧
  (∀ (s : State) (c : Current) (x : Session), Picked s 0x000A c → s.fw.session = some x → par32 c 0 = x.received →
    2 ≤ par c 2 → par c 2 ≤ 224 → par c 2 % 2 = 0 → x.received + par c 2 ≤ x.imageBytes → x.erased = true →
    ∃ t, exec .fwUpdateData s = .next t ∧ t.fw.current = some { c with wait := .flashOp, reply := [] } ∧
      t.ser.flashOps = s.ser.flashOps ++ flashPages (flashSlot x.slotB + x.received)
        ((wordsToBytes (c.params.drop 3)).take (par c 2)) ∧
      t = { s with free := s.free + 1, fw := { s.fw with current := t.fw.current }, ser := { s.ser with flashOps := t.ser.flashOps } }) ∧
  (∀ (s : State) (c : Current), Picked s 0x000B c → par c 0 = 0 → par c 1 < 2 → commitReason s = none →
    s.bus.fwCommit.toNat = 1 + (if writtenSlot s then 2 else 0) →
    ∃ t, exec .fwUpdateCommit s = .next t ∧ t.fw.current = some { c with wait := .flashOp, reply := [] } ∧
      t.ser.flashOps = s.ser.flashOps ++ [.program (commitAt (writtenSlot s)) (toBytes 4 (commitGeneration s (writtenSlot s))),
        .program (commitAt (writtenSlot s) + 6) (toBytes 2 0xAAAA)] ∧
      t = { s with fw := { s.fw with current := t.fw.current }, ser := { s.ser with flashOps := t.ser.flashOps } }) ∧
  (∀ (s : State) (c : Current), Picked s 0x000B c → par c 0 = 0 → par c 1 < 2 → commitReason s = none →
    s.bus.fwCommit.toNat ≠ 1 + (if writtenSlot s then 2 else 0) →
    ∃ t, exec .fwUpdateCommit s = .next t ∧
      Answered c 0x15 0x011A [] { s with bus := { s.bus with fwCommit := s.bus.fwCommit &&& 2 } } t) ∧
  (∀ (s : State) (c : Current), Picked s 0x000B c → par c 0 = 1 → par c 1 = 0 → s.clk.phase ≠ .recovery →
    s.bus.fwCommit.toNat = 1 + (if s.clk.imageSlot then 2 else 0) → slotTrial s s.clk.imageSlot = true →
    ∃ t, exec .fwUpdateConfirm s = .next t ∧ t.fw.current = some { c with wait := .flashOp, reply := [] } ∧
      t.ser.flashOps = s.ser.flashOps ++ [.program (commitAt s.clk.imageSlot + 6) (toBytes 2 0)] ∧
      t = { s with fw := { s.fw with current := t.fw.current }, ser := { s.ser with flashOps := t.ser.flashOps } }) ∧
  (∀ (s : State) (c : Current), Picked s 0x000B c → par c 0 = 1 → par c 1 = 0 → s.clk.phase = .recovery →
    ∃ t, exec .fwUpdateConfirm s = .next t ∧
      Answered c 0x13 2 [] { s with bus := { s.bus with fwCommit := s.bus.fwCommit &&& 2 } } t) ∧
  (∀ (s : State) (a : Nat) (l : List Byte) (r : List FlashOp), s.ser.flashOps = .program a l :: r → r ≠ [] →
    ∃ t, exec .flashOpDone s = .next t ∧ t.ser.flashOps = r ∧
      (∀ k, (k < a ∨ a + l.length ≤ k) → t.flashByte k = s.flashByte k) ∧
      (∀ i, i < l.length → t.flashByte (a + i) = s.flashByte (a + i) &&& l.getD i 0) ∧
      t = { s with ser := { s.ser with flash := t.ser.flash, flashOps := r } }) ∧
  (∀ (s : State) (c : Current) (x : Session) (op : FlashOp), s.ser.flashOps = [op] → s.ser.xipWait = none → s.fw.session = some x →
    s.fw.current = some c → c.wait = .flashOp → c.opcode = 0x000A →
    ∃ t, exec .flashOpDone s = .next t ∧ t.fw.session = some { x with received := x.received + par c 2 } ∧
      t.fw.current = none ∧ t.ser.flashOps = [] ∧ (t.mbx c.mb.val).status = 0) ∧
  (∀ (s u : State) (c : Current) (x : Session) (op : FlashOp), s.ser.flashOps = [op] → s.ser.xipWait = none → s.fw.session = some x →
    s.fw.current = some c → c.wait = .flashOp → c.opcode = 0x000B → par c 0 = 0 →
    u = flashEffect { s with ser := { s.ser with flashOps := [] } } op → slotTrial u x.slotB = true →
    slotGeneration u x.slotB = commitGeneration u x.slotB →
    ∃ t, exec .flashOpDone s = .next t ∧ t.fw.session = none ∧ t.bus.fwCommit = s.bus.fwCommit &&& 2 ∧ t.fw.current = none ∧
      (t.mbx c.mb.val).status = 0 ∧ t.ser = u.ser ∧
      t.clk = (if par c 1 = 1 then { s.clk with activationDue := some (s.clk.time + 3200000) } else s.clk)) ∧
  (∀ (s u : State) (c : Current) (op : FlashOp), s.ser.flashOps = [op] → s.ser.xipWait = none →
    s.fw.current = some c → c.wait = .flashOp → c.opcode = 0x000B → par c 0 = 1 →
    u = flashEffect { s with ser := { s.ser with flashOps := [] } } op →
    ∃ t, exec .flashOpDone s = .next t ∧ t.fw.rollback = min 64 (max s.fw.rollback (secVersion u s.clk.imageSlot)) ∧
      t.bus.fwCommit = s.bus.fwCommit &&& 2 ∧ t.fw.current = none ∧ (t.mbx c.mb.val).status = 0 ∧ t.ser = u.ser) ∧
  (∀ (s : State) (op : FlashOp) (r : List FlashOp), s.ser.flashOps = op :: r →
    ∃ t, exec .flashTimeout s = .next t ∧ t.ser.flashOps = [] ∧
      ((∃ c, s.fw.current = some c ∧ c.wait = .flashOp) → t.fw.current = none) ∧
      (∀ c, s.fw.current = some c → c.wait = .flashOp → (t.mbx c.mb.val).status = 0x12 ∧ (t.mbx c.mb.val).detail = 0x8007) ∧
      t = { s with free := t.free, bus := t.bus, mb := t.mb, fw := t.fw, harv := t.harv, link := t.link, ser := t.ser, flt := t.flt } ∧
      ((∃ x, s.fw.session = some x ∧ x.erased = false) → t.fw.session = none))

/-- Level codes and their loads (R116, R117, R128 to R132, R145 to R148). SET_LEVELS in NOW loads the working codes of the
DACs it selects (in a bed in IDLE they wait as shadows), in GROUP and EPOCH it writes pending shadows; levels that R116
forbids are refused. A strobe, now or due, and an epoch that falls due load exactly the shadows they cover, one in a bed in
IDLE held. Nothing else changes. -/
def Obligations.LevelLoads : Prop :=
  (∀ (s : State) (c : Current) (targets : List (Nat × Nat)), Picked s 0x0101 c → 1 ≤ par c 1 → par c 0 + par c 1 ≤ 512 →
    0 < par c 2 → par c 2 < 128 → par c 3 = 0 → par c 4 = 0 → (∀ k, 5 ≤ k → k < 9 → par c k = 0) →
    (∀ j, j < 7 → (par c 2).testBit j = true → dacInRange (if j < 4 then j else 2048 + (j - 4)) (parF c (9 + 2 * j)) = true) →
    targets = levelTargets (pinRange c) (par c 2) →
    levelsLegal (par c 2) (pinRange c) (fun k => levelAfter s c (loadedBy (loadOf s c k)) k) = true →
    levelsLegal (par c 2) (pinRange c) (levelAfter s c (fun _ => true)) = true →
    ∃ u t first, exec .setLevels s = .next t ∧ Answered c 0 0 [w16 targets.length, w16 first] u t ∧
      u = { s with pins := { s.pins with dac := u.pins.dac } } ∧
      (∃ e, targets.head? = some e ∧ first = dacCode s e.1 (parF c e.2)) ∧
      (∀ e ∈ targets, s.bedPow (dacBed e.1) ≠ .idle → u.dacst e.1 = { s.dacst e.1 with
        work := dacCode s e.1 (parF c e.2), level := some (parF c e.2), shadow := none, shadowLevel := none,
        changed := (u.dacst e.1).changed }) ∧
      (∀ e ∈ targets, s.bedPow (dacBed e.1) = .idle → u.dacst e.1 = { s.dacst e.1 with
        shadow := some (dacCode s e.1 (parF c e.2), .held), shadowLevel := some (parF c e.2) }) ∧
      (∀ k, (∀ e ∈ targets, e.1 ≠ k) → u.dacst k = s.dacst k)) ∧
  (∀ (s : State) (c : Current) (targets : List (Nat × Nat)), Picked s 0x0101 c → 1 ≤ par c 1 → par c 0 + par c 1 ≤ 512 →
    0 < par c 2 → par c 2 < 128 → par c 3 = 1 → par c 4 < 8 → (∀ k, 5 ≤ k → k < 9 → par c k = 0) →
    (∀ j, j < 7 → (par c 2).testBit j = true → dacInRange (if j < 4 then j else 2048 + (j - 4)) (parF c (9 + 2 * j)) = true) →
    targets = levelTargets (pinRange c) (par c 2) →
    levelsLegal (par c 2) (pinRange c) (fun k => levelAfter s c (loadedBy (loadOf s c k)) k) = true →
    levelsLegal (par c 2) (pinRange c) (levelAfter s c (fun _ => true)) = true →
    (s.grp (par c 4)).mask ≠ 0 → (∀ e ∈ targets, (s.grp (par c 4)).mask.getLsbD (dacBed e.1) = true) →
    ∃ u t first, exec .setLevels s = .next t ∧ Answered c 0 0 [w16 targets.length, w16 first] u t ∧
      u = { s with pins := { s.pins with dac := u.pins.dac } } ∧
      (∃ e, targets.head? = some e ∧ first = dacCode s e.1 (parF c e.2)) ∧
      (∀ e ∈ targets, u.dacst e.1 = { s.dacst e.1 with
        shadow := some (dacCode s e.1 (parF c e.2), .group (par c 4)), shadowLevel := some (parF c e.2) }) ∧
      (∀ k, (∀ e ∈ targets, e.1 ≠ k) → u.dacst k = s.dacst k)) ∧
  (∀ (s : State) (c : Current) (targets : List (Nat × Nat)), Picked s 0x0101 c → 1 ≤ par c 1 → par c 0 + par c 1 ≤ 512 →
    0 < par c 2 → par c 2 < 128 → par c 3 = 2 → par c 4 = 0 → c.pick + 32000 ≤ par64 c 5 →
    (∀ j, j < 7 → (par c 2).testBit j = true → dacInRange (if j < 4 then j else 2048 + (j - 4)) (parF c (9 + 2 * j)) = true) →
    targets = levelTargets (pinRange c) (par c 2) →
    levelsLegal (par c 2) (pinRange c) (fun k => levelAfter s c (loadedBy (loadOf s c k)) k) = true →
    levelsLegal (par c 2) (pinRange c) (levelAfter s c (fun _ => true)) = true →
    (pendingTimes s (targets.map (fun e => e.1))).length < 16 →
    ∃ u t first due, exec .setLevels s = .next t ∧ Answered c 0 0 [w16 targets.length, w16 first] u t ∧
      u = { s with pins := { s.pins with dac := u.pins.dac } } ∧
      (∃ e, targets.head? = some e ∧ first = dacCode s e.1 (parF c e.2)) ∧
      par64 c 5 ≤ due ∧ due < par64 c 5 + 16 ∧ due % 16 = 0 ∧
      (∀ e ∈ targets, u.dacst e.1 = { s.dacst e.1 with
        shadow := some (dacCode s e.1 (parF c e.2), .epoch due), shadowLevel := some (parF c e.2) }) ∧
      (∀ k, (∀ e ∈ targets, e.1 ≠ k) → u.dacst k = s.dacst k)) ∧
  (∀ (s : State) (c : Current), Picked s 0x0101 c → 1 ≤ par c 1 → par c 0 + par c 1 ≤ 512 →
    0 < par c 2 → par c 2 < 128 → par c 3 = 0 → par c 4 = 0 → (∀ k, 5 ≤ k → k < 9 → par c k = 0) →
    (∀ j, j < 7 → (par c 2).testBit j = true → dacInRange (if j < 4 then j else 2048 + (j - 4)) (parF c (9 + 2 * j)) = true) →
    par c 2 % 16 = 12 →
    ((f32 (parF c 13)).lt (f32 (parF c 15)) = true) →
    ∃ t, exec .setLevels s = .next t ∧ Answered c 0x12 0x8001 [] s t) ∧
  (∀ (s : State) (c : Current), Picked s 0x0102 c → par c 0 = 0 → par c 1 < 8 → (∀ k, 3 ≤ k → k < 7 → par c k = 0) →
    (∀ e ∈ s.pins.dac, ∀ v, e.2.shadow = some (v, .group (par c 1)) → (par c 2).testBit (dacBed e.1) = true) →
    ∃ t, exec .loadGroupDefine s = .next t ∧
      Answered c 0 0 [] (s.modGrp (par c 1) (fun x => { x with mask := w16 (par c 2) })) t) ∧
  (∀ (s : State) (c : Current), Picked s 0x0102 c → par c 0 = 1 → par c 1 < 8 → (∀ k, 2 ≤ k → k < 7 → par c k = 0) →
    ∃ t, exec .loadGroupStrobeNow s = .next t ∧ Answered c 0 0 [] (strobeGroup s (par c 1)) t) ∧
  (∀ (s : State) (c : Current), Picked s 0x0102 c → par c 0 = 2 → par c 1 < 8 → par c 2 = 0 → c.pick + 32000 ≤ par64 c 3 →
    (pendingTimes (s.modGrp (par c 1) (fun x => { x with strobe := none })) []).length < 16 →
    ∃ t u, exec .loadGroupStrobeAt s = .next t ∧ par64 c 3 ≤ u ∧ u < par64 c 3 + 16 ∧ u % 16 = 0 ∧
      Answered c 0 0 [] (s.modGrp (par c 1) (fun x => { x with strobe := some u })) t) ∧
  (∀ (s : State) (c : Current), Picked s 0x0102 c → par c 0 = 2 → par c 1 < 8 → par c 2 = 0 → par64 c 3 < c.pick + 32000 →
    ∃ t, exec .loadGroupStrobeAt s = .next t ∧ Answered c 0x12 0x8004 [] s t) ∧
  (∀ (s : State) (c : Current), Picked s 0x0102 c → par c 0 = 3 → par c 1 < 8 → (∀ k, 2 ≤ k → k < 7 → par c k = 0) →
    ∃ u t n, exec .loadGroupCancel s = .next t ∧ Answered c 0 0 [w16 n] u t ∧
      u = { s with pins := { s.pins with dac := u.pins.dac, group := u.pins.group } } ∧
      n = (shadowsOf s (fun _ a => decide (a = .group (par c 1)))).length ∧
      (u.grp (par c 1)).strobe = none ∧ (u.grp (par c 1)).mask = (s.grp (par c 1)).mask ∧
      (∀ g, g ≠ par c 1 → u.grp g = s.grp g) ∧
      (∀ k v, (u.dacst k).shadow ≠ some (v, .group (par c 1))) ∧ (∀ k, (u.dacst k).work = (s.dacst k).work) ∧
      (twf dacDefault s.pins.dac = true → ∀ k, (∀ v, (s.dacst k).shadow ≠ some (v, .group (par c 1))) → u.dacst k = s.dacst k)) ∧
  (∀ (g : Fin 8) (s : State) (d : Nat), (s.grp g.val).strobe = some d →
    exec (.groupStrobeDue g) s = .next ((strobeGroup (s.reach d) g.val).modGrp g.val (fun x => { x with strobe := none }))) ∧
  (∀ (g : Fin 8) (s : State), (s.grp g.val).strobe = none → exec (.groupStrobeDue g) s = .next s) ∧
  (∀ (s : State) (g : Nat), strobeGroup s g = { s with pins := { s.pins with dac := (strobeGroup s g).pins.dac } }) ∧
  (∀ (s : State) (g k v : Nat), twf dacDefault s.pins.dac = true →
    (s.dacst k).shadow = some (v, .group g) → (s.grp g).mask.getLsbD (dacBed k) = true →
    (s.bedPow (dacBed k) ≠ .idle → ((strobeGroup s g).dacst k).work = v ∧ ((strobeGroup s g).dacst k).shadow = none) ∧
    (s.bedPow (dacBed k) = .idle → (strobeGroup s g).dacst k = { s.dacst k with shadow := some (v, .held) })) ∧
  (∀ (s : State) (g k : Nat), twf dacDefault s.pins.dac = true →
    (∀ v, (s.dacst k).shadow = some (v, .group g) → (s.grp g).mask.getLsbD (dacBed k) = false) →
    (strobeGroup s g).dacst k = s.dacst k) ∧
  (∀ (a : Nat) (s : State), (∀ e ∈ s.pins.dac, ∀ v, e.2.shadow ≠ some (v, .epoch a)) → exec (.epochLoadDue a) s = .next s) ∧
  (∀ (a k v : Nat) (s : State), twf dacDefault s.pins.dac = true → (s.dacst k).shadow = some (v, .epoch a) →
    ∃ t, exec (.epochLoadDue a) s = .next t ∧ t.clk.time = max s.clk.time a ∧
      (s.bedPow (dacBed k) ≠ .idle → (t.dacst k).work = v ∧ (t.dacst k).shadow = none) ∧
      (s.bedPow (dacBed k) = .idle → t.dacst k = { s.dacst k with shadow := some (v, .held) }) ∧
      (∀ j, (∀ w, (s.dacst j).shadow ≠ some (w, .epoch a)) → t.dacst j = s.dacst j) ∧
      t = { s with clk := { s.clk with time := max s.clk.time a }, pins := { s.pins with dac := t.pins.dac } })

/-- Pin map, pin modes, connections and the drivers' limit (R121 to R127, R140, R143, R144, R149, R150). PIN_MAP replaces or
appends to a site; SET_PIN_MODE sets the mode word of its pins, and turns the driver of a pin in OFF or MEASURE off; CONNECT
moves its pads by the sequence of R126, each event of which is a command of its own. Nothing else changes. -/
def Obligations.PinModesAndConnections : Prop :=
  (∀ (s : State) (c : Current) (old new : List Nat), Picked s 0x0100 c → par c 0 < 64 →
    (par c 1 = 0 ∧ old = [] ∨ par c 1 = (s.seq (par c 0)).lanes.length ∧ par c 1 ≠ 0 ∧ old = (s.seq (par c 0)).lanes) → par c 2 ≤ 117 →
    new = (List.range (par c 2)).map (fun i => par c (3 + i)) → new.Nodup →
    (∀ p ∈ new, p < 512 ∧ p ∉ old ∧ (∀ q n, pinSite s p = some (q, n) → q = par c 0)) →
    ((s.seq (par c 0)).mode = .idle →
      ∃ u t, exec .pinMap s = .next t ∧ Answered c 0 0 [w16 (old ++ new).length] u t ∧
        u.seq (par c 0) = { s.seq (par c 0) with lanes := old ++ new } ∧ (∀ q, q ≠ par c 0 → u.seq q = s.seq q) ∧
        (∀ p ∈ old ++ new, follows u p = false) ∧
        (∀ p, p ∉ (s.seq (par c 0)).lanes → p ∉ new → u.pinck p = s.pinck p) ∧
        u = { s with edge := { s.edge with pinClock := u.edge.pinClock }, pat := { s.pat with seq := u.pat.seq } }) ∧
    ((s.seq (par c 0)).mode ≠ .idle → ∃ t, exec .pinMap s = .next t ∧ Answered c 0x13 1 [] s t)) ∧
  (∀ (s : State) (c : Current), Picked s 0x0103 c → 1 ≤ par c 1 → par c 0 + par c 1 ≤ 512 → par c 2 % 8 ≤ 4 →
    par c 2 &&& 0xEC88 = 0 → (∀ p ∈ pinRange c, pinBusy s p = false) →
    (∀ p ∈ pinRange c, ((s.pinst p).mode = 4 ↔ par c 2 % 8 = 4) ∨ (s.pinst p).conn = 0 ∨ (s.pinst p).conn = 2 ∨ (s.pinst p).conn = 6) →
    ∃ u t, exec .setPinMode s = .next t ∧ Answered c 0 0 [] u t ∧
      u = { s with pins := { s.pins with pin := u.pins.pin }, edge := { s.edge with slice := u.edge.slice } } ∧
      (∀ p ∈ pinRange c, u.pinst p = { s.pinst p with
        mode := par c 2 % 8, tgroup := par c 2 / 16 % 8, slew := par c 2 / 256 % 4, clamp := (par c 2).testBit 12,
        held := if par c 2 % 8 = 0 ∨ par c 2 % 8 = 4 then .off else (s.pinst p).held,
        lastData := if par c 2 % 8 = (s.pinst p).mode then (s.pinst p).lastData else false } ∧
        u.slices p = (if (par c 2 % 8 = 0 ∨ par c 2 % 8 = 4) ∧ bedHeld s (p / 32) = false
          then { s.slices p with drive := [], off := none, driver := .off } else s.slices p)) ∧
      (∀ p, p ∉ pinRange c → u.pinst p = s.pinst p ∧ u.slices p = s.slices p)) ∧
  (∀ (s : State) (c : Current), Picked s 0x0103 c → 1 ≤ par c 1 → par c 0 + par c 1 ≤ 512 → par c 2 % 8 ≤ 4 →
    par c 2 &&& 0xEC88 = 0 → (∃ p ∈ pinRange c, pinBusy s p = true) →
    ∃ t, exec .setPinMode s = .next t ∧ Answered c 0x13 1 [] s t) ∧
  (∀ (s : State) (c : Current), Picked s 0x0103 c → 1 ≤ par c 1 → par c 0 + par c 1 ≤ 512 → par c 2 % 8 ≤ 4 →
    par c 2 &&& 0xEC88 = 0 → (∀ p ∈ pinRange c, pinBusy s p = false) →
    (∃ p ∈ pinRange c, ¬((s.pinst p).mode = 4 ↔ par c 2 % 8 = 4) ∧ (s.pinst p).conn ≠ 0 ∧ (s.pinst p).conn ≠ 2 ∧ (s.pinst p).conn ≠ 6) →
    ∃ t, exec .setPinMode s = .next t ∧ Answered c 0x13 3 [] s t) ∧
  (∀ (s : State) (c : Current) (after : Nat → Nat), Picked s 0x0104 c → 1 ≤ par c 1 → par c 0 + par c 1 ≤ 512 → par c 2 ≤ 6 →
    after = (fun p => if (pinRange c).contains p then par c 2 else (s.pinst p).conn) →
    ((par c 2 = 4 ∨ par c 2 = 5) → ∀ b ∈ bedsOfPins (pinRange c),
      (s.loop (512 + 2 * b + (par c 2 - 4))).stage = 0 ∧ padsWith after b (par c 2) ≤ 4) →
    (par c 2 = 6 → ∀ b ∈ bedsOfPins (pinRange c), padsWith after b 6 ≤ 2) →
    (∀ p ∈ pinRange c, pinBusy s p = false ∧ (bedHeld s (p / 32) = true → par c 2 = 0) ∧ ((s.pinst p).conn = par c 2 ∨
      bedHeld s (p / 32) = true ∨
      ∀ l ∈ (padLoop p (s.pinst p).conn).toList ++ (padLoop p (par c 2)).toList, (s.loop l).state = .stopped)) →
    ∃ u t, exec .connect s = .next t ∧
      u = { s with pins := { s.pins with pin := u.pins.pin }, edge := { s.edge with slice := u.edge.slice } } ∧
      (∀ p ∈ pinRange c,
        ((s.pinst p).conn = par c 2 → u.pinst p = s.pinst p ∧ u.slices p = s.slices p) ∧
        ((s.pinst p).conn ≠ par c 2 → bedHeld s (p / 32) = true → u.slices p = s.slices p ∧ u.pinst p = { s.pinst p with
          conn := par c 2, held := if (s.pinst p).conn = 1 ∨ (s.pinst p).conn = 3 then .off else (s.pinst p).held }) ∧
        ((s.pinst p).conn ≠ par c 2 → bedHeld s (p / 32) = false →
          u.slices p = { s.slices p with drive := [], off := none, driver := .off } ∧ u.pinst p = { s.pinst p with
          conn := par c 2, closed := false, connSettled := false,
          held := if (s.pinst p).conn = 1 ∨ (s.pinst p).conn = 3 then .off else (s.pinst p).held })) ∧
      (∀ p, p ∉ pinRange c → u.pinst p = s.pinst p ∧ u.slices p = s.slices p) ∧
      ((∃ p ∈ pinRange c, (s.pinst p).conn ≠ par c 2 ∧ bedHeld s (p / 32) = false) → Waits c .connect [] u t) ∧
      ((∀ p ∈ pinRange c, (s.pinst p).conn = par c 2 ∨ bedHeld s (p / 32) = true) → Answered c 0 0 [] u t)) ∧
  (∀ (s : State) (c : Current), Picked s 0x0104 c → 1 ≤ par c 1 → par c 0 + par c 1 ≤ 512 →
    (7 ≤ par c 2 ∨ (par c 2 = 4 ∨ par c 2 = 5) ∧ ∃ b ∈ bedsOfPins (pinRange c), (s.loop (512 + 2 * b + (par c 2 - 4))).stage ≠ 0) →
    ∃ t, exec .connect s = .next t ∧ Answered c 0x12 2 [] s t) ∧
  (∀ s : State, twf (fun _ => ({} : PinState)) s.pins.pin = true →
    ∃ t, exec .connectSwitchClose s = .next t ∧ (∀ p, t.pinst p = { s.pinst p with closed := true } ∧
      t.slices p = (if (s.pinst p).closed = false ∧ ((s.pinst p).conn = 1 ∨ (s.pinst p).conn = 3) ∧ bedHeld s (p / 32) = false
        then { s.slices p with drive := [], off := none, driver := (s.pinst p).held } else s.slices p)) ∧
      t = { s with pins := { s.pins with pin := t.pins.pin }, edge := { s.edge with slice := t.edge.slice } }) ∧
  (∀ s : State, twf (fun _ => ({} : PinState)) s.pins.pin = true →
    ∃ u t, exec .connectSettled s = .next t ∧ u = { s with pins := { s.pins with pin := u.pins.pin } } ∧
      (∀ p, u.pinst p = (if (s.pinst p).closed = true then { s.pinst p with connSettled := true } else s.pinst p)) ∧
      (∀ c, s.fw.current = some c → c.wait = .connect → (∀ p ∈ pinRange c, (u.pinst p).connSettled = true) → Answered c 0 0 [] u t) ∧
      (∀ c, s.fw.current = some c → c.wait = .connect → (∃ p ∈ pinRange c, (u.pinst p).connSettled = false) → t = u) ∧
      ((∀ c, s.fw.current = some c → c.wait ≠ .connect) → t = u)) ∧
  (∀ (p : Pin) (s : State), ∃ t, exec (.drvOc p) s = .next t ∧ t.pinst p.val = { s.pinst p.val with overCurrent := true } ∧
    (∀ k, k ≠ p.val → t.pinst k = s.pinst k) ∧ (∀ k, k ≠ p.val / 32 → t.fblk k = s.fblk k) ∧
    (t.fblk (p.val / 32)).live.getLsbD 2 = true ∧ (∀ i, i ≠ 2 → (t.fblk (p.val / 32)).live.getLsbD i = (s.fblk (p.val / 32)).live.getLsbD i) ∧
    t.fblk (p.val / 32) = { s.fblk (p.val / 32) with live := (t.fblk (p.val / 32)).live } ∧
    ((s.fblk (p.val / 32)).live.getLsbD 2 = true → t.flt = s.flt) ∧
    ((s.fblk (p.val / 32)).live.getLsbD 2 = false → t.flt.waiting = s.flt.waiting ++
      [{ block := p.val / 32, source := 2, d0 := w16 p.val, d1 := 0, forced := false, stamp := f3 s.clk.time }]) ∧
    t = { s with pins := { s.pins with pin := t.pins.pin },
                 flt := { s.flt with block := t.flt.block, waiting := t.flt.waiting } }) ∧
  (∀ (p : Pin) (s : State), ∃ t, exec (.drvOcCleared p) s = .next t ∧ t.pinst p.val = { s.pinst p.val with overCurrent := false } ∧
    (∀ k, k ≠ p.val → t.pinst k = s.pinst k) ∧ (∀ k, k ≠ p.val / 32 → t.fblk k = s.fblk k) ∧
    (∀ i, i ≠ 2 → (t.fblk (p.val / 32)).live.getLsbD i = (s.fblk (p.val / 32)).live.getLsbD i) ∧
    t.fblk (p.val / 32) = { s.fblk (p.val / 32) with live := (t.fblk (p.val / 32)).live } ∧
    ((t.fblk (p.val / 32)).live.getLsbD 2 = true ↔ ∃ e ∈ t.pins.pin, e.1 / 32 = p.val / 32 ∧ e.2.overCurrent = true) ∧
    t = { s with pins := { s.pins with pin := t.pins.pin }, flt := { s.flt with block := t.flt.block } })

/-- Timing sets (R158, R178 to R180). A set is legal exactly where it keeps the rules of R158. TS_WRITE writes set N of every
bed of the mask, and nothing else; a set that breaks a rule is refused with its reason, without REFCLK the command answers
REF_ABSENT, with a burst on a pin of a named bed BAD_STATE. TS_READ answers one bed's fields and changes nothing else. -/
def Obligations.TimingSets : Prop :=
  (∀ x : TSet, tsetReason x = none ↔ 1024 ≤ x.period ∧ x.period ≤ 4259840000 ∧ ∀ g, g < 8 →
    (groupOf x g).don ≤ (groupOf x g).ddat ∧ (groupOf x g).ddat ≤ (groupOf x g).dret ∧ (groupOf x g).dret ≤ (groupOf x g).doff ∧
    (groupOf x g).strb + 328 ≤ (groupOf x g).wclose ∧ (∀ e ∈ groupEdges (groupOf x g), e < 4 * x.period) ∧
    ((groupOf x g).format ≠ 0 → (groupOf x g).ddat + 328 ≤ (groupOf x g).dret ∧
      ((groupOf x g).don + 328 ≤ (groupOf x g).ddat ∨ (groupOf x g).ddat = (groupOf x g).don)) ∧
    (groupOf x g).doff + 328 ≤ x.period + (groupOf x g).don ∧ (groupOf x g).wclose + 328 ≤ x.period + (groupOf x g).strb) ∧
  (∀ (s : State) (c : Current) (b r : Nat), Picked s 0x0200 c → (par c 2).testBit 1 = false → bedMask (par c 0) = [b] → par c 1 < 64 →
    par c 2 &&& 0xFC = 0 → ((par c 2).testBit 0 = true ∨ (par c 3 = 0 ∧ par c 4 = 0)) →
    (∀ j, j < (tsGroups c).length → par c (5 + 19 * j) < 4 ∧ ∀ e, e < 6 → par c (8 + 19 * j + 3 * e) < 8) →
    tsetReason (tsWritten c (s.tsetAt (64 * b + par c 1))) = some r →
    ∃ t, exec .tsWrite s = .next t ∧ Answered c 0x12 (0x8000 + r) [] s t) ∧
  (∀ (s : State) (c : Current), Picked s 0x0200 c → (par c 2).testBit 1 = false → par c 0 ≠ 0 → par c 1 < 64 → par c 2 &&& 0xFC = 0 →
    ((par c 2).testBit 0 = true ∨ (par c 3 = 0 ∧ par c 4 = 0)) →
    (∀ j, j < (tsGroups c).length → par c (5 + 19 * j) < 4 ∧ ∀ e, e < 6 → par c (8 + 19 * j + 3 * e) < 8) →
    (∀ b ∈ bedMask (par c 0), tsetReason (tsWritten c (s.tsetAt (64 * b + par c 1))) = none) →
    s.clk.refPresent = true → s.clk.holdover = false →
    (∀ b ∈ bedMask (par c 0), bedBusy s b = false ∧ calHoldsTiming s b = false ∧ bedActive s b = true) →
    ∃ u t, exec .tsWrite s = .next t ∧ Answered c 0 0 [w16 (bedMask (par c 0)).length] u t ∧
      u = { s with edge := { s.edge with tset := u.edge.tset } } ∧
      (∀ b ∈ bedMask (par c 0), u.tsetAt (64 * b + par c 1) = tsWritten c (s.tsetAt (64 * b + par c 1))) ∧
      (∀ k, (∀ b ∈ bedMask (par c 0), k ≠ 64 * b + par c 1) → u.tsetAt k = s.tsetAt k)) ∧
  (∀ (s : State) (c : Current), Picked s 0x0200 c → (par c 2).testBit 1 = false → par c 0 ≠ 0 → par c 1 < 64 → par c 2 &&& 0xFC = 0 →
    ((par c 2).testBit 0 = true ∨ (par c 3 = 0 ∧ par c 4 = 0)) →
    (∀ j, j < (tsGroups c).length → par c (5 + 19 * j) < 4 ∧ ∀ e, e < 6 → par c (8 + 19 * j + 3 * e) < 8) →
    (∀ b ∈ bedMask (par c 0), tsetReason (tsWritten c (s.tsetAt (64 * b + par c 1))) = none) →
    (s.clk.refPresent = false ∨ s.clk.holdover = true) →
    ∃ t, exec .tsWrite s = .next t ∧ Answered c 0x40 0 [] s t) ∧
  (∀ (s : State) (c : Current) (b : Nat), Picked s 0x0200 c → (par c 2).testBit 1 = false → par c 0 ≠ 0 → par c 1 < 64 → par c 2 &&& 0xFC = 0 →
    ((par c 2).testBit 0 = true ∨ (par c 3 = 0 ∧ par c 4 = 0)) →
    (∀ j, j < (tsGroups c).length → par c (5 + 19 * j) < 4 ∧ ∀ e, e < 6 → par c (8 + 19 * j + 3 * e) < 8) →
    (∀ b ∈ bedMask (par c 0), tsetReason (tsWritten c (s.tsetAt (64 * b + par c 1))) = none) →
    s.clk.refPresent = true → s.clk.holdover = false → b ∈ bedMask (par c 0) → bedBusy s b = true →
    ∃ t, exec .tsWrite s = .next t ∧ Answered c 0x13 1 [] s t) ∧
  (∀ (s : State) (c : Current) (b : Nat), Picked s 0x0200 c → bedMask (par c 0) = [b] → par c 1 < 64 → par c 2 &&& 0xFF = 2 →
    (tsGroups c).length ≤ 6 → s.clk.refPresent = true → s.clk.holdover = false → calHoldsTiming s b = false → bedActive s b = true →
    ∃ t, exec .tsRead s = .next t ∧
      Answered c 0 0 ([w16 (par c 0), w16 (par c 1), w16 (1 + (par c 2 / 256) * 256)] ++ toWords 2 (s.tsetAt (64 * b + par c 1)).period ++
        (tsGroups c).flatMap (fun g => w16 (groupOf (s.tsetAt (64 * b + par c 1)) g).format ::
          (groupEdges (groupOf (s.tsetAt (64 * b + par c 1)) g)).flatMap (fun e => toWords 3 e))) s t)

/-- DUT clocks and the delay-locked loop (R154, R174, R181, R182). SET and STOP act in the present cycle (NOW) or leave a change
pending until their cycle (AT), which CLOCK_CHANGE_DUE carries out: a running clock has a run that is open, whose rising edges
count from the change on, a stopped one has none. ASSIGN moves pins to the clock it names. An unlock drops the events not
yet placed, holds the clock outputs and raises TDLL_UNLOCK; a relock ends it. Nothing else changes. -/
def Obligations.ClocksAndTdll : Prop :=
  (∀ (s : State) (c : Current), Picked s 0x0201 c → par c 2 = 0 → par c 0 < 16 → par c 1 < 4 →
    1024 ≤ wAtN c.params 3 3 / 65536 → wAtN c.params 3 3 / 65536 ≤ 4259840000 → 328 ≤ par32 c 6 →
    par32 c 6 + 328 ≤ wAtN c.params 3 3 / 65536 → par32 c 8 < wAtN c.params 3 3 / 65536 →
    par c 10 = 1 → c.pick + 32000 ≤ par64 c 11 → s.clk.refPresent = true → s.clk.holdover = false →
    calHoldsTiming s (par c 0) = false → bedActive s (par c 0) = true →
    ∃ t u, exec .clockOutSet s = .next t ∧
      u = s.modCkgen (4 * par c 0 + par c 1) (fun g => { g with change := some { tc := epochOf (par64 c 11), set := some { period := wAtN c.params 3 3, high := par32 c 6, phase := par32 c 8 } } }) ∧
      Answered c 0 0 (w16 (b2n (s.ckgen (4 * par c 0 + par c 1)).change.isSome) :: toWords 4 (epochOf (par64 c 11))) u t) ∧
  (∀ (s : State) (c : Current), Picked s 0x0201 c → par c 2 = 0 → par c 0 < 16 → par c 1 < 4 →
    1024 ≤ wAtN c.params 3 3 / 65536 → wAtN c.params 3 3 / 65536 ≤ 4259840000 → 328 ≤ par32 c 6 →
    par32 c 6 + 328 ≤ wAtN c.params 3 3 / 65536 → par32 c 8 < wAtN c.params 3 3 / 65536 →
    par c 10 = 0 → (∀ k, 11 ≤ k → k < 15 → par c k = 0) → s.clk.refPresent = true → s.clk.holdover = false →
    calHoldsTiming s (par c 0) = false → bedActive s (par c 0) = true →
    ∃ t u, exec .clockOutSet s = .next t ∧ Answered c 0 0 (0 :: toWords 4 (epochOf s.clk.time)) u t ∧
      u = { s with edge := { s.edge with clock := u.edge.clock } } ∧ (u.ckgen (4 * par c 0 + par c 1)).running = true ∧
      (u.ckgen (4 * par c 0 + par c 1)).change = none ∧
      (u.ckgen (4 * par c 0 + par c 1)).set = { period := wAtN c.params 3 3, high := par32 c 6, phase := par32 c 8 } ∧
      (∃ r ∈ (u.ckgen (4 * par c 0 + par c 1)).runs, r.set = { period := wAtN c.params 3 3, high := par32 c 6, phase := par32 c 8 } ∧
        r.stop = none ∧ (256 * epochOf s.clk.time : Int) ≤ r.start) ∧
      (∀ k, k ≠ 4 * par c 0 + par c 1 → u.ckgen k = s.ckgen k)) ∧
  (∀ (s : State) (c : Current), Picked s 0x0201 c → par c 2 = 1 → par c 0 < 16 → par c 1 < 4 → (∀ k, 3 ≤ k → k < 10 → par c k = 0) →
    par c 10 = 0 → (∀ k, 11 ≤ k → k < 15 → par c k = 0) → s.clk.refPresent = true → s.clk.holdover = false →
    calHoldsTiming s (par c 0) = false → bedActive s (par c 0) = true →
    ∃ t u, exec .clockOutStop s = .next t ∧ Answered c 0 0 (0 :: toWords 4 (epochOf s.clk.time)) u t ∧
      (u.ckgen (4 * par c 0 + par c 1)).running = false ∧ (u.ckgen (4 * par c 0 + par c 1)).change = none ∧
      (∀ r ∈ (u.ckgen (4 * par c 0 + par c 1)).runs, r.stop.isSome = true) ∧
      u = { s with edge := { s.edge with clock := u.edge.clock } } ∧ (∀ k, k ≠ 4 * par c 0 + par c 1 → u.ckgen k = s.ckgen k)) ∧
  (∀ (s : State) (c : Current), Picked s 0x0201 c → par c 2 = 1 → par c 0 < 16 → par c 1 < 4 → (∀ k, 3 ≤ k → k < 10 → par c k = 0) →
    par c 10 = 1 → c.pick + 32000 ≤ par64 c 11 → s.clk.refPresent = true → s.clk.holdover = false →
    calHoldsTiming s (par c 0) = false → bedActive s (par c 0) = true →
    ∃ t u, exec .clockOutStop s = .next t ∧
      u = s.modCkgen (4 * par c 0 + par c 1) (fun g => { g with change := some { tc := epochOf (par64 c 11), set := none } }) ∧
      Answered c 0 0 (w16 (b2n (s.ckgen (4 * par c 0 + par c 1)).change.isSome) :: toWords 4 (epochOf (par64 c 11))) u t) ∧
  (∀ (s : State) (c : Current), Picked s 0x0201 c → par c 2 = 1 → par c 0 < 16 → par c 1 < 4 → (∀ k, 3 ≤ k → k < 10 → par c k = 0) →
    par c 10 = 1 → par64 c 11 < c.pick + 32000 →
    ∃ t, exec .clockOutStop s = .next t ∧ Answered c 0x12 0x8006 [] s t) ∧
  (∀ (s : State) (c : Current), Picked s 0x0201 c → par c 2 = 2 → par c 0 < 16 → par c 1 < 4 → 1 ≤ par c 4 → 32 * par c 0 ≤ par c 3 →
    par c 3 + par c 4 ≤ 32 * par c 0 + 32 → (∀ k, 5 ≤ k → k < 15 → par c k = 0) → s.clk.refPresent = true → s.clk.holdover = false →
    (∀ p, par c 3 ≤ p → p < par c 3 + par c 4 → pinBusy s p = false) → calHoldsTiming s (par c 0) = false → bedActive s (par c 0) = true →
    ∃ t u, exec .clockOutAssign s = .next t ∧ Answered c 0 0 [] u t ∧ u = { s with edge := { s.edge with pinClock := u.edge.pinClock } } ∧
      (∀ p, par c 3 ≤ p → p < par c 3 + par c 4 → (u.pinck p).gen = par c 1 ∧ follows u p = follows s p ∧
        ((s.pinck p).gen = par c 1 → u.pinck p = s.pinck p)) ∧
      (∀ p, (p < par c 3 ∨ par c 3 + par c 4 ≤ p) → u.pinck p = s.pinck p)) ∧
  (∀ (b : Bed) (ck : Fin 4) (s : State) (d : ClockChange) (x : ClockSet), (s.ckgen (4 * b.val + ck.val)).change = some d → d.set = some x →
    ∃ t, exec (.clockChangeDue b ck) s = .next t ∧ t.clk = { s.clk with time := max s.clk.time d.tc } ∧
      (t.ckgen (4 * b.val + ck.val)).running = true ∧ (t.ckgen (4 * b.val + ck.val)).set = x ∧ (t.ckgen (4 * b.val + ck.val)).change = none ∧
      (∃ r ∈ (t.ckgen (4 * b.val + ck.val)).runs, r.set = x ∧ r.stop = none ∧ (256 * d.tc : Int) ≤ r.start) ∧
      (∀ k, k ≠ 4 * b.val + ck.val → t.ckgen k = s.ckgen k) ∧ t = { s with clk := t.clk, edge := { s.edge with clock := t.edge.clock } }) ∧
  (∀ (b : Bed) (ck : Fin 4) (s : State) (d : ClockChange), (s.ckgen (4 * b.val + ck.val)).change = some d → d.set = none →
    ∃ t, exec (.clockChangeDue b ck) s = .next t ∧ t.clk = { s.clk with time := max s.clk.time d.tc } ∧
      (t.ckgen (4 * b.val + ck.val)).running = false ∧ (t.ckgen (4 * b.val + ck.val)).change = none ∧
      (∀ r ∈ (t.ckgen (4 * b.val + ck.val)).runs, r.stop.isSome = true) ∧
      (∀ k, k ≠ 4 * b.val + ck.val → t.ckgen k = s.ckgen k) ∧ t = { s with clk := t.clk, edge := { s.edge with clock := t.edge.clock } }) ∧
  (∀ (b : Bed) (ck : Fin 4) (s : State), (s.ckgen (4 * b.val + ck.val)).change = none → exec (.clockChangeDue b ck) s = .next s) ∧
  (∀ (b : Bed) (s : State), ∃ t, exec (.tdllUnlock b) s = .next t ∧ t.tdll b.val = false ∧ (∀ k, k ≠ b.val → t.tdll k = s.tdll k) ∧
    (t.fblk b.val).live.getLsbD 5 = true ∧ (∀ k, k ≠ b.val → t.fblk k = s.fblk k) ∧
    ((s.fblk b.val).live.getLsbD 5 = true → t.flt = s.flt) ∧
    ((s.fblk b.val).live.getLsbD 5 = false → t.flt.waiting = s.flt.waiting ++
      [{ block := b.val, source := 5, d0 := 0, d1 := 0, forced := false, stamp := f3 s.clk.time }]) ∧
    (∀ p, 32 * b.val ≤ p → p < 32 * b.val + 32 → (t.slices p).drive = [] ∧ (t.slices p).comp = [] ∧ (t.slices p).off = none ∧
      (∃ h, t.pinck p = { s.pinck p with hold := some { high := h } }) ∧
      (bedHeld s b.val = true ∨ (∀ e ∈ (s.slices p).drive, (256 * s.clk.time : Int) < e.placed) → (t.slices p).driver = (s.slices p).driver)) ∧
    (∀ p, (p < 32 * b.val ∨ 32 * b.val + 32 ≤ p) → t.slices p = s.slices p ∧ t.pinck p = s.pinck p) ∧
    (∀ q, t.seq q = { s.seq q with judge := (t.seq q).judge }) ∧
    t = { s with edge := { s.edge with slice := t.edge.slice, pinClock := t.edge.pinClock, tdll := t.edge.tdll },
                 pat := { s.pat with seq := t.pat.seq },
                 flt := { s.flt with block := t.flt.block, waiting := t.flt.waiting } }) ∧
  (∀ (b : Bed) (s : State), ∃ t, exec (.tdllRelock b) s = .next t ∧ t.tdll b.val = true ∧ (t.fblk b.val).live.getLsbD 5 = false ∧
    (∀ k, k ≠ b.val → t.tdll k = s.tdll k ∧ t.fblk k = s.fblk k) ∧
    (∀ p, 32 * b.val ≤ p → p < 32 * b.val + 32 → t.pinck p = { s.pinck p with
      hold := (s.pinck p).hold.map (fun h => { h with since := some (256 * s.clk.time) }) }) ∧
    (∀ p, (p < 32 * b.val ∨ 32 * b.val + 32 ≤ p) → t.pinck p = s.pinck p) ∧
    t = { s with edge := { s.edge with tdll := t.edge.tdll, pinClock := t.edge.pinClock }, flt := { s.flt with block := t.flt.block } })

/-- Segments (R195, R196, R198, R203, R207, R220, R221). SEG_LOAD queues the read, or unregisters; SEG_ACTIVE changes nothing;
its end registers the extent it read, or reports the first offending vector and keeps the registration. SEG_PIN pins, unpins
and fetches, and answers once the segment is resident, BUSY after its bound. A streamer with nothing in progress fetches
something that can be fetched, if anything is wanted. A fetch that ends well makes the segment resident; the first
uncorrectable error has it fetched again, the second leaves it unusable. Nothing else changes. -/
def Obligations.SegmentCommands : Prop :=
  (∀ (s : State) (c : Current), Picked s 0x0300 c → par c 0 < 16384 → par c 7 < 2 →
    64 * par32 c 1 + vectorBytes (par c 5) * par32 c 3 ≤ patternBytes s → 16 ≤ par32 c 3 → par32 c 3 ≤ 65536 → 1 ≤ par c 5 → par c 5 ≤ 512 →
    (∀ n, n < 4 → (s.strm n).isOpen = true → par c 0 ∈ (s.strm n).list → (s.strm n).width = par c 5) → (par c 7 = 1 → par c 6 < par32 c 3) →
    tagInUse s c.tag.toNat = false →
    (segActive s (par c 0) = false →
      ∃ u t, exec .segLoad s = .next t ∧ Answered c 1 0 [] u t ∧ Begun c.tag.toNat 0x0300 c.ring.toNat 0 s u ∧
        u = { s with fw := { s.fw with progress := u.fw.progress }, harv := u.harv, pat := { s.pat with loads := u.pat.loads } } ∧
        u.pat.loads = s.pat.loads ++ [{ tag := c.tag.toNat, segment := par c 0, addr := 64 * par32 c 1, vectors := par32 c 3, width := par c 5, hold := if par c 7 = 1 then some (par c 6) else none }]) ∧
    (segActive s (par c 0) = true → ∃ t, exec .segLoad s = .next t ∧ Answered c 0x16 (par c 0) [] s t)) ∧
  (∀ (s : State) (c : Current), Picked s 0x0300 c → par c 0 < 16384 → (par c 7 = 2 ∨ par c 7 = 3) → tagInUse s c.tag.toNat = false →
    (segActive s (par c 0) = false →
      ∃ u t, exec .segLoad s = .next t ∧ Answered c 1 0 [] u t ∧ u.segm (par c 0) = {} ∧ (∀ g, g ≠ par c 0 → u.segm g = s.segm g) ∧
        u = { s with fw := { s.fw with progress := u.fw.progress }, harv := u.harv, flt := { s.flt with waiting := u.flt.waiting }, pat := { s.pat with segment := u.pat.segment } } ∧
        (∀ k, k ≠ c.tag.toNat → t.prog k = s.prog k) ∧ Ended (workEnd s c.tag.toNat c.ring.toNat 0 0 0 0 1 0 0 0) t) ∧
    (segActive s (par c 0) = true → ∃ t, exec .segLoad s = .next t ∧ Answered c 0x16 (par c 0) [] s t)) ∧
  (∀ (ue : Option Nat) (s : State), s.pat.loads = [] → exec (.segLoadDone ue) s = .next s) ∧
  (∀ (ue : Option Nat) (s : State) (l : SegLoad) (r : List SegLoad), s.pat.loads = l :: r →
    segReason s l.addr l.width l.vectors ue = none →
    ∃ t, exec (.segLoadDone ue) s = .next t ∧ t.pat.loads = r ∧
      t.segm l.segment = { s.segm l.segment with registered := true, addr := l.addr, vectors := l.vectors, width := l.width, hold := l.hold, resident := false, copy := (t.segm l.segment).copy, unusable := false, retried := false, hostPin := (t.segm l.segment).hostPin } ∧
      (executing s l.segment = true → (t.segm l.segment).copy = (s.segm l.segment).copy) ∧
      (executing s l.segment = false → (t.segm l.segment).copy = {}) ∧
      ((t.segm l.segment).hostPin = false ∨ (t.segm l.segment).hostPin = (s.segm l.segment).hostPin ∧ pinSlots t ≤ 3584) ∧
      (∀ g, g ≠ l.segment → t.segm g = s.segm g) ∧ (∀ k, k ≠ l.tag → t.prog k = s.prog k) ∧
      Ended (workEnd s l.tag (s.prog l.tag).ring.toNat 0 0 0 0 1 0 0 0) t ∧
      t = { s with fw := { s.fw with progress := t.fw.progress }, harv := t.harv, flt := { s.flt with waiting := t.flt.waiting }, pat := { s.pat with loads := r, segment := t.pat.segment, fetch := t.pat.fetch, turn := t.pat.turn, fetchReady := t.pat.fetchReady } }) ∧
  (∀ (ue : Option Nat) (s : State) (l : SegLoad) (r : List SegLoad) (i reason : Nat), s.pat.loads = l :: r →
    segReason s l.addr l.width l.vectors ue = some (i, reason) →
    ∃ t, exec (.segLoadDone ue) s = .next t ∧ (∀ k, k ≠ l.tag → t.prog k = s.prog k) ∧
      Ended (workEnd s l.tag (s.prog l.tag).ring.toNat 0x12 (0x8000 + reason) 0 0 1 0 0 i) t ∧
      t = { s with fw := { s.fw with progress := t.fw.progress }, harv := t.harv, flt := { s.flt with waiting := t.flt.waiting }, pat := { s.pat with loads := r } }) ∧
  (∀ (s : State) (c : Current), Picked s 0x0301 c → par c 1 = 0 → par c 0 < 16384 → (s.segm (par c 0)).registered = true → pinFits s (par c 0) = true →
    ∃ u t, exec .segPinPin s = .next t ∧ u = s.modSegm (par c 0) (fun x => { x with hostPin := true, queued := !x.resident }) ∧
      ((s.segm (par c 0)).resident = true → Answered c 0 0 [w16 (segSlots (s.segm (par c 0)))] u t) ∧
      ((s.segm (par c 0)).resident = false → Waits c .segPin [] (startFetch u) t)) ∧
  (∀ (s : State) (c : Current), Picked s 0x0301 c → par c 1 = 0 → par c 0 < 16384 → (s.segm (par c 0)).registered = true → pinFits s (par c 0) = false →
    ∃ t, exec .segPinPin s = .next t ∧ Answered c 0x10 0 [] s t) ∧
  (∀ (s : State) (c : Current), Picked s 0x0301 c → par c 1 = 1 → par c 0 < 16384 → (s.segm (par c 0)).registered = true →
    ∃ t, exec .segPinUnpin s = .next t ∧
      Answered c 0 0 [w16 (segSlots (s.segm (par c 0)))] (s.modSegm (par c 0) (fun x => { x with hostPin := false })) t) ∧
  (∀ (s : State) (c : Current), Picked s 0x0301 c → par c 1 = 2 → par c 0 < 16384 → (s.segm (par c 0)).registered = true →
    ∃ u t, exec .segPinUnpinAll s = .next t ∧ Answered c 0 0 [w16 (segSlots (s.segm (par c 0)))] u t ∧
      u.segm (par c 0) = { s.segm (par c 0) with hostPin := false, loopPins := 0 } ∧ (∀ g, g ≠ par c 0 → u.segm g = s.segm g) ∧
      u = { s with pat := { s.pat with segment := u.pat.segment, seq := u.pat.seq } } ∧
      (∀ q, u.seq q = { s.seq q with loops := (u.seq q).loops }) ∧
      (∀ q, q < 64 → (u.seq q).loops = (s.seq q).loops.map (fun f => { f with pins := f.pins.filter (fun i => decide (i ≠ par c 0)) }))) ∧
  (∀ (s : State) (c : Current), Picked s 0x0301 c → par c 1 = 3 → par c 0 < 16384 → (s.segm (par c 0)).registered = true →
    ∃ u t, exec .segPinFetch s = .next t ∧
      u = s.modSegm (par c 0) (fun x => { x with queued := !x.resident, unusable := x.unusable && x.resident }) ∧
      ((s.segm (par c 0)).resident = true → Answered c 0 0 [w16 (segSlots (s.segm (par c 0)))] u t) ∧
      ((s.segm (par c 0)).resident = false → Waits c .segPin [] (startFetch u) t)) ∧
  (∀ (s : State) (c : Current), s.fw.current = some c → c.wait = .segPin →
    ∃ t, exec .segPinResidencyTimeout s = .next t ∧ Answered c 0x10 1 [] s t) ∧
  (∀ s : State, waitsFor s .segPin = false → exec .segPinResidencyTimeout s = .next s) ∧
  (∀ s : State, startFetch s = { s with pat := { s.pat with fetch := (startFetch s).pat.fetch, turn := (startFetch s).pat.turn, fetchReady := (startFetch s).pat.fetchReady } } ∧
    (s.pat.fetch ≠ none ∨ s.clk.stemIdle = true ∨ s.blkReset 0x14 = true → startFetch s = s) ∧
    (s.pat.fetch = none → ∀ g, (startFetch s).pat.fetch = some g → fetchable s g = true) ∧
    (s.pat.fetch = none → s.clk.stemIdle = false → s.blkReset 0x14 = false → (startFetch s).pat.fetch = none →
      (∀ n prio g, n < 4 → prio < 4 → g ∈ wantedOf s n prio → fetchable s g = false) ∧ (∀ g ∈ queuedSegs s, fetchable s g = false))) ∧
  (∀ (g : SegId) (r : FetchResult) (s : State), (fetching s g.val = false ∨ s.clk.stemIdle = true) → exec (.segmentFetchDone g r) s = .next s) ∧
  (∀ (g : SegId) (s : State), fetching s g.val = true → s.clk.stemIdle = false → fetchable s g.val = true → s.fw.current = none →
    segReason s (s.segm g.val).addr (s.segm g.val).width (s.segm g.val).vectors none = none → usedSlots s + segSlots (s.segm g.val) ≤ 4096 →
    ∃ t, exec (.segmentFetchDone g .ok) s = .next t ∧ t.clk.time = max s.clk.time s.pat.fetchReady ∧
      t.segm g.val = { s.segm g.val with resident := true, copy := readSegment s (s.segm g.val), queued := false, unusable := false, retried := false, used := t.clk.time } ∧
      (∀ k, k ≠ g.val → t.segm k = s.segm k) ∧
      (∀ q, t.seq q = { s.seq q with residentAt := (t.seq q).residentAt }) ∧
      (∀ q, q < 64 → (s.seq q).mode = .starveHold → entrySeg s (s.seq q).stream (s.seq q).awaited = some g.val →
        t.clk.time ≤ (t.seq q).residentAt) ∧
      t = { s with clk := { s.clk with time := t.clk.time }, pat := { s.pat with segment := t.pat.segment, seq := t.pat.seq, fetch := t.pat.fetch, turn := t.pat.turn, fetchReady := t.pat.fetchReady } }) ∧
  (∀ (g : SegId) (s : State) (c : Current), fetching s g.val = true → s.clk.stemIdle = false → fetchable s g.val = true →
    s.fw.current = some c → c.wait = .segPin → par c 0 = g.val →
    segReason s (s.segm g.val).addr (s.segm g.val).width (s.segm g.val).vectors none = none → usedSlots s + segSlots (s.segm g.val) ≤ 4096 →
    ∃ u t, exec (.segmentFetchDone g .ok) s = .next t ∧ Answered c 0 0 [w16 (segSlots (s.segm g.val))] u t ∧ (t.segm g.val).resident = true ∧
      (∀ k, k ≠ g.val → t.segm k = s.segm k) ∧
      u = { s with clk := { s.clk with time := max s.clk.time s.pat.fetchReady }, pat := { s.pat with segment := u.pat.segment, seq := u.pat.seq, fetch := u.pat.fetch, turn := u.pat.turn, fetchReady := u.pat.fetchReady } }) ∧
  (∀ (g : SegId) (s : State) (c : Current), fetching s g.val = true → s.clk.stemIdle = false → fetchable s g.val = true →
    s.fw.current = some c → c.wait = .entry → (s.strm (par c 4)).list[par c 5]? = some g.val →
    (par c 6 = 1 → max s.clk.time s.pat.fetchReady + 6400 ≤ par64 c 7) → par c 6 ≤ 2 →
    segReason s (s.segm g.val).addr (s.segm g.val).width (s.segm g.val).vectors none = none → usedSlots s + segSlots (s.segm g.val) ≤ 4096 →
    ∃ u t st n, exec (.segmentFetchDone g .ok) s = .next t ∧
      Answered c 1 0 ([w16 (seqMask c).length] ++ toWords 4 (startTicks st) ++ [c.tag, w16 n]) u t ∧
      (t.segm g.val).resident = true ∧ (∀ k, k ≠ g.val → t.segm k = s.segm k) ∧ Armed c st s t ∧
      StartsAsAsked c (s.reach s.pat.fetchReady) st ∧
      (∀ q, q ∉ seqMask c → t.seq q = { s.seq q with residentAt := (t.seq q).residentAt }) ∧
      u = { s with clk := { s.clk with time := max s.clk.time s.pat.fetchReady }, fw := { s.fw with progress := u.fw.progress }, pins := { s.pins with pin := u.pins.pin }, edge := { s.edge with slice := u.edge.slice }, harv := u.harv, pat := { s.pat with segment := u.pat.segment, seq := u.pat.seq, fetch := u.pat.fetch, turn := u.pat.turn, fetchReady := u.pat.fetchReady } }) ∧
  (∀ (g : SegId) (ch : Fin 2) (s : State), fetching s g.val = true → s.clk.stemIdle = false → fetchable s g.val = true → s.fw.current = none →
    segReason s (s.segm g.val).addr (s.segm g.val).width (s.segm g.val).vectors none = none → usedSlots s + segSlots (s.segm g.val) ≤ 4096 →
    ∃ t, exec (.segmentFetchDone g (.corrected ch)) s = .next t ∧ (t.segm g.val).resident = true ∧ (∀ k, k ≠ g.val → t.segm k = s.segm k) ∧
      t.flt.waiting = s.flt.waiting ++ [{ block := 0x14, source := 2, d0 := w16 ch.val, d1 := 0, forced := false, stamp := f3 t.clk.time }] ∧
      t = { s with clk := { s.clk with time := max s.clk.time s.pat.fetchReady }, pat := { s.pat with segment := t.pat.segment, seq := t.pat.seq, fetch := t.pat.fetch, turn := t.pat.turn, fetchReady := t.pat.fetchReady }, flt := { s.flt with waiting := t.flt.waiting } }) ∧
  (∀ (g : SegId) (s : State), fetching s g.val = true → s.clk.stemIdle = false → fetchable s g.val = true →
    segReason s (s.segm g.val).addr (s.segm g.val).width (s.segm g.val).vectors none = none →
    4096 < usedSlots s + segSlots (s.segm g.val) → (∀ e ∈ s.pat.segment, evictable s e.1 = false) →
    exec (.segmentFetchDone g .ok) s = .next (s.reach s.pat.fetchReady)) ∧
  (∀ (g : SegId) (s : State), fetching s g.val = true → s.clk.stemIdle = false → fetchable s g.val = true → (s.segm g.val).retried = false →
    exec (.segmentFetchDone g .uncorrectable) s = .next ((s.reach s.pat.fetchReady).modSegm g.val (fun x => { x with retried := true }))) ∧
  (∀ (g : SegId) (s : State), fetching s g.val = true → s.clk.stemIdle = false → fetchable s g.val = true → (s.segm g.val).retried = true →
    ∃ t, exec (.segmentFetchDone g .uncorrectable) s = .next t ∧
      t.segm g.val = { s.segm g.val with queued := false, unusable := true, retried := false } ∧ (∀ k, k ≠ g.val → t.segm k = s.segm k) ∧
      (∃ d ∈ t.flt.waiting, d.block = 0x14 ∧ d.source = 3 ∧ d.d0 = w16 g.val) ∧
      (∀ q, t.seq q = { s.seq q with unusable := (t.seq q).unusable }) ∧
      t = { s with clk := { s.clk with time := max s.clk.time s.pat.fetchReady }, pat := { s.pat with segment := t.pat.segment, seq := t.pat.seq, fetch := t.pat.fetch, turn := t.pat.turn, fetchReady := t.pat.fetchReady }, flt := { s.flt with block := t.flt.block, waiting := t.flt.waiting } })

/-- Streams and bursts (R204, R217, R222 to R229). STREAM_OPEN opens, extends, closes and maps, and without DRAM does nothing;
BURST_RUN pins its entry segment and, once that is resident, arms every named site with its own tag and one start time;
without residency it waits, and is BUSY after its bound. BURST_STOP latches the stop in every named site that runs with
none latched, and ends an armed one; JUMP_REQUEST latches the target. Nothing else changes. -/
def Obligations.StreamAndBurstCommands : Prop :=
  (∀ (s : State) (c : Current), Picked s 0x0302 c → par c 1 = 0 → par c 0 < 4 → par c 2 < 2 → par c 3 ≤ 64 → par c 4 ≤ 114 →
    (∀ i, i < par c 4 → par c (5 + i) < 16384 ∧ (s.segm (par c (5 + i))).registered = true ∧
      (s.segm (par c (5 + i))).width = (s.segm (par c 5)).width) → (s.strm (par c 0)).isOpen = false → s.bus.dramMib ≠ 0 →
    ∃ w t, exec .streamOpenOpen s = .next t ∧ (par c 4 ≠ 0 → w = (s.segm (par c 5)).width) ∧
      Answered c 0 0 [w16 (par c 4)] (startFetch (s.modStrm (par c 0) (fun _ =>
        { isOpen := true, list := (List.range (par c 4)).map (fun i => par c (5 + i)), width := w, sealed := decide (par c 2 = 1), prefetch := if par c 3 = 0 then 8 else par c 3 }))) t) ∧
  (∀ (s : State) (c : Current) (w : Nat), Picked s 0x0302 c → par c 1 = 1 → par c 0 < 4 → par c 2 < 2 → par c 3 ≤ 64 → par c 4 ≤ 114 →
    ((s.strm (par c 0)).list ≠ [] → (s.strm (par c 0)).width = w) → (s.strm (par c 0)).list.length + par c 4 ≤ 4096 →
    (∀ i, i < par c 4 → par c (5 + i) < 16384 ∧ (s.segm (par c (5 + i))).registered = true ∧ (s.segm (par c (5 + i))).width = w) →
    (s.strm (par c 0)).isOpen = true → (s.strm (par c 0)).sealed = false → s.bus.dramMib ≠ 0 →
    ∃ u t, exec .streamOpenAppend s = .next t ∧ Answered c 0 0 [w16 ((s.strm (par c 0)).list.length + par c 4)] u t ∧
      u.strm (par c 0) = { isOpen := true, list := (s.strm (par c 0)).list ++ (List.range (par c 4)).map (fun i => par c (5 + i)), width := (u.strm (par c 0)).width, sealed := decide (par c 2 = 1), prefetch := if par c 3 = 0 then 8 else par c 3 } ∧
      ((u.strm (par c 0)).list ≠ [] → (u.strm (par c 0)).width = w) ∧
      (∀ n, n ≠ par c 0 → u.strm n = s.strm n) ∧
      (∀ q, u.seq q = s.seq q ∨ (s.seq q).mode = .starveHold ∧ u.seq q = { s.seq q with residentAt := s.clk.time }) ∧
      u = { s with pat := { s.pat with stream := u.pat.stream, seq := u.pat.seq, fetch := u.pat.fetch, turn := u.pat.turn, fetchReady := u.pat.fetchReady } }) ∧
  (∀ (s : State) (c : Current), Picked s 0x0302 c → par c 1 = 2 → par c 0 < 4 → par c 2 < 2 → s.bus.dramMib ≠ 0 →
    (s.strm (par c 0)).isOpen = true →
    (streamBusy s (par c 0) = false → ∃ t, exec .streamOpenClose s = .next t ∧ Answered c 0 0 [0] (s.modStrm (par c 0) (fun _ => {})) t) ∧
    (streamBusy s (par c 0) = true → ∃ t, exec .streamOpenClose s = .next t ∧ Answered c 0x13 1 [] s t)) ∧
  (∀ (s : State) (c : Current), Picked s 0x0302 c → par c 1 = 3 → par c 0 < 4 → par c 2 < 2 → 1 ≤ par c 4 → par c 4 ≤ dataMib s →
    s.bus.dramMib ≠ 0 → (∀ n, n < 4 → (s.strm n).isOpen = false) → (∀ e ∈ s.harv.ring, e.2.state = .free) →
    ∃ t, exec .streamOpenMap s = .next t ∧ Answered c 0 0 [0] { s with pat := { s.pat with patternMib := some (par c 4) } } t) ∧
  (∀ (s : State) (c : Current), Picked s 0x0302 c → par c 0 < 4 → par c 2 < 2 → par c 3 ≤ 64 → par c 4 ≤ 114 → s.bus.dramMib = 0 →
    (par c 1 = 0 → ∃ t, exec .streamOpenOpen s = .next t ∧ Answered c 0x13 7 [] s t) ∧
    (par c 1 = 1 → ∃ t, exec .streamOpenAppend s = .next t ∧ Answered c 0x13 7 [] s t) ∧
    (par c 1 = 2 → ∃ t, exec .streamOpenClose s = .next t ∧ Answered c 0x13 7 [] s t) ∧
    (par c 1 = 3 → ∃ t, exec .streamOpenMap s = .next t ∧ Answered c 0x13 7 [] s t)) ∧
  (∀ (s : State) (c : Current) (w g : Nat), Picked s 0x0303 c → par64 c 0 ≠ 0 → par c 4 < 4 → (s.strm (par c 4)).isOpen = true →
    (s.strm (par c 4)).width = w → (s.strm (par c 4)).list[par c 5]? = some g → (∀ q ∈ seqMask c, (s.seq q).lanes.length = w) →
    par c 6 ≤ 2 → (par c 6 ≠ 1 → ∀ k, 7 ≤ k → k < 11 → par c k = 0) → (par c 6 = 1 → c.pick + 32000 ≤ par64 c 7 ∧ s.clk.time + 6400 ≤ par64 c 7) →
    par c 11 < 128 → (par c 13 = 0xFFFF ∨ (s.ring (par c 13)).state ≠ .free) → c.tag.toNat + (seqMask c).length ≤ 0x1000 →
    (∀ i, i < (seqMask c).length → tagInUse s (c.tag.toNat + i) = false) → s.clk.refPresent = true → s.clk.holdover = false → s.clk.stemIdle = false →
    (∀ q ∈ seqMask c, (s.seq q).mode = .idle ∧ seqLevel s q ≠ 3 ∧ ∀ p ∈ (s.seq q).lanes,
      p < 512 ∧ bedHeld s (p / 32) = false ∧ calHolds s (p / 32) = false ∧ bedActive s (p / 32) = true) →
    pinFits s g = true →
    ∃ t, exec .burstRun s = .next t ∧
      ((s.segm g).resident = false → ∃ v, Waits c .entry [] (s.modSegm g (fun x => { x with entryPins := x.entryPins + (seqMask c).length })) v ∧
        t = startFetch v) ∧
      ((s.segm g).resident = true → ∃ u st n, Answered c 1 0 ([w16 (seqMask c).length] ++ toWords 4 (startTicks st) ++ [c.tag, w16 n]) u t ∧
        Armed c st s u ∧ StartsAsAsked c s st ∧ (∀ q, q ∉ seqMask c → u.seq q = s.seq q) ∧
        (∀ p, (∀ q ∈ seqMask c, p ∉ (s.seq q).lanes) → u.pinst p = s.pinst p ∧ u.slices p = s.slices p) ∧
        (∀ k, (k < c.tag.toNat ∨ c.tag.toNat + (seqMask c).length ≤ k) → u.prog k = s.prog k) ∧
        (∀ r, r ≠ c.ring.toNat → r ≠ (if par c 13 = 0xFFFF then c.ring.toNat else par c 13) → u.ring r = s.ring r) ∧
        u.segm g = { s.segm g with entryPins := (s.segm g).entryPins + (seqMask c).length } ∧ (∀ k, k ≠ g → u.segm k = s.segm k) ∧
        u = { s with fw := { s.fw with progress := u.fw.progress }, pins := { s.pins with pin := u.pins.pin }, edge := { s.edge with slice := u.edge.slice }, harv := u.harv, pat := { s.pat with seq := u.pat.seq, segment := u.pat.segment, fetch := u.pat.fetch, turn := u.pat.turn, fetchReady := u.pat.fetchReady } })) ∧
  (∀ (s : State) (c : Current) (g : Nat), s.fw.current = some c → c.wait = .entry → (s.strm (par c 4)).list[par c 5]? = some g →
    ∃ t, exec .burstRunEntryTimeout s = .next t ∧
      Answered c 0x10 (par c 4) [] (s.modSegm g (fun x => { x with entryPins := x.entryPins - (seqMask c).length })) t) ∧
  (∀ s : State, (∀ c, s.fw.current = some c → c.wait ≠ .entry) → exec .burstRunEntryTimeout s = .next s) ∧
  (∀ (s : State) (c : Current), Picked s 0x0304 c → par c 4 ≤ 1 → (∃ q ∈ seqMask c, siteRuns (s.seq q) = true) →
    (∀ q ∈ seqMask c, (s.seq q).mode ≠ .armed ∧ (s.seq q).stop = none ∧ ((s.seq q).mode = .starveHold → par c 4 = 0)) →
    ∃ u t, exec .burstStop s = .next t ∧ Answered c 0 0 [w16 ((seqMask c).filter (fun q => siteRuns (s.seq q))).length] u t ∧
      (∀ q ∈ seqMask c, siteRuns (s.seq q) = true →
        u.seq q = { s.seq q with stop := some { cause := 8, atBoundary := decide (par c 4 = 1), endsWait := true } }) ∧
      (∀ q, (q ∉ seqMask c ∨ siteRuns (s.seq q) = false) → u.seq q = s.seq q) ∧ u = { s with pat := { s.pat with seq := u.pat.seq } }) ∧
  (∀ (s : State) (c : Current), Picked s 0x0304 c → par c 4 ≤ 1 → (∃ q ∈ seqMask c, siteRuns (s.seq q) = true) →
    ∃ u t, exec .burstStop s = .next t ∧ Answered c 0 0 [w16 ((seqMask c).filter (fun q => siteRuns (s.seq q))).length] u t ∧
      (∀ q ∈ seqMask c, (s.seq q).mode = .armed → (u.seq q).mode = .ending ∧ (u.seq q).endCause = 8 ∨ (u.seq q).mode = .idle) ∧
      u = { s with fw := { s.fw with progress := u.fw.progress }, edge := u.edge, pat := u.pat, lp := u.lp, meas := u.meas, harv := u.harv, link := u.link, flt := u.flt }) ∧
  (∀ (s : State) (c : Current), Picked s 0x0304 c → par c 4 ≤ 1 → (∀ q ∈ seqMask c, siteRuns (s.seq q) = false) →
    ∃ t, exec .burstStop s = .next t ∧ Answered c 0x13 1 [] s t) ∧
  (∀ (s : State) (c : Current) (l : List Nat), Picked s 0x0305 c → l = (seqMask c).filter (fun q => siteRuns (s.seq q)) → l ≠ [] →
    (∀ q ∈ l, par c 4 < (s.strm (s.seq q).stream).list.length) →
    ∃ u t, exec .jumpRequest s = .next t ∧
      Answered c (if l.length = (seqMask c).length then 0 else 2) (if l.length = (seqMask c).length then 0 else l.length) [w16 l.length] u t ∧
      (∀ q ∈ l, u.seq q = { s.seq q with jump := some { target := par c 4, registered := none, deferred := false } }) ∧
      (∀ q, q ∉ l → u.seq q = s.seq q) ∧
      u = { s with pat := { s.pat with seq := u.pat.seq, fetch := u.pat.fetch, turn := u.pat.turn, fetchReady := u.pat.fetchReady } })

/-- What the site sequencers do (R187 to R189, R194, R195, R200, R211, R213, R217, R218, R227). Every armed site of a start time
starts vector 0 of its entry at 256 × Ts. A cycle end in EXEC after a NEXT vector goes to the next vector of the instance, and
from its last one to the next list entry: an instance of it, starve-hold, or the end of a sealed list; after a REPEAT with
repetitions left the vector runs again; after HALT the burst ends. A judgement with a failing lane sets the fail flag and
counts one failing vector; one that compares nothing leaves both, and CLRFAIL clears the flag. A trigger event of an idle
output begins a pulse 30 ns on. -/
def Obligations.SequencerEvents : Prop :=
  (∀ (ts : Nat) (s : State) (q g : Nat), q < 64 → (s.seq q).mode = .armed → (s.seq q).start = .at ts →
    (s.strm (s.seq q).stream).list[(s.seq q).entry]? = some g →
    ∃ t, exec (.burstStart ts) s = .next t ∧ t.clk.time = max s.clk.time ts ∧ ((t.seq q).mode = .exec ∨ (t.seq q).mode = .matching) ∧
      (t.seq q).segment = g ∧ (t.seq q).index = 0 ∧ (t.seq q).entry = (s.seq q).entry ∧ (t.seq q).steps = (s.seq q).steps + 1 ∧
      (t.seq q).vectors = (s.seq q).vectors + 1 ∧ (t.seq q).failFlag = false ∧ 256 * ts ≤ (t.seq q).next ∧
      (t.seq q).lanes = (s.seq q).lanes ∧ (t.seq q).tag = (s.seq q).tag ∧ (t.seq q).stop = (s.seq q).stop ∧
      (UnitsRest s → ∀ k, ((s.seq k).mode ≠ .armed ∨ (s.seq k).start ≠ .at ts) → t.seq k = s.seq k) ∧
      t = { s with clk := { s.clk with time := max s.clk.time ts }, fw := { s.fw with progress := t.fw.progress }, pins := { s.pins with pin := t.pins.pin },
                   edge := t.edge, pat := t.pat, lp := t.lp, meas := t.meas, harv := t.harv, link := t.link, flt := t.flt }) ∧
  (∀ (ts : Nat) (s : State), (∀ q, q < 64 → (s.seq q).mode = .armed → (s.seq q).start ≠ .at ts) → exec (.burstStart ts) s = .next s) ∧
  (∀ (q : Seq) (s : State), (s.seq q.val).mode = .idle ∨ (s.seq q.val).mode = .armed ∨ s.clk.stemIdle = true → exec (.vectorCycle q) s = .next s) ∧
  (∀ (q : Seq) (s : State), ∃ t, exec (.vectorCycle q) s = .next t ∧
    t = { s with clk := t.clk, mb := t.mb, fw := t.fw, pins := t.pins, edge := t.edge, pat := t.pat, lp := t.lp, meas := t.meas, harv := t.harv, link := t.link, flt := t.flt }) ∧
  (∀ (q : Seq) (s : State), s.clk.stemIdle = false → (s.seq q.val).mode = .exec → (s.seq q.val).stop = none →
    (∀ j ∈ (s.seq q.val).judge, (s.seq q.val).next < j.due) → seqLevel s q.val ≠ 3 → (seqVec s q.val).op = 0 →
    (s.seq q.val).index + 1 < (s.segm (s.seq q.val).segment).copy.vectors →
    ∃ t, exec (.vectorCycle q) s = .next t ∧ t.clk.time = max s.clk.time ((s.seq q.val).next / 256) ∧
      (t.seq q.val).index = (s.seq q.val).index + 1 ∧ (t.seq q.val).vectors = (s.seq q.val).vectors + 1 ∧
      (t.seq q.val).reps = 1 ∧ (t.seq q.val).entry = (s.seq q.val).entry ∧ (t.seq q.val).segment = (s.seq q.val).segment ∧
      (t.seq q.val).steps = (s.seq q.val).steps ∧ (s.seq q.val).next ≤ (t.seq q.val).next ∧
      (t.seq q.val).loops = (s.seq q.val).loops ∧ (t.seq q.val).calls = (s.seq q.val).calls ∧ (t.seq q.val).failFlag = (s.seq q.val).failFlag ∧
      (UnitsRest s → ∀ k, k ≠ q.val → t.seq k = s.seq k)) ∧
  (∀ (q : Seq) (s : State) (g : Nat), s.clk.stemIdle = false → (s.seq q.val).mode = .exec → (s.seq q.val).stop = none → (s.seq q.val).jump = none →
    (∀ j ∈ (s.seq q.val).judge, (s.seq q.val).next < j.due) → seqLevel s q.val ≠ 3 → (seqVec s q.val).op = 0 →
    (s.segm (s.seq q.val).segment).copy.vectors ≤ (s.seq q.val).index + 1 →
    (s.strm (s.seq q.val).stream).list[(s.seq q.val).entry + 1]? = some g →
    (s.segm g).registered = true → (s.segm g).resident = true → (s.segm g).unusable = false →
    ∃ t, exec (.vectorCycle q) s = .next t ∧ (t.seq q.val).entry = (s.seq q.val).entry + 1 ∧ (t.seq q.val).segment = g ∧
      (t.seq q.val).index = 0 ∧ (t.seq q.val).steps = (s.seq q.val).steps + 1 ∧ (t.seq q.val).vectors = (s.seq q.val).vectors + 1 ∧
      (t.seq q.val).calls = (s.seq q.val).calls ∧ (t.seq q.val).failFlag = (s.seq q.val).failFlag ∧
      (UnitsRest s → ∀ k, k ≠ q.val → t.seq k = s.seq k)) ∧
  (∀ (q : Seq) (s : State), s.clk.stemIdle = false → (s.seq q.val).mode = .exec → (s.seq q.val).stop = none → (s.seq q.val).jump = none →
    (∀ j ∈ (s.seq q.val).judge, (s.seq q.val).next < j.due) → seqLevel s q.val ≠ 3 → (seqVec s q.val).op = 0 →
    (s.segm (s.seq q.val).segment).copy.vectors ≤ (s.seq q.val).index + 1 →
    (s.strm (s.seq q.val).stream).list[(s.seq q.val).entry + 1]? = none →
    ((s.strm (s.seq q.val).stream).sealed = false → (s.seq q.val).starveAbort = false →
      ∃ t, exec (.vectorCycle q) s = .next t ∧ (t.seq q.val).mode = .starveHold ∧ (t.seq q.val).awaited = (s.seq q.val).entry + 1 ∧
        (t.seq q.val).holds = (s.seq q.val).holds + 1 ∧ (t.seq q.val).starved = true ∧ (t.seq q.val).vectors = (s.seq q.val).vectors ∧
        (∀ k, k ≠ q.val → t.seq k = s.seq k)) ∧
    ((s.strm (s.seq q.val).stream).sealed = true →
      ∃ t, exec (.vectorCycle q) s = .next t ∧ ((t.seq q.val).mode = .ending ∧ (t.seq q.val).endCause = 0 ∨ (t.seq q.val).mode = .idle) ∧
        (t.seq q.val).loops = [] ∧ (t.seq q.val).calls = [])) ∧
  (∀ (q : Seq) (s : State), s.clk.stemIdle = false → (s.seq q.val).mode = .exec → (s.seq q.val).stop = none →
    (∀ j ∈ (s.seq q.val).judge, (s.seq q.val).next < j.due) → seqLevel s q.val ≠ 3 → (seqVec s q.val).op = 1 →
    (s.seq q.val).reps < (seqVec s q.val).operand →
    ∃ t, exec (.vectorCycle q) s = .next t ∧ (t.seq q.val).index = (s.seq q.val).index ∧ (t.seq q.val).vectors = (s.seq q.val).vectors + 1 ∧
      (t.seq q.val).reps = (s.seq q.val).reps + 1 ∧ (t.seq q.val).mode = .exec ∧ (∀ k, k ≠ q.val → t.seq k = s.seq k)) ∧
  (∀ (q : Seq) (s : State), s.clk.stemIdle = false → (s.seq q.val).mode = .exec → (s.seq q.val).stop = none →
    (∀ j ∈ (s.seq q.val).judge, (s.seq q.val).next < j.due) → seqLevel s q.val ≠ 3 → (seqVec s q.val).op = 11 →
    ∃ t, exec (.vectorCycle q) s = .next t ∧ ((t.seq q.val).mode = .ending ∧ (t.seq q.val).endCause = 0 ∨ (t.seq q.val).mode = .idle) ∧
      (t.seq q.val).loops = [] ∧ (t.seq q.val).calls = [] ∧ (t.seq q.val).jump = none ∧ (t.seq q.val).lanes = (s.seq q.val).lanes) ∧
  (∀ (q : Seq) (lanes : List LaneCmp) (s : State), (s.seq q.val).judge = [] → exec (.vectorJudgement q lanes) s = .next s) ∧
  (∀ (q : Seq) (lanes : List LaneCmp) (s : State) (j : Judgement), (s.seq q.val).mode ≠ .ending → firstDue (s.seq q.val).judge = some j →
    j.kind = .normal → j.clrfail = false → j.log = false → (∃ i, i < (s.seq q.val).lanes.length ∧ j.codes.getD i 16 < 16 ∧ j.codes.getD i 16 ≠ 12 ∧ j.lost.contains i = true) →
    ∃ t, exec (.vectorJudgement q lanes) s = .next t ∧ (t.seq q.val).failFlag = true ∧ (t.seq q.val).fails = (s.seq q.val).fails + 1 ∧
      (t.seq q.val).firstFail = (match (s.seq q.val).firstFail with | some v => some v | none => some j.vectors) ∧
      (t.seq q.val).judge = (s.seq q.val).judge.erase j ∧ t.clk.time = max s.clk.time (j.due / 256) ∧
      (UnitsRest s → ∀ k, k ≠ q.val → t.seq k = s.seq k) ∧
      t = { s with clk := { s.clk with time := max s.clk.time (j.due / 256) }, fw := t.fw, pat := t.pat, lp := t.lp, meas := t.meas,
                   harv := t.harv, link := t.link, flt := t.flt }) ∧
  (∀ (q : Seq) (lanes : List LaneCmp) (s : State) (j : Judgement), (s.seq q.val).mode ≠ .ending → firstDue (s.seq q.val).judge = some j →
    j.kind = .normal → j.log = false → (∀ i, i < (s.seq q.val).lanes.length → 16 ≤ j.codes.getD i 16 ∨ j.codes.getD i 16 = 12) →
    ∃ t, exec (.vectorJudgement q lanes) s = .next t ∧ t.seq q.val = { s.seq q.val with
        judge := (s.seq q.val).judge.erase j, failFlag := (s.seq q.val).failFlag && !j.clrfail } ∧
      t = { s with clk := { s.clk with time := max s.clk.time (j.due / 256) }, pat := { s.pat with seq := t.pat.seq } } ∧ (∀ k, k ≠ q.val → t.seq k = s.seq k)) ∧
  (∀ (n tick : Nat) (s : State), (s.trig n).pulses = [] →
    trigPulse s n tick = s.modTrig n (fun x => { x with pulses := [(tick + 96, tick + 96 + 16 * x.width)] })) ∧
  (∀ (n : Fin 8) (s : State) (a b : Nat) (r : List (Nat × Nat)), (s.trig n.val).pulses = (a, b) :: r →
    ∃ t, exec (.trigPulseEnd n) s = .next t ∧ t.trig n.val = { s.trig n.val with pulses := r } ∧ (∀ k, k ≠ n.val → t.trig k = s.trig k) ∧
      t = { s with clk := { s.clk with time := max s.clk.time b }, pat := { s.pat with trig := t.pat.trig } }) ∧
  (∀ (n : Fin 8) (s : State), (s.trig n.val).pulses = [] → exec (.trigPulseEnd n) s = .next s)

/-- The loop commands (R230, R236, R239, R253, R264, R267 to R274). LOOP_CONFIG writes stopped loops, forms and dissolves
gangs, whose members follow their leader; READ answers the loop's state. LOOP_FORCE leaves its change waiting for the
boundary it names. LOOP_RANGE acts at once on a stopped loop and waits for a running one. LOOP_COMPLY keeps the limits of
its quantity. SWEEP_LOAD fills steps; SWEEP_RUN starts a sweep on each loop under its own tag. Nothing else changes. The
ranges after a change of stage mode are the model's choice (log entry 10). -/
def Obligations.LoopCommands : Prop :=
  (∀ (s : State) (c : Current), Picked s 0x0400 c → 1 ≤ par c 1 → par c 0 + par c 1 ≤ 544 → (512 ≤ par c 0 ∨ par c 0 + par c 1 ≤ 512) →
    par c 2 < 8 → par c 2 % 2 = 0 → par c 3 ≤ 2 → (par c 0 < 512 → par c 2 ≠ 2 ∧ par c 2 ≠ 6 ∧ par c 3 = 0) → par c 4 < 16 → (par c 3 = 0 → par c 4 = 0) →
    par c 5 = 1 → (par c 6 = 0xFFFF ∨ (s.ring (par c 6)).state ≠ .free) → par c 7 ≤ 7 →
    (∀ l ∈ loopRange c 0, (s.loop l).state = .stopped ∧ calHoldsLoop s l = false ∧ bedActive s (loopBed l) = true ∧ (s.loop l).gang = 1) →
    ∃ u t, exec .loopConfig s = .next t ∧ Answered c 0 0 [] u t ∧ u = { s with lp := { s.lp with loop := u.lp.loop } } ∧
      (∀ l ∈ loopRange c 0, u.loop l = { s.loop l with charge := (par c 2).testBit 1, stopHold := (par c 2).testBit 2, stage := par c 3, stageId := par c 4, gang := 1, eventRing := par c 6, trackShift := par c 7, irange := if par c 3 ≠ 0 then 5 else if (s.loop l).stage ≠ 0 then 0 else (s.loop l).irange }) ∧
      (∀ l, l ∉ loopRange c 0 → u.loop l = s.loop l)) ∧
  (∀ (s : State) (c : Current) (h n : Nat), Picked s 0x0400 c → par c 0 = 512 + h → h < 32 → par c 1 = 1 → par c 2 < 8 → par c 2 % 2 = 0 →
    par c 3 = 0 → par c 4 = 0 → par c 5 = n → 2 ≤ n → n ≤ 4 → h / 4 = (h + n - 1) / 4 →
    (par c 6 = 0xFFFF ∨ (s.ring (par c 6)).state ≠ .free) → par c 7 ≤ 7 → (s.loop (512 + h)).gang = 1 →
    (∀ k, 512 + h ≤ k → k < 512 + h + n → loopPads s k = 0 ∧ (s.loop k).stage = 0 ∧ (s.loop k).state = .stopped) →
    calHoldsLoop s (512 + h) = false → bedActive s (loopBed (512 + h)) = true →
    ∃ u t, exec .loopConfig s = .next t ∧ Answered c 0 0 [] u t ∧
      u.loop (512 + h) = { s.loop (512 + h) with charge := (par c 2).testBit 1, stopHold := (par c 2).testBit 2, stageId := 0, gang := n, eventRing := par c 6, trackShift := par c 7 } ∧
      (∀ k, 512 + h < k → k < 512 + h + n → u.loop k = { s.loop k with state := .ganged, isOpen := (s.loop (512 + h)).isOpen, irange := (s.loop (512 + h)).irange, vrange := (s.loop (512 + h)).vrange, demand := (u.loop k).demand } ∧
        (∃ e : Int, e.natAbs ≤ (s.loop (512 + h)).demand.natAbs / 20 ∧ (u.loop k).demand = clampI (-32768) 32767 ((s.loop (512 + h)).demand + e))) ∧
      (∀ k, (k < 512 + h ∨ 512 + h + n ≤ k) → u.loop k = s.loop k) ∧
      u = { s with free := u.free, lp := { s.lp with loop := u.lp.loop } }) ∧
  (∀ (s : State) (c : Current) (h : Nat), Picked s 0x0400 c → par c 0 = 512 + h → h < 32 → par c 1 = 1 → par c 2 < 8 → par c 2 % 2 = 0 →
    par c 3 = 0 → par c 4 = 0 → par c 5 = 1 → (par c 6 = 0xFFFF ∨ (s.ring (par c 6)).state ≠ .free) → par c 7 ≤ 7 →
    (s.loop (512 + h)).state = .stopped → calHoldsLoop s (512 + h) = false → bedActive s (loopBed (512 + h)) = true →
    ∃ u t, exec .loopConfig s = .next t ∧ Answered c 0 0 [] u t ∧ (u.loop (512 + h)).gang = 1 ∧ (u.loop (512 + h)).state = .stopped ∧
      (∀ k, 512 + h < k → k < 512 + h + (s.loop (512 + h)).gang → u.loop k = { s.loop k with state := .stopped, isOpen := true }) ∧
      (∀ k, k ≠ 512 + h → (k < 512 + h ∨ 512 + h + (s.loop (512 + h)).gang ≤ k) → u.loop k = s.loop k) ∧
      u = { s with lp := { s.lp with loop := u.lp.loop } }) ∧
  (∀ (s : State) (c : Current), Picked s 0x0400 c → par c 0 < 544 → par c 1 = 1 → par c 2 = 1 → (∀ k, 3 ≤ k → k < 8 → par c k = 0) →
    ∃ t, exec .loopConfigRead s = .next t ∧ Answered c 0 0 ([loopModeCode (s.loop (par c 0)).state, declaredCode (s.loop (par c 0)).declared,
      (s.loop (par c 0)).mode, (s.loop (par c 0)).irange, (s.loop (par c 0)).vrange,
      flag 0 (s.loop (par c 0)).auto + flag 1 (s.loop (par c 0)).charge + flag 2 (decide ((s.loop (par c 0)).clip ≠ 0)) + flag 3 (chargeOutside s (par c 0)),
      (s.loop (par c 0)).cause, toTwos 16 (s.loop (par c 0)).lastV, toTwos 16 (s.loop (par c 0)).lastI, (s.loop (par c 0)).stage, (s.loop (par c 0)).gang].map w16) s t) ∧
  (∀ (s : State) (c : Current) (due : Nat), Picked s 0x0401 c → 1 ≤ par c 1 → par c 0 + par c 1 ≤ 544 → (512 ≤ par c 0 ∨ par c 0 + par c 1 ≤ 512) →
    par c 2 ≤ 3 → (par c 2 < 2 → f32Finite (parF c 3) = true) → (2 ≤ par c 2 → par c 3 = 0 ∧ par c 4 = 0) →
    (par c 5 = 0 ∧ (∀ k, 6 ≤ k → k < 10 → par c k = 0) ∧ due = s.clk.time ∨ par c 5 = 1 ∧ c.pick + 32000 ≤ par64 c 6 ∧ due = par64 c 6) →
    (∀ l ∈ loopRange c 0, (par c 2 < 2 → inNominal s l (decide (par c 2 = 0)) (s.loop l).irange (s.loop l).vrange (f32 (parF c 3)) = true) ∧
      (par c 2 = 3 ∨ ((s.loop l).state ≠ .cloche ∧ (chargeOutside s l = false ∨ ∃ h, (s.loop l).iHi = some h ∧ h ≤ 0) ∧
        ((s.loop l).stage = 0 ∨ ((s.stage (s.loop l).stageId).attached = true ∧ (s.stage (s.loop l).stageId).lost = false)))) ∧
      (s.loop l).state ≠ .ganged ∧ (512 ≤ l ∨ par c 2 = 3 ∨ (s.pinst l).conn = 2 ∨ (par c 2 = 2 ∧ (s.pinst l).conn = 3)) ∧
      (s.loop l).source = .dc ∧ calHoldsLoop s l = false ∧ bedActive s (loopBed l) = true) →
    ∃ u t b, exec .loopForce s = .next t ∧ Answered c 0 0 (w16 (par c 1) :: toWords 4 b) u t ∧ due ≤ b ∧
      ((s.loop (par c 0)).stage ≠ 2 → b % loopPeriod (par c 0) = 0) ∧ s.clk.time ≤ b ∧ (s.loop (par c 0)).lastSample < b ∧
      (∀ l ∈ loopRange c 0, u.loop l = { s.loop l with force := some { due := due, mode := par c 2, value := parF c 3 } }) ∧
      (∀ l, l ∉ loopRange c 0 → u.loop l = s.loop l) ∧ u = { s with lp := { s.lp with loop := u.lp.loop } }) ∧
  (∀ (s : State) (c : Current) (h : Nat), Picked s 0x0401 c → par c 0 = 512 + h → h < 32 → par c 1 = 1 → par c 2 = 0 → par c 3 = 0 → par c 4 = 0 →
    par c 5 = 0 → (∀ k, 6 ≤ k → k < 10 → par c k = 0) → inNominal s (512 + h) true (s.loop (512 + h)).irange (s.loop (512 + h)).vrange (f32 0) = true →
    (s.loop (512 + h)).state ≠ .cloche → chargeOutside s (512 + h) = true → (∀ i, (s.loop (512 + h)).iHi = some i → 0 < i) →
    ∃ t, exec .loopForce s = .next t ∧ Answered c 0x14 (s.charge h).source [] s t) ∧
  (∀ (s : State) (c : Current), Picked s 0x0402 c → 1 ≤ par c 1 → par c 0 + par c 1 ≤ 544 → (512 ≤ par c 0 ∨ par c 0 + par c 1 ≤ 512) →
    (par c 3 = 0xFF ∨ 512 ≤ par c 0 ∧ par c 3 ≤ 1) → par c 4 ≤ 1 → par c 5 ≤ par c 6 → par c 7 ≤ 255 →
    (∀ l ∈ loopRange c 0, ((s.loop l).stage = 0 ∧ (par c 2 ≤ 4 ∨ par c 2 = 0xFF) ∧ par c 6 ≤ 4 ∨
        (s.loop l).stage ≠ 0 ∧ 512 ≤ l ∧ (par c 2 = 5 ∨ par c 2 = 0xFF) ∧ par c 4 = 0 ∧ par c 5 = 5 ∧ par c 6 = 5) ∧
      (s.loop l).state = .stopped ∧ (s.loop l).source = .dc ∧ (∀ k ∈ loopRange c 0, l < k → l + (s.loop l).gang ≤ k) ∧
      calHoldsLoop s l = false ∧ bedActive s (loopBed l) = true ∧ (s.loop l).change = none ∧ (s.loop l).changeNext = none) →
    ∃ u t, exec .loopRange s = .next t ∧ Answered c 0 0 [] u t ∧ u = { s with free := u.free, lp := { s.lp with loop := u.lp.loop } } ∧
      (∀ l ∈ loopRange c 0, (u.loop l).irange = (rangeGoal s c l).1 ∧ (u.loop l).vrange = (rangeGoal s c l).2 ∧ (u.loop l).auto = decide (par c 4 = 1) ∧
        (u.loop l).autoMin = par c 5 ∧ (u.loop l).autoMax = par c 6 ∧
        (u.loop l).state = .stopped ∧ (u.loop l).upN = (if par c 7 = 0 then 2 else par c 7) ∧ (u.loop l).downN = (if par c 8 = 0 then 256 else par c 8)) ∧
      (∀ k, k ∉ loopRange c 0 → (∀ l ∈ loopRange c 0, k < l ∨ l + (s.loop l).gang ≤ k) → u.loop k = s.loop k)) ∧
  (∀ (s : State) (c : Current), Picked s 0x0402 c → 1 ≤ par c 1 → par c 0 + par c 1 ≤ 544 → (512 ≤ par c 0 ∨ par c 0 + par c 1 ≤ 512) →
    par c 2 ≤ 4 → par c 3 = 0xFF → par c 4 = 0 → par c 5 ≤ par c 6 → par c 6 ≤ 4 → par c 7 ≤ 255 →
    (∀ l ∈ loopRange c 0, (s.loop l).stage = 0 ∧ (s.loop l).state = .regulating ∧ (s.loop l).source = .dc ∧
      calHoldsLoop s l = false ∧ bedActive s (loopBed l) = true ∧ (s.loop l).irange ≠ par c 2 ∧
      ((s.loop l).mode = 1 → ((recode s l false (s.loop l).irange (s.loop l).vrange (par c 2) (s.loop l).vrange (s.loop l).setPoint).natAbs : Int) ≤ nominalCode)) →
    ∃ u t, exec .loopRange s = .next t ∧ Waits c .rangeSettle [] u t ∧ u = { s with lp := { s.lp with loop := u.lp.loop } } ∧
      (∀ l ∈ loopRange c 0, u.loop l = { s.loop l with changeNext := some (par c 2, (s.loop l).vrange), auto := false, autoMin := par c 5, autoMax := par c 6, upN := if par c 7 = 0 then 2 else par c 7, downN := if par c 8 = 0 then 256 else par c 8, upCount := 0, downCount := 0, autoGoal := none }) ∧
      (∀ l, l ∉ loopRange c 0 → u.loop l = s.loop l)) ∧
  (∀ (s : State) (c : Current), Picked s 0x0403 c → 1 ≤ par c 1 → par c 0 + par c 1 ≤ 544 → (512 ≤ par c 0 ∨ par c 0 + par c 1 ≤ 512) →
    par c 2 ≤ 1 → f32Finite (parF c 3) = true → f32Finite (parF c 5) = true → (f32 (parF c 5)).lt (f32 (parF c 3)) = true →
    (∀ l ∈ loopRange c 0, (s.loop l).state ≠ .ganged ∧ calHoldsLoop s l = false ∧ bedActive s (loopBed l) = true ∧
      ((s.loop l).stage = 0 ∨ ((s.stage (s.loop l).stageId).attached = true ∧ (s.stage (s.loop l).stageId).lost = false)) ∧
      (par c 2 = 1 → inNominal s l true 0 (s.loop l).vrange (f32 (parF c 3)) = true ∧ inNominal s l true 0 (s.loop l).vrange (f32 (parF c 5)) = true)) →
    ∃ u t, exec .loopComply s = .next t ∧ Answered c 0 0 [] u t ∧ u = { s with lp := { s.lp with loop := u.lp.loop } } ∧
      (∀ l ∈ loopRange c 0, u.loop l = { s.loop l with iHi := if par c 2 = 0 then some (setCode s l false (s.loop l).irange (s.loop l).vrange (f32 (parF c 3))) else (s.loop l).iHi, iLo := if par c 2 = 0 then some (setCode s l false (s.loop l).irange (s.loop l).vrange (f32 (parF c 5))) else (s.loop l).iLo, vHi := if par c 2 = 1 then some (setCode s l true (s.loop l).irange (s.loop l).vrange (f32 (parF c 3))) else (s.loop l).vHi, vLo := if par c 2 = 1 then some (setCode s l true (s.loop l).irange (s.loop l).vrange (f32 (parF c 5))) else (s.loop l).vLo, returnN := if par c 7 = 0 then 32 else par c 7, tripN := par c 8, tripCount := (u.loop l).tripCount }) ∧
      (∀ l, l ∉ loopRange c 0 → u.loop l = s.loop l)) ∧
  (∀ (s : State) (c : Current), Picked s 0x0404 c → 1 ≤ par c 1 → par c 1 ≤ 23 → par c 0 + par c 1 ≤ 65536 →
    (∀ i, i < par c 1 → par c (6 + 5 * i) &&& 0xFF8E = 0) → sweepUses s (par c 0) (par c 1) = false →
    ∃ u t, exec .sweepLoad s = .next t ∧ Answered c 0 0 [] u t ∧ u = { s with lp := { s.lp with sweep := u.lp.sweep } } ∧
      (∀ i, i < par c 1 → u.swp (par c 0 + i) = { value := parF c (2 + 5 * i), dwell := par32 c (4 + 5 * i), meas := (par c (6 + 5 * i)).testBit 0, irange := par c (6 + 5 * i) / 16 % 8 }) ∧
      (∀ k, (k < par c 0 ∨ par c 0 + par c 1 ≤ k) → u.swp k = s.swp k)) ∧
  (∀ (s : State) (c : Current), Picked s 0x0405 c → 1 ≤ par c 1 → par c 0 + par c 1 ≤ 544 → (512 ≤ par c 0 ∨ par c 0 + par c 1 ≤ 512) →
    1 ≤ par32 c 3 → par32 c 3 ≤ 65536 → par c 2 + par32 c 3 ≤ 65536 → par c 6 ≤ 2 → (par c 6 ≠ 1 → ∀ k, 7 ≤ k → k < 11 → par c k = 0) →
    (par c 6 = 1 → c.pick + 32000 ≤ par64 c 7) → par c 11 < 16 → (par c 12 = 0xFFFF ∨ (s.ring (par c 12)).state ≠ .free) →
    c.tag.toNat + par c 1 ≤ 0x1000 → (∀ i, i < par c 1 → tagInUse s (c.tag.toNat + i) = false) →
    (∀ l ∈ loopRange c 0, stepFails s (par c 2) (par32 c 3) (par c 5) l = none ∧
      (chargeOutside s l = false ∨ ∃ h, (s.loop l).iHi = some h ∧ h ≤ 0) ∧
      (s.loop l).state = .regulating ∧ (s.loop l).mode ≠ 2 ∧ (s.loop l).source = .dc ∧ calHoldsLoop s l = false ∧
      bedActive s (loopBed l) = true ∧ ((s.loop l).stage = 0 ∨ ((s.stage (s.loop l).stageId).attached = true ∧ (s.stage (s.loop l).stageId).lost = false)) ∧
      ((∃ i, par c 2 ≤ i ∧ i < par c 2 + par32 c 3 ∧ (s.swp i).meas = true) → (s.avg l).run = none ∧ (s.avg l).lock = none)) →
    ∃ u t st, exec .sweepRun s = .next t ∧ Answered c 1 0 (w16 (par c 1) :: toWords 4 (startTicks st) ++ [c.tag]) u t ∧
      (∀ i, i < par c 1 → u.loop (par c 0 + i) = { s.loop (par c 0 + i) with source := .sweep { tag := c.tag.toNat + i, ring := c.ring.toNat, measRing := if par c 12 = 0xFFFF then c.ring.toNat else par c 12, first := par c 0, count := par c 1, start := st, stepFirst := par c 2, steps := par32 c 3, passes := par c 5, begun := 0, done := 0, left := 0, last := 0, began := 0, credit := false, granted := false, restore := if (par c 11).testBit 3 then some (Frac.ofInt (s.loop (par c 0 + i)).setPoint) else none } } ∧
        u.prog (c.tag.toNat + i) = { opcode := 0x0405, state := .running, ring := w16 c.ring.toNat, output := 2 }) ∧
      (par c 6 = 0 → ∃ ts, st = .at ts ∧ s.clk.time + 6400 ≤ ts ∧ ts < s.clk.time + 6416 ∧ ts % 16 = 0) ∧
      (par c 6 = 1 → ∃ ts, st = .at ts ∧ par64 c 7 ≤ ts ∧ ts < par64 c 7 + 16 ∧ ts % 16 = 0) ∧
      (par c 6 = 2 → st = .tin (par c 11 % 4) ((par c 11).testBit 2)) ∧ (∀ l, l ∉ loopRange c 0 → u.loop l = s.loop l) ∧
      (∀ k, (k < c.tag.toNat ∨ c.tag.toNat + par c 1 ≤ k) → u.prog k = s.prog k) ∧ (∀ r, r ≠ c.ring.toNat → u.ring r = s.ring r) ∧
      u = { s with fw := { s.fw with progress := u.fw.progress }, lp := { s.lp with loop := u.lp.loop }, harv := u.harv })

/-- The sample of a loop (R231, R237, R243 to R245, R252, R260). LOOP_SAMPLE processes the loop's next boundary: the conversion,
corrected, is delivered, a FROZEN loop keeps its demand, its on-chip stage clamping the current itself, and a loop that
regulates writes the demand of the selector. The selector applies the lower demand toward a high target and the higher one
toward a low target. A low bound never exceeds the high one; the range, the user limit, a throttle and the charge window
each bound the current. -/
def Obligations.LoopSample : Prop :=
  (∀ (l : LoopId) (c : Conv) (s : State), bedActive s (loopBed l.val) = false ∨ (s.loop l.val).stage = 2 → exec (.loopSample l c) s = .next s) ∧
  (∀ (l : LoopId) (c : Conv) (s : State), bedActive s (loopBed l.val) = true → (s.loop l.val).stage ≠ 2 →
    ∃ t, exec (.loopSample l c) s = .next t ∧
      t = { s with free := t.free, clk := t.clk, mb := t.mb, fw := t.fw, pins := t.pins, pat := t.pat, lp := t.lp, meas := t.meas, harv := t.harv, link := t.link, ser := t.ser, flt := t.flt }) ∧
  (∀ (l : LoopId) (c : Conv) (s : State), bedActive s (loopBed l.val) = true → (s.loop l.val).stage ≠ 2 → (s.loop l.val).state = .frozen →
    (s.loop l.val).declared = .primary → (s.loop l.val).autoGoal = none → (s.loop l.val).source = .dc → (s.avg l.val).run = none → (s.avg l.val).lock = none →
    ∃ t, exec (.loopSample l c) s = .next t ∧ (t.loop l.val).demand = (s.loop l.val).demand ∧ (t.loop l.val).state = .frozen ∧
      (t.loop l.val).volt = (s.loop l.val).volt ∧ (t.loop l.val).curr = (s.loop l.val).curr ∧ (t.loop l.val).setPoint = (s.loop l.val).setPoint ∧
      (t.loop l.val).lastV = (corrected s l.val c).v ∧ (t.loop l.val).lastI = (corrected s l.val c).i ∧
      (t.loop l.val).lastSample = nextBoundary s l.val ∧ t.clk.time = max s.clk.time (nextBoundary s l.val) ∧
      (512 ≤ l.val → (s.loop l.val).stage = 0 → (s.loop l.val).isOpen = false → (t.loop l.val).dissClamp.isSome = true)) ∧
  (∀ (l : LoopId) (c : Conv) (s d : State), bedActive s (loopBed l.val) = true → (s.loop l.val).stage ≠ 2 → (s.loop l.val).state = .regulating →
    (s.loop l.val).mode ≠ 2 → (s.loop l.val).source = .dc → (s.loop l.val).measure = none → (s.loop l.val).change = none →
    (s.loop l.val).changeNext = none → (s.loop l.val).force = none → (s.loop l.val).swap = none → (s.loop l.val).regionSwap = none →
    (s.loop l.val).autoGoal = none → (s.loop l.val).auto = false → (s.loop l.val).charge = false → (s.loop l.val).chargeOut = false →
    (s.loop l.val).handoff = none → (s.loop l.val).regions.enable = false → (s.loop l.val).regions.starting = false →
    (s.loop l.val).declared = .primary → (s.avg l.val).run = none → (s.avg l.val).lock = none →
    d = deliver ((s.reach (nextBoundary s l.val)).modLoop l.val (fun x => { x with lastSample := nextBoundary s l.val })) l.val (nextBoundary s l.val) (corrected s l.val c) →
    ∃ t, exec (.loopSample l c) s = .next t ∧ (t.loop l.val).lastV = (corrected s l.val c).v ∧ (t.loop l.val).lastI = (corrected s l.val c).i ∧
      (t.loop l.val).lastSample = nextBoundary s l.val ∧ t.clk.time = max s.clk.time (nextBoundary s l.val) ∧ (t.loop l.val).state = .regulating ∧
      (t.loop l.val).demand = ((regulate d l.val (s.loop l.val).mode (s.loop l.val).setPoint (some (userLimits d l.val (!primaryVolt (s.loop l.val).mode)))).1.loop l.val).demand ∧
      ((regulate d l.val (s.loop l.val).mode (s.loop l.val).setPoint (some (userLimits d l.val (!primaryVolt (s.loop l.val).mode)))).2.limited = false →
        (t.loop l.val).declared = .primary)) ∧
  (∀ (s : State) (l mode : Nat) (sp : Int) (user : Option (Int × Int)) (t : State) (r : Selected) (up ul : Int),
    regulate s l mode sp user = (t, r) →
    up = (evalLaw s l (primaryVolt mode) true (clampI (quantityBounds s l (primaryVolt mode) none).2.2 (quantityBounds s l (primaryVolt mode) none).1.2 sp) (if primaryVolt mode then (s.loop l).lastV else (s.loop l).lastI)).1 →
    ul = (evalLaw s l (!primaryVolt mode) false (if r.high then r.hi.2 else r.lo.2) r.x).1 →
    r.hi = (quantityBounds s l (!primaryVolt mode) user).1 ∧ r.lo = (quantityBounds s l (!primaryVolt mode) user).2 ∧
    (r.high = true → (t.loop l).demand = min up ul) ∧ (r.high = false → (t.loop l).demand = max up ul) ∧
    (r.limited = true ↔ (t.loop l).demand ≠ up) ∧ (r.high = true ↔ (r.hi.2 + r.lo.2) / 2 ≤ r.x) ∧
    t.loop l = { s.loop l with demand := (t.loop l).demand, lastSet := (t.loop l).lastSet, volt := (t.loop l).volt, curr := (t.loop l).curr } ∧
    (∀ k, k ≠ l → t.loop k = s.loop k) ∧ t = { s with lp := { s.lp with loop := t.lp.loop } }) ∧
  (∀ (s : State) (l : Nat) (volt : Bool) (user : Option (Int × Int)),
    (quantityBounds s l volt user).2.2 ≤ (quantityBounds s l volt user).1.2) ∧
  (∀ (s : State) (l : Nat) (user : Option (Int × Int)), (currentBounds s l user).1.2 ≤ 26214 ∧
    (chargeOutside s l = true ∨ chargeHeld s l = true → (currentBounds s l user).1.2 ≤ 0) ∧
    (loopThrottled s l = true → (currentBounds s l user).1.2 ≤ 13107) ∧
    (∀ h w, user = some (h, w) → (currentBounds s l user).1.2 ≤ h))

/-- What the counts of a loop make due (R237, R238, R246, R249, R254 to R256, R262, R265, R270, R289, R294): the declared law's
return, the trip, an auto-range decision, the end of a range change, a swap, the dissipation faults and budget, a sweep's
first step, a LOOP_FORCE, and a measured start. Each changes what its rule names, and nothing else. -/
def Obligations.LoopEvents : Prop :=
  (∀ (l : LoopId) (s : State), (s.loop l.val).declared ≠ .primary → (s.loop l.val).returnN ≤ (s.loop l.val).returnCount →
    ∃ t, exec (.lawReturn l) s = .next t ∧ t.loop l.val = { s.loop l.val with declared := .primary, returnCount := 0, tripCount := 0, cause := (s.loop l.val).clip } ∧
      (∀ k, k ≠ l.val → t.loop k = s.loop k) ∧
      t = { s with lp := { s.lp with loop := t.lp.loop }, harv := t.harv, flt := { s.flt with block := t.flt.block, waiting := t.flt.waiting } }) ∧
  (∀ (l : LoopId) (s : State), (s.loop l.val).declared = .primary ∨ (s.loop l.val).returnCount < (s.loop l.val).returnN → exec (.lawReturn l) s = .next s) ∧
  (∀ (l : LoopId) (s : State), (s.loop l.val).declared ≠ .primary → (s.loop l.val).tripN ≠ 0 → (s.loop l.val).tripCount = (s.loop l.val).tripN →
    ∃ t, exec (.complyTrip l) s = .next t ∧ t.flt.waiting = s.flt.waiting ++
        [{ block := loopBed l.val, source := 1, d0 := w16 l.val, d1 := 0, forced := false, stamp := f3 s.clk.time }] ∧
      (t.fblk (loopBed l.val)).live.getLsbD 1 = true ∧ (∀ k, k ≠ loopBed l.val → t.fblk k = s.fblk k) ∧
      t.loop l.val = { s.loop l.val with tripCount := (s.loop l.val).tripN + 1 } ∧ (∀ k, k ≠ l.val → t.loop k = s.loop k) ∧
      t = { s with lp := { s.lp with loop := t.lp.loop }, flt := { s.flt with block := t.flt.block, waiting := t.flt.waiting } }) ∧
  (∀ (l : LoopId) (s : State), (s.loop l.val).declared = .primary ∨ (s.loop l.val).tripN = 0 ∨ (s.loop l.val).tripCount ≠ (s.loop l.val).tripN →
    exec (.complyTrip l) s = .next s) ∧
  (∀ (l : LoopId) (s : State) (g : Nat), (s.loop l.val).autoGoal = some g → (s.loop l.val).state = .regulating → (s.loop l.val).stage ≠ 2 → (s.loop l.val).irange ≠ g →
    ∃ t, exec (.autoRangeDecision l) s = .next t ∧
      t.loop l.val = { s.loop l.val with autoGoal := none, upCount := 0, downCount := 0, changeNext := some (g, (s.loop l.val).vrange) } ∧
      (∀ k, k ≠ l.val → t.loop k = s.loop k) ∧ t = { s with lp := { s.lp with loop := t.lp.loop } }) ∧
  (∀ (l : LoopId) (s : State), (s.loop l.val).autoGoal = none → exec (.autoRangeDecision l) s = .next s) ∧
  (∀ (l : LoopId) (s : State) (c : RangeChange), (s.loop l.val).change = some c → c.count = settleSamples l.val c.oldI c.oldV c.irange c.vrange →
    (s.loop l.val).state = .settling →
    ∃ t, exec (.rangeSettleDone l) s = .next t ∧ t.loop l.val = { s.loop l.val with change := none, state := .regulating, upCount := 0, downCount := 0, setPoint := (t.loop l.val).setPoint } ∧
      ((s.loop l.val).source = .dc → (t.loop l.val).setPoint = (s.loop l.val).setPoint) ∧
      t.clk.time = max s.clk.time (nextBoundary s l.val) ∧ (∀ k, k ≠ l.val → t.loop k = s.loop k) ∧
      (∀ x, s.fw.current = some x → x.wait = .rangeSettle → (s.loop l.val).changeNext = none →
        (∀ k ∈ loopRange x 0, k ≠ l.val → (s.loop k).change = none ∧ (s.loop k).changeNext = none) → ∃ u, Answered x 0 0 [] u t) ∧
      t = { s with clk := { s.clk with time := t.clk.time }, mb := t.mb, fw := { s.fw with current := t.fw.current }, lp := { s.lp with loop := t.lp.loop }, harv := t.harv, link := t.link, flt := { s.flt with block := t.flt.block, waiting := t.flt.waiting } }) ∧
  (∀ (l : LoopId) (s : State), (s.loop l.val).change = none ∨ (s.loop l.val).state = .frozen → exec (.rangeSettleDone l) s = .next s) ∧
  (∀ (l : LoopId) (s : State) (w : Swap), (s.loop l.val).regionSwap = none → (s.loop l.val).swap = some w → (s.loop l.val).state ≠ .frozen → w.cause = 1 →
    ∃ t, exec (.coefSwapDue l) s = .next t ∧ (t.loop l.val).swap = none ∧ w.due ≤ t.clk.time ∧
      (w.volt = true → (t.loop l.val).vActive = (s.loop l.val).vStaged ∧ (t.loop l.val).vStaged = (s.loop l.val).vActive) ∧
      (w.volt = false → (t.loop l.val).vActive = (s.loop l.val).vActive ∧ (t.loop l.val).vStaged = (s.loop l.val).vStaged) ∧
      (w.curr = false → (t.loop l.val).iActive = (s.loop l.val).iActive ∧ (t.loop l.val).iStaged = (s.loop l.val).iStaged) ∧
      (w.curr = true → (t.loop l.val).iActive = (s.loop l.val).iStaged ∧ (t.loop l.val).iStaged = (s.loop l.val).iActive) ∧
      (t.loop l.val).demand = (s.loop l.val).demand ∧ (t.loop l.val).inUse = (s.loop l.val).inUse ∧ (∀ k, k ≠ l.val → t.loop k = s.loop k) ∧
      (∀ x, s.fw.current = some x → x.wait = .coefSwap → (∀ k ∈ loopRange x 0, k ≠ l.val → (s.loop k).swap = none) → ∃ u, Answered x 0 0 x.reply u t) ∧
      t = { s with clk := { s.clk with time := t.clk.time }, mb := t.mb, fw := { s.fw with current := t.fw.current }, lp := { s.lp with loop := t.lp.loop }, harv := t.harv, link := t.link, flt := { s.flt with block := t.flt.block, waiting := t.flt.waiting } }) ∧
  (∀ (l : LoopId) (s : State) (w : Swap), (s.loop l.val).regionSwap = some w → (s.loop l.val).swap = none → (s.loop l.val).state ≠ .frozen → w.cause ≠ 1 →
    ∃ t, exec (.coefSwapDue l) s = .next t ∧ (t.loop l.val).regionSwap = none ∧ w.due ≤ t.clk.time ∧
      (w.region < 8 → (t.loop l.val).inUse = some w.region ∧ (t.loop l.val).regions.cur = w.region) ∧
      (w.region = 0xFF → (t.loop l.val).inUse = none) ∧ (t.loop l.val).vActive = (s.loop l.val).vActive ∧
      (t.loop l.val).iActive = (s.loop l.val).iActive ∧ (t.loop l.val).demand = (s.loop l.val).demand ∧ (∀ k, k ≠ l.val → t.loop k = s.loop k) ∧
      t = { s with clk := { s.clk with time := t.clk.time }, lp := { s.lp with loop := t.lp.loop }, harv := t.harv, flt := { s.flt with block := t.flt.block, waiting := t.flt.waiting } }) ∧
  (∀ (l : LoopId) (s : State), (s.loop l.val).regionSwap = none → (s.loop l.val).swap = none → exec (.coefSwapDue l) s = .next s) ∧
  (∀ (h : Heavy) (s : State), (s.loop (512 + h.val)).dissOver = 64 →
    ∃ t, exec (.stageDiss h) s = .next t ∧ t.flt.waiting = s.flt.waiting ++
        [{ block := h.val / 2, source := 4, d0 := w16 (512 + h.val), d1 := 0, forced := false, stamp := f3 s.clk.time }] ∧
      (t.fblk (h.val / 2)).live.getLsbD 4 = true ∧ (∀ k, k ≠ h.val / 2 → t.fblk k = s.fblk k) ∧
      t.loop (512 + h.val) = { s.loop (512 + h.val) with dissOver := 65 } ∧ (∀ k, k ≠ 512 + h.val → t.loop k = s.loop k) ∧
      t = { s with lp := { s.lp with loop := t.lp.loop }, flt := { s.flt with block := t.flt.block, waiting := t.flt.waiting } }) ∧
  (∀ (h : Heavy) (s : State), (s.loop (512 + h.val)).dissOver ≠ 64 → exec (.stageDiss h) s = .next s) ∧
  (∀ (s : State) (total : Nat), total = (((List.range 32).map (fun h => 512 + h)).map (fun l => if (s.loop l).stage = 0 ∧ (s.loop l).dissCount ≠ 0 then (s.loop l).dissSum / (s.loop l).dissCount else 0)).sum →
    ∃ t, exec .chipDissUpdate s = .next t ∧ t.lp.dissTime % 51200 = 0 ∧ s.lp.dissTime < t.lp.dissTime ∧ t.clk.time = max s.clk.time t.lp.dissTime ∧
      (∀ h, h < 32 → (s.loop (512 + h)).stage = 0 → t.loop (512 + h) = { s.loop (512 + h) with dissSum := 0, dissCount := 0, pMax := (t.loop (512 + h)).pMax } ∧
        (8000000000 < total → (t.loop (512 + h)).pMax = (s.loop (512 + h)).pMax * 8000000000 / total) ∧
        (total < 7500000000 → (t.loop (512 + h)).pMax = min 1000000000 ((s.loop (512 + h)).pMax + 62500000)) ∧
        (7500000000 ≤ total → total ≤ 8000000000 → (t.loop (512 + h)).pMax = (s.loop (512 + h)).pMax)) ∧
      (∀ l, (l < 512 ∨ 544 ≤ l ∨ (s.loop l).stage ≠ 0) → t.loop l = s.loop l) ∧
      t = { s with clk := { s.clk with time := t.clk.time }, lp := { s.lp with loop := t.lp.loop, dissTime := t.lp.dissTime } }) ∧
  (∀ (l : LoopId) (s : State) (r : SweepRun) (ts : Nat), (s.loop l.val).source = .sweep r → (s.loop l.val).state = .regulating → r.start = .at ts → r.begun = 0 →
    r.left = 0 → 0 < r.steps → (s.swp r.stepFirst).meas = false → (s.swp r.stepFirst).irange = 7 → (s.avg l.val).ended = none →
    ∃ t b, exec (.sweepStep l) s = .next t ∧ ts ≤ b ∧ nextBoundary s l.val ≤ b ∧ ((s.loop l.val).stage ≠ 2 → b % loopPeriod l.val = 0) ∧
      t.clk.time = max s.clk.time b ∧ t.loop l.val = { s.loop l.val with setPoint := stepCode s l.val r.stepFirst, source := .sweep { r with begun := 1, left := max 1 (s.swp r.stepFirst).dwell, last := b, began := b, credit := r.granted, granted := false } } ∧
      (∀ k, k ≠ l.val → t.loop k = s.loop k) ∧ (∀ k, k ≠ l.val → t.avg k = s.avg k) ∧
      t = { s with clk := { s.clk with time := t.clk.time }, lp := { s.lp with loop := t.lp.loop }, meas := { s.meas with avg := t.meas.avg } }) ∧
  (∀ (l : LoopId) (s : State), (∀ r, (s.loop l.val).source ≠ .sweep r) → exec (.sweepStep l) s = .next s) ∧
  (∀ (l : LoopId) (s : State) (f : ForcePending), (s.loop l.val).force = some f → (s.loop l.val).state = .regulating → f.mode < 2 → (s.loop l.val).mode = f.mode →
    ∃ t, exec (.loopForceDue l) s = .next t ∧ t.loop l.val = { s.loop l.val with force := none, chargeHold := false, setPoint := setCode s l.val (decide (f.mode = 0)) (s.loop l.val).irange (s.loop l.val).vrange (f32 f.value) } ∧
      f.due ≤ t.clk.time ∧ (∀ k, k ≠ l.val → t.loop k = s.loop k) ∧
      t = { s with clk := { s.clk with time := t.clk.time }, lp := { s.lp with loop := t.lp.loop } }) ∧
  (∀ (l : LoopId) (s : State) (f : ForcePending), (s.loop l.val).force = some f → (s.loop l.val).state = .stopped → (s.loop l.val).isOpen = true → f.mode ≤ 2 →
    ∃ t, exec (.loopForceDue l) s = .next t ∧ (t.loop l.val).force = none ∧ (t.loop l.val).state = .regulating ∧ (t.loop l.val).mode = f.mode ∧
      (f.mode < 2 → (t.loop l.val).setPoint = setCode s l.val (decide (f.mode = 0)) (s.loop l.val).irange (s.loop l.val).vrange (f32 f.value)) ∧
      (f.mode = 2 → (t.loop l.val).isOpen = true ∧ (t.loop l.val).measure = none) ∧
      (f.mode < 2 → (s.loop l.val).stage ≠ 2 → (t.loop l.val).isOpen = true ∧ (t.loop l.val).measure.isSome = true) ∧
      (f.mode < 2 → (s.loop l.val).stage = 2 → (t.loop l.val).isOpen = false) ∧ f.due ≤ t.clk.time ∧
      (∀ k, (k < l.val ∨ l.val + (s.loop l.val).gang ≤ k) → k ≠ l.val → t.loop k = s.loop k) ∧
      t = { s with free := t.free, clk := { s.clk with time := t.clk.time }, lp := { s.lp with loop := t.lp.loop } }) ∧
  (∀ (l : LoopId) (s : State) (f : ForcePending), (s.loop l.val).force = some f → f.mode = 3 →
    ((s.loop l.val).state = .regulating ∨ (s.loop l.val).state = .settling ∨ (s.loop l.val).state = .stopped) →
    ∃ t, exec (.loopForceDue l) s = .next t ∧ (t.loop l.val).force = none ∧ (t.loop l.val).state = .stopped ∧ (t.loop l.val).declared = .primary ∧
      (t.loop l.val).isOpen = (if (s.loop l.val).stopHold then (s.loop l.val).isOpen else true) ∧
      ((s.loop l.val).stopHold = true → (t.loop l.val).demand = (s.loop l.val).demand) ∧ (t.loop l.val).change = none ∧
      (∀ k, (k < l.val ∨ l.val + (s.loop l.val).gang ≤ k) → k ≠ l.val → t.loop k = s.loop k) ∧
      t = { s with free := t.free, clk := { s.clk with time := t.clk.time }, mb := t.mb, fw := { s.fw with current := t.fw.current }, pins := { s.pins with dac := t.pins.dac }, lp := { s.lp with loop := t.lp.loop }, harv := t.harv, link := t.link, flt := { s.flt with block := t.flt.block, waiting := t.flt.waiting } }) ∧
  (∀ (l : LoopId) (s : State), (s.loop l.val).force = none ∨ (s.loop l.val).state = .frozen → exec (.loopForceDue l) s = .next s) ∧
  (∀ (l : LoopId) (v : Int) (s : State) (f : ForcePending), (s.loop l.val).measure = some f →
    ∃ t, exec (.loopStartMeasured l v) s = .next t ∧ (t.loop l.val).measure = none ∧ (t.loop l.val).isOpen = false ∧
      (t.loop l.val).volt.integ = (t.loop l.val).demand * 65536 ∧ (t.loop l.val).curr.integ = (t.loop l.val).demand * 65536 ∧
      t.clk.time = max s.clk.time (f.due + 3 * loopPeriod l.val) ∧
      (∀ k, (k < l.val ∨ l.val + (s.loop l.val).gang ≤ k) → k ≠ l.val → t.loop k = s.loop k) ∧
      t = { s with free := t.free, clk := { s.clk with time := t.clk.time }, lp := { s.lp with loop := t.lp.loop } }) ∧
  (∀ (l : LoopId) (v : Int) (s : State), (s.loop l.val).measure = none → exec (.loopStartMeasured l v) s = .next s)

/-- Gain tables, coefficient sets and regions (R283 to R286, R288, R289, R292, R295, R296, R309 to R313). GAIN_TABLE LOAD
writes all 17 points in every bed named, READ answers them. COEF_SWAP stages sets without touching the ACTIVE ones, leaves
swaps pending, and reads the four buffers; two swaps without staging restore the sets. REGION_SET defines the table, writes
a region's sets and reads the state; a swap by the host is refused while regions are enabled, and every one of these commands
while calibration holds a loop. -/
def Obligations.EngineTables : Prop :=
  (∀ (s : State) (c : Current), Picked s 0x0406 c → par c 0 ≠ 0 → 1 ≤ par c 1 → par c 1 ≤ 31 → par c 2 = 0 →
    ∃ u t, exec .gainTableLoad s = .next t ∧ Answered c 0 0 [] u t ∧ u = { s with lp := { s.lp with gain := u.lp.gain } } ∧
      (∀ b, b < 16 → (par c 0).testBit b = true → ∀ i, i < 17 → gainPoint u b (par c 1) i = par c (3 + i)) ∧
      (∀ b i t', b < 16 → i < 17 → t' ≤ 31 → ((par c 0).testBit b = false ∨ t' ≠ par c 1) → gainPoint u b t' i = gainPoint s b t' i)) ∧
  (∀ (s : State) (c : Current), Picked s 0x0406 c → par c 1 = 0 → par c 0 ≠ 0 → par c 2 = 0 →
    ∃ t, exec .gainTableLoad s = .next t ∧ Answered c 0x12 1 [] s t) ∧
  (∀ (s : State) (c : Current) (b : Nat), Picked s 0x0406 c → bedMask (par c 0) = [b] → par c 1 ≤ 31 → par c 2 = 1 →
    ∃ t, exec .gainTableRead s = .next t ∧ Answered c 0 0 ((List.range 17).map (fun i => w16 (gainPoint s b (par c 1) i))) s t) ∧
  (∀ (s : State) (b k : Nat), gainPoint s b 0 k = 16384) ∧ (∀ (s : State) (b y : Nat), gainAt s b 0 y = 16384) ∧
  (∀ (s : State) (b t y : Nat), y < 2 ^ 15 → gainAt s b t y = gainPoint s b t 0) ∧
  (∀ (s : State) (c : Current), Picked s 0x0408 c → par c 2 = 0 → LoopsNamed c → 1 ≤ par c 3 → par c 3 ≤ 3 →
    (∀ k, 4 ≤ k → k < 9 → par c k = 0) → firstBad (needSet c 9 (bit (par c 3) 0)) = none → firstBad (needSet c 25 (bit (par c 3) 1)) = none →
    (∀ l ∈ loopRange c 0, (s.loop l).state ≠ .ganged ∧ LoopReady s l) →
    ∃ u t, exec .coefSwapStage s = .next t ∧ Answered c 0 0 [w16 (par c 1), 0, 0, 0, 0, 0] u t ∧ u = { s with lp := { s.lp with loop := u.lp.loop } } ∧
      (∀ l ∈ loopRange c 0, u.loop l = { s.loop l with vStaged := if bit (par c 3) 0 then some (setOf c 9) else (s.loop l).vStaged, iStaged := if bit (par c 3) 1 then some (setOf c 25) else (s.loop l).iStaged }) ∧
      (∀ l, l ∉ loopRange c 0 → u.loop l = s.loop l)) ∧
  (∀ (s : State) (c : Current) (due : Nat) (words : List Word), Picked s 0x0408 c → par c 2 = 1 → LoopsNamed c → 1 ≤ par c 3 → par c 3 ≤ 3 → WhenFits c 4 →
    (∀ l ∈ loopRange c 0, (s.loop l).state ≠ .ganged ∧ LoopReady s l ∧ (s.loop l).regions.enable = false) →
    due = (if par c 4 = 1 then par64 c 5 else s.clk.time) →
    words = w16 (par c 1) :: w16 (b2n ((loopRange c 0).any (fun l => (s.loop l).swap.isSome))) :: toWords 4 (dueBoundary s (par c 0) due) →
    due ≤ dueBoundary s (par c 0) due ∧
    ∃ u t, exec .coefSwapSwap s = .next t ∧ (par c 4 = 1 → Answered c 0 0 words u t) ∧ (par c 4 = 0 → Waits c .coefSwap words u t) ∧
      u = { s with lp := { s.lp with loop := u.lp.loop } } ∧
      (∀ l ∈ loopRange c 0, u.loop l = { s.loop l with swap := some { due := due, volt := bit (par c 3) 0, curr := bit (par c 3) 1, cause := 1, region := 0xFF } }) ∧
      (∀ l, l ∉ loopRange c 0 → u.loop l = s.loop l)) ∧
  (∀ (s : State) (c : Current), Picked s 0x0408 c → par c 2 = 1 → LoopsNamed c → 1 ≤ par c 3 → par c 3 ≤ 3 →
    (∀ k, 4 ≤ k → k < 9 → par c k = 0) → (∀ l ∈ loopRange c 0, (s.loop l).state ≠ .ganged ∧ LoopReady s l) →
    (∃ l ∈ loopRange c 0, (s.loop l).regions.enable = true) → ∃ t, exec .coefSwapSwap s = .next t ∧ Answered c 0x13 10 [] s t) ∧
  (∀ (s : State) (c : Current) (due : Nat) (words : List Word), Picked s 0x0408 c → par c 2 = 2 → LoopsNamed c → 1 ≤ par c 3 → par c 3 ≤ 3 → WhenFits c 4 →
    firstBad (needSet c 9 (bit (par c 3) 0)) = none → firstBad (needSet c 25 (bit (par c 3) 1)) = none →
    (∀ l ∈ loopRange c 0, (s.loop l).state ≠ .ganged ∧ LoopReady s l ∧ (s.loop l).regions.enable = false) →
    due = (if par c 4 = 1 then par64 c 5 else s.clk.time) →
    words = w16 (par c 1) :: w16 (b2n ((loopRange c 0).any (fun l => (s.loop l).swap.isSome))) :: toWords 4 (dueBoundary s (par c 0) due) →
    ∃ u t, exec .coefSwapStageSwap s = .next t ∧ (par c 4 = 1 → Answered c 0 0 words u t) ∧ (par c 4 = 0 → Waits c .coefSwap words u t) ∧
      u = { s with lp := { s.lp with loop := u.lp.loop } } ∧
      (∀ l ∈ loopRange c 0, u.loop l = { s.loop l with vStaged := if bit (par c 3) 0 then some (setOf c 9) else (s.loop l).vStaged, iStaged := if bit (par c 3) 1 then some (setOf c 25) else (s.loop l).iStaged, swap := some { due := due, volt := bit (par c 3) 0, curr := bit (par c 3) 1, cause := 1, region := 0xFF } }) ∧
      (∀ l, l ∉ loopRange c 0 → u.loop l = s.loop l)) ∧
  (∀ (s : State) (c : Current), Picked s 0x0408 c → par c 2 = 3 → LoopsNamed c → par c 1 = 1 → 1 ≤ par c 3 → par c 3 ≤ 3 →
    (∀ k, 4 ≤ k → k < 9 → par c k = 0) → (s.loop (par c 0)).state ≠ .ganged → LoopReady s (par c 0) →
    ∃ t, exec .coefSwapRead s = .next t ∧ Answered c 0 0
      (setWords ((s.loop (par c 0)).vActive.getD (factorySet (par c 0) true)) ++ setWords ((s.loop (par c 0)).vStaged.getD (factorySet (par c 0) true)) ++
       setWords ((s.loop (par c 0)).iActive.getD (factorySet (par c 0) false)) ++ setWords ((s.loop (par c 0)).iStaged.getD (factorySet (par c 0) false)) ++
       [w16 (b2n (s.loop (par c 0)).swap.isSome)]) s t) ∧
  (∀ (s : State) (c : Current), Picked s 0x0408 c → par c 2 = 3 → LoopsNamed c → par c 1 = 1 → 1 ≤ par c 3 → par c 3 ≤ 3 →
    (∀ k, 4 ≤ k → k < 9 → par c k = 0) → (s.loop (par c 0)).state ≠ .ganged → calHoldsLoop s (par c 0) = true →
    ∃ t, exec .coefSwapRead s = .next t ∧ Answered c 0x13 5 [] s t) ∧
  (∀ (s : State) (l t1 t2 : Nat) (w : Swap), w.cause = 1 → ((doSwap (doSwap s l t1 w) l t2 w).loop l).vActive = (s.loop l).vActive ∧
    ((doSwap (doSwap s l t1 w) l t2 w).loop l).vStaged = (s.loop l).vStaged ∧ ((doSwap (doSwap s l t1 w) l t2 w).loop l).iActive = (s.loop l).iActive ∧
    ((doSwap (doSwap s l t1 w) l t2 w).loop l).iStaged = (s.loop l).iStaged) ∧
  (∀ (s : State) (c : Current), Picked s 0x0407 c → par c 2 = 0 → LoopsNamed c →
    par c 3 ≤ 1 → par c 4 ≤ 2 → 1 ≤ par c 5 → par c 5 ≤ 8 → f32Finite (parF c 6) = true → (dec 0 0).le (f32 (parF c 6)) = true →
    (∀ i, 1 ≤ i → i < par c 5 → f32Finite (parF c (6 + 2 * i)) = true ∧ (2 ≤ i → (f32 (parF c (6 + 2 * (i - 1)))).lt (f32 (parF c (6 + 2 * i))) = true)) →
    (∀ k, 6 + 2 * par c 5 ≤ k → k < 22 → par c k = 0) → (∀ l ∈ loopRange c 0, (s.loop l).state ≠ .ganged ∧ LoopReady s l) →
    ∃ u t n, exec .regionSetDefine s = .next t ∧ Answered c 0 0 [w16 (par c 1), w16 (b2n n)] u t ∧ u = { s with lp := { s.lp with loop := u.lp.loop } } ∧
      (n = true ↔ par c 3 = 1 ∧ ∃ l ∈ loopRange c 0, (s.loop l).swap.isSome = true) ∧
      (∀ l ∈ loopRange c 0, ∀ x v, x = s.loop l → v = varVolt x (par c 4) →
        u.loop l = { x with swap := if par c 3 = 1 then none else x.swap, regionSwap := (u.loop l).regionSwap, regions := { x.regions with enable := decide (par c 3 = 1), var := par c 4, count := par c 5, bounds := (u.loop l).regions.bounds, hyst := spanCode s l v x.irange x.vrange (f32 (parF c 6)) } } ∧
        (∀ i, 1 ≤ i → i < par c 5 → boundAt (u.loop l).regions i = setCode s l v x.irange x.vrange (f32 (parF c (6 + 2 * i)))) ∧
        (par c 3 = 1 → x.regions.enable = false → (u.loop l).regionSwap = some { due := s.clk.time, volt := true, curr := true, cause := 4, region := 0xFE }) ∧
        (par c 3 = 0 → x.regions.enable = true → (u.loop l).regionSwap = some { due := s.clk.time, volt := true, curr := true, cause := 4, region := 0xFF }) ∧
        (par c 3 = 1 → x.regions.enable = true → par c 5 ≤ x.regions.cur → (u.loop l).regionSwap = some { due := s.clk.time, volt := true, curr := true, cause := 2, region := par c 5 - 1 }) ∧
        (par c 3 = 1 → x.regions.enable = true → x.regions.cur < par c 5 → (u.loop l).regionSwap = x.regionSwap) ∧
        (par c 3 = 0 → x.regions.enable = false → (u.loop l).regionSwap = x.regionSwap)) ∧
      (∀ l, l ∉ loopRange c 0 → u.loop l = s.loop l)) ∧
  (∀ (s : State) (c : Current), Picked s 0x0407 c → par c 2 = 1 → LoopsNamed c →
    par c 3 ≤ 7 → 1 ≤ par c 4 → par c 4 ≤ 3 → firstBad (needSet c 5 (bit (par c 4) 0)) = none → firstBad (needSet c 21 (bit (par c 4) 1)) = none →
    (∀ l ∈ loopRange c 0, (s.loop l).state ≠ .ganged ∧ LoopReady s l) →
    ∃ u t, exec .regionSetWrite s = .next t ∧ Answered c 0 0 [w16 (par c 1)] u t ∧ u = { s with lp := { s.lp with loop := u.lp.loop } } ∧
      (∀ l ∈ loopRange c 0, u.loop l = { s.loop l with regionSwap := (u.loop l).regionSwap, regions := { (s.loop l).regions with volt := (u.loop l).regions.volt, curr := (u.loop l).regions.curr } } ∧
        (∀ v, regionSet u l (par c 3) v = if bit (par c 4) (if v then 0 else 1) then setOf c (if v then 5 else 21) else regionSet s l (par c 3) v) ∧
        (∀ r v, r ≠ par c 3 → regionSet u l r v = regionSet s l r v) ∧
        ((s.loop l).regions.enable = true → (s.loop l).inUse = some (par c 3) → (s.loop l).regionSwap = none →
          (u.loop l).regionSwap = some { due := s.clk.time, volt := bit (par c 4) 0, curr := bit (par c 4) 1, cause := 3, region := par c 3 }) ∧
        ((s.loop l).regions.enable = false ∨ (s.loop l).inUse ≠ some (par c 3) → (u.loop l).regionSwap = (s.loop l).regionSwap)) ∧
      (∀ l, l ∉ loopRange c 0 → u.loop l = s.loop l)) ∧
  (∀ (s : State) (c : Current), Picked s 0x0407 c → par c 2 = 2 → LoopsNamed c → par c 1 = 1 → (s.loop (par c 0)).state ≠ .ganged → LoopReady s (par c 0) →
    ∃ t, exec .regionSetRead s = .next t ∧ Answered c 0 0
      ([w16 (b2n (s.loop (par c 0)).regions.enable), w16 (s.loop (par c 0)).regions.var, w16 (s.loop (par c 0)).regions.count,
        w16 (s.loop (par c 0)).regions.cur, w16 (b2n (s.loop (par c 0)).regions.known)] ++
       [1, 2, 3, 4, 5, 6, 7].map (fun i => wInt (boundAt (s.loop (par c 0)).regions i)) ++ [wInt (s.loop (par c 0)).regions.hyst]) s t)

/-- The arithmetic of a law (R245, R279 to R281). Whatever the error, the integrator lies within the limits of the set in
use after an evaluation and after tracking, and so does the demand; the saturation flags of the sample before hold the
integrator; a start presets both laws. -/
def Obligations.LawArithmetic : Prop :=
  (∀ (s : State) (l : Nat) (volt primary : Bool) (r x : Int), (activeSet s l volt).uMin ≤ (activeSet s l volt).uMax →
    (activeSet s l volt).uMin ≤ (evalLaw s l volt primary r x).1 ∧ (evalLaw s l volt primary r x).1 ≤ (activeSet s l volt).uMax ∧
    (activeSet s l volt).uMin * 65536 ≤ (evalLaw s l volt primary r x).2.integ ∧
    (evalLaw s l volt primary r x).2.integ ≤ (activeSet s l volt).uMax * 65536 ∧ (evalLaw s l volt primary r x).2.fresh = false) ∧
  (∀ (s : State) (l : Nat) (volt primary : Bool) (r x : Int) (w : Law), w = (if volt then (s.loop l).volt else (s.loop l).curr) →
    w.satHi = true → (activeSet s l volt).uMin * 65536 ≤ w.integ → w.integ ≤ (activeSet s l volt).uMax * 65536 →
    (evalLaw s l volt primary r x).2.integ ≤ w.integ) ∧
  (∀ (s : State) (l : Nat) (volt primary : Bool) (r x : Int) (w : Law), w = (if volt then (s.loop l).volt else (s.loop l).curr) →
    w.satLo = true → (activeSet s l volt).uMin * 65536 ≤ w.integ → w.integ ≤ (activeSet s l volt).uMax * 65536 →
    w.integ ≤ (evalLaw s l volt primary r x).2.integ) ∧
  (∀ (k : CoefSet) (shift : Nat) (u own : Int) (w : Law), k.uMin ≤ k.uMax →
    k.uMin * 65536 ≤ (trackLaw k shift u own w).integ ∧ (trackLaw k shift u own w).integ ≤ k.uMax * 65536 ∧
    (trackLaw k shift u own w).satHi = w.satHi ∧ (trackLaw k shift u own w).satLo = w.satLo ∧ (trackLaw k shift u own w).d = w.d) ∧
  (∀ (u : Int) (x : LoopState), (presetLaws u x).volt.integ = u * 65536 ∧ (presetLaws u x).curr.integ = u * 65536 ∧ (presetLaws u x).volt.d = 0 ∧
    (presetLaws u x).volt.satHi = false ∧ (presetLaws u x).volt.satLo = false ∧ (presetLaws u x).demand = u) ∧
  (∀ (v : Int), sat v 16 = max (-32768) (min 32767 v)) ∧ (∀ (y : Int), rsh y 0 = y) ∧ (∀ (y : Int), rsh y 1 = (y + 1) / 2)

/-- Profiles, waveforms and sines (R297 to R303, R306 to R310, R314 to R317). A start gives each loop its source, its tag
and one start time; a load fills a waveform segment; a run that has met its end keeps the loop's set-point as DC, or takes
back the one before it, and ends its tag; a jump, change or stop waits in the generator. A profile starts where the
set-point stands and ends on its target; a jump is taken at the first segment boundary two native samples on; a sine's
set-point is OFFSET plus the ramped amplitude times the sine of its phase, which a change without a phase keeps. -/
def Obligations.Generators : Prop :=
  (∀ (s : State) (c : Current), Picked s 0x0409 c → LoopsNamed c → f32Finite (parF c 2) = true →
    (∀ k, k = 4 ∨ k = 6 ∨ k = 8 → f32Finite (parF c k) = true ∧ (dec 0 0).lt (f32 (parF c k)) = true) → StartFits c 10 → par c 15 < 16 →
    (∀ p ∈ profilePlans s c (loopRange c 0), p.2.nj ≤ 0xFFFFFFFF ∧ p.2.na ≤ 0xFFFFFFFF ∧ p.2.nv ≤ 0xFFFFFFFF) → TagsFree s c (par c 1) →
    (∀ l ∈ loopRange c 0, SourceReady s l ∧ inNominal s l (primaryVolt (s.loop l).mode) (s.loop l).irange (s.loop l).vrange (f32 (parF c 2)) = true) →
    ∃ (u t : State) (st : BurstStart) (r : Nat → Nat → ProfileRun), exec .profileMove s = .next t ∧ StartAsked c s 10 (par c 15 % 4) ((par c 15).testBit 2) st ∧
      SourcesStarted c 0x0409 (fun l tag => .profile (r l tag)) s u ∧
      Answered c 1 0 (w16 (par c 1) :: toWords 4 (startTicks st) ++ [c.tag] ++ toWords 2 (profileLen (r (par c 0) c.tag.toNat))) u t ∧
      (∀ l tag, (r l tag).tag = tag ∧ (r l tag).ring = c.ring.toNat ∧ (r l tag).start = st ∧ (r l tag).begun = false ∧ (r l tag).k = 0 ∧
        (r l tag).target = profileTarget s c l * 2 ^ 48 ∧ (r l tag).p = (s.loop l).setPoint * 2 ^ 48 ∧ (r l tag).v = 0 ∧ (r l tag).a = 0)) ∧
  (∀ (s : State) (c : Current), Picked s 0x0409 c → LoopsNamed c → par c 1 = 1 → f32Finite (parF c 2) = true →
    (∀ k, k = 4 ∨ k = 6 ∨ k = 8 → f32Finite (parF c k) = true ∧ (dec 0 0).lt (f32 (parF c k)) = true) → StartFits c 10 → par c 15 < 16 →
    (∀ p ∈ profilePlans s c (loopRange c 0), p.2.nj ≤ 0xFFFFFFFF ∧ p.2.na ≤ 0xFFFFFFFF ∧ p.2.nv ≤ 0xFFFFFFFF) → TagsFree s c 1 →
    inNominal s (par c 0) (primaryVolt (s.loop (par c 0)).mode) (s.loop (par c 0)).irange (s.loop (par c 0)).vrange (f32 (parF c 2)) = true →
    (s.loop (par c 0)).state = .regulating → (s.loop (par c 0)).mode ≠ 2 → chargeOutside s (par c 0) = false → (s.loop (par c 0)).source ≠ .dc →
    ∃ t, exec .profileMove s = .next t ∧ Answered c 0x13 4 [] s t) ∧
  (∀ (l : LoopId) (s : State) (r : ProfileRun), (s.loop l.val).source = .profile r → r.begun = true → r.k = profileLen r →
    ∃ t e, exec (.profileMoveEnd l) s = .next t ∧ t.loop l.val = { s.loop l.val with source := .dc, rate := 0, accel := 0 } ∧
      Ended e t ∧ e.tag = r.tag ∧ e.ring = r.ring ∧ e.status = 0 ∧ e.cause = 0 ∧ e.steps = r.k ∧ e.output = 2 ∧ e.time = (s.loop l.val).lastSample ∧
      (∀ k, k ≠ l.val → t.loop k = s.loop k) ∧
      t = { s with fw := { s.fw with progress := t.fw.progress }, lp := { s.lp with loop := t.lp.loop }, harv := t.harv, flt := { s.flt with waiting := t.flt.waiting } }) ∧
  (∀ (l : LoopId) (s : State), (∀ r, (s.loop l.val).source = .profile r → r.begun = false ∨ r.k ≠ profileLen r) → exec (.profileMoveEnd l) s = .next s) ∧
  (∀ (s : State) (l t : Nat) (r : ProfileRun), (s.loop l).source = .profile r → r.begun = false → started r.start t = true →
    profileAdvance s l t = s.modLoop l (fun x => { x with source := .profile { r with begun := true }, setPoint := profileCode r.p, rate := profileCode r.v, accel := profileCode r.a })) ∧
  (∀ (s : State) (l t : Nat) (r : ProfileRun) (v : Int), (s.loop l).source = .profile r → r.begun = true → r.k + 1 = profileLen r → started r.start t = true →
    r.target = v * 2 ^ 48 → -32767 ≤ v → v ≤ 32767 →
    ((profileAdvance s l t).loop l).setPoint = v ∧ ((profileAdvance s l t).loop l).rate = 0 ∧ ((profileAdvance s l t).loop l).accel = 0) ∧
  (∀ (s : State) (c : Current), Picked s 0x040A c → par c 0 < 1024 → 64 * par32 c 1 + 2 * par32 c 3 ≤ patternBytes s → 16 ≤ par32 c 3 →
    par32 c 3 ≤ 1048576 → par c 5 = 0 → tagInUse s c.tag.toNat = false → waveListed s (par c 0) = false →
    blocksUsed s (par c 0) + waveBlocks (par32 c 3) ≤ 32768 →
    ∃ u t, exec .waveLoad s = .next t ∧ Answered c 1 0 [] u t ∧ u.waveSeg (par c 0) = [] ∧ (∀ g, g ≠ par c 0 → u.waveSeg g = s.waveSeg g) ∧
      u.lp.waveLoads = (s.lp.waveLoads.map (fun l => if l.seg = par c 0 then { l with void := true } else l)) ++
        [{ tag := c.tag.toNat, ring := c.ring.toNat, seg := par c 0, addr := 64 * par32 c 1, samples := par32 c 3, void := false }] ∧
      Begun c.tag.toNat 0x040A c.ring.toNat 0 s u ∧
      u = { s with fw := { s.fw with progress := u.fw.progress }, lp := { s.lp with wave := u.lp.wave, waveLoads := u.lp.waveLoads }, harv := u.harv }) ∧
  (∀ (s : State) (c : Current), Picked s 0x040A c → par c 0 < 1024 → (par c 5).testBit 0 = true → tagInUse s c.tag.toNat = false → waveListed s (par c 0) = false →
    ∃ u t, exec .waveLoad s = .next t ∧ Answered c 1 0 [] u t ∧ u.waveSeg (par c 0) = [] ∧ (∀ g, g ≠ par c 0 → u.waveSeg g = s.waveSeg g) ∧
      u.lp.waveLoads = s.lp.waveLoads.map (fun l => if l.seg = par c 0 then { l with void := true } else l) ∧
      Ended (workEnd s c.tag.toNat c.ring.toNat 0 0 0 0 1 0 0 0) t ∧
      u = { s with fw := { s.fw with progress := u.fw.progress }, lp := { s.lp with wave := u.lp.wave, waveLoads := u.lp.waveLoads }, harv := u.harv, flt := { s.flt with waiting := u.flt.waiting } }) ∧
  (∀ (ue : Bool) (s : State) (l : WaveLoad) (r : List WaveLoad), s.lp.waveLoads = l :: r →
    ∃ t, exec (.waveLoadDone ue) s = .next t ∧ t.lp.waveLoads = r ∧ (∀ g, g ≠ l.seg → t.waveSeg g = s.waveSeg g) ∧
      (ue = true → t.waveSeg l.seg = s.waveSeg l.seg ∧ Ended (workEnd s l.tag l.ring 0x12 0x8008 0 0 1 0 0 0) t) ∧
      (ue = false → Ended (workEnd s l.tag l.ring 0 0 0 0 1 0 0 0) t) ∧ (l.void = true → t.waveSeg l.seg = s.waveSeg l.seg) ∧
      (ue = false → l.void = false → (t.waveSeg l.seg).length = l.samples ∧ ∀ i, i < l.samples → (t.waveSeg l.seg).getD i 0 = intW (w16 (dramWord s (l.addr + 2 * i)))) ∧
      t = { s with fw := { s.fw with progress := t.fw.progress }, lp := { s.lp with wave := t.lp.wave, waveLoads := r }, harv := t.harv, flt := { s.flt with waiting := t.flt.waiting } }) ∧
  (∀ (ue : Bool) (s : State), s.lp.waveLoads = [] → exec (.waveLoadDone ue) s = .next s) ∧
  (∀ (s : State) (c : Current), Picked s 0x040B c → par c 2 = 0 → par c 3 = 0 → LoopsNamed c → StartFits c 4 → par c 9 < 32 → f32Finite (parF c 12) = true →
    1 ≤ par c 14 → par c 14 ≤ 26 →
    (∀ i, i < par c 14 → par c (15 + 4 * i) < 1024 ∧ s.waveSeg (par c (15 + 4 * i)) ≠ [] ∧ 1 ≤ par32 c (16 + 4 * i) ∧ par32 c (16 + 4 * i) ≤ 2 ^ 31 ∧ par c (18 + 4 * i) ≠ 0) →
    TagsFree s c (par c 1) →
    (∀ l ∈ loopRange c 0, SourceReady s l ∧ inNominal s l (primaryVolt (s.loop l).mode) (s.loop l).irange (s.loop l).vrange (f32 (parF c 12)) = true) →
    ∃ u t st, exec .waveRunStart s = .next t ∧ StartAsked c s 4 (par c 9 % 4) ((par c 9).testBit 2) st ∧
      Answered c 1 0 (w16 (par c 1) :: toWords 4 (startTicks st) ++ [c.tag]) u t ∧
      SourcesStarted c 0x040B (fun l tag => .wave
        { tag := tag, ring := c.ring.toNat, start := st, entries := waveEntries c, passes := par c 10, scale := Frac.ofInt (intW (w16 (par c 11))), offset := offsetCode s l (parF c 12), segEvents := (par c 9).testBit 4, restore := if (par c 9).testBit 3 then some (Frac.ofInt (s.loop l).setPoint) else none, entry := 0, rep := 0, pass := 0, n := 0, f := 0, native := 0, instances := 0, prev := [], jumped := none, jump := none, stopping := false, ended := false }) s u) ∧
  (∀ (s : State) (c : Current), Picked s 0x040B c → par c 2 = 1 → LoopsNamed c →
    (∀ l ∈ loopRange c 0, LoopReady s l ∧ (s.loop l).state ≠ .cloche ∧ (s.loop l).state ≠ .ganged ∧ ∃ r, (s.loop l).source = .wave r ∧ par c 3 < r.entries.length) →
    ∃ u t, exec .waveRunJump s = .next t ∧ Answered c 0 0 [w16 (par c 1)] u t ∧
      (∀ l ∈ loopRange c 0, ∀ r, (s.loop l).source = .wave r → u.loop l = { s.loop l with source := .wave { r with jump := some (par c 3, none, false) } }) ∧
      (∀ l, l ∉ loopRange c 0 → u.loop l = s.loop l) ∧ u = { s with lp := { s.lp with loop := u.lp.loop } }) ∧
  (∀ (r : WaveRun) (size target nr : Nat) (d : Bool), waveNext r ≠ none → r.jump = some (target, some nr, d) →
    (nr + 2 ≤ r.native + size - 1 → (waveBoundary size r).entry = target ∧ (waveBoundary size r).rep = 0 ∧ (waveBoundary size r).n = 0 ∧
      (waveBoundary size r).f = r.f ∧ (waveBoundary size r).jump = none ∧ (waveBoundary size r).jumped = some d) ∧
    (r.native + size - 1 < nr + 2 → (waveBoundary size r).jump = some (target, some nr, true) ∧ (waveBoundary size r).jumped = none ∧
      waveNext r = some ((waveBoundary size r).entry, (waveBoundary size r).rep, (waveBoundary size r).pass))) ∧
  (∀ (s : State) (c : Current), Picked s 0x040B c → par c 2 = 2 → par c 3 = 0 → LoopsNamed c →
    (∀ l ∈ loopRange c 0, LoopReady s l ∧ (s.loop l).state ≠ .cloche ∧ (s.loop l).state ≠ .ganged ∧ ∃ r, (s.loop l).source = .wave r) →
    ∃ u t, exec .waveRunStop s = .next t ∧ Answered c 0 0 [w16 (par c 1)] u t ∧
      (∀ l ∈ loopRange c 0, ∀ r, (s.loop l).source = .wave r → u.loop l = { s.loop l with source := .wave { r with stopping := true } }) ∧
      (∀ l, l ∉ loopRange c 0 → u.loop l = s.loop l) ∧ u = { s with lp := { s.lp with loop := u.lp.loop } }) ∧
  (∀ (s : State) (l t : Nat) (r : WaveRun), (s.loop l).source = .wave r → r.ended = false → r.stopping = true →
    waveAdvance s l t = s.modLoop l (fun x => { x with source := .wave { r with ended := true }, rate := 0, accel := 0, setPoint := (restoreCode r.restore).getD x.setPoint })) ∧
  (∀ (l : LoopId) (s : State) (r : WaveRun), (s.loop l.val).source = .wave r → r.ended = true →
    ∃ t e, exec (.waveRunEnd l) s = .next t ∧ t.loop l.val = { s.loop l.val with source := .dc, rate := 0, accel := 0, setPoint := (restoreCode r.restore).getD (s.loop l.val).setPoint } ∧
      Ended e t ∧ e.tag = r.tag ∧ e.ring = r.ring ∧ e.status = 0 ∧ e.cause = 0 ∧ e.steps = r.instances ∧ e.output = (if r.restore.isSome then 1 else 2) ∧
      e.time = (s.loop l.val).lastSample ∧ (∀ k, k ≠ l.val → t.loop k = s.loop k) ∧
      t = { s with fw := { s.fw with progress := t.fw.progress }, lp := { s.lp with loop := t.lp.loop }, harv := t.harv, flt := { s.flt with waiting := t.flt.waiting } }) ∧
  (∀ (l : LoopId) (s : State), (∀ r, (s.loop l.val).source = .wave r → r.ended = false) → exec (.waveRunEnd l) s = .next s) ∧
  (∀ (s : State) (c : Current), Picked s 0x040C c → par c 2 = 0 → LoopsNamed c → (par c 0 < 512 → par32 c 3 ≤ 2748779069) →
    f32Finite (parF c 7) = true → (dec 0 0).le (f32 (parF c 7)) = true → f32Finite (parF c 9) = true → StartFits c 15 → par c 20 < 32 →
    (bit (par c 20) 1 = true → s.link.syncValid = true) → TagsFree s c (par c 1) →
    (∀ l ∈ loopRange c 0, SourceReady s l ∧ inNominal s l (primaryVolt (s.loop l).mode) (s.loop l).irange (s.loop l).vrange ((f32 (parF c 9)).add (f32 (parF c 7))) = true ∧
      inNominal s l (primaryVolt (s.loop l).mode) (s.loop l).irange (s.loop l).vrange ((f32 (parF c 9)).sub (f32 (parF c 7))) = true) →
    ∃ u t st, exec .sineRunStart s = .next t ∧ StartAsked c s 15 (par c 20 / 4 % 4) ((par c 20).testBit 4) st ∧
      Answered c 1 0 (w16 (par c 1) :: toWords 4 (startTicks st) ++ [c.tag]) u t ∧
      SourcesStarted c 0x040C (fun l tag => .sine
        { tag := tag, ring := c.ring.toNat, start := st, fw := par32 c 3, phi0 := par32 c 5, epoch := if (par c 20).testBit 1 then s.link.syncEpoch else par64 c 11, amp := { base := Frac.ofInt 0, goal := ampCode s l (parF c 7), len := par c 21, gone := 0 }, offset := { base := offsetCode s l (parF c 9), goal := offsetCode s l (parF c 9), len := 0, gone := 0 }, cycles := par32 c 22, rampN := par c 21, turns := 0, phase := 0, begun := none, prev := [], change := none, past := [], stopAt := none, stopping := false, quiet := false }) s u) ∧
  (∀ (s : State) (c : Current) (tc : Nat), Picked s 0x040C c → par c 2 = 1 → LoopsNamed c → (par c 0 < 512 → par32 c 3 ≤ 2748779069) →
    f32Finite (parF c 7) = true → (dec 0 0).le (f32 (parF c 7)) = true → f32Finite (parF c 9) = true → WhenFits c 15 → par c 20 < 32 →
    (bit (par c 20) 1 = true → s.link.syncValid = true) →
    (∀ l ∈ loopRange c 0, LoopReady s l ∧ (s.loop l).state ≠ .cloche ∧ (s.loop l).state ≠ .ganged ∧ (∃ r, (s.loop l).source = .sine r) ∧
      inNominal s l (primaryVolt (s.loop l).mode) (s.loop l).irange (s.loop l).vrange ((f32 (parF c 9)).add (f32 (parF c 7))) = true ∧
      inNominal s l (primaryVolt (s.loop l).mode) (s.loop l).irange (s.loop l).vrange ((f32 (parF c 9)).sub (f32 (parF c 7))) = true) →
    tc = (if par c 15 = 1 then par64 c 16 else nextBoundary s (par c 0)) →
    ∃ u t, exec .sineRunChange s = .next t ∧ Answered c 0 0 (w16 (par c 1) :: toWords 4 tc) u t ∧
      (∀ l ∈ loopRange c 0, ∀ r, (s.loop l).source = .sine r → u.loop l = { s.loop l with source := .sine { r with change := some { tc := tc, fw := par32 c 3, absolute := (par c 20).testBit 0, phi0 := par32 c 5, amp := ampCode s l (parF c 7), offset := offsetCode s l (parF c 9), rampN := par c 21 } } }) ∧
      (∀ l, l ∉ loopRange c 0 → u.loop l = s.loop l) ∧ u = { s with lp := { s.lp with loop := u.lp.loop } }) ∧
  (∀ (s : State) (c : Current) (tc : Nat), Picked s 0x040C c → par c 2 = 2 → LoopsNamed c → WhenFits c 15 → par c 20 < 32 → (bit (par c 20) 1 = true → s.link.syncValid = true) →
    (∀ l ∈ loopRange c 0, LoopReady s l ∧ (s.loop l).state ≠ .cloche ∧ (s.loop l).state ≠ .ganged ∧ ∃ r, (s.loop l).source = .sine r) →
    tc = (if par c 15 = 1 then par64 c 16 else nextBoundary s (par c 0)) →
    ∃ u t, exec .sineRunStop s = .next t ∧ Answered c 0 0 (w16 (par c 1) :: toWords 4 tc) u t ∧
      (∀ l ∈ loopRange c 0, ∀ r, (s.loop l).source = .sine r → u.loop l = { s.loop l with source := .sine { r with stopAt := some tc } }) ∧
      (∀ l, l ∉ loopRange c 0 → u.loop l = s.loop l) ∧ u = { s with lp := { s.lp with loop := u.lp.loop } }) ∧
  (∀ (l : LoopId) (s : State) (r : SineRun) (k : SineChange), (s.loop l.val).source = .sine r → r.change = some k →
    ∃ t r', exec (.sineChangeDue l) s = .next t ∧ t.loop l.val = { s.loop l.val with source := .sine r' } ∧ r'.change = none ∧ r'.fw = k.fw ∧ r'.rampN = k.rampN ∧
      (k.absolute = true → r'.phi0 = k.phi0) ∧ (k.absolute = false → sinePhase k.fw r'.phi0 r.epoch k.tc = sinePhase r.fw r.phi0 r.epoch k.tc) ∧
      (r.stopping = true → r'.amp = r.amp) ∧ (r.stopping = false → r'.amp = rampTo r.amp k.amp k.rampN) ∧ r'.offset = rampTo r.offset k.offset k.rampN ∧
      k.tc ≤ t.clk.time ∧ (∀ n, n ≠ l.val → t.loop n = s.loop n) ∧ t = { s with clk := { s.clk with time := t.clk.time }, lp := { s.lp with loop := t.lp.loop } }) ∧
  (∀ (l : LoopId) (s : State), (∀ r, (s.loop l.val).source = .sine r → r.change = none) → exec (.sineChangeDue l) s = .next s) ∧
  (∀ (s : State) (l t : Nat) (r : SineRun), (s.loop l).source = .sine r → r.change = none → r.stopAt = none → r.begun.isSome = true → started r.start t = true →
    ((sineAdvance s l t).loop l).setPoint =
      sat ((rampValue (rampStep r.offset)).add (((rampValue (rampStep r.amp)).mul (Frac.ofInt (sineOf (sinePhase r.fw r.phi0 r.epoch t)))).div (Frac.ofInt 32768))).halfUp 16) ∧
  (∀ (l : LoopId) (s : State) (r : SineRun), (s.loop l.val).source = .sine r → r.cycles ≠ 0 → r.cycles ≤ r.turns → r.stopping = false →
    ∃ t, exec (.sineCyclesEnd l) s = .next t ∧ t.loop l.val = { s.loop l.val with source := .sine { r with stopping := true, stopAt := none, amp := rampTo r.amp (Frac.ofInt 0) r.rampN } } ∧
      (∀ n, n ≠ l.val → t.loop n = s.loop n) ∧ t = { s with lp := { s.lp with loop := t.lp.loop } }) ∧
  (∀ (l : LoopId) (s : State), (∀ r, (s.loop l.val).source = .sine r → r.cycles = 0 ∨ r.turns < r.cycles ∨ r.stopping = true) → exec (.sineCyclesEnd l) s = .next s) ∧
  (∀ (l : LoopId) (s : State) (r : SineRun), (s.loop l.val).source = .sine r → r.quiet = true →
    ∃ t e, exec (.sineRampEnd l) s = .next t ∧ (t.loop l.val).source = .dc ∧ (t.loop l.val).setPoint = (s.loop l.val).setPoint ∧
      Ended e t ∧ e.tag = r.tag ∧ e.ring = r.ring ∧ e.status = 0 ∧ e.cause = 0 ∧ e.steps = r.turns ∧ e.output = 2 ∧ e.time = (s.loop l.val).lastSample ∧
      ((∀ a ∈ s.meas.avg, a.2.lock = none) → t.loop l.val = { s.loop l.val with source := .dc, rate := 0, accel := 0 } ∧ (∀ n, n ≠ l.val → t.loop n = s.loop n) ∧
        t = { s with fw := { s.fw with progress := t.fw.progress }, lp := { s.lp with loop := t.lp.loop }, harv := t.harv, flt := { s.flt with waiting := t.flt.waiting } })) ∧
  (∀ (l : LoopId) (s : State), (∀ r, (s.loop l.val).source = .sine r → r.quiet = false) → exec (.sineRampEnd l) s = .next s)

/-- Measurement and lock-in runs (R325 to R334, R342 to R346). MEAS_CONFIG writes and reads the averagers' settings. MEAS_RUN
and LOCKIN_RUN START give each averager its run under its own tag; STOP lets what is in progress end, and ends a run with
nothing in progress at once. A window, record or lock-in window that has met its end is written with its credit and counted,
and the last one ends the run; while staging is busy it waits; a raw record without credit is lost and leaves its GAP. -/
def Obligations.MeasurementRuns : Prop :=
  (∀ (s : State) (c : Current), Picked s 0x0500 c → par c 2 % 2 = 0 → LoopsNamed c →
    par c 2 < 16 → (bit (par c 2) 1 = true ∨ bit (par c 2) 2 = true) → 1 ≤ par32 c 3 → par32 c 3 ≤ 16777216 →
    (∀ l ∈ loopRange c 0, calHoldsConv s (loopBed l) = false ∧ bedActive s (loopBed l) = true) →
    ∃ u t, exec .measConfig s = .next t ∧ Answered c 0 0 [] u t ∧ u = { s with meas := { s.meas with avg := u.meas.avg } } ∧
      (∀ l ∈ loopRange c 0, u.avg l = { s.avg l with v := bit (par c 2) 1, i := bit (par c 2) 2, minmax := bit (par c 2) 3, n := par32 c 3 }) ∧
      (∀ k, k ∉ loopRange c 0 → u.avg k = s.avg k)) ∧
  (∀ (s : State) (c : Current), Picked s 0x0500 c → par c 2 % 2 = 1 → par c 2 < 16 → LoopsNamed c → par c 1 = 1 →
    calHoldsConv s (loopBed (par c 0)) = false → bedActive s (loopBed (par c 0)) = true →
    ∃ t, exec .measConfigRead s = .next t ∧ Answered c 0 0
      (w16 (flag 1 (s.avg (par c 0)).v + flag 2 (s.avg (par c 0)).i + flag 3 (s.avg (par c 0)).minmax) :: toWords 2 (s.avg (par c 0)).n) s t) ∧
  (∀ (s : State) (c : Current), Picked s 0x0501 c → par c 0 = 0 → MeasNamed c →
    par c 4 ≤ 1 → (par c 4 = 1 → par32 c 7 = 0 ∧ 1 ≤ par c 9) → (par c 4 = 0 → par c 9 = 0) → StartFits c 10 → par c 15 < 8 →
    (par c 1 = 1 → 1 ≤ par32 c 16 ∧ par32 c 16 ≤ 16777216) → (par c 1 = 0 → par32 c 16 = 0) →
    (par c 18 = 0xFFFF ∨ (s.ring (par c 18)).state ≠ .free) → TagsFree s c (measKeys c).length →
    (∀ k ∈ measKeys c, calHoldsConv s (keyBed k) = false ∧ bedActive s (keyBed k) = true ∧ avgBusy s k = false) →
    ∃ u t st, exec .measRunStart s = .next t ∧ StartAsked c s 10 (par c 15 % 4) ((par c 15).testBit 2) st ∧
      Answered c 1 0 (w16 (measKeys c).length :: toWords 4 (startTicks st) ++ [c.tag]) u t ∧
      (∀ i, i < (measKeys c).length → u.avg ((measKeys c).getD i 0) = { s.avg ((measKeys c).getD i 0) with run := some { tag := c.tag.toNat + i, hdrRing := c.ring.toNat, ring := ringOf c (par c 18), start := st, raw := decide (par c 4 = 1), group := measKeys c, blocks := par32 c 5, gap := par32 c 7, decim := par c 9, n := par32 c 16, slot := if par c 1 = 1 then some (par c 3) else none, done := 0, skip := 0, win := none, units := 0, rawV := {}, rawI := {}, stopping := false } } ∧
        u.prog (c.tag.toNat + i) = { opcode := 0x0501, state := .running, ring := c.ring, output := 0 }) ∧
      (∀ k, k ∉ measKeys c → u.avg k = s.avg k) ∧ (∀ k, (k < c.tag.toNat ∨ c.tag.toNat + (measKeys c).length ≤ k) → u.prog k = s.prog k) ∧
      u = { s with fw := { s.fw with progress := u.fw.progress }, meas := { s.meas with avg := u.meas.avg }, harv := u.harv }) ∧
  (∀ (s : State) (c : Current), Picked s 0x0501 c → par c 0 = 1 → MeasNamed c →
    (∀ k ∈ measKeys c, calHoldsConv s (keyBed k) = false ∧ bedActive s (keyBed k) = true ∧ ∃ r, (s.avg k).run = some r ∧
      r.slot = (if par c 1 = 1 then some (par c 3) else none) ∧ (r.win ≠ none ∨ r.rawV.first ≠ none ∨ r.rawI.first ≠ none)) →
    ∃ u t, exec .measRunStop s = .next t ∧ Answered c 0 0 [] u t ∧ u = { s with meas := { s.meas with avg := u.meas.avg } } ∧
      (∀ k ∈ measKeys c, ∀ r, (s.avg k).run = some r → u.avg k = { s.avg k with run := some { r with stopping := true } }) ∧
      (∀ k, k ∉ measKeys c → u.avg k = s.avg k)) ∧
  (∀ (s : State) (c : Current) (k : Nat) (r : MeasRun), Picked s 0x0501 c → par c 0 = 1 → MeasNamed c → measKeys c = [k] →
    calHoldsConv s (keyBed k) = false → bedActive s (keyBed k) = true → (s.avg k).run = some r → r.slot = (if par c 1 = 1 then some (par c 3) else none) →
    r.win = none → r.rawV.first = none → r.rawI.first = none → r.units = 0 → r.rawV.credit = false → r.rawI.credit = false →
    ∃ u t e, exec .measRunStop s = .next t ∧ Answered c 0 0 [] u t ∧ u.avg k = { s.avg k with run := none } ∧ Ended e t ∧ e.tag = r.tag ∧ e.ring = r.hdrRing ∧
      e.status = 0 ∧ e.cause = 0 ∧ e.steps = r.done ∧ (∀ j, j ≠ k → u.avg j = s.avg j) ∧
      u = { s with fw := { s.fw with progress := u.fw.progress }, meas := { s.meas with avg := u.meas.avg }, harv := u.harv, flt := { s.flt with waiting := u.flt.waiting } }) ∧
  (∀ (s : State) (c : Current), Picked s 0x0501 c → par c 0 = 1 → MeasNamed c → (∀ k ∈ measKeys c, calHoldsConv s (keyBed k) = false ∧ bedActive s (keyBed k) = true) →
    (∃ k ∈ measKeys c, (s.avg k).run = none) → ∃ t, exec .measRunStop s = .next t ∧ Answered c 0x13 12 [] s t) ∧
  (∀ (s : State) (c : Current), Picked s 0x0502 c → par c 0 = 0 → 1 ≤ par c 2 → par c 1 + par c 2 ≤ 544 → (512 ≤ par c 1 ∨ par c 1 + par c 2 ≤ 512) →
    (par c 3 = 0xFFFF ∨ (par c 3 < 544 ∧ ∀ l ∈ loopRange c 1, loopBed l = loopBed (par c 3))) → 1 ≤ par c 4 → par c 4 ≤ 15 → 1 ≤ par c 5 → par c 5 ≤ 3 →
    1 ≤ par32 c 6 → StartFits c 10 → par c 15 < 8 → (par c 16 = 0xFFFF ∨ (s.ring (par c 16)).state ≠ .free) → TagsFree s c (par c 2) →
    (∀ l ∈ loopRange c 1, calHoldsConv s (loopBed l) = false ∧ bedActive s (loopBed l) = true ∧ avgBusy s l = false ∧
      (sineOn s (lockRef c l)).isSome = true ∧ ∃ n, lockTwice s c l = some n ∧ n ≤ 2 ^ 24) →
    ∃ u t st, exec .lockinRunStart s = .next t ∧ StartAsked c s 10 (par c 15 % 4) ((par c 15).testBit 2) st ∧
      Answered c 1 0 (w16 (par c 2) :: toWords 4 (startTicks st) ++ [c.tag]) u t ∧
      (∀ i, i < par c 2 → u.avg (par c 1 + i) = { s.avg (par c 1 + i) with lock := some { tag := c.tag.toNat + i, hdrRing := c.ring.toNat, ring := ringOf c (par c 16), start := st, group := loopRange c 1, ref := lockRef c (par c 1 + i), harmonic := par c 4, v := bit (par c 5) 0, i := bit (par c 5) 1, cycles := par32 c 6, blocks := par32 c 8, p := clog2 ((lockTwice s c (par c 1 + i)).getD 0) - 8, done := 0, phase := none, win := none, credit := false, ended := none, stopping := false } } ∧
        u.prog (c.tag.toNat + i) = { opcode := 0x0502, state := .running, ring := c.ring, output := 0 }) ∧
      (∀ k, k ∉ loopRange c 1 → u.avg k = s.avg k) ∧ (∀ k, (k < c.tag.toNat ∨ c.tag.toNat + par c 2 ≤ k) → u.prog k = s.prog k) ∧
      u = { s with fw := { s.fw with progress := u.fw.progress }, meas := { s.meas with avg := u.meas.avg }, harv := u.harv }) ∧
  (∀ (s : State) (c : Current), Picked s 0x0502 c → par c 0 = 1 → 1 ≤ par c 2 → par c 1 + par c 2 ≤ 544 → (512 ≤ par c 1 ∨ par c 1 + par c 2 ≤ 512) →
    (∀ l ∈ loopRange c 1, calHoldsConv s (loopBed l) = false ∧ bedActive s (loopBed l) = true ∧ ∃ r, (s.avg l).lock = some r ∧ (r.win ≠ none ∨ r.ended ≠ none)) →
    ∃ u t, exec .lockinRunStop s = .next t ∧ Answered c 0 0 [] u t ∧ u = { s with meas := { s.meas with avg := u.meas.avg } } ∧
      (∀ l ∈ loopRange c 1, ∀ r, (s.avg l).lock = some r → u.avg l = { s.avg l with lock := some { r with stopping := true } }) ∧
      (∀ k, k ∉ loopRange c 1 → u.avg k = s.avg k)) ∧
  (∀ (s : State) (c : Current) (r : LockRun), Picked s 0x0502 c → par c 0 = 1 → par c 2 = 1 → par c 1 < 544 →
    calHoldsConv s (loopBed (par c 1)) = false → bedActive s (loopBed (par c 1)) = true → (s.avg (par c 1)).lock = some r → r.win = none → r.ended = none → r.credit = false →
    ∃ u t e, exec .lockinRunStop s = .next t ∧ Answered c 0 0 [] u t ∧ u.avg (par c 1) = { s.avg (par c 1) with lock := none } ∧ Ended e t ∧ e.tag = r.tag ∧
      e.ring = r.hdrRing ∧ e.status = 0 ∧ e.cause = 0 ∧ e.steps = r.done ∧ (∀ j, j ≠ par c 1 → u.avg j = s.avg j) ∧
      u = { s with fw := { s.fw with progress := u.fw.progress }, meas := { s.meas with avg := u.meas.avg }, harv := u.harv, flt := { s.flt with waiting := u.flt.waiting } }) ∧
  (∀ (a : AvgId) (s : State) (k : Nat) (r : MeasRun) (w : Window), k = avgKey a → (s.avg k).run = some r → r.win = some w → w.size ≤ w.n →
    (r.units ≠ 0 → r.units = windowUnits w.size (w.chV && w.chI) ∧ stageRoom s (keyBed k) (windowUnits w.size (w.chV && w.chI)) ≠ none) →
    r.stopping = false → r.done + 1 ≠ r.blocks →
    ∃ t, exec (.measWindowEnd a) s = .next t ∧
      t.avg k = { s.avg k with run := some { r with win := none, units := 0, done := r.done + 1, skip := r.gap } } ∧
      t.prog r.tag = { s.prog r.tag with steps := r.done + 1 } ∧ (∀ j, j ≠ k → t.avg j = s.avg j) ∧ (∀ j, j ≠ r.tag → t.prog j = s.prog j) ∧
      t = { s with fw := { s.fw with progress := t.fw.progress }, meas := { s.meas with avg := t.meas.avg }, harv := t.harv }) ∧
  (∀ (a : AvgId) (s : State) (k : Nat) (r : MeasRun) (w : Window), k = avgKey a → (s.avg k).run = some r → r.win = some w → w.size ≤ w.n →
    (r.units ≠ 0 → r.units = windowUnits w.size (w.chV && w.chI) ∧ stageRoom s (keyBed k) (windowUnits w.size (w.chV && w.chI)) ≠ none) →
    r.rawV.credit = false → r.rawI.credit = false → (r.stopping = true ∨ r.done + 1 = r.blocks) →
    ∃ t e, exec (.measWindowEnd a) s = .next t ∧ t.avg k = { s.avg k with run := none } ∧ Ended e t ∧ e.tag = r.tag ∧ e.ring = r.hdrRing ∧ e.status = 0 ∧
      e.cause = 0 ∧ e.steps = r.done + 1 ∧ (∀ j, j ≠ k → t.avg j = s.avg j) ∧
      t = { s with fw := { s.fw with progress := t.fw.progress }, meas := { s.meas with avg := t.meas.avg }, harv := t.harv, flt := { s.flt with waiting := t.flt.waiting } }) ∧
  (∀ (a : AvgId) (s : State) (k : Nat) (r : MeasRun) (w : Window), k = avgKey a → (s.avg k).run = some r → r.win = some w → w.size ≤ w.n → r.units ≠ 0 →
    (s.ring r.ring).state ≠ .free → stageRoom s (keyBed k) (windowUnits w.size (w.chV && w.chI)) = none →
    exec (.measWindowEnd a) s = .next (s.raise 0x15 0 (keyBed k))) ∧
  (∀ (a : AvgId) (s : State), (∀ r w, (s.avg (avgKey a)).run = some r → r.win = some w → w.n < w.size) → exec (.measWindowEnd a) s = .next s) ∧
  (∀ (a : AvgId) (ch : Fin 2) (s : State) (k : Nat) (r : MeasRun) (b o : RawBuf) (x : Sample), k = avgKey a → (s.avg k).run = some r →
    b = (if ch.val = 0 then r.rawV else r.rawI) → o = (if ch.val = 0 then r.rawI else r.rawV) → b.full = true → b.first = some x →
    b.codes.length = 64 → b.credit = true → stageRoom s (keyBed k) 10 ≠ none →
    (r.done + 1 ≠ r.blocks → (r.stopping = false ∨ o.first ≠ none) → ∃ t, exec (.rawRecordClose a ch) s = .next t ∧
      t.avg k = { s.avg k with run := some (if ch.val = 0 then { r with rawV := { skipped := b.skipNext }, done := r.done + 1 } else { r with rawI := { skipped := b.skipNext }, done := r.done + 1 }) } ∧
      t.prog r.tag = { s.prog r.tag with steps := r.done + 1 } ∧ (∀ j, j ≠ k → t.avg j = s.avg j) ∧ (∀ j, j ≠ r.tag → t.prog j = s.prog j) ∧
      t = { s with fw := { s.fw with progress := t.fw.progress }, meas := { s.meas with avg := t.meas.avg }, harv := t.harv }) ∧
    (r.done + 1 = r.blocks ∨ (r.stopping = true ∧ o.first = none) → r.units = 0 → o.credit = false → ∃ t e, exec (.rawRecordClose a ch) s = .next t ∧ t.avg k = { s.avg k with run := none } ∧
      Ended e t ∧ e.tag = r.tag ∧ e.ring = r.hdrRing ∧ e.status = 0 ∧ e.cause = 0 ∧ e.steps = r.done + 1 ∧ (∀ j, j ≠ k → t.avg j = s.avg j) ∧
      t = { s with fw := { s.fw with progress := t.fw.progress }, meas := { s.meas with avg := t.meas.avg }, harv := t.harv, flt := { s.flt with waiting := t.flt.waiting } })) ∧
  (∀ (a : AvgId) (s : State) (k : Nat) (r : MeasRun) (x : Sample), k = avgKey a → (s.avg k).run = some r → r.rawV.full = true → r.rawV.first = some x →
    r.rawV.credit = false → ringDrops s r.ring = false →
    ∃ t, exec (.rawRecordClose a 0) s = .next t ∧ t.avg k = { s.avg k with run := some { r with rawV := { gap := true, skipped := min 0xFFFFFFFF (min 0xFFFFFFFF (r.rawV.skipped + r.rawV.codes.length) + r.rawV.skipNext) } } } ∧
      (∀ j, j ≠ k → t.avg j = s.avg j) ∧ t = { s with meas := { s.meas with avg := t.meas.avg } }) ∧
  (∀ (a : AvgId) (ch : Fin 2) (s : State), (∀ r, (s.avg (avgKey a)).run = some r → (if ch.val = 0 then r.rawV else r.rawI).full = false) → exec (.rawRecordClose a ch) s = .next s) ∧
  (∀ (l : LoopId) (s : State) (r : LockRun) (w : Window) (b : Bool), (s.avg l.val).lock = some r → r.ended = some (w, b) →
    (b = true → stageRoom s (loopBed l.val) (if r.v && r.i then 5 else 4) ≠ none) →
    (r.stopping = false → r.done + 1 ≠ r.blocks → ∃ t, exec (.lockinWindowEnd l) s = .next t ∧
      t.avg l.val = { s.avg l.val with lock := some { r with ended := none, done := r.done + 1 } } ∧
      t.prog r.tag = { s.prog r.tag with steps := r.done + 1 } ∧ (∀ k, k ≠ l.val → t.avg k = s.avg k) ∧ (∀ k, k ≠ r.tag → t.prog k = s.prog k) ∧
      t = { s with fw := { s.fw with progress := t.fw.progress }, meas := { s.meas with avg := t.meas.avg }, harv := t.harv }) ∧
    (r.stopping = true ∨ r.done + 1 = r.blocks → r.credit = false → ∃ t e, exec (.lockinWindowEnd l) s = .next t ∧ t.avg l.val = { s.avg l.val with lock := none } ∧
      Ended e t ∧ e.tag = r.tag ∧ e.ring = r.hdrRing ∧ e.status = 0 ∧ e.cause = 0 ∧ e.steps = r.done + 1 ∧ (∀ k, k ≠ l.val → t.avg k = s.avg k) ∧
      t = { s with fw := { s.fw with progress := t.fw.progress }, meas := { s.meas with avg := t.meas.avg }, harv := t.harv, flt := { s.flt with waiting := t.flt.waiting } })) ∧
  (∀ (l : LoopId) (s : State), (∀ r, (s.avg l.val).lock = some r → r.ended = none) → exec (.lockinWindowEnd l) s = .next s)

/-- The arithmetic of an averager (R325, R326). A SETTLING or HELD sample only counts in SKIPPED; a used one counts, widens
the extremes and, as the window's first, adds its own prescaled code; its OVR stays with the window. Over at most N codes of
16 bits the accumulator stays within 2^39, and the mean of equal codes is that code. -/
def Obligations.AveragingArithmetic : Prop :=
  (∀ (s : State) (key : Nat) (w : Window) (x : Sample), x.settling = true ∨ x.held = true →
    windowAdd s key w x = { w with skipped := min 0xFFFF (w.skipped + 1) }) ∧
  (∀ (s : State) (key : Nat) (w : Window) (x : Sample), x.settling = false → x.held = false → w.first = none →
    (windowAdd s key w x).n = w.n + 1 ∧ (windowAdd s key w x).skipped = w.skipped ∧ (windowAdd s key w x).first = some x ∧
    (windowAdd s key w x).last = some x ∧ (windowAdd s key w x).mixed = w.mixed ∧ (windowAdd s key w x).unref = (w.unref || x.unref) ∧
    (windowAdd s key w x).v = { w.v with acc := w.v.acc + rsh (x.v * 65536) (prescale w.size), cmin := min w.v.cmin x.v, cmax := max w.v.cmax x.v, ovr := w.v.ovr || x.vOvr } ∧
    (windowAdd s key w x).i = { w.i with acc := w.i.acc + rsh (x.i * 65536) (prescale w.size), cmin := min w.i.cmin x.i, cmax := max w.i.cmax x.i, ovr := w.i.ovr || x.iOvr }) ∧
  (∀ (n : Nat) (l : List Int), 1 ≤ n → n ≤ 2 ^ 24 → l.length ≤ n → (∀ c ∈ l, -32768 ≤ c ∧ c ≤ 32767) →
    -(2 ^ 39 : Int) ≤ (l.foldl (fun a c => accumulate a c (prescale n) false) ({} : Accum)).acc ∧
    (l.foldl (fun a c => accumulate a c (prescale n) false) ({} : Accum)).acc ≤ 2 ^ 39) ∧
  (∀ (n : Nat) (c : Int), 1 ≤ n → n ≤ 2 ^ 24 → -32768 ≤ c → c ≤ 32767 →
    meanOf ((List.replicate n c).foldl (fun a c => accumulate a c (prescale n) false) ({} : Accum)).acc (prescale n) n = c * 65536) ∧
  (∀ (p : Nat), meanOf 0 p 0 = 0)

/-- Window monitors (R336, R338 to R341, R347, R348). CONFIGURE writes the settings of disabled units; ENABLE initialises;
DISABLE stops a unit and clears its latch; CLEAR and a period's end reload the latch from the decision, but for a trip of the
same cycle; READ answers. A unit that begins to trip sets its latch once, with its stamp and count, and its fault if FAULT is
set; the fault's condition falls when no unit of the bed holds it. -/
def Obligations.WindowMonitors : Prop :=
  (∀ (s : State) (c : Current), Picked s 0x0700 c → par c 0 = 0 → 1 ≤ par c 2 → par c 1 + par c 2 ≤ 64 → par c 3 ≤ 39 → par c 4 ≤ 40 → par c 4 ≠ par c 3 →
    f32Finite (parF c 5) = true → (dec (-32768) 3).le (f32 (parF c 5)) = true → (f32 (parF c 5)).le (dec 32767 3) = true → par c 7 < 256 →
    (par c 9 = 0xFFFF ∨ (s.ring (par c 9)).state ≠ .free) → (∀ u ∈ wmUnits c, calHoldsConv s (u / 4) = false ∧ (s.wmon u).enable = false) →
    ∃ u t, exec .wmConfigure s = .next t ∧ Answered c 0 0 [] u t ∧ u = { s with meas := { s.meas with monitor := u.meas.monitor } } ∧
      (∀ k ∈ wmUnits c, u.wmon k = { s.wmon k with srcA := par c 3, srcB := par c 4, offset := parF c 5, modeword := par c 7, period := par c 8, eventRing := par c 9 }) ∧
      (∀ k, k ∉ wmUnits c → u.wmon k = s.wmon k)) ∧
  (∀ (s : State) (c : Current), Picked s 0x0700 c → par c 0 = 1 → 1 ≤ par c 2 → par c 1 + par c 2 ≤ 64 → (∀ u ∈ wmUnits c, calHoldsConv s (u / 4) = false) →
    ∃ u t, exec .wmEnable s = .next t ∧ Answered c 0 0 [] u t ∧
      u = { s with meas := { s.meas with monitor := u.meas.monitor }, flt := { s.flt with block := u.flt.block } } ∧
      (∀ k ∈ wmUnits c, u.wmon k = { s.wmon k with enable := true, decision := false, tripped := false, unresolved := true, settling := true, count := 0 }) ∧
      (∀ k, k ∉ wmUnits c → u.wmon k = s.wmon k)) ∧
  (∀ (s : State) (c : Current), Picked s 0x0700 c → par c 0 = 2 → 1 ≤ par c 2 → par c 1 + par c 2 ≤ 64 → (∀ u ∈ wmUnits c, calHoldsConv s (u / 4) = false) →
    ∃ u t, exec .wmDisable s = .next t ∧ Answered c 0 0 [] u t ∧
      u = { s with meas := { s.meas with monitor := u.meas.monitor }, flt := { s.flt with block := u.flt.block } } ∧
      (∀ k ∈ wmUnits c, u.wmon k = { s.wmon k with enable := false, tripped := false, unresolved := false, settling := false }) ∧
      (∀ k ∈ wmUnits c, (∀ v, v / 4 = k / 4 → (u.wmon v).tripped = false ∨ bit (u.wmon v).modeword 7 = false) → (u.fblk (k / 4)).live.getLsbD 0 = false) ∧
      (∀ k, k ∉ wmUnits c → u.wmon k = s.wmon k)) ∧
  (∀ (s : State) (c : Current), Picked s 0x0700 c → par c 0 = 3 → 1 ≤ par c 2 → par c 1 + par c 2 ≤ 64 → (∀ u ∈ wmUnits c, calHoldsConv s (u / 4) = false) →
    ∃ u t m, exec .wmClear s = .next t ∧ Answered c 0 0 [m] u t ∧
      u = { s with meas := { s.meas with monitor := u.meas.monitor }, flt := { s.flt with block := u.flt.block } } ∧
      (∀ k ∈ wmUnits c, u.wmon k = { s.wmon k with tripped := (s.wmon k).tripped && (wmTripping (s.wmon k) || decide ((s.wmon k).stamp = f3 s.clk.time)) }) ∧
      (∀ k ∈ wmUnits c, (∀ v, v / 4 = k / 4 → (u.wmon v).tripped = false ∨ bit (u.wmon v).modeword 7 = false) → (u.fblk (k / 4)).live.getLsbD 0 = false) ∧
      (∀ k, k ∉ wmUnits c → u.wmon k = s.wmon k) ∧ (∀ i, i < 16 → i < par c 2 → m.getLsbD i = (u.wmon (par c 1 + i)).tripped)) ∧
  (∀ (s : State) (c : Current), Picked s 0x0700 c → par c 0 = 4 → par c 1 < 64 → par c 2 = 1 → calHoldsConv s (par c 1 / 4) = false →
    ∃ t, exec .wmRead s = .next t ∧ Answered c 0 0 ([w16 (flag 0 (s.wmon (par c 1)).enable + flag 1 (s.wmon (par c 1)).decision + flag 2 (s.wmon (par c 1)).tripped +
        flag 3 (s.wmon (par c 1)).unresolved), w16 (s.wmon (par c 1)).count] ++ toWords 4 (s.wmon (par c 1)).stamp ++
      [w16 (s.wmon (par c 1)).srcA, w16 (s.wmon (par c 1)).srcB] ++ toWords 2 (s.wmon (par c 1)).offset.toNat ++
      [w16 (s.wmon (par c 1)).modeword, w16 (s.wmon (par c 1)).period, w16 (s.wmon (par c 1)).eventRing]) s t) ∧
  (∀ (x : Monitoring), (x.settling = true → wmTripping x = false) ∧ (x.settling = false → x.unresolved = true → wmTripping x = bit x.modeword 5) ∧
    (x.settling = false → x.unresolved = false → wmTripping x = decide (x.decision ≠ bit x.modeword 4))) ∧
  (∀ (u : Monitor) (high : Bool) (s : State) (y : Monitoring), (s.wmon u.val).enable = true → s.bedPow (u.val / 4) ≠ .standby → (s.wmon u.val).settling = false →
    y = { s.wmon u.val with decision := high, unresolved := false } →
    (wmTripping y = false ∨ y.tripped = true → exec (.wmDecisionChange u high) s = .next (s.modWmon u.val (fun _ => y))) ∧
    (wmTripping y = true → y.tripped = false → ∃ t, exec (.wmDecisionChange u high) s = .next t ∧
      t.wmon u.val = { y with tripped := true, stamp := s.clk.time / 16 * 16, count := min 0xFFFF (y.count + 1) } ∧ (∀ k, k ≠ u.val → t.wmon k = s.wmon k) ∧
      (bit y.modeword 7 = true → (t.fblk (u.val / 4)).live.getLsbD 0 = true ∧ ∃ d ∈ t.flt.waiting, d.block = u.val / 4 ∧ d.source = 0 ∧ d.d0 = w16 u.val) ∧
      (UnitsRest s → t = { s with meas := { s.meas with monitor := t.meas.monitor, unit := t.meas.unit }, harv := t.harv, flt := { s.flt with block := t.flt.block, waiting := t.flt.waiting } }))) ∧
  (∀ (u : Monitor) (high : Bool) (s : State), (s.wmon u.val).enable = false ∨ s.bedPow (u.val / 4) = .standby ∨ (s.wmon u.val).settling = true →
    exec (.wmDecisionChange u high) s = .next s) ∧
  (∀ (u : Monitor) (r : Option Bool) (s : State) (y : Monitoring), (s.wmon u.val).enable = true → s.bedPow (u.val / 4) ≠ .standby → (s.wmon u.val).settling = true →
    y = { s.wmon u.val with settling := false, decision := r.getD (s.wmon u.val).decision, unresolved := r.isNone && decide ((s.wmon u.val).modeword % 4 ≠ 0) } →
    (wmTripping y = false ∨ y.tripped = true → exec (.wmSettlingEnd u r) s = .next (s.modWmon u.val (fun _ => y))) ∧
    (wmTripping y = true → y.tripped = false → ∃ t, exec (.wmSettlingEnd u r) s = .next t ∧
      t.wmon u.val = { y with tripped := true, stamp := s.clk.time / 16 * 16, count := min 0xFFFF (y.count + 1) } ∧ (∀ k, k ≠ u.val → t.wmon k = s.wmon k) ∧
      (bit y.modeword 7 = true → (t.fblk (u.val / 4)).live.getLsbD 0 = true ∧ ∃ d ∈ t.flt.waiting, d.block = u.val / 4 ∧ d.source = 0 ∧ d.d0 = w16 u.val) ∧
      (UnitsRest s → t = { s with meas := { s.meas with monitor := t.meas.monitor, unit := t.meas.unit }, harv := t.harv, flt := { s.flt with block := t.flt.block, waiting := t.flt.waiting } }))) ∧
  (∀ (u : Monitor) (r : Option Bool) (s : State), (s.wmon u.val).enable = false ∨ s.bedPow (u.val / 4) = .standby ∨ (s.wmon u.val).settling = false →
    exec (.wmSettlingEnd u r) s = .next s) ∧
  (∀ (u : Monitor) (s : State), (s.wmon u.val).enable = true → s.bedPow (u.val / 4) ≠ .standby → (s.wmon u.val).period ≠ 0 → (s.wmon u.val).periodEnd ≤ s.clk.time →
    ∃ t, exec (.wmPeriodEnd u) s = .next t ∧ t.clk.time % (3200 * (s.wmon u.val).period) = 0 ∧ s.clk.time ≤ t.clk.time ∧ (s.wmon u.val).periodEnd < t.clk.time ∧
      t.clk.time ≤ s.clk.time + 3200 * (s.wmon u.val).period ∧
      t.wmon u.val = { s.wmon u.val with tripped := (s.wmon u.val).tripped && (wmTripping (s.wmon u.val) || decide ((s.wmon u.val).stamp = f3 t.clk.time)), periodEnd := t.clk.time } ∧
      (∀ k, k ≠ u.val → t.wmon k = s.wmon k) ∧
      t = { s with clk := { s.clk with time := t.clk.time }, meas := { s.meas with monitor := t.meas.monitor }, flt := { s.flt with block := t.flt.block } }) ∧
  (∀ (u : Monitor) (s : State), (s.wmon u.val).enable = false ∨ s.bedPow (u.val / 4) = .standby ∨ (s.wmon u.val).period = 0 → exec (.wmPeriodEnd u) s = .next s)

/-- Time-interval configuration and runs (R359, R363 to R367). TIM_CONFIG writes the settings of units without a run;
READ returns them; TIM_RUN START needs the reference and begins a run of each unit under its own tag with a cleared FIFO;
STOP lets a window in progress end, and ends a run with none, or one in TIMESTAMP with no open record, at once. -/
def Obligations.IntervalRuns : Prop :=
  (∀ (s : State) (c : Current), Picked s 0x0600 c → 1 ≤ par c 1 → par c 0 + par c 1 ≤ 32 → par c 2 = 0 → par c 3 ≤ 4 →
    selOk (par c 4) = true → selSource (par c 4) ≠ 63 → ¬ (par c 3 = 2 ∧ selEdge (par c 4) = 2) →
    (par c 3 = 2 ∨ (selOk (par c 5) = true ∧ ¬ (par c 3 = 0 ∧ selSource (par c 5) = 63))) → 1 ≤ par32 c 6 → par32 c 6 ≤ 16777216 → 1 ≤ par c 8 →
    (∀ u ∈ timUnits c 0, calHoldsUnit s u = false ∧ bedActive s (u / 2) = true ∧ (s.tiu u).run = none) →
    ∃ u t, exec .timConfig s = .next t ∧ Answered c 0 0 [] u t ∧ u = { s with meas := { s.meas with unit := u.meas.unit } } ∧
      (∀ k ∈ timUnits c 0, u.tiu k = { s.tiu k with mode := par c 3, startSel := par c 4, stopSel := par c 5, n := par32 c 6, gate := par c 8, timeout := par c 9 }) ∧
      (∀ k, k ∉ timUnits c 0 → u.tiu k = s.tiu k)) ∧
  (∀ (s : State) (c : Current), Picked s 0x0600 c → 1 ≤ par c 1 → par c 0 + par c 1 ≤ 32 → par c 2 = 0 → par c 3 ≤ 4 →
    selSource (par c 4) = 63 → ∃ t, exec .timConfig s = .next t ∧ Answered c 0x12 4 [] s t) ∧
  (∀ (s : State) (c : Current), Picked s 0x0600 c → par c 0 < 32 → par c 1 = 1 → par c 2 = 1 → (∀ k, 3 ≤ k → k < 10 → par c k = 0) →
    calHoldsUnit s (par c 0) = false → bedActive s (par c 0 / 2) = true →
    ∃ t, exec .timConfigRead s = .next t ∧ Answered c 0 0
      ([w16 (s.tiu (par c 0)).mode, w16 (s.tiu (par c 0)).startSel, w16 (s.tiu (par c 0)).stopSel] ++ toWords 2 (s.tiu (par c 0)).n ++
        [w16 (s.tiu (par c 0)).gate, w16 (s.tiu (par c 0)).timeout]) s t) ∧
  (∀ (s : State) (c : Current), Picked s 0x0601 c → par c 0 = 0 → 1 ≤ par c 2 → par c 1 + par c 2 ≤ 32 → StartFits c 5 → par c 10 < 8 →
    (par c 11 = 0xFFFF ∨ (s.ring (par c 11)).state ≠ .free) → TagsFree s c (par c 2) → s.clk.refPresent = true → s.clk.holdover = false →
    (∀ u ∈ timUnits c 1, calHoldsUnit s u = false ∧ bedActive s (u / 2) = true ∧ (s.tiu u).run = none ∧
      timBad (s.tiu u).mode (s.tiu u).startSel (s.tiu u).stopSel (s.tiu u).n (s.tiu u).gate = none) →
    ∃ u t st, exec .timRunStart s = .next t ∧ StartAsked c s 5 (par c 10 % 4) ((par c 10).testBit 2) st ∧
      Answered c 1 0 (w16 (par c 2) :: toWords 4 (startTicks st) ++ [c.tag]) u t ∧
      (∀ i, i < par c 2 → u.tiu (par c 1 + i) = { s.tiu (par c 1 + i) with fifo := [], overflow := 0, gapNext := false, freshNext := false, run := some { tag := c.tag.toNat + i, hdrRing := c.ring.toNat, ring := ringOf c (par c 11), start := st, blocks := par32 c 3, done := 0, win := {}, armed := none, armMiss := 0, armUnref := false, gateK := 0, gateFirst := 0, gateLast := 0, gateMiss := false, gateEnd := startTicks st, record := none, stepped := false, stopping := false, overflowed := false } } ∧
        u.prog (c.tag.toNat + i) = { opcode := 0x0601, state := .running, ring := c.ring, output := 0 }) ∧
      (∀ k, k ∉ timUnits c 1 → u.tiu k = s.tiu k) ∧ (∀ k, (k < c.tag.toNat ∨ c.tag.toNat + par c 2 ≤ k) → u.prog k = s.prog k) ∧
      u = { s with fw := { s.fw with progress := u.fw.progress }, meas := { s.meas with unit := u.meas.unit }, harv := u.harv }) ∧
  (∀ (s : State) (c : Current), Picked s 0x0601 c → par c 0 = 0 → 1 ≤ par c 2 → par c 1 + par c 2 ≤ 32 → StartFits c 5 → par c 10 < 8 →
    (par c 11 = 0xFFFF ∨ (s.ring (par c 11)).state ≠ .free) → TagsFree s c (par c 2) → (s.clk.refPresent = false ∨ s.clk.holdover = true) →
    ∃ t, exec .timRunStart s = .next t ∧ Answered c 0x40 0 [] s t) ∧
  (∀ (s : State) (c : Current), Picked s 0x0601 c → par c 0 = 1 → 1 ≤ par c 2 → par c 1 + par c 2 ≤ 32 →
    (∀ k ∈ timUnits c 1, calHoldsUnit s k = false ∧ bedActive s (k / 2) = true ∧ (s.tiu k).mode ≠ 4 ∧
      ∃ r, (s.tiu k).run = some r ∧ (r.win.running = true ∨ r.win.credit = true)) →
    ∃ u t, exec .timRunStop s = .next t ∧ Answered c 0 0 [] u t ∧ u = { s with meas := { s.meas with unit := u.meas.unit } } ∧
      (∀ k ∈ timUnits c 1, ∀ r, (s.tiu k).run = some r → u.tiu k = { s.tiu k with run := some { r with stopping := true } }) ∧
      (∀ k, k ∉ timUnits c 1 → u.tiu k = s.tiu k)) ∧
  (∀ (s : State) (c : Current) (k : Nat) (r : TimRun), Picked s 0x0601 c → par c 0 = 1 → k = par c 1 → par c 1 < 32 → par c 2 = 1 →
    calHoldsUnit s k = false → bedActive s (k / 2) = true → (s.tiu k).run = some r → r.win.credit = false →
    ((s.tiu k).mode = 4 ∧ r.record = none ∨ (s.tiu k).mode ≠ 4 ∧ r.win.running = false ∧ started r.start s.clk.time = false) →
    ∃ u t e, exec .timRunStop s = .next t ∧ Answered c 0 0 [] u t ∧ u.tiu k = { s.tiu k with run := none } ∧ Ended e t ∧ e.tag = r.tag ∧
      e.ring = r.hdrRing ∧ e.status = 0 ∧ e.cause = 0 ∧ e.steps = r.done ∧ (∀ j, j ≠ k → u.tiu j = s.tiu j) ∧
      u = { s with fw := { s.fw with progress := u.fw.progress }, meas := { s.meas with unit := u.meas.unit }, harv := u.harv, flt := { s.flt with waiting := u.flt.waiting } }) ∧
  (∀ (s : State) (c : Current), Picked s 0x0601 c → par c 0 = 1 → 1 ≤ par c 2 → par c 1 + par c 2 ≤ 32 →
    (∀ k ∈ timUnits c 1, calHoldsUnit s k = false ∧ bedActive s (k / 2) = true) → (∃ k ∈ timUnits c 1, (s.tiu k).run = none) →
    ∃ t, exec .timRunStop s = .next t ∧ Answered c 0x13 12 [] s t)

/-- Edges, gates, timeouts and stamp records of a time-interval unit (R350 to R352, R354 to R357, R360). An edge is
stamped at its source's resolution and starts a dead time of 2 048 fine steps in which a further one only counts as
MISSED. In INTERVAL and PULSE_WIDTH a START edge arms and the next STOP edge closes a sample, unless the attempt has timed
out; in PERIOD every START edge closes one and arms; in FREQUENCY it counts in its gate, whose end makes a sample or an empty
gate; in TIMESTAMP it joins the open record, or overflows the FIFO. -/
def Obligations.IntervalEvents : Prop :=
  (∀ (u : TimeUnit) (stop fall : Bool) (e : Nat) (s : State), (∀ x, ¬ EdgeTaken s u.val stop e fall x) → exec (.tiuEdge u stop e fall) s = .next s) ∧
  (∀ (s : State) (u : Nat) (stop : Bool) (src e : Nat), (src ≤ 35 → timStamp s u stop src e = ((e : Int) - tiuDelay s u stop).toNat) ∧
    (36 ≤ src → src ≤ 39 → timStamp s u stop src e = e / 4096 * 4096) ∧ (40 ≤ src → src ≤ 43 → timStamp s u stop src e = e / 256 * 256) ∧
    (44 ≤ src → timStamp s u stop src e = e)) ∧
  (∀ (u : TimeUnit) (stop fall : Bool) (e x : Nat) (s : State), EdgeTaken s u.val stop e fall x → (s.tiu u.val).run = none →
    (∀ a, (if stop then (s.tiu u.val).lastStop else (s.tiu u.val).lastStart) = some a → a + 2048 ≤ x) →
    ∃ t, exec (.tiuEdge u stop e fall) s = .next t ∧
      t.tiu u.val = (if stop then { s.tiu u.val with lastStop := some x } else { s.tiu u.val with lastStart := some x }) ∧
      (∀ k, k ≠ u.val → t.tiu k = s.tiu k) ∧ t = { s with clk := { s.clk with time := max s.clk.time (e / 256) }, meas := { s.meas with unit := t.meas.unit } }) ∧
  (∀ (u : TimeUnit) (fall : Bool) (e x a : Nat) (s : State), EdgeTaken s u.val true e fall x → (s.tiu u.val).lastStop = some a → x < a + 2048 →
    ∃ t, exec (.tiuEdge u true e fall) s = .next t ∧ t.tiu u.val = { s.tiu u.val with missStop := min 0xFFFFFFFF ((s.tiu u.val).missStop + 1), run := (s.tiu u.val).run.map (fun r => { r with win := { r.win with missStop := min 0xFFFFFFFF (r.win.missStop + 1) } }) } ∧
      (∀ k, k ≠ u.val → t.tiu k = s.tiu k) ∧ t = { s with clk := { s.clk with time := max s.clk.time (e / 256) }, meas := { s.meas with unit := t.meas.unit } }) ∧
  (∀ (u : TimeUnit) (fall : Bool) (e x a : Nat) (s : State), EdgeTaken s u.val false e fall x → (s.tiu u.val).lastStart = some a → x < a + 2048 →
    ∃ t, exec (.tiuEdge u false e fall) s = .next t ∧ t.tiu u.val = { s.tiu u.val with missStart := min 0xFFFFFFFF ((s.tiu u.val).missStart + 1), run := (s.tiu u.val).run.map (fun r => { r with gateMiss := true, win := { r.win with missStart := min 0xFFFFFFFF (r.win.missStart + 1) } }) } ∧
      (∀ k, k ≠ u.val → t.tiu k = s.tiu k) ∧ t = { s with clk := { s.clk with time := max s.clk.time (e / 256) }, meas := { s.meas with unit := t.meas.unit } }) ∧
  (∀ (u : TimeUnit) (fall : Bool) (e x ts : Nat) (s : State) (r : TimRun), EdgeTaken s u.val false e fall x →
    (∀ a, (s.tiu u.val).lastStart = some a → a + 2048 ≤ x) → ((s.tiu u.val).mode = 0 ∨ (s.tiu u.val).mode = 2) → (s.tiu u.val).run = some r →
    r.start = .at ts → ts ≤ x / 256 → r.armed = none → (r.win.running = true ∨ r.win.credit = true) →
    ∃ t, exec (.tiuEdge u false e fall) s = .next t ∧ t.tiu u.val = { s.tiu u.val with lastStart := some x, run := some { r with armed := some x, stepped := false, armUnref := s.clk.holdover } } ∧
      (∀ k, k ≠ u.val → t.tiu k = s.tiu k) ∧ t = { s with clk := { s.clk with time := max s.clk.time (e / 256) }, meas := { s.meas with unit := t.meas.unit } }) ∧
  (∀ (u : TimeUnit) (fall : Bool) (e x ts a : Nat) (s : State) (r : TimRun), EdgeTaken s u.val true e fall x →
    (∀ b, (s.tiu u.val).lastStop = some b → b + 2048 ≤ x) → ((s.tiu u.val).mode = 0 ∨ (s.tiu u.val).mode = 2) → (s.tiu u.val).run = some r →
    r.start = .at ts → ts ≤ x / 256 → r.armed = some a → a < x → x < a + 2 ^ 48 - 1 → ((s.tiu u.val).timeout = 0 ∨ x < a + (s.tiu u.val).timeout * 819200) →
    r.stepped = false → r.win.running = true → 1 ≤ r.win.n → r.win.n + 1 < (s.tiu u.val).n →
    ∃ t, exec (.tiuEdge u true e fall) s = .next t ∧ t.tiu u.val = { s.tiu u.val with lastStop := some x, run := some { r with armed := none, win := { r.win with n := r.win.n + 1, sd := r.win.sd + (((x - a : Nat) : Int) - r.win.x0), sq := r.win.sq + ((((x - a : Nat) : Int) - r.win.x0) * (((x - a : Nat) : Int) - r.win.x0)).toNat, xmin := min r.win.xmin (x - a), xmax := max r.win.xmax (x - a), unref := r.win.unref || (r.armUnref || s.clk.holdover) } } } ∧
      (∀ k, k ≠ u.val → t.tiu k = s.tiu k) ∧ t = { s with clk := { s.clk with time := max s.clk.time (e / 256) }, meas := { s.meas with unit := t.meas.unit } }) ∧
  (∀ (u : TimeUnit) (fall : Bool) (e x ts a : Nat) (s : State) (r : TimRun), EdgeTaken s u.val true e fall x →
    (∀ b, (s.tiu u.val).lastStop = some b → b + 2048 ≤ x) → ((s.tiu u.val).mode = 0 ∨ (s.tiu u.val).mode = 2) → (s.tiu u.val).run = some r →
    r.start = .at ts → ts ≤ x / 256 → r.armed = some a → (r.win.running = true ∨ r.win.credit = true) →
    (a + 2 ^ 48 - 1 ≤ x ∨ ((s.tiu u.val).timeout ≠ 0 ∧ a + (s.tiu u.val).timeout * 819200 ≤ x)) →
    ∃ t, exec (.tiuEdge u true e fall) s = .next t ∧ t.tiu u.val = { s.tiu u.val with lastStop := some x, run := some { r with armed := none, stepped := false, win := { r.win with timeouts := min 0xFFFFFFFF (r.win.timeouts + 1) } } } ∧
      (∀ k, k ≠ u.val → t.tiu k = s.tiu k) ∧ t = { s with clk := { s.clk with time := max s.clk.time (e / 256) }, meas := { s.meas with unit := t.meas.unit } }) ∧
  (∀ (u : TimeUnit) (fall : Bool) (e x ts a : Nat) (s : State) (r : TimRun), EdgeTaken s u.val false e fall x →
    (∀ b, (s.tiu u.val).lastStart = some b → b + 2048 ≤ x) → (s.tiu u.val).mode = 1 → (s.tiu u.val).run = some r → r.start = .at ts → ts ≤ x / 256 →
    r.armed = some a → r.armMiss = (s.tiu u.val).missStart → r.stepped = false → r.win.running = true → 1 ≤ r.win.n → r.win.n + 1 < (s.tiu u.val).n →
    ∃ t q, exec (.tiuEdge u false e fall) s = .next t ∧ (t.tiu u.val).run = some q ∧ (t.tiu u.val).lastStart = some x ∧ q.armed = some x ∧
      q.win.n = r.win.n + 1 ∧ q.win.xmin = min r.win.xmin (x - a) ∧ q.win.xmax = max r.win.xmax (x - a) ∧ q.win.sd = r.win.sd + (((x - a : Nat) : Int) - r.win.x0) ∧
      (∀ k, k ≠ u.val → t.tiu k = s.tiu k) ∧ t = { s with clk := { s.clk with time := max s.clk.time (e / 256) }, meas := { s.meas with unit := t.meas.unit } }) ∧
  (∀ (u : TimeUnit) (fall : Bool) (e x ts : Nat) (s : State) (r : TimRun), EdgeTaken s u.val false e fall x →
    (∀ b, (s.tiu u.val).lastStart = some b → b + 2048 ≤ x) → (s.tiu u.val).mode = 3 → (s.tiu u.val).run = some r → r.start = .at ts → ts ≤ x / 256 →
    (r.win.running = true ∨ r.win.credit = true) → x / 256 / (3200 * (s.tiu u.val).gate) * (3200 * (s.tiu u.val).gate) ≤ gatesTo r →
    ∃ t, exec (.tiuEdge u false e fall) s = .next t ∧ t.tiu u.val = { s.tiu u.val with lastStart := some x, run := some { r with gateK := min 0xFFFFFFFF (r.gateK + 1), gateFirst := if r.gateK = 0 then x else r.gateFirst, gateLast := x, armUnref := r.armUnref || s.clk.holdover } } ∧
      (∀ k, k ≠ u.val → t.tiu k = s.tiu k) ∧ t = { s with clk := { s.clk with time := max s.clk.time (e / 256) }, meas := { s.meas with unit := t.meas.unit } }) ∧
  (∀ (u : TimeUnit) (fall : Bool) (e x ts : Nat) (s : State) (r : TimRun) (b : StampRec), EdgeTaken s u.val true e fall x →
    (∀ a, (s.tiu u.val).lastStop = some a → a + 2048 ≤ x) → (s.tiu u.val).mode = 4 → (s.tiu u.val).run = some r → r.start = .at ts → ts ≤ x / 256 →
    (s.tiu u.val).fifo = [] → (s.tiu u.val).freshNext = false → r.record = some b → b.entries.length < 64 → b.unref = s.clk.holdover →
    ∃ t, exec (.tiuEdge u true e fall) s = .next t ∧ t.tiu u.val = { s.tiu u.val with lastStop := some x, gapNext := false, overflow := 0, run := some { r with record := some { b with entries := b.entries ++ [{ time := x, stop := true, fall := fall, gap := (s.tiu u.val).gapNext, lost := (s.tiu u.val).overflow, unref := s.clk.holdover, fresh := false }] } } } ∧
      (∀ k, k ≠ u.val → t.tiu k = s.tiu k) ∧ t = { s with clk := { s.clk with time := max s.clk.time (e / 256) }, meas := { s.meas with unit := t.meas.unit } }) ∧
  (∀ (u : TimeUnit) (fall : Bool) (e x ts : Nat) (s : State) (r : TimRun), EdgeTaken s u.val true e fall x →
    (∀ a, (s.tiu u.val).lastStop = some a → a + 2048 ≤ x) → (s.tiu u.val).mode = 4 → (s.tiu u.val).run = some r → r.start = .at ts → ts ≤ x / 256 →
    (s.tiu u.val).fifo.length = 1024 →
    ∃ t, exec (.tiuEdge u true e fall) s = .next t ∧ t.tiu u.val = { s.tiu u.val with lastStop := some x, gapNext := true, overflow := min 0xFFFFFFFF ((s.tiu u.val).overflow + 1), run := some { r with overflowed := true } } ∧
      (r.overflowed = false → ∃ d ∈ t.flt.waiting, d.block = u.val / 2 ∧ d.source = 10 ∧ d.d0 = w16 u.val) ∧ (r.overflowed = true → t.flt = s.flt) ∧
      (∀ k, k ≠ u.val → t.tiu k = s.tiu k) ∧
      t = { s with clk := { s.clk with time := max s.clk.time (e / 256) }, meas := { s.meas with unit := t.meas.unit }, flt := { s.flt with block := t.flt.block, waiting := t.flt.waiting } }) ∧
  (∀ (u : TimeUnit) (s : State) (r : TimRun) (b : Nat), (s.tiu u.val).mode = 3 → (s.tiu u.val).run = some r → 1 ≤ (s.tiu u.val).gate →
    (r.win.running = true ∨ r.win.credit = true) → b = roundUp (max s.clk.time (gatesTo r + 1)) (3200 * (s.tiu u.val).gate) → started r.start b = true → r.gateK < 2 →
    ∃ t, exec (.tiuGateEnd u) s = .next t ∧ t.clk.time = b ∧ s.clk.time ≤ b ∧ r.gateEnd < b ∧ b % (3200 * (s.tiu u.val).gate) = 0 ∧
      t.tiu u.val = { s.tiu u.val with run := some { r with gateK := 0, gateMiss := false, gateEnd := b, stepped := false, armUnref := false, win := { r.win with emptyGates := min 0xFFFFFFFF (r.win.emptyGates + (b / (3200 * (s.tiu u.val).gate) - gatesTo r / (3200 * (s.tiu u.val).gate))) } } } ∧
      (∀ k, k ≠ u.val → t.tiu k = s.tiu k) ∧ t = { s with clk := { s.clk with time := b }, meas := { s.meas with unit := t.meas.unit } }) ∧
  (∀ (u : TimeUnit) (s : State) (r : TimRun) (b : Nat), (s.tiu u.val).mode = 3 → (s.tiu u.val).run = some r → 1 ≤ (s.tiu u.val).gate →
    b = roundUp (max s.clk.time (gatesTo r + 1)) (3200 * (s.tiu u.val).gate) → started r.start b = true → 2 ≤ r.gateK → r.stepped = false →
    r.win.running = true → 1 ≤ r.win.n → r.win.n + 1 < (s.tiu u.val).n →
    ∃ t q, exec (.tiuGateEnd u) s = .next t ∧ t.clk.time = b ∧ (t.tiu u.val).run = some q ∧ q.gateK = 0 ∧ q.gateEnd = b ∧ q.win.n = r.win.n + 1 ∧
      q.win.xmax = max r.win.xmax (roundUpHalf (((r.gateLast - r.gateFirst) * 256 : Nat) : Int) (r.gateK - 1)).toNat ∧
      q.win.xmin = min r.win.xmin (roundUpHalf (((r.gateLast - r.gateFirst) * 256 : Nat) : Int) (r.gateK - 1)).toNat ∧ q.win.aliased = (r.win.aliased || r.gateMiss) ∧
      (∀ k, k ≠ u.val → t.tiu k = s.tiu k) ∧ t = { s with clk := { s.clk with time := b }, meas := { s.meas with unit := t.meas.unit } }) ∧
  (∀ (u : TimeUnit) (s : State), (s.tiu u.val).mode ≠ 3 ∨ (s.tiu u.val).run = none → exec (.tiuGateEnd u) s = .next s) ∧
  (∀ (u : TimeUnit) (s : State) (r : TimRun) (a : Nat), (s.tiu u.val).mode = 0 ∨ (s.tiu u.val).mode = 2 → (s.tiu u.val).run = some r → r.armed = some a →
    ∃ t, exec (.tiuTimeout u) s = .next t ∧ t.tiu u.val = { s.tiu u.val with run := some { r with armed := none, stepped := false, win := { r.win with timeouts := min 0xFFFFFFFF (r.win.timeouts + 1) } } } ∧
      t.clk.time = max s.clk.time ((a + (if (s.tiu u.val).timeout = 0 then 2 ^ 48 - 1 else (s.tiu u.val).timeout * 819200)) / 256) ∧
      (∀ k, k ≠ u.val → t.tiu k = s.tiu k) ∧ t = { s with clk := { s.clk with time := t.clk.time }, meas := { s.meas with unit := t.meas.unit } }) ∧
  (∀ (u : TimeUnit) (s : State), (∀ r, (s.tiu u.val).run = some r → r.armed = none ∨ ((s.tiu u.val).mode ≠ 0 ∧ (s.tiu u.val).mode ≠ 2)) → exec (.tiuTimeout u) s = .next s) ∧
  (∀ (u : TimeUnit) (s : State) (r : TimRun) (b : StampRec) (e : Stamp) (l : List Stamp), (s.tiu u.val).run = some r → r.record = some b → b.entries = e :: l → (s.tiu u.val).fifo = [] →
    (r.win.credit = true → b.entries.length = 64 ∧ stageRoom s (u.val / 2) 35 ≠ none) → r.stopping = false → r.done + 1 ≠ r.blocks →
    ∃ t, exec (.timStampsClose u) s = .next t ∧
      t.clk.time = (if 64 ≤ b.entries.length then s.clk.time else max s.clk.time (e.time / 256 + 320000)) ∧
      t.tiu u.val = { s.tiu u.val with run := some { r with record := none, done := r.done + 1, win := { r.win with credit := false } } } ∧
      t.prog r.tag = { s.prog r.tag with steps := r.done + 1 } ∧ (∀ k, k ≠ u.val → t.tiu k = s.tiu k) ∧ (∀ k, k ≠ r.tag → t.prog k = s.prog k) ∧
      t = { s with clk := { s.clk with time := t.clk.time }, fw := { s.fw with progress := t.fw.progress }, meas := { s.meas with unit := t.meas.unit }, harv := t.harv }) ∧
  (∀ (u : TimeUnit) (s : State), (∀ r, (s.tiu u.val).run = some r → r.record = none) → exec (.timStampsClose u) s = .next s)

/-- The statistics of a window (R358, R362). A first sample sets the reference and every later one adds its deviation and its
square; a sample that spans a chip-time step only counts as discarded; the mean of equal samples is that sample in 16
fraction bits, and their deviation is 0. -/
def Obligations.IntervalStatistics : Prop :=
  (∀ (s : State) (u x first : Nat) (unref : Bool) (r : TimRun), (s.tiu u).run = some r → r.win.running = true → r.win.n = 0 → 1 < (s.tiu u).n →
    (addSample s u x first unref).tiu u = { s.tiu u with run := some { r with win := { r.win with n := 1, time := first / 256, x0 := x, xmin := x, xmax := x, unref := r.win.unref || unref } } }) ∧
  (∀ (s : State) (u x first : Nat) (unref : Bool) (r : TimRun), (s.tiu u).run = some r → r.win.running = true → 1 ≤ r.win.n → r.win.n + 1 < (s.tiu u).n →
    (addSample s u x first unref).tiu u = { s.tiu u with run := some { r with win := { r.win with n := r.win.n + 1, sd := r.win.sd + ((x : Int) - r.win.x0), sq := r.win.sq + (((x : Int) - r.win.x0) * ((x : Int) - r.win.x0)).toNat, xmin := min r.win.xmin x, xmax := max r.win.xmax x, unref := r.win.unref || unref } } }) ∧
  (∀ (s : State) (u x first : Nat) (unref : Bool) (r : TimRun), (s.tiu u).run = some r →
    (takeSample s u x first true unref).tiu u = { s.tiu u with run := some { r with win := { r.win with discarded := min 0xFFFFFFFF (r.win.discarded + 1), syncStep := true } } }) ∧
  (∀ (w : TimWindow), 1 ≤ w.n → w.sd = 0 → w.sq = 0 → w.x0 < 2 ^ 48 → timMean w = w.x0 * 65536 ∧ timStddev w = 0) ∧
  (∀ (w : TimWindow), w.n = 0 → timMean w = 0 ∧ timStddev w = 0) ∧ (∀ (w : TimWindow), w.n = 1 → timStddev w = 0)

/-- Ring commands (R384, R391 to R394). RING_CREATE makes a FREE ring OPEN at the base that is free, its positions 0;
RING_DESTROY refuses new reservations, waits for the placed records, then frees the ring and unnames it; it refuses a ring
that running work names. RING_POLICY writes the policy or the notification setting, a producer that waits dropping its record
at once under DROP, and READ answers the snapshot and NOTIFY. -/
def Obligations.RingCommands : Prop :=
  (∀ (s : State) (c : Current) (b : Nat), Picked s 0x0800 c → par c 1 ≤ 18 → par c 2 ≤ 1 → 0 < s.bus.dramMib → (s.ring (par c 0)).state = .free →
    freeBase s (4096 * 2 ^ par c 1) = some b →
    ∃ u t, exec .ringCreate s = .next t ∧ Answered c 0 0 (toWords 4 b) u t ∧ u = { s with harv := { s.harv with ring := u.harv.ring } } ∧
      u.ring (par c 0) = { state := .live, base := b, sizeCode := par c 1, drop := decide (par c 2 = 1), notifyUnits := par32 c 3, notifyUs := par c 5, armed := decide (par32 c 3 ≠ 0 ∨ par c 5 ≠ 0) } ∧ (∀ k, k ≠ par c 0 → u.ring k = s.ring k)) ∧
  (∀ (s : State) (c : Current), Picked s 0x0800 c → par c 1 ≤ 18 → par c 2 ≤ 1 → 0 < s.bus.dramMib → (s.ring (par c 0)).state = .free →
    freeBase s (4096 * 2 ^ par c 1) = none → ∃ t, exec .ringCreate s = .next t ∧ Answered c 0x10 0 [] s t) ∧
  (∀ (s : State) (c : Current), Picked s 0x0800 c → 18 < par c 1 → ∃ t, exec .ringCreate s = .next t ∧ Answered c 0x12 1 [] s t) ∧
  (∀ (s : State) (c : Current), Picked s 0x0800 c → par c 1 ≤ 18 → par c 2 ≤ 1 → 0 < s.bus.dramMib → (s.ring (par c 0)).state ≠ .free →
    ∃ t, exec .ringCreate s = .next t ∧ Answered c 0x13 20 [] s t) ∧
  (∀ (s : State) (c : Current), Picked s 0x0801 c → 0 < s.bus.dramMib → (s.ring (par c 0)).state ≠ .free →
    (∀ e ∈ s.fw.progress, e.2.state = .running → e.2.ring.toNat ≠ par c 0) → ringDrained s (par c 0) = true →
    ∃ u t, exec .ringDestroy s = .next t ∧
      Answered c 0 0 [w16 (if par c 0 = 0xFFFF then 0 else (eventLoops s (par c 0)).length + (eventMonitors s (par c 0)).length)] u t ∧
      u.ring (par c 0) = {} ∧ (∀ k, k ≠ par c 0 → u.ring k = s.ring k) ∧
      (∀ l, l < 544 → u.loop l = { s.loop l with eventRing := if (s.loop l).eventRing = par c 0 then 0xFFFF else (s.loop l).eventRing }) ∧
      (∀ m, m < 64 → u.wmon m = { s.wmon m with eventRing := if (s.wmon m).eventRing = par c 0 then 0xFFFF else (s.wmon m).eventRing }) ∧
      (∀ k, k < 16 → u.stage k = { s.stage k with telemCredit := if (s.stage k).ring = par c 0 then .unasked else (s.stage k).telemCredit }) ∧
      (∀ l, 544 ≤ l → u.loop l = s.loop l) ∧ (∀ m, 64 ≤ m → u.wmon m = s.wmon m) ∧ (∀ k, 16 ≤ k → u.stage k = s.stage k) ∧
      u = { s with fw := u.fw, lp := { s.lp with loop := u.lp.loop }, meas := { s.meas with monitor := u.meas.monitor }, harv := { s.harv with ring := u.harv.ring }, ser := { s.ser with stage := u.ser.stage } } ∧
      u.fw = { s.fw with current := u.fw.current }) ∧
  (∀ (s : State) (c : Current), Picked s 0x0801 c → 0 < s.bus.dramMib → (s.ring (par c 0)).state ≠ .free →
    (∀ e ∈ s.fw.progress, e.2.state = .running → e.2.ring.toNat ≠ par c 0) → ringDrained s (par c 0) = false →
    ∃ u t, exec .ringDestroy s = .next t ∧ Waits c (.ringDrain (par c 0)) [] u t ∧ u.ring (par c 0) = { s.ring (par c 0) with closing := true } ∧
      (∀ n, canReserve t (par c 0) n = false) ∧ (∀ k, k ≠ par c 0 → u.ring k = s.ring k) ∧ u = { s with harv := { s.harv with ring := u.harv.ring } }) ∧
  (∀ (s : State) (c : Current) (r : Nat), s.fw.current = some c → c.wait = .ringDrain r → (ringDrained s r = false → drainCheck s = s) ∧
    (ringDrained s r = true → ∃ u w, Answered c 0 0 [w] u (drainCheck s) ∧ u.ring r = {} ∧ ∀ k, k ≠ r → u.ring k = s.ring k)) ∧
  (∀ (s : State) (c : Current) (e : Nat × Progress), Picked s 0x0801 c → 0 < s.bus.dramMib → (s.ring (par c 0)).state ≠ .free →
    s.fw.progress.find? (fun e => decide (e.2.state = .running) && decide (e.2.ring.toNat = par c 0)) = some e →
    ∃ t, exec .ringDestroy s = .next t ∧ Answered c 0x13 e.1 [] s t) ∧
  (∀ (s : State) (c : Current), Picked s 0x0801 c → 0 < s.bus.dramMib → (s.ring (par c 0)).state = .free →
    ∃ t, exec .ringDestroy s = .next t ∧ Answered c 0x13 21 [] s t) ∧
  (∀ (s : State) (c : Current), Picked s 0x0802 c → 1 ≤ par c 1 → par c 0 + par c 1 ≤ 65536 → par c 2 = 1 → par c 3 ≤ 1 → 0 < s.bus.dramMib →
    (∀ r ∈ rangeFrom (par c 0) (par c 1), (s.ring r).state ≠ .free ∧ (par c 3 = 1 → (s.ring r).waiters = [])) → (par c 3 = 1 → s.harv.ends = []) →
    ∃ u t, exec .ringPolicy s = .next t ∧ Answered c 0 0 [] u t ∧ u = { s with harv := { s.harv with ring := u.harv.ring } } ∧
      (∀ r ∈ rangeFrom (par c 0) (par c 1), u.ring r = { s.ring r with drop := decide (par c 3 = 1) }) ∧
      (∀ k, k ∉ rangeFrom (par c 0) (par c 1) → u.ring k = s.ring k)) ∧
  (∀ (s : State) (c : Current) (key n : Nat) (r : MeasRun), Picked s 0x0802 c → par c 1 = 1 → par c 2 = 1 → par c 3 = 1 → 0 < s.bus.dramMib →
    (s.ring (par c 0)).state = .live → (s.ring (par c 0)).waiters = [(.measWindow key, n)] → s.harv.ends = [] → (s.avg key).run = some r → r.slot = none →
    ∃ u t, exec .ringPolicy s = .next t ∧ Answered c 0 0 [] u t ∧ (u.ring (par c 0)).drop = true ∧ (u.ring (par c 0)).waiters = [] ∧
      (u.ring (par c 0)).state = .lossOpen ∧ (∃ l, (u.ring (par c 0)).loss = some l ∧ l.count = 1 ∧ l.causes = 1 ∧ l.pos = (s.ring (par c 0)).place) ∧
      u.avg key = { s.avg key with run := some { r with win := some { size := (s.avg key).n, chV := (s.avg key).v, chI := (s.avg key).i, minmax := (s.avg key).minmax } } } ∧
      (∀ k, k ≠ par c 0 → u.ring k = s.ring k) ∧ (∀ k, k ≠ key → u.avg k = s.avg k) ∧
      u = { s with meas := { s.meas with avg := u.meas.avg }, harv := { s.harv with ring := u.harv.ring } }) ∧
  (∀ (s : State) (c : Current) (due : Bool), Picked s 0x0802 c → par c 1 = 1 → par c 2 = 2 → 0 < s.bus.dramMib → (s.ring (par c 0)).state ≠ .free →
    due = decide (par32 c 4 ≠ 0 ∧ par32 c 4 ≤ posDiff (s.ring (par c 0)).wr (s.ring (par c 0)).rel) →
    ∃ u t, exec .ringPolicy s = .next t ∧ Answered c 0 0 [] u t ∧
      u.ring (par c 0) = { s.ring (par c 0) with notifyUnits := par32 c 4, notifyUs := par c 6, armed := !due, advanced := none } ∧
      (∀ k, k ≠ par c 0 → u.ring k = s.ring k) ∧ (due = false → u = { s with harv := { s.harv with ring := u.harv.ring } }) ∧
      (due = true → u.link.mtag = s.link.mtag + 1 ∧
        u = { s with harv := { s.harv with ring := u.harv.ring }, link := u.link, flt := { s.flt with block := u.flt.block, waiting := u.flt.waiting } })) ∧
  (∀ (s : State) (c : Current), Picked s 0x0802 c → par c 1 = 1 → par c 2 = 4 → 0 < s.bus.dramMib → (s.ring (par c 0)).state ≠ .free →
    ∃ t, exec .ringPolicyRead s = .next t ∧ Answered c 0 0
      (snapWords s (par c 0) ++ toWords 2 (s.ring (par c 0)).notifyUnits ++ [w16 (s.ring (par c 0)).notifyUs]) s t) ∧
  (∀ (s : State) (c : Current), Picked s 0x0802 c → par c 1 = 1 → par c 2 = 4 → 0 < s.bus.dramMib → (s.ring (par c 0)).state = .free →
    ∃ t, exec .ringPolicyRead s = .next t ∧ Answered c 0x13 21 [] s t)

/-- Where a ring is placed (R205, R392): at the lowest base of the ring area that is aligned to its size and free of every
ring that exists; there is none exactly when no such base exists. -/
def Obligations.RingPlacement : Prop :=
  (∀ (s : State) (size b : Nat), 0 < size → freeBase s size = some b →
    b % size = 0 ∧ patternBytes s ≤ b ∧ b + size ≤ dataMib s * 2 ^ 20 ∧ (∀ x ∈ ringSpaces s, b + size ≤ x.1 ∨ x.1 + x.2 ≤ b) ∧
    ∀ a, a % size = 0 → patternBytes s ≤ a → a + size ≤ dataMib s * 2 ^ 20 → (∀ x ∈ ringSpaces s, a + size ≤ x.1 ∨ x.1 + x.2 ≤ a) → b ≤ a) ∧
  (∀ (s : State) (size : Nat), 0 < size → freeBase s size = none →
    ∀ a, a % size = 0 → patternBytes s ≤ a → a + size ≤ dataMib s * 2 ^ 20 → ¬ ∀ x ∈ ringSpaces s, a + size ≤ x.1 ∨ x.1 + x.2 ≤ a)

/-- Credit, loss and release (R373, R377, R378, R380, R383). A reservation succeeds on an OPEN ring that keeps two units back,
for a producer that none waits before, and takes exactly its units; a drop opens a loss of two units or counts in the open
one, and two free units close it; a placed record stands at the ring's place and the stager's end; a release moves REL_POS,
clamped to WR_POS, and one behind the current position is ignored. -/
def Obligations.RingCredit : Prop :=
  (∀ (s t : State) (r n : Nat), reserve s r n = some t → (s.ring r).state = .live ∧ (s.ring r).closing = false ∧ 2 ≤ ringFree (s.ring r) - n ∧
    ((s.ring r).drop = true ∨ (s.ring r).waiters = []) ∧
    t.ring r = { s.ring r with reserved := (s.ring r).reserved + n } ∧ 2 ≤ ringFree (t.ring r) ∧ (∀ k, k ≠ r → t.ring k = s.ring k) ∧
    t = { s with harv := { s.harv with ring := t.harv.ring } }) ∧
  (∀ (s : State) (r n : Nat), (s.ring r).state = .live → (s.ring r).closing = false → s.perturbed 4 r = false → 2 ≤ ringFree (s.ring r) - n →
    ((s.ring r).drop = true ∨ (s.ring r).waiters = []) → (reserve s r n).isSome = true) ∧
  (∀ (s : State) (r causes : Nat), (s.ring r).state = .live → ((dropRecord s r causes).ring r).state = .lossOpen ∧
    ((dropRecord s r causes).ring r).place = ((s.ring r).place + 2) % 2 ^ 32 ∧ ((dropRecord s r causes).ring r).seq = ((s.ring r).seq + 1) % 2 ^ 32 ∧
    ((dropRecord s r causes).ring r).loss = some { pos := (s.ring r).place, seq := (s.ring r).seq, count := 1, first := s.clk.time, last := s.clk.time, causes := causes, flags := flagsNow s 0 } ∧
    (∀ n, canReserve (dropRecord s r causes) r n = false) ∧ (∀ k, k ≠ r → (dropRecord s r causes).ring k = s.ring k)) ∧
  (∀ (s : State) (r causes : Nat) (l : Loss), (s.ring r).state = .lossOpen → (s.ring r).loss = some l →
    (dropRecord s r causes).ring r = { s.ring r with loss := some { l with count := min 0xFFFFFFFF (l.count + 1), last := s.clk.time, causes := l.causes ||| causes, flags := l.flags ||| flagsNow s 0 } }) ∧
  (∀ (s : State) (r : Nat) (l : Loss), (s.ring r).state = .lossOpen → (s.ring r).loss = some l →
    (2 ≤ ringFree (s.ring r) → ((closeLoss s r).ring r).state = .live ∧ ((closeLoss s r).ring r).loss = none ∧ ∀ k, k ≠ r → (closeLoss s r).ring k = s.ring k) ∧
    (ringFree (s.ring r) < 2 → closeLoss s r = s)) ∧
  (∀ (s : State) (st r units tag : Nat) (bytes : Nat → List Byte), (s.ring r).state ≠ .failed →
    (placeIn s st r units tag bytes).ring r = { s.ring r with place := ((s.ring r).place + units) % 2 ^ 32, seq := ((s.ring r).seq + 1) % 2 ^ 32, placed := (s.ring r).placed ++ [{ pos := (s.ring r).place, len := units, seq := (s.ring r).seq, done := false, hold := false }] } ∧
    fillBank ((placeIn s st r units tag bytes).stager st) = fillBank (s.stager st) ++
      [{ ring := r, pos := (s.ring r).place, len := units, seq := (s.ring r).seq, tag := tag, bytes := bytes (s.ring r).seq, entered := s.clk.time, unref := s.clk.holdover, acked := 0 }] ∧
    drainBank ((placeIn s st r units tag bytes).stager st) = drainBank (s.stager st) ∧
    (∀ k, k ≠ r → (placeIn s st r units tag bytes).ring k = s.ring k) ∧ (∀ k, k ≠ st → (placeIn s st r units tag bytes).stager k = s.stager k)) ∧
  (∀ (s : State) (st r units tag : Nat) (bytes : Nat → List Byte), (s.ring r).state = .failed → placeIn s st r units tag bytes = s) ∧
  (∀ (s : State) (r pos : Nat) (arm : Bool), (s.ring r).state = .free → (releaseRing s r pos arm).2 = 4 ∧
    (∀ k, (releaseRing s r pos arm).1.ring k = s.ring k) ∧ ∃ d ∈ (releaseRing s r pos arm).1.flt.waiting, d.block = 0x15 ∧ d.source = 4 ∧ d.d0 = w16 r ∧ d.d1 = 4) ∧
  (∀ (s : State) (r pos : Nat) (arm : Bool), (s.ring r).state ≠ .free → 2 ^ 31 ≤ posDiff pos (s.ring r).rel → (releaseRing s r pos arm).2 = 3 ∧
    (∀ k, (releaseRing s r pos arm).1.ring k = s.ring k)) ∧
  (∀ (s : State) (r pos : Nat) (arm : Bool), (s.ring r).state ≠ .free → posDiff pos (s.ring r).rel < 2 ^ 31 → posDiff (s.ring r).wr (s.ring r).rel < posDiff pos (s.ring r).rel →
    (releaseRing s r pos arm).2 = 2 ∧ ((releaseRing s r pos arm).1.ring r).rel = (s.ring r).wr) ∧
  (∀ (s : State) (r pos : Nat) (arm : Bool), (s.ring r).state ≠ .free → posDiff pos (s.ring r).rel < 2 ^ 31 → posDiff pos (s.ring r).rel ≤ posDiff (s.ring r).wr (s.ring r).rel →
    (releaseRing s r pos arm).2 = 0 ∧ ((releaseRing s r pos arm).1.ring r).rel = pos % 2 ^ 32)

/-- What harvest does by itself (R45, R370, R372, R374, R375, R381, R384). A waiting bank is handed over; a burst stays within
256 bytes of one block; an acknowledged one stands in DRAM and its record, once whole, is passed by WR_POS; a failed one is
retried, and after four failures its record is abandoned; a failed fill makes the ring FAILED; a parity error marks POISON; no
burst is sent in self-refresh; the timer notifies. -/
def Obligations.HarvestEvents : Prop :=
  (∀ (st : Fin 17) (s : State) (x : Staged) (l : List Staged), fillBank (s.stager st.val) = x :: l → (s.stager st.val).handed = false →
    ∃ t, exec (.bankHandoffTimeout st) s = .next t ∧ t.stager st.val = { s.stager st.val with fillB := !(s.stager st.val).fillB, handed := true } ∧
      t.clk.time = max s.clk.time (x.entered + 25600) ∧ (∀ k, k ≠ st.val → t.stager k = s.stager k) ∧
      t = { s with clk := { s.clk with time := t.clk.time }, harv := { s.harv with stager := t.harv.stager } }) ∧
  (∀ (st : Fin 17) (s : State), fillBank (s.stager st.val) = [] ∨ (s.stager st.val).handed = true → exec (.bankHandoffTimeout st) s = .next s) ∧
  (∀ (s : State) (st : Nat) (x : Staged) (l : List Staged) (off room : Nat), writing (s.stager st) = x :: l → off = (16 * x.pos + x.acked) % ringBytes (s.ring x.ring) →
    room = min (256 - off % 256) (ringBytes (s.ring x.ring) - off) →
    (room < 16 * x.len - x.acked → nextBurst s st = [(x, room)]) ∧ (16 * x.len - x.acked ≤ room → (nextBurst s st).head? = some (x, 16 * x.len - x.acked)) ∧
    ((nextBurst s st).map (fun p => p.2)).sum ≤ room) ∧
  (∀ (st : Fin 17) (s : State) (x : Staged) (n : Nat), s.clk.dramSleep = false → s.fw.current = none → s.harv.ends = [] → s.harv.late = [] →
    nextBurst s st.val = [(x, n)] → x.bytes.length = 16 * x.len → x.acked + n < 16 * x.len →
    ∃ t, exec (.dramBurstResponse st .ack none) s = .next t ∧
      (∀ i, i < n → tget (fun _ => 0) t.pat.dram
        ((s.ring x.ring).base + (16 * x.pos + x.acked) % ringBytes (s.ring x.ring) + i) = x.bytes.getD (x.acked + i) 0) ∧
      (∀ a, a < (s.ring x.ring).base + (16 * x.pos + x.acked) % ringBytes (s.ring x.ring) ∨
          (s.ring x.ring).base + (16 * x.pos + x.acked) % ringBytes (s.ring x.ring) + n ≤ a →
        tget (fun _ => 0) t.pat.dram a = tget (fun _ => 0) s.pat.dram a) ∧
      t.stager st.val = { setWriting (s.stager st.val) ({ x with acked := x.acked + n } :: (writing (s.stager st.val)).drop 1) with fails := 0 } ∧
      (∀ k, t.ring k = s.ring k) ∧ (∀ k, k ≠ st.val → t.stager k = s.stager k) ∧
      t = { s with pat := { s.pat with dram := t.pat.dram }, harv := { s.harv with stager := t.harv.stager } }) ∧
  (∀ (st : Fin 17) (s : State) (x : Staged) (n : Nat) (p : Placed), s.clk.dramSleep = false → s.fw.current = none → s.harv.ends = [] → s.harv.late = [] →
    nextBurst s st.val = [(x, n)] → x.acked + n = 16 * x.len → (s.ring x.ring).placed = [p] → p.seq = x.seq → p.len = x.len →
    ∃ t, exec (.dramBurstResponse st .ack none) s = .next t ∧ (t.ring x.ring).wr = ((s.ring x.ring).wr + x.len) % 2 ^ 32 ∧ (t.ring x.ring).placed = [] ∧
      (x.tag ≠ 0 → t.prog x.tag = { s.prog x.tag with lastSeq := x.seq, ring := w16 x.ring }) ∧ (∀ k, k ≠ x.tag ∨ x.tag = 0 → t.prog k = s.prog k) ∧
      t.stager st.val = { setWriting (s.stager st.val) ((writing (s.stager st.val)).drop 1) with fails := 0 } ∧
      (∀ k, k ≠ x.ring → t.ring k = s.ring k) ∧ (∀ k, k ≠ st.val → t.stager k = s.stager k)) ∧
  (∀ (st : Fin 17) (s : State) (r : BurstResponse) (x : Staged) (n : Nat) (l : List (Staged × Nat)), s.clk.dramSleep = false → s.fw.current = none →
    nextBurst s st.val = (x, n) :: l → r ≠ .ack → (s.stager st.val).fails < 3 →
    ∃ t, exec (.dramBurstResponse st r none) s = .next t ∧ t.stager st.val = { s.stager st.val with fails := (s.stager st.val).fails + 1 } ∧
      (∃ d ∈ t.flt.waiting, d.block = 0x15 ∧ d.source = 2 ∧ d.d0 = w16 x.ring) ∧ (∀ k, k ≠ st.val → t.stager k = s.stager k) ∧
      t = { s with harv := { s.harv with stager := t.harv.stager }, flt := { s.flt with waiting := t.flt.waiting } }) ∧
  (∀ (st : Fin 17) (s : State) (r : BurstResponse) (x : Staged) (n : Nat), s.clk.dramSleep = false → s.fw.current = none → s.harv.ends = [] → s.harv.late = [] →
    nextBurst s st.val = [(x, n)] → r ≠ .ack → (s.stager st.val).fails = 3 → (s.stager st.val).fills = [] →
    ∃ t y, exec (.dramBurstResponse st r none) s = .next t ∧ (t.stager st.val).fills = [y] ∧ y.ring = x.ring ∧ y.pos = x.pos ∧ y.len = x.len ∧ y.seq = x.seq ∧
      y.tag = 0 ∧ y.acked = 0 ∧ (t.stager st.val).fails = 0 ∧ (∃ d ∈ t.flt.waiting, d.block = 0x15 ∧ d.source = 3 ∧ d.d0 = w16 x.ring) ∧
      (∀ k, k ≠ st.val → t.stager k = s.stager k) ∧ t = { s with harv := { s.harv with stager := t.harv.stager }, flt := { s.flt with block := t.flt.block, waiting := t.flt.waiting } }) ∧
  (∀ (st : Fin 17) (s : State) (r : BurstResponse) (x : Staged) (n : Nat) (l : List (Staged × Nat)), s.clk.dramSleep = false → s.fw.current = none →
    s.harv.ends = [] → s.harv.late = [] → nextBurst s st.val = (x, n) :: l → r ≠ .ack → (s.stager st.val).fails = 3 → (s.stager st.val).fills ≠ [] →
    ∃ t, exec (.dramBurstResponse st r none) s = .next t ∧ t.ring x.ring = { s.ring x.ring with state := .failed, loss := none, placed := [] } ∧
      (∀ m, canReserve t x.ring m = false) ∧ (∀ k, k ≠ x.ring → t.ring k = s.ring k)) ∧
  (∀ (st : Fin 17) (s : State) (w : Fin 128) (x : Staged) (n : Nat), s.clk.dramSleep = false → s.fw.current = none → s.harv.ends = [] → s.harv.late = [] →
    (s.stager st.val).fills = [] → nextBurst s st.val = [(x, n)] → x.acked = 0 → x.bytes.length = 16 * x.len → 2 ≤ n → 2 * w.val < n → n < 16 * x.len →
    ∃ t, exec (.dramBurstResponse st .ack (some w)) s = .next t ∧
      (tget (fun _ => 0) t.pat.dram ((s.ring x.ring).base + 16 * x.pos % ringBytes (s.ring x.ring) + 1)).getLsbD 0 = true ∧
      ∃ d ∈ t.flt.waiting, d.block = 0x15 ∧ d.source = 1 ∧ d.d0 = w16 st.val) ∧
  (∀ (st : Fin 17) (r : BurstResponse) (bad : Option (Fin 128)) (s : State), s.clk.dramSleep = true ∨ writing (s.stager st.val) = [] →
    exec (.dramBurstResponse st r bad) s = .next s) ∧
  (∀ (ring : Ring) (s : State) (ts : Nat), (s.ring ring.toNat).advanced = some ts → (s.ring ring.toNat).armed = true → (s.ring ring.toNat).notifyUs ≠ 0 →
    ∃ t, exec (.notifyTimeout ring) s = .next t ∧ t.ring ring.toNat = { s.ring ring.toNat with armed := false, advanced := none } ∧
      t.clk.time = max s.clk.time (ts + 3200 * (s.ring ring.toNat).notifyUs) ∧ t.link.mtag = s.link.mtag + 1 ∧
      (∀ k, k ≠ ring.toNat → t.ring k = s.ring k) ∧ t = { s with clk := { s.clk with time := t.clk.time }, harv := { s.harv with ring := t.harv.ring }, link := t.link, flt := { s.flt with block := t.flt.block, waiting := t.flt.waiting } }) ∧
  (∀ (ring : Ring) (s : State), (s.ring ring.toNat).advanced = none ∨ (s.ring ring.toNat).armed = false ∨ (s.ring ring.toNat).notifyUs = 0 →
    exec (.notifyTimeout ring) s = .next s)

/-- The flits of a port (R398, R404 to R408, R421, R425). The expected flit of a class joins its message, and a whole message for
the part is consumed and its credit freed; one ahead of it asks for a NAK once, one behind it (DEDUCED 190) and a bad one are
discarded. A LINK_CTRL flit takes acknowledgements and credits, and acts by its type. A replay resends what is unacknowledged, the
sixteenth of a flit resets the port; timers send what is due. -/
def Obligations.LinkFlits : Prop :=
  (∀ (p : Port) (f : List Byte) (ok : Bool) (s : State), (s.port (portNum p)).step ≠ .active ∨ ok = false ∨ flitGood f = false ∨ flitType f ≠ 0 →
    exec (.dataFlitReceive p f ok) s = .next s) ∧
  (∀ (p : Port) (f : List Byte) (s : State), (s.port (portNum p)).step = .active → flitGood f = true → flitType f = 0 →
    flitSeq f = (s.cls (portNum p) (flitClass f)).rxSeq → bit (msgNum f 0 2) 14 = true → bit (msgNum f 0 2) 15 = false → (s.cls (portNum p) (flitClass f)).inMsg = false →
    ∃ t, exec (.dataFlitReceive p f true) s = .next t ∧ t.cls (portNum p) (flitClass f) = { s.cls (portNum p) (flitClass f) with rxSeq := (flitSeq f + 1) % 1024, naked := false, inMsg := true, partMsg := (f.drop 2).take 26 } ∧
      (∀ c, c ≠ flitClass f → t.cls (portNum p) c = s.cls (portNum p) c) ∧
      t.port (portNum p) = { s.port (portNum p) with cls := (t.port (portNum p)).cls, ctrlWaits := true } ∧
      t.port (1 - portNum p) = s.port (1 - portNum p) ∧ t = { s with link := { s.link with port := t.link.port } }) ∧
  (∀ (p : Port) (f : List Byte) (s : State), (s.port (portNum p)).step = .active → flitGood f = true → flitType f = 0 →
    flitSeq f = (s.cls (portNum p) (flitClass f)).rxSeq → bit (msgNum f 0 2) 14 = false → bit (msgNum f 0 2) 15 = false → (s.cls (portNum p) (flitClass f)).inMsg = true →
    ∃ t, exec (.dataFlitReceive p f true) s = .next t ∧ t.cls (portNum p) (flitClass f) = { s.cls (portNum p) (flitClass f) with rxSeq := (flitSeq f + 1) % 1024, naked := false, partMsg := (s.cls (portNum p) (flitClass f)).partMsg ++ (f.drop 2).take 26 } ∧
      (∀ c, c ≠ flitClass f → t.cls (portNum p) c = s.cls (portNum p) c) ∧
      t.port (portNum p) = { s.port (portNum p) with cls := (t.port (portNum p)).cls, ctrlWaits := true } ∧
      t.port (1 - portNum p) = s.port (1 - portNum p) ∧ t = { s with link := { s.link with port := t.link.port } }) ∧
  (∀ (f : List Byte) (s : State) (i : Instr), (s.port 0).step = .active → flitGood f = true → flitType f = 0 → flitClass f = 1 → flitSeq f = (s.cls 0 1).rxSeq →
    bit (msgNum f 0 2) 14 = true → bit (msgNum f 0 2) 15 = true → (s.cls 0 1).inMsg = false → msgNum f 8 2 ≤ 10 → s.link.addrValid = true → s.link.addr < 0x40 →
    msgNum f 3 1 = s.link.addr → msgNum f 5 1 < 8 → msgNum f 2 1 ≠ 0x0A → msgNum f 2 1 ≠ 0x0B → requestOf ((f.drop 2).take (16 + msgNum f 8 2)) = .ok i →
    s.perturbed 5 1 = false →
    ∃ t, exec (.dataFlitReceive .link0 f true) s = .next t ∧
      t.cls 0 1 = { s.cls 0 1 with rxSeq := (flitSeq f + 1) % 1024, naked := false, partMsg := [], rxFreed := ((s.cls 0 1).rxFreed + 1) % 65536 } ∧
      (∀ c, c ≠ 1 → t.cls 0 c = s.cls 0 c) ∧ t.port 0 = { s.port 0 with cls := (t.port 0).cls, ctrlWaits := true } ∧ t.port 1 = s.port 1 ∧
      t = { s with link := { s.link with port := t.link.port, inbox := s.link.inbox ++ [(f.drop 2).take (16 + msgNum f 8 2)] } }) ∧
  (∀ (p : Port) (f : List Byte) (s : State), (s.port (portNum p)).step = .active → flitGood f = true → flitType f = 0 →
    512 < ((s.cls (portNum p) (flitClass f)).rxSeq + 1024 - flitSeq f) % 1024 →
    exec (.dataFlitReceive p f true) s = .next (if (s.cls (portNum p) (flitClass f)).naked then s
      else s.modCls (portNum p) (flitClass f) (fun q => { q with nak := true, naked := true }))) ∧
  (∀ (p : Port) (f : List Byte) (s : State), (s.port (portNum p)).step = .active → flitGood f = true → flitType f = 0 →
    flitSeq f ≠ (s.cls (portNum p) (flitClass f)).rxSeq → ((s.cls (portNum p) (flitClass f)).rxSeq + 1024 - flitSeq f) % 1024 ≤ 512 →
    exec (.dataFlitReceive p f true) s = .next (s.modPort (portNum p) (fun q => { q with ctrlWaits := true }))) ∧
  (∀ (p : Port) (f : List Byte) (a : CtrlArrival) (s : State),
    ((s.port (portNum p)).step ≠ .active ∧ (s.port (portNum p)).step ≠ .measure) ∨ a.syncOk = false ∨ flitGood f = false ∨ flitType f ≠ 1 →
    exec (.linkCtrlReceive p f a) s = .next s) ∧
  (∀ (f : List Byte) (at' : Nat) (s : State), (s.port 1).step = .active → flitGood f = true → flitType f = 1 → msgNum f 18 1 = 0 →
    (∀ c, c < 4 → bit (msgNum f (2 + 2 * c) 2) 15 = false) →
    ∃ t, exec (.linkCtrlReceive .link1 f ⟨at', true⟩) s = .next t ∧ (∀ c, c < 4 → t.cls 1 c = { s.cls 1 c with replay := (t.cls 1 c).replay, replays := (t.cls 1 c).replays, resend := (t.cls 1 c).resend, txFreed := msgNum f (10 + 2 * c) 2, starved := (s.cls 1 c).starved && decide (creditOf { s.cls 1 c with txFreed := msgNum f (10 + 2 * c) 2 } c = 0) } ∧
        (∀ n x l, (s.cls 1 c).replay = (n, x) :: l → 0 < (msgNum f (2 + 2 * c) 2 % 1024 + 1024 - n) % 1024 →
          (msgNum f (2 + 2 * c) 2 % 1024 + 1024 - n) % 1024 ≤ (s.cls 1 c).replay.length →
          (t.cls 1 c).replay = (s.cls 1 c).replay.drop ((msgNum f (2 + 2 * c) 2 % 1024 + 1024 - n) % 1024) ∧ (t.cls 1 c).replays = 0 ∧
          (t.cls 1 c).resend = (s.cls 1 c).resend.drop ((s.cls 1 c).resend.length - (t.cls 1 c).replay.length)) ∧
        (((s.cls 1 c).replay = [] ∨ ∃ n x l, (s.cls 1 c).replay = (n, x) :: l ∧ ((msgNum f (2 + 2 * c) 2 % 1024 + 1024 - n) % 1024 = 0 ∨
            (s.cls 1 c).replay.length < (msgNum f (2 + 2 * c) 2 % 1024 + 1024 - n) % 1024)) →
          (t.cls 1 c).replay = (s.cls 1 c).replay ∧ (t.cls 1 c).replays = (s.cls 1 c).replays ∧ (t.cls 1 c).resend = (s.cls 1 c).resend)) ∧
      t.port 1 = { s.port 1 with cls := (t.port 1).cls } ∧ t.port 0 = s.port 0 ∧ (∀ k, k ≠ 0x17 → t.fblk k = s.fblk k) ∧
      t = { s with link := { s.link with port := t.link.port }, flt := { s.flt with block := t.flt.block } }) ∧
  (∀ (f : List Byte) (at' : Nat) (s : State), (s.port 1).step = .measure → flitGood f = true → flitType f = 1 → msgNum f 18 1 = 1 →
    exec (.linkCtrlReceive .link1 f ⟨at', true⟩) s = .next (s.modPort 1 (fun q => { q with delayRsp := true }))) ∧
  (∀ (f : List Byte) (at' t1 : Nat) (s : State), (s.port 0).step = .active → flitGood f = true → flitType f = 1 → msgNum f 18 1 = 2 →
    (∀ c, c < 4 → bit (msgNum f (2 + 2 * c) 2) 15 = false) → s.link.delayReq = some t1 →
    ∃ t, exec (.linkCtrlReceive .link0 f ⟨at', true⟩) s = .next t ∧ t.port 1 = s.port 1 ∧ (∀ k, k ≠ 0x16 → t.fblk k = s.fblk k) ∧
      t = { s with link := { s.link with port := t.link.port, delayReq := none, neighbour := msgNum f 19 1 % 128, delays := (roundAway ((at' : Int) - t1 - msgNum f 20 8) 2 :: s.link.delays).take 4096 }, flt := { s.flt with block := t.flt.block } }) ∧
  (∀ (f : List Byte) (at' : Nat) (s : State), (s.port 1).step = .measure → flitGood f = true → flitType f = 1 → msgNum f 18 1 = 3 →
    exec (.linkCtrlReceive .link1 f ⟨at', true⟩) s = .next (linkPortReset s 1)) ∧
  (∀ (f : List Byte) (at' : Nat) (s : State) (v : Int), (s.port 0).step = .active → flitGood f = true → flitType f = 1 → msgNum f 18 1 = 4 →
    (∀ c, c < 4 → bit (msgNum f (2 + 2 * c) 2) 15 = false) → v = (at' : Int) - hopDelay s - msgNum f 20 8 → -2147483648 ≤ v → v ≤ 2147483647 →
    ∃ t, exec (.linkCtrlReceive .link0 f ⟨at', true⟩) s = .next t ∧ t.link.syncOffset = (if msgNum f 19 1 % 128 = 0x7E then 0 else v) ∧
      (s.link.syncValid = true → 16 < v.natAbs → msgNum f 19 1 % 128 ≠ 0x7E → t.link.slip = true ∧ (t.fblk 0x16).live.getLsbD 8 = true ∧
        ((s.fblk 0x16).live.getLsbD 8 = false → ∃ d ∈ t.flt.waiting, d.block = 0x16 ∧ d.source = 8)) ∧
      (s.link.syncValid = false ∨ v.natAbs ≤ 16 ∨ msgNum f 19 1 % 128 = 0x7E → t.link.slip = s.link.slip ∧ (t.fblk 0x16).live.getLsbD 8 = false ∧
        t.flt.waiting = s.flt.waiting ∧ t.bus = s.bus) ∧
      t.port 1 = s.port 1 ∧ (∀ k, k ≠ 0x16 → t.fblk k = s.fblk k) ∧
      t = { s with bus := { s.bus with recent := t.bus.recent }, link := { s.link with port := t.link.port, neighbour := msgNum f 19 1 % 128, syncOffset := t.link.syncOffset, slip := t.link.slip }, flt := { s.flt with block := t.flt.block, waiting := t.flt.waiting } }) ∧
  (∀ (p : Port) (c : Fin 4) (s : State), (s.port (portNum p)).step = .active → (s.cls (portNum p) c.val).replay ≠ [] → (s.cls (portNum p) c.val).replays < 15 →
    ∃ t, exec (.replayTimeout p c) s = .next t ∧ t.cls (portNum p) c.val = { s.cls (portNum p) c.val with resend := (s.cls (portNum p) c.val).replay.map (fun e => e.2), replays := (s.cls (portNum p) c.val).replays + 1 } ∧
      (∀ k, k ≠ c.val → t.cls (portNum p) k = s.cls (portNum p) k) ∧ t.port (portNum p) = { s.port (portNum p) with cls := (t.port (portNum p)).cls } ∧
      t.port (1 - portNum p) = s.port (1 - portNum p) ∧
      t = { s with link := { s.link with port := t.link.port }, flt := { s.flt with waiting := s.flt.waiting ++ [{ block := 0x16 + portNum p, source := 2, d0 := w16 c.val, d1 := 0, forced := false, stamp := f3 s.now }] } }) ∧
  (∀ (p : Port) (c : Fin 4) (s : State), (s.port (portNum p)).step = .active → (s.cls (portNum p) c.val).replay ≠ [] → (s.cls (portNum p) c.val).replays = 15 →
    s.clk.resetting = none → s.clk.restarting = false →
    ∃ t, exec (.replayTimeout p c) s = .next t ∧ (t.port (portNum p)).step = .detect ∧ (t.port (portNum p)).resetReq = true ∧ (t.cls (portNum p) c.val).replay = [] ∧
      (∃ d ∈ t.flt.waiting, d.block = 0x16 + portNum p ∧ d.source = 2 ∧ d.d0 = w16 c.val) ∧
      (∃ d ∈ t.flt.waiting, d.block = 0x16 + portNum p ∧ d.source = 3 ∧ d.d0 = w16 c.val) ∧ ∃ d ∈ t.flt.waiting, d.block = 0x16 + portNum p ∧ d.source = 0) ∧
  (∀ (p : Port) (c : Fin 4) (s : State), (s.port (portNum p)).step ≠ .active ∨ (s.cls (portNum p) c.val).replay = [] → exec (.replayTimeout p c) s = .next s) ∧
  (∀ (p : Port) (c : Fin 4) (s : State), (s.port (portNum p)).step = .active → (s.cls (portNum p) c.val).queue ≠ [] ∨ (s.cls (portNum p) c.val).sending ≠ [] →
    creditOf (s.cls (portNum p) c.val) c.val = 0 → (s.cls (portNum p) c.val).starved = false →
    ∃ t, exec (.creditTimeout p c) s = .next t ∧ t.cls (portNum p) c.val = { s.cls (portNum p) c.val with starved := true } ∧
      (∀ k, k ≠ c.val → t.cls (portNum p) k = s.cls (portNum p) k) ∧ t.port (portNum p) = { s.port (portNum p) with cls := (t.port (portNum p)).cls } ∧
      t.port (1 - portNum p) = s.port (1 - portNum p) ∧ (t.fblk (0x16 + portNum p)).live.getLsbD 4 = true ∧ (∀ k, k ≠ 0x16 + portNum p → t.fblk k = s.fblk k) ∧
      t = { s with link := { s.link with port := t.link.port }, flt := { s.flt with block := t.flt.block, waiting := s.flt.waiting ++ [{ block := 0x16 + portNum p, source := 4, d0 := w16 c.val, d1 := 0, forced := false, stamp := f3 s.now }] } }) ∧
  (∀ (p : Port) (c : Fin 4) (s : State), (s.port (portNum p)).step ≠ .active ∨ 0 < creditOf (s.cls (portNum p) c.val) c.val ∨ (s.cls (portNum p) c.val).starved = true ∨
      (s.cls (portNum p) c.val).queue = [] ∧ (s.cls (portNum p) c.val).sending = [] →
    exec (.creditTimeout p c) s = .next s) ∧
  (∀ (p : Port) (s : State), (s.port (portNum p)).step = .active → (s.port (portNum p)).ctrlWaits = true → flitReady s (portNum p) 0 = false →
    ∃ t, exec (.linkCtrlDue p) s = .next t ∧ t.clk.time = max s.clk.time (((s.port (portNum p)).slot + 3) / 4) ∧
      (∀ c, c < 4 → t.cls (portNum p) c = { s.cls (portNum p) c with nak := false } ∧
        msgNum (t.port (portNum p)).wire (2 + 2 * c) 2 = ((s.cls (portNum p) c).rxSeq + if (s.cls (portNum p) c).nak then 32768 else 0) % 65536 ∧
        msgNum (t.port (portNum p)).wire (10 + 2 * c) 2 = (s.cls (portNum p) c).rxFreed % 65536) ∧
      (t.port (portNum p)).wire.length = 32 ∧ msgNum (t.port (portNum p)).wire 18 1 = 0 ∧ t.port (1 - portNum p) = s.port (1 - portNum p) ∧
      t.port (portNum p) = { s.port (portNum p) with cls := (t.port (portNum p)).cls, wire := (t.port (portNum p)).wire, ctrlWaits := false, ctrlDue := false, slot := max ((s.port (portNum p)).slot + flitTime (s.port (portNum p)).width) (4 * t.clk.time) } ∧
      t = { s with clk := { s.clk with time := t.clk.time }, link := { s.link with port := t.link.port } }) ∧
  (∀ (p : Port) (s : State), (s.port (portNum p)).step = .active → (s.port (portNum p)).ctrlWaits = true → flitReady s (portNum p) 0 = true →
    exec (.linkCtrlDue p) s = .next (s.modPort (portNum p) (fun q => { q with ctrlDue := true }))) ∧
  (∀ (p : Port) (s : State), (s.port (portNum p)).step ≠ .active ∨ (s.port (portNum p)).ctrlWaits = false → exec (.linkCtrlDue p) s = .next s) ∧
  (∀ (d : Nat) (s : State), (s.port 0).step = .active → ∃ t, exec (.delayExchangeTimer d) s = .next t ∧
      msgNum (t.port 0).wire 18 1 = 1 ∧ t.clk.time = max s.clk.time (d / 256) ∧ (∀ c, c < 4 → t.cls 0 c = { s.cls 0 c with nak := false }) ∧
      t.port 0 = { s.port 0 with cls := (t.port 0).cls, wire := (t.port 0).wire, ctrlWaits := false, ctrlDue := false } ∧ t.port 1 = s.port 1 ∧
      t = { s with clk := { s.clk with time := t.clk.time }, link := { s.link with port := t.link.port, delayReq := some d } }) ∧
  (∀ (d : Nat) (s : State), (s.port 0).step ≠ .active → exec (.delayExchangeTimer d) s = .next s) ∧
  (∀ (d : Nat) (s : State), (s.port 1).step = .active → ∃ t, exec (.timeCheckTimer d) s = .next t ∧ msgNum (t.port 1).wire 18 1 = 4 ∧
      msgNum (t.port 1).wire 20 8 = d % 2 ^ 64 ∧ t.clk.time = max s.clk.time (d / 256) ∧ (∀ c, c < 4 → t.cls 1 c = { s.cls 1 c with nak := false }) ∧
      t.port 1 = { s.port 1 with cls := (t.port 1).cls, wire := (t.port 1).wire, ctrlWaits := false, ctrlDue := false } ∧ t.port 0 = s.port 0 ∧
      t = { s with clk := { s.clk with time := t.clk.time }, link := { s.link with port := t.link.port } }) ∧
  (∀ (d : Nat) (s : State), (s.port 1).step ≠ .active → exec (.timeCheckTimer d) s = .next s)

/-- Training and link-port reset (R400 to R402). The steps follow one another and only from their own step; the width is
that of the lanes good at both ends; a step that fails starts over 20 ms later; an ACTIVE port starts at fresh sequence numbers and
credits and sends PORT_CHANGE, and LINK1 trains after LINK0 (R32); a lost block lock resets the port, which discards its flits, keeps
its queued messages, raises PORT_DOWN and leaves address and sync. -/
def Obligations.LinkTraining : Prop :=
  (∀ (p : Port) (lanes : BitVec 4) (s : State), exec (.laneSignalDetect p lanes) s =
      .next (if (s.port (portNum p)).step = .detect ∧ lanes ≠ 0 ∧ (∀ r, (s.port (portNum p)).retry = some r → r ≤ s.clk.time) then
        s.modPort (portNum p) (fun q => { q with step := .lock, signal := lanes, retry := none }) else s)) ∧
  (∀ (p : Port) (s : State), exec (.blockLockAcquired p) s = .next (if (s.port (portNum p)).step = .lock then
      s.modPort (portNum p) (fun q => { q with step := .equalise }) else s)) ∧
  (∀ (p : Port) (eyes : List (Nat × Nat)) (partner : BitVec 4) (s : State) (n : Nat), (s.port (portNum p)).step = .equalise →
    (∀ i, i < 4 → (n.testBit i = true ↔ 350 ≤ (eyes.getD i (0, 0)).1 ∧ 30 ≤ (eyes.getD i (0, 0)).2 ∧ partner.getLsbD i = true)) → n < 16 → n ≠ 0 →
    ∃ t, exec (.laneEqualiseDone p eyes partner) s = .next t ∧ t.port (portNum p) = { s.port (portNum p) with step := .measure, eyes := eyes, lanes := BitVec.ofNat 4 (chooseLanes n), width := laneCount (chooseLanes n) } ∧
      t.port (1 - portNum p) = s.port (1 - portNum p) ∧ t = { s with link := { s.link with port := t.link.port } }) ∧
  (∀ (p : Port) (eyes : List (Nat × Nat)) (partner : BitVec 4) (s : State), (s.port (portNum p)).step = .equalise →
    (∀ i, i < 4 → ¬ (350 ≤ (eyes.getD i (0, 0)).1 ∧ 30 ≤ (eyes.getD i (0, 0)).2 ∧ partner.getLsbD i = true)) →
    ∃ t, exec (.laneEqualiseDone p eyes partner) s = .next t ∧ t.port (portNum p) = { s.port (portNum p) with step := .detect, eyes := eyes, signal := 0, lanes := 0, width := 0, retry := some (s.clk.time + 64000000) } ∧
      t.port (1 - portNum p) = s.port (1 - portNum p) ∧ t = { s with link := { s.link with port := t.link.port } }) ∧
  (∀ (p : Port) (eyes : List (Nat × Nat)) (partner : BitVec 4) (s : State), (s.port (portNum p)).step ≠ .equalise →
    exec (.laneEqualiseDone p eyes partner) s = .next s) ∧
  (∀ n, n < 16 → chooseLanes n = (if n = 15 then 15 else if n % 4 = 3 then 3 else if n / 4 = 3 then 12 else if n % 2 = 1 then 1
      else if n % 4 = 2 then 2 else if n % 8 = 4 then 4 else if n = 8 then 8 else 0) ∧
    (chooseLanes n = 15 → laneCount (chooseLanes n) = 4) ∧ (laneCount (chooseLanes n) ≤ 4) ∧ laneCount (chooseLanes n) ≠ 3) ∧
  (∀ (p : Port) (d : Nat) (own : BitVec 7) (s : State), (s.port (portNum p)).step = .measure →
    ∃ t m, exec (.delayMeasureDone p d own) s = .next t ∧
      t.port (portNum p) = { s.port (portNum p) with step := .active, wasActive := true, resetReq := false, retrain := false, slot := 4 * s.clk.time, cls := (t.port (portNum p)).cls } ∧
      (∀ c, t.cls (portNum p) c = { queue := (s.cls (portNum p) c).queue ++ if portNum p = 0 ∧ c = 1 then [(false, m)] else [] }) ∧
      (portNum p = 1 → ∀ c, t.cls 0 c = { s.cls 0 c with queue := (s.cls 0 c).queue ++ if c = 1 then [(false, m)] else [] }) ∧
      msgNum m 0 1 = 0x0D ∧ msgNum m 8 2 = 3 ∧ msgNum m 10 2 = (portNum p + 2 * (s.port (portNum p)).width) % 65536 ∧
      (portNum p = 0 → t.link.trainDelay = d ∧ t.link.neighbour = own.toNat ∧ t.link.delays = [] ∧ t.link.delayReq = none ∧
        t.port 1 = { s.port 1 with step := if (s.port 1).step = .off then .detect else (s.port 1).step }) ∧
      (portNum p = 1 → t.link.trainDelay = s.link.trainDelay ∧ t.link.neighbour = s.link.neighbour ∧ t.link.delays = s.link.delays ∧
        t.link.delayReq = s.link.delayReq ∧ t.port 0 = { s.port 0 with cls := (t.port 0).cls }) ∧
      ((s.port (portNum p)).width < 4 → (t.fblk (0x16 + portNum p)).live.getLsbD 1 = true ∧
        ((s.fblk (0x16 + portNum p)).live.getLsbD 1 = false → ∃ x ∈ t.flt.waiting, x.block = 0x16 + portNum p ∧ x.source = 1)) ∧
      (4 ≤ (s.port (portNum p)).width → (t.fblk (0x16 + portNum p)).live.getLsbD 1 = false ∧ t.flt.waiting = s.flt.waiting) ∧
      (t.fblk (0x16 + portNum p)).live.getLsbD 0 = false ∧ (∀ k, k ≠ 0x16 + portNum p → t.fblk k = s.fblk k) ∧
      t = { s with link := { s.link with port := t.link.port, mtag := s.link.mtag + 1, trainDelay := t.link.trainDelay, neighbour := t.link.neighbour, delays := t.link.delays, delayReq := t.link.delayReq }, flt := { s.flt with block := t.flt.block, waiting := t.flt.waiting } }) ∧
  (∀ (p : Port) (d : Nat) (own : BitVec 7) (s : State), (s.port (portNum p)).step ≠ .measure → exec (.delayMeasureDone p d own) s = .next s) ∧
  (∀ (p : Port) (s : State), (s.port (portNum p)).step = .lock ∨ (s.port (portNum p)).step = .equalise ∨ (s.port (portNum p)).step = .measure →
    ∃ t, exec (.trainingRetry p) s = .next t ∧
      t.port (portNum p) = { s.port (portNum p) with step := .detect, signal := 0, width := 0, lanes := 0, retry := none } ∧
      t.port (1 - portNum p) = s.port (1 - portNum p) ∧
      t = { s with clk := { s.clk with time := s.clk.time + 64000000 }, link := { s.link with port := t.link.port } }) ∧
  (∀ (p : Port) (s : State) (r : Nat), (s.port (portNum p)).step = .off ∨ (s.port (portNum p)).step = .detect ∨ (s.port (portNum p)).step = .active →
    (s.port (portNum p)).retry = some r →
    ∃ t, exec (.trainingRetry p) s = .next t ∧ t.port (portNum p) = { s.port (portNum p) with retry := none } ∧
      t.port (1 - portNum p) = s.port (1 - portNum p) ∧
      t = { s with clk := { s.clk with time := max s.clk.time r }, link := { s.link with port := t.link.port } }) ∧
  (∀ (p : Port) (s : State), (s.port (portNum p)).step = .off ∨ (s.port (portNum p)).step = .detect ∨ (s.port (portNum p)).step = .active →
    (s.port (portNum p)).retry = none → exec (.trainingRetry p) s = .next s) ∧
  (∀ (p : Port) (s : State), (s.port (portNum p)).step = .active → s.clk.resetting = none → s.clk.restarting = false →
    ∃ t, exec (.blockLockLoss p) s = .next t ∧ (t.port (portNum p)).step = .detect ∧ (t.port (portNum p)).width = 0 ∧ (t.port (portNum p)).resetReq = true ∧
      (t.port (portNum p)).retrain = true ∧ (t.port (portNum p)).retrains = min 63 ((s.port (portNum p)).retrains + 1) ∧
      (∀ c, t.cls (portNum p) c = { queue := (t.cls (portNum p) c).queue }) ∧
      (t.port (1 - portNum p)).step = (s.port (1 - portNum p)).step ∧ (t.port (1 - portNum p)).width = (s.port (1 - portNum p)).width ∧
      t.link.addr = s.link.addr ∧ t.link.addrValid = s.link.addrValid ∧
      t.link.syncValid = s.link.syncValid ∧ t.flt.armed = false ∧ t.bus.halfHost = none ∧ t.bus.halfShed = none ∧
      (t.fblk (0x16 + portNum p)).live.getLsbD 0 = true ∧ (∃ d ∈ t.flt.waiting, d.block = 0x16 + portNum p ∧ d.source = 0)) ∧
  (∀ (p : Port) (s : State), (s.port (portNum p)).step = .active → s.clk.resetting = none → s.clk.restarting = false →
    (∀ e, e < 16 → (s.pert e).active = false) → (∀ n, n < 8 → (s.mbx n).delayEnd = none) →
    ∃ t m, exec (.blockLockLoss p) s = .next t ∧
      (∀ c, (t.cls (portNum p) c).queue = (s.cls (portNum p) c).queue ++ if portNum p = 0 ∧ c = 1 then [(false, m)] else []) ∧
      (∀ c, ((t.cls (1 - portNum p) c).queue).map (fun e => e.2) = ((s.cls (1 - portNum p) c).queue).map (fun e => e.2) ++
        if portNum p = 1 ∧ c = 1 then [m] else []) ∧ msgNum m 0 1 = 0x0D ∧ msgNum m 8 2 = 3 ∧ msgNum m 10 2 = portNum p ∧
      (∀ k, k ≠ 0x16 + portNum p → t.fblk k = s.fblk k) ∧
      t = { s with bus := { s.bus with halfHost := none, halfShed := none }, link := { s.link with port := t.link.port, delays := t.link.delays, delayReq := t.link.delayReq, mtag := s.link.mtag + 1 }, flt := { s.flt with block := t.flt.block, entry := t.flt.entry, armed := false, waiting := t.flt.waiting } }) ∧
  (∀ (p : Port) (s : State), (s.port (portNum p)).step ≠ .active ∨ s.clk.resetting.isSome = true ∨ s.clk.restarting = true →
    exec (.blockLockLoss p) s = .next s)

/-- URGENT, SYNC_MARK and the local sync (R411, R417, R422 to R424, R525). An URGENT message starts a chain cloche at every bed and
goes on unchanged, or is lost where eight wait; a mark in time is pending at its firing time, a late one clears SYNC_VALID, one too
early after another is ignored, all go tipward; the sync steps chip time by S, loads the bed time bases and slews by the rest. -/
def Obligations.ChainSync : Prop :=
  (∀ (p : Port) (u : UrgentMsg) (s : State), (s.port (portNum p)).step = .active →
    ∃ v t, exec (.urgent p u) s = .next t ∧ v = clocheChain s .dead { block := u.block.toNat, source := u.source.toNat, origin := u.origin.toNat + 128 } ∧
      (takesUrgent v (1 - portNum p) = false → t = v) ∧ (takesUrgent v (1 - portNum p) = true → queueFull v (1 - portNum p) 0 = false →
        t = v.modCls (1 - portNum p) 0 (fun q => { q with queue := q.queue ++ [(true, urgentBytes u)] })) ∧
      (takesUrgent v (1 - portNum p) = true → queueFull v (1 - portNum p) 0 = true →
        t = { v with flt := { v.flt with waiting := v.flt.waiting ++ [{ block := 0x16 + (1 - portNum p), source := 5, d0 := u.urgId, d1 := 0, forced := false, stamp := f3 v.now }] } }) ∧
      (∀ b, b < 16 → (t.bedc b).active = true) ∧ Cause.dead ∈ t.flt.chain ∧ Cause.dead ∈ t.flt.chip ∧
      (∀ x, x ∈ s.flt.chain → x ∈ t.flt.chain) ∧ (∀ x, x ∈ s.flt.chip → x ∈ t.flt.chip)) ∧
  (∀ (p : Port) (u : UrgentMsg) (s : State), (s.port (portNum p)).step ≠ .active → exec (.urgent p u) s = .next s) ∧
  (∀ (total acc : BitVec 32) (epoch : BitVec 64) (arr res : Nat) (s : State), s.link.addrValid = true → s.link.pendingSync = none →
    (∀ l, s.link.lastSync = some l → l + 640000 ≤ arr / 256) → acc.toNat + hopDelay s + 1638400 ≤ total.toNat → (s.port 1).step ≠ .active →
    ∃ t, exec (.syncMark 0x7F total acc epoch arr res) s = .next t ∧
      t.link.inbox.filter (fun m => decide (msgNum m 0 1 ≠ 0x0B)) = s.link.inbox.filter (fun m => decide (msgNum m 0 1 ≠ 0x0B)) ∧
      t = { s with clk := { s.clk with time := max s.clk.time (arr / 256) }, link := { s.link with inbox := t.link.inbox, pendingSync := some { f := arr + total.toNat - (acc.toNat + hopDelay s), epoch := epoch.toNat } } }) ∧
  (∀ (total acc : BitVec 32) (epoch : BitVec 64) (arr res : Nat) (s : State), s.link.addrValid = true → s.link.pendingSync = none →
    (∀ l, s.link.lastSync = some l → l + 640000 ≤ arr / 256) → total.toNat < acc.toNat + hopDelay s + 1638400 →
    ∃ t, exec (.syncMark 0x7F total acc epoch arr res) s = .next t ∧ t.link.pendingSync = none ∧ t.link.late = true ∧ t.link.syncValid = false ∧
      (∃ d ∈ t.flt.waiting, d.block = 0x16 ∧ d.source = 7) ∧
      ((s.port 1).step ≠ .active → t = { s with clk := { s.clk with time := max s.clk.time (arr / 256) }, bus := { s.bus with recent := t.bus.recent }, link := { s.link with inbox := t.link.inbox, late := true, syncValid := false }, flt := { s.flt with waiting := t.flt.waiting } })) ∧
  (∀ (total acc : BitVec 32) (epoch : BitVec 64) (arr res : Nat) (s : State), s.link.addrValid = true →
    (s.link.pendingSync ≠ none ∨ ∃ l, s.link.lastSync = some l ∧ arr / 256 < l + 640000) →
    ∃ t, exec (.syncMark 0x7F total acc epoch arr res) s = .next t ∧ t.link.pendingSync = s.link.pendingSync ∧ t.link.ignored = true ∧
      t.link.syncValid = s.link.syncValid ∧ (∃ d ∈ t.flt.waiting, d.block = 0x16 ∧ d.source = 9) ∧
      ((s.port 1).step ≠ .active → t = { s with clk := { s.clk with time := max s.clk.time (arr / 256) }, bus := { s.bus with recent := t.bus.recent }, link := { s.link with inbox := t.link.inbox, ignored := true }, flt := { s.flt with waiting := t.flt.waiting } })) ∧
  (∀ (total acc : BitVec 32) (epoch : BitVec 64) (arr res : Nat) (s : State) (m : List Byte), s.link.addrValid = false → (s.port 1).step = .active →
    s.link.inbox = [m] → msgNum m 0 1 = 0x0B → msgNum m 8 4 = total.toNat → msgNum m 12 4 = acc.toNat → msgNum m 16 8 = epoch.toNat → queueFull s 1 0 = false →
    ∃ t, exec (.syncMark 0x7F total acc epoch arr res) s = .next t ∧
      t.cls 1 0 = { s.cls 1 0 with queue := (s.cls 1 0).queue ++ [(false, putAt 12 (toBytes 4 ((acc.toNat + hopDelay s + res) % 2 ^ 32)) m)] } ∧
      (∀ c, c ≠ 0 → t.cls 1 c = s.cls 1 c) ∧ t.port 1 = { s.port 1 with cls := (t.port 1).cls } ∧ t.port 0 = s.port 0 ∧
      t = { s with clk := { s.clk with time := max s.clk.time (arr / 256) }, link := { s.link with port := t.link.port, inbox := [] } }) ∧
  (∀ (dest : BitVec 7) (total acc : BitVec 32) (epoch : BitVec 64) (arr res : Nat) (s : State), dest ≠ 0x7F →
    ∃ t d, exec (.syncMark dest total acc epoch arr res) s = .next t ∧ d.block = 0x16 ∧ d.source = 6 ∧ d.d0 = 0x0B ∧ d.d1 = w16 dest.toNat ∧
      t = { s with clk := { s.clk with time := max s.clk.time (arr / 256) }, flt := { s.flt with waiting := s.flt.waiting ++ [d] } }) ∧
  (∀ (s : State) (x : PendingSync), s.link.pendingSync = some x → s.perturbed 2 1 = false → s.perturbed 2 3 = false →
    ∃ t S φ, exec .localSync s = .next t ∧ (256 * (x.epoch : Int) - x.f = 256 * S + φ) ∧ -128 ≤ φ ∧ φ ≤ 127 ∧ t.link.pendingSync = none ∧
      t.link.syncEpoch = x.epoch ∧ t.link.lastPhase = φ ∧ t.link.lastStep = max (-2147483647) (min 2147483647 S) ∧ t.link.slewing = decide (φ ≠ 0) ∧
      (φ = 0 → t.link.syncValid = true) ∧ t.link.lastSync = some t.clk.time ∧ (S = 0 → t.clk.time = max s.clk.time (x.f / 256)) ∧
      (S ≠ 0 → t.clk.time = toTwos 64 ((max s.clk.time (x.f / 256) : Nat) + S)) ∧
      ((∀ e ∈ s.meas.unit, e.2.run = none) → t.link.syncCount = min 65535 (s.link.syncCount + 1) ∧ (s.perturbed 2 2 = false → ∀ b, b < 16 → t.base b = 0) ∧ (φ ≠ 0 → t.link.syncValid = s.link.syncValid)) ∧
      (S = 0 → t = { s with free := t.free, clk := { s.clk with time := t.clk.time }, bus := { s.bus with recent := t.bus.recent }, edge := { s.edge with base := t.edge.base }, link := { s.link with pendingSync := none, syncEpoch := t.link.syncEpoch, syncCount := t.link.syncCount, lastStep := t.link.lastStep, lastPhase := t.link.lastPhase, lastSync := t.link.lastSync, slewing := t.link.slewing, syncValid := t.link.syncValid } })) ∧
  (∀ (s : State), s.link.pendingSync = none → exec .localSync s = .next s) ∧
  (∀ (s : State) (l : Nat), s.link.slewing = true → s.link.lastSync = some l →
    ∃ t, exec .phaseSlewEnd s = .next t ∧ t.clk.time = max s.clk.time (l + 3200 * s.link.lastPhase.natAbs) ∧
      t = { s with clk := { s.clk with time := t.clk.time }, link := { s.link with slewing := false, syncValid := true } }) ∧
  (∀ (s : State), s.link.slewing = false → exec .phaseSlewEnd s = .next s)

/-- The requests that the part consumes (R68 to R70, R79, R80, R205, R207, R383, R413 to R416, R419): each leaves the messages
whose effect is due, has its effect and its response; a bad field, a busy mailbox, an active segment and the ring area are
refused whole. -/
def Obligations.Requests : Prop :=
  (∀ (s : State) (i : Instr), takeRequest s i = { s with link := { s.link with inbox := (takeRequest s i).link.inbox } } ∧
    (∀ m l, s.link.inbox = m :: l → requestOf m = .ok i → (takeRequest s i).link.inbox = l) ∧
    ((∀ m ∈ s.link.inbox, requestOf m ≠ .ok i) → takeRequest s i = s)) ∧
  (∀ (s : State) (h : MsgHdr) (a : Addr) (b : BitVec 40) (n : Word) (m : Byte) (ws : List Word) (l : List Byte) (r : Ring) (fl : Byte) (pos : BitVec 32),
    busAlive s = false → ∀ i ∈ [Instr.regRead h a, .regWrite h a ws, .regBurstRead h a n, .mailboxPost h m ws, .doorbell h m, .bulkRead h b n, .bulkWrite h b l,
      .release h r fl pos], exec i s = .next (takeRequest s i)) ∧
  (∀ (s v : State) (h : MsgHdr) (a : Addr), busAlive s = true → v = busRead (takeRequest s (.regRead h a)) .host a.toNat →
    ∃ t, exec (.regRead h a) s = .next t ∧ v.bus.lastRead = w16 (readWord (readEffect (takeRequest s (.regRead h a)) .host a.toNat) .host a.toNat) ∧
      Responds h 1 0 (toBytes 2 v.bus.lastRead.toNat) false [] v t) ∧
  (∀ (s v w : State) (h : MsgHdr) (a : Addr) (n : Word) (first last k : Nat), busAlive s = true → v = takeRequest s (.regBurstRead h a n) → w = busTurn v .host →
    1 ≤ n.toNat → n.toNat ≤ 256 → busRegion a.toNat = some (first, last) → a.toNat ≤ last → k = min n.toNat (last + 1 - a.toNat) → (0x4002 < a.toNat ∨ a.toNat + k ≤ 0x4002) →
    ∃ u t, exec (.regBurstRead h a n) s = .next t ∧
      u = { v with clk := { v.clk with time := u.clk.time }, bus := { v.bus with lastHost := some (f3 u.clk.time) } } ∧
      (s.clk.pllLocked = true ∨ s.clk.holdover = true → u.clk.time = max w.clk.time (f3 w.clk.time + 16 * (k - 1))) ∧
      Responds h 3 0 (toBytes 2 k) (decide (k < n.toNat))
        (wordsToBytes ((List.range k).map (fun i => w16 (readWord w .host (a.toNat + i)))) ++ List.replicate (2 * (n.toNat - k)) 0) u t) ∧
  (∀ (s v : State) (h : MsgHdr) (a : Addr) (n : Word), busAlive s = true → v = takeRequest s (.regBurstRead h a n) → 1 ≤ n.toNat → n.toNat ≤ 256 →
    busRegion a.toNat = none →
    ∃ t, exec (.regBurstRead h a n) s = .next t ∧ Responds h 3 0 (toBytes 2 0) true (List.replicate (2 * n.toNat) 0)
      (busDone (unmapped (busTurn v .host) a.toNat) .host) t) ∧
  (∀ (s : State) (h : MsgHdr) (a : Addr) (n : Word), busAlive s = true → n = 0 ∨ 256 < n.toNat →
    ∃ t, exec (.regBurstRead h a n) s = .next t ∧ Responds h 3 0x12 [0, 0] false [] (takeRequest s (.regBurstRead h a n)) t) ∧
  (∀ (s v : State) (h : MsgHdr) (a : Addr) (x : Word) (r : Nat × Nat), busAlive s = true → v = takeRequest s (.regWrite h a [x]) → busRegion a.toNat = some r →
    ¬ (h.dest = 0x7D ∧ s.link.addrValid = false) → a.toNat ≤ r.2 → busAlive (writeWord (busTurn v .host) .host a.toNat x) = true →
    ∃ t, exec (.regWrite h a [x]) s = .next t ∧ Responds h 2 0 (toBytes 2 1) false [] (busWrite v .host a.toNat x) t) ∧
  (∀ (s v w : State) (h : MsgHdr) (a : Addr) (x y : Word) (r : Nat × Nat), busAlive s = true → v = takeRequest s (.regWrite h a [x, y]) → busRegion a.toNat = some r →
    ¬ (h.dest = 0x7D ∧ s.link.addrValid = false) → a.toNat < r.2 → a.toNat % 2 = 1 → w = busWrite v .host a.toNat x → busAlive w = true →
    busAlive (writeWord (busTurn w .host) .host (a.toNat + 1) y) = true →
    ∃ t, exec (.regWrite h a [x, y]) s = .next t ∧ Responds h 2 0 (toBytes 2 2) false [] (busWrite w .host (a.toNat + 1) y) t) ∧
  (∀ (s v : State) (h : MsgHdr) (a : Addr) (x : Word) (ws : List Word), busAlive s = true → v = takeRequest s (.regWrite h a (x :: ws)) → ws.length < 256 →
    busRegion a.toNat = none →
    ∃ t, exec (.regWrite h a (x :: ws)) s = .next t ∧ Responds h 2 0 (toBytes 2 0) true [] (busDone (unmapped (busTurn v .host) a.toNat) .host) t) ∧
  (∀ (s : State) (h : MsgHdr) (a : Addr) (ws : List Word), busAlive s = true → ws = [] ∨ 256 < ws.length →
    ∃ t, exec (.regWrite h a ws) s = .next t ∧ Responds h 2 0x12 [0, 0] false [] (takeRequest s (.regWrite h a ws)) t) ∧
  (∀ (s : State) (h : MsgHdr) (x : Word), busAlive s = true → h.dest = 0x7D → s.link.addrValid = false → halfOf s .host = none → x.toNat < 64 →
    x.toNat = (if s.link.neighbour = 0x7E then 0 else s.link.neighbour + 1) →
    ∃ t, exec (.regWrite h 0x1C18 [x]) s = .next t ∧
      (h.norsp = false → (t.cls 0 1).queue = (s.cls 0 1).queue ++ [(false, msgBytes 2 0x7E x.toNat 1 h.mtag.toNat (toBytes 2 0 ++ toBytes 2 1) [])]) ∧
      t = { s with clk := { s.clk with time := t.clk.time }, bus := { s.bus with recent := t.bus.recent, lastHost := t.bus.lastHost }, link := { s.link with inbox := t.link.inbox, port := t.link.port, addr := x.toNat, addrValid := true } }) ∧
  (∀ (s : State) (h : MsgHdr) (x : Word), busAlive s = true → h.dest = 0x7D → s.link.addrValid = false → halfOf s .host = none →
    x.toNat ≠ (if s.link.neighbour = 0x7E then 0 else s.link.neighbour + 1) ∨ 64 ≤ x.toNat →
    ∃ t, exec (.regWrite h 0x1C18 [x]) s = .next t ∧
      (h.norsp = false → (t.cls 0 1).queue = (s.cls 0 1).queue ++ [(false, msgBytes 2 0x7E s.link.addr 1 h.mtag.toNat (toBytes 2 0x12 ++ toBytes 2 1) [])]) ∧
      t = { s with clk := { s.clk with time := t.clk.time }, bus := { s.bus with recent := t.bus.recent, lastHost := t.bus.lastHost }, link := { s.link with inbox := t.link.inbox, port := t.link.port } }) ∧
  (∀ (s v : State) (h : MsgHdr) (n : Byte) (ws : List Word), busAlive s = true → v = takeRequest s (.mailboxPost h n ws) → n.toNat < 8 → 6 ≤ ws.length →
    ws.length ≤ 126 → 6 + (ws.getD 2 0).toNat ≤ ws.length → (s.mbx n.toNat).state = .idle ∨ (s.mbx n.toNat).state = .done →
    ∃ u t, exec (.mailboxPost h n ws) s = .next t ∧ u.mbx n.toNat = { s.mbx n.toNat with state := .posted, opcode := ws.getD 0 0, tag := ws.getD 1 0, length := ws.getD 2 0, flags := ws.getD 3 0, ring := ws.getD 4 0, word5 := ws.getD 5 0, param := (u.mbx n.toNat).param, passed := 0, async := false, rOpcode := 0, rTag := 0, status := 0, detail := 0, rLength := 0 } ∧
      (∀ i, i < 120 → tget (fun _ => 0) (u.mbx n.toNat).param i = (if 6 + i < ws.length then ws.getD (6 + i) 0 else tget (fun _ => 0) (s.mbx n.toNat).param i)) ∧
      (∀ k, k ≠ n.toNat → u.mbx k = s.mbx k) ∧ u = { busTurn v .host with mb := u.mb } ∧
      Responds h 4 0 (toBytes 2 (mailboxWord (u.mbx n.toNat) 0x80)) false [] (busDone u .host) t) ∧
  (∀ (s v : State) (h : MsgHdr) (n : Byte) (ws : List Word), busAlive s = true → v = takeRequest s (.mailboxPost h n ws) → n.toNat < 8 → 6 ≤ ws.length →
    ws.length ≤ 126 → 6 + (ws.getD 2 0).toNat ≤ ws.length → (s.mbx n.toNat).state ≠ .idle → (s.mbx n.toNat).state ≠ .done →
    ∃ u t, exec (.mailboxPost h n ws) s = .next t ∧
      u.mbx n.toNat = { s.mbx n.toNat with refused := true, refusedCount := min 65535 ((s.mbx n.toNat).refusedCount + 1) } ∧
      (∀ k, k ≠ n.toNat → u.mbx k = s.mbx k) ∧ u = { busTurn v .host with bus := { v.bus with recent := u.bus.recent }, mb := u.mb } ∧
      Responds h 4 0x10 (toBytes 2 (mailboxWord (u.mbx n.toNat) 0x80)) false [] (busDone u .host) t) ∧
  (∀ (s : State) (h : MsgHdr) (n : Byte) (ws : List Word), busAlive s = true → ws.length < 6 ∨ 126 < ws.length ∨ ws.length < 6 + (ws.getD 2 0).toNat →
    ∃ t, exec (.mailboxPost h n ws) s = .next t ∧ Responds h 4 0x12 [0, 0] false [] (takeRequest s (.mailboxPost h n ws)) t) ∧
  (∀ (s : State) (h : MsgHdr) (n : Byte) (ws : List Word), busAlive s = true → 8 ≤ n.toNat →
    ∃ t, exec (.mailboxPost h n ws) s = .next t ∧ Responds h 4 0x12 [0, 0] false [] (takeRequest s (.mailboxPost h n ws)) t) ∧
  (∀ (s v : State) (h : MsgHdr) (n : Byte), busAlive s = true → v = takeRequest s (.doorbell h n) → n.toNat < 8 → (s.mbx n.toNat).state = .idle ∨ (s.mbx n.toNat).state = .done →
    ∃ u t, exec (.doorbell h n) s = .next t ∧ u.mbx n.toNat = { s.mbx n.toNat with state := .posted, passed := 0, async := false, rOpcode := 0, rTag := 0, status := 0, detail := 0, rLength := 0 } ∧
      (∀ k, k ≠ n.toNat → u.mbx k = s.mbx k) ∧ u = { busTurn v .host with mb := u.mb } ∧
      Responds h 5 0 (toBytes 2 (mailboxWord (u.mbx n.toNat) 0x80)) false [] (busDone u .host) t) ∧
  (∀ (s v : State) (h : MsgHdr) (n : Byte), busAlive s = true → v = takeRequest s (.doorbell h n) → n.toNat < 8 → (s.mbx n.toNat).state ≠ .idle → (s.mbx n.toNat).state ≠ .done →
    ∃ u t, exec (.doorbell h n) s = .next t ∧
      u.mbx n.toNat = { s.mbx n.toNat with refused := true, refusedCount := min 65535 ((s.mbx n.toNat).refusedCount + 1) } ∧
      (∀ k, k ≠ n.toNat → u.mbx k = s.mbx k) ∧ u = { busTurn v .host with bus := { v.bus with recent := u.bus.recent }, mb := u.mb } ∧
      Responds h 5 0x10 (toBytes 2 (mailboxWord (u.mbx n.toNat) 0x80)) false [] (busDone u .host) t) ∧
  (∀ (s : State) (h : MsgHdr) (n : Byte), busAlive s = true → 8 ≤ n.toNat →
    ∃ t, exec (.doorbell h n) s = .next t ∧ Responds h 5 0x12 [0, 0] false [] (takeRequest s (.doorbell h n)) t) ∧
  (∀ (s v : State) (h : MsgHdr) (a : BitVec 40) (n : Word), busAlive s = true → v = takeRequest s (.bulkRead h a n) → a.toNat % 2 = 0 → n.toNat % 2 = 0 → 2 ≤ n.toNat →
    n.toNat ≤ 512 → 0 < dataMib s → a.toNat + n.toNat ≤ dataMib s * 2 ^ 20 →
    ∃ t, exec (.bulkRead h a n) s = .next t ∧
      Responds h 6 0 [] false ((List.range n.toNat).map (fun i => tget (fun _ => 0) s.pat.dram (a.toNat + i))) { v with clk := { v.clk with dramSleep := false } } t) ∧
  (∀ (s : State) (h : MsgHdr) (a : BitVec 40) (n : Word), busAlive s = true → a.toNat % 2 = 0 → n.toNat % 2 = 0 → 2 ≤ n.toNat → n.toNat ≤ 512 →
    ∃ t, (dataMib s = 0 → exec (.bulkRead h a n) s = .next t ∧ Responds h 6 0x13 [] false [] (takeRequest s (.bulkRead h a n)) t) ∧
      (0 < dataMib s → dataMib s * 2 ^ 20 < a.toNat + n.toNat → exec (.bulkRead h a n) s = .next t ∧ Responds h 6 0x12 [] false [] (takeRequest s (.bulkRead h a n)) t)) ∧
  (∀ (s : State) (h : MsgHdr) (a : BitVec 40) (n : Word), busAlive s = true → a.toNat % 2 = 1 ∨ n.toNat % 2 = 1 ∨ n.toNat < 2 ∨ 512 < n.toNat →
    ∃ t, exec (.bulkRead h a n) s = .next t ∧ Responds h 6 0x12 [] false [] (takeRequest s (.bulkRead h a n)) t) ∧
  (∀ (s : State) (h : MsgHdr) (a : BitVec 40) (l : List Byte), busAlive s = true → a.toNat % 2 = 1 ∨ l.length % 2 = 1 ∨ l.length < 2 ∨ 512 < l.length →
    ∃ t, exec (.bulkWrite h a l) s = .next t ∧ Responds h 7 0x12 [0, 0] false [] (takeRequest s (.bulkWrite h a l)) t) ∧
  (∀ (s v : State) (h : MsgHdr) (a : BitVec 40) (l : List Byte), busAlive s = true → v = takeRequest s (.bulkWrite h a l) → a.toNat % 2 = 0 → l.length % 2 = 0 → 2 ≤ l.length →
    l.length ≤ 512 → 0 < dataMib s → a.toNat + l.length ≤ dataMib s * 2 ^ 20 → a.toNat + l.length ≤ patternBytes s →
    (∀ g ∈ overlapped s a.toNat l.length, segActive s g = false) →
    ∃ u t, exec (.bulkWrite h a l) s = .next t ∧ Responds h 7 0 [0, 0] false [] (startFetch u) t ∧
      (∀ k, tget (fun _ => 0) u.pat.dram k = (if a.toNat ≤ k ∧ k < a.toNat + l.length then l.getD (k - a.toNat) 0 else tget (fun _ => 0) s.pat.dram k)) ∧
      (∀ g ∈ overlapped s a.toNat l.length, u.segm g = { s.segm g with resident := false, copy := {} }) ∧
      (∀ g, g ∉ overlapped s a.toNat l.length → u.segm g = s.segm g) ∧
      u = { v with clk := { v.clk with dramSleep := false }, pat := { v.pat with dram := u.pat.dram, segment := u.pat.segment } }) ∧
  (∀ (s : State) (h : MsgHdr) (a : BitVec 40) (l : List Byte) (g : Nat), busAlive s = true → a.toNat % 2 = 0 → l.length % 2 = 0 → 2 ≤ l.length → l.length ≤ 512 →
    0 < dataMib s → a.toNat + l.length ≤ dataMib s * 2 ^ 20 → a.toNat + l.length ≤ patternBytes s → overlapped s a.toNat l.length = [g] → segActive s g = true →
    ∃ t, exec (.bulkWrite h a l) s = .next t ∧ Responds h 7 0x16 (toBytes 2 g) false [] (takeRequest s (.bulkWrite h a l)) t) ∧
  (∀ (s : State) (h : MsgHdr) (a : BitVec 40) (l : List Byte), busAlive s = true → a.toNat % 2 = 0 → l.length % 2 = 0 → 2 ≤ l.length → l.length ≤ 512 →
    0 < dataMib s → a.toNat + l.length ≤ dataMib s * 2 ^ 20 → patternBytes s < a.toNat + l.length →
    ∃ t, exec (.bulkWrite h a l) s = .next t ∧ Responds h 7 0x12 [0, 0] false [] (takeRequest s (.bulkWrite h a l)) t) ∧
  (∀ (s v : State) (h : MsgHdr) (r : Ring) (fl : Byte) (pos : BitVec 32), busAlive s = true → v = takeRequest s (.release h r fl pos) → fl.toNat < 2 →
    ∃ t, exec (.release h r fl pos) s = .next t ∧
      Responds h 9 0 [b8 (releaseRing v r.toNat pos.toNat (fl.getLsbD 0)).2] false [] (releaseRing v r.toNat pos.toNat (fl.getLsbD 0)).1 t) ∧
  (∀ (s : State) (h : MsgHdr) (r : Ring) (fl : Byte) (pos : BitVec 32), busAlive s = true → 2 ≤ fl.toNat →
    ∃ t, exec (.release h r fl pos) s = .next t ∧ Responds h 9 0x12 [0] false [] (takeRequest s (.release h r fl pos)) t)

/-- The stage-bus commands (R82, R441, R448 to R450): ATTACH, DETACH, WRITE and READ check their parameters and the
stage, hand the bus their job and wait for its frames; STATUS answers the stage's counts. A slot without a stage, and a bound loop that is
not stopped, are refused. -/
def Obligations.StageCommands : Prop :=
  (∀ (s : State) (c : Current), Picked s 0x0900 c → par c 0 = 0 → par c 1 < 16 → 8 ≤ par c 2 / 256 → bits (par c 2) 6 2 = 0 → 1 ≤ par c 3 → par c 3 ≤ 200 →
    (par c 5 = 0xFFFF ∨ (s.ring (par c 5)).state ≠ .free) → par c 6 = 0 → par c 7 = 0 →
    ((s.stage (par c 1)).attached = true → (s.stage (par c 1)).period ≠ par c 3 → ∀ l ∈ stageLoops s (par c 1), (s.loop l).state = .stopped) →
    ∃ u t, exec .stageAttachAttach s = .next t ∧ Waits c .stageBus [] u t ∧ u.stage (par c 1) = { s.stage (par c 1) with stageAlive := none } ∧
      u.ser.job = some (par c 1, .attach (par c 2) (par c 3) (par c 4) (if par c 5 = 0xFFFF then c.ring.toNat else par c 5) 0) ∧
      (∀ k, k ≠ par c 1 → u.stage k = s.stage k) ∧ u = { s with ser := { s.ser with job := u.ser.job, stage := u.ser.stage } }) ∧
  (∀ (s : State) (c : Current), Picked s 0x0900 c → par c 0 = 1 → par c 1 < 16 → (s.stage (par c 1)).attached = true →
    (∀ l ∈ stageLoops s (par c 1), (s.loop l).state = .stopped) →
    ∃ u t, exec .stageAttachDetach s = .next t ∧ Waits c .stageBus [] u t ∧ u.stage (par c 1) = { s.stage (par c 1) with disable := true } ∧
      u.ser.job = some (par c 1, .detach) ∧ (∀ k, k ≠ par c 1 → u.stage k = s.stage k) ∧ u = { s with ser := { s.ser with job := u.ser.job, stage := u.ser.stage } }) ∧
  (∀ (s : State) (c : Current), Picked s 0x0900 c → par c 0 = 2 → par c 1 < 16 → (s.stage (par c 1)).attached = true → 1 ≤ par c 3 → par c 3 ≤ 64 →
    par c 3 + 2 ≤ stageWords (s.stage (par c 1)) → par c 4 = 0 →
    ∃ u t, exec .stageAttachWrite s = .next t ∧ Waits c .stageBus [] u t ∧
      u = { s with ser := { s.ser with job := some (par c 1, .write (par c 2) ((c.params.drop 5).take (par c 3)) 0 0) } }) ∧
  (∀ (s : State) (c : Current), Picked s 0x0901 c → par c 1 = 0 → par c 0 < 16 → (s.stage (par c 0)).attached = true → 1 ≤ par c 3 →
    par c 3 + 2 ≤ stageWords (s.stage (par c 0)) →
    ∃ u t, exec .stageReadRead s = .next t ∧ Waits c .stageBus [] u t ∧ u = { s with ser := { s.ser with job := some (par c 0, .read (par c 2) (par c 3) 0 0) } }) ∧
  (∀ (s : State) (c : Current), Picked s 0x0901 c → par c 1 = 1 → par c 0 < 16 → (s.stage (par c 0)).attached = true → par c 3 = 0 →
    ∃ t, exec .stageReadStatus s = .next t ∧ Answered c 0 0
      ([w16 (1 + flag 1 (s.stage (par c 0)).lost + flag 2 (s.stage (par c 0)).enabled + flag 3 (s.stage (par c 0)).stageFault +
          flag 4 (s.stage (par c 0)).overtemp + 32 * (s.stage (par c 0)).law), w16 (s.stage (par c 0)).bad] ++ toWords 2 (s.stage (par c 0)).badTotal ++
        toWords 2 (s.stage (par c 0)).badPrev ++ toWords 2 (s.stage (par c 0)).telemLost ++ toWords 2 (s.stage (par c 0)).aborted) s t) ∧
  (∀ (s : State) (c : Current), Picked s 0x0900 c → par c 0 = 1 → par c 1 < 16 → (s.stage (par c 1)).attached = false →
    ∃ t, exec .stageAttachDetach s = .next t ∧ Answered c 0x13 22 [] s t) ∧
  (∀ (s : State) (c : Current), Picked s 0x0901 c → par c 1 = 1 → par c 0 < 16 → (s.stage (par c 0)).attached = false → par c 3 = 0 →
    ∃ t, exec .stageReadStatus s = .next t ∧ Answered c 0x13 22 [] s t) ∧
  (∀ (s : State) (c : Current), Picked s 0x0900 c → par c 0 = 1 → par c 1 < 16 → (s.stage (par c 1)).attached = true →
    (∃ l ∈ stageLoops s (par c 1), (s.loop l).state ≠ .stopped) → ∃ t, exec .stageAttachDetach s = .next t ∧ Answered c 0x13 23 [] s t) ∧
  (∀ (s : State) (c : Current), Picked s 0x0900 c → par c 0 = 0 → par c 1 < 16 → 8 ≤ par c 2 / 256 → bits (par c 2) 6 2 = 0 → 1 ≤ par c 3 → par c 3 ≤ 200 →
    (par c 5 = 0xFFFF ∨ (s.ring (par c 5)).state ≠ .free) → par c 6 = 0 → par c 7 = 0 → (s.stage (par c 1)).attached = true →
    (s.stage (par c 1)).period ≠ par c 3 → (∃ l ∈ stageLoops s (par c 1), (s.loop l).state ≠ .stopped) →
    ∃ t, exec .stageAttachAttach s = .next t ∧ Answered c 0x13 23 [] s t) ∧
  (∀ (s : State) (c : Current), Picked s 0x0900 c → par c 0 = 2 → par c 1 < 16 → (s.stage (par c 1)).attached = false → 1 ≤ par c 3 → par c 3 ≤ 64 →
    par c 4 = 0 → ∃ t, exec .stageAttachWrite s = .next t ∧ Answered c 0x13 22 [] s t) ∧
  (∀ (s : State) (c : Current), Picked s 0x0901 c → par c 1 = 0 → par c 0 < 16 → (s.stage (par c 0)).attached = false → 1 ≤ par c 3 →
    ∃ t, exec .stageReadRead s = .next t ∧ Answered c 0x13 22 [] s t)

/-- Replies, losses and cyclic exchanges (R438 to R441, R444, R449, R450). A bad reply counts and is unused; a good one
resets the count and its flags and telemetry are taken; the third in a row loses the stage and holds its loops; the jobs of the
firmware end by the replies to their frames; an exchange is due at a multiple of PERIOD plus the slot offset, and waits while a frame
is in flight. -/
def Obligations.StageExchanges : Prop :=
  (∀ (st : Stage) (ws : List Word) (s : State), endedFrame s st.val = none → (s.stage st.val).bad < 3 → s.ser.cyclicWaits = [] → exec (.stageReply st ws) s = .next s) ∧
  (∀ (st : Stage) (ws : List Word) (s : State) (f : StageFrame), (s.stage st.val).frame = some f → (s.stage st.val).bad < 3 → (s.stage st.val).lost = false →
    (s.stage st.val).telemCredit = .unasked → s.ser.job = none → s.ser.cyclicWaits = [] → replyBad (s.stage st.val) ws = true →
    ∃ t, exec (.stageReply st ws) s = .next t ∧ t.stage st.val = { (s.stage st.val) with frame := none, prev := some f, alive := ((s.stage st.val).alive + 1) % 16, bad := (s.stage st.val).bad + 1, badTotal := min 0xFFFFFFFF ((s.stage st.val).badTotal + 1) } ∧
      (∀ k, k ≠ st.val → t.stage k = s.stage k) ∧
      t = { s with ser := { s.ser with stage := t.ser.stage }, flt := { s.flt with waiting := s.flt.waiting ++ [{ block := 0x19, source := 1, d0 := w16 st.val, d1 := 0, forced := false, stamp := f3 s.now }] } }) ∧
  (∀ (st : Stage) (ws : List Word) (s : State) (f : StageFrame), (s.stage st.val).frame = some f → (s.stage st.val).bad < 3 → (s.stage st.val).lost = false →
    (s.stage st.val).attached = true → s.ser.job = none → s.ser.cyclicWaits = [] → s.perturbed 8 st.val = false → wAt (s.stage st.val).ident 0 ≠ 1 → replyBad (s.stage st.val) ws = false →
    bit (replyTrailer ws) 0 = false →
    ∃ t, exec (.stageReply st ws) s = .next t ∧ t.stage st.val = { (s.stage st.val) with frame := none, prev := some f, alive := ((s.stage st.val).alive + 1) % 16, bad := 0, stageAlive := some (bits (replyTrailer ws) 12 4), enabled := bit (replyTrailer ws) 1, stageFault := bit (replyTrailer ws) 2, law := bits (replyTrailer ws) 3 2, overtemp := bit (replyTrailer ws) 5 } ∧
      (∀ k, k ≠ st.val → t.stage k = s.stage k) ∧ t = { s with ser := { s.ser with stage := t.ser.stage } }) ∧
  (∀ (st : Stage) (ws : List Word) (s : State) (f : StageFrame), (s.stage st.val).frame = some f → (s.stage st.val).bad < 3 → (s.stage st.val).lost = false →
    (s.stage st.val).attached = true → s.ser.job = none → s.ser.cyclicWaits = [] → s.perturbed 8 st.val = false → wAt (s.stage st.val).ident 0 = 1 → (s.stage st.val).telemDiv = 0 →
    stageLoops s st.val = [] → (∀ p, (s.stage st.val).prev = some p → p.cmd ≠ 2) → replyBad (s.stage st.val) ws = false → bit (replyTrailer ws) 0 = false →
    ∃ t, exec (.stageReply st ws) s = .next t ∧ t.stage st.val = { (s.stage st.val) with frame := none, prev := some f, alive := ((s.stage st.val).alive + 1) % 16, bad := 0, stageAlive := some (bits (replyTrailer ws) 12 4), enabled := bit (replyTrailer ws) 1, stageFault := bit (replyTrailer ws) 2, law := bits (replyTrailer ws) 3 2, overtemp := bit (replyTrailer ws) 5, telem := padWords (wAt (s.stage st.val).ident 12) ws.dropLast.dropLast, telemCount := 0 } ∧
      (∀ k, k ≠ st.val → t.stage k = s.stage k) ∧ t = { s with ser := { s.ser with stage := t.ser.stage } }) ∧
  (∀ (st : Stage) (ws : List Word) (s : State) (f p : StageFrame), (s.stage st.val).frame = some f → (s.stage st.val).prev = some p → p.cmd = 4 →
    (s.stage st.val).bad < 3 → (s.stage st.val).lost = false → (s.stage st.val).attached = true → (s.stage st.val).forgive = false → s.ser.job = none → s.ser.cyclicWaits = [] →
    s.perturbed 8 st.val = false → wAt (s.stage st.val).ident 0 ≠ 1 → replyBad (s.stage st.val) ws = false → bit (replyTrailer ws) 0 = true →
    ∃ t, exec (.stageReply st ws) s = .next t ∧ t.stage st.val = { (s.stage st.val) with frame := none, prev := some f, alive := ((s.stage st.val).alive + 1) % 16, bad := 0, stageAlive := some (bits (replyTrailer ws) 12 4), badPrev := min 0xFFFFFFFF ((s.stage st.val).badPrev + 1), resend := some p, enabled := bit (replyTrailer ws) 1, stageFault := bit (replyTrailer ws) 2, law := bits (replyTrailer ws) 3 2, overtemp := bit (replyTrailer ws) 5 } ∧
      (∀ k, k ≠ st.val → t.stage k = s.stage k) ∧
      t = { s with ser := { s.ser with stage := t.ser.stage }, flt := { s.flt with waiting := s.flt.waiting ++ [{ block := 0x19, source := 2, d0 := w16 st.val, d1 := 0, forced := false, stamp := f3 s.now }] } }) ∧
  (∀ (st : Stage) (ws : List Word) (s : State) (f p : StageFrame) (c : Current) (a n m : Nat), s.fw.current = some c → c.wait = .stageBus →
    (s.stage st.val).frame = some f → (s.stage st.val).prev = some p → p.cmd = 2 → (s.stage st.val).bad < 3 → (s.stage st.val).lost = false → s.ser.cyclicWaits = [] →
    s.perturbed 8 st.val = false → replyBad (s.stage st.val) ws = false → bit (replyTrailer ws) 0 = false →
    s.ser.job = some (st.val, .read a n m 1) →
    ∃ u t, exec (.stageReply st ws) s = .next t ∧ Answered c 0 0 (ws.take n) u t ∧ (∀ k, k ≠ st.val → u.stage k = s.stage k) ∧
      u = { s with ser := { s.ser with job := none, stage := u.ser.stage } }) ∧
  (∀ (st : Stage) (ws : List Word) (s : State) (f p : StageFrame) (c : Current) (a : Nat) (l : List Word), s.fw.current = some c → c.wait = .stageBus →
    (s.stage st.val).frame = some f → f.cmd ≠ 1 → (s.stage st.val).prev = some p → p.cmd = 3 → (s.stage st.val).bad < 2 → (s.stage st.val).lost = false → s.ser.cyclicWaits = [] → replyBad (s.stage st.val) ws = true →
    (s.ser.job = some (st.val, .write a l 0 1) →
      ∃ t, exec (.stageReply st ws) s = .next t ∧ (∀ k, k ≠ st.val → t.stage k = s.stage k) ∧
        t = { s with ser := { s.ser with job := some (st.val, .write a l 1 0), stage := t.ser.stage }, flt := { s.flt with waiting := t.flt.waiting } }) ∧
    (s.ser.job = some (st.val, .write a l 1 1) →
      ∃ u t, exec (.stageReply st ws) s = .next t ∧ Answered c 2 0 [] u t ∧ (∀ k, k ≠ st.val → u.stage k = s.stage k) ∧
        u = { s with ser := { s.ser with job := none, stage := u.ser.stage }, flt := { s.flt with waiting := u.flt.waiting } })) ∧
  (∀ (st : Stage) (ws : List Word) (s : State) (f p : StageFrame) (c : Current) (a n : Nat) (l : List Word), s.fw.current = some c → c.wait = .stageBus →
    (s.stage st.val).frame = some f → (s.stage st.val).prev = some p → p.cmd = 3 → (s.stage st.val).bad < 3 → (s.stage st.val).lost = false → s.ser.cyclicWaits = [] →
    s.perturbed 8 st.val = false → wAt (s.stage st.val).ident 0 ≠ 1 → replyBad (s.stage st.val) ws = false → bit (replyTrailer ws) 0 = false →
    s.ser.job = some (st.val, .write a l n 1) →
    ∃ u t, exec (.stageReply st ws) s = .next t ∧ Answered c 0 0 [] u t ∧ (∀ k, k ≠ st.val → u.stage k = s.stage k) ∧
      u = { s with ser := { s.ser with job := none, stage := u.ser.stage } }) ∧
  (∀ (st : Stage) (ws w : List Word) (s : State) (f p : StageFrame) (c : Current) (m per dv r : Nat), s.fw.current = some c → c.wait = .stageBus →
    (s.stage st.val).attached = false → (s.stage st.val).telemCredit = .unasked → s.ser.cyclicWaits = [] → (s.stage st.val).frame = some f → (s.stage st.val).prev = some p → p.cmd = 2 → replyBad (s.stage st.val) ws = false →
    bit (replyTrailer ws) 0 = false → s.ser.job = some (st.val, .attach m per dv r 2) → w = padWords 16 ws.dropLast.dropLast → 1 ≤ per →
    (identReason m per w = 0 → overLoaded s st.val m per w = false →
      ∃ u t, exec (.stageReply st ws) s = .next t ∧ Answered c 0 0 [w16 (wAt w 0), w16 (wAt w 7), w16 (wAt w 6), w16 (wAt w 2), w16 (wAt w 3)] u t ∧
        u.stage st.val = { attached := true, modeword := m, period := per, telemDiv := dv, ring := r, ident := w, offset := (u.stage st.val).offset, alive := ((s.stage st.val).alive + 1) % 16, stageAlive := some (bits (replyTrailer ws) 12 4), prev := some f, out := (s.stage st.val).out } ∧
        (u.stage st.val).offset < 160000 * per ∧ (∀ k, k ≠ st.val → u.stage k = s.stage k) ∧ (∀ k, k ≠ 0x19 → u.fblk k = s.fblk k) ∧
        u = { s with free := u.free, ser := { s.ser with job := none, stage := u.ser.stage }, flt := { s.flt with block := u.flt.block } }) ∧
    (identReason m per w ≠ 0 → ∃ u t, exec (.stageReply st ws) s = .next t ∧ Answered c 0x12 (0x8000 + identReason m per w) [] u t ∧
      (u.stage st.val).attached = false ∧ (∀ k, k ≠ st.val → u.stage k = s.stage k) ∧ u = { s with ser := { s.ser with job := none, stage := u.ser.stage } }) ∧
    (identReason m per w = 0 → overLoaded s st.val m per w = true →
      ∃ u t, exec (.stageReply st ws) s = .next t ∧ Answered c 0x10 st.val [] u t ∧
        (u.stage st.val).attached = false ∧ (∀ k, k ≠ st.val → u.stage k = s.stage k) ∧ u = { s with ser := { s.ser with job := none, stage := u.ser.stage } })) ∧
  (∀ (st : Stage) (ws : List Word) (s : State) (f : StageFrame) (c : Current), s.fw.current = some c → c.wait = .stageBus →
    (s.stage st.val).frame = some f → f.cmd = 4 → (s.stage st.val).bad < 2 → (s.stage st.val).lost = false → (s.stage st.val).telemCredit = .unasked → s.ser.cyclicWaits = [] → stageCharged s st.val = [] →
    replyBad (s.stage st.val) ws = true → s.ser.job = some (st.val, .detach) →
    ∃ u t, exec (.stageReply st ws) s = .next t ∧ Answered c 0 0 [] u t ∧ u.stage st.val = {} ∧ (∀ k, k ≠ st.val → u.stage k = s.stage k) ∧
      u = { s with ser := { s.ser with job := none, stage := u.ser.stage }, flt := { s.flt with block := u.flt.block, waiting := u.flt.waiting } }) ∧
  (∀ (st : Stage) (s : State) (l : Nat), (s.stage st.val).attached = true → (s.stage st.val).lost = false → 3 ≤ (s.stage st.val).bad → stageLoops s st.val = [l] → (s.charge (l - 512)).source ≠ 0xFE →
    (s.loop l).state = .regulating → (s.loop l).clocheMode = 0 →
    ∃ t, exec (.stageLost st) s = .next t ∧ (t.stage st.val).lost = true ∧ (t.stage st.val).disable = true ∧ (t.loop l).state = .cloche ∧ (t.loop l).isOpen = true ∧
      (t.loop l).demand = (s.loop l).clocheCode ∧ Cause.stageLost (Fin.ofNat 16 st.val) ∈ t.loopc (l - 512) ∧
      ∃ d ∈ t.flt.waiting, d.block = 0x19 ∧ d.source = 3 ∧ d.d0 = w16 st.val) ∧
  (∀ (st : Stage) (s : State), (s.stage st.val).attached = true → (s.stage st.val).lost = false → 3 ≤ (s.stage st.val).bad → (s.stage st.val).telemCredit = .unasked → stageLoops s st.val = [] →
    ∃ t, exec (.stageLost st) s = .next t ∧ t.stage st.val = { (s.stage st.val) with lost := true, disable := true } ∧ (∀ k, k ≠ st.val → t.stage k = s.stage k) ∧
      (t.fblk 0x19).live.getLsbD 3 = true ∧ (∀ k, k ≠ 0x19 → t.fblk k = s.fblk k) ∧
      t = { s with ser := { s.ser with stage := t.ser.stage }, flt := { s.flt with block := t.flt.block, waiting := s.flt.waiting ++ [{ block := 0x19, source := 3, d0 := w16 st.val, d1 := 0, forced := false, stamp := f3 s.now }] } }) ∧
  (∀ (st : Stage) (s : State), (s.stage st.val).attached = false ∨ (s.stage st.val).lost = true ∨ (s.stage st.val).bad < 3 → exec (.stageLost st) s = .next s) ∧
  (∀ (st : Stage) (late : Bool) (s : State), (s.stage st.val).attached = true → 1 ≤ (s.stage st.val).period → (s.stage st.val).bad < 3 → s.ser.cyclicWaits = [] → (∀ k, k < 16 → (s.stage k).frame = none) →
    stageLoops s st.val = [] → (s.stage st.val).telemDiv = 0 →
    ∃ t f, exec (.cyclicExchangeDue st late) s = .next t ∧ s.clk.time ≤ t.clk.time ∧ (s.stage st.val).offset ≤ t.clk.time ∧
      (t.clk.time - (s.stage st.val).offset) % (160000 * (s.stage st.val).period) = 0 ∧ (s.stage st.val).lastDue ≠ some t.clk.time ∧
      t.stage st.val = { (s.stage st.val) with frame := some f, out := outWords f (s.stage st.val).alive, disable := false, lastDue := some t.clk.time } ∧
      f.cmd = (if (s.stage st.val).disable then 4 else if (s.stage st.val).lost then 0 else 1) ∧ f.addr = 0 ∧ f.payload.length = stageWords (s.stage st.val) - 2 ∧
      (∀ k, k ≠ st.val → t.stage k = s.stage k) ∧
      t = { s with clk := { s.clk with time := t.clk.time }, ser := { s.ser with stage := t.ser.stage }, flt := { s.flt with waiting := s.flt.waiting ++ if late then [{ block := 0x19, source := 4, d0 := w16 st.val, d1 := 0, forced := false, stamp := f3 t.now }] else [] } }) ∧
  (∀ (st : Stage) (s : State) (k : Nat), (s.stage st.val).attached = true → 1 ≤ (s.stage st.val).period → (s.stage st.val).bad < 3 → k < 16 → (s.stage k).frame ≠ none →
    ∃ t, exec (.cyclicExchangeDue st false) s = .next t ∧ s.clk.time ≤ t.clk.time ∧ (t.clk.time - (s.stage st.val).offset) % (160000 * (s.stage st.val).period) = 0 ∧
      t.stage st.val = { (s.stage st.val) with lastDue := some t.clk.time } ∧ (∀ j, j ≠ st.val → t.stage j = s.stage j) ∧
      t = { s with clk := { s.clk with time := t.clk.time }, ser := { s.ser with cyclicWaits := s.ser.cyclicWaits ++ [st.val], stage := t.ser.stage } }) ∧
  (∀ (st : Stage) (late : Bool) (s : State), (s.stage st.val).attached = false ∨ (s.stage st.val).period = 0 → exec (.cyclicExchangeDue st late) s = .next s) ∧
  crc16 [0x31, 0x32, 0x33, 0x34, 0x35, 0x36, 0x37, 0x38, 0x39] = 0x29B1 ∧
  (∀ (w : List Word), wAt w 7 = 8 → wAt w 8 = 4 → frameTicks (8 * 256) w = 160 * 64 ∧ frameTicks (8 * 256 + 4) w = 88 * 64)

/-- The execute-in-place window (R435): an offset maps to the running slot's body; at BODY_LEN and beyond the fetch
answers zeros and XIP_RANGE; a fetch while SP0 programs or recovers waits; no fetch changes the flash. -/
def Obligations.ExecuteInPlace : Prop :=
  (∀ (a : BitVec 32) (s : State), a.toNat < 0x20000000 ∨ 0x207FE000 ≤ a.toNat → exec (.xipFetch a) s = .next s) ∧
  (∀ (a : BitVec 32) (s : State), 0x20000000 ≤ a.toNat → a.toNat < 0x207FE000 → s.ser.sp0Busy = true ∨ s.ser.flashOps ≠ [] →
    exec (.xipFetch a) s = .next { s with ser := { s.ser with xipWait := some (a.toNat - 0x20000000) } }) ∧
  (∀ (a : BitVec 32) (s : State) (base o : Nat), o = a.toNat - 0x20000000 → 0x20000000 ≤ a.toNat → a.toNat < 0x207FE000 → s.ser.sp0Busy = false → s.ser.flashOps = [] →
    base = (if s.clk.imageSlot then 0x800000 else 0) → o < flashNum s (base + 16) 4 →
    ∃ t, exec (.xipFetch a) s = .next t ∧ t.ser.xipData.length = 64 ∧
      (∀ i, i < 64 → t.ser.xipData.getD i 0 = s.flashByte (base + 0x1000 + 64 * (o / 64) + i)) ∧
      t.ser.xipLines = (if o / 64 ∈ s.ser.xipLines then s.ser.xipLines else (s.ser.xipLines ++ [o / 64]).drop (s.ser.xipLines.length - 1023)) ∧
      t = { s with ser := { s.ser with xipData := t.ser.xipData, xipLines := t.ser.xipLines, xipWait := none } }) ∧
  (∀ (a : BitVec 32) (s : State) (base o : Nat), o = a.toNat - 0x20000000 → 0x20000000 ≤ a.toNat → a.toNat < 0x207FE000 → s.ser.sp0Busy = false → s.ser.flashOps = [] →
    base = (if s.clk.imageSlot then 0x800000 else 0) → flashNum s (base + 16) 4 ≤ o →
    exec (.xipFetch a) s = .next { s with ser := { s.ser with xipData := List.replicate 64 0, xipWait := none }, flt := { s.flt with waiting := s.flt.waiting ++ [{ block := 0x18, source := 1, d0 := w16 o, d1 := 0, forced := false, stamp := f3 s.now }] } })

/-- The samples of supervision and the monitor's round (R134, R135, R320, R322 to R324, R452, R453, R456, R462, R469, R470, R473).
SENSOR_SAMPLE falls on a multiple of 16 µs, takes every passing reading, keeps the last valid one of a failing sensor and counts
each level's dwell; MONITOR_SLOT works through 170 slots of 1 600 ticks, corrects the conversion, compares read-backs, reads the
rails and the thermistor, and pauses with its bed. -/
def Obligations.SupervisionSamples : Prop :=
  (∀ (tt : List SensorRead) (rails : List Int) (pm : List Word) (s : State), samplingOn s = false → exec (.sensorSample tt rails pm) s = .next s) ∧
  (∀ (tt : List SensorRead) (rails : List Int) (pm : List Word) (s : State), samplingOn s = true → ∃ t, exec (.sensorSample tt rails pm) s = .next t ∧
    (s.clk.pllLocked = true ∨ s.clk.holdover = true → t.clk.time % 51200 = 0 ∧ s.clk.time < t.clk.time ∧ t.clk.time ≤ s.clk.time + 51200) ∧
    (s.clk.pllLocked = false → s.clk.holdover = false → t.clk.time = s.clk.time) ∧
    (∀ v ∈ sensorLevels, (t.level (levelKey v)).up = (if (levelTest t v).1 then (s.level (levelKey v)).up + 1 else 0)) ∧
    (∀ i, i < 5 → t.pmon i = pm.getD i (s.pmon i)) ∧ (∀ n, (t.therm n).value = (s.therm n).value)) ∧
  (∀ (tt : List SensorRead) (rails : List Int) (pm : List Word) (s : State), samplingOn s = true →
    (∀ k, k < 48 → (s.sensor k).fails < 4 ∧ (s.sensor k).passes < 64) → (∀ v ∈ sensorLevels, enterReady s v = false ∧ exitReady s v = false) →
    (∀ r, r < 14 → (s.railRd (4 * r)).low.up < 4 ∧ (s.railRd (4 * r)).high.up < 4 ∧ (s.railRd (4 * r)).low.down < 64 ∧ (s.railRd (4 * r)).high.down < 64) →
    ∃ t, exec (.sensorSample tt rails pm) s = .next t ∧
      (∀ (i : Nat) (x : Int), i < 48 → sensorFails s tt i = false → rawOf tt i = some x → (s.sensor i).suspect = false → (s.sensor i).broken = false →
        (t.sensor i).value = x ∧ (t.sensor i).sampled = true ∧ (t.sensor i).fails = 0 ∧ (t.sensor i).passes = 0 ∧ (t.sensor i).window = (x :: (s.sensor i).window).take 64) ∧
      (∀ (i : Nat) (x : Int), i < 48 → sensorFails s tt i = false → rawOf tt i = some x → (s.sensor i).suspect = true ∨ (s.sensor i).broken = true →
        (t.sensor i).value = x ∧ (t.sensor i).broken = (s.sensor i).broken ∧ (t.sensor i).suspect = (s.sensor i).suspect ∧ (t.sensor i).fails = 0 ∧
        (t.sensor i).passes = (s.sensor i).passes + 1 ∧ (t.sensor i).window = []) ∧
      (∀ (i : Nat), i < 48 → sensorFails s tt i = true → t.sensor i = { s.sensor i with fails := (s.sensor i).fails + 1, passes := 0, suspect := !(s.sensor i).broken, window := [], rising := false }) ∧
      (∀ (i : Nat) (x : Int), i < 14 → rails[i]? = some x → (t.railRd (4 * i)).mv = x) ∧
      (∀ k, (∀ v ∈ sensorLevels, k ≠ levelKey v) → t.level k = s.level k) ∧ (∀ k, (t.level k).held = (s.level k).held) ∧
      t = { s with clk := { s.clk with time := t.clk.time }, edge := { s.edge with drift := t.edge.drift, stale := t.edge.stale }, sup := { s.sup with sensor := t.sup.sensor, pm := t.sup.pm, railRead := t.sup.railRead, level := t.sup.level, keepOpen := t.sup.keepOpen, keepOut := t.sup.keepOut, keepIn := t.sup.keepIn, exitCount := t.sup.exitCount, exitOk := t.sup.exitOk }, flt := { s.flt with block := t.flt.block, waiting := t.flt.waiting } }) ∧
  (∀ (tt : List SensorRead) (s : State) (i : Nat), 8 ≤ i → i < 48 → 8 ≤ (i - 8) % 10 →
    (sensorFails s tt i = false ↔ ∃ x, rawOf tt i = some x ∧ -960 ≤ x ∧ x ≤ 3200)) ∧
  (∀ (tt : List SensorRead) (s : State) (i : Nat) (x y : Int), 8 ≤ i → i < 48 → (i - 8) % 10 < 8 → i % 2 = 0 → rawOf tt i = some x → rawOf tt (i + 1) = some y →
    (s.sensor i).broken = false → (s.sensor (i + 1)).broken = false → -960 ≤ x → x ≤ 3200 → -960 ≤ y → y ≤ 3200 →
    (sensorFails s tt i = true ↔ x + 320 < y) ∧ (sensorFails s tt (i + 1) = true ↔ y + 320 < x)) ∧
  (∀ (tt : List SensorRead) (s : State) (i : Nat) (x a b : Int), i < 8 → rawOf tt i = some x → rawOf tt ((i + 7) % 8) = some a → rawOf tt ((i + 1) % 8) = some b →
    (s.sensor ((i + 7) % 8)).broken = false → (s.sensor ((i + 1) % 8)).broken = false → -960 ≤ x → x ≤ 3200 → -960 ≤ a → a ≤ 3200 → -960 ≤ b → b ≤ 3200 →
    (sensorFails s tt i = true ↔ 240 < (x - a).natAbs ∧ 240 < (x - b).natAbs ∧ (a - b).natAbs ≤ 240)) ∧
  (∀ (b : Bed) (x : BitVec 16) (s : State), s.sup.analogueOff = true ∨ s.bedPow b.val ≠ .active → exec (.monitorSlot b x) s = .next s) ∧
  (∀ (b : Bed) (x : BitVec 16) (s : State), s.sup.analogueOff = false → s.bedPow b.val = .active → (s.mon b.val).slot < 170 →
    ∃ t, exec (.monitorSlot b x) s = .next t ∧ (t.mon b.val).slot = (if (s.mon b.val).slot = 169 then 0 else (s.mon b.val).slot + 1) ∧
      (t.mon b.val).rounds = (s.mon b.val).rounds + (if (s.mon b.val).slot = 169 then 1 else 0) ∧ (∀ k, k ≠ b.val → t.mon k = s.mon k) ∧
      (s.clk.pllLocked = true ∨ s.clk.holdover = true → t.clk.time % 272000 = 1600 * (s.mon b.val).slot ∧ s.clk.time < t.clk.time ∧ t.clk.time ≤ s.clk.time + 272000)) ∧
  (∀ (b : Bed) (x : BitVec 16) (s v : State) (k : Nat), s.sup.analogueOff = false → s.bedPow b.val = .active → (s.mon b.val).slot < 163 → (s.avg (2048 + b.val)).run = none →
    v = reachGrid s 272000 (1600 * (s.mon b.val).slot) → k = slotDac b.val (s.mon b.val).slot → slotSkipped v b.val (s.mon b.val).slot = false → (s.dacst k).misses < 2 →
    ∃ t bad, exec (.monitorSlot b x) s = .next t ∧
      bad = (dec (slotExpects v b.val (s.mon b.val).slot).2 3).lt
        (((⟨(correctCode v (monitorCal b.val) false x).1 * 10, 32768⟩ : Frac).sub (slotExpects v b.val (s.mon b.val).slot).1).abs) ∧
      t.dacst k = { s.dacst k with misses := if bad then (s.dacst k).misses + 1 else 0, faulty := bad && (s.dacst k).faulty } ∧
      (∀ j, j ≠ k → t.dacst j = s.dacst j) ∧
      t = { s with clk := { s.clk with time := t.clk.time }, pins := { s.pins with dac := t.pins.dac, monitor := t.pins.monitor }, sup := { s.sup with reconnect := t.sup.reconnect }, flt := { s.flt with block := t.flt.block } }) ∧
  (∀ (b : Bed) (x : BitVec 16) (s v : State), s.sup.analogueOff = false → s.bedPow b.val = .active → (s.mon b.val).slot < 165 → (s.avg (2048 + b.val)).run = none →
    v = reachGrid s 272000 (1600 * (s.mon b.val).slot) → slotSkipped v b.val (s.mon b.val).slot = true → (s.dacst (slotDac b.val (s.mon b.val).slot)).misses < 2 →
    ∃ t, exec (.monitorSlot b x) s = .next t ∧ t = { s with clk := { s.clk with time := t.clk.time }, pins := { s.pins with monitor := t.pins.monitor }, sup := { s.sup with reconnect := t.sup.reconnect } }) ∧
  (∀ (b : Bed) (x : BitVec 16) (s v : State) (i : Nat), s.sup.analogueOff = false → s.bedPow b.val = .active → (s.mon b.val).slot = 165 ∨ (s.mon b.val).slot = 166 →
    i = (s.mon b.val).slot - 151 → (s.avg (2048 + b.val)).run = none → v = reachGrid s 272000 (1600 * (s.mon b.val).slot) →
    ∃ t, exec (.monitorSlot b x) s = .next t ∧ (t.railRd (4 * i + b.val / 4)).mv = roundAway ((correctCode v (monitorCal b.val) false x).1 * 5000) 32768 ∧
      (∀ k, k ≠ 4 * i + b.val / 4 → t.railRd k = s.railRd k)) ∧
  (∀ (b : Bed) (x : BitVec 16) (s v : State) (y : BitVec 32), s.sup.analogueOff = false → s.bedPow b.val = .active → (s.mon b.val).slot = 167 →
    (s.avg (2048 + b.val)).run = none → v = reachGrid s 272000 (1600 * 167) → (s.therm b.val).enable = true → (s.therm b.val).suspect = false →
    (s.therm b.val).broken = false → (s.therm b.val).fails < 4 → (s.therm b.val).passes < 64 → enterReady s (.clocheTh b) = false → exitReady s (.clocheTh b) = false →
    thermTemp (s.therm b.val) (correctCode v (monitorCal b.val) false x).1 = some y →
    ∃ t, exec (.monitorSlot b x) s = .next t ∧ (t.therm b.val).value = y ∧ (t.therm b.val).sampled = true ∧ (t.therm b.val).stale = false ∧
      (t.therm b.val).fails = 0 ∧ (t.therm b.val).window = (y :: (s.therm b.val).window).take 12 ∧ (∀ k, k ≠ b.val → t.therm k = s.therm k)) ∧
  (∀ (b : Bed) (slot : Fin 165) (s : State), 2 ≤ (s.dacst (slotDac b.val slot.val)).misses → (s.dacst (slotDac b.val slot.val)).faulty = false →
    ∃ t, exec (.dacReadback b slot) s = .next t ∧ t.dacst (slotDac b.val slot.val) = { s.dacst (slotDac b.val slot.val) with faulty := true } ∧
      (∀ j, j ≠ slotDac b.val slot.val → t.dacst j = s.dacst j) ∧ (t.fblk b.val).live.getLsbD 3 = true ∧ (∀ k, k ≠ b.val → t.fblk k = s.fblk k) ∧
      t = { s with pins := { s.pins with dac := t.pins.dac }, flt := { s.flt with block := t.flt.block, waiting := s.flt.waiting ++ [{ block := b.val, source := 3, d0 := w16 (if slot.val < 128 then 32 * b.val + slot.val / 4 else if slot.val < 160 then 32 * b.val + (slot.val - 128) else 0xFFFF), d1 := w16 slot.val, forced := false, stamp := f3 s.now }] } }) ∧
  (∀ (b : Bed) (slot : Fin 165) (s : State), (s.dacst (slotDac b.val slot.val)).misses < 2 ∨ (s.dacst (slotDac b.val slot.val)).faulty = true →
    exec (.dacReadback b slot) s = .next s)

/-- The thermal levels (R456, R457, R460, R461, R463, R464, R471). A level is entered at the fourth sample and left at the
64th; each acts as the table gives: WARN and THROTTLE raise, a CLOCHE level holds its beds, SHUTDOWN latches, holds every bed
and claims a trip-log slot; leaving lifts the level and holds no output longer than its cause, and a change of a zone's throttle
level is sent in one message. -/
def Obligations.ThermalLevels : Prop :=
  (∀ (v : LevelId) (s : State), (s.level (levelKey v)).held = true ∨ (s.level (levelKey v)).up < 4 → exec (.thermalLevelEnter v) s = .next s) ∧
  (∀ (v : LevelId) (s : State), (s.level (levelKey v)).held = false ∨ (s.level (levelKey v)).down < 64 ∨ v = .shutdown → exec (.thermalLevelExit v) s = .next s) ∧
  (∀ (z : Zone) (s : State), (s.level (levelKey (.warn z))).held = false → 4 ≤ (s.level (levelKey (.warn z))).up →
    ∃ t, exec (.thermalLevelEnter (.warn z)) s = .next t ∧ t.level (levelKey (.warn z)) = { s.level (levelKey (.warn z)) with held := true } ∧
      (∀ k, k ≠ levelKey (.warn z) → t.level k = s.level k) ∧ t.zone z.val = { s.zone z.val with warnSticky := true } ∧ (∀ k, k ≠ z.val → t.zone k = s.zone k) ∧
      (t.fblk 0x1A).live.getLsbD 0 = true ∧ (∀ k, k ≠ 0x1A → t.fblk k = s.fblk k) ∧
      t = { s with bus := { s.bus with recent := t.bus.recent }, sup := { s.sup with level := t.sup.level, zone := t.sup.zone }, flt := { s.flt with block := t.flt.block, waiting := s.flt.waiting ++ [{ block := 0x1A, source := 0, d0 := w16 z.val, d1 := 0, forced := false, stamp := f3 s.now }] } }) ∧
  (∀ (z : Zone) (n : Fin 3) (s : State), (s.level (levelKey (.throttle z n))).held = false → 4 ≤ (s.level (levelKey (.throttle z n))).up →
    ∃ t, exec (.thermalLevelEnter (.throttle z n)) s = .next t ∧ (∀ k : Fin 3, k ≤ n → (t.level (levelKey (.throttle z k))).held = true) ∧
      (t.level (levelKey (.warn z))).held = true ∧ (t.zone z.val).acked = false ∧ (t.zone z.val).changed = s.clk.time ∧
      (∀ k : Fin 3, k ≤ n → (s.level (levelKey (.throttle z k))).held = false →
        graceOf (t.zone z.val) k.val = some (s.clk.time + (s.zone z.val).graceMs * 3200000)) ∧
      (∀ k : Fin 3, k ≤ n → (s.level (levelKey (.throttle z k))).held = true → graceOf (t.zone z.val) k.val = graceOf (s.zone z.val) k.val) ∧
      (∀ k : Fin 3, n < k → graceOf (t.zone z.val) k.val = graceOf (s.zone z.val) k.val ∧ t.level (levelKey (.throttle z k)) = s.level (levelKey (.throttle z k))) ∧
      (t.cls 0 1).queue = (s.cls 0 1).queue ++ [(false, msgBytes 0x0C 0x7E s.link.addr 0 s.link.mtag.toNat
        ([b8 z.val, b8 (throttleLevel t z.val)] ++ toBytes 2 (s.zone z.val).graceMs) (toBytes 8 s.clk.time))] ∧
      (∃ d ∈ t.flt.waiting, d.block = 0x1A ∧ d.source = 1 ∧ d.d0 = w16 z.val ∧ d.d1 = w16 (n.val + 1)) ∧ (∀ k, k ≠ z.val → t.zone k = s.zone k) ∧
      t = { s with bus := { s.bus with recent := t.bus.recent }, link := { s.link with port := t.link.port, mtag := s.link.mtag + 1 }, sup := { s.sup with level := t.sup.level, zone := t.sup.zone }, flt := { s.flt with block := t.flt.block, waiting := t.flt.waiting } }) ∧
  (∀ (b : Bed) (s : State), (s.level (levelKey (.clocheGroup b))).held = false → 4 ≤ (s.level (levelKey (.clocheGroup b))).up →
    ∃ t, exec (.thermalLevelEnter (.clocheGroup b)) s = .next t ∧ (t.level (levelKey (.clocheGroup b))).held = true ∧ (t.bedc b.val).active = true ∧
      Cause.level (.clocheGroup b) ∈ (t.bedc b.val).causes ∧ causeLive t (.level (.clocheGroup b)) = true ∧
      (∃ d ∈ t.flt.waiting, d.block = 0x1A ∧ d.source = 2 ∧ d.d0 = w16 b.val) ∧ (∀ k, k ≠ b.val → t.bedc k = s.bedc k)) ∧
  (∀ (s : State), (s.level (levelKey .clocheZ0)).held = false → 4 ≤ (s.level (levelKey .clocheZ0)).up →
    ∃ t, exec (.thermalLevelEnter .clocheZ0) s = .next t ∧ (t.level (levelKey .clocheZ0)).held = true ∧ (∀ b, b < 16 → (t.bedc b).active = true) ∧
      Cause.level .clocheZ0 ∈ t.flt.chip ∧ ∃ d ∈ t.flt.waiting, d.block = 0x1A ∧ d.source = 2 ∧ d.d0 = 0x10) ∧
  (∀ (n : Bed) (s : State), (s.level (levelKey (.clocheTh n))).held = false → 4 ≤ (s.level (levelKey (.clocheTh n))).up →
    ∃ t, exec (.thermalLevelEnter (.clocheTh n)) s = .next t ∧ (t.level (levelKey (.clocheTh n))).held = true ∧ (t.bedc n.val).active = true ∧
      Cause.level (.clocheTh n) ∈ (t.bedc n.val).causes ∧ ∃ d ∈ t.flt.waiting, d.block = 0x1A ∧ d.source = 6 ∧ d.d0 = w16 n.val) ∧
  (∀ (s : State), (s.level (levelKey .shutdown)).held = false → 4 ≤ (s.level (levelKey .shutdown)).up → s.sup.exitOk = false → s.sup.shutdown = false →
    ∃ t, exec (.thermalLevelEnter .shutdown) s = .next t ∧ t.sup.shutdown = true ∧ t.sup.shutTime = s.clk.time ∧ t.sup.exitCount = 0 ∧ (∀ b, b < 16 → (t.bedc b).active = true) ∧
      Cause.shutdown ∈ t.flt.chip ∧ (∃ d ∈ t.flt.waiting, d.block = 0x1A ∧ d.source = 3) ∧
      (tripNext s < 256 → t.sup.tripOpen = some (tripNext s) ∧ (t.tripWord (16 * tripNext s)).getLsbD 0 = true) ∧
      (tripNext s = 256 → t.sup.tripLog = s.sup.tripLog ∧ ∃ d ∈ t.flt.waiting, d.block = 0x1A ∧ d.source = 12)) ∧
  (∀ (s : State), s.sup.exitOk = true → (∀ z, ∀ u ∈ zoneLevels z, enterReady s u = false) → exec (.thermalLevelEnter .shutdown) s = .next s) ∧
  (∀ (z : Zone) (s : State), (s.level (levelKey (.warn z))).held = true → 64 ≤ (s.level (levelKey (.warn z))).down →
    ∃ t, exec (.thermalLevelExit (.warn z)) s = .next t ∧ t.level (levelKey (.warn z)) = { s.level (levelKey (.warn z)) with held := false } ∧
      (∀ k, k ≠ levelKey (.warn z) → t.level k = s.level k) ∧ (∀ k, k ≠ 0x1A → t.fblk k = s.fblk k) ∧
      ((t.fblk 0x1A).live.getLsbD 0 = true ↔ ∃ y : Zone, (t.level (levelKey (.warn y))).held = true) ∧
      t = { s with sup := { s.sup with level := t.sup.level }, flt := { s.flt with block := t.flt.block } }) ∧
  (∀ (z : Zone) (n : Fin 3) (s : State), (s.level (levelKey (.throttle z n))).held = true → 64 ≤ (s.level (levelKey (.throttle z n))).down →
    (∀ k : Fin 3, n < k → (s.level (levelKey (.throttle z k))).held = false) →
    ∃ t, exec (.thermalLevelExit (.throttle z n)) s = .next t ∧
      t.level (levelKey (.throttle z n)) = { s.level (levelKey (.throttle z n)) with held := false } ∧
      (∀ k, k ≠ levelKey (.throttle z n) → t.level k = s.level k) ∧ graceOf (t.zone z.val) n.val = none ∧
      (∀ k : Fin 3, k ≠ n → graceOf (t.zone z.val) k.val = graceOf (s.zone z.val) k.val) ∧
      (t.zone z.val).acked = false ∧ (t.zone z.val).changed = s.clk.time ∧ (∀ k, k ≠ z.val → t.zone k = s.zone k) ∧
      (t.cls 0 1).queue = (s.cls 0 1).queue ++ [(false, msgBytes 0x0C 0x7E s.link.addr 0 s.link.mtag.toNat
        ([b8 z.val, b8 (throttleLevel t z.val)] ++ toBytes 2 (s.zone z.val).graceMs) (toBytes 8 s.clk.time))] ∧
      t = { s with link := { s.link with port := t.link.port, mtag := s.link.mtag + 1 }, sup := { s.sup with level := t.sup.level, zone := t.sup.zone }, flt := { s.flt with block := t.flt.block } }) ∧
  (∀ (z : Zone) (n : Fin 3) (s : State), (s.level (levelKey (.throttle z n))).held = true → 64 ≤ (s.level (levelKey (.throttle z n))).down →
    n ≠ 2 → (s.level (levelKey (.throttle z 2))).held = true → (s.level (levelKey (.throttle z 2))).down < 64 →
    ∃ t, exec (.thermalLevelExit (.throttle z n)) s = .next t ∧ (t.level (levelKey (.throttle z n))).held = false ∧ graceOf (t.zone z.val) n.val = none ∧
      (t.level (levelKey (.throttle z 2))) = s.level (levelKey (.throttle z 2)) ∧ (∀ k, k ≠ z.val → t.zone k = s.zone k) ∧
      t.zone z.val = { s.zone z.val with grace1 := (t.zone z.val).grace1, grace2 := (t.zone z.val).grace2, ended1 := (t.zone z.val).ended1, ended2 := (t.zone z.val).ended2 } ∧
      t = { s with sup := { s.sup with level := t.sup.level, zone := t.sup.zone } }) ∧
  (∀ (v : LevelId) (s : State), v = .clocheZ0 ∨ (∃ b, v = .clocheGroup b ∨ v = .clocheTh b) → (s.level (levelKey v)).held = true → 64 ≤ (s.level (levelKey v)).down →
    ∃ t, exec (.thermalLevelExit v) s = .next t ∧ t.level (levelKey v) = { s.level (levelKey v) with held := false } ∧
      (∀ k, k ≠ levelKey v → t.level k = s.level k) ∧ causeLive t (.level v) = false ∧ (∀ k, k ≠ 0x1A → t.fblk k = s.fblk k) ∧
      t = { s with sup := { s.sup with level := t.sup.level }, flt := { s.flt with block := t.flt.block } }) ∧
  (∀ (z : Zone) (n : Fin 3) (s : State) (e : Nat), graceOf (s.zone z.val) n.val = some e → n ≠ 2 → enforcedLevel s z.val ≠ 3 →
    ∃ t, exec (.throttleGraceEnd z n) s = .next t ∧ graceOf (t.zone z.val) n.val = none ∧ t.clk.time = max s.clk.time e ∧
      ((s.level (levelKey (.throttle z n))).held = true → n.val + 1 ≤ enforcedLevel t z.val) ∧ (∀ k, k ≠ z.val → t.zone k = s.zone k) ∧
      t = { s with clk := { s.clk with time := t.clk.time }, sup := { s.sup with zone := t.sup.zone } }) ∧
  (∀ (z : Zone) (s : State) (e h : Nat), graceOf (s.zone z.val) 2 = some e → (s.level (levelKey (.throttle z 2))).held = true → h ∈ zoneHeavies z.val →
    (s.loop (512 + h)).state ≠ .ganged →
    ∃ t, exec (.throttleGraceEnd z 2) s = .next t ∧ enforcedLevel t z.val = 3 ∧ Cause.t3 z ∈ t.loopc h ∧ (t.loop (512 + h)).state = .cloche) ∧
  (∀ (z : Zone) (n : Fin 3) (s : State), graceOf (s.zone z.val) n.val = none → exec (.throttleGraceEnd z n) s = .next s) ∧
  (∀ (z : Zone) (s : State), (s.zone z.val).acked = true → exec (.throttleRepeat z) s = .next s) ∧
  (∀ (z : Zone) (s : State), (s.zone z.val).acked = false →
    ∃ t, exec (.throttleRepeat z) s = .next t ∧ (t.cls 0 1).queue = (s.cls 0 1).queue ++ [(false, msgBytes 0x0C 0x7E s.link.addr 0 s.link.mtag.toNat
        ([b8 z.val, b8 (throttleLevel s z.val)] ++ toBytes 2 (s.zone z.val).graceMs) (toBytes 8 (s.zone z.val).changed))] ∧
      (∀ c, c ≠ 1 → t.cls 0 c = s.cls 0 c) ∧ t.port 1 = s.port 1 ∧
      t = { s with link := { s.link with port := t.link.port, mtag := s.link.mtag + 1 } })

/-- Broken sensors, charge windows, rails, the keep-store window and the rest of a shutdown (R462, R463, R467 to R471,
R473 to R475): each acts when its count is reached and is left alone before. -/
def Obligations.SupervisionEvents : Prop :=
  (∀ (i : Fin 48) (s : State), 4 ≤ (s.sensor i.val).fails → (s.sensor i.val).broken = false →
    ∃ t, exec (.sensorBroken (.sensor i)) s = .next t ∧ t.sensor i.val = { s.sensor i.val with broken := true, suspect := false, window := [], rising := false } ∧
      (∃ d ∈ t.flt.waiting, d.block = 0x1A ∧ d.source = 7 ∧ d.d0 = w16 i.val) ∧
      (∀ b ∈ sensorBeds i.val, (t.bedc b).active = true ∧ Cause.broken (.sensor i) ∈ (t.bedc b).causes) ∧ (∀ k, k ≠ i.val → t.sensor k = s.sensor k)) ∧
  (∀ (n : Bed) (s : State), 4 ≤ (s.therm n.val).fails → (s.therm n.val).broken = false →
    ∃ t, exec (.sensorBroken (.thermistor n)) s = .next t ∧ t.therm n.val = { s.therm n.val with broken := true, suspect := false, window := [], rising := false } ∧
      (∃ d ∈ t.flt.waiting, d.block = 0x1A ∧ d.source = 8 ∧ d.d0 = w16 n.val) ∧ (t.bedc n.val).active = true ∧ Cause.broken (.thermistor n) ∈ (t.bedc n.val).causes ∧
      ∀ h ∈ assignedLoops s n.val, 4 ≤ (t.charge h).outCount) ∧
  (∀ (i : Fin 48) (s : State), (s.sensor i.val).fails < 4 ∨ (s.sensor i.val).broken = true → exec (.sensorBroken (.sensor i)) s = .next s) ∧
  (∀ (n : Bed) (s : State), (s.therm n.val).fails < 4 ∨ (s.therm n.val).broken = true → exec (.sensorBroken (.thermistor n)) s = .next s) ∧
  (∀ (i : Fin 48) (s : State), 64 ≤ (s.sensor i.val).passes →
    ∃ t, exec (.sensorRecover (.sensor i)) s = .next t ∧ t.sensor i.val = { s.sensor i.val with broken := false, suspect := false, passes := 0 } ∧
      (∀ k, k ≠ i.val → t.sensor k = s.sensor k) ∧ (∀ k, k ≠ 0x1A → t.fblk k = s.fblk k) ∧
      ((t.fblk 0x1A).live.getLsbD 7 = true ↔ ∃ k, k < 48 ∧ (t.sensor k).broken = true) ∧
      t = { s with sup := { s.sup with sensor := t.sup.sensor }, flt := { s.flt with block := t.flt.block } }) ∧
  (∀ (n : Bed) (s : State), 64 ≤ (s.therm n.val).passes →
    ∃ t, exec (.sensorRecover (.thermistor n)) s = .next t ∧ t.therm n.val = { s.therm n.val with broken := false, suspect := false, passes := 0 } ∧
      (∀ k, k ≠ n.val → t.therm k = s.therm k) ∧ (∀ k, k ≠ 0x1A → t.fblk k = s.fblk k) ∧
      ((t.fblk 0x1A).live.getLsbD 8 = true ↔ ∃ k, k < 16 ∧ (t.therm k).broken = true) ∧
      t = { s with sup := { s.sup with therm := t.sup.therm }, flt := { s.flt with block := t.flt.block } }) ∧
  (∀ (i : Fin 48) (s : State), (s.sensor i.val).passes < 64 → exec (.sensorRecover (.sensor i)) s = .next s) ∧
  (∀ (n : Bed) (s : State), (s.therm n.val).passes < 64 → exec (.sensorRecover (.thermistor n)) s = .next s) ∧
  (∀ (h : Heavy) (s : State), exec (.chargeWindowLeave h) s = .next (if (s.charge h.val).out = false ∧ 4 ≤ (s.charge h.val).outCount then
      s.modCharge h.val (fun x => { x with out := true }) else s)) ∧
  (∀ (h : Heavy) (s : State), exec (.chargeWindowReturn h) s = .next (if (s.charge h.val).out = true ∧ 64 ≤ (s.charge h.val).inCount then
      s.modCharge h.val (fun x => { x with out := false }) else s)) ∧
  (∀ (s : State) (h : Nat) (x : Frac), (s.charge h).outCount < 4 → (s.charge h).inCount < 64 → x.lt (f32 (s.charge h).low) = true →
    (chargeReading s h (some x)).charge h = { s.charge h with outCount := (s.charge h).outCount + 1, inCount := 0 }) ∧
  (∀ (s : State) (h : Nat), (chargeReading s h none).charge h = { (chargeReading s h none).charge h with outCount := 4, inCount := 0 }) ∧
  (∀ (r : Fin 16) (d : Fin 4) (high : Bool) (s : State) (l : Level), l = (if high then (s.railRd (4 * r.val + d.val)).high else (s.railRd (4 * r.val + d.val)).low) →
    l.held = false → 4 ≤ l.up →
    ∃ t, exec (.railCrossing r d high) s = .next t ∧ (if high then (t.railRd (4 * r.val + d.val)).high else (t.railRd (4 * r.val + d.val)).low) = { l with held := true } ∧
      (∃ x ∈ t.flt.waiting, x.block = 0x1A ∧ x.source = (if high then 10 else 9) ∧ x.d0 = w16 r.val ∧ x.d1 = w16 (if r.val < 14 then 0 else d.val)) ∧
      (∀ k, k ≠ 4 * r.val + d.val → t.railRd k = s.railRd k) ∧ (∀ k, k ≠ 0x1A → t.fblk k = s.fblk k) ∧
      t.railRd (4 * r.val + d.val) = { s.railRd (4 * r.val + d.val) with low := (t.railRd (4 * r.val + d.val)).low, high := (t.railRd (4 * r.val + d.val)).high } ∧
      (if high then (t.railRd (4 * r.val + d.val)).low = (s.railRd (4 * r.val + d.val)).low else (t.railRd (4 * r.val + d.val)).high = (s.railRd (4 * r.val + d.val)).high) ∧
      (t.fblk 0x1A).live.getLsbD (if high then 10 else 9) = true ∧
      t = { s with sup := { s.sup with railRead := t.sup.railRead }, flt := { s.flt with block := t.flt.block, waiting := t.flt.waiting } }) ∧
  (∀ (r : Fin 16) (d : Fin 4) (high : Bool) (s : State) (l : Level), l = (if high then (s.railRd (4 * r.val + d.val)).high else (s.railRd (4 * r.val + d.val)).low) →
    l.held = true ∨ l.up < 4 → exec (.railCrossing r d high) s = .next s) ∧
  (∀ (r : Fin 16) (d : Fin 4) (high : Bool) (s : State) (l : Level), l = (if high then (s.railRd (4 * r.val + d.val)).high else (s.railRd (4 * r.val + d.val)).low) →
    l.held = true → 64 ≤ l.down →
    ∃ t, exec (.railThresholdExit r d high) s = .next t ∧
      (if high then (t.railRd (4 * r.val + d.val)).high else (t.railRd (4 * r.val + d.val)).low) = { l with held := false } ∧
      (∀ k, k ≠ 4 * r.val + d.val → t.railRd k = s.railRd k) ∧ (∀ k, k ≠ 0x1A → t.fblk k = s.fblk k) ∧
      t = { s with sup := { s.sup with railRead := t.sup.railRead }, flt := { s.flt with block := t.flt.block } }) ∧
  (∀ (r : Fin 16) (d : Fin 4) (high : Bool) (s : State) (l : Level), l = (if high then (s.railRd (4 * r.val + d.val)).high else (s.railRd (4 * r.val + d.val)).low) →
    l.held = false ∨ l.down < 64 → exec (.railThresholdExit r d high) s = .next s) ∧
  (∀ (s : State), exec .keepWindowClose s = .next (if s.sup.keepOpen = true ∧ 4 ≤ s.sup.keepOut then { s with sup := { s.sup with keepOpen := false } } else s)) ∧
  (∀ (s : State), exec .keepWindowOpen s = .next (if s.sup.keepOpen = false ∧ 64 ≤ s.sup.keepIn then { s with sup := { s.sup with keepOpen := true } } else s)) ∧
  (∀ (s : State), s.sup.shutdown = true → s.sup.analogueOff = false →
    ∃ t, exec .shutdownPowerDown s = .next t ∧ t.sup.analogueOff = true ∧ t.sup.shedSlow = true ∧ t.clk.time = max s.clk.time (s.sup.shutTime + 320000) ∧
      (∀ k, k < 16 → (s.stage k).attached = true → (t.stage k).disable = true) ∧ (∀ n, n < 16 → (t.therm n).stale = true) ∧
      (∀ b, t.bedc b = s.bedc b) ∧ t.mb = s.mb ∧ t.pins = s.pins ∧ t.edge = s.edge ∧ t.cal = s.cal ∧ t.bus = s.bus ∧
      ((∀ k, k < 16 → (s.stage k).attached = false) → t = { s with clk := { s.clk with time := t.clk.time }, sup := { s.sup with analogueOff := true, shedSlow := true, therm := t.sup.therm, charge := t.sup.charge } })) ∧
  (∀ (s : State), s.sup.shutdown = false ∨ s.sup.analogueOff = true → exec .shutdownPowerDown s = .next s) ∧
  (∀ (s : State) (i : Nat), s.sup.tripOpen = some i → i < 256 → (∀ k, k < 16 → s.tripWord (16 * i + k) = (if k = 0 then 1 else 0)) →
    ∃ t, exec .tripLogWritten s = .next t ∧ t.sup.tripOpen = none ∧ (∀ k, k < 15 → t.tripWord (16 * i + k) = (tripWords s).getD k 0) ∧
      (t.tripWord (16 * i + 15)).toNat = crc16 (wordsMsb (tripWords s)) ∧ (∀ a, a < 16 * i ∨ 16 * i + 16 ≤ a → t.tripWord a = s.tripWord a) ∧
      t = { s with sup := { s.sup with tripOpen := none, tripLog := t.sup.tripLog } }) ∧
  (∀ (s : State), s.sup.tripOpen = none → exec .tripLogWritten s = .next s) ∧
  (∀ (s : State), exec .shutdownExitCondition s = .next (if 62500 ≤ s.sup.exitCount then { s with sup := { s.sup with exitOk := true } } else s))

/-- The thermal commands (R460, R461, R467, R477 to R480): THERM_CONFIG writes a zone's, a thermistor's or a rail's settings
in their ranges, and reads them; CHARGE_WINDOW and THROTTLE_ACK likewise. -/
def Obligations.ThermalCommands : Prop :=
  (∀ (s : State) (c : Current), Picked s 0x0A00 c → par c 0 = 0 → par c 1 < 32 →
    zoneReason (parF c 2) (parF c 4) (parF c 6) (parF c 8) (parF c 10) (parF c 12) (par c 14) (parF c 15) = none →
    ∃ u t, exec .thermConfigLevels s = .next t ∧ Answered c 0 0 [] u t ∧ u = { s with sup := { s.sup with zone := u.sup.zone } } ∧
      (∀ z, z < 5 → u.zone z = (if (par c 1).testBit z then { s.zone z with warn := parF c 2, throttle := parF c 4, cloche := parF c 6, shutdown := parF c 8, hyst := parF c 10, step := parF c 12, graceMs := par c 14, ror := parF c 15 }
        else s.zone z))) ∧
  (∀ (s : State) (c : Current), Picked s 0x0A00 c → par c 0 = 0 → par c 1 < 32 → f32Finite (parF c 2) = true → f32Finite (parF c 4) = true → f32Finite (parF c 6) = true →
    f32Finite (parF c 8) = true → f32Finite (parF c 12) = true → (f32 (parF c 2)).le (f32 (parF c 4)) = false →
    ∃ t, exec .thermConfigLevels s = .next t ∧ Answered c 0x12 0x8001 [] s t) ∧
  (∀ (w t c d h st ror : BitVec 32) (g : Nat), zoneReason w t c d h st g ror = none → (f32 w).le (f32 t) = true ∧
    ((f32 t).add ((f32 st).mul (Frac.ofInt 2))).lt (f32 c) = true ∧ (f32 c).lt (f32 d) = true ∧ (f32 d).le (Frac.ofInt 165) = true ∧ 10 ≤ g ∧ g ≤ 2000) ∧
  (∀ (s : State) (c : Current), Picked s 0x0A00 c → par c 0 = 1 → par c 1 < 16 → par c 2 < 4 → thermOk (parF c 3) (parF c 5) (parF c 7) (parF c 9) (parF c 11) = true →
    ∃ u t, exec .thermConfigThermistor s = .next t ∧ Answered c 0 0 [] u t ∧ (u.therm (par c 1)).enable = bit (par c 2) 0 ∧ (u.therm (par c 1)).bias = bit (par c 2) 1 ∧
      (u.therm (par c 1)).a = parF c 3 ∧ (u.therm (par c 1)).b = parF c 5 ∧ (u.therm (par c 1)).c = parF c 7 ∧ (u.therm (par c 1)).cloche = parF c 9 ∧
      (u.therm (par c 1)).ror = parF c 11 ∧ (bit (par c 2) 0 = true → (u.therm (par c 1)).broken = (s.therm (par c 1)).broken) ∧
      (bit (par c 2) 0 = false → (u.therm (par c 1)).broken = false ∧ (u.therm (par c 1)).sampled = false ∧ (u.level (levelKey (.clocheTh (Fin.ofNat 16 (par c 1))))).held = false ∧ ∀ h ∈ assignedLoops s (par c 1), (u.charge h).outCount = 4) ∧
      (∀ k, k ≠ par c 1 → u.therm k = s.therm k) ∧ (∀ k, k ≠ levelKey (.clocheTh (Fin.ofNat 16 (par c 1))) → u.level k = s.level k) ∧ (bit (par c 2) 0 = true → u.sup.level = s.sup.level) ∧
      u = { s with sup := { s.sup with therm := u.sup.therm, charge := u.sup.charge, level := u.sup.level }, flt := { s.flt with block := u.flt.block } }) ∧
  (∀ (s : State) (c : Current), Picked s 0x0A00 c → par c 0 = 2 → par c 1 < 16 → railReason (par c 1) (parF c 2) (parF c 4) = none →
    ∃ u t, exec .thermConfigRail s = .next t ∧ Answered c 0 0 [] u t ∧ ((u.rail (par c 1)).uv.getD (railLimits (par c 1)).1 = parF c 2) ∧
      ((u.rail (par c 1)).ov.getD (railLimits (par c 1)).2 = parF c 4) ∧ (∀ k, k ≠ par c 1 → u.rail k = s.rail k) ∧
      u = { s with sup := { s.sup with rail := u.sup.rail } }) ∧
  (∀ (s : State) (c : Current), Picked s 0x0A00 c → par c 0 = 3 → par c 1 ≤ 2 → par c 2 < (if par c 1 = 0 then 5 else 16) →
    ∃ t w, exec .thermConfigRead s = .next t ∧ Answered c 0 0 w s t ∧
      (par c 1 = 0 → w = [0, w16 (2 ^ par c 2)] ++ toWords 2 (s.zone (par c 2)).warn.toNat ++ toWords 2 (s.zone (par c 2)).throttle.toNat ++
        toWords 2 (s.zone (par c 2)).cloche.toNat ++ toWords 2 (s.zone (par c 2)).shutdown.toNat ++ toWords 2 (s.zone (par c 2)).hyst.toNat ++
        toWords 2 (s.zone (par c 2)).step.toNat ++ [w16 (s.zone (par c 2)).graceMs] ++ toWords 2 (s.zone (par c 2)).ror.toNat) ∧
      (par c 1 = 1 → w = [1, w16 (par c 2), w16 (flag 0 (s.therm (par c 2)).enable + flag 1 (s.therm (par c 2)).bias)] ++ toWords 2 (s.therm (par c 2)).a.toNat ++
        toWords 2 (s.therm (par c 2)).b.toNat ++ toWords 2 (s.therm (par c 2)).c.toNat ++ toWords 2 (s.therm (par c 2)).cloche.toNat ++
        toWords 2 (s.therm (par c 2)).ror.toNat) ∧
      (par c 1 = 2 → w = [2, w16 (par c 2)] ++ toWords 2 ((s.rail (par c 2)).uv.getD (railLimits (par c 2)).1).toNat ++
        toWords 2 ((s.rail (par c 2)).ov.getD (railLimits (par c 2)).2).toNat)) ∧
  (∀ (s : State) (c : Current), Picked s 0x0A01 c → 512 ≤ par c 0 → 1 ≤ par c 1 → par c 0 + par c 1 ≤ 544 → par c 9 = 0 → (par c 2 < 16 ∨ par c 2 = 0xFF ∨ par c 2 = 0xFE ∧ ∀ h, par c 0 ≤ h → h < par c 0 + par c 1 → (s.loop h).stage ≠ 0 ∧
      (s.stage (s.loop h).stageId).attached = true ∧ 4 ≤ wAt (s.stage (s.loop h).stageId).ident 12) →
    f32Finite (parF c 3) = true → f32Finite (parF c 5) = true → within (parF c 7) (dec 1 1) (Frac.ofInt 10) = true →
    ((f32 (parF c 3)).add ((f32 (parF c 7)).mul (Frac.ofInt 2))).lt (f32 (parF c 5)) = true →
    ∃ u t, exec .chargeWindow s = .next t ∧ Answered c 0 0 [] u t ∧ u = { s with sup := { s.sup with charge := u.sup.charge } } ∧
      (∀ h, par c 0 - 512 ≤ h → h < par c 0 - 512 + par c 1 → (u.charge h).source = par c 2 ∧ (u.charge h).low = parF c 3 ∧ (u.charge h).high = parF c 5 ∧
        (u.charge h).hyst = parF c 7 ∧ ((s.charge h).source ≠ par c 2 → (u.charge h).inCount = 0) ∧ (u.charge h).out = (s.charge h).out) ∧
      (∀ h, h < par c 0 - 512 ∨ par c 0 - 512 + par c 1 ≤ h → u.charge h = s.charge h)) ∧
  (∀ (s : State) (c : Current), Picked s 0x0A01 c → par c 0 < 512 → par c 9 = 0 → ∃ t, exec .chargeWindow s = .next t ∧ Answered c 0x12 1 [] s t) ∧
  (∀ (s : State) (c : Current), Picked s 0x0A01 c → 512 ≤ par c 0 → par c 1 = 1 → par c 0 < 544 → par c 9 = 1 →
    ∃ t, exec .chargeWindowRead s = .next t ∧ Answered c 0 0 ([w16 (s.charge (par c 0 - 512)).source] ++ toWords 2 (s.charge (par c 0 - 512)).low.toNat ++
      toWords 2 (s.charge (par c 0 - 512)).high.toNat ++ toWords 2 (s.charge (par c 0 - 512)).hyst.toNat ++
      [if (s.loop (par c 0)).charge = true ∧ ((s.charge (par c 0 - 512)).out = true ∨ chargeSourceBad s (par c 0) = true) then 1 else 0]) s t) ∧
  (∀ (s : State) (c : Current), Picked s 0x0A01 c → par c 0 = 512 → par c 1 = 1 → par c 9 = 0 → par c 2 = 0xFE → f32Finite (parF c 3) = true → f32Finite (parF c 5) = true →
    within (parF c 7) (dec 1 1) (Frac.ofInt 10) = true → ((f32 (parF c 3)).add ((f32 (parF c 7)).mul (Frac.ofInt 2))).lt (f32 (parF c 5)) = true →
    (s.loop 512).stage = 0 → ∃ t, exec .chargeWindow s = .next t ∧ Answered c 0x13 24 [] s t) ∧
  (∀ (s : State) (c : Current), Picked s 0x0A02 c → par c 0 < 32 → par c 1 = 0 →
    ∃ u t, exec .throttleAck s = .next t ∧ Answered c 0 0 [zoneLevelsWord s, zoneEnforcedWord s] u t ∧ u = { s with sup := { s.sup with zone := u.sup.zone } } ∧
      ∀ z, z < 5 → u.zone z = { s.zone z with acked := (s.zone z).acked || (par c 0).testBit z }) ∧
  (∀ (s : State) (c : Current), Picked s 0x0A02 c → par c 0 < 32 → par c 1 = 1 →
    ∃ u t, exec .throttleAck s = .next t ∧ Answered c 0 0 [zoneLevelsWord u, zoneEnforcedWord u] u t ∧
      ∀ z, z < 5 → (par c 0).testBit z = true → (u.zone z).acked = true ∧ (u.zone z).grace1 = none ∧ (u.zone z).grace2 = none ∧ (u.zone z).grace3 = none ∧
        ((s.zone z).grace1 ≠ none → (u.zone z).ended1 = true))

/-- Calibration runs (R481, R482, R484, R488, R491, R501 to R503). CAL_RUN checks its parameters and scopes, freezes their
loops, holds their clocks and is tracked work; its end is judged from the measurement: a run that is rejected, dry, aborted or
of REFV_CHECK changes no coefficient, an accepted one changes those of its scopes alone, to the measured ones, and each end
returns the frozen loops to the state they left. -/
def Obligations.CalibrationRuns : Prop :=
  (∀ (s : State) (c : Current) (k : Nat) (sc : List Nat), Picked s 0x0B00 c → k = par c 0 → sc = scopesOf s k (par32 c 1) → CalAsked c → CalScopesFree s c →
    tagInUse s c.tag.toNat = false → s.sup.shutdown = false → s.cal.run = none →
    ∃ u v t, exec .calRun s = .next t ∧ Answered c 1 0 [] v t ∧ Begun c.tag.toNat 0x0B00 c.ring.toNat 0 u v ∧
      u.cal = { s.cal with run := some { tag := c.tag.toNat, ring := c.ring.toNat, kind := k, scopes := sc, dry := (par c 3).testBit 0, refv := parF c 4, tolPpm := if par c 6 = 0 then 500 else par c 6, aborting := false } } ∧
      (∀ l ∈ calLoops s k sc, (s.loop l).state = .regulating ∨ (s.loop l).state = .stopped ∨ (s.loop l).state = .settling →
        (u.loop l).state = .frozen ∧ (u.loop l).resume = (if (s.loop l).state = .settling then .regulating else (s.loop l).state) ∧
        u.loop l = { s.loop l with state := .frozen, resume := (u.loop l).resume, change := none, changeNext := none, autoGoal := none }) ∧
      (∀ l, l ∉ calLoops s k sc ∨ (s.loop l).state = .cloche ∨ (s.loop l).state = .ganged ∨ (s.loop l).state = .frozen → u.loop l = s.loop l) ∧
      (k ≤ 1 → ∀ b ∈ calBeds k sc, ∀ p, p < 32 → follows u (32 * b + p) = false) ∧ (1 < k → u.edge = s.edge) ∧
      u = { s with cal := u.cal, edge := { s.edge with pinClock := u.edge.pinClock }, lp := { s.lp with loop := u.lp.loop } }) ∧
  (∀ (s : State) (c : Current), Picked s 0x0B00 c → 6 < par c 0 → ∃ t, exec .calRun s = .next t ∧ Answered c 0x12 0 [] s t) ∧
  (∀ (s : State) (c : Current), Picked s 0x0B00 c → par c 0 ≤ 6 → (2 ^ calScopes (par c 0) ≤ par32 c 1 ∨ (calScopes (par c 0) ≠ 0 ∧ par32 c 1 = 0)) →
    ∃ t, exec .calRun s = .next t ∧ Answered c 0x12 1 [] s t) ∧
  (∀ (s : State) (c : Current), Picked s 0x0B00 c → CalAsked c → tagInUse s c.tag.toNat = false → (par c 0 ≤ 2 → s.clk.refPresent = true ∧ s.clk.holdover = false) → s.sup.shutdown = true →
    ∃ t, exec .calRun s = .next t ∧ Answered c 0x14 0xFF [] s t) ∧
  (∀ (s : State) (c : Current), Picked s 0x0B00 c → CalAsked c → CalScopesFree s c → tagInUse s c.tag.toNat = false → s.sup.shutdown = false → s.cal.run ≠ none →
    ∃ t, exec .calRun s = .next t ∧ Answered c 0x10 0xFE [] s t) ∧
  (∀ (m : CalMeas) (s : State), s.cal.run = none → exec (.calRunEnd m) s = .next s) ∧
  (∀ (m : CalMeas) (s : State) (r : CalRun), s.cal.run = some r → r.aborting = true →
    ∃ t e, exec (.calRunEnd m) s = .next t ∧ Ended e t ∧ e.tag = r.tag ∧ e.status = 2 ∧ e.state = 2 ∧ e.cause = 1 ∧ e.steps ≤ calCount s r ∧ e.detail = e.steps ∧
      t.cal = { s.cal with run := none } ∧ (∀ b, t.drift b = s.drift b) ∧
      (∀ l ∈ calLoops s r.kind r.scopes, (s.loop l).state = .frozen → t.loop l = { s.loop l with state := (s.loop l).resume }) ∧
      (∀ l, l ∉ calLoops s r.kind r.scopes ∨ (s.loop l).state ≠ .frozen → t.loop l = s.loop l) ∧
      t = { s with free := t.free, mb := t.mb, fw := t.fw, edge := t.edge, lp := { s.lp with loop := t.lp.loop }, harv := t.harv, link := t.link, cal := t.cal, flt := t.flt }) ∧
  (∀ (m : CalMeas) (s : State) (r : CalRun) (n : Nat), s.cal.run = some r → r.aborting = false → rejectReason r m = some n →
    ∃ t e, exec (.calRunEnd m) s = .next t ∧ Ended e t ∧ e.tag = r.tag ∧ e.status = 0x30 ∧ e.state = 1 ∧ e.detail = n ∧ e.steps = calCount s r ∧ e.output = 0 ∧
      t.cal = { s.cal with run := none, quality := t.cal.quality, measured := t.cal.measured } ∧ (∀ b, t.drift b = s.drift b) ∧
      (∀ l ∈ calLoops s r.kind r.scopes, (s.loop l).state = .frozen → t.loop l = { s.loop l with state := (s.loop l).resume }) ∧
      (∀ l, l ∉ calLoops s r.kind r.scopes ∨ (s.loop l).state ≠ .frozen → t.loop l = s.loop l) ∧
      t = { s with free := t.free, mb := t.mb, fw := t.fw, edge := t.edge, lp := { s.lp with loop := t.lp.loop }, harv := t.harv, link := t.link, cal := t.cal, flt := t.flt }) ∧
  (∀ (m : CalMeas) (s : State) (r : CalRun), s.cal.run = some r → r.aborting = false → rejectReason r m = none → r.dry = true ∨ r.kind = 6 →
    ∃ t e, exec (.calRunEnd m) s = .next t ∧ Ended e t ∧ e.tag = r.tag ∧ e.status = 0 ∧ e.state = 1 ∧ e.steps = calCount s r ∧ e.output = 0 ∧
      t.cal = { s.cal with run := none, quality := t.cal.quality, measured := t.cal.measured } ∧ (∀ b, t.drift b = s.drift b) ∧
      (∀ l ∈ calLoops s r.kind r.scopes, (s.loop l).state = .frozen → t.loop l = { s.loop l with state := (s.loop l).resume }) ∧
      (∀ l, l ∉ calLoops s r.kind r.scopes ∨ (s.loop l).state ≠ .frozen → t.loop l = s.loop l) ∧
      t = { s with free := t.free, mb := t.mb, fw := t.fw, edge := t.edge, lp := { s.lp with loop := t.lp.loop }, harv := t.harv, link := t.link, cal := t.cal, flt := t.flt }) ∧
  (∀ (m : CalMeas) (s : State) (r : CalRun), s.cal.run = some r → r.aborting = false → rejectReason r m = none → r.dry = false → r.kind ≤ 5 →
    ∃ t e, exec (.calRunEnd m) s = .next t ∧ Ended e t ∧ e.tag = r.tag ∧ e.status = 0 ∧ e.state = 1 ∧ e.steps = calCount s r ∧ e.output = 0 ∧
      t.cal = { s.cal with run := none, body := t.cal.body, modified := true, quality := t.cal.quality, measured := t.cal.measured } ∧
      (∀ a, (∀ p ∈ calParts r.kind r.scopes, a < p.1 ∨ p.1 + p.2 ≤ a) → calByte t a = calByte s a) ∧
      (∀ a, (∃ p ∈ calParts r.kind r.scopes, p.1 ≤ a ∧ a < p.1 + p.2) → (r.kind = 0 → ∀ b ∈ r.scopes, a < 656 + 656 * b ∨ 662 + 656 * b ≤ a) →
        calByte t a = ((m.patch.reverse.find? (fun e => decide (e.1 = a))).map (fun e => e.2)).getD (calByte s a)) ∧
      (r.kind = 0 → ∀ b ∈ r.scopes, t.drift b = 0 ∧ calNum t (656 + 656 * b) 4 = (toF32 ⟨driverSum s b, 32⟩).toNat ∧ calNum t (660 + 656 * b) 2 = (s.pmon (1 + b / 4)).toNat) ∧
      (∀ b, r.kind ≠ 0 ∨ b ∉ r.scopes → t.drift b = s.drift b) ∧
      (∀ l ∈ calLoops s r.kind r.scopes, (s.loop l).state = .frozen → t.loop l = { s.loop l with state := (s.loop l).resume }) ∧
      (∀ l, l ∉ calLoops s r.kind r.scopes ∨ (s.loop l).state ≠ .frozen → t.loop l = s.loop l) ∧
      t = { s with free := t.free, mb := t.mb, fw := t.fw, edge := t.edge, lp := { s.lp with loop := t.lp.loop }, harv := t.harv, link := t.link, cal := t.cal, flt := t.flt }) ∧
  (∀ (l : List Nat), l.length = 16 → (chiFails l = true ↔ (377 * 16 * (l.sum : Int) < 10 * (l.map (fun x => (16 * (x : Int) - (l.sum : Int)) ^ 2)).sum))) ∧
  (∀ (r : CalRun) (m : CalMeas), r.kind = 6 → (rejectReason r m = none ↔ 16 ≤ m.refvDev.length ∧ ∀ d ∈ m.refvDev, refvOk r d = true) ∧
    (rejectReason r m ≠ none → rejectReason r m = some 6))

/-- Calibration images (R492 to R498, R502, R504, R505). CAL_COMMIT erases the header, body and marker sectors of the slot that
does not hold the newest valid image and nothing else; its end leaves a valid slot of its generation, or a slot without a new
marker; CAL_SELECT puts an image into use, and answers the images that the part holds and the figures of its calibrations. -/
def Obligations.CalibrationImages : Prop :=
  (∀ (s : State) (c : Current) (target : Bool), Picked s 0x0B01 c → tagInUse s c.tag.toNat = false → keepAllowed s 1 = true → s.cal.run = none → keepBusy s = false →
    target = decide (newestSlot s = some false) →
    ∃ u v t w, exec .calCommit s = .next t ∧ Answered c 1 0 [] v t ∧ Begun c.tag.toNat 0x0B01 c.ring.toNat 0 u v ∧
      u.cal.commit = some { tag := c.tag.toNat, ring := c.ring.toNat, slotB := target, gen := (match newestSlot s with | some b => slotGen s b + 1 | none => 1), wear := w } ∧
      (∀ a, a < slotBase target ∨ slotBase target + 0x80000 ≤ a → u.keepByte a = s.keepByte a) ∧
      ((∀ k ∈ commitSectors target, wornOut s k = false) → w = false ∧ ∀ k ∈ commitSectors target, u.wearOf k = s.wearOf k + 1 ∧ ∀ a, a < 4096 → u.keepByte (4096 * k + a) = 0xFF) ∧
      ((∃ k ∈ commitSectors target, wornOut s k = true) → w = true) ∧ (∀ k, k ∉ commitSectors target → u.wearOf k = s.wearOf k) ∧
      u.cal = { s.cal with keep := u.cal.keep, wear := u.cal.wear, commit := u.cal.commit } ∧ u = { s with cal := u.cal, flt := u.flt }) ∧
  (∀ (s : State) (c : Current), Picked s 0x0B01 c → tagInUse s c.tag.toNat = false → keepAllowed s 1 = false →
    ∃ t, exec .calCommit s = .next t ∧ Answered c 0x31 1 [] s t) ∧
  (∀ (s : State) (c : Current), Picked s 0x0B01 c → tagInUse s c.tag.toNat = false → keepAllowed s 1 = true → s.cal.run ≠ none →
    ∃ t, exec .calCommit s = .next t ∧ Answered c 0x13 26 [] s t) ∧
  (∀ (s : State) (c : Current), Picked s 0x0B01 c → tagInUse s c.tag.toNat = false → keepAllowed s 1 = true → s.cal.run = none → keepBusy s = true →
    ∃ t, exec .calCommit s = .next t ∧ Answered c 0x10 0x1B [] s t) ∧
  (∀ (ok : Bool) (s : State), s.cal.commit = none → exec (.calCommitDone ok) s = .next s) ∧
  (∀ (s : State) (k : CalCommit), s.cal.commit = some k → k.wear = false → s.sup.keepOpen = true → k.gen < 2 ^ 32 →
    ∃ t e, exec (.calCommitDone true) s = .next t ∧ Ended e t ∧ e.tag = k.tag ∧ e.status = 0 ∧ t.cal.commit = none ∧
      slotValid t k.slotB = true ∧ slotGen t k.slotB = k.gen ∧ (∀ a, a < calBodyLen → t.keepByte (slotBase k.slotB + 0x1000 + a) = calByte s a) ∧
      (∀ a, a < slotBase k.slotB ∨ slotBase k.slotB + 0x80000 ≤ a → t.keepByte a = s.keepByte a) ∧
      t.cal = { s.cal with commit := none, keep := t.cal.keep } ∧ t = { s with fw := t.fw, harv := t.harv, cal := t.cal, flt := t.flt }) ∧
  (∀ (ok : Bool) (s : State) (k : CalCommit), s.cal.commit = some k → (k.wear = true ∨ s.sup.keepOpen = false ∨ ok = false) →
    ∃ t e, exec (.calCommitDone ok) s = .next t ∧ Ended e t ∧ e.tag = k.tag ∧ t.cal.commit = none ∧
      (k.wear = true → e.status = 0x12 ∧ e.detail = 0x8002) ∧ (k.wear = false → s.sup.keepOpen = false → e.status = 0x31 ∧ e.detail = 1) ∧
      (k.wear = false → s.sup.keepOpen = true → e.status = 0x12 ∧ e.detail = 0x8001) ∧
      (k.wear = true ∨ s.sup.keepOpen = false → t.cal = { s.cal with commit := none }) ∧ t.cal = { s.cal with commit := none, keep := t.cal.keep } ∧
      (∀ a, slotBase k.slotB + 0x7FFF0 ≤ a → t.keepByte a = s.keepByte a) ∧ (∀ a, a < slotBase k.slotB → t.keepByte a = s.keepByte a) ∧
      t = { s with fw := t.fw, harv := t.harv, cal := t.cal, flt := t.flt }) ∧
  (∀ (s : State) (c : Current), Picked s 0x0B02 c → par c 0 = 0 → par c 1 ≤ 3 → (∀ q, q < 64 → seqBusy s q = false) → (∀ u, u < 32 → (s.tiu u).run = none) →
    s.cal.run = none → (par c 1 = 1 → slotValid s false = true) → (par c 1 = 2 → slotValid s true = true) →
    ∃ u t, exec .calSelectLoad s = .next t ∧ Answered c 0 0 [] u t ∧ (∀ b, u.drift b = 0) ∧ u.cal.modified = false ∧
      (par c 1 ≠ 0 → u.cal.source = par c 1) ∧
      (par c 1 = 0 → u.cal.source = (match newestSlot s with | some false => 1 | some true => 2 | none => 3)) ∧
      (u.cal.source = 3 → (∀ a, calByte u a = calDefault a) ∧ u.cal.sourceGen = 0) ∧
      (∀ b : Bool, u.cal.source = (if b then 2 else 1) → u.cal.sourceGen = slotGen s b ∧
        ∀ a, a < calBodyLen → a < keepNum s (slotBase b + 12) 4 → calByte u a = s.keepByte (slotBase b + 0x1000 + a)) ∧
      u.cal = { s.cal with body := u.cal.body, source := u.cal.source, sourceGen := u.cal.sourceGen, modified := false } ∧
      (par c 1 ≠ 0 → u.flt = s.flt) ∧ u = { s with cal := u.cal, edge := { s.edge with drift := [] }, flt := u.flt }) ∧
  (∀ (s : State) (c : Current) (b : Bool), Picked s 0x0B02 c → par c 0 = 0 → par c 1 = (if b then 2 else 1) → (∀ q, q < 64 → seqBusy s q = false) →
    (∀ u, u < 32 → (s.tiu u).run = none) → s.cal.run = none → slotValid s b = false → ∃ t, exec .calSelectLoad s = .next t ∧ Answered c 0x13 27 [] s t) ∧
  (∀ (s : State) (c : Current) (q : Nat), Picked s 0x0B02 c → par c 0 = 0 → par c 1 ≤ 3 → q < 64 → seqBusy s q = true →
    ∃ t, exec .calSelectLoad s = .next t ∧ Answered c 0x13 1 [] s t) ∧
  (∀ (s : State) (c : Current), Picked s 0x0B02 c → par c 0 = 0 → par c 1 ≤ 3 → (∀ q, q < 64 → seqBusy s q = false) → (∀ u, u < 32 → (s.tiu u).run = none) → s.cal.run ≠ none →
    ∃ t, exec .calSelectLoad s = .next t ∧ Answered c 0x13 26 [] s t) ∧
  (∀ (s : State) (c : Current), Picked s 0x0B02 c → par c 0 = 0 → 3 < par c 1 → ∃ t, exec .calSelectLoad s = .next t ∧ Answered c 0x12 1 [] s t) ∧
  (∀ (s : State) (c : Current), Picked s 0x0B02 c → par c 0 = 1 →
    ∃ t, exec .calSelectStatus s = .next t ∧ Answered c 0 0
      ([w16 s.cal.source, if s.cal.modified then 1 else 0] ++ toWords 2 (slotGen s false) ++ [if slotValid s false then 1 else 0] ++ toWords 2 (slotGen s true) ++
        [if slotValid s true then 1 else 0] ++ toWords 2 (seedGen s false) ++ [if seedValid s false then 1 else 0] ++ toWords 2 (seedGen s true) ++
        [if seedValid s true then 1 else 0, w16 s.cal.seedUsed]) s t) ∧
  (∀ (s : State) (c : Current), Picked s 0x0B02 c → par c 0 = 2 → par c 1 = 7 → par c 2 < 8 →
    ∃ t, exec .calSelectQuality s = .next t ∧ Answered c 0 0 [w16 ((s.port (par c 2 / 4)).eyes.getD (par c 2 % 4) (0, 0)).1,
      w16 ((s.port (par c 2 / 4)).eyes.getD (par c 2 % 4) (0, 0)).2] s t) ∧
  (∀ (s : State) (c : Current), Picked s 0x0B02 c → par c 0 = 2 → (par c 1 = 3 ∨ par c 1 = 4) → par c 2 < qualityCount (par c 1) →
    s.measured (1024 * par c 1 + par c 2) = true →
    ∃ t q, exec .calSelectQuality s = .next t ∧ q = s.quality (1024 * par c 1 + par c 2) ∧
      Answered c 0 0 (toWords 2 (toF32 ⟨q.first, 1000⟩).toNat ++ toWords 2 (toF32 ⟨q.second, 1000⟩).toNat ++ toWords 2 (toF32 ⟨q.rep, 1000⟩).toNat ++ [0]) s t) ∧
  (∀ (s : State) (c : Current), Picked s 0x0B02 c → par c 0 = 2 → par c 1 < 7 → par c 2 < qualityCount (par c 1) →
    ∃ u t w, exec .calSelectQuality s = .next t ∧ Answered c 0 0 w u t ∧ w.length = 7 ∧
      w.getD 6 0 = (if s.measured (1024 * par c 1 + par c 2) then 0 else 1) ∧
      (s.measured (1024 * par c 1 + par c 2) = true → par c 1 ≠ 6 → w.take 2 = toWords 2 (toF32 ⟨(s.quality (1024 * par c 1 + par c 2)).first, 1000⟩).toNat ∧
        (w.drop 4).take 2 = toWords 2 (toF32 ⟨(s.quality (1024 * par c 1 + par c 2)).rep, 1000⟩).toNat) ∧
      (s.measured (1024 * par c 1 + par c 2) = true → par c 1 = 6 → (w.drop 2).take 2 = toWords 2 (toF32 ⟨(s.quality (1024 * par c 1 + par c 2)).second, 1000⟩).toNat) ∧
      (∀ n, s.measured (1024 * par c 1 + par c 2) = false → (imageFigures s (par c 1) (par c 2)).1 = some n → w.take 2 = toWords 2 n) ∧
      u = { s with free := u.free }) ∧
  (∀ (s : State) (c : Current), Picked s 0x0B02 c → par c 0 = 2 → 7 < par c 1 → ∃ t, exec .calSelectQuality s = .next t ∧ Answered c 0x12 1 [] s t)

/-- The keep store (R493, R494, R496, R500, R502, R506, R507). A write of the user area erases and reprograms the sectors it
touches, one operation at a time, while the window is open; a write of the seed edits the staging image alone, which
COMMIT checks and writes; reads answer the bytes. -/
def Obligations.KeepStoreCommands : Prop :=
  (∀ (s : State) (c : Current), Picked s 0x0B03 c → par c 0 = 0 → par c 1 = 0 → 2 ≤ par c 4 → par c 4 ≤ 224 → par c 4 % 2 = 0 → par32 c 2 + par c 4 ≤ 0x40000 →
    par c 4 ≤ 2 * (c.params.length - 5) → keepAllowed s 0 = true → keepBusy s = false → wornOut s ((0x30000 + par32 c 2) / 4096) = false →
    ∃ u t, exec .keepWriteData s = .next t ∧ Waits c .keepOp [] u t ∧
      u = { s with cal := { s.cal with op := some { area := 0, steps := userSteps s (0x30000 + par32 c 2) (keepData c), gen := 0 } } }) ∧
  (∀ (s : State) (c : Current), Picked s 0x0B03 c → par c 0 = 0 → par c 1 = 0 → 2 ≤ par c 4 → par c 4 ≤ 224 → par c 4 % 2 = 0 → par32 c 2 + par c 4 ≤ 0x40000 →
    keepAllowed s 0 = false → ∃ t, exec .keepWriteData s = .next t ∧ Answered c 0x31 0 [] s t) ∧
  (∀ (s : State) (c : Current), Picked s 0x0B03 c → par c 0 = 0 → par c 1 = 0 → 2 ≤ par c 4 → par c 4 ≤ 224 → par c 4 % 2 = 0 → par32 c 2 + par c 4 ≤ 0x40000 →
    keepAllowed s 0 = true → keepBusy s = true → ∃ t, exec .keepWriteData s = .next t ∧ Answered c 0x10 0x1B [] s t) ∧
  (∀ (s : State) (c : Current), Picked s 0x0B03 c → par c 0 = 2 → par c 1 = 0 → 2 ≤ par c 4 → par c 4 ≤ 224 → par c 4 % 2 = 0 → par32 c 2 + par c 4 ≤ 0x8000 →
    ∃ u t st, exec .keepWriteData s = .next t ∧ Answered c 0 0 [] u t ∧ u = { s with cal := { s.cal with staging := some st } } ∧
      ∀ a, tget seedFactory st a = (if par32 c 2 ≤ a ∧ a < par32 c 2 + (keepData c).length then (keepData c).getD (a - par32 c 2) 0 else tget seedFactory (stagingOf s) a)) ∧
  (∀ (s : State) (c : Current), Picked s 0x0B03 c → par c 0 ≠ 0 → par c 0 ≠ 2 → par c 1 = 0 → ∃ t, exec .keepWriteData s = .next t ∧ Answered c 0x12 0 [] s t) ∧
  (∀ (s : State) (c : Current) (st : Tab Byte) (target : Bool), Picked s 0x0B03 c → par c 0 = 2 → par c 1 = 1 → s.cal.staging = some st →
    seedBad (tget seedFactory st) = none → keepAllowed s 2 = true → keepBusy s = false → target = decide (newestSeed s = some false) →
    wornOut s (seedBase target / 4096) = false →
    ∃ u t o, exec .keepWriteCommit s = .next t ∧ Waits c .keepOp [] u t ∧ u = { s with cal := { s.cal with op := some o } } ∧ o.area = 2 ∧
      o.gen = (match newestSeed s with | some b => seedGen s b + 1 | none => 1) ∧ o.steps = seedSteps s target st o.gen) ∧
  (∀ (s : State) (c : Current) (st : Tab Byte) (k : Nat), Picked s 0x0B03 c → par c 0 = 2 → par c 1 = 1 → s.cal.staging = some st →
    seedBad (tget seedFactory st) = some k → ∃ t, exec .keepWriteCommit s = .next t ∧ Answered c 0x12 0x8009 (toWords 2 k) s t) ∧
  (∀ (s : State) (c : Current), Picked s 0x0B03 c → par c 0 = 2 → par c 1 = 1 → s.cal.staging = none → keepAllowed s 2 = true →
    ∃ t, exec .keepWriteCommit s = .next t ∧ Answered c 0x13 28 [] s t) ∧
  (∀ (s : State) (c : Current), Picked s 0x0B03 c → par c 0 = 2 → par c 1 = 2 →
    ∃ u t st, exec .keepWriteCapture s = .next t ∧ Answered c 0 0 [] u t ∧ u = { s with cal := { s.cal with staging := some st } } ∧
      ∀ a, tget seedFactory st a = (if 0x4B40 ≤ a ∧ a < 0x4B40 + (captureBytes s).length then (captureBytes s).getD (a - 0x4B40) 0 else tget seedFactory (stagingOf s) a)) ∧
  (∀ (s : State), (captureBytes s).length = 0x5DE0 - 0x4B40) ∧
  (∀ (s : State) (c : Current) (st : Tab Byte), Picked s 0x0B03 c → par c 0 = 2 → par c 1 = 3 → s.cal.staging = some st →
    ∃ u t, exec .keepWriteDiscard s = .next t ∧ Answered c 0 0 [] u t ∧ u = { s with cal := { s.cal with staging := none } }) ∧
  (∀ (s : State) (c : Current), Picked s 0x0B03 c → par c 0 = 2 → par c 1 = 3 → s.cal.staging = none →
    ∃ t, exec .keepWriteDiscard s = .next t ∧ Answered c 0x13 28 [] s t) ∧
  (∀ (s : State) (c : Current), Picked s 0x0B04 c → par c 0 ≤ 5 → par32 c 1 + par c 3 ≤ (keepArea (par c 0)).2 → 2 ≤ par c 3 → par c 3 ≤ 224 → par c 3 % 2 = 0 →
    keepBusy s = false →
    ∃ t, exec .keepRead s = .next t ∧ Answered c 0 0 (bytesToWords (keepBytes s ((keepArea (par c 0)).1 + par32 c 1) (par c 3))) s t) ∧
  (∀ (s : State) (c : Current) (st : Tab Byte), Picked s 0x0B04 c → par c 0 = 6 → par32 c 1 + par c 3 ≤ 0x8000 → 2 ≤ par c 3 → par c 3 ≤ 224 → par c 3 % 2 = 0 →
    s.cal.staging = some st → keepBusy s = false →
    ∃ t, exec .keepRead s = .next t ∧ Answered c 0 0 (bytesToWords ((List.range (par c 3)).map (fun i => tget seedFactory st (par32 c 1 + i)))) s t) ∧
  (∀ (s : State) (c : Current), Picked s 0x0B04 c → par c 0 ≤ 5 → par32 c 1 + par c 3 ≤ (keepArea (par c 0)).2 → 2 ≤ par c 3 → par c 3 ≤ 224 → par c 3 % 2 = 0 →
    keepBusy s = true → ∃ t, exec .keepRead s = .next t ∧ Answered c 0x10 0x1B [] s t) ∧
  (∀ (s : State), s.cal.op = none → exec .keepOperationDone s = .next s) ∧
  (∀ (s : State) (o : KeepOp) (k : Nat) (x : KeepStep) (r : List KeepStep), s.cal.op = some o → o.steps = .erase k :: x :: r → s.sup.keepOpen = true →
    (∀ j, x = .erase j → j ≠ k ∧ wornOut s j = false) →
    ∃ t, exec .keepOperationDone s = .next t ∧ t.cal.op = some { o with steps := x :: r } ∧ (∀ a, t.keepByte a = (if a / 4096 = k then 0xFF else s.keepByte a)) ∧
      t.wearOf k = s.wearOf k + 1 ∧ (∀ j, j ≠ k → t.wearOf j = s.wearOf j) ∧
      (s.wearOf k = 90000 → ∃ d ∈ t.flt.waiting, d.block = 0x1B ∧ d.source = 5 ∧ d.d0 = w16 k) ∧ t = { s with cal := t.cal, flt := t.flt }) ∧
  (∀ (s : State) (o : KeepOp) (c : Current) (p : Nat) (l : List Byte), s.cal.op = some o → o.steps = [.program p l] → s.fw.current = some c → c.wait = .keepOp →
    ∃ u t, exec .keepOperationDone s = .next t ∧ Answered c 0 0 (if o.area = 2 then toWords 2 o.gen else []) u t ∧ u.cal.op = none ∧
      (∀ a, u.keepByte a = (if p ≤ a ∧ a < p + l.length then l.getD (a - p) 0 else s.keepByte a)) ∧ u = { s with cal := { s.cal with op := none, keep := u.cal.keep } }) ∧
  (∀ (s : State) (o : KeepOp) (c : Current) (p : Nat) (l : List Byte) (x : KeepStep) (r : List KeepStep), s.cal.op = some o → o.steps = .program p l :: x :: r →
    s.fw.current = some c → c.wait = .keepOp → s.sup.keepOpen = false →
    ∃ u t, exec .keepOperationDone s = .next t ∧ Answered c 0x31 o.area [] u t ∧ u.cal.op = none ∧
      (∀ a, u.keepByte a = (if p ≤ a ∧ a < p + l.length then l.getD (a - p) 0 else s.keepByte a)) ∧ u = { s with cal := { s.cal with op := none, keep := u.cal.keep } }) ∧
  (∀ (s : State) (o : KeepOp) (c : Current) (p : Nat) (l : List Byte) (j : Nat) (r : List KeepStep), s.cal.op = some o → o.steps = .program p l :: .erase j :: r →
    s.fw.current = some c → c.wait = .keepOp → s.sup.keepOpen = true → wornOut s j = true →
    ∃ u t, exec .keepOperationDone s = .next t ∧ Answered c 0x12 0x8001 [] u t ∧
      (∀ a, u.keepByte a = (if p ≤ a ∧ a < p + l.length then l.getD (a - p) 0 else s.keepByte a)) ∧ u = { s with cal := { s.cal with op := none, keep := u.cal.keep } }) ∧
  (∀ (s : State) (o : KeepOp) (p : Nat) (l : List Byte) (x : KeepStep) (r : List KeepStep), s.cal.op = some o → o.steps = .program p l :: x :: r → s.sup.keepOpen = true →
    (∀ j, x = .erase j → wornOut s j = false) →
    ∃ t, exec .keepOperationDone s = .next t ∧ (∀ a, t.keepByte a = (if p ≤ a ∧ a < p + l.length then l.getD (a - p) 0 else s.keepByte a)) ∧
      t = { s with cal := { s.cal with op := some { o with steps := x :: r }, keep := t.cal.keep } })

/-- The commands of faults and perturbation (R511, R528, R530 to R534). FAULT_CONFIG writes and reads reaction words,
FAULT_FORCE raises a source now or at a time, and PERTURB_SET writes and reads an entry while disarmed. -/
def Obligations.FaultCommands : Prop :=
  (∀ (s : State) (c : Current), Picked s 0x0C00 c → par c 0 < 28 → 1 ≤ par c 2 → par c 2 ≤ 64 → par c 1 + par c 2 ≤ srcCount (par c 0) → par c 3 = 0 →
    (∀ i, i < par c 2 → reactLegal (w16 (par c (4 + i))) = true) →
    ∃ u t, exec .faultConfig s = .next t ∧ Answered c 0 0 [] u t ∧ u = { s with flt := { s.flt with react := u.flt.react } } ∧
      ∀ k n, n < 64 → u.react k n = (if k = par c 0 ∧ par c 1 ≤ n ∧ n < par c 1 + par c 2 then w16 (par c (4 + (n - par c 1))) else s.react k n)) ∧
  (∀ (s : State) (c : Current), Picked s 0x0C00 c → par c 0 = 0x1F → 1 ≤ par c 2 → par c 2 ≤ 64 → par c 1 + par c 2 ≤ srcCount 0 → par c 3 = 0 →
    (∀ i, i < par c 2 → reactLegal (w16 (par c (4 + i))) = true) →
    ∃ u t, exec .faultConfig s = .next t ∧ Answered c 0 0 [] u t ∧ u = { s with flt := { s.flt with react := u.flt.react } } ∧
      ∀ k n, n < 64 → u.react k n = (if k < 16 ∧ par c 1 ≤ n ∧ n < par c 1 + par c 2 then w16 (par c (4 + (n - par c 1))) else s.react k n)) ∧
  (∀ (s : State) (c : Current), Picked s 0x0C00 c → par c 0 < 28 → 1 ≤ par c 2 → par c 2 ≤ 64 → srcCount (par c 0) < par c 1 + par c 2 → par c 3 = 0 →
    ∃ t, exec .faultConfig s = .next t ∧ Answered c 0x12 1 [] s t) ∧
  (∀ (s : State) (c : Current), Picked s 0x0C00 c → par c 0 < 28 → par c 2 = 1 → par c 1 < srcCount (par c 0) → par c 3 = 0 → reactLegal (w16 (par c 4)) = false →
    ∃ t, exec .faultConfig s = .next t ∧ Answered c 0x12 4 [] s t) ∧
  (∀ (w : Word), reactLegal w = true ↔ w.toNat < 64 ∧ w.toNat % 8 ≤ 4) ∧
  (∀ (s : State) (c : Current), Picked s 0x0C00 c → par c 0 < 28 → 1 ≤ par c 2 → par c 2 ≤ 64 → par c 1 + par c 2 ≤ srcCount (par c 0) → par c 3 = 1 →
    ∃ t, exec .faultConfigRead s = .next t ∧ Answered c 0 0 ((List.range (par c 2)).map (fun i => s.react (par c 0) (par c 1 + i))) s t) ∧
  (∀ (s : State) (c : Current), Picked s 0x0C00 c → par c 0 = 0x1F → par c 3 = 1 → ∃ t, exec .faultConfigRead s = .next t ∧ Answered c 0x12 0 [] s t) ∧
  (∀ (s : State) (c : Current), Picked s 0x0C01 c → par c 0 < 28 → par c 1 < srcCount (par c 0) → par c 2 = 0 → par c 3 = 0 → par c 4 = 0 → par c 5 = 0 → par c 6 = 0 →
    ∃ u t d, exec .faultForce s = .next t ∧ Answered c 0 0 (toWords 4 (epochOf s.clk.time)) u t ∧ u.flt.waiting = s.flt.waiting ++ [d] ∧ d.block = par c 0 ∧ d.source = par c 1 ∧
      d.forced = true ∧ d.stamp = epochOf s.clk.time ∧ ((epochOf s.clk.time, par c 0, par c 1) ∉ s.flt.forceAt → u.flt.forceAt = s.flt.forceAt) ∧
      u = { s with free := u.free, clk := { s.clk with time := epochOf s.clk.time }, bus := { s.bus with halfShed := none }, flt := { s.flt with waiting := u.flt.waiting, forceAt := u.flt.forceAt } }) ∧
  (∀ (s : State) (c : Current), Picked s 0x0C01 c → par c 0 < 28 → par c 1 < srcCount (par c 0) → par c 2 = 1 → c.pick + 32000 ≤ par64 c 3 →
    ∃ u t, exec .faultForce s = .next t ∧ Answered c 0 0 (toWords 4 (epochOf (par64 c 3))) u t ∧
      u = { s with flt := { s.flt with forceAt := s.flt.forceAt ++ [(epochOf (par64 c 3), par c 0, par c 1)] } }) ∧
  (∀ (s : State) (c : Current), Picked s 0x0C01 c → par c 0 < 28 → par c 1 < srcCount (par c 0) → par c 2 = 1 → par64 c 3 < c.pick + 32000 →
    ∃ t, exec .faultForce s = .next t ∧ Answered c 0x12 0x8004 [] s t) ∧
  (∀ (s : State) (c : Current), Picked s 0x0C01 c → par c 0 < 28 → srcCount (par c 0) ≤ par c 1 → ∃ t, exec .faultForce s = .next t ∧ Answered c 0x12 1 [] s t) ∧
  (∀ (s : State) (c : Current), Picked s 0x0C02 c → par c 0 < 16 → par c 1 = 0 → par c 2 ≠ 0 → par c 2 ≤ 8 → targetOk (par c 2) (par c 3) = true →
    amountOk (par c 2) (BitVec.ofNat 32 (par32 c 4)) = true → 1 ≤ par32 c 10 → (par32 c 12 = 0 ∨ par32 c 10 ≤ par32 c 12) → s.flt.armed = false →
    ∃ u t, exec .perturbSet s = .next t ∧ Answered c 0 0 [] u t ∧ u = { s with flt := { s.flt with entry := u.flt.entry } } ∧ (∀ e, e ≠ par c 0 → u.pert e = s.pert e) ∧
      u.pert (par c 0) = { kind := par c 2, target := par c 3, amount := BitVec.ofNat 32 (par32 c 4), start := par64 c 6, window := par32 c 10, period := par32 c 12, repeats := par c 14 }) ∧
  (∀ (s : State) (c : Current), Picked s 0x0C02 c → par c 0 < 16 → par c 1 = 0 → par c 2 = 0 → s.flt.armed = false →
    ∃ u t, exec .perturbSet s = .next t ∧ Answered c 0 0 [] u t ∧ u.pert (par c 0) = {} ∧ (∀ e, e ≠ par c 0 → u.pert e = s.pert e) ∧
      u = { s with flt := { s.flt with entry := u.flt.entry } }) ∧
  (∀ (s : State) (c : Current), Picked s 0x0C02 c → par c 0 < 16 → par c 1 = 0 → par c 2 = 0 → s.flt.armed = true →
    ∃ t, exec .perturbSet s = .next t ∧ Answered c 0x13 29 [] s t) ∧
  (∀ (s : State) (c : Current), Picked s 0x0C02 c → par c 0 < 16 → par c 1 = 1 →
    ∃ t p, exec .perturbSetRead s = .next t ∧ p = s.pert (par c 0) ∧ Answered c 0 0 ([w16 p.kind, w16 p.target] ++ toWords 2 p.amount.toNat ++ toWords 4 p.start ++
      toWords 2 p.window ++ toWords 2 p.period ++ [w16 p.repeats, w16 p.fired]) s t) ∧
  (∀ (s : State) (c : Current), Picked s 0x0C02 c → 16 ≤ par c 0 → par c 1 = 1 → ∃ t, exec .perturbSetRead s = .next t ∧ Answered c 0x12 0 [] s t)

/-- How a block registers faults (R509 to R511, R515, R517 to R521, R525, R528, R533). A fault sets its STICKY bit and LAST words and
counts; with the record free it is captured, the highest severity of a cycle first, and with the record held it merges;
its ERR_N, cloche and the stronger reaction act; a forced one sets no LIVE bit. -/
def Obligations.FaultRegistration : Prop :=
  (∀ (k : Block) (s : State) (d : Detect) (w : Word), registering s k.val = [d] → w = s.react k.val d.source → reactOf w ≤ 1 → errnOf w = false → clocheOf w = 0 →
    ∃ t, exec (.faultRegister k []) s = .next t ∧ t.clk.time = max s.clk.time (d.stamp + (if k.val < 16 then 32 else 16)) ∧
      (t.fblk k.val).sticky = (s.fblk k.val).sticky ||| BitVec.ofNat 64 (2 ^ d.source) ∧ (t.fblk k.val).events = satAdd max32 (s.fblk k.val).events 1 ∧
      (t.fblk k.val).lastSource = d.source ∧ (t.fblk k.val).lastTime = d.stamp ∧ (t.fblk k.val).lastValid = true ∧ (t.fblk k.val).live = (s.fblk k.val).live ∧
      (t.fblk k.val).intEn = (s.fblk k.val).intEn ∧ (t.fblk k.val).ffValid = true ∧
      ((s.fblk k.val).ffValid = false → (t.fblk k.val).merged = 0 ∧ (t.fblk k.val).ffSource = d.source ∧ (t.fblk k.val).ffSev = srcSev k.val d.source ∧
        (t.fblk k.val).ffForced = d.forced ∧ (t.fblk k.val).ffReact = w ∧ (t.fblk k.val).ffD0 = d.d0 ∧ (t.fblk k.val).ffD1 = d.d1 ∧ (t.fblk k.val).ffTime = d.stamp) ∧
      ((s.fblk k.val).ffValid = true → (t.fblk k.val).merged = satAdd max32 (s.fblk k.val).merged 1 ∧ (t.fblk k.val).ffSource = (s.fblk k.val).ffSource ∧
        (t.fblk k.val).ffSev = (s.fblk k.val).ffSev ∧ (t.fblk k.val).ffForced = (s.fblk k.val).ffForced ∧ (t.fblk k.val).ffD0 = (s.fblk k.val).ffD0 ∧
        (t.fblk k.val).ffD1 = (s.fblk k.val).ffD1 ∧ (t.fblk k.val).ffTime = (s.fblk k.val).ffTime ∧
        (t.fblk k.val).ffReact = reactWord (max (reactOf (s.fblk k.val).ffReact) (reactOf w)) (errnOf (s.fblk k.val).ffReact) (clocheOf (s.fblk k.val).ffReact)) ∧
      (reactOf w = 1 → (s.fblk k.val).intEn = true → d.source < srcCount k.val → blockInt t k.val = true) ∧
      t.flt.waiting = s.flt.waiting.filter (fun e => decide (e ≠ d)) ∧ (∀ j, j ≠ k.val → t.fblk j = s.fblk j) ∧
      t = { s with clk := { s.clk with time := t.clk.time }, bus := { s.bus with recent := t.bus.recent }, flt := { s.flt with waiting := t.flt.waiting, block := t.flt.block } }) ∧
  (∀ (k : Block) (s : State) (d e : Detect), (registering s k.val = [d, e] ∨ registering s k.val = [e, d]) → d.source < 64 → e.source < 64 →
    (srcSev k.val e.source < srcSev k.val d.source ∨ (srcSev k.val e.source = srcSev k.val d.source ∧ d.source < e.source)) →
    reactOf (s.react k.val d.source) ≤ 1 → errnOf (s.react k.val d.source) = false → clocheOf (s.react k.val d.source) = 0 →
    reactOf (s.react k.val e.source) ≤ 1 → errnOf (s.react k.val e.source) = false → clocheOf (s.react k.val e.source) = 0 → (s.fblk k.val).ffValid = false →
    ∃ t, exec (.faultRegister k []) s = .next t ∧ (t.fblk k.val).ffSource = d.source ∧ (t.fblk k.val).ffTime = d.stamp ∧ (t.fblk k.val).ffD0 = d.d0 ∧
      (t.fblk k.val).merged = 1 ∧ (t.fblk k.val).lastSource = e.source ∧ reactOf (t.fblk k.val).ffReact = max (reactOf (s.react k.val d.source)) (reactOf (s.react k.val e.source)) ∧
      (t.fblk k.val).sticky = (s.fblk k.val).sticky ||| BitVec.ofNat 64 (2 ^ d.source) ||| BitVec.ofNat 64 (2 ^ e.source) ∧
      (t.fblk k.val).events = satAdd max32 (satAdd max32 (s.fblk k.val).events 1) 1 ∧ (t.fblk k.val).live = (s.fblk k.val).live ∧ (∀ j, j ≠ k.val → t.fblk j = s.fblk j) ∧
      t.flt.waiting = s.flt.waiting.filter (fun x => decide (x ≠ d ∧ x ≠ e)) ∧
      t = { s with clk := { s.clk with time := t.clk.time }, bus := { s.bus with recent := t.bus.recent }, flt := { s.flt with waiting := t.flt.waiting, block := t.flt.block } }) ∧
  (∀ (k : Block) (s : State) (d : Detect), registering s k.val = [d] → reactOf (s.react k.val d.source) ≤ 1 → errnOf (s.react k.val d.source) = true →
    clocheOf (s.react k.val d.source) = 0 →
    ∃ t, exec (.faultRegister k []) s = .next t ∧ t.bus.errnHold = true ∧ t.bus.errnPulse = some (t.clk.time + 6400) ∧ errNLow t = true ∧ errnOf (t.fblk k.val).ffReact = true ∧
      (∀ j, j ≠ k.val → t.fblk j = s.fblk j) ∧
      t = { s with clk := { s.clk with time := t.clk.time }, bus := { s.bus with errnHold := true, errnPulse := t.bus.errnPulse, recent := t.bus.recent }, flt := { s.flt with waiting := t.flt.waiting, block := t.flt.block } }) ∧
  (∀ (k : Block) (s : State) (d : Detect), k.val < 16 → registering s k.val = [d] → reactOf (s.react k.val d.source) ≤ 1 → clocheOf (s.react k.val d.source) = 1 →
    ∃ t, exec (.faultRegister k []) s = .next t ∧ (t.bedc k.val).active = true ∧ (if d.forced then Cause.dead else Cause.fault k.val d.source) ∈ (t.bedc k.val).causes ∧
      (∀ b, b ≠ k.val → t.bedc b = s.bedc b) ∧
      ((s.bedc k.val).active = false → (t.bedc k.val).causeBlock = k.val ∧ (t.bedc k.val).causeSource = d.source % 64 ∧ (t.bedc k.val).causeScope = 1 ∧
        (t.bedc k.val).time = t.clk.time ∧ (t.bedc k.val).settled = false) ∧
      ((s.bedc k.val).active = true → (t.bedc k.val).causeSource = (s.bedc k.val).causeSource ∧ (t.bedc k.val).time = (s.bedc k.val).time)) ∧
  (∀ (k : Block) (s : State) (d : Detect), registering s k.val = [d] → reactOf (s.react k.val d.source) ≤ 1 → 2 ≤ clocheOf (s.react k.val d.source) → d.forced = false →
    ∃ t, exec (.faultRegister k []) s = .next t ∧ (∀ b, b < 16 → (t.bedc b).active = true) ∧ Cause.fault k.val d.source ∈ t.flt.chip ∧
      (clocheOf (s.react k.val d.source) = 3 → Cause.fault k.val d.source ∈ t.flt.chain) ∧
      (clocheOf (s.react k.val d.source) = 3 → s.flt.lastUrgent = none → t.flt.lastUrgent = some t.clk.time ∧ t.flt.urgId = s.flt.urgId + 1) ∧
      (clocheOf (s.react k.val d.source) = 2 → t.flt.chain = s.flt.chain ∧ t.flt.urgId = s.flt.urgId)) ∧
  (∀ (k : Block) (s : State) (d : Detect), registering s k.val = [d] → reactOf (s.react k.val d.source) = 2 → errnOf (s.react k.val d.source) = false →
    clocheOf (s.react k.val d.source) = 0 →
    ∃ t, exec (.faultRegister k []) s = .next t ∧
      ((s.fblk k.val).ffValid = false ∨ reactOf (s.fblk k.val).ffReact < 2 → shedTraps s = true → t.fw = { s.fw with traps := s.fw.traps ++ [(k.val, d.source, t.clk.time)] }) ∧
      ((s.fblk k.val).ffValid = true → 2 ≤ reactOf (s.fblk k.val).ffReact → t.fw = s.fw) ∧ (shedTraps s = false → t.fw = s.fw) ∧
      t = { s with clk := { s.clk with time := t.clk.time }, bus := { s.bus with recent := t.bus.recent }, fw := t.fw, flt := { s.flt with waiting := t.flt.waiting, block := t.flt.block } }) ∧
  (∀ (k : Block) (s : State) (d : Detect), registering s k.val = [d] → reactOf (s.react k.val d.source) = 3 → errnOf (s.react k.val d.source) = false →
    clocheOf (s.react k.val d.source) = 0 → k.val ≠ 0x12 → k.val ≠ 0x16 → k.val ≠ 0x17 → deeper s = false → s.clk.restarting = false → s.blkReset k.val = false →
    (s.fblk k.val).ffValid = false ∨ reactOf (s.fblk k.val).ffReact < 3 →
    ∃ t, exec (.faultRegister k []) s = .next t ∧ t.blkReset k.val = true ∧ (∀ j, j ≠ k.val → t.blkReset j = s.blkReset j) ∧ (t.fblk k.val).ffValid = true ∧
      (k.val < 16 → (t.bedc k.val).active = true)) ∧
  (∀ (k : Block) (s : State) (d : Detect), registering s k.val = [d] → reactOf (s.react k.val d.source) = 3 → errnOf (s.react k.val d.source) = false →
    clocheOf (s.react k.val d.source) = 0 → (deeper s = true ∨ s.clk.restarting = true ∨ s.blkReset k.val = true) → k.val ≠ 0x12 → k.val ≠ 0x16 → k.val ≠ 0x17 →
    ∃ t, exec (.faultRegister k []) s = .next t ∧
      t = { s with clk := { s.clk with time := t.clk.time }, bus := { s.bus with recent := t.bus.recent }, flt := { s.flt with waiting := t.flt.waiting, block := t.flt.block } }) ∧
  (∀ (k : Block) (s : State) (d : Detect), registering s k.val = [d] → reactOf (s.react k.val d.source) = 4 → errnOf (s.react k.val d.source) = false →
    clocheOf (s.react k.val d.source) = 0 → (s.fblk k.val).ffValid = false → s.clk.faultResetEnd = none → s.clk.resetting = none → s.clk.phase ≠ .off → s.clk.phase ≠ .deep →
    ∃ t, exec (.faultRegister k []) s = .next t ∧ t.clk.resetting = some .chip ∧ t.clk.resetEnd = t.clk.time + 32000 ∧ t.clk.resetByFault = true ∧
      (t.fblk k.val).ffValid = true ∧ (t.fblk k.val).ffSource = d.source ∧ (t.fblk k.val).ffTime = d.stamp) ∧
  (∀ (s : State) (w : Word) (e : Nat), s.clk.faultResetEnd = some e → s.clk.time < e + 3200000000 → reactOf w = 4 →
    reactOf (takenWord s w) = 3 ∧ errnOf (takenWord s w) = errnOf w ∧ clocheOf (takenWord s w) = clocheOf w) ∧
  (∀ (k : Block) (s : State), registering s k.val = [] → forceFirst s k.val = none → exec (.faultRegister k []) s = .next s) ∧
  (∀ (k : Block) (s : State) (tc src : Nat), registering s k.val = [] → forceFirst s k.val = some (tc, k.val, src) → reactOf (s.react k.val src) ≤ 1 →
    errnOf (s.react k.val src) = false → clocheOf (s.react k.val src) = 0 → (s.fblk k.val).ffValid = false →
    ∃ t, exec (.faultRegister k []) s = .next t ∧ (t.fblk k.val).ffValid = true ∧ (t.fblk k.val).ffForced = true ∧ (t.fblk k.val).ffSource = src ∧
      (t.fblk k.val).ffTime = f3 (max s.clk.time tc) ∧ (t.fblk k.val).live = (s.fblk k.val).live ∧ t.flt.forceAt = s.flt.forceAt.erase (tc, k.val, src) ∧
      (∀ j, j ≠ k.val → t.fblk j = s.fblk j) ∧
      t = { s with free := t.free, clk := { s.clk with time := t.clk.time }, bus := { s.bus with halfShed := none, recent := t.bus.recent }, flt := { s.flt with forceAt := t.flt.forceAt, waiting := t.flt.waiting, block := t.flt.block } }) ∧
  (∀ (k : Block) (s : State) (f : DirectFault), f.source < srcCount k.val → srcEvent k.val f.source = false → (s.fblk k.val).live.getLsbD f.source = true →
    registering s k.val = [] → forceFirst s k.val = none → exec (.faultRegister k [f]) s = .next s) ∧
  (∀ (k : Block) (s : State) (f : DirectFault), f.source < srcCount k.val → srcEvent k.val f.source = false → (s.fblk k.val).live.getLsbD f.source = false →
    registering s k.val = [] → reactOf (s.react k.val f.source) ≤ 1 → errnOf (s.react k.val f.source) = false → clocheOf (s.react k.val f.source) = 0 →
    ∃ t, exec (.faultRegister k [f]) s = .next t ∧ (t.fblk k.val).live = (s.fblk k.val).live ||| BitVec.ofNat 64 (2 ^ f.source) ∧
      (t.fblk k.val).sticky = (s.fblk k.val).sticky ||| BitVec.ofNat 64 (2 ^ f.source) ∧ (t.fblk k.val).lastSource = f.source ∧ (t.fblk k.val).lastTime = f3 s.clk.time ∧
      ((s.fblk k.val).ffValid = false → (t.fblk k.val).ffD0 = f.d0 ∧ (t.fblk k.val).ffD1 = f.d1 ∧ (t.fblk k.val).ffForced = false) ∧ (∀ j, j ≠ k.val → t.fblk j = s.fblk j) ∧
      t = { s with clk := { s.clk with time := t.clk.time }, bus := { s.bus with recent := t.bus.recent }, flt := { s.flt with waiting := t.flt.waiting, block := t.flt.block } })

/-- Events of faults, cloche, perturbation and the trigger inputs (R192, R212, R226, R274, R520, R526, R529, R530). Each acts
when its occasion holds and leaves the machine as it is otherwise: the end of an ERR_N pulse, a bed's settling, an edge at an
enabled trigger input, which counts, is stamped, and starts the runs and releases the waits that name it, and the start and
end of a perturbation window. -/
def Obligations.FaultEvents : Prop :=
  (∀ (s : State), s.bus.errnPulse = none → exec .errnPulseEnd s = .next s) ∧
  (∀ (s : State) (a : Nat), s.bus.errnPulse = some a →
    exec .errnPulseEnd s = .next { s with clk := { s.clk with time := max s.clk.time a }, bus := { s.bus with errnPulse := none } }) ∧
  (∀ (b : Bed) (s : State), (s.bedc b.val).active = false → exec (.clocheSettled b) s = .next s) ∧
  (∀ (b : Bed) (s : State), (s.bedc b.val).active = true →
    ∃ t, exec (.clocheSettled b) s = .next t ∧ t.bedc b.val = { s.bedc b.val with settled := true } ∧ (∀ k, k ≠ b.val → t.bedc k = s.bedc k) ∧
      t = { s with flt := { s.flt with bed := t.flt.bed } }) ∧
  (∀ (n : Fin 4) (rising : Bool) (s : State), (s.tin n.val).enable = false →
    ∃ t, exec (.tinEdge n rising) s = .next t ∧ t.tin n.val = { s.tin n.val with level := rising } ∧ (∀ k, k ≠ n.val → t.tin k = s.tin k) ∧
      t = { s with pat := { s.pat with tin := t.pat.tin } }) ∧
  (∀ (n : Fin 4) (rising : Bool) (s : State) (stamp : Nat), (s.tin n.val).enable = true → stamp = s.clk.time - 16 * (s.tin n.val).filter →
    ∃ t, exec (.tinEdge n rising) s = .next t ∧ (t.tin n.val).level = rising ∧ (∀ k, k ≠ n.val → t.tin k = s.tin k) ∧
      (t.tin n.val).lastRise = (if rising then some stamp else (s.tin n.val).lastRise) ∧ (t.tin n.val).lastFall = (if rising then (s.tin n.val).lastFall else some stamp) ∧
      (if (s.tin n.val).falling = !rising then
        (t.tin n.val).stamp = stamp ∧ (t.tin n.val).count = satAdd max16 (s.tin n.val).count 1 ∧ (t.tin n.val).seen = true
       else (t.tin n.val).stamp = (s.tin n.val).stamp ∧ (t.tin n.val).count = (s.tin n.val).count ∧ (t.tin n.val).seen = (s.tin n.val).seen) ∧
      (UnitsRest s →
        (∀ q, q < 64 → (s.seq q).mode = .armed → (s.seq q).start = .tin n.val (!rising) → t.seq q = { s.seq q with start := .at (roundUp (stamp + 320) 16) }) ∧
        (∀ q, q < 64 → (s.seq q).mode = .trigWait → (seqVec s q).op = 8 → (seqVec s q).operand = n.val + (if rising then 0 else 4) → (s.seq q).waitDone = none →
          (s.seq q).waitFrom < 256 * stamp → t.seq q = { s.seq q with waitDone := some (256 * (stamp + 64)) }) ∧
        (∀ q, (s.seq q).mode ≠ .exec → (s.seq q).mode ≠ .trigWait → ((s.seq q).mode ≠ .armed ∨ (s.seq q).start ≠ .tin n.val (!rising)) → t.seq q = s.seq q) ∧
        (∀ l, t.loop l = { s.loop l with source := sourceAtEdge (fun b => if b = .tin n.val (!rising) then .at (roundUp (stamp + 320) 16) else b) (s.loop l).source }) ∧
        (∀ k, t.avg k = { s.avg k with run := (s.avg k).run.map (fun r => { r with start := if r.start = .tin n.val (!rising) then .at (roundUp (stamp + 320) 16) else r.start }), lock := (s.avg k).lock.map (fun r => { r with start := if r.start = .tin n.val (!rising) then .at (roundUp (stamp + 320) 16) else r.start }) }) ∧
        (∀ u, (∀ stop, selSource (channelWord (s.tiu u) stop) ≠ 40 + n.val) → t.tiu u = s.tiu u) ∧
        t = { s with bus := { s.bus with recent := t.bus.recent }, pat := { s.pat with tin := t.pat.tin, seq := t.pat.seq }, lp := { s.lp with loop := t.lp.loop }, meas := { s.meas with avg := t.meas.avg, unit := t.meas.unit } })) ∧
  (∀ (e : Fin 16) (s : State), s.flt.armed = false → exec (.perturbWindowStart e) s = .next s) ∧
  (∀ (e : Fin 16) (s : State), nextWindow (s.pert e.val) s.flt.armTime = none → exec (.perturbWindowStart e) s = .next s) ∧
  (∀ (e : Fin 16) (s : State) (k a : Nat), s.flt.armed = true → nextWindow (s.pert e.val) s.flt.armTime = some (k, a) → (s.pert e.val).active = false →
    ∃ t, exec (.perturbWindowStart e) s = .next t ∧ t.pert e.val = { s.pert e.val with active := true, fired := satAdd max16 (s.pert e.val).fired 1, next := k + 1 } ∧
      t.clk.time = max s.clk.time a ∧ (∀ j, j ≠ e.val → t.pert j = s.pert j) ∧ t.perturbed (s.pert e.val).kind (s.pert e.val).target = true ∧
      t = { s with clk := { s.clk with time := t.clk.time }, flt := { s.flt with entry := t.flt.entry } }) ∧
  (∀ (e : Fin 16) (s : State) (k a : Nat), s.flt.armed = true → nextWindow (s.pert e.val) s.flt.armTime = some (k, a) → (s.pert e.val).active = true →
    ∃ t, exec (.perturbWindowStart e) s = .next t ∧ t.pert e.val = { s.pert e.val with active := true, fired := satAdd max16 (s.pert e.val).fired 1, next := k + 1 } ∧
      t.clk.time = max s.clk.time a ∧ (∀ j, j ≠ e.val → t.pert j = s.pert j)) ∧
  (∀ (e : Fin 16) (s : State), (s.pert e.val).active = false → exec (.perturbWindowEnd e) s = .next s) ∧
  (∀ (e : Fin 16) (s : State), (s.pert e.val).active = true →
    ∃ t, exec (.perturbWindowEnd e) s = .next t ∧ t.pert e.val = { s.pert e.val with active := false } ∧ (∀ j, j ≠ e.val → t.pert j = s.pert j) ∧
      t.clk.time = max s.clk.time (windowEnd (s.pert e.val))) ∧
  (∀ (e : Fin 16) (s : State), (s.pert e.val).active = true → (s.pert e.val).kind ≠ 4 → (s.pert e.val).kind ≠ 5 → (s.pert e.val).kind ≠ 8 →
    ∃ t, exec (.perturbWindowEnd e) s = .next t ∧ t.pert e.val = { s.pert e.val with active := false } ∧ (∀ j, j ≠ e.val → t.pert j = s.pert j) ∧
      t.clk.time = max s.clk.time (windowEnd (s.pert e.val)) ∧ t = { s with clk := { s.clk with time := t.clk.time }, flt := { s.flt with entry := t.flt.entry } }) ∧
  (∀ (e : Fin 16) (s : State) (port k : Nat), (s.pert e.val).active = true → (s.pert e.val).kind = 5 → (s.pert e.val).target = 4 * port + k → port ≤ 1 → k ≤ 3 →
    (∀ j, j < 16 → j ≠ e.val → (s.pert j).active = true → (s.pert j).kind = 5 → (s.pert j).target ≠ (s.pert e.val).target) → (s.cls port k).withheld ≠ 0 →
    ∃ t, exec (.perturbWindowEnd e) s = .next t ∧ (t.cls port k).withheld = 0 ∧ (t.cls port k).rxFreed = ((s.cls port k).rxFreed + (s.cls port k).withheld) % 65536 ∧
      (t.port port).ctrlWaits = true ∧ (t.pert e.val).active = false ∧ (∀ p j, p ≤ 1 → j ≤ 3 → (p ≠ port ∨ j ≠ k) → t.cls p j = s.cls p j) ∧
      t = { s with clk := { s.clk with time := t.clk.time }, link := t.link, flt := { s.flt with entry := t.flt.entry } }) ∧
  (∀ (p : Perturb) (arm : Nat), p.kind ≠ 0 → p.period = 0 → p.next = 0 →
    nextWindow p arm = (if arm < roundUp p.start 16 + 3200 * p.window then some (0, max (roundUp p.start 16) (roundUp arm 16)) else none)) ∧
  (∀ (p : Perturb) (arm : Nat), p.kind ≠ 0 → p.period ≠ 0 → p.repeats = 0 → p.next = 0 →
    ∃ k, nextWindow p arm = some (k, max (roundUp p.start 16 + 3200 * p.period * k) (roundUp arm 16)) ∧
      arm < roundUp p.start 16 + 3200 * p.period * k + 3200 * p.window ∧ ∀ j, j < k → roundUp p.start 16 + 3200 * p.period * j + 3200 * p.window ≤ arm) ∧
  (∀ (p : Perturb) (arm : Nat), p.period ≠ 0 → p.repeats ≠ 0 → p.repeats ≤ p.next → nextWindow p arm = none)

/-- R53, R67 and R71: a master has one access in an F3 cycle, and its next one comes a cycle later, while the other master's
comes in the same one; of two masters' writes of one word in a cycle the host's remains, whichever came first; hardware that
sets a bit in the cycle wins over a write that clears it; the events of the cycle come on top of a value written to their
counter; and one word of a 32-bit counter written alone replaces that word. -/
def Obligations.BusCycles : Prop :=
  (∀ (s : State) (m : Master), (s.lastAt m ≠ some (f3 s.clk.time) → busTurn s m = s) ∧
    (s.clk.pllLocked = true ∨ s.clk.holdover = true → s.lastAt m = some (f3 s.clk.time) →
      busTurn s m = { s with clk := { s.clk with time := f3 s.clk.time + 16 } })) ∧
  (∀ (s t : State) (m : Master) (a : Addr) (w : Word), busAlive s = true → exec (.registerWritePlain m a w) s = .next t →
    t.lastAt m = some (f3 t.clk.time)) ∧
  (∀ (s : State) (v w : Word), busAlive s = true → s.bus.halfHost = none → s.bus.halfShed = none → s.bus.lastHost = none →
    s.bus.lastShed = none → v.toNat ∈ rangeFrom 10 1991 →
    ∃ t u, exec (.registerWritePlain .host 0x102 v) s = .next t ∧ exec (.registerWritePlain .shed 0x102 w) t = .next u ∧
      u.clk.time = s.clk.time ∧ u.clk.wdogPeriod = v.toNat) ∧
  (∀ (s : State) (v w : Word), busAlive s = true → s.bus.halfHost = none → s.bus.halfShed = none → s.bus.lastHost = none →
    s.bus.lastShed = none → v.toNat ∈ rangeFrom 10 1991 →
    ∃ t u, exec (.registerWritePlain .shed 0x102 w) s = .next t ∧ exec (.registerWritePlain .host 0x102 v) t = .next u ∧
      u.clk.time = s.clk.time ∧ u.clk.wdogPeriod = v.toNat) ∧
  (∀ (s : State) (m : Master) (k : Block) (w : Word), busAlive s = true → halfOf s m = none → Prevails s m (0x1008 + 0x40 * k.val) →
    ∃ t, exec (.registerWritePlain m (BitVec.ofNat 24 (0x1008 + 0x40 * k.val)) w) s = .next t ∧
      (∀ i, i < 64 → (t.fblk k.val).sticky.getLsbD i = ((s.fblk k.val).sticky.getLsbD i &&
        (decide (16 ≤ i) || !w.getLsbD i || ((busTurn s m).setNow (0x1008 + 0x40 * k.val)).getLsbD i))) ∧
      (∀ j, j ≠ k.val → t.fblk j = s.fblk j) ∧ BusNoted { busTurn s m with flt := { s.flt with block := t.flt.block } } t) ∧
  (∀ (s : State) (m : Master) (k : Block) (w : Word), busAlive s = true → halfOf s m = none → Prevails s m (0x100C + 0x40 * k.val) →
    ((busTurn s m).recent.adds = []) →
    ∃ t, exec (.registerWritePlain m (BitVec.ofNat 24 (0x100C + 0x40 * k.val)) w) s = .next t ∧
      (t.fblk k.val).events = min (2 ^ 32 - 1) ((s.fblk k.val).events / 65536 * 65536 + w.toNat) ∧
      (∀ j, j ≠ k.val → t.fblk j = s.fblk j) ∧ BusNoted { busTurn s m with flt := { s.flt with block := t.flt.block } } t)
end

