-- ==== Sys2Proof/Laws/Tab.lean ====
section
/-! SUPPORT. Laws of the sparse tables: what a table reads after an update, and that every table operation keeps the
canonical form (keys strictly rising, no entry equal to the default). -/

namespace Sys2Proof.Machine

variable {α : Type}

/-! Canonical form. -/

/-- The bound below the first key. -/
def above (lo : Option Nat) (k : Nat) : Prop := ∀ l, lo = some l → l < k

theorem above_none (k : Nat) : above none k := by intro l h; cases h

theorem above_some (l k : Nat) : above (some l) k ↔ l < k := by
  constructor
  · intro h; exact h l rfl
  · intro h m e; cases e; exact h

theorem twfFrom_cons [DecidableEq α] (d : Nat → α) (lo : Option Nat) (e : Nat × α) (r : Tab α) :
    twfFrom d lo (e :: r) = true ↔ above lo e.1 ∧ e.2 ≠ d e.1 ∧ twfFrom d (some e.1) r = true := by
  cases lo with
  | none => simp [twfFrom, above_none]
  | some l => simp [twfFrom, above_some, and_assoc]

theorem twfFrom_weaken [DecidableEq α] (d : Nat → α) {lo lo' : Option Nat} {m : Tab α}
    (hl : ∀ k, above lo k → above lo' k) (h : twfFrom d lo m = true) : twfFrom d lo' m = true := by
  cases m with
  | nil => rfl
  | cons e r =>
    rw [twfFrom_cons] at h ⊢
    exact ⟨hl _ h.1, h.2⟩

/-- A selection of the entries of a canonical table is canonical. -/
theorem twfFrom_filter [DecidableEq α] (d : Nat → α) (p : Nat × α → Bool) :
    ∀ (m : Tab α) (lo : Option Nat), twfFrom d lo m = true → twfFrom d lo (m.filter p) = true
  | [], _, _ => rfl
  | e :: r, lo, h => by
    rw [twfFrom_cons] at h
    have ih := twfFrom_filter d p r (some e.1) h.2.2
    rw [List.filter_cons]
    split
    · rw [twfFrom_cons]; exact ⟨h.1, h.2.1, ih⟩
    · refine twfFrom_weaken d ?_ ih
      intro k hk l hl
      exact Nat.lt_trans (h.1 l hl) ((above_some _ _).1 hk)

theorem twfFrom_tins [DecidableEq α] (d : Nat → α) (k : Nat) (v : α) (hv : v ≠ d k) :
    ∀ (m : Tab α) (lo : Option Nat), above lo k → (∀ e ∈ m, e.1 ≠ k) → twfFrom d lo m = true →
      twfFrom d lo (tins m k v) = true
  | [], lo, ha, _, _ => by simp only [tins]; rw [twfFrom_cons]; exact ⟨ha, hv, rfl⟩
  | e :: r, lo, ha, hm, h => by
    rw [twfFrom_cons] at h
    simp only [tins]
    split
    · rename_i hlt
      rw [twfFrom_cons]
      refine ⟨ha, hv, ?_⟩
      rw [twfFrom_cons]
      exact ⟨(above_some _ _).2 hlt, h.2⟩
    · rename_i hnl
      rw [twfFrom_cons]
      refine ⟨h.1, h.2.1, twfFrom_tins d k v hv r _ ?_ (fun x hx => hm x (List.mem_cons_of_mem _ hx)) h.2.2⟩
      have : e.1 ≠ k := hm e List.mem_cons_self
      exact (above_some _ _).2 (by omega)

/-- Deleting a key keeps the canonical form. -/
theorem tdel_wf [DecidableEq α] (d : Nat → α) (m : Tab α) (k : Nat) (h : twf d m = true) : twf d (tdel m k) = true :=
  twfFrom_filter d _ m none h

/-- Setting a key keeps the canonical form. -/
theorem tset_wf [DecidableEq α] (d : Nat → α) (m : Tab α) (k : Nat) (v : α) (h : twf d m = true) :
    twf d (tset d m k v) = true := by
  unfold tset
  split
  · exact tdel_wf d m k h
  · rename_i hv
    refine twfFrom_tins d k v hv _ none (above_none _) ?_ (tdel_wf d m k h)
    intro e he
    simp [tdel] at he
    exact he.2

theorem tmod_wf [DecidableEq α] (d : Nat → α) (m : Tab α) (k : Nat) (f : α → α) (h : twf d m = true) :
    twf d (tmod d m k f) = true := tset_wf d m k _ h

theorem twrite_wf [DecidableEq α] (d : Nat → α) :
    ∀ (l : List α) (m : Tab α) (k : Nat), twf d m = true → twf d (twrite d m k l) = true
  | [], _, _, h => h
  | v :: r, m, k, h => twrite_wf d r _ _ (tset_wf d m k v h)

theorem terase_wf [DecidableEq α] (d : Nat → α) (m : Tab α) (lo n : Nat) (h : twf d m = true) :
    twf d (terase m lo n) = true := twfFrom_filter d _ m none h

/-- Appending a canonical table whose keys all lie above those of the first. -/
theorem twfFrom_append [DecidableEq α] (d : Nat → α) (b : Nat) :
    ∀ (m : Tab α) (lo : Option Nat) (m' : Tab α), twfFrom d lo m = true → (∀ e ∈ m, e.1 < b) →
      (m = [] → twfFrom d lo m' = true) → (∀ e ∈ m', b ≤ e.1) → twfFrom d none m' = true →
      twfFrom d lo (m ++ m') = true
  | [], _, _, _, _, h0, _, _ => h0 rfl
  | e :: r, lo, m', h, hb, _, hm', hw => by
    rw [twfFrom_cons] at h
    rw [List.cons_append, twfFrom_cons]
    refine ⟨h.1, h.2.1, twfFrom_append d b r _ m' h.2.2 (fun x hx => hb x (List.mem_cons_of_mem _ hx)) ?_ hm' hw⟩
    intro _
    cases m' with
    | nil => rfl
    | cons e' r' =>
      rw [twfFrom_cons] at hw ⊢
      refine ⟨(above_some _ _).2 ?_, hw.2⟩
      have := hb e List.mem_cons_self
      have := hm' e' List.mem_cons_self
      omega

theorem tlist_keys [DecidableEq α] (d : Nat → α) :
    ∀ (l : List α) (k : Nat), ∀ e ∈ tlist d k l, k ≤ e.1 ∧ e.1 < k + l.length
  | [], _, e, h => by simp [tlist] at h
  | v :: r, k, e, h => by
    simp only [tlist] at h
    split at h
    · have := tlist_keys d r (k + 1) e h
      simp only [List.length_cons]; omega
    · rcases List.mem_cons.1 h with h | h
      · subst h; simp only [List.length_cons]; omega
      · have := tlist_keys d r (k + 1) e h
        simp only [List.length_cons]; omega

theorem tlist_wf [DecidableEq α] (d : Nat → α) :
    ∀ (l : List α) (k : Nat) (lo : Option Nat), above lo k → twfFrom d lo (tlist d k l) = true
  | [], _, _, _ => rfl
  | v :: r, k, lo, ha => by
    simp only [tlist]
    split
    · refine tlist_wf d r (k + 1) lo ?_
      intro l hl
      exact Nat.lt_succ_of_lt (ha l hl)
    · rename_i hv
      rw [twfFrom_cons]
      exact ⟨ha, hv, tlist_wf d r (k + 1) _ ((above_some _ _).2 (Nat.lt_succ_self k))⟩

/-- Writing a long run keeps the canonical form. -/
theorem tput_wf [DecidableEq α] (d : Nat → α) (m : Tab α) (k : Nat) (l : List α) (h : twf d m = true) :
    twf d (tput d m k l) = true := by
  have h1 : twf d (m.filter (fun e => decide (e.1 < k))) = true := twfFrom_filter d _ m none h
  have h3 : twf d (m.filter (fun e => decide (k + l.length ≤ e.1))) = true := twfFrom_filter d _ m none h
  have h2 : twf d (tlist d k l) = true := tlist_wf d l k none (above_none _)
  unfold tput twf
  have h12 : twf d (m.filter (fun e => decide (e.1 < k)) ++ tlist d k l) = true :=
    twfFrom_append d k _ none _ h1 (fun e he => by simpa using (List.mem_filter.1 he).2) (fun _ => h2)
      (fun e he => (tlist_keys d l k e he).1) h2
  refine twfFrom_append d (k + l.length) _ none _ h12 ?_ (fun _ => h3) (fun e he => by simpa using (List.mem_filter.1 he).2) h3
  intro e he
  rcases List.mem_append.1 he with he | he
  · have : e.1 < k := by simpa using (List.mem_filter.1 he).2
    omega
  · exact (tlist_keys d l k e he).2

/-! Reads after updates. -/

theorem lookup_tdel (m : Tab α) (k j : Nat) : (tdel m k).lookup j = if j = k then none else m.lookup j := by
  induction m with
  | nil => simp [tdel]
  | cons e r ih =>
    obtain ⟨a, b⟩ := e
    simp only [tdel, List.filter_cons] at ih ⊢
    by_cases hak : a = k
    · subst hak
      simp only [bne_self_eq_false, Bool.false_eq_true, if_false, ih]
      by_cases hj : j = a
      · simp [hj]
      · simp [hj, List.lookup_cons, beq_eq_false_iff_ne.2 hj]
    · simp only [bne_iff_ne, ne_eq, hak, not_false_eq_true, if_true, List.lookup_cons]
      by_cases hj : j = a
      · subst hj; simp [hak]
      · simp only [beq_eq_false_iff_ne.2 hj, ih]

theorem lookup_tins (k : Nat) (v : α) (j : Nat) :
    ∀ m : Tab α, (∀ e ∈ m, e.1 ≠ k) → (tins m k v).lookup j = if j = k then some v else m.lookup j
  | [], _ => by
    simp only [tins, List.lookup_cons, List.lookup_nil]
    by_cases h : j = k
    · simp [h]
    · simp [h, beq_eq_false_iff_ne.2 h]
  | e :: r, hm => by
    obtain ⟨a, b⟩ := e
    simp only [tins]
    split
    · simp only [List.lookup_cons]
      by_cases h : j = k
      · simp [h]
      · simp [h, beq_eq_false_iff_ne.2 h]
    · have ih := lookup_tins k v j r (fun x hx => hm x (List.mem_cons_of_mem _ hx))
      have hak : a ≠ k := hm (a, b) List.mem_cons_self
      simp only [List.lookup_cons, ih]
      by_cases hj : j = a
      · subst hj; simp [hak]
      · simp [beq_eq_false_iff_ne.2 hj]

/-- A read after a set: the key set reads the value, every other key reads as before. -/
@[simp] theorem tget_tset [DecidableEq α] (d : Nat → α) (m : Tab α) (k : Nat) (v : α) (j : Nat) :
    tget d (tset d m k v) j = if j = k then v else tget d m j := by
  unfold tget tset
  by_cases hv : v = d k
  · rw [if_pos hv, lookup_tdel]
    by_cases hj : j = k
    · subst hj; simp [hv]
    · simp [hj]
  · rw [if_neg hv, lookup_tins k v j _ (by intro e he; simp [tdel] at he; exact he.2), lookup_tdel]
    by_cases hj : j = k <;> simp [hj]

@[simp] theorem tget_tmod [DecidableEq α] (d : Nat → α) (m : Tab α) (k : Nat) (f : α → α) (j : Nat) :
    tget d (tmod d m k f) j = if j = k then f (tget d m k) else tget d m j := tget_tset d m k _ j

@[simp] theorem tget_tdel (d : Nat → α) (m : Tab α) (k j : Nat) :
    tget d (tdel m k) j = if j = k then d j else tget d m j := by
  unfold tget
  rw [lookup_tdel]
  by_cases h : j = k <;> simp [h]

/-- A read after a run of sets: inside the run the written value, outside as before. -/
theorem tget_twrite [DecidableEq α] (d : Nat → α) :
    ∀ (l : List α) (m : Tab α) (k j : Nat),
      tget d (twrite d m k l) j = if h : k ≤ j ∧ j < k + l.length then l[j - k]'(by omega) else tget d m j
  | [], m, k, j => by
    simp [twrite]
  | v :: r, m, k, j => by
    simp only [twrite]
    rw [tget_twrite d r (tset d m k v) (k + 1) j, tget_tset]
    by_cases hk : j = k
    · subst hk; simp
    · by_cases hin : k + 1 ≤ j ∧ j < k + 1 + r.length
      · have h2 : k ≤ j ∧ j < k + (v :: r).length := by simp only [List.length_cons]; omega
        rw [dif_pos hin, dif_pos h2]
        have : j - k = (j - (k + 1)) + 1 := by omega
        simp [this]
      · have h2 : ¬ (k ≤ j ∧ j < k + (v :: r).length) := by simp only [List.length_cons]; omega
        rw [dif_neg hin, dif_neg h2, if_neg hk]

/-- What the listed entries are: each key once, with the value it reads as. -/
theorem mem_tents (m : Tab α) (e : Nat × α) : e ∈ tents m ↔ m.lookup e.1 = some e.2 := by
  induction m with
  | nil => simp [tents]
  | cons x r ih =>
    obtain ⟨a, b⟩ := x
    obtain ⟨k, v⟩ := e
    simp only [tents, List.mem_cons, Prod.mk.injEq, List.mem_filter, ih, bne_iff_ne, ne_eq, List.lookup_cons]
    by_cases h : k = a
    · simp [h, eq_comm]
    · simp [h, beq_eq_false_iff_ne.2 h]

theorem tget_of_mem_tents (d : Nat → α) {m : Tab α} {e : Nat × α} (h : e ∈ tents m) : tget d m e.1 = e.2 := by
  unfold tget
  rw [(mem_tents m e).1 h]

theorem tents_nodup (m : Tab α) : ((tents m).map (fun e => e.1)).Nodup := by
  induction m with
  | nil => simp [tents]
  | cons x r ih =>
    simp only [tents, List.map_cons, List.nodup_cons]
    refine ⟨by simp, ih.sublist (List.Sublist.map _ List.filter_sublist)⟩

theorem foldl_tset [DecidableEq α] (d : Nat → α) (f : Nat → α → α) (j : Nat) :
    ∀ (l : List (Nat × α)) (t : Tab α), (l.map (fun e => e.1)).Nodup →
      tget d (l.foldl (fun t e => tset d t e.1 (f e.1 e.2)) t) j =
        match l.lookup j with | some v => f j v | none => tget d t j
  | [], _, _ => rfl
  | e :: r, t, h => by
    obtain ⟨k, v⟩ := e
    simp only [List.map_cons, List.nodup_cons] at h
    rw [List.foldl_cons, foldl_tset d f j r _ h.2, List.lookup_cons]
    by_cases hj : j = k
    · subst hj
      have : r.lookup j = none := by
        rw [List.lookup_eq_none_iff]
        intro p hp
        rw [bne_iff_ne]
        intro hk
        exact h.1 (List.mem_map.2 ⟨p, hp, hk.symm⟩)
      simp [this]
    · simp only [beq_eq_false_iff_ne.2 hj, tget_tset, if_neg hj]

theorem lookup_tents (m : Tab α) (j : Nat) : (tents m).lookup j = m.lookup j := by
  cases h : m.lookup j with
  | none =>
    rw [List.lookup_eq_none_iff]
    intro p hp
    rw [bne_iff_ne]
    intro hk
    rw [hk, (mem_tents m p).1 hp] at h
    cases h
  | some v =>
    have hm : (j, v) ∈ tents m := (mem_tents m (j, v)).2 h
    cases h2 : (tents m).lookup j with
    | none =>
      rw [List.lookup_eq_none_iff] at h2
      exact absurd (h2 _ hm) (by simp)
    | some w =>
      have : (j, w) ∈ tents m := by
        clear h hm
        revert h2
        generalize tents m = l
        intro h2
        induction l with
        | nil => simp at h2
        | cons x r ih =>
          obtain ⟨a, b⟩ := x
          rw [List.lookup_cons] at h2
          by_cases hj : j = a
          · subst hj; simp at h2; subst h2; exact List.mem_cons_self
          · rw [beq_eq_false_iff_ne.2 hj] at h2
            exact List.mem_cons_of_mem _ (ih h2)
      have := (mem_tents m (j, w)).1 this
      simp only at this
      rw [this] at h
      exact h

/-- A read after an update of every listed entry. -/
theorem tget_tmapAll [DecidableEq α] (d : Nat → α) (m : Tab α) (f : Nat → α → α) (j : Nat) :
    tget d (tmapAll d m f) j = match m.lookup j with | some v => f j v | none => d j := by
  unfold tmapAll
  rw [foldl_tset d f j _ m (tents_nodup m), lookup_tents]
  cases h : m.lookup j with
  | none => simp [tget, h]
  | some v => rfl

/-- An update that leaves the default alone acts on every key. -/
theorem tget_tmapAll_of [DecidableEq α] (d : Nat → α) (m : Tab α) (f : Nat → α → α) (j : Nat) (h : f j (d j) = d j) :
    tget d (tmapAll d m f) j = f j (tget d m j) := by
  rw [tget_tmapAll]
  unfold tget
  cases m.lookup j with
  | none => exact h.symm
  | some v => rfl

theorem tmapAll_wf [DecidableEq α] (d : Nat → α) (m : Tab α) (f : Nat → α → α) (h : twf d m = true) :
    twf d (tmapAll d m f) = true := by
  unfold tmapAll
  generalize tents m = l
  induction l generalizing m with
  | nil => exact h
  | cons e r ih => exact ih _ (tset_wf d m _ _ h)

/-- The empty table is canonical. -/
@[simp] theorem twf_nil [DecidableEq α] (d : Nat → α) : twf d ([] : Tab α) = true := rfl

end Sys2Proof.Machine
end

