-- ==== Sys2Proof/Laws/KeptBase.lean ====
section
/-! SUPPORT. What every act of the block keeps (`Kept`): the rules by which the files KeptOps to KeptTick prove it of
each operation, one lemma each, for the provers to cite instead of unfolding the operation. -/

namespace Sys2Proof.Machine

/-- What every act of the block keeps, said of the parts it is about: the queue is `p`, UNIQUE_ID is `u` (R54), the
rollback counter has not fallen below `r` and has at most 64 (R106), and DRAM, flash and keep store are canonical. -/
def coreOk (p : List Instr) (u : BitVec 64) (r : Nat) (q : List Instr) (v : BitVec 64) (b : Nat) (dram flash keep : Tab Byte) : Prop :=
  q = p ∧ v = u ∧ (r ≤ b ∧ b ≤ 64) ∧ Memory.wf 0 dram = true ∧ Memory.wf 0xFF flash = true ∧ Memory.wf 0xFF keep = true

/-- `coreOk` of a state. -/
def Kept (p : List Instr) (u : BitVec 64) (r : Nat) (s : State) : Prop :=
  coreOk p u r s.pending s.bus.uniqueId s.fw.rollback s.pat.dram s.ser.flash s.cal.keep

/-- An outcome is kept: a next state is. -/
def KeptOut (p : List Instr) (u : BitVec 64) (r : Nat) (o : Host.Outcome State Fault Refusal) : Prop :=
  ∀ t, o = .next t → Kept p u r t

variable {p : List Instr} {u : BitVec 64} {r : Nat} {s : State}

theorem keptOut_next (h : Kept p u r s) : KeptOut p u r (.next s) := by intro t e; cases e; exact h

theorem kept_ite {c : Prop} [Decidable c] {a b : State} (h1 : c → Kept p u r a) (h2 : ¬c → Kept p u r b) : Kept p u r (if c then a else b) := by
  split
  · exact h1 ‹_›
  · exact h2 ‹_›

theorem kept_foldl {α} {f : State → α → State} {l : List α} (h : Kept p u r s) (hf : ∀ t a, Kept p u r t → Kept p u r (f t a)) : Kept p u r (l.foldl f s) := by
  induction l generalizing s with
  | nil => exact h
  | cons a r ih => exact ih (hf _ _ h)

theorem kept_mk {a1 a2 a3 a4 a5 a6 a7 a8 a9 a10 a11 a12 a13 a14 a15 a16 a17} (h1 : a1 = s.pending) (h2 : a4.uniqueId = s.bus.uniqueId) (h6 : a6.rollback = s.fw.rollback) (h3 : a9.dram = s.pat.dram)
  (h4 : a14.flash = s.ser.flash) (h5 : a16.keep = s.cal.keep) (h : Kept p u r s) : Kept p u r (State.mk a1 a2 a3 a4 a5 a6 a7 a8 a9 a10 a11 a12 a13 a14 a15 a16 a17) := by
  unfold Kept; simp only [h1, h2, h3, h4, h5, h6]; exact h

/-- A state that comes with an answer is kept. -/
def KeptFst {α : Type} (p : List Instr) (u : BitVec 64) (r : Nat) (q : State × α) : Prop := Kept p u r q.1

theorem kept_fst {α : Type} {q : State × α} {t : State} {x : α} (e : q = (t, x)) (h : KeptFst p u r q) : Kept p u r t := by subst e; exact h

theorem kept_of_fst {α : Type} {q : State × α} (h : KeptFst p u r q) : Kept p u r q.1 := h

theorem fst_mk {α : Type} {x : α} (h : Kept p u r s) : KeptFst p u r (s, x) := h

theorem fst_ite {α : Type} {c : Prop} [Decidable c] {a b : State × α} (h1 : c → KeptFst p u r a) (h2 : ¬c → KeptFst p u r b) : KeptFst p u r (if c then a else b) := by
  split
  · exact h1 ‹_›
  · exact h2 ‹_›

theorem fst_foldl {α β : Type} {f : State × β → α → State × β} {l : List α} {q : State × β} (h : KeptFst p u r q) (hf : ∀ t a, Kept p u r t.1 → KeptFst p u r (f t a)) : KeptFst p u r (l.foldl f q) := by
  induction l generalizing q with
  | nil => exact h
  | cons a r ih => exact ih (hf _ _ h)

theorem foldl_fst {α β : Type} {f : State × β → α → State × β} {l : List α} {q : State × β} (h : KeptFst p u r q) (hf : ∀ t a, Kept p u r t.1 → KeptFst p u r (f t a)) : Kept p u r (l.foldl f q).1 := fst_foldl h hf

theorem kept_keep {t : State} (h1 : t.pending = s.pending) (h2 : t.bus.uniqueId = s.bus.uniqueId) (h6 : t.fw.rollback = s.fw.rollback) (h3 : t.pat.dram = s.pat.dram)
  (h4 : t.ser.flash = s.ser.flash) (h5 : Memory.wf 0xFF t.cal.keep = true) (h : Kept p u r s) : Kept p u r t := by
  unfold Kept; rw [h1, h2, h6, h3, h4]; exact ⟨h.1, h.2.1, h.2.2.1, h.2.2.2.1, h.2.2.2.2.1, h5⟩

theorem kept_flash {t : State} (h1 : t.pending = s.pending) (h2 : t.bus.uniqueId = s.bus.uniqueId) (h6 : t.fw.rollback = s.fw.rollback) (h3 : t.pat.dram = s.pat.dram)
  (h4 : Memory.wf 0xFF t.ser.flash = true) (h5 : t.cal.keep = s.cal.keep) (h : Kept p u r s) : Kept p u r t := by
  unfold Kept; rw [h1, h2, h6, h3, h5]; exact ⟨h.1, h.2.1, h.2.2.1, h.2.2.2.1, h4, h.2.2.2.2.2⟩

theorem kept_dram {t : State} (h1 : t.pending = s.pending) (h2 : t.bus.uniqueId = s.bus.uniqueId) (h6 : t.fw.rollback = s.fw.rollback) (h3 : Memory.wf 0 t.pat.dram = true)
  (h4 : t.ser.flash = s.ser.flash) (h5 : t.cal.keep = s.cal.keep) (h : Kept p u r s) : Kept p u r t := by
  unfold Kept; rw [h1, h2, h6, h4, h5]; exact ⟨h.1, h.2.1, h.2.2.1, h3, h.2.2.2.2⟩

theorem id_kept (h : Kept p u r s) : Kept p u r (id s) := h

end Sys2Proof.Machine
end

