-- ==== Sys2Proof/Laws/KeptOps.lean ====
section
/-! SUPPORT. Machine/Ops.lean: each operation keeps what `Kept` says. -/

set_option linter.unusedVariables false
set_option linter.unusedTactic false
set_option linter.unreachableTactic false

namespace Sys2Proof.Machine

variable {p : List Instr} {u : BitVec 64} {r : Nat} {s : State}

theorem State.modMbx_kept {a2} {a3} (h : Kept p u r s) : Kept p u r (State.modMbx s a2 a3) := h

theorem State.modProg_kept {a2} {a3} (h : Kept p u r s) : Kept p u r (State.modProg s a2 a3) := h

theorem State.modFblk_kept {a2} {a3} (h : Kept p u r s) : Kept p u r (State.modFblk s a2 a3) := h

theorem State.modBedc_kept {a2} {a3} (h : Kept p u r s) : Kept p u r (State.modBedc s a2 a3) := h

theorem State.modLoopc_kept {a2} {a3} (h : Kept p u r s) : Kept p u r (State.modLoopc s a2 a3) := h

theorem State.modPert_kept {a2} {a3} (h : Kept p u r s) : Kept p u r (State.modPert s a2 a3) := h

theorem State.modBedPow_kept {a2} {a3} (h : Kept p u r s) : Kept p u r (State.modBedPow s a2 a3) := h

theorem State.modStbyExit_kept {a2} {a3} (h : Kept p u r s) : Kept p u r (State.modStbyExit s a2 a3) := h

theorem State.modBlkReset_kept {a2} {a3} (h : Kept p u r s) : Kept p u r (State.modBlkReset s a2 a3) := h

theorem State.modPinst_kept {a2} {a3} (h : Kept p u r s) : Kept p u r (State.modPinst s a2 a3) := h

theorem State.modDacst_kept {a2} {a3} (h : Kept p u r s) : Kept p u r (State.modDacst s a2 a3) := h

theorem State.modGrp_kept {a2} {a3} (h : Kept p u r s) : Kept p u r (State.modGrp s a2 a3) := h

theorem State.modMon_kept {a2} {a3} (h : Kept p u r s) : Kept p u r (State.modMon s a2 a3) := h

theorem State.modTsetAt_kept {a2} {a3} (h : Kept p u r s) : Kept p u r (State.modTsetAt s a2 a3) := h

theorem State.modTdll_kept {a2} {a3} (h : Kept p u r s) : Kept p u r (State.modTdll s a2 a3) := h

theorem State.modDrift_kept {a2} {a3} (h : Kept p u r s) : Kept p u r (State.modDrift s a2 a3) := h

theorem State.modBase_kept {a2} {a3} (h : Kept p u r s) : Kept p u r (State.modBase s a2 a3) := by
  unfold State.modBase
  repeat' (first | with_reducible assumption | intro _ | (fail_if_no_progress with_reducible (apply kept_mk; rfl; rfl; rfl; rfl; rfl; rfl)) | dsimp only)

theorem State.modStale_kept {a2} {a3} (h : Kept p u r s) : Kept p u r (State.modStale s a2 a3) := h

theorem State.modCkgen_kept {a2} {a3} (h : Kept p u r s) : Kept p u r (State.modCkgen s a2 a3) := h

theorem State.modPinck_kept {a2} {a3} (h : Kept p u r s) : Kept p u r (State.modPinck s a2 a3) := h

theorem State.modSlices_kept {a2} {a3} (h : Kept p u r s) : Kept p u r (State.modSlices s a2 a3) := h

theorem State.modSeq_kept {a2} {a3} (h : Kept p u r s) : Kept p u r (State.modSeq s a2 a3) := h

theorem State.modSegm_kept {a2} {a3} (h : Kept p u r s) : Kept p u r (State.modSegm s a2 a3) := h

theorem State.modStrm_kept {a2} {a3} (h : Kept p u r s) : Kept p u r (State.modStrm s a2 a3) := h

theorem State.modTrig_kept {a2} {a3} (h : Kept p u r s) : Kept p u r (State.modTrig s a2 a3) := h

theorem State.modTin_kept {a2} {a3} (h : Kept p u r s) : Kept p u r (State.modTin s a2 a3) := h

theorem State.modDramByte_kept {a2} {a3} (h : Kept p u r s) : Kept p u r (State.modDramByte s a2 a3) :=
  ⟨h.1, h.2.1, h.2.2.1, tmod_wf _ _ _ _ h.2.2.2.1, h.2.2.2.2⟩

theorem State.modLoop_kept {a2} {a3} (h : Kept p u r s) : Kept p u r (State.modLoop s a2 a3) := h

theorem State.modGainPt_kept {a2} {a3} (h : Kept p u r s) : Kept p u r (State.modGainPt s a2 a3) := h

theorem State.modSwp_kept {a2} {a3} (h : Kept p u r s) : Kept p u r (State.modSwp s a2 a3) := h

theorem State.modWaveSeg_kept {a2} {a3} (h : Kept p u r s) : Kept p u r (State.modWaveSeg s a2 a3) := h

theorem State.modAvg_kept {a2} {a3} (h : Kept p u r s) : Kept p u r (State.modAvg s a2 a3) := h

theorem State.modWmon_kept {a2} {a3} (h : Kept p u r s) : Kept p u r (State.modWmon s a2 a3) := h

theorem State.modTiu_kept {a2} {a3} (h : Kept p u r s) : Kept p u r (State.modTiu s a2 a3) := h

theorem State.modStager_kept {a2} {a3} (h : Kept p u r s) : Kept p u r (State.modStager s a2 a3) := h

theorem State.modRing_kept {a2} {a3} (h : Kept p u r s) : Kept p u r (State.modRing s a2 a3) := h

theorem State.modPort_kept {a2} {a3} (h : Kept p u r s) : Kept p u r (State.modPort s a2 a3) := h

theorem State.modStage_kept {a2} {a3} (h : Kept p u r s) : Kept p u r (State.modStage s a2 a3) := h

theorem State.modFlashByte_kept {a2} {a3} (h : Kept p u r s) : Kept p u r (State.modFlashByte s a2 a3) :=
  ⟨h.1, h.2.1, h.2.2.1, h.2.2.2.1, tmod_wf _ _ _ _ h.2.2.2.2.1, h.2.2.2.2.2⟩

theorem State.modSensor_kept {a2} {a3} (h : Kept p u r s) : Kept p u r (State.modSensor s a2 a3) := h

theorem State.modTherm_kept {a2} {a3} (h : Kept p u r s) : Kept p u r (State.modTherm s a2 a3) := h

theorem State.modZone_kept {a2} {a3} (h : Kept p u r s) : Kept p u r (State.modZone s a2 a3) := h

theorem State.modLevel_kept {a2} {a3} (h : Kept p u r s) : Kept p u r (State.modLevel s a2 a3) := h

theorem State.modRail_kept {a2} {a3} (h : Kept p u r s) : Kept p u r (State.modRail s a2 a3) := h

theorem State.modRailRd_kept {a2} {a3} (h : Kept p u r s) : Kept p u r (State.modRailRd s a2 a3) := h

theorem State.modPmon_kept {a2} {a3} (h : Kept p u r s) : Kept p u r (State.modPmon s a2 a3) := h

theorem State.modCharge_kept {a2} {a3} (h : Kept p u r s) : Kept p u r (State.modCharge s a2 a3) := h

theorem State.modTripWord_kept {a2} {a3} (h : Kept p u r s) : Kept p u r (State.modTripWord s a2 a3) := h

theorem State.modKeepByte_kept {a2} {a3} (h : Kept p u r s) : Kept p u r (State.modKeepByte s a2 a3) :=
  ⟨h.1, h.2.1, h.2.2.1, h.2.2.2.1, h.2.2.2.2.1, tmod_wf _ _ _ _ h.2.2.2.2.2⟩

theorem State.modWearOf_kept {a2} {a3} (h : Kept p u r s) : Kept p u r (State.modWearOf s a2 a3) := h

theorem State.modQuality_kept {a2} {a3} (h : Kept p u r s) : Kept p u r (State.modQuality s a2 a3) := h

theorem State.modMeasured_kept {a2} {a3} (h : Kept p u r s) : Kept p u r (State.modMeasured s a2 a3) := h

theorem onlyIf_kept {a1} {a2} (h : Kept p u r s) (a2h : ∀ t, Kept p u r t → Kept p u r (a2 t)) : Kept p u r (onlyIf a1 a2 s) := by
  unfold onlyIf
  repeat' (first | with_reducible assumption | intro _ | with_reducible apply kept_ite | apply a2h)

theorem State.reach_kept {a2} (h : Kept p u r s) : Kept p u r (State.reach s a2) := by
  unfold State.reach
  repeat' (first | with_reducible assumption | intro _ | (fail_if_no_progress with_reducible (apply kept_mk; rfl; rfl; rfl; rfl; rfl; rfl)))

theorem State.takeFree_kept (h : Kept p u r s) : Kept p u r (State.takeFree s) := by
  unfold State.takeFree
  repeat' (first | with_reducible assumption | intro _ | (fail_if_no_progress with_reducible (apply kept_mk; rfl; rfl; rfl; rfl; rfl; rfl)))

theorem State.setReact_kept {a2} {a3} {a4} (h : Kept p u r s) : Kept p u r (State.setReact s a2 a3 a4) := by
  unfold State.setReact
  repeat' (first | with_reducible assumption | intro _ | (fail_if_no_progress with_reducible (apply kept_mk; rfl; rfl; rfl; rfl; rfl; rfl)))

theorem State.noteSet_kept {a2} {a3} (h : Kept p u r s) : Kept p u r (State.noteSet s a2 a3) := by
  unfold State.noteSet
  repeat' (first | with_reducible assumption | intro _ | (fail_if_no_progress with_reducible (apply kept_mk; rfl; rfl; rfl; rfl; rfl; rfl)))

theorem State.noteAdd_kept {a2} {a3} (h : Kept p u r s) : Kept p u r (State.noteAdd s a2 a3) := by
  unfold State.noteAdd
  repeat' (first | with_reducible assumption | intro _ | (fail_if_no_progress with_reducible (apply kept_mk; rfl; rfl; rfl; rfl; rfl; rfl)) | split | dsimp only)

theorem State.noteBase_kept {a2} {a3} (h : Kept p u r s) : Kept p u r (State.noteBase s a2 a3) := by
  unfold State.noteBase
  repeat' (first | with_reducible assumption | intro _ | with_reducible apply kept_ite | (fail_if_no_progress with_reducible (apply kept_mk; rfl; rfl; rfl; rfl; rfl; rfl)) | dsimp only)

theorem State.live_kept {a2} {a3} {a4} (h : Kept p u r s) : Kept p u r (State.live s a2 a3 a4) := by
  unfold State.live
  repeat' (first | with_reducible assumption | intro _ | with_reducible apply kept_ite | with_reducible apply State.modFblk_kept | dsimp only)

theorem State.raise_kept {a2} {a3} {a4} {a5} (h : Kept p u r s) : Kept p u r (State.raise s a2 a3 a4 a5) := by
  unfold State.raise
  repeat' (first | with_reducible assumption | intro _ | with_reducible apply kept_ite | with_reducible apply State.live_kept | (fail_if_no_progress with_reducible (apply kept_mk; rfl; rfl; rfl; rfl; rfl; rfl)) | dsimp only)

theorem State.raiseForced_kept {a2} {a3} (h : Kept p u r s) : Kept p u r (State.raiseForced s a2 a3) := by
  unfold State.raiseForced
  repeat' (first | with_reducible assumption | intro _ | with_reducible apply State.takeFree_kept | (fail_if_no_progress with_reducible (apply kept_mk; rfl; rfl; rfl; rfl; rfl; rfl)) | dsimp only)

theorem State.condition_kept {a2} {a3} {a4} {a5} {a6} (h : Kept p u r s) : Kept p u r (State.condition s a2 a3 a4 a5 a6) := by
  unfold State.condition
  repeat' (first | with_reducible assumption | intro _ | with_reducible apply kept_ite | with_reducible apply State.live_kept | with_reducible apply State.raise_kept)

end Sys2Proof.Machine
end

