-- ==== Sys2Proof/Laws/KeptLinkOps.lean ====
section
/-! SUPPORT. Machine/LinkOps.lean: each operation keeps what `Kept` says. -/

set_option linter.unusedVariables false
set_option linter.unusedTactic false
set_option linter.unreachableTactic false

namespace Sys2Proof.Machine

variable {p : List Instr} {u : BitVec 64} {r : Nat} {s : State}

theorem State.modCls_kept {a2} {a3} {a4} (h : Kept p u r s) : Kept p u r (State.modCls s a2 a3 a4) := h

theorem enqueueFrom_kept {a1} {a3} {a4} {a5} (h : Kept p u r s) : Kept p u r (enqueueFrom a1 s a3 a4 a5) := by
  unfold enqueueFrom
  repeat' (first | with_reducible assumption | intro _ | with_reducible apply kept_ite | with_reducible apply State.raise_kept | with_reducible apply State.modCls_kept | dsimp only)

theorem enqueue_kept {a2} {a3} {a4} (h : Kept p u r s) : Kept p u r (enqueue s a2 a3 a4) := by
  unfold enqueue
  repeat' (first | with_reducible assumption | intro _ | with_reducible apply enqueueFrom_kept)

theorem freeCredit_kept {a2} {a3} {a4} (h : Kept p u r s) : Kept p u r (freeCredit s a2 a3 a4) := by
  unfold freeCredit
  repeat' (first | with_reducible assumption | intro _ | with_reducible apply kept_ite | with_reducible apply State.modPort_kept | with_reducible apply State.modCls_kept | dsimp only)

theorem sendRoot_kept {a2} {a3} {a4} (h : Kept p u r s) : Kept p u r (sendRoot s a2 a3 a4) := by
  unfold sendRoot
  repeat' (first | with_reducible assumption | intro _ | with_reducible apply enqueue_kept | (fail_if_no_progress with_reducible (apply kept_mk; rfl; rfl; rfl; rfl; rfl; rfl)) | dsimp only)

theorem sendEvent_kept {a2} {a3} (h : Kept p u r s) : Kept p u r (sendEvent s a2 a3) := by
  unfold sendEvent
  repeat' (first | with_reducible assumption | intro _ | with_reducible apply sendRoot_kept)

theorem respond_kept {a2} {a3} {a4} {a5} {a6} {a7} (h : Kept p u r s) : Kept p u r (respond s a2 a3 a4 a5 a6 a7) := by
  unfold respond
  repeat' (first | with_reducible assumption | intro _ | with_reducible apply kept_ite | with_reducible apply enqueue_kept)

end Sys2Proof.Machine
end

