-- ==== Sys2Proof/Laws/KeptHarvestOps.lean ====
section
/-! SUPPORT. Machine/HarvestOps.lean: each operation keeps what `Kept` says. -/

set_option linter.unusedVariables false
set_option linter.unusedTactic false
set_option linter.unreachableTactic false

namespace Sys2Proof.Machine

variable {p : List Instr} {u : BitVec 64} {r : Nat} {s : State}

theorem handOver_kept {a2} (h : Kept p u r s) : Kept p u r (handOver s a2) := by
  unfold handOver
  repeat' (first | with_reducible assumption | intro _ | with_reducible apply State.modStager_kept | dsimp only)

theorem stageRoom_kept {a2} {a3} (h : Kept p u r s) : ∀ t, stageRoom s a2 a3 = some t → Kept p u r t := by
  intro t e
  unfold stageRoom at e
  (try dsimp only at e)
  repeat' (split at e)
  all_goals (first | cases e | skip)
  all_goals (try cases e)
  all_goals (repeat' (first | with_reducible assumption | intro _ | with_reducible apply kept_ite | with_reducible apply handOver_kept | dsimp only))

theorem placeIn_kept {a2} {a3} {a4} {a5} {a6} (h : Kept p u r s) : Kept p u r (placeIn s a2 a3 a4 a5 a6) := by
  unfold placeIn
  repeat' (first | with_reducible assumption | intro _ | with_reducible apply kept_ite | with_reducible apply State.modStager_kept | with_reducible apply State.modRing_kept | dsimp only)

theorem sendNotify_kept {a2} (h : Kept p u r s) : Kept p u r (sendNotify s a2) := by
  unfold sendNotify
  repeat' (first | with_reducible assumption | intro _ | with_reducible apply sendRoot_kept | with_reducible apply State.modRing_kept | split | dsimp only)

theorem notifyUnitsCheck_kept {a2} (h : Kept p u r s) : Kept p u r (notifyUnitsCheck s a2) := by
  unfold notifyUnitsCheck
  repeat' (first | with_reducible assumption | intro _ | with_reducible apply kept_ite | with_reducible apply sendNotify_kept | dsimp only)

theorem advanceRing_kept {a2} (h : Kept p u r s) : Kept p u r (advanceRing s a2) := by
  unfold advanceRing
  repeat' (first | with_reducible assumption | intro _ | with_reducible apply kept_ite | with_reducible apply State.modRing_kept | with_reducible apply notifyUnitsCheck_kept | split | with_reducible apply fst_mk | with_reducible refine kept_fst (by with_reducible assumption) ?_ | dsimp only)

theorem ringWrite_kept {a2} {a3} {a4} (h : Kept p u r s) : Kept p u r (ringWrite s a2 a3 a4) :=
  ⟨h.1, h.2.1, h.2.2.1, twrite_wf _ _ _ _ (twrite_wf _ _ _ _ h.2.2.2.1), h.2.2.2.2⟩

theorem markWritten_kept {a2} {a3} (h : Kept p u r s) : Kept p u r (markWritten s a2 a3) := by
  unfold markWritten
  repeat' (first | with_reducible assumption | intro _ | with_reducible apply kept_ite | with_reducible apply State.modRing_kept | with_reducible apply advanceRing_kept | dsimp only)

theorem dropRecord_kept {a2} {a3} (h : Kept p u r s) : Kept p u r (dropRecord s a2 a3) := by
  unfold dropRecord
  repeat' (first | with_reducible assumption | intro _ | with_reducible apply State.modRing_kept | split | dsimp only)

theorem closeLoss_kept {a2} (h : Kept p u r s) : Kept p u r (closeLoss s a2) := by
  unfold closeLoss
  repeat' (first | with_reducible assumption | intro _ | with_reducible apply kept_ite | with_reducible apply ringWrite_kept | with_reducible apply State.modRing_kept | with_reducible apply markWritten_kept | split | dsimp only)

theorem takeCredit_kept {a2} {a3} (h : Kept p u r s) : Kept p u r (takeCredit s a2 a3) := by
  unfold takeCredit
  repeat' (first | with_reducible assumption | intro _ | with_reducible apply State.modRing_kept | dsimp only)

theorem reserve_kept {a2} {a3} (h : Kept p u r s) : ∀ t, reserve s a2 a3 = some t → Kept p u r t := by
  intro t e
  unfold reserve at e
  (try dsimp only at e)
  repeat' (split at e)
  all_goals (first | cases e | skip)
  all_goals (try cases e)
  all_goals (repeat' (first | with_reducible assumption | intro _ | with_reducible apply kept_ite | with_reducible apply takeCredit_kept))

theorem joinWaiters_kept {a2} {a3} {a4} (h : Kept p u r s) : Kept p u r (joinWaiters s a2 a3 a4) := by
  unfold joinWaiters
  repeat' (first | with_reducible assumption | intro _ | with_reducible apply kept_ite | with_reducible apply State.modRing_kept | dsimp only)

theorem leaveWaiters_kept {a2} {a3} (h : Kept p u r s) : Kept p u r (leaveWaiters s a2 a3) := by
  unfold leaveWaiters
  repeat' (first | with_reducible assumption | intro _ | with_reducible apply State.modRing_kept | dsimp only)

theorem modMeasRun_kept {a2} {a3} (h : Kept p u r s) : Kept p u r (modMeasRun s a2 a3) := by
  unfold modMeasRun
  repeat' (first | with_reducible assumption | intro _ | with_reducible apply State.modAvg_kept | dsimp only)

theorem modLockRun_kept {a2} {a3} (h : Kept p u r s) : Kept p u r (modLockRun s a2 a3) := by
  unfold modLockRun
  repeat' (first | with_reducible assumption | intro _ | with_reducible apply State.modAvg_kept | dsimp only)

theorem modTimRun_kept {a2} {a3} (h : Kept p u r s) : Kept p u r (modTimRun s a2 a3) := by
  unfold modTimRun
  repeat' (first | with_reducible assumption | intro _ | with_reducible apply State.modTiu_kept | dsimp only)

theorem modSweep_kept {a2} {a3} (h : Kept p u r s) : Kept p u r (modSweep s a2 a3) := by
  unfold modSweep
  repeat' (first | with_reducible assumption | intro _ | with_reducible apply State.modLoop_kept | split | dsimp only)

theorem grantCredit_kept {a2} {a3} {a4} (h : Kept p u r s) : Kept p u r (grantCredit s a2 a3 a4) := by
  unfold grantCredit
  repeat' (first | with_reducible assumption | intro _ | with_reducible apply kept_foldl | with_reducible apply State.modSeq_kept | with_reducible apply modSweep_kept | with_reducible apply modMeasRun_kept | with_reducible apply modLockRun_kept | with_reducible apply modTimRun_kept | (fail_if_no_progress with_reducible (apply kept_mk; rfl; rfl; rfl; rfl; rfl; rfl)) | split | dsimp only)

theorem serveWaiters_kept {a2} {a3} (h : Kept p u r s) : Kept p u r (serveWaiters s a2 a3) := by
  induction a3 generalizing s with
  | nil => unfold serveWaiters; exact h
  | cons x q ih =>
    unfold serveWaiters
    repeat' (first | with_reducible apply ih | with_reducible refine kept_of_fst (ih ?_) | with_reducible assumption | intro _ | with_reducible apply kept_ite | with_reducible apply grantCredit_kept | with_reducible apply leaveWaiters_kept | with_reducible apply takeCredit_kept | split | dsimp only)

theorem finalProgress_kept {a2} (h : Kept p u r s) : Kept p u r (finalProgress s a2) := by
  unfold finalProgress
  repeat' (first | with_reducible assumption | intro _ | with_reducible apply kept_ite | with_reducible apply State.modProg_kept | dsimp only)

theorem placeCompletion_kept {a2} (h : Kept p u r s) : ∀ t, placeCompletion s a2 = some t → Kept p u r t := by
  intro t e
  unfold placeCompletion at e
  (try dsimp only at e)
  repeat' (split at e)
  all_goals (first | cases e | skip)
  all_goals (try cases e)
  all_goals (repeat' (first | with_reducible assumption | intro _ | with_reducible apply kept_ite | with_reducible refine stageRoom_kept ?_ _ (by with_reducible assumption) | with_reducible apply State.modRing_kept | with_reducible apply placeIn_kept | with_reducible apply finalProgress_kept | (fail_if_no_progress with_reducible (apply kept_mk; rfl; rfl; rfl; rfl; rfl; rfl)) | split | dsimp only))

theorem endWork_kept {a2} (h : Kept p u r s) : Kept p u r (endWork s a2) := by
  unfold endWork
  repeat' (first | with_reducible assumption | intro _ | with_reducible apply kept_ite | with_reducible refine placeCompletion_kept ?_ _ (by with_reducible assumption) | with_reducible apply State.raise_kept | with_reducible apply finalProgress_kept | with_reducible apply dropRecord_kept | with_reducible apply leaveWaiters_kept | (fail_if_no_progress with_reducible (apply kept_mk; rfl; rfl; rfl; rfl; rfl; rfl)) | split | dsimp only)

theorem retryEnds_kept {a2} (h : Kept p u r s) : Kept p u r (retryEnds s a2) := by
  induction a2 generalizing s with
  | nil => unfold retryEnds; exact h
  | cons x q ih =>
    unfold retryEnds
    repeat' (first | with_reducible apply ih | with_reducible refine kept_of_fst (ih ?_) | with_reducible assumption | intro _ | with_reducible apply kept_ite | with_reducible refine placeCompletion_kept ?_ _ (by with_reducible assumption) | with_reducible apply finalProgress_kept | with_reducible apply dropRecord_kept | with_reducible apply leaveWaiters_kept | (fail_if_no_progress with_reducible (apply kept_mk; rfl; rfl; rfl; rfl; rfl; rfl)) | split | dsimp only)

theorem serviceRing_kept {a2} (h : Kept p u r s) : Kept p u r (serviceRing s a2) := by
  unfold serviceRing
  repeat' (first | with_reducible assumption | intro _ | with_reducible apply closeLoss_kept | with_reducible apply serveWaiters_kept | with_reducible apply retryEnds_kept | dsimp only)

theorem returnCredit_kept {a2} {a3} (h : Kept p u r s) : Kept p u r (returnCredit s a2 a3) := by
  unfold returnCredit
  repeat' (first | with_reducible assumption | intro _ | with_reducible apply serviceRing_kept | with_reducible apply State.modRing_kept | dsimp only)

theorem emitRecord_kept {a2} {a3} {a4} {a5} {a6} {a7} {a8} {a9} {a10} (h : Kept p u r s) : KeptFst p u r (emitRecord s a2 a3 a4 a5 a6 a7 a8 a9 a10) := by
  unfold emitRecord
  repeat' (first | with_reducible assumption | intro _ | with_reducible apply kept_ite | with_reducible apply fst_ite | with_reducible refine reserve_kept ?_ _ (by with_reducible assumption) | with_reducible apply dropRecord_kept | with_reducible refine stageRoom_kept ?_ _ (by with_reducible assumption) | with_reducible apply State.raise_kept | with_reducible apply State.modRing_kept | with_reducible apply placeIn_kept | split | with_reducible apply fst_mk | with_reducible refine kept_fst (by with_reducible assumption) ?_ | dsimp only)

theorem placeReserved_kept {a2} {a3} {a4} {a5} {a6} {a7} {a8} {a9} {a10} (h : Kept p u r s) : KeptFst p u r (placeReserved s a2 a3 a4 a5 a6 a7 a8 a9 a10) := by
  unfold placeReserved
  repeat' (first | with_reducible assumption | intro _ | with_reducible apply kept_ite | with_reducible apply fst_ite | with_reducible refine stageRoom_kept ?_ _ (by with_reducible assumption) | with_reducible apply returnCredit_kept | with_reducible apply State.raise_kept | with_reducible apply dropRecord_kept | with_reducible apply State.modRing_kept | with_reducible apply placeIn_kept | with_reducible apply serviceRing_kept | split | with_reducible apply fst_mk | with_reducible refine kept_fst (by with_reducible assumption) ?_ | dsimp only)

theorem placeHeld_kept {a2} {a3} {a4} {a5} {a6} {a7} {a8} {a9} {a10} (h : Kept p u r s) : KeptFst p u r (placeHeld s a2 a3 a4 a5 a6 a7 a8 a9 a10) := by
  unfold placeHeld
  repeat' (first | with_reducible assumption | intro _ | with_reducible apply kept_ite | with_reducible apply fst_ite | with_reducible refine stageRoom_kept ?_ _ (by with_reducible assumption) | with_reducible apply State.raise_kept | with_reducible apply State.modRing_kept | with_reducible apply placeIn_kept | with_reducible apply serviceRing_kept | split | with_reducible apply fst_mk | with_reducible refine kept_fst (by with_reducible assumption) ?_ | dsimp only)

theorem placeLast_kept {a2} {a3} {a4} {a5} {a6} {a7} {a8} {a9} {a10} (h : Kept p u r s) : Kept p u r (placeLast s a2 a3 a4 a5 a6 a7 a8 a9 a10) := by
  unfold placeLast
  repeat' (first | with_reducible assumption | intro _ | with_reducible apply kept_ite | with_reducible apply fst_ite | with_reducible apply placeHeld_kept | with_reducible refine kept_of_fst (placeHeld_kept ?_) | with_reducible refine kept_fst (by with_reducible assumption) (placeHeld_kept ?_) | (fail_if_no_progress with_reducible (apply kept_mk; rfl; rfl; rfl; rfl; rfl; rfl)) | split | with_reducible apply fst_mk | with_reducible refine kept_fst (by with_reducible assumption) ?_ | dsimp only)

theorem placeLate_kept {a2} (h : Kept p u r s) : Kept p u r (placeLate s a2) := by
  induction a2 generalizing s with
  | nil => unfold placeLate; exact h
  | cons x q ih =>
    unfold placeLate
    repeat' (first | with_reducible apply ih | with_reducible refine kept_of_fst (ih ?_) | with_reducible assumption | intro _ | with_reducible apply kept_ite | with_reducible apply fst_ite | with_reducible refine stageRoom_kept ?_ _ (by with_reducible assumption) | with_reducible apply placeHeld_kept | with_reducible refine kept_of_fst (placeHeld_kept ?_) | with_reducible refine kept_fst (by with_reducible assumption) (placeHeld_kept ?_) | (fail_if_no_progress with_reducible (apply kept_mk; rfl; rfl; rfl; rfl; rfl; rfl)) | split | with_reducible apply fst_mk | with_reducible refine kept_fst (by with_reducible assumption) ?_ | dsimp only)

theorem bankFreed_kept (h : Kept p u r s) : Kept p u r (bankFreed s) := by
  unfold bankFreed
  repeat' (first | with_reducible assumption | intro _ | with_reducible apply placeLate_kept | with_reducible apply retryEnds_kept | dsimp only)

theorem dropLate_kept {a2} (h : Kept p u r s) : Kept p u r (dropLate s a2) := by
  unfold dropLate
  repeat' (first | with_reducible assumption | intro _ | with_reducible apply kept_foldl | with_reducible apply returnCredit_kept | (fail_if_no_progress with_reducible (apply kept_mk; rfl; rfl; rfl; rfl; rfl; rfl)) | dsimp only)

theorem askCredit_kept {a2} {a3} {a4} (h : Kept p u r s) : KeptFst p u r (askCredit s a2 a3 a4) := by
  unfold askCredit
  repeat' (first | with_reducible assumption | intro _ | with_reducible apply kept_ite | with_reducible apply fst_ite | with_reducible refine reserve_kept ?_ _ (by with_reducible assumption) | with_reducible apply dropRecord_kept | with_reducible apply joinWaiters_kept | split | with_reducible apply fst_mk | with_reducible refine kept_fst (by with_reducible assumption) ?_ | dsimp only)

theorem forgetTag_kept {a2} (h : Kept p u r s) : Kept p u r (forgetTag s a2) := by
  unfold forgetTag
  repeat' (first | with_reducible assumption | intro _ | with_reducible apply kept_ite | (fail_if_no_progress with_reducible (apply kept_mk; rfl; rfl; rfl; rfl; rfl; rfl)) | split | dsimp only)

theorem beginWork_kept {a2} {a3} {a4} {a5} {a6} (h : Kept p u r s) : Kept p u r (beginWork s a2 a3 a4 a5 a6) := by
  unfold beginWork
  repeat' (first | with_reducible assumption | intro _ | with_reducible apply kept_ite | with_reducible apply forgetTag_kept | with_reducible apply State.modProg_kept | with_reducible refine reserve_kept ?_ _ (by with_reducible assumption) | with_reducible apply joinWaiters_kept | (fail_if_no_progress with_reducible (apply kept_mk; rfl; rfl; rfl; rfl; rfl; rfl)) | split | dsimp only)

theorem noteWritten_kept {a2} (h : Kept p u r s) : Kept p u r (noteWritten s a2) := by
  unfold noteWritten
  repeat' (first | with_reducible assumption | intro _ | with_reducible apply kept_ite | with_reducible apply State.modProg_kept | dsimp only)

theorem burstAcked_kept {a2} {a3} (h : Kept p u r s) : Kept p u r (burstAcked s a2 a3) := by
  unfold burstAcked
  repeat' (first | with_reducible assumption | intro _ | with_reducible apply kept_foldl | with_reducible apply fst_foldl | with_reducible apply foldl_fst | with_reducible apply ringWrite_kept | with_reducible apply State.modStager_kept | with_reducible apply bankFreed_kept | with_reducible apply markWritten_kept | with_reducible apply noteWritten_kept | dsimp only)

theorem failRing_kept {a2} (h : Kept p u r s) : Kept p u r (failRing s a2) := by
  unfold failRing
  repeat' (first | with_reducible assumption | intro _ | with_reducible apply State.modRing_kept | (fail_if_no_progress with_reducible (apply kept_mk; rfl; rfl; rfl; rfl; rfl; rfl)) | split | dsimp only)

theorem burstFailed_kept {a2} {a3} {a4} (h : Kept p u r s) : Kept p u r (burstFailed s a2 a3 a4) := by
  unfold burstFailed
  repeat' (first | with_reducible assumption | intro _ | with_reducible apply kept_ite | with_reducible apply State.raise_kept | with_reducible apply State.modStager_kept | with_reducible apply bankFreed_kept | with_reducible apply failRing_kept | dsimp only)

theorem discardBanks_kept {a2} (h : Kept p u r s) : Kept p u r (discardBanks s a2) := by
  unfold discardBanks
  repeat' (first | with_reducible assumption | intro _ | with_reducible apply State.modStager_kept | dsimp only)

theorem releaseRing_kept {a2} {a3} {a4} (h : Kept p u r s) : KeptFst p u r (releaseRing s a2 a3 a4) := by
  unfold releaseRing
  repeat' (first | with_reducible assumption | intro _ | with_reducible apply kept_ite | with_reducible apply fst_ite | with_reducible apply State.raise_kept | with_reducible apply State.modRing_kept | with_reducible apply notifyUnitsCheck_kept | with_reducible apply serviceRing_kept | with_reducible apply fst_mk | dsimp only)

end Sys2Proof.Machine
end

