-- ==== Sys2Proof/Laws/KeptFwOps.lean ====
section
/-! SUPPORT. Machine/FwOps.lean: each operation keeps what `Kept` says. -/

set_option linter.unusedVariables false
set_option linter.unusedTactic false
set_option linter.unreachableTactic false

namespace Sys2Proof.Machine

variable {p : List Instr} {u : BitVec 64} {r : Nat} {s : State}

theorem enterDone_kept {a2} {a3} (h : Kept p u r s) : Kept p u r (enterDone s a2 a3) := by
  unfold enterDone
  repeat' (first | with_reducible assumption | intro _ | with_reducible apply kept_ite | with_reducible apply State.modMbx_kept | with_reducible apply sendEvent_kept | dsimp only)

theorem holdResponse_kept {a2} (h : Kept p u r s) : Kept p u r (holdResponse s a2) := by
  unfold holdResponse
  repeat' (first | with_reducible assumption | intro _ | with_reducible apply State.modMbx_kept | dsimp only)

theorem postResponse_kept {a2} {a3} {a4} (h : Kept p u r s) : Kept p u r (postResponse s a2 a3 a4) := by
  unfold postResponse
  repeat' (first | with_reducible assumption | intro _ | with_reducible apply kept_ite | with_reducible apply State.modMbx_kept | with_reducible apply holdResponse_kept | with_reducible apply enterDone_kept | (fail_if_no_progress with_reducible (apply kept_mk; rfl; rfl; rfl; rfl; rfl; rfl)) | split | dsimp only)

theorem postOk_kept {a2} (h : Kept p u r s) : Kept p u r (postOk s a2) := by
  unfold postOk
  repeat' (first | with_reducible assumption | intro _ | with_reducible apply postResponse_kept)

theorem postBad_kept {a2} (h : Kept p u r s) : Kept p u r (postBad s a2) := by
  unfold postBad
  repeat' (first | with_reducible assumption | intro _ | with_reducible apply postResponse_kept)

theorem checked_kept {a2} {a3} (h : Kept p u r s) (a3h : ∀ t, Kept p u r t → Kept p u r (a3 t)) : Kept p u r (checked s a2 a3) := by
  unfold checked
  repeat' (first | with_reducible assumption | intro _ | with_reducible apply postBad_kept | apply a3h | split | dsimp only)

theorem onCommand_kept {a2} {a3} {a4} (h : Kept p u r s) (a4h : ∀ c, Kept p u r (a4 c)) : Kept p u r (onCommand s a2 a3 a4) := by
  unfold onCommand
  repeat' (first | with_reducible assumption | intro _ | with_reducible apply kept_ite | apply a4h | split | dsimp only)

theorem waitFor_kept {a2} {a3} (h : Kept p u r s) : Kept p u r (waitFor s a2 a3) := by
  unfold waitFor
  repeat' (first | with_reducible assumption | intro _ | (fail_if_no_progress with_reducible (apply kept_mk; rfl; rfl; rfl; rfl; rfl; rfl)) | dsimp only)

theorem answerAbort_kept {a2} (h : Kept p u r s) : Kept p u r (answerAbort s a2) := by
  unfold answerAbort
  repeat' (first | with_reducible assumption | intro _ | with_reducible apply kept_ite | with_reducible apply postOk_kept)

theorem accept_kept {a2} {a3} {a4} (h : Kept p u r s) : Kept p u r (accept s a2 a3 a4) := by
  unfold accept
  repeat' (first | with_reducible assumption | intro _ | with_reducible apply postResponse_kept | with_reducible apply beginWork_kept)

theorem fwLog_kept {a2} {a3} {a4} {a5} (h : Kept p u r s) : Kept p u r (fwLog s a2 a3 a4 a5) := by
  unfold fwLog
  repeat' (first | with_reducible assumption | intro _ | (fail_if_no_progress with_reducible (apply kept_mk; rfl; rfl; rfl; rfl; rfl; rfl)))

end Sys2Proof.Machine
end

