-- ==== Sys2Proof/Laws/KeptTiming.lean ====
section
/-! SUPPORT. Machine/Timing.lean: each operation keeps what `Kept` says. -/

set_option linter.unusedVariables false
set_option linter.unusedTactic false
set_option linter.unreachableTactic false

namespace Sys2Proof.Machine

variable {p : List Instr} {u : BitVec 64} {r : Nat} {s : State}

theorem execTsWrite_kept (h : Kept p u r s) : KeptOut p u r (execTsWrite s) := by
  unfold execTsWrite
  apply keptOut_next
  repeat' (first | with_reducible assumption | intro _ | with_reducible apply kept_ite | with_reducible apply kept_foldl | with_reducible apply onCommand_kept | with_reducible apply checked_kept | with_reducible apply postOk_kept | with_reducible apply State.modTsetAt_kept | split | dsimp only)

theorem execTsRead_kept (h : Kept p u r s) : KeptOut p u r (execTsRead s) := by
  unfold execTsRead
  apply keptOut_next
  repeat' (first | with_reducible assumption | intro _ | with_reducible apply onCommand_kept | with_reducible apply checked_kept | with_reducible apply postOk_kept | split | dsimp only)

theorem shutWindows_kept {a2} {a3} (h : Kept p u r s) : Kept p u r (shutWindows s a2 a3) := by
  unfold shutWindows
  repeat' (first | with_reducible assumption | intro _ | with_reducible apply kept_ite | with_reducible apply State.modPinck_kept | dsimp only)

theorem leaveClock_kept {a2} {a3} (h : Kept p u r s) : Kept p u r (leaveClock s a2 a3) := by
  unfold leaveClock
  repeat' (first | with_reducible assumption | intro _ | with_reducible apply kept_ite | with_reducible apply shutWindows_kept)

theorem joinClock_kept {a2} {a3} (h : Kept p u r s) : Kept p u r (joinClock s a2 a3) := by
  unfold joinClock
  repeat' (first | with_reducible assumption | intro _ | with_reducible apply kept_ite | with_reducible apply State.modPinck_kept | dsimp only)

theorem holdClocks_kept {a2} (h : Kept p u r s) : Kept p u r (holdClocks s a2) := by
  unfold holdClocks
  repeat' (first | with_reducible assumption | intro _ | with_reducible apply kept_foldl | with_reducible apply leaveClock_kept | dsimp only)

theorem resumeClocks_kept {a2} (h : Kept p u r s) : Kept p u r (resumeClocks s a2) := by
  unfold resumeClocks
  repeat' (first | with_reducible assumption | intro _ | with_reducible apply kept_ite | with_reducible apply kept_foldl | with_reducible apply joinClock_kept | dsimp only)

theorem releaseClocks_kept {a2} (h : Kept p u r s) : Kept p u r (releaseClocks s a2) := by
  unfold releaseClocks
  repeat' (first | with_reducible assumption | intro _ | with_reducible apply kept_foldl | with_reducible apply resumeClocks_kept | with_reducible apply State.modPinck_kept | dsimp only)

theorem jitteredPulse_kept (h : Kept p u r s) : KeptFst p u r (jitteredPulse s) := by
  unfold jitteredPulse
  repeat' (first | with_reducible assumption | intro _ | with_reducible apply kept_ite | with_reducible apply fst_ite | with_reducible apply State.takeFree_kept | with_reducible apply fst_mk | dsimp only)

theorem syncBeds_kept {a2} (h : Kept p u r s) : Kept p u r (syncBeds s a2) := by
  unfold syncBeds
  repeat' (first | with_reducible assumption | intro _ | with_reducible apply kept_foldl | with_reducible apply fst_foldl | with_reducible apply foldl_fst | with_reducible apply jitteredPulse_kept | with_reducible refine kept_of_fst (jitteredPulse_kept ?_) | with_reducible refine kept_fst (by with_reducible assumption) (jitteredPulse_kept ?_) | with_reducible apply State.modBase_kept | with_reducible apply fst_mk | dsimp only)

theorem clockCommand_kept {a2} {a3} (h : Kept p u r s) : Kept p u r (clockCommand s a2 a3) := by
  unfold clockCommand
  repeat' (first | with_reducible assumption | intro _ | with_reducible apply kept_ite | with_reducible apply State.modCkgen_kept | with_reducible apply postOk_kept | dsimp only)

theorem execClockOutSet_kept (h : Kept p u r s) : KeptOut p u r (execClockOutSet s) := by
  unfold execClockOutSet
  apply keptOut_next
  repeat' (first | with_reducible assumption | intro _ | with_reducible apply onCommand_kept | with_reducible apply checked_kept | with_reducible apply clockCommand_kept | dsimp only)

theorem execClockOutStop_kept (h : Kept p u r s) : KeptOut p u r (execClockOutStop s) := by
  unfold execClockOutStop
  apply keptOut_next
  repeat' (first | with_reducible assumption | intro _ | with_reducible apply onCommand_kept | with_reducible apply checked_kept | with_reducible apply clockCommand_kept | dsimp only)

theorem assignClock_kept {a2} {a3} {a4} (h : Kept p u r s) : Kept p u r (assignClock s a2 a3 a4) := by
  unfold assignClock
  repeat' (first | with_reducible assumption | intro _ | with_reducible apply kept_ite | with_reducible apply shutWindows_kept | with_reducible apply State.modPinck_kept | dsimp only)

theorem execClockOutAssign_kept (h : Kept p u r s) : KeptOut p u r (execClockOutAssign s) := by
  unfold execClockOutAssign
  apply keptOut_next
  repeat' (first | with_reducible assumption | intro _ | with_reducible apply kept_foldl | with_reducible apply onCommand_kept | with_reducible apply checked_kept | with_reducible apply postOk_kept | with_reducible apply assignClock_kept | dsimp only)

theorem execClockChangeDue_kept {a1} {a2} (h : Kept p u r s) : KeptOut p u r (execClockChangeDue a1 a2 s) := by
  unfold execClockChangeDue
  apply keptOut_next
  repeat' (first | with_reducible assumption | intro _ | with_reducible apply State.reach_kept | with_reducible apply State.modCkgen_kept | split | dsimp only)

theorem execTdllUnlock_kept {a1} (h : Kept p u r s) : KeptOut p u r (execTdllUnlock a1 s) := by
  unfold execTdllUnlock
  apply keptOut_next
  repeat' (first | with_reducible assumption | intro _ | with_reducible apply kept_ite | with_reducible apply kept_foldl | with_reducible apply State.modSeq_kept | with_reducible apply State.modSlices_kept | with_reducible apply State.modPinck_kept | with_reducible apply State.modTdll_kept | with_reducible apply State.condition_kept | dsimp only)

theorem execTdllRelock_kept {a1} (h : Kept p u r s) : KeptOut p u r (execTdllRelock a1 s) := by
  unfold execTdllRelock
  apply keptOut_next
  repeat' (first | with_reducible assumption | intro _ | with_reducible apply kept_foldl | with_reducible apply State.modPinck_kept | with_reducible apply State.modTdll_kept | with_reducible apply State.live_kept | dsimp only)

theorem advancePin_kept {a2} {a3} {a4} {a5} (h : Kept p u r s) : Kept p u r (advancePin s a2 a3 a4 a5) := by
  unfold advancePin
  repeat' (first | with_reducible assumption | intro _ | with_reducible apply kept_ite | with_reducible apply kept_foldl | with_reducible apply State.modSlices_kept | with_reducible apply State.raise_kept | with_reducible apply State.modSeq_kept | split | with_reducible apply fst_mk | with_reducible refine kept_fst (by with_reducible assumption) ?_ | dsimp only)

theorem waitingOff_kept {a2} {a3} (h : Kept p u r s) : KeptFst p u r (waitingOff s a2 a3) := by
  unfold waitingOff
  repeat' (first | with_reducible assumption | intro _ | with_reducible apply kept_ite | with_reducible apply fst_ite | with_reducible apply State.raise_kept | split | with_reducible apply fst_mk | with_reducible refine kept_fst (by with_reducible assumption) ?_ | dsimp only)

theorem placeEvents_kept {a2} {a3} {a4} {a5} {a6} {a7} {a8} {a9} {a10} {a11} (h : Kept p u r s) : KeptFst p u r (placeEvents s a2 a3 a4 a5 a6 a7 a8 a9 a10 a11) := by
  unfold placeEvents
  repeat' (first | with_reducible assumption | intro _ | with_reducible apply kept_ite | with_reducible apply kept_foldl | with_reducible apply fst_ite | with_reducible apply fst_foldl | with_reducible apply foldl_fst | with_reducible apply State.raise_kept | with_reducible apply State.modSlices_kept | split | with_reducible apply fst_mk | with_reducible refine kept_fst (by with_reducible assumption) ?_ | dsimp only)

theorem placePin_kept {a2} {a3} {a4} {a5} {a6} {a7} {a8} {a9} (h : Kept p u r s) : KeptFst p u r (placePin s a2 a3 a4 a5 a6 a7 a8 a9) := by
  unfold placePin
  repeat' (first | with_reducible assumption | intro _ | with_reducible apply kept_ite | with_reducible apply fst_ite | with_reducible apply advancePin_kept | with_reducible apply joinClock_kept | with_reducible apply leaveClock_kept | with_reducible apply State.modPinst_kept | with_reducible apply waitingOff_kept | with_reducible refine kept_of_fst (waitingOff_kept ?_) | with_reducible refine kept_fst (by with_reducible assumption) (waitingOff_kept ?_) | with_reducible apply placeEvents_kept | with_reducible refine kept_of_fst (placeEvents_kept ?_) | with_reducible refine kept_fst (by with_reducible assumption) (placeEvents_kept ?_) | split | with_reducible apply fst_mk | with_reducible refine kept_fst (by with_reducible assumption) ?_ | dsimp only)

theorem settlePin_kept {a2} {a3} (h : Kept p u r s) : Kept p u r (settlePin s a2 a3) := by
  unfold settlePin
  repeat' (first | with_reducible assumption | intro _ | with_reducible apply kept_ite | with_reducible apply leaveClock_kept | with_reducible apply State.modSlices_kept | dsimp only)

theorem setDriver_kept {a2} {a3} (h : Kept p u r s) : Kept p u r (setDriver s a2 a3) := by
  unfold setDriver
  repeat' (first | with_reducible assumption | intro _ | with_reducible apply State.modSlices_kept | dsimp only)

theorem clocheDrivers_kept {a2} (h : Kept p u r s) : Kept p u r (clocheDrivers s a2) := by
  unfold clocheDrivers
  repeat' (first | with_reducible assumption | intro _ | with_reducible apply kept_foldl | with_reducible apply setDriver_kept | dsimp only)

theorem heldDrivers_kept {a2} (h : Kept p u r s) : Kept p u r (heldDrivers s a2) := by
  unfold heldDrivers
  repeat' (first | with_reducible assumption | intro _ | with_reducible apply kept_foldl | with_reducible apply setDriver_kept | dsimp only)

theorem armPin_kept {a2} (h : Kept p u r s) : Kept p u r (armPin s a2) := by
  unfold armPin
  repeat' (first | with_reducible assumption | intro _ | with_reducible apply setDriver_kept | with_reducible apply State.modPinst_kept | with_reducible apply State.modSlices_kept | dsimp only)

end Sys2Proof.Machine
end

