-- ==== Sys2Proof/Laws/KeptSegments.lean ====
section
/-! SUPPORT. Machine/Segments.lean: each operation keeps what `Kept` says. -/

set_option linter.unusedVariables false
set_option linter.unusedTactic false
set_option linter.unreachableTactic false

namespace Sys2Proof.Machine

variable {p : List Instr} {u : BitVec 64} {r : Nat} {s : State}

theorem startFetch_kept (h : Kept p u r s) : Kept p u r (startFetch s) := by
  unfold startFetch
  repeat' (first | with_reducible assumption | intro _ | with_reducible apply kept_ite | (fail_if_no_progress with_reducible (apply kept_mk; rfl; rfl; rfl; rfl; rfl; rfl)) | split | dsimp only)

theorem makeRoom_kept {a2} : ∀ {a3 : Nat} {s : State} (_ : Kept p u r s), ∀ t, makeRoom s a2 a3 = some t → Kept p u r t
  | 0, s, h, t, e => by
    unfold makeRoom at e
    split at e
    · cases e; exact h
    · cases e
  | n + 1, s, h, t, e => by
    unfold makeRoom at e
    dsimp only at e
    split at e
    · cases e; exact h
    · split at e
      · exact makeRoom_kept (State.modSegm_kept h) t e
      · cases e

theorem execSegLoad_kept (h : Kept p u r s) : KeptOut p u r (execSegLoad s) := by
  unfold execSegLoad
  apply keptOut_next
  repeat' (first | with_reducible assumption | intro _ | with_reducible apply kept_ite | with_reducible apply onCommand_kept | with_reducible apply checked_kept | with_reducible apply accept_kept | with_reducible apply endWork_kept | with_reducible apply State.modSegm_kept | (fail_if_no_progress with_reducible (apply kept_mk; rfl; rfl; rfl; rfl; rfl; rfl)) | dsimp only)

theorem execSegLoadDone_kept {a1} (h : Kept p u r s) : KeptOut p u r (execSegLoadDone a1 s) := by
  unfold execSegLoadDone
  apply keptOut_next
  repeat' (first | with_reducible assumption | intro _ | with_reducible apply kept_ite | with_reducible apply endWork_kept | with_reducible apply State.modSegm_kept | with_reducible apply startFetch_kept | (fail_if_no_progress with_reducible (apply kept_mk; rfl; rfl; rfl; rfl; rfl; rfl)) | split | dsimp only)

theorem segPinAnswer_kept {a2} (h : Kept p u r s) : Kept p u r (segPinAnswer s a2) := by
  unfold segPinAnswer
  repeat' (first | with_reducible assumption | intro _ | with_reducible apply kept_ite | with_reducible apply postOk_kept | with_reducible apply waitFor_kept | with_reducible apply startFetch_kept)

theorem execSegPinPin_kept (h : Kept p u r s) : KeptOut p u r (execSegPinPin s) := by
  unfold execSegPinPin
  apply keptOut_next
  repeat' (first | with_reducible assumption | intro _ | with_reducible apply onCommand_kept | with_reducible apply checked_kept | with_reducible apply segPinAnswer_kept | with_reducible apply State.modSegm_kept | dsimp only)

theorem execSegPinUnpin_kept (h : Kept p u r s) : KeptOut p u r (execSegPinUnpin s) := by
  unfold execSegPinUnpin
  apply keptOut_next
  repeat' (first | with_reducible assumption | intro _ | with_reducible apply onCommand_kept | with_reducible apply checked_kept | with_reducible apply postOk_kept | with_reducible apply State.modSegm_kept | dsimp only)

theorem execSegPinUnpinAll_kept (h : Kept p u r s) : KeptOut p u r (execSegPinUnpinAll s) := by
  unfold execSegPinUnpinAll
  apply keptOut_next
  repeat' (first | with_reducible assumption | intro _ | with_reducible apply kept_foldl | with_reducible apply onCommand_kept | with_reducible apply checked_kept | with_reducible apply State.modSegm_kept | with_reducible apply State.modSeq_kept | with_reducible apply postOk_kept | (fail_if_no_progress with_reducible (apply kept_mk; rfl; rfl; rfl; rfl; rfl; rfl)) | dsimp only)

theorem execSegPinFetch_kept (h : Kept p u r s) : KeptOut p u r (execSegPinFetch s) := by
  unfold execSegPinFetch
  apply keptOut_next
  repeat' (first | with_reducible assumption | intro _ | with_reducible apply onCommand_kept | with_reducible apply checked_kept | with_reducible apply segPinAnswer_kept | with_reducible apply State.modSegm_kept | dsimp only)

theorem execSegPinResidencyTimeout_kept (h : Kept p u r s) : KeptOut p u r (execSegPinResidencyTimeout s) := by
  unfold execSegPinResidencyTimeout
  apply keptOut_next
  repeat' (first | with_reducible assumption | intro _ | with_reducible apply kept_ite | with_reducible apply postBad_kept)

theorem execStreamOpenOpen_kept (h : Kept p u r s) : KeptOut p u r (execStreamOpenOpen s) := by
  unfold execStreamOpenOpen
  apply keptOut_next
  repeat' (first | with_reducible assumption | intro _ | with_reducible apply onCommand_kept | with_reducible apply checked_kept | with_reducible apply postOk_kept | with_reducible apply startFetch_kept | with_reducible apply State.modStrm_kept | dsimp only)

theorem execStreamOpenAppend_kept (h : Kept p u r s) : KeptOut p u r (execStreamOpenAppend s) := by
  unfold execStreamOpenAppend
  apply keptOut_next
  repeat' (first | with_reducible assumption | intro _ | with_reducible apply kept_ite | with_reducible apply kept_foldl | with_reducible apply onCommand_kept | with_reducible apply checked_kept | with_reducible apply State.modStrm_kept | with_reducible apply State.modSeq_kept | with_reducible apply postOk_kept | with_reducible apply startFetch_kept | dsimp only)

theorem execStreamOpenClose_kept (h : Kept p u r s) : KeptOut p u r (execStreamOpenClose s) := by
  unfold execStreamOpenClose
  apply keptOut_next
  repeat' (first | with_reducible assumption | intro _ | with_reducible apply onCommand_kept | with_reducible apply checked_kept | with_reducible apply postOk_kept | with_reducible apply State.modStrm_kept | dsimp only)

theorem execStreamOpenMap_kept (h : Kept p u r s) : KeptOut p u r (execStreamOpenMap s) := by
  unfold execStreamOpenMap
  apply keptOut_next
  repeat' (first | with_reducible assumption | intro _ | with_reducible apply onCommand_kept | with_reducible apply checked_kept | with_reducible apply postOk_kept | (fail_if_no_progress with_reducible (apply kept_mk; rfl; rfl; rfl; rfl; rfl; rfl)) | dsimp only)

theorem armSite_kept {a2} {a3} {a4} {a5} (h : Kept p u r s) : Kept p u r (armSite s a2 a3 a4 a5) := by
  unfold armSite
  repeat' (first | with_reducible assumption | intro _ | with_reducible apply kept_foldl | with_reducible apply fst_foldl | with_reducible apply foldl_fst | with_reducible apply beginWork_kept | with_reducible refine reserve_kept ?_ _ (by with_reducible assumption) | with_reducible apply joinWaiters_kept | with_reducible apply armPin_kept | with_reducible apply State.modSeq_kept | split | with_reducible apply fst_mk | with_reducible refine kept_fst (by with_reducible assumption) ?_ | dsimp only)

theorem armBurst_kept {a2} (h : Kept p u r s) : Kept p u r (armBurst s a2) := by
  unfold armBurst
  repeat' (first | with_reducible assumption | intro _ | with_reducible apply kept_ite | with_reducible apply kept_foldl | with_reducible apply fst_foldl | with_reducible apply foldl_fst | with_reducible apply postBad_kept | with_reducible apply State.modSegm_kept | with_reducible apply startFetch_kept | with_reducible apply armSite_kept | with_reducible apply postResponse_kept | dsimp only)

theorem execBurstRun_kept (h : Kept p u r s) : KeptOut p u r (execBurstRun s) := by
  unfold execBurstRun
  apply keptOut_next
  repeat' (first | with_reducible assumption | intro _ | with_reducible apply kept_ite | with_reducible apply onCommand_kept | with_reducible apply checked_kept | with_reducible apply State.modSegm_kept | with_reducible apply armBurst_kept | with_reducible apply startFetch_kept | with_reducible apply waitFor_kept | split | dsimp only)

theorem dropEntryPins_kept (h : Kept p u r s) : Kept p u r (dropEntryPins s) := by
  unfold dropEntryPins
  repeat' (first | with_reducible assumption | intro _ | with_reducible apply kept_ite | with_reducible apply State.modSegm_kept | split | dsimp only)

theorem execBurstRunEntryTimeout_kept (h : Kept p u r s) : KeptOut p u r (execBurstRunEntryTimeout s) := by
  unfold execBurstRunEntryTimeout
  apply keptOut_next
  repeat' (first | with_reducible assumption | intro _ | with_reducible apply kept_ite | with_reducible apply postBad_kept | with_reducible apply dropEntryPins_kept | split | dsimp only)

theorem tellUnusable_kept {a2} (h : Kept p u r s) : Kept p u r (tellUnusable s a2) := by
  unfold tellUnusable
  repeat' (first | with_reducible assumption | intro _ | with_reducible apply kept_ite | with_reducible apply State.modSeq_kept | with_reducible apply State.raise_kept | dsimp only)

theorem tellSites_kept (h : Kept p u r s) : Kept p u r (tellSites s) := by
  unfold tellSites
  repeat' (first | with_reducible assumption | intro _ | with_reducible apply kept_foldl | with_reducible apply tellUnusable_kept | with_reducible apply State.live_kept | dsimp only)

theorem nowResident_kept {a2} (h : Kept p u r s) : Kept p u r (nowResident s a2) := by
  unfold nowResident
  repeat' (first | with_reducible assumption | intro _ | with_reducible apply kept_ite | with_reducible apply kept_foldl | with_reducible apply State.modSeq_kept | with_reducible apply armBurst_kept | with_reducible apply postOk_kept | split | dsimp only)

theorem endFetch_kept (h : Kept p u r s) : Kept p u r (endFetch s) := by
  unfold endFetch
  repeat' (first | with_reducible assumption | intro _ | with_reducible apply startFetch_kept | (fail_if_no_progress with_reducible (apply kept_mk; rfl; rfl; rfl; rfl; rfl; rfl)))

theorem spoilSegment_kept {a2} (h : Kept p u r s) : Kept p u r (spoilSegment s a2) := by
  unfold spoilSegment
  repeat' (first | with_reducible assumption | intro _ | with_reducible apply tellSites_kept | with_reducible apply State.modSegm_kept | dsimp only)

theorem landSegment_kept {a2} (h : Kept p u r s) : Kept p u r (landSegment s a2) := by
  unfold landSegment
  repeat' (first | with_reducible assumption | intro _ | with_reducible apply endFetch_kept | with_reducible apply spoilSegment_kept | with_reducible refine makeRoom_kept ?_ _ (by with_reducible assumption) | with_reducible apply nowResident_kept | with_reducible apply State.modSegm_kept | split | dsimp only)

theorem execSegmentFetchDone_kept {a1} {a2} (h : Kept p u r s) : KeptOut p u r (execSegmentFetchDone a1 a2 s) := by
  unfold execSegmentFetchDone
  apply keptOut_next
  repeat' (first | with_reducible assumption | intro _ | with_reducible apply kept_ite | with_reducible apply State.reach_kept | with_reducible apply endFetch_kept | with_reducible apply landSegment_kept | with_reducible apply State.raise_kept | with_reducible apply spoilSegment_kept | with_reducible apply State.modSegm_kept | split | dsimp only)

end Sys2Proof.Machine
end

