-- ==== Sys2Proof/Laws/KeptInterval.lean ====
section
/-! SUPPORT. Machine/Interval.lean: each operation keeps what `Kept` says. -/

set_option linter.unusedVariables false
set_option linter.unusedTactic false
set_option linter.unreachableTactic false

namespace Sys2Proof.Machine

variable {p : List Instr} {u : BitVec 64} {r : Nat} {s : State}

theorem execTimConfig_kept (h : Kept p u r s) : KeptOut p u r (execTimConfig s) := by
  unfold execTimConfig
  apply keptOut_next
  repeat' (first | with_reducible assumption | intro _ | with_reducible apply kept_foldl | with_reducible apply onCommand_kept | with_reducible apply checked_kept | with_reducible apply postOk_kept | with_reducible apply State.modTiu_kept | dsimp only)

theorem execTimConfigRead_kept (h : Kept p u r s) : KeptOut p u r (execTimConfigRead s) := by
  unfold execTimConfigRead
  apply keptOut_next
  repeat' (first | with_reducible assumption | intro _ | with_reducible apply onCommand_kept | with_reducible apply checked_kept | with_reducible apply postOk_kept | dsimp only)

theorem endTimRun_kept {a2} {a3} {a4} (h : Kept p u r s) : Kept p u r (endTimRun s a2 a3 a4) := by
  unfold endTimRun
  repeat' (first | with_reducible assumption | intro _ | with_reducible apply kept_ite | with_reducible apply State.modTiu_kept | with_reducible apply leaveWaiters_kept | with_reducible apply returnCredit_kept | with_reducible apply endWork_kept | split | dsimp only)

theorem timDone_kept {a2} {a3} (h : Kept p u r s) : Kept p u r (timDone s a2 a3) := by
  unfold timDone
  repeat' (first | with_reducible assumption | intro _ | with_reducible apply kept_ite | with_reducible apply modTimRun_kept | with_reducible apply State.modProg_kept | with_reducible apply endTimRun_kept | dsimp only)

theorem modWin_kept {a2} {a3} (h : Kept p u r s) : Kept p u r (modWin s a2 a3) := by
  unfold modWin
  repeat' (first | with_reducible assumption | intro _ | with_reducible apply modTimRun_kept | dsimp only)

theorem openWindow_kept {a2} (h : Kept p u r s) : Kept p u r (openWindow s a2) := by
  unfold openWindow
  repeat' (first | with_reducible assumption | intro _ | with_reducible apply kept_ite | with_reducible apply fst_ite | with_reducible apply askCredit_kept | with_reducible refine kept_of_fst (askCredit_kept ?_) | with_reducible refine kept_fst (by with_reducible assumption) (askCredit_kept ?_) | with_reducible apply modWin_kept | split | with_reducible apply fst_mk | with_reducible refine kept_fst (by with_reducible assumption) ?_ | dsimp only)

theorem writeWindow_kept {a2} (h : Kept p u r s) : KeptFst p u r (writeWindow s a2) := by
  unfold writeWindow
  repeat' (first | with_reducible assumption | intro _ | with_reducible apply kept_ite | with_reducible apply fst_ite | with_reducible apply placeHeld_kept | with_reducible refine kept_of_fst (placeHeld_kept ?_) | with_reducible refine kept_fst (by with_reducible assumption) (placeHeld_kept ?_) | with_reducible apply openWindow_kept | with_reducible apply timDone_kept | with_reducible apply modTimRun_kept | split | with_reducible apply fst_mk | with_reducible refine kept_fst (by with_reducible assumption) ?_ | dsimp only)

theorem cutWindow_kept {a2} (h : Kept p u r s) : Kept p u r (cutWindow s a2) := by
  unfold cutWindow
  repeat' (first | with_reducible assumption | intro _ | with_reducible apply kept_ite | with_reducible apply placeLast_kept | with_reducible apply modTimRun_kept | split | dsimp only)

theorem discard_kept {a2} (h : Kept p u r s) : Kept p u r (discard s a2) := by
  unfold discard
  repeat' (first | with_reducible assumption | intro _ | with_reducible apply modWin_kept | dsimp only)

theorem addSample_kept {a2} {a3} {a4} {a5} (h : Kept p u r s) : Kept p u r (addSample s a2 a3 a4 a5) := by
  unfold addSample
  repeat' (first | with_reducible assumption | intro _ | with_reducible apply kept_ite | with_reducible apply fst_ite | with_reducible apply writeWindow_kept | with_reducible refine kept_of_fst (writeWindow_kept ?_) | with_reducible refine kept_fst (by with_reducible assumption) (writeWindow_kept ?_) | with_reducible apply discard_kept | with_reducible apply openWindow_kept | with_reducible apply modWin_kept | split | with_reducible apply fst_mk | with_reducible refine kept_fst (by with_reducible assumption) ?_ | dsimp only)

theorem takeSample_kept {a2} {a3} {a4} {a5} {a6} (h : Kept p u r s) : Kept p u r (takeSample s a2 a3 a4 a5 a6) := by
  unfold takeSample
  repeat' (first | with_reducible assumption | intro _ | with_reducible apply kept_ite | with_reducible apply modWin_kept | with_reducible apply discard_kept | with_reducible apply addSample_kept | dsimp only)

theorem closeStamps_kept {a2} (h : Kept p u r s) : Kept p u r (closeStamps s a2) := by
  unfold closeStamps
  repeat' (first | with_reducible assumption | intro _ | with_reducible apply kept_ite | with_reducible apply fst_ite | with_reducible apply placeHeld_kept | with_reducible refine kept_of_fst (placeHeld_kept ?_) | with_reducible refine kept_fst (by with_reducible assumption) (placeHeld_kept ?_) | with_reducible apply timDone_kept | with_reducible apply modTimRun_kept | with_reducible apply dropRecord_kept | with_reducible apply returnCredit_kept | split | with_reducible apply fst_mk | with_reducible refine kept_fst (by with_reducible assumption) ?_ | dsimp only)

theorem drainStamp_kept {a2} (h : Kept p u r s) : Kept p u r (drainStamp s a2) := by
  unfold drainStamp
  repeat' (first | with_reducible assumption | intro _ | with_reducible apply kept_ite | with_reducible apply fst_ite | with_reducible apply closeStamps_kept | with_reducible apply modTimRun_kept | with_reducible apply State.modTiu_kept | with_reducible apply askCredit_kept | with_reducible refine kept_of_fst (askCredit_kept ?_) | with_reducible refine kept_fst (by with_reducible assumption) (askCredit_kept ?_) | split | with_reducible apply fst_mk | with_reducible refine kept_fst (by with_reducible assumption) ?_ | dsimp only)

theorem drainStamps_kept {a2} {a3} (h : Kept p u r s) : Kept p u r (drainStamps s a2 a3) := by
  induction a3 generalizing s with
  | zero => unfold drainStamps; exact h
  | succ q ih =>
    unfold drainStamps
    repeat' (first | with_reducible apply ih | with_reducible refine kept_of_fst (ih ?_) | with_reducible assumption | intro _ | with_reducible apply drainStamp_kept | split | dsimp only)

theorem pushStamp_kept {a2} {a3} (h : Kept p u r s) : Kept p u r (pushStamp s a2 a3) := by
  unfold pushStamp
  repeat' (first | with_reducible assumption | intro _ | with_reducible apply kept_ite | with_reducible apply State.modTiu_kept | with_reducible apply drainStamps_kept | with_reducible apply modTimRun_kept | with_reducible apply State.raise_kept | split | dsimp only)

theorem dropAttempt_kept {a2} (h : Kept p u r s) : Kept p u r (dropAttempt s a2) := by
  unfold dropAttempt
  repeat' (first | with_reducible assumption | intro _ | with_reducible apply modWin_kept | with_reducible apply modTimRun_kept | dsimp only)

theorem gateEnds_kept {a2} {a3} (h : Kept p u r s) : Kept p u r (gateEnds s a2 a3) := by
  unfold gateEnds
  repeat' (first | with_reducible assumption | intro _ | with_reducible apply kept_ite | with_reducible apply modTimRun_kept | with_reducible apply modWin_kept | with_reducible apply takeSample_kept | split | dsimp only)

theorem edgeToRun_kept {a2} {a3} {a4} {a5} (h : Kept p u r s) : Kept p u r (edgeToRun s a2 a3 a4 a5) := by
  unfold edgeToRun
  repeat' (first | with_reducible assumption | intro _ | with_reducible apply kept_ite | with_reducible apply openWindow_kept | with_reducible apply pushStamp_kept | with_reducible apply gateEnds_kept | with_reducible apply modTimRun_kept | with_reducible apply modWin_kept | with_reducible apply discard_kept | with_reducible apply takeSample_kept | with_reducible apply dropAttempt_kept | split | dsimp only)

theorem acceptEdge_kept {a2} {a3} {a4} {a5} {a6} (h : Kept p u r s) : Kept p u r (acceptEdge s a2 a3 a4 a5 a6) := by
  unfold acceptEdge
  repeat' (first | with_reducible assumption | intro _ | with_reducible apply kept_ite | with_reducible apply State.modTiu_kept | with_reducible apply modTimRun_kept | with_reducible apply modWin_kept | with_reducible apply edgeToRun_kept | dsimp only)

theorem channelEdge_kept {a2} {a3} {a4} {a5} (h : Kept p u r s) : Kept p u r (channelEdge s a2 a3 a4 a5) := by
  unfold channelEdge
  repeat' (first | with_reducible assumption | intro _ | with_reducible apply kept_ite | with_reducible apply acceptEdge_kept | split | with_reducible apply fst_mk | with_reducible refine kept_fst (by with_reducible assumption) ?_ | dsimp only)

theorem unitEdges_kept {a2} {a3} {a4} (h : Kept p u r s) : Kept p u r (unitEdges s a2 a3 a4) := by
  unfold unitEdges
  repeat' (first | with_reducible assumption | intro _ | with_reducible apply kept_ite | with_reducible apply kept_foldl | with_reducible apply fst_foldl | with_reducible apply foldl_fst | with_reducible apply channelEdge_kept | dsimp only)

theorem execTiuEdge_kept {a1} {a2} {a3} {a4} (h : Kept p u r s) : KeptOut p u r (execTiuEdge a1 a2 a3 a4 s) := by
  unfold execTiuEdge
  apply keptOut_next
  repeat' (first | with_reducible assumption | intro _ | with_reducible apply kept_ite | with_reducible apply acceptEdge_kept | with_reducible apply State.reach_kept | split | with_reducible apply fst_mk | with_reducible refine kept_fst (by with_reducible assumption) ?_ | dsimp only)

theorem execTiuGateEnd_kept {a1} (h : Kept p u r s) : KeptOut p u r (execTiuGateEnd a1 s) := by
  unfold execTiuGateEnd
  apply keptOut_next
  repeat' (first | with_reducible assumption | intro _ | with_reducible apply kept_ite | with_reducible apply gateEnds_kept | with_reducible apply openWindow_kept | with_reducible apply State.reach_kept | split | dsimp only)

theorem execTiuTimeout_kept {a1} (h : Kept p u r s) : KeptOut p u r (execTiuTimeout a1 s) := by
  unfold execTiuTimeout
  apply keptOut_next
  repeat' (first | with_reducible assumption | intro _ | with_reducible apply kept_ite | with_reducible apply dropAttempt_kept | with_reducible apply State.reach_kept | split | dsimp only)

theorem execTimStampsClose_kept {a1} (h : Kept p u r s) : KeptOut p u r (execTimStampsClose a1 s) := by
  unfold execTimStampsClose
  apply keptOut_next
  repeat' (first | with_reducible assumption | intro _ | with_reducible apply kept_ite | with_reducible apply State.reach_kept | with_reducible apply closeStamps_kept | with_reducible apply drainStamps_kept | split | dsimp only)

theorem cutStamps_kept {a2} (h : Kept p u r s) : Kept p u r (cutStamps s a2) := by
  unfold cutStamps
  repeat' (first | with_reducible assumption | intro _ | with_reducible apply kept_ite | with_reducible apply placeLast_kept | with_reducible apply modTimRun_kept | with_reducible apply State.modProg_kept | split | dsimp only)

theorem openDue_kept {a2} (h : Kept p u r s) : Kept p u r (openDue s a2) := by
  unfold openDue
  repeat' (first | with_reducible assumption | intro _ | with_reducible apply kept_ite | with_reducible apply openWindow_kept | split | dsimp only)

theorem cutTim_kept {a2} {a3} {a4} (h : Kept p u r s) : Kept p u r (cutTim s a2 a3 a4) := by
  unfold cutTim
  repeat' (first | with_reducible assumption | intro _ | with_reducible apply kept_ite | with_reducible apply endTimRun_kept | with_reducible apply cutStamps_kept | with_reducible apply cutWindow_kept | with_reducible apply openDue_kept)

theorem timStepped_kept {a2} (h : Kept p u r s) : Kept p u r (timStepped s a2) := by
  unfold timStepped
  repeat' (first | with_reducible assumption | intro _ | with_reducible apply kept_ite | with_reducible apply kept_foldl | with_reducible apply fst_foldl | with_reducible apply foldl_fst | with_reducible apply State.modTiu_kept | with_reducible apply modTimRun_kept | with_reducible apply closeStamps_kept | dsimp only)

theorem execTimRunStart_kept (h : Kept p u r s) : KeptOut p u r (execTimRunStart s) := by
  unfold execTimRunStart
  apply keptOut_next
  repeat' (first | with_reducible assumption | intro _ | with_reducible apply kept_ite | with_reducible apply kept_foldl | with_reducible apply onCommand_kept | with_reducible apply checked_kept | with_reducible apply State.modTiu_kept | with_reducible apply beginWork_kept | with_reducible apply accept_kept | dsimp only)

theorem stopTim_kept {a2} (h : Kept p u r s) : Kept p u r (stopTim s a2) := by
  unfold stopTim
  repeat' (first | with_reducible assumption | intro _ | with_reducible apply kept_ite | with_reducible apply modTimRun_kept | with_reducible apply openDue_kept | with_reducible apply cutTim_kept | with_reducible apply endTimRun_kept | dsimp only)

theorem execTimRunStop_kept (h : Kept p u r s) : KeptOut p u r (execTimRunStop s) := by
  unfold execTimRunStop
  apply keptOut_next
  repeat' (first | with_reducible assumption | intro _ | with_reducible apply kept_foldl | with_reducible apply onCommand_kept | with_reducible apply checked_kept | with_reducible apply postOk_kept | with_reducible apply stopTim_kept | dsimp only)

end Sys2Proof.Machine
end

