-- ==== Sys2Proof/Laws/KeptBurst.lean ====
section
/-! SUPPORT. Machine/Burst.lean: each operation keeps what `Kept` says. -/

set_option linter.unusedVariables false
set_option linter.unusedTactic false
set_option linter.unreachableTactic false

namespace Sys2Proof.Machine

variable {p : List Instr} {u : BitVec 64} {r : Nat} {s : State}

theorem trigPulse_kept {a2} {a3} (h : Kept p u r s) : Kept p u r (trigPulse s a2 a3) := by
  unfold trigPulse
  repeat' (first | with_reducible assumption | intro _ | with_reducible apply State.modTrig_kept | dsimp only)

theorem trigEvent_kept {a2} {a3} {a4} (h : Kept p u r s) : Kept p u r (trigEvent s a2 a3 a4) := by
  unfold trigEvent
  repeat' (first | with_reducible assumption | intro _ | with_reducible apply kept_ite | with_reducible apply kept_foldl | with_reducible apply trigPulse_kept | dsimp only)

theorem seqPulse_kept {a2} {a3} {a4} (h : Kept p u r s) : Kept p u r (seqPulse s a2 a3 a4) := by
  unfold seqPulse
  repeat' (first | with_reducible assumption | intro _ | with_reducible apply unitEdges_kept | dsimp only)

theorem stackFault_kept {a2} {a3} (h : Kept p u r s) : Kept p u r (stackFault s a2 a3) := by
  unfold stackFault
  repeat' (first | with_reducible assumption | intro _ | with_reducible apply State.raise_kept)

theorem dropFrame_kept {a2} (h : Kept p u r s) : Kept p u r (dropFrame s a2) := by
  unfold dropFrame
  repeat' (first | with_reducible assumption | intro _ | with_reducible apply kept_foldl | with_reducible apply State.modSegm_kept | dsimp only)

theorem clearStacks_kept {a2} (h : Kept p u r s) : Kept p u r (clearStacks s a2) := by
  unfold clearStacks
  repeat' (first | with_reducible assumption | intro _ | with_reducible apply kept_foldl | with_reducible apply dropFrame_kept | with_reducible apply State.modSeq_kept | dsimp only)

theorem pinLoops_kept {a2} {a3} (h : Kept p u r s) : Kept p u r (pinLoops s a2 a3) := by
  unfold pinLoops
  repeat' (first | with_reducible assumption | intro _ | with_reducible apply kept_ite | with_reducible apply kept_foldl | with_reducible apply fst_ite | with_reducible apply fst_foldl | with_reducible apply foldl_fst | with_reducible apply State.modSegm_kept | with_reducible apply State.modSeq_kept | split | with_reducible apply fst_mk | with_reducible refine kept_fst (by with_reducible assumption) ?_ | dsimp only)

theorem leaveFirst_kept {a2} (h : Kept p u r s) : Kept p u r (leaveFirst s a2) := by
  unfold leaveFirst
  repeat' (first | with_reducible assumption | intro _ | with_reducible apply kept_ite | with_reducible apply State.modSeq_kept | with_reducible apply State.modSegm_kept | split | dsimp only)

theorem burstRecord_kept {a2} {a3} {a4} {a5} {a6} {a7} (h : Kept p u r s) : KeptFst p u r (burstRecord s a2 a3 a4 a5 a6 a7) := by
  unfold burstRecord
  repeat' (first | with_reducible assumption | intro _ | with_reducible apply kept_ite | with_reducible apply fst_ite | with_reducible apply emitRecord_kept | with_reducible refine kept_of_fst (emitRecord_kept ?_) | with_reducible refine kept_fst (by with_reducible assumption) (emitRecord_kept ?_) | with_reducible apply State.modSeq_kept | split | with_reducible apply fst_mk | with_reducible refine kept_fst (by with_reducible assumption) ?_ | dsimp only)

theorem runCycle_kept {a2} {a3} {a4} {a5} {a6} (h : Kept p u r s) : Kept p u r (runCycle s a2 a3 a4 a5 a6) := by
  unfold runCycle
  repeat' (first | with_reducible assumption | intro _ | with_reducible apply kept_ite | with_reducible apply kept_foldl | with_reducible apply fst_ite | with_reducible apply fst_foldl | with_reducible apply foldl_fst | with_reducible apply placePin_kept | with_reducible refine kept_of_fst (placePin_kept ?_) | with_reducible refine kept_fst (by with_reducible assumption) (placePin_kept ?_) | with_reducible apply trigEvent_kept | with_reducible apply State.modSeq_kept | with_reducible apply State.modProg_kept | split | with_reducible apply fst_mk | with_reducible refine kept_fst (by with_reducible assumption) ?_ | dsimp only)

theorem runVector_kept {a2} (h : Kept p u r s) : Kept p u r (runVector s a2) := by
  unfold runVector
  repeat' (first | with_reducible assumption | intro _ | with_reducible apply kept_ite | with_reducible apply fst_ite | with_reducible apply State.modSeq_kept | with_reducible apply runCycle_kept | with_reducible apply seqPulse_kept | with_reducible apply burstRecord_kept | with_reducible refine kept_of_fst (burstRecord_kept ?_) | with_reducible refine kept_fst (by with_reducible assumption) (burstRecord_kept ?_) | split | with_reducible apply fst_mk | with_reducible refine kept_fst (by with_reducible assumption) ?_ | dsimp only)

theorem startInstance_kept {a2} {a3} {a4} {a5} {a6} (h : Kept p u r s) : Kept p u r (startInstance s a2 a3 a4 a5 a6) := by
  unfold startInstance
  repeat' (first | with_reducible assumption | intro _ | with_reducible apply kept_ite | with_reducible apply fst_ite | with_reducible apply State.modSegm_kept | with_reducible apply State.modSeq_kept | with_reducible apply State.live_kept | with_reducible apply pinLoops_kept | with_reducible apply trigEvent_kept | with_reducible apply burstRecord_kept | with_reducible refine kept_of_fst (burstRecord_kept ?_) | with_reducible refine kept_fst (by with_reducible assumption) (burstRecord_kept ?_) | with_reducible apply runVector_kept | with_reducible apply fst_mk | dsimp only)

theorem endBurst_kept {a2} {a3} (h : Kept p u r s) : Kept p u r (endBurst s a2 a3) := by
  unfold endBurst
  repeat' (first | with_reducible assumption | intro _ | with_reducible apply kept_ite | with_reducible apply kept_foldl | with_reducible apply settlePin_kept | with_reducible apply leaveFirst_kept | with_reducible apply clearStacks_kept | with_reducible apply State.modSeq_kept | with_reducible apply answerAbort_kept | with_reducible apply State.live_kept | with_reducible apply trigEvent_kept | dsimp only)

theorem settleBurst_kept {a2} (h : Kept p u r s) : Kept p u r (settleBurst s a2) := by
  unfold settleBurst
  repeat' (first | with_reducible assumption | intro _ | with_reducible apply kept_ite | with_reducible apply fst_ite | with_reducible apply placeHeld_kept | with_reducible refine kept_of_fst (placeHeld_kept ?_) | with_reducible refine kept_fst (by with_reducible assumption) (placeHeld_kept ?_) | with_reducible apply State.modSeq_kept | with_reducible apply dropRecord_kept | with_reducible apply leaveWaiters_kept | with_reducible apply endWork_kept | with_reducible apply State.modProg_kept | split | with_reducible apply fst_mk | with_reducible refine kept_fst (by with_reducible assumption) ?_ | dsimp only)

theorem latchStop_kept {a2} {a3} {a4} (h : Kept p u r s) : Kept p u r (latchStop s a2 a3 a4) := by
  unfold latchStop
  repeat' (first | with_reducible assumption | intro _ | with_reducible apply kept_ite | with_reducible apply settleBurst_kept | with_reducible apply endBurst_kept | with_reducible apply State.modSeq_kept | split | dsimp only)

theorem finishBurst_kept {a2} {a3} (h : Kept p u r s) : Kept p u r (finishBurst s a2 a3) := by
  unfold finishBurst
  repeat' (first | with_reducible assumption | intro _ | with_reducible apply settleBurst_kept | with_reducible apply endBurst_kept)

theorem holdCycle_kept {a2} (h : Kept p u r s) : Kept p u r (holdCycle s a2) := by
  unfold holdCycle
  repeat' (first | with_reducible assumption | intro _ | with_reducible apply runCycle_kept | with_reducible apply State.modSeq_kept | dsimp only)

theorem starveOn_kept {a2} {a3} {a4} (h : Kept p u r s) : Kept p u r (starveOn s a2 a3 a4) := by
  unfold starveOn
  repeat' (first | with_reducible assumption | intro _ | with_reducible apply kept_ite | with_reducible apply finishBurst_kept | with_reducible apply State.modSeq_kept | with_reducible apply State.raise_kept | with_reducible apply trigEvent_kept | with_reducible apply tellUnusable_kept | with_reducible apply holdCycle_kept | with_reducible apply State.live_kept | split | dsimp only)

theorem boundary_kept {a2} {a3} {a4} (h : Kept p u r s) : Kept p u r (boundary s a2 a3 a4) := by
  unfold boundary
  repeat' (first | with_reducible assumption | intro _ | with_reducible apply kept_ite | with_reducible apply leaveFirst_kept | with_reducible apply finishBurst_kept | with_reducible apply clearStacks_kept | with_reducible apply State.modSeq_kept | with_reducible apply starveOn_kept | with_reducible apply startInstance_kept | split | dsimp only)

theorem nextVector_kept {a2} (h : Kept p u r s) : Kept p u r (nextVector s a2) := by
  unfold nextVector
  repeat' (first | with_reducible assumption | intro _ | with_reducible apply kept_ite | with_reducible apply runVector_kept | with_reducible apply State.modSeq_kept | with_reducible apply boundary_kept | dsimp only)

theorem pushLoop_kept {a2} {a3} (h : Kept p u r s) : Kept p u r (pushLoop s a2 a3) := by
  unfold pushLoop
  repeat' (first | with_reducible assumption | intro _ | with_reducible apply kept_ite | with_reducible apply stackFault_kept | with_reducible apply dropFrame_kept | with_reducible apply State.modSeq_kept | with_reducible apply pinLoops_kept | split | dsimp only)

theorem endLoop_kept {a2} (h : Kept p u r s) : Kept p u r (endLoop s a2) := by
  unfold endLoop
  repeat' (first | with_reducible assumption | intro _ | with_reducible apply kept_ite | with_reducible apply nextVector_kept | with_reducible apply stackFault_kept | with_reducible apply State.modSeq_kept | with_reducible apply runVector_kept | with_reducible apply boundary_kept | with_reducible apply dropFrame_kept | split | dsimp only)

theorem trigCycle_kept {a2} (h : Kept p u r s) : Kept p u r (trigCycle s a2) := by
  unfold trigCycle
  repeat' (first | with_reducible assumption | intro _ | with_reducible apply runCycle_kept | with_reducible apply State.modSeq_kept | dsimp only)

theorem waitCycle_kept {a2} {a3} {a4} (h : Kept p u r s) : Kept p u r (waitCycle s a2 a3 a4) := by
  unfold waitCycle
  repeat' (first | with_reducible assumption | intro _ | with_reducible apply runCycle_kept | with_reducible apply State.modSeq_kept | dsimp only)

theorem afterCycle_kept {a2} (h : Kept p u r s) : Kept p u r (afterCycle s a2) := by
  unfold afterCycle
  repeat' (first | with_reducible assumption | intro _ | with_reducible apply kept_ite | with_reducible apply boundary_kept | with_reducible apply nextVector_kept | with_reducible apply runCycle_kept | with_reducible apply State.modSeq_kept | with_reducible apply waitCycle_kept | with_reducible apply pushLoop_kept | with_reducible apply endLoop_kept | with_reducible apply stackFault_kept | with_reducible apply trigCycle_kept | with_reducible apply finishBurst_kept | with_reducible apply leaveFirst_kept | split | dsimp only)

theorem execVectorCycle_kept {a1} (h : Kept p u r s) : KeptOut p u r (execVectorCycle a1 s) := by
  unfold execVectorCycle
  apply keptOut_next
  repeat' (first | with_reducible assumption | intro _ | with_reducible apply kept_ite | with_reducible apply settleBurst_kept | with_reducible apply State.reach_kept | with_reducible apply latchStop_kept | with_reducible apply startFetch_kept | with_reducible apply finishBurst_kept | with_reducible apply afterCycle_kept | split | dsimp only)

theorem execBurstStart_kept {a1} (h : Kept p u r s) : KeptOut p u r (execBurstStart a1 s) := by
  unfold execBurstStart
  apply keptOut_next
  repeat' (first | with_reducible assumption | intro _ | with_reducible apply kept_ite | with_reducible apply kept_foldl | with_reducible apply startFetch_kept | with_reducible apply State.modSeq_kept | with_reducible apply startInstance_kept | with_reducible apply trigEvent_kept | with_reducible apply State.reach_kept | split | dsimp only)

theorem failingVector_kept {a2} {a3} {a4} {a5} (h : Kept p u r s) : Kept p u r (failingVector s a2 a3 a4 a5) := by
  unfold failingVector
  repeat' (first | with_reducible assumption | intro _ | with_reducible apply kept_foldl | with_reducible apply State.modSeq_kept | with_reducible apply seqPulse_kept | with_reducible apply trigEvent_kept | split | dsimp only)

theorem execVectorJudgement_kept {a1} {a2} (h : Kept p u r s) : KeptOut p u r (execVectorJudgement a1 a2 s) := by
  unfold execVectorJudgement
  apply keptOut_next
  repeat' (first | with_reducible assumption | intro _ | with_reducible apply kept_ite | with_reducible apply fst_ite | with_reducible apply State.reach_kept | with_reducible apply State.modSeq_kept | with_reducible apply failingVector_kept | with_reducible apply burstRecord_kept | with_reducible refine kept_of_fst (burstRecord_kept ?_) | with_reducible refine kept_fst (by with_reducible assumption) (burstRecord_kept ?_) | with_reducible apply settleBurst_kept | split | with_reducible apply fst_mk | with_reducible refine kept_fst (by with_reducible assumption) ?_ | dsimp only)

theorem execBurstStop_kept (h : Kept p u r s) : KeptOut p u r (execBurstStop s) := by
  unfold execBurstStop
  apply keptOut_next
  repeat' (first | with_reducible assumption | intro _ | with_reducible apply kept_foldl | with_reducible apply onCommand_kept | with_reducible apply checked_kept | with_reducible apply postOk_kept | with_reducible apply latchStop_kept | dsimp only)

theorem execJumpRequest_kept (h : Kept p u r s) : KeptOut p u r (execJumpRequest s) := by
  unfold execJumpRequest
  apply keptOut_next
  repeat' (first | with_reducible assumption | intro _ | with_reducible apply kept_ite | with_reducible apply kept_foldl | with_reducible apply onCommand_kept | with_reducible apply checked_kept | with_reducible apply State.modSeq_kept | with_reducible apply startFetch_kept | with_reducible apply postOk_kept | with_reducible apply postResponse_kept | dsimp only)

theorem tinReleases_kept {a2} {a3} {a4} (h : Kept p u r s) : Kept p u r (tinReleases s a2 a3 a4) := by
  unfold tinReleases
  repeat' (first | with_reducible assumption | intro _ | with_reducible apply kept_ite | with_reducible apply kept_foldl | with_reducible apply State.modSeq_kept | dsimp only)

theorem execTrigPulseEnd_kept {a1} (h : Kept p u r s) : KeptOut p u r (execTrigPulseEnd a1 s) := by
  unfold execTrigPulseEnd
  apply keptOut_next
  repeat' (first | with_reducible assumption | intro _ | with_reducible apply State.reach_kept | with_reducible apply State.modTrig_kept | split | dsimp only)

end Sys2Proof.Machine
end

