-- ==== Sys2Proof/Laws/KeptMeasOps.lean ====
section
/-! SUPPORT. Machine/MeasOps.lean: each operation keeps what `Kept` says. -/

set_option linter.unusedVariables false
set_option linter.unusedTactic false
set_option linter.unreachableTactic false

namespace Sys2Proof.Machine

variable {p : List Instr} {u : BitVec 64} {r : Nat} {s : State}

theorem endMeasRun_kept {a2} {a3} (h : Kept p u r s) : Kept p u r (endMeasRun s a2 a3) := by
  unfold endMeasRun
  repeat' (first | with_reducible assumption | intro _ | with_reducible apply kept_ite | with_reducible apply State.modAvg_kept | with_reducible apply leaveWaiters_kept | with_reducible apply returnCredit_kept | with_reducible apply endWork_kept | split | dsimp only)

theorem endMeasWindow_kept {a2} {a3} (h : Kept p u r s) : Kept p u r (endMeasWindow s a2 a3) := by
  unfold endMeasWindow
  repeat' (first | with_reducible assumption | intro _ | with_reducible apply kept_ite | with_reducible apply fst_ite | with_reducible apply modMeasRun_kept | with_reducible apply placeLast_kept | with_reducible apply placeHeld_kept | with_reducible refine kept_of_fst (placeHeld_kept ?_) | with_reducible refine kept_fst (by with_reducible assumption) (placeHeld_kept ?_) | with_reducible apply State.modProg_kept | with_reducible apply endMeasRun_kept | split | with_reducible apply fst_mk | with_reducible refine kept_fst (by with_reducible assumption) ?_ | dsimp only)

theorem askUnits_kept {a2} (h : Kept p u r s) : Kept p u r (askUnits s a2) := by
  unfold askUnits
  repeat' (first | with_reducible assumption | intro _ | with_reducible apply kept_ite | with_reducible apply fst_ite | with_reducible apply modMeasRun_kept | with_reducible apply returnCredit_kept | with_reducible apply askCredit_kept | with_reducible refine kept_of_fst (askCredit_kept ?_) | with_reducible refine kept_fst (by with_reducible assumption) (askCredit_kept ?_) | split | with_reducible apply fst_mk | with_reducible refine kept_fst (by with_reducible assumption) ?_ | dsimp only)

theorem askWindow_kept {a2} {a3} (h : Kept p u r s) : KeptFst p u r (askWindow s a2 a3) := by
  unfold askWindow
  repeat' (first | with_reducible assumption | intro _ | with_reducible apply kept_ite | with_reducible apply kept_foldl | with_reducible apply fst_ite | with_reducible apply fst_foldl | with_reducible apply foldl_fst | with_reducible apply askUnits_kept | with_reducible apply fst_mk | dsimp only)

theorem feedAverage_kept {a2} {a3} (h : Kept p u r s) : Kept p u r (feedAverage s a2 a3) := by
  unfold feedAverage
  repeat' (first | with_reducible assumption | intro _ | with_reducible apply kept_ite | with_reducible apply fst_ite | with_reducible apply endMeasWindow_kept | with_reducible apply modMeasRun_kept | with_reducible apply endMeasRun_kept | with_reducible apply askWindow_kept | with_reducible refine kept_of_fst (askWindow_kept ?_) | with_reducible refine kept_fst (by with_reducible assumption) (askWindow_kept ?_) | split | with_reducible apply fst_mk | with_reducible refine kept_fst (by with_reducible assumption) ?_ | dsimp only)

theorem closeRaw_kept {a2} {a3} (h : Kept p u r s) : Kept p u r (closeRaw s a2 a3) := by
  unfold closeRaw
  repeat' (first | with_reducible assumption | intro _ | with_reducible apply kept_ite | with_reducible apply fst_ite | with_reducible apply modMeasRun_kept | with_reducible apply placeHeld_kept | with_reducible refine kept_of_fst (placeHeld_kept ?_) | with_reducible refine kept_fst (by with_reducible assumption) (placeHeld_kept ?_) | with_reducible apply State.modProg_kept | with_reducible apply endMeasRun_kept | with_reducible apply returnCredit_kept | with_reducible apply dropRecord_kept | split | with_reducible apply fst_mk | with_reducible refine kept_fst (by with_reducible assumption) ?_ | dsimp only)

theorem feedRawChannel_kept {a2} {a3} {a4} (h : Kept p u r s) : Kept p u r (feedRawChannel s a2 a3 a4) := by
  unfold feedRawChannel
  repeat' (first | with_reducible assumption | intro _ | with_reducible apply kept_ite | with_reducible apply fst_ite | with_reducible apply closeRaw_kept | with_reducible apply modMeasRun_kept | with_reducible refine reserve_kept ?_ _ (by with_reducible assumption) | with_reducible apply dropRecord_kept | split | with_reducible apply fst_mk | with_reducible refine kept_fst (by with_reducible assumption) ?_ | dsimp only)

theorem feedRaw_kept {a2} {a3} {a4} (h : Kept p u r s) : Kept p u r (feedRaw s a2 a3 a4) := by
  unfold feedRaw
  repeat' (first | with_reducible assumption | intro _ | with_reducible apply kept_ite | with_reducible apply modMeasRun_kept | with_reducible apply feedRawChannel_kept | dsimp only)

theorem feedMeas_kept {a2} {a3} (h : Kept p u r s) : Kept p u r (feedMeas s a2 a3) := by
  unfold feedMeas
  repeat' (first | with_reducible assumption | intro _ | with_reducible apply kept_ite | with_reducible apply feedRaw_kept | with_reducible apply feedAverage_kept | split | dsimp only)

theorem endLockRun_kept {a2} {a3} {a4} (h : Kept p u r s) : Kept p u r (endLockRun s a2 a3 a4) := by
  unfold endLockRun
  repeat' (first | with_reducible assumption | intro _ | with_reducible apply kept_ite | with_reducible apply State.modAvg_kept | with_reducible apply leaveWaiters_kept | with_reducible apply returnCredit_kept | with_reducible apply endWork_kept | split | dsimp only)

theorem putLast_kept {a2} {a3} {a4} {a5} {a6} (h : Kept p u r s) : Kept p u r (putLast s a2 a3 a4 a5 a6) := by
  unfold putLast
  repeat' (first | with_reducible assumption | intro _ | with_reducible apply kept_ite | with_reducible apply placeLast_kept | split | with_reducible apply fst_mk | with_reducible refine kept_fst (by with_reducible assumption) ?_ | dsimp only)

theorem endLockWindow_kept {a2} (h : Kept p u r s) : Kept p u r (endLockWindow s a2) := by
  unfold endLockWindow
  repeat' (first | with_reducible assumption | intro _ | with_reducible apply kept_ite | with_reducible apply fst_ite | with_reducible apply placeHeld_kept | with_reducible refine kept_of_fst (placeHeld_kept ?_) | with_reducible refine kept_fst (by with_reducible assumption) (placeHeld_kept ?_) | with_reducible apply modLockRun_kept | with_reducible apply State.modProg_kept | with_reducible apply endLockRun_kept | split | with_reducible apply fst_mk | with_reducible refine kept_fst (by with_reducible assumption) ?_ | dsimp only)

theorem startLockWindow_kept {a2} {a3} {a4} {a5} (h : Kept p u r s) : Kept p u r (startLockWindow s a2 a3 a4 a5) := by
  unfold startLockWindow
  repeat' (first | with_reducible assumption | intro _ | with_reducible apply kept_ite | with_reducible apply kept_foldl | with_reducible apply fst_ite | with_reducible apply fst_foldl | with_reducible apply foldl_fst | with_reducible apply askCredit_kept | with_reducible refine kept_of_fst (askCredit_kept ?_) | with_reducible refine kept_fst (by with_reducible assumption) (askCredit_kept ?_) | with_reducible apply modLockRun_kept | split | with_reducible apply fst_mk | with_reducible refine kept_fst (by with_reducible assumption) ?_ | dsimp only)

theorem closeLock_kept {a2} {a3} (h : Kept p u r s) : Kept p u r (closeLock s a2 a3) := by
  unfold closeLock
  repeat' (first | with_reducible assumption | intro _ | with_reducible apply modLockRun_kept | split | dsimp only)

theorem cutLock_kept {a2} {a3} (h : Kept p u r s) : Kept p u r (cutLock s a2 a3) := by
  unfold cutLock
  repeat' (first | with_reducible assumption | intro _ | with_reducible apply endLockWindow_kept | with_reducible apply modLockRun_kept | with_reducible apply putLast_kept | with_reducible apply endLockRun_kept | split | dsimp only)

theorem endRefs_kept {a2} {a3} (h : Kept p u r s) : Kept p u r (endRefs s a2 a3) := by
  unfold endRefs
  repeat' (first | with_reducible assumption | intro _ | with_reducible apply kept_foldl | with_reducible apply fst_foldl | with_reducible apply foldl_fst | with_reducible apply cutLock_kept | dsimp only)

theorem cutMeas_kept {a2} {a3} (h : Kept p u r s) : Kept p u r (cutMeas s a2 a3) := by
  unfold cutMeas
  repeat' (first | with_reducible assumption | intro _ | with_reducible apply kept_ite | with_reducible apply closeRaw_kept | with_reducible apply endMeasWindow_kept | with_reducible apply endMeasRun_kept | split | dsimp only)

theorem feedLock_kept {a2} {a3} (h : Kept p u r s) : Kept p u r (feedLock s a2 a3) := by
  unfold feedLock
  repeat' (first | with_reducible assumption | intro _ | with_reducible apply kept_ite | with_reducible apply endLockWindow_kept | with_reducible apply modLockRun_kept | with_reducible apply startLockWindow_kept | with_reducible apply closeLock_kept | split | with_reducible apply fst_mk | with_reducible refine kept_fst (by with_reducible assumption) ?_ | dsimp only)

theorem feedLoop_kept {a2} {a3} (h : Kept p u r s) : Kept p u r (feedLoop s a2 a3) := by
  unfold feedLoop
  repeat' (first | with_reducible assumption | intro _ | with_reducible apply kept_ite | with_reducible apply feedLock_kept | with_reducible apply feedMeas_kept | with_reducible apply State.modAvg_kept | split | dsimp only)

end Sys2Proof.Machine
end

