-- ==== Sys2Proof/Laws/KeptPins.lean ====
section
/-! SUPPORT. Machine/Pins.lean: each operation keeps what `Kept` says. -/

set_option linter.unusedVariables false
set_option linter.unusedTactic false
set_option linter.unreachableTactic false

namespace Sys2Proof.Machine

variable {p : List Instr} {u : BitVec 64} {r : Nat} {s : State}

theorem loadDac_kept {a2} {a3} {a4} (h : Kept p u r s) : Kept p u r (loadDac s a2 a3 a4) := by
  unfold loadDac
  repeat' (first | with_reducible assumption | intro _ | with_reducible apply kept_ite | with_reducible apply State.modDacst_kept | dsimp only)

theorem loadDue_kept {a2} (h : Kept p u r s) : Kept p u r (loadDue s a2) := by
  unfold loadDue
  repeat' (first | with_reducible assumption | intro _ | with_reducible apply kept_ite | with_reducible apply kept_foldl | with_reducible apply fst_foldl | with_reducible apply foldl_fst | with_reducible apply State.modDacst_kept | with_reducible apply loadDac_kept | dsimp only)

theorem strobeGroup_kept {a2} (h : Kept p u r s) : Kept p u r (strobeGroup s a2) := by
  unfold strobeGroup
  repeat' (first | with_reducible assumption | intro _ | with_reducible apply loadDue_kept | dsimp only)

theorem execPinMap_kept (h : Kept p u r s) : KeptOut p u r (execPinMap s) := by
  unfold execPinMap
  apply keptOut_next
  repeat' (first | with_reducible assumption | intro _ | with_reducible apply kept_ite | with_reducible apply kept_foldl | with_reducible apply onCommand_kept | with_reducible apply checked_kept | with_reducible apply joinClock_kept | with_reducible apply leaveClock_kept | with_reducible apply postOk_kept | with_reducible apply State.modSeq_kept | split | dsimp only)

theorem execSetLevels_kept (h : Kept p u r s) : KeptOut p u r (execSetLevels s) := by
  unfold execSetLevels
  apply keptOut_next
  repeat' (first | with_reducible assumption | intro _ | with_reducible apply kept_ite | with_reducible apply kept_foldl | with_reducible apply fst_foldl | with_reducible apply foldl_fst | with_reducible apply onCommand_kept | with_reducible apply checked_kept | with_reducible apply loadDac_kept | with_reducible apply State.modDacst_kept | with_reducible apply postOk_kept | split | dsimp only)

theorem execLoadGroupDefine_kept (h : Kept p u r s) : KeptOut p u r (execLoadGroupDefine s) := by
  unfold execLoadGroupDefine
  apply keptOut_next
  repeat' (first | with_reducible assumption | intro _ | with_reducible apply onCommand_kept | with_reducible apply checked_kept | with_reducible apply postOk_kept | with_reducible apply State.modGrp_kept | dsimp only)

theorem execLoadGroupStrobeNow_kept (h : Kept p u r s) : KeptOut p u r (execLoadGroupStrobeNow s) := by
  unfold execLoadGroupStrobeNow
  apply keptOut_next
  repeat' (first | with_reducible assumption | intro _ | with_reducible apply onCommand_kept | with_reducible apply checked_kept | with_reducible apply postOk_kept | with_reducible apply strobeGroup_kept | dsimp only)

theorem execLoadGroupStrobeAt_kept (h : Kept p u r s) : KeptOut p u r (execLoadGroupStrobeAt s) := by
  unfold execLoadGroupStrobeAt
  apply keptOut_next
  repeat' (first | with_reducible assumption | intro _ | with_reducible apply onCommand_kept | with_reducible apply State.modGrp_kept | with_reducible apply checked_kept | with_reducible apply postOk_kept | dsimp only)

theorem execLoadGroupCancel_kept (h : Kept p u r s) : KeptOut p u r (execLoadGroupCancel s) := by
  unfold execLoadGroupCancel
  apply keptOut_next
  repeat' (first | with_reducible assumption | intro _ | with_reducible apply kept_foldl | with_reducible apply fst_foldl | with_reducible apply foldl_fst | with_reducible apply onCommand_kept | with_reducible apply checked_kept | with_reducible apply State.modDacst_kept | with_reducible apply postOk_kept | with_reducible apply State.modGrp_kept | dsimp only)

theorem execGroupStrobeDue_kept {a1} (h : Kept p u r s) : KeptOut p u r (execGroupStrobeDue a1 s) := by
  unfold execGroupStrobeDue
  apply keptOut_next
  repeat' (first | with_reducible assumption | intro _ | with_reducible apply strobeGroup_kept | with_reducible apply State.reach_kept | with_reducible apply State.modGrp_kept | split | dsimp only)

theorem execEpochLoadDue_kept {a1} (h : Kept p u r s) : KeptOut p u r (execEpochLoadDue a1 s) := by
  unfold execEpochLoadDue
  apply keptOut_next
  repeat' (first | with_reducible assumption | intro _ | with_reducible apply kept_ite | with_reducible apply loadDue_kept | with_reducible apply State.reach_kept | dsimp only)

theorem driverOff_kept {a2} (h : Kept p u r s) : Kept p u r (driverOff s a2) := by
  unfold driverOff
  repeat' (first | with_reducible assumption | intro _ | with_reducible apply kept_ite | with_reducible apply setDriver_kept)

theorem execSetPinMode_kept (h : Kept p u r s) : KeptOut p u r (execSetPinMode s) := by
  unfold execSetPinMode
  apply keptOut_next
  repeat' (first | with_reducible assumption | intro _ | with_reducible apply kept_ite | with_reducible apply kept_foldl | with_reducible apply onCommand_kept | with_reducible apply checked_kept | with_reducible apply postOk_kept | with_reducible apply driverOff_kept | with_reducible apply State.modPinst_kept | dsimp only)

theorem openPad_kept {a2} {a3} (h : Kept p u r s) : Kept p u r (openPad s a2 a3) := by
  unfold openPad
  repeat' (first | with_reducible assumption | intro _ | with_reducible apply kept_ite | with_reducible apply driverOff_kept | with_reducible apply State.modPinst_kept | dsimp only)

theorem execConnect_kept (h : Kept p u r s) : KeptOut p u r (execConnect s) := by
  unfold execConnect
  apply keptOut_next
  repeat' (first | with_reducible assumption | intro _ | with_reducible apply kept_ite | with_reducible apply kept_foldl | with_reducible apply onCommand_kept | with_reducible apply checked_kept | with_reducible apply State.modPinst_kept | with_reducible apply openPad_kept | with_reducible apply postOk_kept | with_reducible apply waitFor_kept | split | with_reducible apply fst_mk | with_reducible refine kept_fst (by with_reducible assumption) ?_ | dsimp only)

theorem execConnectSwitchClose_kept (h : Kept p u r s) : KeptOut p u r (execConnectSwitchClose s) := by
  unfold execConnectSwitchClose
  apply keptOut_next
  repeat' (first | with_reducible assumption | intro _ | with_reducible apply kept_ite | with_reducible apply kept_foldl | with_reducible apply fst_foldl | with_reducible apply foldl_fst | with_reducible apply State.modPinst_kept | with_reducible apply setDriver_kept | dsimp only)

theorem execConnectSettled_kept (h : Kept p u r s) : KeptOut p u r (execConnectSettled s) := by
  unfold execConnectSettled
  apply keptOut_next
  repeat' (first | with_reducible assumption | intro _ | with_reducible apply kept_ite | with_reducible apply kept_foldl | with_reducible apply fst_foldl | with_reducible apply foldl_fst | with_reducible apply State.modPinst_kept | with_reducible apply postOk_kept | dsimp only)

theorem execDrvOc_kept {a1} (h : Kept p u r s) : KeptOut p u r (execDrvOc a1 s) := by
  unfold execDrvOc
  apply keptOut_next
  repeat' (first | with_reducible assumption | intro _ | with_reducible apply State.modPinst_kept | with_reducible apply State.condition_kept | dsimp only)

theorem execDrvOcCleared_kept {a1} (h : Kept p u r s) : KeptOut p u r (execDrvOcCleared a1 s) := by
  unfold execDrvOcCleared
  apply keptOut_next
  repeat' (first | with_reducible assumption | intro _ | with_reducible apply State.modPinst_kept | with_reducible apply State.live_kept | dsimp only)

end Sys2Proof.Machine
end

