-- ==== Sys2Proof/Laws/KeptLoopOps.lean ====
section
/-! SUPPORT. Machine/LoopOps.lean: each operation keeps what `Kept` says. -/

set_option linter.unusedVariables false
set_option linter.unusedTactic false
set_option linter.unreachableTactic false

namespace Sys2Proof.Machine

variable {p : List Instr} {u : BitVec 64} {r : Nat} {s : State}

theorem loopEvent_kept {a2} {a3} {a4} {a5} (h : Kept p u r s) : Kept p u r (loopEvent s a2 a3 a4 a5) := by
  unfold loopEvent
  repeat' (first | with_reducible assumption | intro _ | with_reducible apply kept_ite | with_reducible apply fst_ite | with_reducible apply emitRecord_kept | with_reducible refine kept_of_fst (emitRecord_kept ?_) | with_reducible refine kept_fst (by with_reducible assumption) (emitRecord_kept ?_) | with_reducible apply State.raise_kept | split | with_reducible apply fst_mk | with_reducible refine kept_fst (by with_reducible assumption) ?_ | dsimp only)

theorem clipEvent_kept {a2} {a3} {a4} {a5} {a6} {a7} (h : Kept p u r s) : Kept p u r (clipEvent s a2 a3 a4 a5 a6 a7) := by
  unfold clipEvent
  repeat' (first | with_reducible assumption | intro _ | with_reducible apply kept_ite | with_reducible apply loopEvent_kept | dsimp only)

theorem followLeader_kept {a2} (h : Kept p u r s) : Kept p u r (followLeader s a2) := by
  unfold followLeader
  repeat' (first | with_reducible assumption | intro _ | with_reducible apply kept_foldl | with_reducible apply State.takeFree_kept | with_reducible apply State.modLoop_kept | dsimp only)

theorem switchRange_kept {a2} {a3} {a4} (h : Kept p u r s) : Kept p u r (switchRange s a2 a3 a4) := by
  unfold switchRange
  repeat' (first | with_reducible assumption | intro _ | with_reducible apply kept_ite | with_reducible apply followLeader_kept | with_reducible apply State.modLoop_kept | dsimp only)

theorem regulate_kept {a2} {a3} {a4} {a5} (h : Kept p u r s) : KeptFst p u r (regulate s a2 a3 a4 a5) := by
  unfold regulate
  repeat' (first | with_reducible assumption | intro _ | with_reducible apply kept_ite | with_reducible apply fst_ite | with_reducible apply State.modLoop_kept | split | with_reducible apply fst_mk | with_reducible refine kept_fst (by with_reducible assumption) ?_ | dsimp only)

theorem clipLaw_kept {a2} {a3} {a4} (h : Kept p u r s) : Kept p u r (clipLaw s a2 a3 a4) := by
  unfold clipLaw
  repeat' (first | with_reducible assumption | intro _ | with_reducible apply kept_ite | with_reducible apply State.modLoop_kept | with_reducible apply loopEvent_kept | dsimp only)

theorem doSwap_kept {a2} {a3} {a4} (h : Kept p u r s) : Kept p u r (doSwap s a2 a3 a4) := by
  unfold doSwap
  repeat' (first | with_reducible assumption | intro _ | with_reducible apply kept_ite | with_reducible apply State.modLoop_kept | with_reducible apply loopEvent_kept | with_reducible apply clipLaw_kept | dsimp only)

theorem answerSwap_kept (h : Kept p u r s) : Kept p u r (answerSwap s) := by
  unfold answerSwap
  repeat' (first | with_reducible assumption | intro _ | with_reducible apply kept_ite | with_reducible apply postOk_kept | split | dsimp only)

theorem takeSwap_kept {a2} {a3} {a4} (h : Kept p u r s) : Kept p u r (takeSwap s a2 a3 a4) := by
  unfold takeSwap
  repeat' (first | with_reducible assumption | intro _ | with_reducible apply kept_ite | with_reducible apply doSwap_kept | split | dsimp only)

theorem swapDue_kept {a2} {a3} (h : Kept p u r s) : Kept p u r (swapDue s a2 a3) := by
  unfold swapDue
  repeat' (first | with_reducible assumption | intro _ | with_reducible apply kept_ite | with_reducible apply takeSwap_kept | with_reducible apply answerSwap_kept | dsimp only)

theorem decideRegion_kept {a2} {a3} (h : Kept p u r s) : Kept p u r (decideRegion s a2 a3) := by
  unfold decideRegion
  repeat' (first | with_reducible assumption | intro _ | with_reducible apply kept_ite | with_reducible apply State.modLoop_kept | dsimp only)

theorem endLoopRun_kept {a2} {a3} {a4} {a5} (h : Kept p u r s) : Kept p u r (endLoopRun s a2 a3 a4 a5) := by
  unfold endLoopRun
  repeat' (first | with_reducible assumption | intro _ | with_reducible apply kept_ite | with_reducible apply returnCredit_kept | with_reducible apply State.modAvg_kept | with_reducible apply endRefs_kept | with_reducible apply State.modLoop_kept | with_reducible apply endWork_kept | split | dsimp only)

theorem answerRange_kept (h : Kept p u r s) : Kept p u r (answerRange s) := by
  unfold answerRange
  repeat' (first | with_reducible assumption | intro _ | with_reducible apply kept_ite | with_reducible apply postOk_kept | split | dsimp only)

theorem dropRange_kept {a2} {a3} (h : Kept p u r s) : Kept p u r (dropRange s a2 a3) := by
  unfold dropRange
  repeat' (first | with_reducible assumption | intro _ | with_reducible apply kept_ite | with_reducible apply State.modLoop_kept | with_reducible apply postBad_kept | split | dsimp only)

theorem requestRange_kept {a2} {a3} {a4} (h : Kept p u r s) : Kept p u r (requestRange s a2 a3 a4) := by
  unfold requestRange
  repeat' (first | with_reducible assumption | intro _ | with_reducible apply kept_ite | with_reducible apply State.modLoop_kept | with_reducible apply switchRange_kept | dsimp only)

theorem tripLive_kept {a2} (h : Kept p u r s) : Kept p u r (tripLive s a2) := by
  unfold tripLive
  repeat' (first | with_reducible assumption | intro _ | with_reducible apply kept_ite | with_reducible apply State.live_kept | dsimp only)

theorem moveForceDac_kept {a2} (h : Kept p u r s) : Kept p u r (moveForceDac s a2) := by
  unfold moveForceDac
  repeat' (first | with_reducible assumption | intro _ | with_reducible apply State.modDacst_kept | dsimp only)

theorem endClip_kept {a2} {a3} (h : Kept p u r s) : Kept p u r (endClip s a2 a3) := by
  unfold endClip
  repeat' (first | with_reducible assumption | intro _ | with_reducible apply kept_ite | with_reducible apply clipEvent_kept | split | with_reducible apply fst_mk | with_reducible refine kept_fst (by with_reducible assumption) ?_ | dsimp only)

theorem haltLoop_kept {a2} {a3} (h : Kept p u r s) : Kept p u r (haltLoop s a2 a3) := by
  unfold haltLoop
  repeat' (first | with_reducible assumption | intro _ | with_reducible apply kept_ite | with_reducible apply endClip_kept | with_reducible apply dropRange_kept | with_reducible apply State.modLoop_kept | with_reducible apply followLeader_kept | with_reducible apply tripLive_kept | with_reducible apply moveForceDac_kept | dsimp only)

theorem freeTelem_kept {a2} (h : Kept p u r s) : Kept p u r (freeTelem s a2) := by
  unfold freeTelem
  repeat' (first | with_reducible assumption | intro _ | with_reducible apply kept_ite | with_reducible apply returnCredit_kept | with_reducible apply State.modStage_kept | dsimp only)

theorem abortFrame_kept {a2} {a3} (h : Kept p u r s) : Kept p u r (abortFrame s a2 a3) := by
  unfold abortFrame
  repeat' (first | with_reducible assumption | intro _ | with_reducible apply freeTelem_kept | with_reducible apply State.modStage_kept | with_reducible apply State.raise_kept | split | dsimp only)

theorem disableStage_kept {a2} (h : Kept p u r s) : Kept p u r (disableStage s a2) := by
  unfold disableStage
  repeat' (first | with_reducible assumption | intro _ | with_reducible apply kept_ite | with_reducible apply kept_foldl | with_reducible apply abortFrame_kept | with_reducible apply State.modStage_kept | dsimp only)

theorem clocheLoop_kept {a2} {a3} (h : Kept p u r s) : Kept p u r (clocheLoop s a2 a3) := by
  unfold clocheLoop
  repeat' (first | with_reducible assumption | intro _ | with_reducible apply kept_ite | with_reducible apply endLoopRun_kept | with_reducible apply endClip_kept | with_reducible apply dropRange_kept | with_reducible apply State.modLoop_kept | with_reducible apply disableStage_kept | with_reducible apply followLeader_kept | with_reducible apply tripLive_kept | with_reducible apply moveForceDac_kept | dsimp only)

theorem releaseLoop_kept {a2} (h : Kept p u r s) : Kept p u r (releaseLoop s a2) := by
  unfold releaseLoop
  repeat' (first | with_reducible assumption | intro _ | with_reducible apply kept_ite | with_reducible apply State.modLoop_kept | dsimp only)

theorem clocheBedLoops_kept {a2} {a3} (h : Kept p u r s) : Kept p u r (clocheBedLoops s a2 a3) := by
  unfold clocheBedLoops
  repeat' (first | with_reducible assumption | intro _ | with_reducible apply kept_foldl | with_reducible apply clocheLoop_kept | dsimp only)

theorem sweepRecord_kept {a2} {a3} {a4} (h : Kept p u r s) : KeptFst p u r (sweepRecord s a2 a3 a4) := by
  unfold sweepRecord
  repeat' (first | with_reducible assumption | intro _ | with_reducible apply kept_ite | with_reducible apply kept_foldl | with_reducible apply fst_ite | with_reducible apply fst_foldl | with_reducible apply foldl_fst | with_reducible apply placeHeld_kept | with_reducible refine kept_of_fst (placeHeld_kept ?_) | with_reducible refine kept_fst (by with_reducible assumption) (placeHeld_kept ?_) | split | with_reducible apply fst_mk | with_reducible refine kept_fst (by with_reducible assumption) ?_ | dsimp only)

theorem sweepLeave_kept {a2} {a3} (h : Kept p u r s) : Kept p u r (sweepLeave s a2 a3) := by
  unfold sweepLeave
  repeat' (first | with_reducible assumption | intro _ | with_reducible apply kept_ite | with_reducible apply modSweep_kept | with_reducible apply State.modProg_kept | with_reducible apply State.modAvg_kept | dsimp only)

theorem sweepCredit_kept {a2} {a3} (h : Kept p u r s) : KeptFst p u r (sweepCredit s a2 a3) := by
  unfold sweepCredit
  repeat' (first | with_reducible assumption | intro _ | with_reducible apply kept_ite | with_reducible apply kept_foldl | with_reducible apply fst_ite | with_reducible apply fst_foldl | with_reducible apply foldl_fst | with_reducible refine reserve_kept ?_ _ (by with_reducible assumption) | with_reducible apply modSweep_kept | with_reducible apply dropRecord_kept | with_reducible apply askCredit_kept | with_reducible refine kept_of_fst (askCredit_kept ?_) | with_reducible refine kept_fst (by with_reducible assumption) (askCredit_kept ?_) | split | with_reducible apply fst_mk | with_reducible refine kept_fst (by with_reducible assumption) ?_ | dsimp only)

theorem sweepNext_kept {a2} {a3} {a4} (h : Kept p u r s) : Kept p u r (sweepNext s a2 a3 a4) := by
  unfold sweepNext
  repeat' (first | with_reducible assumption | intro _ | with_reducible apply kept_ite | with_reducible apply fst_ite | with_reducible apply sweepCredit_kept | with_reducible refine kept_of_fst (sweepCredit_kept ?_) | with_reducible refine kept_fst (by with_reducible assumption) (sweepCredit_kept ?_) | with_reducible apply modSweep_kept | with_reducible apply State.modAvg_kept | with_reducible apply requestRange_kept | with_reducible apply State.modLoop_kept | split | with_reducible apply fst_mk | with_reducible refine kept_fst (by with_reducible assumption) ?_ | dsimp only)

theorem sweepAdvance_kept {a2} {a3} (h : Kept p u r s) : Kept p u r (sweepAdvance s a2 a3) := by
  unfold sweepAdvance
  repeat' (first | with_reducible assumption | intro _ | with_reducible apply kept_ite | with_reducible apply modSweep_kept | with_reducible apply sweepLeave_kept | with_reducible apply sweepNext_kept | with_reducible apply State.modLoop_kept | with_reducible apply endLoopRun_kept | split | dsimp only)

theorem sweepClose_kept {a2} {a3} (h : Kept p u r s) : Kept p u r (sweepClose s a2 a3) := by
  unfold sweepClose
  repeat' (first | with_reducible assumption | intro _ | with_reducible apply kept_ite | with_reducible apply fst_ite | with_reducible apply sweepRecord_kept | with_reducible refine kept_of_fst (sweepRecord_kept ?_) | with_reducible refine kept_fst (by with_reducible assumption) (sweepRecord_kept ?_) | with_reducible apply State.modAvg_kept | with_reducible apply endLoopRun_kept | split | with_reducible apply fst_mk | with_reducible refine kept_fst (by with_reducible assumption) ?_ | dsimp only)

theorem profileAdvance_kept {a2} {a3} (h : Kept p u r s) : Kept p u r (profileAdvance s a2 a3) := by
  unfold profileAdvance
  repeat' (first | with_reducible assumption | intro _ | with_reducible apply kept_ite | with_reducible apply State.modLoop_kept | split | dsimp only)

theorem waveAdvance_kept {a2} {a3} (h : Kept p u r s) : Kept p u r (waveAdvance s a2 a3) := by
  unfold waveAdvance
  repeat' (first | with_reducible assumption | intro _ | with_reducible apply kept_ite | with_reducible apply fst_ite | with_reducible apply State.modLoop_kept | with_reducible apply emitRecord_kept | with_reducible refine kept_of_fst (emitRecord_kept ?_) | with_reducible refine kept_fst (by with_reducible assumption) (emitRecord_kept ?_) | with_reducible apply State.raise_kept | with_reducible apply State.modProg_kept | split | with_reducible apply fst_mk | with_reducible refine kept_fst (by with_reducible assumption) ?_ | dsimp only)

theorem sineChange_kept {a2} {a3} (h : Kept p u r s) : Kept p u r (sineChange s a2 a3) := by
  unfold sineChange
  repeat' (first | with_reducible assumption | intro _ | with_reducible apply kept_ite | with_reducible apply State.modLoop_kept | split | dsimp only)

theorem sineAdvance_kept {a2} {a3} (h : Kept p u r s) : Kept p u r (sineAdvance s a2 a3) := by
  unfold sineAdvance
  repeat' (first | with_reducible assumption | intro _ | with_reducible apply kept_ite | with_reducible apply sineChange_kept | with_reducible apply State.modLoop_kept | with_reducible apply State.modProg_kept | split | with_reducible apply fst_mk | with_reducible refine kept_fst (by with_reducible assumption) ?_ | dsimp only)

theorem catchRunEnd_kept {a2} (h : Kept p u r s) : Kept p u r (catchRunEnd s a2) := by
  unfold catchRunEnd
  repeat' (first | with_reducible assumption | intro _ | with_reducible apply kept_ite | with_reducible apply endLoopRun_kept | with_reducible apply State.modLoop_kept | split | dsimp only)

theorem advanceSource_kept {a2} {a3} (h : Kept p u r s) : Kept p u r (advanceSource s a2 a3) := by
  unfold advanceSource
  repeat' (first | with_reducible assumption | intro _ | with_reducible apply sweepAdvance_kept | with_reducible apply profileAdvance_kept | with_reducible apply waveAdvance_kept | with_reducible apply sineAdvance_kept | split | dsimp only)

end Sys2Proof.Machine
end

