-- ==== Sys2Proof/Laws/KeptLoops.lean ====
section
/-! SUPPORT. Machine/Loops.lean: each operation keeps what `Kept` says. -/

set_option linter.unusedVariables false
set_option linter.unusedTactic false
set_option linter.unreachableTactic false

namespace Sys2Proof.Machine

variable {p : List Instr} {u : BitVec 64} {r : Nat} {s : State}

theorem lawReturnNow_kept {a2} (h : Kept p u r s) : Kept p u r (lawReturnNow s a2) := by
  unfold lawReturnNow
  repeat' (first | with_reducible assumption | intro _ | with_reducible apply kept_ite | with_reducible apply loopEvent_kept | with_reducible apply tripLive_kept | with_reducible apply State.modLoop_kept | split | with_reducible apply fst_mk | with_reducible refine kept_fst (by with_reducible assumption) ?_ | dsimp only)

theorem execLawReturn_kept {a1} (h : Kept p u r s) : KeptOut p u r (execLawReturn a1 s) := by
  unfold execLawReturn
  apply keptOut_next
  repeat' (first | with_reducible assumption | intro _ | with_reducible apply lawReturnNow_kept)

theorem complyTripNow_kept {a2} (h : Kept p u r s) : Kept p u r (complyTripNow s a2) := by
  unfold complyTripNow
  repeat' (first | with_reducible assumption | intro _ | with_reducible apply kept_ite | with_reducible apply State.modLoop_kept | with_reducible apply State.raise_kept | dsimp only)

theorem execComplyTrip_kept {a1} (h : Kept p u r s) : KeptOut p u r (execComplyTrip a1 s) := by
  unfold execComplyTrip
  apply keptOut_next
  repeat' (first | with_reducible assumption | intro _ | with_reducible apply complyTripNow_kept)

theorem autoRangeNow_kept {a2} (h : Kept p u r s) : Kept p u r (autoRangeNow s a2) := by
  unfold autoRangeNow
  repeat' (first | with_reducible assumption | intro _ | with_reducible apply requestRange_kept | with_reducible apply State.modLoop_kept | split | dsimp only)

theorem execAutoRangeDecision_kept {a1} (h : Kept p u r s) : KeptOut p u r (execAutoRangeDecision a1 s) := by
  unfold execAutoRangeDecision
  apply keptOut_next
  repeat' (first | with_reducible assumption | intro _ | with_reducible apply autoRangeNow_kept)

theorem settleDone_kept {a2} {a3} {a4} (h : Kept p u r s) : Kept p u r (settleDone s a2 a3 a4) := by
  unfold settleDone
  repeat' (first | with_reducible assumption | intro _ | with_reducible apply kept_ite | with_reducible apply State.modLoop_kept | with_reducible apply loopEvent_kept | with_reducible apply answerRange_kept | split | dsimp only)

theorem execRangeSettleDone_kept {a1} (h : Kept p u r s) : KeptOut p u r (execRangeSettleDone a1 s) := by
  unfold execRangeSettleDone
  apply keptOut_next
  repeat' (first | with_reducible assumption | intro _ | with_reducible apply kept_ite | with_reducible apply settleDone_kept | with_reducible apply State.reach_kept | split | dsimp only)

theorem execCoefSwapDue_kept {a1} (h : Kept p u r s) : KeptOut p u r (execCoefSwapDue a1 s) := by
  unfold execCoefSwapDue
  apply keptOut_next
  repeat' (first | with_reducible assumption | intro _ | with_reducible apply kept_ite | with_reducible apply swapDue_kept | with_reducible apply State.reach_kept | split | dsimp only)

theorem dissLive_kept {a2} (h : Kept p u r s) : Kept p u r (dissLive s a2) := by
  unfold dissLive
  repeat' (first | with_reducible assumption | intro _ | with_reducible apply kept_ite | with_reducible apply State.live_kept)

theorem execStageDiss_kept {a1} (h : Kept p u r s) : KeptOut p u r (execStageDiss a1 s) := by
  unfold execStageDiss
  apply keptOut_next
  repeat' (first | with_reducible assumption | intro _ | with_reducible apply kept_ite | with_reducible apply State.modLoop_kept | with_reducible apply State.raise_kept | dsimp only)

theorem execChipDissUpdate_kept (h : Kept p u r s) : KeptOut p u r (execChipDissUpdate s) := by
  unfold execChipDissUpdate
  apply keptOut_next
  repeat' (first | with_reducible assumption | intro _ | with_reducible apply kept_ite | with_reducible apply kept_foldl | with_reducible apply State.reach_kept | with_reducible apply State.modLoop_kept | (fail_if_no_progress with_reducible (apply kept_mk; rfl; rfl; rfl; rfl; rfl; rfl)) | split | dsimp only)

theorem execSweepStep_kept {a1} (h : Kept p u r s) : KeptOut p u r (execSweepStep a1 s) := by
  unfold execSweepStep
  apply keptOut_next
  repeat' (first | with_reducible assumption | intro _ | with_reducible apply kept_ite | with_reducible apply sweepAdvance_kept | with_reducible apply State.reach_kept | split | dsimp only)

theorem deliver_kept {a2} {a3} {a4} (h : Kept p u r s) : Kept p u r (deliver s a2 a3 a4) := by
  unfold deliver
  repeat' (first | with_reducible assumption | intro _ | with_reducible apply State.modLoop_kept | with_reducible apply sweepClose_kept | with_reducible apply feedLoop_kept | dsimp only)

theorem dissipate_kept {a2} (h : Kept p u r s) : Kept p u r (dissipate s a2) := by
  unfold dissipate
  repeat' (first | with_reducible assumption | intro _ | with_reducible apply kept_ite | with_reducible apply State.modLoop_kept | with_reducible apply State.raise_kept | with_reducible apply dissLive_kept | dsimp only)

theorem rangeStep_kept {a2} {a3} (h : Kept p u r s) : Kept p u r (rangeStep s a2 a3) := by
  unfold rangeStep
  repeat' (first | with_reducible assumption | intro _ | with_reducible apply kept_ite | with_reducible apply settleDone_kept | with_reducible apply State.modLoop_kept | with_reducible apply switchRange_kept | with_reducible apply answerRange_kept | split | dsimp only)

theorem applyForce_kept {a2} {a3} (h : Kept p u r s) : Kept p u r (applyForce s a2 a3) := by
  unfold applyForce
  repeat' (first | with_reducible assumption | intro _ | with_reducible apply kept_ite | with_reducible apply State.modLoop_kept | with_reducible apply haltLoop_kept | with_reducible apply followLeader_kept | with_reducible apply endClip_kept | with_reducible apply tripLive_kept | split | dsimp only)

theorem execLoopForceDue_kept {a1} (h : Kept p u r s) : KeptOut p u r (execLoopForceDue a1 s) := by
  unfold execLoopForceDue
  apply keptOut_next
  repeat' (first | with_reducible assumption | intro _ | with_reducible apply kept_ite | with_reducible apply applyForce_kept | with_reducible apply State.reach_kept | split | dsimp only)

theorem execLoopStartMeasured_kept {a1} {a2} (h : Kept p u r s) : KeptOut p u r (execLoopStartMeasured a1 a2 s) := by
  unfold execLoopStartMeasured
  apply keptOut_next
  repeat' (first | with_reducible assumption | intro _ | with_reducible apply State.reach_kept | with_reducible apply followLeader_kept | with_reducible apply State.modLoop_kept | split | dsimp only)

theorem recordHandoff_kept {a2} {a3} (h : Kept p u r s) : Kept p u r (recordHandoff s a2 a3) := by
  unfold recordHandoff
  repeat' (first | with_reducible assumption | intro _ | with_reducible apply kept_ite | with_reducible apply loopEvent_kept | with_reducible apply State.modLoop_kept | split | with_reducible apply fst_mk | with_reducible refine kept_fst (by with_reducible assumption) ?_ | dsimp only)

theorem declareLaw_kept {a2} {a3} {a4} (h : Kept p u r s) : Kept p u r (declareLaw s a2 a3 a4) := by
  unfold declareLaw
  repeat' (first | with_reducible assumption | intro _ | with_reducible apply kept_ite | with_reducible apply State.modLoop_kept | with_reducible apply loopEvent_kept | with_reducible apply clipEvent_kept | split | with_reducible apply fst_mk | with_reducible refine kept_fst (by with_reducible assumption) ?_ | dsimp only)

theorem autoCount_kept {a2} {a3} (h : Kept p u r s) : Kept p u r (autoCount s a2 a3) := by
  unfold autoCount
  repeat' (first | with_reducible assumption | intro _ | with_reducible apply kept_ite | with_reducible apply State.modLoop_kept | dsimp only)

theorem chargeLeave_kept {a2} {a3} (h : Kept p u r s) : Kept p u r (chargeLeave s a2 a3) := by
  unfold chargeLeave
  repeat' (first | with_reducible assumption | intro _ | with_reducible apply kept_ite | with_reducible apply endLoopRun_kept | with_reducible apply clipEvent_kept | with_reducible apply State.modLoop_kept | dsimp only)

theorem firstRegion_kept {a2} (h : Kept p u r s) : Kept p u r (firstRegion s a2) := by
  unfold firstRegion
  repeat' (first | with_reducible assumption | intro _ | with_reducible apply kept_ite | with_reducible apply State.modLoop_kept | split | with_reducible apply fst_mk | with_reducible refine kept_fst (by with_reducible assumption) ?_ | dsimp only)

theorem catchUp_kept {a2} (h : Kept p u r s) : Kept p u r (catchUp s a2) := by
  unfold catchUp
  repeat' (first | with_reducible assumption | intro _ | with_reducible apply catchRunEnd_kept | with_reducible apply autoRangeNow_kept | with_reducible apply complyTripNow_kept | with_reducible apply lawReturnNow_kept)

theorem whileRunning_kept {a2} {a3} (h : Kept p u r s) (a3h : ∀ t, Kept p u r t → Kept p u r (a3 t)) : Kept p u r (whileRunning s a2 a3) := by
  unfold whileRunning
  repeat' (first | with_reducible assumption | intro _ | with_reducible apply kept_ite | apply a3h | dsimp only)

theorem lawSteps_kept {a2} {a3} {a4} (h : Kept p u r s) : Kept p u r (lawSteps s a2 a3 a4) := by
  unfold lawSteps
  repeat' (first | with_reducible assumption | intro _ | with_reducible apply kept_ite | with_reducible apply fst_ite | with_reducible apply firstRegion_kept | with_reducible apply decideRegion_kept | with_reducible apply autoCount_kept | with_reducible apply regulate_kept | with_reducible refine kept_of_fst (regulate_kept ?_) | with_reducible refine kept_fst (by with_reducible assumption) (regulate_kept ?_) | with_reducible apply declareLaw_kept | with_reducible apply fst_mk | dsimp only)

theorem sampleSteps_kept {a2} {a3} {a4} (h : Kept p u r s) : Kept p u r (sampleSteps s a2 a3 a4) := by
  unfold sampleSteps
  repeat' (first | with_reducible assumption | intro _ | with_reducible apply kept_ite | with_reducible apply applyForce_kept | with_reducible apply swapDue_kept | with_reducible apply rangeStep_kept | with_reducible apply deliver_kept | with_reducible apply whileRunning_kept | with_reducible apply advanceSource_kept | with_reducible apply chargeLeave_kept | with_reducible apply recordHandoff_kept | with_reducible apply lawSteps_kept | dsimp only)

theorem clampOutput_kept {a2} (h : Kept p u r s) : Kept p u r (clampOutput s a2) := by
  unfold clampOutput
  repeat' (first | with_reducible assumption | intro _ | with_reducible apply kept_ite | with_reducible apply State.modLoop_kept | dsimp only)

theorem execLoopSample_kept {a1} {a2} (h : Kept p u r s) : KeptOut p u r (execLoopSample a1 a2 s) := by
  unfold execLoopSample
  apply keptOut_next
  repeat' (first | with_reducible assumption | intro _ | with_reducible apply kept_ite | with_reducible apply fst_ite | with_reducible apply catchUp_kept | with_reducible apply State.reach_kept | with_reducible apply State.modLoop_kept | with_reducible apply deliver_kept | with_reducible apply swapDue_kept | with_reducible apply regulate_kept | with_reducible refine kept_of_fst (regulate_kept ?_) | with_reducible refine kept_fst (by with_reducible assumption) (regulate_kept ?_) | with_reducible apply sampleSteps_kept | with_reducible apply dissipate_kept | with_reducible apply clampOutput_kept | with_reducible apply followLeader_kept | split | with_reducible apply fst_mk | with_reducible refine kept_fst (by with_reducible assumption) ?_ | dsimp only)

theorem configLoop_kept {a2} {a3} (h : Kept p u r s) : Kept p u r (configLoop s a2 a3) := by
  unfold configLoop
  repeat' (first | with_reducible assumption | intro _ | with_reducible apply kept_foldl | with_reducible apply State.modLoop_kept | with_reducible apply followLeader_kept | dsimp only)

theorem execLoopConfig_kept (h : Kept p u r s) : KeptOut p u r (execLoopConfig s) := by
  unfold execLoopConfig
  apply keptOut_next
  repeat' (first | with_reducible assumption | intro _ | with_reducible apply kept_ite | with_reducible apply kept_foldl | with_reducible apply onCommand_kept | with_reducible apply checked_kept | with_reducible apply postOk_kept | with_reducible apply configLoop_kept | dsimp only)

theorem execLoopConfigRead_kept (h : Kept p u r s) : KeptOut p u r (execLoopConfigRead s) := by
  unfold execLoopConfigRead
  apply keptOut_next
  repeat' (first | with_reducible assumption | intro _ | with_reducible apply onCommand_kept | with_reducible apply checked_kept | with_reducible apply postOk_kept | dsimp only)

theorem execLoopForce_kept (h : Kept p u r s) : KeptOut p u r (execLoopForce s) := by
  unfold execLoopForce
  apply keptOut_next
  repeat' (first | with_reducible assumption | intro _ | with_reducible apply kept_ite | with_reducible apply kept_foldl | with_reducible apply onCommand_kept | with_reducible apply checked_kept | with_reducible apply State.modLoop_kept | with_reducible apply postOk_kept | dsimp only)

theorem execLoopRange_kept (h : Kept p u r s) : KeptOut p u r (execLoopRange s) := by
  unfold execLoopRange
  apply keptOut_next
  repeat' (first | with_reducible assumption | intro _ | with_reducible apply kept_ite | with_reducible apply kept_foldl | with_reducible apply fst_foldl | with_reducible apply foldl_fst | with_reducible apply onCommand_kept | with_reducible apply checked_kept | with_reducible apply State.modLoop_kept | with_reducible apply requestRange_kept | with_reducible apply waitFor_kept | with_reducible apply postOk_kept | dsimp only)

theorem execLoopComply_kept (h : Kept p u r s) : KeptOut p u r (execLoopComply s) := by
  unfold execLoopComply
  apply keptOut_next
  repeat' (first | with_reducible assumption | intro _ | with_reducible apply kept_ite | with_reducible apply kept_foldl | with_reducible apply onCommand_kept | with_reducible apply checked_kept | with_reducible apply postOk_kept | with_reducible apply State.modLoop_kept | dsimp only)

theorem execSweepLoad_kept (h : Kept p u r s) : KeptOut p u r (execSweepLoad s) := by
  unfold execSweepLoad
  apply keptOut_next
  repeat' (first | with_reducible assumption | intro _ | with_reducible apply kept_foldl | with_reducible apply onCommand_kept | with_reducible apply checked_kept | with_reducible apply postOk_kept | with_reducible apply State.modSwp_kept | dsimp only)

theorem startSources_kept {a2} {a3} {a4} {a5} (h : Kept p u r s) : Kept p u r (startSources s a2 a3 a4 a5) := by
  unfold startSources
  repeat' (first | with_reducible assumption | intro _ | with_reducible apply kept_ite | with_reducible apply kept_foldl | with_reducible apply State.modLoop_kept | with_reducible apply beginWork_kept | with_reducible apply accept_kept | dsimp only)

theorem execSweepRun_kept (h : Kept p u r s) : KeptOut p u r (execSweepRun s) := by
  unfold execSweepRun
  apply keptOut_next
  repeat' (first | with_reducible assumption | intro _ | with_reducible apply kept_ite | with_reducible apply onCommand_kept | with_reducible apply postBad_kept | with_reducible apply postResponse_kept | with_reducible apply checked_kept | with_reducible apply startSources_kept | split | dsimp only)

end Sys2Proof.Machine
end

