-- ==== Sys2Proof/Laws/KeptCalOps.lean ====
section
/-! SUPPORT. Machine/CalOps.lean: each operation keeps what `Kept` says. -/

set_option linter.unusedVariables false
set_option linter.unusedTactic false
set_option linter.unreachableTactic false

namespace Sys2Proof.Machine

variable {p : List Instr} {u : BitVec 64} {r : Nat} {s : State}

theorem freezeLoop_kept {a2} (h : Kept p u r s) : Kept p u r (freezeLoop s a2) := by
  unfold freezeLoop
  repeat' (first | with_reducible assumption | intro _ | with_reducible apply kept_ite | with_reducible apply dropRange_kept | with_reducible apply State.modLoop_kept | dsimp only)

theorem thawLoop_kept {a2} (h : Kept p u r s) : Kept p u r (thawLoop s a2) := by
  unfold thawLoop
  repeat' (first | with_reducible assumption | intro _ | with_reducible apply kept_ite | with_reducible apply State.modLoop_kept | dsimp only)

theorem releaseScopes_kept {a2} (h : Kept p u r s) : Kept p u r (releaseScopes s a2) := by
  unfold releaseScopes
  repeat' (first | with_reducible assumption | intro _ | with_reducible apply kept_ite | with_reducible apply kept_foldl | with_reducible apply thawLoop_kept | with_reducible apply syncBeds_kept | with_reducible apply resumeClocks_kept | (fail_if_no_progress with_reducible (apply kept_mk; rfl; rfl; rfl; rfl; rfl; rfl)) | dsimp only)

theorem endCal_kept {a2} {a3} {a4} {a5} {a6} {a7} (h : Kept p u r s) : Kept p u r (endCal s a2 a3 a4 a5 a6 a7) := by
  unfold endCal
  repeat' (first | with_reducible assumption | intro _ | with_reducible apply answerAbort_kept | with_reducible apply releaseScopes_kept | with_reducible apply endWork_kept | dsimp only)

theorem interruptCal_kept {a2} {a3} {a4} (h : Kept p u r s) : Kept p u r (interruptCal s a2 a3 a4) := by
  unfold interruptCal
  repeat' (first | with_reducible assumption | intro _ | with_reducible apply kept_ite | with_reducible apply endCal_kept | with_reducible apply State.takeFree_kept | split | dsimp only)

end Sys2Proof.Machine
end

