-- ==== Sys2Proof/Laws/KeptClocheOps.lean ====
section
/-! SUPPORT. Machine/ClocheOps.lean: each operation keeps what `Kept` says. -/

set_option linter.unusedVariables false
set_option linter.unusedTactic false
set_option linter.unreachableTactic false

namespace Sys2Proof.Machine

variable {p : List Instr} {u : BitVec 64} {r : Nat} {s : State}

theorem moveDacs_kept {a2} (h : Kept p u r s) : Kept p u r (moveDacs s a2) := by
  unfold moveDacs
  repeat' (first | with_reducible assumption | intro _ | with_reducible apply kept_foldl | with_reducible apply fst_foldl | with_reducible apply foldl_fst | with_reducible apply State.modDacst_kept | dsimp only)

theorem startBed_kept {a2} {a3} {a4} (h : Kept p u r s) : Kept p u r (startBed s a2 a3 a4) := by
  unfold startBed
  repeat' (first | with_reducible assumption | intro _ | with_reducible apply kept_ite | with_reducible apply kept_foldl | with_reducible apply State.modBedc_kept | with_reducible apply clocheDrivers_kept | with_reducible apply moveDacs_kept | with_reducible apply latchStop_kept | with_reducible apply clocheBedLoops_kept | dsimp only)

theorem clocheBed_kept {a2} {a3} {a4} {a5} (h : Kept p u r s) : Kept p u r (clocheBed s a2 a3 a4 a5) := by
  unfold clocheBed
  repeat' (first | with_reducible assumption | intro _ | with_reducible apply startBed_kept | with_reducible apply State.modBedc_kept | dsimp only)

theorem clocheChip_kept {a2} {a3} (h : Kept p u r s) : Kept p u r (clocheChip s a2 a3) := by
  unfold clocheChip
  repeat' (first | with_reducible assumption | intro _ | with_reducible apply kept_foldl | with_reducible apply startBed_kept | (fail_if_no_progress with_reducible (apply kept_mk; rfl; rfl; rfl; rfl; rfl; rfl)) | dsimp only)

theorem clocheChain_kept {a2} {a3} (h : Kept p u r s) : Kept p u r (clocheChain s a2 a3) := by
  unfold clocheChain
  repeat' (first | with_reducible assumption | intro _ | with_reducible apply kept_foldl | with_reducible apply startBed_kept | (fail_if_no_progress with_reducible (apply kept_mk; rfl; rfl; rfl; rfl; rfl; rfl)) | dsimp only)

theorem originate_kept {a2} {a3} (h : Kept p u r s) : Kept p u r (originate s a2 a3) := by
  unfold originate
  repeat' (first | with_reducible assumption | intro _ | with_reducible apply kept_ite | with_reducible apply enqueue_kept | (fail_if_no_progress with_reducible (apply kept_mk; rfl; rfl; rfl; rfl; rfl; rfl)) | dsimp only)

theorem clocheHeavy_kept {a2} {a3} {a4} (h : Kept p u r s) : Kept p u r (clocheHeavy s a2 a3 a4) := by
  unfold clocheHeavy
  repeat' (first | with_reducible assumption | intro _ | with_reducible apply kept_foldl | with_reducible apply State.modLoopc_kept | with_reducible apply State.modBedc_kept | with_reducible apply clocheLoop_kept | dsimp only)

theorem leaveBed_kept {a2} (h : Kept p u r s) : Kept p u r (leaveBed s a2) := by
  unfold leaveBed
  repeat' (first | with_reducible assumption | intro _ | with_reducible apply kept_ite | with_reducible apply kept_foldl | with_reducible apply fst_foldl | with_reducible apply foldl_fst | with_reducible apply State.modBedc_kept | with_reducible apply heldDrivers_kept | with_reducible apply moveDacs_kept | with_reducible apply State.modPinst_kept | with_reducible apply releaseClocks_kept | with_reducible apply releaseLoop_kept | dsimp only)

theorem clearBedCauses_kept {a2} (h : Kept p u r s) : Kept p u r (clearBedCauses s a2) := by
  unfold clearBedCauses
  repeat' (first | with_reducible assumption | intro _ | with_reducible apply kept_foldl | with_reducible apply State.modBedc_kept | with_reducible apply State.modLoopc_kept | dsimp only)

theorem releaseCauses_kept {a2} {a3} {a4} (h : Kept p u r s) : Kept p u r (releaseCauses s a2 a3 a4) := by
  unfold releaseCauses
  repeat' (first | with_reducible assumption | intro _ | with_reducible apply kept_ite | with_reducible apply kept_foldl | with_reducible apply clearBedCauses_kept | with_reducible apply leaveBed_kept | (fail_if_no_progress with_reducible (apply kept_mk; rfl; rfl; rfl; rfl; rfl; rfl)) | dsimp only)

theorem commandCloche_kept {a2} {a3} {a4} (h : Kept p u r s) : Kept p u r (commandCloche s a2 a3 a4) := by
  unfold commandCloche
  repeat' (first | with_reducible assumption | intro _ | with_reducible apply kept_ite | with_reducible apply kept_foldl | with_reducible apply originate_kept | with_reducible apply clocheChain_kept | with_reducible apply clocheChip_kept | with_reducible apply clocheBed_kept | dsimp only)

theorem execClocheSettled_kept {a1} (h : Kept p u r s) : KeptOut p u r (execClocheSettled a1 s) := by
  unfold execClocheSettled
  apply keptOut_next
  repeat' (first | with_reducible assumption | intro _ | with_reducible apply kept_ite | with_reducible apply State.modBedc_kept | dsimp only)

end Sys2Proof.Machine
end

