-- ==== Sys2Proof/Laws/KeptThermalOps.lean ====
section
/-! SUPPORT. Machine/ThermalOps.lean: each operation keeps what `Kept` says. -/

set_option linter.unusedVariables false
set_option linter.unusedTactic false
set_option linter.unreachableTactic false

namespace Sys2Proof.Machine

variable {p : List Instr} {u : BitVec 64} {r : Nat} {s : State}

theorem countLevel_kept {a2} (h : Kept p u r s) : Kept p u r (countLevel s a2) := by
  unfold countLevel
  repeat' (first | with_reducible assumption | intro _ | with_reducible apply kept_ite | with_reducible apply State.modLevel_kept | split | with_reducible apply fst_mk | with_reducible refine kept_fst (by with_reducible assumption) ?_ | dsimp only)

theorem setHeld_kept {a2} {a3} (h : Kept p u r s) : Kept p u r (setHeld s a2 a3) := by
  unfold setHeld
  repeat' (first | with_reducible assumption | intro _ | with_reducible apply State.modLevel_kept | dsimp only)

theorem throttleMessage_kept {a2} (h : Kept p u r s) : Kept p u r (throttleMessage s a2) := by
  unfold throttleMessage
  repeat' (first | with_reducible assumption | intro _ | with_reducible apply sendRoot_kept)

theorem throttleChanged_kept {a2} (h : Kept p u r s) : Kept p u r (throttleChanged s a2) := by
  unfold throttleChanged
  repeat' (first | with_reducible assumption | intro _ | with_reducible apply State.modZone_kept | with_reducible apply throttleMessage_kept | with_reducible apply State.live_kept | dsimp only)

theorem startGrace_kept {a2} {a3} (h : Kept p u r s) : Kept p u r (startGrace s a2 a3) := by
  unfold startGrace
  repeat' (first | with_reducible assumption | intro _ | with_reducible apply kept_ite | with_reducible apply State.modZone_kept | dsimp only)

theorem dropGrace_kept {a2} {a3} (h : Kept p u r s) : Kept p u r (dropGrace s a2 a3) := by
  unfold dropGrace
  repeat' (first | with_reducible assumption | intro _ | with_reducible apply kept_ite | with_reducible apply State.modZone_kept | dsimp only)

theorem enforceT3_kept {a2} (h : Kept p u r s) : Kept p u r (enforceT3 s a2) := by
  unfold enforceT3
  repeat' (first | with_reducible assumption | intro _ | with_reducible apply kept_ite | with_reducible apply kept_foldl | with_reducible apply latchStop_kept | with_reducible apply clocheHeavy_kept | dsimp only)

theorem endGrace_kept {a2} {a3} (h : Kept p u r s) : Kept p u r (endGrace s a2 a3) := by
  unfold endGrace
  repeat' (first | with_reducible assumption | intro _ | with_reducible apply kept_ite | with_reducible apply State.modZone_kept | with_reducible apply enforceT3_kept | split | dsimp only)

theorem enterWarn_kept {a2} (h : Kept p u r s) : Kept p u r (enterWarn s a2) := by
  unfold enterWarn
  repeat' (first | with_reducible assumption | intro _ | with_reducible apply kept_ite | with_reducible apply setHeld_kept | with_reducible apply State.modZone_kept | with_reducible apply State.noteSet_kept | with_reducible apply State.raise_kept | dsimp only)

theorem enterThrottle_kept {a2} {a3} (h : Kept p u r s) : Kept p u r (enterThrottle s a2 a3) := by
  unfold enterThrottle
  repeat' (first | with_reducible assumption | intro _ | with_reducible apply kept_foldl | with_reducible apply enterWarn_kept | with_reducible apply startGrace_kept | with_reducible apply setHeld_kept | with_reducible apply throttleChanged_kept | with_reducible apply State.raise_kept | dsimp only)

theorem clocheLive_kept (h : Kept p u r s) : Kept p u r (clocheLive s) := by
  unfold clocheLive
  repeat' (first | with_reducible assumption | intro _ | with_reducible apply State.live_kept | dsimp only)

theorem enterShutdown_kept (h : Kept p u r s) : Kept p u r (enterShutdown s) := by
  unfold enterShutdown
  repeat' (first | with_reducible assumption | intro _ | with_reducible apply kept_ite | with_reducible apply setHeld_kept | with_reducible apply State.raise_kept | with_reducible apply clocheChip_kept | with_reducible apply interruptCal_kept | with_reducible apply State.modTripWord_kept | (fail_if_no_progress with_reducible (apply kept_mk; rfl; rfl; rfl; rfl; rfl; rfl)) | split | with_reducible apply fst_mk | with_reducible refine kept_fst (by with_reducible assumption) ?_ | dsimp only)

theorem enterLevel_kept {a2} (h : Kept p u r s) : Kept p u r (enterLevel s a2) := by
  unfold enterLevel
  repeat' (first | with_reducible assumption | intro _ | with_reducible apply kept_ite | with_reducible apply kept_foldl | with_reducible apply enterWarn_kept | with_reducible apply enterThrottle_kept | with_reducible apply clocheBed_kept | with_reducible apply setHeld_kept | with_reducible apply State.raise_kept | with_reducible apply clocheChip_kept | with_reducible apply clocheHeavy_kept | with_reducible apply enterShutdown_kept | split | dsimp only)

theorem exitLevel_kept {a2} (h : Kept p u r s) : Kept p u r (exitLevel s a2) := by
  unfold exitLevel
  repeat' (first | with_reducible assumption | intro _ | with_reducible apply kept_ite | with_reducible apply kept_foldl | with_reducible apply setHeld_kept | with_reducible apply State.live_kept | with_reducible apply dropGrace_kept | with_reducible apply throttleChanged_kept | with_reducible apply clocheLive_kept | split | dsimp only)

theorem enterDue_kept {a2} (h : Kept p u r s) : Kept p u r (enterDue s a2) := by
  unfold enterDue
  repeat' (first | with_reducible assumption | intro _ | with_reducible apply kept_ite | with_reducible apply kept_foldl | with_reducible apply enterLevel_kept | dsimp only)

theorem exitDue_kept {a2} (h : Kept p u r s) : Kept p u r (exitDue s a2) := by
  unfold exitDue
  repeat' (first | with_reducible assumption | intro _ | with_reducible apply kept_ite | with_reducible apply exitLevel_kept)

theorem brokenLive_kept (h : Kept p u r s) : Kept p u r (brokenLive s) := by
  unfold brokenLive
  repeat' (first | with_reducible assumption | intro _ | with_reducible apply State.live_kept | dsimp only)

theorem restartExits_kept {a2} (h : Kept p u r s) : Kept p u r (restartExits s a2) := by
  unfold restartExits
  repeat' (first | with_reducible assumption | intro _ | with_reducible apply kept_foldl | with_reducible apply State.modLevel_kept | split | dsimp only)

theorem chargeInvalid_kept {a2} (h : Kept p u r s) : Kept p u r (chargeInvalid s a2) := by
  unfold chargeInvalid
  repeat' (first | with_reducible assumption | intro _ | with_reducible apply State.modCharge_kept | dsimp only)

theorem brokenDue_kept {a2} (h : Kept p u r s) : Kept p u r (brokenDue s a2) := by
  unfold brokenDue
  repeat' (first | with_reducible assumption | intro _ | with_reducible apply kept_ite | with_reducible apply kept_foldl | with_reducible apply State.modSensor_kept | with_reducible apply State.raise_kept | with_reducible apply restartExits_kept | with_reducible apply clocheBed_kept | with_reducible apply enterLevel_kept | with_reducible apply State.modTherm_kept | with_reducible apply chargeInvalid_kept | with_reducible apply clocheHeavy_kept | split | dsimp only)

theorem recoverDue_kept {a2} (h : Kept p u r s) : Kept p u r (recoverDue s a2) := by
  unfold recoverDue
  repeat' (first | with_reducible assumption | intro _ | with_reducible apply kept_ite | with_reducible apply brokenLive_kept | with_reducible apply State.modSensor_kept | with_reducible apply State.modTherm_kept | split | dsimp only)

theorem chargeLeaveDue_kept {a2} (h : Kept p u r s) : Kept p u r (chargeLeaveDue s a2) := by
  unfold chargeLeaveDue
  repeat' (first | with_reducible assumption | intro _ | with_reducible apply kept_ite | with_reducible apply State.modCharge_kept | dsimp only)

theorem chargeReturnDue_kept {a2} (h : Kept p u r s) : Kept p u r (chargeReturnDue s a2) := by
  unfold chargeReturnDue
  repeat' (first | with_reducible assumption | intro _ | with_reducible apply kept_ite | with_reducible apply State.modCharge_kept | dsimp only)

theorem chargeReading_kept {a2} {a3} (h : Kept p u r s) : Kept p u r (chargeReading s a2 a3) := by
  unfold chargeReading
  repeat' (first | with_reducible assumption | intro _ | with_reducible apply kept_ite | with_reducible apply chargeReturnDue_kept | with_reducible apply chargeLeaveDue_kept | with_reducible apply chargeInvalid_kept | with_reducible apply State.modCharge_kept | split | dsimp only)

theorem railSample_kept {a2} {a3} {a4} (h : Kept p u r s) : Kept p u r (railSample s a2 a3 a4) := by
  unfold railSample
  repeat' (first | with_reducible assumption | intro _ | with_reducible apply kept_ite | with_reducible apply State.modRailRd_kept | split | dsimp only)

theorem railLive_kept (h : Kept p u r s) : Kept p u r (railLive s) := by
  unfold railLive
  repeat' (first | with_reducible assumption | intro _ | with_reducible apply State.live_kept | dsimp only)

theorem railCrossDue_kept {a2} {a3} {a4} (h : Kept p u r s) : Kept p u r (railCrossDue s a2 a3 a4) := by
  unfold railCrossDue
  repeat' (first | with_reducible assumption | intro _ | with_reducible apply kept_ite | with_reducible apply State.modRailRd_kept | with_reducible apply State.raise_kept | dsimp only)

theorem railExitDue_kept {a2} {a3} {a4} (h : Kept p u r s) : Kept p u r (railExitDue s a2 a3 a4) := by
  unfold railExitDue
  repeat' (first | with_reducible assumption | intro _ | with_reducible apply kept_ite | with_reducible apply railLive_kept | with_reducible apply State.modRailRd_kept | dsimp only)

theorem keepCloseDue_kept (h : Kept p u r s) : Kept p u r (keepCloseDue s) := by
  unfold keepCloseDue
  repeat' (first | with_reducible assumption | intro _ | with_reducible apply kept_ite | (fail_if_no_progress with_reducible (apply kept_mk; rfl; rfl; rfl; rfl; rfl; rfl)))

theorem keepOpenDue_kept (h : Kept p u r s) : Kept p u r (keepOpenDue s) := by
  unfold keepOpenDue
  repeat' (first | with_reducible assumption | intro _ | with_reducible apply kept_ite | (fail_if_no_progress with_reducible (apply kept_mk; rfl; rfl; rfl; rfl; rfl; rfl)))

theorem superviseDue_kept (h : Kept p u r s) : Kept p u r (superviseDue s) := by
  unfold superviseDue
  repeat' (first | with_reducible assumption | intro _ | with_reducible apply kept_foldl | with_reducible apply recoverDue_kept | with_reducible apply brokenDue_kept | with_reducible apply exitDue_kept | with_reducible apply enterDue_kept | with_reducible apply railExitDue_kept | with_reducible apply railCrossDue_kept | dsimp only)

theorem staleTherm_kept {a2} (h : Kept p u r s) : Kept p u r (staleTherm s a2) := by
  unfold staleTherm
  repeat' (first | with_reducible assumption | intro _ | with_reducible apply kept_foldl | with_reducible apply State.modTherm_kept | with_reducible apply chargeInvalid_kept | dsimp only)

end Sys2Proof.Machine
end

