-- ==== Sys2Proof/Laws/KeptThermal.lean ====
section
/-! SUPPORT. Machine/Thermal.lean: each operation keeps what `Kept` says. -/

set_option linter.unusedVariables false
set_option linter.unusedTactic false
set_option linter.unreachableTactic false

namespace Sys2Proof.Machine

variable {p : List Instr} {u : BitVec 64} {r : Nat} {s : State}

theorem reachGrid_kept {a2} {a3} (h : Kept p u r s) : Kept p u r (reachGrid s a2 a3) := by
  unfold reachGrid
  repeat' (first | with_reducible assumption | intro _ | with_reducible apply kept_ite | with_reducible apply State.reach_kept | dsimp only)

theorem sampleSensor_kept {a2} {a3} (h : Kept p u r s) : Kept p u r (sampleSensor s a2 a3) := by
  unfold sampleSensor
  repeat' (first | with_reducible assumption | intro _ | with_reducible apply kept_ite | with_reducible apply State.modSensor_kept | with_reducible apply State.raise_kept | dsimp only)

theorem driftStep_kept {a2} (h : Kept p u r s) : Kept p u r (driftStep s a2) := by
  unfold driftStep
  repeat' (first | with_reducible assumption | intro _ | with_reducible apply kept_ite | with_reducible apply State.modDrift_kept | with_reducible apply State.modStale_kept | with_reducible apply State.condition_kept | dsimp only)

theorem keepSample_kept (h : Kept p u r s) : Kept p u r (keepSample s) := by
  unfold keepSample
  repeat' (first | with_reducible assumption | intro _ | with_reducible apply kept_ite | (fail_if_no_progress with_reducible (apply kept_mk; rfl; rfl; rfl; rfl; rfl; rfl)) | dsimp only)

theorem exitSample_kept (h : Kept p u r s) : Kept p u r (exitSample s) := by
  unfold exitSample
  repeat' (first | with_reducible assumption | intro _ | with_reducible apply kept_ite | (fail_if_no_progress with_reducible (apply kept_mk; rfl; rfl; rfl; rfl; rfl; rfl)) | dsimp only)

theorem execSensorSample_kept {a1} {a2} {a3} (h : Kept p u r s) : KeptOut p u r (execSensorSample a1 a2 a3 s) := by
  unfold execSensorSample
  apply keptOut_next
  repeat' (first | with_reducible assumption | intro _ | with_reducible apply kept_ite | with_reducible apply kept_foldl | with_reducible apply reachGrid_kept | with_reducible apply keepOpenDue_kept | with_reducible apply keepCloseDue_kept | with_reducible apply superviseDue_kept | with_reducible apply sampleSensor_kept | with_reducible apply State.live_kept | with_reducible apply State.modPmon_kept | with_reducible apply railSample_kept | with_reducible apply countLevel_kept | with_reducible apply driftStep_kept | with_reducible apply exitSample_kept | with_reducible apply keepSample_kept | split | dsimp only)

theorem execThermalLevelEnter_kept {a1} (h : Kept p u r s) : KeptOut p u r (execThermalLevelEnter a1 s) := by
  unfold execThermalLevelEnter
  apply keptOut_next
  repeat' (first | with_reducible assumption | intro _ | with_reducible apply enterDue_kept)

theorem execThermalLevelExit_kept {a1} (h : Kept p u r s) : KeptOut p u r (execThermalLevelExit a1 s) := by
  unfold execThermalLevelExit
  apply keptOut_next
  repeat' (first | with_reducible assumption | intro _ | with_reducible apply exitDue_kept)

theorem execThrottleGraceEnd_kept {a1} {a2} (h : Kept p u r s) : KeptOut p u r (execThrottleGraceEnd a1 a2 s) := by
  unfold execThrottleGraceEnd
  apply keptOut_next
  repeat' (first | with_reducible assumption | intro _ | with_reducible apply endGrace_kept | with_reducible apply State.reach_kept | split | dsimp only)

theorem execThrottleRepeat_kept {a1} (h : Kept p u r s) : KeptOut p u r (execThrottleRepeat a1 s) := by
  unfold execThrottleRepeat
  apply keptOut_next
  repeat' (first | with_reducible assumption | intro _ | with_reducible apply kept_ite | with_reducible apply throttleMessage_kept)

theorem execSensorBroken_kept {a1} (h : Kept p u r s) : KeptOut p u r (execSensorBroken a1 s) := by
  unfold execSensorBroken
  apply keptOut_next
  repeat' (first | with_reducible assumption | intro _ | with_reducible apply brokenDue_kept)

theorem execSensorRecover_kept {a1} (h : Kept p u r s) : KeptOut p u r (execSensorRecover a1 s) := by
  unfold execSensorRecover
  apply keptOut_next
  repeat' (first | with_reducible assumption | intro _ | with_reducible apply recoverDue_kept)

theorem execChargeWindowLeave_kept {a1} (h : Kept p u r s) : KeptOut p u r (execChargeWindowLeave a1 s) := by
  unfold execChargeWindowLeave
  apply keptOut_next
  repeat' (first | with_reducible assumption | intro _ | with_reducible apply chargeLeaveDue_kept)

theorem execChargeWindowReturn_kept {a1} (h : Kept p u r s) : KeptOut p u r (execChargeWindowReturn a1 s) := by
  unfold execChargeWindowReturn
  apply keptOut_next
  repeat' (first | with_reducible assumption | intro _ | with_reducible apply chargeReturnDue_kept)

theorem execRailCrossing_kept {a1} {a2} {a3} (h : Kept p u r s) : KeptOut p u r (execRailCrossing a1 a2 a3 s) := by
  unfold execRailCrossing
  apply keptOut_next
  repeat' (first | with_reducible assumption | intro _ | with_reducible apply railCrossDue_kept)

theorem execRailThresholdExit_kept {a1} {a2} {a3} (h : Kept p u r s) : KeptOut p u r (execRailThresholdExit a1 a2 a3 s) := by
  unfold execRailThresholdExit
  apply keptOut_next
  repeat' (first | with_reducible assumption | intro _ | with_reducible apply railExitDue_kept)

theorem execKeepWindowClose_kept (h : Kept p u r s) : KeptOut p u r (execKeepWindowClose s) := by
  unfold execKeepWindowClose
  apply keptOut_next
  repeat' (first | with_reducible assumption | intro _ | with_reducible apply keepCloseDue_kept)

theorem execKeepWindowOpen_kept (h : Kept p u r s) : KeptOut p u r (execKeepWindowOpen s) := by
  unfold execKeepWindowOpen
  apply keptOut_next
  repeat' (first | with_reducible assumption | intro _ | with_reducible apply keepOpenDue_kept)

theorem execShutdownPowerDown_kept (h : Kept p u r s) : KeptOut p u r (execShutdownPowerDown s) := by
  unfold execShutdownPowerDown
  apply keptOut_next
  repeat' (first | with_reducible assumption | intro _ | with_reducible apply kept_ite | with_reducible apply kept_foldl | with_reducible apply State.reach_kept | with_reducible apply disableStage_kept | with_reducible apply staleTherm_kept | (fail_if_no_progress with_reducible (apply kept_mk; rfl; rfl; rfl; rfl; rfl; rfl)) | dsimp only)

theorem execTripLogWritten_kept (h : Kept p u r s) : KeptOut p u r (execTripLogWritten s) := by
  unfold execTripLogWritten
  apply keptOut_next
  repeat' (first | with_reducible assumption | intro _ | with_reducible apply kept_foldl | with_reducible apply State.modTripWord_kept | (fail_if_no_progress with_reducible (apply kept_mk; rfl; rfl; rfl; rfl; rfl; rfl)) | split | dsimp only)

theorem execShutdownExitCondition_kept (h : Kept p u r s) : KeptOut p u r (execShutdownExitCondition s) := by
  unfold execShutdownExitCondition
  apply keptOut_next
  repeat' (first | with_reducible assumption | intro _ | with_reducible apply kept_ite | (fail_if_no_progress with_reducible (apply kept_mk; rfl; rfl; rfl; rfl; rfl; rfl)))

theorem suspectLive_kept {a2} (h : Kept p u r s) : Kept p u r (suspectLive s a2) := by
  unfold suspectLive
  repeat' (first | with_reducible assumption | intro _ | with_reducible apply State.live_kept | dsimp only)

theorem readbackDue_kept {a2} {a3} (h : Kept p u r s) : Kept p u r (readbackDue s a2 a3) := by
  unfold readbackDue
  repeat' (first | with_reducible assumption | intro _ | with_reducible apply kept_ite | with_reducible apply State.modDacst_kept | with_reducible apply State.raise_kept | dsimp only)

theorem compareSlot_kept {a2} {a3} {a4} (h : Kept p u r s) : Kept p u r (compareSlot s a2 a3 a4) := by
  unfold compareSlot
  repeat' (first | with_reducible assumption | intro _ | with_reducible apply kept_ite | with_reducible apply readbackDue_kept | with_reducible apply suspectLive_kept | with_reducible apply State.modDacst_kept | split | with_reducible apply fst_mk | with_reducible refine kept_fst (by with_reducible assumption) ?_ | dsimp only)

theorem sampleTherm_kept {a2} {a3} (h : Kept p u r s) : Kept p u r (sampleTherm s a2 a3) := by
  unfold sampleTherm
  repeat' (first | with_reducible assumption | intro _ | with_reducible apply kept_ite | with_reducible apply kept_foldl | with_reducible apply recoverDue_kept | with_reducible apply brokenDue_kept | with_reducible apply exitDue_kept | with_reducible apply enterDue_kept | with_reducible apply State.modTherm_kept | with_reducible apply clocheHeavy_kept | with_reducible apply State.raise_kept | with_reducible apply State.live_kept | with_reducible apply countLevel_kept | with_reducible apply chargeReading_kept | split | dsimp only)

theorem feedMonitor_kept {a2} {a3} {a4} {a5} (h : Kept p u r s) : Kept p u r (feedMonitor s a2 a3 a4 a5) := by
  unfold feedMonitor
  repeat' (first | with_reducible assumption | intro _ | with_reducible apply kept_ite | with_reducible apply feedMeas_kept | dsimp only)

theorem roundDone_kept (h : Kept p u r s) : Kept p u r (roundDone s) := by
  unfold roundDone
  repeat' (first | with_reducible assumption | intro _ | with_reducible apply kept_ite | (fail_if_no_progress with_reducible (apply kept_mk; rfl; rfl; rfl; rfl; rfl; rfl)) | dsimp only)

theorem execMonitorSlot_kept {a1} {a2} (h : Kept p u r s) : KeptOut p u r (execMonitorSlot a1 a2 s) := by
  unfold execMonitorSlot
  apply keptOut_next
  repeat' (first | with_reducible assumption | intro _ | with_reducible apply kept_ite | with_reducible apply kept_foldl | with_reducible apply reachGrid_kept | with_reducible apply feedMonitor_kept | with_reducible apply compareSlot_kept | with_reducible apply railExitDue_kept | with_reducible apply railCrossDue_kept | with_reducible apply railSample_kept | with_reducible apply sampleTherm_kept | with_reducible apply roundDone_kept | with_reducible apply State.modMon_kept | split | with_reducible apply fst_mk | with_reducible refine kept_fst (by with_reducible assumption) ?_ | dsimp only)

theorem execDacReadback_kept {a1} {a2} (h : Kept p u r s) : KeptOut p u r (execDacReadback a1 a2 s) := by
  unfold execDacReadback
  apply keptOut_next
  repeat' (first | with_reducible assumption | intro _ | with_reducible apply readbackDue_kept)

theorem execThermConfigLevels_kept (h : Kept p u r s) : KeptOut p u r (execThermConfigLevels s) := by
  unfold execThermConfigLevels
  apply keptOut_next
  repeat' (first | with_reducible assumption | intro _ | with_reducible apply kept_foldl | with_reducible apply onCommand_kept | with_reducible apply checked_kept | with_reducible apply postOk_kept | with_reducible apply State.modZone_kept | dsimp only)

theorem execThermConfigThermistor_kept (h : Kept p u r s) : KeptOut p u r (execThermConfigThermistor s) := by
  unfold execThermConfigThermistor
  apply keptOut_next
  repeat' (first | with_reducible assumption | intro _ | with_reducible apply kept_ite | with_reducible apply kept_foldl | with_reducible apply onCommand_kept | with_reducible apply checked_kept | with_reducible apply State.modTherm_kept | with_reducible apply brokenLive_kept | with_reducible apply chargeInvalid_kept | with_reducible apply clocheLive_kept | with_reducible apply State.modLevel_kept | with_reducible apply postOk_kept | with_reducible apply State.live_kept | dsimp only)

theorem execThermConfigRail_kept (h : Kept p u r s) : KeptOut p u r (execThermConfigRail s) := by
  unfold execThermConfigRail
  apply keptOut_next
  repeat' (first | with_reducible assumption | intro _ | with_reducible apply kept_ite | with_reducible apply onCommand_kept | with_reducible apply checked_kept | with_reducible apply postOk_kept | with_reducible apply State.modRail_kept | dsimp only)

theorem execThermConfigRead_kept (h : Kept p u r s) : KeptOut p u r (execThermConfigRead s) := by
  unfold execThermConfigRead
  apply keptOut_next
  repeat' (first | with_reducible assumption | intro _ | with_reducible apply kept_ite | with_reducible apply onCommand_kept | with_reducible apply checked_kept | with_reducible apply postOk_kept | dsimp only)

theorem execChargeWindow_kept (h : Kept p u r s) : KeptOut p u r (execChargeWindow s) := by
  unfold execChargeWindow
  apply keptOut_next
  repeat' (first | with_reducible assumption | intro _ | with_reducible apply kept_ite | with_reducible apply kept_foldl | with_reducible apply onCommand_kept | with_reducible apply checked_kept | with_reducible apply postOk_kept | with_reducible apply State.modCharge_kept | with_reducible apply chargeInvalid_kept | dsimp only)

theorem execChargeWindowRead_kept (h : Kept p u r s) : KeptOut p u r (execChargeWindowRead s) := by
  unfold execChargeWindowRead
  apply keptOut_next
  repeat' (first | with_reducible assumption | intro _ | with_reducible apply onCommand_kept | with_reducible apply checked_kept | with_reducible apply postOk_kept | dsimp only)

theorem execThrottleAck_kept (h : Kept p u r s) : KeptOut p u r (execThrottleAck s) := by
  unfold execThrottleAck
  apply keptOut_next
  repeat' (first | with_reducible assumption | intro _ | with_reducible apply kept_ite | with_reducible apply kept_foldl | with_reducible apply onCommand_kept | with_reducible apply checked_kept | with_reducible apply State.modZone_kept | with_reducible apply endGrace_kept | with_reducible apply postOk_kept | dsimp only)

end Sys2Proof.Machine
end

