-- ==== Sys2Proof/Laws/KeptKeepOps.lean ====
section
/-! SUPPORT. Machine/KeepOps.lean: each operation keeps what `Kept` says. -/

set_option linter.unusedVariables false
set_option linter.unusedTactic false
set_option linter.unreachableTactic false

namespace Sys2Proof.Machine

variable {p : List Instr} {u : BitVec 64} {r : Nat} {s : State}

theorem useImage_kept {a2} (h : Kept p u r s) : Kept p u r (useImage s a2) := by
  unfold useImage
  repeat' (first | with_reducible assumption | intro _ | with_reducible apply kept_ite | (fail_if_no_progress with_reducible (apply kept_mk; rfl; rfl; rfl; rfl; rfl; rfl)) | dsimp only)

theorem selectImage_kept (h : Kept p u r s) : Kept p u r (selectImage s) := by
  unfold selectImage
  repeat' (first | with_reducible assumption | intro _ | with_reducible apply kept_ite | with_reducible apply useImage_kept | with_reducible apply State.raise_kept | split | dsimp only)

theorem loadPins_kept {a1} (h : Kept p u r s) : Kept p u r (loadPins a1 s) := by
  unfold loadPins
  repeat' (first | with_reducible assumption | intro _ | with_reducible apply kept_ite | with_reducible apply kept_foldl | with_reducible apply State.modDacst_kept | with_reducible apply State.modPinst_kept | with_reducible apply setDriver_kept | dsimp only)

theorem loadLoops_kept {a1} (h : Kept p u r s) : Kept p u r (loadLoops a1 s) := by
  unfold loadLoops
  repeat' (first | with_reducible assumption | intro _ | with_reducible apply kept_foldl | with_reducible apply State.modLoop_kept | dsimp only)

theorem loadReactions_kept {a1} (h : Kept p u r s) : Kept p u r (loadReactions a1 s) := by
  unfold loadReactions
  repeat' (first | with_reducible assumption | intro _ | with_reducible apply kept_foldl | with_reducible apply State.setReact_kept | dsimp only)

theorem loadSupervision_kept {a1} (h : Kept p u r s) : Kept p u r (loadSupervision a1 s) := by
  unfold loadSupervision
  repeat' (first | with_reducible assumption | intro _ | with_reducible apply kept_ite | with_reducible apply kept_foldl | with_reducible apply fst_foldl | with_reducible apply foldl_fst | with_reducible apply State.modZone_kept | with_reducible apply State.modTherm_kept | with_reducible apply State.modRail_kept | with_reducible apply State.modCharge_kept | dsimp only)

theorem loadSeed_kept (h : Kept p u r s) : Kept p u r (loadSeed s) := by
  unfold loadSeed
  repeat' (first | with_reducible assumption | intro _ | with_reducible apply kept_ite | with_reducible apply loadSupervision_kept | with_reducible apply loadReactions_kept | with_reducible apply loadLoops_kept | with_reducible apply loadPins_kept | with_reducible apply State.raise_kept | (fail_if_no_progress with_reducible (apply kept_mk; rfl; rfl; rfl; rfl; rfl; rfl)) | split | dsimp only)

theorem eraseSector_kept {a2} (h : Kept p u r s) : Kept p u r (eraseSector s a2) := by
  have h1 : Kept p u r { s with cal := { s.cal with keep := terase s.cal.keep (4096 * a2) 4096 } } :=
    kept_keep (s := s) rfl rfl rfl rfl rfl (terase_wf _ _ _ _ h.2.2.2.2.2) h
  unfold eraseSector
  generalize State.mk _ _ _ _ _ _ _ _ _ _ _ _ _ _ _ _ _ = t at *
  repeat' (first | with_reducible apply kept_ite | intro _ | with_reducible apply State.raise_kept | with_reducible apply State.modWearOf_kept | exact h1)

theorem programKeep_kept {a2} {a3} (h : Kept p u r s) : Kept p u r (programKeep s a2 a3) :=
  kept_keep (s := s) rfl rfl rfl rfl rfl (tput_wf _ _ _ _ h.2.2.2.2.2) h

theorem endKeep_kept {a2} (h : Kept p u r s) (a2h : ∀ t, Kept p u r t → Kept p u r (a2 t)) : Kept p u r (endKeep s a2) := by
  unfold endKeep
  repeat' (first | with_reducible assumption | intro _ | with_reducible apply kept_ite | apply a2h | (fail_if_no_progress with_reducible (apply kept_mk; rfl; rfl; rfl; rfl; rfl; rfl)) | dsimp only)

theorem keepProceed_kept (h : Kept p u r s) : Kept p u r (keepProceed s) := by
  unfold keepProceed
  repeat' (first | with_reducible assumption | intro _ | with_reducible apply kept_ite | with_reducible apply endKeep_kept | with_reducible apply postOk_kept | with_reducible apply postBad_kept | split | dsimp only)

theorem startKeep_kept {a2} (h : Kept p u r s) : Kept p u r (startKeep s a2) := by
  unfold startKeep
  repeat' (first | with_reducible assumption | intro _ | with_reducible apply keepProceed_kept | with_reducible apply waitFor_kept | (fail_if_no_progress with_reducible (apply kept_mk; rfl; rfl; rfl; rfl; rfl; rfl)))

end Sys2Proof.Machine
end

