-- ==== Sys2Proof/Laws/KeptCalib.lean ====
section
/-! SUPPORT. Machine/Calib.lean: each operation keeps what `Kept` says. -/

set_option linter.unusedVariables false
set_option linter.unusedTactic false
set_option linter.unreachableTactic false

namespace Sys2Proof.Machine

variable {p : List Instr} {u : BitVec 64} {r : Nat} {s : State}

theorem execCalRun_kept (h : Kept p u r s) : KeptOut p u r (execCalRun s) := by
  unfold execCalRun
  apply keptOut_next
  repeat' (first | with_reducible assumption | intro _ | with_reducible apply kept_ite | with_reducible apply kept_foldl | with_reducible apply onCommand_kept | with_reducible apply checked_kept | with_reducible apply freezeLoop_kept | with_reducible apply holdClocks_kept | with_reducible apply accept_kept | (fail_if_no_progress with_reducible (apply kept_mk; rfl; rfl; rfl; rfl; rfl; rfl)) | dsimp only)

theorem patchBody_kept {a2} (h : Kept p u r s) : Kept p u r (patchBody s a2) := by
  unfold patchBody
  repeat' (first | with_reducible assumption | intro _ | with_reducible apply kept_foldl | with_reducible apply fst_foldl | with_reducible apply foldl_fst | (fail_if_no_progress with_reducible (apply kept_mk; rfl; rfl; rfl; rfl; rfl; rfl)) | dsimp only)

theorem recordEdge_kept {a2} (h : Kept p u r s) : Kept p u r (recordEdge s a2) := by
  unfold recordEdge
  repeat' (first | with_reducible assumption | intro _ | with_reducible apply patchBody_kept | with_reducible apply State.modDrift_kept | dsimp only)

theorem applyCal_kept {a2} {a3} (h : Kept p u r s) : Kept p u r (applyCal s a2 a3) := by
  unfold applyCal
  repeat' (first | with_reducible assumption | intro _ | with_reducible apply kept_ite | with_reducible apply kept_foldl | with_reducible apply fst_foldl | with_reducible apply foldl_fst | with_reducible apply patchBody_kept | with_reducible apply recordEdge_kept | (fail_if_no_progress with_reducible (apply kept_mk; rfl; rfl; rfl; rfl; rfl; rfl)) | dsimp only)

theorem keepFigures_kept {a2} {a3} (h : Kept p u r s) : Kept p u r (keepFigures s a2 a3) := by
  unfold keepFigures
  repeat' (first | with_reducible assumption | intro _ | with_reducible apply kept_ite | with_reducible apply kept_foldl | with_reducible apply fst_foldl | with_reducible apply foldl_fst | with_reducible apply State.modQuality_kept | with_reducible apply State.modMeasured_kept | split | dsimp only)

theorem execCalRunEnd_kept {a1} (h : Kept p u r s) : KeptOut p u r (execCalRunEnd a1 s) := by
  unfold execCalRunEnd
  apply keptOut_next
  repeat' (first | with_reducible assumption | intro _ | with_reducible apply kept_ite | with_reducible apply endCal_kept | with_reducible apply State.takeFree_kept | with_reducible apply keepFigures_kept | with_reducible apply applyCal_kept | split | dsimp only)

theorem eraseAll_kept {a2} (h : Kept p u r s) : KeptFst p u r (eraseAll s a2) := by
  induction a2 generalizing s with
  | nil => unfold eraseAll; exact h
  | cons x q ih =>
    unfold eraseAll
    repeat' (first | with_reducible apply ih | with_reducible refine kept_of_fst (ih ?_) | with_reducible assumption | intro _ | with_reducible apply kept_ite | with_reducible apply fst_ite | with_reducible apply eraseSector_kept | split | with_reducible apply fst_mk | with_reducible refine kept_fst (by with_reducible assumption) ?_ | dsimp only)

theorem execCalCommit_kept (h : Kept p u r s) : KeptOut p u r (execCalCommit s) := by
  unfold execCalCommit
  apply keptOut_next
  repeat' (first | with_reducible assumption | intro _ | with_reducible apply onCommand_kept | with_reducible apply checked_kept | with_reducible apply eraseAll_kept | with_reducible refine kept_of_fst (eraseAll_kept ?_) | with_reducible refine kept_fst (by with_reducible assumption) (eraseAll_kept ?_) | with_reducible apply accept_kept | (fail_if_no_progress with_reducible (apply kept_mk; rfl; rfl; rfl; rfl; rfl; rfl)) | split | with_reducible apply fst_mk | with_reducible refine kept_fst (by with_reducible assumption) ?_ | dsimp only)

theorem execCalCommitDone_kept {a1} (h : Kept p u r s) : KeptOut p u r (execCalCommitDone a1 s) := by
  unfold execCalCommitDone
  apply keptOut_next
  repeat' (first | with_reducible assumption | intro _ | with_reducible apply kept_ite | with_reducible apply endWork_kept | with_reducible apply programKeep_kept | (fail_if_no_progress with_reducible (apply kept_mk; rfl; rfl; rfl; rfl; rfl; rfl)) | split | dsimp only)

theorem execCalSelectLoad_kept (h : Kept p u r s) : KeptOut p u r (execCalSelectLoad s) := by
  unfold execCalSelectLoad
  apply keptOut_next
  repeat' (first | with_reducible assumption | intro _ | with_reducible apply kept_ite | with_reducible apply onCommand_kept | with_reducible apply checked_kept | with_reducible apply selectImage_kept | with_reducible apply useImage_kept | with_reducible apply postOk_kept | (fail_if_no_progress with_reducible (apply kept_mk; rfl; rfl; rfl; rfl; rfl; rfl)) | dsimp only)

theorem execCalSelectStatus_kept (h : Kept p u r s) : KeptOut p u r (execCalSelectStatus s) := by
  unfold execCalSelectStatus
  apply keptOut_next
  repeat' (first | with_reducible assumption | intro _ | with_reducible apply onCommand_kept | with_reducible apply postOk_kept | dsimp only)

theorem figureWords_kept : ∀ {l : List (Option Nat)} {s : State}, Kept p u r s → KeptFst p u r (figureWords s l)
  | [], _, h => h
  | some _ :: q, _, h => figureWords_kept (l := q) h
  | none :: q, _, h => figureWords_kept (l := q) (State.takeFree_kept h)

theorem execCalSelectQuality_kept (h : Kept p u r s) : KeptOut p u r (execCalSelectQuality s) := by
  unfold execCalSelectQuality
  apply keptOut_next
  repeat' (first | with_reducible assumption | intro _ | with_reducible apply kept_ite | with_reducible apply fst_ite | with_reducible apply onCommand_kept | with_reducible apply checked_kept | with_reducible apply postOk_kept | with_reducible apply figureWords_kept | with_reducible refine kept_of_fst (figureWords_kept ?_) | with_reducible refine kept_fst (by with_reducible assumption) (figureWords_kept ?_) | with_reducible apply fst_mk | dsimp only)

theorem execKeepWriteData_kept (h : Kept p u r s) : KeptOut p u r (execKeepWriteData s) := by
  unfold execKeepWriteData
  apply keptOut_next
  repeat' (first | with_reducible assumption | intro _ | with_reducible apply kept_ite | with_reducible apply onCommand_kept | with_reducible apply checked_kept | with_reducible apply startKeep_kept | with_reducible apply postOk_kept | (fail_if_no_progress with_reducible (apply kept_mk; rfl; rfl; rfl; rfl; rfl; rfl)) | dsimp only)

theorem execKeepWriteCommit_kept (h : Kept p u r s) : KeptOut p u r (execKeepWriteCommit s) := by
  unfold execKeepWriteCommit
  apply keptOut_next
  repeat' (first | with_reducible assumption | intro _ | with_reducible apply id_kept | with_reducible apply onCommand_kept | with_reducible apply postBad_kept | with_reducible apply checked_kept | with_reducible apply postResponse_kept | with_reducible apply startKeep_kept | split | dsimp only)

theorem execKeepWriteCapture_kept (h : Kept p u r s) : KeptOut p u r (execKeepWriteCapture s) := by
  unfold execKeepWriteCapture
  apply keptOut_next
  repeat' (first | with_reducible assumption | intro _ | with_reducible apply onCommand_kept | with_reducible apply checked_kept | with_reducible apply postOk_kept | (fail_if_no_progress with_reducible (apply kept_mk; rfl; rfl; rfl; rfl; rfl; rfl)) | dsimp only)

theorem execKeepWriteDiscard_kept (h : Kept p u r s) : KeptOut p u r (execKeepWriteDiscard s) := by
  unfold execKeepWriteDiscard
  apply keptOut_next
  repeat' (first | with_reducible assumption | intro _ | with_reducible apply onCommand_kept | with_reducible apply checked_kept | with_reducible apply postOk_kept | (fail_if_no_progress with_reducible (apply kept_mk; rfl; rfl; rfl; rfl; rfl; rfl)) | dsimp only)

theorem execKeepRead_kept (h : Kept p u r s) : KeptOut p u r (execKeepRead s) := by
  unfold execKeepRead
  apply keptOut_next
  repeat' (first | with_reducible assumption | intro _ | with_reducible apply kept_ite | with_reducible apply onCommand_kept | with_reducible apply checked_kept | with_reducible apply postOk_kept | dsimp only)

theorem execKeepOperationDone_kept (h : Kept p u r s) : KeptOut p u r (execKeepOperationDone s) := by
  unfold execKeepOperationDone
  apply keptOut_next
  repeat' (first | with_reducible assumption | intro _ | with_reducible apply keepProceed_kept | with_reducible apply eraseSector_kept | with_reducible apply programKeep_kept | (fail_if_no_progress with_reducible (apply kept_mk; rfl; rfl; rfl; rfl; rfl; rfl)) | split | dsimp only)

end Sys2Proof.Machine
end

