-- ==== Sys2Proof/Laws/KeptMeas.lean ====
section
/-! SUPPORT. Machine/Meas.lean: each operation keeps what `Kept` says. -/

set_option linter.unusedVariables false
set_option linter.unusedTactic false
set_option linter.unreachableTactic false

namespace Sys2Proof.Machine

variable {p : List Instr} {u : BitVec 64} {r : Nat} {s : State}

theorem execMeasConfig_kept (h : Kept p u r s) : KeptOut p u r (execMeasConfig s) := by
  unfold execMeasConfig
  apply keptOut_next
  repeat' (first | with_reducible assumption | intro _ | with_reducible apply kept_foldl | with_reducible apply onCommand_kept | with_reducible apply checked_kept | with_reducible apply postOk_kept | with_reducible apply State.modAvg_kept | dsimp only)

theorem execMeasConfigRead_kept (h : Kept p u r s) : KeptOut p u r (execMeasConfigRead s) := by
  unfold execMeasConfigRead
  apply keptOut_next
  repeat' (first | with_reducible assumption | intro _ | with_reducible apply onCommand_kept | with_reducible apply checked_kept | with_reducible apply postOk_kept | dsimp only)

theorem execMeasRunStart_kept (h : Kept p u r s) : KeptOut p u r (execMeasRunStart s) := by
  unfold execMeasRunStart
  apply keptOut_next
  repeat' (first | with_reducible assumption | intro _ | with_reducible apply kept_ite | with_reducible apply kept_foldl | with_reducible apply onCommand_kept | with_reducible apply checked_kept | with_reducible apply State.modAvg_kept | with_reducible apply beginWork_kept | with_reducible apply accept_kept | dsimp only)

theorem stopMeas_kept {a2} (h : Kept p u r s) : Kept p u r (stopMeas s a2) := by
  unfold stopMeas
  repeat' (first | with_reducible assumption | intro _ | with_reducible apply kept_ite | with_reducible apply modMeasRun_kept | with_reducible apply endMeasRun_kept | split | dsimp only)

theorem execMeasRunStop_kept (h : Kept p u r s) : KeptOut p u r (execMeasRunStop s) := by
  unfold execMeasRunStop
  apply keptOut_next
  repeat' (first | with_reducible assumption | intro _ | with_reducible apply kept_foldl | with_reducible apply onCommand_kept | with_reducible apply checked_kept | with_reducible apply postOk_kept | with_reducible apply stopMeas_kept | dsimp only)

theorem execMeasWindowEnd_kept {a1} (h : Kept p u r s) : KeptOut p u r (execMeasWindowEnd a1 s) := by
  unfold execMeasWindowEnd
  apply keptOut_next
  repeat' (first | with_reducible assumption | intro _ | with_reducible apply kept_ite | with_reducible apply endMeasWindow_kept | split | dsimp only)

theorem execRawRecordClose_kept {a1} {a2} (h : Kept p u r s) : KeptOut p u r (execRawRecordClose a1 a2 s) := by
  unfold execRawRecordClose
  apply keptOut_next
  repeat' (first | with_reducible assumption | intro _ | with_reducible apply kept_ite | with_reducible apply closeRaw_kept | split | dsimp only)

theorem execLockinRunStart_kept (h : Kept p u r s) : KeptOut p u r (execLockinRunStart s) := by
  unfold execLockinRunStart
  apply keptOut_next
  repeat' (first | with_reducible assumption | intro _ | with_reducible apply kept_ite | with_reducible apply kept_foldl | with_reducible apply onCommand_kept | with_reducible apply checked_kept | with_reducible apply State.modAvg_kept | with_reducible apply beginWork_kept | with_reducible apply accept_kept | dsimp only)

theorem stopLock_kept {a2} (h : Kept p u r s) : Kept p u r (stopLock s a2) := by
  unfold stopLock
  repeat' (first | with_reducible assumption | intro _ | with_reducible apply kept_ite | with_reducible apply modLockRun_kept | with_reducible apply endLockRun_kept | split | dsimp only)

theorem execLockinRunStop_kept (h : Kept p u r s) : KeptOut p u r (execLockinRunStop s) := by
  unfold execLockinRunStop
  apply keptOut_next
  repeat' (first | with_reducible assumption | intro _ | with_reducible apply kept_foldl | with_reducible apply onCommand_kept | with_reducible apply checked_kept | with_reducible apply postOk_kept | with_reducible apply stopLock_kept | dsimp only)

theorem execLockinWindowEnd_kept {a1} (h : Kept p u r s) : KeptOut p u r (execLockinWindowEnd a1 s) := by
  unfold execLockinWindowEnd
  apply keptOut_next
  repeat' (first | with_reducible assumption | intro _ | with_reducible apply endLockWindow_kept)

theorem wmLive_kept {a2} (h : Kept p u r s) : Kept p u r (wmLive s a2) := by
  unfold wmLive
  repeat' (first | with_reducible assumption | intro _ | with_reducible apply kept_ite | with_reducible apply State.live_kept | dsimp only)

theorem wmSet_kept {a2} (h : Kept p u r s) : Kept p u r (wmSet s a2) := by
  unfold wmSet
  repeat' (first | with_reducible assumption | intro _ | with_reducible apply kept_ite | with_reducible apply fst_ite | with_reducible apply State.modWmon_kept | with_reducible apply unitEdges_kept | with_reducible apply emitRecord_kept | with_reducible refine kept_of_fst (emitRecord_kept ?_) | with_reducible refine kept_fst (by with_reducible assumption) (emitRecord_kept ?_) | with_reducible apply State.raise_kept | with_reducible apply fst_mk | dsimp only)

theorem wmCheck_kept {a2} (h : Kept p u r s) : Kept p u r (wmCheck s a2) := by
  unfold wmCheck
  repeat' (first | with_reducible assumption | intro _ | with_reducible apply kept_ite | with_reducible apply wmSet_kept)

theorem wmReload_kept {a2} (h : Kept p u r s) : Kept p u r (wmReload s a2) := by
  unfold wmReload
  repeat' (first | with_reducible assumption | intro _ | with_reducible apply wmLive_kept | with_reducible apply State.modWmon_kept | dsimp only)

theorem wmInit_kept {a2} (h : Kept p u r s) : Kept p u r (wmInit s a2) := by
  unfold wmInit
  repeat' (first | with_reducible assumption | intro _ | with_reducible apply wmLive_kept | with_reducible apply State.modWmon_kept | dsimp only)

theorem wmInitBed_kept {a2} (h : Kept p u r s) : Kept p u r (wmInitBed s a2) := by
  unfold wmInitBed
  repeat' (first | with_reducible assumption | intro _ | with_reducible apply kept_ite | with_reducible apply kept_foldl | with_reducible apply wmInit_kept | dsimp only)

theorem execWmDecisionChange_kept {a1} {a2} (h : Kept p u r s) : KeptOut p u r (execWmDecisionChange a1 a2 s) := by
  unfold execWmDecisionChange
  apply keptOut_next
  repeat' (first | with_reducible assumption | intro _ | with_reducible apply kept_ite | with_reducible apply wmCheck_kept | with_reducible apply State.modWmon_kept | dsimp only)

theorem execWmSettlingEnd_kept {a1} {a2} (h : Kept p u r s) : KeptOut p u r (execWmSettlingEnd a1 a2 s) := by
  unfold execWmSettlingEnd
  apply keptOut_next
  repeat' (first | with_reducible assumption | intro _ | with_reducible apply kept_ite | with_reducible apply wmCheck_kept | with_reducible apply State.modWmon_kept | dsimp only)

theorem execWmPeriodEnd_kept {a1} (h : Kept p u r s) : KeptOut p u r (execWmPeriodEnd a1 s) := by
  unfold execWmPeriodEnd
  apply keptOut_next
  repeat' (first | with_reducible assumption | intro _ | with_reducible apply kept_ite | with_reducible apply wmReload_kept | with_reducible apply State.reach_kept | with_reducible apply State.modWmon_kept | dsimp only)

theorem execWmConfigure_kept (h : Kept p u r s) : KeptOut p u r (execWmConfigure s) := by
  unfold execWmConfigure
  apply keptOut_next
  repeat' (first | with_reducible assumption | intro _ | with_reducible apply kept_foldl | with_reducible apply onCommand_kept | with_reducible apply checked_kept | with_reducible apply postOk_kept | with_reducible apply State.modWmon_kept | dsimp only)

theorem execWmEnable_kept (h : Kept p u r s) : KeptOut p u r (execWmEnable s) := by
  unfold execWmEnable
  apply keptOut_next
  repeat' (first | with_reducible assumption | intro _ | with_reducible apply kept_foldl | with_reducible apply onCommand_kept | with_reducible apply checked_kept | with_reducible apply postOk_kept | with_reducible apply wmInit_kept | dsimp only)

theorem execWmDisable_kept (h : Kept p u r s) : KeptOut p u r (execWmDisable s) := by
  unfold execWmDisable
  apply keptOut_next
  repeat' (first | with_reducible assumption | intro _ | with_reducible apply kept_foldl | with_reducible apply onCommand_kept | with_reducible apply checked_kept | with_reducible apply postOk_kept | with_reducible apply wmLive_kept | with_reducible apply State.modWmon_kept | dsimp only)

theorem execWmClear_kept (h : Kept p u r s) : KeptOut p u r (execWmClear s) := by
  unfold execWmClear
  apply keptOut_next
  repeat' (first | with_reducible assumption | intro _ | with_reducible apply kept_foldl | with_reducible apply onCommand_kept | with_reducible apply checked_kept | with_reducible apply wmReload_kept | with_reducible apply postOk_kept | dsimp only)

theorem execWmRead_kept (h : Kept p u r s) : KeptOut p u r (execWmRead s) := by
  unfold execWmRead
  apply keptOut_next
  repeat' (first | with_reducible assumption | intro _ | with_reducible apply onCommand_kept | with_reducible apply checked_kept | with_reducible apply postOk_kept | dsimp only)

end Sys2Proof.Machine
end

