-- ==== Sys2Proof/Laws/KeptSerialOps.lean ====
section
/-! SUPPORT. Machine/SerialOps.lean: each operation keeps what `Kept` says. -/

set_option linter.unusedVariables false
set_option linter.unusedTactic false
set_option linter.unreachableTactic false

namespace Sys2Proof.Machine

variable {p : List Instr} {u : BitVec 64} {r : Nat} {s : State}

theorem lostLive_kept (h : Kept p u r s) : Kept p u r (lostLive s) := by
  unfold lostLive
  repeat' (first | with_reducible assumption | intro _ | with_reducible apply State.live_kept | dsimp only)

theorem loseStage_kept {a2} (h : Kept p u r s) : Kept p u r (loseStage s a2) := by
  unfold loseStage
  repeat' (first | with_reducible assumption | intro _ | with_reducible apply kept_foldl | with_reducible apply freeTelem_kept | with_reducible apply State.modStage_kept | with_reducible apply State.raise_kept | with_reducible apply clocheHeavy_kept | with_reducible apply State.modLoop_kept | with_reducible apply chargeInvalid_kept | dsimp only)

theorem lossDue_kept {a2} (h : Kept p u r s) : Kept p u r (lossDue s a2) := by
  unfold lossDue
  repeat' (first | with_reducible assumption | intro _ | with_reducible apply kept_ite | with_reducible apply loseStage_kept | dsimp only)

theorem digitalBoundary_kept {a2} {a3} (h : Kept p u r s) : Kept p u r (digitalBoundary s a2 a3) := by
  unfold digitalBoundary
  repeat' (first | with_reducible assumption | intro _ | with_reducible apply kept_ite | with_reducible apply catchRunEnd_kept | with_reducible apply complyTripNow_kept | with_reducible apply State.modLoop_kept | with_reducible apply applyForce_kept | with_reducible apply chargeLeave_kept | with_reducible apply advanceSource_kept | dsimp only)

theorem digitalSample_kept {a2} {a3} {a4} (h : Kept p u r s) : Kept p u r (digitalSample s a2 a3 a4) := by
  unfold digitalSample
  repeat' (first | with_reducible assumption | intro _ | with_reducible apply kept_ite | with_reducible apply deliver_kept | with_reducible apply recordHandoff_kept | with_reducible apply tripLive_kept | with_reducible apply loopEvent_kept | with_reducible apply State.modLoop_kept | split | with_reducible apply fst_mk | with_reducible refine kept_fst (by with_reducible assumption) ?_ | dsimp only)

theorem askTelem_kept {a2} (h : Kept p u r s) : Kept p u r (askTelem s a2) := by
  unfold askTelem
  repeat' (first | with_reducible assumption | intro _ | with_reducible apply kept_ite | with_reducible refine reserve_kept ?_ _ (by with_reducible assumption) | with_reducible apply State.modStage_kept | with_reducible apply dropRecord_kept | split | dsimp only)

theorem sendTelemetry_kept {a2} (h : Kept p u r s) : Kept p u r (sendTelemetry s a2) := by
  unfold sendTelemetry
  repeat' (first | with_reducible assumption | intro _ | with_reducible apply kept_ite | with_reducible apply fst_ite | with_reducible apply State.modStage_kept | with_reducible apply emitRecord_kept | with_reducible refine kept_of_fst (emitRecord_kept ?_) | with_reducible refine kept_fst (by with_reducible assumption) (emitRecord_kept ?_) | with_reducible apply placeReserved_kept | with_reducible refine kept_of_fst (placeReserved_kept ?_) | with_reducible refine kept_fst (by with_reducible assumption) (placeReserved_kept ?_) | with_reducible apply State.raise_kept | split | with_reducible apply fst_mk | with_reducible refine kept_fst (by with_reducible assumption) ?_ | dsimp only)

theorem useReply_kept {a2} {a3} {a4} {a5} (h : Kept p u r s) : Kept p u r (useReply s a2 a3 a4 a5) := by
  unfold useReply
  repeat' (first | with_reducible assumption | intro _ | with_reducible apply kept_ite | with_reducible apply kept_foldl | with_reducible apply State.modStage_kept | with_reducible apply sendTelemetry_kept | with_reducible apply digitalSample_kept | with_reducible apply chargeReading_kept | dsimp only)

theorem useDelayed_kept {a2} {a3} (h : Kept p u r s) : Kept p u r (useDelayed s a2 a3) := by
  unfold useDelayed
  repeat' (first | with_reducible assumption | intro _ | with_reducible apply useReply_kept | split | dsimp only)

theorem flushReplies_kept {a2} (h : Kept p u r s) : Kept p u r (flushReplies s a2) := by
  unfold flushReplies
  repeat' (first | with_reducible assumption | intro _ | with_reducible apply kept_foldl | with_reducible apply useDelayed_kept | with_reducible apply State.modStage_kept | dsimp only)

theorem goodReply_kept {a2} {a3} {a4} {a5} (h : Kept p u r s) : Kept p u r (goodReply s a2 a3 a4 a5) := by
  unfold goodReply
  repeat' (first | with_reducible assumption | intro _ | with_reducible apply kept_ite | with_reducible apply kept_foldl | with_reducible apply State.modStage_kept | with_reducible apply useDelayed_kept | with_reducible apply useReply_kept | dsimp only)

end Sys2Proof.Machine
end

