-- ==== Sys2Proof/Laws/KeptSerial.lean ====
section
/-! SUPPORT. Machine/Serial.lean: each operation keeps what `Kept` says. -/

set_option linter.unusedVariables false
set_option linter.unusedTactic false
set_option linter.unreachableTactic false

namespace Sys2Proof.Machine

variable {p : List Instr} {u : BitVec 64} {r : Nat} {s : State}

theorem startJob_kept {a2} {a3} (h : Kept p u r s) : Kept p u r (startJob s a2 a3) := by
  unfold startJob
  repeat' (first | with_reducible assumption | intro _ | with_reducible apply waitFor_kept | (fail_if_no_progress with_reducible (apply kept_mk; rfl; rfl; rfl; rfl; rfl; rfl)))

theorem execStageAttachAttach_kept (h : Kept p u r s) : KeptOut p u r (execStageAttachAttach s) := by
  unfold execStageAttachAttach
  apply keptOut_next
  repeat' (first | with_reducible assumption | intro _ | with_reducible apply kept_ite | with_reducible apply onCommand_kept | with_reducible apply checked_kept | with_reducible apply startJob_kept | with_reducible apply State.modStage_kept | dsimp only)

theorem execStageAttachDetach_kept (h : Kept p u r s) : KeptOut p u r (execStageAttachDetach s) := by
  unfold execStageAttachDetach
  apply keptOut_next
  repeat' (first | with_reducible assumption | intro _ | with_reducible apply onCommand_kept | with_reducible apply checked_kept | with_reducible apply startJob_kept | with_reducible apply State.modStage_kept | dsimp only)

theorem execStageAttachWrite_kept (h : Kept p u r s) : KeptOut p u r (execStageAttachWrite s) := by
  unfold execStageAttachWrite
  apply keptOut_next
  repeat' (first | with_reducible assumption | intro _ | with_reducible apply onCommand_kept | with_reducible apply checked_kept | with_reducible apply startJob_kept | dsimp only)

theorem execStageReadRead_kept (h : Kept p u r s) : KeptOut p u r (execStageReadRead s) := by
  unfold execStageReadRead
  apply keptOut_next
  repeat' (first | with_reducible assumption | intro _ | with_reducible apply onCommand_kept | with_reducible apply checked_kept | with_reducible apply startJob_kept | dsimp only)

theorem execStageReadStatus_kept (h : Kept p u r s) : KeptOut p u r (execStageReadStatus s) := by
  unfold execStageReadStatus
  apply keptOut_next
  repeat' (first | with_reducible assumption | intro _ | with_reducible apply onCommand_kept | with_reducible apply checked_kept | with_reducible apply postOk_kept | dsimp only)

theorem endJob_kept (h : Kept p u r s) : Kept p u r (endJob s) := by
  unfold endJob
  repeat' (first | with_reducible assumption | intro _ | (fail_if_no_progress with_reducible (apply kept_mk; rfl; rfl; rfl; rfl; rfl; rfl)))

theorem answerJob_kept {a2} (h : Kept p u r s) (a2h : ∀ t, Kept p u r t → Kept p u r (a2 t)) : Kept p u r (answerJob s a2) := by
  unfold answerJob
  repeat' (first | with_reducible assumption | intro _ | with_reducible apply kept_ite | with_reducible apply endJob_kept | apply a2h)

theorem finishAttach_kept {a2} {a3} {a4} {a5} {a6} {a7} {a8} (h : Kept p u r s) : Kept p u r (finishAttach s a2 a3 a4 a5 a6 a7 a8) := by
  unfold finishAttach
  repeat' (first | with_reducible assumption | intro _ | with_reducible apply kept_ite | with_reducible apply answerJob_kept | with_reducible apply postBad_kept | with_reducible apply freeTelem_kept | with_reducible apply State.takeFree_kept | with_reducible apply State.modStage_kept | with_reducible apply lostLive_kept | with_reducible apply postOk_kept | dsimp only)

theorem jobReply_kept {a2} {a3} {a4} {a5} {a6} {a7} {a8} (h : Kept p u r s) : Kept p u r (jobReply s a2 a3 a4 a5 a6 a7 a8) := by
  unfold jobReply
  repeat' (first | with_reducible assumption | intro _ | with_reducible apply kept_ite | with_reducible apply kept_foldl | with_reducible apply finishAttach_kept | with_reducible apply lostLive_kept | with_reducible apply freeTelem_kept | with_reducible apply State.modStage_kept | with_reducible apply answerJob_kept | with_reducible apply chargeInvalid_kept | with_reducible apply postOk_kept | with_reducible apply postResponse_kept | (fail_if_no_progress with_reducible (apply kept_mk; rfl; rfl; rfl; rfl; rfl; rfl)) | split | dsimp only)

theorem startExchange_kept {a2} (h : Kept p u r s) : Kept p u r (startExchange s a2) := by
  unfold startExchange
  repeat' (first | with_reducible assumption | intro _ | with_reducible apply kept_ite | with_reducible apply kept_foldl | with_reducible apply lossDue_kept | with_reducible apply digitalBoundary_kept | with_reducible apply askTelem_kept | with_reducible apply State.modStage_kept | dsimp only)

theorem nextExchange_kept (h : Kept p u r s) : Kept p u r (nextExchange s) := by
  unfold nextExchange
  repeat' (first | with_reducible assumption | intro _ | with_reducible apply kept_ite | with_reducible apply startExchange_kept | (fail_if_no_progress with_reducible (apply kept_mk; rfl; rfl; rfl; rfl; rfl; rfl)) | split | dsimp only)

theorem execStageReply_kept {a1} {a2} (h : Kept p u r s) : KeptOut p u r (execStageReply a1 a2 s) := by
  unfold execStageReply
  apply keptOut_next
  repeat' (first | with_reducible assumption | intro _ | with_reducible apply kept_ite | with_reducible apply nextExchange_kept | with_reducible apply lossDue_kept | with_reducible apply State.modStage_kept | with_reducible apply freeTelem_kept | with_reducible apply State.raise_kept | with_reducible apply goodReply_kept | with_reducible apply jobReply_kept | split | dsimp only)

theorem execStageLost_kept {a1} (h : Kept p u r s) : KeptOut p u r (execStageLost a1 s) := by
  unfold execStageLost
  apply keptOut_next
  repeat' (first | with_reducible assumption | intro _ | with_reducible apply lossDue_kept)

theorem execCyclicExchangeDue_kept {a1} {a2} (h : Kept p u r s) : KeptOut p u r (execCyclicExchangeDue a1 a2 s) := by
  unfold execCyclicExchangeDue
  apply keptOut_next
  repeat' (first | with_reducible assumption | intro _ | with_reducible apply kept_ite | with_reducible apply lossDue_kept | with_reducible apply State.reach_kept | with_reducible apply State.modStage_kept | with_reducible apply nextExchange_kept | with_reducible apply State.raise_kept | (fail_if_no_progress with_reducible (apply kept_mk; rfl; rfl; rfl; rfl; rfl; rfl)) | dsimp only)

theorem xipServe_kept {a2} (h : Kept p u r s) : Kept p u r (xipServe s a2) := by
  unfold xipServe
  repeat' (first | with_reducible assumption | intro _ | with_reducible apply kept_ite | with_reducible apply State.raise_kept | (fail_if_no_progress with_reducible (apply kept_mk; rfl; rfl; rfl; rfl; rfl; rfl)) | dsimp only)

theorem execXipFetch_kept {a1} (h : Kept p u r s) : KeptOut p u r (execXipFetch a1 s) := by
  unfold execXipFetch
  apply keptOut_next
  repeat' (first | with_reducible assumption | intro _ | with_reducible apply kept_ite | with_reducible apply xipServe_kept | (fail_if_no_progress with_reducible (apply kept_mk; rfl; rfl; rfl; rfl; rfl; rfl)) | dsimp only)

end Sys2Proof.Machine
end

