-- ==== Sys2Proof/Laws/KeptResetOps.lean ====
section
/-! SUPPORT. Machine/ResetOps.lean: each operation keeps what `Kept` says. -/

set_option linter.unusedVariables false
set_option linter.unusedTactic false
set_option linter.unreachableTactic false

namespace Sys2Proof.Machine

variable {p : List Instr} {u : BitVec 64} {r : Nat} {s : State}

theorem endWindow_kept {a2} (h : Kept p u r s) : Kept p u r (endWindow s a2) := by
  unfold endWindow
  repeat' (first | with_reducible assumption | intro _ | with_reducible apply kept_ite | with_reducible apply State.modPert_kept | with_reducible apply serviceRing_kept | with_reducible apply State.modCls_kept | with_reducible apply State.modPort_kept | with_reducible apply flushReplies_kept | dsimp only)

theorem releaseDelay_kept {a2} (h : Kept p u r s) : Kept p u r (releaseDelay s a2) := by
  unfold releaseDelay
  repeat' (first | with_reducible assumption | intro _ | with_reducible apply kept_ite | with_reducible apply enterDone_kept)

theorem disarm_kept (h : Kept p u r s) : Kept p u r (disarm s) := by
  unfold disarm
  repeat' (first | with_reducible assumption | intro _ | with_reducible apply kept_foldl | with_reducible apply endWindow_kept | with_reducible apply releaseDelay_kept | (fail_if_no_progress with_reducible (apply kept_mk; rfl; rfl; rfl; rfl; rfl; rfl)) | dsimp only)

theorem anyReset_kept (h : Kept p u r s) : Kept p u r (anyReset s) := by
  unfold anyReset
  repeat' (first | with_reducible assumption | intro _ | with_reducible apply disarm_kept | (fail_if_no_progress with_reducible (apply kept_mk; rfl; rfl; rfl; rfl; rfl; rfl)))

theorem clearEntries_kept {a2} (h : Kept p u r s) : Kept p u r (clearEntries s a2) := by
  unfold clearEntries
  repeat' (first | with_reducible assumption | intro _ | with_reducible apply kept_ite | with_reducible apply kept_foldl | with_reducible apply State.modPert_kept | dsimp only)

theorem lostUrgents_kept {a2} {a3} (h : Kept p u r s) : Kept p u r (lostUrgents s a2 a3) := by
  unfold lostUrgents
  repeat' (first | with_reducible assumption | intro _ | with_reducible apply kept_ite | with_reducible apply kept_foldl | with_reducible apply State.raise_kept | dsimp only)

theorem portChanged_kept {a2} (h : Kept p u r s) : Kept p u r (portChanged s a2) := by
  unfold portChanged
  repeat' (first | with_reducible assumption | intro _ | with_reducible apply sendEvent_kept)

theorem linkReset_kept {a2} (h : Kept p u r s) : Kept p u r (linkReset s a2) := by
  unfold linkReset
  repeat' (first | with_reducible assumption | intro _ | with_reducible apply kept_ite | with_reducible apply kept_foldl | with_reducible apply freeCredit_kept | with_reducible apply State.modCls_kept | with_reducible apply lostUrgents_kept | with_reducible apply State.modPort_kept | with_reducible apply State.live_kept | with_reducible apply portChanged_kept | with_reducible apply State.raise_kept | (fail_if_no_progress with_reducible (apply kept_mk; rfl; rfl; rfl; rfl; rfl; rfl)) | dsimp only)

theorem linkPortReset_kept {a2} (h : Kept p u r s) : Kept p u r (linkPortReset s a2) := by
  unfold linkPortReset
  repeat' (first | with_reducible assumption | intro _ | with_reducible apply kept_ite | with_reducible apply linkReset_kept | with_reducible apply clearEntries_kept | with_reducible apply anyReset_kept)

theorem resetMeas_kept {a2} (h : Kept p u r s) : Kept p u r (resetMeas s a2) := by
  unfold resetMeas
  repeat' (first | with_reducible assumption | intro _ | with_reducible apply endMeasRun_kept)

theorem resetLock_kept {a2} (h : Kept p u r s) : Kept p u r (resetLock s a2) := by
  unfold resetLock
  repeat' (first | with_reducible assumption | intro _ | with_reducible apply kept_ite | with_reducible apply returnCredit_kept | with_reducible apply endLockRun_kept | split | dsimp only)

theorem resetTim_kept {a2} (h : Kept p u r s) : Kept p u r (resetTim s a2) := by
  unfold resetTim
  repeat' (first | with_reducible assumption | intro _ | with_reducible apply endTimRun_kept | with_reducible apply State.modTiu_kept | dsimp only)

theorem resetBed_kept {a2} {a3} (h : Kept p u r s) : Kept p u r (resetBed s a2 a3) := by
  unfold resetBed
  repeat' (first | with_reducible assumption | intro _ | with_reducible apply kept_ite | with_reducible apply kept_foldl | with_reducible apply interruptCal_kept | with_reducible apply clocheBed_kept | with_reducible apply State.modTdll_kept | with_reducible apply resetMeas_kept | with_reducible apply resetLock_kept | with_reducible apply dropLate_kept | with_reducible apply resetTim_kept | with_reducible apply State.modLoop_kept | (fail_if_no_progress with_reducible (apply kept_mk; rfl; rfl; rfl; rfl; rfl; rfl)) | dsimp only)

theorem resetTherm_kept (h : Kept p u r s) : Kept p u r (resetTherm s) := by
  unfold resetTherm
  repeat' (first | with_reducible assumption | intro _ | with_reducible apply kept_foldl | with_reducible apply fst_foldl | with_reducible apply foldl_fst | with_reducible apply State.modSensor_kept | with_reducible apply State.modTherm_kept | with_reducible apply State.modLevel_kept | with_reducible apply State.modRailRd_kept | (fail_if_no_progress with_reducible (apply kept_mk; rfl; rfl; rfl; rfl; rfl; rfl)) | dsimp only)

theorem resetKeep_kept (h : Kept p u r s) : Kept p u r (resetKeep s) := by
  unfold resetKeep
  repeat' (first | with_reducible assumption | intro _ | with_reducible apply kept_ite | with_reducible apply endKeep_kept | with_reducible apply postBad_kept | with_reducible apply endWork_kept | (fail_if_no_progress with_reducible (apply kept_mk; rfl; rfl; rfl; rfl; rfl; rfl)) | split | dsimp only)

theorem closeStreams_kept (h : Kept p u r s) : Kept p u r (closeStreams s) := by
  unfold closeStreams
  repeat' (first | with_reducible assumption | intro _ | with_reducible apply kept_ite | with_reducible apply kept_foldl | with_reducible apply State.modStrm_kept | (fail_if_no_progress with_reducible (apply kept_mk; rfl; rfl; rfl; rfl; rfl; rfl)) | dsimp only)

theorem blockEffect_kept {a2} {a3} (h : Kept p u r s) : Kept p u r (blockEffect s a2 a3) := by
  unfold blockEffect
  repeat' (first | with_reducible assumption | intro _ | with_reducible apply kept_ite | with_reducible apply kept_foldl | with_reducible apply resetBed_kept | with_reducible apply latchStop_kept | with_reducible apply closeStreams_kept | with_reducible apply discardBanks_kept | with_reducible apply State.raise_kept | with_reducible apply abortFrame_kept | with_reducible apply resetTherm_kept | with_reducible apply resetKeep_kept | (fail_if_no_progress with_reducible (apply kept_mk; rfl; rfl; rfl; rfl; rfl; rfl)) | dsimp only)

theorem setCause_kept {a2} (h : Kept p u r s) : Kept p u r (setCause s a2) := by
  unfold setCause
  repeat' (first | with_reducible assumption | intro _ | with_reducible apply State.noteSet_kept | (fail_if_no_progress with_reducible (apply kept_mk; rfl; rfl; rfl; rfl; rfl; rfl)))

theorem forgetRegions_kept (h : Kept p u r s) : Kept p u r (forgetRegions s) := by
  unfold forgetRegions
  repeat' (first | with_reducible assumption | intro _ | with_reducible apply kept_foldl | with_reducible apply fst_foldl | with_reducible apply foldl_fst | with_reducible apply State.modLoop_kept | dsimp only)

theorem haltShed_kept {a2} (h : Kept p u r s) : Kept p u r (haltShed s a2) := by
  unfold haltShed
  repeat' (first | with_reducible assumption | intro _ | with_reducible apply kept_foldl | with_reducible apply dropEntryPins_kept | with_reducible apply forgetRegions_kept | with_reducible apply anyReset_kept | with_reducible apply releaseScopes_kept | with_reducible apply State.modLoop_kept | with_reducible apply startFetch_kept | (fail_if_no_progress with_reducible (apply kept_mk; rfl; rfl; rfl; rfl; rfl; rfl)) | split | dsimp only)

theorem haltBeds_kept (h : Kept p u r s) : Kept p u r (haltBeds s) := by
  unfold haltBeds
  repeat' (first | with_reducible assumption | intro _ | with_reducible apply kept_ite | with_reducible apply kept_foldl | with_reducible apply clocheDrivers_kept | with_reducible apply moveDacs_kept | with_reducible apply State.modBedc_kept | with_reducible apply State.modLoop_kept | dsimp only)

theorem startReset_kept {a2} {a3} {a4} (h : Kept p u r s) : Kept p u r (startReset s a2 a3 a4) := by
  unfold startReset
  repeat' (first | with_reducible assumption | intro _ | with_reducible apply kept_ite | with_reducible apply kept_foldl | with_reducible apply anyReset_kept | with_reducible apply setCause_kept | with_reducible apply State.raise_kept | with_reducible apply abortFrame_kept | with_reducible apply haltBeds_kept | (fail_if_no_progress with_reducible (apply kept_mk; rfl; rfl; rfl; rfl; rfl; rfl)) | dsimp only)

theorem clearClasses_kept (h : Kept p u r s) : Kept p u r (clearClasses s) := by
  unfold clearClasses
  repeat' (first | with_reducible assumption | intro _ | (fail_if_no_progress with_reducible (apply kept_mk; rfl; rfl; rfl; rfl; rfl; rfl)) | dsimp only)

theorem bootStep3_kept (h : Kept p u r s) : Kept p u r (bootStep3 s) := by
  unfold bootStep3
  repeat' (first | with_reducible assumption | intro _ | with_reducible apply kept_ite | with_reducible apply selectImage_kept | with_reducible apply loadSeed_kept | with_reducible apply State.live_kept | with_reducible apply clocheChip_kept | (fail_if_no_progress with_reducible (apply kept_mk; rfl; rfl; rfl; rfl; rfl; rfl)) | dsimp only)

theorem chipReset_kept {a2} {a3} {a4} {a5} (h : Kept p u r s) : Kept p u r (chipReset s a2 a3 a4 a5) := by
  unfold chipReset
  repeat' (first | with_reducible assumption | intro _ | with_reducible apply kept_ite | with_reducible apply startReset_kept | (fail_if_no_progress with_reducible (apply kept_mk; rfl; rfl; rfl; rfl; rfl; rfl)) | split | dsimp only)

theorem watchdogRestart_kept {a2} (h : Kept p u r s) : Kept p u r (watchdogRestart s a2) := by
  unfold watchdogRestart
  repeat' (first | with_reducible assumption | intro _ | with_reducible apply kept_ite | with_reducible apply setCause_kept | with_reducible apply chipReset_kept | with_reducible apply haltShed_kept | (fail_if_no_progress with_reducible (apply kept_mk; rfl; rfl; rfl; rfl; rfl; rfl)) | dsimp only)

theorem blockReset_kept {a2} {a3} (h : Kept p u r s) : Kept p u r (blockReset s a2 a3) := by
  unfold blockReset
  repeat' (first | with_reducible assumption | intro _ | with_reducible apply kept_ite | with_reducible apply watchdogRestart_kept | with_reducible apply linkPortReset_kept | with_reducible apply blockEffect_kept | with_reducible apply clearEntries_kept | with_reducible apply anyReset_kept | with_reducible apply State.modBlkReset_kept | dsimp only)

end Sys2Proof.Machine
end

