-- ==== Sys2Proof/Laws/KeptFaultOps.lean ====
section
/-! SUPPORT. Machine/FaultOps.lean: each operation keeps what `Kept` says. -/

set_option linter.unusedVariables false
set_option linter.unusedTactic false
set_option linter.unreachableTactic false

namespace Sys2Proof.Machine

variable {p : List Instr} {u : BitVec 64} {r : Nat} {s : State}

theorem noteFault_kept {a2} (h : Kept p u r s) : Kept p u r (noteFault s a2) := by
  unfold noteFault
  repeat' (first | with_reducible assumption | intro _ | with_reducible apply State.noteSet_kept | with_reducible apply State.noteAdd_kept)

theorem fireErrn_kept (h : Kept p u r s) : Kept p u r (fireErrn s) := by
  unfold fireErrn
  repeat' (first | with_reducible assumption | intro _ | with_reducible apply State.noteSet_kept | (fail_if_no_progress with_reducible (apply kept_mk; rfl; rfl; rfl; rfl; rfl; rfl)))

theorem fireCloche_kept {a2} {a3} (h : Kept p u r s) : Kept p u r (fireCloche s a2 a3) := by
  unfold fireCloche
  repeat' (first | with_reducible assumption | intro _ | with_reducible apply kept_ite | with_reducible apply kept_foldl | with_reducible apply clocheChip_kept | with_reducible apply clocheBed_kept | with_reducible apply originate_kept | with_reducible apply clocheChain_kept | split | dsimp only)

theorem fireReact_kept {a2} {a3} (h : Kept p u r s) : Kept p u r (fireReact s a2 a3) := by
  unfold fireReact
  repeat' (first | with_reducible assumption | intro _ | with_reducible apply kept_ite | with_reducible apply blockReset_kept | with_reducible apply chipReset_kept | (fail_if_no_progress with_reducible (apply kept_mk; rfl; rfl; rfl; rfl; rfl; rfl)))

theorem noteRegistered_kept {a2} {a3} (h : Kept p u r s) : Kept p u r (noteRegistered s a2 a3) := by
  unfold noteRegistered
  repeat' (first | with_reducible assumption | intro _ | (fail_if_no_progress with_reducible (apply kept_mk; rfl; rfl; rfl; rfl; rfl; rfl)))

theorem registerOne_kept {a2} (h : Kept p u r s) : Kept p u r (registerOne s a2) := by
  unfold registerOne
  repeat' (first | with_reducible assumption | intro _ | with_reducible apply kept_ite | with_reducible apply noteFault_kept | with_reducible apply State.modFblk_kept | with_reducible apply fireErrn_kept | with_reducible apply fireCloche_kept | with_reducible apply noteRegistered_kept | with_reducible apply fireReact_kept | dsimp only)

theorem ackFault_kept {a2} (h : Kept p u r s) : Kept p u r (ackFault s a2) := by
  unfold ackFault
  repeat' (first | with_reducible assumption | intro _ | with_reducible apply kept_ite | with_reducible apply kept_foldl | with_reducible apply fst_foldl | with_reducible apply foldl_fst | with_reducible apply State.modFblk_kept | with_reducible apply fireReact_kept | (fail_if_no_progress with_reducible (apply kept_mk; rfl; rfl; rfl; rfl; rfl; rfl)) | dsimp only)

theorem fireForced_kept {a2} (h : Kept p u r s) : Kept p u r (fireForced s a2) := by
  unfold fireForced
  repeat' (first | with_reducible assumption | intro _ | with_reducible apply State.reach_kept | with_reducible apply State.raiseForced_kept | (fail_if_no_progress with_reducible (apply kept_mk; rfl; rfl; rfl; rfl; rfl; rfl)) | dsimp only)

theorem directFaults_kept {a2} {a3} (h : Kept p u r s) : Kept p u r (directFaults s a2 a3) := by
  induction a3 generalizing s with
  | nil => unfold directFaults; exact h
  | cons x q ih =>
    unfold directFaults
    repeat' (first | with_reducible apply ih | with_reducible refine kept_of_fst (ih ?_) | with_reducible assumption | intro _ | with_reducible apply kept_ite | with_reducible apply State.raise_kept | with_reducible apply State.condition_kept | split | dsimp only)

theorem registerCycle_kept {a2} (h : Kept p u r s) : Kept p u r (registerCycle s a2) := by
  unfold registerCycle
  repeat' (first | with_reducible assumption | intro _ | with_reducible apply kept_foldl | with_reducible apply State.reach_kept | with_reducible apply registerOne_kept | (fail_if_no_progress with_reducible (apply kept_mk; rfl; rfl; rfl; rfl; rfl; rfl)) | split | dsimp only)

theorem armPerturb_kept {a2} (h : Kept p u r s) : Kept p u r (armPerturb s a2) := by
  unfold armPerturb
  repeat' (first | with_reducible assumption | intro _ | with_reducible apply kept_ite | with_reducible apply disarm_kept | (fail_if_no_progress with_reducible (apply kept_mk; rfl; rfl; rfl; rfl; rfl; rfl)) | dsimp only)

end Sys2Proof.Machine
end

