-- ==== Sys2Proof/Laws/KeptBootOps.lean ====
section
/-! SUPPORT. Machine/BootOps.lean: each operation keeps what `Kept` says. -/

set_option linter.unusedVariables false
set_option linter.unusedTactic false
set_option linter.unreachableTactic false

namespace Sys2Proof.Machine

variable {p : List Instr} {u : BitVec 64} {r : Nat} {s : State}

theorem programFlash_kept : ∀ {a3 : List Byte} {a2 : Nat} {s : State}, Kept p u r s → Kept p u r (programFlash s a2 a3)
  | [], _, _, h => h
  | _ :: q, _, _, h => programFlash_kept (a3 := q) (State.modFlashByte_kept h)

theorem bootSelect_kept {a1} (h : Kept p u r s) : KeptFst p u r (bootSelect a1 s) := by
  induction a1 generalizing s with
  | nil => unfold bootSelect; exact h
  | cons x q ih =>
    unfold bootSelect
    repeat' (first | with_reducible apply ih | with_reducible refine kept_of_fst (ih ?_) | with_reducible assumption | intro _ | with_reducible apply kept_ite | with_reducible apply fst_ite | with_reducible apply programFlash_kept | split | with_reducible apply fst_mk | with_reducible refine kept_fst (by with_reducible assumption) ?_ | dsimp only)

theorem writeBootLog_kept (h : Kept p u r s) : Kept p u r (writeBootLog s) := by
  unfold writeBootLog
  repeat' (first | with_reducible assumption | intro _ | (fail_if_no_progress with_reducible (apply kept_mk; rfl; rfl; rfl; rfl; rfl; rfl)))

theorem enterRecovery_kept (h : Kept p u r s) : Kept p u r (enterRecovery s) := by
  unfold enterRecovery
  repeat' (first | with_reducible assumption | intro _ | with_reducible apply State.modMbx_kept | with_reducible apply State.condition_kept | (fail_if_no_progress with_reducible (apply kept_mk; rfl; rfl; rfl; rfl; rfl; rfl)) | dsimp only)

theorem selectBoot_kept (h : Kept p u r s) : KeptFst p u r (selectBoot s) := by
  unfold selectBoot
  repeat' (first | with_reducible assumption | intro _ | with_reducible apply bootSelect_kept | with_reducible refine kept_of_fst (bootSelect_kept ?_) | with_reducible refine kept_fst (by with_reducible assumption) (bootSelect_kept ?_) | with_reducible apply enterRecovery_kept | (fail_if_no_progress with_reducible (apply kept_mk; rfl; rfl; rfl; rfl; rfl; rfl)) | split | with_reducible apply fst_mk | with_reducible refine kept_fst (by with_reducible assumption) ?_ | dsimp only)

theorem trainPort_kept {a2} (h : Kept p u r s) : Kept p u r (trainPort s a2) := by
  unfold trainPort
  repeat' (first | with_reducible assumption | intro _ | with_reducible apply kept_ite | with_reducible apply State.modPort_kept | dsimp only)

theorem coldState_kept (h : Kept p u r s) : Kept p u r (coldState s) := ⟨h.1, h.2.1, h.2.2.1, rfl, h.2.2.2.2⟩

theorem keepClassA_kept {a1} (h : Kept p u r s) : Kept p u r (keepClassA a1 s) := h

theorem bootFrom3_kept (h : Kept p u r s) : Kept p u r (bootFrom3 s) := by
  unfold bootFrom3
  repeat' (first | with_reducible assumption | intro _ | with_reducible apply kept_foldl | with_reducible apply State.raise_kept | with_reducible apply bootStep3_kept | dsimp only)

end Sys2Proof.Machine
end

