-- ==== Sys2Proof/Laws/KeptChip.lean ====
section
/-! SUPPORT. Machine/Chip.lean: each operation keeps what `Kept` says. -/

set_option linter.unusedVariables false
set_option linter.unusedTactic false
set_option linter.unreachableTactic false

namespace Sys2Proof.Machine

variable {p : List Instr} {u : BitVec 64} {r : Nat} {s : State}

theorem execPowerOnReset_kept {a1} (h : Kept p u r s) : KeptOut p u r (execPowerOnReset a1 s) := by
  unfold execPowerOnReset
  apply keptOut_next
  repeat' (first | with_reducible assumption | intro _ | with_reducible apply kept_ite | with_reducible apply setCause_kept | with_reducible apply coldState_kept | with_reducible apply bootFrom3_kept | (fail_if_no_progress with_reducible (apply kept_mk; rfl; rfl; rfl; rfl; rfl; rfl)) | dsimp only)

theorem execPowerLoss_kept (h : Kept p u r s) : KeptOut p u r (execPowerLoss s) := by
  unfold execPowerLoss
  apply keptOut_next
  repeat' (first | with_reducible assumption | intro _ | with_reducible apply coldState_kept | (fail_if_no_progress with_reducible (apply kept_mk; rfl; rfl; rfl; rfl; rfl; rfl)) | dsimp only)

theorem execPinReset_kept {a1} (h : Kept p u r s) : KeptOut p u r (execPinReset a1 s) := by
  unfold execPinReset
  apply keptOut_next
  repeat' (first | with_reducible assumption | intro _ | with_reducible apply kept_ite | with_reducible apply chipReset_kept)

theorem execResetEnd_kept (h : Kept p u r s) : KeptOut p u r (execResetEnd s) := by
  unfold execResetEnd
  apply keptOut_next
  repeat' (first | with_reducible assumption | intro _ | with_reducible apply kept_ite | with_reducible apply State.reach_kept | with_reducible apply bootFrom3_kept | with_reducible apply syncBeds_kept | with_reducible apply clearClasses_kept | (fail_if_no_progress with_reducible (apply kept_mk; rfl; rfl; rfl; rfl; rfl; rfl)) | dsimp only)

theorem execBlockResetEnd_kept {a1} (h : Kept p u r s) : KeptOut p u r (execBlockResetEnd a1 s) := by
  unfold execBlockResetEnd
  apply keptOut_next
  repeat' (first | with_reducible assumption | intro _ | with_reducible apply kept_ite | with_reducible apply State.modBlkReset_kept | with_reducible apply syncBeds_kept | with_reducible apply wmInitBed_kept | with_reducible apply startFetch_kept | with_reducible apply xipServe_kept | with_reducible apply postOk_kept | (fail_if_no_progress with_reducible (apply kept_mk; rfl; rfl; rfl; rfl; rfl; rfl)) | split | dsimp only)

theorem execPllLock_kept {a1} (h : Kept p u r s) : KeptOut p u r (execPllLock a1 s) := by
  unfold execPllLock
  apply keptOut_next
  repeat' (first | with_reducible assumption | intro _ | with_reducible apply kept_ite | with_reducible apply fst_ite | with_reducible apply State.condition_kept | with_reducible apply syncBeds_kept | with_reducible apply writeBootLog_kept | with_reducible apply trainPort_kept | with_reducible apply State.live_kept | with_reducible apply enterRecovery_kept | with_reducible apply selectBoot_kept | with_reducible refine kept_of_fst (selectBoot_kept ?_) | with_reducible refine kept_fst (by with_reducible assumption) (selectBoot_kept ?_) | (fail_if_no_progress with_reducible (apply kept_mk; rfl; rfl; rfl; rfl; rfl; rfl)) | split | with_reducible apply fst_mk | with_reducible refine kept_fst (by with_reducible assumption) ?_ | dsimp only)

theorem faultedWork_kept (h : Kept p u r s) : Kept p u r (faultedWork s) := by
  unfold faultedWork
  repeat' (first | with_reducible assumption | intro _ | with_reducible apply kept_foldl | with_reducible apply fst_foldl | with_reducible apply foldl_fst | with_reducible apply endWork_kept | (fail_if_no_progress with_reducible (apply kept_mk; rfl; rfl; rfl; rfl; rfl; rfl)) | dsimp only)

theorem reportReady_kept (h : Kept p u r s) : Kept p u r (reportReady s) := by
  unfold reportReady
  repeat' (first | with_reducible assumption | intro _ | with_reducible apply kept_foldl | with_reducible apply State.modMbx_kept | with_reducible apply faultedWork_kept | (fail_if_no_progress with_reducible (apply kept_mk; rfl; rfl; rfl; rfl; rfl; rfl)) | dsimp only)

theorem execFirmwareReady_kept (h : Kept p u r s) : KeptOut p u r (execFirmwareReady s) := by
  unfold execFirmwareReady
  apply keptOut_next
  repeat' (first | with_reducible assumption | intro _ | with_reducible apply kept_ite | with_reducible apply fst_ite | with_reducible apply selectBoot_kept | with_reducible refine kept_of_fst (selectBoot_kept ?_) | with_reducible refine kept_fst (by with_reducible assumption) (selectBoot_kept ?_) | with_reducible apply reportReady_kept | split | with_reducible apply fst_mk | with_reducible refine kept_fst (by with_reducible assumption) ?_ | dsimp only)

theorem execRefLost_kept {a1} (h : Kept p u r s) : KeptOut p u r (execRefLost a1 s) := by
  unfold execRefLost
  apply keptOut_next
  repeat' (first | with_reducible assumption | intro _ | with_reducible apply kept_ite | with_reducible apply kept_foldl | with_reducible apply State.noteSet_kept | with_reducible apply State.condition_kept | with_reducible apply latchStop_kept | with_reducible apply interruptCal_kept | (fail_if_no_progress with_reducible (apply kept_mk; rfl; rfl; rfl; rfl; rfl; rfl)) | dsimp only)

theorem execRefclkReturn_kept {a1} (h : Kept p u r s) : KeptOut p u r (execRefclkReturn a1 s) := by
  unfold execRefclkReturn
  apply keptOut_next
  repeat' (first | with_reducible assumption | intro _ | with_reducible apply kept_ite | with_reducible apply State.live_kept | (fail_if_no_progress with_reducible (apply kept_mk; rfl; rfl; rfl; rfl; rfl; rfl)) | dsimp only)

theorem execPllRelock_kept (h : Kept p u r s) : KeptOut p u r (execPllRelock s) := by
  unfold execPllRelock
  apply keptOut_next
  repeat' (first | with_reducible assumption | intro _ | with_reducible apply kept_ite | (fail_if_no_progress with_reducible (apply kept_mk; rfl; rfl; rfl; rfl; rfl; rfl)))

theorem execWatchdogExpiry_kept (h : Kept p u r s) : KeptOut p u r (execWatchdogExpiry s) := by
  unfold execWatchdogExpiry
  apply keptOut_next
  repeat' (first | with_reducible assumption | intro _ | with_reducible apply kept_ite | with_reducible apply State.reach_kept | with_reducible apply watchdogRestart_kept | with_reducible apply State.raise_kept | dsimp only)

theorem execActivationRestart_kept (h : Kept p u r s) : KeptOut p u r (execActivationRestart s) := by
  unfold execActivationRestart
  apply keptOut_next
  repeat' (first | with_reducible assumption | intro _ | with_reducible apply kept_ite | with_reducible apply State.reach_kept | with_reducible apply chipReset_kept | with_reducible apply watchdogRestart_kept | (fail_if_no_progress with_reducible (apply kept_mk; rfl; rfl; rfl; rfl; rfl; rfl)) | split | dsimp only)

theorem execTrapTimeout_kept (h : Kept p u r s) : KeptOut p u r (execTrapTimeout s) := by
  unfold execTrapTimeout
  apply keptOut_next
  repeat' (first | with_reducible assumption | intro _ | with_reducible apply watchdogRestart_kept | with_reducible apply State.reach_kept | split | dsimp only)

theorem execDeepEntry_kept (h : Kept p u r s) : KeptOut p u r (execDeepEntry s) := by
  unfold execDeepEntry
  apply keptOut_next
  split
  · exact h
  · exact h

theorem execDeepWake_kept {a1} {a2} (h : Kept p u r s) : KeptOut p u r (execDeepWake a1 a2 s) := by
  unfold execDeepWake
  apply keptOut_next
  repeat' (first | with_reducible assumption | intro _ | with_reducible apply kept_ite | with_reducible apply setCause_kept | with_reducible apply bootFrom3_kept | (fail_if_no_progress with_reducible (apply kept_mk; rfl; rfl; rfl; rfl; rfl; rfl)) | dsimp only)

theorem execStandbyExitComplete_kept {a1} (h : Kept p u r s) : KeptOut p u r (execStandbyExitComplete a1 s) := by
  unfold execStandbyExitComplete
  apply keptOut_next
  repeat' (first | with_reducible assumption | intro _ | with_reducible apply kept_ite | with_reducible apply kept_foldl | with_reducible apply syncBeds_kept | with_reducible apply State.modStbyExit_kept | with_reducible apply State.modLoop_kept | with_reducible apply State.modTiu_kept | with_reducible apply resumeClocks_kept | with_reducible apply wmInitBed_kept | with_reducible apply postOk_kept | dsimp only)

theorem execDramWakeComplete_kept (h : Kept p u r s) : KeptOut p u r (execDramWakeComplete s) := by
  unfold execDramWakeComplete
  apply keptOut_next
  repeat' (first | with_reducible assumption | intro _ | with_reducible apply kept_ite | (fail_if_no_progress with_reducible (apply kept_mk; rfl; rfl; rfl; rfl; rfl; rfl)))

theorem execDramSelfRefreshTimeout_kept (h : Kept p u r s) : KeptOut p u r (execDramSelfRefreshTimeout s) := by
  unfold execDramSelfRefreshTimeout
  apply keptOut_next
  repeat' (first | with_reducible assumption | intro _ | with_reducible apply kept_ite | (fail_if_no_progress with_reducible (apply kept_mk; rfl; rfl; rfl; rfl; rfl; rfl)))

end Sys2Proof.Machine
end

