-- ==== Sys2Proof/Laws/KeptFirmware.lean ====
section
/-! SUPPORT. Machine/Firmware.lean: each operation keeps what `Kept` says. -/

set_option linter.unusedVariables false
set_option linter.unusedTactic false
set_option linter.unreachableTactic false

namespace Sys2Proof.Machine

variable {p : List Instr} {u : BitVec 64} {r : Nat} {s : State}

theorem ackTraps_kept (h : Kept p u r s) : Kept p u r (ackTraps s) := by
  unfold ackTraps
  repeat' (first | with_reducible assumption | intro _ | with_reducible apply kept_foldl | with_reducible apply fst_foldl | with_reducible apply foldl_fst | with_reducible apply State.takeFree_kept | with_reducible apply fwLog_kept | (fail_if_no_progress with_reducible (apply kept_mk; rfl; rfl; rfl; rfl; rfl; rfl)) | dsimp only)

theorem disarmCommit_kept (h : Kept p u r s) : Kept p u r (disarmCommit s) := by
  unfold disarmCommit
  repeat' (first | with_reducible assumption | intro _ | (fail_if_no_progress with_reducible (apply kept_mk; rfl; rfl; rfl; rfl; rfl; rfl)))

theorem failPick_kept {a2} {a3} (h : Kept p u r s) : Kept p u r (failPick s a2 a3) := by
  unfold failPick
  repeat' (first | with_reducible assumption | intro _ | with_reducible apply kept_ite | with_reducible apply postBad_kept | with_reducible apply disarmCommit_kept)

theorem serviceWatchdog_kept (h : Kept p u r s) : Kept p u r (serviceWatchdog s) := by
  unfold serviceWatchdog
  repeat' (first | with_reducible assumption | intro _ | (fail_if_no_progress with_reducible (apply kept_mk; rfl; rfl; rfl; rfl; rfl; rfl)))

theorem pickBox_kept {a2} (h : Kept p u r s) : Kept p u r (pickBox s a2) := by
  unfold pickBox
  repeat' (first | with_reducible assumption | intro _ | with_reducible apply kept_ite | with_reducible apply kept_foldl | with_reducible apply State.modMbx_kept | with_reducible apply failPick_kept | (fail_if_no_progress with_reducible (apply kept_mk; rfl; rfl; rfl; rfl; rfl; rfl)) | split | dsimp only)

theorem execFirmwarePick_kept (h : Kept p u r s) : KeptOut p u r (execFirmwarePick s) := by
  have h1 := ackTraps_kept (serviceWatchdog_kept h)
  unfold execFirmwarePick
  split
  · dsimp only
    split
    · exact keptOut_next h1
    · split
      · intro t e; cases e
      · exact keptOut_next (pickBox_kept h1)
  · exact keptOut_next h

theorem execHello_kept (h : Kept p u r s) : KeptOut p u r (execHello s) := by
  unfold execHello
  apply keptOut_next
  repeat' (first | with_reducible assumption | intro _ | with_reducible apply id_kept | with_reducible apply onCommand_kept | with_reducible apply checked_kept | with_reducible apply postOk_kept | (fail_if_no_progress with_reducible (apply kept_mk; rfl; rfl; rfl; rfl; rfl; rfl)) | split | dsimp only)

theorem execGetInfo_kept (h : Kept p u r s) : KeptOut p u r (execGetInfo s) := by
  unfold execGetInfo
  apply keptOut_next
  repeat' (first | with_reducible assumption | intro _ | with_reducible apply kept_ite | with_reducible apply onCommand_kept | with_reducible apply postOk_kept | dsimp only)

theorem execGetStatus_kept (h : Kept p u r s) : KeptOut p u r (execGetStatus s) := by
  unfold execGetStatus
  apply keptOut_next
  repeat' (first | with_reducible assumption | intro _ | with_reducible apply kept_foldl | with_reducible apply onCommand_kept | with_reducible apply postOk_kept | split | dsimp only)

theorem execQueryProgress_kept (h : Kept p u r s) : KeptOut p u r (execQueryProgress s) := by
  unfold execQueryProgress
  apply keptOut_next
  repeat' (first | with_reducible assumption | intro _ | with_reducible apply onCommand_kept | with_reducible apply checked_kept | with_reducible apply postOk_kept | dsimp only)

theorem dropOwn_kept {a2} (h : Kept p u r s) : Kept p u r (dropOwn s a2) := by
  unfold dropOwn
  repeat' (first | with_reducible assumption | intro _ | with_reducible apply endWork_kept)

theorem stopOwn_kept {a2} (h : Kept p u r s) : Kept p u r (stopOwn s a2) := by
  unfold stopOwn
  repeat' (first | with_reducible assumption | intro _ | with_reducible apply kept_ite | with_reducible apply dropOwn_kept | (fail_if_no_progress with_reducible (apply kept_mk; rfl; rfl; rfl; rfl; rfl; rfl)) | dsimp only)

theorem stopTagged_kept {a2} (h : Kept p u r s) : Kept p u r (stopTagged s a2) := by
  unfold stopTagged
  repeat' (first | with_reducible assumption | intro _ | with_reducible apply kept_ite | with_reducible apply kept_foldl | with_reducible apply latchStop_kept | with_reducible apply endLoopRun_kept | with_reducible apply cutMeas_kept | with_reducible apply cutLock_kept | with_reducible apply cutTim_kept | with_reducible apply stopOwn_kept | (fail_if_no_progress with_reducible (apply kept_mk; rfl; rfl; rfl; rfl; rfl; rfl)) | dsimp only)

theorem execAbort_kept (h : Kept p u r s) : KeptOut p u r (execAbort s) := by
  unfold execAbort
  apply keptOut_next
  repeat' (first | with_reducible assumption | intro _ | with_reducible apply kept_ite | with_reducible apply onCommand_kept | with_reducible apply checked_kept | with_reducible apply waitFor_kept | with_reducible apply stopTagged_kept | with_reducible apply answerAbort_kept | dsimp only)

theorem execCloche_kept (h : Kept p u r s) : KeptOut p u r (execCloche s) := by
  unfold execCloche
  apply keptOut_next
  repeat' (first | with_reducible assumption | intro _ | with_reducible apply onCommand_kept | with_reducible apply checked_kept | with_reducible apply postOk_kept | with_reducible apply commandCloche_kept | dsimp only)

theorem execReleaseCloche_kept (h : Kept p u r s) : KeptOut p u r (execReleaseCloche s) := by
  unfold execReleaseCloche
  apply keptOut_next
  repeat' (first | with_reducible assumption | intro _ | with_reducible apply kept_ite | with_reducible apply onCommand_kept | with_reducible apply checked_kept | with_reducible apply releaseCauses_kept | with_reducible apply postOk_kept | with_reducible apply postResponse_kept | dsimp only)

theorem execResetBlock_kept (h : Kept p u r s) : KeptOut p u r (execResetBlock s) := by
  unfold execResetBlock
  apply keptOut_next
  repeat' (first | with_reducible assumption | intro _ | with_reducible apply kept_ite | with_reducible apply onCommand_kept | with_reducible apply checked_kept | with_reducible apply blockReset_kept | with_reducible apply postOk_kept | with_reducible apply waitFor_kept | dsimp only)

theorem execLogRead_kept (h : Kept p u r s) : KeptOut p u r (execLogRead s) := by
  unfold execLogRead
  apply keptOut_next
  repeat' (first | with_reducible assumption | intro _ | with_reducible apply kept_ite | with_reducible apply onCommand_kept | with_reducible apply checked_kept | with_reducible apply postOk_kept | dsimp only)

theorem checkedOpen_kept {a2} {a3} {a4} (h : Kept p u r s) (a4h : ∀ t, Kept p u r t → Kept p u r (a4 t)) : Kept p u r (checkedOpen s a2 a3 a4) := by
  unfold checkedOpen
  repeat' (first | with_reducible assumption | intro _ | with_reducible apply checked_kept | with_reducible apply State.takeFree_kept | apply a4h | dsimp only)

theorem heldLoads_kept {a2} (h : Kept p u r s) : Kept p u r (heldLoads s a2) := by
  unfold heldLoads
  repeat' (first | with_reducible assumption | intro _ | with_reducible apply kept_foldl | with_reducible apply fst_foldl | with_reducible apply foldl_fst | with_reducible apply loadDac_kept | dsimp only)

theorem restartRound_kept {a2} (h : Kept p u r s) : Kept p u r (restartRound s a2) := by
  unfold restartRound
  repeat' (first | with_reducible assumption | intro _ | with_reducible apply State.modMon_kept | dsimp only)

theorem leaveIdle_kept {a2} (h : Kept p u r s) : Kept p u r (leaveIdle s a2) := by
  unfold leaveIdle
  repeat' (first | with_reducible assumption | intro _ | with_reducible apply kept_ite | with_reducible apply restartRound_kept | with_reducible apply resumeClocks_kept | with_reducible apply heldLoads_kept | with_reducible apply State.modBedPow_kept | dsimp only)

theorem leaveStandby_kept {a2} (h : Kept p u r s) : Kept p u r (leaveStandby s a2) := by
  unfold leaveStandby
  repeat' (first | with_reducible assumption | intro _ | with_reducible apply kept_ite | with_reducible apply restartRound_kept | with_reducible apply State.modBedPow_kept | with_reducible apply State.modStbyExit_kept | dsimp only)

theorem execSetPowerActive_kept (h : Kept p u r s) : KeptOut p u r (execSetPowerActive s) := by
  unfold execSetPowerActive
  apply keptOut_next
  repeat' (first | with_reducible assumption | intro _ | with_reducible apply kept_ite | with_reducible apply kept_foldl | with_reducible apply onCommand_kept | with_reducible apply checkedOpen_kept | with_reducible apply startFetch_kept | with_reducible apply leaveStandby_kept | with_reducible apply leaveIdle_kept | with_reducible apply waitFor_kept | with_reducible apply postOk_kept | (fail_if_no_progress with_reducible (apply kept_mk; rfl; rfl; rfl; rfl; rfl; rfl)) | dsimp only)

theorem enterIdle_kept {a2} (h : Kept p u r s) : Kept p u r (enterIdle s a2) := by
  unfold enterIdle
  repeat' (first | with_reducible assumption | intro _ | with_reducible apply staleTherm_kept | with_reducible apply holdClocks_kept | with_reducible apply State.modStbyExit_kept | with_reducible apply State.modBedPow_kept | dsimp only)

theorem execSetPowerIdle_kept (h : Kept p u r s) : KeptOut p u r (execSetPowerIdle s) := by
  unfold execSetPowerIdle
  apply keptOut_next
  repeat' (first | with_reducible assumption | intro _ | with_reducible apply kept_foldl | with_reducible apply onCommand_kept | with_reducible apply checkedOpen_kept | with_reducible apply enterIdle_kept | with_reducible apply postOk_kept | with_reducible apply startFetch_kept | (fail_if_no_progress with_reducible (apply kept_mk; rfl; rfl; rfl; rfl; rfl; rfl)) | dsimp only)

theorem enterStandby_kept {a2} (h : Kept p u r s) : Kept p u r (enterStandby s a2) := by
  unfold enterStandby
  repeat' (first | with_reducible assumption | intro _ | with_reducible apply staleTherm_kept | with_reducible apply holdClocks_kept | with_reducible apply heldLoads_kept | with_reducible apply State.modStbyExit_kept | with_reducible apply State.modBedPow_kept | dsimp only)

theorem execSetPowerStandby_kept (h : Kept p u r s) : KeptOut p u r (execSetPowerStandby s) := by
  unfold execSetPowerStandby
  apply keptOut_next
  repeat' (first | with_reducible assumption | intro _ | with_reducible apply kept_foldl | with_reducible apply onCommand_kept | with_reducible apply checkedOpen_kept | with_reducible apply postOk_kept | with_reducible apply enterStandby_kept | dsimp only)

theorem execSetPowerDeep_kept (h : Kept p u r s) : KeptOut p u r (execSetPowerDeep s) := by
  unfold execSetPowerDeep
  apply keptOut_next
  repeat' (first | with_reducible assumption | intro _ | with_reducible apply onCommand_kept | with_reducible apply checked_kept | with_reducible apply postOk_kept | (fail_if_no_progress with_reducible (apply kept_mk; rfl; rfl; rfl; rfl; rfl; rfl)) | dsimp only)

theorem execMbDelayEnd_kept {a1} (h : Kept p u r s) : KeptOut p u r (execMbDelayEnd a1 s) := by
  unfold execMbDelayEnd
  apply keptOut_next
  repeat' (first | with_reducible assumption | intro _ | with_reducible apply releaseDelay_kept | with_reducible apply State.reach_kept | split | dsimp only)

end Sys2Proof.Machine
end

