-- ==== Sys2Proof/Laws/KeptUpdate.lean ====
section
/-! SUPPORT. Machine/Update.lean: each operation keeps what `Kept` says. -/

set_option linter.unusedVariables false
set_option linter.unusedTactic false
set_option linter.unreachableTactic false

namespace Sys2Proof.Machine

variable {p : List Instr} {u : BitVec 64} {r : Nat} {s : State}

theorem resumeXip_kept (h : Kept p u r s) : Kept p u r (resumeXip s) := by
  unfold resumeXip
  repeat' (first | with_reducible assumption | intro _ | with_reducible apply kept_ite | with_reducible apply xipServe_kept | split | dsimp only)

theorem startFlash_kept {a2} (h : Kept p u r s) : Kept p u r (startFlash s a2) := by
  unfold startFlash
  repeat' (first | with_reducible assumption | intro _ | with_reducible apply waitFor_kept | (fail_if_no_progress with_reducible (apply kept_mk; rfl; rfl; rfl; rfl; rfl; rfl)))

theorem flashEffect_kept {a2} (h : Kept p u r s) : Kept p u r (flashEffect s a2) := by
  unfold flashEffect
  split
  · exact kept_flash (s := s) rfl rfl rfl rfl (terase_wf _ _ _ _ h.2.2.2.2.1) rfl h
  · exact programFlash_kept h

theorem execFwUpdateBegin_kept (h : Kept p u r s) : KeptOut p u r (execFwUpdateBegin s) := by
  unfold execFwUpdateBegin
  apply keptOut_next
  repeat' (first | with_reducible assumption | intro _ | with_reducible apply kept_ite | with_reducible apply onCommand_kept | with_reducible apply checkedOpen_kept | with_reducible apply waitFor_kept | with_reducible apply accept_kept | (fail_if_no_progress with_reducible (apply kept_mk; rfl; rfl; rfl; rfl; rfl; rfl)) | dsimp only)

theorem execFwEraseDone_kept (h : Kept p u r s) : KeptOut p u r (execFwEraseDone s) := by
  unfold execFwEraseDone
  apply keptOut_next
  repeat' (first | with_reducible assumption | intro _ | with_reducible apply kept_ite | with_reducible apply kept_foldl | with_reducible apply flashEffect_kept | with_reducible apply resumeXip_kept | with_reducible apply postOk_kept | with_reducible apply endWork_kept | (fail_if_no_progress with_reducible (apply kept_mk; rfl; rfl; rfl; rfl; rfl; rfl)) | split | dsimp only)

theorem execFwUpdateData_kept (h : Kept p u r s) : KeptOut p u r (execFwUpdateData s) := by
  unfold execFwUpdateData
  apply keptOut_next
  repeat' (first | with_reducible assumption | intro _ | with_reducible apply kept_ite | with_reducible apply id_kept | with_reducible apply onCommand_kept | with_reducible apply checkedOpen_kept | with_reducible apply postResponse_kept | with_reducible apply startFlash_kept | split | dsimp only)

theorem execFwUpdateCommit_kept (h : Kept p u r s) : KeptOut p u r (execFwUpdateCommit s) := by
  unfold execFwUpdateCommit
  apply keptOut_next
  repeat' (first | with_reducible assumption | intro _ | with_reducible apply kept_ite | with_reducible apply onCommand_kept | with_reducible apply postBad_kept | with_reducible apply disarmCommit_kept | with_reducible apply startFlash_kept | (fail_if_no_progress with_reducible (apply kept_mk; rfl; rfl; rfl; rfl; rfl; rfl)) | split | dsimp only)

theorem execFwUpdateConfirm_kept (h : Kept p u r s) : KeptOut p u r (execFwUpdateConfirm s) := by
  unfold execFwUpdateConfirm
  apply keptOut_next
  repeat' (first | with_reducible assumption | intro _ | with_reducible apply kept_ite | with_reducible apply onCommand_kept | with_reducible apply postBad_kept | with_reducible apply disarmCommit_kept | with_reducible apply startFlash_kept | with_reducible apply postOk_kept | split | dsimp only)

theorem finishCommit_kept {a2} (h : Kept p u r s) : Kept p u r (finishCommit s a2) := by
  unfold finishCommit
  repeat' (first | with_reducible assumption | intro _ | with_reducible apply kept_ite | with_reducible apply disarmCommit_kept | with_reducible apply postOk_kept | with_reducible apply postBad_kept | (fail_if_no_progress with_reducible (apply kept_mk; rfl; rfl; rfl; rfl; rfl; rfl)) | dsimp only)

theorem finishConfirm_kept (h : Kept p u r s) : Kept p u r (finishConfirm s) := by
  have h1 : ∀ v, Kept p u r { s with fw := { s.fw with rollback := min 64 (max s.fw.rollback v) } } := fun v =>
    ⟨h.1, h.2.1, ⟨by have := h.2.2.1; simp only; omega, by simp only; omega⟩, h.2.2.2⟩
  unfold finishConfirm
  exact postOk_kept (disarmCommit_kept (h1 _))

theorem finishFlash_kept (h : Kept p u r s) : Kept p u r (finishFlash s) := by
  unfold finishFlash
  repeat' (first | with_reducible assumption | intro _ | with_reducible apply kept_ite | with_reducible apply postOk_kept | with_reducible apply finishCommit_kept | with_reducible apply finishConfirm_kept | (fail_if_no_progress with_reducible (apply kept_mk; rfl; rfl; rfl; rfl; rfl; rfl)) | split | dsimp only)

theorem execFlashOpDone_kept (h : Kept p u r s) : KeptOut p u r (execFlashOpDone s) := by
  unfold execFlashOpDone
  apply keptOut_next
  repeat' (first | with_reducible assumption | intro _ | with_reducible apply kept_ite | with_reducible apply flashEffect_kept | with_reducible apply finishFlash_kept | with_reducible apply resumeXip_kept | (fail_if_no_progress with_reducible (apply kept_mk; rfl; rfl; rfl; rfl; rfl; rfl)) | split | dsimp only)

theorem flashUnknown_kept {a2} (h : Kept p u r s) : Kept p u r (flashUnknown s a2) := by
  unfold flashUnknown
  split
  · exact kept_flash (s := s) rfl rfl rfl rfl (tput_wf _ _ _ _ h.2.2.2.2.1) rfl h
  · exact kept_flash (s := s) rfl rfl rfl rfl (tput_wf _ _ _ _ h.2.2.2.2.1) rfl h

theorem execFlashTimeout_kept (h : Kept p u r s) : KeptOut p u r (execFlashTimeout s) := by
  unfold execFlashTimeout
  apply keptOut_next
  repeat' (first | with_reducible assumption | intro _ | with_reducible apply kept_ite | with_reducible apply flashUnknown_kept | with_reducible apply State.raise_kept | with_reducible apply resumeXip_kept | with_reducible apply endWork_kept | with_reducible apply postBad_kept | with_reducible apply disarmCommit_kept | (fail_if_no_progress with_reducible (apply kept_mk; rfl; rfl; rfl; rfl; rfl; rfl)) | split | dsimp only)

end Sys2Proof.Machine
end

