-- ==== Sys2Proof/Laws/KeptBusOps.lean ====
section
/-! SUPPORT. Machine/BusOps.lean: each operation keeps what `Kept` says. -/

set_option linter.unusedVariables false
set_option linter.unusedTactic false
set_option linter.unreachableTactic false

namespace Sys2Proof.Machine

variable {p : List Instr} {u : BitVec 64} {r : Nat} {s : State}

theorem busTurn_kept {a2} (h : Kept p u r s) : Kept p u r (busTurn s a2) := by
  unfold busTurn
  repeat' (first | with_reducible assumption | intro _ | with_reducible apply kept_ite | (fail_if_no_progress with_reducible (apply kept_mk; rfl; rfl; rfl; rfl; rfl; rfl)))

theorem busDone_kept {a2} (h : Kept p u r s) : Kept p u r (busDone s a2) := by
  unfold busDone
  repeat' (first | with_reducible assumption | intro _ | (fail_if_no_progress with_reducible (apply kept_mk; rfl; rfl; rfl; rfl; rfl; rfl)) | split | dsimp only)

theorem State.modRingPort_kept {a2} {a3} (h : Kept p u r s) : Kept p u r (State.modRingPort s a2 a3) := by
  unfold State.modRingPort
  repeat' (first | with_reducible assumption | intro _ | (fail_if_no_progress with_reducible (apply kept_mk; rfl; rfl; rfl; rfl; rfl; rfl)) | split | dsimp only)

theorem unmapped_kept {a2} (h : Kept p u r s) : Kept p u r (unmapped s a2) := by
  unfold unmapped
  repeat' (first | with_reducible assumption | intro _ | with_reducible apply State.raise_kept)

theorem readEffect_kept {a2} {a3} (h : Kept p u r s) : Kept p u r (readEffect s a2 a3) := by
  unfold readEffect
  repeat' (first | with_reducible assumption | intro _ | with_reducible apply kept_ite | with_reducible apply unmapped_kept | with_reducible apply State.modRingPort_kept | dsimp only)

theorem setHalf_kept {a2} {a3} (h : Kept p u r s) : Kept p u r (setHalf s a2 a3) := by
  unfold setHalf
  repeat' (first | with_reducible assumption | intro _ | (fail_if_no_progress with_reducible (apply kept_mk; rfl; rfl; rfl; rfl; rfl; rfl)) | split | dsimp only)

theorem reject_kept {a2} {a3} {a4} {a5} (h : Kept p u r s) : Kept p u r (reject s a2 a3 a4 a5) := by
  induction a5 generalizing s with
  | zero => unfold reject; exact h
  | succ q ih =>
    unfold reject
    repeat' (first | with_reducible apply ih | with_reducible refine kept_of_fst (ih ?_) | with_reducible assumption | intro _ | with_reducible apply State.noteAdd_kept | with_reducible apply State.raise_kept | (fail_if_no_progress with_reducible (apply kept_mk; rfl; rfl; rfl; rfl; rfl; rfl)) | split | dsimp only)

theorem expireHalf_kept {a2} (h : Kept p u r s) : Kept p u r (expireHalf s a2) := by
  unfold expireHalf
  repeat' (first | with_reducible assumption | intro _ | with_reducible apply kept_ite | with_reducible apply reject_kept | with_reducible apply setHalf_kept | split | dsimp only)

theorem clearShutdown_kept (h : Kept p u r s) : Kept p u r (clearShutdown s) := by
  unfold clearShutdown
  repeat' (first | with_reducible assumption | intro _ | with_reducible apply kept_ite | with_reducible apply kept_foldl | with_reducible apply restartRound_kept | with_reducible apply State.live_kept | (fail_if_no_progress with_reducible (apply kept_mk; rfl; rfl; rfl; rfl; rfl; rfl)) | dsimp only)

theorem guardEffect_kept {a2} {a3} (h : Kept p u r s) : Kept p u r (guardEffect s a2 a3) := by
  unfold guardEffect
  repeat' (first | with_reducible assumption | intro _ | with_reducible apply kept_ite | with_reducible apply chipReset_kept | with_reducible apply commandCloche_kept | with_reducible apply releaseCauses_kept | with_reducible apply clearShutdown_kept | with_reducible apply armPerturb_kept | with_reducible apply State.raiseForced_kept | (fail_if_no_progress with_reducible (apply kept_mk; rfl; rfl; rfl; rfl; rfl; rfl)) | dsimp only)

theorem noteHost_kept {a2} {a3} {a4} {a5} {a6} (h : Kept p u r s) : Kept p u r (noteHost s a2 a3 a4 a5 a6) := by
  unfold noteHost
  repeat' (first | with_reducible assumption | intro _ | with_reducible apply kept_ite | (fail_if_no_progress with_reducible (apply kept_mk; rfl; rfl; rfl; rfl; rfl; rfl)))

theorem guardLand_kept {a2} {a3} {a4} (h : Kept p u r s) : Kept p u r (guardLand s a2 a3 a4) := by
  unfold guardLand
  repeat' (first | with_reducible assumption | intro _ | with_reducible apply kept_ite | with_reducible apply kept_foldl | with_reducible apply fst_foldl | with_reducible apply foldl_fst | with_reducible apply guardEffect_kept | with_reducible apply noteHost_kept | dsimp only)

theorem guardWrite_kept {a2} {a3} {a4} (h : Kept p u r s) : Kept p u r (guardWrite s a2 a3 a4) := by
  unfold guardWrite
  repeat' (first | with_reducible assumption | intro _ | with_reducible apply kept_ite | with_reducible apply expireHalf_kept | with_reducible apply setHalf_kept | with_reducible apply reject_kept | with_reducible apply guardLand_kept | split | dsimp only)

theorem writeControl_kept {a2} {a3} {a4} {a5} (h : Kept p u r s) : Kept p u r (writeControl s a2 a3 a4 a5) := by
  unfold writeControl
  repeat' (first | with_reducible assumption | intro _ | with_reducible apply kept_ite | with_reducible apply kept_foldl | with_reducible apply State.noteBase_kept | with_reducible apply State.modTrig_kept | with_reducible apply trigPulse_kept | with_reducible apply State.modTin_kept | (fail_if_no_progress with_reducible (apply kept_mk; rfl; rfl; rfl; rfl; rfl; rfl)) | split | dsimp only)

theorem ringDoorbell_kept {a2} (h : Kept p u r s) : KeptFst p u r (ringDoorbell s a2) := by
  unfold ringDoorbell
  repeat' (first | with_reducible assumption | intro _ | with_reducible apply kept_ite | with_reducible apply fst_ite | with_reducible apply State.modMbx_kept | with_reducible apply State.noteSet_kept | with_reducible apply State.noteAdd_kept | with_reducible apply fst_mk | dsimp only)

theorem writeMailbox_kept {a2} {a3} {a4} {a5} {a6} {a7} (h : Kept p u r s) : Kept p u r (writeMailbox s a2 a3 a4 a5 a6 a7) := by
  unfold writeMailbox
  repeat' (first | with_reducible assumption | intro _ | with_reducible apply kept_ite | with_reducible apply fst_ite | with_reducible apply State.modMbx_kept | with_reducible apply State.noteSet_kept | with_reducible apply ringDoorbell_kept | with_reducible refine kept_of_fst (ringDoorbell_kept ?_) | with_reducible refine kept_fst (by with_reducible assumption) (ringDoorbell_kept ?_) | with_reducible apply State.noteBase_kept | with_reducible apply fst_mk | dsimp only)

theorem writeEvents_kept {a2} {a3} {a4} (h : Kept p u r s) : Kept p u r (writeEvents s a2 a3 a4) := by
  unfold writeEvents
  repeat' (first | with_reducible assumption | intro _ | with_reducible apply kept_ite | with_reducible apply State.noteBase_kept | with_reducible apply State.modFblk_kept | dsimp only)

theorem writeFault_kept {a2} {a3} {a4} {a5} {a6} (h : Kept p u r s) : Kept p u r (writeFault s a2 a3 a4 a5 a6) := by
  unfold writeFault
  repeat' (first | with_reducible assumption | intro _ | with_reducible apply kept_ite | with_reducible apply State.modFblk_kept | with_reducible apply ackFault_kept | with_reducible apply writeEvents_kept | dsimp only)

theorem writeTime_kept {a2} {a3} {a4} {a5} (h : Kept p u r s) : Kept p u r (writeTime s a2 a3 a4 a5) := by
  unfold writeTime
  repeat' (first | with_reducible assumption | intro _ | with_reducible apply kept_ite | with_reducible apply State.noteBase_kept | (fail_if_no_progress with_reducible (apply kept_mk; rfl; rfl; rfl; rfl; rfl; rfl)) | dsimp only)

theorem postRelease_kept {a2} {a3} (h : Kept p u r s) : Kept p u r (postRelease s a2 a3) := by
  unfold postRelease
  repeat' (first | with_reducible assumption | intro _ | with_reducible apply kept_ite | with_reducible apply fst_ite | with_reducible apply releaseRing_kept | with_reducible refine kept_of_fst (releaseRing_kept ?_) | with_reducible refine kept_fst (by with_reducible assumption) (releaseRing_kept ?_) | with_reducible apply State.raise_kept | split | with_reducible apply fst_mk | with_reducible refine kept_fst (by with_reducible assumption) ?_ | dsimp only)

theorem writeRelease_kept {a2} {a3} {a4} {a5} (h : Kept p u r s) : Kept p u r (writeRelease s a2 a3 a4 a5) := by
  unfold writeRelease
  repeat' (first | with_reducible assumption | intro _ | with_reducible apply kept_ite | with_reducible apply State.modRingPort_kept | with_reducible apply postRelease_kept | dsimp only)

theorem writePlain_kept {a2} {a3} {a4} {a5} {a6} (h : Kept p u r s) : Kept p u r (writePlain s a2 a3 a4 a5 a6) := by
  unfold writePlain
  repeat' (first | with_reducible assumption | intro _ | with_reducible apply kept_ite | with_reducible apply kept_foldl | with_reducible apply writeControl_kept | with_reducible apply writeMailbox_kept | with_reducible apply writeFault_kept | with_reducible apply writeTime_kept | with_reducible apply State.modZone_kept | with_reducible apply writeRelease_kept | dsimp only)

theorem landWrite_kept {a2} {a3} {a4} {a5} {a6} (h : Kept p u r s) : Kept p u r (landWrite s a2 a3 a4 a5 a6) := by
  unfold landWrite
  repeat' (first | with_reducible assumption | intro _ | with_reducible apply kept_ite | with_reducible apply kept_foldl | with_reducible apply fst_foldl | with_reducible apply foldl_fst | with_reducible apply writePlain_kept | with_reducible apply noteHost_kept | dsimp only)

theorem writeWord_kept {a2} {a3} {a4} (h : Kept p u r s) : Kept p u r (writeWord s a2 a3 a4) := by
  unfold writeWord
  repeat' (first | with_reducible assumption | intro _ | with_reducible apply kept_ite | with_reducible apply expireHalf_kept | with_reducible apply unmapped_kept | with_reducible apply reject_kept | with_reducible apply landWrite_kept | with_reducible apply guardWrite_kept | dsimp only)

theorem busWrite_kept {a2} {a3} {a4} (h : Kept p u r s) : Kept p u r (busWrite s a2 a3 a4) := by
  unfold busWrite
  repeat' (first | with_reducible assumption | intro _ | with_reducible apply kept_ite | with_reducible apply busDone_kept | with_reducible apply writeWord_kept | with_reducible apply busTurn_kept)

theorem busRead_kept {a2} {a3} (h : Kept p u r s) : Kept p u r (busRead s a2 a3) := by
  unfold busRead
  repeat' (first | with_reducible assumption | intro _ | with_reducible apply kept_ite | with_reducible apply readEffect_kept | with_reducible apply busTurn_kept | with_reducible apply busDone_kept | (fail_if_no_progress with_reducible (apply kept_mk; rfl; rfl; rfl; rfl; rfl; rfl)) | dsimp only)

end Sys2Proof.Machine
end

