-- ==== Sys2Proof/Laws/KeptBus.lean ====
section
/-! SUPPORT. Machine/Bus.lean: each operation keeps what `Kept` says. -/

set_option linter.unusedVariables false
set_option linter.unusedTactic false
set_option linter.unreachableTactic false

namespace Sys2Proof.Machine

variable {p : List Instr} {u : BitVec 64} {r : Nat} {s : State}

theorem execRegisterWritePlain_kept {a1} {a2} {a3} (h : Kept p u r s) : KeptOut p u r (execRegisterWritePlain a1 a2 a3 s) := by
  unfold execRegisterWritePlain
  apply keptOut_next
  repeat' (first | with_reducible assumption | intro _ | with_reducible apply busWrite_kept)

theorem execAliasWrite_kept {a1} {a2} {a3} (h : Kept p u r s) : KeptOut p u r (execAliasWrite a1 a2 a3 s) := by
  unfold execAliasWrite
  apply keptOut_next
  repeat' (first | with_reducible assumption | intro _ | with_reducible apply kept_ite | with_reducible apply busWrite_kept)

theorem execGuardValueWrite_kept {a1} {a2} {a3} (h : Kept p u r s) : KeptOut p u r (execGuardValueWrite a1 a2 a3 s) := by
  unfold execGuardValueWrite
  apply keptOut_next
  repeat' (first | with_reducible assumption | intro _ | with_reducible apply kept_ite | with_reducible apply busWrite_kept)

theorem execGuardWindowExpiry_kept {a1} (h : Kept p u r s) : KeptOut p u r (execGuardWindowExpiry a1 s) := by
  unfold execGuardWindowExpiry
  apply keptOut_next
  repeat' (first | with_reducible assumption | intro _ | with_reducible apply expireHalf_kept | with_reducible apply State.reach_kept | split | dsimp only)

theorem execChipReset_kept {a1} {a2} (h : Kept p u r s) : KeptOut p u r (execChipReset a1 a2 s) := by
  unfold execChipReset
  apply keptOut_next
  repeat' (first | with_reducible assumption | intro _ | with_reducible apply busWrite_kept)

theorem execClocheOverride_kept {a1} {a2} (h : Kept p u r s) : KeptOut p u r (execClocheOverride a1 a2 s) := by
  unfold execClocheOverride
  apply keptOut_next
  repeat' (first | with_reducible assumption | intro _ | with_reducible apply busWrite_kept)

theorem execClocheRelease_kept {a1} {a2} (h : Kept p u r s) : KeptOut p u r (execClocheRelease a1 a2 s) := by
  unfold execClocheRelease
  apply keptOut_next
  repeat' (first | with_reducible assumption | intro _ | with_reducible apply busWrite_kept)

theorem execKeepWe_kept {a1} {a2} (h : Kept p u r s) : KeptOut p u r (execKeepWe a1 a2 s) := by
  unfold execKeepWe
  apply keptOut_next
  repeat' (first | with_reducible assumption | intro _ | with_reducible apply busWrite_kept)

theorem execShutdownClear_kept {a1} {a2} (h : Kept p u r s) : KeptOut p u r (execShutdownClear a1 a2 s) := by
  unfold execShutdownClear
  apply keptOut_next
  repeat' (first | with_reducible assumption | intro _ | with_reducible apply busWrite_kept)

theorem execFwCommit_kept {a1} {a2} (h : Kept p u r s) : KeptOut p u r (execFwCommit a1 a2 s) := by
  unfold execFwCommit
  apply keptOut_next
  repeat' (first | with_reducible assumption | intro _ | with_reducible apply busWrite_kept)

theorem execFaultForceRegister_kept {a1} {a2} {a3} (h : Kept p u r s) : KeptOut p u r (execFaultForceRegister a1 a2 a3 s) := by
  unfold execFaultForceRegister
  apply keptOut_next
  repeat' (first | with_reducible assumption | intro _ | with_reducible apply busWrite_kept)

theorem execPerturbArm_kept {a1} {a2} (h : Kept p u r s) : KeptOut p u r (execPerturbArm a1 a2 s) := by
  unfold execPerturbArm
  apply keptOut_next
  repeat' (first | with_reducible assumption | intro _ | with_reducible apply busWrite_kept)

theorem execDoorbellWrite_kept {a1} {a2} {a3} (h : Kept p u r s) : KeptOut p u r (execDoorbellWrite a1 a2 a3 s) := by
  unfold execDoorbellWrite
  apply keptOut_next
  repeat' (first | with_reducible assumption | intro _ | with_reducible apply busWrite_kept)

theorem execMailboxAck_kept {a1} {a2} {a3} (h : Kept p u r s) : KeptOut p u r (execMailboxAck a1 a2 a3 s) := by
  unfold execMailboxAck
  apply keptOut_next
  repeat' (first | with_reducible assumption | intro _ | with_reducible apply busWrite_kept)

theorem execFaultAck_kept {a1} {a2} {a3} (h : Kept p u r s) : KeptOut p u r (execFaultAck a1 a2 a3 s) := by
  unfold execFaultAck
  apply keptOut_next
  repeat' (first | with_reducible assumption | intro _ | with_reducible apply busWrite_kept)

theorem execReleasePost_kept {a1} {a2} (h : Kept p u r s) : KeptOut p u r (execReleasePost a1 a2 s) := by
  unfold execReleasePost
  apply keptOut_next
  repeat' (first | with_reducible assumption | intro _ | with_reducible apply busWrite_kept)

theorem execRingSnapshotRead_kept {a1} (h : Kept p u r s) : KeptOut p u r (execRingSnapshotRead a1 s) := by
  unfold execRingSnapshotRead
  apply keptOut_next
  repeat' (first | with_reducible assumption | intro _ | with_reducible apply busRead_kept)

theorem execTrigForce_kept {a1} {a2} (h : Kept p u r s) : KeptOut p u r (execTrigForce a1 a2 s) := by
  unfold execTrigForce
  apply keptOut_next
  repeat' (first | with_reducible assumption | intro _ | with_reducible apply busWrite_kept)

end Sys2Proof.Machine
end

