-- ==== Sys2Proof/Laws/KeptEngine.lean ====
section
/-! SUPPORT. Machine/Engine.lean: each operation keeps what `Kept` says. -/

set_option linter.unusedVariables false
set_option linter.unusedTactic false
set_option linter.unreachableTactic false

namespace Sys2Proof.Machine

variable {p : List Instr} {u : BitVec 64} {r : Nat} {s : State}

theorem execGainTableLoad_kept (h : Kept p u r s) : KeptOut p u r (execGainTableLoad s) := by
  unfold execGainTableLoad
  apply keptOut_next
  repeat' (first | with_reducible assumption | intro _ | with_reducible apply kept_foldl | with_reducible apply onCommand_kept | with_reducible apply checked_kept | with_reducible apply postOk_kept | with_reducible apply State.modGainPt_kept | dsimp only)

theorem execGainTableRead_kept (h : Kept p u r s) : KeptOut p u r (execGainTableRead s) := by
  unfold execGainTableRead
  apply keptOut_next
  repeat' (first | with_reducible assumption | intro _ | with_reducible apply onCommand_kept | with_reducible apply checked_kept | with_reducible apply postOk_kept | dsimp only)

theorem stageSets_kept {a2} (h : Kept p u r s) : Kept p u r (stageSets s a2) := by
  unfold stageSets
  repeat' (first | with_reducible assumption | intro _ | with_reducible apply kept_ite | with_reducible apply kept_foldl | with_reducible apply State.modLoop_kept | dsimp only)

theorem scheduleSwaps_kept {a2} (h : Kept p u r s) : Kept p u r (scheduleSwaps s a2) := by
  unfold scheduleSwaps
  repeat' (first | with_reducible assumption | intro _ | with_reducible apply kept_ite | with_reducible apply kept_foldl | with_reducible apply State.modLoop_kept | with_reducible apply postOk_kept | with_reducible apply answerSwap_kept | with_reducible apply waitFor_kept | dsimp only)

theorem execCoefSwapStage_kept (h : Kept p u r s) : KeptOut p u r (execCoefSwapStage s) := by
  unfold execCoefSwapStage
  apply keptOut_next
  repeat' (first | with_reducible assumption | intro _ | with_reducible apply onCommand_kept | with_reducible apply checked_kept | with_reducible apply postOk_kept | with_reducible apply stageSets_kept | dsimp only)

theorem execCoefSwapSwap_kept (h : Kept p u r s) : KeptOut p u r (execCoefSwapSwap s) := by
  unfold execCoefSwapSwap
  apply keptOut_next
  repeat' (first | with_reducible assumption | intro _ | with_reducible apply onCommand_kept | with_reducible apply checked_kept | with_reducible apply scheduleSwaps_kept | dsimp only)

theorem execCoefSwapStageSwap_kept (h : Kept p u r s) : KeptOut p u r (execCoefSwapStageSwap s) := by
  unfold execCoefSwapStageSwap
  apply keptOut_next
  repeat' (first | with_reducible assumption | intro _ | with_reducible apply onCommand_kept | with_reducible apply checked_kept | with_reducible apply scheduleSwaps_kept | with_reducible apply stageSets_kept | dsimp only)

theorem execCoefSwapRead_kept (h : Kept p u r s) : KeptOut p u r (execCoefSwapRead s) := by
  unfold execCoefSwapRead
  apply keptOut_next
  repeat' (first | with_reducible assumption | intro _ | with_reducible apply onCommand_kept | with_reducible apply checked_kept | with_reducible apply postOk_kept | split | dsimp only)

theorem execRegionSetDefine_kept (h : Kept p u r s) : KeptOut p u r (execRegionSetDefine s) := by
  unfold execRegionSetDefine
  apply keptOut_next
  repeat' (first | with_reducible assumption | intro _ | with_reducible apply kept_ite | with_reducible apply kept_foldl | with_reducible apply onCommand_kept | with_reducible apply checked_kept | with_reducible apply State.modLoop_kept | with_reducible apply postOk_kept | split | dsimp only)

theorem execRegionSetWrite_kept (h : Kept p u r s) : KeptOut p u r (execRegionSetWrite s) := by
  unfold execRegionSetWrite
  apply keptOut_next
  repeat' (first | with_reducible assumption | intro _ | with_reducible apply kept_ite | with_reducible apply kept_foldl | with_reducible apply onCommand_kept | with_reducible apply checked_kept | with_reducible apply postOk_kept | with_reducible apply State.modLoop_kept | dsimp only)

theorem execRegionSetRead_kept (h : Kept p u r s) : KeptOut p u r (execRegionSetRead s) := by
  unfold execRegionSetRead
  apply keptOut_next
  repeat' (first | with_reducible assumption | intro _ | with_reducible apply onCommand_kept | with_reducible apply checked_kept | with_reducible apply postOk_kept | dsimp only)

theorem execProfileMove_kept (h : Kept p u r s) : KeptOut p u r (execProfileMove s) := by
  unfold execProfileMove
  apply keptOut_next
  repeat' (first | with_reducible assumption | intro _ | with_reducible apply kept_ite | with_reducible apply onCommand_kept | with_reducible apply checked_kept | with_reducible apply startSources_kept | split | dsimp only)

theorem execProfileMoveEnd_kept {a1} (h : Kept p u r s) : KeptOut p u r (execProfileMoveEnd a1 s) := by
  unfold execProfileMoveEnd
  apply keptOut_next
  repeat' (first | with_reducible assumption | intro _ | with_reducible apply kept_ite | with_reducible apply endLoopRun_kept | split | dsimp only)

theorem voidLoads_kept {a2} (h : Kept p u r s) : Kept p u r (voidLoads s a2) := by
  unfold voidLoads
  repeat' (first | with_reducible assumption | intro _ | with_reducible apply kept_ite | (fail_if_no_progress with_reducible (apply kept_mk; rfl; rfl; rfl; rfl; rfl; rfl)) | dsimp only)

theorem execWaveLoad_kept (h : Kept p u r s) : KeptOut p u r (execWaveLoad s) := by
  unfold execWaveLoad
  apply keptOut_next
  repeat' (first | with_reducible assumption | intro _ | with_reducible apply kept_ite | with_reducible apply onCommand_kept | with_reducible apply checked_kept | with_reducible apply voidLoads_kept | with_reducible apply accept_kept | with_reducible apply State.modWaveSeg_kept | with_reducible apply endWork_kept | (fail_if_no_progress with_reducible (apply kept_mk; rfl; rfl; rfl; rfl; rfl; rfl)) | dsimp only)

theorem execWaveLoadDone_kept {a1} (h : Kept p u r s) : KeptOut p u r (execWaveLoadDone a1 s) := by
  unfold execWaveLoadDone
  apply keptOut_next
  repeat' (first | with_reducible assumption | intro _ | with_reducible apply kept_ite | with_reducible apply endWork_kept | with_reducible apply State.modWaveSeg_kept | (fail_if_no_progress with_reducible (apply kept_mk; rfl; rfl; rfl; rfl; rfl; rfl)) | split | dsimp only)

theorem execWaveRunStart_kept (h : Kept p u r s) : KeptOut p u r (execWaveRunStart s) := by
  unfold execWaveRunStart
  apply keptOut_next
  repeat' (first | with_reducible assumption | intro _ | with_reducible apply kept_ite | with_reducible apply onCommand_kept | with_reducible apply checked_kept | with_reducible apply startSources_kept | dsimp only)

theorem execWaveRunJump_kept (h : Kept p u r s) : KeptOut p u r (execWaveRunJump s) := by
  unfold execWaveRunJump
  apply keptOut_next
  repeat' (first | with_reducible assumption | intro _ | with_reducible apply kept_foldl | with_reducible apply onCommand_kept | with_reducible apply checked_kept | with_reducible apply postOk_kept | with_reducible apply State.modLoop_kept | split | dsimp only)

theorem execWaveRunStop_kept (h : Kept p u r s) : KeptOut p u r (execWaveRunStop s) := by
  unfold execWaveRunStop
  apply keptOut_next
  repeat' (first | with_reducible assumption | intro _ | with_reducible apply kept_foldl | with_reducible apply onCommand_kept | with_reducible apply checked_kept | with_reducible apply postOk_kept | with_reducible apply State.modLoop_kept | split | dsimp only)

theorem execWaveRunEnd_kept {a1} (h : Kept p u r s) : KeptOut p u r (execWaveRunEnd a1 s) := by
  unfold execWaveRunEnd
  apply keptOut_next
  repeat' (first | with_reducible assumption | intro _ | with_reducible apply kept_ite | with_reducible apply endLoopRun_kept | split | dsimp only)

theorem execSineRunStart_kept (h : Kept p u r s) : KeptOut p u r (execSineRunStart s) := by
  unfold execSineRunStart
  apply keptOut_next
  repeat' (first | with_reducible assumption | intro _ | with_reducible apply kept_ite | with_reducible apply onCommand_kept | with_reducible apply checked_kept | with_reducible apply startSources_kept | dsimp only)

theorem execSineRunChange_kept (h : Kept p u r s) : KeptOut p u r (execSineRunChange s) := by
  unfold execSineRunChange
  apply keptOut_next
  repeat' (first | with_reducible assumption | intro _ | with_reducible apply kept_ite | with_reducible apply kept_foldl | with_reducible apply onCommand_kept | with_reducible apply checked_kept | with_reducible apply State.modLoop_kept | with_reducible apply postOk_kept | split | dsimp only)

theorem execSineRunStop_kept (h : Kept p u r s) : KeptOut p u r (execSineRunStop s) := by
  unfold execSineRunStop
  apply keptOut_next
  repeat' (first | with_reducible assumption | intro _ | with_reducible apply kept_ite | with_reducible apply kept_foldl | with_reducible apply onCommand_kept | with_reducible apply checked_kept | with_reducible apply State.modLoop_kept | with_reducible apply postOk_kept | split | dsimp only)

theorem execSineChangeDue_kept {a1} (h : Kept p u r s) : KeptOut p u r (execSineChangeDue a1 s) := by
  unfold execSineChangeDue
  apply keptOut_next
  repeat' (first | with_reducible assumption | intro _ | with_reducible apply sineChange_kept | with_reducible apply State.reach_kept | split | dsimp only)

theorem execSineCyclesEnd_kept {a1} (h : Kept p u r s) : KeptOut p u r (execSineCyclesEnd a1 s) := by
  unfold execSineCyclesEnd
  apply keptOut_next
  repeat' (first | with_reducible assumption | intro _ | with_reducible apply kept_ite | with_reducible apply State.modLoop_kept | split | dsimp only)

theorem execSineRampEnd_kept {a1} (h : Kept p u r s) : KeptOut p u r (execSineRampEnd a1 s) := by
  unfold execSineRampEnd
  apply keptOut_next
  repeat' (first | with_reducible assumption | intro _ | with_reducible apply kept_ite | with_reducible apply endLoopRun_kept | split | dsimp only)

end Sys2Proof.Machine
end

