-- ==== Sys2Proof/Laws/KeptFaults.lean ====
section
/-! SUPPORT. Machine/Faults.lean: each operation keeps what `Kept` says. -/

set_option linter.unusedVariables false
set_option linter.unusedTactic false
set_option linter.unreachableTactic false

namespace Sys2Proof.Machine

variable {p : List Instr} {u : BitVec 64} {r : Nat} {s : State}

theorem execFaultConfig_kept (h : Kept p u r s) : KeptOut p u r (execFaultConfig s) := by
  unfold execFaultConfig
  apply keptOut_next
  repeat' (first | with_reducible assumption | intro _ | with_reducible apply kept_foldl | with_reducible apply onCommand_kept | with_reducible apply checked_kept | with_reducible apply State.setReact_kept | with_reducible apply postOk_kept | dsimp only)

theorem execFaultConfigRead_kept (h : Kept p u r s) : KeptOut p u r (execFaultConfigRead s) := by
  unfold execFaultConfigRead
  apply keptOut_next
  repeat' (first | with_reducible assumption | intro _ | with_reducible apply onCommand_kept | with_reducible apply checked_kept | with_reducible apply postOk_kept | dsimp only)

theorem execFaultForce_kept (h : Kept p u r s) : KeptOut p u r (execFaultForce s) := by
  unfold execFaultForce
  apply keptOut_next
  repeat' (first | with_reducible assumption | intro _ | with_reducible apply kept_ite | with_reducible apply onCommand_kept | with_reducible apply checked_kept | with_reducible apply fireForced_kept | with_reducible apply postOk_kept | (fail_if_no_progress with_reducible (apply kept_mk; rfl; rfl; rfl; rfl; rfl; rfl)) | dsimp only)

theorem execPerturbSet_kept (h : Kept p u r s) : KeptOut p u r (execPerturbSet s) := by
  unfold execPerturbSet
  apply keptOut_next
  repeat' (first | with_reducible assumption | intro _ | with_reducible apply kept_ite | with_reducible apply onCommand_kept | with_reducible apply checked_kept | with_reducible apply postOk_kept | with_reducible apply State.modPert_kept | dsimp only)

theorem execPerturbSetRead_kept (h : Kept p u r s) : KeptOut p u r (execPerturbSetRead s) := by
  unfold execPerturbSetRead
  apply keptOut_next
  repeat' (first | with_reducible assumption | intro _ | with_reducible apply onCommand_kept | with_reducible apply checked_kept | with_reducible apply postOk_kept | dsimp only)

theorem execPerturbWindowStart_kept {a1} (h : Kept p u r s) : KeptOut p u r (execPerturbWindowStart a1 s) := by
  unfold execPerturbWindowStart
  apply keptOut_next
  repeat' (first | with_reducible assumption | intro _ | with_reducible apply kept_ite | with_reducible apply endWindow_kept | with_reducible apply State.reach_kept | with_reducible apply State.modPert_kept | split | dsimp only)

theorem execPerturbWindowEnd_kept {a1} (h : Kept p u r s) : KeptOut p u r (execPerturbWindowEnd a1 s) := by
  unfold execPerturbWindowEnd
  apply keptOut_next
  repeat' (first | with_reducible assumption | intro _ | with_reducible apply kept_ite | with_reducible apply endWindow_kept | with_reducible apply State.reach_kept)

theorem execFaultRegister_kept {a1} {a2} (h : Kept p u r s) : KeptOut p u r (execFaultRegister a1 a2 s) := by
  unfold execFaultRegister
  apply keptOut_next
  repeat' (first | with_reducible assumption | intro _ | with_reducible apply kept_ite | with_reducible apply directFaults_kept | with_reducible apply fireForced_kept | with_reducible apply registerCycle_kept | split | dsimp only)

theorem execErrnPulseEnd_kept (h : Kept p u r s) : KeptOut p u r (execErrnPulseEnd s) := by
  unfold execErrnPulseEnd
  apply keptOut_next
  repeat' (first | with_reducible assumption | intro _ | with_reducible apply State.reach_kept | (fail_if_no_progress with_reducible (apply kept_mk; rfl; rfl; rfl; rfl; rfl; rfl)) | split | dsimp only)

theorem runsAtEdge_kept {a2} (h : Kept p u r s) : Kept p u r (runsAtEdge s a2) := by
  unfold runsAtEdge
  repeat' (first | with_reducible assumption | intro _ | with_reducible apply kept_foldl | with_reducible apply fst_foldl | with_reducible apply foldl_fst | with_reducible apply State.modLoop_kept | with_reducible apply State.modAvg_kept | with_reducible apply modTimRun_kept | dsimp only)

theorem execTinEdge_kept {a1} {a2} (h : Kept p u r s) : KeptOut p u r (execTinEdge a1 a2 s) := by
  unfold execTinEdge
  apply keptOut_next
  repeat' (first | with_reducible assumption | intro _ | with_reducible apply kept_ite | with_reducible apply State.modTin_kept | with_reducible apply State.noteSet_kept | with_reducible apply State.noteAdd_kept | with_reducible apply unitEdges_kept | with_reducible apply runsAtEdge_kept | with_reducible apply tinReleases_kept | dsimp only)

end Sys2Proof.Machine
end

