-- ==== Sys2Proof/Laws/KeptHarvest.lean ====
section
/-! SUPPORT. Machine/Harvest.lean: each operation keeps what `Kept` says. -/

set_option linter.unusedVariables false
set_option linter.unusedTactic false
set_option linter.unreachableTactic false

namespace Sys2Proof.Machine

variable {p : List Instr} {u : BitVec 64} {r : Nat} {s : State}

theorem execRingCreate_kept (h : Kept p u r s) : KeptOut p u r (execRingCreate s) := by
  unfold execRingCreate
  apply keptOut_next
  repeat' (first | with_reducible assumption | intro _ | with_reducible apply onCommand_kept | with_reducible apply checked_kept | with_reducible apply State.modRing_kept | with_reducible apply postOk_kept | dsimp only)

theorem destroyRing_kept {a2} (h : Kept p u r s) : Kept p u r (destroyRing s a2) := by
  unfold destroyRing
  repeat' (first | with_reducible assumption | intro _ | with_reducible apply kept_ite | with_reducible apply kept_foldl | with_reducible apply State.modRing_kept | with_reducible apply State.modLoop_kept | with_reducible apply State.modWmon_kept | with_reducible apply State.modStage_kept | with_reducible apply postOk_kept | dsimp only)

theorem drainCheck_kept (h : Kept p u r s) : Kept p u r (drainCheck s) := by
  unfold drainCheck
  repeat' (first | with_reducible assumption | intro _ | with_reducible apply kept_ite | with_reducible apply destroyRing_kept | split | dsimp only)

theorem execRingDestroy_kept (h : Kept p u r s) : KeptOut p u r (execRingDestroy s) := by
  unfold execRingDestroy
  apply keptOut_next
  repeat' (first | with_reducible assumption | intro _ | with_reducible apply onCommand_kept | with_reducible apply checked_kept | with_reducible apply drainCheck_kept | with_reducible apply waitFor_kept | with_reducible apply State.modRing_kept | dsimp only)

theorem dropWaiter_kept {a2} {a3} (h : Kept p u r s) : Kept p u r (dropWaiter s a2 a3) := by
  unfold dropWaiter
  repeat' (first | with_reducible assumption | intro _ | with_reducible apply kept_ite | with_reducible apply modMeasRun_kept | with_reducible apply dropRecord_kept | with_reducible apply drainStamps_kept | with_reducible apply modWin_kept | split | dsimp only)

theorem setPolicy_kept {a2} {a3} (h : Kept p u r s) : Kept p u r (setPolicy s a2 a3) := by
  unfold setPolicy
  repeat' (first | with_reducible assumption | intro _ | with_reducible apply kept_ite | with_reducible apply kept_foldl | with_reducible apply fst_foldl | with_reducible apply foldl_fst | with_reducible apply State.modRing_kept | with_reducible apply dropWaiter_kept | with_reducible apply retryEnds_kept | split | dsimp only)

theorem setNotify_kept {a2} {a3} {a4} (h : Kept p u r s) : Kept p u r (setNotify s a2 a3 a4) := by
  unfold setNotify
  repeat' (first | with_reducible assumption | intro _ | with_reducible apply notifyUnitsCheck_kept | with_reducible apply State.modRing_kept | dsimp only)

theorem ringPolicyOn_kept {a2} (h : Kept p u r s) : Kept p u r (ringPolicyOn s a2) := by
  unfold ringPolicyOn
  repeat' (first | with_reducible assumption | intro _ | with_reducible apply kept_ite | with_reducible apply kept_foldl | with_reducible apply checked_kept | with_reducible apply setPolicy_kept | with_reducible apply setNotify_kept | with_reducible apply postOk_kept | dsimp only)

theorem execRingPolicy_kept (h : Kept p u r s) : KeptOut p u r (execRingPolicy s) := by
  unfold execRingPolicy
  apply keptOut_next
  repeat' (first | with_reducible assumption | intro _ | with_reducible apply onCommand_kept | with_reducible apply ringPolicyOn_kept | dsimp only)

theorem execRingPolicyRead_kept (h : Kept p u r s) : KeptOut p u r (execRingPolicyRead s) := by
  unfold execRingPolicyRead
  apply keptOut_next
  repeat' (first | with_reducible assumption | intro _ | with_reducible apply onCommand_kept | with_reducible apply ringPolicyOn_kept | dsimp only)

theorem execBankHandoffTimeout_kept {a1} (h : Kept p u r s) : KeptOut p u r (execBankHandoffTimeout a1 s) := by
  unfold execBankHandoffTimeout
  apply keptOut_next
  repeat' (first | with_reducible assumption | intro _ | with_reducible apply kept_ite | with_reducible apply handOver_kept | with_reducible apply State.reach_kept | split | dsimp only)

theorem poisonRecord_kept {a2} {a3} (h : Kept p u r s) : Kept p u r (poisonRecord s a2 a3) := by
  unfold poisonRecord
  repeat' (first | with_reducible assumption | intro _ | with_reducible apply kept_ite | with_reducible apply ringWrite_kept | with_reducible apply State.modStager_kept | dsimp only)

theorem badParity_kept {a2} {a3} (h : Kept p u r s) : Kept p u r (badParity s a2 a3) := by
  unfold badParity
  repeat' (first | with_reducible assumption | intro _ | with_reducible apply kept_ite | with_reducible apply poisonRecord_kept | with_reducible apply State.raise_kept | split | dsimp only)

theorem execDramBurstResponse_kept {a1} {a2} {a3} (h : Kept p u r s) : KeptOut p u r (execDramBurstResponse a1 a2 a3 s) := by
  unfold execDramBurstResponse
  apply keptOut_next
  repeat' (first | with_reducible assumption | intro _ | with_reducible apply kept_ite | with_reducible apply badParity_kept | with_reducible apply drainCheck_kept | with_reducible apply burstAcked_kept | with_reducible apply burstFailed_kept | split | dsimp only)

theorem execNotifyTimeout_kept {a1} (h : Kept p u r s) : KeptOut p u r (execNotifyTimeout a1 s) := by
  unfold execNotifyTimeout
  apply keptOut_next
  repeat' (first | with_reducible assumption | intro _ | with_reducible apply kept_ite | with_reducible apply sendNotify_kept | with_reducible apply State.reach_kept | split | dsimp only)

end Sys2Proof.Machine
end

