-- ==== Sys2Proof/Laws/KeptMsgOps.lean ====
section
/-! SUPPORT. Machine/MsgOps.lean: each operation keeps what `Kept` says. -/

set_option linter.unusedVariables false
set_option linter.unusedTactic false
set_option linter.unreachableTactic false

namespace Sys2Proof.Machine

variable {p : List Instr} {u : BitVec 64} {r : Nat} {s : State}

theorem takeRequest_kept {a2} (h : Kept p u r s) : Kept p u r (takeRequest s a2) := by
  unfold takeRequest
  repeat' (first | with_reducible assumption | intro _ | (fail_if_no_progress with_reducible (apply kept_mk; rfl; rfl; rfl; rfl; rfl; rfl)) | split | dsimp only)

theorem startMessage_kept {a2} {a3} (h : Kept p u r s) : Kept p u r (startMessage s a2 a3) := by
  unfold startMessage
  repeat' (first | with_reducible assumption | intro _ | with_reducible apply State.modCls_kept | split | dsimp only)

theorem sendFlit_kept {a2} {a3} (h : Kept p u r s) : Kept p u r (sendFlit s a2 a3) := by
  unfold sendFlit
  repeat' (first | with_reducible assumption | intro _ | with_reducible apply kept_ite | with_reducible apply State.modCls_kept | with_reducible apply State.modPort_kept | with_reducible apply startMessage_kept | with_reducible apply freeCredit_kept | split | dsimp only)

theorem flushClass_kept {a2} {a3} (h : Kept p u r s) : Kept p u r (flushClass s a2 a3) := by
  unfold flushClass
  repeat' (first | with_reducible assumption | intro _ | with_reducible apply kept_foldl | with_reducible apply sendFlit_kept | dsimp only)

theorem readMessage_kept {a2} {a3} (h : Kept p u r s) : Kept p u r (readMessage s a2 a3) := by
  unfold readMessage
  repeat' (first | with_reducible assumption | intro _ | with_reducible apply kept_ite | with_reducible apply busRead_kept | with_reducible apply respond_kept | dsimp only)

theorem burstWords_kept {a2 : Nat} (h : Kept p u r s) : ∀ {n : Nat}, KeptFst p u r (burstWords s a2 n)
  | 0 => h
  | n + 1 => by
    unfold burstWords
    exact readEffect_kept (kept_of_fst (burstWords_kept (a2 := a2) h (n := n)))

theorem burstMessage_kept {a2} {a3} {a4} (h : Kept p u r s) : Kept p u r (burstMessage s a2 a3 a4) := by
  unfold burstMessage
  repeat' (first | with_reducible assumption | intro _ | with_reducible apply kept_ite | with_reducible apply fst_ite | with_reducible apply respond_kept | with_reducible apply busDone_kept | with_reducible apply unmapped_kept | with_reducible apply busTurn_kept | with_reducible apply burstWords_kept | with_reducible refine kept_of_fst (burstWords_kept ?_) | with_reducible refine kept_fst (by with_reducible assumption) (burstWords_kept ?_) | with_reducible apply State.reach_kept | split | with_reducible apply fst_mk | with_reducible refine kept_fst (by with_reducible assumption) ?_ | dsimp only)

theorem writeWords_kept : ∀ {l : List Word} {a2 : Nat} {s : State}, Kept p u r s → Kept p u r (writeWords s a2 l)
  | [], _, _, h => h
  | w :: q, a2, s, h => by
    have h1 : Kept p u r (writeWord (busTurn s .host) .host a2 w) := writeWord_kept (busTurn_kept h)
    unfold writeWords
    dsimp only
    split
    · exact h1
    · refine writeWords_kept (l := q) ?_
      split
      · exact h1
      · exact busDone_kept h1

theorem takeAddress_kept {a2} {a3} {a4} (h : Kept p u r s) : KeptFst p u r (takeAddress s a2 a3 a4) := by
  unfold takeAddress
  repeat' (first | with_reducible assumption | intro _ | with_reducible apply kept_ite | with_reducible apply fst_ite | (fail_if_no_progress with_reducible (apply kept_mk; rfl; rfl; rfl; rfl; rfl; rfl)) | with_reducible apply fst_mk | dsimp only)

theorem writeMessage_kept {a2} {a3} {a4} (h : Kept p u r s) : Kept p u r (writeMessage s a2 a3 a4) := by
  unfold writeMessage
  repeat' (first | with_reducible assumption | intro _ | with_reducible apply kept_ite | with_reducible apply fst_ite | with_reducible apply respond_kept | with_reducible apply busDone_kept | with_reducible apply unmapped_kept | with_reducible apply busTurn_kept | with_reducible apply takeAddress_kept | with_reducible refine kept_of_fst (takeAddress_kept ?_) | with_reducible refine kept_fst (by with_reducible assumption) (takeAddress_kept ?_) | with_reducible apply writeWords_kept | with_reducible apply State.modPort_kept | with_reducible apply flushClass_kept | split | with_reducible apply fst_mk | with_reducible refine kept_fst (by with_reducible assumption) ?_ | dsimp only)

theorem answerBell_kept {a2} {a3} {a4} {a5} (h : Kept p u r s) : Kept p u r (answerBell s a2 a3 a4 a5) := by
  unfold answerBell
  repeat' (first | with_reducible assumption | intro _ | with_reducible apply kept_ite | with_reducible apply respond_kept)

theorem postMessage_kept {a2} {a3} {a4} (h : Kept p u r s) : Kept p u r (postMessage s a2 a3 a4) := by
  unfold postMessage
  repeat' (first | with_reducible assumption | intro _ | with_reducible apply kept_ite | with_reducible apply kept_foldl | with_reducible apply fst_ite | with_reducible apply fst_foldl | with_reducible apply foldl_fst | with_reducible apply respond_kept | with_reducible apply busTurn_kept | with_reducible apply State.modMbx_kept | with_reducible apply ringDoorbell_kept | with_reducible refine kept_of_fst (ringDoorbell_kept ?_) | with_reducible refine kept_fst (by with_reducible assumption) (ringDoorbell_kept ?_) | with_reducible apply answerBell_kept | with_reducible apply busDone_kept | split | with_reducible apply fst_mk | with_reducible refine kept_fst (by with_reducible assumption) ?_ | dsimp only)

theorem bellMessage_kept {a2} {a3} (h : Kept p u r s) : Kept p u r (bellMessage s a2 a3) := by
  unfold bellMessage
  repeat' (first | with_reducible assumption | intro _ | with_reducible apply kept_ite | with_reducible apply fst_ite | with_reducible apply respond_kept | with_reducible apply ringDoorbell_kept | with_reducible refine kept_of_fst (ringDoorbell_kept ?_) | with_reducible refine kept_fst (by with_reducible assumption) (ringDoorbell_kept ?_) | with_reducible apply busTurn_kept | with_reducible apply answerBell_kept | with_reducible apply busDone_kept | split | with_reducible apply fst_mk | with_reducible refine kept_fst (by with_reducible assumption) ?_ | dsimp only)

theorem wakeDram_kept (h : Kept p u r s) : Kept p u r (wakeDram s) := by
  unfold wakeDram
  repeat' (first | with_reducible assumption | intro _ | (fail_if_no_progress with_reducible (apply kept_mk; rfl; rfl; rfl; rfl; rfl; rfl)))

theorem bulkReadMessage_kept {a2} {a3} {a4} (h : Kept p u r s) : Kept p u r (bulkReadMessage s a2 a3 a4) := by
  unfold bulkReadMessage
  repeat' (first | with_reducible assumption | intro _ | with_reducible apply kept_ite | with_reducible apply respond_kept | with_reducible apply wakeDram_kept | split | dsimp only)

theorem dramStore_kept {a2} {a3} (h : Kept p u r s) : Kept p u r (dramStore s a2 a3) :=
  kept_dram (s := s) rfl rfl rfl (twrite_wf _ _ _ _ h.2.2.2.1) rfl rfl h

theorem bulkWriteMessage_kept {a2} {a3} {a4} (h : Kept p u r s) : Kept p u r (bulkWriteMessage s a2 a3 a4) := by
  unfold bulkWriteMessage
  repeat' (first | with_reducible assumption | intro _ | with_reducible apply kept_ite | with_reducible apply kept_foldl | with_reducible apply respond_kept | with_reducible apply State.modSegm_kept | with_reducible apply startFetch_kept | with_reducible apply wakeDram_kept | with_reducible apply dramStore_kept | split | dsimp only)

theorem releaseMessage_kept {a2} {a3} {a4} {a5} (h : Kept p u r s) : Kept p u r (releaseMessage s a2 a3 a4 a5) := by
  unfold releaseMessage
  repeat' (first | with_reducible assumption | intro _ | with_reducible apply kept_ite | with_reducible apply fst_ite | with_reducible apply respond_kept | with_reducible apply releaseRing_kept | with_reducible refine kept_of_fst (releaseRing_kept ?_) | with_reducible refine kept_fst (by with_reducible assumption) (releaseRing_kept ?_) | split | with_reducible apply fst_mk | with_reducible refine kept_fst (by with_reducible assumption) ?_ | dsimp only)

theorem doRequest_kept {a2} (h : Kept p u r s) : Kept p u r (doRequest s a2) := by
  unfold doRequest
  repeat' (first | with_reducible assumption | intro _ | with_reducible apply readMessage_kept | with_reducible apply writeMessage_kept | with_reducible apply burstMessage_kept | with_reducible apply postMessage_kept | with_reducible apply bellMessage_kept | with_reducible apply bulkReadMessage_kept | with_reducible apply bulkWriteMessage_kept | with_reducible apply releaseMessage_kept | split | dsimp only)

end Sys2Proof.Machine
end

