-- ==== Sys2Proof/Laws/KeptFlitOps.lean ====
section
/-! SUPPORT. Machine/FlitOps.lean: each operation keeps what `Kept` says. -/

set_option linter.unusedVariables false
set_option linter.unusedTactic false
set_option linter.unreachableTactic false

namespace Sys2Proof.Machine

variable {p : List Instr} {u : BitVec 64} {r : Nat} {s : State}

theorem misroute_kept {a2} {a3} {a4} (h : Kept p u r s) : Kept p u r (misroute s a2 a3 a4) := by
  unfold misroute
  repeat' (first | with_reducible assumption | intro _ | with_reducible apply State.raise_kept)

theorem urgentArrives_kept {a2} {a3} (h : Kept p u r s) : Kept p u r (urgentArrives s a2 a3) := by
  unfold urgentArrives
  repeat' (first | with_reducible assumption | intro _ | with_reducible apply kept_ite | with_reducible apply clocheChain_kept | with_reducible apply enqueueFrom_kept | dsimp only)

theorem consumeRequest_kept {a2} (h : Kept p u r s) : Kept p u r (consumeRequest s a2) := by
  unfold consumeRequest
  repeat' (first | with_reducible assumption | intro _ | with_reducible apply respond_kept | (fail_if_no_progress with_reducible (apply kept_mk; rfl; rfl; rfl; rfl; rfl; rfl)) | split | dsimp only)

theorem routeMessage_kept {a2} {a3} {a4} (h : Kept p u r s) : KeptFst p u r (routeMessage s a2 a3 a4) := by
  unfold routeMessage
  repeat' (first | with_reducible assumption | intro _ | with_reducible apply kept_ite | with_reducible apply fst_ite | with_reducible apply misroute_kept | with_reducible apply urgentArrives_kept | with_reducible apply enqueueFrom_kept | with_reducible apply respond_kept | with_reducible apply consumeRequest_kept | (fail_if_no_progress with_reducible (apply kept_mk; rfl; rfl; rfl; rfl; rfl; rfl)) | split | with_reducible apply fst_mk | with_reducible refine kept_fst (by with_reducible assumption) ?_ | dsimp only)

theorem messageDone_kept {a2} {a3} {a4} (h : Kept p u r s) : Kept p u r (messageDone s a2 a3 a4) := by
  unfold messageDone
  repeat' (first | with_reducible assumption | intro _ | with_reducible apply kept_ite | with_reducible apply fst_ite | with_reducible apply routeMessage_kept | with_reducible refine kept_of_fst (routeMessage_kept ?_) | with_reducible refine kept_fst (by with_reducible assumption) (routeMessage_kept ?_) | with_reducible apply freeCredit_kept | with_reducible apply misroute_kept | split | with_reducible apply fst_mk | with_reducible refine kept_fst (by with_reducible assumption) ?_ | dsimp only)

theorem acceptFlit_kept {a2} {a3} {a4} (h : Kept p u r s) : Kept p u r (acceptFlit s a2 a3 a4) := by
  unfold acceptFlit
  repeat' (first | with_reducible assumption | intro _ | with_reducible apply kept_ite | with_reducible apply State.modCls_kept | with_reducible apply State.modPort_kept | with_reducible apply freeCredit_kept | with_reducible apply messageDone_kept | dsimp only)

theorem receiveData_kept {a2} {a3} {a4} (h : Kept p u r s) : Kept p u r (receiveData s a2 a3 a4) := by
  unfold receiveData
  repeat' (first | with_reducible assumption | intro _ | with_reducible apply kept_ite | with_reducible apply acceptFlit_kept | with_reducible apply State.modPort_kept | with_reducible apply State.modCls_kept | dsimp only)

theorem replayClass_kept {a2} {a3} (h : Kept p u r s) : Kept p u r (replayClass s a2 a3) := by
  unfold replayClass
  repeat' (first | with_reducible assumption | intro _ | with_reducible apply kept_ite | with_reducible apply State.modCls_kept | with_reducible apply State.raise_kept | with_reducible apply linkPortReset_kept | dsimp only)

theorem creditBack_kept {a2} {a3} (h : Kept p u r s) : Kept p u r (creditBack s a2 a3) := by
  unfold creditBack
  repeat' (first | with_reducible assumption | intro _ | with_reducible apply kept_ite | with_reducible apply State.modCls_kept | with_reducible apply State.live_kept | dsimp only)

theorem takeAck_kept {a2} {a3} {a4} (h : Kept p u r s) : Kept p u r (takeAck s a2 a3 a4) := by
  unfold takeAck
  repeat' (first | with_reducible assumption | intro _ | with_reducible apply kept_ite | with_reducible apply State.modCls_kept | with_reducible apply creditBack_kept | with_reducible apply replayClass_kept | split | dsimp only)

theorem timeCheck_kept {a2} {a3} (h : Kept p u r s) : Kept p u r (timeCheck s a2 a3) := by
  unfold timeCheck
  repeat' (first | with_reducible assumption | intro _ | with_reducible apply kept_ite | with_reducible apply State.noteSet_kept | with_reducible apply State.condition_kept | (fail_if_no_progress with_reducible (apply kept_mk; rfl; rfl; rfl; rfl; rfl; rfl)) | dsimp only)

theorem delayAnswer_kept {a2} {a3} (h : Kept p u r s) : Kept p u r (delayAnswer s a2 a3) := by
  unfold delayAnswer
  repeat' (first | with_reducible assumption | intro _ | (fail_if_no_progress with_reducible (apply kept_mk; rfl; rfl; rfl; rfl; rfl; rfl)) | split | dsimp only)

theorem receiveCtrl_kept {a2} {a3} {a4} {a5} (h : Kept p u r s) : Kept p u r (receiveCtrl s a2 a3 a4 a5) := by
  unfold receiveCtrl
  repeat' (first | with_reducible assumption | intro _ | with_reducible apply kept_ite | with_reducible apply kept_foldl | with_reducible apply takeAck_kept | with_reducible apply State.modPort_kept | with_reducible apply delayAnswer_kept | with_reducible apply linkPortReset_kept | with_reducible apply timeCheck_kept | (fail_if_no_progress with_reducible (apply kept_mk; rfl; rfl; rfl; rfl; rfl; rfl)) | dsimp only)

theorem sendCtrl_kept {a2} {a3} {a4} (h : Kept p u r s) : Kept p u r (sendCtrl s a2 a3 a4) := by
  unfold sendCtrl
  repeat' (first | with_reducible assumption | intro _ | with_reducible apply kept_foldl | with_reducible apply State.modCls_kept | with_reducible apply State.modPort_kept | dsimp only)

theorem sendDelayRsp_kept {a2} (h : Kept p u r s) : Kept p u r (sendDelayRsp s a2) := by
  unfold sendDelayRsp
  repeat' (first | with_reducible assumption | intro _ | with_reducible apply sendCtrl_kept | with_reducible apply State.takeFree_kept | with_reducible apply State.modPort_kept | dsimp only)

theorem pickClass_kept {a2} (h : Kept p u r s) : ∀ t x, pickClass s a2 = some (t, x) → Kept p u r t := by
  intro t x e
  unfold pickClass at e
  (try dsimp only at e)
  repeat' (split at e)
  all_goals (first | cases e | skip)
  all_goals (try cases e)
  all_goals (repeat' (first | with_reducible assumption | intro _ | with_reducible apply kept_foldl | with_reducible apply State.modCls_kept | split | dsimp only))

theorem fillSlot_kept {a2} (h : Kept p u r s) : Kept p u r (fillSlot s a2) := by
  unfold fillSlot
  repeat' (first | with_reducible assumption | intro _ | with_reducible apply kept_ite | with_reducible apply fst_ite | with_reducible apply sendFlit_kept | with_reducible apply sendDelayRsp_kept | with_reducible apply sendCtrl_kept | with_reducible refine pickClass_kept ?_ _ _ (by with_reducible assumption) | with_reducible apply State.modPort_kept | split | with_reducible apply fst_mk | with_reducible refine kept_fst (by with_reducible assumption) ?_ | dsimp only)

theorem slotTaken_kept {a2} (h : Kept p u r s) : Kept p u r (slotTaken s a2) := by
  unfold slotTaken
  repeat' (first | with_reducible assumption | intro _ | with_reducible apply State.modPort_kept | dsimp only)

theorem tickPort_kept {a2} (h : Kept p u r s) : Kept p u r (tickPort s a2) := by
  unfold tickPort
  repeat' (first | with_reducible assumption | intro _ | with_reducible apply kept_ite | with_reducible apply sendCtrl_kept | with_reducible apply State.modPort_kept | with_reducible apply slotTaken_kept | with_reducible apply fillSlot_kept | with_reducible apply sendDelayRsp_kept | dsimp only)

end Sys2Proof.Machine
end

