-- ==== Sys2Proof/Laws/KeptLink.lean ====
section
/-! SUPPORT. Machine/Link.lean: each operation keeps what `Kept` says. -/

set_option linter.unusedVariables false
set_option linter.unusedTactic false
set_option linter.unreachableTactic false

namespace Sys2Proof.Machine

variable {p : List Instr} {u : BitVec 64} {r : Nat} {s : State}

theorem execDataFlitReceive_kept {a1} {a2} {a3} (h : Kept p u r s) : KeptOut p u r (execDataFlitReceive a1 a2 a3 s) := by
  unfold execDataFlitReceive
  apply keptOut_next
  repeat' (first | with_reducible assumption | intro _ | with_reducible apply receiveData_kept)

theorem execLinkCtrlReceive_kept {a1} {a2} {a3} (h : Kept p u r s) : KeptOut p u r (execLinkCtrlReceive a1 a2 a3 s) := by
  unfold execLinkCtrlReceive
  apply keptOut_next
  repeat' (first | with_reducible assumption | intro _ | with_reducible apply receiveCtrl_kept)

theorem execReplayTimeout_kept {a1} {a2} (h : Kept p u r s) : KeptOut p u r (execReplayTimeout a1 a2 s) := by
  unfold execReplayTimeout
  apply keptOut_next
  repeat' (first | with_reducible assumption | intro _ | with_reducible apply kept_ite | with_reducible apply replayClass_kept)

theorem execCreditTimeout_kept {a1} {a2} (h : Kept p u r s) : KeptOut p u r (execCreditTimeout a1 a2 s) := by
  unfold execCreditTimeout
  apply keptOut_next
  repeat' (first | with_reducible assumption | intro _ | with_reducible apply kept_ite | with_reducible apply State.modCls_kept | with_reducible apply State.raise_kept | dsimp only)

theorem execLinkCtrlDue_kept {a1} (h : Kept p u r s) : KeptOut p u r (execLinkCtrlDue a1 s) := by
  unfold execLinkCtrlDue
  apply keptOut_next
  repeat' (first | with_reducible assumption | intro _ | with_reducible apply kept_ite | with_reducible apply State.modPort_kept | with_reducible apply State.reach_kept | with_reducible apply slotTaken_kept | with_reducible apply sendCtrl_kept | dsimp only)

theorem execDelayExchangeTimer_kept {a1} (h : Kept p u r s) : KeptOut p u r (execDelayExchangeTimer a1 s) := by
  unfold execDelayExchangeTimer
  apply keptOut_next
  repeat' (first | with_reducible assumption | intro _ | with_reducible apply kept_ite | with_reducible apply sendCtrl_kept | with_reducible apply State.reach_kept | (fail_if_no_progress with_reducible (apply kept_mk; rfl; rfl; rfl; rfl; rfl; rfl)) | dsimp only)

theorem execTimeCheckTimer_kept {a1} (h : Kept p u r s) : KeptOut p u r (execTimeCheckTimer a1 s) := by
  unfold execTimeCheckTimer
  apply keptOut_next
  repeat' (first | with_reducible assumption | intro _ | with_reducible apply kept_ite | with_reducible apply sendCtrl_kept | with_reducible apply State.reach_kept)

theorem execBlockLockLoss_kept {a1} (h : Kept p u r s) : KeptOut p u r (execBlockLockLoss a1 s) := by
  unfold execBlockLockLoss
  apply keptOut_next
  repeat' (first | with_reducible assumption | intro _ | with_reducible apply kept_ite | with_reducible apply linkPortReset_kept)

theorem execLaneSignalDetect_kept {a1} {a2} (h : Kept p u r s) : KeptOut p u r (execLaneSignalDetect a1 a2 s) := by
  unfold execLaneSignalDetect
  apply keptOut_next
  repeat' (first | with_reducible assumption | intro _ | with_reducible apply kept_ite | with_reducible apply State.modPort_kept | dsimp only)

theorem failStep_kept {a2} (h : Kept p u r s) : Kept p u r (failStep s a2) := by
  unfold failStep
  repeat' (first | with_reducible assumption | intro _ | with_reducible apply State.modPort_kept | dsimp only)

theorem execBlockLockAcquired_kept {a1} (h : Kept p u r s) : KeptOut p u r (execBlockLockAcquired a1 s) := by
  unfold execBlockLockAcquired
  apply keptOut_next
  repeat' (first | with_reducible assumption | intro _ | with_reducible apply kept_ite | with_reducible apply State.modPort_kept | dsimp only)

theorem execLaneEqualiseDone_kept {a1} {a2} {a3} (h : Kept p u r s) : KeptOut p u r (execLaneEqualiseDone a1 a2 a3 s) := by
  unfold execLaneEqualiseDone
  apply keptOut_next
  repeat' (first | with_reducible assumption | intro _ | with_reducible apply kept_ite | with_reducible apply State.modPort_kept | with_reducible apply failStep_kept | dsimp only)

theorem execDelayMeasureDone_kept {a1} {a2} {a3} (h : Kept p u r s) : KeptOut p u r (execDelayMeasureDone a1 a2 a3 s) := by
  unfold execDelayMeasureDone
  apply keptOut_next
  repeat' (first | with_reducible assumption | intro _ | with_reducible apply kept_ite | with_reducible apply State.modPort_kept | with_reducible apply trainPort_kept | with_reducible apply State.live_kept | with_reducible apply State.condition_kept | with_reducible apply portChanged_kept | (fail_if_no_progress with_reducible (apply kept_mk; rfl; rfl; rfl; rfl; rfl; rfl)) | dsimp only)

theorem execTrainingRetry_kept {a1} (h : Kept p u r s) : KeptOut p u r (execTrainingRetry a1 s) := by
  unfold execTrainingRetry
  apply keptOut_next
  repeat' (first | with_reducible assumption | intro _ | with_reducible apply kept_ite | with_reducible apply failStep_kept | with_reducible apply State.reach_kept | with_reducible apply State.modPort_kept | split | dsimp only)

theorem execUrgent_kept {a1} {a2} (h : Kept p u r s) : KeptOut p u r (execUrgent a1 a2 s) := by
  unfold execUrgent
  apply keptOut_next
  repeat' (first | with_reducible assumption | intro _ | with_reducible apply kept_ite | with_reducible apply urgentArrives_kept)

theorem takeMark_kept {a2} {a3} {a4} (h : Kept p u r s) : KeptFst p u r (takeMark s a2 a3 a4) := by
  unfold takeMark
  repeat' (first | with_reducible assumption | intro _ | (fail_if_no_progress with_reducible (apply kept_mk; rfl; rfl; rfl; rfl; rfl; rfl)) | split | with_reducible apply fst_mk | with_reducible refine kept_fst (by with_reducible assumption) ?_ | dsimp only)

theorem forwardMark_kept {a2} {a3} {a4} {a5} (h : Kept p u r s) : Kept p u r (forwardMark s a2 a3 a4 a5) := by
  unfold forwardMark
  repeat' (first | with_reducible assumption | intro _ | with_reducible apply kept_ite | with_reducible apply enqueue_kept | with_reducible apply State.takeFree_kept | split | dsimp only)

theorem actOnMark_kept {a2} {a3} {a4} {a5} (h : Kept p u r s) : Kept p u r (actOnMark s a2 a3 a4 a5) := by
  unfold actOnMark
  repeat' (first | with_reducible assumption | intro _ | with_reducible apply kept_ite | with_reducible apply State.noteSet_kept | with_reducible apply State.raise_kept | (fail_if_no_progress with_reducible (apply kept_mk; rfl; rfl; rfl; rfl; rfl; rfl)) | dsimp only)

theorem execSyncMark_kept {a1} {a2} {a3} {a4} {a5} {a6} (h : Kept p u r s) : KeptOut p u r (execSyncMark a1 a2 a3 a4 a5 a6 s) := by
  unfold execSyncMark
  apply keptOut_next
  repeat' (first | with_reducible assumption | intro _ | with_reducible apply kept_ite | with_reducible apply fst_ite | with_reducible apply State.reach_kept | with_reducible apply misroute_kept | with_reducible apply takeMark_kept | with_reducible refine kept_of_fst (takeMark_kept ?_) | with_reducible refine kept_fst (by with_reducible assumption) (takeMark_kept ?_) | with_reducible apply actOnMark_kept | with_reducible apply forwardMark_kept | split | with_reducible apply fst_mk | with_reducible refine kept_fst (by with_reducible assumption) ?_ | dsimp only)

theorem jitteredSync_kept {a2} (h : Kept p u r s) : KeptFst p u r (jitteredSync s a2) := by
  unfold jitteredSync
  repeat' (first | with_reducible assumption | intro _ | with_reducible apply kept_ite | with_reducible apply fst_ite | with_reducible apply State.takeFree_kept | with_reducible apply fst_mk | dsimp only)

theorem stepClocks_kept {a2} (h : Kept p u r s) : Kept p u r (stepClocks s a2) := by
  unfold stepClocks
  repeat' (first | with_reducible assumption | intro _ | with_reducible apply kept_ite | with_reducible apply kept_foldl | with_reducible apply fst_foldl | with_reducible apply foldl_fst | with_reducible apply State.modCkgen_kept | with_reducible apply State.modPinck_kept | dsimp only)

theorem stepTime_kept {a2} (h : Kept p u r s) : Kept p u r (stepTime s a2) := by
  unfold stepTime
  repeat' (first | with_reducible assumption | intro _ | with_reducible apply kept_ite | with_reducible apply kept_foldl | with_reducible apply timStepped_kept | with_reducible apply stepClocks_kept | with_reducible apply State.modLoop_kept | with_reducible apply State.modZone_kept | (fail_if_no_progress with_reducible (apply kept_mk; rfl; rfl; rfl; rfl; rfl; rfl)) | dsimp only)

theorem fireSync_kept {a2} (h : Kept p u r s) : Kept p u r (fireSync s a2) := by
  unfold fireSync
  repeat' (first | with_reducible assumption | intro _ | with_reducible apply jitteredSync_kept | with_reducible refine kept_of_fst (jitteredSync_kept ?_) | with_reducible refine kept_fst (by with_reducible assumption) (jitteredSync_kept ?_) | with_reducible apply State.reach_kept | with_reducible apply syncBeds_kept | with_reducible apply stepTime_kept | with_reducible apply State.noteAdd_kept | (fail_if_no_progress with_reducible (apply kept_mk; rfl; rfl; rfl; rfl; rfl; rfl)) | split | with_reducible apply fst_mk | with_reducible refine kept_fst (by with_reducible assumption) ?_ | dsimp only)

theorem execLocalSync_kept (h : Kept p u r s) : KeptOut p u r (execLocalSync s) := by
  unfold execLocalSync
  apply keptOut_next
  repeat' (first | with_reducible assumption | intro _ | with_reducible apply fireSync_kept | split | dsimp only)

theorem execPhaseSlewEnd_kept (h : Kept p u r s) : KeptOut p u r (execPhaseSlewEnd s) := by
  unfold execPhaseSlewEnd
  apply keptOut_next
  repeat' (first | with_reducible assumption | intro _ | with_reducible apply kept_ite | with_reducible apply State.reach_kept | (fail_if_no_progress with_reducible (apply kept_mk; rfl; rfl; rfl; rfl; rfl; rfl)) | split | dsimp only)

end Sys2Proof.Machine
end

