-- ==== Sys2Proof/Laws/KeptMessages.lean ====
section
/-! SUPPORT. Machine/Messages.lean: each operation keeps what `Kept` says. -/

set_option linter.unusedVariables false
set_option linter.unusedTactic false
set_option linter.unreachableTactic false

namespace Sys2Proof.Machine

variable {p : List Instr} {u : BitVec 64} {r : Nat} {s : State}

theorem execRegRead_kept {a1} {a2} (h : Kept p u r s) : KeptOut p u r (execRegRead a1 a2 s) := by
  unfold execRegRead
  apply keptOut_next
  repeat' (first | with_reducible assumption | intro _ | with_reducible apply readMessage_kept | with_reducible apply takeRequest_kept)

theorem execRegWrite_kept {a1} {a2} {a3} (h : Kept p u r s) : KeptOut p u r (execRegWrite a1 a2 a3 s) := by
  unfold execRegWrite
  apply keptOut_next
  repeat' (first | with_reducible assumption | intro _ | with_reducible apply writeMessage_kept | with_reducible apply takeRequest_kept)

theorem execRegBurstRead_kept {a1} {a2} {a3} (h : Kept p u r s) : KeptOut p u r (execRegBurstRead a1 a2 a3 s) := by
  unfold execRegBurstRead
  apply keptOut_next
  repeat' (first | with_reducible assumption | intro _ | with_reducible apply burstMessage_kept | with_reducible apply takeRequest_kept)

theorem execMailboxPost_kept {a1} {a2} {a3} (h : Kept p u r s) : KeptOut p u r (execMailboxPost a1 a2 a3 s) := by
  unfold execMailboxPost
  apply keptOut_next
  repeat' (first | with_reducible assumption | intro _ | with_reducible apply postMessage_kept | with_reducible apply takeRequest_kept)

theorem execDoorbell_kept {a1} {a2} (h : Kept p u r s) : KeptOut p u r (execDoorbell a1 a2 s) := by
  unfold execDoorbell
  apply keptOut_next
  repeat' (first | with_reducible assumption | intro _ | with_reducible apply bellMessage_kept | with_reducible apply takeRequest_kept)

theorem execBulkRead_kept {a1} {a2} {a3} (h : Kept p u r s) : KeptOut p u r (execBulkRead a1 a2 a3 s) := by
  unfold execBulkRead
  apply keptOut_next
  repeat' (first | with_reducible assumption | intro _ | with_reducible apply bulkReadMessage_kept | with_reducible apply takeRequest_kept)

theorem execBulkWrite_kept {a1} {a2} {a3} (h : Kept p u r s) : KeptOut p u r (execBulkWrite a1 a2 a3 s) := by
  unfold execBulkWrite
  apply keptOut_next
  repeat' (first | with_reducible assumption | intro _ | with_reducible apply bulkWriteMessage_kept | with_reducible apply takeRequest_kept)

theorem execRelease_kept {a1} {a2} {a3} {a4} (h : Kept p u r s) : KeptOut p u r (execRelease a1 a2 a3 a4 s) := by
  unfold execRelease
  apply keptOut_next
  repeat' (first | with_reducible assumption | intro _ | with_reducible apply releaseMessage_kept | with_reducible apply takeRequest_kept)

end Sys2Proof.Machine
end

