-- ==== Sys2Proof/Laws/KeptTick.lean ====
section
/-! SUPPORT. Machine/Tick.lean: each operation keeps what `Kept` says. -/

set_option linter.unusedVariables false
set_option linter.unusedTactic false
set_option linter.unreachableTactic false

namespace Sys2Proof.Machine

variable {p : List Instr} {u : BitVec 64} {r : Nat} {s : State}

theorem countTick_kept (h : Kept p u r s) : Kept p u r (countTick s) := by
  unfold countTick
  repeat' (first | with_reducible assumption | intro _ | with_reducible apply kept_ite | (fail_if_no_progress with_reducible (apply kept_mk; rfl; rfl; rfl; rfl; rfl; rfl)))

theorem tickRequest_kept (h : Kept p u r s) : Kept p u r (tickRequest s) := by
  unfold tickRequest
  repeat' (first | with_reducible assumption | intro _ | with_reducible apply doRequest_kept | with_reducible apply takeRequest_kept | split | dsimp only)

theorem tickForced_kept (h : Kept p u r s) : Kept p u r (tickForced s) := by
  unfold tickForced
  repeat' (first | with_reducible assumption | intro _ | with_reducible apply fireForced_kept | split | dsimp only)

theorem tickBursts_kept (h : Kept p u r s) : Kept p u r (tickBursts s) := by
  unfold tickBursts
  repeat' (first | with_reducible assumption | intro _ | with_reducible apply kept_foldl | with_reducible apply fst_foldl | with_reducible apply foldl_fst | with_reducible apply settleBurst_kept | dsimp only)

theorem tick_kept (h : Kept p u r s) : Kept p u r (tick s) := by
  unfold tick
  repeat' (first | with_reducible assumption | intro _ | with_reducible apply tickBursts_kept | with_reducible apply tickForced_kept | with_reducible apply tickRequest_kept | with_reducible apply tickPort_kept | with_reducible apply countTick_kept)

end Sys2Proof.Machine
end

