-- ==== Sys2Proof/Laws/OnlyBase.lean ====
section
/-! SUPPORT. Which parts of the state each operation can change (`Only`): the rules by which the files OnlyOps to
OnlyStep prove it of each operation, one lemma each, for the provers to cite instead of unfolding the operation. -/

namespace Sys2Proof.Machine

/-- `t` differs from `v` in no part but those whose bit is set in `w`. Bits 0 to 16: pending, free, clk, bus, mb, fw,
pins, edge, pat, lp, meas, harv, link, ser, sup, cal, flt. -/
def Only (w : Nat) (v t : State) : Prop :=
  (w.testBit 0 = true ∨ t.pending = v.pending) ∧ (w.testBit 1 = true ∨ t.free = v.free) ∧
  (w.testBit 2 = true ∨ t.clk = v.clk) ∧ (w.testBit 3 = true ∨ t.bus = v.bus) ∧
  (w.testBit 4 = true ∨ t.mb = v.mb) ∧ (w.testBit 5 = true ∨ t.fw = v.fw) ∧
  (w.testBit 6 = true ∨ t.pins = v.pins) ∧ (w.testBit 7 = true ∨ t.edge = v.edge) ∧
  (w.testBit 8 = true ∨ t.pat = v.pat) ∧ (w.testBit 9 = true ∨ t.lp = v.lp) ∧
  (w.testBit 10 = true ∨ t.meas = v.meas) ∧ (w.testBit 11 = true ∨ t.harv = v.harv) ∧
  (w.testBit 12 = true ∨ t.link = v.link) ∧ (w.testBit 13 = true ∨ t.ser = v.ser) ∧
  (w.testBit 14 = true ∨ t.sup = v.sup) ∧ (w.testBit 15 = true ∨ t.cal = v.cal) ∧
  (w.testBit 16 = true ∨ t.flt = v.flt)

/-- An outcome changes no other part: a next state does not. -/
def OnlyOut (w : Nat) (v : State) (o : Host.Outcome State Fault Refusal) : Prop :=
  ∀ t, o = .next t → Only w v t

variable {w : Nat} {v s : State}

theorem only_refl : Only w s s := by simp [Only]

/-- A set of parts within another. -/
theorem sub_bit {m : Nat} (h : m &&& w = m) (i : Nat) (hi : m.testBit i = true) : w.testBit i = true := by
  rw [← h, Nat.testBit_and, Bool.and_eq_true] at hi
  exact hi.2

theorem sub_trans {m n : Nat} (h1 : m &&& n = m) (h : n &&& w = n) : m &&& w = m := by
  rw [← h1, Nat.and_assoc, h]

theorem onlyOut_next (h : Only w v s) : OnlyOut w v (.next s) := by intro t e; cases e; exact h

theorem only_ite {c : Prop} [Decidable c] {a b : State} (h1 : c → Only w v a) (h2 : ¬c → Only w v b) :
    Only w v (if c then a else b) := by
  split
  · exact h1 ‹_›
  · exact h2 ‹_›

theorem only_foldl {α} {f : State → α → State} {l : List α} (h : Only w v s) (hf : ∀ t a, Only w v t → Only w v (f t a)) :
    Only w v (l.foldl f s) := by
  induction l generalizing s with
  | nil => exact h
  | cons a r ih => exact ih (hf _ _ h)

theorem only_or {c : Prop} {α : Type} {a b d : α} (h : c ∨ a = b) (h' : c ∨ b = d) : c ∨ a = d := by
  rcases h with h | h
  · exact .inl h
  · subst h; exact h'

theorem only_mk {a0 a1 a2 a3 a4 a5 a6 a7 a8 a9 a10 a11 a12 a13 a14 a15 a16} (h0 : w.testBit 0 = true ∨ a0 = s.pending)
    (h1 : w.testBit 1 = true ∨ a1 = s.free) (h2 : w.testBit 2 = true ∨ a2 = s.clk) (h3 : w.testBit 3 = true ∨ a3 = s.bus)
    (h4 : w.testBit 4 = true ∨ a4 = s.mb) (h5 : w.testBit 5 = true ∨ a5 = s.fw) (h6 : w.testBit 6 = true ∨ a6 = s.pins)
    (h7 : w.testBit 7 = true ∨ a7 = s.edge) (h8 : w.testBit 8 = true ∨ a8 = s.pat) (h9 : w.testBit 9 = true ∨ a9 = s.lp)
    (h10 : w.testBit 10 = true ∨ a10 = s.meas) (h11 : w.testBit 11 = true ∨ a11 = s.harv)
    (h12 : w.testBit 12 = true ∨ a12 = s.link) (h13 : w.testBit 13 = true ∨ a13 = s.ser)
    (h14 : w.testBit 14 = true ∨ a14 = s.sup) (h15 : w.testBit 15 = true ∨ a15 = s.cal)
    (h16 : w.testBit 16 = true ∨ a16 = s.flt) (h : Only w v s) :
    Only w v (State.mk a0 a1 a2 a3 a4 a5 a6 a7 a8 a9 a10 a11 a12 a13 a14 a15 a16) := by
  obtain ⟨g0, g1, g2, g3, g4, g5, g6, g7, g8, g9, g10, g11, g12, g13, g14, g15, g16⟩ := h
  exact ⟨only_or h0 g0, only_or h1 g1, only_or h2 g2, only_or h3 g3, only_or h4 g4, only_or h5 g5, only_or h6 g6,
    only_or h7 g7, only_or h8 g8, only_or h9 g9, only_or h10 g10, only_or h11 g11, only_or h12 g12, only_or h13 g13,
    only_or h14 g14, only_or h15 g15, only_or h16 g16⟩

theorem only_weaken {m : Nat} {t : State} (h : Only m s t) (hm : m &&& w = m) (h' : Only w v s) : Only w v t := by
  obtain ⟨g0, g1, g2, g3, g4, g5, g6, g7, g8, g9, g10, g11, g12, g13, g14, g15, g16⟩ := h
  have f : ∀ (i : Nat) {c : Prop}, m.testBit i = true ∨ c → w.testBit i = true ∨ c := fun i c hc =>
    hc.imp (sub_bit hm i) id
  exact only_mk (f 0 g0) (f 1 g1) (f 2 g2) (f 3 g3) (f 4 g4) (f 5 g5) (f 6 g6) (f 7 g7) (f 8 g8) (f 9 g9) (f 10 g10)
    (f 11 g11) (f 12 g12) (f 13 g13) (f 14 g14) (f 15 g15) (f 16 g16) h'

/-- The parts of `t` in the set and those of `s` outside it. -/
def mergeParts (m : Nat) (t s : State) : State := State.mk
  (if m.testBit 0 = true then t.pending else s.pending)
  (if m.testBit 1 = true then t.free else s.free)
  (if m.testBit 2 = true then t.clk else s.clk)
  (if m.testBit 3 = true then t.bus else s.bus)
  (if m.testBit 4 = true then t.mb else s.mb)
  (if m.testBit 5 = true then t.fw else s.fw)
  (if m.testBit 6 = true then t.pins else s.pins)
  (if m.testBit 7 = true then t.edge else s.edge)
  (if m.testBit 8 = true then t.pat else s.pat)
  (if m.testBit 9 = true then t.lp else s.lp)
  (if m.testBit 10 = true then t.meas else s.meas)
  (if m.testBit 11 = true then t.harv else s.harv)
  (if m.testBit 12 = true then t.link else s.link)
  (if m.testBit 13 = true then t.ser else s.ser)
  (if m.testBit 14 = true then t.sup else s.sup)
  (if m.testBit 15 = true then t.cal else s.cal)
  (if m.testBit 16 = true then t.flt else s.flt)

/-- What `Only` says as one equation: every part outside the set is the old one. -/
theorem only_eq {t : State} (h : Only w v t) : t = mergeParts w t v := by
  have f : ∀ {α : Type} {c : Prop} [Decidable c] {a b : α}, (c ∨ a = b) → (if c then a else b) = a := by
    intro α c _ a b hc
    split
    · rfl
    · exact (hc.resolve_left ‹_›).symm
  obtain ⟨g0, g1, g2, g3, g4, g5, g6, g7, g8, g9, g10, g11, g12, g13, g14, g15, g16⟩ := h
  unfold mergeParts
  rw [f g0, f g1, f g2, f g3, f g4, f g5, f g6, f g7, f g8, f g9, f g10, f g11, f g12, f g13, f g14, f g15, f g16]

/-- A state that differs from `s` in the parts of a smaller set only. -/
theorem only_parts {m : Nat} {t : State} (hm : m &&& w = m) (e : t = mergeParts m t s) (h : Only w v s) : Only w v t := by
  have f : ∀ {α : Type} (g : State → α) (i : Nat), g (mergeParts m t s) = (if m.testBit i = true then g t else g s) →
      w.testBit i = true ∨ g t = g s := by
    intro α g i hg
    by_cases hb : m.testBit i = true
    · exact .inl (sub_bit hm i hb)
    · rw [if_neg hb, ← e] at hg; exact .inr hg
  exact only_mk (f State.pending 0 rfl)
    (f State.free 1 rfl)
    (f State.clk 2 rfl)
    (f State.bus 3 rfl)
    (f State.mb 4 rfl)
    (f State.fw 5 rfl)
    (f State.pins 6 rfl)
    (f State.edge 7 rfl)
    (f State.pat 8 rfl)
    (f State.lp 9 rfl)
    (f State.meas 10 rfl)
    (f State.harv 11 rfl)
    (f State.link 12 rfl)
    (f State.ser 13 rfl)
    (f State.sup 14 rfl)
    (f State.cal 15 rfl)
    (f State.flt 16 rfl) h

/-! A part outside the set is the old one. -/

theorem only_pending {t : State} (h : Only w v t) (hw : w.testBit 0 = false := by rfl) : t.pending = v.pending :=
  (h.1).resolve_left (by rw [hw]; decide)

theorem only_free {t : State} (h : Only w v t) (hw : w.testBit 1 = false := by rfl) : t.free = v.free :=
  (h.2.1).resolve_left (by rw [hw]; decide)

theorem only_clk {t : State} (h : Only w v t) (hw : w.testBit 2 = false := by rfl) : t.clk = v.clk :=
  (h.2.2.1).resolve_left (by rw [hw]; decide)

theorem only_bus {t : State} (h : Only w v t) (hw : w.testBit 3 = false := by rfl) : t.bus = v.bus :=
  (h.2.2.2.1).resolve_left (by rw [hw]; decide)

theorem only_mb {t : State} (h : Only w v t) (hw : w.testBit 4 = false := by rfl) : t.mb = v.mb :=
  (h.2.2.2.2.1).resolve_left (by rw [hw]; decide)

theorem only_fw {t : State} (h : Only w v t) (hw : w.testBit 5 = false := by rfl) : t.fw = v.fw :=
  (h.2.2.2.2.2.1).resolve_left (by rw [hw]; decide)

theorem only_pins {t : State} (h : Only w v t) (hw : w.testBit 6 = false := by rfl) : t.pins = v.pins :=
  (h.2.2.2.2.2.2.1).resolve_left (by rw [hw]; decide)

theorem only_edge {t : State} (h : Only w v t) (hw : w.testBit 7 = false := by rfl) : t.edge = v.edge :=
  (h.2.2.2.2.2.2.2.1).resolve_left (by rw [hw]; decide)

theorem only_pat {t : State} (h : Only w v t) (hw : w.testBit 8 = false := by rfl) : t.pat = v.pat :=
  (h.2.2.2.2.2.2.2.2.1).resolve_left (by rw [hw]; decide)

theorem only_lp {t : State} (h : Only w v t) (hw : w.testBit 9 = false := by rfl) : t.lp = v.lp :=
  (h.2.2.2.2.2.2.2.2.2.1).resolve_left (by rw [hw]; decide)

theorem only_meas {t : State} (h : Only w v t) (hw : w.testBit 10 = false := by rfl) : t.meas = v.meas :=
  (h.2.2.2.2.2.2.2.2.2.2.1).resolve_left (by rw [hw]; decide)

theorem only_harv {t : State} (h : Only w v t) (hw : w.testBit 11 = false := by rfl) : t.harv = v.harv :=
  (h.2.2.2.2.2.2.2.2.2.2.2.1).resolve_left (by rw [hw]; decide)

theorem only_link {t : State} (h : Only w v t) (hw : w.testBit 12 = false := by rfl) : t.link = v.link :=
  (h.2.2.2.2.2.2.2.2.2.2.2.2.1).resolve_left (by rw [hw]; decide)

theorem only_ser {t : State} (h : Only w v t) (hw : w.testBit 13 = false := by rfl) : t.ser = v.ser :=
  (h.2.2.2.2.2.2.2.2.2.2.2.2.2.1).resolve_left (by rw [hw]; decide)

theorem only_sup {t : State} (h : Only w v t) (hw : w.testBit 14 = false := by rfl) : t.sup = v.sup :=
  (h.2.2.2.2.2.2.2.2.2.2.2.2.2.2.1).resolve_left (by rw [hw]; decide)

theorem only_cal {t : State} (h : Only w v t) (hw : w.testBit 15 = false := by rfl) : t.cal = v.cal :=
  (h.2.2.2.2.2.2.2.2.2.2.2.2.2.2.2.1).resolve_left (by rw [hw]; decide)

theorem only_flt {t : State} (h : Only w v t) (hw : w.testBit 16 = false := by rfl) : t.flt = v.flt :=
  (h.2.2.2.2.2.2.2.2.2.2.2.2.2.2.2.2).resolve_left (by rw [hw]; decide)

/-- A state that comes with an answer. -/
def OnlyFst {α : Type} (w : Nat) (v : State) (q : State × α) : Prop := Only w v q.1

theorem only_fst {α : Type} {q : State × α} {t : State} {x : α} (e : q = (t, x)) (h : OnlyFst w v q) : Only w v t := by
  subst e; exact h

theorem only_of_fst {α : Type} {q : State × α} (h : OnlyFst w v q) : Only w v q.1 := h

theorem ofst_mk {α : Type} {x : α} (h : Only w v s) : OnlyFst w v (s, x) := h

theorem ofst_ite {α : Type} {c : Prop} [Decidable c] {a b : State × α} (h1 : c → OnlyFst w v a) (h2 : ¬c → OnlyFst w v b) :
    OnlyFst w v (if c then a else b) := by
  split
  · exact h1 ‹_›
  · exact h2 ‹_›

theorem ofst_foldl {α β : Type} {f : State × β → α → State × β} {l : List α} {q : State × β} (h : OnlyFst w v q)
    (hf : ∀ t a, Only w v t.1 → OnlyFst w v (f t a)) : OnlyFst w v (l.foldl f q) := by
  induction l generalizing q with
  | nil => exact h
  | cons a r ih => exact ih (hf _ _ h)

theorem ofoldl_fst {α β : Type} {f : State × β → α → State × β} {l : List α} {q : State × β} (h : OnlyFst w v q)
    (hf : ∀ t a, Only w v t.1 → OnlyFst w v (f t a)) : Only w v (l.foldl f q).1 := ofst_foldl h hf

theorem id_only (h : Only w v s) : Only w v (id s) := h

/-! One rule per set of parts that an operation writes directly. -/

theorem put_free {x0} (hw : 2 &&& w = 2) (h : Only w v s) :
    Only w v { s with free := x0 } := only_parts hw rfl h

theorem put_clk {x0} (hw : 4 &&& w = 4) (h : Only w v s) :
    Only w v { s with clk := x0 } := only_parts hw rfl h

theorem put_bus {x0} (hw : 8 &&& w = 8) (h : Only w v s) :
    Only w v { s with bus := x0 } := only_parts hw rfl h

theorem put_clk_bus {x0 x1} (hw : 12 &&& w = 12) (h : Only w v s) :
    Only w v { s with clk := x0, bus := x1 } := only_parts hw rfl h

theorem put_mb {x0} (hw : 16 &&& w = 16) (h : Only w v s) :
    Only w v { s with mb := x0 } := only_parts hw rfl h

theorem put_fw {x0} (hw : 32 &&& w = 32) (h : Only w v s) :
    Only w v { s with fw := x0 } := only_parts hw rfl h

theorem put_free_fw {x0 x1} (hw : 34 &&& w = 34) (h : Only w v s) :
    Only w v { s with free := x0, fw := x1 } := only_parts hw rfl h

theorem put_pins {x0} (hw : 64 &&& w = 64) (h : Only w v s) :
    Only w v { s with pins := x0 } := only_parts hw rfl h

theorem put_edge {x0} (hw : 128 &&& w = 128) (h : Only w v s) :
    Only w v { s with edge := x0 } := only_parts hw rfl h

theorem put_pat {x0} (hw : 256 &&& w = 256) (h : Only w v s) :
    Only w v { s with pat := x0 } := only_parts hw rfl h

theorem put_clk_pat {x0 x1} (hw : 260 &&& w = 260) (h : Only w v s) :
    Only w v { s with clk := x0, pat := x1 } := only_parts hw rfl h

theorem put_lp {x0} (hw : 512 &&& w = 512) (h : Only w v s) :
    Only w v { s with lp := x0 } := only_parts hw rfl h

theorem put_meas {x0} (hw : 1024 &&& w = 1024) (h : Only w v s) :
    Only w v { s with meas := x0 } := only_parts hw rfl h

theorem put_harv {x0} (hw : 2048 &&& w = 2048) (h : Only w v s) :
    Only w v { s with harv := x0 } := only_parts hw rfl h

theorem put_link {x0} (hw : 4096 &&& w = 4096) (h : Only w v s) :
    Only w v { s with link := x0 } := only_parts hw rfl h

theorem put_clk_link {x0 x1} (hw : 4100 &&& w = 4100) (h : Only w v s) :
    Only w v { s with clk := x0, link := x1 } := only_parts hw rfl h

theorem put_ser {x0} (hw : 8192 &&& w = 8192) (h : Only w v s) :
    Only w v { s with ser := x0 } := only_parts hw rfl h

theorem put_free_ser {x0 x1} (hw : 8194 &&& w = 8194) (h : Only w v s) :
    Only w v { s with free := x0, ser := x1 } := only_parts hw rfl h

theorem put_fw_ser {x0 x1} (hw : 8224 &&& w = 8224) (h : Only w v s) :
    Only w v { s with fw := x0, ser := x1 } := only_parts hw rfl h

theorem put_sup {x0} (hw : 16384 &&& w = 16384) (h : Only w v s) :
    Only w v { s with sup := x0 } := only_parts hw rfl h

theorem put_clk_sup {x0 x1} (hw : 16388 &&& w = 16388) (h : Only w v s) :
    Only w v { s with clk := x0, sup := x1 } := only_parts hw rfl h

theorem put_cal {x0} (hw : 32768 &&& w = 32768) (h : Only w v s) :
    Only w v { s with cal := x0 } := only_parts hw rfl h

theorem put_flt {x0} (hw : 65536 &&& w = 65536) (h : Only w v s) :
    Only w v { s with flt := x0 } := only_parts hw rfl h

theorem put_bus_flt {x0 x1} (hw : 65544 &&& w = 65544) (h : Only w v s) :
    Only w v { s with bus := x0, flt := x1 } := only_parts hw rfl h

theorem put_link_flt {x0 x1} (hw : 69632 &&& w = 69632) (h : Only w v s) :
    Only w v { s with link := x0, flt := x1 } := only_parts hw rfl h

theorem put_clk_bus_mb_fw_pat_lp_ser_cal_flt {x0 x1 x2 x3 x4 x5 x6 x7 x8} (hw : 107324 &&& w = 107324) (h : Only w v s) :
    Only w v { s with clk := x0, bus := x1, mb := x2, fw := x3, pat := x4, lp := x5, ser := x6, cal := x7, flt := x8 } := only_parts hw rfl h

theorem put_clk_mb_fw_pat_lp_meas_harv_link_ser_cal_flt {x0 x1 x2 x3 x4 x5 x6 x7 x8 x9 x10} (hw : 114484 &&& w = 114484) (h : Only w v s) :
    Only w v { s with clk := x0, mb := x1, fw := x2, pat := x3, lp := x4, meas := x5, harv := x6, link := x7, ser := x8, cal := x9, flt := x10 } := only_parts hw rfl h

theorem put_clk_bus_mb_fw_pins_edge_pat_lp_meas_harv_link_ser_sup_cal_flt {x0 x1 x2 x3 x4 x5 x6 x7 x8 x9 x10 x11 x12 x13 x14} (hw : 131068 &&& w = 131068) (h : Only w v s) :
    Only w v { s with clk := x0, bus := x1, mb := x2, fw := x3, pins := x4, edge := x5, pat := x6, lp := x7, meas := x8, harv := x9, link := x10, ser := x11, sup := x12, cal := x13, flt := x14 } := only_parts hw rfl h

end Sys2Proof.Machine
end

