-- ==== Sys2Proof/Laws/OnlyOps.lean ====
section
/-! SUPPORT. Machine/Ops.lean: which parts of the state each operation can change. -/

set_option linter.unusedVariables false
set_option linter.unusedTactic false
set_option linter.unreachableTactic false

namespace Sys2Proof.Machine

variable {w : Nat} {v s : State}

theorem State.modMbx_only {a2} {a3} (hw : 16 &&& w = 16) (h : Only w v s) : Only w v (State.modMbx s a2 a3) := by
  unfold State.modMbx
  repeat' (first | with_reducible assumption | intro _ | (fail_if_no_progress with_reducible apply put_mb (sub_trans rfl hw)) | dsimp only)

theorem State.modProg_only {a2} {a3} (hw : 32 &&& w = 32) (h : Only w v s) : Only w v (State.modProg s a2 a3) := by
  unfold State.modProg
  repeat' (first | with_reducible assumption | intro _ | (fail_if_no_progress with_reducible apply put_fw (sub_trans rfl hw)) | dsimp only)

theorem State.modFblk_only {a2} {a3} (hw : 65536 &&& w = 65536) (h : Only w v s) : Only w v (State.modFblk s a2 a3) := by
  unfold State.modFblk
  repeat' (first | with_reducible assumption | intro _ | (fail_if_no_progress with_reducible apply put_flt (sub_trans rfl hw)) | dsimp only)

theorem State.modBedc_only {a2} {a3} (hw : 65536 &&& w = 65536) (h : Only w v s) : Only w v (State.modBedc s a2 a3) := by
  unfold State.modBedc
  repeat' (first | with_reducible assumption | intro _ | (fail_if_no_progress with_reducible apply put_flt (sub_trans rfl hw)) | dsimp only)

theorem State.modLoopc_only {a2} {a3} (hw : 65536 &&& w = 65536) (h : Only w v s) : Only w v (State.modLoopc s a2 a3) := by
  unfold State.modLoopc
  repeat' (first | with_reducible assumption | intro _ | (fail_if_no_progress with_reducible apply put_flt (sub_trans rfl hw)) | dsimp only)

theorem State.modPert_only {a2} {a3} (hw : 65536 &&& w = 65536) (h : Only w v s) : Only w v (State.modPert s a2 a3) := by
  unfold State.modPert
  repeat' (first | with_reducible assumption | intro _ | (fail_if_no_progress with_reducible apply put_flt (sub_trans rfl hw)) | dsimp only)

theorem State.modBedPow_only {a2} {a3} (hw : 4 &&& w = 4) (h : Only w v s) : Only w v (State.modBedPow s a2 a3) := by
  unfold State.modBedPow
  repeat' (first | with_reducible assumption | intro _ | (fail_if_no_progress with_reducible apply put_clk (sub_trans rfl hw)) | dsimp only)

theorem State.modStbyExit_only {a2} {a3} (hw : 4 &&& w = 4) (h : Only w v s) : Only w v (State.modStbyExit s a2 a3) := by
  unfold State.modStbyExit
  repeat' (first | with_reducible assumption | intro _ | (fail_if_no_progress with_reducible apply put_clk (sub_trans rfl hw)) | dsimp only)

theorem State.modBlkReset_only {a2} {a3} (hw : 4 &&& w = 4) (h : Only w v s) : Only w v (State.modBlkReset s a2 a3) := by
  unfold State.modBlkReset
  repeat' (first | with_reducible assumption | intro _ | (fail_if_no_progress with_reducible apply put_clk (sub_trans rfl hw)) | dsimp only)

theorem State.modPinst_only {a2} {a3} (hw : 64 &&& w = 64) (h : Only w v s) : Only w v (State.modPinst s a2 a3) := by
  unfold State.modPinst
  repeat' (first | with_reducible assumption | intro _ | (fail_if_no_progress with_reducible apply put_pins (sub_trans rfl hw)) | dsimp only)

theorem State.modDacst_only {a2} {a3} (hw : 64 &&& w = 64) (h : Only w v s) : Only w v (State.modDacst s a2 a3) := by
  unfold State.modDacst
  repeat' (first | with_reducible assumption | intro _ | (fail_if_no_progress with_reducible apply put_pins (sub_trans rfl hw)))

theorem State.modGrp_only {a2} {a3} (hw : 64 &&& w = 64) (h : Only w v s) : Only w v (State.modGrp s a2 a3) := by
  unfold State.modGrp
  repeat' (first | with_reducible assumption | intro _ | (fail_if_no_progress with_reducible apply put_pins (sub_trans rfl hw)) | dsimp only)

theorem State.modMon_only {a2} {a3} (hw : 64 &&& w = 64) (h : Only w v s) : Only w v (State.modMon s a2 a3) := by
  unfold State.modMon
  repeat' (first | with_reducible assumption | intro _ | (fail_if_no_progress with_reducible apply put_pins (sub_trans rfl hw)) | dsimp only)

theorem State.modTsetAt_only {a2} {a3} (hw : 128 &&& w = 128) (h : Only w v s) : Only w v (State.modTsetAt s a2 a3) := by
  unfold State.modTsetAt
  repeat' (first | with_reducible assumption | intro _ | (fail_if_no_progress with_reducible apply put_edge (sub_trans rfl hw)) | dsimp only)

theorem State.modTdll_only {a2} {a3} (hw : 128 &&& w = 128) (h : Only w v s) : Only w v (State.modTdll s a2 a3) := by
  unfold State.modTdll
  repeat' (first | with_reducible assumption | intro _ | (fail_if_no_progress with_reducible apply put_edge (sub_trans rfl hw)) | dsimp only)

theorem State.modDrift_only {a2} {a3} (hw : 128 &&& w = 128) (h : Only w v s) : Only w v (State.modDrift s a2 a3) := by
  unfold State.modDrift
  repeat' (first | with_reducible assumption | intro _ | (fail_if_no_progress with_reducible apply put_edge (sub_trans rfl hw)) | dsimp only)

theorem State.modBase_only {a2} {a3} (hw : 128 &&& w = 128) (h : Only w v s) : Only w v (State.modBase s a2 a3) := by
  unfold State.modBase
  repeat' (first | with_reducible assumption | intro _ | (fail_if_no_progress with_reducible apply put_edge (sub_trans rfl hw)) | dsimp only)

theorem State.modStale_only {a2} {a3} (hw : 128 &&& w = 128) (h : Only w v s) : Only w v (State.modStale s a2 a3) := by
  unfold State.modStale
  repeat' (first | with_reducible assumption | intro _ | (fail_if_no_progress with_reducible apply put_edge (sub_trans rfl hw)) | dsimp only)

theorem State.modCkgen_only {a2} {a3} (hw : 128 &&& w = 128) (h : Only w v s) : Only w v (State.modCkgen s a2 a3) := by
  unfold State.modCkgen
  repeat' (first | with_reducible assumption | intro _ | (fail_if_no_progress with_reducible apply put_edge (sub_trans rfl hw)) | dsimp only)

theorem State.modPinck_only {a2} {a3} (hw : 128 &&& w = 128) (h : Only w v s) : Only w v (State.modPinck s a2 a3) := by
  unfold State.modPinck
  repeat' (first | with_reducible assumption | intro _ | (fail_if_no_progress with_reducible apply put_edge (sub_trans rfl hw)) | dsimp only)

theorem State.modSlices_only {a2} {a3} (hw : 128 &&& w = 128) (h : Only w v s) : Only w v (State.modSlices s a2 a3) := by
  unfold State.modSlices
  repeat' (first | with_reducible assumption | intro _ | (fail_if_no_progress with_reducible apply put_edge (sub_trans rfl hw)) | dsimp only)

theorem State.modSeq_only {a2} {a3} (hw : 256 &&& w = 256) (h : Only w v s) : Only w v (State.modSeq s a2 a3) := by
  unfold State.modSeq
  repeat' (first | with_reducible assumption | intro _ | (fail_if_no_progress with_reducible apply put_pat (sub_trans rfl hw)) | dsimp only)

theorem State.modSegm_only {a2} {a3} (hw : 256 &&& w = 256) (h : Only w v s) : Only w v (State.modSegm s a2 a3) := by
  unfold State.modSegm
  repeat' (first | with_reducible assumption | intro _ | (fail_if_no_progress with_reducible apply put_pat (sub_trans rfl hw)) | dsimp only)

theorem State.modStrm_only {a2} {a3} (hw : 256 &&& w = 256) (h : Only w v s) : Only w v (State.modStrm s a2 a3) := by
  unfold State.modStrm
  repeat' (first | with_reducible assumption | intro _ | (fail_if_no_progress with_reducible apply put_pat (sub_trans rfl hw)) | dsimp only)

theorem State.modTrig_only {a2} {a3} (hw : 256 &&& w = 256) (h : Only w v s) : Only w v (State.modTrig s a2 a3) := by
  unfold State.modTrig
  repeat' (first | with_reducible assumption | intro _ | (fail_if_no_progress with_reducible apply put_pat (sub_trans rfl hw)) | dsimp only)

theorem State.modTin_only {a2} {a3} (hw : 256 &&& w = 256) (h : Only w v s) : Only w v (State.modTin s a2 a3) := by
  unfold State.modTin
  repeat' (first | with_reducible assumption | intro _ | (fail_if_no_progress with_reducible apply put_pat (sub_trans rfl hw)) | dsimp only)

theorem State.modDramByte_only {a2} {a3} (hw : 256 &&& w = 256) (h : Only w v s) : Only w v (State.modDramByte s a2 a3) := by
  unfold State.modDramByte
  repeat' (first | with_reducible assumption | intro _ | (fail_if_no_progress with_reducible apply put_pat (sub_trans rfl hw)) | dsimp only)

theorem State.modLoop_only {a2} {a3} (hw : 512 &&& w = 512) (h : Only w v s) : Only w v (State.modLoop s a2 a3) := by
  unfold State.modLoop
  repeat' (first | with_reducible assumption | intro _ | (fail_if_no_progress with_reducible apply put_lp (sub_trans rfl hw)) | dsimp only)

theorem State.modGainPt_only {a2} {a3} (hw : 512 &&& w = 512) (h : Only w v s) : Only w v (State.modGainPt s a2 a3) := by
  unfold State.modGainPt
  repeat' (first | with_reducible assumption | intro _ | (fail_if_no_progress with_reducible apply put_lp (sub_trans rfl hw)) | dsimp only)

theorem State.modSwp_only {a2} {a3} (hw : 512 &&& w = 512) (h : Only w v s) : Only w v (State.modSwp s a2 a3) := by
  unfold State.modSwp
  repeat' (first | with_reducible assumption | intro _ | (fail_if_no_progress with_reducible apply put_lp (sub_trans rfl hw)) | dsimp only)

theorem State.modWaveSeg_only {a2} {a3} (hw : 512 &&& w = 512) (h : Only w v s) : Only w v (State.modWaveSeg s a2 a3) := by
  unfold State.modWaveSeg
  repeat' (first | with_reducible assumption | intro _ | (fail_if_no_progress with_reducible apply put_lp (sub_trans rfl hw)) | dsimp only)

theorem State.modAvg_only {a2} {a3} (hw : 1024 &&& w = 1024) (h : Only w v s) : Only w v (State.modAvg s a2 a3) := by
  unfold State.modAvg
  repeat' (first | with_reducible assumption | intro _ | (fail_if_no_progress with_reducible apply put_meas (sub_trans rfl hw)) | dsimp only)

theorem State.modWmon_only {a2} {a3} (hw : 1024 &&& w = 1024) (h : Only w v s) : Only w v (State.modWmon s a2 a3) := by
  unfold State.modWmon
  repeat' (first | with_reducible assumption | intro _ | (fail_if_no_progress with_reducible apply put_meas (sub_trans rfl hw)) | dsimp only)

theorem State.modTiu_only {a2} {a3} (hw : 1024 &&& w = 1024) (h : Only w v s) : Only w v (State.modTiu s a2 a3) := by
  unfold State.modTiu
  repeat' (first | with_reducible assumption | intro _ | (fail_if_no_progress with_reducible apply put_meas (sub_trans rfl hw)) | dsimp only)

theorem State.modStager_only {a2} {a3} (hw : 2048 &&& w = 2048) (h : Only w v s) : Only w v (State.modStager s a2 a3) := by
  unfold State.modStager
  repeat' (first | with_reducible assumption | intro _ | (fail_if_no_progress with_reducible apply put_harv (sub_trans rfl hw)) | dsimp only)

theorem State.modRing_only {a2} {a3} (hw : 2048 &&& w = 2048) (h : Only w v s) : Only w v (State.modRing s a2 a3) := by
  unfold State.modRing
  repeat' (first | with_reducible assumption | intro _ | (fail_if_no_progress with_reducible apply put_harv (sub_trans rfl hw)) | dsimp only)

theorem State.modPort_only {a2} {a3} (hw : 4096 &&& w = 4096) (h : Only w v s) : Only w v (State.modPort s a2 a3) := by
  unfold State.modPort
  repeat' (first | with_reducible assumption | intro _ | (fail_if_no_progress with_reducible apply put_link (sub_trans rfl hw)) | dsimp only)

theorem State.modStage_only {a2} {a3} (hw : 8192 &&& w = 8192) (h : Only w v s) : Only w v (State.modStage s a2 a3) := by
  unfold State.modStage
  repeat' (first | with_reducible assumption | intro _ | (fail_if_no_progress with_reducible apply put_ser (sub_trans rfl hw)) | dsimp only)

theorem State.modFlashByte_only {a2} {a3} (hw : 8192 &&& w = 8192) (h : Only w v s) : Only w v (State.modFlashByte s a2 a3) := by
  unfold State.modFlashByte
  repeat' (first | with_reducible assumption | intro _ | (fail_if_no_progress with_reducible apply put_ser (sub_trans rfl hw)) | dsimp only)

theorem State.modSensor_only {a2} {a3} (hw : 16384 &&& w = 16384) (h : Only w v s) : Only w v (State.modSensor s a2 a3) := by
  unfold State.modSensor
  repeat' (first | with_reducible assumption | intro _ | (fail_if_no_progress with_reducible apply put_sup (sub_trans rfl hw)) | dsimp only)

theorem State.modTherm_only {a2} {a3} (hw : 16384 &&& w = 16384) (h : Only w v s) : Only w v (State.modTherm s a2 a3) := by
  unfold State.modTherm
  repeat' (first | with_reducible assumption | intro _ | (fail_if_no_progress with_reducible apply put_sup (sub_trans rfl hw)) | dsimp only)

theorem State.modZone_only {a2} {a3} (hw : 16384 &&& w = 16384) (h : Only w v s) : Only w v (State.modZone s a2 a3) := by
  unfold State.modZone
  repeat' (first | with_reducible assumption | intro _ | (fail_if_no_progress with_reducible apply put_sup (sub_trans rfl hw)) | dsimp only)

theorem State.modLevel_only {a2} {a3} (hw : 16384 &&& w = 16384) (h : Only w v s) : Only w v (State.modLevel s a2 a3) := by
  unfold State.modLevel
  repeat' (first | with_reducible assumption | intro _ | (fail_if_no_progress with_reducible apply put_sup (sub_trans rfl hw)) | dsimp only)

theorem State.modRail_only {a2} {a3} (hw : 16384 &&& w = 16384) (h : Only w v s) : Only w v (State.modRail s a2 a3) := by
  unfold State.modRail
  repeat' (first | with_reducible assumption | intro _ | (fail_if_no_progress with_reducible apply put_sup (sub_trans rfl hw)) | dsimp only)

theorem State.modRailRd_only {a2} {a3} (hw : 16384 &&& w = 16384) (h : Only w v s) : Only w v (State.modRailRd s a2 a3) := by
  unfold State.modRailRd
  repeat' (first | with_reducible assumption | intro _ | (fail_if_no_progress with_reducible apply put_sup (sub_trans rfl hw)) | dsimp only)

theorem State.modPmon_only {a2} {a3} (hw : 16384 &&& w = 16384) (h : Only w v s) : Only w v (State.modPmon s a2 a3) := by
  unfold State.modPmon
  repeat' (first | with_reducible assumption | intro _ | (fail_if_no_progress with_reducible apply put_sup (sub_trans rfl hw)) | dsimp only)

theorem State.modCharge_only {a2} {a3} (hw : 16384 &&& w = 16384) (h : Only w v s) : Only w v (State.modCharge s a2 a3) := by
  unfold State.modCharge
  repeat' (first | with_reducible assumption | intro _ | (fail_if_no_progress with_reducible apply put_sup (sub_trans rfl hw)) | dsimp only)

theorem State.modTripWord_only {a2} {a3} (hw : 16384 &&& w = 16384) (h : Only w v s) : Only w v (State.modTripWord s a2 a3) := by
  unfold State.modTripWord
  repeat' (first | with_reducible assumption | intro _ | (fail_if_no_progress with_reducible apply put_sup (sub_trans rfl hw)) | dsimp only)

theorem State.modKeepByte_only {a2} {a3} (hw : 32768 &&& w = 32768) (h : Only w v s) : Only w v (State.modKeepByte s a2 a3) := by
  unfold State.modKeepByte
  repeat' (first | with_reducible assumption | intro _ | (fail_if_no_progress with_reducible apply put_cal (sub_trans rfl hw)) | dsimp only)

theorem State.modWearOf_only {a2} {a3} (hw : 32768 &&& w = 32768) (h : Only w v s) : Only w v (State.modWearOf s a2 a3) := by
  unfold State.modWearOf
  repeat' (first | with_reducible assumption | intro _ | (fail_if_no_progress with_reducible apply put_cal (sub_trans rfl hw)) | dsimp only)

theorem State.modQuality_only {a2} {a3} (hw : 32768 &&& w = 32768) (h : Only w v s) : Only w v (State.modQuality s a2 a3) := by
  unfold State.modQuality
  repeat' (first | with_reducible assumption | intro _ | (fail_if_no_progress with_reducible apply put_cal (sub_trans rfl hw)) | dsimp only)

theorem State.modMeasured_only {a2} {a3} (hw : 32768 &&& w = 32768) (h : Only w v s) : Only w v (State.modMeasured s a2 a3) := by
  unfold State.modMeasured
  repeat' (first | with_reducible assumption | intro _ | (fail_if_no_progress with_reducible apply put_cal (sub_trans rfl hw)) | dsimp only)

theorem onlyIf_only {a1} {a2} (hw : 0 &&& w = 0) (h : Only w v s) (a2h : ∀ t, Only w v t → Only w v (a2 t)) : Only w v (onlyIf a1 a2 s) := by
  unfold onlyIf
  repeat' (first | with_reducible assumption | intro _ | with_reducible apply only_ite | apply a2h)

theorem State.reach_only {a2} (hw : 4 &&& w = 4) (h : Only w v s) : Only w v (State.reach s a2) := by
  unfold State.reach
  repeat' (first | with_reducible assumption | intro _ | (fail_if_no_progress with_reducible apply put_clk (sub_trans rfl hw)))

theorem State.takeFree_only (hw : 2 &&& w = 2) (h : Only w v s) : Only w v (State.takeFree s) := by
  unfold State.takeFree
  repeat' (first | with_reducible assumption | intro _ | (fail_if_no_progress with_reducible apply put_free (sub_trans rfl hw)))

theorem State.setReact_only {a2} {a3} {a4} (hw : 65536 &&& w = 65536) (h : Only w v s) : Only w v (State.setReact s a2 a3 a4) := by
  unfold State.setReact
  repeat' (first | with_reducible assumption | intro _ | (fail_if_no_progress with_reducible apply put_flt (sub_trans rfl hw)))

theorem State.noteSet_only {a2} {a3} (hw : 8 &&& w = 8) (h : Only w v s) : Only w v (State.noteSet s a2 a3) := by
  unfold State.noteSet
  repeat' (first | with_reducible assumption | intro _ | (fail_if_no_progress with_reducible apply put_bus (sub_trans rfl hw)))

theorem State.noteAdd_only {a2} {a3} (hw : 8 &&& w = 8) (h : Only w v s) : Only w v (State.noteAdd s a2 a3) := by
  unfold State.noteAdd
  repeat' (first | with_reducible assumption | intro _ | (fail_if_no_progress with_reducible apply put_bus (sub_trans rfl hw)) | split | dsimp only)

theorem State.noteBase_only {a2} {a3} (hw : 8 &&& w = 8) (h : Only w v s) : Only w v (State.noteBase s a2 a3) := by
  unfold State.noteBase
  repeat' (first | with_reducible assumption | intro _ | with_reducible apply only_ite | (fail_if_no_progress with_reducible apply put_bus (sub_trans rfl hw)) | dsimp only)

theorem State.live_only {a2} {a3} {a4} (hw : 65536 &&& w = 65536) (h : Only w v s) : Only w v (State.live s a2 a3 a4) := by
  unfold State.live
  repeat' (first | with_reducible assumption | intro _ | with_reducible apply only_ite | with_reducible apply State.modFblk_only (sub_trans rfl hw) | dsimp only)

theorem State.raise_only {a2} {a3} {a4} {a5} (hw : 65536 &&& w = 65536) (h : Only w v s) : Only w v (State.raise s a2 a3 a4 a5) := by
  unfold State.raise
  repeat' (first | with_reducible assumption | intro _ | with_reducible apply only_ite | with_reducible apply State.live_only (sub_trans rfl hw) | (fail_if_no_progress with_reducible apply put_flt (sub_trans rfl hw)) | dsimp only)

theorem State.raiseForced_only {a2} {a3} (hw : 65538 &&& w = 65538) (h : Only w v s) : Only w v (State.raiseForced s a2 a3) := by
  unfold State.raiseForced
  repeat' (first | with_reducible assumption | intro _ | with_reducible apply State.takeFree_only (sub_trans rfl hw) | (fail_if_no_progress with_reducible apply put_flt (sub_trans rfl hw)) | dsimp only)

theorem State.condition_only {a2} {a3} {a4} {a5} {a6} (hw : 65536 &&& w = 65536) (h : Only w v s) : Only w v (State.condition s a2 a3 a4 a5 a6) := by
  unfold State.condition
  repeat' (first | with_reducible assumption | intro _ | with_reducible apply only_ite | with_reducible apply State.live_only (sub_trans rfl hw) | with_reducible apply State.raise_only (sub_trans rfl hw))

end Sys2Proof.Machine
end

