-- ==== Sys2Proof/Laws/OnlyLinkOps.lean ====
section
/-! SUPPORT. Machine/LinkOps.lean: which parts of the state each operation can change. -/

set_option linter.unusedVariables false
set_option linter.unusedTactic false
set_option linter.unreachableTactic false

namespace Sys2Proof.Machine

variable {w : Nat} {v s : State}

theorem State.modCls_only {a2} {a3} {a4} (hw : 4096 &&& w = 4096) (h : Only w v s) : Only w v (State.modCls s a2 a3 a4) := by
  unfold State.modCls
  repeat' (first | with_reducible assumption | intro _ | with_reducible apply State.modPort_only (sub_trans rfl hw) | dsimp only)

theorem enqueueFrom_only {a1} {a3} {a4} {a5} (hw : 69632 &&& w = 69632) (h : Only w v s) : Only w v (enqueueFrom a1 s a3 a4 a5) := by
  unfold enqueueFrom
  repeat' (first | with_reducible assumption | intro _ | with_reducible apply only_ite | with_reducible apply State.raise_only (sub_trans rfl hw) | with_reducible apply State.modCls_only (sub_trans rfl hw) | dsimp only)

theorem enqueue_only {a2} {a3} {a4} (hw : 69632 &&& w = 69632) (h : Only w v s) : Only w v (enqueue s a2 a3 a4) := by
  unfold enqueue
  repeat' (first | with_reducible assumption | intro _ | with_reducible apply enqueueFrom_only (sub_trans rfl hw))

theorem freeCredit_only {a2} {a3} {a4} (hw : 4096 &&& w = 4096) (h : Only w v s) : Only w v (freeCredit s a2 a3 a4) := by
  unfold freeCredit
  repeat' (first | with_reducible assumption | intro _ | with_reducible apply only_ite | with_reducible apply State.modPort_only (sub_trans rfl hw) | with_reducible apply State.modCls_only (sub_trans rfl hw) | dsimp only)

theorem sendRoot_only {a2} {a3} {a4} (hw : 69632 &&& w = 69632) (h : Only w v s) : Only w v (sendRoot s a2 a3 a4) := by
  unfold sendRoot
  repeat' (first | with_reducible assumption | intro _ | with_reducible apply enqueue_only (sub_trans rfl hw) | (fail_if_no_progress with_reducible apply put_link (sub_trans rfl hw)) | dsimp only)

theorem sendEvent_only {a2} {a3} (hw : 69632 &&& w = 69632) (h : Only w v s) : Only w v (sendEvent s a2 a3) := by
  unfold sendEvent
  repeat' (first | with_reducible assumption | intro _ | with_reducible apply sendRoot_only (sub_trans rfl hw))

theorem respond_only {a2} {a3} {a4} {a5} {a6} {a7} (hw : 69632 &&& w = 69632) (h : Only w v s) : Only w v (respond s a2 a3 a4 a5 a6 a7) := by
  unfold respond
  repeat' (first | with_reducible assumption | intro _ | with_reducible apply only_ite | with_reducible apply enqueue_only (sub_trans rfl hw))

end Sys2Proof.Machine
end

