-- ==== Sys2Proof/Laws/OnlyHarvestOps.lean ====
section
/-! SUPPORT. Machine/HarvestOps.lean: which parts of the state each operation can change. -/

set_option linter.unusedVariables false
set_option linter.unusedTactic false
set_option linter.unreachableTactic false

namespace Sys2Proof.Machine

variable {w : Nat} {v s : State}

theorem handOver_only {a2} (hw : 2048 &&& w = 2048) (h : Only w v s) : Only w v (handOver s a2) := by
  unfold handOver
  repeat' (first | with_reducible assumption | intro _ | with_reducible apply State.modStager_only (sub_trans rfl hw) | dsimp only)

theorem stageRoom_only {a2} {a3} (hw : 2048 &&& w = 2048) (h : Only w v s) : ∀ t, stageRoom s a2 a3 = some t → Only w v t := by
  intro t e
  unfold stageRoom at e
  (try dsimp only at e)
  repeat' (split at e)
  all_goals (first | cases e | skip)
  all_goals (try cases e)
  all_goals (repeat' (first | with_reducible assumption | intro _ | with_reducible apply only_ite | with_reducible apply handOver_only (sub_trans rfl hw) | dsimp only))

theorem placeIn_only {a2} {a3} {a4} {a5} {a6} (hw : 2048 &&& w = 2048) (h : Only w v s) : Only w v (placeIn s a2 a3 a4 a5 a6) := by
  unfold placeIn
  repeat' (first | with_reducible assumption | intro _ | with_reducible apply only_ite | with_reducible apply State.modStager_only (sub_trans rfl hw) | with_reducible apply State.modRing_only (sub_trans rfl hw) | dsimp only)

theorem sendNotify_only {a2} (hw : 71680 &&& w = 71680) (h : Only w v s) : Only w v (sendNotify s a2) := by
  unfold sendNotify
  repeat' (first | with_reducible assumption | intro _ | with_reducible apply sendRoot_only (sub_trans rfl hw) | with_reducible apply State.modRing_only (sub_trans rfl hw) | split | dsimp only)

theorem notifyUnitsCheck_only {a2} (hw : 71680 &&& w = 71680) (h : Only w v s) : Only w v (notifyUnitsCheck s a2) := by
  unfold notifyUnitsCheck
  repeat' (first | with_reducible assumption | intro _ | with_reducible apply only_ite | with_reducible apply sendNotify_only (sub_trans rfl hw) | dsimp only)

theorem advanceRing_only {a2} (hw : 71680 &&& w = 71680) (h : Only w v s) : Only w v (advanceRing s a2) := by
  unfold advanceRing
  repeat' (first | with_reducible assumption | intro _ | with_reducible apply only_ite | with_reducible apply State.modRing_only (sub_trans rfl hw) | with_reducible apply notifyUnitsCheck_only (sub_trans rfl hw) | split | with_reducible apply ofst_mk | with_reducible refine only_fst (by with_reducible assumption) ?_ | dsimp only)

theorem ringWrite_only {a2} {a3} {a4} (hw : 256 &&& w = 256) (h : Only w v s) : Only w v (ringWrite s a2 a3 a4) := by
  unfold ringWrite
  repeat' (first | with_reducible assumption | intro _ | (fail_if_no_progress with_reducible apply put_pat (sub_trans rfl hw)) | dsimp only)

theorem markWritten_only {a2} {a3} (hw : 71680 &&& w = 71680) (h : Only w v s) : Only w v (markWritten s a2 a3) := by
  unfold markWritten
  repeat' (first | with_reducible assumption | intro _ | with_reducible apply only_ite | with_reducible apply State.modRing_only (sub_trans rfl hw) | with_reducible apply advanceRing_only (sub_trans rfl hw) | dsimp only)

theorem dropRecord_only {a2} {a3} (hw : 2048 &&& w = 2048) (h : Only w v s) : Only w v (dropRecord s a2 a3) := by
  unfold dropRecord
  repeat' (first | with_reducible assumption | intro _ | with_reducible apply State.modRing_only (sub_trans rfl hw) | split | dsimp only)

theorem closeLoss_only {a2} (hw : 71936 &&& w = 71936) (h : Only w v s) : Only w v (closeLoss s a2) := by
  unfold closeLoss
  repeat' (first | with_reducible assumption | intro _ | with_reducible apply only_ite | with_reducible apply ringWrite_only (sub_trans rfl hw) | with_reducible apply State.modRing_only (sub_trans rfl hw) | with_reducible apply markWritten_only (sub_trans rfl hw) | split | dsimp only)

theorem takeCredit_only {a2} {a3} (hw : 2048 &&& w = 2048) (h : Only w v s) : Only w v (takeCredit s a2 a3) := by
  unfold takeCredit
  repeat' (first | with_reducible assumption | intro _ | with_reducible apply State.modRing_only (sub_trans rfl hw) | dsimp only)

theorem reserve_only {a2} {a3} (hw : 2048 &&& w = 2048) (h : Only w v s) : ∀ t, reserve s a2 a3 = some t → Only w v t := by
  intro t e
  unfold reserve at e
  (try dsimp only at e)
  repeat' (split at e)
  all_goals (first | cases e | skip)
  all_goals (try cases e)
  all_goals (repeat' (first | with_reducible assumption | intro _ | with_reducible apply only_ite | with_reducible apply takeCredit_only (sub_trans rfl hw)))

theorem joinWaiters_only {a2} {a3} {a4} (hw : 2048 &&& w = 2048) (h : Only w v s) : Only w v (joinWaiters s a2 a3 a4) := by
  unfold joinWaiters
  repeat' (first | with_reducible assumption | intro _ | with_reducible apply only_ite | with_reducible apply State.modRing_only (sub_trans rfl hw) | dsimp only)

theorem leaveWaiters_only {a2} {a3} (hw : 2048 &&& w = 2048) (h : Only w v s) : Only w v (leaveWaiters s a2 a3) := by
  unfold leaveWaiters
  repeat' (first | with_reducible assumption | intro _ | with_reducible apply State.modRing_only (sub_trans rfl hw) | dsimp only)

theorem modMeasRun_only {a2} {a3} (hw : 1024 &&& w = 1024) (h : Only w v s) : Only w v (modMeasRun s a2 a3) := by
  unfold modMeasRun
  repeat' (first | with_reducible assumption | intro _ | with_reducible apply State.modAvg_only (sub_trans rfl hw) | dsimp only)

theorem modLockRun_only {a2} {a3} (hw : 1024 &&& w = 1024) (h : Only w v s) : Only w v (modLockRun s a2 a3) := by
  unfold modLockRun
  repeat' (first | with_reducible assumption | intro _ | with_reducible apply State.modAvg_only (sub_trans rfl hw) | dsimp only)

theorem modTimRun_only {a2} {a3} (hw : 1024 &&& w = 1024) (h : Only w v s) : Only w v (modTimRun s a2 a3) := by
  unfold modTimRun
  repeat' (first | with_reducible assumption | intro _ | with_reducible apply State.modTiu_only (sub_trans rfl hw) | dsimp only)

theorem modSweep_only {a2} {a3} (hw : 512 &&& w = 512) (h : Only w v s) : Only w v (modSweep s a2 a3) := by
  unfold modSweep
  repeat' (first | with_reducible assumption | intro _ | with_reducible apply State.modLoop_only (sub_trans rfl hw) | split | dsimp only)

theorem grantCredit_only {a2} {a3} {a4} (hw : 3840 &&& w = 3840) (h : Only w v s) : Only w v (grantCredit s a2 a3 a4) := by
  unfold grantCredit
  repeat' (first | with_reducible assumption | intro _ | with_reducible apply only_foldl | with_reducible apply State.modSeq_only (sub_trans rfl hw) | with_reducible apply modSweep_only (sub_trans rfl hw) | with_reducible apply modMeasRun_only (sub_trans rfl hw) | with_reducible apply modLockRun_only (sub_trans rfl hw) | with_reducible apply modTimRun_only (sub_trans rfl hw) | (fail_if_no_progress with_reducible apply put_harv (sub_trans rfl hw)) | split | dsimp only)

theorem serveWaiters_only {a2} {a3} (hw : 3840 &&& w = 3840) (h : Only w v s) : Only w v (serveWaiters s a2 a3) := by
  induction a3 generalizing s with
  | nil => unfold serveWaiters; exact h
  | cons x q ih =>
    unfold serveWaiters
    repeat' (first | with_reducible apply ih | with_reducible refine only_of_fst (ih ?_) | with_reducible assumption | intro _ | with_reducible apply only_ite | with_reducible apply grantCredit_only (sub_trans rfl hw) | with_reducible apply leaveWaiters_only (sub_trans rfl hw) | with_reducible apply takeCredit_only (sub_trans rfl hw) | split | dsimp only)

theorem finalProgress_only {a2} (hw : 32 &&& w = 32) (h : Only w v s) : Only w v (finalProgress s a2) := by
  unfold finalProgress
  repeat' (first | with_reducible assumption | intro _ | with_reducible apply only_ite | with_reducible apply State.modProg_only (sub_trans rfl hw) | dsimp only)

theorem placeCompletion_only {a2} (hw : 2080 &&& w = 2080) (h : Only w v s) : ∀ t, placeCompletion s a2 = some t → Only w v t := by
  intro t e
  unfold placeCompletion at e
  (try dsimp only at e)
  repeat' (split at e)
  all_goals (first | cases e | skip)
  all_goals (try cases e)
  all_goals (repeat' (first | with_reducible assumption | intro _ | with_reducible apply only_ite | with_reducible refine stageRoom_only (sub_trans rfl hw) ?_ _ (by with_reducible assumption) | with_reducible apply State.modRing_only (sub_trans rfl hw) | with_reducible apply placeIn_only (sub_trans rfl hw) | with_reducible apply finalProgress_only (sub_trans rfl hw) | (fail_if_no_progress with_reducible apply put_harv (sub_trans rfl hw)) | split | dsimp only))

theorem endWork_only {a2} (hw : 67616 &&& w = 67616) (h : Only w v s) : Only w v (endWork s a2) := by
  unfold endWork
  repeat' (first | with_reducible assumption | intro _ | with_reducible apply only_ite | with_reducible refine placeCompletion_only (sub_trans rfl hw) ?_ _ (by with_reducible assumption) | with_reducible apply State.raise_only (sub_trans rfl hw) | with_reducible apply finalProgress_only (sub_trans rfl hw) | with_reducible apply dropRecord_only (sub_trans rfl hw) | with_reducible apply leaveWaiters_only (sub_trans rfl hw) | (fail_if_no_progress with_reducible apply put_harv (sub_trans rfl hw)) | split | dsimp only)

theorem retryEnds_only {a2} (hw : 2080 &&& w = 2080) (h : Only w v s) : Only w v (retryEnds s a2) := by
  induction a2 generalizing s with
  | nil => unfold retryEnds; exact h
  | cons x q ih =>
    unfold retryEnds
    repeat' (first | with_reducible apply ih | with_reducible refine only_of_fst (ih ?_) | with_reducible assumption | intro _ | with_reducible apply only_ite | with_reducible refine placeCompletion_only (sub_trans rfl hw) ?_ _ (by with_reducible assumption) | with_reducible apply finalProgress_only (sub_trans rfl hw) | with_reducible apply dropRecord_only (sub_trans rfl hw) | with_reducible apply leaveWaiters_only (sub_trans rfl hw) | (fail_if_no_progress with_reducible apply put_harv (sub_trans rfl hw)) | split | dsimp only)

theorem serviceRing_only {a2} (hw : 73504 &&& w = 73504) (h : Only w v s) : Only w v (serviceRing s a2) := by
  unfold serviceRing
  repeat' (first | with_reducible assumption | intro _ | with_reducible apply closeLoss_only (sub_trans rfl hw) | with_reducible apply serveWaiters_only (sub_trans rfl hw) | with_reducible apply retryEnds_only (sub_trans rfl hw) | dsimp only)

theorem returnCredit_only {a2} {a3} (hw : 73504 &&& w = 73504) (h : Only w v s) : Only w v (returnCredit s a2 a3) := by
  unfold returnCredit
  repeat' (first | with_reducible assumption | intro _ | with_reducible apply serviceRing_only (sub_trans rfl hw) | with_reducible apply State.modRing_only (sub_trans rfl hw) | dsimp only)

theorem emitRecord_only {a2} {a3} {a4} {a5} {a6} {a7} {a8} {a9} {a10} (hw : 67584 &&& w = 67584) (h : Only w v s) : OnlyFst w v (emitRecord s a2 a3 a4 a5 a6 a7 a8 a9 a10) := by
  unfold emitRecord
  repeat' (first | with_reducible assumption | intro _ | with_reducible apply only_ite | with_reducible apply ofst_ite | with_reducible refine reserve_only (sub_trans rfl hw) ?_ _ (by with_reducible assumption) | with_reducible apply dropRecord_only (sub_trans rfl hw) | with_reducible refine stageRoom_only (sub_trans rfl hw) ?_ _ (by with_reducible assumption) | with_reducible apply State.raise_only (sub_trans rfl hw) | with_reducible apply State.modRing_only (sub_trans rfl hw) | with_reducible apply placeIn_only (sub_trans rfl hw) | split | with_reducible apply ofst_mk | with_reducible refine only_fst (by with_reducible assumption) ?_ | dsimp only)

theorem placeReserved_only {a2} {a3} {a4} {a5} {a6} {a7} {a8} {a9} {a10} (hw : 73504 &&& w = 73504) (h : Only w v s) : OnlyFst w v (placeReserved s a2 a3 a4 a5 a6 a7 a8 a9 a10) := by
  unfold placeReserved
  repeat' (first | with_reducible assumption | intro _ | with_reducible apply only_ite | with_reducible apply ofst_ite | with_reducible refine stageRoom_only (sub_trans rfl hw) ?_ _ (by with_reducible assumption) | with_reducible apply returnCredit_only (sub_trans rfl hw) | with_reducible apply State.raise_only (sub_trans rfl hw) | with_reducible apply dropRecord_only (sub_trans rfl hw) | with_reducible apply State.modRing_only (sub_trans rfl hw) | with_reducible apply placeIn_only (sub_trans rfl hw) | with_reducible apply serviceRing_only (sub_trans rfl hw) | split | with_reducible apply ofst_mk | with_reducible refine only_fst (by with_reducible assumption) ?_ | dsimp only)

theorem placeHeld_only {a2} {a3} {a4} {a5} {a6} {a7} {a8} {a9} {a10} (hw : 73504 &&& w = 73504) (h : Only w v s) : OnlyFst w v (placeHeld s a2 a3 a4 a5 a6 a7 a8 a9 a10) := by
  unfold placeHeld
  repeat' (first | with_reducible assumption | intro _ | with_reducible apply only_ite | with_reducible apply ofst_ite | with_reducible refine stageRoom_only (sub_trans rfl hw) ?_ _ (by with_reducible assumption) | with_reducible apply State.raise_only (sub_trans rfl hw) | with_reducible apply State.modRing_only (sub_trans rfl hw) | with_reducible apply placeIn_only (sub_trans rfl hw) | with_reducible apply serviceRing_only (sub_trans rfl hw) | split | with_reducible apply ofst_mk | with_reducible refine only_fst (by with_reducible assumption) ?_ | dsimp only)

theorem placeLast_only {a2} {a3} {a4} {a5} {a6} {a7} {a8} {a9} {a10} (hw : 73504 &&& w = 73504) (h : Only w v s) : Only w v (placeLast s a2 a3 a4 a5 a6 a7 a8 a9 a10) := by
  unfold placeLast
  repeat' (first | with_reducible assumption | intro _ | with_reducible apply only_ite | with_reducible apply ofst_ite | with_reducible apply placeHeld_only (sub_trans rfl hw) | with_reducible refine only_of_fst (placeHeld_only (sub_trans rfl hw) ?_) | with_reducible refine only_fst (by with_reducible assumption) (placeHeld_only (sub_trans rfl hw) ?_) | (fail_if_no_progress with_reducible apply put_harv (sub_trans rfl hw)) | split | with_reducible apply ofst_mk | with_reducible refine only_fst (by with_reducible assumption) ?_ | dsimp only)

theorem placeLate_only {a2} (hw : 73504 &&& w = 73504) (h : Only w v s) : Only w v (placeLate s a2) := by
  induction a2 generalizing s with
  | nil => unfold placeLate; exact h
  | cons x q ih =>
    unfold placeLate
    repeat' (first | with_reducible apply ih | with_reducible refine only_of_fst (ih ?_) | with_reducible assumption | intro _ | with_reducible apply only_ite | with_reducible apply ofst_ite | with_reducible refine stageRoom_only (sub_trans rfl hw) ?_ _ (by with_reducible assumption) | with_reducible apply placeHeld_only (sub_trans rfl hw) | with_reducible refine only_of_fst (placeHeld_only (sub_trans rfl hw) ?_) | with_reducible refine only_fst (by with_reducible assumption) (placeHeld_only (sub_trans rfl hw) ?_) | (fail_if_no_progress with_reducible apply put_harv (sub_trans rfl hw)) | split | with_reducible apply ofst_mk | with_reducible refine only_fst (by with_reducible assumption) ?_ | dsimp only)

theorem bankFreed_only (hw : 73504 &&& w = 73504) (h : Only w v s) : Only w v (bankFreed s) := by
  unfold bankFreed
  repeat' (first | with_reducible assumption | intro _ | with_reducible apply placeLate_only (sub_trans rfl hw) | with_reducible apply retryEnds_only (sub_trans rfl hw) | dsimp only)

theorem dropLate_only {a2} (hw : 73504 &&& w = 73504) (h : Only w v s) : Only w v (dropLate s a2) := by
  unfold dropLate
  repeat' (first | with_reducible assumption | intro _ | with_reducible apply only_foldl | with_reducible apply returnCredit_only (sub_trans rfl hw) | (fail_if_no_progress with_reducible apply put_harv (sub_trans rfl hw)) | dsimp only)

theorem askCredit_only {a2} {a3} {a4} (hw : 2048 &&& w = 2048) (h : Only w v s) : OnlyFst w v (askCredit s a2 a3 a4) := by
  unfold askCredit
  repeat' (first | with_reducible assumption | intro _ | with_reducible apply only_ite | with_reducible apply ofst_ite | with_reducible refine reserve_only (sub_trans rfl hw) ?_ _ (by with_reducible assumption) | with_reducible apply dropRecord_only (sub_trans rfl hw) | with_reducible apply joinWaiters_only (sub_trans rfl hw) | split | with_reducible apply ofst_mk | with_reducible refine only_fst (by with_reducible assumption) ?_ | dsimp only)

theorem forgetTag_only {a2} (hw : 2048 &&& w = 2048) (h : Only w v s) : Only w v (forgetTag s a2) := by
  unfold forgetTag
  repeat' (first | with_reducible assumption | intro _ | with_reducible apply only_ite | (fail_if_no_progress with_reducible apply put_harv (sub_trans rfl hw)) | split | dsimp only)

theorem beginWork_only {a2} {a3} {a4} {a5} {a6} (hw : 2080 &&& w = 2080) (h : Only w v s) : Only w v (beginWork s a2 a3 a4 a5 a6) := by
  unfold beginWork
  repeat' (first | with_reducible assumption | intro _ | with_reducible apply only_ite | with_reducible apply forgetTag_only (sub_trans rfl hw) | with_reducible apply State.modProg_only (sub_trans rfl hw) | with_reducible refine reserve_only (sub_trans rfl hw) ?_ _ (by with_reducible assumption) | with_reducible apply joinWaiters_only (sub_trans rfl hw) | (fail_if_no_progress with_reducible apply put_harv (sub_trans rfl hw)) | split | dsimp only)

theorem noteWritten_only {a2} (hw : 32 &&& w = 32) (h : Only w v s) : Only w v (noteWritten s a2) := by
  unfold noteWritten
  repeat' (first | with_reducible assumption | intro _ | with_reducible apply only_ite | with_reducible apply State.modProg_only (sub_trans rfl hw) | dsimp only)

theorem burstAcked_only {a2} {a3} (hw : 73504 &&& w = 73504) (h : Only w v s) : Only w v (burstAcked s a2 a3) := by
  unfold burstAcked
  repeat' (first | with_reducible assumption | intro _ | with_reducible apply only_foldl | with_reducible apply ofst_foldl | with_reducible apply ofoldl_fst | with_reducible apply ringWrite_only (sub_trans rfl hw) | with_reducible apply State.modStager_only (sub_trans rfl hw) | with_reducible apply bankFreed_only (sub_trans rfl hw) | with_reducible apply markWritten_only (sub_trans rfl hw) | with_reducible apply noteWritten_only (sub_trans rfl hw) | dsimp only)

theorem failRing_only {a2} (hw : 2048 &&& w = 2048) (h : Only w v s) : Only w v (failRing s a2) := by
  unfold failRing
  repeat' (first | with_reducible assumption | intro _ | with_reducible apply State.modRing_only (sub_trans rfl hw) | (fail_if_no_progress with_reducible apply put_harv (sub_trans rfl hw)) | split | dsimp only)

theorem burstFailed_only {a2} {a3} {a4} (hw : 73504 &&& w = 73504) (h : Only w v s) : Only w v (burstFailed s a2 a3 a4) := by
  unfold burstFailed
  repeat' (first | with_reducible assumption | intro _ | with_reducible apply only_ite | with_reducible apply State.raise_only (sub_trans rfl hw) | with_reducible apply State.modStager_only (sub_trans rfl hw) | with_reducible apply bankFreed_only (sub_trans rfl hw) | with_reducible apply failRing_only (sub_trans rfl hw) | dsimp only)

theorem discardBanks_only {a2} (hw : 2048 &&& w = 2048) (h : Only w v s) : Only w v (discardBanks s a2) := by
  unfold discardBanks
  repeat' (first | with_reducible assumption | intro _ | with_reducible apply State.modStager_only (sub_trans rfl hw) | dsimp only)

theorem releaseRing_only {a2} {a3} {a4} (hw : 73504 &&& w = 73504) (h : Only w v s) : OnlyFst w v (releaseRing s a2 a3 a4) := by
  unfold releaseRing
  repeat' (first | with_reducible assumption | intro _ | with_reducible apply only_ite | with_reducible apply ofst_ite | with_reducible apply State.raise_only (sub_trans rfl hw) | with_reducible apply State.modRing_only (sub_trans rfl hw) | with_reducible apply notifyUnitsCheck_only (sub_trans rfl hw) | with_reducible apply serviceRing_only (sub_trans rfl hw) | with_reducible apply ofst_mk | dsimp only)

end Sys2Proof.Machine
end

