-- ==== Sys2Proof/Laws/OnlyFwOps.lean ====
section
/-! SUPPORT. Machine/FwOps.lean: which parts of the state each operation can change. -/

set_option linter.unusedVariables false
set_option linter.unusedTactic false
set_option linter.unreachableTactic false

namespace Sys2Proof.Machine

variable {w : Nat} {v s : State}

theorem enterDone_only {a2} {a3} (hw : 69648 &&& w = 69648) (h : Only w v s) : Only w v (enterDone s a2 a3) := by
  unfold enterDone
  repeat' (first | with_reducible assumption | intro _ | with_reducible apply only_ite | with_reducible apply State.modMbx_only (sub_trans rfl hw) | with_reducible apply sendEvent_only (sub_trans rfl hw) | dsimp only)

theorem holdResponse_only {a2} (hw : 16 &&& w = 16) (h : Only w v s) : Only w v (holdResponse s a2) := by
  unfold holdResponse
  repeat' (first | with_reducible assumption | intro _ | with_reducible apply State.modMbx_only (sub_trans rfl hw) | dsimp only)

theorem postResponse_only {a2} {a3} {a4} (hw : 69680 &&& w = 69680) (h : Only w v s) : Only w v (postResponse s a2 a3 a4) := by
  unfold postResponse
  repeat' (first | with_reducible assumption | intro _ | with_reducible apply only_ite | with_reducible apply State.modMbx_only (sub_trans rfl hw) | with_reducible apply holdResponse_only (sub_trans rfl hw) | with_reducible apply enterDone_only (sub_trans rfl hw) | (fail_if_no_progress with_reducible apply put_fw (sub_trans rfl hw)) | split | dsimp only)

theorem postOk_only {a2} (hw : 69680 &&& w = 69680) (h : Only w v s) : Only w v (postOk s a2) := by
  unfold postOk
  repeat' (first | with_reducible assumption | intro _ | with_reducible apply postResponse_only (sub_trans rfl hw))

theorem postBad_only {a2} (hw : 69680 &&& w = 69680) (h : Only w v s) : Only w v (postBad s a2) := by
  unfold postBad
  repeat' (first | with_reducible assumption | intro _ | with_reducible apply postResponse_only (sub_trans rfl hw))

theorem checked_only {a2} {a3} (hw : 69680 &&& w = 69680) (h : Only w v s) (a3h : ∀ t, Only w v t → Only w v (a3 t)) : Only w v (checked s a2 a3) := by
  unfold checked
  repeat' (first | with_reducible assumption | intro _ | with_reducible apply postBad_only (sub_trans rfl hw) | apply a3h | split | dsimp only)

theorem onCommand_only {a2} {a3} {a4} (hw : 0 &&& w = 0) (h : Only w v s) (a4h : ∀ c, Only w v (a4 c)) : Only w v (onCommand s a2 a3 a4) := by
  unfold onCommand
  repeat' (first | with_reducible assumption | intro _ | with_reducible apply only_ite | apply a4h | split | dsimp only)

theorem waitFor_only {a2} {a3} (hw : 32 &&& w = 32) (h : Only w v s) : Only w v (waitFor s a2 a3) := by
  unfold waitFor
  repeat' (first | with_reducible assumption | intro _ | (fail_if_no_progress with_reducible apply put_fw (sub_trans rfl hw)) | dsimp only)

theorem answerAbort_only {a2} (hw : 69680 &&& w = 69680) (h : Only w v s) : Only w v (answerAbort s a2) := by
  unfold answerAbort
  repeat' (first | with_reducible assumption | intro _ | with_reducible apply only_ite | with_reducible apply postOk_only (sub_trans rfl hw))

theorem accept_only {a2} {a3} {a4} (hw : 71728 &&& w = 71728) (h : Only w v s) : Only w v (accept s a2 a3 a4) := by
  unfold accept
  repeat' (first | with_reducible assumption | intro _ | with_reducible apply postResponse_only (sub_trans rfl hw) | with_reducible apply beginWork_only (sub_trans rfl hw))

theorem fwLog_only {a2} {a3} {a4} {a5} (hw : 32 &&& w = 32) (h : Only w v s) : Only w v (fwLog s a2 a3 a4 a5) := by
  unfold fwLog
  repeat' (first | with_reducible assumption | intro _ | (fail_if_no_progress with_reducible apply put_fw (sub_trans rfl hw)))

end Sys2Proof.Machine
end

