-- ==== Sys2Proof/Laws/OnlyTiming.lean ====
section
/-! SUPPORT. Machine/Timing.lean: which parts of the state each operation can change. -/

set_option linter.unusedVariables false
set_option linter.unusedTactic false
set_option linter.unreachableTactic false

namespace Sys2Proof.Machine

variable {w : Nat} {v s : State}

theorem execTsWrite_only (hw : 69808 &&& w = 69808) (h : Only w v s) : OnlyOut w v (execTsWrite s) := by
  unfold execTsWrite
  apply onlyOut_next
  repeat' (first | with_reducible assumption | intro _ | with_reducible apply only_ite | with_reducible apply only_foldl | with_reducible apply onCommand_only (sub_trans rfl hw) | with_reducible apply checked_only (sub_trans rfl hw) | with_reducible apply postOk_only (sub_trans rfl hw) | with_reducible apply State.modTsetAt_only (sub_trans rfl hw) | split | dsimp only)

theorem execTsRead_only (hw : 69680 &&& w = 69680) (h : Only w v s) : OnlyOut w v (execTsRead s) := by
  unfold execTsRead
  apply onlyOut_next
  repeat' (first | with_reducible assumption | intro _ | with_reducible apply onCommand_only (sub_trans rfl hw) | with_reducible apply checked_only (sub_trans rfl hw) | with_reducible apply postOk_only (sub_trans rfl hw) | split | dsimp only)

theorem shutWindows_only {a2} {a3} (hw : 128 &&& w = 128) (h : Only w v s) : Only w v (shutWindows s a2 a3) := by
  unfold shutWindows
  repeat' (first | with_reducible assumption | intro _ | with_reducible apply only_ite | with_reducible apply State.modPinck_only (sub_trans rfl hw) | dsimp only)

theorem leaveClock_only {a2} {a3} (hw : 128 &&& w = 128) (h : Only w v s) : Only w v (leaveClock s a2 a3) := by
  unfold leaveClock
  repeat' (first | with_reducible assumption | intro _ | with_reducible apply only_ite | with_reducible apply shutWindows_only (sub_trans rfl hw))

theorem joinClock_only {a2} {a3} (hw : 128 &&& w = 128) (h : Only w v s) : Only w v (joinClock s a2 a3) := by
  unfold joinClock
  repeat' (first | with_reducible assumption | intro _ | with_reducible apply only_ite | with_reducible apply State.modPinck_only (sub_trans rfl hw) | dsimp only)

theorem holdClocks_only {a2} (hw : 128 &&& w = 128) (h : Only w v s) : Only w v (holdClocks s a2) := by
  unfold holdClocks
  repeat' (first | with_reducible assumption | intro _ | with_reducible apply only_foldl | with_reducible apply leaveClock_only (sub_trans rfl hw) | dsimp only)

theorem resumeClocks_only {a2} (hw : 128 &&& w = 128) (h : Only w v s) : Only w v (resumeClocks s a2) := by
  unfold resumeClocks
  repeat' (first | with_reducible assumption | intro _ | with_reducible apply only_ite | with_reducible apply only_foldl | with_reducible apply joinClock_only (sub_trans rfl hw) | dsimp only)

theorem releaseClocks_only {a2} (hw : 128 &&& w = 128) (h : Only w v s) : Only w v (releaseClocks s a2) := by
  unfold releaseClocks
  repeat' (first | with_reducible assumption | intro _ | with_reducible apply only_foldl | with_reducible apply resumeClocks_only (sub_trans rfl hw) | with_reducible apply State.modPinck_only (sub_trans rfl hw) | dsimp only)

theorem jitteredPulse_only (hw : 2 &&& w = 2) (h : Only w v s) : OnlyFst w v (jitteredPulse s) := by
  unfold jitteredPulse
  repeat' (first | with_reducible assumption | intro _ | with_reducible apply only_ite | with_reducible apply ofst_ite | with_reducible apply State.takeFree_only (sub_trans rfl hw) | with_reducible apply ofst_mk | dsimp only)

theorem syncBeds_only {a2} (hw : 130 &&& w = 130) (h : Only w v s) : Only w v (syncBeds s a2) := by
  unfold syncBeds
  repeat' (first | with_reducible assumption | intro _ | with_reducible apply only_foldl | with_reducible apply ofst_foldl | with_reducible apply ofoldl_fst | with_reducible apply jitteredPulse_only (sub_trans rfl hw) | with_reducible refine only_of_fst (jitteredPulse_only (sub_trans rfl hw) ?_) | with_reducible refine only_fst (by with_reducible assumption) (jitteredPulse_only (sub_trans rfl hw) ?_) | with_reducible apply State.modBase_only (sub_trans rfl hw) | with_reducible apply ofst_mk | dsimp only)

theorem clockCommand_only {a2} {a3} (hw : 69808 &&& w = 69808) (h : Only w v s) : Only w v (clockCommand s a2 a3) := by
  unfold clockCommand
  repeat' (first | with_reducible assumption | intro _ | with_reducible apply only_ite | with_reducible apply State.modCkgen_only (sub_trans rfl hw) | with_reducible apply postOk_only (sub_trans rfl hw) | dsimp only)

theorem execClockOutSet_only (hw : 69808 &&& w = 69808) (h : Only w v s) : OnlyOut w v (execClockOutSet s) := by
  unfold execClockOutSet
  apply onlyOut_next
  repeat' (first | with_reducible assumption | intro _ | with_reducible apply onCommand_only (sub_trans rfl hw) | with_reducible apply checked_only (sub_trans rfl hw) | with_reducible apply clockCommand_only (sub_trans rfl hw) | dsimp only)

theorem execClockOutStop_only (hw : 69808 &&& w = 69808) (h : Only w v s) : OnlyOut w v (execClockOutStop s) := by
  unfold execClockOutStop
  apply onlyOut_next
  repeat' (first | with_reducible assumption | intro _ | with_reducible apply onCommand_only (sub_trans rfl hw) | with_reducible apply checked_only (sub_trans rfl hw) | with_reducible apply clockCommand_only (sub_trans rfl hw) | dsimp only)

theorem assignClock_only {a2} {a3} {a4} (hw : 128 &&& w = 128) (h : Only w v s) : Only w v (assignClock s a2 a3 a4) := by
  unfold assignClock
  repeat' (first | with_reducible assumption | intro _ | with_reducible apply only_ite | with_reducible apply shutWindows_only (sub_trans rfl hw) | with_reducible apply State.modPinck_only (sub_trans rfl hw) | dsimp only)

theorem execClockOutAssign_only (hw : 69808 &&& w = 69808) (h : Only w v s) : OnlyOut w v (execClockOutAssign s) := by
  unfold execClockOutAssign
  apply onlyOut_next
  repeat' (first | with_reducible assumption | intro _ | with_reducible apply only_foldl | with_reducible apply onCommand_only (sub_trans rfl hw) | with_reducible apply checked_only (sub_trans rfl hw) | with_reducible apply postOk_only (sub_trans rfl hw) | with_reducible apply assignClock_only (sub_trans rfl hw) | dsimp only)

theorem execClockChangeDue_only {a1} {a2} (hw : 132 &&& w = 132) (h : Only w v s) : OnlyOut w v (execClockChangeDue a1 a2 s) := by
  unfold execClockChangeDue
  apply onlyOut_next
  repeat' (first | with_reducible assumption | intro _ | with_reducible apply State.reach_only (sub_trans rfl hw) | with_reducible apply State.modCkgen_only (sub_trans rfl hw) | split | dsimp only)

theorem execTdllUnlock_only {a1} (hw : 65920 &&& w = 65920) (h : Only w v s) : OnlyOut w v (execTdllUnlock a1 s) := by
  unfold execTdllUnlock
  apply onlyOut_next
  repeat' (first | with_reducible assumption | intro _ | with_reducible apply only_ite | with_reducible apply only_foldl | with_reducible apply State.modSeq_only (sub_trans rfl hw) | with_reducible apply State.modSlices_only (sub_trans rfl hw) | with_reducible apply State.modPinck_only (sub_trans rfl hw) | with_reducible apply State.modTdll_only (sub_trans rfl hw) | with_reducible apply State.condition_only (sub_trans rfl hw) | dsimp only)

theorem execTdllRelock_only {a1} (hw : 65664 &&& w = 65664) (h : Only w v s) : OnlyOut w v (execTdllRelock a1 s) := by
  unfold execTdllRelock
  apply onlyOut_next
  repeat' (first | with_reducible assumption | intro _ | with_reducible apply only_foldl | with_reducible apply State.modPinck_only (sub_trans rfl hw) | with_reducible apply State.modTdll_only (sub_trans rfl hw) | with_reducible apply State.live_only (sub_trans rfl hw) | dsimp only)

theorem advancePin_only {a2} {a3} {a4} {a5} (hw : 65920 &&& w = 65920) (h : Only w v s) : Only w v (advancePin s a2 a3 a4 a5) := by
  unfold advancePin
  repeat' (first | with_reducible assumption | intro _ | with_reducible apply only_ite | with_reducible apply only_foldl | with_reducible apply State.modSlices_only (sub_trans rfl hw) | with_reducible apply State.raise_only (sub_trans rfl hw) | with_reducible apply State.modSeq_only (sub_trans rfl hw) | split | with_reducible apply ofst_mk | with_reducible refine only_fst (by with_reducible assumption) ?_ | dsimp only)

theorem waitingOff_only {a2} {a3} (hw : 65536 &&& w = 65536) (h : Only w v s) : OnlyFst w v (waitingOff s a2 a3) := by
  unfold waitingOff
  repeat' (first | with_reducible assumption | intro _ | with_reducible apply only_ite | with_reducible apply ofst_ite | with_reducible apply State.raise_only (sub_trans rfl hw) | split | with_reducible apply ofst_mk | with_reducible refine only_fst (by with_reducible assumption) ?_ | dsimp only)

theorem placeEvents_only {a2} {a3} {a4} {a5} {a6} {a7} {a8} {a9} {a10} {a11} (hw : 65664 &&& w = 65664) (h : Only w v s) : OnlyFst w v (placeEvents s a2 a3 a4 a5 a6 a7 a8 a9 a10 a11) := by
  unfold placeEvents
  repeat' (first | with_reducible assumption | intro _ | with_reducible apply only_ite | with_reducible apply only_foldl | with_reducible apply ofst_ite | with_reducible apply ofst_foldl | with_reducible apply ofoldl_fst | with_reducible apply State.raise_only (sub_trans rfl hw) | with_reducible apply State.modSlices_only (sub_trans rfl hw) | split | with_reducible apply ofst_mk | with_reducible refine only_fst (by with_reducible assumption) ?_ | dsimp only)

theorem placePin_only {a2} {a3} {a4} {a5} {a6} {a7} {a8} {a9} (hw : 65984 &&& w = 65984) (h : Only w v s) : OnlyFst w v (placePin s a2 a3 a4 a5 a6 a7 a8 a9) := by
  unfold placePin
  repeat' (first | with_reducible assumption | intro _ | with_reducible apply only_ite | with_reducible apply ofst_ite | with_reducible apply advancePin_only (sub_trans rfl hw) | with_reducible apply joinClock_only (sub_trans rfl hw) | with_reducible apply leaveClock_only (sub_trans rfl hw) | with_reducible apply State.modPinst_only (sub_trans rfl hw) | with_reducible apply waitingOff_only (sub_trans rfl hw) | with_reducible refine only_of_fst (waitingOff_only (sub_trans rfl hw) ?_) | with_reducible refine only_fst (by with_reducible assumption) (waitingOff_only (sub_trans rfl hw) ?_) | with_reducible apply placeEvents_only (sub_trans rfl hw) | with_reducible refine only_of_fst (placeEvents_only (sub_trans rfl hw) ?_) | with_reducible refine only_fst (by with_reducible assumption) (placeEvents_only (sub_trans rfl hw) ?_) | split | with_reducible apply ofst_mk | with_reducible refine only_fst (by with_reducible assumption) ?_ | dsimp only)

theorem settlePin_only {a2} {a3} (hw : 128 &&& w = 128) (h : Only w v s) : Only w v (settlePin s a2 a3) := by
  unfold settlePin
  repeat' (first | with_reducible assumption | intro _ | with_reducible apply only_ite | with_reducible apply leaveClock_only (sub_trans rfl hw) | with_reducible apply State.modSlices_only (sub_trans rfl hw) | dsimp only)

theorem setDriver_only {a2} {a3} (hw : 128 &&& w = 128) (h : Only w v s) : Only w v (setDriver s a2 a3) := by
  unfold setDriver
  repeat' (first | with_reducible assumption | intro _ | with_reducible apply State.modSlices_only (sub_trans rfl hw) | dsimp only)

theorem clocheDrivers_only {a2} (hw : 128 &&& w = 128) (h : Only w v s) : Only w v (clocheDrivers s a2) := by
  unfold clocheDrivers
  repeat' (first | with_reducible assumption | intro _ | with_reducible apply only_foldl | with_reducible apply setDriver_only (sub_trans rfl hw) | dsimp only)

theorem heldDrivers_only {a2} (hw : 128 &&& w = 128) (h : Only w v s) : Only w v (heldDrivers s a2) := by
  unfold heldDrivers
  repeat' (first | with_reducible assumption | intro _ | with_reducible apply only_foldl | with_reducible apply setDriver_only (sub_trans rfl hw) | dsimp only)

theorem armPin_only {a2} (hw : 192 &&& w = 192) (h : Only w v s) : Only w v (armPin s a2) := by
  unfold armPin
  repeat' (first | with_reducible assumption | intro _ | with_reducible apply setDriver_only (sub_trans rfl hw) | with_reducible apply State.modPinst_only (sub_trans rfl hw) | with_reducible apply State.modSlices_only (sub_trans rfl hw) | dsimp only)

end Sys2Proof.Machine
end

