-- ==== Sys2Proof/Laws/OnlySegments.lean ====
section
/-! SUPPORT. Machine/Segments.lean: which parts of the state each operation can change. -/

set_option linter.unusedVariables false
set_option linter.unusedTactic false
set_option linter.unreachableTactic false

namespace Sys2Proof.Machine

variable {w : Nat} {v s : State}

theorem startFetch_only (hw : 256 &&& w = 256) (h : Only w v s) : Only w v (startFetch s) := by
  unfold startFetch
  repeat' (first | with_reducible assumption | intro _ | with_reducible apply only_ite | (fail_if_no_progress with_reducible apply put_pat (sub_trans rfl hw)) | split | dsimp only)

theorem makeRoom_only {a2} (hw : 256 &&& w = 256) : ∀ {a3 : Nat} {s : State} (_ : Only w v s), ∀ t, makeRoom s a2 a3 = some t → Only w v t
  | 0, s, h, t, e => by
    unfold makeRoom at e
    split at e
    · cases e; exact h
    · cases e
  | n + 1, s, h, t, e => by
    unfold makeRoom at e
    dsimp only at e
    split at e
    · cases e; exact h
    · split at e
      · exact makeRoom_only hw (State.modSegm_only (sub_trans rfl hw) h) t e
      · cases e

theorem execSegLoad_only (hw : 71984 &&& w = 71984) (h : Only w v s) : OnlyOut w v (execSegLoad s) := by
  unfold execSegLoad
  apply onlyOut_next
  repeat' (first | with_reducible assumption | intro _ | with_reducible apply only_ite | with_reducible apply onCommand_only (sub_trans rfl hw) | with_reducible apply checked_only (sub_trans rfl hw) | with_reducible apply accept_only (sub_trans rfl hw) | with_reducible apply endWork_only (sub_trans rfl hw) | with_reducible apply State.modSegm_only (sub_trans rfl hw) | (fail_if_no_progress with_reducible apply put_pat (sub_trans rfl hw)) | dsimp only)

theorem execSegLoadDone_only {a1} (hw : 67872 &&& w = 67872) (h : Only w v s) : OnlyOut w v (execSegLoadDone a1 s) := by
  unfold execSegLoadDone
  apply onlyOut_next
  repeat' (first | with_reducible assumption | intro _ | with_reducible apply only_ite | with_reducible apply endWork_only (sub_trans rfl hw) | with_reducible apply State.modSegm_only (sub_trans rfl hw) | with_reducible apply startFetch_only (sub_trans rfl hw) | (fail_if_no_progress with_reducible apply put_pat (sub_trans rfl hw)) | split | dsimp only)

theorem segPinAnswer_only {a2} (hw : 69936 &&& w = 69936) (h : Only w v s) : Only w v (segPinAnswer s a2) := by
  unfold segPinAnswer
  repeat' (first | with_reducible assumption | intro _ | with_reducible apply only_ite | with_reducible apply postOk_only (sub_trans rfl hw) | with_reducible apply waitFor_only (sub_trans rfl hw) | with_reducible apply startFetch_only (sub_trans rfl hw))

theorem execSegPinPin_only (hw : 69936 &&& w = 69936) (h : Only w v s) : OnlyOut w v (execSegPinPin s) := by
  unfold execSegPinPin
  apply onlyOut_next
  repeat' (first | with_reducible assumption | intro _ | with_reducible apply onCommand_only (sub_trans rfl hw) | with_reducible apply checked_only (sub_trans rfl hw) | with_reducible apply segPinAnswer_only (sub_trans rfl hw) | with_reducible apply State.modSegm_only (sub_trans rfl hw) | dsimp only)

theorem execSegPinUnpin_only (hw : 69936 &&& w = 69936) (h : Only w v s) : OnlyOut w v (execSegPinUnpin s) := by
  unfold execSegPinUnpin
  apply onlyOut_next
  repeat' (first | with_reducible assumption | intro _ | with_reducible apply onCommand_only (sub_trans rfl hw) | with_reducible apply checked_only (sub_trans rfl hw) | with_reducible apply postOk_only (sub_trans rfl hw) | with_reducible apply State.modSegm_only (sub_trans rfl hw) | dsimp only)

theorem execSegPinUnpinAll_only (hw : 70000 &&& w = 70000) (h : Only w v s) : OnlyOut w v (execSegPinUnpinAll s) := by
  unfold execSegPinUnpinAll
  apply onlyOut_next
  repeat' (first | with_reducible assumption | intro _ | with_reducible apply only_foldl | with_reducible apply onCommand_only (sub_trans rfl hw) | with_reducible apply checked_only (sub_trans rfl hw) | with_reducible apply State.modSegm_only (sub_trans rfl hw) | with_reducible apply State.modSeq_only (sub_trans rfl hw) | with_reducible apply postOk_only (sub_trans rfl hw) | (fail_if_no_progress with_reducible apply put_pins (sub_trans rfl hw)) | dsimp only)

theorem execSegPinFetch_only (hw : 69936 &&& w = 69936) (h : Only w v s) : OnlyOut w v (execSegPinFetch s) := by
  unfold execSegPinFetch
  apply onlyOut_next
  repeat' (first | with_reducible assumption | intro _ | with_reducible apply onCommand_only (sub_trans rfl hw) | with_reducible apply checked_only (sub_trans rfl hw) | with_reducible apply segPinAnswer_only (sub_trans rfl hw) | with_reducible apply State.modSegm_only (sub_trans rfl hw) | dsimp only)

theorem execSegPinResidencyTimeout_only (hw : 69680 &&& w = 69680) (h : Only w v s) : OnlyOut w v (execSegPinResidencyTimeout s) := by
  unfold execSegPinResidencyTimeout
  apply onlyOut_next
  repeat' (first | with_reducible assumption | intro _ | with_reducible apply only_ite | with_reducible apply postBad_only (sub_trans rfl hw))

theorem execStreamOpenOpen_only (hw : 69936 &&& w = 69936) (h : Only w v s) : OnlyOut w v (execStreamOpenOpen s) := by
  unfold execStreamOpenOpen
  apply onlyOut_next
  repeat' (first | with_reducible assumption | intro _ | with_reducible apply onCommand_only (sub_trans rfl hw) | with_reducible apply checked_only (sub_trans rfl hw) | with_reducible apply postOk_only (sub_trans rfl hw) | with_reducible apply startFetch_only (sub_trans rfl hw) | with_reducible apply State.modStrm_only (sub_trans rfl hw) | dsimp only)

theorem execStreamOpenAppend_only (hw : 69936 &&& w = 69936) (h : Only w v s) : OnlyOut w v (execStreamOpenAppend s) := by
  unfold execStreamOpenAppend
  apply onlyOut_next
  repeat' (first | with_reducible assumption | intro _ | with_reducible apply only_ite | with_reducible apply only_foldl | with_reducible apply onCommand_only (sub_trans rfl hw) | with_reducible apply checked_only (sub_trans rfl hw) | with_reducible apply State.modStrm_only (sub_trans rfl hw) | with_reducible apply State.modSeq_only (sub_trans rfl hw) | with_reducible apply postOk_only (sub_trans rfl hw) | with_reducible apply startFetch_only (sub_trans rfl hw) | dsimp only)

theorem execStreamOpenClose_only (hw : 69936 &&& w = 69936) (h : Only w v s) : OnlyOut w v (execStreamOpenClose s) := by
  unfold execStreamOpenClose
  apply onlyOut_next
  repeat' (first | with_reducible assumption | intro _ | with_reducible apply onCommand_only (sub_trans rfl hw) | with_reducible apply checked_only (sub_trans rfl hw) | with_reducible apply postOk_only (sub_trans rfl hw) | with_reducible apply State.modStrm_only (sub_trans rfl hw) | dsimp only)

theorem execStreamOpenMap_only (hw : 69936 &&& w = 69936) (h : Only w v s) : OnlyOut w v (execStreamOpenMap s) := by
  unfold execStreamOpenMap
  apply onlyOut_next
  repeat' (first | with_reducible assumption | intro _ | with_reducible apply onCommand_only (sub_trans rfl hw) | with_reducible apply checked_only (sub_trans rfl hw) | with_reducible apply postOk_only (sub_trans rfl hw) | (fail_if_no_progress with_reducible apply put_pat (sub_trans rfl hw)) | dsimp only)

theorem armSite_only {a2} {a3} {a4} {a5} (hw : 2528 &&& w = 2528) (h : Only w v s) : Only w v (armSite s a2 a3 a4 a5) := by
  unfold armSite
  repeat' (first | with_reducible assumption | intro _ | with_reducible apply only_foldl | with_reducible apply ofst_foldl | with_reducible apply ofoldl_fst | with_reducible apply beginWork_only (sub_trans rfl hw) | with_reducible refine reserve_only (sub_trans rfl hw) ?_ _ (by with_reducible assumption) | with_reducible apply joinWaiters_only (sub_trans rfl hw) | with_reducible apply armPin_only (sub_trans rfl hw) | with_reducible apply State.modSeq_only (sub_trans rfl hw) | split | with_reducible apply ofst_mk | with_reducible refine only_fst (by with_reducible assumption) ?_ | dsimp only)

theorem armBurst_only {a2} (hw : 72176 &&& w = 72176) (h : Only w v s) : Only w v (armBurst s a2) := by
  unfold armBurst
  repeat' (first | with_reducible assumption | intro _ | with_reducible apply only_ite | with_reducible apply only_foldl | with_reducible apply ofst_foldl | with_reducible apply ofoldl_fst | with_reducible apply postBad_only (sub_trans rfl hw) | with_reducible apply State.modSegm_only (sub_trans rfl hw) | with_reducible apply startFetch_only (sub_trans rfl hw) | with_reducible apply armSite_only (sub_trans rfl hw) | with_reducible apply postResponse_only (sub_trans rfl hw) | dsimp only)

theorem execBurstRun_only (hw : 72176 &&& w = 72176) (h : Only w v s) : OnlyOut w v (execBurstRun s) := by
  unfold execBurstRun
  apply onlyOut_next
  repeat' (first | with_reducible assumption | intro _ | with_reducible apply only_ite | with_reducible apply onCommand_only (sub_trans rfl hw) | with_reducible apply checked_only (sub_trans rfl hw) | with_reducible apply State.modSegm_only (sub_trans rfl hw) | with_reducible apply armBurst_only (sub_trans rfl hw) | with_reducible apply startFetch_only (sub_trans rfl hw) | with_reducible apply waitFor_only (sub_trans rfl hw) | split | dsimp only)

theorem dropEntryPins_only (hw : 256 &&& w = 256) (h : Only w v s) : Only w v (dropEntryPins s) := by
  unfold dropEntryPins
  repeat' (first | with_reducible assumption | intro _ | with_reducible apply only_ite | with_reducible apply State.modSegm_only (sub_trans rfl hw) | split | dsimp only)

theorem execBurstRunEntryTimeout_only (hw : 69936 &&& w = 69936) (h : Only w v s) : OnlyOut w v (execBurstRunEntryTimeout s) := by
  unfold execBurstRunEntryTimeout
  apply onlyOut_next
  repeat' (first | with_reducible assumption | intro _ | with_reducible apply only_ite | with_reducible apply postBad_only (sub_trans rfl hw) | with_reducible apply dropEntryPins_only (sub_trans rfl hw) | split | dsimp only)

theorem tellUnusable_only {a2} (hw : 65792 &&& w = 65792) (h : Only w v s) : Only w v (tellUnusable s a2) := by
  unfold tellUnusable
  repeat' (first | with_reducible assumption | intro _ | with_reducible apply only_ite | with_reducible apply State.modSeq_only (sub_trans rfl hw) | with_reducible apply State.raise_only (sub_trans rfl hw) | dsimp only)

theorem tellSites_only (hw : 65792 &&& w = 65792) (h : Only w v s) : Only w v (tellSites s) := by
  unfold tellSites
  repeat' (first | with_reducible assumption | intro _ | with_reducible apply only_foldl | with_reducible apply tellUnusable_only (sub_trans rfl hw) | with_reducible apply State.live_only (sub_trans rfl hw) | dsimp only)

theorem nowResident_only {a2} (hw : 72176 &&& w = 72176) (h : Only w v s) : Only w v (nowResident s a2) := by
  unfold nowResident
  repeat' (first | with_reducible assumption | intro _ | with_reducible apply only_ite | with_reducible apply only_foldl | with_reducible apply State.modSeq_only (sub_trans rfl hw) | with_reducible apply armBurst_only (sub_trans rfl hw) | with_reducible apply postOk_only (sub_trans rfl hw) | split | dsimp only)

theorem endFetch_only (hw : 256 &&& w = 256) (h : Only w v s) : Only w v (endFetch s) := by
  unfold endFetch
  repeat' (first | with_reducible assumption | intro _ | with_reducible apply startFetch_only (sub_trans rfl hw) | (fail_if_no_progress with_reducible apply put_pat (sub_trans rfl hw)))

theorem spoilSegment_only {a2} (hw : 65792 &&& w = 65792) (h : Only w v s) : Only w v (spoilSegment s a2) := by
  unfold spoilSegment
  repeat' (first | with_reducible assumption | intro _ | with_reducible apply tellSites_only (sub_trans rfl hw) | with_reducible apply State.modSegm_only (sub_trans rfl hw) | dsimp only)

theorem landSegment_only {a2} (hw : 72176 &&& w = 72176) (h : Only w v s) : Only w v (landSegment s a2) := by
  unfold landSegment
  repeat' (first | with_reducible assumption | intro _ | with_reducible apply endFetch_only (sub_trans rfl hw) | with_reducible apply spoilSegment_only (sub_trans rfl hw) | with_reducible refine makeRoom_only (sub_trans rfl hw) ?_ _ (by with_reducible assumption) | with_reducible apply nowResident_only (sub_trans rfl hw) | with_reducible apply State.modSegm_only (sub_trans rfl hw) | split | dsimp only)

theorem execSegmentFetchDone_only {a1} {a2} (hw : 72180 &&& w = 72180) (h : Only w v s) : OnlyOut w v (execSegmentFetchDone a1 a2 s) := by
  unfold execSegmentFetchDone
  apply onlyOut_next
  repeat' (first | with_reducible assumption | intro _ | with_reducible apply only_ite | with_reducible apply State.reach_only (sub_trans rfl hw) | with_reducible apply endFetch_only (sub_trans rfl hw) | with_reducible apply landSegment_only (sub_trans rfl hw) | with_reducible apply State.raise_only (sub_trans rfl hw) | with_reducible apply spoilSegment_only (sub_trans rfl hw) | with_reducible apply State.modSegm_only (sub_trans rfl hw) | split | dsimp only)

end Sys2Proof.Machine
end

