-- ==== Sys2Proof/Laws/OnlyInterval.lean ====
section
/-! SUPPORT. Machine/Interval.lean: which parts of the state each operation can change. -/

set_option linter.unusedVariables false
set_option linter.unusedTactic false
set_option linter.unreachableTactic false

namespace Sys2Proof.Machine

variable {w : Nat} {v s : State}

theorem execTimConfig_only (hw : 70704 &&& w = 70704) (h : Only w v s) : OnlyOut w v (execTimConfig s) := by
  unfold execTimConfig
  apply onlyOut_next
  repeat' (first | with_reducible assumption | intro _ | with_reducible apply only_foldl | with_reducible apply onCommand_only (sub_trans rfl hw) | with_reducible apply checked_only (sub_trans rfl hw) | with_reducible apply postOk_only (sub_trans rfl hw) | with_reducible apply State.modTiu_only (sub_trans rfl hw) | dsimp only)

theorem execTimConfigRead_only (hw : 69680 &&& w = 69680) (h : Only w v s) : OnlyOut w v (execTimConfigRead s) := by
  unfold execTimConfigRead
  apply onlyOut_next
  repeat' (first | with_reducible assumption | intro _ | with_reducible apply onCommand_only (sub_trans rfl hw) | with_reducible apply checked_only (sub_trans rfl hw) | with_reducible apply postOk_only (sub_trans rfl hw) | dsimp only)

theorem endTimRun_only {a2} {a3} {a4} (hw : 73504 &&& w = 73504) (h : Only w v s) : Only w v (endTimRun s a2 a3 a4) := by
  unfold endTimRun
  repeat' (first | with_reducible assumption | intro _ | with_reducible apply only_ite | with_reducible apply State.modTiu_only (sub_trans rfl hw) | with_reducible apply leaveWaiters_only (sub_trans rfl hw) | with_reducible apply returnCredit_only (sub_trans rfl hw) | with_reducible apply endWork_only (sub_trans rfl hw) | split | dsimp only)

theorem timDone_only {a2} {a3} (hw : 73504 &&& w = 73504) (h : Only w v s) : Only w v (timDone s a2 a3) := by
  unfold timDone
  repeat' (first | with_reducible assumption | intro _ | with_reducible apply only_ite | with_reducible apply modTimRun_only (sub_trans rfl hw) | with_reducible apply State.modProg_only (sub_trans rfl hw) | with_reducible apply endTimRun_only (sub_trans rfl hw) | dsimp only)

theorem modWin_only {a2} {a3} (hw : 1024 &&& w = 1024) (h : Only w v s) : Only w v (modWin s a2 a3) := by
  unfold modWin
  repeat' (first | with_reducible assumption | intro _ | with_reducible apply modTimRun_only (sub_trans rfl hw) | dsimp only)

theorem openWindow_only {a2} (hw : 3072 &&& w = 3072) (h : Only w v s) : Only w v (openWindow s a2) := by
  unfold openWindow
  repeat' (first | with_reducible assumption | intro _ | with_reducible apply only_ite | with_reducible apply ofst_ite | with_reducible apply askCredit_only (sub_trans rfl hw) | with_reducible refine only_of_fst (askCredit_only (sub_trans rfl hw) ?_) | with_reducible refine only_fst (by with_reducible assumption) (askCredit_only (sub_trans rfl hw) ?_) | with_reducible apply modWin_only (sub_trans rfl hw) | split | with_reducible apply ofst_mk | with_reducible refine only_fst (by with_reducible assumption) ?_ | dsimp only)

theorem writeWindow_only {a2} (hw : 73504 &&& w = 73504) (h : Only w v s) : OnlyFst w v (writeWindow s a2) := by
  unfold writeWindow
  repeat' (first | with_reducible assumption | intro _ | with_reducible apply only_ite | with_reducible apply ofst_ite | with_reducible apply placeHeld_only (sub_trans rfl hw) | with_reducible refine only_of_fst (placeHeld_only (sub_trans rfl hw) ?_) | with_reducible refine only_fst (by with_reducible assumption) (placeHeld_only (sub_trans rfl hw) ?_) | with_reducible apply openWindow_only (sub_trans rfl hw) | with_reducible apply timDone_only (sub_trans rfl hw) | with_reducible apply modTimRun_only (sub_trans rfl hw) | split | with_reducible apply ofst_mk | with_reducible refine only_fst (by with_reducible assumption) ?_ | dsimp only)

theorem cutWindow_only {a2} (hw : 73504 &&& w = 73504) (h : Only w v s) : Only w v (cutWindow s a2) := by
  unfold cutWindow
  repeat' (first | with_reducible assumption | intro _ | with_reducible apply only_ite | with_reducible apply placeLast_only (sub_trans rfl hw) | with_reducible apply modTimRun_only (sub_trans rfl hw) | split | dsimp only)

theorem discard_only {a2} (hw : 1024 &&& w = 1024) (h : Only w v s) : Only w v (discard s a2) := by
  unfold discard
  repeat' (first | with_reducible assumption | intro _ | with_reducible apply modWin_only (sub_trans rfl hw) | dsimp only)

theorem addSample_only {a2} {a3} {a4} {a5} (hw : 73504 &&& w = 73504) (h : Only w v s) : Only w v (addSample s a2 a3 a4 a5) := by
  unfold addSample
  repeat' (first | with_reducible assumption | intro _ | with_reducible apply only_ite | with_reducible apply ofst_ite | with_reducible apply writeWindow_only (sub_trans rfl hw) | with_reducible refine only_of_fst (writeWindow_only (sub_trans rfl hw) ?_) | with_reducible refine only_fst (by with_reducible assumption) (writeWindow_only (sub_trans rfl hw) ?_) | with_reducible apply discard_only (sub_trans rfl hw) | with_reducible apply openWindow_only (sub_trans rfl hw) | with_reducible apply modWin_only (sub_trans rfl hw) | split | with_reducible apply ofst_mk | with_reducible refine only_fst (by with_reducible assumption) ?_ | dsimp only)

theorem takeSample_only {a2} {a3} {a4} {a5} {a6} (hw : 73504 &&& w = 73504) (h : Only w v s) : Only w v (takeSample s a2 a3 a4 a5 a6) := by
  unfold takeSample
  repeat' (first | with_reducible assumption | intro _ | with_reducible apply only_ite | with_reducible apply modWin_only (sub_trans rfl hw) | with_reducible apply discard_only (sub_trans rfl hw) | with_reducible apply addSample_only (sub_trans rfl hw) | dsimp only)

theorem closeStamps_only {a2} (hw : 73504 &&& w = 73504) (h : Only w v s) : Only w v (closeStamps s a2) := by
  unfold closeStamps
  repeat' (first | with_reducible assumption | intro _ | with_reducible apply only_ite | with_reducible apply ofst_ite | with_reducible apply placeHeld_only (sub_trans rfl hw) | with_reducible refine only_of_fst (placeHeld_only (sub_trans rfl hw) ?_) | with_reducible refine only_fst (by with_reducible assumption) (placeHeld_only (sub_trans rfl hw) ?_) | with_reducible apply timDone_only (sub_trans rfl hw) | with_reducible apply modTimRun_only (sub_trans rfl hw) | with_reducible apply dropRecord_only (sub_trans rfl hw) | with_reducible apply returnCredit_only (sub_trans rfl hw) | split | with_reducible apply ofst_mk | with_reducible refine only_fst (by with_reducible assumption) ?_ | dsimp only)

theorem drainStamp_only {a2} (hw : 73504 &&& w = 73504) (h : Only w v s) : Only w v (drainStamp s a2) := by
  unfold drainStamp
  repeat' (first | with_reducible assumption | intro _ | with_reducible apply only_ite | with_reducible apply ofst_ite | with_reducible apply closeStamps_only (sub_trans rfl hw) | with_reducible apply modTimRun_only (sub_trans rfl hw) | with_reducible apply State.modTiu_only (sub_trans rfl hw) | with_reducible apply askCredit_only (sub_trans rfl hw) | with_reducible refine only_of_fst (askCredit_only (sub_trans rfl hw) ?_) | with_reducible refine only_fst (by with_reducible assumption) (askCredit_only (sub_trans rfl hw) ?_) | split | with_reducible apply ofst_mk | with_reducible refine only_fst (by with_reducible assumption) ?_ | dsimp only)

theorem drainStamps_only {a2} {a3} (hw : 73504 &&& w = 73504) (h : Only w v s) : Only w v (drainStamps s a2 a3) := by
  induction a3 generalizing s with
  | zero => unfold drainStamps; exact h
  | succ q ih =>
    unfold drainStamps
    repeat' (first | with_reducible apply ih | with_reducible refine only_of_fst (ih ?_) | with_reducible assumption | intro _ | with_reducible apply drainStamp_only (sub_trans rfl hw) | split | dsimp only)

theorem pushStamp_only {a2} {a3} (hw : 73504 &&& w = 73504) (h : Only w v s) : Only w v (pushStamp s a2 a3) := by
  unfold pushStamp
  repeat' (first | with_reducible assumption | intro _ | with_reducible apply only_ite | with_reducible apply State.modTiu_only (sub_trans rfl hw) | with_reducible apply drainStamps_only (sub_trans rfl hw) | with_reducible apply modTimRun_only (sub_trans rfl hw) | with_reducible apply State.raise_only (sub_trans rfl hw) | split | dsimp only)

theorem dropAttempt_only {a2} (hw : 1024 &&& w = 1024) (h : Only w v s) : Only w v (dropAttempt s a2) := by
  unfold dropAttempt
  repeat' (first | with_reducible assumption | intro _ | with_reducible apply modWin_only (sub_trans rfl hw) | with_reducible apply modTimRun_only (sub_trans rfl hw) | dsimp only)

theorem gateEnds_only {a2} {a3} (hw : 73504 &&& w = 73504) (h : Only w v s) : Only w v (gateEnds s a2 a3) := by
  unfold gateEnds
  repeat' (first | with_reducible assumption | intro _ | with_reducible apply only_ite | with_reducible apply modTimRun_only (sub_trans rfl hw) | with_reducible apply modWin_only (sub_trans rfl hw) | with_reducible apply takeSample_only (sub_trans rfl hw) | split | dsimp only)

theorem edgeToRun_only {a2} {a3} {a4} {a5} (hw : 73504 &&& w = 73504) (h : Only w v s) : Only w v (edgeToRun s a2 a3 a4 a5) := by
  unfold edgeToRun
  repeat' (first | with_reducible assumption | intro _ | with_reducible apply only_ite | with_reducible apply openWindow_only (sub_trans rfl hw) | with_reducible apply pushStamp_only (sub_trans rfl hw) | with_reducible apply gateEnds_only (sub_trans rfl hw) | with_reducible apply modTimRun_only (sub_trans rfl hw) | with_reducible apply modWin_only (sub_trans rfl hw) | with_reducible apply discard_only (sub_trans rfl hw) | with_reducible apply takeSample_only (sub_trans rfl hw) | with_reducible apply dropAttempt_only (sub_trans rfl hw) | split | dsimp only)

theorem acceptEdge_only {a2} {a3} {a4} {a5} {a6} (hw : 73504 &&& w = 73504) (h : Only w v s) : Only w v (acceptEdge s a2 a3 a4 a5 a6) := by
  unfold acceptEdge
  repeat' (first | with_reducible assumption | intro _ | with_reducible apply only_ite | with_reducible apply State.modTiu_only (sub_trans rfl hw) | with_reducible apply modTimRun_only (sub_trans rfl hw) | with_reducible apply modWin_only (sub_trans rfl hw) | with_reducible apply edgeToRun_only (sub_trans rfl hw) | dsimp only)

theorem channelEdge_only {a2} {a3} {a4} {a5} (hw : 73504 &&& w = 73504) (h : Only w v s) : Only w v (channelEdge s a2 a3 a4 a5) := by
  unfold channelEdge
  repeat' (first | with_reducible assumption | intro _ | with_reducible apply only_ite | with_reducible apply acceptEdge_only (sub_trans rfl hw) | split | with_reducible apply ofst_mk | with_reducible refine only_fst (by with_reducible assumption) ?_ | dsimp only)

theorem unitEdges_only {a2} {a3} {a4} (hw : 73504 &&& w = 73504) (h : Only w v s) : Only w v (unitEdges s a2 a3 a4) := by
  unfold unitEdges
  repeat' (first | with_reducible assumption | intro _ | with_reducible apply only_ite | with_reducible apply only_foldl | with_reducible apply ofst_foldl | with_reducible apply ofoldl_fst | with_reducible apply channelEdge_only (sub_trans rfl hw) | dsimp only)

theorem execTiuEdge_only {a1} {a2} {a3} {a4} (hw : 73508 &&& w = 73508) (h : Only w v s) : OnlyOut w v (execTiuEdge a1 a2 a3 a4 s) := by
  unfold execTiuEdge
  apply onlyOut_next
  repeat' (first | with_reducible assumption | intro _ | with_reducible apply only_ite | with_reducible apply acceptEdge_only (sub_trans rfl hw) | with_reducible apply State.reach_only (sub_trans rfl hw) | split | with_reducible apply ofst_mk | with_reducible refine only_fst (by with_reducible assumption) ?_ | dsimp only)

theorem execTiuGateEnd_only {a1} (hw : 73508 &&& w = 73508) (h : Only w v s) : OnlyOut w v (execTiuGateEnd a1 s) := by
  unfold execTiuGateEnd
  apply onlyOut_next
  repeat' (first | with_reducible assumption | intro _ | with_reducible apply only_ite | with_reducible apply gateEnds_only (sub_trans rfl hw) | with_reducible apply openWindow_only (sub_trans rfl hw) | with_reducible apply State.reach_only (sub_trans rfl hw) | split | dsimp only)

theorem execTiuTimeout_only {a1} (hw : 1028 &&& w = 1028) (h : Only w v s) : OnlyOut w v (execTiuTimeout a1 s) := by
  unfold execTiuTimeout
  apply onlyOut_next
  repeat' (first | with_reducible assumption | intro _ | with_reducible apply only_ite | with_reducible apply dropAttempt_only (sub_trans rfl hw) | with_reducible apply State.reach_only (sub_trans rfl hw) | split | dsimp only)

theorem execTimStampsClose_only {a1} (hw : 73508 &&& w = 73508) (h : Only w v s) : OnlyOut w v (execTimStampsClose a1 s) := by
  unfold execTimStampsClose
  apply onlyOut_next
  repeat' (first | with_reducible assumption | intro _ | with_reducible apply only_ite | with_reducible apply State.reach_only (sub_trans rfl hw) | with_reducible apply closeStamps_only (sub_trans rfl hw) | with_reducible apply drainStamps_only (sub_trans rfl hw) | split | dsimp only)

theorem cutStamps_only {a2} (hw : 73504 &&& w = 73504) (h : Only w v s) : Only w v (cutStamps s a2) := by
  unfold cutStamps
  repeat' (first | with_reducible assumption | intro _ | with_reducible apply only_ite | with_reducible apply placeLast_only (sub_trans rfl hw) | with_reducible apply modTimRun_only (sub_trans rfl hw) | with_reducible apply State.modProg_only (sub_trans rfl hw) | split | dsimp only)

theorem openDue_only {a2} (hw : 3072 &&& w = 3072) (h : Only w v s) : Only w v (openDue s a2) := by
  unfold openDue
  repeat' (first | with_reducible assumption | intro _ | with_reducible apply only_ite | with_reducible apply openWindow_only (sub_trans rfl hw) | split | dsimp only)

theorem cutTim_only {a2} {a3} {a4} (hw : 73504 &&& w = 73504) (h : Only w v s) : Only w v (cutTim s a2 a3 a4) := by
  unfold cutTim
  repeat' (first | with_reducible assumption | intro _ | with_reducible apply only_ite | with_reducible apply endTimRun_only (sub_trans rfl hw) | with_reducible apply cutStamps_only (sub_trans rfl hw) | with_reducible apply cutWindow_only (sub_trans rfl hw) | with_reducible apply openDue_only (sub_trans rfl hw))

theorem timStepped_only {a2} (hw : 73504 &&& w = 73504) (h : Only w v s) : Only w v (timStepped s a2) := by
  unfold timStepped
  repeat' (first | with_reducible assumption | intro _ | with_reducible apply only_ite | with_reducible apply only_foldl | with_reducible apply ofst_foldl | with_reducible apply ofoldl_fst | with_reducible apply State.modTiu_only (sub_trans rfl hw) | with_reducible apply modTimRun_only (sub_trans rfl hw) | with_reducible apply closeStamps_only (sub_trans rfl hw) | dsimp only)

theorem execTimRunStart_only (hw : 72752 &&& w = 72752) (h : Only w v s) : OnlyOut w v (execTimRunStart s) := by
  unfold execTimRunStart
  apply onlyOut_next
  repeat' (first | with_reducible assumption | intro _ | with_reducible apply only_ite | with_reducible apply only_foldl | with_reducible apply onCommand_only (sub_trans rfl hw) | with_reducible apply checked_only (sub_trans rfl hw) | with_reducible apply State.modTiu_only (sub_trans rfl hw) | with_reducible apply beginWork_only (sub_trans rfl hw) | with_reducible apply accept_only (sub_trans rfl hw) | dsimp only)

theorem stopTim_only {a2} (hw : 73504 &&& w = 73504) (h : Only w v s) : Only w v (stopTim s a2) := by
  unfold stopTim
  repeat' (first | with_reducible assumption | intro _ | with_reducible apply only_ite | with_reducible apply modTimRun_only (sub_trans rfl hw) | with_reducible apply openDue_only (sub_trans rfl hw) | with_reducible apply cutTim_only (sub_trans rfl hw) | with_reducible apply endTimRun_only (sub_trans rfl hw) | dsimp only)

theorem execTimRunStop_only (hw : 73520 &&& w = 73520) (h : Only w v s) : OnlyOut w v (execTimRunStop s) := by
  unfold execTimRunStop
  apply onlyOut_next
  repeat' (first | with_reducible assumption | intro _ | with_reducible apply only_foldl | with_reducible apply onCommand_only (sub_trans rfl hw) | with_reducible apply checked_only (sub_trans rfl hw) | with_reducible apply postOk_only (sub_trans rfl hw) | with_reducible apply stopTim_only (sub_trans rfl hw) | dsimp only)

end Sys2Proof.Machine
end

