-- ==== Sys2Proof/Laws/OnlyBurst.lean ====
section
/-! SUPPORT. Machine/Burst.lean: which parts of the state each operation can change. -/

set_option linter.unusedVariables false
set_option linter.unusedTactic false
set_option linter.unreachableTactic false

namespace Sys2Proof.Machine

variable {w : Nat} {v s : State}

theorem trigPulse_only {a2} {a3} (hw : 256 &&& w = 256) (h : Only w v s) : Only w v (trigPulse s a2 a3) := by
  unfold trigPulse
  repeat' (first | with_reducible assumption | intro _ | with_reducible apply State.modTrig_only (sub_trans rfl hw) | dsimp only)

theorem trigEvent_only {a2} {a3} {a4} (hw : 256 &&& w = 256) (h : Only w v s) : Only w v (trigEvent s a2 a3 a4) := by
  unfold trigEvent
  repeat' (first | with_reducible assumption | intro _ | with_reducible apply only_ite | with_reducible apply only_foldl | with_reducible apply trigPulse_only (sub_trans rfl hw) | dsimp only)

theorem seqPulse_only {a2} {a3} {a4} (hw : 73504 &&& w = 73504) (h : Only w v s) : Only w v (seqPulse s a2 a3 a4) := by
  unfold seqPulse
  repeat' (first | with_reducible assumption | intro _ | with_reducible apply unitEdges_only (sub_trans rfl hw) | dsimp only)

theorem stackFault_only {a2} {a3} (hw : 65536 &&& w = 65536) (h : Only w v s) : Only w v (stackFault s a2 a3) := by
  unfold stackFault
  repeat' (first | with_reducible assumption | intro _ | with_reducible apply State.raise_only (sub_trans rfl hw))

theorem dropFrame_only {a2} (hw : 256 &&& w = 256) (h : Only w v s) : Only w v (dropFrame s a2) := by
  unfold dropFrame
  repeat' (first | with_reducible assumption | intro _ | with_reducible apply only_foldl | with_reducible apply State.modSegm_only (sub_trans rfl hw) | dsimp only)

theorem clearStacks_only {a2} (hw : 256 &&& w = 256) (h : Only w v s) : Only w v (clearStacks s a2) := by
  unfold clearStacks
  repeat' (first | with_reducible assumption | intro _ | with_reducible apply only_foldl | with_reducible apply dropFrame_only (sub_trans rfl hw) | with_reducible apply State.modSeq_only (sub_trans rfl hw) | dsimp only)

theorem pinLoops_only {a2} {a3} (hw : 256 &&& w = 256) (h : Only w v s) : Only w v (pinLoops s a2 a3) := by
  unfold pinLoops
  repeat' (first | with_reducible assumption | intro _ | with_reducible apply only_ite | with_reducible apply only_foldl | with_reducible apply ofst_ite | with_reducible apply ofst_foldl | with_reducible apply ofoldl_fst | with_reducible apply State.modSegm_only (sub_trans rfl hw) | with_reducible apply State.modSeq_only (sub_trans rfl hw) | split | with_reducible apply ofst_mk | with_reducible refine only_fst (by with_reducible assumption) ?_ | dsimp only)

theorem leaveFirst_only {a2} (hw : 256 &&& w = 256) (h : Only w v s) : Only w v (leaveFirst s a2) := by
  unfold leaveFirst
  repeat' (first | with_reducible assumption | intro _ | with_reducible apply only_ite | with_reducible apply State.modSeq_only (sub_trans rfl hw) | with_reducible apply State.modSegm_only (sub_trans rfl hw) | split | dsimp only)

theorem burstRecord_only {a2} {a3} {a4} {a5} {a6} {a7} (hw : 67840 &&& w = 67840) (h : Only w v s) : OnlyFst w v (burstRecord s a2 a3 a4 a5 a6 a7) := by
  unfold burstRecord
  repeat' (first | with_reducible assumption | intro _ | with_reducible apply only_ite | with_reducible apply ofst_ite | with_reducible apply emitRecord_only (sub_trans rfl hw) | with_reducible refine only_of_fst (emitRecord_only (sub_trans rfl hw) ?_) | with_reducible refine only_fst (by with_reducible assumption) (emitRecord_only (sub_trans rfl hw) ?_) | with_reducible apply State.modSeq_only (sub_trans rfl hw) | split | with_reducible apply ofst_mk | with_reducible refine only_fst (by with_reducible assumption) ?_ | dsimp only)

theorem runCycle_only {a2} {a3} {a4} {a5} {a6} (hw : 66016 &&& w = 66016) (h : Only w v s) : Only w v (runCycle s a2 a3 a4 a5 a6) := by
  unfold runCycle
  repeat' (first | with_reducible assumption | intro _ | with_reducible apply only_ite | with_reducible apply only_foldl | with_reducible apply ofst_ite | with_reducible apply ofst_foldl | with_reducible apply ofoldl_fst | with_reducible apply placePin_only (sub_trans rfl hw) | with_reducible refine only_of_fst (placePin_only (sub_trans rfl hw) ?_) | with_reducible refine only_fst (by with_reducible assumption) (placePin_only (sub_trans rfl hw) ?_) | with_reducible apply trigEvent_only (sub_trans rfl hw) | with_reducible apply State.modSeq_only (sub_trans rfl hw) | with_reducible apply State.modProg_only (sub_trans rfl hw) | split | with_reducible apply ofst_mk | with_reducible refine only_fst (by with_reducible assumption) ?_ | dsimp only)

theorem runVector_only {a2} (hw : 73696 &&& w = 73696) (h : Only w v s) : Only w v (runVector s a2) := by
  unfold runVector
  repeat' (first | with_reducible assumption | intro _ | with_reducible apply only_ite | with_reducible apply ofst_ite | with_reducible apply State.modSeq_only (sub_trans rfl hw) | with_reducible apply runCycle_only (sub_trans rfl hw) | with_reducible apply seqPulse_only (sub_trans rfl hw) | with_reducible apply burstRecord_only (sub_trans rfl hw) | with_reducible refine only_of_fst (burstRecord_only (sub_trans rfl hw) ?_) | with_reducible refine only_fst (by with_reducible assumption) (burstRecord_only (sub_trans rfl hw) ?_) | split | with_reducible apply ofst_mk | with_reducible refine only_fst (by with_reducible assumption) ?_ | dsimp only)

theorem startInstance_only {a2} {a3} {a4} {a5} {a6} (hw : 73696 &&& w = 73696) (h : Only w v s) : Only w v (startInstance s a2 a3 a4 a5 a6) := by
  unfold startInstance
  repeat' (first | with_reducible assumption | intro _ | with_reducible apply only_ite | with_reducible apply ofst_ite | with_reducible apply State.modSegm_only (sub_trans rfl hw) | with_reducible apply State.modSeq_only (sub_trans rfl hw) | with_reducible apply State.live_only (sub_trans rfl hw) | with_reducible apply pinLoops_only (sub_trans rfl hw) | with_reducible apply trigEvent_only (sub_trans rfl hw) | with_reducible apply burstRecord_only (sub_trans rfl hw) | with_reducible refine only_of_fst (burstRecord_only (sub_trans rfl hw) ?_) | with_reducible refine only_fst (by with_reducible assumption) (burstRecord_only (sub_trans rfl hw) ?_) | with_reducible apply runVector_only (sub_trans rfl hw) | with_reducible apply ofst_mk | dsimp only)

theorem endBurst_only {a2} {a3} (hw : 70064 &&& w = 70064) (h : Only w v s) : Only w v (endBurst s a2 a3) := by
  unfold endBurst
  repeat' (first | with_reducible assumption | intro _ | with_reducible apply only_ite | with_reducible apply only_foldl | with_reducible apply settlePin_only (sub_trans rfl hw) | with_reducible apply leaveFirst_only (sub_trans rfl hw) | with_reducible apply clearStacks_only (sub_trans rfl hw) | with_reducible apply State.modSeq_only (sub_trans rfl hw) | with_reducible apply answerAbort_only (sub_trans rfl hw) | with_reducible apply State.live_only (sub_trans rfl hw) | with_reducible apply trigEvent_only (sub_trans rfl hw) | dsimp only)

theorem settleBurst_only {a2} (hw : 73504 &&& w = 73504) (h : Only w v s) : Only w v (settleBurst s a2) := by
  unfold settleBurst
  repeat' (first | with_reducible assumption | intro _ | with_reducible apply only_ite | with_reducible apply ofst_ite | with_reducible apply placeHeld_only (sub_trans rfl hw) | with_reducible refine only_of_fst (placeHeld_only (sub_trans rfl hw) ?_) | with_reducible refine only_fst (by with_reducible assumption) (placeHeld_only (sub_trans rfl hw) ?_) | with_reducible apply State.modSeq_only (sub_trans rfl hw) | with_reducible apply dropRecord_only (sub_trans rfl hw) | with_reducible apply leaveWaiters_only (sub_trans rfl hw) | with_reducible apply endWork_only (sub_trans rfl hw) | with_reducible apply State.modProg_only (sub_trans rfl hw) | split | with_reducible apply ofst_mk | with_reducible refine only_fst (by with_reducible assumption) ?_ | dsimp only)

theorem latchStop_only {a2} {a3} {a4} (hw : 73648 &&& w = 73648) (h : Only w v s) : Only w v (latchStop s a2 a3 a4) := by
  unfold latchStop
  repeat' (first | with_reducible assumption | intro _ | with_reducible apply only_ite | with_reducible apply settleBurst_only (sub_trans rfl hw) | with_reducible apply endBurst_only (sub_trans rfl hw) | with_reducible apply State.modSeq_only (sub_trans rfl hw) | split | dsimp only)

theorem finishBurst_only {a2} {a3} (hw : 73648 &&& w = 73648) (h : Only w v s) : Only w v (finishBurst s a2 a3) := by
  unfold finishBurst
  repeat' (first | with_reducible assumption | intro _ | with_reducible apply settleBurst_only (sub_trans rfl hw) | with_reducible apply endBurst_only (sub_trans rfl hw))

theorem holdCycle_only {a2} (hw : 66016 &&& w = 66016) (h : Only w v s) : Only w v (holdCycle s a2) := by
  unfold holdCycle
  repeat' (first | with_reducible assumption | intro _ | with_reducible apply runCycle_only (sub_trans rfl hw) | with_reducible apply State.modSeq_only (sub_trans rfl hw) | dsimp only)

theorem starveOn_only {a2} {a3} {a4} (hw : 73712 &&& w = 73712) (h : Only w v s) : Only w v (starveOn s a2 a3 a4) := by
  unfold starveOn
  repeat' (first | with_reducible assumption | intro _ | with_reducible apply only_ite | with_reducible apply finishBurst_only (sub_trans rfl hw) | with_reducible apply State.modSeq_only (sub_trans rfl hw) | with_reducible apply State.raise_only (sub_trans rfl hw) | with_reducible apply trigEvent_only (sub_trans rfl hw) | with_reducible apply tellUnusable_only (sub_trans rfl hw) | with_reducible apply holdCycle_only (sub_trans rfl hw) | with_reducible apply State.live_only (sub_trans rfl hw) | split | dsimp only)

theorem boundary_only {a2} {a3} {a4} (hw : 73712 &&& w = 73712) (h : Only w v s) : Only w v (boundary s a2 a3 a4) := by
  unfold boundary
  repeat' (first | with_reducible assumption | intro _ | with_reducible apply only_ite | with_reducible apply leaveFirst_only (sub_trans rfl hw) | with_reducible apply finishBurst_only (sub_trans rfl hw) | with_reducible apply clearStacks_only (sub_trans rfl hw) | with_reducible apply State.modSeq_only (sub_trans rfl hw) | with_reducible apply starveOn_only (sub_trans rfl hw) | with_reducible apply startInstance_only (sub_trans rfl hw) | split | dsimp only)

theorem nextVector_only {a2} (hw : 73712 &&& w = 73712) (h : Only w v s) : Only w v (nextVector s a2) := by
  unfold nextVector
  repeat' (first | with_reducible assumption | intro _ | with_reducible apply only_ite | with_reducible apply runVector_only (sub_trans rfl hw) | with_reducible apply State.modSeq_only (sub_trans rfl hw) | with_reducible apply boundary_only (sub_trans rfl hw) | dsimp only)

theorem pushLoop_only {a2} {a3} (hw : 65792 &&& w = 65792) (h : Only w v s) : Only w v (pushLoop s a2 a3) := by
  unfold pushLoop
  repeat' (first | with_reducible assumption | intro _ | with_reducible apply only_ite | with_reducible apply stackFault_only (sub_trans rfl hw) | with_reducible apply dropFrame_only (sub_trans rfl hw) | with_reducible apply State.modSeq_only (sub_trans rfl hw) | with_reducible apply pinLoops_only (sub_trans rfl hw) | split | dsimp only)

theorem endLoop_only {a2} (hw : 73712 &&& w = 73712) (h : Only w v s) : Only w v (endLoop s a2) := by
  unfold endLoop
  repeat' (first | with_reducible assumption | intro _ | with_reducible apply only_ite | with_reducible apply nextVector_only (sub_trans rfl hw) | with_reducible apply stackFault_only (sub_trans rfl hw) | with_reducible apply State.modSeq_only (sub_trans rfl hw) | with_reducible apply runVector_only (sub_trans rfl hw) | with_reducible apply boundary_only (sub_trans rfl hw) | with_reducible apply dropFrame_only (sub_trans rfl hw) | split | dsimp only)

theorem trigCycle_only {a2} (hw : 66016 &&& w = 66016) (h : Only w v s) : Only w v (trigCycle s a2) := by
  unfold trigCycle
  repeat' (first | with_reducible assumption | intro _ | with_reducible apply runCycle_only (sub_trans rfl hw) | with_reducible apply State.modSeq_only (sub_trans rfl hw) | dsimp only)

theorem waitCycle_only {a2} {a3} {a4} (hw : 66016 &&& w = 66016) (h : Only w v s) : Only w v (waitCycle s a2 a3 a4) := by
  unfold waitCycle
  repeat' (first | with_reducible assumption | intro _ | with_reducible apply runCycle_only (sub_trans rfl hw) | with_reducible apply State.modSeq_only (sub_trans rfl hw) | dsimp only)

theorem afterCycle_only {a2} (hw : 73712 &&& w = 73712) (h : Only w v s) : Only w v (afterCycle s a2) := by
  unfold afterCycle
  repeat' (first | with_reducible assumption | intro _ | with_reducible apply only_ite | with_reducible apply boundary_only (sub_trans rfl hw) | with_reducible apply nextVector_only (sub_trans rfl hw) | with_reducible apply runCycle_only (sub_trans rfl hw) | with_reducible apply State.modSeq_only (sub_trans rfl hw) | with_reducible apply waitCycle_only (sub_trans rfl hw) | with_reducible apply pushLoop_only (sub_trans rfl hw) | with_reducible apply endLoop_only (sub_trans rfl hw) | with_reducible apply stackFault_only (sub_trans rfl hw) | with_reducible apply trigCycle_only (sub_trans rfl hw) | with_reducible apply finishBurst_only (sub_trans rfl hw) | with_reducible apply leaveFirst_only (sub_trans rfl hw) | split | dsimp only)

theorem execVectorCycle_only {a1} (hw : 73716 &&& w = 73716) (h : Only w v s) : OnlyOut w v (execVectorCycle a1 s) := by
  unfold execVectorCycle
  apply onlyOut_next
  repeat' (first | with_reducible assumption | intro _ | with_reducible apply only_ite | with_reducible apply settleBurst_only (sub_trans rfl hw) | with_reducible apply State.reach_only (sub_trans rfl hw) | with_reducible apply latchStop_only (sub_trans rfl hw) | with_reducible apply startFetch_only (sub_trans rfl hw) | with_reducible apply finishBurst_only (sub_trans rfl hw) | with_reducible apply afterCycle_only (sub_trans rfl hw) | split | dsimp only)

theorem execBurstStart_only {a1} (hw : 73700 &&& w = 73700) (h : Only w v s) : OnlyOut w v (execBurstStart a1 s) := by
  unfold execBurstStart
  apply onlyOut_next
  repeat' (first | with_reducible assumption | intro _ | with_reducible apply only_ite | with_reducible apply only_foldl | with_reducible apply startFetch_only (sub_trans rfl hw) | with_reducible apply State.modSeq_only (sub_trans rfl hw) | with_reducible apply startInstance_only (sub_trans rfl hw) | with_reducible apply trigEvent_only (sub_trans rfl hw) | with_reducible apply State.reach_only (sub_trans rfl hw) | split | dsimp only)

theorem failingVector_only {a2} {a3} {a4} {a5} (hw : 73504 &&& w = 73504) (h : Only w v s) : Only w v (failingVector s a2 a3 a4 a5) := by
  unfold failingVector
  repeat' (first | with_reducible assumption | intro _ | with_reducible apply only_foldl | with_reducible apply State.modSeq_only (sub_trans rfl hw) | with_reducible apply seqPulse_only (sub_trans rfl hw) | with_reducible apply trigEvent_only (sub_trans rfl hw) | split | dsimp only)

theorem execVectorJudgement_only {a1} {a2} (hw : 73508 &&& w = 73508) (h : Only w v s) : OnlyOut w v (execVectorJudgement a1 a2 s) := by
  unfold execVectorJudgement
  apply onlyOut_next
  repeat' (first | with_reducible assumption | intro _ | with_reducible apply only_ite | with_reducible apply ofst_ite | with_reducible apply State.reach_only (sub_trans rfl hw) | with_reducible apply State.modSeq_only (sub_trans rfl hw) | with_reducible apply failingVector_only (sub_trans rfl hw) | with_reducible apply burstRecord_only (sub_trans rfl hw) | with_reducible refine only_of_fst (burstRecord_only (sub_trans rfl hw) ?_) | with_reducible refine only_fst (by with_reducible assumption) (burstRecord_only (sub_trans rfl hw) ?_) | with_reducible apply settleBurst_only (sub_trans rfl hw) | split | with_reducible apply ofst_mk | with_reducible refine only_fst (by with_reducible assumption) ?_ | dsimp only)

theorem execBurstStop_only (hw : 73648 &&& w = 73648) (h : Only w v s) : OnlyOut w v (execBurstStop s) := by
  unfold execBurstStop
  apply onlyOut_next
  repeat' (first | with_reducible assumption | intro _ | with_reducible apply only_foldl | with_reducible apply onCommand_only (sub_trans rfl hw) | with_reducible apply checked_only (sub_trans rfl hw) | with_reducible apply postOk_only (sub_trans rfl hw) | with_reducible apply latchStop_only (sub_trans rfl hw) | dsimp only)

theorem execJumpRequest_only (hw : 69936 &&& w = 69936) (h : Only w v s) : OnlyOut w v (execJumpRequest s) := by
  unfold execJumpRequest
  apply onlyOut_next
  repeat' (first | with_reducible assumption | intro _ | with_reducible apply only_ite | with_reducible apply only_foldl | with_reducible apply onCommand_only (sub_trans rfl hw) | with_reducible apply checked_only (sub_trans rfl hw) | with_reducible apply State.modSeq_only (sub_trans rfl hw) | with_reducible apply startFetch_only (sub_trans rfl hw) | with_reducible apply postOk_only (sub_trans rfl hw) | with_reducible apply postResponse_only (sub_trans rfl hw) | dsimp only)

theorem tinReleases_only {a2} {a3} {a4} (hw : 256 &&& w = 256) (h : Only w v s) : Only w v (tinReleases s a2 a3 a4) := by
  unfold tinReleases
  repeat' (first | with_reducible assumption | intro _ | with_reducible apply only_ite | with_reducible apply only_foldl | with_reducible apply State.modSeq_only (sub_trans rfl hw) | dsimp only)

theorem execTrigPulseEnd_only {a1} (hw : 260 &&& w = 260) (h : Only w v s) : OnlyOut w v (execTrigPulseEnd a1 s) := by
  unfold execTrigPulseEnd
  apply onlyOut_next
  repeat' (first | with_reducible assumption | intro _ | with_reducible apply State.reach_only (sub_trans rfl hw) | with_reducible apply State.modTrig_only (sub_trans rfl hw) | split | dsimp only)

end Sys2Proof.Machine
end

