-- ==== Sys2Proof/Laws/OnlyMeasOps.lean ====
section
/-! SUPPORT. Machine/MeasOps.lean: which parts of the state each operation can change. -/

set_option linter.unusedVariables false
set_option linter.unusedTactic false
set_option linter.unreachableTactic false

namespace Sys2Proof.Machine

variable {w : Nat} {v s : State}

theorem endMeasRun_only {a2} {a3} (hw : 73504 &&& w = 73504) (h : Only w v s) : Only w v (endMeasRun s a2 a3) := by
  unfold endMeasRun
  repeat' (first | with_reducible assumption | intro _ | with_reducible apply only_ite | with_reducible apply State.modAvg_only (sub_trans rfl hw) | with_reducible apply leaveWaiters_only (sub_trans rfl hw) | with_reducible apply returnCredit_only (sub_trans rfl hw) | with_reducible apply endWork_only (sub_trans rfl hw) | split | dsimp only)

theorem endMeasWindow_only {a2} {a3} (hw : 73504 &&& w = 73504) (h : Only w v s) : Only w v (endMeasWindow s a2 a3) := by
  unfold endMeasWindow
  repeat' (first | with_reducible assumption | intro _ | with_reducible apply only_ite | with_reducible apply ofst_ite | with_reducible apply modMeasRun_only (sub_trans rfl hw) | with_reducible apply placeLast_only (sub_trans rfl hw) | with_reducible apply placeHeld_only (sub_trans rfl hw) | with_reducible refine only_of_fst (placeHeld_only (sub_trans rfl hw) ?_) | with_reducible refine only_fst (by with_reducible assumption) (placeHeld_only (sub_trans rfl hw) ?_) | with_reducible apply State.modProg_only (sub_trans rfl hw) | with_reducible apply endMeasRun_only (sub_trans rfl hw) | split | with_reducible apply ofst_mk | with_reducible refine only_fst (by with_reducible assumption) ?_ | dsimp only)

theorem askUnits_only {a2} (hw : 73504 &&& w = 73504) (h : Only w v s) : Only w v (askUnits s a2) := by
  unfold askUnits
  repeat' (first | with_reducible assumption | intro _ | with_reducible apply only_ite | with_reducible apply ofst_ite | with_reducible apply modMeasRun_only (sub_trans rfl hw) | with_reducible apply returnCredit_only (sub_trans rfl hw) | with_reducible apply askCredit_only (sub_trans rfl hw) | with_reducible refine only_of_fst (askCredit_only (sub_trans rfl hw) ?_) | with_reducible refine only_fst (by with_reducible assumption) (askCredit_only (sub_trans rfl hw) ?_) | split | with_reducible apply ofst_mk | with_reducible refine only_fst (by with_reducible assumption) ?_ | dsimp only)

theorem askWindow_only {a2} {a3} (hw : 73504 &&& w = 73504) (h : Only w v s) : OnlyFst w v (askWindow s a2 a3) := by
  unfold askWindow
  repeat' (first | with_reducible assumption | intro _ | with_reducible apply only_ite | with_reducible apply only_foldl | with_reducible apply ofst_ite | with_reducible apply ofst_foldl | with_reducible apply ofoldl_fst | with_reducible apply askUnits_only (sub_trans rfl hw) | with_reducible apply ofst_mk | dsimp only)

theorem feedAverage_only {a2} {a3} (hw : 73504 &&& w = 73504) (h : Only w v s) : Only w v (feedAverage s a2 a3) := by
  unfold feedAverage
  repeat' (first | with_reducible assumption | intro _ | with_reducible apply only_ite | with_reducible apply ofst_ite | with_reducible apply endMeasWindow_only (sub_trans rfl hw) | with_reducible apply modMeasRun_only (sub_trans rfl hw) | with_reducible apply endMeasRun_only (sub_trans rfl hw) | with_reducible apply askWindow_only (sub_trans rfl hw) | with_reducible refine only_of_fst (askWindow_only (sub_trans rfl hw) ?_) | with_reducible refine only_fst (by with_reducible assumption) (askWindow_only (sub_trans rfl hw) ?_) | split | with_reducible apply ofst_mk | with_reducible refine only_fst (by with_reducible assumption) ?_ | dsimp only)

theorem closeRaw_only {a2} {a3} (hw : 73504 &&& w = 73504) (h : Only w v s) : Only w v (closeRaw s a2 a3) := by
  unfold closeRaw
  repeat' (first | with_reducible assumption | intro _ | with_reducible apply only_ite | with_reducible apply ofst_ite | with_reducible apply modMeasRun_only (sub_trans rfl hw) | with_reducible apply placeHeld_only (sub_trans rfl hw) | with_reducible refine only_of_fst (placeHeld_only (sub_trans rfl hw) ?_) | with_reducible refine only_fst (by with_reducible assumption) (placeHeld_only (sub_trans rfl hw) ?_) | with_reducible apply State.modProg_only (sub_trans rfl hw) | with_reducible apply endMeasRun_only (sub_trans rfl hw) | with_reducible apply returnCredit_only (sub_trans rfl hw) | with_reducible apply dropRecord_only (sub_trans rfl hw) | split | with_reducible apply ofst_mk | with_reducible refine only_fst (by with_reducible assumption) ?_ | dsimp only)

theorem feedRawChannel_only {a2} {a3} {a4} (hw : 73504 &&& w = 73504) (h : Only w v s) : Only w v (feedRawChannel s a2 a3 a4) := by
  unfold feedRawChannel
  repeat' (first | with_reducible assumption | intro _ | with_reducible apply only_ite | with_reducible apply ofst_ite | with_reducible apply closeRaw_only (sub_trans rfl hw) | with_reducible apply modMeasRun_only (sub_trans rfl hw) | with_reducible refine reserve_only (sub_trans rfl hw) ?_ _ (by with_reducible assumption) | with_reducible apply dropRecord_only (sub_trans rfl hw) | split | with_reducible apply ofst_mk | with_reducible refine only_fst (by with_reducible assumption) ?_ | dsimp only)

theorem feedRaw_only {a2} {a3} {a4} (hw : 73504 &&& w = 73504) (h : Only w v s) : Only w v (feedRaw s a2 a3 a4) := by
  unfold feedRaw
  repeat' (first | with_reducible assumption | intro _ | with_reducible apply only_ite | with_reducible apply modMeasRun_only (sub_trans rfl hw) | with_reducible apply feedRawChannel_only (sub_trans rfl hw) | dsimp only)

theorem feedMeas_only {a2} {a3} (hw : 73504 &&& w = 73504) (h : Only w v s) : Only w v (feedMeas s a2 a3) := by
  unfold feedMeas
  repeat' (first | with_reducible assumption | intro _ | with_reducible apply only_ite | with_reducible apply feedRaw_only (sub_trans rfl hw) | with_reducible apply feedAverage_only (sub_trans rfl hw) | split | dsimp only)

theorem endLockRun_only {a2} {a3} {a4} (hw : 73504 &&& w = 73504) (h : Only w v s) : Only w v (endLockRun s a2 a3 a4) := by
  unfold endLockRun
  repeat' (first | with_reducible assumption | intro _ | with_reducible apply only_ite | with_reducible apply State.modAvg_only (sub_trans rfl hw) | with_reducible apply leaveWaiters_only (sub_trans rfl hw) | with_reducible apply returnCredit_only (sub_trans rfl hw) | with_reducible apply endWork_only (sub_trans rfl hw) | split | dsimp only)

theorem putLast_only {a2} {a3} {a4} {a5} {a6} (hw : 73504 &&& w = 73504) (h : Only w v s) : Only w v (putLast s a2 a3 a4 a5 a6) := by
  unfold putLast
  repeat' (first | with_reducible assumption | intro _ | with_reducible apply only_ite | with_reducible apply placeLast_only (sub_trans rfl hw) | split | with_reducible apply ofst_mk | with_reducible refine only_fst (by with_reducible assumption) ?_ | dsimp only)

theorem endLockWindow_only {a2} (hw : 73504 &&& w = 73504) (h : Only w v s) : Only w v (endLockWindow s a2) := by
  unfold endLockWindow
  repeat' (first | with_reducible assumption | intro _ | with_reducible apply only_ite | with_reducible apply ofst_ite | with_reducible apply placeHeld_only (sub_trans rfl hw) | with_reducible refine only_of_fst (placeHeld_only (sub_trans rfl hw) ?_) | with_reducible refine only_fst (by with_reducible assumption) (placeHeld_only (sub_trans rfl hw) ?_) | with_reducible apply modLockRun_only (sub_trans rfl hw) | with_reducible apply State.modProg_only (sub_trans rfl hw) | with_reducible apply endLockRun_only (sub_trans rfl hw) | split | with_reducible apply ofst_mk | with_reducible refine only_fst (by with_reducible assumption) ?_ | dsimp only)

theorem startLockWindow_only {a2} {a3} {a4} {a5} (hw : 3072 &&& w = 3072) (h : Only w v s) : Only w v (startLockWindow s a2 a3 a4 a5) := by
  unfold startLockWindow
  repeat' (first | with_reducible assumption | intro _ | with_reducible apply only_ite | with_reducible apply only_foldl | with_reducible apply ofst_ite | with_reducible apply ofst_foldl | with_reducible apply ofoldl_fst | with_reducible apply askCredit_only (sub_trans rfl hw) | with_reducible refine only_of_fst (askCredit_only (sub_trans rfl hw) ?_) | with_reducible refine only_fst (by with_reducible assumption) (askCredit_only (sub_trans rfl hw) ?_) | with_reducible apply modLockRun_only (sub_trans rfl hw) | split | with_reducible apply ofst_mk | with_reducible refine only_fst (by with_reducible assumption) ?_ | dsimp only)

theorem closeLock_only {a2} {a3} (hw : 1024 &&& w = 1024) (h : Only w v s) : Only w v (closeLock s a2 a3) := by
  unfold closeLock
  repeat' (first | with_reducible assumption | intro _ | with_reducible apply modLockRun_only (sub_trans rfl hw) | split | dsimp only)

theorem cutLock_only {a2} {a3} (hw : 73504 &&& w = 73504) (h : Only w v s) : Only w v (cutLock s a2 a3) := by
  unfold cutLock
  repeat' (first | with_reducible assumption | intro _ | with_reducible apply endLockWindow_only (sub_trans rfl hw) | with_reducible apply modLockRun_only (sub_trans rfl hw) | with_reducible apply putLast_only (sub_trans rfl hw) | with_reducible apply endLockRun_only (sub_trans rfl hw) | split | dsimp only)

theorem endRefs_only {a2} {a3} (hw : 73504 &&& w = 73504) (h : Only w v s) : Only w v (endRefs s a2 a3) := by
  unfold endRefs
  repeat' (first | with_reducible assumption | intro _ | with_reducible apply only_foldl | with_reducible apply ofst_foldl | with_reducible apply ofoldl_fst | with_reducible apply cutLock_only (sub_trans rfl hw) | dsimp only)

theorem cutMeas_only {a2} {a3} (hw : 73504 &&& w = 73504) (h : Only w v s) : Only w v (cutMeas s a2 a3) := by
  unfold cutMeas
  repeat' (first | with_reducible assumption | intro _ | with_reducible apply only_ite | with_reducible apply closeRaw_only (sub_trans rfl hw) | with_reducible apply endMeasWindow_only (sub_trans rfl hw) | with_reducible apply endMeasRun_only (sub_trans rfl hw) | split | dsimp only)

theorem feedLock_only {a2} {a3} (hw : 73504 &&& w = 73504) (h : Only w v s) : Only w v (feedLock s a2 a3) := by
  unfold feedLock
  repeat' (first | with_reducible assumption | intro _ | with_reducible apply only_ite | with_reducible apply endLockWindow_only (sub_trans rfl hw) | with_reducible apply modLockRun_only (sub_trans rfl hw) | with_reducible apply startLockWindow_only (sub_trans rfl hw) | with_reducible apply closeLock_only (sub_trans rfl hw) | split | with_reducible apply ofst_mk | with_reducible refine only_fst (by with_reducible assumption) ?_ | dsimp only)

theorem feedLoop_only {a2} {a3} (hw : 73504 &&& w = 73504) (h : Only w v s) : Only w v (feedLoop s a2 a3) := by
  unfold feedLoop
  repeat' (first | with_reducible assumption | intro _ | with_reducible apply only_ite | with_reducible apply feedLock_only (sub_trans rfl hw) | with_reducible apply feedMeas_only (sub_trans rfl hw) | with_reducible apply State.modAvg_only (sub_trans rfl hw) | split | dsimp only)

end Sys2Proof.Machine
end

