-- ==== Sys2Proof/Laws/OnlyPins.lean ====
section
/-! SUPPORT. Machine/Pins.lean: which parts of the state each operation can change. -/

set_option linter.unusedVariables false
set_option linter.unusedTactic false
set_option linter.unreachableTactic false

namespace Sys2Proof.Machine

variable {w : Nat} {v s : State}

theorem loadDac_only {a2} {a3} {a4} (hw : 64 &&& w = 64) (h : Only w v s) : Only w v (loadDac s a2 a3 a4) := by
  unfold loadDac
  repeat' (first | with_reducible assumption | intro _ | with_reducible apply only_ite | with_reducible apply State.modDacst_only (sub_trans rfl hw) | dsimp only)

theorem loadDue_only {a2} (hw : 64 &&& w = 64) (h : Only w v s) : Only w v (loadDue s a2) := by
  unfold loadDue
  repeat' (first | with_reducible assumption | intro _ | with_reducible apply only_ite | with_reducible apply only_foldl | with_reducible apply ofst_foldl | with_reducible apply ofoldl_fst | with_reducible apply State.modDacst_only (sub_trans rfl hw) | with_reducible apply loadDac_only (sub_trans rfl hw) | dsimp only)

theorem strobeGroup_only {a2} (hw : 64 &&& w = 64) (h : Only w v s) : Only w v (strobeGroup s a2) := by
  unfold strobeGroup
  repeat' (first | with_reducible assumption | intro _ | with_reducible apply loadDue_only (sub_trans rfl hw) | dsimp only)

theorem execPinMap_only (hw : 70064 &&& w = 70064) (h : Only w v s) : OnlyOut w v (execPinMap s) := by
  unfold execPinMap
  apply onlyOut_next
  repeat' (first | with_reducible assumption | intro _ | with_reducible apply only_ite | with_reducible apply only_foldl | with_reducible apply onCommand_only (sub_trans rfl hw) | with_reducible apply checked_only (sub_trans rfl hw) | with_reducible apply joinClock_only (sub_trans rfl hw) | with_reducible apply leaveClock_only (sub_trans rfl hw) | with_reducible apply postOk_only (sub_trans rfl hw) | with_reducible apply State.modSeq_only (sub_trans rfl hw) | split | dsimp only)

theorem execSetLevels_only (hw : 69744 &&& w = 69744) (h : Only w v s) : OnlyOut w v (execSetLevels s) := by
  unfold execSetLevels
  apply onlyOut_next
  repeat' (first | with_reducible assumption | intro _ | with_reducible apply only_ite | with_reducible apply only_foldl | with_reducible apply ofst_foldl | with_reducible apply ofoldl_fst | with_reducible apply onCommand_only (sub_trans rfl hw) | with_reducible apply checked_only (sub_trans rfl hw) | with_reducible apply loadDac_only (sub_trans rfl hw) | with_reducible apply State.modDacst_only (sub_trans rfl hw) | with_reducible apply postOk_only (sub_trans rfl hw) | split | dsimp only)

theorem execLoadGroupDefine_only (hw : 69744 &&& w = 69744) (h : Only w v s) : OnlyOut w v (execLoadGroupDefine s) := by
  unfold execLoadGroupDefine
  apply onlyOut_next
  repeat' (first | with_reducible assumption | intro _ | with_reducible apply onCommand_only (sub_trans rfl hw) | with_reducible apply checked_only (sub_trans rfl hw) | with_reducible apply postOk_only (sub_trans rfl hw) | with_reducible apply State.modGrp_only (sub_trans rfl hw) | dsimp only)

theorem execLoadGroupStrobeNow_only (hw : 69744 &&& w = 69744) (h : Only w v s) : OnlyOut w v (execLoadGroupStrobeNow s) := by
  unfold execLoadGroupStrobeNow
  apply onlyOut_next
  repeat' (first | with_reducible assumption | intro _ | with_reducible apply onCommand_only (sub_trans rfl hw) | with_reducible apply checked_only (sub_trans rfl hw) | with_reducible apply postOk_only (sub_trans rfl hw) | with_reducible apply strobeGroup_only (sub_trans rfl hw) | dsimp only)

theorem execLoadGroupStrobeAt_only (hw : 69744 &&& w = 69744) (h : Only w v s) : OnlyOut w v (execLoadGroupStrobeAt s) := by
  unfold execLoadGroupStrobeAt
  apply onlyOut_next
  repeat' (first | with_reducible assumption | intro _ | with_reducible apply onCommand_only (sub_trans rfl hw) | with_reducible apply State.modGrp_only (sub_trans rfl hw) | with_reducible apply checked_only (sub_trans rfl hw) | with_reducible apply postOk_only (sub_trans rfl hw) | dsimp only)

theorem execLoadGroupCancel_only (hw : 69744 &&& w = 69744) (h : Only w v s) : OnlyOut w v (execLoadGroupCancel s) := by
  unfold execLoadGroupCancel
  apply onlyOut_next
  repeat' (first | with_reducible assumption | intro _ | with_reducible apply only_foldl | with_reducible apply ofst_foldl | with_reducible apply ofoldl_fst | with_reducible apply onCommand_only (sub_trans rfl hw) | with_reducible apply checked_only (sub_trans rfl hw) | with_reducible apply State.modDacst_only (sub_trans rfl hw) | with_reducible apply postOk_only (sub_trans rfl hw) | with_reducible apply State.modGrp_only (sub_trans rfl hw) | dsimp only)

theorem execGroupStrobeDue_only {a1} (hw : 68 &&& w = 68) (h : Only w v s) : OnlyOut w v (execGroupStrobeDue a1 s) := by
  unfold execGroupStrobeDue
  apply onlyOut_next
  repeat' (first | with_reducible assumption | intro _ | with_reducible apply strobeGroup_only (sub_trans rfl hw) | with_reducible apply State.reach_only (sub_trans rfl hw) | with_reducible apply State.modGrp_only (sub_trans rfl hw) | split | dsimp only)

theorem execEpochLoadDue_only {a1} (hw : 68 &&& w = 68) (h : Only w v s) : OnlyOut w v (execEpochLoadDue a1 s) := by
  unfold execEpochLoadDue
  apply onlyOut_next
  repeat' (first | with_reducible assumption | intro _ | with_reducible apply only_ite | with_reducible apply loadDue_only (sub_trans rfl hw) | with_reducible apply State.reach_only (sub_trans rfl hw) | dsimp only)

theorem driverOff_only {a2} (hw : 128 &&& w = 128) (h : Only w v s) : Only w v (driverOff s a2) := by
  unfold driverOff
  repeat' (first | with_reducible assumption | intro _ | with_reducible apply only_ite | with_reducible apply setDriver_only (sub_trans rfl hw))

theorem execSetPinMode_only (hw : 69872 &&& w = 69872) (h : Only w v s) : OnlyOut w v (execSetPinMode s) := by
  unfold execSetPinMode
  apply onlyOut_next
  repeat' (first | with_reducible assumption | intro _ | with_reducible apply only_ite | with_reducible apply only_foldl | with_reducible apply onCommand_only (sub_trans rfl hw) | with_reducible apply checked_only (sub_trans rfl hw) | with_reducible apply postOk_only (sub_trans rfl hw) | with_reducible apply driverOff_only (sub_trans rfl hw) | with_reducible apply State.modPinst_only (sub_trans rfl hw) | dsimp only)

theorem openPad_only {a2} {a3} (hw : 192 &&& w = 192) (h : Only w v s) : Only w v (openPad s a2 a3) := by
  unfold openPad
  repeat' (first | with_reducible assumption | intro _ | with_reducible apply only_ite | with_reducible apply driverOff_only (sub_trans rfl hw) | with_reducible apply State.modPinst_only (sub_trans rfl hw) | dsimp only)

theorem execConnect_only (hw : 69872 &&& w = 69872) (h : Only w v s) : OnlyOut w v (execConnect s) := by
  unfold execConnect
  apply onlyOut_next
  repeat' (first | with_reducible assumption | intro _ | with_reducible apply only_ite | with_reducible apply only_foldl | with_reducible apply onCommand_only (sub_trans rfl hw) | with_reducible apply checked_only (sub_trans rfl hw) | with_reducible apply State.modPinst_only (sub_trans rfl hw) | with_reducible apply openPad_only (sub_trans rfl hw) | with_reducible apply postOk_only (sub_trans rfl hw) | with_reducible apply waitFor_only (sub_trans rfl hw) | split | with_reducible apply ofst_mk | with_reducible refine only_fst (by with_reducible assumption) ?_ | dsimp only)

theorem execConnectSwitchClose_only (hw : 192 &&& w = 192) (h : Only w v s) : OnlyOut w v (execConnectSwitchClose s) := by
  unfold execConnectSwitchClose
  apply onlyOut_next
  repeat' (first | with_reducible assumption | intro _ | with_reducible apply only_ite | with_reducible apply only_foldl | with_reducible apply ofst_foldl | with_reducible apply ofoldl_fst | with_reducible apply State.modPinst_only (sub_trans rfl hw) | with_reducible apply setDriver_only (sub_trans rfl hw) | dsimp only)

theorem execConnectSettled_only (hw : 69744 &&& w = 69744) (h : Only w v s) : OnlyOut w v (execConnectSettled s) := by
  unfold execConnectSettled
  apply onlyOut_next
  repeat' (first | with_reducible assumption | intro _ | with_reducible apply only_ite | with_reducible apply only_foldl | with_reducible apply ofst_foldl | with_reducible apply ofoldl_fst | with_reducible apply State.modPinst_only (sub_trans rfl hw) | with_reducible apply postOk_only (sub_trans rfl hw) | dsimp only)

theorem execDrvOc_only {a1} (hw : 65600 &&& w = 65600) (h : Only w v s) : OnlyOut w v (execDrvOc a1 s) := by
  unfold execDrvOc
  apply onlyOut_next
  repeat' (first | with_reducible assumption | intro _ | with_reducible apply State.modPinst_only (sub_trans rfl hw) | with_reducible apply State.condition_only (sub_trans rfl hw) | dsimp only)

theorem execDrvOcCleared_only {a1} (hw : 65600 &&& w = 65600) (h : Only w v s) : OnlyOut w v (execDrvOcCleared a1 s) := by
  unfold execDrvOcCleared
  apply onlyOut_next
  repeat' (first | with_reducible assumption | intro _ | with_reducible apply State.modPinst_only (sub_trans rfl hw) | with_reducible apply State.live_only (sub_trans rfl hw) | dsimp only)

end Sys2Proof.Machine
end

