-- ==== Sys2Proof/Laws/OnlyLoopOps.lean ====
section
/-! SUPPORT. Machine/LoopOps.lean: which parts of the state each operation can change. -/

set_option linter.unusedVariables false
set_option linter.unusedTactic false
set_option linter.unreachableTactic false

namespace Sys2Proof.Machine

variable {w : Nat} {v s : State}

theorem loopEvent_only {a2} {a3} {a4} {a5} (hw : 67584 &&& w = 67584) (h : Only w v s) : Only w v (loopEvent s a2 a3 a4 a5) := by
  unfold loopEvent
  repeat' (first | with_reducible assumption | intro _ | with_reducible apply only_ite | with_reducible apply ofst_ite | with_reducible apply emitRecord_only (sub_trans rfl hw) | with_reducible refine only_of_fst (emitRecord_only (sub_trans rfl hw) ?_) | with_reducible refine only_fst (by with_reducible assumption) (emitRecord_only (sub_trans rfl hw) ?_) | with_reducible apply State.raise_only (sub_trans rfl hw) | split | with_reducible apply ofst_mk | with_reducible refine only_fst (by with_reducible assumption) ?_ | dsimp only)

theorem clipEvent_only {a2} {a3} {a4} {a5} {a6} {a7} (hw : 67584 &&& w = 67584) (h : Only w v s) : Only w v (clipEvent s a2 a3 a4 a5 a6 a7) := by
  unfold clipEvent
  repeat' (first | with_reducible assumption | intro _ | with_reducible apply only_ite | with_reducible apply loopEvent_only (sub_trans rfl hw) | dsimp only)

theorem followLeader_only {a2} (hw : 514 &&& w = 514) (h : Only w v s) : Only w v (followLeader s a2) := by
  unfold followLeader
  repeat' (first | with_reducible assumption | intro _ | with_reducible apply only_foldl | with_reducible apply State.takeFree_only (sub_trans rfl hw) | with_reducible apply State.modLoop_only (sub_trans rfl hw) | dsimp only)

theorem switchRange_only {a2} {a3} {a4} (hw : 514 &&& w = 514) (h : Only w v s) : Only w v (switchRange s a2 a3 a4) := by
  unfold switchRange
  repeat' (first | with_reducible assumption | intro _ | with_reducible apply only_ite | with_reducible apply followLeader_only (sub_trans rfl hw) | with_reducible apply State.modLoop_only (sub_trans rfl hw) | dsimp only)

theorem regulate_only {a2} {a3} {a4} {a5} (hw : 512 &&& w = 512) (h : Only w v s) : OnlyFst w v (regulate s a2 a3 a4 a5) := by
  unfold regulate
  repeat' (first | with_reducible assumption | intro _ | with_reducible apply only_ite | with_reducible apply ofst_ite | with_reducible apply State.modLoop_only (sub_trans rfl hw) | split | with_reducible apply ofst_mk | with_reducible refine only_fst (by with_reducible assumption) ?_ | dsimp only)

theorem clipLaw_only {a2} {a3} {a4} (hw : 68096 &&& w = 68096) (h : Only w v s) : Only w v (clipLaw s a2 a3 a4) := by
  unfold clipLaw
  repeat' (first | with_reducible assumption | intro _ | with_reducible apply only_ite | with_reducible apply State.modLoop_only (sub_trans rfl hw) | with_reducible apply loopEvent_only (sub_trans rfl hw) | dsimp only)

theorem doSwap_only {a2} {a3} {a4} (hw : 68096 &&& w = 68096) (h : Only w v s) : Only w v (doSwap s a2 a3 a4) := by
  unfold doSwap
  repeat' (first | with_reducible assumption | intro _ | with_reducible apply only_ite | with_reducible apply State.modLoop_only (sub_trans rfl hw) | with_reducible apply loopEvent_only (sub_trans rfl hw) | with_reducible apply clipLaw_only (sub_trans rfl hw) | dsimp only)

theorem answerSwap_only (hw : 69680 &&& w = 69680) (h : Only w v s) : Only w v (answerSwap s) := by
  unfold answerSwap
  repeat' (first | with_reducible assumption | intro _ | with_reducible apply only_ite | with_reducible apply postOk_only (sub_trans rfl hw) | split | dsimp only)

theorem takeSwap_only {a2} {a3} {a4} (hw : 68096 &&& w = 68096) (h : Only w v s) : Only w v (takeSwap s a2 a3 a4) := by
  unfold takeSwap
  repeat' (first | with_reducible assumption | intro _ | with_reducible apply only_ite | with_reducible apply doSwap_only (sub_trans rfl hw) | split | dsimp only)

theorem swapDue_only {a2} {a3} (hw : 72240 &&& w = 72240) (h : Only w v s) : Only w v (swapDue s a2 a3) := by
  unfold swapDue
  repeat' (first | with_reducible assumption | intro _ | with_reducible apply only_ite | with_reducible apply takeSwap_only (sub_trans rfl hw) | with_reducible apply answerSwap_only (sub_trans rfl hw) | dsimp only)

theorem decideRegion_only {a2} {a3} (hw : 512 &&& w = 512) (h : Only w v s) : Only w v (decideRegion s a2 a3) := by
  unfold decideRegion
  repeat' (first | with_reducible assumption | intro _ | with_reducible apply only_ite | with_reducible apply State.modLoop_only (sub_trans rfl hw) | dsimp only)

theorem endLoopRun_only {a2} {a3} {a4} {a5} (hw : 73504 &&& w = 73504) (h : Only w v s) : Only w v (endLoopRun s a2 a3 a4 a5) := by
  unfold endLoopRun
  repeat' (first | with_reducible assumption | intro _ | with_reducible apply only_ite | with_reducible apply returnCredit_only (sub_trans rfl hw) | with_reducible apply State.modAvg_only (sub_trans rfl hw) | with_reducible apply endRefs_only (sub_trans rfl hw) | with_reducible apply State.modLoop_only (sub_trans rfl hw) | with_reducible apply endWork_only (sub_trans rfl hw) | split | dsimp only)

theorem answerRange_only (hw : 69680 &&& w = 69680) (h : Only w v s) : Only w v (answerRange s) := by
  unfold answerRange
  repeat' (first | with_reducible assumption | intro _ | with_reducible apply only_ite | with_reducible apply postOk_only (sub_trans rfl hw) | split | dsimp only)

theorem dropRange_only {a2} {a3} (hw : 70192 &&& w = 70192) (h : Only w v s) : Only w v (dropRange s a2 a3) := by
  unfold dropRange
  repeat' (first | with_reducible assumption | intro _ | with_reducible apply only_ite | with_reducible apply State.modLoop_only (sub_trans rfl hw) | with_reducible apply postBad_only (sub_trans rfl hw) | split | dsimp only)

theorem requestRange_only {a2} {a3} {a4} (hw : 514 &&& w = 514) (h : Only w v s) : Only w v (requestRange s a2 a3 a4) := by
  unfold requestRange
  repeat' (first | with_reducible assumption | intro _ | with_reducible apply only_ite | with_reducible apply State.modLoop_only (sub_trans rfl hw) | with_reducible apply switchRange_only (sub_trans rfl hw) | dsimp only)

theorem tripLive_only {a2} (hw : 65536 &&& w = 65536) (h : Only w v s) : Only w v (tripLive s a2) := by
  unfold tripLive
  repeat' (first | with_reducible assumption | intro _ | with_reducible apply only_ite | with_reducible apply State.live_only (sub_trans rfl hw) | dsimp only)

theorem moveForceDac_only {a2} (hw : 64 &&& w = 64) (h : Only w v s) : Only w v (moveForceDac s a2) := by
  unfold moveForceDac
  repeat' (first | with_reducible assumption | intro _ | with_reducible apply State.modDacst_only (sub_trans rfl hw) | dsimp only)

theorem endClip_only {a2} {a3} (hw : 67584 &&& w = 67584) (h : Only w v s) : Only w v (endClip s a2 a3) := by
  unfold endClip
  repeat' (first | with_reducible assumption | intro _ | with_reducible apply only_ite | with_reducible apply clipEvent_only (sub_trans rfl hw) | split | with_reducible apply ofst_mk | with_reducible refine only_fst (by with_reducible assumption) ?_ | dsimp only)

theorem haltLoop_only {a2} {a3} (hw : 72306 &&& w = 72306) (h : Only w v s) : Only w v (haltLoop s a2 a3) := by
  unfold haltLoop
  repeat' (first | with_reducible assumption | intro _ | with_reducible apply only_ite | with_reducible apply endClip_only (sub_trans rfl hw) | with_reducible apply dropRange_only (sub_trans rfl hw) | with_reducible apply State.modLoop_only (sub_trans rfl hw) | with_reducible apply followLeader_only (sub_trans rfl hw) | with_reducible apply tripLive_only (sub_trans rfl hw) | with_reducible apply moveForceDac_only (sub_trans rfl hw) | dsimp only)

theorem freeTelem_only {a2} (hw : 81696 &&& w = 81696) (h : Only w v s) : Only w v (freeTelem s a2) := by
  unfold freeTelem
  repeat' (first | with_reducible assumption | intro _ | with_reducible apply only_ite | with_reducible apply returnCredit_only (sub_trans rfl hw) | with_reducible apply State.modStage_only (sub_trans rfl hw) | dsimp only)

theorem abortFrame_only {a2} {a3} (hw : 81696 &&& w = 81696) (h : Only w v s) : Only w v (abortFrame s a2 a3) := by
  unfold abortFrame
  repeat' (first | with_reducible assumption | intro _ | with_reducible apply freeTelem_only (sub_trans rfl hw) | with_reducible apply State.modStage_only (sub_trans rfl hw) | with_reducible apply State.raise_only (sub_trans rfl hw) | split | dsimp only)

theorem disableStage_only {a2} (hw : 81696 &&& w = 81696) (h : Only w v s) : Only w v (disableStage s a2) := by
  unfold disableStage
  repeat' (first | with_reducible assumption | intro _ | with_reducible apply only_ite | with_reducible apply only_foldl | with_reducible apply abortFrame_only (sub_trans rfl hw) | with_reducible apply State.modStage_only (sub_trans rfl hw) | dsimp only)

theorem clocheLoop_only {a2} {a3} (hw : 81778 &&& w = 81778) (h : Only w v s) : Only w v (clocheLoop s a2 a3) := by
  unfold clocheLoop
  repeat' (first | with_reducible assumption | intro _ | with_reducible apply only_ite | with_reducible apply endLoopRun_only (sub_trans rfl hw) | with_reducible apply endClip_only (sub_trans rfl hw) | with_reducible apply dropRange_only (sub_trans rfl hw) | with_reducible apply State.modLoop_only (sub_trans rfl hw) | with_reducible apply disableStage_only (sub_trans rfl hw) | with_reducible apply followLeader_only (sub_trans rfl hw) | with_reducible apply tripLive_only (sub_trans rfl hw) | with_reducible apply moveForceDac_only (sub_trans rfl hw) | dsimp only)

theorem releaseLoop_only {a2} (hw : 512 &&& w = 512) (h : Only w v s) : Only w v (releaseLoop s a2) := by
  unfold releaseLoop
  repeat' (first | with_reducible assumption | intro _ | with_reducible apply only_ite | with_reducible apply State.modLoop_only (sub_trans rfl hw) | dsimp only)

theorem clocheBedLoops_only {a2} {a3} (hw : 81778 &&& w = 81778) (h : Only w v s) : Only w v (clocheBedLoops s a2 a3) := by
  unfold clocheBedLoops
  repeat' (first | with_reducible assumption | intro _ | with_reducible apply only_foldl | with_reducible apply clocheLoop_only (sub_trans rfl hw) | dsimp only)

theorem sweepRecord_only {a2} {a3} {a4} (hw : 73504 &&& w = 73504) (h : Only w v s) : OnlyFst w v (sweepRecord s a2 a3 a4) := by
  unfold sweepRecord
  repeat' (first | with_reducible assumption | intro _ | with_reducible apply only_ite | with_reducible apply only_foldl | with_reducible apply ofst_ite | with_reducible apply ofst_foldl | with_reducible apply ofoldl_fst | with_reducible apply placeHeld_only (sub_trans rfl hw) | with_reducible refine only_of_fst (placeHeld_only (sub_trans rfl hw) ?_) | with_reducible refine only_fst (by with_reducible assumption) (placeHeld_only (sub_trans rfl hw) ?_) | split | with_reducible apply ofst_mk | with_reducible refine only_fst (by with_reducible assumption) ?_ | dsimp only)

theorem sweepLeave_only {a2} {a3} (hw : 1568 &&& w = 1568) (h : Only w v s) : Only w v (sweepLeave s a2 a3) := by
  unfold sweepLeave
  repeat' (first | with_reducible assumption | intro _ | with_reducible apply only_ite | with_reducible apply modSweep_only (sub_trans rfl hw) | with_reducible apply State.modProg_only (sub_trans rfl hw) | with_reducible apply State.modAvg_only (sub_trans rfl hw) | dsimp only)

theorem sweepCredit_only {a2} {a3} (hw : 2560 &&& w = 2560) (h : Only w v s) : OnlyFst w v (sweepCredit s a2 a3) := by
  unfold sweepCredit
  repeat' (first | with_reducible assumption | intro _ | with_reducible apply only_ite | with_reducible apply only_foldl | with_reducible apply ofst_ite | with_reducible apply ofst_foldl | with_reducible apply ofoldl_fst | with_reducible refine reserve_only (sub_trans rfl hw) ?_ _ (by with_reducible assumption) | with_reducible apply modSweep_only (sub_trans rfl hw) | with_reducible apply dropRecord_only (sub_trans rfl hw) | with_reducible apply askCredit_only (sub_trans rfl hw) | with_reducible refine only_of_fst (askCredit_only (sub_trans rfl hw) ?_) | with_reducible refine only_fst (by with_reducible assumption) (askCredit_only (sub_trans rfl hw) ?_) | split | with_reducible apply ofst_mk | with_reducible refine only_fst (by with_reducible assumption) ?_ | dsimp only)

theorem sweepNext_only {a2} {a3} {a4} (hw : 3586 &&& w = 3586) (h : Only w v s) : Only w v (sweepNext s a2 a3 a4) := by
  unfold sweepNext
  repeat' (first | with_reducible assumption | intro _ | with_reducible apply only_ite | with_reducible apply ofst_ite | with_reducible apply sweepCredit_only (sub_trans rfl hw) | with_reducible refine only_of_fst (sweepCredit_only (sub_trans rfl hw) ?_) | with_reducible refine only_fst (by with_reducible assumption) (sweepCredit_only (sub_trans rfl hw) ?_) | with_reducible apply modSweep_only (sub_trans rfl hw) | with_reducible apply State.modAvg_only (sub_trans rfl hw) | with_reducible apply requestRange_only (sub_trans rfl hw) | with_reducible apply State.modLoop_only (sub_trans rfl hw) | split | with_reducible apply ofst_mk | with_reducible refine only_fst (by with_reducible assumption) ?_ | dsimp only)

theorem sweepAdvance_only {a2} {a3} (hw : 73506 &&& w = 73506) (h : Only w v s) : Only w v (sweepAdvance s a2 a3) := by
  unfold sweepAdvance
  repeat' (first | with_reducible assumption | intro _ | with_reducible apply only_ite | with_reducible apply modSweep_only (sub_trans rfl hw) | with_reducible apply sweepLeave_only (sub_trans rfl hw) | with_reducible apply sweepNext_only (sub_trans rfl hw) | with_reducible apply State.modLoop_only (sub_trans rfl hw) | with_reducible apply endLoopRun_only (sub_trans rfl hw) | split | dsimp only)

theorem sweepClose_only {a2} {a3} (hw : 73504 &&& w = 73504) (h : Only w v s) : Only w v (sweepClose s a2 a3) := by
  unfold sweepClose
  repeat' (first | with_reducible assumption | intro _ | with_reducible apply only_ite | with_reducible apply ofst_ite | with_reducible apply sweepRecord_only (sub_trans rfl hw) | with_reducible refine only_of_fst (sweepRecord_only (sub_trans rfl hw) ?_) | with_reducible refine only_fst (by with_reducible assumption) (sweepRecord_only (sub_trans rfl hw) ?_) | with_reducible apply State.modAvg_only (sub_trans rfl hw) | with_reducible apply endLoopRun_only (sub_trans rfl hw) | split | with_reducible apply ofst_mk | with_reducible refine only_fst (by with_reducible assumption) ?_ | dsimp only)

theorem profileAdvance_only {a2} {a3} (hw : 512 &&& w = 512) (h : Only w v s) : Only w v (profileAdvance s a2 a3) := by
  unfold profileAdvance
  repeat' (first | with_reducible assumption | intro _ | with_reducible apply only_ite | with_reducible apply State.modLoop_only (sub_trans rfl hw) | split | dsimp only)

theorem waveAdvance_only {a2} {a3} (hw : 68128 &&& w = 68128) (h : Only w v s) : Only w v (waveAdvance s a2 a3) := by
  unfold waveAdvance
  repeat' (first | with_reducible assumption | intro _ | with_reducible apply only_ite | with_reducible apply ofst_ite | with_reducible apply State.modLoop_only (sub_trans rfl hw) | with_reducible apply emitRecord_only (sub_trans rfl hw) | with_reducible refine only_of_fst (emitRecord_only (sub_trans rfl hw) ?_) | with_reducible refine only_fst (by with_reducible assumption) (emitRecord_only (sub_trans rfl hw) ?_) | with_reducible apply State.raise_only (sub_trans rfl hw) | with_reducible apply State.modProg_only (sub_trans rfl hw) | split | with_reducible apply ofst_mk | with_reducible refine only_fst (by with_reducible assumption) ?_ | dsimp only)

theorem sineChange_only {a2} {a3} (hw : 512 &&& w = 512) (h : Only w v s) : Only w v (sineChange s a2 a3) := by
  unfold sineChange
  repeat' (first | with_reducible assumption | intro _ | with_reducible apply only_ite | with_reducible apply State.modLoop_only (sub_trans rfl hw) | split | dsimp only)

theorem sineAdvance_only {a2} {a3} (hw : 544 &&& w = 544) (h : Only w v s) : Only w v (sineAdvance s a2 a3) := by
  unfold sineAdvance
  repeat' (first | with_reducible assumption | intro _ | with_reducible apply only_ite | with_reducible apply sineChange_only (sub_trans rfl hw) | with_reducible apply State.modLoop_only (sub_trans rfl hw) | with_reducible apply State.modProg_only (sub_trans rfl hw) | split | with_reducible apply ofst_mk | with_reducible refine only_fst (by with_reducible assumption) ?_ | dsimp only)

theorem catchRunEnd_only {a2} (hw : 73504 &&& w = 73504) (h : Only w v s) : Only w v (catchRunEnd s a2) := by
  unfold catchRunEnd
  repeat' (first | with_reducible assumption | intro _ | with_reducible apply only_ite | with_reducible apply endLoopRun_only (sub_trans rfl hw) | with_reducible apply State.modLoop_only (sub_trans rfl hw) | split | dsimp only)

theorem advanceSource_only {a2} {a3} (hw : 73506 &&& w = 73506) (h : Only w v s) : Only w v (advanceSource s a2 a3) := by
  unfold advanceSource
  repeat' (first | with_reducible assumption | intro _ | with_reducible apply sweepAdvance_only (sub_trans rfl hw) | with_reducible apply profileAdvance_only (sub_trans rfl hw) | with_reducible apply waveAdvance_only (sub_trans rfl hw) | with_reducible apply sineAdvance_only (sub_trans rfl hw) | split | dsimp only)

end Sys2Proof.Machine
end

