-- ==== Sys2Proof/Laws/OnlyLoops.lean ====
section
/-! SUPPORT. Machine/Loops.lean: which parts of the state each operation can change. -/

set_option linter.unusedVariables false
set_option linter.unusedTactic false
set_option linter.unreachableTactic false

namespace Sys2Proof.Machine

variable {w : Nat} {v s : State}

theorem lawReturnNow_only {a2} (hw : 68096 &&& w = 68096) (h : Only w v s) : Only w v (lawReturnNow s a2) := by
  unfold lawReturnNow
  repeat' (first | with_reducible assumption | intro _ | with_reducible apply only_ite | with_reducible apply loopEvent_only (sub_trans rfl hw) | with_reducible apply tripLive_only (sub_trans rfl hw) | with_reducible apply State.modLoop_only (sub_trans rfl hw) | split | with_reducible apply ofst_mk | with_reducible refine only_fst (by with_reducible assumption) ?_ | dsimp only)

theorem execLawReturn_only {a1} (hw : 68096 &&& w = 68096) (h : Only w v s) : OnlyOut w v (execLawReturn a1 s) := by
  unfold execLawReturn
  apply onlyOut_next
  repeat' (first | with_reducible assumption | intro _ | with_reducible apply lawReturnNow_only (sub_trans rfl hw))

theorem complyTripNow_only {a2} (hw : 66048 &&& w = 66048) (h : Only w v s) : Only w v (complyTripNow s a2) := by
  unfold complyTripNow
  repeat' (first | with_reducible assumption | intro _ | with_reducible apply only_ite | with_reducible apply State.modLoop_only (sub_trans rfl hw) | with_reducible apply State.raise_only (sub_trans rfl hw) | dsimp only)

theorem execComplyTrip_only {a1} (hw : 66048 &&& w = 66048) (h : Only w v s) : OnlyOut w v (execComplyTrip a1 s) := by
  unfold execComplyTrip
  apply onlyOut_next
  repeat' (first | with_reducible assumption | intro _ | with_reducible apply complyTripNow_only (sub_trans rfl hw))

theorem autoRangeNow_only {a2} (hw : 514 &&& w = 514) (h : Only w v s) : Only w v (autoRangeNow s a2) := by
  unfold autoRangeNow
  repeat' (first | with_reducible assumption | intro _ | with_reducible apply requestRange_only (sub_trans rfl hw) | with_reducible apply State.modLoop_only (sub_trans rfl hw) | split | dsimp only)

theorem execAutoRangeDecision_only {a1} (hw : 514 &&& w = 514) (h : Only w v s) : OnlyOut w v (execAutoRangeDecision a1 s) := by
  unfold execAutoRangeDecision
  apply onlyOut_next
  repeat' (first | with_reducible assumption | intro _ | with_reducible apply autoRangeNow_only (sub_trans rfl hw))

theorem settleDone_only {a2} {a3} {a4} (hw : 72240 &&& w = 72240) (h : Only w v s) : Only w v (settleDone s a2 a3 a4) := by
  unfold settleDone
  repeat' (first | with_reducible assumption | intro _ | with_reducible apply only_ite | with_reducible apply State.modLoop_only (sub_trans rfl hw) | with_reducible apply loopEvent_only (sub_trans rfl hw) | with_reducible apply answerRange_only (sub_trans rfl hw) | split | dsimp only)

theorem execRangeSettleDone_only {a1} (hw : 72244 &&& w = 72244) (h : Only w v s) : OnlyOut w v (execRangeSettleDone a1 s) := by
  unfold execRangeSettleDone
  apply onlyOut_next
  repeat' (first | with_reducible assumption | intro _ | with_reducible apply only_ite | with_reducible apply settleDone_only (sub_trans rfl hw) | with_reducible apply State.reach_only (sub_trans rfl hw) | split | dsimp only)

theorem execCoefSwapDue_only {a1} (hw : 72244 &&& w = 72244) (h : Only w v s) : OnlyOut w v (execCoefSwapDue a1 s) := by
  unfold execCoefSwapDue
  apply onlyOut_next
  repeat' (first | with_reducible assumption | intro _ | with_reducible apply only_ite | with_reducible apply swapDue_only (sub_trans rfl hw) | with_reducible apply State.reach_only (sub_trans rfl hw) | split | dsimp only)

theorem dissLive_only {a2} (hw : 65536 &&& w = 65536) (h : Only w v s) : Only w v (dissLive s a2) := by
  unfold dissLive
  repeat' (first | with_reducible assumption | intro _ | with_reducible apply only_ite | with_reducible apply State.live_only (sub_trans rfl hw))

theorem execStageDiss_only {a1} (hw : 66048 &&& w = 66048) (h : Only w v s) : OnlyOut w v (execStageDiss a1 s) := by
  unfold execStageDiss
  apply onlyOut_next
  repeat' (first | with_reducible assumption | intro _ | with_reducible apply only_ite | with_reducible apply State.modLoop_only (sub_trans rfl hw) | with_reducible apply State.raise_only (sub_trans rfl hw) | dsimp only)

theorem execChipDissUpdate_only (hw : 516 &&& w = 516) (h : Only w v s) : OnlyOut w v (execChipDissUpdate s) := by
  unfold execChipDissUpdate
  apply onlyOut_next
  repeat' (first | with_reducible assumption | intro _ | with_reducible apply only_ite | with_reducible apply only_foldl | with_reducible apply State.reach_only (sub_trans rfl hw) | with_reducible apply State.modLoop_only (sub_trans rfl hw) | (fail_if_no_progress with_reducible apply put_lp (sub_trans rfl hw)) | split | dsimp only)

theorem execSweepStep_only {a1} (hw : 73510 &&& w = 73510) (h : Only w v s) : OnlyOut w v (execSweepStep a1 s) := by
  unfold execSweepStep
  apply onlyOut_next
  repeat' (first | with_reducible assumption | intro _ | with_reducible apply only_ite | with_reducible apply sweepAdvance_only (sub_trans rfl hw) | with_reducible apply State.reach_only (sub_trans rfl hw) | split | dsimp only)

theorem deliver_only {a2} {a3} {a4} (hw : 73504 &&& w = 73504) (h : Only w v s) : Only w v (deliver s a2 a3 a4) := by
  unfold deliver
  repeat' (first | with_reducible assumption | intro _ | with_reducible apply State.modLoop_only (sub_trans rfl hw) | with_reducible apply sweepClose_only (sub_trans rfl hw) | with_reducible apply feedLoop_only (sub_trans rfl hw) | dsimp only)

theorem dissipate_only {a2} (hw : 66048 &&& w = 66048) (h : Only w v s) : Only w v (dissipate s a2) := by
  unfold dissipate
  repeat' (first | with_reducible assumption | intro _ | with_reducible apply only_ite | with_reducible apply State.modLoop_only (sub_trans rfl hw) | with_reducible apply State.raise_only (sub_trans rfl hw) | with_reducible apply dissLive_only (sub_trans rfl hw) | dsimp only)

theorem rangeStep_only {a2} {a3} (hw : 72242 &&& w = 72242) (h : Only w v s) : Only w v (rangeStep s a2 a3) := by
  unfold rangeStep
  repeat' (first | with_reducible assumption | intro _ | with_reducible apply only_ite | with_reducible apply settleDone_only (sub_trans rfl hw) | with_reducible apply State.modLoop_only (sub_trans rfl hw) | with_reducible apply switchRange_only (sub_trans rfl hw) | with_reducible apply answerRange_only (sub_trans rfl hw) | split | dsimp only)

theorem applyForce_only {a2} {a3} (hw : 72306 &&& w = 72306) (h : Only w v s) : Only w v (applyForce s a2 a3) := by
  unfold applyForce
  repeat' (first | with_reducible assumption | intro _ | with_reducible apply only_ite | with_reducible apply State.modLoop_only (sub_trans rfl hw) | with_reducible apply haltLoop_only (sub_trans rfl hw) | with_reducible apply followLeader_only (sub_trans rfl hw) | with_reducible apply endClip_only (sub_trans rfl hw) | with_reducible apply tripLive_only (sub_trans rfl hw) | split | dsimp only)

theorem execLoopForceDue_only {a1} (hw : 72310 &&& w = 72310) (h : Only w v s) : OnlyOut w v (execLoopForceDue a1 s) := by
  unfold execLoopForceDue
  apply onlyOut_next
  repeat' (first | with_reducible assumption | intro _ | with_reducible apply only_ite | with_reducible apply applyForce_only (sub_trans rfl hw) | with_reducible apply State.reach_only (sub_trans rfl hw) | split | dsimp only)

theorem execLoopStartMeasured_only {a1} {a2} (hw : 518 &&& w = 518) (h : Only w v s) : OnlyOut w v (execLoopStartMeasured a1 a2 s) := by
  unfold execLoopStartMeasured
  apply onlyOut_next
  repeat' (first | with_reducible assumption | intro _ | with_reducible apply State.reach_only (sub_trans rfl hw) | with_reducible apply followLeader_only (sub_trans rfl hw) | with_reducible apply State.modLoop_only (sub_trans rfl hw) | split | dsimp only)

theorem recordHandoff_only {a2} {a3} (hw : 68096 &&& w = 68096) (h : Only w v s) : Only w v (recordHandoff s a2 a3) := by
  unfold recordHandoff
  repeat' (first | with_reducible assumption | intro _ | with_reducible apply only_ite | with_reducible apply loopEvent_only (sub_trans rfl hw) | with_reducible apply State.modLoop_only (sub_trans rfl hw) | split | with_reducible apply ofst_mk | with_reducible refine only_fst (by with_reducible assumption) ?_ | dsimp only)

theorem declareLaw_only {a2} {a3} {a4} (hw : 68096 &&& w = 68096) (h : Only w v s) : Only w v (declareLaw s a2 a3 a4) := by
  unfold declareLaw
  repeat' (first | with_reducible assumption | intro _ | with_reducible apply only_ite | with_reducible apply State.modLoop_only (sub_trans rfl hw) | with_reducible apply loopEvent_only (sub_trans rfl hw) | with_reducible apply clipEvent_only (sub_trans rfl hw) | split | with_reducible apply ofst_mk | with_reducible refine only_fst (by with_reducible assumption) ?_ | dsimp only)

theorem autoCount_only {a2} {a3} (hw : 512 &&& w = 512) (h : Only w v s) : Only w v (autoCount s a2 a3) := by
  unfold autoCount
  repeat' (first | with_reducible assumption | intro _ | with_reducible apply only_ite | with_reducible apply State.modLoop_only (sub_trans rfl hw) | dsimp only)

theorem chargeLeave_only {a2} {a3} (hw : 73504 &&& w = 73504) (h : Only w v s) : Only w v (chargeLeave s a2 a3) := by
  unfold chargeLeave
  repeat' (first | with_reducible assumption | intro _ | with_reducible apply only_ite | with_reducible apply endLoopRun_only (sub_trans rfl hw) | with_reducible apply clipEvent_only (sub_trans rfl hw) | with_reducible apply State.modLoop_only (sub_trans rfl hw) | dsimp only)

theorem firstRegion_only {a2} (hw : 512 &&& w = 512) (h : Only w v s) : Only w v (firstRegion s a2) := by
  unfold firstRegion
  repeat' (first | with_reducible assumption | intro _ | with_reducible apply only_ite | with_reducible apply State.modLoop_only (sub_trans rfl hw) | split | with_reducible apply ofst_mk | with_reducible refine only_fst (by with_reducible assumption) ?_ | dsimp only)

theorem catchUp_only {a2} (hw : 73506 &&& w = 73506) (h : Only w v s) : Only w v (catchUp s a2) := by
  unfold catchUp
  repeat' (first | with_reducible assumption | intro _ | with_reducible apply catchRunEnd_only (sub_trans rfl hw) | with_reducible apply autoRangeNow_only (sub_trans rfl hw) | with_reducible apply complyTripNow_only (sub_trans rfl hw) | with_reducible apply lawReturnNow_only (sub_trans rfl hw))

theorem whileRunning_only {a2} {a3} (hw : 0 &&& w = 0) (h : Only w v s) (a3h : ∀ t, Only w v t → Only w v (a3 t)) : Only w v (whileRunning s a2 a3) := by
  unfold whileRunning
  repeat' (first | with_reducible assumption | intro _ | with_reducible apply only_ite | apply a3h | dsimp only)

theorem lawSteps_only {a2} {a3} {a4} (hw : 68096 &&& w = 68096) (h : Only w v s) : Only w v (lawSteps s a2 a3 a4) := by
  unfold lawSteps
  repeat' (first | with_reducible assumption | intro _ | with_reducible apply only_ite | with_reducible apply ofst_ite | with_reducible apply firstRegion_only (sub_trans rfl hw) | with_reducible apply decideRegion_only (sub_trans rfl hw) | with_reducible apply autoCount_only (sub_trans rfl hw) | with_reducible apply regulate_only (sub_trans rfl hw) | with_reducible refine only_of_fst (regulate_only (sub_trans rfl hw) ?_) | with_reducible refine only_fst (by with_reducible assumption) (regulate_only (sub_trans rfl hw) ?_) | with_reducible apply declareLaw_only (sub_trans rfl hw) | with_reducible apply ofst_mk | dsimp only)

theorem sampleSteps_only {a2} {a3} {a4} (hw : 73586 &&& w = 73586) (h : Only w v s) : Only w v (sampleSteps s a2 a3 a4) := by
  unfold sampleSteps
  repeat' (first | with_reducible assumption | intro _ | with_reducible apply only_ite | with_reducible apply applyForce_only (sub_trans rfl hw) | with_reducible apply swapDue_only (sub_trans rfl hw) | with_reducible apply rangeStep_only (sub_trans rfl hw) | with_reducible apply deliver_only (sub_trans rfl hw) | with_reducible apply whileRunning_only (sub_trans rfl hw) | with_reducible apply advanceSource_only (sub_trans rfl hw) | with_reducible apply chargeLeave_only (sub_trans rfl hw) | with_reducible apply recordHandoff_only (sub_trans rfl hw) | with_reducible apply lawSteps_only (sub_trans rfl hw) | dsimp only)

theorem clampOutput_only {a2} (hw : 512 &&& w = 512) (h : Only w v s) : Only w v (clampOutput s a2) := by
  unfold clampOutput
  repeat' (first | with_reducible assumption | intro _ | with_reducible apply only_ite | with_reducible apply State.modLoop_only (sub_trans rfl hw) | dsimp only)

theorem execLoopSample_only {a1} {a2} (hw : 73590 &&& w = 73590) (h : Only w v s) : OnlyOut w v (execLoopSample a1 a2 s) := by
  unfold execLoopSample
  apply onlyOut_next
  repeat' (first | with_reducible assumption | intro _ | with_reducible apply only_ite | with_reducible apply ofst_ite | with_reducible apply catchUp_only (sub_trans rfl hw) | with_reducible apply State.reach_only (sub_trans rfl hw) | with_reducible apply State.modLoop_only (sub_trans rfl hw) | with_reducible apply deliver_only (sub_trans rfl hw) | with_reducible apply swapDue_only (sub_trans rfl hw) | with_reducible apply regulate_only (sub_trans rfl hw) | with_reducible refine only_of_fst (regulate_only (sub_trans rfl hw) ?_) | with_reducible refine only_fst (by with_reducible assumption) (regulate_only (sub_trans rfl hw) ?_) | with_reducible apply sampleSteps_only (sub_trans rfl hw) | with_reducible apply dissipate_only (sub_trans rfl hw) | with_reducible apply clampOutput_only (sub_trans rfl hw) | with_reducible apply followLeader_only (sub_trans rfl hw) | split | with_reducible apply ofst_mk | with_reducible refine only_fst (by with_reducible assumption) ?_ | dsimp only)

theorem configLoop_only {a2} {a3} (hw : 514 &&& w = 514) (h : Only w v s) : Only w v (configLoop s a2 a3) := by
  unfold configLoop
  repeat' (first | with_reducible assumption | intro _ | with_reducible apply only_foldl | with_reducible apply State.modLoop_only (sub_trans rfl hw) | with_reducible apply followLeader_only (sub_trans rfl hw) | dsimp only)

theorem execLoopConfig_only (hw : 70194 &&& w = 70194) (h : Only w v s) : OnlyOut w v (execLoopConfig s) := by
  unfold execLoopConfig
  apply onlyOut_next
  repeat' (first | with_reducible assumption | intro _ | with_reducible apply only_ite | with_reducible apply only_foldl | with_reducible apply onCommand_only (sub_trans rfl hw) | with_reducible apply checked_only (sub_trans rfl hw) | with_reducible apply postOk_only (sub_trans rfl hw) | with_reducible apply configLoop_only (sub_trans rfl hw) | dsimp only)

theorem execLoopConfigRead_only (hw : 69680 &&& w = 69680) (h : Only w v s) : OnlyOut w v (execLoopConfigRead s) := by
  unfold execLoopConfigRead
  apply onlyOut_next
  repeat' (first | with_reducible assumption | intro _ | with_reducible apply onCommand_only (sub_trans rfl hw) | with_reducible apply checked_only (sub_trans rfl hw) | with_reducible apply postOk_only (sub_trans rfl hw) | dsimp only)

theorem execLoopForce_only (hw : 70192 &&& w = 70192) (h : Only w v s) : OnlyOut w v (execLoopForce s) := by
  unfold execLoopForce
  apply onlyOut_next
  repeat' (first | with_reducible assumption | intro _ | with_reducible apply only_ite | with_reducible apply only_foldl | with_reducible apply onCommand_only (sub_trans rfl hw) | with_reducible apply checked_only (sub_trans rfl hw) | with_reducible apply State.modLoop_only (sub_trans rfl hw) | with_reducible apply postOk_only (sub_trans rfl hw) | dsimp only)

theorem execLoopRange_only (hw : 70194 &&& w = 70194) (h : Only w v s) : OnlyOut w v (execLoopRange s) := by
  unfold execLoopRange
  apply onlyOut_next
  repeat' (first | with_reducible assumption | intro _ | with_reducible apply only_ite | with_reducible apply only_foldl | with_reducible apply ofst_foldl | with_reducible apply ofoldl_fst | with_reducible apply onCommand_only (sub_trans rfl hw) | with_reducible apply checked_only (sub_trans rfl hw) | with_reducible apply State.modLoop_only (sub_trans rfl hw) | with_reducible apply requestRange_only (sub_trans rfl hw) | with_reducible apply waitFor_only (sub_trans rfl hw) | with_reducible apply postOk_only (sub_trans rfl hw) | dsimp only)

theorem execLoopComply_only (hw : 70192 &&& w = 70192) (h : Only w v s) : OnlyOut w v (execLoopComply s) := by
  unfold execLoopComply
  apply onlyOut_next
  repeat' (first | with_reducible assumption | intro _ | with_reducible apply only_ite | with_reducible apply only_foldl | with_reducible apply onCommand_only (sub_trans rfl hw) | with_reducible apply checked_only (sub_trans rfl hw) | with_reducible apply postOk_only (sub_trans rfl hw) | with_reducible apply State.modLoop_only (sub_trans rfl hw) | dsimp only)

theorem execSweepLoad_only (hw : 70192 &&& w = 70192) (h : Only w v s) : OnlyOut w v (execSweepLoad s) := by
  unfold execSweepLoad
  apply onlyOut_next
  repeat' (first | with_reducible assumption | intro _ | with_reducible apply only_foldl | with_reducible apply onCommand_only (sub_trans rfl hw) | with_reducible apply checked_only (sub_trans rfl hw) | with_reducible apply postOk_only (sub_trans rfl hw) | with_reducible apply State.modSwp_only (sub_trans rfl hw) | dsimp only)

theorem startSources_only {a2} {a3} {a4} {a5} (hw : 72240 &&& w = 72240) (h : Only w v s) : Only w v (startSources s a2 a3 a4 a5) := by
  unfold startSources
  repeat' (first | with_reducible assumption | intro _ | with_reducible apply only_ite | with_reducible apply only_foldl | with_reducible apply State.modLoop_only (sub_trans rfl hw) | with_reducible apply beginWork_only (sub_trans rfl hw) | with_reducible apply accept_only (sub_trans rfl hw) | dsimp only)

theorem execSweepRun_only (hw : 72240 &&& w = 72240) (h : Only w v s) : OnlyOut w v (execSweepRun s) := by
  unfold execSweepRun
  apply onlyOut_next
  repeat' (first | with_reducible assumption | intro _ | with_reducible apply only_ite | with_reducible apply onCommand_only (sub_trans rfl hw) | with_reducible apply postBad_only (sub_trans rfl hw) | with_reducible apply postResponse_only (sub_trans rfl hw) | with_reducible apply checked_only (sub_trans rfl hw) | with_reducible apply startSources_only (sub_trans rfl hw) | split | dsimp only)

end Sys2Proof.Machine
end

