-- ==== Sys2Proof/Laws/OnlyCalOps.lean ====
section
/-! SUPPORT. Machine/CalOps.lean: which parts of the state each operation can change. -/

set_option linter.unusedVariables false
set_option linter.unusedTactic false
set_option linter.unreachableTactic false

namespace Sys2Proof.Machine

variable {w : Nat} {v s : State}

theorem freezeLoop_only {a2} (hw : 70192 &&& w = 70192) (h : Only w v s) : Only w v (freezeLoop s a2) := by
  unfold freezeLoop
  repeat' (first | with_reducible assumption | intro _ | with_reducible apply only_ite | with_reducible apply dropRange_only (sub_trans rfl hw) | with_reducible apply State.modLoop_only (sub_trans rfl hw) | dsimp only)

theorem thawLoop_only {a2} (hw : 512 &&& w = 512) (h : Only w v s) : Only w v (thawLoop s a2) := by
  unfold thawLoop
  repeat' (first | with_reducible assumption | intro _ | with_reducible apply only_ite | with_reducible apply State.modLoop_only (sub_trans rfl hw) | dsimp only)

theorem releaseScopes_only {a2} (hw : 33410 &&& w = 33410) (h : Only w v s) : Only w v (releaseScopes s a2) := by
  unfold releaseScopes
  repeat' (first | with_reducible assumption | intro _ | with_reducible apply only_ite | with_reducible apply only_foldl | with_reducible apply thawLoop_only (sub_trans rfl hw) | with_reducible apply syncBeds_only (sub_trans rfl hw) | with_reducible apply resumeClocks_only (sub_trans rfl hw) | (fail_if_no_progress with_reducible apply put_cal (sub_trans rfl hw)) | dsimp only)

theorem endCal_only {a2} {a3} {a4} {a5} {a6} {a7} (hw : 105138 &&& w = 105138) (h : Only w v s) : Only w v (endCal s a2 a3 a4 a5 a6 a7) := by
  unfold endCal
  repeat' (first | with_reducible assumption | intro _ | with_reducible apply answerAbort_only (sub_trans rfl hw) | with_reducible apply releaseScopes_only (sub_trans rfl hw) | with_reducible apply endWork_only (sub_trans rfl hw) | dsimp only)

theorem interruptCal_only {a2} {a3} {a4} (hw : 105138 &&& w = 105138) (h : Only w v s) : Only w v (interruptCal s a2 a3 a4) := by
  unfold interruptCal
  repeat' (first | with_reducible assumption | intro _ | with_reducible apply only_ite | with_reducible apply endCal_only (sub_trans rfl hw) | with_reducible apply State.takeFree_only (sub_trans rfl hw) | split | dsimp only)

end Sys2Proof.Machine
end

