-- ==== Sys2Proof/Laws/OnlyClocheOps.lean ====
section
/-! SUPPORT. Machine/ClocheOps.lean: which parts of the state each operation can change. -/

set_option linter.unusedVariables false
set_option linter.unusedTactic false
set_option linter.unreachableTactic false

namespace Sys2Proof.Machine

variable {w : Nat} {v s : State}

theorem moveDacs_only {a2} (hw : 64 &&& w = 64) (h : Only w v s) : Only w v (moveDacs s a2) := by
  unfold moveDacs
  repeat' (first | with_reducible assumption | intro _ | with_reducible apply only_foldl | with_reducible apply ofst_foldl | with_reducible apply ofoldl_fst | with_reducible apply State.modDacst_only (sub_trans rfl hw) | dsimp only)

theorem startBed_only {a2} {a3} {a4} (hw : 81906 &&& w = 81906) (h : Only w v s) : Only w v (startBed s a2 a3 a4) := by
  unfold startBed
  repeat' (first | with_reducible assumption | intro _ | with_reducible apply only_ite | with_reducible apply only_foldl | with_reducible apply State.modBedc_only (sub_trans rfl hw) | with_reducible apply clocheDrivers_only (sub_trans rfl hw) | with_reducible apply moveDacs_only (sub_trans rfl hw) | with_reducible apply latchStop_only (sub_trans rfl hw) | with_reducible apply clocheBedLoops_only (sub_trans rfl hw) | dsimp only)

theorem clocheBed_only {a2} {a3} {a4} {a5} (hw : 81906 &&& w = 81906) (h : Only w v s) : Only w v (clocheBed s a2 a3 a4 a5) := by
  unfold clocheBed
  repeat' (first | with_reducible assumption | intro _ | with_reducible apply startBed_only (sub_trans rfl hw) | with_reducible apply State.modBedc_only (sub_trans rfl hw) | dsimp only)

theorem clocheChip_only {a2} {a3} (hw : 81906 &&& w = 81906) (h : Only w v s) : Only w v (clocheChip s a2 a3) := by
  unfold clocheChip
  repeat' (first | with_reducible assumption | intro _ | with_reducible apply only_foldl | with_reducible apply startBed_only (sub_trans rfl hw) | (fail_if_no_progress with_reducible apply put_flt (sub_trans rfl hw)) | dsimp only)

theorem clocheChain_only {a2} {a3} (hw : 81906 &&& w = 81906) (h : Only w v s) : Only w v (clocheChain s a2 a3) := by
  unfold clocheChain
  repeat' (first | with_reducible assumption | intro _ | with_reducible apply only_foldl | with_reducible apply startBed_only (sub_trans rfl hw) | (fail_if_no_progress with_reducible apply put_flt (sub_trans rfl hw)) | dsimp only)

theorem originate_only {a2} {a3} (hw : 69632 &&& w = 69632) (h : Only w v s) : Only w v (originate s a2 a3) := by
  unfold originate
  repeat' (first | with_reducible assumption | intro _ | with_reducible apply only_ite | with_reducible apply enqueue_only (sub_trans rfl hw) | (fail_if_no_progress with_reducible apply put_link_flt (sub_trans rfl hw)) | dsimp only)

theorem clocheHeavy_only {a2} {a3} {a4} (hw : 81778 &&& w = 81778) (h : Only w v s) : Only w v (clocheHeavy s a2 a3 a4) := by
  unfold clocheHeavy
  repeat' (first | with_reducible assumption | intro _ | with_reducible apply only_foldl | with_reducible apply State.modLoopc_only (sub_trans rfl hw) | with_reducible apply State.modBedc_only (sub_trans rfl hw) | with_reducible apply clocheLoop_only (sub_trans rfl hw) | dsimp only)

theorem leaveBed_only {a2} (hw : 66240 &&& w = 66240) (h : Only w v s) : Only w v (leaveBed s a2) := by
  unfold leaveBed
  repeat' (first | with_reducible assumption | intro _ | with_reducible apply only_ite | with_reducible apply only_foldl | with_reducible apply ofst_foldl | with_reducible apply ofoldl_fst | with_reducible apply State.modBedc_only (sub_trans rfl hw) | with_reducible apply heldDrivers_only (sub_trans rfl hw) | with_reducible apply moveDacs_only (sub_trans rfl hw) | with_reducible apply State.modPinst_only (sub_trans rfl hw) | with_reducible apply releaseClocks_only (sub_trans rfl hw) | with_reducible apply releaseLoop_only (sub_trans rfl hw) | dsimp only)

theorem clearBedCauses_only {a2} (hw : 65536 &&& w = 65536) (h : Only w v s) : Only w v (clearBedCauses s a2) := by
  unfold clearBedCauses
  repeat' (first | with_reducible assumption | intro _ | with_reducible apply only_foldl | with_reducible apply State.modBedc_only (sub_trans rfl hw) | with_reducible apply State.modLoopc_only (sub_trans rfl hw) | dsimp only)

theorem releaseCauses_only {a2} {a3} {a4} (hw : 66240 &&& w = 66240) (h : Only w v s) : Only w v (releaseCauses s a2 a3 a4) := by
  unfold releaseCauses
  repeat' (first | with_reducible assumption | intro _ | with_reducible apply only_ite | with_reducible apply only_foldl | with_reducible apply clearBedCauses_only (sub_trans rfl hw) | with_reducible apply leaveBed_only (sub_trans rfl hw) | (fail_if_no_progress with_reducible apply put_flt (sub_trans rfl hw)) | dsimp only)

theorem commandCloche_only {a2} {a3} {a4} (hw : 81906 &&& w = 81906) (h : Only w v s) : Only w v (commandCloche s a2 a3 a4) := by
  unfold commandCloche
  repeat' (first | with_reducible assumption | intro _ | with_reducible apply only_ite | with_reducible apply only_foldl | with_reducible apply originate_only (sub_trans rfl hw) | with_reducible apply clocheChain_only (sub_trans rfl hw) | with_reducible apply clocheChip_only (sub_trans rfl hw) | with_reducible apply clocheBed_only (sub_trans rfl hw) | dsimp only)

theorem execClocheSettled_only {a1} (hw : 65536 &&& w = 65536) (h : Only w v s) : OnlyOut w v (execClocheSettled a1 s) := by
  unfold execClocheSettled
  apply onlyOut_next
  repeat' (first | with_reducible assumption | intro _ | with_reducible apply only_ite | with_reducible apply State.modBedc_only (sub_trans rfl hw) | dsimp only)

end Sys2Proof.Machine
end

