-- ==== Sys2Proof/Laws/OnlyThermalOps.lean ====
section
/-! SUPPORT. Machine/ThermalOps.lean: which parts of the state each operation can change. -/

set_option linter.unusedVariables false
set_option linter.unusedTactic false
set_option linter.unreachableTactic false

namespace Sys2Proof.Machine

variable {w : Nat} {v s : State}

theorem countLevel_only {a2} (hw : 16384 &&& w = 16384) (h : Only w v s) : Only w v (countLevel s a2) := by
  unfold countLevel
  repeat' (first | with_reducible assumption | intro _ | with_reducible apply only_ite | with_reducible apply State.modLevel_only (sub_trans rfl hw) | split | with_reducible apply ofst_mk | with_reducible refine only_fst (by with_reducible assumption) ?_ | dsimp only)

theorem setHeld_only {a2} {a3} (hw : 16384 &&& w = 16384) (h : Only w v s) : Only w v (setHeld s a2 a3) := by
  unfold setHeld
  repeat' (first | with_reducible assumption | intro _ | with_reducible apply State.modLevel_only (sub_trans rfl hw) | dsimp only)

theorem throttleMessage_only {a2} (hw : 69632 &&& w = 69632) (h : Only w v s) : Only w v (throttleMessage s a2) := by
  unfold throttleMessage
  repeat' (first | with_reducible assumption | intro _ | with_reducible apply sendRoot_only (sub_trans rfl hw))

theorem throttleChanged_only {a2} (hw : 86016 &&& w = 86016) (h : Only w v s) : Only w v (throttleChanged s a2) := by
  unfold throttleChanged
  repeat' (first | with_reducible assumption | intro _ | with_reducible apply State.modZone_only (sub_trans rfl hw) | with_reducible apply throttleMessage_only (sub_trans rfl hw) | with_reducible apply State.live_only (sub_trans rfl hw) | dsimp only)

theorem startGrace_only {a2} {a3} (hw : 16384 &&& w = 16384) (h : Only w v s) : Only w v (startGrace s a2 a3) := by
  unfold startGrace
  repeat' (first | with_reducible assumption | intro _ | with_reducible apply only_ite | with_reducible apply State.modZone_only (sub_trans rfl hw) | dsimp only)

theorem dropGrace_only {a2} {a3} (hw : 16384 &&& w = 16384) (h : Only w v s) : Only w v (dropGrace s a2 a3) := by
  unfold dropGrace
  repeat' (first | with_reducible assumption | intro _ | with_reducible apply only_ite | with_reducible apply State.modZone_only (sub_trans rfl hw) | dsimp only)

theorem enforceT3_only {a2} (hw : 81906 &&& w = 81906) (h : Only w v s) : Only w v (enforceT3 s a2) := by
  unfold enforceT3
  repeat' (first | with_reducible assumption | intro _ | with_reducible apply only_ite | with_reducible apply only_foldl | with_reducible apply latchStop_only (sub_trans rfl hw) | with_reducible apply clocheHeavy_only (sub_trans rfl hw) | dsimp only)

theorem endGrace_only {a2} {a3} (hw : 98290 &&& w = 98290) (h : Only w v s) : Only w v (endGrace s a2 a3) := by
  unfold endGrace
  repeat' (first | with_reducible assumption | intro _ | with_reducible apply only_ite | with_reducible apply State.modZone_only (sub_trans rfl hw) | with_reducible apply enforceT3_only (sub_trans rfl hw) | split | dsimp only)

theorem enterWarn_only {a2} (hw : 81928 &&& w = 81928) (h : Only w v s) : Only w v (enterWarn s a2) := by
  unfold enterWarn
  repeat' (first | with_reducible assumption | intro _ | with_reducible apply only_ite | with_reducible apply setHeld_only (sub_trans rfl hw) | with_reducible apply State.modZone_only (sub_trans rfl hw) | with_reducible apply State.noteSet_only (sub_trans rfl hw) | with_reducible apply State.raise_only (sub_trans rfl hw) | dsimp only)

theorem enterThrottle_only {a2} {a3} (hw : 86024 &&& w = 86024) (h : Only w v s) : Only w v (enterThrottle s a2 a3) := by
  unfold enterThrottle
  repeat' (first | with_reducible assumption | intro _ | with_reducible apply only_foldl | with_reducible apply enterWarn_only (sub_trans rfl hw) | with_reducible apply startGrace_only (sub_trans rfl hw) | with_reducible apply setHeld_only (sub_trans rfl hw) | with_reducible apply throttleChanged_only (sub_trans rfl hw) | with_reducible apply State.raise_only (sub_trans rfl hw) | dsimp only)

theorem clocheLive_only (hw : 65536 &&& w = 65536) (h : Only w v s) : Only w v (clocheLive s) := by
  unfold clocheLive
  repeat' (first | with_reducible assumption | intro _ | with_reducible apply State.live_only (sub_trans rfl hw) | dsimp only)

theorem enterShutdown_only (hw : 131058 &&& w = 131058) (h : Only w v s) : Only w v (enterShutdown s) := by
  unfold enterShutdown
  repeat' (first | with_reducible assumption | intro _ | with_reducible apply only_ite | with_reducible apply setHeld_only (sub_trans rfl hw) | with_reducible apply State.raise_only (sub_trans rfl hw) | with_reducible apply clocheChip_only (sub_trans rfl hw) | with_reducible apply interruptCal_only (sub_trans rfl hw) | with_reducible apply State.modTripWord_only (sub_trans rfl hw) | (fail_if_no_progress with_reducible apply put_sup (sub_trans rfl hw)) | split | with_reducible apply ofst_mk | with_reducible refine only_fst (by with_reducible assumption) ?_ | dsimp only)

theorem enterLevel_only {a2} (hw : 131066 &&& w = 131066) (h : Only w v s) : Only w v (enterLevel s a2) := by
  unfold enterLevel
  repeat' (first | with_reducible assumption | intro _ | with_reducible apply only_ite | with_reducible apply only_foldl | with_reducible apply enterWarn_only (sub_trans rfl hw) | with_reducible apply enterThrottle_only (sub_trans rfl hw) | with_reducible apply clocheBed_only (sub_trans rfl hw) | with_reducible apply setHeld_only (sub_trans rfl hw) | with_reducible apply State.raise_only (sub_trans rfl hw) | with_reducible apply clocheChip_only (sub_trans rfl hw) | with_reducible apply clocheHeavy_only (sub_trans rfl hw) | with_reducible apply enterShutdown_only (sub_trans rfl hw) | split | dsimp only)

theorem exitLevel_only {a2} (hw : 86016 &&& w = 86016) (h : Only w v s) : Only w v (exitLevel s a2) := by
  unfold exitLevel
  repeat' (first | with_reducible assumption | intro _ | with_reducible apply only_ite | with_reducible apply only_foldl | with_reducible apply setHeld_only (sub_trans rfl hw) | with_reducible apply State.live_only (sub_trans rfl hw) | with_reducible apply dropGrace_only (sub_trans rfl hw) | with_reducible apply throttleChanged_only (sub_trans rfl hw) | with_reducible apply clocheLive_only (sub_trans rfl hw) | split | dsimp only)

theorem enterDue_only {a2} (hw : 131066 &&& w = 131066) (h : Only w v s) : Only w v (enterDue s a2) := by
  unfold enterDue
  repeat' (first | with_reducible assumption | intro _ | with_reducible apply only_ite | with_reducible apply only_foldl | with_reducible apply enterLevel_only (sub_trans rfl hw) | dsimp only)

theorem exitDue_only {a2} (hw : 86016 &&& w = 86016) (h : Only w v s) : Only w v (exitDue s a2) := by
  unfold exitDue
  repeat' (first | with_reducible assumption | intro _ | with_reducible apply only_ite | with_reducible apply exitLevel_only (sub_trans rfl hw))

theorem brokenLive_only (hw : 65536 &&& w = 65536) (h : Only w v s) : Only w v (brokenLive s) := by
  unfold brokenLive
  repeat' (first | with_reducible assumption | intro _ | with_reducible apply State.live_only (sub_trans rfl hw) | dsimp only)

theorem restartExits_only {a2} (hw : 16384 &&& w = 16384) (h : Only w v s) : Only w v (restartExits s a2) := by
  unfold restartExits
  repeat' (first | with_reducible assumption | intro _ | with_reducible apply only_foldl | with_reducible apply State.modLevel_only (sub_trans rfl hw) | split | dsimp only)

theorem chargeInvalid_only {a2} (hw : 16384 &&& w = 16384) (h : Only w v s) : Only w v (chargeInvalid s a2) := by
  unfold chargeInvalid
  repeat' (first | with_reducible assumption | intro _ | with_reducible apply State.modCharge_only (sub_trans rfl hw) | dsimp only)

theorem brokenDue_only {a2} (hw : 131066 &&& w = 131066) (h : Only w v s) : Only w v (brokenDue s a2) := by
  unfold brokenDue
  repeat' (first | with_reducible assumption | intro _ | with_reducible apply only_ite | with_reducible apply only_foldl | with_reducible apply State.modSensor_only (sub_trans rfl hw) | with_reducible apply State.raise_only (sub_trans rfl hw) | with_reducible apply restartExits_only (sub_trans rfl hw) | with_reducible apply clocheBed_only (sub_trans rfl hw) | with_reducible apply enterLevel_only (sub_trans rfl hw) | with_reducible apply State.modTherm_only (sub_trans rfl hw) | with_reducible apply chargeInvalid_only (sub_trans rfl hw) | with_reducible apply clocheHeavy_only (sub_trans rfl hw) | split | dsimp only)

theorem recoverDue_only {a2} (hw : 81920 &&& w = 81920) (h : Only w v s) : Only w v (recoverDue s a2) := by
  unfold recoverDue
  repeat' (first | with_reducible assumption | intro _ | with_reducible apply only_ite | with_reducible apply brokenLive_only (sub_trans rfl hw) | with_reducible apply State.modSensor_only (sub_trans rfl hw) | with_reducible apply State.modTherm_only (sub_trans rfl hw) | split | dsimp only)

theorem chargeLeaveDue_only {a2} (hw : 16384 &&& w = 16384) (h : Only w v s) : Only w v (chargeLeaveDue s a2) := by
  unfold chargeLeaveDue
  repeat' (first | with_reducible assumption | intro _ | with_reducible apply only_ite | with_reducible apply State.modCharge_only (sub_trans rfl hw) | dsimp only)

theorem chargeReturnDue_only {a2} (hw : 16384 &&& w = 16384) (h : Only w v s) : Only w v (chargeReturnDue s a2) := by
  unfold chargeReturnDue
  repeat' (first | with_reducible assumption | intro _ | with_reducible apply only_ite | with_reducible apply State.modCharge_only (sub_trans rfl hw) | dsimp only)

theorem chargeReading_only {a2} {a3} (hw : 16384 &&& w = 16384) (h : Only w v s) : Only w v (chargeReading s a2 a3) := by
  unfold chargeReading
  repeat' (first | with_reducible assumption | intro _ | with_reducible apply only_ite | with_reducible apply chargeReturnDue_only (sub_trans rfl hw) | with_reducible apply chargeLeaveDue_only (sub_trans rfl hw) | with_reducible apply chargeInvalid_only (sub_trans rfl hw) | with_reducible apply State.modCharge_only (sub_trans rfl hw) | split | dsimp only)

theorem railSample_only {a2} {a3} {a4} (hw : 16384 &&& w = 16384) (h : Only w v s) : Only w v (railSample s a2 a3 a4) := by
  unfold railSample
  repeat' (first | with_reducible assumption | intro _ | with_reducible apply only_ite | with_reducible apply State.modRailRd_only (sub_trans rfl hw) | split | dsimp only)

theorem railLive_only (hw : 65536 &&& w = 65536) (h : Only w v s) : Only w v (railLive s) := by
  unfold railLive
  repeat' (first | with_reducible assumption | intro _ | with_reducible apply State.live_only (sub_trans rfl hw) | dsimp only)

theorem railCrossDue_only {a2} {a3} {a4} (hw : 81920 &&& w = 81920) (h : Only w v s) : Only w v (railCrossDue s a2 a3 a4) := by
  unfold railCrossDue
  repeat' (first | with_reducible assumption | intro _ | with_reducible apply only_ite | with_reducible apply State.modRailRd_only (sub_trans rfl hw) | with_reducible apply State.raise_only (sub_trans rfl hw) | dsimp only)

theorem railExitDue_only {a2} {a3} {a4} (hw : 81920 &&& w = 81920) (h : Only w v s) : Only w v (railExitDue s a2 a3 a4) := by
  unfold railExitDue
  repeat' (first | with_reducible assumption | intro _ | with_reducible apply only_ite | with_reducible apply railLive_only (sub_trans rfl hw) | with_reducible apply State.modRailRd_only (sub_trans rfl hw) | dsimp only)

theorem keepCloseDue_only (hw : 16384 &&& w = 16384) (h : Only w v s) : Only w v (keepCloseDue s) := by
  unfold keepCloseDue
  repeat' (first | with_reducible assumption | intro _ | with_reducible apply only_ite | (fail_if_no_progress with_reducible apply put_sup (sub_trans rfl hw)))

theorem keepOpenDue_only (hw : 16384 &&& w = 16384) (h : Only w v s) : Only w v (keepOpenDue s) := by
  unfold keepOpenDue
  repeat' (first | with_reducible assumption | intro _ | with_reducible apply only_ite | (fail_if_no_progress with_reducible apply put_sup (sub_trans rfl hw)))

theorem superviseDue_only (hw : 131066 &&& w = 131066) (h : Only w v s) : Only w v (superviseDue s) := by
  unfold superviseDue
  repeat' (first | with_reducible assumption | intro _ | with_reducible apply only_foldl | with_reducible apply recoverDue_only (sub_trans rfl hw) | with_reducible apply brokenDue_only (sub_trans rfl hw) | with_reducible apply exitDue_only (sub_trans rfl hw) | with_reducible apply enterDue_only (sub_trans rfl hw) | with_reducible apply railExitDue_only (sub_trans rfl hw) | with_reducible apply railCrossDue_only (sub_trans rfl hw) | dsimp only)

theorem staleTherm_only {a2} (hw : 16384 &&& w = 16384) (h : Only w v s) : Only w v (staleTherm s a2) := by
  unfold staleTherm
  repeat' (first | with_reducible assumption | intro _ | with_reducible apply only_foldl | with_reducible apply State.modTherm_only (sub_trans rfl hw) | with_reducible apply chargeInvalid_only (sub_trans rfl hw) | dsimp only)

end Sys2Proof.Machine
end

