-- ==== Sys2Proof/Laws/OnlyThermal.lean ====
section
/-! SUPPORT. Machine/Thermal.lean: which parts of the state each operation can change. -/

set_option linter.unusedVariables false
set_option linter.unusedTactic false
set_option linter.unreachableTactic false

namespace Sys2Proof.Machine

variable {w : Nat} {v s : State}

theorem reachGrid_only {a2} {a3} (hw : 4 &&& w = 4) (h : Only w v s) : Only w v (reachGrid s a2 a3) := by
  unfold reachGrid
  repeat' (first | with_reducible assumption | intro _ | with_reducible apply only_ite | with_reducible apply State.reach_only (sub_trans rfl hw) | dsimp only)

theorem sampleSensor_only {a2} {a3} (hw : 81920 &&& w = 81920) (h : Only w v s) : Only w v (sampleSensor s a2 a3) := by
  unfold sampleSensor
  repeat' (first | with_reducible assumption | intro _ | with_reducible apply only_ite | with_reducible apply State.modSensor_only (sub_trans rfl hw) | with_reducible apply State.raise_only (sub_trans rfl hw) | dsimp only)

theorem driftStep_only {a2} (hw : 65664 &&& w = 65664) (h : Only w v s) : Only w v (driftStep s a2) := by
  unfold driftStep
  repeat' (first | with_reducible assumption | intro _ | with_reducible apply only_ite | with_reducible apply State.modDrift_only (sub_trans rfl hw) | with_reducible apply State.modStale_only (sub_trans rfl hw) | with_reducible apply State.condition_only (sub_trans rfl hw) | dsimp only)

theorem keepSample_only (hw : 16384 &&& w = 16384) (h : Only w v s) : Only w v (keepSample s) := by
  unfold keepSample
  repeat' (first | with_reducible assumption | intro _ | with_reducible apply only_ite | (fail_if_no_progress with_reducible apply put_sup (sub_trans rfl hw)) | dsimp only)

theorem exitSample_only (hw : 16384 &&& w = 16384) (h : Only w v s) : Only w v (exitSample s) := by
  unfold exitSample
  repeat' (first | with_reducible assumption | intro _ | with_reducible apply only_ite | (fail_if_no_progress with_reducible apply put_sup (sub_trans rfl hw)) | dsimp only)

theorem execSensorSample_only {a1} {a2} {a3} (hw : 131070 &&& w = 131070) (h : Only w v s) : OnlyOut w v (execSensorSample a1 a2 a3 s) := by
  unfold execSensorSample
  apply onlyOut_next
  repeat' (first | with_reducible assumption | intro _ | with_reducible apply only_ite | with_reducible apply only_foldl | with_reducible apply reachGrid_only (sub_trans rfl hw) | with_reducible apply keepOpenDue_only (sub_trans rfl hw) | with_reducible apply keepCloseDue_only (sub_trans rfl hw) | with_reducible apply superviseDue_only (sub_trans rfl hw) | with_reducible apply sampleSensor_only (sub_trans rfl hw) | with_reducible apply State.live_only (sub_trans rfl hw) | with_reducible apply State.modPmon_only (sub_trans rfl hw) | with_reducible apply railSample_only (sub_trans rfl hw) | with_reducible apply countLevel_only (sub_trans rfl hw) | with_reducible apply driftStep_only (sub_trans rfl hw) | with_reducible apply exitSample_only (sub_trans rfl hw) | with_reducible apply keepSample_only (sub_trans rfl hw) | split | dsimp only)

theorem execThermalLevelEnter_only {a1} (hw : 131066 &&& w = 131066) (h : Only w v s) : OnlyOut w v (execThermalLevelEnter a1 s) := by
  unfold execThermalLevelEnter
  apply onlyOut_next
  repeat' (first | with_reducible assumption | intro _ | with_reducible apply enterDue_only (sub_trans rfl hw))

theorem execThermalLevelExit_only {a1} (hw : 86016 &&& w = 86016) (h : Only w v s) : OnlyOut w v (execThermalLevelExit a1 s) := by
  unfold execThermalLevelExit
  apply onlyOut_next
  repeat' (first | with_reducible assumption | intro _ | with_reducible apply exitDue_only (sub_trans rfl hw))

theorem execThrottleGraceEnd_only {a1} {a2} (hw : 98294 &&& w = 98294) (h : Only w v s) : OnlyOut w v (execThrottleGraceEnd a1 a2 s) := by
  unfold execThrottleGraceEnd
  apply onlyOut_next
  repeat' (first | with_reducible assumption | intro _ | with_reducible apply endGrace_only (sub_trans rfl hw) | with_reducible apply State.reach_only (sub_trans rfl hw) | split | dsimp only)

theorem execThrottleRepeat_only {a1} (hw : 69632 &&& w = 69632) (h : Only w v s) : OnlyOut w v (execThrottleRepeat a1 s) := by
  unfold execThrottleRepeat
  apply onlyOut_next
  repeat' (first | with_reducible assumption | intro _ | with_reducible apply only_ite | with_reducible apply throttleMessage_only (sub_trans rfl hw))

theorem execSensorBroken_only {a1} (hw : 131066 &&& w = 131066) (h : Only w v s) : OnlyOut w v (execSensorBroken a1 s) := by
  unfold execSensorBroken
  apply onlyOut_next
  repeat' (first | with_reducible assumption | intro _ | with_reducible apply brokenDue_only (sub_trans rfl hw))

theorem execSensorRecover_only {a1} (hw : 81920 &&& w = 81920) (h : Only w v s) : OnlyOut w v (execSensorRecover a1 s) := by
  unfold execSensorRecover
  apply onlyOut_next
  repeat' (first | with_reducible assumption | intro _ | with_reducible apply recoverDue_only (sub_trans rfl hw))

theorem execChargeWindowLeave_only {a1} (hw : 16384 &&& w = 16384) (h : Only w v s) : OnlyOut w v (execChargeWindowLeave a1 s) := by
  unfold execChargeWindowLeave
  apply onlyOut_next
  repeat' (first | with_reducible assumption | intro _ | with_reducible apply chargeLeaveDue_only (sub_trans rfl hw))

theorem execChargeWindowReturn_only {a1} (hw : 16384 &&& w = 16384) (h : Only w v s) : OnlyOut w v (execChargeWindowReturn a1 s) := by
  unfold execChargeWindowReturn
  apply onlyOut_next
  repeat' (first | with_reducible assumption | intro _ | with_reducible apply chargeReturnDue_only (sub_trans rfl hw))

theorem execRailCrossing_only {a1} {a2} {a3} (hw : 81920 &&& w = 81920) (h : Only w v s) : OnlyOut w v (execRailCrossing a1 a2 a3 s) := by
  unfold execRailCrossing
  apply onlyOut_next
  repeat' (first | with_reducible assumption | intro _ | with_reducible apply railCrossDue_only (sub_trans rfl hw))

theorem execRailThresholdExit_only {a1} {a2} {a3} (hw : 81920 &&& w = 81920) (h : Only w v s) : OnlyOut w v (execRailThresholdExit a1 a2 a3 s) := by
  unfold execRailThresholdExit
  apply onlyOut_next
  repeat' (first | with_reducible assumption | intro _ | with_reducible apply railExitDue_only (sub_trans rfl hw))

theorem execKeepWindowClose_only (hw : 16384 &&& w = 16384) (h : Only w v s) : OnlyOut w v (execKeepWindowClose s) := by
  unfold execKeepWindowClose
  apply onlyOut_next
  repeat' (first | with_reducible assumption | intro _ | with_reducible apply keepCloseDue_only (sub_trans rfl hw))

theorem execKeepWindowOpen_only (hw : 16384 &&& w = 16384) (h : Only w v s) : OnlyOut w v (execKeepWindowOpen s) := by
  unfold execKeepWindowOpen
  apply onlyOut_next
  repeat' (first | with_reducible assumption | intro _ | with_reducible apply keepOpenDue_only (sub_trans rfl hw))

theorem execShutdownPowerDown_only (hw : 98084 &&& w = 98084) (h : Only w v s) : OnlyOut w v (execShutdownPowerDown s) := by
  unfold execShutdownPowerDown
  apply onlyOut_next
  repeat' (first | with_reducible assumption | intro _ | with_reducible apply only_ite | with_reducible apply only_foldl | with_reducible apply State.reach_only (sub_trans rfl hw) | with_reducible apply disableStage_only (sub_trans rfl hw) | with_reducible apply staleTherm_only (sub_trans rfl hw) | (fail_if_no_progress with_reducible apply put_sup (sub_trans rfl hw)) | dsimp only)

theorem execTripLogWritten_only (hw : 16384 &&& w = 16384) (h : Only w v s) : OnlyOut w v (execTripLogWritten s) := by
  unfold execTripLogWritten
  apply onlyOut_next
  repeat' (first | with_reducible assumption | intro _ | with_reducible apply only_foldl | with_reducible apply State.modTripWord_only (sub_trans rfl hw) | (fail_if_no_progress with_reducible apply put_sup (sub_trans rfl hw)) | split | dsimp only)

theorem execShutdownExitCondition_only (hw : 16384 &&& w = 16384) (h : Only w v s) : OnlyOut w v (execShutdownExitCondition s) := by
  unfold execShutdownExitCondition
  apply onlyOut_next
  repeat' (first | with_reducible assumption | intro _ | with_reducible apply only_ite | (fail_if_no_progress with_reducible apply put_sup (sub_trans rfl hw)))

theorem suspectLive_only {a2} (hw : 65536 &&& w = 65536) (h : Only w v s) : Only w v (suspectLive s a2) := by
  unfold suspectLive
  repeat' (first | with_reducible assumption | intro _ | with_reducible apply State.live_only (sub_trans rfl hw) | dsimp only)

theorem readbackDue_only {a2} {a3} (hw : 65600 &&& w = 65600) (h : Only w v s) : Only w v (readbackDue s a2 a3) := by
  unfold readbackDue
  repeat' (first | with_reducible assumption | intro _ | with_reducible apply only_ite | with_reducible apply State.modDacst_only (sub_trans rfl hw) | with_reducible apply State.raise_only (sub_trans rfl hw) | dsimp only)

theorem compareSlot_only {a2} {a3} {a4} (hw : 65600 &&& w = 65600) (h : Only w v s) : Only w v (compareSlot s a2 a3 a4) := by
  unfold compareSlot
  repeat' (first | with_reducible assumption | intro _ | with_reducible apply only_ite | with_reducible apply readbackDue_only (sub_trans rfl hw) | with_reducible apply suspectLive_only (sub_trans rfl hw) | with_reducible apply State.modDacst_only (sub_trans rfl hw) | split | with_reducible apply ofst_mk | with_reducible refine only_fst (by with_reducible assumption) ?_ | dsimp only)

theorem sampleTherm_only {a2} {a3} (hw : 131066 &&& w = 131066) (h : Only w v s) : Only w v (sampleTherm s a2 a3) := by
  unfold sampleTherm
  repeat' (first | with_reducible assumption | intro _ | with_reducible apply only_ite | with_reducible apply only_foldl | with_reducible apply recoverDue_only (sub_trans rfl hw) | with_reducible apply brokenDue_only (sub_trans rfl hw) | with_reducible apply exitDue_only (sub_trans rfl hw) | with_reducible apply enterDue_only (sub_trans rfl hw) | with_reducible apply State.modTherm_only (sub_trans rfl hw) | with_reducible apply clocheHeavy_only (sub_trans rfl hw) | with_reducible apply State.raise_only (sub_trans rfl hw) | with_reducible apply State.live_only (sub_trans rfl hw) | with_reducible apply countLevel_only (sub_trans rfl hw) | with_reducible apply chargeReading_only (sub_trans rfl hw) | split | dsimp only)

theorem feedMonitor_only {a2} {a3} {a4} {a5} (hw : 73504 &&& w = 73504) (h : Only w v s) : Only w v (feedMonitor s a2 a3 a4 a5) := by
  unfold feedMonitor
  repeat' (first | with_reducible assumption | intro _ | with_reducible apply only_ite | with_reducible apply feedMeas_only (sub_trans rfl hw) | dsimp only)

theorem roundDone_only (hw : 16384 &&& w = 16384) (h : Only w v s) : Only w v (roundDone s) := by
  unfold roundDone
  repeat' (first | with_reducible assumption | intro _ | with_reducible apply only_ite | (fail_if_no_progress with_reducible apply put_sup (sub_trans rfl hw)) | dsimp only)

theorem execMonitorSlot_only {a1} {a2} (hw : 131070 &&& w = 131070) (h : Only w v s) : OnlyOut w v (execMonitorSlot a1 a2 s) := by
  unfold execMonitorSlot
  apply onlyOut_next
  repeat' (first | with_reducible assumption | intro _ | with_reducible apply only_ite | with_reducible apply only_foldl | with_reducible apply reachGrid_only (sub_trans rfl hw) | with_reducible apply feedMonitor_only (sub_trans rfl hw) | with_reducible apply compareSlot_only (sub_trans rfl hw) | with_reducible apply railExitDue_only (sub_trans rfl hw) | with_reducible apply railCrossDue_only (sub_trans rfl hw) | with_reducible apply railSample_only (sub_trans rfl hw) | with_reducible apply sampleTherm_only (sub_trans rfl hw) | with_reducible apply roundDone_only (sub_trans rfl hw) | with_reducible apply State.modMon_only (sub_trans rfl hw) | split | with_reducible apply ofst_mk | with_reducible refine only_fst (by with_reducible assumption) ?_ | dsimp only)

theorem execDacReadback_only {a1} {a2} (hw : 65600 &&& w = 65600) (h : Only w v s) : OnlyOut w v (execDacReadback a1 a2 s) := by
  unfold execDacReadback
  apply onlyOut_next
  repeat' (first | with_reducible assumption | intro _ | with_reducible apply readbackDue_only (sub_trans rfl hw))

theorem execThermConfigLevels_only (hw : 86064 &&& w = 86064) (h : Only w v s) : OnlyOut w v (execThermConfigLevels s) := by
  unfold execThermConfigLevels
  apply onlyOut_next
  repeat' (first | with_reducible assumption | intro _ | with_reducible apply only_foldl | with_reducible apply onCommand_only (sub_trans rfl hw) | with_reducible apply checked_only (sub_trans rfl hw) | with_reducible apply postOk_only (sub_trans rfl hw) | with_reducible apply State.modZone_only (sub_trans rfl hw) | dsimp only)

theorem execThermConfigThermistor_only (hw : 86064 &&& w = 86064) (h : Only w v s) : OnlyOut w v (execThermConfigThermistor s) := by
  unfold execThermConfigThermistor
  apply onlyOut_next
  repeat' (first | with_reducible assumption | intro _ | with_reducible apply only_ite | with_reducible apply only_foldl | with_reducible apply onCommand_only (sub_trans rfl hw) | with_reducible apply checked_only (sub_trans rfl hw) | with_reducible apply State.modTherm_only (sub_trans rfl hw) | with_reducible apply brokenLive_only (sub_trans rfl hw) | with_reducible apply chargeInvalid_only (sub_trans rfl hw) | with_reducible apply clocheLive_only (sub_trans rfl hw) | with_reducible apply State.modLevel_only (sub_trans rfl hw) | with_reducible apply postOk_only (sub_trans rfl hw) | with_reducible apply State.live_only (sub_trans rfl hw) | dsimp only)

theorem execThermConfigRail_only (hw : 86064 &&& w = 86064) (h : Only w v s) : OnlyOut w v (execThermConfigRail s) := by
  unfold execThermConfigRail
  apply onlyOut_next
  repeat' (first | with_reducible assumption | intro _ | with_reducible apply only_ite | with_reducible apply onCommand_only (sub_trans rfl hw) | with_reducible apply checked_only (sub_trans rfl hw) | with_reducible apply postOk_only (sub_trans rfl hw) | with_reducible apply State.modRail_only (sub_trans rfl hw) | dsimp only)

theorem execThermConfigRead_only (hw : 69680 &&& w = 69680) (h : Only w v s) : OnlyOut w v (execThermConfigRead s) := by
  unfold execThermConfigRead
  apply onlyOut_next
  repeat' (first | with_reducible assumption | intro _ | with_reducible apply only_ite | with_reducible apply onCommand_only (sub_trans rfl hw) | with_reducible apply checked_only (sub_trans rfl hw) | with_reducible apply postOk_only (sub_trans rfl hw) | dsimp only)

theorem execChargeWindow_only (hw : 86064 &&& w = 86064) (h : Only w v s) : OnlyOut w v (execChargeWindow s) := by
  unfold execChargeWindow
  apply onlyOut_next
  repeat' (first | with_reducible assumption | intro _ | with_reducible apply only_ite | with_reducible apply only_foldl | with_reducible apply onCommand_only (sub_trans rfl hw) | with_reducible apply checked_only (sub_trans rfl hw) | with_reducible apply postOk_only (sub_trans rfl hw) | with_reducible apply State.modCharge_only (sub_trans rfl hw) | with_reducible apply chargeInvalid_only (sub_trans rfl hw) | dsimp only)

theorem execChargeWindowRead_only (hw : 69680 &&& w = 69680) (h : Only w v s) : OnlyOut w v (execChargeWindowRead s) := by
  unfold execChargeWindowRead
  apply onlyOut_next
  repeat' (first | with_reducible assumption | intro _ | with_reducible apply onCommand_only (sub_trans rfl hw) | with_reducible apply checked_only (sub_trans rfl hw) | with_reducible apply postOk_only (sub_trans rfl hw) | dsimp only)

theorem execThrottleAck_only (hw : 98290 &&& w = 98290) (h : Only w v s) : OnlyOut w v (execThrottleAck s) := by
  unfold execThrottleAck
  apply onlyOut_next
  repeat' (first | with_reducible assumption | intro _ | with_reducible apply only_ite | with_reducible apply only_foldl | with_reducible apply onCommand_only (sub_trans rfl hw) | with_reducible apply checked_only (sub_trans rfl hw) | with_reducible apply State.modZone_only (sub_trans rfl hw) | with_reducible apply endGrace_only (sub_trans rfl hw) | with_reducible apply postOk_only (sub_trans rfl hw) | dsimp only)

end Sys2Proof.Machine
end

