-- ==== Sys2Proof/Laws/OnlyKeepOps.lean ====
section
/-! SUPPORT. Machine/KeepOps.lean: which parts of the state each operation can change. -/

set_option linter.unusedVariables false
set_option linter.unusedTactic false
set_option linter.unreachableTactic false

namespace Sys2Proof.Machine

variable {w : Nat} {v s : State}

theorem useImage_only {a2} (hw : 32768 &&& w = 32768) (h : Only w v s) : Only w v (useImage s a2) := by
  unfold useImage
  repeat' (first | with_reducible assumption | intro _ | with_reducible apply only_ite | (fail_if_no_progress with_reducible apply put_cal (sub_trans rfl hw)) | dsimp only)

theorem selectImage_only (hw : 98304 &&& w = 98304) (h : Only w v s) : Only w v (selectImage s) := by
  unfold selectImage
  repeat' (first | with_reducible assumption | intro _ | with_reducible apply only_ite | with_reducible apply useImage_only (sub_trans rfl hw) | with_reducible apply State.raise_only (sub_trans rfl hw) | split | dsimp only)

theorem loadPins_only {a1} (hw : 192 &&& w = 192) (h : Only w v s) : Only w v (loadPins a1 s) := by
  unfold loadPins
  repeat' (first | with_reducible assumption | intro _ | with_reducible apply only_ite | with_reducible apply only_foldl | with_reducible apply State.modDacst_only (sub_trans rfl hw) | with_reducible apply State.modPinst_only (sub_trans rfl hw) | with_reducible apply setDriver_only (sub_trans rfl hw) | dsimp only)

theorem loadLoops_only {a1} (hw : 512 &&& w = 512) (h : Only w v s) : Only w v (loadLoops a1 s) := by
  unfold loadLoops
  repeat' (first | with_reducible assumption | intro _ | with_reducible apply only_foldl | with_reducible apply State.modLoop_only (sub_trans rfl hw) | dsimp only)

theorem loadReactions_only {a1} (hw : 65536 &&& w = 65536) (h : Only w v s) : Only w v (loadReactions a1 s) := by
  unfold loadReactions
  repeat' (first | with_reducible assumption | intro _ | with_reducible apply only_foldl | with_reducible apply State.setReact_only (sub_trans rfl hw) | dsimp only)

theorem loadSupervision_only {a1} (hw : 16384 &&& w = 16384) (h : Only w v s) : Only w v (loadSupervision a1 s) := by
  unfold loadSupervision
  repeat' (first | with_reducible assumption | intro _ | with_reducible apply only_ite | with_reducible apply only_foldl | with_reducible apply ofst_foldl | with_reducible apply ofoldl_fst | with_reducible apply State.modZone_only (sub_trans rfl hw) | with_reducible apply State.modTherm_only (sub_trans rfl hw) | with_reducible apply State.modRail_only (sub_trans rfl hw) | with_reducible apply State.modCharge_only (sub_trans rfl hw) | dsimp only)

theorem loadSeed_only (hw : 115392 &&& w = 115392) (h : Only w v s) : Only w v (loadSeed s) := by
  unfold loadSeed
  repeat' (first | with_reducible assumption | intro _ | with_reducible apply only_ite | with_reducible apply loadSupervision_only (sub_trans rfl hw) | with_reducible apply loadReactions_only (sub_trans rfl hw) | with_reducible apply loadLoops_only (sub_trans rfl hw) | with_reducible apply loadPins_only (sub_trans rfl hw) | with_reducible apply State.raise_only (sub_trans rfl hw) | (fail_if_no_progress with_reducible apply put_cal (sub_trans rfl hw)) | split | dsimp only)

theorem eraseSector_only {a2} (hw : 98304 &&& w = 98304) (h : Only w v s) : Only w v (eraseSector s a2) := by
  unfold eraseSector
  repeat' (first | with_reducible assumption | intro _ | with_reducible apply only_ite | with_reducible apply State.modWearOf_only (sub_trans rfl hw) | with_reducible apply State.raise_only (sub_trans rfl hw) | (fail_if_no_progress with_reducible apply put_cal (sub_trans rfl hw)) | dsimp only)

theorem programKeep_only {a2} {a3} (hw : 32768 &&& w = 32768) (h : Only w v s) : Only w v (programKeep s a2 a3) := by
  unfold programKeep
  repeat' (first | with_reducible assumption | intro _ | (fail_if_no_progress with_reducible apply put_cal (sub_trans rfl hw)) | dsimp only)

theorem endKeep_only {a2} (hw : 32768 &&& w = 32768) (h : Only w v s) (a2h : ∀ t, Only w v t → Only w v (a2 t)) : Only w v (endKeep s a2) := by
  unfold endKeep
  repeat' (first | with_reducible assumption | intro _ | with_reducible apply only_ite | apply a2h | (fail_if_no_progress with_reducible apply put_cal (sub_trans rfl hw)) | dsimp only)

theorem keepProceed_only (hw : 102448 &&& w = 102448) (h : Only w v s) : Only w v (keepProceed s) := by
  unfold keepProceed
  repeat' (first | with_reducible assumption | intro _ | with_reducible apply only_ite | with_reducible apply endKeep_only (sub_trans rfl hw) | with_reducible apply postOk_only (sub_trans rfl hw) | with_reducible apply postBad_only (sub_trans rfl hw) | split | dsimp only)

theorem startKeep_only {a2} (hw : 102448 &&& w = 102448) (h : Only w v s) : Only w v (startKeep s a2) := by
  unfold startKeep
  repeat' (first | with_reducible assumption | intro _ | with_reducible apply keepProceed_only (sub_trans rfl hw) | with_reducible apply waitFor_only (sub_trans rfl hw) | (fail_if_no_progress with_reducible apply put_cal (sub_trans rfl hw)))

end Sys2Proof.Machine
end

