-- ==== Sys2Proof/Laws/OnlyCalib.lean ====
section
/-! SUPPORT. Machine/Calib.lean: which parts of the state each operation can change. -/

set_option linter.unusedVariables false
set_option linter.unusedTactic false
set_option linter.unreachableTactic false

namespace Sys2Proof.Machine

variable {w : Nat} {v s : State}

theorem execCalRun_only (hw : 105136 &&& w = 105136) (h : Only w v s) : OnlyOut w v (execCalRun s) := by
  unfold execCalRun
  apply onlyOut_next
  repeat' (first | with_reducible assumption | intro _ | with_reducible apply only_ite | with_reducible apply only_foldl | with_reducible apply onCommand_only (sub_trans rfl hw) | with_reducible apply checked_only (sub_trans rfl hw) | with_reducible apply freezeLoop_only (sub_trans rfl hw) | with_reducible apply holdClocks_only (sub_trans rfl hw) | with_reducible apply accept_only (sub_trans rfl hw) | (fail_if_no_progress with_reducible apply put_cal (sub_trans rfl hw)) | dsimp only)

theorem patchBody_only {a2} (hw : 32768 &&& w = 32768) (h : Only w v s) : Only w v (patchBody s a2) := by
  unfold patchBody
  repeat' (first | with_reducible assumption | intro _ | with_reducible apply only_foldl | with_reducible apply ofst_foldl | with_reducible apply ofoldl_fst | (fail_if_no_progress with_reducible apply put_cal (sub_trans rfl hw)) | dsimp only)

theorem recordEdge_only {a2} (hw : 32896 &&& w = 32896) (h : Only w v s) : Only w v (recordEdge s a2) := by
  unfold recordEdge
  repeat' (first | with_reducible assumption | intro _ | with_reducible apply patchBody_only (sub_trans rfl hw) | with_reducible apply State.modDrift_only (sub_trans rfl hw) | dsimp only)

theorem applyCal_only {a2} {a3} (hw : 32896 &&& w = 32896) (h : Only w v s) : Only w v (applyCal s a2 a3) := by
  unfold applyCal
  repeat' (first | with_reducible assumption | intro _ | with_reducible apply only_ite | with_reducible apply only_foldl | with_reducible apply ofst_foldl | with_reducible apply ofoldl_fst | with_reducible apply patchBody_only (sub_trans rfl hw) | with_reducible apply recordEdge_only (sub_trans rfl hw) | (fail_if_no_progress with_reducible apply put_cal (sub_trans rfl hw)) | dsimp only)

theorem keepFigures_only {a2} {a3} (hw : 32768 &&& w = 32768) (h : Only w v s) : Only w v (keepFigures s a2 a3) := by
  unfold keepFigures
  repeat' (first | with_reducible assumption | intro _ | with_reducible apply only_ite | with_reducible apply only_foldl | with_reducible apply ofst_foldl | with_reducible apply ofoldl_fst | with_reducible apply State.modQuality_only (sub_trans rfl hw) | with_reducible apply State.modMeasured_only (sub_trans rfl hw) | split | dsimp only)

theorem execCalRunEnd_only {a1} (hw : 105138 &&& w = 105138) (h : Only w v s) : OnlyOut w v (execCalRunEnd a1 s) := by
  unfold execCalRunEnd
  apply onlyOut_next
  repeat' (first | with_reducible assumption | intro _ | with_reducible apply only_ite | with_reducible apply endCal_only (sub_trans rfl hw) | with_reducible apply State.takeFree_only (sub_trans rfl hw) | with_reducible apply keepFigures_only (sub_trans rfl hw) | with_reducible apply applyCal_only (sub_trans rfl hw) | split | dsimp only)

theorem eraseAll_only {a2} (hw : 98304 &&& w = 98304) (h : Only w v s) : OnlyFst w v (eraseAll s a2) := by
  induction a2 generalizing s with
  | nil => unfold eraseAll; exact h
  | cons x q ih =>
    unfold eraseAll
    repeat' (first | with_reducible apply ih | with_reducible refine only_of_fst (ih ?_) | with_reducible assumption | intro _ | with_reducible apply only_ite | with_reducible apply ofst_ite | with_reducible apply eraseSector_only (sub_trans rfl hw) | split | with_reducible apply ofst_mk | with_reducible refine only_fst (by with_reducible assumption) ?_ | dsimp only)

theorem execCalCommit_only (hw : 104496 &&& w = 104496) (h : Only w v s) : OnlyOut w v (execCalCommit s) := by
  unfold execCalCommit
  apply onlyOut_next
  repeat' (first | with_reducible assumption | intro _ | with_reducible apply onCommand_only (sub_trans rfl hw) | with_reducible apply checked_only (sub_trans rfl hw) | with_reducible apply eraseAll_only (sub_trans rfl hw) | with_reducible refine only_of_fst (eraseAll_only (sub_trans rfl hw) ?_) | with_reducible refine only_fst (by with_reducible assumption) (eraseAll_only (sub_trans rfl hw) ?_) | with_reducible apply accept_only (sub_trans rfl hw) | (fail_if_no_progress with_reducible apply put_cal (sub_trans rfl hw)) | split | with_reducible apply ofst_mk | with_reducible refine only_fst (by with_reducible assumption) ?_ | dsimp only)

theorem execCalCommitDone_only {a1} (hw : 100384 &&& w = 100384) (h : Only w v s) : OnlyOut w v (execCalCommitDone a1 s) := by
  unfold execCalCommitDone
  apply onlyOut_next
  repeat' (first | with_reducible assumption | intro _ | with_reducible apply only_ite | with_reducible apply endWork_only (sub_trans rfl hw) | with_reducible apply programKeep_only (sub_trans rfl hw) | (fail_if_no_progress with_reducible apply put_cal (sub_trans rfl hw)) | split | dsimp only)

theorem execCalSelectLoad_only (hw : 102576 &&& w = 102576) (h : Only w v s) : OnlyOut w v (execCalSelectLoad s) := by
  unfold execCalSelectLoad
  apply onlyOut_next
  repeat' (first | with_reducible assumption | intro _ | with_reducible apply only_ite | with_reducible apply onCommand_only (sub_trans rfl hw) | with_reducible apply checked_only (sub_trans rfl hw) | with_reducible apply selectImage_only (sub_trans rfl hw) | with_reducible apply useImage_only (sub_trans rfl hw) | with_reducible apply postOk_only (sub_trans rfl hw) | (fail_if_no_progress with_reducible apply put_edge (sub_trans rfl hw)) | dsimp only)

theorem execCalSelectStatus_only (hw : 69680 &&& w = 69680) (h : Only w v s) : OnlyOut w v (execCalSelectStatus s) := by
  unfold execCalSelectStatus
  apply onlyOut_next
  repeat' (first | with_reducible assumption | intro _ | with_reducible apply onCommand_only (sub_trans rfl hw) | with_reducible apply postOk_only (sub_trans rfl hw) | dsimp only)

theorem figureWords_only (hw : 2 &&& w = 2) : ∀ {l : List (Option Nat)} {s : State}, Only w v s → OnlyFst w v (figureWords s l)
  | [], _, h => h
  | some _ :: q, _, h => figureWords_only hw (l := q) h
  | none :: q, _, h => figureWords_only hw (l := q) (State.takeFree_only (sub_trans rfl hw) h)

theorem execCalSelectQuality_only (hw : 69682 &&& w = 69682) (h : Only w v s) : OnlyOut w v (execCalSelectQuality s) := by
  unfold execCalSelectQuality
  apply onlyOut_next
  repeat' (first | with_reducible assumption | intro _ | with_reducible apply only_ite | with_reducible apply ofst_ite | with_reducible apply onCommand_only (sub_trans rfl hw) | with_reducible apply checked_only (sub_trans rfl hw) | with_reducible apply postOk_only (sub_trans rfl hw) | with_reducible apply figureWords_only (sub_trans rfl hw) | with_reducible refine only_of_fst (figureWords_only (sub_trans rfl hw) ?_) | with_reducible refine only_fst (by with_reducible assumption) (figureWords_only (sub_trans rfl hw) ?_) | with_reducible apply ofst_mk | dsimp only)

theorem execKeepWriteData_only (hw : 102448 &&& w = 102448) (h : Only w v s) : OnlyOut w v (execKeepWriteData s) := by
  unfold execKeepWriteData
  apply onlyOut_next
  repeat' (first | with_reducible assumption | intro _ | with_reducible apply only_ite | with_reducible apply onCommand_only (sub_trans rfl hw) | with_reducible apply checked_only (sub_trans rfl hw) | with_reducible apply startKeep_only (sub_trans rfl hw) | with_reducible apply postOk_only (sub_trans rfl hw) | (fail_if_no_progress with_reducible apply put_cal (sub_trans rfl hw)) | dsimp only)

theorem execKeepWriteCommit_only (hw : 102448 &&& w = 102448) (h : Only w v s) : OnlyOut w v (execKeepWriteCommit s) := by
  unfold execKeepWriteCommit
  apply onlyOut_next
  repeat' (first | with_reducible assumption | intro _ | with_reducible apply id_only | with_reducible apply onCommand_only (sub_trans rfl hw) | with_reducible apply postBad_only (sub_trans rfl hw) | with_reducible apply checked_only (sub_trans rfl hw) | with_reducible apply postResponse_only (sub_trans rfl hw) | with_reducible apply startKeep_only (sub_trans rfl hw) | split | dsimp only)

theorem execKeepWriteCapture_only (hw : 102448 &&& w = 102448) (h : Only w v s) : OnlyOut w v (execKeepWriteCapture s) := by
  unfold execKeepWriteCapture
  apply onlyOut_next
  repeat' (first | with_reducible assumption | intro _ | with_reducible apply onCommand_only (sub_trans rfl hw) | with_reducible apply checked_only (sub_trans rfl hw) | with_reducible apply postOk_only (sub_trans rfl hw) | (fail_if_no_progress with_reducible apply put_cal (sub_trans rfl hw)) | dsimp only)

theorem execKeepWriteDiscard_only (hw : 102448 &&& w = 102448) (h : Only w v s) : OnlyOut w v (execKeepWriteDiscard s) := by
  unfold execKeepWriteDiscard
  apply onlyOut_next
  repeat' (first | with_reducible assumption | intro _ | with_reducible apply onCommand_only (sub_trans rfl hw) | with_reducible apply checked_only (sub_trans rfl hw) | with_reducible apply postOk_only (sub_trans rfl hw) | (fail_if_no_progress with_reducible apply put_cal (sub_trans rfl hw)) | dsimp only)

theorem execKeepRead_only (hw : 69680 &&& w = 69680) (h : Only w v s) : OnlyOut w v (execKeepRead s) := by
  unfold execKeepRead
  apply onlyOut_next
  repeat' (first | with_reducible assumption | intro _ | with_reducible apply only_ite | with_reducible apply onCommand_only (sub_trans rfl hw) | with_reducible apply checked_only (sub_trans rfl hw) | with_reducible apply postOk_only (sub_trans rfl hw) | dsimp only)

theorem execKeepOperationDone_only (hw : 102448 &&& w = 102448) (h : Only w v s) : OnlyOut w v (execKeepOperationDone s) := by
  unfold execKeepOperationDone
  apply onlyOut_next
  repeat' (first | with_reducible assumption | intro _ | with_reducible apply keepProceed_only (sub_trans rfl hw) | with_reducible apply eraseSector_only (sub_trans rfl hw) | with_reducible apply programKeep_only (sub_trans rfl hw) | (fail_if_no_progress with_reducible apply put_cal (sub_trans rfl hw)) | split | dsimp only)

end Sys2Proof.Machine
end

