-- ==== Sys2Proof/Laws/OnlyMeas.lean ====
section
/-! SUPPORT. Machine/Meas.lean: which parts of the state each operation can change. -/

set_option linter.unusedVariables false
set_option linter.unusedTactic false
set_option linter.unreachableTactic false

namespace Sys2Proof.Machine

variable {w : Nat} {v s : State}

theorem execMeasConfig_only (hw : 70704 &&& w = 70704) (h : Only w v s) : OnlyOut w v (execMeasConfig s) := by
  unfold execMeasConfig
  apply onlyOut_next
  repeat' (first | with_reducible assumption | intro _ | with_reducible apply only_foldl | with_reducible apply onCommand_only (sub_trans rfl hw) | with_reducible apply checked_only (sub_trans rfl hw) | with_reducible apply postOk_only (sub_trans rfl hw) | with_reducible apply State.modAvg_only (sub_trans rfl hw) | dsimp only)

theorem execMeasConfigRead_only (hw : 69680 &&& w = 69680) (h : Only w v s) : OnlyOut w v (execMeasConfigRead s) := by
  unfold execMeasConfigRead
  apply onlyOut_next
  repeat' (first | with_reducible assumption | intro _ | with_reducible apply onCommand_only (sub_trans rfl hw) | with_reducible apply checked_only (sub_trans rfl hw) | with_reducible apply postOk_only (sub_trans rfl hw) | dsimp only)

theorem execMeasRunStart_only (hw : 72752 &&& w = 72752) (h : Only w v s) : OnlyOut w v (execMeasRunStart s) := by
  unfold execMeasRunStart
  apply onlyOut_next
  repeat' (first | with_reducible assumption | intro _ | with_reducible apply only_ite | with_reducible apply only_foldl | with_reducible apply onCommand_only (sub_trans rfl hw) | with_reducible apply checked_only (sub_trans rfl hw) | with_reducible apply State.modAvg_only (sub_trans rfl hw) | with_reducible apply beginWork_only (sub_trans rfl hw) | with_reducible apply accept_only (sub_trans rfl hw) | dsimp only)

theorem stopMeas_only {a2} (hw : 73504 &&& w = 73504) (h : Only w v s) : Only w v (stopMeas s a2) := by
  unfold stopMeas
  repeat' (first | with_reducible assumption | intro _ | with_reducible apply only_ite | with_reducible apply modMeasRun_only (sub_trans rfl hw) | with_reducible apply endMeasRun_only (sub_trans rfl hw) | split | dsimp only)

theorem execMeasRunStop_only (hw : 73520 &&& w = 73520) (h : Only w v s) : OnlyOut w v (execMeasRunStop s) := by
  unfold execMeasRunStop
  apply onlyOut_next
  repeat' (first | with_reducible assumption | intro _ | with_reducible apply only_foldl | with_reducible apply onCommand_only (sub_trans rfl hw) | with_reducible apply checked_only (sub_trans rfl hw) | with_reducible apply postOk_only (sub_trans rfl hw) | with_reducible apply stopMeas_only (sub_trans rfl hw) | dsimp only)

theorem execMeasWindowEnd_only {a1} (hw : 73504 &&& w = 73504) (h : Only w v s) : OnlyOut w v (execMeasWindowEnd a1 s) := by
  unfold execMeasWindowEnd
  apply onlyOut_next
  repeat' (first | with_reducible assumption | intro _ | with_reducible apply only_ite | with_reducible apply endMeasWindow_only (sub_trans rfl hw) | split | dsimp only)

theorem execRawRecordClose_only {a1} {a2} (hw : 73504 &&& w = 73504) (h : Only w v s) : OnlyOut w v (execRawRecordClose a1 a2 s) := by
  unfold execRawRecordClose
  apply onlyOut_next
  repeat' (first | with_reducible assumption | intro _ | with_reducible apply only_ite | with_reducible apply closeRaw_only (sub_trans rfl hw) | split | dsimp only)

theorem execLockinRunStart_only (hw : 72752 &&& w = 72752) (h : Only w v s) : OnlyOut w v (execLockinRunStart s) := by
  unfold execLockinRunStart
  apply onlyOut_next
  repeat' (first | with_reducible assumption | intro _ | with_reducible apply only_ite | with_reducible apply only_foldl | with_reducible apply onCommand_only (sub_trans rfl hw) | with_reducible apply checked_only (sub_trans rfl hw) | with_reducible apply State.modAvg_only (sub_trans rfl hw) | with_reducible apply beginWork_only (sub_trans rfl hw) | with_reducible apply accept_only (sub_trans rfl hw) | dsimp only)

theorem stopLock_only {a2} (hw : 73504 &&& w = 73504) (h : Only w v s) : Only w v (stopLock s a2) := by
  unfold stopLock
  repeat' (first | with_reducible assumption | intro _ | with_reducible apply only_ite | with_reducible apply modLockRun_only (sub_trans rfl hw) | with_reducible apply endLockRun_only (sub_trans rfl hw) | split | dsimp only)

theorem execLockinRunStop_only (hw : 73520 &&& w = 73520) (h : Only w v s) : OnlyOut w v (execLockinRunStop s) := by
  unfold execLockinRunStop
  apply onlyOut_next
  repeat' (first | with_reducible assumption | intro _ | with_reducible apply only_foldl | with_reducible apply onCommand_only (sub_trans rfl hw) | with_reducible apply checked_only (sub_trans rfl hw) | with_reducible apply postOk_only (sub_trans rfl hw) | with_reducible apply stopLock_only (sub_trans rfl hw) | dsimp only)

theorem execLockinWindowEnd_only {a1} (hw : 73504 &&& w = 73504) (h : Only w v s) : OnlyOut w v (execLockinWindowEnd a1 s) := by
  unfold execLockinWindowEnd
  apply onlyOut_next
  repeat' (first | with_reducible assumption | intro _ | with_reducible apply endLockWindow_only (sub_trans rfl hw))

theorem wmLive_only {a2} (hw : 65536 &&& w = 65536) (h : Only w v s) : Only w v (wmLive s a2) := by
  unfold wmLive
  repeat' (first | with_reducible assumption | intro _ | with_reducible apply only_ite | with_reducible apply State.live_only (sub_trans rfl hw) | dsimp only)

theorem wmSet_only {a2} (hw : 73504 &&& w = 73504) (h : Only w v s) : Only w v (wmSet s a2) := by
  unfold wmSet
  repeat' (first | with_reducible assumption | intro _ | with_reducible apply only_ite | with_reducible apply ofst_ite | with_reducible apply State.modWmon_only (sub_trans rfl hw) | with_reducible apply unitEdges_only (sub_trans rfl hw) | with_reducible apply emitRecord_only (sub_trans rfl hw) | with_reducible refine only_of_fst (emitRecord_only (sub_trans rfl hw) ?_) | with_reducible refine only_fst (by with_reducible assumption) (emitRecord_only (sub_trans rfl hw) ?_) | with_reducible apply State.raise_only (sub_trans rfl hw) | with_reducible apply ofst_mk | dsimp only)

theorem wmCheck_only {a2} (hw : 73504 &&& w = 73504) (h : Only w v s) : Only w v (wmCheck s a2) := by
  unfold wmCheck
  repeat' (first | with_reducible assumption | intro _ | with_reducible apply only_ite | with_reducible apply wmSet_only (sub_trans rfl hw))

theorem wmReload_only {a2} (hw : 66560 &&& w = 66560) (h : Only w v s) : Only w v (wmReload s a2) := by
  unfold wmReload
  repeat' (first | with_reducible assumption | intro _ | with_reducible apply wmLive_only (sub_trans rfl hw) | with_reducible apply State.modWmon_only (sub_trans rfl hw) | dsimp only)

theorem wmInit_only {a2} (hw : 66560 &&& w = 66560) (h : Only w v s) : Only w v (wmInit s a2) := by
  unfold wmInit
  repeat' (first | with_reducible assumption | intro _ | with_reducible apply wmLive_only (sub_trans rfl hw) | with_reducible apply State.modWmon_only (sub_trans rfl hw) | dsimp only)

theorem wmInitBed_only {a2} (hw : 66560 &&& w = 66560) (h : Only w v s) : Only w v (wmInitBed s a2) := by
  unfold wmInitBed
  repeat' (first | with_reducible assumption | intro _ | with_reducible apply only_ite | with_reducible apply only_foldl | with_reducible apply wmInit_only (sub_trans rfl hw) | dsimp only)

theorem execWmDecisionChange_only {a1} {a2} (hw : 73504 &&& w = 73504) (h : Only w v s) : OnlyOut w v (execWmDecisionChange a1 a2 s) := by
  unfold execWmDecisionChange
  apply onlyOut_next
  repeat' (first | with_reducible assumption | intro _ | with_reducible apply only_ite | with_reducible apply wmCheck_only (sub_trans rfl hw) | with_reducible apply State.modWmon_only (sub_trans rfl hw) | dsimp only)

theorem execWmSettlingEnd_only {a1} {a2} (hw : 73504 &&& w = 73504) (h : Only w v s) : OnlyOut w v (execWmSettlingEnd a1 a2 s) := by
  unfold execWmSettlingEnd
  apply onlyOut_next
  repeat' (first | with_reducible assumption | intro _ | with_reducible apply only_ite | with_reducible apply wmCheck_only (sub_trans rfl hw) | with_reducible apply State.modWmon_only (sub_trans rfl hw) | dsimp only)

theorem execWmPeriodEnd_only {a1} (hw : 66564 &&& w = 66564) (h : Only w v s) : OnlyOut w v (execWmPeriodEnd a1 s) := by
  unfold execWmPeriodEnd
  apply onlyOut_next
  repeat' (first | with_reducible assumption | intro _ | with_reducible apply only_ite | with_reducible apply wmReload_only (sub_trans rfl hw) | with_reducible apply State.reach_only (sub_trans rfl hw) | with_reducible apply State.modWmon_only (sub_trans rfl hw) | dsimp only)

theorem execWmConfigure_only (hw : 70704 &&& w = 70704) (h : Only w v s) : OnlyOut w v (execWmConfigure s) := by
  unfold execWmConfigure
  apply onlyOut_next
  repeat' (first | with_reducible assumption | intro _ | with_reducible apply only_foldl | with_reducible apply onCommand_only (sub_trans rfl hw) | with_reducible apply checked_only (sub_trans rfl hw) | with_reducible apply postOk_only (sub_trans rfl hw) | with_reducible apply State.modWmon_only (sub_trans rfl hw) | dsimp only)

theorem execWmEnable_only (hw : 70704 &&& w = 70704) (h : Only w v s) : OnlyOut w v (execWmEnable s) := by
  unfold execWmEnable
  apply onlyOut_next
  repeat' (first | with_reducible assumption | intro _ | with_reducible apply only_foldl | with_reducible apply onCommand_only (sub_trans rfl hw) | with_reducible apply checked_only (sub_trans rfl hw) | with_reducible apply postOk_only (sub_trans rfl hw) | with_reducible apply wmInit_only (sub_trans rfl hw) | dsimp only)

theorem execWmDisable_only (hw : 70704 &&& w = 70704) (h : Only w v s) : OnlyOut w v (execWmDisable s) := by
  unfold execWmDisable
  apply onlyOut_next
  repeat' (first | with_reducible assumption | intro _ | with_reducible apply only_foldl | with_reducible apply onCommand_only (sub_trans rfl hw) | with_reducible apply checked_only (sub_trans rfl hw) | with_reducible apply postOk_only (sub_trans rfl hw) | with_reducible apply wmLive_only (sub_trans rfl hw) | with_reducible apply State.modWmon_only (sub_trans rfl hw) | dsimp only)

theorem execWmClear_only (hw : 70704 &&& w = 70704) (h : Only w v s) : OnlyOut w v (execWmClear s) := by
  unfold execWmClear
  apply onlyOut_next
  repeat' (first | with_reducible assumption | intro _ | with_reducible apply only_foldl | with_reducible apply onCommand_only (sub_trans rfl hw) | with_reducible apply checked_only (sub_trans rfl hw) | with_reducible apply wmReload_only (sub_trans rfl hw) | with_reducible apply postOk_only (sub_trans rfl hw) | dsimp only)

theorem execWmRead_only (hw : 69680 &&& w = 69680) (h : Only w v s) : OnlyOut w v (execWmRead s) := by
  unfold execWmRead
  apply onlyOut_next
  repeat' (first | with_reducible assumption | intro _ | with_reducible apply onCommand_only (sub_trans rfl hw) | with_reducible apply checked_only (sub_trans rfl hw) | with_reducible apply postOk_only (sub_trans rfl hw) | dsimp only)

end Sys2Proof.Machine
end

