-- ==== Sys2Proof/Laws/OnlySerialOps.lean ====
section
/-! SUPPORT. Machine/SerialOps.lean: which parts of the state each operation can change. -/

set_option linter.unusedVariables false
set_option linter.unusedTactic false
set_option linter.unreachableTactic false

namespace Sys2Proof.Machine

variable {w : Nat} {v s : State}

theorem lostLive_only (hw : 65536 &&& w = 65536) (h : Only w v s) : Only w v (lostLive s) := by
  unfold lostLive
  repeat' (first | with_reducible assumption | intro _ | with_reducible apply State.live_only (sub_trans rfl hw) | dsimp only)

theorem loseStage_only {a2} (hw : 98162 &&& w = 98162) (h : Only w v s) : Only w v (loseStage s a2) := by
  unfold loseStage
  repeat' (first | with_reducible assumption | intro _ | with_reducible apply only_foldl | with_reducible apply freeTelem_only (sub_trans rfl hw) | with_reducible apply State.modStage_only (sub_trans rfl hw) | with_reducible apply State.raise_only (sub_trans rfl hw) | with_reducible apply clocheHeavy_only (sub_trans rfl hw) | with_reducible apply State.modLoop_only (sub_trans rfl hw) | with_reducible apply chargeInvalid_only (sub_trans rfl hw) | dsimp only)

theorem lossDue_only {a2} (hw : 98162 &&& w = 98162) (h : Only w v s) : Only w v (lossDue s a2) := by
  unfold lossDue
  repeat' (first | with_reducible assumption | intro _ | with_reducible apply only_ite | with_reducible apply loseStage_only (sub_trans rfl hw) | dsimp only)

theorem digitalBoundary_only {a2} {a3} (hw : 73586 &&& w = 73586) (h : Only w v s) : Only w v (digitalBoundary s a2 a3) := by
  unfold digitalBoundary
  repeat' (first | with_reducible assumption | intro _ | with_reducible apply only_ite | with_reducible apply catchRunEnd_only (sub_trans rfl hw) | with_reducible apply complyTripNow_only (sub_trans rfl hw) | with_reducible apply State.modLoop_only (sub_trans rfl hw) | with_reducible apply applyForce_only (sub_trans rfl hw) | with_reducible apply chargeLeave_only (sub_trans rfl hw) | with_reducible apply advanceSource_only (sub_trans rfl hw) | dsimp only)

theorem digitalSample_only {a2} {a3} {a4} (hw : 73504 &&& w = 73504) (h : Only w v s) : Only w v (digitalSample s a2 a3 a4) := by
  unfold digitalSample
  repeat' (first | with_reducible assumption | intro _ | with_reducible apply only_ite | with_reducible apply deliver_only (sub_trans rfl hw) | with_reducible apply recordHandoff_only (sub_trans rfl hw) | with_reducible apply tripLive_only (sub_trans rfl hw) | with_reducible apply loopEvent_only (sub_trans rfl hw) | with_reducible apply State.modLoop_only (sub_trans rfl hw) | split | with_reducible apply ofst_mk | with_reducible refine only_fst (by with_reducible assumption) ?_ | dsimp only)

theorem askTelem_only {a2} (hw : 10240 &&& w = 10240) (h : Only w v s) : Only w v (askTelem s a2) := by
  unfold askTelem
  repeat' (first | with_reducible assumption | intro _ | with_reducible apply only_ite | with_reducible refine reserve_only (sub_trans rfl hw) ?_ _ (by with_reducible assumption) | with_reducible apply State.modStage_only (sub_trans rfl hw) | with_reducible apply dropRecord_only (sub_trans rfl hw) | split | dsimp only)

theorem sendTelemetry_only {a2} (hw : 81696 &&& w = 81696) (h : Only w v s) : Only w v (sendTelemetry s a2) := by
  unfold sendTelemetry
  repeat' (first | with_reducible assumption | intro _ | with_reducible apply only_ite | with_reducible apply ofst_ite | with_reducible apply State.modStage_only (sub_trans rfl hw) | with_reducible apply emitRecord_only (sub_trans rfl hw) | with_reducible refine only_of_fst (emitRecord_only (sub_trans rfl hw) ?_) | with_reducible refine only_fst (by with_reducible assumption) (emitRecord_only (sub_trans rfl hw) ?_) | with_reducible apply placeReserved_only (sub_trans rfl hw) | with_reducible refine only_of_fst (placeReserved_only (sub_trans rfl hw) ?_) | with_reducible refine only_fst (by with_reducible assumption) (placeReserved_only (sub_trans rfl hw) ?_) | with_reducible apply State.raise_only (sub_trans rfl hw) | split | with_reducible apply ofst_mk | with_reducible refine only_fst (by with_reducible assumption) ?_ | dsimp only)

theorem useReply_only {a2} {a3} {a4} {a5} (hw : 98080 &&& w = 98080) (h : Only w v s) : Only w v (useReply s a2 a3 a4 a5) := by
  unfold useReply
  repeat' (first | with_reducible assumption | intro _ | with_reducible apply only_ite | with_reducible apply only_foldl | with_reducible apply State.modStage_only (sub_trans rfl hw) | with_reducible apply sendTelemetry_only (sub_trans rfl hw) | with_reducible apply digitalSample_only (sub_trans rfl hw) | with_reducible apply chargeReading_only (sub_trans rfl hw) | dsimp only)

theorem useDelayed_only {a2} {a3} (hw : 98080 &&& w = 98080) (h : Only w v s) : Only w v (useDelayed s a2 a3) := by
  unfold useDelayed
  repeat' (first | with_reducible assumption | intro _ | with_reducible apply useReply_only (sub_trans rfl hw) | split | dsimp only)

theorem flushReplies_only {a2} (hw : 98080 &&& w = 98080) (h : Only w v s) : Only w v (flushReplies s a2) := by
  unfold flushReplies
  repeat' (first | with_reducible assumption | intro _ | with_reducible apply only_foldl | with_reducible apply useDelayed_only (sub_trans rfl hw) | with_reducible apply State.modStage_only (sub_trans rfl hw) | dsimp only)

theorem goodReply_only {a2} {a3} {a4} {a5} (hw : 98080 &&& w = 98080) (h : Only w v s) : Only w v (goodReply s a2 a3 a4 a5) := by
  unfold goodReply
  repeat' (first | with_reducible assumption | intro _ | with_reducible apply only_ite | with_reducible apply only_foldl | with_reducible apply State.modStage_only (sub_trans rfl hw) | with_reducible apply useDelayed_only (sub_trans rfl hw) | with_reducible apply useReply_only (sub_trans rfl hw) | dsimp only)

end Sys2Proof.Machine
end

