-- ==== Sys2Proof/Laws/OnlySerial.lean ====
section
/-! SUPPORT. Machine/Serial.lean: which parts of the state each operation can change. -/

set_option linter.unusedVariables false
set_option linter.unusedTactic false
set_option linter.unreachableTactic false

namespace Sys2Proof.Machine

variable {w : Nat} {v s : State}

theorem startJob_only {a2} {a3} (hw : 8224 &&& w = 8224) (h : Only w v s) : Only w v (startJob s a2 a3) := by
  unfold startJob
  repeat' (first | with_reducible assumption | intro _ | with_reducible apply waitFor_only (sub_trans rfl hw) | (fail_if_no_progress with_reducible apply put_ser (sub_trans rfl hw)))

theorem execStageAttachAttach_only (hw : 77872 &&& w = 77872) (h : Only w v s) : OnlyOut w v (execStageAttachAttach s) := by
  unfold execStageAttachAttach
  apply onlyOut_next
  repeat' (first | with_reducible assumption | intro _ | with_reducible apply only_ite | with_reducible apply onCommand_only (sub_trans rfl hw) | with_reducible apply checked_only (sub_trans rfl hw) | with_reducible apply startJob_only (sub_trans rfl hw) | with_reducible apply State.modStage_only (sub_trans rfl hw) | dsimp only)

theorem execStageAttachDetach_only (hw : 77872 &&& w = 77872) (h : Only w v s) : OnlyOut w v (execStageAttachDetach s) := by
  unfold execStageAttachDetach
  apply onlyOut_next
  repeat' (first | with_reducible assumption | intro _ | with_reducible apply onCommand_only (sub_trans rfl hw) | with_reducible apply checked_only (sub_trans rfl hw) | with_reducible apply startJob_only (sub_trans rfl hw) | with_reducible apply State.modStage_only (sub_trans rfl hw) | dsimp only)

theorem execStageAttachWrite_only (hw : 77872 &&& w = 77872) (h : Only w v s) : OnlyOut w v (execStageAttachWrite s) := by
  unfold execStageAttachWrite
  apply onlyOut_next
  repeat' (first | with_reducible assumption | intro _ | with_reducible apply onCommand_only (sub_trans rfl hw) | with_reducible apply checked_only (sub_trans rfl hw) | with_reducible apply startJob_only (sub_trans rfl hw) | dsimp only)

theorem execStageReadRead_only (hw : 77872 &&& w = 77872) (h : Only w v s) : OnlyOut w v (execStageReadRead s) := by
  unfold execStageReadRead
  apply onlyOut_next
  repeat' (first | with_reducible assumption | intro _ | with_reducible apply onCommand_only (sub_trans rfl hw) | with_reducible apply checked_only (sub_trans rfl hw) | with_reducible apply startJob_only (sub_trans rfl hw) | dsimp only)

theorem execStageReadStatus_only (hw : 69680 &&& w = 69680) (h : Only w v s) : OnlyOut w v (execStageReadStatus s) := by
  unfold execStageReadStatus
  apply onlyOut_next
  repeat' (first | with_reducible assumption | intro _ | with_reducible apply onCommand_only (sub_trans rfl hw) | with_reducible apply checked_only (sub_trans rfl hw) | with_reducible apply postOk_only (sub_trans rfl hw) | dsimp only)

theorem endJob_only (hw : 8192 &&& w = 8192) (h : Only w v s) : Only w v (endJob s) := by
  unfold endJob
  repeat' (first | with_reducible assumption | intro _ | (fail_if_no_progress with_reducible apply put_ser (sub_trans rfl hw)))

theorem answerJob_only {a2} (hw : 8192 &&& w = 8192) (h : Only w v s) (a2h : ∀ t, Only w v t → Only w v (a2 t)) : Only w v (answerJob s a2) := by
  unfold answerJob
  repeat' (first | with_reducible assumption | intro _ | with_reducible apply only_ite | with_reducible apply endJob_only (sub_trans rfl hw) | apply a2h)

theorem finishAttach_only {a2} {a3} {a4} {a5} {a6} {a7} {a8} (hw : 81714 &&& w = 81714) (h : Only w v s) : Only w v (finishAttach s a2 a3 a4 a5 a6 a7 a8) := by
  unfold finishAttach
  repeat' (first | with_reducible assumption | intro _ | with_reducible apply only_ite | with_reducible apply answerJob_only (sub_trans rfl hw) | with_reducible apply postBad_only (sub_trans rfl hw) | with_reducible apply freeTelem_only (sub_trans rfl hw) | with_reducible apply State.takeFree_only (sub_trans rfl hw) | with_reducible apply State.modStage_only (sub_trans rfl hw) | with_reducible apply lostLive_only (sub_trans rfl hw) | with_reducible apply postOk_only (sub_trans rfl hw) | dsimp only)

theorem jobReply_only {a2} {a3} {a4} {a5} {a6} {a7} {a8} (hw : 98098 &&& w = 98098) (h : Only w v s) : Only w v (jobReply s a2 a3 a4 a5 a6 a7 a8) := by
  unfold jobReply
  repeat' (first | with_reducible assumption | intro _ | with_reducible apply only_ite | with_reducible apply only_foldl | with_reducible apply finishAttach_only (sub_trans rfl hw) | with_reducible apply lostLive_only (sub_trans rfl hw) | with_reducible apply freeTelem_only (sub_trans rfl hw) | with_reducible apply State.modStage_only (sub_trans rfl hw) | with_reducible apply answerJob_only (sub_trans rfl hw) | with_reducible apply chargeInvalid_only (sub_trans rfl hw) | with_reducible apply postOk_only (sub_trans rfl hw) | with_reducible apply postResponse_only (sub_trans rfl hw) | (fail_if_no_progress with_reducible apply put_ser (sub_trans rfl hw)) | split | dsimp only)

theorem startExchange_only {a2} (hw : 98162 &&& w = 98162) (h : Only w v s) : Only w v (startExchange s a2) := by
  unfold startExchange
  repeat' (first | with_reducible assumption | intro _ | with_reducible apply only_ite | with_reducible apply only_foldl | with_reducible apply lossDue_only (sub_trans rfl hw) | with_reducible apply digitalBoundary_only (sub_trans rfl hw) | with_reducible apply askTelem_only (sub_trans rfl hw) | with_reducible apply State.modStage_only (sub_trans rfl hw) | dsimp only)

theorem nextExchange_only (hw : 98162 &&& w = 98162) (h : Only w v s) : Only w v (nextExchange s) := by
  unfold nextExchange
  repeat' (first | with_reducible assumption | intro _ | with_reducible apply only_ite | with_reducible apply startExchange_only (sub_trans rfl hw) | (fail_if_no_progress with_reducible apply put_ser (sub_trans rfl hw)) | split | dsimp only)

theorem execStageReply_only {a1} {a2} (hw : 98162 &&& w = 98162) (h : Only w v s) : OnlyOut w v (execStageReply a1 a2 s) := by
  unfold execStageReply
  apply onlyOut_next
  repeat' (first | with_reducible assumption | intro _ | with_reducible apply only_ite | with_reducible apply nextExchange_only (sub_trans rfl hw) | with_reducible apply lossDue_only (sub_trans rfl hw) | with_reducible apply State.modStage_only (sub_trans rfl hw) | with_reducible apply freeTelem_only (sub_trans rfl hw) | with_reducible apply State.raise_only (sub_trans rfl hw) | with_reducible apply goodReply_only (sub_trans rfl hw) | with_reducible apply jobReply_only (sub_trans rfl hw) | split | dsimp only)

theorem execStageLost_only {a1} (hw : 98162 &&& w = 98162) (h : Only w v s) : OnlyOut w v (execStageLost a1 s) := by
  unfold execStageLost
  apply onlyOut_next
  repeat' (first | with_reducible assumption | intro _ | with_reducible apply lossDue_only (sub_trans rfl hw))

theorem execCyclicExchangeDue_only {a1} {a2} (hw : 98166 &&& w = 98166) (h : Only w v s) : OnlyOut w v (execCyclicExchangeDue a1 a2 s) := by
  unfold execCyclicExchangeDue
  apply onlyOut_next
  repeat' (first | with_reducible assumption | intro _ | with_reducible apply only_ite | with_reducible apply lossDue_only (sub_trans rfl hw) | with_reducible apply State.reach_only (sub_trans rfl hw) | with_reducible apply State.modStage_only (sub_trans rfl hw) | with_reducible apply nextExchange_only (sub_trans rfl hw) | with_reducible apply State.raise_only (sub_trans rfl hw) | (fail_if_no_progress with_reducible apply put_ser (sub_trans rfl hw)) | dsimp only)

theorem xipServe_only {a2} (hw : 73728 &&& w = 73728) (h : Only w v s) : Only w v (xipServe s a2) := by
  unfold xipServe
  repeat' (first | with_reducible assumption | intro _ | with_reducible apply only_ite | with_reducible apply State.raise_only (sub_trans rfl hw) | (fail_if_no_progress with_reducible apply put_ser (sub_trans rfl hw)) | dsimp only)

theorem execXipFetch_only {a1} (hw : 73728 &&& w = 73728) (h : Only w v s) : OnlyOut w v (execXipFetch a1 s) := by
  unfold execXipFetch
  apply onlyOut_next
  repeat' (first | with_reducible assumption | intro _ | with_reducible apply only_ite | with_reducible apply xipServe_only (sub_trans rfl hw) | (fail_if_no_progress with_reducible apply put_ser (sub_trans rfl hw)) | dsimp only)

end Sys2Proof.Machine
end

