-- ==== Sys2Proof/Laws/OnlyResetOps.lean ====
section
/-! SUPPORT. Machine/ResetOps.lean: which parts of the state each operation can change. -/

set_option linter.unusedVariables false
set_option linter.unusedTactic false
set_option linter.unreachableTactic false

namespace Sys2Proof.Machine

variable {w : Nat} {v s : State}

theorem endWindow_only {a2} (hw : 98080 &&& w = 98080) (h : Only w v s) : Only w v (endWindow s a2) := by
  unfold endWindow
  repeat' (first | with_reducible assumption | intro _ | with_reducible apply only_ite | with_reducible apply State.modPert_only (sub_trans rfl hw) | with_reducible apply serviceRing_only (sub_trans rfl hw) | with_reducible apply State.modCls_only (sub_trans rfl hw) | with_reducible apply State.modPort_only (sub_trans rfl hw) | with_reducible apply flushReplies_only (sub_trans rfl hw) | dsimp only)

theorem releaseDelay_only {a2} (hw : 69648 &&& w = 69648) (h : Only w v s) : Only w v (releaseDelay s a2) := by
  unfold releaseDelay
  repeat' (first | with_reducible assumption | intro _ | with_reducible apply only_ite | with_reducible apply enterDone_only (sub_trans rfl hw))

theorem disarm_only (hw : 98096 &&& w = 98096) (h : Only w v s) : Only w v (disarm s) := by
  unfold disarm
  repeat' (first | with_reducible assumption | intro _ | with_reducible apply only_foldl | with_reducible apply endWindow_only (sub_trans rfl hw) | with_reducible apply releaseDelay_only (sub_trans rfl hw) | (fail_if_no_progress with_reducible apply put_flt (sub_trans rfl hw)) | dsimp only)

theorem anyReset_only (hw : 98104 &&& w = 98104) (h : Only w v s) : Only w v (anyReset s) := by
  unfold anyReset
  repeat' (first | with_reducible assumption | intro _ | with_reducible apply disarm_only (sub_trans rfl hw) | (fail_if_no_progress with_reducible apply put_bus (sub_trans rfl hw)))

theorem clearEntries_only {a2} (hw : 65536 &&& w = 65536) (h : Only w v s) : Only w v (clearEntries s a2) := by
  unfold clearEntries
  repeat' (first | with_reducible assumption | intro _ | with_reducible apply only_ite | with_reducible apply only_foldl | with_reducible apply State.modPert_only (sub_trans rfl hw) | dsimp only)

theorem lostUrgents_only {a2} {a3} (hw : 65536 &&& w = 65536) (h : Only w v s) : Only w v (lostUrgents s a2 a3) := by
  unfold lostUrgents
  repeat' (first | with_reducible assumption | intro _ | with_reducible apply only_ite | with_reducible apply only_foldl | with_reducible apply State.raise_only (sub_trans rfl hw) | dsimp only)

theorem portChanged_only {a2} (hw : 69632 &&& w = 69632) (h : Only w v s) : Only w v (portChanged s a2) := by
  unfold portChanged
  repeat' (first | with_reducible assumption | intro _ | with_reducible apply sendEvent_only (sub_trans rfl hw))

theorem linkReset_only {a2} (hw : 69632 &&& w = 69632) (h : Only w v s) : Only w v (linkReset s a2) := by
  unfold linkReset
  repeat' (first | with_reducible assumption | intro _ | with_reducible apply only_ite | with_reducible apply only_foldl | with_reducible apply freeCredit_only (sub_trans rfl hw) | with_reducible apply State.modCls_only (sub_trans rfl hw) | with_reducible apply lostUrgents_only (sub_trans rfl hw) | with_reducible apply State.modPort_only (sub_trans rfl hw) | with_reducible apply State.live_only (sub_trans rfl hw) | with_reducible apply portChanged_only (sub_trans rfl hw) | with_reducible apply State.raise_only (sub_trans rfl hw) | (fail_if_no_progress with_reducible apply put_link (sub_trans rfl hw)) | dsimp only)

theorem linkPortReset_only {a2} (hw : 98104 &&& w = 98104) (h : Only w v s) : Only w v (linkPortReset s a2) := by
  unfold linkPortReset
  repeat' (first | with_reducible assumption | intro _ | with_reducible apply only_ite | with_reducible apply linkReset_only (sub_trans rfl hw) | with_reducible apply clearEntries_only (sub_trans rfl hw) | with_reducible apply anyReset_only (sub_trans rfl hw))

theorem resetMeas_only {a2} (hw : 73504 &&& w = 73504) (h : Only w v s) : Only w v (resetMeas s a2) := by
  unfold resetMeas
  repeat' (first | with_reducible assumption | intro _ | with_reducible apply endMeasRun_only (sub_trans rfl hw))

theorem resetLock_only {a2} (hw : 73504 &&& w = 73504) (h : Only w v s) : Only w v (resetLock s a2) := by
  unfold resetLock
  repeat' (first | with_reducible assumption | intro _ | with_reducible apply only_ite | with_reducible apply returnCredit_only (sub_trans rfl hw) | with_reducible apply endLockRun_only (sub_trans rfl hw) | split | dsimp only)

theorem resetTim_only {a2} (hw : 73504 &&& w = 73504) (h : Only w v s) : Only w v (resetTim s a2) := by
  unfold resetTim
  repeat' (first | with_reducible assumption | intro _ | with_reducible apply endTimRun_only (sub_trans rfl hw) | with_reducible apply State.modTiu_only (sub_trans rfl hw) | dsimp only)

theorem resetBed_only {a2} {a3} (hw : 114674 &&& w = 114674) (h : Only w v s) : Only w v (resetBed s a2 a3) := by
  unfold resetBed
  repeat' (first | with_reducible assumption | intro _ | with_reducible apply only_ite | with_reducible apply only_foldl | with_reducible apply interruptCal_only (sub_trans rfl hw) | with_reducible apply clocheBed_only (sub_trans rfl hw) | with_reducible apply State.modTdll_only (sub_trans rfl hw) | with_reducible apply resetMeas_only (sub_trans rfl hw) | with_reducible apply resetLock_only (sub_trans rfl hw) | with_reducible apply dropLate_only (sub_trans rfl hw) | with_reducible apply resetTim_only (sub_trans rfl hw) | with_reducible apply State.modLoop_only (sub_trans rfl hw) | (fail_if_no_progress with_reducible apply put_pins (sub_trans rfl hw)) | dsimp only)

theorem resetTherm_only (hw : 16384 &&& w = 16384) (h : Only w v s) : Only w v (resetTherm s) := by
  unfold resetTherm
  repeat' (first | with_reducible assumption | intro _ | with_reducible apply only_foldl | with_reducible apply ofst_foldl | with_reducible apply ofoldl_fst | with_reducible apply State.modSensor_only (sub_trans rfl hw) | with_reducible apply State.modTherm_only (sub_trans rfl hw) | with_reducible apply State.modLevel_only (sub_trans rfl hw) | with_reducible apply State.modRailRd_only (sub_trans rfl hw) | (fail_if_no_progress with_reducible apply put_sup (sub_trans rfl hw)) | dsimp only)

theorem resetKeep_only (hw : 104496 &&& w = 104496) (h : Only w v s) : Only w v (resetKeep s) := by
  unfold resetKeep
  repeat' (first | with_reducible assumption | intro _ | with_reducible apply only_ite | with_reducible apply endKeep_only (sub_trans rfl hw) | with_reducible apply postBad_only (sub_trans rfl hw) | with_reducible apply endWork_only (sub_trans rfl hw) | (fail_if_no_progress with_reducible apply put_cal (sub_trans rfl hw)) | split | dsimp only)

theorem closeStreams_only (hw : 256 &&& w = 256) (h : Only w v s) : Only w v (closeStreams s) := by
  unfold closeStreams
  repeat' (first | with_reducible assumption | intro _ | with_reducible apply only_ite | with_reducible apply only_foldl | with_reducible apply State.modStrm_only (sub_trans rfl hw) | (fail_if_no_progress with_reducible apply put_pat (sub_trans rfl hw)) | dsimp only)

theorem blockEffect_only {a2} {a3} (hw : 131058 &&& w = 131058) (h : Only w v s) : Only w v (blockEffect s a2 a3) := by
  unfold blockEffect
  repeat' (first | with_reducible assumption | intro _ | with_reducible apply only_ite | with_reducible apply only_foldl | with_reducible apply resetBed_only (sub_trans rfl hw) | with_reducible apply latchStop_only (sub_trans rfl hw) | with_reducible apply closeStreams_only (sub_trans rfl hw) | with_reducible apply discardBanks_only (sub_trans rfl hw) | with_reducible apply State.raise_only (sub_trans rfl hw) | with_reducible apply abortFrame_only (sub_trans rfl hw) | with_reducible apply resetTherm_only (sub_trans rfl hw) | with_reducible apply resetKeep_only (sub_trans rfl hw) | (fail_if_no_progress with_reducible apply put_ser (sub_trans rfl hw)) | dsimp only)

theorem setCause_only {a2} (hw : 12 &&& w = 12) (h : Only w v s) : Only w v (setCause s a2) := by
  unfold setCause
  repeat' (first | with_reducible assumption | intro _ | with_reducible apply State.noteSet_only (sub_trans rfl hw) | (fail_if_no_progress with_reducible apply put_clk (sub_trans rfl hw)))

theorem forgetRegions_only (hw : 512 &&& w = 512) (h : Only w v s) : Only w v (forgetRegions s) := by
  unfold forgetRegions
  repeat' (first | with_reducible assumption | intro _ | with_reducible apply only_foldl | with_reducible apply ofst_foldl | with_reducible apply ofoldl_fst | with_reducible apply State.modLoop_only (sub_trans rfl hw) | dsimp only)

theorem haltShed_only {a2} (hw : 131006 &&& w = 131006) (h : Only w v s) : Only w v (haltShed s a2) := by
  unfold haltShed
  repeat' (first | with_reducible assumption | intro _ | with_reducible apply only_foldl | with_reducible apply dropEntryPins_only (sub_trans rfl hw) | with_reducible apply forgetRegions_only (sub_trans rfl hw) | with_reducible apply anyReset_only (sub_trans rfl hw) | with_reducible apply releaseScopes_only (sub_trans rfl hw) | with_reducible apply State.modLoop_only (sub_trans rfl hw) | with_reducible apply startFetch_only (sub_trans rfl hw) | (fail_if_no_progress with_reducible apply put_clk_bus_mb_fw_pat_lp_ser_cal_flt (sub_trans rfl hw)) | split | dsimp only)

theorem haltBeds_only (hw : 66240 &&& w = 66240) (h : Only w v s) : Only w v (haltBeds s) := by
  unfold haltBeds
  repeat' (first | with_reducible assumption | intro _ | with_reducible apply only_ite | with_reducible apply only_foldl | with_reducible apply clocheDrivers_only (sub_trans rfl hw) | with_reducible apply moveDacs_only (sub_trans rfl hw) | with_reducible apply State.modBedc_only (sub_trans rfl hw) | with_reducible apply State.modLoop_only (sub_trans rfl hw) | dsimp only)

theorem startReset_only {a2} {a3} {a4} (hw : 131068 &&& w = 131068) (h : Only w v s) : Only w v (startReset s a2 a3 a4) := by
  unfold startReset
  repeat' (first | with_reducible assumption | intro _ | with_reducible apply only_ite | with_reducible apply only_foldl | with_reducible apply anyReset_only (sub_trans rfl hw) | with_reducible apply setCause_only (sub_trans rfl hw) | with_reducible apply State.raise_only (sub_trans rfl hw) | with_reducible apply abortFrame_only (sub_trans rfl hw) | with_reducible apply haltBeds_only (sub_trans rfl hw) | (fail_if_no_progress with_reducible apply put_clk_mb_fw_pat_lp_meas_harv_link_ser_cal_flt (sub_trans rfl hw)) | dsimp only)

theorem clearClasses_only (hw : 131068 &&& w = 131068) (h : Only w v s) : Only w v (clearClasses s) := by
  unfold clearClasses
  repeat' (first | with_reducible assumption | intro _ | (fail_if_no_progress with_reducible apply put_clk_bus_mb_fw_pins_edge_pat_lp_meas_harv_link_ser_sup_cal_flt (sub_trans rfl hw)) | dsimp only)

theorem bootStep3_only (hw : 131062 &&& w = 131062) (h : Only w v s) : Only w v (bootStep3 s) := by
  unfold bootStep3
  repeat' (first | with_reducible assumption | intro _ | with_reducible apply only_ite | with_reducible apply selectImage_only (sub_trans rfl hw) | with_reducible apply loadSeed_only (sub_trans rfl hw) | with_reducible apply State.live_only (sub_trans rfl hw) | with_reducible apply clocheChip_only (sub_trans rfl hw) | (fail_if_no_progress with_reducible apply put_clk (sub_trans rfl hw)) | dsimp only)

theorem chipReset_only {a2} {a3} {a4} {a5} (hw : 131068 &&& w = 131068) (h : Only w v s) : Only w v (chipReset s a2 a3 a4 a5) := by
  unfold chipReset
  repeat' (first | with_reducible assumption | intro _ | with_reducible apply only_ite | with_reducible apply startReset_only (sub_trans rfl hw) | (fail_if_no_progress with_reducible apply put_clk (sub_trans rfl hw)) | split | dsimp only)

theorem watchdogRestart_only {a2} (hw : 131070 &&& w = 131070) (h : Only w v s) : Only w v (watchdogRestart s a2) := by
  unfold watchdogRestart
  repeat' (first | with_reducible assumption | intro _ | with_reducible apply only_ite | with_reducible apply setCause_only (sub_trans rfl hw) | with_reducible apply chipReset_only (sub_trans rfl hw) | with_reducible apply haltShed_only (sub_trans rfl hw) | (fail_if_no_progress with_reducible apply put_clk (sub_trans rfl hw)) | dsimp only)

theorem blockReset_only {a2} {a3} (hw : 131070 &&& w = 131070) (h : Only w v s) : Only w v (blockReset s a2 a3) := by
  unfold blockReset
  repeat' (first | with_reducible assumption | intro _ | with_reducible apply only_ite | with_reducible apply watchdogRestart_only (sub_trans rfl hw) | with_reducible apply linkPortReset_only (sub_trans rfl hw) | with_reducible apply blockEffect_only (sub_trans rfl hw) | with_reducible apply clearEntries_only (sub_trans rfl hw) | with_reducible apply anyReset_only (sub_trans rfl hw) | with_reducible apply State.modBlkReset_only (sub_trans rfl hw) | dsimp only)

end Sys2Proof.Machine
end

