-- ==== Sys2Proof/Laws/OnlyFaultOps.lean ====
section
/-! SUPPORT. Machine/FaultOps.lean: which parts of the state each operation can change. -/

set_option linter.unusedVariables false
set_option linter.unusedTactic false
set_option linter.unreachableTactic false

namespace Sys2Proof.Machine

variable {w : Nat} {v s : State}

theorem noteFault_only {a2} (hw : 8 &&& w = 8) (h : Only w v s) : Only w v (noteFault s a2) := by
  unfold noteFault
  repeat' (first | with_reducible assumption | intro _ | with_reducible apply State.noteSet_only (sub_trans rfl hw) | with_reducible apply State.noteAdd_only (sub_trans rfl hw))

theorem fireErrn_only (hw : 8 &&& w = 8) (h : Only w v s) : Only w v (fireErrn s) := by
  unfold fireErrn
  repeat' (first | with_reducible assumption | intro _ | with_reducible apply State.noteSet_only (sub_trans rfl hw) | (fail_if_no_progress with_reducible apply put_bus (sub_trans rfl hw)))

theorem fireCloche_only {a2} {a3} (hw : 81906 &&& w = 81906) (h : Only w v s) : Only w v (fireCloche s a2 a3) := by
  unfold fireCloche
  repeat' (first | with_reducible assumption | intro _ | with_reducible apply only_ite | with_reducible apply only_foldl | with_reducible apply clocheChip_only (sub_trans rfl hw) | with_reducible apply clocheBed_only (sub_trans rfl hw) | with_reducible apply originate_only (sub_trans rfl hw) | with_reducible apply clocheChain_only (sub_trans rfl hw) | split | dsimp only)

theorem fireReact_only {a2} {a3} (hw : 131070 &&& w = 131070) (h : Only w v s) : Only w v (fireReact s a2 a3) := by
  unfold fireReact
  repeat' (first | with_reducible assumption | intro _ | with_reducible apply only_ite | with_reducible apply blockReset_only (sub_trans rfl hw) | with_reducible apply chipReset_only (sub_trans rfl hw) | (fail_if_no_progress with_reducible apply put_fw (sub_trans rfl hw)))

theorem noteRegistered_only {a2} {a3} (hw : 8 &&& w = 8) (h : Only w v s) : Only w v (noteRegistered s a2 a3) := by
  unfold noteRegistered
  repeat' (first | with_reducible assumption | intro _ | (fail_if_no_progress with_reducible apply put_bus (sub_trans rfl hw)))

theorem registerOne_only {a2} (hw : 131070 &&& w = 131070) (h : Only w v s) : Only w v (registerOne s a2) := by
  unfold registerOne
  repeat' (first | with_reducible assumption | intro _ | with_reducible apply only_ite | with_reducible apply noteFault_only (sub_trans rfl hw) | with_reducible apply State.modFblk_only (sub_trans rfl hw) | with_reducible apply fireErrn_only (sub_trans rfl hw) | with_reducible apply fireCloche_only (sub_trans rfl hw) | with_reducible apply noteRegistered_only (sub_trans rfl hw) | with_reducible apply fireReact_only (sub_trans rfl hw) | dsimp only)

theorem ackFault_only {a2} (hw : 131070 &&& w = 131070) (h : Only w v s) : Only w v (ackFault s a2) := by
  unfold ackFault
  repeat' (first | with_reducible assumption | intro _ | with_reducible apply only_ite | with_reducible apply only_foldl | with_reducible apply ofst_foldl | with_reducible apply ofoldl_fst | with_reducible apply State.modFblk_only (sub_trans rfl hw) | with_reducible apply fireReact_only (sub_trans rfl hw) | (fail_if_no_progress with_reducible apply put_bus (sub_trans rfl hw)) | dsimp only)

theorem fireForced_only {a2} (hw : 65550 &&& w = 65550) (h : Only w v s) : Only w v (fireForced s a2) := by
  unfold fireForced
  repeat' (first | with_reducible assumption | intro _ | with_reducible apply State.reach_only (sub_trans rfl hw) | with_reducible apply State.raiseForced_only (sub_trans rfl hw) | (fail_if_no_progress with_reducible apply put_bus_flt (sub_trans rfl hw)) | dsimp only)

theorem directFaults_only {a2} {a3} (hw : 65536 &&& w = 65536) (h : Only w v s) : Only w v (directFaults s a2 a3) := by
  induction a3 generalizing s with
  | nil => unfold directFaults; exact h
  | cons x q ih =>
    unfold directFaults
    repeat' (first | with_reducible apply ih | with_reducible refine only_of_fst (ih ?_) | with_reducible assumption | intro _ | with_reducible apply only_ite | with_reducible apply State.raise_only (sub_trans rfl hw) | with_reducible apply State.condition_only (sub_trans rfl hw) | split | dsimp only)

theorem registerCycle_only {a2} (hw : 131070 &&& w = 131070) (h : Only w v s) : Only w v (registerCycle s a2) := by
  unfold registerCycle
  repeat' (first | with_reducible assumption | intro _ | with_reducible apply only_foldl | with_reducible apply State.reach_only (sub_trans rfl hw) | with_reducible apply registerOne_only (sub_trans rfl hw) | (fail_if_no_progress with_reducible apply put_flt (sub_trans rfl hw)) | split | dsimp only)

theorem armPerturb_only {a2} (hw : 98096 &&& w = 98096) (h : Only w v s) : Only w v (armPerturb s a2) := by
  unfold armPerturb
  repeat' (first | with_reducible assumption | intro _ | with_reducible apply only_ite | with_reducible apply disarm_only (sub_trans rfl hw) | (fail_if_no_progress with_reducible apply put_flt (sub_trans rfl hw)) | dsimp only)

end Sys2Proof.Machine
end

