-- ==== Sys2Proof/Laws/OnlyBootOps.lean ====
section
/-! SUPPORT. Machine/BootOps.lean: which parts of the state each operation can change. -/

set_option linter.unusedVariables false
set_option linter.unusedTactic false
set_option linter.unreachableTactic false

namespace Sys2Proof.Machine

variable {w : Nat} {v s : State}

theorem programFlash_only (hw : 8192 &&& w = 8192) : ∀ {a3 : List Byte} {a2 : Nat} {s : State}, Only w v s → Only w v (programFlash s a2 a3)
  | [], _, _, h => h
  | _ :: q, _, _, h => programFlash_only hw (a3 := q) (State.modFlashByte_only (sub_trans rfl hw) h)

theorem bootSelect_only {a1} (hw : 8192 &&& w = 8192) (h : Only w v s) : OnlyFst w v (bootSelect a1 s) := by
  induction a1 generalizing s with
  | nil => unfold bootSelect; exact h
  | cons x q ih =>
    unfold bootSelect
    repeat' (first | with_reducible apply ih | with_reducible refine only_of_fst (ih ?_) | with_reducible assumption | intro _ | with_reducible apply only_ite | with_reducible apply ofst_ite | with_reducible apply programFlash_only (sub_trans rfl hw) | split | with_reducible apply ofst_mk | with_reducible refine only_fst (by with_reducible assumption) ?_ | dsimp only)

theorem writeBootLog_only (hw : 34 &&& w = 34) (h : Only w v s) : Only w v (writeBootLog s) := by
  unfold writeBootLog
  repeat' (first | with_reducible assumption | intro _ | (fail_if_no_progress with_reducible apply put_free_fw (sub_trans rfl hw)))

theorem enterRecovery_only (hw : 65556 &&& w = 65556) (h : Only w v s) : Only w v (enterRecovery s) := by
  unfold enterRecovery
  repeat' (first | with_reducible assumption | intro _ | with_reducible apply State.modMbx_only (sub_trans rfl hw) | with_reducible apply State.condition_only (sub_trans rfl hw) | (fail_if_no_progress with_reducible apply put_clk (sub_trans rfl hw)) | dsimp only)

theorem selectBoot_only (hw : 73748 &&& w = 73748) (h : Only w v s) : OnlyFst w v (selectBoot s) := by
  unfold selectBoot
  repeat' (first | with_reducible assumption | intro _ | with_reducible apply bootSelect_only (sub_trans rfl hw) | with_reducible refine only_of_fst (bootSelect_only (sub_trans rfl hw) ?_) | with_reducible refine only_fst (by with_reducible assumption) (bootSelect_only (sub_trans rfl hw) ?_) | with_reducible apply enterRecovery_only (sub_trans rfl hw) | (fail_if_no_progress with_reducible apply put_clk (sub_trans rfl hw)) | split | with_reducible apply ofst_mk | with_reducible refine only_fst (by with_reducible assumption) ?_ | dsimp only)

theorem trainPort_only {a2} (hw : 4096 &&& w = 4096) (h : Only w v s) : Only w v (trainPort s a2) := by
  unfold trainPort
  repeat' (first | with_reducible assumption | intro _ | with_reducible apply only_ite | with_reducible apply State.modPort_only (sub_trans rfl hw) | dsimp only)

theorem coldState_only (hw : 131068 &&& w = 131068) (h : Only w v s) : Only w v (coldState s) := only_parts hw rfl h

theorem keepClassA_only {a1} (hw : 16388 &&& w = 16388) (h : Only w v s) : Only w v (keepClassA a1 s) := only_parts hw rfl h

theorem bootFrom3_only (hw : 131062 &&& w = 131062) (h : Only w v s) : Only w v (bootFrom3 s) := by
  unfold bootFrom3
  repeat' (first | with_reducible assumption | intro _ | with_reducible apply only_foldl | with_reducible apply State.raise_only (sub_trans rfl hw) | with_reducible apply bootStep3_only (sub_trans rfl hw) | dsimp only)

end Sys2Proof.Machine
end

