-- ==== Sys2Proof/Laws/OnlyChip.lean ====
section
/-! SUPPORT. Machine/Chip.lean: which parts of the state each operation can change. -/

set_option linter.unusedVariables false
set_option linter.unusedTactic false
set_option linter.unreachableTactic false

namespace Sys2Proof.Machine

variable {w : Nat} {v s : State}

theorem execPowerOnReset_only {a1} (hw : 131070 &&& w = 131070) (h : Only w v s) : OnlyOut w v (execPowerOnReset a1 s) := by
  unfold execPowerOnReset
  apply onlyOut_next
  repeat' (first | with_reducible assumption | intro _ | with_reducible apply only_ite | with_reducible apply setCause_only (sub_trans rfl hw) | with_reducible apply coldState_only (sub_trans rfl hw) | with_reducible apply bootFrom3_only (sub_trans rfl hw) | (fail_if_no_progress with_reducible apply put_clk (sub_trans rfl hw)) | dsimp only)

theorem execPowerLoss_only (hw : 131068 &&& w = 131068) (h : Only w v s) : OnlyOut w v (execPowerLoss s) := by
  unfold execPowerLoss
  apply onlyOut_next
  repeat' (first | with_reducible assumption | intro _ | with_reducible apply coldState_only (sub_trans rfl hw) | (fail_if_no_progress with_reducible apply put_clk (sub_trans rfl hw)) | dsimp only)

theorem execPinReset_only {a1} (hw : 131068 &&& w = 131068) (h : Only w v s) : OnlyOut w v (execPinReset a1 s) := by
  unfold execPinReset
  apply onlyOut_next
  repeat' (first | with_reducible assumption | intro _ | with_reducible apply only_ite | with_reducible apply chipReset_only (sub_trans rfl hw))

theorem execResetEnd_only (hw : 131070 &&& w = 131070) (h : Only w v s) : OnlyOut w v (execResetEnd s) := by
  unfold execResetEnd
  apply onlyOut_next
  repeat' (first | with_reducible assumption | intro _ | with_reducible apply only_ite | with_reducible apply State.reach_only (sub_trans rfl hw) | with_reducible apply bootFrom3_only (sub_trans rfl hw) | with_reducible apply syncBeds_only (sub_trans rfl hw) | with_reducible apply clearClasses_only (sub_trans rfl hw) | (fail_if_no_progress with_reducible apply put_clk (sub_trans rfl hw)) | dsimp only)

theorem execBlockResetEnd_only {a1} (hw : 79286 &&& w = 79286) (h : Only w v s) : OnlyOut w v (execBlockResetEnd a1 s) := by
  unfold execBlockResetEnd
  apply onlyOut_next
  repeat' (first | with_reducible assumption | intro _ | with_reducible apply only_ite | with_reducible apply State.modBlkReset_only (sub_trans rfl hw) | with_reducible apply syncBeds_only (sub_trans rfl hw) | with_reducible apply wmInitBed_only (sub_trans rfl hw) | with_reducible apply startFetch_only (sub_trans rfl hw) | with_reducible apply xipServe_only (sub_trans rfl hw) | with_reducible apply postOk_only (sub_trans rfl hw) | (fail_if_no_progress with_reducible apply put_ser (sub_trans rfl hw)) | split | dsimp only)

theorem execPllLock_only {a1} (hw : 78014 &&& w = 78014) (h : Only w v s) : OnlyOut w v (execPllLock a1 s) := by
  unfold execPllLock
  apply onlyOut_next
  repeat' (first | with_reducible assumption | intro _ | with_reducible apply only_ite | with_reducible apply ofst_ite | with_reducible apply State.condition_only (sub_trans rfl hw) | with_reducible apply syncBeds_only (sub_trans rfl hw) | with_reducible apply writeBootLog_only (sub_trans rfl hw) | with_reducible apply trainPort_only (sub_trans rfl hw) | with_reducible apply State.live_only (sub_trans rfl hw) | with_reducible apply enterRecovery_only (sub_trans rfl hw) | with_reducible apply selectBoot_only (sub_trans rfl hw) | with_reducible refine only_of_fst (selectBoot_only (sub_trans rfl hw) ?_) | with_reducible refine only_fst (by with_reducible assumption) (selectBoot_only (sub_trans rfl hw) ?_) | (fail_if_no_progress with_reducible apply put_clk_bus (sub_trans rfl hw)) | (fail_if_no_progress with_reducible apply put_ser (sub_trans rfl hw)) | (fail_if_no_progress with_reducible apply put_clk (sub_trans rfl hw)) | split | with_reducible apply ofst_mk | with_reducible refine only_fst (by with_reducible assumption) ?_ | dsimp only)

theorem faultedWork_only (hw : 67616 &&& w = 67616) (h : Only w v s) : Only w v (faultedWork s) := by
  unfold faultedWork
  repeat' (first | with_reducible assumption | intro _ | with_reducible apply only_foldl | with_reducible apply ofst_foldl | with_reducible apply ofoldl_fst | with_reducible apply endWork_only (sub_trans rfl hw) | (fail_if_no_progress with_reducible apply put_harv (sub_trans rfl hw)) | dsimp only)

theorem reportReady_only (hw : 67644 &&& w = 67644) (h : Only w v s) : Only w v (reportReady s) := by
  unfold reportReady
  repeat' (first | with_reducible assumption | intro _ | with_reducible apply only_foldl | with_reducible apply State.modMbx_only (sub_trans rfl hw) | with_reducible apply faultedWork_only (sub_trans rfl hw) | (fail_if_no_progress with_reducible apply put_clk_bus (sub_trans rfl hw)) | dsimp only)

theorem execFirmwareReady_only (hw : 75836 &&& w = 75836) (h : Only w v s) : OnlyOut w v (execFirmwareReady s) := by
  unfold execFirmwareReady
  apply onlyOut_next
  repeat' (first | with_reducible assumption | intro _ | with_reducible apply only_ite | with_reducible apply ofst_ite | with_reducible apply selectBoot_only (sub_trans rfl hw) | with_reducible refine only_of_fst (selectBoot_only (sub_trans rfl hw) ?_) | with_reducible refine only_fst (by with_reducible assumption) (selectBoot_only (sub_trans rfl hw) ?_) | with_reducible apply reportReady_only (sub_trans rfl hw) | split | with_reducible apply ofst_mk | with_reducible refine only_fst (by with_reducible assumption) ?_ | dsimp only)

theorem execRefLost_only {a1} (hw : 106430 &&& w = 106430) (h : Only w v s) : OnlyOut w v (execRefLost a1 s) := by
  unfold execRefLost
  apply onlyOut_next
  repeat' (first | with_reducible assumption | intro _ | with_reducible apply only_ite | with_reducible apply only_foldl | with_reducible apply State.noteSet_only (sub_trans rfl hw) | with_reducible apply State.condition_only (sub_trans rfl hw) | with_reducible apply latchStop_only (sub_trans rfl hw) | with_reducible apply interruptCal_only (sub_trans rfl hw) | (fail_if_no_progress with_reducible apply put_clk_link (sub_trans rfl hw)) | dsimp only)

theorem execRefclkReturn_only {a1} (hw : 65540 &&& w = 65540) (h : Only w v s) : OnlyOut w v (execRefclkReturn a1 s) := by
  unfold execRefclkReturn
  apply onlyOut_next
  repeat' (first | with_reducible assumption | intro _ | with_reducible apply only_ite | with_reducible apply State.live_only (sub_trans rfl hw) | (fail_if_no_progress with_reducible apply put_clk (sub_trans rfl hw)) | dsimp only)

theorem execPllRelock_only (hw : 4 &&& w = 4) (h : Only w v s) : OnlyOut w v (execPllRelock s) := by
  unfold execPllRelock
  apply onlyOut_next
  repeat' (first | with_reducible assumption | intro _ | with_reducible apply only_ite | (fail_if_no_progress with_reducible apply put_clk (sub_trans rfl hw)))

theorem execWatchdogExpiry_only (hw : 131070 &&& w = 131070) (h : Only w v s) : OnlyOut w v (execWatchdogExpiry s) := by
  unfold execWatchdogExpiry
  apply onlyOut_next
  repeat' (first | with_reducible assumption | intro _ | with_reducible apply only_ite | with_reducible apply State.reach_only (sub_trans rfl hw) | with_reducible apply watchdogRestart_only (sub_trans rfl hw) | with_reducible apply State.raise_only (sub_trans rfl hw) | dsimp only)

theorem execActivationRestart_only (hw : 131070 &&& w = 131070) (h : Only w v s) : OnlyOut w v (execActivationRestart s) := by
  unfold execActivationRestart
  apply onlyOut_next
  repeat' (first | with_reducible assumption | intro _ | with_reducible apply only_ite | with_reducible apply State.reach_only (sub_trans rfl hw) | with_reducible apply chipReset_only (sub_trans rfl hw) | with_reducible apply watchdogRestart_only (sub_trans rfl hw) | (fail_if_no_progress with_reducible apply put_clk (sub_trans rfl hw)) | split | dsimp only)

theorem execTrapTimeout_only (hw : 131070 &&& w = 131070) (h : Only w v s) : OnlyOut w v (execTrapTimeout s) := by
  unfold execTrapTimeout
  apply onlyOut_next
  repeat' (first | with_reducible assumption | intro _ | with_reducible apply watchdogRestart_only (sub_trans rfl hw) | with_reducible apply State.reach_only (sub_trans rfl hw) | split | dsimp only)

theorem execDeepEntry_only (hw : 131068 &&& w = 131068) (h : Only w v s) : OnlyOut w v (execDeepEntry s) := by
  unfold execDeepEntry
  apply onlyOut_next
  repeat' (first | with_reducible assumption | intro _ | with_reducible apply State.reach_only (sub_trans rfl hw) | with_reducible apply keepClassA_only (sub_trans rfl hw) | with_reducible apply coldState_only (sub_trans rfl hw) | (fail_if_no_progress with_reducible apply put_clk_pat (sub_trans rfl hw)) | split | dsimp only)

theorem execDeepWake_only {a1} {a2} (hw : 131070 &&& w = 131070) (h : Only w v s) : OnlyOut w v (execDeepWake a1 a2 s) := by
  unfold execDeepWake
  apply onlyOut_next
  repeat' (first | with_reducible assumption | intro _ | with_reducible apply only_ite | with_reducible apply setCause_only (sub_trans rfl hw) | with_reducible apply bootFrom3_only (sub_trans rfl hw) | (fail_if_no_progress with_reducible apply put_clk (sub_trans rfl hw)) | dsimp only)

theorem execStandbyExitComplete_only {a1} (hw : 71350 &&& w = 71350) (h : Only w v s) : OnlyOut w v (execStandbyExitComplete a1 s) := by
  unfold execStandbyExitComplete
  apply onlyOut_next
  repeat' (first | with_reducible assumption | intro _ | with_reducible apply only_ite | with_reducible apply only_foldl | with_reducible apply syncBeds_only (sub_trans rfl hw) | with_reducible apply State.modStbyExit_only (sub_trans rfl hw) | with_reducible apply State.modLoop_only (sub_trans rfl hw) | with_reducible apply State.modTiu_only (sub_trans rfl hw) | with_reducible apply resumeClocks_only (sub_trans rfl hw) | with_reducible apply wmInitBed_only (sub_trans rfl hw) | with_reducible apply postOk_only (sub_trans rfl hw) | dsimp only)

theorem execDramWakeComplete_only (hw : 4 &&& w = 4) (h : Only w v s) : OnlyOut w v (execDramWakeComplete s) := by
  unfold execDramWakeComplete
  apply onlyOut_next
  repeat' (first | with_reducible assumption | intro _ | with_reducible apply only_ite | (fail_if_no_progress with_reducible apply put_clk (sub_trans rfl hw)))

theorem execDramSelfRefreshTimeout_only (hw : 4 &&& w = 4) (h : Only w v s) : OnlyOut w v (execDramSelfRefreshTimeout s) := by
  unfold execDramSelfRefreshTimeout
  apply onlyOut_next
  repeat' (first | with_reducible assumption | intro _ | with_reducible apply only_ite | (fail_if_no_progress with_reducible apply put_clk (sub_trans rfl hw)))

end Sys2Proof.Machine
end

