-- ==== Sys2Proof/Laws/OnlyFirmware.lean ====
section
/-! SUPPORT. Machine/Firmware.lean: which parts of the state each operation can change. -/

set_option linter.unusedVariables false
set_option linter.unusedTactic false
set_option linter.unreachableTactic false

namespace Sys2Proof.Machine

variable {w : Nat} {v s : State}

theorem ackTraps_only (hw : 34 &&& w = 34) (h : Only w v s) : Only w v (ackTraps s) := by
  unfold ackTraps
  repeat' (first | with_reducible assumption | intro _ | with_reducible apply only_foldl | with_reducible apply ofst_foldl | with_reducible apply ofoldl_fst | with_reducible apply State.takeFree_only (sub_trans rfl hw) | with_reducible apply fwLog_only (sub_trans rfl hw) | (fail_if_no_progress with_reducible apply put_fw (sub_trans rfl hw)) | dsimp only)

theorem disarmCommit_only (hw : 8 &&& w = 8) (h : Only w v s) : Only w v (disarmCommit s) := by
  unfold disarmCommit
  repeat' (first | with_reducible assumption | intro _ | (fail_if_no_progress with_reducible apply put_bus (sub_trans rfl hw)))

theorem failPick_only {a2} {a3} (hw : 69688 &&& w = 69688) (h : Only w v s) : Only w v (failPick s a2 a3) := by
  unfold failPick
  repeat' (first | with_reducible assumption | intro _ | with_reducible apply only_ite | with_reducible apply postBad_only (sub_trans rfl hw) | with_reducible apply disarmCommit_only (sub_trans rfl hw))

theorem serviceWatchdog_only (hw : 4 &&& w = 4) (h : Only w v s) : Only w v (serviceWatchdog s) := by
  unfold serviceWatchdog
  repeat' (first | with_reducible assumption | intro _ | (fail_if_no_progress with_reducible apply put_clk (sub_trans rfl hw)))

theorem pickBox_only {a2} (hw : 69688 &&& w = 69688) (h : Only w v s) : Only w v (pickBox s a2) := by
  unfold pickBox
  repeat' (first | with_reducible assumption | intro _ | with_reducible apply only_ite | with_reducible apply only_foldl | with_reducible apply State.modMbx_only (sub_trans rfl hw) | with_reducible apply failPick_only (sub_trans rfl hw) | (fail_if_no_progress with_reducible apply put_fw (sub_trans rfl hw)) | split | dsimp only)

theorem execFirmwarePick_only (hw : 69694 &&& w = 69694) (h : Only w v s) : OnlyOut w v (execFirmwarePick s) := by
  have h1 : Only w v (ackTraps (serviceWatchdog s)) := ackTraps_only (sub_trans rfl hw) (serviceWatchdog_only (sub_trans rfl hw) h)
  unfold execFirmwarePick
  split
  · dsimp only
    split
    · exact onlyOut_next h1
    · split
      · intro t e; cases e
      · exact onlyOut_next (pickBox_only (sub_trans rfl hw) h1)
  · exact onlyOut_next h

theorem execHello_only (hw : 69680 &&& w = 69680) (h : Only w v s) : OnlyOut w v (execHello s) := by
  unfold execHello
  apply onlyOut_next
  repeat' (first | with_reducible assumption | intro _ | with_reducible apply id_only | with_reducible apply onCommand_only (sub_trans rfl hw) | with_reducible apply checked_only (sub_trans rfl hw) | with_reducible apply postOk_only (sub_trans rfl hw) | (fail_if_no_progress with_reducible apply put_fw (sub_trans rfl hw)) | split | dsimp only)

theorem execGetInfo_only (hw : 69680 &&& w = 69680) (h : Only w v s) : OnlyOut w v (execGetInfo s) := by
  unfold execGetInfo
  apply onlyOut_next
  repeat' (first | with_reducible assumption | intro _ | with_reducible apply only_ite | with_reducible apply onCommand_only (sub_trans rfl hw) | with_reducible apply postOk_only (sub_trans rfl hw) | dsimp only)

theorem execGetStatus_only (hw : 69680 &&& w = 69680) (h : Only w v s) : OnlyOut w v (execGetStatus s) := by
  unfold execGetStatus
  apply onlyOut_next
  repeat' (first | with_reducible assumption | intro _ | with_reducible apply only_foldl | with_reducible apply onCommand_only (sub_trans rfl hw) | with_reducible apply postOk_only (sub_trans rfl hw) | split | dsimp only)

theorem execQueryProgress_only (hw : 69680 &&& w = 69680) (h : Only w v s) : OnlyOut w v (execQueryProgress s) := by
  unfold execQueryProgress
  apply onlyOut_next
  repeat' (first | with_reducible assumption | intro _ | with_reducible apply onCommand_only (sub_trans rfl hw) | with_reducible apply checked_only (sub_trans rfl hw) | with_reducible apply postOk_only (sub_trans rfl hw) | dsimp only)

theorem dropOwn_only {a2} (hw : 67616 &&& w = 67616) (h : Only w v s) : Only w v (dropOwn s a2) := by
  unfold dropOwn
  repeat' (first | with_reducible assumption | intro _ | with_reducible apply endWork_only (sub_trans rfl hw))

theorem stopOwn_only {a2} (hw : 109344 &&& w = 109344) (h : Only w v s) : Only w v (stopOwn s a2) := by
  unfold stopOwn
  repeat' (first | with_reducible assumption | intro _ | with_reducible apply only_ite | with_reducible apply dropOwn_only (sub_trans rfl hw) | (fail_if_no_progress with_reducible apply put_pat (sub_trans rfl hw)) | (fail_if_no_progress with_reducible apply put_lp (sub_trans rfl hw)) | (fail_if_no_progress with_reducible apply put_cal (sub_trans rfl hw)) | (fail_if_no_progress with_reducible apply put_fw_ser (sub_trans rfl hw)) | dsimp only)

theorem stopTagged_only {a2} (hw : 114608 &&& w = 114608) (h : Only w v s) : Only w v (stopTagged s a2) := by
  unfold stopTagged
  repeat' (first | with_reducible assumption | intro _ | with_reducible apply only_ite | with_reducible apply only_foldl | with_reducible apply latchStop_only (sub_trans rfl hw) | with_reducible apply endLoopRun_only (sub_trans rfl hw) | with_reducible apply cutMeas_only (sub_trans rfl hw) | with_reducible apply cutLock_only (sub_trans rfl hw) | with_reducible apply cutTim_only (sub_trans rfl hw) | with_reducible apply stopOwn_only (sub_trans rfl hw) | (fail_if_no_progress with_reducible apply put_cal (sub_trans rfl hw)) | dsimp only)

theorem execAbort_only (hw : 114608 &&& w = 114608) (h : Only w v s) : OnlyOut w v (execAbort s) := by
  unfold execAbort
  apply onlyOut_next
  repeat' (first | with_reducible assumption | intro _ | with_reducible apply only_ite | with_reducible apply onCommand_only (sub_trans rfl hw) | with_reducible apply checked_only (sub_trans rfl hw) | with_reducible apply waitFor_only (sub_trans rfl hw) | with_reducible apply stopTagged_only (sub_trans rfl hw) | with_reducible apply answerAbort_only (sub_trans rfl hw) | dsimp only)

theorem execCloche_only (hw : 81906 &&& w = 81906) (h : Only w v s) : OnlyOut w v (execCloche s) := by
  unfold execCloche
  apply onlyOut_next
  repeat' (first | with_reducible assumption | intro _ | with_reducible apply onCommand_only (sub_trans rfl hw) | with_reducible apply checked_only (sub_trans rfl hw) | with_reducible apply postOk_only (sub_trans rfl hw) | with_reducible apply commandCloche_only (sub_trans rfl hw) | dsimp only)

theorem execReleaseCloche_only (hw : 70384 &&& w = 70384) (h : Only w v s) : OnlyOut w v (execReleaseCloche s) := by
  unfold execReleaseCloche
  apply onlyOut_next
  repeat' (first | with_reducible assumption | intro _ | with_reducible apply only_ite | with_reducible apply onCommand_only (sub_trans rfl hw) | with_reducible apply checked_only (sub_trans rfl hw) | with_reducible apply releaseCauses_only (sub_trans rfl hw) | with_reducible apply postOk_only (sub_trans rfl hw) | with_reducible apply postResponse_only (sub_trans rfl hw) | dsimp only)

theorem execResetBlock_only (hw : 131070 &&& w = 131070) (h : Only w v s) : OnlyOut w v (execResetBlock s) := by
  unfold execResetBlock
  apply onlyOut_next
  repeat' (first | with_reducible assumption | intro _ | with_reducible apply only_ite | with_reducible apply onCommand_only (sub_trans rfl hw) | with_reducible apply checked_only (sub_trans rfl hw) | with_reducible apply blockReset_only (sub_trans rfl hw) | with_reducible apply postOk_only (sub_trans rfl hw) | with_reducible apply waitFor_only (sub_trans rfl hw) | dsimp only)

theorem execLogRead_only (hw : 69680 &&& w = 69680) (h : Only w v s) : OnlyOut w v (execLogRead s) := by
  unfold execLogRead
  apply onlyOut_next
  repeat' (first | with_reducible assumption | intro _ | with_reducible apply only_ite | with_reducible apply onCommand_only (sub_trans rfl hw) | with_reducible apply checked_only (sub_trans rfl hw) | with_reducible apply postOk_only (sub_trans rfl hw) | dsimp only)

theorem checkedOpen_only {a2} {a3} {a4} (hw : 69682 &&& w = 69682) (h : Only w v s) (a4h : ∀ t, Only w v t → Only w v (a4 t)) : Only w v (checkedOpen s a2 a3 a4) := by
  unfold checkedOpen
  repeat' (first | with_reducible assumption | intro _ | with_reducible apply checked_only (sub_trans rfl hw) | with_reducible apply State.takeFree_only (sub_trans rfl hw) | apply a4h | dsimp only)

theorem heldLoads_only {a2} (hw : 64 &&& w = 64) (h : Only w v s) : Only w v (heldLoads s a2) := by
  unfold heldLoads
  repeat' (first | with_reducible assumption | intro _ | with_reducible apply only_foldl | with_reducible apply ofst_foldl | with_reducible apply ofoldl_fst | with_reducible apply loadDac_only (sub_trans rfl hw) | dsimp only)

theorem restartRound_only {a2} (hw : 64 &&& w = 64) (h : Only w v s) : Only w v (restartRound s a2) := by
  unfold restartRound
  repeat' (first | with_reducible assumption | intro _ | with_reducible apply State.modMon_only (sub_trans rfl hw) | dsimp only)

theorem leaveIdle_only {a2} (hw : 196 &&& w = 196) (h : Only w v s) : Only w v (leaveIdle s a2) := by
  unfold leaveIdle
  repeat' (first | with_reducible assumption | intro _ | with_reducible apply only_ite | with_reducible apply restartRound_only (sub_trans rfl hw) | with_reducible apply resumeClocks_only (sub_trans rfl hw) | with_reducible apply heldLoads_only (sub_trans rfl hw) | with_reducible apply State.modBedPow_only (sub_trans rfl hw) | dsimp only)

theorem leaveStandby_only {a2} (hw : 68 &&& w = 68) (h : Only w v s) : Only w v (leaveStandby s a2) := by
  unfold leaveStandby
  repeat' (first | with_reducible assumption | intro _ | with_reducible apply only_ite | with_reducible apply restartRound_only (sub_trans rfl hw) | with_reducible apply State.modBedPow_only (sub_trans rfl hw) | with_reducible apply State.modStbyExit_only (sub_trans rfl hw) | dsimp only)

theorem execSetPowerActive_only (hw : 70134 &&& w = 70134) (h : Only w v s) : OnlyOut w v (execSetPowerActive s) := by
  unfold execSetPowerActive
  apply onlyOut_next
  repeat' (first | with_reducible assumption | intro _ | with_reducible apply only_ite | with_reducible apply only_foldl | with_reducible apply onCommand_only (sub_trans rfl hw) | with_reducible apply checkedOpen_only (sub_trans rfl hw) | with_reducible apply startFetch_only (sub_trans rfl hw) | with_reducible apply leaveStandby_only (sub_trans rfl hw) | with_reducible apply leaveIdle_only (sub_trans rfl hw) | with_reducible apply waitFor_only (sub_trans rfl hw) | with_reducible apply postOk_only (sub_trans rfl hw) | (fail_if_no_progress with_reducible apply put_clk (sub_trans rfl hw)) | dsimp only)

theorem enterIdle_only {a2} (hw : 16516 &&& w = 16516) (h : Only w v s) : Only w v (enterIdle s a2) := by
  unfold enterIdle
  repeat' (first | with_reducible assumption | intro _ | with_reducible apply staleTherm_only (sub_trans rfl hw) | with_reducible apply holdClocks_only (sub_trans rfl hw) | with_reducible apply State.modStbyExit_only (sub_trans rfl hw) | with_reducible apply State.modBedPow_only (sub_trans rfl hw) | dsimp only)

theorem execSetPowerIdle_only (hw : 86454 &&& w = 86454) (h : Only w v s) : OnlyOut w v (execSetPowerIdle s) := by
  unfold execSetPowerIdle
  apply onlyOut_next
  repeat' (first | with_reducible assumption | intro _ | with_reducible apply only_foldl | with_reducible apply onCommand_only (sub_trans rfl hw) | with_reducible apply checkedOpen_only (sub_trans rfl hw) | with_reducible apply enterIdle_only (sub_trans rfl hw) | with_reducible apply postOk_only (sub_trans rfl hw) | with_reducible apply startFetch_only (sub_trans rfl hw) | (fail_if_no_progress with_reducible apply put_clk (sub_trans rfl hw)) | dsimp only)

theorem enterStandby_only {a2} (hw : 16580 &&& w = 16580) (h : Only w v s) : Only w v (enterStandby s a2) := by
  unfold enterStandby
  repeat' (first | with_reducible assumption | intro _ | with_reducible apply staleTherm_only (sub_trans rfl hw) | with_reducible apply holdClocks_only (sub_trans rfl hw) | with_reducible apply heldLoads_only (sub_trans rfl hw) | with_reducible apply State.modStbyExit_only (sub_trans rfl hw) | with_reducible apply State.modBedPow_only (sub_trans rfl hw) | dsimp only)

theorem execSetPowerStandby_only (hw : 86262 &&& w = 86262) (h : Only w v s) : OnlyOut w v (execSetPowerStandby s) := by
  unfold execSetPowerStandby
  apply onlyOut_next
  repeat' (first | with_reducible assumption | intro _ | with_reducible apply only_foldl | with_reducible apply onCommand_only (sub_trans rfl hw) | with_reducible apply checkedOpen_only (sub_trans rfl hw) | with_reducible apply postOk_only (sub_trans rfl hw) | with_reducible apply enterStandby_only (sub_trans rfl hw) | dsimp only)

theorem execSetPowerDeep_only (hw : 69684 &&& w = 69684) (h : Only w v s) : OnlyOut w v (execSetPowerDeep s) := by
  unfold execSetPowerDeep
  apply onlyOut_next
  repeat' (first | with_reducible assumption | intro _ | with_reducible apply onCommand_only (sub_trans rfl hw) | with_reducible apply checked_only (sub_trans rfl hw) | with_reducible apply postOk_only (sub_trans rfl hw) | (fail_if_no_progress with_reducible apply put_clk (sub_trans rfl hw)) | dsimp only)

theorem execMbDelayEnd_only {a1} (hw : 69652 &&& w = 69652) (h : Only w v s) : OnlyOut w v (execMbDelayEnd a1 s) := by
  unfold execMbDelayEnd
  apply onlyOut_next
  repeat' (first | with_reducible assumption | intro _ | with_reducible apply releaseDelay_only (sub_trans rfl hw) | with_reducible apply State.reach_only (sub_trans rfl hw) | split | dsimp only)

end Sys2Proof.Machine
end

