-- ==== Sys2Proof/Laws/OnlyUpdate.lean ====
section
/-! SUPPORT. Machine/Update.lean: which parts of the state each operation can change. -/

set_option linter.unusedVariables false
set_option linter.unusedTactic false
set_option linter.unreachableTactic false

namespace Sys2Proof.Machine

variable {w : Nat} {v s : State}

theorem resumeXip_only (hw : 73728 &&& w = 73728) (h : Only w v s) : Only w v (resumeXip s) := by
  unfold resumeXip
  repeat' (first | with_reducible assumption | intro _ | with_reducible apply only_ite | with_reducible apply xipServe_only (sub_trans rfl hw) | split | dsimp only)

theorem startFlash_only {a2} (hw : 8224 &&& w = 8224) (h : Only w v s) : Only w v (startFlash s a2) := by
  unfold startFlash
  repeat' (first | with_reducible assumption | intro _ | with_reducible apply waitFor_only (sub_trans rfl hw) | (fail_if_no_progress with_reducible apply put_ser (sub_trans rfl hw)))

theorem flashEffect_only {a2} (hw : 8192 &&& w = 8192) (h : Only w v s) : Only w v (flashEffect s a2) := by
  unfold flashEffect
  repeat' (first | with_reducible assumption | intro _ | with_reducible apply programFlash_only (sub_trans rfl hw) | (fail_if_no_progress with_reducible apply put_ser (sub_trans rfl hw)) | split | dsimp only)

theorem execFwUpdateBegin_only (hw : 79922 &&& w = 79922) (h : Only w v s) : OnlyOut w v (execFwUpdateBegin s) := by
  unfold execFwUpdateBegin
  apply onlyOut_next
  repeat' (first | with_reducible assumption | intro _ | with_reducible apply only_ite | with_reducible apply onCommand_only (sub_trans rfl hw) | with_reducible apply checkedOpen_only (sub_trans rfl hw) | with_reducible apply waitFor_only (sub_trans rfl hw) | with_reducible apply accept_only (sub_trans rfl hw) | (fail_if_no_progress with_reducible apply put_fw (sub_trans rfl hw)) | (fail_if_no_progress with_reducible apply put_ser (sub_trans rfl hw)) | dsimp only)

theorem execFwEraseDone_only (hw : 79920 &&& w = 79920) (h : Only w v s) : OnlyOut w v (execFwEraseDone s) := by
  unfold execFwEraseDone
  apply onlyOut_next
  repeat' (first | with_reducible assumption | intro _ | with_reducible apply only_ite | with_reducible apply only_foldl | with_reducible apply flashEffect_only (sub_trans rfl hw) | with_reducible apply resumeXip_only (sub_trans rfl hw) | with_reducible apply postOk_only (sub_trans rfl hw) | with_reducible apply endWork_only (sub_trans rfl hw) | (fail_if_no_progress with_reducible apply put_fw_ser (sub_trans rfl hw)) | split | dsimp only)

theorem execFwUpdateData_only (hw : 77874 &&& w = 77874) (h : Only w v s) : OnlyOut w v (execFwUpdateData s) := by
  unfold execFwUpdateData
  apply onlyOut_next
  repeat' (first | with_reducible assumption | intro _ | with_reducible apply only_ite | with_reducible apply id_only | with_reducible apply onCommand_only (sub_trans rfl hw) | with_reducible apply checkedOpen_only (sub_trans rfl hw) | with_reducible apply postResponse_only (sub_trans rfl hw) | with_reducible apply startFlash_only (sub_trans rfl hw) | split | dsimp only)

theorem execFwUpdateCommit_only (hw : 77880 &&& w = 77880) (h : Only w v s) : OnlyOut w v (execFwUpdateCommit s) := by
  unfold execFwUpdateCommit
  apply onlyOut_next
  repeat' (first | with_reducible assumption | intro _ | with_reducible apply only_ite | with_reducible apply onCommand_only (sub_trans rfl hw) | with_reducible apply postBad_only (sub_trans rfl hw) | with_reducible apply disarmCommit_only (sub_trans rfl hw) | with_reducible apply startFlash_only (sub_trans rfl hw) | (fail_if_no_progress with_reducible apply put_fw (sub_trans rfl hw)) | split | dsimp only)

theorem execFwUpdateConfirm_only (hw : 77880 &&& w = 77880) (h : Only w v s) : OnlyOut w v (execFwUpdateConfirm s) := by
  unfold execFwUpdateConfirm
  apply onlyOut_next
  repeat' (first | with_reducible assumption | intro _ | with_reducible apply only_ite | with_reducible apply onCommand_only (sub_trans rfl hw) | with_reducible apply postBad_only (sub_trans rfl hw) | with_reducible apply disarmCommit_only (sub_trans rfl hw) | with_reducible apply startFlash_only (sub_trans rfl hw) | with_reducible apply postOk_only (sub_trans rfl hw) | split | dsimp only)

theorem finishCommit_only {a2} (hw : 69692 &&& w = 69692) (h : Only w v s) : Only w v (finishCommit s a2) := by
  unfold finishCommit
  repeat' (first | with_reducible assumption | intro _ | with_reducible apply only_ite | with_reducible apply disarmCommit_only (sub_trans rfl hw) | with_reducible apply postOk_only (sub_trans rfl hw) | with_reducible apply postBad_only (sub_trans rfl hw) | (fail_if_no_progress with_reducible apply put_fw (sub_trans rfl hw)) | (fail_if_no_progress with_reducible apply put_clk (sub_trans rfl hw)) | dsimp only)

theorem finishConfirm_only (hw : 69688 &&& w = 69688) (h : Only w v s) : Only w v (finishConfirm s) := by
  unfold finishConfirm
  repeat' (first | with_reducible assumption | intro _ | with_reducible apply postOk_only (sub_trans rfl hw) | with_reducible apply disarmCommit_only (sub_trans rfl hw) | (fail_if_no_progress with_reducible apply put_fw (sub_trans rfl hw)) | dsimp only)

theorem finishFlash_only (hw : 69692 &&& w = 69692) (h : Only w v s) : Only w v (finishFlash s) := by
  unfold finishFlash
  repeat' (first | with_reducible assumption | intro _ | with_reducible apply only_ite | with_reducible apply postOk_only (sub_trans rfl hw) | with_reducible apply finishCommit_only (sub_trans rfl hw) | with_reducible apply finishConfirm_only (sub_trans rfl hw) | (fail_if_no_progress with_reducible apply put_fw (sub_trans rfl hw)) | split | dsimp only)

theorem execFlashOpDone_only (hw : 77884 &&& w = 77884) (h : Only w v s) : OnlyOut w v (execFlashOpDone s) := by
  unfold execFlashOpDone
  apply onlyOut_next
  repeat' (first | with_reducible assumption | intro _ | with_reducible apply only_ite | with_reducible apply flashEffect_only (sub_trans rfl hw) | with_reducible apply finishFlash_only (sub_trans rfl hw) | with_reducible apply resumeXip_only (sub_trans rfl hw) | (fail_if_no_progress with_reducible apply put_ser (sub_trans rfl hw)) | split | dsimp only)

theorem flashUnknown_only {a2} (hw : 8194 &&& w = 8194) (h : Only w v s) : Only w v (flashUnknown s a2) := by
  unfold flashUnknown
  repeat' (first | with_reducible assumption | intro _ | (fail_if_no_progress with_reducible apply put_free_ser (sub_trans rfl hw)) | split | dsimp only)

theorem execFlashTimeout_only (hw : 79930 &&& w = 79930) (h : Only w v s) : OnlyOut w v (execFlashTimeout s) := by
  unfold execFlashTimeout
  apply onlyOut_next
  repeat' (first | with_reducible assumption | intro _ | with_reducible apply only_ite | with_reducible apply flashUnknown_only (sub_trans rfl hw) | with_reducible apply State.raise_only (sub_trans rfl hw) | with_reducible apply resumeXip_only (sub_trans rfl hw) | with_reducible apply endWork_only (sub_trans rfl hw) | with_reducible apply postBad_only (sub_trans rfl hw) | with_reducible apply disarmCommit_only (sub_trans rfl hw) | (fail_if_no_progress with_reducible apply put_ser (sub_trans rfl hw)) | (fail_if_no_progress with_reducible apply put_fw (sub_trans rfl hw)) | split | dsimp only)

end Sys2Proof.Machine
end

