-- ==== Sys2Proof/Laws/OnlyBusOps.lean ====
section
/-! SUPPORT. Machine/BusOps.lean: which parts of the state each operation can change. -/

set_option linter.unusedVariables false
set_option linter.unusedTactic false
set_option linter.unreachableTactic false

namespace Sys2Proof.Machine

variable {w : Nat} {v s : State}

theorem busTurn_only {a2} (hw : 4 &&& w = 4) (h : Only w v s) : Only w v (busTurn s a2) := by
  unfold busTurn
  repeat' (first | with_reducible assumption | intro _ | with_reducible apply only_ite | (fail_if_no_progress with_reducible apply put_clk (sub_trans rfl hw)))

theorem busDone_only {a2} (hw : 8 &&& w = 8) (h : Only w v s) : Only w v (busDone s a2) := by
  unfold busDone
  repeat' (first | with_reducible assumption | intro _ | (fail_if_no_progress with_reducible apply put_bus (sub_trans rfl hw)) | split | dsimp only)

theorem State.modRingPort_only {a2} {a3} (hw : 2048 &&& w = 2048) (h : Only w v s) : Only w v (State.modRingPort s a2 a3) := by
  unfold State.modRingPort
  repeat' (first | with_reducible assumption | intro _ | (fail_if_no_progress with_reducible apply put_harv (sub_trans rfl hw)) | split | dsimp only)

theorem unmapped_only {a2} (hw : 65536 &&& w = 65536) (h : Only w v s) : Only w v (unmapped s a2) := by
  unfold unmapped
  repeat' (first | with_reducible assumption | intro _ | with_reducible apply State.raise_only (sub_trans rfl hw))

theorem readEffect_only {a2} {a3} (hw : 67584 &&& w = 67584) (h : Only w v s) : Only w v (readEffect s a2 a3) := by
  unfold readEffect
  repeat' (first | with_reducible assumption | intro _ | with_reducible apply only_ite | with_reducible apply unmapped_only (sub_trans rfl hw) | with_reducible apply State.modRingPort_only (sub_trans rfl hw) | dsimp only)

theorem setHalf_only {a2} {a3} (hw : 8 &&& w = 8) (h : Only w v s) : Only w v (setHalf s a2 a3) := by
  unfold setHalf
  repeat' (first | with_reducible assumption | intro _ | (fail_if_no_progress with_reducible apply put_bus (sub_trans rfl hw)) | split | dsimp only)

theorem reject_only {a2} {a3} {a4} {a5} (hw : 65544 &&& w = 65544) (h : Only w v s) : Only w v (reject s a2 a3 a4 a5) := by
  induction a5 generalizing s with
  | zero => unfold reject; exact h
  | succ q ih =>
    unfold reject
    repeat' (first | with_reducible apply ih | with_reducible refine only_of_fst (ih ?_) | with_reducible assumption | intro _ | with_reducible apply State.noteAdd_only (sub_trans rfl hw) | with_reducible apply State.raise_only (sub_trans rfl hw) | (fail_if_no_progress with_reducible apply put_bus (sub_trans rfl hw)) | split | dsimp only)

theorem expireHalf_only {a2} (hw : 65544 &&& w = 65544) (h : Only w v s) : Only w v (expireHalf s a2) := by
  unfold expireHalf
  repeat' (first | with_reducible assumption | intro _ | with_reducible apply only_ite | with_reducible apply reject_only (sub_trans rfl hw) | with_reducible apply setHalf_only (sub_trans rfl hw) | split | dsimp only)

theorem clearShutdown_only (hw : 81984 &&& w = 81984) (h : Only w v s) : Only w v (clearShutdown s) := by
  unfold clearShutdown
  repeat' (first | with_reducible assumption | intro _ | with_reducible apply only_ite | with_reducible apply only_foldl | with_reducible apply restartRound_only (sub_trans rfl hw) | with_reducible apply State.live_only (sub_trans rfl hw) | (fail_if_no_progress with_reducible apply put_sup (sub_trans rfl hw)) | dsimp only)

theorem guardEffect_only {a2} {a3} (hw : 131070 &&& w = 131070) (h : Only w v s) : Only w v (guardEffect s a2 a3) := by
  unfold guardEffect
  repeat' (first | with_reducible assumption | intro _ | with_reducible apply only_ite | with_reducible apply chipReset_only (sub_trans rfl hw) | with_reducible apply commandCloche_only (sub_trans rfl hw) | with_reducible apply releaseCauses_only (sub_trans rfl hw) | with_reducible apply clearShutdown_only (sub_trans rfl hw) | with_reducible apply armPerturb_only (sub_trans rfl hw) | with_reducible apply State.raiseForced_only (sub_trans rfl hw) | (fail_if_no_progress with_reducible apply put_bus (sub_trans rfl hw)) | dsimp only)

theorem noteHost_only {a2} {a3} {a4} {a5} {a6} (hw : 8 &&& w = 8) (h : Only w v s) : Only w v (noteHost s a2 a3 a4 a5 a6) := by
  unfold noteHost
  repeat' (first | with_reducible assumption | intro _ | with_reducible apply only_ite | (fail_if_no_progress with_reducible apply put_bus (sub_trans rfl hw)))

theorem guardLand_only {a2} {a3} {a4} (hw : 131070 &&& w = 131070) (h : Only w v s) : Only w v (guardLand s a2 a3 a4) := by
  unfold guardLand
  repeat' (first | with_reducible assumption | intro _ | with_reducible apply only_ite | with_reducible apply only_foldl | with_reducible apply ofst_foldl | with_reducible apply ofoldl_fst | with_reducible apply guardEffect_only (sub_trans rfl hw) | with_reducible apply noteHost_only (sub_trans rfl hw) | dsimp only)

theorem guardWrite_only {a2} {a3} {a4} (hw : 131070 &&& w = 131070) (h : Only w v s) : Only w v (guardWrite s a2 a3 a4) := by
  unfold guardWrite
  repeat' (first | with_reducible assumption | intro _ | with_reducible apply only_ite | with_reducible apply expireHalf_only (sub_trans rfl hw) | with_reducible apply setHalf_only (sub_trans rfl hw) | with_reducible apply reject_only (sub_trans rfl hw) | with_reducible apply guardLand_only (sub_trans rfl hw) | split | dsimp only)

theorem writeControl_only {a2} {a3} {a4} {a5} (hw : 268 &&& w = 268) (h : Only w v s) : Only w v (writeControl s a2 a3 a4 a5) := by
  unfold writeControl
  repeat' (first | with_reducible assumption | intro _ | with_reducible apply only_ite | with_reducible apply only_foldl | with_reducible apply State.noteBase_only (sub_trans rfl hw) | with_reducible apply State.modTrig_only (sub_trans rfl hw) | with_reducible apply trigPulse_only (sub_trans rfl hw) | with_reducible apply State.modTin_only (sub_trans rfl hw) | (fail_if_no_progress with_reducible apply put_bus (sub_trans rfl hw)) | (fail_if_no_progress with_reducible apply put_clk (sub_trans rfl hw)) | split | dsimp only)

theorem ringDoorbell_only {a2} (hw : 24 &&& w = 24) (h : Only w v s) : OnlyFst w v (ringDoorbell s a2) := by
  unfold ringDoorbell
  repeat' (first | with_reducible assumption | intro _ | with_reducible apply only_ite | with_reducible apply ofst_ite | with_reducible apply State.modMbx_only (sub_trans rfl hw) | with_reducible apply State.noteSet_only (sub_trans rfl hw) | with_reducible apply State.noteAdd_only (sub_trans rfl hw) | with_reducible apply ofst_mk | dsimp only)

theorem writeMailbox_only {a2} {a3} {a4} {a5} {a6} {a7} (hw : 24 &&& w = 24) (h : Only w v s) : Only w v (writeMailbox s a2 a3 a4 a5 a6 a7) := by
  unfold writeMailbox
  repeat' (first | with_reducible assumption | intro _ | with_reducible apply only_ite | with_reducible apply ofst_ite | with_reducible apply State.modMbx_only (sub_trans rfl hw) | with_reducible apply State.noteSet_only (sub_trans rfl hw) | with_reducible apply ringDoorbell_only (sub_trans rfl hw) | with_reducible refine only_of_fst (ringDoorbell_only (sub_trans rfl hw) ?_) | with_reducible refine only_fst (by with_reducible assumption) (ringDoorbell_only (sub_trans rfl hw) ?_) | with_reducible apply State.noteBase_only (sub_trans rfl hw) | with_reducible apply ofst_mk | dsimp only)

theorem writeEvents_only {a2} {a3} {a4} (hw : 65544 &&& w = 65544) (h : Only w v s) : Only w v (writeEvents s a2 a3 a4) := by
  unfold writeEvents
  repeat' (first | with_reducible assumption | intro _ | with_reducible apply only_ite | with_reducible apply State.noteBase_only (sub_trans rfl hw) | with_reducible apply State.modFblk_only (sub_trans rfl hw) | dsimp only)

theorem writeFault_only {a2} {a3} {a4} {a5} {a6} (hw : 131070 &&& w = 131070) (h : Only w v s) : Only w v (writeFault s a2 a3 a4 a5 a6) := by
  unfold writeFault
  repeat' (first | with_reducible assumption | intro _ | with_reducible apply only_ite | with_reducible apply State.modFblk_only (sub_trans rfl hw) | with_reducible apply ackFault_only (sub_trans rfl hw) | with_reducible apply writeEvents_only (sub_trans rfl hw) | dsimp only)

theorem writeTime_only {a2} {a3} {a4} {a5} (hw : 4108 &&& w = 4108) (h : Only w v s) : Only w v (writeTime s a2 a3 a4 a5) := by
  unfold writeTime
  repeat' (first | with_reducible assumption | intro _ | with_reducible apply only_ite | with_reducible apply State.noteBase_only (sub_trans rfl hw) | (fail_if_no_progress with_reducible apply put_clk (sub_trans rfl hw)) | (fail_if_no_progress with_reducible apply put_link (sub_trans rfl hw)) | dsimp only)

theorem postRelease_only {a2} {a3} (hw : 73504 &&& w = 73504) (h : Only w v s) : Only w v (postRelease s a2 a3) := by
  unfold postRelease
  repeat' (first | with_reducible assumption | intro _ | with_reducible apply only_ite | with_reducible apply ofst_ite | with_reducible apply releaseRing_only (sub_trans rfl hw) | with_reducible refine only_of_fst (releaseRing_only (sub_trans rfl hw) ?_) | with_reducible refine only_fst (by with_reducible assumption) (releaseRing_only (sub_trans rfl hw) ?_) | with_reducible apply State.raise_only (sub_trans rfl hw) | split | with_reducible apply ofst_mk | with_reducible refine only_fst (by with_reducible assumption) ?_ | dsimp only)

theorem writeRelease_only {a2} {a3} {a4} {a5} (hw : 73504 &&& w = 73504) (h : Only w v s) : Only w v (writeRelease s a2 a3 a4 a5) := by
  unfold writeRelease
  repeat' (first | with_reducible assumption | intro _ | with_reducible apply only_ite | with_reducible apply State.modRingPort_only (sub_trans rfl hw) | with_reducible apply postRelease_only (sub_trans rfl hw) | dsimp only)

theorem writePlain_only {a2} {a3} {a4} {a5} {a6} (hw : 131070 &&& w = 131070) (h : Only w v s) : Only w v (writePlain s a2 a3 a4 a5 a6) := by
  unfold writePlain
  repeat' (first | with_reducible assumption | intro _ | with_reducible apply only_ite | with_reducible apply only_foldl | with_reducible apply writeControl_only (sub_trans rfl hw) | with_reducible apply writeMailbox_only (sub_trans rfl hw) | with_reducible apply writeFault_only (sub_trans rfl hw) | with_reducible apply writeTime_only (sub_trans rfl hw) | with_reducible apply State.modZone_only (sub_trans rfl hw) | with_reducible apply writeRelease_only (sub_trans rfl hw) | dsimp only)

theorem landWrite_only {a2} {a3} {a4} {a5} {a6} (hw : 131070 &&& w = 131070) (h : Only w v s) : Only w v (landWrite s a2 a3 a4 a5 a6) := by
  unfold landWrite
  repeat' (first | with_reducible assumption | intro _ | with_reducible apply only_ite | with_reducible apply only_foldl | with_reducible apply ofst_foldl | with_reducible apply ofoldl_fst | with_reducible apply writePlain_only (sub_trans rfl hw) | with_reducible apply noteHost_only (sub_trans rfl hw) | dsimp only)

theorem writeWord_only {a2} {a3} {a4} (hw : 131070 &&& w = 131070) (h : Only w v s) : Only w v (writeWord s a2 a3 a4) := by
  unfold writeWord
  repeat' (first | with_reducible assumption | intro _ | with_reducible apply only_ite | with_reducible apply expireHalf_only (sub_trans rfl hw) | with_reducible apply unmapped_only (sub_trans rfl hw) | with_reducible apply reject_only (sub_trans rfl hw) | with_reducible apply landWrite_only (sub_trans rfl hw) | with_reducible apply guardWrite_only (sub_trans rfl hw) | dsimp only)

theorem busWrite_only {a2} {a3} {a4} (hw : 131070 &&& w = 131070) (h : Only w v s) : Only w v (busWrite s a2 a3 a4) := by
  unfold busWrite
  repeat' (first | with_reducible assumption | intro _ | with_reducible apply only_ite | with_reducible apply busDone_only (sub_trans rfl hw) | with_reducible apply writeWord_only (sub_trans rfl hw) | with_reducible apply busTurn_only (sub_trans rfl hw))

theorem busRead_only {a2} {a3} (hw : 67596 &&& w = 67596) (h : Only w v s) : Only w v (busRead s a2 a3) := by
  unfold busRead
  repeat' (first | with_reducible assumption | intro _ | with_reducible apply only_ite | with_reducible apply readEffect_only (sub_trans rfl hw) | with_reducible apply busTurn_only (sub_trans rfl hw) | with_reducible apply busDone_only (sub_trans rfl hw) | (fail_if_no_progress with_reducible apply put_bus (sub_trans rfl hw)) | dsimp only)

end Sys2Proof.Machine
end

