-- ==== Sys2Proof/Laws/OnlyBus.lean ====
section
/-! SUPPORT. Machine/Bus.lean: which parts of the state each operation can change. -/

set_option linter.unusedVariables false
set_option linter.unusedTactic false
set_option linter.unreachableTactic false

namespace Sys2Proof.Machine

variable {w : Nat} {v s : State}

theorem execRegisterWritePlain_only {a1} {a2} {a3} (hw : 131070 &&& w = 131070) (h : Only w v s) : OnlyOut w v (execRegisterWritePlain a1 a2 a3 s) := by
  unfold execRegisterWritePlain
  apply onlyOut_next
  repeat' (first | with_reducible assumption | intro _ | with_reducible apply busWrite_only (sub_trans rfl hw))

theorem execAliasWrite_only {a1} {a2} {a3} (hw : 131070 &&& w = 131070) (h : Only w v s) : OnlyOut w v (execAliasWrite a1 a2 a3 s) := by
  unfold execAliasWrite
  apply onlyOut_next
  repeat' (first | with_reducible assumption | intro _ | with_reducible apply only_ite | with_reducible apply busWrite_only (sub_trans rfl hw))

theorem execGuardValueWrite_only {a1} {a2} {a3} (hw : 131070 &&& w = 131070) (h : Only w v s) : OnlyOut w v (execGuardValueWrite a1 a2 a3 s) := by
  unfold execGuardValueWrite
  apply onlyOut_next
  repeat' (first | with_reducible assumption | intro _ | with_reducible apply only_ite | with_reducible apply busWrite_only (sub_trans rfl hw))

theorem execGuardWindowExpiry_only {a1} (hw : 65548 &&& w = 65548) (h : Only w v s) : OnlyOut w v (execGuardWindowExpiry a1 s) := by
  unfold execGuardWindowExpiry
  apply onlyOut_next
  repeat' (first | with_reducible assumption | intro _ | with_reducible apply expireHalf_only (sub_trans rfl hw) | with_reducible apply State.reach_only (sub_trans rfl hw) | split | dsimp only)

theorem execChipReset_only {a1} {a2} (hw : 131070 &&& w = 131070) (h : Only w v s) : OnlyOut w v (execChipReset a1 a2 s) := by
  unfold execChipReset
  apply onlyOut_next
  repeat' (first | with_reducible assumption | intro _ | with_reducible apply busWrite_only (sub_trans rfl hw))

theorem execClocheOverride_only {a1} {a2} (hw : 131070 &&& w = 131070) (h : Only w v s) : OnlyOut w v (execClocheOverride a1 a2 s) := by
  unfold execClocheOverride
  apply onlyOut_next
  repeat' (first | with_reducible assumption | intro _ | with_reducible apply busWrite_only (sub_trans rfl hw))

theorem execClocheRelease_only {a1} {a2} (hw : 131070 &&& w = 131070) (h : Only w v s) : OnlyOut w v (execClocheRelease a1 a2 s) := by
  unfold execClocheRelease
  apply onlyOut_next
  repeat' (first | with_reducible assumption | intro _ | with_reducible apply busWrite_only (sub_trans rfl hw))

theorem execKeepWe_only {a1} {a2} (hw : 131070 &&& w = 131070) (h : Only w v s) : OnlyOut w v (execKeepWe a1 a2 s) := by
  unfold execKeepWe
  apply onlyOut_next
  repeat' (first | with_reducible assumption | intro _ | with_reducible apply busWrite_only (sub_trans rfl hw))

theorem execShutdownClear_only {a1} {a2} (hw : 131070 &&& w = 131070) (h : Only w v s) : OnlyOut w v (execShutdownClear a1 a2 s) := by
  unfold execShutdownClear
  apply onlyOut_next
  repeat' (first | with_reducible assumption | intro _ | with_reducible apply busWrite_only (sub_trans rfl hw))

theorem execFwCommit_only {a1} {a2} (hw : 131070 &&& w = 131070) (h : Only w v s) : OnlyOut w v (execFwCommit a1 a2 s) := by
  unfold execFwCommit
  apply onlyOut_next
  repeat' (first | with_reducible assumption | intro _ | with_reducible apply busWrite_only (sub_trans rfl hw))

theorem execFaultForceRegister_only {a1} {a2} {a3} (hw : 131070 &&& w = 131070) (h : Only w v s) : OnlyOut w v (execFaultForceRegister a1 a2 a3 s) := by
  unfold execFaultForceRegister
  apply onlyOut_next
  repeat' (first | with_reducible assumption | intro _ | with_reducible apply busWrite_only (sub_trans rfl hw))

theorem execPerturbArm_only {a1} {a2} (hw : 131070 &&& w = 131070) (h : Only w v s) : OnlyOut w v (execPerturbArm a1 a2 s) := by
  unfold execPerturbArm
  apply onlyOut_next
  repeat' (first | with_reducible assumption | intro _ | with_reducible apply busWrite_only (sub_trans rfl hw))

theorem execDoorbellWrite_only {a1} {a2} {a3} (hw : 131070 &&& w = 131070) (h : Only w v s) : OnlyOut w v (execDoorbellWrite a1 a2 a3 s) := by
  unfold execDoorbellWrite
  apply onlyOut_next
  repeat' (first | with_reducible assumption | intro _ | with_reducible apply busWrite_only (sub_trans rfl hw))

theorem execMailboxAck_only {a1} {a2} {a3} (hw : 131070 &&& w = 131070) (h : Only w v s) : OnlyOut w v (execMailboxAck a1 a2 a3 s) := by
  unfold execMailboxAck
  apply onlyOut_next
  repeat' (first | with_reducible assumption | intro _ | with_reducible apply busWrite_only (sub_trans rfl hw))

theorem execFaultAck_only {a1} {a2} {a3} (hw : 131070 &&& w = 131070) (h : Only w v s) : OnlyOut w v (execFaultAck a1 a2 a3 s) := by
  unfold execFaultAck
  apply onlyOut_next
  repeat' (first | with_reducible assumption | intro _ | with_reducible apply busWrite_only (sub_trans rfl hw))

theorem execReleasePost_only {a1} {a2} (hw : 131070 &&& w = 131070) (h : Only w v s) : OnlyOut w v (execReleasePost a1 a2 s) := by
  unfold execReleasePost
  apply onlyOut_next
  repeat' (first | with_reducible assumption | intro _ | with_reducible apply busWrite_only (sub_trans rfl hw))

theorem execRingSnapshotRead_only {a1} (hw : 67596 &&& w = 67596) (h : Only w v s) : OnlyOut w v (execRingSnapshotRead a1 s) := by
  unfold execRingSnapshotRead
  apply onlyOut_next
  repeat' (first | with_reducible assumption | intro _ | with_reducible apply busRead_only (sub_trans rfl hw))

theorem execTrigForce_only {a1} {a2} (hw : 131070 &&& w = 131070) (h : Only w v s) : OnlyOut w v (execTrigForce a1 a2 s) := by
  unfold execTrigForce
  apply onlyOut_next
  repeat' (first | with_reducible assumption | intro _ | with_reducible apply busWrite_only (sub_trans rfl hw))

end Sys2Proof.Machine
end

