-- ==== Sys2Proof/Laws/OnlyEngine.lean ====
section
/-! SUPPORT. Machine/Engine.lean: which parts of the state each operation can change. -/

set_option linter.unusedVariables false
set_option linter.unusedTactic false
set_option linter.unreachableTactic false

namespace Sys2Proof.Machine

variable {w : Nat} {v s : State}

theorem execGainTableLoad_only (hw : 70192 &&& w = 70192) (h : Only w v s) : OnlyOut w v (execGainTableLoad s) := by
  unfold execGainTableLoad
  apply onlyOut_next
  repeat' (first | with_reducible assumption | intro _ | with_reducible apply only_foldl | with_reducible apply onCommand_only (sub_trans rfl hw) | with_reducible apply checked_only (sub_trans rfl hw) | with_reducible apply postOk_only (sub_trans rfl hw) | with_reducible apply State.modGainPt_only (sub_trans rfl hw) | dsimp only)

theorem execGainTableRead_only (hw : 69680 &&& w = 69680) (h : Only w v s) : OnlyOut w v (execGainTableRead s) := by
  unfold execGainTableRead
  apply onlyOut_next
  repeat' (first | with_reducible assumption | intro _ | with_reducible apply onCommand_only (sub_trans rfl hw) | with_reducible apply checked_only (sub_trans rfl hw) | with_reducible apply postOk_only (sub_trans rfl hw) | dsimp only)

theorem stageSets_only {a2} (hw : 512 &&& w = 512) (h : Only w v s) : Only w v (stageSets s a2) := by
  unfold stageSets
  repeat' (first | with_reducible assumption | intro _ | with_reducible apply only_ite | with_reducible apply only_foldl | with_reducible apply State.modLoop_only (sub_trans rfl hw) | dsimp only)

theorem scheduleSwaps_only {a2} (hw : 70192 &&& w = 70192) (h : Only w v s) : Only w v (scheduleSwaps s a2) := by
  unfold scheduleSwaps
  repeat' (first | with_reducible assumption | intro _ | with_reducible apply only_ite | with_reducible apply only_foldl | with_reducible apply State.modLoop_only (sub_trans rfl hw) | with_reducible apply postOk_only (sub_trans rfl hw) | with_reducible apply answerSwap_only (sub_trans rfl hw) | with_reducible apply waitFor_only (sub_trans rfl hw) | dsimp only)

theorem execCoefSwapStage_only (hw : 70192 &&& w = 70192) (h : Only w v s) : OnlyOut w v (execCoefSwapStage s) := by
  unfold execCoefSwapStage
  apply onlyOut_next
  repeat' (first | with_reducible assumption | intro _ | with_reducible apply onCommand_only (sub_trans rfl hw) | with_reducible apply checked_only (sub_trans rfl hw) | with_reducible apply postOk_only (sub_trans rfl hw) | with_reducible apply stageSets_only (sub_trans rfl hw) | dsimp only)

theorem execCoefSwapSwap_only (hw : 70192 &&& w = 70192) (h : Only w v s) : OnlyOut w v (execCoefSwapSwap s) := by
  unfold execCoefSwapSwap
  apply onlyOut_next
  repeat' (first | with_reducible assumption | intro _ | with_reducible apply onCommand_only (sub_trans rfl hw) | with_reducible apply checked_only (sub_trans rfl hw) | with_reducible apply scheduleSwaps_only (sub_trans rfl hw) | dsimp only)

theorem execCoefSwapStageSwap_only (hw : 70192 &&& w = 70192) (h : Only w v s) : OnlyOut w v (execCoefSwapStageSwap s) := by
  unfold execCoefSwapStageSwap
  apply onlyOut_next
  repeat' (first | with_reducible assumption | intro _ | with_reducible apply onCommand_only (sub_trans rfl hw) | with_reducible apply checked_only (sub_trans rfl hw) | with_reducible apply scheduleSwaps_only (sub_trans rfl hw) | with_reducible apply stageSets_only (sub_trans rfl hw) | dsimp only)

theorem execCoefSwapRead_only (hw : 69680 &&& w = 69680) (h : Only w v s) : OnlyOut w v (execCoefSwapRead s) := by
  unfold execCoefSwapRead
  apply onlyOut_next
  repeat' (first | with_reducible assumption | intro _ | with_reducible apply onCommand_only (sub_trans rfl hw) | with_reducible apply checked_only (sub_trans rfl hw) | with_reducible apply postOk_only (sub_trans rfl hw) | split | dsimp only)

theorem execRegionSetDefine_only (hw : 70192 &&& w = 70192) (h : Only w v s) : OnlyOut w v (execRegionSetDefine s) := by
  unfold execRegionSetDefine
  apply onlyOut_next
  repeat' (first | with_reducible assumption | intro _ | with_reducible apply only_ite | with_reducible apply only_foldl | with_reducible apply onCommand_only (sub_trans rfl hw) | with_reducible apply checked_only (sub_trans rfl hw) | with_reducible apply State.modLoop_only (sub_trans rfl hw) | with_reducible apply postOk_only (sub_trans rfl hw) | split | dsimp only)

theorem execRegionSetWrite_only (hw : 70192 &&& w = 70192) (h : Only w v s) : OnlyOut w v (execRegionSetWrite s) := by
  unfold execRegionSetWrite
  apply onlyOut_next
  repeat' (first | with_reducible assumption | intro _ | with_reducible apply only_ite | with_reducible apply only_foldl | with_reducible apply onCommand_only (sub_trans rfl hw) | with_reducible apply checked_only (sub_trans rfl hw) | with_reducible apply postOk_only (sub_trans rfl hw) | with_reducible apply State.modLoop_only (sub_trans rfl hw) | dsimp only)

theorem execRegionSetRead_only (hw : 69680 &&& w = 69680) (h : Only w v s) : OnlyOut w v (execRegionSetRead s) := by
  unfold execRegionSetRead
  apply onlyOut_next
  repeat' (first | with_reducible assumption | intro _ | with_reducible apply onCommand_only (sub_trans rfl hw) | with_reducible apply checked_only (sub_trans rfl hw) | with_reducible apply postOk_only (sub_trans rfl hw) | dsimp only)

theorem execProfileMove_only (hw : 72240 &&& w = 72240) (h : Only w v s) : OnlyOut w v (execProfileMove s) := by
  unfold execProfileMove
  apply onlyOut_next
  repeat' (first | with_reducible assumption | intro _ | with_reducible apply only_ite | with_reducible apply onCommand_only (sub_trans rfl hw) | with_reducible apply checked_only (sub_trans rfl hw) | with_reducible apply startSources_only (sub_trans rfl hw) | split | dsimp only)

theorem execProfileMoveEnd_only {a1} (hw : 73504 &&& w = 73504) (h : Only w v s) : OnlyOut w v (execProfileMoveEnd a1 s) := by
  unfold execProfileMoveEnd
  apply onlyOut_next
  repeat' (first | with_reducible assumption | intro _ | with_reducible apply only_ite | with_reducible apply endLoopRun_only (sub_trans rfl hw) | split | dsimp only)

theorem voidLoads_only {a2} (hw : 512 &&& w = 512) (h : Only w v s) : Only w v (voidLoads s a2) := by
  unfold voidLoads
  repeat' (first | with_reducible assumption | intro _ | with_reducible apply only_ite | (fail_if_no_progress with_reducible apply put_lp (sub_trans rfl hw)) | dsimp only)

theorem execWaveLoad_only (hw : 72240 &&& w = 72240) (h : Only w v s) : OnlyOut w v (execWaveLoad s) := by
  unfold execWaveLoad
  apply onlyOut_next
  repeat' (first | with_reducible assumption | intro _ | with_reducible apply only_ite | with_reducible apply onCommand_only (sub_trans rfl hw) | with_reducible apply checked_only (sub_trans rfl hw) | with_reducible apply voidLoads_only (sub_trans rfl hw) | with_reducible apply accept_only (sub_trans rfl hw) | with_reducible apply State.modWaveSeg_only (sub_trans rfl hw) | with_reducible apply endWork_only (sub_trans rfl hw) | (fail_if_no_progress with_reducible apply put_lp (sub_trans rfl hw)) | dsimp only)

theorem execWaveLoadDone_only {a1} (hw : 68128 &&& w = 68128) (h : Only w v s) : OnlyOut w v (execWaveLoadDone a1 s) := by
  unfold execWaveLoadDone
  apply onlyOut_next
  repeat' (first | with_reducible assumption | intro _ | with_reducible apply only_ite | with_reducible apply endWork_only (sub_trans rfl hw) | with_reducible apply State.modWaveSeg_only (sub_trans rfl hw) | (fail_if_no_progress with_reducible apply put_lp (sub_trans rfl hw)) | split | dsimp only)

theorem execWaveRunStart_only (hw : 72240 &&& w = 72240) (h : Only w v s) : OnlyOut w v (execWaveRunStart s) := by
  unfold execWaveRunStart
  apply onlyOut_next
  repeat' (first | with_reducible assumption | intro _ | with_reducible apply only_ite | with_reducible apply onCommand_only (sub_trans rfl hw) | with_reducible apply checked_only (sub_trans rfl hw) | with_reducible apply startSources_only (sub_trans rfl hw) | dsimp only)

theorem execWaveRunJump_only (hw : 70192 &&& w = 70192) (h : Only w v s) : OnlyOut w v (execWaveRunJump s) := by
  unfold execWaveRunJump
  apply onlyOut_next
  repeat' (first | with_reducible assumption | intro _ | with_reducible apply only_foldl | with_reducible apply onCommand_only (sub_trans rfl hw) | with_reducible apply checked_only (sub_trans rfl hw) | with_reducible apply postOk_only (sub_trans rfl hw) | with_reducible apply State.modLoop_only (sub_trans rfl hw) | split | dsimp only)

theorem execWaveRunStop_only (hw : 70192 &&& w = 70192) (h : Only w v s) : OnlyOut w v (execWaveRunStop s) := by
  unfold execWaveRunStop
  apply onlyOut_next
  repeat' (first | with_reducible assumption | intro _ | with_reducible apply only_foldl | with_reducible apply onCommand_only (sub_trans rfl hw) | with_reducible apply checked_only (sub_trans rfl hw) | with_reducible apply postOk_only (sub_trans rfl hw) | with_reducible apply State.modLoop_only (sub_trans rfl hw) | split | dsimp only)

theorem execWaveRunEnd_only {a1} (hw : 73504 &&& w = 73504) (h : Only w v s) : OnlyOut w v (execWaveRunEnd a1 s) := by
  unfold execWaveRunEnd
  apply onlyOut_next
  repeat' (first | with_reducible assumption | intro _ | with_reducible apply only_ite | with_reducible apply endLoopRun_only (sub_trans rfl hw) | split | dsimp only)

theorem execSineRunStart_only (hw : 72240 &&& w = 72240) (h : Only w v s) : OnlyOut w v (execSineRunStart s) := by
  unfold execSineRunStart
  apply onlyOut_next
  repeat' (first | with_reducible assumption | intro _ | with_reducible apply only_ite | with_reducible apply onCommand_only (sub_trans rfl hw) | with_reducible apply checked_only (sub_trans rfl hw) | with_reducible apply startSources_only (sub_trans rfl hw) | dsimp only)

theorem execSineRunChange_only (hw : 70192 &&& w = 70192) (h : Only w v s) : OnlyOut w v (execSineRunChange s) := by
  unfold execSineRunChange
  apply onlyOut_next
  repeat' (first | with_reducible assumption | intro _ | with_reducible apply only_ite | with_reducible apply only_foldl | with_reducible apply onCommand_only (sub_trans rfl hw) | with_reducible apply checked_only (sub_trans rfl hw) | with_reducible apply State.modLoop_only (sub_trans rfl hw) | with_reducible apply postOk_only (sub_trans rfl hw) | split | dsimp only)

theorem execSineRunStop_only (hw : 70192 &&& w = 70192) (h : Only w v s) : OnlyOut w v (execSineRunStop s) := by
  unfold execSineRunStop
  apply onlyOut_next
  repeat' (first | with_reducible assumption | intro _ | with_reducible apply only_ite | with_reducible apply only_foldl | with_reducible apply onCommand_only (sub_trans rfl hw) | with_reducible apply checked_only (sub_trans rfl hw) | with_reducible apply State.modLoop_only (sub_trans rfl hw) | with_reducible apply postOk_only (sub_trans rfl hw) | split | dsimp only)

theorem execSineChangeDue_only {a1} (hw : 516 &&& w = 516) (h : Only w v s) : OnlyOut w v (execSineChangeDue a1 s) := by
  unfold execSineChangeDue
  apply onlyOut_next
  repeat' (first | with_reducible assumption | intro _ | with_reducible apply sineChange_only (sub_trans rfl hw) | with_reducible apply State.reach_only (sub_trans rfl hw) | split | dsimp only)

theorem execSineCyclesEnd_only {a1} (hw : 512 &&& w = 512) (h : Only w v s) : OnlyOut w v (execSineCyclesEnd a1 s) := by
  unfold execSineCyclesEnd
  apply onlyOut_next
  repeat' (first | with_reducible assumption | intro _ | with_reducible apply only_ite | with_reducible apply State.modLoop_only (sub_trans rfl hw) | split | dsimp only)

theorem execSineRampEnd_only {a1} (hw : 73504 &&& w = 73504) (h : Only w v s) : OnlyOut w v (execSineRampEnd a1 s) := by
  unfold execSineRampEnd
  apply onlyOut_next
  repeat' (first | with_reducible assumption | intro _ | with_reducible apply only_ite | with_reducible apply endLoopRun_only (sub_trans rfl hw) | split | dsimp only)

end Sys2Proof.Machine
end

