-- ==== Sys2Proof/Laws/OnlyFaults.lean ====
section
/-! SUPPORT. Machine/Faults.lean: which parts of the state each operation can change. -/

set_option linter.unusedVariables false
set_option linter.unusedTactic false
set_option linter.unreachableTactic false

namespace Sys2Proof.Machine

variable {w : Nat} {v s : State}

theorem execFaultConfig_only (hw : 69680 &&& w = 69680) (h : Only w v s) : OnlyOut w v (execFaultConfig s) := by
  unfold execFaultConfig
  apply onlyOut_next
  repeat' (first | with_reducible assumption | intro _ | with_reducible apply only_foldl | with_reducible apply onCommand_only (sub_trans rfl hw) | with_reducible apply checked_only (sub_trans rfl hw) | with_reducible apply State.setReact_only (sub_trans rfl hw) | with_reducible apply postOk_only (sub_trans rfl hw) | dsimp only)

theorem execFaultConfigRead_only (hw : 69680 &&& w = 69680) (h : Only w v s) : OnlyOut w v (execFaultConfigRead s) := by
  unfold execFaultConfigRead
  apply onlyOut_next
  repeat' (first | with_reducible assumption | intro _ | with_reducible apply onCommand_only (sub_trans rfl hw) | with_reducible apply checked_only (sub_trans rfl hw) | with_reducible apply postOk_only (sub_trans rfl hw) | dsimp only)

theorem execFaultForce_only (hw : 69694 &&& w = 69694) (h : Only w v s) : OnlyOut w v (execFaultForce s) := by
  unfold execFaultForce
  apply onlyOut_next
  repeat' (first | with_reducible assumption | intro _ | with_reducible apply only_ite | with_reducible apply onCommand_only (sub_trans rfl hw) | with_reducible apply checked_only (sub_trans rfl hw) | with_reducible apply fireForced_only (sub_trans rfl hw) | with_reducible apply postOk_only (sub_trans rfl hw) | (fail_if_no_progress with_reducible apply put_flt (sub_trans rfl hw)) | dsimp only)

theorem execPerturbSet_only (hw : 69680 &&& w = 69680) (h : Only w v s) : OnlyOut w v (execPerturbSet s) := by
  unfold execPerturbSet
  apply onlyOut_next
  repeat' (first | with_reducible assumption | intro _ | with_reducible apply only_ite | with_reducible apply onCommand_only (sub_trans rfl hw) | with_reducible apply checked_only (sub_trans rfl hw) | with_reducible apply postOk_only (sub_trans rfl hw) | with_reducible apply State.modPert_only (sub_trans rfl hw) | dsimp only)

theorem execPerturbSetRead_only (hw : 69680 &&& w = 69680) (h : Only w v s) : OnlyOut w v (execPerturbSetRead s) := by
  unfold execPerturbSetRead
  apply onlyOut_next
  repeat' (first | with_reducible assumption | intro _ | with_reducible apply onCommand_only (sub_trans rfl hw) | with_reducible apply checked_only (sub_trans rfl hw) | with_reducible apply postOk_only (sub_trans rfl hw) | dsimp only)

theorem execPerturbWindowStart_only {a1} (hw : 98084 &&& w = 98084) (h : Only w v s) : OnlyOut w v (execPerturbWindowStart a1 s) := by
  unfold execPerturbWindowStart
  apply onlyOut_next
  repeat' (first | with_reducible assumption | intro _ | with_reducible apply only_ite | with_reducible apply endWindow_only (sub_trans rfl hw) | with_reducible apply State.reach_only (sub_trans rfl hw) | with_reducible apply State.modPert_only (sub_trans rfl hw) | split | dsimp only)

theorem execPerturbWindowEnd_only {a1} (hw : 98084 &&& w = 98084) (h : Only w v s) : OnlyOut w v (execPerturbWindowEnd a1 s) := by
  unfold execPerturbWindowEnd
  apply onlyOut_next
  repeat' (first | with_reducible assumption | intro _ | with_reducible apply only_ite | with_reducible apply endWindow_only (sub_trans rfl hw) | with_reducible apply State.reach_only (sub_trans rfl hw))

theorem execFaultRegister_only {a1} {a2} (hw : 131070 &&& w = 131070) (h : Only w v s) : OnlyOut w v (execFaultRegister a1 a2 s) := by
  unfold execFaultRegister
  apply onlyOut_next
  repeat' (first | with_reducible assumption | intro _ | with_reducible apply only_ite | with_reducible apply directFaults_only (sub_trans rfl hw) | with_reducible apply fireForced_only (sub_trans rfl hw) | with_reducible apply registerCycle_only (sub_trans rfl hw) | split | dsimp only)

theorem execErrnPulseEnd_only (hw : 12 &&& w = 12) (h : Only w v s) : OnlyOut w v (execErrnPulseEnd s) := by
  unfold execErrnPulseEnd
  apply onlyOut_next
  repeat' (first | with_reducible assumption | intro _ | with_reducible apply State.reach_only (sub_trans rfl hw) | (fail_if_no_progress with_reducible apply put_bus (sub_trans rfl hw)) | split | dsimp only)

theorem runsAtEdge_only {a2} (hw : 1536 &&& w = 1536) (h : Only w v s) : Only w v (runsAtEdge s a2) := by
  unfold runsAtEdge
  repeat' (first | with_reducible assumption | intro _ | with_reducible apply only_foldl | with_reducible apply ofst_foldl | with_reducible apply ofoldl_fst | with_reducible apply State.modLoop_only (sub_trans rfl hw) | with_reducible apply State.modAvg_only (sub_trans rfl hw) | with_reducible apply modTimRun_only (sub_trans rfl hw) | dsimp only)

theorem execTinEdge_only {a1} {a2} (hw : 73512 &&& w = 73512) (h : Only w v s) : OnlyOut w v (execTinEdge a1 a2 s) := by
  unfold execTinEdge
  apply onlyOut_next
  repeat' (first | with_reducible assumption | intro _ | with_reducible apply only_ite | with_reducible apply State.modTin_only (sub_trans rfl hw) | with_reducible apply State.noteSet_only (sub_trans rfl hw) | with_reducible apply State.noteAdd_only (sub_trans rfl hw) | with_reducible apply unitEdges_only (sub_trans rfl hw) | with_reducible apply runsAtEdge_only (sub_trans rfl hw) | with_reducible apply tinReleases_only (sub_trans rfl hw) | dsimp only)

end Sys2Proof.Machine
end

