-- ==== Sys2Proof/Laws/OnlyHarvest.lean ====
section
/-! SUPPORT. Machine/Harvest.lean: which parts of the state each operation can change. -/

set_option linter.unusedVariables false
set_option linter.unusedTactic false
set_option linter.unreachableTactic false

namespace Sys2Proof.Machine

variable {w : Nat} {v s : State}

theorem execRingCreate_only (hw : 71728 &&& w = 71728) (h : Only w v s) : OnlyOut w v (execRingCreate s) := by
  unfold execRingCreate
  apply onlyOut_next
  repeat' (first | with_reducible assumption | intro _ | with_reducible apply onCommand_only (sub_trans rfl hw) | with_reducible apply checked_only (sub_trans rfl hw) | with_reducible apply State.modRing_only (sub_trans rfl hw) | with_reducible apply postOk_only (sub_trans rfl hw) | dsimp only)

theorem destroyRing_only {a2} (hw : 81456 &&& w = 81456) (h : Only w v s) : Only w v (destroyRing s a2) := by
  unfold destroyRing
  repeat' (first | with_reducible assumption | intro _ | with_reducible apply only_ite | with_reducible apply only_foldl | with_reducible apply State.modRing_only (sub_trans rfl hw) | with_reducible apply State.modLoop_only (sub_trans rfl hw) | with_reducible apply State.modWmon_only (sub_trans rfl hw) | with_reducible apply State.modStage_only (sub_trans rfl hw) | with_reducible apply postOk_only (sub_trans rfl hw) | dsimp only)

theorem drainCheck_only (hw : 81456 &&& w = 81456) (h : Only w v s) : Only w v (drainCheck s) := by
  unfold drainCheck
  repeat' (first | with_reducible assumption | intro _ | with_reducible apply only_ite | with_reducible apply destroyRing_only (sub_trans rfl hw) | split | dsimp only)

theorem execRingDestroy_only (hw : 81456 &&& w = 81456) (h : Only w v s) : OnlyOut w v (execRingDestroy s) := by
  unfold execRingDestroy
  apply onlyOut_next
  repeat' (first | with_reducible assumption | intro _ | with_reducible apply onCommand_only (sub_trans rfl hw) | with_reducible apply checked_only (sub_trans rfl hw) | with_reducible apply drainCheck_only (sub_trans rfl hw) | with_reducible apply waitFor_only (sub_trans rfl hw) | with_reducible apply State.modRing_only (sub_trans rfl hw) | dsimp only)

theorem dropWaiter_only {a2} {a3} (hw : 73504 &&& w = 73504) (h : Only w v s) : Only w v (dropWaiter s a2 a3) := by
  unfold dropWaiter
  repeat' (first | with_reducible assumption | intro _ | with_reducible apply only_ite | with_reducible apply modMeasRun_only (sub_trans rfl hw) | with_reducible apply dropRecord_only (sub_trans rfl hw) | with_reducible apply drainStamps_only (sub_trans rfl hw) | with_reducible apply modWin_only (sub_trans rfl hw) | split | dsimp only)

theorem setPolicy_only {a2} {a3} (hw : 73504 &&& w = 73504) (h : Only w v s) : Only w v (setPolicy s a2 a3) := by
  unfold setPolicy
  repeat' (first | with_reducible assumption | intro _ | with_reducible apply only_ite | with_reducible apply only_foldl | with_reducible apply ofst_foldl | with_reducible apply ofoldl_fst | with_reducible apply State.modRing_only (sub_trans rfl hw) | with_reducible apply dropWaiter_only (sub_trans rfl hw) | with_reducible apply retryEnds_only (sub_trans rfl hw) | split | dsimp only)

theorem setNotify_only {a2} {a3} {a4} (hw : 71680 &&& w = 71680) (h : Only w v s) : Only w v (setNotify s a2 a3 a4) := by
  unfold setNotify
  repeat' (first | with_reducible assumption | intro _ | with_reducible apply notifyUnitsCheck_only (sub_trans rfl hw) | with_reducible apply State.modRing_only (sub_trans rfl hw) | dsimp only)

theorem ringPolicyOn_only {a2} (hw : 73520 &&& w = 73520) (h : Only w v s) : Only w v (ringPolicyOn s a2) := by
  unfold ringPolicyOn
  repeat' (first | with_reducible assumption | intro _ | with_reducible apply only_ite | with_reducible apply only_foldl | with_reducible apply checked_only (sub_trans rfl hw) | with_reducible apply setPolicy_only (sub_trans rfl hw) | with_reducible apply setNotify_only (sub_trans rfl hw) | with_reducible apply postOk_only (sub_trans rfl hw) | dsimp only)

theorem execRingPolicy_only (hw : 73520 &&& w = 73520) (h : Only w v s) : OnlyOut w v (execRingPolicy s) := by
  unfold execRingPolicy
  apply onlyOut_next
  repeat' (first | with_reducible assumption | intro _ | with_reducible apply onCommand_only (sub_trans rfl hw) | with_reducible apply ringPolicyOn_only (sub_trans rfl hw) | dsimp only)

theorem execRingPolicyRead_only (hw : 73520 &&& w = 73520) (h : Only w v s) : OnlyOut w v (execRingPolicyRead s) := by
  unfold execRingPolicyRead
  apply onlyOut_next
  repeat' (first | with_reducible assumption | intro _ | with_reducible apply onCommand_only (sub_trans rfl hw) | with_reducible apply ringPolicyOn_only (sub_trans rfl hw) | dsimp only)

theorem execBankHandoffTimeout_only {a1} (hw : 2052 &&& w = 2052) (h : Only w v s) : OnlyOut w v (execBankHandoffTimeout a1 s) := by
  unfold execBankHandoffTimeout
  apply onlyOut_next
  repeat' (first | with_reducible assumption | intro _ | with_reducible apply only_ite | with_reducible apply handOver_only (sub_trans rfl hw) | with_reducible apply State.reach_only (sub_trans rfl hw) | split | dsimp only)

theorem poisonRecord_only {a2} {a3} (hw : 2304 &&& w = 2304) (h : Only w v s) : Only w v (poisonRecord s a2 a3) := by
  unfold poisonRecord
  repeat' (first | with_reducible assumption | intro _ | with_reducible apply only_ite | with_reducible apply ringWrite_only (sub_trans rfl hw) | with_reducible apply State.modStager_only (sub_trans rfl hw) | dsimp only)

theorem badParity_only {a2} {a3} (hw : 67840 &&& w = 67840) (h : Only w v s) : Only w v (badParity s a2 a3) := by
  unfold badParity
  repeat' (first | with_reducible assumption | intro _ | with_reducible apply only_ite | with_reducible apply poisonRecord_only (sub_trans rfl hw) | with_reducible apply State.raise_only (sub_trans rfl hw) | split | dsimp only)

theorem execDramBurstResponse_only {a1} {a2} {a3} (hw : 81712 &&& w = 81712) (h : Only w v s) : OnlyOut w v (execDramBurstResponse a1 a2 a3 s) := by
  unfold execDramBurstResponse
  apply onlyOut_next
  repeat' (first | with_reducible assumption | intro _ | with_reducible apply only_ite | with_reducible apply badParity_only (sub_trans rfl hw) | with_reducible apply drainCheck_only (sub_trans rfl hw) | with_reducible apply burstAcked_only (sub_trans rfl hw) | with_reducible apply burstFailed_only (sub_trans rfl hw) | split | dsimp only)

theorem execNotifyTimeout_only {a1} (hw : 71684 &&& w = 71684) (h : Only w v s) : OnlyOut w v (execNotifyTimeout a1 s) := by
  unfold execNotifyTimeout
  apply onlyOut_next
  repeat' (first | with_reducible assumption | intro _ | with_reducible apply only_ite | with_reducible apply sendNotify_only (sub_trans rfl hw) | with_reducible apply State.reach_only (sub_trans rfl hw) | split | dsimp only)

end Sys2Proof.Machine
end

