-- ==== Sys2Proof/Laws/OnlyMsgOps.lean ====
section
/-! SUPPORT. Machine/MsgOps.lean: which parts of the state each operation can change. -/

set_option linter.unusedVariables false
set_option linter.unusedTactic false
set_option linter.unreachableTactic false

namespace Sys2Proof.Machine

variable {w : Nat} {v s : State}

theorem takeRequest_only {a2} (hw : 4096 &&& w = 4096) (h : Only w v s) : Only w v (takeRequest s a2) := by
  unfold takeRequest
  repeat' (first | with_reducible assumption | intro _ | (fail_if_no_progress with_reducible apply put_link (sub_trans rfl hw)) | split | dsimp only)

theorem startMessage_only {a2} {a3} (hw : 4096 &&& w = 4096) (h : Only w v s) : Only w v (startMessage s a2 a3) := by
  unfold startMessage
  repeat' (first | with_reducible assumption | intro _ | with_reducible apply State.modCls_only (sub_trans rfl hw) | split | dsimp only)

theorem sendFlit_only {a2} {a3} (hw : 4096 &&& w = 4096) (h : Only w v s) : Only w v (sendFlit s a2 a3) := by
  unfold sendFlit
  repeat' (first | with_reducible assumption | intro _ | with_reducible apply only_ite | with_reducible apply State.modCls_only (sub_trans rfl hw) | with_reducible apply State.modPort_only (sub_trans rfl hw) | with_reducible apply startMessage_only (sub_trans rfl hw) | with_reducible apply freeCredit_only (sub_trans rfl hw) | split | dsimp only)

theorem flushClass_only {a2} {a3} (hw : 4096 &&& w = 4096) (h : Only w v s) : Only w v (flushClass s a2 a3) := by
  unfold flushClass
  repeat' (first | with_reducible assumption | intro _ | with_reducible apply only_foldl | with_reducible apply sendFlit_only (sub_trans rfl hw) | dsimp only)

theorem readMessage_only {a2} {a3} (hw : 71692 &&& w = 71692) (h : Only w v s) : Only w v (readMessage s a2 a3) := by
  unfold readMessage
  repeat' (first | with_reducible assumption | intro _ | with_reducible apply only_ite | with_reducible apply busRead_only (sub_trans rfl hw) | with_reducible apply respond_only (sub_trans rfl hw) | dsimp only)

theorem burstWords_only {a2 : Nat} (hw : 67584 &&& w = 67584) (h : Only w v s) : ∀ {n : Nat}, OnlyFst w v (burstWords s a2 n)
  | 0 => h
  | n + 1 => by
    unfold burstWords
    exact readEffect_only (sub_trans rfl hw) (only_of_fst (burstWords_only (a2 := a2) hw h (n := n)))

theorem burstMessage_only {a2} {a3} {a4} (hw : 71692 &&& w = 71692) (h : Only w v s) : Only w v (burstMessage s a2 a3 a4) := by
  unfold burstMessage
  repeat' (first | with_reducible assumption | intro _ | with_reducible apply only_ite | with_reducible apply ofst_ite | with_reducible apply respond_only (sub_trans rfl hw) | with_reducible apply busDone_only (sub_trans rfl hw) | with_reducible apply unmapped_only (sub_trans rfl hw) | with_reducible apply busTurn_only (sub_trans rfl hw) | with_reducible apply burstWords_only (sub_trans rfl hw) | with_reducible refine only_of_fst (burstWords_only (sub_trans rfl hw) ?_) | with_reducible refine only_fst (by with_reducible assumption) (burstWords_only (sub_trans rfl hw) ?_) | with_reducible apply State.reach_only (sub_trans rfl hw) | split | with_reducible apply ofst_mk | with_reducible refine only_fst (by with_reducible assumption) ?_ | dsimp only)

theorem writeWords_only (hw : 131070 &&& w = 131070) : ∀ {l : List Word} {a2 : Nat} {s : State}, Only w v s → Only w v (writeWords s a2 l)
  | [], _, _, h => h
  | x :: q, a2, s, h => by
    have h1 : Only w v (writeWord (busTurn s .host) .host a2 x) :=
      writeWord_only (sub_trans rfl hw) (busTurn_only (sub_trans rfl hw) h)
    unfold writeWords
    dsimp only
    split
    · exact h1
    · refine writeWords_only hw (l := q) ?_
      split
      · exact h1
      · exact busDone_only (sub_trans rfl hw) h1

theorem takeAddress_only {a2} {a3} {a4} (hw : 4096 &&& w = 4096) (h : Only w v s) : OnlyFst w v (takeAddress s a2 a3 a4) := by
  unfold takeAddress
  repeat' (first | with_reducible assumption | intro _ | with_reducible apply only_ite | with_reducible apply ofst_ite | (fail_if_no_progress with_reducible apply put_link (sub_trans rfl hw)) | with_reducible apply ofst_mk | dsimp only)

theorem writeMessage_only {a2} {a3} {a4} (hw : 131070 &&& w = 131070) (h : Only w v s) : Only w v (writeMessage s a2 a3 a4) := by
  unfold writeMessage
  repeat' (first | with_reducible assumption | intro _ | with_reducible apply only_ite | with_reducible apply ofst_ite | with_reducible apply respond_only (sub_trans rfl hw) | with_reducible apply busDone_only (sub_trans rfl hw) | with_reducible apply unmapped_only (sub_trans rfl hw) | with_reducible apply busTurn_only (sub_trans rfl hw) | with_reducible apply takeAddress_only (sub_trans rfl hw) | with_reducible refine only_of_fst (takeAddress_only (sub_trans rfl hw) ?_) | with_reducible refine only_fst (by with_reducible assumption) (takeAddress_only (sub_trans rfl hw) ?_) | with_reducible apply writeWords_only (sub_trans rfl hw) | with_reducible apply State.modPort_only (sub_trans rfl hw) | with_reducible apply flushClass_only (sub_trans rfl hw) | split | with_reducible apply ofst_mk | with_reducible refine only_fst (by with_reducible assumption) ?_ | dsimp only)

theorem answerBell_only {a2} {a3} {a4} {a5} (hw : 69632 &&& w = 69632) (h : Only w v s) : Only w v (answerBell s a2 a3 a4 a5) := by
  unfold answerBell
  repeat' (first | with_reducible assumption | intro _ | with_reducible apply only_ite | with_reducible apply respond_only (sub_trans rfl hw))

theorem postMessage_only {a2} {a3} {a4} (hw : 69660 &&& w = 69660) (h : Only w v s) : Only w v (postMessage s a2 a3 a4) := by
  unfold postMessage
  repeat' (first | with_reducible assumption | intro _ | with_reducible apply only_ite | with_reducible apply only_foldl | with_reducible apply ofst_ite | with_reducible apply ofst_foldl | with_reducible apply ofoldl_fst | with_reducible apply respond_only (sub_trans rfl hw) | with_reducible apply busTurn_only (sub_trans rfl hw) | with_reducible apply State.modMbx_only (sub_trans rfl hw) | with_reducible apply ringDoorbell_only (sub_trans rfl hw) | with_reducible refine only_of_fst (ringDoorbell_only (sub_trans rfl hw) ?_) | with_reducible refine only_fst (by with_reducible assumption) (ringDoorbell_only (sub_trans rfl hw) ?_) | with_reducible apply answerBell_only (sub_trans rfl hw) | with_reducible apply busDone_only (sub_trans rfl hw) | split | with_reducible apply ofst_mk | with_reducible refine only_fst (by with_reducible assumption) ?_ | dsimp only)

theorem bellMessage_only {a2} {a3} (hw : 69660 &&& w = 69660) (h : Only w v s) : Only w v (bellMessage s a2 a3) := by
  unfold bellMessage
  repeat' (first | with_reducible assumption | intro _ | with_reducible apply only_ite | with_reducible apply ofst_ite | with_reducible apply respond_only (sub_trans rfl hw) | with_reducible apply ringDoorbell_only (sub_trans rfl hw) | with_reducible refine only_of_fst (ringDoorbell_only (sub_trans rfl hw) ?_) | with_reducible refine only_fst (by with_reducible assumption) (ringDoorbell_only (sub_trans rfl hw) ?_) | with_reducible apply busTurn_only (sub_trans rfl hw) | with_reducible apply answerBell_only (sub_trans rfl hw) | with_reducible apply busDone_only (sub_trans rfl hw) | split | with_reducible apply ofst_mk | with_reducible refine only_fst (by with_reducible assumption) ?_ | dsimp only)

theorem wakeDram_only (hw : 4 &&& w = 4) (h : Only w v s) : Only w v (wakeDram s) := by
  unfold wakeDram
  repeat' (first | with_reducible assumption | intro _ | (fail_if_no_progress with_reducible apply put_clk (sub_trans rfl hw)))

theorem bulkReadMessage_only {a2} {a3} {a4} (hw : 69636 &&& w = 69636) (h : Only w v s) : Only w v (bulkReadMessage s a2 a3 a4) := by
  unfold bulkReadMessage
  repeat' (first | with_reducible assumption | intro _ | with_reducible apply only_ite | with_reducible apply respond_only (sub_trans rfl hw) | with_reducible apply wakeDram_only (sub_trans rfl hw) | split | dsimp only)

theorem dramStore_only {a2} {a3} (hw : 256 &&& w = 256) (h : Only w v s) : Only w v (dramStore s a2 a3) := by
  unfold dramStore
  repeat' (first | with_reducible assumption | intro _ | (fail_if_no_progress with_reducible apply put_pat (sub_trans rfl hw)) | dsimp only)

theorem bulkWriteMessage_only {a2} {a3} {a4} (hw : 69892 &&& w = 69892) (h : Only w v s) : Only w v (bulkWriteMessage s a2 a3 a4) := by
  unfold bulkWriteMessage
  repeat' (first | with_reducible assumption | intro _ | with_reducible apply only_ite | with_reducible apply only_foldl | with_reducible apply respond_only (sub_trans rfl hw) | with_reducible apply State.modSegm_only (sub_trans rfl hw) | with_reducible apply startFetch_only (sub_trans rfl hw) | with_reducible apply wakeDram_only (sub_trans rfl hw) | with_reducible apply dramStore_only (sub_trans rfl hw) | split | dsimp only)

theorem releaseMessage_only {a2} {a3} {a4} {a5} (hw : 73504 &&& w = 73504) (h : Only w v s) : Only w v (releaseMessage s a2 a3 a4 a5) := by
  unfold releaseMessage
  repeat' (first | with_reducible assumption | intro _ | with_reducible apply only_ite | with_reducible apply ofst_ite | with_reducible apply respond_only (sub_trans rfl hw) | with_reducible apply releaseRing_only (sub_trans rfl hw) | with_reducible refine only_of_fst (releaseRing_only (sub_trans rfl hw) ?_) | with_reducible refine only_fst (by with_reducible assumption) (releaseRing_only (sub_trans rfl hw) ?_) | split | with_reducible apply ofst_mk | with_reducible refine only_fst (by with_reducible assumption) ?_ | dsimp only)

theorem doRequest_only {a2} (hw : 131070 &&& w = 131070) (h : Only w v s) : Only w v (doRequest s a2) := by
  unfold doRequest
  repeat' (first | with_reducible assumption | intro _ | with_reducible apply readMessage_only (sub_trans rfl hw) | with_reducible apply writeMessage_only (sub_trans rfl hw) | with_reducible apply burstMessage_only (sub_trans rfl hw) | with_reducible apply postMessage_only (sub_trans rfl hw) | with_reducible apply bellMessage_only (sub_trans rfl hw) | with_reducible apply bulkReadMessage_only (sub_trans rfl hw) | with_reducible apply bulkWriteMessage_only (sub_trans rfl hw) | with_reducible apply releaseMessage_only (sub_trans rfl hw) | split | dsimp only)

end Sys2Proof.Machine
end

