-- ==== Sys2Proof/Laws/OnlyFlitOps.lean ====
section
/-! SUPPORT. Machine/FlitOps.lean: which parts of the state each operation can change. -/

set_option linter.unusedVariables false
set_option linter.unusedTactic false
set_option linter.unreachableTactic false

namespace Sys2Proof.Machine

variable {w : Nat} {v s : State}

theorem misroute_only {a2} {a3} {a4} (hw : 65536 &&& w = 65536) (h : Only w v s) : Only w v (misroute s a2 a3 a4) := by
  unfold misroute
  repeat' (first | with_reducible assumption | intro _ | with_reducible apply State.raise_only (sub_trans rfl hw))

theorem urgentArrives_only {a2} {a3} (hw : 81906 &&& w = 81906) (h : Only w v s) : Only w v (urgentArrives s a2 a3) := by
  unfold urgentArrives
  repeat' (first | with_reducible assumption | intro _ | with_reducible apply only_ite | with_reducible apply clocheChain_only (sub_trans rfl hw) | with_reducible apply enqueueFrom_only (sub_trans rfl hw) | dsimp only)

theorem consumeRequest_only {a2} (hw : 69632 &&& w = 69632) (h : Only w v s) : Only w v (consumeRequest s a2) := by
  unfold consumeRequest
  repeat' (first | with_reducible assumption | intro _ | with_reducible apply respond_only (sub_trans rfl hw) | (fail_if_no_progress with_reducible apply put_link (sub_trans rfl hw)) | split | dsimp only)

theorem routeMessage_only {a2} {a3} {a4} (hw : 81906 &&& w = 81906) (h : Only w v s) : OnlyFst w v (routeMessage s a2 a3 a4) := by
  unfold routeMessage
  repeat' (first | with_reducible assumption | intro _ | with_reducible apply only_ite | with_reducible apply ofst_ite | with_reducible apply misroute_only (sub_trans rfl hw) | with_reducible apply urgentArrives_only (sub_trans rfl hw) | with_reducible apply enqueueFrom_only (sub_trans rfl hw) | with_reducible apply respond_only (sub_trans rfl hw) | with_reducible apply consumeRequest_only (sub_trans rfl hw) | (fail_if_no_progress with_reducible apply put_link (sub_trans rfl hw)) | split | with_reducible apply ofst_mk | with_reducible refine only_fst (by with_reducible assumption) ?_ | dsimp only)

theorem messageDone_only {a2} {a3} {a4} (hw : 81906 &&& w = 81906) (h : Only w v s) : Only w v (messageDone s a2 a3 a4) := by
  unfold messageDone
  repeat' (first | with_reducible assumption | intro _ | with_reducible apply only_ite | with_reducible apply ofst_ite | with_reducible apply routeMessage_only (sub_trans rfl hw) | with_reducible refine only_of_fst (routeMessage_only (sub_trans rfl hw) ?_) | with_reducible refine only_fst (by with_reducible assumption) (routeMessage_only (sub_trans rfl hw) ?_) | with_reducible apply freeCredit_only (sub_trans rfl hw) | with_reducible apply misroute_only (sub_trans rfl hw) | split | with_reducible apply ofst_mk | with_reducible refine only_fst (by with_reducible assumption) ?_ | dsimp only)

theorem acceptFlit_only {a2} {a3} {a4} (hw : 81906 &&& w = 81906) (h : Only w v s) : Only w v (acceptFlit s a2 a3 a4) := by
  unfold acceptFlit
  repeat' (first | with_reducible assumption | intro _ | with_reducible apply only_ite | with_reducible apply State.modCls_only (sub_trans rfl hw) | with_reducible apply State.modPort_only (sub_trans rfl hw) | with_reducible apply freeCredit_only (sub_trans rfl hw) | with_reducible apply messageDone_only (sub_trans rfl hw) | dsimp only)

theorem receiveData_only {a2} {a3} {a4} (hw : 81906 &&& w = 81906) (h : Only w v s) : Only w v (receiveData s a2 a3 a4) := by
  unfold receiveData
  repeat' (first | with_reducible assumption | intro _ | with_reducible apply only_ite | with_reducible apply acceptFlit_only (sub_trans rfl hw) | with_reducible apply State.modPort_only (sub_trans rfl hw) | with_reducible apply State.modCls_only (sub_trans rfl hw) | dsimp only)

theorem replayClass_only {a2} {a3} (hw : 98104 &&& w = 98104) (h : Only w v s) : Only w v (replayClass s a2 a3) := by
  unfold replayClass
  repeat' (first | with_reducible assumption | intro _ | with_reducible apply only_ite | with_reducible apply State.modCls_only (sub_trans rfl hw) | with_reducible apply State.raise_only (sub_trans rfl hw) | with_reducible apply linkPortReset_only (sub_trans rfl hw) | dsimp only)

theorem creditBack_only {a2} {a3} (hw : 69632 &&& w = 69632) (h : Only w v s) : Only w v (creditBack s a2 a3) := by
  unfold creditBack
  repeat' (first | with_reducible assumption | intro _ | with_reducible apply only_ite | with_reducible apply State.modCls_only (sub_trans rfl hw) | with_reducible apply State.live_only (sub_trans rfl hw) | dsimp only)

theorem takeAck_only {a2} {a3} {a4} (hw : 98104 &&& w = 98104) (h : Only w v s) : Only w v (takeAck s a2 a3 a4) := by
  unfold takeAck
  repeat' (first | with_reducible assumption | intro _ | with_reducible apply only_ite | with_reducible apply State.modCls_only (sub_trans rfl hw) | with_reducible apply creditBack_only (sub_trans rfl hw) | with_reducible apply replayClass_only (sub_trans rfl hw) | split | dsimp only)

theorem timeCheck_only {a2} {a3} (hw : 69640 &&& w = 69640) (h : Only w v s) : Only w v (timeCheck s a2 a3) := by
  unfold timeCheck
  repeat' (first | with_reducible assumption | intro _ | with_reducible apply only_ite | with_reducible apply State.noteSet_only (sub_trans rfl hw) | with_reducible apply State.condition_only (sub_trans rfl hw) | (fail_if_no_progress with_reducible apply put_link (sub_trans rfl hw)) | dsimp only)

theorem delayAnswer_only {a2} {a3} (hw : 4096 &&& w = 4096) (h : Only w v s) : Only w v (delayAnswer s a2 a3) := by
  unfold delayAnswer
  repeat' (first | with_reducible assumption | intro _ | (fail_if_no_progress with_reducible apply put_link (sub_trans rfl hw)) | split | dsimp only)

theorem receiveCtrl_only {a2} {a3} {a4} {a5} (hw : 98104 &&& w = 98104) (h : Only w v s) : Only w v (receiveCtrl s a2 a3 a4 a5) := by
  unfold receiveCtrl
  repeat' (first | with_reducible assumption | intro _ | with_reducible apply only_ite | with_reducible apply only_foldl | with_reducible apply takeAck_only (sub_trans rfl hw) | with_reducible apply State.modPort_only (sub_trans rfl hw) | with_reducible apply delayAnswer_only (sub_trans rfl hw) | with_reducible apply linkPortReset_only (sub_trans rfl hw) | with_reducible apply timeCheck_only (sub_trans rfl hw) | (fail_if_no_progress with_reducible apply put_link (sub_trans rfl hw)) | dsimp only)

theorem sendCtrl_only {a2} {a3} {a4} (hw : 4096 &&& w = 4096) (h : Only w v s) : Only w v (sendCtrl s a2 a3 a4) := by
  unfold sendCtrl
  repeat' (first | with_reducible assumption | intro _ | with_reducible apply only_foldl | with_reducible apply State.modCls_only (sub_trans rfl hw) | with_reducible apply State.modPort_only (sub_trans rfl hw) | dsimp only)

theorem sendDelayRsp_only {a2} (hw : 4098 &&& w = 4098) (h : Only w v s) : Only w v (sendDelayRsp s a2) := by
  unfold sendDelayRsp
  repeat' (first | with_reducible assumption | intro _ | with_reducible apply sendCtrl_only (sub_trans rfl hw) | with_reducible apply State.takeFree_only (sub_trans rfl hw) | with_reducible apply State.modPort_only (sub_trans rfl hw) | dsimp only)

theorem pickClass_only {a2} (hw : 4096 &&& w = 4096) (h : Only w v s) : ∀ t x, pickClass s a2 = some (t, x) → Only w v t := by
  intro t x e
  unfold pickClass at e
  (try dsimp only at e)
  repeat' (split at e)
  all_goals (first | cases e | skip)
  all_goals (try cases e)
  all_goals (repeat' (first | with_reducible assumption | intro _ | with_reducible apply only_foldl | with_reducible apply State.modCls_only (sub_trans rfl hw) | split | dsimp only))

theorem fillSlot_only {a2} (hw : 4098 &&& w = 4098) (h : Only w v s) : Only w v (fillSlot s a2) := by
  unfold fillSlot
  repeat' (first | with_reducible assumption | intro _ | with_reducible apply only_ite | with_reducible apply ofst_ite | with_reducible apply sendFlit_only (sub_trans rfl hw) | with_reducible apply sendDelayRsp_only (sub_trans rfl hw) | with_reducible apply sendCtrl_only (sub_trans rfl hw) | with_reducible refine pickClass_only (sub_trans rfl hw) ?_ _ _ (by with_reducible assumption) | with_reducible apply State.modPort_only (sub_trans rfl hw) | split | with_reducible apply ofst_mk | with_reducible refine only_fst (by with_reducible assumption) ?_ | dsimp only)

theorem slotTaken_only {a2} (hw : 4096 &&& w = 4096) (h : Only w v s) : Only w v (slotTaken s a2) := by
  unfold slotTaken
  repeat' (first | with_reducible assumption | intro _ | with_reducible apply State.modPort_only (sub_trans rfl hw) | dsimp only)

theorem tickPort_only {a2} (hw : 4098 &&& w = 4098) (h : Only w v s) : Only w v (tickPort s a2) := by
  unfold tickPort
  repeat' (first | with_reducible assumption | intro _ | with_reducible apply only_ite | with_reducible apply sendCtrl_only (sub_trans rfl hw) | with_reducible apply State.modPort_only (sub_trans rfl hw) | with_reducible apply slotTaken_only (sub_trans rfl hw) | with_reducible apply fillSlot_only (sub_trans rfl hw) | with_reducible apply sendDelayRsp_only (sub_trans rfl hw) | dsimp only)

end Sys2Proof.Machine
end

