-- ==== Sys2Proof/Laws/OnlyLink.lean ====
section
/-! SUPPORT. Machine/Link.lean: which parts of the state each operation can change. -/

set_option linter.unusedVariables false
set_option linter.unusedTactic false
set_option linter.unreachableTactic false

namespace Sys2Proof.Machine

variable {w : Nat} {v s : State}

theorem execDataFlitReceive_only {a1} {a2} {a3} (hw : 81906 &&& w = 81906) (h : Only w v s) : OnlyOut w v (execDataFlitReceive a1 a2 a3 s) := by
  unfold execDataFlitReceive
  apply onlyOut_next
  repeat' (first | with_reducible assumption | intro _ | with_reducible apply receiveData_only (sub_trans rfl hw))

theorem execLinkCtrlReceive_only {a1} {a2} {a3} (hw : 98104 &&& w = 98104) (h : Only w v s) : OnlyOut w v (execLinkCtrlReceive a1 a2 a3 s) := by
  unfold execLinkCtrlReceive
  apply onlyOut_next
  repeat' (first | with_reducible assumption | intro _ | with_reducible apply receiveCtrl_only (sub_trans rfl hw))

theorem execReplayTimeout_only {a1} {a2} (hw : 98104 &&& w = 98104) (h : Only w v s) : OnlyOut w v (execReplayTimeout a1 a2 s) := by
  unfold execReplayTimeout
  apply onlyOut_next
  repeat' (first | with_reducible assumption | intro _ | with_reducible apply only_ite | with_reducible apply replayClass_only (sub_trans rfl hw))

theorem execCreditTimeout_only {a1} {a2} (hw : 69632 &&& w = 69632) (h : Only w v s) : OnlyOut w v (execCreditTimeout a1 a2 s) := by
  unfold execCreditTimeout
  apply onlyOut_next
  repeat' (first | with_reducible assumption | intro _ | with_reducible apply only_ite | with_reducible apply State.modCls_only (sub_trans rfl hw) | with_reducible apply State.raise_only (sub_trans rfl hw) | dsimp only)

theorem execLinkCtrlDue_only {a1} (hw : 4100 &&& w = 4100) (h : Only w v s) : OnlyOut w v (execLinkCtrlDue a1 s) := by
  unfold execLinkCtrlDue
  apply onlyOut_next
  repeat' (first | with_reducible assumption | intro _ | with_reducible apply only_ite | with_reducible apply State.modPort_only (sub_trans rfl hw) | with_reducible apply State.reach_only (sub_trans rfl hw) | with_reducible apply slotTaken_only (sub_trans rfl hw) | with_reducible apply sendCtrl_only (sub_trans rfl hw) | dsimp only)

theorem execDelayExchangeTimer_only {a1} (hw : 4100 &&& w = 4100) (h : Only w v s) : OnlyOut w v (execDelayExchangeTimer a1 s) := by
  unfold execDelayExchangeTimer
  apply onlyOut_next
  repeat' (first | with_reducible assumption | intro _ | with_reducible apply only_ite | with_reducible apply sendCtrl_only (sub_trans rfl hw) | with_reducible apply State.reach_only (sub_trans rfl hw) | (fail_if_no_progress with_reducible apply put_link (sub_trans rfl hw)) | dsimp only)

theorem execTimeCheckTimer_only {a1} (hw : 4100 &&& w = 4100) (h : Only w v s) : OnlyOut w v (execTimeCheckTimer a1 s) := by
  unfold execTimeCheckTimer
  apply onlyOut_next
  repeat' (first | with_reducible assumption | intro _ | with_reducible apply only_ite | with_reducible apply sendCtrl_only (sub_trans rfl hw) | with_reducible apply State.reach_only (sub_trans rfl hw))

theorem execBlockLockLoss_only {a1} (hw : 98104 &&& w = 98104) (h : Only w v s) : OnlyOut w v (execBlockLockLoss a1 s) := by
  unfold execBlockLockLoss
  apply onlyOut_next
  repeat' (first | with_reducible assumption | intro _ | with_reducible apply only_ite | with_reducible apply linkPortReset_only (sub_trans rfl hw))

theorem execLaneSignalDetect_only {a1} {a2} (hw : 4096 &&& w = 4096) (h : Only w v s) : OnlyOut w v (execLaneSignalDetect a1 a2 s) := by
  unfold execLaneSignalDetect
  apply onlyOut_next
  repeat' (first | with_reducible assumption | intro _ | with_reducible apply only_ite | with_reducible apply State.modPort_only (sub_trans rfl hw) | dsimp only)

theorem failStep_only {a2} (hw : 4096 &&& w = 4096) (h : Only w v s) : Only w v (failStep s a2) := by
  unfold failStep
  repeat' (first | with_reducible assumption | intro _ | with_reducible apply State.modPort_only (sub_trans rfl hw) | dsimp only)

theorem execBlockLockAcquired_only {a1} (hw : 4096 &&& w = 4096) (h : Only w v s) : OnlyOut w v (execBlockLockAcquired a1 s) := by
  unfold execBlockLockAcquired
  apply onlyOut_next
  repeat' (first | with_reducible assumption | intro _ | with_reducible apply only_ite | with_reducible apply State.modPort_only (sub_trans rfl hw) | dsimp only)

theorem execLaneEqualiseDone_only {a1} {a2} {a3} (hw : 4096 &&& w = 4096) (h : Only w v s) : OnlyOut w v (execLaneEqualiseDone a1 a2 a3 s) := by
  unfold execLaneEqualiseDone
  apply onlyOut_next
  repeat' (first | with_reducible assumption | intro _ | with_reducible apply only_ite | with_reducible apply State.modPort_only (sub_trans rfl hw) | with_reducible apply failStep_only (sub_trans rfl hw) | dsimp only)

theorem execDelayMeasureDone_only {a1} {a2} {a3} (hw : 69632 &&& w = 69632) (h : Only w v s) : OnlyOut w v (execDelayMeasureDone a1 a2 a3 s) := by
  unfold execDelayMeasureDone
  apply onlyOut_next
  repeat' (first | with_reducible assumption | intro _ | with_reducible apply only_ite | with_reducible apply State.modPort_only (sub_trans rfl hw) | with_reducible apply trainPort_only (sub_trans rfl hw) | with_reducible apply State.live_only (sub_trans rfl hw) | with_reducible apply State.condition_only (sub_trans rfl hw) | with_reducible apply portChanged_only (sub_trans rfl hw) | (fail_if_no_progress with_reducible apply put_link (sub_trans rfl hw)) | dsimp only)

theorem execTrainingRetry_only {a1} (hw : 4100 &&& w = 4100) (h : Only w v s) : OnlyOut w v (execTrainingRetry a1 s) := by
  unfold execTrainingRetry
  apply onlyOut_next
  repeat' (first | with_reducible assumption | intro _ | with_reducible apply only_ite | with_reducible apply failStep_only (sub_trans rfl hw) | with_reducible apply State.reach_only (sub_trans rfl hw) | with_reducible apply State.modPort_only (sub_trans rfl hw) | split | dsimp only)

theorem execUrgent_only {a1} {a2} (hw : 81906 &&& w = 81906) (h : Only w v s) : OnlyOut w v (execUrgent a1 a2 s) := by
  unfold execUrgent
  apply onlyOut_next
  repeat' (first | with_reducible assumption | intro _ | with_reducible apply only_ite | with_reducible apply urgentArrives_only (sub_trans rfl hw))

theorem takeMark_only {a2} {a3} {a4} (hw : 4096 &&& w = 4096) (h : Only w v s) : OnlyFst w v (takeMark s a2 a3 a4) := by
  unfold takeMark
  repeat' (first | with_reducible assumption | intro _ | (fail_if_no_progress with_reducible apply put_link (sub_trans rfl hw)) | split | with_reducible apply ofst_mk | with_reducible refine only_fst (by with_reducible assumption) ?_ | dsimp only)

theorem forwardMark_only {a2} {a3} {a4} {a5} (hw : 69634 &&& w = 69634) (h : Only w v s) : Only w v (forwardMark s a2 a3 a4 a5) := by
  unfold forwardMark
  repeat' (first | with_reducible assumption | intro _ | with_reducible apply only_ite | with_reducible apply enqueue_only (sub_trans rfl hw) | with_reducible apply State.takeFree_only (sub_trans rfl hw) | split | dsimp only)

theorem actOnMark_only {a2} {a3} {a4} {a5} (hw : 69640 &&& w = 69640) (h : Only w v s) : Only w v (actOnMark s a2 a3 a4 a5) := by
  unfold actOnMark
  repeat' (first | with_reducible assumption | intro _ | with_reducible apply only_ite | with_reducible apply State.noteSet_only (sub_trans rfl hw) | with_reducible apply State.raise_only (sub_trans rfl hw) | (fail_if_no_progress with_reducible apply put_link (sub_trans rfl hw)) | dsimp only)

theorem execSyncMark_only {a1} {a2} {a3} {a4} {a5} {a6} (hw : 69646 &&& w = 69646) (h : Only w v s) : OnlyOut w v (execSyncMark a1 a2 a3 a4 a5 a6 s) := by
  unfold execSyncMark
  apply onlyOut_next
  repeat' (first | with_reducible assumption | intro _ | with_reducible apply only_ite | with_reducible apply ofst_ite | with_reducible apply State.reach_only (sub_trans rfl hw) | with_reducible apply misroute_only (sub_trans rfl hw) | with_reducible apply takeMark_only (sub_trans rfl hw) | with_reducible refine only_of_fst (takeMark_only (sub_trans rfl hw) ?_) | with_reducible refine only_fst (by with_reducible assumption) (takeMark_only (sub_trans rfl hw) ?_) | with_reducible apply actOnMark_only (sub_trans rfl hw) | with_reducible apply forwardMark_only (sub_trans rfl hw) | split | with_reducible apply ofst_mk | with_reducible refine only_fst (by with_reducible assumption) ?_ | dsimp only)

theorem jitteredSync_only {a2} (hw : 2 &&& w = 2) (h : Only w v s) : OnlyFst w v (jitteredSync s a2) := by
  unfold jitteredSync
  repeat' (first | with_reducible assumption | intro _ | with_reducible apply only_ite | with_reducible apply ofst_ite | with_reducible apply State.takeFree_only (sub_trans rfl hw) | with_reducible apply ofst_mk | dsimp only)

theorem stepClocks_only {a2} (hw : 128 &&& w = 128) (h : Only w v s) : Only w v (stepClocks s a2) := by
  unfold stepClocks
  repeat' (first | with_reducible assumption | intro _ | with_reducible apply only_ite | with_reducible apply only_foldl | with_reducible apply ofst_foldl | with_reducible apply ofoldl_fst | with_reducible apply State.modCkgen_only (sub_trans rfl hw) | with_reducible apply State.modPinck_only (sub_trans rfl hw) | dsimp only)

theorem stepTime_only {a2} (hw : 90020 &&& w = 90020) (h : Only w v s) : Only w v (stepTime s a2) := by
  unfold stepTime
  repeat' (first | with_reducible assumption | intro _ | with_reducible apply only_ite | with_reducible apply only_foldl | with_reducible apply timStepped_only (sub_trans rfl hw) | with_reducible apply stepClocks_only (sub_trans rfl hw) | with_reducible apply State.modLoop_only (sub_trans rfl hw) | with_reducible apply State.modZone_only (sub_trans rfl hw) | (fail_if_no_progress with_reducible apply put_clk (sub_trans rfl hw)) | dsimp only)

theorem fireSync_only {a2} (hw : 90030 &&& w = 90030) (h : Only w v s) : Only w v (fireSync s a2) := by
  unfold fireSync
  repeat' (first | with_reducible assumption | intro _ | with_reducible apply jitteredSync_only (sub_trans rfl hw) | with_reducible refine only_of_fst (jitteredSync_only (sub_trans rfl hw) ?_) | with_reducible refine only_fst (by with_reducible assumption) (jitteredSync_only (sub_trans rfl hw) ?_) | with_reducible apply State.reach_only (sub_trans rfl hw) | with_reducible apply syncBeds_only (sub_trans rfl hw) | with_reducible apply stepTime_only (sub_trans rfl hw) | with_reducible apply State.noteAdd_only (sub_trans rfl hw) | (fail_if_no_progress with_reducible apply put_link (sub_trans rfl hw)) | split | with_reducible apply ofst_mk | with_reducible refine only_fst (by with_reducible assumption) ?_ | dsimp only)

theorem execLocalSync_only (hw : 90030 &&& w = 90030) (h : Only w v s) : OnlyOut w v (execLocalSync s) := by
  unfold execLocalSync
  apply onlyOut_next
  repeat' (first | with_reducible assumption | intro _ | with_reducible apply fireSync_only (sub_trans rfl hw) | split | dsimp only)

theorem execPhaseSlewEnd_only (hw : 4100 &&& w = 4100) (h : Only w v s) : OnlyOut w v (execPhaseSlewEnd s) := by
  unfold execPhaseSlewEnd
  apply onlyOut_next
  repeat' (first | with_reducible assumption | intro _ | with_reducible apply only_ite | with_reducible apply State.reach_only (sub_trans rfl hw) | (fail_if_no_progress with_reducible apply put_link (sub_trans rfl hw)) | split | dsimp only)

end Sys2Proof.Machine
end

