-- ==== Sys2Proof/Laws/OnlyMessages.lean ====
section
/-! SUPPORT. Machine/Messages.lean: which parts of the state each operation can change. -/

set_option linter.unusedVariables false
set_option linter.unusedTactic false
set_option linter.unreachableTactic false

namespace Sys2Proof.Machine

variable {w : Nat} {v s : State}

theorem execRegRead_only {a1} {a2} (hw : 71692 &&& w = 71692) (h : Only w v s) : OnlyOut w v (execRegRead a1 a2 s) := by
  unfold execRegRead
  apply onlyOut_next
  repeat' (first | with_reducible assumption | intro _ | with_reducible apply readMessage_only (sub_trans rfl hw) | with_reducible apply takeRequest_only (sub_trans rfl hw))

theorem execRegWrite_only {a1} {a2} {a3} (hw : 131070 &&& w = 131070) (h : Only w v s) : OnlyOut w v (execRegWrite a1 a2 a3 s) := by
  unfold execRegWrite
  apply onlyOut_next
  repeat' (first | with_reducible assumption | intro _ | with_reducible apply writeMessage_only (sub_trans rfl hw) | with_reducible apply takeRequest_only (sub_trans rfl hw))

theorem execRegBurstRead_only {a1} {a2} {a3} (hw : 71692 &&& w = 71692) (h : Only w v s) : OnlyOut w v (execRegBurstRead a1 a2 a3 s) := by
  unfold execRegBurstRead
  apply onlyOut_next
  repeat' (first | with_reducible assumption | intro _ | with_reducible apply burstMessage_only (sub_trans rfl hw) | with_reducible apply takeRequest_only (sub_trans rfl hw))

theorem execMailboxPost_only {a1} {a2} {a3} (hw : 69660 &&& w = 69660) (h : Only w v s) : OnlyOut w v (execMailboxPost a1 a2 a3 s) := by
  unfold execMailboxPost
  apply onlyOut_next
  repeat' (first | with_reducible assumption | intro _ | with_reducible apply postMessage_only (sub_trans rfl hw) | with_reducible apply takeRequest_only (sub_trans rfl hw))

theorem execDoorbell_only {a1} {a2} (hw : 69660 &&& w = 69660) (h : Only w v s) : OnlyOut w v (execDoorbell a1 a2 s) := by
  unfold execDoorbell
  apply onlyOut_next
  repeat' (first | with_reducible assumption | intro _ | with_reducible apply bellMessage_only (sub_trans rfl hw) | with_reducible apply takeRequest_only (sub_trans rfl hw))

theorem execBulkRead_only {a1} {a2} {a3} (hw : 69636 &&& w = 69636) (h : Only w v s) : OnlyOut w v (execBulkRead a1 a2 a3 s) := by
  unfold execBulkRead
  apply onlyOut_next
  repeat' (first | with_reducible assumption | intro _ | with_reducible apply bulkReadMessage_only (sub_trans rfl hw) | with_reducible apply takeRequest_only (sub_trans rfl hw))

theorem execBulkWrite_only {a1} {a2} {a3} (hw : 69892 &&& w = 69892) (h : Only w v s) : OnlyOut w v (execBulkWrite a1 a2 a3 s) := by
  unfold execBulkWrite
  apply onlyOut_next
  repeat' (first | with_reducible assumption | intro _ | with_reducible apply bulkWriteMessage_only (sub_trans rfl hw) | with_reducible apply takeRequest_only (sub_trans rfl hw))

theorem execRelease_only {a1} {a2} {a3} {a4} (hw : 73504 &&& w = 73504) (h : Only w v s) : OnlyOut w v (execRelease a1 a2 a3 a4 s) := by
  unfold execRelease
  apply onlyOut_next
  repeat' (first | with_reducible assumption | intro _ | with_reducible apply releaseMessage_only (sub_trans rfl hw) | with_reducible apply takeRequest_only (sub_trans rfl hw))

end Sys2Proof.Machine
end

