-- ==== Sys2Proof/Laws/OnlyTick.lean ====
section
/-! SUPPORT. Machine/Tick.lean: which parts of the state each operation can change. -/

set_option linter.unusedVariables false
set_option linter.unusedTactic false
set_option linter.unreachableTactic false

namespace Sys2Proof.Machine

variable {w : Nat} {v s : State}

theorem countTick_only (hw : 4 &&& w = 4) (h : Only w v s) : Only w v (countTick s) := by
  unfold countTick
  repeat' (first | with_reducible assumption | intro _ | with_reducible apply only_ite | (fail_if_no_progress with_reducible apply put_clk (sub_trans rfl hw)))

theorem tickRequest_only (hw : 131070 &&& w = 131070) (h : Only w v s) : Only w v (tickRequest s) := by
  unfold tickRequest
  repeat' (first | with_reducible assumption | intro _ | with_reducible apply doRequest_only (sub_trans rfl hw) | with_reducible apply takeRequest_only (sub_trans rfl hw) | split | dsimp only)

theorem tickForced_only (hw : 65550 &&& w = 65550) (h : Only w v s) : Only w v (tickForced s) := by
  unfold tickForced
  repeat' (first | with_reducible assumption | intro _ | with_reducible apply fireForced_only (sub_trans rfl hw) | split | dsimp only)

theorem tickBursts_only (hw : 73504 &&& w = 73504) (h : Only w v s) : Only w v (tickBursts s) := by
  unfold tickBursts
  repeat' (first | with_reducible assumption | intro _ | with_reducible apply only_foldl | with_reducible apply ofst_foldl | with_reducible apply ofoldl_fst | with_reducible apply settleBurst_only (sub_trans rfl hw) | dsimp only)

theorem tick_only (hw : 131070 &&& w = 131070) (h : Only w v s) : Only w v (tick s) := by
  unfold tick
  repeat' (first | with_reducible assumption | intro _ | with_reducible apply tickBursts_only (sub_trans rfl hw) | with_reducible apply tickForced_only (sub_trans rfl hw) | with_reducible apply tickRequest_only (sub_trans rfl hw) | with_reducible apply tickPort_only (sub_trans rfl hw) | with_reducible apply countTick_only (sub_trans rfl hw))

end Sys2Proof.Machine
end

