-- ==== Sys2Proof/Laws/State.lean ====
section
/-! SUPPORT. What each primitive update of the state leaves and what it changes: for every named table its own entry, the
entries of the other tables of its part, and every other part of the state. -/

namespace Sys2Proof.Machine

variable (s : State) (k j : Nat)

/-! modMbx. -/

@[simp] theorem State.modMbx_mbx (f : Mailbox → Mailbox) : (s.modMbx k f).mbx j = if j = k then f (s.mbx k) else s.mbx j :=
  tget_tmod _ _ k f j
@[simp] theorem State.modMbx_pending (f : Mailbox → Mailbox) : (s.modMbx k f).pending = s.pending := rfl
@[simp] theorem State.modMbx_free (f : Mailbox → Mailbox) : (s.modMbx k f).free = s.free := rfl
@[simp] theorem State.modMbx_clk (f : Mailbox → Mailbox) : (s.modMbx k f).clk = s.clk := rfl
@[simp] theorem State.modMbx_bus (f : Mailbox → Mailbox) : (s.modMbx k f).bus = s.bus := rfl
@[simp] theorem State.modMbx_fw (f : Mailbox → Mailbox) : (s.modMbx k f).fw = s.fw := rfl
@[simp] theorem State.modMbx_pins (f : Mailbox → Mailbox) : (s.modMbx k f).pins = s.pins := rfl
@[simp] theorem State.modMbx_edge (f : Mailbox → Mailbox) : (s.modMbx k f).edge = s.edge := rfl
@[simp] theorem State.modMbx_pat (f : Mailbox → Mailbox) : (s.modMbx k f).pat = s.pat := rfl
@[simp] theorem State.modMbx_lp (f : Mailbox → Mailbox) : (s.modMbx k f).lp = s.lp := rfl
@[simp] theorem State.modMbx_meas (f : Mailbox → Mailbox) : (s.modMbx k f).meas = s.meas := rfl
@[simp] theorem State.modMbx_harv (f : Mailbox → Mailbox) : (s.modMbx k f).harv = s.harv := rfl
@[simp] theorem State.modMbx_link (f : Mailbox → Mailbox) : (s.modMbx k f).link = s.link := rfl
@[simp] theorem State.modMbx_ser (f : Mailbox → Mailbox) : (s.modMbx k f).ser = s.ser := rfl
@[simp] theorem State.modMbx_sup (f : Mailbox → Mailbox) : (s.modMbx k f).sup = s.sup := rfl
@[simp] theorem State.modMbx_cal (f : Mailbox → Mailbox) : (s.modMbx k f).cal = s.cal := rfl
@[simp] theorem State.modMbx_flt (f : Mailbox → Mailbox) : (s.modMbx k f).flt = s.flt := rfl

/-! modProg. -/

@[simp] theorem State.modProg_prog (f : Progress → Progress) : (s.modProg k f).prog j = if j = k then f (s.prog k) else s.prog j :=
  tget_tmod _ _ k f j
@[simp] theorem State.modProg_pending (f : Progress → Progress) : (s.modProg k f).pending = s.pending := rfl
@[simp] theorem State.modProg_free (f : Progress → Progress) : (s.modProg k f).free = s.free := rfl
@[simp] theorem State.modProg_clk (f : Progress → Progress) : (s.modProg k f).clk = s.clk := rfl
@[simp] theorem State.modProg_bus (f : Progress → Progress) : (s.modProg k f).bus = s.bus := rfl
@[simp] theorem State.modProg_mb (f : Progress → Progress) : (s.modProg k f).mb = s.mb := rfl
@[simp] theorem State.modProg_pins (f : Progress → Progress) : (s.modProg k f).pins = s.pins := rfl
@[simp] theorem State.modProg_edge (f : Progress → Progress) : (s.modProg k f).edge = s.edge := rfl
@[simp] theorem State.modProg_pat (f : Progress → Progress) : (s.modProg k f).pat = s.pat := rfl
@[simp] theorem State.modProg_lp (f : Progress → Progress) : (s.modProg k f).lp = s.lp := rfl
@[simp] theorem State.modProg_meas (f : Progress → Progress) : (s.modProg k f).meas = s.meas := rfl
@[simp] theorem State.modProg_harv (f : Progress → Progress) : (s.modProg k f).harv = s.harv := rfl
@[simp] theorem State.modProg_link (f : Progress → Progress) : (s.modProg k f).link = s.link := rfl
@[simp] theorem State.modProg_ser (f : Progress → Progress) : (s.modProg k f).ser = s.ser := rfl
@[simp] theorem State.modProg_sup (f : Progress → Progress) : (s.modProg k f).sup = s.sup := rfl
@[simp] theorem State.modProg_cal (f : Progress → Progress) : (s.modProg k f).cal = s.cal := rfl
@[simp] theorem State.modProg_flt (f : Progress → Progress) : (s.modProg k f).flt = s.flt := rfl

/-! modFblk. -/

@[simp] theorem State.modFblk_fblk (f : FaultBlock → FaultBlock) : (s.modFblk k f).fblk j = if j = k then f (s.fblk k) else s.fblk j :=
  tget_tmod _ _ k f j
@[simp] theorem State.modFblk_bedc (f : FaultBlock → FaultBlock) : (s.modFblk k f).bedc j = s.bedc j := rfl
@[simp] theorem State.modFblk_loopc (f : FaultBlock → FaultBlock) : (s.modFblk k f).loopc j = s.loopc j := rfl
@[simp] theorem State.modFblk_pert (f : FaultBlock → FaultBlock) : (s.modFblk k f).pert j = s.pert j := rfl
@[simp] theorem State.modFblk_pending (f : FaultBlock → FaultBlock) : (s.modFblk k f).pending = s.pending := rfl
@[simp] theorem State.modFblk_free (f : FaultBlock → FaultBlock) : (s.modFblk k f).free = s.free := rfl
@[simp] theorem State.modFblk_clk (f : FaultBlock → FaultBlock) : (s.modFblk k f).clk = s.clk := rfl
@[simp] theorem State.modFblk_bus (f : FaultBlock → FaultBlock) : (s.modFblk k f).bus = s.bus := rfl
@[simp] theorem State.modFblk_mb (f : FaultBlock → FaultBlock) : (s.modFblk k f).mb = s.mb := rfl
@[simp] theorem State.modFblk_fw (f : FaultBlock → FaultBlock) : (s.modFblk k f).fw = s.fw := rfl
@[simp] theorem State.modFblk_pins (f : FaultBlock → FaultBlock) : (s.modFblk k f).pins = s.pins := rfl
@[simp] theorem State.modFblk_edge (f : FaultBlock → FaultBlock) : (s.modFblk k f).edge = s.edge := rfl
@[simp] theorem State.modFblk_pat (f : FaultBlock → FaultBlock) : (s.modFblk k f).pat = s.pat := rfl
@[simp] theorem State.modFblk_lp (f : FaultBlock → FaultBlock) : (s.modFblk k f).lp = s.lp := rfl
@[simp] theorem State.modFblk_meas (f : FaultBlock → FaultBlock) : (s.modFblk k f).meas = s.meas := rfl
@[simp] theorem State.modFblk_harv (f : FaultBlock → FaultBlock) : (s.modFblk k f).harv = s.harv := rfl
@[simp] theorem State.modFblk_link (f : FaultBlock → FaultBlock) : (s.modFblk k f).link = s.link := rfl
@[simp] theorem State.modFblk_ser (f : FaultBlock → FaultBlock) : (s.modFblk k f).ser = s.ser := rfl
@[simp] theorem State.modFblk_sup (f : FaultBlock → FaultBlock) : (s.modFblk k f).sup = s.sup := rfl
@[simp] theorem State.modFblk_cal (f : FaultBlock → FaultBlock) : (s.modFblk k f).cal = s.cal := rfl

/-! modBedc. -/

@[simp] theorem State.modBedc_bedc (f : BedCloche → BedCloche) : (s.modBedc k f).bedc j = if j = k then f (s.bedc k) else s.bedc j :=
  tget_tmod _ _ k f j
@[simp] theorem State.modBedc_fblk (f : BedCloche → BedCloche) : (s.modBedc k f).fblk j = s.fblk j := rfl
@[simp] theorem State.modBedc_loopc (f : BedCloche → BedCloche) : (s.modBedc k f).loopc j = s.loopc j := rfl
@[simp] theorem State.modBedc_pert (f : BedCloche → BedCloche) : (s.modBedc k f).pert j = s.pert j := rfl
@[simp] theorem State.modBedc_pending (f : BedCloche → BedCloche) : (s.modBedc k f).pending = s.pending := rfl
@[simp] theorem State.modBedc_free (f : BedCloche → BedCloche) : (s.modBedc k f).free = s.free := rfl
@[simp] theorem State.modBedc_clk (f : BedCloche → BedCloche) : (s.modBedc k f).clk = s.clk := rfl
@[simp] theorem State.modBedc_bus (f : BedCloche → BedCloche) : (s.modBedc k f).bus = s.bus := rfl
@[simp] theorem State.modBedc_mb (f : BedCloche → BedCloche) : (s.modBedc k f).mb = s.mb := rfl
@[simp] theorem State.modBedc_fw (f : BedCloche → BedCloche) : (s.modBedc k f).fw = s.fw := rfl
@[simp] theorem State.modBedc_pins (f : BedCloche → BedCloche) : (s.modBedc k f).pins = s.pins := rfl
@[simp] theorem State.modBedc_edge (f : BedCloche → BedCloche) : (s.modBedc k f).edge = s.edge := rfl
@[simp] theorem State.modBedc_pat (f : BedCloche → BedCloche) : (s.modBedc k f).pat = s.pat := rfl
@[simp] theorem State.modBedc_lp (f : BedCloche → BedCloche) : (s.modBedc k f).lp = s.lp := rfl
@[simp] theorem State.modBedc_meas (f : BedCloche → BedCloche) : (s.modBedc k f).meas = s.meas := rfl
@[simp] theorem State.modBedc_harv (f : BedCloche → BedCloche) : (s.modBedc k f).harv = s.harv := rfl
@[simp] theorem State.modBedc_link (f : BedCloche → BedCloche) : (s.modBedc k f).link = s.link := rfl
@[simp] theorem State.modBedc_ser (f : BedCloche → BedCloche) : (s.modBedc k f).ser = s.ser := rfl
@[simp] theorem State.modBedc_sup (f : BedCloche → BedCloche) : (s.modBedc k f).sup = s.sup := rfl
@[simp] theorem State.modBedc_cal (f : BedCloche → BedCloche) : (s.modBedc k f).cal = s.cal := rfl

/-! modLoopc. -/

@[simp] theorem State.modLoopc_loopc (f : (List Cause) → (List Cause)) : (s.modLoopc k f).loopc j = if j = k then f (s.loopc k) else s.loopc j :=
  tget_tmod _ _ k f j
@[simp] theorem State.modLoopc_fblk (f : (List Cause) → (List Cause)) : (s.modLoopc k f).fblk j = s.fblk j := rfl
@[simp] theorem State.modLoopc_bedc (f : (List Cause) → (List Cause)) : (s.modLoopc k f).bedc j = s.bedc j := rfl
@[simp] theorem State.modLoopc_pert (f : (List Cause) → (List Cause)) : (s.modLoopc k f).pert j = s.pert j := rfl
@[simp] theorem State.modLoopc_pending (f : (List Cause) → (List Cause)) : (s.modLoopc k f).pending = s.pending := rfl
@[simp] theorem State.modLoopc_free (f : (List Cause) → (List Cause)) : (s.modLoopc k f).free = s.free := rfl
@[simp] theorem State.modLoopc_clk (f : (List Cause) → (List Cause)) : (s.modLoopc k f).clk = s.clk := rfl
@[simp] theorem State.modLoopc_bus (f : (List Cause) → (List Cause)) : (s.modLoopc k f).bus = s.bus := rfl
@[simp] theorem State.modLoopc_mb (f : (List Cause) → (List Cause)) : (s.modLoopc k f).mb = s.mb := rfl
@[simp] theorem State.modLoopc_fw (f : (List Cause) → (List Cause)) : (s.modLoopc k f).fw = s.fw := rfl
@[simp] theorem State.modLoopc_pins (f : (List Cause) → (List Cause)) : (s.modLoopc k f).pins = s.pins := rfl
@[simp] theorem State.modLoopc_edge (f : (List Cause) → (List Cause)) : (s.modLoopc k f).edge = s.edge := rfl
@[simp] theorem State.modLoopc_pat (f : (List Cause) → (List Cause)) : (s.modLoopc k f).pat = s.pat := rfl
@[simp] theorem State.modLoopc_lp (f : (List Cause) → (List Cause)) : (s.modLoopc k f).lp = s.lp := rfl
@[simp] theorem State.modLoopc_meas (f : (List Cause) → (List Cause)) : (s.modLoopc k f).meas = s.meas := rfl
@[simp] theorem State.modLoopc_harv (f : (List Cause) → (List Cause)) : (s.modLoopc k f).harv = s.harv := rfl
@[simp] theorem State.modLoopc_link (f : (List Cause) → (List Cause)) : (s.modLoopc k f).link = s.link := rfl
@[simp] theorem State.modLoopc_ser (f : (List Cause) → (List Cause)) : (s.modLoopc k f).ser = s.ser := rfl
@[simp] theorem State.modLoopc_sup (f : (List Cause) → (List Cause)) : (s.modLoopc k f).sup = s.sup := rfl
@[simp] theorem State.modLoopc_cal (f : (List Cause) → (List Cause)) : (s.modLoopc k f).cal = s.cal := rfl

/-! modPert. -/

@[simp] theorem State.modPert_pert (f : Perturb → Perturb) : (s.modPert k f).pert j = if j = k then f (s.pert k) else s.pert j :=
  tget_tmod _ _ k f j
@[simp] theorem State.modPert_fblk (f : Perturb → Perturb) : (s.modPert k f).fblk j = s.fblk j := rfl
@[simp] theorem State.modPert_bedc (f : Perturb → Perturb) : (s.modPert k f).bedc j = s.bedc j := rfl
@[simp] theorem State.modPert_loopc (f : Perturb → Perturb) : (s.modPert k f).loopc j = s.loopc j := rfl
@[simp] theorem State.modPert_pending (f : Perturb → Perturb) : (s.modPert k f).pending = s.pending := rfl
@[simp] theorem State.modPert_free (f : Perturb → Perturb) : (s.modPert k f).free = s.free := rfl
@[simp] theorem State.modPert_clk (f : Perturb → Perturb) : (s.modPert k f).clk = s.clk := rfl
@[simp] theorem State.modPert_bus (f : Perturb → Perturb) : (s.modPert k f).bus = s.bus := rfl
@[simp] theorem State.modPert_mb (f : Perturb → Perturb) : (s.modPert k f).mb = s.mb := rfl
@[simp] theorem State.modPert_fw (f : Perturb → Perturb) : (s.modPert k f).fw = s.fw := rfl
@[simp] theorem State.modPert_pins (f : Perturb → Perturb) : (s.modPert k f).pins = s.pins := rfl
@[simp] theorem State.modPert_edge (f : Perturb → Perturb) : (s.modPert k f).edge = s.edge := rfl
@[simp] theorem State.modPert_pat (f : Perturb → Perturb) : (s.modPert k f).pat = s.pat := rfl
@[simp] theorem State.modPert_lp (f : Perturb → Perturb) : (s.modPert k f).lp = s.lp := rfl
@[simp] theorem State.modPert_meas (f : Perturb → Perturb) : (s.modPert k f).meas = s.meas := rfl
@[simp] theorem State.modPert_harv (f : Perturb → Perturb) : (s.modPert k f).harv = s.harv := rfl
@[simp] theorem State.modPert_link (f : Perturb → Perturb) : (s.modPert k f).link = s.link := rfl
@[simp] theorem State.modPert_ser (f : Perturb → Perturb) : (s.modPert k f).ser = s.ser := rfl
@[simp] theorem State.modPert_sup (f : Perturb → Perturb) : (s.modPert k f).sup = s.sup := rfl
@[simp] theorem State.modPert_cal (f : Perturb → Perturb) : (s.modPert k f).cal = s.cal := rfl

/-! modBedPow. -/

@[simp] theorem State.modBedPow_bedPow (f : BedPower → BedPower) : (s.modBedPow k f).bedPow j = if j = k then f (s.bedPow k) else s.bedPow j :=
  tget_tmod _ _ k f j
@[simp] theorem State.modBedPow_stbyExit (f : BedPower → BedPower) : (s.modBedPow k f).stbyExit j = s.stbyExit j := rfl
@[simp] theorem State.modBedPow_blkReset (f : BedPower → BedPower) : (s.modBedPow k f).blkReset j = s.blkReset j := rfl
@[simp] theorem State.modBedPow_pending (f : BedPower → BedPower) : (s.modBedPow k f).pending = s.pending := rfl
@[simp] theorem State.modBedPow_free (f : BedPower → BedPower) : (s.modBedPow k f).free = s.free := rfl
@[simp] theorem State.modBedPow_bus (f : BedPower → BedPower) : (s.modBedPow k f).bus = s.bus := rfl
@[simp] theorem State.modBedPow_mb (f : BedPower → BedPower) : (s.modBedPow k f).mb = s.mb := rfl
@[simp] theorem State.modBedPow_fw (f : BedPower → BedPower) : (s.modBedPow k f).fw = s.fw := rfl
@[simp] theorem State.modBedPow_pins (f : BedPower → BedPower) : (s.modBedPow k f).pins = s.pins := rfl
@[simp] theorem State.modBedPow_edge (f : BedPower → BedPower) : (s.modBedPow k f).edge = s.edge := rfl
@[simp] theorem State.modBedPow_pat (f : BedPower → BedPower) : (s.modBedPow k f).pat = s.pat := rfl
@[simp] theorem State.modBedPow_lp (f : BedPower → BedPower) : (s.modBedPow k f).lp = s.lp := rfl
@[simp] theorem State.modBedPow_meas (f : BedPower → BedPower) : (s.modBedPow k f).meas = s.meas := rfl
@[simp] theorem State.modBedPow_harv (f : BedPower → BedPower) : (s.modBedPow k f).harv = s.harv := rfl
@[simp] theorem State.modBedPow_link (f : BedPower → BedPower) : (s.modBedPow k f).link = s.link := rfl
@[simp] theorem State.modBedPow_ser (f : BedPower → BedPower) : (s.modBedPow k f).ser = s.ser := rfl
@[simp] theorem State.modBedPow_sup (f : BedPower → BedPower) : (s.modBedPow k f).sup = s.sup := rfl
@[simp] theorem State.modBedPow_cal (f : BedPower → BedPower) : (s.modBedPow k f).cal = s.cal := rfl
@[simp] theorem State.modBedPow_flt (f : BedPower → BedPower) : (s.modBedPow k f).flt = s.flt := rfl

/-! modStbyExit. -/

@[simp] theorem State.modStbyExit_stbyExit (f : Bool → Bool) : (s.modStbyExit k f).stbyExit j = if j = k then f (s.stbyExit k) else s.stbyExit j :=
  tget_tmod _ _ k f j
@[simp] theorem State.modStbyExit_bedPow (f : Bool → Bool) : (s.modStbyExit k f).bedPow j = s.bedPow j := rfl
@[simp] theorem State.modStbyExit_blkReset (f : Bool → Bool) : (s.modStbyExit k f).blkReset j = s.blkReset j := rfl
@[simp] theorem State.modStbyExit_pending (f : Bool → Bool) : (s.modStbyExit k f).pending = s.pending := rfl
@[simp] theorem State.modStbyExit_free (f : Bool → Bool) : (s.modStbyExit k f).free = s.free := rfl
@[simp] theorem State.modStbyExit_bus (f : Bool → Bool) : (s.modStbyExit k f).bus = s.bus := rfl
@[simp] theorem State.modStbyExit_mb (f : Bool → Bool) : (s.modStbyExit k f).mb = s.mb := rfl
@[simp] theorem State.modStbyExit_fw (f : Bool → Bool) : (s.modStbyExit k f).fw = s.fw := rfl
@[simp] theorem State.modStbyExit_pins (f : Bool → Bool) : (s.modStbyExit k f).pins = s.pins := rfl
@[simp] theorem State.modStbyExit_edge (f : Bool → Bool) : (s.modStbyExit k f).edge = s.edge := rfl
@[simp] theorem State.modStbyExit_pat (f : Bool → Bool) : (s.modStbyExit k f).pat = s.pat := rfl
@[simp] theorem State.modStbyExit_lp (f : Bool → Bool) : (s.modStbyExit k f).lp = s.lp := rfl
@[simp] theorem State.modStbyExit_meas (f : Bool → Bool) : (s.modStbyExit k f).meas = s.meas := rfl
@[simp] theorem State.modStbyExit_harv (f : Bool → Bool) : (s.modStbyExit k f).harv = s.harv := rfl
@[simp] theorem State.modStbyExit_link (f : Bool → Bool) : (s.modStbyExit k f).link = s.link := rfl
@[simp] theorem State.modStbyExit_ser (f : Bool → Bool) : (s.modStbyExit k f).ser = s.ser := rfl
@[simp] theorem State.modStbyExit_sup (f : Bool → Bool) : (s.modStbyExit k f).sup = s.sup := rfl
@[simp] theorem State.modStbyExit_cal (f : Bool → Bool) : (s.modStbyExit k f).cal = s.cal := rfl
@[simp] theorem State.modStbyExit_flt (f : Bool → Bool) : (s.modStbyExit k f).flt = s.flt := rfl

/-! modBlkReset. -/

@[simp] theorem State.modBlkReset_blkReset (f : Bool → Bool) : (s.modBlkReset k f).blkReset j = if j = k then f (s.blkReset k) else s.blkReset j :=
  tget_tmod _ _ k f j
@[simp] theorem State.modBlkReset_bedPow (f : Bool → Bool) : (s.modBlkReset k f).bedPow j = s.bedPow j := rfl
@[simp] theorem State.modBlkReset_stbyExit (f : Bool → Bool) : (s.modBlkReset k f).stbyExit j = s.stbyExit j := rfl
@[simp] theorem State.modBlkReset_pending (f : Bool → Bool) : (s.modBlkReset k f).pending = s.pending := rfl
@[simp] theorem State.modBlkReset_free (f : Bool → Bool) : (s.modBlkReset k f).free = s.free := rfl
@[simp] theorem State.modBlkReset_bus (f : Bool → Bool) : (s.modBlkReset k f).bus = s.bus := rfl
@[simp] theorem State.modBlkReset_mb (f : Bool → Bool) : (s.modBlkReset k f).mb = s.mb := rfl
@[simp] theorem State.modBlkReset_fw (f : Bool → Bool) : (s.modBlkReset k f).fw = s.fw := rfl
@[simp] theorem State.modBlkReset_pins (f : Bool → Bool) : (s.modBlkReset k f).pins = s.pins := rfl
@[simp] theorem State.modBlkReset_edge (f : Bool → Bool) : (s.modBlkReset k f).edge = s.edge := rfl
@[simp] theorem State.modBlkReset_pat (f : Bool → Bool) : (s.modBlkReset k f).pat = s.pat := rfl
@[simp] theorem State.modBlkReset_lp (f : Bool → Bool) : (s.modBlkReset k f).lp = s.lp := rfl
@[simp] theorem State.modBlkReset_meas (f : Bool → Bool) : (s.modBlkReset k f).meas = s.meas := rfl
@[simp] theorem State.modBlkReset_harv (f : Bool → Bool) : (s.modBlkReset k f).harv = s.harv := rfl
@[simp] theorem State.modBlkReset_link (f : Bool → Bool) : (s.modBlkReset k f).link = s.link := rfl
@[simp] theorem State.modBlkReset_ser (f : Bool → Bool) : (s.modBlkReset k f).ser = s.ser := rfl
@[simp] theorem State.modBlkReset_sup (f : Bool → Bool) : (s.modBlkReset k f).sup = s.sup := rfl
@[simp] theorem State.modBlkReset_cal (f : Bool → Bool) : (s.modBlkReset k f).cal = s.cal := rfl
@[simp] theorem State.modBlkReset_flt (f : Bool → Bool) : (s.modBlkReset k f).flt = s.flt := rfl

/-! modPinst. -/

@[simp] theorem State.modPinst_pinst (f : PinState → PinState) : (s.modPinst k f).pinst j = if j = k then f (s.pinst k) else s.pinst j :=
  tget_tmod _ _ k f j
@[simp] theorem State.modPinst_grp (f : PinState → PinState) : (s.modPinst k f).grp j = s.grp j := rfl
@[simp] theorem State.modPinst_mon (f : PinState → PinState) : (s.modPinst k f).mon j = s.mon j := rfl
@[simp] theorem State.modPinst_dacst (f : PinState → PinState) : (s.modPinst k f).dacst j = s.dacst j := rfl
@[simp] theorem State.modPinst_pending (f : PinState → PinState) : (s.modPinst k f).pending = s.pending := rfl
@[simp] theorem State.modPinst_free (f : PinState → PinState) : (s.modPinst k f).free = s.free := rfl
@[simp] theorem State.modPinst_clk (f : PinState → PinState) : (s.modPinst k f).clk = s.clk := rfl
@[simp] theorem State.modPinst_bus (f : PinState → PinState) : (s.modPinst k f).bus = s.bus := rfl
@[simp] theorem State.modPinst_mb (f : PinState → PinState) : (s.modPinst k f).mb = s.mb := rfl
@[simp] theorem State.modPinst_fw (f : PinState → PinState) : (s.modPinst k f).fw = s.fw := rfl
@[simp] theorem State.modPinst_edge (f : PinState → PinState) : (s.modPinst k f).edge = s.edge := rfl
@[simp] theorem State.modPinst_pat (f : PinState → PinState) : (s.modPinst k f).pat = s.pat := rfl
@[simp] theorem State.modPinst_lp (f : PinState → PinState) : (s.modPinst k f).lp = s.lp := rfl
@[simp] theorem State.modPinst_meas (f : PinState → PinState) : (s.modPinst k f).meas = s.meas := rfl
@[simp] theorem State.modPinst_harv (f : PinState → PinState) : (s.modPinst k f).harv = s.harv := rfl
@[simp] theorem State.modPinst_link (f : PinState → PinState) : (s.modPinst k f).link = s.link := rfl
@[simp] theorem State.modPinst_ser (f : PinState → PinState) : (s.modPinst k f).ser = s.ser := rfl
@[simp] theorem State.modPinst_sup (f : PinState → PinState) : (s.modPinst k f).sup = s.sup := rfl
@[simp] theorem State.modPinst_cal (f : PinState → PinState) : (s.modPinst k f).cal = s.cal := rfl
@[simp] theorem State.modPinst_flt (f : PinState → PinState) : (s.modPinst k f).flt = s.flt := rfl

/-! modGrp. -/

@[simp] theorem State.modGrp_grp (f : LoadGroup → LoadGroup) : (s.modGrp k f).grp j = if j = k then f (s.grp k) else s.grp j :=
  tget_tmod _ _ k f j
@[simp] theorem State.modGrp_pinst (f : LoadGroup → LoadGroup) : (s.modGrp k f).pinst j = s.pinst j := rfl
@[simp] theorem State.modGrp_mon (f : LoadGroup → LoadGroup) : (s.modGrp k f).mon j = s.mon j := rfl
@[simp] theorem State.modGrp_dacst (f : LoadGroup → LoadGroup) : (s.modGrp k f).dacst j = s.dacst j := rfl
@[simp] theorem State.modGrp_pending (f : LoadGroup → LoadGroup) : (s.modGrp k f).pending = s.pending := rfl
@[simp] theorem State.modGrp_free (f : LoadGroup → LoadGroup) : (s.modGrp k f).free = s.free := rfl
@[simp] theorem State.modGrp_clk (f : LoadGroup → LoadGroup) : (s.modGrp k f).clk = s.clk := rfl
@[simp] theorem State.modGrp_bus (f : LoadGroup → LoadGroup) : (s.modGrp k f).bus = s.bus := rfl
@[simp] theorem State.modGrp_mb (f : LoadGroup → LoadGroup) : (s.modGrp k f).mb = s.mb := rfl
@[simp] theorem State.modGrp_fw (f : LoadGroup → LoadGroup) : (s.modGrp k f).fw = s.fw := rfl
@[simp] theorem State.modGrp_edge (f : LoadGroup → LoadGroup) : (s.modGrp k f).edge = s.edge := rfl
@[simp] theorem State.modGrp_pat (f : LoadGroup → LoadGroup) : (s.modGrp k f).pat = s.pat := rfl
@[simp] theorem State.modGrp_lp (f : LoadGroup → LoadGroup) : (s.modGrp k f).lp = s.lp := rfl
@[simp] theorem State.modGrp_meas (f : LoadGroup → LoadGroup) : (s.modGrp k f).meas = s.meas := rfl
@[simp] theorem State.modGrp_harv (f : LoadGroup → LoadGroup) : (s.modGrp k f).harv = s.harv := rfl
@[simp] theorem State.modGrp_link (f : LoadGroup → LoadGroup) : (s.modGrp k f).link = s.link := rfl
@[simp] theorem State.modGrp_ser (f : LoadGroup → LoadGroup) : (s.modGrp k f).ser = s.ser := rfl
@[simp] theorem State.modGrp_sup (f : LoadGroup → LoadGroup) : (s.modGrp k f).sup = s.sup := rfl
@[simp] theorem State.modGrp_cal (f : LoadGroup → LoadGroup) : (s.modGrp k f).cal = s.cal := rfl
@[simp] theorem State.modGrp_flt (f : LoadGroup → LoadGroup) : (s.modGrp k f).flt = s.flt := rfl

/-! modMon. -/

@[simp] theorem State.modMon_mon (f : Monitors → Monitors) : (s.modMon k f).mon j = if j = k then f (s.mon k) else s.mon j :=
  tget_tmod _ _ k f j
@[simp] theorem State.modMon_pinst (f : Monitors → Monitors) : (s.modMon k f).pinst j = s.pinst j := rfl
@[simp] theorem State.modMon_grp (f : Monitors → Monitors) : (s.modMon k f).grp j = s.grp j := rfl
@[simp] theorem State.modMon_dacst (f : Monitors → Monitors) : (s.modMon k f).dacst j = s.dacst j := rfl
@[simp] theorem State.modMon_pending (f : Monitors → Monitors) : (s.modMon k f).pending = s.pending := rfl
@[simp] theorem State.modMon_free (f : Monitors → Monitors) : (s.modMon k f).free = s.free := rfl
@[simp] theorem State.modMon_clk (f : Monitors → Monitors) : (s.modMon k f).clk = s.clk := rfl
@[simp] theorem State.modMon_bus (f : Monitors → Monitors) : (s.modMon k f).bus = s.bus := rfl
@[simp] theorem State.modMon_mb (f : Monitors → Monitors) : (s.modMon k f).mb = s.mb := rfl
@[simp] theorem State.modMon_fw (f : Monitors → Monitors) : (s.modMon k f).fw = s.fw := rfl
@[simp] theorem State.modMon_edge (f : Monitors → Monitors) : (s.modMon k f).edge = s.edge := rfl
@[simp] theorem State.modMon_pat (f : Monitors → Monitors) : (s.modMon k f).pat = s.pat := rfl
@[simp] theorem State.modMon_lp (f : Monitors → Monitors) : (s.modMon k f).lp = s.lp := rfl
@[simp] theorem State.modMon_meas (f : Monitors → Monitors) : (s.modMon k f).meas = s.meas := rfl
@[simp] theorem State.modMon_harv (f : Monitors → Monitors) : (s.modMon k f).harv = s.harv := rfl
@[simp] theorem State.modMon_link (f : Monitors → Monitors) : (s.modMon k f).link = s.link := rfl
@[simp] theorem State.modMon_ser (f : Monitors → Monitors) : (s.modMon k f).ser = s.ser := rfl
@[simp] theorem State.modMon_sup (f : Monitors → Monitors) : (s.modMon k f).sup = s.sup := rfl
@[simp] theorem State.modMon_cal (f : Monitors → Monitors) : (s.modMon k f).cal = s.cal := rfl
@[simp] theorem State.modMon_flt (f : Monitors → Monitors) : (s.modMon k f).flt = s.flt := rfl

/-! modTsetAt. -/

@[simp] theorem State.modTsetAt_tsetAt (f : TSet → TSet) : (s.modTsetAt k f).tsetAt j = if j = k then f (s.tsetAt k) else s.tsetAt j :=
  tget_tmod _ _ k f j
@[simp] theorem State.modTsetAt_tdll (f : TSet → TSet) : (s.modTsetAt k f).tdll j = s.tdll j := rfl
@[simp] theorem State.modTsetAt_drift (f : TSet → TSet) : (s.modTsetAt k f).drift j = s.drift j := rfl
@[simp] theorem State.modTsetAt_stale (f : TSet → TSet) : (s.modTsetAt k f).stale j = s.stale j := rfl
@[simp] theorem State.modTsetAt_ckgen (f : TSet → TSet) : (s.modTsetAt k f).ckgen j = s.ckgen j := rfl
@[simp] theorem State.modTsetAt_pinck (f : TSet → TSet) : (s.modTsetAt k f).pinck j = s.pinck j := rfl
@[simp] theorem State.modTsetAt_slices (f : TSet → TSet) : (s.modTsetAt k f).slices j = s.slices j := rfl
@[simp] theorem State.modTsetAt_base (f : TSet → TSet) : (s.modTsetAt k f).base j = s.base j := rfl
@[simp] theorem State.modTsetAt_pending (f : TSet → TSet) : (s.modTsetAt k f).pending = s.pending := rfl
@[simp] theorem State.modTsetAt_free (f : TSet → TSet) : (s.modTsetAt k f).free = s.free := rfl
@[simp] theorem State.modTsetAt_clk (f : TSet → TSet) : (s.modTsetAt k f).clk = s.clk := rfl
@[simp] theorem State.modTsetAt_bus (f : TSet → TSet) : (s.modTsetAt k f).bus = s.bus := rfl
@[simp] theorem State.modTsetAt_mb (f : TSet → TSet) : (s.modTsetAt k f).mb = s.mb := rfl
@[simp] theorem State.modTsetAt_fw (f : TSet → TSet) : (s.modTsetAt k f).fw = s.fw := rfl
@[simp] theorem State.modTsetAt_pins (f : TSet → TSet) : (s.modTsetAt k f).pins = s.pins := rfl
@[simp] theorem State.modTsetAt_pat (f : TSet → TSet) : (s.modTsetAt k f).pat = s.pat := rfl
@[simp] theorem State.modTsetAt_lp (f : TSet → TSet) : (s.modTsetAt k f).lp = s.lp := rfl
@[simp] theorem State.modTsetAt_meas (f : TSet → TSet) : (s.modTsetAt k f).meas = s.meas := rfl
@[simp] theorem State.modTsetAt_harv (f : TSet → TSet) : (s.modTsetAt k f).harv = s.harv := rfl
@[simp] theorem State.modTsetAt_link (f : TSet → TSet) : (s.modTsetAt k f).link = s.link := rfl
@[simp] theorem State.modTsetAt_ser (f : TSet → TSet) : (s.modTsetAt k f).ser = s.ser := rfl
@[simp] theorem State.modTsetAt_sup (f : TSet → TSet) : (s.modTsetAt k f).sup = s.sup := rfl
@[simp] theorem State.modTsetAt_cal (f : TSet → TSet) : (s.modTsetAt k f).cal = s.cal := rfl
@[simp] theorem State.modTsetAt_flt (f : TSet → TSet) : (s.modTsetAt k f).flt = s.flt := rfl

/-! modTdll. -/

@[simp] theorem State.modTdll_tdll (f : Bool → Bool) : (s.modTdll k f).tdll j = if j = k then f (s.tdll k) else s.tdll j :=
  tget_tmod _ _ k f j
@[simp] theorem State.modTdll_tsetAt (f : Bool → Bool) : (s.modTdll k f).tsetAt j = s.tsetAt j := rfl
@[simp] theorem State.modTdll_drift (f : Bool → Bool) : (s.modTdll k f).drift j = s.drift j := rfl
@[simp] theorem State.modTdll_stale (f : Bool → Bool) : (s.modTdll k f).stale j = s.stale j := rfl
@[simp] theorem State.modTdll_ckgen (f : Bool → Bool) : (s.modTdll k f).ckgen j = s.ckgen j := rfl
@[simp] theorem State.modTdll_pinck (f : Bool → Bool) : (s.modTdll k f).pinck j = s.pinck j := rfl
@[simp] theorem State.modTdll_slices (f : Bool → Bool) : (s.modTdll k f).slices j = s.slices j := rfl
@[simp] theorem State.modTdll_base (f : Bool → Bool) : (s.modTdll k f).base j = s.base j := rfl
@[simp] theorem State.modTdll_pending (f : Bool → Bool) : (s.modTdll k f).pending = s.pending := rfl
@[simp] theorem State.modTdll_free (f : Bool → Bool) : (s.modTdll k f).free = s.free := rfl
@[simp] theorem State.modTdll_clk (f : Bool → Bool) : (s.modTdll k f).clk = s.clk := rfl
@[simp] theorem State.modTdll_bus (f : Bool → Bool) : (s.modTdll k f).bus = s.bus := rfl
@[simp] theorem State.modTdll_mb (f : Bool → Bool) : (s.modTdll k f).mb = s.mb := rfl
@[simp] theorem State.modTdll_fw (f : Bool → Bool) : (s.modTdll k f).fw = s.fw := rfl
@[simp] theorem State.modTdll_pins (f : Bool → Bool) : (s.modTdll k f).pins = s.pins := rfl
@[simp] theorem State.modTdll_pat (f : Bool → Bool) : (s.modTdll k f).pat = s.pat := rfl
@[simp] theorem State.modTdll_lp (f : Bool → Bool) : (s.modTdll k f).lp = s.lp := rfl
@[simp] theorem State.modTdll_meas (f : Bool → Bool) : (s.modTdll k f).meas = s.meas := rfl
@[simp] theorem State.modTdll_harv (f : Bool → Bool) : (s.modTdll k f).harv = s.harv := rfl
@[simp] theorem State.modTdll_link (f : Bool → Bool) : (s.modTdll k f).link = s.link := rfl
@[simp] theorem State.modTdll_ser (f : Bool → Bool) : (s.modTdll k f).ser = s.ser := rfl
@[simp] theorem State.modTdll_sup (f : Bool → Bool) : (s.modTdll k f).sup = s.sup := rfl
@[simp] theorem State.modTdll_cal (f : Bool → Bool) : (s.modTdll k f).cal = s.cal := rfl
@[simp] theorem State.modTdll_flt (f : Bool → Bool) : (s.modTdll k f).flt = s.flt := rfl

/-! modDrift. -/

@[simp] theorem State.modDrift_drift (f : Int → Int) : (s.modDrift k f).drift j = if j = k then f (s.drift k) else s.drift j :=
  tget_tmod _ _ k f j
@[simp] theorem State.modDrift_tsetAt (f : Int → Int) : (s.modDrift k f).tsetAt j = s.tsetAt j := rfl
@[simp] theorem State.modDrift_tdll (f : Int → Int) : (s.modDrift k f).tdll j = s.tdll j := rfl
@[simp] theorem State.modDrift_stale (f : Int → Int) : (s.modDrift k f).stale j = s.stale j := rfl
@[simp] theorem State.modDrift_ckgen (f : Int → Int) : (s.modDrift k f).ckgen j = s.ckgen j := rfl
@[simp] theorem State.modDrift_pinck (f : Int → Int) : (s.modDrift k f).pinck j = s.pinck j := rfl
@[simp] theorem State.modDrift_slices (f : Int → Int) : (s.modDrift k f).slices j = s.slices j := rfl
@[simp] theorem State.modDrift_base (f : Int → Int) : (s.modDrift k f).base j = s.base j := rfl
@[simp] theorem State.modDrift_pending (f : Int → Int) : (s.modDrift k f).pending = s.pending := rfl
@[simp] theorem State.modDrift_free (f : Int → Int) : (s.modDrift k f).free = s.free := rfl
@[simp] theorem State.modDrift_clk (f : Int → Int) : (s.modDrift k f).clk = s.clk := rfl
@[simp] theorem State.modDrift_bus (f : Int → Int) : (s.modDrift k f).bus = s.bus := rfl
@[simp] theorem State.modDrift_mb (f : Int → Int) : (s.modDrift k f).mb = s.mb := rfl
@[simp] theorem State.modDrift_fw (f : Int → Int) : (s.modDrift k f).fw = s.fw := rfl
@[simp] theorem State.modDrift_pins (f : Int → Int) : (s.modDrift k f).pins = s.pins := rfl
@[simp] theorem State.modDrift_pat (f : Int → Int) : (s.modDrift k f).pat = s.pat := rfl
@[simp] theorem State.modDrift_lp (f : Int → Int) : (s.modDrift k f).lp = s.lp := rfl
@[simp] theorem State.modDrift_meas (f : Int → Int) : (s.modDrift k f).meas = s.meas := rfl
@[simp] theorem State.modDrift_harv (f : Int → Int) : (s.modDrift k f).harv = s.harv := rfl
@[simp] theorem State.modDrift_link (f : Int → Int) : (s.modDrift k f).link = s.link := rfl
@[simp] theorem State.modDrift_ser (f : Int → Int) : (s.modDrift k f).ser = s.ser := rfl
@[simp] theorem State.modDrift_sup (f : Int → Int) : (s.modDrift k f).sup = s.sup := rfl
@[simp] theorem State.modDrift_cal (f : Int → Int) : (s.modDrift k f).cal = s.cal := rfl
@[simp] theorem State.modDrift_flt (f : Int → Int) : (s.modDrift k f).flt = s.flt := rfl

/-! modStale. -/

@[simp] theorem State.modStale_stale (f : Bool → Bool) : (s.modStale k f).stale j = if j = k then f (s.stale k) else s.stale j :=
  tget_tmod _ _ k f j
@[simp] theorem State.modStale_tsetAt (f : Bool → Bool) : (s.modStale k f).tsetAt j = s.tsetAt j := rfl
@[simp] theorem State.modStale_tdll (f : Bool → Bool) : (s.modStale k f).tdll j = s.tdll j := rfl
@[simp] theorem State.modStale_drift (f : Bool → Bool) : (s.modStale k f).drift j = s.drift j := rfl
@[simp] theorem State.modStale_ckgen (f : Bool → Bool) : (s.modStale k f).ckgen j = s.ckgen j := rfl
@[simp] theorem State.modStale_pinck (f : Bool → Bool) : (s.modStale k f).pinck j = s.pinck j := rfl
@[simp] theorem State.modStale_slices (f : Bool → Bool) : (s.modStale k f).slices j = s.slices j := rfl
@[simp] theorem State.modStale_base (f : Bool → Bool) : (s.modStale k f).base j = s.base j := rfl
@[simp] theorem State.modStale_pending (f : Bool → Bool) : (s.modStale k f).pending = s.pending := rfl
@[simp] theorem State.modStale_free (f : Bool → Bool) : (s.modStale k f).free = s.free := rfl
@[simp] theorem State.modStale_clk (f : Bool → Bool) : (s.modStale k f).clk = s.clk := rfl
@[simp] theorem State.modStale_bus (f : Bool → Bool) : (s.modStale k f).bus = s.bus := rfl
@[simp] theorem State.modStale_mb (f : Bool → Bool) : (s.modStale k f).mb = s.mb := rfl
@[simp] theorem State.modStale_fw (f : Bool → Bool) : (s.modStale k f).fw = s.fw := rfl
@[simp] theorem State.modStale_pins (f : Bool → Bool) : (s.modStale k f).pins = s.pins := rfl
@[simp] theorem State.modStale_pat (f : Bool → Bool) : (s.modStale k f).pat = s.pat := rfl
@[simp] theorem State.modStale_lp (f : Bool → Bool) : (s.modStale k f).lp = s.lp := rfl
@[simp] theorem State.modStale_meas (f : Bool → Bool) : (s.modStale k f).meas = s.meas := rfl
@[simp] theorem State.modStale_harv (f : Bool → Bool) : (s.modStale k f).harv = s.harv := rfl
@[simp] theorem State.modStale_link (f : Bool → Bool) : (s.modStale k f).link = s.link := rfl
@[simp] theorem State.modStale_ser (f : Bool → Bool) : (s.modStale k f).ser = s.ser := rfl
@[simp] theorem State.modStale_sup (f : Bool → Bool) : (s.modStale k f).sup = s.sup := rfl
@[simp] theorem State.modStale_cal (f : Bool → Bool) : (s.modStale k f).cal = s.cal := rfl
@[simp] theorem State.modStale_flt (f : Bool → Bool) : (s.modStale k f).flt = s.flt := rfl

/-! modCkgen. -/

@[simp] theorem State.modCkgen_ckgen (f : ClockGen → ClockGen) : (s.modCkgen k f).ckgen j = if j = k then f (s.ckgen k) else s.ckgen j :=
  tget_tmod _ _ k f j
@[simp] theorem State.modCkgen_tsetAt (f : ClockGen → ClockGen) : (s.modCkgen k f).tsetAt j = s.tsetAt j := rfl
@[simp] theorem State.modCkgen_tdll (f : ClockGen → ClockGen) : (s.modCkgen k f).tdll j = s.tdll j := rfl
@[simp] theorem State.modCkgen_drift (f : ClockGen → ClockGen) : (s.modCkgen k f).drift j = s.drift j := rfl
@[simp] theorem State.modCkgen_stale (f : ClockGen → ClockGen) : (s.modCkgen k f).stale j = s.stale j := rfl
@[simp] theorem State.modCkgen_pinck (f : ClockGen → ClockGen) : (s.modCkgen k f).pinck j = s.pinck j := rfl
@[simp] theorem State.modCkgen_slices (f : ClockGen → ClockGen) : (s.modCkgen k f).slices j = s.slices j := rfl
@[simp] theorem State.modCkgen_base (f : ClockGen → ClockGen) : (s.modCkgen k f).base j = s.base j := rfl
@[simp] theorem State.modCkgen_pending (f : ClockGen → ClockGen) : (s.modCkgen k f).pending = s.pending := rfl
@[simp] theorem State.modCkgen_free (f : ClockGen → ClockGen) : (s.modCkgen k f).free = s.free := rfl
@[simp] theorem State.modCkgen_clk (f : ClockGen → ClockGen) : (s.modCkgen k f).clk = s.clk := rfl
@[simp] theorem State.modCkgen_bus (f : ClockGen → ClockGen) : (s.modCkgen k f).bus = s.bus := rfl
@[simp] theorem State.modCkgen_mb (f : ClockGen → ClockGen) : (s.modCkgen k f).mb = s.mb := rfl
@[simp] theorem State.modCkgen_fw (f : ClockGen → ClockGen) : (s.modCkgen k f).fw = s.fw := rfl
@[simp] theorem State.modCkgen_pins (f : ClockGen → ClockGen) : (s.modCkgen k f).pins = s.pins := rfl
@[simp] theorem State.modCkgen_pat (f : ClockGen → ClockGen) : (s.modCkgen k f).pat = s.pat := rfl
@[simp] theorem State.modCkgen_lp (f : ClockGen → ClockGen) : (s.modCkgen k f).lp = s.lp := rfl
@[simp] theorem State.modCkgen_meas (f : ClockGen → ClockGen) : (s.modCkgen k f).meas = s.meas := rfl
@[simp] theorem State.modCkgen_harv (f : ClockGen → ClockGen) : (s.modCkgen k f).harv = s.harv := rfl
@[simp] theorem State.modCkgen_link (f : ClockGen → ClockGen) : (s.modCkgen k f).link = s.link := rfl
@[simp] theorem State.modCkgen_ser (f : ClockGen → ClockGen) : (s.modCkgen k f).ser = s.ser := rfl
@[simp] theorem State.modCkgen_sup (f : ClockGen → ClockGen) : (s.modCkgen k f).sup = s.sup := rfl
@[simp] theorem State.modCkgen_cal (f : ClockGen → ClockGen) : (s.modCkgen k f).cal = s.cal := rfl
@[simp] theorem State.modCkgen_flt (f : ClockGen → ClockGen) : (s.modCkgen k f).flt = s.flt := rfl

/-! modPinck. -/

@[simp] theorem State.modPinck_pinck (f : PinClock → PinClock) : (s.modPinck k f).pinck j = if j = k then f (s.pinck k) else s.pinck j :=
  tget_tmod _ _ k f j
@[simp] theorem State.modPinck_tsetAt (f : PinClock → PinClock) : (s.modPinck k f).tsetAt j = s.tsetAt j := rfl
@[simp] theorem State.modPinck_tdll (f : PinClock → PinClock) : (s.modPinck k f).tdll j = s.tdll j := rfl
@[simp] theorem State.modPinck_drift (f : PinClock → PinClock) : (s.modPinck k f).drift j = s.drift j := rfl
@[simp] theorem State.modPinck_stale (f : PinClock → PinClock) : (s.modPinck k f).stale j = s.stale j := rfl
@[simp] theorem State.modPinck_ckgen (f : PinClock → PinClock) : (s.modPinck k f).ckgen j = s.ckgen j := rfl
@[simp] theorem State.modPinck_slices (f : PinClock → PinClock) : (s.modPinck k f).slices j = s.slices j := rfl
@[simp] theorem State.modPinck_base (f : PinClock → PinClock) : (s.modPinck k f).base j = s.base j := rfl
@[simp] theorem State.modPinck_pending (f : PinClock → PinClock) : (s.modPinck k f).pending = s.pending := rfl
@[simp] theorem State.modPinck_free (f : PinClock → PinClock) : (s.modPinck k f).free = s.free := rfl
@[simp] theorem State.modPinck_clk (f : PinClock → PinClock) : (s.modPinck k f).clk = s.clk := rfl
@[simp] theorem State.modPinck_bus (f : PinClock → PinClock) : (s.modPinck k f).bus = s.bus := rfl
@[simp] theorem State.modPinck_mb (f : PinClock → PinClock) : (s.modPinck k f).mb = s.mb := rfl
@[simp] theorem State.modPinck_fw (f : PinClock → PinClock) : (s.modPinck k f).fw = s.fw := rfl
@[simp] theorem State.modPinck_pins (f : PinClock → PinClock) : (s.modPinck k f).pins = s.pins := rfl
@[simp] theorem State.modPinck_pat (f : PinClock → PinClock) : (s.modPinck k f).pat = s.pat := rfl
@[simp] theorem State.modPinck_lp (f : PinClock → PinClock) : (s.modPinck k f).lp = s.lp := rfl
@[simp] theorem State.modPinck_meas (f : PinClock → PinClock) : (s.modPinck k f).meas = s.meas := rfl
@[simp] theorem State.modPinck_harv (f : PinClock → PinClock) : (s.modPinck k f).harv = s.harv := rfl
@[simp] theorem State.modPinck_link (f : PinClock → PinClock) : (s.modPinck k f).link = s.link := rfl
@[simp] theorem State.modPinck_ser (f : PinClock → PinClock) : (s.modPinck k f).ser = s.ser := rfl
@[simp] theorem State.modPinck_sup (f : PinClock → PinClock) : (s.modPinck k f).sup = s.sup := rfl
@[simp] theorem State.modPinck_cal (f : PinClock → PinClock) : (s.modPinck k f).cal = s.cal := rfl
@[simp] theorem State.modPinck_flt (f : PinClock → PinClock) : (s.modPinck k f).flt = s.flt := rfl

/-! modSlices. -/

@[simp] theorem State.modSlices_slices (f : PinEdges → PinEdges) : (s.modSlices k f).slices j = if j = k then f (s.slices k) else s.slices j :=
  tget_tmod _ _ k f j
@[simp] theorem State.modSlices_tsetAt (f : PinEdges → PinEdges) : (s.modSlices k f).tsetAt j = s.tsetAt j := rfl
@[simp] theorem State.modSlices_tdll (f : PinEdges → PinEdges) : (s.modSlices k f).tdll j = s.tdll j := rfl
@[simp] theorem State.modSlices_drift (f : PinEdges → PinEdges) : (s.modSlices k f).drift j = s.drift j := rfl
@[simp] theorem State.modSlices_stale (f : PinEdges → PinEdges) : (s.modSlices k f).stale j = s.stale j := rfl
@[simp] theorem State.modSlices_ckgen (f : PinEdges → PinEdges) : (s.modSlices k f).ckgen j = s.ckgen j := rfl
@[simp] theorem State.modSlices_pinck (f : PinEdges → PinEdges) : (s.modSlices k f).pinck j = s.pinck j := rfl
@[simp] theorem State.modSlices_base (f : PinEdges → PinEdges) : (s.modSlices k f).base j = s.base j := rfl
@[simp] theorem State.modSlices_pending (f : PinEdges → PinEdges) : (s.modSlices k f).pending = s.pending := rfl
@[simp] theorem State.modSlices_free (f : PinEdges → PinEdges) : (s.modSlices k f).free = s.free := rfl
@[simp] theorem State.modSlices_clk (f : PinEdges → PinEdges) : (s.modSlices k f).clk = s.clk := rfl
@[simp] theorem State.modSlices_bus (f : PinEdges → PinEdges) : (s.modSlices k f).bus = s.bus := rfl
@[simp] theorem State.modSlices_mb (f : PinEdges → PinEdges) : (s.modSlices k f).mb = s.mb := rfl
@[simp] theorem State.modSlices_fw (f : PinEdges → PinEdges) : (s.modSlices k f).fw = s.fw := rfl
@[simp] theorem State.modSlices_pins (f : PinEdges → PinEdges) : (s.modSlices k f).pins = s.pins := rfl
@[simp] theorem State.modSlices_pat (f : PinEdges → PinEdges) : (s.modSlices k f).pat = s.pat := rfl
@[simp] theorem State.modSlices_lp (f : PinEdges → PinEdges) : (s.modSlices k f).lp = s.lp := rfl
@[simp] theorem State.modSlices_meas (f : PinEdges → PinEdges) : (s.modSlices k f).meas = s.meas := rfl
@[simp] theorem State.modSlices_harv (f : PinEdges → PinEdges) : (s.modSlices k f).harv = s.harv := rfl
@[simp] theorem State.modSlices_link (f : PinEdges → PinEdges) : (s.modSlices k f).link = s.link := rfl
@[simp] theorem State.modSlices_ser (f : PinEdges → PinEdges) : (s.modSlices k f).ser = s.ser := rfl
@[simp] theorem State.modSlices_sup (f : PinEdges → PinEdges) : (s.modSlices k f).sup = s.sup := rfl
@[simp] theorem State.modSlices_cal (f : PinEdges → PinEdges) : (s.modSlices k f).cal = s.cal := rfl
@[simp] theorem State.modSlices_flt (f : PinEdges → PinEdges) : (s.modSlices k f).flt = s.flt := rfl

/-! modSeq. -/

@[simp] theorem State.modSeq_seq (f : SeqState → SeqState) : (s.modSeq k f).seq j = if j = k then f (s.seq k) else s.seq j :=
  tget_tmod _ _ k f j
@[simp] theorem State.modSeq_segm (f : SeqState → SeqState) : (s.modSeq k f).segm j = s.segm j := rfl
@[simp] theorem State.modSeq_strm (f : SeqState → SeqState) : (s.modSeq k f).strm j = s.strm j := rfl
@[simp] theorem State.modSeq_trig (f : SeqState → SeqState) : (s.modSeq k f).trig j = s.trig j := rfl
@[simp] theorem State.modSeq_tin (f : SeqState → SeqState) : (s.modSeq k f).tin j = s.tin j := rfl
@[simp] theorem State.modSeq_dramByte (f : SeqState → SeqState) : (s.modSeq k f).dramByte j = s.dramByte j := rfl
@[simp] theorem State.modSeq_pending (f : SeqState → SeqState) : (s.modSeq k f).pending = s.pending := rfl
@[simp] theorem State.modSeq_free (f : SeqState → SeqState) : (s.modSeq k f).free = s.free := rfl
@[simp] theorem State.modSeq_clk (f : SeqState → SeqState) : (s.modSeq k f).clk = s.clk := rfl
@[simp] theorem State.modSeq_bus (f : SeqState → SeqState) : (s.modSeq k f).bus = s.bus := rfl
@[simp] theorem State.modSeq_mb (f : SeqState → SeqState) : (s.modSeq k f).mb = s.mb := rfl
@[simp] theorem State.modSeq_fw (f : SeqState → SeqState) : (s.modSeq k f).fw = s.fw := rfl
@[simp] theorem State.modSeq_pins (f : SeqState → SeqState) : (s.modSeq k f).pins = s.pins := rfl
@[simp] theorem State.modSeq_edge (f : SeqState → SeqState) : (s.modSeq k f).edge = s.edge := rfl
@[simp] theorem State.modSeq_lp (f : SeqState → SeqState) : (s.modSeq k f).lp = s.lp := rfl
@[simp] theorem State.modSeq_meas (f : SeqState → SeqState) : (s.modSeq k f).meas = s.meas := rfl
@[simp] theorem State.modSeq_harv (f : SeqState → SeqState) : (s.modSeq k f).harv = s.harv := rfl
@[simp] theorem State.modSeq_link (f : SeqState → SeqState) : (s.modSeq k f).link = s.link := rfl
@[simp] theorem State.modSeq_ser (f : SeqState → SeqState) : (s.modSeq k f).ser = s.ser := rfl
@[simp] theorem State.modSeq_sup (f : SeqState → SeqState) : (s.modSeq k f).sup = s.sup := rfl
@[simp] theorem State.modSeq_cal (f : SeqState → SeqState) : (s.modSeq k f).cal = s.cal := rfl
@[simp] theorem State.modSeq_flt (f : SeqState → SeqState) : (s.modSeq k f).flt = s.flt := rfl

/-! modSegm. -/

@[simp] theorem State.modSegm_segm (f : Segment → Segment) : (s.modSegm k f).segm j = if j = k then f (s.segm k) else s.segm j :=
  tget_tmod _ _ k f j
@[simp] theorem State.modSegm_seq (f : Segment → Segment) : (s.modSegm k f).seq j = s.seq j := rfl
@[simp] theorem State.modSegm_strm (f : Segment → Segment) : (s.modSegm k f).strm j = s.strm j := rfl
@[simp] theorem State.modSegm_trig (f : Segment → Segment) : (s.modSegm k f).trig j = s.trig j := rfl
@[simp] theorem State.modSegm_tin (f : Segment → Segment) : (s.modSegm k f).tin j = s.tin j := rfl
@[simp] theorem State.modSegm_dramByte (f : Segment → Segment) : (s.modSegm k f).dramByte j = s.dramByte j := rfl
@[simp] theorem State.modSegm_pending (f : Segment → Segment) : (s.modSegm k f).pending = s.pending := rfl
@[simp] theorem State.modSegm_free (f : Segment → Segment) : (s.modSegm k f).free = s.free := rfl
@[simp] theorem State.modSegm_clk (f : Segment → Segment) : (s.modSegm k f).clk = s.clk := rfl
@[simp] theorem State.modSegm_bus (f : Segment → Segment) : (s.modSegm k f).bus = s.bus := rfl
@[simp] theorem State.modSegm_mb (f : Segment → Segment) : (s.modSegm k f).mb = s.mb := rfl
@[simp] theorem State.modSegm_fw (f : Segment → Segment) : (s.modSegm k f).fw = s.fw := rfl
@[simp] theorem State.modSegm_pins (f : Segment → Segment) : (s.modSegm k f).pins = s.pins := rfl
@[simp] theorem State.modSegm_edge (f : Segment → Segment) : (s.modSegm k f).edge = s.edge := rfl
@[simp] theorem State.modSegm_lp (f : Segment → Segment) : (s.modSegm k f).lp = s.lp := rfl
@[simp] theorem State.modSegm_meas (f : Segment → Segment) : (s.modSegm k f).meas = s.meas := rfl
@[simp] theorem State.modSegm_harv (f : Segment → Segment) : (s.modSegm k f).harv = s.harv := rfl
@[simp] theorem State.modSegm_link (f : Segment → Segment) : (s.modSegm k f).link = s.link := rfl
@[simp] theorem State.modSegm_ser (f : Segment → Segment) : (s.modSegm k f).ser = s.ser := rfl
@[simp] theorem State.modSegm_sup (f : Segment → Segment) : (s.modSegm k f).sup = s.sup := rfl
@[simp] theorem State.modSegm_cal (f : Segment → Segment) : (s.modSegm k f).cal = s.cal := rfl
@[simp] theorem State.modSegm_flt (f : Segment → Segment) : (s.modSegm k f).flt = s.flt := rfl

/-! modStrm. -/

@[simp] theorem State.modStrm_strm (f : Stream → Stream) : (s.modStrm k f).strm j = if j = k then f (s.strm k) else s.strm j :=
  tget_tmod _ _ k f j
@[simp] theorem State.modStrm_seq (f : Stream → Stream) : (s.modStrm k f).seq j = s.seq j := rfl
@[simp] theorem State.modStrm_segm (f : Stream → Stream) : (s.modStrm k f).segm j = s.segm j := rfl
@[simp] theorem State.modStrm_trig (f : Stream → Stream) : (s.modStrm k f).trig j = s.trig j := rfl
@[simp] theorem State.modStrm_tin (f : Stream → Stream) : (s.modStrm k f).tin j = s.tin j := rfl
@[simp] theorem State.modStrm_dramByte (f : Stream → Stream) : (s.modStrm k f).dramByte j = s.dramByte j := rfl
@[simp] theorem State.modStrm_pending (f : Stream → Stream) : (s.modStrm k f).pending = s.pending := rfl
@[simp] theorem State.modStrm_free (f : Stream → Stream) : (s.modStrm k f).free = s.free := rfl
@[simp] theorem State.modStrm_clk (f : Stream → Stream) : (s.modStrm k f).clk = s.clk := rfl
@[simp] theorem State.modStrm_bus (f : Stream → Stream) : (s.modStrm k f).bus = s.bus := rfl
@[simp] theorem State.modStrm_mb (f : Stream → Stream) : (s.modStrm k f).mb = s.mb := rfl
@[simp] theorem State.modStrm_fw (f : Stream → Stream) : (s.modStrm k f).fw = s.fw := rfl
@[simp] theorem State.modStrm_pins (f : Stream → Stream) : (s.modStrm k f).pins = s.pins := rfl
@[simp] theorem State.modStrm_edge (f : Stream → Stream) : (s.modStrm k f).edge = s.edge := rfl
@[simp] theorem State.modStrm_lp (f : Stream → Stream) : (s.modStrm k f).lp = s.lp := rfl
@[simp] theorem State.modStrm_meas (f : Stream → Stream) : (s.modStrm k f).meas = s.meas := rfl
@[simp] theorem State.modStrm_harv (f : Stream → Stream) : (s.modStrm k f).harv = s.harv := rfl
@[simp] theorem State.modStrm_link (f : Stream → Stream) : (s.modStrm k f).link = s.link := rfl
@[simp] theorem State.modStrm_ser (f : Stream → Stream) : (s.modStrm k f).ser = s.ser := rfl
@[simp] theorem State.modStrm_sup (f : Stream → Stream) : (s.modStrm k f).sup = s.sup := rfl
@[simp] theorem State.modStrm_cal (f : Stream → Stream) : (s.modStrm k f).cal = s.cal := rfl
@[simp] theorem State.modStrm_flt (f : Stream → Stream) : (s.modStrm k f).flt = s.flt := rfl

/-! modTrig. -/

@[simp] theorem State.modTrig_trig (f : Trig → Trig) : (s.modTrig k f).trig j = if j = k then f (s.trig k) else s.trig j :=
  tget_tmod _ _ k f j
@[simp] theorem State.modTrig_seq (f : Trig → Trig) : (s.modTrig k f).seq j = s.seq j := rfl
@[simp] theorem State.modTrig_segm (f : Trig → Trig) : (s.modTrig k f).segm j = s.segm j := rfl
@[simp] theorem State.modTrig_strm (f : Trig → Trig) : (s.modTrig k f).strm j = s.strm j := rfl
@[simp] theorem State.modTrig_tin (f : Trig → Trig) : (s.modTrig k f).tin j = s.tin j := rfl
@[simp] theorem State.modTrig_dramByte (f : Trig → Trig) : (s.modTrig k f).dramByte j = s.dramByte j := rfl
@[simp] theorem State.modTrig_pending (f : Trig → Trig) : (s.modTrig k f).pending = s.pending := rfl
@[simp] theorem State.modTrig_free (f : Trig → Trig) : (s.modTrig k f).free = s.free := rfl
@[simp] theorem State.modTrig_clk (f : Trig → Trig) : (s.modTrig k f).clk = s.clk := rfl
@[simp] theorem State.modTrig_bus (f : Trig → Trig) : (s.modTrig k f).bus = s.bus := rfl
@[simp] theorem State.modTrig_mb (f : Trig → Trig) : (s.modTrig k f).mb = s.mb := rfl
@[simp] theorem State.modTrig_fw (f : Trig → Trig) : (s.modTrig k f).fw = s.fw := rfl
@[simp] theorem State.modTrig_pins (f : Trig → Trig) : (s.modTrig k f).pins = s.pins := rfl
@[simp] theorem State.modTrig_edge (f : Trig → Trig) : (s.modTrig k f).edge = s.edge := rfl
@[simp] theorem State.modTrig_lp (f : Trig → Trig) : (s.modTrig k f).lp = s.lp := rfl
@[simp] theorem State.modTrig_meas (f : Trig → Trig) : (s.modTrig k f).meas = s.meas := rfl
@[simp] theorem State.modTrig_harv (f : Trig → Trig) : (s.modTrig k f).harv = s.harv := rfl
@[simp] theorem State.modTrig_link (f : Trig → Trig) : (s.modTrig k f).link = s.link := rfl
@[simp] theorem State.modTrig_ser (f : Trig → Trig) : (s.modTrig k f).ser = s.ser := rfl
@[simp] theorem State.modTrig_sup (f : Trig → Trig) : (s.modTrig k f).sup = s.sup := rfl
@[simp] theorem State.modTrig_cal (f : Trig → Trig) : (s.modTrig k f).cal = s.cal := rfl
@[simp] theorem State.modTrig_flt (f : Trig → Trig) : (s.modTrig k f).flt = s.flt := rfl

/-! modTin. -/

@[simp] theorem State.modTin_tin (f : Tin → Tin) : (s.modTin k f).tin j = if j = k then f (s.tin k) else s.tin j :=
  tget_tmod _ _ k f j
@[simp] theorem State.modTin_seq (f : Tin → Tin) : (s.modTin k f).seq j = s.seq j := rfl
@[simp] theorem State.modTin_segm (f : Tin → Tin) : (s.modTin k f).segm j = s.segm j := rfl
@[simp] theorem State.modTin_strm (f : Tin → Tin) : (s.modTin k f).strm j = s.strm j := rfl
@[simp] theorem State.modTin_trig (f : Tin → Tin) : (s.modTin k f).trig j = s.trig j := rfl
@[simp] theorem State.modTin_dramByte (f : Tin → Tin) : (s.modTin k f).dramByte j = s.dramByte j := rfl
@[simp] theorem State.modTin_pending (f : Tin → Tin) : (s.modTin k f).pending = s.pending := rfl
@[simp] theorem State.modTin_free (f : Tin → Tin) : (s.modTin k f).free = s.free := rfl
@[simp] theorem State.modTin_clk (f : Tin → Tin) : (s.modTin k f).clk = s.clk := rfl
@[simp] theorem State.modTin_bus (f : Tin → Tin) : (s.modTin k f).bus = s.bus := rfl
@[simp] theorem State.modTin_mb (f : Tin → Tin) : (s.modTin k f).mb = s.mb := rfl
@[simp] theorem State.modTin_fw (f : Tin → Tin) : (s.modTin k f).fw = s.fw := rfl
@[simp] theorem State.modTin_pins (f : Tin → Tin) : (s.modTin k f).pins = s.pins := rfl
@[simp] theorem State.modTin_edge (f : Tin → Tin) : (s.modTin k f).edge = s.edge := rfl
@[simp] theorem State.modTin_lp (f : Tin → Tin) : (s.modTin k f).lp = s.lp := rfl
@[simp] theorem State.modTin_meas (f : Tin → Tin) : (s.modTin k f).meas = s.meas := rfl
@[simp] theorem State.modTin_harv (f : Tin → Tin) : (s.modTin k f).harv = s.harv := rfl
@[simp] theorem State.modTin_link (f : Tin → Tin) : (s.modTin k f).link = s.link := rfl
@[simp] theorem State.modTin_ser (f : Tin → Tin) : (s.modTin k f).ser = s.ser := rfl
@[simp] theorem State.modTin_sup (f : Tin → Tin) : (s.modTin k f).sup = s.sup := rfl
@[simp] theorem State.modTin_cal (f : Tin → Tin) : (s.modTin k f).cal = s.cal := rfl
@[simp] theorem State.modTin_flt (f : Tin → Tin) : (s.modTin k f).flt = s.flt := rfl

/-! modDramByte. -/

@[simp] theorem State.modDramByte_dramByte (f : Byte → Byte) : (s.modDramByte k f).dramByte j = if j = k then f (s.dramByte k) else s.dramByte j :=
  tget_tmod _ _ k f j
@[simp] theorem State.modDramByte_seq (f : Byte → Byte) : (s.modDramByte k f).seq j = s.seq j := rfl
@[simp] theorem State.modDramByte_segm (f : Byte → Byte) : (s.modDramByte k f).segm j = s.segm j := rfl
@[simp] theorem State.modDramByte_strm (f : Byte → Byte) : (s.modDramByte k f).strm j = s.strm j := rfl
@[simp] theorem State.modDramByte_trig (f : Byte → Byte) : (s.modDramByte k f).trig j = s.trig j := rfl
@[simp] theorem State.modDramByte_tin (f : Byte → Byte) : (s.modDramByte k f).tin j = s.tin j := rfl
@[simp] theorem State.modDramByte_pending (f : Byte → Byte) : (s.modDramByte k f).pending = s.pending := rfl
@[simp] theorem State.modDramByte_free (f : Byte → Byte) : (s.modDramByte k f).free = s.free := rfl
@[simp] theorem State.modDramByte_clk (f : Byte → Byte) : (s.modDramByte k f).clk = s.clk := rfl
@[simp] theorem State.modDramByte_bus (f : Byte → Byte) : (s.modDramByte k f).bus = s.bus := rfl
@[simp] theorem State.modDramByte_mb (f : Byte → Byte) : (s.modDramByte k f).mb = s.mb := rfl
@[simp] theorem State.modDramByte_fw (f : Byte → Byte) : (s.modDramByte k f).fw = s.fw := rfl
@[simp] theorem State.modDramByte_pins (f : Byte → Byte) : (s.modDramByte k f).pins = s.pins := rfl
@[simp] theorem State.modDramByte_edge (f : Byte → Byte) : (s.modDramByte k f).edge = s.edge := rfl
@[simp] theorem State.modDramByte_lp (f : Byte → Byte) : (s.modDramByte k f).lp = s.lp := rfl
@[simp] theorem State.modDramByte_meas (f : Byte → Byte) : (s.modDramByte k f).meas = s.meas := rfl
@[simp] theorem State.modDramByte_harv (f : Byte → Byte) : (s.modDramByte k f).harv = s.harv := rfl
@[simp] theorem State.modDramByte_link (f : Byte → Byte) : (s.modDramByte k f).link = s.link := rfl
@[simp] theorem State.modDramByte_ser (f : Byte → Byte) : (s.modDramByte k f).ser = s.ser := rfl
@[simp] theorem State.modDramByte_sup (f : Byte → Byte) : (s.modDramByte k f).sup = s.sup := rfl
@[simp] theorem State.modDramByte_cal (f : Byte → Byte) : (s.modDramByte k f).cal = s.cal := rfl
@[simp] theorem State.modDramByte_flt (f : Byte → Byte) : (s.modDramByte k f).flt = s.flt := rfl

/-! modLoop. -/

@[simp] theorem State.modLoop_loop (f : LoopState → LoopState) : (s.modLoop k f).loop j = if j = k then f (s.loop k) else s.loop j :=
  tget_tmod _ _ k f j
@[simp] theorem State.modLoop_gainPt (f : LoopState → LoopState) : (s.modLoop k f).gainPt j = s.gainPt j := rfl
@[simp] theorem State.modLoop_swp (f : LoopState → LoopState) : (s.modLoop k f).swp j = s.swp j := rfl
@[simp] theorem State.modLoop_waveSeg (f : LoopState → LoopState) : (s.modLoop k f).waveSeg j = s.waveSeg j := rfl
@[simp] theorem State.modLoop_pending (f : LoopState → LoopState) : (s.modLoop k f).pending = s.pending := rfl
@[simp] theorem State.modLoop_free (f : LoopState → LoopState) : (s.modLoop k f).free = s.free := rfl
@[simp] theorem State.modLoop_clk (f : LoopState → LoopState) : (s.modLoop k f).clk = s.clk := rfl
@[simp] theorem State.modLoop_bus (f : LoopState → LoopState) : (s.modLoop k f).bus = s.bus := rfl
@[simp] theorem State.modLoop_mb (f : LoopState → LoopState) : (s.modLoop k f).mb = s.mb := rfl
@[simp] theorem State.modLoop_fw (f : LoopState → LoopState) : (s.modLoop k f).fw = s.fw := rfl
@[simp] theorem State.modLoop_pins (f : LoopState → LoopState) : (s.modLoop k f).pins = s.pins := rfl
@[simp] theorem State.modLoop_edge (f : LoopState → LoopState) : (s.modLoop k f).edge = s.edge := rfl
@[simp] theorem State.modLoop_pat (f : LoopState → LoopState) : (s.modLoop k f).pat = s.pat := rfl
@[simp] theorem State.modLoop_meas (f : LoopState → LoopState) : (s.modLoop k f).meas = s.meas := rfl
@[simp] theorem State.modLoop_harv (f : LoopState → LoopState) : (s.modLoop k f).harv = s.harv := rfl
@[simp] theorem State.modLoop_link (f : LoopState → LoopState) : (s.modLoop k f).link = s.link := rfl
@[simp] theorem State.modLoop_ser (f : LoopState → LoopState) : (s.modLoop k f).ser = s.ser := rfl
@[simp] theorem State.modLoop_sup (f : LoopState → LoopState) : (s.modLoop k f).sup = s.sup := rfl
@[simp] theorem State.modLoop_cal (f : LoopState → LoopState) : (s.modLoop k f).cal = s.cal := rfl
@[simp] theorem State.modLoop_flt (f : LoopState → LoopState) : (s.modLoop k f).flt = s.flt := rfl

/-! modGainPt. -/

@[simp] theorem State.modGainPt_gainPt (f : Nat → Nat) : (s.modGainPt k f).gainPt j = if j = k then f (s.gainPt k) else s.gainPt j :=
  tget_tmod _ _ k f j
@[simp] theorem State.modGainPt_loop (f : Nat → Nat) : (s.modGainPt k f).loop j = s.loop j := rfl
@[simp] theorem State.modGainPt_swp (f : Nat → Nat) : (s.modGainPt k f).swp j = s.swp j := rfl
@[simp] theorem State.modGainPt_waveSeg (f : Nat → Nat) : (s.modGainPt k f).waveSeg j = s.waveSeg j := rfl
@[simp] theorem State.modGainPt_pending (f : Nat → Nat) : (s.modGainPt k f).pending = s.pending := rfl
@[simp] theorem State.modGainPt_free (f : Nat → Nat) : (s.modGainPt k f).free = s.free := rfl
@[simp] theorem State.modGainPt_clk (f : Nat → Nat) : (s.modGainPt k f).clk = s.clk := rfl
@[simp] theorem State.modGainPt_bus (f : Nat → Nat) : (s.modGainPt k f).bus = s.bus := rfl
@[simp] theorem State.modGainPt_mb (f : Nat → Nat) : (s.modGainPt k f).mb = s.mb := rfl
@[simp] theorem State.modGainPt_fw (f : Nat → Nat) : (s.modGainPt k f).fw = s.fw := rfl
@[simp] theorem State.modGainPt_pins (f : Nat → Nat) : (s.modGainPt k f).pins = s.pins := rfl
@[simp] theorem State.modGainPt_edge (f : Nat → Nat) : (s.modGainPt k f).edge = s.edge := rfl
@[simp] theorem State.modGainPt_pat (f : Nat → Nat) : (s.modGainPt k f).pat = s.pat := rfl
@[simp] theorem State.modGainPt_meas (f : Nat → Nat) : (s.modGainPt k f).meas = s.meas := rfl
@[simp] theorem State.modGainPt_harv (f : Nat → Nat) : (s.modGainPt k f).harv = s.harv := rfl
@[simp] theorem State.modGainPt_link (f : Nat → Nat) : (s.modGainPt k f).link = s.link := rfl
@[simp] theorem State.modGainPt_ser (f : Nat → Nat) : (s.modGainPt k f).ser = s.ser := rfl
@[simp] theorem State.modGainPt_sup (f : Nat → Nat) : (s.modGainPt k f).sup = s.sup := rfl
@[simp] theorem State.modGainPt_cal (f : Nat → Nat) : (s.modGainPt k f).cal = s.cal := rfl
@[simp] theorem State.modGainPt_flt (f : Nat → Nat) : (s.modGainPt k f).flt = s.flt := rfl

/-! modSwp. -/

@[simp] theorem State.modSwp_swp (f : SweepStep → SweepStep) : (s.modSwp k f).swp j = if j = k then f (s.swp k) else s.swp j :=
  tget_tmod _ _ k f j
@[simp] theorem State.modSwp_loop (f : SweepStep → SweepStep) : (s.modSwp k f).loop j = s.loop j := rfl
@[simp] theorem State.modSwp_gainPt (f : SweepStep → SweepStep) : (s.modSwp k f).gainPt j = s.gainPt j := rfl
@[simp] theorem State.modSwp_waveSeg (f : SweepStep → SweepStep) : (s.modSwp k f).waveSeg j = s.waveSeg j := rfl
@[simp] theorem State.modSwp_pending (f : SweepStep → SweepStep) : (s.modSwp k f).pending = s.pending := rfl
@[simp] theorem State.modSwp_free (f : SweepStep → SweepStep) : (s.modSwp k f).free = s.free := rfl
@[simp] theorem State.modSwp_clk (f : SweepStep → SweepStep) : (s.modSwp k f).clk = s.clk := rfl
@[simp] theorem State.modSwp_bus (f : SweepStep → SweepStep) : (s.modSwp k f).bus = s.bus := rfl
@[simp] theorem State.modSwp_mb (f : SweepStep → SweepStep) : (s.modSwp k f).mb = s.mb := rfl
@[simp] theorem State.modSwp_fw (f : SweepStep → SweepStep) : (s.modSwp k f).fw = s.fw := rfl
@[simp] theorem State.modSwp_pins (f : SweepStep → SweepStep) : (s.modSwp k f).pins = s.pins := rfl
@[simp] theorem State.modSwp_edge (f : SweepStep → SweepStep) : (s.modSwp k f).edge = s.edge := rfl
@[simp] theorem State.modSwp_pat (f : SweepStep → SweepStep) : (s.modSwp k f).pat = s.pat := rfl
@[simp] theorem State.modSwp_meas (f : SweepStep → SweepStep) : (s.modSwp k f).meas = s.meas := rfl
@[simp] theorem State.modSwp_harv (f : SweepStep → SweepStep) : (s.modSwp k f).harv = s.harv := rfl
@[simp] theorem State.modSwp_link (f : SweepStep → SweepStep) : (s.modSwp k f).link = s.link := rfl
@[simp] theorem State.modSwp_ser (f : SweepStep → SweepStep) : (s.modSwp k f).ser = s.ser := rfl
@[simp] theorem State.modSwp_sup (f : SweepStep → SweepStep) : (s.modSwp k f).sup = s.sup := rfl
@[simp] theorem State.modSwp_cal (f : SweepStep → SweepStep) : (s.modSwp k f).cal = s.cal := rfl
@[simp] theorem State.modSwp_flt (f : SweepStep → SweepStep) : (s.modSwp k f).flt = s.flt := rfl

/-! modWaveSeg. -/

@[simp] theorem State.modWaveSeg_waveSeg (f : (List Int) → (List Int)) : (s.modWaveSeg k f).waveSeg j = if j = k then f (s.waveSeg k) else s.waveSeg j :=
  tget_tmod _ _ k f j
@[simp] theorem State.modWaveSeg_loop (f : (List Int) → (List Int)) : (s.modWaveSeg k f).loop j = s.loop j := rfl
@[simp] theorem State.modWaveSeg_gainPt (f : (List Int) → (List Int)) : (s.modWaveSeg k f).gainPt j = s.gainPt j := rfl
@[simp] theorem State.modWaveSeg_swp (f : (List Int) → (List Int)) : (s.modWaveSeg k f).swp j = s.swp j := rfl
@[simp] theorem State.modWaveSeg_pending (f : (List Int) → (List Int)) : (s.modWaveSeg k f).pending = s.pending := rfl
@[simp] theorem State.modWaveSeg_free (f : (List Int) → (List Int)) : (s.modWaveSeg k f).free = s.free := rfl
@[simp] theorem State.modWaveSeg_clk (f : (List Int) → (List Int)) : (s.modWaveSeg k f).clk = s.clk := rfl
@[simp] theorem State.modWaveSeg_bus (f : (List Int) → (List Int)) : (s.modWaveSeg k f).bus = s.bus := rfl
@[simp] theorem State.modWaveSeg_mb (f : (List Int) → (List Int)) : (s.modWaveSeg k f).mb = s.mb := rfl
@[simp] theorem State.modWaveSeg_fw (f : (List Int) → (List Int)) : (s.modWaveSeg k f).fw = s.fw := rfl
@[simp] theorem State.modWaveSeg_pins (f : (List Int) → (List Int)) : (s.modWaveSeg k f).pins = s.pins := rfl
@[simp] theorem State.modWaveSeg_edge (f : (List Int) → (List Int)) : (s.modWaveSeg k f).edge = s.edge := rfl
@[simp] theorem State.modWaveSeg_pat (f : (List Int) → (List Int)) : (s.modWaveSeg k f).pat = s.pat := rfl
@[simp] theorem State.modWaveSeg_meas (f : (List Int) → (List Int)) : (s.modWaveSeg k f).meas = s.meas := rfl
@[simp] theorem State.modWaveSeg_harv (f : (List Int) → (List Int)) : (s.modWaveSeg k f).harv = s.harv := rfl
@[simp] theorem State.modWaveSeg_link (f : (List Int) → (List Int)) : (s.modWaveSeg k f).link = s.link := rfl
@[simp] theorem State.modWaveSeg_ser (f : (List Int) → (List Int)) : (s.modWaveSeg k f).ser = s.ser := rfl
@[simp] theorem State.modWaveSeg_sup (f : (List Int) → (List Int)) : (s.modWaveSeg k f).sup = s.sup := rfl
@[simp] theorem State.modWaveSeg_cal (f : (List Int) → (List Int)) : (s.modWaveSeg k f).cal = s.cal := rfl
@[simp] theorem State.modWaveSeg_flt (f : (List Int) → (List Int)) : (s.modWaveSeg k f).flt = s.flt := rfl

/-! modAvg. -/

@[simp] theorem State.modAvg_avg (f : Averager → Averager) : (s.modAvg k f).avg j = if j = k then f (s.avg k) else s.avg j :=
  tget_tmod _ _ k f j
@[simp] theorem State.modAvg_wmon (f : Averager → Averager) : (s.modAvg k f).wmon j = s.wmon j := rfl
@[simp] theorem State.modAvg_tiu (f : Averager → Averager) : (s.modAvg k f).tiu j = s.tiu j := rfl
@[simp] theorem State.modAvg_pending (f : Averager → Averager) : (s.modAvg k f).pending = s.pending := rfl
@[simp] theorem State.modAvg_free (f : Averager → Averager) : (s.modAvg k f).free = s.free := rfl
@[simp] theorem State.modAvg_clk (f : Averager → Averager) : (s.modAvg k f).clk = s.clk := rfl
@[simp] theorem State.modAvg_bus (f : Averager → Averager) : (s.modAvg k f).bus = s.bus := rfl
@[simp] theorem State.modAvg_mb (f : Averager → Averager) : (s.modAvg k f).mb = s.mb := rfl
@[simp] theorem State.modAvg_fw (f : Averager → Averager) : (s.modAvg k f).fw = s.fw := rfl
@[simp] theorem State.modAvg_pins (f : Averager → Averager) : (s.modAvg k f).pins = s.pins := rfl
@[simp] theorem State.modAvg_edge (f : Averager → Averager) : (s.modAvg k f).edge = s.edge := rfl
@[simp] theorem State.modAvg_pat (f : Averager → Averager) : (s.modAvg k f).pat = s.pat := rfl
@[simp] theorem State.modAvg_lp (f : Averager → Averager) : (s.modAvg k f).lp = s.lp := rfl
@[simp] theorem State.modAvg_harv (f : Averager → Averager) : (s.modAvg k f).harv = s.harv := rfl
@[simp] theorem State.modAvg_link (f : Averager → Averager) : (s.modAvg k f).link = s.link := rfl
@[simp] theorem State.modAvg_ser (f : Averager → Averager) : (s.modAvg k f).ser = s.ser := rfl
@[simp] theorem State.modAvg_sup (f : Averager → Averager) : (s.modAvg k f).sup = s.sup := rfl
@[simp] theorem State.modAvg_cal (f : Averager → Averager) : (s.modAvg k f).cal = s.cal := rfl
@[simp] theorem State.modAvg_flt (f : Averager → Averager) : (s.modAvg k f).flt = s.flt := rfl

/-! modWmon. -/

@[simp] theorem State.modWmon_wmon (f : Monitoring → Monitoring) : (s.modWmon k f).wmon j = if j = k then f (s.wmon k) else s.wmon j :=
  tget_tmod _ _ k f j
@[simp] theorem State.modWmon_avg (f : Monitoring → Monitoring) : (s.modWmon k f).avg j = s.avg j := rfl
@[simp] theorem State.modWmon_tiu (f : Monitoring → Monitoring) : (s.modWmon k f).tiu j = s.tiu j := rfl
@[simp] theorem State.modWmon_pending (f : Monitoring → Monitoring) : (s.modWmon k f).pending = s.pending := rfl
@[simp] theorem State.modWmon_free (f : Monitoring → Monitoring) : (s.modWmon k f).free = s.free := rfl
@[simp] theorem State.modWmon_clk (f : Monitoring → Monitoring) : (s.modWmon k f).clk = s.clk := rfl
@[simp] theorem State.modWmon_bus (f : Monitoring → Monitoring) : (s.modWmon k f).bus = s.bus := rfl
@[simp] theorem State.modWmon_mb (f : Monitoring → Monitoring) : (s.modWmon k f).mb = s.mb := rfl
@[simp] theorem State.modWmon_fw (f : Monitoring → Monitoring) : (s.modWmon k f).fw = s.fw := rfl
@[simp] theorem State.modWmon_pins (f : Monitoring → Monitoring) : (s.modWmon k f).pins = s.pins := rfl
@[simp] theorem State.modWmon_edge (f : Monitoring → Monitoring) : (s.modWmon k f).edge = s.edge := rfl
@[simp] theorem State.modWmon_pat (f : Monitoring → Monitoring) : (s.modWmon k f).pat = s.pat := rfl
@[simp] theorem State.modWmon_lp (f : Monitoring → Monitoring) : (s.modWmon k f).lp = s.lp := rfl
@[simp] theorem State.modWmon_harv (f : Monitoring → Monitoring) : (s.modWmon k f).harv = s.harv := rfl
@[simp] theorem State.modWmon_link (f : Monitoring → Monitoring) : (s.modWmon k f).link = s.link := rfl
@[simp] theorem State.modWmon_ser (f : Monitoring → Monitoring) : (s.modWmon k f).ser = s.ser := rfl
@[simp] theorem State.modWmon_sup (f : Monitoring → Monitoring) : (s.modWmon k f).sup = s.sup := rfl
@[simp] theorem State.modWmon_cal (f : Monitoring → Monitoring) : (s.modWmon k f).cal = s.cal := rfl
@[simp] theorem State.modWmon_flt (f : Monitoring → Monitoring) : (s.modWmon k f).flt = s.flt := rfl

/-! modTiu. -/

@[simp] theorem State.modTiu_tiu (f : TimeInterval → TimeInterval) : (s.modTiu k f).tiu j = if j = k then f (s.tiu k) else s.tiu j :=
  tget_tmod _ _ k f j
@[simp] theorem State.modTiu_avg (f : TimeInterval → TimeInterval) : (s.modTiu k f).avg j = s.avg j := rfl
@[simp] theorem State.modTiu_wmon (f : TimeInterval → TimeInterval) : (s.modTiu k f).wmon j = s.wmon j := rfl
@[simp] theorem State.modTiu_pending (f : TimeInterval → TimeInterval) : (s.modTiu k f).pending = s.pending := rfl
@[simp] theorem State.modTiu_free (f : TimeInterval → TimeInterval) : (s.modTiu k f).free = s.free := rfl
@[simp] theorem State.modTiu_clk (f : TimeInterval → TimeInterval) : (s.modTiu k f).clk = s.clk := rfl
@[simp] theorem State.modTiu_bus (f : TimeInterval → TimeInterval) : (s.modTiu k f).bus = s.bus := rfl
@[simp] theorem State.modTiu_mb (f : TimeInterval → TimeInterval) : (s.modTiu k f).mb = s.mb := rfl
@[simp] theorem State.modTiu_fw (f : TimeInterval → TimeInterval) : (s.modTiu k f).fw = s.fw := rfl
@[simp] theorem State.modTiu_pins (f : TimeInterval → TimeInterval) : (s.modTiu k f).pins = s.pins := rfl
@[simp] theorem State.modTiu_edge (f : TimeInterval → TimeInterval) : (s.modTiu k f).edge = s.edge := rfl
@[simp] theorem State.modTiu_pat (f : TimeInterval → TimeInterval) : (s.modTiu k f).pat = s.pat := rfl
@[simp] theorem State.modTiu_lp (f : TimeInterval → TimeInterval) : (s.modTiu k f).lp = s.lp := rfl
@[simp] theorem State.modTiu_harv (f : TimeInterval → TimeInterval) : (s.modTiu k f).harv = s.harv := rfl
@[simp] theorem State.modTiu_link (f : TimeInterval → TimeInterval) : (s.modTiu k f).link = s.link := rfl
@[simp] theorem State.modTiu_ser (f : TimeInterval → TimeInterval) : (s.modTiu k f).ser = s.ser := rfl
@[simp] theorem State.modTiu_sup (f : TimeInterval → TimeInterval) : (s.modTiu k f).sup = s.sup := rfl
@[simp] theorem State.modTiu_cal (f : TimeInterval → TimeInterval) : (s.modTiu k f).cal = s.cal := rfl
@[simp] theorem State.modTiu_flt (f : TimeInterval → TimeInterval) : (s.modTiu k f).flt = s.flt := rfl

/-! modStager. -/

@[simp] theorem State.modStager_stager (f : Stager → Stager) : (s.modStager k f).stager j = if j = k then f (s.stager k) else s.stager j :=
  tget_tmod _ _ k f j
@[simp] theorem State.modStager_ring (f : Stager → Stager) : (s.modStager k f).ring j = s.ring j := rfl
@[simp] theorem State.modStager_pending (f : Stager → Stager) : (s.modStager k f).pending = s.pending := rfl
@[simp] theorem State.modStager_free (f : Stager → Stager) : (s.modStager k f).free = s.free := rfl
@[simp] theorem State.modStager_clk (f : Stager → Stager) : (s.modStager k f).clk = s.clk := rfl
@[simp] theorem State.modStager_bus (f : Stager → Stager) : (s.modStager k f).bus = s.bus := rfl
@[simp] theorem State.modStager_mb (f : Stager → Stager) : (s.modStager k f).mb = s.mb := rfl
@[simp] theorem State.modStager_fw (f : Stager → Stager) : (s.modStager k f).fw = s.fw := rfl
@[simp] theorem State.modStager_pins (f : Stager → Stager) : (s.modStager k f).pins = s.pins := rfl
@[simp] theorem State.modStager_edge (f : Stager → Stager) : (s.modStager k f).edge = s.edge := rfl
@[simp] theorem State.modStager_pat (f : Stager → Stager) : (s.modStager k f).pat = s.pat := rfl
@[simp] theorem State.modStager_lp (f : Stager → Stager) : (s.modStager k f).lp = s.lp := rfl
@[simp] theorem State.modStager_meas (f : Stager → Stager) : (s.modStager k f).meas = s.meas := rfl
@[simp] theorem State.modStager_link (f : Stager → Stager) : (s.modStager k f).link = s.link := rfl
@[simp] theorem State.modStager_ser (f : Stager → Stager) : (s.modStager k f).ser = s.ser := rfl
@[simp] theorem State.modStager_sup (f : Stager → Stager) : (s.modStager k f).sup = s.sup := rfl
@[simp] theorem State.modStager_cal (f : Stager → Stager) : (s.modStager k f).cal = s.cal := rfl
@[simp] theorem State.modStager_flt (f : Stager → Stager) : (s.modStager k f).flt = s.flt := rfl

/-! modRing. -/

@[simp] theorem State.modRing_ring (f : RingCtx → RingCtx) : (s.modRing k f).ring j = if j = k then f (s.ring k) else s.ring j :=
  tget_tmod _ _ k f j
@[simp] theorem State.modRing_stager (f : RingCtx → RingCtx) : (s.modRing k f).stager j = s.stager j := rfl
@[simp] theorem State.modRing_pending (f : RingCtx → RingCtx) : (s.modRing k f).pending = s.pending := rfl
@[simp] theorem State.modRing_free (f : RingCtx → RingCtx) : (s.modRing k f).free = s.free := rfl
@[simp] theorem State.modRing_clk (f : RingCtx → RingCtx) : (s.modRing k f).clk = s.clk := rfl
@[simp] theorem State.modRing_bus (f : RingCtx → RingCtx) : (s.modRing k f).bus = s.bus := rfl
@[simp] theorem State.modRing_mb (f : RingCtx → RingCtx) : (s.modRing k f).mb = s.mb := rfl
@[simp] theorem State.modRing_fw (f : RingCtx → RingCtx) : (s.modRing k f).fw = s.fw := rfl
@[simp] theorem State.modRing_pins (f : RingCtx → RingCtx) : (s.modRing k f).pins = s.pins := rfl
@[simp] theorem State.modRing_edge (f : RingCtx → RingCtx) : (s.modRing k f).edge = s.edge := rfl
@[simp] theorem State.modRing_pat (f : RingCtx → RingCtx) : (s.modRing k f).pat = s.pat := rfl
@[simp] theorem State.modRing_lp (f : RingCtx → RingCtx) : (s.modRing k f).lp = s.lp := rfl
@[simp] theorem State.modRing_meas (f : RingCtx → RingCtx) : (s.modRing k f).meas = s.meas := rfl
@[simp] theorem State.modRing_link (f : RingCtx → RingCtx) : (s.modRing k f).link = s.link := rfl
@[simp] theorem State.modRing_ser (f : RingCtx → RingCtx) : (s.modRing k f).ser = s.ser := rfl
@[simp] theorem State.modRing_sup (f : RingCtx → RingCtx) : (s.modRing k f).sup = s.sup := rfl
@[simp] theorem State.modRing_cal (f : RingCtx → RingCtx) : (s.modRing k f).cal = s.cal := rfl
@[simp] theorem State.modRing_flt (f : RingCtx → RingCtx) : (s.modRing k f).flt = s.flt := rfl

/-! modPort. -/

@[simp] theorem State.modPort_port (f : LinkPort → LinkPort) : (s.modPort k f).port j = if j = k then f (s.port k) else s.port j :=
  tget_tmod _ _ k f j
@[simp] theorem State.modPort_pending (f : LinkPort → LinkPort) : (s.modPort k f).pending = s.pending := rfl
@[simp] theorem State.modPort_free (f : LinkPort → LinkPort) : (s.modPort k f).free = s.free := rfl
@[simp] theorem State.modPort_clk (f : LinkPort → LinkPort) : (s.modPort k f).clk = s.clk := rfl
@[simp] theorem State.modPort_bus (f : LinkPort → LinkPort) : (s.modPort k f).bus = s.bus := rfl
@[simp] theorem State.modPort_mb (f : LinkPort → LinkPort) : (s.modPort k f).mb = s.mb := rfl
@[simp] theorem State.modPort_fw (f : LinkPort → LinkPort) : (s.modPort k f).fw = s.fw := rfl
@[simp] theorem State.modPort_pins (f : LinkPort → LinkPort) : (s.modPort k f).pins = s.pins := rfl
@[simp] theorem State.modPort_edge (f : LinkPort → LinkPort) : (s.modPort k f).edge = s.edge := rfl
@[simp] theorem State.modPort_pat (f : LinkPort → LinkPort) : (s.modPort k f).pat = s.pat := rfl
@[simp] theorem State.modPort_lp (f : LinkPort → LinkPort) : (s.modPort k f).lp = s.lp := rfl
@[simp] theorem State.modPort_meas (f : LinkPort → LinkPort) : (s.modPort k f).meas = s.meas := rfl
@[simp] theorem State.modPort_harv (f : LinkPort → LinkPort) : (s.modPort k f).harv = s.harv := rfl
@[simp] theorem State.modPort_ser (f : LinkPort → LinkPort) : (s.modPort k f).ser = s.ser := rfl
@[simp] theorem State.modPort_sup (f : LinkPort → LinkPort) : (s.modPort k f).sup = s.sup := rfl
@[simp] theorem State.modPort_cal (f : LinkPort → LinkPort) : (s.modPort k f).cal = s.cal := rfl
@[simp] theorem State.modPort_flt (f : LinkPort → LinkPort) : (s.modPort k f).flt = s.flt := rfl

/-! modStage. -/

@[simp] theorem State.modStage_stage (f : StageState → StageState) : (s.modStage k f).stage j = if j = k then f (s.stage k) else s.stage j :=
  tget_tmod _ _ k f j
@[simp] theorem State.modStage_flashByte (f : StageState → StageState) : (s.modStage k f).flashByte j = s.flashByte j := rfl
@[simp] theorem State.modStage_pending (f : StageState → StageState) : (s.modStage k f).pending = s.pending := rfl
@[simp] theorem State.modStage_free (f : StageState → StageState) : (s.modStage k f).free = s.free := rfl
@[simp] theorem State.modStage_clk (f : StageState → StageState) : (s.modStage k f).clk = s.clk := rfl
@[simp] theorem State.modStage_bus (f : StageState → StageState) : (s.modStage k f).bus = s.bus := rfl
@[simp] theorem State.modStage_mb (f : StageState → StageState) : (s.modStage k f).mb = s.mb := rfl
@[simp] theorem State.modStage_fw (f : StageState → StageState) : (s.modStage k f).fw = s.fw := rfl
@[simp] theorem State.modStage_pins (f : StageState → StageState) : (s.modStage k f).pins = s.pins := rfl
@[simp] theorem State.modStage_edge (f : StageState → StageState) : (s.modStage k f).edge = s.edge := rfl
@[simp] theorem State.modStage_pat (f : StageState → StageState) : (s.modStage k f).pat = s.pat := rfl
@[simp] theorem State.modStage_lp (f : StageState → StageState) : (s.modStage k f).lp = s.lp := rfl
@[simp] theorem State.modStage_meas (f : StageState → StageState) : (s.modStage k f).meas = s.meas := rfl
@[simp] theorem State.modStage_harv (f : StageState → StageState) : (s.modStage k f).harv = s.harv := rfl
@[simp] theorem State.modStage_link (f : StageState → StageState) : (s.modStage k f).link = s.link := rfl
@[simp] theorem State.modStage_sup (f : StageState → StageState) : (s.modStage k f).sup = s.sup := rfl
@[simp] theorem State.modStage_cal (f : StageState → StageState) : (s.modStage k f).cal = s.cal := rfl
@[simp] theorem State.modStage_flt (f : StageState → StageState) : (s.modStage k f).flt = s.flt := rfl

/-! modFlashByte. -/

@[simp] theorem State.modFlashByte_flashByte (f : Byte → Byte) : (s.modFlashByte k f).flashByte j = if j = k then f (s.flashByte k) else s.flashByte j :=
  tget_tmod _ _ k f j
@[simp] theorem State.modFlashByte_stage (f : Byte → Byte) : (s.modFlashByte k f).stage j = s.stage j := rfl
@[simp] theorem State.modFlashByte_pending (f : Byte → Byte) : (s.modFlashByte k f).pending = s.pending := rfl
@[simp] theorem State.modFlashByte_free (f : Byte → Byte) : (s.modFlashByte k f).free = s.free := rfl
@[simp] theorem State.modFlashByte_clk (f : Byte → Byte) : (s.modFlashByte k f).clk = s.clk := rfl
@[simp] theorem State.modFlashByte_bus (f : Byte → Byte) : (s.modFlashByte k f).bus = s.bus := rfl
@[simp] theorem State.modFlashByte_mb (f : Byte → Byte) : (s.modFlashByte k f).mb = s.mb := rfl
@[simp] theorem State.modFlashByte_fw (f : Byte → Byte) : (s.modFlashByte k f).fw = s.fw := rfl
@[simp] theorem State.modFlashByte_pins (f : Byte → Byte) : (s.modFlashByte k f).pins = s.pins := rfl
@[simp] theorem State.modFlashByte_edge (f : Byte → Byte) : (s.modFlashByte k f).edge = s.edge := rfl
@[simp] theorem State.modFlashByte_pat (f : Byte → Byte) : (s.modFlashByte k f).pat = s.pat := rfl
@[simp] theorem State.modFlashByte_lp (f : Byte → Byte) : (s.modFlashByte k f).lp = s.lp := rfl
@[simp] theorem State.modFlashByte_meas (f : Byte → Byte) : (s.modFlashByte k f).meas = s.meas := rfl
@[simp] theorem State.modFlashByte_harv (f : Byte → Byte) : (s.modFlashByte k f).harv = s.harv := rfl
@[simp] theorem State.modFlashByte_link (f : Byte → Byte) : (s.modFlashByte k f).link = s.link := rfl
@[simp] theorem State.modFlashByte_sup (f : Byte → Byte) : (s.modFlashByte k f).sup = s.sup := rfl
@[simp] theorem State.modFlashByte_cal (f : Byte → Byte) : (s.modFlashByte k f).cal = s.cal := rfl
@[simp] theorem State.modFlashByte_flt (f : Byte → Byte) : (s.modFlashByte k f).flt = s.flt := rfl

/-! modSensor. -/

@[simp] theorem State.modSensor_sensor (f : Sensor → Sensor) : (s.modSensor k f).sensor j = if j = k then f (s.sensor k) else s.sensor j :=
  tget_tmod _ _ k f j
@[simp] theorem State.modSensor_therm (f : Sensor → Sensor) : (s.modSensor k f).therm j = s.therm j := rfl
@[simp] theorem State.modSensor_zone (f : Sensor → Sensor) : (s.modSensor k f).zone j = s.zone j := rfl
@[simp] theorem State.modSensor_level (f : Sensor → Sensor) : (s.modSensor k f).level j = s.level j := rfl
@[simp] theorem State.modSensor_rail (f : Sensor → Sensor) : (s.modSensor k f).rail j = s.rail j := rfl
@[simp] theorem State.modSensor_railRd (f : Sensor → Sensor) : (s.modSensor k f).railRd j = s.railRd j := rfl
@[simp] theorem State.modSensor_pmon (f : Sensor → Sensor) : (s.modSensor k f).pmon j = s.pmon j := rfl
@[simp] theorem State.modSensor_charge (f : Sensor → Sensor) : (s.modSensor k f).charge j = s.charge j := rfl
@[simp] theorem State.modSensor_tripWord (f : Sensor → Sensor) : (s.modSensor k f).tripWord j = s.tripWord j := rfl
@[simp] theorem State.modSensor_pending (f : Sensor → Sensor) : (s.modSensor k f).pending = s.pending := rfl
@[simp] theorem State.modSensor_free (f : Sensor → Sensor) : (s.modSensor k f).free = s.free := rfl
@[simp] theorem State.modSensor_clk (f : Sensor → Sensor) : (s.modSensor k f).clk = s.clk := rfl
@[simp] theorem State.modSensor_bus (f : Sensor → Sensor) : (s.modSensor k f).bus = s.bus := rfl
@[simp] theorem State.modSensor_mb (f : Sensor → Sensor) : (s.modSensor k f).mb = s.mb := rfl
@[simp] theorem State.modSensor_fw (f : Sensor → Sensor) : (s.modSensor k f).fw = s.fw := rfl
@[simp] theorem State.modSensor_pins (f : Sensor → Sensor) : (s.modSensor k f).pins = s.pins := rfl
@[simp] theorem State.modSensor_edge (f : Sensor → Sensor) : (s.modSensor k f).edge = s.edge := rfl
@[simp] theorem State.modSensor_pat (f : Sensor → Sensor) : (s.modSensor k f).pat = s.pat := rfl
@[simp] theorem State.modSensor_lp (f : Sensor → Sensor) : (s.modSensor k f).lp = s.lp := rfl
@[simp] theorem State.modSensor_meas (f : Sensor → Sensor) : (s.modSensor k f).meas = s.meas := rfl
@[simp] theorem State.modSensor_harv (f : Sensor → Sensor) : (s.modSensor k f).harv = s.harv := rfl
@[simp] theorem State.modSensor_link (f : Sensor → Sensor) : (s.modSensor k f).link = s.link := rfl
@[simp] theorem State.modSensor_ser (f : Sensor → Sensor) : (s.modSensor k f).ser = s.ser := rfl
@[simp] theorem State.modSensor_cal (f : Sensor → Sensor) : (s.modSensor k f).cal = s.cal := rfl
@[simp] theorem State.modSensor_flt (f : Sensor → Sensor) : (s.modSensor k f).flt = s.flt := rfl

/-! modTherm. -/

@[simp] theorem State.modTherm_therm (f : Therm → Therm) : (s.modTherm k f).therm j = if j = k then f (s.therm k) else s.therm j :=
  tget_tmod _ _ k f j
@[simp] theorem State.modTherm_sensor (f : Therm → Therm) : (s.modTherm k f).sensor j = s.sensor j := rfl
@[simp] theorem State.modTherm_zone (f : Therm → Therm) : (s.modTherm k f).zone j = s.zone j := rfl
@[simp] theorem State.modTherm_level (f : Therm → Therm) : (s.modTherm k f).level j = s.level j := rfl
@[simp] theorem State.modTherm_rail (f : Therm → Therm) : (s.modTherm k f).rail j = s.rail j := rfl
@[simp] theorem State.modTherm_railRd (f : Therm → Therm) : (s.modTherm k f).railRd j = s.railRd j := rfl
@[simp] theorem State.modTherm_pmon (f : Therm → Therm) : (s.modTherm k f).pmon j = s.pmon j := rfl
@[simp] theorem State.modTherm_charge (f : Therm → Therm) : (s.modTherm k f).charge j = s.charge j := rfl
@[simp] theorem State.modTherm_tripWord (f : Therm → Therm) : (s.modTherm k f).tripWord j = s.tripWord j := rfl
@[simp] theorem State.modTherm_pending (f : Therm → Therm) : (s.modTherm k f).pending = s.pending := rfl
@[simp] theorem State.modTherm_free (f : Therm → Therm) : (s.modTherm k f).free = s.free := rfl
@[simp] theorem State.modTherm_clk (f : Therm → Therm) : (s.modTherm k f).clk = s.clk := rfl
@[simp] theorem State.modTherm_bus (f : Therm → Therm) : (s.modTherm k f).bus = s.bus := rfl
@[simp] theorem State.modTherm_mb (f : Therm → Therm) : (s.modTherm k f).mb = s.mb := rfl
@[simp] theorem State.modTherm_fw (f : Therm → Therm) : (s.modTherm k f).fw = s.fw := rfl
@[simp] theorem State.modTherm_pins (f : Therm → Therm) : (s.modTherm k f).pins = s.pins := rfl
@[simp] theorem State.modTherm_edge (f : Therm → Therm) : (s.modTherm k f).edge = s.edge := rfl
@[simp] theorem State.modTherm_pat (f : Therm → Therm) : (s.modTherm k f).pat = s.pat := rfl
@[simp] theorem State.modTherm_lp (f : Therm → Therm) : (s.modTherm k f).lp = s.lp := rfl
@[simp] theorem State.modTherm_meas (f : Therm → Therm) : (s.modTherm k f).meas = s.meas := rfl
@[simp] theorem State.modTherm_harv (f : Therm → Therm) : (s.modTherm k f).harv = s.harv := rfl
@[simp] theorem State.modTherm_link (f : Therm → Therm) : (s.modTherm k f).link = s.link := rfl
@[simp] theorem State.modTherm_ser (f : Therm → Therm) : (s.modTherm k f).ser = s.ser := rfl
@[simp] theorem State.modTherm_cal (f : Therm → Therm) : (s.modTherm k f).cal = s.cal := rfl
@[simp] theorem State.modTherm_flt (f : Therm → Therm) : (s.modTherm k f).flt = s.flt := rfl

/-! modZone. -/

@[simp] theorem State.modZone_zone (f : ZoneState → ZoneState) : (s.modZone k f).zone j = if j = k then f (s.zone k) else s.zone j :=
  tget_tmod _ _ k f j
@[simp] theorem State.modZone_sensor (f : ZoneState → ZoneState) : (s.modZone k f).sensor j = s.sensor j := rfl
@[simp] theorem State.modZone_therm (f : ZoneState → ZoneState) : (s.modZone k f).therm j = s.therm j := rfl
@[simp] theorem State.modZone_level (f : ZoneState → ZoneState) : (s.modZone k f).level j = s.level j := rfl
@[simp] theorem State.modZone_rail (f : ZoneState → ZoneState) : (s.modZone k f).rail j = s.rail j := rfl
@[simp] theorem State.modZone_railRd (f : ZoneState → ZoneState) : (s.modZone k f).railRd j = s.railRd j := rfl
@[simp] theorem State.modZone_pmon (f : ZoneState → ZoneState) : (s.modZone k f).pmon j = s.pmon j := rfl
@[simp] theorem State.modZone_charge (f : ZoneState → ZoneState) : (s.modZone k f).charge j = s.charge j := rfl
@[simp] theorem State.modZone_tripWord (f : ZoneState → ZoneState) : (s.modZone k f).tripWord j = s.tripWord j := rfl
@[simp] theorem State.modZone_pending (f : ZoneState → ZoneState) : (s.modZone k f).pending = s.pending := rfl
@[simp] theorem State.modZone_free (f : ZoneState → ZoneState) : (s.modZone k f).free = s.free := rfl
@[simp] theorem State.modZone_clk (f : ZoneState → ZoneState) : (s.modZone k f).clk = s.clk := rfl
@[simp] theorem State.modZone_bus (f : ZoneState → ZoneState) : (s.modZone k f).bus = s.bus := rfl
@[simp] theorem State.modZone_mb (f : ZoneState → ZoneState) : (s.modZone k f).mb = s.mb := rfl
@[simp] theorem State.modZone_fw (f : ZoneState → ZoneState) : (s.modZone k f).fw = s.fw := rfl
@[simp] theorem State.modZone_pins (f : ZoneState → ZoneState) : (s.modZone k f).pins = s.pins := rfl
@[simp] theorem State.modZone_edge (f : ZoneState → ZoneState) : (s.modZone k f).edge = s.edge := rfl
@[simp] theorem State.modZone_pat (f : ZoneState → ZoneState) : (s.modZone k f).pat = s.pat := rfl
@[simp] theorem State.modZone_lp (f : ZoneState → ZoneState) : (s.modZone k f).lp = s.lp := rfl
@[simp] theorem State.modZone_meas (f : ZoneState → ZoneState) : (s.modZone k f).meas = s.meas := rfl
@[simp] theorem State.modZone_harv (f : ZoneState → ZoneState) : (s.modZone k f).harv = s.harv := rfl
@[simp] theorem State.modZone_link (f : ZoneState → ZoneState) : (s.modZone k f).link = s.link := rfl
@[simp] theorem State.modZone_ser (f : ZoneState → ZoneState) : (s.modZone k f).ser = s.ser := rfl
@[simp] theorem State.modZone_cal (f : ZoneState → ZoneState) : (s.modZone k f).cal = s.cal := rfl
@[simp] theorem State.modZone_flt (f : ZoneState → ZoneState) : (s.modZone k f).flt = s.flt := rfl

/-! modLevel. -/

@[simp] theorem State.modLevel_level (f : Level → Level) : (s.modLevel k f).level j = if j = k then f (s.level k) else s.level j :=
  tget_tmod _ _ k f j
@[simp] theorem State.modLevel_sensor (f : Level → Level) : (s.modLevel k f).sensor j = s.sensor j := rfl
@[simp] theorem State.modLevel_therm (f : Level → Level) : (s.modLevel k f).therm j = s.therm j := rfl
@[simp] theorem State.modLevel_zone (f : Level → Level) : (s.modLevel k f).zone j = s.zone j := rfl
@[simp] theorem State.modLevel_rail (f : Level → Level) : (s.modLevel k f).rail j = s.rail j := rfl
@[simp] theorem State.modLevel_railRd (f : Level → Level) : (s.modLevel k f).railRd j = s.railRd j := rfl
@[simp] theorem State.modLevel_pmon (f : Level → Level) : (s.modLevel k f).pmon j = s.pmon j := rfl
@[simp] theorem State.modLevel_charge (f : Level → Level) : (s.modLevel k f).charge j = s.charge j := rfl
@[simp] theorem State.modLevel_tripWord (f : Level → Level) : (s.modLevel k f).tripWord j = s.tripWord j := rfl
@[simp] theorem State.modLevel_pending (f : Level → Level) : (s.modLevel k f).pending = s.pending := rfl
@[simp] theorem State.modLevel_free (f : Level → Level) : (s.modLevel k f).free = s.free := rfl
@[simp] theorem State.modLevel_clk (f : Level → Level) : (s.modLevel k f).clk = s.clk := rfl
@[simp] theorem State.modLevel_bus (f : Level → Level) : (s.modLevel k f).bus = s.bus := rfl
@[simp] theorem State.modLevel_mb (f : Level → Level) : (s.modLevel k f).mb = s.mb := rfl
@[simp] theorem State.modLevel_fw (f : Level → Level) : (s.modLevel k f).fw = s.fw := rfl
@[simp] theorem State.modLevel_pins (f : Level → Level) : (s.modLevel k f).pins = s.pins := rfl
@[simp] theorem State.modLevel_edge (f : Level → Level) : (s.modLevel k f).edge = s.edge := rfl
@[simp] theorem State.modLevel_pat (f : Level → Level) : (s.modLevel k f).pat = s.pat := rfl
@[simp] theorem State.modLevel_lp (f : Level → Level) : (s.modLevel k f).lp = s.lp := rfl
@[simp] theorem State.modLevel_meas (f : Level → Level) : (s.modLevel k f).meas = s.meas := rfl
@[simp] theorem State.modLevel_harv (f : Level → Level) : (s.modLevel k f).harv = s.harv := rfl
@[simp] theorem State.modLevel_link (f : Level → Level) : (s.modLevel k f).link = s.link := rfl
@[simp] theorem State.modLevel_ser (f : Level → Level) : (s.modLevel k f).ser = s.ser := rfl
@[simp] theorem State.modLevel_cal (f : Level → Level) : (s.modLevel k f).cal = s.cal := rfl
@[simp] theorem State.modLevel_flt (f : Level → Level) : (s.modLevel k f).flt = s.flt := rfl

/-! modRail. -/

@[simp] theorem State.modRail_rail (f : Rail → Rail) : (s.modRail k f).rail j = if j = k then f (s.rail k) else s.rail j :=
  tget_tmod _ _ k f j
@[simp] theorem State.modRail_sensor (f : Rail → Rail) : (s.modRail k f).sensor j = s.sensor j := rfl
@[simp] theorem State.modRail_therm (f : Rail → Rail) : (s.modRail k f).therm j = s.therm j := rfl
@[simp] theorem State.modRail_zone (f : Rail → Rail) : (s.modRail k f).zone j = s.zone j := rfl
@[simp] theorem State.modRail_level (f : Rail → Rail) : (s.modRail k f).level j = s.level j := rfl
@[simp] theorem State.modRail_railRd (f : Rail → Rail) : (s.modRail k f).railRd j = s.railRd j := rfl
@[simp] theorem State.modRail_pmon (f : Rail → Rail) : (s.modRail k f).pmon j = s.pmon j := rfl
@[simp] theorem State.modRail_charge (f : Rail → Rail) : (s.modRail k f).charge j = s.charge j := rfl
@[simp] theorem State.modRail_tripWord (f : Rail → Rail) : (s.modRail k f).tripWord j = s.tripWord j := rfl
@[simp] theorem State.modRail_pending (f : Rail → Rail) : (s.modRail k f).pending = s.pending := rfl
@[simp] theorem State.modRail_free (f : Rail → Rail) : (s.modRail k f).free = s.free := rfl
@[simp] theorem State.modRail_clk (f : Rail → Rail) : (s.modRail k f).clk = s.clk := rfl
@[simp] theorem State.modRail_bus (f : Rail → Rail) : (s.modRail k f).bus = s.bus := rfl
@[simp] theorem State.modRail_mb (f : Rail → Rail) : (s.modRail k f).mb = s.mb := rfl
@[simp] theorem State.modRail_fw (f : Rail → Rail) : (s.modRail k f).fw = s.fw := rfl
@[simp] theorem State.modRail_pins (f : Rail → Rail) : (s.modRail k f).pins = s.pins := rfl
@[simp] theorem State.modRail_edge (f : Rail → Rail) : (s.modRail k f).edge = s.edge := rfl
@[simp] theorem State.modRail_pat (f : Rail → Rail) : (s.modRail k f).pat = s.pat := rfl
@[simp] theorem State.modRail_lp (f : Rail → Rail) : (s.modRail k f).lp = s.lp := rfl
@[simp] theorem State.modRail_meas (f : Rail → Rail) : (s.modRail k f).meas = s.meas := rfl
@[simp] theorem State.modRail_harv (f : Rail → Rail) : (s.modRail k f).harv = s.harv := rfl
@[simp] theorem State.modRail_link (f : Rail → Rail) : (s.modRail k f).link = s.link := rfl
@[simp] theorem State.modRail_ser (f : Rail → Rail) : (s.modRail k f).ser = s.ser := rfl
@[simp] theorem State.modRail_cal (f : Rail → Rail) : (s.modRail k f).cal = s.cal := rfl
@[simp] theorem State.modRail_flt (f : Rail → Rail) : (s.modRail k f).flt = s.flt := rfl

/-! modRailRd. -/

@[simp] theorem State.modRailRd_railRd (f : RailRead → RailRead) : (s.modRailRd k f).railRd j = if j = k then f (s.railRd k) else s.railRd j :=
  tget_tmod _ _ k f j
@[simp] theorem State.modRailRd_sensor (f : RailRead → RailRead) : (s.modRailRd k f).sensor j = s.sensor j := rfl
@[simp] theorem State.modRailRd_therm (f : RailRead → RailRead) : (s.modRailRd k f).therm j = s.therm j := rfl
@[simp] theorem State.modRailRd_zone (f : RailRead → RailRead) : (s.modRailRd k f).zone j = s.zone j := rfl
@[simp] theorem State.modRailRd_level (f : RailRead → RailRead) : (s.modRailRd k f).level j = s.level j := rfl
@[simp] theorem State.modRailRd_rail (f : RailRead → RailRead) : (s.modRailRd k f).rail j = s.rail j := rfl
@[simp] theorem State.modRailRd_pmon (f : RailRead → RailRead) : (s.modRailRd k f).pmon j = s.pmon j := rfl
@[simp] theorem State.modRailRd_charge (f : RailRead → RailRead) : (s.modRailRd k f).charge j = s.charge j := rfl
@[simp] theorem State.modRailRd_tripWord (f : RailRead → RailRead) : (s.modRailRd k f).tripWord j = s.tripWord j := rfl
@[simp] theorem State.modRailRd_pending (f : RailRead → RailRead) : (s.modRailRd k f).pending = s.pending := rfl
@[simp] theorem State.modRailRd_free (f : RailRead → RailRead) : (s.modRailRd k f).free = s.free := rfl
@[simp] theorem State.modRailRd_clk (f : RailRead → RailRead) : (s.modRailRd k f).clk = s.clk := rfl
@[simp] theorem State.modRailRd_bus (f : RailRead → RailRead) : (s.modRailRd k f).bus = s.bus := rfl
@[simp] theorem State.modRailRd_mb (f : RailRead → RailRead) : (s.modRailRd k f).mb = s.mb := rfl
@[simp] theorem State.modRailRd_fw (f : RailRead → RailRead) : (s.modRailRd k f).fw = s.fw := rfl
@[simp] theorem State.modRailRd_pins (f : RailRead → RailRead) : (s.modRailRd k f).pins = s.pins := rfl
@[simp] theorem State.modRailRd_edge (f : RailRead → RailRead) : (s.modRailRd k f).edge = s.edge := rfl
@[simp] theorem State.modRailRd_pat (f : RailRead → RailRead) : (s.modRailRd k f).pat = s.pat := rfl
@[simp] theorem State.modRailRd_lp (f : RailRead → RailRead) : (s.modRailRd k f).lp = s.lp := rfl
@[simp] theorem State.modRailRd_meas (f : RailRead → RailRead) : (s.modRailRd k f).meas = s.meas := rfl
@[simp] theorem State.modRailRd_harv (f : RailRead → RailRead) : (s.modRailRd k f).harv = s.harv := rfl
@[simp] theorem State.modRailRd_link (f : RailRead → RailRead) : (s.modRailRd k f).link = s.link := rfl
@[simp] theorem State.modRailRd_ser (f : RailRead → RailRead) : (s.modRailRd k f).ser = s.ser := rfl
@[simp] theorem State.modRailRd_cal (f : RailRead → RailRead) : (s.modRailRd k f).cal = s.cal := rfl
@[simp] theorem State.modRailRd_flt (f : RailRead → RailRead) : (s.modRailRd k f).flt = s.flt := rfl

/-! modPmon. -/

@[simp] theorem State.modPmon_pmon (f : Word → Word) : (s.modPmon k f).pmon j = if j = k then f (s.pmon k) else s.pmon j :=
  tget_tmod _ _ k f j
@[simp] theorem State.modPmon_sensor (f : Word → Word) : (s.modPmon k f).sensor j = s.sensor j := rfl
@[simp] theorem State.modPmon_therm (f : Word → Word) : (s.modPmon k f).therm j = s.therm j := rfl
@[simp] theorem State.modPmon_zone (f : Word → Word) : (s.modPmon k f).zone j = s.zone j := rfl
@[simp] theorem State.modPmon_level (f : Word → Word) : (s.modPmon k f).level j = s.level j := rfl
@[simp] theorem State.modPmon_rail (f : Word → Word) : (s.modPmon k f).rail j = s.rail j := rfl
@[simp] theorem State.modPmon_railRd (f : Word → Word) : (s.modPmon k f).railRd j = s.railRd j := rfl
@[simp] theorem State.modPmon_charge (f : Word → Word) : (s.modPmon k f).charge j = s.charge j := rfl
@[simp] theorem State.modPmon_tripWord (f : Word → Word) : (s.modPmon k f).tripWord j = s.tripWord j := rfl
@[simp] theorem State.modPmon_pending (f : Word → Word) : (s.modPmon k f).pending = s.pending := rfl
@[simp] theorem State.modPmon_free (f : Word → Word) : (s.modPmon k f).free = s.free := rfl
@[simp] theorem State.modPmon_clk (f : Word → Word) : (s.modPmon k f).clk = s.clk := rfl
@[simp] theorem State.modPmon_bus (f : Word → Word) : (s.modPmon k f).bus = s.bus := rfl
@[simp] theorem State.modPmon_mb (f : Word → Word) : (s.modPmon k f).mb = s.mb := rfl
@[simp] theorem State.modPmon_fw (f : Word → Word) : (s.modPmon k f).fw = s.fw := rfl
@[simp] theorem State.modPmon_pins (f : Word → Word) : (s.modPmon k f).pins = s.pins := rfl
@[simp] theorem State.modPmon_edge (f : Word → Word) : (s.modPmon k f).edge = s.edge := rfl
@[simp] theorem State.modPmon_pat (f : Word → Word) : (s.modPmon k f).pat = s.pat := rfl
@[simp] theorem State.modPmon_lp (f : Word → Word) : (s.modPmon k f).lp = s.lp := rfl
@[simp] theorem State.modPmon_meas (f : Word → Word) : (s.modPmon k f).meas = s.meas := rfl
@[simp] theorem State.modPmon_harv (f : Word → Word) : (s.modPmon k f).harv = s.harv := rfl
@[simp] theorem State.modPmon_link (f : Word → Word) : (s.modPmon k f).link = s.link := rfl
@[simp] theorem State.modPmon_ser (f : Word → Word) : (s.modPmon k f).ser = s.ser := rfl
@[simp] theorem State.modPmon_cal (f : Word → Word) : (s.modPmon k f).cal = s.cal := rfl
@[simp] theorem State.modPmon_flt (f : Word → Word) : (s.modPmon k f).flt = s.flt := rfl

/-! modCharge. -/

@[simp] theorem State.modCharge_charge (f : ChargeWin → ChargeWin) : (s.modCharge k f).charge j = if j = k then f (s.charge k) else s.charge j :=
  tget_tmod _ _ k f j
@[simp] theorem State.modCharge_sensor (f : ChargeWin → ChargeWin) : (s.modCharge k f).sensor j = s.sensor j := rfl
@[simp] theorem State.modCharge_therm (f : ChargeWin → ChargeWin) : (s.modCharge k f).therm j = s.therm j := rfl
@[simp] theorem State.modCharge_zone (f : ChargeWin → ChargeWin) : (s.modCharge k f).zone j = s.zone j := rfl
@[simp] theorem State.modCharge_level (f : ChargeWin → ChargeWin) : (s.modCharge k f).level j = s.level j := rfl
@[simp] theorem State.modCharge_rail (f : ChargeWin → ChargeWin) : (s.modCharge k f).rail j = s.rail j := rfl
@[simp] theorem State.modCharge_railRd (f : ChargeWin → ChargeWin) : (s.modCharge k f).railRd j = s.railRd j := rfl
@[simp] theorem State.modCharge_pmon (f : ChargeWin → ChargeWin) : (s.modCharge k f).pmon j = s.pmon j := rfl
@[simp] theorem State.modCharge_tripWord (f : ChargeWin → ChargeWin) : (s.modCharge k f).tripWord j = s.tripWord j := rfl
@[simp] theorem State.modCharge_pending (f : ChargeWin → ChargeWin) : (s.modCharge k f).pending = s.pending := rfl
@[simp] theorem State.modCharge_free (f : ChargeWin → ChargeWin) : (s.modCharge k f).free = s.free := rfl
@[simp] theorem State.modCharge_clk (f : ChargeWin → ChargeWin) : (s.modCharge k f).clk = s.clk := rfl
@[simp] theorem State.modCharge_bus (f : ChargeWin → ChargeWin) : (s.modCharge k f).bus = s.bus := rfl
@[simp] theorem State.modCharge_mb (f : ChargeWin → ChargeWin) : (s.modCharge k f).mb = s.mb := rfl
@[simp] theorem State.modCharge_fw (f : ChargeWin → ChargeWin) : (s.modCharge k f).fw = s.fw := rfl
@[simp] theorem State.modCharge_pins (f : ChargeWin → ChargeWin) : (s.modCharge k f).pins = s.pins := rfl
@[simp] theorem State.modCharge_edge (f : ChargeWin → ChargeWin) : (s.modCharge k f).edge = s.edge := rfl
@[simp] theorem State.modCharge_pat (f : ChargeWin → ChargeWin) : (s.modCharge k f).pat = s.pat := rfl
@[simp] theorem State.modCharge_lp (f : ChargeWin → ChargeWin) : (s.modCharge k f).lp = s.lp := rfl
@[simp] theorem State.modCharge_meas (f : ChargeWin → ChargeWin) : (s.modCharge k f).meas = s.meas := rfl
@[simp] theorem State.modCharge_harv (f : ChargeWin → ChargeWin) : (s.modCharge k f).harv = s.harv := rfl
@[simp] theorem State.modCharge_link (f : ChargeWin → ChargeWin) : (s.modCharge k f).link = s.link := rfl
@[simp] theorem State.modCharge_ser (f : ChargeWin → ChargeWin) : (s.modCharge k f).ser = s.ser := rfl
@[simp] theorem State.modCharge_cal (f : ChargeWin → ChargeWin) : (s.modCharge k f).cal = s.cal := rfl
@[simp] theorem State.modCharge_flt (f : ChargeWin → ChargeWin) : (s.modCharge k f).flt = s.flt := rfl

/-! modTripWord. -/

@[simp] theorem State.modTripWord_tripWord (f : Word → Word) : (s.modTripWord k f).tripWord j = if j = k then f (s.tripWord k) else s.tripWord j :=
  tget_tmod _ _ k f j
@[simp] theorem State.modTripWord_sensor (f : Word → Word) : (s.modTripWord k f).sensor j = s.sensor j := rfl
@[simp] theorem State.modTripWord_therm (f : Word → Word) : (s.modTripWord k f).therm j = s.therm j := rfl
@[simp] theorem State.modTripWord_zone (f : Word → Word) : (s.modTripWord k f).zone j = s.zone j := rfl
@[simp] theorem State.modTripWord_level (f : Word → Word) : (s.modTripWord k f).level j = s.level j := rfl
@[simp] theorem State.modTripWord_rail (f : Word → Word) : (s.modTripWord k f).rail j = s.rail j := rfl
@[simp] theorem State.modTripWord_railRd (f : Word → Word) : (s.modTripWord k f).railRd j = s.railRd j := rfl
@[simp] theorem State.modTripWord_pmon (f : Word → Word) : (s.modTripWord k f).pmon j = s.pmon j := rfl
@[simp] theorem State.modTripWord_charge (f : Word → Word) : (s.modTripWord k f).charge j = s.charge j := rfl
@[simp] theorem State.modTripWord_pending (f : Word → Word) : (s.modTripWord k f).pending = s.pending := rfl
@[simp] theorem State.modTripWord_free (f : Word → Word) : (s.modTripWord k f).free = s.free := rfl
@[simp] theorem State.modTripWord_clk (f : Word → Word) : (s.modTripWord k f).clk = s.clk := rfl
@[simp] theorem State.modTripWord_bus (f : Word → Word) : (s.modTripWord k f).bus = s.bus := rfl
@[simp] theorem State.modTripWord_mb (f : Word → Word) : (s.modTripWord k f).mb = s.mb := rfl
@[simp] theorem State.modTripWord_fw (f : Word → Word) : (s.modTripWord k f).fw = s.fw := rfl
@[simp] theorem State.modTripWord_pins (f : Word → Word) : (s.modTripWord k f).pins = s.pins := rfl
@[simp] theorem State.modTripWord_edge (f : Word → Word) : (s.modTripWord k f).edge = s.edge := rfl
@[simp] theorem State.modTripWord_pat (f : Word → Word) : (s.modTripWord k f).pat = s.pat := rfl
@[simp] theorem State.modTripWord_lp (f : Word → Word) : (s.modTripWord k f).lp = s.lp := rfl
@[simp] theorem State.modTripWord_meas (f : Word → Word) : (s.modTripWord k f).meas = s.meas := rfl
@[simp] theorem State.modTripWord_harv (f : Word → Word) : (s.modTripWord k f).harv = s.harv := rfl
@[simp] theorem State.modTripWord_link (f : Word → Word) : (s.modTripWord k f).link = s.link := rfl
@[simp] theorem State.modTripWord_ser (f : Word → Word) : (s.modTripWord k f).ser = s.ser := rfl
@[simp] theorem State.modTripWord_cal (f : Word → Word) : (s.modTripWord k f).cal = s.cal := rfl
@[simp] theorem State.modTripWord_flt (f : Word → Word) : (s.modTripWord k f).flt = s.flt := rfl

/-! modKeepByte. -/

@[simp] theorem State.modKeepByte_keepByte (f : Byte → Byte) : (s.modKeepByte k f).keepByte j = if j = k then f (s.keepByte k) else s.keepByte j :=
  tget_tmod _ _ k f j
@[simp] theorem State.modKeepByte_wearOf (f : Byte → Byte) : (s.modKeepByte k f).wearOf j = s.wearOf j := rfl
@[simp] theorem State.modKeepByte_quality (f : Byte → Byte) : (s.modKeepByte k f).quality j = s.quality j := rfl
@[simp] theorem State.modKeepByte_measured (f : Byte → Byte) : (s.modKeepByte k f).measured j = s.measured j := rfl
@[simp] theorem State.modKeepByte_pending (f : Byte → Byte) : (s.modKeepByte k f).pending = s.pending := rfl
@[simp] theorem State.modKeepByte_free (f : Byte → Byte) : (s.modKeepByte k f).free = s.free := rfl
@[simp] theorem State.modKeepByte_clk (f : Byte → Byte) : (s.modKeepByte k f).clk = s.clk := rfl
@[simp] theorem State.modKeepByte_bus (f : Byte → Byte) : (s.modKeepByte k f).bus = s.bus := rfl
@[simp] theorem State.modKeepByte_mb (f : Byte → Byte) : (s.modKeepByte k f).mb = s.mb := rfl
@[simp] theorem State.modKeepByte_fw (f : Byte → Byte) : (s.modKeepByte k f).fw = s.fw := rfl
@[simp] theorem State.modKeepByte_pins (f : Byte → Byte) : (s.modKeepByte k f).pins = s.pins := rfl
@[simp] theorem State.modKeepByte_edge (f : Byte → Byte) : (s.modKeepByte k f).edge = s.edge := rfl
@[simp] theorem State.modKeepByte_pat (f : Byte → Byte) : (s.modKeepByte k f).pat = s.pat := rfl
@[simp] theorem State.modKeepByte_lp (f : Byte → Byte) : (s.modKeepByte k f).lp = s.lp := rfl
@[simp] theorem State.modKeepByte_meas (f : Byte → Byte) : (s.modKeepByte k f).meas = s.meas := rfl
@[simp] theorem State.modKeepByte_harv (f : Byte → Byte) : (s.modKeepByte k f).harv = s.harv := rfl
@[simp] theorem State.modKeepByte_link (f : Byte → Byte) : (s.modKeepByte k f).link = s.link := rfl
@[simp] theorem State.modKeepByte_ser (f : Byte → Byte) : (s.modKeepByte k f).ser = s.ser := rfl
@[simp] theorem State.modKeepByte_sup (f : Byte → Byte) : (s.modKeepByte k f).sup = s.sup := rfl
@[simp] theorem State.modKeepByte_flt (f : Byte → Byte) : (s.modKeepByte k f).flt = s.flt := rfl

/-! modWearOf. -/

@[simp] theorem State.modWearOf_wearOf (f : Nat → Nat) : (s.modWearOf k f).wearOf j = if j = k then f (s.wearOf k) else s.wearOf j :=
  tget_tmod _ _ k f j
@[simp] theorem State.modWearOf_keepByte (f : Nat → Nat) : (s.modWearOf k f).keepByte j = s.keepByte j := rfl
@[simp] theorem State.modWearOf_quality (f : Nat → Nat) : (s.modWearOf k f).quality j = s.quality j := rfl
@[simp] theorem State.modWearOf_measured (f : Nat → Nat) : (s.modWearOf k f).measured j = s.measured j := rfl
@[simp] theorem State.modWearOf_pending (f : Nat → Nat) : (s.modWearOf k f).pending = s.pending := rfl
@[simp] theorem State.modWearOf_free (f : Nat → Nat) : (s.modWearOf k f).free = s.free := rfl
@[simp] theorem State.modWearOf_clk (f : Nat → Nat) : (s.modWearOf k f).clk = s.clk := rfl
@[simp] theorem State.modWearOf_bus (f : Nat → Nat) : (s.modWearOf k f).bus = s.bus := rfl
@[simp] theorem State.modWearOf_mb (f : Nat → Nat) : (s.modWearOf k f).mb = s.mb := rfl
@[simp] theorem State.modWearOf_fw (f : Nat → Nat) : (s.modWearOf k f).fw = s.fw := rfl
@[simp] theorem State.modWearOf_pins (f : Nat → Nat) : (s.modWearOf k f).pins = s.pins := rfl
@[simp] theorem State.modWearOf_edge (f : Nat → Nat) : (s.modWearOf k f).edge = s.edge := rfl
@[simp] theorem State.modWearOf_pat (f : Nat → Nat) : (s.modWearOf k f).pat = s.pat := rfl
@[simp] theorem State.modWearOf_lp (f : Nat → Nat) : (s.modWearOf k f).lp = s.lp := rfl
@[simp] theorem State.modWearOf_meas (f : Nat → Nat) : (s.modWearOf k f).meas = s.meas := rfl
@[simp] theorem State.modWearOf_harv (f : Nat → Nat) : (s.modWearOf k f).harv = s.harv := rfl
@[simp] theorem State.modWearOf_link (f : Nat → Nat) : (s.modWearOf k f).link = s.link := rfl
@[simp] theorem State.modWearOf_ser (f : Nat → Nat) : (s.modWearOf k f).ser = s.ser := rfl
@[simp] theorem State.modWearOf_sup (f : Nat → Nat) : (s.modWearOf k f).sup = s.sup := rfl
@[simp] theorem State.modWearOf_flt (f : Nat → Nat) : (s.modWearOf k f).flt = s.flt := rfl

/-! modQuality. -/

@[simp] theorem State.modQuality_quality (f : Quality → Quality) : (s.modQuality k f).quality j = if j = k then f (s.quality k) else s.quality j :=
  tget_tmod _ _ k f j
@[simp] theorem State.modQuality_keepByte (f : Quality → Quality) : (s.modQuality k f).keepByte j = s.keepByte j := rfl
@[simp] theorem State.modQuality_wearOf (f : Quality → Quality) : (s.modQuality k f).wearOf j = s.wearOf j := rfl
@[simp] theorem State.modQuality_measured (f : Quality → Quality) : (s.modQuality k f).measured j = s.measured j := rfl
@[simp] theorem State.modQuality_pending (f : Quality → Quality) : (s.modQuality k f).pending = s.pending := rfl
@[simp] theorem State.modQuality_free (f : Quality → Quality) : (s.modQuality k f).free = s.free := rfl
@[simp] theorem State.modQuality_clk (f : Quality → Quality) : (s.modQuality k f).clk = s.clk := rfl
@[simp] theorem State.modQuality_bus (f : Quality → Quality) : (s.modQuality k f).bus = s.bus := rfl
@[simp] theorem State.modQuality_mb (f : Quality → Quality) : (s.modQuality k f).mb = s.mb := rfl
@[simp] theorem State.modQuality_fw (f : Quality → Quality) : (s.modQuality k f).fw = s.fw := rfl
@[simp] theorem State.modQuality_pins (f : Quality → Quality) : (s.modQuality k f).pins = s.pins := rfl
@[simp] theorem State.modQuality_edge (f : Quality → Quality) : (s.modQuality k f).edge = s.edge := rfl
@[simp] theorem State.modQuality_pat (f : Quality → Quality) : (s.modQuality k f).pat = s.pat := rfl
@[simp] theorem State.modQuality_lp (f : Quality → Quality) : (s.modQuality k f).lp = s.lp := rfl
@[simp] theorem State.modQuality_meas (f : Quality → Quality) : (s.modQuality k f).meas = s.meas := rfl
@[simp] theorem State.modQuality_harv (f : Quality → Quality) : (s.modQuality k f).harv = s.harv := rfl
@[simp] theorem State.modQuality_link (f : Quality → Quality) : (s.modQuality k f).link = s.link := rfl
@[simp] theorem State.modQuality_ser (f : Quality → Quality) : (s.modQuality k f).ser = s.ser := rfl
@[simp] theorem State.modQuality_sup (f : Quality → Quality) : (s.modQuality k f).sup = s.sup := rfl
@[simp] theorem State.modQuality_flt (f : Quality → Quality) : (s.modQuality k f).flt = s.flt := rfl

/-! modMeasured. -/

@[simp] theorem State.modMeasured_measured (f : Bool → Bool) : (s.modMeasured k f).measured j = if j = k then f (s.measured k) else s.measured j :=
  tget_tmod _ _ k f j
@[simp] theorem State.modMeasured_keepByte (f : Bool → Bool) : (s.modMeasured k f).keepByte j = s.keepByte j := rfl
@[simp] theorem State.modMeasured_wearOf (f : Bool → Bool) : (s.modMeasured k f).wearOf j = s.wearOf j := rfl
@[simp] theorem State.modMeasured_quality (f : Bool → Bool) : (s.modMeasured k f).quality j = s.quality j := rfl
@[simp] theorem State.modMeasured_pending (f : Bool → Bool) : (s.modMeasured k f).pending = s.pending := rfl
@[simp] theorem State.modMeasured_free (f : Bool → Bool) : (s.modMeasured k f).free = s.free := rfl
@[simp] theorem State.modMeasured_clk (f : Bool → Bool) : (s.modMeasured k f).clk = s.clk := rfl
@[simp] theorem State.modMeasured_bus (f : Bool → Bool) : (s.modMeasured k f).bus = s.bus := rfl
@[simp] theorem State.modMeasured_mb (f : Bool → Bool) : (s.modMeasured k f).mb = s.mb := rfl
@[simp] theorem State.modMeasured_fw (f : Bool → Bool) : (s.modMeasured k f).fw = s.fw := rfl
@[simp] theorem State.modMeasured_pins (f : Bool → Bool) : (s.modMeasured k f).pins = s.pins := rfl
@[simp] theorem State.modMeasured_edge (f : Bool → Bool) : (s.modMeasured k f).edge = s.edge := rfl
@[simp] theorem State.modMeasured_pat (f : Bool → Bool) : (s.modMeasured k f).pat = s.pat := rfl
@[simp] theorem State.modMeasured_lp (f : Bool → Bool) : (s.modMeasured k f).lp = s.lp := rfl
@[simp] theorem State.modMeasured_meas (f : Bool → Bool) : (s.modMeasured k f).meas = s.meas := rfl
@[simp] theorem State.modMeasured_harv (f : Bool → Bool) : (s.modMeasured k f).harv = s.harv := rfl
@[simp] theorem State.modMeasured_link (f : Bool → Bool) : (s.modMeasured k f).link = s.link := rfl
@[simp] theorem State.modMeasured_ser (f : Bool → Bool) : (s.modMeasured k f).ser = s.ser := rfl
@[simp] theorem State.modMeasured_sup (f : Bool → Bool) : (s.modMeasured k f).sup = s.sup := rfl
@[simp] theorem State.modMeasured_flt (f : Bool → Bool) : (s.modMeasured k f).flt = s.flt := rfl

/-! modBase. -/

@[simp] theorem State.modBase_base (f : Int → Int) : (s.modBase k f).base j = if j = k then f (s.base k) else s.base j :=
  tget_tmod _ _ k f j
@[simp] theorem State.modBase_tsetAt (f : Int → Int) : (s.modBase k f).tsetAt j = s.tsetAt j := rfl
@[simp] theorem State.modBase_tdll (f : Int → Int) : (s.modBase k f).tdll j = s.tdll j := rfl
@[simp] theorem State.modBase_drift (f : Int → Int) : (s.modBase k f).drift j = s.drift j := rfl
@[simp] theorem State.modBase_stale (f : Int → Int) : (s.modBase k f).stale j = s.stale j := rfl
@[simp] theorem State.modBase_ckgen (f : Int → Int) : (s.modBase k f).ckgen j = s.ckgen j := rfl
@[simp] theorem State.modBase_pinck (f : Int → Int) : (s.modBase k f).pinck j = s.pinck j := rfl
@[simp] theorem State.modBase_slices (f : Int → Int) : (s.modBase k f).slices j = s.slices j := rfl
@[simp] theorem State.modBase_pending (f : Int → Int) : (s.modBase k f).pending = s.pending := rfl
@[simp] theorem State.modBase_free (f : Int → Int) : (s.modBase k f).free = s.free := rfl
@[simp] theorem State.modBase_clk (f : Int → Int) : (s.modBase k f).clk = s.clk := rfl
@[simp] theorem State.modBase_bus (f : Int → Int) : (s.modBase k f).bus = s.bus := rfl
@[simp] theorem State.modBase_mb (f : Int → Int) : (s.modBase k f).mb = s.mb := rfl
@[simp] theorem State.modBase_fw (f : Int → Int) : (s.modBase k f).fw = s.fw := rfl
@[simp] theorem State.modBase_pins (f : Int → Int) : (s.modBase k f).pins = s.pins := rfl
@[simp] theorem State.modBase_pat (f : Int → Int) : (s.modBase k f).pat = s.pat := rfl
@[simp] theorem State.modBase_lp (f : Int → Int) : (s.modBase k f).lp = s.lp := rfl
@[simp] theorem State.modBase_meas (f : Int → Int) : (s.modBase k f).meas = s.meas := rfl
@[simp] theorem State.modBase_harv (f : Int → Int) : (s.modBase k f).harv = s.harv := rfl
@[simp] theorem State.modBase_link (f : Int → Int) : (s.modBase k f).link = s.link := rfl
@[simp] theorem State.modBase_ser (f : Int → Int) : (s.modBase k f).ser = s.ser := rfl
@[simp] theorem State.modBase_sup (f : Int → Int) : (s.modBase k f).sup = s.sup := rfl
@[simp] theorem State.modBase_cal (f : Int → Int) : (s.modBase k f).cal = s.cal := rfl
@[simp] theorem State.modBase_flt (f : Int → Int) : (s.modBase k f).flt = s.flt := rfl

/-! modDacst. -/

@[simp] theorem State.modDacst_dacst (f : Dac → Dac) : (s.modDacst k f).dacst j = if j = k then f (s.dacst k) else s.dacst j :=
  tget_tmod _ _ k f j
@[simp] theorem State.modDacst_pinst (f : Dac → Dac) : (s.modDacst k f).pinst j = s.pinst j := rfl
@[simp] theorem State.modDacst_grp (f : Dac → Dac) : (s.modDacst k f).grp j = s.grp j := rfl
@[simp] theorem State.modDacst_mon (f : Dac → Dac) : (s.modDacst k f).mon j = s.mon j := rfl
@[simp] theorem State.modDacst_pending (f : Dac → Dac) : (s.modDacst k f).pending = s.pending := rfl
@[simp] theorem State.modDacst_free (f : Dac → Dac) : (s.modDacst k f).free = s.free := rfl
@[simp] theorem State.modDacst_clk (f : Dac → Dac) : (s.modDacst k f).clk = s.clk := rfl
@[simp] theorem State.modDacst_bus (f : Dac → Dac) : (s.modDacst k f).bus = s.bus := rfl
@[simp] theorem State.modDacst_mb (f : Dac → Dac) : (s.modDacst k f).mb = s.mb := rfl
@[simp] theorem State.modDacst_fw (f : Dac → Dac) : (s.modDacst k f).fw = s.fw := rfl
@[simp] theorem State.modDacst_edge (f : Dac → Dac) : (s.modDacst k f).edge = s.edge := rfl
@[simp] theorem State.modDacst_pat (f : Dac → Dac) : (s.modDacst k f).pat = s.pat := rfl
@[simp] theorem State.modDacst_lp (f : Dac → Dac) : (s.modDacst k f).lp = s.lp := rfl
@[simp] theorem State.modDacst_meas (f : Dac → Dac) : (s.modDacst k f).meas = s.meas := rfl
@[simp] theorem State.modDacst_harv (f : Dac → Dac) : (s.modDacst k f).harv = s.harv := rfl
@[simp] theorem State.modDacst_link (f : Dac → Dac) : (s.modDacst k f).link = s.link := rfl
@[simp] theorem State.modDacst_ser (f : Dac → Dac) : (s.modDacst k f).ser = s.ser := rfl
@[simp] theorem State.modDacst_sup (f : Dac → Dac) : (s.modDacst k f).sup = s.sup := rfl
@[simp] theorem State.modDacst_cal (f : Dac → Dac) : (s.modDacst k f).cal = s.cal := rfl
@[simp] theorem State.modDacst_flt (f : Dac → Dac) : (s.modDacst k f).flt = s.flt := rfl

/-! reach. -/

@[simp] theorem State.reach_pending (t : Nat) : (s.reach t).pending = s.pending := rfl
@[simp] theorem State.reach_free (t : Nat) : (s.reach t).free = s.free := rfl
@[simp] theorem State.reach_bus (t : Nat) : (s.reach t).bus = s.bus := rfl
@[simp] theorem State.reach_mb (t : Nat) : (s.reach t).mb = s.mb := rfl
@[simp] theorem State.reach_fw (t : Nat) : (s.reach t).fw = s.fw := rfl
@[simp] theorem State.reach_pins (t : Nat) : (s.reach t).pins = s.pins := rfl
@[simp] theorem State.reach_edge (t : Nat) : (s.reach t).edge = s.edge := rfl
@[simp] theorem State.reach_pat (t : Nat) : (s.reach t).pat = s.pat := rfl
@[simp] theorem State.reach_lp (t : Nat) : (s.reach t).lp = s.lp := rfl
@[simp] theorem State.reach_meas (t : Nat) : (s.reach t).meas = s.meas := rfl
@[simp] theorem State.reach_harv (t : Nat) : (s.reach t).harv = s.harv := rfl
@[simp] theorem State.reach_link (t : Nat) : (s.reach t).link = s.link := rfl
@[simp] theorem State.reach_ser (t : Nat) : (s.reach t).ser = s.ser := rfl
@[simp] theorem State.reach_sup (t : Nat) : (s.reach t).sup = s.sup := rfl
@[simp] theorem State.reach_cal (t : Nat) : (s.reach t).cal = s.cal := rfl
@[simp] theorem State.reach_flt (t : Nat) : (s.reach t).flt = s.flt := rfl

/-! takeFree. -/

@[simp] theorem State.takeFree_pending : (s.takeFree).pending = s.pending := rfl
@[simp] theorem State.takeFree_clk : (s.takeFree).clk = s.clk := rfl
@[simp] theorem State.takeFree_bus : (s.takeFree).bus = s.bus := rfl
@[simp] theorem State.takeFree_mb : (s.takeFree).mb = s.mb := rfl
@[simp] theorem State.takeFree_fw : (s.takeFree).fw = s.fw := rfl
@[simp] theorem State.takeFree_pins : (s.takeFree).pins = s.pins := rfl
@[simp] theorem State.takeFree_edge : (s.takeFree).edge = s.edge := rfl
@[simp] theorem State.takeFree_pat : (s.takeFree).pat = s.pat := rfl
@[simp] theorem State.takeFree_lp : (s.takeFree).lp = s.lp := rfl
@[simp] theorem State.takeFree_meas : (s.takeFree).meas = s.meas := rfl
@[simp] theorem State.takeFree_harv : (s.takeFree).harv = s.harv := rfl
@[simp] theorem State.takeFree_link : (s.takeFree).link = s.link := rfl
@[simp] theorem State.takeFree_ser : (s.takeFree).ser = s.ser := rfl
@[simp] theorem State.takeFree_sup : (s.takeFree).sup = s.sup := rfl
@[simp] theorem State.takeFree_cal : (s.takeFree).cal = s.cal := rfl
@[simp] theorem State.takeFree_flt : (s.takeFree).flt = s.flt := rfl

/-! noteSet. -/

@[simp] theorem State.noteSet_pending (a : Nat) (w : Word) : (s.noteSet a w).pending = s.pending := rfl
@[simp] theorem State.noteSet_free (a : Nat) (w : Word) : (s.noteSet a w).free = s.free := rfl
@[simp] theorem State.noteSet_clk (a : Nat) (w : Word) : (s.noteSet a w).clk = s.clk := rfl
@[simp] theorem State.noteSet_mb (a : Nat) (w : Word) : (s.noteSet a w).mb = s.mb := rfl
@[simp] theorem State.noteSet_fw (a : Nat) (w : Word) : (s.noteSet a w).fw = s.fw := rfl
@[simp] theorem State.noteSet_pins (a : Nat) (w : Word) : (s.noteSet a w).pins = s.pins := rfl
@[simp] theorem State.noteSet_edge (a : Nat) (w : Word) : (s.noteSet a w).edge = s.edge := rfl
@[simp] theorem State.noteSet_pat (a : Nat) (w : Word) : (s.noteSet a w).pat = s.pat := rfl
@[simp] theorem State.noteSet_lp (a : Nat) (w : Word) : (s.noteSet a w).lp = s.lp := rfl
@[simp] theorem State.noteSet_meas (a : Nat) (w : Word) : (s.noteSet a w).meas = s.meas := rfl
@[simp] theorem State.noteSet_harv (a : Nat) (w : Word) : (s.noteSet a w).harv = s.harv := rfl
@[simp] theorem State.noteSet_link (a : Nat) (w : Word) : (s.noteSet a w).link = s.link := rfl
@[simp] theorem State.noteSet_ser (a : Nat) (w : Word) : (s.noteSet a w).ser = s.ser := rfl
@[simp] theorem State.noteSet_sup (a : Nat) (w : Word) : (s.noteSet a w).sup = s.sup := rfl
@[simp] theorem State.noteSet_cal (a : Nat) (w : Word) : (s.noteSet a w).cal = s.cal := rfl
@[simp] theorem State.noteSet_flt (a : Nat) (w : Word) : (s.noteSet a w).flt = s.flt := rfl

/-! noteAdd. -/

@[simp] theorem State.noteAdd_pending (a old : Nat) : (s.noteAdd a old).pending = s.pending := rfl
@[simp] theorem State.noteAdd_free (a old : Nat) : (s.noteAdd a old).free = s.free := rfl
@[simp] theorem State.noteAdd_clk (a old : Nat) : (s.noteAdd a old).clk = s.clk := rfl
@[simp] theorem State.noteAdd_mb (a old : Nat) : (s.noteAdd a old).mb = s.mb := rfl
@[simp] theorem State.noteAdd_fw (a old : Nat) : (s.noteAdd a old).fw = s.fw := rfl
@[simp] theorem State.noteAdd_pins (a old : Nat) : (s.noteAdd a old).pins = s.pins := rfl
@[simp] theorem State.noteAdd_edge (a old : Nat) : (s.noteAdd a old).edge = s.edge := rfl
@[simp] theorem State.noteAdd_pat (a old : Nat) : (s.noteAdd a old).pat = s.pat := rfl
@[simp] theorem State.noteAdd_lp (a old : Nat) : (s.noteAdd a old).lp = s.lp := rfl
@[simp] theorem State.noteAdd_meas (a old : Nat) : (s.noteAdd a old).meas = s.meas := rfl
@[simp] theorem State.noteAdd_harv (a old : Nat) : (s.noteAdd a old).harv = s.harv := rfl
@[simp] theorem State.noteAdd_link (a old : Nat) : (s.noteAdd a old).link = s.link := rfl
@[simp] theorem State.noteAdd_ser (a old : Nat) : (s.noteAdd a old).ser = s.ser := rfl
@[simp] theorem State.noteAdd_sup (a old : Nat) : (s.noteAdd a old).sup = s.sup := rfl
@[simp] theorem State.noteAdd_cal (a old : Nat) : (s.noteAdd a old).cal = s.cal := rfl
@[simp] theorem State.noteAdd_flt (a old : Nat) : (s.noteAdd a old).flt = s.flt := rfl

/-! noteBase. -/

@[simp] theorem State.noteBase_pending (a base : Nat) : (s.noteBase a base).pending = s.pending := rfl
@[simp] theorem State.noteBase_free (a base : Nat) : (s.noteBase a base).free = s.free := rfl
@[simp] theorem State.noteBase_clk (a base : Nat) : (s.noteBase a base).clk = s.clk := rfl
@[simp] theorem State.noteBase_mb (a base : Nat) : (s.noteBase a base).mb = s.mb := rfl
@[simp] theorem State.noteBase_fw (a base : Nat) : (s.noteBase a base).fw = s.fw := rfl
@[simp] theorem State.noteBase_pins (a base : Nat) : (s.noteBase a base).pins = s.pins := rfl
@[simp] theorem State.noteBase_edge (a base : Nat) : (s.noteBase a base).edge = s.edge := rfl
@[simp] theorem State.noteBase_pat (a base : Nat) : (s.noteBase a base).pat = s.pat := rfl
@[simp] theorem State.noteBase_lp (a base : Nat) : (s.noteBase a base).lp = s.lp := rfl
@[simp] theorem State.noteBase_meas (a base : Nat) : (s.noteBase a base).meas = s.meas := rfl
@[simp] theorem State.noteBase_harv (a base : Nat) : (s.noteBase a base).harv = s.harv := rfl
@[simp] theorem State.noteBase_link (a base : Nat) : (s.noteBase a base).link = s.link := rfl
@[simp] theorem State.noteBase_ser (a base : Nat) : (s.noteBase a base).ser = s.ser := rfl
@[simp] theorem State.noteBase_sup (a base : Nat) : (s.noteBase a base).sup = s.sup := rfl
@[simp] theorem State.noteBase_cal (a base : Nat) : (s.noteBase a base).cal = s.cal := rfl
@[simp] theorem State.noteBase_flt (a base : Nat) : (s.noteBase a base).flt = s.flt := rfl

end Sys2Proof.Machine
end

