-- ==== Sys2Proof/Laws/Response.lean ====
section
/-! SUPPORT. What the response of a mailbox command does (R77, R82), once and for all commands. -/

namespace Sys2Proof.Machine

/-- A message of the part in a class other than URGENT touches the ports only. -/
theorem sendRoot_parts (s : State) (mtype : Nat) (arg payload : List Byte) (h : msgClass mtype ≠ 0) :
    ∃ l, sendRoot s mtype arg payload = { s with link := l } := by
  have hq : queueFull s 0 (msgClass mtype) = false := by simp [queueFull, h]
  unfold sendRoot enqueue enqueueFrom
  rw [hq]
  exact ⟨_, rfl⟩

theorem sendEvent_parts (s : State) (kind arg : Nat) : ∃ l, sendEvent s kind arg = { s with link := l } :=
  sendRoot_parts s 0x0D _ _ (by decide)

theorem enterDone_parts (s : State) (n : Nat) (b : Bool) :
    ∃ l, enterDone s n b = { s.modMbx n (fun m => { m with state := .done, delayEnd := none }) with link := l } := by
  unfold enterDone
  cases b with
  | true => exact sendEvent_parts _ 1 n
  | false => exact ⟨_, rfl⟩

theorem holdResponse_parts (s : State) (n : Nat) :
    ∃ d, holdResponse s n = s.modMbx n (fun m => { m with delayEnd := some d }) := ⟨_, rfl⟩

/-- The response of the command in EXECUTING (R77, R82, R530). -/
theorem postResponse_answered (s : State) (c : Current) (status detail : Nat) (words : List Word)
    (h : s.fw.current = some c) : Answered c status detail words s (postResponse s status detail words) := by
  have hp : ∀ (m : Tab Word) (i : Nat), i < words.length →
      tget (fun _ => (0 : Word)) (twrite (fun _ => 0) m 0 words) i = words.getD i 0 := by
    intro m i hi
    rw [tget_twrite]
    simp [hi]
  unfold postResponse
  rw [h]
  dsimp only
  generalize hw : writeResponse c status detail words = w
  split
  · obtain ⟨d, hd⟩ := holdResponse_parts (State.modMbx { s with fw := { s.fw with current := none } } c.mb.val w) c.mb.val
    rw [hd]
    refine ⟨rfl, ?_, fun _ => rfl, ?_⟩
    · intro k hk; simp [hk]; rfl
    · subst hw
      simp only [State.modMbx_mbx, if_true]
      exact ⟨rfl, rfl, rfl, rfl, rfl, rfl, fun i hi => hp _ i hi, Or.inr rfl⟩
  · generalize hs : State.modMbx { s with fw := { s.fw with current := none } } c.mb.val w = s1
    obtain ⟨l, hl⟩ := enterDone_parts s1 c.mb.val (c.flags.toNat.testBit 0)
    have hm : ∀ k, (enterDone s1 c.mb.val (c.flags.toNat.testBit 0)).mbx k =
        (s1.modMbx c.mb.val (fun m => { m with state := .done, delayEnd := none })).mbx k := by
      intro k; rw [hl]; rfl
    refine ⟨by rw [hl]; subst hs; rfl, ?_, ?_, ?_⟩
    · intro k hk
      rw [hm]; subst hs; simp [hk]; rfl
    · intro hn; rw [hn]; subst hs; rfl
    · rw [hm]
      subst hs hw
      simp only [State.modMbx_mbx, if_true]
      exact ⟨rfl, rfl, rfl, rfl, rfl, rfl, fun i hi => hp _ i hi, Or.inl trivial⟩

/-- A command whose row runs: the row's work on it. -/
theorem onCommand_picked {s : State} {op : Nat} {c : Current} (h : Picked s op c) (action : List Word → Bool)
    (k : Current → State) (ha : action c.params = true) : onCommand s op action k = k c := by
  unfold onCommand
  rw [h.1]
  simp [h.2.1, h.2.2, ha]

/-- Every check passes: the effect. -/
theorem checked_pass {s : State} {l : List (Option Bad)} (k : State → State) (h : firstBad l = none) :
    checked s l k = k s := by
  unfold checked; rw [h]

/-- A check fails: the response says which, and nothing else happens (R88). -/
theorem checked_fail {s : State} {l : List (Option Bad)} (k : State → State) {b : Bad} (h : firstBad l = some b) :
    checked s l k = postBad s b := by
  unfold checked; rw [h]

@[simp] theorem firstBad_nil : firstBad [] = none := rfl
@[simp] theorem firstBad_none (l : List (Option Bad)) : firstBad (none :: l) = firstBad l := rfl
@[simp] theorem firstBad_some (b : Bad) (l : List (Option Bad)) : firstBad (some b :: l) = some b := rfl

@[simp] theorem needParam_true (w : Nat) : needParam true w = none := rfl
@[simp] theorem needState_true (w : Nat) : needState true w = none := rfl
@[simp] theorem needBusy_true (w : Nat) : needBusy true w = none := rfl
@[simp] theorem needGuard_true (w : Nat) : needGuard true w = none := rfl

/-- A list of checks passes when each does. -/
theorem firstBad_eq_none {l : List (Option Bad)} : firstBad l = none ↔ ∀ x ∈ l, x = none := by
  induction l with
  | nil => simp
  | cons a r ih => cases a <;> simp [ih]

end Sys2Proof.Machine
end

