-- ==== Sys2Proof/Laws/Work.lean ====
section
/-! SUPPORT. What the beginning and the end of tracked work do (R83, R92, R93, R379), once and for all commands. -/

namespace Sys2Proof.Machine

theorem reserve_ring {s t : State} {r n : Nat} (h : reserve s r n = some t) : t = s.modRing r (fun c => { c with reserved := c.reserved + n }) := by
  unfold reserve at h
  split at h
  · exact (Option.some.inj h).symm
  · cases h

/-- Work that begins: a fresh progress entry, and one ring asked for credit (R379). -/
theorem beginWork_begun (s : State) (tag opcode r output : Nat) (b : Bool) :
    Begun tag opcode r output s (beginWork s tag opcode r output b) := by
  have key : ∀ u : State, u.fw = (s.modProg tag (fun _ => { opcode := w16 opcode, state := .running, ring := w16 r, output := output })).fw →
      u.harv.stager = (forgetTag s tag).harv.stager → (∀ k, k ≠ r → u.ring k = s.ring k) → Begun tag opcode r output s u := by
    intro u hf hg hr
    have hp : ∀ k, u.prog k = (s.modProg tag (fun _ => { opcode := w16 opcode, state := .running, ring := w16 r, output := output })).prog k := by
      intro k; unfold State.prog; rw [hf]
    refine ⟨by rw [hp]; simp, ?_, hr, hg⟩
    intro k hk; rw [hp]; simp [hk]
  unfold beginWork
  dsimp only
  split
  · exact key _ rfl rfl (fun _ _ => rfl)
  · split
    · rename_i t ht
      have := reserve_ring ht
      subst this
      refine key _ rfl rfl ?_
      intro k hk
      simp [State.ring, State.modRing, State.modProg, forgetTag, hk]
    · unfold joinWaiters
      split
      · exact key _ rfl rfl (fun _ _ => rfl)
      · refine key _ rfl rfl ?_
        intro k hk; simp [State.ring, State.modRing, State.modProg, forgetTag, hk]

theorem finalProgress_prog (s : State) (e : PendingEnd) : Ended e (finalProgress s e) := by
  left
  unfold finalProgress
  simp

/-- Work that ends (R93, R379): final fields, or the end waits. -/
theorem endWork_ended (s : State) (e : PendingEnd) : Ended e (endWork s e) := by
  unfold endWork
  dsimp only
  split
  · split
    · rename_i t ht
      unfold placeCompletion at ht
      split at ht
      · cases ht
      · split at ht
        · cases ht
        · rw [← Option.some.inj ht]
          exact finalProgress_prog _ e
    · right
      simp [State.raise]
      split <;> simp [State.live, State.modFblk]
  · split
    · exact finalProgress_prog _ e
    · right; simp

end Sys2Proof.Machine
end

