-- ==== Sys2Proof/Machine/Package.lean ====
section
/-! DEFINITION. The ball map (spec/18 R535 to R542): the name of a ball, and the signal or rail that it carries. -/

namespace Sys2Proof.Machine

/-- Control balls of the stem's edges (R540). -/
inductive ControlBall
  | refclkP | refclkN | refv | refvRet | resetN | errN | intN
  | trig (n : Nat) | tin (n : Nat)
  | sp0Sck | sp0Cs (n : Nat) | sp0Wsel (n : Nat) | sp0D (n : Nat)
  | sp1Sck | sp1Cs (n : Nat) | sp1D (n : Nat)
deriving DecidableEq, Repr

/-- Balls of one half of a DRAM channel (R541). -/
inductive DramBall
  | dq (n : Nat) | dmi (n : Nat) | rdqsT (n : Nat) | rdqsC (n : Nat) | wckT (n : Nat) | wckC (n : Nat)
  | ca (n : Nat) | cs (n : Nat) | ckT | ckC | resetN
deriving DecidableEq, Repr

/-- What a ball carries (R538 to R544). -/
inductive Ball
  /-- Pin pad. -/
  | pin (p : Nat)
  /-- Force, Kelvin sense high and low, drive output, shunt sense positive and negative of a heavy loop. -/
  | force (h : Nat) | senseHigh (h : Nat) | senseLow (h : Nat) | drive (h : Nat) | shuntP (h : Nat) | shuntN (h : Nat)
  /-- Thermistor input and its return. -/
  | therm (b : Nat) | thermRet (b : Nat)
  /-- Monitor pin BMk of a bed. -/
  | bedMon (b k : Nat)
  /-- Lane `i` of port `n`: transmit and receive pairs. -/
  | txP (n i : Nat) | txN (n i : Nat) | rxP (n i : Nat) | rxN (n i : Nat)
  | control (x : ControlBall)
  /-- A ball of the low or high half of DRAM channel `n`. -/
  | dram (n : Nat) (high : Bool) (x : DramBall)
  | vss | vddCore | vddSram | vddAon | vddq | vddLane | vddIo
  | vpos (d : Nat) | vneg (d : Nat) | vddaRow (d : Nat) | vdddRow (d : Nat)
  | rsvd
deriving DecidableEq, Repr

/-- The letters of the row names (R535). -/
def rowLetters : List Char := "ABCDEFGHJKLMNPTUVWY".toList

/-- The name of the row of index `r`, 0 to 51 (R535). -/
def rowName (r : Nat) : List Char :=
  let l := fun k => rowLetters.getD k 'A'
  if r < 19 then [l r] else [l ((r - 19) / 19), l ((r - 19) % 19)]

/-- The ball at offsets `o` and `x` of row die `d` (R538). -/
def rowBall (d o x : Nat) : Ball :=
  if o = 8 ∨ o = 10 ∨ o = 12 then .vss
  else if o = 9 then (if x < 13 then .vpos d else .vddaRow d)
  else if o = 11 then (if x < 13 then .vneg d else .vdddRow d)
  else if 10 ≤ x then .pin (32 * (4 * d + (x - 10) / 4) + 4 * o + (x - 10) % 4)
  else if 8 ≤ x then .bedMon (4 * d + 2 * (x - 8) + o / 4) (o % 4)
  else
    let h := 8 * d + x
    if o ≤ 1 then .force h
    else if o = 2 then .senseHigh h
    else if o = 3 then .senseLow h
    else if o = 4 then .drive h
    else if o = 5 then .shuntP h
    else if o = 6 then .shuntN h
    else if x % 2 = 0 then .therm (4 * d + x / 2) else .thermRet (4 * d + x / 2)

/-- The ball at row offset `k`, 0 to 11, and `x`, 0 to 5, of the lanes of port `n` (R539). -/
def laneBall (n k x : Nat) : Ball :=
  if k % 3 = 2 then .vddLane
  else if k % 3 = 1 then .vss
  else ([.txP n (k / 3), .txN n (k / 3), .vss, .rxP n (k / 3), .rxN n (k / 3), .vss] : List Ball).getD x .vss

/-- A pair of balls repeated over a row: even columns, then odd ones. -/
def alternate (a b : Ball) : List Ball := [a, b, a, b, a, b]

/-- Rows P to AF of the control columns of the left edge (R540). -/
def leftControls : List (List Ball) :=
  let c := Ball.control
  [[c .refclkP, c .refclkN, .vss, c .refv, c .refvRet, .vss],
   [.vss, .vss, .vddIo, c .resetN, c .errN, c .intN],
   [c (.trig 0), c (.trig 1), c (.trig 2), c (.trig 3), .vddIo, .vss],
   [c (.trig 4), c (.trig 5), c (.trig 6), c (.trig 7), .vss, .vddIo],
   [c (.tin 0), c (.tin 1), c (.tin 2), c (.tin 3), .vddIo, .vss],
   [c .sp0Sck, c (.sp0Cs 0), c (.sp0Cs 1), c (.sp0Wsel 0), c (.sp0Wsel 1), .vss],
   [c (.sp0D 0), c (.sp0D 1), c (.sp0D 2), c (.sp0D 3), .vddIo, .vss],
   [c (.sp0D 4), c (.sp0D 5), c (.sp0D 6), c (.sp0D 7), .vss, .vddIo],
   [.vddAon, .vss, .vddAon, .vss, .rsvd, .rsvd]]

/-- Rows P to W of the control columns of the right edge (R540). -/
def rightControls : List (List Ball) :=
  let c := Ball.control
  [[c .sp1Sck, c (.sp1D 0), c (.sp1D 1), c (.sp1D 2), c (.sp1D 3), .vss],
   (List.range 6).map (fun i => c (.sp1Cs i)),
   (List.range 6).map (fun i => c (.sp1Cs (6 + i))),
   (rangeFrom 12 4).map (fun i => c (.sp1Cs i)) ++ [.vddIo, .vss],
   [.vddAon, .vss, .vddAon, .vss, .rsvd, .rsvd]]

/-- The ball at row offset `q`, 0 to 6, and `x`, 0 to 5, of a half of DRAM channel `n` (R541). -/
def dramBall (n : Nat) (high : Bool) (q x : Nat) : Ball :=
  let s := Ball.dram n high
  let row : List Ball :=
    if q = 0 then [s (.dq 0), s (.dq 1), s (.dq 2), s (.dq 3), s (.dmi 0), .vss]
    else if q = 1 then [s (.dq 4), s (.dq 5), s (.dq 6), s (.dq 7), s (.rdqsT 0), s (.rdqsC 0)]
    else if q = 2 then [s (.wckT 0), s (.wckC 0), .vss, s (.ca 0), s (.ca 1), s (.ca 2)]
    else if q = 3 then [s (.ca 3), s (.ca 4), s (.ca 5), s (.ca 6), s .ckT, s .ckC]
    else if q = 4 then [s (.cs 0), s (.cs 1), .vss, s (.wckT 1), s (.wckC 1), if high then .vss else s .resetN]
    else if q = 5 then [s (.dq 8), s (.dq 9), s (.dq 10), s (.dq 11), s (.rdqsT 1), s (.rdqsC 1)]
    else [s (.dq 12), s (.dq 13), s (.dq 14), s (.dq 15), s (.dmi 1), .vss]
  row.getD x .vss

/-- The ball of a stem edge, left for `n` = 0 and right for `n` = 1, at row index `r` and local column `x` (R539 to R541). -/
def edgeBall (n r x : Nat) : Ball :=
  if r ≤ 24 then
    if x < 6 then laneBall n (r - 13) x
    else ((if n = 0 then leftControls else rightControls).getD (r - 13) (alternate .vddIo .vss)).getD (x - 6) .vss
  else if 6 ≤ x then (if x % 2 = 0 then .vddq else .vss)
  else dramBall n (decide (32 ≤ r)) ((r - 25) % 7) x

/-- The ball at row index `r`, 0 to 51, and column `c`, 1 to 52 (R536, R537, R542). -/
def ballAt (r c : Nat) : Ball :=
  if r ≤ 12 then (if c ≤ 26 then rowBall 0 r (c - 1) else rowBall 1 r (52 - c))
  else if 39 ≤ r then (if c ≤ 26 then rowBall 2 (51 - r) (c - 1) else rowBall 3 (51 - r) (52 - c))
  else if c ≤ 12 then edgeBall 0 r (c - 1)
  else if 41 ≤ c then edgeBall 1 r (52 - c)
  else if (r + c) % 2 = 0 then .vss
  else if c ≤ 34 then .vddCore else .vddSram

/-- The ball of a place on row die `d`: its row index and column (R537). -/
def rowPlace (d o x : Nat) : Nat × Nat :=
  (if d < 2 then o else 51 - o, if d % 2 = 0 then 1 + x else 52 - x)

/-- The ball of pin `p`: its row index and column (R537, R538). -/
def pinPlace (p : Nat) : Nat × Nat :=
  rowPlace (p / 128) (p % 32 / 4) (10 + 4 * (p / 32 % 4) + p % 4)

end Sys2Proof.Machine
end

