-- ==== Sys2Proof/WellFormed.lean ====
section
/-! DEFINITION. Well-formedness of a command: the shapes the spec fixes for what a command carries from outside. -/

namespace Sys2Proof

/-- A fraction of the checks: a list has exactly `n` elements. -/
def hasLength {α : Type} (n : Nat) (l : List α) : Bool := decide (l.length = n)

/-- A REG_WRITE carries 1 to 256 words (R413); a MAILBOX_POST carries 12 to 252 bytes, so 6 to 126 words (R413). -/
def wordsBetween (lo hi : Nat) (l : List Word) : Bool := decide (lo ≤ l.length) && decide (l.length ≤ hi)

/-- The command's operands have the shape the spec gives them. -/
def Instr.wellFormed : Instr → Bool
  | .regWrite _ _ ws => wordsBetween 1 256 ws
  | .regBurstRead _ _ count => decide (1 ≤ count.toNat) && decide (count.toNat ≤ 256)
  | .mailboxPost _ _ ws => wordsBetween 6 126 ws
  | .bulkRead _ _ count => decide (2 ≤ count.toNat) && decide (count.toNat ≤ 512) && decide (count.toNat % 2 = 0)
  | .bulkWrite _ _ data => decide (2 ≤ data.length) && decide (data.length ≤ 512) && decide (data.length % 2 = 0)
  | .dataFlitReceive _ bytes _ => hasLength 32 bytes
  | .linkCtrlReceive _ bytes _ => hasLength 32 bytes
  | .laneEqualiseDone _ eyes _ => hasLength 4 eyes
  | .sensorSample t rails pm => hasLength 48 t && hasLength 14 rails && hasLength 5 pm
  | .vectorJudgement _ lanes => decide (lanes.length ≤ 512)
  | .pinReset lowNs => decide (1000 ≤ lowNs)
  | _ => true

end Sys2Proof
end

