-- ==== Sys2Proof/Tests/Slice0.lean ====
section
/-! SUPPORT. The model's own tests: ill-formed commands, values worked out outside the model, and for every statement with
hypotheses a state and operands that meet them, clause by clause. -/

set_option Elab.async false
set_option maxRecDepth 100000
set_option linter.unusedVariables false

namespace Sys2Proof.Tests

open Sys2Proof Sys2Proof.Machine

/-! States to test on. -/

def on : State := { State.reset with clk := { State.reset.clk with phase := .ready, pllLocked := true, refPresent := true } }
def cur (op : Nat) (ps : List Nat) : Current :=
  { mb := 0, opcode := w16 op, tag := 1, flags := 0, ring := 0, params := ps.map w16, pick := 0, wait := .nothing, reply := [] }
def cmd (op : Nat) (ps : List Nat) (s : State := on) : State := { s with fw := { s.fw with current := some (cur op ps) } }
def half (a : Nat) (v : Word) (s : State := on) : State := { s with bus := { s.bus with halfHost := some ⟨a, v, 0⟩ } }
def posted (opcode : Word) (rev : Nat) : State :=
  { on with mb := [(3, { state := .posted, opcode := opcode })], fw := { on.fw with rev := rev } }
def aCalRun : CalRun := { tag := 5, ring := 0, kind := 5, scopes := [3], dry := false, refv := 0, tolPpm := 500, aborting := false }
def aSession : Session := { slotB := true, imageBytes := 0x1100, received := 0, erased := false, tag := 1 }
/-- A copy in the cache of 16 vectors of one lane, the first with the words `l`. -/
def copyOf (l : List Word) : Cached := { width := 1, vectors := 16, words := l }
def run (x : SeqState) (d : Tab Byte := [])
    (g : Segment := { registered := true, vectors := 16, width := 1, resident := true, copy := copyOf [] }) : State :=
  { on with
    bus := { on.bus with dramMib := 1024 }
    pat := { on.pat with seq := [(0, x)], segment := [(7, g)], stream := [(0, { isOpen := true, list := [7], width := 1 })], dram := d } }
/-- Segment 7 resident with one vector of one lane, its words `l`. -/
def one (l : List Word) : Segment :=
  { registered := true, vectors := 16, width := 1, resident := true, copy := { width := 1, vectors := 1, words := l } }
/-- The streamer fetches segment 7. -/
def fet (g : Segment) (s : State := run {} [] g) : State := { s with pat := { s.pat with fetch := some 7 } }
/-- A command that waits. -/
def waits (op : Nat) (ps : List Nat) (w : Wait) (s : State := on) : State :=
  { s with fw := { s.fw with current := some { cur op ps with wait := w } } }
def lp (l : Nat) (x : LoopState) : State := { on with lp := { on.lp with loop := [(l, x)] } }
def aSweep : SweepRun :=
  { tag := 5, ring := 0, measRing := 0xFFFF, first := 0, count := 1, start := .at 9, stepFirst := 0, steps := 1, passes := 1
    begun := 0, done := 0, left := 0, last := 0, began := 0, credit := false, granted := false, restore := none }
def aProfile : ProfileRun :=
  { tag := 5, ring := 0, start := .at 0, nj := 1, na := 0, nv := 0, target := 100, begun := true, k := 0, j := 0, p := 0, v := 0, a := 0 }
def aWave : WaveRun :=
  { tag := 5, ring := 0, start := .at 0, entries := [⟨0, 1, 1⟩], passes := 1, scale := ⟨0, 1⟩, offset := ⟨0, 1⟩, segEvents := false
    restore := none, entry := 0, rep := 0, pass := 0, n := 0, f := 0, native := 0, instances := 0, prev := [], jumped := none
    jump := none, stopping := false, ended := false }
def aSine : SineRun :=
  { tag := 5, ring := 0, start := .at 0, fw := 1, phi0 := 0, epoch := 0, amp := ⟨⟨0, 1⟩, ⟨0, 1⟩, 0, 0⟩, offset := ⟨⟨0, 1⟩, ⟨0, 1⟩, 0, 0⟩
    cycles := 0, rampN := 0, turns := 0, phase := 0, begun := some 0, prev := [], change := none, past := [], stopAt := none
    stopping := false, quiet := false }
def aMeas : MeasRun :=
  { tag := 5, hdrRing := 0, ring := 0, start := .at 0, raw := false, group := [], blocks := 0, gap := 0, decim := 0, n := 1
    slot := none, done := 0, skip := 0, win := none, units := 0, rawV := {}, rawI := {}, stopping := false }
def aLock : LockRun :=
  { tag := 5, hdrRing := 0, ring := 0, start := .at 0, group := [], ref := 512, harmonic := 1, v := true, i := false, cycles := 1
    blocks := 0, p := 1, done := 0, phase := none, win := none, credit := false, ended := none, stopping := false }
def aSample : Sample :=
  { time := 0, v := 0, i := 0, vOvr := false, iOvr := false, irange := 0, vrange := 0, settling := false, held := false
    unref := false }
def aTim : TimRun :=
  { tag := 5, hdrRing := 0, ring := 0, start := .at 0, blocks := 0, done := 0, win := {}, armed := none, armMiss := 0, armUnref := false, gateK := 0
    gateFirst := 0, gateLast := 0, gateMiss := false, gateEnd := 0, record := none, stepped := false, stopping := false
    overflowed := false }
def av (k : Nat) (x : Averager) : State := { on with meas := { on.meas with avg := [(k, x)] } }
def wm (k : Nat) (x : Monitoring) : State := { on with meas := { on.meas with monitor := [(k, x)] } }
def tm (k : Nat) (x : TimeInterval) : State := { on with meas := { on.meas with unit := [(k, x)] } }
/-- Time-interval unit 31, whose pad 480 is connected. -/
def tmPad (x : TimeInterval) : State := { tm 31 x with pins := { on.pins with pin := [(480, { conn := 1 })] } }
def rg (k : Nat) (x : RingCtx) : State :=
  { on with bus := { on.bus with dramMib := 1024 }, harv := { on.harv with ring := [(k, x)] } }
def sg (k : Nat) (x : Stager) (r : RingCtx) : State := { on with harv := { on.harv with stager := [(k, x)], ring := [(3, r)] } }
/-- A staged record of `n` units of ring 3. -/
def aStaged (n : Nat) : Staged :=
  { ring := 3, pos := 0, len := n, seq := 0, tag := 5, bytes := List.replicate (16 * n) 0, entered := 0, unref := false, acked := 0 }
/-- Stager `k` is full, its other bank with the ring writer; ring 3 is live and empty. -/
def full (k : Nat) (s : State := on) : State :=
  { s with harv := { s.harv with stager := [(k, { handed := true, bankA := [aStaged 256] })], ring := [(3, { state := .live })] } }
def pt (k : Nat) (x : LinkPort) (s : State := on) : State := { s with link := { s.link with port := [(k, x)] } }
/-- A LINK_CTRL flit of type `t`, nothing acknowledged. -/
def ctl (t stamp : Nat) : List Byte := flitBytes 0 0 1 false false (List.replicate 16 0 ++ [b8 t, 0x7D] ++ toBytes 8 stamp)
def hd (dest : BitVec 7) : MsgHdr := ⟨dest, 0x7E, false, 9⟩
def stg (k : Nat) (x : StageState) (s : State := on) : State := { s with ser := { s.ser with stage := [(k, x)] } }
/-- In words of a stage: these and their CRC. -/
def inWords (l : List Word) : List Word := l ++ [w16 (crc16 (wordsMsb l))]
def lv (v : LevelId) (x : Level) : State := { on with sup := { on.sup with level := [(levelKey v, x)] } }
def zn (k : Nat) (x : ZoneState) : State := { on with sup := { on.sup with zone := [(k, x)] } }
def rl (k : Nat) (x : RailRead) : State := { on with sup := { on.sup with railRead := [(k, x)] } }
def cl (x : Calibration) (s : State := on) : State := { s with cal := x }
/-- The keep store may be written: KEEP_WE and the keep line. -/
def wr : State := { on with bus := { on.bus with keepWe := 7 }, sup := { on.sup with keepOpen := true } }
def aQuiet : CalMeas :=
  { density := [], finePosStuck := false, histograms := [], codeStats := [], repeatMilli := 0, tempChange := 0
    quality := [(3, 500, 0)], refvDev := [], patch := [(0, 1)] }
def flt (x : Faults) : State := { on with flt := x }


/-! Ill-formed commands are refused, one for each check of `Instr.wellFormed`. -/

theorem test_wf_reg_write : (Instr.regWrite (hd 5) 0 []).wellFormed = false ∧
    (Instr.regWrite (hd 5) 0 (List.replicate 256 0)).wellFormed = true := by decide +kernel
theorem test_wf_reg_burst_read : (Instr.regBurstRead (hd 5) 0 257).wellFormed = false ∧
    (Instr.regBurstRead (hd 5) 0 256).wellFormed = true := by decide +kernel
theorem test_wf_mailbox_post : (Instr.mailboxPost (hd 5) 0 [1, 2, 3, 4, 5]).wellFormed = false ∧
    (Instr.mailboxPost (hd 5) 0 [1, 2, 3, 4, 5, 6]).wellFormed = true := by decide +kernel
theorem test_wf_bulk_read : (Instr.bulkRead (hd 5) 0 511).wellFormed = false ∧
    (Instr.bulkRead (hd 5) 0 512).wellFormed = true := by decide +kernel
theorem test_wf_bulk_write : (Instr.bulkWrite (hd 5) 0 [1, 2, 3]).wellFormed = false ∧
    (Instr.bulkWrite (hd 5) 0 [1, 2]).wellFormed = true := by decide +kernel
theorem test_wf_data_flit : (Instr.dataFlitReceive .link0 [0] true).wellFormed = false ∧
    (Instr.dataFlitReceive .link0 (List.replicate 32 0) true).wellFormed = true := by decide +kernel
theorem test_wf_link_ctrl : (Instr.linkCtrlReceive .link0 (List.replicate 33 0) ⟨0, true⟩).wellFormed = false ∧
    (Instr.linkCtrlReceive .link0 (ctl 0 0) ⟨0, true⟩).wellFormed = true := by decide +kernel
theorem test_wf_equalise : (Instr.laneEqualiseDone .link0 [(400, 40)] 15).wellFormed = false ∧
    (Instr.laneEqualiseDone .link0 (List.replicate 4 (400, 40)) 15).wellFormed = true := by decide +kernel
theorem test_wf_sensor_sample : (Instr.sensorSample [] [] []).wellFormed = false ∧
    (Instr.sensorSample (List.replicate 48 .fault) (List.replicate 14 0) (List.replicate 5 0)).wellFormed = true := by
  decide +kernel
theorem test_wf_judgement : (Instr.vectorJudgement 0 (List.replicate 513 ⟨.low, false⟩)).wellFormed = false ∧
    (Instr.vectorJudgement 0 []).wellFormed = true := by decide +kernel
theorem test_wf_pin_reset : (Instr.pinReset 999).wellFormed = false ∧ (Instr.pinReset 1000).wellFormed = true := by decide +kernel

/-! Values worked out outside the model: the spec's worked examples, and the published check values of its codes. -/

/-- The published check value of CRC-32C over "123456789". -/
theorem test_crc32c : crc32c [0x31, 0x32, 0x33, 0x34, 0x35, 0x36, 0x37, 0x38, 0x39] = 0xE3069283 := by decide +kernel
/-- The published check value of CRC-16 with R438's parameters. -/
theorem test_crc16 : crc16 [0x31, 0x32, 0x33, 0x34, 0x35, 0x36, 0x37, 0x38, 0x39] = 0x29B1 := by decide +kernel
/-- SHA-256 of "abc", from its standard. -/
theorem test_sha256 : ofBytesMsb (sha256 [0x61, 0x62, 0x63]) =
    0xBA7816BF8F01CFEA414140DE5DAE2223B00361A396177A9CB410FF61F20015AD := by decide +kernel
/-- spec/03: bit 2 of CHIP_CONTROL is ERRN_TEST, its alias 0x80_1012. -/
theorem test_alias_write : (match exec (.aliasWrite .host 0x801012 0xFFFF) on with
    | .next t => decide (readWord t .host 0x101 = readWord on .host 0x101 ||| 4)
    | _ => false) = true := by decide +kernel
/-- spec/03: 64 words from 0x00_00E0 hold 32 valid words. -/
theorem test_burst_region : busRegion 0xE0 = some (0, 0xFF) := by decide +kernel
/-- spec/06: the new grid's first rising edge. -/
theorem test_clock_change : (changeClock { running := true, set := ⟨8192 * 65536, 4096, 0⟩, runs := [{ set := ⟨8192 * 65536, 4096, 0⟩, start := 0 }] }
    160000016 (some ⟨12288 * 65536, 6144, 0⟩)).runs.head?.map (fun r => nextRise r.set r.start.toNat) = some 40960008192 := by
  decide +kernel
/-- spec/09: G[10] = 16 384, G[11] = 24 576, the error 42 949 672. -/
theorem test_gain : gainAt { on with lp := { on.lp with gain := [(106, 16384), (107, 24576)] } } 0 3 42949672 = 18656 := by
  decide +kernel
/-- spec/11: four samples of TU04. -/
theorem test_interval_window : ((([2868, 2871, 2866, 2873].foldl (fun s x => addSample s 4 x 0 false)
      (tm 4 { n := 5, run := some { aTim with ring := 0xFFFF, win := { credit := true } } })).tiu 4).run.map
    (fun r => (r.win.sd, r.win.sq))) = some (6, 38) := by decide +kernel
/-- spec/14: a frame of N = 8 and DUMMY 4 at 50 MHz takes 3.2 µs. -/
theorem test_frame_ticks : frameTicks 0x0800 [0, 0, 0, 0, 0, 0, 0, 8, 4] = 10240 := by decide +kernel
/-- spec/15: the group of bed B9. -/
theorem test_sensor_group : groupSensors 9 = [30, 31, 36] := by decide +kernel
/-- R1: a command under revision 2 is refused by name. -/
theorem test_revision_two : (match exec .firmwarePick (posted 0x0101 2) with
    | .refused r => decide (r = .revisionOutsideManual 2)
    | _ => false) = true := by decide +kernel
/-- The queue is first in, first out. -/
theorem test_queue : step { on with pending := [.pinReset 0, .powerLoss] } = exec (.pinReset 0) { on with pending := [.powerLoss] } := rfl


/-- spec/18: the worked examples of the ball map, pin P300, heavy loop H21 and thermistor TH9. -/
theorem test_ball_examples : rowName 48 = ['B', 'L'] ∧ ballAt 48 15 = .pin 300 ∧ pinPlace 300 = (48, 15) ∧
    rowName 51 = ['B', 'P'] ∧ ballAt 51 6 = .force 21 ∧ rowName 50 = ['B', 'N'] ∧ ballAt 50 6 = .force 21 ∧
    rowName 49 = ['B', 'M'] ∧ ballAt 49 6 = .senseHigh 21 ∧ rowName 47 = ['B', 'K'] ∧ ballAt 47 6 = .drive 21 ∧
    rowName 44 = ['B', 'G'] ∧ ballAt 44 3 = .therm 9 ∧ ballAt 44 4 = .thermRet 9 := by decide +kernel
/-- Every pin has its ball. -/
theorem test_pin_balls : (List.range 512).all (fun p => decide (ballAt (pinPlace p).1 (pinPlace p).2 = .pin p)) = true := by
  decide +kernel

/-! For every statement with hypotheses: a state and operands that meet them, clause by clause. -/
theorem witness_commandsRunInOrder : ∃ (c : Instr) (r : List Instr) (s t : State), s.pending = c :: r ∧ step s = .next t :=
  ⟨.pinReset 0, [], { on with pending := [.pinReset 0] }, on, by refine ⟨rfl, rfl⟩⟩
theorem witness_emptyQueueLetsTimePass :
    (∃ (s : State), s.pending = []) ∧
    (∃ (s : State), s.pending = [] ∧ PortsRest s ∧ s.link.inbox = [] ∧ s.flt.forceAt = [] ∧ (∀ e ∈ s.pat.seq, e.2.mode ≠ .ending)) ∧
    (∃ (s : State) (a k src : Nat), s.pending = [] ∧ PortsRest s ∧ s.link.inbox = [] ∧ s.flt.forceAt = [(a, k, src)] ∧ a ≤ s.clk.time ∧ s.clk.time + 1 < 2 ^ 64 ∧ (∀ e ∈ s.pat.seq, e.2.mode ≠ .ending)) :=
  ⟨⟨on, by decide +kernel⟩,
   ⟨on, by decide +kernel⟩,
   ⟨{ on with flt := { on.flt with forceAt := [(0, 4, 1)] } }, 0, 4, 1, by decide +kernel⟩⟩
theorem witness_resetLeaves :
    (∃ (n : _), n < 8) ∧
    (∃ (k n : _), k < 28 ∧ n < 64) :=
  ⟨⟨7, by decide +kernel⟩,
   ⟨27, 63, by decide +kernel⟩⟩
theorem witness_identityRegion : ∃ (m : Master) (a : Addr) (w : Word) (s : State), busAlive s = true ∧ halfOf s m = none ∧ a.toNat < 0x20 :=
  ⟨.host, 0x1F, 0, on, by decide +kernel⟩
theorem witness_memoriesStayCanonical : ∃ (s t : State), Memory.wf 0 s.pat.dram = true ∧ Memory.wf 0xFF s.ser.flash = true ∧ Memory.wf 0xFF s.cal.keep = true ∧ s.fw.rollback ≤ 64 ∧ step s = .next t :=
  ⟨on, tick on, by refine ⟨rfl, rfl, rfl, by decide, rfl⟩⟩
theorem witness_programmedOnceStays : ∃ (s t : State), Memory.wf 0 s.pat.dram = true ∧ Memory.wf 0xFF s.ser.flash = true ∧ Memory.wf 0xFF s.cal.keep = true ∧ s.fw.rollback ≤ 64 ∧ step s = .next t :=
  ⟨on, tick on, by refine ⟨rfl, rfl, rfl, by decide, rfl⟩⟩
theorem witness_powerAndResetEvents :
    (∃ (wsel : BitVec 2) (s : State), (s.clk.phase = .off ∨ s.clk.phase = .released)) ∧
    (∃ (lowNs : Nat) (s : State), lowNs < 1000) ∧
    (∃ (lowNs : Nat) (s : State), (s.clk.resetting = some .pin ∨ s.clk.resetting = some .powerOn)) ∧
    (∃ (lowNs : Nat) (s : State), 1000 ≤ lowNs ∧ s.clk.phase ≠ .off ∧ s.clk.phase ≠ .deep ∧ s.clk.resetting ≠ some .pin ∧ s.clk.resetting ≠ some .powerOn) ∧
    (∃ (s : State), s.clk.resetting ≠ none) ∧
    (∃ (k : Block) (s : State), s.blkReset k.val = true) ∧
    (∃ (k : Block) (s : State), s.blkReset k.val = false) :=
  ⟨⟨1, State.reset, by decide +kernel⟩,
   ⟨999, on, by decide +kernel⟩,
   ⟨1000, { on with clk := { on.clk with resetting := some .pin } }, by decide +kernel⟩,
   ⟨1000, on, by decide +kernel⟩,
   ⟨{ on with clk := { on.clk with resetting := some .chip } }, by decide +kernel⟩,
   ⟨3, on.modBlkReset 3 (fun _ => true), by decide +kernel⟩,
   ⟨3, on, by decide +kernel⟩⟩
theorem witness_bootAndReferenceEvents :
    (∃ (env : BootEnv) (s : State), s.clk.phase = .seeded ∧ s.clk.resetting = none ∧ s.clk.refPresent = false ∧ env.refclk = false) ∧
    (∃ (env : BootEnv) (s : State), s.clk.phase = .seeded ∧ s.clk.resetting = none ∧ (s.clk.refPresent = true ∨ env.refclk = true)) ∧
    (∃ (s : State), s.clk.resetting = none ∧ s.clk.phase = .started ∧ s.clk.restarting = false) ∧
    (∃ (edges : Nat) (s : State), 88 ≤ edges ∧ edges ≤ 104) ∧
    (∃ (edges : Nat) (s : State), s.clk.pllLocked = true ∧ (edges < 88 ∨ 104 < edges)) ∧
    (∃ (counts : List Nat) (s : State), s.clk.pllLocked = false ∧ 64 ≤ counts.length ∧ (∀ n ∈ counts.drop (counts.length - 64), 2900 ≤ n ∧ n ≤ 3200)) ∧
    (∃ (counts : List Nat) (s : State), (counts.length < 64 ∨ s.clk.pllLocked = true)) ∧
    (∃ (s : State), s.clk.holdover = true ∧ s.clk.refPresent = true) :=
  ⟨⟨⟨false, 0, none, []⟩, { on with clk := { on.clk with phase := .seeded, refPresent := false } }, by decide +kernel⟩,
   ⟨⟨true, 0, none, []⟩, { on with clk := { on.clk with phase := .seeded } }, by decide +kernel⟩,
   ⟨{ on with clk := { on.clk with phase := .started } }, by decide +kernel⟩,
   ⟨104, on, by decide +kernel⟩,
   ⟨87, on, by decide +kernel⟩,
   ⟨List.replicate 64 3200, { on with clk := { on.clk with pllLocked := false } }, by decide +kernel⟩,
   ⟨[], on, by decide +kernel⟩,
   ⟨{ on with clk := { on.clk with holdover := true } }, by decide +kernel⟩⟩
theorem witness_watchdogAndPowerEvents :
    (∃ (s : State) (n : Nat), n = max s.clk.time (s.clk.wdogServed + 3200000 * s.clk.wdogRunning) ∧ s.clk.restarting = false ∧ s.clk.resetting = none ∧ (s.clk.phase = .started ∨ s.clk.phase = .ready) ∧ ((s.clk.wdogTimes.filter (fun x => decide (n < x + 32000000000))).length < 2)) ∧
    (∃ (s : State) (n : Nat), n = max s.clk.time (s.clk.wdogServed + 3200000 * s.clk.wdogRunning) ∧ s.clk.restarting = false ∧ s.clk.resetting = none ∧ (s.clk.phase = .started ∨ s.clk.phase = .ready) ∧ (2 ≤ (s.clk.wdogTimes.filter (fun x => decide (n < x + 32000000000))).length)) ∧
    (∃ (s : State) (d : Nat), s.clk.activationDue = some d ∧ s.clk.restarting = false ∧ s.clk.resetting = none ∧ (s.clk.phase = .started ∨ s.clk.phase = .ready) ∧ ((s.clk.wdogTimes.filter (fun x => decide (max s.clk.time d < x + 32000000000))).length < 2)) ∧
    (∃ (s : State) (d : Nat), s.clk.activationDue = some d ∧ s.clk.resetting = none ∧ s.clk.phase = .recovery) ∧
    (∃ (s : State), s.clk.activationDue = none) ∧
    (∃ (s : State), s.fw.traps = []) ∧
    (∃ (s : State), s.clk.deepDue = none) ∧
    (∃ (s : State) (k src at' : Nat) (r : List (Nat × Nat × Nat)), s.fw.traps = (k, src, at') :: r ∧ s.clk.restarting = false ∧ s.clk.resetting = none ∧ (s.clk.phase = .started ∨ s.clk.phase = .ready) ∧ ((s.clk.wdogTimes.filter (fun x => decide (max s.clk.time (at' + 3200000 * s.clk.wdogRunning) < x + 32000000000))).length < 2)) ∧
    (∃ (s : State) (d : Nat), s.clk.deepDue = some d) ∧
    (∃ (cause : Wake) (wsel : BitVec 2) (s : State), s.clk.phase = .deep ∧ (cause = .resetN ∨ (cause = .lane ∧ s.clk.wakeLane = true) ∨ (∃ r, cause = .tin0 r ∧ s.clk.wakeTin0 = true ∧ s.clk.tin0Falling = !r))) ∧
    (∃ (cause : Wake) (wsel : BitVec 2) (s : State), s.clk.phase ≠ .deep) ∧
    (∃ (b : Bed) (s : State), s.stbyExit b.val = true ∧ s.bedPow b.val = .active ∧ 1 ≤ (s.mon b.val).rounds) ∧
    (∃ (b : Bed) (s : State), (s.stbyExit b.val = false ∨ s.bedPow b.val ≠ .active ∨ (s.mon b.val).rounds = 0)) ∧
    (∃ (s : State), dramDemand s = true) ∧
    (∃ (s : State), dramDemand s = false) ∧
    (∃ (s : State), (s.clk.stemIdle = false ∨ dramDemand s = true)) ∧
    (∃ (s : State), s.clk.stemIdle = true ∧ dramDemand s = false) :=
  ⟨⟨on, 800000000, by decide +kernel⟩,
   ⟨{ on with clk := { on.clk with wdogTimes := [0, 0] } }, 800000000, by decide +kernel⟩,
   ⟨{ on with clk := { on.clk with activationDue := some 5 } }, 5, by decide +kernel⟩,
   ⟨{ on with clk := { on.clk with phase := .recovery, activationDue := some 5 } }, 5, by decide +kernel⟩,
   ⟨{ on with clk := { on.clk with stemIdle := true } }, by decide +kernel⟩,
   ⟨{ on with clk := { on.clk with stemIdle := true } }, by decide +kernel⟩,
   ⟨on, by decide +kernel⟩,
   ⟨{ on with fw := { on.fw with traps := [(3, 1, 0)] } }, 3, 1, 0, [], by decide +kernel⟩,
   ⟨{ on with clk := { on.clk with deepDue := some 5 } }, 5, by decide +kernel⟩,
   ⟨.resetN, 0, { on with clk := { on.clk with phase := .deep } }, by exact ⟨rfl, Or.inl rfl⟩⟩,
   ⟨.lane, 0, on, by decide +kernel⟩,
   ⟨2, { on with clk := { on.clk with standbyExit := [(2, true)] }, pins := { on.pins with monitor := [(2, { rounds := 1 })] } }, by decide +kernel⟩,
   ⟨2, { on with clk := { on.clk with standbyExit := [(2, true)] } }, by decide +kernel⟩,
   ⟨{ on with harv := { on.harv with stager := [(3, { handed := true })] } }, by decide +kernel⟩,
   ⟨{ on with clk := { on.clk with stemIdle := true } }, by decide +kernel⟩,
   ⟨on, by decide +kernel⟩,
   ⟨{ on with clk := { on.clk with stemIdle := true } }, by decide +kernel⟩⟩
theorem witness_guardedRegistersRead :
    (∃ (a : _), guardedValue a = true) ∧
    (∃ (a : _), guardedValue a = true ∧ a ≠ 0x116 ∧ a ≠ 0x11A ∧ a ≠ 0x10000) :=
  ⟨⟨0x116, by decide +kernel⟩,
   ⟨0x110, by decide +kernel⟩⟩
theorem witness_bitAliases :
    (∃ (s : State) (m : Master) (a k : Nat), a < 0x20000 ∧ k < 16) ∧
    (∃ (s : State) (m : Master) (a : Addr) (w w' : Word), w.getLsbD 0 = w'.getLsbD 0) ∧
    (∃ (s : State) (m : Master) (a : Nat), 0x800000 ≤ a ∧ a < 0xA00000 ∧ busAlive s = true) ∧
    (∃ (s : State) (m : Master) (a : Addr) (w : Word), isAlias a.toNat = true ∧ busRegion a.toNat = none ∧ busAlive s = true ∧ halfOf s m = none) :=
  ⟨⟨on, .host, 0x1FFFF, 15, by decide +kernel⟩,
   ⟨on, .shed, 0x801012, 1, 3, by decide +kernel⟩,
   ⟨on, .host, 0x9FFFFF, by decide +kernel⟩,
   ⟨on, .host, 0x818000, 0, by decide +kernel⟩⟩
theorem witness_guardedPairs :
    (∃ (m : Master) (a : Addr) (w : Word) (s : State), busAlive s = true ∧ guardedValue a.toNat = true ∧ halfOf s m = none) ∧
    (∃ (m : Master) (h : Half) (s : State), InTime s m h ∧ h.addr = 0x116 ∧ h.value.toNat < 8 ∧ Prevails s m 0x116) ∧
    (∃ (m : Master) (h : Half) (s : State), InTime s m h ∧ h.addr = 0x11A ∧ h.value.toNat < 4 ∧ Prevails s m 0x11A) ∧
    (∃ (m : Master) (h : Half) (s : State), InTime s m h ∧ h.addr = 0x110 ∧ h.value = 1) ∧
    (∃ (m : Master) (h : Half) (s : State), InTime s m h ∧ h.addr = 0x110 ∧ h.value = 0) ∧
    (∃ (m : Master) (h : Half) (s : State) (b : Nat), InTime s m h ∧ h.addr = 0x112 ∧ h.value.toNat = b ∧ b < 16) ∧
    (∃ (m : Master) (h : Half) (s : State), InTime s m h ∧ h.addr = 0x112 ∧ (h.value = 0x10 ∨ h.value = 0x30)) ∧
    (∃ (m : Master) (h : Half) (s : State) (b : Nat), InTime s m h ∧ h.addr = 0x114 ∧ h.value.toNat = b ∧ b < 16 ∧ (s.bedc b).active = true ∧ (∀ x, (s.bedc b).tripAt = some x → f3 x ≠ f3 (busTurn s m).clk.time) ∧ s.flt.chip = [] ∧ s.flt.chain = [] ∧ (∀ c ∈ (s.bedc b).causes, causeLive (paired s m) c = false)) ∧
    (∃ (m : Master) (h : Half) (s : State) (b x : Nat), InTime s m h ∧ h.addr = 0x114 ∧ h.value.toNat = b ∧ b < 16 ∧ (s.bedc b).tripAt = some x ∧ f3 x = f3 (busTurn s m).clk.time) ∧
    (∃ (m : Master) (h : Half) (s : State), InTime s m h ∧ h.addr = 0x118 ∧ h.value = 1 ∧ s.sup.shutdown = true ∧ s.sup.exitOk = true ∧ f3 s.sup.shutTime ≠ f3 (busTurn s m).clk.time) ∧
    (∃ (m : Master) (h : Half) (s : State), InTime s m h ∧ h.addr = 0x118 ∧ h.value.toNat < 2 ∧ (h.value = 0 ∨ s.sup.shutdown = false ∨ s.sup.exitOk = false ∨ f3 s.sup.shutTime = f3 (busTurn s m).clk.time)) ∧
    (∃ (m : Master) (k : Block) (h : Half) (s : State), InTime s m h ∧ h.addr = 0x1000 + 0x40 * k.val + 0x3E ∧ h.value.toNat < srcCount k.val) ∧
    (∃ (m : Master) (h : Half) (s : State), InTime s m h ∧ h.addr = 0x10000 ∧ h.value = 1 ∧ s.flt.armed = false ∧ Prevails s m 0x10000) ∧
    (∃ (m : Master) (h : Half) (s : State), InTime s m h ∧ h.addr = 0x10000 ∧ h.value = 0 ∧ Prevails s m 0x10000) ∧
    (∃ (m : Master) (a : Addr) (w : Word) (h : Half) (s : State), InTime s m h ∧ guardedValue a.toNat = true) ∧
    (∃ (m : Master) (w : Word) (h : Half) (s : State), InTime s m h ∧ h.addr = 0x116 ∧ w ≠ ~~~h.value) ∧
    (∃ (m : Master) (w : Word) (s : State), busAlive s = true ∧ halfOf s m = none) ∧
    (∃ (m : Master) (w : Word) (h : Half) (s : State), InTime s m h ∧ h.addr ≠ 0x116) ∧
    (∃ (m : Master) (h : Half) (s : State), InTime s m h ∧ h.addr = 0x116 ∧ 8 ≤ h.value.toNat) ∧
    (∃ (m : Master) (h : Half) (s : State), halfOf s m = some h ∧ h.time % 16 = 0) ∧
    (∃ (m : Master) (s : State), halfOf s m = none) ∧
    (∃ (m : Master) (a : Addr) (w : Word) (s : State), busAlive s = true ∧ isAlias a.toNat = true ∧ guarded ((a.toNat - 0x800000) / 16) = true ∧ halfOf s m = none) :=
  ⟨⟨.host, 0x116, 1, on, by decide +kernel⟩,
   ⟨.host, ⟨0x116, 7, 0⟩, (half 0x116 7 on), by decide +kernel⟩,
   ⟨.host, ⟨0x11A, 3, 0⟩, (half 0x11A 3 on), by decide +kernel⟩,
   ⟨.host, ⟨0x110, 1, 0⟩, (half 0x110 1 on), by decide +kernel⟩,
   ⟨.host, ⟨0x110, 0, 0⟩, (half 0x110 0 on), by decide +kernel⟩,
   ⟨.host, ⟨0x112, 15, 0⟩, (half 0x112 15 on), 15, by decide +kernel⟩,
   ⟨.host, ⟨0x112, 0x30, 0⟩, (half 0x112 0x30 on), by decide +kernel⟩,
   ⟨.host, ⟨0x114, 2, 0⟩, (half 0x114 2 { on with clk := { on.clk with time := 64 }, flt := { on.flt with bed := [(2, { active := true, causes := [.dead] })] } }), 2, by decide +kernel⟩,
   ⟨.host, ⟨0x114, 2, 0⟩, (half 0x114 2 { on with flt := { on.flt with bed := [(2, { active := true, tripAt := some 9 })] } }), 2, 9, by decide +kernel⟩,
   ⟨.host, ⟨0x118, 1, 0⟩, (half 0x118 1 { on with clk := { on.clk with time := 64 }, sup := { on.sup with shutdown := true, exitOk := true } }), by decide +kernel⟩,
   ⟨.host, ⟨0x118, 1, 0⟩, (half 0x118 1 on), by decide +kernel⟩,
   ⟨.host, 4, ⟨0x113E, 0, 0⟩, (half 0x113E 0 on), by decide +kernel⟩,
   ⟨.host, ⟨0x10000, 1, 0⟩, (half 0x10000 1 on), by decide +kernel⟩,
   ⟨.host, ⟨0x10000, 0, 0⟩, (half 0x10000 0 on), by decide +kernel⟩,
   ⟨.host, 0x116, 1, ⟨0x11A, 3, 0⟩, (half 0x11A 3 on), by decide +kernel⟩,
   ⟨.host, 5, ⟨0x116, 7, 0⟩, (half 0x116 7 on), by decide +kernel⟩,
   ⟨.host, 5, on, by decide +kernel⟩,
   ⟨.host, 5, ⟨0x11A, 3, 0⟩, (half 0x11A 3 on), by decide +kernel⟩,
   ⟨.host, ⟨0x116, 8, 0⟩, (half 0x116 8 on), by decide +kernel⟩,
   ⟨.host, ⟨0x116, 7, 0⟩, (half 0x116 7 on), by decide +kernel⟩,
   ⟨.host, on, by decide +kernel⟩,
   ⟨.host, 0x801160, 1, on, by decide +kernel⟩⟩
theorem witness_plainRegisterWrites :
    (∃ (m : Master) (w : Word) (s : State), busAlive s = true ∧ halfOf s m = none ∧ Prevails s m 0x101) ∧
    (∃ (m : Master) (w : Word) (s : State), busAlive s = true ∧ halfOf s m = none ∧ Prevails s m 0x102) ∧
    (∃ (m : Master) (w : Word) (s : State), busAlive s = true ∧ halfOf s m = none ∧ Prevails s m 0x11E) ∧
    (∃ (m : Master) (a : Addr) (w : Word) (s : State), busAlive s = true ∧ halfOf s m = none ∧ a.toNat < 0x100) ∧
    (∃ (m : Master) (w : Word) (s : State), busAlive s = true ∧ halfOf s m = none ∧ Prevails s m 0x101) ∧
    (∃ (m : Master) (n : Mbox) (w : Word) (s : State), busAlive s = true ∧ halfOf s m = none ∧ w.getLsbD 0 = true ∧ ((s.mbx n.val).state = .idle ∨ (s.mbx n.val).state = .done)) ∧
    (∃ (m : Master) (n : Mbox) (w : Word) (s : State), busAlive s = true ∧ halfOf s m = none ∧ w.getLsbD 0 = true ∧ ((s.mbx n.val).state = .posted ∨ (s.mbx n.val).state = .executing ∨ (s.mbx n.val).state = .offline)) ∧
    (∃ (m : Master) (n : Mbox) (w : Word) (s : State), busAlive s = true ∧ halfOf s m = none ∧ w.getLsbD 0 = false) ∧
    (∃ (m : Master) (n : Mbox) (w : Word) (s : State), busAlive s = true ∧ halfOf s m = none ∧ w.getLsbD 0 = true ∧ (s.mbx n.val).state = .done) ∧
    (∃ (m : Master) (n : Mbox) (w : Word) (s : State), busAlive s = true ∧ halfOf s m = none ∧ (w.getLsbD 0 = false ∨ (s.mbx n.val).state ≠ .done)) ∧
    (∃ (m : Master) (k : Block) (w : Word) (s : State), busAlive s = true ∧ halfOf s m = none ∧ w.getLsbD 0 = true ∧ (∀ e ∈ (busTurn s m).recent.faults, e.1.block ≠ k.val)) ∧
    (∃ (m : Master) (k : Block) (w : Word) (s : State), busAlive s = true ∧ halfOf s m = none ∧ w.getLsbD 0 = false) ∧
    (∃ (m : Master) (w : Word) (s : State) (r fl lo : Word) (t0 t1 t2 : Nat), busAlive s = true ∧ halfOf s m = none ∧ (s.ringPort m).post0 = some (r, t0) ∧ (s.ringPort m).post1 = some (fl, t1) ∧ (s.ringPort m).post2 = some (lo, t2) ∧ f3 (busTurn s m).clk.time ≤ f3 t0 + 48 ∧ f3 (busTurn s m).clk.time ≤ f3 t1 + 48 ∧ f3 (busTurn s m).clk.time ≤ f3 t2 + 48) ∧
    (∃ (m : Master) (w : Word) (s : State), busAlive s = true ∧ halfOf s m = none ∧ (s.ringPort m).post0 = none) ∧
    (∃ (m : Master) (s : State), busAlive s = true) ∧
    (∃ (m : Master) (n : Nat) (w : Word) (s : State), busAlive s = true ∧ halfOf s m = none ∧ n < 8 ∧ w.toNat = 2 ^ n) :=
  ⟨⟨.host, 7, on, by decide +kernel⟩,
   ⟨.host, 7, on, by decide +kernel⟩,
   ⟨.host, 7, on, by decide +kernel⟩,
   ⟨.host, 0xFF, 9, on, by decide +kernel⟩,
   ⟨.host, 7, on, by decide +kernel⟩,
   ⟨.host, 7, 1, { on with mb := [(7, { state := .done })] }, by decide +kernel⟩,
   ⟨.host, 7, 1, on, by decide +kernel⟩,
   ⟨.host, 7, 2, on, by decide +kernel⟩,
   ⟨.host, 7, 1, { on with mb := [(7, { state := .done })] }, by decide +kernel⟩,
   ⟨.host, 7, 1, on, by decide +kernel⟩,
   ⟨.host, 27, 1, on, by decide +kernel⟩,
   ⟨.host, 27, 2, on, by decide +kernel⟩,
   ⟨.host, 1, { on with harv := { on.harv with hostPort := { post0 := some (1, 0), post1 := some (0, 0), post2 := some (4, 0) } } }, 1, 0, 4, 0, 0, 0, by decide +kernel⟩,
   ⟨.host, 1, on, by decide +kernel⟩,
   ⟨.host, on, by decide +kernel⟩,
   ⟨.host, 7, 128, on, by decide +kernel⟩⟩
theorem witness_pickOrder :
    (∃ (s : State) (n : Nat), nextBox s = some n) ∧
    (∃ (s : State) (n : Nat), firmwareFree s = true ∧ s.fw.traps = [] ∧ nextBox s = some n ∧ s.fw.rev ≠ 2 ∧ firstBad (pickChecks s (copyBox s (Fin.ofNat 8 n)) (s.mbx n)) = none) ∧
    (∃ (s : State) (n : Nat), firmwareFree s = true ∧ s.fw.traps = [] ∧ nextBox s = some n ∧ n < 8 ∧ s.fw.rev = 0 ∧ s.clk.phase = .ready ∧ (s.mbx n).opcode.toNat = 2) ∧
    (∃ (s : State), s.fw.current ≠ none) ∧
    (∃ (s : State), firmwareFree s = false) ∧
    (∃ (s : State), firmwareFree s = true ∧ postedBoxes s = [] ∧ s.fw.logNext < 2 ^ 32) :=
  ⟨⟨(posted 2 3), 3, by decide +kernel⟩,
   ⟨(posted 2 3), 3, by decide +kernel⟩,
   ⟨(posted 2 0), 3, by decide +kernel⟩,
   ⟨(cmd 2 []), by decide +kernel⟩,
   ⟨(cmd 2 []), by decide +kernel⟩,
   ⟨on, by decide +kernel⟩⟩
theorem witness_revisionTwoRefused :
    (∃ (s : State) (n : Nat), firmwareFree s = true ∧ s.fw.traps = [] ∧ nextBox s = some n ∧ s.fw.rev = 2 ∧ 2 ≤ (s.mbx n).opcode.toNat) ∧
    (∃ (i : Instr) (s : State) (r : Refusal), exec i s = .refused r) :=
  ⟨⟨(posted 2 2), 3, by decide +kernel⟩,
   ⟨.firmwarePick, (posted 2 2), .revisionOutsideManual 2, by rfl⟩⟩
theorem witness_systemQueries :
    (∃ (s : State) (c : Current), Picked s 0x0000 c ∧ par c 0 ≤ 3 ∧ 3 ≤ par c 1) ∧
    (∃ (s : State) (c : Current), Picked s 0x0000 c ∧ par c 0 ≤ 2 ∧ par c 1 = 2 ∧ s.clk.phase ≠ .recovery) ∧
    (∃ (s : State) (c : Current), Picked s 0x0000 c ∧ par c 0 ≤ par c 1 ∧ (3 < par c 0 ∨ par c 1 < 2)) ∧
    (∃ (s : State) (c : Current), Picked s 0x0000 c ∧ par c 1 < par c 0) ∧
    (∃ (s : State) (c : Current), Picked s 0x0001 c ∧ s.clk.phase ≠ .recovery) ∧
    (∃ (s : State) (c : Current), Picked s 0x0001 c ∧ s.clk.phase = .recovery) ∧
    (∃ (s : State) (c : Current), Picked s 0x0002 c) ∧
    (∃ (s : State) (c : Current), Picked s 0x0003 c ∧ (s.prog (par c 0)).state ≠ .none) ∧
    (∃ (s : State) (c : Current), Picked s 0x0003 c ∧ (s.prog (par c 0)).state = .none) ∧
    (∃ (s : State) (c : Current), Picked s 0x000C c ∧ par c 0 = 0) ∧
    (∃ (s : State) (c : Current), Picked s 0x000C c ∧ 3 ≤ par c 0) ∧
    (∃ (first count oldest per : Nat) (l : List (List Word)), 0 < per ∧ (∀ e ∈ l, e.length = per)) :=
  ⟨⟨(cmd 0 [3, 3]), cur 0 [3, 3], by decide +kernel⟩,
   ⟨(cmd 0 [2, 2]), cur 0 [2, 2], by decide +kernel⟩,
   ⟨(cmd 0 [4, 4]), cur 0 [4, 4], by decide +kernel⟩,
   ⟨(cmd 0 [3, 2]), cur 0 [3, 2], by decide +kernel⟩,
   ⟨(cmd 1 []), cur 1 [], by decide +kernel⟩,
   ⟨(cmd 1 [] ({ on with clk := { on.clk with phase := .recovery } })), cur 1 [], by decide +kernel⟩,
   ⟨(cmd 2 []), cur 2 [], by decide +kernel⟩,
   ⟨(cmd 3 [5] ({ on with fw := { on.fw with progress := [(5, { state := .running })] } })), cur 3 [5], by decide +kernel⟩,
   ⟨(cmd 3 [5]), cur 3 [5], by decide +kernel⟩,
   ⟨(cmd 12 [0]), cur 12 [0], by decide +kernel⟩,
   ⟨(cmd 12 [3]), cur 12 [3], by decide +kernel⟩,
   ⟨0, 1, 0, 1, [[7]], by decide +kernel⟩⟩
theorem witness_systemActions :
    (∃ (s : State) (c : Current), Picked s 0x0004 c ∧ (s.prog (par c 0)).state = .none) ∧
    (∃ (s : State) (c : Current), Picked s 0x0004 c ∧ ((s.prog (par c 0)).state = .done ∨ (s.prog (par c 0)).state = .part)) ∧
    (∃ (s : State) (c : Current), Picked s 0x0004 c ∧ (s.prog (par c 0)).state = .running ∧ tagWorks (waitFor (stopTagged s (par c 0)) (.abort (par c 0))) (par c 0) = true) ∧
    (∃ (s : State) (c : Current), Picked s 0x0004 c ∧ (s.prog (par c 0)).state = .running ∧ tagWorks (waitFor (stopTagged s (par c 0)) (.abort (par c 0))) (par c 0) = false) ∧
    (∃ (s : State) (c : Current) (q : Nat), Picked s 0x0004 c ∧ (s.prog (par c 0)).state = .running ∧ taggedSeqs s (par c 0) = [q] ∧ taggedLoops s (par c 0) = [] ∧ taggedMeas s (par c 0) = [] ∧ taggedLocks s (par c 0) = [] ∧ taggedUnits s (par c 0) = [] ∧ s.cal.run = none ∧ s.cal.commit = none ∧ s.pat.loads = [] ∧ s.lp.waveLoads = [] ∧ s.fw.session = none ∧ (s.seq q).mode = .exec ∧ (s.seq q).tag = par c 0 ∧ (s.seq q).stop = none) ∧
    (∃ (s : State) (c : Current), Picked s 0x0004 c ∧ (s.prog (par c 0)).state = .running ∧ taggedSeqs s (par c 0) = [] ∧ taggedLoops s (par c 0) = [] ∧ taggedMeas s (par c 0) = [] ∧ taggedLocks s (par c 0) = [] ∧ taggedUnits s (par c 0) = [] ∧ s.cal.run = none ∧ s.cal.commit = none ∧ s.pat.loads = [] ∧ s.lp.waveLoads = [] ∧ s.fw.session = none) ∧
    (∃ (s : State) (c : Current), Picked s 0x0005 c ∧ par c 1 = 0) ∧
    (∃ (s : State) (c : Current), Picked s 0x0005 c ∧ par c 0 = 0 ∧ (par c 1 = 1 ∨ par c 1 = 3)) ∧
    (∃ (s : State) (c : Current), Picked s 0x0005 c ∧ (par c 1).testBit 0 = true ∧ par c 0 ≠ 0) ∧
    (∃ (s : State) (c : Current), Picked s 0x0005 c ∧ (par c 1 = 2 ∨ 4 ≤ par c 1) ∧ par c 0 = 0) ∧
    (∃ (s : State) (c : Current) (beds : List Nat), Picked s 0x0006 c ∧ ((par c 1 = 0 ∧ beds = bedMask (par c 0)) ∨ ((par c 1 = 1 ∨ par c 1 = 3) ∧ par c 0 = 0 ∧ beds = List.range 16))) ∧
    (∃ (s : State) (c : Current) (b : Nat), Picked s 0x0006 c ∧ par c 1 = 0 ∧ b < 16 ∧ (par c 0).testBit b = true ∧ s.flt.chip = [] ∧ s.flt.chain = [] ∧ (∀ x ∈ (s.bedc b).causes, causeLive s x = false)) ∧
    (∃ (s : State) (c : Current) (b : Nat) (x : Cause), Picked s 0x0006 c ∧ par c 1 = 0 ∧ b < 16 ∧ (par c 0).testBit b = true ∧ x ∈ (s.bedc b).causes ∧ causeLive s x = true) ∧
    (∃ (s : State) (c : Current), Picked s 0x0008 c ∧ 28 ≤ par c 0) ∧
    (∃ (s : State) (c : Current), Picked s 0x0008 c ∧ (par c 0 = 0x12 ∨ par c 0 = 0x16)) ∧
    (∃ (s : State) (c : Current), Picked s 0x0008 c ∧ par c 0 = 0x17) ∧
    (∃ (s : State) (c : Current), Picked s 0x0008 c ∧ par c 0 < 28 ∧ par c 0 ≠ 0x12 ∧ par c 0 ≠ 0x16 ∧ par c 0 ≠ 0x17 ∧ s.clk.restarting = false ∧ deeper s = false ∧ s.blkReset (par c 0) = false) :=
  ⟨⟨(cmd 4 [5]), cur 4 [5], by decide +kernel⟩,
   ⟨(cmd 4 [5] ({ on with fw := { on.fw with progress := [(5, { state := .done })] } })), cur 4 [5], by decide +kernel⟩,
   ⟨(cmd 4 [5] { ({ on with fw := { on.fw with progress := [(5, { state := .running })] } }) with cal := { on.cal with run := some aCalRun } }), cur 4 [5], by decide +kernel⟩,
   ⟨(cmd 4 [5] ({ on with fw := { on.fw with progress := [(5, { state := .running })] } })), cur 4 [5], by decide +kernel⟩,
   ⟨(cmd 4 [5] { ({ on with fw := { on.fw with progress := [(5, { state := .running })] } }) with pat := { on.pat with seq := [(0, { mode := .exec, tag := 5 })] } }), cur 4 [5], 0, by decide +kernel⟩,
   ⟨(cmd 4 [5] ({ on with fw := { on.fw with progress := [(5, { state := .running })] } })), cur 4 [5], by decide +kernel⟩,
   ⟨(cmd 5 [65535, 0]), cur 5 [65535, 0], by decide +kernel⟩,
   ⟨(cmd 5 [0, 1]), cur 5 [0, 1], by decide +kernel⟩,
   ⟨(cmd 5 [1, 1]), cur 5 [1, 1], by decide +kernel⟩,
   ⟨(cmd 5 [0, 2]), cur 5 [0, 2], by decide +kernel⟩,
   ⟨(cmd 6 [0, 3]), cur 6 [0, 3], List.range 16, by decide +kernel⟩,
   ⟨(cmd 6 [0x8000, 0] { on with flt := { on.flt with bed := [(15, { active := true, causes := [.dead] })] } }), cur 6 [0x8000, 0], 15, by decide +kernel⟩,
   ⟨(cmd 6 [4, 0] { on with flt := { on.flt with bed := [(2, { active := true, causes := [.fault 2 5] })], block := [(2, { live := 32 })] } }), cur 6 [4, 0], 2, .fault 2 5, by decide +kernel⟩,
   ⟨(cmd 8 [28]), cur 8 [28], by decide +kernel⟩,
   ⟨(cmd 8 [18]), cur 8 [18], by decide +kernel⟩,
   ⟨(cmd 8 [0x17]), cur 8 [0x17], by decide +kernel⟩,
   ⟨(cmd 8 [27]), cur 8 [27], by decide +kernel⟩⟩
theorem witness_powerStateCommands :
    (∃ (s : State) (c : Current), Picked s 0x0007 c ∧ par c 0 = 0 ∧ par c 2 = 0 ∧ (∀ b, b < 16 → (par c 1).testBit b = true → bedWorks s b = false)) ∧
    (∃ (s : State) (c : Current), Picked s 0x0007 c ∧ par c 0 = 0 ∧ par c 2 ≠ 0) ∧
    (∃ (s : State) (c : Current) (b : Nat), Picked s 0x0007 c ∧ par c 0 = 0 ∧ par c 2 = 0 ∧ b < 16 ∧ (par c 1).testBit b = true ∧ bedWorks s b = true) ∧
    (∃ (s : State) (c : Current), Picked s 0x0007 c ∧ par c 0 = 1 ∧ par c 2 < 2 ∧ (∀ b, b < 16 → (par c 1).testBit b = true → bedWorks s b = false) ∧ (par c 2 = 1 → stemWorks s = false)) ∧
    (∃ (s : State) (c : Current), Picked s 0x0007 c ∧ par c 0 = 2 ∧ par c 2 = 0 ∧ (∀ b, b < 16 → (par c 1).testBit b = true → bedWorks s b = false)) ∧
    (∃ (s : State) (c : Current), Picked s 0x0007 c ∧ par c 0 = 3 ∧ par c 2 &&& 14 = par c 2) ∧
    (∃ (n : Mbox) (s : State) (d : Nat), (s.mbx n.val).delayEnd = some d) ∧
    (∃ (n : Mbox) (s : State), (s.mbx n.val).delayEnd = none) :=
  ⟨⟨(cmd 7 [0, 1, 0]), cur 7 [0, 1, 0], by decide +kernel⟩,
   ⟨(cmd 7 [0, 1, 1]), cur 7 [0, 1, 1], by decide +kernel⟩,
   ⟨(cmd 7 [0, 1, 0] ({ on with pat := { on.pat with seq := [(0, { mode := .exec, lanes := [0] })] } })), cur 7 [0, 1, 0], 0, by decide +kernel⟩,
   ⟨(cmd 7 [1, 1, 1]), cur 7 [1, 1, 1], by decide +kernel⟩,
   ⟨(cmd 7 [2, 1, 0]), cur 7 [2, 1, 0], by decide +kernel⟩,
   ⟨(cmd 7 [3, 0, 14]), cur 7 [3, 0, 14], by decide +kernel⟩,
   ⟨7, { on with mb := [(7, { delayEnd := some 9 })] }, 9, by decide +kernel⟩,
   ⟨7, on, by decide +kernel⟩⟩
theorem witness_firmwareUpdate :
    (∃ (s : State) (c : Current), Picked s 0x0009 c ∧ s.clk.phase ≠ .recovery ∧ par c 0 < 2 ∧ par32 c 1 % 256 = 0 ∧ 0x1100 ≤ par32 c 1 ∧ par32 c 1 ≤ 0x7FF000 ∧ (s.prog c.tag.toNat).state ≠ .running ∧ s.fw.session = none ∧ s.clk.imageSlot = decide (par c 0 ≠ 1) ∧ slotTrial s s.clk.imageSlot = false) ∧
    (∃ (s : State) (c : Current), Picked s 0x0009 c ∧ par c 0 < 2 ∧ (par32 c 1 % 256 ≠ 0 ∨ par32 c 1 < 0x1100 ∨ 0x7FF000 < par32 c 1)) ∧
    (∃ (s : State) (x : Session), s.fw.session = some x ∧ x.erased = false) ∧
    (∃ (s : State), (s.fw.session = none ∨ (∃ x, s.fw.session = some x ∧ x.erased = true))) ∧
    (∃ (s : State) (c : Current) (x : Session), Picked s 0x000A c ∧ s.fw.session = some x ∧ par32 c 0 ≠ x.received) ∧
    (∃ (s : State) (c : Current) (x : Session), Picked s 0x000A c ∧ s.fw.session = some x ∧ par32 c 0 = x.received ∧ 2 ≤ par c 2 ∧ par c 2 ≤ 224 ∧ par c 2 % 2 = 0 ∧ x.received + par c 2 ≤ x.imageBytes ∧ x.erased = true) ∧
    (∃ (s : State) (c : Current), Picked s 0x000B c ∧ par c 0 = 1 ∧ par c 1 = 0 ∧ s.clk.phase ≠ .recovery ∧ (s.bus.fwCommit.toNat = 1 + (if s.clk.imageSlot then 2 else 0)) ∧ slotTrial s s.clk.imageSlot = true) ∧
    (∃ (s : State) (c : Current), Picked s 0x000B c ∧ par c 0 = 1 ∧ par c 1 = 0 ∧ s.clk.phase = .recovery) ∧
    (∃ (s : State) (a : Nat) (l : List Byte) (r : List FlashOp), s.ser.flashOps = .program a l :: r ∧ r ≠ []) ∧
    (∃ (s : State) (c : Current) (x : Session) (op : FlashOp), s.ser.flashOps = [op] ∧ s.ser.xipWait = none ∧ s.fw.session = some x ∧ s.fw.current = some c ∧ c.wait = .flashOp ∧ c.opcode = 0x000A) ∧
    (∃ (s u : State) (c : Current) (x : Session) (op : FlashOp), s.ser.flashOps = [op] ∧ s.ser.xipWait = none ∧ s.fw.session = some x ∧ s.fw.current = some c ∧ c.wait = .flashOp ∧ c.opcode = 0x000B ∧ par c 0 = 0 ∧ u = flashEffect { s with ser := { s.ser with flashOps := [] } } op ∧ slotTrial u x.slotB = true ∧ slotGeneration u x.slotB = commitGeneration u x.slotB) ∧
    (∃ (s u : State) (c : Current) (op : FlashOp), s.ser.flashOps = [op] ∧ s.ser.xipWait = none ∧ s.fw.current = some c ∧ c.wait = .flashOp ∧ c.opcode = 0x000B ∧ par c 0 = 1 ∧ u = flashEffect { s with ser := { s.ser with flashOps := [] } } op) ∧
    (∃ (s : State) (op : FlashOp) (r : List FlashOp), s.ser.flashOps = op :: r) :=
  ⟨⟨(cmd 9 [0, 4352, 0] ({ on with clk := { on.clk with imageSlot := true } })), cur 9 [0, 4352, 0], by decide +kernel⟩,
   ⟨(cmd 9 [0, 4096, 0]), cur 9 [0, 4096, 0], by decide +kernel⟩,
   ⟨({ on with fw := { on.fw with session := some aSession } }), aSession, by decide +kernel⟩,
   ⟨on, Or.inl rfl⟩,
   ⟨(cmd 10 [1, 0] ({ on with fw := { on.fw with session := some aSession } })), cur 10 [1, 0], aSession, by decide +kernel⟩,
   ⟨(cmd 10 [0, 0, 224] ({ on with fw := { on.fw with session := some { aSession with erased := true } } })), cur 10 [0, 0, 224], { aSession with erased := true }, by decide +kernel⟩,
   ⟨(cmd 11 [1, 0] { on with bus := { on.bus with fwCommit := 1 }, ser := { on.ser with flash := [(0x7FF006, 0xAA), (0x7FF007, 0xAA)] } }), cur 11 [1, 0], by decide +kernel⟩,
   ⟨(cmd 11 [1, 0] ({ on with clk := { on.clk with phase := .recovery } })), cur 11 [1, 0], by decide +kernel⟩,
   ⟨{ on with ser := { on.ser with flashOps := [.program 0 [], .erase 0] } }, 0, [], [.erase 0], by decide +kernel⟩,
   ⟨{ on with ser := { on.ser with flashOps := [.program 0 [1]] }, fw := { on.fw with session := some aSession, current := some { cur 0x000A [] with wait := .flashOp } } }, { cur 0x000A [] with wait := .flashOp }, aSession, .program 0 [1], by decide +kernel⟩,
   ⟨{ on with ser := { on.ser with flashOps := [.program 0x7FF000 [1, 0, 0, 0, 0, 0, 0xAA, 0xAA]] }, fw := { on.fw with session := some { aSession with slotB := false }, current := some ({ cur 0x000B [0, 0] with wait := .flashOp }) } }, _, { cur 0x000B [0, 0] with wait := .flashOp }, { aSession with slotB := false }, .program 0x7FF000 [1, 0, 0, 0, 0, 0, 0xAA, 0xAA], by refine ⟨rfl, rfl, rfl, rfl, rfl, rfl, by decide, rfl, by decide +kernel, by decide +kernel⟩⟩,
   ⟨{ on with ser := { on.ser with flashOps := [.program 0x7FF000 [1, 0, 0, 0, 0, 0, 0xAA, 0xAA]] }, fw := { on.fw with session := some { aSession with slotB := false }, current := some ({ cur 0x000B [1, 0] with wait := .flashOp }) } }, _, { cur 0x000B [1, 0] with wait := .flashOp }, .program 0x7FF000 [1, 0, 0, 0, 0, 0, 0xAA, 0xAA], by refine ⟨rfl, rfl, rfl, rfl, rfl, by decide, rfl⟩⟩,
   ⟨{ on with ser := { on.ser with flashOps := [.erase 0] } }, .erase 0, [], by decide +kernel⟩⟩
theorem witness_levelLoads :
    (∃ (s : State) (c : Current) (targets : List (Nat × Nat)), Picked s 0x0101 c ∧ 1 ≤ par c 1 ∧ par c 0 + par c 1 ≤ 512 ∧ 0 < par c 2 ∧ par c 2 < 128 ∧ par c 3 = 0 ∧ par c 4 = 0 ∧ (∀ k, 5 ≤ k → k < 9 → par c k = 0) ∧ (∀ j, j < 7 → (par c 2).testBit j = true → dacInRange (if j < 4 then j else 2048 + (j - 4)) (parF c (9 + 2 * j)) = true) ∧ targets = levelTargets (pinRange c) (par c 2) ∧ (levelsLegal (par c 2) (pinRange c) (fun k => levelAfter s c (loadedBy (loadOf s c k)) k) = true) ∧ (levelsLegal (par c 2) (pinRange c) (levelAfter s c (fun _ => true)) = true)) ∧
    (∃ (s : State) (c : Current) (targets : List (Nat × Nat)), Picked s 0x0101 c ∧ 1 ≤ par c 1 ∧ par c 0 + par c 1 ≤ 512 ∧ 0 < par c 2 ∧ par c 2 < 128 ∧ par c 3 = 1 ∧ par c 4 < 8 ∧ (∀ k, 5 ≤ k → k < 9 → par c k = 0) ∧ (∀ j, j < 7 → (par c 2).testBit j = true → dacInRange (if j < 4 then j else 2048 + (j - 4)) (parF c (9 + 2 * j)) = true) ∧ targets = levelTargets (pinRange c) (par c 2) ∧ (levelsLegal (par c 2) (pinRange c) (fun k => levelAfter s c (loadedBy (loadOf s c k)) k) = true) ∧ (levelsLegal (par c 2) (pinRange c) (levelAfter s c (fun _ => true)) = true) ∧ (s.grp (par c 4)).mask ≠ 0 ∧ (∀ e ∈ targets, (s.grp (par c 4)).mask.getLsbD (dacBed e.1) = true)) ∧
    (∃ (s : State) (c : Current) (targets : List (Nat × Nat)), Picked s 0x0101 c ∧ 1 ≤ par c 1 ∧ par c 0 + par c 1 ≤ 512 ∧ 0 < par c 2 ∧ par c 2 < 128 ∧ par c 3 = 2 ∧ par c 4 = 0 ∧ c.pick + 32000 ≤ par64 c 5 ∧ (∀ j, j < 7 → (par c 2).testBit j = true → dacInRange (if j < 4 then j else 2048 + (j - 4)) (parF c (9 + 2 * j)) = true) ∧ targets = levelTargets (pinRange c) (par c 2) ∧ (levelsLegal (par c 2) (pinRange c) (fun k => levelAfter s c (loadedBy (loadOf s c k)) k) = true) ∧ (levelsLegal (par c 2) (pinRange c) (levelAfter s c (fun _ => true)) = true) ∧ ((pendingTimes s (targets.map (fun e => e.1))).length < 16)) ∧
    (∃ (s : State) (c : Current), Picked s 0x0101 c ∧ 1 ≤ par c 1 ∧ par c 0 + par c 1 ≤ 512 ∧ 0 < par c 2 ∧ par c 2 < 128 ∧ par c 3 = 0 ∧ par c 4 = 0 ∧ (∀ k, 5 ≤ k → k < 9 → par c k = 0) ∧ (∀ j, j < 7 → (par c 2).testBit j = true → dacInRange (if j < 4 then j else 2048 + (j - 4)) (parF c (9 + 2 * j)) = true) ∧ par c 2 % 16 = 12 ∧ ((f32 (parF c 13)).lt (f32 (parF c 15)) = true)) ∧
    (∃ (s : State) (c : Current), Picked s 0x0102 c ∧ par c 0 = 0 ∧ par c 1 < 8 ∧ (∀ k, 3 ≤ k → k < 7 → par c k = 0) ∧ (∀ e ∈ s.pins.dac, ∀ v, e.2.shadow = some (v, .group (par c 1)) → (par c 2).testBit (dacBed e.1) = true)) ∧
    (∃ (s : State) (c : Current), Picked s 0x0102 c ∧ par c 0 = 1 ∧ par c 1 < 8 ∧ (∀ k, 2 ≤ k → k < 7 → par c k = 0)) ∧
    (∃ (s : State) (c : Current), Picked s 0x0102 c ∧ par c 0 = 2 ∧ par c 1 < 8 ∧ par c 2 = 0 ∧ c.pick + 32000 ≤ par64 c 3 ∧ ((pendingTimes (s.modGrp (par c 1) (fun x => { x with strobe := none })) []).length < 16)) ∧
    (∃ (s : State) (c : Current), Picked s 0x0102 c ∧ par c 0 = 2 ∧ par c 1 < 8 ∧ par c 2 = 0 ∧ par64 c 3 < c.pick + 32000) ∧
    (∃ (s : State) (c : Current), Picked s 0x0102 c ∧ par c 0 = 3 ∧ par c 1 < 8 ∧ (∀ k, 2 ≤ k → k < 7 → par c k = 0)) ∧
    (∃ (g : Fin 8) (s : State) (d : Nat), (s.grp g.val).strobe = some d) ∧
    (∃ (g : Fin 8) (s : State), (s.grp g.val).strobe = none) ∧
    (∃ (s : State) (g k v : Nat), twf dacDefault s.pins.dac = true ∧ (s.dacst k).shadow = some (v, .group g) ∧ (s.grp g).mask.getLsbD (dacBed k) = true) ∧
    (∃ (s : State) (g k : Nat), twf dacDefault s.pins.dac = true ∧ (∀ v, (s.dacst k).shadow = some (v, .group g) → (s.grp g).mask.getLsbD (dacBed k) = false)) ∧
    (∃ (a : Nat) (s : State), (∀ e ∈ s.pins.dac, ∀ v, e.2.shadow ≠ some (v, .epoch a))) ∧
    (∃ (a k v : Nat) (s : State), twf dacDefault s.pins.dac = true ∧ (s.dacst k).shadow = some (v, .epoch a)) :=
  ⟨⟨(cmd 257 [511, 1, 1, 0, 0, 0, 0, 0, 0, 0, 0]), cur 257 [511, 1, 1, 0, 0, 0, 0, 0, 0, 0, 0], (levelTargets (pinRange (cur 257 [511, 1, 1, 0, 0, 0, 0, 0, 0, 0, 0])) 1), by decide +kernel⟩,
   ⟨(cmd 257 [511, 1, 1, 1, 2, 0, 0, 0, 0, 0, 0] ({ on with pins := { on.pins with group := [(2, { mask := 0xFFFF, strobe := some 9 })] } })), cur 257 [511, 1, 1, 1, 2, 0, 0, 0, 0, 0, 0], (levelTargets (pinRange (cur 257 [511, 1, 1, 1, 2, 0, 0, 0, 0, 0, 0])) 1), by decide +kernel⟩,
   ⟨(cmd 257 [511, 1, 1, 2, 0, 32000, 0, 0, 0, 0, 0]), cur 257 [511, 1, 1, 2, 0, 32000, 0, 0, 0, 0, 0], (levelTargets (pinRange (cur 257 [511, 1, 1, 2, 0, 32000, 0, 0, 0, 0, 0])) 1), by decide +kernel⟩,
   ⟨(cmd 257 [511, 1, 12, 0, 0, 0, 0, 0, 0, 0, 0, 0, 0, 0, 0, 0, 16256]), cur 257 [511, 1, 12, 0, 0, 0, 0, 0, 0, 0, 0, 0, 0, 0, 0, 0, 16256], by decide +kernel⟩,
   ⟨(cmd 258 [0, 7, 65535, 0, 0, 0, 0]), cur 258 [0, 7, 65535, 0, 0, 0, 0], by repeat' (first | decide +kernel | rfl | apply And.intro | (intro x h; exact (List.not_mem_nil h).elim))⟩,
   ⟨(cmd 258 [1, 7, 0, 0, 0, 0, 0]), cur 258 [1, 7, 0, 0, 0, 0, 0], by decide +kernel⟩,
   ⟨(cmd 258 [2, 7, 0, 32000, 0, 0, 0]), cur 258 [2, 7, 0, 32000, 0, 0, 0], by decide +kernel⟩,
   ⟨(cmd 258 [2, 7, 0, 31999, 0, 0, 0]), cur 258 [2, 7, 0, 31999, 0, 0, 0], by decide +kernel⟩,
   ⟨(cmd 258 [3, 7, 0, 0, 0, 0, 0]), cur 258 [3, 7, 0, 0, 0, 0, 0], by decide +kernel⟩,
   ⟨2, { on with pins := { on.pins with group := [(2, { mask := 0xFFFF, strobe := some 9 })] } }, 9, by decide +kernel⟩,
   ⟨7, on, by decide +kernel⟩,
   ⟨{ on with pins := { on.pins with dac := [(3, { work := 16384, shadow := some (5, .group 2), cloche := 16384 })], group := [(2, { mask := 0xFFFF })] } }, 2, 3, 5, by decide +kernel⟩,
   ⟨on, 2, 3, by decide +kernel, fun v h => nomatch (show (none : Option (Nat × LoadAt)) = some (v, .group 2) from h)⟩,
   ⟨9, on, by repeat' (first | decide +kernel | rfl | apply And.intro | (intro x h; exact (List.not_mem_nil h).elim))⟩,
   ⟨9, 3, 5, { on with pins := { on.pins with dac := [(3, { work := 16384, shadow := some (5, .epoch 9), cloche := 16384 })], group := [(2, { mask := 0xFFFF })] } }, by decide +kernel⟩⟩
theorem witness_pinModesAndConnections :
    (∃ (s : State) (c : Current) (old new : List Nat), Picked s 0x0100 c ∧ par c 0 < 64 ∧ (par c 1 = 0 ∧ old = [] ∨ par c 1 = (s.seq (par c 0)).lanes.length ∧ par c 1 ≠ 0 ∧ old = (s.seq (par c 0)).lanes) ∧ par c 2 ≤ 117 ∧ (new = (List.range (par c 2)).map (fun i => par c (3 + i))) ∧ new.Nodup ∧ (∀ p ∈ new, p < 512 ∧ p ∉ old ∧ (∀ q n, pinSite s p = some (q, n) → q = par c 0)) ∧ (s.seq (par c 0)).mode = .idle) ∧
    (∃ (s : State) (c : Current) (old new : List Nat), Picked s 0x0100 c ∧ par c 0 < 64 ∧ (par c 1 = 0 ∧ old = [] ∨ par c 1 = (s.seq (par c 0)).lanes.length ∧ par c 1 ≠ 0 ∧ old = (s.seq (par c 0)).lanes) ∧ par c 2 ≤ 117 ∧ (new = (List.range (par c 2)).map (fun i => par c (3 + i))) ∧ new.Nodup ∧ (∀ p ∈ new, p < 512 ∧ p ∉ old ∧ (∀ q n, pinSite s p = some (q, n) → q = par c 0)) ∧ (s.seq (par c 0)).mode ≠ .idle) ∧
    (∃ (s : State) (c : Current), Picked s 0x0103 c ∧ 1 ≤ par c 1 ∧ par c 0 + par c 1 ≤ 512 ∧ par c 2 % 8 ≤ 4 ∧ par c 2 &&& 0xEC88 = 0 ∧ (∀ p ∈ pinRange c, pinBusy s p = false) ∧ (∀ p ∈ pinRange c, ((s.pinst p).mode = 4 ↔ par c 2 % 8 = 4) ∨ (s.pinst p).conn = 0 ∨ (s.pinst p).conn = 2 ∨ (s.pinst p).conn = 6)) ∧
    (∃ (s : State) (c : Current), Picked s 0x0103 c ∧ 1 ≤ par c 1 ∧ par c 0 + par c 1 ≤ 512 ∧ par c 2 % 8 ≤ 4 ∧ par c 2 &&& 0xEC88 = 0 ∧ (∃ p ∈ pinRange c, pinBusy s p = true)) ∧
    (∃ (s : State) (c : Current), Picked s 0x0103 c ∧ 1 ≤ par c 1 ∧ par c 0 + par c 1 ≤ 512 ∧ par c 2 % 8 ≤ 4 ∧ par c 2 &&& 0xEC88 = 0 ∧ (∀ p ∈ pinRange c, pinBusy s p = false) ∧ (∃ p ∈ pinRange c, ¬((s.pinst p).mode = 4 ↔ par c 2 % 8 = 4) ∧ (s.pinst p).conn ≠ 0 ∧ (s.pinst p).conn ≠ 2 ∧ (s.pinst p).conn ≠ 6)) ∧
    (∃ (s : State) (c : Current) (after : Nat → Nat), Picked s 0x0104 c ∧ 1 ≤ par c 1 ∧ par c 0 + par c 1 ≤ 512 ∧ par c 2 ≤ 6 ∧ (after = (fun p => if (pinRange c).contains p then par c 2 else (s.pinst p).conn)) ∧ ((par c 2 = 4 ∨ par c 2 = 5) → ∀ b ∈ bedsOfPins (pinRange c), (s.loop (512 + 2 * b + (par c 2 - 4))).stage = 0 ∧ padsWith after b (par c 2) ≤ 4) ∧ (par c 2 = 6 → ∀ b ∈ bedsOfPins (pinRange c), padsWith after b 6 ≤ 2) ∧ (∀ p ∈ pinRange c, pinBusy s p = false ∧ (bedHeld s (p / 32) = true → par c 2 = 0) ∧ ((s.pinst p).conn = par c 2 ∨ bedHeld s (p / 32) = true ∨ ∀ l ∈ (padLoop p (s.pinst p).conn).toList ++ (padLoop p (par c 2)).toList, (s.loop l).state = .stopped))) ∧
    (∃ (s : State) (c : Current), Picked s 0x0104 c ∧ 1 ≤ par c 1 ∧ par c 0 + par c 1 ≤ 512 ∧ (7 ≤ par c 2 ∨ (par c 2 = 4 ∨ par c 2 = 5) ∧ ∃ b ∈ bedsOfPins (pinRange c), (s.loop (512 + 2 * b + (par c 2 - 4))).stage ≠ 0)) ∧
    (∃ (s : State), (twf (fun _ => ({} : PinState)) s.pins.pin = true)) ∧
    (∃ (s : State), (twf (fun _ => ({} : PinState)) s.pins.pin = true)) :=
  ⟨⟨(cmd 256 [63, 0, 1, 511]), cur 256 [63, 0, 1, 511], [], [511], by refine ⟨by decide, by decide, Or.inl ⟨by decide, rfl⟩, by decide, rfl, by decide, ?_, by decide⟩; intro p hp; obtain rfl : p = 511 := List.mem_singleton.1 hp; exact ⟨by decide, List.not_mem_nil, fun q n h => nomatch (show (none : Option (Nat × Nat)) = some (q, n) from h)⟩⟩,
   ⟨(cmd 256 [63, 0, 1, 511] ({ on with pat := { on.pat with seq := [(63, { mode := .exec, lanes := [511] })] } })), cur 256 [63, 0, 1, 511], [], [511], by refine ⟨by decide, by decide, Or.inl ⟨by decide, rfl⟩, by decide, rfl, by decide, ?_, by decide⟩; intro p hp; obtain rfl : p = 511 := List.mem_singleton.1 hp; exact ⟨by decide, List.not_mem_nil, fun q n h => by cases (show some ((63 : Nat), (0 : Nat)) = some (q, n) from h); rfl⟩⟩,
   ⟨(cmd 259 [511, 1, 4]), cur 259 [511, 1, 4], by decide +kernel⟩,
   ⟨(cmd 259 [0, 1, 4] ({ on with pat := { on.pat with seq := [(0, { mode := .exec, lanes := [0] })] } })), cur 259 [0, 1, 4], by decide +kernel⟩,
   ⟨(cmd 259 [511, 1, 4] ({ on with pins := { on.pins with pin := [(511, { conn := 1 })] } })), cur 259 [511, 1, 4], by decide +kernel⟩,
   ⟨(cmd 260 [511, 1, 5]), cur 260 [511, 1, 5], _, by refine ⟨by decide +kernel, by decide, by decide, by decide, rfl, by decide +kernel, by decide, by decide +kernel⟩⟩,
   ⟨(cmd 260 [511, 1, 5] (lp 543 { stage := 1 })), cur 260 [511, 1, 5], by decide +kernel⟩,
   ⟨on, by decide +kernel⟩,
   ⟨on, by decide +kernel⟩⟩
theorem witness_timingSets :
    (∃ (s : State) (c : Current) (b r : Nat), Picked s 0x0200 c ∧ (par c 2).testBit 1 = false ∧ bedMask (par c 0) = [b] ∧ par c 1 < 64 ∧ par c 2 &&& 0xFC = 0 ∧ ((par c 2).testBit 0 = true ∨ (par c 3 = 0 ∧ par c 4 = 0)) ∧ (∀ j, j < (tsGroups c).length → par c (5 + 19 * j) < 4 ∧ ∀ e, e < 6 → par c (8 + 19 * j + 3 * e) < 8) ∧ tsetReason (tsWritten c (s.tsetAt (64 * b + par c 1))) = some r) ∧
    (∃ (s : State) (c : Current), Picked s 0x0200 c ∧ (par c 2).testBit 1 = false ∧ par c 0 ≠ 0 ∧ par c 1 < 64 ∧ par c 2 &&& 0xFC = 0 ∧ ((par c 2).testBit 0 = true ∨ (par c 3 = 0 ∧ par c 4 = 0)) ∧ (∀ j, j < (tsGroups c).length → par c (5 + 19 * j) < 4 ∧ ∀ e, e < 6 → par c (8 + 19 * j + 3 * e) < 8) ∧ (∀ b ∈ bedMask (par c 0), tsetReason (tsWritten c (s.tsetAt (64 * b + par c 1))) = none) ∧ s.clk.refPresent = true ∧ s.clk.holdover = false ∧ (∀ b ∈ bedMask (par c 0), bedBusy s b = false ∧ calHoldsTiming s b = false ∧ bedActive s b = true)) ∧
    (∃ (s : State) (c : Current), Picked s 0x0200 c ∧ (par c 2).testBit 1 = false ∧ par c 0 ≠ 0 ∧ par c 1 < 64 ∧ par c 2 &&& 0xFC = 0 ∧ ((par c 2).testBit 0 = true ∨ (par c 3 = 0 ∧ par c 4 = 0)) ∧ (∀ j, j < (tsGroups c).length → par c (5 + 19 * j) < 4 ∧ ∀ e, e < 6 → par c (8 + 19 * j + 3 * e) < 8) ∧ (∀ b ∈ bedMask (par c 0), tsetReason (tsWritten c (s.tsetAt (64 * b + par c 1))) = none) ∧ (s.clk.refPresent = false ∨ s.clk.holdover = true)) ∧
    (∃ (s : State) (c : Current) (b : Nat), Picked s 0x0200 c ∧ (par c 2).testBit 1 = false ∧ par c 0 ≠ 0 ∧ par c 1 < 64 ∧ par c 2 &&& 0xFC = 0 ∧ ((par c 2).testBit 0 = true ∨ (par c 3 = 0 ∧ par c 4 = 0)) ∧ (∀ j, j < (tsGroups c).length → par c (5 + 19 * j) < 4 ∧ ∀ e, e < 6 → par c (8 + 19 * j + 3 * e) < 8) ∧ (∀ b ∈ bedMask (par c 0), tsetReason (tsWritten c (s.tsetAt (64 * b + par c 1))) = none) ∧ s.clk.refPresent = true ∧ s.clk.holdover = false ∧ b ∈ bedMask (par c 0) ∧ bedBusy s b = true) ∧
    (∃ (s : State) (c : Current) (b : Nat), Picked s 0x0200 c ∧ bedMask (par c 0) = [b] ∧ par c 1 < 64 ∧ par c 2 &&& 0xFF = 2 ∧ (tsGroups c).length ≤ 6 ∧ s.clk.refPresent = true ∧ s.clk.holdover = false ∧ calHoldsTiming s b = false ∧ bedActive s b = true) :=
  ⟨⟨(cmd 512 [32768, 63, 1, 0, 0]), cur 512 [32768, 63, 1, 0, 0], 15, 5, by decide +kernel⟩,
   ⟨(cmd 512 [32768, 63, 0, 0, 0]), cur 512 [32768, 63, 0, 0, 0], by decide +kernel⟩,
   ⟨(cmd 512 [1, 0, 0, 0, 0] ({ on with clk := { on.clk with refPresent := false } })), cur 512 [1, 0, 0, 0, 0], by decide +kernel⟩,
   ⟨(cmd 512 [1, 0, 0, 0, 0] ({ on with pat := { on.pat with seq := [(0, { mode := .exec, lanes := [0] })] } })), cur 512 [1, 0, 0, 0, 0], 0, by decide +kernel⟩,
   ⟨(cmd 512 [32768, 63, 2]), cur 512 [32768, 63, 2], 15, by decide +kernel⟩⟩
theorem witness_clocksAndTdll :
    (∃ (s : State) (c : Current), Picked s 0x0201 c ∧ par c 2 = 0 ∧ par c 0 < 16 ∧ par c 1 < 4 ∧ 1024 ≤ wAtN c.params 3 3 / 65536 ∧ wAtN c.params 3 3 / 65536 ≤ 4259840000 ∧ 328 ≤ par32 c 6 ∧ par32 c 6 + 328 ≤ wAtN c.params 3 3 / 65536 ∧ par32 c 8 < wAtN c.params 3 3 / 65536 ∧ par c 10 = 1 ∧ c.pick + 32000 ≤ par64 c 11 ∧ s.clk.refPresent = true ∧ s.clk.holdover = false ∧ calHoldsTiming s (par c 0) = false ∧ bedActive s (par c 0) = true) ∧
    (∃ (s : State) (c : Current), Picked s 0x0201 c ∧ par c 2 = 0 ∧ par c 0 < 16 ∧ par c 1 < 4 ∧ 1024 ≤ wAtN c.params 3 3 / 65536 ∧ wAtN c.params 3 3 / 65536 ≤ 4259840000 ∧ 328 ≤ par32 c 6 ∧ par32 c 6 + 328 ≤ wAtN c.params 3 3 / 65536 ∧ par32 c 8 < wAtN c.params 3 3 / 65536 ∧ par c 10 = 0 ∧ (∀ k, 11 ≤ k → k < 15 → par c k = 0) ∧ s.clk.refPresent = true ∧ s.clk.holdover = false ∧ calHoldsTiming s (par c 0) = false ∧ bedActive s (par c 0) = true) ∧
    (∃ (s : State) (c : Current), Picked s 0x0201 c ∧ par c 2 = 1 ∧ par c 0 < 16 ∧ par c 1 < 4 ∧ (∀ k, 3 ≤ k → k < 10 → par c k = 0) ∧ par c 10 = 0 ∧ (∀ k, 11 ≤ k → k < 15 → par c k = 0) ∧ s.clk.refPresent = true ∧ s.clk.holdover = false ∧ calHoldsTiming s (par c 0) = false ∧ bedActive s (par c 0) = true) ∧
    (∃ (s : State) (c : Current), Picked s 0x0201 c ∧ par c 2 = 1 ∧ par c 0 < 16 ∧ par c 1 < 4 ∧ (∀ k, 3 ≤ k → k < 10 → par c k = 0) ∧ par c 10 = 1 ∧ c.pick + 32000 ≤ par64 c 11 ∧ s.clk.refPresent = true ∧ s.clk.holdover = false ∧ calHoldsTiming s (par c 0) = false ∧ bedActive s (par c 0) = true) ∧
    (∃ (s : State) (c : Current), Picked s 0x0201 c ∧ par c 2 = 1 ∧ par c 0 < 16 ∧ par c 1 < 4 ∧ (∀ k, 3 ≤ k → k < 10 → par c k = 0) ∧ par c 10 = 1 ∧ par64 c 11 < c.pick + 32000) ∧
    (∃ (s : State) (c : Current), Picked s 0x0201 c ∧ par c 2 = 2 ∧ par c 0 < 16 ∧ par c 1 < 4 ∧ 1 ≤ par c 4 ∧ 32 * par c 0 ≤ par c 3 ∧ par c 3 + par c 4 ≤ 32 * par c 0 + 32 ∧ (∀ k, 5 ≤ k → k < 15 → par c k = 0) ∧ s.clk.refPresent = true ∧ s.clk.holdover = false ∧ (∀ p, par c 3 ≤ p → p < par c 3 + par c 4 → pinBusy s p = false) ∧ calHoldsTiming s (par c 0) = false ∧ bedActive s (par c 0) = true) ∧
    (∃ (b : Bed) (ck : Fin 4) (s : State) (d : ClockChange) (x : ClockSet), (s.ckgen (4 * b.val + ck.val)).change = some d ∧ d.set = some x) ∧
    (∃ (b : Bed) (ck : Fin 4) (s : State) (d : ClockChange), (s.ckgen (4 * b.val + ck.val)).change = some d ∧ d.set = none) ∧
    (∃ (b : Bed) (ck : Fin 4) (s : State), (s.ckgen (4 * b.val + ck.val)).change = none) :=
  ⟨⟨(cmd 513 [0, 0, 0, 0, 1024, 0, 328, 0, 0, 0, 1, 32000, 0, 0, 0]), cur 513 [0, 0, 0, 0, 1024, 0, 328, 0, 0, 0, 1, 32000, 0, 0, 0], by decide +kernel⟩,
   ⟨(cmd 513 [0, 0, 0, 0, 1024, 0, 328, 0, 0, 0, 0, 0, 0, 0, 0]), cur 513 [0, 0, 0, 0, 1024, 0, 328, 0, 0, 0, 0, 0, 0, 0, 0], by decide +kernel⟩,
   ⟨(cmd 513 [15, 3, 1, 0, 0, 0, 0, 0, 0, 0, 0, 0, 0, 0, 0]), cur 513 [15, 3, 1, 0, 0, 0, 0, 0, 0, 0, 0, 0, 0, 0, 0], by decide +kernel⟩,
   ⟨(cmd 513 [15, 3, 1, 0, 0, 0, 0, 0, 0, 0, 1, 32000, 0, 0, 0]), cur 513 [15, 3, 1, 0, 0, 0, 0, 0, 0, 0, 1, 32000, 0, 0, 0], by decide +kernel⟩,
   ⟨(cmd 513 [15, 3, 1, 0, 0, 0, 0, 0, 0, 0, 1, 31999, 0, 0, 0]), cur 513 [15, 3, 1, 0, 0, 0, 0, 0, 0, 0, 1, 31999, 0, 0, 0], by decide +kernel⟩,
   ⟨(cmd 513 [15, 3, 2, 511, 1, 0, 0, 0, 0, 0, 0, 0, 0, 0, 0]), cur 513 [15, 3, 2, 511, 1, 0, 0, 0, 0, 0, 0, 0, 0, 0, 0], by decide +kernel⟩,
   ⟨0, 1, { on with edge := { on.edge with clock := [(1, { change := some ⟨9, some {}⟩ })] } }, ⟨9, some {}⟩, {}, by decide +kernel⟩,
   ⟨0, 1, { on with edge := { on.edge with clock := [(1, { change := some ⟨9, none⟩ })] } }, ⟨9, none⟩, by decide +kernel⟩,
   ⟨0, 1, on, by decide +kernel⟩⟩
theorem witness_segmentCommands :
    (∃ (s : State) (c : Current), Picked s 0x0300 c ∧ par c 0 < 16384 ∧ par c 7 < 2 ∧ 64 * par32 c 1 + vectorBytes (par c 5) * par32 c 3 ≤ patternBytes s ∧ 16 ≤ par32 c 3 ∧ par32 c 3 ≤ 65536 ∧ 1 ≤ par c 5 ∧ par c 5 ≤ 512 ∧ (∀ n, n < 4 → (s.strm n).isOpen = true → par c 0 ∈ (s.strm n).list → (s.strm n).width = par c 5) ∧ (par c 7 = 1 → par c 6 < par32 c 3) ∧ tagInUse s c.tag.toNat = false ∧ segActive s (par c 0) = false) ∧
    (∃ (s : State) (c : Current), Picked s 0x0300 c ∧ par c 0 < 16384 ∧ par c 7 < 2 ∧ 64 * par32 c 1 + vectorBytes (par c 5) * par32 c 3 ≤ patternBytes s ∧ 16 ≤ par32 c 3 ∧ par32 c 3 ≤ 65536 ∧ 1 ≤ par c 5 ∧ par c 5 ≤ 512 ∧ (∀ n, n < 4 → (s.strm n).isOpen = true → par c 0 ∈ (s.strm n).list → (s.strm n).width = par c 5) ∧ (par c 7 = 1 → par c 6 < par32 c 3) ∧ tagInUse s c.tag.toNat = false ∧ segActive s (par c 0) = true) ∧
    (∃ (s : State) (c : Current), Picked s 0x0300 c ∧ par c 0 < 16384 ∧ (par c 7 = 2 ∨ par c 7 = 3) ∧ tagInUse s c.tag.toNat = false ∧ segActive s (par c 0) = false) ∧
    (∃ (s : State) (c : Current), Picked s 0x0300 c ∧ par c 0 < 16384 ∧ (par c 7 = 2 ∨ par c 7 = 3) ∧ tagInUse s c.tag.toNat = false ∧ segActive s (par c 0) = true) ∧
    (∃ (ue : Option Nat) (s : State), s.pat.loads = []) ∧
    (∃ (ue : Option Nat) (s : State) (l : SegLoad) (r : List SegLoad), s.pat.loads = l :: r ∧ segReason s l.addr l.width l.vectors ue = none) ∧
    (∃ (ue : Option Nat) (s : State) (l : SegLoad) (r : List SegLoad) (i reason : Nat), s.pat.loads = l :: r ∧ segReason s l.addr l.width l.vectors ue = some (i, reason)) ∧
    (∃ (s : State) (c : Current), Picked s 0x0301 c ∧ par c 1 = 0 ∧ par c 0 < 16384 ∧ (s.segm (par c 0)).registered = true ∧ pinFits s (par c 0) = true) ∧
    (∃ (s : State) (c : Current), Picked s 0x0301 c ∧ par c 1 = 0 ∧ par c 0 < 16384 ∧ (s.segm (par c 0)).registered = true ∧ pinFits s (par c 0) = false) ∧
    (∃ (s : State) (c : Current), Picked s 0x0301 c ∧ par c 1 = 1 ∧ par c 0 < 16384 ∧ (s.segm (par c 0)).registered = true) ∧
    (∃ (s : State) (c : Current), Picked s 0x0301 c ∧ par c 1 = 2 ∧ par c 0 < 16384 ∧ (s.segm (par c 0)).registered = true) ∧
    (∃ (s : State) (c : Current), Picked s 0x0301 c ∧ par c 1 = 3 ∧ par c 0 < 16384 ∧ (s.segm (par c 0)).registered = true) ∧
    (∃ (s : State) (c : Current), s.fw.current = some c ∧ c.wait = .segPin) ∧
    (∃ (s : State), waitsFor s .segPin = false) ∧
    (∃ (g : SegId) (r : FetchResult) (s : State), (fetching s g.val = false ∨ s.clk.stemIdle = true)) ∧
    (∃ (g : SegId) (s : State), fetching s g.val = true ∧ s.clk.stemIdle = false ∧ fetchable s g.val = true ∧ s.fw.current = none ∧ segReason s (s.segm g.val).addr (s.segm g.val).width (s.segm g.val).vectors none = none ∧ usedSlots s + segSlots (s.segm g.val) ≤ 4096) ∧
    (∃ (g : SegId) (s : State) (c : Current), fetching s g.val = true ∧ s.clk.stemIdle = false ∧ fetchable s g.val = true ∧ s.fw.current = some c ∧ c.wait = .segPin ∧ par c 0 = g.val ∧ segReason s (s.segm g.val).addr (s.segm g.val).width (s.segm g.val).vectors none = none ∧ usedSlots s + segSlots (s.segm g.val) ≤ 4096) ∧
    (∃ (g : SegId) (s : State) (c : Current), fetching s g.val = true ∧ s.clk.stemIdle = false ∧ fetchable s g.val = true ∧ s.fw.current = some c ∧ c.wait = .entry ∧ (s.strm (par c 4)).list[par c 5]? = some g.val ∧ (par c 6 = 1 → max s.clk.time s.pat.fetchReady + 6400 ≤ par64 c 7) ∧ par c 6 ≤ 2 ∧ segReason s (s.segm g.val).addr (s.segm g.val).width (s.segm g.val).vectors none = none ∧ usedSlots s + segSlots (s.segm g.val) ≤ 4096) ∧
    (∃ (g : SegId) (ch : Fin 2) (s : State), fetching s g.val = true ∧ s.clk.stemIdle = false ∧ fetchable s g.val = true ∧ s.fw.current = none ∧ segReason s (s.segm g.val).addr (s.segm g.val).width (s.segm g.val).vectors none = none ∧ usedSlots s + segSlots (s.segm g.val) ≤ 4096) ∧
    (∃ (g : SegId) (s : State), fetching s g.val = true ∧ s.clk.stemIdle = false ∧ fetchable s g.val = true ∧ segReason s (s.segm g.val).addr (s.segm g.val).width (s.segm g.val).vectors none = none ∧ 4096 < usedSlots s + segSlots (s.segm g.val) ∧ (∀ e ∈ s.pat.segment, evictable s e.1 = false)) ∧
    (∃ (g : SegId) (s : State), fetching s g.val = true ∧ s.clk.stemIdle = false ∧ fetchable s g.val = true ∧ (s.segm g.val).retried = false) ∧
    (∃ (g : SegId) (s : State), fetching s g.val = true ∧ s.clk.stemIdle = false ∧ fetchable s g.val = true ∧ (s.segm g.val).retried = true) :=
  ⟨⟨(cmd 768 [16383, 0, 0, 16, 0, 1, 15, 1] (run {})), cur 768 [16383, 0, 0, 16, 0, 1, 15, 1], by decide +kernel⟩,
   ⟨cmd 768 [7, 0, 0, 16, 0, 1, 15, 1] (run {} [] { loopPins := 1 }), cur 768 [7, 0, 0, 16, 0, 1, 15, 1], by decide +kernel⟩,
   ⟨(cmd 768 [16383, 0, 0, 0, 0, 0, 0, 2]), cur 768 [16383, 0, 0, 0, 0, 0, 0, 2], by decide +kernel⟩,
   ⟨(cmd 768 [7, 0, 0, 0, 0, 0, 0, 2] (run { lanes := [0], mode := .exec, segment := 7 })), cur 768 [7, 0, 0, 0, 0, 0, 0, 2], by decide +kernel⟩,
   ⟨none, on, rfl⟩,
   ⟨none, { (run {}) with pat := { (run {}).pat with loads := [{ tag := 5, segment := 7, addr := 0, vectors := 16, width := 1, hold := none }] } }, { tag := 5, segment := 7, addr := 0, vectors := 16, width := 1, hold := none }, [], by decide +kernel⟩,
   ⟨some 15, { (run {}) with pat := { (run {}).pat with loads := [{ tag := 5, segment := 7, addr := 0, vectors := 16, width := 1, hold := none }] } }, { tag := 5, segment := 7, addr := 0, vectors := 16, width := 1, hold := none }, [], 15, 8, by decide +kernel⟩,
   ⟨(cmd 769 [7, 0] (run {})), cur 769 [7, 0], by decide +kernel⟩,
   ⟨(cmd 769 [7, 0] ({ (run {}) with pat := { (run {}).pat with segment := [(7, { registered := true, vectors := 65536, width := 512 }), (8, { registered := true, vectors := 65536, width := 512, hostPin := true })] } })), cur 769 [7, 0], by decide +kernel⟩,
   ⟨(cmd 769 [7, 1] (run {})), cur 769 [7, 1], by decide +kernel⟩,
   ⟨(cmd 769 [7, 2] (run {})), cur 769 [7, 2], by decide +kernel⟩,
   ⟨(cmd 769 [7, 3] (run {})), cur 769 [7, 3], by decide +kernel⟩,
   ⟨{ on with fw := { on.fw with current := some { cur 0 [] with wait := .segPin } } }, { cur 0 [] with wait := .segPin }, by decide +kernel⟩,
   ⟨on, rfl⟩,
   ⟨7, .ok, on, by decide +kernel⟩,
   ⟨7, fet { registered := true, vectors := 16, width := 1 }, by decide +kernel⟩,
   ⟨7, waits 0x301 [7] .segPin (fet { registered := true, vectors := 16, width := 1 }), { cur 0x301 [7] with wait := .segPin }, by decide +kernel⟩,
   ⟨7, waits 0x303 [] .entry (fet { registered := true, vectors := 16, width := 1 }), { cur 0x303 [] with wait := .entry }, by decide +kernel⟩,
   ⟨7, 1, fet { registered := true, vectors := 16, width := 1 }, by decide +kernel⟩,
   ⟨7, { fet {} with pat := { (fet {}).pat with segment := [(7, { registered := true, vectors := 16, width := 1 }), (8, { registered := true, vectors := 65536, width := 512, resident := true, hostPin := true }), (9, { registered := true, vectors := 65536, width := 512, resident := true, hostPin := true })] } }, by decide +kernel⟩,
   ⟨7, fet { registered := true, vectors := 16, width := 1 }, by decide +kernel⟩,
   ⟨7, fet { registered := true, vectors := 16, width := 1, retried := true }, by decide +kernel⟩⟩
theorem witness_streamAndBurstCommands :
    (∃ (s : State) (c : Current), Picked s 0x0302 c ∧ par c 1 = 0 ∧ par c 0 < 4 ∧ par c 2 < 2 ∧ par c 3 ≤ 64 ∧ par c 4 ≤ 114 ∧ (∀ i, i < par c 4 → par c (5 + i) < 16384 ∧ (s.segm (par c (5 + i))).registered = true ∧ (s.segm (par c (5 + i))).width = (s.segm (par c 5)).width) ∧ (s.strm (par c 0)).isOpen = false ∧ s.bus.dramMib ≠ 0) ∧
    (∃ (s : State) (c : Current) (w : Nat), Picked s 0x0302 c ∧ par c 1 = 1 ∧ par c 0 < 4 ∧ par c 2 < 2 ∧ par c 3 ≤ 64 ∧ par c 4 ≤ 114 ∧ ((s.strm (par c 0)).list ≠ [] → (s.strm (par c 0)).width = w) ∧ (s.strm (par c 0)).list.length + par c 4 ≤ 4096 ∧ (∀ i, i < par c 4 → par c (5 + i) < 16384 ∧ (s.segm (par c (5 + i))).registered = true ∧ (s.segm (par c (5 + i))).width = w) ∧ (s.strm (par c 0)).isOpen = true ∧ (s.strm (par c 0)).sealed = false ∧ s.bus.dramMib ≠ 0) ∧
    (∃ (s : State) (c : Current), Picked s 0x0302 c ∧ par c 1 = 2 ∧ par c 0 < 4 ∧ par c 2 < 2 ∧ s.bus.dramMib ≠ 0 ∧ (s.strm (par c 0)).isOpen = true ∧ streamBusy s (par c 0) = false) ∧
    (∃ (s : State) (c : Current), Picked s 0x0302 c ∧ par c 1 = 2 ∧ par c 0 < 4 ∧ par c 2 < 2 ∧ s.bus.dramMib ≠ 0 ∧ (s.strm (par c 0)).isOpen = true ∧ streamBusy s (par c 0) = true) ∧
    (∃ (s : State) (c : Current), Picked s 0x0302 c ∧ par c 1 = 3 ∧ par c 0 < 4 ∧ par c 2 < 2 ∧ 1 ≤ par c 4 ∧ par c 4 ≤ dataMib s ∧ s.bus.dramMib ≠ 0 ∧ (∀ n, n < 4 → (s.strm n).isOpen = false) ∧ (∀ e ∈ s.harv.ring, e.2.state = .free)) ∧
    (∃ (s : State) (c : Current), Picked s 0x0302 c ∧ par c 0 < 4 ∧ par c 2 < 2 ∧ par c 3 ≤ 64 ∧ par c 4 ≤ 114 ∧ s.bus.dramMib = 0 ∧ par c 1 = 0) ∧
    (∃ (s : State) (c : Current), Picked s 0x0302 c ∧ par c 0 < 4 ∧ par c 2 < 2 ∧ par c 3 ≤ 64 ∧ par c 4 ≤ 114 ∧ s.bus.dramMib = 0 ∧ par c 1 = 1) ∧
    (∃ (s : State) (c : Current), Picked s 0x0302 c ∧ par c 0 < 4 ∧ par c 2 < 2 ∧ par c 3 ≤ 64 ∧ par c 4 ≤ 114 ∧ s.bus.dramMib = 0 ∧ par c 1 = 2) ∧
    (∃ (s : State) (c : Current), Picked s 0x0302 c ∧ par c 0 < 4 ∧ par c 2 < 2 ∧ par c 3 ≤ 64 ∧ par c 4 ≤ 114 ∧ s.bus.dramMib = 0 ∧ par c 1 = 3) ∧
    (∃ (s : State) (c : Current) (w g : Nat), Picked s 0x0303 c ∧ par64 c 0 ≠ 0 ∧ par c 4 < 4 ∧ (s.strm (par c 4)).isOpen = true ∧ (s.strm (par c 4)).width = w ∧ (s.strm (par c 4)).list[par c 5]? = some g ∧ (∀ q ∈ seqMask c, (s.seq q).lanes.length = w) ∧ par c 6 ≤ 2 ∧ (par c 6 ≠ 1 → ∀ k, 7 ≤ k → k < 11 → par c k = 0) ∧ (par c 6 = 1 → c.pick + 32000 ≤ par64 c 7 ∧ s.clk.time + 6400 ≤ par64 c 7) ∧ par c 11 < 128 ∧ (par c 13 = 0xFFFF ∨ (s.ring (par c 13)).state ≠ .free) ∧ c.tag.toNat + (seqMask c).length ≤ 0x1000 ∧ (∀ i, i < (seqMask c).length → tagInUse s (c.tag.toNat + i) = false) ∧ s.clk.refPresent = true ∧ s.clk.holdover = false ∧ s.clk.stemIdle = false ∧ (∀ q ∈ seqMask c, (s.seq q).mode = .idle ∧ seqLevel s q ≠ 3 ∧ ∀ p ∈ (s.seq q).lanes, p < 512 ∧ bedHeld s (p / 32) = false ∧ calHolds s (p / 32) = false ∧ bedActive s (p / 32) = true) ∧ pinFits s g = true) ∧
    (∃ (s : State) (c : Current) (g : Nat), s.fw.current = some c ∧ c.wait = .entry ∧ (s.strm (par c 4)).list[par c 5]? = some g) ∧
    (∃ (s : State), (∀ c, s.fw.current = some c → c.wait ≠ .entry)) ∧
    (∃ (s : State) (c : Current), Picked s 0x0304 c ∧ par c 4 ≤ 1 ∧ (∃ q ∈ seqMask c, siteRuns (s.seq q) = true) ∧ (∀ q ∈ seqMask c, (s.seq q).mode ≠ .armed ∧ (s.seq q).stop = none ∧ ((s.seq q).mode = .starveHold → par c 4 = 0))) ∧
    (∃ (s : State) (c : Current), Picked s 0x0304 c ∧ par c 4 ≤ 1 ∧ (∃ q ∈ seqMask c, siteRuns (s.seq q) = true)) ∧
    (∃ (s : State) (c : Current), Picked s 0x0304 c ∧ par c 4 ≤ 1 ∧ (∀ q ∈ seqMask c, siteRuns (s.seq q) = false)) ∧
    (∃ (s : State) (c : Current) (l : List Nat), Picked s 0x0305 c ∧ (l = (seqMask c).filter (fun q => siteRuns (s.seq q))) ∧ l ≠ [] ∧ (∀ q ∈ l, par c 4 < (s.strm (s.seq q).stream).list.length)) :=
  ⟨⟨(cmd 770 [3, 0, 1, 64, 2, 7, 7] (run {})), cur 770 [3, 0, 1, 64, 2, 7, 7], by decide +kernel⟩,
   ⟨(cmd 770 [0, 1, 1, 64, 1, 7] (run {})), cur 770 [0, 1, 1, 64, 1, 7], 1, by decide +kernel⟩,
   ⟨(cmd 770 [0, 2, 0, 0, 0] (run {})), cur 770 [0, 2, 0, 0, 0], by decide +kernel⟩,
   ⟨cmd 770 [0, 2, 0, 0, 0] (run { mode := .exec }), cur 770 [0, 2, 0, 0, 0], by decide +kernel⟩,
   ⟨(cmd 770 [0, 3, 0, 0, 1] { on with bus := { on.bus with dramMib := 1024 } }), cur 770 [0, 3, 0, 0, 1], by decide +kernel⟩,
   ⟨(cmd 770 [3, 0, 1, 64, 0]), cur 770 [3, 0, 1, 64, 0], by decide +kernel⟩,
   ⟨cmd 770 [3, 1, 1, 64, 0], cur 770 [3, 1, 1, 64, 0], by decide +kernel⟩,
   ⟨cmd 770 [3, 2, 1, 64, 0], cur 770 [3, 2, 1, 64, 0], by decide +kernel⟩,
   ⟨cmd 770 [3, 3, 1, 64, 0], cur 770 [3, 3, 1, 64, 0], by decide +kernel⟩,
   ⟨(cmd 771 [1, 0, 0, 0, 0, 0, 1, 32000, 0, 0, 0, 0, 0, 65535] (run { lanes := [0] })), cur 771 [1, 0, 0, 0, 0, 0, 1, 32000, 0, 0, 0, 0, 0, 65535], 1, 7, by decide +kernel⟩,
   ⟨waits 0x303 [] .entry (run {}), { cur 0x303 [] with wait := .entry }, 7, by decide +kernel⟩,
   ⟨on, fun c h => nomatch h⟩,
   ⟨(cmd 772 [1, 0, 0, 0, 1] (run { lanes := [0], mode := .exec, segment := 7 })), cur 772 [1, 0, 0, 0, 1], by decide +kernel⟩,
   ⟨cmd 772 [1, 0, 0, 0, 1] (run { mode := .exec }), cur 772 [1, 0, 0, 0, 1], by decide +kernel⟩,
   ⟨(cmd 772 [1, 0, 0, 0, 1]), cur 772 [1, 0, 0, 0, 1], by decide +kernel⟩,
   ⟨(cmd 773 [1, 0, 0, 0, 0] (run { lanes := [0], mode := .exec, segment := 7 })), cur 773 [1, 0, 0, 0, 0], [0], by decide +kernel⟩⟩
theorem witness_sequencerEvents :
    (∃ (ts : Nat) (s : State) (q g : Nat), q < 64 ∧ (s.seq q).mode = .armed ∧ (s.seq q).start = .at ts ∧ (s.strm (s.seq q).stream).list[(s.seq q).entry]? = some g) ∧
    (∃ (ts : Nat) (s : State), (∀ q, q < 64 → (s.seq q).mode = .armed → (s.seq q).start ≠ .at ts)) ∧
    (∃ (q : Seq) (s : State), ((s.seq q.val).mode = .idle ∨ (s.seq q.val).mode = .armed ∨ s.clk.stemIdle = true)) ∧
    (∃ (q : Seq) (s : State), s.clk.stemIdle = false ∧ (s.seq q.val).mode = .exec ∧ (s.seq q.val).stop = none ∧ (∀ j ∈ (s.seq q.val).judge, (s.seq q.val).next < j.due) ∧ seqLevel s q.val ≠ 3 ∧ (seqVec s q.val).op = 0 ∧ (s.seq q.val).index + 1 < (s.segm (s.seq q.val).segment).copy.vectors) ∧
    (∃ (q : Seq) (s : State) (g : Nat), s.clk.stemIdle = false ∧ (s.seq q.val).mode = .exec ∧ (s.seq q.val).stop = none ∧ (s.seq q.val).jump = none ∧ (∀ j ∈ (s.seq q.val).judge, (s.seq q.val).next < j.due) ∧ seqLevel s q.val ≠ 3 ∧ (seqVec s q.val).op = 0 ∧ (s.segm (s.seq q.val).segment).copy.vectors ≤ (s.seq q.val).index + 1 ∧ (s.strm (s.seq q.val).stream).list[(s.seq q.val).entry + 1]? = some g ∧ (s.segm g).registered = true ∧ (s.segm g).resident = true ∧ (s.segm g).unusable = false) ∧
    (∃ (q : Seq) (s : State), s.clk.stemIdle = false ∧ (s.seq q.val).mode = .exec ∧ (s.seq q.val).stop = none ∧ (s.seq q.val).jump = none ∧ (∀ j ∈ (s.seq q.val).judge, (s.seq q.val).next < j.due) ∧ seqLevel s q.val ≠ 3 ∧ (seqVec s q.val).op = 0 ∧ (s.segm (s.seq q.val).segment).copy.vectors ≤ (s.seq q.val).index + 1 ∧ (s.strm (s.seq q.val).stream).list[(s.seq q.val).entry + 1]? = none ∧ (s.strm (s.seq q.val).stream).sealed = false ∧ (s.seq q.val).starveAbort = false) ∧
    (∃ (q : Seq) (s : State), s.clk.stemIdle = false ∧ (s.seq q.val).mode = .exec ∧ (s.seq q.val).stop = none ∧ (s.seq q.val).jump = none ∧ (∀ j ∈ (s.seq q.val).judge, (s.seq q.val).next < j.due) ∧ seqLevel s q.val ≠ 3 ∧ (seqVec s q.val).op = 0 ∧ (s.segm (s.seq q.val).segment).copy.vectors ≤ (s.seq q.val).index + 1 ∧ (s.strm (s.seq q.val).stream).list[(s.seq q.val).entry + 1]? = none ∧ (s.strm (s.seq q.val).stream).sealed = true) ∧
    (∃ (q : Seq) (s : State), s.clk.stemIdle = false ∧ (s.seq q.val).mode = .exec ∧ (s.seq q.val).stop = none ∧ (∀ j ∈ (s.seq q.val).judge, (s.seq q.val).next < j.due) ∧ seqLevel s q.val ≠ 3 ∧ (seqVec s q.val).op = 1 ∧ (s.seq q.val).reps < (seqVec s q.val).operand) ∧
    (∃ (q : Seq) (s : State), s.clk.stemIdle = false ∧ (s.seq q.val).mode = .exec ∧ (s.seq q.val).stop = none ∧ (∀ j ∈ (s.seq q.val).judge, (s.seq q.val).next < j.due) ∧ seqLevel s q.val ≠ 3 ∧ (seqVec s q.val).op = 11) ∧
    (∃ (q : Seq) (lanes : List LaneCmp) (s : State), (s.seq q.val).judge = []) ∧
    (∃ (q : Seq) (lanes : List LaneCmp) (s : State) (j : Judgement), (s.seq q.val).mode ≠ .ending ∧ firstDue (s.seq q.val).judge = some j ∧ j.kind = .normal ∧ j.clrfail = false ∧ j.log = false ∧ (∃ i, i < (s.seq q.val).lanes.length ∧ j.codes.getD i 16 < 16 ∧ j.codes.getD i 16 ≠ 12 ∧ j.lost.contains i = true)) ∧
    (∃ (q : Seq) (lanes : List LaneCmp) (s : State) (j : Judgement), (s.seq q.val).mode ≠ .ending ∧ firstDue (s.seq q.val).judge = some j ∧ j.kind = .normal ∧ j.log = false ∧ (∀ i, i < (s.seq q.val).lanes.length → 16 ≤ j.codes.getD i 16 ∨ j.codes.getD i 16 = 12)) ∧
    (∃ (n tick : Nat) (s : State), (s.trig n).pulses = []) ∧
    (∃ (n : Fin 8) (s : State) (a b : Nat) (r : List (Nat × Nat)), (s.trig n.val).pulses = (a, b) :: r) ∧
    (∃ (n : Fin 8) (s : State), (s.trig n.val).pulses = []) :=
  ⟨⟨9, (run { lanes := [0], mode := .armed, start := .at 9 }), 0, 7, by decide +kernel⟩,
   ⟨9, on, by decide +kernel⟩,
   ⟨63, on, by decide +kernel⟩,
   ⟨0, (run { lanes := [0], mode := .exec, segment := 7 } []), by decide +kernel⟩,
   ⟨0, { run { lanes := [0], mode := .exec, segment := 7 } [] (one []) with pat := { (run { lanes := [0], mode := .exec, segment := 7 } [] (one [])).pat with stream := [(0, { isOpen := true, list := [7, 7], width := 1 })] } }, 7, by decide +kernel⟩,
   ⟨0, run { lanes := [0], mode := .exec, segment := 7 } [] (one []), by decide +kernel⟩,
   ⟨0, { run { lanes := [0], mode := .exec, segment := 7 } [] (one []) with pat := { (run { lanes := [0], mode := .exec, segment := 7 } [] (one [])).pat with stream := [(0, { isOpen := true, list := [7], width := 1, sealed := true })] } }, by decide +kernel⟩,
   ⟨0, run { lanes := [0], mode := .exec, segment := 7 } [] (one [0x400, 3]), by decide +kernel⟩,
   ⟨0, run { lanes := [0], mode := .exec, segment := 7 } [] (one [0x2C00]), by decide +kernel⟩,
   ⟨63, [], on, by decide +kernel⟩,
   ⟨0, [], (run { lanes := [0], mode := .exec, segment := 7, judge := [{ kind := .normal, vectors := 0, entry := 0, segment := 7, index := 0, start := 0, due := 5, clrfail := false, log := false, codes := [3], lost := [0] }] }), { kind := .normal, vectors := 0, entry := 0, segment := 7, index := 0, start := 0, due := 5, clrfail := false, log := false, codes := [3], lost := [0] }, by decide +kernel⟩,
   ⟨0, [], (run { lanes := [0], mode := .exec, segment := 7, judge := [{ kind := .normal, vectors := 0, entry := 0, segment := 7, index := 0, start := 0, due := 5, clrfail := false, log := false, codes := [12], lost := [0] }] }), { kind := .normal, vectors := 0, entry := 0, segment := 7, index := 0, start := 0, due := 5, clrfail := false, log := false, codes := [12], lost := [0] }, by decide +kernel⟩,
   ⟨7, 0, on, rfl⟩,
   ⟨7, { on with pat := { on.pat with trig := [(7, { pulses := [(9, 10)] })] } }, 9, 10, [], by decide +kernel⟩,
   ⟨7, on, by decide +kernel⟩⟩
theorem witness_loopCommands :
    (∃ (s : State) (c : Current), Picked s 0x0400 c ∧ 1 ≤ par c 1 ∧ par c 0 + par c 1 ≤ 544 ∧ (512 ≤ par c 0 ∨ par c 0 + par c 1 ≤ 512) ∧ par c 2 < 8 ∧ par c 2 % 2 = 0 ∧ par c 3 ≤ 2 ∧ (par c 0 < 512 → par c 2 ≠ 2 ∧ par c 2 ≠ 6 ∧ par c 3 = 0) ∧ par c 4 < 16 ∧ (par c 3 = 0 → par c 4 = 0) ∧ par c 5 = 1 ∧ (par c 6 = 0xFFFF ∨ (s.ring (par c 6)).state ≠ .free) ∧ par c 7 ≤ 7 ∧ (∀ l ∈ loopRange c 0, (s.loop l).state = .stopped ∧ calHoldsLoop s l = false ∧ bedActive s (loopBed l) = true ∧ (s.loop l).gang = 1)) ∧
    (∃ (s : State) (c : Current) (h n : Nat), Picked s 0x0400 c ∧ par c 0 = 512 + h ∧ h < 32 ∧ par c 1 = 1 ∧ par c 2 < 8 ∧ par c 2 % 2 = 0 ∧ par c 3 = 0 ∧ par c 4 = 0 ∧ par c 5 = n ∧ 2 ≤ n ∧ n ≤ 4 ∧ h / 4 = (h + n - 1) / 4 ∧ (par c 6 = 0xFFFF ∨ (s.ring (par c 6)).state ≠ .free) ∧ par c 7 ≤ 7 ∧ (s.loop (512 + h)).gang = 1 ∧ (∀ k, 512 + h ≤ k → k < 512 + h + n → loopPads s k = 0 ∧ (s.loop k).stage = 0 ∧ (s.loop k).state = .stopped) ∧ calHoldsLoop s (512 + h) = false ∧ bedActive s (loopBed (512 + h)) = true) ∧
    (∃ (s : State) (c : Current) (h : Nat), Picked s 0x0400 c ∧ par c 0 = 512 + h ∧ h < 32 ∧ par c 1 = 1 ∧ par c 2 < 8 ∧ par c 2 % 2 = 0 ∧ par c 3 = 0 ∧ par c 4 = 0 ∧ par c 5 = 1 ∧ (par c 6 = 0xFFFF ∨ (s.ring (par c 6)).state ≠ .free) ∧ par c 7 ≤ 7 ∧ (s.loop (512 + h)).state = .stopped ∧ calHoldsLoop s (512 + h) = false ∧ bedActive s (loopBed (512 + h)) = true) ∧
    (∃ (s : State) (c : Current), Picked s 0x0400 c ∧ par c 0 < 544 ∧ par c 1 = 1 ∧ par c 2 = 1 ∧ (∀ k, 3 ≤ k → k < 8 → par c k = 0)) ∧
    (∃ (s : State) (c : Current) (due : Nat), Picked s 0x0401 c ∧ 1 ≤ par c 1 ∧ par c 0 + par c 1 ≤ 544 ∧ (512 ≤ par c 0 ∨ par c 0 + par c 1 ≤ 512) ∧ par c 2 ≤ 3 ∧ (par c 2 < 2 → f32Finite (parF c 3) = true) ∧ (2 ≤ par c 2 → par c 3 = 0 ∧ par c 4 = 0) ∧ (par c 5 = 0 ∧ (∀ k, 6 ≤ k → k < 10 → par c k = 0) ∧ due = s.clk.time ∨ par c 5 = 1 ∧ c.pick + 32000 ≤ par64 c 6 ∧ due = par64 c 6) ∧ (∀ l ∈ loopRange c 0, (par c 2 < 2 → inNominal s l (decide (par c 2 = 0)) (s.loop l).irange (s.loop l).vrange (f32 (parF c 3)) = true) ∧ (par c 2 = 3 ∨ ((s.loop l).state ≠ .cloche ∧ (chargeOutside s l = false ∨ ∃ h, (s.loop l).iHi = some h ∧ h ≤ 0) ∧ ((s.loop l).stage = 0 ∨ ((s.stage (s.loop l).stageId).attached = true ∧ (s.stage (s.loop l).stageId).lost = false)))) ∧ (s.loop l).state ≠ .ganged ∧ (512 ≤ l ∨ par c 2 = 3 ∨ (s.pinst l).conn = 2 ∨ (par c 2 = 2 ∧ (s.pinst l).conn = 3)) ∧ (s.loop l).source = .dc ∧ calHoldsLoop s l = false ∧ bedActive s (loopBed l) = true)) ∧
    (∃ (s : State) (c : Current) (h : Nat), Picked s 0x0401 c ∧ par c 0 = 512 + h ∧ h < 32 ∧ par c 1 = 1 ∧ par c 2 = 0 ∧ par c 3 = 0 ∧ par c 4 = 0 ∧ par c 5 = 0 ∧ (∀ k, 6 ≤ k → k < 10 → par c k = 0) ∧ inNominal s (512 + h) true (s.loop (512 + h)).irange (s.loop (512 + h)).vrange (f32 0) = true ∧ (s.loop (512 + h)).state ≠ .cloche ∧ chargeOutside s (512 + h) = true ∧ (∀ i, (s.loop (512 + h)).iHi = some i → 0 < i)) ∧
    (∃ (s : State) (c : Current), Picked s 0x0402 c ∧ 1 ≤ par c 1 ∧ par c 0 + par c 1 ≤ 544 ∧ (512 ≤ par c 0 ∨ par c 0 + par c 1 ≤ 512) ∧ (par c 3 = 0xFF ∨ 512 ≤ par c 0 ∧ par c 3 ≤ 1) ∧ par c 4 ≤ 1 ∧ par c 5 ≤ par c 6 ∧ par c 7 ≤ 255 ∧ (∀ l ∈ loopRange c 0, ((s.loop l).stage = 0 ∧ (par c 2 ≤ 4 ∨ par c 2 = 0xFF) ∧ par c 6 ≤ 4 ∨ (s.loop l).stage ≠ 0 ∧ 512 ≤ l ∧ (par c 2 = 5 ∨ par c 2 = 0xFF) ∧ par c 4 = 0 ∧ par c 5 = 5 ∧ par c 6 = 5) ∧ (s.loop l).state = .stopped ∧ (s.loop l).source = .dc ∧ (∀ k ∈ loopRange c 0, l < k → l + (s.loop l).gang ≤ k) ∧ calHoldsLoop s l = false ∧ bedActive s (loopBed l) = true ∧ (s.loop l).change = none ∧ (s.loop l).changeNext = none)) ∧
    (∃ (s : State) (c : Current), Picked s 0x0402 c ∧ 1 ≤ par c 1 ∧ par c 0 + par c 1 ≤ 544 ∧ (512 ≤ par c 0 ∨ par c 0 + par c 1 ≤ 512) ∧ par c 2 ≤ 4 ∧ par c 3 = 0xFF ∧ par c 4 = 0 ∧ par c 5 ≤ par c 6 ∧ par c 6 ≤ 4 ∧ par c 7 ≤ 255 ∧ (∀ l ∈ loopRange c 0, (s.loop l).stage = 0 ∧ (s.loop l).state = .regulating ∧ (s.loop l).source = .dc ∧ calHoldsLoop s l = false ∧ bedActive s (loopBed l) = true ∧ (s.loop l).irange ≠ par c 2 ∧ ((s.loop l).mode = 1 → ((recode s l false (s.loop l).irange (s.loop l).vrange (par c 2) (s.loop l).vrange (s.loop l).setPoint).natAbs : Int) ≤ nominalCode))) ∧
    (∃ (s : State) (c : Current), Picked s 0x0403 c ∧ 1 ≤ par c 1 ∧ par c 0 + par c 1 ≤ 544 ∧ (512 ≤ par c 0 ∨ par c 0 + par c 1 ≤ 512) ∧ par c 2 ≤ 1 ∧ f32Finite (parF c 3) = true ∧ f32Finite (parF c 5) = true ∧ (f32 (parF c 5)).lt (f32 (parF c 3)) = true ∧ (∀ l ∈ loopRange c 0, (s.loop l).state ≠ .ganged ∧ calHoldsLoop s l = false ∧ bedActive s (loopBed l) = true ∧ ((s.loop l).stage = 0 ∨ ((s.stage (s.loop l).stageId).attached = true ∧ (s.stage (s.loop l).stageId).lost = false)) ∧ (par c 2 = 1 → inNominal s l true 0 (s.loop l).vrange (f32 (parF c 3)) = true ∧ inNominal s l true 0 (s.loop l).vrange (f32 (parF c 5)) = true))) ∧
    (∃ (s : State) (c : Current), Picked s 0x0404 c ∧ 1 ≤ par c 1 ∧ par c 1 ≤ 23 ∧ par c 0 + par c 1 ≤ 65536 ∧ (∀ i, i < par c 1 → par c (6 + 5 * i) &&& 0xFF8E = 0) ∧ sweepUses s (par c 0) (par c 1) = false) ∧
    (∃ (s : State) (c : Current), Picked s 0x0405 c ∧ 1 ≤ par c 1 ∧ par c 0 + par c 1 ≤ 544 ∧ (512 ≤ par c 0 ∨ par c 0 + par c 1 ≤ 512) ∧ 1 ≤ par32 c 3 ∧ par32 c 3 ≤ 65536 ∧ par c 2 + par32 c 3 ≤ 65536 ∧ par c 6 ≤ 2 ∧ (par c 6 ≠ 1 → ∀ k, 7 ≤ k → k < 11 → par c k = 0) ∧ (par c 6 = 1 → c.pick + 32000 ≤ par64 c 7) ∧ par c 11 < 16 ∧ (par c 12 = 0xFFFF ∨ (s.ring (par c 12)).state ≠ .free) ∧ c.tag.toNat + par c 1 ≤ 0x1000 ∧ (∀ i, i < par c 1 → tagInUse s (c.tag.toNat + i) = false) ∧ (∀ l ∈ loopRange c 0, stepFails s (par c 2) (par32 c 3) (par c 5) l = none ∧ (chargeOutside s l = false ∨ ∃ h, (s.loop l).iHi = some h ∧ h ≤ 0) ∧ (s.loop l).state = .regulating ∧ (s.loop l).mode ≠ 2 ∧ (s.loop l).source = .dc ∧ calHoldsLoop s l = false ∧ bedActive s (loopBed l) = true ∧ ((s.loop l).stage = 0 ∨ ((s.stage (s.loop l).stageId).attached = true ∧ (s.stage (s.loop l).stageId).lost = false)) ∧ ((∃ i, par c 2 ≤ i ∧ i < par c 2 + par32 c 3 ∧ (s.swp i).meas = true) → (s.avg l).run = none ∧ (s.avg l).lock = none))) :=
  ⟨⟨(cmd 1024 [543, 1, 6, 0, 0, 1, 65535, 7]), cur 1024 [543, 1, 6, 0, 0, 1, 65535, 7], by decide +kernel⟩,
   ⟨(cmd 1024 [540, 1, 0, 0, 0, 4, 65535, 7]), cur 1024 [540, 1, 0, 0, 0, 4, 65535, 7], 28, 4, by decide +kernel⟩,
   ⟨(cmd 1024 [540, 1, 0, 0, 0, 1, 65535, 7]), cur 1024 [540, 1, 0, 0, 0, 1, 65535, 7], 28, by decide +kernel⟩,
   ⟨(cmd 1024 [543, 1, 1, 0, 0, 0, 0, 0]), cur 1024 [543, 1, 1, 0, 0, 0, 0, 0], by decide +kernel⟩,
   ⟨(cmd 1025 [512, 1, 0, 0, 0, 1, 32000, 0, 0, 0]), cur 1025 [512, 1, 0, 0, 0, 1, 32000, 0, 0, 0], 32000, by decide +kernel⟩,
   ⟨(cmd 1025 [512, 1, 0, 0, 0, 0, 0, 0, 0, 0] (lp 512 { charge := true })), cur 1025 [512, 1, 0, 0, 0, 0, 0, 0, 0, 0], 0, by decide +kernel⟩,
   ⟨(cmd 1026 [512, 1, 4, 255, 0, 0, 4, 255]), cur 1026 [512, 1, 4, 255, 0, 0, 4, 255], by decide +kernel⟩,
   ⟨(cmd 1026 [512, 1, 4, 255, 0, 0, 4, 255] (lp 512 { state := .regulating })), cur 1026 [512, 1, 4, 255, 0, 0, 4, 255], by decide +kernel⟩,
   ⟨(cmd 1027 [511, 1, 1, 0, 16256, 0, 0]), cur 1027 [511, 1, 1, 0, 16256, 0, 0], by decide +kernel⟩,
   ⟨(cmd 1028 [65535, 1, 0, 0, 0, 0, 0]), cur 1028 [65535, 1, 0, 0, 0, 0, 0], by decide +kernel⟩,
   ⟨cmd 1029 [512, 1, 0, 1, 0, 0, 0, 0, 0, 0, 0, 0, 65535] ({ lp 512 { state := .regulating } with lp := { (lp 512 { state := .regulating }).lp with sweep := [(0, { dwell := 1, irange := 7 })] } }), cur 1029 [512, 1, 0, 1, 0, 0, 0, 0, 0, 0, 0, 0, 65535], by decide +kernel, by decide +kernel, (by decide +kernel), by decide +kernel,
    by decide +kernel, (by decide +kernel), by decide +kernel, by decide +kernel,
    fun _ k h1 h2 => by interval_cases k <;> rfl, by decide +kernel, by decide +kernel, (by decide +kernel), by decide +kernel,
    by decide +kernel, fun l h => by
      obtain rfl := List.mem_singleton.1 (show l ∈ [512] from h)
      exact ⟨by decide +kernel, .inl (by decide +kernel), by decide +kernel, by decide +kernel, (by decide +kernel), by decide +kernel,
        by decide +kernel, (by decide +kernel), fun _ => by decide +kernel⟩⟩⟩
theorem witness_loopSample :
    (∃ (l : LoopId) (c : Conv) (s : State), (bedActive s (loopBed l.val) = false ∨ (s.loop l.val).stage = 2)) ∧
    (∃ (l : LoopId) (c : Conv) (s : State), bedActive s (loopBed l.val) = true ∧ (s.loop l.val).stage ≠ 2) ∧
    (∃ (l : LoopId) (c : Conv) (s : State), bedActive s (loopBed l.val) = true ∧ (s.loop l.val).stage ≠ 2 ∧ (s.loop l.val).state = .frozen ∧ (s.loop l.val).declared = .primary ∧ (s.loop l.val).autoGoal = none ∧ (s.loop l.val).source = .dc ∧ (s.avg l.val).run = none ∧ (s.avg l.val).lock = none) ∧
    (∃ (l : LoopId) (c : Conv) (s d : State), bedActive s (loopBed l.val) = true ∧ (s.loop l.val).stage ≠ 2 ∧ (s.loop l.val).state = .regulating ∧ (s.loop l.val).mode ≠ 2 ∧ (s.loop l.val).source = .dc ∧ (s.loop l.val).measure = none ∧ (s.loop l.val).change = none ∧ (s.loop l.val).changeNext = none ∧ (s.loop l.val).force = none ∧ (s.loop l.val).swap = none ∧ (s.loop l.val).regionSwap = none ∧ (s.loop l.val).autoGoal = none ∧ (s.loop l.val).auto = false ∧ (s.loop l.val).charge = false ∧ (s.loop l.val).chargeOut = false ∧ (s.loop l.val).handoff = none ∧ (s.loop l.val).regions.enable = false ∧ (s.loop l.val).regions.starting = false ∧ (s.loop l.val).declared = .primary ∧ (s.avg l.val).run = none ∧ (s.avg l.val).lock = none ∧ (d = deliver ((s.reach (nextBoundary s l.val)).modLoop l.val (fun x => { x with lastSample := nextBoundary s l.val })) l.val (nextBoundary s l.val) (corrected s l.val c))) ∧
    (∃ (s : State) (l mode : Nat) (sp : Int) (user : Option (Int × Int)) (t : State) (r : Selected) (up ul : Int), regulate s l mode sp user = (t, r) ∧ (up = (evalLaw s l (primaryVolt mode) true (clampI (quantityBounds s l (primaryVolt mode) none).2.2 (quantityBounds s l (primaryVolt mode) none).1.2 sp) (if primaryVolt mode then (s.loop l).lastV else (s.loop l).lastI)).1) ∧ (ul = (evalLaw s l (!primaryVolt mode) false (if r.high then r.hi.2 else r.lo.2) r.x).1)) :=
  ⟨⟨511, ⟨0, 0⟩, lp 511 { stage := 2 }, by decide +kernel⟩,
   ⟨511, ⟨0, 0⟩, on, by decide +kernel⟩,
   ⟨511, ⟨0, 0⟩, lp 511 { state := .frozen }, by decide +kernel⟩,
   ⟨512, ⟨0, 0⟩, lp 512 { state := .regulating }, _, by repeat' (first | decide +kernel | rfl | apply And.intro)⟩,
   ⟨(lp 512 { state := .regulating }), 512, 0, 0, none, _, _, _, _, by exact ⟨rfl, rfl, rfl⟩⟩⟩
theorem witness_loopEvents :
    (∃ (l : LoopId) (s : State), (s.loop l.val).declared ≠ .primary ∧ (s.loop l.val).returnN ≤ (s.loop l.val).returnCount) ∧
    (∃ (l : LoopId) (s : State), ((s.loop l.val).declared = .primary ∨ (s.loop l.val).returnCount < (s.loop l.val).returnN)) ∧
    (∃ (l : LoopId) (s : State), (s.loop l.val).declared ≠ .primary ∧ (s.loop l.val).tripN ≠ 0 ∧ (s.loop l.val).tripCount = (s.loop l.val).tripN) ∧
    (∃ (l : LoopId) (s : State), ((s.loop l.val).declared = .primary ∨ (s.loop l.val).tripN = 0 ∨ (s.loop l.val).tripCount ≠ (s.loop l.val).tripN)) ∧
    (∃ (l : LoopId) (s : State) (g : Nat), (s.loop l.val).autoGoal = some g ∧ (s.loop l.val).state = .regulating ∧ (s.loop l.val).stage ≠ 2 ∧ (s.loop l.val).irange ≠ g) ∧
    (∃ (l : LoopId) (s : State), (s.loop l.val).autoGoal = none) ∧
    (∃ (l : LoopId) (s : State) (c : RangeChange), (s.loop l.val).change = some c ∧ c.count = settleSamples l.val c.oldI c.oldV c.irange c.vrange ∧ (s.loop l.val).state = .settling) ∧
    (∃ (l : LoopId) (s : State), ((s.loop l.val).change = none ∨ (s.loop l.val).state = .frozen)) ∧
    (∃ (l : LoopId) (s : State) (w : Swap), (s.loop l.val).regionSwap = none ∧ (s.loop l.val).swap = some w ∧ (s.loop l.val).state ≠ .frozen ∧ w.cause = 1) ∧
    (∃ (l : LoopId) (s : State) (w : Swap), (s.loop l.val).regionSwap = some w ∧ (s.loop l.val).swap = none ∧ (s.loop l.val).state ≠ .frozen ∧ w.cause ≠ 1) ∧
    (∃ (l : LoopId) (s : State), (s.loop l.val).regionSwap = none ∧ (s.loop l.val).swap = none) ∧
    (∃ (h : Heavy) (s : State), (s.loop (512 + h.val)).dissOver = 64) ∧
    (∃ (h : Heavy) (s : State), (s.loop (512 + h.val)).dissOver ≠ 64) ∧
    (∃ (s : State) (total : Nat), (total = (((List.range 32).map (fun h => 512 + h)).map (fun l => if (s.loop l).stage = 0 ∧ (s.loop l).dissCount ≠ 0 then (s.loop l).dissSum / (s.loop l).dissCount else 0)).sum)) ∧
    (∃ (l : LoopId) (s : State) (r : SweepRun) (ts : Nat), (s.loop l.val).source = .sweep r ∧ (s.loop l.val).state = .regulating ∧ r.start = .at ts ∧ r.begun = 0 ∧ r.left = 0 ∧ 0 < r.steps ∧ (s.swp r.stepFirst).meas = false ∧ (s.swp r.stepFirst).irange = 7 ∧ (s.avg l.val).ended = none) ∧
    (∃ (l : LoopId) (s : State), (∀ r, (s.loop l.val).source ≠ .sweep r)) ∧
    (∃ (l : LoopId) (s : State) (f : ForcePending), (s.loop l.val).force = some f ∧ (s.loop l.val).state = .regulating ∧ f.mode < 2 ∧ (s.loop l.val).mode = f.mode) ∧
    (∃ (l : LoopId) (s : State) (f : ForcePending), (s.loop l.val).force = some f ∧ (s.loop l.val).state = .stopped ∧ (s.loop l.val).isOpen = true ∧ f.mode ≤ 2) ∧
    (∃ (l : LoopId) (s : State) (f : ForcePending), (s.loop l.val).force = some f ∧ f.mode = 3 ∧ ((s.loop l.val).state = .regulating ∨ (s.loop l.val).state = .settling ∨ (s.loop l.val).state = .stopped)) ∧
    (∃ (l : LoopId) (s : State), ((s.loop l.val).force = none ∨ (s.loop l.val).state = .frozen)) ∧
    (∃ (l : LoopId) (v : Int) (s : State) (f : ForcePending), (s.loop l.val).measure = some f) ∧
    (∃ (l : LoopId) (v : Int) (s : State), (s.loop l.val).measure = none) :=
  ⟨⟨511, (lp 511 { declared := .limitHi, returnCount := 32 }), by decide +kernel⟩,
   ⟨511, on, by decide +kernel⟩,
   ⟨511, (lp 511 { declared := .limitHi, tripN := 3, tripCount := 3 }), by decide +kernel⟩,
   ⟨511, on, by decide +kernel⟩,
   ⟨511, (lp 511 { state := .regulating, autoGoal := some 1 }), 1, by decide +kernel⟩,
   ⟨511, on, by decide +kernel⟩,
   ⟨511, (lp 511 { state := .settling, change := some { irange := 1, vrange := 0, oldI := 0, oldV := 0, count := settleSamples 511 0 0 1 0 } }), { irange := 1, vrange := 0, oldI := 0, oldV := 0, count := settleSamples 511 0 0 1 0 }, by decide +kernel⟩,
   ⟨511, on, by decide +kernel⟩,
   ⟨511, (lp 511 { swap := some { due := 9, volt := true, curr := true, cause := 1, region := 0 } }), { due := 9, volt := true, curr := true, cause := 1, region := 0 }, by decide +kernel⟩,
   ⟨511, lp 511 { regionSwap := some { due := 9, volt := true, curr := true, cause := 2, region := 0 } }, { due := 9, volt := true, curr := true, cause := 2, region := 0 }, by decide +kernel⟩,
   ⟨511, on, by decide +kernel⟩,
   ⟨31, (lp 543 { dissOver := 64 }), by decide +kernel⟩,
   ⟨31, on, by decide +kernel⟩,
   ⟨on, 0, by decide +kernel⟩,
   ⟨512, { (lp 512 { state := .regulating, source := .sweep aSweep }) with lp := { (lp 512 { state := .regulating, source := .sweep aSweep }).lp with sweep := [(0, { irange := 7 })] } }, aSweep, 9, by decide +kernel⟩,
   ⟨511, on, by intro r h; nomatch (show Source.dc = Source.sweep r from h)⟩,
   ⟨511, (lp 511 { state := .regulating, force := some { due := 9, mode := 0, value := 0 } }), { due := 9, mode := 0, value := 0 }, by decide +kernel⟩,
   ⟨511, (lp 511 { force := some { due := 9, mode := 1, value := 0 } }), { due := 9, mode := 1, value := 0 }, by decide +kernel⟩,
   ⟨511, lp 511 { state := .regulating, force := some { due := 9, mode := 3, value := 0 } }, { due := 9, mode := 3, value := 0 }, by decide +kernel⟩,
   ⟨511, on, by decide +kernel⟩,
   ⟨511, 0, (lp 511 { measure := some { due := 9, mode := 0, value := 0 } }), { due := 9, mode := 0, value := 0 }, by decide +kernel⟩,
   ⟨511, 0, on, by decide +kernel⟩⟩
theorem witness_engineTables :
    (∃ (s : State) (c : Current), Picked s 0x0406 c ∧ par c 0 ≠ 0 ∧ 1 ≤ par c 1 ∧ par c 1 ≤ 31 ∧ par c 2 = 0) ∧
    (∃ (s : State) (c : Current), Picked s 0x0406 c ∧ par c 1 = 0 ∧ par c 0 ≠ 0 ∧ par c 2 = 0) ∧
    (∃ (s : State) (c : Current) (b : Nat), Picked s 0x0406 c ∧ bedMask (par c 0) = [b] ∧ par c 1 ≤ 31 ∧ par c 2 = 1) ∧
    (∃ (s : State) (b t y : Nat), y < 2 ^ 15) ∧
    (∃ (s : State) (c : Current), Picked s 0x0408 c ∧ par c 2 = 0 ∧ LoopsNamed c ∧ 1 ≤ par c 3 ∧ par c 3 ≤ 3 ∧ (∀ k, 4 ≤ k → k < 9 → par c k = 0) ∧ firstBad (needSet c 9 (bit (par c 3) 0)) = none ∧ firstBad (needSet c 25 (bit (par c 3) 1)) = none ∧ (∀ l ∈ loopRange c 0, (s.loop l).state ≠ .ganged ∧ LoopReady s l)) ∧
    (∃ (s : State) (c : Current) (due : Nat) (words : List Word), Picked s 0x0408 c ∧ par c 2 = 1 ∧ LoopsNamed c ∧ 1 ≤ par c 3 ∧ par c 3 ≤ 3 ∧ WhenFits c 4 ∧ (∀ l ∈ loopRange c 0, (s.loop l).state ≠ .ganged ∧ LoopReady s l ∧ (s.loop l).regions.enable = false) ∧ (due = (if par c 4 = 1 then par64 c 5 else s.clk.time)) ∧ (words = w16 (par c 1) :: w16 (b2n ((loopRange c 0).any (fun l => (s.loop l).swap.isSome))) :: toWords 4 (dueBoundary s (par c 0) due))) ∧
    (∃ (s : State) (c : Current), Picked s 0x0408 c ∧ par c 2 = 1 ∧ LoopsNamed c ∧ 1 ≤ par c 3 ∧ par c 3 ≤ 3 ∧ (∀ k, 4 ≤ k → k < 9 → par c k = 0) ∧ (∀ l ∈ loopRange c 0, (s.loop l).state ≠ .ganged ∧ LoopReady s l) ∧ (∃ l ∈ loopRange c 0, (s.loop l).regions.enable = true)) ∧
    (∃ (s : State) (c : Current) (due : Nat) (words : List Word), Picked s 0x0408 c ∧ par c 2 = 2 ∧ LoopsNamed c ∧ 1 ≤ par c 3 ∧ par c 3 ≤ 3 ∧ WhenFits c 4 ∧ firstBad (needSet c 9 (bit (par c 3) 0)) = none ∧ firstBad (needSet c 25 (bit (par c 3) 1)) = none ∧ (∀ l ∈ loopRange c 0, (s.loop l).state ≠ .ganged ∧ LoopReady s l ∧ (s.loop l).regions.enable = false) ∧ (due = (if par c 4 = 1 then par64 c 5 else s.clk.time)) ∧ (words = w16 (par c 1) :: w16 (b2n ((loopRange c 0).any (fun l => (s.loop l).swap.isSome))) :: toWords 4 (dueBoundary s (par c 0) due))) ∧
    (∃ (s : State) (c : Current), Picked s 0x0408 c ∧ par c 2 = 3 ∧ LoopsNamed c ∧ par c 1 = 1 ∧ 1 ≤ par c 3 ∧ par c 3 ≤ 3 ∧ (∀ k, 4 ≤ k → k < 9 → par c k = 0) ∧ (s.loop (par c 0)).state ≠ .ganged ∧ LoopReady s (par c 0)) ∧
    (∃ (s : State) (c : Current), Picked s 0x0408 c ∧ par c 2 = 3 ∧ LoopsNamed c ∧ par c 1 = 1 ∧ 1 ≤ par c 3 ∧ par c 3 ≤ 3 ∧ (∀ k, 4 ≤ k → k < 9 → par c k = 0) ∧ (s.loop (par c 0)).state ≠ .ganged ∧ calHoldsLoop s (par c 0) = true) ∧
    (∃ (s : State) (l t1 t2 : Nat) (w : Swap), w.cause = 1) ∧
    (∃ (s : State) (c : Current), Picked s 0x0407 c ∧ par c 2 = 0 ∧ LoopsNamed c ∧ par c 3 ≤ 1 ∧ par c 4 ≤ 2 ∧ 1 ≤ par c 5 ∧ par c 5 ≤ 8 ∧ f32Finite (parF c 6) = true ∧ (dec 0 0).le (f32 (parF c 6)) = true ∧ (∀ i, 1 ≤ i → i < par c 5 → f32Finite (parF c (6 + 2 * i)) = true ∧ (2 ≤ i → (f32 (parF c (6 + 2 * (i - 1)))).lt (f32 (parF c (6 + 2 * i))) = true)) ∧ (∀ k, 6 + 2 * par c 5 ≤ k → k < 22 → par c k = 0) ∧ (∀ l ∈ loopRange c 0, (s.loop l).state ≠ .ganged ∧ LoopReady s l)) ∧
    (∃ (s : State) (c : Current), Picked s 0x0407 c ∧ par c 2 = 1 ∧ LoopsNamed c ∧ par c 3 ≤ 7 ∧ 1 ≤ par c 4 ∧ par c 4 ≤ 3 ∧ firstBad (needSet c 5 (bit (par c 4) 0)) = none ∧ firstBad (needSet c 21 (bit (par c 4) 1)) = none ∧ (∀ l ∈ loopRange c 0, (s.loop l).state ≠ .ganged ∧ LoopReady s l)) ∧
    (∃ (s : State) (c : Current), Picked s 0x0407 c ∧ par c 2 = 2 ∧ LoopsNamed c ∧ par c 1 = 1 ∧ (s.loop (par c 0)).state ≠ .ganged ∧ LoopReady s (par c 0)) :=
  ⟨⟨(cmd 1030 [32768, 31, 0, 0, 0, 0, 0, 0, 0, 0, 0, 0, 0, 0, 0, 0, 0, 0, 0, 0]), cur 1030 [32768, 31, 0, 0, 0, 0, 0, 0, 0, 0, 0, 0, 0, 0, 0, 0, 0, 0, 0, 0], by decide +kernel⟩,
   ⟨(cmd 1030 [32768, 0, 0]), cur 1030 [32768, 0, 0], by decide +kernel⟩,
   ⟨(cmd 1030 [32768, 31, 1]), cur 1030 [32768, 31, 1], 15, by decide +kernel⟩,
   ⟨on, 15, 31, 32767, by decide +kernel⟩,
   ⟨(cmd 1032 [511, 1, 0, 3, 0, 0, 0, 0, 0, 0, 0, 0, 0, 0, 0, 0, 0, 0, 0, 0, 0, 0, 1, 0, 0, 0, 0, 0, 0, 0, 0, 0, 0, 0, 0, 0, 0, 0, 1, 0, 0]), cur 1032 [511, 1, 0, 3, 0, 0, 0, 0, 0, 0, 0, 0, 0, 0, 0, 0, 0, 0, 0, 0, 0, 0, 1, 0, 0, 0, 0, 0, 0, 0, 0, 0, 0, 0, 0, 0, 0, 0, 1, 0, 0], by decide +kernel⟩,
   ⟨cmd 1032 [511, 1, 1, 3, 1, 32000, 0, 0, 0] (on), cur 1032 [511, 1, 1, 3, 1, 32000, 0, 0, 0], _, _, by repeat' (first | decide +kernel | rfl | apply And.intro | (intro _ k h1 h2; interval_cases k <;> rfl) | (intro k h1 h2; interval_cases k <;> rfl) | (intro h; exact absurd (by decide +kernel) h))⟩,
   ⟨(cmd 1032 [511, 1, 1, 3, 0, 0, 0, 0, 0] (lp 511 { regions := { enable := true } })), cur 1032 [511, 1, 1, 3, 0, 0, 0, 0, 0], by decide +kernel⟩,
   ⟨cmd 1032 [511, 1, 2, 3, 0, 0, 0, 0, 0, 0, 0, 0, 0, 0, 0, 0, 0, 0, 0, 0, 0, 0, 1, 0, 0, 0, 0, 0, 0, 0, 0, 0, 0, 0, 0, 0, 0, 0, 1, 0, 0], cur 1032 [511, 1, 2, 3, 0, 0, 0, 0, 0, 0, 0, 0, 0, 0, 0, 0, 0, 0, 0, 0, 0, 0, 1, 0, 0, 0, 0, 0, 0, 0, 0, 0, 0, 0, 0, 0, 0, 0, 1, 0, 0], _, _, by repeat' (first | decide +kernel | rfl | apply And.intro | (intro _ k h1 h2; interval_cases k <;> rfl))⟩,
   ⟨(cmd 1032 [511, 1, 3, 3, 0, 0, 0, 0, 0]), cur 1032 [511, 1, 3, 3, 0, 0, 0, 0, 0], by decide +kernel⟩,
   ⟨cmd 1032 [511, 1, 3, 3, 0, 0, 0, 0, 0] (cl { on.cal with run := some { aCalRun with kind := 3, scopes := [15] } }), cur 1032 [511, 1, 3, 3, 0, 0, 0, 0, 0], by decide +kernel, by decide +kernel, (by decide +kernel), by decide +kernel, by decide +kernel, (by decide +kernel), fun k h1 h2 => by interval_cases k <;> rfl, by decide +kernel, by decide +kernel⟩,
   ⟨on, 511, 9, 10, { due := 9, volt := true, curr := true, cause := 1, region := 0 }, by decide +kernel⟩,
   ⟨(cmd 1031 [511, 1, 0, 1, 2, 2, 0, 0, 0, 16256, 0, 0, 0, 0, 0, 0, 0, 0, 0, 0, 0, 0]), cur 1031 [511, 1, 0, 1, 2, 2, 0, 0, 0, 16256, 0, 0, 0, 0, 0, 0, 0, 0, 0, 0, 0, 0], by decide +kernel⟩,
   ⟨(cmd 1031 [511, 1, 1, 7, 3, 0, 0, 0, 0, 0, 0, 0, 0, 0, 0, 0, 0, 0, 1, 0, 0, 0, 0, 0, 0, 0, 0, 0, 0, 0, 0, 0, 0, 0, 1, 0, 0]), cur 1031 [511, 1, 1, 7, 3, 0, 0, 0, 0, 0, 0, 0, 0, 0, 0, 0, 0, 0, 1, 0, 0, 0, 0, 0, 0, 0, 0, 0, 0, 0, 0, 0, 0, 0, 1, 0, 0], by decide +kernel⟩,
   ⟨(cmd 1031 [511, 1, 2]), cur 1031 [511, 1, 2], by decide +kernel⟩⟩
theorem witness_lawArithmetic :
    (∃ (s : State) (l : Nat) (volt primary : Bool) (r x : Int), (activeSet s l volt).uMin ≤ (activeSet s l volt).uMax) ∧
    (∃ (s : State) (l : Nat) (volt primary : Bool) (r x : Int) (w : Law), (w = (if volt then (s.loop l).volt else (s.loop l).curr)) ∧ w.satHi = true ∧ (activeSet s l volt).uMin * 65536 ≤ w.integ ∧ w.integ ≤ (activeSet s l volt).uMax * 65536) ∧
    (∃ (s : State) (l : Nat) (volt primary : Bool) (r x : Int) (w : Law), (w = (if volt then (s.loop l).volt else (s.loop l).curr)) ∧ w.satLo = true ∧ (activeSet s l volt).uMin * 65536 ≤ w.integ ∧ w.integ ≤ (activeSet s l volt).uMax * 65536) ∧
    (∃ (k : CoefSet) (shift : Nat) (u own : Int) (w : Law), k.uMin ≤ k.uMax) :=
  ⟨⟨on, 511, true, true, 5, 3, by decide +kernel⟩,
   ⟨(lp 511 { volt := { satHi := true } }), 511, true, true, 5, 3, { satHi := true }, by decide +kernel⟩,
   ⟨(lp 511 { volt := { satLo := true } }), 511, true, true, 5, 3, { satLo := true }, by decide +kernel⟩,
   ⟨{}, 3, 7, 9, {}, by decide +kernel⟩⟩
theorem witness_generators :
    (∃ (s : State) (c : Current), Picked s 0x0409 c ∧ LoopsNamed c ∧ f32Finite (parF c 2) = true ∧ (∀ k, k = 4 ∨ k = 6 ∨ k = 8 → f32Finite (parF c k) = true ∧ (dec 0 0).lt (f32 (parF c k)) = true) ∧ StartFits c 10 ∧ par c 15 < 16 ∧ (∀ p ∈ profilePlans s c (loopRange c 0), p.2.nj ≤ 0xFFFFFFFF ∧ p.2.na ≤ 0xFFFFFFFF ∧ p.2.nv ≤ 0xFFFFFFFF) ∧ TagsFree s c (par c 1) ∧ (∀ l ∈ loopRange c 0, SourceReady s l ∧ inNominal s l (primaryVolt (s.loop l).mode) (s.loop l).irange (s.loop l).vrange (f32 (parF c 2)) = true)) ∧
    (∃ (s : State) (c : Current), Picked s 0x0409 c ∧ LoopsNamed c ∧ par c 1 = 1 ∧ f32Finite (parF c 2) = true ∧ (∀ k, k = 4 ∨ k = 6 ∨ k = 8 → f32Finite (parF c k) = true ∧ (dec 0 0).lt (f32 (parF c k)) = true) ∧ StartFits c 10 ∧ par c 15 < 16 ∧ (∀ p ∈ profilePlans s c (loopRange c 0), p.2.nj ≤ 0xFFFFFFFF ∧ p.2.na ≤ 0xFFFFFFFF ∧ p.2.nv ≤ 0xFFFFFFFF) ∧ TagsFree s c 1 ∧ inNominal s (par c 0) (primaryVolt (s.loop (par c 0)).mode) (s.loop (par c 0)).irange (s.loop (par c 0)).vrange (f32 (parF c 2)) = true ∧ (s.loop (par c 0)).state = .regulating ∧ (s.loop (par c 0)).mode ≠ 2 ∧ chargeOutside s (par c 0) = false ∧ (s.loop (par c 0)).source ≠ .dc) ∧
    (∃ (l : LoopId) (s : State) (r : ProfileRun), (s.loop l.val).source = .profile r ∧ r.begun = true ∧ r.k = profileLen r) ∧
    (∃ (l : LoopId) (s : State), (∀ r, (s.loop l.val).source = .profile r → r.begun = false ∨ r.k ≠ profileLen r)) ∧
    (∃ (s : State) (l t : Nat) (r : ProfileRun), (s.loop l).source = .profile r ∧ r.begun = false ∧ started r.start t = true) ∧
    (∃ (s : State) (l t : Nat) (r : ProfileRun) (v : Int), (s.loop l).source = .profile r ∧ r.begun = true ∧ r.k + 1 = profileLen r ∧ started r.start t = true ∧ r.target = v * 2 ^ 48 ∧ -32767 ≤ v ∧ v ≤ 32767) ∧
    (∃ (s : State) (c : Current), Picked s 0x040A c ∧ par c 0 < 1024 ∧ 64 * par32 c 1 + 2 * par32 c 3 ≤ patternBytes s ∧ 16 ≤ par32 c 3 ∧ par32 c 3 ≤ 1048576 ∧ par c 5 = 0 ∧ tagInUse s c.tag.toNat = false ∧ waveListed s (par c 0) = false ∧ blocksUsed s (par c 0) + waveBlocks (par32 c 3) ≤ 32768) ∧
    (∃ (s : State) (c : Current), Picked s 0x040A c ∧ par c 0 < 1024 ∧ (par c 5).testBit 0 = true ∧ tagInUse s c.tag.toNat = false ∧ waveListed s (par c 0) = false) ∧
    (∃ (ue : Bool) (s : State) (l : WaveLoad) (r : List WaveLoad), s.lp.waveLoads = l :: r) ∧
    (∃ (ue : Bool) (s : State), s.lp.waveLoads = []) ∧
    (∃ (s : State) (c : Current), Picked s 0x040B c ∧ par c 2 = 0 ∧ par c 3 = 0 ∧ LoopsNamed c ∧ StartFits c 4 ∧ par c 9 < 32 ∧ f32Finite (parF c 12) = true ∧ 1 ≤ par c 14 ∧ par c 14 ≤ 26 ∧ (∀ i, i < par c 14 → par c (15 + 4 * i) < 1024 ∧ s.waveSeg (par c (15 + 4 * i)) ≠ [] ∧ 1 ≤ par32 c (16 + 4 * i) ∧ par32 c (16 + 4 * i) ≤ 2 ^ 31 ∧ par c (18 + 4 * i) ≠ 0) ∧ TagsFree s c (par c 1) ∧ (∀ l ∈ loopRange c 0, SourceReady s l ∧ inNominal s l (primaryVolt (s.loop l).mode) (s.loop l).irange (s.loop l).vrange (f32 (parF c 12)) = true)) ∧
    (∃ (s : State) (c : Current), Picked s 0x040B c ∧ par c 2 = 1 ∧ LoopsNamed c ∧ (∀ l ∈ loopRange c 0, LoopReady s l ∧ (s.loop l).state ≠ .cloche ∧ (s.loop l).state ≠ .ganged ∧ ∃ r, (s.loop l).source = .wave r ∧ par c 3 < r.entries.length)) ∧
    (∃ (r : WaveRun) (size target nr : Nat) (d : Bool), waveNext r ≠ none ∧ r.jump = some (target, some nr, d)) ∧
    (∃ (s : State) (c : Current), Picked s 0x040B c ∧ par c 2 = 2 ∧ par c 3 = 0 ∧ LoopsNamed c ∧ (∀ l ∈ loopRange c 0, LoopReady s l ∧ (s.loop l).state ≠ .cloche ∧ (s.loop l).state ≠ .ganged ∧ ∃ r, (s.loop l).source = .wave r)) ∧
    (∃ (s : State) (l t : Nat) (r : WaveRun), (s.loop l).source = .wave r ∧ r.ended = false ∧ r.stopping = true) ∧
    (∃ (l : LoopId) (s : State) (r : WaveRun), (s.loop l.val).source = .wave r ∧ r.ended = true) ∧
    (∃ (l : LoopId) (s : State), (∀ r, (s.loop l.val).source = .wave r → r.ended = false)) ∧
    (∃ (s : State) (c : Current), Picked s 0x040C c ∧ par c 2 = 0 ∧ LoopsNamed c ∧ (par c 0 < 512 → par32 c 3 ≤ 2748779069) ∧ f32Finite (parF c 7) = true ∧ (dec 0 0).le (f32 (parF c 7)) = true ∧ f32Finite (parF c 9) = true ∧ StartFits c 15 ∧ par c 20 < 32 ∧ (bit (par c 20) 1 = true → s.link.syncValid = true) ∧ TagsFree s c (par c 1) ∧ (∀ l ∈ loopRange c 0, SourceReady s l ∧ inNominal s l (primaryVolt (s.loop l).mode) (s.loop l).irange (s.loop l).vrange ((f32 (parF c 9)).add (f32 (parF c 7))) = true ∧ inNominal s l (primaryVolt (s.loop l).mode) (s.loop l).irange (s.loop l).vrange ((f32 (parF c 9)).sub (f32 (parF c 7))) = true)) ∧
    (∃ (s : State) (c : Current) (tc : Nat), Picked s 0x040C c ∧ par c 2 = 1 ∧ LoopsNamed c ∧ (par c 0 < 512 → par32 c 3 ≤ 2748779069) ∧ f32Finite (parF c 7) = true ∧ (dec 0 0).le (f32 (parF c 7)) = true ∧ f32Finite (parF c 9) = true ∧ WhenFits c 15 ∧ par c 20 < 32 ∧ (bit (par c 20) 1 = true → s.link.syncValid = true) ∧ (∀ l ∈ loopRange c 0, LoopReady s l ∧ (s.loop l).state ≠ .cloche ∧ (s.loop l).state ≠ .ganged ∧ (∃ r, (s.loop l).source = .sine r) ∧ inNominal s l (primaryVolt (s.loop l).mode) (s.loop l).irange (s.loop l).vrange ((f32 (parF c 9)).add (f32 (parF c 7))) = true ∧ inNominal s l (primaryVolt (s.loop l).mode) (s.loop l).irange (s.loop l).vrange ((f32 (parF c 9)).sub (f32 (parF c 7))) = true) ∧ (tc = (if par c 15 = 1 then par64 c 16 else nextBoundary s (par c 0)))) ∧
    (∃ (s : State) (c : Current) (tc : Nat), Picked s 0x040C c ∧ par c 2 = 2 ∧ LoopsNamed c ∧ WhenFits c 15 ∧ par c 20 < 32 ∧ (bit (par c 20) 1 = true → s.link.syncValid = true) ∧ (∀ l ∈ loopRange c 0, LoopReady s l ∧ (s.loop l).state ≠ .cloche ∧ (s.loop l).state ≠ .ganged ∧ ∃ r, (s.loop l).source = .sine r) ∧ (tc = (if par c 15 = 1 then par64 c 16 else nextBoundary s (par c 0)))) ∧
    (∃ (l : LoopId) (s : State) (r : SineRun) (k : SineChange), (s.loop l.val).source = .sine r ∧ r.change = some k) ∧
    (∃ (l : LoopId) (s : State), (∀ r, (s.loop l.val).source = .sine r → r.change = none)) ∧
    (∃ (s : State) (l t : Nat) (r : SineRun), (s.loop l).source = .sine r ∧ r.change = none ∧ r.stopAt = none ∧ r.begun.isSome = true ∧ started r.start t = true) ∧
    (∃ (l : LoopId) (s : State) (r : SineRun), (s.loop l.val).source = .sine r ∧ r.cycles ≠ 0 ∧ r.cycles ≤ r.turns ∧ r.stopping = false) ∧
    (∃ (l : LoopId) (s : State), (∀ r, (s.loop l.val).source = .sine r → r.cycles = 0 ∨ r.turns < r.cycles ∨ r.stopping = true)) ∧
    (∃ (l : LoopId) (s : State) (r : SineRun), (s.loop l.val).source = .sine r ∧ r.quiet = true) ∧
    (∃ (l : LoopId) (s : State), (∀ r, (s.loop l.val).source = .sine r → r.quiet = false)) :=
  ⟨⟨cmd 1033 [512, 1, 0, 16128, 0, 16256, 0, 16256, 0, 16256, 0, 0, 0, 0, 0, 0] (lp 512 { state := .regulating }), cur 1033 [512, 1, 0, 16128, 0, 16256, 0, 16256, 0, 16256, 0, 0, 0, 0, 0, 0], by repeat' (first | decide +kernel | rfl | apply And.intro | exact ⟨_, rfl⟩ | exact ⟨_, rfl, by decide +kernel⟩ | (intro k h; rcases h with h | h | h <;> subst h <;> decide +kernel) | (apply Or.inl; decide +kernel) | (intro _ k h1 h2; interval_cases k <;> rfl) | (intro l h; obtain rfl := List.mem_singleton.1 (show l ∈ [512] from h)) | (intro k h1 h2; interval_cases k <;> rfl) | (intro h; exact absurd (by decide +kernel) h))⟩,
   ⟨cmd 1033 [512, 1, 0, 16128, 0, 16256, 0, 16256, 0, 16256, 0, 0, 0, 0, 0, 0] (lp 512 { state := .regulating, source := .wave aWave }), cur 1033 [512, 1, 0, 16128, 0, 16256, 0, 16256, 0, 16256, 0, 0, 0, 0, 0, 0], by repeat' (first | decide +kernel | rfl | apply And.intro | exact ⟨_, rfl⟩ | exact ⟨_, rfl, by decide +kernel⟩ | (intro k h; rcases h with h | h | h <;> subst h <;> decide +kernel) | (apply Or.inl; decide +kernel) | (intro _ k h1 h2; interval_cases k <;> rfl) | (intro l h; obtain rfl := List.mem_singleton.1 (show l ∈ [512] from h)) | (intro k h1 h2; interval_cases k <;> rfl) | (intro h; exact absurd (by decide +kernel) h))⟩,
   ⟨511, (lp 511 { source := .profile { aProfile with k := profileLen aProfile } }), { aProfile with k := profileLen aProfile }, by decide +kernel⟩,
   ⟨511, on, by intro r h; nomatch (show Source.dc = Source.profile r from h)⟩,
   ⟨lp 511 { source := .profile { aProfile with begun := false } }, 511, 9, { aProfile with begun := false }, by decide +kernel⟩,
   ⟨lp 511 { source := .profile { aProfile with begun := true, k := profileLen aProfile - 1, target := 100 * 2 ^ 48 } }, 511, 9, { aProfile with begun := true, k := profileLen aProfile - 1, target := 100 * 2 ^ 48 }, 100, by decide +kernel⟩,
   ⟨(cmd 1034 [1023, 0, 0, 16, 0, 0] (run {})), cur 1034 [1023, 0, 0, 16, 0, 0], by decide +kernel⟩,
   ⟨cmd 1034 [1023, 0, 0, 16, 0, 1] (run {}), cur 1034 [1023, 0, 0, 16, 0, 1], by decide +kernel⟩,
   ⟨false, { on with lp := { on.lp with waveLoads := [{ tag := 5, ring := 0, seg := 3, addr := 0, samples := 16, void := false }] } }, { tag := 5, ring := 0, seg := 3, addr := 0, samples := 16, void := false }, [], by decide +kernel⟩,
   ⟨true, on, by decide +kernel⟩,
   ⟨cmd 1035 [512, 1, 0, 0, 0, 0, 0, 0, 0, 0, 0, 0, 0, 0, 1, 0, 1, 0, 1] ({ lp 512 { state := .regulating } with lp := { (lp 512 { state := .regulating }).lp with wave := [(0, [1, 2])] } }), cur 1035 [512, 1, 0, 0, 0, 0, 0, 0, 0, 0, 0, 0, 0, 0, 1, 0, 1, 0, 1], by repeat' (first | decide +kernel | rfl | apply And.intro | exact ⟨_, rfl⟩ | exact ⟨_, rfl, by decide +kernel⟩ | (apply Or.inl; decide +kernel) | (intro _ k h1 h2; interval_cases k <;> rfl) | (intro l h; obtain rfl := List.mem_singleton.1 (show l ∈ [512] from h)) | (intro k h1 h2; interval_cases k <;> rfl) | (intro k h; rcases h with h | h | h <;> subst h <;> decide +kernel) | (intro h; exact absurd (by decide +kernel) h))⟩,
   ⟨cmd 1035 [512, 1, 1, 0] (lp 512 { source := .wave aWave }), cur 1035 [512, 1, 1, 0], by repeat' (first | decide +kernel | rfl | apply And.intro | exact ⟨_, rfl⟩ | exact ⟨_, rfl, by decide +kernel⟩ | (apply Or.inl; decide +kernel) | (intro _ k h1 h2; interval_cases k <;> rfl) | (intro l h; obtain rfl := List.mem_singleton.1 (show l ∈ [512] from h)) | (intro k h1 h2; interval_cases k <;> rfl) | (intro k h; rcases h with h | h | h <;> subst h <;> decide +kernel) | (intro h; exact absurd (by decide +kernel) h))⟩,
   ⟨{ aWave with passes := 2, jump := some (0, some 1, false) }, 2, 0, 1, false, by decide +kernel⟩,
   ⟨cmd 1035 [512, 1, 2, 0] (lp 512 { source := .wave aWave }), cur 1035 [512, 1, 2, 0], by repeat' (first | decide +kernel | rfl | apply And.intro | exact ⟨_, rfl⟩ | exact ⟨_, rfl, by decide +kernel⟩ | (apply Or.inl; decide +kernel) | (intro _ k h1 h2; interval_cases k <;> rfl) | (intro l h; obtain rfl := List.mem_singleton.1 (show l ∈ [512] from h)) | (intro k h1 h2; interval_cases k <;> rfl) | (intro k h; rcases h with h | h | h <;> subst h <;> decide +kernel) | (intro h; exact absurd (by decide +kernel) h))⟩,
   ⟨lp 511 { source := .wave { aWave with stopping := true } }, 511, 9, { aWave with stopping := true }, by decide +kernel⟩,
   ⟨511, (lp 511 { source := .wave { aWave with ended := true } }), { aWave with ended := true }, by decide +kernel⟩,
   ⟨511, on, by intro r h; nomatch (show Source.dc = Source.wave r from h)⟩,
   ⟨cmd 1036 [512, 1, 0, 0, 0, 0, 0, 0, 0, 0, 0, 0, 0, 0, 0, 1, 32000, 0, 0, 0, 0] (lp 512 { state := .regulating }), cur 1036 [512, 1, 0, 0, 0, 0, 0, 0, 0, 0, 0, 0, 0, 0, 0, 1, 32000, 0, 0, 0, 0], by repeat' (first | decide +kernel | rfl | apply And.intro | exact ⟨_, rfl⟩ | exact ⟨_, rfl, by decide +kernel⟩ | (apply Or.inl; decide +kernel) | (intro _ k h1 h2; interval_cases k <;> rfl) | (intro l h; obtain rfl := List.mem_singleton.1 (show l ∈ [512] from h)) | (intro k h1 h2; interval_cases k <;> rfl) | (intro k h; rcases h with h | h | h <;> subst h <;> decide +kernel) | (intro h; exact absurd (by decide +kernel) h))⟩,
   ⟨cmd 1036 [512, 1, 1, 0, 0, 0, 0, 0, 0, 0, 0, 0, 0, 0, 0, 1, 32000, 0, 0, 0, 0] (lp 512 { source := .sine aSine }), cur 1036 [512, 1, 1, 0, 0, 0, 0, 0, 0, 0, 0, 0, 0, 0, 0, 1, 32000, 0, 0, 0, 0], _, by repeat' (first | decide +kernel | rfl | apply And.intro | exact ⟨_, rfl⟩ | exact ⟨_, rfl, by decide +kernel⟩ | (apply Or.inl; decide +kernel) | (intro _ k h1 h2; interval_cases k <;> rfl) | (intro l h; obtain rfl := List.mem_singleton.1 (show l ∈ [512] from h)) | (intro k h1 h2; interval_cases k <;> rfl) | (intro k h; rcases h with h | h | h <;> subst h <;> decide +kernel) | (intro h; exact absurd (by decide +kernel) h))⟩,
   ⟨cmd 1036 [512, 1, 2, 0, 0, 0, 0, 0, 0, 0, 0, 0, 0, 0, 0, 1, 32000, 0, 0, 0, 0] (lp 512 { source := .sine aSine }), cur 1036 [512, 1, 2, 0, 0, 0, 0, 0, 0, 0, 0, 0, 0, 0, 0, 1, 32000, 0, 0, 0, 0], _, by repeat' (first | decide +kernel | rfl | apply And.intro | exact ⟨_, rfl⟩ | exact ⟨_, rfl, by decide +kernel⟩ | (apply Or.inl; decide +kernel) | (intro _ k h1 h2; interval_cases k <;> rfl) | (intro l h; obtain rfl := List.mem_singleton.1 (show l ∈ [512] from h)) | (intro k h1 h2; interval_cases k <;> rfl) | (intro k h; rcases h with h | h | h <;> subst h <;> decide +kernel) | (intro h; exact absurd (by decide +kernel) h))⟩,
   ⟨511, lp 511 { source := .sine { aSine with change := some { tc := 9, fw := 2, absolute := false, phi0 := 0, amp := ⟨0, 1⟩, offset := ⟨0, 1⟩, rampN := 0 } } }, { aSine with change := some { tc := 9, fw := 2, absolute := false, phi0 := 0, amp := ⟨0, 1⟩, offset := ⟨0, 1⟩, rampN := 0 } }, { tc := 9, fw := 2, absolute := false, phi0 := 0, amp := ⟨0, 1⟩, offset := ⟨0, 1⟩, rampN := 0 }, by decide +kernel⟩,
   ⟨511, on, by intro r h; nomatch (show Source.dc = Source.sine r from h)⟩,
   ⟨lp 511 { source := .sine aSine }, 511, 9, aSine, by decide +kernel⟩,
   ⟨511, (lp 511 { source := .sine { aSine with cycles := 3, turns := 3 } }), { aSine with cycles := 3, turns := 3 }, by decide +kernel⟩,
   ⟨511, on, by intro r h; nomatch (show Source.dc = Source.sine r from h)⟩,
   ⟨511, lp 511 { source := .sine { aSine with quiet := true } }, { aSine with quiet := true }, by decide +kernel⟩,
   ⟨511, on, by intro r h; nomatch (show Source.dc = Source.sine r from h)⟩⟩
theorem witness_measurementRuns :
    (∃ (s : State) (c : Current), Picked s 0x0500 c ∧ par c 2 % 2 = 0 ∧ LoopsNamed c ∧ par c 2 < 16 ∧ (bit (par c 2) 1 = true ∨ bit (par c 2) 2 = true) ∧ 1 ≤ par32 c 3 ∧ par32 c 3 ≤ 16777216 ∧ (∀ l ∈ loopRange c 0, calHoldsConv s (loopBed l) = false ∧ bedActive s (loopBed l) = true)) ∧
    (∃ (s : State) (c : Current), Picked s 0x0500 c ∧ par c 2 % 2 = 1 ∧ par c 2 < 16 ∧ LoopsNamed c ∧ par c 1 = 1 ∧ calHoldsConv s (loopBed (par c 0)) = false ∧ bedActive s (loopBed (par c 0)) = true) ∧
    (∃ (s : State) (c : Current), Picked s 0x0501 c ∧ par c 0 = 0 ∧ MeasNamed c ∧ par c 4 ≤ 1 ∧ (par c 4 = 1 → par32 c 7 = 0 ∧ 1 ≤ par c 9) ∧ (par c 4 = 0 → par c 9 = 0) ∧ StartFits c 10 ∧ par c 15 < 8 ∧ (par c 1 = 1 → 1 ≤ par32 c 16 ∧ par32 c 16 ≤ 16777216) ∧ (par c 1 = 0 → par32 c 16 = 0) ∧ (par c 18 = 0xFFFF ∨ (s.ring (par c 18)).state ≠ .free) ∧ TagsFree s c (measKeys c).length ∧ (∀ k ∈ measKeys c, calHoldsConv s (keyBed k) = false ∧ bedActive s (keyBed k) = true ∧ avgBusy s k = false)) ∧
    (∃ (s : State) (c : Current), Picked s 0x0501 c ∧ par c 0 = 1 ∧ MeasNamed c ∧ (∀ k ∈ measKeys c, calHoldsConv s (keyBed k) = false ∧ bedActive s (keyBed k) = true ∧ ∃ r, (s.avg k).run = some r ∧ r.slot = (if par c 1 = 1 then some (par c 3) else none) ∧ (r.win ≠ none ∨ r.rawV.first ≠ none ∨ r.rawI.first ≠ none))) ∧
    (∃ (s : State) (c : Current) (k : Nat) (r : MeasRun), Picked s 0x0501 c ∧ par c 0 = 1 ∧ MeasNamed c ∧ measKeys c = [k] ∧ calHoldsConv s (keyBed k) = false ∧ bedActive s (keyBed k) = true ∧ (s.avg k).run = some r ∧ (r.slot = (if par c 1 = 1 then some (par c 3) else none)) ∧ r.win = none ∧ r.rawV.first = none ∧ r.rawI.first = none ∧ r.units = 0 ∧ r.rawV.credit = false ∧ r.rawI.credit = false) ∧
    (∃ (s : State) (c : Current), Picked s 0x0501 c ∧ par c 0 = 1 ∧ MeasNamed c ∧ (∀ k ∈ measKeys c, calHoldsConv s (keyBed k) = false ∧ bedActive s (keyBed k) = true) ∧ (∃ k ∈ measKeys c, (s.avg k).run = none)) ∧
    (∃ (s : State) (c : Current), Picked s 0x0502 c ∧ par c 0 = 0 ∧ 1 ≤ par c 2 ∧ par c 1 + par c 2 ≤ 544 ∧ (512 ≤ par c 1 ∨ par c 1 + par c 2 ≤ 512) ∧ (par c 3 = 0xFFFF ∨ (par c 3 < 544 ∧ ∀ l ∈ loopRange c 1, loopBed l = loopBed (par c 3))) ∧ 1 ≤ par c 4 ∧ par c 4 ≤ 15 ∧ 1 ≤ par c 5 ∧ par c 5 ≤ 3 ∧ 1 ≤ par32 c 6 ∧ StartFits c 10 ∧ par c 15 < 8 ∧ (par c 16 = 0xFFFF ∨ (s.ring (par c 16)).state ≠ .free) ∧ TagsFree s c (par c 2) ∧ (∀ l ∈ loopRange c 1, calHoldsConv s (loopBed l) = false ∧ bedActive s (loopBed l) = true ∧ avgBusy s l = false ∧ (sineOn s (lockRef c l)).isSome = true ∧ ∃ n, lockTwice s c l = some n ∧ n ≤ 2 ^ 24)) ∧
    (∃ (s : State) (c : Current), Picked s 0x0502 c ∧ par c 0 = 1 ∧ 1 ≤ par c 2 ∧ par c 1 + par c 2 ≤ 544 ∧ (512 ≤ par c 1 ∨ par c 1 + par c 2 ≤ 512) ∧ (∀ l ∈ loopRange c 1, calHoldsConv s (loopBed l) = false ∧ bedActive s (loopBed l) = true ∧ ∃ r, (s.avg l).lock = some r ∧ (r.win ≠ none ∨ r.ended ≠ none))) ∧
    (∃ (s : State) (c : Current) (r : LockRun), Picked s 0x0502 c ∧ par c 0 = 1 ∧ par c 2 = 1 ∧ par c 1 < 544 ∧ calHoldsConv s (loopBed (par c 1)) = false ∧ bedActive s (loopBed (par c 1)) = true ∧ (s.avg (par c 1)).lock = some r ∧ r.win = none ∧ r.ended = none ∧ r.credit = false) ∧
    (∃ (a : AvgId) (s : State) (k : Nat) (r : MeasRun) (w : Window), k = avgKey a ∧ (s.avg k).run = some r ∧ r.win = some w ∧ w.size ≤ w.n ∧ (r.units ≠ 0 → r.units = windowUnits w.size (w.chV && w.chI) ∧ stageRoom s (keyBed k) (windowUnits w.size (w.chV && w.chI)) ≠ none) ∧ r.stopping = false ∧ r.done + 1 ≠ r.blocks) ∧
    (∃ (a : AvgId) (s : State) (k : Nat) (r : MeasRun) (w : Window), k = avgKey a ∧ (s.avg k).run = some r ∧ r.win = some w ∧ w.size ≤ w.n ∧ (r.units ≠ 0 → r.units = windowUnits w.size (w.chV && w.chI) ∧ stageRoom s (keyBed k) (windowUnits w.size (w.chV && w.chI)) ≠ none) ∧ r.rawV.credit = false ∧ r.rawI.credit = false ∧ (r.stopping = true ∨ r.done + 1 = r.blocks)) ∧
    (∃ (a : AvgId) (s : State) (k : Nat) (r : MeasRun) (w : Window), k = avgKey a ∧ (s.avg k).run = some r ∧ r.win = some w ∧ w.size ≤ w.n ∧ r.units ≠ 0 ∧ (s.ring r.ring).state ≠ .free ∧ stageRoom s (keyBed k) (windowUnits w.size (w.chV && w.chI)) = none) ∧
    (∃ (a : AvgId) (s : State), (∀ r w, (s.avg (avgKey a)).run = some r → r.win = some w → w.n < w.size)) ∧
    (∃ (a : AvgId) (ch : Fin 2) (s : State) (k : Nat) (r : MeasRun) (b o : RawBuf) (x : Sample), k = avgKey a ∧ (s.avg k).run = some r ∧ (b = (if ch.val = 0 then r.rawV else r.rawI)) ∧ (o = (if ch.val = 0 then r.rawI else r.rawV)) ∧ b.full = true ∧ b.first = some x ∧ b.codes.length = 64 ∧ b.credit = true ∧ stageRoom s (keyBed k) 10 ≠ none ∧ r.done + 1 ≠ r.blocks ∧ (r.stopping = false ∨ o.first ≠ none)) ∧
    (∃ (a : AvgId) (ch : Fin 2) (s : State) (k : Nat) (r : MeasRun) (b o : RawBuf) (x : Sample), k = avgKey a ∧ (s.avg k).run = some r ∧ (b = (if ch.val = 0 then r.rawV else r.rawI)) ∧ (o = (if ch.val = 0 then r.rawI else r.rawV)) ∧ b.full = true ∧ b.first = some x ∧ b.codes.length = 64 ∧ b.credit = true ∧ stageRoom s (keyBed k) 10 ≠ none ∧ (r.done + 1 = r.blocks ∨ (r.stopping = true ∧ o.first = none)) ∧ r.units = 0 ∧ o.credit = false) ∧
    (∃ (a : AvgId) (s : State) (k : Nat) (r : MeasRun) (x : Sample), k = avgKey a ∧ (s.avg k).run = some r ∧ r.rawV.full = true ∧ r.rawV.first = some x ∧ r.rawV.credit = false ∧ ringDrops s r.ring = false) ∧
    (∃ (a : AvgId) (ch : Fin 2) (s : State), (∀ r, (s.avg (avgKey a)).run = some r → (if ch.val = 0 then r.rawV else r.rawI).full = false)) ∧
    (∃ (l : LoopId) (s : State) (r : LockRun) (w : Window) (b : Bool), (s.avg l.val).lock = some r ∧ r.ended = some (w, b) ∧ (b = true → stageRoom s (loopBed l.val) (if r.v && r.i then 5 else 4) ≠ none) ∧ r.stopping = false ∧ r.done + 1 ≠ r.blocks) ∧
    (∃ (l : LoopId) (s : State) (r : LockRun) (w : Window) (b : Bool), (s.avg l.val).lock = some r ∧ r.ended = some (w, b) ∧ (b = true → stageRoom s (loopBed l.val) (if r.v && r.i then 5 else 4) ≠ none) ∧ (r.stopping = true ∨ r.done + 1 = r.blocks) ∧ r.credit = false) ∧
    (∃ (l : LoopId) (s : State), (∀ r, (s.avg l.val).lock = some r → r.ended = none)) :=
  ⟨⟨(cmd 1280 [511, 1, 14, 1, 0]), cur 1280 [511, 1, 14, 1, 0], by decide +kernel⟩,
   ⟨(cmd 1280 [511, 1, 1]), cur 1280 [511, 1, 1], by decide +kernel⟩,
   ⟨cmd 1281 [0, 0, 511, 1, 0, 0, 0, 0, 0, 0, 0, 0, 0, 0, 0, 0, 0, 0, 65535] (on), cur 1281 [0, 0, 511, 1, 0, 0, 0, 0, 0, 0, 0, 0, 0, 0, 0, 0, 0, 0, 65535], by repeat' (first | decide +kernel | rfl | apply And.intro | (intro _ k h1 h2; interval_cases k <;> rfl) | (intro k h1 h2; interval_cases k <;> rfl) | (intro h; exact absurd (by decide +kernel) h))⟩,
   ⟨cmd 1281 [1, 1, 15, 169] (av 2063 { run := some { aMeas with slot := some 169, win := some {} } }), cur 1281 [1, 1, 15, 169], by repeat' (first | decide +kernel | rfl | apply And.intro | exact ⟨_, rfl⟩ | exact ⟨_, rfl, by decide +kernel⟩ | (apply Or.inl; decide +kernel) | (intro _ k h1 h2; interval_cases k <;> rfl) | (intro l h; obtain rfl := List.mem_singleton.1 (show l ∈ [2063] from h)) | (intro k h1 h2; interval_cases k <;> rfl) | (intro k h; rcases h with h | h | h <;> subst h <;> decide +kernel) | (intro h; exact absurd (by decide +kernel) h))⟩,
   ⟨(cmd 1281 [1, 1, 15, 169] (av 2063 { run := some { aMeas with slot := some 169 } })), cur 1281 [1, 1, 15, 169], 2063, { aMeas with slot := some 169 }, by decide +kernel⟩,
   ⟨(cmd 1281 [1, 0, 511, 1]), cur 1281 [1, 0, 511, 1], by decide +kernel⟩,
   ⟨cmd 1282 [0, 512, 1, 65535, 15, 3, 1, 0, 0, 0, 0, 0, 0, 0, 0, 0, 65535] (lp 512 { source := .sine { aSine with fw := 4000000000 } }), cur 1282 [0, 512, 1, 65535, 15, 3, 1, 0, 0, 0, 0, 0, 0, 0, 0, 0, 65535], by repeat' (first | decide +kernel | rfl | apply And.intro | exact ⟨_, rfl⟩ | exact ⟨_, rfl, by decide +kernel⟩ | (apply Or.inl; decide +kernel) | (intro _ k h1 h2; interval_cases k <;> rfl) | (intro l h; obtain rfl := List.mem_singleton.1 (show l ∈ [512] from h)) | (intro k h1 h2; interval_cases k <;> rfl) | (intro k h; rcases h with h | h | h <;> subst h <;> decide +kernel) | (intro h; exact absurd (by decide +kernel) h))⟩,
   ⟨cmd 1282 [1, 512, 1] (av 512 { lock := some { aLock with win := some {} } }), cur 1282 [1, 512, 1], by repeat' (first | decide +kernel | rfl | apply And.intro | exact ⟨_, rfl⟩ | exact ⟨_, rfl, by decide +kernel⟩ | (apply Or.inl; decide +kernel) | (intro _ k h1 h2; interval_cases k <;> rfl) | (intro l h; obtain rfl := List.mem_singleton.1 (show l ∈ [512] from h)) | (intro k h1 h2; interval_cases k <;> rfl) | (intro k h; rcases h with h | h | h <;> subst h <;> decide +kernel) | (intro h; exact absurd (by decide +kernel) h))⟩,
   ⟨cmd 1282 [1, 512, 1] (av 512 { lock := some aLock }), cur 1282 [1, 512, 1], aLock, by decide +kernel⟩,
   ⟨.loop 512, av 512 { run := some { aMeas with win := some { n := 1 } } }, 512, { aMeas with win := some { n := 1 } }, { n := 1 }, by decide +kernel⟩,
   ⟨.loop 512, av 512 { run := some { aMeas with blocks := 1, win := some { n := 1 } } }, 512, { aMeas with blocks := 1, win := some { n := 1 } }, { n := 1 }, by decide +kernel⟩,
   ⟨.loop 512, full 0 (av 512 { run := some { aMeas with ring := 3, units := 5, win := some { n := 1 } } }), 512, { aMeas with ring := 3, units := 5, win := some { n := 1 } }, { n := 1 }, by decide +kernel⟩,
   ⟨.monitor 15, on, by intro r w h; nomatch (show (none : Option MeasRun) = some r from h)⟩,
   ⟨.monitor 15, 0, av 2063 { run := some { aMeas with raw := true, rawV := { codes := List.replicate 64 0, first := some aSample, credit := true, full := true } } }, 2063, { aMeas with raw := true, rawV := { codes := List.replicate 64 0, first := some aSample, credit := true, full := true } }, { codes := List.replicate 64 0, first := some aSample, credit := true, full := true }, {}, aSample, by decide +kernel⟩,
   ⟨.monitor 15, 0, av 2063 { run := some { aMeas with raw := true, blocks := 1, rawV := { codes := List.replicate 64 0, first := some aSample, credit := true, full := true } } }, 2063, { aMeas with raw := true, blocks := 1, rawV := { codes := List.replicate 64 0, first := some aSample, credit := true, full := true } }, { codes := List.replicate 64 0, first := some aSample, credit := true, full := true }, {}, aSample, by decide +kernel⟩,
   ⟨.monitor 15, full 0 (av 2063 { run := some { aMeas with raw := true, ring := 3, rawV := { codes := List.replicate 64 0, first := some aSample, full := true } } }), 2063, { aMeas with raw := true, ring := 3, rawV := { codes := List.replicate 64 0, first := some aSample, full := true } }, aSample, by decide +kernel⟩,
   ⟨.monitor 15, 1, on, by intro r h; nomatch (show (none : Option MeasRun) = some r from h)⟩,
   ⟨512, (av 512 { lock := some { aLock with ended := some ({}, true) } }), { aLock with ended := some ({}, true) }, {}, by decide +kernel⟩,
   ⟨512, av 512 { lock := some { aLock with blocks := 1, ended := some ({}, true) } }, { aLock with blocks := 1, ended := some ({}, true) }, {}, true, by decide +kernel⟩,
   ⟨511, on, by intro r h; nomatch (show (none : Option LockRun) = some r from h)⟩⟩
theorem witness_averagingArithmetic :
    (∃ (s : State) (key : Nat) (w : Window) (x : Sample), (x.settling = true ∨ x.held = true)) ∧
    (∃ (s : State) (key : Nat) (w : Window) (x : Sample), x.settling = false ∧ x.held = false ∧ w.first = none) ∧
    (∃ (n : Nat) (l : List Int), 1 ≤ n ∧ n ≤ 2 ^ 24 ∧ l.length ≤ n ∧ (∀ c ∈ l, -32768 ≤ c ∧ c ≤ 32767)) ∧
    (∃ (n : Nat) (c : Int), 1 ≤ n ∧ n ≤ 2 ^ 24 ∧ -32768 ≤ c ∧ c ≤ 32767) :=
  ⟨⟨on, 511, {}, { aSample with held := true }, by decide +kernel⟩,
   ⟨on, 511, {}, aSample, by decide +kernel⟩,
   ⟨2, [-32768, 32767], by decide +kernel⟩,
   ⟨16777216, -32768, by decide +kernel⟩⟩
theorem witness_windowMonitors :
    (∃ (s : State) (c : Current), Picked s 0x0700 c ∧ par c 0 = 0 ∧ 1 ≤ par c 2 ∧ par c 1 + par c 2 ≤ 64 ∧ par c 3 ≤ 39 ∧ par c 4 ≤ 40 ∧ par c 4 ≠ par c 3 ∧ f32Finite (parF c 5) = true ∧ (dec (-32768) 3).le (f32 (parF c 5)) = true ∧ (f32 (parF c 5)).le (dec 32767 3) = true ∧ par c 7 < 256 ∧ (par c 9 = 0xFFFF ∨ (s.ring (par c 9)).state ≠ .free) ∧ (∀ u ∈ wmUnits c, calHoldsConv s (u / 4) = false ∧ (s.wmon u).enable = false)) ∧
    (∃ (s : State) (c : Current), Picked s 0x0700 c ∧ par c 0 = 1 ∧ 1 ≤ par c 2 ∧ par c 1 + par c 2 ≤ 64 ∧ (∀ u ∈ wmUnits c, calHoldsConv s (u / 4) = false)) ∧
    (∃ (s : State) (c : Current), Picked s 0x0700 c ∧ par c 0 = 2 ∧ 1 ≤ par c 2 ∧ par c 1 + par c 2 ≤ 64 ∧ (∀ u ∈ wmUnits c, calHoldsConv s (u / 4) = false)) ∧
    (∃ (s : State) (c : Current), Picked s 0x0700 c ∧ par c 0 = 3 ∧ 1 ≤ par c 2 ∧ par c 1 + par c 2 ≤ 64 ∧ (∀ u ∈ wmUnits c, calHoldsConv s (u / 4) = false)) ∧
    (∃ (s : State) (c : Current), Picked s 0x0700 c ∧ par c 0 = 4 ∧ par c 1 < 64 ∧ par c 2 = 1 ∧ calHoldsConv s (par c 1 / 4) = false) ∧
    (∃ (u : Monitor) (high : Bool) (s : State) (y : Monitoring), (s.wmon u.val).enable = true ∧ s.bedPow (u.val / 4) ≠ .standby ∧ (s.wmon u.val).settling = false ∧ y = { s.wmon u.val with decision := high, unresolved := false } ∧ (wmTripping y = false ∨ y.tripped = true)) ∧
    (∃ (u : Monitor) (high : Bool) (s : State) (y : Monitoring), (s.wmon u.val).enable = true ∧ s.bedPow (u.val / 4) ≠ .standby ∧ (s.wmon u.val).settling = false ∧ y = { s.wmon u.val with decision := high, unresolved := false } ∧ wmTripping y = true ∧ y.tripped = false) ∧
    (∃ (u : Monitor) (high : Bool) (s : State), ((s.wmon u.val).enable = false ∨ s.bedPow (u.val / 4) = .standby ∨ (s.wmon u.val).settling = true)) ∧
    (∃ (u : Monitor) (r : Option Bool) (s : State) (y : Monitoring), (s.wmon u.val).enable = true ∧ s.bedPow (u.val / 4) ≠ .standby ∧ (s.wmon u.val).settling = true ∧ y = { s.wmon u.val with settling := false, decision := r.getD (s.wmon u.val).decision, unresolved := r.isNone && decide ((s.wmon u.val).modeword % 4 ≠ 0) } ∧ (wmTripping y = false ∨ y.tripped = true)) ∧
    (∃ (u : Monitor) (r : Option Bool) (s : State) (y : Monitoring), (s.wmon u.val).enable = true ∧ s.bedPow (u.val / 4) ≠ .standby ∧ (s.wmon u.val).settling = true ∧ y = { s.wmon u.val with settling := false, decision := r.getD (s.wmon u.val).decision, unresolved := r.isNone && decide ((s.wmon u.val).modeword % 4 ≠ 0) } ∧ wmTripping y = true ∧ y.tripped = false) ∧
    (∃ (u : Monitor) (r : Option Bool) (s : State), ((s.wmon u.val).enable = false ∨ s.bedPow (u.val / 4) = .standby ∨ (s.wmon u.val).settling = false)) ∧
    (∃ (u : Monitor) (s : State), (s.wmon u.val).enable = true ∧ s.bedPow (u.val / 4) ≠ .standby ∧ (s.wmon u.val).period ≠ 0 ∧ (s.wmon u.val).periodEnd ≤ s.clk.time) ∧
    (∃ (u : Monitor) (s : State), ((s.wmon u.val).enable = false ∨ s.bedPow (u.val / 4) = .standby ∨ (s.wmon u.val).period = 0)) :=
  ⟨⟨(cmd 1792 [0, 63, 1, 39, 40, 0, 0, 255, 0, 65535]), cur 1792 [0, 63, 1, 39, 40, 0, 0, 255, 0, 65535], by decide +kernel⟩,
   ⟨(cmd 1792 [1, 63, 1]), cur 1792 [1, 63, 1], by decide +kernel⟩,
   ⟨(cmd 1792 [2, 63, 1]), cur 1792 [2, 63, 1], by decide +kernel⟩,
   ⟨(cmd 1792 [3, 63, 1]), cur 1792 [3, 63, 1], by decide +kernel⟩,
   ⟨(cmd 1792 [4, 63, 1]), cur 1792 [4, 63, 1], by decide +kernel⟩,
   ⟨63, true, wm 63 { enable := true, modeword := 24 }, _, by repeat' (first | decide +kernel | rfl | apply And.intro | (intro _ k h1 h2; interval_cases k <;> rfl) | (intro k h1 h2; interval_cases k <;> rfl) | (intro h; exact absurd (by decide +kernel) h))⟩,
   ⟨63, true, wm 63 { enable := true, modeword := 0x28 }, _, by repeat' (first | decide +kernel | rfl | apply And.intro | (intro _ k h1 h2; interval_cases k <;> rfl) | (intro k h1 h2; interval_cases k <;> rfl) | (intro h; exact absurd (by decide +kernel) h))⟩,
   ⟨63, true, on, by decide +kernel⟩,
   ⟨63, some true, wm 63 { enable := true, settling := true, modeword := 24 }, _, by repeat' (first | decide +kernel | rfl | apply And.intro | (intro _ k h1 h2; interval_cases k <;> rfl) | (intro k h1 h2; interval_cases k <;> rfl) | (intro h; exact absurd (by decide +kernel) h))⟩,
   ⟨63, some true, wm 63 { enable := true, settling := true, modeword := 0x28 }, _, by repeat' (first | decide +kernel | rfl | apply And.intro | (intro _ k h1 h2; interval_cases k <;> rfl) | (intro k h1 h2; interval_cases k <;> rfl) | (intro h; exact absurd (by decide +kernel) h))⟩,
   ⟨63, true, on, by decide +kernel⟩,
   ⟨63, (wm 63 { enable := true, period := 3 }), by decide +kernel⟩,
   ⟨63, on, by decide +kernel⟩⟩
theorem witness_intervalRuns :
    (∃ (s : State) (c : Current), Picked s 0x0600 c ∧ 1 ≤ par c 1 ∧ par c 0 + par c 1 ≤ 32 ∧ par c 2 = 0 ∧ par c 3 ≤ 4 ∧ selOk (par c 4) = true ∧ selSource (par c 4) ≠ 63 ∧ (¬ (par c 3 = 2 ∧ selEdge (par c 4) = 2)) ∧ (par c 3 = 2 ∨ (selOk (par c 5) = true ∧ ¬ (par c 3 = 0 ∧ selSource (par c 5) = 63))) ∧ 1 ≤ par32 c 6 ∧ par32 c 6 ≤ 16777216 ∧ 1 ≤ par c 8 ∧ (∀ u ∈ timUnits c 0, calHoldsUnit s u = false ∧ bedActive s (u / 2) = true ∧ (s.tiu u).run = none)) ∧
    (∃ (s : State) (c : Current), Picked s 0x0600 c ∧ 1 ≤ par c 1 ∧ par c 0 + par c 1 ≤ 32 ∧ par c 2 = 0 ∧ par c 3 ≤ 4 ∧ selSource (par c 4) = 63) ∧
    (∃ (s : State) (c : Current), Picked s 0x0600 c ∧ par c 0 < 32 ∧ par c 1 = 1 ∧ par c 2 = 1 ∧ (∀ k, 3 ≤ k → k < 10 → par c k = 0) ∧ calHoldsUnit s (par c 0) = false ∧ bedActive s (par c 0 / 2) = true) ∧
    (∃ (s : State) (c : Current), Picked s 0x0601 c ∧ par c 0 = 0 ∧ 1 ≤ par c 2 ∧ par c 1 + par c 2 ≤ 32 ∧ StartFits c 5 ∧ par c 10 < 8 ∧ (par c 11 = 0xFFFF ∨ (s.ring (par c 11)).state ≠ .free) ∧ TagsFree s c (par c 2) ∧ s.clk.refPresent = true ∧ s.clk.holdover = false ∧ (∀ u ∈ timUnits c 1, calHoldsUnit s u = false ∧ bedActive s (u / 2) = true ∧ (s.tiu u).run = none ∧ timBad (s.tiu u).mode (s.tiu u).startSel (s.tiu u).stopSel (s.tiu u).n (s.tiu u).gate = none)) ∧
    (∃ (s : State) (c : Current), Picked s 0x0601 c ∧ par c 0 = 0 ∧ 1 ≤ par c 2 ∧ par c 1 + par c 2 ≤ 32 ∧ StartFits c 5 ∧ par c 10 < 8 ∧ (par c 11 = 0xFFFF ∨ (s.ring (par c 11)).state ≠ .free) ∧ TagsFree s c (par c 2) ∧ (s.clk.refPresent = false ∨ s.clk.holdover = true)) ∧
    (∃ (s : State) (c : Current), Picked s 0x0601 c ∧ par c 0 = 1 ∧ 1 ≤ par c 2 ∧ par c 1 + par c 2 ≤ 32 ∧ (∀ k ∈ timUnits c 1, calHoldsUnit s k = false ∧ bedActive s (k / 2) = true ∧ (s.tiu k).mode ≠ 4 ∧ ∃ r, (s.tiu k).run = some r ∧ (r.win.running = true ∨ r.win.credit = true))) ∧
    (∃ (s : State) (c : Current) (k : Nat) (r : TimRun), Picked s 0x0601 c ∧ par c 0 = 1 ∧ k = par c 1 ∧ par c 1 < 32 ∧ par c 2 = 1 ∧ calHoldsUnit s k = false ∧ bedActive s (k / 2) = true ∧ (s.tiu k).run = some r ∧ r.win.credit = false ∧ ((s.tiu k).mode = 4 ∧ r.record = none ∨ (s.tiu k).mode ≠ 4 ∧ r.win.running = false ∧ started r.start s.clk.time = false)) ∧
    (∃ (s : State) (c : Current), Picked s 0x0601 c ∧ par c 0 = 1 ∧ 1 ≤ par c 2 ∧ par c 1 + par c 2 ≤ 32 ∧ (∀ k ∈ timUnits c 1, calHoldsUnit s k = false ∧ bedActive s (k / 2) = true) ∧ (∃ k ∈ timUnits c 1, (s.tiu k).run = none)) :=
  ⟨⟨(cmd 1536 [31, 1, 0, 0, 48, 49, 1, 0, 1, 0]), cur 1536 [31, 1, 0, 0, 48, 49, 1, 0, 1, 0], by decide +kernel⟩,
   ⟨(cmd 1536 [31, 1, 0, 4, 63, 0, 0, 0, 0, 0]), cur 1536 [31, 1, 0, 4, 63, 0, 0, 0, 0, 0], by decide +kernel⟩,
   ⟨(cmd 1536 [31, 1, 1, 0, 0, 0, 0, 0, 0, 0]), cur 1536 [31, 1, 1, 0, 0, 0, 0, 0, 0, 0], by decide +kernel⟩,
   ⟨cmd 1537 [0, 31, 1, 0, 0, 0, 0, 0, 0, 0, 0, 65535] (tm 31 { startSel := 48, stopSel := 48, n := 9 }), cur 1537 [0, 31, 1, 0, 0, 0, 0, 0, 0, 0, 0, 65535], by repeat' (first | decide +kernel | rfl | apply And.intro | (intro _ k h1 h2; interval_cases k <;> rfl) | (intro k h1 h2; interval_cases k <;> rfl) | (intro h; exact absurd (by decide +kernel) h))⟩,
   ⟨cmd 1537 [0, 31, 1, 0, 0, 0, 0, 0, 0, 0, 0, 65535] ({ on with clk := { on.clk with refPresent := false } }), cur 1537 [0, 31, 1, 0, 0, 0, 0, 0, 0, 0, 0, 65535], by repeat' (first | decide +kernel | rfl | apply And.intro | (intro _ k h1 h2; interval_cases k <;> rfl) | (intro k h1 h2; interval_cases k <;> rfl) | (intro h; exact absurd (by decide +kernel) h))⟩,
   ⟨cmd 1537 [1, 0, 1] (tm 0 { run := some { aTim with win := { running := true } } }), cur 1537 [1, 0, 1], by repeat' (first | decide +kernel | rfl | apply And.intro | exact ⟨_, rfl⟩ | exact ⟨_, rfl, by decide +kernel⟩ | (apply Or.inl; decide +kernel) | (intro _ k h1 h2; interval_cases k <;> rfl) | (intro l h; obtain rfl := List.mem_singleton.1 (show l ∈ [0] from h)) | (intro k h1 h2; interval_cases k <;> rfl) | (intro k h; rcases h with h | h | h <;> subst h <;> decide +kernel) | (intro h; exact absurd (by decide +kernel) h))⟩,
   ⟨cmd 1537 [1, 31, 1] (tm 31 { run := some { aTim with start := .at 9 } }), cur 1537 [1, 31, 1], 31, { aTim with start := .at 9 }, by decide +kernel⟩,
   ⟨cmd 1537 [1, 0, 1] (on), cur 1537 [1, 0, 1], by decide +kernel⟩⟩
theorem witness_intervalEvents :
    (∃ (u : TimeUnit) (stop fall : Bool) (e : Nat) (s : State), (∀ x, ¬ EdgeTaken s u.val stop e fall x)) ∧
    (∃ (u : TimeUnit) (stop fall : Bool) (e x : Nat) (s : State), EdgeTaken s u.val stop e fall x ∧ (s.tiu u.val).run = none ∧ (∀ a, (if stop then (s.tiu u.val).lastStop else (s.tiu u.val).lastStart) = some a → a + 2048 ≤ x)) ∧
    (∃ (u : TimeUnit) (fall : Bool) (e x a : Nat) (s : State), EdgeTaken s u.val true e fall x ∧ (s.tiu u.val).lastStop = some a ∧ x < a + 2048) ∧
    (∃ (u : TimeUnit) (fall : Bool) (e x a : Nat) (s : State), EdgeTaken s u.val false e fall x ∧ (s.tiu u.val).lastStart = some a ∧ x < a + 2048) ∧
    (∃ (u : TimeUnit) (fall : Bool) (e x ts : Nat) (s : State) (r : TimRun), EdgeTaken s u.val false e fall x ∧ (∀ a, (s.tiu u.val).lastStart = some a → a + 2048 ≤ x) ∧ ((s.tiu u.val).mode = 0 ∨ (s.tiu u.val).mode = 2) ∧ (s.tiu u.val).run = some r ∧ r.start = .at ts ∧ ts ≤ x / 256 ∧ r.armed = none ∧ (r.win.running = true ∨ r.win.credit = true)) ∧
    (∃ (u : TimeUnit) (fall : Bool) (e x ts a : Nat) (s : State) (r : TimRun), EdgeTaken s u.val true e fall x ∧ (∀ b, (s.tiu u.val).lastStop = some b → b + 2048 ≤ x) ∧ ((s.tiu u.val).mode = 0 ∨ (s.tiu u.val).mode = 2) ∧ (s.tiu u.val).run = some r ∧ r.start = .at ts ∧ ts ≤ x / 256 ∧ r.armed = some a ∧ a < x ∧ x < a + 2 ^ 48 - 1 ∧ ((s.tiu u.val).timeout = 0 ∨ x < a + (s.tiu u.val).timeout * 819200) ∧ r.stepped = false ∧ r.win.running = true ∧ 1 ≤ r.win.n ∧ r.win.n + 1 < (s.tiu u.val).n) ∧
    (∃ (u : TimeUnit) (fall : Bool) (e x ts a : Nat) (s : State) (r : TimRun), EdgeTaken s u.val true e fall x ∧ (∀ b, (s.tiu u.val).lastStop = some b → b + 2048 ≤ x) ∧ ((s.tiu u.val).mode = 0 ∨ (s.tiu u.val).mode = 2) ∧ (s.tiu u.val).run = some r ∧ r.start = .at ts ∧ ts ≤ x / 256 ∧ r.armed = some a ∧ (r.win.running = true ∨ r.win.credit = true) ∧ (a + 2 ^ 48 - 1 ≤ x ∨ ((s.tiu u.val).timeout ≠ 0 ∧ a + (s.tiu u.val).timeout * 819200 ≤ x))) ∧
    (∃ (u : TimeUnit) (fall : Bool) (e x ts a : Nat) (s : State) (r : TimRun), EdgeTaken s u.val false e fall x ∧ (∀ b, (s.tiu u.val).lastStart = some b → b + 2048 ≤ x) ∧ (s.tiu u.val).mode = 1 ∧ (s.tiu u.val).run = some r ∧ r.start = .at ts ∧ ts ≤ x / 256 ∧ r.armed = some a ∧ r.armMiss = (s.tiu u.val).missStart ∧ r.stepped = false ∧ r.win.running = true ∧ 1 ≤ r.win.n ∧ r.win.n + 1 < (s.tiu u.val).n) ∧
    (∃ (u : TimeUnit) (fall : Bool) (e x ts : Nat) (s : State) (r : TimRun), EdgeTaken s u.val false e fall x ∧ (∀ b, (s.tiu u.val).lastStart = some b → b + 2048 ≤ x) ∧ (s.tiu u.val).mode = 3 ∧ (s.tiu u.val).run = some r ∧ r.start = .at ts ∧ ts ≤ x / 256 ∧ (r.win.running = true ∨ r.win.credit = true) ∧ x / 256 / (3200 * (s.tiu u.val).gate) * (3200 * (s.tiu u.val).gate) ≤ gatesTo r) ∧
    (∃ (u : TimeUnit) (fall : Bool) (e x ts : Nat) (s : State) (r : TimRun) (b : StampRec), EdgeTaken s u.val true e fall x ∧ (∀ a, (s.tiu u.val).lastStop = some a → a + 2048 ≤ x) ∧ (s.tiu u.val).mode = 4 ∧ (s.tiu u.val).run = some r ∧ r.start = .at ts ∧ ts ≤ x / 256 ∧ (s.tiu u.val).fifo = [] ∧ (s.tiu u.val).freshNext = false ∧ r.record = some b ∧ b.entries.length < 64 ∧ b.unref = s.clk.holdover) ∧
    (∃ (u : TimeUnit) (fall : Bool) (e x ts : Nat) (s : State) (r : TimRun), EdgeTaken s u.val true e fall x ∧ (∀ a, (s.tiu u.val).lastStop = some a → a + 2048 ≤ x) ∧ (s.tiu u.val).mode = 4 ∧ (s.tiu u.val).run = some r ∧ r.start = .at ts ∧ ts ≤ x / 256 ∧ (s.tiu u.val).fifo.length = 1024) ∧
    (∃ (u : TimeUnit) (s : State) (r : TimRun) (b : Nat), (s.tiu u.val).mode = 3 ∧ (s.tiu u.val).run = some r ∧ 1 ≤ (s.tiu u.val).gate ∧ (r.win.running = true ∨ r.win.credit = true) ∧ b = roundUp (max s.clk.time (gatesTo r + 1)) (3200 * (s.tiu u.val).gate) ∧ started r.start b = true ∧ r.gateK < 2) ∧
    (∃ (u : TimeUnit) (s : State) (r : TimRun) (b : Nat), (s.tiu u.val).mode = 3 ∧ (s.tiu u.val).run = some r ∧ 1 ≤ (s.tiu u.val).gate ∧ b = roundUp (max s.clk.time (gatesTo r + 1)) (3200 * (s.tiu u.val).gate) ∧ started r.start b = true ∧ 2 ≤ r.gateK ∧ r.stepped = false ∧ r.win.running = true ∧ 1 ≤ r.win.n ∧ r.win.n + 1 < (s.tiu u.val).n) ∧
    (∃ (u : TimeUnit) (s : State), ((s.tiu u.val).mode ≠ 3 ∨ (s.tiu u.val).run = none)) ∧
    (∃ (u : TimeUnit) (s : State) (r : TimRun) (a : Nat), ((s.tiu u.val).mode = 0 ∨ (s.tiu u.val).mode = 2) ∧ (s.tiu u.val).run = some r ∧ r.armed = some a) ∧
    (∃ (u : TimeUnit) (s : State), (∀ r, (s.tiu u.val).run = some r → r.armed = none ∨ ((s.tiu u.val).mode ≠ 0 ∧ (s.tiu u.val).mode ≠ 2))) ∧
    (∃ (u : TimeUnit) (s : State) (r : TimRun) (b : StampRec) (e : Stamp) (l : List Stamp), (s.tiu u.val).run = some r ∧ r.record = some b ∧ b.entries = e :: l ∧ (s.tiu u.val).fifo = [] ∧ (r.win.credit = true → b.entries.length = 64 ∧ stageRoom s (u.val / 2) 35 ≠ none) ∧ r.stopping = false ∧ r.done + 1 ≠ r.blocks) ∧
    (∃ (u : TimeUnit) (s : State), (∀ r, (s.tiu u.val).run = some r → r.record = none)) :=
  ⟨⟨31, true, false, 5120, on, fun x h => by obtain ⟨a, b, h1, h2, h3, _⟩ := h; cases h1; exact absurd h3 (by decide +kernel)⟩,
   ⟨31, true, false, 5120, 5120, tmPad { startSel := 0, stopSel := 0, n := 9 }, ⟨0, 0, by decide +kernel⟩, by decide +kernel, fun a h => nomatch (show (none : Option Nat) = some a from h)⟩,
   ⟨31, false, 5120, 5120, 5000, tmPad { startSel := 0, stopSel := 0, n := 9, lastStop := some 5000 }, ⟨0, 0, by decide +kernel⟩, by decide +kernel, by decide +kernel⟩,
   ⟨31, false, 5120, 5120, 5000, tmPad { startSel := 0, stopSel := 0, n := 9, lastStart := some 5000 }, ⟨0, 0, by decide +kernel⟩, by decide +kernel, by decide +kernel⟩,
   ⟨31, false, 5120, 5120, 0, tmPad { startSel := 0, stopSel := 0, n := 9, run := some { aTim with win := { running := true } } }, { aTim with win := { running := true } }, ⟨0, 0, by decide +kernel⟩, (fun a h => nomatch (show (none : Option Nat) = some a from h)), by decide +kernel, by decide +kernel, (by decide +kernel), by decide +kernel, by decide +kernel, (by decide +kernel)⟩,
   ⟨31, false, 5120, 5120, 0, 5, tmPad { startSel := 0, stopSel := 0, n := 9, run := some { aTim with win := { n := 1, running := true }, armed := some 5 } }, { aTim with win := { n := 1, running := true }, armed := some 5 }, ⟨0, 0, by decide +kernel⟩, (fun a h => nomatch (show (none : Option Nat) = some a from h)), by decide +kernel, by decide +kernel, (by decide +kernel), by decide +kernel, by decide +kernel, (by decide +kernel), by decide +kernel, by decide +kernel, (by decide +kernel), by decide +kernel, by decide +kernel⟩,
   ⟨31, false, 2 ^ 48 + 4864, 2 ^ 48 + 4864, 0, 5, tmPad { startSel := 0, stopSel := 0, n := 9, run := some { aTim with win := { n := 1, running := true }, armed := some 5 } }, { aTim with win := { n := 1, running := true }, armed := some 5 }, ⟨0, 0, by decide +kernel⟩, (fun a h => nomatch (show (none : Option Nat) = some a from h)), by decide +kernel, by decide +kernel, (by decide +kernel), by decide +kernel, by decide +kernel, (by decide +kernel), by decide +kernel⟩,
   ⟨31, false, 5120, 5120, 0, 5, tmPad { startSel := 0, stopSel := 0, n := 9, mode := 1, run := some { aTim with win := { n := 1, running := true }, armed := some 5 } }, { aTim with win := { n := 1, running := true }, armed := some 5 }, ⟨0, 0, by decide +kernel⟩, (fun a h => nomatch (show (none : Option Nat) = some a from h)), by decide +kernel, by decide +kernel, (by decide +kernel), by decide +kernel, by decide +kernel, (by decide +kernel), by decide +kernel, by decide +kernel, (by decide +kernel), by decide +kernel⟩,
   ⟨31, false, 5120, 5120, 0, tmPad { startSel := 0, stopSel := 0, n := 9, mode := 3, run := some { aTim with win := { n := 1, running := true }, armed := some 5 } }, { aTim with win := { n := 1, running := true }, armed := some 5 }, ⟨0, 0, by decide +kernel⟩, (fun a h => nomatch (show (none : Option Nat) = some a from h)), by decide +kernel, by decide +kernel, (by decide +kernel), by decide +kernel, by decide +kernel, (by decide +kernel)⟩,
   ⟨31, false, 5120, 5120, 0, tmPad { startSel := 0, stopSel := 0, n := 9, mode := 4, run := some { aTim with record := some { entries := [], unref := false } } }, { aTim with record := some { entries := [], unref := false } }, { entries := [], unref := false }, ⟨0, 0, by decide +kernel⟩, (fun a h => nomatch (show (none : Option Nat) = some a from h)), by decide +kernel, by decide +kernel, (by decide +kernel), by decide +kernel, by decide +kernel, (by decide +kernel), by decide +kernel, by decide +kernel, (by decide +kernel)⟩,
   ⟨31, false, 5120, 5120, 0, tmPad { startSel := 0, stopSel := 0, n := 9, mode := 4, fifo := List.replicate 1024 ⟨0, false, false, false, 0, false, false⟩, run := some { aTim with record := some { entries := [], unref := false } } }, { aTim with record := some { entries := [], unref := false } }, ⟨0, 0, by decide +kernel⟩, (fun a h => nomatch (show (none : Option Nat) = some a from h)), by decide +kernel, by decide +kernel, (by decide +kernel), by decide +kernel, by decide +kernel⟩,
   ⟨31, tm 31 { mode := 3, run := some { aTim with win := { running := true } } }, { aTim with win := { running := true } }, _, by repeat' (first | decide +kernel | rfl | apply And.intro | (intro _ k h1 h2; interval_cases k <;> rfl) | (intro k h1 h2; interval_cases k <;> rfl) | (intro h; exact absurd (by decide +kernel) h))⟩,
   ⟨31, tm 31 { mode := 3, n := 9, run := some { aTim with gateK := 2, win := { n := 1, running := true } } }, { aTim with gateK := 2, win := { n := 1, running := true } }, _, by repeat' (first | decide +kernel | rfl | apply And.intro | (intro _ k h1 h2; interval_cases k <;> rfl) | (intro k h1 h2; interval_cases k <;> rfl) | (intro h; exact absurd (by decide +kernel) h))⟩,
   ⟨31, on, by decide +kernel⟩,
   ⟨31, (tm 31 { startSel := 48, stopSel := 48, n := 9, run := some { aTim with armed := some 5 } }), { aTim with armed := some 5 }, 5, by decide +kernel⟩,
   ⟨31, on, by intro r h; nomatch (show (none : Option TimRun) = some r from h)⟩,
   ⟨31, tm 31 { run := some { aTim with record := some ⟨[⟨0, false, false, false, 0, false, false⟩], false⟩ } }, { aTim with record := some ⟨[⟨0, false, false, false, 0, false, false⟩], false⟩ }, ⟨[⟨0, false, false, false, 0, false, false⟩], false⟩, ⟨0, false, false, false, 0, false, false⟩, [], by decide +kernel⟩,
   ⟨31, on, by intro r h; nomatch (show (none : Option TimRun) = some r from h)⟩⟩
theorem witness_intervalStatistics :
    (∃ (s : State) (u x first : Nat) (unref : Bool) (r : TimRun), (s.tiu u).run = some r ∧ r.win.running = true ∧ r.win.n = 0 ∧ 1 < (s.tiu u).n) ∧
    (∃ (s : State) (u x first : Nat) (unref : Bool) (r : TimRun), (s.tiu u).run = some r ∧ r.win.running = true ∧ 1 ≤ r.win.n ∧ r.win.n + 1 < (s.tiu u).n) ∧
    (∃ (s : State) (u x first : Nat) (unref : Bool) (r : TimRun), (s.tiu u).run = some r) ∧
    (∃ (w : TimWindow), 1 ≤ w.n ∧ w.sd = 0 ∧ w.sq = 0 ∧ w.x0 < 2 ^ 48) ∧
    (∃ (w : TimWindow), w.n = 0) ∧
    (∃ (w : TimWindow), w.n = 1) :=
  ⟨⟨tm 31 { n := 9, run := some { aTim with win := { running := true } } }, 31, 7, 9, true, { aTim with win := { running := true } }, by decide +kernel⟩,
   ⟨tm 31 { n := 9, run := some { aTim with win := { n := 1, running := true } } }, 31, 7, 9, true, { aTim with win := { n := 1, running := true } }, by decide +kernel⟩,
   ⟨tm 31 { n := 9, run := some { aTim with win := { running := true } } }, 31, 7, 9, true, { aTim with win := { running := true } }, by decide +kernel⟩,
   ⟨{ n := 3, x0 := 7 }, by decide +kernel⟩,
   ⟨{}, by decide +kernel⟩,
   ⟨{ n := 1 }, by decide +kernel⟩⟩
theorem witness_ringCommands :
    (∃ (s : State) (c : Current) (b : Nat), Picked s 0x0800 c ∧ par c 1 ≤ 18 ∧ par c 2 ≤ 1 ∧ 0 < s.bus.dramMib ∧ (s.ring (par c 0)).state = .free ∧ freeBase s (4096 * 2 ^ par c 1) = some b) ∧
    (∃ (s : State) (c : Current), Picked s 0x0800 c ∧ par c 1 ≤ 18 ∧ par c 2 ≤ 1 ∧ 0 < s.bus.dramMib ∧ (s.ring (par c 0)).state = .free ∧ freeBase s (4096 * 2 ^ par c 1) = none) ∧
    (∃ (s : State) (c : Current), Picked s 0x0800 c ∧ 18 < par c 1) ∧
    (∃ (s : State) (c : Current), Picked s 0x0800 c ∧ par c 1 ≤ 18 ∧ par c 2 ≤ 1 ∧ 0 < s.bus.dramMib ∧ (s.ring (par c 0)).state ≠ .free) ∧
    (∃ (s : State) (c : Current), Picked s 0x0801 c ∧ 0 < s.bus.dramMib ∧ (s.ring (par c 0)).state ≠ .free ∧ (∀ e ∈ s.fw.progress, e.2.state = .running → e.2.ring.toNat ≠ par c 0) ∧ ringDrained s (par c 0) = true) ∧
    (∃ (s : State) (c : Current), Picked s 0x0801 c ∧ 0 < s.bus.dramMib ∧ (s.ring (par c 0)).state ≠ .free ∧ (∀ e ∈ s.fw.progress, e.2.state = .running → e.2.ring.toNat ≠ par c 0) ∧ ringDrained s (par c 0) = false) ∧
    (∃ (s : State) (c : Current) (r : Nat), s.fw.current = some c ∧ c.wait = .ringDrain r) ∧
    (∃ (s : State) (c : Current) (e : Nat × Progress), Picked s 0x0801 c ∧ 0 < s.bus.dramMib ∧ (s.ring (par c 0)).state ≠ .free ∧ (s.fw.progress.find? (fun e => decide (e.2.state = .running) && decide (e.2.ring.toNat = par c 0)) = some e)) ∧
    (∃ (s : State) (c : Current), Picked s 0x0801 c ∧ 0 < s.bus.dramMib ∧ (s.ring (par c 0)).state = .free) ∧
    (∃ (s : State) (c : Current), Picked s 0x0802 c ∧ 1 ≤ par c 1 ∧ par c 0 + par c 1 ≤ 65536 ∧ par c 2 = 1 ∧ par c 3 ≤ 1 ∧ 0 < s.bus.dramMib ∧ (∀ r ∈ rangeFrom (par c 0) (par c 1), (s.ring r).state ≠ .free ∧ (par c 3 = 1 → (s.ring r).waiters = [])) ∧ (par c 3 = 1 → s.harv.ends = [])) ∧
    (∃ (s : State) (c : Current) (key n : Nat) (r : MeasRun), Picked s 0x0802 c ∧ par c 1 = 1 ∧ par c 2 = 1 ∧ par c 3 = 1 ∧ 0 < s.bus.dramMib ∧ (s.ring (par c 0)).state = .live ∧ (s.ring (par c 0)).waiters = [(.measWindow key, n)] ∧ s.harv.ends = [] ∧ (s.avg key).run = some r ∧ r.slot = none) ∧
    (∃ (s : State) (c : Current) (due : Bool), Picked s 0x0802 c ∧ par c 1 = 1 ∧ par c 2 = 2 ∧ 0 < s.bus.dramMib ∧ (s.ring (par c 0)).state ≠ .free ∧ (due = decide (par32 c 4 ≠ 0 ∧ par32 c 4 ≤ posDiff (s.ring (par c 0)).wr (s.ring (par c 0)).rel))) ∧
    (∃ (s : State) (c : Current), Picked s 0x0802 c ∧ par c 1 = 1 ∧ par c 2 = 4 ∧ 0 < s.bus.dramMib ∧ (s.ring (par c 0)).state ≠ .free) ∧
    (∃ (s : State) (c : Current), Picked s 0x0802 c ∧ par c 1 = 1 ∧ par c 2 = 4 ∧ 0 < s.bus.dramMib ∧ (s.ring (par c 0)).state = .free) :=
  ⟨⟨(cmd 2048 [7, 0, 1] (rg 3 {})), cur 2048 [7, 0, 1], 469762048, by decide +kernel⟩,
   ⟨(cmd 2048 [7, 18, 1] (rg 3 {})), cur 2048 [7, 18, 1], by decide +kernel⟩,
   ⟨(cmd 2048 [7, 19, 0]), cur 2048 [7, 19, 0], by decide +kernel⟩,
   ⟨(cmd 2048 [3, 0, 1] (rg 3 { state := .live })), cur 2048 [3, 0, 1], by decide +kernel⟩,
   ⟨cmd 2049 [3] (rg 3 { state := .live, placed := [{ pos := 0, len := 2, seq := 0, done := true, hold := false }] }), cur 2049 [3], by decide +kernel⟩,
   ⟨(cmd 2049 [3] (rg 3 { state := .live, placed := [{ pos := 0, len := 2, seq := 0, done := false, hold := false }] })), cur 2049 [3], by decide +kernel⟩,
   ⟨waits 2049 [3] (.ringDrain 3), { cur 2049 [3] with wait := .ringDrain 3 }, 3, by decide +kernel⟩,
   ⟨cmd 2049 [3] { rg 3 { state := .live } with fw := { on.fw with progress := [(5, { state := .running, ring := 3 })] } }, cur 2049 [3], (5, { state := .running, ring := 3 }), by decide +kernel⟩,
   ⟨(cmd 2049 [7] (rg 3 {})), cur 2049 [7], by decide +kernel⟩,
   ⟨(cmd 2050 [3, 1, 1, 0] (rg 3 { state := .live })), cur 2050 [3, 1, 1, 0], by decide +kernel⟩,
   ⟨(cmd 2050 [3, 1, 1, 1] { (rg 3 { state := .live, waiters := [(.measWindow 511, 3)] }) with meas := { on.meas with avg := [(511, { run := some aMeas })] } }), cur 2050 [3, 1, 1, 1], 511, 3, aMeas, by decide +kernel⟩,
   ⟨(cmd 2050 [3, 1, 2, 0, 1, 0] (rg 3 { state := .live })), cur 2050 [3, 1, 2, 0, 1, 0], by decide +kernel⟩,
   ⟨cmd 2050 [3, 1, 4] (rg 3 { state := .live }), cur 2050 [3, 1, 4], by decide +kernel⟩,
   ⟨cmd 2050 [3, 1, 4] (rg 7 { state := .live }), cur 2050 [3, 1, 4], by decide +kernel⟩⟩
theorem witness_ringPlacement :
    (∃ (s : State) (size b : Nat), 0 < size ∧ freeBase s size = some b) ∧
    (∃ (s : State) (size : Nat) (a : _), 0 < size ∧ freeBase s size = none ∧ a % size = 0 ∧ patternBytes s ≤ a ∧ a + size ≤ dataMib s * 2 ^ 20) :=
  ⟨⟨(rg 3 {}), 4096, 469762048, by decide +kernel⟩,
   ⟨{ rg 3 { state := .live, base := 895 * 2 ^ 20, sizeCode := 8 } with pat := { on.pat with patternMib := some 895 } }, 4096, 895 * 2 ^ 20, by decide +kernel⟩⟩
theorem witness_ringCredit :
    (∃ (s t : State) (r n : Nat), reserve s r n = some t) ∧
    (∃ (s : State) (r n : Nat), (s.ring r).state = .live ∧ (s.ring r).closing = false ∧ s.perturbed 4 r = false ∧ 2 ≤ ringFree (s.ring r) - n ∧ ((s.ring r).drop = true ∨ (s.ring r).waiters = [])) ∧
    (∃ (s : State) (r causes : Nat), (s.ring r).state = .live) ∧
    (∃ (s : State) (r causes : Nat) (l : Loss), (s.ring r).state = .lossOpen ∧ (s.ring r).loss = some l) ∧
    (∃ (s : State) (r : Nat) (l : Loss), (s.ring r).state = .lossOpen ∧ (s.ring r).loss = some l) ∧
    (∃ (s : State) (st r units tag : Nat) (bytes : Nat → List Byte), (s.ring r).state ≠ .failed) ∧
    (∃ (s : State) (st r units tag : Nat) (bytes : Nat → List Byte), (s.ring r).state = .failed) ∧
    (∃ (s : State) (r pos : Nat) (arm : Bool), (s.ring r).state = .free) ∧
    (∃ (s : State) (r pos : Nat) (arm : Bool), (s.ring r).state ≠ .free ∧ 2 ^ 31 ≤ posDiff pos (s.ring r).rel) ∧
    (∃ (s : State) (r pos : Nat) (arm : Bool), (s.ring r).state ≠ .free ∧ posDiff pos (s.ring r).rel < 2 ^ 31 ∧ posDiff (s.ring r).wr (s.ring r).rel < posDiff pos (s.ring r).rel) ∧
    (∃ (s : State) (r pos : Nat) (arm : Bool), (s.ring r).state ≠ .free ∧ posDiff pos (s.ring r).rel < 2 ^ 31 ∧ posDiff pos (s.ring r).rel ≤ posDiff (s.ring r).wr (s.ring r).rel) :=
  ⟨⟨(rg 3 { state := .live }), _, 3, 4, by rfl⟩,
   ⟨(rg 3 { state := .live }), 3, 4, by decide +kernel⟩,
   ⟨(rg 3 { state := .live }), 3, 1, by decide +kernel⟩,
   ⟨rg 3 { state := .lossOpen, loss := some ⟨0, 0, 1, 0, 0, 1, 0⟩ }, 3, 1, ⟨0, 0, 1, 0, 0, 1, 0⟩, by decide +kernel⟩,
   ⟨rg 3 { state := .lossOpen, loss := some ⟨0, 0, 1, 0, 0, 1, 0⟩ }, 3, ⟨0, 0, 1, 0, 0, 1, 0⟩, by decide +kernel⟩,
   ⟨on, 3, 4, 1, 5, fun _ => [], by decide +kernel⟩,
   ⟨rg 4 { state := .failed }, 3, 4, 1, 5, fun _ => [], by decide +kernel⟩,
   ⟨on, 3, 4, true, by decide +kernel⟩,
   ⟨(rg 3 { state := .live }), 3, 2 ^ 31, true, by decide +kernel⟩,
   ⟨(rg 3 { state := .live }), 3, 1, true, by decide +kernel⟩,
   ⟨(rg 3 { state := .live }), 3, 0, true, by decide +kernel⟩⟩
theorem witness_harvestEvents :
    (∃ (st : Fin 17) (s : State) (x : Staged) (l : List Staged), fillBank (s.stager st.val) = x :: l ∧ (s.stager st.val).handed = false) ∧
    (∃ (st : Fin 17) (s : State), (fillBank (s.stager st.val) = [] ∨ (s.stager st.val).handed = true)) ∧
    (∃ (s : State) (st : Nat) (x : Staged) (l : List Staged) (off room : Nat), writing (s.stager st) = x :: l ∧ off = (16 * x.pos + x.acked) % ringBytes (s.ring x.ring) ∧ room = min (256 - off % 256) (ringBytes (s.ring x.ring) - off)) ∧
    (∃ (st : Fin 17) (s : State) (x : Staged) (n : Nat), s.clk.dramSleep = false ∧ s.fw.current = none ∧ s.harv.ends = [] ∧ s.harv.late = [] ∧ nextBurst s st.val = [(x, n)] ∧ x.bytes.length = 16 * x.len ∧ x.acked + n < 16 * x.len) ∧
    (∃ (st : Fin 17) (s : State) (x : Staged) (n : Nat) (p : Placed), s.clk.dramSleep = false ∧ s.fw.current = none ∧ s.harv.ends = [] ∧ s.harv.late = [] ∧ nextBurst s st.val = [(x, n)] ∧ x.acked + n = 16 * x.len ∧ (s.ring x.ring).placed = [p] ∧ p.seq = x.seq ∧ p.len = x.len) ∧
    (∃ (st : Fin 17) (s : State) (r : BurstResponse) (x : Staged) (n : Nat) (l : List (Staged × Nat)), s.clk.dramSleep = false ∧ s.fw.current = none ∧ nextBurst s st.val = (x, n) :: l ∧ r ≠ .ack ∧ (s.stager st.val).fails < 3) ∧
    (∃ (st : Fin 17) (s : State) (r : BurstResponse) (x : Staged) (n : Nat), s.clk.dramSleep = false ∧ s.fw.current = none ∧ s.harv.ends = [] ∧ s.harv.late = [] ∧ nextBurst s st.val = [(x, n)] ∧ r ≠ .ack ∧ (s.stager st.val).fails = 3 ∧ (s.stager st.val).fills = []) ∧
    (∃ (st : Fin 17) (s : State) (r : BurstResponse) (x : Staged) (n : Nat) (l : List (Staged × Nat)), s.clk.dramSleep = false ∧ s.fw.current = none ∧ s.harv.ends = [] ∧ s.harv.late = [] ∧ nextBurst s st.val = (x, n) :: l ∧ r ≠ .ack ∧ (s.stager st.val).fails = 3 ∧ (s.stager st.val).fills ≠ []) ∧
    (∃ (st : Fin 17) (s : State) (w : Fin 128) (x : Staged) (n : Nat), s.clk.dramSleep = false ∧ s.fw.current = none ∧ s.harv.ends = [] ∧ s.harv.late = [] ∧ (s.stager st.val).fills = [] ∧ nextBurst s st.val = [(x, n)] ∧ x.acked = 0 ∧ x.bytes.length = 16 * x.len ∧ 2 ≤ n ∧ 2 * w.val < n ∧ n < 16 * x.len) ∧
    (∃ (st : Fin 17) (r : BurstResponse) (bad : Option (Fin 128)) (s : State), (s.clk.dramSleep = true ∨ writing (s.stager st.val) = [])) ∧
    (∃ (ring : Ring) (s : State) (ts : Nat), (s.ring ring.toNat).advanced = some ts ∧ (s.ring ring.toNat).armed = true ∧ (s.ring ring.toNat).notifyUs ≠ 0) ∧
    (∃ (ring : Ring) (s : State), ((s.ring ring.toNat).advanced = none ∨ (s.ring ring.toNat).armed = false ∨ (s.ring ring.toNat).notifyUs = 0)) :=
  ⟨⟨2, sg 2 { bankA := [aStaged 2] } { state := .live }, aStaged 2, [], by decide +kernel⟩,
   ⟨16, on, by decide +kernel⟩,
   ⟨sg 2 { handed := true, bankB := [{ aStaged 2 with pos := 15 }] } { state := .live }, 2, { aStaged 2 with pos := 15 }, [], _, _, by repeat' (first | decide +kernel | rfl | apply And.intro | (intro _ k h1 h2; interval_cases k <;> rfl) | (intro k h1 h2; interval_cases k <;> rfl) | (intro h; exact absurd (by decide +kernel) h))⟩,
   ⟨2, sg 2 { handed := true, bankB := [{ aStaged 2 with pos := 15 }] } { state := .live }, { aStaged 2 with pos := 15 }, 16, by decide +kernel⟩,
   ⟨2, sg 2 { handed := true, bankB := [aStaged 2] } { state := .live, placed := [{ pos := 0, len := 2, seq := 0, done := false, hold := false }] }, aStaged 2, 32, { pos := 0, len := 2, seq := 0, done := false, hold := false }, by decide +kernel⟩,
   ⟨2, sg 2 { handed := true, bankB := [{ aStaged 2 with pos := 15 }] } { state := .live }, .refused, { aStaged 2 with pos := 15 }, 16, [], by decide +kernel⟩,
   ⟨2, sg 2 { handed := true, bankB := [{ aStaged 2 with pos := 15 }], fails := 3 } { state := .live }, .refused, { aStaged 2 with pos := 15 }, 16, by decide +kernel⟩,
   ⟨2, sg 2 { handed := true, bankB := [{ aStaged 2 with pos := 15 }], fails := 3, fills := [aStaged 1] } { state := .live }, .refused, aStaged 1, 16, [], by decide +kernel⟩,
   ⟨2, sg 2 { handed := true, bankB := [{ aStaged 2 with pos := 15 }] } { state := .live }, 3, { aStaged 2 with pos := 15 }, 16, by decide +kernel⟩,
   ⟨16, .ack, none, on, by decide +kernel⟩,
   ⟨65535, (rg 65535 { advanced := some 5, armed := true, notifyUs := 3 }), 5, by decide +kernel⟩,
   ⟨65535, on, by decide +kernel⟩⟩
theorem witness_linkFlits :
    (∃ (p : Port) (f : List Byte) (ok : Bool) (s : State), ((s.port (portNum p)).step ≠ .active ∨ ok = false ∨ flitGood f = false ∨ flitType f ≠ 0)) ∧
    (∃ (p : Port) (f : List Byte) (s : State), (s.port (portNum p)).step = .active ∧ flitGood f = true ∧ flitType f = 0 ∧ flitSeq f = (s.cls (portNum p) (flitClass f)).rxSeq ∧ bit (msgNum f 0 2) 14 = true ∧ bit (msgNum f 0 2) 15 = false ∧ (s.cls (portNum p) (flitClass f)).inMsg = false) ∧
    (∃ (p : Port) (f : List Byte) (s : State), (s.port (portNum p)).step = .active ∧ flitGood f = true ∧ flitType f = 0 ∧ flitSeq f = (s.cls (portNum p) (flitClass f)).rxSeq ∧ bit (msgNum f 0 2) 14 = false ∧ bit (msgNum f 0 2) 15 = false ∧ (s.cls (portNum p) (flitClass f)).inMsg = true) ∧
    (∃ (f : List Byte) (s : State) (i : Instr), (s.port 0).step = .active ∧ flitGood f = true ∧ flitType f = 0 ∧ flitClass f = 1 ∧ flitSeq f = (s.cls 0 1).rxSeq ∧ bit (msgNum f 0 2) 14 = true ∧ bit (msgNum f 0 2) 15 = true ∧ (s.cls 0 1).inMsg = false ∧ msgNum f 8 2 ≤ 10 ∧ s.link.addrValid = true ∧ s.link.addr < 0x40 ∧ msgNum f 3 1 = s.link.addr ∧ msgNum f 5 1 < 8 ∧ msgNum f 2 1 ≠ 0x0A ∧ msgNum f 2 1 ≠ 0x0B ∧ requestOf ((f.drop 2).take (16 + msgNum f 8 2)) = .ok i ∧ s.perturbed 5 1 = false) ∧
    (∃ (p : Port) (f : List Byte) (s : State), (s.port (portNum p)).step = .active ∧ flitGood f = true ∧ flitType f = 0 ∧ 512 < ((s.cls (portNum p) (flitClass f)).rxSeq + 1024 - flitSeq f) % 1024) ∧
    (∃ (p : Port) (f : List Byte) (s : State), (s.port (portNum p)).step = .active ∧ flitGood f = true ∧ flitType f = 0 ∧ flitSeq f ≠ (s.cls (portNum p) (flitClass f)).rxSeq ∧ ((s.cls (portNum p) (flitClass f)).rxSeq + 1024 - flitSeq f) % 1024 ≤ 512) ∧
    (∃ (p : Port) (f : List Byte) (a : CtrlArrival) (s : State), (((s.port (portNum p)).step ≠ .active ∧ (s.port (portNum p)).step ≠ .measure) ∨ a.syncOk = false ∨ flitGood f = false ∨ flitType f ≠ 1)) ∧
    (∃ (f : List Byte) (at' : Nat) (s : State), (s.port 1).step = .active ∧ flitGood f = true ∧ flitType f = 1 ∧ msgNum f 18 1 = 0 ∧ (∀ c, c < 4 → bit (msgNum f (2 + 2 * c) 2) 15 = false)) ∧
    (∃ (f : List Byte) (at' : Nat) (s : State), (s.port 1).step = .measure ∧ flitGood f = true ∧ flitType f = 1 ∧ msgNum f 18 1 = 1) ∧
    (∃ (f : List Byte) (at' t1 : Nat) (s : State), (s.port 0).step = .active ∧ flitGood f = true ∧ flitType f = 1 ∧ msgNum f 18 1 = 2 ∧ (∀ c, c < 4 → bit (msgNum f (2 + 2 * c) 2) 15 = false) ∧ s.link.delayReq = some t1) ∧
    (∃ (f : List Byte) (at' : Nat) (s : State), (s.port 1).step = .measure ∧ flitGood f = true ∧ flitType f = 1 ∧ msgNum f 18 1 = 3) ∧
    (∃ (f : List Byte) (at' : Nat) (s : State) (v : Int), (s.port 0).step = .active ∧ flitGood f = true ∧ flitType f = 1 ∧ msgNum f 18 1 = 4 ∧ (∀ c, c < 4 → bit (msgNum f (2 + 2 * c) 2) 15 = false) ∧ v = (at' : Int) - hopDelay s - msgNum f 20 8 ∧ -2147483648 ≤ v ∧ v ≤ 2147483647) ∧
    (∃ (p : Port) (c : Fin 4) (s : State), (s.port (portNum p)).step = .active ∧ (s.cls (portNum p) c.val).replay ≠ [] ∧ (s.cls (portNum p) c.val).replays < 15) ∧
    (∃ (p : Port) (c : Fin 4) (s : State), (s.port (portNum p)).step = .active ∧ (s.cls (portNum p) c.val).replay ≠ [] ∧ (s.cls (portNum p) c.val).replays = 15 ∧ s.clk.resetting = none ∧ s.clk.restarting = false) ∧
    (∃ (p : Port) (c : Fin 4) (s : State), ((s.port (portNum p)).step ≠ .active ∨ (s.cls (portNum p) c.val).replay = [])) ∧
    (∃ (p : Port) (c : Fin 4) (s : State), (s.port (portNum p)).step = .active ∧ ((s.cls (portNum p) c.val).queue ≠ [] ∨ (s.cls (portNum p) c.val).sending ≠ []) ∧ creditOf (s.cls (portNum p) c.val) c.val = 0 ∧ (s.cls (portNum p) c.val).starved = false) ∧
    (∃ (p : Port) (c : Fin 4) (s : State), ((s.port (portNum p)).step ≠ .active ∨ 0 < creditOf (s.cls (portNum p) c.val) c.val ∨ (s.cls (portNum p) c.val).starved = true ∨ (s.cls (portNum p) c.val).queue = [] ∧ (s.cls (portNum p) c.val).sending = [])) ∧
    (∃ (p : Port) (s : State), (s.port (portNum p)).step = .active ∧ (s.port (portNum p)).ctrlWaits = true ∧ flitReady s (portNum p) 0 = false) ∧
    (∃ (p : Port) (s : State), (s.port (portNum p)).step = .active ∧ (s.port (portNum p)).ctrlWaits = true ∧ flitReady s (portNum p) 0 = true) ∧
    (∃ (p : Port) (s : State), ((s.port (portNum p)).step ≠ .active ∨ (s.port (portNum p)).ctrlWaits = false)) ∧
    (∃ (d : Nat) (s : State), (s.port 0).step = .active) ∧
    (∃ (d : Nat) (s : State), (s.port 0).step ≠ .active) ∧
    (∃ (d : Nat) (s : State), (s.port 1).step = .active) ∧
    (∃ (d : Nat) (s : State), (s.port 1).step ≠ .active) :=
  ⟨⟨.link0, [], true, on, by decide +kernel⟩,
   ⟨.link0, flitBytes 1 0 0 true false (msgBytes 1 5 0x7E 0 9 [0, 0, 0, 0, 0, 0, 0, 0] []), (pt 0 { step := .active } on), by decide +kernel⟩,
   ⟨.link1, flitBytes 2 0 0 false false [], (pt 1 { step := .active, cls := [(2, { inMsg := true })] } on), by decide +kernel⟩,
   ⟨flitBytes 1 0 0 true true (msgBytes 1 5 0x7E 0 9 [0, 0, 0, 0, 0, 0, 0, 0] []), (pt 0 { step := .active } { on with link := { on.link with addr := 5, addrValid := true } }), .regRead ⟨5, 0x7E, false, 9⟩ 0, by decide +kernel⟩,
   ⟨.link0, flitBytes 1 7 0 true true [], (pt 0 { step := .active } on), by decide +kernel⟩,
   ⟨.link0, flitBytes 1 1000 0 true true [], pt 0 { step := .active }, by decide +kernel⟩,
   ⟨.link0, [], ⟨0, true⟩, on, by decide +kernel⟩,
   ⟨(ctl 0 0), 1000, (pt 1 { step := .active } on), by decide +kernel⟩,
   ⟨(ctl 1 0), 1000, (pt 1 { step := .measure } on), by decide +kernel⟩,
   ⟨(ctl 2 16), 1000, 100, { (pt 0 { step := .active } on) with link := { (pt 0 { step := .active } on).link with delayReq := some 100 } }, by decide +kernel⟩,
   ⟨(ctl 3 0), 1000, (pt 1 { step := .measure } on), by decide +kernel⟩,
   ⟨(ctl 4 1000), 1000, (pt 0 { step := .active } on), 0, by decide +kernel⟩,
   ⟨.link0, 1, (pt 0 { step := .active, cls := [(1, { replay := [(0, [])], replays := 14 })] } on), by decide +kernel⟩,
   ⟨.link0, 1, (pt 0 { step := .active, cls := [(1, { replay := [(0, [])], replays := 15 })] } on), by decide +kernel⟩,
   ⟨.link0, 1, (pt 0 { step := .active } on), by decide +kernel⟩,
   ⟨.link0, 0, (pt 0 { step := .active, cls := [(0, { queue := [(false, [])], txSent := 64 })] } on), by decide +kernel⟩,
   ⟨.link0, 0, (pt 0 { step := .active } on), by decide +kernel⟩,
   ⟨.link1, (pt 1 { step := .active, ctrlWaits := true } on), by decide +kernel⟩,
   ⟨.link1, pt 1 { step := .active, ctrlWaits := true, cls := [(0, { resend := [[]] })] }, by decide +kernel⟩,
   ⟨.link1, (pt 1 { step := .active } on), by decide +kernel⟩,
   ⟨256000, (pt 0 { step := .active } on), by decide +kernel⟩,
   ⟨256000, on, by decide +kernel⟩,
   ⟨256000, (pt 1 { step := .active } on), by decide +kernel⟩,
   ⟨256000, on, by decide +kernel⟩⟩
theorem witness_linkTraining :
    (∃ (p : Port) (eyes : List (Nat × Nat)) (partner : BitVec 4) (s : State) (n : Nat), (s.port (portNum p)).step = .equalise ∧ (∀ i, i < 4 → (n.testBit i = true ↔ 350 ≤ (eyes.getD i (0, 0)).1 ∧ 30 ≤ (eyes.getD i (0, 0)).2 ∧ partner.getLsbD i = true)) ∧ n < 16 ∧ n ≠ 0) ∧
    (∃ (p : Port) (eyes : List (Nat × Nat)) (partner : BitVec 4) (s : State), (s.port (portNum p)).step = .equalise ∧ (∀ i, i < 4 → ¬ (350 ≤ (eyes.getD i (0, 0)).1 ∧ 30 ≤ (eyes.getD i (0, 0)).2 ∧ partner.getLsbD i = true))) ∧
    (∃ (p : Port) (eyes : List (Nat × Nat)) (partner : BitVec 4) (s : State), (s.port (portNum p)).step ≠ .equalise) ∧
    (∃ (n : _), n < 16) ∧
    (∃ (p : Port) (d : Nat) (own : BitVec 7) (s : State), (s.port (portNum p)).step = .measure) ∧
    (∃ (p : Port) (d : Nat) (own : BitVec 7) (s : State), (s.port (portNum p)).step ≠ .measure) ∧
    (∃ (p : Port) (s : State), ((s.port (portNum p)).step = .lock ∨ (s.port (portNum p)).step = .equalise ∨ (s.port (portNum p)).step = .measure)) ∧
    (∃ (p : Port) (s : State) (r : Nat), ((s.port (portNum p)).step = .off ∨ (s.port (portNum p)).step = .detect ∨ (s.port (portNum p)).step = .active) ∧ (s.port (portNum p)).retry = some r) ∧
    (∃ (p : Port) (s : State), ((s.port (portNum p)).step = .off ∨ (s.port (portNum p)).step = .detect ∨ (s.port (portNum p)).step = .active) ∧ (s.port (portNum p)).retry = none) ∧
    (∃ (p : Port) (s : State), (s.port (portNum p)).step = .active ∧ s.clk.resetting = none ∧ s.clk.restarting = false) ∧
    (∃ (p : Port) (s : State), (s.port (portNum p)).step = .active ∧ s.clk.resetting = none ∧ s.clk.restarting = false ∧ (∀ e, e < 16 → (s.pert e).active = false) ∧ (∀ n, n < 8 → (s.mbx n).delayEnd = none)) ∧
    (∃ (p : Port) (s : State), ((s.port (portNum p)).step ≠ .active ∨ s.clk.resetting.isSome = true ∨ s.clk.restarting = true)) :=
  ⟨⟨.link0, [(350, 30), (400, 40), (349, 30), (350, 29)], 0xF, (pt 0 { step := .equalise } on), 3, by decide +kernel⟩,
   ⟨.link0, [(349, 30), (350, 29)], 0xF, (pt 0 { step := .equalise } on), by decide +kernel⟩,
   ⟨.link0, [], 0xF, on, by decide +kernel⟩,
   ⟨15, by decide +kernel⟩,
   ⟨.link1, 70, 5, (pt 1 { step := .measure } on), by decide +kernel⟩,
   ⟨.link1, 70, 5, on, by decide +kernel⟩,
   ⟨.link1, (pt 1 { step := .lock } on), by decide +kernel⟩,
   ⟨.link1, pt 1 { step := .detect, retry := some 9 }, 9, by decide +kernel⟩,
   ⟨.link1, on, by decide +kernel⟩,
   ⟨.link1, (pt 1 { step := .active } on), by decide +kernel⟩,
   ⟨.link1, (pt 1 { step := .active } on), by decide +kernel⟩,
   ⟨.link1, on, by decide +kernel⟩⟩
theorem witness_chainSync :
    (∃ (p : Port) (u : UrgentMsg) (s : State), (s.port (portNum p)).step = .active) ∧
    (∃ (p : Port) (u : UrgentMsg) (s : State), (s.port (portNum p)).step ≠ .active) ∧
    (∃ (total acc : BitVec 32) (epoch : BitVec 64) (arr res : Nat) (s : State), s.link.addrValid = true ∧ s.link.pendingSync = none ∧ (∀ l, s.link.lastSync = some l → l + 640000 ≤ arr / 256) ∧ acc.toNat + hopDelay s + 1638400 ≤ total.toNat ∧ (s.port 1).step ≠ .active) ∧
    (∃ (total acc : BitVec 32) (epoch : BitVec 64) (arr res : Nat) (s : State), s.link.addrValid = true ∧ s.link.pendingSync = none ∧ (∀ l, s.link.lastSync = some l → l + 640000 ≤ arr / 256) ∧ total.toNat < acc.toNat + hopDelay s + 1638400) ∧
    (∃ (total acc : BitVec 32) (epoch : BitVec 64) (arr res : Nat) (s : State), s.link.addrValid = true ∧ (s.link.pendingSync ≠ none ∨ ∃ l, s.link.lastSync = some l ∧ arr / 256 < l + 640000)) ∧
    (∃ (total acc : BitVec 32) (epoch : BitVec 64) (arr res : Nat) (s : State) (m : List Byte), s.link.addrValid = false ∧ (s.port 1).step = .active ∧ s.link.inbox = [m] ∧ msgNum m 0 1 = 0x0B ∧ msgNum m 8 4 = total.toNat ∧ msgNum m 12 4 = acc.toNat ∧ msgNum m 16 8 = epoch.toNat ∧ queueFull s 1 0 = false) ∧
    (∃ (dest : BitVec 7) (total acc : BitVec 32) (epoch : BitVec 64) (arr res : Nat) (s : State), dest ≠ 0x7F) ∧
    (∃ (s : State) (x : PendingSync), s.link.pendingSync = some x ∧ s.perturbed 2 1 = false ∧ s.perturbed 2 3 = false) ∧
    (∃ (s : State), s.link.pendingSync = none) ∧
    (∃ (s : State) (l : Nat), s.link.slewing = true ∧ s.link.lastSync = some l) ∧
    (∃ (s : State), s.link.slewing = false) :=
  ⟨⟨.link0, ⟨1, 2, 3, 4, 5⟩, (pt 0 { step := .active } on), by decide +kernel⟩,
   ⟨.link0, ⟨1, 2, 3, 4, 5⟩, on, by decide +kernel⟩,
   ⟨1638500, 100, 5, 1000, 2, { on with link := { on.link with addrValid := true } }, by decide +kernel⟩,
   ⟨1638400, 100, 5, 1000, 2, { on with link := { on.link with addrValid := true } }, by decide +kernel⟩,
   ⟨1638500, 100, 5, 1000, 2, { on with link := { on.link with addrValid := true, pendingSync := some ⟨1, 2⟩ } }, by repeat' (first | decide +kernel | rfl | apply And.intro)⟩,
   ⟨1638500, 100, 5, 1000, 2, { (pt 1 { step := .active } on) with link := { (pt 1 { step := .active } on).link with inbox := [msgBytes 0x0B 0x7F 0x7E 0 1 (toBytes 4 1638500 ++ toBytes 4 100) (toBytes 8 5)] } }, msgBytes 0x0B 0x7F 0x7E 0 1 (toBytes 4 1638500 ++ toBytes 4 100) (toBytes 8 5), by decide +kernel⟩,
   ⟨5, 1, 2, 3, 4, 5, on, by decide +kernel⟩,
   ⟨{ on with link := { on.link with addrValid := true, pendingSync := some ⟨1, 2⟩ } }, ⟨1, 2⟩, by decide +kernel⟩,
   ⟨on, by decide +kernel⟩,
   ⟨{ on with link := { on.link with addrValid := true, slewing := true, lastSync := some 5 } }, 5, by decide +kernel⟩,
   ⟨on, by decide +kernel⟩⟩
theorem witness_requests :
    (∃ (s : State) (h : MsgHdr) (a : Addr) (b : BitVec 40) (n : Word) (m : Byte) (ws : List Word) (l : List Byte) (r : Ring) (fl : Byte) (pos : BitVec 32) (i : _), busAlive s = false ∧ i ∈ [Instr.regRead h a, .regWrite h a ws, .regBurstRead h a n, .mailboxPost h m ws, .doorbell h m, .bulkRead h b n, .bulkWrite h b l, .release h r fl pos]) ∧
    (∃ (s v : State) (h : MsgHdr) (a : Addr), busAlive s = true ∧ v = busRead (takeRequest s (.regRead h a)) .host a.toNat) ∧
    (∃ (s v w : State) (h : MsgHdr) (a : Addr) (n : Word) (first last k : Nat), busAlive s = true ∧ v = takeRequest s (.regBurstRead h a n) ∧ w = busTurn v .host ∧ 1 ≤ n.toNat ∧ n.toNat ≤ 256 ∧ busRegion a.toNat = some (first, last) ∧ a.toNat ≤ last ∧ k = min n.toNat (last + 1 - a.toNat) ∧ (0x4002 < a.toNat ∨ a.toNat + k ≤ 0x4002)) ∧
    (∃ (s v : State) (h : MsgHdr) (a : Addr) (n : Word), busAlive s = true ∧ v = takeRequest s (.regBurstRead h a n) ∧ 1 ≤ n.toNat ∧ n.toNat ≤ 256 ∧ busRegion a.toNat = none) ∧
    (∃ (s : State) (h : MsgHdr) (a : Addr) (n : Word), busAlive s = true ∧ (n = 0 ∨ 256 < n.toNat)) ∧
    (∃ (s v : State) (h : MsgHdr) (a : Addr) (x : Word) (r : Nat × Nat), busAlive s = true ∧ v = takeRequest s (.regWrite h a [x]) ∧ busRegion a.toNat = some r ∧ (¬ (h.dest = 0x7D ∧ s.link.addrValid = false)) ∧ a.toNat ≤ r.2 ∧ busAlive (writeWord (busTurn v .host) .host a.toNat x) = true) ∧
    (∃ (s v w : State) (h : MsgHdr) (a : Addr) (x y : Word) (r : Nat × Nat), busAlive s = true ∧ v = takeRequest s (.regWrite h a [x, y]) ∧ busRegion a.toNat = some r ∧ (¬ (h.dest = 0x7D ∧ s.link.addrValid = false)) ∧ a.toNat < r.2 ∧ a.toNat % 2 = 1 ∧ w = busWrite v .host a.toNat x ∧ busAlive w = true ∧ busAlive (writeWord (busTurn w .host) .host (a.toNat + 1) y) = true) ∧
    (∃ (s v : State) (h : MsgHdr) (a : Addr) (x : Word) (ws : List Word), busAlive s = true ∧ v = takeRequest s (.regWrite h a (x :: ws)) ∧ ws.length < 256 ∧ busRegion a.toNat = none) ∧
    (∃ (s : State) (h : MsgHdr) (a : Addr) (ws : List Word), busAlive s = true ∧ (ws = [] ∨ 256 < ws.length)) ∧
    (∃ (s : State) (h : MsgHdr) (x : Word), busAlive s = true ∧ h.dest = 0x7D ∧ s.link.addrValid = false ∧ halfOf s .host = none ∧ x.toNat < 64 ∧ (x.toNat = (if s.link.neighbour = 0x7E then 0 else s.link.neighbour + 1))) ∧
    (∃ (s : State) (h : MsgHdr) (x : Word), busAlive s = true ∧ h.dest = 0x7D ∧ s.link.addrValid = false ∧ halfOf s .host = none ∧ (x.toNat ≠ (if s.link.neighbour = 0x7E then 0 else s.link.neighbour + 1) ∨ 64 ≤ x.toNat)) ∧
    (∃ (s v : State) (h : MsgHdr) (n : Byte) (ws : List Word), busAlive s = true ∧ v = takeRequest s (.mailboxPost h n ws) ∧ n.toNat < 8 ∧ 6 ≤ ws.length ∧ ws.length ≤ 126 ∧ 6 + (ws.getD 2 0).toNat ≤ ws.length ∧ ((s.mbx n.toNat).state = .idle ∨ (s.mbx n.toNat).state = .done)) ∧
    (∃ (s v : State) (h : MsgHdr) (n : Byte) (ws : List Word), busAlive s = true ∧ v = takeRequest s (.mailboxPost h n ws) ∧ n.toNat < 8 ∧ 6 ≤ ws.length ∧ ws.length ≤ 126 ∧ 6 + (ws.getD 2 0).toNat ≤ ws.length ∧ (s.mbx n.toNat).state ≠ .idle ∧ (s.mbx n.toNat).state ≠ .done) ∧
    (∃ (s : State) (h : MsgHdr) (n : Byte) (ws : List Word), busAlive s = true ∧ (ws.length < 6 ∨ 126 < ws.length ∨ ws.length < 6 + (ws.getD 2 0).toNat)) ∧
    (∃ (s : State) (h : MsgHdr) (n : Byte) (ws : List Word), busAlive s = true ∧ 8 ≤ n.toNat) ∧
    (∃ (s v : State) (h : MsgHdr) (n : Byte), busAlive s = true ∧ v = takeRequest s (.doorbell h n) ∧ n.toNat < 8 ∧ ((s.mbx n.toNat).state = .idle ∨ (s.mbx n.toNat).state = .done)) ∧
    (∃ (s v : State) (h : MsgHdr) (n : Byte), busAlive s = true ∧ v = takeRequest s (.doorbell h n) ∧ n.toNat < 8 ∧ (s.mbx n.toNat).state ≠ .idle ∧ (s.mbx n.toNat).state ≠ .done) ∧
    (∃ (s : State) (h : MsgHdr) (n : Byte), busAlive s = true ∧ 8 ≤ n.toNat) ∧
    (∃ (s v : State) (h : MsgHdr) (a : BitVec 40) (n : Word), busAlive s = true ∧ v = takeRequest s (.bulkRead h a n) ∧ a.toNat % 2 = 0 ∧ n.toNat % 2 = 0 ∧ 2 ≤ n.toNat ∧ n.toNat ≤ 512 ∧ 0 < dataMib s ∧ a.toNat + n.toNat ≤ dataMib s * 2 ^ 20) ∧
    (∃ (s : State) (h : MsgHdr) (a : BitVec 40) (n : Word), busAlive s = true ∧ a.toNat % 2 = 0 ∧ n.toNat % 2 = 0 ∧ 2 ≤ n.toNat ∧ n.toNat ≤ 512 ∧ 0 < dataMib s ∧ dataMib s * 2 ^ 20 < a.toNat + n.toNat) ∧
    (∃ (s : State) (h : MsgHdr) (a : BitVec 40) (n : Word), busAlive s = true ∧ (a.toNat % 2 = 1 ∨ n.toNat % 2 = 1 ∨ n.toNat < 2 ∨ 512 < n.toNat)) ∧
    (∃ (s : State) (h : MsgHdr) (a : BitVec 40) (l : List Byte), busAlive s = true ∧ (a.toNat % 2 = 1 ∨ l.length % 2 = 1 ∨ l.length < 2 ∨ 512 < l.length)) ∧
    (∃ (s v : State) (h : MsgHdr) (a : BitVec 40) (l : List Byte), busAlive s = true ∧ v = takeRequest s (.bulkWrite h a l) ∧ a.toNat % 2 = 0 ∧ l.length % 2 = 0 ∧ 2 ≤ l.length ∧ l.length ≤ 512 ∧ 0 < dataMib s ∧ a.toNat + l.length ≤ dataMib s * 2 ^ 20 ∧ a.toNat + l.length ≤ patternBytes s ∧ (∀ g ∈ overlapped s a.toNat l.length, segActive s g = false)) ∧
    (∃ (s : State) (h : MsgHdr) (a : BitVec 40) (l : List Byte) (g : Nat), busAlive s = true ∧ a.toNat % 2 = 0 ∧ l.length % 2 = 0 ∧ 2 ≤ l.length ∧ l.length ≤ 512 ∧ 0 < dataMib s ∧ a.toNat + l.length ≤ dataMib s * 2 ^ 20 ∧ a.toNat + l.length ≤ patternBytes s ∧ overlapped s a.toNat l.length = [g] ∧ segActive s g = true) ∧
    (∃ (s : State) (h : MsgHdr) (a : BitVec 40) (l : List Byte), busAlive s = true ∧ a.toNat % 2 = 0 ∧ l.length % 2 = 0 ∧ 2 ≤ l.length ∧ l.length ≤ 512 ∧ 0 < dataMib s ∧ a.toNat + l.length ≤ dataMib s * 2 ^ 20 ∧ patternBytes s < a.toNat + l.length) ∧
    (∃ (s v : State) (h : MsgHdr) (r : Ring) (fl : Byte) (pos : BitVec 32), busAlive s = true ∧ v = takeRequest s (.release h r fl pos) ∧ fl.toNat < 2) ∧
    (∃ (s : State) (h : MsgHdr) (r : Ring) (fl : Byte) (pos : BitVec 32), busAlive s = true ∧ 2 ≤ fl.toNat) :=
  ⟨⟨{ on with clk := { on.clk with phase := .off } }, hd 0x7E, 0, 0, 1, 0, [], [], 0, 0, 0, .regRead (hd 0x7E) 0, by decide +kernel⟩,
   ⟨on, _, (hd 0x7E), 0, by exact ⟨by decide +kernel, rfl⟩⟩,
   ⟨on, _, _, hd 0x7E, 0, 256, 0, 0xFF, 256, by repeat' (first | decide +kernel | rfl | apply And.intro | (intro _ k h1 h2; interval_cases k <;> rfl) | (intro k h1 h2; interval_cases k <;> rfl) | (intro h; exact absurd (by decide +kernel) h))⟩,
   ⟨on, _, hd 0x7E, 0x20000, 1, by repeat' (first | decide +kernel | rfl | apply And.intro | (intro _ k h1 h2; interval_cases k <;> rfl) | (intro k h1 h2; interval_cases k <;> rfl) | (intro h; exact absurd (by decide +kernel) h))⟩,
   ⟨on, (hd 0x7E), 0, 257, by decide +kernel⟩,
   ⟨on, _, (hd 0x7E), 0x0034, 7, _, by repeat' (first | decide +kernel | rfl | apply And.intro)⟩,
   ⟨on, _, _, hd 0x7E, 0x35, 7, 8, (0, 0xFF), by repeat' (first | decide +kernel | rfl | apply And.intro | (intro _ k h1 h2; interval_cases k <;> rfl) | (intro k h1 h2; interval_cases k <;> rfl) | (intro h; exact absurd (by decide +kernel) h))⟩,
   ⟨on, _, hd 0x7E, 0x20000, 1, [], by repeat' (first | decide +kernel | rfl | apply And.intro | (intro _ k h1 h2; interval_cases k <;> rfl) | (intro k h1 h2; interval_cases k <;> rfl) | (intro h; exact absurd (by decide +kernel) h))⟩,
   ⟨on, (hd 0x7E), 0, [], by decide +kernel⟩,
   ⟨{ on with link := { on.link with neighbour := 4 } }, (hd 0x7D), 5, by decide +kernel⟩,
   ⟨on, (hd 0x7D), 9, by decide +kernel⟩,
   ⟨{ on with mb := [(3, { state := .idle })] }, _, (hd 0x7E), 3, [0x101, 1, 0, 0, 0, 0], by repeat' (first | decide +kernel | rfl | apply And.intro)⟩,
   ⟨{ on with mb := [(3, { state := .posted })] }, _, (hd 0x7E), 3, [0x101, 1, 0, 0, 0, 0], by repeat' (first | decide +kernel | rfl | apply And.intro)⟩,
   ⟨on, (hd 0x7E), 0, [], by decide +kernel⟩,
   ⟨on, (hd 0x7E), 8, [0x101, 1, 0, 0, 0, 0], by decide +kernel⟩,
   ⟨{ on with mb := [(3, { state := .done })] }, _, (hd 0x7E), 3, by repeat' (first | decide +kernel | rfl | apply And.intro)⟩,
   ⟨{ on with mb := [(3, { state := .posted })] }, _, (hd 0x7E), 3, by repeat' (first | decide +kernel | rfl | apply And.intro)⟩,
   ⟨on, hd 0x7E, 8, by decide +kernel⟩,
   ⟨{ on with bus := { on.bus with dramMib := 1024 } }, _, (hd 0x7E), 512, 512, by repeat' (first | decide +kernel | rfl | apply And.intro)⟩,
   ⟨{ on with bus := { on.bus with dramMib := 1024 } }, hd 0x7E, 896 * 2 ^ 20, 2, by decide +kernel⟩,
   ⟨on, hd 0x7E, 1, 2, by decide +kernel⟩,
   ⟨on, hd 0x7E, 0, [1], by decide +kernel⟩,
   ⟨{ on with bus := { on.bus with dramMib := 1024 } }, _, (hd 0x7E), 512, [1, 2], by repeat' (first | decide +kernel | rfl | apply And.intro)⟩,
   ⟨run { mode := .exec, segment := 7 }, (hd 0x7E), 0, [1, 2], 7, by decide +kernel⟩,
   ⟨{ on with bus := { on.bus with dramMib := 1024 } }, (hd 0x7E), 896 * 2 ^ 20 - 2, [1, 2], by decide +kernel⟩,
   ⟨on, _, (hd 0x7E), 3, 1, 0, by repeat' (first | decide +kernel | rfl | apply And.intro)⟩,
   ⟨on, (hd 0x7E), 3, 2, 0, by decide +kernel⟩⟩
theorem witness_stageCommands :
    (∃ (s : State) (c : Current), Picked s 0x0900 c ∧ par c 0 = 0 ∧ par c 1 < 16 ∧ 8 ≤ par c 2 / 256 ∧ bits (par c 2) 6 2 = 0 ∧ 1 ≤ par c 3 ∧ par c 3 ≤ 200 ∧ (par c 5 = 0xFFFF ∨ (s.ring (par c 5)).state ≠ .free) ∧ par c 6 = 0 ∧ par c 7 = 0 ∧ ((s.stage (par c 1)).attached = true → (s.stage (par c 1)).period ≠ par c 3 → ∀ l ∈ stageLoops s (par c 1), (s.loop l).state = .stopped)) ∧
    (∃ (s : State) (c : Current), Picked s 0x0900 c ∧ par c 0 = 1 ∧ par c 1 < 16 ∧ (s.stage (par c 1)).attached = true ∧ (∀ l ∈ stageLoops s (par c 1), (s.loop l).state = .stopped)) ∧
    (∃ (s : State) (c : Current), Picked s 0x0900 c ∧ par c 0 = 2 ∧ par c 1 < 16 ∧ (s.stage (par c 1)).attached = true ∧ 1 ≤ par c 3 ∧ par c 3 ≤ 64 ∧ par c 3 + 2 ≤ stageWords (s.stage (par c 1)) ∧ par c 4 = 0) ∧
    (∃ (s : State) (c : Current), Picked s 0x0901 c ∧ par c 1 = 0 ∧ par c 0 < 16 ∧ (s.stage (par c 0)).attached = true ∧ 1 ≤ par c 3 ∧ par c 3 + 2 ≤ stageWords (s.stage (par c 0))) ∧
    (∃ (s : State) (c : Current), Picked s 0x0901 c ∧ par c 1 = 1 ∧ par c 0 < 16 ∧ (s.stage (par c 0)).attached = true ∧ par c 3 = 0) ∧
    (∃ (s : State) (c : Current), Picked s 0x0900 c ∧ par c 0 = 1 ∧ par c 1 < 16 ∧ (s.stage (par c 1)).attached = false) ∧
    (∃ (s : State) (c : Current), Picked s 0x0901 c ∧ par c 1 = 1 ∧ par c 0 < 16 ∧ (s.stage (par c 0)).attached = false ∧ par c 3 = 0) ∧
    (∃ (s : State) (c : Current), Picked s 0x0900 c ∧ par c 0 = 1 ∧ par c 1 < 16 ∧ (s.stage (par c 1)).attached = true ∧ (∃ l ∈ stageLoops s (par c 1), (s.loop l).state ≠ .stopped)) ∧
    (∃ (s : State) (c : Current), Picked s 0x0900 c ∧ par c 0 = 0 ∧ par c 1 < 16 ∧ 8 ≤ par c 2 / 256 ∧ bits (par c 2) 6 2 = 0 ∧ 1 ≤ par c 3 ∧ par c 3 ≤ 200 ∧ (par c 5 = 0xFFFF ∨ (s.ring (par c 5)).state ≠ .free) ∧ par c 6 = 0 ∧ par c 7 = 0 ∧ (s.stage (par c 1)).attached = true ∧ (s.stage (par c 1)).period ≠ par c 3 ∧ (∃ l ∈ stageLoops s (par c 1), (s.loop l).state ≠ .stopped)) ∧
    (∃ (s : State) (c : Current), Picked s 0x0900 c ∧ par c 0 = 2 ∧ par c 1 < 16 ∧ (s.stage (par c 1)).attached = false ∧ 1 ≤ par c 3 ∧ par c 3 ≤ 64 ∧ par c 4 = 0) ∧
    (∃ (s : State) (c : Current), Picked s 0x0901 c ∧ par c 1 = 0 ∧ par c 0 < 16 ∧ (s.stage (par c 0)).attached = false ∧ 1 ≤ par c 3) :=
  ⟨⟨(cmd 2304 [0, 3, 2048, 8, 1, 65535, 0, 0] (stg 3 { attached := true, period := 8 } (lp 512 { stage := 2, stageId := 3, state := .stopped }))), cur 2304 [0, 3, 2048, 8, 1, 65535, 0, 0], by decide +kernel⟩,
   ⟨(cmd 2304 [1, 3] (stg 3 { attached := true, period := 8 } (lp 512 { stage := 2, stageId := 3, state := .stopped }))), cur 2304 [1, 3], by decide +kernel⟩,
   ⟨(cmd 2304 [2, 3, 5, 1, 0, 7] (stg 3 { attached := true, ident := [0, 1, 0, 0, 0, 0, 0, 64, 4] } on)), cur 2304 [2, 3, 5, 1, 0, 7], by decide +kernel⟩,
   ⟨(cmd 2305 [3, 0, 5, 1] (stg 3 { attached := true, ident := [0, 1, 0, 0, 0, 0, 0, 64, 4] } on)), cur 2305 [3, 0, 5, 1], by decide +kernel⟩,
   ⟨(cmd 2305 [3, 1, 0, 0] (stg 3 { attached := true } on)), cur 2305 [3, 1, 0, 0], by decide +kernel⟩,
   ⟨(cmd 2304 [1, 3] on), cur 2304 [1, 3], by decide +kernel⟩,
   ⟨(cmd 2305 [3, 1, 0, 0] on), cur 2305 [3, 1, 0, 0], by decide +kernel⟩,
   ⟨(cmd 2304 [1, 3] (stg 3 { attached := true, period := 8 } (lp 512 { stage := 2, stageId := 3, state := .regulating }))), cur 2304 [1, 3], by decide +kernel⟩,
   ⟨cmd 2304 [0, 3, 2048, 8, 1, 65535, 0, 0] (stg 3 { attached := true, period := 4 } (lp 512 { stage := 2, stageId := 3, state := .regulating })), cur 2304 [0, 3, 2048, 8, 1, 65535, 0, 0], by decide +kernel⟩,
   ⟨cmd 2304 [2, 3, 0, 1, 0] (on), cur 2304 [2, 3, 0, 1, 0], by decide +kernel⟩,
   ⟨cmd 2305 [3, 0, 0, 1] (on), cur 2305 [3, 0, 0, 1], by decide +kernel⟩⟩
theorem witness_stageExchanges :
    (∃ (st : Stage) (ws : List Word) (s : State), endedFrame s st.val = none ∧ (s.stage st.val).bad < 3 ∧ s.ser.cyclicWaits = []) ∧
    (∃ (st : Stage) (ws : List Word) (s : State) (f : StageFrame), (s.stage st.val).frame = some f ∧ (s.stage st.val).bad < 3 ∧ (s.stage st.val).lost = false ∧ (s.stage st.val).telemCredit = .unasked ∧ s.ser.job = none ∧ s.ser.cyclicWaits = [] ∧ replyBad (s.stage st.val) ws = true) ∧
    (∃ (st : Stage) (ws : List Word) (s : State) (f : StageFrame), (s.stage st.val).frame = some f ∧ (s.stage st.val).bad < 3 ∧ (s.stage st.val).lost = false ∧ (s.stage st.val).attached = true ∧ s.ser.job = none ∧ s.ser.cyclicWaits = [] ∧ s.perturbed 8 st.val = false ∧ wAt (s.stage st.val).ident 0 ≠ 1 ∧ replyBad (s.stage st.val) ws = false ∧ bit (replyTrailer ws) 0 = false) ∧
    (∃ (st : Stage) (ws : List Word) (s : State) (f : StageFrame), (s.stage st.val).frame = some f ∧ (s.stage st.val).bad < 3 ∧ (s.stage st.val).lost = false ∧ (s.stage st.val).attached = true ∧ s.ser.job = none ∧ s.ser.cyclicWaits = [] ∧ s.perturbed 8 st.val = false ∧ wAt (s.stage st.val).ident 0 = 1 ∧ (s.stage st.val).telemDiv = 0 ∧ stageLoops s st.val = [] ∧ (∀ p, (s.stage st.val).prev = some p → p.cmd ≠ 2) ∧ replyBad (s.stage st.val) ws = false ∧ bit (replyTrailer ws) 0 = false) ∧
    (∃ (st : Stage) (ws : List Word) (s : State) (f p : StageFrame), (s.stage st.val).frame = some f ∧ (s.stage st.val).prev = some p ∧ p.cmd = 4 ∧ (s.stage st.val).bad < 3 ∧ (s.stage st.val).lost = false ∧ (s.stage st.val).attached = true ∧ (s.stage st.val).forgive = false ∧ s.ser.job = none ∧ s.ser.cyclicWaits = [] ∧ s.perturbed 8 st.val = false ∧ wAt (s.stage st.val).ident 0 ≠ 1 ∧ replyBad (s.stage st.val) ws = false ∧ bit (replyTrailer ws) 0 = true) ∧
    (∃ (st : Stage) (ws : List Word) (s : State) (f p : StageFrame) (c : Current) (a n m : Nat), s.fw.current = some c ∧ c.wait = .stageBus ∧ (s.stage st.val).frame = some f ∧ (s.stage st.val).prev = some p ∧ p.cmd = 2 ∧ (s.stage st.val).bad < 3 ∧ (s.stage st.val).lost = false ∧ s.ser.cyclicWaits = [] ∧ s.perturbed 8 st.val = false ∧ replyBad (s.stage st.val) ws = false ∧ bit (replyTrailer ws) 0 = false ∧ s.ser.job = some (st.val, .read a n m 1)) ∧
    (∃ (st : Stage) (ws : List Word) (s : State) (f p : StageFrame) (c : Current) (a : Nat) (l : List Word), s.fw.current = some c ∧ c.wait = .stageBus ∧ (s.stage st.val).frame = some f ∧ f.cmd ≠ 1 ∧ (s.stage st.val).prev = some p ∧ p.cmd = 3 ∧ (s.stage st.val).bad < 2 ∧ (s.stage st.val).lost = false ∧ s.ser.cyclicWaits = [] ∧ replyBad (s.stage st.val) ws = true ∧ s.ser.job = some (st.val, .write a l 0 1)) ∧
    (∃ (st : Stage) (ws : List Word) (s : State) (f p : StageFrame) (c : Current) (a : Nat) (l : List Word), s.fw.current = some c ∧ c.wait = .stageBus ∧ (s.stage st.val).frame = some f ∧ f.cmd ≠ 1 ∧ (s.stage st.val).prev = some p ∧ p.cmd = 3 ∧ (s.stage st.val).bad < 2 ∧ (s.stage st.val).lost = false ∧ s.ser.cyclicWaits = [] ∧ replyBad (s.stage st.val) ws = true ∧ s.ser.job = some (st.val, .write a l 1 1)) ∧
    (∃ (st : Stage) (ws : List Word) (s : State) (f p : StageFrame) (c : Current) (a n : Nat) (l : List Word), s.fw.current = some c ∧ c.wait = .stageBus ∧ (s.stage st.val).frame = some f ∧ (s.stage st.val).prev = some p ∧ p.cmd = 3 ∧ (s.stage st.val).bad < 3 ∧ (s.stage st.val).lost = false ∧ s.ser.cyclicWaits = [] ∧ s.perturbed 8 st.val = false ∧ wAt (s.stage st.val).ident 0 ≠ 1 ∧ replyBad (s.stage st.val) ws = false ∧ bit (replyTrailer ws) 0 = false ∧ s.ser.job = some (st.val, .write a l n 1)) ∧
    (∃ (st : Stage) (ws w : List Word) (s : State) (f p : StageFrame) (c : Current) (m per dv r : Nat), s.fw.current = some c ∧ c.wait = .stageBus ∧ (s.stage st.val).attached = false ∧ (s.stage st.val).telemCredit = .unasked ∧ s.ser.cyclicWaits = [] ∧ (s.stage st.val).frame = some f ∧ (s.stage st.val).prev = some p ∧ p.cmd = 2 ∧ replyBad (s.stage st.val) ws = false ∧ bit (replyTrailer ws) 0 = false ∧ s.ser.job = some (st.val, .attach m per dv r 2) ∧ w = padWords 16 ws.dropLast.dropLast ∧ 1 ≤ per ∧ identReason m per w = 0 ∧ overLoaded s st.val m per w = false) ∧
    (∃ (st : Stage) (ws w : List Word) (s : State) (f p : StageFrame) (c : Current) (m per dv r : Nat), s.fw.current = some c ∧ c.wait = .stageBus ∧ (s.stage st.val).attached = false ∧ (s.stage st.val).telemCredit = .unasked ∧ s.ser.cyclicWaits = [] ∧ (s.stage st.val).frame = some f ∧ (s.stage st.val).prev = some p ∧ p.cmd = 2 ∧ replyBad (s.stage st.val) ws = false ∧ bit (replyTrailer ws) 0 = false ∧ s.ser.job = some (st.val, .attach m per dv r 2) ∧ w = padWords 16 ws.dropLast.dropLast ∧ 1 ≤ per ∧ identReason m per w ≠ 0) ∧
    (∃ (st : Stage) (ws w : List Word) (s : State) (f p : StageFrame) (c : Current) (m per dv r : Nat), s.fw.current = some c ∧ c.wait = .stageBus ∧ (s.stage st.val).attached = false ∧ (s.stage st.val).telemCredit = .unasked ∧ s.ser.cyclicWaits = [] ∧ (s.stage st.val).frame = some f ∧ (s.stage st.val).prev = some p ∧ p.cmd = 2 ∧ replyBad (s.stage st.val) ws = false ∧ bit (replyTrailer ws) 0 = false ∧ s.ser.job = some (st.val, .attach m per dv r 2) ∧ w = padWords 16 ws.dropLast.dropLast ∧ 1 ≤ per ∧ identReason m per w = 0 ∧ overLoaded s st.val m per w = true) ∧
    (∃ (st : Stage) (ws : List Word) (s : State) (f : StageFrame) (c : Current), s.fw.current = some c ∧ c.wait = .stageBus ∧ (s.stage st.val).frame = some f ∧ f.cmd = 4 ∧ (s.stage st.val).bad < 2 ∧ (s.stage st.val).lost = false ∧ (s.stage st.val).telemCredit = .unasked ∧ s.ser.cyclicWaits = [] ∧ stageCharged s st.val = [] ∧ replyBad (s.stage st.val) ws = true ∧ s.ser.job = some (st.val, .detach)) ∧
    (∃ (st : Stage) (s : State) (l : Nat), (s.stage st.val).attached = true ∧ (s.stage st.val).lost = false ∧ 3 ≤ (s.stage st.val).bad ∧ stageLoops s st.val = [l] ∧ (s.charge (l - 512)).source ≠ 0xFE ∧ (s.loop l).state = .regulating ∧ (s.loop l).clocheMode = 0) ∧
    (∃ (st : Stage) (s : State), (s.stage st.val).attached = true ∧ (s.stage st.val).lost = false ∧ 3 ≤ (s.stage st.val).bad ∧ (s.stage st.val).telemCredit = .unasked ∧ stageLoops s st.val = []) ∧
    (∃ (st : Stage) (s : State), ((s.stage st.val).attached = false ∨ (s.stage st.val).lost = true ∨ (s.stage st.val).bad < 3)) ∧
    (∃ (st : Stage) (late : Bool) (s : State), (s.stage st.val).attached = true ∧ 1 ≤ (s.stage st.val).period ∧ (s.stage st.val).bad < 3 ∧ s.ser.cyclicWaits = [] ∧ (∀ k, k < 16 → (s.stage k).frame = none) ∧ stageLoops s st.val = [] ∧ (s.stage st.val).telemDiv = 0) ∧
    (∃ (st : Stage) (s : State) (k : Nat), (s.stage st.val).attached = true ∧ 1 ≤ (s.stage st.val).period ∧ (s.stage st.val).bad < 3 ∧ k < 16 ∧ (s.stage k).frame ≠ none) ∧
    (∃ (st : Stage) (late : Bool) (s : State), ((s.stage st.val).attached = false ∨ (s.stage st.val).period = 0)) ∧
    (∃ (w : List Word), wAt w 7 = 8 ∧ wAt w 8 = 4) :=
  ⟨⟨3, [], on, by decide +kernel⟩,
   ⟨3, [0], (stg 3 { frame := some ⟨1, 0, []⟩ } on), ⟨1, 0, []⟩, by repeat' (first | decide +kernel | rfl | apply And.intro)⟩,
   ⟨3, inWords [5, 0], (stg 3 { attached := true, frame := some ⟨1, 0, []⟩ } on), ⟨1, 0, []⟩, by decide +kernel⟩,
   ⟨3, inWords [5, 0], stg 3 { attached := true, ident := [1], frame := some ⟨1, 0, []⟩ }, ⟨1, 0, []⟩, by decide +kernel, by decide +kernel, (by decide +kernel), by decide +kernel, by decide +kernel, (by decide +kernel), by decide +kernel, by decide +kernel, (by decide +kernel), by decide +kernel, (fun p h => nomatch (show (none : Option StageFrame) = some p from h)), by decide +kernel⟩,
   ⟨3, inWords [5, 1], (stg 3 { attached := true, frame := some ⟨1, 0, []⟩, prev := some ⟨4, 0, []⟩ } on), ⟨1, 0, []⟩, ⟨4, 0, []⟩, by decide +kernel⟩,
   ⟨3, inWords [5, 0], (stg 3 { frame := some ⟨1, 0, []⟩, prev := some ⟨2, 0, []⟩ } { on with ser := { on.ser with job := some (3, .read 5 1 0 1) }, fw := { on.fw with current := some { cur 0x900 [] with wait := .stageBus } } }), ⟨1, 0, []⟩, ⟨2, 0, []⟩, { cur 0x900 [] with wait := .stageBus }, 5, 1, 0, by decide +kernel⟩,
   ⟨3, [0], stg 3 { bad := 1, frame := some ⟨2, 0, []⟩, prev := some ⟨3, 0, []⟩ } ({ on with ser := { on.ser with job := some (3, .write 5 [7] 0 1) }, fw := { on.fw with current := some { cur 0x900 [] with wait := .stageBus } } }), ⟨2, 0, []⟩, ⟨3, 0, []⟩, { cur 0x900 [] with wait := .stageBus }, 5, [7], by decide +kernel⟩,
   ⟨3, [0], stg 3 { bad := 1, frame := some ⟨2, 0, []⟩, prev := some ⟨3, 0, []⟩ } ({ on with ser := { on.ser with job := some (3, .write 5 [7] 1 1) }, fw := { on.fw with current := some { cur 0x900 [] with wait := .stageBus } } }), ⟨2, 0, []⟩, ⟨3, 0, []⟩, { cur 0x900 [] with wait := .stageBus }, 5, [7], by decide +kernel⟩,
   ⟨3, inWords [5, 0], stg 3 { frame := some ⟨2, 0, []⟩, prev := some ⟨3, 0, []⟩ } ({ on with ser := { on.ser with job := some (3, .write 5 [7] 0 1) }, fw := { on.fw with current := some { cur 0x900 [] with wait := .stageBus } } }), ⟨2, 0, []⟩, ⟨3, 0, []⟩, { cur 0x900 [] with wait := .stageBus }, 5, 0, [7], by decide +kernel⟩,
   ⟨3, inWords ([0, 1, 0, 0, 0, 0, 1600, 8, 4, 1, 50, 0, 0, 0, 0, 0] ++ [0]), [0, 1, 0, 0, 0, 0, 1600, 8, 4, 1, 50, 0, 0, 0, 0, 0], stg 3 { frame := some ⟨1, 0, []⟩, prev := some ⟨2, 0, []⟩ } ({ on with ser := { on.ser with job := some (3, .attach 0x800 8 1 0xFFFF 2) }, fw := { on.fw with current := some { cur 0x900 [] with wait := .stageBus } } }), ⟨1, 0, []⟩, ⟨2, 0, []⟩, { cur 0x900 [] with wait := .stageBus }, 0x800, 8, 1, 0xFFFF, by decide +kernel⟩,
   ⟨3, inWords ([0, 1, 0, 0, 0, 0, 0, 8, 4, 0, 0, 0, 0, 0, 0, 0] ++ [0]), [0, 1, 0, 0, 0, 0, 0, 8, 4, 0, 0, 0, 0, 0, 0, 0], (stg 3 { frame := some ⟨1, 0, []⟩, prev := some ⟨2, 0, []⟩ } { on with ser := { on.ser with job := some (3, .attach 0x800 8 1 0xFFFF 2) }, fw := { on.fw with current := some { cur 0x900 [] with wait := .stageBus } } }), ⟨1, 0, []⟩, ⟨2, 0, []⟩, { cur 0x900 [] with wait := .stageBus }, 0x800, 8, 1, 0xFFFF, by decide +kernel⟩,
   ⟨3, inWords ([0, 1, 0, 0, 0, 0, 1600, 65535, 4, 1, 50, 0, 0, 0, 0, 0] ++ [0]), [0, 1, 0, 0, 0, 0, 1600, 65535, 4, 1, 50, 0, 0, 0, 0, 0], stg 3 { frame := some ⟨1, 0, []⟩, prev := some ⟨2, 0, []⟩ } ({ on with ser := { on.ser with job := some (3, .attach 0x800 8 1 0xFFFF 2) }, fw := { on.fw with current := some { cur 0x900 [] with wait := .stageBus } } }), ⟨1, 0, []⟩, ⟨2, 0, []⟩, { cur 0x900 [] with wait := .stageBus }, 0x800, 8, 1, 0xFFFF, by decide +kernel⟩,
   ⟨3, [0], stg 3 { frame := some ⟨4, 0, []⟩ } ({ on with ser := { on.ser with job := some (3, .detach) }, fw := { on.fw with current := some { cur 0x900 [] with wait := .stageBus } } }), ⟨4, 0, []⟩, { cur 0x900 [] with wait := .stageBus }, by decide +kernel⟩,
   ⟨3, (stg 3 { attached := true, bad := 3 } (lp 512 { stage := 2, stageId := 3, state := .regulating })), 512, by decide +kernel⟩,
   ⟨3, stg 3 { attached := true, bad := 3 }, by decide +kernel⟩,
   ⟨3, on, by decide +kernel⟩,
   ⟨3, true, (stg 3 { attached := true, period := 8 } on), by decide +kernel⟩,
   ⟨3, { on with ser := { on.ser with stage := [(3, { attached := true, period := 8 }), (4, { frame := some ⟨1, 0, []⟩ })] } }, 4, by decide +kernel⟩,
   ⟨3, true, on, by decide +kernel⟩,
   ⟨[0, 1, 0, 0, 0, 0, 0, 8, 4, 0, 0, 0, 0, 0, 0, 0], by decide +kernel⟩⟩
theorem witness_executeInPlace :
    (∃ (a : BitVec 32) (s : State), (a.toNat < 0x20000000 ∨ 0x207FE000 ≤ a.toNat)) ∧
    (∃ (a : BitVec 32) (s : State), 0x20000000 ≤ a.toNat ∧ a.toNat < 0x207FE000 ∧ (s.ser.sp0Busy = true ∨ s.ser.flashOps ≠ [])) ∧
    (∃ (a : BitVec 32) (s : State) (base o : Nat), o = a.toNat - 0x20000000 ∧ 0x20000000 ≤ a.toNat ∧ a.toNat < 0x207FE000 ∧ s.ser.sp0Busy = false ∧ s.ser.flashOps = [] ∧ (base = (if s.clk.imageSlot then 0x800000 else 0)) ∧ o < flashNum s (base + 16) 4) ∧
    (∃ (a : BitVec 32) (s : State) (base o : Nat), o = a.toNat - 0x20000000 ∧ 0x20000000 ≤ a.toNat ∧ a.toNat < 0x207FE000 ∧ s.ser.sp0Busy = false ∧ s.ser.flashOps = [] ∧ (base = (if s.clk.imageSlot then 0x800000 else 0)) ∧ flashNum s (base + 16) 4 ≤ o) :=
  ⟨⟨0, on, by decide +kernel⟩,
   ⟨0x20000000, { on with ser := { on.ser with sp0Busy := true } }, by decide +kernel⟩,
   ⟨0x20000004, on, 0, 4, by decide +kernel⟩,
   ⟨0x20000004, { on with ser := { on.ser with flash := [(16, 4), (17, 0), (18, 0), (19, 0)] } }, 0, 4, by decide +kernel⟩⟩
theorem witness_supervisionSamples :
    (∃ (tt : List SensorRead) (rails : List Int) (pm : List Word) (s : State), samplingOn s = false) ∧
    (∃ (tt : List SensorRead) (rails : List Int) (pm : List Word) (s : State), samplingOn s = true) ∧
    (∃ (tt : List SensorRead) (rails : List Int) (pm : List Word) (s : State), samplingOn s = true ∧ (∀ k, k < 48 → (s.sensor k).fails < 4 ∧ (s.sensor k).passes < 64) ∧ (∀ v ∈ sensorLevels, enterReady s v = false ∧ exitReady s v = false) ∧ (∀ r, r < 14 → (s.railRd (4 * r)).low.up < 4 ∧ (s.railRd (4 * r)).high.up < 4 ∧ (s.railRd (4 * r)).low.down < 64 ∧ (s.railRd (4 * r)).high.down < 64)) ∧
    (∃ (tt : List SensorRead) (s : State) (i : Nat), 8 ≤ i ∧ i < 48 ∧ 8 ≤ (i - 8) % 10) ∧
    (∃ (tt : List SensorRead) (s : State) (i : Nat) (x y : Int), 8 ≤ i ∧ i < 48 ∧ (i - 8) % 10 < 8 ∧ i % 2 = 0 ∧ rawOf tt i = some x ∧ rawOf tt (i + 1) = some y ∧ (s.sensor i).broken = false ∧ (s.sensor (i + 1)).broken = false ∧ -960 ≤ x ∧ x ≤ 3200 ∧ -960 ≤ y ∧ y ≤ 3200) ∧
    (∃ (tt : List SensorRead) (s : State) (i : Nat) (x a b : Int), i < 8 ∧ rawOf tt i = some x ∧ rawOf tt ((i + 7) % 8) = some a ∧ rawOf tt ((i + 1) % 8) = some b ∧ (s.sensor ((i + 7) % 8)).broken = false ∧ (s.sensor ((i + 1) % 8)).broken = false ∧ -960 ≤ x ∧ x ≤ 3200 ∧ -960 ≤ a ∧ a ≤ 3200 ∧ -960 ≤ b ∧ b ≤ 3200) ∧
    (∃ (b : Bed) (x : BitVec 16) (s : State), (s.sup.analogueOff = true ∨ s.bedPow b.val ≠ .active)) ∧
    (∃ (b : Bed) (x : BitVec 16) (s : State), s.sup.analogueOff = false ∧ s.bedPow b.val = .active ∧ (s.mon b.val).slot < 170) ∧
    (∃ (b : Bed) (x : BitVec 16) (s v : State) (k : Nat), s.sup.analogueOff = false ∧ s.bedPow b.val = .active ∧ (s.mon b.val).slot < 163 ∧ (s.avg (2048 + b.val)).run = none ∧ v = reachGrid s 272000 (1600 * (s.mon b.val).slot) ∧ k = slotDac b.val (s.mon b.val).slot ∧ slotSkipped v b.val (s.mon b.val).slot = false ∧ (s.dacst k).misses < 2) ∧
    (∃ (b : Bed) (x : BitVec 16) (s v : State), s.sup.analogueOff = false ∧ s.bedPow b.val = .active ∧ (s.mon b.val).slot < 165 ∧ (s.avg (2048 + b.val)).run = none ∧ v = reachGrid s 272000 (1600 * (s.mon b.val).slot) ∧ slotSkipped v b.val (s.mon b.val).slot = true ∧ (s.dacst (slotDac b.val (s.mon b.val).slot)).misses < 2) ∧
    (∃ (b : Bed) (x : BitVec 16) (s v : State) (i : Nat), s.sup.analogueOff = false ∧ s.bedPow b.val = .active ∧ ((s.mon b.val).slot = 165 ∨ (s.mon b.val).slot = 166) ∧ i = (s.mon b.val).slot - 151 ∧ (s.avg (2048 + b.val)).run = none ∧ v = reachGrid s 272000 (1600 * (s.mon b.val).slot)) ∧
    (∃ (b : Bed) (x : BitVec 16) (s v : State) (y : BitVec 32), s.sup.analogueOff = false ∧ s.bedPow b.val = .active ∧ (s.mon b.val).slot = 167 ∧ (s.avg (2048 + b.val)).run = none ∧ v = reachGrid s 272000 (1600 * 167) ∧ (s.therm b.val).enable = true ∧ (s.therm b.val).suspect = false ∧ (s.therm b.val).broken = false ∧ (s.therm b.val).fails < 4 ∧ (s.therm b.val).passes < 64 ∧ enterReady s (.clocheTh b) = false ∧ exitReady s (.clocheTh b) = false ∧ thermTemp (s.therm b.val) (correctCode v (monitorCal b.val) false x).1 = some y) ∧
    (∃ (b : Bed) (slot : Fin 165) (s : State), 2 ≤ (s.dacst (slotDac b.val slot.val)).misses ∧ (s.dacst (slotDac b.val slot.val)).faulty = false) ∧
    (∃ (b : Bed) (slot : Fin 165) (s : State), ((s.dacst (slotDac b.val slot.val)).misses < 2 ∨ (s.dacst (slotDac b.val slot.val)).faulty = true)) :=
  ⟨⟨[], [], [], State.reset, by decide +kernel⟩,
   ⟨[], [], [], on, by decide +kernel⟩,
   ⟨[], [], [], on, by decide +kernel⟩,
   ⟨[], on, 16, by decide +kernel⟩,
   ⟨List.replicate 48 (.reading 1360), on, 8, 1360, 1360, by decide +kernel⟩,
   ⟨List.replicate 48 (.reading 1360), on, 7, 1360, 1360, 1360, by decide +kernel⟩,
   ⟨3, 0, { on with sup := { on.sup with analogueOff := true } }, by decide +kernel⟩,
   ⟨3, 0, on, by decide +kernel⟩,
   ⟨3, 0, on, _, _, by repeat' (first | decide +kernel | rfl | apply And.intro)⟩,
   ⟨3, 0, cl { on.cal with run := some { aCalRun with kind := 5, scopes := [3] } }, _, by repeat' (first | decide +kernel | rfl | apply And.intro | (intro _ k h1 h2; interval_cases k <;> rfl) | (intro k h1 h2; interval_cases k <;> rfl) | (intro h; exact absurd (by decide +kernel) h))⟩,
   ⟨3, 0, { on with pins := { on.pins with monitor := [(3, { slot := 165 })] } }, _, _, by repeat' (first | decide +kernel | rfl | apply And.intro | (intro _ k h1 h2; interval_cases k <;> rfl) | (intro k h1 h2; interval_cases k <;> rfl) | (intro h; exact absurd (by decide +kernel) h))⟩,
   ⟨3, 0x4000, { on with pins := { on.pins with monitor := [(3, { slot := 167 })] }, sup := { on.sup with therm := [(3, { enable := true, bias := true, a := 0x3a935a5b, b := 0x397646a1, c := 0x33a8bd1b })] } }, _, _, by repeat' (first | decide +kernel | rfl | apply And.intro | (intro _ k h1 h2; interval_cases k <;> rfl) | (intro k h1 h2; interval_cases k <;> rfl) | (intro h; exact absurd (by decide +kernel) h))⟩,
   ⟨3, 0, { on with pins := { on.pins with dac := [(384, { dacDefault 384 with misses := 2 })] } }, by decide +kernel⟩,
   ⟨3, 0, on, by decide +kernel⟩⟩
theorem witness_thermalLevels :
    (∃ (v : LevelId) (s : State), ((s.level (levelKey v)).held = true ∨ (s.level (levelKey v)).up < 4)) ∧
    (∃ (v : LevelId) (s : State), ((s.level (levelKey v)).held = false ∨ (s.level (levelKey v)).down < 64 ∨ v = .shutdown)) ∧
    (∃ (z : Zone) (s : State), (s.level (levelKey (.warn z))).held = false ∧ 4 ≤ (s.level (levelKey (.warn z))).up) ∧
    (∃ (z : Zone) (n : Fin 3) (s : State), (s.level (levelKey (.throttle z n))).held = false ∧ 4 ≤ (s.level (levelKey (.throttle z n))).up) ∧
    (∃ (b : Bed) (s : State), (s.level (levelKey (.clocheGroup b))).held = false ∧ 4 ≤ (s.level (levelKey (.clocheGroup b))).up) ∧
    (∃ (s : State), (s.level (levelKey .clocheZ0)).held = false ∧ 4 ≤ (s.level (levelKey .clocheZ0)).up) ∧
    (∃ (n : Bed) (s : State), (s.level (levelKey (.clocheTh n))).held = false ∧ 4 ≤ (s.level (levelKey (.clocheTh n))).up) ∧
    (∃ (s : State), (s.level (levelKey .shutdown)).held = false ∧ 4 ≤ (s.level (levelKey .shutdown)).up ∧ s.sup.exitOk = false ∧ s.sup.shutdown = false) ∧
    (∃ (s : State), s.sup.exitOk = true ∧ (∀ z, ∀ u ∈ zoneLevels z, enterReady s u = false)) ∧
    (∃ (z : Zone) (s : State), (s.level (levelKey (.warn z))).held = true ∧ 64 ≤ (s.level (levelKey (.warn z))).down) ∧
    (∃ (z : Zone) (n : Fin 3) (s : State), (s.level (levelKey (.throttle z n))).held = true ∧ 64 ≤ (s.level (levelKey (.throttle z n))).down ∧ (∀ k : Fin 3, n < k → (s.level (levelKey (.throttle z k))).held = false)) ∧
    (∃ (z : Zone) (n : Fin 3) (s : State), (s.level (levelKey (.throttle z n))).held = true ∧ 64 ≤ (s.level (levelKey (.throttle z n))).down ∧ n ≠ 2 ∧ (s.level (levelKey (.throttle z 2))).held = true ∧ (s.level (levelKey (.throttle z 2))).down < 64) ∧
    (∃ (v : LevelId) (s : State), (v = .clocheZ0 ∨ (∃ b, v = .clocheGroup b ∨ v = .clocheTh b)) ∧ (s.level (levelKey v)).held = true ∧ 64 ≤ (s.level (levelKey v)).down) ∧
    (∃ (z : Zone) (n : Fin 3) (s : State) (e : Nat), graceOf (s.zone z.val) n.val = some e ∧ n ≠ 2 ∧ enforcedLevel s z.val ≠ 3) ∧
    (∃ (z : Zone) (s : State) (e h : Nat), graceOf (s.zone z.val) 2 = some e ∧ (s.level (levelKey (.throttle z 2))).held = true ∧ h ∈ zoneHeavies z.val ∧ (s.loop (512 + h)).state ≠ .ganged) ∧
    (∃ (z : Zone) (n : Fin 3) (s : State), graceOf (s.zone z.val) n.val = none) ∧
    (∃ (z : Zone) (s : State), (s.zone z.val).acked = true) ∧
    (∃ (z : Zone) (s : State), (s.zone z.val).acked = false) :=
  ⟨⟨.shutdown, on, by decide +kernel⟩,
   ⟨.clocheZ0, on, by decide +kernel⟩,
   ⟨4, (lv (.warn 4) { up := 4 }), by decide +kernel⟩,
   ⟨4, 2, (lv (.throttle 4 2) { up := 4 }), by decide +kernel⟩,
   ⟨15, (lv (.clocheGroup 15) { up := 4 }), by decide +kernel⟩,
   ⟨(lv .clocheZ0 { up := 4 }), by decide +kernel⟩,
   ⟨15, (lv (.clocheTh 15) { up := 4 }), by decide +kernel⟩,
   ⟨(lv .shutdown { up := 4 }), by decide +kernel⟩,
   ⟨{ on with sup := { on.sup with exitOk := true } }, by decide +kernel⟩,
   ⟨4, (lv (.warn 4) { held := true, down := 64 }), by decide +kernel⟩,
   ⟨4, 2, (lv (.throttle 4 2) { held := true, down := 64 }), by decide +kernel⟩,
   ⟨4, 0, { on with sup := { on.sup with level := [(levelKey (.throttle 4 0), { held := true, down := 64 }), (levelKey (.throttle 4 2), { held := true })] } }, by decide +kernel⟩,
   ⟨.clocheZ0, lv .clocheZ0 { held := true, down := 64 }, .inl rfl, by decide +kernel, by decide +kernel⟩,
   ⟨2, 1, (zn 2 { grace2 := some 7 }), 7, by decide +kernel⟩,
   ⟨2, { (zn 2 { grace3 := some 7 }) with sup := { (zn 2 { grace3 := some 7 }).sup with level := [(levelKey (.throttle 2 2), { held := true })] } }, 7, 8, by decide +kernel⟩,
   ⟨2, 1, on, by decide +kernel⟩,
   ⟨2, (zn 2 { acked := true }), by decide +kernel⟩,
   ⟨2, (zn 2 { acked := false }), by decide +kernel⟩⟩
theorem witness_supervisionEvents :
    (∃ (i : Fin 48) (s : State), 4 ≤ (s.sensor i.val).fails ∧ (s.sensor i.val).broken = false) ∧
    (∃ (n : Bed) (s : State), 4 ≤ (s.therm n.val).fails ∧ (s.therm n.val).broken = false) ∧
    (∃ (i : Fin 48) (s : State), ((s.sensor i.val).fails < 4 ∨ (s.sensor i.val).broken = true)) ∧
    (∃ (n : Bed) (s : State), ((s.therm n.val).fails < 4 ∨ (s.therm n.val).broken = true)) ∧
    (∃ (i : Fin 48) (s : State), 64 ≤ (s.sensor i.val).passes) ∧
    (∃ (n : Bed) (s : State), 64 ≤ (s.therm n.val).passes) ∧
    (∃ (i : Fin 48) (s : State), (s.sensor i.val).passes < 64) ∧
    (∃ (n : Bed) (s : State), (s.therm n.val).passes < 64) ∧
    (∃ (s : State) (h : Nat) (x : Frac), (s.charge h).outCount < 4 ∧ (s.charge h).inCount < 64 ∧ x.lt (f32 (s.charge h).low) = true) ∧
    (∃ (r : Fin 16) (d : Fin 4) (high : Bool) (s : State) (l : Level), (l = (if high then (s.railRd (4 * r.val + d.val)).high else (s.railRd (4 * r.val + d.val)).low)) ∧ l.held = false ∧ 4 ≤ l.up) ∧
    (∃ (r : Fin 16) (d : Fin 4) (high : Bool) (s : State) (l : Level), (l = (if high then (s.railRd (4 * r.val + d.val)).high else (s.railRd (4 * r.val + d.val)).low)) ∧ (l.held = true ∨ l.up < 4)) ∧
    (∃ (r : Fin 16) (d : Fin 4) (high : Bool) (s : State) (l : Level), (l = (if high then (s.railRd (4 * r.val + d.val)).high else (s.railRd (4 * r.val + d.val)).low)) ∧ l.held = true ∧ 64 ≤ l.down) ∧
    (∃ (r : Fin 16) (d : Fin 4) (high : Bool) (s : State) (l : Level), (l = (if high then (s.railRd (4 * r.val + d.val)).high else (s.railRd (4 * r.val + d.val)).low)) ∧ (l.held = false ∨ l.down < 64)) ∧
    (∃ (s : State), s.sup.shutdown = true ∧ s.sup.analogueOff = false) ∧
    (∃ (s : State), (s.sup.shutdown = false ∨ s.sup.analogueOff = true)) ∧
    (∃ (s : State) (i : Nat), s.sup.tripOpen = some i ∧ i < 256 ∧ (∀ k, k < 16 → s.tripWord (16 * i + k) = (if k = 0 then 1 else 0))) ∧
    (∃ (s : State), s.sup.tripOpen = none) :=
  ⟨⟨47, { on with sup := { on.sup with sensor := [(47, { fails := 4 })], therm := [(15, { fails := 4 })] } }, by decide +kernel⟩,
   ⟨15, { on with sup := { on.sup with sensor := [(47, { fails := 4 })], therm := [(15, { fails := 4 })] } }, by decide +kernel⟩,
   ⟨47, on, by decide +kernel⟩,
   ⟨15, on, by decide +kernel⟩,
   ⟨47, { on with sup := { on.sup with sensor := [(47, { passes := 64 })], therm := [(15, { passes := 64 })] } }, by decide +kernel⟩,
   ⟨15, { on with sup := { on.sup with sensor := [(47, { passes := 64 })], therm := [(15, { passes := 64 })] } }, by decide +kernel⟩,
   ⟨47, on, by decide +kernel⟩,
   ⟨15, on, by decide +kernel⟩,
   ⟨on, 0, Frac.ofInt (-1), by decide +kernel⟩,
   ⟨15, 1, true, (rl 61 { high := { up := 4 } }), { up := 4 }, by decide +kernel⟩,
   ⟨15, 1, true, on, {}, by decide +kernel⟩,
   ⟨15, 1, false, (rl 61 { low := { held := true, down := 64 } }), { held := true, down := 64 }, by decide +kernel⟩,
   ⟨15, 1, false, on, {}, by decide +kernel⟩,
   ⟨{ on with sup := { on.sup with shutdown := true } }, by decide +kernel⟩,
   ⟨on, by decide +kernel⟩,
   ⟨{ on with sup := { on.sup with tripOpen := some 255, tripLog := [(4080, 1)] } }, 255, by decide +kernel⟩,
   ⟨on, by decide +kernel⟩⟩
theorem witness_thermalCommands :
    (∃ (s : State) (c : Current), Picked s 0x0A00 c ∧ par c 0 = 0 ∧ par c 1 < 32 ∧ zoneReason (parF c 2) (parF c 4) (parF c 6) (parF c 8) (parF c 10) (parF c 12) (par c 14) (parF c 15) = none) ∧
    (∃ (s : State) (c : Current), Picked s 0x0A00 c ∧ par c 0 = 0 ∧ par c 1 < 32 ∧ f32Finite (parF c 2) = true ∧ f32Finite (parF c 4) = true ∧ f32Finite (parF c 6) = true ∧ f32Finite (parF c 8) = true ∧ f32Finite (parF c 12) = true ∧ (f32 (parF c 2)).le (f32 (parF c 4)) = false) ∧
    (∃ (w t c d h st ror : BitVec 32) (g : Nat), zoneReason w t c d h st g ror = none) ∧
    (∃ (s : State) (c : Current), Picked s 0x0A00 c ∧ par c 0 = 1 ∧ par c 1 < 16 ∧ par c 2 < 4 ∧ thermOk (parF c 3) (parF c 5) (parF c 7) (parF c 9) (parF c 11) = true) ∧
    (∃ (s : State) (c : Current), Picked s 0x0A00 c ∧ par c 0 = 2 ∧ par c 1 < 16 ∧ railReason (par c 1) (parF c 2) (parF c 4) = none) ∧
    (∃ (s : State) (c : Current), Picked s 0x0A00 c ∧ par c 0 = 3 ∧ par c 1 ≤ 2 ∧ (par c 2 < (if par c 1 = 0 then 5 else 16))) ∧
    (∃ (s : State) (c : Current), Picked s 0x0A01 c ∧ 512 ≤ par c 0 ∧ 1 ≤ par c 1 ∧ par c 0 + par c 1 ≤ 544 ∧ par c 9 = 0 ∧ (par c 2 < 16 ∨ par c 2 = 0xFF ∨ par c 2 = 0xFE ∧ ∀ h, par c 0 ≤ h → h < par c 0 + par c 1 → (s.loop h).stage ≠ 0 ∧ (s.stage (s.loop h).stageId).attached = true ∧ 4 ≤ wAt (s.stage (s.loop h).stageId).ident 12) ∧ f32Finite (parF c 3) = true ∧ f32Finite (parF c 5) = true ∧ within (parF c 7) (dec 1 1) (Frac.ofInt 10) = true ∧ ((f32 (parF c 3)).add ((f32 (parF c 7)).mul (Frac.ofInt 2))).lt (f32 (parF c 5)) = true) ∧
    (∃ (s : State) (c : Current), Picked s 0x0A01 c ∧ par c 0 < 512 ∧ par c 9 = 0) ∧
    (∃ (s : State) (c : Current), Picked s 0x0A01 c ∧ 512 ≤ par c 0 ∧ par c 1 = 1 ∧ par c 0 < 544 ∧ par c 9 = 1) ∧
    (∃ (s : State) (c : Current), Picked s 0x0A01 c ∧ par c 0 = 512 ∧ par c 1 = 1 ∧ par c 9 = 0 ∧ par c 2 = 0xFE ∧ f32Finite (parF c 3) = true ∧ f32Finite (parF c 5) = true ∧ within (parF c 7) (dec 1 1) (Frac.ofInt 10) = true ∧ ((f32 (parF c 3)).add ((f32 (parF c 7)).mul (Frac.ofInt 2))).lt (f32 (parF c 5)) = true ∧ (s.loop 512).stage = 0) ∧
    (∃ (s : State) (c : Current), Picked s 0x0A02 c ∧ par c 0 < 32 ∧ par c 1 = 0) ∧
    (∃ (s : State) (c : Current), Picked s 0x0A02 c ∧ par c 0 < 32 ∧ par c 1 = 1) :=
  ⟨⟨(cmd 2560 [0, 31, 0, 0x4302, 0, 0x430C, 0, 0x4316, 0, 0x4320, 0, 0x40A0, 0, 0x4040, 100, 0, 0x41C8]), cur 2560 [0, 31, 0, 0x4302, 0, 0x430C, 0, 0x4316, 0, 0x4320, 0, 0x40A0, 0, 0x4040, 100, 0, 0x41C8], by decide +kernel⟩,
   ⟨(cmd 2560 [0, 31, 0, 17164, 0, 17154, 0, 17174, 0, 17184, 0, 16544, 0, 16448, 100, 0, 16840]), cur 2560 [0, 31, 0, 17164, 0, 17154, 0, 17174, 0, 17184, 0, 16544, 0, 16448, 100, 0, 16840], by decide +kernel⟩,
   ⟨0x43020000, 0x430C0000, 0x43160000, 0x43200000, 0x40A00000, 0x40400000, 0x41C80000, 100, by decide +kernel⟩,
   ⟨(cmd 2560 [1, 5, 3, 0, 0, 0, 0, 0, 0, 0, 17066, 0, 16256]), cur 2560 [1, 5, 3, 0, 0, 0, 0, 0, 0, 0, 17066, 0, 16256], by decide +kernel⟩,
   ⟨(cmd 2560 [2, 3, 0, 16096, 0, 16144]), cur 2560 [2, 3, 0, 16096, 0, 16144], by decide +kernel⟩,
   ⟨(cmd 2560 [3, 0, 4]), cur 2560 [3, 0, 4], by decide +kernel⟩,
   ⟨(cmd 2561 [512, 1, 0, 0, 0, 0, 16948, 0, 16256, 0]), cur 2561 [512, 1, 0, 0, 0, 0, 16948, 0, 16256, 0], by decide +kernel⟩,
   ⟨(cmd 2561 [511, 1, 0, 0, 0, 0, 16948, 0, 16256, 0]), cur 2561 [511, 1, 0, 0, 0, 0, 16948, 0, 16256, 0], by decide +kernel⟩,
   ⟨(cmd 2561 [543, 1, 0, 0, 0, 0, 16948, 0, 16256, 1]), cur 2561 [543, 1, 0, 0, 0, 0, 16948, 0, 16256, 1], by decide +kernel⟩,
   ⟨cmd 2561 [512, 1, 0xFE, 0, 0, 0, 0x4248, 0, 0x3F80, 0] (on), cur 2561 [512, 1, 0xFE, 0, 0, 0, 0x4248, 0, 0x3F80, 0], by decide +kernel⟩,
   ⟨(cmd 2562 [31, 0]), cur 2562 [31, 0], by decide +kernel⟩,
   ⟨(cmd 2562 [31, 1]), cur 2562 [31, 1], by decide +kernel⟩⟩
theorem witness_calibrationRuns :
    (∃ (s : State) (c : Current) (k : Nat) (sc : List Nat), Picked s 0x0B00 c ∧ k = par c 0 ∧ sc = scopesOf s k (par32 c 1) ∧ CalAsked c ∧ CalScopesFree s c ∧ tagInUse s c.tag.toNat = false ∧ s.sup.shutdown = false ∧ s.cal.run = none) ∧
    (∃ (s : State) (c : Current), Picked s 0x0B00 c ∧ 6 < par c 0) ∧
    (∃ (s : State) (c : Current), Picked s 0x0B00 c ∧ par c 0 ≤ 6 ∧ (2 ^ calScopes (par c 0) ≤ par32 c 1 ∨ (calScopes (par c 0) ≠ 0 ∧ par32 c 1 = 0))) ∧
    (∃ (s : State) (c : Current), Picked s 0x0B00 c ∧ CalAsked c ∧ tagInUse s c.tag.toNat = false ∧ (par c 0 ≤ 2 → s.clk.refPresent = true ∧ s.clk.holdover = false) ∧ s.sup.shutdown = true) ∧
    (∃ (s : State) (c : Current), Picked s 0x0B00 c ∧ CalAsked c ∧ CalScopesFree s c ∧ tagInUse s c.tag.toNat = false ∧ s.sup.shutdown = false ∧ s.cal.run ≠ none) ∧
    (∃ (m : CalMeas) (s : State), s.cal.run = none) ∧
    (∃ (m : CalMeas) (s : State) (r : CalRun), s.cal.run = some r ∧ r.aborting = true) ∧
    (∃ (m : CalMeas) (s : State) (r : CalRun) (n : Nat), s.cal.run = some r ∧ r.aborting = false ∧ rejectReason r m = some n) ∧
    (∃ (m : CalMeas) (s : State) (r : CalRun), s.cal.run = some r ∧ r.aborting = false ∧ rejectReason r m = none ∧ (r.dry = true ∨ r.kind = 6)) ∧
    (∃ (m : CalMeas) (s : State) (r : CalRun), s.cal.run = some r ∧ r.aborting = false ∧ rejectReason r m = none ∧ r.dry = false ∧ r.kind ≤ 5) ∧
    (∃ (l : List Nat), l.length = 16) ∧
    (∃ (r : CalRun) (m : CalMeas), r.kind = 6) :=
  ⟨⟨(cmd 2816 [5, 1, 0, 0, 0, 0, 0]), cur 2816 [5, 1, 0, 0, 0, 0, 0], 5, _, by repeat' (first | decide +kernel | rfl | apply And.intro)⟩,
   ⟨(cmd 2816 [7, 1, 0, 0]), cur 2816 [7, 1, 0, 0], by decide +kernel⟩,
   ⟨(cmd 2816 [3, 0, 0, 0]), cur 2816 [3, 0, 0, 0], by decide +kernel⟩,
   ⟨cmd 2816 [5, 1, 0, 0, 0, 0, 0] ({ on with sup := { on.sup with shutdown := true } }), cur 2816 [5, 1, 0, 0, 0, 0, 0], by decide +kernel⟩,
   ⟨cmd 2816 [5, 1, 0, 0, 0, 0, 0] (cl { on.cal with run := some aCalRun }), cur 2816 [5, 1, 0, 0, 0, 0, 0], by decide +kernel⟩,
   ⟨aQuiet, on, by decide +kernel⟩,
   ⟨aQuiet, (cl { run := some { aCalRun with aborting := true } } on), { aCalRun with aborting := true }, by decide +kernel⟩,
   ⟨{ aQuiet with repeatMilli := 301 }, (cl { run := some aCalRun } on), aCalRun, 4, by decide +kernel⟩,
   ⟨aQuiet, cl { on.cal with run := some { aCalRun with dry := true } }, { aCalRun with dry := true }, by decide +kernel⟩,
   ⟨aQuiet, (cl { run := some aCalRun } on), aCalRun, by decide +kernel⟩,
   ⟨List.replicate 16 5, by decide +kernel⟩,
   ⟨{ aCalRun with kind := 6 }, aQuiet, by decide +kernel⟩⟩
theorem witness_calibrationImages :
    (∃ (s : State) (c : Current) (target : Bool), Picked s 0x0B01 c ∧ tagInUse s c.tag.toNat = false ∧ keepAllowed s 1 = true ∧ s.cal.run = none ∧ keepBusy s = false ∧ target = decide (newestSlot s = some false)) ∧
    (∃ (s : State) (c : Current), Picked s 0x0B01 c ∧ tagInUse s c.tag.toNat = false ∧ keepAllowed s 1 = false) ∧
    (∃ (s : State) (c : Current), Picked s 0x0B01 c ∧ tagInUse s c.tag.toNat = false ∧ keepAllowed s 1 = true ∧ s.cal.run ≠ none) ∧
    (∃ (s : State) (c : Current), Picked s 0x0B01 c ∧ tagInUse s c.tag.toNat = false ∧ keepAllowed s 1 = true ∧ s.cal.run = none ∧ keepBusy s = true) ∧
    (∃ (ok : Bool) (s : State), s.cal.commit = none) ∧
    (∃ (s : State) (k : CalCommit), s.cal.commit = some k ∧ k.wear = false ∧ s.sup.keepOpen = true ∧ k.gen < 2 ^ 32) ∧
    (∃ (ok : Bool) (s : State) (k : CalCommit), s.cal.commit = some k ∧ (k.wear = true ∨ s.sup.keepOpen = false ∨ ok = false)) ∧
    (∃ (s : State) (c : Current), Picked s 0x0B02 c ∧ par c 0 = 0 ∧ par c 1 ≤ 3 ∧ (∀ q, q < 64 → seqBusy s q = false) ∧ (∀ u, u < 32 → (s.tiu u).run = none) ∧ s.cal.run = none ∧ (par c 1 = 1 → slotValid s false = true) ∧ (par c 1 = 2 → slotValid s true = true)) ∧
    (∃ (s : State) (c : Current) (b : Bool), Picked s 0x0B02 c ∧ par c 0 = 0 ∧ (par c 1 = (if b then 2 else 1)) ∧ (∀ q, q < 64 → seqBusy s q = false) ∧ (∀ u, u < 32 → (s.tiu u).run = none) ∧ s.cal.run = none ∧ slotValid s b = false) ∧
    (∃ (s : State) (c : Current) (q : Nat), Picked s 0x0B02 c ∧ par c 0 = 0 ∧ par c 1 ≤ 3 ∧ q < 64 ∧ seqBusy s q = true) ∧
    (∃ (s : State) (c : Current), Picked s 0x0B02 c ∧ par c 0 = 0 ∧ par c 1 ≤ 3 ∧ (∀ q, q < 64 → seqBusy s q = false) ∧ (∀ u, u < 32 → (s.tiu u).run = none) ∧ s.cal.run ≠ none) ∧
    (∃ (s : State) (c : Current), Picked s 0x0B02 c ∧ par c 0 = 0 ∧ 3 < par c 1) ∧
    (∃ (s : State) (c : Current), Picked s 0x0B02 c ∧ par c 0 = 1) ∧
    (∃ (s : State) (c : Current), Picked s 0x0B02 c ∧ par c 0 = 2 ∧ par c 1 = 7 ∧ par c 2 < 8) ∧
    (∃ (s : State) (c : Current), Picked s 0x0B02 c ∧ par c 0 = 2 ∧ (par c 1 = 3 ∨ par c 1 = 4) ∧ par c 2 < qualityCount (par c 1) ∧ s.measured (1024 * par c 1 + par c 2) = true) ∧
    (∃ (s : State) (c : Current), Picked s 0x0B02 c ∧ par c 0 = 2 ∧ par c 1 < 7 ∧ par c 2 < qualityCount (par c 1)) ∧
    (∃ (s : State) (c : Current), Picked s 0x0B02 c ∧ par c 0 = 2 ∧ 7 < par c 1) :=
  ⟨⟨(cmd 2817 [] wr), cur 2817 [], _, by repeat' (first | decide +kernel | rfl | apply And.intro)⟩,
   ⟨(cmd 2817 []), cur 2817 [], by decide +kernel⟩,
   ⟨(cmd 2817 [] (cl { run := some aCalRun } wr)), cur 2817 [], by decide +kernel⟩,
   ⟨cmd 2817 [] (cl { on.cal with commit := some ⟨5, 0, false, 7, false⟩ } wr), cur 2817 [], by decide +kernel⟩,
   ⟨true, on, by decide +kernel⟩,
   ⟨(cl { commit := some ⟨5, 0, false, 7, false⟩ } wr), ⟨5, 0, false, 7, false⟩, by decide +kernel⟩,
   ⟨false, (cl { commit := some ⟨5, 0, false, 7, false⟩ } wr), ⟨5, 0, false, 7, false⟩, by decide +kernel⟩,
   ⟨(cmd 2818 [0, 3]), cur 2818 [0, 3], by repeat' (first | decide +kernel | rfl | apply And.intro)⟩,
   ⟨cmd 2818 [0, 2], cur 2818 [0, 2], true, by decide +kernel⟩,
   ⟨cmd 2818 [0, 3] (run { mode := .exec }), cur 2818 [0, 3], 0, by decide +kernel⟩,
   ⟨cmd 2818 [0, 3] (cl { on.cal with run := some aCalRun }), cur 2818 [0, 3], by decide +kernel⟩,
   ⟨(cmd 2818 [0, 4]), cur 2818 [0, 4], by decide +kernel⟩,
   ⟨(cmd 2818 [1]), cur 2818 [1], by decide +kernel⟩,
   ⟨(cmd 2818 [2, 7, 7]), cur 2818 [2, 7, 7], by decide +kernel⟩,
   ⟨(cmd 2818 [2, 4, 31] (cl { measured := [(4127, true)] } on)), cur 2818 [2, 4, 31], by decide +kernel⟩,
   ⟨(cmd 2818 [2, 0, 15]), cur 2818 [2, 0, 15], by decide +kernel⟩,
   ⟨(cmd 2818 [2, 8, 0]), cur 2818 [2, 8, 0], by decide +kernel⟩⟩
theorem witness_keepStoreCommands :
    (∃ (s : State) (c : Current), Picked s 0x0B03 c ∧ par c 0 = 0 ∧ par c 1 = 0 ∧ 2 ≤ par c 4 ∧ par c 4 ≤ 224 ∧ par c 4 % 2 = 0 ∧ par32 c 2 + par c 4 ≤ 0x40000 ∧ par c 4 ≤ 2 * (c.params.length - 5) ∧ keepAllowed s 0 = true ∧ keepBusy s = false ∧ wornOut s ((0x30000 + par32 c 2) / 4096) = false) ∧
    (∃ (s : State) (c : Current), Picked s 0x0B03 c ∧ par c 0 = 0 ∧ par c 1 = 0 ∧ 2 ≤ par c 4 ∧ par c 4 ≤ 224 ∧ par c 4 % 2 = 0 ∧ par32 c 2 + par c 4 ≤ 0x40000 ∧ keepAllowed s 0 = false) ∧
    (∃ (s : State) (c : Current), Picked s 0x0B03 c ∧ par c 0 = 0 ∧ par c 1 = 0 ∧ 2 ≤ par c 4 ∧ par c 4 ≤ 224 ∧ par c 4 % 2 = 0 ∧ par32 c 2 + par c 4 ≤ 0x40000 ∧ keepAllowed s 0 = true ∧ keepBusy s = true) ∧
    (∃ (s : State) (c : Current), Picked s 0x0B03 c ∧ par c 0 = 2 ∧ par c 1 = 0 ∧ 2 ≤ par c 4 ∧ par c 4 ≤ 224 ∧ par c 4 % 2 = 0 ∧ par32 c 2 + par c 4 ≤ 0x8000) ∧
    (∃ (s : State) (c : Current), Picked s 0x0B03 c ∧ par c 0 ≠ 0 ∧ par c 0 ≠ 2 ∧ par c 1 = 0) ∧
    (∃ (s : State) (c : Current) (st : Tab Byte) (target : Bool), Picked s 0x0B03 c ∧ par c 0 = 2 ∧ par c 1 = 1 ∧ s.cal.staging = some st ∧ seedBad (tget seedFactory st) = none ∧ keepAllowed s 2 = true ∧ keepBusy s = false ∧ target = decide (newestSeed s = some false) ∧ wornOut s (seedBase target / 4096) = false) ∧
    (∃ (s : State) (c : Current) (st : Tab Byte) (k : Nat), Picked s 0x0B03 c ∧ par c 0 = 2 ∧ par c 1 = 1 ∧ s.cal.staging = some st ∧ seedBad (tget seedFactory st) = some k) ∧
    (∃ (s : State) (c : Current), Picked s 0x0B03 c ∧ par c 0 = 2 ∧ par c 1 = 1 ∧ s.cal.staging = none ∧ keepAllowed s 2 = true) ∧
    (∃ (s : State) (c : Current), Picked s 0x0B03 c ∧ par c 0 = 2 ∧ par c 1 = 2) ∧
    (∃ (s : State) (c : Current) (st : Tab Byte), Picked s 0x0B03 c ∧ par c 0 = 2 ∧ par c 1 = 3 ∧ s.cal.staging = some st) ∧
    (∃ (s : State) (c : Current), Picked s 0x0B03 c ∧ par c 0 = 2 ∧ par c 1 = 3 ∧ s.cal.staging = none) ∧
    (∃ (s : State) (c : Current), Picked s 0x0B04 c ∧ par c 0 ≤ 5 ∧ par32 c 1 + par c 3 ≤ (keepArea (par c 0)).2 ∧ 2 ≤ par c 3 ∧ par c 3 ≤ 224 ∧ par c 3 % 2 = 0 ∧ keepBusy s = false) ∧
    (∃ (s : State) (c : Current) (st : Tab Byte), Picked s 0x0B04 c ∧ par c 0 = 6 ∧ par32 c 1 + par c 3 ≤ 0x8000 ∧ 2 ≤ par c 3 ∧ par c 3 ≤ 224 ∧ par c 3 % 2 = 0 ∧ s.cal.staging = some st ∧ keepBusy s = false) ∧
    (∃ (s : State) (c : Current), Picked s 0x0B04 c ∧ par c 0 ≤ 5 ∧ par32 c 1 + par c 3 ≤ (keepArea (par c 0)).2 ∧ 2 ≤ par c 3 ∧ par c 3 ≤ 224 ∧ par c 3 % 2 = 0 ∧ keepBusy s = true) ∧
    (∃ (s : State), s.cal.op = none) ∧
    (∃ (s : State) (o : KeepOp) (k : Nat) (x : KeepStep) (r : List KeepStep), s.cal.op = some o ∧ o.steps = .erase k :: x :: r ∧ s.sup.keepOpen = true ∧ (∀ j, x = .erase j → j ≠ k ∧ wornOut s j = false)) ∧
    (∃ (s : State) (o : KeepOp) (c : Current) (p : Nat) (l : List Byte), s.cal.op = some o ∧ o.steps = [.program p l] ∧ s.fw.current = some c ∧ c.wait = .keepOp) ∧
    (∃ (s : State) (o : KeepOp) (c : Current) (p : Nat) (l : List Byte) (x : KeepStep) (r : List KeepStep), s.cal.op = some o ∧ o.steps = .program p l :: x :: r ∧ s.fw.current = some c ∧ c.wait = .keepOp ∧ s.sup.keepOpen = false) ∧
    (∃ (s : State) (o : KeepOp) (c : Current) (p : Nat) (l : List Byte) (j : Nat) (r : List KeepStep), s.cal.op = some o ∧ o.steps = .program p l :: .erase j :: r ∧ s.fw.current = some c ∧ c.wait = .keepOp ∧ s.sup.keepOpen = true ∧ wornOut s j = true) ∧
    (∃ (s : State) (o : KeepOp) (p : Nat) (l : List Byte) (x : KeepStep) (r : List KeepStep), s.cal.op = some o ∧ o.steps = .program p l :: x :: r ∧ s.sup.keepOpen = true ∧ (∀ j, x = .erase j → wornOut s j = false)) :=
  ⟨⟨(cmd 2819 [0, 0, 2, 0, 2, 85] wr), cur 2819 [0, 0, 2, 0, 2, 85], by decide +kernel⟩,
   ⟨(cmd 2819 [0, 0, 65534, 3, 2, 85]), cur 2819 [0, 0, 65534, 3, 2, 85], by decide +kernel⟩,
   ⟨(cmd 2819 [0, 0, 2, 0, 2, 85] (cl { commit := some ⟨5, 0, false, 7, false⟩ } wr)), cur 2819 [0, 0, 2, 0, 2, 85], by decide +kernel⟩,
   ⟨(cmd 2819 [2, 0, 32766, 0, 2, 85]), cur 2819 [2, 0, 32766, 0, 2, 85], by decide +kernel⟩,
   ⟨(cmd 2819 [1, 0]), cur 2819 [1, 0], by decide +kernel⟩,
   ⟨(cmd 2819 [2, 1] (cl { staging := some [] } wr)), cur 2819 [2, 1], [], false, by decide +kernel⟩,
   ⟨(cmd 2819 [2, 1] (cl { staging := some [(0x50, 0x70)] } wr)), cur 2819 [2, 1], [(0x50, 0x70)], 0x50, by decide +kernel⟩,
   ⟨(cmd 2819 [2, 1] wr), cur 2819 [2, 1], by decide +kernel⟩,
   ⟨(cmd 2819 [2, 2]), cur 2819 [2, 2], by decide +kernel⟩,
   ⟨(cmd 2819 [2, 3] (cl { staging := some [] } on)), cur 2819 [2, 3], [], by decide +kernel⟩,
   ⟨(cmd 2819 [2, 3]), cur 2819 [2, 3], by decide +kernel⟩,
   ⟨(cmd 2820 [5, 65534, 1, 2]), cur 2820 [5, 65534, 1, 2], by decide +kernel⟩,
   ⟨(cmd 2820 [6, 32766, 0, 2] (cl { staging := some [] } on)), cur 2820 [6, 32766, 0, 2], [], by decide +kernel⟩,
   ⟨(cmd 2820 [5, 0, 0, 224] (cl { commit := some ⟨5, 0, false, 7, false⟩ } on)), cur 2820 [5, 0, 0, 224], by decide +kernel⟩,
   ⟨on, by decide +kernel⟩,
   ⟨(cl { op := some ⟨0, [.erase 48, .erase 49], 0⟩ } wr), ⟨0, [.erase 48, .erase 49], 0⟩, 48, .erase 49, [], by exact ⟨by decide +kernel, by decide +kernel, by decide +kernel, fun j h => by cases h; decide +kernel⟩⟩,
   ⟨(cl { op := some ⟨0, [.program 5 [1]], 0⟩ } { on with fw := { on.fw with current := some { cur 0xB03 [] with wait := .keepOp } } }), ⟨0, [.program 5 [1]], 0⟩, { cur 0xB03 [] with wait := .keepOp }, 5, [1], by decide +kernel⟩,
   ⟨(cl { op := some ⟨0, [.program 5 [1], .erase 9], 0⟩ } { on with fw := { on.fw with current := some { cur 0xB03 [] with wait := .keepOp } } }), ⟨0, [.program 5 [1], .erase 9], 0⟩, { cur 0xB03 [] with wait := .keepOp }, 5, [1], .erase 9, [], by decide +kernel⟩,
   ⟨cl { op := some ⟨0, [.program 5 [1], .erase 9], 0⟩, wear := [(9, 100001)] } { wr with fw := { on.fw with current := some { cur 0xB03 [] with wait := .keepOp } } }, ⟨0, [.program 5 [1], .erase 9], 0⟩, { cur 0xB03 [] with wait := .keepOp }, 5, [1], 9, [], by decide +kernel⟩,
   ⟨cl { op := some ⟨0, [.program 5 [1], .program 21 [2]], 0⟩ } wr, ⟨0, [.program 5 [1], .program 21 [2]], 0⟩, 5, [1], .program 21 [2], [], by decide +kernel, by decide +kernel, by decide +kernel, fun j h => nomatch h⟩⟩
theorem witness_faultCommands :
    (∃ (s : State) (c : Current), Picked s 0x0C00 c ∧ par c 0 < 28 ∧ 1 ≤ par c 2 ∧ par c 2 ≤ 64 ∧ par c 1 + par c 2 ≤ srcCount (par c 0) ∧ par c 3 = 0 ∧ (∀ i, i < par c 2 → reactLegal (w16 (par c (4 + i))) = true)) ∧
    (∃ (s : State) (c : Current), Picked s 0x0C00 c ∧ par c 0 = 0x1F ∧ 1 ≤ par c 2 ∧ par c 2 ≤ 64 ∧ par c 1 + par c 2 ≤ srcCount 0 ∧ par c 3 = 0 ∧ (∀ i, i < par c 2 → reactLegal (w16 (par c (4 + i))) = true)) ∧
    (∃ (s : State) (c : Current), Picked s 0x0C00 c ∧ par c 0 < 28 ∧ 1 ≤ par c 2 ∧ par c 2 ≤ 64 ∧ srcCount (par c 0) < par c 1 + par c 2 ∧ par c 3 = 0) ∧
    (∃ (s : State) (c : Current), Picked s 0x0C00 c ∧ par c 0 < 28 ∧ par c 2 = 1 ∧ par c 1 < srcCount (par c 0) ∧ par c 3 = 0 ∧ reactLegal (w16 (par c 4)) = false) ∧
    (∃ (s : State) (c : Current), Picked s 0x0C00 c ∧ par c 0 < 28 ∧ 1 ≤ par c 2 ∧ par c 2 ≤ 64 ∧ par c 1 + par c 2 ≤ srcCount (par c 0) ∧ par c 3 = 1) ∧
    (∃ (s : State) (c : Current), Picked s 0x0C00 c ∧ par c 0 = 0x1F ∧ par c 3 = 1) ∧
    (∃ (s : State) (c : Current), Picked s 0x0C01 c ∧ par c 0 < 28 ∧ par c 1 < srcCount (par c 0) ∧ par c 2 = 0 ∧ par c 3 = 0 ∧ par c 4 = 0 ∧ par c 5 = 0 ∧ par c 6 = 0) ∧
    (∃ (s : State) (c : Current), Picked s 0x0C01 c ∧ par c 0 < 28 ∧ par c 1 < srcCount (par c 0) ∧ par c 2 = 1 ∧ c.pick + 32000 ≤ par64 c 3) ∧
    (∃ (s : State) (c : Current), Picked s 0x0C01 c ∧ par c 0 < 28 ∧ par c 1 < srcCount (par c 0) ∧ par c 2 = 1 ∧ par64 c 3 < c.pick + 32000) ∧
    (∃ (s : State) (c : Current), Picked s 0x0C01 c ∧ par c 0 < 28 ∧ srcCount (par c 0) ≤ par c 1) ∧
    (∃ (s : State) (c : Current), Picked s 0x0C02 c ∧ par c 0 < 16 ∧ par c 1 = 0 ∧ par c 2 ≠ 0 ∧ par c 2 ≤ 8 ∧ targetOk (par c 2) (par c 3) = true ∧ amountOk (par c 2) (BitVec.ofNat 32 (par32 c 4)) = true ∧ 1 ≤ par32 c 10 ∧ (par32 c 12 = 0 ∨ par32 c 10 ≤ par32 c 12) ∧ s.flt.armed = false) ∧
    (∃ (s : State) (c : Current), Picked s 0x0C02 c ∧ par c 0 < 16 ∧ par c 1 = 0 ∧ par c 2 = 0 ∧ s.flt.armed = false) ∧
    (∃ (s : State) (c : Current), Picked s 0x0C02 c ∧ par c 0 < 16 ∧ par c 1 = 0 ∧ par c 2 = 0 ∧ s.flt.armed = true) ∧
    (∃ (s : State) (c : Current), Picked s 0x0C02 c ∧ par c 0 < 16 ∧ par c 1 = 1) ∧
    (∃ (s : State) (c : Current), Picked s 0x0C02 c ∧ 16 ≤ par c 0 ∧ par c 1 = 1) :=
  ⟨⟨(cmd 3072 [5, 0, 2, 0, 0, 4]), cur 3072 [5, 0, 2, 0, 0, 4], by decide +kernel⟩,
   ⟨(cmd 3072 [31, 0, 1, 0, 0]), cur 3072 [31, 0, 1, 0, 0], by decide +kernel⟩,
   ⟨(cmd 3072 [27, 60, 64, 0]), cur 3072 [27, 60, 64, 0], by decide +kernel⟩,
   ⟨(cmd 3072 [5, 0, 1, 0, 5]), cur 3072 [5, 0, 1, 0, 5], by decide +kernel⟩,
   ⟨(cmd 3072 [27, 0, 1, 1]), cur 3072 [27, 0, 1, 1], by decide +kernel⟩,
   ⟨(cmd 3072 [31, 0, 1, 1]), cur 3072 [31, 0, 1, 1], by decide +kernel⟩,
   ⟨(cmd 3073 [27, 0, 0, 0, 0, 0, 0]), cur 3073 [27, 0, 0, 0, 0, 0, 0], by decide +kernel⟩,
   ⟨(cmd 3073 [27, 0, 1, 32000, 0, 0, 0]), cur 3073 [27, 0, 1, 32000, 0, 0, 0], by decide +kernel⟩,
   ⟨(cmd 3073 [27, 0, 1, 31999, 0, 0, 0]), cur 3073 [27, 0, 1, 31999, 0, 0, 0], by decide +kernel⟩,
   ⟨(cmd 3073 [27, 64, 0, 0, 0, 0, 0]), cur 3073 [27, 64, 0, 0, 0, 0, 0], by decide +kernel⟩,
   ⟨(cmd 3074 [15, 0, 8, 15, 16, 0, 0, 0, 0, 0, 1, 0, 1, 0]), cur 3074 [15, 0, 8, 15, 16, 0, 0, 0, 0, 0, 1, 0, 1, 0], by decide +kernel⟩,
   ⟨(cmd 3074 [15, 0, 0]), cur 3074 [15, 0, 0], by decide +kernel⟩,
   ⟨(cmd 3074 [15, 0, 0] { on with flt := { on.flt with armed := true } }), cur 3074 [15, 0, 0], by decide +kernel⟩,
   ⟨(cmd 3074 [15, 1] { on with flt := { on.flt with armed := true } }), cur 3074 [15, 1], by decide +kernel⟩,
   ⟨(cmd 3074 [16, 1]), cur 3074 [16, 1], by decide +kernel⟩⟩
theorem witness_faultRegistration :
    (∃ (k : Block) (s : State) (d : Detect) (w : Word), registering s k.val = [d] ∧ w = s.react k.val d.source ∧ reactOf w ≤ 1 ∧ errnOf w = false ∧ clocheOf w = 0) ∧
    (∃ (k : Block) (s : State) (d e : Detect), (registering s k.val = [d, e] ∨ registering s k.val = [e, d]) ∧ d.source < 64 ∧ e.source < 64 ∧ (srcSev k.val e.source < srcSev k.val d.source ∨ (srcSev k.val e.source = srcSev k.val d.source ∧ d.source < e.source)) ∧ reactOf (s.react k.val d.source) ≤ 1 ∧ errnOf (s.react k.val d.source) = false ∧ clocheOf (s.react k.val d.source) = 0 ∧ reactOf (s.react k.val e.source) ≤ 1 ∧ errnOf (s.react k.val e.source) = false ∧ clocheOf (s.react k.val e.source) = 0 ∧ (s.fblk k.val).ffValid = false) ∧
    (∃ (k : Block) (s : State) (d : Detect), registering s k.val = [d] ∧ reactOf (s.react k.val d.source) ≤ 1 ∧ errnOf (s.react k.val d.source) = true ∧ clocheOf (s.react k.val d.source) = 0) ∧
    (∃ (k : Block) (s : State) (d : Detect), k.val < 16 ∧ registering s k.val = [d] ∧ reactOf (s.react k.val d.source) ≤ 1 ∧ clocheOf (s.react k.val d.source) = 1) ∧
    (∃ (k : Block) (s : State) (d : Detect), registering s k.val = [d] ∧ reactOf (s.react k.val d.source) ≤ 1 ∧ 2 ≤ clocheOf (s.react k.val d.source) ∧ d.forced = false) ∧
    (∃ (k : Block) (s : State) (d : Detect), registering s k.val = [d] ∧ reactOf (s.react k.val d.source) = 2 ∧ errnOf (s.react k.val d.source) = false ∧ clocheOf (s.react k.val d.source) = 0) ∧
    (∃ (k : Block) (s : State) (d : Detect), registering s k.val = [d] ∧ reactOf (s.react k.val d.source) = 3 ∧ errnOf (s.react k.val d.source) = false ∧ clocheOf (s.react k.val d.source) = 0 ∧ k.val ≠ 0x12 ∧ k.val ≠ 0x16 ∧ k.val ≠ 0x17 ∧ deeper s = false ∧ s.clk.restarting = false ∧ s.blkReset k.val = false ∧ ((s.fblk k.val).ffValid = false ∨ reactOf (s.fblk k.val).ffReact < 3)) ∧
    (∃ (k : Block) (s : State) (d : Detect), registering s k.val = [d] ∧ reactOf (s.react k.val d.source) = 3 ∧ errnOf (s.react k.val d.source) = false ∧ clocheOf (s.react k.val d.source) = 0 ∧ (deeper s = true ∨ s.clk.restarting = true ∨ s.blkReset k.val = true) ∧ k.val ≠ 0x12 ∧ k.val ≠ 0x16 ∧ k.val ≠ 0x17) ∧
    (∃ (k : Block) (s : State) (d : Detect), registering s k.val = [d] ∧ reactOf (s.react k.val d.source) = 4 ∧ errnOf (s.react k.val d.source) = false ∧ clocheOf (s.react k.val d.source) = 0 ∧ (s.fblk k.val).ffValid = false ∧ s.clk.faultResetEnd = none ∧ s.clk.resetting = none ∧ s.clk.phase ≠ .off ∧ s.clk.phase ≠ .deep) ∧
    (∃ (s : State) (w : Word) (e : Nat), s.clk.faultResetEnd = some e ∧ s.clk.time < e + 3200000000 ∧ reactOf w = 4) ∧
    (∃ (k : Block) (s : State), registering s k.val = [] ∧ forceFirst s k.val = none) ∧
    (∃ (k : Block) (s : State) (tc src : Nat), registering s k.val = [] ∧ forceFirst s k.val = some (tc, k.val, src) ∧ reactOf (s.react k.val src) ≤ 1 ∧ errnOf (s.react k.val src) = false ∧ clocheOf (s.react k.val src) = 0 ∧ (s.fblk k.val).ffValid = false) ∧
    (∃ (k : Block) (s : State) (f : DirectFault), f.source < srcCount k.val ∧ srcEvent k.val f.source = false ∧ (s.fblk k.val).live.getLsbD f.source = true ∧ registering s k.val = [] ∧ forceFirst s k.val = none) ∧
    (∃ (k : Block) (s : State) (f : DirectFault), f.source < srcCount k.val ∧ srcEvent k.val f.source = false ∧ (s.fblk k.val).live.getLsbD f.source = false ∧ registering s k.val = [] ∧ reactOf (s.react k.val f.source) ≤ 1 ∧ errnOf (s.react k.val f.source) = false ∧ clocheOf (s.react k.val f.source) = 0) :=
  ⟨⟨5, (flt { on.flt with waiting := [⟨5, 0, 0, 0, false, 32⟩], react := [(320, 1)] }), ⟨5, 0, 0, 0, false, 32⟩, 1, by repeat' (first | decide +kernel | rfl | apply And.intro)⟩,
   ⟨5, (flt { on.flt with waiting := [⟨5, 0, 0, 0, false, 32⟩, ⟨5, 1, 0, 0, false, 32⟩], react := [(320, 1), (321, 1)] }), ⟨5, 0, 0, 0, false, 32⟩, ⟨5, 1, 0, 0, false, 32⟩, by decide +kernel⟩,
   ⟨5, (flt { on.flt with waiting := [⟨5, 0, 0, 0, false, 32⟩], react := [(320, 9)] }), ⟨5, 0, 0, 0, false, 32⟩, by decide +kernel⟩,
   ⟨5, (flt { on.flt with waiting := [⟨5, 0, 0, 0, false, 32⟩], react := [(320, 17)] }), ⟨5, 0, 0, 0, false, 32⟩, by decide +kernel⟩,
   ⟨5, (flt { on.flt with waiting := [⟨5, 0, 0, 0, false, 32⟩], react := [(320, 33)] }), ⟨5, 0, 0, 0, false, 32⟩, by decide +kernel⟩,
   ⟨5, (flt { on.flt with waiting := [⟨5, 0, 0, 0, false, 32⟩], react := [(320, 2)] }), ⟨5, 0, 0, 0, false, 32⟩, by decide +kernel⟩,
   ⟨5, flt { on.flt with waiting := [⟨5, 0, 0, 0, false, 32⟩], react := [(320, 3)] }, ⟨5, 0, 0, 0, false, 32⟩, by decide +kernel⟩,
   ⟨5, { flt { on.flt with waiting := [⟨5, 0, 0, 0, false, 32⟩], react := [(320, 3)] } with clk := { on.clk with restarting := true } }, ⟨5, 0, 0, 0, false, 32⟩, by decide +kernel⟩,
   ⟨5, (flt { on.flt with waiting := [⟨5, 0, 0, 0, false, 32⟩], react := [(320, 4)] }), ⟨5, 0, 0, 0, false, 32⟩, by decide +kernel⟩,
   ⟨{ on with clk := { on.clk with faultResetEnd := some 0 } }, 4, 0, by decide +kernel⟩,
   ⟨27, on, by decide +kernel⟩,
   ⟨5, (flt { on.flt with waiting := [], react := [(320, 1)], forceAt := [(64, 5, 0)] }), 64, 0, by decide +kernel⟩,
   ⟨5, (flt { on.flt with waiting := [], react := [], block := [(5, { live := 2 })] }), ⟨1, 0, 0⟩, by decide +kernel⟩,
   ⟨5, (flt { on.flt with waiting := [], react := [(320, 1)] }), ⟨0, 0, 0⟩, by decide +kernel⟩⟩
theorem witness_faultEvents :
    (∃ (s : State), s.bus.errnPulse = none) ∧
    (∃ (s : State) (a : Nat), s.bus.errnPulse = some a) ∧
    (∃ (b : Bed) (s : State), (s.bedc b.val).active = false) ∧
    (∃ (b : Bed) (s : State), (s.bedc b.val).active = true) ∧
    (∃ (n : Fin 4) (rising : Bool) (s : State), (s.tin n.val).enable = false) ∧
    (∃ (n : Fin 4) (rising : Bool) (s : State) (stamp : Nat), (s.tin n.val).enable = true ∧ stamp = s.clk.time - 16 * (s.tin n.val).filter) ∧
    (∃ (e : Fin 16) (s : State), s.flt.armed = false) ∧
    (∃ (e : Fin 16) (s : State), nextWindow (s.pert e.val) s.flt.armTime = none) ∧
    (∃ (e : Fin 16) (s : State) (k a : Nat), s.flt.armed = true ∧ nextWindow (s.pert e.val) s.flt.armTime = some (k, a) ∧ (s.pert e.val).active = false) ∧
    (∃ (e : Fin 16) (s : State) (k a : Nat), s.flt.armed = true ∧ nextWindow (s.pert e.val) s.flt.armTime = some (k, a) ∧ (s.pert e.val).active = true) ∧
    (∃ (e : Fin 16) (s : State), (s.pert e.val).active = false) ∧
    (∃ (e : Fin 16) (s : State), (s.pert e.val).active = true) ∧
    (∃ (e : Fin 16) (s : State), (s.pert e.val).active = true ∧ (s.pert e.val).kind ≠ 4 ∧ (s.pert e.val).kind ≠ 5 ∧ (s.pert e.val).kind ≠ 8) ∧
    (∃ (e : Fin 16) (s : State) (port k : Nat), (s.pert e.val).active = true ∧ (s.pert e.val).kind = 5 ∧ (s.pert e.val).target = 4 * port + k ∧ port ≤ 1 ∧ k ≤ 3 ∧ (∀ j, j < 16 → j ≠ e.val → (s.pert j).active = true → (s.pert j).kind = 5 → (s.pert j).target ≠ (s.pert e.val).target) ∧ (s.cls port k).withheld ≠ 0) ∧
    (∃ (p : Perturb) (arm : Nat), p.kind ≠ 0 ∧ p.period = 0 ∧ p.next = 0) ∧
    (∃ (p : Perturb) (arm : Nat), p.kind ≠ 0 ∧ p.period ≠ 0 ∧ p.repeats = 0 ∧ p.next = 0) ∧
    (∃ (p : Perturb) (arm : Nat), p.period ≠ 0 ∧ p.repeats ≠ 0 ∧ p.repeats ≤ p.next) :=
  ⟨⟨on, by decide +kernel⟩,
   ⟨{ on with bus := { on.bus with errnPulse := some 5 } }, 5, by decide +kernel⟩,
   ⟨15, on, by decide +kernel⟩,
   ⟨15, { on with flt := { on.flt with bed := [(15, { active := true })] } }, by decide +kernel⟩,
   ⟨3, true, on, by decide +kernel⟩,
   ⟨3, true, { on with pat := { on.pat with tin := [(3, { enable := true })] } }, _, by repeat' (first | decide +kernel | rfl | apply And.intro)⟩,
   ⟨15, on, by decide +kernel⟩,
   ⟨7, on, by decide +kernel⟩,
   ⟨7, { on with flt := { on.flt with armed := true, entry := [(7, { kind := 5, window := 1 })] } }, 0, 0, by decide +kernel⟩,
   ⟨7, { on with flt := { on.flt with armed := true, entry := [(7, { kind := 5, window := 1, active := true })] } }, 0, 0, by decide +kernel⟩,
   ⟨15, on, by decide +kernel⟩,
   ⟨7, { on with flt := { on.flt with armed := true, entry := [(7, { kind := 4, active := true })] } }, by decide +kernel⟩,
   ⟨7, { on with flt := { on.flt with armed := true, entry := [(7, { kind := 1, active := true })] } }, by decide +kernel⟩,
   ⟨7, { { on with flt := { on.flt with armed := true, entry := [(7, { kind := 5, target := 7, active := true })] } } with link := { on.link with port := [(1, { cls := [(3, { withheld := 2 })] })] } }, 1, 3, by refine ⟨by decide +kernel, by decide +kernel, by decide +kernel, by decide, by decide, ?_, by decide +kernel⟩; decide +kernel⟩,
   ⟨{ kind := 1, window := 1 }, 0, by decide +kernel⟩,
   ⟨{ kind := 1, period := 5, window := 1 }, 0, by decide +kernel⟩,
   ⟨{ period := 5, repeats := 3, next := 3 }, 0, by decide +kernel⟩⟩
theorem witness_busCycles :
    (∃ (s t : State) (m : Master) (a : Addr) (w : Word), busAlive s = true ∧ exec (.registerWritePlain m a w) s = .next t) ∧
    (∃ (s : State) (v w : Word), busAlive s = true ∧ s.bus.halfHost = none ∧ s.bus.halfShed = none ∧ s.bus.lastHost = none ∧ s.bus.lastShed = none ∧ v.toNat ∈ rangeFrom 10 1991) ∧
    (∃ (s : State) (v w : Word), busAlive s = true ∧ s.bus.halfHost = none ∧ s.bus.halfShed = none ∧ s.bus.lastHost = none ∧ s.bus.lastShed = none ∧ v.toNat ∈ rangeFrom 10 1991) ∧
    (∃ (s : State) (m : Master) (k : Block) (w : Word), busAlive s = true ∧ halfOf s m = none ∧ Prevails s m (0x1008 + 0x40 * k.val)) ∧
    (∃ (s : State) (m : Master) (k : Block) (w : Word), busAlive s = true ∧ halfOf s m = none ∧ Prevails s m (0x100C + 0x40 * k.val) ∧ ((busTurn s m).recent.adds = [])) :=
  ⟨⟨on, _, .host, 0x102, 100, by decide +kernel, rfl⟩,
   ⟨on, 100, 200, by decide +kernel⟩,
   ⟨on, 100, 200, by decide +kernel⟩,
   ⟨on, .host, 5, 1, by decide +kernel⟩,
   ⟨on, .host, 5, 1, by decide +kernel⟩⟩

/-- A signed image header: its key is the base point of P-256 (private key 1), its body empty. -/
def aHeader : List Byte :=
  toBytes 64 0x55b852781b9995a44c939b64e441ae2724b96f99c8f4fb9a141cfc9842c4b0e3000000000000000000000000000000000001000000000000000000014b520f1e ++
  toBytes 64 0xf551bf376840b6cbce5e316b5733ce2b169e0f7c4aebe78e9b7f1afee242e34f96c298d84539a1f4a033eb2d817d0377f240a463e5e6bcf847422ce1f2d1176b ++
  toBytes 64 0xfed588a1ad56f606852dec833aa0d8fae159d1889f8717e3a7692a180ffbdd3296c298d84539a1f4a033eb2d817d0377f240a463e5e6bcf847422ce1f2d1176b ++
  toBytes 64 0xf3f70145000000000000000000000000000000000000000000000000000000000000000000000000000000000000000000000000000000000000000000000000
def aKey : List Byte := (aHeader.drop 64).take 64
/-- COMMIT of that image in slot B, all bytes received. -/
def aCommitBy (arm : BitVec 2) : State :=
  cmd 0x000B [0, 1] { on with
    bus := { on.bus with fwCommit := arm }
    fw := { on.fw with session := some { aSession with received := 0x1100, erased := true } }
    ser := { on.ser with flash := tput (fun _ => 0xFF) [] 0x800000 aHeader } }

def aCommit : State := aCommitBy 3
def aUnarmed : State := aCommitBy 1

/-- The ECDSA check of R105 accepts it; a flipped bit of the signature does not change this state's other checks. -/
theorem test_signature : signatureOk aCommit true = true := by decide +kernel

theorem test_commit_reason (h : Config.vendorKeyHash = sha256 aKey) : commitReason aCommit = none := by
  have h1 : headerOk aCommit true = true := by decide +kernel
  have hk : flashBytes aCommit (flashSlot true + 64) 64 = aKey := by decide +kernel
  have h2 : keyHashOk aCommit true = true := by simp only [keyHashOk, hk, h, decide_true]
  have h4 : digestOk aCommit true = true := by decide +kernel
  have h5 : rollbackOk aCommit true = true := by decide +kernel
  have hs : aCommit.fw.session = some { aSession with received := 0x1100, erased := true } := rfl
  simp only [commitReason, hs, h1, h2, test_signature, h4, h5, aSession, Bool.not_true, ne_eq, not_true_eq_false, decide_false, Bool.or_self, Bool.false_eq_true, if_false]

theorem test_commit_reason_unarmed (h : Config.vendorKeyHash = sha256 aKey) : commitReason aUnarmed = none :=
  test_commit_reason h

/-- The hypotheses of the two COMMIT clauses of FirmwareUpdate are met where the vendor's key is the key of this image:
no other condition rests on the opaque constant. -/
theorem witness_firmwareUpdateCommit (h : Config.vendorKeyHash = sha256 aKey) :
    (∃ (s : State) (c : Current), Picked s 0x000B c ∧ par c 0 = 0 ∧ par c 1 < 2 ∧ commitReason s = none ∧
      s.bus.fwCommit.toNat = 1 + (if writtenSlot s then 2 else 0)) ∧
    (∃ (s : State) (c : Current), Picked s 0x000B c ∧ par c 0 = 0 ∧ par c 1 < 2 ∧ commitReason s = none ∧
      s.bus.fwCommit.toNat ≠ 1 + (if writtenSlot s then 2 else 0)) :=
  ⟨⟨aCommit, cur 0x000B [0, 1], by decide +kernel, by decide, by decide, test_commit_reason h, by decide +kernel⟩,
   ⟨aUnarmed, cur 0x000B [0, 1], by decide +kernel, by decide, by decide, test_commit_reason_unarmed h, by decide +kernel⟩⟩


end Sys2Proof.Tests
end

section
/-! PROOFS. The register interface (spec/03): what a guarded pair reads (R62), and the bit aliases (R56, R58). -/

namespace Sys2Proof.Machine

/-! Frames of an access: what it leaves of the bus, and what a read's side effect touches. -/

@[simp] theorem busTurn_bus (s : State) (m : Master) : (busTurn s m).bus = s.bus :=
  only_bus (busTurn_only (w := 4) rfl only_refl)

@[simp] theorem halfOf_busTurn (s : State) (m n : Master) : halfOf (busTurn s m) n = halfOf s n := by
  cases n <;> simp [halfOf]

@[simp] theorem readEffect_bus (s : State) (m : Master) (a : Nat) : (readEffect s m a).bus = s.bus :=
  only_bus (readEffect_only (w := 67584) rfl only_refl)

@[simp] theorem busDone_halfHost (s : State) (m : Master) : (busDone s m).bus.halfHost = s.bus.halfHost := by
  cases m <;> rfl

@[simp] theorem busDone_halfShed (s : State) (m : Master) : (busDone s m).bus.halfShed = s.bus.halfShed := by
  cases m <;> rfl

/-- With no half pending there is no window to expire (R60). -/
theorem expireHalf_of_none {s : State} {m : Master} (h : halfOf s m = none) : expireHalf s m = s := by
  simp [expireHalf, h]

/-- A read never touches a pending half (R62). -/
theorem busRead_halves (s : State) (m : Master) (a : Nat) :
    (busRead s m a).bus.halfHost = s.bus.halfHost ∧ (busRead s m a).bus.halfShed = s.bus.halfShed := by
  unfold busRead
  split <;> simp

/-- UNMAPPED is an event source: raising it moves no fault block. -/
theorem unmapped_block (s : State) (a : Nat) : (unmapped s a).flt.block = s.flt.block := rfl

/-- Only the read of the ring snapshot at 0x00_4002 acts beyond UNMAPPED (R69, R382). -/
theorem readEffect_of_ne_snapshot (s : State) (m : Master) {a : Nat} (h : a ≠ 0x4002) :
    readEffect s m a = if (busRegion a).isNone then unmapped s a else s := by
  simp only [readEffect, h, if_false]

/-- Such a read changes chip time, the bus and the fault blocks at most. -/
theorem busRead_only_of_ne_snapshot (s : State) (m : Master) {a : Nat} (h : a ≠ 0x4002) :
    Only 65548 s (busRead s m a) := by
  have hturn : Only 65548 s (busTurn s m) := busTurn_only rfl only_refl
  have heffect : Only 65548 s (readEffect (busTurn s m) m a) := by
    rw [readEffect_of_ne_snapshot _ _ h]
    exact only_ite (fun _ => unmapped_only rfl hturn) (fun _ => hturn)
  unfold busRead
  exact only_ite (fun _ => busDone_only rfl (put_bus rfl heffect)) (fun _ => only_refl)

/-- Such a read leaves the registers of the fault blocks. -/
theorem busRead_block_of_ne_snapshot (s : State) (m : Master) {a : Nat} (h : a ≠ 0x4002) :
    (busRead s m a).flt.block = s.flt.block := by
  have hturn : (busTurn s m).flt = s.flt := only_flt (busTurn_only (w := 4) rfl only_refl)
  have hdone : ∀ u : State, (busDone u m).flt = u.flt := fun u => only_flt (busDone_only (w := 8) rfl only_refl)
  unfold busRead
  split
  · rw [readEffect_of_ne_snapshot _ _ h]
    split <;> simp [hdone, hturn, unmapped_block]
  · rfl

/-! Guarded pairs: the word at the value address and at the complement address. -/

/-- The value of a guarded pair (R62, R63): three value registers, every other pair holds none. -/
def guardedWord (s : State) (a : Nat) : Nat :=
  if a = 0x116 then s.bus.keepWe.toNat
  else if a = 0x11A then s.bus.fwCommit.toNat
  else if a = 0x10000 then (if s.flt.armed then 1 else 0)
  else 0

theorem guardedWord_le (s : State) (a : Nat) : guardedWord s a ≤ 0xFFFF := by
  have hkeep := s.bus.keepWe.isLt
  have hcommit := s.bus.fwCommit.isLt
  unfold guardedWord
  split_ifs <;> omega

/-- The value addresses of R63: seven fixed ones, and FAULT_FORCE of each fault block. -/
theorem guardedValue_iff (a : Nat) : guardedValue a = true ↔
    (a = 0x110 ∨ a = 0x112 ∨ a = 0x114 ∨ a = 0x116 ∨ a = 0x118 ∨ a = 0x11A ∨ a = 0x10000) ∨
      (0x1000 ≤ a ∧ a < 0x1700 ∧ a % 0x40 = 0x3E) := by
  simp [guardedValue, and_assoc]

theorem even_of_guardedValue {a : Nat} (h : guardedValue a = true) : a % 2 = 0 := by
  rw [guardedValue_iff] at h
  omega

/-- A value address is its own pair's, and so is its complement address. -/
theorem guarded_pair {a : Nat} (h : guardedValue a = true) : guarded a = true ∧ guarded (a + 1) = true := by
  have he := even_of_guardedValue h
  have h0 : a / 2 * 2 = a := by omega
  have h1 : (a + 1) / 2 * 2 = a := by omega
  simp only [guarded, h0, h1, h, and_self]

/-- The addresses below the aliases that some region holds (R51). -/
theorem plainRegion_isSome (a : Nat) :
    (plainRegion a).isSome = true ↔ a < 0x1700 ∨ (0x1C00 ≤ a ∧ a < 0x20000) := by
  unfold plainRegion
  split_ifs <;> simp <;> omega

/-- Below the aliases a read returns the plain word; a reserved address reads 0 (R52). -/
theorem readWord_of_not_alias (s : State) (m : Master) {a : Nat} (h : a < 0x800000) :
    readWord s m a = if (plainRegion a).isSome then plainWord s m a else 0 := by
  have halias : isAlias a = false := by simp only [isAlias, Bool.and_eq_false_iff, decide_eq_false_iff_not]; omega
  rw [readWord, halias, if_neg Bool.false_ne_true]

/-- Both addresses of a pair lie in the map. -/
theorem readWord_pair (s : State) (m : Master) {a : Nat} (h : guardedValue a = true) :
    readWord s m a = plainWord s m a ∧ readWord s m (a + 1) = plainWord s m (a + 1) := by
  rw [guardedValue_iff] at h
  have hvalue : (plainRegion a).isSome = true := (plainRegion_isSome a).2 (by omega)
  have hcomplement : (plainRegion (a + 1)).isSome = true := (plainRegion_isSome (a + 1)).2 (by omega)
  rw [readWord_of_not_alias s m (by omega), readWord_of_not_alias s m (by omega), if_pos hvalue, if_pos hcomplement]
  exact ⟨rfl, rfl⟩

theorem controlWord_guardedValue (s : State) {a : Nat} (h : guardedValue a = true) (hlt : a < 0x1000) :
    controlWord s a = guardedWord s a := by
  have hfix : a = 0x110 ∨ a = 0x112 ∨ a = 0x114 ∨ a = 0x116 ∨ a = 0x118 ∨ a = 0x11A := by
    rw [guardedValue_iff] at h
    omega
  rcases hfix with rfl | rfl | rfl | rfl | rfl | rfl <;> simp [controlWord, guardedWord]

theorem guardedWord_faultForce (s : State) {a : Nat} (hlo : 0x1000 ≤ a) (hhi : a < 0x1700) : guardedWord s a = 0 := by
  rw [guardedWord, if_neg (by omega), if_neg (by omega), if_neg (by omega)]

/-- A value register reads its value, an action register 0 (R62). -/
theorem readWord_guardedValue (s : State) (m : Master) {a : Nat} (h : guardedValue a = true) :
    readWord s m a = guardedWord s a := by
  have heven := even_of_guardedValue h
  have hodd : ¬ a % 2 = 1 := by omega
  rw [(readWord_pair s m h).1]
  rcases (guardedValue_iff a).1 h with hfix | ⟨hlo, hhi, hoff⟩
  · rcases Nat.lt_or_ge a 0x1000 with hlt | hge
    · rw [← controlWord_guardedValue s h hlt]
      have h1 : ¬ a < 0x100 := by omega
      have h2 : a < 0x800 := by omega
      simp only [plainWord, hodd, decide_false, Bool.and_false, Bool.false_eq_true, h1, h2, if_false, if_true]
    · have : a = 0x10000 := by omega
      subst this
      rfl
  · have hword : faultWord s ((a - 0x1000) / 0x40) (a % 0x40) = 0 := by simp [hoff, faultWord, bedWord]
    have h1 : ¬ a < 0x100 := by omega
    have h2 : ¬ a < 0x800 := by omega
    have h3 : ¬ a < 0x1000 := by omega
    rw [guardedWord_faultForce s hlo hhi]
    simp only [plainWord, hodd, decide_false, Bool.and_false, Bool.false_eq_true, h1, h2, h3, hhi, hword, if_false, if_true]

/-- A complement address reads the complement of its pair's value (R62). -/
theorem readWord_complement (s : State) (m : Master) {a : Nat} (h : guardedValue a = true) :
    readWord s m (a + 1) = 0xFFFF - guardedWord s a := by
  have heven := even_of_guardedValue h
  have hodd : (a + 1) % 2 = 1 := by omega
  rw [(readWord_pair s m h).2]
  simp only [plainWord, (guarded_pair h).2, hodd, decide_true, Bool.and_true, if_true, Nat.add_sub_cancel]
  congr 1
  rcases Nat.lt_or_ge a 0x1000 with hlt | hge
  · rw [if_neg (by omega), if_pos (by omega)]
    exact controlWord_guardedValue s h hlt
  · rcases (guardedValue_iff a).1 h with hfix | ⟨hlo, hhi, -⟩
    · have : a = 0x10000 := by omega
      subst this
      rfl
    · rw [if_neg (by omega), if_neg (by omega), guardedWord_faultForce s hlo hhi]

/-- Settles O10: each address of a pair reads by the pair's value, and a read keeps the halves. -/
theorem guardedRegistersRead : Obligations.GuardedRegistersRead := by
  unfold Obligations.GuardedRegistersRead
  intro s m
  refine ⟨?_, ?_, ?_, ?_, ?_, busRead_halves s m⟩
  · exact readWord_guardedValue s m (a := 0x116) rfl
  · exact readWord_guardedValue s m (a := 0x11A) rfl
  · exact readWord_guardedValue s m (a := 0x10000) rfl
  · intro a h
    rw [readWord_guardedValue s m h, readWord_complement s m h]
    have := guardedWord_le s a
    omega
  · intro a h hkeep hcommit harm
    have hzero : guardedWord s a = 0 := by simp [guardedWord, hkeep, hcommit, harm]
    rw [readWord_guardedValue s m h, readWord_complement s m h, hzero]
    exact ⟨rfl, rfl⟩

/-! Bit aliases. -/

/-- The alias of bit `k` of the word at `a` is an alias, of that word and bit. -/
theorem alias_split {a k : Nat} (ha : a < 0x20000) (hk : k < 16) :
    isAlias (0x800000 + 16 * a + k) = true ∧ (0x800000 + 16 * a + k - 0x800000) / 16 = a ∧
      (0x800000 + 16 * a + k) % 16 = k := by
  refine ⟨?_, by omega, by omega⟩
  simp only [isAlias, Bool.and_eq_true, decide_eq_true_eq]
  omega

/-- An alias is mapped as its word is (R52). -/
theorem busRegion_alias_isSome {a : Nat} (h : isAlias a = true) :
    (busRegion a).isSome = (plainRegion ((a - 0x800000) / 16)).isSome := by
  simp [busRegion, h]

/-- An alias reads its bit of the word (R56). -/
theorem readWord_alias (s : State) (m : Master) {a k : Nat} (ha : a < 0x20000) (hk : k < 16) :
    readWord s m (0x800000 + 16 * a + k) = if (readWord s m a).testBit k then 1 else 0 := by
  obtain ⟨halias, hword, hbit⟩ := alias_split ha hk
  rw [readWord_of_not_alias s m (show a < 0x800000 by omega), readWord, if_pos halias, busRegion_alias_isSome halias, hword, hbit]
  split
  · rfl
  · simp

/-- An alias of a reserved address reads 0 (R58). -/
theorem readWord_alias_reserved (s : State) (m : Master) {a : Nat} (h : isAlias a = true) (hr : busRegion a = none) :
    readWord s m a = 0 := by
  simp [readWord, h, hr]

/-- ALIAS_WRITE is a write of the register bus. -/
theorem exec_aliasWrite_of_isAlias (s : State) (m : Master) {a : Addr} (w : Word) (h : isAlias a.toNat = true) :
    exec (.aliasWrite m a w) s = .next (busWrite s m a.toNat w) := by
  change execAliasWrite m a w s = _
  rw [execAliasWrite, if_pos h]

/-- Outside the alias space ALIAS_WRITE does nothing. -/
theorem exec_aliasWrite_of_not_isAlias (s : State) (m : Master) {a : Addr} (w : Word) (h : isAlias a.toNat = false) :
    exec (.aliasWrite m a w) s = .next s := by
  change execAliasWrite m a w s = _
  rw [execAliasWrite, h, if_neg Bool.false_ne_true]

/-- A write to an alias uses bit 0 of the word alone (R56). -/
theorem writeWord_alias_congr (s : State) (m : Master) {a : Nat} {w w' : Word} (h : isAlias a = true)
    (hbit : w.getLsbD 0 = w'.getLsbD 0) : writeWord s m a w = writeWord s m a w' := by
  simp only [writeWord, h, if_true, hbit]

/-- A write to an unmapped address is UNMAPPED and nothing else (R52). -/
theorem writeWord_unmapped {s : State} {m : Master} {a : Nat} (w : Word) (hr : busRegion a = none)
    (hh : halfOf s m = none) : writeWord s m a w = unmapped s a := by
  simp [writeWord, expireHalf_of_none hh, hr]

/-- Settles O11, by the read and the write of one alias. -/
theorem bitAliases : Obligations.BitAliases := by
  unfold Obligations.BitAliases
  refine ⟨?_, ?_, ?_, ?_⟩
  · intro s m a k ha hk
    exact readWord_alias s m ha hk
  · intro s m a w w' hbit
    cases h : isAlias a.toNat with
    | true =>
      rw [exec_aliasWrite_of_isAlias s m w h, exec_aliasWrite_of_isAlias s m w' h, busWrite, busWrite,
        writeWord_alias_congr _ m h hbit]
    | false => rw [exec_aliasWrite_of_not_isAlias s m w h, exec_aliasWrite_of_not_isAlias s m w' h]
  · intro s m a hlo _ _
    have hne : a ≠ 0x4002 := by omega
    have honly := busRead_only_of_ne_snapshot s m hne
    exact ⟨only_harv honly, only_mb honly, only_pat honly, busRead_block_of_ne_snapshot s m hne, only_sup honly, only_link honly⟩
  · intro s m a w halias hr halive hhalf
    have hturn : halfOf (busTurn s m) m = none := by rw [halfOf_busTurn, hhalf]
    refine ⟨readWord_alias_reserved s m halias hr, ?_⟩
    rw [exec_aliasWrite_of_isAlias s m w halias, busWrite, if_pos halive, writeWord_unmapped w hr hturn, unmapped]

end Sys2Proof.Machine
end

section
/-! PROOFS. The step: what every command and the tick keep, and what no step undoes. -/

set_option Elab.async false

namespace Sys2Proof.Machine

variable {p : List Instr} {u : BitVec 64} {r : Nat} {s : State}

/-- Every command keeps the queue, UNIQUE_ID, the rollback counter from below, and the canonical form of the memories. -/
theorem exec_kept (i : Instr) (h : Kept p u r s) : KeptOut p u r (exec i s) := by
  cases i with
  | powerOnReset => exact execPowerOnReset_kept h
  | pinReset => exact execPinReset_kept h
  | pllLock => exact execPllLock_kept h
  | refLost => exact execRefLost_kept h
  | refclkReturn => exact execRefclkReturn_kept h
  | blockResetEnd => exact execBlockResetEnd_kept h
  | deepWake => exact execDeepWake_kept h
  | standbyExitComplete => exact execStandbyExitComplete_kept h
  | registerWritePlain => exact execRegisterWritePlain_kept h
  | aliasWrite => exact execAliasWrite_kept h
  | guardValueWrite => exact execGuardValueWrite_kept h
  | guardWindowExpiry => exact execGuardWindowExpiry_kept h
  | chipReset => exact execChipReset_kept h
  | clocheOverride => exact execClocheOverride_kept h
  | clocheRelease => exact execClocheRelease_kept h
  | keepWe => exact execKeepWe_kept h
  | shutdownClear => exact execShutdownClear_kept h
  | fwCommit => exact execFwCommit_kept h
  | faultForceRegister => exact execFaultForceRegister_kept h
  | perturbArm => exact execPerturbArm_kept h
  | doorbellWrite => exact execDoorbellWrite_kept h
  | mailboxAck => exact execMailboxAck_kept h
  | faultAck => exact execFaultAck_kept h
  | releasePost => exact execReleasePost_kept h
  | ringSnapshotRead => exact execRingSnapshotRead_kept h
  | trigForce => exact execTrigForce_kept h
  | regRead => exact execRegRead_kept h
  | regWrite => exact execRegWrite_kept h
  | regBurstRead => exact execRegBurstRead_kept h
  | mailboxPost => exact execMailboxPost_kept h
  | doorbell => exact execDoorbell_kept h
  | bulkRead => exact execBulkRead_kept h
  | bulkWrite => exact execBulkWrite_kept h
  | release => exact execRelease_kept h
  | urgent => exact execUrgent_kept h
  | syncMark => exact execSyncMark_kept h
  | dataFlitReceive => exact execDataFlitReceive_kept h
  | linkCtrlReceive => exact execLinkCtrlReceive_kept h
  | replayTimeout => exact execReplayTimeout_kept h
  | creditTimeout => exact execCreditTimeout_kept h
  | linkCtrlDue => exact execLinkCtrlDue_kept h
  | delayExchangeTimer => exact execDelayExchangeTimer_kept h
  | timeCheckTimer => exact execTimeCheckTimer_kept h
  | blockLockLoss => exact execBlockLockLoss_kept h
  | laneSignalDetect => exact execLaneSignalDetect_kept h
  | laneEqualiseDone => exact execLaneEqualiseDone_kept h
  | delayMeasureDone => exact execDelayMeasureDone_kept h
  | trainingRetry => exact execTrainingRetry_kept h
  | groupStrobeDue => exact execGroupStrobeDue_kept h
  | epochLoadDue => exact execEpochLoadDue_kept h
  | drvOc => exact execDrvOc_kept h
  | monitorSlot => exact execMonitorSlot_kept h
  | dacReadback => exact execDacReadback_kept h
  | clockChangeDue => exact execClockChangeDue_kept h
  | tdllUnlock => exact execTdllUnlock_kept h
  | tdllRelock => exact execTdllRelock_kept h
  | segLoadDone => exact execSegLoadDone_kept h
  | segmentFetchDone => exact execSegmentFetchDone_kept h
  | burstStart => exact execBurstStart_kept h
  | vectorCycle => exact execVectorCycle_kept h
  | vectorJudgement => exact execVectorJudgement_kept h
  | tinEdge => exact execTinEdge_kept h
  | trigPulseEnd => exact execTrigPulseEnd_kept h
  | loopForceDue => exact execLoopForceDue_kept h
  | loopStartMeasured => exact execLoopStartMeasured_kept h
  | loopSample => exact execLoopSample_kept h
  | lawReturn => exact execLawReturn_kept h
  | complyTrip => exact execComplyTrip_kept h
  | autoRangeDecision => exact execAutoRangeDecision_kept h
  | rangeSettleDone => exact execRangeSettleDone_kept h
  | coefSwapDue => exact execCoefSwapDue_kept h
  | stageDiss => exact execStageDiss_kept h
  | sweepStep => exact execSweepStep_kept h
  | profileMoveEnd => exact execProfileMoveEnd_kept h
  | waveLoadDone => exact execWaveLoadDone_kept h
  | waveRunEnd => exact execWaveRunEnd_kept h
  | sineChangeDue => exact execSineChangeDue_kept h
  | sineCyclesEnd => exact execSineCyclesEnd_kept h
  | sineRampEnd => exact execSineRampEnd_kept h
  | measWindowEnd => exact execMeasWindowEnd_kept h
  | rawRecordClose => exact execRawRecordClose_kept h
  | lockinWindowEnd => exact execLockinWindowEnd_kept h
  | wmDecisionChange => exact execWmDecisionChange_kept h
  | wmSettlingEnd => exact execWmSettlingEnd_kept h
  | wmPeriodEnd => exact execWmPeriodEnd_kept h
  | tiuEdge => exact execTiuEdge_kept h
  | tiuGateEnd => exact execTiuGateEnd_kept h
  | tiuTimeout => exact execTiuTimeout_kept h
  | timStampsClose => exact execTimStampsClose_kept h
  | bankHandoffTimeout => exact execBankHandoffTimeout_kept h
  | dramBurstResponse => exact execDramBurstResponse_kept h
  | notifyTimeout => exact execNotifyTimeout_kept h
  | cyclicExchangeDue => exact execCyclicExchangeDue_kept h
  | stageReply => exact execStageReply_kept h
  | stageLost => exact execStageLost_kept h
  | xipFetch => exact execXipFetch_kept h
  | sensorSample => exact execSensorSample_kept h
  | thermalLevelEnter => exact execThermalLevelEnter_kept h
  | thermalLevelExit => exact execThermalLevelExit_kept h
  | throttleGraceEnd => exact execThrottleGraceEnd_kept h
  | throttleRepeat => exact execThrottleRepeat_kept h
  | sensorBroken => exact execSensorBroken_kept h
  | sensorRecover => exact execSensorRecover_kept h
  | chargeWindowLeave => exact execChargeWindowLeave_kept h
  | chargeWindowReturn => exact execChargeWindowReturn_kept h
  | railCrossing => exact execRailCrossing_kept h
  | calRunEnd => exact execCalRunEnd_kept h
  | calCommitDone => exact execCalCommitDone_kept h
  | perturbWindowStart => exact execPerturbWindowStart_kept h
  | perturbWindowEnd => exact execPerturbWindowEnd_kept h
  | faultRegister => exact execFaultRegister_kept h
  | clocheSettled => exact execClocheSettled_kept h
  | blockLockAcquired => exact execBlockLockAcquired_kept h
  | drvOcCleared => exact execDrvOcCleared_kept h
  | railThresholdExit => exact execRailThresholdExit_kept h
  | mbDelayEnd => exact execMbDelayEnd_kept h
  | powerLoss => exact execPowerLoss_kept h
  | resetEnd => exact execResetEnd_kept h
  | firmwareReady => exact execFirmwareReady_kept h
  | pllRelock => exact execPllRelock_kept h
  | watchdogExpiry => exact execWatchdogExpiry_kept h
  | activationRestart => exact execActivationRestart_kept h
  | trapTimeout => exact execTrapTimeout_kept h
  | deepEntry => exact execDeepEntry_kept h
  | dramWakeComplete => exact execDramWakeComplete_kept h
  | dramSelfRefreshTimeout => exact execDramSelfRefreshTimeout_kept h
  | localSync => exact execLocalSync_kept h
  | phaseSlewEnd => exact execPhaseSlewEnd_kept h
  | firmwarePick => exact execFirmwarePick_kept h
  | hello => exact execHello_kept h
  | getInfo => exact execGetInfo_kept h
  | getStatus => exact execGetStatus_kept h
  | queryProgress => exact execQueryProgress_kept h
  | abort => exact execAbort_kept h
  | cloche => exact execCloche_kept h
  | releaseCloche => exact execReleaseCloche_kept h
  | setPowerActive => exact execSetPowerActive_kept h
  | setPowerIdle => exact execSetPowerIdle_kept h
  | setPowerStandby => exact execSetPowerStandby_kept h
  | setPowerDeep => exact execSetPowerDeep_kept h
  | resetBlock => exact execResetBlock_kept h
  | fwUpdateBegin => exact execFwUpdateBegin_kept h
  | fwEraseDone => exact execFwEraseDone_kept h
  | fwUpdateData => exact execFwUpdateData_kept h
  | fwUpdateCommit => exact execFwUpdateCommit_kept h
  | fwUpdateConfirm => exact execFwUpdateConfirm_kept h
  | logRead => exact execLogRead_kept h
  | pinMap => exact execPinMap_kept h
  | setLevels => exact execSetLevels_kept h
  | loadGroupDefine => exact execLoadGroupDefine_kept h
  | loadGroupStrobeNow => exact execLoadGroupStrobeNow_kept h
  | loadGroupStrobeAt => exact execLoadGroupStrobeAt_kept h
  | loadGroupCancel => exact execLoadGroupCancel_kept h
  | setPinMode => exact execSetPinMode_kept h
  | connect => exact execConnect_kept h
  | connectSwitchClose => exact execConnectSwitchClose_kept h
  | connectSettled => exact execConnectSettled_kept h
  | tsWrite => exact execTsWrite_kept h
  | tsRead => exact execTsRead_kept h
  | clockOutSet => exact execClockOutSet_kept h
  | clockOutStop => exact execClockOutStop_kept h
  | clockOutAssign => exact execClockOutAssign_kept h
  | segLoad => exact execSegLoad_kept h
  | segPinPin => exact execSegPinPin_kept h
  | segPinUnpin => exact execSegPinUnpin_kept h
  | segPinUnpinAll => exact execSegPinUnpinAll_kept h
  | segPinFetch => exact execSegPinFetch_kept h
  | streamOpenOpen => exact execStreamOpenOpen_kept h
  | streamOpenAppend => exact execStreamOpenAppend_kept h
  | streamOpenClose => exact execStreamOpenClose_kept h
  | streamOpenMap => exact execStreamOpenMap_kept h
  | burstRun => exact execBurstRun_kept h
  | burstStop => exact execBurstStop_kept h
  | jumpRequest => exact execJumpRequest_kept h
  | loopConfig => exact execLoopConfig_kept h
  | loopConfigRead => exact execLoopConfigRead_kept h
  | loopForce => exact execLoopForce_kept h
  | loopRange => exact execLoopRange_kept h
  | loopComply => exact execLoopComply_kept h
  | sweepLoad => exact execSweepLoad_kept h
  | sweepRun => exact execSweepRun_kept h
  | chipDissUpdate => exact execChipDissUpdate_kept h
  | gainTableLoad => exact execGainTableLoad_kept h
  | gainTableRead => exact execGainTableRead_kept h
  | regionSetDefine => exact execRegionSetDefine_kept h
  | regionSetWrite => exact execRegionSetWrite_kept h
  | regionSetRead => exact execRegionSetRead_kept h
  | coefSwapStage => exact execCoefSwapStage_kept h
  | coefSwapSwap => exact execCoefSwapSwap_kept h
  | coefSwapStageSwap => exact execCoefSwapStageSwap_kept h
  | coefSwapRead => exact execCoefSwapRead_kept h
  | profileMove => exact execProfileMove_kept h
  | waveLoad => exact execWaveLoad_kept h
  | waveRunStart => exact execWaveRunStart_kept h
  | waveRunJump => exact execWaveRunJump_kept h
  | waveRunStop => exact execWaveRunStop_kept h
  | sineRunStart => exact execSineRunStart_kept h
  | sineRunChange => exact execSineRunChange_kept h
  | sineRunStop => exact execSineRunStop_kept h
  | measConfig => exact execMeasConfig_kept h
  | measConfigRead => exact execMeasConfigRead_kept h
  | measRunStart => exact execMeasRunStart_kept h
  | measRunStop => exact execMeasRunStop_kept h
  | lockinRunStart => exact execLockinRunStart_kept h
  | lockinRunStop => exact execLockinRunStop_kept h
  | wmConfigure => exact execWmConfigure_kept h
  | wmEnable => exact execWmEnable_kept h
  | wmDisable => exact execWmDisable_kept h
  | wmClear => exact execWmClear_kept h
  | wmRead => exact execWmRead_kept h
  | timConfig => exact execTimConfig_kept h
  | timConfigRead => exact execTimConfigRead_kept h
  | timRunStart => exact execTimRunStart_kept h
  | timRunStop => exact execTimRunStop_kept h
  | ringCreate => exact execRingCreate_kept h
  | ringDestroy => exact execRingDestroy_kept h
  | ringPolicy => exact execRingPolicy_kept h
  | ringPolicyRead => exact execRingPolicyRead_kept h
  | stageAttachAttach => exact execStageAttachAttach_kept h
  | stageAttachDetach => exact execStageAttachDetach_kept h
  | stageAttachWrite => exact execStageAttachWrite_kept h
  | stageReadRead => exact execStageReadRead_kept h
  | stageReadStatus => exact execStageReadStatus_kept h
  | flashOpDone => exact execFlashOpDone_kept h
  | flashTimeout => exact execFlashTimeout_kept h
  | keepWindowClose => exact execKeepWindowClose_kept h
  | keepWindowOpen => exact execKeepWindowOpen_kept h
  | shutdownPowerDown => exact execShutdownPowerDown_kept h
  | tripLogWritten => exact execTripLogWritten_kept h
  | shutdownExitCondition => exact execShutdownExitCondition_kept h
  | thermConfigLevels => exact execThermConfigLevels_kept h
  | thermConfigThermistor => exact execThermConfigThermistor_kept h
  | thermConfigRail => exact execThermConfigRail_kept h
  | thermConfigRead => exact execThermConfigRead_kept h
  | chargeWindow => exact execChargeWindow_kept h
  | chargeWindowRead => exact execChargeWindowRead_kept h
  | throttleAck => exact execThrottleAck_kept h
  | calRun => exact execCalRun_kept h
  | calCommit => exact execCalCommit_kept h
  | calSelectLoad => exact execCalSelectLoad_kept h
  | calSelectStatus => exact execCalSelectStatus_kept h
  | calSelectQuality => exact execCalSelectQuality_kept h
  | keepWriteData => exact execKeepWriteData_kept h
  | keepWriteCommit => exact execKeepWriteCommit_kept h
  | keepWriteCapture => exact execKeepWriteCapture_kept h
  | keepWriteDiscard => exact execKeepWriteDiscard_kept h
  | keepRead => exact execKeepRead_kept h
  | faultConfig => exact execFaultConfig_kept h
  | faultConfigRead => exact execFaultConfigRead_kept h
  | faultForce => exact execFaultForce_kept h
  | perturbSet => exact execPerturbSet_kept h
  | perturbSetRead => exact execPerturbSetRead_kept h
  | errnPulseEnd => exact execErrnPulseEnd_kept h
  | segPinResidencyTimeout => exact execSegPinResidencyTimeout_kept h
  | burstRunEntryTimeout => exact execBurstRunEntryTimeout_kept h
  | keepOperationDone => exact execKeepOperationDone_kept h

/-- No command writes the queue: of the 17 parts of a state it changes those of bits 1 to 16 at most. -/
theorem exec_only_parts (i : Instr) : OnlyOut 131070 s (exec i s) := by
  cases i with
  | powerOnReset => exact execPowerOnReset_only rfl only_refl
  | pinReset => exact execPinReset_only rfl only_refl
  | pllLock => exact execPllLock_only rfl only_refl
  | refLost => exact execRefLost_only rfl only_refl
  | refclkReturn => exact execRefclkReturn_only rfl only_refl
  | blockResetEnd => exact execBlockResetEnd_only rfl only_refl
  | deepWake => exact execDeepWake_only rfl only_refl
  | standbyExitComplete => exact execStandbyExitComplete_only rfl only_refl
  | registerWritePlain => exact execRegisterWritePlain_only rfl only_refl
  | aliasWrite => exact execAliasWrite_only rfl only_refl
  | guardValueWrite => exact execGuardValueWrite_only rfl only_refl
  | guardWindowExpiry => exact execGuardWindowExpiry_only rfl only_refl
  | chipReset => exact execChipReset_only rfl only_refl
  | clocheOverride => exact execClocheOverride_only rfl only_refl
  | clocheRelease => exact execClocheRelease_only rfl only_refl
  | keepWe => exact execKeepWe_only rfl only_refl
  | shutdownClear => exact execShutdownClear_only rfl only_refl
  | fwCommit => exact execFwCommit_only rfl only_refl
  | faultForceRegister => exact execFaultForceRegister_only rfl only_refl
  | perturbArm => exact execPerturbArm_only rfl only_refl
  | doorbellWrite => exact execDoorbellWrite_only rfl only_refl
  | mailboxAck => exact execMailboxAck_only rfl only_refl
  | faultAck => exact execFaultAck_only rfl only_refl
  | releasePost => exact execReleasePost_only rfl only_refl
  | ringSnapshotRead => exact execRingSnapshotRead_only rfl only_refl
  | trigForce => exact execTrigForce_only rfl only_refl
  | regRead => exact execRegRead_only rfl only_refl
  | regWrite => exact execRegWrite_only rfl only_refl
  | regBurstRead => exact execRegBurstRead_only rfl only_refl
  | mailboxPost => exact execMailboxPost_only rfl only_refl
  | doorbell => exact execDoorbell_only rfl only_refl
  | bulkRead => exact execBulkRead_only rfl only_refl
  | bulkWrite => exact execBulkWrite_only rfl only_refl
  | release => exact execRelease_only rfl only_refl
  | urgent => exact execUrgent_only rfl only_refl
  | syncMark => exact execSyncMark_only rfl only_refl
  | dataFlitReceive => exact execDataFlitReceive_only rfl only_refl
  | linkCtrlReceive => exact execLinkCtrlReceive_only rfl only_refl
  | replayTimeout => exact execReplayTimeout_only rfl only_refl
  | creditTimeout => exact execCreditTimeout_only rfl only_refl
  | linkCtrlDue => exact execLinkCtrlDue_only rfl only_refl
  | delayExchangeTimer => exact execDelayExchangeTimer_only rfl only_refl
  | timeCheckTimer => exact execTimeCheckTimer_only rfl only_refl
  | blockLockLoss => exact execBlockLockLoss_only rfl only_refl
  | laneSignalDetect => exact execLaneSignalDetect_only rfl only_refl
  | laneEqualiseDone => exact execLaneEqualiseDone_only rfl only_refl
  | delayMeasureDone => exact execDelayMeasureDone_only rfl only_refl
  | trainingRetry => exact execTrainingRetry_only rfl only_refl
  | groupStrobeDue => exact execGroupStrobeDue_only rfl only_refl
  | epochLoadDue => exact execEpochLoadDue_only rfl only_refl
  | drvOc => exact execDrvOc_only rfl only_refl
  | monitorSlot => exact execMonitorSlot_only rfl only_refl
  | dacReadback => exact execDacReadback_only rfl only_refl
  | clockChangeDue => exact execClockChangeDue_only rfl only_refl
  | tdllUnlock => exact execTdllUnlock_only rfl only_refl
  | tdllRelock => exact execTdllRelock_only rfl only_refl
  | segLoadDone => exact execSegLoadDone_only rfl only_refl
  | segmentFetchDone => exact execSegmentFetchDone_only rfl only_refl
  | burstStart => exact execBurstStart_only rfl only_refl
  | vectorCycle => exact execVectorCycle_only rfl only_refl
  | vectorJudgement => exact execVectorJudgement_only rfl only_refl
  | tinEdge => exact execTinEdge_only rfl only_refl
  | trigPulseEnd => exact execTrigPulseEnd_only rfl only_refl
  | loopForceDue => exact execLoopForceDue_only rfl only_refl
  | loopStartMeasured => exact execLoopStartMeasured_only rfl only_refl
  | loopSample => exact execLoopSample_only rfl only_refl
  | lawReturn => exact execLawReturn_only rfl only_refl
  | complyTrip => exact execComplyTrip_only rfl only_refl
  | autoRangeDecision => exact execAutoRangeDecision_only rfl only_refl
  | rangeSettleDone => exact execRangeSettleDone_only rfl only_refl
  | coefSwapDue => exact execCoefSwapDue_only rfl only_refl
  | stageDiss => exact execStageDiss_only rfl only_refl
  | sweepStep => exact execSweepStep_only rfl only_refl
  | profileMoveEnd => exact execProfileMoveEnd_only rfl only_refl
  | waveLoadDone => exact execWaveLoadDone_only rfl only_refl
  | waveRunEnd => exact execWaveRunEnd_only rfl only_refl
  | sineChangeDue => exact execSineChangeDue_only rfl only_refl
  | sineCyclesEnd => exact execSineCyclesEnd_only rfl only_refl
  | sineRampEnd => exact execSineRampEnd_only rfl only_refl
  | measWindowEnd => exact execMeasWindowEnd_only rfl only_refl
  | rawRecordClose => exact execRawRecordClose_only rfl only_refl
  | lockinWindowEnd => exact execLockinWindowEnd_only rfl only_refl
  | wmDecisionChange => exact execWmDecisionChange_only rfl only_refl
  | wmSettlingEnd => exact execWmSettlingEnd_only rfl only_refl
  | wmPeriodEnd => exact execWmPeriodEnd_only rfl only_refl
  | tiuEdge => exact execTiuEdge_only rfl only_refl
  | tiuGateEnd => exact execTiuGateEnd_only rfl only_refl
  | tiuTimeout => exact execTiuTimeout_only rfl only_refl
  | timStampsClose => exact execTimStampsClose_only rfl only_refl
  | bankHandoffTimeout => exact execBankHandoffTimeout_only rfl only_refl
  | dramBurstResponse => exact execDramBurstResponse_only rfl only_refl
  | notifyTimeout => exact execNotifyTimeout_only rfl only_refl
  | cyclicExchangeDue => exact execCyclicExchangeDue_only rfl only_refl
  | stageReply => exact execStageReply_only rfl only_refl
  | stageLost => exact execStageLost_only rfl only_refl
  | xipFetch => exact execXipFetch_only rfl only_refl
  | sensorSample => exact execSensorSample_only rfl only_refl
  | thermalLevelEnter => exact execThermalLevelEnter_only rfl only_refl
  | thermalLevelExit => exact execThermalLevelExit_only rfl only_refl
  | throttleGraceEnd => exact execThrottleGraceEnd_only rfl only_refl
  | throttleRepeat => exact execThrottleRepeat_only rfl only_refl
  | sensorBroken => exact execSensorBroken_only rfl only_refl
  | sensorRecover => exact execSensorRecover_only rfl only_refl
  | chargeWindowLeave => exact execChargeWindowLeave_only rfl only_refl
  | chargeWindowReturn => exact execChargeWindowReturn_only rfl only_refl
  | railCrossing => exact execRailCrossing_only rfl only_refl
  | calRunEnd => exact execCalRunEnd_only rfl only_refl
  | calCommitDone => exact execCalCommitDone_only rfl only_refl
  | perturbWindowStart => exact execPerturbWindowStart_only rfl only_refl
  | perturbWindowEnd => exact execPerturbWindowEnd_only rfl only_refl
  | faultRegister => exact execFaultRegister_only rfl only_refl
  | clocheSettled => exact execClocheSettled_only rfl only_refl
  | blockLockAcquired => exact execBlockLockAcquired_only rfl only_refl
  | drvOcCleared => exact execDrvOcCleared_only rfl only_refl
  | railThresholdExit => exact execRailThresholdExit_only rfl only_refl
  | mbDelayEnd => exact execMbDelayEnd_only rfl only_refl
  | powerLoss => exact execPowerLoss_only rfl only_refl
  | resetEnd => exact execResetEnd_only rfl only_refl
  | firmwareReady => exact execFirmwareReady_only rfl only_refl
  | pllRelock => exact execPllRelock_only rfl only_refl
  | watchdogExpiry => exact execWatchdogExpiry_only rfl only_refl
  | activationRestart => exact execActivationRestart_only rfl only_refl
  | trapTimeout => exact execTrapTimeout_only rfl only_refl
  | deepEntry => exact execDeepEntry_only rfl only_refl
  | dramWakeComplete => exact execDramWakeComplete_only rfl only_refl
  | dramSelfRefreshTimeout => exact execDramSelfRefreshTimeout_only rfl only_refl
  | localSync => exact execLocalSync_only rfl only_refl
  | phaseSlewEnd => exact execPhaseSlewEnd_only rfl only_refl
  | firmwarePick => exact execFirmwarePick_only rfl only_refl
  | hello => exact execHello_only rfl only_refl
  | getInfo => exact execGetInfo_only rfl only_refl
  | getStatus => exact execGetStatus_only rfl only_refl
  | queryProgress => exact execQueryProgress_only rfl only_refl
  | abort => exact execAbort_only rfl only_refl
  | cloche => exact execCloche_only rfl only_refl
  | releaseCloche => exact execReleaseCloche_only rfl only_refl
  | setPowerActive => exact execSetPowerActive_only rfl only_refl
  | setPowerIdle => exact execSetPowerIdle_only rfl only_refl
  | setPowerStandby => exact execSetPowerStandby_only rfl only_refl
  | setPowerDeep => exact execSetPowerDeep_only rfl only_refl
  | resetBlock => exact execResetBlock_only rfl only_refl
  | fwUpdateBegin => exact execFwUpdateBegin_only rfl only_refl
  | fwEraseDone => exact execFwEraseDone_only rfl only_refl
  | fwUpdateData => exact execFwUpdateData_only rfl only_refl
  | fwUpdateCommit => exact execFwUpdateCommit_only rfl only_refl
  | fwUpdateConfirm => exact execFwUpdateConfirm_only rfl only_refl
  | logRead => exact execLogRead_only rfl only_refl
  | pinMap => exact execPinMap_only rfl only_refl
  | setLevels => exact execSetLevels_only rfl only_refl
  | loadGroupDefine => exact execLoadGroupDefine_only rfl only_refl
  | loadGroupStrobeNow => exact execLoadGroupStrobeNow_only rfl only_refl
  | loadGroupStrobeAt => exact execLoadGroupStrobeAt_only rfl only_refl
  | loadGroupCancel => exact execLoadGroupCancel_only rfl only_refl
  | setPinMode => exact execSetPinMode_only rfl only_refl
  | connect => exact execConnect_only rfl only_refl
  | connectSwitchClose => exact execConnectSwitchClose_only rfl only_refl
  | connectSettled => exact execConnectSettled_only rfl only_refl
  | tsWrite => exact execTsWrite_only rfl only_refl
  | tsRead => exact execTsRead_only rfl only_refl
  | clockOutSet => exact execClockOutSet_only rfl only_refl
  | clockOutStop => exact execClockOutStop_only rfl only_refl
  | clockOutAssign => exact execClockOutAssign_only rfl only_refl
  | segLoad => exact execSegLoad_only rfl only_refl
  | segPinPin => exact execSegPinPin_only rfl only_refl
  | segPinUnpin => exact execSegPinUnpin_only rfl only_refl
  | segPinUnpinAll => exact execSegPinUnpinAll_only rfl only_refl
  | segPinFetch => exact execSegPinFetch_only rfl only_refl
  | streamOpenOpen => exact execStreamOpenOpen_only rfl only_refl
  | streamOpenAppend => exact execStreamOpenAppend_only rfl only_refl
  | streamOpenClose => exact execStreamOpenClose_only rfl only_refl
  | streamOpenMap => exact execStreamOpenMap_only rfl only_refl
  | burstRun => exact execBurstRun_only rfl only_refl
  | burstStop => exact execBurstStop_only rfl only_refl
  | jumpRequest => exact execJumpRequest_only rfl only_refl
  | loopConfig => exact execLoopConfig_only rfl only_refl
  | loopConfigRead => exact execLoopConfigRead_only rfl only_refl
  | loopForce => exact execLoopForce_only rfl only_refl
  | loopRange => exact execLoopRange_only rfl only_refl
  | loopComply => exact execLoopComply_only rfl only_refl
  | sweepLoad => exact execSweepLoad_only rfl only_refl
  | sweepRun => exact execSweepRun_only rfl only_refl
  | chipDissUpdate => exact execChipDissUpdate_only rfl only_refl
  | gainTableLoad => exact execGainTableLoad_only rfl only_refl
  | gainTableRead => exact execGainTableRead_only rfl only_refl
  | regionSetDefine => exact execRegionSetDefine_only rfl only_refl
  | regionSetWrite => exact execRegionSetWrite_only rfl only_refl
  | regionSetRead => exact execRegionSetRead_only rfl only_refl
  | coefSwapStage => exact execCoefSwapStage_only rfl only_refl
  | coefSwapSwap => exact execCoefSwapSwap_only rfl only_refl
  | coefSwapStageSwap => exact execCoefSwapStageSwap_only rfl only_refl
  | coefSwapRead => exact execCoefSwapRead_only rfl only_refl
  | profileMove => exact execProfileMove_only rfl only_refl
  | waveLoad => exact execWaveLoad_only rfl only_refl
  | waveRunStart => exact execWaveRunStart_only rfl only_refl
  | waveRunJump => exact execWaveRunJump_only rfl only_refl
  | waveRunStop => exact execWaveRunStop_only rfl only_refl
  | sineRunStart => exact execSineRunStart_only rfl only_refl
  | sineRunChange => exact execSineRunChange_only rfl only_refl
  | sineRunStop => exact execSineRunStop_only rfl only_refl
  | measConfig => exact execMeasConfig_only rfl only_refl
  | measConfigRead => exact execMeasConfigRead_only rfl only_refl
  | measRunStart => exact execMeasRunStart_only rfl only_refl
  | measRunStop => exact execMeasRunStop_only rfl only_refl
  | lockinRunStart => exact execLockinRunStart_only rfl only_refl
  | lockinRunStop => exact execLockinRunStop_only rfl only_refl
  | wmConfigure => exact execWmConfigure_only rfl only_refl
  | wmEnable => exact execWmEnable_only rfl only_refl
  | wmDisable => exact execWmDisable_only rfl only_refl
  | wmClear => exact execWmClear_only rfl only_refl
  | wmRead => exact execWmRead_only rfl only_refl
  | timConfig => exact execTimConfig_only rfl only_refl
  | timConfigRead => exact execTimConfigRead_only rfl only_refl
  | timRunStart => exact execTimRunStart_only rfl only_refl
  | timRunStop => exact execTimRunStop_only rfl only_refl
  | ringCreate => exact execRingCreate_only rfl only_refl
  | ringDestroy => exact execRingDestroy_only rfl only_refl
  | ringPolicy => exact execRingPolicy_only rfl only_refl
  | ringPolicyRead => exact execRingPolicyRead_only rfl only_refl
  | stageAttachAttach => exact execStageAttachAttach_only rfl only_refl
  | stageAttachDetach => exact execStageAttachDetach_only rfl only_refl
  | stageAttachWrite => exact execStageAttachWrite_only rfl only_refl
  | stageReadRead => exact execStageReadRead_only rfl only_refl
  | stageReadStatus => exact execStageReadStatus_only rfl only_refl
  | flashOpDone => exact execFlashOpDone_only rfl only_refl
  | flashTimeout => exact execFlashTimeout_only rfl only_refl
  | keepWindowClose => exact execKeepWindowClose_only rfl only_refl
  | keepWindowOpen => exact execKeepWindowOpen_only rfl only_refl
  | shutdownPowerDown => exact execShutdownPowerDown_only rfl only_refl
  | tripLogWritten => exact execTripLogWritten_only rfl only_refl
  | shutdownExitCondition => exact execShutdownExitCondition_only rfl only_refl
  | thermConfigLevels => exact execThermConfigLevels_only rfl only_refl
  | thermConfigThermistor => exact execThermConfigThermistor_only rfl only_refl
  | thermConfigRail => exact execThermConfigRail_only rfl only_refl
  | thermConfigRead => exact execThermConfigRead_only rfl only_refl
  | chargeWindow => exact execChargeWindow_only rfl only_refl
  | chargeWindowRead => exact execChargeWindowRead_only rfl only_refl
  | throttleAck => exact execThrottleAck_only rfl only_refl
  | calRun => exact execCalRun_only rfl only_refl
  | calCommit => exact execCalCommit_only rfl only_refl
  | calSelectLoad => exact execCalSelectLoad_only rfl only_refl
  | calSelectStatus => exact execCalSelectStatus_only rfl only_refl
  | calSelectQuality => exact execCalSelectQuality_only rfl only_refl
  | keepWriteData => exact execKeepWriteData_only rfl only_refl
  | keepWriteCommit => exact execKeepWriteCommit_only rfl only_refl
  | keepWriteCapture => exact execKeepWriteCapture_only rfl only_refl
  | keepWriteDiscard => exact execKeepWriteDiscard_only rfl only_refl
  | keepRead => exact execKeepRead_only rfl only_refl
  | faultConfig => exact execFaultConfig_only rfl only_refl
  | faultConfigRead => exact execFaultConfigRead_only rfl only_refl
  | faultForce => exact execFaultForce_only rfl only_refl
  | perturbSet => exact execPerturbSet_only rfl only_refl
  | perturbSetRead => exact execPerturbSetRead_only rfl only_refl
  | errnPulseEnd => exact execErrnPulseEnd_only rfl only_refl
  | segPinResidencyTimeout => exact execSegPinResidencyTimeout_only rfl only_refl
  | burstRunEntryTimeout => exact execBurstRunEntryTimeout_only rfl only_refl
  | keepOperationDone => exact execKeepOperationDone_only rfl only_refl

/-- The queue that a command leaves is the one that it found. -/
theorem exec_pending {i : Instr} {t : State} (h : exec i s = .next t) : t.pending = s.pending :=
  only_pending (exec_only_parts i t h)

/-- A state whose memories are canonical is `Kept` from itself on. -/
theorem kept_self (hdram : Memory.wf 0 s.pat.dram = true) (hflash : Memory.wf 0xFF s.ser.flash = true)
    (hkeep : Memory.wf 0xFF s.cal.keep = true) (hroll : s.fw.rollback ≤ 64) :
    Kept s.pending s.bus.uniqueId s.fw.rollback s :=
  ⟨rfl, rfl, ⟨le_refl _, hroll⟩, hdram, hflash, hkeep⟩

/-- A step with a command at the front of the queue. -/
theorem step_of_cons {c : Instr} {l : List Instr} (h : s.pending = c :: l) : step s = exec c { s with pending := l } := by
  simp only [step, h]

/-- A step with no command waiting. -/
theorem step_of_nil (h : s.pending = []) : step s = .next (tick s) := by
  simp only [step, h]

/-- A step keeps everything but the queue, of which it takes the front. -/
theorem step_kept {t : State} (h : Kept s.pending u r s) (ht : step s = .next t) : ∃ q, Kept q u r t := by
  cases hp : s.pending with
  | nil =>
    rw [step_of_nil hp] at ht
    exact ⟨_, keptOut_next (tick_kept h) t ht⟩
  | cons c l =>
    rw [step_of_cons hp] at ht
    have htail : Kept l u r { s with pending := l } := ⟨rfl, h.2⟩
    exact ⟨l, exec_kept c htail t ht⟩

/-- Settles O1: a step takes the front command, and no command writes the queue. -/
theorem commandsRunInOrder : Obligations.CommandsRunInOrder := by
  unfold Obligations.CommandsRunInOrder
  refine ⟨fun c l s => step_of_cons rfl, ?_⟩
  intro c l s t hp ht
  rw [step_of_cons hp] at ht
  exact exec_pending ht

/-- Settles O5, from what a step keeps. -/
theorem memoriesStayCanonical : Obligations.MemoriesStayCanonical := by
  unfold Obligations.MemoriesStayCanonical
  intro s t hdram hflash hkeep hroll ht
  obtain ⟨q, -, -, hr, hmem⟩ := step_kept (kept_self hdram hflash hkeep hroll) ht
  exact ⟨hmem.1, hmem.2.1, hmem.2.2, hr.2⟩

/-- Settles O6, from what a step keeps. -/
theorem programmedOnceStays : Obligations.ProgrammedOnceStays := by
  unfold Obligations.ProgrammedOnceStays
  intro s t hdram hflash hkeep hroll ht
  obtain ⟨q, -, hid, hr, -⟩ := step_kept (kept_self hdram hflash hkeep hroll) ht
  exact ⟨hid, hr.1⟩

end Sys2Proof.Machine
end

section
/-! PROOFS. What power-on leaves, the identity region (spec/03 R54), and the passing of time on an empty queue. -/

set_option Elab.async false

namespace Sys2Proof.Machine

variable {s : State}

/-! One tick. -/

/-- A listed entry is an entry of the table. -/
theorem mem_of_mem_tents {α : Type} {m : Tab α} {e : Nat × α} (h : e ∈ tents m) : e ∈ m := by
  induction m with
  | nil => exact h
  | cons a l ih =>
    rcases List.mem_cons.1 h with rfl | h
    · exact List.mem_cons_self
    · exact List.mem_cons_of_mem _ (ih (List.mem_of_mem_filter h))

/-- A port at rest sends nothing in the tick. -/
theorem tickPort_of_rest {p : Nat} (hstep : (s.port p).step ≠ .active) (hreq : (s.port p).resetReq = false)
    (hrsp : (s.port p).delayRsp = false) : tickPort s p = s := by
  simp [tickPort, hstep, hreq, hrsp]

theorem countTick_parts (s : State) : ∃ n, countTick s = { s with clk := { s.clk with time := n } } := by
  unfold countTick
  split
  · exact ⟨_, rfl⟩
  · exact ⟨s.clk.time, rfl⟩

/-- With both ports at rest and no request consumed, the tick only counts and lets due faults and bursts go on. -/
theorem tick_of_rest (hports : PortsRest s) (hinbox : s.link.inbox = []) :
    tick s = tickBursts (tickForced (countTick s)) := by
  obtain ⟨n, hn⟩ := countTick_parts s
  have hrest : ∀ p, p < 2 → tickPort (countTick s) p = countTick s := by
    intro p hp
    obtain ⟨hstep, hreq, hrsp⟩ := hports p hp
    rw [hn]
    exact tickPort_of_rest hstep hreq hrsp
  have hreqs : tickRequest (countTick s) = countTick s := by simp [tickRequest, hn, hinbox]
  rw [tick, hrest 0 (by decide), hrest 1 (by decide), hreqs]

/-- No burst in ENDING waits for the tick. -/
theorem tickBursts_of_none (h : ∀ e ∈ s.pat.seq, e.2.mode ≠ .ending) : tickBursts s = s := by
  have hnone : (tents s.pat.seq).filter (fun e => decide (e.2.mode = .ending)) = [] := by
    rw [List.filter_eq_nil_iff]
    intro e he
    simpa using h e (mem_of_mem_tents he)
  rw [tickBursts, hnone, List.foldl_nil]

/-- A forced fault that fires waits for its block, as forced (R528). -/
theorem fireForced_waiting (s : State) (a k src : Nat) : ∃ d, (fireForced s (a, k, src)).flt.waiting = s.flt.waiting ++ [d] ∧
    d.block = k ∧ d.source = src ∧ d.forced = true :=
  ⟨_, rfl, rfl, rfl, rfl⟩

/-- Settles O2: with the ports at rest the tick is its count, a due forced fault, and the bursts that wait in ENDING. -/
theorem emptyQueueLetsTimePass : Obligations.EmptyQueueLetsTimePass := by
  unfold Obligations.EmptyQueueLetsTimePass
  refine ⟨fun s h => ⟨_, step_of_nil h⟩, ?_, ?_⟩
  · intro s h hports hinbox hforce hend
    obtain ⟨n, hn⟩ := countTick_parts s
    have hforced : tickForced (countTick s) = countTick s := by simp [tickForced, hn, hforce]
    rw [step_of_nil h, tick_of_rest hports hinbox, hforced, tickBursts_of_none (by rw [hn]; exact hend)]
    simp only [countTick, clocksRun, Bool.or_eq_true]
    rfl
  · intro s a k src h hports hinbox hforce hdue htime hend
    obtain ⟨n, hn⟩ := countTick_parts s
    have hle : a ≤ (countTick s).now := by
      unfold countTick
      split
      · change a ≤ (s.clk.time + 1) % 18446744073709551616
        omega
      · exact hdue
    have hfind : (countTick s).flt.forceAt.find? (fun e => decide (e.1 ≤ (countTick s).now)) = some (a, k, src) := by
      have : (countTick s).flt.forceAt = [(a, k, src)] := by rw [hn]; exact hforce
      simp [this, hle]
    have hforced : tickForced (countTick s) = fireForced (countTick s) (a, k, src) := by
      simp only [tickForced, hfind]
    have hbursts : tickBursts (fireForced (countTick s) (a, k, src)) = fireForced (countTick s) (a, k, src) :=
      tickBursts_of_none (by rw [hn]; exact hend)
    obtain ⟨d, hd, hblock, hsource, hfor⟩ := fireForced_waiting (countTick s) a k src
    refine ⟨_, d, by rw [step_of_nil h, tick_of_rest hports hinbox, hforced, hbursts], ?_, ?_, hblock, hsource, hfor⟩
    · have : (fireForced (countTick s) (a, k, src)).flt.forceAt = (countTick s).flt.forceAt.erase (a, k, src) := rfl
      rw [this, hn, hforce, List.erase_cons_head]
    · rw [hd, hn]

/-! Power-on, and the identity region. -/

/-- Settles O3: `State.reset` is the default state, and every read of it reduces to its table's reset value. -/
theorem resetLeaves : Obligations.ResetLeaves := by
  unfold Obligations.ResetLeaves
  refine ⟨rfl, rfl, rfl, rfl, rfl, rfl, rfl, by decide, rfl, rfl, rfl, fun n _ => rfl, fun k => ⟨rfl, rfl, rfl, rfl, rfl⟩,
    fun k n _ _ => rfl, rfl, rfl, rfl, rfl, rfl, ?_⟩
  intro m
  cases m <;> decide +kernel

end Sys2Proof.Machine
end

section
/-! PROOFS. The register bus (spec/03): one access in an F3 cycle, and where a plain write lands (R53, R54, R71). -/

set_option Elab.async false

namespace Sys2Proof.Machine

variable {s t u v : State} {m : Master} {a : Nat} {w : Word}

/-! What the bus notes of an access. -/

/-- `BusNoted` with its witnesses: only the record of the cycle and the masters' last cycles may have changed. -/
theorem busNoted_iff : BusNoted u t ↔ ∃ r x y, t = { u with bus := { u.bus with recent := r, lastHost := x, lastShed := y } } := by
  constructor
  · intro h
    exact ⟨_, _, _, h⟩
  · rintro ⟨r, x, y, rfl⟩
    rfl

theorem busNoted_refl : BusNoted u u := rfl

theorem busNoted_trans (h : BusNoted u v) (h' : BusNoted v t) : BusNoted u t := by
  obtain ⟨r, x, y, rfl⟩ := busNoted_iff.1 h
  obtain ⟨r', x', y', rfl⟩ := busNoted_iff.1 h'
  exact busNoted_iff.2 ⟨r', x', y', rfl⟩

theorem busNoted_busDone (s : State) (m : Master) : BusNoted s (busDone s m) := by
  cases m <;> rfl

theorem busNoted_noteHost (s : State) (m : Master) (a : Nat) (w mask : Word) (al : Bool) :
    BusNoted s (noteHost s m a w mask al) := by
  unfold noteHost
  split <;> rfl

theorem busNoted_noteSet (s : State) (a : Nat) (b : Word) : BusNoted s (s.noteSet a b) := rfl

theorem busNoted_noteAdd (s : State) (a old : Nat) : BusNoted s (s.noteAdd a old) := rfl

theorem busNoted_noteBase (s : State) (a base : Nat) : BusNoted s (s.noteBase a base) := rfl

/-! The master's turn. -/

theorem busTurn_of_ne (h : s.lastAt m ≠ some (f3 s.clk.time)) : busTurn s m = s := by
  have hne : decide (s.lastAt m = some (f3 s.now)) = false := decide_eq_false h
  simp only [busTurn, hne, Bool.and_false, Bool.false_eq_true, if_false]

theorem busTurn_of_eq (hclk : clocksRun s = true) (h : s.lastAt m = some (f3 s.clk.time)) :
    busTurn s m = { s with clk := { s.clk with time := f3 s.clk.time + 16 } } := by
  have heq : decide (s.lastAt m = some (f3 s.now)) = true := decide_eq_true h
  simp only [busTurn, hclk, heq, Bool.and_true, if_true]
  rfl

/-- The turn moves chip time at most. -/
theorem busTurn_parts (s : State) (m : Master) : ∃ n, busTurn s m = { s with clk := { s.clk with time := n } } := by
  unfold busTurn
  split
  · exact ⟨_, rfl⟩
  · exact ⟨s.clk.time, rfl⟩

@[simp] theorem busAlive_busTurn (s : State) (m : Master) : busAlive (busTurn s m) = busAlive s := by
  obtain ⟨n, hn⟩ := busTurn_parts s m
  rw [hn]
  rfl

@[simp] theorem busTurn_flt (s : State) (m : Master) : (busTurn s m).flt = s.flt := only_flt (busTurn_only (w := 4) rfl only_refl)
@[simp] theorem busTurn_mb (s : State) (m : Master) : (busTurn s m).mb = s.mb := only_mb (busTurn_only (w := 4) rfl only_refl)
@[simp] theorem busTurn_pat (s : State) (m : Master) : (busTurn s m).pat = s.pat := only_pat (busTurn_only (w := 4) rfl only_refl)
@[simp] theorem busTurn_harv (s : State) (m : Master) : (busTurn s m).harv = s.harv := only_harv (busTurn_only (w := 4) rfl only_refl)
@[simp] theorem busTurn_mbx (s : State) (m : Master) (n : Nat) : (busTurn s m).mbx n = s.mbx n := by simp [State.mbx]
@[simp] theorem busTurn_fblk (s : State) (m : Master) (n : Nat) : (busTurn s m).fblk n = s.fblk n := by simp [State.fblk]
@[simp] theorem busTurn_trig (s : State) (m : Master) (n : Nat) : (busTurn s m).trig n = s.trig n := by simp [State.trig]
@[simp] theorem busTurn_ringPort (s : State) (m k : Master) : (busTurn s m).ringPort k = s.ringPort k := by
  cases k <;> simp [State.ringPort]

/-- A write in the master's turn. -/
theorem busWrite_of_alive (w : Word) (h : busAlive s = true) : busWrite s m a w = busDone (writeWord (busTurn s m) m a w) m := by
  rw [busWrite, if_pos h]

/-! Where a plain write lands. -/

/-- A plain write with no half pending, to a mapped and unguarded word below the aliases, lands. -/
theorem writeWord_plain (w : Word) (hlt : a < 0x800000) (hmap : (plainRegion a).isSome = true) (hg : guarded a = false)
    (hh : halfOf s m = none) : writeWord s m a w = landWrite s m a w 0xFFFF false := by
  have halias : isAlias a = false := by
    simp only [isAlias, Bool.and_eq_false_iff, decide_eq_false_iff_not]; omega
  have hregion : (busRegion a).isNone = false := by simpa [busRegion, halias] using hmap
  simp only [writeWord, expireHalf_of_none hh, hregion, halias, hg, Bool.false_eq_true, if_false]

/-- The same, as the row's whole access. -/
theorem busWrite_plain (w : Word) (hlt : a < 0x800000) (hmap : (plainRegion a).isSome = true) (hg : guarded a = false)
    (halive : busAlive s = true) (hh : halfOf s m = none) :
    busWrite s m a w = busDone (landWrite (busTurn s m) m a w 0xFFFF false) m := by
  rw [busWrite_of_alive w halive, writeWord_plain w hlt hmap hg (by rw [halfOf_busTurn, hh])]

/-- A word that keeps no write acts for both masters. -/
theorem landWrite_of_not_keeps (mask : Word) (al : Bool) (h : keepsWrite a = false) :
    landWrite s m a w mask al = writePlain s m a w mask al := by
  simp only [landWrite, h, Bool.false_eq_true, if_false]

/-- With no host write of the word in the cycle, the write stays as it landed (R53). -/
theorem landWrite_noted {mask : Word} {al : Bool}
    (h : m = .host ∨ ∀ e ∈ (writePlain s m a w mask al).recent.writes, e.1 ≠ a) :
    BusNoted (writePlain s m a w mask al) (landWrite s m a w mask al) := by
  unfold landWrite
  cases hk : keepsWrite a with
  | false => exact busNoted_refl
  | true =>
    by_cases hm : m = .shed
    · have hnone : (writePlain s m a w mask al).recent.writes.filter (fun e => decide (e.1 = a)) = [] := by
        rw [List.filter_eq_nil_iff]
        intro e he
        have := (h.resolve_left (by rw [hm]; decide)) e he
        simpa using this
      rw [if_pos rfl, if_pos hm, hnone]
      exact busNoted_refl
    · rw [if_pos rfl, if_neg hm]
      exact busNoted_noteHost _ _ _ _ _ _

/-- A plain write that prevails, where landing itself notes no write: what the register's own row does, and the bus's notes. -/
theorem busWrite_noted (hlt : a < 0x800000) (hmap : (plainRegion a).isSome = true) (hg : guarded a = false)
    (halive : busAlive s = true) (hh : halfOf s m = none) (hp : Prevails s m a)
    (hrec : (writePlain (busTurn s m) m a w 0xFFFF false).recent.writes = (busTurn s m).recent.writes)
    (hrow : BusNoted v (writePlain (busTurn s m) m a w 0xFFFF false)) : BusNoted v (busWrite s m a w) := by
  rw [busWrite_plain w hlt hmap hg halive hh]
  have hland : m = .host ∨ ∀ e ∈ (writePlain (busTurn s m) m a w 0xFFFF false).recent.writes, e.1 ≠ a := by rwa [hrec]
  exact busNoted_trans (busNoted_trans hrow (landWrite_noted hland)) (busNoted_busDone _ _)

/-- The identity region takes no write (R54). -/
theorem landWrite_identity {mask : Word} {al : Bool} (h : a < 0x100) : BusNoted s (landWrite s m a w mask al) := by
  have hplain : ∀ (s : State) (m : Master) (w mask : Word) (al : Bool), writePlain s m a w mask al = s := by
    intro s m w mask al
    rw [writePlain, if_pos h]
  have hfold : ∀ (l : List (Nat × Word × Word × Bool)) (s : State),
      l.foldl (fun s e => writePlain s .host a e.2.1 e.2.2.1 e.2.2.2) s = s := by
    intro l
    induction l with
    | nil => exact fun s => rfl
    | cons e l ih => intro s; rw [List.foldl_cons, hplain, ih]
  unfold landWrite
  rw [hplain]
  split
  · split
    · rw [hfold]; exact busNoted_refl
    · exact busNoted_noteHost _ _ _ _ _ _
  · exact busNoted_refl

theorem not_guarded_of_lt (h : a < 0x110) : guarded a = false := by
  rw [guarded, ← Bool.not_eq_true, guardedValue_iff]
  omega

/-- A write to the identity region leaves the part as it was (R54). -/
theorem busWrite_identity (halive : busAlive s = true) (hh : halfOf s m = none) (h : a < 0x100) :
    BusNoted (busTurn s m) (busWrite s m a w) := by
  rw [busWrite_plain w (by omega) ((plainRegion_isSome a).2 (by omega)) (not_guarded_of_lt (by omega)) halive hh]
  exact busNoted_trans (landWrite_identity h) (busNoted_busDone _ _)

/-! The identity region reads. -/

theorem readWord_identity (s : State) (m : Master) (h : a < 0x100) : readWord s m a = identityWord s a := by
  rw [readWord_of_not_alias s m (by omega), if_pos ((plainRegion_isSome a).2 (by omega)), plainWord,
    not_guarded_of_lt (show a < 0x110 by omega), Bool.false_and, if_neg Bool.false_ne_true, if_pos h]

/-- Settles O4: the fixed words by their table, UNIQUE_ID word by word, and a write that does nothing. -/
theorem identityRegion : Obligations.IdentityRegion := by
  unfold Obligations.IdentityRegion
  refine ⟨?_, ?_, ?_⟩
  · intro s m
    simp (disch := decide) only [readWord_identity]
    have hid := s.bus.uniqueId.isLt
    simp only [identityWord, bits, Nat.shiftRight_eq_div_pow]
    refine ⟨rfl, rfl, rfl, rfl, rfl, rfl, rfl, rfl, rfl, rfl, rfl, rfl, rfl, rfl, rfl, rfl, rfl, rfl, rfl, rfl, rfl, rfl, rfl,
      rfl, rfl, rfl, ?_, ?_, ?_, ?_⟩ <;> simp <;> omega
  · intro m
    simp (disch := decide) only [readWord_identity]
    exact ⟨rfl, rfl, rfl⟩
  · intro m a w s halive hh ha
    exact ⟨_, rfl, busWrite_identity halive hh (by omega)⟩

end Sys2Proof.Machine
end

section
/-! PROOFS. The rows that write one plain register (spec/03, R57, R71, R72; R78, R79, R211, R382, R383, R508, R516), and the
cycles of the register bus (R53, R67, R71). -/

set_option Elab.async false

namespace Sys2Proof.Machine

variable {s t u v : State} {m : Master} {a : Nat} {w : Word}

/-! The fields of a full write. -/

theorem and_full (w : Word) : w &&& 0xFFFF = w := BitVec.and_allOnes

@[simp] theorem mergeW_full (o w : Word) : mergeW o w 0xFFFF = w := by
  have hzero : ~~~(0xFFFF : Word) = 0 := by decide
  rw [mergeW, hzero, and_full]
  simp

@[simp] theorem clearBits_full (s : State) (a : Nat) (w : Word) : clearBits s a w 0xFFFF = w &&& ~~~(s.setNow a) := by
  rw [clearBits, and_full]

theorem bit_toNat (w : Word) (k : Nat) : bit w.toNat k = w.getLsbD k := rfl

/-! The record of the present cycle. -/

theorem recent_congr (hr : t.bus.recent = s.bus.recent) (hc : t.clk.time = s.clk.time) : t.recent = s.recent := by
  unfold State.recent State.now
  rw [hr, hc]

theorem recent_cycle (s : State) : s.recent.cycle = f3 s.now := by
  unfold State.recent
  split
  · assumption
  · rfl

/-- A record of the present cycle is the one that reads. -/
theorem recent_of_cycle {r : Recent} (h : r.cycle = f3 s.now) : State.recent { s with bus := { s.bus with recent := r } } = r :=
  if_pos h

theorem noteBase_recent (s : State) (a base : Nat) : (s.noteBase a base).recent =
    { s.recent with adds := s.recent.adds.map (fun e => if e.1 = a then (a, base, e.2.2) else e) } :=
  recent_of_cycle (recent_cycle s)

theorem noteHost_recent (s : State) (a : Nat) (w mask : Word) (al : Bool) :
    (noteHost s .host a w mask al).recent = { s.recent with writes := s.recent.writes ++ [(a, w, mask, al)] } :=
  recent_of_cycle (recent_cycle s)

/-! One equation per register: what a full write of it does. -/

theorem writePlain_chipControl (s : State) (m : Master) (w : Word) : writePlain s m 0x101 w 0xFFFF false =
    { s with bus := { s.bus with errnHold := s.bus.errnHold && !(w &&& ~~~(s.setNow 0x101)).getLsbD 0, intNEn := w.getLsbD 1, errnTest := w.getLsbD 2 } } := by
  simp only [writePlain, writeControl, clearBits_full]
  rfl

/-- A write of WDOG_PERIOD sets it, through any mask, and nothing else. -/
theorem writePlain_wdogPeriod (s : State) (m : Master) (w mask : Word) (al : Bool) : writePlain s m 0x102 w mask al =
    { s with clk := { s.clk with wdogPeriod := clampPeriod (mergeW (w16 s.clk.wdogPeriod) w mask).toNat } } := rfl

theorem writePlain_guardCount (s : State) (m : Master) (w : Word) : writePlain s m 0x11E w 0xFFFF false =
    { s.noteBase 0x11E w.toNat with bus := { (s.noteBase 0x11E w.toNat).bus with guardCount := min 65535 (w.toNat + (s.beforeEvents 0x11E 0).2) } } := rfl

/-- An alias of CHIP_CONTROL.ERRN_TEST writes that bit alone (R57). -/
theorem writePlain_errnTest_alias (s : State) (m : Master) (b : Bool) :
    writePlain s m 0x101 (if b then 4 else 0) 4 true = { s with bus := { s.bus with errnTest := b } } := by
  have hhold : (clearBits s 0x101 (if b then 4 else 0) 4).getLsbD 0 = false := by
    simp only [clearBits, BitVec.getLsbD_and]
    cases b <;> rfl
  simp only [writePlain, writeControl, hhold]
  cases b <;> simp

theorem writePlain_mailbox (s : State) (m : Master) (n : Mbox) {o : Nat} (ho : o < 0x100) (w mask : Word) (al : Bool) :
    writePlain s m (0x800 + 0x100 * n.val + o) w mask al = writeMailbox s m n.val o w mask al := by
  have hn := n.isLt
  have hbox : (0x800 + 0x100 * n.val + o - 0x800) / 0x100 = n.val := by omega
  have hoff : (0x800 + 0x100 * n.val + o) % 0x100 = o := by omega
  rw [writePlain, if_neg (by omega), if_neg (by omega), if_pos (by omega), hbox, hoff]

theorem writePlain_fault (s : State) (m : Master) (k : Block) {o : Nat} (ho : o < 0x40) (w mask : Word) (al : Bool) :
    writePlain s m (0x1000 + 0x40 * k.val + o) w mask al = writeFault s k.val o w mask al := by
  have hk := k.isLt
  have hblock : (0x1000 + 0x40 * k.val + o - 0x1000) / 0x40 = k.val := by omega
  have hoff : (0x1000 + 0x40 * k.val + o) % 0x40 = o := by omega
  rw [writePlain, if_neg (by omega), if_neg (by omega), if_neg (by omega), if_pos (by omega), hblock, hoff]

/-! The addresses of the rows are mapped and unguarded; the doorbells, acknowledgements and posts keep no write. -/

theorem not_guarded_of_mailbox (h : 0x800 ≤ a ∧ a < 0x1000) : guarded a = false := by
  rw [guarded, ← Bool.not_eq_true, guardedValue_iff]
  omega

theorem not_guarded_of_fault (k : Block) {o : Nat} (ho : o < 0x3E) : guarded (0x1000 + 0x40 * k.val + o) = false := by
  have hk := k.isLt
  rw [guarded, ← Bool.not_eq_true, guardedValue_iff]
  omega

/-- The row of a write-only word: its effect, for either master. -/
theorem busWrite_writeOnly (w : Word) (hlt : a < 0x800000) (hmap : (plainRegion a).isSome = true) (hg : guarded a = false)
    (halive : busAlive s = true) (hh : halfOf s m = none) (hk : keepsWrite a = false) :
    busWrite s m a w = busDone (writePlain (busTurn s m) m a w 0xFFFF false) m := by
  rw [busWrite_plain w hlt hmap hg halive hh, landWrite_of_not_keeps _ _ hk]

theorem busWrite_doorbell (n : Mbox) (w : Word) (halive : busAlive s = true) (hh : halfOf s m = none) :
    busWrite s m (0x800 + 0x100 * n.val + 0x7F) w =
      busDone (if w.getLsbD 0 then (ringDoorbell (busTurn s m) n.val).1 else busTurn s m) m := by
  have hn := n.isLt
  have hk : keepsWrite (0x800 + 0x100 * n.val + 0x7F) = false := by simp [keepsWrite, writeOnly]; omega
  rw [busWrite_writeOnly w (by omega) ((plainRegion_isSome _).2 (by omega)) (not_guarded_of_mailbox (by omega)) halive hh hk,
    writePlain_mailbox _ _ n (by decide)]
  simp only [writeMailbox, and_full, bit_toNat, busTurn_mbx]
  rfl

theorem busWrite_mailboxAck (n : Mbox) (w : Word) (halive : busAlive s = true) (hh : halfOf s m = none) :
    busWrite s m (0x800 + 0x100 * n.val + 0xFF) w =
      busDone (if w.getLsbD 0 && decide ((s.mbx n.val).state = .done) then
        (busTurn s m).modMbx n.val (fun x => { x with state := .idle }) else busTurn s m) m := by
  have hn := n.isLt
  have hk : keepsWrite (0x800 + 0x100 * n.val + 0xFF) = false := by simp [keepsWrite, writeOnly]; omega
  rw [busWrite_writeOnly w (by omega) ((plainRegion_isSome _).2 (by omega)) (not_guarded_of_mailbox (by omega)) halive hh hk,
    writePlain_mailbox _ _ n (by decide)]
  simp only [writeMailbox, and_full, bit_toNat, busTurn_mbx]
  rfl

theorem busWrite_faultAck (k : Block) (w : Word) (halive : busAlive s = true) (hh : halfOf s m = none) :
    busWrite s m (0x1000 + 0x40 * k.val + 3) w =
      busDone (if w.getLsbD 0 then ackFault (busTurn s m) k.val else busTurn s m) m := by
  have hkl := k.isLt
  have hk : keepsWrite (0x1000 + 0x40 * k.val + 3) = false := by simp [keepsWrite, writeOnly]; omega
  rw [busWrite_writeOnly w (by omega) ((plainRegion_isSome _).2 (by omega)) (not_guarded_of_fault k (by decide)) halive hh hk,
    writePlain_fault _ _ k (by decide)]
  simp only [writeFault, and_full, bit_toNat]
  rfl

/-- An acknowledgement with no fault registered in its cycle frees the record, and nothing else (R516). -/
theorem ackFault_of_none {k : Nat} (h : ∀ e ∈ s.recent.faults, e.1.block ≠ k) :
    BusNoted (s.modFblk k (fun b => { b with ffValid := false })) (ackFault s k) := by
  have hnone : s.recent.faults.filter (fun e => decide (e.1.block = k)) = [] := by
    rw [List.filter_eq_nil_iff]
    intro e he
    simpa using h e he
  unfold ackFault
  simp only [hnone, List.foldl_nil]
  rfl

theorem busWrite_releasePost (w : Word) (halive : busAlive s = true) (hh : halfOf s m = none) :
    busWrite s m 0x4013 w = busDone (postRelease (busTurn s m) m w) m := by
  rw [busWrite_writeOnly w (by decide) (by decide) (by decide) halive hh (by decide)]
  simp only [writePlain, writeRelease, and_full]
  rfl

theorem busWrite_trigForce (w : Word) (halive : busAlive s = true) (hh : halfOf s m = none) :
    busWrite s m 0x208 w = busDone ((maskList 8 w.toNat).foldl (fun u n => trigPulse u n (f3 u.now)) (busTurn s m)) m := by
  rw [busWrite_writeOnly w (by decide) (by decide) (by decide) halive hh (by decide)]
  simp only [writePlain, writeControl, and_full]
  rfl

theorem maskList_two_pow {n : Nat} (h : n < 8) : maskList 8 (2 ^ n) = [n] := by
  interval_cases n <;> decide

/-- RING_SNAPSHOT_READ latches the snapshot of the master's own region and returns its first word (R382). -/
theorem busRead_snapshot (halive : busAlive s = true) : ∃ u, u = (busTurn s m).modRingPort m (fun p => { p with snap := snapWords (busTurn s m) p.sel }) ∧
    busRead s m 0x4002 = busDone { u with bus := { u.bus with lastRead := w16 (wAt (u.ringPort m).snap 0) } } m := by
  refine ⟨_, rfl, ?_⟩
  rw [busRead, if_pos halive]
  rfl

@[simp] theorem modRingPort_ringPort (s : State) (m : Master) (f : RingPort → RingPort) : (s.modRingPort m f).ringPort m = f (s.ringPort m) := by
  cases m <;> rfl

@[simp] theorem busTurn_snapWords (s : State) (m : Master) (r : Nat) : snapWords (busTurn s m) r = snapWords s r := by
  simp [snapWords, State.ring]

/-- What holds of every state that the bus's notes may leave holds of the row's next state. -/
theorem exists_of_noted {o : Host.Outcome State Fault Refusal} {Q : State → Prop} (ho : o = .next t) (h : BusNoted v t)
    (hq : ∀ r x y, Q { v with bus := { v.bus with recent := r, lastHost := x, lastShed := y } }) : ∃ t, o = .next t ∧ Q t := by
  obtain ⟨r, x, y, rfl⟩ := busNoted_iff.1 h
  exact ⟨_, ho, hq r x y⟩

/-- Settles O13, row by row from the equation of its register. -/
theorem plainRegisterWrites : Obligations.PlainRegisterWrites := by
  unfold Obligations.PlainRegisterWrites
  refine ⟨?_, ?_, ?_, ?_, ?_, ?_, ?_, ?_, ?_, ?_, ?_, ?_, ?_, ?_, ?_, ?_⟩
  · intro m w s halive hh hp
    refine exists_of_noted (t := busWrite s m 0x101 w) rfl (busWrite_noted (by decide) (by decide) (by decide) halive hh hp ?_ ?_)
      (v := { busTurn s m with bus := { s.bus with errnHold := s.bus.errnHold && !(w &&& ~~~((busTurn s m).setNow 0x101)).getLsbD 0, intNEn := w.getLsbD 1, errnTest := w.getLsbD 2 } })
      (fun r x y => ⟨rfl, rfl, rfl, rfl⟩)
    · rw [writePlain_chipControl]
      exact congrArg _ (recent_congr rfl rfl)
    · rw [writePlain_chipControl, busTurn_bus]
      exact busNoted_refl
  · intro m w s halive hh hp
    refine exists_of_noted (t := busWrite s m 0x102 w) rfl (busWrite_noted (by decide) (by decide) (by decide) halive hh hp ?_ ?_)
      (v := { busTurn s m with clk := { (busTurn s m).clk with wdogPeriod := clampPeriod w.toNat } }) (fun r x y => ⟨?_, rfl⟩)
    · rw [writePlain_wdogPeriod]
      exact congrArg _ (recent_congr rfl rfl)
    · rw [writePlain_wdogPeriod, mergeW_full]
      exact busNoted_refl
    · change max 10 (min 2000 w.toNat) = _
      split_ifs <;> omega
  · intro m w s halive hh hp
    refine exists_of_noted (t := busWrite s m 0x11E w) rfl (busWrite_noted (by decide) (by decide) (by decide) halive hh hp ?_ ?_)
      (v := { busTurn s m with bus := { s.bus with guardCount := min 65535 (w.toNat + ((busTurn s m).beforeEvents 0x11E 0).2) } })
      (fun r x y => ⟨rfl, rfl⟩)
    · have hrec := noteBase_recent (busTurn s m) 0x11E w.toNat
      have hsame : (writePlain (busTurn s m) m 0x11E w 0xFFFF false).recent = ((busTurn s m).noteBase 0x11E w.toNat).recent := recent_congr rfl rfl
      change (writePlain (busTurn s m) m 0x11E w 0xFFFF false).recent.writes = _
      rw [hsame, hrec]
    · have hbus := busNoted_noteBase (busTurn s m) 0x11E w.toNat
      change BusNoted _ (writePlain (busTurn s m) m 0x11E w 0xFFFF false)
      rw [writePlain_guardCount, ← busTurn_bus s m]
      rfl
  · intro m a w s halive hh ha
    exact ⟨_, rfl, busWrite_identity halive hh ha⟩
  · intro m w s halive hh hp
    have hwrite : writeWord (busTurn s m) m 0x801012 w = landWrite (busTurn s m) m 0x101 (if w.getLsbD 0 then 4 else 0) 4 true := by
      unfold writeWord
      rw [expireHalf_of_none (by rw [halfOf_busTurn, hh])]
      rfl
    have hland := landWrite_noted (s := busTurn s m) (m := m) (a := 0x101) (w := if w.getLsbD 0 then 4 else 0) (mask := 4) (al := true)
      (by rw [writePlain_errnTest_alias]; exact hp)
    rw [writePlain_errnTest_alias, ← hwrite] at hland
    refine exists_of_noted (t := busWrite s m 0x801012 w) rfl (v := { busTurn s m with bus := { s.bus with errnTest := w.getLsbD 0 } }) ?_ (fun r x y => ⟨rfl, rfl⟩)
    rw [busWrite_of_alive w halive, ← busTurn_bus s m]
    exact busNoted_trans hland (busNoted_busDone _ _)
  · intro m n w s halive hh hw hst
    change Host.Outcome.next (busWrite s m _ w) = _
    rw [busWrite_doorbell n w halive hh, if_pos hw, ringDoorbell, busTurn_mbx, if_pos hst]
  · intro m n w s halive hh hw hst
    have hbusy : ¬((s.mbx n.val).state = .idle ∨ (s.mbx n.val).state = .done) := by
      rcases hst with h | h | h <;> simp [h]
    refine exists_of_noted (t := busWrite s m (0x800 + 0x100 * n.val + 0x7F) w) rfl
      (v := (busTurn s m).modMbx n.val (fun x => { x with refused := true, refusedCount := min 65535 (x.refusedCount + 1) }))
      ?_ (fun r x y => ⟨?_, ?_, rfl⟩)
    · rw [busWrite_doorbell n w halive hh, if_pos hw]
      unfold ringDoorbell
      rw [busTurn_mbx, if_neg hbusy]
      refine busNoted_trans ?_ (busNoted_busDone _ _)
      rfl
    · simp [State.mbx, State.modMbx]
    · intro k hk
      simp [State.mbx, State.modMbx, hk]
  · intro m n w s halive hh hw
    change Host.Outcome.next (busWrite s m _ w) = _
    rw [busWrite_doorbell n w halive hh, hw, if_neg Bool.false_ne_true]
  · intro m n w s halive hh hw hst
    change Host.Outcome.next (busWrite s m _ w) = _
    rw [busWrite_mailboxAck n w halive hh, hw, hst]
    rfl
  · intro m n w s halive hh hw
    have hno : ¬(w.getLsbD 0 && decide ((s.mbx n.val).state = .done)) = true := by
      rw [Bool.and_eq_true, decide_eq_true_eq]
      rintro ⟨h1, h2⟩
      exact hw.elim (fun h => absurd (h.symm.trans h1) (by decide)) (fun h => h h2)
    change Host.Outcome.next (busWrite s m _ w) = _
    rw [busWrite_mailboxAck n w halive hh, if_neg hno]
  · intro m k w s halive hh hw hnone
    refine exists_of_noted (t := busWrite s m (0x1000 + 0x40 * k.val + 3) w) rfl
      (v := (busTurn s m).modFblk k.val (fun b => { b with ffValid := false })) ?_ (fun r x y => ⟨?_, ?_, ?_⟩)
    · rw [busWrite_faultAck k w halive hh, if_pos hw]
      exact busNoted_trans (ackFault_of_none hnone) (busNoted_busDone _ _)
    · simp [State.fblk, State.modFblk]
    · intro j hj
      simp [State.fblk, State.modFblk, hj]
    · rw [← busTurn_flt s m]
      rfl
  · intro m k w s halive hh hw
    change Host.Outcome.next (busWrite s m _ w) = _
    rw [busWrite_faultAck k w halive hh, hw, if_neg Bool.false_ne_true]
  · intro m w s r fl lo t0 t1 t2 halive hh h0 h1 h2 ht0 ht1 ht2
    change Host.Outcome.next (busWrite s m _ w) = _
    rw [busWrite_releasePost w halive hh]
    simp [postRelease, h0, h1, h2, State.now, ht0, ht1, ht2, bit_toNat]
  · intro m w s halive hh h0
    change Host.Outcome.next (busWrite s m _ w) = _
    rw [busWrite_releasePost w halive hh]
    simp [postRelease, h0]
  · intro m s halive
    obtain ⟨u, hu, hread⟩ := busRead_snapshot (s := s) (m := m) halive
    refine ⟨_, congrArg Host.Outcome.next hread, ?_⟩
    subst hu
    cases m <;> simp [busDone, State.modRingPort, State.ringPort]
  · intro m n w s halive hh hn hw
    refine exists_of_noted (t := busWrite s m 0x208 w) rfl (v := trigPulse (busTurn s m) n (f3 (busTurn s m).clk.time)) ?_ (fun r x y => ⟨?_, ?_, ?_⟩)
    · rw [busWrite_trigForce w halive hh, hw, maskList_two_pow hn]
      exact busNoted_busDone _ _
    · simp [State.trig, State.modTrig, trigPulse]
    · intro k hk
      simp [State.trig, State.modTrig, trigPulse, hk]
    · rw [← busTurn_pat s m]
      rfl

end Sys2Proof.Machine
end

section
/-! PROOFS. The cycles of the register bus (R53, R67, R71): whose write of a cycle remains, and what hardware does in it. -/

set_option Elab.async false

namespace Sys2Proof.Machine

variable {s t u v : State} {m : Master} {a : Nat} {w : Word}

/-- Every access ends with the master's cycle noted. -/
theorem lastAt_busDone (s : State) (m : Master) : (busDone s m).lastAt m = some (f3 (busDone s m).clk.time) := by
  cases m <;> rfl

/-! Two masters' writes of WDOG_PERIOD in one cycle. -/

/-- `t` is `s` but for WDOG_PERIOD. -/
def OnlyPeriod (s t : State) : Prop := ∃ n, t = { s with clk := { s.clk with wdogPeriod := n } }

theorem onlyPeriod_refl : OnlyPeriod s s := ⟨s.clk.wdogPeriod, rfl⟩

theorem onlyPeriod_writePlain {w mask : Word} {al : Bool} (h : OnlyPeriod s t) :
    OnlyPeriod s (writePlain t m 0x102 w mask al) := by
  obtain ⟨n, rfl⟩ := h
  exact ⟨_, rfl⟩

theorem onlyPeriod_foldl (l : List (Nat × Word × Word × Bool)) (h : OnlyPeriod s t) :
    OnlyPeriod s (l.foldl (fun s e => writePlain s .host 0x102 e.2.1 e.2.2.1 e.2.2.2) t) := by
  induction l generalizing t with
  | nil => exact h
  | cons e l ih => exact ih (onlyPeriod_writePlain h)

/-- The bits of a word in range are stored as they are. -/
theorem wdogPeriod_writePlain (s : State) (m : Master) {v : Word} (hv : v.toNat ∈ rangeFrom 10 1991) :
    (writePlain s m 0x102 v 0xFFFF false).clk.wdogPeriod = v.toNat := by
  rw [writePlain_wdogPeriod, mergeW_full]
  obtain ⟨i, hi, hv⟩ := List.mem_map.1 hv
  rw [List.mem_range] at hi
  change max 10 (min 2000 v.toNat) = v.toNat
  omega

/-- A host's write of WDOG_PERIOD, in its own cycle: the period, and the write noted. -/
theorem busWrite_wdogPeriod_host (v : Word) (halive : busAlive s = true) (hh : s.bus.halfHost = none) :
    busWrite s .host 0x102 v = busDone (noteHost (writePlain (busTurn s .host) .host 0x102 v 0xFFFF false) .host 0x102 v 0xFFFF false) .host :=
  busWrite_plain v (by decide) (by decide) (by decide) halive hh

/-- A shed's write of WDOG_PERIOD: the host's writes of the same cycle go on top. -/
theorem busWrite_wdogPeriod_shed (w : Word) (halive : busAlive s = true) (hh : s.bus.halfShed = none) :
    busWrite s .shed 0x102 w = busDone (((writePlain (busTurn s .shed) .shed 0x102 w 0xFFFF false).recent.writes.filter
      (fun e => decide (e.1 = 0x102))).foldl (fun s e => writePlain s .host 0x102 e.2.1 e.2.2.1 e.2.2.2)
        (writePlain (busTurn s .shed) .shed 0x102 w 0xFFFF false)) .shed :=
  busWrite_plain w (by decide) (by decide) (by decide) halive hh

/-- The host's write, then the shed's, in one cycle: the host's remains (R53). -/
theorem hostThenShed (v w : Word) (halive : busAlive s = true) (hh : s.bus.halfHost = none) (hs : s.bus.halfShed = none)
    (hlh : s.bus.lastHost = none) (hls : s.bus.lastShed = none) (hv : v.toNat ∈ rangeFrom 10 1991) :
    (busWrite (busWrite s .host 0x102 v) .shed 0x102 w).clk.time = s.clk.time ∧
      (busWrite (busWrite s .host 0x102 v) .shed 0x102 w).clk.wdogPeriod = v.toNat := by
  have hturn : busTurn s .host = s := busTurn_of_ne (by simp [State.lastAt, hlh])
  have hhost := busWrite_wdogPeriod_host v halive hh
  rw [hturn] at hhost
  generalize ht : busWrite s .host 0x102 v = t at hhost ⊢
  have hnote := noteHost_recent (writePlain s .host 0x102 v 0xFFFF false) 0x102 v 0xFFFF false
  have htw : t.recent.writes = (writePlain s .host 0x102 v 0xFFFF false).recent.writes ++ [(0x102, v, 0xFFFF, false)] := by
    have hsame : t.recent = (noteHost (writePlain s .host 0x102 v 0xFFFF false) .host 0x102 v 0xFFFF false).recent := by
      rw [hhost]; exact recent_congr rfl rfl
    rw [hsame, hnote]
  have htime : t.clk.time = s.clk.time := by rw [hhost]; rfl
  have htalive : busAlive t = true := by rw [hhost]; exact halive
  have hths : t.bus.halfShed = none := by rw [hhost]; exact hs
  have htls : t.bus.lastShed = none := by rw [hhost]; exact hls
  have hturn' : busTurn t .shed = t := busTurn_of_ne (by simp [State.lastAt, htls])
  have hshed := busWrite_wdogPeriod_shed w htalive hths
  have hrec : (writePlain t .shed 0x102 w 0xFFFF false).recent.writes = t.recent.writes :=
    congrArg Recent.writes (recent_congr rfl rfl)
  rw [hturn', hrec, htw, List.filter_append, List.foldl_append] at hshed
  obtain ⟨n, hn⟩ := onlyPeriod_foldl ((writePlain s .host 0x102 v 0xFFFF false).recent.writes.filter (fun e => decide (e.1 = 0x102)))
    (onlyPeriod_writePlain (m := .shed) (w := w) (mask := 0xFFFF) (al := false) (onlyPeriod_refl (s := t)))
  rw [hshed, hn]
  refine ⟨htime, ?_⟩
  exact wdogPeriod_writePlain { t with clk := { t.clk with wdogPeriod := n } } .host hv

/-- The shed's write, then the host's, in one cycle: the host's remains (R53). -/
theorem shedThenHost (v w : Word) (halive : busAlive s = true) (hh : s.bus.halfHost = none) (hs : s.bus.halfShed = none)
    (hlh : s.bus.lastHost = none) (hls : s.bus.lastShed = none) (hv : v.toNat ∈ rangeFrom 10 1991) :
    (busWrite (busWrite s .shed 0x102 w) .host 0x102 v).clk.time = s.clk.time ∧
      (busWrite (busWrite s .shed 0x102 w) .host 0x102 v).clk.wdogPeriod = v.toNat := by
  have hturn : busTurn s .shed = s := busTurn_of_ne (by simp [State.lastAt, hls])
  have hshed := busWrite_wdogPeriod_shed w halive hs
  rw [hturn] at hshed
  obtain ⟨n, hn⟩ := onlyPeriod_foldl ((writePlain s .shed 0x102 w 0xFFFF false).recent.writes.filter (fun e => decide (e.1 = 0x102)))
    (onlyPeriod_writePlain (m := .shed) (w := w) (mask := 0xFFFF) (al := false) (onlyPeriod_refl (s := s)))
  rw [hn] at hshed
  generalize busWrite s .shed 0x102 w = t at hshed ⊢
  have htalive : busAlive t = true := by rw [hshed]; exact halive
  have hthh : t.bus.halfHost = none := by rw [hshed]; exact hh
  have htlh : t.bus.lastHost = none := by rw [hshed]; exact hlh
  have hturn' : busTurn t .host = t := busTurn_of_ne (by simp [State.lastAt, htlh])
  rw [busWrite_wdogPeriod_host v htalive hthh, hturn']
  refine ⟨?_, wdogPeriod_writePlain t .host hv⟩
  rw [hshed]
  rfl

/-! STICKY and EVENTS of a fault block. -/

/-- The first word of STICKY clears the bits written with 1 that hardware has not set in this cycle (R71). -/
theorem writeFault_sticky (s : State) (k : Nat) (w : Word) (al : Bool) : writeFault s k 8 w 0xFFFF al =
    s.modFblk k (fun b => { b with sticky := b.sticky &&& ~~~(BitVec.ofNat 64 (w &&& ~~~(s.setNow (0x1008 + 0x40 * k))).toNat) }) := by
  have ha : 0x1000 + 0x40 * k + 8 = 0x1008 + 0x40 * k := by omega
  simp only [writeFault, clearBits_full, ha]
  rfl

theorem getLsbD_clear (x : BitVec 64) (c : Word) (i : Nat) (hi : i < 64) :
    (x &&& ~~~(BitVec.ofNat 64 c.toNat)).getLsbD i = (x.getLsbD i && !c.getLsbD i) := by
  simp [hi]

/-- The low word of EVENTS written alone replaces it (R67); with no event in the cycle nothing is added. -/
theorem writeFault_eventsLow (s : State) (k : Nat) (w : Word) (h : s.recent.adds = []) : writeFault s k 12 w 0xFFFF false =
    (s.noteBase (eventsAt k) ((s.fblk k).events / 65536 * 65536 + w.toNat)).modFblk k
      (fun b => { b with events := min (2 ^ 32 - 1) ((s.fblk k).events / 65536 * 65536 + w.toNat) }) := by
  have hbase : s.beforeEvents (eventsAt k) (s.fblk k).events = ((s.fblk k).events, 0) := by simp [State.beforeEvents, h]
  have hrow : writeFault s k 12 w 0xFFFF false = writeEvents s k false w := rfl
  rw [hrow, writeEvents, hbase]
  simp only [Bool.false_eq_true, if_false, satAdd, Nat.add_zero]
  rfl

theorem toNat_faultAddr {n : Nat} (k : Block) (h : n < 0x2000) : (BitVec.ofNat 24 (n + 0x40 * k.val)).toNat = n + 0x40 * k.val := by
  have := k.isLt
  rw [BitVec.toNat_ofNat]
  exact Nat.mod_eq_of_lt (by omega)

/-- Settles O60. -/
theorem busCycles : Obligations.BusCycles := by
  unfold Obligations.BusCycles
  refine ⟨?_, ?_, ?_, ?_, ?_, ?_⟩
  · intro s m
    refine ⟨busTurn_of_ne, fun hclk h => busTurn_of_eq ?_ h⟩
    simpa [clocksRun] using hclk
  · intro s t m a w halive h
    cases h
    rw [busWrite_of_alive w halive]
    exact lastAt_busDone _ _
  · intro s v w halive hh hs hlh hls hv
    exact ⟨_, _, rfl, rfl, hostThenShed v w halive hh hs hlh hls hv⟩
  · intro s v w halive hh hs hlh hls hv
    exact ⟨_, _, rfl, rfl, shedThenHost v w halive hh hs hlh hls hv⟩
  · intro s m k w halive hh hp
    have hk := k.isLt
    have ha : 0x1008 + 0x40 * k.val = 0x1000 + 0x40 * k.val + 8 := by omega
    have hrow : writePlain (busTurn s m) m (0x1008 + 0x40 * k.val) w 0xFFFF false = writeFault (busTurn s m) k.val 8 w 0xFFFF false := by
      rw [ha, writePlain_fault _ _ k (by decide)]
    rw [writeFault_sticky] at hrow
    refine exists_of_noted (t := busWrite s m (0x1008 + 0x40 * k.val) w) (congrArg (fun a => Host.Outcome.next (busWrite s m a w)) (toNat_faultAddr k (by decide)))
      (busWrite_noted (by omega) ((plainRegion_isSome _).2 (by omega)) (by rw [ha]; exact not_guarded_of_fault k (by decide)) halive hh hp ?_ ?_)
      (v := (busTurn s m).modFblk k.val (fun b => { b with sticky := b.sticky &&& ~~~(BitVec.ofNat 64 (w &&& ~~~((busTurn s m).setNow (0x1008 + 0x40 * k.val))).toNat) }))
      (fun r x y => ⟨?_, ?_, ?_⟩)
    · rw [hrow]
      exact congrArg Recent.writes (recent_congr rfl rfl)
    · rw [hrow]
      exact busNoted_refl
    · intro i hi
      have hblk : ∀ f, ((busTurn s m).modFblk k.val f).fblk k.val = f (s.fblk k.val) := fun f => by simp
      refine (congrArg (fun b => b.sticky.getLsbD i) (hblk _)).trans ?_
      rw [getLsbD_clear _ _ i hi]
      by_cases h16 : i < 16
      · simp [h16, Nat.not_le.2 h16]
      · simp [Nat.le_of_not_lt h16]
    · intro j hj
      simp [State.fblk, State.modFblk, hj]
    · rw [← busTurn_flt s m]
      rfl
  · intro s m k w halive hh hp hadds
    have hk := k.isLt
    have ha : 0x100C + 0x40 * k.val = 0x1000 + 0x40 * k.val + 12 := by omega
    have hrow : writePlain (busTurn s m) m (0x100C + 0x40 * k.val) w 0xFFFF false = writeFault (busTurn s m) k.val 12 w 0xFFFF false := by
      rw [ha, writePlain_fault _ _ k (by decide)]
    rw [writeFault_eventsLow _ _ _ hadds] at hrow
    refine exists_of_noted (t := busWrite s m (0x100C + 0x40 * k.val) w) (congrArg (fun a => Host.Outcome.next (busWrite s m a w)) (toNat_faultAddr k (by decide)))
      (busWrite_noted (by omega) ((plainRegion_isSome _).2 (by omega)) (by rw [ha]; exact not_guarded_of_fault k (by decide)) halive hh hp ?_ ?_)
      (v := (busTurn s m).modFblk k.val (fun b => { b with events := min (2 ^ 32 - 1) ((s.fblk k.val).events / 65536 * 65536 + w.toNat) }))
      (fun r x y => ⟨?_, ?_, ?_⟩)
    · rw [hrow]
      exact (congrArg Recent.writes (recent_congr (s := (busTurn s m).noteBase _ _) rfl rfl)).trans (by rw [noteBase_recent])
    · rw [hrow, busTurn_fblk]
      rfl
    · simp [State.fblk, State.modFblk]
    · intro j hj
      simp [State.fblk, State.modFblk, hj]
    · rw [← busTurn_flt s m]
      rfl

end Sys2Proof.Machine
end

section
/-! PROOFS. A reset disarms perturbation (R49), and the end of a RING_FULL window serves its ring (R530): an open loss that two
free units can close is then written to DRAM (R380), so a chip reset and a watchdog restart may write DRAM. -/

set_option Elab.async false

namespace Sys2Proof.Machine

/-- What the next state of an outcome shows under `f`. -/
def seen {α : Type} (f : State → α) (o : Host.Outcome State Fault Refusal) : Option α :=
  match o with
  | .next t => some (f t)
  | _ => none

theorem seen_next {α : Type} {f : State → α} {o : Host.Outcome State Fault Refusal} {t : State} (h : o = .next t) :
    seen f o = some (f t) := by
  rw [h]
  rfl

/-- Ring 3 has an open loss with room to close it while a RING_FULL window of entry 0 holds it, and the host has written
CHIP_RESET's value; the firmware runs. -/
def lossUnderRingFull : State :=
  { State.reset with
    clk := { State.reset.clk with phase := .ready, pllLocked := true, refPresent := true }
    bus := { State.reset.bus with halfHost := some ⟨0x110, 1, 0⟩ }
    harv := { State.reset.harv with ring := [(3, { state := .lossOpen, loss := some ⟨0, 0, 1, 0, 0, 0, 0⟩ })] }
    flt := { State.reset.flt with armed := true, entry := [(0, { kind := 4, target := 3, active := true })] } }

/-- The LOSS record of ring 3 is in DRAM after the chip reset. -/
theorem chipReset_writes_dram :
    seen (fun t => t.dramByte 0) (exec (.chipReset .host (~~~(1 : Word))) lossUnderRingFull) = some 0x0A := by
  decide +kernel

/-- The LOSS record of ring 3 is in DRAM after the watchdog restart. -/
theorem watchdogExpiry_writes_dram :
    seen (fun t => t.dramByte 0) (exec .watchdogExpiry lossUnderRingFull) = some 0x0A := by
  decide +kernel

theorem dram_lossUnderRingFull : lossUnderRingFull.dramByte 0 = 0 := rfl

/-- Refutes O12: a chip reset ends the RING_FULL window, whose ring then writes its LOSS record to DRAM. -/
theorem not_guardedPairs : ¬ Obligations.GuardedPairs := by
  unfold Obligations.GuardedPairs
  rintro ⟨-, -, -, hreset, -⟩
  obtain ⟨t, ht, -, -, -, -, -, -, -, hdram, -⟩ := hreset .host ⟨0x110, 1, 0⟩ lossUnderRingFull (by decide) rfl rfl
  have hbyte : t.dramByte 0 = lossUnderRingFull.dramByte 0 := congrArg (fun d => tget (fun _ => 0) d 0) hdram
  have hseen := (seen_next (f := fun t => t.dramByte 0) ht).symm.trans chipReset_writes_dram
  rw [hbyte, dram_lossUnderRingFull] at hseen
  exact absurd hseen (by decide)

/-- Refutes O9: a watchdog restart ends the RING_FULL window, whose ring then writes its LOSS record to DRAM. -/
theorem not_watchdogAndPowerEvents : ¬ Obligations.WatchdogAndPowerEvents := by
  unfold Obligations.WatchdogAndPowerEvents
  rintro ⟨hwdog, -⟩
  obtain ⟨t, ht, -, -, -, -, -, -, -, -, -, -, -, -, hdram, -⟩ := hwdog lossUnderRingFull 800000000 (by decide) rfl rfl (by decide) (by decide)
  have hbyte : t.dramByte 0 = lossUnderRingFull.dramByte 0 := congrArg (fun d => tget (fun _ => 0) d 0) hdram
  have hseen := (seen_next (f := fun t => t.dramByte 0) ht).symm.trans watchdogExpiry_writes_dram
  rw [hbyte, dram_lossUnderRingFull] at hseen
  exact absurd hseen (by decide)

end Sys2Proof.Machine
end

section
/-! PROOFS. What the engines' own work never touches (`Calm`): with every burst, run, record and bus frame that it ends, an
operation of this layer leaves the firmware's session, logs and rollback counter, the cloche registers and causes, the
perturbation entries, the addresses and the timing of the trellis, and the boot flash. One lemma per operation, in the order
of the model. -/

set_option Elab.async false
set_option linter.unusedVariables false
set_option linter.unusedTactic false
set_option linter.unreachableTactic false

namespace Sys2Proof.Machine

/-- The firmware but for the command in EXECUTING and the progress table. -/
def fwRest (f : Firmware) : Firmware := { f with current := none, progress := [] }

/-- Faults and cloche but for the fault blocks and the faults that wait for them. -/
def fltRest (f : Faults) : Faults := { f with block := [], waiting := [] }

/-- The trellis but for its ports and MTAG. -/
def linkRest (l : Trellis) : Trellis := { l with port := [], mtag := 0 }

/-- The parts of a state that `Calm` is about. -/
def calmParts (s : State) : Firmware × Faults × Trellis × Tab Byte := (fwRest s.fw, fltRest s.flt, linkRest s.link, s.ser.flash)

/-- `t` has the calm parts of `v`. -/
def Calm (v t : State) : Prop := calmParts t = calmParts v

variable {v s : State}

theorem calm_refl : Calm s s := rfl

theorem calm_trans {t : State} (h : Calm v s) (h' : Calm s t) : Calm v t := h'.trans h

/-- An update of other parts. -/
theorem calm_mk {a0 a1 a2 a3 a4 a5 a6 a7 a8 a9 a10 a11 a12 a13 a14 a15 a16} (hp : a0 = s.pending) (hfw : fwRest a5 = fwRest s.fw)
    (hlink : linkRest a12 = linkRest s.link) (hflash : a13.flash = s.ser.flash) (hflt : fltRest a16 = fltRest s.flt) (h : Calm v s) :
    Calm v (State.mk a0 a1 a2 a3 a4 a5 a6 a7 a8 a9 a10 a11 a12 a13 a14 a15 a16) := by
  unfold Calm calmParts at h ⊢
  rw [← h]
  simp only [hfw, hlink, hflash, hflt]

theorem calm_ite {c : Prop} [Decidable c] {a b : State} (h1 : c → Calm v a) (h2 : ¬c → Calm v b) : Calm v (if c then a else b) := by
  split
  · exact h1 ‹_›
  · exact h2 ‹_›

theorem calm_foldl {α} {f : State → α → State} {l : List α} (h : Calm v s) (hf : ∀ t a, Calm v t → Calm v (f t a)) : Calm v (l.foldl f s) := by
  induction l generalizing s with
  | nil => exact h
  | cons a r ih => exact ih (hf _ _ h)

/-- A state that comes with an answer. -/
def CalmFst {α : Type} (v : State) (q : State × α) : Prop := Calm v q.1

theorem calm_fst {α : Type} {q : State × α} {t : State} {x : α} (e : q = (t, x)) (h : CalmFst v q) : Calm v t := by subst e; exact h

theorem calm_of_fst {α : Type} {q : State × α} (h : CalmFst v q) : Calm v q.1 := h

theorem cfst_mk {α : Type} {x : α} (h : Calm v s) : CalmFst v (s, x) := h

theorem cfst_ite {α : Type} {c : Prop} [Decidable c] {a b : State × α} (h1 : c → CalmFst v a) (h2 : ¬c → CalmFst v b) : CalmFst v (if c then a else b) := by
  split
  · exact h1 ‹_›
  · exact h2 ‹_›

theorem cfst_foldl {α β : Type} {f : State × β → α → State × β} {l : List α} {q : State × β} (h : CalmFst v q) (hf : ∀ t a, Calm v t.1 → CalmFst v (f t a)) : CalmFst v (l.foldl f q) := by
  induction l generalizing q with
  | nil => exact h
  | cons a r ih => exact ih (hf _ _ h)

theorem cfoldl_fst {α β : Type} {f : State × β → α → State × β} {l : List α} {q : State × β} (h : CalmFst v q) (hf : ∀ t a, Calm v t.1 → CalmFst v (f t a)) : Calm v (l.foldl f q).1 := cfst_foldl h hf

theorem State.modMbx_calm {a2} {a3} (h : Calm v s) : Calm v (State.modMbx s a2 a3) := h

theorem State.modProg_calm {a2} {a3} (h : Calm v s) : Calm v (State.modProg s a2 a3) := h

theorem State.modFblk_calm {a2} {a3} (h : Calm v s) : Calm v (State.modFblk s a2 a3) := h

theorem State.modDacst_calm {a2} {a3} (h : Calm v s) : Calm v (State.modDacst s a2 a3) := h

theorem State.modPinck_calm {a2} {a3} (h : Calm v s) : Calm v (State.modPinck s a2 a3) := h

theorem State.modSlices_calm {a2} {a3} (h : Calm v s) : Calm v (State.modSlices s a2 a3) := h

theorem State.modSeq_calm {a2} {a3} (h : Calm v s) : Calm v (State.modSeq s a2 a3) := h

theorem State.modSegm_calm {a2} {a3} (h : Calm v s) : Calm v (State.modSegm s a2 a3) := h

theorem State.modTrig_calm {a2} {a3} (h : Calm v s) : Calm v (State.modTrig s a2 a3) := h

theorem State.modLoop_calm {a2} {a3} (h : Calm v s) : Calm v (State.modLoop s a2 a3) := h

theorem State.modAvg_calm {a2} {a3} (h : Calm v s) : Calm v (State.modAvg s a2 a3) := h

theorem State.modWmon_calm {a2} {a3} (h : Calm v s) : Calm v (State.modWmon s a2 a3) := h

theorem State.modTiu_calm {a2} {a3} (h : Calm v s) : Calm v (State.modTiu s a2 a3) := h

theorem State.modStager_calm {a2} {a3} (h : Calm v s) : Calm v (State.modStager s a2 a3) := h

theorem State.modRing_calm {a2} {a3} (h : Calm v s) : Calm v (State.modRing s a2 a3) := h

theorem State.modPort_calm {a2} {a3} (h : Calm v s) : Calm v (State.modPort s a2 a3) := h

theorem State.modStage_calm {a2} {a3} (h : Calm v s) : Calm v (State.modStage s a2 a3) := h

theorem State.modCharge_calm {a2} {a3} (h : Calm v s) : Calm v (State.modCharge s a2 a3) := h

theorem State.takeFree_calm (h : Calm v s) : Calm v (State.takeFree s) := by
  unfold State.takeFree
  repeat' (first | with_reducible assumption | intro _ | (fail_if_no_progress with_reducible (apply calm_mk; rfl; rfl; rfl; rfl; rfl)))

theorem State.live_calm {a2} {a3} {a4} (h : Calm v s) : Calm v (State.live s a2 a3 a4) := by
  unfold State.live
  repeat' (first | with_reducible assumption | intro _ | with_reducible apply calm_ite | with_reducible apply State.modFblk_calm | dsimp only)

theorem State.raise_calm {a2} {a3} {a4} {a5} (h : Calm v s) : Calm v (State.raise s a2 a3 a4 a5) := by
  unfold State.raise
  dsimp only
  split <;> exact h

theorem State.modCls_calm {a2} {a3} {a4} (h : Calm v s) : Calm v (State.modCls s a2 a3 a4) := h

theorem enqueueFrom_calm {a1} {a3} {a4} {a5} (h : Calm v s) : Calm v (enqueueFrom a1 s a3 a4 a5) := by
  unfold enqueueFrom
  repeat' (first | with_reducible assumption | intro _ | with_reducible apply calm_ite | with_reducible apply State.raise_calm | with_reducible apply State.modCls_calm | dsimp only)

theorem enqueue_calm {a2} {a3} {a4} (h : Calm v s) : Calm v (enqueue s a2 a3 a4) := by
  unfold enqueue
  repeat' (first | with_reducible assumption | intro _ | with_reducible apply enqueueFrom_calm)

theorem sendRoot_calm {a2} {a3} {a4} (h : Calm v s) : Calm v (sendRoot s a2 a3 a4) := enqueue_calm h

theorem sendEvent_calm {a2} {a3} (h : Calm v s) : Calm v (sendEvent s a2 a3) := by
  unfold sendEvent
  repeat' (first | with_reducible assumption | intro _ | with_reducible apply sendRoot_calm)

theorem handOver_calm {a2} (h : Calm v s) : Calm v (handOver s a2) := by
  unfold handOver
  repeat' (first | with_reducible assumption | intro _ | with_reducible apply State.modStager_calm | dsimp only)

theorem stageRoom_calm {a2} {a3} (h : Calm v s) : ∀ t, stageRoom s a2 a3 = some t → Calm v t := by
  intro t e
  unfold stageRoom at e
  (try dsimp only at e)
  repeat' (split at e)
  all_goals (first | cases e | skip)
  all_goals (try cases e)
  all_goals (repeat' (first | with_reducible assumption | intro _ | with_reducible apply calm_ite | with_reducible apply handOver_calm | dsimp only))

theorem placeIn_calm {a2} {a3} {a4} {a5} {a6} (h : Calm v s) : Calm v (placeIn s a2 a3 a4 a5 a6) := by
  unfold placeIn
  repeat' (first | with_reducible assumption | intro _ | with_reducible apply calm_ite | with_reducible apply State.modStager_calm | with_reducible apply State.modRing_calm | dsimp only)

theorem sendNotify_calm {a2} (h : Calm v s) : Calm v (sendNotify s a2) := by
  unfold sendNotify
  repeat' (first | with_reducible assumption | intro _ | with_reducible apply sendRoot_calm | with_reducible apply State.modRing_calm | split | dsimp only)

theorem notifyUnitsCheck_calm {a2} (h : Calm v s) : Calm v (notifyUnitsCheck s a2) := by
  unfold notifyUnitsCheck
  repeat' (first | with_reducible assumption | intro _ | with_reducible apply calm_ite | with_reducible apply sendNotify_calm | dsimp only)

theorem advanceRing_calm {a2} (h : Calm v s) : Calm v (advanceRing s a2) := by
  unfold advanceRing
  repeat' (first | with_reducible assumption | intro _ | with_reducible apply calm_ite | with_reducible apply State.modRing_calm | with_reducible apply notifyUnitsCheck_calm | split | with_reducible apply cfst_mk | with_reducible refine calm_fst (by with_reducible assumption) ?_ | dsimp only)

theorem ringWrite_calm {a2} {a3} {a4} (h : Calm v s) : Calm v (ringWrite s a2 a3 a4) := h

theorem markWritten_calm {a2} {a3} (h : Calm v s) : Calm v (markWritten s a2 a3) := by
  unfold markWritten
  repeat' (first | with_reducible assumption | intro _ | with_reducible apply calm_ite | with_reducible apply State.modRing_calm | with_reducible apply advanceRing_calm | dsimp only)

theorem dropRecord_calm {a2} {a3} (h : Calm v s) : Calm v (dropRecord s a2 a3) := by
  unfold dropRecord
  repeat' (first | with_reducible assumption | intro _ | with_reducible apply State.modRing_calm | split | dsimp only)

theorem closeLoss_calm {a2} (h : Calm v s) : Calm v (closeLoss s a2) := by
  unfold closeLoss
  repeat' (first | with_reducible assumption | intro _ | with_reducible apply calm_ite | with_reducible apply ringWrite_calm | with_reducible apply State.modRing_calm | with_reducible apply markWritten_calm | split | dsimp only)

theorem takeCredit_calm {a2} {a3} (h : Calm v s) : Calm v (takeCredit s a2 a3) := by
  unfold takeCredit
  repeat' (first | with_reducible assumption | intro _ | with_reducible apply State.modRing_calm | dsimp only)

theorem reserve_calm {a2} {a3} (h : Calm v s) : ∀ t, reserve s a2 a3 = some t → Calm v t := by
  intro t e
  unfold reserve at e
  (try dsimp only at e)
  repeat' (split at e)
  all_goals (first | cases e | skip)
  all_goals (try cases e)
  all_goals (repeat' (first | with_reducible assumption | intro _ | with_reducible apply calm_ite | with_reducible apply takeCredit_calm))

theorem joinWaiters_calm {a2} {a3} {a4} (h : Calm v s) : Calm v (joinWaiters s a2 a3 a4) := by
  unfold joinWaiters
  repeat' (first | with_reducible assumption | intro _ | with_reducible apply calm_ite | with_reducible apply State.modRing_calm | dsimp only)

theorem leaveWaiters_calm {a2} {a3} (h : Calm v s) : Calm v (leaveWaiters s a2 a3) := by
  unfold leaveWaiters
  repeat' (first | with_reducible assumption | intro _ | with_reducible apply State.modRing_calm | dsimp only)

theorem modMeasRun_calm {a2} {a3} (h : Calm v s) : Calm v (modMeasRun s a2 a3) := by
  unfold modMeasRun
  repeat' (first | with_reducible assumption | intro _ | with_reducible apply State.modAvg_calm | dsimp only)

theorem modLockRun_calm {a2} {a3} (h : Calm v s) : Calm v (modLockRun s a2 a3) := by
  unfold modLockRun
  repeat' (first | with_reducible assumption | intro _ | with_reducible apply State.modAvg_calm | dsimp only)

theorem modTimRun_calm {a2} {a3} (h : Calm v s) : Calm v (modTimRun s a2 a3) := by
  unfold modTimRun
  repeat' (first | with_reducible assumption | intro _ | with_reducible apply State.modTiu_calm | dsimp only)

theorem modSweep_calm {a2} {a3} (h : Calm v s) : Calm v (modSweep s a2 a3) := by
  unfold modSweep
  repeat' (first | with_reducible assumption | intro _ | with_reducible apply State.modLoop_calm | split | dsimp only)

theorem grantCredit_calm {a2} {a3} {a4} (h : Calm v s) : Calm v (grantCredit s a2 a3 a4) := by
  unfold grantCredit
  repeat' (first | with_reducible assumption | intro _ | with_reducible apply calm_foldl | with_reducible apply State.modSeq_calm | with_reducible apply modSweep_calm | with_reducible apply modMeasRun_calm | with_reducible apply modLockRun_calm | with_reducible apply modTimRun_calm | (fail_if_no_progress with_reducible (apply calm_mk; rfl; rfl; rfl; rfl; rfl)) | split | dsimp only)

theorem serveWaiters_calm {a2} {a3} (h : Calm v s) : Calm v (serveWaiters s a2 a3) := by
  induction a3 generalizing s with
  | nil => unfold serveWaiters; exact h
  | cons x q ih =>
    unfold serveWaiters
    repeat' (first | with_reducible apply ih | with_reducible refine calm_of_fst (ih ?_) | with_reducible assumption | intro _ | with_reducible apply calm_ite | with_reducible apply grantCredit_calm | with_reducible apply leaveWaiters_calm | with_reducible apply takeCredit_calm | split | dsimp only)

theorem finalProgress_calm {a2} (h : Calm v s) : Calm v (finalProgress s a2) := by
  unfold finalProgress
  repeat' (first | with_reducible assumption | intro _ | with_reducible apply calm_ite | with_reducible apply State.modProg_calm | dsimp only)

theorem placeCompletion_calm {a2} (h : Calm v s) : ∀ t, placeCompletion s a2 = some t → Calm v t := by
  intro t e
  unfold placeCompletion at e
  (try dsimp only at e)
  repeat' (split at e)
  all_goals (first | cases e | skip)
  all_goals (try cases e)
  all_goals (repeat' (first | with_reducible assumption | intro _ | with_reducible apply calm_ite | with_reducible refine stageRoom_calm ?_ _ (by with_reducible assumption) | with_reducible apply State.modRing_calm | with_reducible apply placeIn_calm | with_reducible apply finalProgress_calm | (fail_if_no_progress with_reducible (apply calm_mk; rfl; rfl; rfl; rfl; rfl)) | split | dsimp only))

theorem endWork_calm {a2} (h : Calm v s) : Calm v (endWork s a2) := by
  unfold endWork
  repeat' (first | with_reducible assumption | intro _ | with_reducible apply calm_ite | with_reducible refine placeCompletion_calm ?_ _ (by with_reducible assumption) | with_reducible apply State.raise_calm | with_reducible apply finalProgress_calm | with_reducible apply dropRecord_calm | with_reducible apply leaveWaiters_calm | (fail_if_no_progress with_reducible (apply calm_mk; rfl; rfl; rfl; rfl; rfl)) | split | dsimp only)

theorem retryEnds_calm {a2} (h : Calm v s) : Calm v (retryEnds s a2) := by
  induction a2 generalizing s with
  | nil => unfold retryEnds; exact h
  | cons x q ih =>
    unfold retryEnds
    repeat' (first | with_reducible apply ih | with_reducible refine calm_of_fst (ih ?_) | with_reducible assumption | intro _ | with_reducible apply calm_ite | with_reducible refine placeCompletion_calm ?_ _ (by with_reducible assumption) | with_reducible apply finalProgress_calm | with_reducible apply dropRecord_calm | with_reducible apply leaveWaiters_calm | (fail_if_no_progress with_reducible (apply calm_mk; rfl; rfl; rfl; rfl; rfl)) | split | dsimp only)

theorem serviceRing_calm {a2} (h : Calm v s) : Calm v (serviceRing s a2) := by
  unfold serviceRing
  repeat' (first | with_reducible assumption | intro _ | with_reducible apply closeLoss_calm | with_reducible apply serveWaiters_calm | with_reducible apply retryEnds_calm | dsimp only)

theorem returnCredit_calm {a2} {a3} (h : Calm v s) : Calm v (returnCredit s a2 a3) := by
  unfold returnCredit
  repeat' (first | with_reducible assumption | intro _ | with_reducible apply serviceRing_calm | with_reducible apply State.modRing_calm | dsimp only)

theorem emitRecord_calm {a2} {a3} {a4} {a5} {a6} {a7} {a8} {a9} {a10} (h : Calm v s) : CalmFst v (emitRecord s a2 a3 a4 a5 a6 a7 a8 a9 a10) := by
  unfold emitRecord
  repeat' (first | with_reducible assumption | intro _ | with_reducible apply calm_ite | with_reducible apply cfst_ite | with_reducible refine reserve_calm ?_ _ (by with_reducible assumption) | with_reducible apply dropRecord_calm | with_reducible refine stageRoom_calm ?_ _ (by with_reducible assumption) | with_reducible apply State.raise_calm | with_reducible apply State.modRing_calm | with_reducible apply placeIn_calm | split | with_reducible apply cfst_mk | with_reducible refine calm_fst (by with_reducible assumption) ?_ | dsimp only)

theorem placeReserved_calm {a2} {a3} {a4} {a5} {a6} {a7} {a8} {a9} {a10} (h : Calm v s) : CalmFst v (placeReserved s a2 a3 a4 a5 a6 a7 a8 a9 a10) := by
  unfold placeReserved
  repeat' (first | with_reducible assumption | intro _ | with_reducible apply calm_ite | with_reducible apply cfst_ite | with_reducible refine stageRoom_calm ?_ _ (by with_reducible assumption) | with_reducible apply returnCredit_calm | with_reducible apply State.raise_calm | with_reducible apply dropRecord_calm | with_reducible apply State.modRing_calm | with_reducible apply placeIn_calm | with_reducible apply serviceRing_calm | split | with_reducible apply cfst_mk | with_reducible refine calm_fst (by with_reducible assumption) ?_ | dsimp only)

theorem placeHeld_calm {a2} {a3} {a4} {a5} {a6} {a7} {a8} {a9} {a10} (h : Calm v s) : CalmFst v (placeHeld s a2 a3 a4 a5 a6 a7 a8 a9 a10) := by
  unfold placeHeld
  repeat' (first | with_reducible assumption | intro _ | with_reducible apply calm_ite | with_reducible apply cfst_ite | with_reducible refine stageRoom_calm ?_ _ (by with_reducible assumption) | with_reducible apply State.raise_calm | with_reducible apply State.modRing_calm | with_reducible apply placeIn_calm | with_reducible apply serviceRing_calm | split | with_reducible apply cfst_mk | with_reducible refine calm_fst (by with_reducible assumption) ?_ | dsimp only)

theorem placeLast_calm {a2} {a3} {a4} {a5} {a6} {a7} {a8} {a9} {a10} (h : Calm v s) : Calm v (placeLast s a2 a3 a4 a5 a6 a7 a8 a9 a10) := by
  unfold placeLast
  repeat' (first | with_reducible assumption | intro _ | with_reducible apply calm_ite | with_reducible apply cfst_ite | with_reducible apply placeHeld_calm | with_reducible refine calm_of_fst (placeHeld_calm ?_) | with_reducible refine calm_fst (by with_reducible assumption) (placeHeld_calm ?_) | (fail_if_no_progress with_reducible (apply calm_mk; rfl; rfl; rfl; rfl; rfl)) | split | with_reducible apply cfst_mk | with_reducible refine calm_fst (by with_reducible assumption) ?_ | dsimp only)

theorem askCredit_calm {a2} {a3} {a4} (h : Calm v s) : CalmFst v (askCredit s a2 a3 a4) := by
  unfold askCredit
  repeat' (first | with_reducible assumption | intro _ | with_reducible apply calm_ite | with_reducible apply cfst_ite | with_reducible refine reserve_calm ?_ _ (by with_reducible assumption) | with_reducible apply dropRecord_calm | with_reducible apply joinWaiters_calm | split | with_reducible apply cfst_mk | with_reducible refine calm_fst (by with_reducible assumption) ?_ | dsimp only)

theorem enterDone_calm {a2} {a3} (h : Calm v s) : Calm v (enterDone s a2 a3) := by
  unfold enterDone
  repeat' (first | with_reducible assumption | intro _ | with_reducible apply calm_ite | with_reducible apply State.modMbx_calm | with_reducible apply sendEvent_calm | dsimp only)

theorem holdResponse_calm {a2} (h : Calm v s) : Calm v (holdResponse s a2) := by
  unfold holdResponse
  repeat' (first | with_reducible assumption | intro _ | with_reducible apply State.modMbx_calm | dsimp only)

theorem postResponse_calm {a2} {a3} {a4} (h : Calm v s) : Calm v (postResponse s a2 a3 a4) := by
  have hs : Calm v { s with fw := { s.fw with current := none } } := h
  unfold postResponse
  split
  · exact h
  · dsimp only
    split
    · exact holdResponse_calm (State.modMbx_calm hs)
    · exact enterDone_calm (State.modMbx_calm hs)

theorem postOk_calm {a2} (h : Calm v s) : Calm v (postOk s a2) := by
  unfold postOk
  repeat' (first | with_reducible assumption | intro _ | with_reducible apply postResponse_calm)

theorem postBad_calm {a2} (h : Calm v s) : Calm v (postBad s a2) := by
  unfold postBad
  repeat' (first | with_reducible assumption | intro _ | with_reducible apply postResponse_calm)

theorem answerAbort_calm {a2} (h : Calm v s) : Calm v (answerAbort s a2) := by
  unfold answerAbort
  repeat' (first | with_reducible assumption | intro _ | with_reducible apply calm_ite | with_reducible apply postOk_calm)

theorem shutWindows_calm {a2} {a3} (h : Calm v s) : Calm v (shutWindows s a2 a3) := by
  unfold shutWindows
  repeat' (first | with_reducible assumption | intro _ | with_reducible apply calm_ite | with_reducible apply State.modPinck_calm | dsimp only)

theorem leaveClock_calm {a2} {a3} (h : Calm v s) : Calm v (leaveClock s a2 a3) := by
  unfold leaveClock
  repeat' (first | with_reducible assumption | intro _ | with_reducible apply calm_ite | with_reducible apply shutWindows_calm)

theorem settlePin_calm {a2} {a3} (h : Calm v s) : Calm v (settlePin s a2 a3) := by
  unfold settlePin
  repeat' (first | with_reducible assumption | intro _ | with_reducible apply calm_ite | with_reducible apply leaveClock_calm | with_reducible apply State.modSlices_calm | dsimp only)

theorem setDriver_calm {a2} {a3} (h : Calm v s) : Calm v (setDriver s a2 a3) := by
  unfold setDriver
  repeat' (first | with_reducible assumption | intro _ | with_reducible apply State.modSlices_calm | dsimp only)

theorem clocheDrivers_calm {a2} (h : Calm v s) : Calm v (clocheDrivers s a2) := by
  unfold clocheDrivers
  repeat' (first | with_reducible assumption | intro _ | with_reducible apply calm_foldl | with_reducible apply setDriver_calm | dsimp only)

theorem trigPulse_calm {a2} {a3} (h : Calm v s) : Calm v (trigPulse s a2 a3) := by
  unfold trigPulse
  repeat' (first | with_reducible assumption | intro _ | with_reducible apply State.modTrig_calm | dsimp only)

theorem trigEvent_calm {a2} {a3} {a4} (h : Calm v s) : Calm v (trigEvent s a2 a3 a4) := by
  unfold trigEvent
  repeat' (first | with_reducible assumption | intro _ | with_reducible apply calm_ite | with_reducible apply calm_foldl | with_reducible apply trigPulse_calm | dsimp only)

theorem dropFrame_calm {a2} (h : Calm v s) : Calm v (dropFrame s a2) := by
  unfold dropFrame
  repeat' (first | with_reducible assumption | intro _ | with_reducible apply calm_foldl | with_reducible apply State.modSegm_calm | dsimp only)

theorem clearStacks_calm {a2} (h : Calm v s) : Calm v (clearStacks s a2) := by
  unfold clearStacks
  repeat' (first | with_reducible assumption | intro _ | with_reducible apply calm_foldl | with_reducible apply dropFrame_calm | with_reducible apply State.modSeq_calm | dsimp only)

theorem leaveFirst_calm {a2} (h : Calm v s) : Calm v (leaveFirst s a2) := by
  unfold leaveFirst
  repeat' (first | with_reducible assumption | intro _ | with_reducible apply calm_ite | with_reducible apply State.modSeq_calm | with_reducible apply State.modSegm_calm | split | dsimp only)

theorem endBurst_calm {a2} {a3} (h : Calm v s) : Calm v (endBurst s a2 a3) := by
  unfold endBurst
  repeat' (first | with_reducible assumption | intro _ | with_reducible apply calm_ite | with_reducible apply calm_foldl | with_reducible apply settlePin_calm | with_reducible apply leaveFirst_calm | with_reducible apply clearStacks_calm | with_reducible apply State.modSeq_calm | with_reducible apply answerAbort_calm | with_reducible apply State.live_calm | with_reducible apply trigEvent_calm | dsimp only)

theorem settleBurst_calm {a2} (h : Calm v s) : Calm v (settleBurst s a2) := by
  unfold settleBurst
  repeat' (first | with_reducible assumption | intro _ | with_reducible apply calm_ite | with_reducible apply cfst_ite | with_reducible apply placeHeld_calm | with_reducible refine calm_of_fst (placeHeld_calm ?_) | with_reducible refine calm_fst (by with_reducible assumption) (placeHeld_calm ?_) | with_reducible apply State.modSeq_calm | with_reducible apply dropRecord_calm | with_reducible apply leaveWaiters_calm | with_reducible apply endWork_calm | with_reducible apply State.modProg_calm | split | with_reducible apply cfst_mk | with_reducible refine calm_fst (by with_reducible assumption) ?_ | dsimp only)

theorem latchStop_calm {a2} {a3} {a4} (h : Calm v s) : Calm v (latchStop s a2 a3 a4) := by
  unfold latchStop
  repeat' (first | with_reducible assumption | intro _ | with_reducible apply calm_ite | with_reducible apply settleBurst_calm | with_reducible apply endBurst_calm | with_reducible apply State.modSeq_calm | split | dsimp only)

theorem endMeasRun_calm {a2} {a3} (h : Calm v s) : Calm v (endMeasRun s a2 a3) := by
  unfold endMeasRun
  repeat' (first | with_reducible assumption | intro _ | with_reducible apply calm_ite | with_reducible apply State.modAvg_calm | with_reducible apply leaveWaiters_calm | with_reducible apply returnCredit_calm | with_reducible apply endWork_calm | split | dsimp only)

theorem endMeasWindow_calm {a2} {a3} (h : Calm v s) : Calm v (endMeasWindow s a2 a3) := by
  unfold endMeasWindow
  repeat' (first | with_reducible assumption | intro _ | with_reducible apply calm_ite | with_reducible apply cfst_ite | with_reducible apply modMeasRun_calm | with_reducible apply placeLast_calm | with_reducible apply placeHeld_calm | with_reducible refine calm_of_fst (placeHeld_calm ?_) | with_reducible refine calm_fst (by with_reducible assumption) (placeHeld_calm ?_) | with_reducible apply State.modProg_calm | with_reducible apply endMeasRun_calm | split | with_reducible apply cfst_mk | with_reducible refine calm_fst (by with_reducible assumption) ?_ | dsimp only)

theorem askUnits_calm {a2} (h : Calm v s) : Calm v (askUnits s a2) := by
  unfold askUnits
  repeat' (first | with_reducible assumption | intro _ | with_reducible apply calm_ite | with_reducible apply cfst_ite | with_reducible apply modMeasRun_calm | with_reducible apply returnCredit_calm | with_reducible apply askCredit_calm | with_reducible refine calm_of_fst (askCredit_calm ?_) | with_reducible refine calm_fst (by with_reducible assumption) (askCredit_calm ?_) | split | with_reducible apply cfst_mk | with_reducible refine calm_fst (by with_reducible assumption) ?_ | dsimp only)

theorem askWindow_calm {a2} {a3} (h : Calm v s) : CalmFst v (askWindow s a2 a3) := by
  unfold askWindow
  repeat' (first | with_reducible assumption | intro _ | with_reducible apply calm_ite | with_reducible apply calm_foldl | with_reducible apply cfst_ite | with_reducible apply cfst_foldl | with_reducible apply cfoldl_fst | with_reducible apply askUnits_calm | with_reducible apply cfst_mk | dsimp only)

theorem feedAverage_calm {a2} {a3} (h : Calm v s) : Calm v (feedAverage s a2 a3) := by
  unfold feedAverage
  repeat' (first | with_reducible assumption | intro _ | with_reducible apply calm_ite | with_reducible apply cfst_ite | with_reducible apply endMeasWindow_calm | with_reducible apply modMeasRun_calm | with_reducible apply endMeasRun_calm | with_reducible apply askWindow_calm | with_reducible refine calm_of_fst (askWindow_calm ?_) | with_reducible refine calm_fst (by with_reducible assumption) (askWindow_calm ?_) | split | with_reducible apply cfst_mk | with_reducible refine calm_fst (by with_reducible assumption) ?_ | dsimp only)

theorem closeRaw_calm {a2} {a3} (h : Calm v s) : Calm v (closeRaw s a2 a3) := by
  unfold closeRaw
  repeat' (first | with_reducible assumption | intro _ | with_reducible apply calm_ite | with_reducible apply cfst_ite | with_reducible apply modMeasRun_calm | with_reducible apply placeHeld_calm | with_reducible refine calm_of_fst (placeHeld_calm ?_) | with_reducible refine calm_fst (by with_reducible assumption) (placeHeld_calm ?_) | with_reducible apply State.modProg_calm | with_reducible apply endMeasRun_calm | with_reducible apply returnCredit_calm | with_reducible apply dropRecord_calm | split | with_reducible apply cfst_mk | with_reducible refine calm_fst (by with_reducible assumption) ?_ | dsimp only)

theorem feedRawChannel_calm {a2} {a3} {a4} (h : Calm v s) : Calm v (feedRawChannel s a2 a3 a4) := by
  unfold feedRawChannel
  repeat' (first | with_reducible assumption | intro _ | with_reducible apply calm_ite | with_reducible apply cfst_ite | with_reducible apply closeRaw_calm | with_reducible apply modMeasRun_calm | with_reducible refine reserve_calm ?_ _ (by with_reducible assumption) | with_reducible apply dropRecord_calm | split | with_reducible apply cfst_mk | with_reducible refine calm_fst (by with_reducible assumption) ?_ | dsimp only)

theorem feedRaw_calm {a2} {a3} {a4} (h : Calm v s) : Calm v (feedRaw s a2 a3 a4) := by
  unfold feedRaw
  repeat' (first | with_reducible assumption | intro _ | with_reducible apply calm_ite | with_reducible apply modMeasRun_calm | with_reducible apply feedRawChannel_calm | dsimp only)

theorem feedMeas_calm {a2} {a3} (h : Calm v s) : Calm v (feedMeas s a2 a3) := by
  unfold feedMeas
  repeat' (first | with_reducible assumption | intro _ | with_reducible apply calm_ite | with_reducible apply feedRaw_calm | with_reducible apply feedAverage_calm | split | dsimp only)

theorem endLockRun_calm {a2} {a3} {a4} (h : Calm v s) : Calm v (endLockRun s a2 a3 a4) := by
  unfold endLockRun
  repeat' (first | with_reducible assumption | intro _ | with_reducible apply calm_ite | with_reducible apply State.modAvg_calm | with_reducible apply leaveWaiters_calm | with_reducible apply returnCredit_calm | with_reducible apply endWork_calm | split | dsimp only)

theorem putLast_calm {a2} {a3} {a4} {a5} {a6} (h : Calm v s) : Calm v (putLast s a2 a3 a4 a5 a6) := by
  unfold putLast
  repeat' (first | with_reducible assumption | intro _ | with_reducible apply calm_ite | with_reducible apply placeLast_calm | split | with_reducible apply cfst_mk | with_reducible refine calm_fst (by with_reducible assumption) ?_ | dsimp only)

theorem endLockWindow_calm {a2} (h : Calm v s) : Calm v (endLockWindow s a2) := by
  unfold endLockWindow
  repeat' (first | with_reducible assumption | intro _ | with_reducible apply calm_ite | with_reducible apply cfst_ite | with_reducible apply placeHeld_calm | with_reducible refine calm_of_fst (placeHeld_calm ?_) | with_reducible refine calm_fst (by with_reducible assumption) (placeHeld_calm ?_) | with_reducible apply modLockRun_calm | with_reducible apply State.modProg_calm | with_reducible apply endLockRun_calm | split | with_reducible apply cfst_mk | with_reducible refine calm_fst (by with_reducible assumption) ?_ | dsimp only)

theorem startLockWindow_calm {a2} {a3} {a4} {a5} (h : Calm v s) : Calm v (startLockWindow s a2 a3 a4 a5) := by
  unfold startLockWindow
  repeat' (first | with_reducible assumption | intro _ | with_reducible apply calm_ite | with_reducible apply calm_foldl | with_reducible apply cfst_ite | with_reducible apply cfst_foldl | with_reducible apply cfoldl_fst | with_reducible apply askCredit_calm | with_reducible refine calm_of_fst (askCredit_calm ?_) | with_reducible refine calm_fst (by with_reducible assumption) (askCredit_calm ?_) | with_reducible apply modLockRun_calm | split | with_reducible apply cfst_mk | with_reducible refine calm_fst (by with_reducible assumption) ?_ | dsimp only)

theorem closeLock_calm {a2} {a3} (h : Calm v s) : Calm v (closeLock s a2 a3) := by
  unfold closeLock
  repeat' (first | with_reducible assumption | intro _ | with_reducible apply modLockRun_calm | split | dsimp only)

theorem cutLock_calm {a2} {a3} (h : Calm v s) : Calm v (cutLock s a2 a3) := by
  unfold cutLock
  repeat' (first | with_reducible assumption | intro _ | with_reducible apply endLockWindow_calm | with_reducible apply modLockRun_calm | with_reducible apply putLast_calm | with_reducible apply endLockRun_calm | split | dsimp only)

theorem endRefs_calm {a2} {a3} (h : Calm v s) : Calm v (endRefs s a2 a3) := by
  unfold endRefs
  repeat' (first | with_reducible assumption | intro _ | with_reducible apply calm_foldl | with_reducible apply cfst_foldl | with_reducible apply cfoldl_fst | with_reducible apply cutLock_calm | dsimp only)

theorem feedLock_calm {a2} {a3} (h : Calm v s) : Calm v (feedLock s a2 a3) := by
  unfold feedLock
  repeat' (first | with_reducible assumption | intro _ | with_reducible apply calm_ite | with_reducible apply endLockWindow_calm | with_reducible apply modLockRun_calm | with_reducible apply startLockWindow_calm | with_reducible apply closeLock_calm | split | with_reducible apply cfst_mk | with_reducible refine calm_fst (by with_reducible assumption) ?_ | dsimp only)

theorem feedLoop_calm {a2} {a3} (h : Calm v s) : Calm v (feedLoop s a2 a3) := by
  unfold feedLoop
  repeat' (first | with_reducible assumption | intro _ | with_reducible apply calm_ite | with_reducible apply feedLock_calm | with_reducible apply feedMeas_calm | with_reducible apply State.modAvg_calm | split | dsimp only)

theorem loopEvent_calm {a2} {a3} {a4} {a5} (h : Calm v s) : Calm v (loopEvent s a2 a3 a4 a5) := by
  unfold loopEvent
  repeat' (first | with_reducible assumption | intro _ | with_reducible apply calm_ite | with_reducible apply cfst_ite | with_reducible apply emitRecord_calm | with_reducible refine calm_of_fst (emitRecord_calm ?_) | with_reducible refine calm_fst (by with_reducible assumption) (emitRecord_calm ?_) | with_reducible apply State.raise_calm | split | with_reducible apply cfst_mk | with_reducible refine calm_fst (by with_reducible assumption) ?_ | dsimp only)

theorem clipEvent_calm {a2} {a3} {a4} {a5} {a6} {a7} (h : Calm v s) : Calm v (clipEvent s a2 a3 a4 a5 a6 a7) := by
  unfold clipEvent
  repeat' (first | with_reducible assumption | intro _ | with_reducible apply calm_ite | with_reducible apply loopEvent_calm | dsimp only)

theorem followLeader_calm {a2} (h : Calm v s) : Calm v (followLeader s a2) := by
  unfold followLeader
  repeat' (first | with_reducible assumption | intro _ | with_reducible apply calm_foldl | with_reducible apply State.takeFree_calm | with_reducible apply State.modLoop_calm | dsimp only)

theorem endLoopRun_calm {a2} {a3} {a4} {a5} (h : Calm v s) : Calm v (endLoopRun s a2 a3 a4 a5) := by
  unfold endLoopRun
  repeat' (first | with_reducible assumption | intro _ | with_reducible apply calm_ite | with_reducible apply returnCredit_calm | with_reducible apply State.modAvg_calm | with_reducible apply endRefs_calm | with_reducible apply State.modLoop_calm | with_reducible apply endWork_calm | split | dsimp only)

theorem dropRange_calm {a2} {a3} (h : Calm v s) : Calm v (dropRange s a2 a3) := by
  unfold dropRange
  repeat' (first | with_reducible assumption | intro _ | with_reducible apply calm_ite | with_reducible apply State.modLoop_calm | with_reducible apply postBad_calm | split | dsimp only)

theorem tripLive_calm {a2} (h : Calm v s) : Calm v (tripLive s a2) := by
  unfold tripLive
  repeat' (first | with_reducible assumption | intro _ | with_reducible apply calm_ite | with_reducible apply State.live_calm | dsimp only)

theorem moveForceDac_calm {a2} (h : Calm v s) : Calm v (moveForceDac s a2) := by
  unfold moveForceDac
  repeat' (first | with_reducible assumption | intro _ | with_reducible apply State.modDacst_calm | dsimp only)

theorem endClip_calm {a2} {a3} (h : Calm v s) : Calm v (endClip s a2 a3) := by
  unfold endClip
  repeat' (first | with_reducible assumption | intro _ | with_reducible apply calm_ite | with_reducible apply clipEvent_calm | split | with_reducible apply cfst_mk | with_reducible refine calm_fst (by with_reducible assumption) ?_ | dsimp only)

theorem freeTelem_calm {a2} (h : Calm v s) : Calm v (freeTelem s a2) := by
  unfold freeTelem
  repeat' (first | with_reducible assumption | intro _ | with_reducible apply calm_ite | with_reducible apply returnCredit_calm | with_reducible apply State.modStage_calm | dsimp only)

theorem abortFrame_calm {a2} {a3} (h : Calm v s) : Calm v (abortFrame s a2 a3) := by
  unfold abortFrame
  repeat' (first | with_reducible assumption | intro _ | with_reducible apply freeTelem_calm | with_reducible apply State.modStage_calm | with_reducible apply State.raise_calm | split | dsimp only)

theorem disableStage_calm {a2} (h : Calm v s) : Calm v (disableStage s a2) := by
  unfold disableStage
  repeat' (first | with_reducible assumption | intro _ | with_reducible apply calm_ite | with_reducible apply calm_foldl | with_reducible apply abortFrame_calm | with_reducible apply State.modStage_calm | dsimp only)

theorem clocheLoop_calm {a2} {a3} (h : Calm v s) : Calm v (clocheLoop s a2 a3) := by
  unfold clocheLoop
  repeat' (first | with_reducible assumption | intro _ | with_reducible apply calm_ite | with_reducible apply endLoopRun_calm | with_reducible apply endClip_calm | with_reducible apply dropRange_calm | with_reducible apply State.modLoop_calm | with_reducible apply disableStage_calm | with_reducible apply followLeader_calm | with_reducible apply tripLive_calm | with_reducible apply moveForceDac_calm | dsimp only)

theorem clocheBedLoops_calm {a2} {a3} (h : Calm v s) : Calm v (clocheBedLoops s a2 a3) := by
  unfold clocheBedLoops
  repeat' (first | with_reducible assumption | intro _ | with_reducible apply calm_foldl | with_reducible apply clocheLoop_calm | dsimp only)

theorem sweepRecord_calm {a2} {a3} {a4} (h : Calm v s) : CalmFst v (sweepRecord s a2 a3 a4) := by
  unfold sweepRecord
  repeat' (first | with_reducible assumption | intro _ | with_reducible apply calm_ite | with_reducible apply calm_foldl | with_reducible apply cfst_ite | with_reducible apply cfst_foldl | with_reducible apply cfoldl_fst | with_reducible apply placeHeld_calm | with_reducible refine calm_of_fst (placeHeld_calm ?_) | with_reducible refine calm_fst (by with_reducible assumption) (placeHeld_calm ?_) | split | with_reducible apply cfst_mk | with_reducible refine calm_fst (by with_reducible assumption) ?_ | dsimp only)

theorem sweepClose_calm {a2} {a3} (h : Calm v s) : Calm v (sweepClose s a2 a3) := by
  unfold sweepClose
  repeat' (first | with_reducible assumption | intro _ | with_reducible apply calm_ite | with_reducible apply cfst_ite | with_reducible apply sweepRecord_calm | with_reducible refine calm_of_fst (sweepRecord_calm ?_) | with_reducible refine calm_fst (by with_reducible assumption) (sweepRecord_calm ?_) | with_reducible apply State.modAvg_calm | with_reducible apply endLoopRun_calm | split | with_reducible apply cfst_mk | with_reducible refine calm_fst (by with_reducible assumption) ?_ | dsimp only)

theorem deliver_calm {a2} {a3} {a4} (h : Calm v s) : Calm v (deliver s a2 a3 a4) := by
  unfold deliver
  repeat' (first | with_reducible assumption | intro _ | with_reducible apply State.modLoop_calm | with_reducible apply sweepClose_calm | with_reducible apply feedLoop_calm | dsimp only)

theorem recordHandoff_calm {a2} {a3} (h : Calm v s) : Calm v (recordHandoff s a2 a3) := by
  unfold recordHandoff
  repeat' (first | with_reducible assumption | intro _ | with_reducible apply calm_ite | with_reducible apply loopEvent_calm | with_reducible apply State.modLoop_calm | split | with_reducible apply cfst_mk | with_reducible refine calm_fst (by with_reducible assumption) ?_ | dsimp only)

theorem moveDacs_calm {a2} (h : Calm v s) : Calm v (moveDacs s a2) := by
  unfold moveDacs
  repeat' (first | with_reducible assumption | intro _ | with_reducible apply calm_foldl | with_reducible apply cfst_foldl | with_reducible apply cfoldl_fst | with_reducible apply State.modDacst_calm | dsimp only)

theorem chargeInvalid_calm {a2} (h : Calm v s) : Calm v (chargeInvalid s a2) := by
  unfold chargeInvalid
  repeat' (first | with_reducible assumption | intro _ | with_reducible apply State.modCharge_calm | dsimp only)

theorem chargeLeaveDue_calm {a2} (h : Calm v s) : Calm v (chargeLeaveDue s a2) := by
  unfold chargeLeaveDue
  repeat' (first | with_reducible assumption | intro _ | with_reducible apply calm_ite | with_reducible apply State.modCharge_calm | dsimp only)

theorem chargeReturnDue_calm {a2} (h : Calm v s) : Calm v (chargeReturnDue s a2) := by
  unfold chargeReturnDue
  repeat' (first | with_reducible assumption | intro _ | with_reducible apply calm_ite | with_reducible apply State.modCharge_calm | dsimp only)

theorem chargeReading_calm {a2} {a3} (h : Calm v s) : Calm v (chargeReading s a2 a3) := by
  unfold chargeReading
  repeat' (first | with_reducible assumption | intro _ | with_reducible apply calm_ite | with_reducible apply chargeReturnDue_calm | with_reducible apply chargeLeaveDue_calm | with_reducible apply chargeInvalid_calm | with_reducible apply State.modCharge_calm | split | dsimp only)

theorem wmLive_calm {a2} (h : Calm v s) : Calm v (wmLive s a2) := by
  unfold wmLive
  repeat' (first | with_reducible assumption | intro _ | with_reducible apply calm_ite | with_reducible apply State.live_calm | dsimp only)

theorem wmInit_calm {a2} (h : Calm v s) : Calm v (wmInit s a2) := by
  unfold wmInit
  repeat' (first | with_reducible assumption | intro _ | with_reducible apply wmLive_calm | with_reducible apply State.modWmon_calm | dsimp only)

theorem wmInitBed_calm {a2} (h : Calm v s) : Calm v (wmInitBed s a2) := by
  unfold wmInitBed
  repeat' (first | with_reducible assumption | intro _ | with_reducible apply calm_ite | with_reducible apply calm_foldl | with_reducible apply wmInit_calm | dsimp only)

theorem digitalSample_calm {a2} {a3} {a4} (h : Calm v s) : Calm v (digitalSample s a2 a3 a4) := by
  unfold digitalSample
  repeat' (first | with_reducible assumption | intro _ | with_reducible apply calm_ite | with_reducible apply deliver_calm | with_reducible apply recordHandoff_calm | with_reducible apply tripLive_calm | with_reducible apply loopEvent_calm | with_reducible apply State.modLoop_calm | split | with_reducible apply cfst_mk | with_reducible refine calm_fst (by with_reducible assumption) ?_ | dsimp only)

theorem sendTelemetry_calm {a2} (h : Calm v s) : Calm v (sendTelemetry s a2) := by
  unfold sendTelemetry
  repeat' (first | with_reducible assumption | intro _ | with_reducible apply calm_ite | with_reducible apply cfst_ite | with_reducible apply State.modStage_calm | with_reducible apply emitRecord_calm | with_reducible refine calm_of_fst (emitRecord_calm ?_) | with_reducible refine calm_fst (by with_reducible assumption) (emitRecord_calm ?_) | with_reducible apply placeReserved_calm | with_reducible refine calm_of_fst (placeReserved_calm ?_) | with_reducible refine calm_fst (by with_reducible assumption) (placeReserved_calm ?_) | with_reducible apply State.raise_calm | split | with_reducible apply cfst_mk | with_reducible refine calm_fst (by with_reducible assumption) ?_ | dsimp only)

theorem useReply_calm {a2} {a3} {a4} {a5} (h : Calm v s) : Calm v (useReply s a2 a3 a4 a5) := by
  unfold useReply
  repeat' (first | with_reducible assumption | intro _ | with_reducible apply calm_ite | with_reducible apply calm_foldl | with_reducible apply State.modStage_calm | with_reducible apply sendTelemetry_calm | with_reducible apply digitalSample_calm | with_reducible apply chargeReading_calm | dsimp only)

theorem useDelayed_calm {a2} {a3} (h : Calm v s) : Calm v (useDelayed s a2 a3) := by
  unfold useDelayed
  repeat' (first | with_reducible assumption | intro _ | with_reducible apply useReply_calm | split | dsimp only)

theorem flushReplies_calm {a2} (h : Calm v s) : Calm v (flushReplies s a2) := by
  unfold flushReplies
  repeat' (first | with_reducible assumption | intro _ | with_reducible apply calm_foldl | with_reducible apply useDelayed_calm | with_reducible apply State.modStage_calm | dsimp only)

theorem releaseDelay_calm {a2} (h : Calm v s) : Calm v (releaseDelay s a2) := by
  unfold releaseDelay
  repeat' (first | with_reducible assumption | intro _ | with_reducible apply calm_ite | with_reducible apply enterDone_calm)

end Sys2Proof.Machine
end

section
/-! PROOFS. RESET_BLOCK disarms perturbation as every reset does, so it too may close the loss of a ring that a RING_FULL window
holds, and write the LOSS record to DRAM. -/

set_option Elab.async false

namespace Sys2Proof.Machine

/-- RESET_BLOCK of loop block 0x13, just picked. -/
def resetBlockPicked : Current := { mb := 0, opcode := 0x0008, tag := 0, flags := 0, ring := 0, params := [0x13], pick := 0, wait := .nothing, reply := [] }

/-- `lossUnderRingFull` with RESET_BLOCK in EXECUTING. -/
def lossUnderResetBlock : State :=
  { lossUnderRingFull with fw := { lossUnderRingFull.fw with current := some resetBlockPicked } }

/-- The LOSS record of ring 3 is in DRAM after RESET_BLOCK. -/
theorem resetBlock_writes_dram :
    seen (fun t => t.dramByte 0) (exec .resetBlock lossUnderResetBlock) = some 0x0A := by
  decide +kernel

/-- Refutes O17: RESET_BLOCK ends the RING_FULL window, whose ring then writes its LOSS record to DRAM. -/
theorem not_systemActions : ¬ Obligations.SystemActions := by
  unfold Obligations.SystemActions
  rintro ⟨-, -, -, -, -, -, -, -, -, -, -, -, -, -, -, -, hreset⟩
  obtain ⟨t, ht, -, -, -, -, -, -, hdram, -⟩ :=
    hreset lossUnderResetBlock resetBlockPicked ⟨rfl, rfl, rfl⟩ (by decide) (by decide) (by decide) (by decide) rfl rfl rfl
  have hbyte : t.dramByte 0 = lossUnderResetBlock.dramByte 0 := congrArg (fun d => tget (fun _ => 0) d 0) hdram
  have hseen := (seen_next (f := fun t => t.dramByte 0) ht).symm.trans resetBlock_writes_dram
  rw [hbyte, show lossUnderResetBlock.dramByte 0 = 0 from rfl] at hseen
  exact absurd hseen (by decide)

end Sys2Proof.Machine
end

section
/-! PROOFS. Arithmetic of the engines: rounding, laws, averagers and windows; and where a ring is placed. -/

set_option Elab.async false

namespace Sys2Proof.Machine

/-! Rounding. -/

@[simp] theorem rsh_zero (y : Int) : rsh y 0 = y := by simp [rsh]

theorem rsh_one (y : Int) : rsh y 1 = (y + 1) / 2 := by simp [rsh]

/-- A number that a shift of `p` divides is shifted without rounding. -/
theorem rsh_mul_pow (z : Int) (p : Nat) : rsh (z * 2 ^ p) p = z := by
  unfold rsh
  split
  next h =>
    obtain rfl : p = 0 := by omega
    simp
  next h =>
    obtain ⟨q, rfl⟩ : ∃ q, p = q + 1 := ⟨p - 1, by omega⟩
    have hhalf : (2 ^ q : Int) / 2 ^ (q + 1) = 0 :=
      Int.ediv_eq_zero_of_lt (by positivity) (by rw [pow_succ]; have : (0 : Int) < 2 ^ q := by positivity
                                                 omega)
    simp only [Int.toNat_natCast, Nat.add_sub_cancel]
    rw [Int.add_comm, Int.add_mul_ediv_right _ _ (by positivity), hhalf, Int.zero_add]

theorem roundAway_mul (z : Int) {n : Nat} (hn : 1 ≤ n) : roundAway (z * n) n = z := by
  have hpos : (0 : Int) < 2 * n := by omega
  have hhalf : (n : Int) / (2 * n) = 0 := Int.ediv_eq_zero_of_lt (by omega) (by omega)
  unfold roundAway
  rw [if_neg (by omega)]
  split
  · rw [show 2 * (z * n) + (n : Int) = n + z * (2 * n) by ring, Int.add_mul_ediv_right _ _ (by omega), hhalf, Int.zero_add]
  · rw [show 2 * (-(z * n)) + (n : Int) = n + (-z) * (2 * n) by ring, Int.add_mul_ediv_right _ _ (by omega), hhalf]
    omega

theorem sat_16 (v : Int) : sat v 16 = max (-32768) (min 32767 v) := by simp [sat]

theorem sat_32_of_code {c : Int} (hlo : -32768 ≤ c) (hhi : c ≤ 32767) : sat (c * 65536) 32 = c * 65536 := by
  simp only [sat]
  omega

/-! Clamping. -/

theorem le_clampI {lo hi : Int} (y : Int) : lo ≤ clampI lo hi y := le_max_left _ _

theorem clampI_le {lo hi : Int} (h : lo ≤ hi) (y : Int) : clampI lo hi y ≤ hi := max_le h (min_le_left _ _)

/-- What only falls stays below a start that is not below the lower limit. -/
theorem clampI_add_le {lo hi x d : Int} (hlo : lo ≤ x) (hd : d ≤ 0) : clampI lo hi (x + d) ≤ x := by
  unfold clampI
  omega

/-- What only rises stays above a start that is not above the upper limit. -/
theorem le_clampI_add {lo hi x d : Int} (hhi : x ≤ hi) (hd : 0 ≤ d) : x ≤ clampI lo hi (x + d) := by
  unfold clampI
  omega

/-- The integrator's step, which a saturation flag holds from going further its way (R279). -/
def heldStep (hi lo : Bool) (d : Int) : Int := if (hi && decide (0 < d)) || (lo && decide (d < 0)) then 0 else d

theorem heldStep_nonpos (lo : Bool) (d : Int) : heldStep true lo d ≤ 0 := by
  unfold heldStep
  split <;> simp_all

theorem heldStep_nonneg (hi : Bool) (d : Int) : 0 ≤ heldStep hi true d := by
  unfold heldStep
  split <;> simp_all

/-- The integrator after an evaluation is the clamped sum of the integrator before it and a held step. -/
theorem evalLaw_integ (s : State) (l : Nat) (volt primary : Bool) (r x : Int) :
    ∃ d, (evalLaw s l volt primary r x).2.integ = clampI ((activeSet s l volt).uMin * 65536) ((activeSet s l volt).uMax * 65536)
      ((if volt then (s.loop l).volt else (s.loop l).curr).integ +
        heldStep (if volt then (s.loop l).volt else (s.loop l).curr).satHi (if volt then (s.loop l).volt else (s.loop l).curr).satLo d) :=
  ⟨_, rfl⟩

/-- Settles O31: each result of a law is clamped to the limits of its set, and an integrator that is held only moves the other
way. -/
theorem lawArithmetic : Obligations.LawArithmetic := by
  unfold Obligations.LawArithmetic
  refine ⟨?limits, ?satHi, ?satLo, ?track, ?preset, sat_16, rsh_zero, rsh_one⟩
  case limits =>
    intro s l volt primary r x hk
    exact ⟨le_clampI _, clampI_le hk _, le_clampI _, clampI_le (by omega) _, rfl⟩
  case satHi =>
    rintro s l volt primary r x w rfl hsat hlo -
    obtain ⟨d, hd⟩ := evalLaw_integ s l volt primary r x
    rw [hd, hsat]
    exact clampI_add_le hlo (heldStep_nonpos _ d)
  case satLo =>
    rintro s l volt primary r x w rfl hsat - hhi
    obtain ⟨d, hd⟩ := evalLaw_integ s l volt primary r x
    rw [hd, hsat]
    exact le_clampI_add hhi (heldStep_nonneg _ d)
  case track =>
    intro k shift u own w hk
    exact ⟨le_clampI _, clampI_le (by omega) _, rfl, rfl, rfl⟩
  case preset => exact fun u x => ⟨rfl, rfl, rfl, rfl, rfl, rfl⟩

/-! Windows of an averager. -/

theorem prescale_le {n : Nat} (hn : n ≤ 2 ^ 24) : prescale n ≤ 16 := by
  unfold prescale clog2
  split
  · omega
  · have : Nat.log2 (n - 1) < 24 := (Nat.log2_lt (by omega)).2 (by omega)
    omega

theorem le_two_pow_prescale (n : Nat) : n ≤ 2 ^ (prescale n + 8) := by
  unfold prescale clog2
  split
  · have : 2 ^ 8 ≤ 2 ^ (0 - 8 + 8) := by decide
    omega
  · have hlog : n - 1 < 2 ^ (Nat.log2 (n - 1) + 1) := Nat.lt_log2_self
    have hmono : 2 ^ (Nat.log2 (n - 1) + 1) ≤ 2 ^ (Nat.log2 (n - 1) + 1 - 8 + 8) := Nat.pow_le_pow_right (by omega) (by omega)
    omega

/-- A code is prescaled without rounding: a shift of at most 16 divides its 16 fraction bits. -/
theorem rsh_code (c : Int) {p : Nat} (hp : p ≤ 16) : rsh (c * 65536) p = c * 2 ^ (16 - p) := by
  have hpow : (65536 : Int) = 2 ^ (16 - p) * 2 ^ p := by
    rw [← pow_add, Nat.sub_add_cancel hp]
    rfl
  rw [hpow, ← mul_assoc, rsh_mul_pow]

theorem acc_foldl_accumulate (p : Nat) (l : List Int) (a : Accum) :
    (l.foldl (fun a c => accumulate a c p false) a).acc = a.acc + (l.map (fun c => rsh (c * 65536) p)).sum := by
  induction l generalizing a with
  | nil => simp
  | cons c l ih =>
    rw [List.foldl_cons, ih, List.map_cons, List.sum_cons]
    simp [accumulate, add_assoc]

theorem sum_codes_bounds {p : Nat} (hp : p ≤ 16) {l : List Int} (hl : ∀ c ∈ l, -32768 ≤ c ∧ c ≤ 32767) :
    -((l.length : Int) * (32768 * 2 ^ (16 - p))) ≤ (l.map (fun c => rsh (c * 65536) p)).sum ∧
    (l.map (fun c => rsh (c * 65536) p)).sum ≤ (l.length : Int) * (32768 * 2 ^ (16 - p)) := by
  induction l with
  | nil => simp
  | cons c l ih =>
    obtain ⟨hlo, hhi⟩ := ih (fun x hx => hl x (List.mem_cons_of_mem _ hx))
    obtain ⟨hclo, hchi⟩ := hl c List.mem_cons_self
    have hpos : (0 : Int) ≤ 2 ^ (16 - p) := by positivity
    rw [List.map_cons, List.sum_cons, rsh_code c hp, List.length_cons]
    push_cast
    constructor <;> nlinarith

theorem code_weight {n : Nat} (hn : n ≤ 2 ^ 24) : (n : Int) * (32768 * 2 ^ (16 - prescale n)) ≤ 2 ^ 39 := by
  have hp := prescale_le hn
  have hle : n * (32768 * 2 ^ (16 - prescale n)) ≤ 2 ^ 39 :=
    calc n * (32768 * 2 ^ (16 - prescale n))
        ≤ 2 ^ (prescale n + 8) * (32768 * 2 ^ (16 - prescale n)) := Nat.mul_le_mul_right _ (le_two_pow_prescale n)
      _ = 2 ^ (prescale n + 8 + 15 + (16 - prescale n)) := by rw [pow_add _ (prescale n + 8 + 15), pow_add _ (prescale n + 8)]; ring
      _ = 2 ^ 39 := by congr 1; omega
  exact_mod_cast hle

/-- Settles O34: a prescaled code is exact, so that sums stay within the accumulator and the mean of equal codes is that code. -/
theorem averagingArithmetic : Obligations.AveragingArithmetic := by
  unfold Obligations.AveragingArithmetic
  refine ⟨?skip, ?first, ?bound, ?mean, fun p => rfl⟩
  case skip =>
    intro s key w x hx
    rw [windowAdd, if_pos (by simpa using hx)]
    rfl
  case first =>
    intro s key w x hs hh hf
    simp [windowAdd, hs, hh, windowCode, rangeMoved, hf, accumulate]
  case bound =>
    intro n l _ hn hlen hl
    rw [acc_foldl_accumulate]
    obtain ⟨hlo, hhi⟩ := sum_codes_bounds (prescale_le hn) hl
    have hweight := code_weight hn
    have hlen' : (l.length : Int) * (32768 * 2 ^ (16 - prescale n)) ≤ n * (32768 * 2 ^ (16 - prescale n)) :=
      mul_le_mul_of_nonneg_right (by exact_mod_cast hlen) (by positivity)
    simp only [Int.zero_add]
    omega
  case mean =>
    intro n c h1 hn hlo hhi
    have hpow : (2 : Int) ^ (16 - prescale n) * 2 ^ prescale n = 65536 := by
      rw [← pow_add, Nat.sub_add_cancel (prescale_le hn)]
      rfl
    rw [acc_foldl_accumulate, List.map_replicate, List.sum_replicate, rsh_code c (prescale_le hn), meanOf, if_neg (by omega)]
    have hsum : (({} : Accum).acc + n • (c * 2 ^ (16 - prescale n))) * 2 ^ prescale n = (c * 65536) * n := by
      rw [← hpow]
      simp only [nsmul_eq_mul]
      ring
    rw [hsum, roundAway_mul _ h1, sat_32_of_code hlo hhi]

/-! Windows of a time-interval unit. -/

@[simp] theorem modTimRun_tiu {s : State} {u : Nat} {r : TimRun} (f : TimRun → TimRun) (hr : (s.tiu u).run = some r) :
    (modTimRun s u f).tiu u = { s.tiu u with run := some (f r) } := by
  simp [modTimRun, hr]

@[simp] theorem modWin_tiu {s : State} {u : Nat} {r : TimRun} (f : TimWindow → TimWindow) (hr : (s.tiu u).run = some r) :
    (modWin s u f).tiu u = { s.tiu u with run := some { r with win := f r.win } } :=
  modTimRun_tiu _ hr

theorem openWindow_of_running {s : State} {u : Nat} {r : TimRun} (hr : (s.tiu u).run = some r) (hrun : r.win.running = true) :
    openWindow s u = s := by
  simp [openWindow, hr, windowOpen, hrun]

/-- A sample that neither meets nor makes a full window enters the window in progress. -/
theorem addSample_tiu {s : State} {u x first : Nat} {unref : Bool} {r : TimRun} (hr : (s.tiu u).run = some r)
    (hrun : r.win.running = true) (hn : r.win.n + 1 < (s.tiu u).n) :
    (addSample s u x first unref).tiu u = { s.tiu u with run := some { r with win := { r.win with
      n := r.win.n + 1
      time := if r.win.n = 0 then first / 256 else r.win.time
      x0 := if r.win.n = 0 then x else r.win.x0
      sd := r.win.sd + ((x : Int) - (if r.win.n = 0 then x else r.win.x0 : Nat))
      sq := r.win.sq + (((x : Int) - (if r.win.n = 0 then x else r.win.x0 : Nat)) * ((x : Int) - (if r.win.n = 0 then x else r.win.x0 : Nat))).toNat
      xmin := if r.win.n = 0 then x else min r.win.xmin x
      xmax := if r.win.n = 0 then x else max r.win.xmax x
      unref := r.win.unref || unref } } } := by
  have hfull : ¬ (s.tiu u).n ≤ r.win.n := by omega
  have hfull' : ¬ (s.tiu u).n ≤ r.win.n + 1 := by omega
  have hwin : windowOpen s u = true := by simp [windowOpen, hr, hrun]
  simp [addSample, hr, hrun, hfull, hfull', openWindow_of_running hr hrun, hwin]

theorem rsqrt_zero : rsqrt 0 = 0 := by rfl

theorem timStddev_of_le {w : TimWindow} (h : w.n ≤ 1) : timStddev w = 0 := if_pos h

/-- Settles O38: a sample that opens the window sets the reference, and every later one adds its deviation from it. -/
theorem intervalStatistics : Obligations.IntervalStatistics := by
  unfold Obligations.IntervalStatistics
  refine ⟨?first, ?later, ?stepped, ?equal, ?empty, ?one⟩
  case first =>
    intro s u x first unref r hr hrun hn h1
    rw [addSample_tiu hr hrun (by omega)]
    simp [hn, hrun]
  case later =>
    intro s u x first unref r hr hrun hn h1
    rw [addSample_tiu hr hrun h1]
    simp [show r.win.n ≠ 0 by omega, hrun]
  case stepped =>
    intro s u x first unref r hr
    have hd : ((discard s u).tiu u).run = some { r with win := { r.win with discarded := satAdd max32 r.win.discarded 1 } } := by
      simp [discard, hr]
    rw [takeSample, if_pos rfl, modWin_tiu _ hd]
    simp [discard, hr, satAdd, max32]
  case equal =>
    intro w hn hsd hsq hx
    have hzero : (((w.n : Int) * (w.sq : Int) - w.sd * w.sd).toNat * 2 ^ 32 / (w.n * (w.n - 1))) = 0 := by
      rw [hsd, hsq]
      simp only [Nat.cast_zero, mul_zero, sub_zero, Int.toNat_zero, zero_mul, Nat.zero_div]
    constructor
    · have hround : roundAway (w.sd * 65536) w.n = 0 := by rw [hsd]; simpa only [zero_mul] using roundAway_mul 0 hn
      rw [timMean, if_neg (by omega), hround, toTwos]
      omega
    · unfold timStddev
      split
      · rfl
      · rw [hzero, rsqrt_zero]
  case empty => exact fun w hn => ⟨by simp [timMean, hn], timStddev_of_le (by omega)⟩
  case one => exact fun w hn => timStddev_of_le (by omega)

/-! Placement of rings. -/

theorem roundUp_mod (n m : Nat) : roundUp n m % m = 0 := Nat.mul_mod_left _ _

theorem le_roundUp (n : Nat) {m : Nat} (hm : 0 < m) : n ≤ roundUp n m := by
  have := Nat.div_add_mod (n + (m - 1)) m
  have := Nat.mod_lt (n + (m - 1)) hm
  rw [roundUp, Nat.mul_comm]
  omega

/-- A multiple that is not below a number is not below the number rounded up. -/
theorem roundUp_le {n m a : Nat} (hm : 0 < m) (ha : a % m = 0) (h : n ≤ a) : roundUp n m ≤ a := by
  obtain ⟨k, rfl⟩ := Nat.dvd_of_mod_eq_zero ha
  rw [roundUp, Nat.mul_comm]
  refine Nat.mul_le_mul_left m (Nat.lt_succ_iff.1 ((Nat.div_lt_iff_lt_mul hm).2 ?_))
  rw [Nat.succ_mul, Nat.mul_comm k]
  omega

/-- A base that a ring of `size` bytes may have: aligned, in the ring area, and apart from every ring. -/
def FitsAt (s : State) (size a : Nat) : Prop :=
  a % size = 0 ∧ patternBytes s ≤ a ∧ a + size ≤ dataMib s * 2 ^ 20 ∧ ∀ x ∈ ringSpaces s, a + size ≤ x.1 ∨ x.1 + x.2 ≤ a

/-- The bases that `freeBase` tries. -/
def ringStarts (s : State) (size : Nat) : List Nat :=
  roundUp (patternBytes s) size :: (ringSpaces s).map (fun u => roundUp (u.1 + u.2) size)

/-- The bases among them that fit. -/
def ringFits (s : State) (size : Nat) : List Nat :=
  (ringStarts s size).filter (fun b => decide (patternBytes s ≤ b) && decide (b + size ≤ dataMib s * 2 ^ 20) &&
    (ringSpaces s).all (fun u => decide (b + size ≤ u.1) || decide (u.1 + u.2 ≤ b)))

theorem freeBase_eq (s : State) (size : Nat) :
    freeBase s size = (ringFits s size).find? (fun b => (ringFits s size).all (fun x => decide (b ≤ x))) := rfl

theorem ringStarts_mod {s : State} {size b : Nat} (hb : b ∈ ringStarts s size) : b % size = 0 := by
  rcases List.mem_cons.1 hb with rfl | hb
  · exact roundUp_mod _ _
  · obtain ⟨u, -, rfl⟩ := List.mem_map.1 hb
    exact roundUp_mod _ _

theorem mem_ringFits {s : State} {size b : Nat} : b ∈ ringFits s size ↔ b ∈ ringStarts s size ∧ FitsAt s size b := by
  simp only [ringFits, FitsAt, List.mem_filter, Bool.and_eq_true, Bool.or_eq_true, decide_eq_true_eq, List.all_eq_true]
  constructor
  · rintro ⟨hb, ⟨hlo, hhi⟩, hall⟩
    exact ⟨hb, ringStarts_mod hb, hlo, hhi, hall⟩
  · rintro ⟨hb, -, hlo, hhi, hall⟩
    exact ⟨hb, ⟨hlo, hhi⟩, hall⟩

/-- The lowest base that fits is one of those tried: one place further down begins before the area, or meets a ring that ends
within that place. -/
theorem lowest_mem_ringStarts {s : State} {size m : Nat} (hsize : 0 < size) (hm : FitsAt s size m)
    (hmin : ∀ a, FitsAt s size a → m ≤ a) : m ∈ ringStarts s size := by
  obtain ⟨hmod, hlo, hhi, hall⟩ := hm
  obtain ⟨k, rfl⟩ := Nat.dvd_of_mod_eq_zero hmod
  by_cases hstart : size * k = roundUp (patternBytes s) size
  · rw [hstart]
    exact List.mem_cons_self
  · have hk : k ≠ 0 := by
      rintro rfl
      exact hstart (Nat.le_antisymm (Nat.zero_le _) (roundUp_le hsize hmod hlo))
    obtain ⟨j, rfl⟩ := Nat.exists_eq_succ_of_ne_zero hk
    have hstep : size * j.succ = size * j + size := Nat.mul_succ _ _
    have hbelow : patternBytes s ≤ size * j := by
      by_contra hlt
      have hle := le_roundUp (patternBytes s) hsize
      obtain ⟨i, hi⟩ := Nat.dvd_of_mod_eq_zero (roundUp_mod (patternBytes s) size)
      have hij : j < i := by
        by_contra hji
        have := Nat.mul_le_mul_left size (Nat.le_of_not_lt hji)
        omega
      have := Nat.mul_le_mul_left size hij
      have := roundUp_le hsize hmod hlo
      omega
    have hnot : ¬ FitsAt s size (size * j) := fun hfit => absurd (hmin _ hfit) (by omega)
    obtain ⟨x, hx, hmeets⟩ : ∃ x ∈ ringSpaces s, ¬ (size * j + size ≤ x.1 ∨ x.1 + x.2 ≤ size * j) := by
      by_contra hno
      push Not at hno
      exact hnot ⟨Nat.mul_mod_right _ _, hbelow, by omega, fun x hx => by have := hno x hx; omega⟩
    have hends : x.1 + x.2 ≤ size * j.succ := by
      have := hall x hx
      omega
    refine List.mem_cons_of_mem _ (List.mem_map.2 ⟨x, hx, Nat.le_antisymm (roundUp_le hsize hmod hends) ?_⟩)
    obtain ⟨i, hi⟩ := Nat.dvd_of_mod_eq_zero (roundUp_mod (x.1 + x.2) size)
    have hle := le_roundUp (x.1 + x.2) hsize
    have hij : j < i := by
      by_contra hji
      have := Nat.mul_le_mul_left size (Nat.le_of_not_lt hji)
      omega
    have := Nat.mul_le_mul_left size hij
    show size * j.succ ≤ roundUp (x.1 + x.2) size
    omega

/-- Where some base fits, one that is tried fits below it. -/
theorem exists_ringFits_le {s : State} {size a : Nat} (hsize : 0 < size) (ha : FitsAt s size a) :
    ∃ m ∈ ringFits s size, m ≤ a := by
  classical
  have hex : ∃ m, FitsAt s size m := ⟨a, ha⟩
  have hfind := Nat.find_spec hex
  exact ⟨Nat.find hex, mem_ringFits.2 ⟨lowest_mem_ringStarts hsize hfind (fun b hb => Nat.find_min' hex hb), hfind⟩,
    Nat.find_min' hex ha⟩

theorem exists_least_mem {l : List Nat} {a : Nat} (ha : a ∈ l) : ∃ m ∈ l, ∀ x ∈ l, m ≤ x := by
  classical
  have hex : ∃ m, m ∈ l := ⟨a, ha⟩
  exact ⟨Nat.find hex, Nat.find_spec hex, fun x hx => Nat.find_min' hex hx⟩

/-- Settles O40: the lowest base that fits is among those that `freeBase` tries, and it takes the least of these. -/
theorem ringPlacement : Obligations.RingPlacement := by
  unfold Obligations.RingPlacement
  constructor
  · intro s size b hsize hb
    rw [freeBase_eq] at hb
    obtain ⟨-, hmod, hlo, hhi, hall⟩ := mem_ringFits.1 (List.mem_of_find?_eq_some hb)
    have hleast := List.find?_some hb
    refine ⟨hmod, hlo, hhi, hall, fun a h₁ h₂ h₃ h₄ => ?_⟩
    obtain ⟨m, hm, hma⟩ := exists_ringFits_le hsize ⟨h₁, h₂, h₃, h₄⟩
    have := of_decide_eq_true (List.all_eq_true.1 hleast m hm)
    omega
  · intro s size hsize hnone a h₁ h₂ h₃ h₄
    obtain ⟨m, hm, -⟩ := exists_ringFits_le hsize ⟨h₁, h₂, h₃, h₄⟩
    obtain ⟨k, hk, hleast⟩ := exists_least_mem hm
    rw [freeBase_eq, List.find?_eq_none] at hnone
    exact hnone k hk (List.all_eq_true.2 fun x hx => decide_eq_true (hleast x hx))

end Sys2Proof.Machine
end

section
/-! PROOFS. Folds of keyed updates, which every operation on a range of things is. -/

set_option Elab.async false

namespace Sys2Proof.Machine

/-- A fold of updates, each of one key, leaves at a key the update of that key where it is in the list. -/
theorem foldl_keyed {α : Type} {get : State → Nat → α} {step : State → Nat → State} {f : Nat → α → α}
    (hstep : ∀ s k j, get (step s k) j = if j = k then f k (get s k) else get s j) {l : List Nat} (hl : l.Nodup) (s : State)
    (j : Nat) : get (l.foldl step s) j = if j ∈ l then f j (get s j) else get s j := by
  induction l generalizing s with
  | nil => simp
  | cons k l ih =>
    obtain ⟨hk, hl⟩ := List.nodup_cons.1 hl
    rw [List.foldl_cons, ih hl, hstep]
    by_cases hj : j = k
    · subst hj
      simp [hk]
    · simp [hj]

/-- What every step of a fold leaves, the fold leaves. -/
theorem foldl_same {α β : Type} {F : State → β} {step : State → α → State} (hstep : ∀ s a, F (step s a) = F s) (l : List α)
    (s : State) : F (l.foldl step s) = F s := by
  induction l generalizing s with
  | nil => rfl
  | cons a l ih => rw [List.foldl_cons, ih, hstep]

/-! The commands that complete. -/

/-- Every command but FIRMWARE_PICK completes in every state. -/
theorem exec_completes {i : Instr} (s : State) (h : i ≠ .firmwarePick) : Completes (exec i s) := by
  cases i with
  | firmwarePick => exact absurd rfl h
  | _ => exact ⟨_, rfl⟩

/-! FIRMWARE_PICK. -/

theorem nextBox_congr {s t : State} (hmb : t.mb = s.mb) (hphase : t.clk.phase = s.clk.phase) : nextBox t = nextBox s := by
  unfold nextBox postedBoxes State.mbx
  rw [hmb, hphase]

/-- The entry of the event log for one trap. -/
def ackTrap (s : State) (e : Nat × Nat × Nat) : State :=
  fwLog s.takeFree.takeFree (w16 s.freeNat) (w16 e.1) (w16 e.2.1) (w16 s.takeFree.freeNat)

theorem ackTraps_eq (s : State) : ackTraps s = s.fw.traps.foldl ackTrap { s with fw := { s.fw with traps := [] } } := rfl

theorem ackTraps_nil {s : State} (h : s.fw.traps = []) : ackTraps s = s := by
  rw [ackTraps_eq, h, List.foldl_nil, ← h]

/-- What the acknowledging of traps does not reach: all but the free values and the event log. -/
def besideLog (s : State) : State := { s with free := 0, fw := { s.fw with log := [], logNext := 0 } }

theorem besideLog_fwLog (s : State) (f n : Nat) (l : List LogEntry) :
    besideLog { s with free := f, fw := { s.fw with log := l, logNext := n } } = besideLog s := rfl

theorem besideLog_ackTrap (s : State) (e : Nat × Nat × Nat) : besideLog (ackTrap s e) = besideLog s := by
  unfold ackTrap fwLog
  exact besideLog_fwLog s _ _ _

theorem logNext_foldl_ackTrap (l : List (Nat × Nat × Nat)) {s : State} (h : s.fw.logNext < 2 ^ 32) :
    (l.foldl ackTrap s).fw.logNext = (s.fw.logNext + l.length) % 2 ^ 32 := by
  induction l generalizing s with
  | nil => exact (Nat.mod_eq_of_lt h).symm
  | cons e l ih =>
    have hnext : (ackTrap s e).fw.logNext = (s.fw.logNext + 1) % 2 ^ 32 := rfl
    rw [List.foldl_cons, ih (by rw [hnext]; exact Nat.mod_lt _ (by decide)), hnext, List.length_cons]
    omega

/-- Acknowledging the traps enters them in the event log and changes nothing else. -/
theorem ackTraps_parts (s : State) :
    ackTraps s = { s with free := (ackTraps s).free,
                          fw := { s.fw with traps := [], log := (ackTraps s).fw.log, logNext := (ackTraps s).fw.logNext } } := by
  have hbeside : besideLog (ackTraps s) = besideLog { s with fw := { s.fw with traps := [] } } := by
    rw [ackTraps_eq]
    exact foldl_same (F := besideLog) besideLog_ackTrap _ _
  exact congrArg (fun v => { v with free := (ackTraps s).free,
                                    fw := { v.fw with log := (ackTraps s).fw.log, logNext := (ackTraps s).fw.logNext } }) hbeside

/-- What the firmware does before it picks: it services the watchdog and acknowledges the traps. -/
abbrev beforePick (s : State) : State := ackTraps (serviceWatchdog s)

theorem beforePick_mb (s : State) : (beforePick s).mb = s.mb := by rw [beforePick, ackTraps_parts]; rfl

theorem beforePick_clk (s : State) :
    (beforePick s).clk = { s.clk with wdogRunning := s.clk.wdogPeriod, wdogServed := s.clk.time } := by
  rw [beforePick, ackTraps_parts]; rfl

theorem nextBox_beforePick (s : State) : nextBox (beforePick s) = nextBox s :=
  nextBox_congr (beforePick_mb s) (by rw [beforePick_clk])

theorem execFirmwarePick_of_busy {s : State} (h : firmwareFree s = false) : exec .firmwarePick s = .next s := by
  change execFirmwarePick s = _
  rw [execFirmwarePick, h]
  rfl

theorem execFirmwarePick_of_none {s : State} (h : firmwareFree s = true) (hn : nextBox s = none) :
    exec .firmwarePick s = .next (beforePick s) := by
  change execFirmwarePick s = _
  rw [execFirmwarePick, if_pos h]
  dsimp only
  rw [nextBox_beforePick, hn]

theorem execFirmwarePick_of_some {s : State} {n : Nat} (h : firmwareFree s = true) (hn : nextBox s = some n) :
    exec .firmwarePick s = if (beforePick s).fw.rev = 2 ∧ 2 ≤ ((beforePick s).mbx n).opcode.toNat
      then .refused (.revisionOutsideManual 2) else .next (pickBox (beforePick s) n) := by
  change execFirmwarePick s = _
  rw [execFirmwarePick, if_pos h]
  dsimp only
  rw [nextBox_beforePick, hn]

theorem beforePick_rev (s : State) : (beforePick s).fw.rev = s.fw.rev := by rw [beforePick, ackTraps_parts]; rfl

/-- FIRMWARE_PICK refuses a command outside the manual, and nothing else. -/
theorem execFirmwarePick_refused {s : State} {r : Refusal} (h : exec .firmwarePick s = .refused r) :
    s.fw.rev = 2 ∧ r = .revisionOutsideManual 2 := by
  cases hfree : firmwareFree s with
  | false => exact absurd (execFirmwarePick_of_busy hfree ▸ h) nofun
  | true =>
    cases hbox : nextBox s with
    | none => exact absurd (execFirmwarePick_of_none hfree hbox ▸ h) nofun
    | some n =>
      rw [execFirmwarePick_of_some hfree hbox] at h
      split at h
      next hrev =>
        rw [beforePick_rev] at hrev
        cases h
        exact ⟨hrev.1, rfl⟩
      next => cases h

theorem execFirmwarePick_ne_fault (s : State) (f : Fault) : exec .firmwarePick s ≠ .fault f := by
  cases hfree : firmwareFree s with
  | false => rw [execFirmwarePick_of_busy hfree]; nofun
  | true =>
    cases hbox : nextBox s with
    | none => rw [execFirmwarePick_of_none hfree hbox]; nofun
    | some n =>
      rw [execFirmwarePick_of_some hfree hbox]
      split <;> nofun

/-- Settles O15: every other command completes, and FIRMWARE_PICK refuses in one place. -/
theorem revisionTwoRefused : Obligations.RevisionTwoRefused := by
  unfold Obligations.RevisionTwoRefused
  refine ⟨?refuses, ?only, ?noFault⟩
  case refuses =>
    intro s n hfree htraps hbox hrev hop
    rw [execFirmwarePick_of_some hfree hbox, beforePick, ackTraps_nil (s := serviceWatchdog s) htraps]
    exact if_pos ⟨hrev, hop⟩
  case only =>
    intro i s r h
    by_cases hi : i = .firmwarePick
    · subst hi
      exact ⟨rfl, execFirmwarePick_refused h⟩
    · obtain ⟨t, ht⟩ := exec_completes s hi
      exact absurd (ht.symm.trans h) nofun
  case noFault =>
    intro i s f h
    by_cases hi : i = .firmwarePick
    · subst hi
      exact execFirmwarePick_ne_fault s f h
    · obtain ⟨t, ht⟩ := exec_completes s hi
      exact absurd (ht.symm.trans h) nofun

/-! The order of the pick. -/

theorem mem_postedBoxes {s : State} {n : Nat} :
    n ∈ postedBoxes s ↔ (s.mbx n).state = .posted ∧ if s.clk.phase = .recovery then n = 0 else n < 8 := by
  unfold postedBoxes
  split <;> simp [and_comm]

theorem postedBoxes_lt {s : State} {n : Nat} (h : n ∈ postedBoxes s) : n < 8 := by
  have := (mem_postedBoxes.1 h).2
  split at this <;> omega

theorem postedBoxes_sorted (s : State) : (postedBoxes s).Pairwise (· < ·) := by
  unfold postedBoxes
  split
  · exact List.Pairwise.filter _ (List.pairwise_singleton _ _)
  · exact List.Pairwise.filter _ List.pairwise_lt_range

theorem nextBox_mem {s : State} {n : Nat} (h : nextBox s = some n) : n ∈ postedBoxes s := by
  unfold nextBox at h
  dsimp only at h
  split at h
  next hfind => cases h; exact List.mem_of_find?_eq_some hfind
  next => exact List.mem_of_head? h

/-- With no mailbox passed over eight times the lowest is picked. -/
theorem nextBox_least {s : State} {n : Nat} (h : nextBox s = some n) (hpassed : ∀ k ∈ postedBoxes s, (s.mbx k).passed < 8) :
    ∀ k ∈ postedBoxes s, n ≤ k := by
  have hfind : (postedBoxes s).find? (fun k => decide (8 ≤ (s.mbx k).passed)) = none :=
    List.find?_eq_none.2 fun k hk => by have := hpassed k hk; simpa using this
  unfold nextBox at h
  dsimp only at h
  rw [hfind] at h
  have hsorted := postedBoxes_sorted s
  cases hl : postedBoxes s with
  | nil => simp
  | cons m l =>
    rw [hl] at h hsorted
    cases h
    intro k hk
    rcases List.mem_cons.1 hk with rfl | hk
    · exact le_rfl
    · exact Nat.le_of_lt (List.rel_of_pairwise_cons hsorted hk)

/-- A mailbox passed over eight times is picked before all others. -/
theorem nextBox_passed {s : State} {n : Nat} (h : nextBox s = some n) (hpassed : ∃ k ∈ postedBoxes s, 8 ≤ (s.mbx k).passed) :
    8 ≤ (s.mbx n).passed := by
  unfold nextBox at h
  dsimp only at h
  split at h
  next hfind => cases h; exact of_decide_eq_true (List.find?_some (p := fun k => decide (8 ≤ (s.mbx k).passed)) hfind)
  next hnone =>
    obtain ⟨k, hk, hk8⟩ := hpassed
    exact absurd (List.find?_eq_none.1 hnone k hk) (by simpa using hk8)

theorem nextBox_of_nil {s : State} (h : postedBoxes s = []) : nextBox s = none := by
  rw [nextBox, h]
  rfl

/-- A posted mailbox is passed over once more, and the one picked no longer. -/
def passMark (n : Nat) (s : State) (k : Nat) : State :=
  s.modMbx k (fun m => { m with passed := if k = n then 0 else min 8 (m.passed + 1) })

/-- The state in which the checks of the pick are made: mailbox `n` is in EXECUTING with its command. -/
def picked (s : State) (n : Nat) : State :=
  let u := ((postedBoxes s).foldl (passMark n) s).modMbx n (fun m => { m with state := .executing })
  { u with fw := { u.fw with current := some { copyBox s (Fin.ofNat 8 n) with
      params := (copyBox s (Fin.ofNat 8 n)).params.take (min 120 (s.mbx n).length.toNat) } } }

/-- The command of a mailbox that exists, as it is copied. -/
theorem copyBox_ofNat (s : State) {n : Nat} (hn : n < 8) :
    copyBox s (Fin.ofNat 8 n) =
      { mb := Fin.ofNat 8 n, opcode := (s.mbx n).opcode, tag := (s.mbx n).tag, flags := (s.mbx n).flags, ring := (s.mbx n).ring,
        params := tread (fun _ => 0) (s.mbx n).param 0 120, pick := s.clk.time, wait := .nothing, reply := [] } := by
  have hval : (Fin.ofNat 8 n).val = n := Nat.mod_eq_of_lt hn
  unfold copyBox
  rw [hval]
  rfl

theorem foldl_passMark_mbx (s : State) (n k : Nat) :
    ((postedBoxes s).foldl (passMark n) s).mbx k =
      if k ∈ postedBoxes s then { s.mbx k with passed := if k = n then 0 else min 8 ((s.mbx k).passed + 1) } else s.mbx k :=
  foldl_keyed (get := State.mbx) (f := fun k m => { m with passed := if k = n then 0 else min 8 (m.passed + 1) })
    (fun _ _ _ => State.modMbx_mbx _ _ _ _) ((postedBoxes_sorted s).imp (fun h => Nat.ne_of_lt h)) s k

theorem foldl_passMark_parts (s : State) (n : Nat) (l : List Nat) : { l.foldl (passMark n) s with mb := [] } = { s with mb := [] } :=
  foldl_same (F := fun s : State => { s with mb := [] }) (step := passMark n) (fun _ _ => rfl) l s

theorem picked_mbx (s : State) (n k : Nat) :
    (picked s n).mbx k = if k = n then { ((postedBoxes s).foldl (passMark n) s).mbx n with state := .executing }
      else ((postedBoxes s).foldl (passMark n) s).mbx k := by
  change (((postedBoxes s).foldl (passMark n) s).modMbx n (fun m => { m with state := .executing })).mbx k = _
  rw [State.modMbx_mbx]

theorem picked_parts (s : State) (n : Nat) :
    picked s n = { s with mb := (picked s n).mb, fw := { s.fw with current := (picked s n).fw.current } } :=
  congrArg (fun v => { v with mb := (picked s n).mb, fw := { v.fw with current := (picked s n).fw.current } })
    (foldl_passMark_parts s n (postedBoxes s))

/-- The checks read neither the mailboxes nor the command in EXECUTING. -/
theorem pickChecks_picked (s : State) (n : Nat) (c : Current) (m : Mailbox) : pickChecks (picked s n) c m = pickChecks s c m := by
  rw [picked_parts]
  rfl

theorem pickBox_eq (s : State) (n : Nat) :
    pickBox s n = match firstBad (pickChecks s (copyBox s (Fin.ofNat 8 n)) (s.mbx n)) with
      | some b => failPick (picked s n) (copyBox s (Fin.ofNat 8 n)).opcode b
      | none => picked s n := by
  rw [← pickChecks_picked s n]
  rfl

/-- The checks of the pick read the same before the firmware services the watchdog and after. -/
theorem pickChecks_serviceWatchdog (s : State) (c : Current) (m : Mailbox) : pickChecks (serviceWatchdog s) c m = pickChecks s c m := rfl

/-- Under no revision every command but HELLO and GET_INFO fails the first check of the pick. -/
theorem pickChecks_getStatus {s : State} {c : Current} (m : Mailbox) (hphase : s.clk.phase = .ready) (hrev : s.fw.rev = 0)
    (hop : c.opcode.toNat = 2) : firstBad (pickChecks s c m) = some (0x13, 0) := by
  have hshape : shapeOf s c (decide (s.clk.phase = .recovery)) = plainShape 0 := by
    rw [hphase, shapeOf, hop]
    rfl
  unfold pickChecks
  dsimp only
  rw [hshape, hop, hrev]
  rfl

/-- FIRMWARE_PICK of a command that the manual covers, with no trap to acknowledge. -/
theorem execFirmwarePick_of_rev {s : State} {n : Nat} (hfree : firmwareFree s = true) (htraps : s.fw.traps = [])
    (hn : nextBox s = some n) (hrev : s.fw.rev ≠ 2) :
    exec .firmwarePick s = .next (match firstBad (pickChecks s (copyBox s (Fin.ofNat 8 n)) (s.mbx n)) with
      | some b => failPick (picked (serviceWatchdog s) n) (copyBox s (Fin.ofNat 8 n)).opcode b
      | none => picked (serviceWatchdog s) n) := by
  rw [execFirmwarePick_of_some hfree hn, beforePick, ackTraps_nil (s := serviceWatchdog s) htraps, if_neg (fun h => hrev h.1),
    pickBox_eq]
  rfl

/-- Settles O14: of the posted mailboxes, in ascending order, the first is taken, or the first that has waited eight picks. -/
theorem pickOrder : Obligations.PickOrder := by
  unfold Obligations.PickOrder
  refine ⟨?order, ?pick, ?early, ?busy, fun s h => execFirmwarePick_of_busy h, ?idle⟩
  case order =>
    intro s n hn
    have hmem := nextBox_mem hn
    exact ⟨hmem, (mem_postedBoxes.1 hmem).1, nextBox_least hn, nextBox_passed hn⟩
  case pick =>
    intro s n hfree htraps hn hrev hchecks
    have hmem := nextBox_mem hn
    have hn8 := postedBoxes_lt hmem
    have hpicked := execFirmwarePick_of_rev hfree htraps hn hrev
    rw [hchecks] at hpicked
    refine ⟨picked (serviceWatchdog s) n, hpicked, ?_, ?_, ⟨_, rfl, ?_⟩, ?_, ?_⟩
    · rw [picked_mbx, if_pos rfl]
    · intro k hk hkn hposted hready
      have hmemk : k ∈ postedBoxes (serviceWatchdog s) := mem_postedBoxes.2 ⟨hposted, by
        rw [if_neg (by simp [serviceWatchdog, hready])]; exact hk⟩
      rw [picked_mbx, if_neg hkn, foldl_passMark_mbx, if_pos hmemk, if_neg hkn]
      rfl
    · rw [copyBox_ofNat _ hn8]
      exact ⟨rfl, rfl, rfl, rfl, rfl, rfl, rfl⟩
    · rw [picked_parts]; rfl
    · rw [picked_parts]; rfl
  case early =>
    intro s n hfree htraps hn hn8 hrev hready hop
    have hpicked := execFirmwarePick_of_rev hfree htraps hn (by rw [hrev]; decide)
    rw [copyBox_ofNat _ hn8, pickChecks_getStatus (s.mbx n) hready hrev hop] at hpicked
    have hopcode : ¬ (s.mbx n).opcode = 0x000B := fun h => by rw [h] at hop; exact absurd hop (by decide)
    obtain ⟨c, hcur, hbox⟩ : ∃ c, (picked (serviceWatchdog s) n).fw.current = some c ∧ c.mb.val = n :=
      ⟨_, rfl, by rw [copyBox_ofNat _ hn8]; exact Nat.mod_eq_of_lt hn8⟩
    obtain ⟨ht, -, -, -, -, hstatus, hdetail, -⟩ := postResponse_answered _ c 0x13 0 [] hcur
    rw [hbox] at hstatus hdetail
    refine ⟨postResponse (picked (serviceWatchdog s) n) 0x13 0 [], ?_, ?_, hstatus, hdetail, ?_⟩
    · rw [hpicked]
      simp only [failPick, hopcode, if_false]
      rfl
    · rw [ht]
    · rw [ht, picked_parts]
      rfl
  case busy =>
    intro s hcur
    refine execFirmwarePick_of_busy ?_
    have : s.fw.current.isNone = false := by
      cases hc : s.fw.current with
      | none => exact absurd hc hcur
      | some c => rfl
    rw [firmwareFree, this]
    rfl
  case idle =>
    intro s hfree hposted hlog
    refine ⟨_, execFirmwarePick_of_none hfree (nextBox_of_nil hposted), ?_, ?_, beforePick_clk s, ?_⟩
    · rw [beforePick, ackTraps_parts]
    · rw [beforePick, ackTraps_eq]
      exact logNext_foldl_ackTrap _ hlog
    · rw [beforePick_clk]
      exact ackTraps_parts (serviceWatchdog s)

end Sys2Proof.Machine
end

section
/-! PROOFS. Commands that answer at once: the row of a picked command whose checks are decided. -/

set_option Elab.async false

namespace Sys2Proof.Machine

/-- The row of a picked command that ends with a response. -/
theorem picked_answers {s u : State} {op st d : Nat} {c : Current} {ws : List Word} {action : List Word → Bool}
    {k : Current → State} (h : Picked s op c) (ha : action c.params = true) (hk : k c = postResponse u st d ws)
    (hu : u.fw.current = some c) :
    ∃ t, (Host.Outcome.next (onCommand s op action k) : Host.Outcome State Fault Refusal) = .next t ∧ Answered c st d ws u t :=
  ⟨_, rfl, by rw [onCommand_picked h action k ha, hk]; exact postResponse_answered u c st d ws hu⟩

/-- The row of a picked command whose checks pass, and which then answers OK. -/
theorem picked_ok {s u : State} {op : Nat} {c : Current} {ws : List Word} {action : List Word → Bool} {k : Current → State}
    {checks : List (Option Bad)} {e : State → State} (h : Picked s op c) (ha : action c.params = true)
    (hk : k c = checked s checks e) (hpass : firstBad checks = none) (he : e s = postOk u ws) (hu : u.fw.current = some c) :
    ∃ t, (Host.Outcome.next (onCommand s op action k) : Host.Outcome State Fault Refusal) = .next t ∧ Answered c 0 0 ws u t :=
  picked_answers h ha (by rw [hk, checked_pass e hpass, he]; rfl) hu

/-- The row of a picked command that fails a check. -/
theorem picked_bad {s : State} {op st d : Nat} {c : Current} {action : List Word → Bool} {k : Current → State}
    {checks : List (Option Bad)} {e : State → State} (h : Picked s op c) (ha : action c.params = true)
    (hk : k c = checked s checks e) (hfail : firstBad checks = some (st, d)) :
    ∃ t, (Host.Outcome.next (onCommand s op action k) : Host.Outcome State Fault Refusal) = .next t ∧ Answered c st d [] s t :=
  picked_answers h ha (by rw [hk, checked_fail e hfail]; rfl) h.1

theorem needParam_of {b : Bool} (w : Nat) (h : b = true) : needParam b w = none := by rw [h]; rfl
theorem needParam_of_not {b : Bool} (w : Nat) (h : b = false) : needParam b w = some (0x12, w) := by rw [h]; rfl
theorem needState_of {b : Bool} (w : Nat) (h : b = true) : needState b w = none := by rw [h]; rfl
theorem needState_of_not {b : Bool} (w : Nat) (h : b = false) : needState b w = some (0x13, w) := by rw [h]; rfl

/-! The revision that HELLO puts in force. -/

/-- The revision chosen: the highest of those offered that lies in the range asked for. -/
abbrev revisionFor (s : State) (lo hi : Nat) : Option Nat :=
  (offered s).find? (fun r => decide (lo ≤ r) && decide (r ≤ hi))

theorem revisionFor_three (s : State) {lo hi : Nat} (hlo : lo ≤ 3) (hhi : 3 ≤ hi) : revisionFor s lo hi = some 3 := by
  unfold revisionFor offered
  split <;> simp [hlo, hhi]

theorem revisionFor_two {s : State} {lo : Nat} (hlo : lo ≤ 2) (hphase : s.clk.phase ≠ .recovery) : revisionFor s lo 2 = some 2 := by
  simp [revisionFor, offered, hphase, hlo]

theorem revisionFor_none (s : State) {lo hi : Nat} (h : 3 < lo ∨ hi < 2 ∨ hi < lo) : revisionFor s lo hi = none := by
  unfold revisionFor offered
  split <;> simp <;> omega

/-- HELLO with a range in which a revision is offered. -/
theorem exec_hello_of_some {s : State} {c : Current} {r : Nat} (h : Picked s 0x0000 c)
    (hr : revisionFor s (par c 0) (par c 1) = some r) :
    ∃ t, exec .hello s = .next t ∧
      Answered c 0 0 [w16 r, s.bus.fwRelease, 3, 8, 120, 0x0FFF] { s with fw := { s.fw with rev := r } } t := by
  have hle : par c 0 ≤ par c 1 := by
    have := List.find?_some (p := fun r => decide (par c 0 ≤ r) && decide (r ≤ par c 1)) hr
    simp only [Bool.and_eq_true, decide_eq_true_eq] at this
    omega
  refine picked_ok (checks := [needParam (decide (par c 0 ≤ par c 1)) 1])
    (e := fun s => postOk { s with fw := { s.fw with rev := r } } [w16 r, s.bus.fwRelease, 3, 8, 120, 0x0FFF]) h rfl ?_ ?_ rfl h.1
  · dsimp only
    rw [show (offered s).find? _ = _ from hr]
  · simp [hle]

/-- HELLO with a range in which no revision is offered. -/
theorem exec_hello_of_none {s : State} {c : Current} {st d : Nat} (h : Picked s 0x0000 c)
    (hr : revisionFor s (par c 0) (par c 1) = none)
    (hbad : firstBad [needParam (decide (par c 0 ≤ par c 1)) 1, some (0x12, 0x8001)] = some (st, d)) :
    ∃ t, exec .hello s = .next t ∧ Answered c st d [] s t := by
  refine picked_bad (checks := [needParam (decide (par c 0 ≤ par c 1)) 1, some (0x12, 0x8001)]) (e := id) h rfl ?_ hbad
  dsimp only
  rw [show (offered s).find? _ = _ from hr]

/-! The words of GET_STATUS and LOG_READ. -/

theorem testBit_flags (a b c d e f : Bool) :
    let w := flag 0 a + flag 1 b + flag 2 c + flag 3 d + flag 4 e + flag 5 f
    w < 2 ^ 16 ∧ w.testBit 0 = a ∧ w.testBit 2 = c ∧ w.testBit 3 = d ∧ w.testBit 4 = e ∧ w.testBit 5 = f := by
  revert a b c d e f
  decide

theorem toNat_w16 (n : Nat) : (w16 n).toNat = n % 65536 := BitVec.toNat_ofNat n 16

theorem length_toWords (n v : Nat) : (toWords n v).length = n := by simp [toWords]

theorem length_flatten_le {α : Type} {l : List (List α)} {per n : Nat} (hl : ∀ e ∈ l, e.length = per) (hn : l.length ≤ n) :
    l.flatten.length ≤ n * per := by
  rw [List.length_flatten]
  calc (l.map List.length).sum ≤ (l.map List.length).length • per := List.sum_le_card_nsmul _ _ (by
        intro x hx
        obtain ⟨e, he, rfl⟩ := List.mem_map.1 hx
        exact Nat.le_of_eq (hl e he))
    _ ≤ n * per := by
        rw [List.length_map, smul_eq_mul]
        exact Nat.mul_le_mul_right _ hn

/-- A part of a log fits the response: at most 116 words of entries behind its four words. -/
theorem length_logPart_le {first count oldest per : Nat} {l : List (List Word)} (hl : ∀ e ∈ l, e.length = per) :
    (logPart first count oldest per l).length ≤ 120 := by
  have hpart : (((l.drop (max first oldest - oldest)).take (min count (116 / per))).flatten).length ≤ 116 / per * per :=
    length_flatten_le (fun e he => hl e (List.mem_of_mem_drop (List.mem_of_mem_take he)))
      ((List.length_take_le _ _).trans (Nat.min_le_right _ _))
  have hdiv := Nat.div_mul_le_self 116 per
  simp only [logPart, List.length_append, length_toWords, List.length_cons, List.length_nil]
  omega

/-- Settles O16: the row of each query is its checks and one response. -/
theorem systemQueries : Obligations.SystemQueries := by
  unfold Obligations.SystemQueries
  refine ⟨?hello3, ?hello2, ?helloRange, ?helloOrder, ?info, ?infoRecovery, ?status, ?progress, ?noProgress, ?log, ?logBad,
    fun first count oldest per l _ hl => length_logPart_le hl⟩
  case hello3 => exact fun s c h hlo hhi => exec_hello_of_some h (revisionFor_three s hlo hhi)
  case hello2 =>
    intro s c h hlo hhi hphase
    exact exec_hello_of_some h (by rw [hhi]; exact revisionFor_two hlo hphase)
  case helloRange =>
    intro s c h hle hout
    exact exec_hello_of_none h (revisionFor_none s (by omega)) (by simp [hle])
  case helloOrder =>
    intro s c h hlt
    exact exec_hello_of_none h (revisionFor_none s (by omega)) (by simp [needParam, Nat.not_le.2 hlt])
  case info =>
    intro s c h hphase
    refine picked_answers (d := 0) h rfl ?_ h.1
    simp [postOk, hphase]
  case infoRecovery =>
    intro s c h hphase
    refine picked_answers (d := 0) h rfl ?_ h.1
    simp [postOk, hphase]
  case status =>
    intro s c h
    obtain ⟨t, ht, hans⟩ : ∃ t, exec .getStatus s = .next t ∧ Answered c 0 0 _ s t := picked_answers h rfl rfl h.1
    obtain ⟨hlt, hshut, hsync, hhold, harmed, hseed⟩ := testBit_flags s.sup.shutdown (clocheChipBit s) s.link.syncValid
      s.clk.holdover s.flt.armed s.cal.seedFallback
    have hword := (toNat_w16 _).trans (Nat.mod_eq_of_lt hlt)
    refine ⟨t, _, ht, hans, rfl, ?_, ?_, ?_, ?_, ?_, toNat_w16 _, toNat_w16 _⟩
    · exact (congrArg (Nat.testBit · 0) hword).trans hshut
    · exact (congrArg (Nat.testBit · 2) hword).trans hsync
    · exact (congrArg (Nat.testBit · 3) hword).trans hhold
    · exact (congrArg (Nat.testBit · 4) hword).trans harmed
    · exact (congrArg (Nat.testBit · 5) hword).trans hseed
  case progress => exact fun s c h hrun => picked_ok h rfl rfl (by simp [hrun]) rfl h.1
  case noProgress => exact fun s c h hnone => picked_bad h rfl rfl (by simp [needParam, hnone])
  case log =>
    intro s c h hlog
    exact picked_ok h rfl rfl (by simp [hlog]) (by simp [hlog]) h.1
  case logBad => exact fun s c h hlog => picked_bad h rfl rfl (by simp [needParam, Nat.not_lt.2 hlog])

end Sys2Proof.Machine
end

section
/-! PROOFS. The checks of a command (R86, R88), each decided by what it asks; the ranges and masks that commands name. -/

set_option Elab.async false

namespace Sys2Proof.Machine

/-! Each check. -/

@[simp] theorem needParam_eq_none {b : Bool} {w : Nat} : needParam b w = none ↔ b = true := by cases b <;> simp [needParam]
@[simp] theorem needState_eq_none {b : Bool} {w : Nat} : needState b w = none ↔ b = true := by cases b <;> simp [needState]
@[simp] theorem needBusy_eq_none {b : Bool} {w : Nat} : needBusy b w = none ↔ b = true := by cases b <;> simp [needBusy]
@[simp] theorem needGuard_eq_none {b : Bool} {w : Nat} : needGuard b w = none ↔ b = true := by cases b <;> simp [needGuard]
@[simp] theorem needParam_false (w : Nat) : needParam false w = some (0x12, w) := rfl
@[simp] theorem needState_false (w : Nat) : needState false w = some (0x13, w) := rfl
@[simp] theorem needBusy_false (w : Nat) : needBusy false w = some (0x10, w) := rfl
@[simp] theorem needGuard_false (w : Nat) : needGuard false w = some (0x15, w) := rfl

@[simp] theorem needBits_eq_none {c : Current} {i n : Nat} : needBits c i n = none ↔ par c i < 2 ^ n := by simp [needBits]

theorem needRef_of {s : State} (href : s.clk.refPresent = true) (hhold : s.clk.holdover = false) : needRef s = none := by
  simp [needRef, href, hhold]

theorem needRef_of_absent {s : State} (h : s.clk.refPresent = false ∨ s.clk.holdover = true) : needRef s = some (0x40, 0) := by
  rcases h with h | h <;> simp [needRef, h]

theorem mem_rangeFrom {a n k : Nat} : k ∈ rangeFrom a n ↔ a ≤ k ∧ k < a + n := by
  simp only [rangeFrom, List.mem_map, List.mem_range]
  constructor
  · rintro ⟨i, hi, rfl⟩
    omega
  · rintro ⟨h1, h2⟩
    exact ⟨k - a, by omega, by omega⟩

theorem nodup_rangeFrom (a n : Nat) : (rangeFrom a n).Nodup :=
  List.nodup_range.map (fun _ _ h => Nat.add_left_cancel h)

theorem length_rangeFrom (a n : Nat) : (rangeFrom a n).length = n := by simp [rangeFrom]

theorem needZero_of {c : Current} {i n : Nat} (h : ∀ k, i ≤ k → k < i + n → par c k = 0) : needZero c i n = none := by
  have hfind : (rangeFrom i n).find? (fun k => decide (par c k ≠ 0)) = none :=
    List.find?_eq_none.2 fun k hk => by simp [h k (mem_rangeFrom.1 hk).1 (mem_rangeFrom.1 hk).2]
  rw [needZero, hfind]

/-! Checks over lists. -/

theorem firstOf_eq_none {α : Type} {l : List α} {f : α → Option Bad} : firstOf l f = none ↔ ∀ x ∈ l, f x = none :=
  List.findSome?_eq_none_iff

/-- Where only one failure is possible, an element that fails makes it the answer. -/
theorem firstOf_of_mem {α : Type} {l : List α} {f : α → Option Bad} {b : Bad} {x : α} (hx : x ∈ l) (hfail : f x = some b)
    (honly : ∀ y ∈ l, f y = none ∨ f y = some b) : firstOf l f = some b := by
  induction l with
  | nil => cases hx
  | cons a l ih =>
    rw [firstOf, List.findSome?_cons]
    rcases honly a List.mem_cons_self with h | h <;> rw [h]
    refine ih ?_ (fun y hy => honly y (List.mem_cons_of_mem _ hy))
    rcases List.mem_cons.1 hx with rfl | hx
    · exact absurd (h.symm.trans hfail) nofun
    · exact hx

theorem firstBad_append {l m : List (Option Bad)} (h : ∀ x ∈ l, x = none) : firstBad (l ++ m) = firstBad m := by
  induction l with
  | nil => rfl
  | cons a l ih =>
    rw [h a List.mem_cons_self, List.cons_append, firstBad_none]
    exact ih fun x hx => h x (List.mem_cons_of_mem _ hx)

theorem needTimingFree_eq_none {s : State} {beds : List Nat} :
    needTimingFree s beds = none ↔ ∀ b ∈ beds, calHoldsTiming s b = false := by
  simp [needTimingFree, firstOf_eq_none]

theorem needActive_eq_none {s : State} {beds : List Nat} : needActive s beds = none ↔ ∀ b ∈ beds, bedActive s b = true := by
  simp [needActive, firstOf_eq_none]

/-! Masks. -/

theorem mem_maskList {n m k : Nat} : k ∈ maskList n m ↔ k < n ∧ m.testBit k = true := by simp [maskList, bit]

theorem nodup_maskList (n m : Nat) : (maskList n m).Nodup := List.Nodup.filter _ List.nodup_range

theorem mem_bedMask {m b : Nat} : b ∈ bedMask m ↔ b < 16 ∧ m.testBit b = true := mem_maskList

theorem nodup_bedMask (m : Nat) : (bedMask m).Nodup := nodup_maskList 16 m

theorem bedMask_zero : bedMask 0 = [] := rfl

/-! The execute-in-place window. -/

/-- A fetch inside the window with SP0 free is served. -/
theorem exec_xipFetch_serve {s : State} {a : BitVec 32} {o : Nat} (ho : o = a.toNat - 0x20000000) (hlo : 0x20000000 ≤ a.toNat) (hhi : a.toNat < 0x207FE000)
    (hbusy : s.ser.sp0Busy = false) (hops : s.ser.flashOps = []) :
    exec (.xipFetch a) s = .next (xipServe s o) := by
  change execXipFetch a s = _
  have hin : ¬ (a.toNat < 0x20000000 ∨ 0x207FE000 ≤ a.toNat) := not_or.2 ⟨Nat.not_lt.2 hlo, Nat.not_le.2 hhi⟩
  unfold execXipFetch
  dsimp only
  rw [if_neg hin, if_neg (by simp [sp0Held, hbusy, hops]), ho]

theorem getD_flashBytes (s : State) (a : Nat) {i n : Nat} (hi : i < n) : (flashBytes s a n).getD i 0 = s.flashByte (a + i) := by
  simp [flashBytes, List.getD_eq_getElem?_getD, hi]

/-- The line cache once line `k` has been fetched (R435). -/
def linesWith (l : List Nat) (k : Nat) : List Nat := if k ∈ l then l else (l ++ [k]).drop (l.length - 1023)

theorem linesWith_eq (l : List Nat) (k : Nat) :
    (if l.contains k then l else (l ++ [k]).drop (l.length + 1 - 1024)) = linesWith l k := by
  unfold linesWith
  by_cases hk : k ∈ l
  · rw [if_pos hk, if_pos (List.contains_iff_mem.2 hk)]
  · rw [if_neg hk, if_neg (fun h => hk (List.contains_iff_mem.1 h)), show l.length + 1 - 1024 = l.length - 1023 by omega]

/-- A fetch within the body takes its line from flash. -/
theorem xipServe_line {s : State} {o : Nat} (h : o < flashNum s (imageBase s + 16) 4) :
    xipServe s o = { s with ser := { s.ser with
      xipLines := linesWith s.ser.xipLines (o / 64), xipData := flashBytes s (imageBase s + 0x1000 + 64 * (o / 64)) 64, xipWait := none } } := by
  unfold xipServe
  dsimp only
  rw [if_neg (Nat.not_le.2 h), linesWith_eq]

theorem xipRange_event : srcEvent 0x18 1 = true := by decide

/-- Settles O49: a fetch is outside the window, held by SP0, beyond the body, or served. -/
theorem executeInPlace : Obligations.ExecuteInPlace := by
  unfold Obligations.ExecuteInPlace
  refine ⟨?outside, ?held, ?served, ?beyond⟩
  case outside =>
    intro a s hout
    change execXipFetch a s = _
    unfold execXipFetch
    dsimp only
    rw [if_pos hout]
  case held =>
    intro a s hlo hhi hheld
    have hsp0 : sp0Held s = true := by
      rcases hheld with h | h
      · simp [sp0Held, h]
      · cases hl : s.ser.flashOps with
        | nil => exact absurd hl h
        | cons op l => simp [sp0Held, hl]
    change execXipFetch a s = _
    have hin : ¬ (a.toNat < 0x20000000 ∨ 0x207FE000 ≤ a.toNat) := not_or.2 ⟨Nat.not_lt.2 hlo, Nat.not_le.2 hhi⟩
    unfold execXipFetch
    dsimp only
    rw [if_neg hin, if_pos hsp0]
  case served =>
    intro a s base o ho hlo hhi hbusy hops hbase hbody
    refine ⟨_, exec_xipFetch_serve ho hlo hhi hbusy hops, ?_⟩
    rw [xipServe_line (by rw [imageBase, ← hbase]; exact hbody), show imageBase s = base from hbase.symm]
    exact ⟨by simp [flashBytes], fun i hi => getD_flashBytes s _ hi, rfl, rfl⟩
  case beyond =>
    intro a s base o ho hlo hhi hbusy hops hbase hbody
    subst hbase
    rw [exec_xipFetch_serve ho hlo hhi hbusy hops, xipServe]
    dsimp only
    rw [if_pos (show flashNum s (imageBase s + 16) 4 ≤ _ from hbody), State.raise, xipRange_event]
    have hword : w16 (o % 65536) = w16 o := BitVec.eq_of_toNat_eq (by simp [w16])
    rw [if_pos rfl, hword]
    rfl

/-! Timing sets. -/

theorem groupBreaches_clean {p : Nat} (hp : 0 < p) (g : TGroup) :
    (∀ e ∈ groupBreaches p g, e.1 = false) ↔
      g.don ≤ g.ddat ∧ g.ddat ≤ g.dret ∧ g.dret ≤ g.doff ∧ g.strb + 328 ≤ g.wclose ∧ (∀ e ∈ groupEdges g, e < 4 * p) ∧
      (g.format ≠ 0 → g.ddat + 328 ≤ g.dret ∧ (g.don + 328 ≤ g.ddat ∨ g.ddat = g.don)) ∧
      g.doff + 328 ≤ p + g.don ∧ g.wclose + 328 ≤ p + g.strb := by
  have hlt : ∀ e, ¬ 4 * p - 1 < e ↔ e < 4 * p := fun e => by omega
  simp only [groupBreaches, List.forall_mem_cons, List.not_mem_nil, false_implies, implies_true, and_true, Bool.not_eq_false',
    Bool.and_eq_true, decide_eq_true_eq, List.any_eq_false, hlt, Bool.and_eq_false_iff, decide_eq_false_iff_not, not_not, Bool.or_eq_true]
  constructor
  · rintro ⟨⟨⟨h1, h2⟩, h3⟩, h4, h5, h6, h7, h8⟩
    exact ⟨h1, h2, h3, h4, h5, fun hf => h6.resolve_left hf, h7, h8⟩
  · rintro ⟨h1, h2, h3, h4, h5, h6, h7, h8⟩
    exact ⟨⟨⟨h1, h2⟩, h3⟩, h4, h5, Classical.or_iff_not_imp_left.2 h6, h7, h8⟩

/-- Rule `r` of a group is kept. -/
abbrev ruleKept (l : List (Bool × Nat)) (r : Nat) : Prop :=
  (match l[r]? with
    | some (true, n) => some n
    | _ => none : Option Nat) = none

theorem ruleKept_all {l : List (Bool × Nat)} {n : Nat} (hn : l.length = n) : (∀ r < n, ruleKept l r) ↔ ∀ e ∈ l, e.1 = false := by
  subst hn
  constructor
  · intro h e he
    obtain ⟨r, hr, rfl⟩ := List.getElem_of_mem he
    have hkept := h r hr
    unfold ruleKept at hkept
    rw [List.getElem?_eq_getElem hr] at hkept
    generalize l[r] = e at *
    obtain ⟨b, m⟩ := e
    cases b
    · rfl
    · cases hkept
  · intro h r hr
    have hclean := h l[r] (List.getElem_mem hr)
    unfold ruleKept
    rw [List.getElem?_eq_getElem hr]
    generalize l[r] = e at *
    obtain ⟨b, m⟩ := e
    cases b
    · rfl
    · cases hclean

theorem tsetReason_eq_none {x : TSet} : tsetReason x = none ↔ 1024 ≤ x.period ∧ x.period ≤ 4259840000 ∧
    ∀ g < 8, ∀ e ∈ groupBreaches x.period (groupOf x g), e.1 = false := by
  unfold tsetReason
  split
  next h => simp only [reduceCtorEq, false_iff]; omega
  next h =>
    have hrules : ∀ g, (∀ e ∈ groupBreaches x.period (groupOf x g), e.1 = false) ↔
        ∀ r < 6, ruleKept (groupBreaches x.period (groupOf x g)) r := fun g => (ruleKept_all rfl).symm
    simp only [List.findSome?_eq_none_iff, List.mem_range, hrules]
    constructor
    · exact fun hall => ⟨by omega, by omega, fun g hg r hr => hall r hr g hg⟩
    · exact fun ⟨_, _, hall⟩ r hr g hg => hall g hg r hr

end Sys2Proof.Machine
end

section
/-! PROOFS. TS_WRITE and TS_READ (R178 to R180). -/

set_option Elab.async false

namespace Sys2Proof.Machine

/-- The checks of TS_WRITE on its words (R178). -/
def tsWordChecks (c : Current) : List (Option Bad) :=
  [needParam (decide (par c 0 ≠ 0)) 0, needParam (decide (par c 1 < 64)) 1, needParam (decide (par c 2 &&& 0xFC = 0)) 2,
    if bit (par c 2) 0 then none else needZero c 3 2] ++
  (rangeFrom 0 (tsGroups c).length).flatMap (fun j =>
    needBits c (5 + 19 * j) 2 :: (List.range 6).map (fun e => needBits c (8 + 19 * j + 3 * e) 3))

/-- Its checks on the sets that it would write, and on the beds (R158, R168, R179). -/
def tsBedChecks (s : State) (c : Current) : List (Option Bad) :=
  [firstOf (bedMask (par c 0)) (fun b => match tsetReason (tsWritten c (tsetOf s b (par c 1))) with
      | some r => some (0x12, 0x8000 + r)
      | none => none),
    needRef s,
    firstOf (bedMask (par c 0)) (fun b => needState (!bedBusy s b) 1),
    needTimingFree s (bedMask (par c 0)),
    needActive s (bedMask (par c 0))]

/-- TS_WRITE's effect: set N of every bed of the mask. -/
def tsWriteAll (s : State) (c : Current) : State :=
  (bedMask (par c 0)).foldl (fun s b => s.modTsetAt (64 * b + par c 1) (tsWritten c)) s

/-- The hypotheses under which the words of TS_WRITE are in range. -/
abbrev TsWordsFit (c : Current) : Prop :=
  par c 0 ≠ 0 ∧ par c 1 < 64 ∧ par c 2 &&& 0xFC = 0 ∧ ((par c 2).testBit 0 = true ∨ (par c 3 = 0 ∧ par c 4 = 0)) ∧
  (∀ j, j < (tsGroups c).length → par c (5 + 19 * j) < 4 ∧ ∀ e, e < 6 → par c (8 + 19 * j + 3 * e) < 8)

theorem tsWordChecks_none {c : Current} (h : TsWordsFit c) : ∀ x ∈ tsWordChecks c, x = none := by
  obtain ⟨hbeds, hset, hflags, hperiod, hgroups⟩ := h
  have hzero : (if bit (par c 2) 0 then none else needZero c 3 2 : Option Bad) = none := by
    split
    next => rfl
    next hbit =>
      obtain ⟨h3, h4⟩ := hperiod.resolve_left hbit
      refine needZero_of fun k hlo hhi => ?_
      obtain rfl | rfl : k = 3 ∨ k = 4 := by omega
      · exact h3
      · exact h4
  intro x hx
  rcases List.mem_append.1 hx with hx | hx
  · simp only [List.mem_cons, List.not_mem_nil, or_false] at hx
    rcases hx with rfl | rfl | rfl | rfl
    · simp [hbeds]
    · simp [hset]
    · simp [hflags]
    · exact hzero
  · obtain ⟨j, hj, hx⟩ := List.mem_flatMap.1 hx
    obtain ⟨hformat, hedges⟩ := hgroups j (by have := (mem_rangeFrom.1 hj).2; omega)
    rcases List.mem_cons.1 hx with rfl | hx
    · exact needBits_eq_none.2 hformat
    · obtain ⟨e, he, rfl⟩ := List.mem_map.1 hx
      exact needBits_eq_none.2 (hedges e (List.mem_range.1 he))

/-- TS_WRITE whose words are in range: its beds decide. -/
theorem tsWrite_checks {s : State} {c : Current} (h : TsWordsFit c) :
    firstBad (tsWordChecks c ++ tsBedChecks s c) = firstBad (tsBedChecks s c) :=
  firstBad_append (tsWordChecks_none h)

theorem exec_tsWrite_bad {s : State} {c : Current} {st d : Nat} (h : Picked s 0x0200 c) (hwrite : (par c 2).testBit 1 = false)
    (hfit : TsWordsFit c) (hbad : firstBad (tsBedChecks s c) = some (st, d)) :
    ∃ t, exec .tsWrite s = .next t ∧ Answered c st d [] s t := by
  refine picked_bad (checks := tsWordChecks c ++ tsBedChecks s c) (e := fun s => postOk (tsWriteAll s c) [w16 (bedMask (par c 0)).length])
    h ?_ rfl ((tsWrite_checks hfit).trans hbad)
  change (!(par c 2).testBit 1) = true
  rw [hwrite]
  rfl

theorem firstOf_tsetReason {s : State} {c : Current}
    (h : ∀ b ∈ bedMask (par c 0), tsetReason (tsWritten c (s.tsetAt (64 * b + par c 1))) = none) :
    firstOf (bedMask (par c 0)) (fun b => match tsetReason (tsWritten c (tsetOf s b (par c 1))) with
      | some r => some (0x12, 0x8000 + r)
      | none => none) = none :=
  firstOf_eq_none.2 fun b hb => by rw [tsetOf, h b hb]

theorem tsWriteAll_tsetAt (s : State) (c : Current) (k : Nat) :
    (tsWriteAll s c).tsetAt k = if k ∈ (bedMask (par c 0)).map (fun b => 64 * b + par c 1) then tsWritten c (s.tsetAt k) else s.tsetAt k := by
  have hfold : tsWriteAll s c = ((bedMask (par c 0)).map (fun b => 64 * b + par c 1)).foldl (fun s k => s.modTsetAt k (tsWritten c)) s := by
    rw [List.foldl_map]
    rfl
  rw [hfold]
  exact foldl_keyed (get := State.tsetAt) (f := fun _ => tsWritten c) (fun s k j => by
      rw [State.modTsetAt_tsetAt])
    ((nodup_bedMask _).map (fun a b hab => by simpa using hab)) s k

theorem tsWriteAll_parts (s : State) (c : Current) :
    tsWriteAll s c = { s with edge := { s.edge with tset := (tsWriteAll s c).edge.tset } } :=
  congrArg (fun v => { v with edge := { v.edge with tset := (tsWriteAll s c).edge.tset } })
    (foldl_same (F := fun s : State => { s with edge := { s.edge with tset := [] } })
      (step := fun s b => s.modTsetAt (64 * b + par c 1) (tsWritten c)) (fun _ _ => rfl) (bedMask (par c 0)) s)

theorem and_and_of_and {x m n r : Nat} (h : x &&& m = r) : x &&& (m &&& n) = r &&& n := by rw [← Nat.and_assoc, h]

/-- Settles O22: the checks of R158 rule by rule, and a write of one entry in every bed named. -/
theorem timingSets : Obligations.TimingSets := by
  unfold Obligations.TimingSets
  refine ⟨?legal, ?reason, ?write, ?noRef, ?busy, ?read⟩
  case legal =>
    intro x
    rw [tsetReason_eq_none]
    refine and_congr_right fun hlo => and_congr_right fun _ => forall₂_congr fun g _ => ?_
    exact groupBreaches_clean (by omega) _
  case reason =>
    intro s c b r h hwrite hbeds hset hflags hperiod hgroups hr
    have hne : par c 0 ≠ 0 := fun h0 => by rw [h0, bedMask_zero] at hbeds; cases hbeds
    refine exec_tsWrite_bad h hwrite ⟨hne, hset, hflags, hperiod, hgroups⟩ ?_
    simp only [tsBedChecks, hbeds, firstOf, List.findSome?_cons, tsetOf, hr, firstBad_some]
  case write =>
    intro s c h hwrite hne hset hflags hperiod hgroups hlegal href hhold hfree
    have hpass : firstBad (tsWordChecks c ++ tsBedChecks s c) = none := by
      rw [tsWrite_checks ⟨hne, hset, hflags, hperiod, hgroups⟩, tsBedChecks, firstOf_tsetReason hlegal, needRef_of href hhold,
        firstOf_eq_none.2 (fun b hb => by rw [(hfree b hb).1]; rfl), needTimingFree_eq_none.2 fun b hb => (hfree b hb).2.1,
        needActive_eq_none.2 fun b hb => (hfree b hb).2.2]
      rfl
    obtain ⟨t, ht, hans⟩ : ∃ t, exec .tsWrite s = .next t ∧ Answered c 0 0 [w16 (bedMask (par c 0)).length] (tsWriteAll s c) t := by
      refine picked_ok (checks := tsWordChecks c ++ tsBedChecks s c) (e := fun s => postOk (tsWriteAll s c) [w16 (bedMask (par c 0)).length])
        h ?_ rfl hpass rfl ?_
      · change (!(par c 2).testBit 1) = true
        rw [hwrite]
        rfl
      · rw [tsWriteAll_parts]
        exact h.1
    refine ⟨tsWriteAll s c, t, ht, hans, tsWriteAll_parts s c, fun b hb => ?_, fun k hk => ?_⟩
    · rw [tsWriteAll_tsetAt, if_pos (List.mem_map_of_mem hb)]
    · rw [tsWriteAll_tsetAt, if_neg (fun hmem => by
        obtain ⟨b, hb, hbk⟩ := List.mem_map.1 hmem
        exact hk b hb hbk.symm)]
  case noRef =>
    intro s c h hwrite hne hset hflags hperiod hgroups hlegal habsent
    refine exec_tsWrite_bad h hwrite ⟨hne, hset, hflags, hperiod, hgroups⟩ ?_
    rw [tsBedChecks, firstOf_tsetReason hlegal, needRef_of_absent habsent]
    rfl
  case busy =>
    intro s c b h hwrite hne hset hflags hperiod hgroups hlegal href hhold hb hbusy
    refine exec_tsWrite_bad h hwrite ⟨hne, hset, hflags, hperiod, hgroups⟩ ?_
    have hfirst : firstOf (bedMask (par c 0)) (fun b => needState (!bedBusy s b) 1) = some (0x13, 1) :=
      firstOf_of_mem hb (by rw [hbusy]; rfl) (fun y _ => by cases bedBusy s y <;> simp)
    rw [tsBedChecks, firstOf_tsetReason hlegal, needRef_of href hhold, hfirst]
    rfl
  case read =>
    intro s c b h hbeds hset hflags hlen href hhold hfree hactive
    have hmask : par c 2 &&& 0xFD = 0 := and_and_of_and (n := 0xFD) hflags
    have hbit : (par c 2).testBit 1 = true := by
      have htest : ((par c 2).testBit 1 && Nat.testBit 255 1) = Nat.testBit 2 1 := by rw [← Nat.testBit_and, hflags]
      rwa [show Nat.testBit 255 1 = true by decide, Bool.and_true] at htest
    refine picked_ok (checks := [needParam (decide ((bedMask (par c 0)).length = 1)) 0, needParam (decide (par c 1 < 64)) 1,
       needParam (decide (par c 2 &&& 0xFD = 0) && decide ((tsGroups c).length ≤ 6)) 2,
       needRef s, needTimingFree s (bedMask (par c 0)), needActive s (bedMask (par c 0))]) h hbit rfl ?_ ?_ h.1
    · rw [hbeds, needRef_of href hhold, needTimingFree_eq_none.2 (by simpa using hfree), needActive_eq_none.2 (by simpa using hactive)]
      simp [hset, hmask, hlen]
    · rw [hbeds]
      rfl

end Sys2Proof.Machine
end

section
/-! PROOFS. Credit, loss and release of a ring (R377 to R383): what each operation leaves of every ring. -/

set_option Elab.async false

namespace Sys2Proof.Machine

/-! What a message or a fault leaves of the rings. -/

@[simp] theorem raise_ring (s : State) (k src d0 d1 r : Nat) : (s.raise k src d0 d1).ring r = s.ring r := by
  unfold State.raise
  dsimp only
  split <;> rfl

@[simp] theorem sendRoot_ring (s : State) (mtype : Nat) (arg payload : List Byte) (r : Nat) :
    (sendRoot s mtype arg payload).ring r = s.ring r := by
  rw [State.ring, State.ring, only_harv (sendRoot_only (w := 69632) rfl only_refl)]

theorem sendNotify_ring (s : State) (r k : Nat) :
    (sendNotify s r).ring k = if k = r then { s.ring r with armed := false, advanced := none } else s.ring k := by
  simp [sendNotify]

theorem notifyUnitsCheck_ring_ne (s : State) {r k : Nat} (hk : k ≠ r) : (notifyUnitsCheck s r).ring k = s.ring k := by
  unfold notifyUnitsCheck
  dsimp only
  split
  · rw [sendNotify_ring, if_neg hk]
  · rfl

theorem notifyUnitsCheck_ring_same (s : State) (r : Nat) :
    (notifyUnitsCheck s r).ring r = { s.ring r with armed := ((notifyUnitsCheck s r).ring r).armed, advanced := ((notifyUnitsCheck s r).ring r).advanced } := by
  unfold notifyUnitsCheck
  dsimp only
  split
  · rw [sendNotify_ring, if_pos rfl]
  · rfl

theorem advanceRing_ring_ne (s : State) {r k : Nat} (hk : k ≠ r) : (advanceRing s r).ring k = s.ring k := by
  unfold advanceRing
  dsimp only
  split
  · rfl
  · simp [notifyUnitsCheck_ring_ne, hk]

theorem advanceRing_ring_same (s : State) (r : Nat) :
    (advanceRing s r).ring r = { s.ring r with
      placed := ((advanceRing s r).ring r).placed, wr := ((advanceRing s r).ring r).wr
      armed := ((advanceRing s r).ring r).armed, advanced := ((advanceRing s r).ring r).advanced } := by
  unfold advanceRing
  dsimp only
  split
  · rfl
  · rw [notifyUnitsCheck_ring_same, State.modRing_ring, if_pos rfl]

theorem markWritten_ring_ne (s : State) {r k : Nat} (seq : Nat) (hk : k ≠ r) : (markWritten s r seq).ring k = s.ring k := by
  unfold markWritten
  dsimp only
  rw [advanceRing_ring_ne _ hk, State.modRing_ring, if_neg hk]

theorem markWritten_ring_same (s : State) (r seq : Nat) :
    (markWritten s r seq).ring r = { s.ring r with
      placed := ((markWritten s r seq).ring r).placed, wr := ((markWritten s r seq).ring r).wr
      armed := ((markWritten s r seq).ring r).armed, advanced := ((markWritten s r seq).ring r).advanced } := by
  unfold markWritten
  dsimp only
  rw [advanceRing_ring_same, State.modRing_ring, if_pos rfl]

theorem ringWrite_ring (s : State) (c : RingCtx) (off : Nat) (bytes : List Byte) (r : Nat) :
    (ringWrite s c off bytes).ring r = s.ring r := rfl

/-! The loss of a ring. -/

/-- `closeLoss` where the loss closes. -/
theorem closeLoss_of_free {s : State} {r : Nat} {l : Loss} (hstate : (s.ring r).state = .lossOpen) (hloss : (s.ring r).loss = some l)
    (hfree : 2 ≤ ringFree (s.ring r)) :
    closeLoss s r = markWritten ((ringWrite s (s.ring r) (16 * l.pos) (lossBytes l.flags 2 l.seq l.first l.count l.causes l.last)).modRing r
      (fun c => { c with state := .live, loss := none })) r l.seq := by
  unfold closeLoss
  dsimp only
  rw [hloss]
  exact if_pos ⟨hstate, hfree⟩

theorem closeLoss_of_full {s : State} {r : Nat} (hfree : ringFree (s.ring r) < 2) : closeLoss s r = s := by
  unfold closeLoss
  dsimp only
  split
  · rfl
  · exact if_neg (fun h => absurd h.2 (by omega))

theorem closeLoss_ring_ne (s : State) {r k : Nat} (hk : k ≠ r) : (closeLoss s r).ring k = s.ring k := by
  unfold closeLoss
  dsimp only
  split
  · rfl
  · split
    · simp [markWritten_ring_ne, hk, ringWrite_ring]
    · rfl

/-! REL_POS, which only a release moves. -/

/-- REL_POS of every ring. -/
def relsOf (s : State) : Nat → Nat := fun r => (s.ring r).rel

theorem relsOf_congr {s t : State} (h : ∀ r, t.ring r = s.ring r) : relsOf t = relsOf s := by
  funext r
  rw [relsOf, relsOf, h]

theorem relsOf_modRing (s : State) (r : Nat) {f : RingCtx → RingCtx} (hf : ∀ c, (f c).rel = c.rel) :
    relsOf (s.modRing r f) = relsOf s := by
  funext k
  simp only [relsOf, State.modRing_ring]
  split
  next hk => rw [hf, hk]
  next => rfl

theorem relsOf_markWritten (s : State) (r seq : Nat) : relsOf (markWritten s r seq) = relsOf s := by
  funext k
  by_cases hk : k = r
  · subst hk
    simp only [relsOf]
    rw [markWritten_ring_same]
  · rw [relsOf, relsOf, markWritten_ring_ne _ _ hk]

theorem relsOf_notifyUnitsCheck (s : State) (r : Nat) : relsOf (notifyUnitsCheck s r) = relsOf s := by
  funext k
  by_cases hk : k = r
  · subst hk
    simp only [relsOf]
    rw [notifyUnitsCheck_ring_same]
  · rw [relsOf, relsOf, notifyUnitsCheck_ring_ne _ hk]

theorem relsOf_closeLoss (s : State) (r : Nat) : relsOf (closeLoss s r) = relsOf s := by
  unfold closeLoss
  dsimp only
  split
  · rfl
  · split
    · rw [relsOf_markWritten, relsOf_modRing _ _ (by intro; rfl)]
      exact relsOf_congr (ringWrite_ring _ _ _ _)
    · rfl

theorem relsOf_dropRecord (s : State) (r causes : Nat) : relsOf (dropRecord s r causes) = relsOf s := by
  unfold dropRecord
  dsimp only
  split
  · exact relsOf_modRing _ _ (fun _ => rfl)
  · exact relsOf_modRing _ _ (fun _ => rfl)
  · rfl

theorem relsOf_leaveWaiters (s : State) (r : Nat) (w : Waiter) : relsOf (leaveWaiters s r w) = relsOf s :=
  relsOf_modRing _ _ (fun _ => rfl)

theorem grantCredit_ring (s : State) (r : Nat) (w : Waiter) (n k : Nat) : (grantCredit s r w n).ring k = s.ring k := by
  cases w with
  | sweepStep first count =>
    exact congrFun (foldl_same (F := State.ring) (step := fun s l => modSweep s l (fun x => { x with granted := true }))
      (fun _ _ => rfl) (rangeFrom first count) s) k
  | _ => rfl

theorem relsOf_serveWaiters (s : State) (r : Nat) (l : List (Waiter × Nat)) : relsOf (serveWaiters s r l) = relsOf s := by
  induction l generalizing s with
  | nil => rfl
  | cons x l ih =>
    obtain ⟨w, n⟩ := x
    rw [serveWaiters]
    split
    · rw [ih, relsOf_congr (grantCredit_ring _ _ _ _), relsOf_leaveWaiters]
      exact relsOf_modRing _ _ (fun _ => rfl)
    · rfl

theorem stageRoom_ring {s t : State} {st units : Nat} (h : stageRoom s st units = some t) (r : Nat) : t.ring r = s.ring r := by
  unfold stageRoom at h
  dsimp only at h
  split at h
  · cases h
  · split at h
    · cases h
      rfl
    · split at h <;> cases h
      rfl

theorem relsOf_placeIn (s : State) (st r units tag : Nat) (bytes : Nat → List Byte) :
    relsOf (placeIn s st r units tag bytes) = relsOf s := by
  unfold placeIn
  split
  · rfl
  · exact relsOf_modRing _ _ (fun _ => rfl)

theorem relsOf_finalProgress (s : State) (e : PendingEnd) : relsOf (finalProgress s e) = relsOf s := rfl

theorem relsOf_credit (s : State) (l : List (Nat × Nat)) : relsOf { s with harv := { s.harv with credit := l } } = relsOf s := rfl

theorem relsOf_ends (s : State) (l : List PendingEnd) : relsOf { s with harv := { s.harv with ends := l } } = relsOf s := rfl

theorem relsOf_placeCompletion {s t : State} {e : PendingEnd} (h : placeCompletion s e = some t) : relsOf t = relsOf s := by
  unfold placeCompletion at h
  split at h
  · cases h
  · split at h
    · cases h
    · next hroom =>
      rw [← Option.some.inj h, relsOf_finalProgress, relsOf_credit, relsOf_placeIn, relsOf_modRing _ _ (by intro; rfl)]
      exact relsOf_congr (stageRoom_ring hroom)

theorem relsOf_retryEnds (s : State) (l : List PendingEnd) : relsOf (retryEnds s l) = relsOf s := by
  induction l generalizing s with
  | nil => rfl
  | cons e l ih =>
    rw [retryEnds]
    split
    · split
      · next hplace => rw [ih, relsOf_ends, relsOf_placeCompletion hplace]
      · exact ih _
    · split
      · rw [ih, relsOf_ends, relsOf_finalProgress, relsOf_dropRecord, relsOf_leaveWaiters]
      · exact ih _

theorem relsOf_serviceRing (s : State) (r : Nat) : relsOf (serviceRing s r) = relsOf s :=
  (relsOf_retryEnds _ _).trans ((relsOf_serveWaiters _ _ _).trans (relsOf_closeLoss s r))

theorem rel_released (s : State) (r : Nat) : ((notifyUnitsCheck (serviceRing s r) r).ring r).rel = (s.ring r).rel :=
  congrFun ((relsOf_notifyUnitsCheck _ r).trans (relsOf_serviceRing s r)) r

/-! A release. -/

/-- The ring once a release has moved its REL_POS. -/
def released (s : State) (r pos : Nat) (arm : Bool) (bad : Bool) : State :=
  let s := if bad then s.raise 0x15 4 r 2 else s
  let s := s.modRing r (fun c => { c with rel := if bad then c.wr else pos % two32 })
  if arm then s.modRing r (fun c => { c with armed := true, advanced := none }) else s

theorem released_rel (s : State) (r pos : Nat) (arm bad : Bool) :
    ((released s r pos arm bad).ring r).rel = if bad then (s.ring r).wr else pos % two32 := by
  cases arm <;> cases bad <;> simp [released]

theorem releaseRing_of_free {s : State} {r pos : Nat} {arm : Bool} (h : (s.ring r).state = .free) :
    releaseRing s r pos arm = (s.raise 0x15 4 r 4, 4) := by
  unfold releaseRing
  exact if_pos h

theorem releaseRing_of_behind {s : State} {r pos : Nat} {arm : Bool} (h : (s.ring r).state ≠ .free)
    (hahead : 2 ^ 31 ≤ posDiff pos (s.ring r).rel) : releaseRing s r pos arm = (s.raise 0x15 4 r 3, 3) := by
  unfold releaseRing
  dsimp only
  rw [if_neg h]
  exact if_pos hahead

theorem releaseRing_of_ahead {s : State} {r pos : Nat} {arm : Bool} (h : (s.ring r).state ≠ .free)
    (hahead : posDiff pos (s.ring r).rel < 2 ^ 31) :
    releaseRing s r pos arm =
      (notifyUnitsCheck (serviceRing (released s r pos arm (decide (posDiff (s.ring r).wr (s.ring r).rel < posDiff pos (s.ring r).rel))) r) r,
        if decide (posDiff (s.ring r).wr (s.ring r).rel < posDiff pos (s.ring r).rel) then 2 else 0) := by
  unfold releaseRing
  dsimp only
  rw [if_neg h]
  exact if_neg (Nat.not_le.2 hahead)

theorem releaseBad_event : srcEvent 0x15 4 = true := by decide

theorem raise_event {k src : Nat} (h : srcEvent k src = true) (s : State) (d0 d1 : Nat) :
    s.raise k src d0 d1 = { s with flt := { s.flt with waiting := s.flt.waiting ++
      [{ block := k, source := src, d0 := w16 d0, d1 := w16 d1, forced := false, stamp := f3 s.clk.time }] } } := by
  unfold State.raise
  rw [h]
  rfl

/-- Settles O41: each operation on a ring's credit, by the equation of its function. -/
theorem ringCredit : Obligations.RingCredit := by
  unfold Obligations.RingCredit
  refine ⟨?reserved, ?succeeds, ?opens, ?counts, ?closes, ?placed, ?failed, ?free, ?behind, ?clamped, ?moved⟩
  case reserved =>
    intro s t r n h
    have ht := reserve_ring h
    unfold reserve at h
    split at h
    next hcan =>
      simp only [canReserve, Bool.and_eq_true, Bool.or_eq_true, decide_eq_true_eq, Bool.not_eq_true', List.isEmpty_iff] at hcan
      obtain ⟨⟨⟨⟨hlive, hclosing⟩, -⟩, htwo⟩, hfirst⟩ := hcan
      subst ht
      refine ⟨hlive, hclosing, htwo, hfirst, by simp, ?_, fun k hk => by simp [hk], rfl⟩
      have hfree : ringFree { s.ring r with reserved := (s.ring r).reserved + n } = ringFree (s.ring r) - n := by
        simp only [ringFree, ringUnits, Nat.cast_add]
        omega
      rw [State.modRing_ring, if_pos rfl, hfree]
      exact htwo
    next => cases h
  case succeeds =>
    intro s r n hlive hclosing hpert htwo hfirst
    have hcan : canReserve s r n = true := by simp [canReserve, hlive, hclosing, hpert, htwo]
    rw [reserve, if_pos]
    · rfl
    · rcases hfirst with h | h <;> simp [hcan, h]
  case opens =>
    intro s r causes hlive
    have hdrop : (dropRecord s r causes).ring r = { s.ring r with
        state := .lossOpen
        loss := some { pos := (s.ring r).place, seq := (s.ring r).seq, count := 1, first := s.now, last := s.now, causes := causes, flags := flagsNow s 0 }
        placed := (s.ring r).placed ++ [{ pos := (s.ring r).place, len := 2, seq := (s.ring r).seq, done := false, hold := true }]
        place := ((s.ring r).place + 2) % two32
        seq := ((s.ring r).seq + 1) % two32 } := by
      unfold dropRecord
      dsimp only
      rw [hlive, State.modRing_ring, if_pos rfl]
    refine ⟨by rw [hdrop], by rw [hdrop]; rfl, by rw [hdrop]; rfl, by rw [hdrop]; rfl, fun n => ?_, fun k hk => ?_⟩
    · simp [canReserve, hdrop]
    · unfold dropRecord
      dsimp only
      rw [hlive]
      simp [hk]
  case counts =>
    intro s r causes l hopen hloss
    have hdrop : dropRecord s r causes = s.modRing r (fun c => { c with loss := c.loss.map (fun l =>
        { l with count := satAdd max32 l.count 1, last := s.now, causes := l.causes ||| causes, flags := l.flags ||| flagsNow s 0 }) }) := by
      unfold dropRecord
      dsimp only
      rw [hopen]
    rw [hdrop, State.modRing_ring, if_pos rfl, hloss]
    rfl
  case closes =>
    intro s r l hopen hloss
    refine ⟨fun hfree => ⟨?_, ?_, fun k hk => closeLoss_ring_ne s hk⟩, closeLoss_of_full⟩
    · rw [closeLoss_of_free hopen hloss hfree, markWritten_ring_same, State.modRing_ring, if_pos rfl]
    · rw [closeLoss_of_free hopen hloss hfree, markWritten_ring_same, State.modRing_ring, if_pos rfl]
  case placed =>
    intro s st r units tag bytes hstate
    have hplace : placeIn s st r units tag bytes = (s.modStager st (fun g => setFill g (fillBank g ++
        [{ ring := r, pos := (s.ring r).place, len := units, seq := (s.ring r).seq, tag := tag, bytes := bytes (s.ring r).seq,
           entered := s.now, unref := s.clk.holdover, acked := 0 }]))).modRing r (fun c => { c with
        place := (c.place + units) % two32, seq := (c.seq + 1) % two32,
        placed := c.placed ++ [{ pos := c.place, len := units, seq := c.seq, done := false, hold := false }] }) := by
      unfold placeIn
      exact if_neg hstate
    have hfill : ∀ (g : Stager) (l : List Staged), fillBank (setFill g l) = l ∧ drainBank (setFill g l) = drainBank g := by
      intro g l
      cases hb : g.fillB <;> simp [fillBank, drainBank, setFill, hb]
    rw [hplace]
    refine ⟨by simp [two32], ?_, ?_, fun k hk => by simp [hk], fun k hk => by simp [hk]⟩
    · simp [hfill]
      rfl
    · simp [hfill]
  case failed =>
    intro s st r units tag bytes hstate
    unfold placeIn
    exact if_pos hstate
  case free =>
    intro s r pos arm hfree
    rw [releaseRing_of_free hfree, raise_event releaseBad_event]
    exact ⟨rfl, fun k => rfl, _, List.mem_append_right _ (List.mem_singleton_self _), rfl, rfl, rfl, rfl⟩
  case behind =>
    intro s r pos arm hstate hahead
    rw [releaseRing_of_behind hstate hahead]
    exact ⟨rfl, fun k => raise_ring s _ _ _ _ k⟩
  case clamped =>
    intro s r pos arm hstate hahead hspan
    rw [releaseRing_of_ahead hstate hahead, decide_eq_true hspan]
    exact ⟨rfl, (rel_released _ r).trans (released_rel s r pos arm true)⟩
  case moved =>
    intro s r pos arm hstate hahead hspan
    rw [releaseRing_of_ahead hstate hahead, decide_eq_false (Nat.not_lt.2 hspan)]
    exact ⟨rfl, (rel_released _ r).trans (released_rel s r pos arm false)⟩

end Sys2Proof.Machine
end

section
/-! PROOFS. What harvest does by itself (R370 to R375, R381, R384): banks, bursts and their answers. -/

set_option Elab.async false

namespace Sys2Proof.Machine

/-! Writes to a ring that do not wrap. -/

theorem tget_ringWrite (s : State) {c : RingCtx} {off : Nat} {bytes : List Byte}
    (hfit : off % ringBytes c + bytes.length ≤ ringBytes c) (a : Nat) :
    tget (fun _ => 0) (ringWrite s c off bytes).pat.dram a =
      if c.base + off % ringBytes c ≤ a ∧ a < c.base + off % ringBytes c + bytes.length
        then bytes.getD (a - (c.base + off % ringBytes c)) 0 else tget (fun _ => 0) s.pat.dram a := by
  have htake : bytes.take (ringBytes c - off % ringBytes c) = bytes := List.take_of_length_le (by omega)
  have hdrop : bytes.drop (ringBytes c - off % ringBytes c) = [] := List.drop_eq_nil_of_le (by omega)
  simp only [ringWrite, htake, hdrop, twrite]
  rw [tget_twrite]
  split
  next h =>
    rw [List.getD_eq_getElem?_getD, List.getElem?_eq_getElem (by omega), Option.getD_some]
  next => rfl

/-! The parts of a burst. -/

theorem ringBytes_pos (c : RingCtx) : 0 < ringBytes c := by unfold ringBytes; positivity

/-- The offset and the room of a burst that begins with record `x`. -/
def burstOff (s : State) (x : Staged) : Nat := (16 * x.pos + x.acked) % ringBytes (s.ring x.ring)
def burstRoom (s : State) (x : Staged) : Nat := min (256 - burstOff s x % 256) (ringBytes (s.ring x.ring) - burstOff s x)

theorem burstOff_lt (s : State) (x : Staged) : burstOff s x < ringBytes (s.ring x.ring) := Nat.mod_lt _ (ringBytes_pos _)

theorem burstRoom_pos (s : State) (x : Staged) : 0 < burstRoom s x := by
  have := burstOff_lt s x
  unfold burstRoom
  omega

theorem nextBurst_eq {s : State} {st : Nat} {x : Staged} {l : List Staged} (h : writing (s.stager st) = x :: l) :
    nextBurst s st = if burstRoom s x < 16 * x.len - x.acked then [(x, burstRoom s x)]
      else (x, 16 * x.len - x.acked) :: burstParts (s.ring x.ring) x.ring (burstOff s x + (16 * x.len - x.acked))
        (burstRoom s x - (16 * x.len - x.acked)) l := by
  unfold nextBurst
  rw [h]
  change burstParts (s.ring x.ring) x.ring (burstOff s x) (burstRoom s x) (x :: l) = _
  rw [burstParts, if_neg]
  have := burstRoom_pos s x
  simp [burstOff]
  omega

theorem nextBurst_of_nil {s : State} {st : Nat} (h : writing (s.stager st) = []) : nextBurst s st = [] := by
  unfold nextBurst
  rw [h]

theorem sum_burstParts_le (c : RingCtx) (r off room : Nat) (l : List Staged) :
    ((burstParts c r off room l).map (fun p => p.2)).sum ≤ room := by
  induction l generalizing off room with
  | nil => simp [burstParts]
  | cons x l ih =>
    rw [burstParts]
    split
    · simp
    · dsimp only
      split
      · simp
      · have := ih (off + (16 * x.len - x.acked)) (room - (16 * x.len - x.acked))
        simp only [List.map_cons, List.sum_cons]
        omega

/-- A burst begins with the record that the writer works on, and carries no more of it than fits. -/
theorem nextBurst_cons {s : State} {st : Nat} {x : Staged} {n : Nat} {p : List (Staged × Nat)} (h : nextBurst s st = (x, n) :: p) :
    (∃ l, writing (s.stager st) = x :: l) ∧ n ≤ burstRoom s x ∧ n ≤ 16 * x.len - x.acked := by
  cases hw : writing (s.stager st) with
  | nil => rw [nextBurst_of_nil hw] at h; cases h
  | cons y l =>
    rw [nextBurst_eq hw] at h
    split at h
    next hlt =>
      cases h
      exact ⟨⟨l, rfl⟩, le_rfl, by omega⟩
    next hge =>
      cases h
      exact ⟨⟨l, rfl⟩, by omega, le_rfl⟩

/-- What a burst carries of its first record lies in the ring without wrapping. -/
theorem burst_fits {s : State} {st : Nat} {x : Staged} {n : Nat} {p : List (Staged × Nat)} (h : nextBurst s st = (x, n) :: p) :
    (16 * x.pos + x.acked) % ringBytes (s.ring x.ring) + n ≤ ringBytes (s.ring x.ring) := by
  obtain ⟨-, hroom, -⟩ := nextBurst_cons h
  have hoff := burstOff_lt s x
  unfold burstRoom at hroom
  unfold burstOff at *
  omega

/-! What waits for a free bank, or for a drained ring. -/

theorem bankFreed_idle {s : State} (hlate : s.harv.late = []) (hends : s.harv.ends = []) : bankFreed s = s := by
  unfold bankFreed
  rw [hlate]
  change retryEnds s s.harv.ends = s
  rw [hends]
  rfl

theorem drainCheck_of_none {s : State} (h : s.fw.current = none) : drainCheck s = s := by
  unfold drainCheck
  rw [h]

/-! The answers of DRAM. -/

theorem exec_dramBurstResponse {s : State} {st : Fin 17} {r : BurstResponse} {x : Staged} {n : Nat} {l : List (Staged × Nat)}
    (hsleep : s.clk.dramSleep = false) (hburst : nextBurst s st.val = (x, n) :: l) :
    exec (.dramBurstResponse st r none) s =
      .next (drainCheck (if r = .ack then burstAcked s st.val ((x, n) :: l) else burstFailed s st.val x.ring ((x, n) :: l))) := by
  change execDramBurstResponse st r none s = _
  unfold execDramBurstResponse
  rw [hsleep]
  dsimp only
  rw [hburst]
  rfl

/-- The bytes of a record that a burst carries, in DRAM. -/
def burstWritten (s : State) (x : Staged) (n : Nat) : State :=
  ringWrite s (s.ring x.ring) (16 * x.pos + x.acked) ((x.bytes.drop x.acked).take n)

/-- An acknowledged burst that leaves its record unfinished. -/
theorem burstAcked_part {s : State} {st n : Nat} {x : Staged} (h : x.acked + n < 16 * x.len) (hlate : s.harv.late = [])
    (hends : s.harv.ends = []) :
    burstAcked s st [(x, n)] = (burstWritten s x n).modStager st (fun g =>
      { setWriting g ({ x with acked := x.acked + n } :: (writing g).drop 1) with fails := 0 }) := by
  have hnot : ¬ 16 * x.len ≤ x.acked + n := by omega
  unfold burstAcked
  simp only [List.foldl_cons, List.foldl_nil, List.filter_cons, List.filter_nil, h, hnot, decide_true, decide_false, if_true,
    List.map_cons, List.map_nil, List.length_cons, List.length_nil]
  exact bankFreed_idle hlate hends

/-- An acknowledged burst that ends its record. -/
theorem burstAcked_whole {s : State} {st n : Nat} {x : Staged} (h : 16 * x.len ≤ x.acked + n) :
    burstAcked s st [(x, n)] = bankFreed (markWritten (noteWritten ((burstWritten s x n).modStager st (fun g =>
      { setWriting g ((writing g).drop 1) with fails := 0 })) x) x.ring x.seq) := by
  have hnot : ¬ x.acked + n < 16 * x.len := by omega
  unfold burstAcked
  simp only [List.foldl_cons, List.foldl_nil, List.filter_cons, List.filter_nil, h, hnot, decide_true, decide_false, if_true,
    List.length_cons, List.length_nil]
  rfl

theorem noteWritten_ring (s : State) (x : Staged) (k : Nat) : (noteWritten s x).ring k = s.ring k := by
  unfold noteWritten
  split <;> rfl

theorem noteWritten_harv (s : State) (x : Staged) : (noteWritten s x).harv = s.harv := by
  unfold noteWritten
  split <;> rfl

theorem noteWritten_prog (s : State) (x : Staged) (k : Nat) :
    (noteWritten s x).prog k = if k = x.tag ∧ x.tag ≠ 0 then { s.prog x.tag with lastSeq := x.seq, ring := w16 x.ring } else s.prog k := by
  unfold noteWritten
  by_cases htag : x.tag = 0
  · simp [htag]
  · simp [htag]

/-- What a record that is written whole leaves of the harvest engine but for its ring. -/
theorem markWritten_harv (s : State) (r seq : Nat) :
    (markWritten s r seq).harv.stager = s.harv.stager ∧ (markWritten s r seq).harv.late = s.harv.late ∧
    (markWritten s r seq).harv.ends = s.harv.ends := by
  have hnotify : ∀ u : State, (notifyUnitsCheck u r).harv.stager = u.harv.stager ∧ (notifyUnitsCheck u r).harv.late = u.harv.late ∧
      (notifyUnitsCheck u r).harv.ends = u.harv.ends := by
    intro u
    have hroot : ∀ arg payload, (sendRoot u 0x08 arg payload).harv = u.harv :=
      fun arg payload => only_harv (sendRoot_only (w := 69632) rfl only_refl)
    unfold notifyUnitsCheck
    dsimp only
    split
    · unfold sendNotify
      dsimp only
      simp only [State.modRing]
      rw [hroot]
      exact ⟨rfl, rfl, rfl⟩
    · exact ⟨rfl, rfl, rfl⟩
  unfold markWritten advanceRing
  dsimp only
  split
  · exact ⟨rfl, rfl, rfl⟩
  · exact hnotify _

/-- The last record of a ring that is written whole is passed by WR_POS. -/
theorem markWritten_last {s : State} {r seq : Nat} {p : Placed} (hplaced : (s.ring r).placed = [p]) (hseq : p.seq = seq) :
    ((markWritten s r seq).ring r).wr = ((s.ring r).wr + p.len) % 2 ^ 32 ∧ ((markWritten s r seq).ring r).placed = [] := by
  have hpass : passDone [{ p with done := true, hold := false }] (s.ring r).wr = ([], ((s.ring r).wr + p.len) % two32) := rfl
  have hmap : (s.ring r).placed.map (fun x => if x.seq = seq then { x with done := true, hold := false } else x) =
      [{ p with done := true, hold := false }] := by
    rw [hplaced]
    simp [hseq]
  unfold markWritten advanceRing
  dsimp only
  simp only [State.modRing_ring, if_true, hmap, hpass, List.length_nil, List.length_cons]
  rw [if_neg (by simp), notifyUnitsCheck_ring_same]
  simp [two32]

/-- The writer's next record, once poisoned. -/
theorem writing_setWriting {g : Stager} {l : List Staged} (hl : l ≠ []) (hw : writing g ≠ []) : writing (setWriting g l) = l := by
  obtain ⟨fillB, bankA, bankB, handed, fails, fills⟩ := g
  cases fills with
  | cons y ys =>
    cases l with
    | nil => exact absurd rfl hl
    | cons z zs => rfl
  | nil =>
    cases l with
    | nil => exact absurd rfl hl
    | cons z zs => cases fillB <;> rfl

/-! A failed burst. -/

theorem writeRetry_event : srcEvent 0x15 2 = true := by decide
theorem writeFail_event : srcEvent 0x15 3 = true := by decide
theorem stageParity_event : srcEvent 0x15 1 = true := by decide

theorem burstFailed_retry {s : State} {st r : Nat} {parts : List (Staged × Nat)} (h : (s.stager st).fails < 3) :
    burstFailed s st r parts = (s.raise 0x15 2 r).modStager st (fun g => { g with fails := (s.stager st).fails + 1 }) := by
  have hstager : ((s.raise 0x15 2 r).stager st).fails = (s.stager st).fails := by rw [raise_event writeRetry_event]; rfl
  unfold burstFailed
  dsimp only
  rw [hstager, if_pos (by omega)]

/-- The fourth failure: the record's writing is given up. -/
def burstGivenUp (s : State) (st r n : Nat) : State :=
  ((s.raise 0x15 2 r).raise 0x15 3 r).modStager st (fun g => { setWriting g ((writing g).drop n) with fails := 0 })

theorem burstGivenUp_parts (s : State) (st r n : Nat) :
    burstGivenUp s st r n = { s.modStager st (fun g => { setWriting g ((writing g).drop n) with fails := 0 }) with
      flt := { s.flt with waiting := (burstGivenUp s st r n).flt.waiting } } := by
  unfold burstGivenUp
  rw [raise_event writeRetry_event, raise_event writeFail_event]
  rfl

theorem burstGivenUp_waiting (s : State) (st r n : Nat) :
    ∃ d ∈ (burstGivenUp s st r n).flt.waiting, d.block = 0x15 ∧ d.source = 3 ∧ d.d0 = w16 r := by
  unfold burstGivenUp
  rw [raise_event writeRetry_event, raise_event writeFail_event]
  exact ⟨_, List.mem_append_right _ (List.mem_singleton_self _), rfl, rfl, rfl⟩

theorem burstFailed_record {s : State} {st r : Nat} {parts : List (Staged × Nat)} (h : (s.stager st).fails = 3)
    (hfills : (s.stager st).fills = []) (hlate : s.harv.late = []) (hends : s.harv.ends = []) :
    burstFailed s st r parts = (burstGivenUp s st r parts.length).modStager st
      (fun g => { g with fills := g.fills ++ parts.map (fun p => fillOf (burstGivenUp s st r parts.length) 0x14 p.1) }) := by
  have hstager : ((s.raise 0x15 2 r).stager st) = s.stager st := by rw [raise_event writeRetry_event]; rfl
  have hstager' : (((s.raise 0x15 2 r).raise 0x15 3 r).stager st) = s.stager st := by
    rw [raise_event writeRetry_event, raise_event writeFail_event]; rfl
  unfold burstFailed
  dsimp only
  rw [hstager, h, if_neg (by decide), hstager', hfills]
  refine bankFreed_idle ?_ ?_
  · simp only [State.modStager]
    rw [raise_event writeRetry_event, raise_event writeFail_event]
    exact hlate
  · simp only [State.modStager]
    rw [raise_event writeRetry_event, raise_event writeFail_event]
    exact hends

theorem burstFailed_fill {s : State} {st r : Nat} {parts : List (Staged × Nat)} (h : (s.stager st).fails = 3)
    (hfills : (s.stager st).fills ≠ []) (hlate : s.harv.late = []) (hends : s.harv.ends = []) :
    burstFailed s st r parts = failRing (burstGivenUp s st r parts.length) r := by
  have hstager : ((s.raise 0x15 2 r).stager st) = s.stager st := by rw [raise_event writeRetry_event]; rfl
  have hstager' : (((s.raise 0x15 2 r).raise 0x15 3 r).stager st) = s.stager st := by
    rw [raise_event writeRetry_event, raise_event writeFail_event]; rfl
  have hsome : (!(s.stager st).fills.isEmpty) = true := by
    cases hf : (s.stager st).fills with
    | nil => exact absurd hf hfills
    | cons x l => rfl
  unfold burstFailed
  dsimp only
  rw [hstager, h, if_neg (by decide), hstager', hsome]
  refine bankFreed_idle (s := failRing (burstGivenUp s st r parts.length) r) ?_ ?_
  · unfold failRing
    rw [burstGivenUp_parts]
    exact hlate
  · unfold failRing
    rw [burstGivenUp_parts]
    exact hends

theorem setWriting_fills {g : Stager} (h : g.fills = []) (l : List Staged) : (setWriting g l).fills = [] := by
  obtain ⟨fillB, bankA, bankB, handed, fails, fills⟩ := g
  cases h
  cases fillB <;> rfl

theorem failRing_ring (s : State) (r k : Nat) :
    (failRing s r).ring k = if k = r then { s.ring r with state := .failed, loss := none, placed := [] } else s.ring k := by
  change (s.modRing r (fun c => { c with state := .failed, loss := none, placed := [] })).ring k = _
  rw [State.modRing_ring]

/-- A message of the part in a class other than URGENT: queued at the root-side port, and numbered. -/
theorem sendRoot_eq {s : State} {mtype : Nat} (arg payload : List Byte) (h : msgClass mtype ≠ 0) :
    sendRoot s mtype arg payload = { s with link := { (s.modCls 0 (msgClass mtype) (fun q => { q with
      queue := q.queue ++ [(false, msgBytes mtype 0x7E s.link.addr 0 s.link.mtag.toNat arg payload)] })).link with
      mtag := s.link.mtag + 1 } } := by
  have hq : queueFull s 0 (msgClass mtype) = false := by simp [queueFull, h]
  unfold sendRoot enqueue enqueueFrom
  rw [hq]
  rfl

theorem sendNotify_eq (s : State) (r : Nat) : ∃ arg payload,
    sendNotify s r = (sendRoot s 0x08 arg payload).modRing r (fun c => { c with armed := false, advanced := none }) := ⟨_, _, rfl⟩

/-! A parity failure. -/

/-- The record with POISON in its header. -/
def poisoned (x : Staged) : Staged := { x with bytes := putAt 1 [x.bytes.getD 1 0 ||| 1] x.bytes }

theorem poisoned_bytes {x : Staged} (h : 2 ≤ x.bytes.length) :
    (poisoned x).bytes.length = x.bytes.length ∧ ((poisoned x).bytes.getD 1 0).getLsbD 0 = true := by
  obtain ⟨a, b, l, hl⟩ : ∃ a b l, x.bytes = a :: b :: l := by
    match hx : x.bytes, h with
    | a :: b :: l, _ => exact ⟨a, b, l, rfl⟩
  have hput : (poisoned x).bytes = a :: (b ||| 1) :: l := by
    unfold poisoned
    rw [hl]
    rfl
  rw [hput, hl]
  exact ⟨rfl, by simp⟩

/-- The parity failure of a word of a burst that carries one record not yet begun. -/
theorem badParity_of_single {s : State} {st w n : Nat} {x : Staged} (hburst : nextBurst s st = [(x, n)]) (hw : 2 * w < n)
    (hacked : x.acked = 0) :
    badParity s st w = (s.raise 0x15 1 st (if (s.stager st).fillB then 0 else 1)).modStager st
      (fun g => setWriting g ((writing g).map (fun y => if y = x then poisoned x else y))) := by
  have hholder : burstHolder (2 * w) (nextBurst s st) = some x := by
    rw [hburst, burstHolder, if_pos hw]
  have hmap : ∀ y : Staged, (if y = x then { y with bytes := putAt 1 [x.bytes.getD 1 0 ||| 1] y.bytes } else y) = if y = x then poisoned x else y := by
    intro y
    split
    next h => rw [h]; rfl
    next => rfl
  unfold badParity
  rw [hholder]
  change poisonRecord _ st x = _
  unfold poisonRecord
  dsimp only
  rw [hacked, if_neg (by decide)]
  simp only [hmap]

/-- The burst after it carries the poisoned record. -/
theorem nextBurst_badParity {s : State} {st w n : Nat} {x : Staged} (hburst : nextBurst s st = [(x, n)]) (hw : 2 * w < n)
    (hacked : x.acked = 0) (hpart : n < 16 * x.len) :
    nextBurst (badParity s st w) st = [(poisoned x, n)] ∧ writing ((badParity s st w).stager st) ≠ [] := by
  obtain ⟨⟨l, hl⟩, -, -⟩ := nextBurst_cons hburst
  have hwriting : writing ((badParity s st w).stager st) = poisoned x :: l.map (fun y => if y = x then poisoned x else y) := by
    have hraise : (s.raise 0x15 1 st (if (s.stager st).fillB then 0 else 1)).stager st = s.stager st := by
      rw [raise_event stageParity_event]
      rfl
    rw [badParity_of_single hburst hw hacked, State.modStager_stager, if_pos rfl, hraise, hl]
    refine (writing_setWriting (by simp) (by rw [hl]; simp)).trans ?_
    simp
  have hring : ∀ r, (badParity s st w).ring r = s.ring r := by
    intro r
    rw [badParity_of_single hburst hw hacked, State.modStager_ring, raise_ring]
  have hroom : burstRoom (badParity s st w) (poisoned x) = burstRoom s x := by
    unfold burstRoom burstOff
    rw [hring]
    rfl
  rw [nextBurst_eq hl] at hburst
  refine ⟨?_, by rw [hwriting]; simp⟩
  rw [nextBurst_eq hwriting, hroom]
  split at hburst
  next hlt =>
    cases hburst
    exact if_pos hlt
  next hge =>
    have hn : 16 * x.len - x.acked = n := congrArg Prod.snd (List.cons.inj hburst).1
    omega

/-- Settles O42: a burst lies within its ring's bytes, and each answer to it by the case of the answer. -/
theorem harvestEvents : Obligations.HarvestEvents := by
  unfold Obligations.HarvestEvents
  refine ⟨?handoff, ?noHandoff, ?burst, ?part, ?whole, ?retry, ?abandon, ?fillFails, ?parity, ?asleep, ?notify, ?noNotify⟩
  case handoff =>
    intro st s x l hfill hhanded
    refine ⟨handOver (s.reach (x.entered + 25600)) st.val, ?_, ?_, rfl, fun k hk => ?_, rfl⟩
    · change execBankHandoffTimeout st s = _
      unfold execBankHandoffTimeout
      rw [hfill, hhanded]
      rfl
    · exact (State.modStager_stager _ _ _ _).trans (if_pos rfl)
    · exact (State.modStager_stager _ _ _ _).trans (if_neg hk)
  case noHandoff =>
    intro st s h
    change execBankHandoffTimeout st s = _
    unfold execBankHandoffTimeout
    rcases h with h | h
    · rw [h]
    · split <;> simp [h]
  case burst =>
    intro s st x l off room hw hoff hroom
    obtain rfl : off = burstOff s x := hoff
    obtain rfl : room = burstRoom s x := hroom
    refine ⟨fun hlt => ?_, fun hle => ?_, ?_⟩
    · rw [nextBurst_eq hw, if_pos hlt]
    · rw [nextBurst_eq hw, if_neg (Nat.not_lt.2 hle)]
      rfl
    · unfold nextBurst
      rw [hw]
      exact sum_burstParts_le _ _ _ _ _
  case part =>
    intro st s x n hsleep hcur hends hlate hburst hlen hpart
    have hfit := burst_fits hburst
    have hbytes : ((x.bytes.drop x.acked).take n).length = n := by
      rw [List.length_take, List.length_drop, hlen]
      omega
    have hacked : drainCheck (if BurstResponse.ack = .ack then burstAcked s st.val [(x, n)] else burstFailed s st.val x.ring [(x, n)]) =
        burstAcked s st.val [(x, n)] := by
      rw [if_pos rfl, burstAcked_part hpart hlate hends]
      exact drainCheck_of_none hcur
    refine ⟨burstAcked s st.val [(x, n)], by rw [exec_dramBurstResponse hsleep hburst, hacked], ?_⟩
    rw [burstAcked_part hpart hlate hends]
    have hdram := tget_ringWrite s (c := s.ring x.ring) (off := 16 * x.pos + x.acked) (bytes := (x.bytes.drop x.acked).take n)
      (by rw [hbytes]; exact hfit)
    rw [hbytes] at hdram
    refine ⟨fun i hi => ?_, fun a ha => ?_, ?_, fun k => rfl, fun k hk => ?_, rfl⟩
    · refine (hdram _).trans ?_
      rw [if_pos (by omega)]
      simp [List.getD_eq_getElem?_getD, hi, List.getElem?_drop]
    · exact (hdram a).trans (if_neg (by omega))
    · exact (State.modStager_stager _ _ _ _).trans (if_pos rfl)
    · exact (State.modStager_stager _ _ _ _).trans (if_neg hk)
  case whole =>
    intro st s x n p hsleep hcur hends hlate hburst hwhole hplaced hseq hlen
    have hmark := burstAcked_whole (s := s) (st := st.val) (n := n) (x := x) (by omega)
    generalize hu : noteWritten ((burstWritten s x n).modStager st.val (fun g => { setWriting g ((writing g).drop 1) with fails := 0 })) x = u
      at hmark
    have hring : ∀ k, u.ring k = s.ring k := fun k => by rw [← hu, noteWritten_ring]; rfl
    have hharv : u.harv = ((burstWritten s x n).modStager st.val (fun g => { setWriting g ((writing g).drop 1) with fails := 0 })).harv := by
      rw [← hu, noteWritten_harv]
    obtain ⟨hstager, hmlate, hmends⟩ := markWritten_harv u x.ring x.seq
    rw [bankFreed_idle (by rw [hmlate, hharv]; exact hlate) (by rw [hmends, hharv]; exact hends)] at hmark
    have hfw : (markWritten u x.ring x.seq).fw = u.fw := only_fw (markWritten_only (w := 71680) rfl only_refl)
    have hcur' : (markWritten u x.ring x.seq).fw.current = none := by
      rw [hfw, ← hu]
      unfold noteWritten
      split <;> exact hcur
    have hprog : ∀ k, (markWritten u x.ring x.seq).prog k = (noteWritten s x).prog k := by
      intro k
      unfold State.prog
      rw [hfw, ← hu]
      unfold noteWritten
      split <;> rfl
    obtain ⟨hwr, hpl⟩ := markWritten_last (s := u) (r := x.ring) (seq := x.seq) (by rw [hring]; exact hplaced) hseq
    refine ⟨markWritten u x.ring x.seq, ?_, ?_, hpl, fun htag => ?_, fun k hk => ?_, ?_, fun k hk => ?_, fun k hk => ?_⟩
    · rw [exec_dramBurstResponse hsleep hburst, if_pos rfl, hmark, drainCheck_of_none hcur']
    · rw [hwr, hring, hlen]
    · rw [hprog, noteWritten_prog, if_pos ⟨rfl, htag⟩]
    · rw [hprog, noteWritten_prog, if_neg (by tauto)]
    · unfold State.stager
      rw [hstager, hharv]
      exact (State.modStager_stager _ _ _ _).trans (if_pos rfl)
    · rw [markWritten_ring_ne _ _ hk, hring]
    · unfold State.stager
      rw [hstager, hharv]
      exact (State.modStager_stager _ _ _ _).trans (if_neg hk)
  case retry =>
    intro st s r x n l hsleep hcur hburst hr hfails
    refine ⟨burstFailed s st.val x.ring ((x, n) :: l), ?_, ?_⟩
    · rw [exec_dramBurstResponse hsleep hburst, if_neg hr, burstFailed_retry hfails, raise_event writeRetry_event]
      exact congrArg _ (drainCheck_of_none hcur)
    · rw [burstFailed_retry hfails, raise_event writeRetry_event]
      refine ⟨(State.modStager_stager _ _ _ _).trans (if_pos rfl), ⟨_, List.mem_append_right _ (List.mem_singleton_self _), rfl, rfl, rfl⟩,
        fun k hk => (State.modStager_stager _ _ _ _).trans (if_neg hk), rfl⟩
  case abandon =>
    intro st s r x n hsleep hcur hends hlate hburst hr hfails hfills
    have hfail := burstFailed_record (r := x.ring) (parts := [(x, n)]) hfails hfills hlate hends
    have hgiven := burstGivenUp_parts s st.val x.ring [(x, n)].length
    obtain ⟨d, hd, hblock, hsource, hd0⟩ := burstGivenUp_waiting s st.val x.ring [(x, n)].length
    have hfills' : ((burstGivenUp s st.val x.ring [(x, n)].length).stager st.val).fills = [] := by
      rw [hgiven]
      change ((s.modStager st.val _).stager st.val).fills = []
      rw [State.modStager_stager, if_pos rfl]
      exact setWriting_fills hfills _
    refine ⟨burstFailed s st.val x.ring [(x, n)], fillOf (burstGivenUp s st.val x.ring [(x, n)].length) 0x14 x, ?_, ?_⟩
    · rw [exec_dramBurstResponse hsleep hburst, if_neg hr, hfail]
      refine congrArg _ (drainCheck_of_none ?_)
      change (burstGivenUp s st.val x.ring [(x, n)].length).fw.current = none
      rw [hgiven]
      exact hcur
    · rw [hfail]
      refine ⟨?_, rfl, rfl, rfl, rfl, rfl, rfl, ?_, ⟨d, hd, hblock, hsource, hd0⟩, fun k hk => ?_, ?_⟩
      · rw [State.modStager_stager, if_pos rfl, hfills']
        rfl
      · rw [State.modStager_stager, if_pos rfl]
        change ((burstGivenUp s st.val x.ring [(x, n)].length).stager st.val).fails = 0
        rw [hgiven]
        change ((s.modStager st.val _).stager st.val).fails = 0
        rw [State.modStager_stager, if_pos rfl]
      · rw [State.modStager_stager, if_neg hk, hgiven]
        change (s.modStager st.val _).stager k = _
        rw [State.modStager_stager, if_neg hk]
      · simp only [State.modStager]
        rw [hgiven]
        rfl
  case fillFails =>
    intro st s r x n l hsleep hcur hends hlate hburst hr hfails hfills
    have hfail := burstFailed_fill (r := x.ring) (parts := (x, n) :: l) hfails hfills hlate hends
    have hgiven := burstGivenUp_parts s st.val x.ring ((x, n) :: l).length
    have hring : ∀ k, (burstGivenUp s st.val x.ring ((x, n) :: l).length).ring k = s.ring k := fun k => by rw [hgiven]; rfl
    have hfailed : ∀ k, (burstFailed s st.val x.ring ((x, n) :: l)).ring k =
        if k = x.ring then { s.ring x.ring with state := .failed, loss := none, placed := [] } else s.ring k := by
      intro k
      rw [hfail, failRing_ring, hring, hring]
    refine ⟨burstFailed s st.val x.ring ((x, n) :: l), ?_, ?_, fun m => ?_, fun k hk => ?_⟩
    · rw [exec_dramBurstResponse hsleep hburst, if_neg hr]
      refine congrArg _ (drainCheck_of_none ?_)
      rw [hfail]
      change (burstGivenUp s st.val x.ring ((x, n) :: l).length).fw.current = none
      rw [hgiven]
      exact hcur
    · rw [hfailed, if_pos rfl]
    · simp [canReserve, hfailed]
    · rw [hfailed, if_neg hk]
  case parity =>
    intro st s w x n hsleep hcur hends hlate hfills hburst hacked hlen hn hw hpart
    obtain ⟨hnext, -⟩ := nextBurst_badParity hburst hw hacked hpart
    obtain ⟨hplen, hpbit⟩ := poisoned_bytes (x := x) (by omega)
    have hbad := badParity_of_single hburst hw hacked
    rw [raise_event stageParity_event] at hbad
    have hring : (badParity s st.val w.val).ring x.ring = s.ring x.ring := by rw [hbad]; rfl
    have hack := burstAcked_part (s := badParity s st.val w.val) (st := st.val) (n := n) (x := poisoned x) (by
      change x.acked + n < 16 * x.len
      omega) (by rw [hbad]; exact hlate) (by rw [hbad]; exact hends)
    refine ⟨burstAcked (badParity s st.val w.val) st.val [(poisoned x, n)], ?_, ?_, ?_⟩
    · change execDramBurstResponse st .ack (some w) s = _
      unfold execDramBurstResponse
      rw [hsleep]
      dsimp only
      rw [hfills]
      change Host.Outcome.next (match nextBurst (badParity s st.val w.val) st.val with
        | [] => badParity s st.val w.val
        | (x, n) :: l => drainCheck (burstAcked (badParity s st.val w.val) st.val ((x, n) :: l))) = _
      rw [hnext]
      refine congrArg _ (drainCheck_of_none ?_)
      rw [hack, hbad]
      exact hcur
    · have hbytes : (((poisoned x).bytes.drop (poisoned x).acked).take n).length = n := by
        rw [List.length_take, List.length_drop, hplen, hlen]
        change min n (16 * x.len - x.acked) = n
        omega
      have hfit := burst_fits hnext
      have hdram := tget_ringWrite (badParity s st.val w.val) (c := (badParity s st.val w.val).ring x.ring)
        (off := 16 * x.pos + x.acked) (bytes := ((poisoned x).bytes.drop (poisoned x).acked).take n) (by rw [hbytes]; exact hfit)
        ((s.ring x.ring).base + 16 * x.pos % ringBytes (s.ring x.ring) + 1)
      rw [hbytes, hring, hacked, Nat.add_zero, if_pos (by omega), Nat.add_sub_cancel_left] at hdram
      rw [hack]
      refine (congrArg (BitVec.getLsbD · 0) ?_).trans hpbit
      refine Eq.trans ?_ (hdram.trans ?_)
      · unfold burstWritten
        rw [show (poisoned x).ring = x.ring from rfl, hring, show (poisoned x).pos = x.pos from rfl, show (poisoned x).acked = x.acked from rfl,
          hacked, Nat.add_zero]
        rfl
      · rw [show (poisoned x).acked = x.acked from rfl, hacked, List.drop_zero]
        simp [List.getD_eq_getElem?_getD, show 1 < n by omega]
    · rw [hack, hbad]
      exact ⟨_, List.mem_append_right _ (List.mem_singleton_self _), rfl, rfl, rfl⟩
  case asleep =>
    intro st r bad s h
    change execDramBurstResponse st r bad s = _
    unfold execDramBurstResponse
    cases hsleep : s.clk.dramSleep with
    | true => rfl
    | false =>
      have hnil := nextBurst_of_nil (h.resolve_left (by simp [hsleep]))
      have hparity : ∀ w, badParity s st.val w = s := by
        intro w
        unfold badParity
        rw [hnil]
        rfl
      cases bad with
      | none =>
        dsimp only
        rw [hnil]
        rfl
      | some w =>
        dsimp only
        rw [hparity, ite_self, hnil]
        rfl
  case notify =>
    intro ring s ts hadv harmed hus
    obtain ⟨arg, payload, hsend⟩ := sendNotify_eq (s.reach (ts + 3200 * (s.ring ring.toNat).notifyUs)) ring.toNat
    rw [sendRoot_eq arg payload (by decide)] at hsend
    refine ⟨sendNotify (s.reach (ts + 3200 * (s.ring ring.toNat).notifyUs)) ring.toNat, ?_, ?_, ?_, ?_, fun k hk => ?_, ?_⟩
    · change execNotifyTimeout ring s = _
      unfold execNotifyTimeout
      dsimp only
      rw [hadv, harmed]
      simp [hus]
    · rw [sendNotify_ring, if_pos rfl]
      rfl
    · rw [hsend]
      rfl
    · rw [hsend]
      rfl
    · rw [sendNotify_ring, if_neg hk]
      rfl
    · rw [hsend]
      rfl
  case noNotify =>
    intro ring s h
    change execNotifyTimeout ring s = _
    unfold execNotifyTimeout
    dsimp only
    rcases h with h | h | h
    · rw [h]
    · split <;> simp [h]
    · split <;> simp [h]

end Sys2Proof.Machine
end

section
/-! PROOFS. FAULT_CONFIG, FAULT_FORCE and PERTURB_SET (R511, R528 to R534). -/

set_option Elab.async false

namespace Sys2Proof.Machine

/-! Reaction words. -/

theorem setReact_react (s : State) (k i : Nat) (w : Word) {k' n : Nat} (hi : i < 64) (hn : n < 64) :
    (s.setReact k i w).react k' n = if k' = k ∧ n = i then w else s.react k' n := by
  refine (tget_tset _ _ _ _ _).trans ?_
  have hkey : 64 * k' + n = 64 * k + i ↔ k' = k ∧ n = i := by omega
  simp only [hkey]
  rfl

/-- FAULT_CONFIG's write of `m` reaction words of block `k`, from source `a` on. -/
def setReacts (a m : Nat) (f : Nat → Word) (s : State) (k : Nat) : State :=
  (List.range m).foldl (fun s i => s.setReact k (a + i) (f i)) s

theorem setReacts_react {a m : Nat} (f : Nat → Word) (s : State) (k : Nat) {k' n : Nat} (hfit : a + m ≤ 64) (hn : n < 64) :
    (setReacts a m f s k).react k' n = if k' = k ∧ a ≤ n ∧ n < a + m then f (n - a) else s.react k' n := by
  unfold setReacts
  induction m with
  | zero => rw [List.range_zero, List.foldl_nil, if_neg (by omega)]
  | succ m ih =>
    rw [List.range_succ, List.foldl_append, List.foldl_cons, List.foldl_nil, setReact_react _ _ _ _ (by omega) hn, ih (by omega)]
    by_cases hlast : k' = k ∧ n = a + m
    · obtain ⟨rfl, rfl⟩ := hlast
      rw [if_pos ⟨rfl, rfl⟩, if_pos (by omega), Nat.add_sub_cancel_left]
    · rw [if_neg hlast]
      exact if_congr (by omega) rfl rfl

theorem setReacts_parts (a m : Nat) (f : Nat → Word) (s : State) (k : Nat) :
    { setReacts a m f s k with flt := { (setReacts a m f s k).flt with react := [] } } = { s with flt := { s.flt with react := [] } } :=
  foldl_same (F := fun s : State => { s with flt := { s.flt with react := [] } })
    (step := fun s i => s.setReact k (a + i) (f i)) (fun _ _ => rfl) _ s

theorem foldl_setReacts_react {a m : Nat} (f : Nat → Word) (s : State) {l : List Nat} (hl : l.Nodup) {k n : Nat} (hfit : a + m ≤ 64)
    (hn : n < 64) :
    (l.foldl (setReacts a m f) s).react k n = if k ∈ l ∧ a ≤ n ∧ n < a + m then f (n - a) else s.react k n := by
  have hkeyed := foldl_keyed (get := fun s k => State.react s k n) (step := setReacts a m f)
    (f := fun _ w => if a ≤ n ∧ n < a + m then f (n - a) else w) (fun s k j => by
      rw [setReacts_react f s k hfit hn]
      by_cases hj : j = k
      · simp [hj]
      · simp [hj]) hl s k
  rw [hkeyed]
  by_cases hk : k ∈ l
  · simp [hk]
  · simp [hk]

theorem foldl_setReacts_parts (a m : Nat) (f : Nat → Word) (l : List Nat) (s : State) :
    l.foldl (setReacts a m f) s = { s with flt := { s.flt with react := (l.foldl (setReacts a m f) s).flt.react } } :=
  congrArg (fun v : State => { v with flt := { v.flt with react := (l.foldl (setReacts a m f) s).flt.react } })
    (foldl_same (F := fun s : State => { s with flt := { s.flt with react := [] } }) (step := setReacts a m f)
      (setReacts_parts a m f) l s)

/-- The reaction words that FAULT_CONFIG carries (R532). -/
def configWords (c : Current) : List Word := (List.range (par c 2)).map (fun i => w16 (par c (4 + i)))

theorem getD_configWords {c : Current} {i : Nat} (h : i < par c 2) : (configWords c).getD i 0 = w16 (par c (4 + i)) := by
  simp [configWords, List.getD_eq_getElem?_getD, h]

theorem srcCount_le : ∀ k < 28, srcCount k ≤ 64 := by decide

theorem nodup_configBlocks (n : Nat) : (configBlocks n).Nodup := by
  unfold configBlocks
  split
  · exact List.nodup_range
  · exact List.nodup_singleton n

/-- The hypotheses under which FAULT_CONFIG's words 1 and 2 are in range, for blocks of `n` sources. -/
abbrev ConfigFits (c : Current) (n : Nat) : Prop := 1 ≤ par c 2 ∧ par c 2 ≤ 64 ∧ par c 1 + par c 2 ≤ n

theorem configChecks_write {c : Current} {n : Nat} (hblock : (par c 0 < 28 ∧ n = srcCount (par c 0)) ∨ (par c 0 = 0x1F ∧ n = srcCount 0))
    (hfit : ConfigFits c n) (hflags : par c 3 < 2) : firstBad (configChecks c false) = none := by
  have hbits : needBits c 3 1 = none := needBits_eq_none.2 hflags
  obtain ⟨hpos, hmax, hn⟩ := hfit
  have hfirst : par c 1 < n := by omega
  rcases hblock with ⟨hk, rfl⟩ | ⟨hk, rfl⟩
  · have hne : par c 0 ≠ 31 := by omega
    simp [configChecks, hk, hne, hpos, hmax, hn, hfirst, hbits]
  · simp [configChecks, hk, hpos, hmax, hn, hfirst, hbits]

theorem needEach_of {α : Type} {l : List α} {ok : α → Bool} (base : Nat) (h : ∀ x ∈ l, ok x = true) : needEach l base ok = none := by
  have hfind : firstIdx l (fun x => !ok x) = none := List.findIdx?_eq_none_iff.2 fun x hx => by simp [h x hx]
  rw [needEach, hfind]

theorem needEach_configWords {c : Current} (hlegal : ∀ i, i < par c 2 → reactLegal (w16 (par c (4 + i))) = true) :
    needEach (configWords c) 4 reactLegal = none :=
  needEach_of 4 fun w hw => by
    obtain ⟨i, hi, rfl⟩ := List.mem_map.1 hw
    exact hlegal i (List.mem_range.1 hi)

/-- FAULT_CONFIG's effect: its words in every block it names. -/
def writeReacts (s : State) (c : Current) : State :=
  (configBlocks (par c 0)).foldl (setReacts (par c 1) (par c 2) (fun i => (configWords c).getD i 0)) s

theorem writeReacts_parts (s : State) (c : Current) :
    writeReacts s c = { s with flt := { s.flt with react := (writeReacts s c).flt.react } } := foldl_setReacts_parts _ _ _ _ s

/-- A FAULT_CONFIG that writes legal words in range writes them in every block it names. -/
theorem exec_faultConfig {s : State} {c : Current} (h : Picked s 0x0C00 c) (hpass : firstBad (configChecks c false) = none)
    (hfit : par c 1 + par c 2 ≤ 64) (hflags : par c 3 = 0) (hlegal : ∀ i, i < par c 2 → reactLegal (w16 (par c (4 + i))) = true) :
    ∃ u t, exec .faultConfig s = .next t ∧ Answered c 0 0 [] u t ∧ u = { s with flt := { s.flt with react := u.flt.react } } ∧
      ∀ k n, n < 64 → u.react k n = (if k ∈ configBlocks (par c 0) ∧ par c 1 ≤ n ∧ n < par c 1 + par c 2 then w16 (par c (4 + (n - par c 1)))
        else s.react k n) := by
  obtain ⟨t, ht, hans⟩ : ∃ t, exec .faultConfig s = .next t ∧ Answered c 0 0 [] (writeReacts s c) t := by
    refine picked_ok (checks := configChecks c false ++ [needEach (configWords c) 4 reactLegal])
      (e := fun s => postOk (writeReacts s c)) h ?_ rfl ?_ rfl ?_
    · change (!bit (par c 3) 0) = true
      rw [hflags]
      rfl
    · rw [firstBad_append (firstBad_eq_none.1 hpass), needEach_configWords hlegal]
      rfl
    · rw [writeReacts_parts]
      exact h.1
  refine ⟨_, t, ht, hans, writeReacts_parts s c, fun k n hn => ?_⟩
  rw [writeReacts, foldl_setReacts_react _ _ (nodup_configBlocks _) hfit hn]
  by_cases hk : k ∈ configBlocks (par c 0) ∧ par c 1 ≤ n ∧ n < par c 1 + par c 2
  · rw [if_pos hk, if_pos hk]
    exact getD_configWords (by omega)
  · rw [if_neg hk, if_neg hk]

theorem exec_faultConfig_bad {s : State} {c : Current} {st d : Nat} (h : Picked s 0x0C00 c) (hflags : par c 3 = 0)
    (hbad : firstBad (configChecks c false ++ [needEach (configWords c) 4 reactLegal]) = some (st, d)) :
    ∃ t, exec .faultConfig s = .next t ∧ Answered c st d [] s t := by
  refine picked_bad (checks := configChecks c false ++ [needEach (configWords c) 4 reactLegal])
    (e := fun s => postOk (writeReacts s c)) h ?_ rfl hbad
  change (!bit (par c 3) 0) = true
  rw [hflags]
  rfl

theorem reactLegal_iff (w : Word) : reactLegal w = true ↔ w.toNat < 64 ∧ w.toNat % 8 ≤ 4 := by
  rw [reactLegal, Bool.and_eq_true, decide_eq_true_iff, decide_eq_true_iff]
  exact Iff.rfl

/-! Forced faults. -/

theorem epochOf_ge (t : Nat) : t ≤ epochOf t := by
  change t ≤ (t + 15) / 16 * 16
  omega

theorem f3_epochOf (t : Nat) : f3 (epochOf t) = epochOf t := by
  change (t + 15) / 16 * 16 / 16 * 16 = (t + 15) / 16 * 16
  omega

/-- The checks of FAULT_FORCE on its words 0 and 1. -/
theorem forceChecks_words {c : Current} {l : List (Option Bad)} (hblock : par c 0 < 28) (hsrc : par c 1 < srcCount (par c 0)) :
    firstBad ([needParam (decide (par c 0 < 28)) 0, needParam (decide (par c 1 < srcCount (par c 0))) 1] ++ l) = firstBad l := by
  rw [firstBad_append (by simp [hblock, hsrc])]

/-- FAULT_FORCE with WHEN AT and T in range: the fault waits for its time. -/
def forceLater (s : State) (c : Current) : State :=
  { s with flt := { s.flt with forceAt := s.flt.forceAt ++ [(epochOf (par64 c 3), par c 0, par c 1)] } }

/-- FAULT_FORCE with WHEN NOW. -/
def forceNow (s : State) (c : Current) : State :=
  fireForced { s with flt := { s.flt with forceAt := s.flt.forceAt ++ [(epochOf s.clk.time, par c 0, par c 1)] } }
    (epochOf s.clk.time, par c 0, par c 1)

theorem forceNow_waiting (s : State) (c : Current) : ∃ d, (forceNow s c).flt.waiting = s.flt.waiting ++ [d] ∧ d.block = par c 0 ∧ d.source = par c 1 ∧
    d.forced = true ∧ d.stamp = epochOf s.clk.time := by
  refine ⟨_, rfl, rfl, rfl, rfl, ?_⟩
  change f3 (max s.clk.time (epochOf s.clk.time)) = epochOf s.clk.time
  rw [Nat.max_eq_right (epochOf_ge _), f3_epochOf]

theorem forceNow_forceAt (s : State) (c : Current) (h : (epochOf s.clk.time, par c 0, par c 1) ∉ s.flt.forceAt) :
    (forceNow s c).flt.forceAt = s.flt.forceAt := by
  change (s.flt.forceAt ++ [_]).erase _ = _
  rw [List.erase_append_right _ h, List.erase_cons_head, List.append_nil]

theorem forceNow_parts (s : State) (c : Current) :
    forceNow s c = { s with free := (forceNow s c).free, clk := { s.clk with time := epochOf s.clk.time }, bus := { s.bus with halfShed := none },
                            flt := { s.flt with waiting := (forceNow s c).flt.waiting, forceAt := (forceNow s c).flt.forceAt } } := by
  change _ = { s with free := (forceNow s c).free, clk := { s.clk with time := epochOf s.clk.time }, bus := _, flt := _ }
  rw [← Nat.max_eq_right (epochOf_ge s.clk.time)]
  rfl

theorem exec_faultForce_bad {s : State} {c : Current} {st d : Nat} (h : Picked s 0x0C01 c)
    (hbad : firstBad ([needParam (decide (par c 0 < 28)) 0, needParam (decide (par c 1 < srcCount (par c 0))) 1] ++ needWhen c 2 ++
      [if decide (par c 2 = 1) then needLead c (par64 c 3) 4 else none]) = some (st, d)) :
    ∃ t, exec .faultForce s = .next t ∧ Answered c st d [] s t := by
  exact picked_bad (k := fun c => _) h rfl rfl hbad

/-! The table of perturbations. -/

theorem modPert_parts (s : State) (k : Nat) (f : Perturb → Perturb) :
    s.modPert k f = { s with flt := { s.flt with entry := (s.modPert k f).flt.entry } } := rfl

/-- What PERTURB_SET writes into its entry (R529, R530, R534). -/
def perturbOf (c : Current) : Perturb :=
  if par c 2 = 0 then {} else
    { kind := par c 2, target := par c 3, amount := BitVec.ofNat 32 (par32 c 4), start := par64 c 6,
      window := par32 c 10, period := par32 c 12, repeats := par c 14 }

/-- The checks of PERTURB_SET. -/
def perturbSetChecks (s : State) (c : Current) : List (Option Bad) :=
  [needParam (decide (par c 0 < 16)) 0, needBits c 1 1] ++ perturbChecks c ++ [needState (!s.flt.armed) 29]

theorem exec_perturbSet {s : State} {c : Current} (h : Picked s 0x0C02 c) (hwrite : par c 1 = 0)
    (hpass : firstBad (perturbSetChecks s c) = none) :
    ∃ t, exec .perturbSet s = .next t ∧ Answered c 0 0 [] (s.modPert (par c 0) (fun _ => perturbOf c)) t := by
  refine picked_ok (checks := perturbSetChecks s c) (e := fun s => postOk (s.modPert (par c 0) (fun _ => perturbOf c))) h ?_ rfl hpass rfl h.1
  change (!bit (par c 1) 0) = true
  rw [hwrite]
  rfl

/-- Settles O57: a write of a range of keys in each block named, a fault raised or left waiting, and one entry of a table. -/
theorem faultCommands : Obligations.FaultCommands := by
  unfold Obligations.FaultCommands
  refine ⟨?write, ?writeAll, ?range, ?word, reactLegal_iff, ?read, ?readAll, ?now, ?later, ?late, ?source, ?set, ?clear, ?armed, ?entry, ?noEntry⟩
  case write =>
    intro s c h hk hpos hmax hn hflags hlegal
    obtain ⟨u, t, ht, hans, hu, hreact⟩ := exec_faultConfig h (configChecks_write (.inl ⟨hk, rfl⟩) ⟨hpos, hmax, hn⟩ (by omega))
      (hn.trans (srcCount_le _ hk)) hflags hlegal
    refine ⟨u, t, ht, hans, hu, fun k n hlt => ?_⟩
    rw [hreact k n hlt, show configBlocks (par c 0) = [par c 0] from if_neg (by omega)]
    simp
  case writeAll =>
    intro s c h hk hpos hmax hn hflags hlegal
    obtain ⟨u, t, ht, hans, hu, hreact⟩ := exec_faultConfig h (configChecks_write (.inr ⟨hk, rfl⟩) ⟨hpos, hmax, hn⟩ (by omega))
      (hn.trans (srcCount_le 0 (by decide))) hflags hlegal
    refine ⟨u, t, ht, hans, hu, fun k n hlt => ?_⟩
    rw [hreact k n hlt, show configBlocks (par c 0) = List.range 16 from if_pos hk]
    simp
  case range =>
    intro s c h hk hpos hmax hn hflags
    refine exec_faultConfig_bad h hflags ?_
    have hne : par c 0 ≠ 31 := by omega
    have hnot : ¬ par c 1 + par c 2 ≤ srcCount (par c 0) := by omega
    simp [configChecks, hk, hne, hpos, hmax, hnot]
  case word =>
    intro s c h hk hone hn hflags hbad
    refine exec_faultConfig_bad h hflags ?_
    rw [firstBad_append (firstBad_eq_none.1 (configChecks_write (.inl ⟨hk, rfl⟩) ⟨by omega, by omega, by omega⟩ (by omega)))]
    have hwords : configWords c = [w16 (par c 4)] := by rw [configWords, hone]; rfl
    simp [hwords, needEach, firstIdx, hbad]
  case read =>
    intro s c h hk hpos hmax hn hflags
    refine picked_ok (checks := configChecks c true) h ?_ rfl ?_ rfl h.1
    · change bit (par c 3) 0 = true
      rw [hflags]
      rfl
    · have hbits : needBits c 3 1 = none := needBits_eq_none.2 (by omega)
      have hne : par c 0 ≠ 31 := by omega
      have hfirst : par c 1 < srcCount (par c 0) := by omega
      simp [configChecks, hk, hne, hpos, hmax, hn, hfirst, hbits]
  case readAll =>
    intro s c h hk hflags
    refine picked_bad (checks := configChecks c true) h ?_ rfl ?_
    · change bit (par c 3) 0 = true
      rw [hflags]
      rfl
    · simp [configChecks, hk]
  case now =>
    intro s c h hk hsrc hwhen h3 h4 h5 h6
    obtain ⟨d, hwait, hblock, hsource, hforced, hstamp⟩ := forceNow_waiting s c
    have hzero : needZero c 3 4 = none := needZero_of fun k hlo hhi => by
      obtain rfl | rfl | rfl | rfl : k = 3 ∨ k = 4 ∨ k = 5 ∨ k = 6 := by omega
      all_goals assumption
    obtain ⟨t, ht, hans⟩ : ∃ t, exec .faultForce s = .next t ∧ Answered c 0 0 (toWords 4 (epochOf s.clk.time)) (forceNow s c) t := by
      refine picked_ok (k := fun c => _) h rfl rfl ?_ ?_ h.1
      · rw [List.append_assoc, forceChecks_words hk hsrc]
        simp [needWhen, hwhen, hzero]
      · simp only [hwhen]
        rfl
    exact ⟨_, t, d, ht, hans, hwait, hblock, hsource, hforced, hstamp, forceNow_forceAt s c, forceNow_parts s c⟩
  case later =>
    intro s c h hk hsrc hwhen hlead
    obtain ⟨t, ht, hans⟩ : ∃ t, exec .faultForce s = .next t ∧ Answered c 0 0 (toWords 4 (epochOf (par64 c 3))) (forceLater s c) t := by
      refine picked_ok (k := fun c => _) h rfl rfl ?_ ?_ h.1
      · rw [List.append_assoc, forceChecks_words hk hsrc]
        simp [needWhen, hwhen, needLead, hlead]
      · simp only [hwhen]
        rfl
    exact ⟨_, t, ht, hans, rfl⟩
  case late =>
    intro s c h hk hsrc hwhen hlead
    refine exec_faultForce_bad h ?_
    rw [List.append_assoc, forceChecks_words hk hsrc]
    have hnot : ¬ c.pick + 32000 ≤ par64 c 3 := by omega
    simp [needWhen, hwhen, needLead, hnot]
  case source =>
    intro s c h hk hsrc
    refine exec_faultForce_bad h ?_
    have hnot : ¬ par c 1 < srcCount (par c 0) := by omega
    simp [hk, hnot]
  case set =>
    intro s c h hk hwrite hkind hmax htarget hamount hwindow hperiod harmed
    have hne : par c 2 ≠ 0 := hkind
    obtain ⟨t, ht, hans⟩ := exec_perturbSet h hwrite (by
      have hbits : needBits c 1 1 = none := needBits_eq_none.2 (by omega)
      have hrepeat : (decide (par32 c 12 = 0) || decide (par32 c 10 ≤ par32 c 12)) = true := by simpa using hperiod
      simp [perturbSetChecks, perturbChecks, hk, hne, hmax, htarget, hamount, hwindow, hrepeat, harmed, hbits])
    refine ⟨_, t, ht, hans, rfl, fun e he => by rw [State.modPert_pert, if_neg he], ?_⟩
    rw [State.modPert_pert, if_pos rfl, perturbOf, if_neg hne]
  case clear =>
    intro s c h hk hwrite hkind harmed
    obtain ⟨t, ht, hans⟩ := exec_perturbSet h hwrite (by
      have hbits : needBits c 1 1 = none := needBits_eq_none.2 (by omega)
      simp [perturbSetChecks, perturbChecks, hk, hkind, harmed, hbits])
    refine ⟨_, t, ht, hans, ?_, fun e he => by rw [State.modPert_pert, if_neg he], rfl⟩
    rw [State.modPert_pert, if_pos rfl, perturbOf, if_pos hkind]
  case armed =>
    intro s c h hk hwrite hkind harmed
    refine picked_bad (checks := perturbSetChecks s c) (e := fun s => postOk (s.modPert (par c 0) (fun _ => perturbOf c))) h ?_ rfl ?_
    · change (!bit (par c 1) 0) = true
      rw [hwrite]
      rfl
    · have hbits : needBits c 1 1 = none := needBits_eq_none.2 (by omega)
      simp [perturbSetChecks, perturbChecks, hk, hkind, harmed, hbits]
  case entry =>
    intro s c h hk hread
    obtain ⟨t, ht, hans⟩ : ∃ t, exec .perturbSetRead s = .next t ∧ Answered c 0 0 (entryWords (s.pert (par c 0))) s t := by
      refine picked_ok (checks := [needParam (decide (par c 0 < 16)) 0, needBits c 1 1]) h ?_ rfl ?_ rfl h.1
      · change bit (par c 1) 0 = true
        rw [hread]
        rfl
      · have hbits : needBits c 1 1 = none := needBits_eq_none.2 (by omega)
        simp [hk, hbits]
    exact ⟨t, _, ht, rfl, hans⟩
  case noEntry =>
    intro s c h hk hread
    refine picked_bad (checks := [needParam (decide (par c 0 < 16)) 0, needBits c 1 1]) h ?_ rfl ?_
    · change bit (par c 1) 0 = true
      rw [hread]
      rfl
    · have hnot : ¬ par c 0 < 16 := by omega
      simp [hnot]

end Sys2Proof.Machine
end

section
/-! PROOFS. The stage-bus commands (R448 to R450). -/

set_option Elab.async false

namespace Sys2Proof.Machine

/-- A command in EXECUTING that then waits. -/
theorem waitFor_waits {u : State} {c : Current} (w : Wait) (reply : List Word) (hu : u.fw.current = some c) :
    Waits c w reply u (waitFor u w reply) := by
  unfold Waits waitFor
  rw [hu]
  rfl

/-- The row of a picked command whose checks pass, and which then waits. -/
theorem picked_waits {s u : State} {op : Nat} {c : Current} {w : Wait} {reply : List Word} {action : List Word → Bool} {k : Current → State}
    {checks : List (Option Bad)} {e : State → State} (h : Picked s op c) (ha : action c.params = true)
    (hk : k c = checked s checks e) (hpass : firstBad checks = none) (he : e s = waitFor u w reply) (hu : u.fw.current = some c) :
    ∃ t, (Host.Outcome.next (onCommand s op action k) : Host.Outcome State Fault Refusal) = .next t ∧ Waits c w reply u t :=
  ⟨_, rfl, by rw [onCommand_picked h action k ha, hk, checked_pass e hpass, he]; exact waitFor_waits w reply hu⟩

theorem needRing_of {s : State} {n i : Nat} (h : n = 0xFFFF ∨ (s.ring n).state ≠ .free) : needRing s n i = none := by
  refine needParam_of i ?_
  simpa using h

theorem needAttached_of {s : State} {st : Nat} (h : (s.stage st).attached = true) : needAttached s st = none := by
  rw [needAttached, h]
  rfl

theorem needAttached_of_free {s : State} {st : Nat} (h : (s.stage st).attached = false) : needAttached s st = some (0x13, 22) := by
  rw [needAttached, h]
  rfl

theorem needBoundStopped_of {s : State} {st : Nat} (h : ∀ l ∈ stageLoops s st, (s.loop l).state = .stopped) : needBoundStopped s st = none :=
  firstOf_eq_none.2 fun l hl => needState_of 23 (by simp [h l hl])

theorem needBoundStopped_of_running {s : State} {st : Nat} (h : ∃ l ∈ stageLoops s st, (s.loop l).state ≠ .stopped) :
    needBoundStopped s st = some (0x13, 23) := by
  obtain ⟨l, hl, hrun⟩ := h
  refine firstOf_of_mem hl (needState_of_not 23 (by simp [hrun])) fun y _ => ?_
  cases decide ((s.loop y).state = .stopped) <;> simp

/-- The bus has the job `j` of the stage, whose state the command changed by `f` (R82). -/
def withJob (s : State) (st : Nat) (f : StageState → StageState) (j : StageJob) : State :=
  { s.modStage st f with ser := { (s.modStage st f).ser with job := some (st, j) } }

theorem withJob_stage (s : State) (st k : Nat) (f : StageState → StageState) (j : StageJob) :
    (withJob s st f j).stage k = if k = st then f (s.stage st) else s.stage k := State.modStage_stage ..

theorem withJob_parts (s : State) (st : Nat) (f : StageState → StageState) (j : StageJob) :
    withJob s st f j = { s with ser := { s.ser with job := some (st, j), stage := (withJob s st f j).ser.stage } } := rfl

/-- The hypotheses under which the words of STAGE_ATTACH ATTACH are in range. -/
abbrev AttachFits (s : State) (c : Current) : Prop :=
  par c 1 < 16 ∧ 8 ≤ par c 2 / 256 ∧ bits (par c 2) 6 2 = 0 ∧ 1 ≤ par c 3 ∧ par c 3 ≤ 200 ∧
    (par c 5 = 0xFFFF ∨ (s.ring (par c 5)).state ≠ .free) ∧ par c 6 = 0 ∧ par c 7 = 0

/-- The checks of STAGE_ATTACH ATTACH on its words. -/
def attachChecks (s : State) (c : Current) : List (Option Bad) :=
  [needParam (decide (par c 1 < 16)) 1, needParam (decide (bits (par c 2) 6 2 = 0) && decide (8 ≤ par c 2 / 256)) 2,
   needParam (decide (1 ≤ par c 3) && decide (par c 3 ≤ 200)) 3, needRing s (par c 5) 5, needZero c 6 2]

theorem attachChecks_pass {s : State} {c : Current} (h : AttachFits s c) : ∀ x ∈ attachChecks s c, x = none := by
  obtain ⟨hst, hclk, hmode, hpos, hmax, hring, h6, h7⟩ := h
  have hzero : needZero c 6 2 = none := needZero_of fun k hlo hhi => by
    obtain rfl | rfl : k = 6 ∨ k = 7 := by omega
    · exact h6
    · exact h7
  simp [attachChecks, hst, hclk, hmode, hpos, hmax, hzero, needRing_of hring]

/-- Settles O47: each command's checks in order, then its job on the bus, or the stage's counts. -/
theorem stageCommands : Obligations.StageCommands := by
  unfold Obligations.StageCommands
  refine ⟨?attach, ?detach, ?write, ?read, ?status, ?noDetach, ?noStatus, ?detachBusy, ?attachBusy, ?noWrite, ?noRead⟩
  case attach =>
    intro s c h hkind hst hclk hmode hpos hmax hring h6 h7 hstopped
    obtain ⟨t, ht, hw⟩ : ∃ t, exec .stageAttachAttach s = .next t ∧ Waits c .stageBus []
        (withJob s (par c 1) (fun x => { x with stageAlive := none }) (.attach (par c 2) (par c 3) (par c 4) (ringOf c (par c 5)) 0)) t := by
      refine picked_waits (k := fun c => _) h (decide_eq_true hkind) rfl ?_ rfl h.1
      change firstBad (attachChecks s c ++ [_]) = none
      rw [firstBad_append (attachChecks_pass ⟨hst, hclk, hmode, hpos, hmax, hring, h6, h7⟩)]
      have hbound : (if (s.stage (par c 1)).attached && decide ((s.stage (par c 1)).period ≠ par c 3) then needBoundStopped s (par c 1) else none) = none := by
        split
        next hre =>
          simp only [Bool.and_eq_true, decide_eq_true_iff] at hre
          exact needBoundStopped_of (hstopped hre.1 hre.2)
        next => rfl
      rw [hbound]
      rfl
    refine ⟨_, t, ht, hw, (withJob_stage ..).trans (if_pos rfl), rfl, fun k hk => (withJob_stage ..).trans (if_neg hk), rfl⟩
  case detach =>
    intro s c h hkind hst hatt hstopped
    obtain ⟨t, ht, hw⟩ : ∃ t, exec .stageAttachDetach s = .next t ∧ Waits c .stageBus []
        (withJob s (par c 1) (fun x => { x with disable := true }) .detach) t := by
      refine picked_waits (k := fun c => _) h (decide_eq_true hkind) rfl ?_ rfl h.1
      simp [hst, needAttached_of hatt, needBoundStopped_of hstopped]
    exact ⟨_, t, ht, hw, (withJob_stage ..).trans (if_pos rfl), rfl, fun k hk => (withJob_stage ..).trans (if_neg hk), rfl⟩
  case write =>
    intro s c h hkind hst hatt hpos hmax hfit h4
    obtain ⟨t, ht, hw⟩ : ∃ t, exec .stageAttachWrite s = .next t ∧ Waits c .stageBus []
        { s with ser := { s.ser with job := some (par c 1, .write (par c 2) ((c.params.drop 5).take (par c 3)) 0 0) } } t := by
      refine picked_waits (k := fun c => _) h (decide_eq_true hkind) rfl ?_ rfl h.1
      have hzero : needZero c 4 1 = none := needZero_of fun k hlo hhi => by rw [show k = 4 by omega, h4]
      simp [hst, hpos, hmax, hfit, hzero, needAttached_of hatt]
    exact ⟨_, t, ht, hw, rfl⟩
  case read =>
    intro s c h hkind hst hatt hpos hfit
    obtain ⟨t, ht, hw⟩ : ∃ t, exec .stageReadRead s = .next t ∧ Waits c .stageBus []
        { s with ser := { s.ser with job := some (par c 0, .read (par c 2) (par c 3) 0 0) } } t := by
      refine picked_waits (k := fun c => _) h (decide_eq_true hkind) rfl ?_ rfl h.1
      simp [hst, hpos, hfit, needAttached_of hatt]
    exact ⟨_, t, ht, hw, rfl⟩
  case status =>
    intro s c h hkind hst hatt h3
    refine picked_ok (k := fun c => _) h (decide_eq_true hkind) rfl ?_ ?_ h.1
    · simp [hst, h3, needAttached_of hatt]
    · dsimp only
      rw [hatt]
      rfl
  case noDetach =>
    intro s c h hkind hst hatt
    refine picked_bad (k := fun c => _) h (decide_eq_true hkind) rfl ?_
    simp [hst, needAttached_of_free hatt]
  case noStatus =>
    intro s c h hkind hst hatt h3
    refine picked_bad (k := fun c => _) h (decide_eq_true hkind) rfl ?_
    simp [hst, h3, needAttached_of_free hatt]
  case detachBusy =>
    intro s c h hkind hst hatt hrun
    refine picked_bad (k := fun c => _) h (decide_eq_true hkind) rfl ?_
    simp [hst, needAttached_of hatt, needBoundStopped_of_running hrun]
  case attachBusy =>
    intro s c h hkind hst hclk hmode hpos hmax hring h6 h7 hatt hperiod hrun
    refine picked_bad (k := fun c => _) h (decide_eq_true hkind) rfl ?_
    change firstBad (attachChecks s c ++ [_]) = _
    rw [firstBad_append (attachChecks_pass ⟨hst, hclk, hmode, hpos, hmax, hring, h6, h7⟩)]
    simp [hatt, hperiod, needBoundStopped_of_running hrun]
  case noWrite =>
    intro s c h hkind hst hatt hpos hmax h4
    refine picked_bad (k := fun c => _) h (decide_eq_true hkind) rfl ?_
    have hzero : needZero c 4 1 = none := needZero_of fun k hlo hhi => by rw [show k = 4 by omega, h4]
    simp [hst, hatt, hpos, hmax, hzero, needAttached_of_free hatt]
  case noRead =>
    intro s c h hkind hst hatt hpos
    refine picked_bad (k := fun c => _) h (decide_eq_true hkind) rfl ?_
    simp [hst, hatt, hpos, needAttached_of_free hatt]

end Sys2Proof.Machine
end

section
/-! PROOFS. The command in EXECUTING stays in EXECUTING through what the engines do beside it (`OnHand`): none of the operations
that end bursts, runs, sweeps and frames takes it, as they answer only a command that waits for them. One lemma per operation that
touches the firmware at all, in the order of the model. -/

set_option Elab.async false
set_option linter.unusedVariables false
set_option linter.unusedTactic false
set_option linter.unreachableTactic false

namespace Sys2Proof.Machine

/-- Command `c` is in EXECUTING and waits for nothing. -/
def OnHand (c : Current) (t : State) : Prop := t.fw.current = some c ∧ c.wait = .nothing

variable {c : Current} {s : State}

theorem onHand_of_picked {op : Nat} (h : Picked s op c) : OnHand c s := ⟨h.1, h.2.2⟩

theorem onHand_waitsFor {w : Wait} (hw : w ≠ .nothing) (h : OnHand c s) : waitsFor s w = false := by
  simp [waitsFor, h.1, h.2, hw.symm]

/-- An update of other parts of the firmware. -/
theorem onHand_mk {a0 a1 a2 a3 a4 a5 a6 a7 a8 a9 a10 a11 a12 a13 a14 a15 a16} (hp : a0 = s.pending) (hfw : a5.current = s.fw.current)
    (h : OnHand c s) : OnHand c (State.mk a0 a1 a2 a3 a4 a5 a6 a7 a8 a9 a10 a11 a12 a13 a14 a15 a16) := ⟨hfw.trans h.1, h.2⟩

/-- An operation that leaves the firmware alone. -/
theorem onHand_only {t : State} (ho : Only 131039 s t) (h : OnHand c s) : OnHand c t := ⟨(congrArg _ (only_fw ho rfl)).trans h.1, h.2⟩

theorem onHand_ite {p : Prop} [Decidable p] {a b : State} (h1 : p → OnHand c a) (h2 : ¬p → OnHand c b) : OnHand c (if p then a else b) := by
  split
  · exact h1 ‹_›
  · exact h2 ‹_›

theorem onHand_foldl {α} {f : State → α → State} {l : List α} (h : OnHand c s) (hf : ∀ t a, OnHand c t → OnHand c (f t a)) :
    OnHand c (l.foldl f s) := by
  induction l generalizing s with
  | nil => exact h
  | cons a r ih => exact ih (hf _ _ h)

/-- A state that comes with an answer. -/
def OnHandFst {α : Type} (c : Current) (q : State × α) : Prop := OnHand c q.1

theorem onHand_fst {α : Type} {q : State × α} {t : State} {x : α} (e : q = (t, x)) (h : OnHandFst c q) : OnHand c t := by
  subst e
  exact h

theorem onHand_of_fst {α : Type} {q : State × α} (h : OnHandFst c q) : OnHand c q.1 := h

theorem onHandFst_only {α : Type} {q : State × α} (ho : OnlyFst 131039 s q) (h : OnHand c s) : OnHandFst c q := onHand_only ho h

theorem onHandFst_mk {α : Type} {x : α} (h : OnHand c s) : OnHandFst c (s, x) := h

theorem onHandFst_ite {α : Type} {p : Prop} [Decidable p] {a b : State × α} (h1 : p → OnHandFst c a) (h2 : ¬p → OnHandFst c b) :
    OnHandFst c (if p then a else b) := by
  split
  · exact h1 ‹_›
  · exact h2 ‹_›

theorem onHandFst_foldl {α β : Type} {f : State × β → α → State × β} {l : List α} {q : State × β} (h : OnHandFst c q)
    (hf : ∀ t a, OnHand c t.1 → OnHandFst c (f t a)) : OnHandFst c (l.foldl f q) := by
  induction l generalizing q with
  | nil => exact h
  | cons a r ih => exact ih (hf _ _ h)

theorem onHandFoldl_fst {α β : Type} {f : State × β → α → State × β} {l : List α} {q : State × β} (h : OnHandFst c q)
    (hf : ∀ t a, OnHand c t.1 → OnHandFst c (f t a)) : OnHand c (l.foldl f q).1 := onHandFst_foldl h hf

theorem State.modProg_onHand {a2} {a3} (h : OnHand c s) : OnHand c (State.modProg s a2 a3) := h

theorem State.modBedc_onHand {a2} {a3} (h : OnHand c s) : OnHand c (State.modBedc s a2 a3) :=
  onHand_only (State.modBedc_only rfl only_refl) h

theorem State.modLoopc_onHand {a2} {a3} (h : OnHand c s) : OnHand c (State.modLoopc s a2 a3) :=
  onHand_only (State.modLoopc_only rfl only_refl) h

theorem State.modSeq_onHand {a2} {a3} (h : OnHand c s) : OnHand c (State.modSeq s a2 a3) :=
  onHand_only (State.modSeq_only rfl only_refl) h

theorem State.modLoop_onHand {a2} {a3} (h : OnHand c s) : OnHand c (State.modLoop s a2 a3) :=
  onHand_only (State.modLoop_only rfl only_refl) h

theorem State.modAvg_onHand {a2} {a3} (h : OnHand c s) : OnHand c (State.modAvg s a2 a3) :=
  onHand_only (State.modAvg_only rfl only_refl) h

theorem State.modRing_onHand {a2} {a3} (h : OnHand c s) : OnHand c (State.modRing s a2 a3) :=
  onHand_only (State.modRing_only rfl only_refl) h

theorem State.modStage_onHand {a2} {a3} (h : OnHand c s) : OnHand c (State.modStage s a2 a3) :=
  onHand_only (State.modStage_only rfl only_refl) h

theorem State.live_onHand {a2} {a3} {a4} (h : OnHand c s) : OnHand c (State.live s a2 a3 a4) :=
  onHand_only (State.live_only rfl only_refl) h

theorem State.raise_onHand {a2} {a3} {a4} {a5} (h : OnHand c s) : OnHand c (State.raise s a2 a3 a4 a5) :=
  onHand_only (State.raise_only rfl only_refl) h

theorem stageRoom_onHand {a2} {a3} (h : OnHand c s) {t} (e : stageRoom s a2 a3 = some t) : OnHand c t :=
  onHand_only (stageRoom_only rfl only_refl _ e) h

theorem placeIn_onHand {a2} {a3} {a4} {a5} {a6} (h : OnHand c s) : OnHand c (placeIn s a2 a3 a4 a5 a6) :=
  onHand_only (placeIn_only rfl only_refl) h

theorem dropRecord_onHand {a2} {a3} (h : OnHand c s) : OnHand c (dropRecord s a2 a3) :=
  onHand_only (dropRecord_only rfl only_refl) h

theorem closeLoss_onHand {a2} (h : OnHand c s) : OnHand c (closeLoss s a2) :=
  onHand_only (closeLoss_only rfl only_refl) h

theorem leaveWaiters_onHand {a2} {a3} (h : OnHand c s) : OnHand c (leaveWaiters s a2 a3) :=
  onHand_only (leaveWaiters_only rfl only_refl) h

theorem modLockRun_onHand {a2} {a3} (h : OnHand c s) : OnHand c (modLockRun s a2 a3) :=
  onHand_only (modLockRun_only rfl only_refl) h

theorem serveWaiters_onHand {a2} {a3} (h : OnHand c s) : OnHand c (serveWaiters s a2 a3) :=
  onHand_only (serveWaiters_only rfl only_refl) h

theorem finalProgress_onHand {a2} (h : OnHand c s) : OnHand c (finalProgress s a2) := by
  unfold finalProgress
  repeat' (first | with_reducible assumption | intro _ | with_reducible apply onHand_ite | with_reducible apply State.modProg_onHand | dsimp only)

theorem placeCompletion_onHand {a2} (h : OnHand c s) : ∀ t, placeCompletion s a2 = some t → OnHand c t := by
  intro t e
  unfold placeCompletion at e
  (try dsimp only at e)
  repeat' (split at e)
  all_goals (first | cases e | skip)
  all_goals (try cases e)
  all_goals (repeat' (first | with_reducible assumption | intro _ | with_reducible apply onHand_ite | with_reducible refine stageRoom_onHand ?_ (by with_reducible assumption) | with_reducible apply State.modRing_onHand | with_reducible apply placeIn_onHand | with_reducible apply finalProgress_onHand | (fail_if_no_progress with_reducible (apply onHand_mk; rfl; rfl)) | split | dsimp only))

theorem endWork_onHand {a2} (h : OnHand c s) : OnHand c (endWork s a2) := by
  unfold endWork
  repeat' (first | with_reducible assumption | intro _ | with_reducible apply onHand_ite | with_reducible refine placeCompletion_onHand ?_ _ (by with_reducible assumption) | with_reducible apply State.raise_onHand | with_reducible apply finalProgress_onHand | with_reducible apply dropRecord_onHand | with_reducible apply leaveWaiters_onHand | (fail_if_no_progress with_reducible (apply onHand_mk; rfl; rfl)) | split | dsimp only)

theorem retryEnds_onHand {a2} (h : OnHand c s) : OnHand c (retryEnds s a2) := by
  induction a2 generalizing s with
  | nil => unfold retryEnds; exact h
  | cons x q ih =>
    unfold retryEnds
    repeat' (first | with_reducible apply ih | with_reducible refine onHand_of_fst (ih ?_) | with_reducible assumption | intro _ | with_reducible apply onHand_ite | with_reducible refine placeCompletion_onHand ?_ _ (by with_reducible assumption) | with_reducible apply finalProgress_onHand | with_reducible apply dropRecord_onHand | with_reducible apply leaveWaiters_onHand | (fail_if_no_progress with_reducible (apply onHand_mk; rfl; rfl)) | split | dsimp only)

theorem serviceRing_onHand {a2} (h : OnHand c s) : OnHand c (serviceRing s a2) := by
  unfold serviceRing
  repeat' (first | with_reducible assumption | intro _ | with_reducible apply closeLoss_onHand | with_reducible apply serveWaiters_onHand | with_reducible apply retryEnds_onHand | dsimp only)

theorem returnCredit_onHand {a2} {a3} (h : OnHand c s) : OnHand c (returnCredit s a2 a3) := by
  unfold returnCredit
  repeat' (first | with_reducible assumption | intro _ | with_reducible apply serviceRing_onHand | with_reducible apply State.modRing_onHand | dsimp only)

theorem placeHeld_onHand {a2} {a3} {a4} {a5} {a6} {a7} {a8} {a9} {a10} (h : OnHand c s) : OnHandFst c (placeHeld s a2 a3 a4 a5 a6 a7 a8 a9 a10) := by
  unfold placeHeld
  repeat' (first | with_reducible assumption | intro _ | with_reducible apply onHand_ite | with_reducible apply onHandFst_ite | with_reducible refine stageRoom_onHand ?_ (by with_reducible assumption) | with_reducible apply State.raise_onHand | with_reducible apply State.modRing_onHand | with_reducible apply placeIn_onHand | with_reducible apply serviceRing_onHand | split | with_reducible apply onHandFst_mk | with_reducible refine onHand_fst (by with_reducible assumption) ?_ | dsimp only)

theorem placeLast_onHand {a2} {a3} {a4} {a5} {a6} {a7} {a8} {a9} {a10} (h : OnHand c s) : OnHand c (placeLast s a2 a3 a4 a5 a6 a7 a8 a9 a10) := by
  unfold placeLast
  repeat' (first | with_reducible assumption | intro _ | with_reducible apply onHand_ite | with_reducible apply onHandFst_ite | with_reducible apply placeHeld_onHand | with_reducible refine onHand_of_fst (placeHeld_onHand ?_) | with_reducible refine onHand_fst (by with_reducible assumption) (placeHeld_onHand ?_) | (fail_if_no_progress with_reducible (apply onHand_mk; rfl; rfl)) | split | with_reducible apply onHandFst_mk | with_reducible refine onHand_fst (by with_reducible assumption) ?_ | dsimp only)

theorem answerAbort_onHand {a2} (h : OnHand c s) : OnHand c (answerAbort s a2) := by
  rw [answerAbort, onHand_waitsFor (by simp) h]
  exact h

theorem settlePin_onHand {a2} {a3} (h : OnHand c s) : OnHand c (settlePin s a2 a3) :=
  onHand_only (settlePin_only rfl only_refl) h

theorem trigEvent_onHand {a2} {a3} {a4} (h : OnHand c s) : OnHand c (trigEvent s a2 a3 a4) :=
  onHand_only (trigEvent_only rfl only_refl) h

theorem clearStacks_onHand {a2} (h : OnHand c s) : OnHand c (clearStacks s a2) :=
  onHand_only (clearStacks_only rfl only_refl) h

theorem leaveFirst_onHand {a2} (h : OnHand c s) : OnHand c (leaveFirst s a2) :=
  onHand_only (leaveFirst_only rfl only_refl) h

theorem endBurst_onHand {a2} {a3} (h : OnHand c s) : OnHand c (endBurst s a2 a3) := by
  unfold endBurst
  repeat' (first | with_reducible assumption | intro _ | with_reducible apply onHand_ite | with_reducible apply onHand_foldl | with_reducible apply settlePin_onHand | with_reducible apply leaveFirst_onHand | with_reducible apply clearStacks_onHand | with_reducible apply State.modSeq_onHand | with_reducible apply answerAbort_onHand | with_reducible apply State.live_onHand | with_reducible apply trigEvent_onHand | dsimp only)

theorem settleBurst_onHand {a2} (h : OnHand c s) : OnHand c (settleBurst s a2) := by
  unfold settleBurst
  repeat' (first | with_reducible assumption | intro _ | with_reducible apply onHand_ite | with_reducible apply onHandFst_ite | with_reducible apply placeHeld_onHand | with_reducible refine onHand_of_fst (placeHeld_onHand ?_) | with_reducible refine onHand_fst (by with_reducible assumption) (placeHeld_onHand ?_) | with_reducible apply State.modSeq_onHand | with_reducible apply dropRecord_onHand | with_reducible apply leaveWaiters_onHand | with_reducible apply endWork_onHand | with_reducible apply State.modProg_onHand | split | with_reducible apply onHandFst_mk | with_reducible refine onHand_fst (by with_reducible assumption) ?_ | dsimp only)

theorem latchStop_onHand {a2} {a3} {a4} (h : OnHand c s) : OnHand c (latchStop s a2 a3 a4) := by
  unfold latchStop
  repeat' (first | with_reducible assumption | intro _ | with_reducible apply onHand_ite | with_reducible apply settleBurst_onHand | with_reducible apply endBurst_onHand | with_reducible apply State.modSeq_onHand | split | dsimp only)

theorem endLockRun_onHand {a2} {a3} {a4} (h : OnHand c s) : OnHand c (endLockRun s a2 a3 a4) := by
  unfold endLockRun
  repeat' (first | with_reducible assumption | intro _ | with_reducible apply onHand_ite | with_reducible apply State.modAvg_onHand | with_reducible apply leaveWaiters_onHand | with_reducible apply returnCredit_onHand | with_reducible apply endWork_onHand | split | dsimp only)

theorem putLast_onHand {a2} {a3} {a4} {a5} {a6} (h : OnHand c s) : OnHand c (putLast s a2 a3 a4 a5 a6) := by
  unfold putLast
  repeat' (first | with_reducible assumption | intro _ | with_reducible apply onHand_ite | with_reducible apply placeLast_onHand | split | with_reducible apply onHandFst_mk | with_reducible refine onHand_fst (by with_reducible assumption) ?_ | dsimp only)

theorem endLockWindow_onHand {a2} (h : OnHand c s) : OnHand c (endLockWindow s a2) := by
  unfold endLockWindow
  repeat' (first | with_reducible assumption | intro _ | with_reducible apply onHand_ite | with_reducible apply onHandFst_ite | with_reducible apply placeHeld_onHand | with_reducible refine onHand_of_fst (placeHeld_onHand ?_) | with_reducible refine onHand_fst (by with_reducible assumption) (placeHeld_onHand ?_) | with_reducible apply modLockRun_onHand | with_reducible apply State.modProg_onHand | with_reducible apply endLockRun_onHand | split | with_reducible apply onHandFst_mk | with_reducible refine onHand_fst (by with_reducible assumption) ?_ | dsimp only)

theorem cutLock_onHand {a2} {a3} (h : OnHand c s) : OnHand c (cutLock s a2 a3) := by
  unfold cutLock
  repeat' (first | with_reducible assumption | intro _ | with_reducible apply endLockWindow_onHand | with_reducible apply modLockRun_onHand | with_reducible apply putLast_onHand | with_reducible apply endLockRun_onHand | split | dsimp only)

theorem endRefs_onHand {a2} {a3} (h : OnHand c s) : OnHand c (endRefs s a2 a3) := by
  unfold endRefs
  repeat' (first | with_reducible assumption | intro _ | with_reducible apply onHand_foldl | with_reducible apply onHandFst_foldl | with_reducible apply onHandFoldl_fst | with_reducible apply cutLock_onHand | dsimp only)

theorem followLeader_onHand {a2} (h : OnHand c s) : OnHand c (followLeader s a2) :=
  onHand_only (followLeader_only rfl only_refl) h

theorem endLoopRun_onHand {a2} {a3} {a4} {a5} (h : OnHand c s) : OnHand c (endLoopRun s a2 a3 a4 a5) := by
  unfold endLoopRun
  repeat' (first | with_reducible assumption | intro _ | with_reducible apply onHand_ite | with_reducible apply returnCredit_onHand | with_reducible apply State.modAvg_onHand | with_reducible apply endRefs_onHand | with_reducible apply State.modLoop_onHand | with_reducible apply endWork_onHand | split | dsimp only)

theorem dropRange_onHand {a2} {a3} (h : OnHand c s) : OnHand c (dropRange s a2 a3) := by
  unfold dropRange
  dsimp only
  split
  · exact h
  · have hwait : waitsFor (s.modLoop a2 (fun x => { x with
        change := none, changeNext := none, autoGoal := none
        state := if x.state = .settling then .regulating else x.state })) .rangeSettle = false := onHand_waitsFor (by simp) h
    split
    · rw [hwait, if_neg (by simp)]
      exact h
    · exact h

theorem tripLive_onHand {a2} (h : OnHand c s) : OnHand c (tripLive s a2) :=
  onHand_only (tripLive_only rfl only_refl) h

theorem moveForceDac_onHand {a2} (h : OnHand c s) : OnHand c (moveForceDac s a2) :=
  onHand_only (moveForceDac_only rfl only_refl) h

theorem endClip_onHand {a2} {a3} (h : OnHand c s) : OnHand c (endClip s a2 a3) :=
  onHand_only (endClip_only rfl only_refl) h

theorem freeTelem_onHand {a2} (h : OnHand c s) : OnHand c (freeTelem s a2) := by
  unfold freeTelem
  repeat' (first | with_reducible assumption | intro _ | with_reducible apply onHand_ite | with_reducible apply returnCredit_onHand | with_reducible apply State.modStage_onHand | dsimp only)

theorem abortFrame_onHand {a2} {a3} (h : OnHand c s) : OnHand c (abortFrame s a2 a3) := by
  unfold abortFrame
  repeat' (first | with_reducible assumption | intro _ | with_reducible apply freeTelem_onHand | with_reducible apply State.modStage_onHand | with_reducible apply State.raise_onHand | split | dsimp only)

theorem disableStage_onHand {a2} (h : OnHand c s) : OnHand c (disableStage s a2) := by
  unfold disableStage
  repeat' (first | with_reducible assumption | intro _ | with_reducible apply onHand_ite | with_reducible apply onHand_foldl | with_reducible apply abortFrame_onHand | with_reducible apply State.modStage_onHand | dsimp only)

theorem clocheLoop_onHand {a2} {a3} (h : OnHand c s) : OnHand c (clocheLoop s a2 a3) := by
  unfold clocheLoop
  repeat' (first | with_reducible assumption | intro _ | with_reducible apply onHand_ite | with_reducible apply endLoopRun_onHand | with_reducible apply endClip_onHand | with_reducible apply dropRange_onHand | with_reducible apply State.modLoop_onHand | with_reducible apply disableStage_onHand | with_reducible apply followLeader_onHand | with_reducible apply tripLive_onHand | with_reducible apply moveForceDac_onHand | dsimp only)

theorem clocheHeavy_onHand {a2} {a3} {a4} (h : OnHand c s) : OnHand c (clocheHeavy s a2 a3 a4) := by
  unfold clocheHeavy
  repeat' (first | with_reducible assumption | intro _ | with_reducible apply onHand_foldl | with_reducible apply State.modLoopc_onHand | with_reducible apply State.modBedc_onHand | with_reducible apply clocheLoop_onHand | dsimp only)

theorem enforceT3_onHand {a2} (h : OnHand c s) : OnHand c (enforceT3 s a2) := by
  unfold enforceT3
  repeat' (first | with_reducible assumption | intro _ | with_reducible apply onHand_ite | with_reducible apply onHand_foldl | with_reducible apply latchStop_onHand | with_reducible apply clocheHeavy_onHand | dsimp only)

end Sys2Proof.Machine
end

section
/-! PROOFS. THERM_CONFIG, CHARGE_WINDOW and THROTTLE_ACK (R460, R461, R467, R477 to R480). -/

set_option Elab.async false

namespace Sys2Proof.Machine

/-- A fold of updates, each of the key of an element, where no two elements share one. -/
theorem foldl_keyedBy {ι α : Type} {get : State → Nat → α} {key : ι → Nat} {step : State → ι → State} {f : α → α}
    (hstep : ∀ s i j, get (step s i) j = if j = key i then f (get s (key i)) else get s j) (hkey : Function.Injective key) {l : List ι}
    (hl : l.Nodup) (s : State) (j : Nat) : get (l.foldl step s) j = if j ∈ l.map key then f (get s j) else get s j := by
  induction l generalizing s with
  | nil => simp
  | cons i l ih =>
    obtain ⟨hi, hl⟩ := List.nodup_cons.1 hl
    rw [List.foldl_cons, ih hl, hstep]
    by_cases hj : j = key i
    · subst hj
      simp [hi, hkey.eq_iff]
    · simp [hj]

/-! Zones. -/

/-- What THERM_CONFIG LEVELS writes into a zone (R478). -/
def zoneSet (c : Current) (x : ZoneState) : ZoneState :=
  { x with warn := parF c 2, throttle := parF c 4, cloche := parF c 6, shutdown := parF c 8, hyst := parF c 10, step := parF c 12,
           graceMs := par c 14, ror := parF c 15 }

theorem foldl_modZone_parts (f : ZoneState → ZoneState) (l : List Nat) (s : State) :
    l.foldl (fun (s : State) z => s.modZone z f) s =
      { s with sup := { s.sup with zone := (l.foldl (fun (s : State) z => s.modZone z f) s).sup.zone } } :=
  congrArg (fun v : State => { v with sup := { v.sup with zone := (l.foldl (fun (s : State) z => s.modZone z f) s).sup.zone } })
    (foldl_same (F := fun s : State => { s with sup := { s.sup with zone := [] } }) (step := fun s z => s.modZone z f) (fun _ _ => rfl) l s)

theorem foldl_modZone_zone (f : ZoneState → ZoneState) {l : List Nat} (hl : l.Nodup) (s : State) (z : Nat) :
    (l.foldl (fun s z => s.modZone z f) s).zone z = if z ∈ l then f (s.zone z) else s.zone z :=
  foldl_keyed (get := State.zone) (f := fun _ => f) (fun s k j => by rw [State.modZone_zone]) hl s z

/-- A THERM_CONFIG LEVELS that fails on its values. -/
theorem exec_thermConfigLevels_bad {s : State} {c : Current} {r : Nat} (h : Picked s 0x0A00 c) (haction : par c 0 = 0) (hzones : par c 1 < 32)
    (hr : zoneReason (parF c 2) (parF c 4) (parF c 6) (parF c 8) (parF c 10) (parF c 12) (par c 14) (parF c 15) = some r) :
    ∃ t, exec .thermConfigLevels s = .next t ∧ Answered c 0x12 r [] s t := by
  refine picked_bad (k := fun c => _) h (decide_eq_true haction) rfl ?_
  rw [needBits_eq_none.2 hzones, hr]
  rfl

theorem zoneReason_order {w t c d h st ror : BitVec 32} {g : Nat} (hw : f32Finite w = true) (ht : f32Finite t = true) (hc : f32Finite c = true)
    (hd : f32Finite d = true) (hst : f32Finite st = true) (hle : (f32 w).le (f32 t) = false) : zoneReason w t c d h st g ror = some 0x8001 := by
  simp [zoneReason, hw, ht, hc, hd, hst, hle]

theorem zoneReason_none {w t c d h st ror : BitVec 32} {g : Nat} (hr : zoneReason w t c d h st g ror = none) : (f32 w).le (f32 t) = true ∧
    ((f32 t).add ((f32 st).mul (Frac.ofInt 2))).lt (f32 c) = true ∧ (f32 c).lt (f32 d) = true ∧ (f32 d).le (Frac.ofInt 165) = true ∧
    10 ≤ g ∧ g ≤ 2000 := by
  unfold zoneReason at hr
  dsimp only at hr
  split at hr
  next => cases hr
  next hnot =>
    split at hr
    next hall =>
      simp only [Bool.and_eq_true, decide_eq_true_iff] at hall
      obtain ⟨⟨⟨⟨⟨⟨hfinite, htop⟩, -⟩, hstep⟩, hlo⟩, hhi⟩, -⟩ := hall
      have hst : f32Finite st = true := by
        simp only [within, Bool.and_eq_true] at hstep
        exact hstep.1.1
      rw [hfinite, hst] at hnot
      simp only [Bool.true_and, Bool.or_eq_true, Bool.not_eq_true', not_or, Bool.not_eq_false] at hnot
      exact ⟨hnot.1.1, hnot.1.2, hnot.2, htop, hlo, hhi⟩
    next => cases hr

/-! A thermistor. -/

/-- What THERM_CONFIG THERMISTOR writes into its input (R465, R478). -/
def thermSet (c : Current) (x : Therm) : Therm :=
  let x := if bit (par c 2) 0 then x else { x with sampled := false, suspect := false, broken := false, fails := 0, passes := 0,
                                                    window := [], rising := false }
  { x with enable := bit (par c 2) 0, bias := bit (par c 2) 1, a := parF c 3, b := parF c 5, c := parF c 7, cloche := parF c 9, ror := parF c 11 }

/-- What a disabled thermistor leaves: the charge windows it fed are invalid, its level is clear (R465). -/
def thermOff (s : State) (n : Nat) : State :=
  clocheLive ((brokenLive ((assignedLoops s n).foldl chargeInvalid s)).modLevel (96 + n) (fun _ => {}))

/-- THERM_CONFIG THERMISTOR's effect. -/
def writeTherm (s : State) (c : Current) : State :=
  let s := s.modTherm (par c 1) (thermSet c)
  let s := if bit (par c 2) 0 then s else thermOff s (par c 1)
  s.live 0x1A 5 ((List.range 16).any (fun n => (s.therm n).rising))

theorem foldl_chargeInvalid_parts (l : List Nat) (s : State) :
    l.foldl chargeInvalid s = { s with sup := { s.sup with charge := (l.foldl chargeInvalid s).sup.charge } } :=
  congrArg (fun v : State => { v with sup := { v.sup with charge := (l.foldl chargeInvalid s).sup.charge } })
    (foldl_same (F := fun s : State => { s with sup := { s.sup with charge := [] } }) (step := chargeInvalid) (fun _ _ => rfl) l s)

theorem foldl_chargeInvalid_charge {l : List Nat} (hl : l.Nodup) (s : State) (h : Nat) :
    (l.foldl chargeInvalid s).charge h = if h ∈ l then { s.charge h with outCount := 4, inCount := 0 } else s.charge h :=
  foldl_keyed (get := State.charge) (f := fun _ x => { x with outCount := 4, inCount := 0 }) (fun s k j => by
    rw [chargeInvalid, State.modCharge_charge]) hl s h

theorem live_parts (s : State) (k src : Nat) (on : Bool) : ∃ b, s.live k src on = { s with flt := { s.flt with block := b } } := ⟨_, rfl⟩

theorem brokenLive_parts (s : State) : ∃ b, brokenLive s = { s with flt := { s.flt with block := b } } := by
  obtain ⟨b, hb⟩ := live_parts s 0x1A 7 ((List.range 48).any (fun i => (s.sensor i).broken))
  unfold brokenLive
  rw [hb]
  exact live_parts _ _ _ _

theorem clocheLive_parts (s : State) : ∃ b, clocheLive s = { s with flt := { s.flt with block := b } } := by
  obtain ⟨b, hb⟩ := live_parts s 0x1A 2 (levelHeld s .clocheZ0 || (List.finRange 16).any (fun b => levelHeld s (.clocheGroup b)))
  unfold clocheLive
  rw [hb]
  exact live_parts _ _ _ _

/-- Only the charge windows, the level and the LIVE bits change. -/
theorem thermOff_parts (s : State) (n : Nat) :
    ∃ b, thermOff s n = { s with sup := { s.sup with charge := ((assignedLoops s n).foldl chargeInvalid s).sup.charge,
                                                     level := (s.modLevel (96 + n) (fun _ => {})).sup.level },
                                 flt := { s.flt with block := b } } := by
  unfold thermOff
  obtain ⟨b, hb⟩ := brokenLive_parts ((assignedLoops s n).foldl chargeInvalid s)
  obtain ⟨b', hb'⟩ := clocheLive_parts ((brokenLive ((assignedLoops s n).foldl chargeInvalid s)).modLevel (96 + n) (fun _ => {}))
  rw [hb', hb]
  have hparts := foldl_chargeInvalid_parts (assignedLoops s n) s
  generalize (assignedLoops s n).foldl chargeInvalid s = v at hparts ⊢
  rw [hparts]
  exact ⟨_, rfl⟩

theorem writeTherm_on {s : State} {c : Current} (h : bit (par c 2) 0 = true) :
    ∃ b, writeTherm s c = { s with sup := { s.sup with therm := (s.modTherm (par c 1) (thermSet c)).sup.therm },
                                   flt := { s.flt with block := b } } := by
  unfold writeTherm
  rw [h]
  exact live_parts _ _ _ _

theorem writeTherm_off {s : State} {c : Current} (h : bit (par c 2) 0 = false) :
    ∃ b, writeTherm s c = { s with sup := { s.sup with therm := (s.modTherm (par c 1) (thermSet c)).sup.therm,
                                                       charge := ((assignedLoops s (par c 1)).foldl chargeInvalid (s.modTherm (par c 1) (thermSet c))).sup.charge,
                                                       level := (s.modLevel (96 + par c 1) (fun _ => {})).sup.level },
                                   flt := { s.flt with block := b } } := by
  obtain ⟨b, hoff⟩ := thermOff_parts (s.modTherm (par c 1) (thermSet c)) (par c 1)
  unfold writeTherm
  rw [h]
  dsimp only
  rw [if_neg (by decide), hoff]
  obtain ⟨b', hlive⟩ := live_parts { s.modTherm (par c 1) (thermSet c) with
      sup := { (s.modTherm (par c 1) (thermSet c)).sup with
        charge := ((assignedLoops (s.modTherm (par c 1) (thermSet c)) (par c 1)).foldl chargeInvalid (s.modTherm (par c 1) (thermSet c))).sup.charge
        level := ((s.modTherm (par c 1) (thermSet c)).modLevel (96 + par c 1) (fun _ => {})).sup.level }
      flt := { (s.modTherm (par c 1) (thermSet c)).flt with block := b } } 0x1A 5
    ((List.range 16).any (fun n => ((s.modTherm (par c 1) (thermSet c)).therm n).rising))
  exact ⟨b', hlive⟩

theorem writeTherm_parts (s : State) (c : Current) :
    ∃ th ch lv b, writeTherm s c = { s with sup := { s.sup with therm := th, charge := ch, level := lv }, flt := { s.flt with block := b } } := by
  cases h : bit (par c 2) 0
  · obtain ⟨b, hoff⟩ := writeTherm_off h
    exact ⟨_, _, _, _, hoff⟩
  · obtain ⟨b, hon⟩ := writeTherm_on h
    exact ⟨_, _, _, _, hon⟩

theorem writeTherm_therm (s : State) (c : Current) (k : Nat) :
    (writeTherm s c).therm k = if k = par c 1 then thermSet c (s.therm (par c 1)) else s.therm k := by
  rw [← State.modTherm_therm]
  cases h : bit (par c 2) 0
  · obtain ⟨b, hoff⟩ := writeTherm_off (s := s) h
    rw [hoff]
    rfl
  · obtain ⟨b, hon⟩ := writeTherm_on (s := s) h
    rw [hon]
    rfl

theorem writeTherm_set (s : State) (c : Current) :
    ((writeTherm s c).therm (par c 1)).enable = bit (par c 2) 0 ∧ ((writeTherm s c).therm (par c 1)).bias = bit (par c 2) 1 ∧
      ((writeTherm s c).therm (par c 1)).a = parF c 3 ∧ ((writeTherm s c).therm (par c 1)).b = parF c 5 ∧
      ((writeTherm s c).therm (par c 1)).c = parF c 7 ∧ ((writeTherm s c).therm (par c 1)).cloche = parF c 9 ∧
      ((writeTherm s c).therm (par c 1)).ror = parF c 11 ∧
      (bit (par c 2) 0 = true → ((writeTherm s c).therm (par c 1)).broken = (s.therm (par c 1)).broken) ∧
      (bit (par c 2) 0 = false → ((writeTherm s c).therm (par c 1)).broken = false ∧ ((writeTherm s c).therm (par c 1)).sampled = false) := by
  rw [(writeTherm_therm s c (par c 1)).trans (if_pos rfl), thermSet]
  cases bit (par c 2) 0 <;> simp

theorem writeTherm_off_level {s : State} {c : Current} (h : bit (par c 2) 0 = false) :
    ((writeTherm s c).level (96 + par c 1)).held = false ∧ ∀ k ∈ assignedLoops s (par c 1), ((writeTherm s c).charge k).outCount = 4 := by
  obtain ⟨b, hoff⟩ := writeTherm_off h
  rw [hoff]
  have hlevel : (s.modLevel (96 + par c 1) (fun _ => {})).level (96 + par c 1) = {} := (State.modLevel_level ..).trans (if_pos rfl)
  refine ⟨congrArg Level.held hlevel, fun k hk => ?_⟩
  have hnodup : (assignedLoops s (par c 1)).Nodup := List.Nodup.filter _ List.nodup_range
  exact congrArg ChargeWin.outCount ((foldl_chargeInvalid_charge hnodup (s.modTherm (par c 1) (thermSet c)) k).trans (if_pos hk))

theorem writeTherm_on_level {s : State} {c : Current} (h : bit (par c 2) 0 = true) : (writeTherm s c).sup.level = s.sup.level := by
  obtain ⟨b, hon⟩ := writeTherm_on (s := s) h
  rw [hon]

theorem writeTherm_level (s : State) (c : Current) {k : Nat} (hk : k ≠ 96 + par c 1) : (writeTherm s c).level k = s.level k := by
  cases h : bit (par c 2) 0
  · obtain ⟨b, hoff⟩ := writeTherm_off (s := s) h
    rw [hoff]
    exact (tget_tmod (fun _ => {}) s.sup.level _ (fun _ => {}) _).trans (if_neg hk)
  · unfold State.level
    rw [writeTherm_on_level h]

/-- What THERM_CONFIG RAIL writes into a rail: a factory limit is not listed (R469). -/
def railSet (c : Current) : Rail :=
  { uv := if parF c 2 = (railLimits (par c 1)).1 then none else some (parF c 2)
    ov := if parF c 4 = (railLimits (par c 1)).2 then none else some (parF c 4) }

/-- The words of THERM_CONFIG READ (R478). -/
def thermWords (s : State) (c : Current) : List Word :=
  if par c 1 = 0 then
    let x := s.zone (par c 2)
    [0, w16 (2 ^ par c 2)] ++ fWords x.warn ++ fWords x.throttle ++ fWords x.cloche ++ fWords x.shutdown ++ fWords x.hyst ++
      fWords x.step ++ [w16 x.graceMs] ++ fWords x.ror
  else if par c 1 = 1 then
    let x := s.therm (par c 2)
    [1, w16 (par c 2), w16 (flag 0 x.enable + flag 1 x.bias)] ++ fWords x.a ++ fWords x.b ++ fWords x.c ++ fWords x.cloche ++ fWords x.ror
  else
    let x := s.rail (par c 2)
    [2, w16 (par c 2)] ++ fWords (x.uv.getD (railLimits (par c 2)).1) ++ fWords (x.ov.getD (railLimits (par c 2)).2)

/-! Charge windows. -/

/-- What CHARGE_WINDOW writes into a window (R467, R479). -/
def chargeSet (c : Current) (x : ChargeWin) : ChargeWin :=
  let moved := decide (x.source ≠ par c 2)
  { x with source := par c 2, low := parF c 3, high := parF c 5, hyst := parF c 7, outCount := if moved then 0 else x.outCount,
           inCount := if moved then 0 else x.inCount }

/-- The checks of CHARGE_WINDOW (R479). -/
def chargeChecks (s : State) (c : Current) : List (Option Bad) :=
  chargeParams c ++
    [needParam (decide (par c 2 < 16) || decide (par c 2 = 0xFE) || decide (par c 2 = 0xFF)) 2,
     needParam (f32Finite (parF c 3)) 3, needParam (f32Finite (parF c 5)) 5,
     needParam (within (parF c 7) (dec 1 1) (Frac.ofInt 10)) 7, needBits c 9 1,
     if ((f32 (parF c 3)).add ((f32 (parF c 7)).mul (Frac.ofInt 2))).lt (f32 (parF c 5)) then none else some (0x12, 0x8001),
     if par c 2 = 0xFE then firstOf (rangeFrom (par c 0 - 512) (par c 1)) (fun h => needState (
         decide ((s.loop (512 + h)).stage ≠ 0) && (s.stage (s.loop (512 + h)).stageId).attached &&
         decide (4 ≤ wAt (s.stage (s.loop (512 + h)).stageId).ident 12)) 24)
     else none]

/-- The values under which CHARGE_WINDOW's limits are in range. -/
abbrev LimitsFit (c : Current) : Prop :=
  f32Finite (parF c 3) = true ∧ f32Finite (parF c 5) = true ∧ within (parF c 7) (dec 1 1) (Frac.ofInt 10) = true ∧
    ((f32 (parF c 3)).add ((f32 (parF c 7)).mul (Frac.ofInt 2))).lt (f32 (parF c 5)) = true

/-- With its words in range, the stages of the loops decide. -/
theorem chargeChecks_words {s : State} {c : Current} (hloops : 512 ≤ par c 0 ∧ 1 ≤ par c 1 ∧ par c 0 + par c 1 ≤ 544)
    (hsrc : par c 2 < 16 ∨ par c 2 = 0xFE ∨ par c 2 = 0xFF) (hlimits : LimitsFit c) (hflags : par c 9 = 0) :
    firstBad (chargeChecks s c) = if par c 2 = 0xFE then firstOf (rangeFrom (par c 0 - 512) (par c 1)) (fun h => needState (
         decide ((s.loop (512 + h)).stage ≠ 0) && (s.stage (s.loop (512 + h)).stageId).attached &&
         decide (4 ≤ wAt (s.stage (s.loop (512 + h)).stageId).ident 12)) 24)
     else none := by
  obtain ⟨hlo, hone, hhi⟩ := hloops
  obtain ⟨hlow, hhigh, hhyst, horder⟩ := hlimits
  have hbits : needBits c 9 1 = none := needBits_eq_none.2 (by omega)
  have hsource : (decide (par c 2 < 16) || decide (par c 2 = 0xFE) || decide (par c 2 = 0xFF)) = true := by
    simpa [or_assoc] using hsrc
  rw [chargeChecks, chargeParams, hsource, hlow, hhigh, hhyst, horder, hbits]
  simp only [hlo, hone, hhi, decide_true, Bool.and_self]
  generalize (if par c 2 = 0xFE then _ else none : Option Bad) = q
  cases q <;> rfl

/-- CHARGE_WINDOW's write of one window. -/
def writeCharge (c : Current) (s : State) (h : Nat) : State :=
  let s := s.modCharge h (chargeSet c)
  if par c 2 ≠ 0xFF ∧ chargeSourceBad s (512 + h) then chargeInvalid s h else s

theorem writeCharge_other (c : Current) (s : State) {h k : Nat} (hk : k ≠ h) : (writeCharge c s h).charge k = s.charge k := by
  unfold writeCharge
  dsimp only
  split
  · rw [chargeInvalid, State.modCharge_charge, if_neg hk, State.modCharge_charge, if_neg hk]
  · rw [State.modCharge_charge, if_neg hk]

/-- The window of a CHARGE_WINDOW, but for its counts. -/
abbrev ChargeSet (c : Current) (x y : ChargeWin) : Prop :=
  y.source = par c 2 ∧ y.low = parF c 3 ∧ y.high = parF c 5 ∧ y.hyst = parF c 7 ∧ (x.source ≠ par c 2 → y.inCount = 0) ∧ y.out = x.out

theorem writeCharge_same (c : Current) (s : State) (h : Nat) : ChargeSet c (s.charge h) ((writeCharge c s h).charge h) := by
  unfold writeCharge
  dsimp only
  split
  · rw [chargeInvalid, State.modCharge_charge, if_pos rfl, State.modCharge_charge, if_pos rfl]
    exact ⟨rfl, rfl, rfl, rfl, fun _ => rfl, rfl⟩
  · rw [State.modCharge_charge, if_pos rfl]
    exact ⟨rfl, rfl, rfl, rfl, fun hmoved => if_pos (decide_eq_true hmoved), rfl⟩

theorem writeCharge_beside (c : Current) (s : State) (h : Nat) :
    { writeCharge c s h with sup := { (writeCharge c s h).sup with charge := [] } } = { s with sup := { s.sup with charge := [] } } := by
  unfold writeCharge
  dsimp only
  split <;> rfl

theorem foldl_writeCharge_parts (c : Current) (l : List Nat) (s : State) :
    l.foldl (writeCharge c) s = { s with sup := { s.sup with charge := (l.foldl (writeCharge c) s).sup.charge } } :=
  congrArg (fun v : State => { v with sup := { v.sup with charge := (l.foldl (writeCharge c) s).sup.charge } })
    (foldl_same (F := fun s : State => { s with sup := { s.sup with charge := [] } }) (step := writeCharge c) (writeCharge_beside c) l s)

theorem foldl_writeCharge_other (c : Current) {l : List Nat} (s : State) {k : Nat} (hk : k ∉ l) :
    (l.foldl (writeCharge c) s).charge k = s.charge k := by
  induction l generalizing s with
  | nil => rfl
  | cons h l ih =>
    rw [List.foldl_cons, ih _ (fun hmem => hk (List.mem_cons_of_mem _ hmem)), writeCharge_other c s (fun heq => hk (List.mem_cons.2 (.inl heq)))]

theorem foldl_writeCharge_same (c : Current) {l : List Nat} (hl : l.Nodup) (s : State) {k : Nat} (hk : k ∈ l) :
    ChargeSet c (s.charge k) ((l.foldl (writeCharge c) s).charge k) := by
  induction l generalizing s with
  | nil => cases hk
  | cons h l ih =>
    obtain ⟨hh, hl⟩ := List.nodup_cons.1 hl
    rw [List.foldl_cons]
    rcases List.mem_cons.1 hk with rfl | hk
    · rw [foldl_writeCharge_other c _ hh]
      exact writeCharge_same c s k
    · have hne : k ≠ h := fun heq => hh (heq ▸ hk)
      rw [← writeCharge_other c s hne]
      exact ih hl _ hk

/-! Acknowledgement of throttle requests. -/

theorem enforcedLevel_modZone (s : State) (k z : Nat) (f : ZoneState → ZoneState)
    (hf : ∀ x, (f x).ended1 = x.ended1 ∧ (f x).ended2 = x.ended2 ∧ (f x).ended3 = x.ended3) :
    enforcedLevel (s.modZone k f) z = enforcedLevel s z := by
  have hended : ((s.modZone k f).zone z).ended1 = (s.zone z).ended1 ∧ ((s.modZone k f).zone z).ended2 = (s.zone z).ended2 ∧
      ((s.modZone k f).zone z).ended3 = (s.zone z).ended3 := by
    rw [State.modZone_zone]
    split
    next heq => subst heq; exact hf _
    next => exact ⟨rfl, rfl, rfl⟩
  obtain ⟨h1, h2, h3⟩ := hended
  unfold enforcedLevel
  dsimp only
  rw [h1, h2, h3]
  rfl

/-- The words of THROTTLE_ACK (R476, R480) depend on no acknowledgement. -/
theorem zoneWords_modZone (s : State) (k : Nat) (f : ZoneState → ZoneState)
    (hf : ∀ x, (f x).ended1 = x.ended1 ∧ (f x).ended2 = x.ended2 ∧ (f x).ended3 = x.ended3) :
    [zoneLevelsWord (s.modZone k f), zoneEnforcedWord (s.modZone k f)] = [zoneLevelsWord s, zoneEnforcedWord s] := by
  simp only [zoneLevelsWord, zoneEnforcedWord, enforcedLevel_modZone s k _ f hf]
  rfl

/-- The zones that THROTTLE_ACK names. -/
def ackZones (c : Current) : List Zone := (List.finRange 5).filter (fun z => bit (par c 0) z.val)

theorem mem_ackZones {c : Current} {z : Nat} (hz : z < 5) : z ∈ (ackZones c).map Fin.val ↔ (par c 0).testBit z = true := by
  simp only [ackZones, List.mem_map, List.mem_filter, List.mem_finRange, true_and]
  constructor
  · rintro ⟨x, hx, rfl⟩
    exact hx
  · exact fun hbit => ⟨⟨z, hz⟩, hbit, rfl⟩

theorem nodup_ackZones (c : Current) : (ackZones c).Nodup := List.Nodup.filter _ (List.nodup_finRange 5)

/-- A grace of a zone ends (R461). -/
def graceEnded (n : Nat) (x : ZoneState) : ZoneState :=
  match graceOf x n with
  | none => x
  | some _ => if n = 0 then { x with grace1 := none, ended1 := true }
      else if n = 1 then { x with grace2 := none, ended2 := true } else { x with grace3 := none, ended3 := true }

theorem enforceT3_zone (s : State) (z : Zone) (k : Nat) : (enforceT3 s z).zone k = s.zone k := by
  unfold State.zone
  rw [only_sup (enforceT3_only (w := 81906) (a2 := z) rfl (only_refl (s := s)))]

theorem endGrace_zone (s : State) (z : Zone) (n k : Nat) :
    (endGrace s z n).zone k = if k = z.val then graceEnded n (s.zone z.val) else s.zone k := by
  cases hg : graceOf (s.zone z.val) n with
  | none =>
    have hgrace : endGrace s z n = s := by rw [endGrace, hg]
    have hzone : graceEnded n (s.zone z.val) = s.zone z.val := by rw [graceEnded, hg]
    rw [hgrace, hzone]
    split
    next heq => rw [heq]
    next => rfl
  | some m =>
    have hzone : graceEnded n (s.zone z.val) = if n = 0 then { s.zone z.val with grace1 := none, ended1 := true }
        else if n = 1 then { s.zone z.val with grace2 := none, ended2 := true } else { s.zone z.val with grace3 := none, ended3 := true } := by
      rw [graceEnded, hg]
    rw [endGrace, hg, hzone]
    dsimp only
    rw [enforceT3_zone, State.modZone_zone]

/-- THROTTLE_ACK's effect on one zone. -/
def ackZone (c : Current) (s : State) (z : Zone) : State :=
  let s := s.modZone z.val (fun x => { x with acked := true })
  if bit (par c 1) 0 then [0, 1, 2].foldl (fun s n => endGrace s z n) s else s

theorem ackZone_plain {c : Current} (h : par c 1 = 0) : ackZone c = fun s z => s.modZone z.val (fun x => { x with acked := true }) := by
  unfold ackZone
  rw [h]
  rfl

theorem ackZone_graces {c : Current} (h : par c 1 = 1) :
    ackZone c = fun s z => endGrace (endGrace (endGrace (s.modZone z.val (fun x => { x with acked := true })) z 0) z 1) z 2 := by
  unfold ackZone
  rw [h]
  rfl

theorem ackAll_parts (s : State) {c : Current} (h : par c 1 = 0) :
    (ackZones c).foldl (ackZone c) s = { s with sup := { s.sup with zone := ((ackZones c).foldl (ackZone c) s).sup.zone } } :=
  congrArg (fun v : State => { v with sup := { v.sup with zone := ((ackZones c).foldl (ackZone c) s).sup.zone } })
    (foldl_same (F := fun s : State => { s with sup := { s.sup with zone := [] } }) (step := ackZone c)
      (fun _ _ => by rw [ackZone_plain h]; rfl) (ackZones c) s)

theorem ackAll_words (s : State) {c : Current} (h : par c 1 = 0) :
    [zoneLevelsWord ((ackZones c).foldl (ackZone c) s), zoneEnforcedWord ((ackZones c).foldl (ackZone c) s)] =
      [zoneLevelsWord s, zoneEnforcedWord s] :=
  foldl_same (F := fun s => [zoneLevelsWord s, zoneEnforcedWord s]) (step := ackZone c)
    (fun s z => by rw [ackZone_plain h]; exact zoneWords_modZone s z.val _ (fun _ => ⟨rfl, rfl, rfl⟩)) (ackZones c) s

theorem ackAll_zone (s : State) {c : Current} (h : par c 1 = 0) {z : Nat} (hz : z < 5) :
    ((ackZones c).foldl (ackZone c) s).zone z = { s.zone z with acked := (s.zone z).acked || (par c 0).testBit z } := by
  have hzone := foldl_keyedBy (get := State.zone) (key := Fin.val) (f := fun x => { x with acked := true })
    (step := ackZone c) (fun s i j => by rw [ackZone_plain h]; exact State.modZone_zone ..) Fin.val_injective (nodup_ackZones c) s z
  rw [hzone]
  cases hbit : (par c 0).testBit z
  · rw [if_neg (fun hmem => by rw [(mem_ackZones hz).1 hmem] at hbit; cases hbit), Bool.or_false]
  · rw [if_pos ((mem_ackZones hz).2 hbit), Bool.or_true]

/-- The zone after an acknowledgement that ends its graces. -/
def graceless (x : ZoneState) : ZoneState := graceEnded 2 (graceEnded 1 (graceEnded 0 { x with acked := true }))

theorem graceEnded_zero (x : ZoneState) : (graceEnded 0 x).grace1 = none ∧ (graceEnded 0 x).acked = x.acked ∧
    (x.grace1 ≠ none → (graceEnded 0 x).ended1 = true) := by
  cases h : x.grace1 <;> simp [graceEnded, graceOf, h]

theorem graceEnded_one (x : ZoneState) : (graceEnded 1 x).grace2 = none ∧ (graceEnded 1 x).acked = x.acked ∧ (graceEnded 1 x).grace1 = x.grace1 ∧
    (graceEnded 1 x).ended1 = x.ended1 := by
  cases h : x.grace2 <;> simp [graceEnded, graceOf, h]

theorem graceEnded_two (x : ZoneState) : (graceEnded 2 x).grace3 = none ∧ (graceEnded 2 x).acked = x.acked ∧ (graceEnded 2 x).grace1 = x.grace1 ∧
    (graceEnded 2 x).grace2 = x.grace2 ∧ (graceEnded 2 x).ended1 = x.ended1 := by
  cases h : x.grace3 <;> simp [graceEnded, graceOf, h]

theorem graceless_zone (x : ZoneState) : (graceless x).acked = true ∧ (graceless x).grace1 = none ∧ (graceless x).grace2 = none ∧
    (graceless x).grace3 = none ∧ (x.grace1 ≠ none → (graceless x).ended1 = true) := by
  unfold graceless
  obtain ⟨hgrace1, hacked, hended⟩ := graceEnded_zero { x with acked := true }
  obtain ⟨hgrace2, hacked2, hkeep2, hended2⟩ := graceEnded_one (graceEnded 0 { x with acked := true })
  obtain ⟨hgrace3, hacked3, hkeep3, hkeep3', hended3⟩ := graceEnded_two (graceEnded 1 (graceEnded 0 { x with acked := true }))
  refine ⟨by rw [hacked3, hacked2, hacked], by rw [hkeep3, hkeep2, hgrace1], by rw [hkeep3', hgrace2], hgrace3, fun hne => ?_⟩
  rw [hended3, hended2, hended hne]

theorem endGrace_onHand {c : Current} {s : State} {z : Zone} {n : Nat} (h : OnHand c s) : OnHand c (endGrace s z n) := by
  unfold endGrace
  split
  · exact h
  · exact enforceT3_onHand h

theorem exec_throttleAck {s : State} {c : Current} (h : Picked s 0x0A02 c) (hzones : par c 0 < 32) (hflags : par c 1 < 2)
    (hu : ((ackZones c).foldl (ackZone c) s).fw.current = some c) :
    ∃ t, exec .throttleAck s = .next t ∧ Answered c 0 0 [zoneLevelsWord ((ackZones c).foldl (ackZone c) s),
      zoneEnforcedWord ((ackZones c).foldl (ackZone c) s)] ((ackZones c).foldl (ackZone c) s) t := by
  refine picked_ok (k := fun c => _) h rfl rfl ?_ rfl hu
  rw [needBits_eq_none.2 hzones, needBits_eq_none.2 hflags]
  rfl

/-- Settles O53: folds over the zones and windows named, a thermistor with what its disabling clears, and the graces of each zone. -/
theorem thermalCommands : Obligations.ThermalCommands := by
  unfold Obligations.ThermalCommands
  refine ⟨?levels, ?order, fun _ _ _ _ _ _ _ _ => zoneReason_none, ?therm, ?rail, ?read, ?charge, ?chargeLoops, ?chargeRead, ?chargeStage, ?ack, ?ackGrace⟩
  case levels =>
    intro s c h haction hzones hr
    obtain ⟨t, ht, hans⟩ : ∃ t, exec .thermConfigLevels s = .next t ∧
        Answered c 0 0 [] ((maskList 5 (par c 1)).foldl (fun s z => s.modZone z (zoneSet c)) s) t := by
      refine picked_ok (k := fun c => _) h (decide_eq_true haction) rfl ?_ rfl ?_
      · rw [needBits_eq_none.2 hzones, hr]
        rfl
      · rw [foldl_modZone_parts]
        exact h.1
    refine ⟨_, t, ht, hans, foldl_modZone_parts _ _ _, fun z hz => ?_⟩
    rw [foldl_modZone_zone _ (nodup_maskList _ _)]
    exact if_congr (by rw [mem_maskList]; exact and_iff_right hz) rfl rfl
  case order =>
    intro s c h haction hzones hw ht hc hd hst hle
    exact exec_thermConfigLevels_bad h haction hzones (zoneReason_order hw ht hc hd hst hle)
  case therm =>
    intro s c h haction hn hflags hok
    obtain ⟨t, ht, hans⟩ : ∃ t, exec .thermConfigThermistor s = .next t ∧ Answered c 0 0 [] (writeTherm s c) t := by
      refine picked_ok (k := fun c => _) h (decide_eq_true haction) rfl ?_ rfl ?_
      · rw [needBits_eq_none.2 hflags, hok]
        simp [hn]
      · obtain ⟨th, ch, lv, b, hparts⟩ := writeTherm_parts s c
        rw [hparts]
        exact h.1
    have hkey : levelKey (.clocheTh (Fin.ofNat 16 (par c 1))) = 96 + par c 1 := congrArg (96 + ·) (Nat.mod_eq_of_lt hn)
    obtain ⟨henable, hbias, ha, hb, hc, hcl, hror, hkeep, hclear⟩ := writeTherm_set s c
    rw [hkey]
    exact ⟨_, t, ht, hans, henable, hbias, ha, hb, hc, hcl, hror, hkeep, fun hoff => 
        ⟨(hclear hoff).1, (hclear hoff).2, (writeTherm_off_level hoff).1, (writeTherm_off_level hoff).2⟩,
      fun k hk => (writeTherm_therm ..).trans (if_neg hk), fun k hk => writeTherm_level s c hk, fun hon => writeTherm_on_level hon, by
        obtain ⟨th, ch, lv, b, hparts⟩ := writeTherm_parts s c
        rw [hparts]⟩
  case rail =>
    intro s c h haction hi hr
    obtain ⟨t, ht, hans⟩ : ∃ t, exec .thermConfigRail s = .next t ∧ Answered c 0 0 [] (s.modRail (par c 1) (fun _ => railSet c)) t := by
      refine picked_ok (k := fun c => _) h (decide_eq_true haction) rfl ?_ rfl h.1
      rw [hr]
      simp [hi]
    have hset : (s.modRail (par c 1) (fun _ => railSet c)).rail (par c 1) = railSet c := (State.modRail_rail ..).trans (if_pos rfl)
    refine ⟨_, t, ht, hans, ?_, ?_, fun k hk => (State.modRail_rail ..).trans (if_neg hk), rfl⟩
    · rw [hset, railSet]
      dsimp only
      split
      next heq => exact heq.symm
      next => rfl
    · rw [hset, railSet]
      dsimp only
      split
      next heq => exact heq.symm
      next => rfl
  case read =>
    intro s c h haction hw hi
    obtain ⟨t, ht, hans⟩ : ∃ t, exec .thermConfigRead s = .next t ∧ Answered c 0 0 (thermWords s c) s t := by
      refine picked_ok (k := fun c => _) h (decide_eq_true haction) rfl ?_ rfl h.1
      rw [needParam_of 1 (decide_eq_true hw), needParam_of 2 (decide_eq_true hi)]
      rfl
    refine ⟨t, _, ht, hans, ?_, ?_, ?_⟩
    · intro h0
      exact if_pos h0
    · intro h1
      exact (if_neg (by omega)).trans (if_pos h1)
    · intro h2
      exact (if_neg (by omega)).trans (if_neg (by omega))
  case charge =>
    intro s c h hlo hone hhi hflags hsrc hlow hhigh hhyst horder
    have hparts := foldl_writeCharge_parts c (rangeFrom (par c 0 - 512) (par c 1)) s
    have hpass : firstBad (chargeChecks s c) = none := by
      rw [chargeChecks_words ⟨hlo, hone, hhi⟩ (by omega) ⟨hlow, hhigh, hhyst, horder⟩ hflags]
      split
      next heq =>
        have hstages := (hsrc.resolve_left (by omega)).resolve_left (by omega)
        rw [firstOf_eq_none.2 fun k hk => ?_]
        obtain ⟨hklo, hkhi⟩ := mem_rangeFrom.1 hk
        obtain ⟨hstage, hatt, hident⟩ := hstages.2 (512 + k) (by omega) (by omega)
        exact needState_of 24 (by simp [hstage, hatt, hident])
      next => rfl
    obtain ⟨t, ht, hans⟩ : ∃ t, exec .chargeWindow s = .next t ∧
        Answered c 0 0 [] ((rangeFrom (par c 0 - 512) (par c 1)).foldl (writeCharge c) s) t := by
      refine picked_ok (checks := chargeChecks s c)
        (e := fun s => postOk ((rangeFrom (par c 0 - 512) (par c 1)).foldl (writeCharge c) s)) h ?_ rfl hpass rfl ?_
      · change (!bit (par c 9) 0) = true
        rw [hflags]
        rfl
      · rw [hparts]
        exact h.1
    refine ⟨_, t, ht, hans, hparts, fun k hklo hkhi => ?_, fun k hk => ?_⟩
    · exact foldl_writeCharge_same c (nodup_rangeFrom _ _) s (mem_rangeFrom.2 ⟨hklo, hkhi⟩)
    · exact foldl_writeCharge_other c s (fun hmem => by have := mem_rangeFrom.1 hmem; omega)
  case chargeLoops =>
    intro s c h hlo hflags
    refine picked_bad (k := fun c => _) h ?_ rfl ?_
    · change (!bit (par c 9) 0) = true
      rw [hflags]
      rfl
    · rw [chargeParams, needParam_of_not 1 (by simp; omega)]
      rfl
  case chargeRead =>
    intro s c h hlo hone hhi hflags
    have hloop : 512 + (par c 0 - 512) = par c 0 := by omega
    refine picked_ok (k := fun c => _) h ?_ rfl ?_ ?_ h.1
    · change bit (par c 9) 0 = true
      rw [hflags]
      rfl
    · rw [chargeParams, hone]
      have hbits : needBits c 9 1 = none := needBits_eq_none.2 (by omega)
      simp [hlo, hhi, hbits]
    · dsimp only
      rw [chargeOut, hloop, chargeOutside]
      have hflag : ∀ b : Bool, w16 (b2n b) = if b = true then 1 else 0 := fun b => by cases b <;> rfl
      rw [hflag]
      simp only [Bool.and_eq_true, Bool.or_eq_true]
      rfl
  case chargeStage =>
    intro s c h hfirst hone hflags hsrc hlow hhigh hhyst horder hstage
    refine picked_bad (checks := chargeChecks s c)
      (e := fun s => postOk ((rangeFrom (par c 0 - 512) (par c 1)).foldl (writeCharge c) s)) h ?_ rfl ?_
    · change (!bit (par c 9) 0) = true
      rw [hflags]
      rfl
    · rw [chargeChecks_words ⟨by omega, by omega, by omega⟩ (by omega) ⟨hlow, hhigh, hhyst, horder⟩ hflags, if_pos hsrc, hfirst, hone]
      have hrange : rangeFrom (512 - 512) 1 = [0] := rfl
      rw [hrange]
      simp [firstOf, hstage]
  case ack =>
    intro s c h hzones hflags
    obtain ⟨t, ht, hans⟩ := exec_throttleAck h hzones (by omega) (by rw [ackAll_parts s hflags]; exact h.1)
    exact ⟨_, t, ht, ackAll_words s hflags ▸ hans, ackAll_parts s hflags, fun z hz => ackAll_zone s hflags hz⟩
  case ackGrace =>
    intro s c h hzones hflags
    have hon : OnHand c ((ackZones c).foldl (ackZone c) s) := onHand_foldl (onHand_of_picked h) fun t z ht => by
      rw [ackZone_graces hflags]
      exact endGrace_onHand (endGrace_onHand (endGrace_onHand ht))
    obtain ⟨t, ht, hans⟩ := exec_throttleAck h hzones (by omega) hon.1
    refine ⟨_, t, ht, hans, fun z hz hbit => ?_⟩
    have hzone := foldl_keyedBy (get := State.zone) (key := Fin.val) (f := graceless) (step := ackZone c) (fun s i j => by
      rw [ackZone_graces hflags]
      simp only [endGrace_zone, State.modZone_zone, if_true]
      split <;> rfl) Fin.val_injective (nodup_ackZones c) s z
    rw [hzone, if_pos ((mem_ackZones hz).2 hbit)]
    exact graceless_zone (s.zone z)

end Sys2Proof.Machine
end

section
/-! PROOFS. What the engines' bookkeeping never touches (`RunsOnly`): an operation that takes an edge, ends a run, gives back its
credit and serves who waits for it changes rings and stagers, the progress table, the runs of loops, averagers, units and
sequencers, DRAM, the ports' queues and the fault blocks, and nothing else. One lemma per operation, in the order of the model. -/

set_option Elab.async false
set_option linter.unusedVariables false
set_option linter.unusedTactic false
set_option linter.unreachableTactic false

namespace Sys2Proof.Machine

/-- The state but for the runs, their records and what waits for either. -/
def besideRuns (s : State) : State :=
  { s with
    fw := { s.fw with progress := [] }
    pat := { s.pat with seq := [], dram := [] }
    lp := { s.lp with loop := [] }
    meas := { s.meas with avg := [], unit := [] }
    harv := { s.harv with stager := [], ring := [], credit := [], ends := [], late := [] }
    link := { s.link with port := [], mtag := 0 }
    flt := { s.flt with block := [], waiting := [] } }

/-- `t` is `v` but for the runs, their records and what waits for either. -/
def RunsOnly (v t : State) : Prop := besideRuns t = besideRuns v

variable {v s : State}

/-- An update of those parts. -/
theorem runs_mk {a0 a1 a2 a3 a4 a5 a6 a7 a8 a9 a10 a11 a12 a13 a14 a15 a16} (hp : a0 = s.pending)
    (e : besideRuns (State.mk a0 a1 a2 a3 a4 a5 a6 a7 a8 a9 a10 a11 a12 a13 a14 a15 a16) = besideRuns s) (h : RunsOnly v s) :
    RunsOnly v (State.mk a0 a1 a2 a3 a4 a5 a6 a7 a8 a9 a10 a11 a12 a13 a14 a15 a16) := e.trans h

theorem runs_refl : RunsOnly s s := rfl

theorem runs_trans {t : State} (h : RunsOnly v s) (h' : RunsOnly s t) : RunsOnly v t := h'.trans h

theorem runs_ite {c : Prop} [Decidable c] {a b : State} (h1 : c → RunsOnly v a) (h2 : ¬c → RunsOnly v b) : RunsOnly v (if c then a else b) := by
  split
  · exact h1 ‹_›
  · exact h2 ‹_›

theorem runs_foldl {α} {f : State → α → State} {l : List α} (h : RunsOnly v s) (hf : ∀ t a, RunsOnly v t → RunsOnly v (f t a)) : RunsOnly v (l.foldl f s) := by
  induction l generalizing s with
  | nil => exact h
  | cons a r ih => exact ih (hf _ _ h)

/-- A state that comes with an answer. -/
def RunsOnlyFst {α : Type} (v : State) (q : State × α) : Prop := RunsOnly v q.1

theorem runs_fst {α : Type} {q : State × α} {t : State} {x : α} (e : q = (t, x)) (h : RunsOnlyFst v q) : RunsOnly v t := by
  subst e
  exact h

theorem runs_of_fst {α : Type} {q : State × α} (h : RunsOnlyFst v q) : RunsOnly v q.1 := h

theorem runsFst_mk {α : Type} {x : α} (h : RunsOnly v s) : RunsOnlyFst v (s, x) := h

theorem runsFst_ite {α : Type} {c : Prop} [Decidable c] {a b : State × α} (h1 : c → RunsOnlyFst v a) (h2 : ¬c → RunsOnlyFst v b) :
    RunsOnlyFst v (if c then a else b) := by
  split
  · exact h1 ‹_›
  · exact h2 ‹_›

theorem runsFst_foldl {α β : Type} {f : State × β → α → State × β} {l : List α} {q : State × β} (h : RunsOnlyFst v q)
    (hf : ∀ t a, RunsOnly v t.1 → RunsOnlyFst v (f t a)) : RunsOnlyFst v (l.foldl f q) := by
  induction l generalizing q with
  | nil => exact h
  | cons a r ih => exact ih (hf _ _ h)

theorem runsFoldl_fst {α β : Type} {f : State × β → α → State × β} {l : List α} {q : State × β} (h : RunsOnlyFst v q)
    (hf : ∀ t a, RunsOnly v t.1 → RunsOnlyFst v (f t a)) : RunsOnly v (l.foldl f q).1 := runsFst_foldl h hf

theorem State.modProg_runs {a2} {a3} (h : RunsOnly v s) : RunsOnly v (State.modProg s a2 a3) := h

theorem State.modFblk_runs {a2} {a3} (h : RunsOnly v s) : RunsOnly v (State.modFblk s a2 a3) := h

theorem State.modSeq_runs {a2} {a3} (h : RunsOnly v s) : RunsOnly v (State.modSeq s a2 a3) := h

theorem State.modLoop_runs {a2} {a3} (h : RunsOnly v s) : RunsOnly v (State.modLoop s a2 a3) := h

theorem State.modAvg_runs {a2} {a3} (h : RunsOnly v s) : RunsOnly v (State.modAvg s a2 a3) := h

theorem State.modTiu_runs {a2} {a3} (h : RunsOnly v s) : RunsOnly v (State.modTiu s a2 a3) := h

theorem State.modStager_runs {a2} {a3} (h : RunsOnly v s) : RunsOnly v (State.modStager s a2 a3) := h

theorem State.modRing_runs {a2} {a3} (h : RunsOnly v s) : RunsOnly v (State.modRing s a2 a3) := h

theorem State.modPort_runs {a2} {a3} (h : RunsOnly v s) : RunsOnly v (State.modPort s a2 a3) := h

theorem State.live_runs {a2} {a3} {a4} (h : RunsOnly v s) : RunsOnly v (State.live s a2 a3 a4) := by
  unfold State.live
  repeat' (first | with_reducible assumption | intro _ | with_reducible apply runs_ite | with_reducible apply State.modFblk_runs | dsimp only)

theorem State.raise_runs {a2} {a3} {a4} {a5} (h : RunsOnly v s) : RunsOnly v (State.raise s a2 a3 a4 a5) := by
  unfold State.raise
  repeat' (first | with_reducible assumption | intro _ | with_reducible apply runs_ite | with_reducible apply State.live_runs | (fail_if_no_progress with_reducible (refine runs_mk rfl rfl ?_)) | dsimp only)

theorem State.modCls_runs {a2} {a3} {a4} (h : RunsOnly v s) : RunsOnly v (State.modCls s a2 a3 a4) := h

theorem enqueueFrom_runs {a1} {a3} {a4} {a5} (h : RunsOnly v s) : RunsOnly v (enqueueFrom a1 s a3 a4 a5) := by
  unfold enqueueFrom
  repeat' (first | with_reducible assumption | intro _ | with_reducible apply runs_ite | with_reducible apply State.raise_runs | with_reducible apply State.modCls_runs | dsimp only)

theorem enqueue_runs {a2} {a3} {a4} (h : RunsOnly v s) : RunsOnly v (enqueue s a2 a3 a4) := by
  unfold enqueue
  repeat' (first | with_reducible assumption | intro _ | with_reducible apply enqueueFrom_runs)

theorem sendRoot_runs {a2} {a3} {a4} (h : RunsOnly v s) : RunsOnly v (sendRoot s a2 a3 a4) := by
  unfold sendRoot
  repeat' (first | with_reducible assumption | intro _ | with_reducible apply enqueue_runs | (fail_if_no_progress with_reducible (refine runs_mk rfl rfl ?_)) | dsimp only)

theorem handOver_runs {a2} (h : RunsOnly v s) : RunsOnly v (handOver s a2) := by
  unfold handOver
  repeat' (first | with_reducible assumption | intro _ | with_reducible apply State.modStager_runs | dsimp only)

theorem stageRoom_runs {a2} {a3} (h : RunsOnly v s) : ∀ t, stageRoom s a2 a3 = some t → RunsOnly v t := by
  intro t e
  unfold stageRoom at e
  (try dsimp only at e)
  repeat' (split at e)
  all_goals (first | cases e | skip)
  all_goals (try cases e)
  all_goals (repeat' (first | with_reducible assumption | intro _ | with_reducible apply runs_ite | with_reducible apply handOver_runs | dsimp only))

theorem placeIn_runs {a2} {a3} {a4} {a5} {a6} (h : RunsOnly v s) : RunsOnly v (placeIn s a2 a3 a4 a5 a6) := by
  unfold placeIn
  repeat' (first | with_reducible assumption | intro _ | with_reducible apply runs_ite | with_reducible apply State.modStager_runs | with_reducible apply State.modRing_runs | dsimp only)

theorem sendNotify_runs {a2} (h : RunsOnly v s) : RunsOnly v (sendNotify s a2) := by
  unfold sendNotify
  repeat' (first | with_reducible assumption | intro _ | with_reducible apply sendRoot_runs | with_reducible apply State.modRing_runs | split | dsimp only)

theorem notifyUnitsCheck_runs {a2} (h : RunsOnly v s) : RunsOnly v (notifyUnitsCheck s a2) := by
  unfold notifyUnitsCheck
  repeat' (first | with_reducible assumption | intro _ | with_reducible apply runs_ite | with_reducible apply sendNotify_runs | dsimp only)

theorem advanceRing_runs {a2} (h : RunsOnly v s) : RunsOnly v (advanceRing s a2) := by
  unfold advanceRing
  repeat' (first | with_reducible assumption | intro _ | with_reducible apply runs_ite | with_reducible apply State.modRing_runs | with_reducible apply notifyUnitsCheck_runs | split | with_reducible apply runsFst_mk | with_reducible refine runs_fst (by with_reducible assumption) ?_ | dsimp only)

theorem ringWrite_runs {a2} {a3} {a4} (h : RunsOnly v s) : RunsOnly v (ringWrite s a2 a3 a4) := h

theorem markWritten_runs {a2} {a3} (h : RunsOnly v s) : RunsOnly v (markWritten s a2 a3) := by
  unfold markWritten
  repeat' (first | with_reducible assumption | intro _ | with_reducible apply runs_ite | with_reducible apply State.modRing_runs | with_reducible apply advanceRing_runs | dsimp only)

theorem dropRecord_runs {a2} {a3} (h : RunsOnly v s) : RunsOnly v (dropRecord s a2 a3) := by
  unfold dropRecord
  repeat' (first | with_reducible assumption | intro _ | with_reducible apply State.modRing_runs | split | dsimp only)

theorem closeLoss_runs {a2} (h : RunsOnly v s) : RunsOnly v (closeLoss s a2) := by
  unfold closeLoss
  repeat' (first | with_reducible assumption | intro _ | with_reducible apply runs_ite | with_reducible apply ringWrite_runs | with_reducible apply State.modRing_runs | with_reducible apply markWritten_runs | split | dsimp only)

theorem takeCredit_runs {a2} {a3} (h : RunsOnly v s) : RunsOnly v (takeCredit s a2 a3) := by
  unfold takeCredit
  repeat' (first | with_reducible assumption | intro _ | with_reducible apply State.modRing_runs | dsimp only)

theorem reserve_runs {a2} {a3} (h : RunsOnly v s) : ∀ t, reserve s a2 a3 = some t → RunsOnly v t := by
  intro t e
  unfold reserve at e
  (try dsimp only at e)
  repeat' (split at e)
  all_goals (first | cases e | skip)
  all_goals (try cases e)
  all_goals (repeat' (first | with_reducible assumption | intro _ | with_reducible apply runs_ite | with_reducible apply takeCredit_runs))

theorem joinWaiters_runs {a2} {a3} {a4} (h : RunsOnly v s) : RunsOnly v (joinWaiters s a2 a3 a4) := by
  unfold joinWaiters
  repeat' (first | with_reducible assumption | intro _ | with_reducible apply runs_ite | with_reducible apply State.modRing_runs | dsimp only)

theorem leaveWaiters_runs {a2} {a3} (h : RunsOnly v s) : RunsOnly v (leaveWaiters s a2 a3) := by
  unfold leaveWaiters
  repeat' (first | with_reducible assumption | intro _ | with_reducible apply State.modRing_runs | dsimp only)

theorem modMeasRun_runs {a2} {a3} (h : RunsOnly v s) : RunsOnly v (modMeasRun s a2 a3) := by
  unfold modMeasRun
  repeat' (first | with_reducible assumption | intro _ | with_reducible apply State.modAvg_runs | dsimp only)

theorem modLockRun_runs {a2} {a3} (h : RunsOnly v s) : RunsOnly v (modLockRun s a2 a3) := by
  unfold modLockRun
  repeat' (first | with_reducible assumption | intro _ | with_reducible apply State.modAvg_runs | dsimp only)

theorem modTimRun_runs {a2} {a3} (h : RunsOnly v s) : RunsOnly v (modTimRun s a2 a3) := by
  unfold modTimRun
  repeat' (first | with_reducible assumption | intro _ | with_reducible apply State.modTiu_runs | dsimp only)

theorem modSweep_runs {a2} {a3} (h : RunsOnly v s) : RunsOnly v (modSweep s a2 a3) := by
  unfold modSweep
  repeat' (first | with_reducible assumption | intro _ | with_reducible apply State.modLoop_runs | split | dsimp only)

theorem grantCredit_runs {a2} {a3} {a4} (h : RunsOnly v s) : RunsOnly v (grantCredit s a2 a3 a4) := by
  unfold grantCredit
  repeat' (first | with_reducible assumption | intro _ | with_reducible apply runs_foldl | with_reducible apply State.modSeq_runs | with_reducible apply modSweep_runs | with_reducible apply modMeasRun_runs | with_reducible apply modLockRun_runs | with_reducible apply modTimRun_runs | (fail_if_no_progress with_reducible (refine runs_mk rfl rfl ?_)) | split | dsimp only)

theorem serveWaiters_runs {a2} {a3} (h : RunsOnly v s) : RunsOnly v (serveWaiters s a2 a3) := by
  induction a3 generalizing s with
  | nil => unfold serveWaiters; exact h
  | cons x q ih =>
    unfold serveWaiters
    repeat' (first | with_reducible apply ih | with_reducible refine runs_of_fst (ih ?_) | with_reducible assumption | intro _ | with_reducible apply runs_ite | with_reducible apply grantCredit_runs | with_reducible apply leaveWaiters_runs | with_reducible apply takeCredit_runs | split | dsimp only)

theorem finalProgress_runs {a2} (h : RunsOnly v s) : RunsOnly v (finalProgress s a2) := by
  unfold finalProgress
  repeat' (first | with_reducible assumption | intro _ | with_reducible apply runs_ite | with_reducible apply State.modProg_runs | dsimp only)

theorem placeCompletion_runs {a2} (h : RunsOnly v s) : ∀ t, placeCompletion s a2 = some t → RunsOnly v t := by
  intro t e
  unfold placeCompletion at e
  (try dsimp only at e)
  repeat' (split at e)
  all_goals (first | cases e | skip)
  all_goals (try cases e)
  all_goals (repeat' (first | with_reducible assumption | intro _ | with_reducible apply runs_ite | with_reducible refine stageRoom_runs ?_ _ (by with_reducible assumption) | with_reducible apply State.modRing_runs | with_reducible apply placeIn_runs | with_reducible apply finalProgress_runs | (fail_if_no_progress with_reducible (refine runs_mk rfl rfl ?_)) | split | dsimp only))

theorem endWork_runs {a2} (h : RunsOnly v s) : RunsOnly v (endWork s a2) := by
  unfold endWork
  repeat' (first | with_reducible assumption | intro _ | with_reducible apply runs_ite | with_reducible refine placeCompletion_runs ?_ _ (by with_reducible assumption) | with_reducible apply State.raise_runs | with_reducible apply finalProgress_runs | with_reducible apply dropRecord_runs | with_reducible apply leaveWaiters_runs | (fail_if_no_progress with_reducible (refine runs_mk rfl rfl ?_)) | split | dsimp only)

theorem retryEnds_runs {a2} (h : RunsOnly v s) : RunsOnly v (retryEnds s a2) := by
  induction a2 generalizing s with
  | nil => unfold retryEnds; exact h
  | cons x q ih =>
    unfold retryEnds
    repeat' (first | with_reducible apply ih | with_reducible refine runs_of_fst (ih ?_) | with_reducible assumption | intro _ | with_reducible apply runs_ite | with_reducible refine placeCompletion_runs ?_ _ (by with_reducible assumption) | with_reducible apply finalProgress_runs | with_reducible apply dropRecord_runs | with_reducible apply leaveWaiters_runs | (fail_if_no_progress with_reducible (refine runs_mk rfl rfl ?_)) | split | dsimp only)

theorem serviceRing_runs {a2} (h : RunsOnly v s) : RunsOnly v (serviceRing s a2) := by
  unfold serviceRing
  repeat' (first | with_reducible assumption | intro _ | with_reducible apply closeLoss_runs | with_reducible apply serveWaiters_runs | with_reducible apply retryEnds_runs | dsimp only)

theorem returnCredit_runs {a2} {a3} (h : RunsOnly v s) : RunsOnly v (returnCredit s a2 a3) := by
  unfold returnCredit
  repeat' (first | with_reducible assumption | intro _ | with_reducible apply serviceRing_runs | with_reducible apply State.modRing_runs | dsimp only)

theorem emitRecord_runs {a2} {a3} {a4} {a5} {a6} {a7} {a8} {a9} {a10} (h : RunsOnly v s) : RunsOnlyFst v (emitRecord s a2 a3 a4 a5 a6 a7 a8 a9 a10) := by
  unfold emitRecord
  repeat' (first | with_reducible assumption | intro _ | with_reducible apply runs_ite | with_reducible apply runsFst_ite | with_reducible refine reserve_runs ?_ _ (by with_reducible assumption) | with_reducible apply dropRecord_runs | with_reducible refine stageRoom_runs ?_ _ (by with_reducible assumption) | with_reducible apply State.raise_runs | with_reducible apply State.modRing_runs | with_reducible apply placeIn_runs | split | with_reducible apply runsFst_mk | with_reducible refine runs_fst (by with_reducible assumption) ?_ | dsimp only)

theorem placeHeld_runs {a2} {a3} {a4} {a5} {a6} {a7} {a8} {a9} {a10} (h : RunsOnly v s) : RunsOnlyFst v (placeHeld s a2 a3 a4 a5 a6 a7 a8 a9 a10) := by
  unfold placeHeld
  repeat' (first | with_reducible assumption | intro _ | with_reducible apply runs_ite | with_reducible apply runsFst_ite | with_reducible refine stageRoom_runs ?_ _ (by with_reducible assumption) | with_reducible apply State.raise_runs | with_reducible apply State.modRing_runs | with_reducible apply placeIn_runs | with_reducible apply serviceRing_runs | split | with_reducible apply runsFst_mk | with_reducible refine runs_fst (by with_reducible assumption) ?_ | dsimp only)

theorem placeLast_runs {a2} {a3} {a4} {a5} {a6} {a7} {a8} {a9} {a10} (h : RunsOnly v s) : RunsOnly v (placeLast s a2 a3 a4 a5 a6 a7 a8 a9 a10) := by
  unfold placeLast
  repeat' (first | with_reducible assumption | intro _ | with_reducible apply runs_ite | with_reducible apply runsFst_ite | with_reducible apply placeHeld_runs | with_reducible refine runs_of_fst (placeHeld_runs ?_) | with_reducible refine runs_fst (by with_reducible assumption) (placeHeld_runs ?_) | (fail_if_no_progress with_reducible (refine runs_mk rfl rfl ?_)) | split | with_reducible apply runsFst_mk | with_reducible refine runs_fst (by with_reducible assumption) ?_ | dsimp only)

theorem askCredit_runs {a2} {a3} {a4} (h : RunsOnly v s) : RunsOnlyFst v (askCredit s a2 a3 a4) := by
  unfold askCredit
  repeat' (first | with_reducible assumption | intro _ | with_reducible apply runs_ite | with_reducible apply runsFst_ite | with_reducible refine reserve_runs ?_ _ (by with_reducible assumption) | with_reducible apply dropRecord_runs | with_reducible apply joinWaiters_runs | split | with_reducible apply runsFst_mk | with_reducible refine runs_fst (by with_reducible assumption) ?_ | dsimp only)

theorem forgetTag_runs {a2} (h : RunsOnly v s) : RunsOnly v (forgetTag s a2) := by
  unfold forgetTag
  repeat' (first | with_reducible assumption | intro _ | with_reducible apply runs_ite | (fail_if_no_progress with_reducible (refine runs_mk rfl rfl ?_)) | split | dsimp only)

theorem beginWork_runs {a2} {a3} {a4} {a5} {a6} (h : RunsOnly v s) : RunsOnly v (beginWork s a2 a3 a4 a5 a6) := by
  unfold beginWork
  repeat' (first | with_reducible assumption | intro _ | with_reducible apply runs_ite | with_reducible apply forgetTag_runs | with_reducible apply State.modProg_runs | with_reducible refine reserve_runs ?_ _ (by with_reducible assumption) | with_reducible apply joinWaiters_runs | (fail_if_no_progress with_reducible (refine runs_mk rfl rfl ?_)) | split | dsimp only)

theorem endTimRun_runs {a2} {a3} {a4} (h : RunsOnly v s) : RunsOnly v (endTimRun s a2 a3 a4) := by
  unfold endTimRun
  repeat' (first | with_reducible assumption | intro _ | with_reducible apply runs_ite | with_reducible apply State.modTiu_runs | with_reducible apply leaveWaiters_runs | with_reducible apply returnCredit_runs | with_reducible apply endWork_runs | split | dsimp only)

theorem timDone_runs {a2} {a3} (h : RunsOnly v s) : RunsOnly v (timDone s a2 a3) := by
  unfold timDone
  repeat' (first | with_reducible assumption | intro _ | with_reducible apply runs_ite | with_reducible apply modTimRun_runs | with_reducible apply State.modProg_runs | with_reducible apply endTimRun_runs | dsimp only)

theorem modWin_runs {a2} {a3} (h : RunsOnly v s) : RunsOnly v (modWin s a2 a3) := by
  unfold modWin
  repeat' (first | with_reducible assumption | intro _ | with_reducible apply modTimRun_runs | dsimp only)

theorem openWindow_runs {a2} (h : RunsOnly v s) : RunsOnly v (openWindow s a2) := by
  unfold openWindow
  repeat' (first | with_reducible assumption | intro _ | with_reducible apply runs_ite | with_reducible apply runsFst_ite | with_reducible apply askCredit_runs | with_reducible refine runs_of_fst (askCredit_runs ?_) | with_reducible refine runs_fst (by with_reducible assumption) (askCredit_runs ?_) | with_reducible apply modWin_runs | split | with_reducible apply runsFst_mk | with_reducible refine runs_fst (by with_reducible assumption) ?_ | dsimp only)

theorem writeWindow_runs {a2} (h : RunsOnly v s) : RunsOnlyFst v (writeWindow s a2) := by
  unfold writeWindow
  repeat' (first | with_reducible assumption | intro _ | with_reducible apply runs_ite | with_reducible apply runsFst_ite | with_reducible apply placeHeld_runs | with_reducible refine runs_of_fst (placeHeld_runs ?_) | with_reducible refine runs_fst (by with_reducible assumption) (placeHeld_runs ?_) | with_reducible apply openWindow_runs | with_reducible apply timDone_runs | with_reducible apply modTimRun_runs | split | with_reducible apply runsFst_mk | with_reducible refine runs_fst (by with_reducible assumption) ?_ | dsimp only)

theorem discard_runs {a2} (h : RunsOnly v s) : RunsOnly v (discard s a2) := by
  unfold discard
  repeat' (first | with_reducible assumption | intro _ | with_reducible apply modWin_runs | dsimp only)

theorem addSample_runs {a2} {a3} {a4} {a5} (h : RunsOnly v s) : RunsOnly v (addSample s a2 a3 a4 a5) := by
  unfold addSample
  repeat' (first | with_reducible assumption | intro _ | with_reducible apply runs_ite | with_reducible apply runsFst_ite | with_reducible apply writeWindow_runs | with_reducible refine runs_of_fst (writeWindow_runs ?_) | with_reducible refine runs_fst (by with_reducible assumption) (writeWindow_runs ?_) | with_reducible apply discard_runs | with_reducible apply openWindow_runs | with_reducible apply modWin_runs | split | with_reducible apply runsFst_mk | with_reducible refine runs_fst (by with_reducible assumption) ?_ | dsimp only)

theorem takeSample_runs {a2} {a3} {a4} {a5} {a6} (h : RunsOnly v s) : RunsOnly v (takeSample s a2 a3 a4 a5 a6) := by
  unfold takeSample
  repeat' (first | with_reducible assumption | intro _ | with_reducible apply runs_ite | with_reducible apply modWin_runs | with_reducible apply discard_runs | with_reducible apply addSample_runs | dsimp only)

theorem closeStamps_runs {a2} (h : RunsOnly v s) : RunsOnly v (closeStamps s a2) := by
  unfold closeStamps
  repeat' (first | with_reducible assumption | intro _ | with_reducible apply runs_ite | with_reducible apply runsFst_ite | with_reducible apply placeHeld_runs | with_reducible refine runs_of_fst (placeHeld_runs ?_) | with_reducible refine runs_fst (by with_reducible assumption) (placeHeld_runs ?_) | with_reducible apply timDone_runs | with_reducible apply modTimRun_runs | with_reducible apply dropRecord_runs | with_reducible apply returnCredit_runs | split | with_reducible apply runsFst_mk | with_reducible refine runs_fst (by with_reducible assumption) ?_ | dsimp only)

theorem drainStamp_runs {a2} (h : RunsOnly v s) : RunsOnly v (drainStamp s a2) := by
  unfold drainStamp
  repeat' (first | with_reducible assumption | intro _ | with_reducible apply runs_ite | with_reducible apply runsFst_ite | with_reducible apply closeStamps_runs | with_reducible apply modTimRun_runs | with_reducible apply State.modTiu_runs | with_reducible apply askCredit_runs | with_reducible refine runs_of_fst (askCredit_runs ?_) | with_reducible refine runs_fst (by with_reducible assumption) (askCredit_runs ?_) | split | with_reducible apply runsFst_mk | with_reducible refine runs_fst (by with_reducible assumption) ?_ | dsimp only)

theorem drainStamps_runs {a2} {a3} (h : RunsOnly v s) : RunsOnly v (drainStamps s a2 a3) := by
  induction a3 generalizing s with
  | zero => unfold drainStamps; exact h
  | succ q ih =>
    unfold drainStamps
    repeat' (first | with_reducible apply ih | with_reducible refine runs_of_fst (ih ?_) | with_reducible assumption | intro _ | with_reducible apply drainStamp_runs | split | dsimp only)

theorem pushStamp_runs {a2} {a3} (h : RunsOnly v s) : RunsOnly v (pushStamp s a2 a3) := by
  unfold pushStamp
  repeat' (first | with_reducible assumption | intro _ | with_reducible apply runs_ite | with_reducible apply State.modTiu_runs | with_reducible apply drainStamps_runs | with_reducible apply modTimRun_runs | with_reducible apply State.raise_runs | split | dsimp only)

theorem dropAttempt_runs {a2} (h : RunsOnly v s) : RunsOnly v (dropAttempt s a2) := by
  unfold dropAttempt
  repeat' (first | with_reducible assumption | intro _ | with_reducible apply modWin_runs | with_reducible apply modTimRun_runs | dsimp only)

theorem gateEnds_runs {a2} {a3} (h : RunsOnly v s) : RunsOnly v (gateEnds s a2 a3) := by
  unfold gateEnds
  repeat' (first | with_reducible assumption | intro _ | with_reducible apply runs_ite | with_reducible apply modTimRun_runs | with_reducible apply modWin_runs | with_reducible apply takeSample_runs | split | dsimp only)

theorem edgeToRun_runs {a2} {a3} {a4} {a5} (h : RunsOnly v s) : RunsOnly v (edgeToRun s a2 a3 a4 a5) := by
  unfold edgeToRun
  repeat' (first | with_reducible assumption | intro _ | with_reducible apply runs_ite | with_reducible apply openWindow_runs | with_reducible apply pushStamp_runs | with_reducible apply gateEnds_runs | with_reducible apply modTimRun_runs | with_reducible apply modWin_runs | with_reducible apply discard_runs | with_reducible apply takeSample_runs | with_reducible apply dropAttempt_runs | split | dsimp only)

theorem acceptEdge_runs {a2} {a3} {a4} {a5} {a6} (h : RunsOnly v s) : RunsOnly v (acceptEdge s a2 a3 a4 a5 a6) := by
  unfold acceptEdge
  repeat' (first | with_reducible assumption | intro _ | with_reducible apply runs_ite | with_reducible apply State.modTiu_runs | with_reducible apply modTimRun_runs | with_reducible apply modWin_runs | with_reducible apply edgeToRun_runs | dsimp only)

theorem channelEdge_runs {a2} {a3} {a4} {a5} (h : RunsOnly v s) : RunsOnly v (channelEdge s a2 a3 a4 a5) := by
  unfold channelEdge
  repeat' (first | with_reducible assumption | intro _ | with_reducible apply runs_ite | with_reducible apply acceptEdge_runs | split | with_reducible apply runsFst_mk | with_reducible refine runs_fst (by with_reducible assumption) ?_ | dsimp only)

theorem unitEdges_runs {a2} {a3} {a4} (h : RunsOnly v s) : RunsOnly v (unitEdges s a2 a3 a4) := by
  unfold unitEdges
  repeat' (first | with_reducible assumption | intro _ | with_reducible apply runs_ite | with_reducible apply runs_foldl | with_reducible apply runsFst_foldl | with_reducible apply runsFoldl_fst | with_reducible apply channelEdge_runs | dsimp only)

theorem settleBurst_runs {a2} (h : RunsOnly v s) : RunsOnly v (settleBurst s a2) := by
  unfold settleBurst
  repeat' (first | with_reducible assumption | intro _ | with_reducible apply runs_ite | with_reducible apply runsFst_ite | with_reducible apply placeHeld_runs | with_reducible refine runs_of_fst (placeHeld_runs ?_) | with_reducible refine runs_fst (by with_reducible assumption) (placeHeld_runs ?_) | with_reducible apply State.modSeq_runs | with_reducible apply dropRecord_runs | with_reducible apply leaveWaiters_runs | with_reducible apply endWork_runs | with_reducible apply State.modProg_runs | split | with_reducible apply runsFst_mk | with_reducible refine runs_fst (by with_reducible assumption) ?_ | dsimp only)

theorem endMeasRun_runs {a2} {a3} (h : RunsOnly v s) : RunsOnly v (endMeasRun s a2 a3) := by
  unfold endMeasRun
  repeat' (first | with_reducible assumption | intro _ | with_reducible apply runs_ite | with_reducible apply State.modAvg_runs | with_reducible apply leaveWaiters_runs | with_reducible apply returnCredit_runs | with_reducible apply endWork_runs | split | dsimp only)

theorem endMeasWindow_runs {a2} {a3} (h : RunsOnly v s) : RunsOnly v (endMeasWindow s a2 a3) := by
  unfold endMeasWindow
  repeat' (first | with_reducible assumption | intro _ | with_reducible apply runs_ite | with_reducible apply runsFst_ite | with_reducible apply modMeasRun_runs | with_reducible apply placeLast_runs | with_reducible apply placeHeld_runs | with_reducible refine runs_of_fst (placeHeld_runs ?_) | with_reducible refine runs_fst (by with_reducible assumption) (placeHeld_runs ?_) | with_reducible apply State.modProg_runs | with_reducible apply endMeasRun_runs | split | with_reducible apply runsFst_mk | with_reducible refine runs_fst (by with_reducible assumption) ?_ | dsimp only)

theorem askUnits_runs {a2} (h : RunsOnly v s) : RunsOnly v (askUnits s a2) := by
  unfold askUnits
  repeat' (first | with_reducible assumption | intro _ | with_reducible apply runs_ite | with_reducible apply runsFst_ite | with_reducible apply modMeasRun_runs | with_reducible apply returnCredit_runs | with_reducible apply askCredit_runs | with_reducible refine runs_of_fst (askCredit_runs ?_) | with_reducible refine runs_fst (by with_reducible assumption) (askCredit_runs ?_) | split | with_reducible apply runsFst_mk | with_reducible refine runs_fst (by with_reducible assumption) ?_ | dsimp only)

theorem askWindow_runs {a2} {a3} (h : RunsOnly v s) : RunsOnlyFst v (askWindow s a2 a3) := by
  unfold askWindow
  repeat' (first | with_reducible assumption | intro _ | with_reducible apply runs_ite | with_reducible apply runs_foldl | with_reducible apply runsFst_ite | with_reducible apply runsFst_foldl | with_reducible apply runsFoldl_fst | with_reducible apply askUnits_runs | with_reducible apply runsFst_mk | dsimp only)

theorem feedAverage_runs {a2} {a3} (h : RunsOnly v s) : RunsOnly v (feedAverage s a2 a3) := by
  unfold feedAverage
  repeat' (first | with_reducible assumption | intro _ | with_reducible apply runs_ite | with_reducible apply runsFst_ite | with_reducible apply endMeasWindow_runs | with_reducible apply modMeasRun_runs | with_reducible apply endMeasRun_runs | with_reducible apply askWindow_runs | with_reducible refine runs_of_fst (askWindow_runs ?_) | with_reducible refine runs_fst (by with_reducible assumption) (askWindow_runs ?_) | split | with_reducible apply runsFst_mk | with_reducible refine runs_fst (by with_reducible assumption) ?_ | dsimp only)

theorem closeRaw_runs {a2} {a3} (h : RunsOnly v s) : RunsOnly v (closeRaw s a2 a3) := by
  unfold closeRaw
  repeat' (first | with_reducible assumption | intro _ | with_reducible apply runs_ite | with_reducible apply runsFst_ite | with_reducible apply modMeasRun_runs | with_reducible apply placeHeld_runs | with_reducible refine runs_of_fst (placeHeld_runs ?_) | with_reducible refine runs_fst (by with_reducible assumption) (placeHeld_runs ?_) | with_reducible apply State.modProg_runs | with_reducible apply endMeasRun_runs | with_reducible apply returnCredit_runs | with_reducible apply dropRecord_runs | split | with_reducible apply runsFst_mk | with_reducible refine runs_fst (by with_reducible assumption) ?_ | dsimp only)

theorem feedRawChannel_runs {a2} {a3} {a4} (h : RunsOnly v s) : RunsOnly v (feedRawChannel s a2 a3 a4) := by
  unfold feedRawChannel
  repeat' (first | with_reducible assumption | intro _ | with_reducible apply runs_ite | with_reducible apply runsFst_ite | with_reducible apply closeRaw_runs | with_reducible apply modMeasRun_runs | with_reducible refine reserve_runs ?_ _ (by with_reducible assumption) | with_reducible apply dropRecord_runs | split | with_reducible apply runsFst_mk | with_reducible refine runs_fst (by with_reducible assumption) ?_ | dsimp only)

theorem feedRaw_runs {a2} {a3} {a4} (h : RunsOnly v s) : RunsOnly v (feedRaw s a2 a3 a4) := by
  unfold feedRaw
  repeat' (first | with_reducible assumption | intro _ | with_reducible apply runs_ite | with_reducible apply modMeasRun_runs | with_reducible apply feedRawChannel_runs | dsimp only)

theorem feedMeas_runs {a2} {a3} (h : RunsOnly v s) : RunsOnly v (feedMeas s a2 a3) := by
  unfold feedMeas
  repeat' (first | with_reducible assumption | intro _ | with_reducible apply runs_ite | with_reducible apply feedRaw_runs | with_reducible apply feedAverage_runs | split | dsimp only)

theorem endLockRun_runs {a2} {a3} {a4} (h : RunsOnly v s) : RunsOnly v (endLockRun s a2 a3 a4) := by
  unfold endLockRun
  repeat' (first | with_reducible assumption | intro _ | with_reducible apply runs_ite | with_reducible apply State.modAvg_runs | with_reducible apply leaveWaiters_runs | with_reducible apply returnCredit_runs | with_reducible apply endWork_runs | split | dsimp only)

theorem putLast_runs {a2} {a3} {a4} {a5} {a6} (h : RunsOnly v s) : RunsOnly v (putLast s a2 a3 a4 a5 a6) := by
  unfold putLast
  repeat' (first | with_reducible assumption | intro _ | with_reducible apply runs_ite | with_reducible apply placeLast_runs | split | with_reducible apply runsFst_mk | with_reducible refine runs_fst (by with_reducible assumption) ?_ | dsimp only)

theorem endLockWindow_runs {a2} (h : RunsOnly v s) : RunsOnly v (endLockWindow s a2) := by
  unfold endLockWindow
  repeat' (first | with_reducible assumption | intro _ | with_reducible apply runs_ite | with_reducible apply runsFst_ite | with_reducible apply placeHeld_runs | with_reducible refine runs_of_fst (placeHeld_runs ?_) | with_reducible refine runs_fst (by with_reducible assumption) (placeHeld_runs ?_) | with_reducible apply modLockRun_runs | with_reducible apply State.modProg_runs | with_reducible apply endLockRun_runs | split | with_reducible apply runsFst_mk | with_reducible refine runs_fst (by with_reducible assumption) ?_ | dsimp only)

theorem startLockWindow_runs {a2} {a3} {a4} {a5} (h : RunsOnly v s) : RunsOnly v (startLockWindow s a2 a3 a4 a5) := by
  unfold startLockWindow
  repeat' (first | with_reducible assumption | intro _ | with_reducible apply runs_ite | with_reducible apply runs_foldl | with_reducible apply runsFst_ite | with_reducible apply runsFst_foldl | with_reducible apply runsFoldl_fst | with_reducible apply askCredit_runs | with_reducible refine runs_of_fst (askCredit_runs ?_) | with_reducible refine runs_fst (by with_reducible assumption) (askCredit_runs ?_) | with_reducible apply modLockRun_runs | split | with_reducible apply runsFst_mk | with_reducible refine runs_fst (by with_reducible assumption) ?_ | dsimp only)

theorem closeLock_runs {a2} {a3} (h : RunsOnly v s) : RunsOnly v (closeLock s a2 a3) := by
  unfold closeLock
  repeat' (first | with_reducible assumption | intro _ | with_reducible apply modLockRun_runs | split | dsimp only)

theorem cutLock_runs {a2} {a3} (h : RunsOnly v s) : RunsOnly v (cutLock s a2 a3) := by
  unfold cutLock
  repeat' (first | with_reducible assumption | intro _ | with_reducible apply endLockWindow_runs | with_reducible apply modLockRun_runs | with_reducible apply putLast_runs | with_reducible apply endLockRun_runs | split | dsimp only)

theorem endRefs_runs {a2} {a3} (h : RunsOnly v s) : RunsOnly v (endRefs s a2 a3) := by
  unfold endRefs
  repeat' (first | with_reducible assumption | intro _ | with_reducible apply runs_foldl | with_reducible apply runsFst_foldl | with_reducible apply runsFoldl_fst | with_reducible apply cutLock_runs | dsimp only)

theorem feedLock_runs {a2} {a3} (h : RunsOnly v s) : RunsOnly v (feedLock s a2 a3) := by
  unfold feedLock
  repeat' (first | with_reducible assumption | intro _ | with_reducible apply runs_ite | with_reducible apply endLockWindow_runs | with_reducible apply modLockRun_runs | with_reducible apply startLockWindow_runs | with_reducible apply closeLock_runs | split | with_reducible apply runsFst_mk | with_reducible refine runs_fst (by with_reducible assumption) ?_ | dsimp only)

theorem feedLoop_runs {a2} {a3} (h : RunsOnly v s) : RunsOnly v (feedLoop s a2 a3) := by
  unfold feedLoop
  repeat' (first | with_reducible assumption | intro _ | with_reducible apply runs_ite | with_reducible apply feedLock_runs | with_reducible apply feedMeas_runs | with_reducible apply State.modAvg_runs | split | dsimp only)

theorem endLoopRun_runs {a2} {a3} {a4} {a5} (h : RunsOnly v s) : RunsOnly v (endLoopRun s a2 a3 a4 a5) := by
  unfold endLoopRun
  repeat' (first | with_reducible assumption | intro _ | with_reducible apply runs_ite | with_reducible apply returnCredit_runs | with_reducible apply State.modAvg_runs | with_reducible apply endRefs_runs | with_reducible apply State.modLoop_runs | with_reducible apply endWork_runs | split | dsimp only)

theorem sweepRecord_runs {a2} {a3} {a4} (h : RunsOnly v s) : RunsOnlyFst v (sweepRecord s a2 a3 a4) := by
  unfold sweepRecord
  repeat' (first | with_reducible assumption | intro _ | with_reducible apply runs_ite | with_reducible apply runs_foldl | with_reducible apply runsFst_ite | with_reducible apply runsFst_foldl | with_reducible apply runsFoldl_fst | with_reducible apply placeHeld_runs | with_reducible refine runs_of_fst (placeHeld_runs ?_) | with_reducible refine runs_fst (by with_reducible assumption) (placeHeld_runs ?_) | split | with_reducible apply runsFst_mk | with_reducible refine runs_fst (by with_reducible assumption) ?_ | dsimp only)

theorem sweepClose_runs {a2} {a3} (h : RunsOnly v s) : RunsOnly v (sweepClose s a2 a3) := by
  unfold sweepClose
  repeat' (first | with_reducible assumption | intro _ | with_reducible apply runs_ite | with_reducible apply runsFst_ite | with_reducible apply sweepRecord_runs | with_reducible refine runs_of_fst (sweepRecord_runs ?_) | with_reducible refine runs_fst (by with_reducible assumption) (sweepRecord_runs ?_) | with_reducible apply State.modAvg_runs | with_reducible apply endLoopRun_runs | split | with_reducible apply runsFst_mk | with_reducible refine runs_fst (by with_reducible assumption) ?_ | dsimp only)

theorem deliver_runs {a2} {a3} {a4} (h : RunsOnly v s) : RunsOnly v (deliver s a2 a3 a4) := by
  unfold deliver
  repeat' (first | with_reducible assumption | intro _ | with_reducible apply State.modLoop_runs | with_reducible apply sweepClose_runs | with_reducible apply feedLoop_runs | dsimp only)

end Sys2Proof.Machine
end

section
/-! PROOFS. The bits that are live, what a transition does where no unit has a run, and the window monitors (R335 to R348). -/

set_option Elab.async false

namespace Sys2Proof.Machine

/-! What an operation on runs leaves of the parts that it touches. -/

section
variable {v t : State}

theorem flt_of_runs (h : RunsOnly v t) : t.flt = { v.flt with block := t.flt.block, waiting := t.flt.waiting } :=
  congrArg (fun x : State => { x.flt with block := t.flt.block, waiting := t.flt.waiting }) h

theorem fw_of_runs (h : RunsOnly v t) : t.fw = { v.fw with progress := t.fw.progress } :=
  congrArg (fun x : State => { x.fw with progress := t.fw.progress }) h

theorem monitor_of_runs (h : RunsOnly v t) : t.meas.monitor = v.meas.monitor := congrArg (fun x => x.meas.monitor) h

theorem wmon_of_runs (h : RunsOnly v t) (k : Nat) : t.wmon k = v.wmon k := by
  unfold State.wmon
  rw [monitor_of_runs h]

end

/-! LIVE bits (R510). -/

theorem live_fblk (s : State) (k src j : Nat) (on : Bool) : (s.live k src on).fblk j = if j = k then { s.fblk k with
    live := if on then (s.fblk k).live ||| BitVec.ofNat 64 (2 ^ src) else (s.fblk k).live &&& ~~~(BitVec.ofNat 64 (2 ^ src)) } else s.fblk j :=
  State.modFblk_fblk ..

theorem getLsbD_two_pow {src : Nat} (h : src < 64) : (BitVec.ofNat 64 (2 ^ src)).getLsbD src = true := by
  rw [BitVec.getLsbD_ofNat, Nat.testBit_two_pow_self, decide_eq_true h]
  rfl

theorem live_on (s : State) (k : Nat) {src : Nat} (h : src < 64) : ((s.live k src true).fblk k).live.getLsbD src = true := by
  rw [live_fblk, if_pos rfl, if_pos rfl, BitVec.getLsbD_or, getLsbD_two_pow h, Bool.or_true]

theorem live_off (s : State) (k : Nat) {src : Nat} (h : src < 64) : ((s.live k src false).fblk k).live.getLsbD src = false := by
  rw [live_fblk, if_pos rfl, if_neg Bool.false_ne_true, BitVec.getLsbD_and, BitVec.getLsbD_not, getLsbD_two_pow h]
  simp

theorem raise_live (s : State) {k src : Nat} (d0 d1 : Nat) (hsrc : src < 64) (h : srcEvent k src = false) :
    ((s.raise k src d0 d1).fblk k).live.getLsbD src = true := by
  unfold State.raise
  rw [h]
  exact live_on s k hsrc

theorem raise_waiting (s : State) (k src d0 d1 : Nat) : (s.raise k src d0 d1).flt.waiting = s.flt.waiting ++
    [{ block := k, source := src, d0 := w16 d0, d1 := w16 d1, forced := false, stamp := f3 s.clk.time }] := by
  unfold State.raise
  dsimp only
  split <;> rfl

theorem raise_parts (s : State) (k src d0 d1 : Nat) :
    ∃ b w, s.raise k src d0 d1 = { s with flt := { s.flt with block := b, waiting := w } } := by
  unfold State.raise
  dsimp only
  split
  · exact ⟨_, _, rfl⟩
  · exact ⟨_, _, rfl⟩

/-! A transition where no unit has a run changes stamps and counts of the units alone. -/

/-- No unit has a run. -/
def NoRuns (s : State) : Prop := ∀ u, (s.tiu u).run = none

theorem noRuns_of_rest {s : State} (h : UnitsRest s) : NoRuns s := fun u => by
  unfold State.tiu tget
  split
  next x hx =>
    obtain ⟨e, he, rfl⟩ : ∃ e ∈ s.meas.unit, e.2 = x := by
      obtain ⟨l, r, hl, -⟩ := List.lookup_eq_some_iff.1 hx
      exact ⟨(u, x), by rw [hl]; simp, rfl⟩
    exact h e he
  next => rfl

/-- `t` is `s` but for units, none of which has a run. -/
def UnitsOnly (s t : State) : Prop := NoRuns t ∧ ∃ m, t = { s with meas := { s.meas with unit := m } }

theorem unitsOnly_modTiu {s t : State} (h : UnitsOnly s t) (n : Nat) {f : TimeInterval → TimeInterval} (hf : ∀ x, x.run = none → (f x).run = none) :
    UnitsOnly s (t.modTiu n f) := by
  obtain ⟨hruns, m, rfl⟩ := h
  refine ⟨fun u => ?_, _, rfl⟩
  rw [State.modTiu_tiu]
  split
  · exact hf _ (hruns n)
  · exact hruns u

theorem unitsOnly_modTimRun {s t : State} (h : UnitsOnly s t) (n : Nat) (f : TimRun → TimRun) : UnitsOnly s (modTimRun t n f) :=
  unitsOnly_modTiu h n fun x hx => by simp [hx]

theorem unitsOnly_ite {s a b : State} {p : Prop} [Decidable p] (ha : UnitsOnly s a) (hb : UnitsOnly s b) : UnitsOnly s (if p then a else b) := by
  split
  · exact ha
  · exact hb

theorem unitsOnly_acceptEdge {s t : State} (h : UnitsOnly s t) (n : Nat) (stop : Bool) (src stamp : Nat) (fall : Bool) :
    UnitsOnly s (acceptEdge t n stop src stamp fall) := by
  unfold acceptEdge
  dsimp only
  refine unitsOnly_ite (unitsOnly_modTimRun (unitsOnly_modTimRun (unitsOnly_modTiu h n fun x hx => ?_) n _) n _) ?_
  · split <;> exact hx
  · have hstamp : UnitsOnly s (t.modTiu n fun x => if stop = true then { x with lastStop := some (timStamp t n stop src stamp) }
        else { x with lastStart := some (timStamp t n stop src stamp) }) := unitsOnly_modTiu h n fun x hx => by split <;> exact hx
    rw [edgeToRun, hstamp.1 n]
    exact hstamp

theorem unitsOnly_unitEdges {s t : State} (h : UnitsOnly s t) (p : Nat → Nat → Bool) (stamp : Nat) (fall : Bool) :
    UnitsOnly s (unitEdges t p stamp fall) := by
  unfold unitEdges
  generalize (tents t.meas.unit).map (fun e => e.1) = l
  induction l generalizing t with
  | nil => exact h
  | cons u l ih =>
    have hchannel : ∀ {t : State}, UnitsOnly s t → ∀ stop : Bool,
        UnitsOnly s (if p u (channelWord (t.tiu u) stop) then channelEdge t u stop stamp fall else t) := fun ht stop => by
      split
      · unfold channelEdge
        dsimp only
        split
        · exact ht
        · exact unitsOnly_acceptEdge ht ..
      · exact ht
    exact ih (hchannel (hchannel h false) true)

/-! Window monitors. -/

theorem srcEvent_bed {b : Nat} (h : b < 16) : srcEvent b 0 = false := by
  have hall : ∀ b < 16, srcEvent b 0 = false := by decide
  exact hall b h

theorem wmLive_cases (s : State) (b : Nat) : wmLive s b = s ∨ wmLive s b = s.live b 0 false := by
  unfold wmLive
  split
  · exact .inl rfl
  · exact .inr rfl

theorem wmLive_wmon (s : State) (b k : Nat) : (wmLive s b).wmon k = s.wmon k := by
  rcases wmLive_cases s b with h | h <;> rw [h]
  rfl

theorem wmLive_fblk_ne (s : State) {b k : Nat} (h : k ≠ b) : (wmLive s b).fblk k = s.fblk k := by
  rcases wmLive_cases s b with hlive | hlive <;> rw [hlive]
  rw [live_fblk, if_neg h]

/-- No unit of the bed that reports its trips has tripped. -/
def WmQuiet (s : State) (b : Nat) : Prop := ∀ v, v / 4 = b → (s.wmon v).tripped = false ∨ bit (s.wmon v).modeword 7 = false

theorem wmLive_quiet {s : State} {b : Nat} (h : WmQuiet s b) : ((wmLive s b).fblk b).live.getLsbD 0 = false := by
  unfold wmLive
  rw [if_neg]
  · exact live_off s b (by decide)
  · simp only [List.any_eq_true, Bool.and_eq_true, not_exists, not_and]
    intro v hv htripped hbit
    have hbed : v / 4 = b := by have := mem_rangeFrom.1 hv; omega
    rcases h v hbed with hquiet | hquiet
    · rw [htripped] at hquiet; cases hquiet
    · rw [hbit] at hquiet; cases hquiet

/-- A command's update of one monitor (R348). -/
def wmStep (f : Monitoring → Monitoring) (s : State) (u : Nat) : State := wmLive (s.modWmon u f) (u / 4)

theorem wmStep_wmon (f : Monitoring → Monitoring) (s : State) (u k : Nat) :
    (wmStep f s u).wmon k = if k = u then f (s.wmon u) else s.wmon k := by
  rw [wmStep, wmLive_wmon, State.modWmon_wmon]

theorem wmStep_parts (f : Monitoring → Monitoring) (s : State) (u : Nat) :
    { wmStep f s u with meas := { (wmStep f s u).meas with monitor := [] }, flt := { (wmStep f s u).flt with block := [] } } =
      { s with meas := { s.meas with monitor := [] }, flt := { s.flt with block := [] } } := by
  rcases wmLive_cases (s.modWmon u f) (u / 4) with h | h <;> rw [wmStep, h] <;> rfl

/-- The update of every monitor named. -/
def wmAll (f : Monitoring → Monitoring) (s : State) (c : Current) : State := (wmUnits c).foldl (wmStep f) s

theorem wmAll_wmon (f : Monitoring → Monitoring) (s : State) (c : Current) (k : Nat) :
    (wmAll f s c).wmon k = if k ∈ wmUnits c then f (s.wmon k) else s.wmon k :=
  foldl_keyed (get := State.wmon) (f := fun _ => f) (fun s k j => wmStep_wmon f s k j) (nodup_rangeFrom _ _) s k

theorem wmAll_parts (f : Monitoring → Monitoring) (s : State) (c : Current) :
    wmAll f s c = { s with meas := { s.meas with monitor := (wmAll f s c).meas.monitor }, flt := { s.flt with block := (wmAll f s c).flt.block } } :=
  congrArg (fun v : State => { v with meas := { v.meas with monitor := (wmAll f s c).meas.monitor }, flt := { v.flt with block := (wmAll f s c).flt.block } })
    (foldl_same (F := fun s : State => { s with meas := { s.meas with monitor := [] }, flt := { s.flt with block := [] } }) (step := wmStep f)
      (wmStep_parts f) (wmUnits c) s)

theorem foldl_wmStep_quiet (f : Monitoring → Monitoring) (s : State) (l : List Nat) {b : Nat} (hb : ∃ k ∈ l, k / 4 = b)
    (hquiet : WmQuiet (l.foldl (wmStep f) s) b) : ((l.foldl (wmStep f) s).fblk b).live.getLsbD 0 = false := by
  induction l using List.reverseRecOn with
  | nil =>
    obtain ⟨k, hk, -⟩ := hb
    cases hk
  | append_singleton l u ih =>
    rw [List.foldl_append, List.foldl_cons, List.foldl_nil] at hquiet ⊢
    by_cases hu : u / 4 = b
    · subst hu
      exact wmLive_quiet fun v hv => by
        have hlast := hquiet v hv
        rwa [wmStep, wmLive_wmon] at hlast
    · rw [wmStep, wmLive_fblk_ne _ (Ne.symm hu)]
      refine ih ?_ fun v hv => ?_
      · obtain ⟨k, hk, hkb⟩ := hb
        rcases List.mem_append.1 hk with hk | hk
        · exact ⟨k, hk, hkb⟩
        · exact absurd (List.mem_singleton.1 hk ▸ hkb) hu
      · have hlast := hquiet v hv
        rwa [wmStep_wmon, if_neg (by rintro rfl; exact hu hv)] at hlast

theorem wmAll_quiet (f : Monitoring → Monitoring) (s : State) (c : Current) {k : Nat} (hk : k ∈ wmUnits c)
    (hquiet : WmQuiet (wmAll f s c) (k / 4)) : ((wmAll f s c).fblk (k / 4)).live.getLsbD 0 = false :=
  foldl_wmStep_quiet f s (wmUnits c) ⟨k, hk, rfl⟩ hquiet

/-- The latch reloaded at F3 cycle `t` (R338). -/
def wmReloaded (t : Nat) (x : Monitoring) : Monitoring :=
  { x with tripped := x.tripped && (wmTripping x || decide (x.stamp = f3 t)) }

theorem wmReload_eq (s : State) (u : Nat) : wmReload s u = wmStep (wmReloaded s.clk.time) s u := rfl

theorem foldl_wmReload (l : List Nat) (s : State) : l.foldl wmReload s = l.foldl (wmStep (wmReloaded s.clk.time)) s := by
  induction l generalizing s with
  | nil => rfl
  | cons u l ih =>
    have hclk : (wmReload s u).clk = s.clk := congrArg (fun x => x.clk) (wmStep_parts (wmReloaded s.clk.time) s u)
    rw [List.foldl_cons, ih, hclk]
    rfl

theorem wmTripping_cases (x : Monitoring) : (x.settling = true → wmTripping x = false) ∧
    (x.settling = false → x.unresolved = true → wmTripping x = bit x.modeword 5) ∧
    (x.settling = false → x.unresolved = false → wmTripping x = decide (x.decision ≠ bit x.modeword 4)) := by
  refine ⟨fun h => by simp [wmTripping, h], fun h h' => by simp [wmTripping, h, h'], fun h h' => ?_⟩
  rw [wmTripping, h, h', wmTripLevel]
  cases x.decision <;> cases bit x.modeword 4 <;> rfl

/-! The latch sets. -/

/-- The latch set (R338, R340). -/
def wmTripped (t : Nat) (x : Monitoring) : Monitoring := { x with tripped := true, stamp := f3 t, count := satAdd max16 x.count 1 }

/-- The trip reaches the units that select the monitor (R350). -/
def wmSetEdges (s : State) (u : Nat) : State :=
  unitEdges (s.modWmon u (wmTripped s.clk.time)) (fun y sel => decide (y / 2 = u / 4) && decide (selSource sel = 36 + u % 4))
    (256 * f3 s.clk.time) false

/-- Its EVENT record, where the monitor makes one (R340). -/
def wmSetRecord (s : State) (u : Nat) : State :=
  if bit (s.wmon u).modeword 6 ∧ (s.wmon u).eventRing ≠ 0xFFFF then
    (emitRecord (wmSetEdges s u) (u / 4) (s.wmon u).eventRing 3 3 0 0x09 0 (f3 s.clk.time)
      (eventBody 0x0A u ([b8 (b2n (bit (s.wmon u).modeword 4)), b8 (b2n (s.wmon u).decision), b8 (b2n (s.wmon u).unresolved), 0] ++
        toBytes 2 ((wmSetEdges s u).wmon u).count))).1
  else wmSetEdges s u

theorem wmSet_eq {s : State} {u : Nat} (h : (s.wmon u).tripped = false) :
    wmSet s u = if bit (s.wmon u).modeword 7 then (wmSetRecord s u).raise (u / 4) 0 u else wmSetRecord s u := by
  unfold wmSet
  dsimp only
  rw [if_neg (by rw [h]; decide)]
  rfl

theorem wmSetRecord_runs (s : State) (u : Nat) : RunsOnly (s.modWmon u (wmTripped s.clk.time)) (wmSetRecord s u) := by
  have hedges : RunsOnly (s.modWmon u (wmTripped s.clk.time)) (wmSetEdges s u) := unitEdges_runs runs_refl
  unfold wmSetRecord
  split
  · exact runs_of_fst (emitRecord_runs hedges)
  · exact hedges

theorem wmSet_wmon {s : State} {u : Nat} (h : (s.wmon u).tripped = false) (k : Nat) :
    (wmSet s u).wmon k = if k = u then wmTripped s.clk.time (s.wmon u) else s.wmon k := by
  have hruns : RunsOnly (s.modWmon u (wmTripped s.clk.time)) (wmSet s u) := by
    rw [wmSet_eq h]
    split
    · exact State.raise_runs (wmSetRecord_runs s u)
    · exact wmSetRecord_runs s u
  rw [wmon_of_runs hruns, State.modWmon_wmon]

theorem wmSet_fault {s : State} {u : Nat} (hu : u < 64) (h : (s.wmon u).tripped = false) (hbit : bit (s.wmon u).modeword 7 = true) :
    ((wmSet s u).fblk (u / 4)).live.getLsbD 0 = true ∧
      ∃ d ∈ (wmSet s u).flt.waiting, d.block = u / 4 ∧ d.source = 0 ∧ d.d0 = w16 u := by
  rw [wmSet_eq h, if_pos hbit]
  refine ⟨raise_live _ _ _ (by decide) (srcEvent_bed (by omega)),
    { block := u / 4, source := 0, d0 := w16 u, d1 := w16 0, forced := false, stamp := f3 (wmSetRecord s u).clk.time }, ?_, rfl, rfl, rfl⟩
  rw [raise_waiting]
  exact List.mem_append_right _ (List.mem_singleton_self _)

theorem emitRecord_parts (s : State) (st r cap units tag typ flags time : Nat) (body : List Byte) :
    ∃ h b w, (emitRecord s st r cap units tag typ flags time body).1 = { s with harv := h, flt := { s.flt with block := b, waiting := w } } := by
  have honly : Only 67584 s (emitRecord s st r cap units tag typ flags time body).1 := emitRecord_only rfl only_refl
  have hruns : RunsOnly s (emitRecord s st r cap units tag typ flags time body).1 := runs_of_fst (emitRecord_runs runs_refl)
  generalize (emitRecord s st r cap units tag typ flags time body).1 = t at honly hruns
  have heq : t = { s with harv := t.harv, flt := t.flt } := only_eq honly
  rw [heq, flt_of_runs hruns]
  exact ⟨_, _, _, rfl⟩

theorem wmSet_rest {s : State} {u : Nat} (hrest : UnitsRest s) (h : (s.wmon u).tripped = false) :
    ∃ m t h b w, wmSet s u = { s with meas := { s.meas with monitor := m, unit := t }, harv := h, flt := { s.flt with block := b, waiting := w } } := by
  have hedges : UnitsOnly (s.modWmon u (wmTripped s.clk.time)) (wmSetEdges s u) :=
    unitsOnly_unitEdges (t := s.modWmon u (wmTripped s.clk.time)) ⟨fun k => noRuns_of_rest hrest k, _, rfl⟩ _ _ _
  obtain ⟨-, units, hedges⟩ := hedges
  have hrecord : ∃ t h b w, wmSetRecord s u =
      { s.modWmon u (wmTripped s.clk.time) with
        meas := { (s.modWmon u (wmTripped s.clk.time)).meas with unit := t }, harv := h, flt := { s.flt with block := b, waiting := w } } := by
    unfold wmSetRecord
    split
    · obtain ⟨h, b, w, hrec⟩ := emitRecord_parts (wmSetEdges s u) (u / 4) (s.wmon u).eventRing 3 3 0 0x09 0 (f3 s.clk.time)
        (eventBody 0x0A u ([b8 (b2n (bit (s.wmon u).modeword 4)), b8 (b2n (s.wmon u).decision), b8 (b2n (s.wmon u).unresolved), 0] ++
          toBytes 2 ((wmSetEdges s u).wmon u).count))
      rw [hrec, hedges]
      exact ⟨_, _, _, _, rfl⟩
    · rw [hedges]
      exact ⟨_, _, _, _, rfl⟩
  obtain ⟨t, hv, b, w, hrecord⟩ := hrecord
  rw [wmSet_eq h, hrecord]
  split
  · obtain ⟨b', w', hraise⟩ := raise_parts { s.modWmon u (wmTripped s.clk.time) with
        meas := { (s.modWmon u (wmTripped s.clk.time)).meas with unit := t }, harv := hv, flt := { s.flt with block := b, waiting := w } } (u / 4) 0 u 0
    rw [hraise]
    exact ⟨_, _, _, _, _, rfl⟩
  · exact ⟨_, _, _, _, _, rfl⟩

/-! The commands' checks. -/

/-- The checks of every WM_CONFIG (R347). -/
theorem wmParams_pass {c : Current} {l : List (Option Bad)} (hfirst : par c 1 < 64) (hone : 1 ≤ par c 2) (hfit : par c 1 + par c 2 ≤ 64) :
    firstBad (wmParams c ++ l) = firstBad l := by
  rw [firstBad_append (by simp [wmParams, hfirst, hone, hfit])]

theorem needNoConv_of {s : State} {c : Current} (h : ∀ u ∈ wmUnits c, calHoldsConv s (u / 4) = false) : needNoConv s (wmBeds c) = none :=
  firstOf_eq_none.2 fun b hb => by
    obtain ⟨u, hu, rfl⟩ := List.mem_map.1 hb
    exact needState_of 5 (by rw [h u hu]; rfl)

/-- A WM_CONFIG that updates its monitors, in range, none of whose beds a calibration holds. -/
theorem wm_update {s : State} {c : Current} {f : Monitoring → Monitoring} {action : List Word → Bool} {step : State → Nat → State}
    (h : Picked s 0x0700 c) (ha : action c.params = true) (hstep : (wmUnits c).foldl step s = wmAll f s c) (hone : 1 ≤ par c 2)
    (hfit : par c 1 + par c 2 ≤ 64) (hconv : ∀ u ∈ wmUnits c, calHoldsConv s (u / 4) = false) :
    ∃ t, (Host.Outcome.next (onCommand s 0x0700 action (fun c => checked s (wmParams c ++ [needNoConv s (wmBeds c)])
      (fun s => postOk ((wmUnits c).foldl step s)))) : Host.Outcome State Fault Refusal) = .next t ∧ Answered c 0 0 [] (wmAll f s c) t := by
  refine picked_ok (k := fun c => _) h ha rfl ?_ ?_ ?_
  · rw [wmParams_pass (by omega) hone hfit, needNoConv_of hconv]
    rfl
  · rw [hstep]
  · rw [wmAll_parts]
    exact h.1

theorem wmUnits_lt {c : Current} (hfit : par c 1 + par c 2 ≤ 64) {k : Nat} (hk : k ∈ wmUnits c) : k < 64 := by
  have := mem_rangeFrom.1 hk
  omega

theorem testBit_maskOf (l : List Nat) (i : Nat) : (maskOf l).testBit i = decide (i ∈ l) := by
  have hfold : ∀ (m : Nat), (l.foldl (fun m k => m ||| 2 ^ k) m).testBit i = (m.testBit i || decide (i ∈ l)) := by
    induction l with
    | nil => simp
    | cons k l ih =>
      intro m
      rw [List.foldl_cons, ih, Nat.testBit_or, Nat.testBit_two_pow, Bool.or_assoc]
      simp [eq_comm]
  simp [maskOf, hfold]

/-- The monitor evaluates, and its decision becomes `y` (R336, R339). -/
theorem wmCheck_holds {s : State} {u : Nat} (h : wmTripping (s.wmon u) = false ∨ (s.wmon u).tripped = true) : wmCheck s u = s := by
  unfold wmCheck
  split
  next htrip =>
    rcases h with h | h
    · rw [h] at htrip; cases htrip
    · rw [wmSet]
      dsimp only
      rw [if_pos h]
  next => rfl

/-- A monitor whose decision becomes `y`, which trips (R338, R340). -/
theorem wmCheck_trips {s : State} {u : Nat} {y : Monitoring} (hu : u < 64) (htrip : wmTripping y = true) (hlatch : y.tripped = false) :
    (wmCheck (s.modWmon u (fun _ => y)) u).wmon u = { y with tripped := true, stamp := s.clk.time / 16 * 16, count := min 0xFFFF (y.count + 1) } ∧
      (∀ k, k ≠ u → (wmCheck (s.modWmon u (fun _ => y)) u).wmon k = s.wmon k) ∧
      (bit y.modeword 7 = true → ((wmCheck (s.modWmon u (fun _ => y)) u).fblk (u / 4)).live.getLsbD 0 = true ∧
        ∃ d ∈ (wmCheck (s.modWmon u (fun _ => y)) u).flt.waiting, d.block = u / 4 ∧ d.source = 0 ∧ d.d0 = w16 u) ∧
      (UnitsRest s → ∃ m t h b w, wmCheck (s.modWmon u (fun _ => y)) u =
        { s with meas := { s.meas with monitor := m, unit := t }, harv := h, flt := { s.flt with block := b, waiting := w } }) := by
  have hy : (s.modWmon u (fun _ => y)).wmon u = y := (State.modWmon_wmon ..).trans (if_pos rfl)
  have hset : wmCheck (s.modWmon u (fun _ => y)) u = wmSet (s.modWmon u (fun _ => y)) u := by
    rw [wmCheck, hy, if_pos htrip]
  rw [hset]
  have hlatch' : ((s.modWmon u (fun _ => y)).wmon u).tripped = false := by rw [hy, hlatch]
  refine ⟨?_, fun k hk => ?_, fun hbit => ?_, fun hrest => ?_⟩
  · rw [wmSet_wmon hlatch', if_pos rfl, hy]
    rfl
  · rw [wmSet_wmon hlatch', if_neg hk, State.modWmon_wmon, if_neg hk]
  · exact wmSet_fault hu hlatch' (by rw [hy, hbit])
  · obtain ⟨m, t, h, b, w, heq⟩ := wmSet_rest (s := s.modWmon u (fun _ => y)) (fun e he => hrest e he) hlatch'
    rw [heq]
    exact ⟨_, _, _, _, _, rfl⟩

theorem modWmon_congr (s : State) (u : Nat) {f : Monitoring → Monitoring} {y : Monitoring} (h : y = f (s.wmon u)) :
    s.modWmon u f = s.modWmon u (fun _ => y) := by
  subst h
  rfl

/-- Both rows that bring a decision: the monitor evaluates with `y`. -/
theorem wmCheck_decision {s v : State} {u : Nat} {y : Monitoring} (hu : u < 64) (hv : v = wmCheck (s.modWmon u (fun _ => y)) u) :
    (wmTripping y = false ∨ y.tripped = true → v = s.modWmon u (fun _ => y)) ∧
    (wmTripping y = true → y.tripped = false →
      v.wmon u = { y with tripped := true, stamp := s.clk.time / 16 * 16, count := min 0xFFFF (y.count + 1) } ∧ (∀ k, k ≠ u → v.wmon k = s.wmon k) ∧
      (bit y.modeword 7 = true → (v.fblk (u / 4)).live.getLsbD 0 = true ∧ ∃ d ∈ v.flt.waiting, d.block = u / 4 ∧ d.source = 0 ∧ d.d0 = w16 u) ∧
      (UnitsRest s → v = { s with meas := { s.meas with monitor := v.meas.monitor, unit := v.meas.unit }, harv := v.harv,
                                  flt := { s.flt with block := v.flt.block, waiting := v.flt.waiting } })) := by
  subst hv
  refine ⟨fun h => wmCheck_holds ?_, fun htrip hlatch => ?_⟩
  · rwa [(State.modWmon_wmon ..).trans (if_pos rfl)]
  · obtain ⟨hwmon, hother, hfault, hrest⟩ := wmCheck_trips (s := s) hu htrip hlatch
    refine ⟨hwmon, hother, hfault, fun hr => ?_⟩
    obtain ⟨m, t, h, b, w, heq⟩ := hrest hr
    rw [heq]

/-- WM_DISABLE (R348). -/
theorem wmDisable_quiets : ∀ (s : State) (c : Current), Picked s 0x0700 c → par c 0 = 2 → 1 ≤ par c 2 → par c 1 + par c 2 ≤ 64 → (∀ u ∈ wmUnits c, calHoldsConv s (u / 4) = false) →
    ∃ u t, exec .wmDisable s = .next t ∧ Answered c 0 0 [] u t ∧
      u = { s with meas := { s.meas with monitor := u.meas.monitor }, flt := { s.flt with block := u.flt.block } } ∧
      (∀ k ∈ wmUnits c, u.wmon k = { s.wmon k with enable := false, tripped := false, unresolved := false, settling := false }) ∧
      (∀ k ∈ wmUnits c, (∀ v, v / 4 = k / 4 → (u.wmon v).tripped = false ∨ bit (u.wmon v).modeword 7 = false) → (u.fblk (k / 4)).live.getLsbD 0 = false) ∧
      (∀ k, k ∉ wmUnits c → u.wmon k = s.wmon k) := by
  intro s c h haction hone hfit hconv
  obtain ⟨t, ht, hans⟩ := wm_update (f := fun x => { x with enable := false, tripped := false, unresolved := false, settling := false })
    (action := fun p => decide (wAt p 0 = 2)) (step := wmStep fun x => { x with enable := false, tripped := false, unresolved := false, settling := false })
    h (decide_eq_true haction) rfl hone hfit hconv
  exact ⟨_, t, ht, hans, wmAll_parts _ _ _, fun k hk => (wmAll_wmon ..).trans (if_pos hk), fun k hk hq => wmAll_quiet _ _ _ hk hq,
    fun k hk => (wmAll_wmon ..).trans (if_neg hk)⟩

/-- The mask of WM_CLEAR (R348). -/
def trippedMask (c : Current) (s : State) : Word :=
  w16 (maskOf ((List.range (par c 2)).filter (fun i => (s.wmon (par c 1 + i)).tripped)))

/-- WM_CLEAR (R338, R348). -/
theorem wmClear_reloads : ∀ (s : State) (c : Current), Picked s 0x0700 c → par c 0 = 3 → 1 ≤ par c 2 → par c 1 + par c 2 ≤ 64 → (∀ u ∈ wmUnits c, calHoldsConv s (u / 4) = false) →
    ∃ u t m, exec .wmClear s = .next t ∧ Answered c 0 0 [m] u t ∧
      u = { s with meas := { s.meas with monitor := u.meas.monitor }, flt := { s.flt with block := u.flt.block } } ∧
      (∀ k ∈ wmUnits c, u.wmon k = { s.wmon k with tripped := (s.wmon k).tripped && (wmTripping (s.wmon k) || decide ((s.wmon k).stamp = f3 s.clk.time)) }) ∧
      (∀ k ∈ wmUnits c, (∀ v, v / 4 = k / 4 → (u.wmon v).tripped = false ∨ bit (u.wmon v).modeword 7 = false) → (u.fblk (k / 4)).live.getLsbD 0 = false) ∧
      (∀ k, k ∉ wmUnits c → u.wmon k = s.wmon k) ∧ (∀ i, i < 16 → i < par c 2 → m.getLsbD i = (u.wmon (par c 1 + i)).tripped) := by
  intro s c h haction hone hfit hconv
  obtain ⟨t, ht, hans⟩ : ∃ t, exec .wmClear s = .next t ∧
      Answered c 0 0 [trippedMask c (wmAll (wmReloaded s.clk.time) s c)] (wmAll (wmReloaded s.clk.time) s c) t := by
    refine picked_ok (k := fun c => _) h (decide_eq_true haction) rfl ?_ ?_ ?_
    · rw [wmParams_pass (by omega) hone hfit, needNoConv_of hconv]
      rfl
    · dsimp only
      rw [foldl_wmReload]
      rfl
    · rw [wmAll_parts]
      exact h.1
  refine ⟨_, t, _, ht, hans, wmAll_parts _ _ _, fun k hk => (wmAll_wmon ..).trans (if_pos hk), fun k hk hq => wmAll_quiet _ _ _ hk hq,
    fun k hk => (wmAll_wmon ..).trans (if_neg hk), fun i hi hin => ?_⟩
  rw [trippedMask, w16, BitVec.getLsbD_ofNat, testBit_maskOf, decide_eq_true hi]
  simp [hin]

/-- WM_CONFIGURE's update of one monitor (R347). -/
def wmConfigured (c : Current) (s : State) (u : Nat) : State :=
  s.modWmon u (fun x => { x with
    srcA := par c 3, srcB := par c 4, offset := parF c 5, modeword := par c 7, period := par c 8, eventRing := par c 9 })

theorem wmConfigured_wmon (s : State) (c : Current) (k : Nat) : ((wmUnits c).foldl (wmConfigured c) s).wmon k =
    if k ∈ wmUnits c then { s.wmon k with srcA := par c 3, srcB := par c 4, offset := parF c 5, modeword := par c 7, period := par c 8, eventRing := par c 9 }
    else s.wmon k :=
  foldl_keyed (get := State.wmon) (step := wmConfigured c)
    (f := fun _ x => { x with srcA := par c 3, srcB := par c 4, offset := parF c 5, modeword := par c 7, period := par c 8, eventRing := par c 9 })
    (fun _ _ _ => State.modWmon_wmon ..) (nodup_rangeFrom _ _) s k

theorem wmConfigured_parts (s : State) (c : Current) : (wmUnits c).foldl (wmConfigured c) s =
    { s with meas := { s.meas with monitor := ((wmUnits c).foldl (wmConfigured c) s).meas.monitor } } :=
  congrArg (fun v : State => { v with meas := { v.meas with monitor := ((wmUnits c).foldl (wmConfigured c) s).meas.monitor } })
    (foldl_same (F := fun s : State => { s with meas := { s.meas with monitor := [] } }) (step := wmConfigured c) (fun _ _ => rfl) (wmUnits c) s)

/-- The next end of the monitor's period (R338). -/
def nextPeriod (s : State) (x : Monitoring) : Nat := roundUp (if x.periodEnd = s.clk.time then s.clk.time + 1 else s.clk.time) (3200 * x.period)

theorem roundUp_lt (n : Nat) {m : Nat} (hm : 0 < m) : roundUp n m < n + m := by
  have := Nat.div_mul_le_self (n + (m - 1)) m
  rw [roundUp]
  omega

theorem nextPeriod_after {s : State} {x : Monitoring} (hperiod : x.period ≠ 0) (hend : x.periodEnd ≤ s.clk.time) :
    nextPeriod s x % (3200 * x.period) = 0 ∧ s.clk.time ≤ nextPeriod s x ∧ x.periodEnd < nextPeriod s x ∧
      nextPeriod s x ≤ s.clk.time + 3200 * x.period := by
  have hpos : 0 < 3200 * x.period := by omega
  unfold nextPeriod
  refine ⟨roundUp_mod _ _, ?_⟩
  split
  next heq =>
    have hlo := le_roundUp (s.clk.time + 1) hpos
    have hhi := roundUp_lt (s.clk.time + 1) hpos
    omega
  next hne =>
    have hlo := le_roundUp s.clk.time hpos
    have hhi := roundUp_lt s.clk.time hpos
    omega

/-- The end of a monitor's period (R338). -/
def periodEnded (s : State) (u : Nat) : State :=
  wmStep (wmReloaded (nextPeriod s (s.wmon u)))
    (({ s with clk := { s.clk with time := nextPeriod s (s.wmon u) } } : State).modWmon u (fun x => { x with periodEnd := nextPeriod s (s.wmon u) })) u

theorem periodEnded_wmon (s : State) (u k : Nat) : (periodEnded s u).wmon k = if k = u then
    { s.wmon u with
      tripped := (s.wmon u).tripped && (wmTripping (s.wmon u) || decide ((s.wmon u).stamp = f3 (nextPeriod s (s.wmon u))))
      periodEnd := nextPeriod s (s.wmon u) } else s.wmon k := by
  rw [periodEnded, wmStep_wmon, State.modWmon_wmon, State.modWmon_wmon, if_pos rfl]
  split
  · rfl
  · rfl

theorem periodEnded_parts (s : State) (u : Nat) :
    periodEnded s u = { s with clk := { s.clk with time := nextPeriod s (s.wmon u) },
                               meas := { s.meas with monitor := (periodEnded s u).meas.monitor },
                               flt := { s.flt with block := (periodEnded s u).flt.block } } :=
  congrArg (fun v : State => { v with meas := { v.meas with monitor := (periodEnded s u).meas.monitor },
                                      flt := { v.flt with block := (periodEnded s u).flt.block } })
    (wmStep_parts (wmReloaded (nextPeriod s (s.wmon u)))
      (({ s with clk := { s.clk with time := nextPeriod s (s.wmon u) } } : State).modWmon u (fun x => { x with periodEnd := nextPeriod s (s.wmon u) })) u)

/-- Settles O35: folds over the monitors named, and the latch that sets, at most once, where a monitor trips. -/
theorem windowMonitors : Obligations.WindowMonitors := by
  unfold Obligations.WindowMonitors
  refine ⟨?configure, ?enable, ?disable, ?clear, ?read, wmTripping_cases, ?change, ?noChange, ?settle, ?noSettle, ?period, ?noPeriod⟩
  case configure =>
    intro s c h haction hone hfit hA hB hne hfin hlo hhi hmode hring hunits
    obtain ⟨t, ht, hans⟩ : ∃ t, exec .wmConfigure s = .next t ∧ Answered c 0 0 [] ((wmUnits c).foldl (wmConfigured c) s) t := by
      refine picked_ok (k := fun c => _) h (decide_eq_true haction) rfl ?_ rfl ?_
      · have hconv : needNoConv s (wmBeds c) = none := needNoConv_of fun u hu => (hunits u hu).1
        have hdisabled : firstOf (wmUnits c) (fun u => needState (!(s.wmon u).enable) 15) = none :=
          firstOf_eq_none.2 fun u hu => by rw [(hunits u hu).2]; rfl
        rw [wmParams_pass (by omega) hone hfit, needRing_of hring, hconv, hdisabled]
        simp [hA, hB, hne, hfin, hlo, hhi, hmode]
      · rw [wmConfigured_parts]
        exact h.1
    exact ⟨_, t, ht, hans, wmConfigured_parts _ _, fun k hk => (wmConfigured_wmon ..).trans (if_pos hk),
      fun k hk => (wmConfigured_wmon ..).trans (if_neg hk)⟩
  case enable =>
    intro s c h haction hone hfit hconv
    obtain ⟨t, ht, hans⟩ := wm_update (f := fun x => { x with enable := true, decision := false, tripped := false, unresolved := true, settling := true, count := 0 })
      (action := fun p => decide (wAt p 0 = 1)) (step := wmInit) h (decide_eq_true haction) rfl hone hfit hconv
    exact ⟨_, t, ht, hans, wmAll_parts _ _ _, fun k hk => (wmAll_wmon ..).trans (if_pos hk), fun k hk => (wmAll_wmon ..).trans (if_neg hk)⟩
  case disable => exact wmDisable_quiets
  case clear => exact wmClear_reloads
  case read =>
    intro s c h haction hfirst hone hconv
    refine picked_ok (k := fun c => _) h (decide_eq_true haction) rfl ?_ rfl h.1
    have hbeds : needNoConv s (wmBeds c) = none := needNoConv_of fun u hu => by
      obtain rfl : u = par c 1 := by have := mem_rangeFrom.1 hu; omega
      exact hconv
    rw [wmParams_pass hfirst (by omega) (by omega), hbeds]
    simp [hone]
  case change =>
    intro u high s y henable hpow hsettled hy
    have hexec : exec (.wmDecisionChange u high) s = .next (wmCheck (s.modWmon u.val (fun _ => y)) u.val) := by
      change execWmDecisionChange u high s = _
      rw [execWmDecisionChange, if_pos (by simp [wmRuns, henable, hpow, hsettled]), modWmon_congr s u.val hy]
    rw [hexec]
    obtain ⟨hquiet, htrips⟩ := wmCheck_decision (s := s) u.isLt (y := y) rfl
    exact ⟨fun h => by rw [hquiet h], fun htrip hlatch => ⟨_, rfl, htrips htrip hlatch⟩⟩
  case noChange =>
    intro u high s h
    change execWmDecisionChange u high s = _
    rw [execWmDecisionChange, if_neg]
    rcases h with h | h | h <;> simp [wmRuns, h]
  case settle =>
    intro u r s y henable hpow hsettling hy
    have hexec : exec (.wmSettlingEnd u r) s = .next (wmCheck (s.modWmon u.val (fun _ => y)) u.val) := by
      change execWmSettlingEnd u r s = _
      rw [execWmSettlingEnd, if_pos (by simp [wmRuns, henable, hpow, hsettling]), modWmon_congr s u.val hy]
    rw [hexec]
    obtain ⟨hquiet, htrips⟩ := wmCheck_decision (s := s) u.isLt (y := y) rfl
    exact ⟨fun h => by rw [hquiet h], fun htrip hlatch => ⟨_, rfl, htrips htrip hlatch⟩⟩
  case noSettle =>
    intro u r s h
    change execWmSettlingEnd u r s = _
    rw [execWmSettlingEnd, if_neg]
    rcases h with h | h | h <;> simp [wmRuns, h]
  case period =>
    intro u s henable hpow hperiod hend
    obtain ⟨hmod, hle, hafter, hmax⟩ := nextPeriod_after (s := s) hperiod hend
    have hreach : s.reach (nextPeriod s (s.wmon u.val)) = { s with clk := { s.clk with time := nextPeriod s (s.wmon u.val) } } := by
      rw [State.reach, Nat.max_eq_right hle]
    have hexec : exec (.wmPeriodEnd u) s = .next (periodEnded s u.val) := by
      change execWmPeriodEnd u s = _
      rw [execWmPeriodEnd]
      dsimp only
      rw [if_pos (by simp [wmRuns, henable, hpow, hperiod])]
      change Host.Outcome.next (wmReload ((s.reach (nextPeriod s (s.wmon u.val))).modWmon u.val _) u.val) = _
      rw [hreach]
      rfl
    refine ⟨_, hexec, ?_⟩
    have hparts := periodEnded_parts s u.val
    have htime : (periodEnded s u.val).clk.time = nextPeriod s (s.wmon u.val) := by rw [hparts]
    rw [htime]
    exact ⟨hmod, hle, hafter, hmax, (periodEnded_wmon ..).trans (if_pos rfl), fun k hk => (periodEnded_wmon ..).trans (if_neg hk), hparts⟩
  case noPeriod =>
    intro u s h
    change execWmPeriodEnd u s = _
    rw [execWmPeriodEnd, if_neg]
    rcases h with h | h | h <;> simp [wmRuns, h]

end Sys2Proof.Machine
end

section
/-! PROOFS. A command that starts tracked work on a range of things (R84, R225, R274): a run for each, under its own tag. -/

set_option Elab.async false

namespace Sys2Proof.Machine

theorem foldl_zipIdx_rangeFrom {α : Type} (g : α → Nat × Nat → α) (a n : Nat) (x : α) :
    (rangeFrom a n).zipIdx.foldl g x = (List.range n).foldl (fun x i => g x (a + i, i)) x := by
  have hzip : (rangeFrom a n).zipIdx = (List.range n).map (fun i => (a + i, i)) := by
    refine List.ext_getElem (by simp [rangeFrom]) fun i hi hi' => ?_
    simp [rangeFrom]
  rw [hzip, List.foldl_map]

theorem beginWork_parts (s : State) (tag opcode r output : Nat) (b : Bool) :
    ∃ p h, beginWork s tag opcode r output b = { s with fw := { s.fw with progress := p }, harv := h } := by
  have honly : Only 2080 s (beginWork s tag opcode r output b) := beginWork_only rfl only_refl
  have hruns : RunsOnly s (beginWork s tag opcode r output b) := beginWork_runs runs_refl
  generalize beginWork s tag opcode r output b = t at honly hruns
  have heq : t = { s with fw := t.fw, harv := t.harv } := only_eq honly
  rw [heq, fw_of_runs hruns]
  exact ⟨_, _, rfl⟩

theorem beginWork_prog (s : State) (tag opcode r output k : Nat) (b : Bool) : (beginWork s tag opcode r output b).prog k =
    if k = tag then { opcode := w16 opcode, state := .running, ring := w16 r, output := output } else s.prog k := by
  obtain ⟨hsame, hother, -, -⟩ := beginWork_begun s tag opcode r output b
  split
  next heq => rw [heq, hsame]
  next hne => exact hother k hne

/-- The progress entry of work that begins (R83, R92). -/
def entryOf (opcode r output : Nat) : Progress := { opcode := w16 opcode, state := .running, ring := w16 r, output := output }

/-- The start of the `i`-th thing of a command: its own state by `set`, and its work, but for the first, whose work begins as the
command is accepted. -/
def startWork (set : State → Nat → State) (tag opcode r output : Nat) (s : State) (i : Nat) : State :=
  if i = 0 then set s i else beginWork (set s i) (tag + i) opcode r output false

/-- Every thing of a command that starts `n` of them. -/
def startAll (set : State → Nat → State) (tag opcode r output n : Nat) (s : State) : State :=
  beginWork ((List.range n).foldl (startWork set tag opcode r output) s) tag opcode r output false

section
variable {set : State → Nat → State} {tag opcode r output : Nat}

/-- What neither `set` nor work that begins changes. -/
theorem startAll_same {β : Type} {F : State → β} (hset : ∀ s i, F (set s i) = F s)
    (hwork : ∀ s k, F (beginWork s k opcode r output false) = F s) (n : Nat) (s : State) :
    F (startAll set tag opcode r output n s) = F s := by
  rw [startAll, hwork]
  refine foldl_same (step := startWork set tag opcode r output) (fun s i => ?_) _ s
  unfold startWork
  split
  · exact hset s i
  · rw [hwork, hset]

theorem foldl_startWork_get {α : Type} {get : State → Nat → α} {key : Nat → Nat} {val : Nat → α → α} (hkey : Function.Injective key)
    (hset : ∀ s i j, get (set s i) j = if j = key i then val i (get s j) else get s j)
    (hwork : ∀ s k j, get (beginWork s k opcode r output false) j = get s j) (n : Nat) (s : State) (j : Nat) :
    (∀ i, i < n → j = key i → get ((List.range n).foldl (startWork set tag opcode r output) s) j = val i (get s j)) ∧
      ((∀ i, i < n → j ≠ key i) → get ((List.range n).foldl (startWork set tag opcode r output) s) j = get s j) := by
  have hstep : ∀ s i, get (startWork set tag opcode r output s i) j = if j = key i then val i (get s j) else get s j := fun s i => by
    unfold startWork
    split
    · exact hset s i j
    · rw [hwork, hset]
  induction n with
  | zero => exact ⟨fun i hi => absurd hi (Nat.not_lt_zero i), fun _ => rfl⟩
  | succ n ih =>
    obtain ⟨hin, hout⟩ := ih
    rw [List.range_succ, List.foldl_append, List.foldl_cons, List.foldl_nil, hstep]
    refine ⟨fun i hi hj => ?_, fun hne => ?_⟩
    · rcases Nat.lt_succ_iff_lt_or_eq.1 hi with hlt | rfl
      · have hne : j ≠ key n := fun heq => by have := hkey (hj.symm.trans heq); omega
        rw [if_neg hne, hin i hlt hj]
      · rw [if_pos hj, hout fun k hk heq => by have := hkey (hj.symm.trans heq); omega]
    · rw [if_neg (hne n (by omega)), hout fun i hi => hne i (by omega)]

theorem startAll_get {α : Type} {get : State → Nat → α} {key : Nat → Nat} {val : Nat → α → α} (hkey : Function.Injective key)
    (hset : ∀ s i j, get (set s i) j = if j = key i then val i (get s j) else get s j)
    (hwork : ∀ s k j, get (beginWork s k opcode r output false) j = get s j) (n : Nat) (s : State) :
    (∀ i, i < n → get (startAll set tag opcode r output n s) (key i) = val i (get s (key i))) ∧
      (∀ j, (∀ i, i < n → j ≠ key i) → get (startAll set tag opcode r output n s) j = get s j) := by
  refine ⟨fun i hi => ?_, fun j hj => ?_⟩
  · rw [startAll, hwork]
    exact (foldl_startWork_get hkey hset hwork n s (key i)).1 i hi rfl
  · rw [startAll, hwork]
    exact (foldl_startWork_get hkey hset hwork n s j).2 hj

theorem startAll_prog (hset : ∀ s i, (set s i).fw = s.fw) {n : Nat} (hn : 1 ≤ n) (s : State) (k : Nat) :
    (startAll set tag opcode r output n s).prog k = if tag ≤ k ∧ k < tag + n then entryOf opcode r output else s.prog k := by
  have hfold : ∀ n, ((List.range n).foldl (startWork set tag opcode r output) s).prog k =
      if tag < k ∧ k < tag + n then entryOf opcode r output else s.prog k := fun n => by
    induction n with
    | zero => rw [if_neg (by omega)]; rfl
    | succ n ih =>
      rw [List.range_succ, List.foldl_append, List.foldl_cons, List.foldl_nil]
      have hprog : ∀ v i, (set v i).prog k = v.prog k := fun v i => by unfold State.prog; rw [hset]
      unfold startWork at ih ⊢
      split
      next h0 => rw [hprog, ih, h0]; exact if_congr (by omega) rfl rfl
      next h0 =>
        rw [beginWork_prog, hprog, ih]
        by_cases hk : k = tag + n
        · rw [if_pos hk, if_pos (by omega)]; rfl
        · rw [if_neg hk]; exact if_congr (by omega) rfl rfl
  rw [startAll, beginWork_prog, hfold]
  by_cases hk : k = tag
  · rw [if_pos hk, if_pos (by omega)]; rfl
  · rw [if_neg hk]; exact if_congr (by omega) rfl rfl

end

/-! The start that a command asks for (R131, R226, R274). -/

theorem epochOf_bounds (t : Nat) : t ≤ epochOf t ∧ epochOf t < t + 16 ∧ epochOf t % 16 = 0 := by
  change t ≤ (t + 15) / 16 * 16 ∧ (t + 15) / 16 * 16 < t + 16 ∧ (t + 15) / 16 * 16 % 16 = 0
  omega

theorem startOf_asked (c : Current) (s : State) (i tin : Nat) (falling : Bool) : StartAsked c s i tin falling (startOf s c i tin falling) := by
  refine ⟨fun h0 => ?_, fun h1 => ?_, fun h2 => by rw [startOf, if_pos h2]⟩
  · obtain ⟨hlo, hhi, hmod⟩ := epochOf_bounds (s.clk.time + 6400)
    exact ⟨_, by rw [startOf, if_neg (by omega), if_neg (by omega)]; rfl, hlo, hhi, hmod⟩
  · obtain ⟨hlo, hhi, hmod⟩ := epochOf_bounds (par64 c (i + 1))
    exact ⟨_, by rw [startOf, if_neg (by omega), if_pos h1], hlo, hhi, hmod⟩

theorem needStart_pass {c : Current} {i : Nat} (h : StartFits c i) : ∀ x ∈ needStart c i, x = none := by
  obtain ⟨hle, hzero, -⟩ := h
  have hT : (if par c i = 1 then none else needZero c (i + 1) 4 : Option Bad) = none := by
    split
    next => rfl
    next hne => exact needZero_of fun k hlo hhi => hzero hne k (by omega) (by omega)
  simp [needStart, hle, hT]

theorem needLead_pass {c : Current} {i : Nat} (reason : Nat) (h : StartFits c i) :
    (if par c i = 1 then needLead c (par64 c (i + 1)) reason else none) = none := by
  split
  next hat => rw [needLead, if_pos (h.2.2 hat)]
  next => rfl

theorem needTags_pass {s : State} {c : Current} {n : Nat} (h : TagsFree s c n) :
    (if c.tag.toNat + n - 1 ≤ 0xFFF then none else some (0x12, 0xFF01) : Option Bad) = none ∧
      firstOf (rangeFrom c.tag.toNat n) (fun t => needState (!tagInUse s t) t) = none := by
  refine ⟨if_pos (by have := h.1; omega), firstOf_eq_none.2 fun t ht => ?_⟩
  obtain ⟨hlo, hhi⟩ := mem_rangeFrom.1 ht
  have hfree := h.2 (t - c.tag.toNat) (by omega)
  rw [Nat.add_sub_cancel' hlo] at hfree
  rw [hfree]
  rfl

end Sys2Proof.Machine
end

section
/-! PROOFS. TIM_CONFIG and TIM_RUN (R359, R363 to R367). -/

set_option Elab.async false

namespace Sys2Proof.Machine

/-! Checks. -/

theorem timParams_pass {c : Current} {i : Nat} {l : List (Option Bad)} (hone : 1 ≤ par c (i + 1)) (hfit : par c i + par c (i + 1) ≤ 32) :
    firstBad (timParams c i ++ l) = firstBad l := by
  have hlt : par c i < 32 := by omega
  rw [firstBad_append (by simp [timParams, hlt, hone, hfit])]

theorem needNoUnitCal_of {s : State} {us : List Nat} (h : ∀ u ∈ us, calHoldsUnit s u = false) : needNoUnitCal s us = none :=
  firstOf_eq_none.2 fun u hu => by rw [h u hu]; rfl

theorem needUnitBeds_of {s : State} {us : List Nat} (h : ∀ u ∈ us, bedActive s (u / 2) = true) : needUnitBeds s us = none :=
  needActive_eq_none.2 fun b hb => by
    obtain ⟨u, hu, rfl⟩ := List.mem_map.1 hb
    exact h u hu

/-! TIM_CONFIG. -/

/-- TIM_CONFIG's write of one unit (R366). -/
def timConfigured (c : Current) (s : State) (u : Nat) : State :=
  s.modTiu u (fun x => { x with
    mode := par c 3, startSel := par c 4, stopSel := par c 5, n := par32 c 6, gate := par c 8, timeout := par c 9 })

theorem timConfigured_tiu (s : State) (c : Current) (k : Nat) : ((timUnits c 0).foldl (timConfigured c) s).tiu k =
    if k ∈ timUnits c 0 then { s.tiu k with mode := par c 3, startSel := par c 4, stopSel := par c 5, n := par32 c 6, gate := par c 8, timeout := par c 9 }
    else s.tiu k :=
  foldl_keyed (get := State.tiu) (step := timConfigured c)
    (f := fun _ x => { x with mode := par c 3, startSel := par c 4, stopSel := par c 5, n := par32 c 6, gate := par c 8, timeout := par c 9 })
    (fun _ _ _ => State.modTiu_tiu ..) (nodup_rangeFrom _ _) s k

theorem timConfigured_parts (s : State) (c : Current) : (timUnits c 0).foldl (timConfigured c) s =
    { s with meas := { s.meas with unit := ((timUnits c 0).foldl (timConfigured c) s).meas.unit } } :=
  congrArg (fun v : State => { v with meas := { v.meas with unit := ((timUnits c 0).foldl (timConfigured c) s).meas.unit } })
    (foldl_same (F := fun s : State => { s with meas := { s.meas with unit := [] } }) (step := timConfigured c) (fun _ _ => rfl) (timUnits c 0) s)

/-! TIM_RUN START. -/

/-- A run's state as it starts on a unit (R359). -/
def timStarted (c : Current) (st : BurstStart) (i : Nat) (x : TimeInterval) : TimeInterval :=
  { x with
    fifo := [], overflow := 0, gapNext := false, freshNext := false
    run := some
      { tag := c.tag.toNat + i, hdrRing := c.ring.toNat, ring := ringOf c (par c 11), start := st, blocks := par32 c 3, done := 0
        win := {}, armed := none, armMiss := 0, armUnref := false, gateK := 0, gateFirst := 0, gateLast := 0, gateMiss := false
        gateEnd := startTicks st, record := none, stepped := false, stopping := false, overflowed := false } }

/-- The start of the `i`-th unit's run. -/
def setTim (c : Current) (st : BurstStart) (s : State) (i : Nat) : State := s.modTiu (par c 1 + i) (timStarted c st i)

/-- TIM_RUN START's effect. -/
def startTim (c : Current) (st : BurstStart) (s : State) : State :=
  startAll (setTim c st) c.tag.toNat c.opcode.toNat c.ring.toNat 0 (par c 2) s

theorem startTim_parts (c : Current) (st : BurstStart) (s : State) :
    startTim c st s = { s with fw := { s.fw with progress := (startTim c st s).fw.progress },
                               meas := { s.meas with unit := (startTim c st s).meas.unit }, harv := (startTim c st s).harv } :=
  congrArg (fun v : State => { v with fw := { v.fw with progress := (startTim c st s).fw.progress },
                                      meas := { v.meas with unit := (startTim c st s).meas.unit }, harv := (startTim c st s).harv })
    (startAll_same (F := fun s : State => { s with fw := { s.fw with progress := [] }, meas := { s.meas with unit := [] }, harv := {} })
      (set := setTim c st) (fun _ _ => rfl) (fun s k => by
        obtain ⟨p, h, hbegin⟩ := beginWork_parts s k c.opcode.toNat c.ring.toNat 0 false
        rw [hbegin]) (par c 2) s)

theorem startTim_tiu (c : Current) (st : BurstStart) (s : State) :
    (∀ i, i < par c 2 → (startTim c st s).tiu (par c 1 + i) = timStarted c st i (s.tiu (par c 1 + i))) ∧
      (∀ k, (∀ i, i < par c 2 → k ≠ par c 1 + i) → (startTim c st s).tiu k = s.tiu k) :=
  startAll_get (get := State.tiu) (key := fun i => par c 1 + i) (val := timStarted c st) (set := setTim c st) (fun i j h => by simpa using h)
    (fun s i j => by
      rw [setTim, State.modTiu_tiu]
      split
      next heq => rw [heq]
      next => rfl)
    (fun s k j => by
      obtain ⟨p, h, hbegin⟩ := beginWork_parts s k c.opcode.toNat c.ring.toNat 0 false
      rw [hbegin]
      rfl) (par c 2) s

/-- The checks of TIM_RUN START after those of its units' range and of START (R365, R367). -/
def timStartChecks (s : State) (c : Current) : List (Option Bad) :=
  [needParam (decide (par c 10 < 8)) 10, needRing s (par c 11) 11, if par c 5 = 1 then needLead c (par64 c 6) 4 else none,
   if c.tag.toNat + (timUnits c 1).length - 1 ≤ 0xFFF then none else some (0x12, 0xFF01),
   firstOf (rangeFrom c.tag.toNat (timUnits c 1).length) (fun t => needState (!tagInUse s t) t),
   needRef s, needNoUnitCal s (timUnits c 1), needUnitBeds s (timUnits c 1),
   firstOf (timUnits c 1) (fun u => let x := s.tiu u
     needState (decide (timBad x.mode x.startSel x.stopSel x.n x.gate = none)) 17),
   firstOf (timUnits c 1) (fun u => needBusy (s.tiu u).run.isNone u)]

/-- With the words in range, the units decide. -/
theorem timStartChecks_words {s : State} {c : Current} (hone : 1 ≤ par c 2) (hfit : par c 1 + par c 2 ≤ 32) (hstart : StartFits c 5) (hflags : par c 10 < 8)
    (hring : par c 11 = 0xFFFF ∨ (s.ring (par c 11)).state ≠ .free) (htags : TagsFree s c (par c 2)) :
    firstBad (timParams c 1 ++ needStart c 5 ++ timStartChecks s c) = firstBad ((timStartChecks s c).drop 5) := by
  have hlen : (timUnits c 1).length = par c 2 := length_rangeFrom _ _
  rw [List.append_assoc, timParams_pass hone hfit, firstBad_append (needStart_pass hstart), timStartChecks, needRing_of hring, hlen,
    needLead_pass 4 hstart, (needTags_pass htags).1, (needTags_pass htags).2]
  simp [hflags]

theorem exec_timRunStart {s : State} {c : Current} (h : Picked s 0x0601 c) (haction : par c 0 = 0)
    (hpass : firstBad (timParams c 1 ++ needStart c 5 ++ timStartChecks s c) = none) :
    ∃ t, exec .timRunStart s = .next t ∧ Answered c 1 0
      (w16 (par c 2) :: toWords 4 (startTicks (startOf s c 5 (par c 10 % 4) ((par c 10).testBit 2))) ++ [c.tag])
      (startTim c (startOf s c 5 (par c 10 % 4) ((par c 10).testBit 2)) s) t := by
  have hlen : (timUnits c 1).length = par c 2 := length_rangeFrom _ _
  refine picked_answers h (decide_eq_true haction) ?_ ?_
  · dsimp only
    exact (checked_pass _ hpass).trans (by
      rw [hlen]
      unfold timUnits
      rw [foldl_zipIdx_rangeFrom]
      rfl)
  · rw [startTim_parts]
    exact h.1

theorem w16_toNat (w : Word) : w16 w.toNat = w := BitVec.ofNat_toNat 16 w |>.trans (BitVec.setWidth_eq w)

theorem startTim_prog (c : Current) (st : BurstStart) (s : State) (hone : 1 ≤ par c 2) (hop : c.opcode.toNat = 0x0601) (k : Nat) :
    (startTim c st s).prog k = if c.tag.toNat ≤ k ∧ k < c.tag.toNat + par c 2 then
      { opcode := 0x0601, state := .running, ring := c.ring, output := 0 } else s.prog k := by
  rw [startTim, startAll_prog (set := setTim c st) (fun _ _ => rfl) hone, entryOf, hop, w16_toNat]
  rfl

/-! TIM_RUN STOP. -/

/-- A fold of steps that, where a thing meets `P`, are updates of that thing alone. -/
theorem foldl_keyed_congr {α : Type} {get : State → Nat → α} {step g : State → Nat → State} {P : α → Prop} (hstep : ∀ s k, P (get s k) → step s k = g s k)
    (hg : ∀ s k j, j ≠ k → get (g s k) j = get s j) {l : List Nat} (hl : l.Nodup) {s : State} (h : ∀ k ∈ l, P (get s k)) :
    l.foldl step s = l.foldl g s := by
  induction l generalizing s with
  | nil => rfl
  | cons k l ih =>
    obtain ⟨hk, hl⟩ := List.nodup_cons.1 hl
    rw [List.foldl_cons, List.foldl_cons, hstep s k (h k List.mem_cons_self)]
    refine ih hl fun j hj => ?_
    rw [hg s k j (fun heq => hk (heq ▸ hj))]
    exact h j (List.mem_cons_of_mem _ hj)

/-- Every unit named is told to stop after what is in progress. -/
def stoppingAll (s : State) (c : Current) : State :=
  (timUnits c 1).foldl (fun s u => modTimRun s u (fun r => { r with stopping := true })) s

theorem stoppingAll_tiu (s : State) (c : Current) (k : Nat) : (stoppingAll s c).tiu k =
    if k ∈ timUnits c 1 then { s.tiu k with run := (s.tiu k).run.map (fun r => { r with stopping := true }) } else s.tiu k :=
  foldl_keyed (get := State.tiu) (step := fun s u => modTimRun s u (fun r => { r with stopping := true }))
    (f := fun _ x => { x with run := x.run.map (fun r => { r with stopping := true }) }) (fun _ _ _ => State.modTiu_tiu ..) (nodup_rangeFrom _ _) s k

theorem stoppingAll_parts (s : State) (c : Current) :
    stoppingAll s c = { s with meas := { s.meas with unit := (stoppingAll s c).meas.unit } } :=
  congrArg (fun v : State => { v with meas := { v.meas with unit := (stoppingAll s c).meas.unit } })
    (foldl_same (F := fun s : State => { s with meas := { s.meas with unit := [] } })
      (step := fun s u => modTimRun s u (fun r => { r with stopping := true })) (fun _ _ => rfl) (timUnits c 1) s)


/-- A stop of a window in progress marks the run alone (R363). -/
theorem stopTim_open {s : State} {u : Nat} {r : TimRun} (hmode : (s.tiu u).mode ≠ 4) (hrun : (s.tiu u).run = some r)
    (hopen : r.win.running = true ∨ r.win.credit = true) : stopTim s u = modTimRun s u (fun r => { r with stopping := true }) := by
  have hwindow : windowOpen s u = true := by simpa [windowOpen, hrun] using hopen
  have hdue : openDue s u = s := by
    rw [openDue, hrun]
    dsimp only
    split
    · rw [openWindow, hrun]
      exact if_pos (.inl hwindow)
    · rfl
  have hmode' : ((modTimRun s u (fun r => { r with stopping := true })).tiu u).mode ≠ 4 := by
    rw [modTimRun, State.modTiu_tiu, if_pos rfl]
    exact hmode
  have hwindow' : windowOpen (modTimRun s u (fun r => { r with stopping := true })) u = true := by
    rw [windowOpen, modTimRun, State.modTiu_tiu, if_pos rfl, hrun]
    simpa using hopen
  rw [stopTim, hdue, if_neg hmode', if_pos hwindow']

/-- A run with nothing in progress ends as it is told to stop (R363). -/
theorem stopTim_idle {s : State} {u : Nat} {r : TimRun} (hrun : (s.tiu u).run = some r) (hcredit : r.win.credit = false)
    (hidle : ((s.tiu u).mode = 4 ∧ r.record = none) ∨ ((s.tiu u).mode ≠ 4 ∧ r.win.running = false ∧ started r.start s.clk.time = false)) :
    stopTim s u = endTimRun (modTimRun s u (fun r => { r with stopping := true })) u false 0 := by
  have htiu : (modTimRun s u (fun r => { r with stopping := true })).tiu u = { s.tiu u with run := some { r with stopping := true } } := by
    rw [modTimRun, State.modTiu_tiu, if_pos rfl, hrun]
    rfl
  have hdue : openDue s u = s := by
    rw [openDue, hrun]
    dsimp only
    split
    next hstarted =>
      rcases hidle with ⟨hmode, -⟩ | ⟨-, -, hnot⟩
      · rw [openWindow, hrun]
        exact if_pos (.inr hmode)
      · exact absurd hstarted (by rw [State.now, hnot]; decide)
    next => rfl
  rw [stopTim, hdue]
  rcases hidle with ⟨hmode, hrecord⟩ | ⟨hmode, hrunning, -⟩
  · have hmode' : ((modTimRun s u (fun r => { r with stopping := true })).tiu u).mode = 4 := by rw [htiu, hmode]
    rw [if_pos hmode', cutTim, if_pos hmode', cutStamps, htiu]
    dsimp only
    rw [hrecord]
  · rw [if_neg (by rw [htiu]; exact hmode), windowOpen, htiu]
    simp [hrunning, hcredit]

/-- The end of a run that holds no credit (R363). -/
theorem endTimRun_idle {s : State} {u : Nat} {r : TimRun} (hrun : (s.tiu u).run = some r) (hcredit : r.win.credit = false) :
    endTimRun s u false 0 = endWork (leaveWaiters (s.modTiu u (fun x => { x with run := none })) r.ring (.timWindow u))
      { workEnd (leaveWaiters (s.modTiu u (fun x => { x with run := none })) r.ring (.timWindow u)) r.tag r.hdrRing 0 0 5 u 1 0 0 r.done with
        flags := flag 3 s.clk.holdover } := by
  rw [endTimRun, hrun]
  dsimp only
  rw [hcredit]
  rfl

/-- The end of a run as TIM_RUN STOP brings it at once (R363, R367). -/
def idleEnd (s : State) (u : Nat) (r : TimRun) : PendingEnd :=
  { workEnd s r.tag r.hdrRing 0 0 5 u 1 0 0 r.done with flags := flag 3 s.clk.holdover }

/-- The state as that end begins: no run, no place in the ring's queue. -/
def idleLeft (s : State) (u : Nat) (r : TimRun) : State :=
  leaveWaiters ((modTimRun s u (fun r => { r with stopping := true })).modTiu u (fun x => { x with run := none })) r.ring (.timWindow u)

/-- A run with nothing in progress, told to stop. -/
def endIdle (s : State) (u : Nat) (r : TimRun) : State := endWork (idleLeft s u r) (idleEnd s u r)

theorem stopTim_endIdle {s : State} {u : Nat} {r : TimRun} (hrun : (s.tiu u).run = some r) (hcredit : r.win.credit = false)
    (hidle : ((s.tiu u).mode = 4 ∧ r.record = none) ∨ ((s.tiu u).mode ≠ 4 ∧ r.win.running = false ∧ started r.start s.clk.time = false)) :
    stopTim s u = endIdle s u r := by
  have hrun' : ((modTimRun s u (fun r => { r with stopping := true })).tiu u).run = some { r with stopping := true } := by
    rw [modTimRun, State.modTiu_tiu, if_pos rfl, hrun]
    rfl
  rw [stopTim_idle hrun hcredit hidle, endTimRun_idle hrun' hcredit]
  rfl

theorem placeCompletion_flt {s t : State} {e : PendingEnd} (h : placeCompletion s e = some t) : Only 2080 s t :=
  placeCompletion_only rfl only_refl t h

theorem endWork_parts (s : State) (e : PendingEnd) :
    ∃ p h w, endWork s e = { s with fw := { s.fw with progress := p }, harv := h, flt := { s.flt with waiting := w } } := by
  have hruns : RunsOnly s (endWork s e) := endWork_runs runs_refl
  have honly : Only 67616 s (endWork s e) := endWork_only rfl only_refl
  have hflt : (endWork s e).flt = { s.flt with waiting := (endWork s e).flt.waiting } := by
    unfold endWork
    dsimp only
    split
    · split
      next t ht => rw [only_flt (placeCompletion_flt ht)]
      next => rw [raise_event (by decide)]
    · split
      · have hdrop : Only 2080 s (finalProgress (dropRecord (leaveWaiters s e.ring (.completion e.tag)) e.ring 1) e) :=
          finalProgress_only rfl (dropRecord_only rfl (leaveWaiters_only rfl only_refl))
        rw [only_flt hdrop]
      · rfl
  generalize endWork s e = t at hruns honly hflt
  have heq : t = { s with fw := t.fw, harv := t.harv, flt := t.flt } := only_eq honly
  rw [heq, fw_of_runs hruns, hflt]
  exact ⟨_, _, _, rfl⟩

theorem endIdle_parts (s : State) (u : Nat) (r : TimRun) :
    ∃ p h w, endIdle s u r = { s with fw := { s.fw with progress := p }, meas := (idleLeft s u r).meas, harv := h,
                                      flt := { s.flt with waiting := w } } := by
  obtain ⟨p, h, w, heq⟩ := endWork_parts (idleLeft s u r) (idleEnd s u r)
  obtain ⟨m, h', hleft⟩ : ∃ m h, idleLeft s u r = { s with meas := m, harv := h } := ⟨_, _, rfl⟩
  rw [endIdle, heq, hleft]
  exact ⟨_, _, _, rfl⟩

theorem idleLeft_tiu (s : State) (u k : Nat) (r : TimRun) :
    (idleLeft s u r).tiu k = if k = u then { s.tiu u with run := none } else s.tiu k := by
  change ((modTimRun s u (fun r => { r with stopping := true })).modTiu u (fun x => { x with run := none })).tiu k = _
  rw [modTimRun, State.modTiu_tiu, State.modTiu_tiu, State.modTiu_tiu, if_pos rfl]
  split <;> rfl

theorem ended_answered {c : Current} {st d : Nat} {ws : List Word} {u t : State} {e : PendingEnd} (hans : Answered c st d ws u t) (h : Ended e u) :
    Ended e t := by
  obtain ⟨heq, -⟩ := hans
  rw [heq]
  exact h

/-- Settles O36: folds over the units named, runs that start under their tags, and ends. -/
theorem intervalRuns : Obligations.IntervalRuns := by
  unfold Obligations.IntervalRuns
  refine ⟨?config, ?noSource, ?read, ?start, ?noRef, ?stop, ?stopIdle, ?noRun⟩
  case config =>
    intro s c h hone hfit hflags hmode hsel hsrc hwidth hstop hn hmax hgate hunits
    obtain ⟨t, ht, hans⟩ : ∃ t, exec .timConfig s = .next t ∧ Answered c 0 0 [] ((timUnits c 0).foldl (timConfigured c) s) t := by
      refine picked_ok (k := fun c => _) h ?_ rfl ?_ rfl ?_
      · change (!bit (par c 2) 0) = true
        rw [hflags]
        rfl
      · have hbad : timBad (par c 3) (par c 4) (par c 5) (par32 c 6) (par c 8) = none := by
          have hstop' : (decide (par c 3 = 2) || (selOk (par c 5) && !(decide (par c 3 = 0) && decide (selSource (par c 5) = 63)))) = true := by
            rcases hstop with h2 | ⟨hok, hnot⟩
            · simp [h2]
            · have hnot' : (decide (par c 3 = 0) && decide (selSource (par c 5) = 63)) = false := by simpa using hnot
              rw [hok, hnot']
              simp
          have hwidth' : (decide (par c 3 = 2) && decide (selEdge (par c 4) = 2)) = false := by simpa using hwidth
          rw [timBad, hstop', hwidth', hsel]
          simp [hmode, hsrc, hn, hmax, hgate]
        rw [timParams_pass hone hfit, hbad, needNoUnitCal_of fun u hu => (hunits u hu).1, needUnitBeds_of fun u hu => (hunits u hu).2.1,
          firstOf_eq_none.2 fun u hu => by rw [(hunits u hu).2.2]; rfl]
        simp [hflags]
      · rw [timConfigured_parts]
        exact h.1
    exact ⟨_, t, ht, hans, timConfigured_parts _ _, fun k hk => (timConfigured_tiu ..).trans (if_pos hk),
      fun k hk => (timConfigured_tiu ..).trans (if_neg hk)⟩
  case noSource =>
    intro s c h hone hfit hflags hmode hsrc
    refine picked_bad (k := fun c => _) h ?_ rfl ?_
    · change (!bit (par c 2) 0) = true
      rw [hflags]
      rfl
    · rw [timParams_pass hone hfit]
      simp [hflags, timBad, hmode, hsrc]
  case read =>
    intro s c h hfirst hone hflags hzero hcal hbed
    refine picked_ok (k := fun c => _) h ?_ rfl ?_ rfl h.1
    · change bit (par c 2) 0 = true
      rw [hflags]
      rfl
    · have hmem : ∀ u ∈ timUnits c 0, u = par c 0 := fun u hu => by
        have hone' : par c (0 + 1) = 1 := hone
        have := mem_rangeFrom.1 hu
        omega
      rw [timParams_pass (i := 0) (show 1 ≤ par c 1 by omega) (show par c 0 + par c 1 ≤ 32 by omega), needZero_of fun k hlo hhi => hzero k hlo (by omega),
        needNoUnitCal_of fun u hu => by rw [hmem u hu, hcal], needUnitBeds_of fun u hu => by rw [hmem u hu, hbed]]
      simp [hone, hflags]
  case start =>
    intro s c h haction hone hfit hstart hflags hring htags href hhold hunits
    have hpass : firstBad (timParams c 1 ++ needStart c 5 ++ timStartChecks s c) = none := by
      have hmodes : firstOf (timUnits c 1) (fun u => let x := s.tiu u
          needState (decide (timBad x.mode x.startSel x.stopSel x.n x.gate = none)) 17) = none :=
        firstOf_eq_none.2 fun u hu => needState_of 17 (decide_eq_true (hunits u hu).2.2.2)
      have hidle : firstOf (timUnits c 1) (fun u => needBusy (s.tiu u).run.isNone u) = none :=
        firstOf_eq_none.2 fun u hu => by rw [(hunits u hu).2.2.1]; rfl
      rw [timStartChecks_words hone hfit hstart hflags hring htags, timStartChecks, needRef_of href hhold,
        needNoUnitCal_of fun u hu => (hunits u hu).1, needUnitBeds_of fun u hu => (hunits u hu).2.1, hmodes, hidle]
      rfl
    obtain ⟨t, ht, hans⟩ := exec_timRunStart h haction hpass
    obtain ⟨hin, hout⟩ := startTim_tiu c (startOf s c 5 (par c 10 % 4) ((par c 10).testBit 2)) s
    have hprog := startTim_prog c (startOf s c 5 (par c 10 % 4) ((par c 10).testBit 2)) s hone h.2.1
    refine ⟨_, t, _, ht, startOf_asked c s 5 _ _, hans, fun i hi => ⟨hin i hi, (hprog _).trans (if_pos (by omega))⟩, fun k hk => hout k fun i hi heq => ?_,
      fun k hk => (hprog k).trans (if_neg (by omega)), startTim_parts _ _ _⟩
    exact hk (heq ▸ mem_rangeFrom.2 (show par c 1 ≤ par c 1 + i ∧ par c 1 + i < par c 1 + par c 2 by omega))
  case noRef =>
    intro s c h haction hone hfit hstart hflags hring htags href
    refine picked_bad (k := fun c => _) h (decide_eq_true haction) rfl ((timStartChecks_words hone hfit hstart hflags hring htags).trans ?_)
    rw [timStartChecks, needRef_of_absent href]
    rfl
  case stop =>
    intro s c h haction hone hfit hunits
    have hfold : (timUnits c 1).foldl stopTim s = (timUnits c 1).foldl (fun s u => modTimRun s u (fun r => { r with stopping := true })) s :=
      foldl_keyed_congr (get := State.tiu) (P := fun x => x.mode ≠ 4 ∧ ∃ r, x.run = some r ∧ (r.win.running = true ∨ r.win.credit = true))
        (fun s k ⟨hmode, r, hrun, hopen⟩ => stopTim_open hmode hrun hopen)
        (fun s k j hj => by rw [modTimRun, State.modTiu_tiu, if_neg hj]) (nodup_rangeFrom _ _) fun k hk => (hunits k hk).2.2
    obtain ⟨t, ht, hans⟩ : ∃ t, exec .timRunStop s = .next t ∧ Answered c 0 0 [] (stoppingAll s c) t := by
      refine picked_ok (k := fun c => _) h (decide_eq_true haction) rfl ?_ (by rw [hfold]; rfl) ?_
      · rw [timParams_pass hone hfit, needNoUnitCal_of fun u hu => (hunits u hu).1, needUnitBeds_of fun u hu => (hunits u hu).2.1,
          firstOf_eq_none.2 fun u hu => by
            obtain ⟨r, hrun, -⟩ := (hunits u hu).2.2.2
            rw [hrun]
            rfl]
        rfl
      · rw [stoppingAll_parts]
        exact h.1
    refine ⟨_, t, ht, hans, stoppingAll_parts _ _, fun k hk r hrun => ?_, fun k hk => (stoppingAll_tiu ..).trans (if_neg hk)⟩
    rw [stoppingAll_tiu, if_pos hk, hrun]
    rfl
  case stopIdle =>
    intro s c k r h haction hk hlt hone hcal hbed hrun hcredit hidle
    subst hk
    have hunits : timUnits c 1 = [par c 1] := by
      unfold timUnits
      rw [hone]
      rfl
    obtain ⟨t, ht, hans⟩ : ∃ t, exec .timRunStop s = .next t ∧ Answered c 0 0 [] (endIdle s (par c 1) r) t := by
      refine picked_ok (k := fun c => _) h (decide_eq_true haction) rfl ?_ (by rw [hunits, List.foldl_cons, List.foldl_nil, stopTim_endIdle hrun hcredit hidle]) ?_
      · rw [timParams_pass (i := 1) (show 1 ≤ par c 2 by omega) (show par c 1 + par c 2 ≤ 32 by omega), hunits,
          needNoUnitCal_of (by simpa using hcal), needUnitBeds_of (by simpa using hbed)]
        simp [firstOf, hrun]
      · obtain ⟨p, hv, w, hparts⟩ := endIdle_parts s (par c 1) r
        rw [hparts]
        exact h.1
    have hended : Ended (idleEnd s (par c 1) r) (endIdle s (par c 1) r) := endWork_ended _ _
    refine ⟨_, t, _, ht, hans, ?_, ended_answered hans hended, rfl, rfl, rfl, rfl, rfl, fun j hj => ?_, ?_⟩
    · obtain ⟨p, hv, w, hparts⟩ := endIdle_parts s (par c 1) r
      rw [hparts]
      exact (idleLeft_tiu s (par c 1) (par c 1) r).trans (if_pos rfl)
    · obtain ⟨p, hv, w, hparts⟩ := endIdle_parts s (par c 1) r
      rw [hparts]
      exact (idleLeft_tiu s (par c 1) j r).trans (if_neg hj)
    · obtain ⟨p, hv, w, hparts⟩ := endIdle_parts s (par c 1) r
      rw [hparts]
      rfl
  case noRun =>
    intro s c h haction hone hfit hunits hnone
    obtain ⟨k, hk, hrun⟩ := hnone
    refine picked_bad (k := fun c => _) h (decide_eq_true haction) rfl ?_
    rw [timParams_pass hone hfit, needNoUnitCal_of fun u hu => (hunits u hu).1, needUnitBeds_of fun u hu => (hunits u hu).2,
      firstOf_of_mem (b := (0x13, 12)) hk (by rw [hrun]; rfl) (fun y _ => by cases (s.tiu y).run <;> simp)]
    rfl

end Sys2Proof.Machine
end

section
/-! PROOFS. Edges, gates, timeouts and stamp records of a time-interval unit (R350 to R352, R354 to R357, R360). -/

set_option Elab.async false

namespace Sys2Proof.Machine

/-- `t` is `s` with unit `u` as `x`. -/
def UnitIs (s : State) (u : Nat) (x : TimeInterval) (t : State) : Prop :=
  t.tiu u = x ∧ (∀ k, k ≠ u → t.tiu k = s.tiu k) ∧ t = { s with meas := { s.meas with unit := t.meas.unit } }

section
variable {s t : State} {u : Nat} {x : TimeInterval} {r : TimRun}

theorem unitIs_self (s : State) (u : Nat) : UnitIs s u (s.tiu u) s := ⟨rfl, fun _ _ => rfl, rfl⟩

theorem unitIs_modTiu (h : UnitIs s u x t) (f : TimeInterval → TimeInterval) : UnitIs s u (f x) (t.modTiu u f) := by
  obtain ⟨hx, hrest, heq⟩ := h
  refine ⟨?_, fun k hk => ?_, ?_⟩
  · rw [State.modTiu_tiu, if_pos rfl, hx]
  · rw [State.modTiu_tiu, if_neg hk, hrest k hk]
  · rw [heq]
    rfl

theorem unitIs_modTimRun (h : UnitIs s u x t) (hr : x.run = some r) (f : TimRun → TimRun) :
    UnitIs s u { x with run := some (f r) } (modTimRun t u f) := by
  have hmod := unitIs_modTiu h (fun x => { x with run := x.run.map f })
  rw [hr] at hmod
  exact hmod

theorem unitIs_modWin (h : UnitIs s u x t) (hr : x.run = some r) (f : TimWindow → TimWindow) :
    UnitIs s u { x with run := some { r with win := f r.win } } (modWin t u f) := unitIs_modTimRun h hr _

theorem unitIs_congr {y : TimeInterval} (h : UnitIs s u x t) (hxy : x = y) : UnitIs s u y t := hxy ▸ h

theorem unitIs_run (h : UnitIs s u x t) (hr : x.run = some r) : (t.tiu u).run = some r := by rw [h.1, hr]

theorem openWindow_open (hr : (t.tiu u).run = some r) (h : r.win.running = true ∨ r.win.credit = true) : openWindow t u = t := by
  have hopen : windowOpen t u = true := by simpa [windowOpen, hr] using h
  simp [openWindow, hr, hopen]

theorem openWindow_stamps (hm : (t.tiu u).mode = 4) : openWindow t u = t := by
  unfold openWindow
  split
  · rfl
  · rw [if_pos (.inr hm)]

/-! Samples and attempts. -/

/-- The window with a further sample `d`. -/
def sampled (w : TimWindow) (d first : Nat) (unref : Bool) : TimWindow := { w with
  n := w.n + 1
  time := if w.n = 0 then first / 256 else w.time
  x0 := if w.n = 0 then d else w.x0
  sd := w.sd + ((d : Int) - (if w.n = 0 then d else w.x0 : Nat))
  sq := w.sq + (((d : Int) - (if w.n = 0 then d else w.x0 : Nat)) * ((d : Int) - (if w.n = 0 then d else w.x0 : Nat))).toNat
  xmin := if w.n = 0 then d else min w.xmin d
  xmax := if w.n = 0 then d else max w.xmax d
  unref := w.unref || unref }

theorem sampled_later {w : TimWindow} (h : 1 ≤ w.n) (d first : Nat) (unref : Bool) : sampled w d first unref = { w with
    n := w.n + 1, sd := w.sd + ((d : Int) - w.x0), sq := w.sq + (((d : Int) - w.x0) * ((d : Int) - w.x0)).toNat,
    xmin := min w.xmin d, xmax := max w.xmax d, unref := w.unref || unref } := by
  have hn : w.n ≠ 0 := by omega
  simp [sampled, hn]

theorem addSample_eq_modWin {d first : Nat} {unref : Bool} (hr : (t.tiu u).run = some r) (hrun : r.win.running = true)
    (hn : r.win.n + 1 < (t.tiu u).n) : ∃ f, addSample t u d first unref = modWin t u f := by
  have hfull : ¬ (t.tiu u).n ≤ r.win.n := by omega
  have hfull' : ¬ (t.tiu u).n ≤ r.win.n + 1 := by omega
  have hwin : windowOpen t u = true := by simp [windowOpen, hr, hrun]
  simp only [addSample, hr, hrun, hfull, hfull', openWindow_of_running hr hrun, hwin, modWin_tiu _ hr, decide_false, Bool.and_false,
    Bool.false_eq_true, if_false, Bool.not_true]
  exact ⟨_, rfl⟩

theorem takeSample_unit {d first : Nat} {unref : Bool} (h : UnitIs s u x t) (hr : x.run = some r) (hrun : r.win.running = true)
    (hn : r.win.n + 1 < x.n) :
    UnitIs s u { x with run := some { r with win := sampled r.win d first unref } } (takeSample t u d first false unref) := by
  have hrt := unitIs_run h hr
  have hnt : r.win.n + 1 < (t.tiu u).n := by rw [h.1]; exact hn
  rw [takeSample, if_neg Bool.false_ne_true]
  have hadd := addSample_tiu (x := d) (first := first) (unref := unref) hrt hrun hnt
  obtain ⟨f, hf⟩ := addSample_eq_modWin (d := d) (first := first) (unref := unref) hrt hrun hnt
  obtain ⟨-, hrest, heq⟩ := unitIs_modWin h hr f
  rw [← hf] at hrest heq
  refine ⟨?_, hrest, heq⟩
  rw [hadd, h.1]
  rfl

theorem dropAttempt_unit (h : UnitIs s u x t) (hr : x.run = some r) :
    UnitIs s u { x with run := some { r with armed := none, stepped := false, win := { r.win with timeouts := min 0xFFFFFFFF (r.win.timeouts + 1) } } }
      (dropAttempt t u) :=
  unitIs_modWin (unitIs_modTimRun h hr _) rfl _

/-! The ends of gates. -/

/-- The run whose gate has ended at `b`. -/
def gateEnded (r : TimRun) (b : Nat) : TimRun := { r with gateK := 0, gateMiss := false, gateEnd := b, stepped := false, armUnref := false }

theorem gateEnds_empty {b : Nat} (h : UnitIs s u x t) (hr : x.run = some r) (hk : r.gateK < 2) :
    UnitIs s u { x with run := some { gateEnded r b with win := { r.win with
      emptyGates := min 0xFFFFFFFF (r.win.emptyGates + (b / (3200 * x.gate) - gatesTo r / (3200 * x.gate))) } } } (gateEnds t u b) := by
  unfold gateEnds
  rw [unitIs_run h hr, h.1]
  dsimp only
  rw [if_pos hk]
  exact unitIs_modWin (unitIs_modTimRun h hr _) rfl _

theorem gateEnds_sample {b : Nat} (h : UnitIs s u x t) (hr : x.run = some r) (hk : 2 ≤ r.gateK) (hstep : r.stepped = false)
    (hrun : r.win.running = true) (hn : r.win.n + 1 < x.n) :
    ∃ k, UnitIs s u { x with run := some { gateEnded r b with win := { sampled { r.win with aliased := r.win.aliased || r.gateMiss }
      (roundUpHalf (((r.gateLast - r.gateFirst) * 256 : Nat) : Int) (r.gateK - 1)).toNat r.gateFirst r.armUnref with emptyGates := k } } } (gateEnds t u b) := by
  unfold gateEnds
  rw [unitIs_run h hr, h.1]
  dsimp only
  rw [if_neg (by omega), hstep]
  have hended := unitIs_modTimRun h hr (fun r => { r with gateK := 0, gateMiss := false, gateEnd := b, stepped := false, armUnref := false })
  have haliased := unitIs_modWin hended rfl (fun w => { w with aliased := w.aliased || r.gateMiss })
  exact ⟨_, unitIs_modWin (takeSample_unit haliased rfl hrun hn) rfl _⟩

/-- A gate's end within the run brings chip time to it. -/
theorem exec_tiuGateEnd {v : TimeUnit} {b : Nat} (hm : (s.tiu v.val).mode = 3) (hr : (s.tiu v.val).run = some r) (hgate : 1 ≤ (s.tiu v.val).gate)
    (hopen : r.win.running = true ∨ r.win.credit = true) (hb : b = roundUp (max s.clk.time (gatesTo r + 1)) (3200 * (s.tiu v.val).gate))
    (hs : started r.start b = true) :
    s.clk.time ≤ b ∧ gatesTo r < b ∧ exec (.tiuGateEnd v) s = .next (gateEnds { s with clk := { s.clk with time := b } } v.val b) := by
  have hle : max s.clk.time (gatesTo r + 1) ≤ b := hb ▸ le_roundUp _ (by omega)
  subst hb
  have hreach : ∀ {b}, s.clk.time ≤ b → s.reach b = { s with clk := { s.clk with time := b } } := fun h => by
    unfold State.reach
    rw [Nat.max_eq_right h]
  refine ⟨by omega, by omega, congrArg Host.Outcome.next ?_⟩
  dsimp only
  rw [hr]
  dsimp only
  rw [if_pos hm]
  refine (if_pos hs).trans ?_
  change gateEnds (openWindow (s.reach (roundUp (max s.clk.time (gatesTo r + 1)) (3200 * (s.tiu v.val).gate))) v.val) v.val _ = _
  rw [hreach (by omega)]
  exact congrArg (gateEnds · v.val _) (openWindow_open hr hopen)

/-! Accepted edges. -/

theorem acceptEdge_dead {src e a : Nat} {stop fall : Bool} (hlast : (if stop then (t.tiu u).lastStop else (t.tiu u).lastStart) = some a)
    (ha : timStamp t u stop src e < a + 2048) : acceptEdge t u stop src e fall =
      modWin (modTimRun (t.modTiu u (fun x => if stop then { x with missStop := satAdd max32 x.missStop 1 } else { x with missStart := satAdd max32 x.missStart 1 })) u
        (fun r => { r with gateMiss := r.gateMiss || !stop })) u
        (fun w => if stop then { w with missStop := satAdd max32 w.missStop 1 } else { w with missStart := satAdd max32 w.missStart 1 }) := by
  unfold acceptEdge
  dsimp only
  rw [hlast, if_pos (by simpa using ha)]

/-- The unit with the stamp of an edge that its channel has accepted. -/
def stamped (x : TimeInterval) (stop : Bool) (stamp : Nat) : TimeInterval :=
  if stop then { x with lastStop := some stamp } else { x with lastStart := some stamp }

theorem acceptEdge_accepted {src e : Nat} {stop fall : Bool}
    (h : ∀ a, (if stop then (t.tiu u).lastStop else (t.tiu u).lastStart) = some a → a + 2048 ≤ timStamp t u stop src e) :
    acceptEdge t u stop src e fall = edgeToRun (t.modTiu u (fun x => stamped x stop (timStamp t u stop src e))) u stop fall (timStamp t u stop src e) := by
  unfold acceptEdge
  dsimp only
  rw [if_neg]
  · rfl
  · rw [Option.any_eq_true]
    rintro ⟨a, ha, hlt⟩
    have := h a ha
    have := of_decide_eq_true hlt
    omega

theorem exec_tiuEdge {v : TimeUnit} {e y : Nat} {stop fall : Bool} (h : EdgeTaken s v.val stop e fall y) :
    ∃ src, timStamp s v.val stop src e = y ∧ exec (.tiuEdge v stop e fall) s = .next (acceptEdge (s.reach (e / 256)) v.val stop src e fall) := by
  obtain ⟨src, ed, hsel, hown, hlive, hbed, hrise, hfall, hy⟩ := h
  refine ⟨src, hy.symm, congrArg Host.Outcome.next ?_⟩
  dsimp only
  rw [hsel, hown, hlive, hbed]
  dsimp only
  rw [if_neg]
  rcases Decidable.em (ed = 0) with h0 | h0 <;> rcases Decidable.em (ed = 1) with h1 | h1
  · omega
  · simp [hrise h0, h0]
  · simp [hfall h1, h1]
  · simp [h0, h1]

/-- An edge that is taken and outside its dead time reaches the run, stamped. -/
theorem exec_tiuEdge_accepted {v : TimeUnit} {e y : Nat} {stop fall : Bool} (h : EdgeTaken s v.val stop e fall y)
    (hdead : ∀ a, (if stop then (s.tiu v.val).lastStop else (s.tiu v.val).lastStart) = some a → a + 2048 ≤ y) :
    ∃ t, UnitIs (s.reach (e / 256)) v.val (stamped (s.tiu v.val) stop y) t ∧ exec (.tiuEdge v stop e fall) s = .next (edgeToRun t v.val stop fall y) := by
  obtain ⟨src, hstamp, hexec⟩ := exec_tiuEdge h
  subst hstamp
  exact ⟨_, unitIs_modTiu (unitIs_self (s.reach (e / 256)) v.val) _, hexec.trans (congrArg _ (acceptEdge_accepted (t := s.reach (e / 256)) hdead))⟩

/-- The unit with one more MISSED edge of a channel, its run apart. -/
def countMiss (stop : Bool) (x : TimeInterval) : TimeInterval :=
  if stop then { x with missStop := satAdd max32 x.missStop 1 } else { x with missStart := satAdd max32 x.missStart 1 }

/-- A run with one more MISSED edge of a channel. -/
def runMissed (stop : Bool) (r : TimRun) : TimRun := { r with
  gateMiss := r.gateMiss || !stop
  win := if stop then { r.win with missStop := satAdd max32 r.win.missStop 1 } else { r.win with missStart := satAdd max32 r.win.missStart 1 } }

theorem runMissed_start : runMissed false = fun r => { r with gateMiss := true, win := { r.win with missStart := satAdd max32 r.win.missStart 1 } } :=
  funext fun r => by simp [runMissed]

theorem runMissed_stop : runMissed true = fun r => { r with win := { r.win with missStop := satAdd max32 r.win.missStop 1 } } :=
  funext fun r => by simp [runMissed]

/-- An edge in the dead time only counts (R352). -/
theorem exec_tiuEdge_dead {v : TimeUnit} {e y a : Nat} {stop fall : Bool} (h : EdgeTaken s v.val stop e fall y)
    (hlast : (if stop then (s.tiu v.val).lastStop else (s.tiu v.val).lastStart) = some a) (ha : y < a + 2048) :
    ∃ t, exec (.tiuEdge v stop e fall) s = .next t ∧ UnitIs (s.reach (e / 256)) v.val
      { countMiss stop (s.tiu v.val) with run := (countMiss stop (s.tiu v.val)).run.map (runMissed stop) } t := by
  obtain ⟨src, hstamp, hexec⟩ := exec_tiuEdge h
  subst hstamp
  refine ⟨_, hexec.trans (congrArg _ (acceptEdge_dead (t := s.reach (e / 256)) hlast ha)), ?_⟩
  refine unitIs_congr (unitIs_modTiu (unitIs_modTiu (unitIs_modTiu (unitIs_self (s.reach (e / 256)) v.val) (countMiss stop)) _) _) ?_
  dsimp only
  rw [Option.map_map]
  rfl

/-! What an accepted edge does to the run (R354 to R357), a window being open. -/

theorem unitIs_clk (h : UnitIs s u x t) : t.clk = s.clk := by rw [h.2.2]

theorem started_at {b : BurstStart} {ts y : Nat} (h : b = .at ts) (hy : ts ≤ y) : started b y = true := by
  rw [h]
  exact decide_eq_true hy

variable {y a : Nat} {stop fall : Bool}

theorem edgeToRun_none (hr : (t.tiu u).run = none) : edgeToRun t u stop fall y = t := by
  unfold edgeToRun
  dsimp only
  rw [hr]

/-- INTERVAL and PULSE_WIDTH: a START edge arms. -/
theorem edgeToRun_arm (h : UnitIs s u x t) (hr : x.run = some r) (hs : started r.start (y / 256) = true) (hm : x.mode = 0 ∨ x.mode = 2)
    (hopen : r.win.running = true ∨ r.win.credit = true) (ha : r.armed = none) :
    UnitIs s u { x with run := some { r with armed := some y, stepped := false, armUnref := s.clk.holdover } } (edgeToRun t u false fall y) := by
  have hrt := unitIs_run h hr
  have hmodes : ¬ (t.tiu u).mode = 4 ∧ ¬ (t.tiu u).mode = 3 ∧ ¬ (t.tiu u).mode = 1 := by rw [h.1]; omega
  have heq : edgeToRun t u false fall y = modTimRun t u (fun r => { r with armed := some y, stepped := false, armUnref := t.clk.holdover }) := by
    simp [edgeToRun, hrt, hs, hmodes, ha, openWindow_open hrt hopen]
  rw [heq, unitIs_clk h]
  exact unitIs_modTimRun h hr _

/-- A STOP edge closes the sample. -/
theorem edgeToRun_close (h : UnitIs s u x t) (hr : x.run = some r) (hs : started r.start (y / 256) = true) (hm : x.mode = 0 ∨ x.mode = 2)
    (ha : r.armed = some a) (hlt : a < y) (hin : timedOut x a y = false) (hstep : r.stepped = false) (hrun : r.win.running = true)
    (hn : r.win.n + 1 < x.n) :
    UnitIs s u { x with run := some { r with armed := none, win := sampled r.win (y - a) a (r.armUnref || s.clk.holdover) } } (edgeToRun t u true fall y) := by
  have hrt := unitIs_run h hr
  have hmodes : ¬ (t.tiu u).mode = 4 ∧ ¬ (t.tiu u).mode = 3 ∧ ¬ (t.tiu u).mode = 1 := by rw [h.1]; omega
  have hopen := openWindow_open hrt (.inl hrun)
  have hin' : timedOut (t.tiu u) a y = false := by rw [h.1, hin]
  have heq : edgeToRun t u true fall y =
      takeSample (modTimRun t u (fun r => { r with armed := none, stepped := false })) u (y - a) a false (r.armUnref || t.clk.holdover) := by
    simp [edgeToRun, hrt, hs, hmodes, ha, hopen, hin', hlt, hstep]
  rw [heq, unitIs_clk h]
  refine unitIs_congr (takeSample_unit (unitIs_modTimRun h hr _) rfl hrun hn) ?_
  rw [← hstep]

/-- A STOP edge after the attempt's limit only ends the attempt. -/
theorem edgeToRun_timedOut (h : UnitIs s u x t) (hr : x.run = some r) (hs : started r.start (y / 256) = true) (hm : x.mode = 0 ∨ x.mode = 2)
    (ha : r.armed = some a) (hopen : r.win.running = true ∨ r.win.credit = true) (hout : timedOut x a y = true) :
    UnitIs s u { x with run := some { r with armed := none, stepped := false, win := { r.win with timeouts := min 0xFFFFFFFF (r.win.timeouts + 1) } } }
      (edgeToRun t u true fall y) := by
  have hrt := unitIs_run h hr
  have hmodes : ¬ (t.tiu u).mode = 4 ∧ ¬ (t.tiu u).mode = 3 ∧ ¬ (t.tiu u).mode = 1 := by rw [h.1]; omega
  have hout' : timedOut (t.tiu u) a y = true := by rw [h.1, hout]
  have hdrop := dropAttempt_unit h hr
  have heq : edgeToRun t u true fall y = dropAttempt t u := by
    simp [edgeToRun, hrt, hs, hmodes, ha, openWindow_open hrt hopen, hout', hdrop.1]
  rw [heq]
  exact hdrop

/-- PERIOD: a START edge closes the sample and arms. -/
theorem edgeToRun_period (h : UnitIs s u x t) (hr : x.run = some r) (hs : started r.start (y / 256) = true) (hm : x.mode = 1)
    (ha : r.armed = some a) (hmiss : r.armMiss = x.missStart) (hstep : r.stepped = false) (hrun : r.win.running = true) (hn : r.win.n + 1 < x.n) :
    UnitIs s u { x with run := some { r with armed := some y, armMiss := x.missStart, stepped := false, armUnref := s.clk.holdover, win := sampled r.win (y - a) a (r.armUnref || s.clk.holdover) } } (edgeToRun t u false fall y) := by
  have hrt := unitIs_run h hr
  have hmodes : ¬ (t.tiu u).mode = 4 ∧ ¬ (t.tiu u).mode = 3 ∧ (t.tiu u).mode = 1 := by rw [h.1]; omega
  have hmiss' : r.armMiss = (t.tiu u).missStart := by rw [h.1, hmiss]
  have heq : edgeToRun t u false fall y =
      takeSample (modTimRun t u (fun r => { r with armed := some y, armMiss := (t.tiu u).missStart, stepped := false, armUnref := t.clk.holdover })) u
        (y - a) a false (r.armUnref || t.clk.holdover) := by
    simp [edgeToRun, hrt, hs, hmodes, ha, openWindow_open hrt (.inl hrun), hmiss', hstep]
  rw [heq, unitIs_clk h, h.1]
  exact takeSample_unit (unitIs_modTimRun h hr _) rfl hrun hn

/-- FREQUENCY: a START edge counts in its gate. -/
theorem edgeToRun_count (h : UnitIs s u x t) (hr : x.run = some r) (hs : started r.start (y / 256) = true) (hm : x.mode = 3)
    (hopen : r.win.running = true ∨ r.win.credit = true) (hgate : y / 256 / (3200 * x.gate) * (3200 * x.gate) ≤ gatesTo r) :
    UnitIs s u { x with run := some { r with gateK := min 0xFFFFFFFF (r.gateK + 1), gateFirst := if r.gateK = 0 then y else r.gateFirst, gateLast := y, armUnref := r.armUnref || s.clk.holdover } } (edgeToRun t u false fall y) := by
  have hrt := unitIs_run h hr
  have hmodes : ¬ (t.tiu u).mode = 4 ∧ (t.tiu u).mode = 3 := by rw [h.1]; omega
  have hgate' : ¬ gatesTo r < y / 256 / (3200 * (t.tiu u).gate) * (3200 * (t.tiu u).gate) := by rw [h.1]; omega
  have heq : edgeToRun t u false fall y = modTimRun t u (fun r => { r with
      gateK := satAdd max32 r.gateK 1, gateFirst := if r.gateK = 0 then y else r.gateFirst, gateLast := y
      armUnref := r.armUnref || t.clk.holdover }) := by
    simp only [edgeToRun, hrt, hs, hmodes, openWindow_open hrt hopen, if_true, Bool.not_true, Bool.false_eq_true, if_false]
    rw [if_neg hgate']
    rfl
  rw [heq, unitIs_clk h]
  exact unitIs_modTimRun h hr _

/-- TIMESTAMP: the edge is stamped into the FIFO. -/
theorem edgeToRun_stamp (h : UnitIs s u x t) (hr : x.run = some r) (hs : started r.start (y / 256) = true) (hm : x.mode = 4) :
    edgeToRun t u stop fall y = pushStamp t u { time := y, stop := stop, fall := fall } := by
  have hmode : (t.tiu u).mode = 4 := by rw [h.1, hm]
  simp [edgeToRun, unitIs_run h hr, hs, hmode, openWindow_stamps hmode]

/-! The stamp FIFO (R357, R360). -/

theorem drainStamp_joins {b : StampRec} {e : Stamp} {l : List Stamp} (hr : (t.tiu u).run = some r) (hfifo : (t.tiu u).fifo = e :: l)
    (hb : r.record = some b) (hnew : startsRecord b e = false) : drainStamp t u =
      (modTimRun t u (fun r => { r with record := some { b with entries := b.entries ++ [e] } })).modTiu u (fun x => { x with fifo := l }) := by
  simp [drainStamp, hr, hfifo, hb, hnew]

/-- A stamp that finds an empty FIFO and an open record with room joins the record. -/
theorem pushStamp_record {b : StampRec} {e : Stamp} (h : UnitIs s u x t) (hr : x.run = some r) (hfifo : x.fifo = []) (hfresh : x.freshNext = false)
    (hb : r.record = some b) (hlen : b.entries.length < 64) (hunref : b.unref = s.clk.holdover) :
    UnitIs s u { x with gapNext := false, overflow := 0, run := some { r with record := some { b with
      entries := b.entries ++ [{ e with gap := x.gapNext, lost := x.overflow, unref := s.clk.holdover, fresh := false }] } } } (pushStamp t u e) := by
  have hlen' : (t.tiu u).fifo.length < 1024 := by rw [h.1, hfifo]; decide
  have hin := unitIs_modTiu h (fun y => { y with
    fifo := y.fifo ++ [{ e with gap := y.gapNext, lost := y.overflow, unref := t.clk.holdover, fresh := y.freshNext }]
    gapNext := false, overflow := 0, freshNext := false })
  unfold pushStamp
  dsimp only
  rw [if_pos hlen']
  generalize t.modTiu u _ = v at hin ⊢
  rw [unitIs_clk h, hfifo, hfresh, List.nil_append] at hin
  have hnew : startsRecord b { e with gap := x.gapNext, lost := x.overflow, unref := s.clk.holdover, fresh := false } = false := by
    simp [startsRecord, hunref, hlen]
  rw [hin.1]
  change UnitIs s u _ (drainStamp v u)
  rw [drainStamp_joins (unitIs_run hin hr) (congrArg TimeInterval.fifo hin.1) hb hnew]
  refine unitIs_congr (unitIs_modTiu (unitIs_modTimRun hin hr _) _) ?_
  dsimp only
  rw [hfifo, ← hfresh]

/-- A stamp that finds the FIFO full only counts; the run's first overflow raises TIM_OVF. -/
theorem pushStamp_full {e : Stamp} (h : UnitIs s u x t) (hr : x.run = some r) (hfifo : x.fifo.length = 1024) :
    ∃ v, UnitIs s u { x with gapNext := true, overflow := min 0xFFFFFFFF (x.overflow + 1), run := some { r with overflowed := true } } v ∧
      pushStamp t u e = if r.overflowed = true then v else v.raise (u / 2) 10 u := by
  have hcount := unitIs_modTiu h (fun x => { x with overflow := satAdd max32 x.overflow 1, gapNext := true })
  have hpush : pushStamp t u e = if r.overflowed then t.modTiu u (fun x => { x with overflow := satAdd max32 x.overflow 1, gapNext := true })
      else (modTimRun (t.modTiu u (fun x => { x with overflow := satAdd max32 x.overflow 1, gapNext := true })) u (fun r => { r with overflowed := true })).raise (u / 2) 10 u := by
    unfold pushStamp
    dsimp only
    rw [if_neg (by rw [h.1, hfifo]; decide), unitIs_run h hr]
  rw [hpush]
  cases ho : r.overflowed with
  | false => exact ⟨_, unitIs_modTimRun hcount hr (fun r => { r with overflowed := true }), rfl⟩
  | true =>
    refine ⟨_, unitIs_congr hcount ?_, rfl⟩
    rw [hr, ← ho]
    rfl

/-! The end of a stamp record (R360). -/

/-- A record whose stager has room is placed. -/
theorem placeHeld_room (s : State) {st units : Nat} (r tag typ flags time : Nat) (body : List Byte) (hroom : stageRoom s st units ≠ none) :
    ∃ h, placeHeld s st r units units tag typ flags time body = ({ s with harv := h }, true) := by
  unfold placeHeld
  split
  · exact ⟨_, rfl⟩
  · cases hv : stageRoom s st units with
    | none => exact absurd hv hroom
    | some v =>
      have hplaced : Only 2048 s (placeIn (v.modRing r (fun c => { c with reserved := c.reserved - units })) st r units tag
          (fun q => recordBytes typ (recordFlags v flags) units q time body)) :=
        placeIn_only rfl (State.modRing_only rfl (stageRoom_only rfl only_refl _ hv))
      dsimp only
      rw [if_neg (Nat.lt_irrefl units)]
      exact ⟨_, congrArg (fun t => (t, true)) (only_eq hplaced)⟩

/-- A record done that ends neither the run nor a stop counts. -/
theorem timDone_counts (hstop : r.stopping = false) (hlast : r.done + 1 ≠ r.blocks) : timDone t u r =
    (modTimRun t u (fun r => { r with done := r.done + 1 })).modProg r.tag (fun p => { p with steps := r.done + 1 }) := by
  unfold timDone
  dsimp only
  rw [if_neg]
  rintro (h | h)
  · rw [hstop] at h
    exact Bool.false_ne_true h
  · exact hlast h

theorem closeStamps_counts {b : StampRec} (hr : (t.tiu u).run = some r) (hb : r.record = some b)
    (hroom : r.win.credit = true → b.entries.length = 64 ∧ stageRoom t (u / 2) 35 ≠ none) (hstop : r.stopping = false) (hlast : r.done + 1 ≠ r.blocks) :
    ∃ v h, UnitIs t u { t.tiu u with run := some { r with record := none, done := r.done + 1, win := { r.win with credit := false } } } v ∧
      closeStamps t u = ({ v with harv := h } : State).modProg r.tag (fun p => { p with steps := r.done + 1 }) := by
  have hplace : ∃ h, (if r.win.credit then placeHeld t (u / 2) r.ring 35 (stampUnits b.entries.length) r.tag 8 (flag 3 b.unref) (stampTime t b) (timStamps u r.tag b)
      else (t, true)) = ({ t with harv := h }, true) := by
    split
    next hc =>
      obtain ⟨hlen, hstage⟩ := hroom hc
      rw [hlen]
      exact placeHeld_room t _ _ _ _ _ _ hstage
    next => exact ⟨_, rfl⟩
  obtain ⟨h, hplace⟩ := hplace
  have hself := unitIs_modTimRun (unitIs_self t u) hr (fun r => { r with record := none, win := { r.win with credit := false } })
  refine ⟨_, h, unitIs_modTimRun hself rfl (fun r => { r with done := r.done + 1 }), ?_⟩
  unfold closeStamps
  rw [hr]
  dsimp only
  rw [hb]
  dsimp only
  rw [hplace]
  dsimp only
  rw [if_pos rfl, timDone_counts hstop hlast]
  rfl

end

/-- Settles O37: an accepted edge reaches the run by its mode, and each event changes its unit alone. -/
theorem intervalEvents : Obligations.IntervalEvents := by
  unfold Obligations.IntervalEvents
  refine ⟨?other, ?resolution, ?free, ?deadStop, ?deadStart, ?arm, ?close, ?late, ?period, ?count, ?record, ?overflow, ?empty, ?gate, ?noGate,
    ?limit, ?noLimit, ?stamps, ?noStamps⟩
  case other =>
    intro u stop fall e s hnot
    refine congrArg Host.Outcome.next ?_
    rcases hsel : channelSel (s.tiu u.val) stop with ⟨src, ed⟩
    dsimp only
    by_contra hne
    refine hnot (timStamp s u.val stop src e) ⟨src, ed, hsel, ?_⟩
    split at hne
    · exact absurd rfl hne
    next hcond =>
      simp only [Bool.or_eq_true, Bool.and_eq_true, Bool.not_eq_true', decide_eq_true_eq, not_or, Bool.not_eq_true, not_and] at hcond
      obtain ⟨⟨⟨⟨hown, hlive⟩, hbed⟩, hrise⟩, hfall⟩ := hcond
      exact ⟨hown, by simpa using hlive, by simpa using hbed, hrise, fun h => by simpa using hfall h, rfl⟩
  case resolution =>
    intro s u stop src e
    refine ⟨fun h => if_pos h, fun h h' => ?_, fun h h' => ?_, fun h => ?_⟩ <;> unfold timStamp
    · rw [if_neg (by omega), if_pos (by omega)]
    · rw [if_neg (by omega), if_neg (by omega), if_pos (by omega)]
    · rw [if_neg (by omega), if_neg (by omega), if_neg (by omega)]
  case free =>
    intro u stop fall e x s htaken hrun hdead
    obtain ⟨t, hunit, hexec⟩ := exec_tiuEdge_accepted htaken hdead
    have hnone : (t.tiu u.val).run = none := by
      rw [hunit.1]
      cases stop <;> exact hrun
    rw [edgeToRun_none hnone] at hexec
    exact ⟨t, hexec, hunit⟩
  case deadStop =>
    intro u fall e x a s htaken hlast ha
    obtain ⟨t, hexec, hunit⟩ := exec_tiuEdge_dead htaken hlast ha
    rw [runMissed_stop] at hunit
    exact ⟨t, hexec, hunit⟩
  case deadStart =>
    intro u fall e x a s htaken hlast ha
    obtain ⟨t, hexec, hunit⟩ := exec_tiuEdge_dead htaken hlast ha
    rw [runMissed_start] at hunit
    exact ⟨t, hexec, hunit⟩
  case arm =>
    intro u fall e x ts s r htaken hdead hm hr hstart hts ha hopen
    obtain ⟨t, hunit, hexec⟩ := exec_tiuEdge_accepted htaken hdead
    exact ⟨_, hexec, edgeToRun_arm hunit hr (started_at hstart hts) hm hopen ha⟩
  case close =>
    intro u fall e x ts a s r htaken hdead hm hr hstart hts ha hlt hwide htime hstep hrun h1 hn
    obtain ⟨t, hunit, hexec⟩ := exec_tiuEdge_accepted htaken hdead
    have hin : timedOut (s.tiu u.val) a x = false := by
      simp only [timedOut, Bool.or_eq_false_iff, Bool.and_eq_false_iff, decide_eq_false_iff_not]
      omega
    refine ⟨_, hexec, ?_⟩
    rw [← sampled_later h1]
    exact edgeToRun_close hunit hr (started_at hstart hts) hm ha hlt hin hstep hrun hn
  case late =>
    intro u fall e x ts a s r htaken hdead hm hr hstart hts ha hopen hout
    obtain ⟨t, hunit, hexec⟩ := exec_tiuEdge_accepted htaken hdead
    have hout' : timedOut (s.tiu u.val) a x = true := by
      simp only [timedOut, Bool.or_eq_true, Bool.and_eq_true, decide_eq_true_eq]
      omega
    exact ⟨_, hexec, edgeToRun_timedOut hunit hr (started_at hstart hts) hm ha hopen hout'⟩
  case period =>
    intro u fall e x ts a s r htaken hdead hm hr hstart hts ha hmiss hstep hrun h1 hn
    obtain ⟨t, hunit, hexec⟩ := exec_tiuEdge_accepted htaken hdead
    obtain ⟨hx, hrest, heq⟩ := edgeToRun_period (fall := fall) hunit hr (started_at hstart hts) hm ha hmiss hstep hrun hn
    rw [sampled_later h1] at hx
    refine ⟨_, _, hexec, by rw [hx], by rw [hx]; rfl, rfl, rfl, rfl, rfl, rfl, hrest, heq⟩
  case count =>
    intro u fall e x ts s r htaken hdead hm hr hstart hts hopen hgate
    obtain ⟨t, hunit, hexec⟩ := exec_tiuEdge_accepted htaken hdead
    exact ⟨_, hexec, edgeToRun_count hunit hr (started_at hstart hts) hm hopen hgate⟩
  case record =>
    intro u fall e x ts s r b htaken hdead hm hr hstart hts hfifo hfresh hb hlen hunref
    obtain ⟨t, hunit, hexec⟩ := exec_tiuEdge_accepted htaken hdead
    rw [edgeToRun_stamp hunit hr (started_at hstart hts) hm] at hexec
    exact ⟨_, hexec, pushStamp_record hunit hr hfifo hfresh hb hlen hunref⟩
  case overflow =>
    intro u fall e x ts s r htaken hdead hm hr hstart hts hfifo
    obtain ⟨t, hunit, hexec⟩ := exec_tiuEdge_accepted htaken hdead
    rw [edgeToRun_stamp hunit hr (started_at hstart hts) hm] at hexec
    obtain ⟨v, ⟨hx, hrest, heq⟩, hpush⟩ := pushStamp_full (e := { time := x, stop := true, fall := fall }) hunit hr hfifo
    rw [hpush] at hexec
    refine ⟨_, hexec, ?_⟩
    split
    next ho =>
      refine ⟨hx, fun h => absurd (h.symm.trans ho) Bool.false_ne_true, fun _ => by rw [heq]; rfl, hrest, ?_⟩
      rw [heq]
      rfl
    next ho =>
      obtain ⟨b, w, hraise⟩ := raise_parts v (u.val / 2) 10 u.val 0
      refine ⟨by rw [hraise]; exact hx, fun _ => ⟨_, by rw [raise_waiting]; exact List.mem_append_right _ (List.mem_singleton_self _), rfl, rfl, rfl⟩,
        fun h => absurd h ho, fun k hk => by rw [hraise]; exact hrest k hk, ?_⟩
      rw [hraise, heq]
      rfl
  case empty =>
    intro u s r b hm hr hgate hopen hb hs hk
    obtain ⟨hnow, hlt, hexec⟩ := exec_tiuGateEnd hm hr hgate hopen hb hs
    obtain ⟨hx, hrest, heq⟩ := gateEnds_empty (b := b) (unitIs_self { s with clk := { s.clk with time := b } } u.val) hr hk
    have hend : r.gateEnd ≤ gatesTo r := Nat.le_max_left _ _
    exact ⟨_, hexec, by rw [heq], hnow, by omega, hb ▸ roundUp_mod _ _, hx, hrest, heq⟩
  case gate =>
    intro u s r b hm hr hgate hb hs hk hstep hrun h1 hn
    obtain ⟨-, -, hexec⟩ := exec_tiuGateEnd hm hr hgate (.inl hrun) hb hs
    obtain ⟨k, hx, hrest, heq⟩ := gateEnds_sample (b := b) (unitIs_self { s with clk := { s.clk with time := b } } u.val) hr hk hstep hrun hn
    rw [sampled_later (w := { r.win with aliased := r.win.aliased || r.gateMiss }) h1] at hx
    exact ⟨_, _, hexec, by rw [heq], by rw [hx], rfl, rfl, rfl, rfl, rfl, rfl, hrest, heq⟩
  case noGate =>
    intro u s hnot
    refine congrArg Host.Outcome.next ?_
    dsimp only
    split
    next r hr =>
      rw [if_neg]
      rcases hnot with h | h
      · exact h
      · rw [h] at hr
        cases hr
    next => rfl
  case limit =>
    intro u s r a hm hr ha
    obtain ⟨hx, hrest, heq⟩ := dropAttempt_unit (unitIs_self
      (s.reach ((a + (if (s.tiu u.val).timeout = 0 then 2 ^ 48 - 1 else (s.tiu u.val).timeout * 819200)) / 256)) u.val) hr
    have hexec : exec (.tiuTimeout u) s = .next (dropAttempt
        (s.reach ((a + (if (s.tiu u.val).timeout = 0 then 2 ^ 48 - 1 else (s.tiu u.val).timeout * 819200)) / 256)) u.val) := by
      refine congrArg Host.Outcome.next ?_
      dsimp only
      rw [hr]
      dsimp only
      rw [ha]
      dsimp only
      rw [if_pos hm]
    exact ⟨_, hexec, hx, by rw [heq]; rfl, hrest, by rw [heq]; rfl⟩
  case noLimit =>
    intro u s hnot
    refine congrArg Host.Outcome.next ?_
    dsimp only
    split
    next r hr =>
      rcases hnot r hr with h | ⟨h0, h2⟩
      · rw [h]
      · split
        · rw [if_neg]
          rintro (h | h)
          · exact h0 h
          · exact h2 h
        · rfl
    next => rfl
  case stamps =>
    intro u s r b e l hr hb hl hfifo hroom hstop hlast
    have hreach : ∃ v : State, (if 64 ≤ b.entries.length then s else s.reach (e.time / 256 + 320000)) = v ∧
        v = { s with clk := { s.clk with time := if 64 ≤ b.entries.length then s.clk.time else max s.clk.time (e.time / 256 + 320000) } } := by
      refine ⟨_, rfl, ?_⟩
      split <;> rfl
    obtain ⟨v, hv, hclk⟩ := hreach
    have hroom' : r.win.credit = true → b.entries.length = 64 ∧ stageRoom v (u.val / 2) 35 ≠ none := by
      intro hc
      obtain ⟨hlen, hstage⟩ := hroom hc
      rw [if_pos (by omega)] at hv
      exact ⟨hlen, hv ▸ hstage⟩
    obtain ⟨t, h, ⟨hx, hrest, heq⟩, hclose⟩ := closeStamps_counts (t := v) (u := u.val) (by rw [hclk]; exact hr) hb hroom' hstop hlast
    have hfifo' : ((({ t with harv := h } : State).modProg r.tag (fun p => { p with steps := r.done + 1 })).tiu u.val).fifo = [] := by
      change (t.tiu u.val).fifo = []
      rw [hx, hclk]
      exact hfifo
    have hexec : exec (.timStampsClose u) s = .next (({ t with harv := h } : State).modProg r.tag (fun p => { p with steps := r.done + 1 })) := by
      refine congrArg Host.Outcome.next ?_
      rw [hr, Option.bind_some, hb]
      dsimp only
      rw [hl]
      dsimp only
      rw [← hl, hv, hclose, hfifo']
      rfl
    rw [hclk] at hx hrest heq
    refine ⟨_, hexec, by rw [heq]; rfl, hx, ?_, hrest, fun k hk => ?_, ?_⟩
    · rw [State.modProg_prog, if_pos rfl, heq]
      rfl
    · rw [State.modProg_prog, if_neg hk, heq]
      rfl
    · rw [heq]
      rfl
  case noStamps =>
    intro u s hnot
    refine congrArg Host.Outcome.next ?_
    cases hr : (s.tiu u.val).run with
    | none => rfl
    | some r =>
      rw [Option.bind_some, hnot r hr]

end Sys2Proof.Machine
end

section
/-! PROOFS. Averagers: MEAS_CONFIG, measurement and lock-in runs, and the ends of their windows and records (R326 to R334, R343
to R346). -/

set_option Elab.async false

namespace Sys2Proof.Machine

/-- Checks that all pass. -/
theorem firstBad_pass {l : List (Option Bad)} (h : ∀ x ∈ l, x = none) : firstBad l = none := by
  rw [← List.append_nil l, firstBad_append h]
  rfl

theorem pass_append {l m : List (Option Bad)} (hl : ∀ x ∈ l, x = none) (hm : ∀ x ∈ m, x = none) : ∀ x ∈ l ++ m, x = none :=
  List.forall_mem_append.2 ⟨hl, hm⟩

theorem pass_cons {a : Option Bad} {l : List (Option Bad)} (ha : a = none) (hl : ∀ x ∈ l, x = none) : ∀ x ∈ a :: l, x = none :=
  List.forall_mem_cons.2 ⟨ha, hl⟩

theorem pass_nil : ∀ x ∈ ([] : List (Option Bad)), x = none := fun _ h => nomatch h

theorem needParam_pass {b : Bool} (i : Nat) (h : b = true) : needParam b i = none := by rw [h]; rfl

/-! Checks of the averagers' commands. -/

theorem needLoops_pass {c : Current} {i : Nat} (h1 : 1 ≤ par c (i + 1)) (hfit : par c i + par c (i + 1) ≤ 544)
    (hpath : 512 ≤ par c i ∨ par c i + par c (i + 1) ≤ 512) : ∀ x ∈ needLoops c i, x = none :=
  pass_cons (needParam_pass _ (by simp [h1, hfit, hpath])) pass_nil

theorem needNoConv_pass {s : State} {bed : Nat → Nat} {ks : List Nat} (h : ∀ k ∈ ks, calHoldsConv s (bed k) = false) : needNoConv s (ks.map bed) = none :=
  firstOf_eq_none.2 fun b hb => by
    obtain ⟨k, hk, rfl⟩ := List.mem_map.1 hb
    exact needState_of 5 (by rw [h k hk]; rfl)

theorem needActive_pass {s : State} {bed : Nat → Nat} {ks : List Nat} (h : ∀ k ∈ ks, bedActive s (bed k) = true) : needActive s (ks.map bed) = none :=
  needActive_eq_none.2 fun b hb => by
    obtain ⟨k, hk, rfl⟩ := List.mem_map.1 hb
    exact h k hk

theorem needAvg_pass {s : State} {ks : List Nat} (h : ∀ k ∈ ks, avgBusy s k = false) : needAvg s ks = none :=
  firstOf_eq_none.2 fun k hk => by rw [h k hk]; rfl

theorem needTags_pass' {s : State} {c : Current} {n : Nat} (h : TagsFree s c n) : ∀ x ∈ needTags s c n, x = none :=
  pass_cons (needTags_pass h).1 (pass_cons (needTags_pass h).2 pass_nil)

/-! One averager of a state. -/

/-- `t` is `s` with averager `k` as `x`. -/
def AvgIs (s : State) (k : Nat) (x : Averager) (t : State) : Prop :=
  t.avg k = x ∧ (∀ j, j ≠ k → t.avg j = s.avg j) ∧ t = { s with meas := { s.meas with avg := t.meas.avg } }

section
variable {s t : State} {k : Nat} {x : Averager}

theorem avgIs_self (s : State) (k : Nat) : AvgIs s k (s.avg k) s := ⟨rfl, fun _ _ => rfl, rfl⟩

theorem avgIs_modAvg (h : AvgIs s k x t) (f : Averager → Averager) : AvgIs s k (f x) (t.modAvg k f) := by
  obtain ⟨hx, hrest, heq⟩ := h
  refine ⟨?_, fun j hj => ?_, ?_⟩
  · rw [State.modAvg_avg, if_pos rfl, hx]
  · rw [State.modAvg_avg, if_neg hj, hrest j hj]
  · rw [heq]
    rfl

theorem avgIs_modMeasRun {r : MeasRun} (h : AvgIs s k x t) (hr : x.run = some r) (f : MeasRun → MeasRun) :
    AvgIs s k { x with run := some (f r) } (modMeasRun t k f) := by
  have hmod := avgIs_modAvg h (fun a => { a with run := a.run.map f })
  rw [hr] at hmod
  exact hmod

theorem avgIs_modLockRun {r : LockRun} (h : AvgIs s k x t) (hr : x.lock = some r) (f : LockRun → LockRun) :
    AvgIs s k { x with lock := some (f r) } (modLockRun t k f) := by
  have hmod := avgIs_modAvg h (fun a => { a with lock := a.lock.map f })
  rw [hr] at hmod
  exact hmod

/-! The end of an averager's run (R334). -/

/-- Averager `k` of `s` is `x` in `t`, work with this tag, ring and number of steps has ended, and nothing else has changed. -/
def AvgEnds (s : State) (k : Nat) (x : Averager) (tag ring steps : Nat) (t : State) : Prop :=
  ∃ e, t.avg k = x ∧ Ended e t ∧ e.tag = tag ∧ e.ring = ring ∧ e.status = 0 ∧ e.cause = 0 ∧ e.steps = steps ∧ (∀ j, j ≠ k → t.avg j = s.avg j) ∧
    t = { s with fw := { s.fw with progress := t.fw.progress }, meas := { s.meas with avg := t.meas.avg }, harv := t.harv,
                 flt := { s.flt with waiting := t.flt.waiting } }

/-- The end of work on an averager, its record done or none due. -/
theorem endWork_avg {p : Tab Progress} {h : Harvest} (havg : AvgIs { s with fw := { s.fw with progress := p }, harv := h } k x t) (w : Waiter) (e : PendingEnd)
    (r : Nat) (hstatus : e.status = 0) (hcause : e.cause = 0) :
    AvgEnds s k x e.tag e.ring e.steps (endWork (leaveWaiters t r w) e) := by
  obtain ⟨hx, hrest, heq⟩ := havg
  obtain ⟨q, g, v, hend⟩ := endWork_parts (leaveWaiters t r w) e
  refine ⟨e, ?_, endWork_ended _ _, rfl, rfl, hstatus, hcause, rfl, fun j hj => ?_, ?_⟩
  · rw [hend]
    exact hx
  · rw [hend]
    exact hrest j hj
  · generalize t.meas.avg = a at heq
    subst heq
    rw [hend]
    rfl

theorem endMeasRun_ends {p : Tab Progress} {h : Harvest} {r : MeasRun} (havg : AvgIs { s with fw := { s.fw with progress := p }, harv := h } k x t)
    (hr : x.run = some r) (hunits : r.units = 0) (hv : r.rawV.credit = false) (hi : r.rawI.credit = false) :
    AvgEnds s k { x with run := none } r.tag r.hdrRing r.done (endMeasRun t k 0) := by
  have hleft := avgIs_modAvg havg (fun a => { a with run := none })
  unfold endMeasRun
  rw [havg.1, hr]
  dsimp only
  rw [if_pos hunits, hv, hi]
  exact endWork_avg hleft _ _ _ rfl rfl

theorem endLockRun_ends {p : Tab Progress} {h : Harvest} {r : LockRun} (havg : AvgIs { s with fw := { s.fw with progress := p }, harv := h } k x t)
    (hr : x.lock = some r) (hcredit : r.credit = false) :
    AvgEnds s k { x with lock := none } r.tag r.hdrRing r.done (endLockRun t k false 0) := by
  have hleft := avgIs_modAvg havg (fun a => { a with lock := none })
  unfold endLockRun
  rw [havg.1, hr]
  dsimp only
  rw [hcredit]
  exact endWork_avg hleft _ _ _ rfl rfl

/-! A window or record done (R326, R330, R332). -/

/-- Averager `k` of `s` is `x` in `t`, work `tag` has done `steps`, a record may have been placed, and nothing else has changed. -/
def AvgSteps (s : State) (k : Nat) (x : Averager) (tag steps : Nat) (t : State) : Prop :=
  t.avg k = x ∧ t.prog tag = { s.prog tag with steps := steps } ∧ (∀ j, j ≠ k → t.avg j = s.avg j) ∧ (∀ j, j ≠ tag → t.prog j = s.prog j) ∧
    t = { s with fw := { s.fw with progress := t.fw.progress }, meas := { s.meas with avg := t.meas.avg }, harv := t.harv }

theorem avgSteps_modProg {h : Harvest} {tag steps : Nat} (havg : AvgIs { s with harv := h } k x t) :
    AvgSteps s k x tag steps (t.modProg tag (fun e => { e with steps := steps })) := by
  obtain ⟨hx, hrest, heq⟩ := havg
  refine ⟨hx, ?_, hrest, fun j hj => ?_, ?_⟩
  · rw [State.modProg_prog, if_pos rfl, heq]
    rfl
  · rw [State.modProg_prog, if_neg hj, heq]
    rfl
  · rw [heq]
    rfl

theorem avgIs_modProg {h : Harvest} {tag steps : Nat} (havg : AvgIs { s with harv := h } k x t) :
    AvgIs { s with fw := { s.fw with progress := (t.modProg tag (fun e => { e with steps := steps })).fw.progress }, harv := h } k x
      (t.modProg tag (fun e => { e with steps := steps })) := by
  obtain ⟨hx, hrest, heq⟩ := havg
  generalize t.meas.avg = a at heq
  subst heq
  exact ⟨hx, hrest, rfl⟩

/-! Windows and records. -/

/-- The record of a window, if the run holds its credit, with room in the stager. -/
theorem placeHeld_held (s : State) {st n units : Nat} (r tag typ flags time : Nat) (body : List Byte)
    (hroom : n ≠ 0 → n = units ∧ stageRoom s st units ≠ none) :
    ∃ h, (if n = 0 then (s, true) else placeHeld s st r n units tag typ flags time body) = ({ s with harv := h }, true) := by
  split
  · exact ⟨_, rfl⟩
  next hn =>
    obtain ⟨rfl, hstage⟩ := hroom hn
    exact placeHeld_room s r tag typ flags time body hstage

/-- A run whose window has been written. -/
def windowDone (r : MeasRun) : MeasRun := { r with win := none, units := 0, done := r.done + 1, skip := r.gap }

theorem endMeasWindow_done {r : MeasRun} {w : Window} (hr : (s.avg k).run = some r) (hw : r.win = some w)
    (hroom : r.units ≠ 0 → r.units = windowUnits w.size (w.chV && w.chI) ∧ stageRoom s (keyBed k) (windowUnits w.size (w.chV && w.chI)) ≠ none) :
    ∃ h t, AvgIs { s with harv := h } k { s.avg k with run := some (windowDone r) } t ∧ endMeasWindow s k false =
      if r.stopping = true ∨ r.done + 1 = r.blocks then endMeasRun (t.modProg r.tag (fun e => { e with steps := r.done + 1 })) k 0
      else t.modProg r.tag (fun e => { e with steps := r.done + 1 }) := by
  obtain ⟨h, hplace⟩ := placeHeld_held s r.ring r.tag (windowRecord k r.slot r.tag r.done w false s.now).1 (flag 2 false + flag 3 w.unref)
    (windowRecord k r.slot r.tag r.done w false s.now).2.1 (windowRecord k r.slot r.tag r.done w false s.now).2.2 hroom
  refine ⟨h, _, avgIs_modMeasRun (avgIs_self { s with harv := h } k) hr windowDone, ?_⟩
  unfold endMeasWindow
  rw [hr]
  dsimp only
  rw [hw]
  dsimp only
  rw [if_neg Bool.false_ne_true, hplace]
  rfl

/-- A buffer's place in its run. -/
def withRaw (volt : Bool) (b : RawBuf) (r : MeasRun) : MeasRun := if volt then { r with rawV := b } else { r with rawI := b }

/-- A run whose record has been written. -/
def rawDone (volt : Bool) (b : RawBuf) (r : MeasRun) : MeasRun :=
  { withRaw volt { skipped := b.skipNext } r with done := (withRaw volt { skipped := b.skipNext } r).done + 1 }

theorem rawDone_done (volt : Bool) (b : RawBuf) (r : MeasRun) : (rawDone volt b r).done = r.done + 1 := by cases volt <;> rfl

theorem closeRaw_done {r : MeasRun} {b : RawBuf} {f : Sample} {volt : Bool} (hr : (s.avg k).run = some r) (hb : (if volt then r.rawV else r.rawI) = b)
    (hf : b.first = some f) (hlen : b.codes.length = 64) (hcredit : b.credit = true) (hroom : stageRoom s (keyBed k) 10 ≠ none) :
    ∃ h t, AvgIs { s with harv := h } k { s.avg k with run := some (rawDone volt b r) } t ∧
      closeRaw s k volt = if (r.stopping = true ∧ (if volt then r.rawI else r.rawV).first.isNone = true) ∨ r.done + 1 = r.blocks then
        endMeasRun (t.modProg r.tag (fun e => { e with steps := r.done + 1 })) k 0 else t.modProg r.tag (fun e => { e with steps := r.done + 1 }) := by
  have hput : ∀ h : Harvest, ∃ t, AvgIs { s with harv := h } k { s.avg k with run := some (rawDone volt b r) } t ∧
      t = modMeasRun (modMeasRun { s with harv := h } k (fun r => if volt then { r with rawV := { skipped := b.skipNext } } else { r with rawI := { skipped := b.skipNext } })) k
        (fun r => { r with done := r.done + 1 }) := fun h => by
    have hraw := avgIs_modMeasRun (avgIs_self { s with harv := h } k) hr (withRaw volt { skipped := b.skipNext })
    exact ⟨_, avgIs_modMeasRun hraw rfl (fun r => { r with done := r.done + 1 }), rfl⟩
  have hunits : (32 + 2 * b.codes.length + 15) / 16 = 10 := by rw [hlen]
  obtain ⟨h, hplace⟩ := placeHeld_room s (st := keyBed k) (units := 10) r.ring r.tag 0x0B (flag 3 b.unref) f.time
    ([b8 (srcKind k), b8 b.codes.length] ++ toBytes 2 (srcOf k r.slot) ++ toBytes 2 r.tag ++
        toBytes 2 (flag 0 b.ovr + flag 1 b.gap) ++ toBytes 2 r.decim ++ toBytes 2 (descOf k volt { f with vOvr := b.ovr, iOvr := b.ovr }) ++ toBytes 4 b.skipped ++
        b.codes.flatMap (fun c => toBytes 2 (toTwos 16 c))) hroom
  obtain ⟨t, havg, ht⟩ := hput h
  refine ⟨h, t, havg, ?_⟩
  subst ht
  unfold closeRaw
  rw [hr]
  dsimp only
  rw [hb, hf]
  dsimp only
  rw [hcredit, if_pos rfl, hunits, hplace]
  rfl

theorem closeRaw_gap {r : MeasRun} {f : Sample} (hr : (s.avg k).run = some r) (hf : r.rawV.first = some f) (hcredit : r.rawV.credit = false)
    (hdrops : ringDrops s r.ring = false) : closeRaw s k true = modMeasRun s k (fun q => { q with
      rawV := { gap := true, skipped := min 0xFFFFFFFF (min 0xFFFFFFFF (r.rawV.skipped + r.rawV.codes.length) + r.rawV.skipNext) } }) := by
  unfold closeRaw
  rw [hr]
  dsimp only
  rw [if_pos rfl, hf]
  dsimp only
  rw [hcredit, if_neg Bool.false_ne_true]
  dsimp only
  rw [if_neg Bool.false_ne_true, if_neg Bool.false_ne_true, hdrops]
  rfl

theorem endLockWindow_done {r : LockRun} {w : Window} {b : Bool} (hk : k < 2048) (hr : (s.avg k).lock = some r) (hw : r.ended = some (w, b))
    (hroom : b = true → stageRoom s (loopBed k) (if r.v && r.i then 5 else 4) ≠ none) :
    ∃ h t, AvgIs { s with harv := h } k { s.avg k with lock := some { r with ended := none, done := r.done + 1 } } t ∧ endLockWindow s k =
      if r.stopping = true ∨ r.done + 1 = r.blocks then endLockRun (t.modProg r.tag (fun e => { e with steps := r.done + 1 })) k false 0
      else t.modProg r.tag (fun e => { e with steps := r.done + 1 }) := by
  have hbed : keyBed k = loopBed k := if_pos hk
  have hplace : ∃ h, (if b then placeHeld s (keyBed k) r.ring (lockRecord s k r w).1 (lockRecord s k r w).1 r.tag 6 (flag 3 w.unref)
      (lockRecord s k r w).2.1 (lockRecord s k r w).2.2 else (s, true)) = ({ s with harv := h }, true) := by
    cases b with
    | false => exact ⟨_, rfl⟩
    | true => exact placeHeld_room s _ _ _ _ _ _ (by rw [hbed]; exact hroom rfl)
  obtain ⟨h, hplace⟩ := hplace
  refine ⟨h, _, avgIs_modLockRun (avgIs_self { s with harv := h } k) hr (fun r => { r with ended := none, done := r.done + 1 }), ?_⟩
  unfold endLockWindow
  rw [hr]
  dsimp only
  rw [hw]
  dsimp only
  rw [hplace]
  rfl

end

end Sys2Proof.Machine
end

section
/-! PROOFS. MEAS_CONFIG, MEAS_RUN, LOCKIN_RUN and what ends their windows and records (R326 to R334, R343 to R346). -/

set_option Elab.async false

namespace Sys2Proof.Machine

/-! Starts on a range of averagers. -/

/-- A fold of steps that keep a part may take other steps that agree with them on states with that part. -/
theorem foldl_congr_same {α β : Type} {F : State → β} {step g : State → α → State} {l : List α} {s : State} (hsame : ∀ v x, F (g v x) = F v)
    (hstep : ∀ v x, F v = F s → step v x = g v x) : l.foldl step s = l.foldl g s := by
  induction l generalizing s with
  | nil => rfl
  | cons x l ih =>
    rw [List.foldl_cons, List.foldl_cons, hstep s x rfl]
    exact ih fun v y hv => hstep v y (hv.trans (hsame s x))

/-- The start of one averager. -/
def setAvg (f : Nat → Averager → Averager) (a : Nat) (s : State) (i : Nat) : State := s.modAvg (a + i) (f i)

/-- The start of `n` averagers from `a` on, each with its work. -/
def startAvg (f : Nat → Averager → Averager) (a n : Nat) (c : Current) (s : State) : State :=
  startAll (setAvg f a) c.tag.toNat c.opcode.toNat c.ring.toNat 0 n s

section
variable (f : Nat → Averager → Averager) (a n : Nat) (c : Current) (s : State)

theorem startAvg_parts :
    startAvg f a n c s = { s with fw := { s.fw with progress := (startAvg f a n c s).fw.progress },
                                  meas := { s.meas with avg := (startAvg f a n c s).meas.avg }, harv := (startAvg f a n c s).harv } :=
  congrArg (fun v : State => { v with fw := { v.fw with progress := (startAvg f a n c s).fw.progress },
                                      meas := { v.meas with avg := (startAvg f a n c s).meas.avg }, harv := (startAvg f a n c s).harv })
    (startAll_same (F := fun s : State => { s with fw := { s.fw with progress := [] }, meas := { s.meas with avg := [] }, harv := {} })
      (set := setAvg f a) (fun _ _ => rfl) (fun s k => by
        obtain ⟨p, h, hbegin⟩ := beginWork_parts s k c.opcode.toNat c.ring.toNat 0 false
        rw [hbegin]) n s)

theorem startAvg_avg :
    (∀ i, i < n → (startAvg f a n c s).avg (a + i) = f i (s.avg (a + i))) ∧ (∀ k, k ∉ rangeFrom a n → (startAvg f a n c s).avg k = s.avg k) := by
  obtain ⟨hin, hout⟩ := startAll_get (get := State.avg) (key := fun i => a + i) (val := f) (set := setAvg f a) (tag := c.tag.toNat) (opcode := c.opcode.toNat)
    (r := c.ring.toNat) (output := 0) (fun i j h => by simpa using h)
    (fun s i j => by
      rw [setAvg, State.modAvg_avg]
      split
      next heq => rw [heq]
      next => rfl)
    (fun s k j => by
      obtain ⟨p, h, hbegin⟩ := beginWork_parts s k c.opcode.toNat c.ring.toNat 0 false
      rw [hbegin]
      rfl) n s
  exact ⟨hin, fun k hk => hout k fun i hi heq => hk (heq ▸ mem_rangeFrom.2 (by omega))⟩

theorem startAvg_prog (hone : 1 ≤ n) (k : Nat) : (startAvg f a n c s).prog k = if c.tag.toNat ≤ k ∧ k < c.tag.toNat + n then
    { opcode := c.opcode, state := .running, ring := c.ring, output := 0 } else s.prog k := by
  rw [startAvg, startAll_prog (set := setAvg f a) (fun _ _ => rfl) hone, entryOf, w16_toNat, w16_toNat]

theorem startAvg_answers {l : List Nat} {g : State → Nat × Nat → State} {action : List Word → Bool} {k : Current → State} {op : Nat} {checks : List (Option Bad)}
    {ws : List Word} {e : State → State} (h : Picked s op c) (ha : action c.params = true) (hl : l = rangeFrom a n)
    (hk : k c = checked s checks e) (hpass : firstBad checks = none)
    (he : e s = accept (l.zipIdx.foldl g s) c 0 ws) (hg : ∀ i v, v.lp = s.lp → g v (a + i, i) = startWork (setAvg f a) c.tag.toNat c.opcode.toNat c.ring.toNat 0 v i) :
    ∃ t, (Host.Outcome.next (onCommand s op action k) : Host.Outcome State Fault Refusal) = .next t ∧ Answered c 1 0 ws (startAvg f a n c s) t := by
  refine picked_answers h ha ?_ ?_
  · rw [hk, checked_pass e hpass, he, hl, foldl_zipIdx_rangeFrom]
    rw [foldl_congr_same (F := State.lp) (fun v i => ?_) fun v i hv => hg i v hv]
    · rfl
    · unfold startWork
      split
      · rfl
      · obtain ⟨p, h, hbegin⟩ := beginWork_parts (setAvg f a v i) (c.tag.toNat + i) c.opcode.toNat c.ring.toNat 0 false
        rw [hbegin]
        rfl
  · rw [startAvg_parts]
    exact h.1

end

/-! Folds that set something in each of the averagers named. -/

section
variable (f : Averager → Averager) (l : List Nat) (s : State)

theorem foldl_modAvg_avg (hl : l.Nodup) (k : Nat) : (l.foldl (fun (s : State) k => s.modAvg k f) s).avg k = if k ∈ l then f (s.avg k) else s.avg k :=
  foldl_keyed (get := State.avg) (step := fun (s : State) k => s.modAvg k f) (f := fun _ => f) (fun _ _ _ => State.modAvg_avg ..) hl s k

theorem foldl_modAvg_parts : l.foldl (fun (s : State) k => s.modAvg k f) s =
    { s with meas := { s.meas with avg := (l.foldl (fun (s : State) k => s.modAvg k f) s).meas.avg } } :=
  congrArg (fun v : State => { v with meas := { v.meas with avg := (l.foldl (fun (s : State) k => s.modAvg k f) s).meas.avg } })
    (foldl_same (F := fun s : State => { s with meas := { s.meas with avg := [] } }) (step := fun (s : State) k => s.modAvg k f) (fun _ _ => rfl) l s)

end

/-! MEAS_RUN. -/

/-- The first averager that a MEAS_RUN names (R345). -/
def measFirst (c : Current) : Nat := if par c 1 = 1 then 2048 + par c 2 else par c 2

/-- How many it names. -/
def measCount (c : Current) : Nat := if par c 1 = 1 then 1 else par c 3

theorem measKeys_eq (c : Current) : measKeys c = rangeFrom (measFirst c) (measCount c) := by
  unfold measKeys measFirst measCount
  split <;> rfl

theorem length_measKeys (c : Current) : (measKeys c).length = measCount c := by rw [measKeys_eq, length_rangeFrom]

theorem getD_measKeys {c : Current} {i : Nat} (h : i < measCount c) : (measKeys c).getD i 0 = measFirst c + i := by
  rw [measKeys_eq]
  simp [rangeFrom, List.getD_eq_getElem?_getD, h]

theorem measCount_pos {c : Current} (h : MeasNamed c) : 1 ≤ measCount c := by
  unfold measCount
  rcases h with ⟨h0, h1, -⟩ | ⟨h1, -⟩
  · rw [if_neg (by omega)]
    exact h1
  · rw [if_pos h1]

theorem measParams_pass {c : Current} (h : MeasNamed c) : ∀ x ∈ measParams c, x = none := by
  rcases h with ⟨h0, h1, hfit, hpath⟩ | ⟨h1, hbed, hslot⟩
  · refine pass_cons (needParam_pass _ (by simp [h0])) ?_
    rw [if_neg (by omega)]
    exact needLoops_pass h1 hfit hpath
  · refine pass_cons (needParam_pass _ (by simp [h1])) ?_
    rw [if_pos h1]
    exact pass_cons (needParam_pass _ (decide_eq_true hbed)) (pass_cons (needParam_pass _ (decide_eq_true hslot)) pass_nil)

/-- A run as MEAS_RUN START begins it. -/
def measStarted (c : Current) (st : BurstStart) (i : Nat) (a : Averager) : Averager :=
  { a with run := some { tag := c.tag.toNat + i, hdrRing := c.ring.toNat, ring := ringOf c (par c 18), start := st, raw := decide (par c 4 = 1), group := measKeys c, blocks := par32 c 5, gap := par32 c 7, decim := par c 9, n := par32 c 16, slot := if par c 1 = 1 then some (par c 3) else none, done := 0, skip := 0, win := none, units := 0, rawV := {}, rawI := {}, stopping := false } }

/-- A run that has been told to stop (R334). -/
def measStopping (a : Averager) : Averager := { a with run := a.run.map (fun r => { r with stopping := true }) }

theorem stopMeas_open {s : State} {k : Nat} {r : MeasRun} (hr : (s.avg k).run = some r) (hopen : r.win ≠ none ∨ r.rawV.first ≠ none ∨ r.rawI.first ≠ none) :
    stopMeas s k = s.modAvg k measStopping := by
  unfold stopMeas
  dsimp only
  rw [(avgIs_modMeasRun (avgIs_self s k) hr _).1]
  dsimp only
  rw [if_neg]
  · rfl
  · simp only [Option.isNone_iff_eq_none]
    rintro ⟨h0, h1, h2⟩
    rcases hopen with h | h | h
    · exact h h0
    · exact h h1
    · exact h h2

theorem stopMeas_idle {s : State} {k : Nat} {r : MeasRun} (hr : (s.avg k).run = some r) (hw : r.win = none) (hv : r.rawV.first = none) (hi : r.rawI.first = none)
    (hunits : r.units = 0) (hcv : r.rawV.credit = false) (hci : r.rawI.credit = false) :
    AvgEnds s k { s.avg k with run := none } r.tag r.hdrRing r.done (stopMeas s k) := by
  have hstop := avgIs_modMeasRun (avgIs_self s k) hr (fun r => { r with stopping := true })
  have heq : stopMeas s k = endMeasRun (modMeasRun s k (fun r => { r with stopping := true })) k 0 := by
    unfold stopMeas
    dsimp only
    rw [hstop.1]
    dsimp only
    rw [hw, hv, hi]
    rfl
  have hends := endMeasRun_ends (s := s) (p := s.fw.progress) (h := s.harv) hstop rfl hunits hcv hci
  rw [heq]
  exact hends

/-! LOCKIN_RUN. -/

theorem lockTwice_congr {s v : State} (h : v.lp = s.lp) (c : Current) (l : Nat) : lockTwice v c l = lockTwice s c l := by
  unfold lockTwice sineOn State.loop
  rw [h]

/-- A run as LOCKIN_RUN START begins it. -/
def lockStarted (c : Current) (s : State) (st : BurstStart) (i : Nat) (a : Averager) : Averager :=
  { a with lock := some { tag := c.tag.toNat + i, hdrRing := c.ring.toNat, ring := ringOf c (par c 16), start := st, group := loopRange c 1, ref := lockRef c (par c 1 + i), harmonic := par c 4, v := bit (par c 5) 0, i := bit (par c 5) 1, cycles := par32 c 6, blocks := par32 c 8, p := clog2 ((lockTwice s c (par c 1 + i)).getD 0) - 8, done := 0, phase := none, win := none, credit := false, ended := none, stopping := false } }

/-- A run that has been told to stop (R334). -/
def lockStopping (a : Averager) : Averager := { a with lock := a.lock.map (fun r => { r with stopping := true }) }

theorem stopLock_open {s : State} {k : Nat} {r : LockRun} (hr : (s.avg k).lock = some r) (hopen : r.win ≠ none ∨ r.ended ≠ none) :
    stopLock s k = s.modAvg k lockStopping := by
  unfold stopLock
  dsimp only
  rw [(avgIs_modLockRun (avgIs_self s k) hr _).1]
  dsimp only
  rw [if_neg]
  · rfl
  · simp only [Option.isNone_iff_eq_none]
    rintro ⟨h0, h1⟩
    rcases hopen with h | h
    · exact h h0
    · exact h h1

theorem stopLock_idle {s : State} {k : Nat} {r : LockRun} (hr : (s.avg k).lock = some r) (hw : r.win = none) (he : r.ended = none) (hcredit : r.credit = false) :
    AvgEnds s k { s.avg k with lock := none } r.tag r.hdrRing r.done (stopLock s k) := by
  have hstop := avgIs_modLockRun (avgIs_self s k) hr (fun r => { r with stopping := true })
  have heq : stopLock s k = endLockRun (modLockRun s k (fun r => { r with stopping := true })) k false 0 := by
    unfold stopLock
    dsimp only
    rw [hstop.1]
    dsimp only
    rw [hw, he]
    rfl
  have hends := endLockRun_ends (s := s) (p := s.fw.progress) (h := s.harv) hstop rfl hcredit
  rw [heq]
  exact hends

end Sys2Proof.Machine
end

section
/-! PROOFS. The obligation about measurement and lock-in runs (R326 to R334, R343 to R346). -/

set_option Elab.async false

namespace Sys2Proof.Machine

theorem avgEnds_answered {s u t : State} {k tag ring steps : Nat} {x : Averager} {c : Current} {st d : Nat} {ws : List Word} (hends : AvgEnds s k x tag ring steps u)
    (hans : Answered c st d ws u t) :
    ∃ e, u.avg k = x ∧ Ended e t ∧ e.tag = tag ∧ e.ring = ring ∧ e.status = 0 ∧ e.cause = 0 ∧ e.steps = steps ∧ (∀ j, j ≠ k → u.avg j = s.avg j) ∧
      u = { s with fw := { s.fw with progress := u.fw.progress }, meas := { s.meas with avg := u.meas.avg }, harv := u.harv,
                   flt := { s.flt with waiting := u.flt.waiting } } := by
  obtain ⟨e, hx, hended, htag, hring, hstatus, hcause, hsteps, hrest, heq⟩ := hends
  exact ⟨e, hx, ended_answered hans hended, htag, hring, hstatus, hcause, hsteps, hrest, heq⟩

theorem avgEnds_current {s u : State} {k tag ring steps : Nat} {x : Averager} (h : AvgEnds s k x tag ring steps u) : u.fw.current = s.fw.current := by
  obtain ⟨-, -, -, -, -, -, -, -, -, heq⟩ := h
  rw [heq]

/-! MEAS_CONFIG (R344). -/

theorem measConfig_writes {s : State} {c : Current} (h : Picked s 0x0500 c) (heven : par c 2 % 2 = 0) (hnamed : LoopsNamed c) (hlt : par c 2 < 16)
    (hsel : bit (par c 2) 1 = true ∨ bit (par c 2) 2 = true) (hn : 1 ≤ par32 c 3) (hmax : par32 c 3 ≤ 16777216)
    (hloops : ∀ l ∈ loopRange c 0, calHoldsConv s (loopBed l) = false ∧ bedActive s (loopBed l) = true) :
    ∃ u t, exec .measConfig s = .next t ∧ Answered c 0 0 [] u t ∧ u = { s with meas := { s.meas with avg := u.meas.avg } } ∧
      (∀ l ∈ loopRange c 0, u.avg l = { s.avg l with v := bit (par c 2) 1, i := bit (par c 2) 2, minmax := bit (par c 2) 3, n := par32 c 3 }) ∧
      (∀ k, k ∉ loopRange c 0 → u.avg k = s.avg k) := by
  obtain ⟨hone, hfit, hpath⟩ := hnamed
  have havg := foldl_modAvg_avg (fun a => { a with v := bit (par c 2) 1, i := bit (par c 2) 2, minmax := bit (par c 2) 3, n := par32 c 3 }) (loopRange c 0) s
    (nodup_rangeFrom _ _)
  have hparts := foldl_modAvg_parts (fun a => { a with v := bit (par c 2) 1, i := bit (par c 2) 2, minmax := bit (par c 2) 3, n := par32 c 3 }) (loopRange c 0) s
  obtain ⟨t, ht, hans⟩ : ∃ t, exec .measConfig s = .next t ∧ Answered c 0 0 [] ((loopRange c 0).foldl (fun (s : State) k => s.modAvg k
      (fun a => { a with v := bit (par c 2) 1, i := bit (par c 2) 2, minmax := bit (par c 2) 3, n := par32 c 3 })) s) t := by
    refine picked_ok (k := fun c => _) h ?_ rfl (firstBad_pass ?_) rfl ?_
    · have hbit : bit (par c 2) 0 = false := by simp [bit, heven]
      change (!bit (par c 2) 0) = true
      rw [hbit]
      rfl
    · refine pass_append (needLoops_pass hone hfit hpath) (pass_cons (needParam_pass _ ?_) (pass_cons (needParam_pass _ ?_)
        (pass_cons (needNoConv_pass fun l hl => (hloops l hl).1) (pass_cons (needActive_pass fun l hl => (hloops l hl).2) pass_nil))))
      · simpa [hlt] using hsel
      · simp [hn, hmax]
    · rw [hparts]
      exact h.1
  exact ⟨_, t, ht, hans, hparts, fun l hl => (havg l).trans (if_pos hl), fun k hk => (havg k).trans (if_neg hk)⟩

theorem measConfig_reads {s : State} {c : Current} (h : Picked s 0x0500 c) (hodd : par c 2 % 2 = 1) (hlt : par c 2 < 16) (hnamed : LoopsNamed c)
    (hone : par c 1 = 1) (hcal : calHoldsConv s (loopBed (par c 0)) = false) (hbed : bedActive s (loopBed (par c 0)) = true) :
    ∃ t, exec .measConfigRead s = .next t ∧ Answered c 0 0
      (w16 (flag 1 (s.avg (par c 0)).v + flag 2 (s.avg (par c 0)).i + flag 3 (s.avg (par c 0)).minmax) :: toWords 2 (s.avg (par c 0)).n) s t := by
  obtain ⟨h1, hfit, hpath⟩ := hnamed
  refine picked_ok (k := fun c => _) h ?_ rfl (firstBad_pass ?_) rfl h.1
  · change bit (par c 2) 0 = true
    simp [bit, hodd]
  · exact pass_append (needLoops_pass h1 hfit hpath) (pass_cons (needParam_pass _ (decide_eq_true hone)) (pass_cons (needParam_pass _ (decide_eq_true hlt))
      (pass_cons (needNoConv_pass (bed := loopBed) (ks := [par c 0]) (by simpa using hcal))
        (pass_cons (needActive_pass (bed := loopBed) (ks := [par c 0]) (by simpa using hbed)) pass_nil))))

/-! MEAS_RUN (R345). -/

theorem measRun_starts {s : State} {c : Current} (h : Picked s 0x0501 c) (haction : par c 0 = 0) (hnamed : MeasNamed c)
    (hkind : par c 4 ≤ 1) (hraw : par c 4 = 1 → par32 c 7 = 0 ∧ 1 ≤ par c 9) (hnoraw : par c 4 = 0 → par c 9 = 0) (hstart : StartFits c 10) (hflags : par c 15 < 8)
    (hmon : par c 1 = 1 → 1 ≤ par32 c 16 ∧ par32 c 16 ≤ 16777216) (hloop : par c 1 = 0 → par32 c 16 = 0)
    (hring : par c 18 = 0xFFFF ∨ (s.ring (par c 18)).state ≠ .free) (htags : TagsFree s c (measKeys c).length)
    (hkeys : ∀ k ∈ measKeys c, calHoldsConv s (keyBed k) = false ∧ bedActive s (keyBed k) = true ∧ avgBusy s k = false) :
    ∃ t, exec .measRunStart s = .next t ∧ Answered c 1 0
      (w16 (measKeys c).length :: toWords 4 (startTicks (startOf s c 10 (par c 15 % 4) ((par c 15).testBit 2))) ++ [c.tag])
      (startAvg (measStarted c (startOf s c 10 (par c 15 % 4) ((par c 15).testBit 2))) (measFirst c) (measCount c) c s) t := by
  refine startAvg_answers (l := measKeys c) (k := fun c => _) _ _ _ _ _ h (decide_eq_true haction) (measKeys_eq c) rfl (firstBad_pass ?_) rfl fun i v _ => ?_
  · refine pass_append (pass_append (pass_append (pass_append (pass_append (measParams_pass hnamed) (pass_cons (needParam_pass _ ?_) (pass_cons (needParam_pass _ ?_)
      (pass_cons (needParam_pass _ ?_) pass_nil)))) (needStart_pass hstart)) (pass_cons (needParam_pass _ ?_) (pass_cons (needParam_pass _ ?_)
      (pass_cons (needRing_of hring) (pass_cons (needLead_pass 4 hstart) pass_nil))))) (needTags_pass' htags)) (pass_cons (needNoConv_pass fun k hk => (hkeys k hk).1)
      (pass_cons (needActive_pass fun k hk => (hkeys k hk).2.1) (pass_cons (needAvg_pass fun k hk => (hkeys k hk).2.2) pass_nil)))
    · exact decide_eq_true hkind
    · rcases Decidable.em (par c 4 = 1) with h4 | h4
      · simp [(hraw h4).1]
      · simp [h4]
    · rcases Decidable.em (par c 4 = 1) with h4 | h4
      · simp [h4, (hraw h4).2]
      · simp [hnoraw (by omega), h4]
    · exact decide_eq_true hflags
    · rcases hnamed with ⟨h0, -⟩ | ⟨h1, -⟩
      · simp [h0, hloop h0]
      · simp [h1, hmon h1]
  · unfold startWork setAvg measStarted
    simp only [decide_eq_true_eq]
    rfl

theorem measRun_stops {s : State} {c : Current} (h : Picked s 0x0501 c) (haction : par c 0 = 1) (hnamed : MeasNamed c)
    (hkeys : ∀ k ∈ measKeys c, calHoldsConv s (keyBed k) = false ∧ bedActive s (keyBed k) = true ∧ ∃ r, (s.avg k).run = some r ∧
      r.slot = (if par c 1 = 1 then some (par c 3) else none)) {u : State} (hu : (measKeys c).foldl stopMeas s = u) (hcurrent : u.fw.current = s.fw.current) :
    ∃ t, exec .measRunStop s = .next t ∧ Answered c 0 0 [] u t := by
  refine picked_ok (k := fun c => _) h (decide_eq_true haction) rfl (firstBad_pass ?_) (by rw [hu]) (hcurrent.trans h.1)
  refine pass_append (measParams_pass hnamed) (pass_cons (needNoConv_pass fun k hk => (hkeys k hk).1) (pass_cons (needActive_pass fun k hk => (hkeys k hk).2.1)
    (pass_cons (firstOf_eq_none.2 fun k hk => ?_) pass_nil)))
  obtain ⟨r, hr, hslot⟩ := (hkeys k hk).2.2
  refine needState_of 12 ?_
  rw [measRuns, hr, Option.any_some, hslot]
  exact decide_eq_true rfl

/-! LOCKIN_RUN (R346). -/

theorem lockinRun_starts {s : State} {c : Current} (h : Picked s 0x0502 c) (haction : par c 0 = 0) (hone : 1 ≤ par c 2) (hfit : par c 1 + par c 2 ≤ 544)
    (hpath : 512 ≤ par c 1 ∨ par c 1 + par c 2 ≤ 512) (href : par c 3 = 0xFFFF ∨ (par c 3 < 544 ∧ ∀ l ∈ loopRange c 1, loopBed l = loopBed (par c 3)))
    (h1 : 1 ≤ par c 4) (h15 : par c 4 ≤ 15) (hq1 : 1 ≤ par c 5) (hq3 : par c 5 ≤ 3) (hcycles : 1 ≤ par32 c 6) (hstart : StartFits c 10) (hflags : par c 15 < 8)
    (hring : par c 16 = 0xFFFF ∨ (s.ring (par c 16)).state ≠ .free) (htags : TagsFree s c (par c 2))
    (hloops : ∀ l ∈ loopRange c 1, calHoldsConv s (loopBed l) = false ∧ bedActive s (loopBed l) = true ∧ avgBusy s l = false ∧
      (sineOn s (lockRef c l)).isSome = true ∧ ∃ n, lockTwice s c l = some n ∧ n ≤ 2 ^ 24) :
    ∃ t, exec .lockinRunStart s = .next t ∧ Answered c 1 0
      (w16 (loopRange c 1).length :: toWords 4 (startTicks (startOf s c 10 (par c 15 % 4) ((par c 15).testBit 2))) ++ [c.tag])
      (startAvg (lockStarted c s (startOf s c 10 (par c 15 % 4) ((par c 15).testBit 2))) (par c 1) (par c 2) c s) t := by
  have hlen : (loopRange c 1).length = par c 2 := length_rangeFrom _ _
  refine startAvg_answers (l := loopRange c 1) (k := fun c => _) _ _ _ _ _ h (decide_eq_true haction) rfl rfl (firstBad_pass ?_) rfl fun i v hv => ?_
  · refine pass_append (pass_append (pass_append (pass_append (pass_append (needLoops_pass hone hfit hpath) (pass_cons (needParam_pass _ ?_)
      (pass_cons (needParam_pass _ ?_) (pass_cons (needParam_pass _ ?_) (pass_cons (needParam_pass _ (decide_eq_true hcycles)) pass_nil))))) (needStart_pass hstart))
      (pass_cons (needParam_pass _ (decide_eq_true hflags)) (pass_cons (needRing_of hring) (pass_cons (needLead_pass 4 hstart)
        (pass_cons (firstOf_eq_none.2 fun l hl => ?_) pass_nil))))) (needTags_pass' (hlen ▸ htags)))
      (pass_cons (needNoConv_pass fun l hl => (hloops l hl).1) (pass_cons (needActive_pass fun l hl => (hloops l hl).2.1)
        (pass_cons (firstOf_eq_none.2 fun l hl => needState_of 14 (hloops l hl).2.2.2.1) (pass_cons (needAvg_pass fun l hl => (hloops l hl).2.2.1) pass_nil))))
    · simpa using href
    · simp [h1, h15]
    · simp [hq1, hq3]
    · obtain ⟨n, hn, hmax⟩ := (hloops l hl).2.2.2.2
      rw [hn, Option.any_some, decide_eq_true hmax]
      rfl
  · unfold startWork setAvg lockStarted
    rw [← lockTwice_congr hv]
    rfl

theorem lockinRun_stops {s : State} {c : Current} (h : Picked s 0x0502 c) (haction : par c 0 = 1) (hone : 1 ≤ par c 2) (hfit : par c 1 + par c 2 ≤ 544)
    (hpath : 512 ≤ par c 1 ∨ par c 1 + par c 2 ≤ 512)
    (hloops : ∀ l ∈ loopRange c 1, calHoldsConv s (loopBed l) = false ∧ bedActive s (loopBed l) = true ∧ ∃ r, (s.avg l).lock = some r)
    {u : State} (hu : (loopRange c 1).foldl stopLock s = u) (hcurrent : u.fw.current = s.fw.current) :
    ∃ t, exec .lockinRunStop s = .next t ∧ Answered c 0 0 [] u t := by
  refine picked_ok (k := fun c => _) h (decide_eq_true haction) rfl (firstBad_pass ?_) (by rw [hu]) (hcurrent.trans h.1)
  refine pass_append (needLoops_pass hone hfit hpath) (pass_cons (needNoConv_pass fun l hl => (hloops l hl).1) (pass_cons (needActive_pass fun l hl => (hloops l hl).2.1)
    (pass_cons (firstOf_eq_none.2 fun l hl => ?_) pass_nil)))
  obtain ⟨r, hr⟩ := (hloops l hl).2.2
  exact needState_of 12 (by rw [hr]; rfl)

/-! Windows and records that have met their end. -/

theorem exec_measWindowEnd {a : AvgId} {s : State} {r : MeasRun} {w : Window} (hr : (s.avg (avgKey a)).run = some r) (hw : r.win = some w) (hfull : w.size ≤ w.n) :
    exec (.measWindowEnd a) s = .next (endMeasWindow s (avgKey a) false) := by
  refine congrArg Host.Outcome.next ?_
  rw [hr]
  dsimp only
  rw [hw, Option.any_some, if_pos (decide_eq_true hfull)]

theorem exec_rawRecordClose {a : AvgId} {ch : Fin 2} {s : State} {r : MeasRun} (hr : (s.avg (avgKey a)).run = some r)
    (hfull : (if ch.val = 0 then r.rawV else r.rawI).full = true) : exec (.rawRecordClose a ch) s = .next (closeRaw s (avgKey a) (decide (ch.val = 0))) := by
  refine congrArg Host.Outcome.next ?_
  rw [hr]
  dsimp only
  rw [if_pos hfull]

theorem placeHeld_busy {s : State} {st r cap units tag typ flags time : Nat} {body : List Byte} (hring : (s.ring r).state ≠ .free)
    (hroom : stageRoom s st units = none) : placeHeld s st r cap units tag typ flags time body = (s.raise 0x15 0 st, false) := by
  rw [placeHeld, if_neg hring, hroom]

/-- A run whose record has been written holds no credit but the other channel's. -/
theorem rawDone_credits {volt : Bool} {b : RawBuf} {r : MeasRun} (hunits : r.units = 0) (hother : (if volt then r.rawI else r.rawV).credit = false) :
    (rawDone volt b r).units = 0 ∧ (rawDone volt b r).rawV.credit = false ∧ (rawDone volt b r).rawI.credit = false ∧ (rawDone volt b r).tag = r.tag ∧
      (rawDone volt b r).hdrRing = r.hdrRing := by
  cases volt
  · exact ⟨hunits, hother, rfl, rfl, rfl⟩
  · exact ⟨hunits, rfl, hother, rfl, rfl⟩

/-- Settles O33: starts under their tags, stops that wait or end, and windows and records with their credit. -/
theorem measurementRuns : Obligations.MeasurementRuns := by
  unfold Obligations.MeasurementRuns
  refine ⟨?config, ?read, ?start, ?stop, ?stopIdle, ?noRun, ?lockStart, ?lockStop, ?lockIdle, ?window, ?lastWindow, ?staging, ?noWindow, ?record, ?gap, ?noRecord,
    ?lockWindow, ?noLock⟩
  case config => exact fun s c h heven hnamed hlt hsel hn hmax hloops => measConfig_writes h heven hnamed hlt hsel hn hmax hloops
  case read => exact fun s c h hodd hlt hnamed hone hcal hbed => measConfig_reads h hodd hlt hnamed hone hcal hbed
  case start =>
    intro s c h haction hnamed hkind hraw hnoraw hstart hflags hmon hloop hring htags hkeys
    obtain ⟨t, ht, hans⟩ := measRun_starts h haction hnamed hkind (fun h4 => hraw h4) hnoraw hstart hflags (fun h1 => hmon h1) hloop hring htags hkeys
    obtain ⟨hin, hout⟩ := startAvg_avg (measStarted c (startOf s c 10 (par c 15 % 4) ((par c 15).testBit 2))) (measFirst c) (measCount c) c s
    have hprog := startAvg_prog (measStarted c (startOf s c 10 (par c 15 % 4) ((par c 15).testBit 2))) (measFirst c) (measCount c) c s (measCount_pos hnamed)
    have hop : c.opcode = 0x0501 := BitVec.eq_of_toNat_eq h.2.1
    rw [hop] at hprog
    refine ⟨_, t, _, ht, startOf_asked c s 10 _ _, hans, fun i hi => ?_, fun k hk => hout k (measKeys_eq c ▸ hk), fun k hk => (hprog k).trans (if_neg ?_),
      startAvg_parts ..⟩
    · rw [length_measKeys] at hi
      rw [getD_measKeys hi]
      exact ⟨hin i hi, (hprog _).trans (if_pos (by omega))⟩
    · rw [length_measKeys] at hk
      omega
  case stop =>
    intro s c h haction hnamed hkeys
    have hfold : (measKeys c).foldl stopMeas s = (measKeys c).foldl (fun (s : State) k => s.modAvg k measStopping) s :=
      foldl_keyed_congr (get := State.avg) (P := fun a => ∃ r, a.run = some r ∧ (r.win ≠ none ∨ r.rawV.first ≠ none ∨ r.rawI.first ≠ none))
        (fun s k ⟨r, hr, hopen⟩ => stopMeas_open hr hopen) (fun s k j hj => by rw [State.modAvg_avg, if_neg hj]) (measKeys_eq c ▸ nodup_rangeFrom _ _)
        fun k hk => by
          obtain ⟨-, -, r, hr, -, hopen⟩ := hkeys k hk
          exact ⟨r, hr, hopen⟩
    have havg := foldl_modAvg_avg measStopping (measKeys c) s (measKeys_eq c ▸ nodup_rangeFrom _ _)
    have hparts := foldl_modAvg_parts measStopping (measKeys c) s
    obtain ⟨t, ht, hans⟩ := measRun_stops h haction hnamed (fun k hk => by
      obtain ⟨hcal, hbed, r, hr, hslot, -⟩ := hkeys k hk
      exact ⟨hcal, hbed, r, hr, hslot⟩) hfold (by rw [hparts])
    refine ⟨_, t, ht, hans, hparts, fun k hk r hr => ?_, fun k hk => (havg k).trans (if_neg hk)⟩
    rw [havg, if_pos hk, measStopping, hr]
    rfl
  case stopIdle =>
    intro s c k r h haction hnamed hkeys hcal hbed hr hslot hw hv hi hunits hcv hci
    have hends := stopMeas_idle hr hw hv hi hunits hcv hci
    obtain ⟨t, ht, hans⟩ := measRun_stops h haction hnamed (fun j hj => by
      rw [hkeys, List.mem_singleton] at hj
      subst hj
      exact ⟨hcal, hbed, r, hr, hslot⟩) (by rw [hkeys]; rfl) (avgEnds_current hends)
    obtain ⟨e, hend⟩ := avgEnds_answered hends hans
    exact ⟨_, t, e, ht, hans, hend⟩
  case noRun =>
    intro s c h haction hnamed hkeys hnone
    obtain ⟨k, hk, hr⟩ := hnone
    refine picked_bad (k := fun c => _) h (decide_eq_true haction) rfl ?_
    rw [firstBad_append (measParams_pass hnamed), needNoConv_pass fun k hk => (hkeys k hk).1, needActive_pass fun k hk => (hkeys k hk).2,
      firstOf_of_mem (b := (0x13, 12)) hk (by rw [measRuns, hr]; rfl) (fun y _ => by cases measRuns s c y <;> simp)]
    rfl
  case lockStart =>
    intro s c h haction hone hfit hpath href h1 h15 hq1 hq3 hcycles hstart hflags hring htags hloops
    obtain ⟨t, ht, hans⟩ := lockinRun_starts h haction hone hfit hpath href h1 h15 hq1 hq3 hcycles hstart hflags hring htags hloops
    obtain ⟨hin, hout⟩ := startAvg_avg (lockStarted c s (startOf s c 10 (par c 15 % 4) ((par c 15).testBit 2))) (par c 1) (par c 2) c s
    have hprog := startAvg_prog (lockStarted c s (startOf s c 10 (par c 15 % 4) ((par c 15).testBit 2))) (par c 1) (par c 2) c s hone
    have hop : c.opcode = 0x0502 := BitVec.eq_of_toNat_eq h.2.1
    have hlen : (loopRange c 1).length = par c 2 := length_rangeFrom _ _
    rw [hop] at hprog
    rw [hlen] at hans
    exact ⟨_, t, _, ht, startOf_asked c s 10 _ _, hans, fun i hi => ⟨hin i hi, (hprog _).trans (if_pos (by omega))⟩, hout,
      fun k hk => (hprog k).trans (if_neg (by omega)), startAvg_parts ..⟩
  case lockStop =>
    intro s c h haction hone hfit hpath hloops
    have hfold : (loopRange c 1).foldl stopLock s = (loopRange c 1).foldl (fun (s : State) k => s.modAvg k lockStopping) s :=
      foldl_keyed_congr (get := State.avg) (P := fun a => ∃ r, a.lock = some r ∧ (r.win ≠ none ∨ r.ended ≠ none))
        (fun s k ⟨r, hr, hopen⟩ => stopLock_open hr hopen) (fun s k j hj => by rw [State.modAvg_avg, if_neg hj]) (nodup_rangeFrom _ _)
        fun l hl => (hloops l hl).2.2
    have havg := foldl_modAvg_avg lockStopping (loopRange c 1) s (nodup_rangeFrom _ _)
    have hparts := foldl_modAvg_parts lockStopping (loopRange c 1) s
    obtain ⟨t, ht, hans⟩ := lockinRun_stops h haction hone hfit hpath (fun l hl => by
      obtain ⟨hcal, hbed, r, hr, -⟩ := hloops l hl
      exact ⟨hcal, hbed, r, hr⟩) hfold (by rw [hparts])
    refine ⟨_, t, ht, hans, hparts, fun l hl r hr => ?_, fun k hk => (havg k).trans (if_neg hk)⟩
    rw [havg, if_pos hl, lockStopping, hr]
    rfl
  case lockIdle =>
    intro s c r h haction hone hlt hcal hbed hr hw he hcredit
    have hends := stopLock_idle hr hw he hcredit
    have hloops : loopRange c 1 = [par c 1] := by
      unfold loopRange
      rw [hone]
      rfl
    obtain ⟨t, ht, hans⟩ := lockinRun_stops h haction (by omega) (by omega) (by omega) (fun l hl => by
      rw [hloops, List.mem_singleton] at hl
      subst hl
      exact ⟨hcal, hbed, r, hr⟩) (by rw [hloops]; rfl) (avgEnds_current hends)
    obtain ⟨e, hend⟩ := avgEnds_answered hends hans
    exact ⟨_, t, e, ht, hans, hend⟩
  case window =>
    intro a s k r w hk hr hw hfull hroom hstop hlast
    subst hk
    obtain ⟨h, t, havg, hend⟩ := endMeasWindow_done hr hw hroom
    rw [if_neg (by simp [hstop, hlast])] at hend
    exact ⟨_, (exec_measWindowEnd hr hw hfull).trans (congrArg _ hend), avgSteps_modProg havg⟩
  case lastWindow =>
    intro a s k r w hk hr hw hfull hroom hcv hci hlast
    subst hk
    obtain ⟨h, t, havg, hend⟩ := endMeasWindow_done hr hw hroom
    rw [if_pos hlast] at hend
    obtain ⟨e, hends⟩ := endMeasRun_ends (avgIs_modProg (tag := r.tag) (steps := r.done + 1) havg) rfl rfl hcv hci
    exact ⟨_, e, (exec_measWindowEnd hr hw hfull).trans (congrArg _ hend), hends⟩
  case staging =>
    intro a s k r w hk hr hw hfull hunits hring hroom
    subst hk
    refine (exec_measWindowEnd hr hw hfull).trans (congrArg _ ?_)
    unfold endMeasWindow
    rw [hr]
    dsimp only
    rw [hw]
    dsimp only
    rw [if_neg Bool.false_ne_true, if_neg hunits, placeHeld_busy hring hroom]
    rfl
  case noWindow =>
    intro a s hnot
    refine congrArg Host.Outcome.next ?_
    split
    next r hr =>
      rw [if_neg]
      rw [Option.any_eq_true]
      rintro ⟨w, hw, hfull⟩
      have := hnot r w hr hw
      have := of_decide_eq_true hfull
      omega
    next => rfl
  case record =>
    intro a ch s k r b o x hk hr hb ho hfull hf hlen hcredit hroom
    subst hk
    have hb' : (if decide (ch.val = 0) = true then r.rawV else r.rawI) = b := by simp [hb]
    have ho' : (if decide (ch.val = 0) = true then r.rawI else r.rawV) = o := by simp [ho]
    have hexec : exec (.rawRecordClose a ch) s = .next (closeRaw s (avgKey a) (decide (ch.val = 0))) := exec_rawRecordClose hr (hb ▸ hfull)
    obtain ⟨h, t, havg, hend⟩ := closeRaw_done hr hb' hf hlen hcredit hroom
    rw [ho'] at hend
    refine ⟨fun hlast hstop => ?_, fun hlast hunits hother => ?_⟩
    · rw [if_neg] at hend
      · obtain ⟨hx, hrest⟩ := avgSteps_modProg (tag := r.tag) (steps := r.done + 1) havg
        refine ⟨_, hexec.trans (congrArg _ hend), hx.trans ?_, hrest⟩
        rcases Decidable.em (ch.val = 0) with h0 | h0 <;> simp [h0, rawDone, withRaw]
      · rintro (⟨hs, hn⟩ | h)
        · rcases hstop with hno | hsome
          · rw [hno] at hs
            exact Bool.false_ne_true hs
          · exact hsome (Option.isNone_iff_eq_none.1 hn)
        · exact hlast h
    · rw [if_pos] at hend
      · have hdone := rawDone_credits (b := b) hunits (ho' ▸ hother)
        obtain ⟨e, hx, hended, htag, hring, hstatus, hcause, hsteps, hrest⟩ := endMeasRun_ends (avgIs_modProg (tag := r.tag) (steps := r.done + 1) havg) rfl
          hdone.1 hdone.2.1 hdone.2.2.1
        exact ⟨_, e, hexec.trans (congrArg _ hend), hx, hended, htag.trans hdone.2.2.2.1, hring.trans hdone.2.2.2.2, hstatus, hcause,
          hsteps.trans (rawDone_done _ _ _), hrest⟩
      · rcases hlast with h | ⟨hs, hn⟩
        · exact .inr h
        · exact .inl ⟨hs, by rw [hn]; rfl⟩
  case gap =>
    intro a s k r x hk hr hfull hf hcredit hdrops
    subst hk
    have hexec : exec (.rawRecordClose a 0) s = .next (closeRaw s (avgKey a) true) := exec_rawRecordClose (ch := 0) hr hfull
    rw [closeRaw_gap hr hf hcredit hdrops] at hexec
    exact ⟨_, hexec, avgIs_modMeasRun (avgIs_self s _) hr (fun q => { q with
      rawV := { gap := true, skipped := min 0xFFFFFFFF (min 0xFFFFFFFF (r.rawV.skipped + r.rawV.codes.length) + r.rawV.skipNext) } })⟩
  case noRecord =>
    intro a ch s hnot
    refine congrArg Host.Outcome.next ?_
    split
    next r hr => rw [hnot r hr, if_neg Bool.false_ne_true]
    next => rfl
  case lockWindow =>
    intro l s r w b hr hw hroom
    obtain ⟨h, t, havg, hend⟩ := endLockWindow_done (by omega) hr hw hroom
    refine ⟨fun hstop hlast => ?_, fun hlast hcredit => ?_⟩
    · rw [if_neg (by simp [hstop, hlast])] at hend
      exact ⟨_, congrArg Host.Outcome.next hend, avgSteps_modProg havg⟩
    · rw [if_pos hlast] at hend
      obtain ⟨e, hends⟩ := endLockRun_ends (avgIs_modProg (tag := r.tag) (steps := r.done + 1) havg) rfl hcredit
      exact ⟨_, e, congrArg Host.Outcome.next hend, hends⟩
  case noLock =>
    intro l s hnot
    refine congrArg Host.Outcome.next ?_
    unfold endLockWindow
    split
    · rfl
    next r hr => rw [hnot r hr]

end Sys2Proof.Machine
end

section
/-! PROOFS. RING_DESTROY reads the progress table by its entries, one of each key: an entry that the table lists behind another of
its tag is not seen, though the obligation's search of the list finds it. -/

set_option Elab.async false

namespace Sys2Proof.Machine

/-- RING_DESTROY of ring 3, just picked. -/
def ringDestroyPicked : Current := { mb := 0, opcode := 0x0801, tag := 0, flags := 0, ring := 0, params := [3], pick := 0, wait := .nothing, reply := [] }

/-- Work that runs with ring 3. -/
def runningOnRing : Progress := { state := .running, ring := 3 }

/-- Ring 3 is open and empty; tag 5 is done, and a second entry of tag 5 behind it runs with ring 3. -/
def shadowedWork : State :=
  { State.reset with
    fw := { State.reset.fw with current := some ringDestroyPicked, progress := [(5, { state := .done }), (5, runningOnRing)] }
    bus := { State.reset.bus with dramMib := 64 }
    harv := { State.reset.harv with ring := [(3, { state := .live })] } }

theorem ringDestroy_frees_ring : seen (fun t => (t.ring 3).state) (exec .ringDestroy shadowedWork) = some .free := by
  decide +kernel

/-- Refutes O39: RING_DESTROY frees the ring of work whose progress entry stands behind another of its tag, and does not answer
BAD_STATE. -/
theorem not_ringCommands : ¬ Obligations.RingCommands := by
  unfold Obligations.RingCommands
  rintro ⟨-, -, -, -, -, -, -, hbusy, -⟩
  obtain ⟨t, ht, heq, -⟩ := hbusy shadowedWork ringDestroyPicked (5, runningOnRing) ⟨rfl, rfl, rfl⟩ (by decide) (by decide) (by decide)
  have hring : (t.ring 3).state = .live := by rw [heq]; rfl
  have hseen := (seen_next (f := fun t => (t.ring 3).state) ht).symm.trans ringDestroy_frees_ring
  rw [hring] at hseen
  exact absurd hseen (by decide)

end Sys2Proof.Machine
end

section
/-! PROOFS. Levels: SET_LEVELS, LOAD_GROUP, and the loads that fall due (R113 to R117, R128 to R132, R145 to R148). -/

set_option Elab.async false

namespace Sys2Proof.Machine

/-! Pending shadows. -/

/-- A DAC with a pending shadow is listed. -/
theorem mem_dac_of_shadow {s : State} {k : Nat} {x : Nat × LoadAt} (h : (s.dacst k).shadow = some x) : (k, s.dacst k) ∈ tents s.pins.dac := by
  rw [mem_tents]
  unfold State.dacst tget at h ⊢
  cases hl : s.pins.dac.lookup k with
  | some d => rfl
  | none =>
    rw [hl] at h
    cases h

theorem mem_shadowsOf {s : State} {p : Nat → LoadAt → Bool} {e : Nat × Nat} :
    e ∈ shadowsOf s p ↔ ∃ t, (s.dacst e.1).shadow = some (e.2, t) ∧ p e.1 t = true := by
  unfold shadowsOf
  rw [List.mem_filterMap]
  constructor
  · rintro ⟨x, hx, hval⟩
    have hdac : s.dacst x.1 = x.2 := tget_of_mem_tents _ hx
    split at hval
    next v t hshadow =>
      split at hval
      next hp =>
        cases hval
        exact ⟨t, by rw [hdac, hshadow], hp⟩
      next => cases hval
    next => cases hval
  · rintro ⟨t, hshadow, hp⟩
    refine ⟨_, mem_dac_of_shadow hshadow, ?_⟩
    dsimp only
    rw [hshadow]
    dsimp only
    rw [if_pos hp]

theorem shadowsOf_nodup (s : State) (p : Nat → LoadAt → Bool) : ((shadowsOf s p).map (fun e => e.1)).Nodup := by
  have hkeys : ∀ l : List (Nat × Dac), ((l.filterMap (fun e => match e.2.shadow with
      | some (c, t) => if p e.1 t then some (e.1, c) else none
      | none => none)).map (fun e => e.1)).Sublist (l.map (fun e => e.1)) := fun l => by
    induction l with
    | nil => exact List.Sublist.refl _
    | cons x l ih =>
      rw [List.filterMap_cons, List.map_cons]
      split
      · exact ih.cons _
      next y hy =>
        have hfst : y.1 = x.1 := by
          split at hy
          · split at hy
            · cases hy
              rfl
            · cases hy
          · cases hy
        rw [List.map_cons, hfst]
        exact ih.cons_cons _
  exact (hkeys _).nodup (tents_nodup _)

/-! Steps on DACs, each on its own. -/

/-- Each pair changes the DAC that it names. -/
def dacFold (f : Nat × Nat → Dac → Dac) (l : List (Nat × Nat)) (s : State) : State := l.foldl (fun s e => s.modDacst e.1 (f e)) s

section
variable (f : Nat × Nat → Dac → Dac) (l : List (Nat × Nat)) (s : State)

theorem dacFold_parts : dacFold f l s = { s with pins := { s.pins with dac := (dacFold f l s).pins.dac } } :=
  congrArg (fun v : State => { v with pins := { v.pins with dac := (dacFold f l s).pins.dac } })
    (foldl_same (F := fun s : State => { s with pins := { s.pins with dac := [] } }) (step := fun s e => s.modDacst e.1 (f e)) (fun _ _ => rfl) l s)

theorem dacFold_dacst_ne {k : Nat} (hk : ∀ e ∈ l, e.1 ≠ k) : (dacFold f l s).dacst k = s.dacst k := by
  induction l generalizing s with
  | nil => rfl
  | cons e l ih =>
    change (dacFold f l (s.modDacst e.1 (f e))).dacst k = _
    rw [ih _ fun x hx => hk x (List.mem_cons_of_mem _ hx), State.modDacst_dacst, if_neg (hk e List.mem_cons_self).symm]

theorem dacFold_dacst (hl : (l.map (fun e => e.1)).Nodup) : ∀ e ∈ l, (dacFold f l s).dacst e.1 = f e (s.dacst e.1) := by
  induction l generalizing s with
  | nil => exact fun e he => nomatch he
  | cons x l ih =>
    rw [List.map_cons, List.nodup_cons] at hl
    obtain ⟨hx, hl⟩ := hl
    intro e he
    change (dacFold f l (s.modDacst x.1 (f x))).dacst e.1 = _
    rcases List.mem_cons.1 he with rfl | he
    · rw [dacFold_dacst_ne _ _ _ fun y hy heq => hx (List.mem_map.2 ⟨y, hy, heq⟩), State.modDacst_dacst, if_pos rfl]
    · rw [ih _ hl e he, State.modDacst_dacst, if_neg fun heq => hx (List.mem_map.2 ⟨e, he, heq⟩)]

end

/-- The state without its DACs: what the loads of others leave alone. -/
def withoutDacs (s : State) : State := { s with pins := { s.pins with dac := [] } }

theorem clk_of_withoutDacs {v s : State} (h : withoutDacs v = withoutDacs s) : v.clk = s.clk := congrArg (fun x => x.clk) h

theorem flt_of_withoutDacs {v s : State} (h : withoutDacs v = withoutDacs s) : v.flt = s.flt := congrArg (fun x => x.flt) h

theorem bedPow_of_withoutDacs {v s : State} (h : withoutDacs v = withoutDacs s) (b : Nat) : v.bedPow b = s.bedPow b := by
  unfold State.bedPow
  rw [clk_of_withoutDacs h]

/-- A DAC after the load of a code (R117, R128). -/
def dacLoad (s : State) (k code : Nat) (level : Option (BitVec 32)) (d : Dac) : Dac := { d with
  work := code, level := level, shadow := none, shadowLevel := none,
  changed := if !bedHeld s (dacBed k) && decide (d.work ≠ code) then s.now else d.changed }

theorem loadDac_eq (s : State) (k code : Nat) (level : Option (BitVec 32)) : loadDac s k code level = s.modDacst k (fun d =>
    { d with work := code, level := level, shadow := none, shadowLevel := none,
             changed := if !bedHeld s (dacBed k) && decide ((s.dacst k).work ≠ code) then s.now else d.changed }) := rfl

theorem modDacst_congr {s : State} {k : Nat} {f g : Dac → Dac} (h : f (s.dacst k) = g (s.dacst k)) : s.modDacst k f = s.modDacst k g := by
  unfold State.modDacst tmod
  change ({ s with pins := { s.pins with dac := tset _ _ k (f (s.dacst k)) } } : State) = { s with pins := { s.pins with dac := tset _ _ k (g (s.dacst k)) } }
  rw [h]

theorem loadDac_modDacst (s : State) (k code : Nat) (level : Option (BitVec 32)) : loadDac s k code level = s.modDacst k (dacLoad s k code level) :=
  modDacst_congr rfl

theorem dacLoad_congr {v s : State} (h : withoutDacs v = withoutDacs s) (k code : Nat) (level : Option (BitVec 32)) : dacLoad v k code level = dacLoad s k code level := by
  have hheld : bedHeld v (dacBed k) = bedHeld s (dacBed k) := by
    unfold bedHeld State.bedc
    rw [flt_of_withoutDacs h]
  have hnow : v.now = s.now := congrArg Clock.time (clk_of_withoutDacs h)
  unfold dacLoad
  rw [hheld, hnow]

/-! Loads that fall due (R129, R131, R132). -/

/-- A DAC whose shadow falls due. -/
def dacDue (s : State) (e : Nat × Nat) (d : Dac) : Dac :=
  if s.bedPow (dacBed e.1) = .idle then { d with shadow := some (e.2, .held) } else dacLoad s e.1 e.2 d.shadowLevel d

theorem loadDue_eq (s : State) (l : List (Nat × Nat)) : loadDue s l = dacFold (dacDue s) l s := by
  refine foldl_congr_same (F := withoutDacs) (g := fun s' e => s'.modDacst e.1 (dacDue s e)) (fun _ _ => rfl) fun v e hv => ?_
  have hidle : v.bedPow (dacBed e.1) = s.bedPow (dacBed e.1) := bedPow_of_withoutDacs hv _
  have hdue : dacDue v e = dacDue s e := by
    funext d
    unfold dacDue
    rw [hidle, dacLoad_congr hv]
  rw [← hdue]
  unfold dacDue
  split
  · rfl
  · rw [loadDac_modDacst]
    exact modDacst_congr rfl

theorem loadDue_parts (s : State) (l : List (Nat × Nat)) : loadDue s l = { s with pins := { s.pins with dac := (loadDue s l).pins.dac } } := by
  rw [loadDue_eq]
  exact dacFold_parts ..

/-- A shadow that falls due loads, or is held in a bed in IDLE. -/
theorem loadDue_shadow {s : State} {p : Nat → LoadAt → Bool} {k v : Nat} {t : LoadAt} (h : (s.dacst k).shadow = some (v, t)) (hp : p k t = true) :
    (s.bedPow (dacBed k) ≠ .idle → ((loadDue s (shadowsOf s p)).dacst k).work = v ∧ ((loadDue s (shadowsOf s p)).dacst k).shadow = none) ∧
      (s.bedPow (dacBed k) = .idle → (loadDue s (shadowsOf s p)).dacst k = { s.dacst k with shadow := some (v, .held) }) := by
  have hdac : (loadDue s (shadowsOf s p)).dacst k = dacDue s (k, v) (s.dacst k) := by
    rw [loadDue_eq]
    exact dacFold_dacst _ _ _ (shadowsOf_nodup s p) (k, v) (mem_shadowsOf.2 ⟨t, h, hp⟩)
  rw [hdac]
  unfold dacDue
  refine ⟨fun hidle => ?_, fun hidle => if_pos hidle⟩
  rw [if_neg hidle]
  exact ⟨rfl, rfl⟩

/-- A DAC without such a shadow is left alone. -/
theorem loadDue_other {s : State} {p : Nat → LoadAt → Bool} {k : Nat} (h : ∀ v t, (s.dacst k).shadow = some (v, t) → p k t = false) :
    (loadDue s (shadowsOf s p)).dacst k = s.dacst k := by
  rw [loadDue_eq]
  refine dacFold_dacst_ne _ _ _ fun e he heq => ?_
  obtain ⟨t, hshadow, hp⟩ := mem_shadowsOf.1 he
  subst heq
  rw [h _ _ hshadow] at hp
  exact Bool.false_ne_true hp

/-! SET_LEVELS (R116, R128, R145, R146). -/

theorem mem_bedsOfPins {l : List Nat} {b : Nat} : b ∈ bedsOfPins l ↔ b < 16 ∧ ∃ p ∈ l, p / 32 = b := by
  simp [bedsOfPins]

/-- A SET_LEVELS writes each DAC once. -/
theorem levelTargets_nodup {pins : List Nat} (sel : Nat) (hpins : pins.Nodup) (hlt : ∀ p ∈ pins, p < 512) : ((levelTargets pins sel).map (fun e => e.1)).Nodup := by
  have hnodup : ∀ (n step base : Nat) (l : List Nat) (q : Nat → Bool), n ≤ step → l.Nodup →
      (((List.range n).filter q).flatMap (fun j => l.map (fun p => base + step * p + j))).Nodup := fun n step base l q hn hl => by
    refine List.nodup_flatMap.2 ⟨fun j hj => hl.map fun a b hab => ?_, (List.nodup_range.filter _).pairwise_of_forall_ne fun i hi j hj hij => ?_⟩
    · have hj' : j < n := List.mem_range.1 (List.mem_filter.1 hj).1
      exact Nat.eq_of_mul_eq_mul_left (show 0 < step by omega) (show step * a = step * b by omega)
    · have hi' : i < n := List.mem_range.1 (List.mem_filter.1 hi).1
      have hj' : j < n := List.mem_range.1 (List.mem_filter.1 hj).1
      refine List.disjoint_left.2 fun k hk hk' => ?_
      obtain ⟨a, -, rfl⟩ := List.mem_map.1 hk
      obtain ⟨b, -, hb⟩ := List.mem_map.1 hk'
      have hmod := congrArg (· % step) (show step * b + j = step * a + i by omega)
      simp only [Nat.mul_add_mod, Nat.mod_eq_of_lt (show i < step by omega), Nat.mod_eq_of_lt (show j < step by omega)] at hmod
      exact hij hmod.symm
  unfold levelTargets
  rw [List.map_append, List.map_flatMap, List.map_flatMap]
  refine List.nodup_append'.2 ⟨?_, ?_, List.disjoint_left.2 fun k hk hk' => ?_⟩
  · simpa [Function.comp_def] using hnodup 4 4 0 pins (bit sel) (by omega) hpins
  · simpa [Function.comp_def] using hnodup 3 3 2048 (bedsOfPins pins) (fun j => bit sel (4 + j)) (by omega) (List.nodup_range.filter _)
  · obtain ⟨i, hi, hk⟩ := List.mem_flatMap.1 hk
    obtain ⟨j, hj, hk'⟩ := List.mem_flatMap.1 hk'
    obtain ⟨e, he, rfl⟩ := List.mem_map.1 hk
    obtain ⟨p, hp, rfl⟩ := List.mem_map.1 he
    obtain ⟨e', he', heq⟩ := List.mem_map.1 hk'
    obtain ⟨b, hb, rfl⟩ := List.mem_map.1 he'
    have hi' : i < 4 := List.mem_range.1 (List.mem_filter.1 hi).1
    have := hlt p hp
    dsimp only at heq
    omega

theorem pinRange_lt {c : Current} (h : par c 0 + par c 1 ≤ 512) : ∀ p ∈ pinRange c, p < 512 := fun p hp => by
  have := mem_rangeFrom.1 hp
  omega

theorem levelTargets_head {c : Current} (hone : 1 ≤ par c 1) (hfit : par c 0 + par c 1 ≤ 512) (hsel : 0 < par c 2) (hlt : par c 2 < 128) :
    ∃ e, (levelTargets (pinRange c) (par c 2)).head? = some e := by
  suffices hne : levelTargets (pinRange c) (par c 2) ≠ [] by
    obtain ⟨e, l, hl⟩ := List.exists_cons_of_ne_nil hne
    exact ⟨e, by rw [hl]; rfl⟩
  have hpin : par c 0 ∈ pinRange c := mem_rangeFrom.2 (by omega)
  obtain ⟨j, hj⟩ := Nat.exists_testBit_of_ne_zero (show par c 2 ≠ 0 by omega)
  have hj7 : j < 7 := by
    by_contra hge
    rw [Nat.testBit_lt_two_pow (lt_of_lt_of_le hlt (show 2 ^ 7 ≤ 2 ^ j from Nat.pow_le_pow_right (by omega) (by omega)))] at hj
    exact Bool.false_ne_true hj
  intro hnil
  obtain ⟨hpins, hbeds⟩ := List.append_eq_nil_iff.1 hnil
  rcases Nat.lt_or_ge j 4 with h4 | h4
  · have hmem : (4 * par c 0 + j, 9 + 2 * j) ∈ ((List.range 4).filter (bit (par c 2))).flatMap (fun j => (pinRange c).map (fun p => (4 * p + j, 9 + 2 * j))) :=
      List.mem_flatMap.2 ⟨j, List.mem_filter.2 ⟨List.mem_range.2 h4, hj⟩, List.mem_map.2 ⟨_, hpin, rfl⟩⟩
    rw [hpins] at hmem
    exact nomatch hmem
  · have hmem : (2048 + 3 * (par c 0 / 32) + (j - 4), 17 + 2 * (j - 4)) ∈ ((List.range 3).filter (fun j => bit (par c 2) (4 + j))).flatMap
        (fun j => (bedsOfPins (pinRange c)).map (fun b => (2048 + 3 * b + j, 17 + 2 * j))) := by
      refine List.mem_flatMap.2 ⟨j - 4, List.mem_filter.2 ⟨List.mem_range.2 (by omega), ?_⟩, List.mem_map.2 ⟨_, mem_bedsOfPins.2 ⟨by omega, _, hpin, rfl⟩, rfl⟩⟩
      rw [show 4 + (j - 4) = j by omega]
      exact hj
    rw [hbeds] at hmem
    exact nomatch hmem

/-- A DAC as SET_LEVELS leaves it: loaded, or with its shadow pending. -/
def dacSet (s : State) (c : Current) (e : Nat × Nat) (d : Dac) : Dac :=
  match loadOf s c e.1 with
  | none => dacLoad s e.1 (dacCode s e.1 (parF c e.2)) (some (parF c e.2)) d
  | some l => { d with shadow := some (dacCode s e.1 (parF c e.2), l), shadowLevel := some (parF c e.2) }

theorem loadOf_congr {v s : State} (h : withoutDacs v = withoutDacs s) (c : Current) (k : Nat) : loadOf v c k = loadOf s c k := by
  unfold loadOf
  rw [bedPow_of_withoutDacs h]

theorem dacCode_congr {v s : State} (h : withoutDacs v = withoutDacs s) (k : Nat) (x : BitVec 32) : dacCode v k x = dacCode s k x := by
  have hcal : v.cal = s.cal := congrArg (fun y => y.cal) h
  unfold dacCode calGain calOffset calNum calByte
  rw [hcal]

/-- The words that SET_LEVELS asks of its command, its voltages among them. -/
def levelWords (c : Current) : List (Option Bad) :=
  needPins c ++
    [needParam (decide (0 < par c 2) && decide (par c 2 < 128)) 2, needParam (decide (par c 3 ≤ 2)) 3,
     needParam (if par c 3 = 1 then decide (par c 4 < 8) else decide (par c 4 = 0)) 4, if par c 3 = 2 then none else needZero c 5 4] ++
    ((List.range 7).filter (bit (par c 2))).map (fun j => needParam (dacInRange (if j < 4 then j else 2048 + (j - 4)) (parF c (9 + 2 * j))) (9 + 2 * j))

/-- What SET_LEVELS asks of the state. -/
def levelChecks (s : State) (c : Current) : List (Option Bad) :=
  [if levelsLegal (par c 2) (pinRange c) (fun k => levelAfter s c (loadedBy (loadOf s c k)) k) && levelsLegal (par c 2) (pinRange c) (levelAfter s c (fun _ => true)) then none
    else some (0x12, 0x8001),
   if par c 3 = 1 ∧ ((s.grp (par c 4)).mask = 0 ∨ ((levelTargets (pinRange c) (par c 2)).any (fun e => !(s.grp (par c 4)).mask.getLsbD (dacBed e.1)) = true)) then
     some (0x12, 0x8003) else none,
   if par c 3 = 2 then needLead c (par64 c 5) 4 else none,
   if par c 3 = 2 then needTimeSlot s ((levelTargets (pinRange c) (par c 2)).map (fun e => e.1)) (epochOf (par64 c 5)) else none]

theorem levelWords_pass {c : Current} (hone : 1 ≤ par c 1) (hfit : par c 0 + par c 1 ≤ 512) (hsel : 0 < par c 2) (hlt : par c 2 < 128) (hmode : par c 3 ≤ 2)
    (hgroup : (if par c 3 = 1 then decide (par c 4 < 8) else decide (par c 4 = 0)) = true) (hzero : (if par c 3 = 2 then none else needZero c 5 4) = none)
    (hvolts : ∀ j, j < 7 → (par c 2).testBit j = true → dacInRange (if j < 4 then j else 2048 + (j - 4)) (parF c (9 + 2 * j)) = true) :
    ∀ x ∈ levelWords c, x = none := by
  refine pass_append (pass_append (pass_cons (needParam_pass _ (by simp [hone, hfit])) pass_nil) (pass_cons (needParam_pass _ (by simp [hsel, hlt]))
    (pass_cons (needParam_pass _ (decide_eq_true hmode)) (pass_cons (needParam_pass _ hgroup) (pass_cons hzero pass_nil))))) fun x hx => ?_
  obtain ⟨j, hj, rfl⟩ := List.mem_map.1 hx
  obtain ⟨hj7, hbit⟩ := List.mem_filter.1 hj
  exact needParam_pass _ (hvolts j (List.mem_range.1 hj7) hbit)

theorem exec_setLevels {s : State} {c : Current} (h : Picked s 0x0101 c) (hwords : ∀ x ∈ levelWords c, x = none) (hchecks : firstBad (levelChecks s c) = none)
    {e : Nat × Nat} (hhead : (levelTargets (pinRange c) (par c 2)).head? = some e) :
    ∃ t, exec .setLevels s = .next t ∧ Answered c 0 0 [w16 (levelTargets (pinRange c) (par c 2)).length, w16 (dacCode s e.1 (parF c e.2))]
      (dacFold (dacSet s c) (levelTargets (pinRange c) (par c 2)) s) t := by
  have hfold : (levelTargets (pinRange c) (par c 2)).foldl (fun s e =>
      match loadOf s c e.1 with
      | none => loadDac s e.1 (dacCode s e.1 (parF c e.2)) (some (parF c e.2))
      | some l => s.modDacst e.1 (fun d => { d with shadow := some (dacCode s e.1 (parF c e.2), l), shadowLevel := some (parF c e.2) })) s =
      dacFold (dacSet s c) (levelTargets (pinRange c) (par c 2)) s := by
    refine foldl_congr_same (F := withoutDacs) (g := fun v e => v.modDacst e.1 (dacSet s c e)) (fun _ _ => rfl) fun v e hv => ?_
    have hset : dacSet v c e = dacSet s c e := by
      funext d
      unfold dacSet
      rw [loadOf_congr hv, dacCode_congr hv, dacLoad_congr hv]
    rw [← hset]
    unfold dacSet
    cases loadOf v c e.1 with
    | none => exact loadDac_modDacst ..
    | some l => rfl
  refine picked_answers (k := fun c => _) h rfl ((checked_pass _ ((firstBad_append (m := levelChecks s c) hwords).trans hchecks)).trans ?_) ?_
  · rw [List.length_map, List.head?_map, hhead]
    exact congrArg (fun v => postOk v _) hfold
  · rw [dacFold_parts]
    exact h.1

/-- A SET_LEVELS that passes sets its DACs, and nothing else. -/
theorem setLevels_sets {s : State} {c : Current} (h : Picked s 0x0101 c) (hone : 1 ≤ par c 1) (hfit : par c 0 + par c 1 ≤ 512) (hsel : 0 < par c 2) (hlt : par c 2 < 128)
    (hwords : ∀ x ∈ levelWords c, x = none) (hchecks : firstBad (levelChecks s c) = none) :
    ∃ u t first, exec .setLevels s = .next t ∧ Answered c 0 0 [w16 (levelTargets (pinRange c) (par c 2)).length, w16 first] u t ∧
      u = { s with pins := { s.pins with dac := u.pins.dac } } ∧
      (∃ e, (levelTargets (pinRange c) (par c 2)).head? = some e ∧ first = dacCode s e.1 (parF c e.2)) ∧
      (∀ e ∈ levelTargets (pinRange c) (par c 2), u.dacst e.1 = dacSet s c e (s.dacst e.1)) ∧
      (∀ k, (∀ e ∈ levelTargets (pinRange c) (par c 2), e.1 ≠ k) → u.dacst k = s.dacst k) := by
  obtain ⟨e, hhead⟩ := levelTargets_head hone hfit hsel hlt
  obtain ⟨t, ht, hans⟩ := exec_setLevels h hwords hchecks hhead
  exact ⟨_, t, _, ht, hans, dacFold_parts .., ⟨e, hhead, rfl⟩,
    dacFold_dacst _ _ _ (levelTargets_nodup _ (nodup_rangeFrom _ _) (pinRange_lt hfit)), fun k hk => dacFold_dacst_ne _ _ _ hk⟩

theorem lookup_of_mem_nodup {l : List (Nat × Nat)} (hl : (l.map (fun e => e.1)).Nodup) {k w : Nat} (h : (k, w) ∈ l) : l.lookup k = some w := by
  induction l with
  | nil => exact nomatch h
  | cons x l ih =>
    rw [List.map_cons, List.nodup_cons] at hl
    obtain ⟨hx, hl⟩ := hl
    rcases List.mem_cons.1 h with rfl | h
    · simp
    · have hne : k ≠ x.1 := fun heq => hx (heq ▸ List.mem_map.2 ⟨_, h, rfl⟩)
      rw [List.lookup_cons, beq_false_of_ne hne]
      exact ih hl h

theorem needTimeSlot_pass {s : State} {l : List Nat} (t : Nat) (h : (pendingTimes s l).length < 16) : needTimeSlot s l t = none := by
  rw [needTimeSlot, decide_eq_true h, Bool.or_true]
  rfl

/-- Levels that R116 allows pass their check. -/
theorem levelsLegal_pass {s : State} {c : Current} (hload : levelsLegal (par c 2) (pinRange c) (fun k => levelAfter s c (loadedBy (loadOf s c k)) k) = true)
    (hall : levelsLegal (par c 2) (pinRange c) (levelAfter s c (fun _ => true)) = true) {l : List (Option Bad)} :
    firstBad ((if levelsLegal (par c 2) (pinRange c) (fun k => levelAfter s c (loadedBy (loadOf s c k)) k) &&
      levelsLegal (par c 2) (pinRange c) (levelAfter s c (fun _ => true)) then none else some (0x12, 0x8001)) :: l) = firstBad l := by
  rw [hload, hall]
  rfl

/-- Voltages of the pins' VOH and VOL in the wrong order are refused (R116). -/
theorem levelsLegal_order {s : State} {c : Current} (p : LoadAt → Bool) (hone : 1 ≤ par c 1) (hfit : par c 0 + par c 1 ≤ 512) (hsel : par c 2 % 16 = 12)
    (hlt : (f32 (parF c 13)).lt (f32 (parF c 15)) = true) : levelsLegal (par c 2) (pinRange c) (levelAfter s c p) = false := by
  have hbit : ∀ j, j < 4 → (par c 2).testBit j = (12).testBit j := fun j hj => by
    rw [← hsel, show (16 : Nat) = 2 ^ 4 by rfl, Nat.testBit_mod_two_pow, decide_eq_true hj, Bool.true_and]
  have hpin : par c 0 ∈ pinRange c := mem_rangeFrom.2 (by omega)
  have hlevel : ∀ j, j < 4 → (12).testBit j = true → levelAfter s c p (4 * par c 0 + j) = f32 (parF c (9 + 2 * j)) := fun j hj hset => by
    have hmem : (4 * par c 0 + j, 9 + 2 * j) ∈ levelTargets (pinRange c) (par c 2) :=
      List.mem_append_left _ (List.mem_flatMap.2 ⟨j, List.mem_filter.2 ⟨List.mem_range.2 hj, (hbit j hj).trans hset⟩, List.mem_map.2 ⟨_, hpin, rfl⟩⟩)
    have hnodup : ((levelTargets (pinRange c) (par c 2)).map (fun e => e.1)).Nodup := levelTargets_nodup _ (nodup_rangeFrom _ _) (pinRange_lt hfit)
    rw [levelAfter, lookup_of_mem_nodup hnodup hmem]
  have hle : (f32 (parF c 15)).le (f32 (parF c 13)) = false := by
    have := of_decide_eq_true hlt
    exact decide_eq_false (by omega)
  have hpins : (pinRange c).all (fun q => (levelAfter s c p (4 * q + 3)).le (levelAfter s c p (4 * q + 2))) = false :=
    List.all_eq_false.2 ⟨par c 0, hpin, by rw [hlevel 3 (by decide) rfl, hlevel 2 (by decide) rfl, hle]; decide⟩
  rw [levelsLegal, hpins, hsel]
  rfl

/-- A DAC whose shadow is given up (R148). -/
def dacCancelled (_ : Nat × Nat) (d : Dac) : Dac := { d with shadow := none, shadowLevel := none }

/-- Settles O20: a load of each DAC that a command or a due time names, on its own. -/
theorem levelLoads : Obligations.LevelLoads := by
  unfold Obligations.LevelLoads
  refine ⟨?now, ?group, ?epoch, ?order, ?define, ?strobe, ?scheduled, ?early, ?cancel, ?due, ?noStrobe, ?frame, ?shadow, ?other, ?noEpoch, ?epochDue⟩
  case now =>
    intro s c targets h hone hfit hsel hlt hmode hgroup hzero hvolts htargets hload hall
    subst htargets
    have hwords := levelWords_pass hone hfit hsel hlt (by omega) (by simp [hmode, hgroup]) (by rw [if_neg (by omega)]; exact needZero_of fun k hlo hhi => hzero k hlo (by omega)) hvolts
    have hchecks : firstBad (levelChecks s c) = none := by
      rw [levelChecks, levelsLegal_pass hload hall]
      simp [hmode]
    obtain ⟨u, t, first, ht, hans, hparts, hfirst, hin, hout⟩ := setLevels_sets h hone hfit hsel hlt hwords hchecks
    refine ⟨u, t, first, ht, hans, hparts, hfirst, fun e he hidle => ?_, fun e he hidle => ?_, hout⟩
    · have hof : loadOf s c e.1 = none := by simp [loadOf, hmode, hidle]
      rw [hin e he, dacSet, hof]
      rfl
    · have hof : loadOf s c e.1 = some .held := by simp [loadOf, hmode, hidle]
      rw [hin e he, dacSet, hof]
  case group =>
    intro s c targets h hone hfit hsel hlt hmode hgroup hzero hvolts htargets hload hall hmask hcover
    subst htargets
    have hwords := levelWords_pass hone hfit hsel hlt (by omega) (by simp [hmode, hgroup]) (by rw [if_neg (by omega)]; exact needZero_of fun k hlo hhi => hzero k hlo (by omega)) hvolts
    have hchecks : firstBad (levelChecks s c) = none := by
      have hin : (levelTargets (pinRange c) (par c 2)).any (fun e => !(s.grp (par c 4)).mask.getLsbD (dacBed e.1)) = false :=
        List.any_eq_false.2 fun e he => by rw [hcover e he]; decide
      rw [levelChecks, levelsLegal_pass hload hall, hin, if_neg fun h => h.2.elim hmask Bool.false_ne_true]
      simp [hmode]
    obtain ⟨u, t, first, ht, hans, hparts, hfirst, hin, hout⟩ := setLevels_sets h hone hfit hsel hlt hwords hchecks
    refine ⟨u, t, first, ht, hans, hparts, hfirst, fun e he => ?_, hout⟩
    have hof : loadOf s c e.1 = some (.group (par c 4)) := by simp [loadOf, hmode]
    rw [hin e he, dacSet, hof]
  case epoch =>
    intro s c targets h hone hfit hsel hlt hmode hgroup hlead hvolts htargets hload hall htimes
    subst htargets
    have hwords := levelWords_pass hone hfit hsel hlt (by omega) (by simp [hmode, hgroup]) (by rw [if_pos hmode]) hvolts
    have hchecks : firstBad (levelChecks s c) = none := by
      rw [levelChecks, levelsLegal_pass hload hall, if_neg (by omega), if_pos hmode, if_pos hmode, needLead, if_pos hlead, needTimeSlot_pass _ htimes]
      rfl
    obtain ⟨u, t, first, ht, hans, hparts, hfirst, hin, hout⟩ := setLevels_sets h hone hfit hsel hlt hwords hchecks
    obtain ⟨hlo, hhi, hmod⟩ := epochOf_bounds (par64 c 5)
    refine ⟨u, t, first, epochOf (par64 c 5), ht, hans, hparts, hfirst, hlo, hhi, hmod, fun e he => ?_, hout⟩
    have hof : loadOf s c e.1 = some (.epoch (epochOf (par64 c 5))) := by simp [loadOf, hmode]
    rw [hin e he, dacSet, hof]
  case order =>
    intro s c h hone hfit hsel hlt hmode hgroup hzero hvolts hbits hvoh
    have hwords := levelWords_pass hone hfit hsel hlt (by omega) (by simp [hmode, hgroup]) (by rw [if_neg (by omega)]; exact needZero_of fun k hlo hhi => hzero k hlo (by omega)) hvolts
    refine picked_bad (k := fun c => _) h rfl rfl ((firstBad_append (m := levelChecks s c) hwords).trans ?_)
    rw [levelChecks, levelsLegal_order (s := s) (fun _ => true) hone hfit hbits hvoh, Bool.and_false]
    rfl
  case define =>
    intro s c h haction hg hzero hbeds
    refine picked_ok (k := fun c => _) h (decide_eq_true haction) rfl ?_ rfl h.1
    have hnone : shadowsOf s (fun k t => decide (t = .group (par c 1)) && !(w16 (par c 2)).getLsbD (dacBed k)) = [] := List.eq_nil_iff_forall_not_mem.2 fun e he => by
      obtain ⟨t, hshadow, hp⟩ := mem_shadowsOf.1 he
      rw [Bool.and_eq_true, decide_eq_true_eq] at hp
      obtain ⟨rfl, hout⟩ := hp
      have hbit := hbeds _ (mem_of_mem_tents (mem_dac_of_shadow hshadow)) _ hshadow
      have hword : (w16 (par c 2)).getLsbD (dacBed e.1) = (par c 2).testBit (dacBed e.1) := congrArg (fun w => BitVec.getLsbD w (dacBed e.1)) (w16_toNat (c.params.getD 2 0))
      rw [hword, hbit] at hout
      exact absurd hout (by decide)
    rw [hnone, needZero_of fun k hlo hhi => hzero k hlo (by omega)]
    simp [hg]
  case strobe =>
    intro s c h haction hg hzero
    refine picked_ok (k := fun c => _) h (decide_eq_true haction) rfl ?_ rfl ?_
    · rw [needZero_of fun k hlo hhi => hzero k hlo (by omega)]
      simp [hg]
    · rw [strobeGroup, loadDue_parts]
      exact h.1
  case scheduled =>
    intro s c h haction hg hzero hlead htimes
    obtain ⟨hlo, hhi, hmod⟩ := epochOf_bounds (par64 c 3)
    obtain ⟨t, ht, hans⟩ : ∃ t, exec .loadGroupStrobeAt s = .next t ∧
        Answered c 0 0 [] (s.modGrp (par c 1) (fun x => { x with strobe := some (epochOf (par64 c 3)) })) t := by
      refine picked_ok (k := fun c => _) h (decide_eq_true haction) rfl ?_ rfl h.1
      rw [needZero_of fun k hlo hhi => by rw [show k = 2 by omega]; exact hzero, needLead, if_pos hlead, needTimeSlot_pass _ htimes]
      simp [hg]
    exact ⟨t, _, ht, hlo, hhi, hmod, hans⟩
  case early =>
    intro s c h haction hg hzero hlead
    refine picked_bad (k := fun c => _) h (decide_eq_true haction) rfl ?_
    rw [needZero_of fun k hlo hhi => by rw [show k = 2 by omega]; exact hzero, needLead, if_neg (by omega)]
    simp [hg]
  case cancel =>
    intro s c h haction hg hzero
    have hcleared := dacFold_dacst dacCancelled _ s (shadowsOf_nodup s (fun _ a => decide (a = .group (par c 1))))
    have hkept := fun k => dacFold_dacst_ne dacCancelled (shadowsOf s (fun _ a => decide (a = .group (par c 1)))) s (k := k)
    have hparts := dacFold_parts dacCancelled (shadowsOf s (fun _ a => decide (a = .group (par c 1)))) s
    obtain ⟨t, ht, hans⟩ : ∃ t, exec .loadGroupCancel s = .next t ∧ Answered c 0 0 [w16 (shadowsOf s (fun _ a => decide (a = .group (par c 1)))).length]
        ((dacFold dacCancelled (shadowsOf s (fun _ a => decide (a = .group (par c 1)))) s).modGrp (par c 1)
          (fun x => { x with strobe := none })) t := by
      refine picked_ok (k := fun c => _) h (decide_eq_true haction) rfl ?_ rfl ?_
      · rw [needZero_of fun k hlo hhi => hzero k hlo (by omega)]
        simp [hg]
      · rw [hparts]
        exact h.1
    refine ⟨_, t, _, ht, hans, ?_, rfl, ?_, ?_, fun g hne => ?_, fun k v hshadow => ?_, fun k => ?_, fun _ k hnot => ?_⟩
    · rw [hparts]
      rfl
    · rw [State.modGrp_grp, if_pos rfl]
    · rw [State.modGrp_grp, if_pos rfl, hparts]
      rfl
    · rw [State.modGrp_grp, if_neg hne, hparts]
      rfl
    · have hdac : ((dacFold dacCancelled (shadowsOf s (fun _ a => decide (a = .group (par c 1)))) s).dacst k).shadow = some (v, .group (par c 1)) := hshadow
      by_cases hk : ∃ e ∈ shadowsOf s (fun _ a => decide (a = .group (par c 1))), e.1 = k
      · obtain ⟨e, he, rfl⟩ := hk
        rw [hcleared e he] at hdac
        cases hdac
      · rw [hkept k fun e he heq => hk ⟨e, he, heq⟩] at hdac
        exact hk ⟨(k, v), mem_shadowsOf.2 ⟨_, hdac, decide_eq_true rfl⟩, rfl⟩
    · change ((dacFold dacCancelled (shadowsOf s (fun _ a => decide (a = .group (par c 1)))) s).dacst k).work = _
      by_cases hk : ∃ e ∈ shadowsOf s (fun _ a => decide (a = .group (par c 1))), e.1 = k
      · obtain ⟨e, he, rfl⟩ := hk
        rw [hcleared e he]
        rfl
      · rw [hkept k fun e he heq => hk ⟨e, he, heq⟩]
    · refine hkept k fun e he heq => ?_
      obtain ⟨t, hshadow, ht⟩ := mem_shadowsOf.1 he
      rw [of_decide_eq_true ht, heq] at hshadow
      exact hnot _ hshadow
  case due =>
    intro g s d hd
    refine congrArg Host.Outcome.next ?_
    rw [hd]
  case noStrobe =>
    intro g s hnone
    refine congrArg Host.Outcome.next ?_
    rw [hnone]
  case frame => exact fun s g => loadDue_parts ..
  case shadow =>
    intro s g k v _ hshadow hmask
    exact loadDue_shadow hshadow (by rw [hmask]; simp)
  case other =>
    intro s g k _ hnot
    refine loadDue_other fun v t hshadow => ?_
    by_cases ht : t = .group g
    · subst ht
      rw [hnot v hshadow, Bool.and_false]
    · rw [decide_eq_false ht, Bool.false_and]
  case noEpoch =>
    intro a s hnot
    have hnone : shadowsOf s (fun _ b => decide (b = .epoch a)) = [] := List.eq_nil_iff_forall_not_mem.2 fun e he => by
      obtain ⟨t, hshadow, ht⟩ := mem_shadowsOf.1 he
      rw [of_decide_eq_true ht] at hshadow
      exact hnot _ (mem_of_mem_tents (mem_dac_of_shadow hshadow)) _ hshadow
    refine congrArg Host.Outcome.next ?_
    rw [hnone]
    rfl
  case epochDue =>
    intro a k v s _ hshadow
    have hmem : (k, v) ∈ shadowsOf s (fun _ b => decide (b = .epoch a)) := mem_shadowsOf.2 ⟨_, hshadow, decide_eq_true rfl⟩
    have hexec : exec (.epochLoadDue a) s = .next (loadDue (s.reach a) (shadowsOf (s.reach a) (fun _ b => decide (b = .epoch a)))) := by
      refine congrArg Host.Outcome.next (if_neg ?_)
      rw [List.isEmpty_iff]
      exact List.ne_nil_of_mem hmem
    obtain ⟨hload, hheld⟩ := loadDue_shadow (s := s.reach a) (p := fun _ b => decide (b = .epoch a)) hshadow (decide_eq_true rfl)
    refine ⟨_, hexec, by rw [loadDue_parts]; rfl, hload, hheld, fun j hj => ?_, loadDue_parts ..⟩
    exact loadDue_other (s := s.reach a) fun w t ht => decide_eq_false fun heq => hj w (heq ▸ ht)

end Sys2Proof.Machine
end

section
/-! PROOFS. DRV_OC_CLEARED reads the pins of its bed by the table's entries, one of each pin: an entry listed behind another of its
pin is not seen, though the obligation's clause reads the raw list. -/

set_option Elab.async false

namespace Sys2Proof.Machine

/-- Pin 1 is listed twice: its own entry, in a mode of its own and under its driver's limit, and another behind it, over its limit. -/
def shadowedPin : State :=
  { State.reset with pins := { State.reset.pins with pin := [(1, { mode := 1 }), (1, { overCurrent := true })] } }

theorem drvOcCleared_live : seen (fun t => (t.fblk 0).live.getLsbD 2) (exec (.drvOcCleared 0) shadowedPin) = some false := by
  decide +kernel

theorem drvOcCleared_pin : seen (fun t => t.pins.pin) (exec (.drvOcCleared 0) shadowedPin) = some shadowedPin.pins.pin := by
  decide +kernel

/-- Refutes O21: after DRV_OC_CLEARED of pin 0 DRV_OC is not live, though the list of pins holds an entry over its limit, behind
pin 1's own. -/
theorem not_pinModesAndConnections : ¬ Obligations.PinModesAndConnections := by
  unfold Obligations.PinModesAndConnections
  rintro ⟨-, -, -, -, -, -, -, -, -, hcleared⟩
  obtain ⟨t, ht, -, -, -, -, -, hlive, -⟩ := hcleared 0 shadowedPin
  have hpin : t.pins.pin = shadowedPin.pins.pin :=
    Option.some.inj ((seen_next (f := fun t => t.pins.pin) ht).symm.trans drvOcCleared_pin)
  have hoff : (t.fblk 0).live.getLsbD 2 = false :=
    Option.some.inj ((seen_next (f := fun t => (t.fblk 0).live.getLsbD 2) ht).symm.trans drvOcCleared_live)
  have hon : (t.fblk 0).live.getLsbD 2 = true :=
    hlive.2 ⟨(1, { overCurrent := true }), by rw [hpin]; exact List.mem_cons_of_mem _ List.mem_cons_self, rfl, rfl⟩
  rw [hoff] at hon
  exact Bool.false_ne_true hon

end Sys2Proof.Machine
end

section
/-! PROOFS. SET_POWER_IDLE with STEM = 0 takes the stem out of IDLE, and the streamer goes on with a fetch that waits (R198). -/

set_option Elab.async false

namespace Sys2Proof.Machine

/-- SET_POWER_STATE IDLE that names no bed, with STEM = 0, just picked. -/
def powerIdlePicked : Current := { mb := 0, opcode := 0x0007, tag := 0, flags := 0, ring := 0, params := [1, 0, 0], pick := 0, wait := .nothing, reply := [] }

/-- The stem is in IDLE, and SEG_PIN's fetch of segment 3 waits. -/
def fetchWaiting : State :=
  { State.reset with
    clk := { State.reset.clk with stemIdle := true, dramSleep := true }
    fw := { State.reset.fw with current := some powerIdlePicked }
    pat := { State.reset.pat with segment := [(3, { registered := true, queued := true })] } }

theorem setPowerIdle_fetches : seen (fun t => t.pat.fetch) (exec .setPowerIdle fetchWaiting) = some (some 3) := by
  decide +kernel

/-- Refutes O18: SET_POWER_IDLE with STEM = 0 begins the fetch that waits, which changes the pattern sequencing's state. -/
theorem not_powerStateCommands : ¬ Obligations.PowerStateCommands := by
  unfold Obligations.PowerStateCommands
  rintro ⟨-, -, -, hidle, -⟩
  obtain ⟨t, ht, -, -, -, -, -, heq⟩ := hidle fetchWaiting powerIdlePicked ⟨rfl, rfl, rfl⟩ (by decide) (by decide)
    (fun b _ hb => by rw [show par powerIdlePicked 1 = 0 from rfl, Nat.zero_testBit] at hb; cases hb) (fun h => by cases h)
  have hfetch : t.pat.fetch = none := by rw [heq]; rfl
  have hseen := (seen_next (f := fun t => t.pat.fetch) ht).symm.trans setPowerIdle_fetches
  rw [hfetch] at hseen
  exact absurd hseen (by decide)

end Sys2Proof.Machine
end

section
/-! PROOFS. DUT clocks and the delay-locked loop (R154, R171 to R175, R181, R182). -/

set_option Elab.async false

namespace Sys2Proof.Machine

/-- A fold of steps that each change one key, and relate that key's value before and after by `R`. -/
theorem foldl_keyed_rel {α : Type} {get : State → Nat → α} {step : State → Nat → State} {R : Nat → α → α → Prop}
    (hstep : ∀ s k, R k (get s k) (get (step s k) k)) (hrest : ∀ s k j, j ≠ k → get (step s k) j = get s j) {l : List Nat} (hl : l.Nodup) (s : State) (j : Nat) :
    (j ∈ l → R j (get s j) (get (l.foldl step s) j)) ∧ (j ∉ l → get (l.foldl step s) j = get s j) := by
  induction l generalizing s with
  | nil => exact ⟨fun h => (nomatch h), fun _ => rfl⟩
  | cons k l ih =>
    obtain ⟨hk, hl⟩ := List.nodup_cons.1 hl
    obtain ⟨hin, hout⟩ := ih hl (step s k)
    rw [List.foldl_cons]
    refine ⟨fun hj => ?_, fun hj => ?_⟩
    · rcases List.mem_cons.1 hj with rfl | hj
      · rw [hout hk]
        exact hstep s j
      · have hne : j ≠ k := fun heq => hk (heq ▸ hj)
        rw [← hrest s k j hne]
        exact hin hj
    · obtain ⟨hne, hj⟩ := not_or.1 (mt List.mem_cons.2 hj)
      rw [hout hj, hrest s k j hne]

/-! The clock generators (R174, R182). -/

theorem le_afterTail (t : Int) (f : Option Int) : t ≤ afterTail t f := by
  cases f with
  | none => exact Int.le_refl t
  | some f => exact Int.le_max_left _ _

/-- A stopped generator has no open run. -/
theorem changeClock_stopped (g : ClockGen) (tc : Nat) : (changeClock g tc none).running = false ∧ (changeClock g tc none).change = none ∧
    ∀ r ∈ (changeClock g tc none).runs, r.stop.isSome = true := by
  refine ⟨rfl, rfl, fun r hr => ?_⟩
  obtain ⟨q, -, rfl⟩ := List.mem_map.1 (List.mem_filter.1 hr).1
  split
  · rfl
  next h => exact Option.isSome_iff_ne_none.2 fun hnone => h (by rw [hnone]; rfl)

/-- A running one has a run that is open, with its settings, from the change on. -/
theorem changeClock_running (g : ClockGen) (tc : Nat) (x : ClockSet) : (changeClock g tc (some x)).running = true ∧ (changeClock g tc (some x)).change = none ∧
    (changeClock g tc (some x)).set = x ∧ ∃ r ∈ (changeClock g tc (some x)).runs, r.set = x ∧ r.stop = none ∧ (256 * tc : Int) ≤ r.start :=
  ⟨rfl, rfl, rfl, _, List.mem_cons_self, rfl, rfl, le_afterTail _ _⟩

theorem modCkgen_parts (s : State) (k : Nat) (f : ClockGen → ClockGen) :
    s.modCkgen k f = { s with edge := { s.edge with clock := (s.modCkgen k f).edge.clock } } := rfl

theorem modCkgen_same (s : State) (k : Nat) (f : ClockGen → ClockGen) : (s.modCkgen k f).ckgen k = f (s.ckgen k) :=
  (State.modCkgen_ckgen ..).trans (if_pos rfl)

theorem modCkgen_ne (s : State) {k j : Nat} (f : ClockGen → ClockGen) (h : j ≠ k) : (s.modCkgen k f).ckgen j = s.ckgen j :=
  (State.modCkgen_ckgen ..).trans (if_neg h)

/-! CLOCK_OUT SET and STOP (R182). -/

theorem needWhen_now {c : Current} {i : Nat} (h : par c i = 0) (hzero : ∀ k, i + 1 ≤ k → k < i + 5 → par c k = 0) : ∀ x ∈ needWhen c i, x = none := by
  refine pass_cons (needParam_pass _ (by simp [h])) (pass_cons ?_ pass_nil)
  rw [if_neg (by omega)]
  exact needZero_of fun k hlo hhi => hzero k hlo (by omega)

theorem needWhen_at {c : Current} {i : Nat} (h : par c i = 1) : ∀ x ∈ needWhen c i, x = none :=
  pass_cons (needParam_pass _ (by simp [h])) (pass_cons (if_pos h) pass_nil)

section
variable {s : State} {c : Current} {l : List (Option Bad)}

theorem needTimingFree_pass {b : Nat} (h : calHoldsTiming s b = false) : needTimingFree s [b] = none :=
  firstOf_eq_none.2 fun k hk => by
    rw [List.mem_singleton.1 hk, h]
    rfl

/-- Checks of a SET or STOP that pass in a bed that the timing commands may use. -/
theorem clockChecks_pass (hbed : par c 0 < 16) (hclock : par c 1 < 4) (hl : ∀ x ∈ l, x = none) (hwhen : ∀ x ∈ needWhen c 10, x = none)
    (hlead : par c 10 = 1 → c.pick + 32000 ≤ par64 c 11) (href : s.clk.refPresent = true) (hhold : s.clk.holdover = false)
    (hcal : calHoldsTiming s (par c 0) = false) (hactive : bedActive s (par c 0) = true) : firstBad (clockChecks s c l) = none := by
  refine firstBad_pass (pass_append (pass_append (pass_append (pass_cons (needParam_pass _ (decide_eq_true hbed)) (pass_cons (needParam_pass _ (decide_eq_true hclock)) pass_nil)) hl) hwhen)
    (pass_cons ?_ (pass_cons (needRef_of href hhold) (pass_cons (needTimingFree_pass hcal) (pass_cons ?_ pass_nil)))))
  · split
    next h => exact if_pos (hlead h)
    next => rfl
  · exact needActive_eq_none.2 fun b hb => by rw [List.mem_singleton.1 hb, hactive]

theorem clockCommand_now (x : Option ClockSet) (h : par c 10 = 0) : clockCommand s c x =
    postOk (s.modCkgen (4 * par c 0 + par c 1) (fun g => changeClock g (epochOf s.clk.time) x)) (0 :: toWords 4 (epochOf s.clk.time)) := by
  simp [clockCommand, h, State.now]
  rfl

theorem clockCommand_at (x : Option ClockSet) (h : par c 10 = 1) : clockCommand s c x =
    postOk (s.modCkgen (4 * par c 0 + par c 1) (fun g => { g with change := some { tc := epochOf (par64 c 11), set := x } }))
      (w16 (b2n (s.ckgen (4 * par c 0 + par c 1)).change.isSome) :: toWords 4 (epochOf (par64 c 11))) := by
  simp [clockCommand, h]

end

/-! CLOCK_OUT ASSIGN (R182). -/

/-- The generator assigned, and a pin that follows goes on following. -/
def Assigned (ck : Nat) (x y : PinClock) : Prop :=
  y.gen = ck ∧ y.windows.any (fun w => w.stop.isNone) = x.windows.any (fun w => w.stop.isNone) ∧ (x.gen = ck → y = x)

theorem shutWindows_pinck_ne (s : State) {p j : Nat} (t : Int) (h : j ≠ p) : (shutWindows s p t).pinck j = s.pinck j :=
  (State.modPinck_pinck ..).trans (if_neg h)

theorem assignClock_assigned (ck : Nat) (t : Int) (s : State) (p : Nat) : Assigned ck (s.pinck p) ((assignClock s p ck t).pinck p) := by
  unfold assignClock
  split
  next h => exact ⟨h, rfl, fun _ => rfl⟩
  next h =>
    split
    next hf =>
      dsimp only
      rw [State.modPinck_pinck, if_pos rfl]
      have hf' : (s.pinck p).windows.any (fun w => w.stop.isNone) = true := hf
      exact ⟨rfl, by rw [hf']; rfl, fun heq => absurd heq h⟩
    next =>
      rw [State.modPinck_pinck, if_pos rfl]
      exact ⟨rfl, rfl, fun heq => absurd heq h⟩

theorem assignClock_ne (ck : Nat) (t : Int) (s : State) (p j : Nat) (hj : j ≠ p) : (assignClock s p ck t).pinck j = s.pinck j := by
  unfold assignClock
  split
  · rfl
  · split
    · dsimp only
      rw [State.modPinck_pinck, if_neg hj, shutWindows_pinck_ne _ _ hj]
    · rw [State.modPinck_pinck, if_neg hj]

/-- The pins named take the clock. -/
def assignAll (c : Current) (s : State) : State := (rangeFrom (par c 3) (par c 4)).foldl (fun s p => assignClock s p (par c 1) (256 * s.now)) s

theorem assignAll_parts (c : Current) (s : State) : assignAll c s = { s with edge := { s.edge with pinClock := (assignAll c s).edge.pinClock } } :=
  congrArg (fun v : State => { v with edge := { v.edge with pinClock := (assignAll c s).edge.pinClock } })
    (foldl_same (F := fun s : State => { s with edge := { s.edge with pinClock := [] } }) (step := fun s p => assignClock s p (par c 1) (256 * s.now))
      (fun s p => by
        unfold assignClock
        split
        · rfl
        · split <;> rfl) (rangeFrom (par c 3) (par c 4)) s)

theorem assignAll_pinck (c : Current) (s : State) (p : Nat) :
    (p ∈ rangeFrom (par c 3) (par c 4) → Assigned (par c 1) (s.pinck p) ((assignAll c s).pinck p)) ∧
      (p ∉ rangeFrom (par c 3) (par c 4) → (assignAll c s).pinck p = s.pinck p) :=
  foldl_keyed_rel (get := State.pinck) (R := fun _ => Assigned (par c 1)) (fun s p => assignClock_assigned _ _ s p) (fun s p j hj => assignClock_ne _ _ s p j hj)
    (nodup_rangeFrom _ _) s p

/-! TDLL_UNLOCK (R154). -/

/-- A slice whose events not yet placed are dropped. -/
def sliceUnlocked (held : Bool) (t : Int) (x : PinEdges) : PinEdges := { x with
  driver := if held then x.driver else driverAfter x.driver (x.drive.filter (fun e => decide (e.placed ≤ t)))
  drive := []
  comp := []
  off := none }

theorem sliceUnlocked_driver {held : Bool} {t : Int} {x : PinEdges} (h : held = true ∨ ∀ e ∈ x.drive, t < e.placed) : (sliceUnlocked held t x).driver = x.driver := by
  rcases h with rfl | h
  · rfl
  · have hnone : x.drive.filter (fun e => decide (e.placed ≤ t)) = [] := List.filter_eq_nil_iff.2 fun e he => by
      have := h e he
      simpa using this
    unfold sliceUnlocked
    rw [hnone]
    split <;> rfl

/-- Pending strobes of the bed's pins are lost. -/
def loseStrobes (b : Nat) (t : Int) (s : State) (q : Nat) : State :=
  s.modSeq q (fun x => { x with
    judge := x.judge.map (fun j => { j with
      lost := j.lost ++ (List.range x.lanes.length).filter (fun i =>
        decide (x.lanes.getD i 0 / 32 = b) && strobePending s (x.lanes.getD i 0) j.vectors t) }) })

/-- The level of a pin's clock stands. -/
def holdPin (t : Int) (s : State) (p : Nat) : State :=
  let high := clockHigh s p t
  s.modPinck p (fun x => { x with hold := some { high := high } })

/-- TDLL_UNLOCK's strobes. -/
@[irreducible] def strobesLost (s : State) (b : Nat) : State := (List.range 64).foldl (loseStrobes b (256 * s.now)) s

/-- Then its slices. -/
@[irreducible] def slicesDropped (s : State) (b : Nat) : State :=
  (rangeFrom (32 * b) 32).foldl (fun v p => v.modSlices p (sliceUnlocked (bedHeld v b) (256 * s.now))) (strobesLost s b)

/-- Then its clock outputs. -/
@[irreducible] def clocksStand (s : State) (b : Nat) : State := (rangeFrom (32 * b) 32).foldl (holdPin (256 * s.now)) (slicesDropped s b)

/-- TDLL_UNLOCK up to the fault. -/
def unlocked (s : State) (b : Nat) : State := (clocksStand s b).modTdll b (fun _ => false)

theorem exec_tdllUnlock (b : Bed) (s : State) : exec (.tdllUnlock b) s = .next ((unlocked s b.val).condition b.val 5 true) := by
  unfold unlocked clocksStand slicesDropped strobesLost
  rfl

section
variable (s : State) (b : Nat)

theorem loseStrobes_parts (t : Int) (l : List Nat) : ∃ q, l.foldl (loseStrobes b t) s = { s with pat := { s.pat with seq := q } } :=
  ⟨_, congrArg (fun v : State => { v with pat := { v.pat with seq := (l.foldl (loseStrobes b t) s).pat.seq } })
    (foldl_same (F := fun s : State => { s with pat := { s.pat with seq := [] } }) (step := loseStrobes b t) (fun _ _ => rfl) l s)⟩

theorem loseStrobes_seq (t : Int) (l : List Nat) (q : Nat) : (l.foldl (loseStrobes b t) s).seq q =
    { s.seq q with judge := ((l.foldl (loseStrobes b t) s).seq q).judge } :=
  congrArg (fun x : SeqState => { x with judge := ((l.foldl (loseStrobes b t) s).seq q).judge })
    (foldl_same (F := fun s : State => { s.seq q with judge := [] }) (step := loseStrobes b t) (fun s k => by
      rw [loseStrobes, State.modSeq_seq]
      split
      next h => rw [h]
      next => rfl) l s)

theorem unlockSlices_eq (v : State) (t : Int) (l : List Nat) : l.foldl (fun v p => v.modSlices p (sliceUnlocked (bedHeld v b) t)) v =
    l.foldl (fun (v' : State) p => v'.modSlices p (sliceUnlocked (bedHeld v b) t)) v :=
  foldl_congr_same (F := State.flt) (g := fun v' p => v'.modSlices p (sliceUnlocked (bedHeld v b) t)) (fun _ _ => rfl) fun x p hx => by
    have hheld : bedHeld x b = bedHeld v b := by
      unfold bedHeld State.bedc
      rw [hx]
    rw [hheld]

theorem foldl_modSlices_parts (f : PinEdges → PinEdges) (l : List Nat) : ∃ x, l.foldl (fun (s : State) p => s.modSlices p f) s = { s with edge := { s.edge with slice := x } } :=
  ⟨_, congrArg (fun v : State => { v with edge := { v.edge with slice := (l.foldl (fun (s : State) p => s.modSlices p f) s).edge.slice } })
    (foldl_same (F := fun s : State => { s with edge := { s.edge with slice := [] } }) (step := fun s p => s.modSlices p f) (fun _ _ => rfl) l s)⟩

theorem foldl_modSlices_slices (f : PinEdges → PinEdges) {l : List Nat} (hl : l.Nodup) (p : Nat) :
    (l.foldl (fun (s : State) p => s.modSlices p f) s).slices p = if p ∈ l then f (s.slices p) else s.slices p :=
  foldl_keyed (get := State.slices) (step := fun s p => s.modSlices p f) (f := fun _ => f) (fun _ _ _ => State.modSlices_slices ..) hl s p

theorem holdPin_parts (t : Int) (l : List Nat) : ∃ x, l.foldl (holdPin t) s = { s with edge := { s.edge with pinClock := x } } :=
  ⟨_, congrArg (fun v : State => { v with edge := { v.edge with pinClock := (l.foldl (holdPin t) s).edge.pinClock } })
    (foldl_same (F := fun s : State => { s with edge := { s.edge with pinClock := [] } }) (step := holdPin t) (fun _ _ => rfl) l s)⟩

theorem holdPin_pinck (t : Int) {l : List Nat} (hl : l.Nodup) (p : Nat) :
    (p ∈ l → ∃ h, (l.foldl (holdPin t) s).pinck p = { s.pinck p with hold := some { high := h } }) ∧ (p ∉ l → (l.foldl (holdPin t) s).pinck p = s.pinck p) :=
  foldl_keyed_rel (get := State.pinck) (step := holdPin t) (R := fun _ x y => ∃ h, y = { x with hold := some { high := h } })
    (fun _ _ => ⟨_, (State.modPinck_pinck ..).trans (if_pos rfl)⟩) (fun _ _ _ hj => (State.modPinck_pinck ..).trans (if_neg hj)) hl s p

theorem strobesLost_parts : ∃ q, strobesLost s b = { s with pat := { s.pat with seq := q } } := by
  unfold strobesLost
  exact loseStrobes_parts ..

theorem slicesDropped_eq : slicesDropped s b =
    (rangeFrom (32 * b) 32).foldl (fun (v : State) p => v.modSlices p (sliceUnlocked (bedHeld s b) (256 * s.now))) (strobesLost s b) := by
  obtain ⟨q, hq⟩ := strobesLost_parts s b
  have hheld : bedHeld (strobesLost s b) b = bedHeld s b := by
    rw [hq]
    rfl
  rw [slicesDropped, unlockSlices_eq, hheld]

theorem slicesDropped_parts : ∃ x, slicesDropped s b = { strobesLost s b with edge := { (strobesLost s b).edge with slice := x } } := by
  rw [slicesDropped_eq]
  exact foldl_modSlices_parts ..

theorem clocksStand_parts : ∃ c, clocksStand s b = { slicesDropped s b with edge := { (slicesDropped s b).edge with pinClock := c } } := by
  unfold clocksStand
  exact holdPin_parts ..

theorem clocksStand_pinck (p : Nat) : (p ∈ rangeFrom (32 * b) 32 → ∃ h, (clocksStand s b).pinck p = { (slicesDropped s b).pinck p with hold := some { high := h } }) ∧
    (p ∉ rangeFrom (32 * b) 32 → (clocksStand s b).pinck p = (slicesDropped s b).pinck p) := by
  rw [clocksStand]
  exact holdPin_pinck (slicesDropped s b) (256 * s.now) (nodup_rangeFrom (32 * b) 32) p

/-- What TDLL_UNLOCK changes before its fault is raised. -/
theorem unlocked_parts : ∃ q x c d, unlocked s b =
    { s with edge := { s.edge with slice := x, pinClock := c, tdll := d }, pat := { s.pat with seq := q } } := by
  obtain ⟨q, hq⟩ := strobesLost_parts s b
  obtain ⟨x, hx⟩ := slicesDropped_parts s b
  obtain ⟨c, hc⟩ := clocksStand_parts s b
  refine ⟨q, x, c, (unlocked s b).edge.tdll, ?_⟩
  generalize hd : (unlocked s b).edge.tdll = d
  unfold unlocked at hd ⊢
  rw [hc, hx, hq] at hd ⊢
  rw [← hd]
  rfl

theorem slices_of_pinClock {p : Nat} {v w : State} {c : Tab PinClock} (h : w = { v with edge := { v.edge with pinClock := c } }) : w.slices p = v.slices p := by
  rw [h]
  rfl

theorem strobesLost_slices (p : Nat) : (strobesLost s b).slices p = s.slices p := by
  obtain ⟨q, hq⟩ := strobesLost_parts s b
  rw [hq]
  rfl

theorem slicesDropped_slices (p : Nat) : (slicesDropped s b).slices p =
    if p ∈ rangeFrom (32 * b) 32 then sliceUnlocked (bedHeld s b) (256 * s.now) ((strobesLost s b).slices p) else (strobesLost s b).slices p := by
  rw [slicesDropped_eq]
  exact foldl_modSlices_slices _ _ (nodup_rangeFrom _ _) p

theorem clocksStand_slices (p : Nat) : (clocksStand s b).slices p = (slicesDropped s b).slices p := by
  obtain ⟨c, hc⟩ := clocksStand_parts s b
  exact slices_of_pinClock hc

theorem unlocked_slices (p : Nat) : (unlocked s b).slices p =
    if p ∈ rangeFrom (32 * b) 32 then sliceUnlocked (bedHeld s b) (256 * s.now) (s.slices p) else s.slices p := by
  rw [unlocked, State.modTdll_slices, clocksStand_slices, slicesDropped_slices, strobesLost_slices]

theorem unlocked_pinck (p : Nat) : (p ∈ rangeFrom (32 * b) 32 → ∃ h, (unlocked s b).pinck p = { s.pinck p with hold := some { high := h } }) ∧
    (p ∉ rangeFrom (32 * b) 32 → (unlocked s b).pinck p = s.pinck p) := by
  obtain ⟨q, hq⟩ := strobesLost_parts s b
  obtain ⟨x, hx⟩ := slicesDropped_parts s b
  rw [hq] at hx
  have hpinck : (slicesDropped s b).pinck p = s.pinck p := by
    rw [hx]
    unfold State.pinck
    rfl
  obtain ⟨hin, hout⟩ := clocksStand_pinck s b p
  rw [hpinck] at hin hout
  rw [unlocked, State.modTdll_pinck]
  exact ⟨hin, hout⟩

theorem seq_of_edge {v w : State} {e : Edges} (h : w = { v with edge := e }) (q : Nat) : w.seq q = v.seq q := by
  rw [h]
  rfl

theorem unlocked_seq (q : Nat) : (unlocked s b).seq q = { s.seq q with judge := ((unlocked s b).seq q).judge } := by
  obtain ⟨x, hx⟩ := slicesDropped_parts s b
  obtain ⟨c, hc⟩ := clocksStand_parts s b
  have hseq : (unlocked s b).seq q = (strobesLost s b).seq q := by
    exact (seq_of_edge (v := clocksStand s b) rfl q).trans ((seq_of_edge hc q).trans (seq_of_edge hx q))
  rw [hseq]
  unfold strobesLost
  exact loseStrobes_seq ..

theorem unlocked_tdll : (unlocked s b).tdll b = false ∧ ∀ k, k ≠ b → (unlocked s b).tdll k = s.tdll k := by
  obtain ⟨q, hq⟩ := strobesLost_parts s b
  obtain ⟨x, hx⟩ := slicesDropped_parts s b
  obtain ⟨c, hc⟩ := clocksStand_parts s b
  rw [hq] at hx
  rw [hx] at hc
  refine ⟨(State.modTdll_tdll ..).trans (if_pos rfl), fun k hk => ?_⟩
  rw [unlocked, State.modTdll_tdll, if_neg hk, hc]
  rfl

end

/-! Conditions (R517). -/

theorem condition_parts (s : State) (k src d0 d1 : Nat) (on : Bool) :
    ∃ b w, s.condition k src on d0 d1 = { s with flt := { s.flt with block := b, waiting := w } } := by
  unfold State.condition
  split
  · split
    · exact ⟨_, _, rfl⟩
    · exact raise_parts ..
  · exact ⟨_, _, rfl⟩

theorem condition_on_live (s : State) {k src : Nat} (d0 d1 : Nat) (hsrc : src < 64) (h : srcEvent k src = false) :
    ((s.condition k src true d0 d1).fblk k).live.getLsbD src = true := by
  unfold State.condition
  rw [if_pos rfl]
  split
  next hlive => exact hlive
  next => exact raise_live s d0 d1 hsrc h

theorem condition_on_fblk_ne (s : State) {k j src : Nat} (d0 d1 : Nat) (h : srcEvent k src = false) (hj : j ≠ k) :
    (s.condition k src true d0 d1).fblk j = s.fblk j := by
  unfold State.condition
  rw [if_pos rfl]
  split
  · rfl
  · unfold State.raise
    rw [h]
    exact (live_fblk s k src j true).trans (if_neg hj)

theorem condition_on_again (s : State) {k src : Nat} (d0 d1 : Nat) (h : (s.fblk k).live.getLsbD src = true) : s.condition k src true d0 d1 = s := by
  unfold State.condition
  rw [if_pos rfl, if_pos h]

theorem condition_on_waiting (s : State) {k src : Nat} (d0 d1 : Nat) (h : (s.fblk k).live.getLsbD src = false) :
    (s.condition k src true d0 d1).flt.waiting = s.flt.waiting ++
      [{ block := k, source := src, d0 := w16 d0, d1 := w16 d1, forced := false, stamp := f3 s.clk.time }] := by
  unfold State.condition
  rw [if_pos rfl, h, if_neg Bool.false_ne_true, raise_waiting]

theorem srcEvent_tdll {b : Nat} (h : b < 16) : srcEvent b 5 = false := by
  have hall : ∀ b < 16, srcEvent b 5 = false := by decide
  exact hall b h

/-! TDLL_RELOCK (R154). -/

/-- A pin's clock goes on from its next edge. -/
def holdUntil (t : Int) (x : PinClock) : PinClock := { x with hold := x.hold.map (fun h => { h with since := some t }) }

/-- TDLL_RELOCK's clock outputs. -/
@[irreducible] def relocked (s : State) (b : Nat) : State :=
  (rangeFrom (32 * b) 32).foldl (fun v p => v.modPinck p (holdUntil (256 * s.now))) s

theorem exec_tdllRelock (b : Bed) (s : State) : exec (.tdllRelock b) s = .next (((relocked s b.val).modTdll b.val (fun _ => true)).live b.val 5 false) := by
  have hfold : ∀ l : List Nat, l.foldl (fun s p => s.modPinck p (fun x => { x with hold := x.hold.map (fun h => { h with since := some (256 * s.now) }) })) s =
      l.foldl (fun (v : State) p => v.modPinck p (holdUntil (256 * s.now))) s := fun l =>
    foldl_congr_same (F := State.clk) (g := fun v p => v.modPinck p (holdUntil (256 * s.now))) (fun _ _ => rfl) fun v p hv => by
      have hnow : v.now = s.now := congrArg Clock.time hv
      rw [hnow]
      rfl
  unfold relocked
  rw [← hfold]
  rfl

theorem foldl_modPinck_parts (s : State) (f : PinClock → PinClock) (l : List Nat) :
    ∃ c, l.foldl (fun (s : State) p => s.modPinck p f) s = { s with edge := { s.edge with pinClock := c } } :=
  ⟨_, congrArg (fun v : State => { v with edge := { v.edge with pinClock := (l.foldl (fun (s : State) p => s.modPinck p f) s).edge.pinClock } })
    (foldl_same (F := fun s : State => { s with edge := { s.edge with pinClock := [] } }) (step := fun s p => s.modPinck p f) (fun _ _ => rfl) l s)⟩

theorem relocked_parts (s : State) (b : Nat) : ∃ c, relocked s b = { s with edge := { s.edge with pinClock := c } } := by
  unfold relocked
  exact foldl_modPinck_parts ..

theorem relocked_pinck (s : State) (b p : Nat) : (relocked s b).pinck p = if p ∈ rangeFrom (32 * b) 32 then holdUntil (256 * s.now) (s.pinck p) else s.pinck p := by
  unfold relocked
  exact foldl_keyed (get := State.pinck) (step := fun v p => v.modPinck p (holdUntil (256 * s.now))) (f := fun _ => holdUntil (256 * s.now))
    (fun _ _ _ => State.modPinck_pinck ..) (nodup_rangeFrom _ _) s p

/-- TDLL_UNLOCK, its events dropped and its clock outputs held. -/
theorem tdllUnlock_of {s v : State} {b : Bed} {q : Tab SeqState} {x : Tab PinEdges} {c : Tab PinClock} {d : Tab Bool}
    (hparts : v = { s with edge := { s.edge with slice := x, pinClock := c, tdll := d }, pat := { s.pat with seq := q } })
    (htdll : v.tdll b.val = false) (hother : ∀ k, k ≠ b.val → v.tdll k = s.tdll k)
    (hslice : ∀ p, v.slices p = if p ∈ rangeFrom (32 * b.val) 32 then sliceUnlocked (bedHeld s b.val) (256 * s.now) (s.slices p) else s.slices p)
    (hpinck : ∀ p, (p ∈ rangeFrom (32 * b.val) 32 → ∃ h, v.pinck p = { s.pinck p with hold := some { high := h } }) ∧
      (p ∉ rangeFrom (32 * b.val) 32 → v.pinck p = s.pinck p))
    (hseq : ∀ q, v.seq q = { s.seq q with judge := (v.seq q).judge }) (hexec : exec (.tdllUnlock b) s = .next (v.condition b.val 5 true)) :
    ∃ t, exec (.tdllUnlock b) s = .next t ∧ t.tdll b.val = false ∧ (∀ k, k ≠ b.val → t.tdll k = s.tdll k) ∧
    (t.fblk b.val).live.getLsbD 5 = true ∧ (∀ k, k ≠ b.val → t.fblk k = s.fblk k) ∧
    ((s.fblk b.val).live.getLsbD 5 = true → t.flt = s.flt) ∧
    ((s.fblk b.val).live.getLsbD 5 = false → t.flt.waiting = s.flt.waiting ++
      [{ block := b.val, source := 5, d0 := 0, d1 := 0, forced := false, stamp := f3 s.clk.time }]) ∧
    (∀ p, 32 * b.val ≤ p → p < 32 * b.val + 32 → (t.slices p).drive = [] ∧ (t.slices p).comp = [] ∧ (t.slices p).off = none ∧
      (∃ h, t.pinck p = { s.pinck p with hold := some { high := h } }) ∧
      (bedHeld s b.val = true ∨ (∀ e ∈ (s.slices p).drive, (256 * s.clk.time : Int) < e.placed) → (t.slices p).driver = (s.slices p).driver)) ∧
    (∀ p, (p < 32 * b.val ∨ 32 * b.val + 32 ≤ p) → t.slices p = s.slices p ∧ t.pinck p = s.pinck p) ∧
    (∀ q, t.seq q = { s.seq q with judge := (t.seq q).judge }) ∧
    t = { s with edge := { s.edge with slice := t.edge.slice, pinClock := t.edge.pinClock, tdll := t.edge.tdll },
                 pat := { s.pat with seq := t.pat.seq },
                 flt := { s.flt with block := t.flt.block, waiting := t.flt.waiting } } := by
  have hevent : srcEvent b.val 5 = false := srcEvent_tdll b.isLt
  obtain ⟨blk, w, hcond⟩ := condition_parts v b.val 5 0 0 true
  have hflt : v.flt = s.flt := by rw [hparts]
  have hclk : v.clk = s.clk := by rw [hparts]
  have hfblk : ∀ k, v.fblk k = s.fblk k := fun k => by unfold State.fblk; rw [hflt]
  refine ⟨_, hexec, ?_, fun k hk => ?_, condition_on_live _ 0 0 (by decide) hevent, fun k hk => ?_, fun hlive => ?_, fun hlive => ?_, fun p hlo hhi => ?_, fun p hp => ?_, fun q => ?_, ?_⟩
  · rw [hcond]
    exact htdll
  · rw [hcond]
    exact hother k hk
  · rw [condition_on_fblk_ne _ 0 0 hevent hk, hfblk]
  · rw [condition_on_again _ 0 0 ((hfblk b.val).symm ▸ hlive), hflt]
  · rw [condition_on_waiting _ 0 0 ((hfblk b.val).symm ▸ hlive), hflt, hclk]
    rfl
  · have hp : p ∈ rangeFrom (32 * b.val) 32 := mem_rangeFrom.2 ⟨hlo, hhi⟩
    have hslices : (v.condition b.val 5 true).slices p = sliceUnlocked (bedHeld s b.val) (256 * s.now) (s.slices p) := by
      rw [hcond]
      exact (hslice p).trans (if_pos hp)
    rw [hslices]
    refine ⟨rfl, rfl, rfl, ?_, sliceUnlocked_driver⟩
    rw [hcond]
    exact (hpinck p).1 hp
  · have hp' : p ∉ rangeFrom (32 * b.val) 32 := fun hmem => by
      have := mem_rangeFrom.1 hmem
      omega
    rw [hcond]
    exact ⟨(hslice p).trans (if_neg hp'), (hpinck p).2 hp'⟩
  · rw [hcond]
    exact hseq q
  · rw [hcond, hparts]

/-- TDLL_RELOCK, its pins' clocks gone on. -/
theorem tdllRelock_of {s v : State} {b : Bed} {c : Tab PinClock} (hparts : v = { s with edge := { s.edge with pinClock := c } })
    (hpinck : ∀ p, v.pinck p = if p ∈ rangeFrom (32 * b.val) 32 then holdUntil (256 * s.now) (s.pinck p) else s.pinck p)
    (hexec : exec (.tdllRelock b) s = .next ((v.modTdll b.val (fun _ => true)).live b.val 5 false)) :
    ∃ t, exec (.tdllRelock b) s = .next t ∧ t.tdll b.val = true ∧ (t.fblk b.val).live.getLsbD 5 = false ∧
      (∀ k, k ≠ b.val → t.tdll k = s.tdll k ∧ t.fblk k = s.fblk k) ∧
      (∀ p, 32 * b.val ≤ p → p < 32 * b.val + 32 → t.pinck p = holdUntil (256 * s.clk.time) (s.pinck p)) ∧
      (∀ p, (p < 32 * b.val ∨ 32 * b.val + 32 ≤ p) → t.pinck p = s.pinck p) ∧
      t = { s with edge := { s.edge with tdll := t.edge.tdll, pinClock := t.edge.pinClock }, flt := { s.flt with block := t.flt.block } } := by
  refine ⟨_, hexec, ?_, live_off _ b.val (by decide), fun k hk => ⟨?_, ?_⟩, fun p hlo hhi => ?_, fun p hp => ?_, ?_⟩
  · change (v.modTdll b.val (fun _ => true)).tdll b.val = true
    rw [State.modTdll_tdll, if_pos rfl]
  · change (v.modTdll b.val (fun _ => true)).tdll k = s.tdll k
    refine (State.modTdll_tdll ..).trans ((if_neg hk).trans ?_)
    rw [hparts]
    rfl
  · refine (live_fblk ..).trans ((if_neg hk).trans ?_)
    rw [hparts]
    rfl
  · exact (hpinck p).trans (if_pos (mem_rangeFrom.2 ⟨hlo, hhi⟩))
  · refine (hpinck p).trans (if_neg fun hmem => ?_)
    have := mem_rangeFrom.1 hmem
    omega
  · rw [hparts]
    rfl

/-- Settles O23: changes of generators act or wait, pins go on following, and an unlock drops what is not placed. -/
theorem clocksAndTdll : Obligations.ClocksAndTdll := by
  unfold Obligations.ClocksAndTdll
  refine ⟨?setAt, ?setNow, ?stopNow, ?stopAt, ?early, ?assign, ?startDue, ?stopDue, ?noChange, ?unlock, ?relock⟩
  case setAt =>
    intro s c h haction hbed hclock hmin hmax hhigh hlow hphase hat hlead href hhold hcal hactive
    obtain ⟨t, ht, hans⟩ : ∃ t, exec .clockOutSet s = .next t ∧
        Answered c 0 0 (w16 (b2n (s.ckgen (4 * par c 0 + par c 1)).change.isSome) :: toWords 4 (epochOf (par64 c 11)))
          (s.modCkgen (4 * par c 0 + par c 1) (fun g => { g with change := some { tc := epochOf (par64 c 11), set := some { period := wAtN c.params 3 3, high := par32 c 6, phase := par32 c 8 } } })) t := by
      refine picked_ok (k := fun c => _) h (decide_eq_true haction) rfl (clockChecks_pass hbed hclock ?_ (needWhen_at hat) (fun _ => hlead) href hhold hcal hactive)
        (clockCommand_at _ hat) h.1
      exact pass_cons (needParam_pass _ (by simp [hmin, hmax])) (pass_cons (needParam_pass _ (by simp [hhigh, hlow])) (pass_cons (needParam_pass _ (decide_eq_true hphase)) pass_nil))
    exact ⟨t, _, ht, rfl, hans⟩
  case setNow =>
    intro s c h haction hbed hclock hmin hmax hhigh hlow hphase hnow hzero href hhold hcal hactive
    obtain ⟨t, ht, hans⟩ : ∃ t, exec .clockOutSet s = .next t ∧ Answered c 0 0 (0 :: toWords 4 (epochOf s.clk.time))
        (s.modCkgen (4 * par c 0 + par c 1) (fun g => changeClock g (epochOf s.clk.time) (some { period := wAtN c.params 3 3, high := par32 c 6, phase := par32 c 8 }))) t := by
      refine picked_ok (k := fun c => _) h (decide_eq_true haction) rfl (clockChecks_pass hbed hclock ?_ (needWhen_now hnow fun k hlo hhi => hzero k hlo (by omega))
        (fun hat => absurd hat (by omega)) href hhold hcal hactive) (clockCommand_now _ hnow) h.1
      exact pass_cons (needParam_pass _ (by simp [hmin, hmax])) (pass_cons (needParam_pass _ (by simp [hhigh, hlow])) (pass_cons (needParam_pass _ (decide_eq_true hphase)) pass_nil))
    obtain ⟨hrunning, hchange, hset, hruns⟩ := changeClock_running (s.ckgen (4 * par c 0 + par c 1)) (epochOf s.clk.time)
      { period := wAtN c.params 3 3, high := par32 c 6, phase := par32 c 8 }
    have hsame := modCkgen_same s (4 * par c 0 + par c 1) (fun g => changeClock g (epochOf s.clk.time) (some { period := wAtN c.params 3 3, high := par32 c 6, phase := par32 c 8 }))
    refine ⟨t, _, ht, hans, rfl, (congrArg ClockGen.running hsame).trans hrunning, (congrArg ClockGen.change hsame).trans hchange, (congrArg ClockGen.set hsame).trans hset, ?_,
      fun k hk => modCkgen_ne s _ hk⟩
    rw [hsame]
    exact hruns
  case stopNow =>
    intro s c h haction hbed hclock hzero hnow hzero' href hhold hcal hactive
    obtain ⟨t, ht, hans⟩ : ∃ t, exec .clockOutStop s = .next t ∧ Answered c 0 0 (0 :: toWords 4 (epochOf s.clk.time))
        (s.modCkgen (4 * par c 0 + par c 1) (fun g => changeClock g (epochOf s.clk.time) none)) t :=
      picked_ok (k := fun c => _) h (decide_eq_true haction) rfl (clockChecks_pass hbed hclock (pass_cons (needZero_of fun k hlo hhi => hzero k hlo (by omega)) pass_nil)
        (needWhen_now hnow fun k hlo hhi => hzero' k hlo (by omega)) (fun hat => absurd hat (by omega)) href hhold hcal hactive) (clockCommand_now _ hnow) h.1
    obtain ⟨hrunning, hchange, hruns⟩ := changeClock_stopped (s.ckgen (4 * par c 0 + par c 1)) (epochOf s.clk.time)
    have hsame := modCkgen_same s (4 * par c 0 + par c 1) (fun g => changeClock g (epochOf s.clk.time) none)
    refine ⟨t, _, ht, hans, (congrArg ClockGen.running hsame).trans hrunning, (congrArg ClockGen.change hsame).trans hchange, ?_, rfl, fun k hk => modCkgen_ne s _ hk⟩
    rw [hsame]
    exact hruns
  case stopAt =>
    intro s c h haction hbed hclock hzero hat hlead href hhold hcal hactive
    obtain ⟨t, ht, hans⟩ : ∃ t, exec .clockOutStop s = .next t ∧
        Answered c 0 0 (w16 (b2n (s.ckgen (4 * par c 0 + par c 1)).change.isSome) :: toWords 4 (epochOf (par64 c 11)))
          (s.modCkgen (4 * par c 0 + par c 1) (fun g => { g with change := some { tc := epochOf (par64 c 11), set := none } })) t :=
      picked_ok (k := fun c => _) h (decide_eq_true haction) rfl (clockChecks_pass hbed hclock (pass_cons (needZero_of fun k hlo hhi => hzero k hlo (by omega)) pass_nil)
        (needWhen_at hat) (fun _ => hlead) href hhold hcal hactive) (clockCommand_at _ hat) h.1
    exact ⟨t, _, ht, rfl, hans⟩
  case early =>
    intro s c h haction hbed hclock hzero hat hlead
    refine picked_bad (k := fun c => _) h (decide_eq_true haction) rfl ?_
    rw [clockChecks, firstBad_append (pass_append (pass_append (pass_cons (needParam_pass _ (decide_eq_true hbed)) (pass_cons (needParam_pass _ (decide_eq_true hclock)) pass_nil))
      (pass_cons (needZero_of fun k hlo hhi => hzero k hlo (by omega)) pass_nil)) (needWhen_at hat)), if_pos hat, needLead, if_neg (by omega)]
    rfl
  case assign =>
    intro s c h haction hbed hclock hone hlo hhi hzero href hhold hbusy hcal hactive
    obtain ⟨t, ht, hans⟩ : ∃ t, exec .clockOutAssign s = .next t ∧ Answered c 0 0 [] (assignAll c s) t := by
      refine picked_ok (k := fun c => _) h (decide_eq_true haction) rfl (firstBad_pass ?_) rfl ?_
      · refine pass_cons (needParam_pass _ (decide_eq_true hbed)) (pass_cons (needParam_pass _ (decide_eq_true hclock)) (pass_cons (needParam_pass _ (by simp [hone, hlo, hhi]))
          (pass_cons (needZero_of fun k hk hk' => hzero k hk (by omega)) (pass_cons (needRef_of href hhold) (pass_cons (firstOf_eq_none.2 fun p hp => ?_)
            (pass_cons (needTimingFree_pass hcal) (pass_cons (needActive_eq_none.2 fun b hb => by rw [List.mem_singleton.1 hb, hactive]) pass_nil)))))))
        obtain ⟨hp0, hp1⟩ := mem_rangeFrom.1 hp
        exact needState_of 1 (by rw [hbusy p hp0 hp1]; rfl)
      · rw [assignAll_parts]
        exact h.1
    refine ⟨t, _, ht, hans, assignAll_parts c s, fun p hp0 hp1 => ?_, fun p hp => (assignAll_pinck c s p).2 fun hmem => ?_⟩
    · exact (assignAll_pinck c s p).1 (mem_rangeFrom.2 ⟨hp0, hp1⟩)
    · have := mem_rangeFrom.1 hmem
      omega
  case startDue =>
    intro b ck s d x hd hx
    obtain ⟨hrunning, hchange, hset, hruns⟩ := changeClock_running (s.ckgen (4 * b.val + ck.val)) d.tc x
    have hexec : exec (.clockChangeDue b ck) s = .next ((s.reach d.tc).modCkgen (4 * b.val + ck.val) (fun g => changeClock g d.tc (some x))) := by
      refine congrArg Host.Outcome.next ?_
      rw [hd]
      dsimp only
      rw [hx]
    have hsame : ((s.reach d.tc).modCkgen (4 * b.val + ck.val) (fun g => changeClock g d.tc (some x))).ckgen (4 * b.val + ck.val) =
      changeClock (s.ckgen (4 * b.val + ck.val)) d.tc (some x) := modCkgen_same ..
    refine ⟨_, hexec, rfl, (congrArg ClockGen.running hsame).trans hrunning, (congrArg ClockGen.set hsame).trans hset, (congrArg ClockGen.change hsame).trans hchange, ?_,
      fun k hk => modCkgen_ne (s.reach d.tc) _ hk, rfl⟩
    rw [hsame]
    exact hruns
  case stopDue =>
    intro b ck s d hd hx
    obtain ⟨hrunning, hchange, hruns⟩ := changeClock_stopped (s.ckgen (4 * b.val + ck.val)) d.tc
    have hexec : exec (.clockChangeDue b ck) s = .next ((s.reach d.tc).modCkgen (4 * b.val + ck.val) (fun g => changeClock g d.tc none)) := by
      refine congrArg Host.Outcome.next ?_
      rw [hd]
      dsimp only
      rw [hx]
    have hsame : ((s.reach d.tc).modCkgen (4 * b.val + ck.val) (fun g => changeClock g d.tc none)).ckgen (4 * b.val + ck.val) =
      changeClock (s.ckgen (4 * b.val + ck.val)) d.tc none := modCkgen_same ..
    refine ⟨_, hexec, rfl, (congrArg ClockGen.running hsame).trans hrunning, (congrArg ClockGen.change hsame).trans hchange, ?_,
      fun k hk => modCkgen_ne (s.reach d.tc) _ hk, rfl⟩
    rw [hsame]
    exact hruns
  case noChange =>
    intro b ck s hnone
    refine congrArg Host.Outcome.next ?_
    rw [hnone]
  case unlock =>
    intro b s
    obtain ⟨q, x, c, d, hparts⟩ := unlocked_parts s b.val
    obtain ⟨htdll, hother⟩ := unlocked_tdll s b.val
    exact tdllUnlock_of hparts htdll hother (unlocked_slices s b.val) (unlocked_pinck s b.val) (unlocked_seq s b.val) (exec_tdllUnlock b s)
  case relock =>
    intro b s
    obtain ⟨c, hparts⟩ := relocked_parts s b.val
    exact tdllRelock_of hparts (relocked_pinck s b.val) (exec_tdllRelock b s)

end Sys2Proof.Machine
end

section
/-! PROOFS. The sample of a loop (R231, R237, R243 to R245, R252, R260). -/

set_option Elab.async false

namespace Sys2Proof.Machine

/-! Bounds of the selector (R244). -/

theorem foldl_lower_le (r : List Bound) (b : Bound) : ∀ x ∈ b :: r, (r.foldl (fun a c => if c.2 < a.2 then c else a) b).2 ≤ x.2 := by
  induction r generalizing b with
  | nil => exact fun x hx => (List.mem_singleton.1 hx) ▸ le_rfl
  | cons c r ih =>
    intro x hx
    rw [List.foldl_cons]
    have hstart := ih (if c.2 < b.2 then c else b)
    rcases List.mem_cons.1 hx with rfl | hx
    · refine (hstart _ List.mem_cons_self).trans ?_
      split <;> omega
    · rcases List.mem_cons.1 hx with rfl | hx
      · refine (hstart _ List.mem_cons_self).trans ?_
        split <;> omega
      · exact hstart x (List.mem_cons_of_mem _ hx)

/-- The lowest high bound lies at or below each of them. -/
theorem lowest_le {l : List Bound} {x : Bound} (h : x ∈ l) : (lowest l).2 ≤ x.2 := by
  cases l with
  | nil => cases h
  | cons b r => exact foldl_lower_le r b x h

theorem quantityBounds_ordered (s : State) (l : Nat) (volt : Bool) (user : Option (Int × Int)) :
    (quantityBounds s l volt user).2.2 ≤ (quantityBounds s l volt user).1.2 := by
  cases volt with
  | true => exact min_le_right _ _
  | false => exact min_le_right _ _

theorem currentBounds_le (s : State) (l : Nat) (user : Option (Int × Int)) : (currentBounds s l user).1.2 ≤ 26214 ∧
    (chargeOutside s l = true ∨ chargeHeld s l = true → (currentBounds s l user).1.2 ≤ 0) ∧
    (loopThrottled s l = true → (currentBounds s l user).1.2 ≤ 13107) ∧
    (∀ h w, user = some (h, w) → (currentBounds s l user).1.2 ≤ h) := by
  unfold currentBounds
  refine ⟨lowest_le (x := (2, 26214)) (by simp [nominalCode]), ?_, fun h => lowest_le (x := (6, 13107)) (by simp [h]), ?_⟩
  · rintro (h | h)
    · exact lowest_le (x := (7, 0)) (by simp [h])
    · exact lowest_le (x := (0, 0)) (by simp [h])
  · rintro h w rfl
    exact lowest_le (x := (1, h)) (by simp)

/-! The selector (R244, R279). -/

theorem regulate_parts {s t : State} {l mode : Nat} {sp : Int} {user : Option (Int × Int)} {r : Selected} {up ul : Int}
    (h : regulate s l mode sp user = (t, r))
    (hup : up = (evalLaw s l (primaryVolt mode) true (clampI (quantityBounds s l (primaryVolt mode) none).2.2 (quantityBounds s l (primaryVolt mode) none).1.2 sp) (if primaryVolt mode then (s.loop l).lastV else (s.loop l).lastI)).1)
    (hul : ul = (evalLaw s l (!primaryVolt mode) false (if r.high then r.hi.2 else r.lo.2) r.x).1) :
    r.hi = (quantityBounds s l (!primaryVolt mode) user).1 ∧ r.lo = (quantityBounds s l (!primaryVolt mode) user).2 ∧
    (r.high = true → (t.loop l).demand = min up ul) ∧ (r.high = false → (t.loop l).demand = max up ul) ∧
    (r.limited = true ↔ (t.loop l).demand ≠ up) ∧ (r.high = true ↔ (r.hi.2 + r.lo.2) / 2 ≤ r.x) ∧
    t.loop l = { s.loop l with demand := (t.loop l).demand, lastSet := (t.loop l).lastSet, volt := (t.loop l).volt, curr := (t.loop l).curr } ∧
    (∀ k, k ≠ l → t.loop k = s.loop k) ∧ t = { s with lp := { s.lp with loop := t.lp.loop } } := by
  obtain ⟨rfl, rfl⟩ := Prod.mk.inj h.symm
  have hloop : ∀ f, (s.modLoop l f).loop l = f (s.loop l) := fun f => (State.modLoop_loop ..).trans (if_pos rfl)
  have hdemand : ∀ f, ((s.modLoop l f).loop l).demand = (f (s.loop l)).demand := fun f => congrArg LoopState.demand (hloop f)
  subst hup hul
  refine ⟨rfl, rfl, fun hhigh => ?_, fun hhigh => ?_, ?_, decide_eq_true_iff, ?_, fun k hk => (State.modLoop_loop ..).trans (if_neg hk), rfl⟩
  · rw [hdemand]
    exact if_pos hhigh
  · rw [hdemand]
    exact if_neg (ne_true_of_eq_false hhigh)
  · rw [hdemand]
    exact decide_eq_true_iff
  · rw [hloop]

theorem regulate_loop (s : State) (l mode : Nat) (sp : Int) (user : Option (Int × Int)) :
    ∃ a b, (regulate s l mode sp user).1.loop l =
      { s.loop l with demand := ((regulate s l mode sp user).1.loop l).demand, lastSet := ((regulate s l mode sp user).1.loop l).lastSet, volt := a, curr := b } := by
  obtain ⟨-, -, -, -, -, -, hloop, -, -⟩ := regulate_parts (s := s) (l := l) (mode := mode) (sp := sp) (user := user) (Prod.mk.eta).symm rfl rfl
  exact ⟨_, _, hloop⟩

theorem regulate_clk (s : State) (l mode : Nat) (sp : Int) (user : Option (Int × Int)) : (regulate s l mode sp user).1.clk = s.clk := rfl

/-! What the steps of a sample leave of the loop (R252). -/

theorem reach_loop (s : State) (t l : Nat) : (s.reach t).loop l = s.loop l := rfl

theorem loopEvent_lp (s : State) (l kind time : Nat) (rest : List Byte) : (loopEvent s l kind time rest).lp = s.lp :=
  only_lp (loopEvent_only (w := 67584) rfl only_refl)

theorem clipEvent_lp (s : State) (l time : Nat) (on : Bool) (cause : Nat) (meas bound : Int) : (clipEvent s l time on cause meas bound).lp = s.lp :=
  only_lp (clipEvent_only (w := 67584) rfl only_refl)

theorem loop_of_lp {s t : State} (h : t.lp = s.lp) (l : Nat) : t.loop l = s.loop l := by
  unfold State.loop
  rw [h]

theorem loopEvent_loop (s : State) (l kind time : Nat) (rest : List Byte) (k : Nat) : (loopEvent s l kind time rest).loop k = s.loop k :=
  loop_of_lp (loopEvent_lp ..) k

theorem clipEvent_loop (s : State) (l time : Nat) (on : Bool) (cause : Nat) (meas bound : Int) (k : Nat) :
    (clipEvent s l time on cause meas bound).loop k = s.loop k :=
  loop_of_lp (clipEvent_lp ..) k

theorem modLoop_same (s : State) (l : Nat) (f : LoopState → LoopState) : (s.modLoop l f).loop l = f (s.loop l) :=
  (State.modLoop_loop ..).trans (if_pos rfl)

theorem modLoop_ne (s : State) {l k : Nat} (f : LoopState → LoopState) (h : k ≠ l) : (s.modLoop l f).loop k = s.loop k :=
  (State.modLoop_loop ..).trans (if_neg h)

/-- Gang members, which follow, have higher numbers (R239): a leader keeps what it has. -/
theorem followLeader_loop (s : State) (l k : Nat) (h : k ≤ l ∨ l + (s.loop l).gang ≤ k) : (followLeader s l).loop k = s.loop k := by
  unfold followLeader
  have hfold : ∀ (r : List Nat) (v : State) (f : State → LoopState → LoopState), k ∉ r →
      (r.foldl (fun (s : State) k => s.takeFree.modLoop k (f s)) v).loop k = v.loop k := by
    intro r
    induction r with
    | nil => exact fun v f _ => rfl
    | cons j r ih =>
      intro v f hk
      rw [List.foldl_cons, ih _ f (fun hr => hk (List.mem_cons_of_mem _ hr))]
      exact modLoop_ne _ _ (fun heq => hk (heq ▸ List.mem_cons_self))
  refine hfold _ s (fun s y => { y with
    demand := clampI (-32768) 32767 ((State.loop _ l).demand + shareOf s (State.loop _ l).demand)
    isOpen := (State.loop _ l).isOpen, irange := (State.loop _ l).irange, vrange := (State.loop _ l).vrange }) ?_
  rw [mem_rangeFrom]
  omega

/-- The dissipation estimate touches its own figures alone. -/
theorem dissipate_loop (s : State) (l : Nat) : ∃ e a b c, (dissipate s l).loop l =
    { s.loop l with diss := e, dissSum := a, dissCount := b, dissOver := c } := by
  unfold dissipate
  dsimp only
  split
  · exact ⟨_, _, _, _, rfl⟩
  · have hraise : ∀ (v : State) (b d : Nat), (v.raise b 4 d).loop l = v.loop l := fun v b d => loop_of_lp (only_lp (State.raise_only (w := 65536) rfl only_refl)) l
    have hlive : ∀ (v : State) (b : Nat), (dissLive v b).loop l = v.loop l := fun v b => loop_of_lp (only_lp (dissLive_only (w := 65536) rfl only_refl)) l
    generalize (if (s.loop l).isOpen = true then 0 else dissEstimate s l) = e
    split
    · rw [hraise, modLoop_same]
      exact ⟨_, _, _, _, rfl⟩
    · split
      · rw [hlive, modLoop_same]
        exact ⟨_, _, _, _, rfl⟩
      · rw [modLoop_same]
        exact ⟨_, _, _, _, rfl⟩

/-- What follows a sample's laws changes the loop's clamp and its dissipation figures alone. -/
theorem sampleTail_loop (s : State) (l : Nat) : ∃ e a b c, (dissipate (clampOutput (followLeader s l) l) l).loop l =
    { s.loop l with
      dissClamp := ((clampOutput (followLeader s l) l).loop l).dissClamp, diss := e, dissSum := a, dissCount := b, dissOver := c } := by
  obtain ⟨e, a, b, c, h⟩ := dissipate_loop (clampOutput (followLeader s l) l) l
  refine ⟨e, a, b, c, h.trans ?_⟩
  rw [show (clampOutput (followLeader s l) l).loop l = { (followLeader s l).loop l with
    dissClamp := ((clampOutput (followLeader s l) l).loop l).dissClamp } by unfold clampOutput; rw [modLoop_same],
    followLeader_loop s l l (.inl le_rfl)]

theorem sampleTail_clk (s : State) (l : Nat) : (dissipate (clampOutput (followLeader s l) l) l).clk = s.clk :=
  only_clk (w := 66050) (dissipate_only rfl (clampOutput_only rfl (followLeader_only rfl only_refl)))

/-- A DC loop whose converter nobody averages only keeps its codes. -/
theorem deliver_unused {s : State} {l t : Nat} {c : Reading} (hsource : (s.loop l).source = .dc) (hrun : (s.avg l).run = none)
    (hlock : (s.avg l).lock = none) : deliver s l t c = s.modLoop l (fun x => { x with priorV := x.lastV, lastV := c.v, lastI := c.i }) := by
  unfold deliver
  generalize hv : s.modLoop l (fun x => { x with priorV := x.lastV, lastV := c.v, lastI := c.i }) = v
  have hdc : (v.loop l).source = .dc := by rw [← hv, modLoop_same]; exact hsource
  have havg : v.avg l = s.avg l := by rw [← hv]; rfl
  have hend : endLockWindow v l = v := by unfold endLockWindow; rw [havg, hlock]
  have hfeed : ∀ x, feedLoop v l x = v := by
    intro x
    have hmeas : feedMeas v l x = v := by unfold feedMeas; rw [havg, hrun]
    unfold feedLoop
    rw [hmeas]
    unfold feedLock
    dsimp only
    rw [hend, havg, hlock]
    dsimp only
    rw [hdc]
  dsimp only
  rw [hfeed]
  unfold sweepClose
  rw [hdc]

theorem catchUp_idle {s : State} {l : Nat} (hdecl : (s.loop l).declared = .primary) (hgoal : (s.loop l).autoGoal = none) (hsource : (s.loop l).source = .dc) :
    catchUp s l = s := by
  have hreturn : lawReturnNow s l = s := if_neg fun h => h.1 hdecl
  have htrip : complyTripNow s l = s := if_neg fun h => h.1 hdecl
  have hauto : autoRangeNow s l = s := by unfold autoRangeNow; rw [hgoal]
  unfold catchUp
  rw [hreturn, htrip, hauto]
  unfold catchRunEnd
  dsimp only
  rw [hsource]

/-- The sample of a loop at its next boundary (R252): the conversion reaches the loop by its state, then the output. -/
def sampleBody (s : State) (l : Nat) (c : Reading) : State :=
  let t := nextBoundary s l
  let s := (s.reach t).modLoop l (fun x => { x with lastSample := t })
  match (s.loop l).state with
  | .ganged => deliver s l t c
  | .frozen => deliver s l t c
  | .cloche =>
    let s := deliver (swapDue s l t) l t c
    if (s.loop l).clocheMode = 0 ∨ (s.loop l).isOpen then s
    else
      let (m, sp, u) := clocheTarget s l
      (regulate s l m sp u).1
  | _ => sampleSteps s l t c

/-- What a boundary leaves before the conversion is delivered. -/
abbrev atBoundary (s : State) (l : Nat) : State :=
  (s.reach (nextBoundary s l)).modLoop l (fun x => { x with lastSample := nextBoundary s l })

theorem atBoundary_loop (s : State) (l : Nat) : (atBoundary s l).loop l = { s.loop l with lastSample := nextBoundary s l } := by
  rw [modLoop_same, reach_loop]

theorem exec_loopSample {l : LoopId} {c : Conv} {s : State} (hbed : bedActive s (loopBed l.val) = true) (hstage : (s.loop l.val).stage ≠ 2)
    (hcatch : catchUp s l.val = s) : exec (.loopSample l c) s =
      .next (dissipate (clampOutput (followLeader (sampleBody s l.val (corrected s l.val c)) l.val) l.val) l.val) := by
  refine congrArg Host.Outcome.next ((if_neg (by simp [hbed, hstage])).trans ?_)
  rw [hcatch]
  rfl

theorem sampleBody_frozen {s : State} {l : Nat} {c : Reading} (h : (s.loop l).state = .frozen) :
    sampleBody s l c = deliver (atBoundary s l) l (nextBoundary s l) c := by
  have hstate : ((atBoundary s l).loop l).state = .frozen := by rw [atBoundary_loop]; exact h
  unfold sampleBody
  dsimp only
  rw [hstate]

theorem sampleBody_regulating {s : State} {l : Nat} {c : Reading} (h : (s.loop l).state = .regulating) :
    sampleBody s l c = sampleSteps (atBoundary s l) l (nextBoundary s l) c := by
  have hstate : ((atBoundary s l).loop l).state = .regulating := by rw [atBoundary_loop]; exact h
  unfold sampleBody
  dsimp only
  rw [hstate]

/-- An on-chip stage whose output is on and whose laws do not run clamps its current itself (R237, R260). -/
theorem clampOutput_frozen {s : State} {l : Nat} (hl : 512 ≤ l) (hstage : (s.loop l).stage = 0) (hopen : (s.loop l).isOpen = false)
    (hstate : (s.loop l).state = .frozen) : ((clampOutput s l).loop l).dissClamp.isSome = true := by
  have hlead : gangLeader s l = l := if_neg (by rw [hstate]; decide)
  have hlaws : lawsRun s l = false := by
    unfold lawsRun
    rw [hlead]
    dsimp only
    rw [hstate]
    rfl
  unfold clampOutput
  rw [modLoop_same]
  dsimp only
  rw [if_pos ⟨hl, hstage, by rw [hopen]; rfl, by rw [hlaws]; rfl⟩]
  rfl

theorem loopSample_frozen {l : LoopId} {c : Conv} {s : State} (hbed : bedActive s (loopBed l.val) = true) (hstage : (s.loop l.val).stage ≠ 2)
    (hstate : (s.loop l.val).state = .frozen) (hdecl : (s.loop l.val).declared = .primary) (hgoal : (s.loop l.val).autoGoal = none)
    (hsource : (s.loop l.val).source = .dc) (hrun : (s.avg l.val).run = none) (hlock : (s.avg l.val).lock = none) :
    ∃ t, exec (.loopSample l c) s = .next t ∧ (t.loop l.val).demand = (s.loop l.val).demand ∧ (t.loop l.val).state = .frozen ∧
      (t.loop l.val).volt = (s.loop l.val).volt ∧ (t.loop l.val).curr = (s.loop l.val).curr ∧ (t.loop l.val).setPoint = (s.loop l.val).setPoint ∧
      (t.loop l.val).lastV = (corrected s l.val c).v ∧ (t.loop l.val).lastI = (corrected s l.val c).i ∧
      (t.loop l.val).lastSample = nextBoundary s l.val ∧ t.clk.time = max s.clk.time (nextBoundary s l.val) ∧
      (512 ≤ l.val → (s.loop l.val).stage = 0 → (s.loop l.val).isOpen = false → (t.loop l.val).dissClamp.isSome = true) := by
  refine ⟨_, exec_loopSample hbed hstage (catchUp_idle hdecl hgoal hsource), ?_⟩
  generalize corrected s l.val c = r
  rw [sampleBody_frozen hstate]
  have hdeliver := deliver_unused (s := atBoundary s l.val) (l := l.val) (t := nextBoundary s l.val) (c := r) (by rw [atBoundary_loop]; exact hsource) hrun hlock
  generalize hv : deliver (atBoundary s l.val) l.val (nextBoundary s l.val) r = v at hdeliver ⊢
  have hloop : v.loop l.val = { s.loop l.val with lastSample := nextBoundary s l.val, priorV := (s.loop l.val).lastV, lastV := r.v, lastI := r.i } := by
    rw [hdeliver, modLoop_same, atBoundary_loop]
  have hclk : v.clk = (s.reach (nextBoundary s l.val)).clk := by rw [hdeliver]; rfl
  have htail := sampleTail_clk v l.val
  obtain ⟨e, a, b, d, hend⟩ := sampleTail_loop v l.val
  rw [hend, htail, hclk, hloop]
  refine ⟨rfl, hstate, rfl, rfl, rfl, rfl, rfl, rfl, rfl, fun hl hon hopen => ?_⟩
  have hlead : (followLeader v l.val).loop l.val = v.loop l.val := followLeader_loop v l.val l.val (.inl le_rfl)
  exact clampOutput_frozen hl (by rw [hlead, hloop]; exact hon) (by rw [hlead, hloop]; exact hopen) (by rw [hlead, hloop]; exact hstate)

/-! A sample that regulates (R252 steps 2 to 10). -/

/-- With nothing pending, the steps before the law only deliver the codes. -/
theorem sampleSteps_quiet {s : State} {l t : Nat} {c : Reading} (hchange : (s.loop l).change = none) (hnext : (s.loop l).changeNext = none)
    (hswap : (s.loop l).swap = none) (hregion : (s.loop l).regionSwap = none) (hforce : (s.loop l).force = none) (hsource : (s.loop l).source = .dc)
    (hcharge : (s.loop l).charge = false) (hout : (s.loop l).chargeOut = false)
    (hstate : (s.loop l).state = .regulating) (hmeas : (s.loop l).measure = none) (hhand : (s.loop l).handoff = none)
    (hrun : (s.avg l).run = none) (hlock : (s.avg l).lock = none) :
    sampleSteps s l t c = lawSteps (deliver s l t c) l t c := by
  have hrange : rangeStep s l t = s := by unfold rangeStep; dsimp only; rw [hchange, hnext]
  have htake : takeSwap s l t none = s := rfl
  have hswapDue : swapDue s l t = s := by unfold swapDue; rw [hregion, htake]; dsimp only; rw [hswap]; rfl
  have happly : applyForce s l t = s := by unfold applyForce; dsimp only; rw [hforce]
  have hadvance : advanceSource s l t = s := by unfold advanceSource; rw [hsource]
  have hleave : chargeLeave s l t = s := if_pos (.inr (by rw [hout]; unfold chargeOutside; rw [hcharge]; rfl))
  have hrunning : ∀ f : State → State, whileRunning s l f = f s := fun f => if_pos (by rw [hstate, hmeas]; rfl)
  have hdeliver := deliver_unused (s := s) (l := l) (t := t) (c := c) hsource hrun hlock
  have hrecord : recordHandoff (deliver s l t c) l t = deliver s l t c := by
    unfold recordHandoff
    dsimp only
    rw [hdeliver, modLoop_same]
    dsimp only
    rw [hhand]
  unfold sampleSteps
  rw [hrange, hswapDue, happly]
  dsimp only
  rw [hrunning (fun s => advanceSource s l t), hadvance, hrunning (fun s => chargeLeave s l t), hleave]
  rw [hrecord]
  refine if_pos ?_
  rw [hdeliver, modLoop_same]
  exact ⟨hstate, by dsimp only; rw [hmeas]; rfl⟩

/-- Step 10 changes the declaration's fields alone, and no declaration where the primary law's demand was applied (R246 to R249). -/
theorem declareLaw_loop (s : State) (l t : Nat) (r : Selected) : ∃ d n p g a c, (declareLaw s l t r).loop l =
    { s.loop l with declared := d, returnCount := n, tripCount := p, autoGoal := g, cause := a, clip := c } ∧
    (r.limited = false → d = (s.loop l).declared) := by
  unfold declareLaw
  dsimp only
  generalize hv : (if r.limited = true then _ else _ : State) = v
  have hdecl : ∃ d n p g a, v.loop l = { s.loop l with declared := d, returnCount := n, tripCount := p, autoGoal := g, cause := a } ∧
      (r.limited = false → d = (s.loop l).declared) := by
    rw [← hv]
    cases hlim : r.limited with
    | false =>
      rw [if_neg (by decide), modLoop_same]
      exact ⟨_, _, _, _, _, rfl, fun _ => rfl⟩
    | true =>
      rw [if_pos rfl]
      generalize (if r.high = true then Declared.limitHi else Declared.limitLo) = tgt
      generalize (if r.high = true then r.hi else r.lo) = b
      have hno : ∀ {d : Declared}, true = false → d = (s.loop l).declared := fun h => nomatch h
      split
      · rw [modLoop_same]
        exact ⟨_, _, _, _, _, rfl, hno⟩
      · split
        · split
          · rw [modLoop_same]
            exact ⟨_, _, _, _, _, rfl, hno⟩
          · rw [modLoop_same, modLoop_same]
            exact ⟨_, _, _, _, _, rfl, hno⟩
        · rw [modLoop_same, loopEvent_loop, modLoop_same]
          exact ⟨_, _, _, _, _, rfl, hno⟩
  obtain ⟨d, n, p, g, a, hloop, hkeep⟩ := hdecl
  generalize hw : State.modLoop v l _ = w
  refine ⟨d, n, (w.loop l).tripCount, g, a, r.clip.1, ?_, hkeep⟩
  rw [modLoop_same]
  have htrip : w.loop l = { v.loop l with tripCount := (w.loop l).tripCount } := by rw [← hw, modLoop_same]
  split
  · split
    · rw [clipEvent_loop, htrip, hloop]
    · rw [clipEvent_loop, htrip, hloop]
  · rw [htrip, hloop]

theorem declareLaw_clk (s : State) (l t : Nat) (r : Selected) : (declareLaw s l t r).clk = s.clk :=
  only_clk (declareLaw_only (w := 68096) rfl only_refl)

/-- Without regions and auto-ranging, the law's steps are the selector and its declaration. -/
theorem lawSteps_plain {s : State} {l t : Nat} {c : Reading} (hstarting : (s.loop l).regions.starting = false) (henable : (s.loop l).regions.enable = false)
    (hauto : (s.loop l).auto = false) (hmode : (s.loop l).mode ≠ 2) :
    lawSteps s l t c = declareLaw (regulate s l (s.loop l).mode (s.loop l).setPoint (some (userLimits s l (!primaryVolt (s.loop l).mode)))).1 l t
      (regulate s l (s.loop l).mode (s.loop l).setPoint (some (userLimits s l (!primaryVolt (s.loop l).mode)))).2 := by
  have hfirst : firstRegion s l = s := if_pos (by rw [hstarting]; rfl)
  unfold lawSteps
  dsimp only
  rw [hfirst, if_neg hmode]
  obtain ⟨a, b, hloop⟩ := regulate_loop s l (s.loop l).mode (s.loop l).setPoint (some (userLimits s l (!primaryVolt (s.loop l).mode)))
  generalize regulate s l (s.loop l).mode (s.loop l).setPoint (some (userLimits s l (!primaryVolt (s.loop l).mode))) = r at hloop ⊢
  obtain ⟨d, n, p, g, a, e, hdecl, -⟩ := declareLaw_loop r.1 l t r.2
  generalize declareLaw r.1 l t r.2 = v at hdecl ⊢
  have hcount : autoCount v l c.iOvr = v := if_pos (.inl (by rw [hdecl, hloop]; dsimp only; rw [hauto]; rfl))
  rw [hcount]
  exact if_pos (by rw [hdecl, hloop]; dsimp only; rw [henable]; rfl)

/-- Settles O28: the steps of a sample, each of which leaves what the next one reads; the selector's bounds are clamped to each
other. -/
theorem loopSample : Obligations.LoopSample := by
  unfold Obligations.LoopSample
  refine ⟨fun l c s h => ?_, fun l c s hbed hstage => ?_, fun l c s => loopSample_frozen, ?_, fun s l mode sp user t r up ul => regulate_parts,
    quantityBounds_ordered, currentBounds_le⟩
  · refine congrArg Host.Outcome.next (if_pos ?_)
    exact h.imp (fun hbed => by rw [hbed]; rfl) id
  · obtain ⟨t, ht⟩ : ∃ t, exec (.loopSample l c) s = .next t := ⟨_, rfl⟩
    have heq := only_eq (execLoopSample_only (a1 := l) (a2 := c) (w := 81782) rfl only_refl t ht)
    exact ⟨t, ht, heq⟩
  · intro l c s d hbed hstage hstate hmode hsource hmeas hchange hnext hforce hswap hregion hgoal hauto hcharge hout hhand henable hstarting hdecl hrun hlock hd
    refine ⟨_, exec_loopSample hbed hstage (catchUp_idle hdecl hgoal hsource), ?_⟩
    generalize corrected s l.val c = r at hd ⊢
    have hbound := atBoundary_loop s l.val
    have hdeliver := deliver_unused (s := atBoundary s l.val) (l := l.val) (t := nextBoundary s l.val) (c := r) (by rw [hbound]; exact hsource) hrun hlock
    rw [← hd] at hdeliver
    have hloop : d.loop l.val = { s.loop l.val with lastSample := nextBoundary s l.val, priorV := (s.loop l.val).lastV, lastV := r.v, lastI := r.i } := by
      rw [hdeliver, modLoop_same, hbound]
    have hclk : d.clk = (s.reach (nextBoundary s l.val)).clk := by rw [hdeliver]; rfl
    have hsteps : sampleBody s l.val r = lawSteps d l.val (nextBoundary s l.val) r := by
      rw [sampleBody_regulating hstate, hd]
      refine sampleSteps_quiet ?_ ?_ ?_ ?_ ?_ ?_ ?_ ?_ ?_ ?_ ?_ hrun hlock <;> rw [hbound] <;> assumption
    have hlaw := lawSteps_plain (s := d) (l := l.val) (t := nextBoundary s l.val) (c := r) (by rw [hloop]; exact hstarting) (by rw [hloop]; exact henable)
      (by rw [hloop]; exact hauto) (by rw [hloop]; exact hmode)
    rw [hsteps, hlaw]
    rw [show (d.loop l.val).mode = (s.loop l.val).mode by rw [hloop], show (d.loop l.val).setPoint = (s.loop l.val).setPoint by rw [hloop]]
    obtain ⟨a, b, hreg⟩ := regulate_loop d l.val (s.loop l.val).mode (s.loop l.val).setPoint (some (userLimits d l.val (!primaryVolt (s.loop l.val).mode)))
    have hregclk := regulate_clk d l.val (s.loop l.val).mode (s.loop l.val).setPoint (some (userLimits d l.val (!primaryVolt (s.loop l.val).mode)))
    generalize regulate d l.val (s.loop l.val).mode (s.loop l.val).setPoint (some (userLimits d l.val (!primaryVolt (s.loop l.val).mode))) = g at hreg hregclk ⊢
    obtain ⟨dd, n, p, gg, aa, e, hdeclared, hkeep⟩ := declareLaw_loop g.1 l.val (nextBoundary s l.val) g.2
    have hdclk := declareLaw_clk g.1 l.val (nextBoundary s l.val) g.2
    generalize declareLaw g.1 l.val (nextBoundary s l.val) g.2 = v at hdeclared hdclk ⊢
    obtain ⟨_, _, _, _, hend⟩ := sampleTail_loop v l.val
    have htail := sampleTail_clk v l.val
    rw [hend, htail, hdclk, hregclk, hclk, hdeclared]
    refine ⟨?_, ?_, ?_, rfl, ?_, rfl, fun hnot => ?_⟩
    · rw [hreg, hloop]
    · rw [hreg, hloop]
    · rw [hreg, hloop]
    · rw [hreg, hloop]
      exact hstate
    · refine (hkeep hnot).trans ?_
      rw [hreg, hloop]
      exact hdecl

end Sys2Proof.Machine
end

section
/-! PROOFS. What the counts of a loop make due (R237, R238, R246, R249, R254 to R256, R262, R265, R270, R289, R294). -/

set_option Elab.async false

namespace Sys2Proof.Machine

/-- `t` is `s` with loop `l` at `x`: besides, only records, and faults that wait or are live, have changed. -/
def LoopIs (s : State) (l : Nat) (x : LoopState) (t : State) : Prop :=
  t.loop l = x ∧ (∀ k, k ≠ l → t.loop k = s.loop k) ∧
  ∃ p h b w, t = { s with lp := { s.lp with loop := p }, harv := h, flt := { s.flt with block := b, waiting := w } }

section
variable {s t : State} {l : Nat} {x : LoopState}

theorem loopIs_refl : LoopIs s l (s.loop l) s := ⟨rfl, fun _ _ => rfl, _, _, _, _, rfl⟩

theorem loopIs_modLoop (f : LoopState → LoopState) (h : LoopIs s l x t) : LoopIs s l (f x) (t.modLoop l f) := by
  obtain ⟨hl, hk, p, a, b, w, rfl⟩ := h
  refine ⟨(modLoop_same ..).trans (congrArg f hl), fun k hne => (modLoop_ne _ _ hne).trans (hk k hne), _, a, b, w, rfl⟩

theorem loopIs_loopEvent (kind time : Nat) (rest : List Byte) (h : LoopIs s l x t) : LoopIs s l x (loopEvent t l kind time rest) := by
  have hloop := loopEvent_loop t l kind time rest
  obtain ⟨hl, hk, p, a, b, w, ht⟩ := h
  refine ⟨(hloop l).trans hl, fun k hne => (hloop k).trans (hk k hne), p, ?_⟩
  unfold loopEvent
  dsimp only
  split
  · exact ⟨a, b, w, ht⟩
  · obtain ⟨a', b', w', he⟩ := emitRecord_parts t (loopBed l) (t.loop l).eventRing 3 3 0 0x09 0 time (eventBody kind l rest)
    rw [he]
    split
    · rw [ht]
      exact ⟨a', b', w', rfl⟩
    · obtain ⟨b'', w'', hr⟩ := raise_parts { t with harv := a', flt := { t.flt with block := b', waiting := w' } } (loopBed l) 9 l 0
      rw [hr, ht]
      exact ⟨a', b'', w'', rfl⟩

theorem loopIs_tripLive (h : LoopIs s l x t) : LoopIs s l x (tripLive t l) := by
  unfold tripLive
  split
  · exact h
  · obtain ⟨hl, hk, p, a, b, w, rfl⟩ := h
    exact ⟨hl, hk, p, a, _, w, rfl⟩

theorem loopIs_clipEvent (time : Nat) (on : Bool) (cause : Nat) (meas bound : Int) (h : LoopIs s l x t) :
    LoopIs s l x (clipEvent t l time on cause meas bound) := by
  unfold clipEvent
  dsimp only
  split
  · exact loopIs_loopEvent _ _ _ h
  · exact loopIs_loopEvent _ _ _ h

theorem loopIs_endClip (time : Nat) (h : LoopIs s l x t) : LoopIs s l x (endClip t l time) := by
  unfold endClip
  dsimp only
  split
  · exact loopIs_clipEvent _ _ _ _ _ h
  · split
    · exact loopIs_clipEvent _ _ _ _ _ h
    · exact h

/-- The change as the statements of the loop's events write it. -/
theorem loopIs_parts (h : LoopIs s l x t) : t = { s with lp := { s.lp with loop := t.lp.loop }, harv := t.harv, flt := { s.flt with block := t.flt.block, waiting := t.flt.waiting } } := by
  obtain ⟨-, -, p, a, b, w, rfl⟩ := h
  rfl

end

/-! The declared law's return and the trip (R246, R249). -/

theorem lawReturn_returns {l : LoopId} {s : State} (hdecl : (s.loop l.val).declared ≠ .primary) (hcount : (s.loop l.val).returnN ≤ (s.loop l.val).returnCount) :
    ∃ t, exec (.lawReturn l) s = .next t ∧ LoopIs s l.val { s.loop l.val with declared := .primary, returnCount := 0, tripCount := 0, cause := (s.loop l.val).clip } t := by
  refine ⟨_, congrArg Host.Outcome.next (if_pos ⟨hdecl, hcount⟩), ?_⟩
  exact loopIs_tripLive (loopIs_modLoop _ (loopIs_loopEvent _ _ _ loopIs_refl))

theorem lawReturn_waits {l : LoopId} {s : State} (h : (s.loop l.val).declared = .primary ∨ (s.loop l.val).returnCount < (s.loop l.val).returnN) :
    exec (.lawReturn l) s = .next s :=
  congrArg Host.Outcome.next (if_neg fun hn => h.elim hn.1 (Nat.not_lt.2 hn.2))

/-- A loop's own change, then the fault of its bed (R509). -/
theorem modLoop_raise {s t : State} {l bed src d : Nat} {f : LoopState → LoopState} (hsrc : srcEvent bed src = false) (hlt : src < 64)
    (ht : t = (s.modLoop l f).raise bed src d) :
    t.flt.waiting = s.flt.waiting ++ [{ block := bed, source := src, d0 := w16 d, d1 := 0, forced := false, stamp := f3 s.clk.time }] ∧
      (t.fblk bed).live.getLsbD src = true ∧ (∀ k, k ≠ bed → t.fblk k = s.fblk k) ∧ t.loop l = f (s.loop l) ∧ (∀ k, k ≠ l → t.loop k = s.loop k) ∧
      t = { s with lp := { s.lp with loop := t.lp.loop }, flt := { s.flt with block := t.flt.block, waiting := t.flt.waiting } } := by
  obtain ⟨b, w, hparts⟩ := raise_parts (s.modLoop l f) bed src d 0
  have hwait : t.flt.waiting = _ := ht ▸ raise_waiting (s.modLoop l f) bed src d 0
  have hlive : (t.fblk bed).live.getLsbD src = true := ht ▸ raise_live (s.modLoop l f) d 0 hlt hsrc
  have hother : ∀ k, k ≠ bed → t.fblk k = s.fblk k := by
    intro k hk
    rw [ht]
    unfold State.raise
    rw [hsrc]
    exact (live_fblk (s.modLoop l f) bed src k true).trans (if_neg hk)
  refine ⟨hwait, hlive, hother, ?_, fun k hk => ?_, ?_⟩
  · rw [ht, hparts]
    exact modLoop_same s l f
  · rw [ht, hparts]
    exact modLoop_ne s f hk
  · rw [ht, hparts]
    rfl

theorem srcEvent_trip {b : Nat} (h : b < 16) : srcEvent b 1 = false := by
  have hall : ∀ b < 16, srcEvent b 1 = false := by decide
  exact hall b h

theorem srcEvent_diss {b : Nat} (h : b < 16) : srcEvent b 4 = false := by
  have hall : ∀ b < 16, srcEvent b 4 = false := by decide
  exact hall b h

theorem loopBed_lt (l : LoopId) : loopBed l.val < 16 := by
  have := l.isLt
  unfold loopBed
  split <;> omega

theorem complyTrip_trips {l : LoopId} {s : State} (hdecl : (s.loop l.val).declared ≠ .primary) (hn : (s.loop l.val).tripN ≠ 0)
    (hcount : (s.loop l.val).tripCount = (s.loop l.val).tripN) :
    ∃ t, exec (.complyTrip l) s = .next t ∧ t.flt.waiting = s.flt.waiting ++
        [{ block := loopBed l.val, source := 1, d0 := w16 l.val, d1 := 0, forced := false, stamp := f3 s.clk.time }] ∧
      (t.fblk (loopBed l.val)).live.getLsbD 1 = true ∧ (∀ k, k ≠ loopBed l.val → t.fblk k = s.fblk k) ∧
      t.loop l.val = { s.loop l.val with tripCount := (s.loop l.val).tripN + 1 } ∧ (∀ k, k ≠ l.val → t.loop k = s.loop k) ∧
      t = { s with lp := { s.lp with loop := t.lp.loop }, flt := { s.flt with block := t.flt.block, waiting := t.flt.waiting } } :=
  ⟨_, congrArg Host.Outcome.next (if_pos ⟨hdecl, hn, hcount⟩), modLoop_raise (srcEvent_trip (loopBed_lt l)) (by decide) rfl⟩

theorem complyTrip_waits {l : LoopId} {s : State} (h : (s.loop l.val).declared = .primary ∨ (s.loop l.val).tripN = 0 ∨ (s.loop l.val).tripCount ≠ (s.loop l.val).tripN) :
    exec (.complyTrip l) s = .next s :=
  congrArg Host.Outcome.next (if_neg fun ⟨hdecl, hn, hcount⟩ => h.elim hdecl fun h => h.elim hn fun h => h hcount)

/-! Range changes (R254, R256). -/

theorem autoRange_requests {l : LoopId} {s : State} {g : Nat} (hgoal : (s.loop l.val).autoGoal = some g) (hstate : (s.loop l.val).state = .regulating)
    (hstage : (s.loop l.val).stage ≠ 2) (hrange : (s.loop l.val).irange ≠ g) :
    ∃ t, exec (.autoRangeDecision l) s = .next t ∧
      t.loop l.val = { s.loop l.val with autoGoal := none, upCount := 0, downCount := 0, changeNext := some (g, (s.loop l.val).vrange) } ∧
      (∀ k, k ≠ l.val → t.loop k = s.loop k) ∧ t = { s with lp := { s.lp with loop := t.lp.loop } } := by
  refine ⟨_, rfl, ?_⟩
  generalize hv : s.modLoop l.val (fun x => { x with autoGoal := none, upCount := 0, downCount := 0 }) = v
  have hloop : v.loop l.val = { s.loop l.val with autoGoal := none, upCount := 0, downCount := 0 } := by rw [← hv, modLoop_same]
  have hnow : autoRangeNow s l.val = v.modLoop l.val (fun x => { x with changeNext := some (g, (s.loop l.val).vrange) }) := by
    unfold autoRangeNow
    rw [hgoal]
    dsimp only
    rw [hv]
    unfold requestRange
    dsimp only
    rw [hloop]
    dsimp only
    rw [if_pos ⟨.inl hstate, hstage⟩, if_neg fun h => hrange h.1.symm]
  rw [hnow]
  refine ⟨?_, fun k hk => ?_, ?_⟩
  · rw [modLoop_same, hloop]
  · rw [modLoop_ne _ _ hk, ← hv, modLoop_ne _ _ hk]
  · rw [← hv]
    rfl

/-- A waiting LOOP_RANGE is answered, or nothing changes. -/
theorem answerRange_parts (s : State) : ∃ m f k, answerRange s = { s with mb := m, fw := { s.fw with current := f }, link := k } := by
  unfold answerRange
  split
  · cases hcur : s.fw.current with
    | none => exact ⟨_, _, _, rfl⟩
    | some c =>
      dsimp only
      split
      · exact ⟨_, _, _, rfl⟩
      · obtain ⟨heq, -⟩ := postResponse_answered s c 0 0 [] hcur
        exact ⟨_, _, _, heq⟩
  · exact ⟨_, _, _, rfl⟩

theorem answerRange_answers {s : State} {c : Current} (hcur : s.fw.current = some c) (hwait : c.wait = .rangeSettle)
    (hdone : ∀ k ∈ loopRange c 0, (s.loop k).change = none ∧ (s.loop k).changeNext = none) : Answered c 0 0 [] s (answerRange s) := by
  have hnone : (loopRange c 0).any (fun l => (s.loop l).change.isSome || (s.loop l).changeNext.isSome) = false := by
    refine List.any_eq_false.2 fun k hk => ?_
    obtain ⟨hc, hn⟩ := hdone k hk
    rw [hc, hn]
    decide
  unfold answerRange
  rw [if_pos (by rw [waitsFor, hcur]; exact decide_eq_true hwait), hcur]
  dsimp only
  rw [hnone]
  exact postResponse_answered s c 0 0 [] hcur

/-- A loop whose range change is over regulates again. -/
def resumed (x : LoopState) : LoopState :=
  { x with change := none, state := if x.state = .settling then .regulating else x.state, upCount := 0, downCount := 0 }

/-- The loop at the end of a range change, with the step's set-point of a sweep in the new range. -/
def resumedLoop (s : State) (l : Nat) (src : Source) : State :=
  match src with
  | .sweep r => if 0 < r.begun then (s.modLoop l resumed).modLoop l (fun x => { x with setPoint := stepCode (s.modLoop l resumed) l (sweepIndex r) }) else s.modLoop l resumed
  | _ => s.modLoop l resumed

theorem resumedLoop_is (s : State) (l : Nat) (src : Source) : ∃ p, LoopIs s l { resumed (s.loop l) with setPoint := p } (resumedLoop s l src) ∧
    (src = .dc → p = (s.loop l).setPoint) := by
  have hfirst : LoopIs s l (resumed (s.loop l)) (s.modLoop l resumed) := loopIs_modLoop resumed loopIs_refl
  unfold resumedLoop
  split
  next r =>
    split
    · exact ⟨_, loopIs_modLoop (fun x => { x with setPoint := stepCode (s.modLoop l resumed) l (sweepIndex r) }) hfirst, fun h => nomatch h⟩
    · exact ⟨_, hfirst, fun h => nomatch h⟩
  next => exact ⟨_, hfirst, fun _ => rfl⟩

/-- The loop and its record at the end of a range change, before a waiting command is answered. -/
def settled (s : State) (l t : Nat) (c : RangeChange) : State :=
  let x := s.loop l
  let s := resumedLoop s l x.source
  let both := if c.irange = c.oldI then (c.oldV, c.vrange) else (c.oldI, c.irange)
  loopEvent s l 4 t (loopFields (s.loop l) both.1 both.2 0 (if primaryVolt x.mode then x.lastI else x.lastV) 0)

theorem settleDone_eq (s : State) (l t : Nat) (c : RangeChange) : settleDone s l t c = answerRange (settled s l t c) := by
  unfold settled resumedLoop
  cases hsource : (s.loop l).source <;> (unfold settleDone; dsimp only; rw [hsource]; rfl)

theorem settled_loop (s : State) (l t : Nat) (c : RangeChange) : ∃ p, LoopIs s l { resumed (s.loop l) with setPoint := p } (settled s l t c) ∧
    ((s.loop l).source = .dc → p = (s.loop l).setPoint) := by
  obtain ⟨p, hloop, hdc⟩ := resumedLoop_is s l (s.loop l).source
  exact ⟨p, loopIs_loopEvent _ _ _ hloop, hdc⟩

theorem rangeSettleDone_settles {l : LoopId} {s : State} {c : RangeChange} (hchange : (s.loop l.val).change = some c)
    (hcount : c.count = settleSamples l.val c.oldI c.oldV c.irange c.vrange) (hstate : (s.loop l.val).state = .settling) :
    ∃ t, exec (.rangeSettleDone l) s = .next t ∧ t.loop l.val = { s.loop l.val with change := none, state := .regulating, upCount := 0, downCount := 0, setPoint := (t.loop l.val).setPoint } ∧
      ((s.loop l.val).source = .dc → (t.loop l.val).setPoint = (s.loop l.val).setPoint) ∧
      t.clk.time = max s.clk.time (nextBoundary s l.val) ∧ (∀ k, k ≠ l.val → t.loop k = s.loop k) ∧
      (∀ x, s.fw.current = some x → x.wait = .rangeSettle → (s.loop l.val).changeNext = none →
        (∀ k ∈ loopRange x 0, k ≠ l.val → (s.loop k).change = none ∧ (s.loop k).changeNext = none) → ∃ u, Answered x 0 0 [] u t) ∧
      t = { s with clk := { s.clk with time := t.clk.time }, mb := t.mb, fw := { s.fw with current := t.fw.current }, lp := { s.lp with loop := t.lp.loop }, harv := t.harv, link := t.link, flt := { s.flt with block := t.flt.block, waiting := t.flt.waiting } } := by
  have hready : settleReady s l.val = some c := by unfold settleReady; rw [hchange]; exact if_pos hcount
  have hexec : exec (.rangeSettleDone l) s = .next (answerRange (settled (s.reach (nextBoundary s l.val)) l.val (nextBoundary s l.val) c)) := by
    refine congrArg Host.Outcome.next ?_
    rw [hready]
    exact (if_neg (by rw [hstate]; decide)).trans (settleDone_eq ..)
  refine ⟨_, hexec, ?_⟩
  obtain ⟨p, hsettled, hdc⟩ := settled_loop (s.reach (nextBoundary s l.val)) l.val (nextBoundary s l.val) c
  generalize settled (s.reach (nextBoundary s l.val)) l.val (nextBoundary s l.val) c = v at hsettled ⊢
  obtain ⟨hl, hk, q, a, b, w, hv⟩ := hsettled
  rw [reach_loop, show resumed (s.loop l.val) = { s.loop l.val with change := none, state := .regulating, upCount := 0, downCount := 0 } by
    unfold resumed; rw [if_pos hstate]] at hl
  have hlast : ∀ x, s.fw.current = some x → x.wait = .rangeSettle → (s.loop l.val).changeNext = none →
      (∀ k ∈ loopRange x 0, k ≠ l.val → (s.loop k).change = none ∧ (s.loop k).changeNext = none) → ∃ u, Answered x 0 0 [] u (answerRange v) := by
    intro x hcur hwait hnext hothers
    refine ⟨v, answerRange_answers (by rw [hv]; exact hcur) hwait fun k hmem => ?_⟩
    by_cases hkl : k = l.val
    · rw [hkl, hl]
      exact ⟨rfl, hnext⟩
    · rw [hk k hkl]
      exact hothers k hmem hkl
  obtain ⟨m, f, n, ht⟩ := answerRange_parts v
  have hloop : ∀ k, (answerRange v).loop k = v.loop k := fun k => by rw [ht]; rfl
  refine ⟨?_, ?_, ?_, fun k hne => (hloop k).trans (hk k hne), hlast, ?_⟩
  · rw [hloop, hl]
  · intro hsource
    rw [hloop, hl]
    exact hdc hsource
  · rw [ht, hv]
    rfl
  · rw [ht, hv]
    rfl

theorem rangeSettleDone_waits {l : LoopId} {s : State} (h : (s.loop l.val).change = none ∨ (s.loop l.val).state = .frozen) :
    exec (.rangeSettleDone l) s = .next s := by
  refine congrArg Host.Outcome.next ?_
  rcases h with h | h
  · have hready : settleReady s l.val = none := by unfold settleReady; rw [h]
    rw [hready]
  · cases settleReady s l.val with
    | none => rfl
    | some c => exact if_pos h

/-! Swaps (R288 to R291, R294). -/

theorem loopIs_clipLaw {s t : State} {l : Nat} {x : LoopState} (time : Nat) (volt : Bool) (h : LoopIs s l x t) :
    ∃ a b, LoopIs s l { x with volt := a, curr := b } (clipLaw t l time volt) := by
  have hclip : ∀ (w : Law) (kind tt : Nat) (rest : List Byte), ∃ a b, LoopIs s l { x with volt := a, curr := b }
      (loopEvent (t.modLoop l (fun x => if volt then { x with volt := w } else { x with curr := w })) l kind tt rest) := by
    intro w kind tt rest
    have hmod := loopIs_loopEvent kind tt rest (loopIs_modLoop (fun x => if volt then { x with volt := w } else { x with curr := w }) h)
    cases volt with
    | true => exact ⟨w, x.curr, hmod⟩
    | false => exact ⟨x.volt, w, hmod⟩
  unfold clipLaw
  dsimp only
  generalize (if volt = true then (t.loop l).volt else (t.loop l).curr) = w
  split
  · exact ⟨x.volt, x.curr, h⟩
  · exact hclip _ _ _ _

/-- A loop whose swap takes effect (R288, R294). -/
def swapped (w : Swap) (region : Nat) (x : LoopState) : LoopState :=
  let x := if w.cause = 1 then { x with swap := none } else { x with regionSwap := none }
  if w.cause = 1 then { x with
    vActive := if w.volt then x.vStaged else x.vActive
    vStaged := if w.volt then x.vActive else x.vStaged
    iActive := if w.curr then x.iStaged else x.iActive
    iStaged := if w.curr then x.iActive else x.iStaged }
  else if region = 0xFF then { x with inUse := none }
  else { x with inUse := some region, regions := { x.regions with cur := region, known := true } }

theorem swapped_host {w : Swap} (h : w.cause = 1) (region : Nat) (x : LoopState) : swapped w region x = { x with
    swap := none
    vActive := if w.volt then x.vStaged else x.vActive
    vStaged := if w.volt then x.vActive else x.vStaged
    iActive := if w.curr then x.iStaged else x.iActive
    iStaged := if w.curr then x.iActive else x.iStaged } := by
  unfold swapped
  dsimp only
  rw [if_pos h, if_pos h]

theorem swapped_region {w : Swap} (h : w.cause ≠ 1) (region : Nat) (x : LoopState) : swapped w region x = { x with
    regionSwap := none
    inUse := if region = 0xFF then none else some region
    regions := if region = 0xFF then x.regions else { x.regions with cur := region, known := true } } := by
  unfold swapped
  dsimp only
  rw [if_neg h, if_neg h]
  split <;> rfl

theorem doSwap_is (s : State) (l time : Nat) (w : Swap) : ∃ a b, LoopIs s l
    { swapped w (if w.region = 0xFE then enabledRegion (s.loop l) else w.region) (s.loop l) with volt := a, curr := b } (doSwap s l time w) := by
  unfold doSwap
  dsimp only
  generalize (if w.region = 0xFE then enabledRegion (s.loop l) else w.region) = region
  have hfirst : LoopIs s l (swapped w region (s.loop l)) (s.modLoop l (swapped w region)) := loopIs_modLoop _ loopIs_refl
  generalize hv : loopEvent _ l 7 time _ = v
  have hevent : LoopIs s l (swapped w region (s.loop l)) v := hv ▸ loopIs_loopEvent 7 time _ hfirst
  generalize swapped w region (s.loop l) = x at hevent
  have hvolt : ∃ a b, LoopIs s l { x with volt := a, curr := b } (if w.volt then clipLaw v l time true else v) := by
    split
    · exact loopIs_clipLaw time true hevent
    · exact ⟨x.volt, x.curr, hevent⟩
  obtain ⟨a, b, hvolt⟩ := hvolt
  split
  · obtain ⟨a, b, h⟩ := loopIs_clipLaw time false hvolt
    exact ⟨a, b, h⟩
  · exact ⟨a, b, hvolt⟩

theorem le_boundaryFrom (s : State) (l t : Nat) : t ≤ boundaryFrom s l t := by
  unfold boundaryFrom
  dsimp only
  split
  · split
    · exact le_rfl
    · have := le_roundUp (t - (s.stage (s.loop l).stageId).offset) (m := 160000 * (s.stage (s.loop l).stageId).period) (by omega)
      omega
  · exact le_roundUp _ (by unfold loopPeriod; split <;> omega)

theorem dueBoundary_le (s : State) (l due : Nat) : max due (nextBoundary s l) ≤ dueBoundary s l due := le_boundaryFrom ..

theorem dueBoundary_due (s : State) (l due : Nat) : due ≤ dueBoundary s l due := (le_max_left ..).trans (dueBoundary_le ..)

theorem dueBoundary_mod {s : State} {l : Nat} (h : (s.loop l).stage ≠ 2) (due : Nat) : dueBoundary s l due % loopPeriod l = 0 := by
  unfold dueBoundary boundaryFrom
  rw [if_neg h]
  exact roundUp_mod _ _

theorem le_reach_time (s : State) (t : Nat) : t ≤ (s.reach t).clk.time := le_max_right _ _

/-- A waiting COEF_SWAP is answered, or nothing changes. -/
theorem answerSwap_parts (s : State) : ∃ m f k, answerSwap s = { s with mb := m, fw := { s.fw with current := f }, link := k } := by
  unfold answerSwap
  split
  · cases hcur : s.fw.current with
    | none => exact ⟨_, _, _, rfl⟩
    | some c =>
      dsimp only
      split
      · exact ⟨_, _, _, rfl⟩
      · obtain ⟨heq, -⟩ := postResponse_answered s c 0 0 c.reply hcur
        exact ⟨_, _, _, heq⟩
  · exact ⟨_, _, _, rfl⟩

theorem answerSwap_answers {s : State} {c : Current} (hcur : s.fw.current = some c) (hwait : c.wait = .coefSwap)
    (hdone : ∀ k ∈ loopRange c 0, (s.loop k).swap = none) : Answered c 0 0 c.reply s (answerSwap s) := by
  have hnone : (loopRange c 0).any (fun l => (s.loop l).swap.isSome) = false := by
    refine List.any_eq_false.2 fun k hk => ?_
    rw [hdone k hk]
    decide
  unfold answerSwap
  rw [if_pos (by rw [waitsFor, hcur]; exact decide_eq_true hwait), hcur]
  dsimp only
  rw [hnone]
  exact postResponse_answered s c 0 0 c.reply hcur

theorem coefSwapDue_swaps {l : LoopId} {s : State} {w : Swap} (hregion : (s.loop l.val).regionSwap = none) (hswap : (s.loop l.val).swap = some w)
    (hstate : (s.loop l.val).state ≠ .frozen) (hcause : w.cause = 1) :
    ∃ t, exec (.coefSwapDue l) s = .next t ∧ (t.loop l.val).swap = none ∧ w.due ≤ t.clk.time ∧
      (w.volt = true → (t.loop l.val).vActive = (s.loop l.val).vStaged ∧ (t.loop l.val).vStaged = (s.loop l.val).vActive) ∧
      (w.volt = false → (t.loop l.val).vActive = (s.loop l.val).vActive ∧ (t.loop l.val).vStaged = (s.loop l.val).vStaged) ∧
      (w.curr = false → (t.loop l.val).iActive = (s.loop l.val).iActive ∧ (t.loop l.val).iStaged = (s.loop l.val).iStaged) ∧
      (w.curr = true → (t.loop l.val).iActive = (s.loop l.val).iStaged ∧ (t.loop l.val).iStaged = (s.loop l.val).iActive) ∧
      (t.loop l.val).demand = (s.loop l.val).demand ∧ (t.loop l.val).inUse = (s.loop l.val).inUse ∧ (∀ k, k ≠ l.val → t.loop k = s.loop k) ∧
      (∀ x, s.fw.current = some x → x.wait = .coefSwap → (∀ k ∈ loopRange x 0, k ≠ l.val → (s.loop k).swap = none) → ∃ u, Answered x 0 0 x.reply u t) ∧
      t = { s with clk := { s.clk with time := t.clk.time }, mb := t.mb, fw := { s.fw with current := t.fw.current }, lp := { s.lp with loop := t.lp.loop }, harv := t.harv, link := t.link, flt := { s.flt with block := t.flt.block, waiting := t.flt.waiting } } := by
  generalize hb : dueBoundary s l.val w.due = b
  have hdue : w.due ≤ b := hb ▸ dueBoundary_due s l.val w.due
  have htake : takeSwap (s.reach b) l.val b none = s.reach b := rfl
  have hexec : exec (.coefSwapDue l) s = .next (answerSwap (doSwap (s.reach b) l.val b w)) := by
    refine congrArg Host.Outcome.next ?_
    dsimp only
    rw [hregion, hswap]
    refine (if_neg hstate).trans ?_
    rw [hb]
    unfold swapDue
    rw [reach_loop, hregion, htake]
    dsimp only
    rw [reach_loop, hswap]
    refine (if_pos rfl).trans (congrArg answerSwap ?_)
    exact if_pos ⟨hdue, hstate⟩
  refine ⟨_, hexec, ?_⟩
  obtain ⟨a, c, hloop, hother, q, h, k, n, hv⟩ := doSwap_is (s.reach b) l.val b w
  generalize doSwap (s.reach b) l.val b w = v at hloop hother hv ⊢
  rw [swapped_host hcause, reach_loop] at hloop
  have hlast : ∀ x, s.fw.current = some x → x.wait = .coefSwap → (∀ k ∈ loopRange x 0, k ≠ l.val → (s.loop k).swap = none) →
      ∃ u, Answered x 0 0 x.reply u (answerSwap v) := by
    intro x hcur hwait hothers
    refine ⟨v, answerSwap_answers (by rw [hv]; exact hcur) hwait fun j hmem => ?_⟩
    by_cases hjl : j = l.val
    · rw [hjl, hloop]
    · rw [hother j hjl]
      exact hothers j hmem hjl
  obtain ⟨m, f, z, ht⟩ := answerSwap_parts v
  have hsame : ∀ k, (answerSwap v).loop k = v.loop k := fun k => by rw [ht]; rfl
  have htime : (answerSwap v).clk = (s.reach b).clk := by rw [ht, hv]
  rw [hsame, hloop]
  refine ⟨rfl, ?_, fun h => ?_, fun h => ?_, fun h => ?_, fun h => ?_, rfl, rfl, fun k hne => (hsame k).trans (hother k hne), hlast, ?_⟩
  · rw [htime]
    exact hdue.trans (le_reach_time s b)
  · exact ⟨if_pos h, if_pos h⟩
  · exact ⟨if_neg (ne_true_of_eq_false h), if_neg (ne_true_of_eq_false h)⟩
  · exact ⟨if_neg (ne_true_of_eq_false h), if_neg (ne_true_of_eq_false h)⟩
  · exact ⟨if_pos h, if_pos h⟩
  · rw [ht, hv]
    rfl

theorem coefSwapDue_region {l : LoopId} {s : State} {w : Swap} (hregion : (s.loop l.val).regionSwap = some w) (hswap : (s.loop l.val).swap = none)
    (hstate : (s.loop l.val).state ≠ .frozen) (hcause : w.cause ≠ 1) :
    ∃ t, exec (.coefSwapDue l) s = .next t ∧ (t.loop l.val).regionSwap = none ∧ w.due ≤ t.clk.time ∧
      (w.region < 8 → (t.loop l.val).inUse = some w.region ∧ (t.loop l.val).regions.cur = w.region) ∧
      (w.region = 0xFF → (t.loop l.val).inUse = none) ∧ (t.loop l.val).vActive = (s.loop l.val).vActive ∧
      (t.loop l.val).iActive = (s.loop l.val).iActive ∧ (t.loop l.val).demand = (s.loop l.val).demand ∧ (∀ k, k ≠ l.val → t.loop k = s.loop k) ∧
      t = { s with clk := { s.clk with time := t.clk.time }, lp := { s.lp with loop := t.lp.loop }, harv := t.harv, flt := { s.flt with block := t.flt.block, waiting := t.flt.waiting } } := by
  generalize hb : dueBoundary s l.val w.due = b
  have hdue : w.due ≤ b := hb ▸ dueBoundary_due s l.val w.due
  have htake : takeSwap (s.reach b) l.val b (some w) = doSwap (s.reach b) l.val b w := if_pos ⟨hdue, hstate⟩
  obtain ⟨a, c, hloop, hother, q, h, k, n, hv⟩ := doSwap_is (s.reach b) l.val b w
  rw [swapped_region hcause, reach_loop] at hloop
  have hexec : exec (.coefSwapDue l) s = .next (doSwap (s.reach b) l.val b w) := by
    refine congrArg Host.Outcome.next ?_
    dsimp only
    rw [hregion]
    refine (if_neg hstate).trans ?_
    rw [hb]
    unfold swapDue
    rw [reach_loop, hregion, htake]
    dsimp only
    rw [hloop]
    dsimp only
    rw [hswap]
    rfl
  refine ⟨_, hexec, ?_⟩
  generalize doSwap (s.reach b) l.val b w = v at hloop hother hv ⊢
  rw [hloop]
  refine ⟨rfl, ?_, fun h => ?_, fun h => ?_, rfl, rfl, rfl, hother, ?_⟩
  · rw [hv]
    exact hdue.trans (le_reach_time s b)
  · dsimp only
    rw [if_neg (by omega : w.region ≠ 0xFE), if_neg (by omega : w.region ≠ 0xFF), if_neg (by omega : w.region ≠ 0xFF)]
    exact ⟨rfl, rfl⟩
  · dsimp only
    rw [if_neg (by omega : w.region ≠ 0xFE), if_pos h]
  · rw [hv]
    rfl

theorem coefSwapDue_waits {l : LoopId} {s : State} (hregion : (s.loop l.val).regionSwap = none) (hswap : (s.loop l.val).swap = none) :
    exec (.coefSwapDue l) s = .next s := by
  refine congrArg Host.Outcome.next ?_
  dsimp only
  rw [hregion, hswap]
  rfl

/-! Dissipation (R237, R238). -/

theorem stageDiss_raises {h : Heavy} {s : State} (hover : (s.loop (512 + h.val)).dissOver = 64) :
    ∃ t, exec (.stageDiss h) s = .next t ∧ t.flt.waiting = s.flt.waiting ++
        [{ block := h.val / 2, source := 4, d0 := w16 (512 + h.val), d1 := 0, forced := false, stamp := f3 s.clk.time }] ∧
      (t.fblk (h.val / 2)).live.getLsbD 4 = true ∧ (∀ k, k ≠ h.val / 2 → t.fblk k = s.fblk k) ∧
      t.loop (512 + h.val) = { s.loop (512 + h.val) with dissOver := 65 } ∧ (∀ k, k ≠ 512 + h.val → t.loop k = s.loop k) ∧
      t = { s with lp := { s.lp with loop := t.lp.loop }, flt := { s.flt with block := t.flt.block, waiting := t.flt.waiting } } :=
  ⟨_, congrArg Host.Outcome.next (if_pos hover), modLoop_raise (srcEvent_diss (b := h.val / 2) (by have := h.isLt; omega)) (by decide) rfl⟩

/-- A sum over the members that satisfy `p`. -/
theorem sum_map_filter (p : Nat → Bool) (f : Nat → Nat) (l : List Nat) : ((l.filter p).map f).sum = (l.map (fun x => if p x then f x else 0)).sum := by
  induction l with
  | nil => rfl
  | cons x l ih =>
    rw [List.map_cons, List.sum_cons, ← ih]
    cases h : p x with
    | true => rw [List.filter_cons_of_pos h, List.map_cons, List.sum_cons, if_pos rfl]
    | false => rw [List.filter_cons_of_neg (ne_true_of_eq_false h), if_neg Bool.false_ne_true, Nat.zero_add]

/-- The on-chip stages. -/
def chipStages (s : State) : List Nat := (rangeFrom 512 32).filter (fun l => decide ((s.loop l).stage = 0))

/-- A stage's mean dissipation over the interval. -/
def meanDiss (s : State) (l : Nat) : Nat := if (s.loop l).dissCount = 0 then 0 else (s.loop l).dissSum / (s.loop l).dissCount

/-- The budget of a stage at a total (R238). -/
def nextBudget (total p : Nat) : Nat :=
  if 8000000000 < total then p * 8000000000 / total
  else if total < 7500000000 then min 1000000000 (p + 62500000) else p

theorem mem_chipStages {s : State} {l : Nat} : l ∈ chipStages s ↔ (512 ≤ l ∧ l < 544) ∧ (s.loop l).stage = 0 := by
  rw [chipStages, List.mem_filter, mem_rangeFrom, decide_eq_true_iff]

theorem sum_meanDiss (s : State) : ((chipStages s).map (meanDiss s)).sum =
    (((List.range 32).map (fun h => 512 + h)).map (fun l => if (s.loop l).stage = 0 ∧ (s.loop l).dissCount ≠ 0 then (s.loop l).dissSum / (s.loop l).dissCount else 0)).sum := by
  rw [chipStages, sum_map_filter]
  refine congrArg List.sum (List.map_congr_left fun l _ => ?_)
  unfold meanDiss
  by_cases hstage : (s.loop l).stage = 0
  · by_cases hcount : (s.loop l).dissCount = 0
    · rw [if_pos (decide_eq_true hstage), if_pos hcount, if_neg fun h => h.2 hcount]
    · rw [if_pos (decide_eq_true hstage), if_neg hcount, if_pos ⟨hstage, hcount⟩]
  · rw [if_neg (by simpa using hstage), if_neg fun h => hstage h.1]

theorem foldl_modLoop_loop (f : LoopState → LoopState) {l : List Nat} (hl : l.Nodup) (s : State) (k : Nat) :
    (l.foldl (fun (s : State) k => s.modLoop k f) s).loop k = if k ∈ l then f (s.loop k) else s.loop k :=
  foldl_keyed (get := State.loop) (step := fun (s : State) k => s.modLoop k f) (f := fun _ => f) (fun _ _ _ => State.modLoop_loop ..) hl s k

theorem foldl_modLoop_parts (f : LoopState → LoopState) (l : List Nat) (s : State) :
    ∃ p, l.foldl (fun (s : State) k => s.modLoop k f) s = { s with lp := { s.lp with loop := p } } :=
  ⟨_, congrArg (fun v : State => { v with lp := { v.lp with loop := (l.foldl (fun (s : State) k => s.modLoop k f) s).lp.loop } })
    (foldl_same (F := fun v : State => { v with lp := { v.lp with loop := [] } }) (step := fun (s : State) k => s.modLoop k f) (fun _ _ => rfl) l s)⟩

theorem chipDissUpdate_budgets {s : State} {total : Nat} (htotal : total = ((chipStages s).map (meanDiss s)).sum) :
    ∃ t, exec .chipDissUpdate s = .next t ∧ t.lp.dissTime % 51200 = 0 ∧ s.lp.dissTime < t.lp.dissTime ∧ t.clk.time = max s.clk.time t.lp.dissTime ∧
      (∀ l ∈ chipStages s, t.loop l = { s.loop l with pMax := nextBudget total (s.loop l).pMax, dissSum := 0, dissCount := 0 }) ∧
      (∀ l, l ∉ chipStages s → t.loop l = s.loop l) ∧
      t = { s with clk := { s.clk with time := t.clk.time }, lp := { s.lp with loop := t.lp.loop, dissTime := t.lp.dissTime } } := by
  generalize hb : roundUp (max s.clk.time (s.lp.dissTime + 1)) 51200 = b
  have hlate : s.lp.dissTime < b := by
    have hle := le_roundUp (max s.clk.time (s.lp.dissTime + 1)) (m := 51200) (by omega)
    rw [hb] at hle
    omega
  generalize hf : (fun x : LoopState => { x with pMax := nextBudget total x.pMax, dissSum := 0, dissCount := 0 }) = f
  have hexec : exec .chipDissUpdate s = .next { (chipStages s).foldl (fun (s : State) l => s.modLoop l f) (s.reach b) with
      lp := { ((chipStages s).foldl (fun (s : State) l => s.modLoop l f) (s.reach b)).lp with dissTime := b } } := by
    rw [← hf, ← hb, htotal]
    rfl
  refine ⟨_, hexec, ?_⟩
  have hnodup : (chipStages s).Nodup := (nodup_rangeFrom 512 32).filter _
  have hloop := foldl_modLoop_loop f hnodup (s.reach b)
  obtain ⟨p, hparts⟩ := foldl_modLoop_parts f (chipStages s) (s.reach b)
  have hmem : ∀ l, l ∈ chipStages s ∨ l ∉ chipStages s := fun l => em _
  generalize hst : chipStages s = st at *
  generalize st.foldl (fun (s : State) l => s.modLoop l f) (s.reach b) = v at hloop hparts ⊢
  have hget : ∀ l, ({ v with lp := { v.lp with dissTime := b } } : State).loop l = v.loop l := fun _ => rfl
  refine ⟨hb ▸ roundUp_mod _ _, hlate, ?_, fun l hl => ?_, fun l hl => ?_, ?_⟩
  · rw [hparts]
    rfl
  · rw [hget, hloop, if_pos hl, ← hf]
    rfl
  · rw [hget, hloop, if_neg hl]
    rfl
  · rw [hparts]
    rfl

theorem chipDissUpdate_stages {s : State} {total : Nat} (htotal : total = (((List.range 32).map (fun h => 512 + h)).map (fun l => if (s.loop l).stage = 0 ∧ (s.loop l).dissCount ≠ 0 then (s.loop l).dissSum / (s.loop l).dissCount else 0)).sum) :
    ∃ t, exec .chipDissUpdate s = .next t ∧ t.lp.dissTime % 51200 = 0 ∧ s.lp.dissTime < t.lp.dissTime ∧ t.clk.time = max s.clk.time t.lp.dissTime ∧
      (∀ h, h < 32 → (s.loop (512 + h)).stage = 0 → t.loop (512 + h) = { s.loop (512 + h) with dissSum := 0, dissCount := 0, pMax := (t.loop (512 + h)).pMax } ∧
        (8000000000 < total → (t.loop (512 + h)).pMax = (s.loop (512 + h)).pMax * 8000000000 / total) ∧
        (total < 7500000000 → (t.loop (512 + h)).pMax = min 1000000000 ((s.loop (512 + h)).pMax + 62500000)) ∧
        (7500000000 ≤ total → total ≤ 8000000000 → (t.loop (512 + h)).pMax = (s.loop (512 + h)).pMax)) ∧
      (∀ l, (l < 512 ∨ 544 ≤ l ∨ (s.loop l).stage ≠ 0) → t.loop l = s.loop l) ∧
      t = { s with clk := { s.clk with time := t.clk.time }, lp := { s.lp with loop := t.lp.loop, dissTime := t.lp.dissTime } } := by
  obtain ⟨t, ht, hmod, hlate, hclk, hin, hout, hparts⟩ := chipDissUpdate_budgets (htotal.trans (sum_meanDiss s).symm)
  refine ⟨t, ht, hmod, hlate, hclk, fun h hh hstage => ?_, fun l hl => hout l fun hmem => ?_, hparts⟩
  · rw [hin _ (mem_chipStages.2 ⟨by omega, hstage⟩)]
    refine ⟨rfl, fun hhigh => if_pos hhigh, fun hlow => ?_, fun hge hle => ?_⟩
    · exact (if_neg (by omega)).trans (if_pos hlow)
    · exact (if_neg (by omega)).trans (if_neg (by omega))
  · obtain ⟨⟨hlo, hhi⟩, hstage⟩ := mem_chipStages.1 hmem
    rcases hl with hl | hl | hl
    · omega
    · omega
    · exact hl hstage

/-! Codes (R234, R236): a loop's scale reads the calibration in use, its stages and the loop's binding alone. -/

/-- Loop `l` has the same scale in both states. -/
structure SameScale (l : Nat) (s v : State) : Prop where
  ser : v.ser = s.ser
  cal : v.cal = s.cal
  stage : (v.loop l).stage = (s.loop l).stage
  stageId : (v.loop l).stageId = (s.loop l).stageId
  gang : (v.loop l).gang = (s.loop l).gang

section
variable {l : Nat} {s v : State}

theorem stageWord_congr (h : SameScale l s v) (i : Nat) : stageWord v l i = stageWord s l i := by
  unfold stageWord State.stage
  rw [h.ser, h.stageId]

theorem fsCurr_congr (h : SameScale l s v) (r : Nat) : fsCurr v l r = fsCurr s l r := by
  unfold fsCurr
  rw [stageWord_congr h, h.gang]

theorem fsVolt_congr (h : SameScale l s v) (r : Nat) : fsVolt v l r = fsVolt s l r := by
  unfold fsVolt
  rw [stageWord_congr h, h.stage]

theorem fsOf_congr (h : SameScale l s v) (volt : Bool) (i r : Nat) : fsOf v l volt i r = fsOf s l volt i r := by
  unfold fsOf
  rw [fsVolt_congr h, fsCurr_congr h]

theorem rangeCal_congr (h : SameScale l s v) (volt : Bool) (i r : Nat) : rangeCal v l volt i r = rangeCal s l volt i r := by
  have hbyte : calByte v = calByte s := by
    funext k
    unfold calByte
    rw [h.cal]
  unfold rangeCal calGain calOffset calNum
  rw [h.stage, hbyte]

theorem setCode_congr (h : SameScale l s v) (volt : Bool) (i r : Nat) (x : Frac) : setCode v l volt i r x = setCode s l volt i r x := by
  unfold setCode spanOf
  rw [rangeCal_congr h, fsOf_congr h]

theorem stepCode_congr (h : SameScale l s v) {i : Nat} (hstep : v.swp i = s.swp i) (hmode : (v.loop l).mode = (s.loop l).mode)
    (hirange : (v.loop l).irange = (s.loop l).irange) (hvrange : (v.loop l).vrange = (s.loop l).vrange) : stepCode v l i = stepCode s l i := by
  unfold stepCode
  dsimp only
  rw [setCode_congr h, hstep, hmode, hirange, hvrange]

end

/-! A sweep's first step (R265). -/

/-- The first step of the loop's sweep begins at `t`, and its dwell's samples start over. -/
def firstStep (s : State) (l t dwell : Nat) : State :=
  (modSweep s l (fun q => { q with begun := q.begun + 1, left := max 1 dwell, last := t, began := t, credit := q.granted, granted := false })).modAvg l
    (fun a => { a with recent := [], recentSkipped := 0 })

theorem sweepStep_begins {l : LoopId} {s : State} {r : SweepRun} {ts : Nat} (hsource : (s.loop l.val).source = .sweep r) (hstate : (s.loop l.val).state = .regulating)
    (hstart : r.start = .at ts) (hbegun : r.begun = 0) (hleft : r.left = 0) (hsteps : 0 < r.steps) (hmeas : (s.swp r.stepFirst).meas = false)
    (hrange : (s.swp r.stepFirst).irange = 7) (hended : (s.avg l.val).ended = none) :
    ∃ t b, exec (.sweepStep l) s = .next t ∧ ts ≤ b ∧ nextBoundary s l.val ≤ b ∧ ((s.loop l.val).stage ≠ 2 → b % loopPeriod l.val = 0) ∧
      t.clk.time = max s.clk.time b ∧ t.loop l.val = { s.loop l.val with setPoint := stepCode s l.val r.stepFirst, source := .sweep { r with begun := 1, left := max 1 (s.swp r.stepFirst).dwell, last := b, began := b, credit := r.granted, granted := false } } ∧
      (∀ k, k ≠ l.val → t.loop k = s.loop k) ∧ (∀ k, k ≠ l.val → t.avg k = s.avg k) ∧
      t = { s with clk := { s.clk with time := t.clk.time }, lp := { s.lp with loop := t.lp.loop }, meas := { s.meas with avg := t.meas.avg } } := by
  generalize hb : dueBoundary s l.val ts = b
  have hdue : ts ≤ b := hb ▸ dueBoundary_due s l.val ts
  have hnext : nextBoundary s l.val ≤ b := hb ▸ (le_max_right ..).trans (dueBoundary_le s l.val ts)
  have hstarted : started r.start b = true := by rw [hstart]; exact decide_eq_true hdue
  have hexec : exec (.sweepStep l) s = .next (sweepAdvance (s.reach b) l.val b) := by
    refine congrArg Host.Outcome.next ?_
    dsimp only
    rw [hsource]
    dsimp only
    rw [hstart]
    dsimp only
    simp only [show (if r.begun = 0 then dueBoundary s l.val ts else nextBoundary s l.val) = b from (if_pos hbegun).trans hb]
    refine if_neg ?_
    rintro (h | h | h)
    · omega
    · rw [← hstart, hstarted] at h
      exact absurd h (by decide)
    · exact h.1 hstate
  have hadvance : sweepAdvance (s.reach b) l.val b = sweepNext (s.reach b) l.val b r := by
    unfold sweepAdvance
    rw [reach_loop, hsource]
    dsimp only
    have hover : sweepOver r = false := by
      unfold sweepOver
      by_cases hp : r.passes = 0
      · rw [hp]; rfl
      · have hpos : r.begun ≠ r.steps * r.passes := by
          rw [hbegun]
          exact (Nat.mul_pos hsteps (Nat.pos_of_ne_zero hp)).ne
        rw [decide_eq_false hpos, Bool.and_false]
    have hnotOver : (!sweepOver r) = true := by rw [hover]; rfl
    have hrunning : ¬((!started r.start b) = true ∨ (r.last = b ∧ 0 < r.begun)) := by
      rw [hstarted, hbegun]
      exact fun h => h.elim (fun h => absurd h (by decide)) fun h => Nat.lt_irrefl 0 h.2
    have hidle : ¬(((s.reach b).avg l.val).ended.isSome = true) := by
      rw [show (s.reach b).avg l.val = s.avg l.val from rfl, hended]
      decide
    rw [if_neg hrunning, if_neg (show ¬1 < r.left by omega), if_neg hidle, if_pos hnotOver, if_neg (show ¬r.left = 1 by omega)]
  have hindex : r.stepFirst + r.begun % r.steps = r.stepFirst := by rw [hbegun, Nat.zero_mod, Nat.add_zero]
  have hnextEq : sweepNext (s.reach b) l.val b r = (firstStep (s.reach b) l.val b (s.swp r.stepFirst).dwell).modLoop l.val
      (fun x => { x with setPoint := stepCode (firstStep (s.reach b) l.val b (s.swp r.stepFirst).dwell) l.val r.stepFirst }) := by
    unfold sweepNext
    dsimp only
    rw [hindex]
    rw [show (s.reach b).swp r.stepFirst = s.swp r.stepFirst from rfl, hmeas, if_neg Bool.false_ne_true]
    dsimp only
    rw [if_neg (show ¬((!true) = true) by decide), if_neg fun h => h.1 hrange]
    rfl
  rw [hexec, hadvance, hnextEq]
  generalize hsrc : Source.sweep { r with begun := 1, left := max 1 (s.swp r.stepFirst).dwell, last := b, began := b, credit := r.granted, granted := false } = src
  have hvloop : (firstStep (s.reach b) l.val b (s.swp r.stepFirst).dwell).loop l.val = { s.loop l.val with source := src } := by
    change (modSweep (s.reach b) l.val _).loop l.val = _
    unfold modSweep
    rw [modLoop_same, reach_loop]
    dsimp only
    rw [hsource]
    dsimp only
    rw [hbegun, ← hsrc]
  have hvother : ∀ k, k ≠ l.val → (firstStep (s.reach b) l.val b (s.swp r.stepFirst).dwell).loop k = s.loop k := fun k hk => modLoop_ne _ _ hk
  have havg : ∀ k, k ≠ l.val → (firstStep (s.reach b) l.val b (s.swp r.stepFirst).dwell).avg k = s.avg k := fun k hk =>
    (State.modAvg_avg ..).trans (if_neg hk)
  have hvparts : ∃ p a, firstStep (s.reach b) l.val b (s.swp r.stepFirst).dwell = { s.reach b with lp := { s.lp with loop := p }, meas := { s.meas with avg := a } } :=
    ⟨_, _, rfl⟩
  generalize firstStep (s.reach b) l.val b (s.swp r.stepFirst).dwell = v at hvloop hvother havg hvparts ⊢
  obtain ⟨p, a, hvparts⟩ := hvparts
  have hcode : stepCode v l.val r.stepFirst = stepCode s l.val r.stepFirst := by
    refine stepCode_congr ⟨?_, ?_, ?_, ?_, ?_⟩ (by rw [hvparts]; rfl) ?_ ?_ ?_
    · rw [hvparts]
      rfl
    · rw [hvparts]
      rfl
    all_goals rw [hvloop]
  refine ⟨_, b, rfl, hdue, hnext, fun h => hb ▸ dueBoundary_mod h ts, ?_, ?_, fun k hk => ?_, havg, ?_⟩
  · rw [hvparts]
    rfl
  · refine (modLoop_same ..).trans ?_
    rw [hcode, hvloop, ← hsrc]
  · rw [modLoop_ne _ _ hk, hvother k hk]
  · rw [hvparts]
    rfl

theorem sweepStep_waits {l : LoopId} {s : State} (h : ∀ r, (s.loop l.val).source ≠ .sweep r) : exec (.sweepStep l) s = .next s := by
  refine congrArg Host.Outcome.next ?_
  dsimp only
  split
  next r heq => exact absurd heq (h r)
  next => rfl

/-! LOOP_FORCE at its boundary (R262, R270). -/

theorem exec_loopForceDue {l : LoopId} {s : State} {f : ForcePending} (hforce : (s.loop l.val).force = some f) (hstate : (s.loop l.val).state ≠ .frozen) :
    exec (.loopForceDue l) s = .next (applyForce (s.reach (dueBoundary s l.val f.due)) l.val (dueBoundary s l.val f.due)) := by
  refine congrArg Host.Outcome.next ?_
  rw [hforce]
  exact if_neg hstate

theorem loopForceDue_waits {l : LoopId} {s : State} (h : (s.loop l.val).force = none ∨ (s.loop l.val).state = .frozen) : exec (.loopForceDue l) s = .next s := by
  refine congrArg Host.Outcome.next ?_
  rcases h with h | h
  · rw [h]
  · cases (s.loop l.val).force with
    | none => rfl
    | some f => exact if_pos h

/-- The loop once a LOOP_FORCE is taken up. -/
abbrev forceTaken (s : State) (l t : Nat) : State := (s.reach t).modLoop l (fun x => { x with force := none })

theorem primaryVolt_eq {m : Nat} (h : m < 2) : primaryVolt m = decide (m = 0) := by
  unfold primaryVolt
  exact decide_eq_decide.2 (by omega)

theorem sameScale_modLoop {s : State} {l t : Nat} {f : LoopState → LoopState} (hstage : (f (s.loop l)).stage = (s.loop l).stage)
    (hid : (f (s.loop l)).stageId = (s.loop l).stageId) (hgang : (f (s.loop l)).gang = (s.loop l).gang) :
    SameScale l s ((s.reach t).modLoop l f) := by
  refine ⟨rfl, rfl, ?_, ?_, ?_⟩ <;> rw [modLoop_same, reach_loop] <;> assumption

/-- A change that is not a STOP, in the mode that the loop is in (R270). -/
theorem applyForce_same {s : State} {l t : Nat} {f : ForcePending} (hforce : (s.loop l).force = some f) (hdue : f.due ≤ t) (hstate : (s.loop l).state = .regulating)
    (hmode : f.mode < 2) (hsame : (s.loop l).mode = f.mode) : applyForce (s.reach t) l t =
      ((forceTaken s l t).modLoop l (fun x => { x with chargeHold := false })).modLoop l (fun x => { x with
        setPoint := setCode (forceTaken s l t) l (primaryVolt f.mode) (s.loop l).irange (s.loop l).vrange (f32 f.value) }) := by
  unfold applyForce
  dsimp only
  rw [reach_loop, hforce]
  dsimp only
  rw [if_neg (by rw [hstate]; rintro (h | h); exacts [by omega, absurd h (by decide)]), if_neg (by rw [hstate]; decide), if_neg (by omega), if_neg (by omega : ¬f.mode = 2),
    if_neg (by rw [hstate]; decide), if_pos hsame.symm]

theorem loopForceDue_changes {l : LoopId} {s : State} {f : ForcePending} (hforce : (s.loop l.val).force = some f) (hstate : (s.loop l.val).state = .regulating)
    (hmode : f.mode < 2) (hsame : (s.loop l.val).mode = f.mode) :
    ∃ t, exec (.loopForceDue l) s = .next t ∧ t.loop l.val = { s.loop l.val with force := none, chargeHold := false, setPoint := setCode s l.val (decide (f.mode = 0)) (s.loop l.val).irange (s.loop l.val).vrange (f32 f.value) } ∧
      f.due ≤ t.clk.time ∧ (∀ k, k ≠ l.val → t.loop k = s.loop k) ∧
      t = { s with clk := { s.clk with time := t.clk.time }, lp := { s.lp with loop := t.lp.loop } } := by
  refine ⟨_, exec_loopForceDue hforce (by rw [hstate]; decide), ?_⟩
  have hdue := dueBoundary_due s l.val f.due
  generalize dueBoundary s l.val f.due = b at hdue ⊢
  have hcode : setCode (forceTaken s l.val b) l.val (primaryVolt f.mode) (s.loop l.val).irange (s.loop l.val).vrange (f32 f.value) =
      setCode s l.val (decide (f.mode = 0)) (s.loop l.val).irange (s.loop l.val).vrange (f32 f.value) := by
    rw [setCode_congr (sameScale_modLoop rfl rfl rfl), primaryVolt_eq hmode]
  rw [applyForce_same hforce hdue hstate hmode hsame, hcode]
  refine ⟨?_, hdue.trans (le_reach_time s b), fun k hk => ?_, rfl⟩
  · rw [modLoop_same, modLoop_same, modLoop_same, reach_loop]
  · rw [modLoop_ne _ _ hk, modLoop_ne _ _ hk, modLoop_ne _ _ hk, reach_loop]

/-- A start from STOPPED (R270): the loop regulates, its output by `startOutput`. -/
def startedLoop (t : Nat) (f : ForcePending) (sp : Int) (x : LoopState) : LoopState :=
  startOutput t f { x with mode := f.mode, setPoint := sp, lastSet := sp, state := .regulating, regions := { x.regions with starting := true } }

theorem applyForce_start {s : State} {l t : Nat} {f : ForcePending} (hforce : (s.loop l).force = some f) (hdue : f.due ≤ t) (hstate : (s.loop l).state = .stopped)
    (hmode : f.mode ≤ 2) : applyForce (s.reach t) l t =
      followLeader (((forceTaken s l t).modLoop l (fun x => { x with chargeHold := false })).modLoop l (startedLoop t f
        (if f.mode = 2 then 0 else setCode (forceTaken s l t) l (primaryVolt f.mode) (s.loop l).irange (s.loop l).vrange (f32 f.value)))) l := by
  unfold applyForce
  dsimp only
  rw [reach_loop, hforce]
  dsimp only
  rw [if_neg (by rw [hstate]; rintro (h | h); exacts [by omega, absurd h (by decide)]), if_neg (by rw [hstate]; decide), if_neg (by omega), if_pos hstate]
  rfl

/-- The members of the loop's gang alone follow a change of it, and take free values. -/
theorem followLeader_parts (s : State) (l : Nat) : ∃ n p, followLeader s l = { s with free := n, lp := { s.lp with loop := p } } := by
  unfold followLeader
  exact ⟨_, _, congrArg (fun v : State => { v with free := (followLeader s l).free, lp := { v.lp with loop := (followLeader s l).lp.loop } })
    (foldl_same (F := fun v : State => { v with free := 0, lp := { v.lp with loop := [] } }) (step := fun (v : State) k => v.takeFree.modLoop k (fun y => { y with
      demand := clampI (-32768) 32767 ((s.loop l).demand + shareOf v (s.loop l).demand)
      isOpen := (s.loop l).isOpen, irange := (s.loop l).irange, vrange := (s.loop l).vrange })) (fun _ _ => rfl) (rangeFrom (l + 1) ((s.loop l).gang - 1)) s)⟩

/-- What a start leaves of the loop, by the mode and the stage. -/
theorem startedLoop_parts (t : Nat) (f : ForcePending) (sp : Int) (x : LoopState) :
    (startedLoop t f sp x).force = x.force ∧ (startedLoop t f sp x).state = .regulating ∧ (startedLoop t f sp x).mode = f.mode ∧
    (startedLoop t f sp x).setPoint = sp ∧ (startedLoop t f sp x).gang = x.gang ∧
    (f.mode = 2 → (startedLoop t f sp x).isOpen = true ∧ (startedLoop t f sp x).measure = none) ∧
    (f.mode < 2 → x.stage ≠ 2 → x.isOpen = true → (startedLoop t f sp x).isOpen = true ∧ (startedLoop t f sp x).measure.isSome = true) ∧
    (f.mode < 2 → x.stage = 2 → (startedLoop t f sp x).isOpen = false) := by
  unfold startedLoop startOutput
  dsimp only
  split
  next h => exact ⟨rfl, rfl, rfl, rfl, rfl, fun _ => ⟨rfl, rfl⟩, fun hlt => by omega, fun hlt => by omega⟩
  next h =>
    split
    next hstage => exact ⟨rfl, rfl, rfl, rfl, rfl, fun hm => absurd hm h, fun _ hne => absurd hstage hne, fun _ _ => rfl⟩
    next hstage =>
      split
      next hopen => exact ⟨rfl, rfl, rfl, rfl, rfl, fun hm => absurd hm h, fun _ _ ho => ⟨ho, rfl⟩, fun _ hst => absurd hst hstage⟩
      next hopen => exact ⟨rfl, rfl, rfl, rfl, rfl, fun hm => absurd hm h, fun _ _ ho => absurd ho hopen, fun _ hst => absurd hst hstage⟩

theorem loopForceDue_starts {l : LoopId} {s : State} {f : ForcePending} (hforce : (s.loop l.val).force = some f) (hstate : (s.loop l.val).state = .stopped)
    (hopen : (s.loop l.val).isOpen = true) (hmode : f.mode ≤ 2) :
    ∃ t, exec (.loopForceDue l) s = .next t ∧ (t.loop l.val).force = none ∧ (t.loop l.val).state = .regulating ∧ (t.loop l.val).mode = f.mode ∧
      (f.mode < 2 → (t.loop l.val).setPoint = setCode s l.val (decide (f.mode = 0)) (s.loop l.val).irange (s.loop l.val).vrange (f32 f.value)) ∧
      (f.mode = 2 → (t.loop l.val).isOpen = true ∧ (t.loop l.val).measure = none) ∧
      (f.mode < 2 → (s.loop l.val).stage ≠ 2 → (t.loop l.val).isOpen = true ∧ (t.loop l.val).measure.isSome = true) ∧
      (f.mode < 2 → (s.loop l.val).stage = 2 → (t.loop l.val).isOpen = false) ∧ f.due ≤ t.clk.time ∧
      (∀ k, (k < l.val ∨ l.val + (s.loop l.val).gang ≤ k) → k ≠ l.val → t.loop k = s.loop k) ∧
      t = { s with free := t.free, clk := { s.clk with time := t.clk.time }, lp := { s.lp with loop := t.lp.loop } } := by
  refine ⟨_, exec_loopForceDue hforce (by rw [hstate]; decide), ?_⟩
  have hdue := dueBoundary_due s l.val f.due
  generalize dueBoundary s l.val f.due = b at hdue ⊢
  rw [applyForce_start hforce hdue hstate hmode]
  have hsp : f.mode < 2 → (if f.mode = 2 then 0 else setCode (forceTaken s l.val b) l.val (primaryVolt f.mode) (s.loop l.val).irange (s.loop l.val).vrange (f32 f.value)) =
      setCode s l.val (decide (f.mode = 0)) (s.loop l.val).irange (s.loop l.val).vrange (f32 f.value) := fun hlt => by
    rw [if_neg (by omega), setCode_congr (sameScale_modLoop rfl rfl rfl), primaryVolt_eq hlt]
  generalize (if f.mode = 2 then 0 else setCode (forceTaken s l.val b) l.val (primaryVolt f.mode) (s.loop l.val).irange (s.loop l.val).vrange (f32 f.value)) = sp at hsp ⊢
  generalize hv : ((forceTaken s l.val b).modLoop l.val (fun x => { x with chargeHold := false })).modLoop l.val (startedLoop b f sp) = v
  have hloop : v.loop l.val = startedLoop b f sp { s.loop l.val with force := none, chargeHold := false } := by
    rw [← hv, modLoop_same, modLoop_same, modLoop_same, reach_loop]
  have hother : ∀ k, k ≠ l.val → v.loop k = s.loop k := fun k hk => by
    rw [← hv, modLoop_ne _ _ hk, modLoop_ne _ _ hk, modLoop_ne _ _ hk, reach_loop]
  have hparts : ∃ p, v = { s.reach b with lp := { s.lp with loop := p } } := ⟨_, by rw [← hv]; rfl⟩
  obtain ⟨hf, hst, hm, hset, hgang, hmv, hmeas, hext⟩ := startedLoop_parts b f sp { s.loop l.val with force := none, chargeHold := false }
  rw [← hloop] at hf hst hm hset hgang hmv hmeas hext
  have hself := followLeader_loop v l.val l.val (.inl le_rfl)
  obtain ⟨n, p, hfollow⟩ := followLeader_parts v l.val
  obtain ⟨q, hparts⟩ := hparts
  rw [hself]
  refine ⟨hf, hst, hm, fun hlt => hset.trans (hsp hlt), hmv, fun hlt hne => hmeas hlt hne hopen, hext, ?_, fun k hout hk => ?_, ?_⟩
  · rw [hfollow, hparts]
    exact hdue.trans (le_reach_time s b)
  · rw [followLeader_loop v l.val k (by rw [hgang]; exact hout.imp le_of_lt id), hother k hk]
  · rw [hfollow, hparts]
    rfl

/-- A range change that ends early leaves nothing of it; a LOOP_RANGE that waits is answered (R257). -/
theorem dropRange_parts (s : State) (l : Nat) (b : Bad) :
    (∃ st, (dropRange s l b).loop l = { s.loop l with change := none, changeNext := none, autoGoal := none, state := st }) ∧
    (∀ k, k ≠ l → (dropRange s l b).loop k = s.loop k) ∧
    ∃ m c k p, dropRange s l b = { s with mb := m, fw := { s.fw with current := c }, link := k, lp := { s.lp with loop := p } } := by
  unfold dropRange
  dsimp only
  split
  next h =>
    obtain ⟨⟨hc, hn⟩, hg⟩ : ((s.loop l).change = none ∧ (s.loop l).changeNext = none) ∧ (s.loop l).autoGoal = none := by simpa [and_assoc] using h
    refine ⟨⟨(s.loop l).state, ?_⟩, fun _ _ => rfl, _, _, _, _, rfl⟩
    rw [← hc, ← hn, ← hg]
  next h =>
    generalize hv : State.modLoop s l _ = v
    have hloop : ∃ st, v.loop l = { s.loop l with change := none, changeNext := none, autoGoal := none, state := st } := ⟨_, by rw [← hv, modLoop_same]⟩
    have hother : ∀ k, k ≠ l → v.loop k = s.loop k := fun k hk => by rw [← hv, modLoop_ne _ _ hk]
    have hparts : ∃ p, v = { s with lp := { s.lp with loop := p } } := ⟨_, by rw [← hv]; rfl⟩
    obtain ⟨p, hparts⟩ := hparts
    cases hcur : v.fw.current with
    | none => exact ⟨hloop, hother, _, _, _, _, hparts⟩
    | some c =>
      dsimp only
      split
      · obtain ⟨heq, -⟩ := postResponse_answered v c b.1 b.2 [] hcur
        have hsame : ∀ k, (postBad v b).loop k = v.loop k := fun k => by
          rw [show postBad v b = postResponse v b.1 b.2 [] from rfl, heq]
          rfl
        refine ⟨by rw [hsame]; exact hloop, fun k hk => (hsame k).trans (hother k hk), (postBad v b).mb, none, (postBad v b).link, p, ?_⟩
        refine heq.trans ?_
        rw [hparts]
        rfl
      · exact ⟨hloop, hother, _, _, _, _, hparts⟩

/-- A loop that a STOP takes (R262, R269, R270). -/
def halted (x : LoopState) : LoopState :=
  { clearCounts x with
    handoff := leftLimit x
    state := .stopped
    isOpen := if x.stopHold then x.isOpen else true
    demand := if x.stopHold then x.demand else x.powerUp
    measure := none
    rate := 0
    accel := 0
    chargeHold := false
    chargeOut := false }

theorem haltLoop_eq (s : State) (l t : Nat) : haltLoop s l t =
    followLeader (tripLive (moveForceDac ((endClip (dropRange s l (0x13, 5)) l t).modLoop l halted) l) l) l := rfl

theorem moveForceDac_parts (s : State) (l : Nat) : ∃ d, moveForceDac s l = { s with pins := { s.pins with dac := d } } := ⟨_, rfl⟩

theorem tripLive_parts (s : State) (l : Nat) : ∃ b, tripLive s l = { s with flt := { s.flt with block := b } } := by
  unfold tripLive
  split
  · exact ⟨_, rfl⟩
  · exact live_parts s (loopBed l) 1 false

/-- A STOP ends what the loop was doing; besides, it may answer a LOOP_RANGE and make a record. -/
theorem haltLoop_parts (s : State) (l t : Nat) :
    (∃ st, (haltLoop s l t).loop l = halted { s.loop l with change := none, changeNext := none, autoGoal := none, state := st }) ∧
    (∀ k, (k < l ∨ l + (s.loop l).gang ≤ k) → k ≠ l → (haltLoop s l t).loop k = s.loop k) ∧
    ∃ n m c k p d h b w, haltLoop s l t = { s with
      free := n, mb := m, fw := { s.fw with current := c }, pins := { s.pins with dac := d }, lp := { s.lp with loop := p }, harv := h, link := k,
      flt := { s.flt with block := b, waiting := w } } := by
  rw [haltLoop_eq]
  obtain ⟨⟨st, hdrop⟩, hdropOther, m, c, k, q, hdropParts⟩ := dropRange_parts s l (0x13, 5)
  generalize dropRange s l (0x13, 5) = u at hdrop hdropOther hdropParts ⊢
  have hmod : LoopIs u l (halted (u.loop l)) ((endClip u l t).modLoop l halted) := loopIs_modLoop halted (loopIs_endClip t loopIs_refl)
  generalize (endClip u l t).modLoop l halted = v at hmod ⊢
  obtain ⟨hv, hvOther, p, h, b, w, hvParts⟩ := hmod
  obtain ⟨d, hdac⟩ := moveForceDac_parts v l
  rw [hdac]
  obtain ⟨b', hlive⟩ := tripLive_parts { v with pins := { v.pins with dac := d } } l
  rw [hlive]
  generalize hx : ({ v with pins := { v.pins with dac := d }, flt := { v.flt with block := b' } } : State) = x
  have hloop : ∀ k, x.loop k = v.loop k := fun k => by
    rw [← hx]
    rfl
  obtain ⟨n, r, hfollow⟩ := followLeader_parts x l
  refine ⟨⟨st, ?_⟩, fun j hout hj => ?_, n, m, c, k, r, d, h, b', w, ?_⟩
  · rw [followLeader_loop x l l (.inl le_rfl), hloop, hv, hdrop]
  · have hgang : (x.loop l).gang = (s.loop l).gang := by
      rw [hloop, hv, hdrop]
      rfl
    rw [followLeader_loop x l j (by rw [hgang]; exact hout.imp le_of_lt id), hloop, hvOther j hj, hdropOther j hj]
  · rw [hfollow, ← hx, hvParts, hdropParts]

theorem loopForceDue_stops {l : LoopId} {s : State} {f : ForcePending} (hforce : (s.loop l.val).force = some f) (hmode : f.mode = 3)
    (hstate : (s.loop l.val).state = .regulating ∨ (s.loop l.val).state = .settling ∨ (s.loop l.val).state = .stopped) :
    ∃ t, exec (.loopForceDue l) s = .next t ∧ (t.loop l.val).force = none ∧ (t.loop l.val).state = .stopped ∧ (t.loop l.val).declared = .primary ∧
      (t.loop l.val).isOpen = (if (s.loop l.val).stopHold then (s.loop l.val).isOpen else true) ∧
      ((s.loop l.val).stopHold = true → (t.loop l.val).demand = (s.loop l.val).demand) ∧ (t.loop l.val).change = none ∧
      (∀ k, (k < l.val ∨ l.val + (s.loop l.val).gang ≤ k) → k ≠ l.val → t.loop k = s.loop k) ∧
      t = { s with free := t.free, clk := { s.clk with time := t.clk.time }, mb := t.mb, fw := { s.fw with current := t.fw.current }, pins := { s.pins with dac := t.pins.dac }, lp := { s.lp with loop := t.lp.loop }, harv := t.harv, link := t.link, flt := { s.flt with block := t.flt.block, waiting := t.flt.waiting } } := by
  have hfree : (s.loop l.val).state ≠ .frozen ∧ (s.loop l.val).state ≠ .cloche ∧ (s.loop l.val).state ≠ .ganged := by
    rcases hstate with h | h | h <;> rw [h] <;> decide
  refine ⟨_, exec_loopForceDue hforce hfree.1, ?_⟩
  have hdue := dueBoundary_due s l.val f.due
  generalize dueBoundary s l.val f.due = b at hdue ⊢
  have happly : applyForce (s.reach b) l.val b = haltLoop (forceTaken s l.val b) l.val b := by
    unfold applyForce
    dsimp only
    rw [reach_loop, hforce]
    dsimp only
    rw [if_neg (fun h => h.elim (Nat.not_lt.2 hdue) hfree.1), if_neg (fun h => h.elim hfree.2.1 hfree.2.2), if_pos hmode]
  rw [happly]
  have htaken : (forceTaken s l.val b).loop l.val = { s.loop l.val with force := none } := by rw [modLoop_same, reach_loop]
  have htakenOther : ∀ k, k ≠ l.val → (forceTaken s l.val b).loop k = s.loop k := fun k hk => modLoop_ne _ _ hk
  have htakenParts : ∃ p, forceTaken s l.val b = { s.reach b with lp := { s.lp with loop := p } } := ⟨_, rfl⟩
  generalize forceTaken s l.val b = u at htaken htakenOther htakenParts ⊢
  obtain ⟨p, hu⟩ := htakenParts
  obtain ⟨⟨st, hloop⟩, hother, n, m, c, k, q, d, h, bb, w, ht⟩ := haltLoop_parts u l.val b
  generalize haltLoop u l.val b = v at hloop hother ht ⊢
  rw [htaken] at hloop hother
  rw [hloop]
  refine ⟨rfl, rfl, rfl, rfl, fun hhold => if_pos hhold, rfl, fun j hout hj => (hother j hout hj).trans (htakenOther j hj), ?_⟩
  rw [ht, hu]
  rfl

/-! The end of a measured start (R270). -/

theorem loopStartMeasured_presets {l : LoopId} {v : Int} {s : State} {f : ForcePending} (hmeas : (s.loop l.val).measure = some f) :
    ∃ t, exec (.loopStartMeasured l v) s = .next t ∧ (t.loop l.val).measure = none ∧ (t.loop l.val).isOpen = false ∧
      (t.loop l.val).volt.integ = (t.loop l.val).demand * 65536 ∧ (t.loop l.val).curr.integ = (t.loop l.val).demand * 65536 ∧
      t.clk.time = max s.clk.time (f.due + 3 * loopPeriod l.val) ∧
      (∀ k, (k < l.val ∨ l.val + (s.loop l.val).gang ≤ k) → k ≠ l.val → t.loop k = s.loop k) ∧
      t = { s with free := t.free, clk := { s.clk with time := t.clk.time }, lp := { s.lp with loop := t.lp.loop } } := by
  generalize hg : (fun x : LoopState => { presetLaws (q15 (normalise (rangeScale l.val true x.irange x.vrange) (clampI (-32768) 32767 v))) x with measure := none, isOpen := false }) = g
  have hexec : exec (.loopStartMeasured l v) s = .next (followLeader ((s.reach (f.due + 3 * loopPeriod l.val)).modLoop l.val g) l.val) := by
    refine congrArg Host.Outcome.next ?_
    rw [hmeas, ← hg]
  refine ⟨_, hexec, ?_⟩
  generalize f.due + 3 * loopPeriod l.val = b
  have hloop : ((s.reach b).modLoop l.val g).loop l.val = g (s.loop l.val) := by rw [modLoop_same, reach_loop]
  have hother : ∀ k, k ≠ l.val → ((s.reach b).modLoop l.val g).loop k = s.loop k := fun k hk => modLoop_ne _ _ hk
  have hparts : ∃ p, (s.reach b).modLoop l.val g = { s.reach b with lp := { s.lp with loop := p } } := ⟨_, rfl⟩
  generalize (s.reach b).modLoop l.val g = u at hloop hother hparts ⊢
  obtain ⟨p, hparts⟩ := hparts
  obtain ⟨n, q, hfollow⟩ := followLeader_parts u l.val
  have hgang : (u.loop l.val).gang = (s.loop l.val).gang := by
    rw [hloop, ← hg]
    rfl
  rw [followLeader_loop u l.val l.val (.inl le_rfl), hloop, ← hg]
  refine ⟨rfl, rfl, rfl, rfl, ?_, fun k hout hk => ?_, ?_⟩
  · rw [hfollow, hparts]
    rfl
  · rw [followLeader_loop u l.val k (by rw [hgang]; exact hout.imp le_of_lt id), hother k hk]
  · rw [hfollow, hparts]
    rfl

theorem loopStartMeasured_waits {l : LoopId} {v : Int} {s : State} (h : (s.loop l.val).measure = none) : exec (.loopStartMeasured l v) s = .next s := by
  refine congrArg Host.Outcome.next ?_
  rw [h]

/-- Settles O29: each event is a change of its loop, with records and faults besides. -/
theorem loopEvents : Obligations.LoopEvents := by
  unfold Obligations.LoopEvents
  refine ⟨fun l s hdecl hcount => ?_, fun l s => lawReturn_waits, fun l s => complyTrip_trips, fun l s => complyTrip_waits, fun l s g => autoRange_requests,
    fun l s h => ?_, fun l s c => rangeSettleDone_settles, fun l s => rangeSettleDone_waits, fun l s w => coefSwapDue_swaps, fun l s w => coefSwapDue_region,
    fun l s => coefSwapDue_waits, fun h s => stageDiss_raises, fun h s hover => congrArg Host.Outcome.next (if_neg hover), fun s total => chipDissUpdate_stages,
    fun l s r ts => sweepStep_begins, fun l s => sweepStep_waits, fun l s f => loopForceDue_changes, fun l s f => loopForceDue_starts,
    fun l s f => loopForceDue_stops, fun l s => loopForceDue_waits, fun l v s f => loopStartMeasured_presets, fun l v s => loopStartMeasured_waits⟩
  · obtain ⟨t, ht, h⟩ := lawReturn_returns hdecl hcount
    exact ⟨t, ht, h.1, h.2.1, loopIs_parts h⟩
  · refine congrArg Host.Outcome.next ?_
    unfold autoRangeNow
    rw [h]

end Sys2Proof.Machine
end

section
/-! PROOFS. The loop commands (R235, R239, R246, R253 to R257, R265, R267 to R274). -/

set_option Elab.async false

namespace Sys2Proof.Machine

/-! Starts on a range of loops (R274). -/

/-- The start of one loop's source. -/
def setSource (mk : Nat → Nat → Source) (a tag : Nat) (s : State) (i : Nat) : State := s.modLoop (a + i) (fun x => { x with source := mk (a + i) (tag + i) })

/-- The start of `n` loops from `a` on, each with its work. -/
def startLoops (mk : Nat → Nat → Source) (a n : Nat) (c : Current) (s : State) : State :=
  startAll (setSource mk a c.tag.toNat) c.tag.toNat c.opcode.toNat c.ring.toNat 2 n s

section
variable (mk : Nat → Nat → Source) (a n : Nat) (c : Current) (s : State)

theorem startLoops_parts :
    startLoops mk a n c s = { s with fw := { s.fw with progress := (startLoops mk a n c s).fw.progress },
                                     lp := { s.lp with loop := (startLoops mk a n c s).lp.loop }, harv := (startLoops mk a n c s).harv } :=
  congrArg (fun v : State => { v with fw := { v.fw with progress := (startLoops mk a n c s).fw.progress },
                                      lp := { v.lp with loop := (startLoops mk a n c s).lp.loop }, harv := (startLoops mk a n c s).harv })
    (startAll_same (F := fun s : State => { s with fw := { s.fw with progress := [] }, lp := { s.lp with loop := [] }, harv := {} })
      (set := setSource mk a c.tag.toNat) (fun _ _ => rfl) (fun s k => by
        obtain ⟨p, h, hbegin⟩ := beginWork_parts s k c.opcode.toNat c.ring.toNat 2 false
        rw [hbegin]) n s)

theorem startLoops_loop :
    (∀ i, i < n → (startLoops mk a n c s).loop (a + i) = { s.loop (a + i) with source := mk (a + i) (c.tag.toNat + i) }) ∧
      (∀ k, k ∉ rangeFrom a n → (startLoops mk a n c s).loop k = s.loop k) := by
  obtain ⟨hin, hout⟩ := startAll_get (get := State.loop) (key := fun i => a + i) (val := fun i x => { x with source := mk (a + i) (c.tag.toNat + i) })
    (set := setSource mk a c.tag.toNat) (tag := c.tag.toNat) (opcode := c.opcode.toNat)
    (r := c.ring.toNat) (output := 2) (fun i j h => by simpa using h)
    (fun s i j => by
      rw [setSource, State.modLoop_loop]
      split
      next heq => rw [heq]
      next => rfl)
    (fun s k j => by
      obtain ⟨p, h, hbegin⟩ := beginWork_parts s k c.opcode.toNat c.ring.toNat 2 false
      rw [hbegin]
      rfl) n s
  exact ⟨hin, fun k hk => hout k fun i hi heq => hk (heq ▸ mem_rangeFrom.2 (by omega))⟩

theorem startLoops_prog (hone : 1 ≤ n) (k : Nat) : (startLoops mk a n c s).prog k = if c.tag.toNat ≤ k ∧ k < c.tag.toNat + n then
    { opcode := c.opcode, state := .running, ring := c.ring, output := 2 } else s.prog k := by
  rw [startLoops, startAll_prog (set := setSource mk a c.tag.toNat) (fun _ _ => rfl) hone, entryOf, w16_toNat, w16_toNat]

theorem startLoops_ring {r : Nat} (hr : r ≠ c.ring.toNat) : (startLoops mk a n c s).ring r = s.ring r :=
  startAll_same (F := fun s : State => s.ring r) (set := setSource mk a c.tag.toNat) (fun _ _ => rfl) (fun s k => by
    obtain ⟨-, -, hring, -⟩ := beginWork_begun s k c.opcode.toNat c.ring.toNat 2 false
    exact hring r hr) n s

theorem startSources_eq (words : List Word) : startSources s c (rangeFrom a n) mk words = postResponse (startLoops mk a n c s) 1 0 words := by
  unfold startSources
  rw [foldl_zipIdx_rangeFrom]
  rfl

end

theorem startSources_answers {s : State} {c : Current} {a n op : Nat} {mk : Nat → Nat → Source} {action : List Word → Bool} {k : Current → State} {words : List Word}
    (h : Picked s op c) (ha : action c.params = true) (hk : k c = startSources s c (rangeFrom a n) mk words) :
    ∃ t, (Host.Outcome.next (onCommand s op action k) : Host.Outcome State Fault Refusal) = .next t ∧ Answered c 1 0 words (startLoops mk a n c s) t :=
  picked_answers h ha (hk.trans (startSources_eq ..)) (by rw [startLoops_parts]; exact h.1)

theorem startLoops_started {s : State} {c : Current} {op : Nat} {mk : Nat → Nat → Source} (h : Picked s op c) (hone : 1 ≤ par c 1) :
    SourcesStarted c op mk s (startLoops mk (par c 0) (par c 1) c s) := by
  obtain ⟨hin, hout⟩ := startLoops_loop mk (par c 0) (par c 1) c s
  have hprog := startLoops_prog mk (par c 0) (par c 1) c s hone
  have hop : w16 op = c.opcode := by rw [← h.2.1, w16_toNat]
  refine ⟨fun i hi => ⟨hin i hi, ?_⟩, hout, fun k hk => ?_, startLoops_parts ..⟩
  · rw [hprog, if_pos (by omega), hop]
  · rw [hprog, if_neg (by omega)]

/-! Checks on the loops named (R268). -/

section
variable {s : State} {ls : List Nat}

theorem needLoopsFree_pass (h : ∀ l ∈ ls, (s.loop l).state ≠ .cloche) : needLoopsFree s ls = none :=
  firstOf_eq_none.2 fun l hl => if_neg fun hheld => h l hl (of_decide_eq_true hheld)

theorem needNoMember_pass (h : ∀ l ∈ ls, (s.loop l).state ≠ .ganged) : needNoMember s ls = none :=
  firstOf_eq_none.2 fun l hl => needState_of 9 (decide_eq_true (h l hl))

theorem needNoRun_pass (h : ∀ l ∈ ls, (s.loop l).source = .dc) : needNoRun s ls = none :=
  firstOf_eq_none.2 fun l hl => needState_of 4 (decide_eq_true (h l hl))

theorem needNoCal_pass (h : ∀ l ∈ ls, calHoldsLoop s l = false) : needNoCal s ls = none :=
  firstOf_eq_none.2 fun l hl => needState_of 5 (by rw [h l hl]; rfl)

theorem needLoopBeds_pass (h : ∀ l ∈ ls, bedActive s (loopBed l) = true) : needLoopBeds s ls = none := needActive_pass h

theorem needStage_pass (h : ∀ l ∈ ls, (s.loop l).stage = 0 ∨ ((s.stage (s.loop l).stageId).attached = true ∧ (s.stage (s.loop l).stageId).lost = false)) :
    needStage s ls = none :=
  firstOf_eq_none.2 fun l hl => needState_of 7 (by
    rcases h l hl with h | ⟨ha, hlost⟩
    · rw [decide_eq_true h]; rfl
    · rw [ha, hlost]; simp)

theorem needWindow_pass {m : Nat} (h : ∀ l ∈ ls, m = 3 ∨ chargeOutside s l = false ∨ ∃ i, (s.loop l).iHi = some i ∧ i ≤ 0) :
    firstOf ls (fun l => needWindow s l m) = none :=
  firstOf_eq_none.2 fun l hl => if_neg fun ⟨hm, hout, hhi⟩ => by
    rcases h l hl with h | h | ⟨i, hi, hle⟩
    · exact hm h
    · rw [h] at hout
      cases hout
    · rw [hi] at hhi
      simp [hle] at hhi

end

theorem mem_loopRange {c : Current} {l : Nat} : l ∈ loopRange c 0 ↔ par c 0 ≤ l ∧ l < par c 0 + par c 1 := mem_rangeFrom

theorem nodup_loopRange (c : Current) : (loopRange c 0).Nodup := nodup_rangeFrom _ _

/-! LOOP_CONFIG (R269). -/

/-- The settings that LOOP_CONFIG gives a loop. -/
def configured (c : Current) (x : LoopState) : LoopState :=
  { x with
    charge := bit (par c 2) 1, stopHold := bit (par c 2) 2
    irange := stageRange x.stage (par c 3) x.irange
    stage := par c 3, stageId := par c 4, gang := par c 5, eventRing := par c 6, trackShift := par c 7 }

/-- A loop of the gang that LOOP_CONFIG dissolves. -/
def releasedMember (x : LoopState) : LoopState := { x with state := .stopped, isOpen := true }

/-- A loop of the gang that LOOP_CONFIG forms. -/
def takenMember (x : LoopState) : LoopState := { x with state := .ganged }

theorem configLoop_eq (s : State) (c : Current) (l : Nat) : configLoop s c l =
    followLeader (((rangeFrom (l + 1) (par c 5 - 1)).foldl (fun (s : State) k => s.modLoop k takenMember)
      ((rangeFrom (l + 1) ((s.loop l).gang - 1)).foldl (fun (s : State) k => s.modLoop k releasedMember) s)).modLoop l (configured c)) l := rfl

/-- A leader alone has no members that follow. -/
theorem followLeader_alone {s : State} {l : Nat} (h : (s.loop l).gang = 1) : followLeader s l = s := by
  unfold followLeader
  dsimp only
  rw [h]
  rfl

theorem configLoop_alone {s : State} {c : Current} {l : Nat} (hnew : par c 5 = 1) (hold : (s.loop l).gang = 1) :
    configLoop s c l = s.modLoop l (configured c) := by
  rw [configLoop_eq, hold, hnew]
  refine followLeader_alone ?_
  rw [modLoop_same]
  exact hnew

section
variable {s : State} {c : Current}

theorem configChecks_pass (hloops : ∀ x ∈ needLoops c 0, x = none) (hflags : par c 2 < 8) (hlight : par c 0 < 512 → par c 2 ≠ 2 ∧ par c 2 ≠ 6 ∧ par c 3 = 0)
    (heven : par c 2 % 2 = 0) (hstage : par c 3 ≤ 2) (hid : par c 4 < 16) (hnone : par c 3 = 0 → par c 4 = 0) (hgang : 1 ≤ par c 5 ∧ par c 5 ≤ 4)
    (hone : par c 5 = 1 ∨ par c 1 = 1) (hring : par c 6 = 0xFFFF ∨ (s.ring (par c 6)).state ≠ .free) (hshift : par c 7 ≤ 7)
    (hlegal : gangLegal s (par c 0) (par c 5) (par c 3) = true)
    (h : ∀ l ∈ loopRange c 0, (s.loop l).state = .stopped ∧ calHoldsLoop s l = false ∧ bedActive s (loopBed l) = true) :
    ∀ x ∈ needLoops c 0 ++
       [needParam (decide (par c 2 < 8) && (decide (512 ≤ par c 0) || !bit (par c 2) 1)) 2,
        needParam (decide (par c 3 ≤ 2) && (decide (512 ≤ par c 0) || decide (par c 3 = 0))) 3,
        needParam (decide (par c 4 < 16) && (decide (par c 3 ≠ 0) || decide (par c 4 = 0))) 4,
        needParam (decide (1 ≤ par c 5) && decide (par c 5 ≤ 4) && (decide (par c 5 = 1) || decide (par c 1 = 1))) 5,
        needRing s (par c 6) 6, needParam (decide (par c 7 ≤ 7)) 7,
        if gangLegal s (par c 0) (par c 5) (par c 3) then none else some (0x12, 0x8003),
        needLoopsFree s (loopRange c 0), needNoMember s (loopRange c 0),
        firstOf (loopRange c 0) (fun l => needState (decide ((s.loop l).state = .stopped)) 1), needNoCal s (loopRange c 0), needLoopBeds s (loopRange c 0)], x = none := by
  have hbit : 512 ≤ par c 0 ∨ bit (par c 2) 1 = false := by
    refine (Nat.lt_or_ge (par c 0) 512).symm.imp id fun hlt => ?_
    obtain ⟨h2, h6, -⟩ := hlight hlt
    have hcases : par c 2 = 0 ∨ par c 2 = 4 := by omega
    rcases hcases with h | h <;> rw [h] <;> rfl
  refine pass_append hloops (pass_cons (needParam_pass _ ?_) (pass_cons (needParam_pass _ ?_) (pass_cons (needParam_pass _ ?_) (pass_cons (needParam_pass _ ?_)
    (pass_cons (needRing_of hring) (pass_cons (needParam_pass _ (decide_eq_true hshift)) (pass_cons (if_pos hlegal)
    (pass_cons (needLoopsFree_pass fun l hl => ?_) (pass_cons (needNoMember_pass fun l hl => ?_) (pass_cons (firstOf_eq_none.2 fun l hl => needState_of 1 (decide_eq_true (h l hl).1))
    (pass_cons (needNoCal_pass fun l hl => (h l hl).2.1) (pass_cons (needLoopBeds_pass fun l hl => (h l hl).2.2) pass_nil))))))))))))
  · rw [decide_eq_true hflags, Bool.true_and]
    rcases hbit with h | h
    · rw [decide_eq_true h]; rfl
    · rw [h]; simp
  · rw [decide_eq_true hstage, Bool.true_and, Bool.or_eq_true, decide_eq_true_iff, decide_eq_true_iff]
    exact (Nat.lt_or_ge (par c 0) 512).symm.imp id fun hlt => (hlight hlt).2.2
  · rw [decide_eq_true hid, Bool.true_and, Bool.or_eq_true, decide_eq_true_iff, decide_eq_true_iff]
    exact (em (par c 3 = 0)).symm.imp id hnone
  · rw [decide_eq_true hgang.1, decide_eq_true hgang.2, Bool.true_and, Bool.true_and, Bool.or_eq_true, decide_eq_true_iff, decide_eq_true_iff]
    exact hone
  · rw [(h l hl).1]
    decide
  · rw [(h l hl).1]
    decide

end

theorem even_bit (n : Nat) (h : n % 2 = 0) : bit n 0 = false := by
  rw [bit, Nat.testBit_zero, h]
  rfl

theorem loopConfig_plain {s : State} {c : Current} (h : Picked s 0x0400 c) (hone : 1 ≤ par c 1) (hfit : par c 0 + par c 1 ≤ 544)
    (hpath : 512 ≤ par c 0 ∨ par c 0 + par c 1 ≤ 512) (hflags : par c 2 < 8) (heven : par c 2 % 2 = 0) (hstage : par c 3 ≤ 2)
    (hlight : par c 0 < 512 → par c 2 ≠ 2 ∧ par c 2 ≠ 6 ∧ par c 3 = 0) (hid : par c 4 < 16) (hnone : par c 3 = 0 → par c 4 = 0)
    (hgang : par c 5 = 1) (hring : par c 6 = 0xFFFF ∨ (s.ring (par c 6)).state ≠ .free) (hshift : par c 7 ≤ 7)
    (hl : ∀ l ∈ loopRange c 0, (s.loop l).state = .stopped ∧ calHoldsLoop s l = false ∧ bedActive s (loopBed l) = true ∧ (s.loop l).gang = 1) :
    ∃ u t, exec .loopConfig s = .next t ∧ Answered c 0 0 [] u t ∧ u = { s with lp := { s.lp with loop := u.lp.loop } } ∧
      (∀ l ∈ loopRange c 0, u.loop l = { s.loop l with charge := (par c 2).testBit 1, stopHold := (par c 2).testBit 2, stage := par c 3, stageId := par c 4, gang := 1, eventRing := par c 6, trackShift := par c 7, irange := if par c 3 ≠ 0 then 5 else if (s.loop l).stage ≠ 0 then 0 else (s.loop l).irange }) ∧
      (∀ l, l ∉ loopRange c 0 → u.loop l = s.loop l) := by
  have hpass := configChecks_pass (needLoops_pass hone hfit hpath) hflags hlight heven hstage hid hnone (by omega) (.inl hgang) hring hshift
    (by rw [gangLegal, hgang]; rfl) fun l hmem => ⟨(hl l hmem).1, (hl l hmem).2.1, (hl l hmem).2.2.1⟩
  have hfold : (loopRange c 0).foldl (fun s l => configLoop s c l) s = (loopRange c 0).foldl (fun (s : State) l => s.modLoop l (configured c)) s :=
    foldl_keyed_congr (get := State.loop) (step := fun s l => configLoop s c l) (g := fun (s : State) l => s.modLoop l (configured c)) (P := fun x => x.gang = 1)
      (fun v l hv => configLoop_alone hgang hv) (fun v k j hj => modLoop_ne _ _ hj) (nodup_loopRange c) fun l hmem => (hl l hmem).2.2.2
  have hloop := foldl_modLoop_loop (configured c) (nodup_loopRange c) s
  obtain ⟨p, hparts⟩ := foldl_modLoop_parts (configured c) (loopRange c 0) s
  have hread : (!bit (par c 2) 0) = true := by rw [even_bit _ heven]; rfl
  obtain ⟨t, ht, hans⟩ : ∃ t, exec .loopConfig s = .next t ∧ Answered c 0 0 [] ((loopRange c 0).foldl (fun (s : State) l => s.modLoop l (configured c)) s) t :=
    picked_ok (e := fun s => postOk ((loopRange c 0).foldl (fun s l => configLoop s c l) s)) h hread rfl (firstBad_pass hpass)
      (congrArg (fun v => postOk v []) hfold) (by rw [hparts]; exact h.1)
  refine ⟨_, t, ht, hans, by rw [hparts], fun l hmem => ?_, fun l hmem => ?_⟩
  · rw [hloop, if_pos hmem]
    unfold configured
    rw [hgang]
    rfl
  · rw [hloop, if_neg hmem]

/-! Gangs (R239). -/

theorem rangeFrom_one (a : Nat) : rangeFrom a 1 = [a] := rfl

theorem shareOf_le (s : State) (d : Int) : (shareOf s d).natAbs ≤ d.natAbs / 20 := by
  unfold shareOf clampI
  omega

/-- A member of a gang follows its leader's demand with a share correction within 5 % of it. -/
theorem followLeader_member (s : State) {l k : Nat} (hlo : l < k) (hhi : k < l + (s.loop l).gang) :
    ∃ e : Int, e.natAbs ≤ (s.loop l).demand.natAbs / 20 ∧ (followLeader s l).loop k = { s.loop k with
      demand := clampI (-32768) 32767 ((s.loop l).demand + e), isOpen := (s.loop l).isOpen, irange := (s.loop l).irange, vrange := (s.loop l).vrange } :=
  (foldl_keyed_rel (get := State.loop) (step := fun (v : State) k => v.takeFree.modLoop k (fun y => { y with
      demand := clampI (-32768) 32767 ((s.loop l).demand + shareOf v (s.loop l).demand)
      isOpen := (s.loop l).isOpen, irange := (s.loop l).irange, vrange := (s.loop l).vrange }))
    (R := fun _ x y => ∃ e : Int, e.natAbs ≤ (s.loop l).demand.natAbs / 20 ∧ y = { x with
      demand := clampI (-32768) 32767 ((s.loop l).demand + e), isOpen := (s.loop l).isOpen, irange := (s.loop l).irange, vrange := (s.loop l).vrange })
    (fun v k => ⟨shareOf v (s.loop l).demand, shareOf_le v _, modLoop_same v.takeFree k _⟩) (fun v k j hj => modLoop_ne v.takeFree _ hj)
    (nodup_rangeFrom (l + 1) ((s.loop l).gang - 1)) s k).1 (mem_rangeFrom.2 (by omega))

theorem configured_onChip {c : Current} {x : LoopState} (hx : x.stage = 0) (hstage : par c 3 = 0) : configured c x = { x with
    charge := (par c 2).testBit 1, stopHold := (par c 2).testBit 2, stageId := par c 4, gang := par c 5, eventRing := par c 6, trackShift := par c 7 } := by
  cases x
  dsimp only at hx
  subst hx
  unfold configured
  rw [hstage]
  rfl

theorem loopConfig_gang {s : State} {c : Current} {h n : Nat} (hpick : Picked s 0x0400 c) (hl : par c 0 = 512 + h) (hh : h < 32) (hone : par c 1 = 1)
    (hflags : par c 2 < 8) (heven : par c 2 % 2 = 0) (hstage : par c 3 = 0) (hid : par c 4 = 0) (hn : par c 5 = n) (h2 : 2 ≤ n) (h4 : n ≤ 4)
    (hbeds : h / 4 = (h + n - 1) / 4) (hring : par c 6 = 0xFFFF ∨ (s.ring (par c 6)).state ≠ .free) (hshift : par c 7 ≤ 7) (hold : (s.loop (512 + h)).gang = 1)
    (hmem : ∀ k, 512 + h ≤ k → k < 512 + h + n → loopPads s k = 0 ∧ (s.loop k).stage = 0 ∧ (s.loop k).state = .stopped)
    (hcal : calHoldsLoop s (512 + h) = false) (hbed : bedActive s (loopBed (512 + h)) = true) :
    ∃ u t, exec .loopConfig s = .next t ∧ Answered c 0 0 [] u t ∧
      u.loop (512 + h) = { s.loop (512 + h) with charge := (par c 2).testBit 1, stopHold := (par c 2).testBit 2, stageId := 0, gang := n, eventRing := par c 6, trackShift := par c 7 } ∧
      (∀ k, 512 + h < k → k < 512 + h + n → u.loop k = { s.loop k with state := .ganged, isOpen := (s.loop (512 + h)).isOpen, irange := (s.loop (512 + h)).irange, vrange := (s.loop (512 + h)).vrange, demand := (u.loop k).demand } ∧
        (∃ e : Int, e.natAbs ≤ (s.loop (512 + h)).demand.natAbs / 20 ∧ (u.loop k).demand = clampI (-32768) 32767 ((s.loop (512 + h)).demand + e))) ∧
      (∀ k, (k < 512 + h ∨ 512 + h + n ≤ k) → u.loop k = s.loop k) ∧
      u = { s with free := u.free, lp := { s.lp with loop := u.lp.loop } } := by
  have hrange : loopRange c 0 = [512 + h] := by rw [loopRange, hl, hone, rangeFrom_one]
  have hlegal : gangLegal s (par c 0) (par c 5) (par c 3) = true := by
    have hpads : (rangeFrom (512 + h) n).all (fun k => decide (loopPads s k = 0)) = true :=
      List.all_eq_true.2 fun k hk => decide_eq_true (hmem k (mem_rangeFrom.1 hk).1 (mem_rangeFrom.1 hk).2).1
    have hfree : (rangeFrom (512 + h + 1) (n - 1)).all (fun k => decide ((s.loop k).stage = 0) &&
        (decide ((s.loop k).state = .stopped) || (decide ((s.loop k).state = .ganged) && decide (k < 512 + h + (s.loop (512 + h)).gang)))) = true := by
      refine List.all_eq_true.2 fun k hk => ?_
      obtain ⟨hlo, hhi⟩ := mem_rangeFrom.1 hk
      obtain ⟨-, hs, hst⟩ := hmem k (by omega) (by omega)
      rw [decide_eq_true hs, decide_eq_true hst]
      rfl
    unfold gangLegal
    rw [hl, hn, hstage, hpads, hfree]
    simp only [Nat.add_sub_cancel_left, hbeds]
    simp
  have hpass := configChecks_pass (s := s) (c := c) (needLoops_pass (i := 0) (show 1 ≤ par c 1 by omega) (show par c 0 + par c 1 ≤ 544 by omega) (.inl (by omega))) hflags (fun hlt => by omega) heven (by omega) (by omega) (fun _ => hid)
    (by omega) (.inr hone) hring hshift hlegal (by
      rw [hrange]
      intro l hmem'
      obtain rfl := List.mem_singleton.1 hmem'
      exact ⟨(hmem (512 + h) le_rfl (by omega)).2.2, hcal, hbed⟩)
  have hfold : (loopRange c 0).foldl (fun s l => configLoop s c l) s = configLoop s c (512 + h) := by
    rw [hrange]
    rfl
  have hconfig : configLoop s c (512 + h) = followLeader (((rangeFrom (512 + h + 1) (n - 1)).foldl (fun (s : State) k => s.modLoop k takenMember) s).modLoop (512 + h) (configured c)) (512 + h) := by
    rw [configLoop_eq, hold, hn]
    rfl
  have htaken := foldl_modLoop_loop takenMember (nodup_rangeFrom (512 + h + 1) (n - 1)) s
  obtain ⟨p, htakenParts⟩ := foldl_modLoop_parts takenMember (rangeFrom (512 + h + 1) (n - 1)) s
  generalize (rangeFrom (512 + h + 1) (n - 1)).foldl (fun (s : State) k => s.modLoop k takenMember) s = v at hconfig htaken htakenParts
  have hself : (v.modLoop (512 + h) (configured c)).loop (512 + h) = { s.loop (512 + h) with
      charge := (par c 2).testBit 1, stopHold := (par c 2).testBit 2, stageId := 0, gang := n, eventRing := par c 6, trackShift := par c 7 } := by
    rw [modLoop_same, htaken, if_neg (fun hk => by have := (mem_rangeFrom.1 hk).1; omega)]
    rw [configured_onChip (hmem (512 + h) le_rfl (by omega)).2.1 hstage, hid, hn]
  have hother : ∀ k, k ≠ 512 + h → (v.modLoop (512 + h) (configured c)).loop k = if k ∈ rangeFrom (512 + h + 1) (n - 1) then takenMember (s.loop k) else s.loop k :=
    fun k hk => (modLoop_ne _ _ hk).trans (htaken k)
  have hparts : ∃ p, v.modLoop (512 + h) (configured c) = { s with lp := { s.lp with loop := p } } := ⟨_, by rw [htakenParts]; rfl⟩
  generalize v.modLoop (512 + h) (configured c) = w at hconfig hself hother hparts
  obtain ⟨q, hparts⟩ := hparts
  obtain ⟨f, r, hfollow⟩ := followLeader_parts w (512 + h)
  have hgang : (w.loop (512 + h)).gang = n := by rw [hself]
  have hread : (!bit (par c 2) 0) = true := by rw [even_bit _ heven]; rfl
  obtain ⟨t, ht, hans⟩ : ∃ t, exec .loopConfig s = .next t ∧ Answered c 0 0 [] (followLeader w (512 + h)) t :=
    picked_ok (e := fun s => postOk ((loopRange c 0).foldl (fun s l => configLoop s c l) s)) hpick hread rfl (firstBad_pass hpass)
      (congrArg (fun v => postOk v []) (hfold.trans hconfig)) (by rw [hfollow, hparts]; exact hpick.1)
  refine ⟨_, t, ht, hans, ?_, fun k hlo hhi => ?_, fun k hout => ?_, by rw [hfollow, hparts]⟩
  · rw [followLeader_loop w _ _ (.inl le_rfl), hself]
  · obtain ⟨e, he, hk⟩ := followLeader_member w hlo (by rw [hgang]; exact hhi)
    rw [hself] at he hk
    rw [hother k (by omega), if_pos (mem_rangeFrom.2 (by omega))] at hk
    rw [hk]
    exact ⟨rfl, e, he, rfl⟩
  · by_cases hk : k = 512 + h
    · omega
    · rw [followLeader_loop w _ k (by rw [hgang]; omega), hother k hk, if_neg (fun hmem => by have := mem_rangeFrom.1 hmem; omega)]

theorem loopConfig_dissolve {s : State} {c : Current} {h : Nat} (hpick : Picked s 0x0400 c) (hl : par c 0 = 512 + h) (hh : h < 32) (hone : par c 1 = 1)
    (hflags : par c 2 < 8) (heven : par c 2 % 2 = 0) (hstage : par c 3 = 0) (hid : par c 4 = 0) (hn : par c 5 = 1)
    (hring : par c 6 = 0xFFFF ∨ (s.ring (par c 6)).state ≠ .free) (hshift : par c 7 ≤ 7)
    (hstate : (s.loop (512 + h)).state = .stopped) (hcal : calHoldsLoop s (512 + h) = false) (hbed : bedActive s (loopBed (512 + h)) = true) :
    ∃ u t, exec .loopConfig s = .next t ∧ Answered c 0 0 [] u t ∧ (u.loop (512 + h)).gang = 1 ∧ (u.loop (512 + h)).state = .stopped ∧
      (∀ k, 512 + h < k → k < 512 + h + (s.loop (512 + h)).gang → u.loop k = { s.loop k with state := .stopped, isOpen := true }) ∧
      (∀ k, k ≠ 512 + h → (k < 512 + h ∨ 512 + h + (s.loop (512 + h)).gang ≤ k) → u.loop k = s.loop k) ∧
      u = { s with lp := { s.lp with loop := u.lp.loop } } := by
  have hrange : loopRange c 0 = [512 + h] := by rw [loopRange, hl, hone, rangeFrom_one]
  have hpass := configChecks_pass (s := s) (c := c) (needLoops_pass (i := 0) (show 1 ≤ par c 1 by omega) (show par c 0 + par c 1 ≤ 544 by omega) (.inl (by omega))) hflags (fun hlt => by omega) heven (by omega) (by omega) (fun _ => hid)
    (by omega) (.inr hone) hring hshift (by rw [gangLegal, hn]; rfl) (by
      rw [hrange]
      intro l hmem'
      obtain rfl := List.mem_singleton.1 hmem'
      exact ⟨hstate, hcal, hbed⟩)
  have hfold : (loopRange c 0).foldl (fun s l => configLoop s c l) s = configLoop s c (512 + h) := by
    rw [hrange]
    rfl
  generalize hg : (s.loop (512 + h)).gang = g
  have hreleased := foldl_modLoop_loop releasedMember (nodup_rangeFrom (512 + h + 1) (g - 1)) s
  obtain ⟨p, hparts⟩ := foldl_modLoop_parts releasedMember (rangeFrom (512 + h + 1) (g - 1)) s
  have hconfig : configLoop s c (512 + h) = ((rangeFrom (512 + h + 1) (g - 1)).foldl (fun (s : State) k => s.modLoop k releasedMember) s).modLoop (512 + h) (configured c) := by
    rw [configLoop_eq, hg, hn]
    refine followLeader_alone ?_
    rw [modLoop_same]
    exact hn
  generalize (rangeFrom (512 + h + 1) (g - 1)).foldl (fun (s : State) k => s.modLoop k releasedMember) s = v at hconfig hreleased hparts
  have hself : (v.modLoop (512 + h) (configured c)).loop (512 + h) = configured c (s.loop (512 + h)) := by
    rw [modLoop_same, hreleased, if_neg (fun hk => by have := (mem_rangeFrom.1 hk).1; omega)]
  have hread : (!bit (par c 2) 0) = true := by rw [even_bit _ heven]; rfl
  obtain ⟨t, ht, hans⟩ : ∃ t, exec .loopConfig s = .next t ∧ Answered c 0 0 [] (v.modLoop (512 + h) (configured c)) t :=
    picked_ok (e := fun s => postOk ((loopRange c 0).foldl (fun s l => configLoop s c l) s)) hpick hread rfl (firstBad_pass hpass)
      (congrArg (fun v => postOk v []) (hfold.trans hconfig)) (by rw [hparts]; exact hpick.1)
  refine ⟨_, t, ht, hans, ?_, ?_, fun k hlo hhi => ?_, fun k hk hout => ?_, by rw [hparts]; rfl⟩
  · rw [hself]
    exact hn
  · rw [hself]
    exact hstate
  · rw [modLoop_ne _ _ (by omega), hreleased, if_pos (mem_rangeFrom.2 (by omega))]
    rfl
  · rw [modLoop_ne _ _ hk, hreleased, if_neg (fun hmem => by have := mem_rangeFrom.1 hmem; omega)]

theorem loopConfig_reads {s : State} {c : Current} (h : Picked s 0x0400 c) (hl : par c 0 < 544) (hone : par c 1 = 1) (hread : par c 2 = 1)
    (hzero : ∀ k, 3 ≤ k → k < 8 → par c k = 0) :
    ∃ t, exec .loopConfigRead s = .next t ∧ Answered c 0 0 ([loopModeCode (s.loop (par c 0)).state, declaredCode (s.loop (par c 0)).declared,
      (s.loop (par c 0)).mode, (s.loop (par c 0)).irange, (s.loop (par c 0)).vrange,
      flag 0 (s.loop (par c 0)).auto + flag 1 (s.loop (par c 0)).charge + flag 2 (decide ((s.loop (par c 0)).clip ≠ 0)) + flag 3 (chargeOutside s (par c 0)),
      (s.loop (par c 0)).cause, toTwos 16 (s.loop (par c 0)).lastV, toTwos 16 (s.loop (par c 0)).lastI, (s.loop (par c 0)).stage, (s.loop (par c 0)).gang].map w16) s t := by
  refine picked_ok (k := fun c => _) h (show bit (par c 2) 0 = true by rw [hread]; rfl) rfl (firstBad_pass (pass_append ?_
    (pass_cons (needParam_pass _ (decide_eq_true hone)) (pass_cons (needParam_pass _ (decide_eq_true hread)) (pass_cons (needZero_of hzero) pass_nil))))) rfl h.1
  exact needLoops_pass (show 1 ≤ par c 1 by omega) (show par c 0 + par c 1 ≤ 544 by omega) (show 512 ≤ par c 0 ∨ par c 0 + par c 1 ≤ 512 by omega)

/-! LOOP_FORCE (R270). -/

theorem nextBoundary_lt (s : State) (l : Nat) : s.clk.time ≤ nextBoundary s l ∧ (s.loop l).lastSample < nextBoundary s l := by
  have hle := le_boundaryFrom s l (max s.now ((s.loop l).lastSample + 1))
  exact ⟨(le_max_left ..).trans hle, Nat.lt_of_lt_of_le (Nat.lt_succ_self _) ((le_max_right ..).trans hle)⟩

section
variable {s : State} {c : Current}

theorem needPfm_pass {l m : Nat} (h : 512 ≤ l ∨ m = 3 ∨ (s.pinst l).conn = 2 ∨ (m = 2 ∧ (s.pinst l).conn = 3)) : needPfm s l m = none := by
  unfold needPfm
  split
  · rfl
  next hn =>
    obtain ⟨hl, hm⟩ := not_or.1 hn
    refine needState_of 3 ?_
    rcases h with h | h | h | ⟨h, hc⟩
    · exact absurd h hl
    · exact absurd h hm
    · rw [h]; rfl
    · rw [h, hc]; rfl

theorem needValue_pass {l m : Nat} {v : BitVec 32} (h : m < 2 → inNominal s l (decide (m = 0)) (s.loop l).irange (s.loop l).vrange (f32 v) = true) : needValue s l m v = none := by
  refine if_pos ((Nat.lt_or_ge m 2).symm.imp id fun hlt => ?_)
  rw [primaryVolt_eq hlt]
  exact h hlt

theorem loopForce_pends {due : Nat} (hpick : Picked s 0x0401 c) (hone : 1 ≤ par c 1) (hfit : par c 0 + par c 1 ≤ 544)
    (hpath : 512 ≤ par c 0 ∨ par c 0 + par c 1 ≤ 512) (hmode : par c 2 ≤ 3) (hfinite : par c 2 < 2 → f32Finite (parF c 3) = true)
    (hzero : 2 ≤ par c 2 → par c 3 = 0 ∧ par c 4 = 0)
    (hwhen : par c 5 = 0 ∧ (∀ k, 6 ≤ k → k < 10 → par c k = 0) ∧ due = s.clk.time ∨ par c 5 = 1 ∧ c.pick + 32000 ≤ par64 c 6 ∧ due = par64 c 6)
    (hl : ∀ l ∈ loopRange c 0, (par c 2 < 2 → inNominal s l (decide (par c 2 = 0)) (s.loop l).irange (s.loop l).vrange (f32 (parF c 3)) = true) ∧
      (par c 2 = 3 ∨ ((s.loop l).state ≠ .cloche ∧ (chargeOutside s l = false ∨ ∃ h, (s.loop l).iHi = some h ∧ h ≤ 0) ∧
        ((s.loop l).stage = 0 ∨ ((s.stage (s.loop l).stageId).attached = true ∧ (s.stage (s.loop l).stageId).lost = false)))) ∧
      (s.loop l).state ≠ .ganged ∧ (512 ≤ l ∨ par c 2 = 3 ∨ (s.pinst l).conn = 2 ∨ (par c 2 = 2 ∧ (s.pinst l).conn = 3)) ∧
      (s.loop l).source = .dc ∧ calHoldsLoop s l = false ∧ bedActive s (loopBed l) = true) :
    ∃ u t b, exec .loopForce s = .next t ∧ Answered c 0 0 (w16 (par c 1) :: toWords 4 b) u t ∧ due ≤ b ∧
      ((s.loop (par c 0)).stage ≠ 2 → b % loopPeriod (par c 0) = 0) ∧ s.clk.time ≤ b ∧ (s.loop (par c 0)).lastSample < b ∧
      (∀ l ∈ loopRange c 0, u.loop l = { s.loop l with force := some { due := due, mode := par c 2, value := parF c 3 } }) ∧
      (∀ l, l ∉ loopRange c 0 → u.loop l = s.loop l) ∧ u = { s with lp := { s.lp with loop := u.lp.loop } } := by
  have hdue : (if par c 5 = 1 then par64 c 6 else s.now) = due := by
    rcases hwhen with ⟨h0, -, h⟩ | ⟨h1, -, h⟩
    · rw [if_neg (by omega), h]
      rfl
    · rw [if_pos h1, h]
  have hpassWhen : ∀ x ∈ needWhen c 5, x = none := by
    rcases hwhen with ⟨h0, hz, -⟩ | ⟨h1, -, -⟩
    · exact needWhen_now h0 hz
    · exact needWhen_at h1
  have hlead : (if par c 5 = 1 then needLead c (par64 c 6) 4 else none) = none := by
    rcases hwhen with ⟨h0, -, -⟩ | ⟨h1, hlead, -⟩
    · exact if_neg (by omega)
    · rw [if_pos h1]
      exact if_pos hlead
  have hvalue : (if 2 ≤ par c 2 then needZero c 3 2 else needParam (f32Finite (parF c 3)) 3) = none := by
    rcases Nat.lt_or_ge (par c 2) 2 with h | h
    · rw [if_neg (by omega)]
      exact needParam_pass _ (hfinite h)
    · rw [if_pos h]
      refine needZero_of fun k hlo hhi => ?_
      obtain ⟨h3, h4⟩ := hzero h
      obtain rfl | rfl : k = 3 ∨ k = 4 := by omega
      · exact h3
      · exact h4
  have hunless : ∀ x : Option Bad, (par c 2 ≠ 3 → x = none) → (if par c 2 = 3 then none else x) = none := fun x hx => by
    split
    · rfl
    next h => exact hx h
  have hthree : ∀ {l}, l ∈ loopRange c 0 → par c 2 ≠ 3 → (s.loop l).state ≠ .cloche ∧ (chargeOutside s l = false ∨ ∃ h, (s.loop l).iHi = some h ∧ h ≤ 0) ∧
      ((s.loop l).stage = 0 ∨ ((s.stage (s.loop l).stageId).attached = true ∧ (s.stage (s.loop l).stageId).lost = false)) :=
    fun hmem hne => (hl _ hmem).2.1.resolve_left hne
  have hwindow : ∀ l ∈ loopRange c 0, par c 2 = 3 ∨ chargeOutside s l = false ∨ ∃ i, (s.loop l).iHi = some i ∧ i ≤ 0 := fun l hmem =>
    (em (par c 2 = 3)).imp id fun hne => (hthree hmem hne).2.1
  have hpass := pass_append (pass_append (pass_append (needLoops_pass (i := 0) hone hfit hpath) (pass_cons (needParam_pass 2 (decide_eq_true hmode)) (pass_cons hvalue pass_nil))) hpassWhen)
    (pass_cons (firstOf_eq_none.2 fun l hmem => needValue_pass (hl l hmem).1) (pass_cons hlead
    (pass_cons (hunless _ fun hne => needLoopsFree_pass fun l hmem => (hthree hmem hne).1) (pass_cons (needWindow_pass hwindow)
    (pass_cons (needNoMember_pass fun l hmem => (hl l hmem).2.2.1) (pass_cons (firstOf_eq_none.2 fun l hmem => needPfm_pass (hl l hmem).2.2.2.1)
    (pass_cons (needNoRun_pass fun l hmem => (hl l hmem).2.2.2.2.1) (pass_cons (needNoCal_pass fun l hmem => (hl l hmem).2.2.2.2.2.1)
    (pass_cons (needLoopBeds_pass fun l hmem => (hl l hmem).2.2.2.2.2.2) (pass_cons (hunless _ fun hne => needStage_pass fun l hmem => (hthree hmem hne).2.2) pass_nil))))))))))
  generalize hf : (fun x : LoopState => { x with force := some { due := due, mode := par c 2, value := parF c 3 } }) = f
  have hloop := foldl_modLoop_loop f (nodup_loopRange c) s
  obtain ⟨p, hparts⟩ := foldl_modLoop_parts f (loopRange c 0) s
  generalize hu : (loopRange c 0).foldl (fun (s : State) k => s.modLoop k f) s = u at hloop hparts
  obtain ⟨t, ht, hans⟩ : ∃ t, exec .loopForce s = .next t ∧ Answered c 0 0 (w16 (par c 1) :: toWords 4 (dueBoundary u (par c 0) due)) u t := by
    refine picked_ok (k := fun c => _) hpick rfl rfl (firstBad_pass hpass) ?_ (by rw [hparts]; exact hpick.1)
    dsimp only
    rw [hdue, hf, hu, show (loopRange c 0).length = par c 1 from length_rangeFrom ..]
  obtain ⟨htime, hlast⟩ := nextBoundary_lt u (par c 0)
  have hnext := (le_max_right ..).trans (dueBoundary_le u (par c 0) due)
  have hfirst : u.loop (par c 0) = f (s.loop (par c 0)) := by rw [hloop, if_pos (mem_loopRange.2 ⟨le_rfl, by omega⟩)]
  refine ⟨u, t, _, ht, hans, dueBoundary_due .., fun hst => dueBoundary_mod ?_ due, ?_, ?_, fun l hmem => ?_, fun l hmem => ?_, by rw [hparts]⟩
  · rw [hfirst, ← hf]
    exact hst
  · rw [hparts] at htime
    exact htime.trans (by rw [hparts] at hnext; rw [hparts]; exact hnext)
  · have hsame : (u.loop (par c 0)).lastSample = (s.loop (par c 0)).lastSample := by rw [hfirst, ← hf]
    rw [← hsame]
    exact Nat.lt_of_lt_of_le hlast hnext
  · rw [hloop, if_pos hmem, ← hf]
  · rw [hloop, if_neg hmem]

theorem loopForce_inhibited {h : Nat} (hpick : Picked s 0x0401 c) (hl : par c 0 = 512 + h) (hh : h < 32) (hone : par c 1 = 1) (hmode : par c 2 = 0)
    (h3 : par c 3 = 0) (h4 : par c 4 = 0) (hnow : par c 5 = 0) (hzero : ∀ k, 6 ≤ k → k < 10 → par c k = 0)
    (hnom : inNominal s (512 + h) true (s.loop (512 + h)).irange (s.loop (512 + h)).vrange (f32 0) = true) (hstate : (s.loop (512 + h)).state ≠ .cloche)
    (hout : chargeOutside s (512 + h) = true) (hhi : ∀ i, (s.loop (512 + h)).iHi = some i → 0 < i) :
    ∃ t, exec .loopForce s = .next t ∧ Answered c 0x14 (s.charge h).source [] s t := by
  have hrange : loopRange c 0 = [512 + h] := by rw [loopRange, hl, hone, rangeFrom_one]
  have hv : parF c 3 = 0 := by
    have hword : wAt32 c.params 3 = 0 := by
      change par c 3 + 65536 * par c 4 = 0
      rw [h3, h4]
    unfold parF wF32
    rw [hword]
    rfl
  have hpass := pass_append (pass_append (needLoops_pass (i := 0) (c := c) (show 1 ≤ par c 1 by omega) (show par c 0 + par c 1 ≤ 544 by omega) (.inl (by omega)))
    (pass_cons (needParam_pass (b := decide (par c 2 ≤ 3)) 2 (by rw [hmode]; rfl)) (pass_cons (a := if 2 ≤ par c 2 then needZero c 3 2 else needParam (f32Finite (parF c 3)) 3)
      (by rw [if_neg (by omega), hv]; rfl) pass_nil))) (needWhen_now hnow hzero)
  have hwindow : needWindow s (512 + h) (par c 2) = some (0x14, (s.charge h).source) := by
    have hhigh : (s.loop (512 + h)).iHi.any (fun i => decide (i ≤ 0)) = false := by
      cases hi : (s.loop (512 + h)).iHi with
      | none => rfl
      | some i => exact decide_eq_false (Int.not_le.2 (hhi i hi))
    unfold needWindow
    rw [if_pos ⟨by omega, hout, by rw [hhigh]; rfl⟩, Nat.add_sub_cancel_left]
  refine picked_bad (k := fun c => _) hpick rfl rfl ((firstBad_append hpass).trans ?_)
  rw [hrange]
  have hvalue : firstOf [512 + h] (fun l => needValue s l (par c 2) (parF c 3)) = none :=
    firstOf_eq_none.2 fun l hmem => by
      obtain rfl := List.mem_singleton.1 hmem
      refine needValue_pass fun _ => ?_
      rw [hmode, hv]
      exact hnom
  have hfree : needLoopsFree s [512 + h] = none := needLoopsFree_pass fun l hmem => by
    obtain rfl := List.mem_singleton.1 hmem
    exact hstate
  have hfirst : firstOf [512 + h] (fun l => needWindow s l (par c 2)) = some (0x14, (s.charge h).source) := by
    change List.findSome? _ _ = _
    rw [List.findSome?_cons, hwindow]
  rw [hvalue, firstBad_none, if_neg (by omega), firstBad_none, if_neg (by omega), hfree, firstBad_none, hfirst]
  rfl

end

/-! LOOP_COMPLY (R272). -/

/-- What the scale of a loop reads of the loops. -/
def loopScales (s : State) (l : Nat) : Nat × Nat × Nat × Nat × Nat :=
  ((s.loop l).stage, (s.loop l).stageId, (s.loop l).gang, (s.loop l).irange, (s.loop l).vrange)

/-- Limits that LOOP_COMPLY gives a loop, from codes `h` and `w`. -/
def complied (c : Current) (volt : Bool) (h w : Option Int) (x : LoopState) : LoopState :=
  { x with
    vHi := if volt then h else x.vHi, vLo := if volt then w else x.vLo
    iHi := if volt then x.iHi else h, iLo := if volt then x.iLo else w
    returnN := if par c 7 = 0 then 32 else par c 7
    tripN := par c 8
    tripCount := if tripped x then par c 8 + 1 else min x.tripCount (par c 8) }

/-- The codes of the limits in the loop's ranges in `s`. -/
def compliedIn (s : State) (c : Current) (volt : Bool) (hi lo : Frac) (l : Nat) : LoopState → LoopState :=
  complied c volt (some (setCode s l volt (s.loop l).irange (s.loop l).vrange hi)) (some (setCode s l volt (s.loop l).irange (s.loop l).vrange lo))

theorem compliedIn_congr {s v : State} {c : Current} {volt : Bool} {hi lo : Frac} {l : Nat} (hser : v.ser = s.ser) (hcal : v.cal = s.cal)
    (h : loopScales v = loopScales s) : compliedIn v c volt hi lo l = compliedIn s c volt hi lo l := by
  have hl := congrFun h l
  simp only [loopScales, Prod.mk.injEq] at hl
  obtain ⟨hst, hid, hg, hi', hv'⟩ := hl
  have hscale : SameScale l s v := ⟨hser, hcal, hst, hid, hg⟩
  unfold compliedIn
  rw [setCode_congr hscale, setCode_congr hscale, hi', hv']

/-- A fold of steps that each change their own key `key i`. -/
theorem foldl_range_get {α : Type} {get : State → Nat → α} {step : State → Nat → State} {key : Nat → Nat} {val : Nat → α → α} (hkey : Function.Injective key)
    (hset : ∀ s i j, get (step s i) j = if j = key i then val i (get s j) else get s j) (n : Nat) (s : State) (j : Nat) :
    (∀ i, i < n → j = key i → get ((List.range n).foldl step s) j = val i (get s j)) ∧
      ((∀ i, i < n → j ≠ key i) → get ((List.range n).foldl step s) j = get s j) := by
  induction n with
  | zero => exact ⟨fun i hi => absurd hi (Nat.not_lt_zero i), fun _ => rfl⟩
  | succ n ih =>
    obtain ⟨hin, hout⟩ := ih
    rw [List.range_succ, List.foldl_append, List.foldl_cons, List.foldl_nil, hset]
    refine ⟨fun i hi hj => ?_, fun hne => ?_⟩
    · rcases Nat.lt_succ_iff_lt_or_eq.1 hi with hlt | rfl
      · have hne : j ≠ key n := fun heq => by have := hkey (hj.symm.trans heq); omega
        rw [if_neg hne, hin i hlt hj]
      · rw [if_pos hj, hout fun k hk heq => by have := hkey (hj.symm.trans heq); omega]
    · rw [if_neg (hne n (by omega)), hout fun i hi => hne i (by omega)]

section
variable {s : State} {c : Current}

theorem loopComply_limits (hpick : Picked s 0x0403 c) (hone : 1 ≤ par c 1) (hfit : par c 0 + par c 1 ≤ 544)
    (hpath : 512 ≤ par c 0 ∨ par c 0 + par c 1 ≤ 512) (hq : par c 2 ≤ 1) (hfhi : f32Finite (parF c 3) = true) (hflo : f32Finite (parF c 5) = true)
    (hlt : (f32 (parF c 5)).lt (f32 (parF c 3)) = true)
    (hl : ∀ l ∈ loopRange c 0, (s.loop l).state ≠ .ganged ∧ calHoldsLoop s l = false ∧ bedActive s (loopBed l) = true ∧
      ((s.loop l).stage = 0 ∨ ((s.stage (s.loop l).stageId).attached = true ∧ (s.stage (s.loop l).stageId).lost = false)) ∧
      (par c 2 = 1 → inNominal s l true 0 (s.loop l).vrange (f32 (parF c 3)) = true ∧ inNominal s l true 0 (s.loop l).vrange (f32 (parF c 5)) = true)) :
    ∃ u t, exec .loopComply s = .next t ∧ Answered c 0 0 [] u t ∧ u = { s with lp := { s.lp with loop := u.lp.loop } } ∧
      (∀ l ∈ loopRange c 0, u.loop l = compliedIn s c (decide (par c 2 = 1)) (f32 (parF c 3)) (f32 (parF c 5)) l (s.loop l)) ∧
      (∀ l, l ∉ loopRange c 0 → u.loop l = s.loop l) := by
  generalize hvolt : decide (par c 2 = 1) = volt
  generalize hhi : f32 (parF c 3) = hi at *
  generalize hlo : f32 (parF c 5) = lo at *
  have hnom : (if volt && (loopRange c 0).any (fun l => !(inNominal s l true 0 (s.loop l).vrange hi && inNominal s l true 0 (s.loop l).vrange lo)) then some (0x12, 0x8002) else none : Option Bad) = none := by
    refine if_neg fun h => ?_
    obtain ⟨hv, hany⟩ := Bool.and_eq_true_iff.1 h
    obtain ⟨l, hmem, hbad⟩ := List.any_eq_true.1 hany
    obtain ⟨h1, h2⟩ := (hl l hmem).2.2.2.2 (of_decide_eq_true (hvolt.trans hv))
    rw [h1, h2] at hbad
    cases hbad
  have hpass := pass_append (pass_append (needLoops_pass (i := 0) hone hfit hpath)
    (pass_cons (needParam_pass 2 (decide_eq_true hq)) (pass_cons (needParam_pass 3 hfhi) (pass_cons (needParam_pass 5 hflo)
    (pass_cons (a := if lo.lt hi then none else some (0x12, 0x8001)) (if_pos hlt) (pass_cons hnom
    (pass_cons (needNoMember_pass fun l hmem => (hl l hmem).1) pass_nil)))))))
    (pass_cons (needNoCal_pass fun l hmem => (hl l hmem).2.1) (pass_cons (needLoopBeds_pass fun l hmem => (hl l hmem).2.2.1)
    (pass_cons (needStage_pass fun l hmem => (hl l hmem).2.2.2.1) pass_nil)))
  have hfold : (loopRange c 0).foldl (fun (v : State) l => v.modLoop l (compliedIn v c volt hi lo l)) s =
      (loopRange c 0).foldl (fun (v : State) l => v.modLoop l (compliedIn s c volt hi lo l)) s :=
    foldl_congr_same (F := fun v : State => (v.ser, v.cal, loopScales v)) (fun v l => by
      refine congrArg (fun f => (v.ser, v.cal, f)) (funext fun j => ?_)
      unfold loopScales
      rw [State.modLoop_loop]
      split
      next heq => rw [heq]; rfl
      next => rfl) (fun v l hv => by
      simp only [Prod.mk.injEq] at hv
      exact congrArg (v.modLoop l) (compliedIn_congr hv.1 hv.2.1 hv.2.2))
  have hloop := foldl_keyed (get := State.loop) (step := fun (v : State) l => v.modLoop l (compliedIn s c volt hi lo l)) (f := compliedIn s c volt hi lo)
    (fun _ _ _ => State.modLoop_loop ..) (nodup_loopRange c) s
  have hall : ∀ l : List Nat, ∃ p, l.foldl (fun (v : State) l => v.modLoop l (compliedIn s c volt hi lo l)) s = { s with lp := { s.lp with loop := p } } := fun l =>
    ⟨_, congrArg (fun v : State => { v with lp := { v.lp with loop := (l.foldl (fun (v : State) l => v.modLoop l (compliedIn s c volt hi lo l)) s).lp.loop } })
      (foldl_same (F := fun v : State => { v with lp := { v.lp with loop := [] } }) (step := fun (v : State) l => v.modLoop l (compliedIn s c volt hi lo l)) (fun _ _ => rfl) l s)⟩
  obtain ⟨p, hparts⟩ := hall (loopRange c 0)
  generalize hu : (loopRange c 0).foldl (fun (v : State) l => v.modLoop l (compliedIn s c volt hi lo l)) s = u at *
  obtain ⟨t, ht, hans⟩ : ∃ t, exec .loopComply s = .next t ∧ Answered c 0 0 [] u t := by
    subst hvolt hhi hlo
    exact picked_ok (k := fun c => _) hpick rfl rfl (firstBad_pass hpass) (congrArg (fun v => postOk v []) hfold) (by rw [hparts]; exact hpick.1)
  refine ⟨u, t, ht, hans, by rw [hparts], fun l hmem => ?_, fun l hmem => ?_⟩
  · rw [hloop, if_pos hmem]
  · rw [hloop, if_neg hmem]

theorem sweepLoad_fills (hpick : Picked s 0x0404 c) (hone : 1 ≤ par c 1) (h23 : par c 1 ≤ 23) (hfit : par c 0 + par c 1 ≤ 65536)
    (hflags : ∀ i, i < par c 1 → par c (6 + 5 * i) &&& 0xFF8E = 0) (huse : sweepUses s (par c 0) (par c 1) = false) :
    ∃ u t, exec .sweepLoad s = .next t ∧ Answered c 0 0 [] u t ∧ u = { s with lp := { s.lp with sweep := u.lp.sweep } } ∧
      (∀ i, i < par c 1 → u.swp (par c 0 + i) = { value := parF c (2 + 5 * i), dwell := par32 c (4 + 5 * i), meas := (par c (6 + 5 * i)).testBit 0, irange := par c (6 + 5 * i) / 16 % 8 }) ∧
      (∀ k, (k < par c 0 ∨ par c 0 + par c 1 ≤ k) → u.swp k = s.swp k) := by
  have hpass := pass_cons (needParam_pass (b := decide (1 ≤ par c 1) && decide (par c 1 ≤ 23) && decide (par c 0 + par c 1 ≤ 65536)) 1 (by simp [hone, h23, hfit]))
    (pass_cons (a := (List.range (par c 1)).findSome? (fun i => needParam (decide (par c (6 + 5 * i) &&& 0xFF8E = 0)) (6 + 5 * i)))
      (List.findSome?_eq_none_iff.2 fun i hi => needParam_pass _ (decide_eq_true (hflags i (List.mem_range.1 hi))))
    (pass_cons (needState_of (b := !sweepUses s (par c 0) (par c 1)) 8 (by rw [huse]; rfl)) pass_nil))
  generalize hval : (fun (i : Nat) (_ : SweepStep) =>
    ({ value := parF c (2 + 5 * i), dwell := par32 c (2 + 5 * i + 2), meas := bit (par c (2 + 5 * i + 4)) 0, irange := bits (par c (2 + 5 * i + 4)) 4 3 } : SweepStep)) = val
  have hstep := fun j => foldl_range_get (get := State.swp) (step := fun (s : State) i => s.modSwp (par c 0 + i) (val i)) (key := fun i => par c 0 + i) (val := val)
    (fun i j h => by simpa using h) (fun s i j => by
      rw [State.modSwp_swp]
      split
      next heq => rw [heq]
      next => rfl) (par c 1) s j
  have hall : ∀ l : List Nat, ∃ p, l.foldl (fun (s : State) i => s.modSwp (par c 0 + i) (val i)) s = { s with lp := { s.lp with sweep := p } } := fun l =>
    ⟨_, congrArg (fun v : State => { v with lp := { v.lp with sweep := (l.foldl (fun (s : State) i => s.modSwp (par c 0 + i) (val i)) s).lp.sweep } })
      (foldl_same (F := fun v : State => { v with lp := { v.lp with sweep := [] } }) (step := fun (s : State) i => s.modSwp (par c 0 + i) (val i)) (fun _ _ => rfl) l s)⟩
  obtain ⟨p, hparts⟩ := hall (List.range (par c 1))
  generalize hu : (List.range (par c 1)).foldl (fun (s : State) i => s.modSwp (par c 0 + i) (val i)) s = u at *
  obtain ⟨t, ht, hans⟩ : ∃ t, exec .sweepLoad s = .next t ∧ Answered c 0 0 [] u t := by
    subst hval hu
    exact picked_ok (k := fun c => _) hpick rfl rfl (firstBad_pass hpass) rfl (by rw [hparts]; exact hpick.1)
  refine ⟨u, t, ht, hans, by rw [hparts], fun i hi => ?_, fun k hk => (hstep k).2 fun i hi => by omega⟩
  rw [(hstep _).1 i hi rfl, ← hval]
  have h4 : 2 + 5 * i + 2 = 4 + 5 * i := by omega
  have h6 : 2 + 5 * i + 4 = 6 + 5 * i := by omega
  dsimp only
  rw [h4, h6, bits, Nat.shiftRight_eq_div_pow]
  rfl

/-! SWEEP_RUN (R265, R274). -/

/-- The sources that a start needs (R268, R310). -/
theorem needSource_pass {ls : List Nat} (h : ∀ l ∈ ls, SourceReady s l) : ∀ x ∈ needSource s ls, x = none := by
  refine pass_cons (needLoopsFree_pass fun l hl => ?_) (pass_cons (needWindow_pass fun l hl => .inr (h l hl).2.2.2.2) (pass_cons (needNoMember_pass fun l hl => ?_)
    (pass_cons (firstOf_eq_none.2 fun l hl => needState_of 2 ?_) (pass_cons (needNoRun_pass fun l hl => (h l hl).2.2.1)
    (pass_cons (needNoCal_pass fun l hl => (h l hl).2.2.2.1.1) (pass_cons (needLoopBeds_pass fun l hl => (h l hl).2.2.2.1.2.1)
    (pass_cons (needStage_pass fun l hl => (h l hl).2.2.2.1.2.2) pass_nil)))))))
  · rw [(h l hl).1]
    decide
  · rw [(h l hl).1]
    decide
  · rw [decide_eq_true (h l hl).1, decide_eq_true (h l hl).2.1]
    rfl

theorem firstFailing_none {first steps passes : Nat} {ls : List Nat} (h : ∀ l ∈ ls, stepFails s first steps passes l = none) :
    firstFailing s first steps passes ls = none := by
  have hnone : ls.filterMap (stepFails s first steps passes) = [] := List.filterMap_eq_nil_iff.2 h
  unfold firstFailing
  rw [hnone]
  rfl

theorem sweepRun_starts (hpick : Picked s 0x0405 c) (hone : 1 ≤ par c 1) (hfit : par c 0 + par c 1 ≤ 544)
    (hpath : 512 ≤ par c 0 ∨ par c 0 + par c 1 ≤ 512) (hsteps : 1 ≤ par32 c 3 ∧ par32 c 3 ≤ 65536 ∧ par c 2 + par32 c 3 ≤ 65536)
    (hstart : StartFits c 6) (hflags : par c 11 < 16) (hring : par c 12 = 0xFFFF ∨ (s.ring (par c 12)).state ≠ .free) (htags : TagsFree s c (par c 1))
    (hl : ∀ l ∈ loopRange c 0, stepFails s (par c 2) (par32 c 3) (par c 5) l = none ∧ SourceReady s l ∧
      ((∃ i, par c 2 ≤ i ∧ i < par c 2 + par32 c 3 ∧ (s.swp i).meas = true) → (s.avg l).run = none ∧ (s.avg l).lock = none)) :
    ∃ u t st, exec .sweepRun s = .next t ∧ Answered c 1 0 (w16 (par c 1) :: toWords 4 (startTicks st) ++ [c.tag]) u t ∧
      SourcesStarted c 0x0405 (fun l tag => .sweep { tag := tag, ring := c.ring.toNat, measRing := if par c 12 = 0xFFFF then c.ring.toNat else par c 12, first := par c 0, count := par c 1, start := st, stepFirst := par c 2, steps := par32 c 3, passes := par c 5, begun := 0, done := 0, left := 0, last := 0, began := 0, credit := false, granted := false, restore := if (par c 11).testBit 3 then some (Frac.ofInt (s.loop l).setPoint) else none }) s u ∧
      StartAsked c s 6 (par c 11 % 4) ((par c 11).testBit 2) st ∧ (∀ r, r ≠ c.ring.toNat → u.ring r = s.ring r) := by
  have hlead : (if par c 6 = 1 then needLead c (par64 c 7) 4 else none) = none := needLead_pass 4 hstart
  have hparams := pass_append (pass_append (pass_append (needLoops_pass (i := 0) hone hfit hpath)
    (pass_cons (needParam_pass (b := decide (1 ≤ par32 c 3) && decide (par32 c 3 ≤ 65536) && decide (par c 2 + par32 c 3 ≤ 65536)) 3
      (by simp [hsteps.1, hsteps.2.1, hsteps.2.2])) pass_nil)) (needStart_pass hstart))
    (pass_cons (needParam_pass 11 (decide_eq_true hflags)) (pass_cons (needRing_of (i := 12) hring) (pass_cons hlead pass_nil)))
  have hbusy : firstOf (loopRange c 0) (fun l => needBusy (!((rangeFrom (par c 2) (par32 c 3)).any (fun i => (s.swp i).meas) && ((s.avg l).run.isSome || (s.avg l).lock.isSome))) l) = none := by
    refine firstOf_eq_none.2 fun l hmem => needBusy_eq_none.2 ?_
    cases hmeas : (rangeFrom (par c 2) (par32 c 3)).any (fun i => (s.swp i).meas) with
    | false => rfl
    | true =>
      obtain ⟨i, hi, hm⟩ := List.any_eq_true.1 hmeas
      obtain ⟨hrun, hlock⟩ := (hl l hmem).2.2 ⟨i, (mem_rangeFrom.1 hi).1, (mem_rangeFrom.1 hi).2, hm⟩
      rw [hrun, hlock]
      rfl
  have hchecks := pass_append (pass_append (needTags_pass' htags) (needSource_pass fun l hmem => (hl l hmem).2.1)) (pass_cons hbusy pass_nil)
  have hlen : (loopRange c 0).length = par c 1 := length_rangeFrom ..
  generalize hst : startOf s c 6 (par c 11 % 4) (bit (par c 11) 2) = st
  have hasked : StartAsked c s 6 (par c 11 % 4) ((par c 11).testBit 2) st := hst ▸ startOf_asked c s 6 _ _
  generalize hmk : (fun (l tag : Nat) => Source.sweep { tag := tag, ring := c.ring.toNat, measRing := if par c 12 = 0xFFFF then c.ring.toNat else par c 12, first := par c 0, count := par c 1, start := st, stepFirst := par c 2, steps := par32 c 3, passes := par c 5, begun := 0, done := 0, left := 0, last := 0, began := 0, credit := false, granted := false, restore := if (par c 11).testBit 3 then some (Frac.ofInt (s.loop l).setPoint) else none }) = mk
  obtain ⟨t, ht, hans⟩ : ∃ t, exec .sweepRun s = .next t ∧ Answered c 1 0 (w16 (par c 1) :: toWords 4 (startTicks st) ++ [c.tag]) (startLoops mk (par c 0) (par c 1) c s) t := by
    refine startSources_answers (k := fun c => _) hpick rfl ?_
    dsimp only
    rw [firstBad_pass hparams]
    dsimp only
    rw [firstFailing_none fun l hmem => (hl l hmem).1]
    dsimp only
    rw [hlen]
    refine (checked_pass _ (firstBad_pass hchecks)).trans ?_
    rw [hst, ← hmk]
    rfl
  have hstarted := startLoops_started (mk := mk) hpick hone
  subst hmk
  exact ⟨_, t, st, ht, hans, hstarted, hasked, fun r hr => startLoops_ring _ _ _ _ _ hr⟩

end

/-! LOOP_RANGE (R253 to R257, R271). -/

/-- The settings that LOOP_RANGE gives a loop besides its ranges. -/
def ranged (c : Current) (x : LoopState) : LoopState :=
  { x with
    auto := decide (par c 4 = 1), autoMin := par c 5, autoMax := par c 6
    upN := if par c 7 = 0 then 2 else par c 7, downN := if par c 8 = 0 then 256 else par c 8
    upCount := 0, downCount := 0, autoGoal := none }

/-- LOOP_RANGE on one loop. -/
def rangeLoop (c : Current) (s : State) (l : Nat) : State :=
  requestRange (s.modLoop l (ranged c)) l (rangeGoal s c l).1 (rangeGoal s c l).2

/-- A fold of steps that each change a loop and the members of its gang, over loops that are in no other's gang. -/
theorem foldl_gangs {step : State → Nat → State} {R : Nat → LoopState → LoopState → Prop} (hstep : ∀ v k, R k (v.loop k) ((step v k).loop k))
    (hrest : ∀ v k j, j ≠ k → (j < k ∨ k + (v.loop k).gang ≤ j) → (step v k).loop j = v.loop j) {l : List Nat} (hl : l.Nodup) {s : State}
    (hapart : ∀ a ∈ l, ∀ b ∈ l, a < b → a + (s.loop a).gang ≤ b) :
    (∀ j ∈ l, R j (s.loop j) ((l.foldl step s).loop j)) ∧
      (∀ j, j ∉ l → (∀ a ∈ l, j < a ∨ a + (s.loop a).gang ≤ j) → (l.foldl step s).loop j = s.loop j) := by
  induction l generalizing s with
  | nil => exact ⟨fun j hj => (nomatch hj), fun j _ _ => rfl⟩
  | cons k l ih =>
    obtain ⟨hk, hl⟩ := List.nodup_cons.1 hl
    have hkeep : ∀ j ∈ l, (step s k).loop j = s.loop j := fun j hj => by
      have hne : j ≠ k := fun heq => hk (heq ▸ hj)
      exact hrest s k j hne ((Nat.lt_or_gt_of_ne hne).imp id fun hlt => hapart k List.mem_cons_self j (List.mem_cons_of_mem _ hj) hlt)
    obtain ⟨hin, hout⟩ := ih hl (s := step s k) fun a ha b hb hlt => by
      rw [hkeep a ha]
      exact hapart a (List.mem_cons_of_mem _ ha) b (List.mem_cons_of_mem _ hb) hlt
    rw [List.foldl_cons]
    refine ⟨fun j hj => ?_, fun j hj hfar => ?_⟩
    · rcases List.mem_cons.1 hj with rfl | hj
      · rw [hout j hk fun a ha => ?_]
        · exact hstep s j
        · rw [hkeep a ha]
          have hne : j ≠ a := fun heq => hk (heq ▸ ha)
          exact (Nat.lt_or_gt_of_ne hne).imp id fun hlt => hapart a (List.mem_cons_of_mem _ ha) j List.mem_cons_self hlt
      · rw [← hkeep j hj]
        exact hin j hj
    · obtain ⟨hne, hjl⟩ := not_or.1 (mt List.mem_cons.2 hj)
      rw [hout j hjl fun a ha => by rw [hkeep a ha]; exact hfar a (List.mem_cons_of_mem _ ha)]
      exact hrest s k j hne (hfar k List.mem_cons_self)

theorem switchRange_loop (s : State) (l ni nv : Nat) : ∃ a b c d e f g h, (switchRange s l ni nv).loop l =
    { s.loop l with irange := ni, vrange := nv, setPoint := a, lastSet := b, iHi := c, iLo := d, vHi := e, vLo := f, regions := g, source := h } := by
  unfold switchRange
  dsimp only
  rw [followLeader_loop _ _ _ (.inl le_rfl), modLoop_same]
  exact ⟨_, _, _, _, _, _, _, _, rfl⟩

theorem switchRange_rest (s : State) {l j : Nat} (ni nv : Nat) (hj : j ≠ l) (hfar : j < l ∨ l + (s.loop l).gang ≤ j) : (switchRange s l ni nv).loop j = s.loop j := by
  unfold switchRange
  dsimp only
  rw [followLeader_loop _ _ _ (by rw [modLoop_same]; exact hfar.imp le_of_lt id), modLoop_ne _ _ hj]

theorem switchRange_parts (s : State) (l ni nv : Nat) : ∃ n p, switchRange s l ni nv = { s with free := n, lp := { s.lp with loop := p } } := by
  unfold switchRange
  dsimp only
  generalize hv : State.modLoop s l _ = v
  obtain ⟨n, p, h⟩ := followLeader_parts v l
  rw [h, ← hv]
  exact ⟨n, p, rfl⟩

theorem rangeLoop_rest (c : Current) (s : State) (l j : Nat) (hj : j ≠ l) (hfar : j < l ∨ l + (s.loop l).gang ≤ j) : (rangeLoop c s l).loop j = s.loop j := by
  unfold rangeLoop requestRange
  dsimp only
  split
  · split
    · rw [modLoop_ne _ _ hj, modLoop_ne _ _ hj]
    · rw [modLoop_ne _ _ hj, modLoop_ne _ _ hj]
  · rw [switchRange_rest _ _ _ hj (by rw [modLoop_same]; exact hfar), modLoop_ne _ _ hj]

theorem rangeLoop_parts (c : Current) (s : State) (l : Nat) : ∃ n p, rangeLoop c s l = { s with free := n, lp := { s.lp with loop := p } } := by
  unfold rangeLoop requestRange
  dsimp only
  split
  · split
    · exact ⟨_, _, rfl⟩
    · exact ⟨_, _, rfl⟩
  · obtain ⟨n, p, h⟩ := switchRange_parts (s.modLoop l (ranged c)) l (rangeGoal s c l).1 (rangeGoal s c l).2
    rw [h]
    exact ⟨n, p, rfl⟩

theorem foldl_rangeLoop_parts (c : Current) (s : State) (l : List Nat) : ∃ n p, l.foldl (rangeLoop c) s = { s with free := n, lp := { s.lp with loop := p } } :=
  ⟨_, _, congrArg (fun v : State => { v with free := (l.foldl (rangeLoop c) s).free, lp := { v.lp with loop := (l.foldl (rangeLoop c) s).lp.loop } })
    (foldl_same (F := fun v : State => { v with free := 0, lp := { v.lp with loop := [] } }) (step := rangeLoop c) (fun v k => by
      obtain ⟨n, p, h⟩ := rangeLoop_parts c v k
      rw [h]) l s)⟩

/-- The ranges that LOOP_RANGE asks of a loop (R256, R271). -/
def goalOf (c : Current) (x : LoopState) : Nat × Nat :=
  (if par c 4 = 1 then max (par c 5) (min (par c 6) (if par c 2 = 0xFF then x.irange else par c 2)) else if par c 2 = 0xFF then x.irange else par c 2,
   if par c 3 = 0xFF then x.vrange else par c 3)

theorem rangeGoal_eq (s : State) (c : Current) (l : Nat) : rangeGoal s c l = goalOf c (s.loop l) := rfl

/-- What LOOP_RANGE leaves of a stopped loop. -/
structure RangedStopped (c : Current) (x y : LoopState) : Prop where
  irange : y.irange = (goalOf c x).1
  vrange : y.vrange = (goalOf c x).2
  auto : y.auto = decide (par c 4 = 1)
  autoMin : y.autoMin = par c 5
  autoMax : y.autoMax = par c 6
  state : y.state = .stopped
  upN : y.upN = if par c 7 = 0 then 2 else par c 7
  downN : y.downN = if par c 8 = 0 then 256 else par c 8
  change : y.change = x.change
  changeNext : y.changeNext = x.changeNext

theorem rangeLoop_stopped (c : Current) (s : State) (l : Nat) (h : (s.loop l).state = .stopped) : RangedStopped c (s.loop l) ((rangeLoop c s l).loop l) := by
  have hswitch : rangeLoop c s l = switchRange (s.modLoop l (ranged c)) l (goalOf c (s.loop l)).1 (goalOf c (s.loop l)).2 := by
    unfold rangeLoop requestRange
    dsimp only
    refine if_neg fun hrun => ?_
    rw [modLoop_same, show (ranged c (s.loop l)).state = (s.loop l).state from rfl, h] at hrun
    exact hrun.1.elim (fun h => nomatch h) (fun h => nomatch h)
  obtain ⟨_, _, _, _, _, _, _, _, hloop⟩ := switchRange_loop (s.modLoop l (ranged c)) l (goalOf c (s.loop l)).1 (goalOf c (s.loop l)).2
  rw [hswitch, hloop, modLoop_same]
  exact ⟨rfl, rfl, rfl, rfl, rfl, h, rfl, rfl, rfl, rfl⟩

/-- LOOP_RANGE on a regulating loop that it gives another range. -/
def pendRange (c : Current) (s : State) (l : Nat) : State :=
  (s.modLoop l (ranged c)).modLoop l (fun x => { x with changeNext := some (goalOf c (s.loop l)) })

theorem rangeLoop_regulating (c : Current) (s : State) (l : Nat) (h : (s.loop l).state = .regulating ∧ (s.loop l).stage = 0 ∧ (s.loop l).irange ≠ (goalOf c (s.loop l)).1) :
    rangeLoop c s l = pendRange c s l := by
  obtain ⟨hstate, hstage, hrange⟩ := h
  have hloop : (s.modLoop l (ranged c)).loop l = ranged c (s.loop l) := modLoop_same ..
  unfold rangeLoop requestRange
  dsimp only
  rw [hloop, if_pos ⟨.inl hstate, by rw [show (ranged c (s.loop l)).stage = (s.loop l).stage from rfl, hstage]; decide⟩]
  exact if_neg fun heq => hrange heq.1.symm

theorem pendRange_loop (c : Current) (s : State) (l j : Nat) : (pendRange c s l).loop j =
    if j = l then { ranged c (s.loop l) with changeNext := some (goalOf c (s.loop l)) } else s.loop j := by
  unfold pendRange
  rw [State.modLoop_loop]
  split
  · rw [modLoop_same]
  next hne => rw [modLoop_ne _ _ hne]

section
variable {s : State} {c : Current}

theorem needRangeValues_pass {l : Nat} (h : (s.loop l).state = .stopped) (i v : Nat) : needRangeValues s l i v = none := if_pos (.inl h)

/-- The checks of LOOP_RANGE (R253, R271). -/
abbrev rangeChecks (s : State) (c : Current) : List (Option Bad) :=
  needLoops c 0 ++
       [needParam (decide (par c 2 ≤ 4) || decide (par c 2 = 0xFF) || (decide (512 ≤ par c 0) && decide (par c 2 = 5))) 2,
        firstOf (loopRange c 0) (fun l => if par c 2 = 0xFF ∨ ((s.loop l).stage = 0 ∧ par c 2 ≤ 4) ∨ ((s.loop l).stage ≠ 0 ∧ par c 2 = 5) then none else some (0x12, 0x8007)),
        needParam (decide (par c 3 = 0xFF) || (decide (512 ≤ par c 0) && decide (par c 3 ≤ 1))) 3,
        needParam (decide (par c 4 ≤ 1) && !(decide (par c 4 = 1) && (loopRange c 0).any (fun l =>
          decide ((s.loop l).stage ≠ 0) || (decide ((s.loop l).state ≠ .stopped) && decide ((s.loop l).mode = 1))))) 4,
        needParam ((loopRange c 0).all (fun l => autoCode s l (par c 5)) && decide (par c 5 ≤ par c 6)) 5,
        needParam ((loopRange c 0).all (fun l => autoCode s l (par c 6))) 6, needParam (decide (par c 7 ≤ 255)) 7,
        firstOf (loopRange c 0) (fun l => needRangeValues s l (rangeGoal s c l).1 (rangeGoal s c l).2),
        needLoopsFree s (loopRange c 0), needNoMember s (loopRange c 0), needNoRun s (loopRange c 0), needNoCal s (loopRange c 0), needLoopBeds s (loopRange c 0)]

/-- A loop that LOOP_RANGE may range (R268). -/
structure MayRange (s : State) (c : Current) (l : Nat) : Prop where
  code : par c 2 = 0xFF ∨ ((s.loop l).stage = 0 ∧ par c 2 ≤ 4) ∨ ((s.loop l).stage ≠ 0 ∧ par c 2 = 5)
  auto : par c 4 = 1 → (s.loop l).stage = 0 ∧ (s.loop l).state = .stopped
  low : autoCode s l (par c 5) = true
  high : autoCode s l (par c 6) = true
  values : needRangeValues s l (rangeGoal s c l).1 (rangeGoal s c l).2 = none
  state : (s.loop l).state = .stopped ∨ (s.loop l).state = .regulating
  source : (s.loop l).source = .dc
  cal : calHoldsLoop s l = false
  bed : bedActive s (loopBed l) = true

theorem rangeChecks_pass (hone : 1 ≤ par c 1) (hfit : par c 0 + par c 1 ≤ 544) (hpath : 512 ≤ par c 0 ∨ par c 0 + par c 1 ≤ 512)
    (hcode : par c 2 ≤ 4 ∨ par c 2 = 0xFF ∨ 512 ≤ par c 0 ∧ par c 2 = 5) (hv : par c 3 = 0xFF ∨ 512 ≤ par c 0 ∧ par c 3 ≤ 1) (hauto : par c 4 ≤ 1)
    (hmm : par c 5 ≤ par c 6) (hup : par c 7 ≤ 255) (hl : ∀ l ∈ loopRange c 0, MayRange s c l) : ∀ x ∈ rangeChecks s c, x = none := by
  refine pass_append (needLoops_pass (i := 0) hone hfit hpath) (pass_cons (needParam_pass _ ?_) (pass_cons (firstOf_eq_none.2 fun l hmem => if_pos (hl l hmem).code)
    (pass_cons (needParam_pass _ ?_) (pass_cons (needParam_pass _ ?_) (pass_cons (needParam_pass _ ?_) (pass_cons (needParam_pass _ (List.all_eq_true.2 fun l hmem => (hl l hmem).high))
    (pass_cons (needParam_pass _ (decide_eq_true hup)) (pass_cons (firstOf_eq_none.2 fun l hmem => (hl l hmem).values)
    (pass_cons (needLoopsFree_pass fun l hmem => ?_) (pass_cons (needNoMember_pass fun l hmem => ?_) (pass_cons (needNoRun_pass fun l hmem => (hl l hmem).source)
    (pass_cons (needNoCal_pass fun l hmem => (hl l hmem).cal) (pass_cons (needLoopBeds_pass fun l hmem => (hl l hmem).bed) pass_nil)))))))))))))
  · simpa [or_assoc] using hcode
  · simpa using hv
  · rw [decide_eq_true hauto, Bool.true_and, Bool.not_eq_true', Bool.and_eq_false_iff]
    refine (em (par c 4 = 1)).symm.imp decide_eq_false fun h1 => List.any_eq_false.2 fun l hmem => ?_
    obtain ⟨hst, hs⟩ := (hl l hmem).auto h1
    rw [hst, hs]
    simp
  · rw [decide_eq_true hmm, Bool.and_true]
    exact List.all_eq_true.2 fun l hmem => (hl l hmem).low
  · rcases (hl l hmem).state with h | h <;> rw [h] <;> decide
  · rcases (hl l hmem).state with h | h <;> rw [h] <;> decide

theorem exec_loopRange : exec .loopRange s = .next (onCommand s 0x0402 (fun _ => true) (fun c => checked s (rangeChecks s c) (fun s =>
    if (loopRange c 0).any (fun l => (((loopRange c 0).foldl (rangeLoop c) s).loop l).change.isSome || (((loopRange c 0).foldl (rangeLoop c) s).loop l).changeNext.isSome)
    then waitFor ((loopRange c 0).foldl (rangeLoop c) s) .rangeSettle else postOk ((loopRange c 0).foldl (rangeLoop c) s)))) := rfl

theorem loopRange_stopped (hpick : Picked s 0x0402 c) (hone : 1 ≤ par c 1) (hfit : par c 0 + par c 1 ≤ 544) (hpath : 512 ≤ par c 0 ∨ par c 0 + par c 1 ≤ 512)
    (hv : par c 3 = 0xFF ∨ 512 ≤ par c 0 ∧ par c 3 ≤ 1) (hauto : par c 4 ≤ 1) (hmm : par c 5 ≤ par c 6) (hup : par c 7 ≤ 255)
    (hl : ∀ l ∈ loopRange c 0, ((s.loop l).stage = 0 ∧ (par c 2 ≤ 4 ∨ par c 2 = 0xFF) ∧ par c 6 ≤ 4 ∨
        (s.loop l).stage ≠ 0 ∧ 512 ≤ l ∧ (par c 2 = 5 ∨ par c 2 = 0xFF) ∧ par c 4 = 0 ∧ par c 5 = 5 ∧ par c 6 = 5) ∧
      (s.loop l).state = .stopped ∧ (s.loop l).source = .dc ∧ (∀ k ∈ loopRange c 0, l < k → l + (s.loop l).gang ≤ k) ∧
      calHoldsLoop s l = false ∧ bedActive s (loopBed l) = true ∧ (s.loop l).change = none ∧ (s.loop l).changeNext = none) :
    ∃ u t, exec .loopRange s = .next t ∧ Answered c 0 0 [] u t ∧ u = { s with free := u.free, lp := { s.lp with loop := u.lp.loop } } ∧
      (∀ l ∈ loopRange c 0, (u.loop l).irange = (rangeGoal s c l).1 ∧ (u.loop l).vrange = (rangeGoal s c l).2 ∧ (u.loop l).auto = decide (par c 4 = 1) ∧
        (u.loop l).autoMin = par c 5 ∧ (u.loop l).autoMax = par c 6 ∧
        (u.loop l).state = .stopped ∧ (u.loop l).upN = (if par c 7 = 0 then 2 else par c 7) ∧ (u.loop l).downN = (if par c 8 = 0 then 256 else par c 8)) ∧
      (∀ k, k ∉ loopRange c 0 → (∀ l ∈ loopRange c 0, k < l ∨ l + (s.loop l).gang ≤ k) → u.loop k = s.loop k) := by
  have hpass : ∀ x ∈ rangeChecks s c, x = none := by
    have hfirst := (hl (par c 0) (mem_loopRange.2 ⟨le_rfl, by omega⟩)).1
    refine rangeChecks_pass hone hfit hpath ?_ hv hauto hmm hup fun l hmem => ?_
    · rcases hfirst with ⟨-, h, -⟩ | ⟨-, hheavy, h, -⟩ <;> omega
    · obtain ⟨hkind, hstate, hsource, -, hcal, hbed, -, -⟩ := hl l hmem
      refine ⟨?_, fun h1 => ⟨?_, hstate⟩, ?_, ?_, needRangeValues_pass hstate _ _, .inl hstate, hsource, hcal, hbed⟩
      · rcases hkind with ⟨hs, h, -⟩ | ⟨hs, -, h, -⟩
        · exact h.symm.imp id fun h => .inl ⟨hs, h⟩
        · exact h.symm.imp id fun h => .inr ⟨hs, h⟩
      · rcases hkind with ⟨hs, -⟩ | ⟨-, -, -, h, -⟩
        · exact hs
        · omega
      · rcases hkind with ⟨hs, -, h⟩ | ⟨hs, -, -, -, h, -⟩
        · exact (if_pos hs).trans (decide_eq_true (by omega))
        · exact (if_neg hs).trans (decide_eq_true h)
      · rcases hkind with ⟨hs, -, h⟩ | ⟨hs, -, -, -, -, h⟩
        · exact (if_pos hs).trans (decide_eq_true h)
        · exact (if_neg hs).trans (decide_eq_true h)
  obtain ⟨hin, hout⟩ := foldl_gangs (R := fun _ x y => x.state = .stopped → RangedStopped c x y) (fun v k => rangeLoop_stopped c v k) (rangeLoop_rest c)
    (nodup_loopRange c) (s := s) fun a ha b hb hlt => (hl a ha).2.2.2.1 b hb hlt
  obtain ⟨n, p, hparts⟩ := foldl_rangeLoop_parts c s (loopRange c 0)
  obtain ⟨t, ht, hans⟩ : ∃ t, exec .loopRange s = .next t ∧ Answered c 0 0 [] ((loopRange c 0).foldl (rangeLoop c) s) t := by
    rw [exec_loopRange]
    refine picked_ok (k := fun c => _) hpick rfl rfl (firstBad_pass hpass) (if_neg ?_) (by rw [hparts]; exact hpick.1)
    rw [Bool.not_eq_true]
    refine List.any_eq_false.2 fun l hmem => ?_
    obtain ⟨-, hstate, -, -, -, -, hc, hn⟩ := hl l hmem
    have hr := hin l hmem hstate
    rw [hr.change, hr.changeNext, hc, hn]
    decide
  generalize (loopRange c 0).foldl (rangeLoop c) s = u at hin hout hparts hans
  refine ⟨u, t, ht, hans, by rw [hparts], fun l hmem => ?_, hout⟩
  have hr := hin l hmem (hl l hmem).2.1
  exact ⟨hr.irange, hr.vrange, hr.auto, hr.autoMin, hr.autoMax, hr.state, hr.upN, hr.downN⟩

theorem loopRange_regulating (hpick : Picked s 0x0402 c) (hone : 1 ≤ par c 1) (hfit : par c 0 + par c 1 ≤ 544) (hpath : 512 ≤ par c 0 ∨ par c 0 + par c 1 ≤ 512)
    (hcode : par c 2 ≤ 4) (hv : par c 3 = 0xFF) (hauto : par c 4 = 0) (hmm : par c 5 ≤ par c 6) (hmax : par c 6 ≤ 4) (hup : par c 7 ≤ 255)
    (hl : ∀ l ∈ loopRange c 0, (s.loop l).stage = 0 ∧ (s.loop l).state = .regulating ∧ (s.loop l).source = .dc ∧
      calHoldsLoop s l = false ∧ bedActive s (loopBed l) = true ∧ (s.loop l).irange ≠ par c 2 ∧
      ((s.loop l).mode = 1 → ((recode s l false (s.loop l).irange (s.loop l).vrange (par c 2) (s.loop l).vrange (s.loop l).setPoint).natAbs : Int) ≤ nominalCode)) :
    ∃ u t, exec .loopRange s = .next t ∧ Waits c .rangeSettle [] u t ∧ u = { s with lp := { s.lp with loop := u.lp.loop } } ∧
      (∀ l ∈ loopRange c 0, u.loop l = { s.loop l with changeNext := some (par c 2, (s.loop l).vrange), auto := false, autoMin := par c 5, autoMax := par c 6, upN := if par c 7 = 0 then 2 else par c 7, downN := if par c 8 = 0 then 256 else par c 8, upCount := 0, downCount := 0, autoGoal := none }) ∧
      (∀ l, l ∉ loopRange c 0 → u.loop l = s.loop l) := by
  have hgoal : ∀ x : LoopState, goalOf c x = (par c 2, x.vrange) := fun x => by
    unfold goalOf
    rw [if_neg (by omega), if_neg (by omega), if_pos hv]
  have hpass : ∀ x ∈ rangeChecks s c, x = none := by
    refine rangeChecks_pass hone hfit hpath (.inl hcode) (.inl hv) (by omega) hmm hup fun l hmem => ?_
    obtain ⟨hs, hstate, hsource, hcal, hbed, -, hrecode⟩ := hl l hmem
    refine ⟨.inr (.inl ⟨hs, hcode⟩), fun h1 => by omega, (if_pos hs).trans (decide_eq_true (by omega)), (if_pos hs).trans (decide_eq_true hmax), ?_, .inr hstate, hsource, hcal, hbed⟩
    rw [rangeGoal_eq, hgoal]
    refine if_pos (.inr ?_)
    have hcurr : (s.loop l).mode ≠ 1 ∨ ((recode s l false (s.loop l).irange (s.loop l).vrange (par c 2) (s.loop l).vrange (s.loop l).setPoint).natAbs : Int) ≤ nominalCode :=
      (em ((s.loop l).mode = 1)).symm.imp id hrecode
    rw [Bool.and_eq_true_iff]
    refine ⟨by rw [decide_eq_true rfl]; rfl, ?_⟩
    rcases hcurr with h | h
    · rw [decide_eq_true h]; rfl
    · rw [decide_eq_true h, Bool.or_true]
  have hfold : (loopRange c 0).foldl (rangeLoop c) s = (loopRange c 0).foldl (pendRange c) s :=
    foldl_keyed_congr (get := State.loop) (P := fun x => x.state = .regulating ∧ x.stage = 0 ∧ x.irange ≠ (goalOf c x).1) (fun v l => rangeLoop_regulating c v l)
      (fun v k j hj => (pendRange_loop ..).trans (if_neg hj)) (nodup_loopRange c) fun l hmem => by
        obtain ⟨hs, hstate, -, -, -, hne, -⟩ := hl l hmem
        exact ⟨hstate, hs, by rw [hgoal]; exact hne⟩
  have hloop := foldl_keyed (get := State.loop) (step := pendRange c) (f := fun _ x => { ranged c x with changeNext := some (goalOf c x) }) (pendRange_loop c) (nodup_loopRange c) s
  have hall : ∀ l : List Nat, ∃ p, l.foldl (pendRange c) s = { s with lp := { s.lp with loop := p } } := fun l =>
    ⟨_, congrArg (fun v : State => { v with lp := { v.lp with loop := (l.foldl (pendRange c) s).lp.loop } })
      (foldl_same (F := fun v : State => { v with lp := { v.lp with loop := [] } }) (step := pendRange c) (fun _ _ => rfl) l s)⟩
  obtain ⟨p, hparts⟩ := hall (loopRange c 0)
  obtain ⟨t, ht, hwaits⟩ : ∃ t, exec .loopRange s = .next t ∧ Waits c .rangeSettle [] ((loopRange c 0).foldl (pendRange c) s) t := by
    rw [exec_loopRange]
    refine picked_waits (k := fun c => _) hpick rfl rfl (firstBad_pass hpass) ?_ (by rw [hparts]; exact hpick.1)
    rw [hfold]
    refine if_pos (List.any_eq_true.2 ⟨par c 0, mem_loopRange.2 ⟨le_rfl, by omega⟩, ?_⟩)
    rw [hloop, if_pos (mem_loopRange.2 ⟨le_rfl, by omega⟩)]
    exact Bool.or_true _
  generalize (loopRange c 0).foldl (pendRange c) s = u at hloop hparts hwaits
  refine ⟨u, t, ht, hwaits, by rw [hparts], fun l hmem => ?_, fun l hmem => ?_⟩
  · rw [hloop, if_pos hmem, hgoal]
    unfold ranged
    rw [hauto]
    rfl
  · rw [hloop, if_neg hmem]

end

/-- Settles O27: folds over the loops named, whose steps change each its own loop and the gang that follows it. -/
theorem loopCommands : Obligations.LoopCommands := by
  unfold Obligations.LoopCommands
  refine ⟨fun s c => loopConfig_plain, fun s c h n => loopConfig_gang, fun s c h => loopConfig_dissolve, fun s c => loopConfig_reads, fun s c due => loopForce_pends,
    fun s c h => loopForce_inhibited, fun s c => loopRange_stopped, fun s c => loopRange_regulating, ?_, fun s c => sweepLoad_fills, ?_⟩
  · intro s c hpick hone hfit hpath hq hfhi hflo hlt hl
    obtain ⟨u, t, ht, hans, hparts, hin, hout⟩ := loopComply_limits hpick hone hfit hpath hq hfhi hflo hlt hl
    refine ⟨u, t, ht, hans, hparts, fun l hmem => ?_, hout⟩
    rw [hin l hmem]
    obtain h | h : par c 2 = 0 ∨ par c 2 = 1 := by omega
    · rw [h]
      rfl
    · rw [h]
      rfl
  · intro s c hpick hone hfit hpath h1 h2 h3 hle hzero hlead hflags hring htag htags hl
    obtain ⟨u, t, st, ht, hans, ⟨hin, hout, hprog, hparts⟩, ⟨h0, hat, htin⟩, hrings⟩ := sweepRun_starts hpick hone hfit hpath ⟨h1, h2, h3⟩
      ⟨hle, fun hne k hlo hhi => hzero hne k (by omega) (by omega), hlead⟩ hflags hring ⟨htag, htags⟩ fun l hmem => by
        obtain ⟨hfail, hwin, hstate, hmode, hsource, hcal, hbed, hstage, hmeas⟩ := hl l hmem
        exact ⟨hfail, ⟨hstate, hmode, hsource, ⟨hcal, hbed, hstage⟩, hwin⟩, hmeas⟩
    exact ⟨u, t, st, ht, hans, fun i hi => ⟨(hin i hi).1, (hin i hi).2.trans (by rw [w16_toNat]; rfl)⟩, h0, hat, htin, hout, hprog, hrings, hparts⟩

end Sys2Proof.Machine
end

section
/-! PROOFS. Set-point generators (R297 to R308, R310, R313 to R317): how their runs end and what waits in them. -/

set_option Elab.async false

namespace Sys2Proof.Machine

/-! How a run ends (R297, R302, R308). -/

/-- Loop `l` after its run: its set-point is a DC value again, `sp` if one is restored. -/
def runClosed (s : State) (l : Nat) (sp : Option Int) : State :=
  s.modLoop l (fun x => { x with source := .dc, rate := 0, accel := 0, setPoint := sp.getD x.setPoint })

/-- The end of a loop's run that has met its end. -/
def runEnd (s : State) (l tag ring steps output time : Nat) : PendingEnd :=
  { workEnd s tag ring 0 0 2 l 1 0 output steps with time := time, flags := flag 3 s.clk.holdover }

/-- The run of loop `l` has ended with end `e`: the loop keeps its set-point, or `sp`; nothing else has changed. -/
def RunEnded (s : State) (l : Nat) (sp : Option Int) (e : PendingEnd) (t : State) : Prop :=
  t.loop l = { s.loop l with source := .dc, rate := 0, accel := 0, setPoint := sp.getD (s.loop l).setPoint } ∧ Ended e t ∧
    (∀ k, k ≠ l → t.loop k = s.loop k) ∧
    t = { s with fw := { s.fw with progress := t.fw.progress }, lp := { s.lp with loop := t.lp.loop }, harv := t.harv, flt := { s.flt with waiting := t.flt.waiting } }

theorem runClosed_ended (s : State) (l : Nat) (sp : Option Int) (e : PendingEnd) : RunEnded s l sp e (endWork (runClosed s l sp) e) := by
  have hended := endWork_ended (runClosed s l sp) e
  obtain ⟨p, h, w, heq⟩ := endWork_parts (runClosed s l sp) e
  rw [heq] at hended ⊢
  exact ⟨modLoop_same .., hended, fun k hk => modLoop_ne _ _ hk, rfl⟩

theorem endLoopRun_profile {s : State} {l : Nat} {r : ProfileRun} (h : (s.loop l).source = .profile r) (time : Nat) :
    endLoopRun s l 0 2 time = endWork (runClosed s l none) (runEnd s l r.tag r.ring r.k 2 time) := by
  unfold endLoopRun
  dsimp only
  rw [h]
  rfl

theorem endLoopRun_wave {s : State} {l : Nat} {r : WaveRun} (h : (s.loop l).source = .wave r) (time : Nat) :
    endLoopRun s l 0 2 time = endWork (runClosed s l (restoreCode r.restore)) (runEnd s l r.tag r.ring r.instances (if r.restore.isSome then 1 else 2) time) := by
  have hsome : (restoreCode r.restore).isSome = r.restore.isSome := Option.isSome_map
  unfold endLoopRun
  dsimp only
  rw [h]
  unfold runEnd
  rw [← hsome]
  refine congrArg (endWork _) (congrArg (fun o => { workEnd s r.tag r.ring 0 0 2 l 1 0 o r.instances with time := time, flags := flag 3 s.clk.holdover }) ?_)
  simp [restoreOf]

theorem endLoopRun_sine {s : State} {l : Nat} {r : SineRun} (h : (s.loop l).source = .sine r) (time : Nat) :
    endLoopRun s l 0 2 time = endWork (runClosed (endRefs s l 0) l none) (runEnd (endRefs s l 0) l r.tag r.ring r.turns 2 time) := by
  unfold endLoopRun
  dsimp only
  rw [h]
  rfl

/-! What the end of a sine does to lock-ins that follow it leaves the set-points of loops alone (R331). -/

/-- The set-points of all loops. -/
def setPoints (s : State) (l : Nat) : Int := (s.loop l).setPoint

section
variable (s : State)

theorem setPoints_of_lp {s t : State} (h : t.lp = s.lp) : setPoints t = setPoints s := by
  unfold setPoints State.loop
  rw [h]

theorem setPoints_grantCredit (r : Nat) (w : Waiter) (n : Nat) : setPoints (grantCredit s r w n) = setPoints s := by
  cases w with
  | sweepStep first count =>
    refine foldl_same (F := setPoints) (step := fun s l => modSweep s l (fun x => { x with granted := true })) (fun v l => funext fun k => ?_) _ s
    unfold setPoints modSweep
    rw [State.modLoop_loop]
    split
    next heq =>
      rw [heq]
      dsimp only
      split <;> rfl
    next => rfl
  | burstEnd | measWindow | lockWindow | timWindow | completion => rfl

theorem setPoints_serveWaiters (r : Nat) (l : List (Waiter × Nat)) : setPoints (serveWaiters s r l) = setPoints s := by
  induction l generalizing s with
  | nil => rfl
  | cons e l ih =>
    unfold serveWaiters
    split
    · rw [ih, setPoints_grantCredit]
      rfl
    · rfl

theorem setPoints_serviceRing (r : Nat) : setPoints (serviceRing s r) = setPoints s := by
  unfold serviceRing
  dsimp only
  rw [setPoints_of_lp (only_lp (retryEnds_only (w := 67616) rfl only_refl)), setPoints_serveWaiters,
    setPoints_of_lp (only_lp (closeLoss_only (w := 71936) rfl only_refl))]

theorem setPoints_placeHeld (st r cap units tag typ flags time : Nat) (body : List Byte) :
    setPoints (placeHeld s st r cap units tag typ flags time body).1 = setPoints s := by
  unfold placeHeld
  split
  · rfl
  split
  · exact setPoints_of_lp (only_lp (State.raise_only (w := 65536) rfl only_refl))
  next t ht =>
    have hroom : setPoints t = setPoints s := setPoints_of_lp (only_lp (stageRoom_only (w := 2048) rfl only_refl t ht))
    have hplaced : ∀ v : State, setPoints (placeIn v st r units tag (fun q => recordBytes typ (recordFlags t flags) units q time body)) = setPoints v := fun v =>
      setPoints_of_lp (only_lp (placeIn_only (w := 2048) rfl only_refl))
    dsimp only
    split
    · rw [setPoints_serviceRing, hplaced]
      exact hroom
    · rw [hplaced]
      exact hroom

theorem setPoints_endLockRun (l : Nat) (part : Bool) (cause : Nat) : setPoints (endLockRun s l part cause) = setPoints s := by
  unfold endLockRun
  split
  · rfl
  next r hr =>
    have hleft : ∀ v : State, setPoints (leaveWaiters v r.ring (.lockWindow l)) = setPoints v := fun v => setPoints_of_lp (only_lp (leaveWaiters_only (w := 2048) rfl only_refl))
    dsimp only
    rw [setPoints_of_lp (only_lp (endWork_only (w := 67616) rfl only_refl))]
    split
    · rw [returnCredit, setPoints_serviceRing]
      exact hleft _
    · exact hleft _

theorem setPoints_endLockWindow (l : Nat) : setPoints (endLockWindow s l) = setPoints s := by
  unfold endLockWindow
  split
  · rfl
  split
  · rfl
  next r hr o w credit he =>
    dsimp only
    generalize hheld : (if credit = true then placeHeld s (keyBed l) r.ring (lockRecord s l r w).1 (lockRecord s l r w).1 r.tag 6 (flag 3 w.unref) (lockRecord s l r w).2.1
      (lockRecord s l r w).2.2 else (s, true)) = held
    have hsame : setPoints held.1 = setPoints s := by
      rw [← hheld]
      split
      · exact setPoints_placeHeld ..
      · rfl
    split
    · exact hsame
    · split
      · rw [setPoints_endLockRun]
        exact hsame
      · exact hsame

theorem setPoints_putLast (l : Nat) (r : LockRun) (w : Window) (credit part : Bool) : setPoints (putLast s l r w credit part) = setPoints s := by
  unfold putLast
  dsimp only
  split
  · unfold placeLast
    dsimp only
    split <;> exact setPoints_placeHeld ..
  · rfl

theorem setPoints_cutLock (l cause : Nat) : setPoints (cutLock s l cause) = setPoints s := by
  unfold cutLock
  dsimp only
  split
  · exact setPoints_endLockWindow ..
  next r hr =>
    rw [setPoints_endLockRun]
    have hfirst : setPoints (match r.ended with
        | some (w, credit) => modLockRun (putLast (endLockWindow s l) l r w credit false) l (fun r => { r with ended := none, done := r.done + 1 })
        | none => endLockWindow s l) = setPoints s := by
      split
      · exact (setPoints_putLast ..).trans (setPoints_endLockWindow ..)
      · exact setPoints_endLockWindow ..
    split
    · exact (setPoints_putLast ..).trans hfirst
    · exact hfirst

theorem setPoints_endRefs (l cause : Nat) : setPoints (endRefs s l cause) = setPoints s := by
  have hstep : ∀ (v : State) (e : Nat × Averager), setPoints (cutLock v e.1 cause) = setPoints v := fun v e => setPoints_cutLock v e.1 cause
  unfold endRefs
  generalize (tents s.meas.avg).filter (fun e => e.2.lock.any (fun r => decide (r.ref = l))) = m
  exact foldl_same hstep m s

end

theorem endRefs_none {s : State} (h : ∀ a ∈ s.meas.avg, a.2.lock = none) (l cause : Nat) : endRefs s l cause = s := by
  have hnone : (tents s.meas.avg).filter (fun e => e.2.lock.any (fun r => decide (r.ref = l))) = [] := by
    refine List.filter_eq_nil_iff.2 fun e he => ?_
    rw [h e (mem_of_mem_tents he)]
    simp
  rw [endRefs, hnone]
  rfl

section
variable {s : State} {l : LoopId}

theorem exec_profileMoveEnd {r : ProfileRun} (h : (s.loop l.val).source = .profile r) (hend : r.begun = true ∧ r.k = profileLen r) :
    exec (.profileMoveEnd l) s = .next (endWork (runClosed s l.val none) (runEnd s l.val r.tag r.ring r.k 2 (s.loop l.val).lastSample)) := by
  rw [← endLoopRun_profile h]
  refine congrArg Host.Outcome.next ?_
  rw [h]
  exact if_pos hend

theorem profileMoveEnd_waits (h : ∀ r, (s.loop l.val).source = .profile r → r.begun = false ∨ r.k ≠ profileLen r) : exec (.profileMoveEnd l) s = .next s := by
  refine congrArg Host.Outcome.next ?_
  cases hsrc : (s.loop l.val).source with
  | profile r =>
    refine if_neg fun hend => ?_
    rcases h r hsrc with hb | hk
    · rw [hb] at hend
      cases hend.1
    · exact hk hend.2
  | dc | sweep | wave | sine => rfl

theorem waveOn_of {r : WaveRun} (h : (s.loop l.val).source = .wave r) : waveOn s l.val = some r := by
  unfold waveOn
  rw [h]

theorem sineOn_of {r : SineRun} (h : (s.loop l.val).source = .sine r) : sineOn s l.val = some r := by
  unfold sineOn
  rw [h]

theorem exec_waveRunEnd {r : WaveRun} (h : (s.loop l.val).source = .wave r) (hend : r.ended = true) :
    exec (.waveRunEnd l) s = .next (endWork (runClosed s l.val (restoreCode r.restore))
      (runEnd s l.val r.tag r.ring r.instances (if r.restore.isSome then 1 else 2) (s.loop l.val).lastSample)) := by
  rw [← endLoopRun_wave h]
  refine congrArg Host.Outcome.next ?_
  rw [waveOn_of h]
  exact if_pos hend

theorem waveRunEnd_waits (h : ∀ r, (s.loop l.val).source = .wave r → r.ended = false) : exec (.waveRunEnd l) s = .next s := by
  refine congrArg Host.Outcome.next ?_
  unfold waveOn
  cases hsrc : (s.loop l.val).source with
  | wave r => exact if_neg (by rw [h r hsrc]; decide)
  | dc | sweep | profile | sine => rfl

theorem exec_sineRampEnd {r : SineRun} (h : (s.loop l.val).source = .sine r) (hend : r.quiet = true) :
    exec (.sineRampEnd l) s = .next (endWork (runClosed (endRefs s l.val 0) l.val none) (runEnd (endRefs s l.val 0) l.val r.tag r.ring r.turns 2 (s.loop l.val).lastSample)) := by
  rw [← endLoopRun_sine h]
  refine congrArg Host.Outcome.next ?_
  rw [sineOn_of h]
  exact if_pos hend

theorem sineRampEnd_waits (h : ∀ r, (s.loop l.val).source = .sine r → r.quiet = false) : exec (.sineRampEnd l) s = .next s := by
  refine congrArg Host.Outcome.next ?_
  unfold sineOn
  cases hsrc : (s.loop l.val).source with
  | sine r => exact if_neg (by rw [sineDone, h r hsrc]; decide)
  | dc | sweep | profile | wave => rfl

theorem sineRampEnd_ends {r : SineRun} (h : (s.loop l.val).source = .sine r) (hend : r.quiet = true) :
    ∃ t e, exec (.sineRampEnd l) s = .next t ∧ (t.loop l.val).source = .dc ∧ (t.loop l.val).setPoint = (s.loop l.val).setPoint ∧
      Ended e t ∧ e.tag = r.tag ∧ e.ring = r.ring ∧ e.status = 0 ∧ e.cause = 0 ∧ e.steps = r.turns ∧ e.output = 2 ∧ e.time = (s.loop l.val).lastSample ∧
      ((∀ a ∈ s.meas.avg, a.2.lock = none) → t.loop l.val = { s.loop l.val with source := .dc, rate := 0, accel := 0 } ∧ (∀ n, n ≠ l.val → t.loop n = s.loop n) ∧
        t = { s with fw := { s.fw with progress := t.fw.progress }, lp := { s.lp with loop := t.lp.loop }, harv := t.harv, flt := { s.flt with waiting := t.flt.waiting } }) := by
  obtain ⟨hloop, hended, -, -⟩ := runClosed_ended (endRefs s l.val 0) l.val none
    (runEnd (endRefs s l.val 0) l.val r.tag r.ring r.turns 2 (s.loop l.val).lastSample)
  have hsp : ((endRefs s l.val 0).loop l.val).setPoint = (s.loop l.val).setPoint := congrFun (setPoints_endRefs s l.val 0) l.val
  refine ⟨_, _, exec_sineRampEnd h hend, by rw [hloop], by rw [hloop]; exact hsp, hended, rfl, rfl, rfl, rfl, rfl, rfl, rfl, fun hlocks => ?_⟩
  rw [endRefs_none hlocks]
  obtain ⟨hloop, -, hrest, hparts⟩ := runClosed_ended s l.val none (runEnd s l.val r.tag r.ring r.turns 2 (s.loop l.val).lastSample)
  exact ⟨hloop, hrest, hparts⟩

/-! What the count of a sine makes due (R306). -/

theorem sineCyclesEnd_stops {r : SineRun} (h : (s.loop l.val).source = .sine r) (h0 : r.cycles ≠ 0) (hturns : r.cycles ≤ r.turns) (hstop : r.stopping = false) :
    exec (.sineCyclesEnd l) s = .next (s.modLoop l.val (fun x => { x with source := .sine { r with stopping := true, stopAt := none, amp := rampTo r.amp (Frac.ofInt 0) r.rampN } })) := by
  refine congrArg Host.Outcome.next ?_
  rw [sineOn_of h]
  exact if_pos (by simp [cyclesDone, h0, hturns, hstop])

theorem sineCyclesEnd_waits (h : ∀ r, (s.loop l.val).source = .sine r → r.cycles = 0 ∨ r.turns < r.cycles ∨ r.stopping = true) : exec (.sineCyclesEnd l) s = .next s := by
  refine congrArg Host.Outcome.next ?_
  unfold sineOn
  cases hsrc : (s.loop l.val).source with
  | sine r =>
    refine if_neg fun hdone => ?_
    simp only [cyclesDone, Bool.and_eq_true, decide_eq_true_eq, Bool.not_eq_true'] at hdone
    obtain ⟨⟨h0, hle⟩, hstop⟩ := hdone
    rcases h r hsrc with h | h | h
    · exact h0 h
    · omega
    · rw [h] at hstop
      cases hstop
  | dc | sweep | profile | wave => rfl

/-- The phase of a change that keeps it (R306). -/
theorem sinePhase_kept (fw phi0 fw' epoch tc : Nat) :
    sinePhase fw' ((sinePhase fw phi0 epoch tc + 2 ^ 32 - sinePhase fw' 0 epoch tc) % 2 ^ 32) epoch tc = sinePhase fw phi0 epoch tc := by
  have hlt : sinePhase fw phi0 epoch tc < 2 ^ 32 := by
    unfold sinePhase
    omega
  generalize sinePhase fw phi0 epoch tc = p at hlt ⊢
  unfold sinePhase
  generalize (fw' : Int) * ((tc : Int) - (epoch : Int)) / (2 ^ 14 : Int) = q
  omega

/-- The run of a sine after its pending change, taken at the boundary `t` (R306). -/
def sineChanged (r : SineRun) (c : SineChange) (t : Nat) : SineRun :=
  let phi := if c.absolute then c.phi0 else (sinePhase r.fw r.phi0 r.epoch c.tc + 2 ^ 32 - sinePhase c.fw 0 r.epoch c.tc) % 2 ^ 32
  { r with
    fw := c.fw, phi0 := phi, change := none, rampN := c.rampN
    past := ({ time := t, fw := r.fw, phi0 := r.phi0, jump := c.absolute } :: r.past).take 4
    phase := if c.absolute then sinePhase c.fw phi r.epoch t else r.phase
    amp := if r.stopping then r.amp else rampTo r.amp c.amp c.rampN
    offset := rampTo r.offset c.offset c.rampN }

theorem sineChange_due {s : State} {l t : Nat} {r : SineRun} {c : SineChange} (h : (s.loop l).source = .sine r) (hc : r.change = some c) (ht : c.tc ≤ t) :
    sineChange s l t = s.modLoop l (fun x => { x with source := .sine (sineChanged r c t) }) := by
  unfold sineChange
  rw [h]
  dsimp only
  rw [hc]
  exact if_pos ht

theorem sineChange_none {s : State} {l t : Nat} {r : SineRun} (h : (s.loop l).source = .sine r) (hc : r.change = none) : sineChange s l t = s := by
  unfold sineChange
  rw [h]
  dsimp only
  rw [hc]

theorem sineChangeDue_changes {r : SineRun} {k : SineChange} (h : (s.loop l.val).source = .sine r) (hk : r.change = some k) :
    ∃ t r', exec (.sineChangeDue l) s = .next t ∧ t.loop l.val = { s.loop l.val with source := .sine r' } ∧ r'.change = none ∧ r'.fw = k.fw ∧ r'.rampN = k.rampN ∧
      (k.absolute = true → r'.phi0 = k.phi0) ∧ (k.absolute = false → sinePhase k.fw r'.phi0 r.epoch k.tc = sinePhase r.fw r.phi0 r.epoch k.tc) ∧
      (r.stopping = true → r'.amp = r.amp) ∧ (r.stopping = false → r'.amp = rampTo r.amp k.amp k.rampN) ∧ r'.offset = rampTo r.offset k.offset k.rampN ∧
      k.tc ≤ t.clk.time ∧ (∀ n, n ≠ l.val → t.loop n = s.loop n) ∧ t = { s with clk := { s.clk with time := t.clk.time }, lp := { s.lp with loop := t.lp.loop } } := by
  have hdue := dueBoundary_due s l.val k.tc
  generalize hb : dueBoundary s l.val k.tc = b at hdue
  refine ⟨(s.reach b).modLoop l.val (fun x => { x with source := .sine (sineChanged r k b) }), sineChanged r k b, congrArg Host.Outcome.next ?_, ?_, rfl, rfl, rfl,
    fun ha => if_pos ha, fun ha => ?_, fun hs => if_pos hs, fun hs => ?_, rfl, hdue.trans (le_reach_time s b), fun n hn => ?_, rfl⟩
  · rw [sineOn_of h, Option.bind_some, hk]
    dsimp only
    rw [hb]
    exact sineChange_due (s := s.reach b) h hk hdue
  · rw [modLoop_same, reach_loop]
  · unfold sineChanged
    rw [if_neg (by rw [ha]; decide)]
    exact sinePhase_kept ..
  · exact if_neg (by rw [hs]; decide)
  · rw [modLoop_ne _ _ hn, reach_loop]

theorem sineChangeDue_waits (h : ∀ r, (s.loop l.val).source = .sine r → r.change = none) : exec (.sineChangeDue l) s = .next s := by
  refine congrArg Host.Outcome.next ?_
  unfold sineOn
  cases hsrc : (s.loop l.val).source with
  | sine r =>
    rw [Option.bind_some, h r hsrc]
  | dc | sweep | profile | wave => rfl

end

end Sys2Proof.Machine
end

section
/-! PROOFS. The obligation about set-point generators (R297 to R308, R310, R313 to R317): their commands, waveform loads and samples. -/

set_option Elab.async false

namespace Sys2Proof.Machine

/-! Updates of the loops that a command names, each its own. -/

theorem foldl_loops (f : Nat → LoopState → LoopState) {ls : List Nat} (hl : ls.Nodup) (s : State) :
    ∃ u, ls.foldl (fun (v : State) k => v.modLoop k (f k)) s = u ∧ (∀ k ∈ ls, u.loop k = f k (s.loop k)) ∧ (∀ k, k ∉ ls → u.loop k = s.loop k) ∧
      u = { s with lp := { s.lp with loop := u.lp.loop } } := by
  have hloop := foldl_keyed (get := State.loop) (step := fun (v : State) k => v.modLoop k (f k)) (f := f) (fun _ _ _ => State.modLoop_loop ..) hl s
  exact ⟨_, rfl, fun k hk => (hloop k).trans (if_pos hk), fun k hk => (hloop k).trans (if_neg hk),
    congrArg (fun v : State => { v with lp := { v.lp with loop := (ls.foldl (fun (v : State) k => v.modLoop k (f k)) s).lp.loop } })
      (foldl_same (F := fun v : State => { v with lp := { v.lp with loop := [] } }) (step := fun (v : State) k => v.modLoop k (f k)) (fun _ _ => rfl) ls s)⟩

section
variable {s : State} {c : Current}

/-- A command that passes its checks and updates each loop that it names. -/
theorem loops_answers {i : Instr} {op : Nat} {action : List Word → Bool} {k : Current → State} {checks : List (Option Bad)} {words : List Word} (f : Nat → LoopState → LoopState)
    (hexec : exec i s = .next (onCommand s op action k)) (h : Picked s op c) (ha : action c.params = true)
    (hk : k c = checked s checks (fun s => postOk ((loopRange c 0).foldl (fun (v : State) k => v.modLoop k (f k)) s) words)) (hpass : ∀ x ∈ checks, x = none) :
    ∃ u t, exec i s = .next t ∧ Answered c 0 0 words u t ∧
      (∀ l ∈ loopRange c 0, u.loop l = f l (s.loop l)) ∧ (∀ l, l ∉ loopRange c 0 → u.loop l = s.loop l) ∧ u = { s with lp := { s.lp with loop := u.lp.loop } } := by
  obtain ⟨u, hu, hin, hout, hparts⟩ := foldl_loops f (nodup_loopRange c) s
  obtain ⟨t, ht, hans⟩ := picked_answers h ha ((hk.trans (checked_pass _ (firstBad_pass hpass))).trans (congrArg (fun v => postOk v words) hu)) (by rw [hparts]; exact h.1)
  exact ⟨u, t, hexec.trans ht, hans, hin, hout, hparts⟩

theorem needWhen_pass {i : Nat} (h : WhenFits c i) : ∀ x ∈ needWhen c i, x = none := by
  obtain ⟨⟨-, hzero, -⟩, hle⟩ := h
  rcases Nat.lt_or_ge (par c i) 1 with h0 | h1
  · exact needWhen_now (by omega) fun k hlo hhi => hzero (by omega) k (by omega) (by omega)
  · exact needWhen_at (by omega)

/-- The loops run what the command needs, and nothing holds them (R268, R310). -/
abbrev LoopsRun (s : State) (c : Current) (P : Source → Prop) : Prop :=
  ∀ l ∈ loopRange c 0, LoopReady s l ∧ (s.loop l).state ≠ .cloche ∧ (s.loop l).state ≠ .ganged ∧ P (s.loop l).source

theorem needLoopsReady_pass {P : Source → Prop} (h : LoopsRun s c P) : ∀ x ∈ needLoopsReady s (loopRange c 0), x = none :=
  pass_cons (needNoCal_pass fun l hl => (h l hl).1.1) (pass_cons (needLoopBeds_pass fun l hl => (h l hl).1.2.1) (pass_cons (needStage_pass fun l hl => (h l hl).1.2.2) pass_nil))

theorem needFree_pass {P : Source → Prop} (h : LoopsRun s c P) : needLoopsFree s (loopRange c 0) = none ∧ needNoMember s (loopRange c 0) = none :=
  ⟨needLoopsFree_pass fun l hl => (h l hl).2.1, needNoMember_pass fun l hl => (h l hl).2.2.1⟩

theorem needWave_pass (h : ∀ l ∈ loopRange c 0, ∃ r, (s.loop l).source = .wave r) : needWave s (loopRange c 0) = none :=
  firstOf_eq_none.2 fun l hl => needState_of 12 (by
    obtain ⟨r, hr⟩ := h l hl
    rw [waveOn, hr]
    rfl)

theorem needSine_pass (h : ∀ l ∈ loopRange c 0, ∃ r, (s.loop l).source = .sine r) : needSine s (loopRange c 0) = none :=
  firstOf_eq_none.2 fun l hl => needState_of 12 (by
    obtain ⟨r, hr⟩ := h l hl
    rw [sineOn, hr]
    rfl)

theorem needEpoch_pass (h : bit (par c 20) 1 = true → s.link.syncValid = true) : needEpoch s c = none :=
  needState_of 13 (by
    cases hb : bit (par c 20) 1 with
    | false => rfl
    | true => rw [h hb]; rfl)

theorem nominal_pass {ls : List Nat} {v : Frac} (h : ∀ l ∈ ls, inNominal s l (primaryVolt (s.loop l).mode) (s.loop l).irange (s.loop l).vrange v = true) :
    firstOf ls (fun l => if inNominal s l (primaryVolt (s.loop l).mode) (s.loop l).irange (s.loop l).vrange v then none else some (0x12, 0x8002)) = none :=
  firstOf_eq_none.2 fun l hl => if_pos (h l hl)

/-! PROFILE_MOVE (R298, R314). -/

theorem needPositive_pass {i : Nat} (h : f32Finite (parF c i) = true ∧ (dec 0 0).lt (f32 (parF c i)) = true) : needPositive c i = none :=
  needParam_of i (by rw [h.1, h.2]; rfl)

/-- The plan that a loop's move takes of those made (R298). -/
def planOf (plans : List (Nat × Plan)) (l : Nat) : Plan := ((plans.find? (fun p => decide (p.1 = l))).map (fun p => p.2)).getD ⟨0, 0, 0⟩

/-- The checks of PROFILE_MOVE before those on the loops' sources. -/
abbrev profileChecks (s : State) (c : Current) : List (Option Bad) :=
  needLoops c 0 ++
    [needParam (f32Finite (parF c 2)) 2, needPositive c 4, needPositive c 6, needPositive c 8] ++ needStart c 10 ++
    [needParam (decide (par c 15 < 16)) 15,
     firstOf (loopRange c 0) (fun l => if inNominal s l (primaryVolt (s.loop l).mode) (s.loop l).irange (s.loop l).vrange (f32 (parF c 2)) then none else some (0x12, 0x8002)),
     if par c 10 = 1 then needLead c (par64 c 11) 4 else none,
     if (profilePlans s c (loopRange c 0)).all (fun p => decide (max p.2.nj (max p.2.na p.2.nv) ≤ max32)) then none else some (0x12, 0x8008)] ++
    needTags s c (loopRange c 0).length

theorem profileChecks_pass (hnamed : LoopsNamed c) (hfinite : f32Finite (parF c 2) = true)
    (hlimits : ∀ k, k = 4 ∨ k = 6 ∨ k = 8 → f32Finite (parF c k) = true ∧ (dec 0 0).lt (f32 (parF c k)) = true) (hstart : StartFits c 10) (hflags : par c 15 < 16)
    (hplans : ∀ p ∈ profilePlans s c (loopRange c 0), p.2.nj ≤ 0xFFFFFFFF ∧ p.2.na ≤ 0xFFFFFFFF ∧ p.2.nv ≤ 0xFFFFFFFF) (htags : TagsFree s c (par c 1))
    (hnom : ∀ l ∈ loopRange c 0, inNominal s l (primaryVolt (s.loop l).mode) (s.loop l).irange (s.loop l).vrange (f32 (parF c 2)) = true) :
    ∀ x ∈ profileChecks s c, x = none := by
  obtain ⟨hone, hfit, hpath⟩ := hnamed
  have hbig : (profilePlans s c (loopRange c 0)).all (fun p => decide (max p.2.nj (max p.2.na p.2.nv) ≤ max32)) = true :=
    List.all_eq_true.2 fun p hp => by
      obtain ⟨hj, ha, hv⟩ := hplans p hp
      exact decide_eq_true (max_le hj (max_le ha hv))
  refine pass_append (pass_append (pass_append (pass_append (needLoops_pass (i := 0) hone hfit hpath)
    (pass_cons (needParam_pass 2 hfinite) (pass_cons (needPositive_pass (hlimits 4 (by decide))) (pass_cons (needPositive_pass (hlimits 6 (by decide)))
    (pass_cons (needPositive_pass (hlimits 8 (by decide))) pass_nil))))) (needStart_pass hstart))
    (pass_cons (needParam_pass 15 (decide_eq_true hflags)) (pass_cons (nominal_pass hnom) (pass_cons (needLead_pass 4 hstart) (pass_cons (if_pos hbig) pass_nil))))) ?_
  rw [show (loopRange c 0).length = par c 1 from length_rangeFrom ..]
  exact needTags_pass' htags

theorem profileMove_starts (hpick : Picked s 0x0409 c) (hone : 1 ≤ par c 1) (hchecks : ∀ x ∈ profileChecks s c, x = none) (hready : ∀ l ∈ loopRange c 0, SourceReady s l) :
    ∃ (u t : State) (st : BurstStart) (r : Nat → Nat → ProfileRun), exec .profileMove s = .next t ∧ StartAsked c s 10 (par c 15 % 4) ((par c 15).testBit 2) st ∧
      SourcesStarted c 0x0409 (fun l tag => .profile (r l tag)) s u ∧
      Answered c 1 0 (w16 (par c 1) :: toWords 4 (startTicks st) ++ [c.tag] ++ toWords 2 (profileLen (r (par c 0) c.tag.toNat))) u t ∧
      (∀ l tag, (r l tag).tag = tag ∧ (r l tag).ring = c.ring.toNat ∧ (r l tag).start = st ∧ (r l tag).begun = false ∧ (r l tag).k = 0 ∧
        (r l tag).target = profileTarget s c l * 2 ^ 48 ∧ (r l tag).p = (s.loop l).setPoint * 2 ^ 48 ∧ (r l tag).v = 0 ∧ (r l tag).a = 0) := by
  have hlen : (loopRange c 0).length = par c 1 := length_rangeFrom ..
  generalize hst : startOf s c 10 (par c 15 % 4) (bit (par c 15) 2) = st
  have hasked : StartAsked c s 10 (par c 15 % 4) ((par c 15).testBit 2) st := hst ▸ startOf_asked c s 10 _ _
  generalize hmk : (fun (l tag : Nat) => Source.profile (profileRun s c l tag (planOf (profilePlans s c (loopRange c 0)) l) st)) = mk
  obtain ⟨t, ht, hans⟩ : ∃ t, exec .profileMove s = .next t ∧ Answered c 1 0 (w16 (par c 1) :: toWords 4 (startTicks st) ++ [c.tag] ++
      toWords 2 (planLen (planOf (profilePlans s c (loopRange c 0)) (par c 0)))) (startLoops mk (par c 0) (par c 1) c s) t := by
    refine startSources_answers (k := fun c => _) hpick rfl ((checked_pass _ (firstBad_pass (pass_append hchecks (needSource_pass hready)))).trans ?_)
    dsimp only
    rw [hst, hlen, ← hmk]
    rfl
  have hstarted := startLoops_started (mk := mk) hpick hone
  subst hmk
  exact ⟨_, t, st, _, ht, hasked, hstarted, hans, fun l tag => ⟨rfl, rfl, rfl, rfl, rfl, rfl, rfl, rfl, rfl⟩⟩

theorem profileMove_busy (hpick : Picked s 0x0409 c) (hone : par c 1 = 1) (hchecks : ∀ x ∈ profileChecks s c, x = none)
    (hstate : (s.loop (par c 0)).state = .regulating) (hmode : (s.loop (par c 0)).mode ≠ 2) (hout : chargeOutside s (par c 0) = false) (hsrc : (s.loop (par c 0)).source ≠ .dc) :
    ∃ t, exec .profileMove s = .next t ∧ Answered c 0x13 4 [] s t := by
  have hls : loopRange c 0 = [par c 0] := by
    unfold loopRange
    rw [hone]
    rfl
  have hfirst : ∀ {P : Nat → Prop}, P (par c 0) → ∀ l ∈ loopRange c 0, P l := fun h l hl => by
    rw [hls, List.mem_singleton] at hl
    exact hl ▸ h
  have hbad : firstBad (profileChecks s c ++ needSource s (loopRange c 0)) = some (0x13, 4) := by
    have hfree := needLoopsFree_pass (s := s) (ls := loopRange c 0) (hfirst (by rw [hstate]; decide))
    have hwindow := needWindow_pass (s := s) (ls := loopRange c 0) (m := 0) (hfirst (.inr (.inl hout)))
    have hmember := needNoMember_pass (s := s) (ls := loopRange c 0) (hfirst (by rw [hstate]; decide))
    have hreg : firstOf (loopRange c 0) (fun l => needState (decide ((s.loop l).state = .regulating) && decide ((s.loop l).mode ≠ 2)) 2) = none :=
      firstOf_eq_none.2 (hfirst (needState_of 2 (by rw [decide_eq_true hstate, decide_eq_true hmode]; rfl)))
    have hfail : needState (decide ((s.loop (par c 0)).source = .dc)) 4 = some (0x13, 4) := needState_of_not 4 (decide_eq_false hsrc)
    have hrun : needNoRun s (loopRange c 0) = some (0x13, 4) := by
      unfold needNoRun
      rw [hls]
      exact firstOf_of_mem (x := par c 0) (List.mem_singleton_self _) hfail fun y hy => .inr (List.mem_singleton.1 hy ▸ hfail)
    rw [firstBad_append hchecks]
    unfold needSource
    rw [hfree, hwindow, hmember, hreg, hrun]
    rfl
  exact picked_bad (k := fun c => _) hpick rfl rfl hbad

/-! WAVE_RUN START and SINE_RUN START (R301, R304, R316, R317). -/

theorem waveRun_starts (hpick : Picked s 0x040B c) (haction : par c 2 = 0) (h3 : par c 3 = 0) (hnamed : LoopsNamed c) (hstart : StartFits c 4) (hflags : par c 9 < 32)
    (hfinite : f32Finite (parF c 12) = true) (hn : 1 ≤ par c 14) (hmax : par c 14 ≤ 26)
    (hentries : ∀ i, i < par c 14 → par c (15 + 4 * i) < 1024 ∧ s.waveSeg (par c (15 + 4 * i)) ≠ [] ∧ 1 ≤ par32 c (16 + 4 * i) ∧ par32 c (16 + 4 * i) ≤ 2 ^ 31 ∧ par c (18 + 4 * i) ≠ 0)
    (htags : TagsFree s c (par c 1))
    (hl : ∀ l ∈ loopRange c 0, SourceReady s l ∧ inNominal s l (primaryVolt (s.loop l).mode) (s.loop l).irange (s.loop l).vrange (f32 (parF c 12)) = true) :
    ∃ u t st, exec .waveRunStart s = .next t ∧ StartAsked c s 4 (par c 9 % 4) ((par c 9).testBit 2) st ∧
      Answered c 1 0 (w16 (par c 1) :: toWords 4 (startTicks st) ++ [c.tag]) u t ∧
      SourcesStarted c 0x040B (fun l tag => .wave
        { tag := tag, ring := c.ring.toNat, start := st, entries := waveEntries c, passes := par c 10, scale := Frac.ofInt (intW (w16 (par c 11))), offset := offsetCode s l (parF c 12), segEvents := (par c 9).testBit 4, restore := if (par c 9).testBit 3 then some (Frac.ofInt (s.loop l).setPoint) else none, entry := 0, rep := 0, pass := 0, n := 0, f := 0, native := 0, instances := 0, prev := [], jumped := none, jump := none, stopping := false, ended := false }) s u := by
  obtain ⟨hone, hfit, hpath⟩ := hnamed
  have hlen : (loopRange c 0).length = par c 1 := length_rangeFrom ..
  have hlist : (List.range (par c 14)).findSome? (fun i => firstBad
      [needParam (decide (par c (15 + 4 * i) < 1024) && !(s.waveSeg (par c (15 + 4 * i))).isEmpty) (15 + 4 * i),
       needParam (decide (1 ≤ par32 c (16 + 4 * i)) && decide (par32 c (16 + 4 * i) ≤ 2 ^ 31)) (16 + 4 * i),
       needParam (decide (par c (18 + 4 * i) ≠ 0)) (18 + 4 * i)]) = none :=
    List.findSome?_eq_none_iff.2 fun i hi => by
      obtain ⟨hseg, hload, hstep, hle, hcount⟩ := hentries i (List.mem_range.1 hi)
      refine firstBad_pass (pass_cons (needParam_of _ ?_) (pass_cons (needParam_of _ ?_) (pass_cons (needParam_of _ (decide_eq_true hcount)) pass_nil)))
      · simp [hseg, hload]
      · rw [decide_eq_true hstep, decide_eq_true hle]
        rfl
  have htagPass : ∀ x ∈ needTags s c (loopRange c 0).length, x = none := by
    rw [hlen]
    exact needTags_pass' htags
  have hpass := pass_append (pass_append (pass_append (pass_append (pass_append (needLoops_pass (i := 0) hone hfit hpath)
    (pass_cons (needParam_of 3 (decide_eq_true h3)) pass_nil)) (needStart_pass hstart))
    (pass_cons (needParam_of 9 (decide_eq_true hflags)) (pass_cons (needParam_of 12 hfinite)
    (pass_cons (needParam_of (b := decide (1 ≤ par c 14) && decide (par c 14 ≤ 26)) 14 (by simp [hn, hmax])) (pass_cons hlist
    (pass_cons (nominal_pass fun l hmem => (hl l hmem).2) (pass_cons (needLead_pass 4 hstart) pass_nil)))))))
    htagPass) (needSource_pass fun l hmem => (hl l hmem).1)
  generalize hst : startOf s c 4 (par c 9 % 4) (bit (par c 9) 2) = st
  have hasked : StartAsked c s 4 (par c 9 % 4) ((par c 9).testBit 2) st := hst ▸ startOf_asked c s 4 _ _
  generalize hmk : (fun (l tag : Nat) => Source.wave
        { tag := tag, ring := c.ring.toNat, start := st, entries := waveEntries c, passes := par c 10, scale := Frac.ofInt (intW (w16 (par c 11))), offset := offsetCode s l (parF c 12), segEvents := (par c 9).testBit 4, restore := if (par c 9).testBit 3 then some (Frac.ofInt (s.loop l).setPoint) else none, entry := 0, rep := 0, pass := 0, n := 0, f := 0, native := 0, instances := 0, prev := [], jumped := none, jump := none, stopping := false, ended := false }) = mk
  obtain ⟨t, ht, hans⟩ : ∃ t, exec .waveRunStart s = .next t ∧ Answered c 1 0 (w16 (par c 1) :: toWords 4 (startTicks st) ++ [c.tag]) (startLoops mk (par c 0) (par c 1) c s) t := by
    refine startSources_answers (k := fun c => _) hpick (decide_eq_true haction) ((checked_pass _ (firstBad_pass hpass)).trans ?_)
    rw [hst, hlen, ← hmk]
    rfl
  have hstarted := startLoops_started (mk := mk) hpick hone
  subst hmk
  exact ⟨_, t, st, ht, hasked, hans, hstarted⟩

/-- Both ends of a sine lie in the nominal range of every loop named (R317). -/
abbrev SwingFits (s : State) (c : Current) (l : Nat) : Prop :=
  inNominal s l (primaryVolt (s.loop l).mode) (s.loop l).irange (s.loop l).vrange ((f32 (parF c 9)).add (f32 (parF c 7))) = true ∧
    inNominal s l (primaryVolt (s.loop l).mode) (s.loop l).irange (s.loop l).vrange ((f32 (parF c 9)).sub (f32 (parF c 7))) = true

theorem needSwing_pass (hamp : f32Finite (parF c 7) = true) (hpos : (dec 0 0).le (f32 (parF c 7)) = true) (hoffset : f32Finite (parF c 9) = true)
    (h : ∀ l ∈ loopRange c 0, SwingFits s c l) : ∀ x ∈ needSwing s c (loopRange c 0), x = none :=
  pass_cons (needParam_of 7 (by rw [hamp, hpos]; rfl)) (pass_cons (needParam_of 9 hoffset) (pass_cons (firstOf_eq_none.2 fun l hl => by
    obtain ⟨hadd, hsub⟩ := h l hl
    exact if_pos (by rw [hadd, hsub]; rfl)) pass_nil))

theorem needFw_pass (h : par c 0 < 512 → par32 c 3 ≤ 2748779069) : needFw c = none :=
  needParam_of 3 (by
    rcases Nat.lt_or_ge (par c 0) 512 with hlt | hge
    · simp [h hlt]
    · simp [hge])

theorem sineRun_starts (hpick : Picked s 0x040C c) (haction : par c 2 = 0) (hnamed : LoopsNamed c) (hfw : par c 0 < 512 → par32 c 3 ≤ 2748779069)
    (hamp : f32Finite (parF c 7) = true) (hpos : (dec 0 0).le (f32 (parF c 7)) = true) (hoffset : f32Finite (parF c 9) = true) (hstart : StartFits c 15) (hflags : par c 20 < 32)
    (hsync : bit (par c 20) 1 = true → s.link.syncValid = true) (htags : TagsFree s c (par c 1))
    (hl : ∀ l ∈ loopRange c 0, SourceReady s l ∧ SwingFits s c l) :
    ∃ u t st, exec .sineRunStart s = .next t ∧ StartAsked c s 15 (par c 20 / 4 % 4) ((par c 20).testBit 4) st ∧
      Answered c 1 0 (w16 (par c 1) :: toWords 4 (startTicks st) ++ [c.tag]) u t ∧
      SourcesStarted c 0x040C (fun l tag => .sine
        { tag := tag, ring := c.ring.toNat, start := st, fw := par32 c 3, phi0 := par32 c 5, epoch := if (par c 20).testBit 1 then s.link.syncEpoch else par64 c 11, amp := { base := Frac.ofInt 0, goal := ampCode s l (parF c 7), len := par c 21, gone := 0 }, offset := { base := offsetCode s l (parF c 9), goal := offsetCode s l (parF c 9), len := 0, gone := 0 }, cycles := par32 c 22, rampN := par c 21, turns := 0, phase := 0, begun := none, prev := [], change := none, past := [], stopAt := none, stopping := false, quiet := false }) s u := by
  obtain ⟨hone, hfit, hpath⟩ := hnamed
  have hlen : (loopRange c 0).length = par c 1 := length_rangeFrom ..
  have htagPass : ∀ x ∈ needTags s c (loopRange c 0).length, x = none := by
    rw [hlen]
    exact needTags_pass' htags
  have hpass := pass_append (pass_append (pass_append (pass_append (pass_append (pass_append (pass_append (needLoops_pass (i := 0) hone hfit hpath)
    (pass_cons (needFw_pass hfw) pass_nil)) (needSwing_pass hamp hpos hoffset fun l hmem => (hl l hmem).2)) (needStart_pass hstart))
    (pass_cons (needParam_of 20 (decide_eq_true hflags)) (pass_cons (needLead_pass 4 hstart) pass_nil)))
    htagPass) (needSource_pass fun l hmem => (hl l hmem).1)) (pass_cons (needEpoch_pass hsync) pass_nil)
  have hbits : bits (par c 20) 2 2 = par c 20 / 4 % 4 := by
    rw [bits, Nat.shiftRight_eq_div_pow]
    rfl
  generalize hst : startOf s c 15 (par c 20 / 4 % 4) (bit (par c 20) 4) = st
  have hasked : StartAsked c s 15 (par c 20 / 4 % 4) ((par c 20).testBit 4) st := hst ▸ startOf_asked c s 15 _ _
  generalize hmk : (fun (l tag : Nat) => Source.sine
        { tag := tag, ring := c.ring.toNat, start := st, fw := par32 c 3, phi0 := par32 c 5, epoch := if (par c 20).testBit 1 then s.link.syncEpoch else par64 c 11, amp := { base := Frac.ofInt 0, goal := ampCode s l (parF c 7), len := par c 21, gone := 0 }, offset := { base := offsetCode s l (parF c 9), goal := offsetCode s l (parF c 9), len := 0, gone := 0 }, cycles := par32 c 22, rampN := par c 21, turns := 0, phase := 0, begun := none, prev := [], change := none, past := [], stopAt := none, stopping := false, quiet := false }) = mk
  obtain ⟨t, ht, hans⟩ : ∃ t, exec .sineRunStart s = .next t ∧ Answered c 1 0 (w16 (par c 1) :: toWords 4 (startTicks st) ++ [c.tag]) (startLoops mk (par c 0) (par c 1) c s) t := by
    refine startSources_answers (k := fun c => _) hpick (decide_eq_true haction) ((checked_pass _ (firstBad_pass hpass)).trans ?_)
    rw [hbits, hst, hlen, ← hmk]
    rfl
  have hstarted := startLoops_started (mk := mk) hpick hone
  subst hmk
  exact ⟨_, t, st, ht, hasked, hans, hstarted⟩

/-! What waits in a generator (R303, R306, R316, R317). -/

/-- A jump waits in the loop's waveform run. -/
def jumpWaits (target : Nat) (x : LoopState) : LoopState :=
  match x.source with
  | .wave r => { x with source := .wave { r with jump := some (target, none, false) } }
  | _ => x

/-- A stop waits in the loop's waveform run. -/
def waveStops (x : LoopState) : LoopState :=
  match x.source with
  | .wave r => { x with source := .wave { r with stopping := true } }
  | _ => x

/-- A stop waits for `tc` in the loop's sine. -/
def sineStops (tc : Nat) (x : LoopState) : LoopState :=
  match x.source with
  | .sine r => { x with source := .sine { r with stopAt := some tc } }
  | _ => x

/-- A change waits in the loop's sine. -/
def sineChanges (k : SineChange) (x : LoopState) : LoopState :=
  match x.source with
  | .sine r => { x with source := .sine { r with change := some k } }
  | _ => x

theorem waveRun_jumps (hpick : Picked s 0x040B c) (haction : par c 2 = 1) (hnamed : LoopsNamed c)
    (hl : LoopsRun s c (fun src => ∃ r, src = .wave r ∧ par c 3 < r.entries.length)) :
    ∃ u t, exec .waveRunJump s = .next t ∧ Answered c 0 0 [w16 (par c 1)] u t ∧
      (∀ l ∈ loopRange c 0, ∀ r, (s.loop l).source = .wave r → u.loop l = { s.loop l with source := .wave { r with jump := some (par c 3, none, false) } }) ∧
      (∀ l, l ∉ loopRange c 0 → u.loop l = s.loop l) ∧ u = { s with lp := { s.lp with loop := u.lp.loop } } := by
  obtain ⟨hone, hfit, hpath⟩ := hnamed
  have htarget : (loopRange c 0).all (fun l => (waveOn s l).all (fun r => decide (par c 3 < r.entries.length))) = true :=
    List.all_eq_true.2 fun l hmem => by
      obtain ⟨-, -, -, r, hr, hlt⟩ := hl l hmem
      rw [waveOn, hr]
      exact decide_eq_true hlt
  obtain ⟨hfree, hmember⟩ := needFree_pass hl
  obtain ⟨u, t, ht, hans, hin, hout, hparts⟩ := loops_answers (words := [w16 (loopRange c 0).length]) (fun _ => jumpWaits (par c 3)) (i := .waveRunJump) rfl hpick
    (decide_eq_true haction) rfl
    (pass_append (pass_append (pass_append (needLoops_pass (i := 0) hone hfit hpath) (pass_cons (needParam_of 3 htarget) (pass_cons hfree (pass_cons hmember pass_nil))))
      (needLoopsReady_pass hl)) (pass_cons (needWave_pass fun l hmem => (hl l hmem).2.2.2.imp fun r h => h.1) pass_nil))
  rw [show (loopRange c 0).length = par c 1 from length_rangeFrom ..] at hans
  refine ⟨u, t, ht, hans, fun l hmem r hr => ?_, hout, hparts⟩
  rw [hin l hmem, jumpWaits, hr]

theorem waveRun_stops (hpick : Picked s 0x040B c) (haction : par c 2 = 2) (h3 : par c 3 = 0) (hnamed : LoopsNamed c) (hl : LoopsRun s c (fun src => ∃ r, src = .wave r)) :
    ∃ u t, exec .waveRunStop s = .next t ∧ Answered c 0 0 [w16 (par c 1)] u t ∧
      (∀ l ∈ loopRange c 0, ∀ r, (s.loop l).source = .wave r → u.loop l = { s.loop l with source := .wave { r with stopping := true } }) ∧
      (∀ l, l ∉ loopRange c 0 → u.loop l = s.loop l) ∧ u = { s with lp := { s.lp with loop := u.lp.loop } } := by
  obtain ⟨hone, hfit, hpath⟩ := hnamed
  obtain ⟨hfree, hmember⟩ := needFree_pass hl
  obtain ⟨u, t, ht, hans, hin, hout, hparts⟩ := loops_answers (words := [w16 (loopRange c 0).length]) (fun _ => waveStops) (i := .waveRunStop) rfl hpick
    (decide_eq_true haction) rfl
    (pass_append (pass_append (pass_append (needLoops_pass (i := 0) hone hfit hpath) (pass_cons (needParam_of 3 (decide_eq_true h3)) (pass_cons hfree (pass_cons hmember pass_nil))))
      (needLoopsReady_pass hl)) (pass_cons (needWave_pass fun l hmem => (hl l hmem).2.2.2) pass_nil))
  rw [show (loopRange c 0).length = par c 1 from length_rangeFrom ..] at hans
  refine ⟨u, t, ht, hans, fun l hmem r hr => ?_, hout, hparts⟩
  rw [hin l hmem, waveStops, hr]

theorem sineRun_stops {tc : Nat} (hpick : Picked s 0x040C c) (haction : par c 2 = 2) (hnamed : LoopsNamed c) (hwhen : WhenFits c 15) (hflags : par c 20 < 32)
    (hsync : bit (par c 20) 1 = true → s.link.syncValid = true) (hl : LoopsRun s c (fun src => ∃ r, src = .sine r))
    (htc : tc = (if par c 15 = 1 then par64 c 16 else nextBoundary s (par c 0))) :
    ∃ u t, exec .sineRunStop s = .next t ∧ Answered c 0 0 (w16 (par c 1) :: toWords 4 tc) u t ∧
      (∀ l ∈ loopRange c 0, ∀ r, (s.loop l).source = .sine r → u.loop l = { s.loop l with source := .sine { r with stopAt := some tc } }) ∧
      (∀ l, l ∉ loopRange c 0 → u.loop l = s.loop l) ∧ u = { s with lp := { s.lp with loop := u.lp.loop } } := by
  obtain ⟨hone, hfit, hpath⟩ := hnamed
  obtain ⟨hfree, hmember⟩ := needFree_pass hl
  obtain ⟨u, t, ht, hans, hin, hout, hparts⟩ := loops_answers (words := w16 (loopRange c 0).length :: toWords 4 (sineTc s c)) (fun _ => sineStops (sineTc s c)) (i := .sineRunStop) rfl hpick
    (decide_eq_true haction) rfl
    (pass_append (pass_append (pass_append (pass_append (needLoops_pass (i := 0) hone hfit hpath) (needWhen_pass hwhen))
      (pass_cons (needParam_of 20 (decide_eq_true hflags)) (pass_cons (needLead_pass 4 hwhen.1) (pass_cons hfree (pass_cons hmember pass_nil)))))
      (needLoopsReady_pass hl)) (pass_cons (needSine_pass fun l hmem => (hl l hmem).2.2.2) (pass_cons (needEpoch_pass hsync) pass_nil)))
  rw [show (loopRange c 0).length = par c 1 from length_rangeFrom ..] at hans
  subst htc
  refine ⟨u, t, ht, hans, fun l hmem r hr => ?_, hout, hparts⟩
  rw [hin l hmem, sineStops, hr]
  rfl

/-- The change that SINE_RUN CHANGE asks for, in the ranges of loop `l` in `s`. -/
def changeOf (s : State) (c : Current) (tc l : Nat) : SineChange :=
  { tc := tc, fw := par32 c 3, absolute := bit (par c 20) 0, phi0 := par32 c 5, amp := ampCode s l (parF c 7), offset := offsetCode s l (parF c 9), rampN := par c 21 }

/-- What a loop's codes read of the loops. -/
def loopCodes (s : State) (l : Nat) : Nat × Nat × Nat × Nat × Nat × Nat := ((s.loop l).mode, loopScales s l)

theorem changeOf_congr {v : State} {tc l : Nat} (hser : v.ser = s.ser) (hcal : v.cal = s.cal) (h : loopCodes v = loopCodes s) : changeOf v c tc l = changeOf s c tc l := by
  have hl := congrFun h l
  simp only [loopCodes, loopScales, Prod.mk.injEq] at hl
  obtain ⟨hmode, hst, hid, hg, hi, hv⟩ := hl
  have hscale : SameScale l s v := ⟨hser, hcal, hst, hid, hg⟩
  unfold changeOf ampCode offsetCode spanCode spanOf
  dsimp only
  rw [hmode, hi, hv, rangeCal_congr hscale, fsOf_congr hscale, setCode_congr hscale]

theorem sineRun_changes {tc : Nat} (hpick : Picked s 0x040C c) (haction : par c 2 = 1) (hnamed : LoopsNamed c) (hfw : par c 0 < 512 → par32 c 3 ≤ 2748779069)
    (hamp : f32Finite (parF c 7) = true) (hpos : (dec 0 0).le (f32 (parF c 7)) = true) (hoffset : f32Finite (parF c 9) = true) (hwhen : WhenFits c 15) (hflags : par c 20 < 32)
    (hsync : bit (par c 20) 1 = true → s.link.syncValid = true) (hl : LoopsRun s c (fun src => ∃ r, src = .sine r)) (hswing : ∀ l ∈ loopRange c 0, SwingFits s c l)
    (htc : tc = (if par c 15 = 1 then par64 c 16 else nextBoundary s (par c 0))) :
    ∃ u t, exec .sineRunChange s = .next t ∧ Answered c 0 0 (w16 (par c 1) :: toWords 4 tc) u t ∧
      (∀ l ∈ loopRange c 0, ∀ r, (s.loop l).source = .sine r → u.loop l = { s.loop l with source := .sine { r with change := some { tc := tc, fw := par32 c 3, absolute := (par c 20).testBit 0, phi0 := par32 c 5, amp := ampCode s l (parF c 7), offset := offsetCode s l (parF c 9), rampN := par c 21 } } }) ∧
      (∀ l, l ∉ loopRange c 0 → u.loop l = s.loop l) ∧ u = { s with lp := { s.lp with loop := u.lp.loop } } := by
  obtain ⟨hone, hfit, hpath⟩ := hnamed
  obtain ⟨hfree, hmember⟩ := needFree_pass hl
  have hfold : (loopRange c 0).foldl (fun (v : State) l => v.modLoop l (sineChanges (changeOf v c (sineTc s c) l))) s =
      (loopRange c 0).foldl (fun (v : State) l => v.modLoop l (sineChanges (changeOf s c (sineTc s c) l))) s :=
    foldl_congr_same (F := fun v : State => (v.ser, v.cal, loopCodes v)) (fun v l => by
      refine congrArg (fun f => (v.ser, v.cal, f)) (funext fun j => ?_)
      unfold loopCodes loopScales
      rw [State.modLoop_loop]
      split
      next heq =>
        rw [heq, sineChanges]
        split <;> rfl
      next => rfl) (fun v l hv => by
      simp only [Prod.mk.injEq] at hv
      rw [changeOf_congr hv.1 hv.2.1 hv.2.2])
  obtain ⟨u, t, ht, hans, hin, hout, hparts⟩ := loops_answers (words := w16 (loopRange c 0).length :: toWords 4 (sineTc s c))
    (fun l => sineChanges (changeOf s c (sineTc s c) l)) (i := .sineRunChange) rfl hpick (decide_eq_true haction)
    (congrArg (fun v => checked s _ (fun _ => postOk v (w16 (loopRange c 0).length :: toWords 4 (sineTc s c)))) hfold)
    (pass_append (pass_append (pass_append (pass_append (pass_append (pass_append (needLoops_pass (i := 0) hone hfit hpath)
      (pass_cons (needFw_pass hfw) pass_nil)) (needSwing_pass hamp hpos hoffset hswing)) (needWhen_pass hwhen))
      (pass_cons (needParam_of 20 (decide_eq_true hflags)) (pass_cons (needLead_pass 4 hwhen.1) (pass_cons hfree (pass_cons hmember pass_nil)))))
      (needLoopsReady_pass hl)) (pass_cons (needSine_pass fun l hmem => (hl l hmem).2.2.2) (pass_cons (needEpoch_pass hsync) pass_nil)))
  rw [show (loopRange c 0).length = par c 1 from length_rangeFrom ..] at hans
  subst htc
  refine ⟨u, t, ht, hans, fun l hmem r hr => ?_, hout, hparts⟩
  rw [hin l hmem, sineChanges, hr]
  rfl

end

end Sys2Proof.Machine
end

section
/-! PROOFS. The obligation about set-point generators (R297 to R308, R310, R313 to R317): loads, samples, and the whole. -/

set_option Elab.async false

namespace Sys2Proof.Machine

/-! Samples (R299, R302, R303, R307, R316). -/

section
variable {s : State} {l t : Nat}

theorem profileAdvance_begins {r : ProfileRun} (hsrc : (s.loop l).source = .profile r) (hbegun : r.begun = false) (hstart : started r.start t = true) :
    profileAdvance s l t = s.modLoop l (fun x => { x with source := .profile { r with begun := true }, setPoint := profileCode r.p, rate := profileCode r.v, accel := profileCode r.a }) := by
  unfold profileAdvance
  rw [hsrc]
  dsimp only
  rw [if_neg (by rw [hstart, hbegun]; simp), hbegun]
  rfl

theorem profileCode_mul {v : Int} (hlo : -32767 ≤ v) (hhi : v ≤ 32767) : profileCode (v * 2 ^ 48) = v := by
  have hround : rsh (v * 2 ^ 48) 48 = v := by
    have h47 : (2 : Int) ^ ((48 : Int).toNat - 1) = 140737488355328 := by decide
    have h48 : (2 : Int) ^ (48 : Int).toNat = 281474976710656 := by decide
    unfold rsh
    rw [if_neg (by decide), h47, h48]
    omega
  unfold profileCode
  rw [hround]
  unfold clampI
  omega

theorem profileAdvance_ends {r : ProfileRun} {v : Int} (hsrc : (s.loop l).source = .profile r) (hbegun : r.begun = true) (hlast : r.k + 1 = profileLen r)
    (hstart : started r.start t = true) (htarget : r.target = v * 2 ^ 48) (hlo : -32767 ≤ v) (hhi : v ≤ 32767) :
    ((profileAdvance s l t).loop l).setPoint = v ∧ ((profileAdvance s l t).loop l).rate = 0 ∧ ((profileAdvance s l t).loop l).accel = 0 := by
  have heq : profileAdvance s l t = s.modLoop l (fun x => { x with
      source := .profile { r with k := r.k + 1, p := r.target, v := 0, a := 0 }, setPoint := profileCode r.target, rate := profileCode 0, accel := profileCode 0 }) := by
    unfold profileAdvance
    rw [hsrc]
    dsimp only
    rw [if_neg (by rw [hstart, ← hlast]; simp), hbegun, if_neg (by decide), if_pos hlast]
  rw [heq, modLoop_same]
  have hzero : profileCode 0 = 0 := by decide
  refine ⟨?_, hzero, hzero⟩
  dsimp only
  rw [htarget]
  exact profileCode_mul hlo hhi

theorem waveBoundary_jump {r : WaveRun} {size target nr : Nat} {d : Bool} (hnext : waveNext r ≠ none) (hjump : r.jump = some (target, some nr, d)) :
    (nr + 2 ≤ r.native + size - 1 → (waveBoundary size r).entry = target ∧ (waveBoundary size r).rep = 0 ∧ (waveBoundary size r).n = 0 ∧
      (waveBoundary size r).f = r.f ∧ (waveBoundary size r).jump = none ∧ (waveBoundary size r).jumped = some d) ∧
    (r.native + size - 1 < nr + 2 → (waveBoundary size r).jump = some (target, some nr, true) ∧ (waveBoundary size r).jumped = none ∧
      waveNext r = some ((waveBoundary size r).entry, (waveBoundary size r).rep, (waveBoundary size r).pass)) := by
  obtain ⟨⟨e, k, p⟩, hsome⟩ := Option.ne_none_iff_exists'.1 hnext
  have hnext' : waveNext { r with n := r.n - size, native := r.native + size, instances := r.instances + 1, jumped := none } = some (e, k, p) := hsome
  unfold waveBoundary
  dsimp only
  rw [hnext']
  dsimp only
  rw [hjump]
  dsimp only
  refine ⟨fun hle => ?_, fun hlt => ?_⟩
  · rw [if_pos hle]
    exact ⟨rfl, rfl, rfl, rfl, rfl, rfl⟩
  · rw [if_neg (by omega)]
    exact ⟨rfl, rfl, hsome⟩

theorem waveAdvance_stops {r : WaveRun} (hsrc : (s.loop l).source = .wave r) (hended : r.ended = false) (hstop : r.stopping = true) :
    waveAdvance s l t = s.modLoop l (fun x => { x with source := .wave { r with ended := true }, rate := 0, accel := 0, setPoint := (restoreCode r.restore).getD x.setPoint }) := by
  unfold waveAdvance
  rw [hsrc]
  dsimp only
  rw [if_neg (by rw [hended]; decide), if_pos hstop]

theorem sineAdvance_setPoint {r : SineRun} (hsrc : (s.loop l).source = .sine r) (hchange : r.change = none) (hstop : r.stopAt = none) (hbegun : r.begun.isSome = true)
    (hstart : started r.start t = true) : ((sineAdvance s l t).loop l).setPoint =
      sat ((rampValue (rampStep r.offset)).add (((rampValue (rampStep r.amp)).mul (Frac.ofInt (sineOf (sinePhase r.fw r.phi0 r.epoch t)))).div (Frac.ofInt 32768))).halfUp 16 := by
  have hfirst : r.begun.isNone = false := by
    rw [Option.isNone_eq_false_iff]
    exact hbegun
  unfold sineAdvance
  rw [sineChange_none hsrc hchange]
  dsimp only
  rw [hsrc]
  dsimp only
  rw [if_neg (by rw [hstart]; decide), hfirst, if_neg (by decide)]
  dsimp only
  rw [hstop]
  dsimp only
  exact congrArg LoopState.setPoint (modLoop_same s l _)

end

/-! Waveform loads (R300, R315). -/

theorem answered_beside {c : Current} {st d : Nat} {ws : List Word} {u t : State} (h : Answered c st d ws u t) (p : Tab Progress) (lp : Loops) (g : Harvest)
    (w : List Detect) : Answered c st d ws
      { u with fw := { u.fw with progress := p }, lp := lp, harv := g, flt := { u.flt with waiting := w } }
      { t with fw := { t.fw with progress := p }, lp := lp, harv := g, flt := { t.flt with waiting := w } } := by
  obtain ⟨heq, hrest⟩ := h
  refine ⟨?_, hrest⟩
  generalize t.mb = m, t.link = k at heq
  subst heq
  rfl

theorem answered_clk {c : Current} {st d : Nat} {ws : List Word} {u t : State} (h : Answered c st d ws u t) : t.clk = u.clk := by
  rw [h.1]

/-- WAVE_LOAD has freed the segment: nothing registers it, and no load in progress will (R300). -/
def waveFreed (s : State) (g : Nat) : State := (voidLoads s g).modWaveSeg g (fun _ => [])

/-- A load whose read has begun. -/
def loadBegun (s : State) (l : WaveLoad) : State := { s with lp := { s.lp with waveLoads := s.lp.waveLoads ++ [l] } }

theorem waveFreed_seg (s : State) (g k : Nat) : (waveFreed s g).waveSeg k = if k = g then [] else s.waveSeg k := State.modWaveSeg_waveSeg ..

section
variable {s : State} {c : Current}

theorem needTag_pass (h : tagInUse s c.tag.toNat = false) : needTag s c.tag.toNat = none := needState_of _ (by rw [h]; rfl)

/-- The command accepted: its response is posted, and its work has begun. -/
theorem accept_answered (h : s.fw.current = some c) (output : Nat) (words : List Word) :
    ∃ p g, beginWork s c.tag.toNat c.opcode.toNat c.ring.toNat output false = { s with fw := { s.fw with progress := p }, harv := g } ∧
      Answered c 1 0 words { s with fw := { s.fw with progress := p }, harv := g } (accept s c output words) := by
  obtain ⟨p, g, hbegin⟩ := beginWork_parts s c.tag.toNat c.opcode.toNat c.ring.toNat output false
  refine ⟨p, g, hbegin, ?_⟩
  unfold accept
  rw [hbegin]
  exact postResponse_answered _ c 1 0 words h

theorem waveLoad_loads (hpick : Picked s 0x040A c) (hseg : par c 0 < 1024) (hfit : 64 * par32 c 1 + 2 * par32 c 3 ≤ patternBytes s) (h16 : 16 ≤ par32 c 3)
    (hmax : par32 c 3 ≤ 1048576) (hflags : par c 5 = 0) (htag : tagInUse s c.tag.toNat = false) (hlisted : waveListed s (par c 0) = false)
    (hblocks : blocksUsed s (par c 0) + waveBlocks (par32 c 3) ≤ 32768) :
    ∃ u t, exec .waveLoad s = .next t ∧ Answered c 1 0 [] u t ∧ u.waveSeg (par c 0) = [] ∧ (∀ g, g ≠ par c 0 → u.waveSeg g = s.waveSeg g) ∧
      u.lp.waveLoads = (s.lp.waveLoads.map (fun l => if l.seg = par c 0 then { l with void := true } else l)) ++
        [{ tag := c.tag.toNat, ring := c.ring.toNat, seg := par c 0, addr := 64 * par32 c 1, samples := par32 c 3, void := false }] ∧
      Begun c.tag.toNat 0x040A c.ring.toNat 0 s u ∧
      u = { s with fw := { s.fw with progress := u.fw.progress }, lp := { s.lp with wave := u.lp.wave, waveLoads := u.lp.waveLoads }, harv := u.harv } := by
  have hbit : bit (par c 5) 0 = false := by rw [hflags]; rfl
  have hpass : ∀ x ∈ (if bit (par c 5) 0 then [needParam (decide (par c 0 < 1024)) 0]
        else [needParam (decide (par c 0 < 1024)) 0, needParam (decide (64 * par32 c 1 + 2 * par32 c 3 ≤ patternBytes s)) 1,
              needParam (decide (16 ≤ par32 c 3) && decide (par32 c 3 ≤ 1048576)) 3, needParam (decide (par c 5 < 2)) 5]) ++
       [needTag s c.tag.toNat, needState (!waveListed s (par c 0)) 11,
        if bit (par c 5) 0 then none else needBusy (decide (blocksUsed s (par c 0) + waveBlocks (par32 c 3) ≤ 32768)) 0], x = none := by
    rw [hbit]
    exact pass_append (pass_cons (needParam_of 0 (decide_eq_true hseg)) (pass_cons (needParam_of 1 (decide_eq_true hfit))
      (pass_cons (needParam_of 3 (by rw [decide_eq_true h16, decide_eq_true hmax]; rfl)) (pass_cons (needParam_of 5 (by rw [hflags]; rfl)) pass_nil))))
      (pass_cons (needTag_pass htag) (pass_cons (needState_of 11 (by rw [hlisted]; rfl)) (pass_cons (needBusy_eq_none.2 (decide_eq_true hblocks)) pass_nil)))
  obtain ⟨p, g, hbegin, hans⟩ := accept_answered hpick.1 0 []
  have hbegun := beginWork_begun s c.tag.toNat c.opcode.toNat c.ring.toNat 0 false
  rw [hbegin, hpick.2.1] at hbegun
  generalize hload : ({ tag := c.tag.toNat, ring := c.ring.toNat, seg := par c 0, addr := 64 * par32 c 1, samples := par32 c 3, void := false } : WaveLoad) = load
  obtain ⟨q, hq⟩ : ∃ q, accept s c 0 = q := ⟨_, rfl⟩
  have hexec : exec .waveLoad s = .next (loadBegun (waveFreed q (par c 0)) load) := by
    refine congrArg Host.Outcome.next ((onCommand_picked hpick (fun _ => true) _ rfl).trans ((checked_pass _ (firstBad_pass hpass)).trans ?_))
    dsimp only
    rw [hbit, ← hload, ← hq]
    rfl
  rw [hq] at hans
  have hbeside := answered_beside hans p (loadBegun (waveFreed s (par c 0)) load).lp g s.flt.waiting
  have hload' : loadBegun (waveFreed q (par c 0)) load = { q with fw := { q.fw with progress := p }, lp := (loadBegun (waveFreed s (par c 0)) load).lp, harv := g, flt := { q.flt with waiting := s.flt.waiting } } := by
    rw [hans.1]
    rfl
  rw [← hload'] at hbeside
  have hseg : ∀ k, (waveFreed s (par c 0)).waveSeg k = if k = par c 0 then [] else s.waveSeg k := waveFreed_seg s (par c 0)
  exact ⟨_, _, hexec, hbeside, (hseg _).trans (if_pos rfl), fun k hk => (hseg k).trans (if_neg hk), rfl, hbegun, rfl⟩

theorem waveLoad_unloads (hpick : Picked s 0x040A c) (hseg : par c 0 < 1024) (hflags : (par c 5).testBit 0 = true) (htag : tagInUse s c.tag.toNat = false)
    (hlisted : waveListed s (par c 0) = false) :
    ∃ u t, exec .waveLoad s = .next t ∧ Answered c 1 0 [] u t ∧ u.waveSeg (par c 0) = [] ∧ (∀ g, g ≠ par c 0 → u.waveSeg g = s.waveSeg g) ∧
      u.lp.waveLoads = s.lp.waveLoads.map (fun l => if l.seg = par c 0 then { l with void := true } else l) ∧
      Ended (workEnd s c.tag.toNat c.ring.toNat 0 0 0 0 1 0 0 0) t ∧
      u = { s with fw := { s.fw with progress := u.fw.progress }, lp := { s.lp with wave := u.lp.wave, waveLoads := u.lp.waveLoads }, harv := u.harv, flt := { s.flt with waiting := u.flt.waiting } } := by
  have hbit : bit (par c 5) 0 = true := hflags
  have hpass : ∀ x ∈ (if bit (par c 5) 0 then [needParam (decide (par c 0 < 1024)) 0]
        else [needParam (decide (par c 0 < 1024)) 0, needParam (decide (64 * par32 c 1 + 2 * par32 c 3 ≤ patternBytes s)) 1,
              needParam (decide (16 ≤ par32 c 3) && decide (par32 c 3 ≤ 1048576)) 3, needParam (decide (par c 5 < 2)) 5]) ++
       [needTag s c.tag.toNat, needState (!waveListed s (par c 0)) 11,
        if bit (par c 5) 0 then none else needBusy (decide (blocksUsed s (par c 0) + waveBlocks (par32 c 3) ≤ 32768)) 0], x = none := by
    rw [hbit]
    exact pass_append (pass_cons (needParam_of 0 (decide_eq_true hseg)) pass_nil)
      (pass_cons (needTag_pass htag) (pass_cons (needState_of 11 (by rw [hlisted]; rfl)) (pass_cons rfl pass_nil)))
  obtain ⟨p, g, -, hans⟩ := accept_answered hpick.1 0 []
  obtain ⟨q, hq⟩ : ∃ q, accept s c 0 = q := ⟨_, rfl⟩
  rw [hq] at hans
  have hend : workEnd (waveFreed q (par c 0)) c.tag.toNat c.ring.toNat 0 0 0 0 1 0 0 0 = workEnd s c.tag.toNat c.ring.toNat 0 0 0 0 1 0 0 0 := by
    rw [hans.1]
    rfl
  have hexec : exec .waveLoad s = .next (endWork (waveFreed q (par c 0)) (workEnd s c.tag.toNat c.ring.toNat 0 0 0 0 1 0 0 0)) := by
    refine congrArg Host.Outcome.next ((onCommand_picked hpick (fun _ => true) _ rfl).trans ((checked_pass _ (firstBad_pass hpass)).trans ?_))
    rw [← hend]
    dsimp only
    rw [if_pos hbit, ← hq]
    rfl
  have hended := endWork_ended (waveFreed q (par c 0)) (workEnd s c.tag.toNat c.ring.toNat 0 0 0 0 1 0 0 0)
  obtain ⟨p', g', w, hparts⟩ := endWork_parts (waveFreed q (par c 0)) (workEnd s c.tag.toNat c.ring.toNat 0 0 0 0 1 0 0 0)
  have hbeside := answered_beside hans p' (waveFreed s (par c 0)).lp g' w
  have hfreed : endWork (waveFreed q (par c 0)) (workEnd s c.tag.toNat c.ring.toNat 0 0 0 0 1 0 0 0) =
      { q with fw := { q.fw with progress := p' }, lp := (waveFreed s (par c 0)).lp, harv := g', flt := { q.flt with waiting := w } } := by
    rw [hparts, hans.1]
    rfl
  rw [← hfreed] at hbeside
  have hsegs : ∀ k, (waveFreed s (par c 0)).waveSeg k = if k = par c 0 then [] else s.waveSeg k := waveFreed_seg s (par c 0)
  exact ⟨_, _, hexec, hbeside, (hsegs _).trans (if_pos rfl), fun k hk => (hsegs k).trans (if_neg hk), rfl, hended, rfl⟩

/-- The segment that a load which ends without an error leaves (R315). -/
def waveRead (s : State) (l : WaveLoad) : State :=
  if l.void then s else s.modWaveSeg l.seg (fun _ => (List.range l.samples).map (fun i => intW (w16 (dramWord s (l.addr + 2 * i)))))

/-- The load that ended has left the queue. -/
def loadLeft (s : State) (r : List WaveLoad) : State := { s with lp := { s.lp with waveLoads := r } }

theorem waveRead_parts (s : State) (l : WaveLoad) : ∃ v, waveRead s l = { s with lp := { s.lp with wave := v } } := by
  unfold waveRead
  split
  · exact ⟨_, rfl⟩
  · exact ⟨_, rfl⟩

theorem waveRead_seg (s : State) (l : WaveLoad) : (∀ g, g ≠ l.seg → (waveRead s l).waveSeg g = s.waveSeg g) ∧ (l.void = true → (waveRead s l).waveSeg l.seg = s.waveSeg l.seg) ∧
    (l.void = false → (waveRead s l).waveSeg l.seg = (List.range l.samples).map (fun i => intW (w16 (dramWord s (l.addr + 2 * i))))) := by
  unfold waveRead
  cases l.void with
  | true => exact ⟨fun _ _ => rfl, fun _ => rfl, nofun⟩
  | false =>
    refine ⟨fun g hg => ?_, nofun, fun _ => ?_⟩
    · exact (State.modWaveSeg_waveSeg ..).trans (if_neg hg)
    · exact (State.modWaveSeg_waveSeg ..).trans (if_pos rfl)

theorem endWork_waveSeg (s : State) (e : PendingEnd) (g : Nat) : (endWork s e).waveSeg g = s.waveSeg g := by
  obtain ⟨p, h, w, heq⟩ := endWork_parts s e
  rw [heq]
  rfl

theorem endWork_frame (s : State) (r : List WaveLoad) (w : Tab (List Int)) (e : PendingEnd) {v t : State} (hv : v = { s with lp := { s.lp with wave := w, waveLoads := r } })
    (ht : t = endWork v e) : t.lp.waveLoads = r ∧ t = { s with fw := { s.fw with progress := t.fw.progress }, lp := { s.lp with wave := t.lp.wave, waveLoads := r }, harv := t.harv, flt := { s.flt with waiting := t.flt.waiting } } := by
  obtain ⟨p, g, x, heq⟩ := endWork_parts v e
  rw [ht, heq, hv]
  exact ⟨rfl, rfl⟩

theorem waveLoadDone_ends {ue : Bool} {l : WaveLoad} {r : List WaveLoad} (hloads : s.lp.waveLoads = l :: r) :
    ∃ t, exec (.waveLoadDone ue) s = .next t ∧ t.lp.waveLoads = r ∧ (∀ g, g ≠ l.seg → t.waveSeg g = s.waveSeg g) ∧
      (ue = true → t.waveSeg l.seg = s.waveSeg l.seg ∧ Ended (workEnd s l.tag l.ring 0x12 0x8008 0 0 1 0 0 0) t) ∧
      (ue = false → Ended (workEnd s l.tag l.ring 0 0 0 0 1 0 0 0) t) ∧ (l.void = true → t.waveSeg l.seg = s.waveSeg l.seg) ∧
      (ue = false → l.void = false → (t.waveSeg l.seg).length = l.samples ∧ ∀ i, i < l.samples → (t.waveSeg l.seg).getD i 0 = intW (w16 (dramWord s (l.addr + 2 * i)))) ∧
      t = { s with fw := { s.fw with progress := t.fw.progress }, lp := { s.lp with wave := t.lp.wave, waveLoads := r }, harv := t.harv, flt := { s.flt with waiting := t.flt.waiting } } := by
  cases ue with
  | true =>
    obtain ⟨hr, hframe⟩ := endWork_frame s r s.lp.wave (workEnd s l.tag l.ring 0x12 0x8008 0 0 1 0 0 0) (v := loadLeft s r) rfl rfl
    have hseg : ∀ g, (endWork (loadLeft s r) (workEnd s l.tag l.ring 0x12 0x8008 0 0 1 0 0 0)).waveSeg g = s.waveSeg g := endWork_waveSeg _ _
    refine ⟨_, congrArg Host.Outcome.next ?_, hr, fun g _ => hseg g, fun _ => ⟨hseg _, endWork_ended _ _⟩, nofun, fun _ => hseg _, nofun, hframe⟩
    rw [hloads]
    rfl
  | false =>
    obtain ⟨v, hv⟩ := waveRead_parts (loadLeft s r) l
    obtain ⟨hother, hvoid, hread⟩ := waveRead_seg (loadLeft s r) l
    have hend : workEnd (waveRead (loadLeft s r) l) l.tag l.ring 0 0 0 0 1 0 0 0 = workEnd s l.tag l.ring 0 0 0 0 1 0 0 0 := by
      rw [hv]
      rfl
    obtain ⟨hr, hframe⟩ := endWork_frame s r v (workEnd s l.tag l.ring 0 0 0 0 1 0 0 0) hv rfl
    have hseg := endWork_waveSeg (waveRead (loadLeft s r) l) (workEnd s l.tag l.ring 0 0 0 0 1 0 0 0)
    refine ⟨_, congrArg Host.Outcome.next ?_, hr, fun g hg => (hseg g).trans (hother g hg), nofun, fun _ => endWork_ended _ _, fun h => (hseg _).trans (hvoid h),
      fun _ h => ?_, hframe⟩
    · rw [hloads, ← hend]
      rfl
    · rw [hseg, hread h]
      refine ⟨by simp, fun i hi => ?_⟩
      rw [List.getD_eq_getElem _ _ (by simpa using hi), List.getElem_map, List.getElem_range]
      rfl

end

/-- Settles O32: starts under their tags, what waits in a generator, its samples, and how a run ends. -/
theorem generators : Obligations.Generators := by
  unfold Obligations.Generators
  refine ⟨fun s c hpick hnamed hfinite hlimits hstart hflags hplans htags hl => ?_, fun s c hpick hnamed hone hfinite hlimits hstart hflags hplans htags hnom hstate hmode hout hsrc => ?_,
    fun l s r hsrc hbegun hk => ?_, fun l s => profileMoveEnd_waits, fun s l t r => profileAdvance_begins, fun s l t r v => profileAdvance_ends,
    fun s c => waveLoad_loads, fun s c => waveLoad_unloads, fun ue s l r => waveLoadDone_ends, fun ue s hnone => ?_,
    fun s c => waveRun_starts, fun s c => waveRun_jumps, fun r size target nr d => waveBoundary_jump, fun s c => waveRun_stops, fun s l t r => waveAdvance_stops,
    fun l s r hsrc hended => ?_, fun l s => waveRunEnd_waits, fun s c => sineRun_starts,
    fun s c tc hpick haction hnamed hfw hamp hpos hoffset hwhen hflags hsync hl htc => ?_, fun s c tc => sineRun_stops, fun l s r k => sineChangeDue_changes,
    fun l s => sineChangeDue_waits, fun s l t r => sineAdvance_setPoint, fun l s r hsrc h0 hturns hstop => ?_, fun l s => sineCyclesEnd_waits, fun l s r => sineRampEnd_ends,
    fun l s => sineRampEnd_waits⟩
  · exact profileMove_starts hpick hnamed.1 (profileChecks_pass hnamed hfinite hlimits hstart hflags hplans htags fun l hmem => (hl l hmem).2) fun l hmem => (hl l hmem).1
  · refine profileMove_busy hpick hone (profileChecks_pass hnamed hfinite hlimits hstart hflags hplans (by rw [hone]; exact htags) fun l hmem => ?_) hstate hmode hout hsrc
    obtain ⟨hlo, hhi⟩ := mem_loopRange.1 hmem
    obtain rfl : l = par c 0 := by omega
    exact hnom
  · obtain ⟨hloop, hended, hrest, hparts⟩ := runClosed_ended s l.val none (runEnd s l.val r.tag r.ring r.k 2 (s.loop l.val).lastSample)
    exact ⟨_, _, exec_profileMoveEnd hsrc ⟨hbegun, hk⟩, hloop, hended, rfl, rfl, rfl, rfl, rfl, rfl, rfl, hrest, hparts⟩
  · refine congrArg Host.Outcome.next ?_
    rw [hnone]
  · obtain ⟨hloop, hend, hrest, hparts⟩ := runClosed_ended s l.val (restoreCode r.restore)
      (runEnd s l.val r.tag r.ring r.instances (if r.restore.isSome then 1 else 2) (s.loop l.val).lastSample)
    exact ⟨_, _, exec_waveRunEnd hsrc hended, hloop, hend, rfl, rfl, rfl, rfl, rfl, rfl, rfl, hrest, hparts⟩
  · exact sineRun_changes hpick haction hnamed hfw hamp hpos hoffset hwhen hflags hsync
      (fun l hmem => ⟨(hl l hmem).1, (hl l hmem).2.1, (hl l hmem).2.2.1, (hl l hmem).2.2.2.1⟩) (fun l hmem => (hl l hmem).2.2.2.2) htc
  · exact ⟨_, sineCyclesEnd_stops hsrc h0 hturns hstop, modLoop_same .., fun n hn => modLoop_ne _ _ hn, rfl⟩

end Sys2Proof.Machine
end

section
/-! PROOFS. The obligation about power, pin and reset events (R32, R35 to R37, R41, R48). -/

set_option Elab.async false

namespace Sys2Proof.Machine

/-! Boot from step 3 (R32, R34). -/

/-- The latches that a boot from step 3 finds: the shutdown latch, and the causes and the state of the cloche. -/
def latches (s : State) : Bool × List Cause × List Cause × Tab BedCloche := (s.sup.shutdown, s.flt.chip, s.flt.chain, s.flt.bed)

section
variable (s : State)

theorem latches_foldl {α : Type} (step : State → α → State) (hstep : ∀ v a, latches (step v a) = latches v) (l : List α) : latches (l.foldl step s) = latches s :=
  foldl_same hstep l s

theorem latches_loadSupervision (g : Nat → Byte) : latches (loadSupervision g s) = latches s := by
  unfold loadSupervision
  dsimp only
  generalize List.range 5 = zones, List.range 16 = sensors, List.range 32 = loops
  rw [latches_foldl, latches_foldl, latches_foldl, latches_foldl]
  · exact fun _ _ => rfl
  · exact fun _ _ => rfl
  · exact fun _ _ => rfl
  · exact fun _ _ => rfl

theorem latches_loadReactions (g : Nat → Byte) : latches (loadReactions g s) = latches s := by
  unfold loadReactions
  generalize List.range 1792 = words
  rw [latches_foldl]
  exact fun _ _ => rfl

theorem latches_of_only {v t : State} (hsup : t.sup = v.sup) (hflt : t.flt = v.flt) : latches t = latches v := by
  unfold latches
  rw [hsup, hflt]

theorem latches_raise (k src d : Nat) : latches (s.raise k src d) = latches s := by
  unfold State.raise
  split <;> rfl

theorem latches_cal (x : Calibration) : latches { s with cal := x } = latches s := rfl

theorem latches_loadLoops (g : Nat → Byte) : latches (loadLoops g s) = latches s :=
  have h : Only 512 s (loadLoops g s) := loadLoops_only rfl only_refl
  latches_of_only (only_sup h) (only_flt h)

theorem latches_loadPins (g : Nat → Byte) : latches (loadPins g s) = latches s :=
  have h : Only 192 s (loadPins g s) := loadPins_only rfl only_refl
  latches_of_only (only_sup h) (only_flt h)

theorem latches_loadSeed : latches (loadSeed s) = latches s := by
  unfold loadSeed
  split
  · dsimp only
    rw [latches_cal, latches_loadSupervision, latches_loadReactions, latches_loadLoops, latches_loadPins]
  · rw [latches_raise, latches_cal]

theorem latches_useImage (n : Nat) : latches (useImage s n) = latches s :=
  latches_of_only (only_sup (useImage_only (w := 32768) rfl only_refl)) (only_flt (useImage_only (w := 32768) rfl only_refl))

theorem latches_selectImage : latches (selectImage s) = latches s := by
  have hslot : ∀ (v : State) (b : Bool) (n : Nat), latches (if b then v else v.raise 0x1B 2 n) = latches v := fun v b n => by
    split
    · rfl
    · exact latches_raise ..
  unfold selectImage
  dsimp only
  rw [hslot, hslot]
  split
  · exact latches_useImage ..
  · rw [latches_raise, latches_useImage]

/-- Boot step 3 has been passed (R32). -/
def stepDone : State := { s with clk := { s.clk with phase := .seeded } }

/-- REF_LOST's condition shows again while holdover lasts. -/
def refShown : State := if s.clk.holdover then s.live 0x10 0 true else s

theorem refShown_parts : ∃ flt, refShown s = { s with flt := flt } ∧ flt.chip = s.flt.chip ∧ flt.chain = s.flt.chain ∧ flt.bed = s.flt.bed := by
  unfold refShown
  split
  · exact ⟨_, rfl, rfl, rfl, rfl⟩
  · exact ⟨_, rfl, rfl, rfl, rfl⟩

/-- The state that boot step 3 leaves before the chip cause of a shutdown latch. -/
def seeded : State := refShown (stepDone (selectImage (loadSeed s)))

theorem bootStep3_eq : bootStep3 s = if (seeded s).sup.shutdown then clocheChip ((seeded s).live 0x1A 3 true) .shutdown { block := 0x1A, source := 3 } else seeded s := by
  unfold bootStep3 seeded
  generalize selectImage (loadSeed s) = v
  rfl

theorem seeded_latches : latches (seeded s) = latches s := by
  have h : latches (selectImage (loadSeed s)) = latches s := (latches_selectImage _).trans (latches_loadSeed s)
  rw [← h]
  unfold seeded
  generalize selectImage (loadSeed s) = v
  obtain ⟨flt, heq, hchip, hchain, hbed⟩ := refShown_parts (stepDone v)
  rw [heq]
  unfold latches
  dsimp only
  rw [hchip, hchain, hbed]
  rfl

theorem seeded_parts : ∃ pins edge lp sup cal flt,
    seeded s = { s with clk := { s.clk with phase := .seeded }, pins := pins, edge := edge, lp := lp, sup := sup, cal := cal, flt := flt } := by
  have h : Only 115392 s (selectImage (loadSeed s)) := selectImage_only rfl (loadSeed_only rfl only_refl)
  have heq := only_eq h
  unfold seeded
  generalize selectImage (loadSeed s) = v at heq
  obtain ⟨flt, hshown, -⟩ := refShown_parts (stepDone v)
  rw [hshown, heq]
  exact ⟨_, _, _, _, _, _, rfl⟩

/-! A cloche of the whole chip (R521). -/

/-- What is beside the cloche's bed registers. -/
theorem bed_of_calm {v t : State} (h : Calm v t) : t.flt.bed = v.flt.bed ∧ t.flt.chip = v.flt.chip := by
  have hflt : fltRest t.flt = fltRest v.flt := congrArg (fun x => x.2.1) h
  have hbed := congrArg (fun x : Faults => x.bed) hflt
  have hchip := congrArg (fun x : Faults => x.chip) hflt
  exact ⟨hbed, hchip⟩

theorem startBed_bed (b : Nat) (o : Origin) (run : Nat) :
    ((startBed s b o run).bedc b).active = true ∧ (∀ k, (s.bedc k).active = true → ((startBed s b o run).bedc k).active = true) ∧
      (startBed s b o run).flt.chip = s.flt.chip := by
  have hmod : ∀ (v : State) (f : BedCloche → BedCloche) (k : Nat), (v.modBedc b f).bedc k = if k = b then f (v.bedc b) else v.bedc k := fun v f k => State.modBedc_bedc ..
  unfold startBed
  dsimp only
  split
  next hactive =>
    refine ⟨hactive, fun k hk => ?_, rfl⟩
    rw [hmod]
    split
    next heq => rw [heq] at hk; exact hk
    next => exact hk
  next =>
    generalize hu : ((s.modBedc b _).modBedc b _) = u
    have hbed : (u.bedc b).active = true ∧ (∀ k, (s.bedc k).active = true → (u.bedc k).active = true) ∧ u.flt.chip = s.flt.chip := by
      rw [← hu]
      refine ⟨by rw [hmod, if_pos rfl], fun k hk => ?_, rfl⟩
      rw [hmod]
      split
      · rfl
      next hne =>
        rw [hmod, if_neg hne]
        exact hk
    have hcalm : Calm u (clocheBedLoops ((List.range 64).foldl (fun s q => if (seqBeds s q).contains b then latchStop s q run false else s)
        (clocheDrivers (moveDacs u b) b)) b run) := by
      refine clocheBedLoops_calm (calm_foldl (clocheDrivers_calm (moveDacs_calm calm_refl)) fun v q h => ?_)
      split
      · exact latchStop_calm h
      · exact h
    obtain ⟨hsame, hchip⟩ := bed_of_calm hcalm
    unfold State.bedc
    rw [hsame, hchip]
    exact hbed

theorem clocheChip_beds (c : Cause) (o : Origin) : c ∈ (clocheChip s c o).flt.chip ∧ ∀ b, b < 16 → ((clocheChip s c o).bedc b).active = true := by
  have hfold : ∀ (l : List Nat) (v : State), (∀ b ∈ l, ((l.foldl (fun s b => startBed s b { o with scope := 2 } 2) v).bedc b).active = true) ∧
      (∀ b, (v.bedc b).active = true → ((l.foldl (fun s b => startBed s b { o with scope := 2 } 2) v).bedc b).active = true) ∧
      (l.foldl (fun s b => startBed s b { o with scope := 2 } 2) v).flt.chip = v.flt.chip := by
    intro l
    induction l with
    | nil => exact fun v => ⟨fun b hb => (nomatch hb), fun b h => h, rfl⟩
    | cons a l ih =>
      intro v
      obtain ⟨hself, hkeep, hchip⟩ := startBed_bed v a { o with scope := 2 } 2
      obtain ⟨hin, hkeep', hchip'⟩ := ih (startBed v a { o with scope := 2 } 2)
      rw [List.foldl_cons]
      refine ⟨fun b hb => ?_, fun b h => hkeep' b (hkeep b h), hchip'.trans hchip⟩
      rcases List.mem_cons.1 hb with rfl | hb
      · exact hkeep' b hself
      · exact hin b hb
  obtain ⟨hin, -, hchip⟩ := hfold (List.range 16) { s with flt := { s.flt with chip := latchCause s.flt.chip c } }
  refine ⟨?_, fun b hb => hin b (List.mem_range.2 hb)⟩
  unfold clocheChip
  dsimp only
  rw [hchip]
  change c ∈ latchCause s.flt.chip c
  unfold latchCause
  split
  next h => simpa using h
  next => simp

theorem clocheChip_rest (c : Cause) (o : Origin) : (clocheChip s c o).clk = s.clk ∧ (clocheChip s c o).bus = s.bus ∧ (clocheChip s c o).sup = s.sup ∧
    (clocheChip s c o).pending = s.pending := by
  have h : Only 81906 s (clocheChip s c o) := clocheChip_only rfl only_refl
  exact ⟨only_clk h, only_bus h, only_sup h, only_pending h⟩

/-- A boot from step 3 (R32, R34): the seed is loaded; a shutdown latch that is still set holds every bed. -/
theorem bootStep3_spec : (bootStep3 s).clk = { s.clk with phase := .seeded } ∧ (bootStep3 s).bus = s.bus ∧ (bootStep3 s).sup.shutdown = s.sup.shutdown ∧
    (bootStep3 s).pending = s.pending ∧
    (s.sup.shutdown = false → ∃ pins edge lp sup cal flt, bootStep3 s = { s with clk := { s.clk with phase := .seeded }, pins := pins, edge := edge, lp := lp, sup := sup, cal := cal, flt := flt } ∧
      flt.chip = s.flt.chip ∧ flt.chain = s.flt.chain ∧ flt.bed = s.flt.bed) ∧
    (s.sup.shutdown = true → Cause.shutdown ∈ (bootStep3 s).flt.chip ∧ ∀ b, b < 16 → ((bootStep3 s).bedc b).active = true) := by
  have hlatch := seeded_latches s
  obtain ⟨pins, edge, lp, sup, cal, flt, hparts⟩ := seeded_parts s
  rw [bootStep3_eq]
  generalize seeded s = v at hlatch hparts
  simp only [latches, Prod.mk.injEq] at hlatch
  obtain ⟨hshut, hchip, hchain, hbed⟩ := hlatch
  split
  next hset =>
    obtain ⟨hclk, hbus, hsup, hpending⟩ := clocheChip_rest (v.live 0x1A 3 true) .shutdown { block := 0x1A, source := 3 }
    refine ⟨hclk.trans ?_, hbus.trans ?_, (congrArg Supervision.shutdown hsup).trans hshut, hpending.trans ?_, fun hclear => ?_, fun _ => clocheChip_beds _ _ _⟩
    · rw [hparts]; rfl
    · rw [hparts]; rfl
    · rw [hparts]; rfl
    · rw [hshut, hclear] at hset
      cases hset
  next hclear =>
    refine ⟨by rw [hparts], by rw [hparts], hshut, by rw [hparts], fun _ => ⟨pins, edge, lp, sup, cal, flt, hparts, ?_⟩, fun hset => ?_⟩
    · rw [hparts] at hchip hchain hbed
      exact ⟨hchip, hchain, hbed⟩
    · rw [hshut, hset] at hclear
      exact absurd rfl hclear

theorem foldl_raise_parts {α : Type} (k src : Nat) (f : α → Nat) (l : List α) :
    ∃ flt, l.foldl (fun s i => s.raise k src (f i)) s = { s with flt := flt } ∧ flt.chip = s.flt.chip ∧ flt.chain = s.flt.chain ∧ flt.bed = s.flt.bed := by
  have hlatch := latches_foldl s (fun s i => s.raise k src (f i)) (fun v i => latches_raise v k src (f i)) l
  have honly : Only 65536 s (l.foldl (fun s i => s.raise k src (f i)) s) := only_foldl only_refl fun v i h => State.raise_only rfl h
  simp only [latches, Prod.mk.injEq] at hlatch
  obtain ⟨-, hchip, hchain, hbed⟩ := hlatch
  exact ⟨_, only_eq honly, hchip, hchain, hbed⟩

theorem bootFrom3_spec : (bootFrom3 s).clk = { s.clk with phase := .seeded } ∧ (bootFrom3 s).bus = s.bus ∧ (bootFrom3 s).sup.shutdown = s.sup.shutdown ∧
    (bootFrom3 s).pending = s.pending ∧
    (s.sup.shutdown = false → ∃ pins edge lp sup cal flt, bootFrom3 s = { s with clk := { s.clk with phase := .seeded }, pins := pins, edge := edge, lp := lp, sup := sup, cal := cal, flt := flt } ∧
      flt.chip = s.flt.chip ∧ flt.chain = s.flt.chain ∧ flt.bed = s.flt.bed) ∧
    (s.sup.shutdown = true → Cause.shutdown ∈ (bootFrom3 s).flt.chip ∧ ∀ b, b < 16 → ((bootFrom3 s).bedc b).active = true) := by
  obtain ⟨hclk, hbus, hsup, hpending, hclear, hset⟩ := bootStep3_spec s
  unfold bootFrom3
  generalize bootStep3 s = v at hclk hbus hsup hpending hclear hset ⊢
  obtain ⟨g, heq, hchip, hchain, hbed⟩ := foldl_raise_parts v 0x1A 11 (fun i => i) (tornSlots s)
  rw [heq]
  refine ⟨hclk, hbus, hsup, hpending, fun h => ?_, fun h => ?_⟩
  · obtain ⟨pins, edge, lp, sup, cal, flt, hparts, hc, hh, hb⟩ := hclear h
    rw [hparts] at hchip hchain hbed ⊢
    exact ⟨pins, edge, lp, sup, cal, g, rfl, hchip.trans hc, hchain.trans hh, hbed.trans hb⟩
  · obtain ⟨hmem, hbeds⟩ := hset h
    unfold State.bedc
    rw [hchip, hbed]
    exact ⟨hmem, hbeds⟩

end

end Sys2Proof.Machine
end

section
/-! PROOFS. The obligation about power, pin and reset events (R35 to R37, R41, R48, R169): what a reset stops, and the whole. -/

set_option Elab.async false

namespace Sys2Proof.Machine

/-! What the start of any reset leaves alone (R49). -/

section
variable {s t : State}

theorem fwRest_of_calm (h : Calm s t) : fwRest t.fw = fwRest s.fw := congrArg (fun x => x.1) h

theorem armed_of_calm (h : Calm s t) : t.flt.armed = s.flt.armed := by
  have hflt : fltRest t.flt = fltRest s.flt := congrArg (fun x => x.2.1) h
  have harmed := congrArg (fun x : Faults => x.armed) hflt
  exact harmed

theorem rollback_of_fwRest {f g : Firmware} (h : fwRest f = fwRest g) : f.rollback = g.rollback := by
  have hroll := congrArg (fun x : Firmware => x.rollback) h
  exact hroll

theorem endWindow_fwRest (s : State) (e : Nat) : fwRest (endWindow s e).fw = fwRest s.fw := by
  have hpert : fwRest (s.modPert e (fun x => { x with active := false })).fw = fwRest s.fw := rfl
  unfold endWindow
  dsimp only
  generalize s.modPert e (fun x => { x with active := false }) = v at hpert ⊢
  rw [← hpert]
  split
  · exact hpert.symm
  split
  · rfl
  split
  · exact fwRest_of_calm (serviceRing_calm calm_refl)
  split
  · split
    · rfl
    · exact fwRest_of_calm (State.modPort_calm (State.modCls_calm calm_refl))
  split
  · exact fwRest_of_calm (flushReplies_calm calm_refl)
  · rfl

theorem anyReset_fwRest (s : State) : fwRest (anyReset s).fw = fwRest s.fw := by
  unfold anyReset disarm
  dsimp only
  refine (foldl_same (F := fun v : State => fwRest v.fw) (step := releaseDelay) (fun v n => fwRest_of_calm (releaseDelay_calm calm_refl)) _ _).trans ?_
  exact foldl_same (F := fun v : State => fwRest v.fw) (step := endWindow) endWindow_fwRest _ _

theorem anyReset_armed (s : State) : (anyReset s).flt.armed = false := rfl

theorem anyReset_rest (s : State) : (anyReset s).clk = s.clk ∧ (anyReset s).cal = s.cal ∧ (anyReset s).bus = { s.bus with halfHost := none, halfShed := none } := by
  have hany : Only 98104 s (anyReset s) := anyReset_only rfl only_refl
  have hdis : Only 98096 { s with bus := { s.bus with halfHost := none, halfShed := none } } (anyReset s) := disarm_only rfl only_refl
  exact ⟨only_clk hany, only_cal hany, only_bus hdis⟩

/-! Every output takes its cloche action (R37, R50). -/

/-- The cloche registers of a bed whose outputs a reset halts. -/
def haltedBed (now : Nat) (x : BedCloche) : BedCloche :=
  { x with active := true, settled := false, causeBlock := 0xFF, causeSource := 0x3F, causeScope := 2, origin := 0, time := if x.active then x.time else now }

/-- A reset halts the outputs of bed `b`. -/
def haltBed (s : State) (b : Nat) : State := clocheDrivers (moveDacs (s.modBedc b (haltedBed s.now)) b) b

/-- A loop whose engine a reset stops. -/
def haltedLoop (x : LoopState) : LoopState :=
  { state := .cloche, isOpen := decide (x.clocheMode = 0), demand := if x.clocheMode = 0 then x.clocheCode else x.demand
    clocheMode := x.clocheMode, clocheV := x.clocheV, clocheI := x.clocheI, clocheCode := x.clocheCode, powerUp := x.powerUp }

/-- A reset stops the engines of the loops `l`. -/
def haltLoops (l : List Nat) (s : State) : State := l.foldl (fun v l => v.modLoop l haltedLoop) s

theorem haltBeds_eq (s : State) : haltBeds s = haltLoops (List.range 544) ((List.range 16).foldl haltBed s) := rfl

theorem haltBed_flt (s : State) (b : Nat) : (haltBed s b).flt = (s.modBedc b (haltedBed s.now)).flt := by
  have h : Only 192 (s.modBedc b (haltedBed s.now)) (haltBed s b) := clocheDrivers_only rfl (moveDacs_only rfl only_refl)
  exact only_flt h

theorem haltBed_beds (l : List Nat) (s : State) : (∀ b ∈ l, ((l.foldl haltBed s).bedc b).active = true) ∧
    (∀ b, (s.bedc b).active = true → ((l.foldl haltBed s).bedc b).active = true) ∧ (l.foldl haltBed s).flt.armed = s.flt.armed := by
  induction l generalizing s with
  | nil => exact ⟨fun b hb => (nomatch hb), fun b h => h, rfl⟩
  | cons a l ih =>
    obtain ⟨hin, hkeep, harmed⟩ := ih (haltBed s a)
    have hstep : ∀ b, (haltBed s a).bedc b = if b = a then haltedBed s.now (s.bedc a) else s.bedc b := fun b => by
      unfold State.bedc
      rw [haltBed_flt]
      exact State.modBedc_bedc ..
    rw [List.foldl_cons]
    refine ⟨fun b hb => ?_, fun b h => hkeep b ?_, harmed.trans (by rw [haltBed_flt]; rfl)⟩
    · rcases List.mem_cons.1 hb with rfl | hb
      · exact hkeep b (by rw [hstep, if_pos rfl]; rfl)
      · exact hin b hb
    · rw [hstep]
      split
      · rfl
      · exact h

theorem haltLoops_spec {l : List Nat} (hl : l.Nodup) (s : State) : (∀ k ∈ l, ((haltLoops l s).loop k).state = .cloche) ∧ (haltLoops l s).flt = s.flt := by
  obtain ⟨p, hparts⟩ := foldl_modLoop_parts haltedLoop l s
  refine ⟨fun k hk => ?_, ?_⟩
  · unfold haltLoops
    rw [foldl_modLoop_loop haltedLoop hl, if_pos hk]
    rfl
  · unfold haltLoops
    rw [hparts]

theorem haltBeds_spec (s : State) : (∀ b, b < 16 → ((haltBeds s).bedc b).active = true) ∧ (∀ l, l < 544 → ((haltBeds s).loop l).state = .cloche) ∧
    (haltBeds s).flt.armed = s.flt.armed := by
  obtain ⟨hin, -, harmed⟩ := haltBed_beds (List.range 16) s
  rw [haltBeds_eq]
  generalize (List.range 16).foldl haltBed s = v at hin harmed ⊢
  obtain ⟨hloops, hflt⟩ := haltLoops_spec List.nodup_range v (l := List.range 544)
  refine ⟨fun b hb => ?_, fun l hl => hloops l (List.mem_range.2 hl), by rw [hflt]; exact harmed⟩
  unfold State.bedc
  rw [hflt]
  exact hin b (List.mem_range.2 hb)

theorem haltBeds_rest (s : State) : (haltBeds s).clk = s.clk ∧ (haltBeds s).bus = s.bus ∧ (haltBeds s).fw = s.fw ∧ (haltBeds s).cal = s.cal := by
  have honly : Only 66240 s (haltBeds s) := haltBeds_only rfl only_refl
  exact ⟨only_clk honly, only_bus honly, only_fw honly, only_cal honly⟩

end

/-! The start of a pin or chip reset (R36, R37, R39). -/

/-- A port that is ACTIVE goes down. -/
def portStopped (s : State) (p : Nat) : State := if (s.port p).step = .active then s.raise (portBlock p) 0 else s

/-- A flash operation or fetch in progress is lost. -/
def flashStopped (s : State) : State := if s.ser.flashOps.isEmpty ∧ s.ser.xipWait.isNone then s else s.raise 0x18 0

/-- What stops before the outputs are halted: ports, stage frames and a flash operation. -/
def enginesStopped (s : State) : State := flashStopped ((List.range 16).foldl (fun s st => abortFrame s st false) ([0, 1].foldl portStopped s))

theorem enginesStopped_calm (s : State) : Calm s (enginesStopped s) := by
  have hport : ∀ v p, Calm s v → Calm s (portStopped v p) := fun v p h => by
    unfold portStopped
    split
    · exact State.raise_calm h
    · exact h
  have habort : Calm s ((List.range 16).foldl (fun s st => abortFrame s st false) ([0, 1].foldl portStopped s)) :=
    calm_foldl (calm_foldl calm_refl hport) fun v st h => abortFrame_calm h
  unfold enginesStopped flashStopped
  split
  · exact habort
  · exact State.raise_calm habort

theorem enginesStopped_only (s : State) : Only 81696 s (enginesStopped s) := by
  have hport : ∀ v p, Only 81696 s v → Only 81696 s (portStopped v p) := fun v p h => by
    unfold portStopped
    split
    · exact State.raise_only rfl h
    · exact h
  have habort : Only 81696 s ((List.range 16).foldl (fun s st => abortFrame s st false) ([0, 1].foldl portStopped s)) :=
    only_foldl (only_foldl only_refl hport) fun v st h => abortFrame_only rfl h
  unfold enginesStopped flashStopped
  split
  · exact habort
  · exact State.raise_only rfl habort

/-- The part of the start of a pin or chip reset that stops things. -/
def resetStops (s : State) (cause : Nat) : State := haltBeds (enginesStopped (anyReset (setCause s cause)))

/-- What a pin or chip reset leaves of a state whose outputs are halted. -/
def resetHolds (s : State) (kind : ResetKind) (until' : Nat) : State :=
  { s with
    clk := keptClock s.clk kind until'
    mb := []
    fw := { ({} : Firmware) with rollback := s.fw.rollback }
    pat := { ({} : Pattern) with dram := s.pat.dram, tin := s.pat.tin, trig := s.pat.trig }
    lp := { ({} : Loops) with loop := s.lp.loop }
    meas := {}
    harv := {}
    link := { ({} : Trellis) with syncEpoch := s.link.syncEpoch }
    ser := { ({} : Serial) with flash := s.ser.flash }
    cal := { s.cal with run := none, commit := none, op := none, staging := none }
    flt := { s.flt with entry := [], forceAt := [] } }

theorem startReset_eq (s : State) (kind : ResetKind) (cause until' : Nat) : startReset s kind cause until' = resetHolds (resetStops s cause) kind until' := by
  unfold startReset resetStops enginesStopped flashStopped portStopped resetHolds
  rfl

/-- `v` is `s` with every output halted by a reset of cause bit `cause`. -/
def Halted (s : State) (cause : Nat) (v : State) : Prop :=
  (∀ b, b < 16 → (v.bedc b).active = true) ∧ (∀ l, l < 544 → (v.loop l).state = .cloche) ∧
    v.flt.armed = false ∧ v.clk = { s.clk with resetCause := s.clk.resetCause ||| BitVec.ofNat 7 (2 ^ cause) } ∧
    v.bus.halfHost = none ∧ v.bus.halfShed = none ∧ v.fw.rollback = s.fw.rollback ∧ v.cal = s.cal

theorem resetStops_halted (s : State) (cause : Nat) : Halted s cause (resetStops s cause) := by
  obtain ⟨hbeds, hloops, harmed⟩ := haltBeds_spec (enginesStopped (anyReset (setCause s cause)))
  obtain ⟨hclk, hbus, hfw, hcal⟩ := haltBeds_rest (enginesStopped (anyReset (setCause s cause)))
  have hcalm := enginesStopped_calm (anyReset (setCause s cause))
  have honly := enginesStopped_only (anyReset (setCause s cause))
  obtain ⟨hclk', hcal', hbus'⟩ := anyReset_rest (setCause s cause)
  have hrest : fwRest (enginesStopped (anyReset (setCause s cause))).fw = fwRest s.fw := (fwRest_of_calm hcalm).trans (anyReset_fwRest (setCause s cause))
  have hroll := rollback_of_fwRest hrest
  have hb := hbus.trans ((only_bus honly).trans hbus')
  unfold resetStops
  refine ⟨hbeds, hloops, harmed.trans ((armed_of_calm hcalm).trans (anyReset_armed _)), hclk.trans ((only_clk honly).trans (hclk'.trans rfl)), ?_, ?_, ?_,
    hcal.trans ((only_cal honly).trans (hcal'.trans rfl))⟩
  · rw [hb]
  · rw [hb]
  · rw [hfw]
    exact hroll

theorem resetHolds_byFault (s : State) (kind : ResetKind) (until' : Nat) :
    ({ resetHolds s kind until' with clk := { (resetHolds s kind until').clk with resetByFault := false } } : State) = resetHolds s kind until' := rfl

theorem startReset_byFault (s : State) (kind : ResetKind) (cause until' : Nat) :
    ({ startReset s kind cause until' with clk := { (startReset s kind cause until').clk with resetByFault := false } } : State) = resetHolds (resetStops s cause) kind until' :=
  (congrArg (fun v : State => ({ v with clk := { v.clk with resetByFault := false } } : State)) (startReset_eq s kind cause until')).trans (resetHolds_byFault ..)

theorem chipReset_starts {s : State} {kind : ResetKind} (hoff : s.clk.phase ≠ .off) (hdeep : s.clk.phase ≠ .deep)
    (hweaker : ∀ k, s.clk.resetting = some k → resetRank k < resetRank kind) (cause until' : Nat) :
    chipReset s kind cause until' false = resetHolds (resetStops s cause) kind until' := by
  unfold chipReset
  refine (if_neg fun hbusy => ?_).trans (startReset_byFault s kind cause until')
  rw [decide_eq_false hoff, decide_eq_false hdeep, Bool.or_false, Bool.or_false] at hbusy
  split at hbusy
  next k hk => exact absurd (hweaker k hk) (Nat.not_lt.2 (of_decide_eq_true hbusy))
  next => cases hbusy

/-- What a pin or chip reset leaves as it starts (R37, R48). -/
theorem resetHolds_spec {s v : State} {cause : Nat} (h : Halted s cause v) (kind : ResetKind) (until' : Nat) {t : State} (ht : t = resetHolds v kind until') :
    t.clk.resetting = some kind ∧ t.clk.resetCause = s.clk.resetCause ||| BitVec.ofNat 7 (2 ^ cause) ∧ t.clk.time = s.clk.time ∧ t.clk.resetEnd = until' ∧
      t.clk.wdogTimes = s.clk.wdogTimes ∧ t.clk.restarting = false ∧ (∀ b, b < 16 → (t.bedc b).active = true) ∧ (∀ l, l < 544 → (t.loop l).state = .cloche) ∧
      t.mb = [] ∧ t.meas = {} ∧ t.harv = {} ∧ t.pat.seq = [] ∧ t.link.port = [] ∧ t.fw.rollback = s.fw.rollback ∧
      t.cal.keep = s.cal.keep ∧ t.flt.armed = false ∧ t.bus.halfHost = none ∧ t.bus.halfShed = none := by
  obtain ⟨hbeds, hloops, harmed, hclk, hhost, hshed, hroll, hcal⟩ := h
  have hcause := congrArg Clock.resetCause hclk
  have htime := congrArg Clock.time hclk
  have hwdog := congrArg Clock.wdogTimes hclk
  have hkeep := congrArg Calibration.keep hcal
  subst ht
  exact ⟨rfl, hcause, htime, rfl, hwdog, rfl, hbeds, hloops, rfl, rfl, rfl, rfl, rfl, hroll, hkeep, harmed, hhost, hshed⟩

theorem exec_pinReset {s : State} {lowNs : Nat} (hlow : 1000 ≤ lowNs) (hoff : s.clk.phase ≠ .off) (hdeep : s.clk.phase ≠ .deep) (hpin : s.clk.resetting ≠ some .pin)
    (hpor : s.clk.resetting ≠ some .powerOn) : exec (.pinReset lowNs) s = .next (resetHolds (resetStops s 1) .pin (s.now + (lowNs * 16 + 4) / 5)) := by
  have hstart := chipReset_starts (kind := .pin) hoff hdeep (fun k hk => by
    cases k with
    | pin => exact absurd hk hpin
    | powerOn => exact absurd hk hpor
    | linkPort | block | watchdog | chip => decide) 1 (s.now + (lowNs * 16 + 4) / 5)
  exact congrArg Host.Outcome.next ((if_neg (by omega)).trans hstart)

theorem pinReset_starts {s : State} {lowNs : Nat} (hlow : 1000 ≤ lowNs) (hoff : s.clk.phase ≠ .off) (hdeep : s.clk.phase ≠ .deep) (hpin : s.clk.resetting ≠ some .pin)
    (hpor : s.clk.resetting ≠ some .powerOn) :
    ∃ t, exec (.pinReset lowNs) s = .next t ∧ t.clk.resetting = some .pin ∧ t.clk.resetCause = s.clk.resetCause ||| 2 ∧
      t.clk.time = s.clk.time ∧ s.clk.time + lowNs * 16 / 5 ≤ t.clk.resetEnd ∧ t.clk.resetEnd ≤ s.clk.time + lowNs * 16 / 5 + 1 ∧
      t.clk.wdogTimes = s.clk.wdogTimes ∧ t.clk.restarting = false ∧
      (∀ b, b < 16 → (t.bedc b).active = true) ∧ (∀ l, l < 544 → (t.loop l).state = .cloche) ∧
      t.mb = [] ∧ t.meas = {} ∧ t.harv = {} ∧ t.pat.seq = [] ∧ t.link.port = [] ∧ t.fw.rollback = s.fw.rollback ∧
      t.cal.keep = s.cal.keep ∧ t.flt.armed = false ∧ t.bus.halfHost = none ∧ t.bus.halfShed = none := by
  obtain ⟨t, ht⟩ : ∃ t, t = resetHolds (resetStops s 1) .pin (s.now + (lowNs * 16 + 4) / 5) := ⟨_, rfl⟩
  have hexec := exec_pinReset hlow hoff hdeep hpin hpor
  rw [← ht] at hexec
  obtain ⟨hkind, hcause, htime, hend, hrest⟩ := resetHolds_spec (resetStops_halted s 1) .pin _ ht
  have hnow : s.now = s.clk.time := rfl
  refine ⟨t, hexec, hkind, hcause, htime, ?_, ?_, hrest⟩
  · rw [hend, hnow]
    omega
  · rw [hend, hnow]
    omega

theorem pinReset_absorbed {s : State} (lowNs : Nat) (h : s.clk.resetting = some .pin ∨ s.clk.resetting = some .powerOn) : exec (.pinReset lowNs) s = .next s := by
  refine congrArg Host.Outcome.next ?_
  split
  · rfl
  · unfold chipReset
    dsimp only
    rcases h with h | h <;> rw [h] <;> exact if_pos rfl

/-! Power (R9, R32, R550). -/

theorem powerOnReset_boots {s : State} {wsel : BitVec 2} (h : s.clk.phase = .off ∨ s.clk.phase = .released) :
    ∃ t, exec (.powerOnReset wsel) s = .next t ∧ t.clk = { ({} : Clock) with phase := .seeded, wsel := wsel } ∧
      t.mb = [] ∧ t.pat = {} ∧ t.meas = {} ∧ t.harv = {} ∧ t.link = {} ∧ t.ser = { ({} : Serial) with flash := s.ser.flash } ∧
      t.fw = { ({} : Firmware) with rollback := s.fw.rollback } ∧ t.bus.uniqueId = s.bus.uniqueId ∧
      t.sup.shutdown = false ∧ t.pending = s.pending := by
  obtain ⟨v, hv⟩ : ∃ v : State, v = { setCause (coldState s) 0 with clk := { (setCause (coldState s) 0).clk with wsel := wsel } } := ⟨_, rfl⟩
  have hcold : v.clk = { ({} : Clock) with wsel := wsel } ∧ v.bus.uniqueId = s.bus.uniqueId ∧ v.sup.shutdown = false ∧ v.pending = s.pending ∧ v.mb = [] ∧ v.pat = {} ∧
      v.meas = {} ∧ v.harv = {} ∧ v.link = {} ∧ v.ser = { ({} : Serial) with flash := s.ser.flash } ∧ v.fw = { ({} : Firmware) with rollback := s.fw.rollback } := by
    have hclk : v.clk = { ({} : Clock) with resetCause := 1 ||| BitVec.ofNat 7 (2 ^ 0), wsel := wsel } := by rw [hv]; rfl
    rw [hclk, hv]
    exact ⟨rfl, rfl, rfl, rfl, rfl, rfl, rfl, rfl, rfl, rfl, rfl⟩
  obtain ⟨hclk, hid, hshut, hpending, hmb, hpat, hmeas, hharv, hlink, hser, hfw⟩ := hcold
  obtain ⟨hclk', hbus, hsup, hpending', hclear, -⟩ := bootFrom3_spec v
  obtain ⟨pins, edge, lp, sup, cal, flt, hparts, -⟩ := hclear hshut
  have hexec : exec (.powerOnReset wsel) s = .next (bootFrom3 v) := by
    refine congrArg Host.Outcome.next ((if_pos h).trans ?_)
    rw [hv]
  refine ⟨_, hexec, hclk'.trans (by rw [hclk]), ?_⟩
  generalize bootFrom3 v = t at *
  refine ⟨?_, ?_, ?_, ?_, ?_, ?_, ?_, (congrArg Bus.uniqueId hbus).trans hid, hsup.trans hshut, hpending'.trans hpending⟩ <;> rw [hparts] <;> assumption

/-! RESET_END (R37). -/

theorem syncBeds_parts (s : State) (l : List Nat) : ∃ n e, syncBeds s l = { s with free := n, edge := e } := by
  have h : Only 130 s (syncBeds s l) := syncBeds_only rfl only_refl
  exact ⟨_, _, only_eq h⟩

/-- The moment a reset ends, noted if a fault caused it. -/
def resetPassed (s : State) : State :=
  if (s.reach s.clk.resetEnd).clk.resetByFault then { s.reach s.clk.resetEnd with clk := { (s.reach s.clk.resetEnd).clk with faultResetEnd := some (s.reach s.clk.resetEnd).now } }
  else s.reach s.clk.resetEnd

theorem resetPassed_parts (s : State) : ∃ clk, resetPassed s = { s with clk := clk } ∧ clk.time = max s.clk.time s.clk.resetEnd ∧ clk.resetCause = s.clk.resetCause := by
  unfold resetPassed
  split
  · exact ⟨_, rfl, rfl, rfl⟩
  · exact ⟨_, rfl, rfl, rfl⟩

theorem resetEnd_boots {s : State} (h : s.clk.resetting ≠ none) :
    ∃ t, exec .resetEnd s = .next t ∧ t.clk.phase = .seeded ∧ t.clk.resetting = none ∧
      t.clk.time = max s.clk.time s.clk.resetEnd ∧ t.clk.resetCause = s.clk.resetCause ∧ t.bus.uniqueId = s.bus.uniqueId ∧
      t.sup.shutdown = s.sup.shutdown ∧
      (s.sup.shutdown = false → t.mb = [] ∧ t.meas = {} ∧ t.harv = {} ∧ t.link.port = [] ∧ t.flt.chip = [] ∧
        t.flt.chain = [] ∧ ∀ b, (t.bedc b).active = false) ∧
      (s.sup.shutdown = true → Cause.shutdown ∈ t.flt.chip ∧ ∀ b, b < 16 → (t.bedc b).active = true) := by
  obtain ⟨clk, hpassed, htime, hcause⟩ := resetPassed_parts s
  obtain ⟨n, e, hsync⟩ := syncBeds_parts (clearClasses (resetPassed s)) (List.range 16)
  have hexec : exec .resetEnd s = .next (bootFrom3 (syncBeds (clearClasses (resetPassed s)) (List.range 16))) :=
    congrArg Host.Outcome.next (if_neg (by rw [Option.isNone_iff_eq_none]; exact h))
  refine ⟨_, hexec, ?_⟩
  rw [hpassed] at hsync
  rw [hpassed, hsync]
  generalize hv : ({ clearClasses { s with clk := clk } with free := n, edge := e } : State) = v
  obtain ⟨hclk, hbus, hsup, -, hclear, hset⟩ := bootFrom3_spec v
  have hvclk : v.clk = { clk with resetting := none, resetByFault := false, phase := .released } := by rw [← hv]; rfl
  have hvshut : v.sup.shutdown = s.sup.shutdown := by rw [← hv]; rfl
  refine ⟨?_, ?_, ?_, ?_, ?_, hsup.trans hvshut, fun hno => ?_, fun hyes => hset (hvshut.trans hyes)⟩
  · rw [hclk]
  · rw [hclk, hvclk]
  · rw [hclk, hvclk]
    exact htime
  · rw [hclk, hvclk]
    exact hcause
  · rw [hbus, ← hv]
    rfl
  · obtain ⟨pins, edge, lp, sup, cal, flt, hparts, hchip, hchain, hbed⟩ := hclear (hvshut.trans hno)
    have hempty : v.mb = [] ∧ v.meas = {} ∧ v.harv = {} ∧ v.link.port = [] ∧ v.flt.chip = [] ∧ v.flt.chain = [] ∧ v.flt.bed = [] := by
      rw [← hv]
      exact ⟨rfl, rfl, rfl, rfl, rfl, rfl, rfl⟩
    obtain ⟨hmb, hmeas, hharv, hport, hc, hh, hb⟩ := hempty
    rw [hparts]
    refine ⟨hmb, hmeas, hharv, hport, hchip.trans hc, hchain.trans hh, fun b => ?_⟩
    unfold State.bedc
    rw [show flt.bed = [] from hbed.trans hb]
    rfl

/-! BLOCK_RESET_END (R41, R99, R169). -/

theorem jitteredPulse_calm {s : State} (h : s.flt.armed = false) : jitteredPulse s = (s, 0) := by
  have hnone : ∀ k n, s.perturbed k n = false := fun k n => by
    unfold State.perturbed
    rw [h]
    rfl
  unfold jitteredPulse
  rw [hnone, hnone]
  rfl

theorem jitteredPulse_parts (s : State) : ∃ n, (jitteredPulse s).1 = { s with free := n } := by
  unfold jitteredPulse
  split
  · exact ⟨_, rfl⟩
  · exact ⟨_, rfl⟩

theorem syncBeds_base (s : State) (b : Nat) : (∃ n e, syncBeds s [b] = { s with free := n, edge := { s.edge with base := e } }) ∧
    (s.flt.armed = false → (syncBeds s [b]).base b = 0) := by
  obtain ⟨n, hpulse⟩ := jitteredPulse_parts s
  refine ⟨?_, fun harmed => ?_⟩
  · unfold syncBeds
    dsimp only
    rw [hpulse]
    exact ⟨_, _, rfl⟩
  · unfold syncBeds
    rw [jitteredPulse_calm harmed]
    exact (State.modBase_base ..).trans (if_pos rfl)

theorem startFetch_parts (s : State) : ∃ f n r, startFetch s = { s with pat := { s.pat with fetch := f, turn := n, fetchReady := r } } := by
  unfold startFetch
  split
  · exact ⟨_, _, _, rfl⟩
  split
  · exact ⟨_, _, _, rfl⟩
  · exact ⟨_, _, _, rfl⟩

/-- SP0 has recovered from its block reset: a fetch that waited is served. -/
def flashServes (s : State) : State :=
  match s.ser.xipWait with
  | some o => if sp0Held s then s else xipServe s o
  | none => s

theorem flashServes_parts (s : State) : ∃ x f, flashServes s = { s with ser := x, flt := f } := by
  unfold flashServes
  split
  next o ho =>
    split
    · exact ⟨_, _, rfl⟩
    · have h : Only 73728 s (xipServe s o) := xipServe_only rfl only_refl
      exact ⟨_, _, only_eq h⟩
  · exact ⟨_, _, rfl⟩

/-- Block `k` is in service again. -/
def blockServes (s : State) (k : Nat) : State :=
  let s := if k < 16 then syncBeds (wmInitBed s k) [k] else s
  let s := if k = 0x14 then startFetch s else s
  if k = 0x18 then flashServes { s with ser := { s.ser with sp0Busy := false } } else s

theorem blockServes_parts (s : State) (k : Nat) : ∃ n e f i r m x g, blockServes s k =
    { s with free := n, edge := { s.edge with base := e }, pat := { s.pat with fetch := f, turn := i, fetchReady := r }, meas := m, ser := x, flt := g } := by
  have hbed : ∃ n e m g, (if k < 16 then syncBeds (wmInitBed s k) [k] else s) = { s with free := n, edge := { s.edge with base := e }, meas := m, flt := g } := by
    split
    · have h : Only 66560 s (wmInitBed s k) := wmInitBed_only rfl only_refl
      have heq := only_eq h
      obtain ⟨⟨n, e, hsync⟩, -⟩ := syncBeds_base (wmInitBed s k) k
      generalize wmInitBed s k = v at heq hsync
      rw [hsync, heq]
      exact ⟨_, _, _, _, rfl⟩
    · exact ⟨_, _, _, _, rfl⟩
  obtain ⟨n, e, m, g, hbed⟩ := hbed
  unfold blockServes
  rw [hbed]
  dsimp only
  generalize hu : ({ s with free := n, edge := { s.edge with base := e }, meas := m, flt := g } : State) = u
  have hfetch : ∃ f i r, (if k = 0x14 then startFetch u else u) = { u with pat := { u.pat with fetch := f, turn := i, fetchReady := r } } := by
    split
    · exact startFetch_parts u
    · exact ⟨_, _, _, rfl⟩
  obtain ⟨f, i, r, hfetch⟩ := hfetch
  rw [hfetch]
  split
  · obtain ⟨x, y, hflash⟩ := flashServes_parts { ({ u with pat := { u.pat with fetch := f, turn := i, fetchReady := r } } : State) with ser := { u.ser with sp0Busy := false } }
    rw [hflash, ← hu]
    exact ⟨_, _, _, _, _, _, _, _, rfl⟩
  · rw [← hu]
    exact ⟨_, _, _, _, _, _, _, _, rfl⟩

theorem blockServes_base {s : State} {k : Nat} (hk : k < 16) (harmed : s.flt.armed = false) : (blockServes s k).base k = 0 := by
  have hcalm : Calm s (wmInitBed s k) := wmInitBed_calm calm_refl
  unfold blockServes
  dsimp only
  rw [if_pos hk, if_neg (by omega), if_neg (by omega)]
  exact (syncBeds_base _ _).2 ((armed_of_calm hcalm).trans harmed)

theorem blockResetEnd_serves {k : Block} {s : State} (h : s.blkReset k.val = true) :
    ∃ t, exec (.blockResetEnd k) s = .next t ∧ t.blkReset k.val = false ∧ (∀ j, j ≠ k.val → t.blkReset j = s.blkReset j) ∧
      (∀ c, s.fw.current = some c → c.wait = .blockReset k → t.fw.current = none) ∧
      (k.val < 16 → s.flt.armed = false → t.base k.val = 0) ∧
      t = { s with free := t.free, clk := t.clk, mb := t.mb, fw := t.fw, edge := { s.edge with base := t.edge.base },
                   pat := { s.pat with fetch := t.pat.fetch, turn := t.pat.turn, fetchReady := t.pat.fetchReady },
                   meas := t.meas, link := t.link, ser := t.ser, flt := t.flt } := by
  have hblk : ∀ j, (s.modBlkReset k.val (fun _ => false)).blkReset j = if j = k.val then false else s.blkReset j := fun j => State.modBlkReset_blkReset ..
  obtain ⟨n, e, f, i, r, m, x, g, hparts⟩ := blockServes_parts (s.modBlkReset k.val (fun _ => false)) k.val
  have hbase := fun hk harmed => blockServes_base (s := s.modBlkReset k.val (fun _ => false)) (k := k.val) hk harmed
  have hexec : exec (.blockResetEnd k) s = .next (if waitsFor (blockServes (s.modBlkReset k.val (fun _ => false)) k.val) (.blockReset k)
      then postOk (blockServes (s.modBlkReset k.val (fun _ => false)) k.val) else blockServes (s.modBlkReset k.val (fun _ => false)) k.val) :=
    congrArg Host.Outcome.next (if_pos h)
  generalize hu : blockServes (s.modBlkReset k.val (fun _ => false)) k.val = u at *
  have hwaits : waitsFor u (.blockReset k) = waitsFor s (.blockReset k) := by
    unfold waitsFor
    rw [hparts]
    rfl
  have hpost : ∀ j, u.blkReset j = if j = k.val then false else s.blkReset j := fun j => by
    rw [← hblk, hparts]
    rfl
  rw [hwaits] at hexec
  cases hwait : waitsFor s (.blockReset k) with
  | false =>
    rw [hwait] at hexec
    refine ⟨u, hexec, (hpost _).trans (if_pos rfl), fun j hj => (hpost j).trans (if_neg hj), fun c hc hblock => ?_, fun hk harmed => hbase hk harmed, by rw [hparts]; rfl⟩
    unfold waitsFor at hwait
    rw [hc, Option.any_some, hblock, decide_eq_true rfl] at hwait
    cases hwait
  | true =>
    rw [hwait] at hexec
    obtain ⟨c, hc, -⟩ := (Option.any_eq_true _ _).1 hwait
    have hans : Answered c 0 0 [] u (postOk u) := postResponse_answered u c 0 0 [] (by rw [hparts]; exact hc)
    have hpostEq := hans.1
    generalize postOk u = t at hexec hpostEq
    refine ⟨t, hexec, ?_, fun j hj => ?_, fun _ _ _ => by rw [hpostEq], fun hk harmed => ?_, ?_⟩
    · rw [hpostEq]
      exact (hpost _).trans (if_pos rfl)
    · rw [hpostEq]
      exact (hpost j).trans (if_neg hj)
    · rw [hpostEq]
      exact hbase hk harmed
    · rw [hpostEq, hparts]
      rfl

/-- Settles O7: what each reset keeps of the state and what its engines leave alone. -/
theorem powerAndResetEvents : Obligations.PowerAndResetEvents := by
  unfold Obligations.PowerAndResetEvents
  refine ⟨fun wsel s => powerOnReset_boots, fun s => ⟨_, rfl, rfl, rfl, rfl, rfl, rfl, rfl, rfl, rfl, rfl, rfl, rfl, rfl, rfl, rfl, rfl, rfl⟩,
    fun lowNs s hlow => congrArg Host.Outcome.next (if_pos hlow), fun lowNs s => pinReset_absorbed lowNs, fun lowNs s => pinReset_starts, fun s => resetEnd_boots,
    fun k s => blockResetEnd_serves, fun k s h => congrArg Host.Outcome.next (if_neg (by rw [h]; decide))⟩

end Sys2Proof.Machine
end

section
/-! PROOFS. The obligation about the boot's second half and the reference (R28 to R34, R101 to R103, R108, R434). -/

set_option Elab.async false

namespace Sys2Proof.Machine

/-! The images of the boot flash (R104, R106, R108): what judges them reads the flash and the rollback counter alone. -/

section
variable {s v : State}

theorem flashNum_congr (h : v.ser.flash = s.ser.flash) (a n : Nat) : flashNum v a n = flashNum s a n := by
  unfold flashNum flashBytes State.flashByte
  rw [h]

theorem flashBytes_congr (h : v.ser.flash = s.ser.flash) (a n : Nat) : flashBytes v a n = flashBytes s a n := by
  unfold flashBytes State.flashByte
  rw [h]

theorem headerOk_congr (h : v.ser.flash = s.ser.flash) (b : Bool) : headerOk v b = headerOk s b := by
  unfold headerOk
  dsimp only
  rw [flashNum_congr h, flashNum_congr h, flashNum_congr h, flashNum_congr h, flashBytes_congr h]

theorem slotTrial_congr (h : v.ser.flash = s.ser.flash) (b : Bool) : slotTrial v b = slotTrial s b := by
  unfold slotTrial slotState
  rw [flashNum_congr h]

theorem rollbackOk_congr (h : v.ser.flash = s.ser.flash) (hfw : v.fw.rollback = s.fw.rollback) (b : Bool) : rollbackOk v b = rollbackOk s b := by
  unfold rollbackOk secVersion
  rw [flashNum_congr h, hfw]

theorem authentic_congr (h : v.ser.flash = s.ser.flash) (hfw : v.fw.rollback = s.fw.rollback) (b : Bool) : authentic v b = authentic s b := by
  have hdigest : digestOk v b = digestOk s b := by
    unfold digestOk bodyLen
    rw [flashBytes_congr h, flashBytes_congr h, flashNum_congr h]
  unfold authentic keyHashOk signatureOk
  dsimp only
  rw [headerOk_congr h, rollbackOk_congr h hfw, hdigest, flashBytes_congr h, flashBytes_congr h, flashBytes_congr h]

theorem imageCands_congr (h : v.ser.flash = s.ser.flash) (hfw : v.fw.rollback = s.fw.rollback) : imageCands v = imageCands s := by
  have hok : (fun b => headerOk v b && (slotTrial v b || slotConfirmed v b) && rollbackOk v b) = fun b => headerOk s b && (slotTrial s b || slotConfirmed s b) && rollbackOk s b := by
    funext b
    unfold slotConfirmed slotState
    rw [headerOk_congr h, slotTrial_congr h, rollbackOk_congr h hfw, flashNum_congr h]
  unfold imageCands slotGeneration
  rw [hok, flashNum_congr h, flashNum_congr h]

end

/-! The choice of an image (R103, R108). -/

section
variable (s : State)

/-- `t` is `s` in recovery: MB0 is IDLE. -/
def Recovers (s t : State) : Prop :=
  ∃ m f, t = { s with clk := { s.clk with phase := .recovery, restarting := false, activating := false }, mb := m, flt := f } ∧ (t.mbx 0).state = .idle

theorem enterRecovery_recovers : Recovers s (enterRecovery s) := by
  unfold enterRecovery
  dsimp only
  generalize hv : ({ s with clk := { s.clk with phase := .recovery, restarting := false, activating := false } } : State) = v
  obtain ⟨b, w, hcond⟩ := condition_parts (v.modMbx 0 (fun m => { m with state := .idle })) 0x12 1 0 0 true
  rw [hcond]
  refine ⟨_, _, by rw [← hv]; rfl, ?_⟩
  have hbox : ((v.modMbx 0 (fun m => { m with state := .idle })).mbx 0).state = .idle := congrArg Mailbox.state ((State.modMbx_mbx ..).trans (if_pos rfl))
  exact hbox

theorem bootSelect_parts (l : List Bool) : ∃ x, (bootSelect l s).1 = { s with ser := x } := by
  have h : OnlyFst 8192 s (bootSelect l s) := bootSelect_only rfl only_refl
  exact ⟨_, only_eq (only_of_fst h)⟩

theorem selectBoot_cases : (∃ b x, selectBoot s = ({ s with clk := { s.clk with imageSlot := b }, ser := x }, true)) ∨
    (∃ x, selectBoot s = (enterRecovery { s with ser := x }, false)) := by
  obtain ⟨x, hx⟩ := bootSelect_parts s (imageCands s)
  unfold selectBoot
  dsimp only
  rw [hx]
  split
  next b hb => exact .inl ⟨b, x, rfl⟩
  next hb => exact .inr ⟨x, rfl⟩

theorem selectBoot_none (h : imageCands s = []) : selectBoot s = (enterRecovery s, false) := by
  unfold selectBoot
  rw [h]
  rfl

theorem selectBoot_one {b : Bool} (h : imageCands s = [b]) (htrial : slotTrial s b = false) :
    selectBoot s = if authentic s b then ({ s with clk := { s.clk with imageSlot := b } }, true) else (enterRecovery s, false) := by
  have hselect : bootSelect [b] s = if authentic s b then (s, some b) else (s, none) := by
    unfold bootSelect
    rw [htrial]
    rfl
  unfold selectBoot
  rw [h, hselect]
  cases authentic s b <;> rfl

end

/-! PLL_LOCK (R32, R33, R401, R434). -/

/-- Boot step 4 has been passed: the PLL has locked, DRAM has been found, the root-side port trains, the beds are in step. -/
def pllLocked (s : State) (mib : Nat) : State :=
  let time := if s.clk.pllLocked || s.clk.holdover then s.now else 0
  let s := { s with
    clk := { s.clk with time := time, wdogServed := time, refPresent := true, pllLocked := true, holdover := false }
    bus := { s.bus with dramMib := foundDram mib } }
  syncBeds (writeBootLog (trainPort ((s.live 0x10 0 false).live 0x10 1 false) 0)) (List.range 16)

/-- The rest of the boot: the flash is read in the format chosen, and an image is selected. -/
def imageChosen (s : State) : Option (FlashFmt × Nat × Nat) → State
  | none => enterRecovery s
  | some (f, sck, delay) =>
    let r := selectBoot { s with ser := { s.ser with format := f, sck := sck, sampleDelay := delay } }
    if r.2 then { r.1 with clk := { r.1.clk with phase := .started } } else r.1

/-- What boot step 4 changes. -/
def StepFour (s : State) (mib : Nat) (v : State) : Prop :=
  ∃ n e f p, v = { s with
    free := n
    clk := { s.clk with time := if s.clk.pllLocked || s.clk.holdover then s.clk.time else 0, wdogServed := if s.clk.pllLocked || s.clk.holdover then s.clk.time else 0,
                        refPresent := true, pllLocked := true, holdover := false }
    bus := { s.bus with dramMib := foundDram mib }
    fw := { s.fw with bootLog := v.fw.bootLog }
    edge := { s.edge with base := e }
    link := { s.link with port := p }
    flt := f } ∧ ((s.port 0).step = .off → (v.port 0).step = .detect) ∧ v.port 1 = s.port 1

theorem syncBeds_parts' (s : State) (l : List Nat) : ∃ n e, syncBeds s l = { s with free := n, edge := { s.edge with base := e } } := by
  obtain ⟨n, hpulse⟩ := jitteredPulse_parts s
  have hfold : ∀ (r : Int) (v : State), ∃ e, l.foldl (fun (s : State) b => s.modBase b (fun _ => -r)) v = { v with edge := { v.edge with base := e } } := fun r v =>
    ⟨_, congrArg (fun u : State => { u with edge := { u.edge with base := (l.foldl (fun (s : State) b => s.modBase b (fun _ => -r)) v).edge.base } })
      (foldl_same (F := fun u : State => { u with edge := { u.edge with base := [] } }) (step := fun (s : State) b => s.modBase b (fun _ => -r)) (fun _ _ => rfl) l v)⟩
  unfold syncBeds
  dsimp only
  obtain ⟨e, he⟩ := hfold (jitteredPulse s).2 (jitteredPulse s).1
  rw [he, hpulse]
  exact ⟨_, _, rfl⟩

theorem pllLocked_stepFour (s : State) (mib : Nat) : StepFour s mib (pllLocked s mib) := by
  have hport : ∀ (v : State) (k : Nat), (trainPort v 0).port k = if k = 0 then (if (v.port 0).step = .off then { v.port 0 with step := .detect } else v.port 0) else v.port k :=
    fun v k => State.modPort_port ..
  unfold pllLocked
  dsimp only
  generalize hu : (State.live _ 0x10 1 false) = u
  have hports : ∀ k, u.port k = s.port k := fun k => by rw [← hu]; rfl
  obtain ⟨n, e, hsync⟩ := syncBeds_parts' (writeBootLog (trainPort u 0)) (List.range 16)
  rw [hsync]
  have h0 := hport u 0
  have h1 := hport u 1
  rw [if_pos rfl, hports] at h0
  rw [if_neg (by decide), hports] at h1
  refine ⟨n, e, (trainPort u 0).flt, (trainPort u 0).link.port, ?_, fun hoff => ?_, h1⟩
  · rw [← hu]
    rfl
  · rw [if_pos hoff] at h0
    exact congrArg LinkPort.step h0

theorem imageChosen_cases (v : State) (o : Option (FlashFmt × Nat × Nat)) :
    (∃ b x, imageChosen v o = { v with clk := { v.clk with imageSlot := b, phase := .started }, ser := x }) ∨ ∃ x, Recovers { v with ser := x } (imageChosen v o) := by
  cases o with
  | none => exact .inr ⟨v.ser, enterRecovery_recovers v⟩
  | some o =>
    unfold imageChosen
    dsimp only
    rcases selectBoot_cases { v with ser := { v.ser with format := o.1, sck := o.2.1, sampleDelay := o.2.2 } } with ⟨b, x, h⟩ | ⟨x, h⟩
    · rw [h]
      exact .inl ⟨b, x, rfl⟩
    · rw [h]
      exact .inr ⟨x, enterRecovery_recovers _⟩

theorem imageChosen_none {v : State} {o : Option (FlashFmt × Nat × Nat)} (h : o = none ∨ imageCands v = []) :
    ∃ x, Recovers { v with ser := x } (imageChosen v o) := by
  rcases o with - | ⟨f, sck, delay⟩
  · exact ⟨v.ser, enterRecovery_recovers v⟩
  · have hcands : imageCands { v with ser := { v.ser with format := f, sck := sck, sampleDelay := delay } } = [] :=
      (imageCands_congr (s := v) rfl rfl).trans (h.resolve_left (fun h => nomatch h))
    unfold imageChosen
    dsimp only
    rw [selectBoot_none _ hcands]
    exact ⟨_, enterRecovery_recovers _⟩

theorem imageChosen_one {v : State} {o : Option (FlashFmt × Nat × Nat)} {b : Bool} (hcands : imageCands v = [b]) (htrial : slotTrial v b = false) (ho : o ≠ none) :
    (authentic v b = true → ∃ x, imageChosen v o = { v with clk := { v.clk with imageSlot := b, phase := .started }, ser := x }) ∧
      (authentic v b = false → ∃ x, Recovers { v with ser := x } (imageChosen v o)) := by
  rcases o with - | ⟨f, sck, delay⟩
  · exact absurd rfl ho
  · have hselect := selectBoot_one { v with ser := { v.ser with format := f, sck := sck, sampleDelay := delay } } (b := b)
      ((imageCands_congr (s := v) rfl rfl).trans hcands) ((slotTrial_congr (s := v) rfl b).trans htrial)
    rw [authentic_congr (s := v) (v := { v with ser := { v.ser with format := f, sck := sck, sampleDelay := delay } }) rfl rfl b] at hselect
    unfold imageChosen
    dsimp only
    rw [hselect]
    refine ⟨fun h => ?_, fun h => ?_⟩
    · rw [h]
      exact ⟨_, rfl⟩
    · rw [h]
      exact ⟨_, enterRecovery_recovers _⟩

theorem exec_pllLock {env : BootEnv} {s : State} (hphase : s.clk.phase = .seeded) (hreset : s.clk.resetting = none) (href : s.clk.refPresent = true ∨ env.refclk = true) :
    exec (.pllLock env) s = .next (imageChosen (pllLocked s env.dramMib) (chooseFormat s.clk.wsel env)) := by
  have hpresent : (s.clk.refPresent || env.refclk) = true := by simpa using href
  refine congrArg Host.Outcome.next ((if_neg (by rw [hphase, hreset]; decide)).trans ((if_neg (by rw [hpresent]; decide)).trans ?_))
  obtain ⟨n, e, f, p, hv, -⟩ := pllLocked_stepFour s env.dramMib
  rw [show s.clk.wsel = (pllLocked s env.dramMib).clk.wsel by rw [hv]]
  unfold pllLocked
  dsimp only
  generalize syncBeds _ (List.range 16) = v
  rcases chooseFormat v.clk.wsel env with - | ⟨f, sck, delay⟩
  · rfl
  · unfold imageChosen
    dsimp only

theorem pllLock_boots {env : BootEnv} {s : State} (hphase : s.clk.phase = .seeded) (hreset : s.clk.resetting = none) (href : s.clk.refPresent = true ∨ env.refclk = true) :
    ∃ t, exec (.pllLock env) s = .next t ∧ (t.clk.phase = .started ∨ t.clk.phase = .recovery) ∧
      t.clk.refPresent = true ∧ t.clk.pllLocked = true ∧ t.clk.holdover = false ∧ t.bus.dramMib = (if 4096 ≤ env.dramMib ∧ env.dramMib ≤ 32768 then env.dramMib else 0) ∧
      ((s.port 0).step = .off → (t.port 0).step = .detect) ∧ t.port 1 = s.port 1 ∧
      t.clk.time = (if s.clk.pllLocked = true ∨ s.clk.holdover = true then s.clk.time else 0) ∧
      (chooseFormat s.clk.wsel env = none ∨ imageCands s = [] → t.clk.phase = .recovery ∧ (t.mbx 0).state = .idle) ∧
      (∀ b, imageCands s = [b] → slotTrial s b = false → chooseFormat s.clk.wsel env ≠ none →
        (t.clk.phase = .started ↔ authentic s b = true) ∧ (authentic s b = true → t.clk.imageSlot = b)) ∧
      t = { s with free := t.free, clk := t.clk, bus := { s.bus with dramMib := t.bus.dramMib }, mb := t.mb,
                   fw := { s.fw with bootLog := t.fw.bootLog }, edge := { s.edge with base := t.edge.base },
                   link := { s.link with port := t.link.port }, ser := t.ser, flt := t.flt } := by
  refine ⟨_, exec_pllLock hphase hreset href, ?_⟩
  obtain ⟨n, e, f, p, hv, hport0, hport1⟩ := pllLocked_stepFour s env.dramMib
  have hnone := imageChosen_none (v := pllLocked s env.dramMib) (o := chooseFormat s.clk.wsel env)
  have hone := fun b => imageChosen_one (v := pllLocked s env.dramMib) (o := chooseFormat s.clk.wsel env) (b := b)
  have hcases := imageChosen_cases (pllLocked s env.dramMib) (chooseFormat s.clk.wsel env)
  generalize pllLocked s env.dramMib = v at *
  generalize chooseFormat s.clk.wsel env = o at *
  have hflash : v.ser.flash = s.ser.flash := by rw [hv]
  have hroll : v.fw.rollback = s.fw.rollback := by rw [hv]
  have htime : v.clk.time = if s.clk.pllLocked = true ∨ s.clk.holdover = true then s.clk.time else 0 := by
    rw [hv]
    dsimp only
    simp only [Bool.or_eq_true]
  rw [imageCands_congr hflash hroll] at hnone
  refine ⟨?_, ?_, ?_, ?_, ?_, ?_, ?_, ?_, fun hno => ?_, fun b hcands htrial ho => ?_, ?_⟩
  case refine_9 =>
    obtain ⟨x, m, g, ht, hbox⟩ := hnone hno
    exact ⟨by rw [ht], hbox⟩
  case refine_10 =>
    obtain ⟨hyes, hno⟩ := hone b ((imageCands_congr hflash hroll).trans hcands) ((slotTrial_congr hflash b).trans htrial) ho
    rw [authentic_congr hflash hroll] at hyes hno
    cases hauth : authentic s b with
    | true =>
      obtain ⟨x, ht⟩ := hyes hauth
      rw [ht]
      exact ⟨⟨fun _ => rfl, fun _ => rfl⟩, fun _ => rfl⟩
    | false =>
      obtain ⟨x, m, g, ht, -⟩ := hno hauth
      rw [ht]
      exact ⟨⟨nofun, nofun⟩, nofun⟩
  all_goals rcases hcases with ⟨b, x, ht⟩ | ⟨x, m, g, ht, -⟩
  all_goals rw [ht]
  · exact .inl rfl
  · exact .inr rfl
  · rw [hv]
  · rw [hv]
  · rw [hv]
  · rw [hv]
  · rw [hv]
  · rw [hv]
  · rw [hv]; rfl
  · rw [hv]; rfl
  · exact hport0
  · exact hport0
  · exact hport1
  · exact hport1
  · exact htime
  · exact htime
  · rw [hv]
  · rw [hv]

/-! FIRMWARE_READY (R32, R40, R101, R102). -/

/-- The firmware is ready: its identity is readable, and the watchdog runs with its period. -/
def readied (s : State) : State :=
  { s with
    clk := { s.clk with phase := .ready, restarting := false, activating := false, wdogRunning := s.clk.wdogPeriod, wdogServed := s.now }
    bus := { s.bus with fwRelease := w16 (flashNum s (imageBase s + 8) 2), cmdsetMax := w16 (flashNum s (imageBase s + 10) 2) } }

/-- Every mailbox is IDLE. -/
def boxesIdle (l : List Nat) (s : State) : State := l.foldl (fun s n => s.modMbx n (fun m => { m with state := .idle })) s

theorem boxesIdle_spec {l : List Nat} (hl : l.Nodup) (s : State) : (∃ m, boxesIdle l s = { s with mb := m }) ∧ ∀ n ∈ l, (boxesIdle l s).mbx n = { s.mbx n with state := .idle } := by
  have hbox := foldl_keyed (get := State.mbx) (step := fun (s : State) n => s.modMbx n (fun m => { m with state := .idle })) (f := fun _ m => { m with state := .idle })
    (fun _ _ _ => State.modMbx_mbx ..) hl s
  have hparts := congrArg (fun v : State => { v with mb := (boxesIdle l s).mb })
    (foldl_same (F := fun v : State => { v with mb := [] }) (step := fun (s : State) n => s.modMbx n (fun m => { m with state := .idle })) (fun _ _ => rfl) l s)
  exact ⟨⟨_, hparts⟩, fun n hn => (hbox n).trans (if_pos hn)⟩

theorem firmwareReady_reports {s : State} (hreset : s.clk.resetting = none) (hphase : s.clk.phase = .started) (hrestart : s.clk.restarting = false) :
    ∃ t, exec .firmwareReady s = .next t ∧ t.clk = { s.clk with phase := .ready, restarting := false, activating := false, wdogRunning := s.clk.wdogPeriod, wdogServed := s.clk.time } ∧
      (∀ n, n < 8 → t.mbx n = { s.mbx n with state := .idle }) ∧
      t.bus = { s.bus with fwRelease := t.bus.fwRelease, cmdsetMax := t.bus.cmdsetMax } ∧
      t.bus.fwRelease = w16 (flashNum s (imageBase s + 8) 2) ∧ t.bus.cmdsetMax = w16 (flashNum s (imageBase s + 10) 2) ∧
      t = { s with clk := t.clk, bus := t.bus, mb := t.mb, fw := t.fw, harv := t.harv, flt := t.flt } := by
  have hexec : exec .firmwareReady s = .next (faultedWork (boxesIdle (List.range 8) (readied s))) :=
    congrArg Host.Outcome.next ((if_neg (by rw [hreset]; decide)).trans ((if_neg (by rw [hrestart]; decide)).trans (if_pos hphase)))
  obtain ⟨⟨m, hm⟩, hbox⟩ := boxesIdle_spec List.nodup_range (readied s) (l := List.range 8)
  have honly : Only 67616 (boxesIdle (List.range 8) (readied s)) (faultedWork (boxesIdle (List.range 8) (readied s))) := faultedWork_only rfl only_refl
  have heq := only_eq honly
  refine ⟨_, hexec, ?_⟩
  generalize boxesIdle (List.range 8) (readied s) = v at *
  generalize faultedWork v = t at *
  have hmb : ∀ n, t.mbx n = v.mbx n := fun n => by rw [heq]; rfl
  refine ⟨?_, fun n hn => (hmb n).trans (hbox n (List.mem_range.2 hn)), ?_, ?_, ?_, ?_⟩
  · rw [heq, hm]
    rfl
  · rw [heq, hm]
    rfl
  · rw [heq, hm]
    rfl
  · rw [heq, hm]
    rfl
  · rw [heq, hm]
    rfl

/-! The reference (R28 to R31). -/

section
variable (s : State)

theorem placeHeld_pat (st r u tag typ flags time : Nat) (body : List Byte) : (placeHeld s st r u u tag typ flags time body).1.pat = s.pat := by
  unfold placeHeld
  split
  · rfl
  split
  · exact only_pat (State.raise_only (w := 65536) rfl only_refl)
  next t ht =>
    dsimp only
    rw [if_neg (Nat.lt_irrefl u), only_pat (placeIn_only (w := 2048) rfl only_refl)]
    have hroom : t.pat = s.pat := only_pat (stageRoom_only (w := 2048) rfl only_refl t ht)
    exact hroom

theorem modSeq_dram (q : Nat) (f : SeqState → SeqState) : (s.modSeq q f).pat.dram = s.pat.dram := rfl

theorem settleBurst_dram (q : Nat) : (settleBurst s q).pat.dram = s.pat.dram := by
  have hend : ∀ (v : State) (e : PendingEnd), (endWork v e).pat = v.pat := fun v e => only_pat (endWork_only (w := 67616) rfl only_refl)
  have hdrop : ∀ (v : State) (r n : Nat) (w : Waiter), (dropRecord (leaveWaiters v r w) r n).pat = v.pat := fun v r n w =>
    only_pat (dropRecord_only (w := 2048) rfl (leaveWaiters_only rfl only_refl))
  unfold settleBurst
  dsimp only
  split
  · rfl
  · generalize hfirst : (if (s.seq q).endPhase = 0 then _ else s) = v
    have hv : v.pat.dram = s.pat.dram := by
      rw [← hfirst]
      split
      · split
        · split
          · rw [modSeq_dram, placeHeld_pat]
          · rw [placeHeld_pat]
        · split
          · rw [modSeq_dram, hdrop]
          · rfl
      · rfl
    generalize hsecond : (if (v.seq q).endPhase = 1 then _ else v) = w
    have hw : w.pat.dram = s.pat.dram := by
      rw [← hsecond]
      split
      · rw [modSeq_dram, hend]
        exact hv
      · exact hv
    split
    · rw [modSeq_dram, hw]
    · exact hw

theorem endBurst_dram (q cause : Nat) : (endBurst s q cause).pat.dram = s.pat.dram := by
  have hpins : ∀ (l : List Nat) (c : Nat) (v : State), (l.foldl (fun s p => settlePin s p c) v).pat = v.pat := fun l c v =>
    foldl_same (F := State.pat) (step := fun s p => settlePin s p c) (fun v p => only_pat (settlePin_only (w := 128) rfl only_refl)) l v
  have hstacks : ∀ v : State, (clearStacks v q).pat.dram = v.pat.dram := fun v => by
    have hframe : ∀ (v : State) (f : LoopFrame), (dropFrame v f).pat.dram = v.pat.dram := fun v f => by
      unfold dropFrame
      exact foldl_same (F := fun v : State => v.pat.dram) (step := fun (s : State) g => s.modSegm g (fun x => { x with loopPins := x.loopPins - 1 })) (fun _ _ => rfl) f.pins v
    unfold clearStacks
    rw [modSeq_dram]
    exact foldl_same (F := fun v : State => v.pat.dram) (step := dropFrame) hframe (v.seq q).loops v
  have hfirst : ∀ v : State, (leaveFirst v q).pat.dram = v.pat.dram := fun v => by
    unfold leaveFirst
    dsimp only
    split
    · rfl
    · split <;> rfl
  have hanswer : ∀ (v : State) (tag : Nat), (answerAbort v tag).pat = v.pat := fun v tag => only_pat (answerAbort_only (w := 69680) rfl only_refl)
  have htrig : ∀ (v : State) (e t : Nat), (trigEvent v q e t).pat.dram = v.pat.dram := fun v e t => by
    unfold trigEvent
    generalize List.range 8 = l
    refine foldl_same (F := fun v : State => v.pat.dram) (fun v n => ?_) l v
    split
    · rfl
    · rfl
  have hran : ∀ c, (if decide ((s.seq q).mode ≠ .armed) then (s.seq q).lanes.foldl (fun s p => settlePin s p c) s else s).pat = s.pat := fun c => by
    split
    · exact hpins ..
    · rfl
  have hlive : ∀ (v : State) (k src : Nat) (on : Bool), (v.live k src on).pat = v.pat := fun _ _ _ _ => rfl
  unfold endBurst
  dsimp only
  have hstart := hran (if decide ((s.seq q).mode ≠ .armed) then (s.seq q).next else 256 * s.now)
  generalize (if decide ((s.seq q).mode ≠ .armed) = true then (s.seq q).lanes.foldl _ s else s) = v at hstart ⊢
  split
  · rw [htrig, hanswer, hlive, modSeq_dram, hfirst, hstacks, hstart]
  · rw [hanswer, hlive, modSeq_dram, hfirst, hstacks, hstart]

theorem latchStop_dram (q cause : Nat) (atBoundary : Bool) : (latchStop s q cause atBoundary).pat.dram = s.pat.dram := by
  unfold latchStop
  dsimp only
  split
  · rfl
  · rfl
  · rw [settleBurst_dram, endBurst_dram]
  · split
    · split
      · rw [settleBurst_dram, endBurst_dram]
        rfl
      · rfl
    · split
      · rfl
      · split <;> rfl

end

theorem linkRest_of_calm {s t : State} (h : Calm s t) : linkRest t.link = linkRest s.link := congrArg (fun x => x.2.2.1) h

theorem syncValid_of_linkRest {a b : Trellis} (h : linkRest a = linkRest b) : a.syncValid = b.syncValid := by
  have hvalid := congrArg (fun x : Trellis => x.syncValid) h
  exact hvalid

theorem interruptCal_syncValid (s : State) (p : CalRun → Bool) (reason cause : Nat) : (interruptCal s p reason cause).link.syncValid = s.link.syncValid := by
  have hend : ∀ (v : State) (r : CalRun) (a b c d e : Nat), (endCal v r a b c d e).link.syncValid = v.link.syncValid := fun v r a b c d e => by
    unfold endCal
    dsimp only
    have hrelease : (releaseScopes v r).link = v.link := only_link (releaseScopes_only (w := 33410) rfl only_refl)
    rw [only_link (endWork_only (w := 67616) rfl only_refl), ← hrelease]
    exact syncValid_of_linkRest (linkRest_of_calm (answerAbort_calm calm_refl))
  unfold interruptCal
  split
  · split
    · rw [hend]
      rfl
    · rfl
  · rfl

/-- Every burst is asked to stop for the cause given. -/
def burstsStopped (l : List Nat) (cause : Nat) (s : State) : State := l.foldl (fun s q => latchStop s q cause false) s

theorem burstsStopped_spec (l : List Nat) (cause : Nat) (s : State) : Only 73648 s (burstsStopped l cause s) ∧ (burstsStopped l cause s).pat.dram = s.pat.dram ∧
    (burstsStopped l cause s).link.syncValid = s.link.syncValid := by
  refine ⟨only_foldl only_refl fun v q h => latchStop_only rfl h, foldl_same (F := fun v : State => v.pat.dram) (fun v q => latchStop_dram v q cause false) l s, ?_⟩
  exact syncValid_of_linkRest (linkRest_of_calm (calm_foldl calm_refl fun v q h => latchStop_calm h))

/-- REFCLK is lost: holdover begins, and SYNC is no longer valid. -/
def heldOver (s : State) : State :=
  { s with clk := { s.clk with refPresent := false, pllLocked := false, holdover := true, refLostSticky := true }, link := { s.link with syncValid := false } }

theorem refLost_holdsOver {edges : Nat} {s : State} (hlocked : s.clk.pllLocked = true) (hedges : edges < 88 ∨ 104 < edges) :
    ∃ t, exec (.refLost edges) s = .next t ∧
      t.clk = { s.clk with refPresent := false, pllLocked := false, holdover := true, refLostSticky := true } ∧
      t.link.syncValid = false ∧ t.bus = { s.bus with recent := t.bus.recent } ∧ t.pat.dram = s.pat.dram ∧ t.pins = s.pins ∧ t.ser = s.ser ∧ t.sup = s.sup ∧ t.pending = s.pending := by
  obtain ⟨b, w, hcond⟩ := condition_parts ((heldOver s).noteSet 0x1C08 8) 0x10 0 0 0 true
  generalize hu : ((heldOver s).noteSet 0x1C08 8).condition 0x10 0 true = u at hcond
  have hexec : exec (.refLost edges) s = .next (interruptCal (burstsStopped (List.range 64) 3 u) (fun r => decide (r.kind < 3)) 9 3) := by
    rw [← hu]
    exact congrArg Host.Outcome.next (if_pos ⟨hlocked, hedges⟩)
  obtain ⟨hbursts, hdram, hsync⟩ := burstsStopped_spec (List.range 64) 3 u
  generalize burstsStopped (List.range 64) 3 u = v at *
  have hcal : Only 105138 v (interruptCal v (fun r => decide (r.kind < 3)) 9 3) := interruptCal_only rfl only_refl
  have hclk := (only_clk hcal).trans (only_clk hbursts)
  have hbus := (only_bus hcal).trans (only_bus hbursts)
  have hpins := (only_pins hcal).trans (only_pins hbursts)
  have hser := (only_ser hcal).trans (only_ser hbursts)
  have hsup := (only_sup hcal).trans (only_sup hbursts)
  have hpending := (only_pending hcal).trans (only_pending hbursts)
  have hpat := (congrArg Pattern.dram (only_pat hcal)).trans hdram
  have hvalid := (interruptCal_syncValid v (fun r => decide (r.kind < 3)) 9 3).trans hsync
  rw [hcond] at hclk hbus hpins hser hsup hpending hpat hvalid
  exact ⟨_, hexec, hclk, hvalid, by rw [hbus]; rfl, hpat, hpins, hser, hsup, hpending⟩

theorem refclkReturn_present {counts : List Nat} {s : State} (hlocked : s.clk.pllLocked = false) (hlen : 64 ≤ counts.length)
    (hedges : ∀ n ∈ counts.drop (counts.length - 64), 2900 ≤ n ∧ n ≤ 3200) :
    ∃ t, exec (.refclkReturn counts) s = .next t ∧ (t.fblk 0x10).live.getLsbD 0 = false ∧ (t.fblk 0x10).live.getLsbD 1 = false ∧
      t = { s with clk := { s.clk with refPresent := true }, flt := { s.flt with block := t.flt.block } } ∧
      (∀ k, k ≠ 0x10 → t.fblk k = s.fblk k) := by
  have hblk : ∀ (v : State) (src : Nat) (on : Bool) (k : Nat), (v.live 0x10 src on).fblk k = if k = 0x10 then { v.fblk 0x10 with live := if on then (v.fblk 0x10).live ||| BitVec.ofNat 64 (2 ^ src)
      else (v.fblk 0x10).live &&& ~~~(BitVec.ofNat 64 (2 ^ src)) } else v.fblk k := fun v src on k => State.modFblk_fblk ..
  have hlast : (counts.drop (counts.length - 64)).length = 64 := by
    rw [List.length_drop]
    omega
  have hall : (counts.drop (counts.length - 64)).all (fun n => decide (2900 ≤ n) && decide (n ≤ 3200)) = true := List.all_eq_true.2 fun n hn => by
    obtain ⟨hlo, hhi⟩ := hedges n hn
    rw [decide_eq_true hlo, decide_eq_true hhi]
    rfl
  generalize hv : ({ s with clk := { s.clk with refPresent := true } } : State) = v
  have hexec : exec (.refclkReturn counts) s = .next ((v.live 0x10 0 false).live 0x10 1 false) := by
    rw [← hv]
    exact congrArg Host.Outcome.next (if_pos ⟨by rw [hlocked]; rfl, hlast, hall⟩)
  refine ⟨_, hexec, ?_, ?_, by rw [← hv]; rfl, fun k hk => ?_⟩
  · rw [hblk, if_pos rfl, hblk, if_pos rfl]
    simp
  · rw [hblk, if_pos rfl]
    simp
  · rw [hblk, if_neg hk, hblk, if_neg hk, ← hv]
    rfl

/-- Settles O8: the boot's branches, what a burst's stop leaves alone, and the congruence of the image checks. -/
theorem bootAndReferenceEvents : Obligations.BootAndReferenceEvents := by
  unfold Obligations.BootAndReferenceEvents
  refine ⟨fun env s hphase hreset href henv => ?_, fun env s => pllLock_boots, fun s => firmwareReady_reports,
    fun edges s hlo hhi => congrArg Host.Outcome.next (if_neg fun h => by omega), fun edges s => refLost_holdsOver, fun counts s => refclkReturn_present,
    fun counts s h => ?_, fun s hhold href => congrArg Host.Outcome.next (if_pos (by rw [hhold, href]; rfl))⟩
  · have hexec : exec (.pllLock env) s = .next (s.condition 0x10 1 true) :=
      congrArg Host.Outcome.next ((if_neg (by rw [hphase, hreset]; decide)).trans (if_pos (by rw [href, henv]; rfl)))
    obtain ⟨b, w, hparts⟩ := condition_parts s 0x10 1 0 0 true
    refine ⟨_, hexec, ?_, by rw [hparts], fun hoff => ?_⟩
    · unfold State.condition
      rw [if_pos rfl]
      split
      next hon => exact hon
      next => exact raise_live s 0 0 (by decide) (by decide)
    · unfold State.condition
      rw [if_pos rfl, hoff, if_neg (by decide), raise_waiting, List.length_append]
      rfl
  · refine congrArg Host.Outcome.next (if_neg fun ⟨hunlocked, hlen, _⟩ => ?_)
    rw [List.length_drop] at hlen
    rcases h with h | h
    · omega
    · rw [h] at hunlocked
      cases hunlocked

end Sys2Proof.Machine
end

section
/-! PROOFS of O45: an URGENT message and its chain cloche, the marks, and the local sync with the step of chip time. -/

set_option Elab.async false
set_option linter.unusedVariables false

namespace Sys2Proof.Machine

variable (s : State)

/-! The chain cloche of an URGENT message (R417, R521). -/

theorem mem_latchCause {l : List Cause} {c : Cause} : c ∈ latchCause l c ∧ ∀ x ∈ l, x ∈ latchCause l c := by
  unfold latchCause
  split
  next h => exact ⟨by simpa using h, fun x hx => hx⟩
  next => exact ⟨List.mem_append_right _ (List.mem_singleton.2 rfl), fun x hx => List.mem_append_left _ hx⟩

theorem chain_of_calm {v t : State} (h : Calm v t) : t.flt.chain = v.flt.chain := by
  have hflt : fltRest t.flt = fltRest v.flt := congrArg (fun x => x.2.1) h
  have hchain := congrArg (fun x : Faults => x.chain) hflt
  exact hchain

theorem startBed_chain (b : Nat) (o : Origin) (run : Nat) : (startBed s b o run).flt.chain = s.flt.chain := by
  unfold startBed
  dsimp only
  split
  · rfl
  next =>
    generalize hu : ((s.modBedc b _).modBedc b _) = u
    have hcalm : Calm u (clocheBedLoops ((List.range 64).foldl (fun s q => if (seqBeds s q).contains b then latchStop s q run false else s)
        (clocheDrivers (moveDacs u b) b)) b run) := by
      refine clocheBedLoops_calm (calm_foldl (clocheDrivers_calm (moveDacs_calm calm_refl)) fun v q h => ?_)
      split
      · exact latchStop_calm h
      · exact h
    rw [chain_of_calm hcalm, ← hu]
    rfl

/-- Beds that start their cloche one after another, with the scopes of the chip and the chain left alone. -/
theorem startBeds_spec (o : Origin) (run : Nat) (l : List Nat) (v : State) :
    (∀ b, b ∈ l ∨ (v.bedc b).active = true → ((l.foldl (fun s b => startBed s b o run) v).bedc b).active = true) ∧
      (l.foldl (fun s b => startBed s b o run) v).flt.chip = v.flt.chip ∧ (l.foldl (fun s b => startBed s b o run) v).flt.chain = v.flt.chain := by
  induction l generalizing v with
  | nil => exact ⟨fun b h => h.elim (fun h => nomatch h) id, rfl, rfl⟩
  | cons a l ih =>
    obtain ⟨hself, hkeep, hchip⟩ := startBed_bed v a o run
    obtain ⟨hin, hchip', hchain'⟩ := ih (startBed v a o run)
    refine ⟨fun b hb => ?_, hchip'.trans hchip, hchain'.trans (startBed_chain v a o run)⟩
    rcases hb with hb | hb
    · rcases List.mem_cons.1 hb with rfl | hb
      · exact hin b (.inr hself)
      · exact hin b (.inl hb)
    · exact hin b (.inr (hkeep b hb))

theorem clocheChain_latched (c : Cause) (o : Origin) : (∀ b, b < 16 → ((clocheChain s c o).bedc b).active = true) ∧
    (clocheChain s c o).flt.chip = latchCause s.flt.chip c ∧ (clocheChain s c o).flt.chain = latchCause s.flt.chain c := by
  obtain ⟨hin, hchip, hchain⟩ := startBeds_spec { o with scope := 3 } 2 (List.range 16)
    { s with flt := { s.flt with chip := latchCause s.flt.chip c, chain := latchCause s.flt.chain c } }
  refine ⟨fun b hb => hin b (.inl (List.mem_range.2 hb)), ?_, ?_⟩
  · unfold clocheChain
    dsimp only
    rw [hchip]
  · unfold clocheChain
    dsimp only
    rw [hchain]

theorem ofBytes_pair (n : Nat) : ofBytes (toBytes 2 n) = n % 65536 := by
  change (n % 256 + 256 * ((n >>> 8) % 256 + 256 * 0)) = n % 65536
  rw [Nat.shiftRight_eq_div_pow]
  omega

theorem ofBytes_one (b : Byte) : ofBytes [b] = b.toNat := Nat.add_zero _

theorem urgentBytes_fields (u : UrgentMsg) : msgNum (urgentBytes u) 10 1 = u.block.toNat ∧ msgNum (urgentBytes u) 11 1 = u.source.toNat ∧
    msgNum (urgentBytes u) 9 1 % 128 = u.origin.toNat ∧ w16 (ofBytes (((urgentBytes u).drop 12).take 2)) = u.urgId := by
  have horigin := u.origin.isLt
  refine ⟨ofBytes_one _, ofBytes_one _, ?_, ?_⟩
  · have h : msgNum (urgentBytes u) 9 1 = u.origin.toNat % 256 := ofBytes_one (b8 u.origin.toNat)
    omega
  · have h : ofBytes (((urgentBytes u).drop 12).take 2) = u.urgId.toNat % 65536 := ofBytes_pair _
    have hid := u.urgId.isLt
    rw [h, Nat.mod_eq_of_lt (by omega)]
    exact w16_toNat _

/-- The fault of a message that is lost: URGENT_LOST of its port, naming its URG_ID. -/
theorem enqueueFrom_full (fwd : Bool) {p : Nat} (hp : p < 2) {c : Nat} (m : List Byte) (hfull : queueFull s p c = true) :
    enqueueFrom fwd s p c m = { s with flt := { s.flt with waiting := s.flt.waiting ++
      [{ block := 0x16 + p, source := 5, d0 := w16 (ofBytes ((m.drop 12).take 2)), d1 := 0, forced := false, stamp := f3 s.clk.time }] } } := by
  unfold enqueueFrom
  rw [if_pos hfull]
  refine raise_event ?_ _ _ _
  obtain rfl | rfl : p = 0 ∨ p = 1 := by omega
  · decide
  · decide

theorem enqueueFrom_room (fwd : Bool) {p c : Nat} (m : List Byte) (hroom : queueFull s p c = false) :
    enqueueFrom fwd s p c m = s.modCls p c (fun q => { q with queue := q.queue ++ [(fwd, m)] }) := by
  unfold enqueueFrom
  rw [if_neg (by rw [hroom]; exact Bool.false_ne_true)]

/-- A message that goes out leaves what is beside the ports and the waiting faults. -/
theorem enqueueFrom_flt (fwd : Bool) {p : Nat} (hp : p < 2) (c : Nat) (m : List Byte) :
    ∃ q w, enqueueFrom fwd s p c m = { s with link := { s.link with port := q }, flt := { s.flt with waiting := s.flt.waiting ++ w } } := by
  cases hfull : queueFull s p c
  · rw [enqueueFrom_room s fwd m hfull]
    exact ⟨_, [], by rw [List.append_nil]; rfl⟩
  · rw [enqueueFrom_full s fwd hp m hfull]
    exact ⟨_, _, rfl⟩

theorem otherPort_lt (p : Port) : 1 - portNum p < 2 := by
  cases p <;> decide

theorem urgent_next (p : Port) (u : UrgentMsg) (h : (s.port (portNum p)).step = .active) :
    ∃ v t, exec (.urgent p u) s = .next t ∧ v = clocheChain s .dead { block := u.block.toNat, source := u.source.toNat, origin := u.origin.toNat + 128 } ∧
      (takesUrgent v (1 - portNum p) = false → t = v) ∧ (takesUrgent v (1 - portNum p) = true → queueFull v (1 - portNum p) 0 = false →
        t = v.modCls (1 - portNum p) 0 (fun q => { q with queue := q.queue ++ [(true, urgentBytes u)] })) ∧
      (takesUrgent v (1 - portNum p) = true → queueFull v (1 - portNum p) 0 = true →
        t = { v with flt := { v.flt with waiting := v.flt.waiting ++ [{ block := 0x16 + (1 - portNum p), source := 5, d0 := u.urgId, d1 := 0, forced := false, stamp := f3 v.now }] } }) ∧
      (∀ b, b < 16 → (t.bedc b).active = true) ∧ Cause.dead ∈ t.flt.chain ∧ Cause.dead ∈ t.flt.chip ∧
      (∀ x, x ∈ s.flt.chain → x ∈ t.flt.chain) ∧ (∀ x, x ∈ s.flt.chip → x ∈ t.flt.chip) := by
  obtain ⟨hblock, hsource, horigin, hid⟩ := urgentBytes_fields u
  have hexec : exec (.urgent p u) s = .next (urgentArrives s (portNum p) (urgentBytes u)) := congrArg Host.Outcome.next (if_pos h)
  obtain ⟨hbeds, hchip, hchain⟩ := clocheChain_latched s .dead { block := u.block.toNat, source := u.source.toNat, origin := u.origin.toNat + 128 }
  refine ⟨_, _, hexec, rfl, ?_⟩
  unfold urgentArrives
  dsimp only
  rw [hblock, hsource, horigin]
  generalize clocheChain s .dead _ = v at hbeds hchip hchain
  have hall : ∀ t : State, t.flt.bed = v.flt.bed → t.flt.chip = v.flt.chip → t.flt.chain = v.flt.chain →
      (∀ b, b < 16 → (t.bedc b).active = true) ∧ Cause.dead ∈ t.flt.chain ∧ Cause.dead ∈ t.flt.chip ∧
      (∀ x, x ∈ s.flt.chain → x ∈ t.flt.chain) ∧ (∀ x, x ∈ s.flt.chip → x ∈ t.flt.chip) := by
    intro t hbed hc hch
    rw [hc, hch, hchip, hchain]
    unfold State.bedc
    rw [hbed]
    exact ⟨hbeds, mem_latchCause.1, mem_latchCause.1, mem_latchCause.2, mem_latchCause.2⟩
  cases htakes : takesUrgent v (1 - portNum p)
  · rw [if_neg Bool.false_ne_true]
    exact ⟨fun _ => rfl, fun h => (nomatch h), fun h => (nomatch h), hall v rfl rfl rfl⟩
  · rw [if_pos rfl]
    cases hfull : queueFull v (1 - portNum p) 0
    · rw [enqueueFrom_room v true _ hfull]
      exact ⟨fun h => (nomatch h), fun _ _ => rfl, fun _ h => (nomatch h), hall _ rfl rfl rfl⟩
    · rw [enqueueFrom_full v true (otherPort_lt p) _ hfull, hid]
      exact ⟨fun h => (nomatch h), fun _ h => (nomatch h), fun _ _ => rfl, hall _ rfl rfl rfl⟩

/-! The marks (R422, R424). -/

/-- MTYPE of SYNC_MARK is the message's. -/
def isMark (m : List Byte) : Bool := decide (msgNum m 0 1 = 0x0B)

theorem filter_eraseIdx {α : Type} {f : α → Bool} {l : List α} {k : Nat} {a : α} (hat : l[k]? = some a) (h : f a = false) :
    (l.eraseIdx k).filter f = l.filter f := by
  induction l generalizing k with
  | nil => rfl
  | cons b l ih =>
    cases k with
    | zero =>
      obtain rfl : b = a := Option.some.inj hat
      exact (List.filter_cons_of_neg (by rw [h]; exact Bool.false_ne_true)).symm
    | succ k => rw [List.eraseIdx_cons_succ, List.filter_cons, List.filter_cons, ih hat]

/-- The mark leaves the messages; every other one stays. -/
theorem takeMark_parts (total acc epoch : Nat) : ∃ l m, takeMark s total acc epoch = ({ s with link := { s.link with inbox := l } }, m) ∧
    l.filter (fun m => decide (msgNum m 0 1 ≠ 0x0B)) = s.link.inbox.filter (fun m => decide (msgNum m 0 1 ≠ 0x0B)) := by
  unfold takeMark firstIdx
  split
  next k hk =>
    obtain ⟨hlt, hmark, -⟩ := List.findIdx?_eq_some_iff_getElem.1 hk
    refine ⟨_, _, rfl, filter_eraseIdx (List.getElem?_eq_getElem hlt) ?_⟩
    simp only [Bool.and_eq_true, decide_eq_true_eq] at hmark
    obtain ⟨⟨⟨htype, -⟩, -⟩, -⟩ := hmark
    simp [htype]
  next => exact ⟨_, _, rfl, rfl⟩

theorem takeMark_single {m : List Byte} {total acc epoch : Nat} (h : s.link.inbox = [m]) (htype : msgNum m 0 1 = 0x0B) (htotal : msgNum m 8 4 = total)
    (hacc : msgNum m 12 4 = acc) (hepoch : msgNum m 16 8 = epoch) : takeMark s total acc epoch = ({ s with link := { s.link with inbox := [] } }, some m) := by
  unfold takeMark firstIdx
  simp [h, htype, htotal, hacc, hepoch]

theorem forwardMark_idle (m : Option (List Byte)) (total acc epoch : Nat) (h : (s.port 1).step ≠ .active) : forwardMark s m total acc epoch = s := by
  unfold forwardMark
  exact if_pos h

/-- A mark that goes on tipward changes LINK1's port, and at most loses itself. -/
theorem forwardMark_parts (m : Option (List Byte)) (total acc epoch : Nat) : ∃ n q w, forwardMark s m total acc epoch =
    { s with free := n, link := { s.link with port := q }, flt := { s.flt with waiting := s.flt.waiting ++ w } } := by
  unfold forwardMark
  split
  · exact ⟨_, _, [], by rw [List.append_nil]⟩
  cases m with
  | some l =>
    obtain ⟨q, w, h⟩ := enqueueFrom_flt s false (by decide : 1 < 2) 0 (putAt 12 (toBytes 4 acc) l)
    exact ⟨_, q, w, h⟩
  | none =>
    obtain ⟨q, w, h⟩ := enqueueFrom_flt s.takeFree false (by decide : 1 < 2) 0
      (msgBytes 0x0B 0x7F 0x7E 0 (s.freeNat % 65536) (toBytes 4 total ++ toBytes 4 acc) (toBytes 8 epoch))
    exact ⟨_, q, w, h⟩

/-- The clock at the arrival of a mark, and the messages without it. -/
def markTaken (arr : Nat) (l : List (List Byte)) : State := { s with clk := { s.clk with time := max s.clk.time (arr / 256) }, link := { s.link with inbox := l } }

theorem syncMark_next (total acc : BitVec 32) (epoch : BitVec 64) (arr res : Nat) : ∃ l m,
    l.filter (fun m => decide (msgNum m 0 1 ≠ 0x0B)) = s.link.inbox.filter (fun m => decide (msgNum m 0 1 ≠ 0x0B)) ∧
    exec (.syncMark 0x7F total acc epoch arr res) s = .next (forwardMark (if s.link.addrValid then
      actOnMark (markTaken s arr l) total.toNat (acc.toNat + hopDelay s) epoch.toNat arr else markTaken s arr l) m total.toNat ((acc.toNat + hopDelay s + res) % two32) epoch.toNat) := by
  obtain ⟨l, m, htake, hkept⟩ := takeMark_parts (s.reach (arr / 256)) total.toNat acc.toNat epoch.toNat
  refine ⟨l, m, hkept, congrArg Host.Outcome.next ?_⟩
  dsimp only
  rw [if_neg (by decide), htake]
  rfl

theorem notRecent {arr : Nat} (hlast : ∀ l, s.link.lastSync = some l → l + 640000 ≤ arr / 256) :
    s.link.lastSync.any (fun t => decide (arr / 256 < t + 640000)) = false := by
  generalize s.link.lastSync = o at hlast ⊢
  cases o with
  | none => rw [Option.any_none]
  | some l => rw [Option.any_some, decide_eq_false (Nat.not_lt.2 (hlast l rfl))]

/-- A mark that the part takes is pending at its firing time. -/
theorem actOnMark_pending {total darr epoch arr : Nat} (hnone : s.link.pendingSync = none) (hlast : ∀ l, s.link.lastSync = some l → l + 640000 ≤ arr / 256)
    (h : darr + 1638400 ≤ total) : actOnMark s total darr epoch arr = { s with link := { s.link with pendingSync := some { f := arr + total - darr, epoch := epoch } } } := by
  have hrecent := notRecent s hlast
  unfold actOnMark
  dsimp only
  rw [hnone, hrecent, if_neg (by decide), if_neg (by omega)]

theorem actOnMark_late {total darr epoch arr : Nat} (hnone : s.link.pendingSync = none) (hlast : ∀ l, s.link.lastSync = some l → l + 640000 ≤ arr / 256)
    (h : total < darr + 1638400) : ∃ r d, d.block = 0x16 ∧ d.source = 7 ∧ actOnMark s total darr epoch arr =
      { s with bus := { s.bus with recent := r }, link := { s.link with late := true, syncValid := false }, flt := { s.flt with waiting := s.flt.waiting ++ [d] } } := by
  have hrecent := notRecent s hlast
  refine ⟨(State.noteSet { s with link := { s.link with late := true, syncValid := false } } 0x1C10 8).bus.recent, { block := 0x16, source := 7, d0 := 0, d1 := 0, forced := false, stamp := f3 s.clk.time }, rfl, rfl, ?_⟩
  unfold actOnMark
  dsimp only
  rw [hnone, hrecent, if_neg (by decide), if_pos h, raise_event (by decide)]
  rfl

theorem actOnMark_ignored {total darr epoch arr : Nat} (h : s.link.pendingSync ≠ none ∨ ∃ l, s.link.lastSync = some l ∧ arr / 256 < l + 640000) :
    ∃ r d, d.block = 0x16 ∧ d.source = 9 ∧ actOnMark s total darr epoch arr =
      { s with bus := { s.bus with recent := r }, link := { s.link with ignored := true }, flt := { s.flt with waiting := s.flt.waiting ++ [d] } } := by
  have hseen : (s.link.pendingSync.isSome || s.link.lastSync.any (fun t => decide (arr / 256 < t + 640000))) = true := by
    rcases h with h | ⟨l, hl, h⟩
    · rw [Option.isSome_iff_ne_none.2 h, Bool.true_or]
    · rw [hl, Option.any_some, decide_eq_true h, Bool.or_true]
  refine ⟨(State.noteSet { s with link := { s.link with ignored := true } } 0x1C10 32).bus.recent, { block := 0x16, source := 9, d0 := 0, d1 := 0, forced := false, stamp := f3 s.clk.time }, rfl, rfl, ?_⟩
  unfold actOnMark
  dsimp only
  rw [hseen, if_pos rfl, raise_event (by decide)]
  rfl

theorem syncMark_pending (total acc : BitVec 32) (epoch : BitVec 64) (arr res : Nat) (hvalid : s.link.addrValid = true) (hnone : s.link.pendingSync = none)
    (hlast : ∀ l, s.link.lastSync = some l → l + 640000 ≤ arr / 256) (h : acc.toNat + hopDelay s + 1638400 ≤ total.toNat) (hport : (s.port 1).step ≠ .active) :
    ∃ t, exec (.syncMark 0x7F total acc epoch arr res) s = .next t ∧
      t.link.inbox.filter (fun m => decide (msgNum m 0 1 ≠ 0x0B)) = s.link.inbox.filter (fun m => decide (msgNum m 0 1 ≠ 0x0B)) ∧
      t = { s with clk := { s.clk with time := max s.clk.time (arr / 256) }, link := { s.link with inbox := t.link.inbox, pendingSync := some { f := arr + total.toNat - (acc.toNat + hopDelay s), epoch := epoch.toNat } } } := by
  obtain ⟨l, m, hkept, hexec⟩ := syncMark_next s total acc epoch arr res
  have hact := actOnMark_pending (epoch := epoch.toNat) (markTaken s arr l) hnone hlast h
  rw [if_pos hvalid, forwardMark_idle _ _ _ _ _ (by rw [hact]; exact hport), hact] at hexec
  exact ⟨_, hexec, hkept, rfl⟩

theorem syncMark_late (total acc : BitVec 32) (epoch : BitVec 64) (arr res : Nat) (hvalid : s.link.addrValid = true) (hnone : s.link.pendingSync = none)
    (hlast : ∀ l, s.link.lastSync = some l → l + 640000 ≤ arr / 256) (h : total.toNat < acc.toNat + hopDelay s + 1638400) :
    ∃ t, exec (.syncMark 0x7F total acc epoch arr res) s = .next t ∧ t.link.pendingSync = none ∧ t.link.late = true ∧ t.link.syncValid = false ∧
      (∃ d ∈ t.flt.waiting, d.block = 0x16 ∧ d.source = 7) ∧
      ((s.port 1).step ≠ .active → t = { s with clk := { s.clk with time := max s.clk.time (arr / 256) }, bus := { s.bus with recent := t.bus.recent }, link := { s.link with inbox := t.link.inbox, late := true, syncValid := false }, flt := { s.flt with waiting := t.flt.waiting } }) := by
  obtain ⟨l, m, -, hexec⟩ := syncMark_next s total acc epoch arr res
  obtain ⟨r, d, hblock, hsource, hact⟩ := actOnMark_late (epoch := epoch.toNat) (markTaken s arr l) hnone hlast h
  rw [if_pos hvalid] at hexec
  obtain ⟨n, q, w, hforward⟩ := forwardMark_parts (actOnMark (markTaken s arr l) total.toNat (acc.toNat + hopDelay s) epoch.toNat arr)
    m total.toNat ((acc.toNat + hopDelay s + res) % two32) epoch.toNat
  refine ⟨_, hexec, ?_, ?_, ?_, ⟨d, ?_, hblock, hsource⟩, fun hport => ?_⟩
  · rw [hforward, hact]; exact hnone
  · rw [hforward, hact]
  · rw [hforward, hact]
  · rw [hforward, hact]
    exact List.mem_append_left _ (List.mem_append_right _ (List.mem_singleton.2 rfl))
  · rw [forwardMark_idle _ _ _ _ _ (by rw [hact]; exact hport), hact]
    rfl

theorem syncMark_ignored (total acc : BitVec 32) (epoch : BitVec 64) (arr res : Nat) (hvalid : s.link.addrValid = true)
    (h : s.link.pendingSync ≠ none ∨ ∃ l, s.link.lastSync = some l ∧ arr / 256 < l + 640000) :
    ∃ t, exec (.syncMark 0x7F total acc epoch arr res) s = .next t ∧ t.link.pendingSync = s.link.pendingSync ∧ t.link.ignored = true ∧
      t.link.syncValid = s.link.syncValid ∧ (∃ d ∈ t.flt.waiting, d.block = 0x16 ∧ d.source = 9) ∧
      ((s.port 1).step ≠ .active → t = { s with clk := { s.clk with time := max s.clk.time (arr / 256) }, bus := { s.bus with recent := t.bus.recent }, link := { s.link with inbox := t.link.inbox, ignored := true }, flt := { s.flt with waiting := t.flt.waiting } }) := by
  obtain ⟨l, m, -, hexec⟩ := syncMark_next s total acc epoch arr res
  obtain ⟨r, d, hblock, hsource, hact⟩ := actOnMark_ignored (total := total.toNat) (darr := acc.toNat + hopDelay s) (epoch := epoch.toNat) (markTaken s arr l) h
  rw [if_pos hvalid] at hexec
  obtain ⟨n, q, w, hforward⟩ := forwardMark_parts (actOnMark (markTaken s arr l) total.toNat (acc.toNat + hopDelay s) epoch.toNat arr)
    m total.toNat ((acc.toNat + hopDelay s + res) % two32) epoch.toNat
  refine ⟨_, hexec, ?_, ?_, ?_, ⟨d, ?_, hblock, hsource⟩, fun hport => ?_⟩
  · rw [hforward, hact]; rfl
  · rw [hforward, hact]
  · rw [hforward, hact]; rfl
  · rw [hforward, hact]
    exact List.mem_append_left _ (List.mem_append_right _ (List.mem_singleton.2 rfl))
  · rw [forwardMark_idle _ _ _ _ _ (by rw [hact]; exact hport), hact]
    rfl

theorem modCls_cls (p c : Nat) (f : ClassState → ClassState) (c' : Nat) : (s.modCls p c f).cls p c' = if c' = c then f (s.cls p c) else s.cls p c' := by
  unfold State.cls State.modCls
  rw [State.modPort_port, if_pos rfl]
  exact tget_tmod ..

theorem syncMark_forward (total acc : BitVec 32) (epoch : BitVec 64) (arr res : Nat) (m : List Byte) (hvalid : s.link.addrValid = false) (hport : (s.port 1).step = .active)
    (h : s.link.inbox = [m]) (htype : msgNum m 0 1 = 0x0B) (htotal : msgNum m 8 4 = total.toNat) (hacc : msgNum m 12 4 = acc.toNat) (hepoch : msgNum m 16 8 = epoch.toNat)
    (hroom : queueFull s 1 0 = false) :
    ∃ t, exec (.syncMark 0x7F total acc epoch arr res) s = .next t ∧
      t.cls 1 0 = { s.cls 1 0 with queue := (s.cls 1 0).queue ++ [(false, putAt 12 (toBytes 4 ((acc.toNat + hopDelay s + res) % 2 ^ 32)) m)] } ∧
      (∀ c, c ≠ 0 → t.cls 1 c = s.cls 1 c) ∧ t.port 1 = { s.port 1 with cls := (t.port 1).cls } ∧ t.port 0 = s.port 0 ∧
      t = { s with clk := { s.clk with time := max s.clk.time (arr / 256) }, link := { s.link with port := t.link.port, inbox := [] } } := by
  have htake := takeMark_single (s.reach (arr / 256)) h htype htotal hacc hepoch
  have hexec : exec (.syncMark 0x7F total acc epoch arr res) s = .next ((markTaken s arr []).modCls 1 0 (fun q => { q with queue := q.queue ++
      [(false, putAt 12 (toBytes 4 ((acc.toNat + hopDelay s + res) % 2 ^ 32)) m)] })) := by
    refine congrArg Host.Outcome.next ?_
    dsimp only
    rw [if_neg (by decide), htake]
    dsimp only
    rw [if_neg (by rw [show (s.reach (arr / 256)).link.addrValid = false from hvalid]; exact Bool.false_ne_true)]
    exact (if_neg (not_not.2 hport)).trans (enqueueFrom_room (markTaken s arr []) false _ hroom)
  refine ⟨_, hexec, ?_, fun c hc => ?_, ?_, ?_, rfl⟩
  · exact (modCls_cls ..).trans (if_pos rfl)
  · exact (modCls_cls ..).trans (if_neg hc)
  · simp only [State.modCls, State.modPort_port, if_true]
    rfl
  · exact (State.modPort_port ..).trans (if_neg (by decide))

theorem syncMark_misrouted (dest : BitVec 7) (total acc : BitVec 32) (epoch : BitVec 64) (arr res : Nat) (h : dest ≠ 0x7F) :
    ∃ t d, exec (.syncMark dest total acc epoch arr res) s = .next t ∧ d.block = 0x16 ∧ d.source = 6 ∧ d.d0 = 0x0B ∧ d.d1 = w16 dest.toNat ∧
      t = { s with clk := { s.clk with time := max s.clk.time (arr / 256) }, flt := { s.flt with waiting := s.flt.waiting ++ [d] } } := by
  have hexec : exec (.syncMark dest total acc epoch arr res) s = .next ((s.reach (arr / 256)).raise 0x16 6 0x0B dest.toNat) := congrArg Host.Outcome.next (if_pos h)
  rw [raise_event (by decide)] at hexec
  exact ⟨_, _, hexec, rfl, rfl, rfl, rfl, rfl⟩


/-! The local sync (R423) and the step of chip time (R170, R362). -/

theorem closeStamps_idle {u : Nat} (h : (s.tiu u).run = none) : closeStamps s u = s := by
  unfold closeStamps
  rw [h]

theorem timStepped_units {st : Int} (h : UnitsRest s) : UnitsOnly s (timStepped s st) := by
  unfold timStepped
  suffices hfold : ∀ (l : List (Nat × TimeInterval)) (t : State), UnitsOnly s t → UnitsOnly s (l.foldl (fun s e =>
      let s := s.modTiu e.1 (fun x => { x with
        lastStart := x.lastStart.map (stampMoved st), lastStop := x.lastStop.map (stampMoved st), freshNext := x.run.isSome })
      let s := modTimRun s e.1 (fun r => { r with
        stepped := r.stepped || r.armed.isSome || decide (0 < r.gateK)
        armed := r.armed.map (stampMoved st)
        gateEnd := ((s.now : Int) + st).toNat })
      if e.2.mode = 4 then closeStamps s e.1 else s) t) from hfold _ s ⟨noRuns_of_rest h, _, rfl⟩
  intro l
  induction l with
  | nil => exact fun t ht => ht
  | cons e l ih =>
    intro t ht
    have hmoved := unitsOnly_modTimRun (unitsOnly_modTiu ht e.1 (f := fun x => { x with
        lastStart := x.lastStart.map (stampMoved st), lastStop := x.lastStop.map (stampMoved st), freshNext := x.run.isSome }) fun x hx => hx) e.1
      (fun r => { r with stepped := r.stepped || r.armed.isSome || decide (0 < r.gateK), armed := r.armed.map (stampMoved st), gateEnd := ((t.now : Int) + st).toNat })
    refine ih _ (unitsOnly_ite ?_ hmoved)
    rw [closeStamps_idle]
    · exact hmoved
    · exact hmoved.1 e.1

theorem foldl_lp {α : Type} {step : State → α → State} (hstep : ∀ s a, ∃ p, step s a = { s with lp := p }) (l : List α) (v : State) :
    ∃ p, l.foldl step v = { v with lp := p } := by
  induction l generalizing v with
  | nil => exact ⟨_, rfl⟩
  | cons a l ih =>
    obtain ⟨p, h⟩ := hstep v a
    rw [List.foldl_cons, h]
    obtain ⟨q, hq⟩ := ih { v with lp := p }
    exact ⟨q, hq⟩

theorem foldl_sup {α : Type} {step : State → α → State} (hstep : ∀ s a, ∃ p, step s a = { s with sup := p }) (l : List α) (v : State) :
    ∃ p, l.foldl step v = { v with sup := p } := by
  induction l generalizing v with
  | nil => exact ⟨_, rfl⟩
  | cons a l ih =>
    obtain ⟨p, h⟩ := hstep v a
    rw [List.foldl_cons, h]
    obtain ⟨q, hq⟩ := ih { v with sup := p }
    exact ⟨q, hq⟩

/-- A step of chip time moves the clock by it; without a run it leaves the trellis and the faults. -/
theorem stepTime_parts {S : Int} (h : S ≠ 0) : (stepTime s S).clk.time = toTwos 64 ((s.clk.time : Int) + S) ∧
    (UnitsRest s → (stepTime s S).link = s.link ∧ (stepTime s S).flt = s.flt) := by
  have hloops : ∀ (l : List Nat) (v : State), ∃ p, l.foldl (fun (s : State) k => s.modLoop k (fun x => { x with lastSample := min x.lastSample s.now })) v =
      { v with lp := p } := foldl_lp fun s k => ⟨_, rfl⟩
  have hzones : ∀ (l : List Nat) (v : State), ∃ p, l.foldl (fun (s : State) z => s.modZone z (fun x => { x with
      grace1 := stepGrace S x.grace1, grace2 := stepGrace S x.grace2, grace3 := stepGrace S x.grace3 })) v =
      { v with sup := p } := foldl_sup fun s k => ⟨_, rfl⟩
  have htim : (timStepped s S).clk = s.clk := only_clk (w := 73504) (timStepped_only rfl only_refl)
  have hedge : ∀ v : State, ∃ e, stepClocks v S = { v with edge := e } := fun v => ⟨_, only_eq (w := 128) (stepClocks_only rfl only_refl)⟩
  obtain ⟨e, he⟩ := hedge { timStepped s S with clk := { (timStepped s S).clk with time := toTwos 64 (((timStepped s S).now : Int) + S) } }
  unfold stepTime
  dsimp only
  rw [if_neg h, he]
  generalize List.range 544 = loops
  generalize List.range 5 = zones
  obtain ⟨lp, hlp⟩ := hloops loops { timStepped s S with
    clk := { (timStepped s S).clk with time := toTwos 64 (((timStepped s S).now : Int) + S) }, edge := e }
  obtain ⟨sup, hsup⟩ := hzones zones { timStepped s S with
    clk := { (timStepped s S).clk with time := toTwos 64 (((timStepped s S).now : Int) + S) }, edge := e, lp := lp }
  rw [hlp, hsup]
  refine ⟨?_, fun hrest => ?_⟩
  · unfold State.now
    rw [htim]
  · obtain ⟨-, m, hm⟩ := timStepped_units s (st := S) hrest
    rw [hm]
    exact ⟨rfl, rfl⟩

theorem perturbed_congr {t : State} (h : t.flt = s.flt) (k n : Nat) : t.perturbed k n = s.perturbed k n := by
  unfold State.perturbed State.pert
  rw [h]

theorem jitteredPulse_exact (h2 : s.perturbed 2 2 = false) (h3 : s.perturbed 2 3 = false) : jitteredPulse s = (s, 0) := by
  unfold jitteredPulse
  rw [h2, h3]
  rfl

theorem syncBeds_bases (l : List Nat) : (∃ n e, syncBeds s l = { s with free := n, edge := { s.edge with base := e } }) ∧
    (s.perturbed 2 2 = false → s.perturbed 2 3 = false → ∀ b ∈ l, (syncBeds s l).base b = 0) := by
  refine ⟨?_, fun h2 h3 b hb => ?_⟩
  · obtain ⟨n, hpulse⟩ := jitteredPulse_parts s
    refine ⟨n, (syncBeds s l).edge.base, ?_⟩
    have h := foldl_same (F := fun u : State => { u with edge := { u.edge with base := (syncBeds s l).edge.base } })
      (step := fun (u : State) b => u.modBase b (fun _ => -(jitteredPulse s).2)) (fun _ _ => rfl) l (jitteredPulse s).1
    rw [hpulse] at h
    refine Eq.trans ?_ h
    unfold syncBeds
    dsimp only
    rw [hpulse]
  · unfold syncBeds
    rw [jitteredPulse_exact s h2 h3]
    dsimp only
    have hfold : ∀ (l : List Nat) (v : State), b ∈ l ∨ v.base b = 0 → (l.foldl (fun (u : State) b => u.modBase b (fun _ => -0)) v).base b = 0 := by
      intro l
      induction l with
      | nil => exact fun v h => h.elim (fun h => nomatch h) id
      | cons a l ih =>
        intro v h
        refine ih _ ?_
        rw [State.modBase_base]
        by_cases heq : b = a
        · exact .inr (if_pos heq)
        · rw [if_neg heq]
          exact h.imp (fun h => (List.mem_cons.1 h).resolve_left heq) id
    exact hfold l s (.inl hb)

theorem jitteredSync_exact (f : Nat) (h1 : s.perturbed 2 1 = false) (h3 : s.perturbed 2 3 = false) : jitteredSync s f = (s, f) := by
  unfold jitteredSync
  rw [h1, h3]
  rfl

/-- The sync as a whole, over the state `v` that the step of chip time leaves. -/
def synced (v : State) (x : PendingSync) (S φ : Int) : State :=
  { v.noteAdd 0x1C11 v.link.syncCount with link := { v.link with
      pendingSync := none
      syncEpoch := x.epoch
      syncCount := satAdd max16 v.link.syncCount 1
      lastStep := clampI (-2147483647) 2147483647 S
      lastPhase := φ
      lastSync := some v.clk.time
      slewing := decide (φ ≠ 0)
      syncValid := v.link.syncValid || decide (φ = 0) } }

theorem localSync_next (x : PendingSync) (h : s.link.pendingSync = some x) (h1 : s.perturbed 2 1 = false) (h3 : s.perturbed 2 3 = false) {S φ : Int}
    (hS : S = (256 * (x.epoch : Int) - x.f + 128) / 256) (hφ : φ = 256 * (x.epoch : Int) - x.f - 256 * S) :
    exec .localSync s = .next (synced (syncBeds (stepTime (s.reach (x.f / 256)) S) (List.range 16)) x S φ) := by
  refine congrArg Host.Outcome.next ?_
  rw [h]
  dsimp only
  unfold fireSync
  rw [jitteredSync_exact s x.f h1 h3]
  dsimp only
  rw [← hS, ← hφ]
  rfl

theorem localSync_parts (x : PendingSync) (h : s.link.pendingSync = some x) (h1 : s.perturbed 2 1 = false) (h3 : s.perturbed 2 3 = false) :
    ∃ t S φ, exec .localSync s = .next t ∧ (256 * (x.epoch : Int) - x.f = 256 * S + φ) ∧ -128 ≤ φ ∧ φ ≤ 127 ∧ t.link.pendingSync = none ∧
      t.link.syncEpoch = x.epoch ∧ t.link.lastPhase = φ ∧ t.link.lastStep = max (-2147483647) (min 2147483647 S) ∧ t.link.slewing = decide (φ ≠ 0) ∧
      (φ = 0 → t.link.syncValid = true) ∧ t.link.lastSync = some t.clk.time ∧ (S = 0 → t.clk.time = max s.clk.time (x.f / 256)) ∧
      (S ≠ 0 → t.clk.time = toTwos 64 ((max s.clk.time (x.f / 256) : Nat) + S)) ∧
      ((∀ e ∈ s.meas.unit, e.2.run = none) → t.link.syncCount = min 65535 (s.link.syncCount + 1) ∧ (s.perturbed 2 2 = false → ∀ b, b < 16 → t.base b = 0) ∧ (φ ≠ 0 → t.link.syncValid = s.link.syncValid)) ∧
      (S = 0 → t = { s with free := t.free, clk := { s.clk with time := t.clk.time }, bus := { s.bus with recent := t.bus.recent }, edge := { s.edge with base := t.edge.base }, link := { s.link with pendingSync := none, syncEpoch := t.link.syncEpoch, syncCount := t.link.syncCount, lastStep := t.link.lastStep, lastPhase := t.link.lastPhase, lastSync := t.link.lastSync, slewing := t.link.slewing, syncValid := t.link.syncValid } }) := by
  obtain ⟨S, hS⟩ : ∃ S, S = (256 * (x.epoch : Int) - x.f + 128) / 256 := ⟨_, rfl⟩
  obtain ⟨φ, hφ⟩ : ∃ φ, φ = 256 * (x.epoch : Int) - x.f - 256 * S := ⟨_, rfl⟩
  have hexec := localSync_next s x h h1 h3 hS hφ
  have hzero : S = 0 → stepTime (s.reach (x.f / 256)) S = s.reach (x.f / 256) := fun hz => if_pos hz
  have hpart := fun hz : S ≠ 0 => stepTime_parts (s.reach (x.f / 256)) hz
  obtain ⟨⟨n, e, hbeds⟩, hbase⟩ := syncBeds_bases (stepTime (s.reach (x.f / 256)) S) (List.range 16)
  have hkept : UnitsRest s → (stepTime (s.reach (x.f / 256)) S).link = s.link ∧ (stepTime (s.reach (x.f / 256)) S).flt = s.flt := by
    intro hrest
    by_cases hz : S = 0
    · rw [hzero hz]
      exact ⟨rfl, rfl⟩
    · exact (hpart hz).2 hrest
  generalize stepTime (s.reach (x.f / 256)) S = w at hexec hzero hpart hbeds hbase hkept
  have hbase : w.perturbed 2 2 = false → w.perturbed 2 3 = false → ∀ b, b < 16 → (syncBeds w (List.range 16)).base b = 0 :=
    fun h2 h3 b hb => hbase h2 h3 b (List.mem_range.2 hb)
  generalize syncBeds w (List.range 16) = v at hexec hbeds hbase
  have hlink : v.link = w.link := by rw [hbeds]
  have hclk : v.clk = w.clk := by rw [hbeds]
  refine ⟨_, S, φ, hexec, by omega, by omega, by omega, rfl, rfl, rfl, rfl, rfl, fun hz => ?_, rfl, fun hz => ?_, fun hz => ?_, fun hrest => ?_, fun hz => ?_⟩
  · change (_ || decide (φ = 0)) = true
    rw [decide_eq_true hz, Bool.or_true]
  · refine (congrArg Clock.time hclk).trans ?_
    rw [hzero hz]
    rfl
  · exact (congrArg Clock.time hclk).trans (hpart hz).1
  · obtain ⟨hsame, hflt⟩ := hkept hrest
    rw [hsame] at hlink
    refine ⟨?_, fun h2 => hbase ((perturbed_congr s hflt 2 2).trans h2) ((perturbed_congr s hflt 2 3).trans h3), fun hz => ?_⟩
    · change satAdd max16 v.link.syncCount 1 = _
      rw [hlink]
      rfl
    · change (v.link.syncValid || decide (φ = 0)) = _
      rw [hlink, decide_eq_false hz, Bool.or_false]
  · rw [hzero hz] at hbeds
    rw [hbeds]
    rfl

theorem phaseSlewEnd_next (l : Nat) (h : s.link.slewing = true) (hl : s.link.lastSync = some l) :
    ∃ t, exec .phaseSlewEnd s = .next t ∧ t.clk.time = max s.clk.time (l + 3200 * s.link.lastPhase.natAbs) ∧
      t = { s with clk := { s.clk with time := t.clk.time }, link := { s.link with slewing := false, syncValid := true } } := by
  have hexec : exec .phaseSlewEnd s = .next { s.reach (l + 3200 * s.link.lastPhase.natAbs) with link := { s.link with slewing := false, syncValid := true } } := by
    refine congrArg Host.Outcome.next ((if_pos h).trans ?_)
    split
    next t ht =>
      obtain rfl : l = t := Option.some.inj (hl.symm.trans ht)
      rfl
    next hnone => exact nomatch hl.symm.trans hnone
  exact ⟨_, hexec, rfl, rfl⟩

/-- Settles O45: an URGENT message passes through a chain cloche, and a local sync through the step of chip time. -/
theorem chainSync : Obligations.ChainSync :=
  ⟨fun p u s h => urgent_next s p u h,
    fun p u s h => congrArg Host.Outcome.next (if_neg h),
    fun total acc epoch arr res s hvalid hnone hlast h hport => syncMark_pending s total acc epoch arr res hvalid hnone hlast h hport,
    fun total acc epoch arr res s hvalid hnone hlast h => syncMark_late s total acc epoch arr res hvalid hnone hlast h,
    fun total acc epoch arr res s hvalid h => syncMark_ignored s total acc epoch arr res hvalid h,
    fun total acc epoch arr res s m hvalid hport h htype htotal hacc hepoch hroom => syncMark_forward s total acc epoch arr res m hvalid hport h htype htotal hacc hepoch hroom,
    fun dest total acc epoch arr res s h => syncMark_misrouted s dest total acc epoch arr res h,
    fun s x h h1 h3 => localSync_parts s x h h1 h3,
    fun s h => congrArg Host.Outcome.next (by rw [h]),
    fun s l h hl => phaseSlewEnd_next s l h hl,
    fun s h => congrArg Host.Outcome.next (if_neg (by rw [h]; exact Bool.false_ne_true))⟩

end Sys2Proof.Machine

end

section
/-! PROOFS. What the work that a reset sets free never touches (`PortsKept`): serving a ring, replies that a perturbation held and
a response that waited send messages of the part, and so leave of each port what is beside its classes. One lemma for each
operation that can send, in the order of the model. -/

set_option Elab.async false
set_option linter.unusedVariables false
set_option linter.unusedTactic false
set_option linter.unreachableTactic false

namespace Sys2Proof.Machine

/-- A port but for its classes and the acknowledgements that wait. -/
def portRest (q : LinkPort) : LinkPort := { q with cls := [], ctrlWaits := false }

/-- The ports of `t` are those of `v` but for their classes and the acknowledgements that wait. -/
@[irreducible] def PortsKept (v t : State) : Prop := (fun p => portRest (t.port p)) = fun p => portRest (v.port p)

variable {v s : State}

theorem ports_refl : PortsKept s s := by unfold PortsKept; rfl

theorem ports_only {t : State} {w : Nat} (h : Only w s t) (hw : w.testBit 12 = false) (hv : PortsKept v s) : PortsKept v t := by
  unfold PortsKept State.port at hv ⊢
  rw [only_link h hw]
  exact hv

theorem ports_mk {a0 a1 a2 a3 a4 a5 a6 a7 a8 a9 a10 a11 a12 a13 a14 a15 a16} (hlink : a12.port = s.link.port) (h : PortsKept v s) :
    PortsKept v (State.mk a0 a1 a2 a3 a4 a5 a6 a7 a8 a9 a10 a11 a12 a13 a14 a15 a16) := by
  unfold PortsKept State.port at h ⊢
  dsimp only
  rw [hlink]
  exact h

theorem ports_ite {c : Prop} [Decidable c] {a b : State} (h1 : c → PortsKept v a) (h2 : ¬c → PortsKept v b) : PortsKept v (if c then a else b) := by
  split
  · exact h1 ‹_›
  · exact h2 ‹_›

theorem ports_foldl {α} {f : State → α → State} {l : List α} (h : PortsKept v s) (hf : ∀ t a, PortsKept v t → PortsKept v (f t a)) : PortsKept v (l.foldl f s) := by
  induction l generalizing s with
  | nil => exact h
  | cons a r ih => exact ih (hf _ _ h)

/-- A state that comes with an answer. -/
def PortsFst {α : Type} (v : State) (q : State × α) : Prop := PortsKept v q.1

theorem ports_fst {α : Type} {q : State × α} {t : State} {x : α} (e : q = (t, x)) (h : PortsFst v q) : PortsKept v t := by subst e; exact h

theorem ports_of_fst {α : Type} {q : State × α} (h : PortsFst v q) : PortsKept v q.1 := h

theorem pfst_mk {α : Type} {x : α} (h : PortsKept v s) : PortsFst v (s, x) := h

theorem pfst_ite {α : Type} {c : Prop} [Decidable c] {a b : State × α} (h1 : c → PortsFst v a) (h2 : ¬c → PortsFst v b) : PortsFst v (if c then a else b) := by
  split
  · exact h1 ‹_›
  · exact h2 ‹_›

theorem pfst_foldl {α β : Type} {f : State × β → α → State × β} {l : List α} {q : State × β} (h : PortsFst v q) (hf : ∀ t a, PortsKept v t.1 → PortsFst v (f t a)) :
    PortsFst v (l.foldl f q) := by
  induction l generalizing q with
  | nil => exact h
  | cons a r ih => exact ih (hf _ _ h)

theorem pfoldl_fst {α β : Type} {f : State × β → α → State × β} {l : List α} {q : State × β} (h : PortsFst v q) (hf : ∀ t a, PortsKept v t.1 → PortsFst v (f t a)) :
    PortsKept v (l.foldl f q).1 := pfst_foldl h hf

theorem modPort_ports {k : Nat} {f : LinkPort → LinkPort} (hf : ∀ q, portRest (f q) = portRest q) (h : PortsKept v s) : PortsKept v (s.modPort k f) := by
  unfold PortsKept at h ⊢
  refine Eq.trans (funext fun p => ?_) h
  rw [State.modPort_port]
  split
  next heq => rw [hf, heq]
  next => rfl

theorem State.modCls_ports {a2} {a3} {a4} (h : PortsKept v s) : PortsKept v (State.modCls s a2 a3 a4) := modPort_ports (fun _ => rfl) h

theorem enqueueFrom_ports {a1} {a3} {a4} {a5} (h : PortsKept v s) : PortsKept v (enqueueFrom a1 s a3 a4 a5) := by
  unfold enqueueFrom
  refine ports_ite (fun _ => ?_) fun _ => State.modCls_ports h
  exact ports_only (State.raise_only (w := 65536) rfl only_refl) rfl h

theorem enqueue_ports {a2} {a3} {a4} (h : PortsKept v s) : PortsKept v (enqueue s a2 a3 a4) := by
  unfold enqueue
  repeat' (first | with_reducible assumption | intro _ | with_reducible apply enqueueFrom_ports)

theorem sendRoot_ports {a2} {a3} {a4} (h : PortsKept v s) : PortsKept v (sendRoot s a2 a3 a4) := by
  unfold sendRoot
  repeat' (first | with_reducible assumption | intro _ | with_reducible apply enqueue_ports | (fail_if_no_progress with_reducible (refine ports_mk rfl ?_)) | dsimp only)

theorem sendEvent_ports {a2} {a3} (h : PortsKept v s) : PortsKept v (sendEvent s a2 a3) := by
  unfold sendEvent
  repeat' (first | with_reducible assumption | intro _ | with_reducible apply sendRoot_ports)

theorem State.modRing_ports {a2} {a3} (h : PortsKept v s) : PortsKept v (State.modRing s a2 a3) :=
  ports_only (State.modRing_only (w := 2048) rfl only_refl) rfl h

theorem sendNotify_ports {a2} (h : PortsKept v s) : PortsKept v (sendNotify s a2) := by
  unfold sendNotify
  repeat' (first | with_reducible assumption | intro _ | with_reducible apply sendRoot_ports | with_reducible apply State.modRing_ports | split | dsimp only)

theorem notifyUnitsCheck_ports {a2} (h : PortsKept v s) : PortsKept v (notifyUnitsCheck s a2) := by
  unfold notifyUnitsCheck
  repeat' (first | with_reducible assumption | intro _ | with_reducible apply ports_ite | with_reducible apply sendNotify_ports | dsimp only)

theorem advanceRing_ports {a2} (h : PortsKept v s) : PortsKept v (advanceRing s a2) := by
  unfold advanceRing
  repeat' (first | with_reducible assumption | intro _ | with_reducible apply ports_ite | with_reducible apply State.modRing_ports | with_reducible apply notifyUnitsCheck_ports | split | with_reducible apply pfst_mk | with_reducible refine ports_fst (by with_reducible assumption) ?_ | dsimp only)

theorem markWritten_ports {a2} {a3} (h : PortsKept v s) : PortsKept v (markWritten s a2 a3) := by
  unfold markWritten
  repeat' (first | with_reducible assumption | intro _ | with_reducible apply ports_ite | with_reducible apply State.modRing_ports | with_reducible apply advanceRing_ports | dsimp only)

theorem ringWrite_ports {a2} {a3} {a4} (h : PortsKept v s) : PortsKept v (ringWrite s a2 a3 a4) :=
  ports_only (ringWrite_only (w := 256) rfl only_refl) rfl h

theorem closeLoss_ports {a2} (h : PortsKept v s) : PortsKept v (closeLoss s a2) := by
  unfold closeLoss
  repeat' (first | with_reducible assumption | intro _ | with_reducible apply ports_ite | with_reducible apply ringWrite_ports | with_reducible apply State.modRing_ports | with_reducible apply markWritten_ports | split | dsimp only)

theorem serveWaiters_ports {a2} {a3} (h : PortsKept v s) : PortsKept v (serveWaiters s a2 a3) :=
  ports_only (serveWaiters_only (w := 3840) rfl only_refl) rfl h

theorem retryEnds_ports {a2} (h : PortsKept v s) : PortsKept v (retryEnds s a2) :=
  ports_only (retryEnds_only (w := 2080) rfl only_refl) rfl h

theorem serviceRing_ports {a2} (h : PortsKept v s) : PortsKept v (serviceRing s a2) := by
  unfold serviceRing
  repeat' (first | with_reducible assumption | intro _ | with_reducible apply closeLoss_ports | with_reducible apply serveWaiters_ports | with_reducible apply retryEnds_ports | dsimp only)

theorem returnCredit_ports {a2} {a3} (h : PortsKept v s) : PortsKept v (returnCredit s a2 a3) := by
  unfold returnCredit
  repeat' (first | with_reducible assumption | intro _ | with_reducible apply serviceRing_ports | with_reducible apply State.modRing_ports | dsimp only)

theorem stageRoom_ports {a2} {a3} (h : PortsKept v s) : ∀ t, stageRoom s a2 a3 = some t → PortsKept v t :=
  fun t e => ports_only (stageRoom_only (w := 2048) rfl only_refl t e) rfl h

theorem State.raise_ports {a2} {a3} {a4} {a5} (h : PortsKept v s) : PortsKept v (State.raise s a2 a3 a4 a5) :=
  ports_only (State.raise_only (w := 65536) rfl only_refl) rfl h

theorem dropRecord_ports {a2} {a3} (h : PortsKept v s) : PortsKept v (dropRecord s a2 a3) :=
  ports_only (dropRecord_only (w := 2048) rfl only_refl) rfl h

theorem placeIn_ports {a2} {a3} {a4} {a5} {a6} (h : PortsKept v s) : PortsKept v (placeIn s a2 a3 a4 a5 a6) :=
  ports_only (placeIn_only (w := 2048) rfl only_refl) rfl h

theorem placeReserved_ports {a2} {a3} {a4} {a5} {a6} {a7} {a8} {a9} {a10} (h : PortsKept v s) : PortsFst v (placeReserved s a2 a3 a4 a5 a6 a7 a8 a9 a10) := by
  unfold placeReserved
  repeat' (first | with_reducible assumption | intro _ | with_reducible apply ports_ite | with_reducible apply pfst_ite | with_reducible refine stageRoom_ports ?_ _ (by with_reducible assumption) | with_reducible apply returnCredit_ports | with_reducible apply State.raise_ports | with_reducible apply dropRecord_ports | with_reducible apply State.modRing_ports | with_reducible apply placeIn_ports | with_reducible apply serviceRing_ports | split | with_reducible apply pfst_mk | with_reducible refine ports_fst (by with_reducible assumption) ?_ | dsimp only)

theorem placeHeld_ports {a2} {a3} {a4} {a5} {a6} {a7} {a8} {a9} {a10} (h : PortsKept v s) : PortsFst v (placeHeld s a2 a3 a4 a5 a6 a7 a8 a9 a10) := by
  unfold placeHeld
  repeat' (first | with_reducible assumption | intro _ | with_reducible apply ports_ite | with_reducible apply pfst_ite | with_reducible refine stageRoom_ports ?_ _ (by with_reducible assumption) | with_reducible apply State.raise_ports | with_reducible apply State.modRing_ports | with_reducible apply placeIn_ports | with_reducible apply serviceRing_ports | split | with_reducible apply pfst_mk | with_reducible refine ports_fst (by with_reducible assumption) ?_ | dsimp only)

theorem placeLast_ports {a2} {a3} {a4} {a5} {a6} {a7} {a8} {a9} {a10} (h : PortsKept v s) : PortsKept v (placeLast s a2 a3 a4 a5 a6 a7 a8 a9 a10) := by
  unfold placeLast
  repeat' (first | with_reducible assumption | intro _ | with_reducible apply ports_ite | with_reducible apply pfst_ite | with_reducible apply placeHeld_ports | with_reducible refine ports_of_fst (placeHeld_ports ?_) | with_reducible refine ports_fst (by with_reducible assumption) (placeHeld_ports ?_) | (fail_if_no_progress with_reducible (refine ports_mk rfl ?_)) | split | with_reducible apply pfst_mk | with_reducible refine ports_fst (by with_reducible assumption) ?_ | dsimp only)

theorem State.modMbx_ports {a2} {a3} (h : PortsKept v s) : PortsKept v (State.modMbx s a2 a3) :=
  ports_only (State.modMbx_only (w := 16) rfl only_refl) rfl h

theorem enterDone_ports {a2} {a3} (h : PortsKept v s) : PortsKept v (enterDone s a2 a3) := by
  unfold enterDone
  repeat' (first | with_reducible assumption | intro _ | with_reducible apply ports_ite | with_reducible apply State.modMbx_ports | with_reducible apply sendEvent_ports | dsimp only)

theorem State.modAvg_ports {a2} {a3} (h : PortsKept v s) : PortsKept v (State.modAvg s a2 a3) :=
  ports_only (State.modAvg_only (w := 1024) rfl only_refl) rfl h

theorem leaveWaiters_ports {a2} {a3} (h : PortsKept v s) : PortsKept v (leaveWaiters s a2 a3) :=
  ports_only (leaveWaiters_only (w := 2048) rfl only_refl) rfl h

theorem endWork_ports {a2} (h : PortsKept v s) : PortsKept v (endWork s a2) :=
  ports_only (endWork_only (w := 67616) rfl only_refl) rfl h

theorem endMeasRun_ports {a2} {a3} (h : PortsKept v s) : PortsKept v (endMeasRun s a2 a3) := by
  unfold endMeasRun
  repeat' (first | with_reducible assumption | intro _ | with_reducible apply ports_ite | with_reducible apply State.modAvg_ports | with_reducible apply leaveWaiters_ports | with_reducible apply returnCredit_ports | with_reducible apply endWork_ports | split | dsimp only)

theorem modMeasRun_ports {a2} {a3} (h : PortsKept v s) : PortsKept v (modMeasRun s a2 a3) :=
  ports_only (modMeasRun_only (w := 1024) rfl only_refl) rfl h

theorem State.modProg_ports {a2} {a3} (h : PortsKept v s) : PortsKept v (State.modProg s a2 a3) :=
  ports_only (State.modProg_only (w := 32) rfl only_refl) rfl h

theorem endMeasWindow_ports {a2} {a3} (h : PortsKept v s) : PortsKept v (endMeasWindow s a2 a3) := by
  unfold endMeasWindow
  repeat' (first | with_reducible assumption | intro _ | with_reducible apply ports_ite | with_reducible apply pfst_ite | with_reducible apply modMeasRun_ports | with_reducible apply placeLast_ports | with_reducible apply placeHeld_ports | with_reducible refine ports_of_fst (placeHeld_ports ?_) | with_reducible refine ports_fst (by with_reducible assumption) (placeHeld_ports ?_) | with_reducible apply State.modProg_ports | with_reducible apply endMeasRun_ports | split | with_reducible apply pfst_mk | with_reducible refine ports_fst (by with_reducible assumption) ?_ | dsimp only)

theorem askCredit_ports {a2} {a3} {a4} (h : PortsKept v s) : PortsFst v (askCredit s a2 a3 a4) :=
  ports_only (only_of_fst (askCredit_only (w := 2048) rfl only_refl)) rfl h

theorem askUnits_ports {a2} (h : PortsKept v s) : PortsKept v (askUnits s a2) := by
  unfold askUnits
  repeat' (first | with_reducible assumption | intro _ | with_reducible apply ports_ite | with_reducible apply pfst_ite | with_reducible apply modMeasRun_ports | with_reducible apply returnCredit_ports | with_reducible apply askCredit_ports | with_reducible refine ports_of_fst (askCredit_ports ?_) | with_reducible refine ports_fst (by with_reducible assumption) (askCredit_ports ?_) | split | with_reducible apply pfst_mk | with_reducible refine ports_fst (by with_reducible assumption) ?_ | dsimp only)

theorem askWindow_ports {a2} {a3} (h : PortsKept v s) : PortsFst v (askWindow s a2 a3) := by
  unfold askWindow
  repeat' (first | with_reducible assumption | intro _ | with_reducible apply ports_ite | with_reducible apply ports_foldl | with_reducible apply pfst_ite | with_reducible apply pfst_foldl | with_reducible apply pfoldl_fst | with_reducible apply askUnits_ports | with_reducible apply pfst_mk | dsimp only)

theorem feedAverage_ports {a2} {a3} (h : PortsKept v s) : PortsKept v (feedAverage s a2 a3) := by
  unfold feedAverage
  repeat' (first | with_reducible assumption | intro _ | with_reducible apply ports_ite | with_reducible apply pfst_ite | with_reducible apply endMeasWindow_ports | with_reducible apply modMeasRun_ports | with_reducible apply endMeasRun_ports | with_reducible apply askWindow_ports | with_reducible refine ports_of_fst (askWindow_ports ?_) | with_reducible refine ports_fst (by with_reducible assumption) (askWindow_ports ?_) | split | with_reducible apply pfst_mk | with_reducible refine ports_fst (by with_reducible assumption) ?_ | dsimp only)

theorem closeRaw_ports {a2} {a3} (h : PortsKept v s) : PortsKept v (closeRaw s a2 a3) := by
  unfold closeRaw
  repeat' (first | with_reducible assumption | intro _ | with_reducible apply ports_ite | with_reducible apply pfst_ite | with_reducible apply modMeasRun_ports | with_reducible apply placeHeld_ports | with_reducible refine ports_of_fst (placeHeld_ports ?_) | with_reducible refine ports_fst (by with_reducible assumption) (placeHeld_ports ?_) | with_reducible apply State.modProg_ports | with_reducible apply endMeasRun_ports | with_reducible apply returnCredit_ports | with_reducible apply dropRecord_ports | split | with_reducible apply pfst_mk | with_reducible refine ports_fst (by with_reducible assumption) ?_ | dsimp only)

theorem reserve_ports {a2} {a3} (h : PortsKept v s) : ∀ t, reserve s a2 a3 = some t → PortsKept v t :=
  fun t e => ports_only (reserve_only (w := 2048) rfl only_refl t e) rfl h

theorem feedRawChannel_ports {a2} {a3} {a4} (h : PortsKept v s) : PortsKept v (feedRawChannel s a2 a3 a4) := by
  unfold feedRawChannel
  repeat' (first | with_reducible assumption | intro _ | with_reducible apply ports_ite | with_reducible apply pfst_ite | with_reducible apply closeRaw_ports | with_reducible apply modMeasRun_ports | with_reducible refine reserve_ports ?_ _ (by with_reducible assumption) | with_reducible apply dropRecord_ports | split | with_reducible apply pfst_mk | with_reducible refine ports_fst (by with_reducible assumption) ?_ | dsimp only)

theorem feedRaw_ports {a2} {a3} {a4} (h : PortsKept v s) : PortsKept v (feedRaw s a2 a3 a4) := by
  unfold feedRaw
  repeat' (first | with_reducible assumption | intro _ | with_reducible apply ports_ite | with_reducible apply modMeasRun_ports | with_reducible apply feedRawChannel_ports | dsimp only)

theorem feedMeas_ports {a2} {a3} (h : PortsKept v s) : PortsKept v (feedMeas s a2 a3) := by
  unfold feedMeas
  repeat' (first | with_reducible assumption | intro _ | with_reducible apply ports_ite | with_reducible apply feedRaw_ports | with_reducible apply feedAverage_ports | split | dsimp only)

theorem endLockRun_ports {a2} {a3} {a4} (h : PortsKept v s) : PortsKept v (endLockRun s a2 a3 a4) := by
  unfold endLockRun
  repeat' (first | with_reducible assumption | intro _ | with_reducible apply ports_ite | with_reducible apply State.modAvg_ports | with_reducible apply leaveWaiters_ports | with_reducible apply returnCredit_ports | with_reducible apply endWork_ports | split | dsimp only)

theorem putLast_ports {a2} {a3} {a4} {a5} {a6} (h : PortsKept v s) : PortsKept v (putLast s a2 a3 a4 a5 a6) := by
  unfold putLast
  repeat' (first | with_reducible assumption | intro _ | with_reducible apply ports_ite | with_reducible apply placeLast_ports | split | with_reducible apply pfst_mk | with_reducible refine ports_fst (by with_reducible assumption) ?_ | dsimp only)

theorem modLockRun_ports {a2} {a3} (h : PortsKept v s) : PortsKept v (modLockRun s a2 a3) :=
  ports_only (modLockRun_only (w := 1024) rfl only_refl) rfl h

theorem endLockWindow_ports {a2} (h : PortsKept v s) : PortsKept v (endLockWindow s a2) := by
  unfold endLockWindow
  repeat' (first | with_reducible assumption | intro _ | with_reducible apply ports_ite | with_reducible apply pfst_ite | with_reducible apply placeHeld_ports | with_reducible refine ports_of_fst (placeHeld_ports ?_) | with_reducible refine ports_fst (by with_reducible assumption) (placeHeld_ports ?_) | with_reducible apply modLockRun_ports | with_reducible apply State.modProg_ports | with_reducible apply endLockRun_ports | split | with_reducible apply pfst_mk | with_reducible refine ports_fst (by with_reducible assumption) ?_ | dsimp only)

theorem cutLock_ports {a2} {a3} (h : PortsKept v s) : PortsKept v (cutLock s a2 a3) := by
  unfold cutLock
  repeat' (first | with_reducible assumption | intro _ | with_reducible apply endLockWindow_ports | with_reducible apply modLockRun_ports | with_reducible apply putLast_ports | with_reducible apply endLockRun_ports | split | dsimp only)

theorem endRefs_ports {a2} {a3} (h : PortsKept v s) : PortsKept v (endRefs s a2 a3) := by
  unfold endRefs
  repeat' (first | with_reducible assumption | intro _ | with_reducible apply ports_foldl | with_reducible apply pfst_foldl | with_reducible apply pfoldl_fst | with_reducible apply cutLock_ports | dsimp only)

theorem startLockWindow_ports {a2} {a3} {a4} {a5} (h : PortsKept v s) : PortsKept v (startLockWindow s a2 a3 a4 a5) :=
  ports_only (startLockWindow_only (w := 3072) rfl only_refl) rfl h

theorem closeLock_ports {a2} {a3} (h : PortsKept v s) : PortsKept v (closeLock s a2 a3) :=
  ports_only (closeLock_only (w := 1024) rfl only_refl) rfl h

theorem feedLock_ports {a2} {a3} (h : PortsKept v s) : PortsKept v (feedLock s a2 a3) := by
  unfold feedLock
  repeat' (first | with_reducible assumption | intro _ | with_reducible apply ports_ite | with_reducible apply endLockWindow_ports | with_reducible apply modLockRun_ports | with_reducible apply startLockWindow_ports | with_reducible apply closeLock_ports | split | with_reducible apply pfst_mk | with_reducible refine ports_fst (by with_reducible assumption) ?_ | dsimp only)

theorem feedLoop_ports {a2} {a3} (h : PortsKept v s) : PortsKept v (feedLoop s a2 a3) := by
  unfold feedLoop
  repeat' (first | with_reducible assumption | intro _ | with_reducible apply ports_ite | with_reducible apply feedLock_ports | with_reducible apply feedMeas_ports | with_reducible apply State.modAvg_ports | split | dsimp only)

theorem State.modLoop_ports {a2} {a3} (h : PortsKept v s) : PortsKept v (State.modLoop s a2 a3) :=
  ports_only (State.modLoop_only (w := 512) rfl only_refl) rfl h

theorem endLoopRun_ports {a2} {a3} {a4} {a5} (h : PortsKept v s) : PortsKept v (endLoopRun s a2 a3 a4 a5) := by
  unfold endLoopRun
  repeat' (first | with_reducible assumption | intro _ | with_reducible apply ports_ite | with_reducible apply returnCredit_ports | with_reducible apply State.modAvg_ports | with_reducible apply endRefs_ports | with_reducible apply State.modLoop_ports | with_reducible apply endWork_ports | split | dsimp only)

theorem sweepRecord_ports {a2} {a3} {a4} (h : PortsKept v s) : PortsFst v (sweepRecord s a2 a3 a4) := by
  unfold sweepRecord
  repeat' (first | with_reducible assumption | intro _ | with_reducible apply ports_ite | with_reducible apply ports_foldl | with_reducible apply pfst_ite | with_reducible apply pfst_foldl | with_reducible apply pfoldl_fst | with_reducible apply placeHeld_ports | with_reducible refine ports_of_fst (placeHeld_ports ?_) | with_reducible refine ports_fst (by with_reducible assumption) (placeHeld_ports ?_) | split | with_reducible apply pfst_mk | with_reducible refine ports_fst (by with_reducible assumption) ?_ | dsimp only)

theorem sweepClose_ports {a2} {a3} (h : PortsKept v s) : PortsKept v (sweepClose s a2 a3) := by
  unfold sweepClose
  repeat' (first | with_reducible assumption | intro _ | with_reducible apply ports_ite | with_reducible apply pfst_ite | with_reducible apply sweepRecord_ports | with_reducible refine ports_of_fst (sweepRecord_ports ?_) | with_reducible refine ports_fst (by with_reducible assumption) (sweepRecord_ports ?_) | with_reducible apply State.modAvg_ports | with_reducible apply endLoopRun_ports | split | with_reducible apply pfst_mk | with_reducible refine ports_fst (by with_reducible assumption) ?_ | dsimp only)

theorem deliver_ports {a2} {a3} {a4} (h : PortsKept v s) : PortsKept v (deliver s a2 a3 a4) := by
  unfold deliver
  repeat' (first | with_reducible assumption | intro _ | with_reducible apply State.modLoop_ports | with_reducible apply sweepClose_ports | with_reducible apply feedLoop_ports | dsimp only)

theorem recordHandoff_ports {a2} {a3} (h : PortsKept v s) : PortsKept v (recordHandoff s a2 a3) :=
  ports_only (recordHandoff_only (w := 68096) rfl only_refl) rfl h

theorem tripLive_ports {a2} (h : PortsKept v s) : PortsKept v (tripLive s a2) :=
  ports_only (tripLive_only (w := 65536) rfl only_refl) rfl h

theorem loopEvent_ports {a2} {a3} {a4} {a5} (h : PortsKept v s) : PortsKept v (loopEvent s a2 a3 a4 a5) :=
  ports_only (loopEvent_only (w := 67584) rfl only_refl) rfl h

theorem digitalSample_ports {a2} {a3} {a4} (h : PortsKept v s) : PortsKept v (digitalSample s a2 a3 a4) := by
  unfold digitalSample
  repeat' (first | with_reducible assumption | intro _ | with_reducible apply ports_ite | with_reducible apply deliver_ports | with_reducible apply recordHandoff_ports | with_reducible apply tripLive_ports | with_reducible apply loopEvent_ports | with_reducible apply State.modLoop_ports | split | with_reducible apply pfst_mk | with_reducible refine ports_fst (by with_reducible assumption) ?_ | dsimp only)

theorem State.modStage_ports {a2} {a3} (h : PortsKept v s) : PortsKept v (State.modStage s a2 a3) :=
  ports_only (State.modStage_only (w := 8192) rfl only_refl) rfl h

theorem emitRecord_ports {a2} {a3} {a4} {a5} {a6} {a7} {a8} {a9} {a10} (h : PortsKept v s) : PortsFst v (emitRecord s a2 a3 a4 a5 a6 a7 a8 a9 a10) :=
  ports_only (only_of_fst (emitRecord_only (w := 67584) rfl only_refl)) rfl h

theorem sendTelemetry_ports {a2} (h : PortsKept v s) : PortsKept v (sendTelemetry s a2) := by
  unfold sendTelemetry
  repeat' (first | with_reducible assumption | intro _ | with_reducible apply ports_ite | with_reducible apply pfst_ite | with_reducible apply State.modStage_ports | with_reducible apply emitRecord_ports | with_reducible refine ports_of_fst (emitRecord_ports ?_) | with_reducible refine ports_fst (by with_reducible assumption) (emitRecord_ports ?_) | with_reducible apply placeReserved_ports | with_reducible refine ports_of_fst (placeReserved_ports ?_) | with_reducible refine ports_fst (by with_reducible assumption) (placeReserved_ports ?_) | with_reducible apply State.raise_ports | split | with_reducible apply pfst_mk | with_reducible refine ports_fst (by with_reducible assumption) ?_ | dsimp only)

theorem chargeReading_ports {a2} {a3} (h : PortsKept v s) : PortsKept v (chargeReading s a2 a3) :=
  ports_only (chargeReading_only (w := 16384) rfl only_refl) rfl h

theorem useReply_ports {a2} {a3} {a4} {a5} (h : PortsKept v s) : PortsKept v (useReply s a2 a3 a4 a5) := by
  unfold useReply
  repeat' (first | with_reducible assumption | intro _ | with_reducible apply ports_ite | with_reducible apply ports_foldl | with_reducible apply State.modStage_ports | with_reducible apply sendTelemetry_ports | with_reducible apply digitalSample_ports | with_reducible apply chargeReading_ports | dsimp only)

theorem useDelayed_ports {a2} {a3} (h : PortsKept v s) : PortsKept v (useDelayed s a2 a3) := by
  unfold useDelayed
  repeat' (first | with_reducible assumption | intro _ | with_reducible apply useReply_ports | split | dsimp only)

theorem flushReplies_ports {a2} (h : PortsKept v s) : PortsKept v (flushReplies s a2) := by
  unfold flushReplies
  repeat' (first | with_reducible assumption | intro _ | with_reducible apply ports_foldl | with_reducible apply useDelayed_ports | with_reducible apply State.modStage_ports | dsimp only)

theorem releaseDelay_ports {a2} (h : PortsKept v s) : PortsKept v (releaseDelay s a2) := by
  unfold releaseDelay
  repeat' (first | with_reducible assumption | intro _ | with_reducible apply ports_ite | with_reducible apply enterDone_ports)

theorem endWindow_ports {a2} (h : PortsKept v s) : PortsKept v (endWindow s a2) := by
  have hpert : PortsKept v (s.modPert a2 (fun x => { x with active := false })) := ports_mk rfl h
  unfold endWindow
  refine ports_ite (fun _ => h) fun _ => ports_ite (fun _ => hpert) fun _ => ports_ite (fun _ => serviceRing_ports hpert) fun _ => ports_ite (fun _ => ?_) fun _ =>
    ports_ite (fun _ => flushReplies_ports hpert) fun _ => hpert
  exact ports_ite (fun _ => hpert) fun _ => modPort_ports (fun _ => rfl) (State.modCls_ports hpert)

theorem anyReset_ports : PortsKept s (anyReset s) := by
  unfold anyReset disarm
  dsimp only
  generalize List.range 16 = entries
  generalize List.range 8 = boxes
  have hwindows : PortsKept s (entries.foldl endWindow { s with bus := { s.bus with halfHost := none, halfShed := none } }) :=
    ports_foldl (ports_mk rfl ports_refl) fun _ _ h => endWindow_ports h
  have hdelays : PortsKept s (boxes.foldl releaseDelay (entries.foldl endWindow { s with bus := { s.bus with halfHost := none, halfShed := none } })) :=
    ports_foldl hwindows fun _ _ h => releaseDelay_ports h
  exact ports_mk rfl hdelays

end Sys2Proof.Machine

end

section
/-! PROOFS of O44: training, PORT_CHANGE, and the link-port reset. -/

set_option Elab.async false
set_option linter.unusedVariables false

namespace Sys2Proof.Machine

variable (s : State)

theorem portNum_lt (p : Port) : portNum p < 2 := by
  cases p <;> decide

theorem other_ne {n : Nat} (h : n < 2) : 1 - n ≠ n := by omega

theorem modCls_class (p c : Nat) (f : ClassState → ClassState) (p' c' : Nat) :
    (s.modCls p c f).cls p' c' = if p' = p ∧ c' = c then f (s.cls p c) else s.cls p' c' := by
  by_cases hp : p' = p
  · rw [hp, modCls_cls]
    by_cases hc : c' = c
    · rw [if_pos hc, if_pos ⟨rfl, hc⟩]
    · rw [if_neg hc, if_neg fun h => hc h.2]
  · rw [if_neg fun h => hp h.1]
    unfold State.cls State.modCls
    rw [State.modPort_port, if_neg hp]

/-! PORT_CHANGE (R413). -/

/-- The PORT_CHANGE message of the port. -/
def portMessage (n : Nat) : List Byte :=
  msgBytes 0x0D 0x7E s.link.addr 0 s.link.mtag.toNat (toBytes 2 3 ++ toBytes 2 (n + 2 * (s.port n).width)) (toBytes 8 s.now)

theorem portMessage_fields (n : Nat) : msgNum (portMessage s n) 0 1 = 0x0D ∧ msgNum (portMessage s n) 8 2 = 3 ∧
    msgNum (portMessage s n) 10 2 = (n + 2 * (s.port n).width) % 65536 :=
  ⟨ofBytes_one _, ofBytes_pair 3, ofBytes_pair _⟩

theorem portChanged_queues (n : Nat) : portChanged s n = { s.modCls 0 1 (fun q => { q with queue := q.queue ++ [(false, portMessage s n)] }) with
    link := { (s.modCls 0 1 (fun q => { q with queue := q.queue ++ [(false, portMessage s n)] })).link with mtag := s.link.mtag + 1 } } := by
  have h := enqueueFrom_room s false (p := 0) (c := 1) (portMessage s n) rfl
  unfold portChanged sendEvent sendRoot enqueue
  exact congrArg (fun v : State => { v with link := { v.link with mtag := v.link.mtag + 1 } }) h

/-- What a PORT_CHANGE leaves: the ports but the queue of the root-side CONTROL class. -/
theorem portChanged_cls (n p c : Nat) : (portChanged s n).cls p c = { s.cls p c with queue := (s.cls p c).queue ++ if p = 0 ∧ c = 1 then [(false, portMessage s n)] else [] } := by
  rw [portChanged_queues]
  refine (modCls_class s 0 1 _ p c).trans ?_
  split
  next h => obtain ⟨rfl, rfl⟩ := h; rfl
  next => rw [List.append_nil]

theorem portChanged_port (n p : Nat) : (portChanged s n).port p = { s.port p with cls := ((portChanged s n).port p).cls } ∧
    (p ≠ 0 → (portChanged s n).port p = s.port p) := by
  obtain ⟨f, hf, hport⟩ : ∃ f : LinkPort → LinkPort, (∀ q, f q = { q with cls := (f q).cls }) ∧ (portChanged s n).port p = if p = 0 then f (s.port 0) else s.port p :=
    ⟨fun q => { q with cls := tmod (fun _ => {}) q.cls 1 (fun q => { q with queue := q.queue ++ [(false, portMessage s n)] }) }, fun _ => rfl,
      by
        rw [portChanged_queues]
        exact State.modPort_port s 0 p (fun q => { q with cls := tmod (fun _ => {}) q.cls 1 (fun q => { q with queue := q.queue ++ [(false, portMessage s n)] }) })⟩
  rw [hport]
  by_cases hp : p = 0
  · subst hp
    rw [if_pos rfl]
    exact ⟨hf _, fun h => absurd rfl h⟩
  · rw [if_neg hp]
    exact ⟨rfl, fun _ => rfl⟩

theorem portChanged_parts (n : Nat) : portChanged s n = { s with link := { s.link with port := (portChanged s n).link.port, mtag := s.link.mtag + 1 } } := by
  rw [portChanged_queues]
  rfl

/-! The training steps (R400, R401). -/

theorem maskOf_bits (f : Nat → Bool) {n : Nat} (hn : n < 16) (h : ∀ i, i < 4 → (n.testBit i = true ↔ f i = true)) : maskOf ((List.range 4).filter f) = n := by
  have hf : ∀ i, i < 4 → f i = n.testBit i := fun i hi => Bool.eq_iff_iff.2 (h i hi).symm
  have hlist : (List.range 4).filter f = (List.range 4).filter (fun i => n.testBit i) := List.filter_congr fun i hi => hf i (List.mem_range.1 hi)
  have hall : ∀ n : Fin 16, maskOf ((List.range 4).filter (fun i => n.val.testBit i)) = n.val := by decide
  rw [hlist]
  exact hall ⟨n, hn⟩

theorem chooseLanes_table : ∀ n : Fin 16, chooseLanes n.val = (if n.val = 15 then 15 else if n.val % 4 = 3 then 3 else if n.val / 4 = 3 then 12 else if n.val % 2 = 1 then 1
      else if n.val % 4 = 2 then 2 else if n.val % 8 = 4 then 4 else if n.val = 8 then 8 else 0) ∧
    (chooseLanes n.val = 15 → laneCount (chooseLanes n.val) = 4) ∧ (laneCount (chooseLanes n.val) ≤ 4) ∧ laneCount (chooseLanes n.val) ≠ 3 ∧
    (n.val ≠ 0 → chooseLanes n.val ≠ 0) ∧ chooseLanes 0 = 0 := by
  decide

/-- The lanes good at both ends. -/
def goodLanes (eyes : List (Nat × Nat)) (partner : BitVec 4) : Nat :=
  maskOf ((List.range 4).filter (fun i => eyeGood (eyes.getD i (0, 0)) && partner.getLsbD i))

theorem goodLanes_of {eyes : List (Nat × Nat)} {partner : BitVec 4} {n : Nat} (hn : n < 16)
    (h : ∀ i, i < 4 → (n.testBit i = true ↔ 350 ≤ (eyes.getD i (0, 0)).1 ∧ 30 ≤ (eyes.getD i (0, 0)).2 ∧ partner.getLsbD i = true)) : goodLanes eyes partner = n := by
  refine maskOf_bits _ hn fun i hi => (h i hi).trans ?_
  unfold eyeGood
  simp only [Bool.and_eq_true, decide_eq_true_eq, and_assoc]

theorem otherPort_kept {p : Port} (f : LinkPort → LinkPort) : (s.modPort (portNum p) f).port (1 - portNum p) = s.port (1 - portNum p) :=
  (State.modPort_port ..).trans (if_neg (other_ne (portNum_lt p)))

theorem samePort (n : Nat) (f : LinkPort → LinkPort) : (s.modPort n f).port n = f (s.port n) := (State.modPort_port ..).trans (if_pos rfl)

theorem equalise_width (p : Port) (eyes : List (Nat × Nat)) (partner : BitVec 4) (n : Nat) (h : (s.port (portNum p)).step = .equalise)
    (hbits : ∀ i, i < 4 → (n.testBit i = true ↔ 350 ≤ (eyes.getD i (0, 0)).1 ∧ 30 ≤ (eyes.getD i (0, 0)).2 ∧ partner.getLsbD i = true)) (hn : n < 16) (hsome : n ≠ 0) :
    ∃ t, exec (.laneEqualiseDone p eyes partner) s = .next t ∧ t.port (portNum p) = { s.port (portNum p) with step := .measure, eyes := eyes, lanes := BitVec.ofNat 4 (chooseLanes n), width := laneCount (chooseLanes n) } ∧
      t.port (1 - portNum p) = s.port (1 - portNum p) ∧ t = { s with link := { s.link with port := t.link.port } } := by
  obtain ⟨-, -, -, -, hchosen, -⟩ := chooseLanes_table ⟨n, hn⟩
  have hexec : exec (.laneEqualiseDone p eyes partner) s = .next ((s.modPort (portNum p) (fun q => { q with eyes := eyes })).modPort (portNum p)
      (fun q => { q with step := .measure, lanes := BitVec.ofNat 4 (chooseLanes n), width := laneCount (chooseLanes n) })) := by
    refine congrArg Host.Outcome.next ((if_pos h).trans ?_)
    dsimp only
    have hgood : maskOf ((List.range 4).filter (fun i => eyeGood (eyes.getD i (0, 0)) && partner.getLsbD i)) = n := goodLanes_of hn hbits
    rw [hgood, if_neg (hchosen hsome)]
  refine ⟨_, hexec, ?_, ?_, rfl⟩
  · rw [samePort, samePort]
  · rw [otherPort_kept, otherPort_kept]

theorem equalise_fails (p : Port) (eyes : List (Nat × Nat)) (partner : BitVec 4) (h : (s.port (portNum p)).step = .equalise)
    (hnone : ∀ i, i < 4 → ¬ (350 ≤ (eyes.getD i (0, 0)).1 ∧ 30 ≤ (eyes.getD i (0, 0)).2 ∧ partner.getLsbD i = true)) :
    ∃ t, exec (.laneEqualiseDone p eyes partner) s = .next t ∧ t.port (portNum p) = { s.port (portNum p) with step := .detect, eyes := eyes, signal := 0, lanes := 0, width := 0, retry := some (s.clk.time + 64000000) } ∧
      t.port (1 - portNum p) = s.port (1 - portNum p) ∧ t = { s with link := { s.link with port := t.link.port } } := by
  have hzero : goodLanes eyes partner = 0 := goodLanes_of (by omega) fun i hi => ⟨fun h => (by simp at h), fun h => absurd h (hnone i hi)⟩
  have hexec : exec (.laneEqualiseDone p eyes partner) s = .next (failStep (s.modPort (portNum p) (fun q => { q with eyes := eyes })) (portNum p)) := by
    refine congrArg Host.Outcome.next ((if_pos h).trans ?_)
    dsimp only
    change (if chooseLanes (goodLanes eyes partner) = 0 then _ else (_ : State)) = _
    rw [hzero]
    exact if_pos (by decide)
  refine ⟨_, hexec, ?_, ?_, rfl⟩
  · unfold failStep
    rw [samePort, samePort]
    rfl
  · unfold failStep
    rw [otherPort_kept, otherPort_kept]

theorem trainingRetry_fails (p : Port) (h : (s.port (portNum p)).step = .lock ∨ (s.port (portNum p)).step = .equalise ∨ (s.port (portNum p)).step = .measure) :
    ∃ t, exec (.trainingRetry p) s = .next t ∧
      t.port (portNum p) = { s.port (portNum p) with step := .detect, signal := 0, width := 0, lanes := 0, retry := none } ∧
      t.port (1 - portNum p) = s.port (1 - portNum p) ∧
      t = { s with clk := { s.clk with time := s.clk.time + 64000000 }, link := { s.link with port := t.link.port } } := by
  have hexec : exec (.trainingRetry p) s = .next (((failStep s (portNum p)).reach (s.clk.time + 64000000)).modPort (portNum p) (fun q => { q with retry := none })) := by
    refine congrArg Host.Outcome.next ?_
    dsimp only
    rw [if_pos h]
    have hretry : ((failStep s (portNum p)).port (portNum p)).retry = some (s.clk.time + 64000000) := by
      unfold failStep
      rw [samePort]
      rfl
    rw [hretry]
  have hmax : max s.clk.time (s.clk.time + 64000000) = s.clk.time + 64000000 := by omega
  refine ⟨_, hexec, ?_, ?_, ?_⟩
  · rw [samePort]
    refine (congrArg (fun q : LinkPort => { q with retry := none }) (samePort s (portNum p) _)).trans ?_
    rfl
  · rw [otherPort_kept]
    exact otherPort_kept s _
  · refine Eq.trans ?_ (congrArg (fun n => ({ s with clk := { s.clk with time := n }, link := { s.link with port := _ } } : State)) hmax)
    rfl

theorem notFailing {q : LinkPort} (h : q.step = .off ∨ q.step = .detect ∨ q.step = .active) : ¬(q.step = .lock ∨ q.step = .equalise ∨ q.step = .measure) := by
  rcases h with h | h | h <;> simp [h]

theorem trainingRetry_due (p : Port) (r : Nat) (h : (s.port (portNum p)).step = .off ∨ (s.port (portNum p)).step = .detect ∨ (s.port (portNum p)).step = .active)
    (hr : (s.port (portNum p)).retry = some r) :
    ∃ t, exec (.trainingRetry p) s = .next t ∧ t.port (portNum p) = { s.port (portNum p) with retry := none } ∧
      t.port (1 - portNum p) = s.port (1 - portNum p) ∧
      t = { s with clk := { s.clk with time := max s.clk.time r }, link := { s.link with port := t.link.port } } := by
  have hexec : exec (.trainingRetry p) s = .next ((s.reach r).modPort (portNum p) (fun q => { q with retry := none })) := by
    refine congrArg Host.Outcome.next ?_
    dsimp only
    rw [if_neg (notFailing h), hr]
  exact ⟨_, hexec, samePort .., otherPort_kept .., rfl⟩

theorem trainingRetry_none (p : Port) (h : (s.port (portNum p)).step = .off ∨ (s.port (portNum p)).step = .detect ∨ (s.port (portNum p)).step = .active)
    (hr : (s.port (portNum p)).retry = none) : exec (.trainingRetry p) s = .next s := by
  refine congrArg Host.Outcome.next ?_
  dsimp only
  rw [if_neg (notFailing h), hr]

/-! An ACTIVE port (R400, R401). -/

theorem freshClasses_cls (t : Tab ClassState) (c : Nat) : tget (fun _ => ({} : ClassState)) (freshClasses t) c = { queue := (tget (fun _ => ({} : ClassState)) t c).queue } :=
  tget_tmapAll_of (fun _ => ({} : ClassState)) t (fun _ x => { queue := x.queue }) c rfl

/-- The port that has become ACTIVE. -/
def activePort (now : Nat) (q : LinkPort) : LinkPort :=
  { q with step := .active, wasActive := true, resetReq := false, retrain := false, slot := 4 * now, cls := freshClasses q.cls }

theorem live_eq (k src : Nat) (on : Bool) (j : Nat) (h : j ≠ k) : (s.live k src on).fblk j = s.fblk j := (live_fblk ..).trans (if_neg h)

/-- A bit of LIVE that another source's change leaves. -/
theorem live_bit (k : Nat) {src src' : Nat} (on : Bool) (hsrc : src < 64) (hsrc' : src' < 64) (h : src' ≠ src) :
    ((s.live k src on).fblk k).live.getLsbD src' = (s.fblk k).live.getLsbD src' := by
  have hbit : (BitVec.ofNat 64 (2 ^ src)).getLsbD src' = false := by
    rw [BitVec.getLsbD_ofNat, Nat.testBit_two_pow]
    simp only [Bool.and_eq_false_imp, decide_eq_false_iff_not]
    exact fun _ => h.symm
  rw [live_fblk, if_pos rfl]
  cases on
  · rw [if_neg Bool.false_ne_true, BitVec.getLsbD_and, BitVec.getLsbD_not, hbit, decide_eq_true hsrc']
    simp
  · rw [if_pos rfl, BitVec.getLsbD_or, hbit, Bool.or_false]

theorem exists_raise (k src d0 d1 : Nat) : ∃ x ∈ (s.raise k src d0 d1).flt.waiting, x.block = k ∧ x.source = src :=
  ⟨{ block := k, source := src, d0 := w16 d0, d1 := w16 d1, forced := false, stamp := f3 s.clk.time },
    by rw [raise_waiting]; exact List.mem_append_right _ (List.mem_singleton.2 rfl), rfl, rfl⟩

theorem condition_on {k src : Nat} {d0 d1 : Nat} (hsrc : src < 64) (h : srcEvent k src = false) :
    ((s.condition k src true d0 d1).fblk k).live.getLsbD src = true ∧
      ((s.fblk k).live.getLsbD src = false → ∃ x ∈ (s.condition k src true d0 d1).flt.waiting, x.block = k ∧ x.source = src) := by
  unfold State.condition
  rw [if_pos rfl]
  split
  next hlive => exact ⟨hlive, fun hnot => (nomatch hlive.symm.trans hnot)⟩
  next =>
    exact ⟨raise_live s d0 d1 hsrc h, fun _ => exists_raise s k src d0 d1⟩

theorem condition_others (k src : Nat) (on : Bool) (d0 d1 : Nat) (j : Nat) (h : j ≠ k) : (s.condition k src on d0 d1).fblk j = s.fblk j := by
  unfold State.condition
  split
  · split
    · rfl
    · unfold State.raise
      dsimp only
      split
      · rfl
      · exact live_eq s k src true j h
  · exact live_eq s k src false j h

theorem condition_bit (k : Nat) {src src' : Nat} (on : Bool) (d0 d1 : Nat) (hsrc : src < 64) (hsrc' : src' < 64) (h : src' ≠ src) :
    ((s.condition k src on d0 d1).fblk k).live.getLsbD src' = (s.fblk k).live.getLsbD src' := by
  unfold State.condition
  split
  · split
    · rfl
    · unfold State.raise
      dsimp only
      split
      · rfl
      · exact live_bit s k true hsrc hsrc' h
  · exact live_bit s k false hsrc hsrc' h

/-- Sources 0 and 1 of a port are conditions, source 5 an event. -/
theorem portSources {n : Nat} (h : n < 2) : srcEvent (0x16 + n) 0 = false ∧ srcEvent (0x16 + n) 1 = false ∧ srcEvent (0x16 + n) 5 = true := by
  obtain rfl | rfl : n = 0 ∨ n = 1 := by omega
  · decide
  · decide

/-- The faults of a port that becomes ACTIVE with the width. -/
def activeFaults (n w : Nat) (v : State) : State := (v.live (portBlock n) 0 false).condition (portBlock n) 1 (decide (w < 4)) w

theorem activeFaults_spec {n : Nat} (hn : n < 2) (w : Nat) (v : State) :
    (w < 4 → ((activeFaults n w v).fblk (0x16 + n)).live.getLsbD 1 = true ∧
      ((v.fblk (0x16 + n)).live.getLsbD 1 = false → ∃ x ∈ (activeFaults n w v).flt.waiting, x.block = 0x16 + n ∧ x.source = 1)) ∧
    (4 ≤ w → ((activeFaults n w v).fblk (0x16 + n)).live.getLsbD 1 = false ∧ (activeFaults n w v).flt.waiting = v.flt.waiting) ∧
    ((activeFaults n w v).fblk (0x16 + n)).live.getLsbD 0 = false ∧ (∀ k, k ≠ 0x16 + n → (activeFaults n w v).fblk k = v.fblk k) ∧
    ∃ b x, activeFaults n w v = { v with flt := { v.flt with block := b, waiting := x } } := by
  obtain ⟨-, hevent, -⟩ := portSources hn
  refine ⟨fun hw => ?_, fun hw => ?_, ?_, fun k hk => ?_, ?_⟩
  · unfold activeFaults
    rw [decide_eq_true hw]
    obtain ⟨hlive, hwaits⟩ := condition_on (v.live (portBlock n) 0 false) (d0 := w) (d1 := 0) (by decide) hevent
    exact ⟨hlive, fun hnot => hwaits ((live_bit v _ false (by decide) (by decide) (by decide)).trans hnot)⟩
  · unfold activeFaults
    rw [decide_eq_false (Nat.not_lt.2 hw)]
    exact ⟨live_off _ _ (by decide), rfl⟩
  · exact (condition_bit _ _ _ _ _ (by decide) (by decide) (by decide)).trans (live_off _ _ (by decide))
  · exact (condition_others _ _ _ _ _ _ k hk).trans (live_eq v _ _ _ k hk)
  · obtain ⟨b, x, h⟩ := condition_parts (v.live (portBlock n) 0 false) (portBlock n) 1 w 0 (decide (w < 4))
    exact ⟨b, x, h⟩

/-- What an ACTIVE root-side port has measured, and the tip-side port that begins to train. -/
def rootActive (delay : Nat) (own : BitVec 7) (v : State) : State :=
  trainPort { v with link := { v.link with trainDelay := delay, delays := [], delayReq := none, neighbour := own.toNat } } 1

theorem trained_port (q : LinkPort) : (if q.step = .off then { q with step := .detect } else q) = { q with step := if q.step = .off then .detect else q.step } := by
  split
  · rfl
  · rfl

theorem delayMeasure_next (p : Port) (d : Nat) (own : BitVec 7) (h : (s.port (portNum p)).step = .measure) : exec (.delayMeasureDone p d own) s =
    .next (portChanged (activeFaults (portNum p) (s.port (portNum p)).width (if portNum p = 0 then rootActive d own (s.modPort (portNum p) (activePort s.clk.time))
      else s.modPort (portNum p) (activePort s.clk.time))) (portNum p)) :=
  congrArg Host.Outcome.next (if_pos h)

/-- The state in which a port that has become ACTIVE sends its PORT_CHANGE. -/
structure ActiveReady (s v : State) (n d : Nat) (own : BitVec 7) : Prop where
  port : v.port n = activePort s.clk.time (s.port n)
  other : v.port (1 - n) = if n = 0 then { s.port 1 with step := if (s.port 1).step = .off then .detect else (s.port 1).step } else s.port 0
  trellis : v.link = { s.link with port := v.link.port, trainDelay := if n = 0 then d else s.link.trainDelay, neighbour := if n = 0 then own.toNat else s.link.neighbour, delays := if n = 0 then [] else s.link.delays, delayReq := if n = 0 then none else s.link.delayReq }
  rest : v = { s with link := v.link }

theorem activeReady {n : Nat} (hn : n < 2) (d : Nat) (own : BitVec 7) : ActiveReady s (if n = 0 then rootActive d own (s.modPort n (activePort s.clk.time))
    else s.modPort n (activePort s.clk.time)) n d own := by
  obtain rfl | rfl : n = 0 ∨ n = 1 := by omega
  · rw [if_pos rfl]
    refine ⟨?_, ?_, ?_, rfl⟩
    · exact (State.modPort_port ..).trans ((if_neg (by decide)).trans (samePort s 0 (activePort s.clk.time)))
    · refine (samePort _ 1 _).trans ?_
      refine Eq.trans (trained_port _) ?_
      have hother : (s.modPort 0 (activePort s.clk.time)).port 1 = s.port 1 := (State.modPort_port ..).trans (if_neg (by decide))
      exact congrArg (fun q : LinkPort => ({ q with step := if q.step = .off then .detect else q.step } : LinkPort)) hother
    · rfl
  · rw [if_neg (by decide)]
    exact ⟨samePort .., (State.modPort_port ..).trans (if_neg (by decide)), rfl, rfl⟩

theorem delayMeasure_active (p : Port) (d : Nat) (own : BitVec 7) (h : (s.port (portNum p)).step = .measure) :
    ∃ t m, exec (.delayMeasureDone p d own) s = .next t ∧
      t.port (portNum p) = { s.port (portNum p) with step := .active, wasActive := true, resetReq := false, retrain := false, slot := 4 * s.clk.time, cls := (t.port (portNum p)).cls } ∧
      (∀ c, t.cls (portNum p) c = { queue := (s.cls (portNum p) c).queue ++ if portNum p = 0 ∧ c = 1 then [(false, m)] else [] }) ∧
      (portNum p = 1 → ∀ c, t.cls 0 c = { s.cls 0 c with queue := (s.cls 0 c).queue ++ if c = 1 then [(false, m)] else [] }) ∧
      msgNum m 0 1 = 0x0D ∧ msgNum m 8 2 = 3 ∧ msgNum m 10 2 = (portNum p + 2 * (s.port (portNum p)).width) % 65536 ∧
      (portNum p = 0 → t.link.trainDelay = d ∧ t.link.neighbour = own.toNat ∧ t.link.delays = [] ∧ t.link.delayReq = none ∧
        t.port 1 = { s.port 1 with step := if (s.port 1).step = .off then .detect else (s.port 1).step }) ∧
      (portNum p = 1 → t.link.trainDelay = s.link.trainDelay ∧ t.link.neighbour = s.link.neighbour ∧ t.link.delays = s.link.delays ∧
        t.link.delayReq = s.link.delayReq ∧ t.port 0 = { s.port 0 with cls := (t.port 0).cls }) ∧
      ((s.port (portNum p)).width < 4 → (t.fblk (0x16 + portNum p)).live.getLsbD 1 = true ∧
        ((s.fblk (0x16 + portNum p)).live.getLsbD 1 = false → ∃ x ∈ t.flt.waiting, x.block = 0x16 + portNum p ∧ x.source = 1)) ∧
      (4 ≤ (s.port (portNum p)).width → (t.fblk (0x16 + portNum p)).live.getLsbD 1 = false ∧ t.flt.waiting = s.flt.waiting) ∧
      (t.fblk (0x16 + portNum p)).live.getLsbD 0 = false ∧ (∀ k, k ≠ 0x16 + portNum p → t.fblk k = s.fblk k) ∧
      t = { s with link := { s.link with port := t.link.port, mtag := s.link.mtag + 1, trainDelay := t.link.trainDelay, neighbour := t.link.neighbour, delays := t.link.delays, delayReq := t.link.delayReq }, flt := { s.flt with block := t.flt.block, waiting := t.flt.waiting } } := by
  have hexec := delayMeasure_next s p d own h
  have hn := portNum_lt p
  generalize portNum p = n at hexec hn h ⊢
  obtain ⟨hport, hother, hlink, hrest⟩ := activeReady s hn d own
  generalize (if n = 0 then rootActive d own (s.modPort n (activePort s.clk.time)) else s.modPort n (activePort s.clk.time)) = v at hexec hport hother hlink hrest
  obtain ⟨hnarrow, hwide, hdown, hblocks, b, x, hfaults⟩ := activeFaults_spec hn (s.port n).width v
  have hflt : v.flt = s.flt := by rw [hrest]
  have hblk : ∀ k, v.fblk k = s.fblk k := fun k => by
    unfold State.fblk
    rw [hflt]
  rw [hflt] at hwide
  simp only [hblk] at hnarrow hblocks
  generalize hu : activeFaults n (s.port n).width v = u at hexec hnarrow hwide hdown hblocks hfaults
  have hulink : u.link = v.link := by rw [hfaults]
  have huport : ∀ k, u.port k = v.port k := fun k => by
    unfold State.port
    rw [hulink]
  have hcls : ∀ k c, u.cls k c = v.cls k c := fun k c => by
    unfold State.cls
    rw [huport]
  have hactive : ∀ c, v.cls n c = { queue := (s.cls n c).queue } := fun c => by
    unfold State.cls
    rw [hport]
    exact freshClasses_cls _ c
  have hparts := portChanged_parts u n
  have htflt : (portChanged u n).flt = u.flt := by rw [hparts]
  have htlink : (portChanged u n).link = { u.link with port := (portChanged u n).link.port, mtag := u.link.mtag + 1 } := congrArg State.link hparts
  obtain ⟨htype, hkind, hwidth⟩ := portMessage_fields u n
  rw [huport, hport] at hwidth
  refine ⟨_, portMessage u n, hexec, ?_, fun c => ?_, fun hone c => ?_, htype, hkind, hwidth, fun hzero => ?_, fun hone => ?_, ?_, ?_, ?_, ?_, ?_⟩
  · have h := (portChanged_port u n n).1
    rw [huport, hport] at h
    exact h
  · rw [portChanged_cls, hcls, hactive]
  · subst hone
    have hroot : v.cls 0 c = s.cls 0 c := congrArg (fun q : LinkPort => tget (fun _ => ({} : ClassState)) q.cls c) hother
    rw [portChanged_cls, hcls, hroot]
    simp
  · subst hzero
    refine ⟨?_, ?_, ?_, ?_, ?_⟩
    · rw [htlink, hulink, hlink]; rfl
    · rw [htlink, hulink, hlink]; rfl
    · rw [htlink, hulink, hlink]; rfl
    · rw [htlink, hulink, hlink]; rfl
    · rw [(portChanged_port u 0 1).2 (by decide), huport]
      exact hother
  · subst hone
    refine ⟨?_, ?_, ?_, ?_, ?_⟩
    · rw [htlink, hulink, hlink]; rfl
    · rw [htlink, hulink, hlink]; rfl
    · rw [htlink, hulink, hlink]; rfl
    · rw [htlink, hulink, hlink]; rfl
    · have h := (portChanged_port u 1 0).1
      have h0 : u.port 0 = s.port 0 := (huport 0).trans hother
      rw [h0] at h
      exact h
  · unfold State.fblk at hnarrow ⊢
    rw [htflt]
    exact hnarrow
  · unfold State.fblk at hwide ⊢
    rw [htflt]
    exact hwide
  · unfold State.fblk at hdown ⊢
    rw [htflt]
    exact hdown
  · unfold State.fblk at hblocks ⊢
    rw [htflt]
    exact hblocks
  · generalize portChanged u n = t at hparts
    rw [hparts, hfaults, hrest]
    rw [hlink]

/-! The link-port reset (R402). -/

/-- Flits of the messages in progress go back to the other port: only its credits and its queues' marks change. -/
structure Passed (s : State) (p : Nat) (t : State) : Prop where
  port : t.port p = s.port p
  rest : portRest (t.port (1 - p)) = portRest (s.port (1 - p))
  queues : ∀ c, (t.cls (1 - p) c).queue.map (fun e => e.2) = (s.cls (1 - p) c).queue.map (fun e => e.2)
  only : t = { s with link := { s.link with port := t.link.port } }

theorem passed_refl (p : Nat) : Passed s p s := ⟨rfl, rfl, fun _ => rfl, rfl⟩

variable {s} in
theorem passed_modPort {p : Nat} {t : State} (hp : p < 2) (h : Passed s p t) {f : LinkPort → LinkPort} (hrest : ∀ q, portRest (f q) = portRest q)
    (hcls : ∀ q c, (tget (fun _ => ({} : ClassState)) (f q).cls c).queue.map (fun e => e.2) = (tget (fun _ => ({} : ClassState)) q.cls c).queue.map (fun e => e.2)) :
    Passed s p (t.modPort (1 - p) f) := by
  obtain ⟨hport, hother, hqueues, honly⟩ := h
  refine ⟨?_, ?_, fun c => ?_, ?_⟩
  · exact ((State.modPort_port ..).trans (if_neg (other_ne hp).symm)).trans hport
  · rw [samePort, hrest]
    exact hother
  · unfold State.cls
    rw [samePort, hcls]
    exact hqueues c
  · rw [honly]
    rfl

variable {s} in
theorem passed_modCls {p : Nat} {t : State} (hp : p < 2) (h : Passed s p t) (c : Nat) {f : ClassState → ClassState}
    (hf : ∀ q, (f q).queue.map (fun e => e.2) = q.queue.map (fun e => e.2)) : Passed s p (t.modCls (1 - p) c f) := by
  refine passed_modPort hp h (fun q => rfl) fun q c' => ?_
  dsimp only
  rw [tget_tmod]
  split
  next heq => rw [hf, heq]
  next => rfl

variable {s} in
theorem passed_freeCredit {p : Nat} {t : State} (hp : p < 2) (h : Passed s p t) (c n : Nat) : Passed s p (freeCredit t (1 - p) c n) := by
  have hwaits : Passed s p (t.modPort (1 - p) (fun q => { q with ctrlWaits := true })) := passed_modPort hp h (fun q => rfl) fun q c' => rfl
  unfold freeCredit
  dsimp only
  split
  · exact passed_modCls hp hwaits c fun _ => rfl
  · exact passed_modCls hp hwaits c fun _ => rfl

/-- The flits of the classes given go back. -/
def passFlits (s : State) (p : Nat) (l : List Nat) : State :=
  l.foldl (fun s c =>
    let n := (s.cls p c).sending.length
    let s := if (s.cls p c).sendingFwd && decide (0 < n) then freeCredit s (1 - p) c n else s
    s.modCls (1 - p) c (fun q => { q with queue := q.queue.map (fun m => (false, m.2)), sendingFwd := false })) s

theorem passFlits_passed {p : Nat} (hp : p < 2) (l : List Nat) : Passed s p (passFlits s p l) := by
  suffices h : ∀ t, Passed s p t → Passed s p (passFlits t p l) from h s (passed_refl s p)
  induction l with
  | nil => exact fun t h => h
  | cons c l ih =>
    intro t h
    refine ih _ (passed_modCls hp ?_ c fun q => by simp)
    split
    · exact passed_freeCredit hp h c _
    · exact h

/-- The URGENT messages among the payloads are reported, and nothing else happens. -/
theorem lostUrgents_parts {p : Nat} (hp : p < 2) (l : List (List Byte)) : ∃ w, lostUrgents s p l = { s with flt := { s.flt with waiting := s.flt.waiting ++ w } } := by
  obtain ⟨-, -, hevent⟩ := portSources hp
  unfold lostUrgents
  induction l generalizing s with
  | nil => exact ⟨[], by rw [List.append_nil]; rfl⟩
  | cons b l ih =>
    rw [List.foldl_cons]
    split
    · rw [raise_event (k := portBlock p) hevent]
      obtain ⟨w, hw⟩ := ih { s with flt := { s.flt with waiting := s.flt.waiting ++
        [{ block := 0x16 + p, source := 5, d0 := w16 (ofBytes ((b.drop 12).take 2)), d1 := w16 0, forced := false, stamp := f3 s.clk.time }] } }
      exact ⟨_, hw.trans (by rw [List.append_assoc])⟩
    · exact ih s

/-- A port that a reset has taken. -/
def resetPort (q : LinkPort) : LinkPort :=
  { q with step := if q.step = .off then .off else .detect, width := 0, lanes := 0, retrains := satAdd 63 q.retrains 1, signal := 0, cls := freshClasses q.cls, resetReq := true, retrain := true, ctrlWaits := false, ctrlDue := false, retry := none, delayRsp := false, wire := [] }

/-- The reset of the port itself: what it held is gone, LIVE of its degraded sources falls. -/
def portDown (s : State) (p : Nat) : State :=
  let v := s.modPort p resetPort
  let v := if p = 0 then { v with link := { v.link with delays := [], delayReq := none } } else v
  (v.live (portBlock p) 4 false).live (portBlock p) 1 false

/-- The URGENT messages that class 0 of the port still held are lost. -/
def heldUrgents (s : State) (p : Nat) : State :=
  lostUrgents s p ((s.cls p 0).sending ++ (s.cls p 0).replay.map (fun e => (e.2.drop 2).take 26))

theorem linkReset_steps (p : Nat) : linkReset s p = if decide ((s.port p).step = .active) then
    portChanged ((portDown (heldUrgents (passFlits s p [0, 1, 2, 3]) p) p).raise (portBlock p) 0) p else portDown (heldUrgents (passFlits s p [0, 1, 2, 3]) p) p := by
  unfold linkReset
  generalize [0, 1, 2, 3] = l
  rfl

theorem portDown_parts (p : Nat) : (portDown s p).port p = resetPort (s.port p) ∧ (∀ k, k ≠ p → (portDown s p).port k = s.port k) ∧
    (∀ k, k ≠ 0x16 + p → (portDown s p).fblk k = s.fblk k) ∧
    ∃ q d r b, portDown s p = { s with link := { s.link with port := q, delays := d, delayReq := r }, flt := { s.flt with block := b } } := by
  unfold portDown
  dsimp only
  refine ⟨?_, fun k hk => ?_, fun k hk => ?_, ?_⟩
  · split
    · exact samePort ..
    · exact samePort ..
  · split
    · exact (State.modPort_port ..).trans (if_neg hk)
    · exact (State.modPort_port ..).trans (if_neg hk)
  · refine (live_eq _ _ _ _ _ hk).trans ((live_eq _ _ _ _ _ hk).trans ?_)
    split
    · rfl
    · rfl
  · split
    · exact ⟨_, _, _, _, rfl⟩
    · exact ⟨_, _, _, _, rfl⟩

/-- What the reset of an ACTIVE port leaves. -/
structure WasReset (s : State) (p : Nat) (t : State) (m : List Byte) : Prop where
  port : portRest (t.port p) = portRest (resetPort (s.port p))
  other : portRest (t.port (1 - p)) = portRest (s.port (1 - p))
  own : ∀ c, t.cls p c = { queue := (s.cls p c).queue ++ if p = 0 ∧ c = 1 then [(false, m)] else [] }
  queues : ∀ c, ((t.cls (1 - p) c).queue).map (fun e => e.2) = ((s.cls (1 - p) c).queue).map (fun e => e.2) ++ if p = 1 ∧ c = 1 then [m] else []
  message : msgNum m 0 1 = 0x0D ∧ msgNum m 8 2 = 3 ∧ msgNum m 10 2 = p
  live : (t.fblk (0x16 + p)).live.getLsbD 0 = true
  down : ∃ d ∈ t.flt.waiting, d.block = 0x16 + p ∧ d.source = 0
  waits : ∃ w, t.flt.waiting = s.flt.waiting ++ w
  blocks : ∀ k, k ≠ 0x16 + p → t.fblk k = s.fblk k
  only : t = { s with link := { s.link with port := t.link.port, delays := t.link.delays, delayReq := t.link.delayReq, mtag := s.link.mtag + 1 }, flt := { s.flt with block := t.flt.block, waiting := t.flt.waiting } }

theorem linkReset_active {p : Nat} (hp : p < 2) (h : (s.port p).step = .active) : ∃ m, WasReset s p (linkReset s p) m := by
  rw [linkReset_steps, if_pos (decide_eq_true h)]
  obtain ⟨hport, hrest, hqueues, hpass⟩ := passFlits_passed s hp [0, 1, 2, 3]
  generalize passFlits s p [0, 1, 2, 3] = v at hport hrest hqueues hpass ⊢
  obtain ⟨w, hlost⟩ : ∃ w, heldUrgents v p = { v with flt := { v.flt with waiting := v.flt.waiting ++ w } } := lostUrgents_parts v hp _
  generalize heldUrgents v p = u at hlost ⊢
  have huport : ∀ k, u.port k = v.port k := fun k => by rw [hlost]; rfl
  obtain ⟨hown, hother, hblocks, q, d, r, b, hdown⟩ := portDown_parts u p
  generalize portDown u p = x at hown hother hblocks hdown ⊢
  obtain ⟨hcond, -, -⟩ := portSources hp
  obtain ⟨b', w', hraise⟩ := raise_parts x (portBlock p) 0 0 0
  have hlive := raise_live (k := portBlock p) x 0 0 (by decide : 0 < 64) hcond
  have hdetect := exists_raise x (portBlock p) 0 0 0
  have hwaits := raise_waiting x (portBlock p) 0 0 0
  have hraised : ∀ k, k ≠ 0x16 + p → (x.raise (portBlock p) 0).fblk k = x.fblk k := fun k hk => by
    unfold State.raise
    dsimp only
    split
    · rfl
    · exact live_eq x _ _ _ k hk
  generalize hy : x.raise (portBlock p) 0 = y at hlive hdetect hwaits hraised
  rw [hy] at hraise
  have hyport : ∀ k, y.port k = x.port k := fun k => by rw [hraise]; rfl
  have hycls : ∀ k c, y.cls k c = x.cls k c := fun k c => by
    unfold State.cls
    rw [hyport]
  obtain ⟨htype, hkind, hwidth⟩ := portMessage_fields y p
  rw [hyport, hown] at hwidth
  have hparts := portChanged_parts y p
  have htflt : (portChanged y p).flt = y.flt := by rw [hparts]
  have hxown : ∀ c, x.cls p c = { queue := (s.cls p c).queue } := fun c => by
    unfold State.cls
    rw [hown, huport, hport]
    exact freshClasses_cls _ c
  have hxother : ∀ c, x.cls (1 - p) c = v.cls (1 - p) c := fun c => by
    unfold State.cls
    rw [hother _ (other_ne hp), huport]
  refine ⟨portMessage y p, ?_, ?_, fun c => ?_, fun c => ?_, ⟨htype, hkind, ?_⟩, ?_, ?_, ?_, fun k hk => ?_, ?_⟩
  · rw [(portChanged_port y p p).1, hyport, hown, huport, hport]
    rfl
  · rw [(portChanged_port y p (1 - p)).1, hyport, hother _ (other_ne hp), huport]
    exact hrest
  · rw [portChanged_cls, hycls, hxown]
  · rw [portChanged_cls, hycls, hxother, List.map_append, hqueues]
    obtain rfl | rfl : p = 0 ∨ p = 1 := by omega
    · simp
    · simp only [Nat.sub_self, true_and]
      split
      · rfl
      · rfl
  · rw [hwidth]
    change (p + 2 * 0) % 65536 = p
    omega
  · unfold State.fblk at hlive ⊢
    rw [htflt]
    exact hlive
  · rw [htflt]
    exact hdetect
  · rw [htflt, hwaits, hdown, hlost, hpass]
    exact ⟨_, List.append_assoc _ _ _⟩
  · have hkept : (portChanged y p).fblk k = y.fblk k := by
      unfold State.fblk
      rw [htflt]
    rw [hkept, hraised k hk, hblocks k hk, hlost, hpass]
    rfl
  · generalize portChanged y p = t at hparts
    rw [hparts, hraise, hdown, hlost, hpass]

/-! A reset of the port by the loss of its block lock. -/

/-- The state that the port's reset starts from: halves and perturbation are gone. -/
def portHalted (s : State) (p : Nat) : State := clearEntries (anyReset s) (portBlock p)

theorem linkPortReset_next {p : Nat} (h : (s.port p).step = .active) (hreset : s.clk.resetting = none) (hrestart : s.clk.restarting = false) :
    linkPortReset s p = linkReset (portHalted s p) p := by
  have hidle : (s.clk.resetting.isSome || s.clk.restarting || retraining s p) = false := by
    unfold retraining
    rw [hreset, hrestart, h]
    simp
  exact if_neg (by rw [hidle]; exact Bool.false_ne_true)

theorem clearEntries_parts (k : Nat) : ∃ e, clearEntries s k = { s with flt := { s.flt with entry := e } } := by
  unfold clearEntries
  generalize List.range 16 = l
  induction l generalizing s with
  | nil => exact ⟨_, rfl⟩
  | cons a l ih =>
    rw [List.foldl_cons]
    split
    · obtain ⟨e, he⟩ := ih (s.modPert a (fun _ => {}))
      exact ⟨e, he⟩
    · exact ih s

theorem endWindow_linkRest (e : Nat) : linkRest (endWindow s e).link = linkRest s.link := by
  have hpert : linkRest (s.modPert e (fun x => { x with active := false })).link = linkRest s.link := rfl
  unfold endWindow
  dsimp only
  generalize s.modPert e (fun x => { x with active := false }) = v at hpert ⊢
  rw [← hpert]
  split
  · exact hpert.symm
  split
  · rfl
  split
  · exact linkRest_of_calm (serviceRing_calm calm_refl)
  split
  · split
    · rfl
    · exact linkRest_of_calm (State.modPort_calm (State.modCls_calm calm_refl))
  split
  · exact linkRest_of_calm (flushReplies_calm calm_refl)
  · rfl

theorem anyReset_linkRest : linkRest (anyReset s).link = linkRest s.link := by
  unfold anyReset disarm
  dsimp only
  refine (foldl_same (F := fun v : State => linkRest v.link) (step := releaseDelay) (fun v n => linkRest_of_calm (releaseDelay_calm calm_refl)) _ _).trans ?_
  exact foldl_same (F := fun v : State => linkRest v.link) (step := endWindow) (fun v e => endWindow_linkRest v e) _ _

theorem foldl_still {α : Type} {f : State → α → State} {l : List α} (h : ∀ a ∈ l, f s a = s) : l.foldl f s = s := by
  induction l with
  | nil => rfl
  | cons a l ih =>
    rw [List.foldl_cons, h a List.mem_cons_self]
    exact ih fun b hb => h b (List.mem_cons_of_mem _ hb)

/-- Without an open perturbation window or a response that waits, a reset discards the halves and disarms alone. -/
theorem anyReset_still (hpert : ∀ e, e < 16 → (s.pert e).active = false) (hdelay : ∀ n, n < 8 → (s.mbx n).delayEnd = none) :
    anyReset s = { s with bus := { s.bus with halfHost := none, halfShed := none }, flt := { s.flt with armed := false } } := by
  have hwindows : (List.range 16).foldl endWindow { s with bus := { s.bus with halfHost := none, halfShed := none } } =
      { s with bus := { s.bus with halfHost := none, halfShed := none } } := foldl_still _ fun e he => by
    have hclosed : (s.pert e).active = false := hpert e (List.mem_range.1 he)
    exact if_pos (by rw [show (State.pert { s with bus := { s.bus with halfHost := none, halfShed := none } } e).active = false from hclosed]; rfl)
  have hboxes : (List.range 8).foldl releaseDelay { s with bus := { s.bus with halfHost := none, halfShed := none } } =
      { s with bus := { s.bus with halfHost := none, halfShed := none } } := foldl_still _ fun n hn => by
    have hnone : (s.mbx n).delayEnd = none := hdelay n (List.mem_range.1 hn)
    exact if_neg (by rw [show (State.mbx { s with bus := { s.bus with halfHost := none, halfShed := none } } n).delayEnd = none from hnone]; exact Bool.false_ne_true)
  unfold anyReset disarm
  dsimp only
  rw [hwindows, hboxes]

theorem portHalted_port (p k : Nat) : portRest ((portHalted s p).port k) = portRest (s.port k) := by
  have hports := anyReset_ports (s := s)
  unfold PortsKept at hports
  unfold portHalted
  generalize anyReset s = v at hports ⊢
  obtain ⟨e, he⟩ := clearEntries_parts v (portBlock p)
  rw [he]
  exact congrFun hports k

theorem step_of_rest {q r : LinkPort} (h : portRest q = portRest r) : q.step = r.step ∧ q.width = r.width ∧ q.resetReq = r.resetReq ∧ q.retrain = r.retrain ∧ q.retrains = r.retrains := by
  have hstep := congrArg (fun x : LinkPort => x.step) h
  have hwidth := congrArg (fun x : LinkPort => x.width) h
  have hreq := congrArg (fun x : LinkPort => x.resetReq) h
  have htrain := congrArg (fun x : LinkPort => x.retrain) h
  have htrains := congrArg (fun x : LinkPort => x.retrains) h
  exact ⟨hstep, hwidth, hreq, htrain, htrains⟩

theorem blockLockLoss_next (p : Port) (h : (s.port (portNum p)).step = .active) (hreset : s.clk.resetting = none) (hrestart : s.clk.restarting = false) :
    exec (.blockLockLoss p) s = .next (linkReset (portHalted s (portNum p)) (portNum p)) :=
  (congrArg Host.Outcome.next (if_pos h)).trans (congrArg Host.Outcome.next (linkPortReset_next s h hreset hrestart))

theorem blockLockLoss_resets (p : Port) (h : (s.port (portNum p)).step = .active) (hreset : s.clk.resetting = none) (hrestart : s.clk.restarting = false) :
    ∃ t, exec (.blockLockLoss p) s = .next t ∧ (t.port (portNum p)).step = .detect ∧ (t.port (portNum p)).width = 0 ∧ (t.port (portNum p)).resetReq = true ∧
      (t.port (portNum p)).retrain = true ∧ (t.port (portNum p)).retrains = min 63 ((s.port (portNum p)).retrains + 1) ∧
      (∀ c, t.cls (portNum p) c = { queue := (t.cls (portNum p) c).queue }) ∧
      (t.port (1 - portNum p)).step = (s.port (1 - portNum p)).step ∧ (t.port (1 - portNum p)).width = (s.port (1 - portNum p)).width ∧
      t.link.addr = s.link.addr ∧ t.link.addrValid = s.link.addrValid ∧
      t.link.syncValid = s.link.syncValid ∧ t.flt.armed = false ∧ t.bus.halfHost = none ∧ t.bus.halfShed = none ∧
      (t.fblk (0x16 + portNum p)).live.getLsbD 0 = true ∧ (∃ d ∈ t.flt.waiting, d.block = 0x16 + portNum p ∧ d.source = 0) := by
  have hexec := blockLockLoss_next s p h hreset hrestart
  have hp := portNum_lt p
  generalize portNum p = n at hexec hp h ⊢
  have hports := portHalted_port s n
  have hlink : linkRest (portHalted s n).link = linkRest s.link ∧ (portHalted s n).flt.armed = false ∧ (portHalted s n).bus = { s.bus with halfHost := none, halfShed := none } := by
    obtain ⟨-, -, hbus⟩ := anyReset_rest s
    have hrest := anyReset_linkRest s
    have harmed := anyReset_armed s
    unfold portHalted
    generalize anyReset s = v at hbus hrest harmed ⊢
    obtain ⟨e, he⟩ := clearEntries_parts v (portBlock n)
    rw [he]
    exact ⟨hrest, harmed, hbus⟩
  generalize portHalted s n = u at hexec hports hlink
  obtain ⟨hrest, harmed, hbus⟩ := hlink
  obtain ⟨hstep, -, -, -, htrains⟩ := step_of_rest (hports n)
  have hactive : (u.port n).step = .active := hstep.trans h
  obtain ⟨m, hreset⟩ := linkReset_active u hp hactive
  obtain ⟨hport, hother, hown, -, -, hlive, hdown, -, -, honly⟩ := hreset
  generalize linkReset u n = t at hexec hport hother hown hlive hdown honly
  obtain ⟨hstep', hwidth', hreq', htrain', htrains'⟩ := step_of_rest hport
  obtain ⟨hostep, howidth, -, -, -⟩ := step_of_rest (hother.trans (hports _))
  have haddr : t.link.addr = u.link.addr ∧ t.link.addrValid = u.link.addrValid ∧ t.link.syncValid = u.link.syncValid := by
    rw [honly]
    exact ⟨rfl, rfl, rfl⟩
  obtain ⟨haddr, hvalid, hsync⟩ := haddr
  refine ⟨t, hexec, hstep'.trans ?_, hwidth', hreq', htrain', htrains'.trans ?_, fun c => ?_, hostep, howidth, ?_, ?_, ?_, ?_, ?_, ?_, hlive, hdown⟩
  · change (if (u.port n).step = .off then PortStep.off else PortStep.detect) = .detect
    rw [hactive]
    rfl
  · change satAdd 63 (u.port n).retrains 1 = _
    rw [htrains]
    rfl
  · rw [hown]
  · have hkept := congrArg (fun x : Trellis => x.addr) hrest
    exact haddr.trans hkept
  · have hkept := congrArg (fun x : Trellis => x.addrValid) hrest
    exact hvalid.trans hkept
  · have hkept := congrArg (fun x : Trellis => x.syncValid) hrest
    exact hsync.trans hkept
  · rw [honly]; exact harmed
  · rw [honly, hbus]
  · rw [honly, hbus]

theorem blockLockLoss_alone (p : Port) (h : (s.port (portNum p)).step = .active) (hreset : s.clk.resetting = none) (hrestart : s.clk.restarting = false)
    (hpert : ∀ e, e < 16 → (s.pert e).active = false) (hdelay : ∀ n, n < 8 → (s.mbx n).delayEnd = none) :
    ∃ t m, exec (.blockLockLoss p) s = .next t ∧
      (∀ c, (t.cls (portNum p) c).queue = (s.cls (portNum p) c).queue ++ if portNum p = 0 ∧ c = 1 then [(false, m)] else []) ∧
      (∀ c, ((t.cls (1 - portNum p) c).queue).map (fun e => e.2) = ((s.cls (1 - portNum p) c).queue).map (fun e => e.2) ++
        if portNum p = 1 ∧ c = 1 then [m] else []) ∧ msgNum m 0 1 = 0x0D ∧ msgNum m 8 2 = 3 ∧ msgNum m 10 2 = portNum p ∧
      (∀ k, k ≠ 0x16 + portNum p → t.fblk k = s.fblk k) ∧
      t = { s with bus := { s.bus with halfHost := none, halfShed := none }, link := { s.link with port := t.link.port, delays := t.link.delays, delayReq := t.link.delayReq, mtag := s.link.mtag + 1 }, flt := { s.flt with block := t.flt.block, entry := t.flt.entry, armed := false, waiting := t.flt.waiting } } := by
  have hexec := blockLockLoss_next s p h hreset hrestart
  have hp := portNum_lt p
  generalize portNum p = n at hexec hp h ⊢
  obtain ⟨e, he⟩ : ∃ e, portHalted s n = { s with bus := { s.bus with halfHost := none, halfShed := none }, flt := { s.flt with entry := e, armed := false } } := by
    obtain ⟨e, he⟩ := clearEntries_parts (anyReset s) (portBlock n)
    refine ⟨e, he.trans ?_⟩
    rw [anyReset_still s hpert hdelay]
  generalize portHalted s n = u at hexec he
  have hactive : (u.port n).step = .active := by rw [he]; exact h
  obtain ⟨m, hreset⟩ := linkReset_active u hp hactive
  obtain ⟨-, -, hown, hqueues, hmessage, -, -, -, hblocks, honly⟩ := hreset
  generalize linkReset u n = t at hexec hown hqueues hblocks honly
  obtain ⟨htype, hkind, hwidth⟩ := hmessage
  have hcls : ∀ k c, u.cls k c = s.cls k c := fun k c => by rw [he]; rfl
  simp only [hcls] at hown hqueues
  have hblk : ∀ k, u.fblk k = s.fblk k := fun k => by rw [he]; rfl
  simp only [hblk] at hblocks
  refine ⟨t, m, hexec, fun c => ?_, hqueues, htype, hkind, hwidth, hblocks, ?_⟩
  · rw [hown]
  · rw [honly, he]

theorem blockLockLoss_absorbed (p : Port) (h : (s.port (portNum p)).step ≠ .active ∨ s.clk.resetting.isSome = true ∨ s.clk.restarting = true) :
    exec (.blockLockLoss p) s = .next s := by
  refine congrArg Host.Outcome.next ?_
  by_cases hactive : (s.port (portNum p)).step = .active
  · have habsorbed : (s.clk.resetting.isSome || s.clk.restarting || retraining s (portNum p)) = true := by
      rcases h with h | h | h
      · exact absurd hactive h
      · rw [h]; rfl
      · rw [h, Bool.or_true]; rfl
    exact (if_pos hactive).trans (if_pos habsorbed)
  · exact if_neg hactive

theorem laneSignal_next (p : Port) (lanes : BitVec 4) : exec (.laneSignalDetect p lanes) s =
    .next (if (s.port (portNum p)).step = .detect ∧ lanes ≠ 0 ∧ (∀ r, (s.port (portNum p)).retry = some r → r ≤ s.clk.time) then
      s.modPort (portNum p) (fun q => { q with step := .lock, signal := lanes, retry := none }) else s) := by
  have hwaited : (s.port (portNum p)).retry.all (fun t => decide (t ≤ s.now)) = true ↔ ∀ r, (s.port (portNum p)).retry = some r → r ≤ s.clk.time := by
    cases hr : (s.port (portNum p)).retry with
    | none => simp
    | some r =>
      rw [Option.all_some, decide_eq_true_eq]
      exact ⟨fun h r' hr' => by obtain rfl := Option.some.inj hr'; exact h, fun h => h r rfl⟩
  refine congrArg Host.Outcome.next (if_congr ?_ rfl rfl)
  exact and_congr_right fun _ => and_congr_right fun _ => hwaited

/-- Settles O44: the steps, the choice of lanes, PORT_CHANGE, and a reset of the port by way of the flits it gives back. -/
theorem linkTraining : Obligations.LinkTraining := by
  refine ⟨fun p lanes s => laneSignal_next s p lanes, fun p s => rfl,
    fun p eyes partner s n h hbits hn hsome => equalise_width s p eyes partner n h hbits hn hsome,
    fun p eyes partner s h hnone => equalise_fails s p eyes partner h hnone,
    fun p eyes partner s h => congrArg Host.Outcome.next (if_neg h), fun n hn => ?_,
    fun p d own s h => delayMeasure_active s p d own h, fun p d own s h => congrArg Host.Outcome.next (if_neg h),
    fun p s h => trainingRetry_fails s p h, fun p s r h hr => trainingRetry_due s p r h hr, fun p s h hr => trainingRetry_none s p h hr,
    fun p s h hreset hrestart => blockLockLoss_resets s p h hreset hrestart,
    fun p s h hreset hrestart hpert hdelay => blockLockLoss_alone s p h hreset hrestart hpert hdelay,
    fun p s h => blockLockLoss_absorbed s p h⟩
  obtain ⟨htable, hfour, hmost, hthree, -, -⟩ := chooseLanes_table ⟨n, hn⟩
  exact ⟨htable, hfour, hmost, hthree⟩

end Sys2Proof.Machine

end

section
/-! PROOFS of O46's negation. A master has one access in an F3 cycle (R53), so a REG_READ in the cycle of the host's last access is
one cycle later, and the chip time that it samples (R66) is the later one. -/

set_option Elab.async false

namespace Sys2Proof.Machine

/-- The host has had its access of the present F3 cycle, cycle 0; the clocks run. -/
def accessSpent : State :=
  { State.reset with
    clk := { State.reset.clk with phase := .started, pllLocked := true, refPresent := true }
    bus := { State.reset.bus with lastHost := some 0 } }

/-- A request header of the root. -/
def rootHeader : MsgHdr := { dest := 0, src := 0x7E, norsp := false, mtag := 0 }

/-- The read samples the chip time of the next F3 cycle. -/
theorem lastRead_accessSpent : (busRead (takeRequest accessSpent (.regRead rootHeader 0x1C00)) .host 0x1C00).bus.lastRead = 16 := by
  decide +kernel

/-- The word of chip time in the cycle of the last access. -/
theorem readWord_accessSpent : readWord (readEffect (takeRequest accessSpent (.regRead rootHeader 0x1C00)) .host 0x1C00) .host 0x1C00 = 0 := by
  decide +kernel

/-- Refutes O46: a REG_READ of CHIP_TIME waits for the master's next F3 cycle, and returns that cycle's word. -/
theorem not_requests : ¬ Obligations.Requests := by
  unfold Obligations.Requests
  rintro ⟨-, -, hread, -⟩
  obtain ⟨t, -, hword, -⟩ := hread accessSpent _ rootHeader 0x1C00 (by decide) rfl
  have hzero : w16 (readWord (readEffect (takeRequest accessSpent (.regRead rootHeader 0x1C00)) .host 0x1C00) .host 0x1C00) = 0 :=
    congrArg w16 readWord_accessSpent
  exact absurd (lastRead_accessSpent.symm.trans (hword.trans hzero)) (by decide)

end Sys2Proof.Machine

end

section
/-! PROOFS. O59: the events of faults, cloche, perturbation and the trigger inputs. -/

set_option Elab.async false

namespace Sys2Proof.Machine

/-! Edges where no unit has a run, at a unit that does not select their source. -/

theorem tiu_ite {p : Prop} [Decidable p] {a b : State} {u : Nat} {x : TimeInterval} (ha : a.tiu u = x) (hb : b.tiu u = x) :
    (if p then a else b).tiu u = x := by
  split
  · exact ha
  · exact hb

theorem acceptEdge_tiu_of_ne {s : State} (hruns : NoRuns s) {u n : Nat} (hu : u ≠ n) (stop : Bool) (src stamp : Nat) (fall : Bool) :
    (acceptEdge s n stop src stamp fall).tiu u = s.tiu u := by
  unfold acceptEdge
  dsimp only
  refine tiu_ite ?_ ?_
  · simp only [modWin, modTimRun, State.modTiu_tiu, if_neg hu]
  · have hrun : ((s.modTiu n fun x => if stop = true then { x with lastStop := some (timStamp s n stop src stamp) }
        else { x with lastStart := some (timStamp s n stop src stamp) }).tiu n).run = none := by
      rw [State.modTiu_tiu, if_pos rfl]
      split <;> exact hruns n
    rw [edgeToRun, hrun]
    exact (State.modTiu_tiu ..).trans (if_neg hu)

theorem channelEdge_tiu_of_ne {s : State} (hruns : NoRuns s) {u n : Nat} (hu : u ≠ n) (stop : Bool) (stamp : Nat) (fall : Bool) :
    (channelEdge s n stop stamp fall).tiu u = s.tiu u := by
  unfold channelEdge
  dsimp only
  split
  · rfl
  · exact acceptEdge_tiu_of_ne hruns hu ..

theorem unitsOnly_channelEdge {s t : State} (h : UnitsOnly s t) (n : Nat) (stop : Bool) (stamp : Nat) (fall : Bool) :
    UnitsOnly s (channelEdge t n stop stamp fall) := by
  unfold channelEdge
  dsimp only
  exact unitsOnly_ite h (unitsOnly_acceptEdge h ..)

/-- One unit of `unitEdges`. -/
def unitEdge (p : Nat → Nat → Bool) (stamp : Nat) (fall : Bool) (s : State) (n : Nat) : State :=
  [false, true].foldl (fun s stop => if p n (channelWord (s.tiu n) stop) then channelEdge s n stop stamp fall else s) s

theorem unitEdge_unselected {s : State} (hruns : NoRuns s) (p : Nat → Nat → Bool) (stamp : Nat) (fall : Bool) {u : Nat}
    (hu : ∀ stop, p u (channelWord (s.tiu u) stop) = false) (n : Nat) :
    UnitsOnly s (unitEdge p stamp fall s n) ∧ (unitEdge p stamp fall s n).tiu u = s.tiu u := by
  have hchannel : ∀ (t : State) (stop : Bool), UnitsOnly s t → t.tiu u = s.tiu u →
      UnitsOnly s (if p n (channelWord (t.tiu n) stop) then channelEdge t n stop stamp fall else t) ∧
        (if p n (channelWord (t.tiu n) stop) then channelEdge t n stop stamp fall else t).tiu u = s.tiu u := fun t stop ht hkept => by
    split
    · next hp =>
      have hn : u ≠ n := fun e => by
        rw [← e, hkept, hu stop] at hp
        cases hp
      exact ⟨unitsOnly_channelEdge ht .., (channelEdge_tiu_of_ne ht.1 hn ..).trans hkept⟩
    · exact ⟨ht, hkept⟩
  obtain ⟨hfirst, hkept⟩ := hchannel s false ⟨hruns, _, rfl⟩ rfl
  exact hchannel _ true hfirst hkept

theorem unitEdges_unselected {s : State} (hruns : NoRuns s) (p : Nat → Nat → Bool) (stamp : Nat) (fall : Bool) {u : Nat}
    (hu : ∀ stop, p u (channelWord (s.tiu u) stop) = false) : (unitEdges s p stamp fall).tiu u = s.tiu u := by
  change (((tents s.meas.unit).map (fun e => e.1)).foldl (unitEdge p stamp fall) s).tiu u = _
  generalize (tents s.meas.unit).map (fun e => e.1) = l
  induction l generalizing s with
  | nil => rfl
  | cons n l ih =>
    obtain ⟨hunits, hkept⟩ := unitEdge_unselected hruns p stamp fall hu n
    exact (ih hunits.1 fun stop => by rw [hkept]; exact hu stop).trans hkept

/-! What waits for an edge of a trigger input. -/

/-- A sequencer, at vector `v`, after an edge of TINn. -/
def releasedAt (n : Nat) (falling : Bool) (stamp : Nat) (v : Vec) (x : SeqState) : SeqState :=
  if x.mode = .armed then
    if x.start = .tin n falling then { x with start := .at (roundUp (stamp + 320) 16) } else x
  else if x.mode = .exec ∨ x.mode = .trigWait then
    if v.op = 8 ∧ v.operand = n + (if falling then 4 else 0) ∧ x.waitDone.isNone ∧ x.waitFrom < 256 * stamp then
      { x with waitDone := some (256 * (stamp + 64)) }
    else x
  else x

/-- One sequencer of `tinReleases`. -/
def tinRelease (n : Nat) (falling : Bool) (stamp : Nat) (s : State) (q : Nat) : State :=
  let x := s.seq q
  if x.mode = .armed then
    if x.start = .tin n falling then s.modSeq q (fun x => { x with start := .at (roundUp (stamp + 320) 16) }) else s
  else if x.mode = .exec ∨ x.mode = .trigWait then
    let v := seqVec s q
    if v.op = 8 ∧ v.operand = n + (if falling then 4 else 0) ∧ x.waitDone.isNone ∧ x.waitFrom < 256 * stamp then
      s.modSeq q (fun x => { x with waitDone := some (256 * (stamp + 64)) })
    else s
  else s

theorem tinReleases_eq (s : State) (n : Nat) (falling : Bool) (stamp : Nat) :
    tinReleases s n falling stamp = (List.range 64).foldl (tinRelease n falling stamp) s := rfl

theorem tinRelease_seq (n : Nat) (falling : Bool) (stamp : Nat) (s : State) (q j : Nat) :
    (tinRelease n falling stamp s q).seq j = if j = q then releasedAt n falling stamp (seqVec s q) (s.seq q) else s.seq j := by
  have hnone : s.seq j = if j = q then s.seq q else s.seq j := by split <;> simp_all
  unfold tinRelease releasedAt
  dsimp only
  by_cases harmed : (s.seq q).mode = .armed
  · rw [if_pos harmed, if_pos harmed]
    by_cases hstart : (s.seq q).start = .tin n falling
    · rw [if_pos hstart, if_pos hstart, State.modSeq_seq]
    · rw [if_neg hstart, if_neg hstart, ← hnone]
  · rw [if_neg harmed, if_neg harmed]
    by_cases hmode : (s.seq q).mode = .exec ∨ (s.seq q).mode = .trigWait
    · rw [if_pos hmode, if_pos hmode]
      by_cases hwait : (seqVec s q).op = 8 ∧ (seqVec s q).operand = n + (if falling = true then 4 else 0) ∧ (s.seq q).waitDone.isNone ∧
          (s.seq q).waitFrom < 256 * stamp
      · rw [if_pos hwait, if_pos hwait, State.modSeq_seq]
      · rw [if_neg hwait, if_neg hwait, ← hnone]
    · rw [if_neg hmode, if_neg hmode, ← hnone]

theorem tinRelease_parts (n : Nat) (falling : Bool) (stamp : Nat) (s : State) (k : Nat) :
    ∃ q, tinRelease n falling stamp s k = { s with pat := { s.pat with seq := q } } := by
  unfold tinRelease
  dsimp only
  by_cases harmed : (s.seq k).mode = .armed
  · rw [if_pos harmed]
    split
    · exact ⟨_, rfl⟩
    · exact ⟨s.pat.seq, rfl⟩
  · rw [if_neg harmed]
    by_cases hmode : (s.seq k).mode = .exec ∨ (s.seq k).mode = .trigWait
    · rw [if_pos hmode]
      by_cases hwait : (seqVec s k).op = 8 ∧ (seqVec s k).operand = n + (if falling = true then 4 else 0) ∧ (s.seq k).waitDone.isNone ∧
          (s.seq k).waitFrom < 256 * stamp
      · rw [if_pos hwait]
        exact ⟨_, rfl⟩
      · rw [if_neg hwait]
        exact ⟨s.pat.seq, rfl⟩
    · rw [if_neg hmode]
      exact ⟨s.pat.seq, rfl⟩

theorem foldl_tinRelease_parts (n : Nat) (falling : Bool) (stamp : Nat) (l : List Nat) (s : State) :
    ∃ q, l.foldl (tinRelease n falling stamp) s = { s with pat := { s.pat with seq := q } } := by
  induction l generalizing s with
  | nil => exact ⟨s.pat.seq, rfl⟩
  | cons k l ih =>
    obtain ⟨q, hq⟩ := tinRelease_parts n falling stamp s k
    obtain ⟨q', hq'⟩ := ih (tinRelease n falling stamp s k)
    exact ⟨q', by rw [List.foldl_cons, hq', hq]⟩

theorem tinReleases_parts (s : State) (n : Nat) (falling : Bool) (stamp : Nat) :
    ∃ q, tinReleases s n falling stamp = { s with pat := { s.pat with seq := q } } :=
  foldl_tinRelease_parts n falling stamp _ s

theorem foldl_tinRelease_seq (n : Nat) (falling : Bool) (stamp : Nat) {l : List Nat} (hl : l.Nodup) (s : State) (j : Nat) :
    (l.foldl (tinRelease n falling stamp) s).seq j =
      if j ∈ l then releasedAt n falling stamp (seqVec s j) (s.seq j) else s.seq j := by
  induction l generalizing s with
  | nil => simp
  | cons k l ih =>
    obtain ⟨hk, hl⟩ := List.nodup_cons.1 hl
    have hsegm : ∀ i, (tinRelease n falling stamp s k).segm i = s.segm i := fun i => by
      obtain ⟨q, hq⟩ := tinRelease_parts n falling stamp s k
      rw [hq]
      rfl
    rw [List.foldl_cons, ih hl, tinRelease_seq]
    by_cases hj : j = k
    · rw [hj, if_neg hk, if_pos rfl, if_pos List.mem_cons_self]
    · have hvec : seqVec (tinRelease n falling stamp s k) j = seqVec s j := by
        rw [seqVec, seqVec, tinRelease_seq, if_neg hj, hsegm]
      rw [if_neg hj, hvec]
      simp only [List.mem_cons, hj, false_or]

theorem tinReleases_seq (s : State) (n : Nat) (falling : Bool) (stamp : Nat) (q : Nat) :
    (tinReleases s n falling stamp).seq q = if q < 64 then releasedAt n falling stamp (seqVec s q) (s.seq q) else s.seq q := by
  rw [tinReleases_eq, foldl_tinRelease_seq n falling stamp List.nodup_range]
  simp only [List.mem_range]

theorem not_mem_keys {α : Type} {m : Tab α} {j : Nat} (h : j ∉ (tents m).map (fun e => e.1)) (d : Nat → α) : tget d m j = d j := by
  have hnone : m.lookup j = none := by
    cases hj : m.lookup j with
    | none => rfl
    | some v => exact absurd (List.mem_map.2 ⟨(j, v), (mem_tents m (j, v)).2 hj, rfl⟩) h
  rw [tget, hnone]

/-- A loop's source after an edge. -/
def loopAtEdge (f : BurstStart → BurstStart) (s : State) (l : Nat) : State :=
  s.modLoop l (fun x => { x with source := sourceAtEdge f x.source })

/-- An averager's runs after an edge. -/
def avgAtEdge (f : BurstStart → BurstStart) (s : State) (k : Nat) : State :=
  s.modAvg k (fun a => { a with
    run := a.run.map (fun r => { r with start := f r.start })
    lock := a.lock.map (fun r => { r with start := f r.start }) })

/-- A unit's run after an edge. -/
def unitAtEdge (f : BurstStart → BurstStart) (s : State) (u : Nat) : State :=
  modTimRun s u (fun r => { r with start := f r.start })

/-- The loops of `runsAtEdge`. -/
def loopsAtEdge (s : State) (f : BurstStart → BurstStart) : State :=
  ((tents s.lp.loop).map (fun e => e.1)).foldl (loopAtEdge f) s

/-- The averagers of `runsAtEdge`. -/
def avgsAtEdge (s : State) (f : BurstStart → BurstStart) : State :=
  ((tents s.meas.avg).map (fun e => e.1)).foldl (avgAtEdge f) s

/-- The units of `runsAtEdge`. -/
def unitsAtEdge (s : State) (f : BurstStart → BurstStart) : State :=
  ((tents s.meas.unit).map (fun e => e.1)).foldl (unitAtEdge f) s

theorem runsAtEdge_eq (s : State) (f : BurstStart → BurstStart) :
    runsAtEdge s f = unitsAtEdge (avgsAtEdge (loopsAtEdge s f) f) f := rfl

theorem loopsAtEdge_parts (s : State) (f : BurstStart → BurstStart) :
    ∃ l, loopsAtEdge s f = { s with lp := { s.lp with loop := l } } := by
  unfold loopsAtEdge
  generalize (tents s.lp.loop).map (fun e => e.1) = keys
  have hkept := foldl_same (F := fun s : State => { s with lp := { s.lp with loop := [] } }) (step := loopAtEdge f) (fun _ _ => rfl) keys s
  exact ⟨(keys.foldl (loopAtEdge f) s).lp.loop,
    congrArg (fun t : State => { t with lp := { t.lp with loop := (keys.foldl (loopAtEdge f) s).lp.loop } }) hkept⟩

theorem avgsAtEdge_parts (s : State) (f : BurstStart → BurstStart) :
    ∃ a, avgsAtEdge s f = { s with meas := { s.meas with avg := a } } := by
  unfold avgsAtEdge
  generalize (tents s.meas.avg).map (fun e => e.1) = keys
  have hkept := foldl_same (F := fun s : State => { s with meas := { s.meas with avg := [] } }) (step := avgAtEdge f) (fun _ _ => rfl) keys s
  exact ⟨(keys.foldl (avgAtEdge f) s).meas.avg,
    congrArg (fun t : State => { t with meas := { t.meas with avg := (keys.foldl (avgAtEdge f) s).meas.avg } }) hkept⟩

theorem unitsAtEdge_parts (s : State) (f : BurstStart → BurstStart) :
    ∃ u, unitsAtEdge s f = { s with meas := { s.meas with unit := u } } := by
  unfold unitsAtEdge
  generalize (tents s.meas.unit).map (fun e => e.1) = keys
  have hkept := foldl_same (F := fun s : State => { s with meas := { s.meas with unit := [] } }) (step := unitAtEdge f) (fun _ _ => rfl) keys s
  exact ⟨(keys.foldl (unitAtEdge f) s).meas.unit,
    congrArg (fun t : State => { t with meas := { t.meas with unit := (keys.foldl (unitAtEdge f) s).meas.unit } }) hkept⟩

theorem loopsAtEdge_loop (s : State) (f : BurstStart → BurstStart) (l : Nat) :
    (loopsAtEdge s f).loop l = { s.loop l with source := sourceAtEdge f (s.loop l).source } := by
  rw [loopsAtEdge, foldl_keyed (get := State.loop) (f := fun _ x => { x with source := sourceAtEdge f x.source })
    (fun s k j => by rw [loopAtEdge, State.modLoop_loop]) (tents_nodup s.lp.loop)]
  split
  · rfl
  · next hl => rw [State.loop, not_mem_keys hl]; rfl

theorem avgsAtEdge_avg (s : State) (f : BurstStart → BurstStart) (k : Nat) :
    (avgsAtEdge s f).avg k = { s.avg k with
      run := (s.avg k).run.map (fun r => { r with start := f r.start })
      lock := (s.avg k).lock.map (fun r => { r with start := f r.start }) } := by
  rw [avgsAtEdge, foldl_keyed (get := State.avg)
    (f := fun _ a => { a with run := a.run.map (fun r => { r with start := f r.start }), lock := a.lock.map (fun r => { r with start := f r.start }) })
    (fun s k j => by rw [avgAtEdge, State.modAvg_avg]) (tents_nodup s.meas.avg)]
  split
  · rfl
  · next hl => rw [State.avg, not_mem_keys hl]; rfl

theorem unitsAtEdge_tiu {s : State} (hruns : NoRuns s) (f : BurstStart → BurstStart) (u : Nat) : (unitsAtEdge s f).tiu u = s.tiu u := by
  have hstep : ∀ (s : State) (n j : Nat), (unitAtEdge f s n).tiu j =
      if j = n then { s.tiu n with run := (s.tiu n).run.map (fun r => { r with start := f r.start }) } else s.tiu j := fun s n j => by
    rw [unitAtEdge, modTimRun, State.modTiu_tiu]
  rw [unitsAtEdge, foldl_keyed (get := State.tiu) (f := fun _ a => { a with run := a.run.map (fun r => { r with start := f r.start }) })
    hstep (tents_nodup s.meas.unit)]
  split
  · have hrun := hruns u
    revert hrun
    generalize s.tiu u = x
    intro hrun
    cases x
    cases hrun
    rfl
  · rfl

/-! Trigger inputs. -/

/-- What an edge of an enabled trigger input leaves in the input. -/
def markTin (x : Tin) (rising : Bool) (stamp : Nat) (y : Tin) : Tin :=
  let y := { y with level := rising }
  let y := if rising then { y with lastRise := some stamp } else { y with lastFall := some stamp }
  if x.falling = !rising then { y with stamp := stamp, count := satAdd max16 y.count 1, seen := true } else y

/-- The part of TIN_EDGE before the engines see the edge. -/
def tinMarked (n : Nat) (rising : Bool) (stamp : Nat) (s : State) : State :=
  let x := s.tin n
  let s := s.modTin n (fun x => { x with level := rising })
  let s := s.modTin n (fun x => if rising then { x with lastRise := some stamp } else { x with lastFall := some stamp })
  if x.falling = !rising then
    ((s.noteSet 0x214 (w16 (2 ^ (4 + n)))).noteAdd (0x218 + n) x.count).modTin n (fun x => { x with stamp := stamp, count := satAdd max16 x.count 1, seen := true })
  else s

theorem noteAdd_tin (s : State) (a old k : Nat) : (s.noteAdd a old).tin k = s.tin k := rfl

theorem noteSet_tin (s : State) (a : Nat) (bits : Word) (k : Nat) : (s.noteSet a bits).tin k = s.tin k := rfl

theorem tinMarked_tin (n : Nat) (rising : Bool) (stamp : Nat) (s : State) (k : Nat) :
    (tinMarked n rising stamp s).tin k = if k = n then markTin (s.tin n) rising stamp (s.tin n) else s.tin k := by
  unfold tinMarked markTin
  dsimp only
  by_cases hedge : (s.tin n).falling = !rising
  · rw [if_pos hedge, if_pos hedge]
    by_cases hk : k = n
    · subst hk
      simp only [State.modTin_tin, noteAdd_tin, noteSet_tin, if_true]
    · simp only [State.modTin_tin, noteAdd_tin, noteSet_tin, if_neg hk]
  · rw [if_neg hedge, if_neg hedge]
    by_cases hk : k = n
    · subst hk
      simp only [State.modTin_tin, if_true]
    · simp only [State.modTin_tin, if_neg hk]

theorem tinMarked_parts (n : Nat) (rising : Bool) (stamp : Nat) (s : State) :
    ∃ r i, tinMarked n rising stamp s = { s with bus := { s.bus with recent := r }, pat := { s.pat with tin := i } } := by
  unfold tinMarked
  dsimp only
  split
  · exact ⟨_, _, rfl⟩
  · exact ⟨s.bus.recent, _, rfl⟩

end Sys2Proof.Machine
end
section
namespace Sys2Proof.Machine

theorem markTin_level (x : Tin) (rising : Bool) (stamp : Nat) (y : Tin) : (markTin x rising stamp y).level = rising := by
  unfold markTin
  dsimp only
  split <;> split <;> rfl

theorem markTin_stamps (x : Tin) (rising : Bool) (stamp : Nat) (y : Tin) :
    (markTin x rising stamp y).lastRise = (if rising then some stamp else y.lastRise) ∧
      (markTin x rising stamp y).lastFall = (if rising then y.lastFall else some stamp) := by
  unfold markTin
  dsimp only
  cases rising <;> split <;> exact ⟨rfl, rfl⟩

theorem markTin_counts (x : Tin) (rising : Bool) (stamp : Nat) :
    if x.falling = !rising then
      (markTin x rising stamp x).stamp = stamp ∧ (markTin x rising stamp x).count = satAdd max16 x.count 1 ∧ (markTin x rising stamp x).seen = true
    else (markTin x rising stamp x).stamp = x.stamp ∧ (markTin x rising stamp x).count = x.count ∧ (markTin x rising stamp x).seen = x.seen := by
  unfold markTin
  dsimp only
  split
  · cases rising <;> exact ⟨rfl, rfl, rfl⟩
  · cases rising <;> exact ⟨rfl, rfl, rfl⟩

/-- The engines' part of TIN_EDGE. -/
def tinSeen (n : Nat) (rising : Bool) (stamp : Nat) (s : State) : State :=
  runsAtEdge (tinReleases (unitEdges s (fun _ w => decide (selSource w = 40 + n)) (256 * stamp) (!rising)) n (!rising) stamp)
    (startAtEdge n (!rising) stamp)

theorem exec_tinEdge_enabled {n : Fin 4} {rising : Bool} {s : State} {stamp : Nat} (henable : (s.tin n.val).enable = true)
    (hstamp : stamp = s.clk.time - 16 * (s.tin n.val).filter) :
    exec (.tinEdge n rising) s = .next (tinSeen n.val rising stamp (tinMarked n.val rising stamp s)) := by
  have hnow : (s.modTin n.val fun x => { x with level := rising }).now = s.clk.time := rfl
  rw [show exec (.tinEdge n rising) s = execTinEdge n rising s from rfl, execTinEdge]
  dsimp only
  rw [if_pos henable, hnow, ← hstamp]
  unfold tinSeen tinMarked
  dsimp only

theorem runsAtEdge_parts (s : State) (f : BurstStart → BurstStart) :
    ∃ l a u, runsAtEdge s f = { s with lp := { s.lp with loop := l }, meas := { s.meas with avg := a, unit := u } } := by
  obtain ⟨l, hl⟩ := loopsAtEdge_parts s f
  obtain ⟨a, ha⟩ := avgsAtEdge_parts (loopsAtEdge s f) f
  obtain ⟨u, hu⟩ := unitsAtEdge_parts (avgsAtEdge (loopsAtEdge s f) f) f
  exact ⟨l, a, u, by rw [runsAtEdge_eq, hu, ha, hl]⟩

theorem tinSeen_tin (n : Nat) (rising : Bool) (stamp : Nat) (s : State) (k : Nat) : (tinSeen n rising stamp s).tin k = s.tin k := by
  have hruns : RunsOnly s (unitEdges s (fun _ w => decide (selSource w = 40 + n)) (256 * stamp) (!rising)) := unitEdges_runs runs_refl
  have hedges : (unitEdges s (fun _ w => decide (selSource w = 40 + n)) (256 * stamp) (!rising)).pat.tin = s.pat.tin := by
    have htin := congrArg (fun t : State => t.pat.tin) hruns
    exact htin
  clear hruns
  unfold tinSeen
  generalize unitEdges s (fun _ w => decide (selSource w = 40 + n)) (256 * stamp) (!rising) = t at hedges ⊢
  obtain ⟨q, hq⟩ := tinReleases_parts t n (!rising) stamp
  rw [hq]
  obtain ⟨l, a, u, hr⟩ := runsAtEdge_parts { t with pat := { t.pat with seq := q } } (startAtEdge n (!rising) stamp)
  rw [hr]
  exact congrArg (fun m => tget (fun _ => ({} : Tin)) m k) hedges

theorem releasedAt_armed {n stamp : Nat} {falling : Bool} {v : Vec} {x : SeqState} (hmode : x.mode = .armed) (hstart : x.start = .tin n falling) :
    releasedAt n falling stamp v x = { x with start := .at (roundUp (stamp + 320) 16) } := by
  rw [releasedAt, if_pos hmode, if_pos hstart]

theorem releasedAt_wait {n stamp : Nat} {falling : Bool} {v : Vec} {x : SeqState} (hmode : x.mode = .trigWait) (hop : v.op = 8)
    (hoperand : v.operand = n + (if falling then 4 else 0)) (hdone : x.waitDone = none) (hfrom : x.waitFrom < 256 * stamp) :
    releasedAt n falling stamp v x = { x with waitDone := some (256 * (stamp + 64)) } := by
  have hnot : ¬x.mode = .armed := by rw [hmode]; decide
  rw [releasedAt, if_neg hnot, if_pos (.inr hmode), if_pos ⟨hop, hoperand, by rw [hdone]; rfl, hfrom⟩]

theorem releasedAt_other {n stamp : Nat} {falling : Bool} {v : Vec} {x : SeqState} (hexec : x.mode ≠ .exec) (hwait : x.mode ≠ .trigWait)
    (hstart : x.mode ≠ .armed ∨ x.start ≠ .tin n falling) : releasedAt n falling stamp v x = x := by
  unfold releasedAt
  split
  · next harmed => rw [if_neg (hstart.resolve_left (fun h => h harmed))]
  · rw [if_neg fun h => h.elim hexec hwait]

/-- What an edge of TINn does to the engines where no unit has a run. -/
theorem tinSeen_rest {s : State} (hruns : NoRuns s) (n : Nat) (rising : Bool) (stamp : Nat) :
    (∀ q, (tinSeen n rising stamp s).seq q = if q < 64 then releasedAt n (!rising) stamp (seqVec s q) (s.seq q) else s.seq q) ∧
      (∀ l, (tinSeen n rising stamp s).loop l = { s.loop l with source := sourceAtEdge (startAtEdge n (!rising) stamp) (s.loop l).source }) ∧
      (∀ k, (tinSeen n rising stamp s).avg k = { s.avg k with
        run := (s.avg k).run.map (fun r => { r with start := startAtEdge n (!rising) stamp r.start })
        lock := (s.avg k).lock.map (fun r => { r with start := startAtEdge n (!rising) stamp r.start }) }) ∧
      (∀ u, (∀ stop, selSource (channelWord (s.tiu u) stop) ≠ 40 + n) → (tinSeen n rising stamp s).tiu u = s.tiu u) ∧
      ∃ q l a u, tinSeen n rising stamp s =
        { s with pat := { s.pat with seq := q }, lp := { s.lp with loop := l }, meas := { s.meas with avg := a, unit := u } } := by
  have hunits : UnitsOnly s (unitEdges s (fun _ w => decide (selSource w = 40 + n)) (256 * stamp) (!rising)) :=
    unitsOnly_unitEdges ⟨hruns, s.meas.unit, rfl⟩ _ _ _
  have hunselected : ∀ u, (∀ stop, selSource (channelWord (s.tiu u) stop) ≠ 40 + n) →
      (unitEdges s (fun _ w => decide (selSource w = 40 + n)) (256 * stamp) (!rising)).tiu u = s.tiu u := fun u hu =>
    unitEdges_unselected hruns _ _ _ fun stop => decide_eq_false (hu stop)
  unfold tinSeen
  generalize unitEdges s (fun _ w => decide (selSource w = 40 + n)) (256 * stamp) (!rising) = t at hunits hunselected ⊢
  obtain ⟨hnone, m, rfl⟩ := hunits
  have hseq := tinReleases_seq { s with meas := { s.meas with unit := m } } n (!rising) stamp
  obtain ⟨q, hq⟩ := tinReleases_parts { s with meas := { s.meas with unit := m } } n (!rising) stamp
  rw [hq] at hseq ⊢
  rw [runsAtEdge_eq]
  generalize startAtEdge n (!rising) stamp = f
  have hloop := loopsAtEdge_loop { s with pat := { s.pat with seq := q }, meas := { s.meas with unit := m } } f
  obtain ⟨l, hl⟩ := loopsAtEdge_parts { s with pat := { s.pat with seq := q }, meas := { s.meas with unit := m } } f
  rw [hl] at hloop ⊢
  have havg := avgsAtEdge_avg { s with pat := { s.pat with seq := q }, lp := { s.lp with loop := l }, meas := { s.meas with unit := m } } f
  obtain ⟨a, ha⟩ := avgsAtEdge_parts { s with pat := { s.pat with seq := q }, lp := { s.lp with loop := l }, meas := { s.meas with unit := m } } f
  rw [ha] at havg ⊢
  have hunit := unitsAtEdge_tiu (s := { s with pat := { s.pat with seq := q }, lp := { s.lp with loop := l }, meas := { s.meas with avg := a, unit := m } }) hnone f
  obtain ⟨u, hu⟩ := unitsAtEdge_parts { s with pat := { s.pat with seq := q }, lp := { s.lp with loop := l }, meas := { s.meas with avg := a, unit := m } } f
  rw [hu] at hunit ⊢
  exact ⟨hseq, hloop, havg, fun k hk => (hunit k).trans (hunselected k hk), q, l, a, u, rfl⟩

end Sys2Proof.Machine
end

section
/-! PROOFS. O59, continued: perturbation windows, and the obligation. -/

set_option Elab.async false

namespace Sys2Proof.Machine

/-! The ends of windows. -/

theorem pert_of_fltRest {s t : State} (h : fltRest t.flt = fltRest s.flt) (j : Nat) : t.pert j = s.pert j := by
  have hentry : t.flt.entry = s.flt.entry := by
    have hentry := congrArg Faults.entry h
    exact hentry
  rw [State.pert, State.pert, hentry]

theorem fltRest_of_calmTo {s t : State} (h : Calm s t) : fltRest t.flt = fltRest s.flt := by
  have hflt := congrArg (fun x : Firmware × Faults × Trellis × Tab Byte => x.2.1) h
  exact hflt

/-- The state with entry `e` no longer active. -/
def closePert (s : State) (e : Nat) : State := s.modPert e (fun x => { x with active := false })

theorem closePert_pert (s : State) (e j : Nat) : (closePert s e).pert j = if j = e then { s.pert e with active := false } else s.pert j :=
  State.modPert_pert ..

theorem endWindow_calmTo {s : State} {e : Nat} (h : (s.pert e).active = true) : Calm (closePert s e) (endWindow s e) := by
  unfold endWindow
  refine calm_ite (fun hn => absurd hn (by rw [h]; decide)) fun _ => ?_
  change Calm (closePert s e) (if (closePert s e).perturbed (s.pert e).kind (s.pert e).target = true then closePert s e else _)
  exact calm_ite (fun _ => calm_refl) fun _ => calm_ite (fun _ => serviceRing_calm calm_refl) fun _ =>
    calm_ite (fun _ => calm_ite (fun _ => calm_refl) fun _ => State.modPort_calm (State.modCls_calm calm_refl)) fun _ =>
      calm_ite (fun _ => flushReplies_calm calm_refl) fun _ => calm_refl

theorem endWindow_pert (s : State) (e j : Nat) : (endWindow s e).pert j = if j = e then { s.pert e with active := false } else s.pert j := by
  by_cases hactive : (s.pert e).active = true
  · rw [pert_of_fltRest (fltRest_of_calmTo (endWindow_calmTo hactive)), closePert_pert]
  · have hoff : (s.pert e).active = false := Bool.eq_false_iff.2 hactive
    have hstill : endWindow s e = s := if_pos (by rw [hoff]; rfl)
    rw [hstill]
    split
    · next hj => rw [hj, ← hoff]
    · rfl

theorem endWindow_clk (s : State) (e : Nat) : (endWindow s e).clk = s.clk :=
  only_clk (endWindow_only (w := 98080) rfl only_refl : Only 98080 s (endWindow s e))

theorem endWindow_off {s : State} {e : Nat} (h : (s.pert e).active = false) : endWindow s e = s := if_pos (by rw [h]; rfl)

/-- A window of a kind that withholds nothing ends. -/
theorem endWindow_plain {s : State} {e : Nat} (h : (s.pert e).active = true) (h4 : (s.pert e).kind ≠ 4) (h5 : (s.pert e).kind ≠ 5)
    (h8 : (s.pert e).kind ≠ 8) : endWindow s e = closePert s e := by
  have hon : ¬(!(s.pert e).active) = true := by rw [h]; decide
  unfold endWindow
  dsimp only
  rw [if_neg hon, if_neg h4, if_neg h5, if_neg h8]
  exact ite_self _

/-- No other active entry withholds the credit of the class that entry `e` names. -/
theorem closePert_perturbed {s : State} {e : Nat}
    (halone : ∀ j, j < 16 → j ≠ e → (s.pert j).active = true → (s.pert j).kind = 5 → (s.pert j).target ≠ (s.pert e).target) :
    (closePert s e).perturbed 5 (s.pert e).target = false := by
  unfold State.perturbed
  rw [Bool.and_eq_false_iff]
  refine .inr (List.any_eq_false.2 fun j hj hp => ?_)
  simp only [closePert_pert, Bool.and_eq_true, decide_eq_true_eq] at hp
  obtain ⟨⟨hactive, hkind⟩, htarget⟩ := hp
  by_cases he : j = e
  · rw [if_pos he] at hactive
    cases hactive
  · rw [if_neg he] at hactive hkind htarget
    exact halone j (List.mem_range.1 hj) he hactive hkind htarget

/-- A class that gets back `n` units of credit. -/
def refilled (n : Nat) (q : ClassState) : ClassState := { q with rxFreed := (q.rxFreed + n) % 65536, withheld := 0 }

/-- The credit that a window of kind 5 withheld goes back. -/
def giveBack (s : State) (port k : Nat) : State :=
  (s.modCls port k (refilled (s.cls port k).withheld)).modPort port (fun q => { q with ctrlWaits := true })

theorem endWindow_credit {s : State} {e port k : Nat} (h : (s.pert e).active = true) (hkind : (s.pert e).kind = 5)
    (htarget : (s.pert e).target = 4 * port + k) (hport : port ≤ 1) (hk : k ≤ 3)
    (halone : ∀ j, j < 16 → j ≠ e → (s.pert j).active = true → (s.pert j).kind = 5 → (s.pert j).target ≠ (s.pert e).target)
    (hheld : (s.cls port k).withheld ≠ 0) : endWindow s e = giveBack (closePert s e) port k := by
  have hon : ¬(!(s.pert e).active) = true := by rw [h]; decide
  have hfree : ¬(closePert s e).perturbed (s.pert e).kind (s.pert e).target = true := by
    rw [hkind, closePert_perturbed halone]
    decide
  have h4 : ¬(s.pert e).kind = 4 := by rw [hkind]; decide
  have hp : bits (s.pert e).target 2 1 = port := by
    rw [htarget, bits, Nat.shiftRight_eq_div_pow]
    omega
  have hc : bits (s.pert e).target 0 2 = k := by
    rw [htarget, bits, Nat.shiftRight_zero]
    omega
  unfold endWindow
  dsimp only
  rw [if_neg hon, show s.modPert e (fun x => { x with active := false }) = closePert s e from rfl, if_neg hfree, if_neg h4, if_pos hkind,
    hp, hc, if_neg (show ¬((closePert s e).cls port k).withheld = 0 from hheld)]
  rfl

theorem giveBack_cls (s : State) (port k p j : Nat) : (giveBack s port k).cls p j =
    if p = port ∧ j = k then refilled (s.cls port k).withheld (s.cls port k) else s.cls p j := by
  refine Eq.trans ?_ (modCls_class s port k (refilled (s.cls port k).withheld) p j)
  unfold giveBack
  generalize s.modCls port k _ = t
  unfold State.cls
  rw [State.modPort_port]
  split
  · next hp => rw [hp]
  · rfl

theorem giveBack_ctrl (s : State) (port k : Nat) : ((giveBack s port k).port port).ctrlWaits = true := by
  unfold giveBack
  rw [State.modPort_port, if_pos rfl]

/-! The starts of windows. -/

/-- The entry of a window that starts. -/
def openPert (k : Nat) (p : Perturb) : Perturb := { p with active := true, fired := satAdd max16 p.fired 1, next := k + 1 }

theorem exec_perturbWindowStart_some {e : Fin 16} {s : State} {k a : Nat} (harmed : s.flt.armed = true)
    (hnext : nextWindow (s.pert e.val) s.flt.armTime = some (k, a)) :
    exec (.perturbWindowStart e) s = .next ((endWindow (s.reach a) e.val).modPert e.val (openPert k)) := by
  rw [show exec (.perturbWindowStart e) s = execPerturbWindowStart e s from rfl, execPerturbWindowStart, if_pos harmed, hnext]
  rfl

theorem perturbed_modPert {s : State} {e : Nat} {f : Perturb → Perturb} (harmed : s.flt.armed = true) (he : e < 16)
    (hactive : (f (s.pert e)).active = true) : (s.modPert e f).perturbed (f (s.pert e)).kind (f (s.pert e)).target = true := by
  have hpert : (s.modPert e f).pert e = f (s.pert e) := by rw [State.modPert_pert, if_pos rfl]
  have hany : (List.range 16).any (fun i => ((s.modPert e f).pert i).active && decide (((s.modPert e f).pert i).kind = (f (s.pert e)).kind) &&
      decide (((s.modPert e f).pert i).target = (f (s.pert e)).target)) = true :=
    List.any_eq_true.2 ⟨e, List.mem_range.2 he, by rw [hpert, hactive, decide_eq_true rfl, decide_eq_true rfl]; rfl⟩
  unfold State.perturbed
  dsimp only
  rw [hany, Bool.and_true]
  exact harmed

/-! The next window. -/

/-- The windows that were over when the entries were armed. -/
def skippedBy (p : Perturb) (arm : Nat) : Nat :=
  if arm < roundUp p.start 16 + 3200 * p.window then 0
  else if p.period = 0 then 1 else (arm - roundUp p.start 16 - 3200 * p.window) / (3200 * p.period) + 1

theorem nextWindow_eq (p : Perturb) (arm : Nat) : nextWindow p arm =
    if p.kind = 0 ∨ (p.period = 0 ∧ 0 < max p.next (skippedBy p arm)) ∨ (p.period ≠ 0 ∧ p.repeats ≠ 0 ∧ p.repeats ≤ max p.next (skippedBy p arm)) then none
    else some (max p.next (skippedBy p arm), max (roundUp p.start 16 + 3200 * p.period * max p.next (skippedBy p arm)) (roundUp arm 16)) := rfl

theorem nextWindow_single {p : Perturb} {arm : Nat} (hkind : p.kind ≠ 0) (hperiod : p.period = 0) (hnext : p.next = 0) :
    nextWindow p arm = (if arm < roundUp p.start 16 + 3200 * p.window then some (0, max (roundUp p.start 16) (roundUp arm 16)) else none) := by
  rw [nextWindow_eq, hnext, Nat.zero_max, skippedBy, if_pos hperiod]
  split
  · rw [if_neg (by simp [hkind, hperiod]), Nat.mul_zero, Nat.add_zero]
  · rw [if_pos (.inr (.inl ⟨hperiod, Nat.one_pos⟩))]

/-- The first window of a period that is not over: the number of periods that are. -/
theorem periods_passed {first width period arm : Nat} (hperiod : 0 < period) (hlate : first + width ≤ arm) :
    arm < first + period * ((arm - first - width) / period + 1) + width ∧
      ∀ j, j < (arm - first - width) / period + 1 → first + period * j + width ≤ arm := by
  have hdiv := Nat.div_add_mod (arm - first - width) period
  have hmod := Nat.mod_lt (arm - first - width) hperiod
  generalize (arm - first - width) / period = q at hdiv ⊢
  refine ⟨by rw [Nat.mul_add, Nat.mul_one]; omega, fun j hj => ?_⟩
  have hle : period * j ≤ period * q := Nat.mul_le_mul_left period (Nat.le_of_lt_succ hj)
  omega

theorem nextWindow_unlimited {p : Perturb} {arm : Nat} (hkind : p.kind ≠ 0) (hperiod : p.period ≠ 0) (hrepeats : p.repeats = 0) (hnext : p.next = 0) :
    ∃ k, nextWindow p arm = some (k, max (roundUp p.start 16 + 3200 * p.period * k) (roundUp arm 16)) ∧
      arm < roundUp p.start 16 + 3200 * p.period * k + 3200 * p.window ∧ ∀ j, j < k → roundUp p.start 16 + 3200 * p.period * j + 3200 * p.window ≤ arm := by
  refine ⟨skippedBy p arm, ?_, ?_⟩
  · rw [nextWindow_eq, hnext, Nat.zero_max, if_neg (by simp [hkind, hperiod, hrepeats])]
  · rw [skippedBy, if_neg hperiod]
    split
    · next hearly => exact ⟨by rw [Nat.mul_zero, Nat.add_zero]; exact hearly, fun j hj => absurd hj (Nat.not_lt_zero j)⟩
    · next hlate => exact periods_passed (by omega) (Nat.not_lt.1 hlate)

theorem nextWindow_over {p : Perturb} {arm : Nat} (hperiod : p.period ≠ 0) (hrepeats : p.repeats ≠ 0) (hover : p.repeats ≤ p.next) :
    nextWindow p arm = none := by
  rw [nextWindow_eq, if_pos (.inr (.inr ⟨hperiod, hrepeats, Nat.le_trans hover (Nat.le_max_left ..)⟩))]

/-! The clauses that take more than a rewrite. -/

theorem tinEdge_disabled {n : Fin 4} {rising : Bool} {s : State} (henable : (s.tin n.val).enable = false) :
    ∃ t, exec (.tinEdge n rising) s = .next t ∧ t.tin n.val = { s.tin n.val with level := rising } ∧ (∀ k, k ≠ n.val → t.tin k = s.tin k) ∧
      t = { s with pat := { s.pat with tin := t.pat.tin } } := by
  refine ⟨s.modTin n.val (fun x => { x with level := rising }), ?_, by rw [State.modTin_tin, if_pos rfl],
    fun k hk => by rw [State.modTin_tin, if_neg hk], rfl⟩
  rw [show exec (.tinEdge n rising) s = execTinEdge n rising s from rfl, execTinEdge]
  dsimp only
  rw [if_neg (by rw [henable]; decide)]

/-- What TIN_EDGE does where no unit has a run. -/
theorem tinSeen_tinMarked_rest {s : State} (hrest : UnitsRest s) (n : Nat) (rising : Bool) (stamp : Nat) :
    let t := tinSeen n rising stamp (tinMarked n rising stamp s)
    (∀ q, t.seq q = if q < 64 then releasedAt n (!rising) stamp (seqVec s q) (s.seq q) else s.seq q) ∧
      (∀ l, t.loop l = { s.loop l with source := sourceAtEdge (startAtEdge n (!rising) stamp) (s.loop l).source }) ∧
      (∀ k, t.avg k = { s.avg k with
        run := (s.avg k).run.map (fun r => { r with start := startAtEdge n (!rising) stamp r.start })
        lock := (s.avg k).lock.map (fun r => { r with start := startAtEdge n (!rising) stamp r.start }) }) ∧
      (∀ u, (∀ stop, selSource (channelWord (s.tiu u) stop) ≠ 40 + n) → t.tiu u = s.tiu u) ∧
      t = { s with bus := { s.bus with recent := t.bus.recent }, pat := { s.pat with tin := t.pat.tin, seq := t.pat.seq },
                   lp := { s.lp with loop := t.lp.loop }, meas := { s.meas with avg := t.meas.avg, unit := t.meas.unit } } := by
  obtain ⟨r, i, hmarked⟩ := tinMarked_parts n rising stamp s
  rw [hmarked]
  obtain ⟨hseq, hloop, havg, hunit, q, l, a, u, hparts⟩ :=
    tinSeen_rest (s := { s with bus := { s.bus with recent := r }, pat := { s.pat with tin := i } }) (noRuns_of_rest hrest) n rising stamp
  exact ⟨hseq, hloop, havg, hunit, by rw [hparts]⟩

theorem tinEdge_enabled {n : Fin 4} {rising : Bool} {s : State} {stamp : Nat} (henable : (s.tin n.val).enable = true)
    (hstamp : stamp = s.clk.time - 16 * (s.tin n.val).filter) :
    ∃ t, exec (.tinEdge n rising) s = .next t ∧ (t.tin n.val).level = rising ∧ (∀ k, k ≠ n.val → t.tin k = s.tin k) ∧
      (t.tin n.val).lastRise = (if rising then some stamp else (s.tin n.val).lastRise) ∧ (t.tin n.val).lastFall = (if rising then (s.tin n.val).lastFall else some stamp) ∧
      (if (s.tin n.val).falling = !rising then
        (t.tin n.val).stamp = stamp ∧ (t.tin n.val).count = satAdd max16 (s.tin n.val).count 1 ∧ (t.tin n.val).seen = true
       else (t.tin n.val).stamp = (s.tin n.val).stamp ∧ (t.tin n.val).count = (s.tin n.val).count ∧ (t.tin n.val).seen = (s.tin n.val).seen) ∧
      (UnitsRest s →
        (∀ q, q < 64 → (s.seq q).mode = .armed → (s.seq q).start = .tin n.val (!rising) → t.seq q = { s.seq q with start := .at (roundUp (stamp + 320) 16) }) ∧
        (∀ q, q < 64 → (s.seq q).mode = .trigWait → (seqVec s q).op = 8 → (seqVec s q).operand = n.val + (if rising then 0 else 4) → (s.seq q).waitDone = none →
          (s.seq q).waitFrom < 256 * stamp → t.seq q = { s.seq q with waitDone := some (256 * (stamp + 64)) }) ∧
        (∀ q, (s.seq q).mode ≠ .exec → (s.seq q).mode ≠ .trigWait → ((s.seq q).mode ≠ .armed ∨ (s.seq q).start ≠ .tin n.val (!rising)) → t.seq q = s.seq q) ∧
        (∀ l, t.loop l = { s.loop l with source := sourceAtEdge (startAtEdge n.val (!rising) stamp) (s.loop l).source }) ∧
        (∀ k, t.avg k = { s.avg k with run := (s.avg k).run.map (fun r => { r with start := startAtEdge n.val (!rising) stamp r.start }), lock := (s.avg k).lock.map (fun r => { r with start := startAtEdge n.val (!rising) stamp r.start }) }) ∧
        (∀ u, (∀ stop, selSource (channelWord (s.tiu u) stop) ≠ 40 + n.val) → t.tiu u = s.tiu u) ∧
        t = { s with bus := { s.bus with recent := t.bus.recent }, pat := { s.pat with tin := t.pat.tin, seq := t.pat.seq }, lp := { s.lp with loop := t.lp.loop }, meas := { s.meas with avg := t.meas.avg, unit := t.meas.unit } }) := by
  have htin : ∀ k, (tinSeen n.val rising stamp (tinMarked n.val rising stamp s)).tin k =
      if k = n.val then markTin (s.tin n.val) rising stamp (s.tin n.val) else s.tin k := fun k => by rw [tinSeen_tin, tinMarked_tin]
  have hown := (htin n.val).trans (if_pos rfl)
  obtain ⟨hrise, hfall⟩ := markTin_stamps (s.tin n.val) rising stamp (s.tin n.val)
  refine ⟨_, exec_tinEdge_enabled henable hstamp, by rw [hown, markTin_level], fun k hk => (htin k).trans (if_neg hk), by rw [hown, hrise],
    by rw [hown, hfall], ?_, fun hrest => ?_⟩
  · rw [hown]
    exact markTin_counts ..
  · obtain ⟨hseq, hloop, havg, hunit, hparts⟩ := tinSeen_tinMarked_rest hrest n.val rising stamp
    refine ⟨fun q hq hmode hstart => by rw [hseq, if_pos hq, releasedAt_armed hmode hstart], fun q hq hmode hop hoperand hdone hfrom => ?_,
      fun q hexec hwait hstart => ?_, hloop, havg, hunit, hparts⟩
    · rw [hseq, if_pos hq, releasedAt_wait hmode hop (by rw [hoperand]; cases rising <;> rfl) hdone hfrom]
    · rw [hseq, releasedAt_other hexec hwait hstart, ite_self]

theorem perturbWindowStart_fires {e : Fin 16} {s : State} {k a : Nat} (harmed : s.flt.armed = true)
    (hnext : nextWindow (s.pert e.val) s.flt.armTime = some (k, a)) :
    ∃ t, exec (.perturbWindowStart e) s = .next t ∧ t.pert e.val = { s.pert e.val with active := true, fired := satAdd max16 (s.pert e.val).fired 1, next := k + 1 } ∧
      t.clk.time = max s.clk.time a ∧ (∀ j, j ≠ e.val → t.pert j = s.pert j) := by
  refine ⟨_, exec_perturbWindowStart_some harmed hnext, ?_, ?_, fun j hj => ?_⟩
  · rw [State.modPert_pert, if_pos rfl, endWindow_pert, if_pos rfl]
    rfl
  · rw [State.modPert_clk, endWindow_clk]
    rfl
  · rw [State.modPert_pert, if_neg hj, endWindow_pert, if_neg hj]
    rfl

theorem perturbWindowStart_idle {e : Fin 16} {s : State} {k a : Nat} (harmed : s.flt.armed = true)
    (hnext : nextWindow (s.pert e.val) s.flt.armTime = some (k, a)) (hidle : (s.pert e.val).active = false) :
    ∃ t, exec (.perturbWindowStart e) s = .next t ∧ t.pert e.val = { s.pert e.val with active := true, fired := satAdd max16 (s.pert e.val).fired 1, next := k + 1 } ∧
      t.clk.time = max s.clk.time a ∧ (∀ j, j ≠ e.val → t.pert j = s.pert j) ∧ t.perturbed (s.pert e.val).kind (s.pert e.val).target = true ∧
      t = { s with clk := { s.clk with time := t.clk.time }, flt := { s.flt with entry := t.flt.entry } } := by
  have hexec := exec_perturbWindowStart_some harmed hnext
  rw [endWindow_off (s := s.reach a) hidle] at hexec
  refine ⟨_, hexec, ?_, rfl, fun j hj => ?_, perturbed_modPert (s := s.reach a) (f := openPert k) harmed e.isLt rfl, rfl⟩
  · rw [State.modPert_pert, if_pos rfl]
    rfl
  · rw [State.modPert_pert, if_neg hj]
    rfl

theorem exec_perturbWindowEnd_active {e : Fin 16} {s : State} (hactive : (s.pert e.val).active = true) :
    exec (.perturbWindowEnd e) s = .next (endWindow (s.reach (windowEnd (s.pert e.val))) e.val) :=
  congrArg Host.Outcome.next (if_pos hactive)

theorem perturbWindowEnd_credit {e : Fin 16} {s : State} {port k : Nat} (hactive : (s.pert e.val).active = true) (hkind : (s.pert e.val).kind = 5)
    (htarget : (s.pert e.val).target = 4 * port + k) (hport : port ≤ 1) (hk : k ≤ 3)
    (halone : ∀ j, j < 16 → j ≠ e.val → (s.pert j).active = true → (s.pert j).kind = 5 → (s.pert j).target ≠ (s.pert e.val).target)
    (hheld : (s.cls port k).withheld ≠ 0) :
    ∃ t, exec (.perturbWindowEnd e) s = .next t ∧ (t.cls port k).withheld = 0 ∧ (t.cls port k).rxFreed = ((s.cls port k).rxFreed + (s.cls port k).withheld) % 65536 ∧
      (t.port port).ctrlWaits = true ∧ (t.pert e.val).active = false ∧ (∀ p j, p ≤ 1 → j ≤ 3 → (p ≠ port ∨ j ≠ k) → t.cls p j = s.cls p j) ∧
      t = { s with clk := { s.clk with time := t.clk.time }, link := t.link, flt := { s.flt with entry := t.flt.entry } } := by
  have hexec := exec_perturbWindowEnd_active hactive
  have hpert := endWindow_pert (s.reach (windowEnd (s.pert e.val))) e.val e.val
  generalize windowEnd (s.pert e.val) = a at hexec hpert
  rw [endWindow_credit (s := s.reach a) hactive hkind htarget hport hk halone hheld] at hexec hpert
  have hown := (giveBack_cls (closePert (s.reach a) e.val) port k port k).trans (if_pos ⟨rfl, rfl⟩)
  refine ⟨_, hexec, by rw [hown]; rfl, by rw [hown]; rfl, giveBack_ctrl .., by rw [hpert, if_pos rfl], fun p j _ _ hother => ?_, rfl⟩
  rw [giveBack_cls, if_neg fun h => hother.elim (fun hp => hp h.1) fun hj => hj h.2]
  rfl

/-- Settles O59: TIN_EDGE marks its input, then the engines take the edge; a window's start ends one still active, its end
gives back what it withheld. -/
theorem faultEvents : Obligations.FaultEvents := by
  unfold Obligations.FaultEvents
  refine ⟨fun s h => ?_, fun s a h => ?_, fun b s h => ?_, fun b s h => ?_, fun n rising s h => tinEdge_disabled h,
    fun n rising s stamp h hstamp => tinEdge_enabled h hstamp, fun e s h => ?_, fun e s h => ?_,
    fun e s k a harmed hnext hidle => perturbWindowStart_idle harmed hnext hidle, fun e s k a harmed hnext _ => perturbWindowStart_fires harmed hnext,
    fun e s h => ?_, fun e s h => ?_, fun e s h h4 h5 h8 => ?_,
    fun e s port k hactive hkind htarget hport hk halone hheld => perturbWindowEnd_credit hactive hkind htarget hport hk halone hheld,
    fun p arm hkind hperiod hnext => nextWindow_single hkind hperiod hnext,
    fun p arm hkind hperiod hrepeats hnext => nextWindow_unlimited hkind hperiod hrepeats hnext,
    fun p arm hperiod hrepeats hover => nextWindow_over hperiod hrepeats hover⟩
  · rw [show exec .errnPulseEnd s = execErrnPulseEnd s from rfl, execErrnPulseEnd, h]
  · rw [show exec .errnPulseEnd s = execErrnPulseEnd s from rfl, execErrnPulseEnd, h]
    rfl
  · exact congrArg Host.Outcome.next (if_neg (by rw [h]; decide))
  · exact ⟨_, congrArg Host.Outcome.next (if_pos h), by rw [State.modBedc_bedc, if_pos rfl], fun k hk => by rw [State.modBedc_bedc, if_neg hk], rfl⟩
  · exact congrArg Host.Outcome.next (if_neg (by rw [h]; decide))
  · rw [show exec (.perturbWindowStart e) s = execPerturbWindowStart e s from rfl, execPerturbWindowStart, h, ite_self]
  · exact congrArg Host.Outcome.next (if_neg (by rw [h]; decide))
  · refine ⟨_, exec_perturbWindowEnd_active h, by rw [endWindow_pert, if_pos rfl]; rfl, fun j hj => by rw [endWindow_pert, if_neg hj]; rfl,
      by rw [endWindow_clk]; rfl⟩
  · have hexec := exec_perturbWindowEnd_active h
    generalize windowEnd (s.pert e.val) = a at hexec ⊢
    rw [endWindow_plain (s := s.reach a) h h4 h5 h8] at hexec
    exact ⟨_, hexec, by rw [closePert_pert, if_pos rfl]; rfl, fun j hj => by rw [closePert_pert, if_neg hj]; rfl, rfl, rfl⟩

end Sys2Proof.Machine
end

section
/-! PROOFS. O56: the keep store. Reads of a table after a run of bytes is put into it, the steps of a keep-store write, and the
commands. -/

set_option Elab.async false

namespace Sys2Proof.Machine

/-! Runs of entries of a table. -/

theorem lookup_filter {α : Type} (p : Nat → Bool) (m : Tab α) (j : Nat) :
    (m.filter (fun e => p e.1)).lookup j = if p j then m.lookup j else none := by
  induction m with
  | nil => simp
  | cons e m ih =>
    obtain ⟨k, v⟩ := e
    rw [List.filter_cons]
    by_cases hk : j = k
    · subst hk
      rw [List.lookup_cons_self]
      split
      · rw [List.lookup_cons_self]
      · next hp => rw [ih, if_neg hp]
    · have hne : (j == k) = false := beq_false_of_ne hk
      rw [List.lookup_cons, hne]
      split
      · rw [List.lookup_cons, hne, ih]
      · exact ih

theorem lookup_tlist_out {α : Type} [DecidableEq α] (d : Nat → α) {l : List α} {k j : Nat} (h : j < k ∨ k + l.length ≤ j) :
    (tlist d k l).lookup j = none := by
  rw [List.lookup_eq_none_iff]
  intro e he
  have hkeys := tlist_keys d l k e he
  simp only [bne_iff_ne, ne_eq]
  omega

theorem tget_tlist {α : Type} [DecidableEq α] (d : Nat → α) :
    ∀ (l : List α) (k j : Nat), k ≤ j → j < k + l.length → tget d (tlist d k l) j = l.getD (j - k) (d j)
  | [], k, j, _, h => absurd h (by simp only [List.length_nil]; omega)
  | v :: r, k, j, hlow, hhigh => by
    unfold tlist
    by_cases hj : j = k
    · subst hj
      rw [Nat.sub_self, List.getD_cons_zero]
      split
      · next hv => rw [tget, lookup_tlist_out d (.inl (Nat.lt_succ_self j)), hv]
      · rw [tget, List.lookup_cons_self]
    · have hrest := tget_tlist d r (k + 1) j (by omega) (by simp only [List.length_cons] at hhigh; omega)
      have hsub : j - k = (j - (k + 1)) + 1 := by omega
      rw [hsub, List.getD_cons_succ, ← hrest]
      split
      · rfl
      · rw [tget, List.lookup_cons, beq_false_of_ne hj]
        rfl

/-- A read after a run is put: inside the run its value, outside as before. -/
theorem tget_tput {α : Type} [DecidableEq α] (d : Nat → α) (m : Tab α) (k : Nat) (l : List α) (j : Nat) :
    tget d (tput d m k l) j = if k ≤ j ∧ j < k + l.length then l.getD (j - k) (d j) else tget d m j := by
  unfold tput
  rw [tget, List.lookup_append, List.lookup_append, lookup_filter (fun a => decide (a < k)), lookup_filter (fun a => decide (k + l.length ≤ a))]
  simp only [decide_eq_true_eq]
  by_cases hin : k ≤ j ∧ j < k + l.length
  · rw [if_pos hin]
    obtain ⟨hlow, hhigh⟩ := hin
    rw [if_neg (Nat.not_lt.2 hlow), if_neg (Nat.not_le.2 hhigh), Option.none_or, Option.or_none]
    exact tget_tlist d l k j hlow hhigh
  · rw [if_neg hin, lookup_tlist_out d (by omega), Option.or_none]
    by_cases hlow : j < k
    · rw [if_pos hlow, if_neg (by omega), Option.or_none]
      rfl
    · rw [if_neg hlow, if_pos (by omega), Option.none_or]
      rfl

theorem tget_terase {α : Type} (d : Nat → α) (m : Tab α) (lo n j : Nat) :
    tget d (terase m lo n) j = if lo ≤ j ∧ j < lo + n then d j else tget d m j := by
  unfold terase
  rw [tget, lookup_filter (fun a => decide (a < lo) || decide (lo + n ≤ a))]
  by_cases hin : lo ≤ j ∧ j < lo + n
  · rw [if_pos hin, if_neg (by simp; omega)]
  · rw [if_neg hin, if_pos (by simp; omega)]
    rfl

theorem getD_default {α : Type} {l : List α} {i : Nat} (h : i < l.length) (x y : α) : l.getD i x = l.getD i y := by
  rw [List.getD_eq_getElem _ _ h, List.getD_eq_getElem _ _ h]

/-! The steps of a keep-store write. -/

theorem programKeep_keepByte (s : State) (p : Nat) (l : List Byte) (a : Nat) :
    (programKeep s p l).keepByte a = if p ≤ a ∧ a < p + l.length then l.getD (a - p) 0 else s.keepByte a := by
  refine (tget_tput (fun _ => (0xFF : Byte)) s.cal.keep p l a).trans ?_
  split
  · exact getD_default (by omega) _ _
  · rfl

/-- The erase itself, without the WEAR that it may raise. -/
def erased (s : State) (k : Nat) : State :=
  { s with cal := { s.cal with keep := terase s.cal.keep (4096 * k) 4096, wear := tmod (fun _ => 0) s.cal.wear k (fun n => n + 1) } }

theorem erased_wearOf (s : State) (k j : Nat) : (erased s k).wearOf j = if j = k then s.wearOf k + 1 else s.wearOf j :=
  tget_tmod (fun _ => 0) s.cal.wear k (fun n => n + 1) j

theorem erased_keepByte (s : State) (k a : Nat) : (erased s k).keepByte a = if a / 4096 = k then 0xFF else s.keepByte a := by
  refine (tget_terase (fun _ => (0xFF : Byte)) s.cal.keep (4096 * k) 4096 a).trans ?_
  by_cases h : a / 4096 = k
  · rw [if_pos h, if_pos (by omega)]
  · rw [if_neg h, if_neg (by omega)]
    rfl

theorem eraseSector_eq (s : State) (k : Nat) :
    eraseSector s k = if s.wearOf k = 90000 then (erased s k).raise 0x1B 5 k else erased s k := by
  have hwear : (erased s k).wearOf k = s.wearOf k + 1 := (erased_wearOf s k k).trans (if_pos rfl)
  change (if (erased s k).wearOf k = 90001 then (erased s k).raise 0x1B 5 k else erased s k) = _
  rw [hwear]
  by_cases h : s.wearOf k = 90000
  · rw [if_pos h, if_pos (by omega)]
  · rw [if_neg h, if_neg (by omega)]

theorem eraseSector_parts (s : State) (k : Nat) : ∃ f, eraseSector s k = { erased s k with flt := f } := by
  rw [eraseSector_eq]
  split
  · obtain ⟨b, w, h⟩ := raise_parts (erased s k) 0x1B 5 k 0
    exact ⟨_, h⟩
  · exact ⟨s.flt, rfl⟩

theorem eraseSector_wearOf (s : State) (k j : Nat) : (eraseSector s k).wearOf j = if j = k then s.wearOf k + 1 else s.wearOf j := by
  obtain ⟨f, hf⟩ := eraseSector_parts s k
  rw [hf]
  exact erased_wearOf s k j

theorem eraseSector_keepByte (s : State) (k a : Nat) : (eraseSector s k).keepByte a = if a / 4096 = k then 0xFF else s.keepByte a := by
  obtain ⟨f, hf⟩ := eraseSector_parts s k
  rw [hf]
  exact erased_keepByte s k a

theorem wornOut_eraseSector {s : State} {k j : Nat} (h : j ≠ k) : wornOut (eraseSector s k) j = wornOut s j := by
  rw [wornOut, wornOut, eraseSector_wearOf, if_neg h]

/-- The write goes on with its next step. -/
theorem keepProceed_goes {s : State} {o : KeepOp} {x : KeepStep} {r : List KeepStep} (hop : s.cal.op = some o) (hsteps : o.steps = x :: r)
    (hopen : s.sup.keepOpen = true) (hworn : ∀ j, x = .erase j → wornOut s j = false) : keepProceed s = s := by
  rw [keepProceed, hop]
  dsimp only
  rw [hsteps]
  dsimp only
  rw [if_neg (by rw [hopen]; decide)]
  cases x with
  | erase j => exact if_neg (by rw [hworn j rfl]; decide)
  | program a l => rfl

theorem keepProceed_shut {s : State} {o : KeepOp} {x : KeepStep} {r : List KeepStep} (hop : s.cal.op = some o) (hsteps : o.steps = x :: r)
    (hopen : s.sup.keepOpen = false) : keepProceed s = endKeep s (fun s => postBad s (0x31, o.area)) := by
  rw [keepProceed, hop]
  dsimp only
  rw [hsteps]
  dsimp only
  rw [if_pos (by rw [hopen]; rfl)]

theorem keepProceed_worn {s : State} {o : KeepOp} {j : Nat} {r : List KeepStep} (hop : s.cal.op = some o) (hsteps : o.steps = .erase j :: r)
    (hopen : s.sup.keepOpen = true) (hworn : wornOut s j = true) : keepProceed s = endKeep s (fun s => postBad s (0x12, 0x8001)) := by
  rw [keepProceed, hop]
  dsimp only
  rw [hsteps]
  dsimp only
  rw [if_neg (by rw [hopen]; decide), if_pos hworn]

theorem keepProceed_done {s : State} {o : KeepOp} (hop : s.cal.op = some o) (hsteps : o.steps = []) :
    keepProceed s = endKeep s (fun s => postOk s (if o.area = 2 then toWords 2 o.gen else [])) := by
  rw [keepProceed, hop]
  dsimp only
  rw [hsteps]

theorem endKeep_waiting {s : State} {c : Current} (f : State → State) (hc : s.fw.current = some c) (hw : c.wait = .keepOp) :
    endKeep s f = f { s with cal := { s.cal with op := none } } := by
  refine if_pos ?_
  change s.fw.current.any _ = true
  rw [hc]
  exact decide_eq_true hw

/-- The write with its first step done. -/
def stepsLeft (o : KeepOp) (r : List KeepStep) (s : State) : State := { s with cal := { s.cal with op := some { o with steps := r } } }

theorem exec_keepOperationDone_program {s : State} {o : KeepOp} {p : Nat} {l : List Byte} {r : List KeepStep} (hop : s.cal.op = some o)
    (hsteps : o.steps = .program p l :: r) : exec .keepOperationDone s = .next (keepProceed (stepsLeft o r (programKeep s p l))) := by
  rw [show exec .keepOperationDone s = execKeepOperationDone s from rfl, execKeepOperationDone, hop]
  dsimp only
  rw [hsteps]
  rfl

theorem exec_keepOperationDone_erase {s : State} {o : KeepOp} {k : Nat} {r : List KeepStep} (hop : s.cal.op = some o)
    (hsteps : o.steps = .erase k :: r) : exec .keepOperationDone s = .next (keepProceed (stepsLeft o r (eraseSector s k))) := by
  rw [show exec .keepOperationDone s = execKeepOperationDone s from rfl, execKeepOperationDone, hop]
  dsimp only
  rw [hsteps]
  rfl

/-- A write that ends after programming answers with nothing but the bytes changed. -/
theorem keepEnd_answers {s : State} {o : KeepOp} {c : Current} {p st d : Nat} {l : List Byte} {r : List KeepStep} {ws : List Word}
    (hop : s.cal.op = some o) (hsteps : o.steps = .program p l :: r) (hc : s.fw.current = some c) (hw : c.wait = .keepOp)
    (hend : keepProceed (stepsLeft o r (programKeep s p l)) = endKeep (stepsLeft o r (programKeep s p l)) (fun s => postResponse s st d ws)) :
    ∃ u t, exec .keepOperationDone s = .next t ∧ Answered c st d ws u t ∧ u.cal.op = none ∧
      (∀ a, u.keepByte a = (if p ≤ a ∧ a < p + l.length then l.getD (a - p) 0 else s.keepByte a)) ∧
      u = { s with cal := { s.cal with op := none, keep := u.cal.keep } } := by
  refine ⟨{ programKeep s p l with cal := { (programKeep s p l).cal with op := none } }, _, exec_keepOperationDone_program hop hsteps, ?_, rfl,
    programKeep_keepByte s p l, rfl⟩
  rw [hend, endKeep_waiting _ (s := stepsLeft o r (programKeep s p l)) hc hw]
  exact postResponse_answered _ c st d ws hc

/-! The commands. -/

/-- A keep-store write whose first step erases a sector that is not worn out starts, and its command waits. -/
theorem startKeep_waits {s : State} {o : KeepOp} {k : Nat} {r : List KeepStep} (hsteps : o.steps = .erase k :: r) (hopen : s.sup.keepOpen = true) (hworn : wornOut s k = false) :
    startKeep s o = waitFor { s with cal := { s.cal with op := some o } } .keepOp := by
  refine keepProceed_goes (s := waitFor { s with cal := { s.cal with op := some o } } .keepOp) (x := .erase k) rfl hsteps hopen fun j hj => ?_
  cases hj
  exact hworn

theorem keepOpen_of_allowed {s : State} {area : Nat} (h : keepAllowed s area = true) : s.sup.keepOpen = true := by
  rw [keepAllowed, Bool.and_eq_true] at h
  exact h.2

theorem needKeep_of {s : State} {area : Nat} (h : keepAllowed s area = true) : needKeep s area = none := if_pos h
theorem needKeep_of_not {s : State} {area : Nat} (h : keepAllowed s area = false) : needKeep s area = some (0x31, area) :=
  if_neg (by rw [h]; decide)
theorem needKeepIdle_of {s : State} (h : keepBusy s = false) : needKeepIdle s = none := by rw [needKeepIdle, h]; rfl
theorem needKeepIdle_of_not {s : State} (h : keepBusy s = true) : needKeepIdle s = some (0x10, 0x1B) := by rw [needKeepIdle, h]; rfl

theorem length_wordsToBytes (l : List Word) : (wordsToBytes l).length = 2 * l.length := by
  induction l with
  | nil => rfl
  | cons w l ih =>
    rw [wordsToBytes, List.length_cons, List.length_cons, ih, List.length_cons]
    omega

/-- The parameters of a DATA action in their ranges. -/
theorem keepParams_data {c : Current} (harea : par c 0 = 0 ∨ par c 0 = 2) (hact : par c 1 = 0) (hlow : 2 ≤ par c 4) (hhigh : par c 4 ≤ 224)
    (heven : par c 4 % 2 = 0) (hfit : par32 c 2 + par c 4 ≤ if par c 0 = 0 then 0x40000 else 0x8000) : ∀ x ∈ keepParams c, x = none := by
  unfold keepParams
  dsimp only
  rw [if_pos hact, if_pos hact]
  refine pass_cons (needParam_of 0 ?_) (pass_cons (needParam_of 1 ?_) (pass_cons (needParam_of 2 (decide_eq_true hfit))
    (pass_cons (needParam_of 4 ?_) pass_nil)))
  · rcases harea with h | h <;> rw [h] <;> rfl
  · rw [hact]
    rcases harea with h | h <;> rw [h] <;> rfl
  · rw [decide_eq_true hlow, decide_eq_true hhigh, decide_eq_true heven]
    rfl

/-- The parameters of another action on the seed area. -/
theorem keepParams_seed {c : Current} (harea : par c 0 = 2) (hact : par c 1 ≠ 0) (hlegal : par c 1 ≤ 3) : ∀ x ∈ keepParams c, x = none := by
  unfold keepParams
  dsimp only
  rw [if_neg hact, if_neg hact]
  refine pass_cons (needParam_of 0 ?_) (pass_cons (needParam_of 1 ?_) (pass_cons rfl (pass_cons rfl pass_nil)))
  · rw [harea]
    rfl
  · rw [decide_eq_true hlegal, harea]
    rfl

theorem length_keepData {c : Current} (h : par c 4 ≤ 2 * (c.params.length - 5)) : (keepData c).length = par c 4 := by
  rw [keepData, List.length_take, length_wordsToBytes, List.length_drop]
  omega

theorem rangeFrom_cons (a n : Nat) : ∃ r, rangeFrom a (n + 1) = a :: r := by
  rw [rangeFrom, List.range_succ_eq_map, List.map_cons, Nat.add_zero]
  exact ⟨_, rfl⟩

/-- The first step of a write of the user area erases the first sector that it touches. -/
theorem userSteps_first (s : State) (a : Nat) {l : List Byte} (h : l ≠ []) : ∃ r, userSteps s a l = .erase (a / 4096) :: r := by
  have hpos := List.length_pos_iff.2 h
  have hdiv : a / 4096 ≤ (a + l.length - 1) / 4096 := Nat.div_le_div_right (by omega)
  obtain ⟨n, hn⟩ : ∃ n, (a + l.length - 1) / 4096 + 1 - a / 4096 = n + 1 := ⟨(a + l.length - 1) / 4096 - a / 4096, by omega⟩
  obtain ⟨r, hr⟩ := rangeFrom_cons (a / 4096) n
  unfold userSteps
  dsimp only
  rw [hn, hr, List.flatMap_cons]
  exact ⟨_, rfl⟩

theorem seedSteps_first (s : State) (b : Bool) (t : Tab Byte) (gen : Nat) : ∃ r, seedSteps s b t gen = .erase (seedBase b / 4096) :: r := by
  unfold seedSteps
  dsimp only
  generalize (List.range 0x5DA0).map (fun i => tget seedFactory t (0x40 + i)) = body
  obtain ⟨r, hr⟩ := rangeFrom_cons (seedBase b / 4096) 7
  rw [hr]
  exact ⟨_, rfl⟩

theorem keepWrite_user {s : State} {c : Current} (h : Picked s 0x0B03 c) (harea : par c 0 = 0) (hact : par c 1 = 0) (hlow : 2 ≤ par c 4)
    (hhigh : par c 4 ≤ 224) (heven : par c 4 % 2 = 0) (hfit : par32 c 2 + par c 4 ≤ 0x40000) (hgiven : par c 4 ≤ 2 * (c.params.length - 5))
    (hallowed : keepAllowed s 0 = true) (hidle : keepBusy s = false) (hworn : wornOut s ((0x30000 + par32 c 2) / 4096) = false) :
    ∃ u t, exec .keepWriteData s = .next t ∧ Waits c .keepOp [] u t ∧
      u = { s with cal := { s.cal with op := some { area := 0, steps := userSteps s (0x30000 + par32 c 2) (keepData c), gen := 0 } } } := by
  have hpass := keepParams_data (.inl harea) hact hlow hhigh heven (by rw [if_pos harea]; exact hfit)
  have hdata : keepData c ≠ [] := List.length_pos_iff.1 (by rw [length_keepData hgiven]; omega)
  obtain ⟨r, hr⟩ := userSteps_first s (0x30000 + par32 c 2) hdata
  obtain ⟨t, ht, hwaits⟩ : ∃ t, exec .keepWriteData s = .next t ∧ Waits c .keepOp []
      { s with cal := { s.cal with op := some { area := 0, steps := userSteps s (0x30000 + par32 c 2) (keepData c), gen := 0 } } } t := by
    refine picked_waits (k := fun c => _) h (decide_eq_true hact) rfl (firstBad_pass (pass_append hpass
      (pass_cons ?_ (pass_cons ?_ pass_nil)))) ?_ h.1
    · rw [if_pos harea, needKeep_of hallowed]
    · rw [if_pos harea, needKeepIdle_of hidle]
    · dsimp only
      rw [if_pos harea]
      exact startKeep_waits hr (keepOpen_of_allowed hallowed) hworn
  exact ⟨_, t, ht, hwaits, rfl⟩

theorem keepWrite_userFails {s : State} {c : Current} {st d : Nat} (h : Picked s 0x0B03 c) (harea : par c 0 = 0) (hact : par c 1 = 0)
    (hlow : 2 ≤ par c 4) (hhigh : par c 4 ≤ 224) (heven : par c 4 % 2 = 0) (hfit : par32 c 2 + par c 4 ≤ 0x40000)
    (hfail : firstBad [needKeep s 0, needKeepIdle s] = some (st, d)) :
    ∃ t, exec .keepWriteData s = .next t ∧ Answered c st d [] s t := by
  have hpass := keepParams_data (.inl harea) hact hlow hhigh heven (by rw [if_pos harea]; exact hfit)
  refine picked_bad (k := fun c => _) h (decide_eq_true hact) rfl ((firstBad_append hpass).trans ?_)
  rw [if_pos harea, if_pos harea]
  exact hfail

theorem keepWrite_seed {s : State} {c : Current} (h : Picked s 0x0B03 c) (harea : par c 0 = 2) (hact : par c 1 = 0) (hlow : 2 ≤ par c 4)
    (hhigh : par c 4 ≤ 224) (heven : par c 4 % 2 = 0) (hfit : par32 c 2 + par c 4 ≤ 0x8000) :
    ∃ u t st, exec .keepWriteData s = .next t ∧ Answered c 0 0 [] u t ∧ u = { s with cal := { s.cal with staging := some st } } ∧
      ∀ a, tget seedFactory st a = (if par32 c 2 ≤ a ∧ a < par32 c 2 + (keepData c).length then (keepData c).getD (a - par32 c 2) 0 else tget seedFactory (stagingOf s) a) := by
  have hne : ¬par c 0 = 0 := by rw [harea]; decide
  have hpass := keepParams_data (.inr harea) hact hlow hhigh heven (by rw [if_neg hne]; exact hfit)
  obtain ⟨t, ht, hans⟩ : ∃ t, exec .keepWriteData s = .next t ∧ Answered c 0 0 []
      { s with cal := { s.cal with staging := some (twrite seedFactory (stagingOf s) (par32 c 2) (keepData c)) } } t := by
    refine picked_ok (k := fun c => _) h (decide_eq_true hact) rfl (firstBad_pass (pass_append hpass
      (pass_cons ?_ (pass_cons ?_ pass_nil)))) ?_ h.1
    · exact if_neg hne
    · exact if_neg hne
    · exact if_neg hne
  refine ⟨_, t, _, ht, hans, rfl, fun a => ?_⟩
  rw [tget_twrite]
  split
  · next hin => rw [List.getD_eq_getElem _ _ (by omega)]
  · rfl

/-- The generation of the next seed record. -/
def nextSeedGen (s : State) : Nat := match newestSeed s with | some b => seedGen s b + 1 | none => 1

/-- The write that a COMMIT of staging image `st` starts. -/
def seedCommit (s : State) (st : Tab Byte) : KeepOp :=
  { area := 2, steps := seedSteps s (decide (newestSeed s = some false)) st (nextSeedGen s), gen := nextSeedGen s }

theorem keepWrite_commit {s : State} {c : Current} {st : Tab Byte} (h : Picked s 0x0B03 c) (harea : par c 0 = 2) (hact : par c 1 = 1)
    (hstaging : s.cal.staging = some st) (hgood : seedBad (tget seedFactory st) = none) (hallowed : keepAllowed s 2 = true)
    (hidle : keepBusy s = false) (hworn : wornOut s (seedBase (decide (newestSeed s = some false)) / 4096) = false) :
    ∃ u t o, exec .keepWriteCommit s = .next t ∧ Waits c .keepOp [] u t ∧ u = { s with cal := { s.cal with op := some o } } ∧ o.area = 2 ∧
      o.gen = (match newestSeed s with | some b => seedGen s b + 1 | none => 1) ∧
      o.steps = seedSteps s (decide (newestSeed s = some false)) st o.gen := by
  have hpass := firstBad_pass (keepParams_seed harea (by omega) (by omega))
  obtain ⟨r, hr⟩ := seedSteps_first s (decide (newestSeed s = some false)) st (nextSeedGen s)
  have hkeep := startKeep_waits (o := seedCommit s st) hr (keepOpen_of_allowed hallowed) hworn
  have hexec : exec .keepWriteCommit s = .next (startKeep s (seedCommit s st)) := by
    refine congrArg Host.Outcome.next ((onCommand_picked h (fun p => decide (wAt p 1 = 1)) _ (decide_eq_true hact)).trans ?_)
    dsimp only
    rw [hpass, hstaging]
    dsimp only
    rw [hgood]
    dsimp only
    rw [checked_pass _ (firstBad_pass (pass_cons (needKeep_of hallowed) (pass_cons (needKeepIdle_of hidle) pass_nil)))]
    rfl
  exact ⟨{ s with cal := { s.cal with op := some (seedCommit s st) } }, _, seedCommit s st, hexec.trans (congrArg Host.Outcome.next hkeep),
    waitFor_waits .keepOp [] h.1, rfl, rfl, rfl, rfl⟩

theorem keepWrite_commitBad {s : State} {c : Current} {st : Tab Byte} {k : Nat} (h : Picked s 0x0B03 c) (harea : par c 0 = 2) (hact : par c 1 = 1)
    (hstaging : s.cal.staging = some st) (hbad : seedBad (tget seedFactory st) = some k) :
    ∃ t, exec .keepWriteCommit s = .next t ∧ Answered c 0x12 0x8009 (toWords 2 k) s t := by
  have hpass := firstBad_pass (keepParams_seed harea (by omega) (by omega))
  refine picked_answers (k := fun c => _) h (decide_eq_true hact) ?_ h.1
  dsimp only
  rw [hpass, hstaging]
  dsimp only
  rw [hbad]

theorem keepWrite_commitNone {s : State} {c : Current} (h : Picked s 0x0B03 c) (harea : par c 0 = 2) (hact : par c 1 = 1)
    (hstaging : s.cal.staging = none) (hallowed : keepAllowed s 2 = true) :
    ∃ t, exec .keepWriteCommit s = .next t ∧ Answered c 0x13 28 [] s t := by
  have hpass := firstBad_pass (keepParams_seed harea (by omega) (by omega))
  refine picked_answers (k := fun c => _) h (decide_eq_true hact) ?_ h.1
  dsimp only
  rw [hpass, hstaging]
  dsimp only
  rw [checked_fail (b := (0x13, 28)) _ (by rw [needKeep_of hallowed]; rfl)]
  rfl

theorem keepWrite_capture {s : State} {c : Current} (h : Picked s 0x0B03 c) (harea : par c 0 = 2) (hact : par c 1 = 2) :
    ∃ u t st, exec .keepWriteCapture s = .next t ∧ Answered c 0 0 [] u t ∧ u = { s with cal := { s.cal with staging := some st } } ∧
      ∀ a, tget seedFactory st a = (if 0x4B40 ≤ a ∧ a < 0x4B40 + (captureBytes s).length then (captureBytes s).getD (a - 0x4B40) 0 else tget seedFactory (stagingOf s) a) := by
  have hpass := firstBad_pass (keepParams_seed harea (by omega) (by omega))
  obtain ⟨t, ht, hans⟩ : ∃ t, exec .keepWriteCapture s = .next t ∧ Answered c 0 0 []
      { s with cal := { s.cal with staging := some (tput seedFactory (stagingOf s) 0x4B40 (captureBytes s)) } } t :=
    picked_ok (k := fun c => _) h (decide_eq_true hact) rfl hpass rfl h.1
  refine ⟨_, t, _, ht, hans, rfl, fun a => ?_⟩
  generalize captureBytes s = l
  rw [tget_tput]
  split
  · next hin => exact getD_default (by omega) _ _
  · rfl

theorem keepParams_badArea {c : Current} (h0 : par c 0 ≠ 0) (h2 : par c 0 ≠ 2) (l : List (Option Bad)) :
    firstBad (keepParams c ++ l) = some (0x12, 0) := by
  have hbad : needParam (decide (par c 0 = 0) || decide (par c 0 = 2)) 0 = some (0x12, 0) :=
    needParam_of_not 0 (by rw [decide_eq_false h0, decide_eq_false h2]; rfl)
  unfold keepParams
  dsimp only
  rw [hbad]
  rfl

theorem length_captureBytes (s : State) : (captureBytes s).length = 0x5DE0 - 0x4B40 := by
  have hflat : ∀ {f : Nat → List Byte} {k : Nat} (n : Nat), (∀ i, (f i).length = k) → ((List.range n).flatMap f).length = n * k := fun {f k} n hf => by
    rw [List.length_flatMap, List.map_congr_left (fun i _ => hf i), List.map_const', List.sum_replicate, List.length_range, smul_eq_mul]
  unfold captureBytes
  dsimp only
  simp only [List.length_append]
  rw [hflat (k := 2) 1792 (fun _ => rfl), hflat (k := 32) 5 (fun _ => rfl), hflat (k := 24) 16 (fun _ => rfl), hflat (k := 8) 16 (fun _ => rfl),
    hflat (k := 16) 32 (fun _ => rfl)]

theorem keepRead_stored {s : State} {c : Current} (h : Picked s 0x0B04 c) (harea : par c 0 ≤ 5) (hfit : par32 c 1 + par c 3 ≤ (keepArea (par c 0)).2)
    (hlow : 2 ≤ par c 3) (hhigh : par c 3 ≤ 224) (heven : par c 3 % 2 = 0) :
    (keepBusy s = false → ∃ t, exec .keepRead s = .next t ∧
      Answered c 0 0 (bytesToWords (keepBytes s ((keepArea (par c 0)).1 + par32 c 1) (par c 3))) s t) ∧
      (keepBusy s = true → ∃ t, exec .keepRead s = .next t ∧ Answered c 0x10 0x1B [] s t) := by
  have hne : ¬par c 0 = 6 := by omega
  have hpass : ∀ x ∈ [needParam (decide (par c 0 ≤ 6)) 0, needParam (decide (par32 c 1 + par c 3 ≤ (keepArea (par c 0)).2)) 1,
      needParam (decide (2 ≤ par c 3) && decide (par c 3 ≤ 224) && decide (par c 3 % 2 = 0)) 3,
      if par c 0 = 6 then needState s.cal.staging.isSome 28 else none], x = none := by
    refine pass_cons (needParam_of 0 (decide_eq_true (by omega))) (pass_cons (needParam_of 1 (decide_eq_true hfit)) (pass_cons (needParam_of 3 ?_)
      (pass_cons (if_neg hne) pass_nil)))
    rw [decide_eq_true hlow, decide_eq_true hhigh, decide_eq_true heven]
    rfl
  refine ⟨fun hidle => ?_, fun hbusy => ?_⟩
  · refine picked_ok (k := fun c => _) h rfl rfl (firstBad_pass (pass_append hpass (pass_cons (needKeepIdle_of hidle) pass_nil))) ?_ h.1
    rw [if_neg hne]
  · exact picked_bad (k := fun c => _) h rfl rfl ((firstBad_append hpass).trans (by rw [needKeepIdle_of_not hbusy]; rfl))

theorem keepRead_staging {s : State} {c : Current} {st : Tab Byte} (h : Picked s 0x0B04 c) (harea : par c 0 = 6) (hfit : par32 c 1 + par c 3 ≤ 0x8000)
    (hlow : 2 ≤ par c 3) (hhigh : par c 3 ≤ 224) (heven : par c 3 % 2 = 0) (hstaging : s.cal.staging = some st) (hidle : keepBusy s = false) :
    ∃ t, exec .keepRead s = .next t ∧ Answered c 0 0 (bytesToWords ((List.range (par c 3)).map (fun i => tget seedFactory st (par32 c 1 + i)))) s t := by
  have hsize : (keepArea (par c 0)).2 = 0x8000 := by rw [harea]; rfl
  refine picked_ok (k := fun c => _) h rfl rfl (firstBad_pass (pass_cons (needParam_of 0 (by rw [harea]; rfl)) (pass_cons (needParam_of 1 ?_)
    (pass_cons (needParam_of 3 ?_) (pass_cons ?_ (pass_cons (needKeepIdle_of hidle) pass_nil)))))) ?_ h.1
  · rw [hsize]
    exact decide_eq_true hfit
  · rw [decide_eq_true hlow, decide_eq_true hhigh, decide_eq_true heven]
    rfl
  · rw [if_pos harea, hstaging]
    rfl
  · rw [if_pos harea, hstaging]
    rfl

theorem keepDone_erase {s : State} {o : KeepOp} {k : Nat} {x : KeepStep} {r : List KeepStep} (hop : s.cal.op = some o)
    (hsteps : o.steps = .erase k :: x :: r) (hopen : s.sup.keepOpen = true) (hnext : ∀ j, x = .erase j → j ≠ k ∧ wornOut s j = false) :
    ∃ t, exec .keepOperationDone s = .next t ∧ t.cal.op = some { o with steps := x :: r } ∧ (∀ a, t.keepByte a = (if a / 4096 = k then 0xFF else s.keepByte a)) ∧
      t.wearOf k = s.wearOf k + 1 ∧ (∀ j, j ≠ k → t.wearOf j = s.wearOf j) ∧
      (s.wearOf k = 90000 → ∃ d ∈ t.flt.waiting, d.block = 0x1B ∧ d.source = 5 ∧ d.d0 = w16 k) ∧ t = { s with cal := t.cal, flt := t.flt } := by
  obtain ⟨f, hf⟩ := eraseSector_parts s k
  refine ⟨stepsLeft o (x :: r) (eraseSector s k), (exec_keepOperationDone_erase hop hsteps).trans (congrArg Host.Outcome.next ?_), rfl,
    eraseSector_keepByte s k, (eraseSector_wearOf s k k).trans (if_pos rfl), fun j hj => (eraseSector_wearOf s k j).trans (if_neg hj), fun hwear => ?_, ?_⟩
  · refine keepProceed_goes (x := x) rfl rfl ?_ fun j hj => ?_
    · rw [hf]
      exact hopen
    · obtain ⟨hne, hworn⟩ := hnext j hj
      exact (wornOut_eraseSector hne).trans hworn
  · rw [eraseSector_eq, if_pos hwear]
    change ∃ d ∈ ((erased s k).raise 0x1B 5 k).flt.waiting, _
    rw [raise_waiting]
    exact ⟨_, List.mem_append_right _ (List.mem_singleton.2 rfl), rfl, rfl, rfl⟩
  · rw [hf]
    rfl

theorem keepDone_program {s : State} {o : KeepOp} {p : Nat} {l : List Byte} {x : KeepStep} {r : List KeepStep} (hop : s.cal.op = some o)
    (hsteps : o.steps = .program p l :: x :: r) (hopen : s.sup.keepOpen = true) (hworn : ∀ j, x = .erase j → wornOut s j = false) :
    ∃ t, exec .keepOperationDone s = .next t ∧ (∀ a, t.keepByte a = (if p ≤ a ∧ a < p + l.length then l.getD (a - p) 0 else s.keepByte a)) ∧
      t = { s with cal := { s.cal with op := some { o with steps := x :: r }, keep := t.cal.keep } } :=
  ⟨stepsLeft o (x :: r) (programKeep s p l), (exec_keepOperationDone_program hop hsteps).trans
    (congrArg Host.Outcome.next (keepProceed_goes (x := x) rfl rfl hopen hworn)), programKeep_keepByte s p l, rfl⟩

/-- Settles O56: the checks of each command, the steps that a write leaves to do, and the run of bytes that each step puts. -/
theorem keepStoreCommands : Obligations.KeepStoreCommands := by
  unfold Obligations.KeepStoreCommands
  refine ⟨fun s c h harea hact hlow hhigh heven hfit hgiven hallowed hidle hworn =>
      keepWrite_user h harea hact hlow hhigh heven hfit hgiven hallowed hidle hworn,
    fun s c h harea hact hlow hhigh heven hfit hallowed => keepWrite_userFails h harea hact hlow hhigh heven hfit ?shut,
    fun s c h harea hact hlow hhigh heven hfit hallowed hbusy => keepWrite_userFails h harea hact hlow hhigh heven hfit ?busy,
    fun s c h harea hact hlow hhigh heven hfit => keepWrite_seed h harea hact hlow hhigh heven hfit,
    fun s c h h0 h2 hact => picked_bad (k := fun c => _) h (decide_eq_true hact) rfl (keepParams_badArea h0 h2 _),
    ?commit,
    fun s c st k h harea hact hstaging hbad => keepWrite_commitBad h harea hact hstaging hbad,
    fun s c h harea hact hstaging hallowed => keepWrite_commitNone h harea hact hstaging hallowed,
    fun s c h harea hact => keepWrite_capture h harea hact, length_captureBytes, ?discard, ?discardNone,
    fun s c h harea hfit hlow hhigh heven hidle => (keepRead_stored h harea hfit hlow hhigh heven).1 hidle,
    fun s c st h harea hfit hlow hhigh heven hstaging hidle => keepRead_staging h harea hfit hlow hhigh heven hstaging hidle,
    fun s c h harea hfit hlow hhigh heven hbusy => (keepRead_stored h harea hfit hlow hhigh heven).2 hbusy,
    ?none, fun s o k x r hop hsteps hopen hnext => keepDone_erase hop hsteps hopen hnext, ?last, ?shutWindow, ?worn,
    fun s o p l x r hop hsteps hopen hworn => keepDone_program hop hsteps hopen hworn⟩
  case shut => rw [needKeep_of_not hallowed]; rfl
  case busy => rw [needKeep_of hallowed, needKeepIdle_of_not hbusy]; rfl
  case commit =>
    rintro s c st _ h harea hact hstaging hgood hallowed hidle rfl hworn
    exact keepWrite_commit h harea hact hstaging hgood hallowed hidle hworn
  case discard =>
    intro s c st h harea hact hstaging
    have hpass := pass_append (keepParams_seed harea (by omega) (by omega))
      (pass_cons (needState_of (b := s.cal.staging.isSome) 28 (by rw [hstaging]; rfl)) pass_nil)
    obtain ⟨t, ht, hans⟩ : ∃ t, exec .keepWriteDiscard s = .next t ∧ Answered c 0 0 [] { s with cal := { s.cal with staging := none } } t :=
      picked_ok (k := fun c => _) h (decide_eq_true hact) rfl (firstBad_pass hpass) rfl h.1
    exact ⟨_, t, ht, hans, rfl⟩
  case discardNone =>
    intro s c h harea hact hstaging
    refine picked_bad (k := fun c => _) h (decide_eq_true hact) rfl
      ((firstBad_append (keepParams_seed harea (by omega) (by omega))).trans ?_)
    rw [hstaging]
    rfl
  case none =>
    intro s h
    rw [show exec .keepOperationDone s = execKeepOperationDone s from rfl, execKeepOperationDone, h]
  case last =>
    intro s o c p l hop hsteps hc hw
    obtain ⟨u, t, ht, hans, hnone, hbyte, hparts⟩ := keepEnd_answers hop hsteps hc hw (keepProceed_done (o := { o with steps := [] }) rfl rfl)
    exact ⟨u, t, ht, hans, hnone, hbyte, hparts⟩
  case shutWindow =>
    intro s o c p l x r hop hsteps hc hw hopen
    exact keepEnd_answers hop hsteps hc hw (keepProceed_shut (o := { o with steps := x :: r }) rfl rfl hopen)
  case worn =>
    intro s o c p l j r hop hsteps hc hw hopen hworn
    obtain ⟨u, t, ht, hans, -, hbyte, hparts⟩ := keepEnd_answers hop hsteps hc hw (keepProceed_worn (o := { o with steps := .erase j :: r }) rfl rfl hopen hworn)
    exact ⟨u, t, ht, hans, hbyte, hparts⟩

end Sys2Proof.Machine
end

section
/-! PROOFS. O55: calibration images. What a commit erases and programs, the bytes of a header and a marker, and the choice of an
image. -/

set_option Elab.async false

namespace Sys2Proof.Machine

/-! Erasing sectors in order. -/

theorem eraseAll_cons_worn {s : State} {k : Nat} (h : wornOut s k = true) (l : List Nat) : eraseAll s (k :: l) = (s, false) := if_pos h
theorem eraseAll_cons_fine {s : State} {k : Nat} (h : wornOut s k = false) (l : List Nat) : eraseAll s (k :: l) = eraseAll (eraseSector s k) l :=
  if_neg (by rw [h]; decide)

/-- What holds of a state and of every state after an erase of a sector in `l` holds after all erases. -/
theorem eraseAll_induct {P : State → Prop} {l : List Nat} (h : ∀ s k, k ∈ l → P s → P (eraseSector s k)) {s : State} (hs : P s) : P (eraseAll s l).1 := by
  induction l generalizing s with
  | nil => exact hs
  | cons k l ih =>
    cases hworn : wornOut s k with
    | true =>
      rw [eraseAll_cons_worn hworn]
      exact hs
    | false =>
      rw [eraseAll_cons_fine hworn]
      exact ih (fun s j hj => h s j (List.mem_cons_of_mem k hj)) (h s k List.mem_cons_self hs)

/-- `t` is `s` but for the bytes and the wear of the keep store, and what wear raises. -/
def KeepOnly (s t : State) : Prop := ∃ k w f, t = { s with cal := { s.cal with keep := k, wear := w }, flt := f }

theorem keepOnly_eraseSector {s t : State} (h : KeepOnly s t) (k : Nat) : KeepOnly s (eraseSector t k) := by
  obtain ⟨b, w, f, rfl⟩ := h
  obtain ⟨f', hf'⟩ := eraseSector_parts { s with cal := { s.cal with keep := b, wear := w }, flt := f } k
  exact ⟨_, _, f', hf'⟩

theorem eraseAll_keepOnly (s : State) (l : List Nat) : KeepOnly s (eraseAll s l).1 :=
  eraseAll_induct (P := KeepOnly s) (fun _ k _ h => keepOnly_eraseSector h k) ⟨s.cal.keep, s.cal.wear, s.flt, rfl⟩

theorem eraseAll_keepByte_of_not_mem {s : State} {l : List Nat} {a : Nat} (h : a / 4096 ∉ l) : (eraseAll s l).1.keepByte a = s.keepByte a :=
  eraseAll_induct (P := fun t => t.keepByte a = s.keepByte a) (fun t k hk ht => by
    rw [eraseSector_keepByte, if_neg (show ¬a / 4096 = k from fun e => h (by rw [e]; exact hk)), ht]) rfl

theorem eraseAll_wearOf_of_not_mem {s : State} {l : List Nat} {k : Nat} (h : k ∉ l) : (eraseAll s l).1.wearOf k = s.wearOf k :=
  eraseAll_induct (P := fun t => t.wearOf k = s.wearOf k) (fun t j hj ht => by
    rw [eraseSector_wearOf, if_neg (show ¬k = j from fun e => h (by rw [e]; exact hj)), ht]) rfl

/-- With no sector worn out, every one is erased. -/
theorem eraseAll_fine {s : State} {l : List Nat} (hl : l.Nodup) (h : ∀ k ∈ l, wornOut s k = false) :
    (eraseAll s l).2 = true ∧ ∀ k ∈ l, (eraseAll s l).1.wearOf k = s.wearOf k + 1 ∧ ∀ a, a / 4096 = k → (eraseAll s l).1.keepByte a = 0xFF := by
  induction l generalizing s with
  | nil => exact ⟨rfl, fun k hk => nomatch hk⟩
  | cons k l ih =>
    obtain ⟨hk, hl⟩ := List.nodup_cons.1 hl
    have hne : ∀ j ∈ l, j ≠ k := fun j hj e => hk (e ▸ hj)
    rw [eraseAll_cons_fine (h k List.mem_cons_self)]
    obtain ⟨hall, hrest⟩ := ih (s := eraseSector s k) hl fun j hj => (wornOut_eraseSector (hne j hj)).trans (h j (List.mem_cons_of_mem k hj))
    refine ⟨hall, fun j hj => ?_⟩
    rcases List.mem_cons.1 hj with rfl | hj
    · refine ⟨?_, fun a ha => ?_⟩
      · rw [eraseAll_wearOf_of_not_mem hk, eraseSector_wearOf, if_pos rfl]
      · rw [eraseAll_keepByte_of_not_mem (by rw [ha]; exact hk), eraseSector_keepByte, if_pos ha]
    · obtain ⟨hwear, hbytes⟩ := hrest j hj
      exact ⟨by rw [hwear, eraseSector_wearOf, if_neg (hne j hj)], hbytes⟩

theorem eraseAll_worn {s : State} {l : List Nat} (hl : l.Nodup) (h : ∃ k ∈ l, wornOut s k = true) : (eraseAll s l).2 = false := by
  induction l generalizing s with
  | nil => exact absurd h (by simp)
  | cons k l ih =>
    obtain ⟨hk, hl⟩ := List.nodup_cons.1 hl
    cases hworn : wornOut s k with
    | true => rw [eraseAll_cons_worn hworn]
    | false =>
      obtain ⟨j, hj, hjworn⟩ := h
      rw [eraseAll_cons_fine hworn]
      rcases List.mem_cons.1 hj with rfl | hj
      · rw [hworn] at hjworn
        cases hjworn
      · exact ih hl ⟨j, hj, (wornOut_eraseSector (show j ≠ k from fun e => hk (e ▸ hj))).trans hjworn⟩

theorem commitSectors_nodup (b : Bool) : (commitSectors b).Nodup := by cases b <;> decide

theorem commitSectors_range (b : Bool) : ∀ k ∈ commitSectors b, slotBase b / 4096 ≤ k ∧ k < slotBase b / 4096 + 128 := by cases b <;> decide

/-! Numbers in bytes. -/

theorem length_toBytes (n v : Nat) : (toBytes n v).length = n := by rw [toBytes, List.length_map, List.length_range]

theorem ofBytes_toBytes (n v : Nat) : ofBytes (toBytes n v) = v % 256 ^ n := by
  induction n generalizing v with
  | zero => rw [Nat.pow_zero, Nat.mod_one]; rfl
  | succ n ih =>
    have hstep : toBytes (n + 1) v = b8 v :: toBytes n (v / 256) := by
      unfold toBytes
      rw [List.range_succ_eq_map, List.map_cons, List.map_map]
      refine congrArg₂ List.cons rfl (List.map_congr_left fun i _ => congrArg b8 ?_)
      rw [Nat.shiftRight_eq_div_pow, Nat.shiftRight_eq_div_pow, Nat.div_div_eq_div_mul]
      congr 1
      rw [Nat.mul_succ, Nat.pow_add, Nat.mul_comm]
    rw [hstep, ofBytes, ih, Nat.pow_succ, Nat.mul_comm (256 ^ n), Nat.mod_mul]
    rfl

theorem crc32cBit_lt {c : Nat} (h : c < 2 ^ 32) : crc32cBit c < 2 ^ 32 := by
  unfold crc32cBit
  split
  · exact Nat.xor_lt_two_pow (by omega) (by decide)
  · omega

theorem crc32c_lt (l : List Byte) : crc32c l < 2 ^ 32 := by
  have hbyte : ∀ {c : Nat} (b : Byte), c < 2 ^ 32 → crc32cByte c b < 2 ^ 32 := fun b hc => by
    unfold crc32cByte
    have hx := Nat.xor_lt_two_pow hc (Nat.lt_of_lt_of_le b.isLt (by decide))
    exact crc32cBit_lt (crc32cBit_lt (crc32cBit_lt (crc32cBit_lt (crc32cBit_lt (crc32cBit_lt (crc32cBit_lt (crc32cBit_lt hx)))))))
  have hfold : ∀ c, c < 2 ^ 32 → l.foldl crc32cByte c < 2 ^ 32 := by
    induction l with
    | nil => exact fun c hc => hc
    | cons b l ih => exact fun c hc => ih _ (hbyte b hc)
  exact Nat.xor_lt_two_pow (hfold _ (by decide)) (by decide)

/-! A run of bytes read in parts. -/

theorem keepBytes_part (s : State) (a i n m : Nat) (h : i + n ≤ m) : keepBytes s (a + i) n = ((keepBytes s a m).drop i).take n := by
  refine List.ext_getElem ?_ fun j hj hj' => ?_
  · simp only [keepBytes, List.length_map, List.length_range, List.length_take, List.length_drop]
    omega
  · simp only [keepBytes, List.getElem_map, List.getElem_range, List.getElem_take, List.getElem_drop, Nat.add_assoc]

theorem keepBytes_eq {s : State} {a : Nat} {l : List Byte} (h : ∀ i, i < l.length → s.keepByte (a + i) = l.getD i 0) : keepBytes s a l.length = l := by
  refine List.ext_getElem ?_ fun j hj hj' => ?_
  · rw [keepBytes, List.length_map, List.length_range]
  · simp only [keepBytes, List.getElem_map, List.getElem_range]
    rw [h j hj', List.getD_eq_getElem _ _ hj']

/-- The bytes of an image in slot `b` with its header and marker. -/
def imageWritten (s : State) (b : Bool) (gen : Nat) (body : List Byte) : State :=
  programKeep (programKeep (programKeep s (slotBase b + 0x1000) body) (slotBase b) (calHeader s gen body)) (slotBase b + 0x7FFF0)
    (toBytes 4 0xCA1C0417 ++ toBytes 4 gen ++ (calHeader s gen body).drop 60 ++ toBytes 4 0)

/-- The first 60 bytes of a header. -/
def headerStart (s : State) (gen : Nat) (body : List Byte) : List Byte :=
  toBytes 4 0x4B524341 ++ toBytes 2 1 ++ toBytes 2 archId ++ toBytes 4 gen ++ toBytes 4 body.length ++
    toBytes 8 s.bus.uniqueId.toNat ++ toBytes 4 s.cal.sourceGen ++ toBytes 4 (crc32c body) ++ List.replicate 28 0

theorem calHeader_eq (s : State) (gen : Nat) (body : List Byte) :
    calHeader s gen body = headerStart s gen body ++ toBytes 4 (crc32c (headerStart s gen body)) := rfl

theorem length_headerStart (s : State) (gen : Nat) (body : List Byte) : (headerStart s gen body).length = 60 := by
  simp only [headerStart, List.length_append, length_toBytes, List.length_replicate]

theorem length_calHeader (s : State) (gen : Nat) (body : List Byte) : (calHeader s gen body).length = 64 := by
  rw [calHeader_eq, List.length_append, length_headerStart, length_toBytes]

theorem calHeader_crc (s : State) (gen : Nat) (body : List Byte) : (calHeader s gen body).drop 60 = toBytes 4 (crc32c (headerStart s gen body)) := by
  rw [calHeader_eq, ← length_headerStart s gen body, List.drop_left]

theorem field_of {l a b c : List Byte} {i n : Nat} (h : l = a ++ (b ++ c)) (hi : a.length = i) (hn : b.length = n) : (l.drop i).take n = b := by
  rw [h, ← hi, List.drop_left, ← hn, List.take_left]

theorem headerStart_field (s : State) (gen : Nat) (body : List Byte) :
    ((headerStart s gen body).drop 0).take 4 = toBytes 4 0x4B524341 ∧ ((headerStart s gen body).drop 4).take 2 = toBytes 2 1 ∧
      ((headerStart s gen body).drop 6).take 2 = toBytes 2 archId ∧ ((headerStart s gen body).drop 8).take 4 = toBytes 4 gen ∧
      ((headerStart s gen body).drop 12).take 4 = toBytes 4 body.length ∧ ((headerStart s gen body).drop 16).take 8 = toBytes 8 s.bus.uniqueId.toNat ∧
      ((headerStart s gen body).drop 28).take 4 = toBytes 4 (crc32c body) := by
  generalize hm : toBytes 4 0x4B524341 = m
  generalize hv : toBytes 2 1 = v
  generalize ha : toBytes 2 archId = a
  generalize hg : toBytes 4 gen = g
  generalize hn : toBytes 4 body.length = n
  generalize hu : toBytes 8 s.bus.uniqueId.toNat = u
  generalize hc : toBytes 4 (crc32c body) = c
  have hml : m.length = 4 := by rw [← hm, length_toBytes]
  have hvl : v.length = 2 := by rw [← hv, length_toBytes]
  have hal : a.length = 2 := by rw [← ha, length_toBytes]
  have hgl : g.length = 4 := by rw [← hg, length_toBytes]
  have hnl : n.length = 4 := by rw [← hn, length_toBytes]
  have hul : u.length = 8 := by rw [← hu, length_toBytes]
  have hcl : c.length = 4 := by rw [← hc, length_toBytes]
  generalize hs : toBytes 4 s.cal.sourceGen = w
  have hwl : w.length = 4 := by rw [← hs, length_toBytes]
  have hstart : headerStart s gen body = m ++ (v ++ (a ++ (g ++ (n ++ (u ++ (w ++ (c ++ List.replicate 28 0))))))) := by
    simp only [headerStart, hm, hv, ha, hg, hn, hu, hc, hs, List.append_assoc]
  rw [hstart]
  refine ⟨field_of (a := []) rfl rfl hml, field_of (a := m) rfl hml hvl,
    field_of (a := m ++ v) (c := g ++ (n ++ (u ++ (w ++ (c ++ List.replicate 28 0))))) ?_ ?_ hal,
    field_of (a := m ++ v ++ a) (c := n ++ (u ++ (w ++ (c ++ List.replicate 28 0)))) ?_ ?_ hgl,
    field_of (a := m ++ v ++ a ++ g) (c := u ++ (w ++ (c ++ List.replicate 28 0))) ?_ ?_ hnl,
    field_of (a := m ++ v ++ a ++ g ++ n) (c := w ++ (c ++ List.replicate 28 0)) ?_ ?_ hul,
    field_of (a := m ++ v ++ a ++ g ++ n ++ u ++ w) (c := List.replicate 28 0) ?_ ?_ hcl⟩
  all_goals simp only [List.append_assoc, List.length_append, hml, hvl, hal, hgl, hnl, hul, hwl]

/-- The bytes of a slot once its image is written. -/
theorem imageWritten_bytes (s : State) (b : Bool) (gen : Nat) {body : List Byte} (hbody : body.length = calBodyLen) :
    keepBytes (imageWritten s b gen body) (slotBase b) 64 = calHeader s gen body ∧
      keepBytes (imageWritten s b gen body) (slotBase b + 0x1000) calBodyLen = body ∧
      keepBytes (imageWritten s b gen body) (slotBase b + 0x7FFF0) 16 =
        toBytes 4 0xCA1C0417 ++ toBytes 4 gen ++ (calHeader s gen body).drop 60 ++ toBytes 4 0 := by
  have hhead := length_calHeader s gen body
  have hmark : (toBytes 4 0xCA1C0417 ++ toBytes 4 gen ++ (calHeader s gen body).drop 60 ++ toBytes 4 0).length = 16 := by
    simp only [List.length_append, length_toBytes, List.length_drop, hhead]
  have hlen : calBodyLen = 218256 := rfl
  unfold imageWritten
  generalize calHeader s gen body = head at hhead hmark ⊢
  generalize (toBytes 4 0xCA1C0417 ++ toBytes 4 gen ++ head.drop 60 ++ toBytes 4 0) = mark at hmark ⊢
  generalize slotBase b = o
  refine ⟨?_, ?_, ?_⟩
  · rw [← hhead]
    refine keepBytes_eq fun i hi => ?_
    rw [programKeep_keepByte, if_neg (by omega), programKeep_keepByte, if_pos (by omega), Nat.add_sub_cancel_left]
  · rw [← hbody]
    refine keepBytes_eq fun i hi => ?_
    rw [programKeep_keepByte, if_neg (by omega), programKeep_keepByte, if_neg (by omega), programKeep_keepByte, if_pos (by omega), Nat.add_sub_cancel_left]
  · rw [← hmark]
    refine keepBytes_eq fun i hi => ?_
    rw [programKeep_keepByte, if_pos (by omega), Nat.add_sub_cancel_left]

theorem mod_bytes4 {v : Nat} (h : v < 2 ^ 32) : v % 256 ^ 4 = v := Nat.mod_eq_of_lt (by norm_num at h ⊢; exact h)

theorem mod_bytes8 {v : Nat} (h : v < 2 ^ 64) : v % 256 ^ 8 = v := Nat.mod_eq_of_lt (by norm_num at h ⊢; exact h)

/-- A number in a run of bytes. -/
theorem keepNum_part {s : State} {a m i n v : Nat} {l : List Byte} (hl : keepBytes s a m = l) (hfit : i + n ≤ m) (hfield : (l.drop i).take n = toBytes n v) :
    keepNum s (a + i) n = v % 256 ^ n := by
  rw [keepNum, keepBytes_part s a i n m hfit, hl, hfield, ofBytes_toBytes]

theorem keepNum_head {s : State} {a m n v : Nat} {l : List Byte} (hl : keepBytes s a m = l) (hfit : n ≤ m) (hfield : (l.drop 0).take n = toBytes n v) :
    keepNum s a n = v % 256 ^ n := keepNum_part (i := 0) hl (by omega) hfield

/-- A field of a header's start is one of the header. -/
theorem calHeader_field {s : State} {gen i n : Nat} {body f : List Byte} (h : ((headerStart s gen body).drop i).take n = f) (hfit : i + n ≤ 60) :
    ((calHeader s gen body).drop i).take n = f := by
  have hlen := length_headerStart s gen body
  rw [calHeader_eq, List.drop_append_of_le_length (by omega), List.take_append_of_le_length (by rw [List.length_drop]; omega), h]

theorem imageWritten_valid (s : State) (b : Bool) {gen : Nat} {body : List Byte} (hgen : gen < 2 ^ 32) (hbody : body.length = calBodyLen) :
    slotValid (imageWritten s b gen body) b = true ∧ slotGen (imageWritten s b gen body) b = gen := by
  obtain ⟨hhead, hbytes, hmark⟩ := imageWritten_bytes s b gen hbody
  obtain ⟨hmagic, hversion, harch, hgeneration, hlength, hunique, hcrc⟩ := headerStart_field s gen body
  have hid : (imageWritten s b gen body).bus.uniqueId = s.bus.uniqueId := rfl
  generalize imageWritten s b gen body = t at hhead hbytes hmark hid ⊢
  have hgen' : keepNum t (slotBase b + 8) 4 = gen :=
    (keepNum_part hhead (by decide) (calHeader_field hgeneration (by decide))).trans (mod_bytes4 hgen)
  have hstart : keepBytes t (slotBase b) 60 = headerStart s gen body := by
    have hpart := keepBytes_part t (slotBase b) 0 60 64 (by decide)
    rw [hhead, List.drop_zero, calHeader_eq, ← length_headerStart s gen body, List.take_left, Nat.add_zero, length_headerStart] at hpart
    exact hpart
  have hcheck : ∀ i, i = 60 → keepNum t (slotBase b + i) 4 = crc32c (headerStart s gen body) := fun i hi => by
    subst hi
    exact (keepNum_part (v := crc32c (headerStart s gen body)) hhead (by decide) (by rw [calHeader_crc, List.take_of_length_le (by rw [length_toBytes])])).trans
      (mod_bytes4 (crc32c_lt _))
  have hsize : keepNum t (slotBase b + 12) 4 = calBodyLen :=
    (keepNum_part hhead (by decide) (calHeader_field hlength (by decide))).trans (by rw [hbody]; norm_num [calBodyLen])
  rw [calHeader_crc] at hmark
  refine ⟨?_, hgen'⟩
  unfold slotValid
  simp only [Bool.and_eq_true, decide_eq_true_eq]
  refine ⟨⟨⟨⟨⟨⟨⟨⟨?_, ?_⟩, ?_⟩, ?_⟩, ?_⟩, ?_⟩, ?_⟩, ?_⟩, ?_⟩
  · exact (keepNum_head hhead (by decide) (calHeader_field hmagic (by decide))).trans (by norm_num)
  · exact (keepNum_part hhead (by decide) (calHeader_field hversion (by decide))).trans (by norm_num)
  · exact (keepNum_part hhead (by decide) (calHeader_field harch (by decide))).trans (by norm_num [archId])
  · rw [hid]
    exact (keepNum_part hhead (by decide) (calHeader_field hunique (by decide))).trans (mod_bytes8 s.bus.uniqueId.isLt)
  · rw [hcheck 60 rfl, hstart]
  · have hfield : ((toBytes 4 0xCA1C0417 ++ toBytes 4 gen ++ toBytes 4 (crc32c (headerStart s gen body)) ++ toBytes 4 0).drop 0).take 4 = toBytes 4 0xCA1C0417 :=
      field_of (a := []) (c := toBytes 4 gen ++ (toBytes 4 (crc32c (headerStart s gen body)) ++ toBytes 4 0))
        (by rw [List.append_assoc, List.append_assoc, List.nil_append]) rfl (length_toBytes ..)
    exact (keepNum_head hmark (by decide) hfield).trans (by norm_num)
  · rw [slotGen, hgen', show slotBase b + 0x7FFF4 = slotBase b + 0x7FFF0 + 4 from by omega]
    have hfield : ((toBytes 4 0xCA1C0417 ++ toBytes 4 gen ++ toBytes 4 (crc32c (headerStart s gen body)) ++ toBytes 4 0).drop 4).take 4 = toBytes 4 gen :=
      field_of (a := toBytes 4 0xCA1C0417) (by rw [List.append_assoc, List.append_assoc]) (length_toBytes ..) (length_toBytes ..)
    exact (keepNum_part (i := 4) hmark (by decide) hfield).trans (mod_bytes4 hgen)
  · rw [hcheck 60 rfl, show slotBase b + 0x7FFF8 = slotBase b + 0x7FFF0 + 8 from by omega]
    have hfield : ((toBytes 4 0xCA1C0417 ++ toBytes 4 gen ++ toBytes 4 (crc32c (headerStart s gen body)) ++ toBytes 4 0).drop 8).take 4 =
        toBytes 4 (crc32c (headerStart s gen body)) :=
      field_of (a := toBytes 4 0xCA1C0417 ++ toBytes 4 gen) (by rw [List.append_assoc]) (by rw [List.length_append, length_toBytes, length_toBytes])
        (length_toBytes ..)
    exact (keepNum_part (i := 8) hmark (by decide) hfield).trans (mod_bytes4 (crc32c_lt _))
  · rw [hsize, hbytes]
    exact (keepNum_part hhead (by decide) (calHeader_field hcrc (by decide))).trans (mod_bytes4 (crc32c_lt _))

/-! CAL_COMMIT. -/

/-- What a CAL_COMMIT into slot `target` still has to do. -/
def commitOf (s : State) (c : Current) (target w : Bool) : CalCommit :=
  { tag := c.tag.toNat, ring := c.ring.toNat, slotB := target, gen := (match newestSlot s with | some b => slotGen s b + 1 | none => 1), wear := w }

/-- A CAL_COMMIT with its sectors erased. -/
def commitStarted (s : State) (c : Current) : State :=
  let target := decide (newestSlot s = some false)
  let e := eraseAll s (commitSectors target)
  { e.1 with cal := { e.1.cal with commit := some (commitOf s c target (!e.2)) } }

theorem calCommit_started {s : State} {c : Current} {target : Bool} (h : Picked s 0x0B01 c) (htag : tagInUse s c.tag.toNat = false)
    (hallowed : keepAllowed s 1 = true) (hrun : s.cal.run = none) (hidle : keepBusy s = false) (htarget : target = decide (newestSlot s = some false)) :
    ∃ u v t w, exec .calCommit s = .next t ∧ Answered c 1 0 [] v t ∧ Begun c.tag.toNat 0x0B01 c.ring.toNat 0 u v ∧
      u.cal.commit = some { tag := c.tag.toNat, ring := c.ring.toNat, slotB := target, gen := (match newestSlot s with | some b => slotGen s b + 1 | none => 1), wear := w } ∧
      (∀ a, a < slotBase target ∨ slotBase target + 0x80000 ≤ a → u.keepByte a = s.keepByte a) ∧
      ((∀ k ∈ commitSectors target, wornOut s k = false) → w = false ∧ ∀ k ∈ commitSectors target, u.wearOf k = s.wearOf k + 1 ∧ ∀ a, a < 4096 → u.keepByte (4096 * k + a) = 0xFF) ∧
      ((∃ k ∈ commitSectors target, wornOut s k = true) → w = true) ∧ (∀ k, k ∉ commitSectors target → u.wearOf k = s.wearOf k) ∧
      u.cal = { s.cal with keep := u.cal.keep, wear := u.cal.wear, commit := u.cal.commit } ∧ u = { s with cal := u.cal, flt := u.flt } := by
  have hpass : ∀ x ∈ [needTag s c.tag.toNat, needKeep s 1, needState s.cal.run.isNone 26, needKeepIdle s], x = none :=
    pass_cons (needTag_pass htag) (pass_cons (needKeep_of hallowed) (pass_cons (needState_of 26 (by rw [hrun]; rfl)) (pass_cons (needKeepIdle_of hidle) pass_nil)))
  have hexec : exec .calCommit s = .next (accept (commitStarted s c) c 0) :=
    congrArg Host.Outcome.next ((onCommand_picked h (fun _ => true) _ rfl).trans (checked_pass _ (firstBad_pass hpass)))
  have hnodup := commitSectors_nodup target
  have hrange := commitSectors_range target
  have hfine := eraseAll_fine (s := s) hnodup
  have hworn := eraseAll_worn (s := s) hnodup
  have hbyte : ∀ a, a / 4096 ∉ commitSectors target → (eraseAll s (commitSectors target)).1.keepByte a = s.keepByte a :=
    fun a ha => eraseAll_keepByte_of_not_mem ha
  have hwear : ∀ k, k ∉ commitSectors target → (eraseAll s (commitSectors target)).1.wearOf k = s.wearOf k := fun k hk => eraseAll_wearOf_of_not_mem hk
  obtain ⟨keep, wear, flt, hparts⟩ := eraseAll_keepOnly s (commitSectors target)
  have hstarted : commitStarted s c = { (eraseAll s (commitSectors target)).1 with
      cal := { (eraseAll s (commitSectors target)).1.cal with commit := some (commitOf s c target (!(eraseAll s (commitSectors target)).2)) } } := by
    rw [htarget]
    rfl
  generalize hsectors : commitSectors target = l at *
  generalize (eraseAll s l).2 = ok at *
  generalize (eraseAll s l).1 = x at *
  subst hparts
  rw [hstarted] at hexec
  obtain ⟨p, g, hbegin, hans⟩ := accept_answered (s := { s with cal := { s.cal with keep := keep, wear := wear, commit := some (commitOf s c target (!ok)) }, flt := flt }) h.1 0 []
  have hbegun := beginWork_begun { s with cal := { s.cal with keep := keep, wear := wear, commit := some (commitOf s c target (!ok)) }, flt := flt } c.tag.toNat c.opcode.toNat c.ring.toNat 0 false
  rw [hbegin, h.2.1] at hbegun
  refine ⟨_, _, _, !ok, hexec, hans, hbegun, rfl, fun a ha => hbyte a fun hmem => ?_, fun hall => ?_, fun hsome => ?_, hwear, rfl, rfl⟩
  · obtain ⟨hlow, hhigh⟩ := hrange _ hmem
    have hbase : slotBase target % 4096 = 0 := by cases target <;> rfl
    omega
  · obtain ⟨hok, hrest⟩ := hfine hall
    refine ⟨by rw [hok]; rfl, fun k hk => ?_⟩
    obtain ⟨hone, hff⟩ := hrest k hk
    exact ⟨hone, fun a ha => hff _ (by omega)⟩
  · rw [hworn hsome]
    rfl

theorem calCommit_fails {s : State} {c : Current} {st d : Nat} (h : Picked s 0x0B01 c) (htag : tagInUse s c.tag.toNat = false)
    (hfail : firstBad [needKeep s 1, needState s.cal.run.isNone 26, needKeepIdle s] = some (st, d)) :
    ∃ t, exec .calCommit s = .next t ∧ Answered c st d [] s t :=
  picked_bad (k := fun _ => _) h rfl rfl ((firstBad_append (l := [needTag s c.tag.toNat]) (pass_cons (needTag_pass htag) pass_nil)).trans hfail)

/-! CAL_COMMIT_DONE. -/

/-- The body of the image in use. -/
def bodyInUse (s : State) : List Byte := (List.range calBodyLen).map (calByte s)

theorem length_bodyInUse (s : State) : (bodyInUse s).length = calBodyLen := by rw [bodyInUse, List.length_map, List.length_range]

/-- The commit is over. -/
def commitOver (s : State) : State := { s with cal := { s.cal with commit := none } }

/-- The end of a commit's work. -/
def commitEnd (s : State) (k : CalCommit) (st d : Nat) : State := endWork s (workEnd s k.tag k.ring st d 0 0 1 0 0 0)

theorem commitEnd_spec (s : State) (k : CalCommit) (st d : Nat) :
    Ended (workEnd s k.tag k.ring st d 0 0 1 0 0 0) (commitEnd s k st d) ∧ (commitEnd s k st d).cal = s.cal ∧
      commitEnd s k st d = { s with fw := (commitEnd s k st d).fw, harv := (commitEnd s k st d).harv, flt := (commitEnd s k st d).flt } := by
  obtain ⟨p, h, w, hparts⟩ := endWork_parts s (workEnd s k.tag k.ring st d 0 0 1 0 0 0)
  refine ⟨endWork_ended _ _, ?_, ?_⟩
  · unfold commitEnd
    rw [hparts]
  · unfold commitEnd
    rw [hparts]

/-- The header and the body in the slot. -/
def imageBegun (s : State) (b : Bool) (gen : Nat) (body : List Byte) : State :=
  programKeep (programKeep s (slotBase b + 0x1000) body) (slotBase b) (calHeader s gen body)

theorem exec_calCommitDone {s : State} {k : CalCommit} (h : s.cal.commit = some k) (ok : Bool) : exec (.calCommitDone ok) s = .next (
    if k.wear then commitEnd (commitOver s) k 0x12 0x8002
    else if !s.sup.keepOpen then commitEnd (commitOver s) k 0x31 1
    else if !ok then commitEnd (imageBegun (commitOver s) k.slotB k.gen (bodyInUse s)) k 0x12 0x8001
    else commitEnd (imageWritten (commitOver s) k.slotB k.gen (bodyInUse s)) k 0 0) := by
  refine congrArg Host.Outcome.next ?_
  rw [h]
  rfl

theorem imageBegun_keepByte (s : State) (b : Bool) (gen : Nat) {body : List Byte} (hbody : body.length = calBodyLen) {a : Nat}
    (ha : a < slotBase b ∨ slotBase b + 0x7FFF0 ≤ a) : (imageBegun s b gen body).keepByte a = s.keepByte a := by
  have hlen : calBodyLen = 218256 := rfl
  have hhead := length_calHeader s gen body
  unfold imageBegun
  generalize slotBase b = o at ha ⊢
  rw [programKeep_keepByte, if_neg (by omega), programKeep_keepByte, if_neg (by omega)]

theorem imageWritten_keepByte (s : State) (b : Bool) (gen : Nat) {body : List Byte} (hbody : body.length = calBodyLen) {a : Nat}
    (ha : a < slotBase b ∨ slotBase b + 0x80000 ≤ a) : (imageWritten s b gen body).keepByte a = s.keepByte a := by
  have hmark : (toBytes 4 0xCA1C0417 ++ toBytes 4 gen ++ (calHeader s gen body).drop 60 ++ toBytes 4 0).length = 16 := by
    simp only [List.length_append, length_toBytes, List.length_drop, length_calHeader]
  have hbegun := imageBegun_keepByte s b gen hbody (a := a) (ha.imp id (by omega))
  change (programKeep (imageBegun s b gen body) (slotBase b + 0x7FFF0) _).keepByte a = _
  generalize slotBase b = o at ha ⊢
  rw [programKeep_keepByte, if_neg (by omega), hbegun]

theorem slotValid_congr {s t : State} (hcal : t.cal.keep = s.cal.keep) (hbus : t.bus = s.bus) (b : Bool) :
    slotValid t b = slotValid s b ∧ slotGen t b = slotGen s b := by
  have hbytes : ∀ a n, keepBytes t a n = keepBytes s a n := fun a n => by
    unfold keepBytes State.keepByte
    rw [hcal]
  have hnum : ∀ a n, keepNum t a n = keepNum s a n := fun a n => by rw [keepNum, keepNum, hbytes]
  refine ⟨?_, hnum _ _⟩
  unfold slotValid slotGen
  simp only [hnum, hbytes, hbus]

theorem calCommitDone_writes {s : State} {k : CalCommit} (h : s.cal.commit = some k) (hwear : k.wear = false) (hopen : s.sup.keepOpen = true)
    (hgen : k.gen < 2 ^ 32) :
    ∃ t e, exec (.calCommitDone true) s = .next t ∧ Ended e t ∧ e.tag = k.tag ∧ e.status = 0 ∧ t.cal.commit = none ∧
      slotValid t k.slotB = true ∧ slotGen t k.slotB = k.gen ∧ (∀ a, a < calBodyLen → t.keepByte (slotBase k.slotB + 0x1000 + a) = calByte s a) ∧
      (∀ a, a < slotBase k.slotB ∨ slotBase k.slotB + 0x80000 ≤ a → t.keepByte a = s.keepByte a) ∧
      t.cal = { s.cal with commit := none, keep := t.cal.keep } ∧ t = { s with fw := t.fw, harv := t.harv, cal := t.cal, flt := t.flt } := by
  have hexec := exec_calCommitDone h true
  rw [if_neg (by rw [hwear]; decide), if_neg (by rw [hopen]; decide), if_neg (by decide)] at hexec
  have hbody := length_bodyInUse s
  have hread : ∀ a, a < calBodyLen → (bodyInUse s).getD a 0 = calByte s a := fun a ha => by
    rw [List.getD_eq_getElem _ _ (by rw [hbody]; exact ha)]
    simp only [bodyInUse, List.getElem_map, List.getElem_range]
  generalize bodyInUse s = body at hexec hbody hread
  obtain ⟨hvalid, hslot⟩ := imageWritten_valid (commitOver s) k.slotB hgen hbody
  have hbytes := (imageWritten_bytes (commitOver s) k.slotB k.gen hbody).2.1
  have houtside := fun a => imageWritten_keepByte (commitOver s) k.slotB k.gen hbody (a := a)
  have hbeside : imageWritten (commitOver s) k.slotB k.gen body =
      { s with cal := { s.cal with commit := none, keep := (imageWritten (commitOver s) k.slotB k.gen body).cal.keep } } := rfl
  generalize imageWritten (commitOver s) k.slotB k.gen body = x at hexec hvalid hslot hbytes houtside hbeside
  obtain ⟨hended, hcal, hparts⟩ := commitEnd_spec x k 0 0
  have hbus : (commitEnd x k 0 0).bus = x.bus := by rw [hparts]
  have hkeep : ∀ a, (commitEnd x k 0 0).keepByte a = x.keepByte a := fun a => by rw [State.keepByte, State.keepByte, hcal]
  obtain ⟨hvalid', hslot'⟩ := slotValid_congr (congrArg Calibration.keep hcal) hbus k.slotB
  refine ⟨_, _, hexec, hended, rfl, rfl, ?_, hvalid'.trans hvalid, hslot'.trans hslot, fun a ha => ?_, fun a ha => (hkeep a).trans (houtside a ha), ?_, ?_⟩
  · rw [hcal, hbeside]
  · have hget : (keepBytes x (slotBase k.slotB + 0x1000) calBodyLen).getD a 0 = x.keepByte (slotBase k.slotB + 0x1000 + a) := by
      rw [List.getD_eq_getElem _ _ (by rw [keepBytes, List.length_map, List.length_range]; exact ha)]
      simp only [keepBytes, List.getElem_map, List.getElem_range]
    rw [hkeep, ← hget, hbytes, hread a ha]
  · rw [hcal, hbeside]
  · rw [hcal]
    rw [hbeside] at hparts ⊢
    exact hparts

end Sys2Proof.Machine
end

section
/-! PROOFS. O55, continued: the ends of a commit that leave no new image, CAL_SELECT, and the obligation. -/

set_option Elab.async false

namespace Sys2Proof.Machine

theorem calCommitDone_fails {s : State} {k : CalCommit} {ok : Bool} (h : s.cal.commit = some k) (hfail : k.wear = true ∨ s.sup.keepOpen = false ∨ ok = false) :
    ∃ t e, exec (.calCommitDone ok) s = .next t ∧ Ended e t ∧ e.tag = k.tag ∧ t.cal.commit = none ∧
      (k.wear = true → e.status = 0x12 ∧ e.detail = 0x8002) ∧ (k.wear = false → s.sup.keepOpen = false → e.status = 0x31 ∧ e.detail = 1) ∧
      (k.wear = false → s.sup.keepOpen = true → e.status = 0x12 ∧ e.detail = 0x8001) ∧
      (k.wear = true ∨ s.sup.keepOpen = false → t.cal = { s.cal with commit := none }) ∧ t.cal = { s.cal with commit := none, keep := t.cal.keep } ∧
      (∀ a, slotBase k.slotB + 0x7FFF0 ≤ a → t.keepByte a = s.keepByte a) ∧ (∀ a, a < slotBase k.slotB → t.keepByte a = s.keepByte a) ∧
      t = { s with fw := t.fw, harv := t.harv, cal := t.cal, flt := t.flt } := by
  have hexec := exec_calCommitDone h ok
  have hover : ∀ st d, (commitEnd (commitOver s) k st d).cal = { s.cal with commit := none } ∧
      (∀ a, (commitEnd (commitOver s) k st d).keepByte a = s.keepByte a) ∧ Ended (workEnd (commitOver s) k.tag k.ring st d 0 0 1 0 0 0) (commitEnd (commitOver s) k st d) ∧
      commitEnd (commitOver s) k st d = { s with fw := (commitEnd (commitOver s) k st d).fw, harv := (commitEnd (commitOver s) k st d).harv, cal := (commitEnd (commitOver s) k st d).cal, flt := (commitEnd (commitOver s) k st d).flt } := fun st d => by
    obtain ⟨hended, hcal, hparts⟩ := commitEnd_spec (commitOver s) k st d
    refine ⟨hcal, fun a => ?_, hended, ?_⟩
    · rw [State.keepByte, hcal]
      rfl
    · rw [hcal]
      exact hparts
  by_cases hwear : k.wear = true
  · rw [if_pos hwear] at hexec
    obtain ⟨hcal, hbyte, hended, hparts⟩ := hover 0x12 0x8002
    have hnot : ¬k.wear = false := by rw [hwear]; decide
    exact ⟨_, _, hexec, hended, rfl, by rw [hcal], fun _ => ⟨rfl, rfl⟩, fun hf => absurd hf hnot, fun hf => absurd hf hnot, fun _ => hcal, by rw [hcal],
      fun a _ => hbyte a, fun a _ => hbyte a, hparts⟩
  rw [if_neg hwear] at hexec
  cases hopen : s.sup.keepOpen with
  | false =>
    rw [if_pos (by rw [hopen]; rfl)] at hexec
    obtain ⟨hcal, hbyte, hended, hparts⟩ := hover 0x31 1
    exact ⟨_, _, hexec, hended, rfl, by rw [hcal], fun hf => absurd hf hwear, fun _ _ => ⟨rfl, rfl⟩, fun _ hf => (nomatch hf), fun _ => hcal, by rw [hcal],
      fun a _ => hbyte a, fun a _ => hbyte a, hparts⟩
  | true =>
    have hok : ok = false := (hfail.resolve_left hwear).resolve_left (by rw [hopen]; decide)
    rw [if_neg (by rw [hopen]; decide), if_pos (by rw [hok]; rfl)] at hexec
    have hbyte := fun a => imageBegun_keepByte (commitOver s) k.slotB k.gen (length_bodyInUse s) (a := a)
    generalize bodyInUse s = body at hexec hbyte
    have hbeside : imageBegun (commitOver s) k.slotB k.gen body =
        { s with cal := { s.cal with commit := none, keep := (imageBegun (commitOver s) k.slotB k.gen body).cal.keep } } := rfl
    generalize imageBegun (commitOver s) k.slotB k.gen body = x at hexec hbyte hbeside
    obtain ⟨hended, hcal, hparts⟩ := commitEnd_spec x k 0x12 0x8001
    have hkeep : ∀ a, (commitEnd x k 0x12 0x8001).keepByte a = x.keepByte a := fun a => by rw [State.keepByte, State.keepByte, hcal]
    refine ⟨_, _, hexec, hended, rfl, ?_, fun hf => absurd hf hwear, fun _ hf => (nomatch hf), fun _ _ => ⟨rfl, rfl⟩,
      fun hf => hf.elim (fun hw => absurd hw hwear) (fun hf => nomatch hf), ?_, fun a ha => (hkeep a).trans (hbyte a (.inr ha)),
      fun a ha => (hkeep a).trans (hbyte a (.inl ha)), ?_⟩
    · rw [hcal, hbeside]
    · rw [hcal, hbeside]
    · rw [hcal]
      rw [hbeside] at hparts ⊢
      exact hparts

/-! CAL_SELECT. -/

/-- SRC of the newest of the valid slots, of the factory image with none. -/
def imageOf (newest : Option Bool) : Nat := match newest with | some false => 1 | some true => 2 | none => 3

/-- A state with other faults. -/
def withFaults (s : State) (f : Faults) : State := { s with flt := f }

theorem raise_withFaults (s : State) (k src d : Nat) : ∃ f, s.raise k src d = withFaults s f := by
  obtain ⟨b, w, h⟩ := raise_parts s k src d 0
  exact ⟨_, h⟩

theorem selectImage_eq (s : State) : ∃ f, selectImage s = withFaults (useImage s (imageOf (newestSlot s))) f := by
  have hfault : ∀ (t : State) (ok : Bool) (d : Nat), ∃ f, (if ok = true then t else t.raise 0x1B 2 d) = withFaults t f := fun t ok d => by
    cases ok with
    | true => exact ⟨t.flt, rfl⟩
    | false => exact raise_withFaults t 0x1B 2 d
  unfold selectImage
  dsimp only
  generalize slotValid s false = va
  generalize slotValid s true = vb
  generalize useImage s = image
  have htail : ∀ x y : State, (∃ f, y = withFaults x f) → ∃ f, (if vb = true then (if va = true then y else y.raise 0x1B 2 1)
      else (if va = true then y else y.raise 0x1B 2 1).raise 0x1B 2 2) = withFaults x f := fun x y hy => by
    obtain ⟨f, rfl⟩ := hy
    obtain ⟨f', hf'⟩ := hfault (withFaults x f) va 1
    rw [hf']
    obtain ⟨f'', hf''⟩ := hfault (withFaults (withFaults x f) f') vb 2
    exact ⟨f'', hf''⟩
  cases newestSlot s with
  | none => exact htail (image 3) _ (raise_withFaults (image 3) 0x1B 1 0)
  | some b =>
    cases b with
    | false => exact htail (image 1) _ ⟨(image 1).flt, rfl⟩
    | true => exact htail (image 2) _ ⟨(image 2).flt, rfl⟩

theorem useImage_spec (s : State) (src : Nat) : (useImage s src).cal.source = src ∧ (useImage s src).cal.modified = false ∧
    (src = 3 → (∀ a, calByte (useImage s src) a = calDefault a) ∧ (useImage s src).cal.sourceGen = 0) ∧
    (∀ b : Bool, src = (if b then 2 else 1) → (useImage s src).cal.sourceGen = slotGen s b ∧
      ∀ a, a < calBodyLen → a < keepNum s (slotBase b + 12) 4 → calByte (useImage s src) a = s.keepByte (slotBase b + 0x1000 + a)) ∧
    (useImage s src).cal = { s.cal with body := (useImage s src).cal.body, source := (useImage s src).cal.source, sourceGen := (useImage s src).cal.sourceGen, modified := false } ∧
    useImage s src = { s with cal := (useImage s src).cal } := by
  unfold useImage
  by_cases h3 : src = 3
  · rw [if_pos h3]
    refine ⟨h3.symm, rfl, fun _ => ⟨fun a => rfl, rfl⟩, fun b hb => ?_, rfl, rfl⟩
    cases b <;> simp at hb <;> omega
  · rw [if_neg h3]
    refine ⟨rfl, rfl, fun h => absurd h h3, fun b hb => ?_, rfl, rfl⟩
    have hslot : decide (src = 2) = b := by cases b <;> simp at hb <;> subst hb <;> rfl
    dsimp only
    rw [hslot]
    refine ⟨rfl, fun a hbody hlen => ?_⟩
    generalize hl : keepBytes s (slotBase b + 0x1000) (min calBodyLen (keepNum s (slotBase b + 12) 4)) = l
    have hlength : l.length = min calBodyLen (keepNum s (slotBase b + 12) 4) := by rw [← hl, keepBytes, List.length_map, List.length_range]
    have hin : a < l.length := by
      rw [hlength]
      exact lt_min hbody hlen
    refine (tget_tput calDefault [] 0 l a).trans ?_
    rw [if_pos ⟨Nat.zero_le a, by rw [Nat.zero_add]; exact hin⟩, Nat.sub_zero, List.getD_eq_getElem _ _ hin]
    subst hl
    simp only [keepBytes, List.getElem_map, List.getElem_range]

/-- No burst and no unit's run is under way. -/
theorem calSelectLoad_checks {s : State} {c : Current} (hsrc : par c 1 ≤ 3) (hseq : ∀ q, q < 64 → seqBusy s q = false) (hunits : ∀ u, u < 32 → (s.tiu u).run = none) :
    ∀ x ∈ [needParam (decide (par c 1 ≤ 3)) 1, firstOf (List.range 64) (fun q => needState (!seqBusy s q) 1),
      firstOf (List.range 32) (fun u => needState ((s.tiu u).run.isNone) 25)], x = none := by
  refine pass_cons (needParam_of 1 (decide_eq_true hsrc)) (pass_cons (firstOf_eq_none.2 fun q hq => needState_of 1 ?_)
    (pass_cons (firstOf_eq_none.2 fun u hu => needState_of 25 ?_) pass_nil))
  · rw [hseq q (List.mem_range.1 hq)]
    rfl
  · rw [hunits u (List.mem_range.1 hu)]
    rfl

theorem calSelectLoad_fails {s : State} {c : Current} {st d : Nat} (h : Picked s 0x0B02 c) (hact : par c 0 = 0) (hsrc : par c 1 ≤ 3)
    (hseq : ∀ q, q < 64 → seqBusy s q = false) (hunits : ∀ u, u < 32 → (s.tiu u).run = none)
    (hfail : firstBad [needState s.cal.run.isNone 26,
      needState (decide (par c 1 = 0) || decide (par c 1 = 3) || slotValid s (decide (par c 1 = 2))) 27] = some (st, d)) :
    ∃ t, exec .calSelectLoad s = .next t ∧ Answered c st d [] s t :=
  picked_bad (k := fun _ => _) h (decide_eq_true hact) rfl ((firstBad_append (calSelectLoad_checks hsrc hseq hunits)).trans hfail)

theorem calSelectLoad_loads {s : State} {c : Current} (h : Picked s 0x0B02 c) (hact : par c 0 = 0) (hsrc : par c 1 ≤ 3)
    (hseq : ∀ q, q < 64 → seqBusy s q = false) (hunits : ∀ u, u < 32 → (s.tiu u).run = none) (hrun : s.cal.run = none)
    (hA : par c 1 = 1 → slotValid s false = true) (hB : par c 1 = 2 → slotValid s true = true) :
    ∃ u t, exec .calSelectLoad s = .next t ∧ Answered c 0 0 [] u t ∧ (∀ b, u.drift b = 0) ∧ u.cal.modified = false ∧
      (par c 1 ≠ 0 → u.cal.source = par c 1) ∧
      (par c 1 = 0 → u.cal.source = (match newestSlot s with | some false => 1 | some true => 2 | none => 3)) ∧
      (u.cal.source = 3 → (∀ a, calByte u a = calDefault a) ∧ u.cal.sourceGen = 0) ∧
      (∀ b : Bool, u.cal.source = (if b then 2 else 1) → u.cal.sourceGen = slotGen s b ∧
        ∀ a, a < calBodyLen → a < keepNum s (slotBase b + 12) 4 → calByte u a = s.keepByte (slotBase b + 0x1000 + a)) ∧
      u.cal = { s.cal with body := u.cal.body, source := u.cal.source, sourceGen := u.cal.sourceGen, modified := false } ∧
      (par c 1 ≠ 0 → u.flt = s.flt) ∧ u = { s with cal := u.cal, edge := { s.edge with drift := [] }, flt := u.flt } := by
  have hslot : (decide (par c 1 = 0) || decide (par c 1 = 3) || slotValid s (decide (par c 1 = 2))) = true := by
    obtain h0 | h1 | h2 | h3 : par c 1 = 0 ∨ par c 1 = 1 ∨ par c 1 = 2 ∨ par c 1 = 3 := by omega
    · rw [h0]; rfl
    · rw [show decide (par c 1 = 2) = false from decide_eq_false (by omega), hA h1, Bool.or_true]
    · rw [show decide (par c 1 = 2) = true from decide_eq_true h2, hB h2, Bool.or_true]
    · rw [h3]; rfl
  have hpass := pass_append (calSelectLoad_checks hsrc hseq hunits)
    (pass_cons (needState_of (b := s.cal.run.isNone) 26 (by rw [hrun]; rfl)) (pass_cons (needState_of 27 hslot) pass_nil))
  obtain ⟨x, f, src, hx, hzero, hnonzero, hflt⟩ : ∃ x f src, (if par c 1 = 0 then selectImage s else useImage s (par c 1)) = x ∧
      (par c 1 = 0 → src = imageOf (newestSlot s)) ∧ (par c 1 ≠ 0 → src = par c 1 ∧ f = s.flt) ∧ x = withFaults (useImage s src) f := by
    by_cases h0 : par c 1 = 0
    · obtain ⟨f, hf⟩ := selectImage_eq s
      exact ⟨_, f, _, rfl, fun _ => rfl, fun hne => absurd h0 hne, by rw [if_pos h0, hf]⟩
    · obtain ⟨-, -, -, -, -, hparts⟩ := useImage_spec s (par c 1)
      exact ⟨_, s.flt, par c 1, rfl, fun hz => absurd hz h0, fun _ => ⟨rfl, rfl⟩, by rw [if_neg h0, hparts]; rfl⟩
  have hexec : ∃ t, exec .calSelectLoad s = .next t ∧ Answered c 0 0 [] { x with edge := { s.edge with drift := [] } } t := by
    obtain ⟨-, -, -, -, -, hparts⟩ := useImage_spec s src
    have hedge : x.edge = s.edge := by
      rw [hflt, hparts]
      rfl
    refine picked_ok (k := fun c => _) h (decide_eq_true hact) rfl (firstBad_pass hpass) ?_ ?_
    · dsimp only
      rw [hx, hedge]
    · rw [hflt, hparts]
      exact h.1
  obtain ⟨t, ht, hans⟩ := hexec
  obtain ⟨hsource, hmod, hfactory, himage, hcal, hparts⟩ := useImage_spec s src
  subst hflt
  have hcalEq : (withFaults (useImage s src) f).cal = (useImage s src).cal := rfl
  refine ⟨_, t, ht, hans, fun b => rfl, hmod, fun hne => hsource.trans (hnonzero hne).1, fun hz => hsource.trans (hzero hz),
    fun h3 => hfactory (hsource.symm.trans h3), fun b hb => himage b (hsource.symm.trans hb), hcal, fun hne => (hnonzero hne).2, ?_⟩
  rw [hparts]
  rfl

theorem calSelectStatus_answers {s : State} {c : Current} (h : Picked s 0x0B02 c) (hact : par c 0 = 1) :
    ∃ t, exec .calSelectStatus s = .next t ∧ Answered c 0 0
      ([w16 s.cal.source, if s.cal.modified then 1 else 0] ++ toWords 2 (slotGen s false) ++ [if slotValid s false then 1 else 0] ++ toWords 2 (slotGen s true) ++
        [if slotValid s true then 1 else 0] ++ toWords 2 (seedGen s false) ++ [if seedValid s false then 1 else 0] ++ toWords 2 (seedGen s true) ++
        [if seedValid s true then 1 else 0, w16 s.cal.seedUsed]) s t := by
  have hflag : ∀ b : Bool, w16 (b2n b) = if b = true then 1 else 0 := fun b => by cases b <;> rfl
  refine picked_answers (k := fun c => _) h (decide_eq_true hact) (congrArg (postResponse s 0 0) ?_) h.1
  generalize slotValid s = valid
  generalize seedValid s = svalid
  generalize slotGen s = gen
  generalize seedGen s = sgen
  simp only [List.flatMap_cons, List.flatMap_nil, hflag, List.append_assoc, List.append_nil, List.cons_append, List.nil_append]

/-! CAL_SELECT QUALITY. -/

theorem calSelectQuality_eyes {s : State} {c : Current} (h : Picked s 0x0B02 c) (hact : par c 0 = 2) (hkind : par c 1 = 7) (hi : par c 2 < 8) :
    ∃ t, exec .calSelectQuality s = .next t ∧ Answered c 0 0 [w16 ((s.port (par c 2 / 4)).eyes.getD (par c 2 % 4) (0, 0)).1,
      w16 ((s.port (par c 2 / 4)).eyes.getD (par c 2 % 4) (0, 0)).2] s t := by
  refine picked_ok (k := fun c => _) h (decide_eq_true hact) rfl (firstBad_pass (pass_cons (needParam_of 1 (by rw [hkind]; rfl))
    (pass_cons (needParam_of 2 ?_) pass_nil))) (if_pos hkind) h.1
  rw [hkind]
  exact decide_eq_true hi

/-- The figures that QUALITY answers. -/
def figuresOf (s : State) (k i : Nat) : Option Nat × Option Nat × Option Nat :=
  if s.measured (1024 * k + i) then runFigures s k i else imageFigures s k i

/-- QUALITY's words. -/
def qualityWords (s : State) (k i : Nat) : List Word :=
  (figureWords s [(figuresOf s k i).1, (figuresOf s k i).2.1, (figuresOf s k i).2.2]).2 ++ [w16 (b2n (!s.measured (1024 * k + i)))]

theorem figureWords_state (s : State) (l : List (Option Nat)) : ∃ n, (figureWords s l).1 = { s with free := n } := by
  induction l generalizing s with
  | nil => exact ⟨s.free, rfl⟩
  | cons x l ih =>
    cases x with
    | some n => exact ih s
    | none =>
      obtain ⟨n, hn⟩ := ih s.takeFree
      exact ⟨n, hn⟩

theorem calSelectQuality_answers {s : State} {c : Current} (h : Picked s 0x0B02 c) (hact : par c 0 = 2) (hkind : par c 1 < 7)
    (hi : par c 2 < qualityCount (par c 1)) :
    ∃ t, exec .calSelectQuality s = .next t ∧ Answered c 0 0 (qualityWords s (par c 1) (par c 2))
      (figureWords s [(figuresOf s (par c 1) (par c 2)).1, (figuresOf s (par c 1) (par c 2)).2.1, (figuresOf s (par c 1) (par c 2)).2.2]).1 t := by
  have h7 : ¬par c 1 = 7 := by omega
  refine picked_ok (k := fun c => _) h (decide_eq_true hact) rfl (firstBad_pass (pass_cons (needParam_of 1 (decide_eq_true (by omega)))
    (pass_cons (needParam_of 2 (decide_eq_true hi)) pass_nil))) ((if_neg h7).trans rfl) ?_
  obtain ⟨n, hn⟩ := figureWords_state s [(figuresOf s (par c 1) (par c 2)).1, (figuresOf s (par c 1) (par c 2)).2.1, (figuresOf s (par c 1) (par c 2)).2.2]
  rw [hn]
  exact h.1

/-- Each figure takes two words. -/
theorem figureWords_three (s : State) (x y z : Option Nat) : ∃ a b d, (figureWords s [x, y, z]).2 = toWords 2 a ++ (toWords 2 b ++ (toWords 2 d ++ [])) ∧
    (∀ n, x = some n → a = n) ∧ (∀ n, y = some n → b = n) ∧ (∀ n, z = some n → d = n) := by
  have hcons : ∀ (s : State) (x : Option Nat) (l : List (Option Nat)), ∃ a t, (figureWords s (x :: l)).2 = toWords 2 a ++ (figureWords t l).2 ∧ ∀ n, x = some n → a = n :=
    fun s x l => by
    cases x with
    | some n => exact ⟨n, s, rfl, fun m hm => Option.some.inj hm⟩
    | none => exact ⟨s.freeNat, s.takeFree, rfl, fun m hm => nomatch hm⟩
  obtain ⟨a, t, ha, hxa⟩ := hcons s x [y, z]
  obtain ⟨b, t', hb, hyb⟩ := hcons t y [z]
  obtain ⟨d, t'', hd, hzd⟩ := hcons t' z []
  exact ⟨a, b, d, by rw [ha, hb, hd]; rfl, hxa, hyb, hzd⟩

theorem figureWords_given (s : State) (a b d : Nat) :
    figureWords s [some a, some b, some d] = (s, toWords 2 a ++ (toWords 2 b ++ (toWords 2 d ++ []))) := rfl

theorem toWords_two (n : Nat) : ∃ a b, toWords 2 n = [a, b] := ⟨_, _, rfl⟩

theorem qualityWords_spec (s : State) (k i : Nat) : (qualityWords s k i).length = 7 ∧ (qualityWords s k i).getD 6 0 = w16 (b2n (!s.measured (1024 * k + i))) ∧
    (∀ n, (figuresOf s k i).1 = some n → (qualityWords s k i).take 2 = toWords 2 n) ∧
    (∀ n, (figuresOf s k i).2.1 = some n → ((qualityWords s k i).drop 2).take 2 = toWords 2 n) ∧
    (∀ n, (figuresOf s k i).2.2 = some n → ((qualityWords s k i).drop 4).take 2 = toWords 2 n) := by
  unfold qualityWords
  generalize figuresOf s k i = f
  generalize w16 (b2n (!s.measured (1024 * k + i))) = last
  obtain ⟨a, b, d, hw, hx, hy, hz⟩ := figureWords_three s f.1 f.2.1 f.2.2
  rw [hw]
  obtain ⟨a0, a1, ha⟩ := toWords_two a
  obtain ⟨b0, b1, hb⟩ := toWords_two b
  obtain ⟨d0, d1, hd⟩ := toWords_two d
  refine ⟨?_, ?_, fun n hn => ?_, fun n hn => ?_, fun n hn => ?_⟩
  · rw [ha, hb, hd]; rfl
  · rw [ha, hb, hd]; rfl
  · rw [← hx n hn, ha]; rfl
  · rw [← hy n hn, ha, hb]; rfl
  · rw [← hz n hn, ha, hb, hd]; rfl

theorem figuresOf_run {s : State} {k i : Nat} (h : s.measured (1024 * k + i) = true) : figuresOf s k i = runFigures s k i := if_pos h

theorem figuresOf_image {s : State} {k i : Nat} (h : s.measured (1024 * k + i) = false) : figuresOf s k i = imageFigures s k i :=
  if_neg (by rw [h]; decide)

/-- A figure of the last run, as a binary32 pattern. -/
def milli (n : Nat) : Nat := (toF32 ⟨n, 1000⟩).toNat

theorem runFigures_of_ne {s : State} {k i : Nat} (h : k ≠ 6) : (runFigures s k i).1 = some (milli (s.quality (1024 * k + i)).first) ∧
    (runFigures s k i).2.2 = some (milli (s.quality (1024 * k + i)).rep) := by
  unfold runFigures milli
  dsimp only
  rw [if_neg h]
  exact ⟨rfl, rfl⟩

theorem runFigures_codes {s : State} {k i : Nat} (h : k = 3 ∨ k = 4) : (runFigures s k i).2.1 = some (milli (s.quality (1024 * k + i)).second) := by
  unfold runFigures milli
  dsimp only
  rw [if_neg (by omega), if_pos h]

theorem runFigures_refv (s : State) (i : Nat) : (runFigures s 6 i).2.1 = some (milli (s.quality (1024 * 6 + i)).second) := rfl

theorem calSelectQuality_figures {s : State} {c : Current} (h : Picked s 0x0B02 c) (hact : par c 0 = 2) (hkind : par c 1 < 7)
    (hi : par c 2 < qualityCount (par c 1)) :
    ∃ u t w, exec .calSelectQuality s = .next t ∧ Answered c 0 0 w u t ∧ w.length = 7 ∧
      w.getD 6 0 = (if s.measured (1024 * par c 1 + par c 2) then 0 else 1) ∧
      (s.measured (1024 * par c 1 + par c 2) = true → par c 1 ≠ 6 → w.take 2 = toWords 2 (toF32 ⟨(s.quality (1024 * par c 1 + par c 2)).first, 1000⟩).toNat ∧
        (w.drop 4).take 2 = toWords 2 (toF32 ⟨(s.quality (1024 * par c 1 + par c 2)).rep, 1000⟩).toNat) ∧
      (s.measured (1024 * par c 1 + par c 2) = true → par c 1 = 6 → (w.drop 2).take 2 = toWords 2 (toF32 ⟨(s.quality (1024 * par c 1 + par c 2)).second, 1000⟩).toNat) ∧
      (∀ n, s.measured (1024 * par c 1 + par c 2) = false → (imageFigures s (par c 1) (par c 2)).1 = some n → w.take 2 = toWords 2 n) ∧
      u = { s with free := u.free } := by
  obtain ⟨t, ht, hans⟩ := calSelectQuality_answers h hact hkind hi
  obtain ⟨hlen, hlast, hfirst, hsecond, hthird⟩ := qualityWords_spec s (par c 1) (par c 2)
  obtain ⟨n, hn⟩ := figureWords_state s [(figuresOf s (par c 1) (par c 2)).1, (figuresOf s (par c 1) (par c 2)).2.1, (figuresOf s (par c 1) (par c 2)).2.2]
  rw [hn] at hans
  refine ⟨_, t, _, ht, hans, hlen, ?_, fun hm hne => ?_, fun hm h6 => ?_, fun n hm himage => ?_, rfl⟩
  · rw [hlast]
    cases s.measured (1024 * par c 1 + par c 2) <;> rfl
  · obtain ⟨hx, hz⟩ := runFigures_of_ne (s := s) (i := par c 2) hne
    exact ⟨hfirst _ (by rw [figuresOf_run hm]; exact hx), hthird _ (by rw [figuresOf_run hm]; exact hz)⟩
  · have hy := runFigures_refv s (par c 2)
    rw [← h6] at hy
    exact hsecond _ (by rw [figuresOf_run hm]; exact hy)
  · exact hfirst n (by rw [figuresOf_image hm]; exact himage)

theorem calSelectQuality_codes {s : State} {c : Current} (h : Picked s 0x0B02 c) (hact : par c 0 = 2) (hkind : par c 1 = 3 ∨ par c 1 = 4)
    (hi : par c 2 < qualityCount (par c 1)) (hm : s.measured (1024 * par c 1 + par c 2) = true) :
    ∃ t q, exec .calSelectQuality s = .next t ∧ q = s.quality (1024 * par c 1 + par c 2) ∧
      Answered c 0 0 (toWords 2 (toF32 ⟨q.first, 1000⟩).toNat ++ toWords 2 (toF32 ⟨q.second, 1000⟩).toNat ++ toWords 2 (toF32 ⟨q.rep, 1000⟩).toNat ++ [0]) s t := by
  obtain ⟨t, ht, hans⟩ := calSelectQuality_answers h hact (by omega) hi
  obtain ⟨hx, hz⟩ := runFigures_of_ne (s := s) (i := par c 2) (show par c 1 ≠ 6 by omega)
  have hy := runFigures_codes (s := s) (i := par c 2) hkind
  refine ⟨t, _, ht, rfl, ?_⟩
  unfold qualityWords at hans
  rw [figuresOf_run hm, hx, hy, hz, hm, figureWords_given] at hans
  unfold milli at hans
  simp only [List.append_assoc, List.nil_append] at hans ⊢
  exact hans

/-- Settles O55: sectors erased in order, the bytes of header, body and marker, the image chosen, and the figures answered. -/
theorem calibrationImages : Obligations.CalibrationImages := by
  unfold Obligations.CalibrationImages
  refine ⟨fun s c target h htag hallowed hrun hidle htarget => calCommit_started h htag hallowed hrun hidle htarget,
    fun s c h htag hallowed => calCommit_fails h htag ?shut, fun s c h htag hallowed hrun => calCommit_fails h htag ?running,
    fun s c h htag hallowed hrun hbusy => calCommit_fails h htag ?busy, ?none,
    fun s k h hwear hopen hgen => calCommitDone_writes h hwear hopen hgen, fun ok s k h hfail => calCommitDone_fails h hfail,
    fun s c h hact hsrc hseq hunits hrun hA hB => calSelectLoad_loads h hact hsrc hseq hunits hrun hA hB, ?invalid, ?burst, ?calRun, ?source,
    fun s c h hact => calSelectStatus_answers h hact, fun s c h hact hkind hi => calSelectQuality_eyes h hact hkind hi,
    fun s c h hact hkind hi hm => calSelectQuality_codes h hact hkind hi hm,
    fun s c h hact hkind hi => calSelectQuality_figures h hact hkind hi, ?kind⟩
  case shut => rw [needKeep_of_not hallowed]; rfl
  case running =>
    rw [needKeep_of hallowed, firstBad_none, needState_of_not 26 (Option.isNone_eq_false_iff.2 (Option.isSome_iff_ne_none.2 hrun))]
    rfl
  case busy => rw [needKeep_of hallowed, hrun, needKeepIdle_of_not hbusy]; rfl
  case none =>
    intro ok s h
    rw [show exec (.calCommitDone ok) s = execCalCommitDone ok s from rfl, execCalCommitDone, h]
  case invalid =>
    intro s c b h hact hsrc hseq hunits hrun hvalid
    have hle : par c 1 ≤ 3 := by rw [hsrc]; cases b <;> decide
    refine calSelectLoad_fails h hact hle hseq hunits ?_
    cases b with
    | false =>
      rw [hsrc]
      change firstBad [_, needState (false || false || slotValid s false) 27] = _
      rw [hvalid, hrun]
      rfl
    | true =>
      rw [hsrc]
      change firstBad [_, needState (false || false || slotValid s true) 27] = _
      rw [hvalid, hrun]
      rfl
  case burst =>
    intro s c q h hact hsrc hq hbusy
    refine picked_bad (k := fun _ => _) h (decide_eq_true hact) rfl ?_
    rw [needParam_of 1 (decide_eq_true hsrc), firstBad_none, firstOf_of_mem (b := (0x13, 1)) (List.mem_range.2 hq) (by rw [hbusy]; rfl) fun y _ => ?_]
    · rfl
    · cases seqBusy s y <;> simp [needState]
  case calRun =>
    intro s c h hact hsrc hseq hunits hrun
    refine calSelectLoad_fails h hact hsrc hseq hunits ?_
    rw [needState_of_not 26 (Option.isNone_eq_false_iff.2 (Option.isSome_iff_ne_none.2 hrun))]
    rfl
  case source =>
    intro s c h hact hsrc
    refine picked_bad (k := fun _ => _) h (decide_eq_true hact) rfl ?_
    rw [needParam_of_not 1 (decide_eq_false (by omega))]
    rfl
  case kind =>
    intro s c h hact hkind
    refine picked_bad (k := fun _ => _) h (decide_eq_true hact) rfl ?_
    rw [needParam_of_not 1 (decide_eq_false (by omega))]
    rfl

end Sys2Proof.Machine
end

section
/-! PROOFS. O54: calibration runs. How loops freeze and thaw, what a run's end returns to service, and the coefficients that an
accepted run replaces. -/

set_option Elab.async false

namespace Sys2Proof.Machine

/-- A fold of an idempotent update of one entry per step, while `P` holds. -/
theorem foldl_idem {α : Type} {get : State → Nat → α} {step : State → Nat → State} {f : α → α} {P : State → Prop}
    (hP : ∀ s k, P s → P (step s k)) (hstep : ∀ s k j, P s → get (step s k) j = if j = k then f (get s k) else get s j)
    (hf : ∀ x, f (f x) = f x) (l : List Nat) {s : State} (hs : P s) (j : Nat) :
    get (l.foldl step s) j = if j ∈ l then f (get s j) else get s j := by
  induction l generalizing s with
  | nil => simp
  | cons k l ih =>
    rw [List.foldl_cons, ih (hP s k hs), hstep s k j hs]
    by_cases hj : j = k
    · subst hj
      rw [if_pos rfl, hf, ite_self, if_pos List.mem_cons_self]
    · rw [if_neg hj]
      simp only [List.mem_cons, hj, false_or]

/-! Loops that freeze. -/

/-- A loop that a run freezes. -/
def frozenOf (x : LoopState) : LoopState :=
  if x.state = .cloche ∨ x.state = .ganged ∨ x.state = .frozen then x
  else { x with state := .frozen, resume := if x.state = .settling then .regulating else x.state, change := none, changeNext := none, autoGoal := none }

theorem frozenOf_frozenOf (x : LoopState) : frozenOf (frozenOf x) = frozenOf x := by
  by_cases h : x.state = .cloche ∨ x.state = .ganged ∨ x.state = .frozen
  · have hx : frozenOf x = x := if_pos h
    rw [hx, hx]
  · have hx : (frozenOf x).state = .frozen := by rw [frozenOf, if_neg h]
    exact if_pos (.inr (.inr hx))

/-- No LOOP_RANGE waits. -/
def NoRangeWait (s : State) : Prop := waitsFor s .rangeSettle = false

theorem dropRange_noWait {s : State} (h : NoRangeWait s) (l : Nat) (b : Bad) :
    (∃ p, dropRange s l b = { s with lp := { s.lp with loop := p } }) ∧
      (dropRange s l b).loop l = { s.loop l with
        change := none, changeNext := none, autoGoal := none
        state := if (s.loop l).change.isNone ∧ (s.loop l).changeNext.isNone ∧ (s.loop l).autoGoal.isNone then (s.loop l).state
          else if (s.loop l).state = .settling then .regulating else (s.loop l).state } ∧
      ∀ k, k ≠ l → (dropRange s l b).loop k = s.loop k := by
  unfold dropRange
  dsimp only
  by_cases hnone : (s.loop l).change.isNone ∧ (s.loop l).changeNext.isNone ∧ (s.loop l).autoGoal.isNone
  · rw [if_pos hnone, if_pos hnone]
    simp only [Option.isNone_iff_eq_none] at hnone
    obtain ⟨hchange, hnext, hgoal⟩ := hnone
    refine ⟨⟨s.lp.loop, rfl⟩, ?_, fun _ _ => rfl⟩
    rw [← hchange, ← hnext, ← hgoal]
  · rw [if_neg hnone, if_neg hnone]
    generalize hv : State.modLoop s l _ = v
    have hcur : v.fw.current = s.fw.current := by rw [← hv]; rfl
    have hwait : waitsFor v .rangeSettle = false := by rw [waitsFor, hcur]; exact h
    have hstop : (match v.fw.current with
        | some c => if waitsFor v .rangeSettle ∧ (loopRange c 0).contains l = true then postBad v b else v
        | none => v) = v := by
      cases v.fw.current with
      | none => rfl
      | some c => exact if_neg fun hw => by rw [hwait] at hw; exact absurd hw.1 (by decide)
    have hgoal : (∃ p, v = { s with lp := { s.lp with loop := p } }) ∧
        v.loop l = { s.loop l with
          change := none, changeNext := none, autoGoal := none
          state := if (s.loop l).state = .settling then .regulating else (s.loop l).state } ∧
        ∀ k, k ≠ l → v.loop k = s.loop k := by
      subst hv
      exact ⟨⟨_, rfl⟩, by rw [State.modLoop_loop, if_pos rfl], fun k hk => by rw [State.modLoop_loop, if_neg hk]⟩
    obtain ⟨hparts, hown, hothers⟩ := hgoal
    refine ⟨?_, ?_, fun k hk => ?_⟩
    · obtain ⟨p, hp⟩ := hparts
      exact ⟨p, hstop.trans hp⟩
    · exact (congrArg (fun t : State => t.loop l) hstop).trans hown
    · exact (congrArg (fun t : State => t.loop k) hstop).trans (hothers k hk)

theorem freezeLoop_noWait {s : State} (h : NoRangeWait s) (l : Nat) :
    (∃ p, freezeLoop s l = { s with lp := { s.lp with loop := p } }) ∧ ∀ k, (freezeLoop s l).loop k = if k = l then frozenOf (s.loop l) else s.loop k := by
  have hsame : ∀ k, s.loop k = if k = l then s.loop l else s.loop k := fun k => by split <;> simp_all
  unfold freezeLoop frozenOf
  dsimp only
  by_cases hheld : (s.loop l).state = .cloche ∨ (s.loop l).state = .ganged ∨ (s.loop l).state = .frozen
  · rw [if_pos hheld, if_pos hheld]
    exact ⟨⟨s.lp.loop, rfl⟩, hsame⟩
  · rw [if_neg hheld, if_neg hheld]
    obtain ⟨⟨p, hp⟩, hown, hothers⟩ := dropRange_noWait h l (0x13, 5)
    generalize dropRange s l (0x13, 5) = v at hp hown hothers
    subst hp
    refine ⟨⟨_, rfl⟩, fun k => ?_⟩
    rw [State.modLoop_loop]
    by_cases hk : k = l
    · subst hk
      rw [if_pos rfl, if_pos rfl, hown]
    · rw [if_neg hk, if_neg hk, hothers k hk]

theorem foldl_freezeLoop (l : List Nat) {s : State} (h : NoRangeWait s) :
    (∃ p, l.foldl freezeLoop s = { s with lp := { s.lp with loop := p } }) ∧
      ∀ k, (l.foldl freezeLoop s).loop k = if k ∈ l then frozenOf (s.loop k) else s.loop k := by
  refine ⟨?_, fun k => foldl_idem (get := State.loop) (P := NoRangeWait) (fun s k hs => ?_) (fun s k j hs => (freezeLoop_noWait hs k).2 j) frozenOf_frozenOf l h k⟩
  · induction l generalizing s with
    | nil => exact ⟨s.lp.loop, rfl⟩
    | cons k l ih =>
      obtain ⟨p, hp⟩ := (freezeLoop_noWait h k).1
      obtain ⟨q, hq⟩ := ih (s := freezeLoop s k) (by rw [hp]; exact h)
      exact ⟨q, by rw [List.foldl_cons, hq, hp]⟩
  · obtain ⟨p, hp⟩ := (freezeLoop_noWait hs k).1
    rw [hp]
    exact hs

theorem thawLoop_loop (s : State) (l k : Nat) :
    (thawLoop s l).loop k = if k = l then (if (s.loop l).state = .frozen then { s.loop l with state := (s.loop l).resume } else s.loop l) else s.loop k := by
  rw [thawLoop, State.modLoop_loop]

theorem foldl_thawLoop (l : List Nat) (s : State) :
    (∃ p, l.foldl thawLoop s = { s with lp := { s.lp with loop := p } }) ∧
      ∀ k, (l.foldl thawLoop s).loop k = if k ∈ l then (if (s.loop k).state = .frozen then { s.loop k with state := (s.loop k).resume } else s.loop k) else s.loop k := by
  refine ⟨?_, fun k => foldl_idem (get := State.loop) (P := fun _ => True) (f := fun x => if x.state = .frozen then { x with state := x.resume } else x)
    (fun _ _ h => h) (fun s k j _ => thawLoop_loop s k j) (fun x => ?_) l trivial k⟩
  · have hkept := foldl_same (F := fun s : State => { s with lp := { s.lp with loop := [] } }) (step := thawLoop) (fun _ _ => rfl) l s
    exact ⟨(l.foldl thawLoop s).lp.loop, congrArg (fun t : State => { t with lp := { t.lp with loop := (l.foldl thawLoop s).lp.loop } }) hkept⟩
  · by_cases h : x.state = .frozen
    · rw [if_pos h]
      by_cases h' : x.resume = .frozen
      · rw [if_pos h']
      · rw [if_neg h']
    · rw [if_neg h, if_neg h]

/-! Clocks that a run holds. -/

theorem follows_shutWindows (s : State) (p : Nat) (t : Int) : follows (shutWindows s p t) p = false := by
  rw [follows, shutWindows, State.modPinck_pinck, if_pos rfl]
  refine List.any_eq_false.2 fun w hw => ?_
  obtain ⟨v, -, rfl⟩ := List.mem_map.1 hw
  split
  · exact Bool.false_ne_true
  · next h => exact h

theorem leaveClock_spec (s : State) (p : Nat) (t : Int) :
    (∃ q, leaveClock s p t = { s with edge := { s.edge with pinClock := q } }) ∧ follows (leaveClock s p t) p = false ∧
      ∀ j, j ≠ p → (leaveClock s p t).pinck j = s.pinck j := by
  unfold leaveClock
  by_cases h : follows s p = true
  · rw [if_pos h]
    refine ⟨⟨_, rfl⟩, follows_shutWindows s p _, fun j hj => ?_⟩
    rw [shutWindows, State.modPinck_pinck, if_neg hj]
  · rw [if_neg h]
    exact ⟨⟨s.edge.pinClock, rfl⟩, Bool.eq_false_iff.2 h, fun _ _ => rfl⟩

/-- The clocks of pins `l` leave them. -/
theorem foldl_leaveClock (t : State → Int) (l : List Nat) (s : State) :
    (∃ q, l.foldl (fun s p => leaveClock s p (t s)) s = { s with edge := { s.edge with pinClock := q } }) ∧
      ∀ p, p ∈ l ∨ follows s p = false → follows (l.foldl (fun s p => leaveClock s p (t s)) s) p = false := by
  induction l generalizing s with
  | nil => exact ⟨⟨s.edge.pinClock, rfl⟩, fun p h => h.resolve_left (by simp)⟩
  | cons k l ih =>
    obtain ⟨⟨q, hq⟩, hown, hothers⟩ := leaveClock_spec s k (t s)
    obtain ⟨⟨q', hq'⟩, hrest⟩ := ih (leaveClock s k (t s))
    refine ⟨⟨q', by rw [List.foldl_cons, hq', hq]⟩, fun p hp => hrest p ?_⟩
    by_cases hk : p = k
    · subst hk
      exact .inr hown
    · refine hp.imp (fun hmem => (List.mem_cons.1 hmem).resolve_left hk) fun hf => ?_
      rw [follows, hothers p hk]
      exact hf

theorem foldl_holdClocks (l : List Nat) (s : State) :
    (∃ q, l.foldl holdClocks s = { s with edge := { s.edge with pinClock := q } }) ∧
      ∀ p, p / 32 ∈ l ∨ follows s p = false → follows (l.foldl holdClocks s) p = false := by
  induction l generalizing s with
  | nil => exact ⟨⟨s.edge.pinClock, rfl⟩, fun p h => h.resolve_left (by simp)⟩
  | cons b l ih =>
    obtain ⟨⟨q, hq⟩, hbed⟩ : (∃ q, holdClocks s b = { s with edge := { s.edge with pinClock := q } }) ∧
        ∀ p, p ∈ rangeFrom (32 * b) 32 ∨ follows s p = false → follows (holdClocks s b) p = false := by
      unfold holdClocks
      generalize rangeFrom (32 * b) 32 = pins
      exact foldl_leaveClock (fun s => 256 * (s.now : Int)) pins s
    rw [List.foldl_cons]
    generalize holdClocks s b = v at hq hbed ⊢
    obtain ⟨⟨q', hq'⟩, hrest⟩ := ih v
    refine ⟨⟨q', by rw [hq', hq]⟩, fun p hp => hrest p ?_⟩
    by_cases hb : p / 32 = b
    · exact .inr (hbed p (.inl (mem_rangeFrom.2 (by omega))))
    · exact hp.imp (fun hmem => (List.mem_cons.1 hmem).resolve_left hb) fun hf => hbed p (.inr hf)

end Sys2Proof.Machine
end

section
/-! PROOFS. O54, continued: the start of a run, what its end returns to service, the coefficients, and the obligation. -/

set_option Elab.async false

namespace Sys2Proof.Machine

/-! CAL_RUN. -/

/-- The run that CAL_RUN starts. -/
def calRunOf (s : State) (c : Current) : CalRun :=
  { tag := c.tag.toNat, ring := c.ring.toNat, kind := par c 0, scopes := scopesOf s (par c 0) (par32 c 1), dry := bit (par c 3) 0, refv := parF c 4,
    tolPpm := if par c 6 = 0 then 500 else par c 6, aborting := false }

/-- The scopes of the run offline. -/
def calOffline (s : State) (r : CalRun) : State :=
  let s := { s with cal := { s.cal with run := some r } }
  let s := (calLoops s r.kind r.scopes).foldl freezeLoop s
  if r.kind ≤ 1 then (calBeds r.kind r.scopes).foldl holdClocks s else s

theorem calOffline_spec {s : State} (h : NoRangeWait s) (r : CalRun) :
    (∃ q p, calOffline s r = { s with cal := { s.cal with run := some r }, edge := { s.edge with pinClock := q }, lp := { s.lp with loop := p } }) ∧
      (∀ l, (calOffline s r).loop l = if l ∈ calLoops s r.kind r.scopes then frozenOf (s.loop l) else s.loop l) ∧
      (r.kind ≤ 1 → ∀ p, p / 32 ∈ calBeds r.kind r.scopes → follows (calOffline s r) p = false) ∧ (1 < r.kind → (calOffline s r).edge = s.edge) := by
  have hloops : calLoops { s with cal := { s.cal with run := some r } } r.kind r.scopes = calLoops s r.kind r.scopes := rfl
  obtain ⟨⟨p, hp⟩, hloop⟩ := foldl_freezeLoop (calLoops s r.kind r.scopes) (s := { s with cal := { s.cal with run := some r } }) h
  unfold calOffline
  dsimp only
  rw [hloops, hp]
  rw [hp] at hloop
  generalize calBeds r.kind r.scopes = beds
  obtain ⟨⟨q, hq⟩, hclocks⟩ := foldl_holdClocks beds { s with cal := { s.cal with run := some r }, lp := { s.lp with loop := p } }
  by_cases hk : r.kind ≤ 1
  · rw [if_pos hk]
    refine ⟨⟨q, p, hq⟩, fun l => ?_, fun _ j hj => hclocks j (.inl hj), fun hlt => absurd hk (by omega)⟩
    rw [hq]
    exact hloop l
  · rw [if_neg hk]
    exact ⟨⟨s.edge.pinClock, p, rfl⟩, hloop, fun hle => absurd hle hk, fun _ => rfl⟩

/-- The checks of CAL_RUN up to its tag. -/
theorem calRun_asked {s : State} {c : Current} (h : CalAsked c) (htag : tagInUse s c.tag.toNat = false) :
    ∀ x ∈ [needParam (decide (par c 0 ≤ 6)) 0,
       needParam (decide (par32 c 1 < 2 ^ calScopes (par c 0)) && (decide (par32 c 1 ≠ 0) || decide (calScopes (par c 0) = 0))) 1,
       needBits c 3 1,
       needParam (if par c 0 = 6 then within (parF c 4) (Frac.ofInt 2) (Frac.ofInt 5) else decide (par32 c 4 = 0)) 4,
       needParam (if par c 0 = 6 then decide (par c 6 = 0) || (decide (50 ≤ par c 6) && decide (par c 6 ≤ 10000)) else decide (par c 6 = 0)) 6,
       needTag s c.tag.toNat], x = none := by
  obtain ⟨hkind, hmask, hsome, hflags, hother, hrefv⟩ := h
  refine pass_cons (needParam_of 0 (decide_eq_true hkind)) (pass_cons (needParam_of 1 ?_) (pass_cons (needParam_of 3 (decide_eq_true hflags))
    (pass_cons (needParam_of 4 ?_) (pass_cons (needParam_of 6 ?_) (pass_cons (needTag_pass htag) pass_nil)))))
  · rw [decide_eq_true hmask, Bool.true_and, Bool.or_eq_true]
    exact hsome.symm.imp decide_eq_true decide_eq_true
  · by_cases h6 : par c 0 = 6
    · rw [if_pos h6]
      exact (hrefv h6).1
    · rw [if_neg h6]
      exact decide_eq_true (hother h6).1
  · by_cases h6 : par c 0 = 6
    · rw [if_pos h6, Bool.or_eq_true, Bool.and_eq_true]
      exact (hrefv h6).2.imp decide_eq_true fun h => ⟨decide_eq_true h.1, decide_eq_true h.2⟩
    · rw [if_neg h6]
      exact decide_eq_true (hother h6).2

/-- The checks of CAL_RUN on what its scopes are in use for. -/
theorem calRun_free {s : State} {c : Current} (h : CalScopesFree s c) (hshut : s.sup.shutdown = false) :
    ∀ x ∈ [if par c 0 ≤ 2 then needRef s else none, if s.sup.shutdown then some (0x14, 0xFF) else none,
       if par c 0 ≤ 3 then firstOf (calBeds (par c 0) (scopesOf s (par c 0) (par32 c 1))) (fun b => needState (!bedBusy s b) 1) else none,
       needActive s (calBeds (par c 0) (scopesOf s (par c 0) (par32 c 1))),
       if par c 0 = 2 then firstOf (scopesOf s (par c 0) (par32 c 1)) (fun u => needState ((s.tiu u).run.isNone) 25) else none], x = none := by
  obtain ⟨href, hbeds, hunits⟩ := h
  refine pass_cons ?_ (pass_cons (if_neg (by rw [hshut]; decide)) (pass_cons ?_ (pass_cons (needActive_eq_none.2 fun b hb => (hbeds b hb).1) (pass_cons ?_ pass_nil))))
  · split
    · next hk => exact needRef_of (href hk).1 (href hk).2
    · rfl
  · split
    · next hk => exact firstOf_eq_none.2 fun b hb => needState_of 1 (by rw [(hbeds b hb).2 hk]; rfl)
    · rfl
  · split
    · next hk =>
      rw [hk]
      exact firstOf_eq_none.2 fun u hu => needState_of 25 (by rw [hunits hk u hu]; rfl)
    · rfl

theorem calRun_starts {s : State} {c : Current} (h : Picked s 0x0B00 c) (hasked : CalAsked c) (hfree : CalScopesFree s c)
    (htag : tagInUse s c.tag.toNat = false) (hshut : s.sup.shutdown = false) (hrun : s.cal.run = none) :
    ∃ v t, exec .calRun s = .next t ∧ Answered c 1 0 [] v t ∧ Begun c.tag.toNat 0x0B00 c.ring.toNat 0 (calOffline s (calRunOf s c)) v := by
  have hpass := pass_append (calRun_asked hasked htag) (pass_append (calRun_free hfree hshut)
    (pass_cons (show needBusy s.cal.run.isNone 0xFE = none from needBusy_eq_none.2 (by rw [hrun]; rfl)) pass_nil))
  have hexec : exec .calRun s = .next (accept (calOffline s (calRunOf s c)) c 0) :=
    congrArg Host.Outcome.next ((onCommand_picked h (fun _ => true) _ rfl).trans (checked_pass _ (firstBad_pass hpass)))
  obtain ⟨⟨q, p, hparts⟩, -⟩ := calOffline_spec (s := s) (by rw [NoRangeWait, waitsFor, h.1]; exact decide_eq_false (by rw [h.2.2]; decide)) (calRunOf s c)
  have hcur : (calOffline s (calRunOf s c)).fw.current = some c := by
    rw [hparts]
    exact h.1
  generalize calOffline s (calRunOf s c) = u at hexec hcur
  obtain ⟨p, g, hbegin, hans⟩ := accept_answered hcur 0 []
  have hbegun := beginWork_begun u c.tag.toNat c.opcode.toNat c.ring.toNat 0 false
  rw [hbegin, h.2.1] at hbegun
  exact ⟨_, _, hexec, hans, hbegun⟩

end Sys2Proof.Machine
end

section
/-! PROOFS. O54, continued: what the end of a run returns to service, and the coefficients that an accepted run replaces. -/

set_option Elab.async false

namespace Sys2Proof.Machine

/-! The end of a run. -/

/-- The loops of the run are back as they were before it, and the run is over: nothing else but clocks, answers and records changed. -/
def Returned (s : State) (r : CalRun) (t : State) : Prop :=
  t.cal = { s.cal with run := none } ∧ t.edge.drift = s.edge.drift ∧
    (∀ l ∈ calLoops s r.kind r.scopes, (s.loop l).state = .frozen → t.loop l = { s.loop l with state := (s.loop l).resume }) ∧
    (∀ l, l ∉ calLoops s r.kind r.scopes ∨ (s.loop l).state ≠ .frozen → t.loop l = s.loop l) ∧
    t = { s with free := t.free, mb := t.mb, fw := t.fw, edge := t.edge, lp := { s.lp with loop := t.lp.loop }, harv := t.harv, link := t.link, cal := t.cal, flt := t.flt }

theorem foldl_resumeClocks (l : List Nat) (s : State) : ∃ q, l.foldl resumeClocks s = { s with edge := { s.edge with pinClock := q } } := by
  have hjoin : ∀ (pins : List Nat) (v : State), ∃ q, pins.foldl (fun s p => if (pinSite s p).isNone then joinClock s p (256 * s.now + 328) else s) v =
      { v with edge := { v.edge with pinClock := q } } := by
    intro pins v
    have hkept := foldl_same (F := fun s : State => { s with edge := { s.edge with pinClock := [] } })
      (step := fun s p => if (pinSite s p).isNone then joinClock s p (256 * s.now + 328) else s) (fun s p => by
        dsimp only
        split
        · unfold joinClock
          split
          · rfl
          · rfl
        · rfl) pins v
    exact ⟨_, congrArg (fun t : State => { t with edge := { t.edge with pinClock := (pins.foldl (fun s p => if (pinSite s p).isNone then joinClock s p (256 * s.now + 328) else s) v).edge.pinClock } }) hkept⟩
  induction l generalizing s with
  | nil => exact ⟨s.edge.pinClock, rfl⟩
  | cons b l ih =>
    obtain ⟨q, hq⟩ : ∃ q, resumeClocks s b = { s with edge := { s.edge with pinClock := q } } := by
      unfold resumeClocks
      split
      · exact ⟨s.edge.pinClock, rfl⟩
      · generalize rangeFrom (32 * b) 32 = pins
        exact hjoin pins s
    rw [List.foldl_cons, hq]
    obtain ⟨q', hq'⟩ := ih { s with edge := { s.edge with pinClock := q } }
    exact ⟨q', hq'⟩

theorem releaseScopes_parts (s : State) (r : CalRun) :
    ∃ n e p, releaseScopes s r = { s with free := n, cal := { s.cal with run := none }, edge := e, lp := { s.lp with loop := p } } ∧ e.drift = s.edge.drift ∧
      ∀ l, tget (fun _ => ({} : LoopState)) p l =
        if l ∈ calLoops s r.kind r.scopes then (if (s.loop l).state = .frozen then { s.loop l with state := (s.loop l).resume } else s.loop l) else s.loop l := by
  have hloops : calLoops { s with cal := { s.cal with run := none } } r.kind r.scopes = calLoops s r.kind r.scopes := rfl
  unfold releaseScopes
  dsimp only
  rw [hloops]
  obtain ⟨⟨p, hp⟩, hloop⟩ := foldl_thawLoop (calLoops s r.kind r.scopes) { s with cal := { s.cal with run := none } }
  rw [hp] at hloop ⊢
  have hsync : ∃ n e, (if r.kind = 0 then syncBeds { s with cal := { s.cal with run := none }, lp := { s.lp with loop := p } } r.scopes
      else { s with cal := { s.cal with run := none }, lp := { s.lp with loop := p } }) =
      { s with free := n, cal := { s.cal with run := none }, edge := { s.edge with base := e }, lp := { s.lp with loop := p } } := by
    split
    · obtain ⟨n, e, h⟩ := syncBeds_parts' { s with cal := { s.cal with run := none }, lp := { s.lp with loop := p } } r.scopes
      exact ⟨n, e, h⟩
    · exact ⟨s.free, s.edge.base, rfl⟩
  obtain ⟨n, e, hsync⟩ := hsync
  rw [hsync]
  split
  · obtain ⟨q, hq⟩ := foldl_resumeClocks (calBeds r.kind r.scopes)
      { s with free := n, cal := { s.cal with run := none }, edge := { s.edge with base := e }, lp := { s.lp with loop := p } }
    exact ⟨n, { s.edge with base := e, pinClock := q }, p, hq, rfl, hloop⟩
  · exact ⟨n, { s.edge with base := e }, p, rfl, rfl, hloop⟩

theorem answerAbort_parts (s : State) (tag : Nat) : ∃ b f l w, answerAbort s tag = { s with mb := b, fw := f, link := l, flt := w } := by
  have h : Only 69680 s (answerAbort s tag) := answerAbort_only rfl only_refl
  generalize answerAbort s tag = t at h
  exact ⟨_, _, _, _, only_eq h⟩

theorem endCal_spec (s : State) (r : CalRun) (status detail state cause steps : Nat) :
    ∃ e, Ended e (endCal s r status detail state cause steps) ∧ e.tag = r.tag ∧ e.status = status ∧ e.detail = detail ∧ e.state = state ∧ e.cause = cause ∧
      e.steps = steps ∧ e.output = 0 ∧ Returned s r (endCal s r status detail state cause steps) := by
  unfold endCal
  dsimp only
  obtain ⟨n, e, p, hrel, hdrift, hloop⟩ := releaseScopes_parts s r
  obtain ⟨b, f, l, w, hans⟩ := answerAbort_parts (releaseScopes s r) r.tag
  rw [hrel] at hans ⊢
  rw [hans]
  generalize hend : (PendingEnd.mk _ _ _ _ _ _ _ _ _ _ _ _ _ : PendingEnd) = x
  refine ⟨x, endWork_ended _ x, by rw [← hend]; rfl, by rw [← hend]; rfl, by rw [← hend]; rfl, by rw [← hend]; rfl, by rw [← hend]; rfl, by rw [← hend]; rfl, by rw [← hend]; rfl, ?_⟩
  obtain ⟨g, h, w', hw⟩ := endWork_parts
    { s with free := n, mb := b, fw := f, cal := { s.cal with run := none }, edge := e, lp := { s.lp with loop := p }, link := l, flt := w } x
  rw [hw]
  refine ⟨rfl, hdrift, fun k hk hfrozen => (hloop k).trans ?_, fun k hk => (hloop k).trans ?_, rfl⟩
  · rw [if_pos hk, if_pos hfrozen]
  · by_cases hmem : k ∈ calLoops s r.kind r.scopes
    · rw [if_pos hmem, if_neg (hk.resolve_left fun h => h hmem)]
    · rw [if_neg hmem]

/-! The figures of a run. -/

theorem keepFigures_parts (s : State) (r : CalRun) (m : CalMeas) :
    ∃ q k, keepFigures s r m = { s with cal := { s.cal with quality := q, measured := k } } := by
  unfold keepFigures
  dsimp only
  split
  · generalize List.range m.refvDev.length = l
    have hkept := foldl_same (F := fun s : State => { s with cal := { s.cal with quality := [], measured := [] } })
      (step := fun s i => (s.modQuality (1024 * r.kind + i) (fun _ =>
        { first := 0, second := (((⟨m.refvDev.getD i 0, 1000⟩ : Frac)).div (f32 r.refv)).round.toNat, rep := 0 })).modMeasured (1024 * r.kind + i) (fun _ => true))
      (fun _ _ => rfl) l s
    generalize l.foldl _ s = u at hkept ⊢
    exact ⟨u.cal.quality, u.cal.measured, congrArg (fun t : State => { t with cal := { t.cal with quality := u.cal.quality, measured := u.cal.measured } }) hkept⟩
  · generalize m.quality = l
    have hkept := foldl_same (F := fun s : State => { s with cal := { s.cal with quality := [], measured := [] } })
      (step := fun s (x : Nat × Nat × Nat) => (s.modQuality (1024 * r.kind + x.1) (fun _ =>
        { first := x.2.1, second := x.2.2, rep := m.repeatMilli })).modMeasured (1024 * r.kind + x.1) (fun _ => true))
      (fun _ _ => rfl) l s
    generalize l.foldl _ s = u at hkept ⊢
    exact ⟨u.cal.quality, u.cal.measured, congrArg (fun t : State => { t with cal := { t.cal with quality := u.cal.quality, measured := u.cal.measured } }) hkept⟩

/-! Patches of the body. -/

theorem patchBody_append (s : State) (l : List (Nat × Byte)) (x : Nat × Byte) : patchBody s (l ++ [x]) = patchBody (patchBody s l) [x] := by
  unfold patchBody
  rw [List.foldl_append]

theorem patchBody_byte (s : State) (l : List (Nat × Byte)) (a : Nat) :
    calByte (patchBody s l) a = ((l.reverse.find? (fun e => decide (e.1 = a))).map (fun e => e.2)).getD (calByte s a) := by
  induction l using List.reverseRecOn with
  | nil => rfl
  | append_singleton l x ih =>
    have hlast : calByte (patchBody (patchBody s l) [x]) a = if a = x.1 then x.2 else calByte (patchBody s l) a := tget_tset ..
    rw [patchBody_append, hlast, ih, List.reverse_append, List.reverse_singleton, List.singleton_append, List.find?_cons]
    by_cases h : a = x.1
    · rw [if_pos h, decide_eq_true h.symm]
      rfl
    · rw [if_neg h, decide_eq_false (Ne.symm h)]

/-- A patch that leaves every address of `p` out. -/
theorem patchBody_byte_out {s : State} {l : List (Nat × Byte)} {a : Nat} (h : ∀ x ∈ l, x.1 ≠ a) : calByte (patchBody s l) a = calByte s a := by
  have hnone : l.reverse.find? (fun e => decide (e.1 = a)) = none := List.find?_eq_none.2 fun x hx => by
    rw [decide_eq_true_eq]
    exact h x (List.mem_reverse.1 hx)
  rw [patchBody_byte, hnone]
  rfl

/-! Tcal and PMcal of a bed. -/

/-- The six bytes of a bed's record: Tcal and PMcal as the sensors and the process monitor read. -/
def edgeBytes (s : State) (b : Nat) : List Byte := toBytes 4 (toF32 ⟨driverSum s b, 32⟩).toNat ++ toBytes 2 (s.pmon (1 + b / 4)).toNat

theorem recordEdge_spec (s : State) (b : Nat) :
    (∃ d, recordEdge s b = { s with cal := { s.cal with body := (recordEdge s b).cal.body }, edge := { s.edge with drift := d } }) ∧
      (∀ k, (recordEdge s b).drift k = if k = b then 0 else s.drift k) ∧
      (∀ i, i < 6 → calByte (recordEdge s b) (656 + 656 * b + i) = (edgeBytes s b).getD i 0) ∧
      ∀ a, a < 656 + 656 * b ∨ 662 + 656 * b ≤ a → calByte (recordEdge s b) a = calByte s a := by
  have hstart : 16 + 656 * b + 640 = 656 + 656 * b := by omega
  have hrec : recordEdge s b = (patchBody s ((List.range 6).map (fun i => (656 + 656 * b + i, (edgeBytes s b).getD i 0)))).modDrift b (fun _ => 0) := by
    unfold recordEdge
    dsimp only
    rw [hstart]
    rfl
  rw [hrec]
  generalize edgeBytes s b = bytes
  refine ⟨⟨_, rfl⟩, fun k => State.modDrift_drift .., fun i hi => ?_, fun a ha => ?_⟩
  · have hbyte : calByte (patchBody s ((List.range 6).map (fun i => (656 + 656 * b + i, bytes.getD i 0)))) (656 + 656 * b + i) = bytes.getD i 0 := by
      rw [patchBody_byte]
      have hrange : (List.range 6).map (fun i => (656 + 656 * b + i, bytes.getD i 0)) =
          [(656 + 656 * b, bytes.getD 0 0), (656 + 656 * b + 1, bytes.getD 1 0), (656 + 656 * b + 2, bytes.getD 2 0), (656 + 656 * b + 3, bytes.getD 3 0),
            (656 + 656 * b + 4, bytes.getD 4 0), (656 + 656 * b + 5, bytes.getD 5 0)] := rfl
      rw [hrange]
      generalize 656 + 656 * b = o
      interval_cases i <;> simp
    exact hbyte
  · have hbyte : calByte (patchBody s ((List.range 6).map (fun i => (656 + 656 * b + i, bytes.getD i 0)))) a = calByte s a := by
      refine patchBody_byte_out fun x hx => ?_
      obtain ⟨i, hi, rfl⟩ := List.mem_map.1 hx
      have := List.mem_range.1 hi
      show 656 + 656 * b + i ≠ a
      omega
    exact hbyte

/-- The beds of `l` record their temperatures and process monitors. -/
theorem foldl_recordEdge (l : List Nat) (s : State) :
    (∃ d, l.foldl recordEdge s = { s with cal := { s.cal with body := (l.foldl recordEdge s).cal.body }, edge := { s.edge with drift := d } }) ∧
      (∀ k, (l.foldl recordEdge s).drift k = if k ∈ l then 0 else s.drift k) ∧
      (∀ b ∈ l, ∀ i, i < 6 → calByte (l.foldl recordEdge s) (656 + 656 * b + i) = (edgeBytes s b).getD i 0) ∧
      ∀ a, (∀ b ∈ l, a < 656 + 656 * b ∨ 662 + 656 * b ≤ a) → calByte (l.foldl recordEdge s) a = calByte s a := by
  induction l using List.reverseRecOn with
  | nil => exact ⟨⟨s.edge.drift, rfl⟩, fun _ => rfl, fun b hb => absurd hb (by simp), fun _ _ => rfl⟩
  | append_singleton l b ih =>
    obtain ⟨⟨d, hd⟩, hdrift, hrec, hkept⟩ := ih
    rw [List.foldl_append, List.foldl_cons, List.foldl_nil]
    generalize l.foldl recordEdge s = u at hd hdrift hrec hkept ⊢
    obtain ⟨⟨d', hd'⟩, hdrift', hrec', hkept'⟩ := recordEdge_spec u b
    have hbytes : ∀ k, edgeBytes u k = edgeBytes s k := fun k => by rw [hd]; rfl
    refine ⟨⟨d', ?_⟩, fun k => ?_, fun k hk i hi => ?_, fun a ha => ?_⟩
    · generalize recordEdge u b = v at hd'
      rw [hd', hd]
    · rw [hdrift' k, hdrift k]
      by_cases hb : k = b
      · subst hb
        rw [if_pos rfl, if_pos (List.mem_append_right _ (List.mem_singleton.2 rfl))]
      · simp only [hb, if_false, List.mem_append, List.mem_singleton, or_false]
    · by_cases hb : k = b
      · subst hb
        rw [hrec' i hi, hbytes]
      · have hl : k ∈ l := (List.mem_append.1 hk).resolve_right (by rw [List.mem_singleton]; exact hb)
        rw [hkept' _ (by omega), hrec k hl i hi]
    · rw [hkept' a (ha b (by simp)), hkept a fun k hk => ha k (List.mem_append_left _ hk)]

end Sys2Proof.Machine
end

section
/-! PROOFS. O54, continued: the end of a calibration run, its judgement, and the obligation. -/

set_option Elab.async false

namespace Sys2Proof.Machine

/-! CAL_RUN. -/

theorem calRun_runs {s : State} {c : Current} {k : Nat} {sc : List Nat} (h : Picked s 0x0B00 c) (hk : k = par c 0) (hsc : sc = scopesOf s k (par32 c 1))
    (hasked : CalAsked c) (hfree : CalScopesFree s c) (htag : tagInUse s c.tag.toNat = false) (hshut : s.sup.shutdown = false) (hrun : s.cal.run = none) :
    ∃ u v t, exec .calRun s = .next t ∧ Answered c 1 0 [] v t ∧ Begun c.tag.toNat 0x0B00 c.ring.toNat 0 u v ∧
      u.cal = { s.cal with run := some { tag := c.tag.toNat, ring := c.ring.toNat, kind := k, scopes := sc, dry := (par c 3).testBit 0, refv := parF c 4, tolPpm := if par c 6 = 0 then 500 else par c 6, aborting := false } } ∧
      (∀ l ∈ calLoops s k sc, (s.loop l).state = .regulating ∨ (s.loop l).state = .stopped ∨ (s.loop l).state = .settling →
        (u.loop l).state = .frozen ∧ (u.loop l).resume = (if (s.loop l).state = .settling then .regulating else (s.loop l).state) ∧
        u.loop l = { s.loop l with state := .frozen, resume := (u.loop l).resume, change := none, changeNext := none, autoGoal := none }) ∧
      (∀ l, l ∉ calLoops s k sc ∨ (s.loop l).state = .cloche ∨ (s.loop l).state = .ganged ∨ (s.loop l).state = .frozen → u.loop l = s.loop l) ∧
      (k ≤ 1 → ∀ b ∈ calBeds k sc, ∀ p, p < 32 → follows u (32 * b + p) = false) ∧ (1 < k → u.edge = s.edge) ∧
      u = { s with cal := u.cal, edge := { s.edge with pinClock := u.edge.pinClock }, lp := { s.lp with loop := u.lp.loop } } := by
  subst hk
  subst hsc
  obtain ⟨v, t, hexec, hans, hbegun⟩ := calRun_starts h hasked hfree htag hshut hrun
  have hwait : NoRangeWait s := by
    rw [NoRangeWait, waitsFor, h.1]
    exact decide_eq_false (by rw [h.2.2]; decide)
  obtain ⟨⟨q, p, hparts⟩, hloop, hclocks, hedge⟩ := calOffline_spec hwait (calRunOf s c)
  generalize calOffline s (calRunOf s c) = u at hbegun hparts hloop hclocks hedge
  refine ⟨u, v, t, hexec, hans, hbegun, by rw [hparts]; rfl, fun l hl hstate => ?_, fun l hl => ?_, fun hk b hb p hp => ?_, hedge, by rw [hparts]⟩
  · have hfrozen : u.loop l = { s.loop l with state := .frozen, resume := if (s.loop l).state = .settling then .regulating else (s.loop l).state, change := none, changeNext := none, autoGoal := none } := by
      refine (hloop l).trans ((if_pos hl).trans (if_neg ?_))
      rcases hstate with hs | hs | hs <;> rw [hs] <;> decide
    exact ⟨by rw [hfrozen], by rw [hfrozen], by rw [hfrozen]⟩
  · rw [hloop l]
    by_cases hmem : l ∈ calLoops s (calRunOf s c).kind (calRunOf s c).scopes
    · rw [if_pos hmem, frozenOf, if_pos (hl.resolve_left fun h => h hmem)]
    · rw [if_neg hmem]
  · refine hclocks hk (32 * b + p) ?_
    rw [show (32 * b + p) / 32 = b from by omega]
    exact hb

/-- The checks of CAL_RUN before those on what its scopes are in use for. -/
theorem calRun_refuses {s : State} {c : Current} {st d : Nat} (h : Picked s 0x0B00 c) (hbad : firstBad
      ([needParam (decide (par c 0 ≤ 6)) 0,
       needParam (decide (par32 c 1 < 2 ^ calScopes (par c 0)) && (decide (par32 c 1 ≠ 0) || decide (calScopes (par c 0) = 0))) 1,
       needBits c 3 1,
       needParam (if par c 0 = 6 then within (parF c 4) (Frac.ofInt 2) (Frac.ofInt 5) else decide (par32 c 4 = 0)) 4,
       needParam (if par c 0 = 6 then decide (par c 6 = 0) || (decide (50 ≤ par c 6) && decide (par c 6 ≤ 10000)) else decide (par c 6 = 0)) 6,
       needTag s c.tag.toNat] ++
      ([if par c 0 ≤ 2 then needRef s else none, if s.sup.shutdown then some (0x14, 0xFF) else none,
       if par c 0 ≤ 3 then firstOf (calBeds (par c 0) (scopesOf s (par c 0) (par32 c 1))) (fun b => needState (!bedBusy s b) 1) else none,
       needActive s (calBeds (par c 0) (scopesOf s (par c 0) (par32 c 1))),
       if par c 0 = 2 then firstOf (scopesOf s (par c 0) (par32 c 1)) (fun u => needState ((s.tiu u).run.isNone) 25) else none] ++
      [needBusy s.cal.run.isNone 0xFE])) = some (st, d)) :
    ∃ t, exec .calRun s = .next t ∧ Answered c st d [] s t :=
  picked_bad (k := fun _ => _) h rfl rfl hbad

theorem calRun_wrongKind {s : State} {c : Current} (h : Picked s 0x0B00 c) (hk : 6 < par c 0) : ∃ t, exec .calRun s = .next t ∧ Answered c 0x12 0 [] s t := by
  refine calRun_refuses h ?_
  rw [needParam_of_not 0 (decide_eq_false (Nat.not_le.2 hk))]
  rfl

theorem calRun_wrongMask {s : State} {c : Current} (h : Picked s 0x0B00 c) (hk : par c 0 ≤ 6)
    (hmask : 2 ^ calScopes (par c 0) ≤ par32 c 1 ∨ (calScopes (par c 0) ≠ 0 ∧ par32 c 1 = 0)) : ∃ t, exec .calRun s = .next t ∧ Answered c 0x12 1 [] s t := by
  have hbad : (decide (par32 c 1 < 2 ^ calScopes (par c 0)) && (decide (par32 c 1 ≠ 0) || decide (calScopes (par c 0) = 0))) = false := by
    rcases hmask with hbig | ⟨hsome, hnone⟩
    · rw [decide_eq_false (by omega), Bool.false_and]
    · rw [decide_eq_false (not_not_intro hnone), decide_eq_false hsome, Bool.or_self, Bool.and_false]
  refine calRun_refuses h ?_
  rw [needParam_of 0 (decide_eq_true hk), needParam_of_not 1 hbad]
  rfl

theorem calRun_inShutdown {s : State} {c : Current} (h : Picked s 0x0B00 c) (hasked : CalAsked c) (htag : tagInUse s c.tag.toNat = false)
    (href : par c 0 ≤ 2 → s.clk.refPresent = true ∧ s.clk.holdover = false) (hshut : s.sup.shutdown = true) :
    ∃ t, exec .calRun s = .next t ∧ Answered c 0x14 0xFF [] s t := by
  have hpass : (if par c 0 ≤ 2 then needRef s else none) = none := by
    split
    · next hk => exact needRef_of (href hk).1 (href hk).2
    · rfl
  refine calRun_refuses h ?_
  rw [firstBad_append (calRun_asked hasked htag), hpass, hshut]
  rfl

theorem calRun_running {s : State} {c : Current} (h : Picked s 0x0B00 c) (hasked : CalAsked c) (hfree : CalScopesFree s c) (htag : tagInUse s c.tag.toNat = false)
    (hshut : s.sup.shutdown = false) (hrun : s.cal.run ≠ none) : ∃ t, exec .calRun s = .next t ∧ Answered c 0x10 0xFE [] s t := by
  have hsome : s.cal.run.isNone = false := by rwa [Bool.eq_false_iff, ne_eq, Option.isNone_iff_eq_none]
  refine calRun_refuses h ?_
  rw [firstBad_append (calRun_asked hasked htag), firstBad_append (calRun_free hfree hshut), hsome]
  rfl

/-! CAL_RUN_END. -/

theorem calRunEnd_noRun (m : CalMeas) {s : State} (h : s.cal.run = none) : exec (.calRunEnd m) s = .next s := by
  rw [show exec (.calRunEnd m) s = execCalRunEnd m s from rfl, execCalRunEnd, h]

theorem calRunEnd_aborted (m : CalMeas) {s : State} {r : CalRun} (h : s.cal.run = some r) (ha : r.aborting = true) :
    ∃ t e, exec (.calRunEnd m) s = .next t ∧ Ended e t ∧ e.tag = r.tag ∧ e.status = 2 ∧ e.state = 2 ∧ e.cause = 1 ∧ e.steps ≤ calCount s r ∧ e.detail = e.steps ∧
      t.cal = { s.cal with run := none } ∧ (∀ b, t.drift b = s.drift b) ∧
      (∀ l ∈ calLoops s r.kind r.scopes, (s.loop l).state = .frozen → t.loop l = { s.loop l with state := (s.loop l).resume }) ∧
      (∀ l, l ∉ calLoops s r.kind r.scopes ∨ (s.loop l).state ≠ .frozen → t.loop l = s.loop l) ∧
      t = { s with free := t.free, mb := t.mb, fw := t.fw, edge := t.edge, lp := { s.lp with loop := t.lp.loop }, harv := t.harv, link := t.link, cal := t.cal, flt := t.flt } := by
  have hexec : exec (.calRunEnd m) s = .next (endCal s.takeFree r 2 (s.freeNat % (calCount s r + 1)) 2 1 (s.freeNat % (calCount s r + 1))) := by
    rw [show exec (.calRunEnd m) s = execCalRunEnd m s from rfl, execCalRunEnd, h]
    exact congrArg Host.Outcome.next (if_pos ha)
  have hsteps : s.freeNat % (calCount s r + 1) ≤ calCount s r := Nat.le_of_lt_succ (Nat.mod_lt _ (Nat.succ_pos _))
  generalize s.freeNat % (calCount s r + 1) = n at hexec hsteps
  obtain ⟨e, hend, htag, hstatus, hdetail, hstate, hcause, hcount, -, hcal, hdrift, hfrozen, hothers, hrest⟩ := endCal_spec s.takeFree r 2 n 2 1 n
  generalize endCal s.takeFree r 2 n 2 1 n = t at hexec hend hcal hdrift hfrozen hothers hrest
  exact ⟨t, e, hexec, hend, htag, hstatus, hstate, hcause, hcount ▸ hsteps, hdetail.trans hcount.symm, hcal,
    fun b => congrArg (fun d => tget (fun _ => (0 : Int)) d b) hdrift, hfrozen, hothers, hrest⟩

theorem measuredFigures_of_kept {r : CalRun} {m : CalMeas} {n : Nat} (h : measuredFigures r m = some n) : rejectReason r m = some n := by
  rw [rejectReason, h]

/-- The state that a run which was not aborted is judged in. -/
def judgedState (s : State) (r : CalRun) (m : CalMeas) : State := if (measuredFigures r m).isNone then keepFigures s r m else s

theorem judgedState_parts (s : State) (r : CalRun) (m : CalMeas) : ∃ q k, judgedState s r m = { s with cal := { s.cal with quality := q, measured := k } } := by
  unfold judgedState
  split
  · exact keepFigures_parts s r m
  · exact ⟨s.cal.quality, s.cal.measured, rfl⟩

theorem calRunEnd_rejected {m : CalMeas} {s : State} {r : CalRun} {n : Nat} (h : s.cal.run = some r) (ha : r.aborting = false) (hn : rejectReason r m = some n) :
    exec (.calRunEnd m) s = .next (endCal (judgedState s r m) r 0x30 n 1 0 (calCount s r)) := by
  obtain ⟨q, k, hparts⟩ := judgedState_parts s r m
  have hcount : calCount (judgedState s r m) r = calCount s r := by rw [hparts]; rfl
  rw [show exec (.calRunEnd m) s = execCalRunEnd m s from rfl, execCalRunEnd, h]
  dsimp only
  rw [if_neg (by rw [ha]; decide), hn, ← hcount]
  rfl

theorem calRunEnd_passed {m : CalMeas} {s : State} {r : CalRun} (h : s.cal.run = some r) (ha : r.aborting = false) (hn : rejectReason r m = none) :
    exec (.calRunEnd m) s = .next (endCal (if r.dry then judgedState s r m else applyCal (judgedState s r m) r m) r 0 0 1 0 (calCount s r)) := by
  obtain ⟨q, k, hparts⟩ := judgedState_parts s r m
  have hcount : calCount (judgedState s r m) r = calCount s r := by rw [hparts]; rfl
  rw [show exec (.calRunEnd m) s = execCalRunEnd m s from rfl, execCalRunEnd, h]
  dsimp only
  rw [if_neg (by rw [ha]; decide), hn, ← hcount]
  rfl

/-- A run that changes no coefficient: only its figures are kept. -/
theorem endCal_unchanged {s : State} {r : CalRun} {q : Tab Quality} {k : Tab Bool} (status detail steps : Nat) :
    ∃ t e, endCal { s with cal := { s.cal with quality := q, measured := k } } r status detail 1 0 steps = t ∧ Ended e t ∧ e.tag = r.tag ∧ e.status = status ∧ e.detail = detail ∧ e.state = 1 ∧
      e.steps = steps ∧ e.output = 0 ∧
      t.cal = { s.cal with run := none, quality := t.cal.quality, measured := t.cal.measured } ∧ (∀ b, t.drift b = s.drift b) ∧
      (∀ l ∈ calLoops s r.kind r.scopes, (s.loop l).state = .frozen → t.loop l = { s.loop l with state := (s.loop l).resume }) ∧
      (∀ l, l ∉ calLoops s r.kind r.scopes ∨ (s.loop l).state ≠ .frozen → t.loop l = s.loop l) ∧
      t = { s with free := t.free, mb := t.mb, fw := t.fw, edge := t.edge, lp := { s.lp with loop := t.lp.loop }, harv := t.harv, link := t.link, cal := t.cal, flt := t.flt } := by
  obtain ⟨e, hend, htag, hstatus, hdetail, hstate, -, hcount, hout, hcal, hdrift, hfrozen, hothers, hrest⟩ :=
    endCal_spec { s with cal := { s.cal with quality := q, measured := k } } r status detail 1 0 steps
  generalize endCal { s with cal := { s.cal with quality := q, measured := k } } r status detail 1 0 steps = t at hend hcal hdrift hfrozen hothers hrest
  exact ⟨t, e, rfl, hend, htag, hstatus, hdetail, hstate, hcount, hout, by rw [hcal],
    fun b => congrArg (fun d => tget (fun _ => (0 : Int)) d b) hdrift, hfrozen, hothers, hrest⟩

theorem applyCal_spec (s : State) (r : CalRun) (m : CalMeas) (hk : r.kind ≤ 5) :
    ∃ y d, applyCal s r m = { s with cal := { s.cal with body := y, modified := true }, edge := { s.edge with drift := d } } ∧
      (∀ a, (∀ p ∈ calParts r.kind r.scopes, a < p.1 ∨ p.1 + p.2 ≤ a) → calByte (applyCal s r m) a = calByte s a) ∧
      (∀ a, (∃ p ∈ calParts r.kind r.scopes, p.1 ≤ a ∧ a < p.1 + p.2) → (r.kind = 0 → ∀ b ∈ r.scopes, a < 656 + 656 * b ∨ 662 + 656 * b ≤ a) →
        calByte (applyCal s r m) a = ((m.patch.reverse.find? (fun e => decide (e.1 = a))).map (fun e => e.2)).getD (calByte s a)) ∧
      (r.kind = 0 → ∀ b ∈ r.scopes, (applyCal s r m).drift b = 0 ∧ ∀ i, i < 6 → calByte (applyCal s r m) (656 + 656 * b + i) = (edgeBytes s b).getD i 0) ∧
      ∀ b, r.kind ≠ 0 ∨ b ∉ r.scopes → (applyCal s r m).drift b = s.drift b := by
  have hin : ∀ {a : Nat}, (∃ p ∈ calParts r.kind r.scopes, p.1 ≤ a ∧ a < p.1 + p.2) →
      calByte (patchBody s (m.patch.filter (fun e => (calParts r.kind r.scopes).any (fun p => decide (p.1 ≤ e.1) && decide (e.1 < p.1 + p.2))))) a =
        ((m.patch.reverse.find? (fun e => decide (e.1 = a))).map (fun e => e.2)).getD (calByte s a) := by
    rintro a ⟨p, hp, hle, hlt⟩
    rw [patchBody_byte, ← List.filter_reverse, List.find?_filter]
    refine congrArg (fun o : Option (Nat × Byte) => (o.map (fun e => e.2)).getD (calByte s a)) (congrArg (fun f => List.find? f _) (funext fun x => ?_))
    by_cases hx : x.1 = a
    · have hany : (calParts r.kind r.scopes).any (fun p => decide (p.1 ≤ x.1) && decide (x.1 < p.1 + p.2)) = true :=
        List.any_eq_true.2 ⟨p, hp, by rw [hx, decide_eq_true hle, decide_eq_true hlt]; rfl⟩
      exact (decide_eq_true (And.intro hany (decide_eq_true hx))).trans (decide_eq_true hx).symm
    · simp only [hx, decide_false, Bool.false_eq_true, and_false]
  have hout : ∀ {a : Nat}, (∀ p ∈ calParts r.kind r.scopes, a < p.1 ∨ p.1 + p.2 ≤ a) →
      calByte (patchBody s (m.patch.filter (fun e => (calParts r.kind r.scopes).any (fun p => decide (p.1 ≤ e.1) && decide (e.1 < p.1 + p.2))))) a = calByte s a := by
    intro a ha
    refine patchBody_byte_out fun x hx hxa => ?_
    obtain ⟨p, hp, hcond⟩ := List.any_eq_true.1 (List.mem_filter.1 hx).2
    rw [Bool.and_eq_true, decide_eq_true_eq, decide_eq_true_eq] at hcond
    have := ha p hp
    omega
  unfold applyCal
  dsimp only
  rw [if_neg (show r.kind ≠ 6 by omega)]
  generalize hv : patchBody s _ = v at hin hout ⊢
  obtain ⟨y, hy⟩ : ∃ y, v = { s with cal := { s.cal with body := y } } := ⟨_, hv.symm⟩
  by_cases h0 : r.kind = 0
  · rw [if_pos h0]
    obtain ⟨⟨d, hd⟩, hdrift, hrec, hkept⟩ := foldl_recordEdge r.scopes v
    generalize r.scopes.foldl recordEdge v = u at hd hdrift hrec hkept
    have hpart : ∀ b ∈ r.scopes, (16 + 656 * b, 656) ∈ calParts r.kind r.scopes := fun b hb => by
      rw [calParts, if_pos h0]
      exact List.mem_map.2 ⟨b, hb, rfl⟩
    have hdr : ∀ b, v.drift b = s.drift b := fun b => by rw [hy]; rfl
    have hbytes : ∀ b, edgeBytes v b = edgeBytes s b := fun b => by rw [hy]; rfl
    refine ⟨u.cal.body, d, ?_, fun a ha => ?_, fun a ha hbed => ?_, fun _ b hb => ⟨?_, fun i hi => ?_⟩, fun b hb => ?_⟩
    · rw [hd, hy]
    · refine (hkept a fun b hb => ?_).trans (hout ha)
      have : a < 16 + 656 * b ∨ 16 + 656 * b + 656 ≤ a := ha _ (hpart b hb)
      omega
    · exact (hkept a (hbed h0)).trans (hin ha)
    · exact (hdrift b).trans (if_pos hb)
    · exact (hrec b hb i hi).trans (by rw [hbytes])
    · exact (hdrift b).trans ((if_neg (hb.resolve_left fun h => h h0)).trans (hdr b))
  · rw [if_neg h0]
    refine ⟨y, s.edge.drift, by rw [hy], fun a ha => hout ha, fun a ha _ => hin ha, fun h => absurd h h0, fun b _ => ?_⟩
    rw [hy]
    rfl

/-! The judgements. -/

theorem sum_sq_sub (l : List Nat) (n : Int) :
    (l.map (fun x : Nat => (16 * (x : Int) - n) ^ 2)).sum = 256 * ((l.map (fun c => c * c)).sum : Nat) - 32 * n * (l.sum : Nat) + l.length * n ^ 2 := by
  induction l with
  | nil => simp
  | cons x l ih =>
    simp only [List.map_cons, List.sum_cons, List.length_cons, ih]
    push_cast
    ring

theorem chiFails_iff {l : List Nat} (h : l.length = 16) :
    chiFails l = true ↔ 377 * 16 * (l.sum : Int) < 10 * (l.map (fun x => (16 * (x : Int) - (l.sum : Int)) ^ 2)).sum := by
  have hsum := sum_sq_sub l (l.sum : Int)
  have hcast : l.map (fun x => (16 * (x : Int) - (l.sum : Int)) ^ 2) = l.map (fun x : Nat => (16 * (x : Int) - (l.sum : Int)) ^ 2) := by
    simp only [bind_pure_comp, List.map_eq_map, List.map_map]
    rfl
  rw [hcast]
  have hnonneg : 0 ≤ (l.map (fun x : Nat => (16 * (x : Int) - (l.sum : Int)) ^ 2)).sum :=
    List.sum_nonneg fun y hy => by
      obtain ⟨x, -, rfl⟩ := List.mem_map.1 hy
      exact sq_nonneg _
  have hchi : chiFails l = true ↔ 377 * l.sum < 10 * (16 * (l.map (fun c => c * c)).sum - l.sum * l.sum) := by simp [chiFails]
  rw [hchi]
  rw [h] at hsum
  generalize (l.map (fun x : Nat => (16 * (x : Int) - (l.sum : Int)) ^ 2)).sum = y at hsum hnonneg ⊢
  generalize (l.map (fun c => c * c)).sum = q at hsum ⊢
  generalize l.sum = n at hsum ⊢
  have hy : y = 16 * (16 * (q : Int) - ((n * n : Nat) : Int)) := by
    rw [hsum]
    push_cast
    ring
  generalize n * n = k at hy ⊢
  omega

theorem rejectReason_refv {r : CalRun} {m : CalMeas} (h : r.kind = 6) :
    rejectReason r m = if 16 ≤ m.refvDev.length ∧ ∀ d ∈ m.refvDev, refvOk r d = true then none else some 6 := by
  have hfigures : measuredFigures r m = none := by simp [measuredFigures, h]
  rw [rejectReason, hfigures]
  simp only [h, if_true, Bool.and_eq_true, decide_eq_true_eq, List.all_eq_true]

theorem rejectReason_refv_iff {r : CalRun} {m : CalMeas} (h : r.kind = 6) :
    (rejectReason r m = none ↔ 16 ≤ m.refvDev.length ∧ ∀ d ∈ m.refvDev, refvOk r d = true) ∧ (rejectReason r m ≠ none → rejectReason r m = some 6) := by
  rw [rejectReason_refv h]
  split
  · next hpass => exact ⟨⟨fun _ => hpass, fun _ => rfl⟩, fun hne => absurd rfl hne⟩
  · next hfail => exact ⟨⟨fun he => absurd he (by decide), fun hpass => absurd hpass hfail⟩, fun _ => rfl⟩

/-! The clauses on an end. -/

theorem calRunEnd_rejects (m : CalMeas) {s : State} {r : CalRun} {n : Nat} (h : s.cal.run = some r) (ha : r.aborting = false) (hn : rejectReason r m = some n) :
    ∃ t e, exec (.calRunEnd m) s = .next t ∧ Ended e t ∧ e.tag = r.tag ∧ e.status = 0x30 ∧ e.state = 1 ∧ e.detail = n ∧ e.steps = calCount s r ∧ e.output = 0 ∧
      t.cal = { s.cal with run := none, quality := t.cal.quality, measured := t.cal.measured } ∧ (∀ b, t.drift b = s.drift b) ∧
      (∀ l ∈ calLoops s r.kind r.scopes, (s.loop l).state = .frozen → t.loop l = { s.loop l with state := (s.loop l).resume }) ∧
      (∀ l, l ∉ calLoops s r.kind r.scopes ∨ (s.loop l).state ≠ .frozen → t.loop l = s.loop l) ∧
      t = { s with free := t.free, mb := t.mb, fw := t.fw, edge := t.edge, lp := { s.lp with loop := t.lp.loop }, harv := t.harv, link := t.link, cal := t.cal, flt := t.flt } := by
  obtain ⟨q, k, hparts⟩ := judgedState_parts s r m
  obtain ⟨t, e, ht, hend, htag, hstatus, hdetail, hstate, hrest⟩ := endCal_unchanged (s := s) (r := r) (q := q) (k := k) 0x30 n (calCount s r)
  exact ⟨t, e, by rw [calRunEnd_rejected h ha hn, hparts, ht], hend, htag, hstatus, hstate, hdetail, hrest⟩

theorem calRunEnd_checks (m : CalMeas) {s : State} {r : CalRun} (h : s.cal.run = some r) (ha : r.aborting = false) (hn : rejectReason r m = none)
    (hdry : r.dry = true ∨ r.kind = 6) :
    ∃ t e, exec (.calRunEnd m) s = .next t ∧ Ended e t ∧ e.tag = r.tag ∧ e.status = 0 ∧ e.state = 1 ∧ e.steps = calCount s r ∧ e.output = 0 ∧
      t.cal = { s.cal with run := none, quality := t.cal.quality, measured := t.cal.measured } ∧ (∀ b, t.drift b = s.drift b) ∧
      (∀ l ∈ calLoops s r.kind r.scopes, (s.loop l).state = .frozen → t.loop l = { s.loop l with state := (s.loop l).resume }) ∧
      (∀ l, l ∉ calLoops s r.kind r.scopes ∨ (s.loop l).state ≠ .frozen → t.loop l = s.loop l) ∧
      t = { s with free := t.free, mb := t.mb, fw := t.fw, edge := t.edge, lp := { s.lp with loop := t.lp.loop }, harv := t.harv, link := t.link, cal := t.cal, flt := t.flt } := by
  obtain ⟨q, k, hparts⟩ := judgedState_parts s r m
  have hsame : (if r.dry then judgedState s r m else applyCal (judgedState s r m) r m) = judgedState s r m := by
    split
    · rfl
    · next hno =>
      have h6 : r.kind = 6 := hdry.resolve_left hno
      have hparts0 : calParts r.kind r.scopes = [] := by rw [h6]; rfl
      have hempty : patchBody (judgedState s r m) [] = judgedState s r m := rfl
      unfold applyCal
      dsimp only
      rw [hparts0, List.filter_eq_nil_iff.2 (fun x _ => by simp), hempty, if_pos h6]
      exact if_neg (by rw [h6]; decide)
  obtain ⟨t, e, ht, hend, htag, hstatus, -, hstate, hrest⟩ := endCal_unchanged (s := s) (r := r) (q := q) (k := k) 0 0 (calCount s r)
  exact ⟨t, e, by rw [calRunEnd_passed h ha hn, hsame, hparts, ht], hend, htag, hstatus, hstate, hrest⟩

theorem calRunEnd_accepts (m : CalMeas) {s : State} {r : CalRun} (h : s.cal.run = some r) (ha : r.aborting = false) (hn : rejectReason r m = none)
    (hdry : r.dry = false) (hk : r.kind ≤ 5) :
    ∃ t e, exec (.calRunEnd m) s = .next t ∧ Ended e t ∧ e.tag = r.tag ∧ e.status = 0 ∧ e.state = 1 ∧ e.steps = calCount s r ∧ e.output = 0 ∧
      t.cal = { s.cal with run := none, body := t.cal.body, modified := true, quality := t.cal.quality, measured := t.cal.measured } ∧
      (∀ a, (∀ p ∈ calParts r.kind r.scopes, a < p.1 ∨ p.1 + p.2 ≤ a) → calByte t a = calByte s a) ∧
      (∀ a, (∃ p ∈ calParts r.kind r.scopes, p.1 ≤ a ∧ a < p.1 + p.2) → (r.kind = 0 → ∀ b ∈ r.scopes, a < 656 + 656 * b ∨ 662 + 656 * b ≤ a) →
        calByte t a = ((m.patch.reverse.find? (fun e => decide (e.1 = a))).map (fun e => e.2)).getD (calByte s a)) ∧
      (r.kind = 0 → ∀ b ∈ r.scopes, t.drift b = 0 ∧ calNum t (656 + 656 * b) 4 = (toF32 ⟨driverSum s b, 32⟩).toNat ∧ calNum t (660 + 656 * b) 2 = (s.pmon (1 + b / 4)).toNat) ∧
      (∀ b, r.kind ≠ 0 ∨ b ∉ r.scopes → t.drift b = s.drift b) ∧
      (∀ l ∈ calLoops s r.kind r.scopes, (s.loop l).state = .frozen → t.loop l = { s.loop l with state := (s.loop l).resume }) ∧
      (∀ l, l ∉ calLoops s r.kind r.scopes ∨ (s.loop l).state ≠ .frozen → t.loop l = s.loop l) ∧
      t = { s with free := t.free, mb := t.mb, fw := t.fw, edge := t.edge, lp := { s.lp with loop := t.lp.loop }, harv := t.harv, link := t.link, cal := t.cal, flt := t.flt } := by
  obtain ⟨q, k, hparts⟩ := judgedState_parts s r m
  obtain ⟨y, d, hv, hout, hin, hbed, hdrift⟩ := applyCal_spec (judgedState s r m) r m hk
  have hbyte : ∀ a, calByte (judgedState s r m) a = calByte s a := fun a => by rw [hparts]; rfl
  have hbytes : ∀ b, edgeBytes (judgedState s r m) b = edgeBytes s b := fun b => by rw [hparts]; rfl
  have hdr : ∀ b, (judgedState s r m).drift b = s.drift b := fun b => by rw [hparts]; rfl
  have hexec := calRunEnd_passed h ha hn
  rw [if_neg (by rw [hdry]; decide)] at hexec
  generalize applyCal (judgedState s r m) r m = v at hexec hv hout hin hbed hdrift
  rw [hparts] at hv
  obtain ⟨e, hend, htag, hstatus, -, hstate, -, hcount, houtput, hcal, hd, hfrozen, hothers, hrest⟩ := endCal_spec v r 0 0 1 0 (calCount s r)
  generalize endCal v r 0 0 1 0 (calCount s r) = t at hexec hend hcal hd hfrozen hothers hrest
  have hcb : ∀ a, calByte t a = calByte v a := fun a => by rw [calByte, hcal]; rfl
  have htd : ∀ b, t.drift b = v.drift b := fun b => congrArg (fun d => tget (fun _ => (0 : Int)) d b) hd
  refine ⟨t, e, hexec, hend, htag, hstatus, hstate, hcount, houtput, ?_, fun a hp => ?_, fun a hp hb => ?_, fun h0 b hb => ⟨?_, ?_, ?_⟩, fun b hb => ?_, ?_, ?_, ?_⟩
  · rw [hcal, hv]
  · rw [hcb, hout a hp, hbyte]
  · rw [hcb, hin a hp hb, hbyte]
  · rw [htd, (hbed h0 b hb).1]
  · have hbytes4 : (List.range 4).map (fun i => calByte t (656 + 656 * b + i)) = toBytes 4 (toF32 ⟨driverSum s b, 32⟩).toNat := by
      refine (List.map_congr_left (g := fun i => (edgeBytes s b).getD i 0) fun i hi => ?_).trans ?_
      · rw [hcb, (hbed h0 b hb).2 i (by have := List.mem_range.1 hi; omega), hbytes]
      · rfl
    rw [calNum, hbytes4, ofBytes_toBytes, mod_bytes4 (toF32 ⟨driverSum s b, 32⟩).isLt]
  · have hbytes2 : (List.range 2).map (fun i => calByte t (660 + 656 * b + i)) = toBytes 2 (s.pmon (1 + b / 4)).toNat := by
      refine (List.map_congr_left (g := fun i => (edgeBytes s b).getD (4 + i) 0) fun i hi => ?_).trans ?_
      · rw [show 660 + 656 * b + i = 656 + 656 * b + (4 + i) from by omega, hcb, (hbed h0 b hb).2 (4 + i) (by have := List.mem_range.1 hi; omega), hbytes]
      · rfl
    rw [calNum, hbytes2, ofBytes_toBytes]
    exact Nat.mod_eq_of_lt (lt_of_lt_of_eq (s.pmon (1 + b / 4)).isLt (by norm_num))
  · rw [htd, hdrift b hb, hdr]
  · rw [hv] at hfrozen
    exact hfrozen
  · rw [hv] at hothers
    exact hothers
  · rw [hv] at hrest
    exact hrest

/-- Settles O54: a run that starts holds its scopes; a measurement that passes replaces the coefficients of its scopes alone, and
any end gives the loops back as they were. -/
theorem calibrationRuns : Obligations.CalibrationRuns := by
  refine ⟨?_, ?_, ?_, ?_, ?_, ?_, ?_, ?_, ?_, ?_, ?_, ?_⟩
  · exact fun _ _ _ _ h hk hsc hasked hfree htag hshut hrun => calRun_runs h hk hsc hasked hfree htag hshut hrun
  · exact fun _ _ h hk => calRun_wrongKind h hk
  · exact fun _ _ h hk hmask => calRun_wrongMask h hk hmask
  · exact fun _ _ h hasked htag href hshut => calRun_inShutdown h hasked htag href hshut
  · exact fun _ _ h hasked hfree htag hshut hrun => calRun_running h hasked hfree htag hshut hrun
  · exact fun m _ h => calRunEnd_noRun m h
  · exact fun m _ _ h ha => calRunEnd_aborted m h ha
  · exact fun m _ _ _ h ha hn => calRunEnd_rejects m h ha hn
  · exact fun m _ _ h ha hn hdry => calRunEnd_checks m h ha hn hdry
  · exact fun m _ _ h ha hn hdry hk => calRunEnd_accepts m h ha hn hdry hk
  · exact fun _ h => chiFails_iff h
  · exact fun _ _ h => rejectReason_refv_iff h

end Sys2Proof.Machine
end

section
/-! PROOFS. O19: firmware update. The effect of flash operations on the flash's bytes, and the obligation. -/

set_option Elab.async false

namespace Sys2Proof.Machine

/-! The flash's bytes. -/

theorem programFlash_spec (l : List Byte) (s : State) (a : Nat) :
    (∃ f, programFlash s a l = { s with ser := { s.ser with flash := f } }) ∧
      (∀ k, (k < a ∨ a + l.length ≤ k) → (programFlash s a l).flashByte k = s.flashByte k) ∧
      ∀ i, i < l.length → (programFlash s a l).flashByte (a + i) = s.flashByte (a + i) &&& l.getD i 0 := by
  induction l generalizing s a with
  | nil => exact ⟨⟨s.ser.flash, rfl⟩, fun _ _ => rfl, fun i hi => absurd hi (by simp)⟩
  | cons x l ih =>
    obtain ⟨⟨f, hf⟩, hout, hin⟩ := ih (s.modFlashByte a (fun o => o &&& x)) (a + 1)
    have hfirst : ∀ k, (s.modFlashByte a (fun o => o &&& x)).flashByte k = if k = a then s.flashByte a &&& x else s.flashByte k :=
      fun k => State.modFlashByte_flashByte ..
    rw [programFlash]
    refine ⟨⟨f, hf⟩, fun k hk => ?_, fun i hi => ?_⟩
    · rw [List.length_cons] at hk
      rw [hout k (by omega), hfirst, if_neg (by omega)]
    · cases i with
      | zero =>
        rw [show a + 0 = a from rfl, hout a (.inl (Nat.lt_succ_self a)), hfirst, if_pos rfl]
        rfl
      | succ i =>
        rw [List.length_cons] at hi
        rw [show a + (i + 1) = a + 1 + i from by omega, hin i (by omega), hfirst, if_neg (by omega), List.getD_cons_succ]

theorem flashEffect_parts (s : State) (op : FlashOp) : ∃ f, flashEffect s op = { s with ser := { s.ser with flash := f } } := by
  cases op with
  | erase a => exact ⟨_, rfl⟩
  | program a l => exact (programFlash_spec l s a).1

theorem foldl_flashEffect_parts (l : List FlashOp) (s : State) : ∃ f, l.foldl flashEffect s = { s with ser := { s.ser with flash := f } } := by
  induction l generalizing s with
  | nil => exact ⟨s.ser.flash, rfl⟩
  | cons op l ih =>
    obtain ⟨f, hf⟩ := flashEffect_parts s op
    rw [List.foldl_cons, hf]
    exact ih { s with ser := { s.ser with flash := f } }

/-- The sectors `a + 4096 * i`, `i` in `l`, are erased, and nothing else. -/
theorem foldl_erase_flashByte (a : Nat) (l : List Nat) (s : State) (k : Nat) :
    ((l.map (fun i => FlashOp.erase (a + 4096 * i))).foldl flashEffect s).flashByte k =
      if ∃ i ∈ l, a + 4096 * i ≤ k ∧ k < a + 4096 * i + 4096 then 0xFF else s.flashByte k := by
  induction l generalizing s with
  | nil => simp
  | cons i l ih =>
    have hone : (flashEffect s (.erase (a + 4096 * i))).flashByte k = if a + 4096 * i ≤ k ∧ k < a + 4096 * i + 4096 then 0xFF else s.flashByte k := tget_terase ..
    rw [List.map_cons, List.foldl_cons, ih, hone]
    simp only [List.mem_cons, exists_eq_or_imp]
    by_cases hi : a + 4096 * i ≤ k ∧ k < a + 4096 * i + 4096
    · rw [if_pos hi, ite_self, if_pos (.inl hi)]
    · simp only [hi, if_false, false_or]

theorem erasedSlot_flashByte (b : Bool) (s : State) :
    (∀ k, k < 0x800000 → ((slotSectors b).foldl flashEffect s).flashByte (flashSlot b + k) = 0xFF) ∧
      ∀ k, k < flashSlot b ∨ flashSlot b + 0x800000 ≤ k → ((slotSectors b).foldl flashEffect s).flashByte k = s.flashByte k := by
  generalize hl : List.range 2048 = l
  have hmem : ∀ i, i ∈ l ↔ i < 2048 := fun i => by rw [← hl, List.mem_range]
  have hsec : slotSectors b = l.map (fun i => FlashOp.erase (flashSlot b + 4096 * i)) := by rw [← hl]; rfl
  rw [hsec]
  clear hsec hl
  generalize flashSlot b = a
  refine ⟨fun k hk => ?_, fun k hk => ?_⟩
  · rw [foldl_erase_flashByte, if_pos ⟨k / 4096, (hmem _).2 (by omega), by omega⟩]
  · rw [foldl_erase_flashByte, if_neg]
    rintro ⟨i, hi, hle, hlt⟩
    have := (hmem i).1 hi
    omega

/-! SP0 after an operation. -/

theorem xipServe_parts (s : State) (o : Nat) :
    ∃ l d w b q, xipServe s o = { s with ser := { s.ser with xipLines := l, xipData := d, xipWait := w }, flt := { s.flt with block := b, waiting := q } } := by
  unfold xipServe
  dsimp only
  split
  · obtain ⟨b, q, h⟩ := raise_parts { s with ser := { s.ser with xipData := List.replicate 64 0, xipWait := none } } 0x18 1 (o % 65536) 0
    exact ⟨_, _, _, b, q, h⟩
  · exact ⟨_, _, _, s.flt.block, s.flt.waiting, rfl⟩

theorem resumeXip_parts (s : State) :
    ∃ l d w b q, resumeXip s = { s with ser := { s.ser with xipLines := l, xipData := d, xipWait := w }, flt := { s.flt with block := b, waiting := q } } := by
  unfold resumeXip
  split
  · split
    · exact ⟨s.ser.xipLines, s.ser.xipData, s.ser.xipWait, s.flt.block, s.flt.waiting, rfl⟩
    · exact xipServe_parts s _
  · exact ⟨s.ser.xipLines, s.ser.xipData, s.ser.xipWait, s.flt.block, s.flt.waiting, rfl⟩

theorem resumeXip_idle {s : State} (h : s.ser.xipWait = none) : resumeXip s = s := by rw [resumeXip, h]

/-! Checks before a BAD_STATE whose DETAIL is free. -/

theorem checkedOpen_pass {s : State} {params : List (Option Bad)} {ok : Bool} (k : State → State) (h : ∀ x ∈ params, x = none) (hok : ok = true) :
    checkedOpen s params ok k = k s.takeFree := by
  unfold checkedOpen
  exact checked_pass k (firstBad_pass (pass_append h (pass_cons (needState_of _ hok) pass_nil)))

theorem firstBad_append_some {l : List (Option Bad)} {b : Bad} (m : List (Option Bad)) (h : firstBad l = some b) : firstBad (l ++ m) = some b := by
  induction l with
  | nil => cases h
  | cons a l ih =>
    cases a with
    | none => exact ih h
    | some a => exact h

theorem checkedOpen_fail {s : State} {params : List (Option Bad)} {ok : Bool} {st d : Nat} (k : State → State) (h : firstBad params = some (st, d)) :
    checkedOpen s params ok k = postResponse s.takeFree st d [] := by
  unfold checkedOpen
  rw [checked_fail k (firstBad_append_some _ h)]
  rfl

/-! FW_UPDATE_BEGIN. -/

theorem fwUpdateBegin_starts {s : State} {c : Current} (h : Picked s 0x0009 c) (hphase : s.clk.phase ≠ .recovery) (hslot : par c 0 < 2) (halign : par32 c 1 % 256 = 0)
    (hlow : 0x1100 ≤ par32 c 1) (hhigh : par32 c 1 ≤ 0x7FF000) (htag : (s.prog c.tag.toNat).state ≠ .running) (hsession : s.fw.session = none)
    (himage : s.clk.imageSlot = decide (par c 0 ≠ 1)) (htrial : slotTrial s s.clk.imageSlot = false) :
    ∃ u t x, exec .fwUpdateBegin s = .next t ∧ x = ({ slotB := decide (par c 0 = 1), imageBytes := par32 c 1, received := 0, erased := false, tag := c.tag.toNat } : Session) ∧
      Answered c 1 0 [] (beginWork { s.takeFree with fw := { s.fw with session := some x } } c.tag.toNat c.opcode.toNat
        c.ring.toNat 0 false) u ∧
      t = { u with ser := { u.ser with flashOps := s.ser.flashOps ++ slotSectors x.slotB } } := by
  have hrec : decide (s.clk.phase = .recovery) = false := decide_eq_false hphase
  have hother : decide (decide (par c 0 = 1) ≠ s.clk.imageSlot) = true := by
    rw [himage]
    by_cases h1 : par c 0 = 1
    · rw [h1]; rfl
    · rw [decide_eq_false h1, decide_eq_true h1]; rfl
  generalize hx : ({ slotB := decide (par c 0 = 1), imageBytes := par32 c 1, received := 0, erased := false, tag := c.tag.toNat } : Session) = x
  have hexec : exec .fwUpdateBegin s = .next { accept { s.takeFree with fw := { s.fw with session := some x } } c 0 with
      ser := { (accept { s.takeFree with fw := { s.fw with session := some x } } c 0).ser with
        flashOps := (accept { s.takeFree with fw := { s.fw with session := some x } } c 0).ser.flashOps ++ slotSectors x.slotB } } := by
    refine congrArg Host.Outcome.next ((onCommand_picked h (fun _ => true) _ rfl).trans ((checkedOpen_pass _ ?_ ?_).trans ?_))
    · rw [hrec]
      exact pass_cons (needParam_of 0 (decide_eq_true hslot)) (pass_cons (needParam_of 1 (by rw [decide_eq_true halign, decide_eq_true hlow, decide_eq_true hhigh]; rfl))
        (pass_cons (needTag_pass (show tagInUse s c.tag.toNat = false from decide_eq_false htag)) pass_nil))
    · rw [hrec, hsession, htrial, hother]
      rfl
    · rw [← hx]
      dsimp only
      rw [hrec]
      rfl
  obtain ⟨p, g, hbegin, hans⟩ := accept_answered (s := { s.takeFree with fw := { s.fw with session := some x } }) (c := c) h.1 0 []
  obtain ⟨hparts, -⟩ := id hans
  refine ⟨accept { s.takeFree with fw := { s.fw with session := some x } } c 0, _, x, hexec, rfl, ?_, ?_⟩
  · rw [hbegin]
    exact hans
  · have hops : (accept { s.takeFree with fw := { s.fw with session := some x } } c 0).ser.flashOps = s.ser.flashOps := by rw [hparts]; rfl
    rw [hops]

theorem fwUpdateBegin_wrongLength {s : State} {c : Current} (h : Picked s 0x0009 c) (hslot : par c 0 < 2)
    (hbad : par32 c 1 % 256 ≠ 0 ∨ par32 c 1 < 0x1100 ∨ 0x7FF000 < par32 c 1) : ∃ t, exec .fwUpdateBegin s = .next t ∧ Answered c 0x12 1 [] s.takeFree t := by
  have hform : (decide (par32 c 1 % 256 = 0) && decide (0x1100 ≤ par32 c 1) && decide (par32 c 1 ≤ 0x7FF000)) = false := by
    rw [Bool.and_eq_false_iff, Bool.and_eq_false_iff, decide_eq_false_iff_not, decide_eq_false_iff_not, decide_eq_false_iff_not]
    omega
  refine picked_answers (k := fun _ => _) h rfl (checkedOpen_fail _ ?_) h.1
  rw [needParam_of 0 (decide_eq_true hslot), needParam_of_not 1 hform]
  rfl

/-! FW_ERASE_DONE. -/

theorem fwEraseDone_idle {s : State} (h : s.fw.session = none ∨ ∃ x, s.fw.session = some x ∧ x.erased = true) : exec .fwEraseDone s = .next s := by
  rw [show exec .fwEraseDone s = execFwEraseDone s from rfl, execFwEraseDone]
  rcases h with hnone | ⟨x, hsome, her⟩
  · rw [hnone]
  · rw [hsome]
    exact congrArg Host.Outcome.next (if_pos her)

/-- The state once the slot is erased. -/
def erasedState (s : State) (x : Session) : State :=
  let s := s.ser.flashOps.foldl flashEffect s
  resumeXip { s with ser := { s.ser with flashOps := [] }, fw := { s.fw with session := some { x with erased := true } } }

/-- The answer of FW_UPDATE_BEGIN in recovery, or its COMPLETION. -/
def eraseAnswer (x : Session) (s : State) : State :=
  if x.tag = 0 then (if waitsFor s .flashOp then postOk s else s)
  else endWork s (workEnd s x.tag (s.prog x.tag).ring.toNat 0 0 0 0 1 0 0 0)

theorem erasedState_parts (s : State) (x : Session) :
    ∃ l d w b q, erasedState s x = { s with
      ser := { s.ser with flash := (s.ser.flashOps.foldl flashEffect s).ser.flash, flashOps := [], xipLines := l, xipData := d, xipWait := w }
      fw := { s.fw with session := some { x with erased := true } }
      flt := { s.flt with block := b, waiting := q } } := by
  unfold erasedState
  dsimp only
  obtain ⟨f, hf⟩ := foldl_flashEffect_parts s.ser.flashOps s
  rw [hf]
  exact resumeXip_parts _

theorem waitsFor_current {s : State} {w : Wait} (h : waitsFor s w = true) : ∃ c, s.fw.current = some c ∧ c.wait = w := by
  unfold waitsFor at h
  cases hcur : s.fw.current with
  | none => rw [hcur] at h; exact absurd h Bool.false_ne_true
  | some c => rw [hcur] at h; exact ⟨c, rfl, of_decide_eq_true h⟩

theorem eraseAnswer_parts (x : Session) (s : State) :
    ∃ b f h l w, eraseAnswer x s = { s with mb := b, fw := f, harv := h, link := l, flt := w } ∧ f.session = s.fw.session := by
  unfold eraseAnswer
  split
  · split
    · next hw =>
      obtain ⟨c, hc, -⟩ := waitsFor_current hw
      obtain ⟨heq, -⟩ := postResponse_answered s c 0 0 [] hc
      exact ⟨_, _, s.harv, _, s.flt, heq, rfl⟩
    · exact ⟨s.mb, s.fw, s.harv, s.link, s.flt, rfl, rfl⟩
  · obtain ⟨p, h, w, hend⟩ := endWork_parts s (workEnd s x.tag (s.prog x.tag).ring.toNat 0 0 0 0 1 0 0 0)
    exact ⟨s.mb, _, h, s.link, _, hend, rfl⟩

theorem fwEraseDone_erases {s : State} {x : Session} (h : s.fw.session = some x) (her : x.erased = false) :
    ∃ t, exec .fwEraseDone s = .next t ∧ t.fw.session = some { x with erased := true } ∧ t.ser.flashOps = [] ∧
      (s.ser.flashOps = slotSectors x.slotB →
        (∀ k, k < 0x800000 → t.flashByte (flashSlot x.slotB + k) = 0xFF) ∧
        (∀ k, k < flashSlot x.slotB ∨ flashSlot x.slotB + 0x800000 ≤ k → t.flashByte k = s.flashByte k)) ∧
      t = { s with mb := t.mb, fw := t.fw, harv := t.harv, link := t.link, ser := t.ser, flt := t.flt } := by
  have hexec : exec .fwEraseDone s = .next (eraseAnswer x (erasedState s x)) := by
    rw [show exec .fwEraseDone s = execFwEraseDone s from rfl, execFwEraseDone, h]
    exact congrArg Host.Outcome.next (if_neg (by rw [her]; decide))
  obtain ⟨b, f, g, l, w, hans, hsession⟩ := eraseAnswer_parts x (erasedState s x)
  obtain ⟨l', d', w', b', q', hstate⟩ := erasedState_parts s x
  generalize erasedState s x = u at hexec hans hsession hstate
  subst hstate
  refine ⟨_, hexec, ?_, ?_, fun hops => ?_, ?_⟩
  · rw [hans]
    exact hsession
  · rw [hans]
  · rw [hans]
    have hbytes := erasedSlot_flashByte x.slotB s
    rw [← hops] at hbytes
    exact hbytes
  · rw [hans]

/-! FW_UPDATE_DATA. -/

theorem startFlash_current {s : State} {c : Current} (h : s.fw.current = some c) (l : List FlashOp) :
    (startFlash s l).fw.current = some { c with wait := .flashOp, reply := [] } := by
  show Option.map (fun c : Current => { c with wait := Wait.flashOp, reply := [] }) s.fw.current = _
  rw [h]
  rfl

theorem fwUpdateData_wrongOffset {s : State} {c : Current} {x : Session} (h : Picked s 0x000A c) (hx : s.fw.session = some x) (hoff : par32 c 0 ≠ x.received) :
    ∃ t, exec .fwUpdateData s = .next t ∧ Answered c 0x12 0 (toWords 2 x.received) s t := by
  rw [show exec .fwUpdateData s = execFwUpdateData s from rfl, execFwUpdateData, hx]
  exact picked_answers (k := fun _ => _) h rfl (if_pos hoff) h.1

theorem fwUpdateData_programs {s : State} {c : Current} {x : Session} (h : Picked s 0x000A c) (hx : s.fw.session = some x) (hoff : par32 c 0 = x.received)
    (hlow : 2 ≤ par c 2) (hhigh : par c 2 ≤ 224) (heven : par c 2 % 2 = 0) (hfits : x.received + par c 2 ≤ x.imageBytes) (her : x.erased = true) :
    ∃ t, exec .fwUpdateData s = .next t ∧ t.fw.current = some { c with wait := .flashOp, reply := [] } ∧
      t.ser.flashOps = s.ser.flashOps ++ flashPages (flashSlot x.slotB + x.received)
        ((wordsToBytes (c.params.drop 3)).take (par c 2)) ∧
      t = { s with free := s.free + 1, fw := { s.fw with current := t.fw.current }, ser := { s.ser with flashOps := t.ser.flashOps } } := by
  have hexec : exec .fwUpdateData s = .next (startFlash s.takeFree (flashPages (flashSlot x.slotB + x.received) ((wordsToBytes (c.params.drop 3)).take (par c 2)))) := by
    rw [show exec .fwUpdateData s = execFwUpdateData s from rfl, execFwUpdateData, hx]
    refine congrArg Host.Outcome.next ((onCommand_picked h (fun _ => true) _ rfl).trans ((if_neg (not_not_intro hoff)).trans (checkedOpen_pass _ ?_ her)))
    exact pass_cons (needParam_of 2 (by rw [decide_eq_true hlow, decide_eq_true hhigh, decide_eq_true heven]; rfl)) (pass_cons (needParam_of 2 (decide_eq_true hfits)) pass_nil)
  generalize flashPages (flashSlot x.slotB + x.received) ((wordsToBytes (c.params.drop 3)).take (par c 2)) = ops at hexec ⊢
  exact ⟨_, hexec, startFlash_current (s := s.takeFree) h.1 _, rfl, rfl⟩

/-! FW_UPDATE_COMMIT and FW_UPDATE_CONFIRM. -/

theorem armed_iff (v : BitVec 2) (b : Bool) : (bit v.toNat 0 && decide (bit v.toNat 1 = b)) = true ↔ v.toNat = 1 + (if b then 2 else 0) := by
  revert v b
  decide

theorem needArmed_of {s : State} {b : Bool} (h : s.bus.fwCommit.toNat = 1 + (if b then 2 else 0)) : needArmed s b = none :=
  needGuard_eq_none.2 ((armed_iff _ b).2 h)

theorem needArmed_of_not {s : State} {b : Bool} (h : s.bus.fwCommit.toNat ≠ 1 + (if b then 2 else 0)) : needArmed s b = some (0x15, 0x011A) := by
  rw [needArmed, Bool.eq_false_iff.2 fun harmed => h ((armed_iff _ b).1 harmed)]
  rfl

theorem fwUpdateCommit_writes {s : State} {c : Current} (h : Picked s 0x000B c) (hmode : par c 0 = 0) (hact : par c 1 < 2) (hreason : commitReason s = none)
    (harmed : s.bus.fwCommit.toNat = 1 + (if writtenSlot s then 2 else 0)) :
    ∃ t, exec .fwUpdateCommit s = .next t ∧ t.fw.current = some { c with wait := .flashOp, reply := [] } ∧
      t.ser.flashOps = s.ser.flashOps ++ [.program (commitAt (writtenSlot s)) (toBytes 4 (commitGeneration s (writtenSlot s))),
        .program (commitAt (writtenSlot s) + 6) (toBytes 2 0xAAAA)] ∧
      t = { s with fw := { s.fw with current := t.fw.current }, ser := { s.ser with flashOps := t.ser.flashOps } } := by
  have hexec : exec .fwUpdateCommit s = .next (startFlash s [.program (commitAt (writtenSlot s)) (toBytes 4 (commitGeneration s (writtenSlot s))),
      .program (commitAt (writtenSlot s) + 6) (toBytes 2 0xAAAA)]) := by
    refine congrArg Host.Outcome.next ((onCommand_picked h (fun p => decide (wAt p 0 = 0)) _ (decide_eq_true hmode)).trans ?_)
    dsimp only
    rw [needParam_of 1 (decide_eq_true hact), hreason, needArmed_of harmed]
    rfl
  exact ⟨_, hexec, startFlash_current h.1 _, rfl, rfl⟩

theorem fwUpdateCommit_unarmed {s : State} {c : Current} (h : Picked s 0x000B c) (hmode : par c 0 = 0) (hact : par c 1 < 2) (hreason : commitReason s = none)
    (harmed : s.bus.fwCommit.toNat ≠ 1 + (if writtenSlot s then 2 else 0)) :
    ∃ t, exec .fwUpdateCommit s = .next t ∧ Answered c 0x15 0x011A [] { s with bus := { s.bus with fwCommit := s.bus.fwCommit &&& 2 } } t := by
  refine picked_answers (k := fun _ => _) h (decide_eq_true hmode) ?_ h.1
  dsimp only
  rw [needParam_of 1 (decide_eq_true hact), hreason, needArmed_of_not harmed]
  rfl

theorem fwUpdateConfirm_writes {s : State} {c : Current} (h : Picked s 0x000B c) (hmode : par c 0 = 1) (hpar : par c 1 = 0) (hphase : s.clk.phase ≠ .recovery)
    (harmed : s.bus.fwCommit.toNat = 1 + (if s.clk.imageSlot then 2 else 0)) (htrial : slotTrial s s.clk.imageSlot = true) :
    ∃ t, exec .fwUpdateConfirm s = .next t ∧ t.fw.current = some { c with wait := .flashOp, reply := [] } ∧
      t.ser.flashOps = s.ser.flashOps ++ [.program (commitAt s.clk.imageSlot + 6) (toBytes 2 0)] ∧
      t = { s with fw := { s.fw with current := t.fw.current }, ser := { s.ser with flashOps := t.ser.flashOps } } := by
  have hexec : exec .fwUpdateConfirm s = .next (startFlash s [.program (commitAt s.clk.imageSlot + 6) (toBytes 2 0)]) := by
    refine congrArg Host.Outcome.next ((onCommand_picked h (fun p => decide (wAt p 0 = 1)) _ (decide_eq_true hmode)).trans ?_)
    dsimp only
    rw [needParam_of 1 (decide_eq_true hpar), if_neg hphase, needArmed_of harmed, needState_of 2 (decide_eq_true hphase)]
    exact if_pos htrial
  exact ⟨_, hexec, startFlash_current h.1 _, rfl, rfl⟩

theorem fwUpdateConfirm_recovery {s : State} {c : Current} (h : Picked s 0x000B c) (hmode : par c 0 = 1) (hpar : par c 1 = 0) (hphase : s.clk.phase = .recovery) :
    ∃ t, exec .fwUpdateConfirm s = .next t ∧ Answered c 0x13 2 [] { s with bus := { s.bus with fwCommit := s.bus.fwCommit &&& 2 } } t := by
  refine picked_answers (k := fun _ => _) h (decide_eq_true hmode) ?_ h.1
  dsimp only
  rw [needParam_of 1 (decide_eq_true hpar), if_pos hphase, needState_of_not 2 (decide_eq_false (not_not_intro hphase))]
  rfl

end Sys2Proof.Machine
end

section
/-! PROOFS. O19, continued: the end of a flash operation, its timeout, and the obligation. -/

set_option Elab.async false

namespace Sys2Proof.Machine

/-! FLASH_OP_DONE. -/

theorem flashOpDone_goesOn {s : State} {a : Nat} {l : List Byte} {r : List FlashOp} (h : s.ser.flashOps = .program a l :: r) (hr : r ≠ []) :
    ∃ t, exec .flashOpDone s = .next t ∧ t.ser.flashOps = r ∧
      (∀ k, (k < a ∨ a + l.length ≤ k) → t.flashByte k = s.flashByte k) ∧
      (∀ i, i < l.length → t.flashByte (a + i) = s.flashByte (a + i) &&& l.getD i 0) ∧
      t = { s with ser := { s.ser with flash := t.ser.flash, flashOps := r } } := by
  have hexec : exec .flashOpDone s = .next (programFlash { s with ser := { s.ser with flashOps := r } } a l) := by
    rw [show exec .flashOpDone s = execFlashOpDone s from rfl, execFlashOpDone, h]
    exact congrArg Host.Outcome.next (if_neg hr)
  obtain ⟨⟨f, hf⟩, hout, hin⟩ := programFlash_spec l { s with ser := { s.ser with flashOps := r } } a
  exact ⟨_, hexec, by rw [hf], hout, hin, by rw [hf]⟩

/-- The last operation's end: its effect, then the command that waits for it. -/
theorem flashOpDone_last {s : State} {op : FlashOp} (h : s.ser.flashOps = [op]) (hxip : s.ser.xipWait = none) :
    exec .flashOpDone s = .next (finishFlash (flashEffect { s with ser := { s.ser with flashOps := [] } } op)) := by
  obtain ⟨f, hf⟩ := flashEffect_parts { s with ser := { s.ser with flashOps := [] } } op
  have hidle : resumeXip (flashEffect { s with ser := { s.ser with flashOps := [] } } op) = flashEffect { s with ser := { s.ser with flashOps := [] } } op :=
    resumeXip_idle (by rw [hf]; exact hxip)
  rw [show exec .flashOpDone s = execFlashOpDone s from rfl, execFlashOpDone, h]
  refine congrArg Host.Outcome.next ((if_pos rfl).trans ?_)
  rw [hidle]

theorem finishFlash_waiting {s : State} {c : Current} (h : s.fw.current = some c) (hwait : c.wait = .flashOp) :
    finishFlash s = if c.opcode = 0x000A then
        postOk { s with fw := { s.fw with session := s.fw.session.map (fun x => { x with received := x.received + par c 2 }) } }
      else if c.opcode = 0x000B then (if par c 0 = 0 then finishCommit s c else finishConfirm s) else s := by
  unfold finishFlash
  rw [h]
  exact if_neg (not_not_intro hwait)

theorem flashOpDone_data {s : State} {c : Current} {x : Session} {op : FlashOp} (h : s.ser.flashOps = [op]) (hxip : s.ser.xipWait = none)
    (hx : s.fw.session = some x) (hcur : s.fw.current = some c) (hwait : c.wait = .flashOp) (hop : c.opcode = 0x000A) :
    ∃ t, exec .flashOpDone s = .next t ∧ t.fw.session = some { x with received := x.received + par c 2 } ∧
      t.fw.current = none ∧ t.ser.flashOps = [] ∧ (t.mbx c.mb.val).status = 0 := by
  have hexec := flashOpDone_last h hxip
  obtain ⟨f, hf⟩ := flashEffect_parts { s with ser := { s.ser with flashOps := [] } } op
  generalize flashEffect { s with ser := { s.ser with flashOps := [] } } op = u at hexec hf
  have hucur : u.fw.current = some c := by rw [hf]; exact hcur
  have hux : u.fw.session = some x := by rw [hf]; exact hx
  have hops : u.ser.flashOps = [] := by rw [hf]
  clear hf
  rw [finishFlash_waiting hucur hwait, if_pos hop] at hexec
  obtain ⟨heq, -, -, -, -, hstatus, -⟩ := postResponse_answered
    { u with fw := { u.fw with session := u.fw.session.map (fun x => { x with received := x.received + par c 2 }) } } c 0 0 [] hucur
  refine ⟨_, hexec, ?_, ?_, ?_, hstatus⟩
  · have hsession := congrArg (fun t : State => t.fw.session) heq
    exact hsession.trans (by rw [hux]; rfl)
  · exact congrArg (fun t : State => t.fw.current) heq
  · exact (congrArg (fun t : State => t.ser.flashOps) heq).trans hops

/-- COMMIT's record stands as written: the answer is OK, and ACTIVATE has its restart due. -/
theorem finishCommit_ok {s : State} {c : Current} {x : Session} (hx : s.fw.session = some x) (hcur : s.fw.current = some c) (htrial : slotTrial s x.slotB = true)
    (hgen : slotGeneration s x.slotB = commitGeneration s x.slotB) :
    ∃ v, Answered c 0 0 [] { s with fw := { s.fw with session := none }, bus := { s.bus with fwCommit := s.bus.fwCommit &&& 2 } } v ∧
      finishCommit s c = if par c 1 = 1 then { v with clk := { v.clk with activationDue := some (v.now + 3200000) } } else v := by
  have hslot : writtenSlot s = x.slotB := by rw [writtenSlot, hx]; rfl
  refine ⟨_, postResponse_answered { s with fw := { s.fw with session := none }, bus := { s.bus with fwCommit := s.bus.fwCommit &&& 2 } } c 0 0 [] hcur, ?_⟩
  unfold finishCommit
  dsimp only
  rw [hslot, htrial, decide_eq_true hgen]
  rfl

theorem flashOpDone_commit {s u : State} {c : Current} {x : Session} {op : FlashOp} (h : s.ser.flashOps = [op]) (hxip : s.ser.xipWait = none)
    (hx : s.fw.session = some x) (hcur : s.fw.current = some c) (hwait : c.wait = .flashOp) (hop : c.opcode = 0x000B) (hmode : par c 0 = 0)
    (hu : u = flashEffect { s with ser := { s.ser with flashOps := [] } } op) (htrial : slotTrial u x.slotB = true)
    (hgen : slotGeneration u x.slotB = commitGeneration u x.slotB) :
    ∃ t, exec .flashOpDone s = .next t ∧ t.fw.session = none ∧ t.bus.fwCommit = s.bus.fwCommit &&& 2 ∧ t.fw.current = none ∧
      (t.mbx c.mb.val).status = 0 ∧ t.ser = u.ser ∧
      t.clk = (if par c 1 = 1 then { s.clk with activationDue := some (s.clk.time + 3200000) } else s.clk) := by
  have hexec := flashOpDone_last h hxip
  obtain ⟨f, hf⟩ := flashEffect_parts { s with ser := { s.ser with flashOps := [] } } op
  have hucur : u.fw.current = some c := by rw [hu, hf]; exact hcur
  have hux : u.fw.session = some x := by rw [hu, hf]; exact hx
  have hubus : u.bus = s.bus := by rw [hu, hf]
  have huclk : u.clk = s.clk := by rw [hu, hf]
  rw [← hu, finishFlash_waiting hucur hwait, if_neg (by rw [hop]; decide), if_pos hop, if_pos hmode] at hexec
  clear hu hf
  obtain ⟨v, ⟨heq, -, -, -, -, hstatus, -⟩, hfinish⟩ := finishCommit_ok hux hucur htrial hgen
  rw [hfinish] at hexec
  clear hfinish
  have hsession : v.fw.session = none := by rw [heq]
  have hcommit : v.bus.fwCommit = s.bus.fwCommit &&& 2 := by rw [heq, hubus]
  have hnone : v.fw.current = none := by rw [heq]
  have hser : v.ser = u.ser := by rw [heq]
  have hclk : v.clk = s.clk := by rw [heq, huclk]
  clear heq
  refine ⟨_, hexec, ?_⟩
  split
  · refine ⟨hsession, hcommit, hnone, hstatus, hser, ?_⟩
    rw [State.now, hclk]
  · exact ⟨hsession, hcommit, hnone, hstatus, hser, hclk⟩

theorem flashOpDone_confirm {s u : State} {c : Current} {op : FlashOp} (h : s.ser.flashOps = [op]) (hxip : s.ser.xipWait = none)
    (hcur : s.fw.current = some c) (hwait : c.wait = .flashOp) (hop : c.opcode = 0x000B) (hmode : par c 0 = 1)
    (hu : u = flashEffect { s with ser := { s.ser with flashOps := [] } } op) :
    ∃ t, exec .flashOpDone s = .next t ∧ t.fw.rollback = min 64 (max s.fw.rollback (secVersion u s.clk.imageSlot)) ∧
      t.bus.fwCommit = s.bus.fwCommit &&& 2 ∧ t.fw.current = none ∧ (t.mbx c.mb.val).status = 0 ∧ t.ser = u.ser := by
  have hexec := flashOpDone_last h hxip
  obtain ⟨f, hf⟩ := flashEffect_parts { s with ser := { s.ser with flashOps := [] } } op
  have hucur : u.fw.current = some c := by rw [hu, hf]; exact hcur
  have hroll : u.fw.rollback = s.fw.rollback := by rw [hu, hf]
  have hubus : u.bus = s.bus := by rw [hu, hf]
  have huclk : u.clk = s.clk := by rw [hu, hf]
  rw [← hu, finishFlash_waiting hucur hwait, if_neg (by rw [hop]; decide), if_pos hop, if_neg (by rw [hmode]; decide)] at hexec
  clear hu hf
  unfold finishConfirm at hexec
  dsimp only at hexec
  have hrises : min 64 (max u.fw.rollback (secVersion u u.clk.imageSlot)) = min 64 (max s.fw.rollback (secVersion u s.clk.imageSlot)) := by rw [huclk, hroll]
  generalize min 64 (max u.fw.rollback (secVersion u u.clk.imageSlot)) = roll at hexec hrises
  obtain ⟨heq, -, -, -, -, hstatus, -⟩ := postResponse_answered
    { u with fw := { u.fw with rollback := roll }, bus := { u.bus with fwCommit := u.bus.fwCommit &&& 2 } } c 0 0 [] hucur
  refine ⟨_, hexec, ?_, ?_, ?_, hstatus, ?_⟩
  · exact (congrArg (fun t : State => t.fw.rollback) heq).trans hrises
  · have hbus := congrArg (fun t : State => t.bus.fwCommit) heq
    rw [← hubus]
    exact hbus
  · have hcurrent := congrArg (fun t : State => t.fw.current) heq
    exact hcurrent
  · have hser := congrArg (fun t : State => t.ser) heq
    exact hser

/-! FLASH_TIMEOUT. -/

/-- The state once the operation that never ended has been given up. -/
def givenUp (s : State) (op : FlashOp) : State :=
  let s := flashUnknown (s.raise 0x18 2) op
  resumeXip { s with ser := { s.ser with flashOps := [] } }

/-- An erasure that is given up ends its session, and its work where it has a tag. -/
def endErasure (s : State) : State :=
  let erasing := s.fw.session.any (fun x => !x.erased)
  let tag := match s.fw.session with | some x => x.tag | none => 0
  let s := if erasing then { s with fw := { s.fw with session := none } } else s
  if erasing ∧ tag ≠ 0 then endWork s (workEnd s tag (s.prog tag).ring.toNat 0x12 0x8007 0 0 1 0 0 0) else s

/-- The command that waits for the flash fails. -/
def failFlash (s : State) : State :=
  if waitsFor s .flashOp then
    let commit := s.fw.current.any (fun c => decide (c.opcode = 0x000B))
    postBad (if commit then disarmCommit s else s) (0x12, 0x8007)
  else s

theorem flashTimeout_eq {s : State} {op : FlashOp} {r : List FlashOp} (h : s.ser.flashOps = op :: r) :
    exec .flashTimeout s = .next (failFlash (endErasure (givenUp s op))) := by
  rw [show exec .flashTimeout s = execFlashTimeout s from rfl, execFlashTimeout, h]
  rfl

theorem givenUp_parts (s : State) (op : FlashOp) :
    ∃ n x b w, givenUp s op = { s with free := n, ser := x, flt := { s.flt with block := b, waiting := w } } ∧ x.flashOps = [] := by
  unfold givenUp
  dsimp only
  obtain ⟨b, w, hraise⟩ := raise_parts s 0x18 2 0 0
  obtain ⟨n, f, hunknown⟩ : ∃ n f, flashUnknown (s.raise 0x18 2) op = { s with free := n, ser := { s.ser with flash := f }, flt := { s.flt with block := b, waiting := w } } := by
    rw [hraise]
    cases op with
    | erase a => exact ⟨_, _, rfl⟩
    | program a l => exact ⟨_, _, rfl⟩
  obtain ⟨l, d, q, b', w', hxip⟩ := resumeXip_parts { s with free := n, ser := { s.ser with flash := f, flashOps := [] }, flt := { s.flt with block := b, waiting := w } }
  rw [hunknown]
  exact ⟨n, _, b', w', hxip, rfl⟩

theorem endErasure_parts (s : State) :
    ∃ p g w, endErasure s = { s with fw := { s.fw with session := (endErasure s).fw.session, progress := p }, harv := g, flt := { s.flt with waiting := w } } ∧
      ((∃ x, s.fw.session = some x ∧ x.erased = false) → (endErasure s).fw.session = none) := by
  have hend : ∀ (v : State) (b : Bool) (tag : Nat) (e : PendingEnd), ∃ p g w, (if b = true ∧ tag ≠ 0 then endWork v e else v) = { v with fw := { v.fw with progress := p }, harv := g, flt := { v.flt with waiting := w } } := by
    intro v b tag e
    split
    · exact endWork_parts v e
    · exact ⟨v.fw.progress, v.harv, v.flt.waiting, rfl⟩
  unfold endErasure
  dsimp only
  by_cases her : s.fw.session.any (fun x => !x.erased) = true
  · rw [if_pos her]
    obtain ⟨p, g, w, hp⟩ := hend { s with fw := { s.fw with session := none } } _ _ _
    rw [hp]
    exact ⟨p, g, w, rfl, fun _ => rfl⟩
  · rw [if_neg her]
    obtain ⟨p, g, w, hp⟩ := hend s _ _ _
    rw [hp]
    refine ⟨p, g, w, rfl, fun ⟨x, hx, hxe⟩ => absurd ?_ her⟩
    rw [hx, Option.any_some, hxe]
    rfl

theorem failFlash_parts (s : State) :
    ∃ b f m l, failFlash s = { s with bus := b, mb := m, fw := { s.fw with current := f }, link := l } ∧
      ∀ c, s.fw.current = some c → c.wait = .flashOp → f = none ∧ ((failFlash s).mbx c.mb.val).status = 0x12 ∧ ((failFlash s).mbx c.mb.val).detail = 0x8007 := by
  unfold failFlash
  dsimp only
  by_cases hwait : waitsFor s .flashOp = true
  · rw [if_pos hwait]
    obtain ⟨c, hcur, -⟩ := waitsFor_current hwait
    obtain ⟨b, hb⟩ : ∃ b, (if s.fw.current.any (fun c => decide (c.opcode = 0x000B)) then disarmCommit s else s) = { s with bus := b } := by
      split
      · exact ⟨_, rfl⟩
      · exact ⟨s.bus, rfl⟩
    rw [hb]
    obtain ⟨heq, -, -, -, -, hstatus, hdetail, -⟩ := postResponse_answered { s with bus := b } c 0x12 0x8007 [] hcur
    refine ⟨b, none, _, _, heq, fun c' hc' _ => ?_⟩
    rw [Option.some.inj (hc'.symm.trans hcur)]
    exact ⟨rfl, hstatus, hdetail⟩
  · rw [if_neg hwait]
    refine ⟨s.bus, s.fw.current, s.mb, s.link, rfl, fun c hcur hc => absurd ?_ hwait⟩
    rw [waitsFor, hcur]
    exact decide_eq_true hc

theorem flashTimeout_fails {s : State} {op : FlashOp} {r : List FlashOp} (h : s.ser.flashOps = op :: r) :
    ∃ t, exec .flashTimeout s = .next t ∧ t.ser.flashOps = [] ∧
      ((∃ c, s.fw.current = some c ∧ c.wait = .flashOp) → t.fw.current = none) ∧
      (∀ c, s.fw.current = some c → c.wait = .flashOp → (t.mbx c.mb.val).status = 0x12 ∧ (t.mbx c.mb.val).detail = 0x8007) ∧
      t = { s with free := t.free, bus := t.bus, mb := t.mb, fw := t.fw, harv := t.harv, link := t.link, ser := t.ser, flt := t.flt } ∧
      ((∃ x, s.fw.session = some x ∧ x.erased = false) → t.fw.session = none) := by
  have hexec := flashTimeout_eq h
  obtain ⟨n, x, b, w, hgiven, hops⟩ := givenUp_parts s op
  rw [hgiven] at hexec
  clear hgiven
  obtain ⟨p, g, w', herase, hsession⟩ := endErasure_parts { s with free := n, ser := x, flt := { s.flt with block := b, waiting := w } }
  generalize endErasure { s with free := n, ser := x, flt := { s.flt with block := b, waiting := w } } = u at hexec herase hsession
  obtain ⟨b', f, m, l, hfail, hanswer⟩ := failFlash_parts u
  generalize failFlash u = t at hexec hfail hanswer
  have hcur : u.fw.current = s.fw.current := by rw [herase]
  refine ⟨t, hexec, by rw [hfail, herase]; exact hops, fun ⟨c, hc, hwait⟩ => ?_, fun c hc hwait => (hanswer c (hcur.trans hc) hwait).2, by rw [hfail, herase], fun her => ?_⟩
  · rw [hfail]
    exact (hanswer c (hcur.trans hc) hwait).1
  · rw [hfail]
    exact hsession her

/-- Settles O19: a session's slot is erased, filled and committed only as its checks allow, and a flash operation clears bits of
its own bytes alone. -/
theorem firmwareUpdate : Obligations.FirmwareUpdate := by
  refine ⟨?_, ?_, ?_, ?_, ?_, ?_, ?_, ?_, ?_, ?_, ?_, ?_, ?_, ?_, ?_⟩
  · exact fun _ _ h hphase hslot halign hlow hhigh htag hsession himage htrial => fwUpdateBegin_starts h hphase hslot halign hlow hhigh htag hsession himage htrial
  · exact fun _ _ h hslot hbad => fwUpdateBegin_wrongLength h hslot hbad
  · exact fun _ _ h her => fwEraseDone_erases h her
  · exact fun _ h => fwEraseDone_idle h
  · exact fun _ _ _ h hx hoff => fwUpdateData_wrongOffset h hx hoff
  · exact fun _ _ _ h hx hoff hlow hhigh heven hfits her => fwUpdateData_programs h hx hoff hlow hhigh heven hfits her
  · exact fun _ _ h hmode hact hreason harmed => fwUpdateCommit_writes h hmode hact hreason harmed
  · exact fun _ _ h hmode hact hreason harmed => fwUpdateCommit_unarmed h hmode hact hreason harmed
  · exact fun _ _ h hmode hpar hphase harmed htrial => fwUpdateConfirm_writes h hmode hpar hphase harmed htrial
  · exact fun _ _ h hmode hpar hphase => fwUpdateConfirm_recovery h hmode hpar hphase
  · exact fun _ _ _ _ h hr => flashOpDone_goesOn h hr
  · exact fun _ _ _ _ h hxip hx hcur hwait hop => flashOpDone_data h hxip hx hcur hwait hop
  · exact fun _ _ _ _ _ h hxip hx hcur hwait hop hmode hu htrial hgen => flashOpDone_commit h hxip hx hcur hwait hop hmode hu htrial hgen
  · exact fun _ _ _ _ h hxip hcur hwait hop hmode hu => flashOpDone_confirm h hxip hcur hwait hop hmode hu
  · exact fun _ _ _ h => flashTimeout_fails h

end Sys2Proof.Machine
end

section
/-! PROOFS. O24: segments. SEG_LOAD and its end, and SEG_PIN. -/

set_option Elab.async false

namespace Sys2Proof.Machine

/-! Work that ends leaves the entries of other tags. -/

theorem finalProgress_prog_ne (s : State) (e : PendingEnd) {k : Nat} (h : k ≠ e.tag) : (finalProgress s e).prog k = s.prog k := by
  rw [finalProgress, State.modProg_prog, if_neg h]

theorem placeCompletion_prog_ne {s t : State} {e : PendingEnd} {k : Nat} (h : placeCompletion s e = some t) (hk : k ≠ e.tag) : t.prog k = s.prog k := by
  unfold placeCompletion at h
  split at h
  · cases h
  · split at h
    · cases h
    · next v hv =>
      rw [← Option.some.inj h]
      refine (finalProgress_prog_ne _ e hk).trans ?_
      have honly : Only 2048 s v := stageRoom_only rfl only_refl v hv
      have hfw : Only 2048 v (placeIn (v.modRing e.ring (fun c => { c with reserved := c.reserved - 4 })) (kindStager e.kind e.source) e.ring 4 e.tag
          (fun q => recordBytes 0x01 (recordFlags v (e.flags ||| flag 2 (decide (e.status = 2)))) 4 q e.time (completionBody (v.prog e.tag) e))) :=
        placeIn_only rfl (State.modRing_only rfl only_refl)
      show State.prog { (placeIn _ _ _ _ _ _ : State) with harv := _ } k = s.prog k
      exact congrArg (fun f : Firmware => tget (fun _ => ({} : Progress)) f.progress k) ((only_fw hfw).trans (only_fw honly))

theorem endWork_prog_ne (s : State) (e : PendingEnd) {k : Nat} (h : k ≠ e.tag) : (endWork s e).prog k = s.prog k := by
  unfold endWork
  dsimp only
  split
  · split
    · next t ht => exact placeCompletion_prog_ne ht h
    · obtain ⟨b, w, hraise⟩ := raise_parts { s with harv := { s.harv with ends := s.harv.ends ++ [e] } } 0x15 0 (kindStager e.kind e.source) 0
      rw [hraise]
      rfl
  · split
    · rw [finalProgress_prog_ne _ e h]
      have hfw : Only 2048 s (dropRecord (leaveWaiters s e.ring (.completion e.tag)) e.ring 1) := dropRecord_only rfl (leaveWaiters_only rfl only_refl)
      exact congrArg (fun f : Firmware => tget (fun _ => ({} : Progress)) f.progress k) (only_fw hfw)
    · rfl

/-- An answer beside a change of the pattern store. -/
theorem answered_pat {c : Current} {st d : Nat} {ws : List Word} {u t : State} (h : Answered c st d ws u t) (p : Pattern) :
    Answered c st d ws { u with pat := p } { t with pat := p } := by
  obtain ⟨heq, hrest⟩ := h
  refine ⟨?_, hrest⟩
  generalize t.mb = m, t.link = k at heq
  subst heq
  rfl

/-! SEG_LOAD. -/

/-- The checks of SEG_LOAD on the extent it registers. -/
def extentChecks (s : State) (c : Current) : List (Option Bad) :=
  [needParam (decide (par c 0 < 16384)) 0,
   needParam (decide (64 * par32 c 1 + vectorBytes (par c 5) * par32 c 3 ≤ patternBytes s)) 1,
   needParam (decide (16 ≤ par32 c 3) && decide (par32 c 3 ≤ 65536)) 3,
   needParam (decide (1 ≤ par c 5) && decide (par c 5 ≤ 512) && keepsWidth s (par c 0) (par c 5)) 5,
   needParam (!bit (par c 7) 0 || decide (par c 6 < par32 c 3)) 6,
   needParam (decide (par c 7 < 4)) 7]

/-- The last checks of SEG_LOAD: its tag, and that the segment is not active. -/
def loadFree (s : State) (c : Current) : List (Option Bad) := [needTag s c.tag.toNat, if segActive s (par c 0) then some (0x16, par c 0) else none]

/-- The read that SEG_LOAD queues. -/
def queuedRead (c : Current) : SegLoad :=
  { tag := c.tag.toNat, segment := par c 0, addr := 64 * par32 c 1, vectors := par32 c 3, width := par c 5, hold := if bit (par c 7) 0 then some (par c 6) else none }

/-- SEG_LOAD registers an extent: the queue grows. -/
def segQueued (s : State) (c : Current) : State :=
  let s := accept s c 0
  { s with pat := { s.pat with loads := s.pat.loads ++ [queuedRead c] } }

/-- SEG_LOAD unregisters. -/
def segDropped (s : State) (c : Current) : State :=
  let s := accept s c 0
  endWork (s.modSegm (par c 0) (fun _ => {})) (workEnd s c.tag.toNat c.ring.toNat 0 0 0 0 1 0 0 0)

theorem segLoad_eq {s : State} {c : Current} (h : Picked s 0x0300 c) :
    exec .segLoad s = .next (checked s ((if bit (par c 7) 1 then [needParam (decide (par c 0 < 16384)) 0, needParam (decide (par c 7 < 4)) 7] else extentChecks s c) ++ loadFree s c)
      (fun s => if bit (par c 7) 1 then segDropped s c else segQueued s c)) :=
  congrArg Host.Outcome.next (onCommand_picked h (fun _ => true) _ rfl)

theorem keepsWidth_of {s : State} {g w : Nat} (h : ∀ n, n < 4 → (s.strm n).isOpen = true → g ∈ (s.strm n).list → (s.strm n).width = w) : keepsWidth s g w = true := by
  refine List.all_eq_true.2 fun n hn => ?_
  cases hopen : (s.strm n).isOpen with
  | false => rfl
  | true =>
    cases hmem : (s.strm n).list.contains g with
    | false => rfl
    | true => exact decide_eq_true (h n (List.mem_range.1 hn) hopen (List.contains_iff_mem.1 hmem))

theorem loadFree_pass {s : State} {c : Current} (htag : tagInUse s c.tag.toNat = false) (hact : segActive s (par c 0) = false) : ∀ x ∈ loadFree s c, x = none :=
  pass_cons (needTag_pass htag) (pass_cons (if_neg (by rw [hact]; decide)) pass_nil)

theorem segLoad_active {s : State} {c : Current} {l : List (Option Bad)} (h : Picked s 0x0300 c) (hl : ∀ x ∈ l, x = none)
    (heq : (if bit (par c 7) 1 then [needParam (decide (par c 0 < 16384)) 0, needParam (decide (par c 7 < 4)) 7] else extentChecks s c) = l)
    (htag : tagInUse s c.tag.toNat = false) (hact : segActive s (par c 0) = true) : ∃ t, exec .segLoad s = .next t ∧ Answered c 0x16 (par c 0) [] s t := by
  have hbad : firstBad (l ++ loadFree s c) = some (0x16, par c 0) := by
    rw [firstBad_append hl, loadFree, needTag_pass htag, if_pos hact]
    rfl
  rw [segLoad_eq h, heq, checked_fail _ hbad]
  exact ⟨_, rfl, postResponse_answered s c 0x16 (par c 0) [] h.1⟩

theorem segLoad_queues {s : State} {c : Current} (h : Picked s 0x0300 c) (hseg : par c 0 < 16384) (hreg : par c 7 < 2)
    (hfits : 64 * par32 c 1 + vectorBytes (par c 5) * par32 c 3 ≤ patternBytes s) (hmin : 16 ≤ par32 c 3) (hmax : par32 c 3 ≤ 65536)
    (hone : 1 ≤ par c 5) (hlanes : par c 5 ≤ 512) (hwidth : ∀ n, n < 4 → (s.strm n).isOpen = true → par c 0 ∈ (s.strm n).list → (s.strm n).width = par c 5)
    (hhold : par c 7 = 1 → par c 6 < par32 c 3) (htag : tagInUse s c.tag.toNat = false) :
    (segActive s (par c 0) = false →
      ∃ u t, exec .segLoad s = .next t ∧ Answered c 1 0 [] u t ∧ Begun c.tag.toNat 0x0300 c.ring.toNat 0 s u ∧
        u = { s with fw := { s.fw with progress := u.fw.progress }, harv := u.harv, pat := { s.pat with loads := u.pat.loads } } ∧
        u.pat.loads = s.pat.loads ++ [{ tag := c.tag.toNat, segment := par c 0, addr := 64 * par32 c 1, vectors := par32 c 3, width := par c 5, hold := if par c 7 = 1 then some (par c 6) else none }]) ∧
    (segActive s (par c 0) = true → ∃ t, exec .segLoad s = .next t ∧ Answered c 0x16 (par c 0) [] s t) := by
  have hbit : bit (par c 7) 1 = false ∧ (bit (par c 7) 0 = true ↔ par c 7 = 1) := by
    generalize par c 7 = v at hreg
    interval_cases v <;> decide
  have hif : (if bit (par c 7) 1 then [needParam (decide (par c 0 < 16384)) 0, needParam (decide (par c 7 < 4)) 7] else extentChecks s c) = extentChecks s c :=
    if_neg (by rw [hbit.1]; decide)
  have hholds : (!bit (par c 7) 0 || decide (par c 6 < par32 c 3)) = true := by
    cases hb : bit (par c 7) 0 with
    | false => rfl
    | true => exact decide_eq_true (hhold (hbit.2.1 hb))
  have hpass : ∀ x ∈ extentChecks s c, x = none :=
    pass_cons (needParam_of 0 (decide_eq_true hseg)) (pass_cons (needParam_of 1 (decide_eq_true hfits))
      (pass_cons (needParam_of 3 (by rw [decide_eq_true hmin, decide_eq_true hmax]; rfl))
        (pass_cons (needParam_of 5 (by rw [decide_eq_true hone, decide_eq_true hlanes, keepsWidth_of hwidth]; rfl))
          (pass_cons (needParam_of 6 hholds) (pass_cons (needParam_of 7 (decide_eq_true (by omega))) pass_nil)))))
  refine ⟨fun hact => ?_, fun hact => segLoad_active h hpass hif htag hact⟩
  have hexec : exec .segLoad s = .next (segQueued s c) := by
    rw [segLoad_eq h, hif, checked_pass _ (firstBad_pass (pass_append hpass (loadFree_pass htag hact)))]
    exact congrArg Host.Outcome.next (if_neg (by rw [hbit.1]; decide))
  have hload : queuedRead c = { tag := c.tag.toNat, segment := par c 0, addr := 64 * par32 c 1, vectors := par32 c 3, width := par c 5, hold := if par c 7 = 1 then some (par c 6) else none } := by
    unfold queuedRead
    simp only [hbit.2]
  obtain ⟨p, g, hbegin, hans⟩ := accept_answered h.1 0 []
  have hbegun := beginWork_begun s c.tag.toNat c.opcode.toNat c.ring.toNat 0 false
  rw [hbegin, h.2.1] at hbegun
  have hpat : (accept s c 0).pat = s.pat := by rw [hans.1]
  rw [segQueued, hpat, hload] at hexec
  exact ⟨_, _, hexec, answered_pat hans _, hbegun, rfl, rfl⟩

theorem segLoad_drops {s : State} {c : Current} (h : Picked s 0x0300 c) (hseg : par c 0 < 16384) (hunreg : par c 7 = 2 ∨ par c 7 = 3) (htag : tagInUse s c.tag.toNat = false) :
    (segActive s (par c 0) = false →
      ∃ u t, exec .segLoad s = .next t ∧ Answered c 1 0 [] u t ∧ u.segm (par c 0) = {} ∧ (∀ g, g ≠ par c 0 → u.segm g = s.segm g) ∧
        u = { s with fw := { s.fw with progress := u.fw.progress }, harv := u.harv, flt := { s.flt with waiting := u.flt.waiting }, pat := { s.pat with segment := u.pat.segment } } ∧
        (∀ k, k ≠ c.tag.toNat → t.prog k = s.prog k) ∧ Ended (workEnd s c.tag.toNat c.ring.toNat 0 0 0 0 1 0 0 0) t) ∧
    (segActive s (par c 0) = true → ∃ t, exec .segLoad s = .next t ∧ Answered c 0x16 (par c 0) [] s t) := by
  have hbit : bit (par c 7) 1 = true := by
    rcases hunreg with h2 | h3
    · rw [h2]; decide
    · rw [h3]; decide
  have hif : (if bit (par c 7) 1 then [needParam (decide (par c 0 < 16384)) 0, needParam (decide (par c 7 < 4)) 7] else extentChecks s c) =
      [needParam (decide (par c 0 < 16384)) 0, needParam (decide (par c 7 < 4)) 7] := if_pos hbit
  have hpass : ∀ x ∈ [needParam (decide (par c 0 < 16384)) 0, needParam (decide (par c 7 < 4)) 7], x = none :=
    pass_cons (needParam_of 0 (decide_eq_true hseg)) (pass_cons (needParam_of 7 (decide_eq_true (by omega))) pass_nil)
  refine ⟨fun hact => ?_, fun hact => segLoad_active h hpass hif htag hact⟩
  have hexec : exec .segLoad s = .next (segDropped s c) := by
    rw [segLoad_eq h, hif, checked_pass _ (firstBad_pass (pass_append hpass (loadFree_pass htag hact)))]
    exact congrArg Host.Outcome.next (if_pos hbit)
  obtain ⟨p, g, hbegin, hans⟩ := accept_answered h.1 0 []
  have hprogs : ∀ k, k ≠ c.tag.toNat → (accept s c 0).prog k = s.prog k := fun k hk => by
    have hb := (beginWork_prog s c.tag.toNat c.opcode.toNat c.ring.toNat 0 k false).trans (if_neg hk)
    rw [hbegin] at hb
    refine Eq.trans ?_ hb
    rw [hans.1]
    rfl
  have hend : workEnd (accept s c 0) c.tag.toNat c.ring.toNat 0 0 0 0 1 0 0 0 = workEnd s c.tag.toNat c.ring.toNat 0 0 0 0 1 0 0 0 := by
    rw [workEnd, State.now, answered_clk hans]
    rfl
  have hpat : (accept s c 0).pat = s.pat := by rw [hans.1]
  unfold segDropped at hexec
  dsimp only at hexec
  rw [hend] at hexec
  have htag' : (workEnd s c.tag.toNat c.ring.toNat 0 0 0 0 1 0 0 0).tag = c.tag.toNat := rfl
  generalize workEnd s c.tag.toNat c.ring.toNat 0 0 0 0 1 0 0 0 = e at hexec htag' ⊢
  have hended := endWork_ended ((accept s c 0).modSegm (par c 0) (fun _ => {})) e
  have hothers : ∀ k, k ≠ c.tag.toNat → (endWork ((accept s c 0).modSegm (par c 0) (fun _ => {})) e).prog k = s.prog k := fun k hk =>
    (endWork_prog_ne _ e (by rw [htag']; exact hk)).trans (hprogs k hk)
  obtain ⟨p', g', w', hparts⟩ := endWork_parts ((accept s c 0).modSegm (par c 0) (fun _ => {})) e
  rw [hparts] at hexec hended hothers
  have hlp : (accept s c 0).lp = s.lp := by rw [hans.1]
  have hsegm : ∀ k, ((accept s c 0).modSegm (par c 0) (fun _ => {})).segm k = if k = par c 0 then {} else s.segm k := fun k => by
    rw [State.modSegm_segm]
    exact if_congr Iff.rfl rfl (congrArg (fun x : Pattern => tget (fun _ => ({} : Segment)) x.segment k) hpat)
  refine ⟨_, _, hexec, answered_pat (answered_beside hans p' (accept s c 0).lp g' w') ((accept s c 0).modSegm (par c 0) (fun _ => {})).pat,
    (hsegm _).trans (if_pos rfl), fun k hk => (hsegm k).trans (if_neg hk), ?_, hothers, hended⟩
  rw [hlp]
  have hkept : ∀ v : State, v.pat = s.pat → (v.modSegm (par c 0) (fun _ => {})).pat = { s.pat with segment := (v.modSegm (par c 0) (fun _ => {})).pat.segment } := by
    intro v hv
    rw [← hv]
    rfl
  have hp := hkept (accept s c 0) hpat
  generalize ((accept s c 0).modSegm (par c 0) (fun _ => {})).pat = x at hp
  rw [hp]

/-! SEG_LOAD_DONE. -/

theorem segLoadDone_none (ue : Option Nat) {s : State} (h : s.pat.loads = []) : exec (.segLoadDone ue) s = .next s := by
  rw [show exec (.segLoadDone ue) s = execSegLoadDone ue s from rfl, execSegLoadDone, h]

/-- The state in which a read that has ended is judged. -/
def readEnded (s : State) (r : List SegLoad) : State := { s with pat := { s.pat with loads := r } }

/-- The segment is registered as its read found it. -/
def registerRead (s : State) (l : SegLoad) : State :=
  let s := s.modSegm l.segment (fun x => { x with
    registered := true, addr := l.addr, vectors := l.vectors, width := l.width, hold := l.hold, resident := false
    copy := if executing s l.segment then x.copy else {}
    unusable := false, retried := false })
  if pinSlots s ≤ 3584 then s else s.modSegm l.segment (fun x => { x with hostPin := false })

theorem segLoadDone_bad {ue : Option Nat} {s : State} {l : SegLoad} {r : List SegLoad} {i reason : Nat} (h : s.pat.loads = l :: r)
    (hr : segReason s l.addr l.width l.vectors ue = some (i, reason)) :
    ∃ t, exec (.segLoadDone ue) s = .next t ∧ (∀ k, k ≠ l.tag → t.prog k = s.prog k) ∧
      Ended (workEnd s l.tag (s.prog l.tag).ring.toNat 0x12 (0x8000 + reason) 0 0 1 0 0 i) t ∧
      t = { s with fw := { s.fw with progress := t.fw.progress }, harv := t.harv, flt := { s.flt with waiting := t.flt.waiting }, pat := { s.pat with loads := r } } := by
  have hr' : segReason (readEnded s r) l.addr l.width l.vectors ue = some (i, reason) := hr
  have hexec : exec (.segLoadDone ue) s = .next (endWork (readEnded s r) (workEnd (readEnded s r) l.tag (s.prog l.tag).ring.toNat 0x12 (0x8000 + reason) 0 0 1 0 0 i)) := by
    rw [show exec (.segLoadDone ue) s = execSegLoadDone ue s from rfl, execSegLoadDone, h]
    dsimp only
    rw [show ({ s with pat := { s.pat with loads := r } } : State) = readEnded s r from rfl, hr']
  generalize he : workEnd (readEnded s r) l.tag (s.prog l.tag).ring.toNat 0x12 (0x8000 + reason) 0 0 1 0 0 i = e at hexec
  have htag : e.tag = l.tag := by rw [← he]; rfl
  obtain ⟨p, g, w, hparts⟩ := endWork_parts (readEnded s r) e
  have hended := endWork_ended (readEnded s r) e
  refine ⟨_, hexec, fun k hk => (endWork_prog_ne _ e (by rw [htag]; exact hk)).trans rfl, ?_, by rw [hparts]; rfl⟩
  rw [← he] at hended ⊢
  exact hended

/-- What is left of a host pin: released, or as it was within the budget. -/
theorem registerRead_spec (s : State) (l : SegLoad) :
    (registerRead s l).segm l.segment = { s.segm l.segment with
        registered := true, addr := l.addr, vectors := l.vectors, width := l.width, hold := l.hold, resident := false, unusable := false, retried := false
        copy := if executing s l.segment then (s.segm l.segment).copy else {}
        hostPin := ((registerRead s l).segm l.segment).hostPin } ∧
      (((registerRead s l).segm l.segment).hostPin = false ∨ ((registerRead s l).segm l.segment).hostPin = (s.segm l.segment).hostPin ∧ pinSlots (registerRead s l) ≤ 3584) ∧
      (∀ g, g ≠ l.segment → (registerRead s l).segm g = s.segm g) ∧
      ∃ x, registerRead s l = { s with pat := { s.pat with segment := x } } := by
  unfold registerRead
  dsimp only
  generalize hu : s.modSegm l.segment _ = u
  have hown : u.segm l.segment = { s.segm l.segment with
      registered := true, addr := l.addr, vectors := l.vectors, width := l.width, hold := l.hold, resident := false
      copy := if executing s l.segment then (s.segm l.segment).copy else {}
      unusable := false, retried := false } := by rw [← hu, State.modSegm_segm, if_pos rfl]
  have hothers : ∀ g, g ≠ l.segment → u.segm g = s.segm g := fun g hg => by rw [← hu, State.modSegm_segm, if_neg hg]
  have hparts : ∃ x, u = { s with pat := { s.pat with segment := x } } := ⟨_, hu.symm⟩
  clear hu
  by_cases hfits : pinSlots u ≤ 3584
  · rw [if_pos hfits]
    refine ⟨?_, .inr ⟨?_, hfits⟩, hothers, hparts⟩
    · rw [hown]
    · rw [hown]
  · rw [if_neg hfits]
    obtain ⟨x, hx⟩ := hparts
    refine ⟨?_, .inl ?_, fun g hg => ?_, ⟨(u.modSegm l.segment (fun x => { x with hostPin := false })).pat.segment, ?_⟩⟩
    · rw [State.modSegm_segm, if_pos rfl, hown]
    · rw [State.modSegm_segm, if_pos rfl]
    · rw [State.modSegm_segm, if_neg hg, hothers g hg]
    · rw [hx]
      rfl

theorem segLoadDone_registers {ue : Option Nat} {s : State} {l : SegLoad} {r : List SegLoad} (h : s.pat.loads = l :: r)
    (hr : segReason s l.addr l.width l.vectors ue = none) :
    ∃ t, exec (.segLoadDone ue) s = .next t ∧ t.pat.loads = r ∧
      t.segm l.segment = { s.segm l.segment with registered := true, addr := l.addr, vectors := l.vectors, width := l.width, hold := l.hold, resident := false, copy := (t.segm l.segment).copy, unusable := false, retried := false, hostPin := (t.segm l.segment).hostPin } ∧
      (executing s l.segment = true → (t.segm l.segment).copy = (s.segm l.segment).copy) ∧
      (executing s l.segment = false → (t.segm l.segment).copy = {}) ∧
      ((t.segm l.segment).hostPin = false ∨ (t.segm l.segment).hostPin = (s.segm l.segment).hostPin ∧ pinSlots t ≤ 3584) ∧
      (∀ g, g ≠ l.segment → t.segm g = s.segm g) ∧ (∀ k, k ≠ l.tag → t.prog k = s.prog k) ∧
      Ended (workEnd s l.tag (s.prog l.tag).ring.toNat 0 0 0 0 1 0 0 0) t ∧
      t = { s with fw := { s.fw with progress := t.fw.progress }, harv := t.harv, flt := { s.flt with waiting := t.flt.waiting }, pat := { s.pat with loads := r, segment := t.pat.segment, fetch := t.pat.fetch, turn := t.pat.turn, fetchReady := t.pat.fetchReady } } := by
  have hr' : segReason (readEnded s r) l.addr l.width l.vectors ue = none := hr
  obtain ⟨hown, hpin, hothers, x, hx⟩ := registerRead_spec (readEnded s r) l
  have hexec : exec (.segLoadDone ue) s = .next (startFetch (endWork (registerRead (readEnded s r) l)
      (workEnd (registerRead (readEnded s r) l) l.tag (s.prog l.tag).ring.toNat 0 0 0 0 1 0 0 0))) := by
    rw [show exec (.segLoadDone ue) s = execSegLoadDone ue s from rfl, execSegLoadDone, h]
    dsimp only
    rw [show ({ s with pat := { s.pat with loads := r } } : State) = readEnded s r from rfl, hr']
    rfl
  have hcopy : (if executing (readEnded s r) l.segment then ((readEnded s r).segm l.segment).copy else {}) =
      if executing s l.segment then (s.segm l.segment).copy else {} := rfl
  rw [hcopy] at hown
  generalize registerRead (readEnded s r) l = u at hexec hown hpin hothers hx
  have hend : workEnd u l.tag (s.prog l.tag).ring.toNat 0 0 0 0 1 0 0 0 = workEnd s l.tag (s.prog l.tag).ring.toNat 0 0 0 0 1 0 0 0 := by rw [hx]; rfl
  rw [hend] at hexec
  have htag : (workEnd s l.tag (s.prog l.tag).ring.toNat 0 0 0 0 1 0 0 0).tag = l.tag := rfl
  have hended := endWork_ended u (workEnd s l.tag (s.prog l.tag).ring.toNat 0 0 0 0 1 0 0 0)
  generalize workEnd s l.tag (s.prog l.tag).ring.toNat 0 0 0 0 1 0 0 0 = e at hexec htag hended ⊢
  obtain ⟨p, g, w, hparts⟩ := endWork_parts u e
  have hprog : ∀ k, k ≠ l.tag → (endWork u e).prog k = s.prog k := fun k hk => (endWork_prog_ne u e (by rw [htag]; exact hk)).trans (by rw [hx]; rfl)
  obtain ⟨f, n, y, hfetch⟩ := startFetch_parts (endWork u e)
  rw [hfetch, hparts] at hexec
  rw [hparts] at hended hprog
  have hslots : ∀ v : State, v.pat.segment = u.pat.segment → pinSlots v = pinSlots u := fun v hv => by rw [pinSlots, hv]; rfl
  refine ⟨_, hexec, ?_, hown.trans ?_, fun hex => ?_, fun hex => ?_, hpin.imp_right fun ⟨ha, hb⟩ => ⟨ha, (hslots _ rfl).trans_le hb⟩, hothers, hprog, hended, ?_⟩
  · rw [hx]; rfl
  · have hc : (u.segm l.segment).copy = if executing s l.segment then (s.segm l.segment).copy else {} := by rw [hown]
    rw [← hc]
    rfl
  · have hc : (u.segm l.segment).copy = if executing s l.segment then (s.segm l.segment).copy else {} := by rw [hown]
    exact hc.trans (if_pos hex)
  · have hc : (u.segm l.segment).copy = if executing s l.segment then (s.segm l.segment).copy else {} := by rw [hown]
    exact hc.trans (if_neg (by rw [hex]; decide))
  · rw [hx]
    rfl

/-! SEG_PIN. -/

theorem segPinChecks_pass {s : State} {c : Current} (hseg : par c 0 < 16384) (hreg : (s.segm (par c 0)).registered = true) : ∀ x ∈ segPinChecks s c, x = none :=
  pass_cons (needParam_of 0 (by rw [decide_eq_true hseg, hreg]; rfl)) pass_nil

/-- PIN and FETCH answer a resident segment at once, and wait for another. -/
theorem segPinAnswer_spec {s : State} {c : Current} (h : s.fw.current = some c) :
    ((s.segm (par c 0)).resident = true → Answered c 0 0 [w16 (segSlots (s.segm (par c 0)))] s (segPinAnswer s c)) ∧
      ((s.segm (par c 0)).resident = false → Waits c .segPin [] (startFetch s) (segPinAnswer s c)) := by
  refine ⟨fun hres => ?_, fun hres => ?_⟩
  · rw [segPinAnswer, if_pos hres]
    exact postResponse_answered s c 0 0 _ h
  · rw [segPinAnswer, if_neg (by rw [hres]; decide)]
    obtain ⟨f, n, r, hfetch⟩ := startFetch_parts s
    exact waitFor_waits .segPin [] (by rw [hfetch]; exact h)

/-- A change of a segment that keeps its extent and its residency, before PIN or FETCH answers. -/
theorem segPin_answers {s : State} {c : Current} (h : s.fw.current = some c) (f : Segment → Segment) (hres : (f (s.segm (par c 0))).resident = (s.segm (par c 0)).resident)
    (hslots : segSlots (f (s.segm (par c 0))) = segSlots (s.segm (par c 0))) :
    ((s.segm (par c 0)).resident = true → Answered c 0 0 [w16 (segSlots (s.segm (par c 0)))] (s.modSegm (par c 0) f) (segPinAnswer (s.modSegm (par c 0) f) c)) ∧
      ((s.segm (par c 0)).resident = false → Waits c .segPin [] (startFetch (s.modSegm (par c 0) f)) (segPinAnswer (s.modSegm (par c 0) f) c)) := by
  have hown : (s.modSegm (par c 0) f).segm (par c 0) = f (s.segm (par c 0)) := by rw [State.modSegm_segm, if_pos rfl]
  have hspec := segPinAnswer_spec (s := s.modSegm (par c 0) f) (c := c) h
  rw [hown, hres, hslots] at hspec
  exact hspec

theorem segPinPin_pins {s : State} {c : Current} (h : Picked s 0x0301 c) (ha : par c 1 = 0) (hseg : par c 0 < 16384) (hreg : (s.segm (par c 0)).registered = true)
    (hfits : pinFits s (par c 0) = true) :
    ∃ u t, exec .segPinPin s = .next t ∧ u = s.modSegm (par c 0) (fun x => { x with hostPin := true, queued := !x.resident }) ∧
      ((s.segm (par c 0)).resident = true → Answered c 0 0 [w16 (segSlots (s.segm (par c 0)))] u t) ∧
      ((s.segm (par c 0)).resident = false → Waits c .segPin [] (startFetch u) t) := by
  have hexec : exec .segPinPin s = .next (segPinAnswer (s.modSegm (par c 0) (fun x => { x with hostPin := true, queued := !x.resident })) c) :=
    congrArg Host.Outcome.next ((onCommand_picked h (fun p => decide (wAt p 1 = 0)) _ (decide_eq_true ha)).trans
      (checked_pass _ (firstBad_pass (pass_append (segPinChecks_pass hseg hreg) (pass_cons (needBusy_eq_none.2 hfits) pass_nil)))))
  exact ⟨_, _, hexec, rfl, segPin_answers h.1 _ rfl rfl⟩

theorem segPinPin_full {s : State} {c : Current} (h : Picked s 0x0301 c) (ha : par c 1 = 0) (hseg : par c 0 < 16384) (hreg : (s.segm (par c 0)).registered = true)
    (hfits : pinFits s (par c 0) = false) : ∃ t, exec .segPinPin s = .next t ∧ Answered c 0x10 0 [] s t := by
  refine picked_bad (k := fun _ => _) h (decide_eq_true ha) rfl ?_
  rw [firstBad_append (segPinChecks_pass hseg hreg), hfits]
  rfl

theorem segPinUnpin_unpins {s : State} {c : Current} (h : Picked s 0x0301 c) (ha : par c 1 = 1) (hseg : par c 0 < 16384) (hreg : (s.segm (par c 0)).registered = true) :
    ∃ t, exec .segPinUnpin s = .next t ∧
      Answered c 0 0 [w16 (segSlots (s.segm (par c 0)))] (s.modSegm (par c 0) (fun x => { x with hostPin := false })) t :=
  picked_ok (k := fun _ => _) h (decide_eq_true ha) rfl (firstBad_pass (segPinChecks_pass hseg hreg)) rfl h.1

theorem segPinFetch_fetches {s : State} {c : Current} (h : Picked s 0x0301 c) (ha : par c 1 = 3) (hseg : par c 0 < 16384) (hreg : (s.segm (par c 0)).registered = true) :
    ∃ u t, exec .segPinFetch s = .next t ∧
      u = s.modSegm (par c 0) (fun x => { x with queued := !x.resident, unusable := x.unusable && x.resident }) ∧
      ((s.segm (par c 0)).resident = true → Answered c 0 0 [w16 (segSlots (s.segm (par c 0)))] u t) ∧
      ((s.segm (par c 0)).resident = false → Waits c .segPin [] (startFetch u) t) := by
  have hexec : exec .segPinFetch s = .next (segPinAnswer (s.modSegm (par c 0) (fun x => { x with queued := !x.resident, unusable := x.unusable && x.resident })) c) :=
    congrArg Host.Outcome.next ((onCommand_picked h (fun p => decide (wAt p 1 = 3)) _ (decide_eq_true ha)).trans (checked_pass _ (firstBad_pass (segPinChecks_pass hseg hreg))))
  exact ⟨_, _, hexec, rfl, segPin_answers h.1 _ rfl rfl⟩

/-- The frames of a site's loops without the pins of segment `g`. -/
def unpinLoops (g : Nat) (x : SeqState) : SeqState := { x with loops := x.loops.map (fun f => { f with pins := f.pins.filter (fun i => decide (i ≠ g)) }) }

theorem foldl_unpinLoops (g : Nat) (l : List Nat) (hl : l.Nodup) (s : State) :
    (∃ x, l.foldl (fun s q => s.modSeq q (unpinLoops g)) s = { s with pat := { s.pat with seq := x } }) ∧
      ∀ q, (l.foldl (fun s q => s.modSeq q (unpinLoops g)) s).seq q = if q ∈ l then unpinLoops g (s.seq q) else s.seq q := by
  refine ⟨?_, fun q => foldl_keyed (get := State.seq) (fun s a k => State.modSeq_seq ..) hl s q⟩
  have hkept := foldl_same (F := fun s : State => { s with pat := { s.pat with seq := [] } }) (step := fun s q => s.modSeq q (unpinLoops g)) (fun _ _ => rfl) l s
  generalize l.foldl _ s = u at hkept ⊢
  exact ⟨u.pat.seq, congrArg (fun t : State => { t with pat := { t.pat with seq := u.pat.seq } }) hkept⟩

theorem segPinUnpinAll_unpins {s : State} {c : Current} (h : Picked s 0x0301 c) (ha : par c 1 = 2) (hseg : par c 0 < 16384) (hreg : (s.segm (par c 0)).registered = true) :
    ∃ u t, exec .segPinUnpinAll s = .next t ∧ Answered c 0 0 [w16 (segSlots (s.segm (par c 0)))] u t ∧
      u.segm (par c 0) = { s.segm (par c 0) with hostPin := false, loopPins := 0 } ∧ (∀ g, g ≠ par c 0 → u.segm g = s.segm g) ∧
      u = { s with pat := { s.pat with segment := u.pat.segment, seq := u.pat.seq } } ∧
      (∀ q, u.seq q = { s.seq q with loops := (u.seq q).loops }) ∧
      (∀ q, q < 64 → (u.seq q).loops = (s.seq q).loops.map (fun f => { f with pins := f.pins.filter (fun i => decide (i ≠ par c 0)) })) := by
  generalize hv : s.modSegm (par c 0) (fun x => { x with hostPin := false, loopPins := 0 }) = v
  obtain ⟨⟨x, hx⟩, hseq⟩ := foldl_unpinLoops (par c 0) (List.range 64) List.nodup_range v
  generalize hu : (List.range 64).foldl (fun s q => s.modSeq q (unpinLoops (par c 0))) v = u at hx hseq
  have hexec : exec .segPinUnpinAll s = .next (postOk u [w16 (segSlots (u.segm (par c 0)))]) := by
    rw [← hu, ← hv]
    exact congrArg Host.Outcome.next ((onCommand_picked h (fun p => decide (wAt p 1 = 2)) _ (decide_eq_true ha)).trans (checked_pass _ (firstBad_pass (segPinChecks_pass hseg hreg))))
  have hsegm : ∀ g, u.segm g = if g = par c 0 then { s.segm (par c 0) with hostPin := false, loopPins := 0 } else s.segm g := fun g => by
    have hsame : u.segm g = v.segm g := by rw [hx]; rfl
    rw [hsame, ← hv]
    exact State.modSegm_segm ..
  have hold : ∀ q, v.seq q = s.seq q := fun q => by rw [← hv]; rfl
  have hslots : segSlots (u.segm (par c 0)) = segSlots (s.segm (par c 0)) := by rw [hsegm, if_pos rfl]; rfl
  rw [hslots] at hexec
  refine ⟨u, _, hexec, postResponse_answered u c 0 0 _ (by rw [hx, ← hv]; exact h.1), (hsegm _).trans (if_pos rfl), fun g hg => (hsegm g).trans (if_neg hg), ?_, fun q => ?_, fun q hq => ?_⟩
  · rw [hx, ← hv]
    rfl
  · rw [hseq q, hold]
    split
    · rfl
    · rfl
  · rw [hseq q, if_pos (List.mem_range.2 hq), hold]
    rfl

theorem segPinTimeout_answers {s : State} {c : Current} (hcur : s.fw.current = some c) (hwait : c.wait = .segPin) :
    ∃ t, exec .segPinResidencyTimeout s = .next t ∧ Answered c 0x10 1 [] s t := by
  have hw : waitsFor s .segPin = true := by
    rw [waitsFor, hcur]
    exact decide_eq_true hwait
  exact ⟨_, congrArg Host.Outcome.next (if_pos hw), postResponse_answered s c 0x10 1 [] hcur⟩

theorem segPinTimeout_noWait {s : State} (h : waitsFor s .segPin = false) : exec .segPinResidencyTimeout s = .next s :=
  congrArg Host.Outcome.next (if_neg (by rw [h]; decide))

end Sys2Proof.Machine
end

section
/-! PROOFS. The last part of BURST_RUN, for O24 and O25: how a site is armed, and then every site of the mask. -/

set_option Elab.async false

namespace Sys2Proof.Machine

/-! One pin. -/

theorem armPin_parts (s : State) (p : Nat) : ∃ x y, armPin s p = { s with pins := { s.pins with pin := x }, edge := { s.edge with slice := y } } := ⟨_, _, rfl⟩

theorem armPin_others (s : State) (p : Nat) {k : Nat} (h : k ≠ p) : (armPin s p).pinst k = s.pinst k ∧ (armPin s p).slices k = s.slices k := by
  unfold armPin setDriver
  refine ⟨?_, ?_⟩
  · show (s.modPinst p (fun x => { x with lastCode := 16 })).pinst k = _
    rw [State.modPinst_pinst, if_neg h]
  · rw [State.modSlices_slices, if_neg h, State.modSlices_slices, if_neg h]
    rfl

theorem foldl_armPin (l : List Nat) (s : State) :
    (∃ x y, l.foldl armPin s = { s with pins := { s.pins with pin := x }, edge := { s.edge with slice := y } }) ∧
      ∀ k, k ∉ l → (l.foldl armPin s).pinst k = s.pinst k ∧ (l.foldl armPin s).slices k = s.slices k := by
  induction l generalizing s with
  | nil => exact ⟨⟨s.pins.pin, s.edge.slice, rfl⟩, fun _ _ => ⟨rfl, rfl⟩⟩
  | cons p l ih =>
    obtain ⟨x, y, hp⟩ := armPin_parts s p
    obtain ⟨⟨x', y', hl⟩, hothers⟩ := ih (armPin s p)
    refine ⟨⟨x', y', by rw [List.foldl_cons, hl, hp]⟩, fun k hk => ?_⟩
    obtain ⟨hk1, hk2⟩ := not_or.1 fun h => hk (List.mem_cons.2 h)
    obtain ⟨hpin, hslice⟩ := armPin_others s p hk1
    obtain ⟨hpin', hslice'⟩ := hothers k hk2
    rw [List.foldl_cons]
    exact ⟨hpin'.trans hpin, hslice'.trans hslice⟩

/-! One site. -/

/-- A site that BURST_RUN has armed. -/
def armedSite (c : Current) (tag : Nat) (start : BurstStart) (lanes : List Nat) (pin : Option Nat) (held : Bool) : SeqState :=
  { lanes := lanes, mode := .armed, stream := par c 4, tag := tag, ring := c.ring.toNat
    resultRing := if par c 13 = 0xFFFF then c.ring.toNat else par c 13
    starveAbort := (par c 11).testBit 0, segEvents := (par c 11).testBit 1, logMode := par c 11 / 4 % 4, failLimit := par c 12
    start := start, entry := par c 5, endCredit := held, entryPin := pin }

/-- Credit of `n` units is taken, or asked for. -/
def claimCredit (s : State) (r n : Nat) (w : Waiter) : State × Bool := (reserve s r n).elim (joinWaiters s r w n, false) (fun t => (t, true))

theorem claimCredit_spec (s : State) (r n : Nat) (w : Waiter) :
    (∃ g, (claimCredit s r n w).1 = { s with harv := { s.harv with ring := g } }) ∧ ∀ k, k ≠ r → (claimCredit s r n w).1.ring k = s.ring k := by
  unfold claimCredit
  cases hres : reserve s r n with
  | some t =>
    rw [reserve_ring hres]
    exact ⟨⟨_, rfl⟩, fun k hk => by rw [Option.elim_some, State.modRing_ring, if_neg hk]⟩
  | none =>
    rw [Option.elim_none, joinWaiters]
    split
    · exact ⟨⟨s.harv.ring, rfl⟩, fun _ _ => rfl⟩
    · exact ⟨⟨_, rfl⟩, fun k hk => by rw [State.modRing_ring, if_neg hk]⟩

/-- A site as its progress entry and its credit stand. -/
def armBegun (s : State) (c : Current) (tag q : Nat) : State × Bool :=
  let s := beginWork s tag 0x0303 c.ring.toNat 1 false
  claimCredit s (ringOf c (par c 13)) (summaryUnits (s.seq q).lanes.length) (.burstEnd q)

theorem armSite_eq (s : State) (c : Current) (tag q : Nat) (start : BurstStart) :
    armSite s c tag q start = (((beginWork s tag 0x0303 c.ring.toNat 1 false).seq q).lanes.foldl armPin (armBegun s c tag q).1).modSeq q (fun _ =>
      armedSite c tag start ((beginWork s tag 0x0303 c.ring.toNat 1 false).seq q).lanes
        (entrySeg (((beginWork s tag 0x0303 c.ring.toNat 1 false).seq q).lanes.foldl armPin (armBegun s c tag q).1) (par c 4) (par c 5)) (armBegun s c tag q).2) := by
  have hlog : bits (par c 11) 2 2 = par c 11 / 4 % 4 := by rw [bits, Nat.shiftRight_eq_div_pow]; rfl
  unfold armSite armBegun claimCredit armedSite
  dsimp only
  rw [hlog]
  cases reserve (beginWork s tag 0x0303 c.ring.toNat 1 false) (ringOf c (par c 13))
    (summaryUnits ((beginWork s tag 0x0303 c.ring.toNat 1 false).seq q).lanes.length) with
  | none => rfl
  | some t => rfl

theorem armBegun_spec (s : State) (c : Current) (tag q : Nat) :
    (∃ p g, (armBegun s c tag q).1 = { s with fw := { s.fw with progress := p }, harv := g }) ∧
      (∀ k, (armBegun s c tag q).1.prog k = if k = tag then { opcode := 0x0303, state := .running, ring := w16 c.ring.toNat, output := 1 } else s.prog k) ∧
      ∀ r, r ≠ c.ring.toNat → r ≠ (if par c 13 = 0xFFFF then c.ring.toNat else par c 13) → (armBegun s c tag q).1.ring r = s.ring r := by
  unfold armBegun
  dsimp only
  have hprog := fun k => beginWork_prog s tag 0x0303 c.ring.toNat 1 k false
  obtain ⟨-, -, hring, -⟩ := beginWork_begun s tag 0x0303 c.ring.toNat 1 false
  obtain ⟨p, g, hparts⟩ := beginWork_parts s tag 0x0303 c.ring.toNat 1 false
  generalize beginWork s tag 0x0303 c.ring.toNat 1 false = v at hprog hring hparts ⊢
  obtain ⟨⟨g', hclaim⟩, hrings⟩ := claimCredit_spec v (ringOf c (par c 13)) (summaryUnits (v.seq q).lanes.length) (.burstEnd q)
  refine ⟨⟨p, _, by rw [hclaim, hparts]⟩, fun k => ?_, fun r hr hres => (hrings r hres).trans (hring r hr)⟩
  have hfw : (claimCredit v (ringOf c (par c 13)) (summaryUnits (v.seq q).lanes.length) (.burstEnd q)).1.prog k = v.prog k := by
    rw [hclaim]
    rfl
  exact hfw.trans (hprog k)

/-- `u` is `s` with the sites of `l`, in order, armed under tags from `tag` on. -/
structure SitesArmed (c : Current) (start : BurstStart) (tag : Nat) (l : List Nat) (s u : State) : Prop where
  site : ∀ i, i < l.length → u.seq (l.getD i 0) = armedSite c (tag + i) start (s.seq (l.getD i 0)).lanes (s.strm (par c 4)).list[par c 5]? (u.seq (l.getD i 0)).endCredit
  others : ∀ q, q ∉ l → u.seq q = s.seq q
  prog : ∀ k, u.prog k = if tag ≤ k ∧ k < tag + l.length then { opcode := 0x0303, state := .running, ring := w16 c.ring.toNat, output := 1 } else s.prog k
  pins : ∀ p, (∀ q ∈ l, p ∉ (s.seq q).lanes) → u.pinst p = s.pinst p ∧ u.slices p = s.slices p
  ring : ∀ r, r ≠ c.ring.toNat → r ≠ (if par c 13 = 0xFFFF then c.ring.toNat else par c 13) → u.ring r = s.ring r
  parts : u = { s with fw := { s.fw with progress := u.fw.progress }, pins := { s.pins with pin := u.pins.pin }, edge := { s.edge with slice := u.edge.slice }, harv := u.harv,
                       pat := { s.pat with seq := u.pat.seq } }

theorem armSite_armed (s : State) (c : Current) (tag q : Nat) (start : BurstStart) : SitesArmed c start tag [q] s (armSite s c tag q start) := by
  have hseqs : ∀ k, (beginWork s tag 0x0303 c.ring.toNat 1 false).seq k = s.seq k := fun k => by
    obtain ⟨p, g, hparts⟩ := beginWork_parts s tag 0x0303 c.ring.toNat 1 false
    rw [hparts]
    rfl
  rw [armSite_eq, hseqs]
  obtain ⟨⟨p, g, hparts⟩, hprog, hring⟩ := armBegun_spec s c tag q
  generalize armBegun s c tag q = v at hparts hprog hring ⊢
  obtain ⟨⟨x, y, hpins⟩, hothers⟩ := foldl_armPin (s.seq q).lanes v.1
  generalize (s.seq q).lanes.foldl armPin v.1 = w at hpins hothers ⊢
  have hw : w = { s with fw := { s.fw with progress := p }, harv := g, pins := { s.pins with pin := x }, edge := { s.edge with slice := y } } := by rw [hpins, hparts]
  have hentry : entrySeg w (par c 4) (par c 5) = (s.strm (par c 4)).list[par c 5]? := by rw [hw]; rfl
  have hold : ∀ k, w.seq k = s.seq k := fun k => by rw [hw]; rfl
  rw [hentry]
  generalize hsite : armedSite c tag start (s.seq q).lanes (s.strm (par c 4)).list[par c 5]? v.2 = a
  have hseq : ∀ k, (w.modSeq q (fun _ => a)).seq k = if k = q then a else s.seq k := fun k => by
    rw [State.modSeq_seq]
    exact if_congr Iff.rfl rfl (hold k)
  refine ⟨fun i hi => ?_, fun k hk => ?_, fun k => ?_, fun k hk => ?_, fun r hr hres => ?_, ?_⟩
  · have hi0 : i = 0 := by rw [List.length_singleton] at hi; omega
    subst hi0
    show (w.modSeq q (fun _ => a)).seq q = armedSite c tag start (s.seq q).lanes _ ((w.modSeq q (fun _ => a)).seq q).endCredit
    rw [hseq, if_pos rfl, ← hsite]
    rfl
  · rw [hseq, if_neg (by simpa using hk)]
  · have hk : (w.modSeq q (fun _ => a)).prog k = v.1.prog k := by rw [hpins]; rfl
    rw [hk, hprog]
    exact if_congr (by rw [List.length_singleton]; omega) rfl rfl
  · obtain ⟨hpin, hslice⟩ := hothers k (hk q (List.mem_singleton.2 rfl))
    refine ⟨hpin.trans ?_, hslice.trans ?_⟩
    · rw [hparts]; rfl
    · rw [hparts]; rfl
  · have hr' : (w.modSeq q (fun _ => a)).ring r = v.1.ring r := by rw [hpins]; rfl
    rw [hr', hring r hr hres]
  · rw [hw]
    rfl

/-- Arming more sites after the first ones. -/
theorem sitesArmed_append {c : Current} {start : BurstStart} {tag : Nat} {l : List Nat} {q : Nat} {s u v : State} (hq : q ∉ l) (h : SitesArmed c start tag l s u)
    (h' : SitesArmed c start (tag + l.length) [q] u v) : SitesArmed c start tag (l ++ [q]) s v := by
  have hstrm : ∀ n, u.strm n = s.strm n := fun n => by rw [h.parts]; rfl
  have hlast : v.seq q = armedSite c (tag + l.length) start (s.seq q).lanes (s.strm (par c 4)).list[par c 5]? (v.seq q).endCredit := by
    have := h'.site 0 (by simp)
    rw [← h.others q hq, ← hstrm]
    exact this
  refine ⟨fun i hi => ?_, fun k hk => ?_, fun k => ?_, fun p hp => ?_, fun r hr hres => (h'.ring r hr hres).trans (h.ring r hr hres), ?_⟩
  · rw [List.length_append, List.length_singleton] at hi
    by_cases hil : i < l.length
    · have hget : (l ++ [q]).getD i 0 = l.getD i 0 := List.getD_append _ _ _ _ hil
      have hne : l.getD i 0 ∉ [q] := by
        rw [List.mem_singleton]
        intro he
        refine hq (he ▸ ?_)
        rw [List.getD_eq_getElem _ _ hil]
        exact List.getElem_mem hil
      rw [hget, h'.others _ hne]
      exact h.site i hil
    · have hieq : i = l.length := by omega
      subst hieq
      rw [List.getD_append_right _ _ _ _ (Nat.le_refl _), Nat.sub_self]
      exact hlast
  · rw [h'.others k fun hmem => hk (List.mem_append_right _ hmem), h.others k fun hmem => hk (List.mem_append_left _ hmem)]
  · rw [h'.prog, h.prog, List.length_append]
    simp only [List.length_singleton]
    by_cases hk : tag + l.length ≤ k ∧ k < tag + l.length + 1
    · rw [if_pos hk, if_pos (by omega)]
    · rw [if_neg hk]
      exact if_congr (by omega) rfl rfl
  · obtain ⟨hpin, hslice⟩ := h.pins p fun k hk => hp k (List.mem_append_left _ hk)
    obtain ⟨hpin', hslice'⟩ := h'.pins p fun k hk => by
      rw [List.mem_singleton.1 hk, h.others q hq]
      exact hp q (List.mem_append_right _ (List.mem_singleton.2 rfl))
    exact ⟨hpin'.trans hpin, hslice'.trans hslice⟩
  · have hu := h.parts
    have hv := h'.parts
    generalize v.fw.progress = a1, v.pins.pin = a2, v.edge.slice = a3, v.harv = a4, v.pat.seq = a5 at hv ⊢
    rw [hu] at hv
    exact hv

theorem sitesArmed_refl (c : Current) (start : BurstStart) (tag : Nat) (s : State) : SitesArmed c start tag [] s s :=
  ⟨fun i hi => absurd hi (by simp), fun _ _ => rfl, fun k => (if_neg (by rw [List.length_nil]; omega)).symm, fun _ _ => ⟨rfl, rfl⟩, fun _ _ _ => rfl, rfl⟩

theorem foldl_armSite (c : Current) (tag : Nat) (start : BurstStart) (l : List Nat) (hl : l.Nodup) (s : State) :
    SitesArmed c start tag l s ((List.range l.length).foldl (fun s i => armSite s c (tag + i) (l.getD i 0) start) s) := by
  induction l using List.reverseRecOn with
  | nil => exact sitesArmed_refl c start tag s
  | append_singleton l q ih =>
    obtain ⟨hl', -, hdisj⟩ := List.nodup_append.1 hl
    have hq : q ∉ l := fun hmem => hdisj q hmem q (List.mem_singleton.2 rfl) rfl
    have hprefix : (List.range l.length).foldl (fun s i => armSite s c (tag + i) ((l ++ [q]).getD i 0) start) s =
        (List.range l.length).foldl (fun s i => armSite s c (tag + i) (l.getD i 0) start) s :=
      List.foldl_ext _ _ _ fun u i hi => by rw [List.getD_append _ _ _ _ (List.mem_range.1 hi)]
    have hlast : (l ++ [q]).getD l.length 0 = q := by
      rw [List.getD_append_right _ _ _ _ (Nat.le_refl _), Nat.sub_self]
      rfl
    rw [List.length_append, List.length_singleton, List.range_succ, List.foldl_append, List.foldl_cons, List.foldl_nil, hprefix, hlast]
    exact sitesArmed_append hq (ih hl') (armSite_armed ..)

/-! The response. -/

/-- The start that BURST_RUN asks for, in the state in which it is armed. -/
def burstStart (s : State) (c : Current) : BurstStart := startOf s c 6 (bits (par c 11) 4 2) (bit (par c 11) 6)

theorem burstStart_asked (s : State) (c : Current) : StartsAsAsked c s (burstStart s c) := by
  have htin : bits (par c 11) 4 2 = par c 11 / 16 % 4 := by rw [bits, Nat.shiftRight_eq_div_pow]; rfl
  rw [burstStart, htin]
  exact startOf_asked c s 6 _ _

/-- Every site of the mask is armed and the response posted, with the number of sites short of credit. -/
theorem armBurst_arms {s : State} {c : Current} (h : s.fw.current = some c) (hlead : par c 6 = 1 → s.clk.time + 6400 ≤ par64 c 7) :
    ∃ u n, Answered c 1 0 ([w16 (seqMask c).length] ++ toWords 4 (startTicks (burstStart s c)) ++ [c.tag, w16 n]) (startFetch u) (armBurst s c) ∧
      SitesArmed c (burstStart s c) c.tag.toNat (seqMask c) s u := by
  have hearly : ¬(par c 6 = 1 ∧ startTicks (burstStart s c) < s.now + 6400) := by
    rintro ⟨h1, hlt⟩
    obtain ⟨ts, hts, hle, -⟩ := (burstStart_asked s c).2.1 h1
    have hmin := hlead h1
    rw [hts] at hlt
    exact absurd (lt_of_lt_of_le hlt (hmin.trans hle)) (lt_irrefl _)
  have harmed := foldl_armSite c c.tag.toNat (burstStart s c) (seqMask c) (nodup_maskList 64 _) s
  have heq : armBurst s c = if par c 6 = 1 ∧ startTicks (burstStart s c) < s.now + 6400 then
      postBad (s.modSegm ((entrySeg s (par c 4) (par c 5)).getD 0) (fun x => { x with entryPins := x.entryPins - (seqMask c).length })) (0x12, 0x8004)
    else
      let v := startFetch ((List.range (seqMask c).length).foldl (fun v i => armSite v c (c.tag.toNat + i) ((seqMask c).getD i 0) (burstStart s c)) s)
      postResponse v 1 0 ([w16 (seqMask c).length] ++ toWords 4 (startTicks (burstStart s c)) ++ [c.tag, w16 ((List.range (seqMask c).length).filter (fun i =>
        !(v.seq ((seqMask c).getD i 0)).endCredit || !v.harv.credit.any (fun x => decide (x.1 = c.tag.toNat + i)))).length]) := by
    unfold armBurst burstStart
    rfl
  rw [heq, if_neg hearly]
  clear heq
  dsimp only
  generalize (List.range (seqMask c).length).foldl (fun v i => armSite v c (c.tag.toNat + i) ((seqMask c).getD i 0) (burstStart s c)) s = u at harmed ⊢
  have hcur : (startFetch u).fw.current = some c := by
    obtain ⟨f, n, r, hfetch⟩ := startFetch_parts u
    rw [hfetch, harmed.parts]
    exact h
  exact ⟨u, _, postResponse_answered _ c 1 0 _ hcur, harmed⟩

theorem sitesArmed_armed {c : Current} {start : BurstStart} {s u : State} (h : SitesArmed c start c.tag.toNat (seqMask c) s u) : Armed c start s u := fun i hi =>
  ⟨h.site i hi, (h.prog _).trans (if_pos (by omega))⟩

end Sys2Proof.Machine
end

section
/-! PROOFS. O24, continued: what the streamer fetches next, the end of a fetch, and the obligation. -/

set_option Elab.async false

namespace Sys2Proof.Machine

/-! The next fetch. -/

theorem nextFetch_fetchable {s : State} {g t : Nat} (h : nextFetch s = some (g, t)) : fetchable s g = true := by
  unfold nextFetch at h
  rcases Option.or_eq_some_iff.1 h with hwanted | ⟨-, hqueued⟩
  · obtain ⟨prio, -, hprio⟩ := List.exists_of_findSome?_eq_some hwanted
    obtain ⟨k, -, hk⟩ := List.exists_of_findSome?_eq_some hprio
    obtain ⟨g', hfind, heq⟩ := Option.map_eq_some_iff.1 hk
    have hg : g' = g := congrArg Prod.fst heq
    exact hg ▸ List.find?_some hfind
  · obtain ⟨g', hfind, heq⟩ := Option.map_eq_some_iff.1 hqueued
    have hg : g' = g := congrArg Prod.fst heq
    exact hg ▸ List.find?_some hfind

theorem nextFetch_none {s : State} (h : nextFetch s = none) :
    (∀ n prio g, n < 4 → prio < 4 → g ∈ wantedOf s n prio → fetchable s g = false) ∧ ∀ g ∈ queuedSegs s, fetchable s g = false := by
  unfold nextFetch at h
  obtain ⟨hwanted, hqueued⟩ := Option.or_eq_none_iff.1 h
  refine ⟨fun n prio g hn hprio hg => ?_, fun g hg => ?_⟩
  · have hk := List.findSome?_eq_none_iff.1 (List.findSome?_eq_none_iff.1 hwanted prio (List.mem_range.2 hprio)) (s.pat.turn + (n + 4 - s.pat.turn % 4) % 4)
      (mem_rangeFrom.2 (by omega))
    rw [show (s.pat.turn + (n + 4 - s.pat.turn % 4) % 4) % 4 = n from by omega] at hk
    exact Bool.eq_false_iff.2 (List.find?_eq_none.1 (Option.map_eq_none_iff.1 hk) g hg)
  · exact Bool.eq_false_iff.2 (List.find?_eq_none.1 (Option.map_eq_none_iff.1 hqueued) g hg)

theorem startFetch_spec (s : State) :
    startFetch s = { s with pat := { s.pat with fetch := (startFetch s).pat.fetch, turn := (startFetch s).pat.turn, fetchReady := (startFetch s).pat.fetchReady } } ∧
    (s.pat.fetch ≠ none ∨ s.clk.stemIdle = true ∨ s.blkReset 0x14 = true → startFetch s = s) ∧
    (s.pat.fetch = none → ∀ g, (startFetch s).pat.fetch = some g → fetchable s g = true) ∧
    (s.pat.fetch = none → s.clk.stemIdle = false → s.blkReset 0x14 = false → (startFetch s).pat.fetch = none →
      (∀ n prio g, n < 4 → prio < 4 → g ∈ wantedOf s n prio → fetchable s g = false) ∧ (∀ g ∈ queuedSegs s, fetchable s g = false)) := by
  refine ⟨?_, fun hheld => ?_, fun hnone g hg => ?_, fun hnone hidle hreset hstill => ?_⟩
  · obtain ⟨f, n, r, h⟩ := startFetch_parts s
    rw [h]
  · refine if_pos ?_
    rw [Bool.or_eq_true, Bool.or_eq_true, Option.isSome_iff_ne_none]
    exact hheld.elim (fun h => .inl (.inl h)) fun h => h.elim (fun h => .inl (.inr h)) .inr
  · unfold startFetch at hg
    split at hg
    · rw [hnone] at hg
      cases hg
    · split at hg
      · next g' t hnext =>
        rw [← Option.some.inj hg]
        exact nextFetch_fetchable hnext
      · rw [hnone] at hg
        cases hg
  · refine nextFetch_none ?_
    unfold startFetch at hstill
    rw [if_neg (by rw [hnone, hidle, hreset]; decide)] at hstill
    split at hstill
    · cases hstill
    · next hnext => exact hnext

/-! SEGMENT_FETCH_DONE. -/

theorem fetchDone_idle (g : SegId) (r : FetchResult) {s : State} (h : fetching s g.val = false ∨ s.clk.stemIdle = true) :
    exec (.segmentFetchDone g r) s = .next s := by
  refine congrArg Host.Outcome.next (if_pos ?_)
  rcases h with h | h
  · rw [h]
    rfl
  · rw [h, Bool.or_true]

/-- A fetch of a segment that can be fetched has ended. -/
theorem fetchDone_eq (g : SegId) (r : FetchResult) {s : State} (hf : fetching s g.val = true) (hidle : s.clk.stemIdle = false) (hg : fetchable s g.val = true) :
    exec (.segmentFetchDone g r) s = .next (match r with
      | .ok => landSegment (s.reach s.pat.fetchReady) g.val
      | .corrected ch => landSegment ((s.reach s.pat.fetchReady).raise 0x14 2 ch.val) g.val
      | .uncorrectable => if (s.segm g.val).retried then endFetch ((spoilSegment (s.reach s.pat.fetchReady) g.val).raise 0x14 3 g.val)
          else (s.reach s.pat.fetchReady).modSegm g.val (fun x => { x with retried := true })) := by
  have hg' : fetchable (s.reach s.pat.fetchReady) g.val = true := hg
  refine congrArg Host.Outcome.next ((if_neg (by rw [hf, hidle]; decide)).trans ((if_neg (by rw [hg']; decide)).trans ?_))
  cases r with
  | ok => rfl
  | corrected ch => rfl
  | uncorrectable => rfl

theorem makeRoom_fits {s : State} {need : Nat} (h : usedSlots s + need ≤ 4096) (n : Nat) : makeRoom s need n = some s := by
  cases n with
  | zero => exact if_pos h
  | succ n => exact if_pos h

theorem makeRoom_full {s : State} {need : Nat} (h : 4096 < usedSlots s + need) (hev : ∀ e ∈ s.pat.segment, evictable s e.1 = false) (n : Nat) : makeRoom s need n = none := by
  have hfull : ¬usedSlots s + need ≤ 4096 := by omega
  cases n with
  | zero => exact if_neg hfull
  | succ n =>
    have hempty : (tents s.pat.segment).filter (fun e => evictable s e.1) = [] :=
      List.filter_eq_nil_iff.2 fun e he => by
        rw [hev e (mem_of_mem_tents he)]
        decide
    rw [makeRoom, if_neg hfull, hempty]
    rfl

/-- The segment as it has come from DRAM. -/
def landed (s : State) (g : Nat) : State :=
  s.modSegm g (fun x => { x with resident := true, copy := readSegment s (s.segm g), queued := false, unusable := false, retried := false, used := s.now })

theorem landSegment_lands {s : State} {g : Nat} (hr : segReason s (s.segm g).addr (s.segm g).width (s.segm g).vectors none = none)
    (hfit : usedSlots s + segSlots (s.segm g) ≤ 4096) : landSegment s g = endFetch (nowResident (landed s g) g) := by
  unfold landSegment
  dsimp only
  rw [hr, makeRoom_fits hfit]
  rfl

theorem landed_segm (s : State) (g k : Nat) : (landed s g).segm k =
    if k = g then { s.segm g with resident := true, copy := readSegment s (s.segm g), queued := false, unusable := false, retried := false, used := s.clk.time } else s.segm k :=
  State.modSegm_segm ..

/-- A site that starves on segment `g` counts its entry as resident from now on. -/
def seesResident (list : Nat → Nat → Option Nat) (now g : Nat) (x : SeqState) : SeqState :=
  if x.mode = .starveHold ∧ list x.stream x.awaited = some g then { x with residentAt := max x.residentAt now } else x

theorem foldl_seesResident (list : Nat → Nat → Option Nat) (now g : Nat) (l : List Nat) (hl : l.Nodup) (s : State) :
    (∃ x, l.foldl (fun s q => s.modSeq q (seesResident list now g)) s = { s with pat := { s.pat with seq := x } }) ∧
      ∀ q, (l.foldl (fun s q => s.modSeq q (seesResident list now g)) s).seq q = if q ∈ l then seesResident list now g (s.seq q) else s.seq q := by
  refine ⟨?_, fun q => foldl_keyed (get := State.seq) (fun s a k => State.modSeq_seq ..) hl s q⟩
  have hkept := foldl_same (F := fun s : State => { s with pat := { s.pat with seq := [] } }) (step := fun s q => s.modSeq q (seesResident list now g)) (fun _ _ => rfl) l s
  generalize l.foldl _ s = u at hkept ⊢
  exact ⟨u.pat.seq, congrArg (fun t : State => { t with pat := { t.pat with seq := u.pat.seq } }) hkept⟩

/-- Every site sees segment `g` resident. -/
def sitesSee (s : State) (g : Nat) : State :=
  (List.range 64).foldl (fun s q => s.modSeq q (fun x =>
    if x.mode = .starveHold ∧ entrySeg s x.stream x.awaited = some g then { x with residentAt := max x.residentAt s.now } else x)) s

theorem sitesSee_eq (s : State) (g : Nat) : sitesSee s g = (List.range 64).foldl (fun s q => s.modSeq q (seesResident (entrySeg s) s.now g)) s := rfl

theorem sitesSee_spec (s : State) (g : Nat) :
    (∃ x, sitesSee s g = { s with pat := { s.pat with seq := x } }) ∧
      ∀ q, (sitesSee s g).seq q = if q < 64 then seesResident (entrySeg s) s.now g (s.seq q) else s.seq q := by
  have hfold : ∀ (l : List Nat) (v : State), (∃ x, v = { s with pat := { s.pat with seq := x } }) →
      l.foldl (fun s q => s.modSeq q (seesResident (entrySeg s) s.now g)) v = l.foldl (fun u q => u.modSeq q (seesResident (entrySeg s) s.now g)) v := by
    intro l
    induction l with
    | nil => exact fun _ _ => rfl
    | cons q l ih =>
      rintro v ⟨x, rfl⟩
      rw [List.foldl_cons, List.foldl_cons]
      exact ih _ ⟨_, rfl⟩
  rw [sitesSee_eq, hfold _ s ⟨s.pat.seq, rfl⟩]
  obtain ⟨hparts, hseq⟩ := foldl_seesResident (entrySeg s) s.now g (List.range 64) List.nodup_range s
  refine ⟨hparts, fun q => (hseq q).trans (if_congr List.mem_range rfl rfl)⟩

theorem seesResident_only (list : Nat → Nat → Option Nat) (now g : Nat) (x : SeqState) : seesResident list now g x = { x with residentAt := (seesResident list now g x).residentAt } := by
  unfold seesResident
  split
  · rfl
  · rfl

theorem sitesSee_seq (s : State) (g q : Nat) : (sitesSee s g).seq q = { s.seq q with residentAt := ((sitesSee s g).seq q).residentAt } := by
  rw [(sitesSee_spec s g).2 q]
  split
  · exact seesResident_only ..
  · rfl

theorem nowResident_eq (s : State) (g : Nat) : nowResident s g = match s.fw.current with
    | some c =>
      if c.wait = .entry ∧ entrySeg s (par c 4) (par c 5) = some g then armBurst (sitesSee s g) c
      else if c.wait = .segPin ∧ par c 0 = g then postOk (sitesSee s g) [w16 (segSlots (s.segm g))]
      else sitesSee s g
    | none => sitesSee s g := by
  obtain ⟨x, hx⟩ := (sitesSee_spec s g).1
  have hcur : (sitesSee s g).fw.current = s.fw.current := by rw [hx]
  have hsegm : (sitesSee s g).segm g = s.segm g := by rw [hx]; rfl
  have hentry : ∀ n e, entrySeg (sitesSee s g) n e = entrySeg s n e := fun n e => by rw [hx]; rfl
  have hun : nowResident s g = match (sitesSee s g).fw.current with
      | some c =>
        if c.wait = .entry ∧ entrySeg (sitesSee s g) (par c 4) (par c 5) = some g then armBurst (sitesSee s g) c
        else if c.wait = .segPin ∧ par c 0 = g then postOk (sitesSee s g) [w16 (segSlots ((sitesSee s g).segm g))]
        else sitesSee s g
      | none => sitesSee s g := by
    unfold nowResident
    rfl
  rw [hun, hcur]
  cases s.fw.current with
  | none => rfl
  | some c => simp only [hsegm, hentry]

theorem endFetch_parts (s : State) : ∃ f n r, endFetch s = { s with pat := { s.pat with fetch := f, turn := n, fetchReady := r } } := by
  obtain ⟨f, n, r, h⟩ := startFetch_parts { s with pat := { s.pat with fetch := none } }
  exact ⟨f, n, r, h⟩

/-- The segment has landed and every site has seen it. -/
theorem landedSeen_spec (s : State) (g : Nat) :
    (∃ x y, sitesSee (landed s g) g = { s with pat := { s.pat with segment := x, seq := y } }) ∧
      (∀ k, (sitesSee (landed s g) g).segm k = (landed s g).segm k) ∧
      (∀ q, (sitesSee (landed s g) g).seq q = { s.seq q with residentAt := ((sitesSee (landed s g) g).seq q).residentAt }) ∧
      ∀ q, q < 64 → (s.seq q).mode = .starveHold → entrySeg s (s.seq q).stream (s.seq q).awaited = some g → s.clk.time ≤ ((sitesSee (landed s g) g).seq q).residentAt := by
  obtain ⟨⟨y, hy⟩, hseq⟩ := sitesSee_spec (landed s g) g
  refine ⟨⟨_, y, hy⟩, fun k => by rw [hy]; rfl, fun q => sitesSee_seq (landed s g) g q, fun q hq hmode hentry => ?_⟩
  have hsees : seesResident (entrySeg (landed s g)) (landed s g).now g ((landed s g).seq q) = { s.seq q with residentAt := max (s.seq q).residentAt s.clk.time } :=
    if_pos ⟨hmode, hentry⟩
  rw [hseq q, if_pos hq, hsees]
  exact le_max_right _ _

/-! Chip time enters neither the judgement of a segment nor the room for it. -/

theorem segReason_reach (s : State) (t a w n : Nat) (ue : Option Nat) : segReason (s.reach t) a w n ue = segReason s a w n ue := by
  unfold State.reach
  generalize max s.clk.time t = m
  rfl

theorem usedSlots_reach (s : State) (t : Nat) : usedSlots (s.reach t) = usedSlots s := by
  unfold State.reach
  generalize max s.clk.time t = m
  rfl

theorem evictable_reach (s : State) (t g : Nat) : evictable (s.reach t) g = evictable s g := by
  unfold State.reach
  generalize max s.clk.time t = m
  rfl

/-- A segment whose time has come lands where it fits. -/
theorem landSegment_reach {s : State} {t g : Nat} (hr : segReason s (s.segm g).addr (s.segm g).width (s.segm g).vectors none = none)
    (hfit : usedSlots s + segSlots (s.segm g) ≤ 4096) : landSegment (s.reach t) g = endFetch (nowResident (landed (s.reach t) g) g) :=
  landSegment_lands ((segReason_reach s t _ _ _ _).trans hr) ((congrArg (· + segSlots (s.segm g)) (usedSlots_reach s t)).trans_le hfit)

theorem landed_reach_segm (s : State) (t g k : Nat) : (landed (s.reach t) g).segm k =
    if k = g then { s.segm g with resident := true, copy := readSegment s (s.segm g), queued := false, unusable := false, retried := false, used := max s.clk.time t } else s.segm k := by
  rw [landed_segm]
  unfold State.reach
  generalize max s.clk.time t = m
  rfl

theorem landed_current (s : State) (g : Nat) : (landed s g).fw.current = s.fw.current := rfl

/-- `v` is `s` at the time at which its fetch is over, with segment `g` landed and every site seeing it. -/
structure LandedIn (s : State) (t g : Nat) (v : State) : Prop where
  parts : ∃ x y, v = { s with clk := { s.clk with time := max s.clk.time t }, pat := { s.pat with segment := x, seq := y } }
  segm : ∀ k, v.segm k =
    if k = g then { s.segm g with resident := true, copy := readSegment s (s.segm g), queued := false, unusable := false, retried := false, used := max s.clk.time t } else s.segm k
  seq : ∀ q, v.seq q = { s.seq q with residentAt := (v.seq q).residentAt }
  sees : ∀ q, q < 64 → (s.seq q).mode = .starveHold → entrySeg s (s.seq q).stream (s.seq q).awaited = some g → max s.clk.time t ≤ (v.seq q).residentAt

theorem sitesSee_landedIn (s : State) (t g : Nat) : LandedIn s t g (sitesSee (landed (s.reach t) g) g) := by
  have hland := landed_reach_segm s t g
  unfold State.reach at hland ⊢
  generalize hm : max s.clk.time t = m at hland ⊢
  obtain ⟨hparts, hsegm, hseq, hsees⟩ := landedSeen_spec { s with clk := { s.clk with time := m } } g
  exact ⟨hm ▸ hparts, fun k => hm ▸ (hsegm k).trans (hland k), hseq, hm ▸ hsees⟩

theorem endFetch_landedIn {s v : State} {t g : Nat} (h : LandedIn s t g v) :
    (endFetch v).clk.time = max s.clk.time t ∧
      (endFetch v).segm g = { s.segm g with resident := true, copy := readSegment s (s.segm g), queued := false, unusable := false, retried := false, used := (endFetch v).clk.time } ∧
      (∀ k, k ≠ g → (endFetch v).segm k = s.segm k) ∧
      (∀ q, (endFetch v).seq q = { s.seq q with residentAt := ((endFetch v).seq q).residentAt }) ∧
      (∀ q, q < 64 → (s.seq q).mode = .starveHold → entrySeg s (s.seq q).stream (s.seq q).awaited = some g → (endFetch v).clk.time ≤ ((endFetch v).seq q).residentAt) ∧
      endFetch v = { s with clk := { s.clk with time := (endFetch v).clk.time }, pat := { s.pat with segment := (endFetch v).pat.segment, seq := (endFetch v).pat.seq, fetch := (endFetch v).pat.fetch, turn := (endFetch v).pat.turn, fetchReady := (endFetch v).pat.fetchReady } } := by
  obtain ⟨⟨x, y, hparts⟩, hsegm, hseq, hsees⟩ := h
  have htime : v.clk.time = max s.clk.time t := by rw [hparts]
  rw [← htime] at hsegm hsees ⊢
  obtain ⟨f, n, r, hend⟩ := endFetch_parts v
  rw [hend]
  refine ⟨rfl, (hsegm g).trans (if_pos rfl), fun k hk => (hsegm k).trans (if_neg hk), hseq, hsees, ?_⟩
  generalize max s.clk.time t = m at hparts
  rw [hparts]

theorem fetchDone_lands {g : SegId} {s : State} (hf : fetching s g.val = true) (hidle : s.clk.stemIdle = false) (hg : fetchable s g.val = true) (hcur : s.fw.current = none)
    (hr : segReason s (s.segm g.val).addr (s.segm g.val).width (s.segm g.val).vectors none = none) (hfit : usedSlots s + segSlots (s.segm g.val) ≤ 4096) :
    ∃ t, exec (.segmentFetchDone g .ok) s = .next t ∧ t.clk.time = max s.clk.time s.pat.fetchReady ∧
      t.segm g.val = { s.segm g.val with resident := true, copy := readSegment s (s.segm g.val), queued := false, unusable := false, retried := false, used := t.clk.time } ∧
      (∀ k, k ≠ g.val → t.segm k = s.segm k) ∧
      (∀ q, t.seq q = { s.seq q with residentAt := (t.seq q).residentAt }) ∧
      (∀ q, q < 64 → (s.seq q).mode = .starveHold → entrySeg s (s.seq q).stream (s.seq q).awaited = some g.val →
        t.clk.time ≤ (t.seq q).residentAt) ∧
      t = { s with clk := { s.clk with time := t.clk.time }, pat := { s.pat with segment := t.pat.segment, seq := t.pat.seq, fetch := t.pat.fetch, turn := t.pat.turn, fetchReady := t.pat.fetchReady } } := by
  have hexec : exec (.segmentFetchDone g .ok) s = .next (endFetch (sitesSee (landed (s.reach s.pat.fetchReady) g.val) g.val)) := by
    rw [fetchDone_eq g .ok hf hidle hg]
    dsimp only
    rw [landSegment_reach hr hfit, nowResident_eq, landed_current, show (s.reach s.pat.fetchReady).fw.current = none from hcur]
  exact ⟨_, hexec, endFetch_landedIn (sitesSee_landedIn s s.pat.fetchReady g.val)⟩

/-- A SEG_PIN that waits is answered as its segment lands. -/
theorem endFetch_answered {s v : State} {c : Current} {t g : Nat} {ws : List Word} (h : LandedIn s t g v) (hcur : s.fw.current = some c) :
    ∃ u, Answered c 0 0 ws u (endFetch (postOk v ws)) ∧ ((endFetch (postOk v ws)).segm g).resident = true ∧ (∀ k, k ≠ g → (endFetch (postOk v ws)).segm k = s.segm k) ∧
      u = { s with clk := { s.clk with time := max s.clk.time t }, pat := { s.pat with segment := u.pat.segment, seq := u.pat.seq, fetch := u.pat.fetch, turn := u.pat.turn, fetchReady := u.pat.fetchReady } } := by
  obtain ⟨⟨x, y, hparts⟩, hsegm, -, -⟩ := h
  have hans : Answered c 0 0 ws v (postOk v ws) := postResponse_answered v c 0 0 ws (by rw [hparts]; exact hcur)
  have hpat : (postOk v ws).pat = v.pat := by rw [hans.1]
  obtain ⟨f, n, r, hend⟩ := endFetch_parts (postOk v ws)
  have hk : ∀ k, (endFetch (postOk v ws)).segm k = v.segm k := fun k => by
    have h1 : (endFetch (postOk v ws)).pat.segment = v.pat.segment := by rw [hend, hpat]
    exact congrArg (fun x : Tab Segment => tget (fun _ => ({} : Segment)) x k) h1
  refine ⟨{ v with pat := { v.pat with fetch := f, turn := n, fetchReady := r } }, ?_, ?_, fun k hk' => (hk k).trans ((hsegm k).trans (if_neg hk')), ?_⟩
  · rw [hend, hpat]
    exact answered_pat hans _
  · rw [hk, hsegm, if_pos rfl]
  · generalize max s.clk.time t = m at hparts ⊢
    rw [hparts]

theorem fetchDone_answersPin {g : SegId} {s : State} {c : Current} (hf : fetching s g.val = true) (hidle : s.clk.stemIdle = false) (hg : fetchable s g.val = true)
    (hcur : s.fw.current = some c) (hwait : c.wait = .segPin) (hseg : par c 0 = g.val)
    (hr : segReason s (s.segm g.val).addr (s.segm g.val).width (s.segm g.val).vectors none = none) (hfit : usedSlots s + segSlots (s.segm g.val) ≤ 4096) :
    ∃ u t, exec (.segmentFetchDone g .ok) s = .next t ∧ Answered c 0 0 [w16 (segSlots (s.segm g.val))] u t ∧ (t.segm g.val).resident = true ∧
      (∀ k, k ≠ g.val → t.segm k = s.segm k) ∧
      u = { s with clk := { s.clk with time := max s.clk.time s.pat.fetchReady }, pat := { s.pat with segment := u.pat.segment, seq := u.pat.seq, fetch := u.pat.fetch, turn := u.pat.turn, fetchReady := u.pat.fetchReady } } := by
  have hslots : segSlots ((landed (s.reach s.pat.fetchReady) g.val).segm g.val) = segSlots (s.segm g.val) := by
    rw [landed_reach_segm, if_pos rfl]
    rfl
  have hexec : exec (.segmentFetchDone g .ok) s = .next (endFetch (postOk (sitesSee (landed (s.reach s.pat.fetchReady) g.val) g.val) [w16 (segSlots (s.segm g.val))])) := by
    rw [fetchDone_eq g .ok hf hidle hg]
    dsimp only
    rw [landSegment_reach hr hfit, nowResident_eq, landed_current, show (s.reach s.pat.fetchReady).fw.current = some c from hcur, hslots]
    dsimp only
    rw [if_neg (by rw [hwait]; exact fun h => absurd h.1 (by decide)), if_pos ⟨hwait, hseg⟩]
  obtain ⟨u, hans, hres, hothers, hu⟩ := endFetch_answered (ws := [w16 (segSlots (s.segm g.val))]) (sitesSee_landedIn s s.pat.fetchReady g.val) hcur
  exact ⟨u, _, hexec, hans, hres, hothers, hu⟩

/-- A BURST_RUN that waits arms its sites as its entry segment lands. -/
theorem endFetch_armed {s v : State} {c : Current} {t g : Nat} (h : LandedIn s t g v) (hcur : s.fw.current = some c)
    (hlead : par c 6 = 1 → max s.clk.time t + 6400 ≤ par64 c 7) :
    ∃ u st n, Answered c 1 0 ([w16 (seqMask c).length] ++ toWords 4 (startTicks st) ++ [c.tag, w16 n]) u (endFetch (armBurst v c)) ∧
      ((endFetch (armBurst v c)).segm g).resident = true ∧ (∀ k, k ≠ g → (endFetch (armBurst v c)).segm k = s.segm k) ∧ Armed c st s (endFetch (armBurst v c)) ∧
      StartsAsAsked c { s with clk := { s.clk with time := max s.clk.time t } } st ∧
      (∀ q, q ∉ seqMask c → (endFetch (armBurst v c)).seq q = { s.seq q with residentAt := ((endFetch (armBurst v c)).seq q).residentAt }) ∧
      u = { s with clk := { s.clk with time := max s.clk.time t }, fw := { s.fw with progress := u.fw.progress }, pins := { s.pins with pin := u.pins.pin }, edge := { s.edge with slice := u.edge.slice }, harv := u.harv, pat := { s.pat with segment := u.pat.segment, seq := u.pat.seq, fetch := u.pat.fetch, turn := u.pat.turn, fetchReady := u.pat.fetchReady } } := by
  obtain ⟨⟨x, y, hparts⟩, hsegm, hseq, -⟩ := h
  obtain ⟨u, n, hans, harmed⟩ := armBurst_arms (s := v) (c := c) (by rw [hparts]; exact hcur) (by rw [hparts]; exact hlead)
  have hasked := burstStart_asked v c
  generalize burstStart v c = st at hans harmed hasked
  obtain ⟨f, i, r, hfetch⟩ := startFetch_parts u
  rw [hfetch] at hans
  have hpat : (armBurst v c).pat = { u.pat with fetch := f, turn := i, fetchReady := r } := by rw [hans.1]
  have hprog : (armBurst v c).fw.progress = u.fw.progress := by rw [hans.1]
  generalize armBurst v c = w at hans hpat hprog
  obtain ⟨f', i', r', hend⟩ := endFetch_parts w
  have hsegs : ∀ k, (endFetch w).segm k = v.segm k := fun k => by
    have h1 : (endFetch w).pat.segment = u.pat.segment := by rw [hend, hpat]
    have h2 : u.pat.segment = v.pat.segment := by rw [harmed.parts]
    exact congrArg (fun x : Tab Segment => tget (fun _ => ({} : Segment)) x k) (h1.trans h2)
  have hsites : ∀ q, (endFetch w).seq q = u.seq q := fun q => by
    have h1 : (endFetch w).pat.seq = u.pat.seq := by rw [hend, hpat]
    exact congrArg (fun x : Tab SeqState => tget (fun _ => ({} : SeqState)) x q) h1
  have hprogs : ∀ k, (endFetch w).prog k = u.prog k := fun k => by
    have h1 : (endFetch w).fw.progress = u.fw.progress := by rw [hend, hprog]
    exact congrArg (fun x : Tab Progress => tget (fun _ => ({} : Progress)) x k) h1
  have hstrm : ∀ n, v.strm n = s.strm n := fun n => by rw [hparts]; rfl
  refine ⟨{ u with pat := { u.pat with fetch := f', turn := i', fetchReady := r' } }, st, n, ?_, ?_, fun k hk => (hsegs k).trans ((hsegm k).trans (if_neg hk)), fun j hj => ⟨?_, ?_⟩, ?_, fun q hq => ?_, ?_⟩
  · rw [hend, hpat]
    exact answered_pat hans _
  · rw [hsegs, hsegm, if_pos rfl]
  · have hsite := (sitesArmed_armed harmed j hj).1
    rw [hseq ((seqMask c).getD j 0), hstrm, ← hsites] at hsite
    exact hsite
  · exact (hprogs _).trans (sitesArmed_armed harmed j hj).2
  · rw [hparts] at hasked
    exact hasked
  · have hold := (hsites q).trans (harmed.others q hq)
    rw [hold]
    exact hseq q
  · have hup := harmed.parts
    generalize max s.clk.time t = m at hparts ⊢
    generalize u.fw.progress = a1, u.pins.pin = a2, u.edge.slice = a3, u.harv = a4, u.pat.seq = a5 at hup
    rw [hup, hparts]

theorem fetchDone_arms {g : SegId} {s : State} {c : Current} (hf : fetching s g.val = true) (hidle : s.clk.stemIdle = false) (hg : fetchable s g.val = true)
    (hcur : s.fw.current = some c) (hwait : c.wait = .entry) (hentry : (s.strm (par c 4)).list[par c 5]? = some g.val)
    (hlead : par c 6 = 1 → max s.clk.time s.pat.fetchReady + 6400 ≤ par64 c 7)
    (hr : segReason s (s.segm g.val).addr (s.segm g.val).width (s.segm g.val).vectors none = none) (hfit : usedSlots s + segSlots (s.segm g.val) ≤ 4096) :
    ∃ u t st n, exec (.segmentFetchDone g .ok) s = .next t ∧
      Answered c 1 0 ([w16 (seqMask c).length] ++ toWords 4 (startTicks st) ++ [c.tag, w16 n]) u t ∧
      (t.segm g.val).resident = true ∧ (∀ k, k ≠ g.val → t.segm k = s.segm k) ∧ Armed c st s t ∧
      StartsAsAsked c (s.reach s.pat.fetchReady) st ∧
      (∀ q, q ∉ seqMask c → t.seq q = { s.seq q with residentAt := (t.seq q).residentAt }) ∧
      u = { s with clk := { s.clk with time := max s.clk.time s.pat.fetchReady }, fw := { s.fw with progress := u.fw.progress }, pins := { s.pins with pin := u.pins.pin }, edge := { s.edge with slice := u.edge.slice }, harv := u.harv, pat := { s.pat with segment := u.pat.segment, seq := u.pat.seq, fetch := u.pat.fetch, turn := u.pat.turn, fetchReady := u.pat.fetchReady } } := by
  have hexec : exec (.segmentFetchDone g .ok) s = .next (endFetch (armBurst (sitesSee (landed (s.reach s.pat.fetchReady) g.val) g.val) c)) := by
    rw [fetchDone_eq g .ok hf hidle hg]
    dsimp only
    rw [landSegment_reach hr hfit, nowResident_eq, landed_current, show (s.reach s.pat.fetchReady).fw.current = some c from hcur]
    dsimp only
    rw [if_pos ⟨hwait, hentry⟩]
  obtain ⟨u, st, n, hall⟩ := endFetch_armed (sitesSee_landedIn s s.pat.fetchReady g.val) hcur hlead
  exact ⟨u, _, st, n, hexec, hall⟩

/-- A corrected error of a fetch is told. -/
def toldCorrected (s : State) (d0 : Nat) : State :=
  { s with flt := { s.flt with waiting := s.flt.waiting ++ [{ block := 0x14, source := 2, d0 := w16 d0, d1 := w16 0, forced := false, stamp := f3 s.clk.time }] } }

theorem toldCorrected_eq (s : State) (d0 : Nat) : s.raise 0x14 2 d0 = toldCorrected s d0 := raise_event (by decide) s d0 0

theorem sitesSee_told (s : State) (t d0 g : Nat) : LandedIn (toldCorrected (s.reach t) d0) t g (sitesSee (landed (toldCorrected (s.reach t) d0) g) g) := by
  have htime : (toldCorrected (s.reach t) d0).reach t = toldCorrected (s.reach t) d0 := by
    have hmax : max (toldCorrected (s.reach t) d0).clk.time t = (toldCorrected (s.reach t) d0).clk.time := max_eq_left (le_max_right s.clk.time t)
    unfold State.reach at hmax ⊢
    rw [hmax]
  have h := sitesSee_landedIn (toldCorrected (s.reach t) d0) t g
  rw [htime] at h
  exact h

theorem endFetch_told {s v : State} {t d0 g : Nat} (h : LandedIn (toldCorrected (s.reach t) d0) t g v) :
    ((endFetch v).segm g).resident = true ∧ (∀ k, k ≠ g → (endFetch v).segm k = s.segm k) ∧
      (endFetch v).flt.waiting = s.flt.waiting ++ [{ block := 0x14, source := 2, d0 := w16 d0, d1 := 0, forced := false, stamp := f3 (endFetch v).clk.time }] ∧
      endFetch v = { s with clk := { s.clk with time := max s.clk.time t }, pat := { s.pat with segment := (endFetch v).pat.segment, seq := (endFetch v).pat.seq, fetch := (endFetch v).pat.fetch, turn := (endFetch v).pat.turn, fetchReady := (endFetch v).pat.fetchReady }, flt := { s.flt with waiting := (endFetch v).flt.waiting } } := by
  obtain ⟨htime, hown, hothers, -, -, hparts⟩ := endFetch_landedIn h
  have hmax : max (toldCorrected (s.reach t) d0).clk.time t = max s.clk.time t := max_eq_left (le_max_right s.clk.time t)
  rw [hmax] at htime
  have hwaiting : (endFetch v).flt = (toldCorrected (s.reach t) d0).flt := by rw [hparts]
  refine ⟨by rw [hown], hothers, ?_, ?_⟩
  · rw [hwaiting, htime]
    rfl
  · rw [htime] at hparts
    rw [hwaiting]
    generalize max s.clk.time t = m at hparts ⊢
    exact hparts

theorem fetchDone_corrected {g : SegId} (ch : Fin 2) {s : State} (hf : fetching s g.val = true) (hidle : s.clk.stemIdle = false) (hg : fetchable s g.val = true)
    (hcur : s.fw.current = none) (hr : segReason s (s.segm g.val).addr (s.segm g.val).width (s.segm g.val).vectors none = none)
    (hfit : usedSlots s + segSlots (s.segm g.val) ≤ 4096) :
    ∃ t, exec (.segmentFetchDone g (.corrected ch)) s = .next t ∧ (t.segm g.val).resident = true ∧ (∀ k, k ≠ g.val → t.segm k = s.segm k) ∧
      t.flt.waiting = s.flt.waiting ++ [{ block := 0x14, source := 2, d0 := w16 ch.val, d1 := 0, forced := false, stamp := f3 t.clk.time }] ∧
      t = { s with clk := { s.clk with time := max s.clk.time s.pat.fetchReady }, pat := { s.pat with segment := t.pat.segment, seq := t.pat.seq, fetch := t.pat.fetch, turn := t.pat.turn, fetchReady := t.pat.fetchReady }, flt := { s.flt with waiting := t.flt.waiting } } := by
  have hr' : segReason (toldCorrected (s.reach s.pat.fetchReady) ch.val) (s.segm g.val).addr (s.segm g.val).width (s.segm g.val).vectors none = none :=
    (show _ = segReason (s.reach s.pat.fetchReady) (s.segm g.val).addr (s.segm g.val).width (s.segm g.val).vectors none from rfl).trans ((segReason_reach s s.pat.fetchReady _ _ _ _).trans hr)
  have hfit' : usedSlots (toldCorrected (s.reach s.pat.fetchReady) ch.val) + segSlots (s.segm g.val) ≤ 4096 :=
    (congrArg (· + segSlots (s.segm g.val)) ((show usedSlots (toldCorrected (s.reach s.pat.fetchReady) ch.val) = usedSlots (s.reach s.pat.fetchReady) from rfl).trans
      (usedSlots_reach s s.pat.fetchReady))).trans_le hfit
  have hexec : exec (.segmentFetchDone g (.corrected ch)) s = .next (endFetch (sitesSee (landed (toldCorrected (s.reach s.pat.fetchReady) ch.val) g.val) g.val)) := by
    rw [fetchDone_eq g (.corrected ch) hf hidle hg]
    dsimp only
    rw [toldCorrected_eq, landSegment_lands hr' hfit', nowResident_eq, landed_current, show (toldCorrected (s.reach s.pat.fetchReady) ch.val).fw.current = none from hcur]
  obtain ⟨hres, hothers, hwaiting, hparts⟩ := endFetch_told (sitesSee_told s s.pat.fetchReady ch.val g.val)
  exact ⟨_, hexec, hres, hothers, hwaiting, hparts⟩

theorem fetchDone_noRoom {g : SegId} {s : State} (hf : fetching s g.val = true) (hidle : s.clk.stemIdle = false) (hg : fetchable s g.val = true)
    (hr : segReason s (s.segm g.val).addr (s.segm g.val).width (s.segm g.val).vectors none = none) (hfull : 4096 < usedSlots s + segSlots (s.segm g.val))
    (hev : ∀ e ∈ s.pat.segment, evictable s e.1 = false) : exec (.segmentFetchDone g .ok) s = .next (s.reach s.pat.fetchReady) := by
  rw [fetchDone_eq g .ok hf hidle hg]
  have hr' : segReason (s.reach s.pat.fetchReady) ((s.reach s.pat.fetchReady).segm g.val).addr ((s.reach s.pat.fetchReady).segm g.val).width ((s.reach s.pat.fetchReady).segm g.val).vectors none = none :=
    (segReason_reach s s.pat.fetchReady _ _ _ _).trans hr
  have hroom : makeRoom (s.reach s.pat.fetchReady) (segSlots ((s.reach s.pat.fetchReady).segm g.val)) 4096 = none :=
    makeRoom_full (lt_of_lt_of_eq hfull (congrArg (· + segSlots (s.segm g.val)) (usedSlots_reach s s.pat.fetchReady).symm)) (fun e he => (evictable_reach s _ _).trans (hev e he)) 4096
  refine congrArg Host.Outcome.next ?_
  dsimp only
  unfold landSegment
  dsimp only
  rw [hr', hroom]

theorem fetchDone_retries {g : SegId} {s : State} (hf : fetching s g.val = true) (hidle : s.clk.stemIdle = false) (hg : fetchable s g.val = true)
    (hretry : (s.segm g.val).retried = false) :
    exec (.segmentFetchDone g .uncorrectable) s = .next ((s.reach s.pat.fetchReady).modSegm g.val (fun x => { x with retried := true })) := by
  rw [fetchDone_eq g .uncorrectable hf hidle hg]
  exact congrArg Host.Outcome.next (if_neg (by rw [hretry]; decide))

theorem tellUnusable_parts (s : State) (q : Nat) :
    (∃ x b w, tellUnusable s q = { s with pat := { s.pat with seq := x }, flt := { s.flt with block := b, waiting := w } }) ∧
      ∀ k, (tellUnusable s q).seq k = { s.seq k with unusable := ((tellUnusable s q).seq k).unusable } := by
  unfold tellUnusable
  dsimp only
  generalize (decide ((s.seq q).mode = .starveHold) && entryUnusable s (s.seq q) (s.seq q).awaited) = u
  have hseq : ∀ k, (s.modSeq q (fun x => { x with unusable := u })).seq k = { s.seq k with unusable := ((s.modSeq q (fun x => { x with unusable := u })).seq k).unusable } := by
    intro k
    rw [State.modSeq_seq]
    by_cases hk : k = q
    · subst hk
      rw [if_pos rfl]
    · rw [if_neg hk]
  split
  · obtain ⟨b, w, h⟩ := raise_parts (s.modSeq q (fun x => { x with unusable := u })) 0x14 0 (s.seq q).stream (s.seq q).awaited
    rw [h]
    exact ⟨⟨_, b, w, rfl⟩, hseq⟩
  · exact ⟨⟨_, s.flt.block, s.flt.waiting, rfl⟩, hseq⟩

theorem foldl_tellUnusable (l : List Nat) (s : State) :
    (∃ x b w, l.foldl tellUnusable s = { s with pat := { s.pat with seq := x }, flt := { s.flt with block := b, waiting := w } }) ∧
      ∀ k, (l.foldl tellUnusable s).seq k = { s.seq k with unusable := ((l.foldl tellUnusable s).seq k).unusable } := by
  induction l generalizing s with
  | nil => exact ⟨⟨s.pat.seq, s.flt.block, s.flt.waiting, rfl⟩, fun _ => rfl⟩
  | cons q l ih =>
    obtain ⟨⟨x, b, w, h⟩, hseq⟩ := tellUnusable_parts s q
    obtain ⟨⟨x', b', w', h'⟩, hseq'⟩ := ih (tellUnusable s q)
    rw [List.foldl_cons]
    refine ⟨⟨x', b', w', by rw [h', h]⟩, fun k => ?_⟩
    have h2 := hseq' k
    generalize ((l.foldl tellUnusable (tellUnusable s q)).seq k).unusable = a at h2 ⊢
    rw [h2, hseq k]

theorem spoilSegment_spec (s : State) (g : Nat) :
    (∃ x y b w, spoilSegment s g = { s with pat := { s.pat with segment := x, seq := y }, flt := { s.flt with block := b, waiting := w } }) ∧
      (∀ k, (spoilSegment s g).segm k = if k = g then { s.segm g with queued := false, unusable := true, retried := false } else s.segm k) ∧
      ∀ q, (spoilSegment s g).seq q = { s.seq q with unusable := ((spoilSegment s g).seq q).unusable } := by
  unfold spoilSegment tellSites
  dsimp only
  have hsegm : ∀ k, (s.modSegm g (fun x => { x with queued := false, unusable := true, retried := false })).segm k =
      if k = g then { s.segm g with queued := false, unusable := true, retried := false } else s.segm k := fun k => State.modSegm_segm ..
  have hold : ∀ q, (s.modSegm g (fun x => { x with queued := false, unusable := true, retried := false })).seq q = s.seq q := fun _ => rfl
  have hparts : ∃ x, s.modSegm g (fun x => { x with queued := false, unusable := true, retried := false }) = { s with pat := { s.pat with segment := x } } := ⟨_, rfl⟩
  generalize s.modSegm g (fun x => { x with queued := false, unusable := true, retried := false }) = u at hsegm hold hparts
  obtain ⟨⟨y, b, w, hfold⟩, hseq⟩ := foldl_tellUnusable (List.range 64) u
  generalize (List.range 64).foldl tellUnusable u = v at hfold hseq ⊢
  obtain ⟨z, hlive⟩ := live_parts v 0x14 0 (unusableWait v)
  obtain ⟨x, hx⟩ := hparts
  rw [hlive]
  refine ⟨⟨x, y, z, w, by rw [hfold, hx]⟩, fun k => Eq.trans ?_ (hsegm k), fun q => (hseq q).trans ?_⟩
  · rw [hfold]
    rfl
  · rw [hold]
    rfl

theorem fetchDone_spoils {g : SegId} {s : State} (hf : fetching s g.val = true) (hidle : s.clk.stemIdle = false) (hg : fetchable s g.val = true)
    (hretry : (s.segm g.val).retried = true) :
    ∃ t, exec (.segmentFetchDone g .uncorrectable) s = .next t ∧
      t.segm g.val = { s.segm g.val with queued := false, unusable := true, retried := false } ∧ (∀ k, k ≠ g.val → t.segm k = s.segm k) ∧
      (∃ d ∈ t.flt.waiting, d.block = 0x14 ∧ d.source = 3 ∧ d.d0 = w16 g.val) ∧
      (∀ q, t.seq q = { s.seq q with unusable := (t.seq q).unusable }) ∧
      t = { s with clk := { s.clk with time := max s.clk.time s.pat.fetchReady }, pat := { s.pat with segment := t.pat.segment, seq := t.pat.seq, fetch := t.pat.fetch, turn := t.pat.turn, fetchReady := t.pat.fetchReady }, flt := { s.flt with block := t.flt.block, waiting := t.flt.waiting } } := by
  have hexec : exec (.segmentFetchDone g .uncorrectable) s = .next (endFetch ((spoilSegment (s.reach s.pat.fetchReady) g.val).raise 0x14 3 g.val)) := by
    rw [fetchDone_eq g .uncorrectable hf hidle hg]
    exact congrArg Host.Outcome.next (if_pos hretry)
  obtain ⟨⟨x, y, b, w, hspoil⟩, hsegm, hseq⟩ := spoilSegment_spec (s.reach s.pat.fetchReady) g.val
  generalize spoilSegment (s.reach s.pat.fetchReady) g.val = v at hexec hspoil hsegm hseq
  have hwaiting := raise_waiting v 0x14 3 g.val 0
  obtain ⟨b', w', hraise⟩ := raise_parts v 0x14 3 g.val 0
  rw [hraise] at hexec hwaiting
  obtain ⟨f, n, r, hend⟩ := endFetch_parts { v with flt := { v.flt with block := b', waiting := w' } }
  rw [hend] at hexec
  have hw : w' = v.flt.waiting ++ [{ block := 0x14, source := 3, d0 := w16 g.val, d1 := w16 0, forced := false, stamp := f3 v.clk.time }] := hwaiting
  refine ⟨_, hexec, (hsegm g.val).trans (if_pos rfl), fun k hk => (hsegm k).trans (if_neg hk),
    ⟨{ block := 0x14, source := 3, d0 := w16 g.val, d1 := w16 0, forced := false, stamp := f3 v.clk.time }, ?_, rfl, rfl, rfl⟩, hseq, ?_⟩
  · rw [hw]
    exact List.mem_append_right _ (List.mem_singleton.2 rfl)
  · rw [hspoil]
    rfl

/-- Settles O24: each command's checks, then the fetch that the streamer starts, and each way a fetch ends. -/
theorem segmentCommands : Obligations.SegmentCommands := by
  refine ⟨?_, ?_, ?_, ?_, ?_, ?_, ?_, ?_, ?_, ?_, ?_, ?_, ?_, ?_, ?_, ?_, ?_, ?_, ?_, ?_, ?_⟩
  · exact fun _ _ h hseg hreg hfits hmin hmax hone hlanes hwidth hhold htag => segLoad_queues h hseg hreg hfits hmin hmax hone hlanes hwidth hhold htag
  · exact fun _ _ h hseg hunreg htag => segLoad_drops h hseg hunreg htag
  · exact fun ue _ h => segLoadDone_none ue h
  · exact fun _ _ _ _ h hr => segLoadDone_registers h hr
  · exact fun _ _ _ _ _ _ h hr => segLoadDone_bad h hr
  · exact fun _ _ h ha hseg hreg hfits => segPinPin_pins h ha hseg hreg hfits
  · exact fun _ _ h ha hseg hreg hfits => segPinPin_full h ha hseg hreg hfits
  · exact fun _ _ h ha hseg hreg => segPinUnpin_unpins h ha hseg hreg
  · exact fun _ _ h ha hseg hreg => segPinUnpinAll_unpins h ha hseg hreg
  · exact fun _ _ h ha hseg hreg => segPinFetch_fetches h ha hseg hreg
  · exact fun _ _ hcur hwait => segPinTimeout_answers hcur hwait
  · exact fun _ h => segPinTimeout_noWait h
  · exact startFetch_spec
  · exact fun g r _ h => fetchDone_idle g r h
  · exact fun _ _ hf hidle hg hcur hr hfit => fetchDone_lands hf hidle hg hcur hr hfit
  · exact fun _ _ _ hf hidle hg hcur hwait hseg hr hfit => fetchDone_answersPin hf hidle hg hcur hwait hseg hr hfit
  · exact fun _ _ _ hf hidle hg hcur hwait hentry hlead _ hr hfit => fetchDone_arms hf hidle hg hcur hwait hentry hlead hr hfit
  · exact fun _ ch _ hf hidle hg hcur hr hfit => fetchDone_corrected ch hf hidle hg hcur hr hfit
  · exact fun _ _ hf hidle hg hr hfull hev => fetchDone_noRoom hf hidle hg hr hfull hev
  · exact fun _ _ hf hidle hg hretry => fetchDone_retries hf hidle hg hretry
  · exact fun _ _ hf hidle hg hretry => fetchDone_spoils hf hidle hg hretry

end Sys2Proof.Machine
end

section
/-! PROOFS. O25: streams and bursts. STREAM_OPEN, and BURST_RUN with its bound. -/

set_option Elab.async false

namespace Sys2Proof.Machine

/-! STREAM_OPEN. -/

/-- The segments that OPEN and APPEND name. -/
def namedSegments (c : Current) : List Nat := (List.range (par c 4)).map (fun i => par c (5 + i))

theorem namedSegments_eq (c : Current) : (rangeFrom 5 (par c 4)).map (par c) = namedSegments c := by
  rw [rangeFrom, List.map_map]
  rfl

theorem streamParams_pass {c : Current} (hstream : par c 0 < 4) (hseal : par c 2 < 2) (hpre : par c 3 ≤ 64) (hcount : par c 4 ≤ 114) : ∀ x ∈ streamParams c, x = none :=
  pass_cons (needParam_of 0 (decide_eq_true hstream)) (pass_cons (needParam_of 2 (decide_eq_true hseal)) (pass_cons (needParam_of 3 (decide_eq_true hpre))
    (pass_cons (needParam_of 4 (decide_eq_true hcount)) pass_nil)))

theorem needDram_of {s : State} (h : s.bus.dramMib ≠ 0) : needDram s = none := needState_of 7 (decide_eq_true h)

theorem needDram_of_none {s : State} (h : s.bus.dramMib = 0) : needDram s = some (0x13, 7) := needState_of_not 7 (decide_eq_false (not_not_intro h))

theorem streamEntries_pass {s : State} {c : Current} {old : List Nat} (hdram : s.bus.dramMib ≠ 0)
    (hnamed : ∀ i, i < par c 4 → par c (5 + i) < 16384 ∧ (s.segm (par c (5 + i))).registered = true ∧ (s.segm (par c (5 + i))).width = widthWith s (par c 0) old (namedSegments c))
    (hlen : old.length + par c 4 ≤ 4096) : ∀ x ∈ streamEntries s c old, x = none := by
  unfold streamEntries
  dsimp only
  rw [namedSegments_eq]
  refine pass_cons (needDram_of hdram) (pass_cons (needEach_of 5 fun i hi => ?_) pass_nil)
  have hi' : i < par c 4 := by
    have := List.mem_range.1 hi
    rwa [namedSegments, List.length_map, List.length_range] at this
  have hget : (namedSegments c).getD i 0 = par c (5 + i) := by
    rw [namedSegments, List.getD_eq_getElem _ _ (by rw [List.length_map, List.length_range]; exact hi'), List.getElem_map, List.getElem_range]
  obtain ⟨hid, hreg, hwidth⟩ := hnamed i hi'
  rw [hget, decide_eq_true hid, hreg, decide_eq_true hwidth, decide_eq_true (by omega : old.length + i < 4096)]
  rfl

theorem sealBit {v : Nat} (h : v < 2) : bit v 0 = decide (v = 1) := by
  interval_cases v <;> rfl

theorem streamOpen_opens {s : State} {c : Current} (h : Picked s 0x0302 c) (ha : par c 1 = 0) (hstream : par c 0 < 4) (hseal : par c 2 < 2) (hpre : par c 3 ≤ 64) (hcount : par c 4 ≤ 114)
    (hnamed : ∀ i, i < par c 4 → par c (5 + i) < 16384 ∧ (s.segm (par c (5 + i))).registered = true ∧
      (s.segm (par c (5 + i))).width = (s.segm (par c 5)).width) (hclosed : (s.strm (par c 0)).isOpen = false) (hdram : s.bus.dramMib ≠ 0) :
    ∃ w t, exec .streamOpenOpen s = .next t ∧ (par c 4 ≠ 0 → w = (s.segm (par c 5)).width) ∧
      Answered c 0 0 [w16 (par c 4)] (startFetch (s.modStrm (par c 0) (fun _ =>
        { isOpen := true, list := (List.range (par c 4)).map (fun i => par c (5 + i)), width := w, sealed := decide (par c 2 = 1), prefetch := if par c 3 = 0 then 8 else par c 3 }))) t := by
  have hfirst : par c 4 ≠ 0 → widthWith s (par c 0) [] (namedSegments c) = (s.segm (par c 5)).width := fun hne => by
    obtain ⟨n, hn⟩ := Nat.exists_eq_succ_of_ne_zero hne
    rw [widthWith, if_pos (show ([] : List Nat).isEmpty = true from rfl), namedSegments, hn, List.range_succ_eq_map]
    rfl
  have hclosed' : (!(s.strm (par c 0)).isOpen) = true := by
    rw [hclosed]
    rfl
  have hpass := pass_append (pass_append (streamParams_pass hstream hseal hpre hcount) (streamEntries_pass (old := []) hdram
    (fun i hi => ⟨(hnamed i hi).1, (hnamed i hi).2.1, (hnamed i hi).2.2.trans (hfirst (by omega)).symm⟩) (by rw [List.length_nil]; omega)))
    (pass_cons (needState_of 1 hclosed') pass_nil)
  have hlen : (namedSegments c).length = par c 4 := by rw [namedSegments, List.length_map, List.length_range]
  have hopens : ∃ t, exec .streamOpenOpen s = .next t ∧ Answered c 0 0 [w16 (namedSegments c).length] (startFetch (s.modStrm (par c 0) (fun _ =>
      { isOpen := true, list := namedSegments c, width := widthWith s (par c 0) [] (namedSegments c), sealed := bit (par c 2) 0, prefetch := prefetchOf c }))) t := by
    refine picked_ok (k := fun _ => _) h (decide_eq_true ha) rfl (firstBad_pass hpass) ?_ ?_
    · dsimp only
      rw [namedSegments_eq]
    · obtain ⟨f, n, r, hfetch⟩ := startFetch_parts (s.modStrm (par c 0) (fun _ =>
        { isOpen := true, list := namedSegments c, width := widthWith s (par c 0) [] (namedSegments c), sealed := bit (par c 2) 0, prefetch := prefetchOf c }))
      rw [hfetch]
      exact h.1
  rw [hlen, sealBit hseal] at hopens
  obtain ⟨t, ht, hans⟩ := hopens
  exact ⟨_, t, ht, hfirst, hans⟩

/-- The stream that APPEND extends. -/
def appendStream (s : State) (c : Current) : State :=
  let l := (s.strm (par c 0)).list ++ namedSegments c
  s.modStrm (par c 0) (fun x => { x with list := l, width := widthWith s (par c 0) (s.strm (par c 0)).list (namedSegments c), sealed := bit (par c 2) 0, prefetch := prefetchOf c })

/-- A site starved past the old end of the list counts the entry as supplied now. -/
def suppliedNow (n old len now : Nat) (x : SeqState) : SeqState :=
  if x.mode = .starveHold ∧ x.stream = n ∧ old ≤ x.awaited ∧ x.awaited < len then { x with residentAt := now } else x

theorem foldl_suppliedNow (n old len : Nat) (l : List Nat) (hl : l.Nodup) (s : State) :
    (∃ x, l.foldl (fun s q => s.modSeq q (suppliedNow n old len s.now)) s = { s with pat := { s.pat with seq := x } }) ∧
      ∀ q, (l.foldl (fun s q => s.modSeq q (suppliedNow n old len s.now)) s).seq q = if q ∈ l then suppliedNow n old len s.clk.time (s.seq q) else s.seq q := by
  have hsame : ∀ (l : List Nat) (v : State), v.clk.time = s.clk.time → l.foldl (fun s q => s.modSeq q (suppliedNow n old len s.now)) v =
      l.foldl (fun u q => u.modSeq q (suppliedNow n old len s.clk.time)) v := by
    intro l
    induction l with
    | nil => exact fun _ _ => rfl
    | cons q l ih =>
      intro v hv
      rw [List.foldl_cons, List.foldl_cons, State.now, hv]
      exact ih _ hv
  rw [hsame l s rfl]
  refine ⟨?_, fun q => foldl_keyed (get := State.seq) (fun s a k => State.modSeq_seq ..) hl s q⟩
  have hkept := foldl_same (F := fun s : State => { s with pat := { s.pat with seq := [] } }) (step := fun u q => u.modSeq q (suppliedNow n old len s.clk.time)) (fun _ _ => rfl) l s
  generalize l.foldl _ s = u at hkept ⊢
  exact ⟨u.pat.seq, congrArg (fun t : State => { t with pat := { t.pat with seq := u.pat.seq } }) hkept⟩

/-- APPEND up to the streamer. -/
def appended (s : State) (c : Current) : State :=
  (List.range 64).foldl (fun u q => u.modSeq q (suppliedNow (par c 0) (s.strm (par c 0)).list.length ((s.strm (par c 0)).list ++ namedSegments c).length u.now)) (appendStream s c)

/-- `v` is `s` with the stream that APPEND names extended. -/
structure AppendedIn (s : State) (c : Current) (v : State) : Prop where
  own : v.strm (par c 0) = { s.strm (par c 0) with list := (s.strm (par c 0)).list ++ namedSegments c, width := widthWith s (par c 0) (s.strm (par c 0)).list (namedSegments c), sealed := bit (par c 2) 0, prefetch := prefetchOf c }
  others : ∀ n, n ≠ par c 0 → v.strm n = s.strm n
  seq : ∀ q, v.seq q = s.seq q ∨ (s.seq q).mode = .starveHold ∧ v.seq q = { s.seq q with residentAt := s.clk.time }
  parts : ∃ x y, v = { s with pat := { s.pat with stream := x, seq := y } }

theorem appended_appendedIn (s : State) (c : Current) : AppendedIn s c (appended s c) := by
  unfold appended
  have hstrm : ∀ n, (appendStream s c).strm n = if n = par c 0 then { s.strm (par c 0) with list := (s.strm (par c 0)).list ++ namedSegments c, width := widthWith s (par c 0) (s.strm (par c 0)).list (namedSegments c), sealed := bit (par c 2) 0, prefetch := prefetchOf c } else s.strm n :=
    fun n => State.modStrm_strm ..
  obtain ⟨x, hx⟩ : ∃ x, appendStream s c = { s with pat := { s.pat with stream := x } } := ⟨_, rfl⟩
  generalize appendStream s c = v at hstrm hx
  obtain ⟨⟨y, hy⟩, hseq⟩ := foldl_suppliedNow (par c 0) (s.strm (par c 0)).list.length ((s.strm (par c 0)).list ++ namedSegments c).length (List.range 64) List.nodup_range v
  generalize (List.range 64).foldl _ v = u at hy hseq ⊢
  have hs : ∀ n, u.strm n = v.strm n := fun n => by rw [hy]; rfl
  have hold : ∀ q, v.seq q = s.seq q := fun q => by rw [hx]; rfl
  have htime : v.clk.time = s.clk.time := by rw [hx]
  refine ⟨(hs _).trans ((hstrm _).trans (if_pos rfl)), fun n hn => (hs n).trans ((hstrm n).trans (if_neg hn)), fun q => ?_, x, y, by rw [hy, hx]⟩
  rw [hseq q, hold, htime]
  split
  · unfold suppliedNow
    split
    · next hcond => exact .inr ⟨hcond.1, rfl⟩
    · exact .inl rfl
  · exact .inl rfl

/-- The answer of APPEND, told of the stream's new list. -/
theorem appendedIn_answered {s v t : State} {c : Current} {w : Nat} {ws : List Word} (h : AppendedIn s c v) (hans : Answered c 0 0 ws (startFetch v) t) (hopen : (s.strm (par c 0)).isOpen = true)
    (hseal : par c 2 < 2) (hwith : ((s.strm (par c 0)).list ≠ [] ∨ par c 4 ≠ 0) → widthWith s (par c 0) (s.strm (par c 0)).list (namedSegments c) = w) :
    ∃ u, Answered c 0 0 ws u t ∧
      u.strm (par c 0) = { isOpen := true, list := (s.strm (par c 0)).list ++ (List.range (par c 4)).map (fun i => par c (5 + i)), width := (u.strm (par c 0)).width, sealed := decide (par c 2 = 1), prefetch := if par c 3 = 0 then 8 else par c 3 } ∧
      ((u.strm (par c 0)).list ≠ [] → (u.strm (par c 0)).width = w) ∧
      (∀ n, n ≠ par c 0 → u.strm n = s.strm n) ∧
      (∀ q, u.seq q = s.seq q ∨ (s.seq q).mode = .starveHold ∧ u.seq q = { s.seq q with residentAt := s.clk.time }) ∧
      u = { s with pat := { s.pat with stream := u.pat.stream, seq := u.pat.seq, fetch := u.pat.fetch, turn := u.pat.turn, fetchReady := u.pat.fetchReady } } := by
  obtain ⟨hown, hothers, hseq, x, y, hparts⟩ := h
  obtain ⟨f, n, r, hfetch⟩ := startFetch_parts v
  rw [hfetch] at hans
  have hw : (v.strm (par c 0)).width = widthWith s (par c 0) (s.strm (par c 0)).list (namedSegments c) := by rw [hown]
  refine ⟨_, hans, ?_, fun hne => ?_, hothers, hseq, by rw [hparts]⟩
  · refine hown.trans ?_
    dsimp only
    rw [hopen, sealBit hseal, ← hw]
    rfl
  · have hlist : (v.strm (par c 0)).list = (s.strm (par c 0)).list ++ namedSegments c := by rw [hown]
    refine hw.trans (hwith ?_)
    by_contra hnone
    obtain ⟨hold, hzero⟩ := not_or.1 hnone
    refine hne ?_
    show (v.strm (par c 0)).list = []
    rw [hlist, not_not.1 hold, namedSegments, not_not.1 hzero]
    rfl

theorem streamAppend_extends {s : State} {c : Current} {w : Nat} (h : Picked s 0x0302 c) (ha : par c 1 = 1) (hstream : par c 0 < 4) (hseal : par c 2 < 2) (hpre : par c 3 ≤ 64) (hcount : par c 4 ≤ 114)
    (hwidth : (s.strm (par c 0)).list ≠ [] → (s.strm (par c 0)).width = w) (hlen : (s.strm (par c 0)).list.length + par c 4 ≤ 4096)
    (hnamed : ∀ i, i < par c 4 → par c (5 + i) < 16384 ∧ (s.segm (par c (5 + i))).registered = true ∧ (s.segm (par c (5 + i))).width = w)
    (hopen : (s.strm (par c 0)).isOpen = true) (hsealed : (s.strm (par c 0)).sealed = false) (hdram : s.bus.dramMib ≠ 0) :
    ∃ u t, exec .streamOpenAppend s = .next t ∧ Answered c 0 0 [w16 ((s.strm (par c 0)).list.length + par c 4)] u t ∧
      u.strm (par c 0) = { isOpen := true, list := (s.strm (par c 0)).list ++ (List.range (par c 4)).map (fun i => par c (5 + i)), width := (u.strm (par c 0)).width, sealed := decide (par c 2 = 1), prefetch := if par c 3 = 0 then 8 else par c 3 } ∧
      ((u.strm (par c 0)).list ≠ [] → (u.strm (par c 0)).width = w) ∧
      (∀ n, n ≠ par c 0 → u.strm n = s.strm n) ∧
      (∀ q, u.seq q = s.seq q ∨ (s.seq q).mode = .starveHold ∧ u.seq q = { s.seq q with residentAt := s.clk.time }) ∧
      u = { s with pat := { s.pat with stream := u.pat.stream, seq := u.pat.seq, fetch := u.pat.fetch, turn := u.pat.turn, fetchReady := u.pat.fetchReady } } := by
  have hwith : ((s.strm (par c 0)).list ≠ [] ∨ par c 4 ≠ 0) → widthWith s (par c 0) (s.strm (par c 0)).list (namedSegments c) = w := by
    intro hsome
    unfold widthWith
    by_cases hempty : (s.strm (par c 0)).list = []
    · rw [if_pos (by rw [hempty]; rfl)]
      obtain ⟨n, hn⟩ := Nat.exists_eq_succ_of_ne_zero (hsome.resolve_left (not_not_intro hempty))
      rw [namedSegments, hn, List.range_succ_eq_map]
      exact (hnamed 0 (by omega)).2.2
    · rw [if_neg (by rw [List.isEmpty_iff]; exact hempty)]
      exact hwidth hempty
  have hsealed' : (!(s.strm (par c 0)).sealed) = true := by
    rw [hsealed]
    rfl
  have hpass := pass_append (pass_append (streamParams_pass hstream hseal hpre hcount) (streamEntries_pass (old := (s.strm (par c 0)).list) hdram
    (fun i hi => ⟨(hnamed i hi).1, (hnamed i hi).2.1, (hnamed i hi).2.2.trans (hwith (.inr (by omega))).symm⟩) hlen))
    (pass_cons (needState_of 4 hopen) (pass_cons (needState_of 2 hsealed') pass_nil))
  have hlength : ((s.strm (par c 0)).list ++ namedSegments c).length = (s.strm (par c 0)).list.length + par c 4 := by
    rw [List.length_append, namedSegments, List.length_map, List.length_range]
  have happended := appended_appendedIn s c
  have hcur : (startFetch (appended s c)).fw.current = some c := by
    obtain ⟨f, n, r, hfetch⟩ := startFetch_parts (appended s c)
    obtain ⟨x, y, hparts⟩ := happended.parts
    rw [hfetch, hparts]
    exact h.1
  obtain ⟨t, ht, hans⟩ : ∃ t, exec .streamOpenAppend s = .next t ∧ Answered c 0 0 [w16 ((s.strm (par c 0)).list ++ namedSegments c).length] (startFetch (appended s c)) t := by
    refine picked_ok (k := fun _ => _) h (decide_eq_true ha) rfl (firstBad_pass hpass) ?_ hcur
    dsimp only
    rw [namedSegments_eq]
    rfl
  rw [hlength] at hans
  obtain ⟨u, hall⟩ := appendedIn_answered happended hans hopen hseal hwith
  exact ⟨u, t, ht, hall⟩

theorem streamClose_closes {s : State} {c : Current} (h : Picked s 0x0302 c) (ha : par c 1 = 2) (hstream : par c 0 < 4) (hseal : par c 2 < 2) (hdram : s.bus.dramMib ≠ 0)
    (hopen : (s.strm (par c 0)).isOpen = true) :
    (streamBusy s (par c 0) = false → ∃ t, exec .streamOpenClose s = .next t ∧ Answered c 0 0 [0] (s.modStrm (par c 0) (fun _ => {})) t) ∧
    (streamBusy s (par c 0) = true → ∃ t, exec .streamOpenClose s = .next t ∧ Answered c 0x13 1 [] s t) := by
  have hpar : needParam (decide (par c 0 < 4)) 0 = none := needParam_of 0 (decide_eq_true hstream)
  have hbits : needBits c 2 1 = none := needBits_eq_none.2 hseal
  refine ⟨fun hidle => ?_, fun hbusy => ?_⟩
  · exact picked_ok (k := fun _ => _) h (decide_eq_true ha) rfl (firstBad_pass (pass_cons hpar (pass_cons hbits (pass_cons (needDram_of hdram) (pass_cons (needState_of 4 hopen)
      (pass_cons (needState_of 1 (by rw [hidle]; rfl)) pass_nil)))))) rfl h.1
  · refine picked_bad (k := fun _ => _) h (decide_eq_true ha) rfl ?_
    rw [hpar, hbits, needDram_of hdram, needState_of 4 hopen, hbusy]
    rfl

theorem streamMap_maps {s : State} {c : Current} (h : Picked s 0x0302 c) (ha : par c 1 = 3) (hstream : par c 0 < 4) (hseal : par c 2 < 2) (hmin : 1 ≤ par c 4) (hmax : par c 4 ≤ dataMib s)
    (hdram : s.bus.dramMib ≠ 0) (hclosed : ∀ n, n < 4 → (s.strm n).isOpen = false) (hrings : ∀ e ∈ s.harv.ring, e.2.state = .free) :
    ∃ t, exec .streamOpenMap s = .next t ∧ Answered c 0 0 [0] { s with pat := { s.pat with patternMib := some (par c 4) } } t := by
  have hfree : ((List.range 4).all (fun n => !(s.strm n).isOpen) && (tents s.harv.ring).all (fun e => decide (e.2.state = .free))) = true := by
    rw [Bool.and_eq_true, List.all_eq_true, List.all_eq_true]
    refine ⟨fun n hn => ?_, fun e he => decide_eq_true (hrings e (mem_of_mem_tents he))⟩
    rw [hclosed n (List.mem_range.1 hn)]
    rfl
  exact picked_ok (k := fun _ => _) h (decide_eq_true ha) rfl (firstBad_pass (pass_cons (needParam_of 0 (decide_eq_true hstream)) (pass_cons (needBits_eq_none.2 hseal)
    (pass_cons (needDram_of hdram) (pass_cons (needParam_of 4 (by rw [decide_eq_true hmin, decide_eq_true hmax]; rfl)) (pass_cons (needState_of 3 hfree) pass_nil)))))) rfl h.1

theorem streamOpen_noDram {s : State} {c : Current} (h : Picked s 0x0302 c) (hstream : par c 0 < 4) (hseal : par c 2 < 2) (hpre : par c 3 ≤ 64) (hcount : par c 4 ≤ 114) (hdram : s.bus.dramMib = 0) :
    (par c 1 = 0 → ∃ t, exec .streamOpenOpen s = .next t ∧ Answered c 0x13 7 [] s t) ∧
    (par c 1 = 1 → ∃ t, exec .streamOpenAppend s = .next t ∧ Answered c 0x13 7 [] s t) ∧
    (par c 1 = 2 → ∃ t, exec .streamOpenClose s = .next t ∧ Answered c 0x13 7 [] s t) ∧
    (par c 1 = 3 → ∃ t, exec .streamOpenMap s = .next t ∧ Answered c 0x13 7 [] s t) := by
  have hentries : ∀ old l, firstBad (streamParams c ++ streamEntries s c old ++ l) = some (0x13, 7) := fun old l => by
    rw [List.append_assoc, firstBad_append (streamParams_pass hstream hseal hpre hcount), streamEntries, needDram_of_none hdram]
    rfl
  have hpar : needParam (decide (par c 0 < 4)) 0 = none := needParam_of 0 (decide_eq_true hstream)
  have hbits : needBits c 2 1 = none := needBits_eq_none.2 hseal
  refine ⟨fun ha => ?_, fun ha => ?_, fun ha => ?_, fun ha => ?_⟩
  · exact picked_bad (k := fun _ => _) h (decide_eq_true ha) rfl (hentries _ _)
  · exact picked_bad (k := fun _ => _) h (decide_eq_true ha) rfl (hentries _ _)
  · refine picked_bad (k := fun _ => _) h (decide_eq_true ha) rfl ?_
    rw [hpar, hbits, needDram_of_none hdram]
    rfl
  · refine picked_bad (k := fun _ => _) h (decide_eq_true ha) rfl ?_
    rw [hpar, hbits, needDram_of_none hdram]
    rfl

end Sys2Proof.Machine
end

section
/-! PROOFS. O25, continued: BURST_RUN and its bound, JUMP_REQUEST. -/

set_option Elab.async false

namespace Sys2Proof.Machine

/-! BURST_RUN. -/

/-- What BURST_RUN asks of its sites and their beds. -/
abbrev BurstSites (s : State) (c : Current) : Prop :=
  ∀ q ∈ seqMask c, (s.seq q).mode = .idle ∧ seqLevel s q ≠ 3 ∧ ∀ p ∈ (s.seq q).lanes,
    p < 512 ∧ bedHeld s (p / 32) = false ∧ calHolds s (p / 32) = false ∧ bedActive s (p / 32) = true

/-- The beds of the sites of BURST_RUN. -/
def burstBeds (s : State) (c : Current) : List Nat := bedsOfPins ((seqMask c).flatMap (fun q => (s.seq q).lanes))

theorem burstBeds_free {s : State} {c : Current} (h : BurstSites s c) {b : Nat} (hb : b ∈ burstBeds s c) :
    bedHeld s b = false ∧ calHolds s b = false ∧ bedActive s b = true := by
  obtain ⟨-, p, hp, rfl⟩ := mem_bedsOfPins.1 hb
  obtain ⟨q, hq, hpq⟩ := List.mem_flatMap.1 hp
  exact ((h q hq).2.2 p hpq).2

theorem needFree_of {s : State} {b : Nat} (h : bedHeld s b = false) : needFree s b = none := if_neg (by rw [h]; decide)

/-- The checks of BURST_RUN on its stream and its sites' widths. -/
def burstStreamChecks (s : State) (c : Current) : List (Option Bad) :=
  let l := seqMask c
  let n := par c 4
  let isOpen := decide (n < 4) && (s.strm n).isOpen
  [needParam (decide (par64 c 0 ≠ 0) && (!isOpen || l.all (fun q =>
      match streamWidth s n with | some w => decide ((s.seq q).lanes.length = w) | none => true))) 0,
    needParam isOpen 4,
    needParam (decide (par c 5 < (s.strm n).list.length)) 5]

/-- The checks of BURST_RUN on its settings, its tags and what its sites are in use for. -/
def burstRestChecks (s : State) (c : Current) : List (Option Bad) :=
  let l := seqMask c
  [needParam (decide (par c 11 < 128)) 11,
   needRing s (par c 13) 13,
   if par c 6 = 1 then needLead c (par64 c 7) 4 else none,
   if c.tag.toNat + l.length - 1 ≤ 0xFFF then none else some (0x12, 0xFF01),
   firstOf (rangeFrom c.tag.toNat l.length) (fun t => needState (!tagInUse s t) t),
   needRef s,
   firstOf (burstBeds s c) (needFree s),
   firstOf l (fun q => if seqLevel s q = 3 then some (0x14, execBurstRun.t3Zone s q) else none),
   firstOf l (fun q => needState (!seqBusy s q) 1),
   firstOf (burstBeds s c) (fun b => needState (!calHolds s b) 5),
   needActive s (burstBeds s c),
   needState (!s.clk.stemIdle) 6,
   needBusy (pinFits s ((entrySeg s (par c 4) (par c 5)).getD 0)) (par c 4)]

/-- BURST_RUN with its entry segment pinned. -/
def entryPinned (s : State) (c : Current) : State :=
  s.modSegm ((entrySeg s (par c 4) (par c 5)).getD 0) (fun x => { x with entryPins := x.entryPins + (seqMask c).length })

theorem burstRun_eq {s : State} {c : Current} (h : Picked s 0x0303 c) :
    exec .burstRun s = .next (checked s (burstStreamChecks s c ++ needStart c 6 ++ burstRestChecks s c) (fun s =>
      if ((entryPinned s c).segm ((entrySeg s (par c 4) (par c 5)).getD 0)).resident then armBurst (entryPinned s c) c
      else startFetch (waitFor (entryPinned s c) .entry))) :=
  congrArg Host.Outcome.next (onCommand_picked h (fun _ => true) _ rfl)

theorem burstStreamChecks_pass {s : State} {c : Current} {w g : Nat} (hsome : par64 c 0 ≠ 0) (hstream : par c 4 < 4) (hopen : (s.strm (par c 4)).isOpen = true)
    (hw : (s.strm (par c 4)).width = w) (hg : (s.strm (par c 4)).list[par c 5]? = some g) (hlanes : ∀ q ∈ seqMask c, (s.seq q).lanes.length = w) :
    ∀ x ∈ burstStreamChecks s c, x = none := by
  have hlt : par c 5 < (s.strm (par c 4)).list.length := (List.getElem?_eq_some_iff.1 hg).1
  have hwidth : streamWidth s (par c 4) = some w := by
    have hne : (s.strm (par c 4)).list.isEmpty = false := by
      rw [List.isEmpty_eq_false_iff_exists_mem]
      exact ⟨_, List.getElem_mem hlt⟩
    rw [streamWidth, hne, hw]
    rfl
  unfold burstStreamChecks
  dsimp only
  rw [hwidth, decide_eq_true hstream, hopen]
  refine pass_cons (needParam_of 0 ?_) (pass_cons (needParam_of 4 rfl) (pass_cons (needParam_of 5 (decide_eq_true hlt)) pass_nil))
  rw [decide_eq_true hsome]
  exact List.all_eq_true.2 fun q hq => decide_eq_true (hlanes q hq)

theorem burstRestChecks_pass {s : State} {c : Current} {g : Nat} (hg : (s.strm (par c 4)).list[par c 5]? = some g) (hstart : StartFits c 6) (hset : par c 11 < 128)
    (hring : par c 13 = 0xFFFF ∨ (s.ring (par c 13)).state ≠ .free) (htags : TagsFree s c (seqMask c).length) (href : s.clk.refPresent = true) (hhold : s.clk.holdover = false)
    (hidle : s.clk.stemIdle = false) (hsites : BurstSites s c) (hfits : pinFits s g = true) : ∀ x ∈ burstRestChecks s c, x = none := by
  have hentry : (entrySeg s (par c 4) (par c 5)).getD 0 = g := by rw [entrySeg, hg]; rfl
  obtain ⟨htag, htagsFree⟩ := needTags_pass htags
  unfold burstRestChecks
  dsimp only
  rw [hentry]
  have hstem : (!s.clk.stemIdle) = true := by rw [hidle]; rfl
  exact pass_cons (needParam_of 11 (decide_eq_true hset)) (pass_cons (needRing_of hring) (pass_cons (needLead_pass 4 hstart) (pass_cons htag (pass_cons htagsFree
    (pass_cons (needRef_of href hhold)
    (pass_cons (firstOf_eq_none.2 fun b hb => needFree_of (burstBeds_free hsites hb).1)
    (pass_cons (firstOf_eq_none.2 fun q hq => if_neg (hsites q hq).2.1)
    (pass_cons (firstOf_eq_none.2 fun q hq => needState_of 1 (by rw [seqBusy, (hsites q hq).1]; rfl))
    (pass_cons (firstOf_eq_none.2 fun b hb => needState_of 5 (by rw [(burstBeds_free hsites hb).2.1]; rfl))
    (pass_cons (needActive_eq_none.2 fun b hb => (burstBeds_free hsites hb).2.2)
    (pass_cons (needState_of 6 hstem) (pass_cons (needBusy_eq_none.2 hfits) pass_nil))))))))))))

theorem burstRun_runs {s : State} {c : Current} {w g : Nat} (h : Picked s 0x0303 c) (hsome : par64 c 0 ≠ 0) (hstream : par c 4 < 4) (hopen : (s.strm (par c 4)).isOpen = true)
    (hw : (s.strm (par c 4)).width = w) (hg : (s.strm (par c 4)).list[par c 5]? = some g) (hlanes : ∀ q ∈ seqMask c, (s.seq q).lanes.length = w)
    (hstart : par c 6 ≤ 2) (hzero : par c 6 ≠ 1 → ∀ k, 7 ≤ k → k < 11 → par c k = 0) (hlead : par c 6 = 1 → c.pick + 32000 ≤ par64 c 7 ∧ s.clk.time + 6400 ≤ par64 c 7)
    (hset : par c 11 < 128) (hring : par c 13 = 0xFFFF ∨ (s.ring (par c 13)).state ≠ .free) (htags : TagsFree s c (seqMask c).length)
    (href : s.clk.refPresent = true) (hhold : s.clk.holdover = false) (hidle : s.clk.stemIdle = false) (hsites : BurstSites s c) (hfits : pinFits s g = true) :
    exec .burstRun s = .next (if (s.segm g).resident then armBurst (s.modSegm g (fun x => { x with entryPins := x.entryPins + (seqMask c).length })) c
      else startFetch (waitFor (s.modSegm g (fun x => { x with entryPins := x.entryPins + (seqMask c).length })) .entry)) := by
  have hfit : StartFits c 6 := ⟨hstart, fun hne k hlo hhi => hzero hne k hlo (by omega), fun hat => (hlead hat).1⟩
  have hentry : (entrySeg s (par c 4) (par c 5)).getD 0 = g := by rw [entrySeg, hg]; rfl
  have hres : ((s.modSegm g (fun x => { x with entryPins := x.entryPins + (seqMask c).length })).segm g).resident = (s.segm g).resident := by rw [State.modSegm_segm, if_pos rfl]
  rw [burstRun_eq h, checked_pass _ (firstBad_pass (pass_append (pass_append (burstStreamChecks_pass hsome hstream hopen hw hg hlanes) (needStart_pass hfit))
    (burstRestChecks_pass hg hfit hset hring htags href hhold hidle hsites hfits))), entryPinned, hentry, hres]

/-- What BURST_RUN leaves once its sites are armed. -/
theorem sitesArmed_burst {s u v : State} {c : Current} {g : Nat} {st : BurstStart} (h : SitesArmed c st c.tag.toNat (seqMask c) (s.modSegm g (fun x => { x with entryPins := x.entryPins + (seqMask c).length })) v)
    (hu : ∃ f n r, u = { v with pat := { v.pat with fetch := f, turn := n, fetchReady := r } }) :
    Armed c st s u ∧ (∀ q, q ∉ seqMask c → u.seq q = s.seq q) ∧
      (∀ p, (∀ q ∈ seqMask c, p ∉ (s.seq q).lanes) → u.pinst p = s.pinst p ∧ u.slices p = s.slices p) ∧
      (∀ k, (k < c.tag.toNat ∨ c.tag.toNat + (seqMask c).length ≤ k) → u.prog k = s.prog k) ∧
      (∀ r, r ≠ c.ring.toNat → r ≠ (if par c 13 = 0xFFFF then c.ring.toNat else par c 13) → u.ring r = s.ring r) ∧
      u.segm g = { s.segm g with entryPins := (s.segm g).entryPins + (seqMask c).length } ∧ (∀ k, k ≠ g → u.segm k = s.segm k) ∧
      u = { s with fw := { s.fw with progress := u.fw.progress }, pins := { s.pins with pin := u.pins.pin }, edge := { s.edge with slice := u.edge.slice }, harv := u.harv, pat := { s.pat with seq := u.pat.seq, segment := u.pat.segment, fetch := u.pat.fetch, turn := u.pat.turn, fetchReady := u.pat.fetchReady } } := by
  obtain ⟨f, n, r, hu⟩ := hu
  have hsegm : ∀ k, v.segm k = (s.modSegm g (fun x => { x with entryPins := x.entryPins + (seqMask c).length })).segm k := fun k => by rw [h.parts]; rfl
  have hseq : ∀ q, u.seq q = v.seq q := fun q => by rw [hu]; rfl
  refine ⟨fun i hi => ⟨?_, ?_⟩, fun q hq => (hseq q).trans (h.others q hq), fun p hp => ?_, fun k hk => ?_, fun r hr hres => ?_, ?_, fun k hk => ?_, ?_⟩
  · rw [hseq]
    exact (sitesArmed_armed h i hi).1
  · have hp := (sitesArmed_armed h i hi).2
    rw [hu]
    exact hp
  · have hpin := h.pins p hp
    rw [hu]
    exact hpin
  · have hp := (h.prog k).trans (if_neg (by omega))
    rw [hu]
    exact hp
  · have hr' := h.ring r hr hres
    rw [hu]
    exact hr'
  · have hs := (hsegm g).trans ((State.modSegm_segm ..).trans (if_pos rfl))
    rw [hu]
    exact hs
  · have hs := (hsegm k).trans ((State.modSegm_segm ..).trans (if_neg hk))
    rw [hu]
    exact hs
  · have hp := h.parts
    generalize v.fw.progress = a1, v.pins.pin = a2, v.edge.slice = a3, v.harv = a4, v.pat.seq = a5 at hp
    rw [hu, hp]
    rfl

theorem burstRun_answers {s : State} {c : Current} {w g : Nat} (h : Picked s 0x0303 c) (hsome : par64 c 0 ≠ 0) (hstream : par c 4 < 4) (hopen : (s.strm (par c 4)).isOpen = true)
    (hw : (s.strm (par c 4)).width = w) (hg : (s.strm (par c 4)).list[par c 5]? = some g) (hlanes : ∀ q ∈ seqMask c, (s.seq q).lanes.length = w)
    (hstart : par c 6 ≤ 2) (hzero : par c 6 ≠ 1 → ∀ k, 7 ≤ k → k < 11 → par c k = 0) (hlead : par c 6 = 1 → c.pick + 32000 ≤ par64 c 7 ∧ s.clk.time + 6400 ≤ par64 c 7)
    (hset : par c 11 < 128) (hring : par c 13 = 0xFFFF ∨ (s.ring (par c 13)).state ≠ .free) (htags : TagsFree s c (seqMask c).length)
    (href : s.clk.refPresent = true) (hhold : s.clk.holdover = false) (hidle : s.clk.stemIdle = false) (hsites : BurstSites s c) (hfits : pinFits s g = true) :
    ∃ t, exec .burstRun s = .next t ∧
      ((s.segm g).resident = false → ∃ v, Waits c .entry [] (s.modSegm g (fun x => { x with entryPins := x.entryPins + (seqMask c).length })) v ∧
        t = startFetch v) ∧
      ((s.segm g).resident = true → ∃ u st n, Answered c 1 0 ([w16 (seqMask c).length] ++ toWords 4 (startTicks st) ++ [c.tag, w16 n]) u t ∧
        Armed c st s u ∧ StartsAsAsked c s st ∧ (∀ q, q ∉ seqMask c → u.seq q = s.seq q) ∧
        (∀ p, (∀ q ∈ seqMask c, p ∉ (s.seq q).lanes) → u.pinst p = s.pinst p ∧ u.slices p = s.slices p) ∧
        (∀ k, (k < c.tag.toNat ∨ c.tag.toNat + (seqMask c).length ≤ k) → u.prog k = s.prog k) ∧
        (∀ r, r ≠ c.ring.toNat → r ≠ (if par c 13 = 0xFFFF then c.ring.toNat else par c 13) → u.ring r = s.ring r) ∧
        u.segm g = { s.segm g with entryPins := (s.segm g).entryPins + (seqMask c).length } ∧ (∀ k, k ≠ g → u.segm k = s.segm k) ∧
        u = { s with fw := { s.fw with progress := u.fw.progress }, pins := { s.pins with pin := u.pins.pin }, edge := { s.edge with slice := u.edge.slice }, harv := u.harv, pat := { s.pat with seq := u.pat.seq, segment := u.pat.segment, fetch := u.pat.fetch, turn := u.pat.turn, fetchReady := u.pat.fetchReady } }) := by
  refine ⟨_, burstRun_runs h hsome hstream hopen hw hg hlanes hstart hzero hlead hset hring htags href hhold hidle hsites hfits, fun hres => ?_, fun hres => ?_⟩
  · refine ⟨_, waitFor_waits .entry [] h.1, if_neg (by rw [hres]; decide)⟩
  · rw [if_pos hres]
    obtain ⟨v, n, hans, harmed⟩ := armBurst_arms (s := s.modSegm g (fun x => { x with entryPins := x.entryPins + (seqMask c).length })) (c := c) h.1 (fun hat => (hlead hat).2)
    have hasked : StartsAsAsked c s (burstStart (s.modSegm g (fun x => { x with entryPins := x.entryPins + (seqMask c).length })) c) := burstStart_asked _ c
    obtain ⟨ha, hb, hc, hd, he, hf, hg', hh⟩ := sitesArmed_burst harmed (startFetch_parts v)
    exact ⟨_, _, n, hans, ha, hasked, hb, hc, hd, he, hf, hg', hh⟩

theorem burstRunEntryTimeout_answers {s : State} {c : Current} {g : Nat} (hcur : s.fw.current = some c) (hwait : c.wait = .entry) (hg : (s.strm (par c 4)).list[par c 5]? = some g) :
    ∃ t, exec .burstRunEntryTimeout s = .next t ∧
      Answered c 0x10 (par c 4) [] (s.modSegm g (fun x => { x with entryPins := x.entryPins - (seqMask c).length })) t := by
  have hentry : (entrySeg s (par c 4) (par c 5)).getD 0 = g := by rw [entrySeg, hg]; rfl
  have hexec : exec .burstRunEntryTimeout s = .next (postBad (s.modSegm g (fun x => { x with entryPins := x.entryPins - (seqMask c).length })) (0x10, par c 4)) := by
    rw [show exec .burstRunEntryTimeout s = execBurstRunEntryTimeout s from rfl, execBurstRunEntryTimeout, dropEntryPins, hcur]
    dsimp only
    rw [if_pos hwait, if_pos hwait, hentry]
  exact ⟨_, hexec, postResponse_answered _ c 0x10 (par c 4) [] hcur⟩

theorem burstRunEntryTimeout_noWait {s : State} (h : ∀ c, s.fw.current = some c → c.wait ≠ .entry) : exec .burstRunEntryTimeout s = .next s := by
  rw [show exec .burstRunEntryTimeout s = execBurstRunEntryTimeout s from rfl, execBurstRunEntryTimeout]
  cases hcur : s.fw.current with
  | none => rfl
  | some c => exact congrArg Host.Outcome.next (if_neg (h c hcur))

/-! JUMP_REQUEST. -/

theorem foldl_jump (x : Jump) (l : List Nat) (hl : l.Nodup) (s : State) :
    (∃ y, l.foldl (fun s q => s.modSeq q (fun z => { z with jump := some x })) s = { s with pat := { s.pat with seq := y } }) ∧
      ∀ q, (l.foldl (fun s q => s.modSeq q (fun z => { z with jump := some x })) s).seq q = if q ∈ l then { s.seq q with jump := some x } else s.seq q := by
  refine ⟨?_, fun q => foldl_keyed (get := State.seq) (f := fun _ z => { z with jump := some x }) (fun s a k => State.modSeq_seq ..) hl s q⟩
  have hkept := foldl_same (F := fun s : State => { s with pat := { s.pat with seq := [] } }) (step := fun s q => s.modSeq q (fun z => { z with jump := some x })) (fun _ _ => rfl) l s
  generalize l.foldl _ s = u at hkept ⊢
  exact ⟨u.pat.seq, congrArg (fun t : State => { t with pat := { t.pat with seq := u.pat.seq } }) hkept⟩

theorem jumpRequest_answers {s : State} {c : Current} {l : List Nat} (h : Picked s 0x0305 c) (hl : l = (seqMask c).filter (fun q => siteRuns (s.seq q))) (hne : l ≠ [])
    (htarget : ∀ q ∈ l, par c 4 < (s.strm (s.seq q).stream).list.length) :
    ∃ u t, exec .jumpRequest s = .next t ∧
      Answered c (if l.length = (seqMask c).length then 0 else 2) (if l.length = (seqMask c).length then 0 else l.length) [w16 l.length] u t ∧
      (∀ q ∈ l, u.seq q = { s.seq q with jump := some { target := par c 4, registered := none, deferred := false } }) ∧
      (∀ q, q ∉ l → u.seq q = s.seq q) ∧
      u = { s with pat := { s.pat with seq := u.pat.seq, fetch := u.pat.fetch, turn := u.pat.turn, fetchReady := u.pat.fetchReady } } := by
  have hnodup : l.Nodup := hl ▸ (nodup_maskList 64 _).filter _
  have hrun : (!l.isEmpty) = true := by
    cases l with
    | nil => exact absurd rfl hne
    | cons => rfl
  have hall : l.all (fun q => decide (par c 4 < (s.strm (s.seq q).stream).list.length)) = true := List.all_eq_true.2 fun q hq => decide_eq_true (htarget q hq)
  obtain ⟨⟨y, hy⟩, hseq⟩ := foldl_jump { target := par c 4, registered := none, deferred := false } l hnodup s
  have hexec : exec .jumpRequest s = .next (
      let u := startFetch (l.foldl (fun s q => s.modSeq q (fun z => { z with jump := some { target := par c 4, registered := none, deferred := false } })) s)
      if l.length = (seqMask c).length then postOk u [w16 l.length] else postResponse u 2 l.length [w16 l.length]) := by
    refine congrArg Host.Outcome.next ((onCommand_picked h (fun _ => true) _ rfl).trans ?_)
    dsimp only
    rw [← hl]
    exact checked_pass _ (firstBad_pass (pass_cons (needParam_of 4 hall) (pass_cons (needState_of 1 hrun) pass_nil)))
  generalize l.foldl (fun s q => s.modSeq q (fun z => { z with jump := some ({ target := par c 4, registered := none, deferred := false } : Jump) })) s = v at hy hseq hexec
  obtain ⟨f, n, r, hfetch⟩ := startFetch_parts v
  rw [hfetch] at hexec
  refine ⟨{ v with pat := { v.pat with fetch := f, turn := n, fetchReady := r } }, _, hexec, ?_, fun q hq => (hseq q).trans (if_pos hq), fun q hq => (hseq q).trans (if_neg hq), by rw [hy]⟩
  have hcur : ({ v with pat := { v.pat with fetch := f, turn := n, fetchReady := r } } : State).fw.current = some c := by rw [hy]; exact h.1
  dsimp only
  split
  · exact postResponse_answered _ c 0 0 _ hcur
  · exact postResponse_answered _ c 2 l.length _ hcur

end Sys2Proof.Machine
end

section
/-! PROOFS. O25, continued: BURST_STOP, and the obligation. -/

set_option Elab.async false

namespace Sys2Proof.Machine

/-! What stopping one site leaves of the sequencers. -/

/-- Between `s` and `v` only sequencer `q` has moved, and it keeps its state and the cause of its end. -/
def SeqStays (q : Nat) (s v : State) : Prop :=
  (∀ k, k ≠ q → v.seq k = s.seq k) ∧ (v.seq q).mode = (s.seq q).mode ∧ (v.seq q).endCause = (s.seq q).endCause

section
variable {q : Nat} {s v : State}

theorem seqStays_of_pat (h : v.pat.seq = s.pat.seq) : SeqStays q s v := by
  have hseq : ∀ k, v.seq k = s.seq k := fun k => congrArg (fun t => tget (fun _ => ({} : SeqState)) t k) h
  exact ⟨fun k _ => hseq k, by rw [hseq], by rw [hseq]⟩

theorem seqStays_trans {w : State} (h : SeqStays q s v) (h' : SeqStays q v w) : SeqStays q s w :=
  ⟨fun k hk => (h'.1 k hk).trans (h.1 k hk), h'.2.1.trans h.2.1, h'.2.2.trans h.2.2⟩

theorem modSeq_ne {f : SeqState → SeqState} {k : Nat} (hk : k ≠ q) : (s.modSeq q f).seq k = s.seq k := (State.modSeq_seq ..).trans (if_neg hk)

theorem modSeq_own {f : SeqState → SeqState} : (s.modSeq q f).seq q = f (s.seq q) := (State.modSeq_seq ..).trans (if_pos rfl)

theorem seqStays_modSeq {f : SeqState → SeqState} (hmode : (f (v.seq q)).mode = (v.seq q).mode) (hcause : (f (v.seq q)).endCause = (v.seq q).endCause)
    (h : SeqStays q s v) : SeqStays q s (v.modSeq q f) :=
  seqStays_trans h ⟨fun _ hk => modSeq_ne hk, by rw [modSeq_own, hmode], by rw [modSeq_own, hcause]⟩

/-- After its end a burst is in ENDING with its cause, or its site is IDLE again. -/
def BurstOver (cause : Nat) (x : SeqState) : Prop := x.mode = .ending ∧ x.endCause = cause ∨ x.mode = .idle

/-- Between `s` and `v` a burst in ENDING may have been settled, and no other sequencer has moved. -/
def Settled (q : Nat) (s v : State) : Prop :=
  (∀ k, k ≠ q → v.seq k = s.seq k) ∧ ((s.seq q).mode = .ending → BurstOver (s.seq q).endCause (v.seq q))

theorem settleBurst_seq (s : State) (q : Nat) : Settled q s (settleBurst s q) := by
  have hend : ∀ (v : State) (e : PendingEnd), (endWork v e).pat = v.pat := fun v e => only_pat (endWork_only (w := 67616) rfl only_refl)
  have hdrop : ∀ (v : State) (r n : Nat) (w : Waiter), (dropRecord (leaveWaiters v r w) r n).pat = v.pat := fun v r n w =>
    only_pat (dropRecord_only (w := 2048) rfl (leaveWaiters_only rfl only_refl))
  unfold settleBurst
  dsimp only
  split
  · exact ⟨fun _ _ => rfl, fun h => Or.inl ⟨h, rfl⟩⟩
  · generalize hfirst : (if (s.seq q).endPhase = 0 then _ else s) = v
    have hv : SeqStays q s v := by
      rw [← hfirst]
      split
      · split
        · split
          · exact seqStays_modSeq rfl rfl (seqStays_of_pat (congrArg Pattern.seq (placeHeld_pat ..)))
          · exact seqStays_of_pat (congrArg Pattern.seq (placeHeld_pat ..))
        · split
          · exact seqStays_modSeq rfl rfl (seqStays_of_pat (congrArg Pattern.seq (hdrop ..)))
          · exact seqStays_of_pat rfl
      · exact seqStays_of_pat rfl
    generalize hsecond : (if (v.seq q).endPhase = 1 then _ else v) = w
    have hw : SeqStays q s w := by
      rw [← hsecond]
      split
      · exact seqStays_modSeq rfl rfl (seqStays_trans hv (seqStays_of_pat (congrArg Pattern.seq (hend ..))))
      · exact hv
    obtain ⟨hothers, hmode, hcause⟩ := hw
    split
    · exact ⟨fun k hk => (modSeq_ne hk).trans (hothers k hk), fun _ => Or.inr (by rw [modSeq_own])⟩
    · exact ⟨hothers, fun h => Or.inl ⟨hmode.trans h, hcause⟩⟩

theorem clearStacks_stays (v : State) (q : Nat) : SeqStays q v (clearStacks v q) := by
  have hframe : ∀ (v : State) (f : LoopFrame), (dropFrame v f).pat.seq = v.pat.seq := fun v f => by
    unfold dropFrame
    exact foldl_same (F := fun v : State => v.pat.seq) (step := fun (s : State) g => s.modSegm g (fun x => { x with loopPins := x.loopPins - 1 })) (fun _ _ => rfl) f.pins v
  unfold clearStacks
  exact seqStays_modSeq rfl rfl (seqStays_of_pat (foldl_same (F := fun v : State => v.pat.seq) (step := dropFrame) hframe (v.seq q).loops v))

theorem leaveFirst_stays (v : State) (q : Nat) : SeqStays q v (leaveFirst v q) := by
  have hleft : SeqStays q v (v.modSeq q (fun x => { x with leftFirst := true, entryPin := none })) := seqStays_modSeq rfl rfl (seqStays_of_pat rfl)
  unfold leaveFirst
  dsimp only
  split
  · exact seqStays_of_pat rfl
  · split
    · exact seqStays_trans hleft (seqStays_of_pat rfl)
    · exact hleft

theorem trigEvent_seq (v : State) (q e t : Nat) : (trigEvent v q e t).pat.seq = v.pat.seq := by
  unfold trigEvent
  generalize List.range 8 = l
  refine foldl_same (F := fun v : State => v.pat.seq) (fun v n => ?_) l v
  split
  · rfl
  · rfl

theorem endBurst_seq (s : State) (q cause : Nat) :
    (∀ k, k ≠ q → (endBurst s q cause).seq k = s.seq k) ∧ ((endBurst s q cause).seq q).mode = .ending ∧ ((endBurst s q cause).seq q).endCause = cause := by
  have hpins : ∀ (l : List Nat) (c : Nat) (v : State), (l.foldl (fun s p => settlePin s p c) v).pat = v.pat := fun l c v =>
    foldl_same (F := State.pat) (step := fun s p => settlePin s p c) (fun v p => only_pat (settlePin_only (w := 128) rfl only_refl)) l v
  have hanswer : ∀ (v : State) (tag : Nat), (answerAbort v tag).pat = v.pat := fun v tag => only_pat (answerAbort_only (w := 69680) rfl only_refl)
  have hran : ∀ c, SeqStays q s (if decide ((s.seq q).mode ≠ .armed) then (s.seq q).lanes.foldl (fun s p => settlePin s p c) s else s) := fun c => by
    split
    · exact seqStays_of_pat (congrArg Pattern.seq (hpins ..))
    · exact seqStays_of_pat rfl
  unfold endBurst
  dsimp only
  have hstart := hran (if decide ((s.seq q).mode ≠ .armed) then (s.seq q).next else 256 * s.now)
  generalize (if decide ((s.seq q).mode ≠ .armed) = true then (s.seq q).lanes.foldl _ s else s) = v at hstart ⊢
  have hleft := seqStays_trans (seqStays_trans hstart (clearStacks_stays v q)) (leaveFirst_stays (clearStacks v q) q)
  generalize leaveFirst (clearStacks v q) q = w at hleft ⊢
  have hother : ∀ (x : SeqState → SeqState) k, k ≠ q → (w.modSeq q x).seq k = s.seq k := fun x k hk => (modSeq_ne hk).trans (hleft.1 k hk)
  generalize hset : w.modSeq q _ = y
  have hset' : (∀ k, k ≠ q → y.seq k = s.seq k) ∧ (y.seq q).mode = .ending ∧ (y.seq q).endCause = cause := by
    rw [← hset]
    exact ⟨fun k hk => hother _ k hk, by rw [modSeq_own], by rw [modSeq_own]⟩
  have hsame : ∀ (z : State), z.pat.seq = y.pat.seq → (∀ k, k ≠ q → z.seq k = s.seq k) ∧ (z.seq q).mode = .ending ∧ (z.seq q).endCause = cause := fun z hz => by
    have hseq : ∀ k, z.seq k = y.seq k := fun k => congrArg (fun t => tget (fun _ => ({} : SeqState)) t k) hz
    exact ⟨fun k hk => (hseq k).trans (hset'.1 k hk), by rw [hseq, hset'.2.1], by rw [hseq, hset'.2.2]⟩
  split
  · exact hsame _ ((trigEvent_seq ..).trans (congrArg Pattern.seq (hanswer ..)))
  · exact hsame _ (congrArg Pattern.seq (hanswer ..))

/-- An end of a burst, settled at once. -/
theorem settled_seq (s : State) (q cause : Nat) :
    (∀ k, k ≠ q → (settleBurst (endBurst s q cause) q).seq k = s.seq k) ∧ BurstOver cause ((settleBurst (endBurst s q cause) q).seq q) := by
  obtain ⟨hothers, hmode, hcause⟩ := endBurst_seq s q cause
  generalize endBurst s q cause = v at hothers hmode hcause ⊢
  obtain ⟨hrest, hown⟩ := settleBurst_seq v q
  refine ⟨fun k hk => (hrest k hk).trans (hothers k hk), ?_⟩
  rw [← hcause]
  exact hown hmode

theorem latchStop_seq_ne (s : State) (q cause : Nat) (b : Bool) {k : Nat} (hk : k ≠ q) : (latchStop s q cause b).seq k = s.seq k := by
  unfold latchStop
  dsimp only
  split
  · rfl
  · rfl
  · exact (settled_seq s q cause).1 k hk
  · split
    · split
      · exact ((settled_seq _ q cause).1 k hk).trans (modSeq_ne hk)
      · exact modSeq_ne hk
    · split
      · exact modSeq_ne hk
      · split
        · exact modSeq_ne hk
        · rfl

theorem latchStop_armed (s : State) (q cause : Nat) (b : Bool) (h : (s.seq q).mode = .armed) : BurstOver cause ((latchStop s q cause b).seq q) := by
  unfold latchStop
  dsimp only
  rw [h]
  exact (settled_seq s q cause).2

theorem latchStop_runs (s : State) (q cause : Nat) (b : Bool) (hruns : siteRuns (s.seq q) = true) (harmed : (s.seq q).mode ≠ .armed) (hstop : (s.seq q).stop = none)
    (hhold : (s.seq q).mode = .starveHold → b = false) :
    latchStop s q cause b = s.modSeq q (fun x => { x with stop := some { cause := cause, atBoundary := b, endsWait := decide (cause = 8) } }) := by
  have hnow : (b && decide ((s.seq q).mode = .starveHold)) = false := by
    cases hb : decide ((s.seq q).mode = .starveHold) with
    | false => exact Bool.and_false b
    | true => rw [hhold (of_decide_eq_true hb)]; rfl
  unfold latchStop
  dsimp only
  rw [hstop]
  dsimp only
  rw [hnow]
  unfold siteRuns at hruns
  split
  · next h => rw [h] at hruns; exact absurd hruns (by decide)
  · next h => rw [h] at hruns; exact absurd hruns (by decide)
  · next h => exact absurd h harmed
  · rfl

end

/-! A stop with a command in EXECUTING that waits for nothing: the mailboxes stay. -/

theorem answerAbort_idle {s : State} {c : Current} (h : OnHand c s) (tag : Nat) : answerAbort s tag = s := by
  rw [answerAbort, onHand_waitsFor (by intro h; exact nomatch h) h]
  rfl

theorem endBurst_mb {s : State} {c : Current} (h : OnHand c s) (q cause : Nat) : (endBurst s q cause).mb = s.mb := by
  have hpins : ∀ (l : List Nat) (c : Nat) (v : State), Only 65920 v (l.foldl (fun s p => settlePin s p c) v) := fun l c v =>
    only_foldl only_refl fun _ _ h => settlePin_only rfl h
  unfold endBurst
  dsimp only
  generalize hran : (if decide ((s.seq q).mode ≠ .armed) = true then (s.seq q).lanes.foldl _ s else s) = v
  have hv : Only 65920 s v := by
    rw [← hran]
    split
    · exact hpins ..
    · exact only_refl
  generalize hset : ((leaveFirst (clearStacks v q) q).modSeq q _).live _ _ _ = y
  have hy : Only 65920 s y := by
    rw [← hset]
    exact State.live_only rfl (State.modSeq_only rfl (leaveFirst_only rfl (clearStacks_only rfl hv)))
  have hhand : OnHand c y := ⟨(congrArg Firmware.current (only_fw hy)).trans h.1, h.2⟩
  rw [answerAbort_idle hhand]
  split
  · rw [only_mb (trigEvent_only (w := 256) rfl only_refl)]
    exact only_mb hy
  · exact only_mb hy

theorem latchStop_mb {s : State} {c : Current} (h : OnHand c s) (q cause : Nat) (b : Bool) : (latchStop s q cause b).mb = s.mb := by
  have hsettled : ∀ {v : State}, OnHand c v → (settleBurst (endBurst v q cause) q).mb = v.mb := fun {v} hv =>
    (only_mb (settleBurst_only (w := 73504) rfl only_refl)).trans (endBurst_mb hv q cause)
  unfold latchStop
  dsimp only
  split
  · rfl
  · rfl
  · exact hsettled h
  · split
    · split
      · exact hsettled ⟨h.1, h.2⟩
      · rfl
    · split
      · rfl
      · split <;> rfl

/-! BURST_STOP. -/

/-- The sites of BURST_STOP. -/
abbrev stopSites (s : State) (c : Current) : List Nat := (seqMask c).filter (fun q => siteRuns (s.seq q))

theorem nodup_stopSites (s : State) (c : Current) : (stopSites s c).Nodup := (nodup_maskList 64 _).filter _

theorem mem_stopSites {s : State} {c : Current} {q : Nat} : q ∈ stopSites s c ↔ q ∈ seqMask c ∧ siteRuns (s.seq q) = true := List.mem_filter

/-- BURST_STOP has latched its stop in every site that runs. -/
def sitesStopped (s : State) (c : Current) : State := (stopSites s c).foldl (fun s q => latchStop s q 8 (decide (par c 4 = 1))) s

theorem burstStop_eq {s : State} {c : Current} (h : Picked s 0x0304 c) :
    exec .burstStop s = .next (checked s [needParam (decide (par c 4 ≤ 1)) 4, needState (!(stopSites s c).isEmpty) 1]
      (fun t => postOk ((stopSites s c).foldl (fun s q => latchStop s q 8 (decide (par c 4 = 1))) t) [w16 (stopSites s c).length])) :=
  congrArg Host.Outcome.next (onCommand_picked h (fun _ => true) _ rfl)

theorem sitesStopped_onHand {s : State} {c : Current} (h : OnHand c s) : OnHand c (sitesStopped s c) :=
  onHand_foldl h fun _ _ ht => latchStop_onHand ht

theorem burstStop_stops {s : State} {c : Current} (h : Picked s 0x0304 c) (hat : par c 4 ≤ 1) (hruns : ∃ q ∈ seqMask c, siteRuns (s.seq q) = true) :
    ∃ t, exec .burstStop s = .next t ∧ Answered c 0 0 [w16 (stopSites s c).length] (sitesStopped s c) t := by
  obtain ⟨q, hq, hrun⟩ := hruns
  have hne : (!(stopSites s c).isEmpty) = true := by
    rw [List.isEmpty_eq_false_iff_exists_mem.2 ⟨q, mem_stopSites.2 ⟨hq, hrun⟩⟩]
    rfl
  refine ⟨postOk (sitesStopped s c) [w16 (stopSites s c).length], ?_,
    postResponse_answered _ c 0 0 _ (sitesStopped_onHand (onHand_of_picked h)).1⟩
  rw [burstStop_eq h]
  exact congrArg Host.Outcome.next (checked_pass _ (firstBad_pass (pass_cons (needParam_of 4 (decide_eq_true hat)) (pass_cons (needState_of 1 hne) pass_nil))))

theorem burstStop_refused {s : State} {c : Current} (h : Picked s 0x0304 c) (hat : par c 4 ≤ 1) (hnone : ∀ q ∈ seqMask c, siteRuns (s.seq q) = false) :
    ∃ t, exec .burstStop s = .next t ∧ Answered c 0x13 1 [] s t := by
  have hempty : (!(stopSites s c).isEmpty) = false := by
    have hnil : stopSites s c = [] := List.filter_eq_nil_iff.2 fun q hq => by rw [hnone q hq]; exact Bool.false_ne_true
    rw [hnil]
    rfl
  have hbad : firstBad [needParam (decide (par c 4 ≤ 1)) 4, needState (!(stopSites s c).isEmpty) 1] = some (0x13, 1) := by
    rw [hempty, needParam_of 4 (decide_eq_true hat)]
    rfl
  refine ⟨postBad s (0x13, 1), ?_, postResponse_answered _ c 0x13 1 _ h.1⟩
  rw [burstStop_eq h]
  exact congrArg Host.Outcome.next (checked_fail _ hbad)

theorem foldl_stop (b : Bool) (l : List Nat) (hl : l.Nodup) (s : State) :
    (∃ y, l.foldl (fun s q => s.modSeq q (fun x => { x with stop := some { cause := 8, atBoundary := b, endsWait := true } })) s = { s with pat := { s.pat with seq := y } }) ∧
      ∀ q, (l.foldl (fun s q => s.modSeq q (fun x => { x with stop := some { cause := 8, atBoundary := b, endsWait := true } })) s).seq q =
        if q ∈ l then { s.seq q with stop := some { cause := 8, atBoundary := b, endsWait := true } } else s.seq q := by
  refine ⟨?_, fun q => foldl_keyed (get := State.seq) (f := fun _ x => { x with stop := some { cause := 8, atBoundary := b, endsWait := true } }) (fun s a k => State.modSeq_seq ..) hl s q⟩
  have hkept := foldl_same (F := fun s : State => { s with pat := { s.pat with seq := [] } })
    (step := fun s q => s.modSeq q (fun x => { x with stop := some { cause := 8, atBoundary := b, endsWait := true } })) (fun _ _ => rfl) l s
  generalize l.foldl _ s = u at hkept ⊢
  exact ⟨u.pat.seq, congrArg (fun t : State => { t with pat := { t.pat with seq := u.pat.seq } }) hkept⟩

/-- Stops latched in sites none of which is armed, is stopping or would have to end at once. -/
theorem sitesStopped_latched {s : State} {c : Current} (h : ∀ q ∈ seqMask c, (s.seq q).mode ≠ .armed ∧ (s.seq q).stop = none ∧ ((s.seq q).mode = .starveHold → par c 4 = 0)) :
    (∀ q ∈ seqMask c, siteRuns (s.seq q) = true →
        (sitesStopped s c).seq q = { s.seq q with stop := some { cause := 8, atBoundary := decide (par c 4 = 1), endsWait := true } }) ∧
      (∀ q, (q ∉ seqMask c ∨ siteRuns (s.seq q) = false) → (sitesStopped s c).seq q = s.seq q) ∧
      sitesStopped s c = { s with pat := { s.pat with seq := (sitesStopped s c).pat.seq } } := by
  have hfold : sitesStopped s c = (stopSites s c).foldl (fun s q => s.modSeq q (fun x => { x with stop := some { cause := 8, atBoundary := decide (par c 4 = 1), endsWait := true } })) s := by
    refine foldl_keyed_congr (get := State.seq) (P := fun x => siteRuns x = true ∧ x.mode ≠ .armed ∧ x.stop = none ∧ (x.mode = .starveHold → decide (par c 4 = 1) = false))
      (fun s q hq => ?_) (fun s k j hj => modSeq_ne hj) (nodup_stopSites s c) fun q hq => ?_
    · obtain ⟨hruns, harmed, hstop, hhold⟩ := hq
      exact latchStop_runs s q 8 _ hruns harmed hstop hhold
    · obtain ⟨hmask, hruns⟩ := mem_stopSites.1 hq
      obtain ⟨harmed, hstop, hhold⟩ := h q hmask
      exact ⟨hruns, harmed, hstop, fun hmode => decide_eq_false (by rw [hhold hmode]; decide)⟩
  obtain ⟨⟨y, hy⟩, hseq⟩ := foldl_stop (decide (par c 4 = 1)) (stopSites s c) (nodup_stopSites s c) s
  rw [← hfold] at hy hseq
  refine ⟨fun q hq hruns => (hseq q).trans (if_pos (mem_stopSites.2 ⟨hq, hruns⟩)), fun q hq => (hseq q).trans (if_neg fun hmem => ?_), by rw [hy]⟩
  obtain ⟨hmask, hruns⟩ := mem_stopSites.1 hmem
  rcases hq with hq | hq
  · exact hq hmask
  · exact absurd (hq.symm.trans hruns) Bool.false_ne_true

/-- What BURST_STOP may change, whatever its sites do. -/
theorem sitesStopped_parts {s : State} {c : Current} (h : OnHand c s) :
    sitesStopped s c = { s with fw := { s.fw with progress := (sitesStopped s c).fw.progress }, edge := (sitesStopped s c).edge, pat := (sitesStopped s c).pat, lp := (sitesStopped s c).lp, meas := (sitesStopped s c).meas, harv := (sitesStopped s c).harv, link := (sitesStopped s c).link, flt := (sitesStopped s c).flt } := by
  have honly : Only 73648 s (sitesStopped s c) := only_foldl only_refl fun _ _ h => latchStop_only rfl h
  have hcalm : Calm s (sitesStopped s c) := calm_foldl calm_refl fun _ _ h => latchStop_calm h
  have hmb : (sitesStopped s c).mb = s.mb ∧ OnHand c (sitesStopped s c) := by
    unfold sitesStopped
    generalize stopSites s c = l
    have hgen : ∀ (l : List Nat) (v : State), OnHand c v → (l.foldl (fun s q => latchStop s q 8 (decide (par c 4 = 1))) v).mb = v.mb := fun l => by
      induction l with
      | nil => exact fun _ _ => rfl
      | cons q l ih => exact fun v hv => (ih _ (latchStop_onHand hv)).trans (latchStop_mb hv ..)
    exact ⟨hgen l s h, onHand_foldl h fun _ _ ht => latchStop_onHand ht⟩
  obtain ⟨hmb, hcur, -⟩ := hmb
  have hfw : (sitesStopped s c).fw = { s.fw with progress := (sitesStopped s c).fw.progress } := by
    have hrest := congrArg (fun f : Firmware => { f with current := (sitesStopped s c).fw.current, progress := (sitesStopped s c).fw.progress }) (fwRest_of_calm hcalm)
    refine Eq.trans ?_ (hrest.trans ?_)
    · rfl
    · rw [hcur, ← h.1]
      rfl
  generalize sitesStopped s c = u at honly hmb hfw ⊢
  have heq : u = { s with mb := u.mb, fw := u.fw, edge := u.edge, pat := u.pat, lp := u.lp, meas := u.meas, harv := u.harv, link := u.link, flt := u.flt } := only_eq honly
  rw [hmb, hfw] at heq
  exact heq

theorem burstStop_armed {s : State} {c : Current} {q : Nat} (hq : q ∈ seqMask c) (h : (s.seq q).mode = .armed) : BurstOver 8 ((sitesStopped s c).seq q) :=
  (foldl_keyed_rel (get := State.seq) (R := fun _ x y => x.mode = .armed → BurstOver 8 y) (fun v k hk => latchStop_armed v k 8 _ hk)
    (fun v k j hj => latchStop_seq_ne v k 8 _ hj) (nodup_stopSites s c) s q).1 (mem_stopSites.2 ⟨hq, by rw [siteRuns, h]; decide⟩) h

/-- Settles O25: one lemma for each answer of the commands. -/
theorem streamAndBurstCommands : Obligations.StreamAndBurstCommands := by
  unfold Obligations.StreamAndBurstCommands
  refine ⟨?_, ?_, ?_, ?_, ?_, ?_, ?_, ?_, ?_, ?_, ?_, ?_⟩
  · exact fun s c h ha hstream hseal hpre hcount hnamed hclosed hdram => streamOpen_opens h ha hstream hseal hpre hcount hnamed hclosed hdram
  · exact fun s c w h ha hstream hseal hpre hcount hwidth hlen hnamed hopen hsealed hdram => streamAppend_extends h ha hstream hseal hpre hcount hwidth hlen hnamed hopen hsealed hdram
  · exact fun s c h ha hstream hseal hdram hopen => streamClose_closes h ha hstream hseal hdram hopen
  · exact fun s c h ha hstream hseal hmin hmax hdram hclosed hrings => streamMap_maps h ha hstream hseal hmin hmax hdram hclosed hrings
  · exact fun s c h hstream hseal hpre hcount hdram => streamOpen_noDram h hstream hseal hpre hcount hdram
  · exact fun s c w g h hsome hstream hopen hw hg hlanes hstart hzero hlead hset hring htag htags href hhold hidle hsites hfits =>
      burstRun_answers h hsome hstream hopen hw hg hlanes hstart hzero hlead hset hring ⟨htag, htags⟩ href hhold hidle hsites hfits
  · exact fun s c g hcur hwait hg => burstRunEntryTimeout_answers hcur hwait hg
  · exact fun s h => burstRunEntryTimeout_noWait h
  · intro s c h hat hruns hlatch
    obtain ⟨t, hexec, hans⟩ := burstStop_stops h hat hruns
    obtain ⟨hstop, hothers, hparts⟩ := sitesStopped_latched hlatch
    exact ⟨_, t, hexec, hans, hstop, hothers, hparts⟩
  · intro s c h hat hruns
    obtain ⟨t, hexec, hans⟩ := burstStop_stops h hat hruns
    exact ⟨_, t, hexec, hans, fun q hq harmed => burstStop_armed hq harmed, sitesStopped_parts (onHand_of_picked h)⟩
  · exact fun s c h hat hnone => burstStop_refused h hat hnone
  · exact fun s c l h hl hne htarget => jumpRequest_answers h hl hne htarget

end Sys2Proof.Machine
end

section
/-! PROOFS. What the end of a loop's work never touches (`LoopsHold`): ending its run, returning credit, aborting a frame and serving
who waits change of a loop its source, its rate of change and its set-point alone. One lemma for each operation that can change a
loop, in the order of the model. -/

set_option Elab.async false
set_option linter.unusedVariables false
set_option linter.unusedTactic false
set_option linter.unreachableTactic false

namespace Sys2Proof.Machine

/-- A loop but for its source, the rates of a profile and its set-point. -/
def holdOf (x : LoopState) : LoopState := { x with source := .dc, rate := 0, accel := 0, setPoint := 0 }

/-- Every loop of `t` is that of `v` but for its source, the rates of a profile and its set-point. -/
@[irreducible] def LoopsHold (v t : State) : Prop := (fun l => holdOf (t.loop l)) = fun l => holdOf (v.loop l)

variable {v s : State}

theorem holds_refl : LoopsHold s s := by unfold LoopsHold; rfl

theorem holds_only {t : State} {w : Nat} (h : Only w s t) (hw : w.testBit 9 = false) (hv : LoopsHold v s) : LoopsHold v t := by
  unfold LoopsHold State.loop at hv ⊢
  rw [only_lp h hw]
  exact hv

theorem holds_mk {a0 a1 a2 a3 a4 a5 a6 a7 a8 a9 a10 a11 a12 a13 a14 a15 a16} (hloop : a9.loop = s.lp.loop) (h : LoopsHold v s) :
    LoopsHold v (State.mk a0 a1 a2 a3 a4 a5 a6 a7 a8 a9 a10 a11 a12 a13 a14 a15 a16) := by
  unfold LoopsHold State.loop at h ⊢
  dsimp only
  rw [hloop]
  exact h

theorem modLoop_holds {k : Nat} {f : LoopState → LoopState} (hf : ∀ x, holdOf (f x) = holdOf x) (h : LoopsHold v s) : LoopsHold v (s.modLoop k f) := by
  unfold LoopsHold at h ⊢
  refine Eq.trans (funext fun p => ?_) h
  rw [State.modLoop_loop]
  split
  next heq => rw [hf, heq]
  next => rfl

theorem modSweep_holds {a2} {a3} (h : LoopsHold v s) : LoopsHold v (modSweep s a2 a3) := by
  unfold modSweep
  refine modLoop_holds (fun x => ?_) h
  cases hx : x.source <;> rfl

theorem holds_ite {c : Prop} [Decidable c] {a b : State} (h1 : c → LoopsHold v a) (h2 : ¬c → LoopsHold v b) : LoopsHold v (if c then a else b) := by
  split
  · exact h1 ‹_›
  · exact h2 ‹_›

theorem holds_foldl {α} {f : State → α → State} {l : List α} (h : LoopsHold v s) (hf : ∀ t a, LoopsHold v t → LoopsHold v (f t a)) : LoopsHold v (l.foldl f s) := by
  induction l generalizing s with
  | nil => exact h
  | cons a r ih => exact ih (hf _ _ h)

/-- A state that comes with an answer. -/
def LoopsHoldFst {α : Type} (v : State) (q : State × α) : Prop := LoopsHold v q.1

theorem holds_fst {α : Type} {q : State × α} {t : State} {x : α} (e : q = (t, x)) (h : LoopsHoldFst v q) : LoopsHold v t := by
  subst e
  exact h

theorem holds_of_fst {α : Type} {q : State × α} (h : LoopsHoldFst v q) : LoopsHold v q.1 := h

theorem holdsFst_mk {α : Type} {x : α} (h : LoopsHold v s) : LoopsHoldFst v (s, x) := h

theorem holdsFst_ite {α : Type} {c : Prop} [Decidable c] {a b : State × α} (h1 : c → LoopsHoldFst v a) (h2 : ¬c → LoopsHoldFst v b) :
    LoopsHoldFst v (if c then a else b) := by
  split
  · exact h1 ‹_›
  · exact h2 ‹_›

theorem holdsFst_foldl {α β : Type} {f : State × β → α → State × β} {l : List α} {q : State × β} (h : LoopsHoldFst v q)
    (hf : ∀ t a, LoopsHold v t.1 → LoopsHoldFst v (f t a)) : LoopsHoldFst v (l.foldl f q) := by
  induction l generalizing q with
  | nil => exact h
  | cons a r ih => exact ih (hf _ _ h)

theorem holdsFoldl_fst {α β : Type} {f : State × β → α → State × β} {l : List α} {q : State × β} (h : LoopsHoldFst v q)
    (hf : ∀ t a, LoopsHold v t.1 → LoopsHoldFst v (f t a)) : LoopsHold v (l.foldl f q).1 := holdsFst_foldl h hf

theorem State.modSeq_holds {a2} {a3} (h : LoopsHold v s) : LoopsHold v (State.modSeq s a2 a3) :=
  holds_only (State.modSeq_only (w := 256) rfl only_refl) rfl h

theorem modMeasRun_holds {a2} {a3} (h : LoopsHold v s) : LoopsHold v (modMeasRun s a2 a3) :=
  holds_only (modMeasRun_only (w := 1024) rfl only_refl) rfl h

theorem modLockRun_holds {a2} {a3} (h : LoopsHold v s) : LoopsHold v (modLockRun s a2 a3) :=
  holds_only (modLockRun_only (w := 1024) rfl only_refl) rfl h

theorem modTimRun_holds {a2} {a3} (h : LoopsHold v s) : LoopsHold v (modTimRun s a2 a3) :=
  holds_only (modTimRun_only (w := 1024) rfl only_refl) rfl h

theorem grantCredit_holds {a2} {a3} {a4} (h : LoopsHold v s) : LoopsHold v (grantCredit s a2 a3 a4) := by
  unfold grantCredit
  repeat' (first | with_reducible assumption | intro _ | with_reducible apply holds_foldl | with_reducible apply State.modSeq_holds | with_reducible apply modSweep_holds | with_reducible apply modMeasRun_holds | with_reducible apply modLockRun_holds | with_reducible apply modTimRun_holds | (fail_if_no_progress with_reducible (refine holds_mk rfl ?_)) | split | dsimp only)

theorem leaveWaiters_holds {a2} {a3} (h : LoopsHold v s) : LoopsHold v (leaveWaiters s a2 a3) :=
  holds_only (leaveWaiters_only (w := 2048) rfl only_refl) rfl h

theorem takeCredit_holds {a2} {a3} (h : LoopsHold v s) : LoopsHold v (takeCredit s a2 a3) :=
  holds_only (takeCredit_only (w := 2048) rfl only_refl) rfl h

theorem serveWaiters_holds {a2} {a3} (h : LoopsHold v s) : LoopsHold v (serveWaiters s a2 a3) := by
  induction a3 generalizing s with
  | nil => unfold serveWaiters; exact h
  | cons x q ih =>
    unfold serveWaiters
    repeat' (first | with_reducible apply ih | with_reducible refine holds_of_fst (ih ?_) | with_reducible assumption | intro _ | with_reducible apply holds_ite | with_reducible apply grantCredit_holds | with_reducible apply leaveWaiters_holds | with_reducible apply takeCredit_holds | split | dsimp only)

theorem closeLoss_holds {a2} (h : LoopsHold v s) : LoopsHold v (closeLoss s a2) :=
  holds_only (closeLoss_only (w := 71936) rfl only_refl) rfl h

theorem retryEnds_holds {a2} (h : LoopsHold v s) : LoopsHold v (retryEnds s a2) :=
  holds_only (retryEnds_only (w := 2080) rfl only_refl) rfl h

theorem serviceRing_holds {a2} (h : LoopsHold v s) : LoopsHold v (serviceRing s a2) := by
  unfold serviceRing
  repeat' (first | with_reducible assumption | intro _ | with_reducible apply closeLoss_holds | with_reducible apply serveWaiters_holds | with_reducible apply retryEnds_holds | dsimp only)

theorem State.modRing_holds {a2} {a3} (h : LoopsHold v s) : LoopsHold v (State.modRing s a2 a3) :=
  holds_only (State.modRing_only (w := 2048) rfl only_refl) rfl h

theorem returnCredit_holds {a2} {a3} (h : LoopsHold v s) : LoopsHold v (returnCredit s a2 a3) := by
  unfold returnCredit
  repeat' (first | with_reducible assumption | intro _ | with_reducible apply serviceRing_holds | with_reducible apply State.modRing_holds | dsimp only)

theorem stageRoom_holds {a2} {a3} (h : LoopsHold v s) : ∀ t, stageRoom s a2 a3 = some t → LoopsHold v t :=
  fun t e => holds_only (stageRoom_only (w := 2048) rfl only_refl t e) rfl h

theorem State.raise_holds {a2} {a3} {a4} {a5} (h : LoopsHold v s) : LoopsHold v (State.raise s a2 a3 a4 a5) :=
  holds_only (State.raise_only (w := 65536) rfl only_refl) rfl h

theorem placeIn_holds {a2} {a3} {a4} {a5} {a6} (h : LoopsHold v s) : LoopsHold v (placeIn s a2 a3 a4 a5 a6) :=
  holds_only (placeIn_only (w := 2048) rfl only_refl) rfl h

theorem placeHeld_holds {a2} {a3} {a4} {a5} {a6} {a7} {a8} {a9} {a10} (h : LoopsHold v s) : LoopsHoldFst v (placeHeld s a2 a3 a4 a5 a6 a7 a8 a9 a10) := by
  unfold placeHeld
  repeat' (first | with_reducible assumption | intro _ | with_reducible apply holds_ite | with_reducible apply holdsFst_ite | with_reducible refine stageRoom_holds ?_ _ (by with_reducible assumption) | with_reducible apply State.raise_holds | with_reducible apply State.modRing_holds | with_reducible apply placeIn_holds | with_reducible apply serviceRing_holds | split | with_reducible apply holdsFst_mk | with_reducible refine holds_fst (by with_reducible assumption) ?_ | dsimp only)

theorem placeLast_holds {a2} {a3} {a4} {a5} {a6} {a7} {a8} {a9} {a10} (h : LoopsHold v s) : LoopsHold v (placeLast s a2 a3 a4 a5 a6 a7 a8 a9 a10) := by
  unfold placeLast
  repeat' (first | with_reducible assumption | intro _ | with_reducible apply holds_ite | with_reducible apply holdsFst_ite | with_reducible apply placeHeld_holds | with_reducible refine holds_of_fst (placeHeld_holds ?_) | with_reducible refine holds_fst (by with_reducible assumption) (placeHeld_holds ?_) | (fail_if_no_progress with_reducible (refine holds_mk rfl ?_)) | split | with_reducible apply holdsFst_mk | with_reducible refine holds_fst (by with_reducible assumption) ?_ | dsimp only)

theorem State.modAvg_holds {a2} {a3} (h : LoopsHold v s) : LoopsHold v (State.modAvg s a2 a3) :=
  holds_only (State.modAvg_only (w := 1024) rfl only_refl) rfl h

theorem endWork_holds {a2} (h : LoopsHold v s) : LoopsHold v (endWork s a2) :=
  holds_only (endWork_only (w := 67616) rfl only_refl) rfl h

theorem endLockRun_holds {a2} {a3} {a4} (h : LoopsHold v s) : LoopsHold v (endLockRun s a2 a3 a4) := by
  unfold endLockRun
  repeat' (first | with_reducible assumption | intro _ | with_reducible apply holds_ite | with_reducible apply State.modAvg_holds | with_reducible apply leaveWaiters_holds | with_reducible apply returnCredit_holds | with_reducible apply endWork_holds | split | dsimp only)

theorem putLast_holds {a2} {a3} {a4} {a5} {a6} (h : LoopsHold v s) : LoopsHold v (putLast s a2 a3 a4 a5 a6) := by
  unfold putLast
  repeat' (first | with_reducible assumption | intro _ | with_reducible apply holds_ite | with_reducible apply placeLast_holds | split | with_reducible apply holdsFst_mk | with_reducible refine holds_fst (by with_reducible assumption) ?_ | dsimp only)

theorem State.modProg_holds {a2} {a3} (h : LoopsHold v s) : LoopsHold v (State.modProg s a2 a3) :=
  holds_only (State.modProg_only (w := 32) rfl only_refl) rfl h

theorem endLockWindow_holds {a2} (h : LoopsHold v s) : LoopsHold v (endLockWindow s a2) := by
  unfold endLockWindow
  repeat' (first | with_reducible assumption | intro _ | with_reducible apply holds_ite | with_reducible apply holdsFst_ite | with_reducible apply placeHeld_holds | with_reducible refine holds_of_fst (placeHeld_holds ?_) | with_reducible refine holds_fst (by with_reducible assumption) (placeHeld_holds ?_) | with_reducible apply modLockRun_holds | with_reducible apply State.modProg_holds | with_reducible apply endLockRun_holds | split | with_reducible apply holdsFst_mk | with_reducible refine holds_fst (by with_reducible assumption) ?_ | dsimp only)

theorem cutLock_holds {a2} {a3} (h : LoopsHold v s) : LoopsHold v (cutLock s a2 a3) := by
  unfold cutLock
  repeat' (first | with_reducible assumption | intro _ | with_reducible apply endLockWindow_holds | with_reducible apply modLockRun_holds | with_reducible apply putLast_holds | with_reducible apply endLockRun_holds | split | dsimp only)

theorem endRefs_holds {a2} {a3} (h : LoopsHold v s) : LoopsHold v (endRefs s a2 a3) := by
  unfold endRefs
  repeat' (first | with_reducible assumption | intro _ | with_reducible apply holds_foldl | with_reducible apply holdsFst_foldl | with_reducible apply holdsFoldl_fst | with_reducible apply cutLock_holds | dsimp only)

theorem endLoopRun_holds {a2} {a3} {a4} {a5} (h : LoopsHold v s) : LoopsHold v (endLoopRun s a2 a3 a4 a5) := by
  unfold endLoopRun
  repeat' (first | with_reducible assumption | intro _ | with_reducible apply holds_ite | with_reducible apply returnCredit_holds | with_reducible apply State.modAvg_holds | with_reducible apply endRefs_holds | with_reducible refine modLoop_holds (fun _ => rfl) ?_ | with_reducible apply endWork_holds | split | dsimp only)

theorem State.modStage_holds {a2} {a3} (h : LoopsHold v s) : LoopsHold v (State.modStage s a2 a3) :=
  holds_only (State.modStage_only (w := 8192) rfl only_refl) rfl h

theorem freeTelem_holds {a2} (h : LoopsHold v s) : LoopsHold v (freeTelem s a2) := by
  unfold freeTelem
  repeat' (first | with_reducible assumption | intro _ | with_reducible apply holds_ite | with_reducible apply returnCredit_holds | with_reducible apply State.modStage_holds | dsimp only)

theorem abortFrame_holds {a2} {a3} (h : LoopsHold v s) : LoopsHold v (abortFrame s a2 a3) := by
  unfold abortFrame
  repeat' (first | with_reducible assumption | intro _ | with_reducible apply freeTelem_holds | with_reducible apply State.modStage_holds | with_reducible apply State.raise_holds | split | dsimp only)

theorem disableStage_holds {a2} (h : LoopsHold v s) : LoopsHold v (disableStage s a2) := by
  unfold disableStage
  repeat' (first | with_reducible assumption | intro _ | with_reducible apply holds_ite | with_reducible apply holds_foldl | with_reducible apply abortFrame_holds | with_reducible apply State.modStage_holds | dsimp only)

end Sys2Proof.Machine

end

section
/-! PROOFS. What the engines' bookkeeping never touches of the fault blocks (`FaultsGrow`): whatever a reset, a cloche or the end of a
run does beside, the faults that wait for their block go on waiting, and of a block only its LIVE bits move. One lemma for each
operation that can raise a fault, in the order of the model. -/

set_option Elab.async false
set_option linter.unusedVariables false
set_option linter.unusedTactic false
set_option linter.unreachableTactic false

namespace Sys2Proof.Machine

/-- A fault block but for its LIVE bits. -/
def recordOf (x : FaultBlock) : FaultBlock := { x with live := 0 }

/-- The faults that wait in `v` wait in `t`, in their order and first, and every fault block of `t` is that of `v` but for its LIVE
bits. -/
@[irreducible] def FaultsGrow (v t : State) : Prop :=
  v.flt.waiting <+: t.flt.waiting ∧ (fun k => recordOf (t.fblk k)) = fun k => recordOf (v.fblk k)

variable {v s : State}

theorem grows_refl : FaultsGrow s s := by
  unfold FaultsGrow
  exact ⟨List.prefix_rfl, rfl⟩

theorem grows_waiting {t : State} (h : FaultsGrow v t) : v.flt.waiting <+: t.flt.waiting := by
  unfold FaultsGrow at h
  exact h.1

theorem grows_record {t : State} (h : FaultsGrow v t) (k : Nat) : recordOf (t.fblk k) = recordOf (v.fblk k) := by
  unfold FaultsGrow at h
  exact congrFun h.2 k

theorem grows_of {t : State} (hw : s.flt.waiting <+: t.flt.waiting) (hf : ∀ k, recordOf (t.fblk k) = recordOf (s.fblk k)) (h : FaultsGrow v s) : FaultsGrow v t := by
  unfold FaultsGrow at h ⊢
  exact ⟨h.1.trans hw, (funext hf).trans h.2⟩

theorem grows_only {t : State} {w : Nat} (h : Only w s t) (hw : w.testBit 16 = false) (hv : FaultsGrow v s) : FaultsGrow v t := by
  have hflt := only_flt h hw
  exact grows_of (by rw [hflt]) (fun k => by rw [State.fblk, hflt]; rfl) hv

theorem grows_mk {a0 a1 a2 a3 a4 a5 a6 a7 a8 a9 a10 a11 a12 a13 a14 a15 a16} (hblock : a16.block = s.flt.block) (hwait : a16.waiting = s.flt.waiting)
    (h : FaultsGrow v s) : FaultsGrow v (State.mk a0 a1 a2 a3 a4 a5 a6 a7 a8 a9 a10 a11 a12 a13 a14 a15 a16) :=
  grows_of (by rw [hwait]) (fun k => by unfold State.fblk; rw [hblock]) h

theorem State.live_grows {a2} {a3} {a4} (h : FaultsGrow v s) : FaultsGrow v (State.live s a2 a3 a4) := by
  refine grows_of (s := s) List.prefix_rfl (fun k => ?_) h
  rw [State.live, State.modFblk_fblk]
  split
  next heq => rw [heq]; rfl
  next => rfl

theorem State.raise_grows {a2} {a3} {a4} {a5} (h : FaultsGrow v s) : FaultsGrow v (State.raise s a2 a3 a4 a5) := by
  have hlive : FaultsGrow v (if srcEvent a2 a3 then s else s.live a2 a3 true) := by
    split
    · exact h
    · exact State.live_grows h
  exact grows_of (List.prefix_append ..) (fun _ => rfl) hlive

theorem grows_ite {c : Prop} [Decidable c] {a b : State} (h1 : c → FaultsGrow v a) (h2 : ¬c → FaultsGrow v b) : FaultsGrow v (if c then a else b) := by
  split
  · exact h1 ‹_›
  · exact h2 ‹_›

theorem grows_foldl {α} {f : State → α → State} {l : List α} (h : FaultsGrow v s) (hf : ∀ t a, FaultsGrow v t → FaultsGrow v (f t a)) : FaultsGrow v (l.foldl f s) := by
  induction l generalizing s with
  | nil => exact h
  | cons a r ih => exact ih (hf _ _ h)

/-- A state that comes with an answer. -/
def FaultsGrowFst {α : Type} (v : State) (q : State × α) : Prop := FaultsGrow v q.1

theorem grows_fst {α : Type} {q : State × α} {t : State} {x : α} (e : q = (t, x)) (h : FaultsGrowFst v q) : FaultsGrow v t := by
  subst e
  exact h

theorem grows_of_fst {α : Type} {q : State × α} (h : FaultsGrowFst v q) : FaultsGrow v q.1 := h

theorem growsFst_mk {α : Type} {x : α} (h : FaultsGrow v s) : FaultsGrowFst v (s, x) := h

theorem growsFst_ite {α : Type} {c : Prop} [Decidable c] {a b : State × α} (h1 : c → FaultsGrowFst v a) (h2 : ¬c → FaultsGrowFst v b) :
    FaultsGrowFst v (if c then a else b) := by
  split
  · exact h1 ‹_›
  · exact h2 ‹_›

theorem growsFst_foldl {α β : Type} {f : State × β → α → State × β} {l : List α} {q : State × β} (h : FaultsGrowFst v q)
    (hf : ∀ t a, FaultsGrow v t.1 → FaultsGrowFst v (f t a)) : FaultsGrowFst v (l.foldl f q) := by
  induction l generalizing q with
  | nil => exact h
  | cons a r ih => exact ih (hf _ _ h)

theorem growsFoldl_fst {α β : Type} {f : State × β → α → State × β} {l : List α} {q : State × β} (h : FaultsGrowFst v q)
    (hf : ∀ t a, FaultsGrow v t.1 → FaultsGrowFst v (f t a)) : FaultsGrow v (l.foldl f q).1 := growsFst_foldl h hf

theorem State.modBedc_grows {a2} {a3} (h : FaultsGrow v s) : FaultsGrow v (State.modBedc s a2 a3) := grows_mk rfl rfl h

theorem State.modLoopc_grows {a2} {a3} (h : FaultsGrow v s) : FaultsGrow v (State.modLoopc s a2 a3) := grows_mk rfl rfl h

theorem State.modPert_grows {a2} {a3} (h : FaultsGrow v s) : FaultsGrow v (State.modPert s a2 a3) := grows_mk rfl rfl h

theorem State.modCls_grows {a2} {a3} {a4} (h : FaultsGrow v s) : FaultsGrow v (State.modCls s a2 a3 a4) :=
  grows_only (State.modCls_only (w := 4096) rfl only_refl) rfl h

theorem enqueueFrom_grows {a1} {a3} {a4} {a5} (h : FaultsGrow v s) : FaultsGrow v (enqueueFrom a1 s a3 a4 a5) := by
  unfold enqueueFrom
  repeat' (first | with_reducible assumption | intro _ | with_reducible apply grows_ite | with_reducible apply State.raise_grows | with_reducible apply State.modCls_grows | dsimp only)

theorem enqueue_grows {a2} {a3} {a4} (h : FaultsGrow v s) : FaultsGrow v (enqueue s a2 a3 a4) := by
  unfold enqueue
  repeat' (first | with_reducible assumption | intro _ | with_reducible apply enqueueFrom_grows)

theorem sendRoot_grows {a2} {a3} {a4} (h : FaultsGrow v s) : FaultsGrow v (sendRoot s a2 a3 a4) := by
  unfold sendRoot
  repeat' (first | with_reducible assumption | intro _ | with_reducible apply enqueue_grows | (fail_if_no_progress with_reducible (refine grows_mk rfl rfl ?_)) | dsimp only)

theorem sendEvent_grows {a2} {a3} (h : FaultsGrow v s) : FaultsGrow v (sendEvent s a2 a3) := by
  unfold sendEvent
  repeat' (first | with_reducible assumption | intro _ | with_reducible apply sendRoot_grows)

theorem State.modRing_grows {a2} {a3} (h : FaultsGrow v s) : FaultsGrow v (State.modRing s a2 a3) :=
  grows_only (State.modRing_only (w := 2048) rfl only_refl) rfl h

theorem sendNotify_grows {a2} (h : FaultsGrow v s) : FaultsGrow v (sendNotify s a2) := by
  unfold sendNotify
  repeat' (first | with_reducible assumption | intro _ | with_reducible apply sendRoot_grows | with_reducible apply State.modRing_grows | split | dsimp only)

theorem notifyUnitsCheck_grows {a2} (h : FaultsGrow v s) : FaultsGrow v (notifyUnitsCheck s a2) := by
  unfold notifyUnitsCheck
  repeat' (first | with_reducible assumption | intro _ | with_reducible apply grows_ite | with_reducible apply sendNotify_grows | dsimp only)

theorem advanceRing_grows {a2} (h : FaultsGrow v s) : FaultsGrow v (advanceRing s a2) := by
  unfold advanceRing
  repeat' (first | with_reducible assumption | intro _ | with_reducible apply grows_ite | with_reducible apply State.modRing_grows | with_reducible apply notifyUnitsCheck_grows | split | with_reducible apply growsFst_mk | with_reducible refine grows_fst (by with_reducible assumption) ?_ | dsimp only)

theorem markWritten_grows {a2} {a3} (h : FaultsGrow v s) : FaultsGrow v (markWritten s a2 a3) := by
  unfold markWritten
  repeat' (first | with_reducible assumption | intro _ | with_reducible apply grows_ite | with_reducible apply State.modRing_grows | with_reducible apply advanceRing_grows | dsimp only)

theorem ringWrite_grows {a2} {a3} {a4} (h : FaultsGrow v s) : FaultsGrow v (ringWrite s a2 a3 a4) :=
  grows_only (ringWrite_only (w := 256) rfl only_refl) rfl h

theorem closeLoss_grows {a2} (h : FaultsGrow v s) : FaultsGrow v (closeLoss s a2) := by
  unfold closeLoss
  repeat' (first | with_reducible assumption | intro _ | with_reducible apply grows_ite | with_reducible apply ringWrite_grows | with_reducible apply State.modRing_grows | with_reducible apply markWritten_grows | split | dsimp only)

theorem placeCompletion_grows {a2} (h : FaultsGrow v s) : ∀ t, placeCompletion s a2 = some t → FaultsGrow v t :=
  fun t e => grows_only (placeCompletion_only (w := 2080) rfl only_refl t e) rfl h

theorem finalProgress_grows {a2} (h : FaultsGrow v s) : FaultsGrow v (finalProgress s a2) :=
  grows_only (finalProgress_only (w := 32) rfl only_refl) rfl h

theorem dropRecord_grows {a2} {a3} (h : FaultsGrow v s) : FaultsGrow v (dropRecord s a2 a3) :=
  grows_only (dropRecord_only (w := 2048) rfl only_refl) rfl h

theorem leaveWaiters_grows {a2} {a3} (h : FaultsGrow v s) : FaultsGrow v (leaveWaiters s a2 a3) :=
  grows_only (leaveWaiters_only (w := 2048) rfl only_refl) rfl h

theorem endWork_grows {a2} (h : FaultsGrow v s) : FaultsGrow v (endWork s a2) := by
  unfold endWork
  repeat' (first | with_reducible assumption | intro _ | with_reducible apply grows_ite | with_reducible refine placeCompletion_grows ?_ _ (by with_reducible assumption) | with_reducible apply State.raise_grows | with_reducible apply finalProgress_grows | with_reducible apply dropRecord_grows | with_reducible apply leaveWaiters_grows | (fail_if_no_progress with_reducible (refine grows_mk rfl rfl ?_)) | split | dsimp only)

theorem serveWaiters_grows {a2} {a3} (h : FaultsGrow v s) : FaultsGrow v (serveWaiters s a2 a3) :=
  grows_only (serveWaiters_only (w := 3840) rfl only_refl) rfl h

theorem retryEnds_grows {a2} (h : FaultsGrow v s) : FaultsGrow v (retryEnds s a2) :=
  grows_only (retryEnds_only (w := 2080) rfl only_refl) rfl h

theorem serviceRing_grows {a2} (h : FaultsGrow v s) : FaultsGrow v (serviceRing s a2) := by
  unfold serviceRing
  repeat' (first | with_reducible assumption | intro _ | with_reducible apply closeLoss_grows | with_reducible apply serveWaiters_grows | with_reducible apply retryEnds_grows | dsimp only)

theorem returnCredit_grows {a2} {a3} (h : FaultsGrow v s) : FaultsGrow v (returnCredit s a2 a3) := by
  unfold returnCredit
  repeat' (first | with_reducible assumption | intro _ | with_reducible apply serviceRing_grows | with_reducible apply State.modRing_grows | dsimp only)

theorem reserve_grows {a2} {a3} (h : FaultsGrow v s) : ∀ t, reserve s a2 a3 = some t → FaultsGrow v t :=
  fun t e => grows_only (reserve_only (w := 2048) rfl only_refl t e) rfl h

theorem stageRoom_grows {a2} {a3} (h : FaultsGrow v s) : ∀ t, stageRoom s a2 a3 = some t → FaultsGrow v t :=
  fun t e => grows_only (stageRoom_only (w := 2048) rfl only_refl t e) rfl h

theorem placeIn_grows {a2} {a3} {a4} {a5} {a6} (h : FaultsGrow v s) : FaultsGrow v (placeIn s a2 a3 a4 a5 a6) :=
  grows_only (placeIn_only (w := 2048) rfl only_refl) rfl h

theorem emitRecord_grows {a2} {a3} {a4} {a5} {a6} {a7} {a8} {a9} {a10} (h : FaultsGrow v s) : FaultsGrowFst v (emitRecord s a2 a3 a4 a5 a6 a7 a8 a9 a10) := by
  unfold emitRecord
  repeat' (first | with_reducible assumption | intro _ | with_reducible apply grows_ite | with_reducible apply growsFst_ite | with_reducible refine reserve_grows ?_ _ (by with_reducible assumption) | with_reducible apply dropRecord_grows | with_reducible refine stageRoom_grows ?_ _ (by with_reducible assumption) | with_reducible apply State.raise_grows | with_reducible apply State.modRing_grows | with_reducible apply placeIn_grows | split | with_reducible apply growsFst_mk | with_reducible refine grows_fst (by with_reducible assumption) ?_ | dsimp only)

theorem placeReserved_grows {a2} {a3} {a4} {a5} {a6} {a7} {a8} {a9} {a10} (h : FaultsGrow v s) : FaultsGrowFst v (placeReserved s a2 a3 a4 a5 a6 a7 a8 a9 a10) := by
  unfold placeReserved
  repeat' (first | with_reducible assumption | intro _ | with_reducible apply grows_ite | with_reducible apply growsFst_ite | with_reducible refine stageRoom_grows ?_ _ (by with_reducible assumption) | with_reducible apply returnCredit_grows | with_reducible apply State.raise_grows | with_reducible apply dropRecord_grows | with_reducible apply State.modRing_grows | with_reducible apply placeIn_grows | with_reducible apply serviceRing_grows | split | with_reducible apply growsFst_mk | with_reducible refine grows_fst (by with_reducible assumption) ?_ | dsimp only)

theorem placeHeld_grows {a2} {a3} {a4} {a5} {a6} {a7} {a8} {a9} {a10} (h : FaultsGrow v s) : FaultsGrowFst v (placeHeld s a2 a3 a4 a5 a6 a7 a8 a9 a10) := by
  unfold placeHeld
  repeat' (first | with_reducible assumption | intro _ | with_reducible apply grows_ite | with_reducible apply growsFst_ite | with_reducible refine stageRoom_grows ?_ _ (by with_reducible assumption) | with_reducible apply State.raise_grows | with_reducible apply State.modRing_grows | with_reducible apply placeIn_grows | with_reducible apply serviceRing_grows | split | with_reducible apply growsFst_mk | with_reducible refine grows_fst (by with_reducible assumption) ?_ | dsimp only)

theorem placeLast_grows {a2} {a3} {a4} {a5} {a6} {a7} {a8} {a9} {a10} (h : FaultsGrow v s) : FaultsGrow v (placeLast s a2 a3 a4 a5 a6 a7 a8 a9 a10) := by
  unfold placeLast
  repeat' (first | with_reducible assumption | intro _ | with_reducible apply grows_ite | with_reducible apply growsFst_ite | with_reducible apply placeHeld_grows | with_reducible refine grows_of_fst (placeHeld_grows ?_) | with_reducible refine grows_fst (by with_reducible assumption) (placeHeld_grows ?_) | (fail_if_no_progress with_reducible (refine grows_mk rfl rfl ?_)) | split | with_reducible apply growsFst_mk | with_reducible refine grows_fst (by with_reducible assumption) ?_ | dsimp only)

theorem dropLate_grows {a2} (h : FaultsGrow v s) : FaultsGrow v (dropLate s a2) := by
  unfold dropLate
  repeat' (first | with_reducible assumption | intro _ | with_reducible apply grows_foldl | with_reducible apply returnCredit_grows | (fail_if_no_progress with_reducible (refine grows_mk rfl rfl ?_)) | dsimp only)

theorem State.modMbx_grows {a2} {a3} (h : FaultsGrow v s) : FaultsGrow v (State.modMbx s a2 a3) :=
  grows_only (State.modMbx_only (w := 16) rfl only_refl) rfl h

theorem enterDone_grows {a2} {a3} (h : FaultsGrow v s) : FaultsGrow v (enterDone s a2 a3) := by
  unfold enterDone
  repeat' (first | with_reducible assumption | intro _ | with_reducible apply grows_ite | with_reducible apply State.modMbx_grows | with_reducible apply sendEvent_grows | dsimp only)

theorem holdResponse_grows {a2} (h : FaultsGrow v s) : FaultsGrow v (holdResponse s a2) :=
  grows_only (holdResponse_only (w := 16) rfl only_refl) rfl h

theorem postResponse_grows {a2} {a3} {a4} (h : FaultsGrow v s) : FaultsGrow v (postResponse s a2 a3 a4) := by
  unfold postResponse
  repeat' (first | with_reducible assumption | intro _ | with_reducible apply grows_ite | with_reducible apply State.modMbx_grows | with_reducible apply holdResponse_grows | with_reducible apply enterDone_grows | (fail_if_no_progress with_reducible (refine grows_mk rfl rfl ?_)) | split | dsimp only)

theorem postOk_grows {a2} (h : FaultsGrow v s) : FaultsGrow v (postOk s a2) := by
  unfold postOk
  repeat' (first | with_reducible assumption | intro _ | with_reducible apply postResponse_grows)

theorem postBad_grows {a2} (h : FaultsGrow v s) : FaultsGrow v (postBad s a2) := by
  unfold postBad
  repeat' (first | with_reducible assumption | intro _ | with_reducible apply postResponse_grows)

theorem answerAbort_grows {a2} (h : FaultsGrow v s) : FaultsGrow v (answerAbort s a2) := by
  unfold answerAbort
  repeat' (first | with_reducible assumption | intro _ | with_reducible apply grows_ite | with_reducible apply postOk_grows)

theorem State.modTiu_grows {a2} {a3} (h : FaultsGrow v s) : FaultsGrow v (State.modTiu s a2 a3) :=
  grows_only (State.modTiu_only (w := 1024) rfl only_refl) rfl h

theorem endTimRun_grows {a2} {a3} {a4} (h : FaultsGrow v s) : FaultsGrow v (endTimRun s a2 a3 a4) := by
  unfold endTimRun
  repeat' (first | with_reducible assumption | intro _ | with_reducible apply grows_ite | with_reducible apply State.modTiu_grows | with_reducible apply leaveWaiters_grows | with_reducible apply returnCredit_grows | with_reducible apply endWork_grows | split | dsimp only)

theorem settlePin_grows {a2} {a3} (h : FaultsGrow v s) : FaultsGrow v (settlePin s a2 a3) :=
  grows_only (settlePin_only (w := 128) rfl only_refl) rfl h

theorem leaveFirst_grows {a2} (h : FaultsGrow v s) : FaultsGrow v (leaveFirst s a2) :=
  grows_only (leaveFirst_only (w := 256) rfl only_refl) rfl h

theorem clearStacks_grows {a2} (h : FaultsGrow v s) : FaultsGrow v (clearStacks s a2) :=
  grows_only (clearStacks_only (w := 256) rfl only_refl) rfl h

theorem State.modSeq_grows {a2} {a3} (h : FaultsGrow v s) : FaultsGrow v (State.modSeq s a2 a3) :=
  grows_only (State.modSeq_only (w := 256) rfl only_refl) rfl h

theorem trigEvent_grows {a2} {a3} {a4} (h : FaultsGrow v s) : FaultsGrow v (trigEvent s a2 a3 a4) :=
  grows_only (trigEvent_only (w := 256) rfl only_refl) rfl h

theorem endBurst_grows {a2} {a3} (h : FaultsGrow v s) : FaultsGrow v (endBurst s a2 a3) := by
  unfold endBurst
  repeat' (first | with_reducible assumption | intro _ | with_reducible apply grows_ite | with_reducible apply grows_foldl | with_reducible apply settlePin_grows | with_reducible apply leaveFirst_grows | with_reducible apply clearStacks_grows | with_reducible apply State.modSeq_grows | with_reducible apply answerAbort_grows | with_reducible apply State.live_grows | with_reducible apply trigEvent_grows | dsimp only)

theorem State.modProg_grows {a2} {a3} (h : FaultsGrow v s) : FaultsGrow v (State.modProg s a2 a3) :=
  grows_only (State.modProg_only (w := 32) rfl only_refl) rfl h

theorem settleBurst_grows {a2} (h : FaultsGrow v s) : FaultsGrow v (settleBurst s a2) := by
  unfold settleBurst
  repeat' (first | with_reducible assumption | intro _ | with_reducible apply grows_ite | with_reducible apply growsFst_ite | with_reducible apply placeHeld_grows | with_reducible refine grows_of_fst (placeHeld_grows ?_) | with_reducible refine grows_fst (by with_reducible assumption) (placeHeld_grows ?_) | with_reducible apply State.modSeq_grows | with_reducible apply dropRecord_grows | with_reducible apply leaveWaiters_grows | with_reducible apply endWork_grows | with_reducible apply State.modProg_grows | split | with_reducible apply growsFst_mk | with_reducible refine grows_fst (by with_reducible assumption) ?_ | dsimp only)

theorem latchStop_grows {a2} {a3} {a4} (h : FaultsGrow v s) : FaultsGrow v (latchStop s a2 a3 a4) := by
  unfold latchStop
  repeat' (first | with_reducible assumption | intro _ | with_reducible apply grows_ite | with_reducible apply settleBurst_grows | with_reducible apply endBurst_grows | with_reducible apply State.modSeq_grows | split | dsimp only)

theorem State.modAvg_grows {a2} {a3} (h : FaultsGrow v s) : FaultsGrow v (State.modAvg s a2 a3) :=
  grows_only (State.modAvg_only (w := 1024) rfl only_refl) rfl h

theorem endMeasRun_grows {a2} {a3} (h : FaultsGrow v s) : FaultsGrow v (endMeasRun s a2 a3) := by
  unfold endMeasRun
  repeat' (first | with_reducible assumption | intro _ | with_reducible apply grows_ite | with_reducible apply State.modAvg_grows | with_reducible apply leaveWaiters_grows | with_reducible apply returnCredit_grows | with_reducible apply endWork_grows | split | dsimp only)

theorem modMeasRun_grows {a2} {a3} (h : FaultsGrow v s) : FaultsGrow v (modMeasRun s a2 a3) :=
  grows_only (modMeasRun_only (w := 1024) rfl only_refl) rfl h

theorem endMeasWindow_grows {a2} {a3} (h : FaultsGrow v s) : FaultsGrow v (endMeasWindow s a2 a3) := by
  unfold endMeasWindow
  repeat' (first | with_reducible assumption | intro _ | with_reducible apply grows_ite | with_reducible apply growsFst_ite | with_reducible apply modMeasRun_grows | with_reducible apply placeLast_grows | with_reducible apply placeHeld_grows | with_reducible refine grows_of_fst (placeHeld_grows ?_) | with_reducible refine grows_fst (by with_reducible assumption) (placeHeld_grows ?_) | with_reducible apply State.modProg_grows | with_reducible apply endMeasRun_grows | split | with_reducible apply growsFst_mk | with_reducible refine grows_fst (by with_reducible assumption) ?_ | dsimp only)

theorem askCredit_grows {a2} {a3} {a4} (h : FaultsGrow v s) : FaultsGrowFst v (askCredit s a2 a3 a4) :=
  grows_only (only_of_fst (askCredit_only (w := 2048) rfl only_refl)) rfl h

theorem askUnits_grows {a2} (h : FaultsGrow v s) : FaultsGrow v (askUnits s a2) := by
  unfold askUnits
  repeat' (first | with_reducible assumption | intro _ | with_reducible apply grows_ite | with_reducible apply growsFst_ite | with_reducible apply modMeasRun_grows | with_reducible apply returnCredit_grows | with_reducible apply askCredit_grows | with_reducible refine grows_of_fst (askCredit_grows ?_) | with_reducible refine grows_fst (by with_reducible assumption) (askCredit_grows ?_) | split | with_reducible apply growsFst_mk | with_reducible refine grows_fst (by with_reducible assumption) ?_ | dsimp only)

theorem askWindow_grows {a2} {a3} (h : FaultsGrow v s) : FaultsGrowFst v (askWindow s a2 a3) := by
  unfold askWindow
  repeat' (first | with_reducible assumption | intro _ | with_reducible apply grows_ite | with_reducible apply grows_foldl | with_reducible apply growsFst_ite | with_reducible apply growsFst_foldl | with_reducible apply growsFoldl_fst | with_reducible apply askUnits_grows | with_reducible apply growsFst_mk | dsimp only)

theorem feedAverage_grows {a2} {a3} (h : FaultsGrow v s) : FaultsGrow v (feedAverage s a2 a3) := by
  unfold feedAverage
  repeat' (first | with_reducible assumption | intro _ | with_reducible apply grows_ite | with_reducible apply growsFst_ite | with_reducible apply endMeasWindow_grows | with_reducible apply modMeasRun_grows | with_reducible apply endMeasRun_grows | with_reducible apply askWindow_grows | with_reducible refine grows_of_fst (askWindow_grows ?_) | with_reducible refine grows_fst (by with_reducible assumption) (askWindow_grows ?_) | split | with_reducible apply growsFst_mk | with_reducible refine grows_fst (by with_reducible assumption) ?_ | dsimp only)

theorem closeRaw_grows {a2} {a3} (h : FaultsGrow v s) : FaultsGrow v (closeRaw s a2 a3) := by
  unfold closeRaw
  repeat' (first | with_reducible assumption | intro _ | with_reducible apply grows_ite | with_reducible apply growsFst_ite | with_reducible apply modMeasRun_grows | with_reducible apply placeHeld_grows | with_reducible refine grows_of_fst (placeHeld_grows ?_) | with_reducible refine grows_fst (by with_reducible assumption) (placeHeld_grows ?_) | with_reducible apply State.modProg_grows | with_reducible apply endMeasRun_grows | with_reducible apply returnCredit_grows | with_reducible apply dropRecord_grows | split | with_reducible apply growsFst_mk | with_reducible refine grows_fst (by with_reducible assumption) ?_ | dsimp only)

theorem feedRawChannel_grows {a2} {a3} {a4} (h : FaultsGrow v s) : FaultsGrow v (feedRawChannel s a2 a3 a4) := by
  unfold feedRawChannel
  repeat' (first | with_reducible assumption | intro _ | with_reducible apply grows_ite | with_reducible apply growsFst_ite | with_reducible apply closeRaw_grows | with_reducible apply modMeasRun_grows | with_reducible refine reserve_grows ?_ _ (by with_reducible assumption) | with_reducible apply dropRecord_grows | split | with_reducible apply growsFst_mk | with_reducible refine grows_fst (by with_reducible assumption) ?_ | dsimp only)

theorem feedRaw_grows {a2} {a3} {a4} (h : FaultsGrow v s) : FaultsGrow v (feedRaw s a2 a3 a4) := by
  unfold feedRaw
  repeat' (first | with_reducible assumption | intro _ | with_reducible apply grows_ite | with_reducible apply modMeasRun_grows | with_reducible apply feedRawChannel_grows | dsimp only)

theorem feedMeas_grows {a2} {a3} (h : FaultsGrow v s) : FaultsGrow v (feedMeas s a2 a3) := by
  unfold feedMeas
  repeat' (first | with_reducible assumption | intro _ | with_reducible apply grows_ite | with_reducible apply feedRaw_grows | with_reducible apply feedAverage_grows | split | dsimp only)

theorem endLockRun_grows {a2} {a3} {a4} (h : FaultsGrow v s) : FaultsGrow v (endLockRun s a2 a3 a4) := by
  unfold endLockRun
  repeat' (first | with_reducible assumption | intro _ | with_reducible apply grows_ite | with_reducible apply State.modAvg_grows | with_reducible apply leaveWaiters_grows | with_reducible apply returnCredit_grows | with_reducible apply endWork_grows | split | dsimp only)

theorem putLast_grows {a2} {a3} {a4} {a5} {a6} (h : FaultsGrow v s) : FaultsGrow v (putLast s a2 a3 a4 a5 a6) := by
  unfold putLast
  repeat' (first | with_reducible assumption | intro _ | with_reducible apply grows_ite | with_reducible apply placeLast_grows | split | with_reducible apply growsFst_mk | with_reducible refine grows_fst (by with_reducible assumption) ?_ | dsimp only)

theorem modLockRun_grows {a2} {a3} (h : FaultsGrow v s) : FaultsGrow v (modLockRun s a2 a3) :=
  grows_only (modLockRun_only (w := 1024) rfl only_refl) rfl h

theorem endLockWindow_grows {a2} (h : FaultsGrow v s) : FaultsGrow v (endLockWindow s a2) := by
  unfold endLockWindow
  repeat' (first | with_reducible assumption | intro _ | with_reducible apply grows_ite | with_reducible apply growsFst_ite | with_reducible apply placeHeld_grows | with_reducible refine grows_of_fst (placeHeld_grows ?_) | with_reducible refine grows_fst (by with_reducible assumption) (placeHeld_grows ?_) | with_reducible apply modLockRun_grows | with_reducible apply State.modProg_grows | with_reducible apply endLockRun_grows | split | with_reducible apply growsFst_mk | with_reducible refine grows_fst (by with_reducible assumption) ?_ | dsimp only)

theorem cutLock_grows {a2} {a3} (h : FaultsGrow v s) : FaultsGrow v (cutLock s a2 a3) := by
  unfold cutLock
  repeat' (first | with_reducible assumption | intro _ | with_reducible apply endLockWindow_grows | with_reducible apply modLockRun_grows | with_reducible apply putLast_grows | with_reducible apply endLockRun_grows | split | dsimp only)

theorem endRefs_grows {a2} {a3} (h : FaultsGrow v s) : FaultsGrow v (endRefs s a2 a3) := by
  unfold endRefs
  repeat' (first | with_reducible assumption | intro _ | with_reducible apply grows_foldl | with_reducible apply growsFst_foldl | with_reducible apply growsFoldl_fst | with_reducible apply cutLock_grows | dsimp only)

theorem startLockWindow_grows {a2} {a3} {a4} {a5} (h : FaultsGrow v s) : FaultsGrow v (startLockWindow s a2 a3 a4 a5) :=
  grows_only (startLockWindow_only (w := 3072) rfl only_refl) rfl h

theorem closeLock_grows {a2} {a3} (h : FaultsGrow v s) : FaultsGrow v (closeLock s a2 a3) :=
  grows_only (closeLock_only (w := 1024) rfl only_refl) rfl h

theorem feedLock_grows {a2} {a3} (h : FaultsGrow v s) : FaultsGrow v (feedLock s a2 a3) := by
  unfold feedLock
  repeat' (first | with_reducible assumption | intro _ | with_reducible apply grows_ite | with_reducible apply endLockWindow_grows | with_reducible apply modLockRun_grows | with_reducible apply startLockWindow_grows | with_reducible apply closeLock_grows | split | with_reducible apply growsFst_mk | with_reducible refine grows_fst (by with_reducible assumption) ?_ | dsimp only)

theorem feedLoop_grows {a2} {a3} (h : FaultsGrow v s) : FaultsGrow v (feedLoop s a2 a3) := by
  unfold feedLoop
  repeat' (first | with_reducible assumption | intro _ | with_reducible apply grows_ite | with_reducible apply feedLock_grows | with_reducible apply feedMeas_grows | with_reducible apply State.modAvg_grows | split | dsimp only)

theorem loopEvent_grows {a2} {a3} {a4} {a5} (h : FaultsGrow v s) : FaultsGrow v (loopEvent s a2 a3 a4 a5) := by
  unfold loopEvent
  repeat' (first | with_reducible assumption | intro _ | with_reducible apply grows_ite | with_reducible apply growsFst_ite | with_reducible apply emitRecord_grows | with_reducible refine grows_of_fst (emitRecord_grows ?_) | with_reducible refine grows_fst (by with_reducible assumption) (emitRecord_grows ?_) | with_reducible apply State.raise_grows | split | with_reducible apply growsFst_mk | with_reducible refine grows_fst (by with_reducible assumption) ?_ | dsimp only)

theorem clipEvent_grows {a2} {a3} {a4} {a5} {a6} {a7} (h : FaultsGrow v s) : FaultsGrow v (clipEvent s a2 a3 a4 a5 a6 a7) := by
  unfold clipEvent
  repeat' (first | with_reducible assumption | intro _ | with_reducible apply grows_ite | with_reducible apply loopEvent_grows | dsimp only)

theorem State.modLoop_grows {a2} {a3} (h : FaultsGrow v s) : FaultsGrow v (State.modLoop s a2 a3) :=
  grows_only (State.modLoop_only (w := 512) rfl only_refl) rfl h

theorem endLoopRun_grows {a2} {a3} {a4} {a5} (h : FaultsGrow v s) : FaultsGrow v (endLoopRun s a2 a3 a4 a5) := by
  unfold endLoopRun
  repeat' (first | with_reducible assumption | intro _ | with_reducible apply grows_ite | with_reducible apply returnCredit_grows | with_reducible apply State.modAvg_grows | with_reducible apply endRefs_grows | with_reducible apply State.modLoop_grows | with_reducible apply endWork_grows | split | dsimp only)

theorem dropRange_grows {a2} {a3} (h : FaultsGrow v s) : FaultsGrow v (dropRange s a2 a3) := by
  unfold dropRange
  repeat' (first | with_reducible assumption | intro _ | with_reducible apply grows_ite | with_reducible apply State.modLoop_grows | with_reducible apply postBad_grows | split | dsimp only)

theorem tripLive_grows {a2} (h : FaultsGrow v s) : FaultsGrow v (tripLive s a2) := by
  unfold tripLive
  repeat' (first | with_reducible assumption | intro _ | with_reducible apply grows_ite | with_reducible apply State.live_grows | dsimp only)

theorem endClip_grows {a2} {a3} (h : FaultsGrow v s) : FaultsGrow v (endClip s a2 a3) := by
  unfold endClip
  repeat' (first | with_reducible assumption | intro _ | with_reducible apply grows_ite | with_reducible apply clipEvent_grows | split | with_reducible apply growsFst_mk | with_reducible refine grows_fst (by with_reducible assumption) ?_ | dsimp only)

theorem State.modStage_grows {a2} {a3} (h : FaultsGrow v s) : FaultsGrow v (State.modStage s a2 a3) :=
  grows_only (State.modStage_only (w := 8192) rfl only_refl) rfl h

theorem freeTelem_grows {a2} (h : FaultsGrow v s) : FaultsGrow v (freeTelem s a2) := by
  unfold freeTelem
  repeat' (first | with_reducible assumption | intro _ | with_reducible apply grows_ite | with_reducible apply returnCredit_grows | with_reducible apply State.modStage_grows | dsimp only)

theorem abortFrame_grows {a2} {a3} (h : FaultsGrow v s) : FaultsGrow v (abortFrame s a2 a3) := by
  unfold abortFrame
  repeat' (first | with_reducible assumption | intro _ | with_reducible apply freeTelem_grows | with_reducible apply State.modStage_grows | with_reducible apply State.raise_grows | split | dsimp only)

theorem disableStage_grows {a2} (h : FaultsGrow v s) : FaultsGrow v (disableStage s a2) := by
  unfold disableStage
  repeat' (first | with_reducible assumption | intro _ | with_reducible apply grows_ite | with_reducible apply grows_foldl | with_reducible apply abortFrame_grows | with_reducible apply State.modStage_grows | dsimp only)

theorem followLeader_grows {a2} (h : FaultsGrow v s) : FaultsGrow v (followLeader s a2) :=
  grows_only (followLeader_only (w := 514) rfl only_refl) rfl h

theorem moveForceDac_grows {a2} (h : FaultsGrow v s) : FaultsGrow v (moveForceDac s a2) :=
  grows_only (moveForceDac_only (w := 64) rfl only_refl) rfl h

theorem clocheLoop_grows {a2} {a3} (h : FaultsGrow v s) : FaultsGrow v (clocheLoop s a2 a3) := by
  unfold clocheLoop
  repeat' (first | with_reducible assumption | intro _ | with_reducible apply grows_ite | with_reducible apply endLoopRun_grows | with_reducible apply endClip_grows | with_reducible apply dropRange_grows | with_reducible apply State.modLoop_grows | with_reducible apply disableStage_grows | with_reducible apply followLeader_grows | with_reducible apply tripLive_grows | with_reducible apply moveForceDac_grows | dsimp only)

theorem clocheBedLoops_grows {a2} {a3} (h : FaultsGrow v s) : FaultsGrow v (clocheBedLoops s a2 a3) := by
  unfold clocheBedLoops
  repeat' (first | with_reducible assumption | intro _ | with_reducible apply grows_foldl | with_reducible apply clocheLoop_grows | dsimp only)

theorem sweepRecord_grows {a2} {a3} {a4} (h : FaultsGrow v s) : FaultsGrowFst v (sweepRecord s a2 a3 a4) := by
  unfold sweepRecord
  repeat' (first | with_reducible assumption | intro _ | with_reducible apply grows_ite | with_reducible apply grows_foldl | with_reducible apply growsFst_ite | with_reducible apply growsFst_foldl | with_reducible apply growsFoldl_fst | with_reducible apply placeHeld_grows | with_reducible refine grows_of_fst (placeHeld_grows ?_) | with_reducible refine grows_fst (by with_reducible assumption) (placeHeld_grows ?_) | split | with_reducible apply growsFst_mk | with_reducible refine grows_fst (by with_reducible assumption) ?_ | dsimp only)

theorem sweepClose_grows {a2} {a3} (h : FaultsGrow v s) : FaultsGrow v (sweepClose s a2 a3) := by
  unfold sweepClose
  repeat' (first | with_reducible assumption | intro _ | with_reducible apply grows_ite | with_reducible apply growsFst_ite | with_reducible apply sweepRecord_grows | with_reducible refine grows_of_fst (sweepRecord_grows ?_) | with_reducible refine grows_fst (by with_reducible assumption) (sweepRecord_grows ?_) | with_reducible apply State.modAvg_grows | with_reducible apply endLoopRun_grows | split | with_reducible apply growsFst_mk | with_reducible refine grows_fst (by with_reducible assumption) ?_ | dsimp only)

theorem deliver_grows {a2} {a3} {a4} (h : FaultsGrow v s) : FaultsGrow v (deliver s a2 a3 a4) := by
  unfold deliver
  repeat' (first | with_reducible assumption | intro _ | with_reducible apply State.modLoop_grows | with_reducible apply sweepClose_grows | with_reducible apply feedLoop_grows | dsimp only)

theorem recordHandoff_grows {a2} {a3} (h : FaultsGrow v s) : FaultsGrow v (recordHandoff s a2 a3) := by
  unfold recordHandoff
  repeat' (first | with_reducible assumption | intro _ | with_reducible apply grows_ite | with_reducible apply loopEvent_grows | with_reducible apply State.modLoop_grows | split | with_reducible apply growsFst_mk | with_reducible refine grows_fst (by with_reducible assumption) ?_ | dsimp only)

theorem releaseScopes_grows {a2} (h : FaultsGrow v s) : FaultsGrow v (releaseScopes s a2) :=
  grows_only (releaseScopes_only (w := 33410) rfl only_refl) rfl h

theorem endCal_grows {a2} {a3} {a4} {a5} {a6} {a7} (h : FaultsGrow v s) : FaultsGrow v (endCal s a2 a3 a4 a5 a6 a7) := by
  unfold endCal
  repeat' (first | with_reducible assumption | intro _ | with_reducible apply answerAbort_grows | with_reducible apply releaseScopes_grows | with_reducible apply endWork_grows | dsimp only)

theorem State.takeFree_grows (h : FaultsGrow v s) : FaultsGrow v (State.takeFree s) :=
  grows_only (State.takeFree_only (w := 2) rfl only_refl) rfl h

theorem interruptCal_grows {a2} {a3} {a4} (h : FaultsGrow v s) : FaultsGrow v (interruptCal s a2 a3 a4) := by
  unfold interruptCal
  repeat' (first | with_reducible assumption | intro _ | with_reducible apply grows_ite | with_reducible apply endCal_grows | with_reducible apply State.takeFree_grows | split | dsimp only)

theorem clocheDrivers_grows {a2} (h : FaultsGrow v s) : FaultsGrow v (clocheDrivers s a2) :=
  grows_only (clocheDrivers_only (w := 128) rfl only_refl) rfl h

theorem moveDacs_grows {a2} (h : FaultsGrow v s) : FaultsGrow v (moveDacs s a2) :=
  grows_only (moveDacs_only (w := 64) rfl only_refl) rfl h

theorem startBed_grows {a2} {a3} {a4} (h : FaultsGrow v s) : FaultsGrow v (startBed s a2 a3 a4) := by
  unfold startBed
  repeat' (first | with_reducible assumption | intro _ | with_reducible apply grows_ite | with_reducible apply grows_foldl | with_reducible apply State.modBedc_grows | with_reducible apply clocheDrivers_grows | with_reducible apply moveDacs_grows | with_reducible apply latchStop_grows | with_reducible apply clocheBedLoops_grows | dsimp only)

theorem clocheBed_grows {a2} {a3} {a4} {a5} (h : FaultsGrow v s) : FaultsGrow v (clocheBed s a2 a3 a4 a5) := by
  unfold clocheBed
  repeat' (first | with_reducible assumption | intro _ | with_reducible apply startBed_grows | with_reducible apply State.modBedc_grows | dsimp only)

theorem clocheHeavy_grows {a2} {a3} {a4} (h : FaultsGrow v s) : FaultsGrow v (clocheHeavy s a2 a3 a4) := by
  unfold clocheHeavy
  repeat' (first | with_reducible assumption | intro _ | with_reducible apply grows_foldl | with_reducible apply State.modLoopc_grows | with_reducible apply State.modBedc_grows | with_reducible apply clocheLoop_grows | dsimp only)

theorem endKeep_grows {a2} (h : FaultsGrow v s) (a2h : ∀ t, FaultsGrow v t → FaultsGrow v (a2 t)) : FaultsGrow v (endKeep s a2) := by
  unfold endKeep
  repeat' (first | with_reducible assumption | intro _ | with_reducible apply grows_ite | apply a2h | (fail_if_no_progress with_reducible (refine grows_mk rfl rfl ?_)) | dsimp only)

theorem digitalSample_grows {a2} {a3} {a4} (h : FaultsGrow v s) : FaultsGrow v (digitalSample s a2 a3 a4) := by
  unfold digitalSample
  repeat' (first | with_reducible assumption | intro _ | with_reducible apply grows_ite | with_reducible apply deliver_grows | with_reducible apply recordHandoff_grows | with_reducible apply tripLive_grows | with_reducible apply loopEvent_grows | with_reducible apply State.modLoop_grows | split | with_reducible apply growsFst_mk | with_reducible refine grows_fst (by with_reducible assumption) ?_ | dsimp only)

theorem sendTelemetry_grows {a2} (h : FaultsGrow v s) : FaultsGrow v (sendTelemetry s a2) := by
  unfold sendTelemetry
  repeat' (first | with_reducible assumption | intro _ | with_reducible apply grows_ite | with_reducible apply growsFst_ite | with_reducible apply State.modStage_grows | with_reducible apply emitRecord_grows | with_reducible refine grows_of_fst (emitRecord_grows ?_) | with_reducible refine grows_fst (by with_reducible assumption) (emitRecord_grows ?_) | with_reducible apply placeReserved_grows | with_reducible refine grows_of_fst (placeReserved_grows ?_) | with_reducible refine grows_fst (by with_reducible assumption) (placeReserved_grows ?_) | with_reducible apply State.raise_grows | split | with_reducible apply growsFst_mk | with_reducible refine grows_fst (by with_reducible assumption) ?_ | dsimp only)

theorem chargeReading_grows {a2} {a3} (h : FaultsGrow v s) : FaultsGrow v (chargeReading s a2 a3) :=
  grows_only (chargeReading_only (w := 16384) rfl only_refl) rfl h

theorem useReply_grows {a2} {a3} {a4} {a5} (h : FaultsGrow v s) : FaultsGrow v (useReply s a2 a3 a4 a5) := by
  unfold useReply
  repeat' (first | with_reducible assumption | intro _ | with_reducible apply grows_ite | with_reducible apply grows_foldl | with_reducible apply State.modStage_grows | with_reducible apply sendTelemetry_grows | with_reducible apply digitalSample_grows | with_reducible apply chargeReading_grows | dsimp only)

theorem useDelayed_grows {a2} {a3} (h : FaultsGrow v s) : FaultsGrow v (useDelayed s a2 a3) := by
  unfold useDelayed
  repeat' (first | with_reducible assumption | intro _ | with_reducible apply useReply_grows | split | dsimp only)

theorem flushReplies_grows {a2} (h : FaultsGrow v s) : FaultsGrow v (flushReplies s a2) := by
  unfold flushReplies
  repeat' (first | with_reducible assumption | intro _ | with_reducible apply grows_foldl | with_reducible apply useDelayed_grows | with_reducible apply State.modStage_grows | dsimp only)

theorem State.modPort_grows {a2} {a3} (h : FaultsGrow v s) : FaultsGrow v (State.modPort s a2 a3) :=
  grows_only (State.modPort_only (w := 4096) rfl only_refl) rfl h

theorem endWindow_grows {a2} (h : FaultsGrow v s) : FaultsGrow v (endWindow s a2) := by
  unfold endWindow
  repeat' (first | with_reducible assumption | intro _ | with_reducible apply grows_ite | with_reducible apply State.modPert_grows | with_reducible apply serviceRing_grows | with_reducible apply State.modCls_grows | with_reducible apply State.modPort_grows | with_reducible apply flushReplies_grows | dsimp only)

theorem releaseDelay_grows {a2} (h : FaultsGrow v s) : FaultsGrow v (releaseDelay s a2) := by
  unfold releaseDelay
  repeat' (first | with_reducible assumption | intro _ | with_reducible apply grows_ite | with_reducible apply enterDone_grows)

theorem disarm_grows (h : FaultsGrow v s) : FaultsGrow v (disarm s) := by
  unfold disarm
  repeat' (first | with_reducible assumption | intro _ | with_reducible apply grows_foldl | with_reducible apply endWindow_grows | with_reducible apply releaseDelay_grows | (fail_if_no_progress with_reducible (refine grows_mk rfl rfl ?_)) | dsimp only)

theorem anyReset_grows (h : FaultsGrow v s) : FaultsGrow v (anyReset s) := by
  unfold anyReset
  repeat' (first | with_reducible assumption | intro _ | with_reducible apply disarm_grows | (fail_if_no_progress with_reducible (refine grows_mk rfl rfl ?_)))

theorem clearEntries_grows {a2} (h : FaultsGrow v s) : FaultsGrow v (clearEntries s a2) := by
  unfold clearEntries
  repeat' (first | with_reducible assumption | intro _ | with_reducible apply grows_ite | with_reducible apply grows_foldl | with_reducible apply State.modPert_grows | dsimp only)

theorem lostUrgents_grows {a2} {a3} (h : FaultsGrow v s) : FaultsGrow v (lostUrgents s a2 a3) := by
  unfold lostUrgents
  repeat' (first | with_reducible assumption | intro _ | with_reducible apply grows_ite | with_reducible apply grows_foldl | with_reducible apply State.raise_grows | dsimp only)

theorem portChanged_grows {a2} (h : FaultsGrow v s) : FaultsGrow v (portChanged s a2) := by
  unfold portChanged
  repeat' (first | with_reducible assumption | intro _ | with_reducible apply sendEvent_grows)

theorem freeCredit_grows {a2} {a3} {a4} (h : FaultsGrow v s) : FaultsGrow v (freeCredit s a2 a3 a4) :=
  grows_only (freeCredit_only (w := 4096) rfl only_refl) rfl h

theorem linkReset_grows {a2} (h : FaultsGrow v s) : FaultsGrow v (linkReset s a2) := by
  unfold linkReset
  repeat' (first | with_reducible assumption | intro _ | with_reducible apply grows_ite | with_reducible apply grows_foldl | with_reducible apply freeCredit_grows | with_reducible apply State.modCls_grows | with_reducible apply lostUrgents_grows | with_reducible apply State.modPort_grows | with_reducible apply State.live_grows | with_reducible apply portChanged_grows | with_reducible apply State.raise_grows | (fail_if_no_progress with_reducible (refine grows_mk rfl rfl ?_)) | dsimp only)

theorem linkPortReset_grows {a2} (h : FaultsGrow v s) : FaultsGrow v (linkPortReset s a2) := by
  unfold linkPortReset
  repeat' (first | with_reducible assumption | intro _ | with_reducible apply grows_ite | with_reducible apply linkReset_grows | with_reducible apply clearEntries_grows | with_reducible apply anyReset_grows)

theorem resetMeas_grows {a2} (h : FaultsGrow v s) : FaultsGrow v (resetMeas s a2) := by
  unfold resetMeas
  repeat' (first | with_reducible assumption | intro _ | with_reducible apply endMeasRun_grows)

theorem resetLock_grows {a2} (h : FaultsGrow v s) : FaultsGrow v (resetLock s a2) := by
  unfold resetLock
  repeat' (first | with_reducible assumption | intro _ | with_reducible apply grows_ite | with_reducible apply returnCredit_grows | with_reducible apply endLockRun_grows | split | dsimp only)

theorem resetTim_grows {a2} (h : FaultsGrow v s) : FaultsGrow v (resetTim s a2) := by
  unfold resetTim
  repeat' (first | with_reducible assumption | intro _ | with_reducible apply endTimRun_grows | with_reducible apply State.modTiu_grows | dsimp only)

theorem State.modTdll_grows {a2} {a3} (h : FaultsGrow v s) : FaultsGrow v (State.modTdll s a2 a3) :=
  grows_only (State.modTdll_only (w := 128) rfl only_refl) rfl h

theorem resetBed_grows {a2} {a3} (h : FaultsGrow v s) : FaultsGrow v (resetBed s a2 a3) := by
  unfold resetBed
  repeat' (first | with_reducible assumption | intro _ | with_reducible apply grows_ite | with_reducible apply grows_foldl | with_reducible apply interruptCal_grows | with_reducible apply clocheBed_grows | with_reducible apply State.modTdll_grows | with_reducible apply resetMeas_grows | with_reducible apply resetLock_grows | with_reducible apply dropLate_grows | with_reducible apply resetTim_grows | with_reducible apply State.modLoop_grows | (fail_if_no_progress with_reducible (refine grows_mk rfl rfl ?_)) | dsimp only)

theorem resetKeep_grows (h : FaultsGrow v s) : FaultsGrow v (resetKeep s) := by
  unfold resetKeep
  repeat' (first | with_reducible assumption | intro _ | with_reducible apply grows_ite | with_reducible apply endKeep_grows | with_reducible apply postBad_grows | with_reducible apply endWork_grows | (fail_if_no_progress with_reducible (refine grows_mk rfl rfl ?_)) | split | dsimp only)

theorem closeStreams_grows (h : FaultsGrow v s) : FaultsGrow v (closeStreams s) :=
  grows_only (closeStreams_only (w := 256) rfl only_refl) rfl h

theorem discardBanks_grows {a2} (h : FaultsGrow v s) : FaultsGrow v (discardBanks s a2) :=
  grows_only (discardBanks_only (w := 2048) rfl only_refl) rfl h

theorem resetTherm_grows (h : FaultsGrow v s) : FaultsGrow v (resetTherm s) :=
  grows_only (resetTherm_only (w := 16384) rfl only_refl) rfl h

theorem blockEffect_grows {a2} {a3} (h : FaultsGrow v s) : FaultsGrow v (blockEffect s a2 a3) := by
  unfold blockEffect
  repeat' (first | with_reducible assumption | intro _ | with_reducible apply grows_ite | with_reducible apply grows_foldl | with_reducible apply resetBed_grows | with_reducible apply latchStop_grows | with_reducible apply closeStreams_grows | with_reducible apply discardBanks_grows | with_reducible apply State.raise_grows | with_reducible apply abortFrame_grows | with_reducible apply resetTherm_grows | with_reducible apply resetKeep_grows | (fail_if_no_progress with_reducible (refine grows_mk rfl rfl ?_)) | dsimp only)

theorem haltBeds_grows (h : FaultsGrow v s) : FaultsGrow v (haltBeds s) := by
  unfold haltBeds
  repeat' (first | with_reducible assumption | intro _ | with_reducible apply grows_ite | with_reducible apply grows_foldl | with_reducible apply clocheDrivers_grows | with_reducible apply moveDacs_grows | with_reducible apply State.modBedc_grows | with_reducible apply State.modLoop_grows | dsimp only)

theorem setCause_grows {a2} (h : FaultsGrow v s) : FaultsGrow v (setCause s a2) :=
  grows_only (setCause_only (w := 12) rfl only_refl) rfl h

theorem startReset_grows {a2} {a3} {a4} (h : FaultsGrow v s) : FaultsGrow v (startReset s a2 a3 a4) := by
  unfold startReset
  repeat' (first | with_reducible assumption | intro _ | with_reducible apply grows_ite | with_reducible apply grows_foldl | with_reducible apply anyReset_grows | with_reducible apply setCause_grows | with_reducible apply State.raise_grows | with_reducible apply abortFrame_grows | with_reducible apply haltBeds_grows | (fail_if_no_progress with_reducible (refine grows_mk rfl rfl ?_)) | dsimp only)

end Sys2Proof.Machine

end

section
/-! PROOFS. O48: the end of a stage's frame, what a reply changes, and how the firmware's jobs on the stage bus end. -/

set_option Elab.async false

namespace Sys2Proof.Machine

/-! One stage changes. -/

/-- `u` is `s` but for its stages, of which only `k` has moved, to `y`. -/
def StageIs (k : Nat) (s : State) (y : StageState) (u : State) : Prop :=
  u.stage k = y ∧ (∀ j, j ≠ k → u.stage j = s.stage j) ∧ u = { s with ser := { s.ser with stage := u.ser.stage } }

section
variable {k : Nat} {s u : State} {y : StageState}

theorem stageIs_refl : StageIs k s (s.stage k) s := ⟨rfl, fun _ _ => rfl, rfl⟩

theorem stageIs_mod (f : StageState → StageState) (h : StageIs k s y u) : StageIs k s (f y) (u.modStage k f) := by
  obtain ⟨hown, hothers, hparts⟩ := h
  refine ⟨by rw [State.modStage_stage, if_pos rfl, hown], fun j hj => by rw [State.modStage_stage, if_neg hj, hothers j hj], ?_⟩
  exact congrArg (fun v : State => { v with ser := { v.ser with stage := (u.modStage k f).ser.stage } }) hparts

theorem freeTelem_unasked (h : StageIs k s y u) (hy : y.telemCredit = .unasked) : StageIs k s y (freeTelem u k) := by
  have hcredit : (u.stage k).telemCredit = .unasked := by rw [h.1]; exact hy
  have hfree : freeTelem u k = u.modStage k (fun x => { x with telemCredit := .unasked }) := by
    unfold freeTelem
    dsimp only
    rw [hcredit]
    rfl
  have hsame : { y with telemCredit := TelemCredit.unasked } = y := by rw [← hy]
  rw [hfree]
  have hmod := stageIs_mod (fun x => { x with telemCredit := TelemCredit.unasked }) h
  rw [hsame] at hmod
  exact hmod

end

/-! What a reply leaves of the stage. -/

/-- The status bits of a reply's trailer. -/
def withFlags (ws : List Word) (x : StageState) : StageState :=
  { x with enabled := bit (replyTrailer ws) 1, stageFault := bit (replyTrailer ws) 2, law := bits (replyTrailer ws) 3 2, overtemp := bit (replyTrailer ws) 5 }

/-- The frame in flight has ended. -/
def frameDone (s : State) (k : Nat) (f : StageFrame) : State :=
  s.modStage k (fun x => { x with frame := none, prev := some f, alive := (x.alive + 1) % 16 })

/-- A bad reply counts. -/
def badCounted (s : State) (k : Nat) (f : StageFrame) : State :=
  ((if f.cmd = 1 then freeTelem s k else s).modStage k (fun x => { x with bad := x.bad + 1, badTotal := satAdd max32 x.badTotal 1 })).raise 0x19 1 k

/-- A good reply that reports a bad frame before it. -/
def prevReported (s : State) (k a : Nat) (p : Option StageFrame) (forgive : Bool) : State :=
  let s := if forgive then s.modStage k (fun x => { x with forgive := false })
           else (s.modStage k (fun x => { x with badPrev := satAdd max32 x.badPrev 1 })).raise 0x19 2 k
  if a = 4 ∨ (a = 3 ∧ s.ser.job.isNone) then s.modStage k (fun y => { y with resend := p }) else s

/-- A good reply, before its values are used. -/
def goodCounted (s : State) (k : Nat) (ws : List Word) : State :=
  s.modStage k (fun x => { x with stageAlive := some (bits (replyTrailer ws) 12 4), bad := 0 })

/-- The reply to the frame `f` of stage `x`, which answers a frame of command `a`. -/
def replyTaken (s : State) (x : StageState) (k : Nat) (f : StageFrame) (a : Nat) (ws : List Word) : State :=
  if replyBad x ws then badCounted (frameDone s k f) k f
  else
    let s := goodCounted (frameDone s k f) k ws
    let s := if !bit (replyTrailer ws) 0 then s else prevReported s k a x.prev x.forgive
    if x.attached ∧ !x.lost then goodReply s k (decide (f.cmd = 1)) (decide (a = 2)) ws else s

/-- `a` is the command of the frame that the next reply of stage `x` answers, 0 if there is none. -/
def Answers (x : StageState) (a : Nat) : Prop := (∀ p, x.prev = some p → a = p.cmd) ∧ (x.prev = none → a = 0)

theorem lossDue_idle {s : State} {k : Nat} (h : (s.stage k).attached = false ∨ (s.stage k).lost = true ∨ (s.stage k).bad < 3) : lossDue s k = s := if_neg fun hdue => by
  obtain ⟨hatt, hlost, hbad⟩ := hdue
  rcases h with h | h | h
  · rw [h] at hatt
    exact absurd hatt Bool.false_ne_true
  · rw [h] at hlost
    exact absurd hlost Bool.false_ne_true
  · omega

theorem nextExchange_idle {s : State} (h : s.ser.cyclicWaits = []) : nextExchange s = s := by
  unfold nextExchange
  rw [h]

/-- The end of a frame in flight at a stage that is not lost, or that is being attached. -/
theorem stageReply_eq {st : Stage} {ws : List Word} {s : State} {f : StageFrame} (hframe : (s.stage st.val).frame = some f) (hbad : (s.stage st.val).attached = false ∨ (s.stage st.val).bad < 3)
    (hlost : (s.stage st.val).lost = false ∨ ∃ m p d r n, s.ser.job = some (st.val, .attach m p d r n)) :
    ∃ a, Answers (s.stage st.val) a ∧ exec (.stageReply st ws) s = .next (nextExchange
      (jobReply (replyTaken s (s.stage st.val) st.val f a ws) st.val f false a (replyBad (s.stage st.val) ws) (bit (replyTrailer ws) 0) ws)) := by
  have hended : endedFrame s st.val = some f := by
    unfold endedFrame
    dsimp only
    rw [hframe]
  have hanswers : Answers (s.stage st.val) (match (s.stage st.val).prev with | some p => p.cmd | none => 0) := by
    unfold Answers
    cases (s.stage st.val).prev with
    | none => exact ⟨fun p hp => (nomatch hp), fun _ => rfl⟩
    | some p => exact ⟨fun q hq => by cases hq; rfl, fun hn => (nomatch hn)⟩
  refine ⟨_, hanswers, ?_⟩
  rw [show exec (.stageReply st ws) s = execStageReply st ws s from rfl]
  unfold execStageReply
  dsimp only
  rw [lossDue_idle (hbad.imp_right Or.inr), hended]
  dsimp only
  rw [hframe]
  dsimp only [Option.isSome_some]
  refine congrArg (fun v => Host.Outcome.next (nextExchange v)) ?_
  split
  · next hl =>
    obtain ⟨hl, hj⟩ := hl
    rcases hlost with h | ⟨m, p, d, r, n, h⟩
    · rw [h] at hl
      exact absurd hl Bool.false_ne_true
    · rw [h] at hj
      simp at hj
  · rfl

end Sys2Proof.Machine
end

section
/-! PROOFS. O48, continued: bad and good replies to the frames of a stage and of the firmware's job on it. -/

set_option Elab.async false

namespace Sys2Proof.Machine

/-! What the reply itself changes. -/

/-- A fault of the stage bus waits for its block. -/
def stageFaultWaits (src k : Nat) (s : State) : State :=
  { s with flt := { s.flt with waiting := s.flt.waiting ++ [{ block := 0x19, source := src, d0 := w16 k, d1 := 0, forced := false, stamp := f3 s.now }] } }

theorem stageFault_raise {src : Nat} (h : srcEvent 0x19 src = true) (s : State) (k : Nat) : s.raise 0x19 src k = stageFaultWaits src k s := raise_event h s k 0

/-- A stage when the frame in flight to it has ended. -/
def doneFrame (f : StageFrame) (x : StageState) : StageState := { x with frame := none, prev := some f, alive := (x.alive + 1) % 16 }

theorem frameDone_is (s : State) (k : Nat) (f : StageFrame) : StageIs k s (doneFrame f (s.stage k)) (frameDone s k f) := stageIs_mod (doneFrame f) stageIs_refl

/-- A stage that has taken a bad reply. -/
def badReplied (x : StageState) : StageState := { x with bad := x.bad + 1, badTotal := satAdd max32 x.badTotal 1 }

/-- A stage that has taken a good reply, before its values are used. -/
def goodReplied (ws : List Word) (x : StageState) : StageState := { x with stageAlive := some (bits (replyTrailer ws) 12 4), bad := 0 }

section
variable {s : State} {k : Nat} {f : StageFrame} {a : Nat} {ws : List Word}

theorem badCounted_is (hcredit : f.cmd = 1 → (s.stage k).telemCredit = .unasked) :
    ∃ v, StageIs k s (badReplied (doneFrame f (s.stage k))) v ∧ badCounted (frameDone s k f) k f = stageFaultWaits 1 k v := by
  have hevent : srcEvent 0x19 1 = true := by decide
  refine ⟨_, stageIs_mod badReplied (u := if f.cmd = 1 then freeTelem (frameDone s k f) k else frameDone s k f) ?_, stageFault_raise hevent _ k⟩
  split
  · next hcmd => exact freeTelem_unasked (frameDone_is s k f) (hcredit hcmd)
  · exact frameDone_is s k f

theorem replyTaken_bad (h : replyBad (s.stage k) ws = true) : replyTaken s (s.stage k) k f a ws = badCounted (frameDone s k f) k f := if_pos h

theorem goodCounted_is (s : State) (k : Nat) (f : StageFrame) (ws : List Word) :
    StageIs k s (goodReplied ws (doneFrame f (s.stage k))) (goodCounted (frameDone s k f) k ws) := stageIs_mod (goodReplied ws) (frameDone_is s k f)

theorem goodReply_now {v : State} {cyclic regs : Bool} (h : v.perturbed 8 k = false) : goodReply v k cyclic regs ws = useReply v k cyclic regs ws :=
  if_neg (by rw [h]; exact Bool.false_ne_true)

theorem useReply_flags {v : State} {cyclic regs : Bool} (h : regs = true ∨ wAt (v.stage k).ident 0 ≠ 1) : useReply v k cyclic regs ws = v.modStage k (withFlags ws) := by
  have hident : ((v.modStage k (withFlags ws)).stage k).ident = (v.stage k).ident := by rw [State.modStage_stage, if_pos rfl]; rfl
  refine if_pos ?_
  rcases h with h | h
  · exact Or.inl h
  · exact Or.inr (fun h1 => h (by rw [← hident]; exact h1))

/-- A good reply that reports no bad frame, to a stage in use or not. -/
theorem replyTaken_good (h : replyBad (s.stage k) ws = false) (hbit : bit (replyTrailer ws) 0 = false) (hpert : s.perturbed 8 k = false) :
    replyTaken s (s.stage k) k f a ws = if (s.stage k).attached ∧ !(s.stage k).lost then
      useReply (goodCounted (frameDone s k f) k ws) k (decide (f.cmd = 1)) (decide (a = 2)) ws else goodCounted (frameDone s k f) k ws := by
  have hgood : replyTaken s (s.stage k) k f a ws = if (s.stage k).attached ∧ !(s.stage k).lost then
      goodReply (goodCounted (frameDone s k f) k ws) k (decide (f.cmd = 1)) (decide (a = 2)) ws else goodCounted (frameDone s k f) k ws := by
    unfold replyTaken
    rw [if_neg (by rw [h]; exact Bool.false_ne_true), hbit]
    rfl
  rw [hgood]
  split
  · exact goodReply_now hpert
  · rfl

/-- A good reply with registers, or to a stage whose identity is not the digital one, moves that stage alone. -/
theorem replyTaken_quiet (h : replyBad (s.stage k) ws = false) (hbit : bit (replyTrailer ws) 0 = false) (hpert : s.perturbed 8 k = false)
    (hquiet : a = 2 ∨ wAt (s.stage k).ident 0 ≠ 1) :
    ∃ y, StageIs k s y (replyTaken s (s.stage k) k f a ws) ∧
      ((s.stage k).attached = true → (s.stage k).lost = false → y = withFlags ws (goodReplied ws (doneFrame f (s.stage k)))) := by
  have hmoved := goodCounted_is s k f ws
  have hident : ((goodCounted (frameDone s k f) k ws).stage k).ident = (s.stage k).ident := by rw [hmoved.1]; rfl
  rw [replyTaken_good h hbit hpert]
  split
  · rw [useReply_flags (hquiet.imp (fun h => decide_eq_true h) fun h h1 => h (by rw [← hident]; exact h1))]
    exact ⟨_, stageIs_mod (withFlags ws) hmoved, fun _ _ => rfl⟩
  · next hn => exact ⟨_, hmoved, fun hatt hlost => absurd ⟨hatt, by rw [hlost]; rfl⟩ hn⟩

end

/-! Jobs. -/

theorem jobReply_none {s : State} (h : s.ser.job = none) (k : Nat) (f : StageFrame) (own : Bool) (a : Nat) (bad badPrev : Bool) (ws : List Word) :
    jobReply s k f own a bad badPrev ws = s := by
  unfold jobReply
  rw [h]

theorem answerJob_answers {v : State} {c : Current} (hcur : v.fw.current = some c) (hwait : c.wait = .stageBus) (hidle : v.ser.cyclicWaits = []) (a d : Nat) (ws : List Word) :
    ∃ t, nextExchange (answerJob v (fun s => postResponse s a d ws)) = t ∧ Answered c a d ws (endJob v) t := by
  have hwaits : waitsFor v .stageBus = true := by
    unfold waitsFor
    rw [hcur]
    exact decide_eq_true hwait
  have hans := postResponse_answered (endJob v) c a d ws hcur
  have hser : (postResponse (endJob v) a d ws).ser.cyclicWaits = [] := by
    rw [hans.1]
    exact hidle
  refine ⟨_, rfl, ?_⟩
  rw [show answerJob v (fun s => postResponse s a d ws) = postResponse (endJob v) a d ws from if_pos hwaits, nextExchange_idle hser]
  exact hans

theorem jobReply_read {s : State} {k n m addr : Nat} {f : StageFrame} (h : s.ser.job = some (k, .read addr n m 1)) (own : Bool) (ws : List Word) :
    jobReply s k f own 2 false false ws = answerJob s (fun s => postResponse s 0 0 (ws.take n)) := by
  unfold jobReply
  rw [h]
  dsimp only
  rw [if_neg (fun hne => hne rfl), if_pos ⟨rfl, rfl⟩]
  rfl

theorem jobReply_written {s : State} {k n addr : Nat} {l : List Word} {f : StageFrame} (h : s.ser.job = some (k, .write addr l n 1)) (own : Bool) (ws : List Word) :
    jobReply s k f own 3 false false ws = answerJob s (fun s => postResponse s 0 0 []) := by
  unfold jobReply
  rw [h]
  dsimp only
  rw [if_neg (fun hne => hne rfl), if_pos ⟨rfl, rfl⟩]
  rfl

/-- The first bad answer to a write has it sent once more, the second ends it. -/
theorem jobReply_writeBad {s : State} {k n addr : Nat} {l : List Word} {f : StageFrame} (h : s.ser.job = some (k, .write addr l n 1)) (own badPrev : Bool) (ws : List Word) :
    jobReply s k f own 3 true badPrev ws =
      if n = 1 then answerJob s (fun s => postResponse s 2 0 []) else { s with ser := { s.ser with job := some (k, .write addr l 1 0) } } := by
  unfold jobReply
  rw [h]
  dsimp only
  rw [if_neg (fun hne => hne rfl), if_pos ⟨rfl, rfl⟩]
  rfl

theorem jobReply_attach {s : State} {k m p d r : Nat} {f : StageFrame} (h : s.ser.job = some (k, .attach m p d r 2)) (own : Bool) (ws : List Word) :
    jobReply s k f own 2 false false ws = finishAttach s k m p d r false ws := by
  unfold jobReply
  rw [h]
  dsimp only
  rw [if_neg (fun hne => hne rfl), if_pos ⟨rfl, Nat.le_refl 2⟩]
  rfl

theorem jobReply_detach {s : State} {k a : Nat} {f : StageFrame} (h : s.ser.job = some (k, .detach)) (hcmd : f.cmd = 4) (own bad badPrev : Bool) (ws : List Word) :
    jobReply s k f own a bad badPrev ws =
      answerJob ((stageCharged s k).foldl chargeInvalid (lostLive ((freeTelem s k).modStage k (fun _ => {})))) (fun s => postResponse s 0 0 []) := by
  unfold jobReply
  rw [h]
  dsimp only
  rw [if_neg (fun hne => hne rfl), if_pos hcmd]
  rfl

end Sys2Proof.Machine
end

section
/-! PROOFS. O48, continued: STAGE_REPLY, case by case. -/

set_option Elab.async false

namespace Sys2Proof.Machine

section
variable {st : Stage} {ws : List Word} {s : State} {f : StageFrame}

theorem stageReply_noFrame (h : endedFrame s st.val = none) (hbad : (s.stage st.val).bad < 3) (hidle : s.ser.cyclicWaits = []) : exec (.stageReply st ws) s = .next s := by
  rw [show exec (.stageReply st ws) s = execStageReply st ws s from rfl]
  unfold execStageReply
  dsimp only
  rw [lossDue_idle (Or.inr (Or.inr hbad)), h]
  exact congrArg Host.Outcome.next (nextExchange_idle hidle)

/-- The end of a frame at a stage that is not lost. -/
theorem stageReply_present (hframe : (s.stage st.val).frame = some f) (hbad : (s.stage st.val).bad < 3) (hlost : (s.stage st.val).lost = false) :
    ∃ a, Answers (s.stage st.val) a ∧ exec (.stageReply st ws) s = .next (nextExchange
      (jobReply (replyTaken s (s.stage st.val) st.val f a ws) st.val f false a (replyBad (s.stage st.val) ws) (bit (replyTrailer ws) 0) ws)) :=
  stageReply_eq hframe (Or.inr hbad) (Or.inl hlost)

/-- With no job of the firmware and no exchange that waits, the reply's own change is all. -/
theorem stageReply_noJob (hframe : (s.stage st.val).frame = some f) (hbad : (s.stage st.val).bad < 3) (hlost : (s.stage st.val).lost = false)
    {P : State → Prop} (hjob : ∀ v, P v → v.ser.job = none) (hidle : ∀ v, P v → v.ser.cyclicWaits = [])
    (h : ∀ a, Answers (s.stage st.val) a → P (replyTaken s (s.stage st.val) st.val f a ws)) :
    ∃ a, Answers (s.stage st.val) a ∧ exec (.stageReply st ws) s = .next (replyTaken s (s.stage st.val) st.val f a ws) := by
  obtain ⟨a, ha, hexec⟩ := stageReply_present (ws := ws) hframe hbad hlost
  refine ⟨a, ha, hexec.trans ?_⟩
  rw [jobReply_none (hjob _ (h a ha)), nextExchange_idle (hidle _ (h a ha))]

theorem stageReply_bad (hframe : (s.stage st.val).frame = some f) (hbad : (s.stage st.val).bad < 3) (hlost : (s.stage st.val).lost = false)
    (hcredit : (s.stage st.val).telemCredit = .unasked) (hjob : s.ser.job = none) (hidle : s.ser.cyclicWaits = []) (hreply : replyBad (s.stage st.val) ws = true) :
    ∃ t, exec (.stageReply st ws) s = .next t ∧ t.stage st.val = { (s.stage st.val) with frame := none, prev := some f, alive := ((s.stage st.val).alive + 1) % 16, bad := (s.stage st.val).bad + 1, badTotal := min 0xFFFFFFFF ((s.stage st.val).badTotal + 1) } ∧
      (∀ k, k ≠ st.val → t.stage k = s.stage k) ∧
      t = { s with ser := { s.ser with stage := t.ser.stage }, flt := { s.flt with waiting := s.flt.waiting ++ [{ block := 0x19, source := 1, d0 := w16 st.val, d1 := 0, forced := false, stamp := f3 s.now }] } } := by
  obtain ⟨v, ⟨hown, hothers, hparts⟩, hcount⟩ := badCounted_is (f := f) (fun _ => hcredit)
  have htaken : ∀ a, replyTaken s (s.stage st.val) st.val f a ws = stageFaultWaits 1 st.val v := fun a => (replyTaken_bad hreply).trans hcount
  obtain ⟨a, ha, hexec⟩ := stageReply_noJob (P := fun u => u = stageFaultWaits 1 st.val v) (ws := ws) hframe hbad hlost
    (fun u hu => by rw [hu, hparts]; exact hjob) (fun u hu => by rw [hu, hparts]; exact hidle) (fun a _ => htaken a)
  rw [htaken a] at hexec
  refine ⟨_, hexec, hown, hothers, ?_⟩
  rw [hparts]
  rfl

theorem stageReply_good (hframe : (s.stage st.val).frame = some f) (hbad : (s.stage st.val).bad < 3) (hlost : (s.stage st.val).lost = false)
    (hatt : (s.stage st.val).attached = true) (hjob : s.ser.job = none) (hidle : s.ser.cyclicWaits = []) (hpert : s.perturbed 8 st.val = false)
    (hident : wAt (s.stage st.val).ident 0 ≠ 1) (hreply : replyBad (s.stage st.val) ws = false) (hbit : bit (replyTrailer ws) 0 = false) :
    ∃ t, exec (.stageReply st ws) s = .next t ∧ t.stage st.val = { (s.stage st.val) with frame := none, prev := some f, alive := ((s.stage st.val).alive + 1) % 16, bad := 0, stageAlive := some (bits (replyTrailer ws) 12 4), enabled := bit (replyTrailer ws) 1, stageFault := bit (replyTrailer ws) 2, law := bits (replyTrailer ws) 3 2, overtemp := bit (replyTrailer ws) 5 } ∧
      (∀ k, k ≠ st.val → t.stage k = s.stage k) ∧ t = { s with ser := { s.ser with stage := t.ser.stage } } := by
  have hquiet : ∀ a, ∃ y, StageIs st.val s y (replyTaken s (s.stage st.val) st.val f a ws) ∧
      ((s.stage st.val).attached = true → (s.stage st.val).lost = false → y = withFlags ws (goodReplied ws (doneFrame f (s.stage st.val)))) :=
    fun a => replyTaken_quiet hreply hbit hpert (Or.inr hident)
  obtain ⟨a, ha, hexec⟩ := stageReply_noJob (P := fun u => u = { s with ser := { s.ser with stage := u.ser.stage } }) (ws := ws) hframe hbad hlost
    (fun u hu => by rw [hu]; exact hjob) (fun u hu => by rw [hu]; exact hidle) (fun a _ => (hquiet a).choose_spec.1.2.2)
  obtain ⟨y, ⟨hown, hothers, hparts⟩, hy⟩ := hquiet a
  exact ⟨_, hexec, hown.trans (hy hatt hlost), hothers, hparts⟩

end

/-! A good reply to a digital stage. -/

/-- The telemetry of a good reply. -/
def withTelem (ws : List Word) (x : StageState) : StageState := { x with telem := padWords (wAt x.ident 12) ws.dropLast.dropLast, telemCount := 0 }

theorem modStage_congr {v : State} {k : Nat} {f g : StageState → StageState} (h : f (v.stage k) = g (v.stage k)) : v.modStage k f = v.modStage k g := by
  unfold State.stage at h
  unfold State.modStage tmod
  rw [h]

theorem useReply_telem {v : State} {k : Nat} {cyclic : Bool} {ws : List Word} (hident : wAt (v.stage k).ident 0 = 1) (hdiv : (v.stage k).telemDiv = 0) (hloops : stageLoops v k = []) :
    useReply v k cyclic false ws = (v.modStage k (withFlags ws)).modStage k (withTelem ws) := by
  have hmoved : (v.modStage k (withFlags ws)).stage k = withFlags ws (v.stage k) := by rw [State.modStage_stage, if_pos rfl]
  have hnone : ∀ g : StageState → StageState, stageLoops ((v.modStage k (withFlags ws)).modStage k g) k = [] := fun _ => hloops
  have hcharged : ∀ g : StageState → StageState, stageCharged ((v.modStage k (withFlags ws)).modStage k g) k = [] := fun g => by
    unfold stageCharged
    rw [hnone g]
    rfl
  have hstart : useReply v k cyclic false ws =
      (let x := (v.modStage k (withFlags ws)).stage k
       if false = true ∨ wAt x.ident 0 ≠ 1 then v.modStage k (withFlags ws)
       else
        let tel := padWords (wAt x.ident 12) ws.dropLast.dropLast
        let s := (v.modStage k (withFlags ws)).modStage k (fun x => { x with
          telem := tel
          telemCount := if x.telemDiv = 0 then 0 else if x.telemDiv ≤ x.telemCount + 1 then 0 else x.telemCount + 1 })
        let s := if x.telemDiv ≠ 0 ∧ x.telemDiv ≤ x.telemCount + 1 then sendTelemetry s k else s
        let s := if cyclic then
            (stageLoops s k).foldl (fun s l =>
              digitalSample s l (bits (replyTrailer ws) 3 2) { v := intW (w16 (wAt tel 0)), i := intW (w16 (wAt tel 1)), vOvr := false, iOvr := false }) s
          else s
        if 4 ≤ wAt x.ident 12 then (stageCharged s k).foldl (fun s h => chargeReading s h (some (degC (intW (w16 (wAt tel 3)))))) s else s) := rfl
  rw [hstart]
  dsimp only
  have hx : ((v.modStage k (withFlags ws)).stage k).ident = (v.stage k).ident ∧ ((v.modStage k (withFlags ws)).stage k).telemDiv = 0 := by
    rw [hmoved]
    exact ⟨rfl, hdiv⟩
  rw [if_neg (fun h => h.elim Bool.false_ne_true fun h => h (by rw [hx.1]; exact hident)), if_neg (fun h : ((v.modStage k (withFlags ws)).stage k).telemDiv ≠ 0 ∧ _ => h.1 hx.2)]
  have htelem : (v.modStage k (withFlags ws)).modStage k (fun x => { x with
      telem := padWords (wAt ((v.modStage k (withFlags ws)).stage k).ident 12) ws.dropLast.dropLast
      telemCount := if x.telemDiv = 0 then 0 else if x.telemDiv ≤ x.telemCount + 1 then 0 else x.telemCount + 1 }) =
      (v.modStage k (withFlags ws)).modStage k (withTelem ws) := by
    refine modStage_congr ?_
    rw [if_pos hx.2]
    rfl
  rw [htelem, hnone, List.foldl_nil]
  have hsame : ∀ w : State, (if cyclic = true then w else w) = w := fun w => by split <;> rfl
  rw [hsame, hcharged, List.foldl_nil]
  split <;> rfl

section
variable {st : Stage} {ws : List Word} {s : State} {f p : StageFrame}

theorem stageReply_digital (hframe : (s.stage st.val).frame = some f) (hbad : (s.stage st.val).bad < 3) (hlost : (s.stage st.val).lost = false)
    (hatt : (s.stage st.val).attached = true) (hjob : s.ser.job = none) (hidle : s.ser.cyclicWaits = []) (hpert : s.perturbed 8 st.val = false)
    (hident : wAt (s.stage st.val).ident 0 = 1) (hdiv : (s.stage st.val).telemDiv = 0) (hloops : stageLoops s st.val = [])
    (hprev : ∀ p, (s.stage st.val).prev = some p → p.cmd ≠ 2) (hreply : replyBad (s.stage st.val) ws = false) (hbit : bit (replyTrailer ws) 0 = false) :
    ∃ t, exec (.stageReply st ws) s = .next t ∧ t.stage st.val = { (s.stage st.val) with frame := none, prev := some f, alive := ((s.stage st.val).alive + 1) % 16, bad := 0, stageAlive := some (bits (replyTrailer ws) 12 4), enabled := bit (replyTrailer ws) 1, stageFault := bit (replyTrailer ws) 2, law := bits (replyTrailer ws) 3 2, overtemp := bit (replyTrailer ws) 5, telem := padWords (wAt (s.stage st.val).ident 12) ws.dropLast.dropLast, telemCount := 0 } ∧
      (∀ k, k ≠ st.val → t.stage k = s.stage k) ∧ t = { s with ser := { s.ser with stage := t.ser.stage } } := by
  have hmoved := goodCounted_is s st.val f ws
  have htaken : ∀ a, Answers (s.stage st.val) a → replyTaken s (s.stage st.val) st.val f a ws =
      ((goodCounted (frameDone s st.val f) st.val ws).modStage st.val (withFlags ws)).modStage st.val (withTelem ws) := fun a ha => by
    have hregs : a ≠ 2 := by
      cases hp : (s.stage st.val).prev with
      | none => rw [ha.2 hp]; decide
      | some p => rw [ha.1 p hp]; exact hprev p hp
    rw [replyTaken_good hreply hbit hpert, if_pos ⟨hatt, by rw [hlost]; rfl⟩, decide_eq_false hregs]
    refine useReply_telem ?_ ?_ ?_
    · rw [hmoved.1]; exact hident
    · rw [hmoved.1]; exact hdiv
    · rw [hmoved.2.2]; exact hloops
  have hfinal := stageIs_mod (withTelem ws) (stageIs_mod (withFlags ws) hmoved)
  obtain ⟨a, ha, hexec⟩ := stageReply_noJob (P := fun u => u = { s with ser := { s.ser with stage := u.ser.stage } }) (ws := ws) hframe hbad hlost
    (fun u hu => by rw [hu]; exact hjob) (fun u hu => by rw [hu]; exact hidle) (fun a ha => by rw [htaken a ha]; exact hfinal.2.2)
  rw [htaken a ha] at hexec
  exact ⟨_, hexec, hfinal⟩

/-- A good reply that reports a bad frame, to a DISABLE frame: it is sent once more. -/
theorem stageReply_resend (hframe : (s.stage st.val).frame = some f) (hprev : (s.stage st.val).prev = some p) (hcmd : p.cmd = 4)
    (hbad : (s.stage st.val).bad < 3) (hlost : (s.stage st.val).lost = false) (hatt : (s.stage st.val).attached = true) (hforgive : (s.stage st.val).forgive = false)
    (hjob : s.ser.job = none) (hidle : s.ser.cyclicWaits = []) (hpert : s.perturbed 8 st.val = false) (hident : wAt (s.stage st.val).ident 0 ≠ 1)
    (hreply : replyBad (s.stage st.val) ws = false) (hbit : bit (replyTrailer ws) 0 = true) :
    ∃ t, exec (.stageReply st ws) s = .next t ∧ t.stage st.val = { (s.stage st.val) with frame := none, prev := some f, alive := ((s.stage st.val).alive + 1) % 16, bad := 0, stageAlive := some (bits (replyTrailer ws) 12 4), badPrev := min 0xFFFFFFFF ((s.stage st.val).badPrev + 1), resend := some p, enabled := bit (replyTrailer ws) 1, stageFault := bit (replyTrailer ws) 2, law := bits (replyTrailer ws) 3 2, overtemp := bit (replyTrailer ws) 5 } ∧
      (∀ k, k ≠ st.val → t.stage k = s.stage k) ∧
      t = { s with ser := { s.ser with stage := t.ser.stage }, flt := { s.flt with waiting := s.flt.waiting ++ [{ block := 0x19, source := 2, d0 := w16 st.val, d1 := 0, forced := false, stamp := f3 s.now }] } } := by
  have hmoved := goodCounted_is s st.val f ws
  have hevent : srcEvent 0x19 2 = true := by decide
  generalize hv : goodCounted (frameDone s st.val f) st.val ws = v at hmoved
  have hcounted := stageIs_mod (fun x => { x with badPrev := satAdd max32 x.badPrev 1 }) hmoved
  generalize hw : v.modStage st.val (fun x => { x with badPrev := satAdd max32 x.badPrev 1 }) = w at hcounted
  have hsent := stageIs_mod (withFlags ws) (stageIs_mod (fun x => { x with resend := some p }) hcounted)
  have htaken : ∀ a, Answers (s.stage st.val) a → replyTaken s (s.stage st.val) st.val f a ws =
      stageFaultWaits 2 st.val ((w.modStage st.val (fun x => { x with resend := some p })).modStage st.val (withFlags ws)) := fun a ha => by
    have hquiet : wAt (((stageFaultWaits 2 st.val w).modStage st.val (fun y => { y with resend := some p })).stage st.val).ident 0 ≠ 1 := by
      rw [State.modStage_stage, if_pos rfl]
      show wAt (w.stage st.val).ident 0 ≠ 1
      rw [hcounted.1]
      exact hident
    have hstays : ((stageFaultWaits 2 st.val w).modStage st.val (fun y => { y with resend := some p })).perturbed 8 st.val = false := by
      rw [hcounted.2.2]
      exact hpert
    have hreported : prevReported v st.val a (s.stage st.val).prev (s.stage st.val).forgive = (stageFaultWaits 2 st.val w).modStage st.val (fun y => { y with resend := some p }) := by
      unfold prevReported
      rw [hforgive, hprev, hw]
      dsimp only
      rw [if_neg Bool.false_ne_true, stageFault_raise hevent, if_pos (Or.inl ((ha.1 p hprev).trans hcmd))]
    unfold replyTaken
    rw [if_neg (by rw [hreply]; exact Bool.false_ne_true), hv, hbit]
    dsimp only
    rw [hreported, if_neg (show ¬ ((!true) = true) by decide), if_pos ⟨hatt, by rw [hlost]; rfl⟩, goodReply_now hstays, useReply_flags (Or.inr hquiet)]
    rfl
  obtain ⟨a, ha, hexec⟩ := stageReply_noJob (P := fun u => u = stageFaultWaits 2 st.val ((w.modStage st.val (fun x => { x with resend := some p })).modStage st.val (withFlags ws))) (ws := ws) hframe hbad hlost
    (fun u hu => by rw [hu, hsent.2.2]; exact hjob) (fun u hu => by rw [hu, hsent.2.2]; exact hidle) htaken
  rw [htaken a ha] at hexec
  refine ⟨_, hexec, hsent.1, hsent.2.1, ?_⟩
  rw [hsent.2.2]
  rfl

end

end Sys2Proof.Machine
end

section
/-! PROOFS. O48, continued: how the firmware's jobs on the stage bus end. -/

set_option Elab.async false

namespace Sys2Proof.Machine

section
variable {st : Stage} {ws : List Word} {s : State} {f p : StageFrame} {c : Current}

/-- A reply moves its stage alone, and the job is that of before. -/
theorem stageIs_job {k : Nat} {y : StageState} {u : State} (h : StageIs k s y u) : u.ser.job = s.ser.job := by rw [h.2.2]

theorem endJob_parts {k : Nat} {y : StageState} {u : State} (h : StageIs k s y u) :
    endJob u = { s with ser := { s.ser with job := none, stage := (endJob u).ser.stage } } := by
  obtain ⟨-, -, hparts⟩ := h
  exact congrArg endJob hparts

/-- The answer of a job whose reply has moved its stage alone. -/
theorem stageIs_answers {k : Nat} {y : StageState} {u : State} (h : StageIs k s y u) (hcur : s.fw.current = some c) (hwait : c.wait = .stageBus) (hidle : s.ser.cyclicWaits = [])
    (a d : Nat) (l : List Word) : ∃ v t, nextExchange (answerJob u (fun s => postResponse s a d l)) = t ∧ Answered c a d l v t ∧ (∀ j, j ≠ k → v.stage j = s.stage j) ∧
      v = { s with ser := { s.ser with job := none, stage := v.ser.stage } } := by
  obtain ⟨t, hnext, hans⟩ := answerJob_answers (v := u) (by rw [h.2.2]; exact hcur) hwait (by rw [h.2.2]; exact hidle) a d l
  exact ⟨endJob u, t, hnext, hans, h.2.1, endJob_parts h⟩

theorem stageReply_read {a n m : Nat} (hcur : s.fw.current = some c) (hwait : c.wait = .stageBus) (hframe : (s.stage st.val).frame = some f) (hprev : (s.stage st.val).prev = some p)
    (hcmd : p.cmd = 2) (hbad : (s.stage st.val).bad < 3) (hlost : (s.stage st.val).lost = false) (hidle : s.ser.cyclicWaits = []) (hpert : s.perturbed 8 st.val = false)
    (hreply : replyBad (s.stage st.val) ws = false) (hbit : bit (replyTrailer ws) 0 = false) (hjob : s.ser.job = some (st.val, .read a n m 1)) :
    ∃ u t, exec (.stageReply st ws) s = .next t ∧ Answered c 0 0 (ws.take n) u t ∧ (∀ k, k ≠ st.val → u.stage k = s.stage k) ∧
      u = { s with ser := { s.ser with job := none, stage := u.ser.stage } } := by
  obtain ⟨b, hb, hexec⟩ := stageReply_present (ws := ws) hframe hbad hlost
  have hb2 : b = 2 := (hb.1 p hprev).trans hcmd
  subst hb2
  obtain ⟨y, hmoved, -⟩ := replyTaken_quiet (f := f) (a := 2) hreply hbit hpert (Or.inl rfl)
  rw [hreply, hbit, jobReply_read ((stageIs_job hmoved).trans hjob)] at hexec
  obtain ⟨u, t, hnext, hans, hothers, hparts⟩ := stageIs_answers hmoved hcur hwait hidle 0 0 (ws.take n)
  rw [hnext] at hexec
  exact ⟨u, t, hexec, hans, hothers, hparts⟩

theorem stageReply_written {a n : Nat} {l : List Word} (hcur : s.fw.current = some c) (hwait : c.wait = .stageBus) (hframe : (s.stage st.val).frame = some f)
    (hprev : (s.stage st.val).prev = some p) (hcmd : p.cmd = 3) (hbad : (s.stage st.val).bad < 3) (hlost : (s.stage st.val).lost = false) (hidle : s.ser.cyclicWaits = [])
    (hpert : s.perturbed 8 st.val = false) (hident : wAt (s.stage st.val).ident 0 ≠ 1) (hreply : replyBad (s.stage st.val) ws = false) (hbit : bit (replyTrailer ws) 0 = false)
    (hjob : s.ser.job = some (st.val, .write a l n 1)) :
    ∃ u t, exec (.stageReply st ws) s = .next t ∧ Answered c 0 0 [] u t ∧ (∀ k, k ≠ st.val → u.stage k = s.stage k) ∧
      u = { s with ser := { s.ser with job := none, stage := u.ser.stage } } := by
  obtain ⟨b, hb, hexec⟩ := stageReply_present (ws := ws) hframe hbad hlost
  have hb3 : b = 3 := (hb.1 p hprev).trans hcmd
  subst hb3
  obtain ⟨y, hmoved, -⟩ := replyTaken_quiet (f := f) (a := 3) hreply hbit hpert (Or.inr hident)
  rw [hreply, hbit, jobReply_written ((stageIs_job hmoved).trans hjob)] at hexec
  obtain ⟨u, t, hnext, hans, hothers, hparts⟩ := stageIs_answers hmoved hcur hwait hidle 0 0 []
  rw [hnext] at hexec
  exact ⟨u, t, hexec, hans, hothers, hparts⟩

theorem stageReply_writeBad {a : Nat} {l : List Word} (hcur : s.fw.current = some c) (hwait : c.wait = .stageBus) (hframe : (s.stage st.val).frame = some f) (hcyclic : f.cmd ≠ 1)
    (hprev : (s.stage st.val).prev = some p) (hcmd : p.cmd = 3) (hbad : (s.stage st.val).bad < 2) (hlost : (s.stage st.val).lost = false) (hidle : s.ser.cyclicWaits = [])
    (hreply : replyBad (s.stage st.val) ws = true) :
    (s.ser.job = some (st.val, .write a l 0 1) →
      ∃ t, exec (.stageReply st ws) s = .next t ∧ (∀ k, k ≠ st.val → t.stage k = s.stage k) ∧
        t = { s with ser := { s.ser with job := some (st.val, .write a l 1 0), stage := t.ser.stage }, flt := { s.flt with waiting := t.flt.waiting } }) ∧
    (s.ser.job = some (st.val, .write a l 1 1) →
      ∃ u t, exec (.stageReply st ws) s = .next t ∧ Answered c 2 0 [] u t ∧ (∀ k, k ≠ st.val → u.stage k = s.stage k) ∧
        u = { s with ser := { s.ser with job := none, stage := u.ser.stage }, flt := { s.flt with waiting := u.flt.waiting } }) := by
  obtain ⟨b, hb, hexec⟩ := stageReply_present (ws := ws) hframe (Nat.lt_succ_of_lt hbad) hlost
  have hb3 : b = 3 := (hb.1 p hprev).trans hcmd
  subst hb3
  obtain ⟨v, ⟨hown, hothers, hparts⟩, hcount⟩ := badCounted_is (s := s) (k := st.val) (f := f) (fun h => absurd h hcyclic)
  rw [replyTaken_bad hreply, hcount, hreply] at hexec
  have hjob : (stageFaultWaits 1 st.val v).ser.job = s.ser.job := by rw [hparts]; rfl
  refine ⟨fun hw => ?_, fun hw => ?_⟩
  · rw [jobReply_writeBad (hjob.trans hw), if_neg (by decide), nextExchange_idle (by rw [hparts]; exact hidle)] at hexec
    refine ⟨_, hexec, hothers, ?_⟩
    rw [hparts]
    rfl
  · rw [jobReply_writeBad (hjob.trans hw), if_pos rfl] at hexec
    obtain ⟨t, hnext, hans⟩ := answerJob_answers (v := stageFaultWaits 1 st.val v) (by rw [hparts]; exact hcur) hwait (by rw [hparts]; exact hidle) 2 0 []
    rw [hnext] at hexec
    refine ⟨_, t, hexec, hans, hothers, ?_⟩
    rw [hparts]
    rfl

/-! DETACH. -/

theorem lostLive_parts (s : State) : (∀ k, (lostLive s).stage k = s.stage k) ∧ (∀ k, k ≠ 0x19 → (lostLive s).fblk k = s.fblk k) ∧
    lostLive s = { s with flt := { s.flt with block := (lostLive s).flt.block } } := by
  refine ⟨fun _ => rfl, fun k hk => ?_, rfl⟩
  unfold lostLive
  rw [live_fblk, if_neg hk]

theorem stageReply_detached (hcur : s.fw.current = some c) (hwait : c.wait = .stageBus) (hframe : (s.stage st.val).frame = some f) (hcmd : f.cmd = 4)
    (hbad : (s.stage st.val).bad < 2) (hlost : (s.stage st.val).lost = false) (hcredit : (s.stage st.val).telemCredit = .unasked) (hidle : s.ser.cyclicWaits = [])
    (hcharged : stageCharged s st.val = []) (hreply : replyBad (s.stage st.val) ws = true) (hjob : s.ser.job = some (st.val, .detach)) :
    ∃ u t, exec (.stageReply st ws) s = .next t ∧ Answered c 0 0 [] u t ∧ u.stage st.val = {} ∧ (∀ k, k ≠ st.val → u.stage k = s.stage k) ∧
      u = { s with ser := { s.ser with job := none, stage := u.ser.stage }, flt := { s.flt with block := u.flt.block, waiting := u.flt.waiting } } := by
  obtain ⟨b, -, hexec⟩ := stageReply_present (ws := ws) hframe (Nat.lt_succ_of_lt hbad) hlost
  obtain ⟨v, hmoved, hcount⟩ := badCounted_is (s := s) (k := st.val) (f := f) (fun _ => hcredit)
  have hwaits : StageIs st.val (stageFaultWaits 1 st.val s) (badReplied (doneFrame f (s.stage st.val))) (stageFaultWaits 1 st.val v) :=
    ⟨hmoved.1, hmoved.2.1, by rw [hmoved.2.2]; rfl⟩
  have hgone := stageIs_mod (fun _ => {}) (freeTelem_unasked hwaits hcredit)
  rw [replyTaken_bad hreply, hcount] at hexec
  generalize hv : stageFaultWaits 1 st.val v = w at hwaits hgone hexec
  generalize hx : (freeTelem w st.val).modStage st.val (fun _ => {}) = x at hgone
  have hjobw : w.ser.job = some (st.val, .detach) := by rw [hwaits.2.2]; exact hjob
  have hchargedw : stageCharged w st.val = [] := by rw [hwaits.2.2]; exact hcharged
  rw [jobReply_detach hjobw hcmd, hchargedw, List.foldl_nil, hx] at hexec
  obtain ⟨hstages, -, hlive⟩ := lostLive_parts x
  obtain ⟨hown, hothers, hparts⟩ := hgone
  obtain ⟨t, hnext, hans⟩ := answerJob_answers (v := lostLive x) (by rw [hlive, hparts]; exact hcur) hwait (by rw [hlive, hparts]; exact hidle) 0 0 []
  rw [hnext] at hexec
  refine ⟨_, t, hexec, hans, (hstages st.val).trans hown, fun k hk => (hstages k).trans (hothers k hk), ?_⟩
  generalize lostLive x = z at hlive ⊢
  rw [hlive, hparts]
  rfl

end

end Sys2Proof.Machine
end

section
/-! PROOFS. O48, continued: the end of ATTACH, and the cyclic exchange that falls due. -/

set_option Elab.async false

namespace Sys2Proof.Machine

/-! ATTACH. -/

theorem overLoaded_congr {s u : State} {k : Nat} (h : ∀ j, j ≠ k → u.stage j = s.stage j) (m p : Nat) (w : List Word) : overLoaded u k m p w = overLoaded s k m p w := by
  have hfilter : (List.range 16).filter (fun j => decide (j ≠ k) && (u.stage j).attached) = (List.range 16).filter (fun j => decide (j ≠ k) && (s.stage j).attached) := by
    refine List.filter_congr fun j _ => ?_
    by_cases hj : j = k
    · rw [decide_eq_false (fun hne => hne hj)]
      rfl
    · rw [h j hj]
  unfold overLoaded
  dsimp only
  rw [hfilter]
  refine congrArg (fun x => (dec 9 1).lt x) (List.foldl_ext _ _ _ fun a j hj => ?_)
  have hne : j ≠ k := of_decide_eq_true (Bool.and_eq_true_iff.1 (List.mem_filter.1 hj).2).1
  rw [h j hne]

section
variable {st : Stage} {ws w : List Word} {s : State} {f p : StageFrame} {c : Current} {m per dv r : Nat}

/-- The stage is attached. -/
def attachedStage (v : State) (k m p d r : Nat) (w : List Word) : State :=
  (freeTelem v.takeFree k).modStage k (fun x =>
    { alive := x.alive, stageAlive := x.stageAlive, prev := x.prev, frame := x.frame, out := x.out, attached := true, modeword := m,
      period := p, offset := v.freeNat % (160000 * p), telemDiv := d, ring := r, ident := w })

theorem finishAttach_refused {v : State} {k reason : Nat} (hreason : identReason m per (padWords 16 ws.dropLast.dropLast) = reason) (hne : reason ≠ 0) :
    finishAttach v k m per dv r false ws = answerJob v (fun s => postResponse s 0x12 (0x8000 + reason) []) := by
  unfold finishAttach
  dsimp only
  rw [if_neg Bool.false_ne_true, hreason]
  exact if_pos hne

theorem finishAttach_over {v : State} {k : Nat} (hreason : identReason m per (padWords 16 ws.dropLast.dropLast) = 0) (hload : overLoaded v k m per (padWords 16 ws.dropLast.dropLast) = true) :
    finishAttach v k m per dv r false ws = answerJob v (fun s => postResponse s 0x10 k []) := by
  unfold finishAttach
  dsimp only
  rw [if_neg Bool.false_ne_true, hreason]
  exact (if_neg (fun h => h rfl)).trans (if_pos hload)

theorem finishAttach_done {v : State} {k : Nat} (hreason : identReason m per (padWords 16 ws.dropLast.dropLast) = 0) (hload : overLoaded v k m per (padWords 16 ws.dropLast.dropLast) = false) :
    finishAttach v k m per dv r false ws = answerJob (lostLive (attachedStage v k m per dv r (padWords 16 ws.dropLast.dropLast))) (fun s => postResponse s 0 0
      [w16 (wAt (padWords 16 ws.dropLast.dropLast) 0), w16 (wAt (padWords 16 ws.dropLast.dropLast) 7), w16 (wAt (padWords 16 ws.dropLast.dropLast) 6),
        w16 (wAt (padWords 16 ws.dropLast.dropLast) 2), w16 (wAt (padWords 16 ws.dropLast.dropLast) 3)]) := by
  unfold finishAttach
  dsimp only
  rw [if_neg Bool.false_ne_true, hreason]
  exact (if_neg (fun h => h rfl)).trans (if_neg (by rw [hload]; exact Bool.false_ne_true))

/-- The reply with the identity block, before the job takes it. -/
theorem stageReply_ident (hatt : (s.stage st.val).attached = false) (hframe : (s.stage st.val).frame = some f) (hprev : (s.stage st.val).prev = some p) (hcmd : p.cmd = 2)
    (hreply : replyBad (s.stage st.val) ws = false) (hbit : bit (replyTrailer ws) 0 = false) (hjob : s.ser.job = some (st.val, .attach m per dv r 2)) :
    ∃ v, StageIs st.val s (goodReplied ws (doneFrame f (s.stage st.val))) v ∧ exec (.stageReply st ws) s = .next (nextExchange (finishAttach v st.val m per dv r false ws)) := by
  obtain ⟨b, hb, hexec⟩ := stageReply_eq (ws := ws) hframe (Or.inl hatt) (Or.inr ⟨m, per, dv, r, 2, hjob⟩)
  have hb2 : b = 2 := (hb.1 p hprev).trans hcmd
  subst hb2
  have hmoved := goodCounted_is s st.val f ws
  have htaken : replyTaken s (s.stage st.val) st.val f 2 ws = goodCounted (frameDone s st.val f) st.val ws := by
    unfold replyTaken
    rw [if_neg (by rw [hreply]; exact Bool.false_ne_true), hbit, hatt]
    exact if_neg fun h => Bool.false_ne_true h.1
  rw [htaken, hreply, hbit, jobReply_attach ((stageIs_job hmoved).trans hjob)] at hexec
  exact ⟨_, hmoved, hexec⟩

/-- What ATTACH leaves of its stage. -/
theorem attachedStage_spec {v : State} {k : Nat} (hv : StageIs k s (goodReplied ws (doneFrame f (s.stage k))) v) (hcredit : (s.stage k).telemCredit = .unasked) (hper : 1 ≤ per) :
    ((attachedStage v k m per dv r w).stage k = { attached := true, modeword := m, period := per, telemDiv := dv, ring := r, ident := w, offset := ((attachedStage v k m per dv r w).stage k).offset, alive := ((s.stage k).alive + 1) % 16, stageAlive := some (bits (replyTrailer ws) 12 4), prev := some f, out := (s.stage k).out }) ∧
      ((attachedStage v k m per dv r w).stage k).offset < 160000 * per ∧ (∀ j, j ≠ k → (attachedStage v k m per dv r w).stage j = s.stage j) ∧
      attachedStage v k m per dv r w = { s with free := s.free + 1, ser := { s.ser with stage := (attachedStage v k m per dv r w).ser.stage } } := by
  have hfree : StageIs k s.takeFree (goodReplied ws (doneFrame f (s.stage k))) v.takeFree := ⟨hv.1, hv.2.1, congrArg State.takeFree hv.2.2⟩
  have hset := stageIs_mod (fun x : StageState => { alive := x.alive, stageAlive := x.stageAlive, prev := x.prev, frame := x.frame, out := x.out, attached := true, modeword := m, period := per, offset := v.freeNat % (160000 * per), telemDiv := dv, ring := r, ident := w }) (freeTelem_unasked hfree hcredit)
  obtain ⟨hown, hothers, hparts⟩ := hset
  unfold attachedStage
  refine ⟨?_, ?_, hothers, hparts⟩
  · rw [hown]
    rfl
  · rw [hown]
    exact Nat.mod_lt _ (Nat.mul_pos (by decide) hper)

theorem stageReply_attached (hcur : s.fw.current = some c) (hwait : c.wait = .stageBus)
    (hatt : (s.stage st.val).attached = false) (hcredit : (s.stage st.val).telemCredit = .unasked) (hidle : s.ser.cyclicWaits = []) (hframe : (s.stage st.val).frame = some f)
    (hprev : (s.stage st.val).prev = some p) (hcmd : p.cmd = 2) (hreply : replyBad (s.stage st.val) ws = false) (hbit : bit (replyTrailer ws) 0 = false)
    (hjob : s.ser.job = some (st.val, .attach m per dv r 2)) (hw : w = padWords 16 ws.dropLast.dropLast) (hper : 1 ≤ per) :
    (identReason m per w = 0 → overLoaded s st.val m per w = false →
      ∃ u t, exec (.stageReply st ws) s = .next t ∧ Answered c 0 0 [w16 (wAt w 0), w16 (wAt w 7), w16 (wAt w 6), w16 (wAt w 2), w16 (wAt w 3)] u t ∧
        u.stage st.val = { attached := true, modeword := m, period := per, telemDiv := dv, ring := r, ident := w, offset := (u.stage st.val).offset, alive := ((s.stage st.val).alive + 1) % 16, stageAlive := some (bits (replyTrailer ws) 12 4), prev := some f, out := (s.stage st.val).out } ∧
        (u.stage st.val).offset < 160000 * per ∧ (∀ k, k ≠ st.val → u.stage k = s.stage k) ∧ (∀ k, k ≠ 0x19 → u.fblk k = s.fblk k) ∧
        u = { s with free := u.free, ser := { s.ser with job := none, stage := u.ser.stage }, flt := { s.flt with block := u.flt.block } }) ∧
    (identReason m per w ≠ 0 → ∃ u t, exec (.stageReply st ws) s = .next t ∧ Answered c 0x12 (0x8000 + identReason m per w) [] u t ∧
      (u.stage st.val).attached = false ∧ (∀ k, k ≠ st.val → u.stage k = s.stage k) ∧ u = { s with ser := { s.ser with job := none, stage := u.ser.stage } }) ∧
    (identReason m per w = 0 → overLoaded s st.val m per w = true →
      ∃ u t, exec (.stageReply st ws) s = .next t ∧ Answered c 0x10 st.val [] u t ∧
        (u.stage st.val).attached = false ∧ (∀ k, k ≠ st.val → u.stage k = s.stage k) ∧ u = { s with ser := { s.ser with job := none, stage := u.ser.stage } }) := by
  obtain ⟨v, hv, hexec⟩ := stageReply_ident hatt hframe hprev hcmd hreply hbit hjob
  subst hw
  have hload := overLoaded_congr hv.2.1 m per (padWords 16 ws.dropLast.dropLast)
  have hattv : ((endJob v).stage st.val).attached = false := by
    show (v.stage st.val).attached = false
    rw [hv.1]
    exact hatt
  have hrefuse : ∀ a d, ∃ t, nextExchange (answerJob v (fun s => postResponse s a d [])) = t ∧ Answered c a d [] (endJob v) t :=
    fun a d => answerJob_answers (by rw [hv.2.2]; exact hcur) hwait (by rw [hv.2.2]; exact hidle) a d []
  refine ⟨fun hreason hfits => ?_, fun hreason => ?_, fun hreason hover => ?_⟩
  · obtain ⟨hown, hoff, hothers, hparts⟩ := attachedStage_spec (m := m) (dv := dv) (r := r) (w := padWords 16 ws.dropLast.dropLast) hv hcredit hper
    rw [finishAttach_done hreason (hload.trans hfits)] at hexec
    generalize attachedStage v st.val m per dv r (padWords 16 ws.dropLast.dropLast) = x at hown hoff hothers hparts hexec
    obtain ⟨-, hblocks, hlive⟩ := lostLive_parts x
    obtain ⟨t, hnext, hans⟩ := answerJob_answers (v := lostLive x) (by rw [hlive, hparts]; exact hcur) hwait (by rw [hlive, hparts]; exact hidle) 0 0
      [w16 (wAt (padWords 16 ws.dropLast.dropLast) 0), w16 (wAt (padWords 16 ws.dropLast.dropLast) 7), w16 (wAt (padWords 16 ws.dropLast.dropLast) 6),
        w16 (wAt (padWords 16 ws.dropLast.dropLast) 2), w16 (wAt (padWords 16 ws.dropLast.dropLast) 3)]
    rw [hnext] at hexec
    refine ⟨_, t, hexec, hans, hown, hoff, hothers, fun k hk => (hblocks k hk).trans (by rw [hparts]; rfl), ?_⟩
    generalize lostLive x = z at hlive ⊢
    rw [hlive, hparts]
    rfl
  · obtain ⟨t, hnext, hans⟩ := hrefuse 0x12 (0x8000 + identReason m per (padWords 16 ws.dropLast.dropLast))
    rw [finishAttach_refused rfl hreason, hnext] at hexec
    exact ⟨_, t, hexec, hans, hattv, hv.2.1, endJob_parts hv⟩
  · obtain ⟨t, hnext, hans⟩ := hrefuse 0x10 st.val
    rw [finishAttach_over hreason (hload.trans hover), hnext] at hexec
    exact ⟨_, t, hexec, hans, hattv, hv.2.1, endJob_parts hv⟩

end

end Sys2Proof.Machine
end

section
/-! PROOFS. O48, continued: the cyclic exchange that falls due. -/

set_option Elab.async false

namespace Sys2Proof.Machine

/-- The chip time of the stage's next exchange. -/
def exchangeTime (s : State) (k : Nat) : Nat :=
  let x := s.stage k
  let t0 := x.offset + roundUp (s.now - x.offset) (160000 * x.period)
  if x.lastDue = some t0 then t0 + 160000 * x.period else t0

theorem exchangeTime_spec (s : State) (k : Nat) (h : 1 ≤ (s.stage k).period) :
    s.clk.time ≤ exchangeTime s k ∧ (s.stage k).offset ≤ exchangeTime s k ∧ (exchangeTime s k - (s.stage k).offset) % (160000 * (s.stage k).period) = 0 ∧
      (s.stage k).lastDue ≠ some (exchangeTime s k) := by
  have hpos : 0 < 160000 * (s.stage k).period := Nat.mul_pos (by decide) h
  have hup := le_roundUp (s.now - (s.stage k).offset) hpos
  have hmod := roundUp_mod (s.now - (s.stage k).offset) (160000 * (s.stage k).period)
  have hnow : s.now = s.clk.time := rfl
  unfold exchangeTime
  dsimp only
  generalize roundUp (s.now - (s.stage k).offset) (160000 * (s.stage k).period) = n at hup hmod ⊢
  generalize 160000 * (s.stage k).period = p at hpos hmod ⊢
  split
  · next hlast =>
    refine ⟨by omega, by omega, ?_, fun he => ?_⟩
    · rw [show (s.stage k).offset + n + p - (s.stage k).offset = n + p by omega, Nat.add_mod_right, hmod]
    · have hsame := Option.some.inj (hlast.symm.trans he)
      omega
  · next hlast =>
    refine ⟨by omega, by omega, ?_, hlast⟩
    rw [Nat.add_sub_cancel_left, hmod]

/-- The exchange's time has come and is noted. -/
def exchangeNoted (s : State) (k : Nat) : State :=
  (s.reach (exchangeTime s k)).modStage k (fun x => { x with lastDue := some (exchangeTime s k) })

theorem cyclicExchangeDue_eq {st : Stage} {late : Bool} {s : State} (hatt : (s.stage st.val).attached = true) (hper : 1 ≤ (s.stage st.val).period) (hbad : (s.stage st.val).bad < 3) :
    exec (.cyclicExchangeDue st late) s = .next (
      let v := nextExchange { exchangeNoted s st.val with ser := { (exchangeNoted s st.val).ser with cyclicWaits := s.ser.cyclicWaits ++ [st.val] } }
      if late then v.raise 0x19 4 st.val else v) := by
  have hrun : ¬((!(s.stage st.val).attached) = true ∨ (s.stage st.val).period = 0) := fun h => by
    rcases h with h | h
    · rw [hatt] at h
      exact absurd h (by decide)
    · omega
  have hloss : ∀ t, lossDue (s.reach t) st.val = s.reach t := fun t => lossDue_idle (Or.inr (Or.inr hbad))
  rw [show exec (.cyclicExchangeDue st late) s = execCyclicExchangeDue st late s from rfl]
  unfold execCyclicExchangeDue
  dsimp only
  rw [if_neg hrun, hloss]
  rfl

theorem cyclicExchangeDue_none {st : Stage} {late : Bool} {s : State} (h : (s.stage st.val).attached = false ∨ (s.stage st.val).period = 0) :
    exec (.cyclicExchangeDue st late) s = .next s := by
  refine congrArg Host.Outcome.next (if_pos ?_)
  rcases h with h | h
  · rw [h]
    exact Or.inl rfl
  · exact Or.inr h

theorem reach_time (s : State) {t : Nat} (h : s.clk.time ≤ t) : s.reach t = { s with clk := { s.clk with time := t } } := by
  unfold State.reach
  rw [Nat.max_eq_right h]

theorem exchangeNoted_spec {s : State} {k : Nat} (h : 1 ≤ (s.stage k).period) :
    (exchangeNoted s k).clk.time = exchangeTime s k ∧ (exchangeNoted s k).stage k = { (s.stage k) with lastDue := some (exchangeTime s k) } ∧
      (∀ j, j ≠ k → (exchangeNoted s k).stage j = s.stage j) ∧
      exchangeNoted s k = { s with clk := { s.clk with time := exchangeTime s k }, ser := { s.ser with stage := (exchangeNoted s k).ser.stage } } := by
  obtain ⟨hnow, -, -, -⟩ := exchangeTime_spec s k h
  unfold exchangeNoted
  generalize exchangeTime s k = t at hnow ⊢
  rw [reach_time s hnow]
  exact ⟨rfl, (State.modStage_stage ..).trans (if_pos rfl), fun j hj => (State.modStage_stage ..).trans (if_neg hj), rfl⟩

/-- An exchange that falls due while a frame is in flight waits. -/
theorem cyclicExchangeDue_waits {st : Stage} {s : State} {k : Nat} (hatt : (s.stage st.val).attached = true) (hper : 1 ≤ (s.stage st.val).period) (hbad : (s.stage st.val).bad < 3)
    (hk : k < 16) (hframe : (s.stage k).frame ≠ none) :
    ∃ t, exec (.cyclicExchangeDue st false) s = .next t ∧ s.clk.time ≤ t.clk.time ∧ (t.clk.time - (s.stage st.val).offset) % (160000 * (s.stage st.val).period) = 0 ∧
      t.stage st.val = { (s.stage st.val) with lastDue := some t.clk.time } ∧ (∀ j, j ≠ st.val → t.stage j = s.stage j) ∧
      t = { s with clk := { s.clk with time := t.clk.time }, ser := { s.ser with cyclicWaits := s.ser.cyclicWaits ++ [st.val], stage := t.ser.stage } } := by
  obtain ⟨hnow, -, hmod, -⟩ := exchangeTime_spec s st.val hper
  obtain ⟨htime, hown, hothers, hparts⟩ := exchangeNoted_spec (s := s) (k := st.val) hper
  have hexec := cyclicExchangeDue_eq (late := false) hatt hper hbad
  generalize exchangeNoted s st.val = v at htime hown hothers hparts hexec
  generalize exchangeTime s st.val = T at hnow hmod htime hown hparts
  have hframe' : (v.stage k).frame.isSome = true := by
    have hsame : (v.stage k).frame = (s.stage k).frame := by
      by_cases hks : k = st.val
      · rw [hks, hown]
      · rw [hothers k hks]
    rw [hsame]
    exact Option.isSome_iff_ne_none.2 hframe
  have hbusy : sp1Busy { v with ser := { v.ser with cyclicWaits := s.ser.cyclicWaits ++ [st.val] } } = true := List.any_eq_true.2 ⟨k, List.mem_range.2 hk, hframe'⟩
  have hstays : nextExchange { v with ser := { v.ser with cyclicWaits := s.ser.cyclicWaits ++ [st.val] } } = { v with ser := { v.ser with cyclicWaits := s.ser.cyclicWaits ++ [st.val] } } := by
    unfold nextExchange
    dsimp only
    split
    · rfl
    · exact if_pos hbusy
  rw [hstays] at hexec
  refine ⟨_, hexec, ?_, ?_, ?_, hothers, ?_⟩
  · show s.clk.time ≤ v.clk.time
    rw [htime]
    exact hnow
  · show (v.clk.time - _) % _ = 0
    rw [htime]
    exact hmod
  · show v.stage st.val = _
    rw [hown]
    show _ = { s.stage st.val with lastDue := some v.clk.time }
    rw [htime]
  · dsimp only
    rw [if_neg Bool.false_ne_true]
    dsimp only
    rw [htime]
    rw [hparts]

theorem padWords_length (n : Nat) (l : List Word) : (padWords n l).length = n := by
  unfold padWords
  rw [List.length_take, List.length_append, List.length_replicate]
  omega

theorem cyclicFrame_spec (s : State) (k : Nat) : (cyclicFrame s k).cmd = (if (s.stage k).disable then 4 else if (s.stage k).lost then 0 else 1) ∧ (cyclicFrame s k).addr = 0 ∧
    (cyclicFrame s k).payload.length = stageWords (s.stage k) - 2 := by
  unfold cyclicFrame
  dsimp only
  split
  · exact ⟨rfl, rfl, padWords_length ..⟩
  · split
    · exact ⟨rfl, rfl, padWords_length ..⟩
    · exact ⟨rfl, rfl, padWords_length ..⟩

/-- The frame of a stage with no loop bound to it and no telemetry asked. -/
theorem startExchange_plain {s : State} {k : Nat} (hbad : (s.stage k).bad < 3) (hloops : stageLoops s k = []) (hdiv : (s.stage k).telemDiv = 0) :
    startExchange s k = s.modStage k (fun x => { x with frame := some (cyclicFrame s k), out := outWords (cyclicFrame s k) x.alive, disable := false }) := by
  have hask : askTelem s k = s := if_pos (Or.inr (Or.inr (Or.inl hdiv)))
  unfold startExchange
  dsimp only
  rw [lossDue_idle (Or.inr (Or.inr hbad)), hloops, List.foldl_nil]
  have hsame : ∀ c : Bool, (if c = true then s else s) = s := fun c => by split <;> rfl
  rw [hsame, hask]
  split <;> rfl

/-- An exchange that falls due with the bus free starts. -/
theorem cyclicExchangeDue_starts {st : Stage} {late : Bool} {s : State} (hatt : (s.stage st.val).attached = true) (hper : 1 ≤ (s.stage st.val).period)
    (hbad : (s.stage st.val).bad < 3) (hidle : s.ser.cyclicWaits = []) (hfree : ∀ k, k < 16 → (s.stage k).frame = none) (hloops : stageLoops s st.val = [])
    (hdiv : (s.stage st.val).telemDiv = 0) :
    ∃ t f, exec (.cyclicExchangeDue st late) s = .next t ∧ s.clk.time ≤ t.clk.time ∧ (s.stage st.val).offset ≤ t.clk.time ∧
      (t.clk.time - (s.stage st.val).offset) % (160000 * (s.stage st.val).period) = 0 ∧ (s.stage st.val).lastDue ≠ some t.clk.time ∧
      t.stage st.val = { (s.stage st.val) with frame := some f, out := outWords f (s.stage st.val).alive, disable := false, lastDue := some t.clk.time } ∧
      f.cmd = (if (s.stage st.val).disable then 4 else if (s.stage st.val).lost then 0 else 1) ∧ f.addr = 0 ∧ f.payload.length = stageWords (s.stage st.val) - 2 ∧
      (∀ k, k ≠ st.val → t.stage k = s.stage k) ∧
      t = { s with clk := { s.clk with time := t.clk.time }, ser := { s.ser with stage := t.ser.stage }, flt := { s.flt with waiting := s.flt.waiting ++ if late then [{ block := 0x19, source := 4, d0 := w16 st.val, d1 := 0, forced := false, stamp := f3 t.now }] else [] } } := by
  obtain ⟨hnow, hoff, hmod, hlast⟩ := exchangeTime_spec s st.val hper
  obtain ⟨htime, hown, hothers, hparts⟩ := exchangeNoted_spec (s := s) (k := st.val) hper
  have hexec := cyclicExchangeDue_eq (late := late) hatt hper hbad
  generalize exchangeNoted s st.val = v at htime hown hothers hparts hexec
  generalize exchangeTime s st.val = T at hnow hoff hmod hlast htime hown hparts
  have hbusy : sp1Busy v = false := by
    refine List.any_eq_false.2 fun k hk => ?_
    have hsame : (v.stage k).frame = none := by
      by_cases hks : k = st.val
      · rw [hks, hown]
        exact hfree _ st.isLt
      · rw [hothers k hks]
        exact hfree k (List.mem_range.1 hk)
    rw [hsame]
    exact Bool.false_ne_true
  have hplain : startExchange v st.val = v.modStage st.val (fun x => { x with frame := some (cyclicFrame v st.val), out := outWords (cyclicFrame v st.val) x.alive, disable := false }) :=
    startExchange_plain (by rw [hown]; exact hbad) (by rw [hparts]; exact hloops) (by rw [hown]; exact hdiv)
  have hwaits : v.ser.cyclicWaits = [] := by
    rw [hparts]
    exact hidle
  have hstart : nextExchange { v with ser := { v.ser with cyclicWaits := s.ser.cyclicWaits ++ [st.val] } } = startExchange v st.val := by
    have hback : { v with ser := { v.ser with cyclicWaits := [] } } = v := by rw [← hwaits]
    have hone : nextExchange { v with ser := { v.ser with cyclicWaits := [st.val] } } =
        (if sp1Busy v then { v with ser := { v.ser with cyclicWaits := [st.val] } } else if ({ v with ser := { v.ser with cyclicWaits := [] } } : State).stage st.val |>.attached then
          startExchange { v with ser := { v.ser with cyclicWaits := [] } } st.val else { v with ser := { v.ser with cyclicWaits := [] } }) := rfl
    rw [hidle, List.nil_append, hone, hback, hbusy, if_neg Bool.false_ne_true, hown]
    exact if_pos hatt
  rw [hstart, hplain] at hexec
  obtain ⟨hcmd, haddr, hlen⟩ := cyclicFrame_spec v st.val
  rw [hown] at hcmd hlen
  generalize cyclicFrame v st.val = f at hexec hcmd haddr hlen
  have hmoved := stageIs_mod (s := v) (fun x => { x with frame := some f, out := outWords f x.alive, disable := false }) (stageIs_refl (k := st.val))
  generalize v.modStage st.val (fun x => { x with frame := some f, out := outWords f x.alive, disable := false }) = w at hexec hmoved
  obtain ⟨hownw, hothersw, hpartsw⟩ := hmoved
  have hevent : srcEvent 0x19 4 = true := by decide
  have htimew : w.clk.time = T := by
    rw [hpartsw]
    exact htime
  refine ⟨_, f, hexec, ?_⟩
  have hfinal : ∀ t, t = (if late then w.raise 0x19 4 st.val else w) → t.clk.time = T ∧ (∀ k, t.stage k = w.stage k) ∧
      t = { w with flt := { w.flt with waiting := w.flt.waiting ++ if late then [{ block := 0x19, source := 4, d0 := w16 st.val, d1 := 0, forced := false, stamp := f3 w.clk.time }] else [] } } := fun t ht => by
    cases late with
    | false =>
      have hsame : t = w := ht
      refine ⟨by rw [hsame, htimew], fun k => by rw [hsame], ?_⟩
      rw [hsame, if_neg Bool.false_ne_true, List.append_nil]
    | true =>
      have hraised : t = stageFaultWaits 4 st.val w := ht.trans ((if_pos rfl).trans (stageFault_raise hevent w st.val))
      exact ⟨by rw [hraised]; exact htimew, fun k => by rw [hraised]; rfl, hraised⟩
  obtain ⟨ht, hstages, hp⟩ := hfinal _ rfl
  dsimp only
  generalize (if late = true then w.raise 0x19 4 st.val else w) = t at ht hstages hp ⊢
  rw [ht]
  refine ⟨hnow, hoff, hmod, hlast, ?_, hcmd, haddr, hlen, fun k hk => ((hstages k).trans (hothersw k hk)).trans (hothers k hk), ?_⟩
  · rw [hstages, hownw, hown]
  · have hnowt : t.now = T := ht
    have hst : t.ser.stage = w.ser.stage := by rw [hp]
    have hw : w = { s with clk := { s.clk with time := T }, ser := { s.ser with stage := w.ser.stage } } := hpartsw.trans (by rw [hparts])
    rw [htimew] at hp
    rw [hnowt, hst]
    generalize w.ser.stage = S at hw
    rw [hp, hw]

end Sys2Proof.Machine
end

section
/-! PROOFS. What a cloche does to a loop: its own state, and what it leaves of other loops, of stages and of causes. -/

set_option Elab.async false

namespace Sys2Proof.Machine

section
variable {s t : State}

theorem loop_of_holds (h : LoopsHold s t) (l : Nat) : holdOf (t.loop l) = holdOf (s.loop l) := by
  unfold LoopsHold at h
  exact congrFun h l

/-- What of a loop a cloche reads: its state, its cloche setting and its stage. -/
def clocheParts (x : LoopState) : LoopMode × Nat × Int × Nat × Nat := (x.state, x.clocheMode, x.clocheCode, x.stage, x.stageId)

theorem clocheParts_of_holds (h : LoopsHold s t) (l : Nat) : clocheParts (t.loop l) = clocheParts (s.loop l) := by
  have hparts := congrArg clocheParts (loop_of_holds h l)
  exact hparts

theorem clocheParts_of_lp (h : t.lp = s.lp) (l : Nat) : clocheParts (t.loop l) = clocheParts (s.loop l) := by
  unfold State.loop
  rw [h]

/-- A range change that ends early leaves of a loop what a cloche reads, unless it is settling. -/
theorem dropRange_keeps {l : Nat} (b : Bad) (h : (s.loop l).state ≠ .settling) (j : Nat) : clocheParts ((dropRange s l b).loop j) = clocheParts (s.loop j) := by
  have hpost : ∀ v : State, (postBad v b).lp = v.lp := fun v => only_lp (postBad_only (w := 69680) rfl only_refl)
  unfold dropRange
  dsimp only
  split
  · rfl
  · generalize hv : State.modLoop s l _ = v
    have hkeep : clocheParts (v.loop j) = clocheParts (s.loop j) := by
      rw [← hv, State.modLoop_loop]
      by_cases hj : j = l
      · rw [if_pos hj, hj, if_neg h]
        rfl
      · rw [if_neg hj]
    split
    · split
      · exact (clocheParts_of_lp (hpost v) j).trans hkeep
      · exact hkeep
    · exact hkeep

/-- A loop in cloche. -/
def inCloche (x : LoopState) : LoopState :=
  let held := !x.isOpen
  let x := clearCounts { x with force := none, measure := none, chargeHold := false, chargeOut := false }
  let x := if x.clocheMode = 0 then { x with isOpen := true, demand := x.clocheCode }
    else
      let x := { x with isOpen := false }
      if held ∧ (x.state = .regulating ∨ x.state = .settling ∨ x.state = .frozen) then x else presetLaws x.demand x
  { x with state := .cloche }

theorem inCloche_state (x : LoopState) : (inCloche x).state = .cloche := rfl

theorem inCloche_code (x : LoopState) : (inCloche x).clocheCode = x.clocheCode := by
  unfold inCloche
  dsimp only
  split
  · rfl
  · split <;> rfl

/-- A cloche of loop `l`, once what ran has ended: `x` is the loop before it. -/
def clocheTaken (v : State) (x : LoopState) (l : Nat) : State :=
  let s := v.modLoop l inCloche
  let s := if x.stage ≠ 0 ∧ x.clocheMode = 0 then disableStage s x.stageId else s
  followLeader (tripLive (moveForceDac s l) l) l

/-- What ran on loop `l` has ended. -/
def clocheEnds (s : State) (l n : Nat) : State :=
  let s := endLoopRun s l n 3 s.now
  endClip (dropRange s l (0x20, loopBed l)) l s.now

theorem clocheLoop_eq {l : Nat} (n : Nat) (h : (s.loop l).state ≠ .cloche ∧ (s.loop l).state ≠ .ganged) :
    clocheLoop s l n = clocheTaken (clocheEnds s l n) (s.loop l) l := if_neg (not_or.2 h)

theorem clocheEnds_keeps {l : Nat} (n : Nat) (h : (s.loop l).state ≠ .settling) (j : Nat) : clocheParts ((clocheEnds s l n).loop j) = clocheParts (s.loop j) := by
  have hrun : LoopsHold s (endLoopRun s l n 3 s.now) := endLoopRun_holds holds_refl
  unfold clocheEnds
  dsimp only
  generalize endLoopRun s l n 3 s.now = a at hrun ⊢
  have hstate : (a.loop l).state ≠ .settling := by
    have hl := congrArg (fun x => x.1) (clocheParts_of_holds hrun l)
    exact fun hs => h (hl.symm.trans hs)
  have hclip : (endClip (dropRange a l (0x20, loopBed l)) l a.now).lp = (dropRange a l (0x20, loopBed l)).lp := only_lp (endClip_only (w := 67584) rfl only_refl)
  exact ((clocheParts_of_lp hclip j).trans (dropRange_keeps _ hstate j)).trans (clocheParts_of_holds hrun j)

theorem clocheTaken_loop (v : State) (x : LoopState) {l j : Nat} (h : j ≤ l) :
    clocheParts ((clocheTaken v x l).loop j) = clocheParts (if j = l then inCloche (v.loop l) else v.loop j) := by
  unfold clocheTaken
  dsimp only
  rw [followLeader_loop _ l j (Or.inl h)]
  generalize hd : v.modLoop l inCloche = d
  have hset : d.loop j = if j = l then inCloche (v.loop l) else v.loop j := by
    rw [← hd]
    exact State.modLoop_loop ..
  rw [← hset]
  generalize he : (if x.stage ≠ 0 ∧ x.clocheMode = 0 then disableStage d x.stageId else d) = e
  have hkeep : clocheParts (e.loop j) = clocheParts (d.loop j) := by
    rw [← he]
    split
    · exact clocheParts_of_holds (disableStage_holds holds_refl) j
    · rfl
  have htail : (tripLive (moveForceDac e l) l).lp = e.lp := only_lp (w := 65600) (tripLive_only rfl (moveForceDac_only rfl only_refl))
  exact (clocheParts_of_lp htail j).trans hkeep

/-- The loop's own part of a cloche. -/
theorem clocheLoop_own {l : Nat} (n : Nat) (hcloche : (s.loop l).state ≠ .cloche) (hganged : (s.loop l).state ≠ .ganged) (hsettling : (s.loop l).state ≠ .settling) :
    ((clocheLoop s l n).loop l).state = .cloche ∧ ((clocheLoop s l n).loop l).clocheCode = (s.loop l).clocheCode := by
  have hends := clocheEnds_keeps n hsettling l
  have htaken := clocheTaken_loop (clocheEnds s l n) (s.loop l) (Nat.le_refl l)
  rw [← clocheLoop_eq n ⟨hcloche, hganged⟩, if_pos rfl] at htaken
  have hstate := congrArg (fun x => x.1) htaken
  have hcode := congrArg (fun x => x.2.2.1) htaken
  have hcode' := congrArg (fun x => x.2.2.1) hends
  exact ⟨hstate, (hcode.trans (inCloche_code _)).trans hcode'⟩

/-! Stages. -/

/-- A stage that is lost, or whose next frame is DISABLE, stays so, and no stage is lost or found. -/
def StagesHeld (s t : State) : Prop := ∀ k, (t.stage k).lost = (s.stage k).lost ∧ ((s.stage k).disable = true → (t.stage k).disable = true)

theorem stagesHeld_of_ser (h : t.ser = s.ser) : StagesHeld s t := fun k => by
  unfold State.stage
  rw [h]
  exact ⟨rfl, id⟩

theorem stagesHeld_trans {u : State} (h : StagesHeld s t) (h' : StagesHeld t u) : StagesHeld s u := fun k =>
  ⟨(h' k).1.trans (h k).1, fun hd => (h' k).2 ((h k).2 hd)⟩

theorem stagesHeld_mod {k : Nat} {f : StageState → StageState} (hlost : ∀ x, (f x).lost = x.lost) (hdis : ∀ x : StageState, x.disable = true → (f x).disable = true)
    (h : StagesHeld s t) : StagesHeld s (t.modStage k f) := stagesHeld_trans h fun j => by
  rw [State.modStage_stage]
  split
  next hj =>
    rw [hj]
    exact ⟨hlost _, hdis _⟩
  next => exact ⟨rfl, id⟩

theorem freeTelem_held (k : Nat) : StagesHeld s (freeTelem s k) := by
  unfold freeTelem
  dsimp only
  refine stagesHeld_mod (fun _ => rfl) (fun _ h => h) ?_
  split
  · exact stagesHeld_of_ser (only_ser (returnCredit_only (w := 73504) rfl only_refl))
  · exact stagesHeld_of_ser rfl

theorem abortFrame_held (k : Nat) (b : Bool) : StagesHeld s (abortFrame s k b) := by
  unfold abortFrame
  split
  · exact stagesHeld_of_ser rfl
  · generalize hv : State.modStage (freeTelem s k) k _ = v
    have hheld : StagesHeld s v := by
      rw [← hv]
      exact stagesHeld_mod (fun _ => rfl) (fun _ h => h) (freeTelem_held k)
    have hraise : (v.raise 0x19 0 k).ser = v.ser := only_ser (State.raise_only (w := 65536) rfl only_refl)
    exact stagesHeld_trans hheld (stagesHeld_of_ser hraise)

theorem disableStage_held (k : Nat) : StagesHeld s (disableStage s k) := by
  have hfold : ∀ (l : List Nat) (v : State), StagesHeld v (l.foldl (fun s k => abortFrame s k true) v) := fun l => by
    induction l with
    | nil => exact fun v => stagesHeld_of_ser rfl
    | cons k l ih => exact fun v => stagesHeld_trans (abortFrame_held k true) (ih _)
  unfold disableStage
  split
  · have haborted := hfold (List.range 16) s
    generalize (List.range 16).foldl (fun s k => abortFrame s k true) s = v at haborted ⊢
    exact stagesHeld_mod (fun _ => rfl) (fun _ _ => rfl) haborted
  · exact stagesHeld_of_ser rfl

theorem clocheLoop_held (l n : Nat) : StagesHeld s (clocheLoop s l n) := by
  unfold clocheLoop
  dsimp only
  split
  · exact stagesHeld_of_ser rfl
  · have hrun : (endLoopRun s l n 3 s.now).ser = s.ser := only_ser (endLoopRun_only (w := 73504) rfl only_refl)
    generalize endLoopRun s l n 3 s.now = a at hrun ⊢
    have hclip : (endClip (dropRange a l (0x20, loopBed l)) l a.now).ser = a.ser := only_ser (w := 72240) (endClip_only rfl (dropRange_only rfl only_refl))
    generalize endClip (dropRange a l (0x20, loopBed l)) l a.now = c at hclip ⊢
    have hc : StagesHeld s c := stagesHeld_of_ser (hclip.trans hrun)
    generalize hd : State.modLoop c l _ = d
    have hdheld : StagesHeld s d := stagesHeld_trans hc (stagesHeld_of_ser (by rw [← hd]; rfl))
    refine stagesHeld_trans ?_ (stagesHeld_of_ser (only_ser (w := 66114) (followLeader_only rfl (tripLive_only rfl (moveForceDac_only rfl only_refl)))))
    split
    · exact stagesHeld_trans hdheld (disableStage_held _)
    · exact hdheld

end

end Sys2Proof.Machine
end

section
/-! PROOFS. O48, continued: the loss of a stage, and the obligation. -/

set_option Elab.async false

namespace Sys2Proof.Machine

/-! A cloche of a heavy loop's gang. -/

/-- A loop-scope cause is latched for each member of a gang. -/
def gangLatched (s : State) (l : Nat) (c : Cause) : State :=
  (gangMembers s l).foldl (fun s l => (s.modLoopc (l - 512) (fun x => latchCause x c)).modBedc (loopBed l) (fun x => { x with tripAt := some s.now })) s

theorem clocheHeavy_leader {s : State} {l : Nat} (hl : 512 ≤ l) (h : (s.loop l).state ≠ .ganged) (c : Cause) (run : Nat) :
    clocheHeavy s (l - 512) c run = clocheLoop (gangLatched s l c) l run := by
  have hlead : gangLeader s (512 + (l - 512)) = l := by
    rw [Nat.add_sub_cancel' hl]
    exact if_neg h
  unfold clocheHeavy
  dsimp only
  rw [hlead]
  rfl

theorem foldl_latched (c : Cause) (m : List Nat) (s : State) :
    let t := m.foldl (fun s l => (s.modLoopc (l - 512) (fun x => latchCause x c)).modBedc (loopBed l) (fun x => { x with tripAt := some s.now })) s
    (∀ l ∈ m, c ∈ t.loopc (l - 512)) ∧ (∀ k, c ∈ s.loopc k → c ∈ t.loopc k) ∧ t.lp = s.lp ∧ t.ser = s.ser ∧ FaultsGrow s t := by
  dsimp only
  induction m generalizing s with
  | nil => exact ⟨fun l hl => (nomatch hl), fun _ h => h, rfl, rfl, grows_refl⟩
  | cons l m ih =>
    have hone : ∀ k, ((s.modLoopc (l - 512) (fun x => latchCause x c)).modBedc (loopBed l) (fun x => { x with tripAt := some s.now })).loopc k =
        if k = l - 512 then latchCause (s.loopc (l - 512)) c else s.loopc k := fun k =>
      State.modLoopc_loopc s (l - 512) k (fun x => latchCause x c)
    have hgrow : FaultsGrow s ((s.modLoopc (l - 512) (fun x => latchCause x c)).modBedc (loopBed l) (fun x => { x with tripAt := some s.now })) :=
      State.modBedc_grows (State.modLoopc_grows grows_refl)
    rw [List.foldl_cons]
    generalize hu : (s.modLoopc (l - 512) (fun x => latchCause x c)).modBedc (loopBed l) (fun x => { x with tripAt := some s.now }) = u at hone hgrow ⊢
    obtain ⟨hin, hmono, hlp, hser, hrest⟩ := ih u
    have hown : c ∈ u.loopc (l - 512) := by
      rw [hone, if_pos rfl]
      exact (mem_latchCause ..).1
    refine ⟨fun j hj => ?_, fun k hk => hmono k ?_, hlp.trans (by rw [← hu]; rfl), hser.trans (by rw [← hu]; rfl), ?_⟩
    · rcases List.mem_cons.1 hj with rfl | hj
      · exact hmono _ hown
      · exact hin j hj
    · rw [hone]
      split
      · next he => rw [← he]; exact (mem_latchCause ..).2 _ hk
      · exact hk
    · exact grows_of (grows_waiting hrest) (fun k => grows_record hrest k) hgrow

theorem gangLatched_spec {s : State} {l : Nat} (hl : 512 ≤ l) (c : Cause) :
    c ∈ (gangLatched s l c).loopc (l - 512) ∧ (gangLatched s l c).lp = s.lp ∧ (gangLatched s l c).ser = s.ser ∧ FaultsGrow s (gangLatched s l c) := by
  have hmem : l ∈ gangMembers s l := by
    unfold gangMembers
    rw [if_pos hl]
    exact mem_rangeFrom.2 ⟨Nat.le_refl l, by omega⟩
  obtain ⟨hin, -, hlp, hser, hgrow⟩ := foldl_latched c (gangMembers s l) s
  exact ⟨hin l hmem, hlp, hser, hgrow⟩

/-- The cloche of a heavy loop that regulates. -/
theorem clocheHeavy_spec {s : State} {l : Nat} (hl : 512 ≤ l) (h : (s.loop l).state = .regulating) (c : Cause) (run : Nat) :
    ((clocheHeavy s (l - 512) c run).loop l).state = .cloche ∧ ((clocheHeavy s (l - 512) c run).loop l).clocheCode = (s.loop l).clocheCode ∧
      c ∈ (clocheHeavy s (l - 512) c run).loopc (l - 512) ∧ StagesHeld s (clocheHeavy s (l - 512) c run) ∧ FaultsGrow s (clocheHeavy s (l - 512) c run) := by
  obtain ⟨hin, hlp, hser, hgrow⟩ := gangLatched_spec (s := s) hl c
  rw [clocheHeavy_leader hl (by rw [h]; decide)]
  generalize gangLatched s l c = v at hin hlp hser hgrow ⊢
  have hloop : v.loop l = s.loop l := by
    unfold State.loop
    rw [hlp]
  have hstate : (v.loop l).state = .regulating := by rw [hloop, h]
  obtain ⟨hcloche, hcode⟩ := clocheLoop_own (l := l) run (by rw [hstate]; decide) (by rw [hstate]; decide) (by rw [hstate]; decide)
  have hcalm : Calm v (clocheLoop v l run) := clocheLoop_calm calm_refl
  have hcauses : (clocheLoop v l run).loopc (l - 512) = v.loopc (l - 512) := by
    have hflt := congrArg (fun x => x.2.1.loop) hcalm
    exact congrArg (fun m => tget (fun _ => ([] : List Cause)) m (l - 512)) hflt
  refine ⟨hcloche, hcode.trans (by rw [hloop]), by rw [hcauses]; exact hin, stagesHeld_trans (stagesHeld_of_ser hser) (clocheLoop_held l run), clocheLoop_grows hgrow⟩

/-! The loss of a stage. -/

/-- The stage is marked lost and the fault raised, before its loops take their cloche. -/
def lossMarked (s : State) (k : Nat) : State :=
  ((freeTelem s k).modStage k (fun x => { x with lost := true, disable := true })).raise 0x19 3 k

theorem stageLost_none {st : Stage} {s : State} (h : (s.stage st.val).attached = false ∨ (s.stage st.val).lost = true ∨ (s.stage st.val).bad < 3) : exec (.stageLost st) s = .next s :=
  congrArg Host.Outcome.next (lossDue_idle h)

theorem stageLost_eq {st : Stage} {s : State} (hatt : (s.stage st.val).attached = true) (hlost : (s.stage st.val).lost = false) (hbad : 3 ≤ (s.stage st.val).bad) :
    exec (.stageLost st) s = .next (loseStage s st.val) := congrArg Host.Outcome.next (if_pos ⟨hatt, by rw [hlost]; rfl, hbad⟩)

theorem lossMarked_waits (s : State) (k : Nat) : ∃ d ∈ (lossMarked s k).flt.waiting, d.block = 0x19 ∧ d.source = 3 ∧ d.d0 = w16 k := by
  unfold lossMarked
  rw [raise_waiting]
  exact ⟨_, List.mem_append_right _ List.mem_cons_self, rfl, rfl, rfl⟩

theorem lossMarked_stage (s : State) (k : Nat) : ((lossMarked s k).stage k).lost = true ∧ ((lossMarked s k).stage k).disable = true := by
  unfold lossMarked
  generalize freeTelem s k = v
  have hset : ((v.modStage k (fun x => { x with lost := true, disable := true })).stage k) = { v.stage k with lost := true, disable := true } :=
    (State.modStage_stage ..).trans (if_pos rfl)
  generalize v.modStage k (fun x => { x with lost := true, disable := true }) = u at hset ⊢
  have hser : (u.raise 0x19 3 k).ser = u.ser := only_ser (State.raise_only (w := 65536) rfl only_refl)
  have hstage : (u.raise 0x19 3 k).stage k = u.stage k := by
    unfold State.stage
    rw [hser]
  rw [hstage, hset]
  exact ⟨rfl, rfl⟩

theorem lossMarked_holds (s : State) (k : Nat) : LoopsHold s (lossMarked s k) :=
  State.raise_holds (State.modStage_holds (freeTelem_holds holds_refl))

theorem stageLoops_of_holds {s t : State} (h : LoopsHold s t) (k : Nat) : stageLoops t k = stageLoops s k := by
  refine List.filter_congr fun l _ => ?_
  have hparts := clocheParts_of_holds h l
  have hstage := congrArg (fun x => x.2.2.2.1) hparts
  have hid := congrArg (fun x => x.2.2.2.2) hparts
  have hstage' : (t.loop l).stage = (s.loop l).stage := hstage
  have hid' : (t.loop l).stageId = (s.loop l).stageId := hid
  rw [hstage', hid']

theorem loseStage_one {s : State} {k l : Nat} (h : stageLoops s k = [l]) :
    ∃ m : List Nat, loseStage s k = m.foldl chargeInvalid ((clocheHeavy (lossMarked s k) (l - 512) (.stageLost (Fin.ofNat 16 k)) 10).modLoop l (fun x => { x with isOpen := true, demand := x.clocheCode })) := by
  have hloops : stageLoops (lossMarked s k) k = [l] := (stageLoops_of_holds (lossMarked_holds s k) k).trans h
  unfold loseStage
  dsimp only
  rw [show ((freeTelem s k).modStage k (fun x => { x with lost := true, disable := true })).raise 0x19 3 k = lossMarked s k from rfl, hloops, List.foldl_cons, List.foldl_nil]
  generalize State.modLoop (clocheHeavy (lossMarked s k) (l - 512) (.stageLost (Fin.ofNat 16 k)) 10) l _ = v
  exact ⟨_, rfl⟩

theorem stageLost_loop {st : Stage} {s : State} {l : Nat} (hatt : (s.stage st.val).attached = true) (hlost : (s.stage st.val).lost = false) (hbad : 3 ≤ (s.stage st.val).bad)
    (hloops : stageLoops s st.val = [l]) (hstate : (s.loop l).state = .regulating) :
    ∃ t, exec (.stageLost st) s = .next t ∧ (t.stage st.val).lost = true ∧ (t.stage st.val).disable = true ∧ (t.loop l).state = .cloche ∧ (t.loop l).isOpen = true ∧
      (t.loop l).demand = (s.loop l).clocheCode ∧ Cause.stageLost (Fin.ofNat 16 st.val) ∈ t.loopc (l - 512) ∧
      ∃ d ∈ t.flt.waiting, d.block = 0x19 ∧ d.source = 3 ∧ d.d0 = w16 st.val := by
  obtain ⟨m, hm⟩ := loseStage_one hloops
  have hl : 512 ≤ l := by
    have hmem : l ∈ stageLoops s st.val := by
      rw [hloops]
      exact List.mem_cons_self
    exact (mem_rangeFrom.1 (List.mem_filter.1 hmem).1).1
  obtain ⟨hmlost, hmdis⟩ := lossMarked_stage s st.val
  obtain ⟨d, hd, hdparts⟩ := lossMarked_waits s st.val
  have hparts := clocheParts_of_holds (lossMarked_holds s st.val) l
  generalize lossMarked s st.val = u at hm hmlost hmdis hd hparts
  have hustate := congrArg (fun x => x.1) hparts
  have hucode := congrArg (fun x => x.2.2.1) hparts
  obtain ⟨hcloche, hcode, hcause, hheld, hgrow⟩ := clocheHeavy_spec hl (hustate.trans hstate) (.stageLost (Fin.ofNat 16 st.val)) 10
  generalize clocheHeavy u (l - 512) (.stageLost (Fin.ofNat 16 st.val)) 10 = v at hm hcloche hcode hcause hheld hgrow
  have hset : (v.modLoop l (fun x => { x with isOpen := true, demand := x.clocheCode })).loop l = { v.loop l with isOpen := true, demand := (v.loop l).clocheCode } :=
    (State.modLoop_loop ..).trans (if_pos rfl)
  have hrest : Only 512 v (v.modLoop l (fun x => { x with isOpen := true, demand := x.clocheCode })) := State.modLoop_only rfl only_refl
  generalize v.modLoop l (fun x => { x with isOpen := true, demand := x.clocheCode }) = w at hm hset hrest
  have hcharge : Only 16384 w (m.foldl chargeInvalid w) := only_foldl only_refl fun _ _ h => chargeInvalid_only rfl h
  generalize m.foldl chargeInvalid w = t at hm hcharge
  have hser : t.ser = v.ser := (only_ser hcharge).trans (only_ser hrest)
  have hflt : t.flt = v.flt := (only_flt hcharge).trans (only_flt hrest)
  have hstage : t.stage st.val = v.stage st.val := by
    unfold State.stage
    rw [hser]
  have hloop : t.loop l = w.loop l := by
    unfold State.loop
    rw [only_lp hcharge]
  refine ⟨t, (stageLost_eq hatt hlost hbad).trans (by rw [hm]), ?_, ?_, ?_, ?_, ?_, ?_, d, ?_, hdparts⟩
  · rw [hstage]
    exact (hheld st.val).1.trans hmlost
  · rw [hstage]
    exact (hheld st.val).2 hmdis
  · rw [hloop, hset]
    exact hcloche
  · rw [hloop, hset]
  · rw [hloop, hset]
    exact hcode.trans hucode
  · unfold State.loopc
    rw [hflt]
    exact hcause
  · rw [hflt]
    exact (grows_waiting hgrow).subset hd

theorem stageLost_free {st : Stage} {s : State} (hatt : (s.stage st.val).attached = true) (hlost : (s.stage st.val).lost = false) (hbad : 3 ≤ (s.stage st.val).bad)
    (hcredit : (s.stage st.val).telemCredit = .unasked) (hloops : stageLoops s st.val = []) :
    ∃ t, exec (.stageLost st) s = .next t ∧ t.stage st.val = { (s.stage st.val) with lost := true, disable := true } ∧ (∀ k, k ≠ st.val → t.stage k = s.stage k) ∧
      (t.fblk 0x19).live.getLsbD 3 = true ∧ (∀ k, k ≠ 0x19 → t.fblk k = s.fblk k) ∧
      t = { s with ser := { s.ser with stage := t.ser.stage }, flt := { s.flt with block := t.flt.block, waiting := s.flt.waiting ++ [{ block := 0x19, source := 3, d0 := w16 st.val, d1 := 0, forced := false, stamp := f3 s.now }] } } := by
  have hmoved := stageIs_mod (fun x => { x with lost := true, disable := true }) (freeTelem_unasked (stageIs_refl (k := st.val)) hcredit)
  have hloopsm : stageLoops (lossMarked s st.val) st.val = [] := (stageLoops_of_holds (lossMarked_holds s st.val) st.val).trans hloops
  have hlose : loseStage s st.val = lossMarked s st.val := by
    unfold loseStage
    dsimp only
    rw [show ((freeTelem s st.val).modStage st.val (fun x => { x with lost := true, disable := true })).raise 0x19 3 st.val = lossMarked s st.val from rfl, hloopsm, List.foldl_nil]
    unfold stageCharged
    rw [hloopsm]
    rfl
  have hsource : srcEvent 0x19 3 = false := by decide
  refine ⟨lossMarked s st.val, (stageLost_eq hatt hlost hbad).trans (by rw [hlose]), ?_⟩
  unfold lossMarked
  generalize (freeTelem s st.val).modStage st.val (fun x => { x with lost := true, disable := true }) = v at hmoved ⊢
  obtain ⟨hown, hothers, hparts⟩ := hmoved
  have hwait := raise_waiting v 0x19 3 st.val 0
  have hlive := raise_live v st.val 0 (show 3 < 64 by decide) hsource
  obtain ⟨b, w, hraise⟩ := raise_parts v 0x19 3 st.val 0
  have hblocks : ∀ k, k ≠ 0x19 → (v.raise 0x19 3 st.val).fblk k = v.fblk k := fun k hk => by
    unfold State.raise
    rw [hsource, if_neg Bool.false_ne_true]
    exact live_eq v 0x19 3 true k hk
  generalize v.raise 0x19 3 st.val = t at hwait hlive hraise hblocks
  have hstage : ∀ k, t.stage k = v.stage k := fun k => by rw [hraise]; rfl
  have hblock : t.flt.block = b := by rw [hraise]
  have hser : t.ser.stage = v.ser.stage := by rw [hraise]
  refine ⟨(hstage st.val).trans hown, fun k hk => (hstage k).trans (hothers k hk), hlive, fun k hk => (hblocks k hk).trans (by rw [hparts]; rfl), ?_⟩
  have hw : w = s.flt.waiting ++ [{ block := 0x19, source := 3, d0 := w16 st.val, d1 := 0, forced := false, stamp := f3 s.now }] := by
    have hsame : t.flt.waiting = w := by rw [hraise]
    rw [← hsame, hwait, hparts]
    rfl
  rw [hblock, hser, hraise, hw, hparts]

theorem frameTicks_eight (w : List Word) (h7 : wAt w 7 = 8) (h8 : wAt w 8 = 4) : frameTicks (8 * 256) w = 160 * 64 ∧ frameTicks (8 * 256 + 4) w = 88 * 64 := by
  have hone : bit (8 * 256) 2 = false := by decide
  have htwo : bit (8 * 256 + 4) 2 = true := by decide
  unfold frameTicks
  dsimp only
  rw [h7, h8, hone, htwo]
  exact ⟨by decide, by decide⟩

/-- Settles O48: one lemma for each outcome of a reply, a loss and an exchange. -/
theorem stageExchanges : Obligations.StageExchanges := by
  unfold Obligations.StageExchanges
  refine ⟨?_, ?_, ?_, ?_, ?_, ?_, ?_, ?_, ?_, ?_, ?_, ?_, ?_, ?_, ?_, ?_, ?_, ?_⟩
  · exact fun st ws s h hbad hidle => stageReply_noFrame h hbad hidle
  · exact fun st ws s f hframe hbad hlost hcredit hjob hidle hreply => stageReply_bad hframe hbad hlost hcredit hjob hidle hreply
  · exact fun st ws s f hframe hbad hlost hatt hjob hidle hpert hident hreply hbit => stageReply_good hframe hbad hlost hatt hjob hidle hpert hident hreply hbit
  · exact fun st ws s f hframe hbad hlost hatt hjob hidle hpert hident hdiv hloops hprev hreply hbit =>
      stageReply_digital hframe hbad hlost hatt hjob hidle hpert hident hdiv hloops hprev hreply hbit
  · exact fun st ws s f p hframe hprev hcmd hbad hlost hatt hforgive hjob hidle hpert hident hreply hbit =>
      stageReply_resend hframe hprev hcmd hbad hlost hatt hforgive hjob hidle hpert hident hreply hbit
  · exact fun st ws s f p c a n m hcur hwait hframe hprev hcmd hbad hlost hidle hpert hreply hbit hjob =>
      stageReply_read hcur hwait hframe hprev hcmd hbad hlost hidle hpert hreply hbit hjob
  · exact fun st ws s f p c a l hcur hwait hframe hcyclic hprev hcmd hbad hlost hidle hreply =>
      stageReply_writeBad hcur hwait hframe hcyclic hprev hcmd hbad hlost hidle hreply
  · exact fun st ws s f p c a n l hcur hwait hframe hprev hcmd hbad hlost hidle hpert hident hreply hbit hjob =>
      stageReply_written hcur hwait hframe hprev hcmd hbad hlost hidle hpert hident hreply hbit hjob
  · exact fun st ws w s f p c m per dv r hcur hwait hatt hcredit hidle hframe hprev hcmd hreply hbit hjob hw hper =>
      stageReply_attached hcur hwait hatt hcredit hidle hframe hprev hcmd hreply hbit hjob hw hper
  · exact fun st ws s f c hcur hwait hframe hcmd hbad hlost hcredit hidle hcharged hreply hjob =>
      stageReply_detached hcur hwait hframe hcmd hbad hlost hcredit hidle hcharged hreply hjob
  · exact fun st s l hatt hlost hbad hloops _ hstate _ => stageLost_loop hatt hlost hbad hloops hstate
  · exact fun st s hatt hlost hbad hcredit hloops => stageLost_free hatt hlost hbad hcredit hloops
  · exact fun st s h => stageLost_none h
  · exact fun st late s hatt hper hbad hidle hfree hloops hdiv => cyclicExchangeDue_starts hatt hper hbad hidle hfree hloops hdiv
  · exact fun st s k hatt hper hbad hk hframe => cyclicExchangeDue_waits hatt hper hbad hk hframe
  · exact fun st late s h => cyclicExchangeDue_none h
  · decide +kernel
  · exact fun w h7 h8 => frameTicks_eight w h7 h8

end Sys2Proof.Machine
end

section
/-! PROOFS. O43: the DATA flits of a port. -/

set_option Elab.async false

namespace Sys2Proof.Machine

/-! One class of one port changes. -/

/-- `u` is `s` but for port `p`, of which only class `c`, to `y`, and the mark that acknowledgements wait, to `b`, have moved. -/
structure FlitTaken (s : State) (p c : Nat) (y : ClassState) (b : Bool) (u : State) : Prop where
  own : u.cls p c = y
  classes : ∀ k, k ≠ c → u.cls p k = s.cls p k
  port : u.port p = { s.port p with cls := (u.port p).cls, ctrlWaits := b }
  other : ∀ k, k ≠ p → u.port k = s.port k
  parts : u = { s with link := { s.link with port := u.link.port } }

section
variable {s u : State} {p c : Nat} {y : ClassState} {b : Bool}

theorem flitTaken_refl (s : State) (p c : Nat) : FlitTaken s p c (s.cls p c) (s.port p).ctrlWaits s := ⟨rfl, fun _ _ => rfl, rfl, fun _ _ => rfl, rfl⟩

theorem flitTaken_modCls (f : ClassState → ClassState) (h : FlitTaken s p c y b u) : FlitTaken s p c (f y) b (u.modCls p c f) where
  own := by rw [modCls_cls, if_pos rfl, h.own]
  classes k hk := by rw [modCls_cls, if_neg hk, h.classes k hk]
  port := by
    unfold State.modCls
    rw [samePort, h.port]
  other k hk := ((State.modPort_port ..).trans (if_neg hk)).trans (h.other k hk)
  parts := congrArg (fun v : State => { v with link := { v.link with port := (u.modCls p c f).link.port } }) h.parts

theorem flitTaken_waits (h : FlitTaken s p c y b u) : FlitTaken s p c y true (u.modPort p (fun q => { q with ctrlWaits := true })) where
  own := by
    have hown := h.own
    unfold State.cls at hown ⊢
    rw [samePort]
    exact hown
  classes k hk := by
    have hown := h.classes k hk
    unfold State.cls at hown ⊢
    rw [samePort]
    exact hown
  port := by
    rw [samePort, h.port]
  other k hk := ((State.modPort_port ..).trans (if_neg hk)).trans (h.other k hk)
  parts := congrArg (fun v : State => { v with link := { v.link with port := (u.modPort p (fun q => { q with ctrlWaits := true })).link.port } }) h.parts

end

/-! What of a DATA flit is acted on. -/

section
variable {p : Port} {f : List Byte} {s : State}

theorem dataFlit_none {ok : Bool} (h : (s.port (portNum p)).step ≠ .active ∨ ok = false ∨ flitGood f = false ∨ flitType f ≠ 0) : exec (.dataFlitReceive p f ok) s = .next s := by
  refine congrArg Host.Outcome.next (if_pos ?_)
  rcases h with h | h | h | h
  · exact Or.inl h
  · exact Or.inr (Or.inl (by rw [h]; rfl))
  · exact Or.inr (Or.inr (Or.inl (by rw [h]; rfl)))
  · exact Or.inr (Or.inr (Or.inr h))

theorem dataFlit_eq (hup : (s.port (portNum p)).step = .active) (hgood : flitGood f = true) (htype : flitType f = 0) :
    exec (.dataFlitReceive p f true) s = .next (
      let c := flitClass f
      let q := s.cls (portNum p) c
      if flitSeq f = q.rxSeq then acceptFlit s (portNum p) c f
      else if (q.rxSeq + 1024 - flitSeq f) % 1024 ≤ 512 then s.modPort (portNum p) (fun q => { q with ctrlWaits := true })
      else if q.naked then s
      else s.modCls (portNum p) c (fun q => { q with nak := true, naked := true })) := by
  refine congrArg Host.Outcome.next (if_neg ?_)
  rintro (h | h | h | h)
  · exact h hup
  · exact absurd h (by decide)
  · rw [hgood] at h
    exact absurd h (by decide)
  · exact h htype

theorem dataFlit_ahead (hup : (s.port (portNum p)).step = .active) (hgood : flitGood f = true) (htype : flitType f = 0)
    (hahead : 512 < ((s.cls (portNum p) (flitClass f)).rxSeq + 1024 - flitSeq f) % 1024) :
    exec (.dataFlitReceive p f true) s = .next (if (s.cls (portNum p) (flitClass f)).naked then s
      else s.modCls (portNum p) (flitClass f) (fun q => { q with nak := true, naked := true })) := by
  have hne : flitSeq f ≠ (s.cls (portNum p) (flitClass f)).rxSeq := fun h => by
    rw [h] at hahead
    omega
  rw [dataFlit_eq hup hgood htype]
  dsimp only
  rw [if_neg hne, if_neg (Nat.not_le.2 hahead)]

theorem dataFlit_behind (hup : (s.port (portNum p)).step = .active) (hgood : flitGood f = true) (htype : flitType f = 0)
    (hne : flitSeq f ≠ (s.cls (portNum p) (flitClass f)).rxSeq) (hbehind : ((s.cls (portNum p) (flitClass f)).rxSeq + 1024 - flitSeq f) % 1024 ≤ 512) :
    exec (.dataFlitReceive p f true) s = .next (s.modPort (portNum p) (fun q => { q with ctrlWaits := true })) := by
  rw [dataFlit_eq hup hgood htype]
  dsimp only
  rw [if_neg hne, if_pos hbehind]

/-! The expected flit. -/

/-- A class that has taken its expected flit. -/
def seqTaken (q : ClassState) : ClassState := { q with rxSeq := (q.rxSeq + 1) % 1024, naked := false }

/-- The class's expected flit is counted, before its payload is used. -/
def flitCounted (s : State) (p c : Nat) : State := (s.modCls p c seqTaken).modPort p (fun q => { q with ctrlWaits := true })

theorem flitCounted_taken (s : State) (p c : Nat) : FlitTaken s p c (seqTaken (s.cls p c)) true (flitCounted s p c) :=
  flitTaken_waits (flitTaken_modCls seqTaken (flitTaken_refl s p c))

theorem acceptFlit_eq (n c : Nat) : acceptFlit s n c f = (
    let q := (flitCounted s n c).cls n c
    let s := if bit (msgNum f 0 2) 14 && q.inMsg then freeCredit (flitCounted s n c) n c (q.partMsg.length / 26) else flitCounted s n c
    if !bit (msgNum f 0 2) 14 && !q.inMsg then freeCredit s n c 1
    else
      let l := if bit (msgNum f 0 2) 14 then (f.drop 2).take 26 else q.partMsg ++ (f.drop 2).take 26
      if bit (msgNum f 0 2) 15 then messageDone (s.modCls n c (fun q => { q with inMsg := false, partMsg := [] })) n c l
      else s.modCls n c (fun q => { q with inMsg := true, partMsg := l })) := rfl

/-- A class whose message goes on. -/
def partJoined (l : List Byte) (q : ClassState) : ClassState := { q with inMsg := true, partMsg := l }

theorem acceptFlit_more {n c : Nat} {som : Bool} {l : List Byte} (hsom : bit (msgNum f 0 2) 14 = som) (heom : bit (msgNum f 0 2) 15 = false) (hin : (s.cls n c).inMsg = !som)
    (hl : l = if som then (f.drop 2).take 26 else (s.cls n c).partMsg ++ (f.drop 2).take 26) :
    acceptFlit s n c f = (flitCounted s n c).modCls n c (partJoined l) := by
  have hq : (flitCounted s n c).cls n c = seqTaken (s.cls n c) := (flitCounted_taken s n c).own
  have hinq : (seqTaken (s.cls n c)).inMsg = !som := hin
  rw [acceptFlit_eq]
  dsimp only
  rw [hq, hsom, heom, hinq, hl]
  cases som <;> rfl

theorem dataFlit_first (hup : (s.port (portNum p)).step = .active) (hgood : flitGood f = true) (htype : flitType f = 0)
    (hseq : flitSeq f = (s.cls (portNum p) (flitClass f)).rxSeq) (hsom : bit (msgNum f 0 2) 14 = true) (heom : bit (msgNum f 0 2) 15 = false)
    (hin : (s.cls (portNum p) (flitClass f)).inMsg = false) :
    ∃ t, exec (.dataFlitReceive p f true) s = .next t ∧ t.cls (portNum p) (flitClass f) = { s.cls (portNum p) (flitClass f) with rxSeq := (flitSeq f + 1) % 1024, naked := false, inMsg := true, partMsg := (f.drop 2).take 26 } ∧
      (∀ c, c ≠ flitClass f → t.cls (portNum p) c = s.cls (portNum p) c) ∧
      t.port (portNum p) = { s.port (portNum p) with cls := (t.port (portNum p)).cls, ctrlWaits := true } ∧
      t.port (1 - portNum p) = s.port (1 - portNum p) ∧ t = { s with link := { s.link with port := t.link.port } } := by
  have htaken := flitTaken_modCls (partJoined ((f.drop 2).take 26)) (flitCounted_taken s (portNum p) (flitClass f))
  have hexec := dataFlit_eq hup hgood htype
  dsimp only at hexec
  rw [if_pos hseq, acceptFlit_more hsom heom hin rfl] at hexec
  refine ⟨_, hexec, ?_, htaken.classes, htaken.port, htaken.other _ (other_ne (portNum_lt p)), htaken.parts⟩
  rw [hseq]
  exact htaken.own

theorem dataFlit_next (hup : (s.port (portNum p)).step = .active) (hgood : flitGood f = true) (htype : flitType f = 0)
    (hseq : flitSeq f = (s.cls (portNum p) (flitClass f)).rxSeq) (hsom : bit (msgNum f 0 2) 14 = false) (heom : bit (msgNum f 0 2) 15 = false)
    (hin : (s.cls (portNum p) (flitClass f)).inMsg = true) :
    ∃ t, exec (.dataFlitReceive p f true) s = .next t ∧ t.cls (portNum p) (flitClass f) = { s.cls (portNum p) (flitClass f) with rxSeq := (flitSeq f + 1) % 1024, naked := false, partMsg := (s.cls (portNum p) (flitClass f)).partMsg ++ (f.drop 2).take 26 } ∧
      (∀ c, c ≠ flitClass f → t.cls (portNum p) c = s.cls (portNum p) c) ∧
      t.port (portNum p) = { s.port (portNum p) with cls := (t.port (portNum p)).cls, ctrlWaits := true } ∧
      t.port (1 - portNum p) = s.port (1 - portNum p) ∧ t = { s with link := { s.link with port := t.link.port } } := by
  have htaken := flitTaken_modCls (partJoined ((s.cls (portNum p) (flitClass f)).partMsg ++ (f.drop 2).take 26)) (flitCounted_taken s (portNum p) (flitClass f))
  have hexec := dataFlit_eq hup hgood htype
  dsimp only at hexec
  rw [if_pos hseq, acceptFlit_more hsom heom hin rfl] at hexec
  refine ⟨_, hexec, ?_, htaken.classes, htaken.port, htaken.other _ (other_ne (portNum_lt p)), htaken.parts⟩
  have hjoined : partJoined ((s.cls (portNum p) (flitClass f)).partMsg ++ (f.drop 2).take 26) (seqTaken (s.cls (portNum p) (flitClass f))) =
      { s.cls (portNum p) (flitClass f) with rxSeq := (flitSeq f + 1) % 1024, naked := false, partMsg := (s.cls (portNum p) (flitClass f)).partMsg ++ (f.drop 2).take 26 } := by
    unfold partJoined seqTaken
    dsimp only
    rw [← hin, hseq]
  exact htaken.own.trans hjoined

end

/-! A whole message for the part. -/

theorem msgNum_part (f : List Byte) {a b off n : Nat} (h : off + n ≤ b) : msgNum ((f.drop a).take b) off n = msgNum f (a + off) n := by
  unfold msgNum
  rw [List.drop_take, List.take_take, List.drop_drop, Nat.min_eq_left (by omega)]

section
variable {f : List Byte} {s : State} {i : Instr}

theorem routeMessage_own {v : State} {m : List Byte} (hvalid : v.link.addrValid = true) (haddr : v.link.addr < 0x40) (hdest : msgNum m 1 1 = v.link.addr) (hclass : msgNum m 3 1 < 8)
    (hurgent : msgNum m 0 1 ≠ 0x0A) (hmark : msgNum m 0 1 ≠ 0x0B) (hreq : requestOf m = .ok i) :
    routeMessage v 0 1 m = ({ v with link := { v.link with inbox := v.link.inbox ++ [m] } }, true) := by
  have hroute : routeOf v (msgNum m 1 1) = some (true, false) := by
    unfold routeOf
    dsimp only
    rw [hvalid, hdest, if_neg (by decide), if_neg (by omega), if_neg (by omega), if_neg (by omega), if_pos ⟨haddr, Nat.le_refl _⟩, decide_eq_true rfl, decide_eq_false (by omega)]
  have hconsume : consumeRequest v m = { v with link := { v.link with inbox := v.link.inbox ++ [m] } } := by
    unfold consumeRequest
    rw [hreq]
  unfold routeMessage
  dsimp only
  rw [if_neg (by omega), if_neg hurgent, if_neg (by decide), if_neg hmark, hroute]
  dsimp only
  rw [Bool.false_and, Bool.false_and, if_neg Bool.false_ne_true, if_neg Bool.false_ne_true, if_pos rfl, hconsume]
  rfl

theorem acceptFlit_whole {n c : Nat} (hsom : bit (msgNum f 0 2) 14 = true) (heom : bit (msgNum f 0 2) 15 = true) (hin : (s.cls n c).inMsg = false) :
    acceptFlit s n c f = messageDone ((flitCounted s n c).modCls n c (fun q => { q with inMsg := false, partMsg := [] })) n c ((f.drop 2).take 26) := by
  have hq : (flitCounted s n c).cls n c = seqTaken (s.cls n c) := (flitCounted_taken s n c).own
  have hinq : (seqTaken (s.cls n c)).inMsg = false := hin
  rw [acceptFlit_eq]
  dsimp only
  rw [hq, hsom, heom, hinq]
  rfl

theorem messageDone_own {v : State} (hlen : f.length = 32) (hfits : msgNum f 8 2 ≤ 10) (hvalid : v.link.addrValid = true) (haddr : v.link.addr < 0x40) (hdest : msgNum f 3 1 = v.link.addr)
    (hclass : msgNum f 5 1 < 8) (hurgent : msgNum f 2 1 ≠ 0x0A) (hmark : msgNum f 2 1 ≠ 0x0B) (hreq : requestOf ((f.drop 2).take (16 + msgNum f 8 2)) = .ok i) :
    messageDone v 0 1 ((f.drop 2).take 26) = freeCredit { v with link := { v.link with inbox := v.link.inbox ++ [(f.drop 2).take (16 + msgNum f 8 2)] } } 0 1 1 := by
  have hl : ((f.drop 2).take 26).length = 26 := by
    rw [List.length_take, List.length_drop, hlen]
    rfl
  have hnum : msgNum ((f.drop 2).take 26) 6 2 = msgNum f 8 2 := msgNum_part f (by decide)
  have htake : ((f.drop 2).take 26).take (16 + msgNum f 8 2) = (f.drop 2).take (16 + msgNum f 8 2) := by
    rw [List.take_take, Nat.min_eq_left (by omega)]
  have hroute : routeMessage v 0 1 ((f.drop 2).take (16 + msgNum f 8 2)) = ({ v with link := { v.link with inbox := v.link.inbox ++ [(f.drop 2).take (16 + msgNum f 8 2)] } }, true) :=
    routeMessage_own hvalid haddr ((msgNum_part f (by omega)).trans hdest) ((msgNum_part f (by omega)).trans_lt hclass)
      (fun h => hurgent ((msgNum_part f (by omega)).symm.trans h)) (fun h => hmark ((msgNum_part f (by omega)).symm.trans h)) hreq
  unfold messageDone
  dsimp only
  rw [hnum, hl, htake, hroute, if_pos ⟨by omega, by omega, by omega⟩]
  rfl

theorem dataFlit_whole (hup : (s.port 0).step = .active) (hgood : flitGood f = true) (htype : flitType f = 0) (hcls : flitClass f = 1) (hseq : flitSeq f = (s.cls 0 1).rxSeq)
    (hsom : bit (msgNum f 0 2) 14 = true) (heom : bit (msgNum f 0 2) 15 = true) (hin : (s.cls 0 1).inMsg = false) (hfits : msgNum f 8 2 ≤ 10)
    (hvalid : s.link.addrValid = true) (haddr : s.link.addr < 0x40) (hdest : msgNum f 3 1 = s.link.addr) (hclass : msgNum f 5 1 < 8) (hurgent : msgNum f 2 1 ≠ 0x0A)
    (hmark : msgNum f 2 1 ≠ 0x0B) (hreq : requestOf ((f.drop 2).take (16 + msgNum f 8 2)) = .ok i) (hpert : s.perturbed 5 1 = false) :
    ∃ t, exec (.dataFlitReceive .link0 f true) s = .next t ∧
      t.cls 0 1 = { s.cls 0 1 with rxSeq := (flitSeq f + 1) % 1024, naked := false, partMsg := [], rxFreed := ((s.cls 0 1).rxFreed + 1) % 65536 } ∧
      (∀ c, c ≠ 1 → t.cls 0 c = s.cls 0 c) ∧ t.port 0 = { s.port 0 with cls := (t.port 0).cls, ctrlWaits := true } ∧ t.port 1 = s.port 1 ∧
      t = { s with link := { s.link with port := t.link.port, inbox := s.link.inbox ++ [(f.drop 2).take (16 + msgNum f 8 2)] } } := by
  have hlen : f.length = 32 := of_decide_eq_true (Bool.and_eq_true_iff.1 hgood).1
  have hexec := dataFlit_eq (p := .link0) hup hgood htype
  dsimp only [portNum] at hexec
  rw [hcls, if_pos hseq, acceptFlit_whole hsom heom hin] at hexec
  have htaken := flitTaken_modCls (fun q => { q with inMsg := false, partMsg := [] }) (flitCounted_taken s 0 1)
  generalize (flitCounted s 0 1).modCls 0 1 (fun q => { q with inMsg := false, partMsg := [] }) = v at htaken hexec
  have hlink : v.link = { s.link with port := v.link.port } := by rw [htaken.parts]
  rw [messageDone_own hlen hfits (by rw [hlink]; exact hvalid) (by rw [hlink]; exact haddr) (by rw [hlink]; exact hdest) hclass hurgent hmark hreq] at hexec
  have hinbox : v.link.inbox = s.link.inbox := by rw [hlink]
  rw [hinbox] at hexec
  generalize s.link.inbox ++ [(f.drop 2).take (16 + msgNum f 8 2)] = box at hexec ⊢
  have hboxed : FlitTaken { s with link := { s.link with inbox := box } } 0 1 { seqTaken (s.cls 0 1) with inMsg := false, partMsg := [] } true { v with link := { v.link with inbox := box } } :=
    ⟨htaken.own, htaken.classes, htaken.port, htaken.other, congrArg (fun w : State => { w with link := { w.link with inbox := box } }) htaken.parts⟩
  have hfree : freeCredit { v with link := { v.link with inbox := box } } 0 1 1 =
      (({ v with link := { v.link with inbox := box } } : State).modPort 0 (fun q => { q with ctrlWaits := true })).modCls 0 1 (fun q => { q with rxFreed := (q.rxFreed + 1) % 65536 }) := by
    refine if_neg ?_
    have hsame : (({ v with link := { v.link with inbox := box } } : State).modPort 0 (fun q => { q with ctrlWaits := true })).perturbed 5 (1 + 4 * 0) = s.perturbed 5 1 := by
      rw [htaken.parts]
      rfl
    rw [hsame, hpert]
    exact Bool.false_ne_true
  rw [hfree] at hexec
  have hfinal := flitTaken_modCls (fun q => { q with rxFreed := (q.rxFreed + 1) % 65536 }) (flitTaken_waits hboxed)
  have hdone : { seqTaken (s.cls 0 1) with inMsg := false, partMsg := [], rxFreed := ((s.cls 0 1).rxFreed + 1) % 65536 } =
      { s.cls 0 1 with rxSeq := (flitSeq f + 1) % 1024, naked := false, partMsg := [], rxFreed := ((s.cls 0 1).rxFreed + 1) % 65536 } := by
    unfold seqTaken
    dsimp only
    rw [← hin, hseq]
  exact ⟨_, hexec, hfinal.own.trans hdone, hfinal.classes, hfinal.port, hfinal.other 1 (by decide), hfinal.parts⟩

end

end Sys2Proof.Machine
end

section
/-! PROOFS. O43, continued: the LINK_CTRL flits of a port. -/

set_option Elab.async false

namespace Sys2Proof.Machine

/-! ACK and CRD of one class. -/

/-- A class whose flits before the sequence number `ack` are acknowledged. -/
def ackTaken (ack : Nat) (q : ClassState) : ClassState :=
  match q.replay with
  | [] => q
  | (n, _) :: _ =>
    let d := (ack % 1024 + 1024 - n) % 1024
    if d = 0 ∨ q.replay.length < d then q
    else
      let left := q.replay.length - d
      { q with replay := q.replay.drop d, replays := 0, resend := q.resend.drop (q.resend.length - left) }

/-- A class that has taken its ACK and its CRD of a LINK_CTRL flit. -/
def acked (f : List Byte) (c : Nat) (q : ClassState) : ClassState :=
  let q := { ackTaken (msgNum f (2 + 2 * c) 2) q with txFreed := msgNum f (10 + 2 * c) 2 }
  { q with starved := q.starved && decide (creditOf q c = 0) }

section
variable {q : ClassState} {ack : Nat}

theorem ackTaken_idle (h : q.replay = [] ∨ ∃ n x l, q.replay = (n, x) :: l ∧ ((ack % 1024 + 1024 - n) % 1024 = 0 ∨ q.replay.length < (ack % 1024 + 1024 - n) % 1024)) :
    ackTaken ack q = q := by
  unfold ackTaken
  rcases h with h | ⟨n, x, l, hr, h⟩
  · rw [h]
  · rw [hr] at h ⊢
    exact if_pos h

theorem ackTaken_takes {n : Nat} {x : List Byte} {l : List (Nat × List Byte)} (hr : q.replay = (n, x) :: l) (hpos : 0 < (ack % 1024 + 1024 - n) % 1024)
    (hle : (ack % 1024 + 1024 - n) % 1024 ≤ q.replay.length) :
    ackTaken ack q = { q with replay := q.replay.drop ((ack % 1024 + 1024 - n) % 1024), replays := 0, resend := q.resend.drop (q.resend.length - (q.replay.length - (ack % 1024 + 1024 - n) % 1024)) } := by
  unfold ackTaken
  split
  · next h =>
    rw [h] at hr
    exact absurd hr (by simp)
  · next m y k h =>
    obtain ⟨rfl, rfl⟩ : m = n ∧ y = x := by
      rw [hr] at h
      simp only [List.cons.injEq, Prod.mk.injEq] at h
      exact ⟨h.1.1.symm, h.1.2.symm⟩
    exact if_neg (by omega)

theorem ackTaken_rest (ack : Nat) (q : ClassState) :
    ackTaken ack q = { q with replay := (ackTaken ack q).replay, replays := (ackTaken ack q).replays, resend := (ackTaken ack q).resend } := by
  unfold ackTaken
  split
  · rfl
  · dsimp only
    split <;> rfl

theorem acked_rest (f : List Byte) (c : Nat) (q : ClassState) :
    acked f c q = { q with replay := (ackTaken (msgNum f (2 + 2 * c) 2) q).replay, replays := (ackTaken (msgNum f (2 + 2 * c) 2) q).replays, resend := (ackTaken (msgNum f (2 + 2 * c) 2) q).resend, txFreed := msgNum f (10 + 2 * c) 2, starved := q.starved && decide (creditOf { q with txFreed := msgNum f (10 + 2 * c) 2 } c = 0) } := by
  have hrest := ackTaken_rest (msgNum f (2 + 2 * c) 2) q
  unfold acked
  generalize ackTaken (msgNum f (2 + 2 * c) 2) q = x at hrest ⊢
  rw [hrest]
  rfl

end

/-- `u` is `s` but for the classes of port `p` and bit 4 of the port's LIVE. -/
structure CtrlKept (p : Nat) (s u : State) : Prop where
  port : u.port p = { s.port p with cls := (u.port p).cls }
  other : ∀ k, k ≠ p → u.port k = s.port k
  blocks : ∀ k, k ≠ 0x16 + p → u.fblk k = s.fblk k
  live : ∀ i, i ≠ 4 → (u.fblk (0x16 + p)).live.getLsbD i = (s.fblk (0x16 + p)).live.getLsbD i
  parts : u = { s with link := { s.link with port := u.link.port }, flt := { s.flt with block := u.flt.block } }

section
variable {p c : Nat} {s u v : State} {f : List Byte}

theorem ctrlKept_refl : CtrlKept p s s := ⟨rfl, fun _ _ => rfl, fun _ _ => rfl, fun _ _ => rfl, rfl⟩

theorem ctrlKept_trans (h : CtrlKept p s u) (h' : CtrlKept p u v) : CtrlKept p s v where
  port := by rw [h'.port, h.port]
  other k hk := (h'.other k hk).trans (h.other k hk)
  blocks k hk := (h'.blocks k hk).trans (h.blocks k hk)
  live i hi := (h'.live i hi).trans (h.live i hi)
  parts := by
    have hp := h'.parts
    rw [h.parts] at hp
    exact hp

theorem ctrlKept_modCls (f : ClassState → ClassState) (h : CtrlKept p s u) : CtrlKept p s (u.modCls p c f) where
  port := by
    unfold State.modCls
    rw [samePort, h.port]
  other k hk := ((State.modPort_port ..).trans (if_neg hk)).trans (h.other k hk)
  blocks := h.blocks
  live := h.live
  parts := congrArg (fun v : State => { v with link := { v.link with port := (u.modCls p c f).link.port } }) h.parts

theorem ctrlKept_live (h : CtrlKept p s u) : CtrlKept p s (u.live (portBlock p) 4 false) where
  port := h.port
  other := h.other
  blocks k hk := (live_eq u _ 4 false k hk).trans (h.blocks k hk)
  live i hi := by
    rw [← h.live i hi]
    show ((u.live (0x16 + p) 4 false).fblk (0x16 + p)).live.getLsbD i = _
    rw [live_fblk, if_pos rfl, if_neg Bool.false_ne_true, BitVec.getLsbD_and, BitVec.getLsbD_not]
    have hbit : (BitVec.ofNat 64 (2 ^ 4)).getLsbD i = false := by
      rw [BitVec.getLsbD_ofNat, Nat.testBit_two_pow, decide_eq_false (fun he : 4 = i => hi he.symm), Bool.and_false]
    rw [hbit]
    by_cases h64 : i < 64
    · rw [decide_eq_true h64]
      exact Bool.and_true _
    · rw [BitVec.getLsbD_of_ge _ _ (Nat.le_of_not_lt h64)]
      exact Bool.false_and _
  parts := congrArg (fun v : State => { v with flt := { v.flt with block := (u.live (portBlock p) 4 false).flt.block } }) h.parts

/-- A class with credit again loses its mark. -/
theorem creditBack_spec (s : State) (p c : Nat) :
    (creditBack s p c).cls p c = { s.cls p c with starved := (s.cls p c).starved && decide (creditOf (s.cls p c) c = 0) } ∧
      (∀ k, k ≠ c → (creditBack s p c).cls p k = s.cls p k) ∧ CtrlKept p s (creditBack s p c) := by
  unfold creditBack
  split
  · next h =>
    obtain ⟨hstarved, hcredit⟩ := Bool.and_eq_true_iff.1 h
    have hzero : decide (creditOf (s.cls p c) c = 0) = false := decide_eq_false (by have := of_decide_eq_true hcredit; omega)
    have hown : (s.modCls p c (fun q => { q with starved := false })).cls p c = { s.cls p c with starved := (s.cls p c).starved && decide (creditOf (s.cls p c) c = 0) } := by
      rw [modCls_cls, if_pos rfl, hzero, Bool.and_false]
    have hothers : ∀ k, k ≠ c → (s.modCls p c (fun q => { q with starved := false })).cls p k = s.cls p k := fun k hk => by rw [modCls_cls, if_neg hk]
    have hkept : CtrlKept p s (s.modCls p c (fun q => { q with starved := false })) := ctrlKept_modCls _ ctrlKept_refl
    dsimp only
    split
    · exact ⟨hown, hothers, hkept⟩
    · exact ⟨hown, hothers, ctrlKept_live hkept⟩
  · next h =>
    refine ⟨?_, fun _ _ => rfl, ctrlKept_refl⟩
    have hsame : (s.cls p c).starved = ((s.cls p c).starved && decide (creditOf (s.cls p c) c = 0)) := by
      cases hs : (s.cls p c).starved with
      | false => rfl
      | true =>
        rw [hs, Bool.true_and] at h
        have hle : ¬ 0 < creditOf (s.cls p c) c := fun hpos => h (decide_eq_true hpos)
        rw [decide_eq_true (Nat.eq_zero_of_not_pos hle)]
        rfl
    rw [← hsame]

theorem takeAck_spec (s : State) (p : Nat) (hnak : bit (msgNum f (2 + 2 * c) 2) 15 = false) :
    (takeAck s p f c).cls p c = acked f c (s.cls p c) ∧ (∀ k, k ≠ c → (takeAck s p f c).cls p k = s.cls p k) ∧ CtrlKept p s (takeAck s p f c) := by
  have htake : takeAck s p f c = creditBack ((s.modCls p c (ackTaken (msgNum f (2 + 2 * c) 2))).modCls p c (fun q => { q with txFreed := msgNum f (10 + 2 * c) 2 })) p c := by
    unfold takeAck
    dsimp only
    rw [hnak, if_neg Bool.false_ne_true]
    rfl
  have hkept : CtrlKept p s ((s.modCls p c (ackTaken (msgNum f (2 + 2 * c) 2))).modCls p c (fun q => { q with txFreed := msgNum f (10 + 2 * c) 2 })) :=
    ctrlKept_modCls _ (ctrlKept_modCls _ ctrlKept_refl)
  have hown : ((s.modCls p c (ackTaken (msgNum f (2 + 2 * c) 2))).modCls p c (fun q => { q with txFreed := msgNum f (10 + 2 * c) 2 })).cls p c =
      { ackTaken (msgNum f (2 + 2 * c) 2) (s.cls p c) with txFreed := msgNum f (10 + 2 * c) 2 } := by
    rw [modCls_cls, if_pos rfl, modCls_cls, if_pos rfl]
  have hothers : ∀ k, k ≠ c → ((s.modCls p c (ackTaken (msgNum f (2 + 2 * c) 2))).modCls p c (fun q => { q with txFreed := msgNum f (10 + 2 * c) 2 })).cls p k = s.cls p k := fun k hk => by
    rw [modCls_cls, if_neg hk, modCls_cls, if_neg hk]
  rw [htake]
  generalize (s.modCls p c (ackTaken (msgNum f (2 + 2 * c) 2))).modCls p c (fun q => { q with txFreed := msgNum f (10 + 2 * c) 2 }) = v at hkept hown hothers
  obtain ⟨hback, hrest, hk⟩ := creditBack_spec v p c
  refine ⟨?_, fun k hk => (hrest k hk).trans (hothers k hk), ctrlKept_trans hkept hk⟩
  rw [hback, hown]
  rfl

/-- The acknowledgements of a LINK_CTRL flit have been taken. -/
def acksTaken (s : State) (p : Nat) (f : List Byte) (l : List Nat) : State :=
  l.foldl (fun s c => if (s.port p).step = .active then takeAck s p f c else s) s

theorem acksTaken_spec {l : List Nat} (hl : l.Nodup) (hnak : ∀ c ∈ l, bit (msgNum f (2 + 2 * c) 2) 15 = false) (hup : (s.port p).step = .active) :
    (∀ c, (acksTaken s p f l).cls p c = if c ∈ l then acked f c (s.cls p c) else s.cls p c) ∧ CtrlKept p s (acksTaken s p f l) := by
  induction l generalizing s with
  | nil => exact ⟨fun _ => rfl, ctrlKept_refl⟩
  | cons k l ih =>
    obtain ⟨hk, hl⟩ := List.nodup_cons.1 hl
    obtain ⟨hown, hothers, hkept⟩ := takeAck_spec s p (hnak k List.mem_cons_self)
    have hstep : acksTaken s p f (k :: l) = acksTaken (takeAck s p f k) p f l := by
      unfold acksTaken
      rw [List.foldl_cons, if_pos hup]
    rw [hstep]
    generalize takeAck s p f k = v at hown hothers hkept
    obtain ⟨hcls, hrest⟩ := ih hl (fun c hc => hnak c (List.mem_cons_of_mem _ hc)) (s := v) (by rw [hkept.port]; exact hup)
    refine ⟨fun c => ?_, ctrlKept_trans hkept hrest⟩
    rw [hcls]
    by_cases hc : c = k
    · rw [hc, if_neg hk, if_pos List.mem_cons_self, hown]
    · rw [hothers c hc]
      simp only [List.mem_cons, hc, false_or]

end

end Sys2Proof.Machine
end

section
/-! PROOFS. O43, continued: what the types of a LINK_CTRL flit do. -/

set_option Elab.async false

namespace Sys2Proof.Machine

section
variable {f : List Byte} {s : State}

theorem ctrl_none {p : Port} {a : CtrlArrival} (h : ((s.port (portNum p)).step ≠ .active ∧ (s.port (portNum p)).step ≠ .measure) ∨ a.syncOk = false ∨ flitGood f = false ∨ flitType f ≠ 1) :
    exec (.linkCtrlReceive p f a) s = .next s := by
  refine congrArg Host.Outcome.next (if_pos ?_)
  rcases h with h | h | h | h
  · exact Or.inl h
  · exact Or.inr (Or.inl (by rw [h]; rfl))
  · exact Or.inr (Or.inr (Or.inl (by rw [h]; rfl)))
  · exact Or.inr (Or.inr (Or.inr h))

/-- What the type of a LINK_CTRL flit does, once its acknowledgements are taken: the port's step was `up`. -/
def ctrlActs (s : State) (p : Nat) (up : PortStep) (f : List Byte) (arrival : Nat) : State :=
  let t := msgNum f 18 1
  let stamp := msgNum f 20 8
  if t = 1 then s.modPort p (fun q => { q with delayRsp := true })
  else if t = 2 ∧ p = 0 ∧ up = .active then delayAnswer s stamp arrival
  else if t = 3 then linkPortReset s p
  else if t = 4 ∧ p = 0 then timeCheck s stamp arrival
  else s

/-- The neighbour's address is noted by the root-side port. -/
def neighbourNoted (s : State) (p : Nat) (f : List Byte) : State :=
  if p = 0 then { s with link := { s.link with neighbour := msgNum f 19 1 % 128 } } else s

theorem receiveCtrl_eq {p arrival : Nat} (hup : (s.port p).step = .active ∨ (s.port p).step = .measure) (hgood : flitGood f = true) (htype : flitType f = 1) :
    receiveCtrl s p f arrival true = ctrlActs (if (s.port p).step = .active then acksTaken (neighbourNoted s p f) p f [0, 1, 2, 3] else neighbourNoted s p f) p (s.port p).step f arrival := by
  refine if_neg ?_
  rintro (h | h | h | h)
  · rcases hup with hu | hu
    · exact h.1 hu
    · exact h.2 hu
  · exact absurd h (by decide)
  · rw [hgood] at h
    exact absurd h (by decide)
  · exact h htype

theorem ctrl_measure {arrival : Nat} (hup : (s.port 1).step = .measure) (hgood : flitGood f = true) (htype : flitType f = 1) :
    exec (.linkCtrlReceive .link1 f ⟨arrival, true⟩) s = .next (ctrlActs s 1 .measure f arrival) := by
  have heq := receiveCtrl_eq (p := 1) (arrival := arrival) (Or.inr hup) hgood htype
  rw [hup, if_neg (by decide)] at heq
  exact congrArg Host.Outcome.next heq

theorem ctrl_active {p : Port} {arrival : Nat} (hup : (s.port (portNum p)).step = .active) (hgood : flitGood f = true) (htype : flitType f = 1) :
    exec (.linkCtrlReceive p f ⟨arrival, true⟩) s = .next (ctrlActs (acksTaken (neighbourNoted s (portNum p) f) (portNum p) f [0, 1, 2, 3]) (portNum p) .active f arrival) := by
  have heq := receiveCtrl_eq (p := portNum p) (arrival := arrival) (Or.inl hup) hgood htype
  rw [hup, if_pos rfl] at heq
  exact congrArg Host.Outcome.next heq

theorem ctrlActs_delayReq {p arrival : Nat} {up : PortStep} (h : msgNum f 18 1 = 1) : ctrlActs s p up f arrival = s.modPort p (fun q => { q with delayRsp := true }) := if_pos h

theorem ctrlActs_reset {p arrival : Nat} {up : PortStep} (h : msgNum f 18 1 = 3) : ctrlActs s p up f arrival = linkPortReset s p := by
  unfold ctrlActs
  dsimp only
  rw [h, if_neg (by decide), if_neg (fun hc => absurd hc.1 (by decide)), if_pos rfl]

theorem ctrlActs_acks {p arrival : Nat} {up : PortStep} (h : msgNum f 18 1 = 0) : ctrlActs s p up f arrival = s := by
  unfold ctrlActs
  dsimp only
  rw [h, if_neg (by decide), if_neg (fun hc => absurd hc.1 (by decide)), if_neg (by decide), if_neg (fun hc => absurd hc.1 (by decide))]

theorem ctrlActs_delay {arrival t1 : Nat} (h : msgNum f 18 1 = 2) (hreq : s.link.delayReq = some t1) :
    ctrlActs s 0 .active f arrival = { s with link := { s.link with delays := (roundAway ((arrival : Int) - t1 - msgNum f 20 8) 2 :: s.link.delays).take 4096, delayReq := none } } := by
  have hanswer : ctrlActs s 0 .active f arrival = delayAnswer s (msgNum f 20 8) arrival := by
    unfold ctrlActs
    dsimp only
    rw [h, if_neg (by decide), if_pos ⟨rfl, rfl, rfl⟩]
  rw [hanswer, delayAnswer, hreq]

theorem ctrlActs_check {arrival : Nat} (h : msgNum f 18 1 = 4) : ctrlActs s 0 .active f arrival = timeCheck s (msgNum f 20 8) arrival := by
  unfold ctrlActs
  dsimp only
  rw [h, if_neg (by decide), if_neg (fun hc => absurd hc.1 (by decide)), if_neg (by decide), if_pos ⟨rfl, rfl⟩]

theorem four_nodup : ([0, 1, 2, 3] : List Nat).Nodup := by decide

theorem four_lt {c : Nat} (h : c ∈ ([0, 1, 2, 3] : List Nat)) : c < 4 := by
  simp only [List.mem_cons, List.not_mem_nil, or_false] at h
  omega

theorem mem_four {c : Nat} (h : c < 4) : c ∈ ([0, 1, 2, 3] : List Nat) := by
  simp only [List.mem_cons, List.not_mem_nil, or_false]
  omega

theorem ctrl_acks {arrival : Nat} (hup : (s.port 1).step = .active) (hgood : flitGood f = true) (htype : flitType f = 1) (hkind : msgNum f 18 1 = 0)
    (hnak : ∀ c, c < 4 → bit (msgNum f (2 + 2 * c) 2) 15 = false) :
    ∃ t, exec (.linkCtrlReceive .link1 f ⟨arrival, true⟩) s = .next t ∧ (∀ c, c < 4 → t.cls 1 c = { s.cls 1 c with replay := (t.cls 1 c).replay, replays := (t.cls 1 c).replays, resend := (t.cls 1 c).resend, txFreed := msgNum f (10 + 2 * c) 2, starved := (s.cls 1 c).starved && decide (creditOf { s.cls 1 c with txFreed := msgNum f (10 + 2 * c) 2 } c = 0) } ∧
        (∀ n x l, (s.cls 1 c).replay = (n, x) :: l → 0 < (msgNum f (2 + 2 * c) 2 % 1024 + 1024 - n) % 1024 →
          (msgNum f (2 + 2 * c) 2 % 1024 + 1024 - n) % 1024 ≤ (s.cls 1 c).replay.length →
          (t.cls 1 c).replay = (s.cls 1 c).replay.drop ((msgNum f (2 + 2 * c) 2 % 1024 + 1024 - n) % 1024) ∧ (t.cls 1 c).replays = 0 ∧
          (t.cls 1 c).resend = (s.cls 1 c).resend.drop ((s.cls 1 c).resend.length - (t.cls 1 c).replay.length)) ∧
        (((s.cls 1 c).replay = [] ∨ ∃ n x l, (s.cls 1 c).replay = (n, x) :: l ∧ ((msgNum f (2 + 2 * c) 2 % 1024 + 1024 - n) % 1024 = 0 ∨
            (s.cls 1 c).replay.length < (msgNum f (2 + 2 * c) 2 % 1024 + 1024 - n) % 1024)) →
          (t.cls 1 c).replay = (s.cls 1 c).replay ∧ (t.cls 1 c).replays = (s.cls 1 c).replays ∧ (t.cls 1 c).resend = (s.cls 1 c).resend)) ∧
      t.port 1 = { s.port 1 with cls := (t.port 1).cls } ∧ t.port 0 = s.port 0 ∧ (∀ k, k ≠ 0x17 → t.fblk k = s.fblk k) ∧
      t = { s with link := { s.link with port := t.link.port }, flt := { s.flt with block := t.flt.block } } := by
  have hexec := ctrl_active (p := .link1) (arrival := arrival) hup hgood htype
  dsimp only [portNum] at hexec
  rw [ctrlActs_acks hkind] at hexec
  obtain ⟨hcls, hkept⟩ := acksTaken_spec (s := s) (p := 1) (f := f) four_nodup (fun c hc => hnak c (four_lt hc)) hup
  rw [show neighbourNoted s 1 f = s from rfl] at hexec
  generalize acksTaken s 1 f [0, 1, 2, 3] = t at hcls hkept hexec
  refine ⟨t, hexec, fun c hc => ?_, hkept.port, hkept.other 0 (by decide), hkept.blocks, hkept.parts⟩
  have hown := hcls c
  rw [if_pos (mem_four hc), acked_rest] at hown
  generalize s.cls 1 c = q at hown ⊢
  refine ⟨?_, fun n x l hr hpos hle => ?_, fun hidle => ?_⟩
  · rw [hown]
  · rw [ackTaken_takes hr hpos hle] at hown
    rw [hown]
    refine ⟨rfl, rfl, ?_⟩
    dsimp only
    rw [List.length_drop]
  · rw [ackTaken_idle hidle] at hown
    rw [hown]
    exact ⟨rfl, rfl, rfl⟩

/-- The root-side port's acknowledgements, with the neighbour noted. -/
theorem rootAcks_spec (hup : (s.port 0).step = .active) (hnak : ∀ c, c < 4 → bit (msgNum f (2 + 2 * c) 2) 15 = false) :
    CtrlKept 0 { s with link := { s.link with neighbour := msgNum f 19 1 % 128 } } (acksTaken (neighbourNoted s 0 f) 0 f [0, 1, 2, 3]) :=
  (acksTaken_spec (s := { s with link := { s.link with neighbour := msgNum f 19 1 % 128 } }) (p := 0) (f := f) four_nodup (fun c hc => hnak c (four_lt hc)) hup).2

theorem ctrl_delay {arrival t1 : Nat} (hup : (s.port 0).step = .active) (hgood : flitGood f = true) (htype : flitType f = 1) (hkind : msgNum f 18 1 = 2)
    (hnak : ∀ c, c < 4 → bit (msgNum f (2 + 2 * c) 2) 15 = false) (hreq : s.link.delayReq = some t1) :
    ∃ t, exec (.linkCtrlReceive .link0 f ⟨arrival, true⟩) s = .next t ∧ t.port 1 = s.port 1 ∧ (∀ k, k ≠ 0x16 → t.fblk k = s.fblk k) ∧
      t = { s with link := { s.link with port := t.link.port, delayReq := none, neighbour := msgNum f 19 1 % 128, delays := (roundAway ((arrival : Int) - t1 - msgNum f 20 8) 2 :: s.link.delays).take 4096 }, flt := { s.flt with block := t.flt.block } } := by
  have hexec := ctrl_active (p := .link0) (arrival := arrival) hup hgood htype
  dsimp only [portNum] at hexec
  have hkept := rootAcks_spec hup hnak
  generalize acksTaken (neighbourNoted s 0 f) 0 f [0, 1, 2, 3] = v at hkept hexec
  have hlink : v.link.delayReq = some t1 ∧ v.link.delays = s.link.delays := by
    rw [hkept.parts]
    exact ⟨hreq, rfl⟩
  rw [ctrlActs_delay hkind hlink.1, hlink.2] at hexec
  refine ⟨_, hexec, hkept.other 1 (by decide), hkept.blocks, ?_⟩
  rw [hkept.parts]

theorem ofTwos_toTwos_64 {z : Int} (hlo : -2147483648 ≤ z) (hhi : z ≤ 2147483647) : ofTwos 64 (toTwos 64 z) = z := by
  unfold ofTwos toTwos
  dsimp only
  norm_num
  split <;> omega

/-- SYNC_OFFSET as a TIME_CHECK gives it. -/
theorem timeCheck_eq {stamp arrival : Nat} {v : Int} (hv : v = (arrival : Int) - hopDelay s - stamp) (hlo : -2147483648 ≤ v) (hhi : v ≤ 2147483647) :
    timeCheck s stamp arrival = (
      let d := if s.link.neighbour = 0x7E then 0 else v
      let far := s.link.syncValid && decide (16 < d.natAbs)
      ({ (if far then s.noteSet 0x1C10 16 else s) with link := { s.link with syncOffset := d, slip := s.link.slip || far } } : State).condition 0x16 8 far) := by
  have hclamp : clampI (-2147483648) 2147483647 (ofTwos 64 (toTwos 64 ((arrival : Int) - hopDelay s - stamp))) = v := by
    rw [← hv, ofTwos_toTwos_64 hlo hhi]
    unfold clampI
    omega
  unfold timeCheck
  dsimp only
  rw [hclamp]
  generalize hd : (if s.link.neighbour = 126 then (0 : Int) else v) = d
  cases hfar : (s.link.syncValid && decide (16 < d.natAbs)) <;> rfl

end

end Sys2Proof.Machine
end

section
/-! PROOFS. O43, continued: TIME_CHECK, replays and credit timeouts. -/

set_option Elab.async false

namespace Sys2Proof.Machine

section
variable {f : List Byte} {s : State}

/-- A condition source that begins: LIVE is on, and if it was off a fault waits. -/
theorem condition_begins {src : Nat} (k : Nat) (hsrc : src < 64) (hcond : srcEvent k src = false) : ((s.condition k src true).fblk k).live.getLsbD src = true ∧
    ((s.fblk k).live.getLsbD src = false → ∃ d ∈ (s.condition k src true).flt.waiting, d.block = k ∧ d.source = src) ∧
    (∀ j, j ≠ k → (s.condition k src true).fblk j = s.fblk j) ∧
    ∃ b w, s.condition k src true = { s with flt := { s.flt with block := b, waiting := w } } := by
  unfold State.condition
  rw [if_pos rfl]
  split
  · next h => exact ⟨h, fun hoff => absurd (hoff.symm.trans h) Bool.false_ne_true, fun _ _ => rfl, _, _, rfl⟩
  · refine ⟨raise_live s 0 0 hsrc hcond, fun _ => exists_raise s k src 0 0, fun j hj => ?_, raise_parts s k src 0 0⟩
    unfold State.raise
    rw [hcond]
    exact live_eq s k src true j hj

theorem hopDelay_congr {u : State} (hd : u.link.delays = s.link.delays) (ht : u.link.trainDelay = s.link.trainDelay) : hopDelay u = hopDelay s := by
  unfold hopDelay
  rw [hd, ht]

/-- A SYNC_OFFSET out of bounds is noted. -/
def farNoted (u : State) (d : Int) : State := { u.noteSet 0x1C10 16 with link := { u.link with syncOffset := d, slip := true } }

theorem ctrl_timeCheck {arrival : Nat} {v : Int} (hup : (s.port 0).step = .active) (hgood : flitGood f = true) (htype : flitType f = 1) (hkind : msgNum f 18 1 = 4)
    (hnak : ∀ c, c < 4 → bit (msgNum f (2 + 2 * c) 2) 15 = false) (hv : v = (arrival : Int) - hopDelay s - msgNum f 20 8) (hlo : -2147483648 ≤ v) (hhi : v ≤ 2147483647) :
    ∃ t, exec (.linkCtrlReceive .link0 f ⟨arrival, true⟩) s = .next t ∧ t.link.syncOffset = (if msgNum f 19 1 % 128 = 0x7E then 0 else v) ∧
      (s.link.syncValid = true → 16 < v.natAbs → msgNum f 19 1 % 128 ≠ 0x7E → t.link.slip = true ∧ (t.fblk 0x16).live.getLsbD 8 = true ∧
        ((s.fblk 0x16).live.getLsbD 8 = false → ∃ d ∈ t.flt.waiting, d.block = 0x16 ∧ d.source = 8)) ∧
      (s.link.syncValid = false ∨ v.natAbs ≤ 16 ∨ msgNum f 19 1 % 128 = 0x7E → t.link.slip = s.link.slip ∧ (t.fblk 0x16).live.getLsbD 8 = false ∧
        t.flt.waiting = s.flt.waiting ∧ t.bus = s.bus) ∧
      t.port 1 = s.port 1 ∧ (∀ k, k ≠ 0x16 → t.fblk k = s.fblk k) ∧
      t = { s with bus := { s.bus with recent := t.bus.recent }, link := { s.link with port := t.link.port, neighbour := msgNum f 19 1 % 128, syncOffset := t.link.syncOffset, slip := t.link.slip }, flt := { s.flt with block := t.flt.block, waiting := t.flt.waiting } } := by
  have hexec := ctrl_active (p := .link0) (arrival := arrival) hup hgood htype
  dsimp only [portNum] at hexec
  have hkept := rootAcks_spec hup hnak
  generalize acksTaken (neighbourNoted s 0 f) 0 f [0, 1, 2, 3] = u at hkept hexec
  generalize msgNum f 19 1 % 128 = own at hkept ⊢
  have hlink : u.link = { s.link with port := u.link.port, neighbour := own } := by rw [hkept.parts]
  have hhop : hopDelay u = hopDelay s := hopDelay_congr (by rw [hlink]) (by rw [hlink])
  have hown : u.link.neighbour = own := by rw [hlink]
  have hvalid : u.link.syncValid = s.link.syncValid := by rw [hlink]
  have hslip : u.link.slip = s.link.slip := by rw [hlink]
  have hbit : (u.fblk 0x16).live.getLsbD 8 = (s.fblk 0x16).live.getLsbD 8 := hkept.live 8 (by decide)
  have hwait : u.flt.waiting = s.flt.waiting := by rw [hkept.parts]
  have hbus : u.bus = s.bus := by rw [hkept.parts]
  rw [ctrlActs_check hkind, timeCheck_eq (v := v) (by rw [hhop]; exact hv) hlo hhi, hown, hvalid, hslip] at hexec
  dsimp only at hexec
  generalize hd : (if own = 126 then (0 : Int) else v) = d at hexec ⊢
  cases hfar : (s.link.syncValid && decide (16 < d.natAbs)) with
  | false =>
    rw [hfar, if_neg Bool.false_ne_true, Bool.or_false] at hexec
    refine ⟨_, hexec, rfl, fun hvalid' hfar' hother => ?_, fun _ => ⟨rfl, live_off _ _ (by decide), hwait, hbus⟩, hkept.other 1 (by decide), fun k hk => ?_, ?_⟩
    · rw [if_neg hother] at hd
      rw [hvalid', ← hd, decide_eq_true hfar'] at hfar
      exact absurd hfar (by decide)
    · exact (live_eq _ _ _ _ k hk).trans (hkept.blocks k hk)
    · rw [hkept.parts]
      rfl
  | true =>
    rw [hfar, if_pos rfl, Bool.or_true] at hexec
    obtain ⟨hvalid', hfar'⟩ := Bool.and_eq_true_iff.1 hfar
    obtain ⟨hlive, hwaits, hblocks, b, w, hparts⟩ := condition_begins (s := farNoted u d) 0x16 (show 8 < 64 by decide) (by decide)
    have hexec' : exec (.linkCtrlReceive .link0 f ⟨arrival, true⟩) s = .next ((farNoted u d).condition 0x16 8 true) := hexec
    refine ⟨_, hexec', ?_, fun _ _ _ => ⟨?_, hlive, fun hoff => hwaits (hbit.trans hoff)⟩, fun hnear => ?_, ?_, fun k hk => (hblocks k hk).trans (hkept.blocks k hk), ?_⟩
    · rw [hparts]
      rfl
    · rw [hparts]
      rfl
    · exfalso
      have hf := of_decide_eq_true hfar'
      rcases hnear with h | h | h
      · exact absurd (h.symm.trans hvalid') Bool.false_ne_true
      · rw [← hd] at hf
        split at hf
        · exact absurd hf (by decide)
        · omega
      · rw [← hd, if_pos h] at hf
        exact absurd hf (by decide)
    · rw [hparts]
      exact hkept.other 1 (by decide)
    · rw [hparts, hkept.parts]
      rfl

/-! Replays. -/

theorem replayTimeout_none {p : Port} {c : Fin 4} (h : (s.port (portNum p)).step ≠ .active ∨ (s.cls (portNum p) c.val).replay = []) : exec (.replayTimeout p c) s = .next s := by
  refine congrArg Host.Outcome.next ?_
  by_cases hup : (s.port (portNum p)).step = .active
  · rw [if_pos hup]
    unfold replayClass
    dsimp only
    rw [h.resolve_left (fun hn => hn hup)]
    rfl
  · exact if_neg hup

/-- The class sends its unacknowledged flits once more. -/
def resent (q : ClassState) : ClassState := { q with resend := q.replay.map (fun e => e.2), replays := q.replays + 1 }

/-- A replay is reported. -/
def replayed (s : State) (p c : Nat) : State := (s.modCls p c resent).raise (portBlock p) 2 c

theorem replayTimeout_eq {p : Port} {c : Fin 4} (hup : (s.port (portNum p)).step = .active) (hne : (s.cls (portNum p) c.val).replay ≠ []) :
    exec (.replayTimeout p c) s = .next (if 16 ≤ (s.cls (portNum p) c.val).replays + 1 then linkPortReset ((replayed s (portNum p) c.val).raise (portBlock (portNum p)) 3 c.val) (portNum p)
      else replayed s (portNum p) c.val) := by
  have hempty : (s.cls (portNum p) c.val).replay.isEmpty = false := by
    cases h : (s.cls (portNum p) c.val).replay with
    | nil => exact absurd h hne
    | cons => rfl
  refine congrArg Host.Outcome.next ((if_pos hup).trans ?_)
  unfold replayClass
  dsimp only
  rw [hempty]
  rfl

theorem replay_event {p : Nat} (hp : p < 2) : srcEvent (portBlock p) 2 = true ∧ srcEvent (portBlock p) 3 = true ∧ srcEvent (portBlock p) 4 = false := by
  obtain rfl | rfl : p = 0 ∨ p = 1 := by omega
  · decide
  · decide

/-- A class-only change with a fault that waits. -/
theorem modCls_parts (s : State) (p c : Nat) (g : ClassState → ClassState) : s.modCls p c g = { s with link := { s.link with port := (s.modCls p c g).link.port } } ∧
    (s.modCls p c g).port p = { s.port p with cls := ((s.modCls p c g).port p).cls } ∧ (∀ k, k ≠ p → (s.modCls p c g).port k = s.port k) := by
  refine ⟨rfl, ?_, fun k hk => (State.modPort_port ..).trans (if_neg hk)⟩
  unfold State.modCls
  rw [samePort]

theorem replayTimeout_again {p : Port} {c : Fin 4} (hup : (s.port (portNum p)).step = .active) (hne : (s.cls (portNum p) c.val).replay ≠ []) (hfew : (s.cls (portNum p) c.val).replays < 15) :
    ∃ t, exec (.replayTimeout p c) s = .next t ∧ t.cls (portNum p) c.val = { s.cls (portNum p) c.val with resend := (s.cls (portNum p) c.val).replay.map (fun e => e.2), replays := (s.cls (portNum p) c.val).replays + 1 } ∧
      (∀ k, k ≠ c.val → t.cls (portNum p) k = s.cls (portNum p) k) ∧ t.port (portNum p) = { s.port (portNum p) with cls := (t.port (portNum p)).cls } ∧
      t.port (1 - portNum p) = s.port (1 - portNum p) ∧
      t = { s with link := { s.link with port := t.link.port }, flt := { s.flt with waiting := s.flt.waiting ++ [{ block := 0x16 + portNum p, source := 2, d0 := w16 c.val, d1 := 0, forced := false, stamp := f3 s.now }] } } := by
  have hexec := replayTimeout_eq hup hne
  rw [if_neg (by omega)] at hexec
  obtain ⟨hevent, -, -⟩ := replay_event (portNum_lt p)
  obtain ⟨hparts, hport, hother⟩ := modCls_parts s (portNum p) c.val resent
  unfold replayed at hexec
  rw [raise_event hevent] at hexec
  exact ⟨_, hexec, (modCls_cls ..).trans (if_pos rfl), fun k hk => (modCls_cls ..).trans (if_neg hk), hport, hother _ (other_ne (portNum_lt p)), rfl⟩

theorem replayTimeout_resets {p : Port} {c : Fin 4} (hup : (s.port (portNum p)).step = .active) (hne : (s.cls (portNum p) c.val).replay ≠ []) (hmany : (s.cls (portNum p) c.val).replays = 15)
    (hreset : s.clk.resetting = none) (hrestart : s.clk.restarting = false) :
    ∃ t, exec (.replayTimeout p c) s = .next t ∧ (t.port (portNum p)).step = .detect ∧ (t.port (portNum p)).resetReq = true ∧ (t.cls (portNum p) c.val).replay = [] ∧
      (∃ d ∈ t.flt.waiting, d.block = 0x16 + portNum p ∧ d.source = 2 ∧ d.d0 = w16 c.val) ∧
      (∃ d ∈ t.flt.waiting, d.block = 0x16 + portNum p ∧ d.source = 3 ∧ d.d0 = w16 c.val) ∧ ∃ d ∈ t.flt.waiting, d.block = 0x16 + portNum p ∧ d.source = 0 := by
  have hexec := replayTimeout_eq hup hne
  rw [hmany, if_pos (Nat.le_refl 16)] at hexec
  obtain ⟨hevent, hevent', -⟩ := replay_event (portNum_lt p)
  generalize hu : (replayed s (portNum p) c.val).raise (portBlock (portNum p)) 3 c.val = u at hexec
  have hlast : ∀ (v : State) (src : Nat), ∃ d ∈ (v.raise (portBlock (portNum p)) src c.val).flt.waiting, d.block = 0x16 + portNum p ∧ d.source = src ∧ d.d0 = w16 c.val := fun v src => by
    rw [raise_waiting]
    exact ⟨_, List.mem_append_right _ List.mem_cons_self, rfl, rfl, rfl⟩
  have hthird : ∃ d ∈ u.flt.waiting, d.block = 0x16 + portNum p ∧ d.source = 3 ∧ d.d0 = w16 c.val := hu ▸ hlast _ 3
  have hsecond : ∃ d ∈ u.flt.waiting, d.block = 0x16 + portNum p ∧ d.source = 2 ∧ d.d0 = w16 c.val := by
    obtain ⟨d, hd, hparts⟩ := hlast (s.modCls (portNum p) c.val resent) 2
    refine ⟨d, ?_, hparts⟩
    rw [← hu, raise_waiting]
    exact List.mem_append_left _ hd
  have hparts : u = { s with link := { s.link with port := u.link.port }, flt := { s.flt with waiting := u.flt.waiting } } := by
    rw [← hu]
    unfold replayed
    rw [raise_event hevent, raise_event hevent']
    rfl
  have hstep : (u.port (portNum p)).step = .active := by
    have hsame : u.port (portNum p) = (s.modCls (portNum p) c.val resent).port (portNum p) := by
      rw [← hu]
      unfold replayed
      rw [raise_event hevent, raise_event hevent']
      rfl
    rw [hsame, (modCls_parts ..).2.1]
    exact hup
  rw [linkPortReset_next u hstep (by rw [hparts]; exact hreset) (by rw [hparts]; exact hrestart)] at hexec
  have hhalt : FaultsGrow u (portHalted u (portNum p)) := clearEntries_grows (anyReset_grows grows_refl)
  have hports : PortsKept u (portHalted u (portNum p)) := by
    obtain ⟨e, he⟩ := clearEntries_parts (s := anyReset u) (portBlock (portNum p))
    unfold portHalted
    rw [he]
    exact ports_mk rfl anyReset_ports
  generalize portHalted u (portNum p) = v at hexec hhalt hports
  have hhstep : (v.port (portNum p)).step = .active := by
    unfold PortsKept at hports
    have hrest := congrFun hports (portNum p)
    have hs := congrArg (fun q : LinkPort => q.step) hrest
    exact Eq.trans hs hstep
  obtain ⟨m, hreset⟩ := linkReset_active v (portNum_lt p) hhstep
  obtain ⟨w, hw⟩ := hreset.waits
  have hgrow : ∀ d ∈ u.flt.waiting, d ∈ (linkReset v (portNum p)).flt.waiting := fun d hd => by
    rw [hw]
    exact List.mem_append_left _ ((grows_waiting hhalt).subset hd)
  have hown := hreset.port
  have hstep' := congrArg (fun q : LinkPort => q.step) hown
  have hreq' := congrArg (fun q : LinkPort => q.resetReq) hown
  refine ⟨_, hexec, Eq.trans hstep' ?_, hreq', by rw [hreset.own], ?_, ?_, hreset.down⟩
  · show (if (v.port (portNum p)).step = .off then PortStep.off else .detect) = .detect
    rw [hhstep]
    rfl
  · obtain ⟨d, hd, hp⟩ := hsecond
    exact ⟨d, hgrow d hd, hp⟩
  · obtain ⟨d, hd, hp⟩ := hthird
    exact ⟨d, hgrow d hd, hp⟩

/-! Credit. -/

theorem creditTimeout_none {p : Port} {c : Fin 4} (h : (s.port (portNum p)).step ≠ .active ∨ 0 < creditOf (s.cls (portNum p) c.val) c.val ∨ (s.cls (portNum p) c.val).starved = true ∨
      (s.cls (portNum p) c.val).queue = [] ∧ (s.cls (portNum p) c.val).sending = []) : exec (.creditTimeout p c) s = .next s := by
  refine congrArg Host.Outcome.next (if_neg ?_)
  rintro ⟨hup, hwaits, hzero, hfed⟩
  rcases h with h | h | h | ⟨hq, hs⟩
  · exact h hup
  · omega
  · exact absurd (hfed.symm.trans h) Bool.false_ne_true
  · rw [hq, hs] at hwaits
    exact absurd hwaits (by decide)

theorem creditTimeout_starves {p : Port} {c : Fin 4} (hup : (s.port (portNum p)).step = .active) (hwaits : (s.cls (portNum p) c.val).queue ≠ [] ∨ (s.cls (portNum p) c.val).sending ≠ [])
    (hzero : creditOf (s.cls (portNum p) c.val) c.val = 0) (hfed : (s.cls (portNum p) c.val).starved = false) :
    ∃ t, exec (.creditTimeout p c) s = .next t ∧ t.cls (portNum p) c.val = { s.cls (portNum p) c.val with starved := true } ∧
      (∀ k, k ≠ c.val → t.cls (portNum p) k = s.cls (portNum p) k) ∧ t.port (portNum p) = { s.port (portNum p) with cls := (t.port (portNum p)).cls } ∧
      t.port (1 - portNum p) = s.port (1 - portNum p) ∧ (t.fblk (0x16 + portNum p)).live.getLsbD 4 = true ∧ (∀ k, k ≠ 0x16 + portNum p → t.fblk k = s.fblk k) ∧
      t = { s with link := { s.link with port := t.link.port }, flt := { s.flt with block := t.flt.block, waiting := s.flt.waiting ++ [{ block := 0x16 + portNum p, source := 4, d0 := w16 c.val, d1 := 0, forced := false, stamp := f3 s.now }] } } := by
  have hsome : (!(s.cls (portNum p) c.val).sending.isEmpty || !(s.cls (portNum p) c.val).queue.isEmpty) = true := by
    cases hs : (s.cls (portNum p) c.val).sending with
    | cons => rfl
    | nil =>
      cases hq : (s.cls (portNum p) c.val).queue with
      | cons => rfl
      | nil => exact absurd hwaits (fun h => h.elim (fun h => h hq) fun h => h hs)
  have hexec : exec (.creditTimeout p c) s = .next ((s.modCls (portNum p) c.val (fun q => { q with starved := true })).raise (portBlock (portNum p)) 4 c.val) :=
    congrArg Host.Outcome.next (if_pos ⟨hup, hsome, hzero, hfed⟩)
  obtain ⟨-, -, hcond⟩ := replay_event (portNum_lt p)
  obtain ⟨hparts, hport, hother⟩ := modCls_parts s (portNum p) c.val (fun q => { q with starved := true })
  have hown : (s.modCls (portNum p) c.val (fun q => { q with starved := true })).cls (portNum p) c.val = { s.cls (portNum p) c.val with starved := true } := (modCls_cls ..).trans (if_pos rfl)
  have hothers : ∀ k, k ≠ c.val → (s.modCls (portNum p) c.val (fun q => { q with starved := true })).cls (portNum p) k = s.cls (portNum p) k := fun k hk => (modCls_cls ..).trans (if_neg hk)
  generalize s.modCls (portNum p) c.val (fun q => { q with starved := true }) = v at hexec hparts hport hother hown hothers
  have hlive := raise_live (k := portBlock (portNum p)) v c.val 0 (show 4 < 64 by decide) hcond
  have hraise : v.raise (portBlock (portNum p)) 4 c.val = { v with flt := { v.flt with block := (v.raise (portBlock (portNum p)) 4 c.val).flt.block, waiting := v.flt.waiting ++ [{ block := 0x16 + portNum p, source := 4, d0 := w16 c.val, d1 := 0, forced := false, stamp := f3 v.now }] } } := by
    unfold State.raise
    rw [hcond]
    rfl
  have hblocks : ∀ k, k ≠ 0x16 + portNum p → (v.raise (portBlock (portNum p)) 4 c.val).fblk k = v.fblk k := fun k hk => by
    unfold State.raise
    rw [hcond]
    exact live_eq v _ 4 true k hk
  have hlink : (v.raise (portBlock (portNum p)) 4 c.val).link = v.link := by rw [hraise]
  have hport' : ∀ k, (v.raise (portBlock (portNum p)) 4 c.val).port k = v.port k := fun k => by
    unfold State.port
    rw [hlink]
  have hcls' : ∀ k, (v.raise (portBlock (portNum p)) 4 c.val).cls (portNum p) k = v.cls (portNum p) k := fun k => by
    unfold State.cls
    rw [hport']
  generalize v.raise (portBlock (portNum p)) 4 c.val = t at hexec hlive hraise hblocks hlink hport' hcls'
  refine ⟨t, hexec, (hcls' _).trans hown, fun k hk => (hcls' k).trans (hothers k hk), by rw [hport']; exact hport, (hport' _).trans (hother _ (other_ne (portNum_lt p))), hlive,
    fun k hk => (hblocks k hk).trans (by rw [hparts]; rfl), ?_⟩
  rw [hlink]
  rw [hparts] at hraise
  exact hraise

end

end Sys2Proof.Machine
end

section
/-! PROOFS. O43, continued: the LINK_CTRL flits that a port sends, and the obligation. -/

set_option Elab.async false

namespace Sys2Proof.Machine

/-! Fields of a flit. -/

theorem msgNum_skip {a l : List Byte} {k : Nat} (ha : a.length = k) (off n : Nat) : msgNum (a ++ l) (k + off) n = msgNum l off n := by
  unfold msgNum
  rw [← List.drop_drop, List.drop_left' ha]

theorem msgNum_head (n v : Nat) (b : List Byte) : msgNum (toBytes n v ++ b) 0 n = v % 256 ^ n := by
  unfold msgNum
  rw [List.drop_zero, List.take_left' (length_toBytes n v), ofBytes_toBytes]

/-- Word `i` of a run of words. -/
theorem msgNum_words (ws : List Nat) (r : List Byte) {i : Nat} (h : i < ws.length) : msgNum (ws.flatMap (toBytes 2) ++ r) (2 * i) 2 = ws[i] % 65536 := by
  induction ws generalizing i with
  | nil => exact absurd h (Nat.not_lt_zero i)
  | cons w ws ih =>
    rw [List.flatMap_cons, List.append_assoc]
    cases i with
    | zero => exact msgNum_head 2 w _
    | succ i =>
      rw [show 2 * (i + 1) = 2 + 2 * i by omega, msgNum_skip (length_toBytes 2 w)]
      exact ih (Nat.lt_of_succ_lt_succ h)

theorem length_words (ws : List Nat) : (ws.flatMap (toBytes 2)).length = 2 * ws.length := by
  induction ws with
  | nil => rfl
  | cons w ws ih => rw [List.flatMap_cons, List.length_append, length_toBytes, ih, List.length_cons]; omega

/-- The payload of a flit, read from the whole flit. -/
theorem msgNum_flitBytes {cls seq ftype : Nat} {som eom : Bool} {l : List Byte} (hl : l.length = 26) (off n : Nat) (h : off + n ≤ 26) :
    msgNum (flitBytes cls seq ftype som eom l) (2 + off) n = msgNum l off n := by
  have hpad : (padTo 26 l).take 26 = l := by
    unfold padTo
    rw [hl]
    exact List.take_left' hl
  unfold flitBytes msgNum
  dsimp only
  rw [hpad, List.append_assoc, ← List.drop_drop, List.drop_left' (length_toBytes 2 _), List.drop_append_of_le_length (by omega),
    List.take_append_of_le_length (by rw [List.length_drop]; omega)]

theorem length_flitBytes {cls seq ftype : Nat} {som eom : Bool} {l : List Byte} (hl : l.length = 26) : (flitBytes cls seq ftype som eom l).length = 32 := by
  unfold flitBytes padTo
  dsimp only
  rw [List.length_append, List.length_append, length_toBytes, length_toBytes, List.length_take, List.length_append, List.length_replicate, hl]
  rfl

/-- ACK words, CRD words, type, address and stamp of a LINK_CTRL flit. -/
def ctrlPayload (s : State) (p t stamp : Nat) : List Byte :=
  [0, 1, 2, 3].flatMap (fun c => toBytes 2 ((s.cls p c).rxSeq + flag 15 (s.cls p c).nak)) ++ [0, 1, 2, 3].flatMap (fun c => toBytes 2 (s.cls p c).rxFreed) ++
    [b8 t, b8 s.link.addr] ++ toBytes 8 stamp

/-- The ACK and CRD words of a LINK_CTRL flit. -/
def ctrlWords (s : State) (p : Nat) : List Nat :=
  [(s.cls p 0).rxSeq + flag 15 (s.cls p 0).nak, (s.cls p 1).rxSeq + flag 15 (s.cls p 1).nak, (s.cls p 2).rxSeq + flag 15 (s.cls p 2).nak, (s.cls p 3).rxSeq + flag 15 (s.cls p 3).nak,
    (s.cls p 0).rxFreed, (s.cls p 1).rxFreed, (s.cls p 2).rxFreed, (s.cls p 3).rxFreed]

theorem ctrlPayload_eq (s : State) (p t stamp : Nat) : ctrlPayload s p t stamp =
    (ctrlWords s p).flatMap (toBytes 2) ++ (toBytes 1 t ++ (toBytes 1 s.link.addr ++ (toBytes 8 stamp ++ []))) := by
  have hone : ∀ v, toBytes 1 v = [b8 v] := fun v => rfl
  unfold ctrlPayload ctrlWords
  rw [hone, hone]
  simp only [List.flatMap_cons, List.flatMap_nil, List.append_assoc, List.append_nil, List.cons_append, List.nil_append]

theorem length_ctrlPayload (s : State) (p t stamp : Nat) : (ctrlPayload s p t stamp).length = 26 := by
  rw [ctrlPayload_eq, List.length_append, length_words]
  simp only [List.length_append, length_toBytes, List.length_nil]
  rfl

theorem flag_fifteen (b : Bool) : flag 15 b = if b then 32768 else 0 := rfl

/-- The words of a LINK_CTRL flit. -/
theorem ctrlPayload_fields (s : State) (p t stamp : Nat) :
    (∀ c, c < 4 → msgNum (ctrlPayload s p t stamp) (2 * c) 2 = ((s.cls p c).rxSeq + if (s.cls p c).nak then 32768 else 0) % 65536 ∧
      msgNum (ctrlPayload s p t stamp) (8 + 2 * c) 2 = (s.cls p c).rxFreed % 65536) ∧
    msgNum (ctrlPayload s p t stamp) 16 1 = t % 256 ∧ msgNum (ctrlPayload s p t stamp) 18 8 = stamp % 2 ^ 64 := by
  rw [ctrlPayload_eq]
  have hlen : ((ctrlWords s p).flatMap (toBytes 2)).length = 16 := (length_words _).trans rfl
  refine ⟨fun c hc => ?_, ?_, ?_⟩
  · have hack := msgNum_words (ctrlWords s p) (toBytes 1 t ++ (toBytes 1 s.link.addr ++ (toBytes 8 stamp ++ []))) (i := c) (show c < 8 by omega)
    have hcrd := msgNum_words (ctrlWords s p) (toBytes 1 t ++ (toBytes 1 s.link.addr ++ (toBytes 8 stamp ++ []))) (i := 4 + c) (show 4 + c < 8 by omega)
    rw [show 8 + 2 * c = 2 * (4 + c) by omega, hack, hcrd]
    obtain rfl | rfl | rfl | rfl : c = 0 ∨ c = 1 ∨ c = 2 ∨ c = 3 := by omega
    · exact ⟨rfl, rfl⟩
    · exact ⟨rfl, rfl⟩
    · exact ⟨rfl, rfl⟩
    · exact ⟨rfl, rfl⟩
  · exact (msgNum_skip hlen 0 1).trans (msgNum_head 1 t _)
  · exact (msgNum_skip hlen 2 8).trans ((msgNum_skip (length_toBytes 1 t) 1 8).trans ((msgNum_skip (length_toBytes 1 _) 0 8).trans (msgNum_head 8 stamp _)))

/-! A flit sent. -/

/-- The flit on the lanes. -/
def ctrlFlit (s : State) (p t stamp : Nat) : List Byte := flitBytes 0 0 1 false false (ctrlPayload s p t stamp)

theorem ctrlFlit_fields (s : State) (p t stamp : Nat) :
    (∀ c, c < 4 → msgNum (ctrlFlit s p t stamp) (2 + 2 * c) 2 = ((s.cls p c).rxSeq + if (s.cls p c).nak then 32768 else 0) % 65536 ∧
      msgNum (ctrlFlit s p t stamp) (10 + 2 * c) 2 = (s.cls p c).rxFreed % 65536) ∧
    (ctrlFlit s p t stamp).length = 32 ∧ msgNum (ctrlFlit s p t stamp) 18 1 = t % 256 ∧ msgNum (ctrlFlit s p t stamp) 20 8 = stamp % 2 ^ 64 := by
  have hlen := length_ctrlPayload s p t stamp
  obtain ⟨hwords, htype, hstamp⟩ := ctrlPayload_fields s p t stamp
  refine ⟨fun c hc => ⟨?_, ?_⟩, length_flitBytes hlen, (msgNum_flitBytes hlen 16 1 (by decide)).trans htype, (msgNum_flitBytes hlen 18 8 (by decide)).trans hstamp⟩
  · exact (msgNum_flitBytes hlen (2 * c) 2 (by omega)).trans (hwords c hc).1
  · rw [show 10 + 2 * c = 2 + (8 + 2 * c) by omega]
    exact (msgNum_flitBytes hlen (8 + 2 * c) 2 (by omega)).trans (hwords c hc).2

/-- Port `p` of `u` is that of `s` after it has sent the LINK_CTRL flit `w`. -/
structure CtrlSent (s : State) (p : Nat) (w : List Byte) (u : State) : Prop where
  cls : ∀ c, c < 4 → u.cls p c = { s.cls p c with nak := false }
  port : u.port p = { s.port p with cls := (u.port p).cls, wire := w, ctrlWaits := false, ctrlDue := false }
  other : ∀ k, k ≠ p → u.port k = s.port k
  parts : u = { s with link := { s.link with port := u.link.port } }

theorem foldl_unnak (p : Nat) (l : List Nat) (hl : l.Nodup) (s : State) :
    let u := l.foldl (fun s c => s.modCls p c (fun q => { q with nak := false })) s
    (∀ c, u.cls p c = if c ∈ l then { s.cls p c with nak := false } else s.cls p c) ∧ u.port p = { s.port p with cls := (u.port p).cls } ∧ (∀ k, k ≠ p → u.port k = s.port k) ∧
      u = { s with link := { s.link with port := u.link.port } } := by
  dsimp only
  refine ⟨fun c => foldl_keyed (get := fun s c => s.cls p c) (f := fun _ q => { q with nak := false }) (fun s c k => modCls_cls ..) hl s c, ?_⟩
  induction l generalizing s with
  | nil => exact ⟨rfl, fun _ _ => rfl, rfl⟩
  | cons c l ih =>
    obtain ⟨hparts, hport, hother⟩ := modCls_parts s p c (fun q => { q with nak := false })
    rw [List.foldl_cons]
    generalize s.modCls p c (fun q => { q with nak := false }) = v at hparts hport hother
    obtain ⟨ihport, ihother, ihparts⟩ := ih (List.nodup_cons.1 hl).2 v
    generalize l.foldl (fun s c => s.modCls p c (fun q => { q with nak := false })) v = u at ihport ihother ihparts
    refine ⟨by rw [ihport, hport], fun k hk => (ihother k hk).trans (hother k hk), ?_⟩
    rw [hparts] at ihparts
    exact ihparts

theorem sendCtrl_sent (s : State) (p t stamp : Nat) : CtrlSent s p (ctrlFlit s p t stamp) (sendCtrl s p t stamp) := by
  obtain ⟨hcls, hport, hother, hparts⟩ := foldl_unnak p [0, 1, 2, 3] four_nodup s
  have hsend : sendCtrl s p t stamp = ([0, 1, 2, 3].foldl (fun s c => s.modCls p c (fun q => { q with nak := false })) s).modPort p (fun q => { q with wire := ctrlFlit s p t stamp, ctrlWaits := false, ctrlDue := false }) := rfl
  rw [hsend]
  generalize ctrlFlit s p t stamp = w
  generalize [0, 1, 2, 3].foldl (fun s c => s.modCls p c (fun q => { q with nak := false })) s = v at hcls hport hother hparts
  have hown : (v.modPort p (fun q => { q with wire := w, ctrlWaits := false, ctrlDue := false })).port p = { v.port p with wire := w, ctrlWaits := false, ctrlDue := false } := samePort ..
  refine ⟨fun c hc => ?_, ?_, fun k hk => ((State.modPort_port ..).trans (if_neg hk)).trans (hother k hk), ?_⟩
  · have hv := hcls c
    rw [if_pos (mem_four hc)] at hv
    unfold State.cls at hv ⊢
    rw [hown]
    exact hv
  · rw [hown, hport]
  · exact congrArg (fun x : State => { x with link := { x.link with port := (v.modPort p (fun q => { q with wire := w, ctrlWaits := false, ctrlDue := false })).link.port } }) hparts

section
variable {s : State}

theorem ctrlDue_none {p : Port} (h : (s.port (portNum p)).step ≠ .active ∨ (s.port (portNum p)).ctrlWaits = false) : exec (.linkCtrlDue p) s = .next s := by
  refine congrArg Host.Outcome.next (if_neg ?_)
  rintro ⟨hup, hwaits⟩
  rcases h with h | h
  · exact h hup
  · exact absurd (h.symm.trans hwaits) Bool.false_ne_true

theorem ctrlDue_later {p : Port} (hup : (s.port (portNum p)).step = .active) (hwaits : (s.port (portNum p)).ctrlWaits = true) (hready : flitReady s (portNum p) 0 = true) :
    exec (.linkCtrlDue p) s = .next (s.modPort (portNum p) (fun q => { q with ctrlDue := true })) :=
  congrArg Host.Outcome.next ((if_pos ⟨hup, hwaits⟩).trans (if_pos hready))

theorem ctrlDue_sends {p : Port} (hup : (s.port (portNum p)).step = .active) (hwaits : (s.port (portNum p)).ctrlWaits = true) (hready : flitReady s (portNum p) 0 = false) :
    ∃ t, exec (.linkCtrlDue p) s = .next t ∧ t.clk.time = max s.clk.time (((s.port (portNum p)).slot + 3) / 4) ∧
      (∀ c, c < 4 → t.cls (portNum p) c = { s.cls (portNum p) c with nak := false } ∧
        msgNum (t.port (portNum p)).wire (2 + 2 * c) 2 = ((s.cls (portNum p) c).rxSeq + if (s.cls (portNum p) c).nak then 32768 else 0) % 65536 ∧
        msgNum (t.port (portNum p)).wire (10 + 2 * c) 2 = (s.cls (portNum p) c).rxFreed % 65536) ∧
      (t.port (portNum p)).wire.length = 32 ∧ msgNum (t.port (portNum p)).wire 18 1 = 0 ∧ t.port (1 - portNum p) = s.port (1 - portNum p) ∧
      t.port (portNum p) = { s.port (portNum p) with cls := (t.port (portNum p)).cls, wire := (t.port (portNum p)).wire, ctrlWaits := false, ctrlDue := false, slot := max ((s.port (portNum p)).slot + flitTime (s.port (portNum p)).width) (4 * t.clk.time) } ∧
      t = { s with clk := { s.clk with time := t.clk.time }, link := { s.link with port := t.link.port } } := by
  have hexec : exec (.linkCtrlDue p) s = .next (slotTaken (sendCtrl (s.reach (((s.port (portNum p)).slot + 3) / 4)) (portNum p) 0 0) (portNum p)) :=
    congrArg Host.Outcome.next ((if_pos ⟨hup, hwaits⟩).trans (if_neg (by rw [hready]; exact Bool.false_ne_true)))
  unfold State.reach at hexec
  generalize max s.clk.time (((s.port (portNum p)).slot + 3) / 4) = T at hexec ⊢
  have hsent := sendCtrl_sent { s with clk := { s.clk with time := T } } (portNum p) 0 0
  obtain ⟨hwords, hlen, htype, -⟩ := ctrlFlit_fields { s with clk := { s.clk with time := T } } (portNum p) 0 0
  generalize ctrlFlit { s with clk := { s.clk with time := T } } (portNum p) 0 0 = w at hsent hwords hlen htype
  generalize sendCtrl { s with clk := { s.clk with time := T } } (portNum p) 0 0 = v at hsent hexec
  have htime : v.clk.time = T := by rw [hsent.parts]
  have hslot : slotTaken v (portNum p) = v.modPort (portNum p) (fun q => { q with slot := max (q.slot + flitTime q.width) (4 * T) }) := by
    unfold slotTaken
    rw [show v.now = T from htime]
  rw [hslot] at hexec
  have hown : (v.modPort (portNum p) (fun q => { q with slot := max (q.slot + flitTime q.width) (4 * T) })).port (portNum p) =
      { s.port (portNum p) with cls := (v.port (portNum p)).cls, wire := w, ctrlWaits := false, ctrlDue := false, slot := max ((s.port (portNum p)).slot + flitTime (s.port (portNum p)).width) (4 * T) } := by
    rw [samePort, hsent.port]
    rfl
  have hothers : ∀ k, k ≠ portNum p → (v.modPort (portNum p) (fun q => { q with slot := max (q.slot + flitTime q.width) (4 * T) })).port k = s.port k := fun k hk =>
    ((State.modPort_port ..).trans (if_neg hk)).trans (hsent.other k hk)
  have hparts : v.modPort (portNum p) (fun q => { q with slot := max (q.slot + flitTime q.width) (4 * T) }) = { s with clk := { s.clk with time := T }, link := { s.link with port := (v.modPort (portNum p) (fun q => { q with slot := max (q.slot + flitTime q.width) (4 * T) })).link.port } } :=
    congrArg (fun x : State => { x with link := { x.link with port := (v.modPort (portNum p) (fun q => { q with slot := max (q.slot + flitTime q.width) (4 * T) })).link.port } }) hsent.parts
  generalize v.modPort (portNum p) (fun q => { q with slot := max (q.slot + flitTime q.width) (4 * T) }) = t at hexec hown hothers hparts
  have httime : t.clk.time = T := by rw [hparts]
  have hcls : ∀ c, t.cls (portNum p) c = v.cls (portNum p) c := fun c => by
    unfold State.cls
    rw [hown]
  refine ⟨t, hexec, httime, fun c hc => ⟨(hcls c).trans (hsent.cls c hc), ?_, ?_⟩, ?_, ?_, hothers _ (other_ne (portNum_lt p)), ?_, ?_⟩
  · rw [hown]
    exact (hwords c hc).1
  · rw [hown]
    exact (hwords c hc).2
  · rw [hown]
    exact hlen
  · rw [hown]
    exact htype
  · rw [httime, hown]
  · rw [httime]
    exact hparts

theorem delayExchange_none {d : Nat} (h : (s.port 0).step ≠ .active) : exec (.delayExchangeTimer d) s = .next s := congrArg Host.Outcome.next (if_neg h)

theorem timeCheckTimer_none {d : Nat} (h : (s.port 1).step ≠ .active) : exec (.timeCheckTimer d) s = .next s := congrArg Host.Outcome.next (if_neg h)

theorem delayExchange_sends {d : Nat} (hup : (s.port 0).step = .active) : ∃ t, exec (.delayExchangeTimer d) s = .next t ∧
      msgNum (t.port 0).wire 18 1 = 1 ∧ t.clk.time = max s.clk.time (d / 256) ∧ (∀ c, c < 4 → t.cls 0 c = { s.cls 0 c with nak := false }) ∧
      t.port 0 = { s.port 0 with cls := (t.port 0).cls, wire := (t.port 0).wire, ctrlWaits := false, ctrlDue := false } ∧ t.port 1 = s.port 1 ∧
      t = { s with clk := { s.clk with time := t.clk.time }, link := { s.link with port := t.link.port, delayReq := some d } } := by
  have hexec : exec (.delayExchangeTimer d) s = .next (let v := sendCtrl (s.reach (d / 256)) 0 1 0
      { v with link := { v.link with delayReq := some d } }) := congrArg Host.Outcome.next (if_pos hup)
  unfold State.reach at hexec
  generalize max s.clk.time (d / 256) = T at hexec ⊢
  have hsent := sendCtrl_sent { s with clk := { s.clk with time := T } } 0 1 0
  obtain ⟨-, -, htype, -⟩ := ctrlFlit_fields { s with clk := { s.clk with time := T } } 0 1 0
  generalize ctrlFlit { s with clk := { s.clk with time := T } } 0 1 0 = w at hsent htype
  generalize sendCtrl { s with clk := { s.clk with time := T } } 0 1 0 = v at hsent hexec
  have htime : v.clk.time = T := by rw [hsent.parts]
  have hwire : (v.port 0).wire = w := by rw [hsent.port]
  refine ⟨_, hexec, ?_, htime, hsent.cls, ?_, hsent.other 1 (by decide), ?_⟩
  · show msgNum (v.port 0).wire 18 1 = 1
    rw [hwire]
    exact htype
  · show v.port 0 = { s.port 0 with cls := (v.port 0).cls, wire := (v.port 0).wire, ctrlWaits := false, ctrlDue := false }
    rw [hwire]
    exact hsent.port
  · dsimp only
    rw [htime]
    exact congrArg (fun x : State => { x with link := { x.link with delayReq := some d } }) hsent.parts

theorem timeCheckTimer_sends {d : Nat} (hup : (s.port 1).step = .active) : ∃ t, exec (.timeCheckTimer d) s = .next t ∧ msgNum (t.port 1).wire 18 1 = 4 ∧
      msgNum (t.port 1).wire 20 8 = d % 2 ^ 64 ∧ t.clk.time = max s.clk.time (d / 256) ∧ (∀ c, c < 4 → t.cls 1 c = { s.cls 1 c with nak := false }) ∧
      t.port 1 = { s.port 1 with cls := (t.port 1).cls, wire := (t.port 1).wire, ctrlWaits := false, ctrlDue := false } ∧ t.port 0 = s.port 0 ∧
      t = { s with clk := { s.clk with time := t.clk.time }, link := { s.link with port := t.link.port } } := by
  have hexec : exec (.timeCheckTimer d) s = .next (sendCtrl (s.reach (d / 256)) 1 4 (d % two64)) := congrArg Host.Outcome.next (if_pos hup)
  unfold State.reach at hexec
  generalize max s.clk.time (d / 256) = T at hexec ⊢
  have hsent := sendCtrl_sent { s with clk := { s.clk with time := T } } 1 4 (d % two64)
  obtain ⟨-, -, htype, hstamp⟩ := ctrlFlit_fields { s with clk := { s.clk with time := T } } 1 4 (d % two64)
  generalize ctrlFlit { s with clk := { s.clk with time := T } } 1 4 (d % two64) = w at hsent htype hstamp
  generalize sendCtrl { s with clk := { s.clk with time := T } } 1 4 (d % two64) = v at hsent hexec
  have htime : v.clk.time = T := by rw [hsent.parts]
  have hwire : (v.port 1).wire = w := by rw [hsent.port]
  refine ⟨_, hexec, by rw [hwire]; exact htype, ?_, htime, hsent.cls, by rw [hwire]; exact hsent.port, hsent.other 0 (by decide), by rw [htime]; exact hsent.parts⟩
  rw [hwire, hstamp]
  exact Nat.mod_mod _ _

end

/-- Settles O43: one lemma for each outcome of a flit, a replay and a timer. -/
theorem linkFlits : Obligations.LinkFlits := by
  unfold Obligations.LinkFlits
  refine ⟨?_, ?_, ?_, ?_, ?_, ?_, ?_, ?_, ?_, ?_, ?_, ?_, ?_, ?_, ?_, ?_, ?_, ?_, ?_, ?_, ?_, ?_, ?_, ?_⟩
  · exact fun p f ok s h => dataFlit_none h
  · exact fun p f s hup hgood htype hseq hsom heom hin => dataFlit_first hup hgood htype hseq hsom heom hin
  · exact fun p f s hup hgood htype hseq hsom heom hin => dataFlit_next hup hgood htype hseq hsom heom hin
  · exact fun f s i hup hgood htype hcls hseq hsom heom hin hfits hvalid haddr hdest hclass hurgent hmark hreq hpert =>
      dataFlit_whole hup hgood htype hcls hseq hsom heom hin hfits hvalid haddr hdest hclass hurgent hmark hreq hpert
  · exact fun p f s hup hgood htype hahead => dataFlit_ahead hup hgood htype hahead
  · exact fun p f s hup hgood htype hne hbehind => dataFlit_behind hup hgood htype hne hbehind
  · exact fun p f a s h => ctrl_none h
  · exact fun f at' s hup hgood htype hkind hnak => ctrl_acks hup hgood htype hkind hnak
  · exact fun f at' s hup hgood htype hkind => (ctrl_measure hup hgood htype).trans (by rw [ctrlActs_delayReq hkind])
  · exact fun f at' t1 s hup hgood htype hkind hnak hreq => ctrl_delay hup hgood htype hkind hnak hreq
  · exact fun f at' s hup hgood htype hkind => (ctrl_measure hup hgood htype).trans (by rw [ctrlActs_reset hkind])
  · exact fun f at' s v hup hgood htype hkind hnak hv hlo hhi => ctrl_timeCheck hup hgood htype hkind hnak hv hlo hhi
  · exact fun p c s hup hne hfew => replayTimeout_again hup hne hfew
  · exact fun p c s hup hne hmany hreset hrestart => replayTimeout_resets hup hne hmany hreset hrestart
  · exact fun p c s h => replayTimeout_none h
  · exact fun p c s hup hwaits hzero hfed => creditTimeout_starves hup hwaits hzero hfed
  · exact fun p c s h => creditTimeout_none h
  · exact fun p s hup hwaits hready => ctrlDue_sends hup hwaits hready
  · exact fun p s hup hwaits hready => ctrlDue_later hup hwaits hready
  · exact fun p s h => ctrlDue_none h
  · exact fun d s hup => delayExchange_sends hup
  · exact fun d s h => delayExchange_none h
  · exact fun d s hup => timeCheckTimer_sends hup
  · exact fun d s h => timeCheckTimer_none h

end Sys2Proof.Machine
end

section
/-! PROOFS. How a block registers faults (R509, R515): which detections register in a cycle and in what order, what the registration of
one fault leaves in the block's record, and what it does beside, where its word asks for no cloche. -/

set_option Elab.async false
set_option linter.unusedVariables false

namespace Sys2Proof.Machine

variable (s : State)

/-! Which faults register, and in what order (R509, R515). -/

theorem exists_oldest (l : List Detect) (h : l ≠ []) : ∃ d, l.find? (fun d => l.all (fun e => decide (d.stamp ≤ e.stamp))) = some d := by
  have hmin : ∃ d ∈ l, ∀ e ∈ l, d.stamp ≤ e.stamp := by
    induction l with
    | nil => exact absurd rfl h
    | cons a l ih =>
      by_cases hl : l = []
      · subst hl
        exact ⟨a, List.mem_singleton.2 rfl, fun e he => by rw [List.mem_singleton.1 he]⟩
      obtain ⟨d, hd, hle⟩ := ih hl
      rcases Nat.le_total a.stamp d.stamp with had | had
      · exact ⟨a, List.mem_cons_self, List.forall_mem_cons.2 ⟨Nat.le_refl _, fun e he => had.trans (hle e he)⟩⟩
      · exact ⟨d, List.mem_cons_of_mem _ hd, List.forall_mem_cons.2 ⟨had, hle⟩⟩
  obtain ⟨d, hd, hle⟩ := hmin
  refine Option.isSome_iff_exists.1 (List.find?_isSome.2 ⟨d, hd, List.all_eq_true.2 fun e he => decide_eq_true (hle e he)⟩)

/-- Nothing registers where nothing waits for the block. -/
theorem registering_eq_nil {k : Nat} : registering s k = [] ↔ s.flt.waiting.filter (fun d => decide (d.block = k)) = [] := by
  unfold registering
  dsimp only
  constructor
  · intro h
    by_contra hne
    obtain ⟨d, hd⟩ := exists_oldest _ hne
    rw [hd] at h
    exact List.filter_eq_nil_iff.1 h d (List.mem_of_find?_eq_some hd) (decide_eq_true rfl)
  · intro h
    rw [h]
    rfl

theorem mem_registering {k : Nat} {d : Detect} (h : d ∈ registering s k) : d.block = k := by
  unfold registering at h
  dsimp only at h
  split at h
  · exact nomatch h
  · exact of_decide_eq_true (List.mem_filter.1 (List.mem_filter.1 h).1).2

/-- The one fault that comes to a block for which none waited registers alone. -/
theorem registering_alone {k : Nat} {t : State} {d : Detect} (hnone : registering s k = []) (hd : d.block = k) (hwait : t.flt.waiting = s.flt.waiting ++ [d]) :
    registering t k = [d] := by
  have hl : t.flt.waiting.filter (fun d => decide (d.block = k)) = [d] := by
    rw [hwait, List.filter_append, (registering_eq_nil s).1 hnone]
    simp [hd]
  unfold registering
  rw [hl]
  simp

/-- `d` registers before `e` (R515). -/
def RanksFirst (k : Nat) (d e : Detect) : Prop :=
  srcSev k e.source < srcSev k d.source ∨ (srcSev k e.source = srcSev k d.source ∧ d.source < e.source)

theorem flatMap_source (e : Detect) (n : Nat) :
    (List.range n).flatMap (fun n => [e].filter (fun e => decide (e.source = n))) = if e.source < n then [e] else [] := by
  induction n with
  | zero => rfl
  | succ n ih =>
    rw [List.range_succ, List.flatMap_append, ih, List.flatMap_singleton]
    by_cases h : e.source = n
    · rw [if_neg (by omega), if_pos (by omega)]
      simp [h]
    · by_cases hlt : e.source < n
      · rw [if_pos hlt, if_pos (by omega)]
        simp [h]
      · rw [if_neg hlt, if_neg (by omega)]
        simp [h]

theorem faultOrder_single (k : Nat) (d : Detect) : faultOrder k [d] = [d] := by
  simp [faultOrder, faultFirst]

theorem faultOrder_pair {k : Nat} {d e : Detect} (he : e.source < 64) (h : RanksFirst k d e) {l : List Detect} (hl : l = [d, e] ∨ l = [e, d]) :
    faultOrder k l = [d, e] := by
  have hne : e ≠ d := by
    rintro rfl
    unfold RanksFirst at h
    omega
  have hfirst : faultFirst k l = some d := by
    unfold RanksFirst at h
    have hd : (srcSev k e.source < srcSev k d.source || (decide (srcSev k e.source = srcSev k d.source) && decide (d.source ≤ e.source))) = true := by
      simp only [Bool.or_eq_true, decide_eq_true_eq, Bool.and_eq_true]
      omega
    have hnot : (srcSev k d.source < srcSev k e.source || (decide (srcSev k d.source = srcSev k e.source) && decide (e.source ≤ d.source))) = false := by
      simp only [Bool.or_eq_false_iff, decide_eq_false_iff_not, Bool.and_eq_false_iff]
      omega
    unfold faultFirst
    rcases hl with rfl | rfl
    · simp [hd]
    · simp [hd, hnot]
  have herase : l.erase d = [e] := by
    rcases hl with rfl | rfl
    · simp
    · simp [hne]
  unfold faultOrder
  rw [hfirst]
  dsimp only
  rw [herase, flatMap_source, if_pos he]

/-! Reaction words (R511). -/

theorem reactWord_fields {r : Nat} (hr : r < 8) (e : Bool) {c : Nat} (hc : c < 4) :
    reactOf (reactWord r e c) = r ∧ errnOf (reactWord r e c) = e ∧ clocheOf (reactWord r e c) = c := by
  have h : ∀ r : Fin 8, ∀ e : Bool, ∀ c : Fin 4, reactOf (reactWord r e c) = r ∧ errnOf (reactWord r e c) = e ∧ clocheOf (reactWord r e c) = c := by decide +kernel
  exact h ⟨r, hr⟩ e ⟨c, hc⟩

theorem reactOf_lt (w : Word) : reactOf w < 8 := Nat.mod_lt _ (by decide)

theorem clocheOf_lt (w : Word) : clocheOf w < 4 := Nat.mod_lt _ (by decide)

theorem takenWord_same {w : Word} (h : reactOf w ≠ 4 ∨ s.clk.faultResetEnd = none) : takenWord s w = w := by
  unfold takenWord
  refine if_neg fun hc => ?_
  rcases h with h | h
  · exact h hc.1
  · rw [h] at hc
    exact Bool.false_ne_true hc.2

/-! One fault registers (R515). -/

/-- A block's record when fault `d`, taken as `w`, has registered. -/
def recorded (w : Word) (d : Detect) (b : FaultBlock) : FaultBlock :=
  if b.ffValid then mergeFault w (registerFault d b) else captureFault d w (registerFault d b)

/-- Fault `d` takes its REACT action: the record is free, or holds a weaker one. -/
def strongerFault (w : Word) (b : FaultBlock) : Bool := !b.ffValid || decide (reactOf b.ffReact < reactOf w)

/-- The state when fault `d`, taken as `w`, stands in its block's record, and ERR_N has acted. -/
def faultNoted (w : Word) (d : Detect) : State :=
  noteRegistered (let v := (noteFault s d).modFblk d.block (recorded w d); if errnOf w then fireErrn v else v) d (strongerFault w (s.fblk d.block))

theorem registerOne_eq {d : Detect} {w : Word} (hw : w = s.react d.block d.source) (htaken : takenWord s w = w) :
    registerOne s d = (let v := fireCloche (faultNoted s w d) d (clocheOf w); if strongerFault w (s.fblk d.block) then fireReact v d (reactOf w) else v) := by
  have hrec : ∀ v : State, v.fblk d.block = s.fblk d.block → v.modFblk d.block (fun b => let b := registerFault d b
      if (s.fblk d.block).ffValid then mergeFault w b else captureFault d w b) = v.modFblk d.block (recorded w d) := by
    intro v hv
    have hat : tget (fun _ => ({} : FaultBlock)) v.flt.block d.block = s.fblk d.block := hv
    unfold State.modFblk tmod
    rw [hat]
    rfl
  unfold registerOne
  dsimp only
  rw [← hw, htaken, hrec (noteFault s d) rfl]
  rfl

theorem noteFault_bus (d : Detect) : ∃ r, noteFault s d = { s with bus := { s.bus with recent := r } } := ⟨_, rfl⟩

theorem fireErrn_bus : ∃ r, fireErrn s = { s with bus := { s.bus with errnHold := true, errnPulse := some (s.clk.time + 6400), recent := r } } := ⟨_, rfl⟩

theorem noteRegistered_bus (d : Detect) (fired : Bool) : ∃ r, noteRegistered s d fired = { s with bus := { s.bus with recent := r } } := ⟨_, rfl⟩

theorem faultNoted_parts {w : Word} {d : Detect} : ∃ r, faultNoted s w d = { s with
    bus := { s.bus with errnHold := errnOf w || s.bus.errnHold, errnPulse := if errnOf w then some (s.clk.time + 6400) else s.bus.errnPulse, recent := r }
    flt := { s.flt with block := tmod (fun _ => {}) s.flt.block d.block (recorded w d) } } := by
  unfold faultNoted
  dsimp only
  obtain ⟨r, hr⟩ := noteFault_bus s d
  rw [hr]
  cases errnOf w
  · obtain ⟨r', hr'⟩ := noteRegistered_bus (({ s with bus := { s.bus with recent := r } } : State).modFblk d.block (recorded w d)) d (strongerFault w (s.fblk d.block))
    exact ⟨r', hr'⟩
  · obtain ⟨r', hr'⟩ := fireErrn_bus (({ s with bus := { s.bus with recent := r } } : State).modFblk d.block (recorded w d))
    rw [if_pos rfl, hr']
    exact noteRegistered_bus _ d _

theorem faultNoted_fblk (w : Word) (d : Detect) (j : Nat) : (faultNoted s w d).fblk j = if j = d.block then recorded w d (s.fblk d.block) else s.fblk j := by
  obtain ⟨r, h⟩ := faultNoted_parts s (w := w) (d := d)
  rw [h]
  exact State.modFblk_fblk ..

/-- A fault whose word asks for no cloche and no reaction only stands in its block's record. -/
theorem registerOne_quiet {d : Detect} {w : Word} (hw : w = s.react d.block d.source) (hreact : reactOf w ≤ 1) (hcloche : clocheOf w = 0) :
    registerOne s d = faultNoted s w d := by
  rw [registerOne_eq s hw (takenWord_same s (.inl (by omega)))]
  dsimp only
  have hc : fireCloche (faultNoted s w d) d (clocheOf w) = faultNoted s w d := by
    rw [hcloche]
    rfl
  rw [hc]
  split
  · unfold fireReact
    rw [if_neg (by omega), if_neg (by omega), if_neg (by omega)]
  · rfl

/-- A fault whose word asks for no cloche leaves the record, and its REACT action where it is the stronger one. -/
theorem registerOne_reacts {d : Detect} {w : Word} (hw : w = s.react d.block d.source) (htaken : takenWord s w = w) (hcloche : clocheOf w = 0) :
    registerOne s d = if strongerFault w (s.fblk d.block) then fireReact (faultNoted s w d) d (reactOf w) else faultNoted s w d := by
  rw [registerOne_eq s hw htaken]
  dsimp only
  rw [hcloche]
  rfl

/-! A cycle of registrations (R509). -/

/-- The state in which the faults `l` of one cycle begin to register in block `k`. -/
def cycleBegins (k : Nat) (l : List Detect) (stamp : Nat) : State :=
  { s.reach (stamp + regDelay k) with flt := { s.flt with waiting := s.flt.waiting.filter (fun e => !l.contains e) } }

theorem cycleBegins_react (k : Nat) (l : List Detect) (stamp j n : Nat) : (cycleBegins s k l stamp).react j n = s.react j n := rfl

theorem cycleBegins_fblk (k : Nat) (l : List Detect) (stamp j : Nat) : (cycleBegins s k l stamp).fblk j = s.fblk j := rfl

theorem not_contains_single (d e : Detect) : (!([d] : List Detect).contains e) = decide (e ≠ d) := by
  by_cases h : e = d <;> simp [h]

theorem registerCycle_one {k : Nat} {d : Detect} (h : registering s k = [d]) : registerCycle s k = registerOne (cycleBegins s k [d] d.stamp) d := by
  unfold registerCycle
  dsimp only
  rw [h]
  dsimp only
  rw [faultOrder_single]
  rfl

theorem registerCycle_none {k : Nat} (h : registering s k = []) : registerCycle s k = s := by
  unfold registerCycle
  dsimp only
  rw [h]

/-- With a fault that waits, FAULT_REGISTER registers what waits. -/
theorem faultRegister_waits (k : Block) (h : registering s k.val ≠ []) : exec (.faultRegister k []) s = .next (registerCycle s k.val) := by
  have hne : ((registering s k.val).isEmpty : Bool) = false := List.isEmpty_eq_false_iff.2 h
  refine congrArg Host.Outcome.next ?_
  change registerCycle (if (registering s k.val).isEmpty then _ else s) k.val = _
  rw [hne]
  rfl

theorem faultRegister_one (k : Block) {d : Detect} (h : registering s k.val = [d]) :
    exec (.faultRegister k []) s = .next (registerOne (cycleBegins s k.val [d] d.stamp) d) := by
  rw [faultRegister_waits s k (by rw [h]; exact List.cons_ne_nil _ _), registerCycle_one s h]

/-- With nothing that waits and no forced fault, FAULT_REGISTER does nothing. -/
theorem faultRegister_idle (k : Block) (h : registering s k.val = []) (hforce : forceFirst s k.val = none) : exec (.faultRegister k []) s = .next s := by
  refine congrArg Host.Outcome.next ?_
  unfold directFaults
  dsimp only
  rw [h, hforce]
  exact registerCycle_none s h

end Sys2Proof.Machine

end

section
/-! PROOFS of O58, the record: the faults whose word asks for no cloche, forced ones, conditions, and the trap of the shed. -/

set_option Elab.async false
set_option linter.unusedVariables false

namespace Sys2Proof.Machine

variable (s : State)

/-- `t` is `s` with faults registered: chip time, the bus's ERR_N and `waiting` apart, only the fault blocks have moved. -/
def Registered (w : Word) (waiting : List Detect) (t : State) : Prop :=
  t = { s with
    clk := { s.clk with time := t.clk.time }
    bus := { s.bus with errnHold := errnOf w || s.bus.errnHold, errnPulse := if errnOf w then some (t.clk.time + 6400) else s.bus.errnPulse, recent := t.bus.recent }
    flt := { s.flt with waiting := waiting, block := t.flt.block } }

theorem faultNoted_registered (w : Word) (k : Nat) (d : Detect) :
    Registered s w (s.flt.waiting.filter (fun e => decide (e ≠ d))) (faultNoted (cycleBegins s k [d] d.stamp) w d) := by
  have hbegin : cycleBegins s k [d] d.stamp =
      { s.reach (d.stamp + regDelay k) with flt := { s.flt with waiting := s.flt.waiting.filter (fun e => decide (e ≠ d)) } } := by
    unfold cycleBegins
    rw [funext (not_contains_single d)]
  rw [hbegin]
  obtain ⟨r, h⟩ := faultNoted_parts { s.reach (d.stamp + regDelay k) with flt := { s.flt with waiting := s.flt.waiting.filter (fun e => decide (e ≠ d)) } } (w := w) (d := d)
  rw [h]
  rfl

theorem faultNoted_time (w : Word) (k : Nat) (d : Detect) :
    (faultNoted (cycleBegins s k [d] d.stamp) w d).clk.time = max s.clk.time (d.stamp + regDelay k) := by
  obtain ⟨r, h⟩ := faultNoted_parts (cycleBegins s k [d] d.stamp) (w := w) (d := d)
  rw [h]
  rfl

/-- What FAULT_REGISTER does for one fault that asks for no cloche and no reaction. -/
theorem faultRegister_quiet (k : Block) {d : Detect} {w : Word} (h : registering s k.val = [d]) (hw : w = s.react k.val d.source) (hreact : reactOf w ≤ 1)
    (hcloche : clocheOf w = 0) : ∃ t, exec (.faultRegister k []) s = .next t ∧ Registered s w (s.flt.waiting.filter (fun e => decide (e ≠ d))) t ∧
      t.clk.time = max s.clk.time (d.stamp + regDelay k.val) ∧ t.fblk k.val = recorded w d (s.fblk k.val) ∧ ∀ j, j ≠ k.val → t.fblk j = s.fblk j := by
  have hblock : d.block = k.val := mem_registering s (by rw [h]; exact List.mem_singleton.2 rfl)
  have hone := registerOne_quiet (cycleBegins s k.val [d] d.stamp) (d := d) (w := w) (by rw [cycleBegins_react, hblock]; exact hw) hreact hcloche
  have hfblk := faultNoted_fblk (cycleBegins s k.val [d] d.stamp) w d
  rw [hblock] at hfblk
  refine ⟨_, (faultRegister_one s k h).trans (congrArg _ hone), faultNoted_registered s w k.val d, faultNoted_time s w k.val d, ?_, fun j hj => ?_⟩
  · rw [hfblk, if_pos rfl]
    rfl
  · rw [hfblk, if_neg hj]
    rfl

theorem regDelay_eq (k : Nat) : regDelay k = if k < 16 then 32 else 16 := by
  unfold regDelay bedBlock
  simp only [decide_eq_true_eq]

/-- The record's part that every registration sets, captured or merged. -/
theorem recorded_always (w : Word) (d : Detect) (b : FaultBlock) : (recorded w d b).sticky = b.sticky ||| BitVec.ofNat 64 (2 ^ d.source) ∧
    (recorded w d b).events = satAdd max32 b.events 1 ∧ (recorded w d b).lastSource = d.source ∧ (recorded w d b).lastTime = d.stamp ∧
    (recorded w d b).lastValid = true ∧ (recorded w d b).live = b.live ∧ (recorded w d b).intEn = b.intEn ∧ (recorded w d b).ffValid = true := by
  unfold recorded
  cases hff : b.ffValid
  · exact ⟨rfl, rfl, rfl, rfl, rfl, rfl, rfl, rfl⟩
  · exact ⟨rfl, rfl, rfl, rfl, rfl, rfl, rfl, hff⟩

theorem recorded_free (w : Word) (d : Detect) {b : FaultBlock} (h : b.ffValid = false) : recorded w d b = captureFault d w (registerFault d b) := by
  unfold recorded
  rw [if_neg (by rw [h]; exact Bool.false_ne_true)]

theorem recorded_held (w : Word) (d : Detect) {b : FaultBlock} (h : b.ffValid = true) : recorded w d b = mergeFault w (registerFault d b) := by
  unfold recorded
  rw [if_pos h]

/-- A STICKY bit of a source with INT makes the block's interrupt. -/
theorem blockInt_of {t : State} {k n : Nat} (hen : (t.fblk k).intEn = true) (hn : n < srcCount k) (hsticky : (t.fblk k).sticky.getLsbD n = true)
    (hreact : 1 ≤ reactOf (t.react k n)) : blockInt t k = true := by
  unfold blockInt
  rw [hen, Bool.true_and, List.any_eq_true]
  refine ⟨n, List.mem_range.2 hn, ?_⟩
  rw [hsticky, Bool.true_and]
  exact decide_eq_true hreact

/-- One fault into the record, with the notification apart (O58, the first clause). -/
theorem faultRegister_records : ∀ (k : Block) (s : State) (d : Detect) (w : Word), registering s k.val = [d] → w = s.react k.val d.source → reactOf w ≤ 1 → errnOf w = false → clocheOf w = 0 →
    ∃ t, exec (.faultRegister k []) s = .next t ∧ t.clk.time = max s.clk.time (d.stamp + (if k.val < 16 then 32 else 16)) ∧
      (t.fblk k.val).sticky = (s.fblk k.val).sticky ||| BitVec.ofNat 64 (2 ^ d.source) ∧ (t.fblk k.val).events = satAdd max32 (s.fblk k.val).events 1 ∧
      (t.fblk k.val).lastSource = d.source ∧ (t.fblk k.val).lastTime = d.stamp ∧ (t.fblk k.val).lastValid = true ∧ (t.fblk k.val).live = (s.fblk k.val).live ∧
      (t.fblk k.val).intEn = (s.fblk k.val).intEn ∧ (t.fblk k.val).ffValid = true ∧
      ((s.fblk k.val).ffValid = false → (t.fblk k.val).merged = 0 ∧ (t.fblk k.val).ffSource = d.source ∧ (t.fblk k.val).ffSev = srcSev k.val d.source ∧
        (t.fblk k.val).ffForced = d.forced ∧ (t.fblk k.val).ffReact = w ∧ (t.fblk k.val).ffD0 = d.d0 ∧ (t.fblk k.val).ffD1 = d.d1 ∧ (t.fblk k.val).ffTime = d.stamp) ∧
      ((s.fblk k.val).ffValid = true → (t.fblk k.val).merged = satAdd max32 (s.fblk k.val).merged 1 ∧ (t.fblk k.val).ffSource = (s.fblk k.val).ffSource ∧
        (t.fblk k.val).ffSev = (s.fblk k.val).ffSev ∧ (t.fblk k.val).ffForced = (s.fblk k.val).ffForced ∧ (t.fblk k.val).ffD0 = (s.fblk k.val).ffD0 ∧
        (t.fblk k.val).ffD1 = (s.fblk k.val).ffD1 ∧ (t.fblk k.val).ffTime = (s.fblk k.val).ffTime ∧
        (t.fblk k.val).ffReact = reactWord (max (reactOf (s.fblk k.val).ffReact) (reactOf w)) (errnOf (s.fblk k.val).ffReact) (clocheOf (s.fblk k.val).ffReact)) ∧
      (reactOf w = 1 → (s.fblk k.val).intEn = true → d.source < srcCount k.val → blockInt t k.val = true) ∧
      t.flt.waiting = s.flt.waiting.filter (fun e => decide (e ≠ d)) ∧ (∀ j, j ≠ k.val → t.fblk j = s.fblk j) ∧
      t = { s with clk := { s.clk with time := t.clk.time }, bus := { s.bus with recent := t.bus.recent }, flt := { s.flt with waiting := t.flt.waiting, block := t.flt.block } } := by
  intro k s d w h hw hreact herrn hcloche
  have hblock : d.block = k.val := mem_registering s (by rw [h]; exact List.mem_singleton.2 rfl)
  obtain ⟨t, hexec, hreg, htime, hown, hothers⟩ := faultRegister_quiet s k h hw hreact hcloche
  have hwait : t.flt.waiting = s.flt.waiting.filter (fun e => decide (e ≠ d)) := congrArg (fun t : State => t.flt.waiting) hreg
  have hrest : t = { s with clk := { s.clk with time := t.clk.time }, bus := { s.bus with recent := t.bus.recent }, flt := { s.flt with waiting := t.flt.waiting, block := t.flt.block } } := by
    unfold Registered at hreg
    rw [herrn] at hreg
    rw [hwait]
    exact hreg
  have hwords : t.react k.val d.source = w := (congrArg (fun t : State => t.react k.val d.source) hreg).trans hw.symm
  obtain ⟨hsticky, hevents, hlast, hlastTime, hlastValid, hlive, hint, hff⟩ := recorded_always w d (s.fblk k.val)
  rw [← hown] at hsticky hevents hlast hlastTime hlastValid hlive hint hff
  refine ⟨t, hexec, htime.trans (by rw [regDelay_eq]), hsticky, hevents, hlast, hlastTime, hlastValid, hlive, hint, hff, fun hfree => ?_, fun hheld => ?_, fun hone hen hsrc => ?_,
    hwait, hothers, hrest⟩
  · rw [hown, recorded_free w d hfree, ← hblock]
    exact ⟨rfl, rfl, rfl, rfl, rfl, rfl, rfl, rfl⟩
  · rw [hown, recorded_held w d hheld]
    refine ⟨rfl, rfl, rfl, rfl, rfl, rfl, rfl, ?_⟩
    unfold mergeFault registerFault
    dsimp only
    rw [herrn, hcloche, Bool.or_false, Nat.max_eq_left (Nat.zero_le _)]
  · have hle := srcCount_le k k.isLt
    refine blockInt_of (hint.trans hen) hsrc ?_ (by rw [hwords]; omega)
    rw [hsticky, BitVec.getLsbD_or, getLsbD_two_pow (by omega), Bool.or_true]

/-- ERR_N of one fault (O58, the third clause). -/
theorem faultRegister_errn : ∀ (k : Block) (s : State) (d : Detect), registering s k.val = [d] → reactOf (s.react k.val d.source) ≤ 1 → errnOf (s.react k.val d.source) = true →
    clocheOf (s.react k.val d.source) = 0 →
    ∃ t, exec (.faultRegister k []) s = .next t ∧ t.bus.errnHold = true ∧ t.bus.errnPulse = some (t.clk.time + 6400) ∧ errNLow t = true ∧ errnOf (t.fblk k.val).ffReact = true ∧
      (∀ j, j ≠ k.val → t.fblk j = s.fblk j) ∧
      t = { s with clk := { s.clk with time := t.clk.time }, bus := { s.bus with errnHold := true, errnPulse := t.bus.errnPulse, recent := t.bus.recent }, flt := { s.flt with waiting := t.flt.waiting, block := t.flt.block } } := by
  intro k s d h hreact herrn hcloche
  obtain ⟨t, hexec, hreg, -, hown, hothers⟩ := faultRegister_quiet s k h rfl hreact hcloche
  have hwait : t.flt.waiting = s.flt.waiting.filter (fun e => decide (e ≠ d)) := congrArg (fun t : State => t.flt.waiting) hreg
  unfold Registered at hreg
  rw [herrn] at hreg
  have hhold : t.bus.errnHold = true := congrArg (fun t : State => t.bus.errnHold) hreg
  have hpulse : t.bus.errnPulse = some (t.clk.time + 6400) := congrArg (fun t : State => t.bus.errnPulse) hreg
  refine ⟨t, hexec, hhold, hpulse, ?_, ?_, hothers, ?_⟩
  · unfold errNLow
    rw [hpulse]
    rfl
  · rw [hown]
    cases hff : (s.fblk k.val).ffValid
    · rw [recorded_free _ d hff]
      exact herrn
    · rw [recorded_held _ d hff]
      unfold mergeFault
      dsimp only
      rw [herrn, Bool.or_true]
      have hr := reactOf_lt (registerFault d (s.fblk k.val)).ffReact
      have hc := clocheOf_lt (registerFault d (s.fblk k.val)).ffReact
      exact (reactWord_fields (by omega) true (by omega)).2.1
  · rw [hwait, hpulse]
    exact hreg

end Sys2Proof.Machine

end

section
/-! PROOFS of O58: two faults of one cycle, traps, absorbed block resets, forced faults and conditions. -/

set_option Elab.async false
set_option linter.unusedVariables false

namespace Sys2Proof.Machine

variable (s : State)

/-! Two faults of one cycle (R515). -/

theorem not_contains_pair {d e : Detect} {l : List Detect} (hl : l = [d, e] ∨ l = [e, d]) (x : Detect) : (!l.contains x) = decide (x ≠ d ∧ x ≠ e) := by
  rcases hl with rfl | rfl <;> by_cases hd : x = d <;> by_cases he : x = e <;> simp [hd, he]

theorem registerCycle_pair {k : Nat} {d e : Detect} (h : registering s k = [d, e] ∨ registering s k = [e, d]) (he : e.source < 64) (hrank : RanksFirst k d e) :
    ∃ stamp, registerCycle s k = registerOne (registerOne (cycleBegins s k (registering s k) stamp) d) e := by
  have horder := faultOrder_pair he hrank h
  unfold registerCycle
  dsimp only
  rcases h with h | h
  · refine ⟨d.stamp, ?_⟩
    rw [h] at horder ⊢
    dsimp only
    rw [horder]
    rfl
  · refine ⟨e.stamp, ?_⟩
    rw [h] at horder ⊢
    dsimp only
    rw [horder]
    rfl

/-- The stronger of two faults of a cycle is captured, the other one merges (O58, the second clause). -/
theorem faultRegister_pair : ∀ (k : Block) (s : State) (d e : Detect), (registering s k.val = [d, e] ∨ registering s k.val = [e, d]) → d.source < 64 → e.source < 64 →
    (srcSev k.val e.source < srcSev k.val d.source ∨ (srcSev k.val e.source = srcSev k.val d.source ∧ d.source < e.source)) →
    reactOf (s.react k.val d.source) ≤ 1 → errnOf (s.react k.val d.source) = false → clocheOf (s.react k.val d.source) = 0 →
    reactOf (s.react k.val e.source) ≤ 1 → errnOf (s.react k.val e.source) = false → clocheOf (s.react k.val e.source) = 0 → (s.fblk k.val).ffValid = false →
    ∃ t, exec (.faultRegister k []) s = .next t ∧ (t.fblk k.val).ffSource = d.source ∧ (t.fblk k.val).ffTime = d.stamp ∧ (t.fblk k.val).ffD0 = d.d0 ∧
      (t.fblk k.val).merged = 1 ∧ (t.fblk k.val).lastSource = e.source ∧ reactOf (t.fblk k.val).ffReact = max (reactOf (s.react k.val d.source)) (reactOf (s.react k.val e.source)) ∧
      (t.fblk k.val).sticky = (s.fblk k.val).sticky ||| BitVec.ofNat 64 (2 ^ d.source) ||| BitVec.ofNat 64 (2 ^ e.source) ∧
      (t.fblk k.val).events = satAdd max32 (satAdd max32 (s.fblk k.val).events 1) 1 ∧ (t.fblk k.val).live = (s.fblk k.val).live ∧ (∀ j, j ≠ k.val → t.fblk j = s.fblk j) ∧
      t.flt.waiting = s.flt.waiting.filter (fun x => decide (x ≠ d ∧ x ≠ e)) ∧
      t = { s with clk := { s.clk with time := t.clk.time }, bus := { s.bus with recent := t.bus.recent }, flt := { s.flt with waiting := t.flt.waiting, block := t.flt.block } } := by
  intro k s d e h hd he hrank hreactD herrnD hclocheD hreactE herrnE hclocheE hfree
  have hmem : d ∈ registering s k.val ∧ e ∈ registering s k.val := by
    rcases h with h | h <;> rw [h] <;> simp
  have hblockD : d.block = k.val := mem_registering s hmem.1
  have hblockE : e.block = k.val := mem_registering s hmem.2
  obtain ⟨stamp, hcycle⟩ := registerCycle_pair s h he hrank
  have hexec := (faultRegister_waits s k (List.ne_nil_of_mem hmem.1)).trans (congrArg _ hcycle)
  have hbegin : cycleBegins s k.val (registering s k.val) stamp =
      { s.reach (stamp + regDelay k.val) with flt := { s.flt with waiting := s.flt.waiting.filter (fun x => decide (x ≠ d ∧ x ≠ e)) } } := by
    unfold cycleBegins
    rw [funext (not_contains_pair h)]
  rw [hbegin] at hexec
  generalize hu : ({ s.reach (stamp + regDelay k.val) with flt := { s.flt with waiting := s.flt.waiting.filter (fun x => decide (x ≠ d ∧ x ≠ e)) } } : State) = u at hexec
  have hfblk : ∀ j, u.fblk j = s.fblk j := fun j => by rw [← hu]; rfl
  have hwords : ∀ n, u.react k.val n = s.react k.val n := fun n => by rw [← hu]; rfl
  rw [registerOne_quiet u (d := d) (w := s.react k.val d.source) (by rw [hblockD, hwords]) hreactD hclocheD] at hexec
  obtain ⟨r, hfirst⟩ := faultNoted_parts u (w := s.react k.val d.source) (d := d)
  have hfblkFirst := faultNoted_fblk u (s.react k.val d.source) d
  have hwordsFirst : (faultNoted u (s.react k.val d.source) d).react k.val e.source = s.react k.val e.source := by
    rw [hfirst]
    exact hwords e.source
  rw [herrnD] at hfirst
  generalize faultNoted u (s.react k.val d.source) d = v at hexec hfirst hfblkFirst hwordsFirst
  rw [registerOne_quiet v (d := e) (w := s.react k.val e.source) (by rw [hblockE, hwordsFirst]) hreactE hclocheE] at hexec
  obtain ⟨r', hsecond⟩ := faultNoted_parts v (w := s.react k.val e.source) (d := e)
  have hfblkSecond := faultNoted_fblk v (s.react k.val e.source) e
  rw [herrnE] at hsecond
  generalize faultNoted v (s.react k.val e.source) e = t at hexec hsecond hfblkSecond
  rw [hblockD] at hfblkFirst
  rw [hblockE] at hfblkSecond
  have hown : t.fblk k.val = mergeFault (s.react k.val e.source) (registerFault e (captureFault d (s.react k.val d.source) (registerFault d (s.fblk k.val)))) := by
    rw [hfblkSecond, if_pos rfl, hfblkFirst, if_pos rfl, hfblk, recorded_free _ d hfree, recorded_held _ e rfl]
  have hothers : ∀ j, j ≠ k.val → t.fblk j = s.fblk j := fun j hj => by rw [hfblkSecond, if_neg hj, hfblkFirst, if_neg hj, hfblk]
  have hrest : t = { s with clk := { s.clk with time := t.clk.time }, bus := { s.bus with recent := t.bus.recent }, flt := { s.flt with waiting := s.flt.waiting.filter (fun x => decide (x ≠ d ∧ x ≠ e)), block := t.flt.block } } := by
    rw [hsecond, hfirst, ← hu]
    rfl
  have hwait : t.flt.waiting = s.flt.waiting.filter (fun x => decide (x ≠ d ∧ x ≠ e)) := congrArg (fun t : State => t.flt.waiting) hrest
  refine ⟨t, hexec, ?_⟩
  rw [hown]
  refine ⟨rfl, rfl, rfl, rfl, rfl, ?_, rfl, rfl, rfl, hothers, hwait, by rw [hwait]; exact hrest⟩
  have hc := clocheOf_lt (s.react k.val d.source)
  have hc' := clocheOf_lt (s.react k.val e.source)
  exact (reactWord_fields (r := max (reactOf (s.react k.val d.source)) (reactOf (s.react k.val e.source))) (by omega) _
    (c := max (clocheOf (s.react k.val d.source)) (clocheOf (s.react k.val e.source))) (by omega)).1

/-! The shed's trap, and a block reset that is absorbed (R36, R518). -/

/-- The record of one fault as it leaves the machine, with `fw` as it stands after the trap. -/
theorem faultRegister_react (k : Block) {d : Detect} (h : registering s k.val = [d]) (hreact : reactOf (s.react k.val d.source) ≠ 4)
    (hcloche : clocheOf (s.react k.val d.source) = 0) :
    exec (.faultRegister k []) s = .next (
      if strongerFault (s.react k.val d.source) (s.fblk k.val) then fireReact (faultNoted (cycleBegins s k.val [d] d.stamp) (s.react k.val d.source) d) d (reactOf (s.react k.val d.source))
      else faultNoted (cycleBegins s k.val [d] d.stamp) (s.react k.val d.source) d) := by
  have hblock : d.block = k.val := mem_registering s (by rw [h]; exact List.mem_singleton.2 rfl)
  rw [faultRegister_one s k h, registerOne_reacts (cycleBegins s k.val [d] d.stamp) (d := d) (w := s.react k.val d.source) (by rw [cycleBegins_react, hblock])
    (takenWord_same _ (.inl hreact)) hcloche, cycleBegins_fblk, hblock]

theorem strongerFault_of {w : Word} {b : FaultBlock} (h : b.ffValid = false ∨ reactOf b.ffReact < reactOf w) : strongerFault w b = true := by
  unfold strongerFault
  rcases h with h | h
  · rw [h]
    rfl
  · rw [decide_eq_true h, Bool.or_true]

theorem strongerFault_of_not {w : Word} {b : FaultBlock} (hheld : b.ffValid = true) (h : reactOf w ≤ reactOf b.ffReact) : strongerFault w b = false := by
  unfold strongerFault
  rw [hheld, decide_eq_false (by omega)]
  rfl

/-- The trap of the shed (O58, the sixth clause). -/
theorem faultRegister_trap : ∀ (k : Block) (s : State) (d : Detect), registering s k.val = [d] → reactOf (s.react k.val d.source) = 2 → errnOf (s.react k.val d.source) = false →
    clocheOf (s.react k.val d.source) = 0 →
    ∃ t, exec (.faultRegister k []) s = .next t ∧
      ((s.fblk k.val).ffValid = false ∨ reactOf (s.fblk k.val).ffReact < 2 → shedTraps s = true → t.fw = { s.fw with traps := s.fw.traps ++ [(k.val, d.source, t.clk.time)] }) ∧
      ((s.fblk k.val).ffValid = true → 2 ≤ reactOf (s.fblk k.val).ffReact → t.fw = s.fw) ∧ (shedTraps s = false → t.fw = s.fw) ∧
      t = { s with clk := { s.clk with time := t.clk.time }, bus := { s.bus with recent := t.bus.recent }, fw := t.fw, flt := { s.flt with waiting := t.flt.waiting, block := t.flt.block } } := by
  intro k s d h hreact herrn hcloche
  have hblock : d.block = k.val := mem_registering s (by rw [h]; exact List.mem_singleton.2 rfl)
  have hexec := faultRegister_react s k h (by omega) hcloche
  have hreg := faultNoted_registered s (s.react k.val d.source) k.val d
  unfold Registered at hreg
  rw [herrn] at hreg
  rw [hreact] at hexec
  generalize faultNoted (cycleBegins s k.val [d] d.stamp) (s.react k.val d.source) d = v at hexec hreg
  have hfw : v.fw = s.fw := by rw [hreg]
  have hwait : v.flt.waiting = s.flt.waiting.filter (fun e => decide (e ≠ d)) := congrArg (fun v : State => v.flt.waiting) hreg
  have htraps : shedTraps v = shedTraps s := by rw [hreg]; rfl
  have hquiet : v = { s with clk := { s.clk with time := v.clk.time }, bus := { s.bus with recent := v.bus.recent }, fw := v.fw, flt := { s.flt with waiting := v.flt.waiting, block := v.flt.block } } := by
    rw [hfw, hwait]
    exact hreg
  have htrap : fireReact v d 2 = if shedTraps s then { v with fw := { s.fw with traps := s.fw.traps ++ [(k.val, d.source, v.clk.time)] } } else v := by
    unfold fireReact
    rw [if_pos rfl, htraps, hfw, hblock]
    rfl
  rw [htrap] at hexec
  cases hstrong : strongerFault (s.react k.val d.source) (s.fblk k.val)
  · rw [hstrong, if_neg Bool.false_ne_true] at hexec
    refine ⟨v, hexec, fun hless _ => ?_, fun _ _ => hfw, fun _ => hfw, hquiet⟩
    exact absurd (strongerFault_of (w := s.react k.val d.source) (by rw [hreact]; exact hless)) (by rw [hstrong]; exact Bool.false_ne_true)
  · rw [hstrong, if_pos rfl] at hexec
    have hnot : ¬ ((s.fblk k.val).ffValid = true ∧ 2 ≤ reactOf (s.fblk k.val).ffReact) := fun hheld =>
      absurd hstrong (by rw [strongerFault_of_not hheld.1 (by omega)]; exact Bool.false_ne_true)
    cases hshed : shedTraps s
    · rw [hshed, if_neg Bool.false_ne_true] at hexec
      exact ⟨v, hexec, fun _ hon => (nomatch hon), fun _ _ => hfw, fun _ => hfw, hquiet⟩
    · rw [hshed, if_pos rfl] at hexec
      refine ⟨_, hexec, fun _ _ => rfl, fun hheld hge => absurd ⟨hheld, hge⟩ hnot, fun hoff => (nomatch hoff), ?_⟩
      exact congrArg (fun v' : State => ({ v' with fw := { s.fw with traps := s.fw.traps ++ [(k.val, d.source, v.clk.time)] } } : State)) hquiet

/-- A block reset that a stronger one, or one of its own block, absorbs (O58, the eighth clause). -/
theorem faultRegister_absorbed : ∀ (k : Block) (s : State) (d : Detect), registering s k.val = [d] → reactOf (s.react k.val d.source) = 3 → errnOf (s.react k.val d.source) = false →
    clocheOf (s.react k.val d.source) = 0 → (deeper s = true ∨ s.clk.restarting = true ∨ s.blkReset k.val = true) → k.val ≠ 0x12 → k.val ≠ 0x16 → k.val ≠ 0x17 →
    ∃ t, exec (.faultRegister k []) s = .next t ∧
      t = { s with clk := { s.clk with time := t.clk.time }, bus := { s.bus with recent := t.bus.recent }, flt := { s.flt with waiting := t.flt.waiting, block := t.flt.block } } := by
  intro k s d h hreact herrn hcloche habsorbed _ _ _
  have hblock : d.block = k.val := mem_registering s (by rw [h]; exact List.mem_singleton.2 rfl)
  have hexec := faultRegister_react s k h (by omega) hcloche
  have hreg := faultNoted_registered s (s.react k.val d.source) k.val d
  unfold Registered at hreg
  rw [herrn] at hreg
  rw [hreact] at hexec
  generalize faultNoted (cycleBegins s k.val [d] d.stamp) (s.react k.val d.source) d = v at hexec hreg
  have hwait : v.flt.waiting = s.flt.waiting.filter (fun e => decide (e ≠ d)) := congrArg (fun v : State => v.flt.waiting) hreg
  have hsame : deeper v = deeper s ∧ v.clk.restarting = s.clk.restarting ∧ v.blkReset k.val = s.blkReset k.val :=
    ⟨by rw [hreg]; rfl, by rw [hreg], by rw [hreg]; rfl⟩
  obtain ⟨hdeep, hrestart, hblk⟩ := hsame
  have hfire : fireReact v d 3 = v := by
    unfold fireReact
    rw [if_neg (by decide), if_pos rfl, hblock]
    unfold blockReset
    rw [if_pos (by rw [hdeep, hrestart, hblk]; exact habsorbed)]
  rw [hfire, ite_self] at hexec
  exact ⟨v, hexec, by rw [hwait]; exact hreg⟩

theorem resetRecently {s : State} {e n : Nat} (hend : s.clk.faultResetEnd = some e) (htime : s.clk.time < e + n) :
    s.clk.faultResetEnd.any (fun t => decide (s.now < t + n)) = true := by
  rw [hend]
  exact decide_eq_true htime

theorem takenWord_weaker : ∀ (s : State) (w : Word) (e : Nat), s.clk.faultResetEnd = some e → s.clk.time < e + 3200000000 → reactOf w = 4 →
    reactOf (takenWord s w) = 3 ∧ errnOf (takenWord s w) = errnOf w ∧ clocheOf (takenWord s w) = clocheOf w := by
  intro s w e hend htime hreact
  have h : takenWord s w = reactWord 3 (errnOf w) (clocheOf w) := by
    unfold takenWord
    rw [if_pos ⟨hreact, resetRecently hend htime⟩]
  rw [h]
  exact reactWord_fields (by decide) (errnOf w) (clocheOf_lt w)

/-! Forced faults and conditions (R517, R528, R533). -/

/-- FAULT_REGISTER of a block for which nothing waits raises its earliest forced fault. -/
theorem faultRegister_forced (k : Block) {e : Nat × Nat × Nat} (h : registering s k.val = []) (hforce : forceFirst s k.val = some e) :
    exec (.faultRegister k []) s = .next (registerCycle (fireForced s e) k.val) := by
  refine congrArg Host.Outcome.next ?_
  unfold directFaults
  dsimp only
  rw [h, hforce]
  rfl

/-- The one fault that `t` adds for a block for which nothing waited registers, and asks for nothing else. -/
theorem registerCycle_quiet {t : State} {k : Nat} {d : Detect} {w : Word} (h : registering s k = []) (hd : d.block = k) (hwait : t.flt.waiting = s.flt.waiting ++ [d])
    (hw : w = t.react k d.source) (hreact : reactOf w ≤ 1) (hcloche : clocheOf w = 0) :
    Registered t w (t.flt.waiting.filter (fun e => decide (e ≠ d))) (registerCycle t k) ∧ (registerCycle t k).fblk k = recorded w d (t.fblk k) ∧
      ∀ j, j ≠ k → (registerCycle t k).fblk j = t.fblk j := by
  have hone := registering_alone s h hd hwait
  rw [registerCycle_one t hone, registerOne_quiet (cycleBegins t k [d] d.stamp) (d := d) (w := w) (by rw [cycleBegins_react, hd]; exact hw) hreact hcloche]
  have hfblk := faultNoted_fblk (cycleBegins t k [d] d.stamp) w d
  rw [hd] at hfblk
  refine ⟨faultNoted_registered t w k d, ?_, fun j hj => ?_⟩
  · rw [hfblk, if_pos rfl]
    rfl
  · rw [hfblk, if_neg hj]
    rfl

/-- A forced fault whose time comes (O58, the twelfth clause). -/
theorem faultRegister_forces : ∀ (k : Block) (s : State) (tc src : Nat), registering s k.val = [] → forceFirst s k.val = some (tc, k.val, src) → reactOf (s.react k.val src) ≤ 1 →
    errnOf (s.react k.val src) = false → clocheOf (s.react k.val src) = 0 → (s.fblk k.val).ffValid = false →
    ∃ t, exec (.faultRegister k []) s = .next t ∧ (t.fblk k.val).ffValid = true ∧ (t.fblk k.val).ffForced = true ∧ (t.fblk k.val).ffSource = src ∧
      (t.fblk k.val).ffTime = f3 (max s.clk.time tc) ∧ (t.fblk k.val).live = (s.fblk k.val).live ∧ t.flt.forceAt = s.flt.forceAt.erase (tc, k.val, src) ∧
      (∀ j, j ≠ k.val → t.fblk j = s.fblk j) ∧
      t = { s with free := t.free, clk := { s.clk with time := t.clk.time }, bus := { s.bus with halfShed := none, recent := t.bus.recent }, flt := { s.flt with forceAt := t.flt.forceAt, waiting := t.flt.waiting, block := t.flt.block } } := by
  intro k s tc src h hforce hreact herrn hcloche hfree
  have hraised : ∃ n d, d.block = k.val ∧ d.source = src ∧ d.forced = true ∧ d.stamp = f3 (max s.clk.time tc) ∧ fireForced s (tc, k.val, src) =
      { s with free := n, clk := { s.clk with time := max s.clk.time tc }, bus := { s.bus with halfShed := none }, flt := { s.flt with forceAt := s.flt.forceAt.erase (tc, k.val, src), waiting := s.flt.waiting ++ [d] } } := ⟨_, _, rfl, rfl, rfl, rfl, rfl⟩
  obtain ⟨n, d, hblock, hsource, hforced, hstamp, hfire⟩ := hraised
  have hexec := faultRegister_forced s k h hforce
  generalize fireForced s (tc, k.val, src) = v at hexec hfire
  obtain ⟨hreg, hown, hothers⟩ := registerCycle_quiet s (t := v) (d := d) (w := s.react k.val src) h hblock (by rw [hfire]) (by rw [hfire, hsource]; rfl) hreact hcloche
  generalize registerCycle v k.val = t at hexec hreg hown hothers
  have hfblk : ∀ j, v.fblk j = s.fblk j := fun j => by rw [hfire]; rfl
  unfold Registered at hreg
  rw [herrn] at hreg
  have hrest : t = { s with free := t.free, clk := { s.clk with time := t.clk.time }, bus := { s.bus with halfShed := none, recent := t.bus.recent }, flt := { s.flt with forceAt := s.flt.forceAt.erase (tc, k.val, src), waiting := t.flt.waiting, block := t.flt.block } } := by
    rw [hreg, hfire]
    rfl
  have hat : t.flt.forceAt = s.flt.forceAt.erase (tc, k.val, src) := congrArg (fun t : State => t.flt.forceAt) hrest
  refine ⟨t, hexec, ?_, ?_, ?_, ?_, ?_, hat, fun j hj => (hothers j hj).trans (hfblk j), by rw [hat]; exact hrest⟩
  all_goals rw [hown, hfblk, recorded_free _ d hfree]
  · rfl
  · exact hforced
  · exact hsource
  · exact hstamp
  · rfl

theorem directFaults_condition {k : Nat} {f : DirectFault} (hsrc : f.source < srcCount k) (hcond : srcEvent k f.source = false) :
    directFaults s k [f] = s.condition k f.source true f.d0.toNat f.d1.toNat := by
  unfold directFaults directFaults
  rw [if_pos hsrc, hcond]
  rfl

/-- A condition that already holds raises nothing (O58, the thirteenth clause). -/
theorem faultRegister_holds : ∀ (k : Block) (s : State) (f : DirectFault), f.source < srcCount k.val → srcEvent k.val f.source = false → (s.fblk k.val).live.getLsbD f.source = true →
    registering s k.val = [] → forceFirst s k.val = none → exec (.faultRegister k [f]) s = .next s := by
  intro k s f hsrc hcond hlive h hforce
  have hsame : directFaults s k.val [f] = s := by
    rw [directFaults_condition s hsrc hcond]
    unfold State.condition
    rw [if_pos rfl, if_pos hlive]
  have hexec : exec (.faultRegister k [f]) s = exec (.faultRegister k []) s := by
    change Host.Outcome.next (registerCycle (if (registering (directFaults s k.val [f]) k.val).isEmpty then _ else directFaults s k.val [f]) k.val) = _
    rw [hsame]
    rfl
  rw [hexec]
  exact faultRegister_idle s k h hforce

/-- A condition that begins (O58, the last clause). -/
theorem faultRegister_begins : ∀ (k : Block) (s : State) (f : DirectFault), f.source < srcCount k.val → srcEvent k.val f.source = false → (s.fblk k.val).live.getLsbD f.source = false →
    registering s k.val = [] → reactOf (s.react k.val f.source) ≤ 1 → errnOf (s.react k.val f.source) = false → clocheOf (s.react k.val f.source) = 0 →
    ∃ t, exec (.faultRegister k [f]) s = .next t ∧ (t.fblk k.val).live = (s.fblk k.val).live ||| BitVec.ofNat 64 (2 ^ f.source) ∧
      (t.fblk k.val).sticky = (s.fblk k.val).sticky ||| BitVec.ofNat 64 (2 ^ f.source) ∧ (t.fblk k.val).lastSource = f.source ∧ (t.fblk k.val).lastTime = f3 s.clk.time ∧
      ((s.fblk k.val).ffValid = false → (t.fblk k.val).ffD0 = f.d0 ∧ (t.fblk k.val).ffD1 = f.d1 ∧ (t.fblk k.val).ffForced = false) ∧ (∀ j, j ≠ k.val → t.fblk j = s.fblk j) ∧
      t = { s with clk := { s.clk with time := t.clk.time }, bus := { s.bus with recent := t.bus.recent }, flt := { s.flt with waiting := t.flt.waiting, block := t.flt.block } } := by
  intro k s f hsrc hcond hlive h hreact herrn hcloche
  have hraise : directFaults s k.val [f] = s.raise k.val f.source f.d0.toNat f.d1.toNat := by
    rw [directFaults_condition s hsrc hcond]
    unfold State.condition
    rw [if_pos rfl, if_neg (by rw [hlive]; exact Bool.false_ne_true)]
  have hwait := raise_waiting s k.val f.source f.d0.toNat f.d1.toNat
  rw [w16_toNat, w16_toNat] at hwait
  have hexec : exec (.faultRegister k [f]) s = .next (registerCycle (s.raise k.val f.source f.d0.toNat f.d1.toNat) k.val) := by
    change Host.Outcome.next (registerCycle (if (registering (directFaults s k.val [f]) k.val).isEmpty then _ else directFaults s k.val [f]) k.val) = _
    rw [hraise, registering_alone s h rfl hwait]
    rfl
  have hlit : ∀ j, (s.raise k.val f.source f.d0.toNat f.d1.toNat).fblk j = (s.live k.val f.source true).fblk j := by
    intro j
    unfold State.raise
    rw [hcond]
    rfl
  obtain ⟨b, l, hparts⟩ := raise_parts s k.val f.source f.d0.toNat f.d1.toNat
  generalize s.raise k.val f.source f.d0.toNat f.d1.toNat = v at hexec hwait hlit hparts
  obtain ⟨hreg, hown, hothers⟩ := registerCycle_quiet s (t := v) (w := s.react k.val f.source) h rfl hwait (by rw [hparts]; rfl) hreact hcloche
  generalize registerCycle v k.val = t at hexec hreg hown hothers
  unfold Registered at hreg
  rw [herrn] at hreg
  obtain ⟨hsticky, -, hlast, hlastTime, -, hlive', -⟩ := recorded_always (s.react k.val f.source)
    { block := k.val, source := f.source, d0 := f.d0, d1 := f.d1, forced := false, stamp := f3 s.clk.time } (v.fblk k.val)
  rw [← hown, hlit, live_fblk, if_pos rfl] at hsticky hlive'
  rw [← hown] at hlast hlastTime
  refine ⟨t, hexec, hlive', hsticky, hlast, hlastTime, fun hfree => ?_, fun j hj => ?_, ?_⟩
  · rw [hown, hlit, live_fblk, if_pos rfl, recorded_free]
    · exact ⟨rfl, rfl, rfl⟩
    · exact hfree
  · rw [hothers j hj, hlit, live_fblk, if_neg hj]
  · rw [hreg, hparts]
    rfl

end Sys2Proof.Machine

end

section
/-! PROOFS of O58, what a fault does beside its record: the cloche of a bed, the chip and the chain, the block reset and the chip reset. -/

set_option Elab.async false
set_option linter.unusedVariables false

namespace Sys2Proof.Machine

variable (s : State)

/-! A bed's cloche (R511, R521, R524). -/

/-- A bed's registers when a cloche of origin `o` starts at `now`. -/
def startedBed (o : Origin) (now : Nat) (x : BedCloche) : BedCloche :=
  if x.active then { x with tripAt := some now }
  else { x with tripAt := some now, active := true, settled := false, causeBlock := o.block % 256, causeSource := o.source % 64, causeScope := o.scope, origin := o.origin, time := now }

theorem startedBed_always (o : Origin) (now : Nat) (x : BedCloche) : (startedBed o now x).active = true ∧ (startedBed o now x).causes = x.causes := by
  unfold startedBed
  split
  next hactive => exact ⟨hactive, rfl⟩
  next => exact ⟨rfl, rfl⟩

theorem startedBed_idle (o : Origin) (now : Nat) {x : BedCloche} (h : x.active = false) : startedBed o now x =
    { x with tripAt := some now, active := true, settled := false, causeBlock := o.block % 256, causeSource := o.source % 64, causeScope := o.scope, origin := o.origin, time := now } := by
  unfold startedBed
  rw [if_neg (by rw [h]; exact Bool.false_ne_true)]

theorem startedBed_held (o : Origin) (now : Nat) {x : BedCloche} (h : x.active = true) : startedBed o now x = { x with tripAt := some now } := by
  unfold startedBed
  rw [if_pos h]

theorem startBed_spec (b : Nat) (o : Origin) (run : Nat) : (∀ j, (startBed s b o run).bedc j = if j = b then startedBed o s.clk.time (s.bedc b) else s.bedc j) ∧
    (startBed s b o run).flt.chip = s.flt.chip ∧ (startBed s b o run).flt.chain = s.flt.chain ∧ (startBed s b o run).flt.lastUrgent = s.flt.lastUrgent ∧
    (startBed s b o run).flt.urgId = s.flt.urgId := by
  have hmod : ∀ (v : State) (f : BedCloche → BedCloche) (k : Nat), (v.modBedc b f).bedc k = if k = b then f (v.bedc b) else v.bedc k := fun v f k => State.modBedc_bedc ..
  have hat : ((s.modBedc b (fun x => { x with tripAt := some s.now })).bedc b).active = (s.bedc b).active := by rw [hmod, if_pos rfl]
  unfold startBed
  dsimp only
  rw [hat]
  split
  next hactive =>
    refine ⟨fun j => ?_, rfl, rfl, rfl, rfl⟩
    unfold startedBed
    rw [hmod, if_pos hactive]
    rfl
  next hidle =>
    generalize hu : ((s.modBedc b _).modBedc b _) = u
    have hbed : ∀ j, u.bedc j = if j = b then startedBed o s.clk.time (s.bedc b) else s.bedc j := by
      intro j
      unfold startedBed
      rw [← hu, hmod, hmod, if_pos rfl, if_neg hidle]
      split
      · rfl
      next hne => rw [hmod, if_neg hne]
    have hflt : u.flt.chip = s.flt.chip ∧ u.flt.chain = s.flt.chain ∧ u.flt.lastUrgent = s.flt.lastUrgent ∧ u.flt.urgId = s.flt.urgId := by
      rw [← hu]
      exact ⟨rfl, rfl, rfl, rfl⟩
    have hcalm : Calm u (clocheBedLoops ((List.range 64).foldl (fun s q => if (seqBeds s q).contains b then latchStop s q run false else s)
        (clocheDrivers (moveDacs u b) b)) b run) := by
      refine clocheBedLoops_calm (calm_foldl (clocheDrivers_calm (moveDacs_calm calm_refl)) fun v q h => ?_)
      split
      · exact latchStop_calm h
      · exact h
    generalize clocheBedLoops _ b run = t at hcalm ⊢
    have hsame : fltRest t.flt = fltRest u.flt := congrArg (fun x => x.2.1) hcalm
    have hbeds : t.flt.bed = u.flt.bed := (congrArg (fun x : Faults => x.bed) hsame : _)
    obtain ⟨hchip, hchain, hlast, hid⟩ := hflt
    refine ⟨fun j => ?_, (congrArg (fun x : Faults => x.chip) hsame).trans hchip, (congrArg (fun x : Faults => x.chain) hsame).trans hchain,
      (congrArg (fun x : Faults => x.lastUrgent) hsame).trans hlast, (congrArg (fun x : Faults => x.urgId) hsame).trans hid⟩
    unfold State.bedc at hbed ⊢
    rw [hbeds]
    exact hbed j

theorem startBed_clk (b : Nat) (o : Origin) (run : Nat) : (startBed s b o run).clk = s.clk := by
  have h : Only 81906 s (startBed s b o run) := startBed_only rfl only_refl
  exact only_clk h

/-- A cloche of one bed, at its registers. -/
theorem clocheBed_spec (b : Nat) (c : Cause) (o : Origin) (run : Nat) :
    (∀ j, (clocheBed s b c o run).bedc j = if j = b then startedBed { o with scope := 1 } s.clk.time { s.bedc b with causes := latchCause (s.bedc b).causes c } else s.bedc j) ∧
      (clocheBed s b c o run).clk = s.clk := by
  have hmod : ∀ j, (s.modBedc b (fun x => { x with causes := latchCause x.causes c })).bedc j = if j = b then { s.bedc b with causes := latchCause (s.bedc b).causes c } else s.bedc j :=
    fun j => State.modBedc_bedc ..
  obtain ⟨hbed, -⟩ := startBed_spec (s.modBedc b (fun x => { x with causes := latchCause x.causes c })) b { o with scope := 1 } run
  refine ⟨fun j => ?_, ?_⟩
  · refine (hbed j).trans ?_
    rw [hmod, if_pos rfl, hmod]
    split
    · rfl
    next hne => rfl
  · exact startBed_clk ..

/-- FAULT_REGISTER of one fault without a REACT action: the record, then the cloche. -/
theorem faultRegister_clocheOnly (k : Block) {d : Detect} (h : registering s k.val = [d]) (hreact : reactOf (s.react k.val d.source) ≤ 1) :
    exec (.faultRegister k []) s = .next (fireCloche (faultNoted (cycleBegins s k.val [d] d.stamp) (s.react k.val d.source) d) d (clocheOf (s.react k.val d.source))) := by
  have hblock : d.block = k.val := mem_registering s (by rw [h]; exact List.mem_singleton.2 rfl)
  rw [faultRegister_one s k h, registerOne_eq (cycleBegins s k.val [d] d.stamp) (d := d) (w := s.react k.val d.source) (by rw [cycleBegins_react, hblock])
    (takenWord_same _ (.inl (by omega)))]
  dsimp only
  split
  · unfold fireReact
    rw [if_neg (by omega), if_neg (by omega), if_neg (by omega)]
  · rfl

/-- What the record of a fault leaves of the cloche's registers and of the clocks but for chip time. -/
theorem faultNoted_beside (w : Word) (k : Nat) (d : Detect) : let v := faultNoted (cycleBegins s k [d] d.stamp) w d
    v.flt.bed = s.flt.bed ∧ v.flt.chip = s.flt.chip ∧ v.flt.chain = s.flt.chain ∧ v.flt.lastUrgent = s.flt.lastUrgent ∧ v.flt.urgId = s.flt.urgId ∧
      v.clk = { s.clk with time := v.clk.time } := by
  have hreg := faultNoted_registered s w k d
  unfold Registered at hreg
  dsimp only
  generalize faultNoted (cycleBegins s k [d] d.stamp) w d = v at hreg
  rw [hreg]
  exact ⟨rfl, rfl, rfl, rfl, rfl, rfl⟩

/-- A bed's fault puts its bed in cloche, and no other (O58, the fourth clause). -/
theorem faultRegister_bed : ∀ (k : Block) (s : State) (d : Detect), k.val < 16 → registering s k.val = [d] → reactOf (s.react k.val d.source) ≤ 1 → clocheOf (s.react k.val d.source) = 1 →
    ∃ t, exec (.faultRegister k []) s = .next t ∧ (t.bedc k.val).active = true ∧ (if d.forced then Cause.dead else Cause.fault k.val d.source) ∈ (t.bedc k.val).causes ∧
      (∀ b, b ≠ k.val → t.bedc b = s.bedc b) ∧
      ((s.bedc k.val).active = false → (t.bedc k.val).causeBlock = k.val ∧ (t.bedc k.val).causeSource = d.source % 64 ∧ (t.bedc k.val).causeScope = 1 ∧
        (t.bedc k.val).time = t.clk.time ∧ (t.bedc k.val).settled = false) ∧
      ((s.bedc k.val).active = true → (t.bedc k.val).causeSource = (s.bedc k.val).causeSource ∧ (t.bedc k.val).time = (s.bedc k.val).time) := by
  intro k s d hk h hreact hcloche
  have hblock : d.block = k.val := mem_registering s (by rw [h]; exact List.mem_singleton.2 rfl)
  have hexec := faultRegister_clocheOnly s k h hreact
  obtain ⟨hbed, -⟩ := faultNoted_beside s (s.react k.val d.source) k.val d
  rw [hcloche] at hexec
  generalize faultNoted (cycleBegins s k.val [d] d.stamp) (s.react k.val d.source) d = v at hexec hbed
  have hfire : fireCloche v d 1 = clocheBed v k.val (if d.forced then .dead else .fault k.val d.source) { block := k.val, source := d.source } := by
    unfold fireCloche faultBeds
    dsimp only
    rw [if_pos rfl, hblock, if_pos hk]
    rfl
  rw [hfire] at hexec
  have hbedc : ∀ j, v.bedc j = s.bedc j := fun j => by unfold State.bedc; rw [hbed]
  obtain ⟨hspec, hclk⟩ := clocheBed_spec v k.val (if d.forced then .dead else .fault k.val d.source) { block := k.val, source := d.source } 2
  generalize clocheBed v k.val (if d.forced then .dead else .fault k.val d.source) { block := k.val, source := d.source } = t at hexec hspec hclk
  have hown := hspec k.val
  rw [if_pos rfl, hbedc] at hown
  obtain ⟨hon, hcauses⟩ := startedBed_always { block := k.val, source := d.source, scope := 1 } v.clk.time
    { s.bedc k.val with causes := latchCause (s.bedc k.val).causes (if d.forced then .dead else .fault k.val d.source) }
  rw [← hown] at hon hcauses
  refine ⟨t, hexec, hon, by rw [hcauses]; exact mem_latchCause.1, fun b hb => by rw [hspec, if_neg hb, hbedc], fun hidle => ?_, fun hactive => ?_⟩
  · rw [hown, hclk, startedBed_idle]
    · exact ⟨Nat.mod_eq_of_lt (hk.trans (by decide)), rfl, rfl, rfl, rfl⟩
    · exact hidle
  · rw [hown, startedBed_held]
    · exact ⟨rfl, rfl⟩
    · exact hactive

/-! A cloche of the chip and of the chain (R417, R521, R525). -/

theorem startBeds_urgent (o : Origin) (run : Nat) (l : List Nat) (v : State) : (l.foldl (fun s b => startBed s b o run) v).flt.lastUrgent = v.flt.lastUrgent ∧
    (l.foldl (fun s b => startBed s b o run) v).flt.urgId = v.flt.urgId ∧ (l.foldl (fun s b => startBed s b o run) v).clk = v.clk := by
  induction l generalizing v with
  | nil => exact ⟨rfl, rfl, rfl⟩
  | cons a l ih =>
    obtain ⟨-, -, -, hlast, hid⟩ := startBed_spec v a o run
    obtain ⟨hlast', hid', hclk'⟩ := ih (startBed v a o run)
    exact ⟨hlast'.trans hlast, hid'.trans hid, hclk'.trans (startBed_clk v a o run)⟩

/-- The part's own CHAIN_CLOCHE leaves the beds and the scopes as they are. -/
theorem originate_spec (block source : Nat) : (originate s block source).flt.bed = s.flt.bed ∧ (originate s block source).flt.chip = s.flt.chip ∧
    (originate s block source).flt.chain = s.flt.chain ∧ (originate s block source).clk = s.clk ∧ (s.flt.lastUrgent = none →
      (originate s block source).flt.lastUrgent = some s.clk.time ∧ (originate s block source).flt.urgId = s.flt.urgId + 1) := by
  unfold originate
  dsimp only
  split
  next hrecent =>
    refine ⟨rfl, rfl, rfl, rfl, fun hnone => ?_⟩
    rw [hnone] at hrecent
    cases hrecent
  next =>
    generalize msgBytes 0x0A 0x7F s.link.addr 0 s.link.mtag.toNat _ _ = m
    obtain ⟨q, w, hroot⟩ := enqueueFrom_flt s false (p := 0) (by decide) 0 m
    have hroot' : enqueue s 0 0 m = { s with link := { s.link with port := q }, flt := { s.flt with waiting := s.flt.waiting ++ w } } := hroot
    rw [hroot']
    split
    next =>
      obtain ⟨q', w', htip⟩ := enqueueFrom_flt { s with link := { s.link with port := q }, flt := { s.flt with waiting := s.flt.waiting ++ w } } false (p := 1) (by decide) 0 m
      have htip' : enqueue { s with link := { s.link with port := q }, flt := { s.flt with waiting := s.flt.waiting ++ w } } 1 0 m =
        { s with link := { s.link with port := q' }, flt := { s.flt with waiting := s.flt.waiting ++ w ++ w' } } := htip
      rw [htip']
      exact ⟨rfl, rfl, rfl, rfl, fun _ => ⟨rfl, rfl⟩⟩
    next => exact ⟨rfl, rfl, rfl, rfl, fun _ => ⟨rfl, rfl⟩⟩

theorem clocheChip_spec (c : Cause) (o : Origin) : (∀ b, b < 16 → ((clocheChip s c o).bedc b).active = true) ∧ (clocheChip s c o).flt.chip = latchCause s.flt.chip c ∧
    (clocheChip s c o).flt.chain = s.flt.chain ∧ (clocheChip s c o).flt.urgId = s.flt.urgId := by
  obtain ⟨hin, hchip, hchain⟩ := startBeds_spec { o with scope := 2 } 2 (List.range 16) { s with flt := { s.flt with chip := latchCause s.flt.chip c } }
  obtain ⟨-, hid, -⟩ := startBeds_urgent { o with scope := 2 } 2 (List.range 16) { s with flt := { s.flt with chip := latchCause s.flt.chip c } }
  refine ⟨fun b hb => hin b (.inl (List.mem_range.2 hb)), ?_, ?_, ?_⟩
  · unfold clocheChip
    dsimp only
    rw [hchip]
  · unfold clocheChip
    dsimp only
    rw [hchain]
  · unfold clocheChip
    dsimp only
    rw [hid]

theorem clocheChain_urgent (c : Cause) (o : Origin) : (clocheChain s c o).flt.lastUrgent = s.flt.lastUrgent ∧ (clocheChain s c o).flt.urgId = s.flt.urgId := by
  obtain ⟨hlast, hid, -⟩ := startBeds_urgent { o with scope := 3 } 2 (List.range 16)
    { s with flt := { s.flt with chip := latchCause s.flt.chip c, chain := latchCause s.flt.chain c } }
  refine ⟨?_, ?_⟩
  · unfold clocheChain
    dsimp only
    rw [hlast]
  · unfold clocheChain
    dsimp only
    rw [hid]

/-- The cloche of the chip or the chain (O58, the fifth clause). -/
theorem faultRegister_chip : ∀ (k : Block) (s : State) (d : Detect), registering s k.val = [d] → reactOf (s.react k.val d.source) ≤ 1 → 2 ≤ clocheOf (s.react k.val d.source) → d.forced = false →
    ∃ t, exec (.faultRegister k []) s = .next t ∧ (∀ b, b < 16 → (t.bedc b).active = true) ∧ Cause.fault k.val d.source ∈ t.flt.chip ∧
      (clocheOf (s.react k.val d.source) = 3 → Cause.fault k.val d.source ∈ t.flt.chain) ∧
      (clocheOf (s.react k.val d.source) = 3 → s.flt.lastUrgent = none → t.flt.lastUrgent = some t.clk.time ∧ t.flt.urgId = s.flt.urgId + 1) ∧
      (clocheOf (s.react k.val d.source) = 2 → t.flt.chain = s.flt.chain ∧ t.flt.urgId = s.flt.urgId) := by
  intro k s d h hreact hcloche hforced
  have hblock : d.block = k.val := mem_registering s (by rw [h]; exact List.mem_singleton.2 rfl)
  have hexec := faultRegister_clocheOnly s k h hreact
  obtain ⟨-, -, hvChain, hvLast, hvId, -⟩ := faultNoted_beside s (s.react k.val d.source) k.val d
  generalize faultNoted (cycleBegins s k.val [d] d.stamp) (s.react k.val d.source) d = v at hexec hvChain hvLast hvId
  have hlt := clocheOf_lt (s.react k.val d.source)
  obtain hscope | hscope : clocheOf (s.react k.val d.source) = 2 ∨ clocheOf (s.react k.val d.source) = 3 := by omega
  · rw [hscope] at hexec ⊢
    have hfire : fireCloche v d 2 = clocheChip v (.fault k.val d.source) { block := k.val, source := d.source } := by
      unfold fireCloche
      rw [if_neg (by decide), if_pos rfl, hforced, hblock]
      rfl
    rw [hfire] at hexec
    obtain ⟨hbeds, hchip, hchain, hid⟩ := clocheChip_spec v (.fault k.val d.source) { block := k.val, source := d.source }
    exact ⟨_, hexec, hbeds, by rw [hchip]; exact mem_latchCause.1, fun h3 => absurd h3 (by decide), fun h3 => absurd h3 (by decide), fun _ => ⟨hchain.trans hvChain, hid.trans hvId⟩⟩
  · rw [hscope] at hexec ⊢
    have hfire : fireCloche v d 3 = originate (clocheChain v (.fault k.val d.source) { block := k.val, source := d.source }) k.val d.source := by
      unfold fireCloche
      rw [if_neg (by decide), if_neg (by decide), if_pos rfl, hforced, hblock]
      rfl
    rw [hfire] at hexec
    obtain ⟨hbeds, hchip, hchain⟩ := clocheChain_latched v (.fault k.val d.source) { block := k.val, source := d.source }
    have hurgent := clocheChain_urgent v (.fault k.val d.source) { block := k.val, source := d.source }
    generalize clocheChain v (.fault k.val d.source) { block := k.val, source := d.source } = u at hexec hbeds hchip hchain hurgent
    obtain ⟨hobed, hochip, hochain, hoclk, hosent⟩ := originate_spec u k.val d.source
    refine ⟨_, hexec, fun b hb => ?_, by rw [hochip, hchip]; exact mem_latchCause.1, fun _ => by rw [hochain, hchain]; exact mem_latchCause.1, fun _ hnone => ?_,
      fun h2 => absurd h2 (by decide)⟩
    · unfold State.bedc
      rw [hobed]
      exact hbeds b hb
    · obtain ⟨hlast, hid⟩ := hosent (hurgent.1.trans (hvLast.trans hnone))
      rw [hlast, hid, hoclk, hurgent.2, hvId]
      exact ⟨rfl, rfl⟩

/-! The resets that a fault asks for (R36, R41, R518). -/

/-- The record of a fault block in a state that engines have moved on. -/
theorem record_of_grows {v t : State} (h : FaultsGrow v t) (k : Nat) : (t.fblk k).ffValid = (v.fblk k).ffValid ∧ (t.fblk k).ffSource = (v.fblk k).ffSource ∧
    (t.fblk k).ffTime = (v.fblk k).ffTime := by
  have hrec := grows_record h k
  have hvalid := congrArg (fun x : FaultBlock => x.ffValid) hrec
  have hsource := congrArg (fun x : FaultBlock => x.ffSource) hrec
  have htime := congrArg (fun x : FaultBlock => x.ffTime) hrec
  exact ⟨hvalid, hsource, htime⟩

theorem blockEffect_clk (k : Nat) (o : Origin) : (blockEffect s k o).clk = s.clk := by
  have h : Only 131058 s (blockEffect s k o) := blockEffect_only rfl only_refl
  exact only_clk h

theorem clearEntries_clk (k : Nat) : (clearEntries s k).clk = s.clk := by
  obtain ⟨e, he⟩ := clearEntries_parts s k
  rw [he]

/-- A block reset, not absorbed, of a block other than SHED and the link ports. -/
theorem blockReset_starts {k : Nat} (hserves : ¬(deeper s = true ∨ s.clk.restarting = true ∨ s.blkReset k = true)) (hshed : k ≠ 0x12) (hroot : k ≠ 0x16) (htip : k ≠ 0x17) (o : Origin) :
    blockReset s k o = blockEffect ((clearEntries (anyReset s) k).modBlkReset k (fun _ => true)) k o := by
  unfold blockReset
  rw [if_neg hserves, if_neg hshed, if_neg (by omega)]

theorem resetLock_calm {v : State} (l : Nat) (h : Calm v s) : Calm v (resetLock s l) := by
  unfold resetLock
  split
  · exact h
  · refine endLockRun_calm ?_
    split
    · exact returnCredit_calm h
    · exact h

theorem dropLate_calm {v : State} (st : Nat) (h : Calm v s) : Calm v (dropLate s st) := by
  unfold dropLate
  exact calm_foldl h fun t x ht => returnCredit_calm ht

theorem endTimRun_calm {v : State} (u : Nat) (partOk : Bool) (cause : Nat) (h : Calm v s) : Calm v (endTimRun s u partOk cause) := by
  unfold endTimRun
  split
  · exact h
  next r _ =>
    refine endWork_calm ?_
    have hleft : Calm v (leaveWaiters (s.modTiu u (fun x => { x with run := none })) r.ring (.timWindow u)) := leaveWaiters_calm h
    split
    · exact returnCredit_calm hleft
    · exact hleft

theorem resetTim_calm {v : State} (u : Nat) (h : Calm v s) : Calm v (resetTim s u) := by
  unfold resetTim
  exact endTimRun_calm s u true 5 h

theorem resetBed_active (b : Nat) (o : Origin) : ((resetBed s b o).bedc b).active = true := by
  unfold resetBed
  dsimp only
  generalize interruptCal s _ 7 5 = u
  obtain ⟨hspec, -⟩ := clocheBed_spec u b .dead o 5
  have hown := hspec b
  rw [if_pos rfl] at hown
  have hactive : ((clocheBed u b .dead o 5).bedc b).active = true := by
    rw [hown]
    exact (startedBed_always _ _ _).1
  generalize clocheBed u b .dead o 5 = v at hactive
  have hcalm : Calm v ((bedLoops b).foldl (fun s l => s.modLoop l (fun x => { x with regions := { x.regions with known := false } })) (dropLate ([2 * b, 2 * b + 1].foldl resetTim
      ((bedLoops b).foldl resetLock (((bedLoops b) ++ [2048 + b]).foldl resetMeas (v.modTdll b (fun _ => false))))) b)) := by
    refine calm_foldl (dropLate_calm _ _ (calm_foldl (calm_foldl (calm_foldl calm_refl fun t a h => ?_) fun t a h => ?_) fun t a h => ?_)) fun t a h => ?_
    · exact endMeasRun_calm h
    · exact resetLock_calm t a h
    · exact resetTim_calm t a h
    · exact h
  obtain ⟨hbed, -⟩ := bed_of_calm hcalm
  unfold State.bedc at hactive ⊢
  dsimp only
  rw [hbed]
  exact hactive

/-- A block reset that a fault asks for (O58, the seventh clause). -/
theorem faultRegister_blockReset : ∀ (k : Block) (s : State) (d : Detect), registering s k.val = [d] → reactOf (s.react k.val d.source) = 3 → errnOf (s.react k.val d.source) = false →
    clocheOf (s.react k.val d.source) = 0 → k.val ≠ 0x12 → k.val ≠ 0x16 → k.val ≠ 0x17 → deeper s = false → s.clk.restarting = false → s.blkReset k.val = false →
    (s.fblk k.val).ffValid = false ∨ reactOf (s.fblk k.val).ffReact < 3 →
    ∃ t, exec (.faultRegister k []) s = .next t ∧ t.blkReset k.val = true ∧ (∀ j, j ≠ k.val → t.blkReset j = s.blkReset j) ∧ (t.fblk k.val).ffValid = true ∧
      (k.val < 16 → (t.bedc k.val).active = true) := by
  intro k s d h hreact herrn hcloche hshed hroot htip hdeep hrestart hblk hweaker
  have hblock : d.block = k.val := mem_registering s (by rw [h]; exact List.mem_singleton.2 rfl)
  have hexec := faultRegister_react s k h (by omega) hcloche
  rw [strongerFault_of (by rw [hreact]; exact hweaker), if_pos rfl, hreact] at hexec
  obtain ⟨-, -, -, -, -, hclk⟩ := faultNoted_beside s (s.react k.val d.source) k.val d
  have hfblk := faultNoted_fblk (cycleBegins s k.val [d] d.stamp) (s.react k.val d.source) d k.val
  rw [hblock, if_pos rfl] at hfblk
  generalize faultNoted (cycleBegins s k.val [d] d.stamp) (s.react k.val d.source) d = v at hexec hclk hfblk
  have hserves : ¬(deeper v = true ∨ v.clk.restarting = true ∨ v.blkReset k.val = true) := by
    have hd : deeper v = deeper s := by unfold deeper; rw [hclk]
    have hr : v.clk.restarting = s.clk.restarting := by rw [hclk]
    have hb : v.blkReset k.val = s.blkReset k.val := by unfold State.blkReset; rw [hclk]
    rw [hd, hr, hb, hdeep, hrestart, hblk]
    decide
  have hfire : fireReact v d 3 = blockEffect ((clearEntries (anyReset v) k.val).modBlkReset k.val (fun _ => true)) k.val { block := k.val, source := d.source } := by
    unfold fireReact
    rw [if_neg (by decide), if_pos rfl, hblock]
    exact blockReset_starts v hserves hshed hroot htip _
  rw [hfire] at hexec
  generalize hu : (clearEntries (anyReset v) k.val).modBlkReset k.val (fun _ => true) = u at hexec
  have hgrows : FaultsGrow v u := by
    have hcleared : FaultsGrow v (clearEntries (anyReset v) k.val) := clearEntries_grows (anyReset_grows grows_refl)
    rw [← hu]
    exact grows_mk rfl rfl hcleared
  have hany : (clearEntries (anyReset v) k.val).clk = v.clk := (clearEntries_clk (anyReset v) k.val).trans (anyReset_rest v).1
  have hreset : ∀ j, u.blkReset j = if j = k.val then true else s.blkReset j := by
    intro j
    rw [← hu]
    have hmod : ((clearEntries (anyReset v) k.val).modBlkReset k.val (fun _ => true)).blkReset j = if j = k.val then true else (clearEntries (anyReset v) k.val).blkReset j :=
      State.modBlkReset_blkReset ..
    rw [hmod]
    unfold State.blkReset
    rw [hany, hclk]
  have hclk' := blockEffect_clk u k.val { block := k.val, source := d.source }
  have hvalid := (record_of_grows (blockEffect_grows (a2 := k.val) (a3 := { block := k.val, source := d.source }) hgrows) k.val).1
  refine ⟨_, hexec, ?_, fun j hj => ?_, ?_, fun hk => ?_⟩
  · unfold State.blkReset
    rw [hclk']
    exact (hreset k.val).trans (if_pos rfl)
  · unfold State.blkReset
    rw [hclk']
    exact (hreset j).trans (if_neg hj)
  · rw [hvalid, hfblk]
    exact (recorded_always _ _ _).2.2.2.2.2.2.2
  · unfold blockEffect
    rw [if_pos hk]
    exact resetBed_active u k.val _

/-- A chip reset that a fault asks for, as it leaves the state `u` in which the reset has started. -/
theorem faultReset_tail {u : State} {k src stamp time : Nat} (hkind : u.clk.resetting = some .chip) (hnow : u.clk.time = time) (hend : u.clk.resetEnd = time + 32000)
    (hvalid : (u.fblk k).ffValid = true) (hsource : (u.fblk k).ffSource = src) (htime : (u.fblk k).ffTime = stamp) {t : State} (ht : t = { u with clk := { u.clk with resetByFault := true } }) :
    t.clk.resetting = some .chip ∧ t.clk.resetEnd = t.clk.time + 32000 ∧ t.clk.resetByFault = true ∧ (t.fblk k).ffValid = true ∧ (t.fblk k).ffSource = src ∧
      (t.fblk k).ffTime = stamp := by
  subst ht
  refine ⟨hkind, ?_, rfl, hvalid, hsource, htime⟩
  rw [hend, hnow]

/-- A chip reset of a fault's word starts where no reset is in progress. -/
theorem fireReact_chip {v : State} (d : Detect) (hnone : v.clk.resetting = none) (hoff : v.clk.phase ≠ .off) (hdeep : v.clk.phase ≠ .deep) :
    ∃ u, u = startReset v .chip 3 (v.clk.time + 32000) ∧ fireReact v d 4 = { u with clk := { u.clk with resetByFault := true } } := by
  refine ⟨_, rfl, ?_⟩
  unfold fireReact chipReset
  rw [if_neg (by decide), if_neg (by decide), if_pos rfl, hnone, decide_eq_false hoff, decide_eq_false hdeep]
  exact if_neg Bool.false_ne_true

/-- A chip reset that a fault asks for (O58, the ninth clause). -/
theorem faultRegister_chipReset : ∀ (k : Block) (s : State) (d : Detect), registering s k.val = [d] → reactOf (s.react k.val d.source) = 4 → errnOf (s.react k.val d.source) = false →
    clocheOf (s.react k.val d.source) = 0 → (s.fblk k.val).ffValid = false → s.clk.faultResetEnd = none → s.clk.resetting = none → s.clk.phase ≠ .off → s.clk.phase ≠ .deep →
    ∃ t, exec (.faultRegister k []) s = .next t ∧ t.clk.resetting = some .chip ∧ t.clk.resetEnd = t.clk.time + 32000 ∧ t.clk.resetByFault = true ∧
      (t.fblk k.val).ffValid = true ∧ (t.fblk k.val).ffSource = d.source ∧ (t.fblk k.val).ffTime = d.stamp := by
  intro k s d h hreact herrn hcloche hfree hlong hnone hoff hdeep
  have hblock : d.block = k.val := mem_registering s (by rw [h]; exact List.mem_singleton.2 rfl)
  have hexec := faultRegister_one s k h
  rw [registerOne_reacts (cycleBegins s k.val [d] d.stamp) (d := d) (w := s.react k.val d.source) (by rw [cycleBegins_react, hblock]) (takenWord_same _ (.inr hlong)) hcloche,
    cycleBegins_fblk, hblock, strongerFault_of (.inl hfree), if_pos rfl, hreact] at hexec
  obtain ⟨-, -, -, -, -, hclk⟩ := faultNoted_beside s (s.react k.val d.source) k.val d
  have hfblk := faultNoted_fblk (cycleBegins s k.val [d] d.stamp) (s.react k.val d.source) d k.val
  rw [hblock, if_pos rfl, cycleBegins_fblk, recorded_free _ d hfree] at hfblk
  generalize faultNoted (cycleBegins s k.val [d] d.stamp) (s.react k.val d.source) d = v at hexec hclk hfblk
  have hphase : v.clk.phase = s.clk.phase := by rw [hclk]
  have hidle : v.clk.resetting = none := by rw [hclk]; exact hnone
  obtain ⟨u, hu, hfire⟩ := fireReact_chip d hidle (by rw [hphase]; exact hoff) (by rw [hphase]; exact hdeep)
  obtain ⟨hvalid, hsource, htime⟩ := record_of_grows (startReset_grows (a2 := .chip) (a3 := 3) (a4 := v.clk.time + 32000) (grows_refl (s := v))) k.val
  obtain ⟨hkind, -, hnow, hend, -⟩ := resetHolds_spec (resetStops_halted v 3) .chip (v.clk.time + 32000) (hu.trans (startReset_eq v .chip 3 (v.clk.time + 32000)))
  rw [← hu, hfblk] at hvalid hsource htime
  exact ⟨_, hexec, faultReset_tail hkind hnow hend hvalid hsource htime hfire⟩

/-- Settles O58: each clause is one of the lemmas above, a registration through the record, the cloche or the reset. -/
theorem faultRegistration : Obligations.FaultRegistration := by
  unfold Obligations.FaultRegistration
  exact ⟨faultRegister_records, faultRegister_pair, faultRegister_errn, faultRegister_bed, faultRegister_chip, faultRegister_trap, faultRegister_blockReset, faultRegister_absorbed,
    faultRegister_chipReset, takenWord_weaker, fun k s => faultRegister_idle s k, faultRegister_forces, faultRegister_holds, faultRegister_begins⟩

end Sys2Proof.Machine

end

section
/-! PROOFS of O52: what a cloche leaves of the causes latched before, broken sensors and thermistors, and their recovery. -/

set_option Elab.async false
set_option linter.unusedVariables false

namespace Sys2Proof.Machine

variable {s t v : State}

/-- What every element of a list is given in its own step, and no other step takes away, holds of each at the end. -/
theorem foldl_each {ι : Type} {step : State → ι → State} {P : State → ι → Prop} (hown : ∀ v b, P (step v b) b) (hkeep : ∀ v b j, P v j → P (step v b) j) (l : List ι)
    (s : State) : (∀ b ∈ l, P (l.foldl step s) b) ∧ ∀ b, P s b → P (l.foldl step s) b := by
  induction l generalizing s with
  | nil => exact ⟨fun b h => (nomatch h), fun _ h => h⟩
  | cons a l ih =>
    obtain ⟨hin, hmono⟩ := ih (step s a)
    refine ⟨fun b hb => ?_, fun b hb => hmono b (hkeep s a b hb)⟩
    rcases List.mem_cons.1 hb with rfl | hb
    · exact hmono b (hown s b)
    · exact hin b hb

/-! Causes stay latched. -/

/-- A bed in cloche stays there, and no latched cause of a bed is lost. -/
def CausesGrow (v t : State) : Prop :=
  ∀ b, ((v.bedc b).active = true → (t.bedc b).active = true) ∧ ∀ c ∈ (v.bedc b).causes, c ∈ (t.bedc b).causes

theorem causesGrow_refl : CausesGrow s s := fun _ => ⟨id, fun _ h => h⟩

theorem causesGrow_trans (h : CausesGrow s t) (h' : CausesGrow t v) : CausesGrow s v := fun b => ⟨fun ha => (h' b).1 ((h b).1 ha), fun c hc => (h' b).2 c ((h b).2 c hc)⟩

theorem causesGrow_of_bed (h : t.flt.bed = s.flt.bed) : CausesGrow s t := fun b => by
  unfold State.bedc
  rw [h]
  exact ⟨id, fun _ h => h⟩

theorem clocheBed_causes (b : Nat) (c : Cause) (o : Origin) (run : Nat) : CausesGrow s (clocheBed s b c o run) := fun j => by
  obtain ⟨hspec, -⟩ := clocheBed_spec s b c o run
  rw [hspec]
  split
  next hj =>
    obtain ⟨hon, hcauses⟩ := startedBed_always { o with scope := 1 } s.clk.time { s.bedc b with causes := latchCause (s.bedc b).causes c }
    rw [hcauses, hj]
    exact ⟨fun _ => hon, mem_latchCause.2⟩
  next => exact ⟨id, fun _ h => h⟩

/-- A bed in cloche for a cause. -/
def HeldBy (s : State) (b : Nat) (c : Cause) : Prop := (s.bedc b).active = true ∧ c ∈ (s.bedc b).causes

theorem heldBy_grow {b : Nat} {c : Cause} (h : CausesGrow s t) (hs : HeldBy s b c) : HeldBy t b c := ⟨(h b).1 hs.1, (h b).2 c hs.2⟩

theorem clocheBed_holds (b : Nat) (c : Cause) (o : Origin) (run : Nat) : HeldBy (clocheBed s b c o run) b c := by
  obtain ⟨hspec, -⟩ := clocheBed_spec s b c o run
  obtain ⟨hon, hcauses⟩ := startedBed_always { o with scope := 1 } s.clk.time { s.bedc b with causes := latchCause (s.bedc b).causes c }
  unfold HeldBy
  rw [hspec, if_pos rfl]
  exact ⟨hon, by rw [hcauses]; exact mem_latchCause.1⟩

theorem clocheBed_others {b k : Nat} (h : k ≠ b) (c : Cause) (o : Origin) (run : Nat) : (clocheBed s b c o run).bedc k = s.bedc k := by
  obtain ⟨hspec, -⟩ := clocheBed_spec s b c o run
  rw [hspec, if_neg h]

theorem clocheBed_sup (b : Nat) (c : Cause) (o : Origin) (run : Nat) : (clocheBed s b c o run).sup = s.sup := by
  have h : Only 81906 s (clocheBed s b c o run) := clocheBed_only rfl only_refl
  exact only_sup h

theorem clocheHeavy_sup (h : Nat) (c : Cause) (run : Nat) : (clocheHeavy s h c run).sup = s.sup := by
  have h : Only 81778 s (clocheHeavy s h c run) := clocheHeavy_only rfl only_refl
  exact only_sup h

theorem clocheHeavy_causes (h : Nat) (c : Cause) (run : Nat) : CausesGrow s (clocheHeavy s h c run) := by
  have hlatched : ∀ (m : List Nat) (u : State), CausesGrow u (m.foldl (fun s l =>
      (s.modLoopc (l - 512) (fun x => latchCause x c)).modBedc (loopBed l) (fun x => { x with tripAt := some s.now })) u) := by
    intro m
    induction m with
    | nil => exact fun u => causesGrow_refl
    | cons l m ih =>
      refine fun u => causesGrow_trans (fun b => ?_) (ih _)
      have hmod : ((u.modLoopc (l - 512) (fun x => latchCause x c)).modBedc (loopBed l) (fun x => { x with tripAt := some u.now })).bedc b =
          if b = loopBed l then { u.bedc (loopBed l) with tripAt := some u.now } else u.bedc b := State.modBedc_bedc ..
      rw [hmod]
      split
      next hb => rw [hb]; exact ⟨id, fun _ h => h⟩
      next => exact ⟨id, fun _ h => h⟩
  unfold clocheHeavy
  dsimp only
  refine causesGrow_trans (hlatched (gangMembers s (gangLeader s (512 + h))) s) ?_
  generalize (gangMembers s (gangLeader s (512 + h))).foldl _ s = u
  obtain ⟨hbed, -⟩ := bed_of_calm (clocheLoop_calm (a2 := gangLeader s (512 + h)) (a3 := run) (calm_refl (s := u)))
  exact causesGrow_of_bed hbed

/-! Levels that hold a bed (R457). -/

theorem setHeld_level (s : State) (x : LevelId) (on : Bool) (k : Nat) :
    (setHeld s x on).level k = if k = levelKey x then { s.level (levelKey x) with held := on } else s.level k := State.modLevel_level ..

theorem setHeld_parts (s : State) (x : LevelId) (on : Bool) : ∃ l, setHeld s x on = { s with sup := { s.sup with level := l } } := ⟨_, rfl⟩

/-- A bed's level of the on-die sensors is entered: supervision's tables but that of the levels stay. -/
theorem enterGroup_parts (s : State) (b : Bed) : CausesGrow s (enterLevel s (.clocheGroup b)) ∧ FaultsGrow s (enterLevel s (.clocheGroup b)) ∧
    ∃ l, (enterLevel s (.clocheGroup b)).sup = { s.sup with level := l } := by
  unfold enterLevel
  dsimp only
  split
  · exact ⟨causesGrow_refl, grows_refl, _, rfl⟩
  · have hraised : FaultsGrow s ((setHeld s (.clocheGroup b) true).raise 0x1A 2 b.val) := State.raise_grows (grows_mk rfl rfl grows_refl)
    have hsup : ((setHeld s (.clocheGroup b) true).raise 0x1A 2 b.val).sup = (setHeld s (.clocheGroup b) true).sup := only_sup (State.raise_only (w := 65536) rfl only_refl)
    have hbed : ((setHeld s (.clocheGroup b) true).raise 0x1A 2 b.val).flt.bed = s.flt.bed := by
      obtain ⟨f, w, h⟩ := raise_parts (setHeld s (.clocheGroup b) true) 0x1A 2 b.val 0
      rw [h]
      rfl
    generalize (setHeld s (.clocheGroup b) true).raise 0x1A 2 b.val = u at hraised hsup hbed
    exact ⟨causesGrow_trans (causesGrow_of_bed hbed) (clocheBed_causes _ _ _ _), clocheBed_grows hraised, _, (clocheBed_sup ..).trans hsup⟩

theorem enterTherm_parts (s : State) (n : Bed) : CausesGrow s (enterLevel s (.clocheTh n)) ∧ FaultsGrow s (enterLevel s (.clocheTh n)) ∧
    ∃ l, (enterLevel s (.clocheTh n)).sup = { s.sup with level := l } := by
  unfold enterLevel
  dsimp only
  split
  · exact ⟨causesGrow_refl, grows_refl, _, rfl⟩
  · have hraised : FaultsGrow s ((setHeld s (.clocheTh n) true).raise 0x1A 6 n.val) := State.raise_grows (grows_mk rfl rfl grows_refl)
    have hsup : ((setHeld s (.clocheTh n) true).raise 0x1A 6 n.val).sup = (setHeld s (.clocheTh n) true).sup := only_sup (State.raise_only (w := 65536) rfl only_refl)
    have hbed : ((setHeld s (.clocheTh n) true).raise 0x1A 6 n.val).flt.bed = s.flt.bed := by
      obtain ⟨f, w, h⟩ := raise_parts (setHeld s (.clocheTh n) true) 0x1A 6 n.val 0
      rw [h]
      rfl
    generalize (setHeld s (.clocheTh n) true).raise 0x1A 6 n.val = u at hraised hsup hbed
    have hcauses : CausesGrow s (clocheBed u n.val (.level (.clocheTh n)) { block := 0x1A, source := 6 }) := causesGrow_trans (causesGrow_of_bed hbed) (clocheBed_causes _ _ _ _)
    have hgrows : FaultsGrow s (clocheBed u n.val (.level (.clocheTh n)) { block := 0x1A, source := 6 }) := clocheBed_grows hraised
    have hsup' : (clocheBed u n.val (.level (.clocheTh n)) { block := 0x1A, source := 6 }).sup = { s.sup with level := (setHeld s (.clocheTh n) true).sup.level } := (clocheBed_sup ..).trans hsup
    generalize clocheBed u n.val (.level (.clocheTh n)) { block := 0x1A, source := 6 } = w at hcauses hgrows hsup'
    generalize assignedLoops w n.val = l
    refine ⟨causesGrow_trans hcauses ?_, grows_foldl hgrows fun t a h => clocheHeavy_grows h, _, Eq.trans ?_ hsup'⟩
    · clear hcauses hgrows hsup'
      induction l generalizing w with
      | nil => exact causesGrow_refl
      | cons a l ih => exact causesGrow_trans (clocheHeavy_causes _ _ _) (ih _)
    · exact foldl_same (F := State.sup) (step := fun s h => clocheHeavy s h (.level (.clocheTh n))) (fun v h => clocheHeavy_sup ..) _ _

/-! A broken sensor (R462 to R464). -/

theorem restartExits_parts (s : State) (i : Nat) : ∃ l, restartExits s i = { s with sup := { s.sup with level := l } } := by
  unfold restartExits
  dsimp only
  generalize sensorLevels.filter _ = l
  induction l generalizing s with
  | nil => exact ⟨_, rfl⟩
  | cons a l ih =>
    obtain ⟨m, hm⟩ := ih (s.modLevel (levelKey a) (fun x => { x with down := 0 }))
    exact ⟨m, hm⟩

theorem sensorBeds_lt {i b : Nat} (h : b ∈ sensorBeds i) : b < 16 := by
  unfold sensorBeds at h
  split at h
  · exact nomatch h
  · dsimp only at h
    split at h
    · rw [List.mem_singleton] at h
      omega
    split at h
    · simp only [List.mem_cons, List.not_mem_nil, or_false] at h
      omega
    · simp only [List.mem_cons, List.not_mem_nil, or_false] at h
      omega

/-- The cloche of the beds whose groups lose sensor `i`. -/
def groupLost (i : Fin 48) (s : State) (b : Fin 16) : State :=
  clocheBed (enterLevel s (.clocheGroup b)) b.val (.broken (.sensor i)) { block := 0x1A, source := 7 }

theorem groupLost_sensor (i : Fin 48) (s : State) (b : Fin 16) : (groupLost i s b).sup.sensor = s.sup.sensor := by
  obtain ⟨-, -, l, hl⟩ := enterGroup_parts s b
  unfold groupLost
  rw [clocheBed_sup, hl]

theorem groupLost_causes (i : Fin 48) (s : State) (b : Fin 16) : CausesGrow s (groupLost i s b) := by
  obtain ⟨h, -⟩ := enterGroup_parts s b
  exact causesGrow_trans h (clocheBed_causes _ _ _ _)

/-- A state whose sensor `i` has just been declared broken. -/
def sensorLost (s : State) (i : Nat) : State :=
  restartExits ((s.modSensor i (fun y => { y with broken := true, suspect := false, window := [], rising := false })).raise 0x1A 7 i) i

theorem sensorLost_spec (s : State) (i : Nat) :
    (∀ k, (sensorLost s i).sensor k = if k = i then { s.sensor i with broken := true, suspect := false, window := [], rising := false } else s.sensor k) ∧
      ∃ d ∈ (sensorLost s i).flt.waiting, d.block = 0x1A ∧ d.source = 7 ∧ d.d0 = w16 i := by
  have hwait := raise_waiting (s.modSensor i (fun y => { y with broken := true, suspect := false, window := [], rising := false })) 0x1A 7 i 0
  obtain ⟨f, w, hraise⟩ := raise_parts (s.modSensor i (fun y => { y with broken := true, suspect := false, window := [], rising := false })) 0x1A 7 i 0
  have hsame : ((s.modSensor i (fun y => { y with broken := true, suspect := false, window := [], rising := false })).raise 0x1A 7 i).sup.sensor =
      (s.modSensor i (fun y => { y with broken := true, suspect := false, window := [], rising := false })).sup.sensor := by rw [hraise]
  unfold sensorLost
  generalize (s.modSensor i (fun y => { y with broken := true, suspect := false, window := [], rising := false })).raise 0x1A 7 i = u at hwait hsame
  obtain ⟨l, hl⟩ := restartExits_parts u i
  rw [hl]
  refine ⟨fun k => ?_, { block := 0x1A, source := 7, d0 := w16 i, d1 := w16 0, forced := false, stamp := f3 s.clk.time }, ?_, rfl, rfl, rfl⟩
  · change tget _ u.sup.sensor k = _
    rw [hsame]
    exact State.modSensor_sensor ..
  · dsimp only
    rw [hwait]
    exact List.mem_append_right _ (List.mem_singleton.2 rfl)

theorem sensorBroken_breaks : ∀ (i : Fin 48) (s : State), 4 ≤ (s.sensor i.val).fails → (s.sensor i.val).broken = false →
    ∃ t, exec (.sensorBroken (.sensor i)) s = .next t ∧ t.sensor i.val = { s.sensor i.val with broken := true, suspect := false, window := [], rising := false } ∧
      (∃ d ∈ t.flt.waiting, d.block = 0x1A ∧ d.source = 7 ∧ d.d0 = w16 i.val) ∧
      (∀ b ∈ sensorBeds i.val, (t.bedc b).active = true ∧ Cause.broken (.sensor i) ∈ (t.bedc b).causes) ∧ (∀ k, k ≠ i.val → t.sensor k = s.sensor k) := by
  intro i s hfails hbroken
  have hexec : exec (.sensorBroken (.sensor i)) s =
      .next (((List.finRange 16).filter (fun b => (sensorBeds i.val).contains b.val)).foldl (groupLost i) (sensorLost s i.val)) := congrArg Host.Outcome.next (if_pos ⟨hfails, hbroken⟩)
  obtain ⟨hsensor, d, hd, hblock, hsource, hd0⟩ := sensorLost_spec s i.val
  have hsame : ((((List.finRange 16).filter (fun b => (sensorBeds i.val).contains b.val)).foldl (groupLost i) (sensorLost s i.val)).sup.sensor) = (sensorLost s i.val).sup.sensor :=
    foldl_same (F := fun v : State => v.sup.sensor) (step := groupLost i) (groupLost_sensor i) _ _
  have hgrows : FaultsGrow (sensorLost s i.val) (((List.finRange 16).filter (fun b => (sensorBeds i.val).contains b.val)).foldl (groupLost i) (sensorLost s i.val)) :=
    grows_foldl grows_refl fun t b h => by
      obtain ⟨-, hg, -⟩ := enterGroup_parts t b
      exact grows_of (grows_waiting (clocheBed_grows hg)) (fun k => grows_record (clocheBed_grows hg) k) h
  obtain ⟨hheld, -⟩ := foldl_each (step := groupLost i) (P := fun v b => HeldBy v b.val (.broken (.sensor i))) (fun v b => clocheBed_holds ..)
    (fun v b j h => heldBy_grow (groupLost_causes i v b) h) ((List.finRange 16).filter (fun b => (sensorBeds i.val).contains b.val)) (sensorLost s i.val)
  generalize ((List.finRange 16).filter (fun b => (sensorBeds i.val).contains b.val)).foldl (groupLost i) (sensorLost s i.val) = t at hexec hsame hgrows hheld
  have hfinal : ∀ k, t.sensor k = (sensorLost s i.val).sensor k := fun k => by
    unfold State.sensor
    rw [hsame]
  refine ⟨t, hexec, by rw [hfinal, hsensor, if_pos rfl], ⟨d, (grows_waiting hgrows).subset hd, hblock, hsource, hd0⟩, fun b hb => ?_, fun k hk => by rw [hfinal, hsensor, if_neg hk]⟩
  exact hheld ⟨b, sensorBeds_lt hb⟩ (List.mem_filter.2 ⟨List.mem_finRange _, List.contains_iff_mem.2 hb⟩)

/-- The cloche of a heavy loop whose thermistor is broken, which leaves its charge window (R463, R467). -/
def loopLost (n : Bed) (s : State) (h : Nat) : State := chargeInvalid (clocheHeavy s h (.broken (.thermistor n))) h

theorem loopLost_sup (n : Bed) (s : State) (h : Nat) : ∃ c, (loopLost n s h).sup = { s.sup with charge := c } ∧
    ∀ k, (loopLost n s h).charge k = if k = h then { s.charge h with outCount := 4, inCount := 0 } else s.charge k := by
  have hsup := clocheHeavy_sup (s := s) h (.broken (.thermistor n)) 2
  unfold loopLost
  generalize clocheHeavy s h (.broken (.thermistor n)) = u at hsup
  refine ⟨(chargeInvalid u h).sup.charge, ?_, fun k => ?_⟩
  · rw [← hsup]
    rfl
  · have hcharge : ∀ k, u.charge k = s.charge k := fun k => by unfold State.charge; rw [hsup]
    rw [← hcharge h, ← hcharge k]
    exact State.modCharge_charge ..

theorem thermistorBroken_breaks : ∀ (n : Bed) (s : State), 4 ≤ (s.therm n.val).fails → (s.therm n.val).broken = false →
    ∃ t, exec (.sensorBroken (.thermistor n)) s = .next t ∧ t.therm n.val = { s.therm n.val with broken := true, suspect := false, window := [], rising := false } ∧
      (∃ d ∈ t.flt.waiting, d.block = 0x1A ∧ d.source = 8 ∧ d.d0 = w16 n.val) ∧ (t.bedc n.val).active = true ∧ Cause.broken (.thermistor n) ∈ (t.bedc n.val).causes ∧
      ∀ h ∈ assignedLoops s n.val, 4 ≤ (t.charge h).outCount := by
  intro n s hfails hbroken
  have hwait := raise_waiting (s.modTherm n.val (fun y => { y with broken := true, suspect := false, window := [], rising := false })) 0x1A 8 n.val 0
  obtain ⟨f, w, hraise⟩ := raise_parts (s.modTherm n.val (fun y => { y with broken := true, suspect := false, window := [], rising := false })) 0x1A 8 n.val 0
  have hexec : exec (.sensorBroken (.thermistor n)) s = .next (let u := clocheBed (enterLevel ((s.modTherm n.val (fun y => { y with
      broken := true, suspect := false, window := [], rising := false })).raise 0x1A 8 n.val) (.clocheTh n)) n.val (.broken (.thermistor n)) { block := 0x1A, source := 8 }
    (assignedLoops u n.val).foldl (loopLost n) u) := congrArg Host.Outcome.next (if_pos ⟨hfails, hbroken⟩)
  dsimp only at hexec
  generalize (s.modTherm n.val (fun y => { y with broken := true, suspect := false, window := [], rising := false })).raise 0x1A 8 n.val = u at hexec hwait hraise
  obtain ⟨-, hgrows, l, hsup⟩ := enterTherm_parts u n
  have hsup' := (clocheBed_sup (s := enterLevel u (.clocheTh n)) n.val (.broken (.thermistor n)) { block := 0x1A, source := 8 } 2).trans hsup
  have hheld := clocheBed_holds (s := enterLevel u (.clocheTh n)) n.val (.broken (.thermistor n)) { block := 0x1A, source := 8 } 2
  have hgrows' : FaultsGrow u (clocheBed (enterLevel u (.clocheTh n)) n.val (.broken (.thermistor n)) { block := 0x1A, source := 8 }) := clocheBed_grows hgrows
  generalize clocheBed (enterLevel u (.clocheTh n)) n.val (.broken (.thermistor n)) { block := 0x1A, source := 8 } = x at hexec hsup' hheld hgrows'
  have hassigned : assignedLoops x n.val = assignedLoops s n.val := by
    unfold assignedLoops State.charge
    rw [hsup', hraise]
    rfl
  rw [hassigned] at hexec
  have hcauses : ∀ v h, CausesGrow v (loopLost n v h) := fun v h => causesGrow_trans (clocheHeavy_causes (s := v) h (.broken (.thermistor n)) 2) (causesGrow_of_bed rfl)
  have hkeep : ∀ v b j, 4 ≤ (State.charge v j).outCount → 4 ≤ ((loopLost n v b).charge j).outCount := by
    intro v b j h
    obtain ⟨-, -, hcharge⟩ := loopLost_sup n v b
    rw [hcharge]
    split
    · exact Nat.le_refl 4
    · exact h
  have hown : ∀ v b, 4 ≤ ((loopLost n v b).charge b).outCount := by
    intro v b
    obtain ⟨-, -, hcharge⟩ := loopLost_sup n v b
    rw [hcharge, if_pos rfl]
  obtain ⟨hout, -⟩ := foldl_each (step := loopLost n) (P := fun v h => 4 ≤ (v.charge h).outCount) hown hkeep (assignedLoops s n.val) x
  have htherm : ((assignedLoops s n.val).foldl (loopLost n) x).sup.therm = x.sup.therm :=
    foldl_same (F := fun v : State => v.sup.therm) (step := loopLost n) (fun v h => by obtain ⟨c, hc, -⟩ := loopLost_sup n v h; rw [hc]) _ _
  have hgrowsAll : FaultsGrow u ((assignedLoops s n.val).foldl (loopLost n) x) :=
    grows_foldl hgrows' fun t h ht => grows_mk rfl rfl (clocheHeavy_grows (a2 := h) (a3 := .broken (.thermistor n)) (a4 := 2) ht)
  have hbed : HeldBy ((assignedLoops s n.val).foldl (loopLost n) x) n.val (.broken (.thermistor n)) := by
    generalize assignedLoops s n.val = m
    clear hout htherm hgrowsAll hexec hassigned hsup' hgrows'
    induction m generalizing x with
    | nil => exact hheld
    | cons a m ih => exact ih _ (heldBy_grow (hcauses x a) hheld)
  generalize (assignedLoops s n.val).foldl (loopLost n) x = t at hexec hout htherm hgrowsAll hbed
  refine ⟨t, hexec, ?_, ?_, hbed.1, hbed.2, hout⟩
  · have h : t.therm n.val = (s.modTherm n.val (fun y => { y with broken := true, suspect := false, window := [], rising := false })).therm n.val := by
      unfold State.therm
      rw [htherm, hsup', hraise]
    rw [h, State.modTherm_therm, if_pos rfl]
  · exact ⟨_, (grows_waiting hgrowsAll).subset (by rw [hwait]; exact List.mem_append_right _ (List.mem_singleton.2 rfl)), rfl, rfl, rfl⟩

/-! Recoveries (R462). -/

theorem brokenLive_spec (s : State) : (∀ k, k ≠ 0x1A → (brokenLive s).fblk k = s.fblk k) ∧
    ((brokenLive s).fblk 0x1A).live.getLsbD 7 = (List.range 48).any (fun i => (s.sensor i).broken) ∧
    ((brokenLive s).fblk 0x1A).live.getLsbD 8 = (List.range 16).any (fun i => (s.therm i).broken) := by
  have hbit : ∀ (u : State) (src : Nat) (on : Bool), src < 64 → ((u.live 0x1A src on).fblk 0x1A).live.getLsbD src = on := by
    intro u src on h
    cases on
    · exact live_off u 0x1A h
    · exact live_on u 0x1A h
  unfold brokenLive
  refine ⟨fun k hk => (live_eq _ _ _ _ k hk).trans (live_eq _ _ _ _ k hk), ?_, ?_⟩
  · rw [live_bit _ _ _ (by decide) (by decide) (by decide)]
    exact hbit _ 7 _ (by decide)
  · exact hbit _ 8 _ (by decide)

theorem any_range_iff {n : Nat} {p : Nat → Bool} : (List.range n).any p = true ↔ ∃ k, k < n ∧ p k = true := by
  simp [List.any_eq_true]

theorem sensorRecover_recovers : ∀ (i : Fin 48) (s : State), 64 ≤ (s.sensor i.val).passes →
    ∃ t, exec (.sensorRecover (.sensor i)) s = .next t ∧ t.sensor i.val = { s.sensor i.val with broken := false, suspect := false, passes := 0 } ∧
      (∀ k, k ≠ i.val → t.sensor k = s.sensor k) ∧ (∀ k, k ≠ 0x1A → t.fblk k = s.fblk k) ∧
      ((t.fblk 0x1A).live.getLsbD 7 = true ↔ ∃ k, k < 48 ∧ (t.sensor k).broken = true) ∧
      t = { s with sup := { s.sup with sensor := t.sup.sensor }, flt := { s.flt with block := t.flt.block } } := by
  intro i s hpasses
  have hexec : exec (.sensorRecover (.sensor i)) s = .next (brokenLive (s.modSensor i.val (fun y => { y with broken := false, suspect := false, passes := 0 }))) :=
    congrArg Host.Outcome.next (if_pos hpasses)
  have hsensor : ∀ k, (s.modSensor i.val (fun y => { y with broken := false, suspect := false, passes := 0 })).sensor k =
      if k = i.val then { s.sensor i.val with broken := false, suspect := false, passes := 0 } else s.sensor k := fun k => State.modSensor_sensor ..
  obtain ⟨b, hb⟩ := brokenLive_parts (s.modSensor i.val (fun y => { y with broken := false, suspect := false, passes := 0 }))
  obtain ⟨hothers, hlive, -⟩ := brokenLive_spec (s.modSensor i.val (fun y => { y with broken := false, suspect := false, passes := 0 }))
  have hsame : ∀ k, (brokenLive (s.modSensor i.val (fun y => { y with broken := false, suspect := false, passes := 0 }))).sensor k =
      (s.modSensor i.val (fun y => { y with broken := false, suspect := false, passes := 0 })).sensor k := fun k => by rw [hb]; rfl
  refine ⟨_, hexec, by rw [hsame, hsensor, if_pos rfl], fun k hk => by rw [hsame, hsensor, if_neg hk], hothers, ?_, by rw [hb]; rfl⟩
  rw [hlive, any_range_iff]
  simp only [hsame]

theorem thermistorRecover_recovers : ∀ (n : Bed) (s : State), 64 ≤ (s.therm n.val).passes →
    ∃ t, exec (.sensorRecover (.thermistor n)) s = .next t ∧ t.therm n.val = { s.therm n.val with broken := false, suspect := false, passes := 0 } ∧
      (∀ k, k ≠ n.val → t.therm k = s.therm k) ∧ (∀ k, k ≠ 0x1A → t.fblk k = s.fblk k) ∧
      ((t.fblk 0x1A).live.getLsbD 8 = true ↔ ∃ k, k < 16 ∧ (t.therm k).broken = true) ∧
      t = { s with sup := { s.sup with therm := t.sup.therm }, flt := { s.flt with block := t.flt.block } } := by
  intro n s hpasses
  have hexec : exec (.sensorRecover (.thermistor n)) s = .next (brokenLive (s.modTherm n.val (fun y => { y with broken := false, suspect := false, passes := 0 }))) :=
    congrArg Host.Outcome.next (if_pos hpasses)
  have htherm : ∀ k, (s.modTherm n.val (fun y => { y with broken := false, suspect := false, passes := 0 })).therm k =
      if k = n.val then { s.therm n.val with broken := false, suspect := false, passes := 0 } else s.therm k := fun k => State.modTherm_therm ..
  obtain ⟨b, hb⟩ := brokenLive_parts (s.modTherm n.val (fun y => { y with broken := false, suspect := false, passes := 0 }))
  obtain ⟨hothers, -, hlive⟩ := brokenLive_spec (s.modTherm n.val (fun y => { y with broken := false, suspect := false, passes := 0 }))
  have hsame : ∀ k, (brokenLive (s.modTherm n.val (fun y => { y with broken := false, suspect := false, passes := 0 }))).therm k =
      (s.modTherm n.val (fun y => { y with broken := false, suspect := false, passes := 0 })).therm k := fun k => by rw [hb]; rfl
  refine ⟨_, hexec, by rw [hsame, htherm, if_pos rfl], fun k hk => by rw [hsame, htherm, if_neg hk], hothers, ?_, by rw [hb]; rfl⟩
  rw [hlive, any_range_iff]
  simp only [hsame]

end Sys2Proof.Machine

end

section
/-! PROOFS of O52, continued: rails, charge windows, the keep-store window, the end of a shutdown and the trip log. -/

set_option Elab.async false
set_option linter.unusedVariables false

namespace Sys2Proof.Machine

variable (s : State)

theorem raise_fblk_ne {k j : Nat} (h : j ≠ k) (src d0 d1 : Nat) : (s.raise k src d0 d1).fblk j = s.fblk j := by
  have hlive := live_eq s k src true j h
  unfold State.raise
  dsimp only
  split
  · rfl
  · exact hlive

/-! Rails (R469). -/

/-- One side of a rail's dwell. -/
def railSide (high : Bool) (x : RailRead) : Level := if high then x.high else x.low

/-- A rail's reading with one side held or not. -/
def setRail (high on : Bool) (x : RailRead) : RailRead := if high then { x with high := { x.high with held := on } } else { x with low := { x.low with held := on } }

theorem setRail_spec (high on : Bool) (x : RailRead) : railSide high (setRail high on x) = { railSide high x with held := on } ∧
    (if high then (setRail high on x).low = x.low else (setRail high on x).high = x.high) ∧
    setRail high on x = { x with low := (setRail high on x).low, high := (setRail high on x).high } := by
  cases high
  · exact ⟨rfl, rfl, rfl⟩
  · exact ⟨rfl, rfl, rfl⟩

theorem railCross_crosses : ∀ (r : Fin 16) (d : Fin 4) (high : Bool) (s : State) (l : Level), l = (if high then (s.railRd (4 * r.val + d.val)).high else (s.railRd (4 * r.val + d.val)).low) →
    l.held = false → 4 ≤ l.up →
    ∃ t, exec (.railCrossing r d high) s = .next t ∧ (if high then (t.railRd (4 * r.val + d.val)).high else (t.railRd (4 * r.val + d.val)).low) = { l with held := true } ∧
      (∃ x ∈ t.flt.waiting, x.block = 0x1A ∧ x.source = (if high then 10 else 9) ∧ x.d0 = w16 r.val ∧ x.d1 = w16 (if r.val < 14 then 0 else d.val)) ∧
      (∀ k, k ≠ 4 * r.val + d.val → t.railRd k = s.railRd k) ∧ (∀ k, k ≠ 0x1A → t.fblk k = s.fblk k) ∧
      t.railRd (4 * r.val + d.val) = { s.railRd (4 * r.val + d.val) with low := (t.railRd (4 * r.val + d.val)).low, high := (t.railRd (4 * r.val + d.val)).high } ∧
      (if high then (t.railRd (4 * r.val + d.val)).low = (s.railRd (4 * r.val + d.val)).low else (t.railRd (4 * r.val + d.val)).high = (s.railRd (4 * r.val + d.val)).high) ∧
      (t.fblk 0x1A).live.getLsbD (if high then 10 else 9) = true ∧
      t = { s with sup := { s.sup with railRead := t.sup.railRead }, flt := { s.flt with block := t.flt.block, waiting := t.flt.waiting } } := by
  intro r d high s l hl hheld hup
  obtain ⟨u, hu⟩ : ∃ u, u = s.modRailRd (4 * r.val + d.val) (setRail high true) := ⟨_, rfl⟩
  have hexec : exec (.railCrossing r d high) s = .next (u.raise 0x1A (if high then 10 else 9) r.val (if r.val < 14 then 0 else d.val)) := by
    have hdue : (!l.held && decide (4 ≤ l.up)) = true := by rw [hheld, decide_eq_true hup]; rfl
    rw [hu]
    rw [hl] at hdue
    exact congrArg Host.Outcome.next (if_pos hdue)
  have hrail : ∀ k, u.railRd k = if k = 4 * r.val + d.val then setRail high true (s.railRd (4 * r.val + d.val)) else s.railRd k := fun k => by
    rw [hu]
    exact State.modRailRd_railRd ..
  have hwait := raise_waiting u 0x1A (if high then 10 else 9) r.val (if r.val < 14 then 0 else d.val)
  have hlive : ((u.raise 0x1A (if high then 10 else 9) r.val (if r.val < 14 then 0 else d.val)).fblk 0x1A).live.getLsbD (if high then 10 else 9) = true := by
    cases high
    · exact raise_live u _ _ (by decide) (by decide)
    · exact raise_live u _ _ (by decide) (by decide)
  have hothers : ∀ k, k ≠ 0x1A → (u.raise 0x1A (if high then 10 else 9) r.val (if r.val < 14 then 0 else d.val)).fblk k = s.fblk k := fun k hk =>
    (raise_fblk_ne u hk _ _ _).trans (by rw [hu]; rfl)
  obtain ⟨f, w, hraise⟩ := raise_parts u 0x1A (if high then 10 else 9) r.val (if r.val < 14 then 0 else d.val)
  generalize u.raise 0x1A (if high then 10 else 9) r.val (if r.val < 14 then 0 else d.val) = t at hexec hwait hlive hothers hraise
  have hfinal : ∀ k, t.railRd k = u.railRd k := fun k => by rw [hraise]; rfl
  have hown : t.railRd (4 * r.val + d.val) = setRail high true (s.railRd (4 * r.val + d.val)) := by rw [hfinal, hrail, if_pos rfl]
  obtain ⟨hside, hother, hrest⟩ := setRail_spec high true (s.railRd (4 * r.val + d.val))
  rw [← hown] at hside hother hrest
  exact ⟨t, hexec, hside.trans (by rw [hl]; rfl), ⟨_, by rw [hwait]; exact List.mem_append_right _ (List.mem_singleton.2 rfl), rfl, rfl, rfl, rfl⟩,
    fun k hk => by rw [hfinal, hrail, if_neg hk], hothers, hrest, hother, hlive, by rw [hraise, hu]; rfl⟩

theorem railCross_waits : ∀ (r : Fin 16) (d : Fin 4) (high : Bool) (s : State) (l : Level), l = (if high then (s.railRd (4 * r.val + d.val)).high else (s.railRd (4 * r.val + d.val)).low) →
    l.held = true ∨ l.up < 4 → exec (.railCrossing r d high) s = .next s := by
  intro r d high s l hl h
  have hdue : (!l.held && decide (4 ≤ l.up)) = false := by
    rcases h with h | h
    · rw [h]
      rfl
    · rw [decide_eq_false (by omega), Bool.and_false]
  rw [hl] at hdue
  exact congrArg Host.Outcome.next (if_neg (fun hc => Bool.false_ne_true (hdue.symm.trans hc)))

theorem railLive_spec : (∀ k, k ≠ 0x1A → (railLive s).fblk k = s.fblk k) ∧ ∃ b, railLive s = { s with flt := { s.flt with block := b } } := by
  unfold railLive
  exact ⟨fun k hk => (live_eq _ _ _ _ k hk).trans (live_eq _ _ _ _ k hk), _, rfl⟩

theorem railExit_exits : ∀ (r : Fin 16) (d : Fin 4) (high : Bool) (s : State) (l : Level), l = (if high then (s.railRd (4 * r.val + d.val)).high else (s.railRd (4 * r.val + d.val)).low) →
    l.held = true → 64 ≤ l.down →
    ∃ t, exec (.railThresholdExit r d high) s = .next t ∧
      (if high then (t.railRd (4 * r.val + d.val)).high else (t.railRd (4 * r.val + d.val)).low) = { l with held := false } ∧
      (∀ k, k ≠ 4 * r.val + d.val → t.railRd k = s.railRd k) ∧ (∀ k, k ≠ 0x1A → t.fblk k = s.fblk k) ∧
      t = { s with sup := { s.sup with railRead := t.sup.railRead }, flt := { s.flt with block := t.flt.block } } := by
  intro r d high s l hl hheld hdown
  obtain ⟨u, hu⟩ : ∃ u, u = s.modRailRd (4 * r.val + d.val) (setRail high false) := ⟨_, rfl⟩
  have hexec : exec (.railThresholdExit r d high) s = .next (railLive u) := by
    have hdue : (l.held && decide (64 ≤ l.down)) = true := by rw [hheld, decide_eq_true hdown]; rfl
    rw [hu]
    rw [hl] at hdue
    exact congrArg Host.Outcome.next (if_pos hdue)
  have hrail : ∀ k, u.railRd k = if k = 4 * r.val + d.val then setRail high false (s.railRd (4 * r.val + d.val)) else s.railRd k := fun k => by
    rw [hu]
    exact State.modRailRd_railRd ..
  obtain ⟨hothers, b, hlive⟩ := railLive_spec u
  have hfinal : ∀ k, (railLive u).railRd k = u.railRd k := fun k => by rw [hlive]; rfl
  have hown : (railLive u).railRd (4 * r.val + d.val) = setRail high false (s.railRd (4 * r.val + d.val)) := by rw [hfinal, hrail, if_pos rfl]
  obtain ⟨hside, -⟩ := setRail_spec high false (s.railRd (4 * r.val + d.val))
  rw [← hown] at hside
  exact ⟨_, hexec, hside.trans (by rw [hl]; rfl), fun k hk => by rw [hfinal, hrail, if_neg hk], fun k hk => (hothers k hk).trans (by rw [hu]; rfl), by rw [hlive, hu]; rfl⟩

theorem railExit_waits : ∀ (r : Fin 16) (d : Fin 4) (high : Bool) (s : State) (l : Level), l = (if high then (s.railRd (4 * r.val + d.val)).high else (s.railRd (4 * r.val + d.val)).low) →
    l.held = false ∨ l.down < 64 → exec (.railThresholdExit r d high) s = .next s := by
  intro r d high s l hl h
  have hdue : (l.held && decide (64 ≤ l.down)) = false := by
    rcases h with h | h
    · rw [h]
      rfl
    · rw [decide_eq_false (by omega), Bool.and_false]
  rw [hl] at hdue
  exact congrArg Host.Outcome.next (if_neg (fun hc => Bool.false_ne_true (hdue.symm.trans hc)))

/-! Charge windows and the keep-store window (R467, R468, R470). -/

theorem chargeLeave_next : ∀ (h : Heavy) (s : State), exec (.chargeWindowLeave h) s = .next (if (s.charge h.val).out = false ∧ 4 ≤ (s.charge h.val).outCount then
    s.modCharge h.val (fun x => { x with out := true }) else s) := by
  intro h s
  refine congrArg Host.Outcome.next ?_
  unfold chargeLeaveDue
  simp only [Bool.and_eq_true, Bool.not_eq_true', decide_eq_true_eq]

theorem chargeReturn_next : ∀ (h : Heavy) (s : State), exec (.chargeWindowReturn h) s = .next (if (s.charge h.val).out = true ∧ 64 ≤ (s.charge h.val).inCount then
    s.modCharge h.val (fun x => { x with out := false }) else s) := by
  intro h s
  refine congrArg Host.Outcome.next ?_
  unfold chargeReturnDue
  simp only [Bool.and_eq_true, decide_eq_true_eq]

theorem chargeReading_out : ∀ (s : State) (h : Nat) (x : Frac), (s.charge h).outCount < 4 → (s.charge h).inCount < 64 → x.lt (f32 (s.charge h).low) = true →
    (chargeReading s h (some x)).charge h = { s.charge h with outCount := (s.charge h).outCount + 1, inCount := 0 } := by
  intro s h x hout hin hlow
  have hleave : chargeLeaveDue s h = s := by
    unfold chargeLeaveDue
    rw [decide_eq_false (by omega), Bool.and_false, if_neg Bool.false_ne_true]
  have hreturn : chargeReturnDue s h = s := by
    unfold chargeReturnDue
    rw [decide_eq_false (by omega), Bool.and_false, if_neg Bool.false_ne_true]
  unfold chargeReading
  rw [hleave, hreturn]
  dsimp only
  rw [hlow, Bool.true_or, if_pos rfl, State.modCharge_charge, if_pos rfl]

theorem chargeReading_none (h : Nat) : (chargeReading s h none).charge h = { (chargeReading s h none).charge h with outCount := 4, inCount := 0 } := by
  unfold chargeReading chargeInvalid
  dsimp only
  rw [State.modCharge_charge, if_pos rfl]

theorem keepClose_next : ∀ (s : State), exec .keepWindowClose s = .next (if s.sup.keepOpen = true ∧ 4 ≤ s.sup.keepOut then { s with sup := { s.sup with keepOpen := false } } else s) := by
  intro s
  refine congrArg Host.Outcome.next ?_
  unfold keepCloseDue
  simp only [Bool.and_eq_true, decide_eq_true_eq]

theorem keepOpen_next : ∀ (s : State), exec .keepWindowOpen s = .next (if s.sup.keepOpen = false ∧ 64 ≤ s.sup.keepIn then { s with sup := { s.sup with keepOpen := true } } else s) := by
  intro s
  refine congrArg Host.Outcome.next ?_
  unfold keepOpenDue
  simp only [Bool.and_eq_true, Bool.not_eq_true', decide_eq_true_eq]

/-! The power-down of a shutdown (R471). -/

/-- Every stage is attached or not as before. -/
def SameAttached (v t : State) : Prop := ∀ k, (t.stage k).attached = (v.stage k).attached

theorem freeTelem_attached (k : Nat) : SameAttached s (freeTelem s k) := by
  unfold freeTelem
  dsimp only
  have hser : (if (s.stage k).telemCredit = .held then returnCredit s (s.stage k).ring telemUnits else s).ser = s.ser := by
    split
    · exact only_ser (returnCredit_only (w := 73504) rfl only_refl)
    · rfl
  generalize (if (s.stage k).telemCredit = .held then returnCredit s (s.stage k).ring telemUnits else s) = u at hser
  intro j
  rw [State.modStage_stage]
  unfold State.stage
  rw [hser]
  split
  next hj => rw [hj]
  next => rfl

theorem abortFrame_attached (k : Nat) (b : Bool) : SameAttached s (abortFrame s k b) := by
  unfold abortFrame
  split
  · exact fun _ => rfl
  · have hfree := freeTelem_attached s k
    generalize freeTelem s k = u at hfree
    intro j
    have hraise : ∀ v : State, (v.raise 0x19 0 k).stage j = v.stage j := fun v => by
      obtain ⟨f, w, h⟩ := raise_parts v 0x19 0 k 0
      rw [h]
      rfl
    rw [hraise, State.modStage_stage, ← hfree j]
    split
    next hj => rw [hj]
    next => rfl

theorem aborted_attached (l : List Nat) (b : Bool) : SameAttached s (l.foldl (fun s k => abortFrame s k b) s) := by
  induction l generalizing s with
  | nil => exact fun _ => rfl
  | cons k l ih => exact fun j => (ih (abortFrame s k b) j).trans (abortFrame_attached s k b j)

theorem disableStage_spec (k : Nat) : SameAttached s (disableStage s k) ∧ ((s.stage k).attached = true → ((disableStage s k).stage k).disable = true) := by
  unfold disableStage
  split
  next hatt =>
    have haborted := aborted_attached s (List.range 16) true
    generalize (List.range 16).foldl (fun s k => abortFrame s k true) s = u at haborted
    refine ⟨fun j => ?_, fun _ => ?_⟩
    · rw [State.modStage_stage, ← haborted j]
      split
      next hj => rw [hj]
      next => rfl
    · rw [State.modStage_stage, if_pos rfl]
  next hatt => exact ⟨fun _ => rfl, fun h => absurd h hatt⟩

theorem disableStages_spec (l : List Nat) : (∀ k ∈ l, (s.stage k).attached = true → ((l.foldl disableStage s).stage k).disable = true) ∧
    (∀ k, (s.stage k).disable = true → ((l.foldl disableStage s).stage k).disable = true) := by
  induction l generalizing s with
  | nil => exact ⟨fun k h => (nomatch h), fun _ h => h⟩
  | cons a l ih =>
    obtain ⟨hsame, hown⟩ := disableStage_spec s a
    obtain ⟨hin, hkeep⟩ := ih (disableStage s a)
    refine ⟨fun k hk hatt => ?_, fun k hd => hkeep k ((disableStage_held a k).2 hd)⟩
    rcases List.mem_cons.1 hk with rfl | hk
    · exact hkeep k (hown hatt)
    · exact hin k hk ((hsame k).trans hatt)

theorem disableStages_none (l : List Nat) (h : ∀ k ∈ l, (s.stage k).attached = false) : l.foldl disableStage s = s := by
  induction l with
  | nil => rfl
  | cons a l ih =>
    have hone : disableStage s a = s := by
      unfold disableStage
      rw [if_neg (by rw [h a List.mem_cons_self]; exact Bool.false_ne_true)]
    rw [List.foldl_cons, hone]
    exact ih fun k hk => h k (List.mem_cons_of_mem _ hk)

theorem staleTherm_parts (b : Nat) : ∃ m c, staleTherm s b = { s with sup := { s.sup with therm := m, charge := c } } ∧
    (∀ n, (staleTherm s b).therm n = if n = b then { s.therm b with stale := true, window := [], rising := false } else s.therm n) := by
  have hfold : ∀ (l : List Nat) (u : State), ∃ c, l.foldl chargeInvalid u = { u with sup := { u.sup with charge := c } } := by
    intro l
    induction l with
    | nil => exact fun u => ⟨_, rfl⟩
    | cons a l ih =>
      intro u
      obtain ⟨c, hc⟩ := ih (chargeInvalid u a)
      exact ⟨c, hc⟩
  obtain ⟨c, hc⟩ := hfold (assignedLoops (s.modTherm b (fun x => { x with stale := true, window := [], rising := false })) b)
    (s.modTherm b (fun x => { x with stale := true, window := [], rising := false }))
  have hstale : staleTherm s b = { s.modTherm b (fun x => { x with stale := true, window := [], rising := false }) with
    sup := { (s.modTherm b (fun x => { x with stale := true, window := [], rising := false })).sup with charge := c } } := hc
  refine ⟨_, c, hstale, fun n => ?_⟩
  have hsame : (staleTherm s b).therm n = (s.modTherm b (fun x => { x with stale := true, window := [], rising := false })).therm n := by
    rw [hstale]
    rfl
  exact hsame.trans (State.modTherm_therm ..)

theorem staleTherms_spec (l : List Nat) : (∃ m c, l.foldl staleTherm s = { s with sup := { s.sup with therm := m, charge := c } }) ∧
    (∀ n ∈ l, ((l.foldl staleTherm s).therm n).stale = true) ∧ ∀ n, (s.therm n).stale = true → ((l.foldl staleTherm s).therm n).stale = true := by
  induction l generalizing s with
  | nil => exact ⟨⟨_, _, rfl⟩, fun n h => (nomatch h), fun _ h => h⟩
  | cons a l ih =>
    obtain ⟨m, c, hparts, htherm⟩ := staleTherm_parts s a
    obtain ⟨⟨m', c', hrest⟩, hin, hkeep⟩ := ih (staleTherm s a)
    refine ⟨⟨m', c', ?_⟩, fun n hn => ?_, fun n hn => hkeep n ?_⟩
    · rw [List.foldl_cons, hrest, hparts]
    · rcases List.mem_cons.1 hn with rfl | hn
      · exact hkeep n (by rw [htherm, if_pos rfl])
      · exact hin n hn
    · rw [htherm]
      split
      next => rfl
      next => exact hn

theorem shutdownPowerDown_halts : ∀ (s : State), s.sup.shutdown = true → s.sup.analogueOff = false →
    ∃ t, exec .shutdownPowerDown s = .next t ∧ t.sup.analogueOff = true ∧ t.sup.shedSlow = true ∧ t.clk.time = max s.clk.time (s.sup.shutTime + 320000) ∧
      (∀ k, k < 16 → (s.stage k).attached = true → (t.stage k).disable = true) ∧ (∀ n, n < 16 → (t.therm n).stale = true) ∧
      (∀ b, t.bedc b = s.bedc b) ∧ t.mb = s.mb ∧ t.pins = s.pins ∧ t.edge = s.edge ∧ t.cal = s.cal ∧ t.bus = s.bus ∧
      ((∀ k, k < 16 → (s.stage k).attached = false) → t = { s with clk := { s.clk with time := t.clk.time }, sup := { s.sup with analogueOff := true, shedSlow := true, therm := t.sup.therm, charge := t.sup.charge } }) := by
  intro s hshut hoff
  have hdue : (s.sup.shutdown && !s.sup.analogueOff) = true := by rw [hshut, hoff]; rfl
  obtain ⟨u, hu⟩ : ∃ u, u = (List.range 16).foldl disableStage (s.reach (s.sup.shutTime + 320000)) := ⟨_, rfl⟩
  obtain ⟨v, hv⟩ : ∃ v : State, v = { u with sup := { u.sup with analogueOff := true, shedSlow := true } } := ⟨_, rfl⟩
  have hexec : exec .shutdownPowerDown s = .next ((List.range 16).foldl staleTherm v) := by
    rw [hv, hu]
    exact congrArg Host.Outcome.next (if_pos hdue)
  have honly : Only 81696 (s.reach (s.sup.shutTime + 320000)) u := by
    rw [hu]
    exact only_foldl only_refl fun t a h => disableStage_only rfl h
  have hcalm : Calm (s.reach (s.sup.shutTime + 320000)) u := by
    rw [hu]
    exact calm_foldl calm_refl fun t a h => disableStage_calm h
  obtain ⟨hbed, -⟩ := bed_of_calm hcalm
  obtain ⟨hdisable, -⟩ := disableStages_spec (s.reach (s.sup.shutTime + 320000)) (List.range 16)
  rw [← hu] at hdisable
  obtain ⟨⟨m, c, hparts⟩, hstale, -⟩ := staleTherms_spec v (List.range 16)
  generalize (List.range 16).foldl staleTherm v = t at hexec hparts hstale
  have hclk : u.clk = (s.reach (s.sup.shutTime + 320000)).clk := only_clk honly
  have htime : t.clk.time = max s.clk.time (s.sup.shutTime + 320000) := by
    rw [hparts, hv]
    exact congrArg Clock.time hclk
  have hmb : u.mb = (s.reach (s.sup.shutTime + 320000)).mb := only_mb honly
  have hpins : u.pins = (s.reach (s.sup.shutTime + 320000)).pins := only_pins honly
  have hedge : u.edge = (s.reach (s.sup.shutTime + 320000)).edge := only_edge honly
  have hcal : u.cal = (s.reach (s.sup.shutTime + 320000)).cal := only_cal honly
  have hbus : u.bus = (s.reach (s.sup.shutTime + 320000)).bus := only_bus honly
  refine ⟨t, hexec, by rw [hparts, hv], by rw [hparts, hv], htime, fun k hk hatt => ?_, fun n hn => hstale n (List.mem_range.2 hn), fun b => ?_, ?_, ?_, ?_, ?_, ?_, fun hnone => ?_⟩
  · rw [hparts, hv]
    exact hdisable k (List.mem_range.2 hk) hatt
  · rw [hparts, hv]
    unfold State.bedc
    dsimp only
    rw [hbed]
    rfl
  · rw [hparts, hv]
    exact hmb
  · rw [hparts, hv]
    exact hpins
  · rw [hparts, hv]
    exact hedge
  · rw [hparts, hv]
    exact hcal
  · rw [hparts, hv]
    exact hbus
  · have hidle : u = s.reach (s.sup.shutTime + 320000) := hu.trans (disableStages_none _ _ fun k hk => hnone k (List.mem_range.1 hk))
    rw [hparts, hv, hidle]
    rfl

theorem shutdownPowerDown_waits : ∀ (s : State), s.sup.shutdown = false ∨ s.sup.analogueOff = true → exec .shutdownPowerDown s = .next s := by
  intro s h
  have hdue : (s.sup.shutdown && !s.sup.analogueOff) = false := by
    rcases h with h | h
    · rw [h]
      rfl
    · rw [h, Bool.not_true, Bool.and_false]
  exact congrArg Host.Outcome.next (if_neg (fun hc => Bool.false_ne_true (hdue.symm.trans hc)))

end Sys2Proof.Machine

end
